-- ==== Sys2Proof/Word.lean ====
section
/-! DEFINITION. Words, byte strings and the sparse tables in which the model holds what the spec numbers. -/

namespace Sys2Proof

/-- One byte. -/
abbrev Byte := BitVec 8

/-- A 32-bit word: one BAR0 register, or a binary32 number. -/
abbrev Word := BitVec 32

/-- A 64-bit word: a counter pair, a host address, or a binary64 number. -/
abbrev DWord := BitVec 64

/-- A string of bytes, the byte at the lowest address first. -/
abbrev Bytes := List Byte

/-- A table of numbered entries in one canonical form: numbers strictly rising, an absent number is an empty entry. -/
abbrev Tbl (α : Type) := List (Nat × α)

/-- An addressed memory of bytes: addresses strictly rising, an unlisted address reads 0 and no entry is 0. -/
abbrev Ram := List (Nat × Byte)

/-- The entry of number `k`. -/
def Tbl.find {α : Type} : Tbl α → Nat → Option α
  | [], _ => none
  | (j, v) :: t, k => if j = k then some v else Tbl.find t k

/-- The table with entry `k` set to `v`. -/
def Tbl.put {α : Type} : Tbl α → Nat → α → Tbl α
  | [], k, v => [(k, v)]
  | (j, w) :: t, k, v =>
    if j = k then (k, v) :: t
    else if k < j then (k, v) :: (j, w) :: t
    else (j, w) :: Tbl.put t k v

/-- The table without entry `k`. -/
def Tbl.drop {α : Type} : Tbl α → Nat → Tbl α
  | [], _ => []
  | (j, w) :: t, k => if j = k then Tbl.drop t k else (j, w) :: Tbl.drop t k

/-- Entry `k`, or the default of an empty entry. -/
def Tbl.getD {α : Type} (t : Tbl α) (k : Nat) (dflt : α) : α := (t.find k).getD dflt

/-- The table with entry `k` changed by `f`, where an empty entry counts as `dflt`. -/
def Tbl.update {α : Type} (t : Tbl α) (k : Nat) (dflt : α) (f : α → α) : Tbl α := t.put k (f (t.getD k dflt))

/-- The table with `f` applied to every entry. -/
def Tbl.mapVals {α β : Type} (f : Nat → α → β) : Tbl α → Tbl β
  | [] => []
  | (j, v) :: t => (j, f j v) :: Tbl.mapVals f t

/-- The entries that satisfy `p`. -/
def Tbl.keep {α : Type} (p : Nat → α → Bool) : Tbl α → Tbl α
  | [] => []
  | (j, v) :: t => if p j v then (j, v) :: Tbl.keep p t else Tbl.keep p t

/-- The canonical form: numbers strictly rising. -/
def Tbl.wf {α : Type} : Tbl α → Bool
  | [] => true
  | [_] => true
  | (j, _) :: (k, w) :: t => decide (j < k) && Tbl.wf ((k, w) :: t)

/-- Bit `i` of a mask held as a number. -/
def hasBit (m i : Nat) : Bool := m.testBit i

/-- The mask `m` with bit `i` at `b`. -/
def putBit (m i : Nat) (b : Bool) : Nat :=
  if m.testBit i then (if b then m else m - 2 ^ i) else (if b then m + 2 ^ i else m)

/-- The mask whose set bits are the numbers listed. -/
def maskOf (l : List Nat) : Nat := l.foldl (fun m i => putBit m i true) 0

/-- The numbers below `n` whose bit is set in `m`, rising. -/
def bitsOf (n m : Nat) : List Nat := (List.range n).filter (fun i => m.testBit i)

/-- The number of set bits of `m` below bit `n`. -/
def popCount (n m : Nat) : Nat := (bitsOf n m).length

/-- One or zero. -/
def b2n (b : Bool) : Nat := if b then 1 else 0

/-- The value capped at `m` (a saturating count). -/
def sat (m v : Nat) : Nat := min m v

/-- The `n` bytes of `v`, least significant first (R4: structures in DDR5, MRAM and host memory). -/
def leBytes : Nat → Nat → Bytes
  | 0, _ => []
  | n + 1, v => BitVec.ofNat 8 v :: leBytes n (v / 256)

/-- The number that little-endian bytes spell. -/
def leNat : Bytes → Nat
  | [] => 0
  | b :: t => b.toNat + 256 * leNat t

/-- The `n` bytes of `v`, most significant first (R4: the order of Turran's own wire protocols). -/
def beBytes (n v : Nat) : Bytes := (leBytes n v).reverse

/-- The number that big-endian bytes spell. -/
def beNat (b : Bytes) : Nat := leNat b.reverse

/-- `n` zero bytes. -/
def zeros (n : Nat) : Bytes := List.replicate n 0

/-- Bytes `off` to `off + n - 1`, padded with zeros where the string is shorter. -/
def slice (b : Bytes) (off n : Nat) : Bytes :=
  let t := (b.drop off).take n
  t ++ zeros (n - t.length)

/-- The string padded with zeros to a multiple of `k` bytes. -/
def padTo (k : Nat) (b : Bytes) : Bytes := b ++ zeros ((k - b.length % k) % k)

/-- The ASCII bytes of a string. -/
def asciiBytes (s : String) : Bytes := s.toList.map (fun c => BitVec.ofNat 8 c.toNat)

/-- The signed difference of R9: `(a - b) mod 2ⁿ` read as two's complement. -/
def signedDiff (n a b : Nat) : Int :=
  let d := (a % 2 ^ n + 2 ^ n - b % 2 ^ n) % 2 ^ n
  if d < 2 ^ (n - 1) then (d : Int) else (d : Int) - (2 ^ n : Nat)

/-- `a` is later than `b` under R9. -/
def laterThan (n a b : Nat) : Bool := decide (0 < signedDiff n a b)

/-- A whole number in `n` bits of two's complement, as a number. -/
def toTwos (n : Nat) (v : Int) : Nat := (v % (2 ^ n : Nat)).toNat

/-- Two's complement of `n` bits read as a whole number. -/
def ofTwos (n v : Nat) : Int := if v % 2 ^ n < 2 ^ (n - 1) then (v % 2 ^ n : Nat) else ((v % 2 ^ n : Nat) : Int) - (2 ^ n : Nat)

/-- A whole number saturated to `n` bits of two's complement. -/
def satSigned (n : Nat) (v : Int) : Int := max (-(2 ^ (n - 1) : Nat)) (min ((2 ^ (n - 1) : Nat) - 1) v)

/-- The list with element `i` changed by `f` (unchanged where there is none). -/
def modifyAt {α : Type} (l : List α) (i : Nat) (f : α → α) : List α :=
  match l, i with
  | [], _ => []
  | x :: t, 0 => f x :: t
  | x :: t, i + 1 => x :: modifyAt t i f

/-- A bit range of a register: its BAR0 offset, its lowest bit and its width. -/
structure FieldAt where
  off : Nat
  lo : Nat
  width : Nat
  deriving DecidableEq, Repr

/-- The access codes of R16. -/
inductive Access where
  | ro | rw | rw1c | wo | rws | rwl
  deriving DecidableEq, Repr

/-- The values a field takes; a write of any other leaves the field unchanged (R17). -/
inductive Limit where
  | any
  | within (lo hi : Nat)
  | evenIn (lo hi : Nat)
  /-- Four quorums of 8 bits, each at most 64 (R209). -/
  | quorums
  deriving DecidableEq, Repr

/-- One field of a register table. Bits that no field names are reserved: they read 0 and ignore writes (R17). -/
structure FieldSpec where
  lo : Nat
  width : Nat
  acc : Access
  lim : Limit
  deriving DecidableEq, Repr

/-- One row group of a register table: a register, or `count` copies of it at a stride. -/
structure RegFam where
  name : String
  base : Nat
  stride : Nat
  count : Nat
  fields : List FieldSpec
  deriving DecidableEq, Repr

end Sys2Proof
end

