-- ==== Sys2Proof/Syntax/Entries.lean ====
section
/-! DEFINITION. The operands of commands: the context of a ring command, and the host buffers it names. -/

namespace Sys2Proof

/-- Where a ring command comes from: its COMMAND ring, its TAG and its RES_ADDR (R456). -/
structure Ctx where
  ring : Nat
  tag : Nat
  resAddr : Nat
  deriving DecidableEq, Repr

/-- A host buffer named by a command. -/
structure HostBuf where
  addr : Nat
  len : Nat
  deriving DecidableEq, Repr

/-- A buffer descriptor that a doorbell posts on a device-to-host ring (R462); `resv` is set where a reserved field is not 0, and
`readOk` tells whether its DMA read succeeds (R460). -/
structure PostedBuf where
  addr : Nat
  len : Nat
  resv : Bool
  readOk : Bool := true
  deriving DecidableEq, Repr

/-- What the device reads for the next descriptor of a COMMAND ring (R456, R458): the 32 bytes of the descriptor and the operand block,
and whether each read succeeds; the content of the host buffer that the command names, where it is read; what a module answers
to INV_RESCAN, attempt by attempt; and the steps of R508 that SNT_CLEAR runs before the supply is lost (5: all). -/
structure RawCmd where
  ring : Nat
  descOk : Bool
  desc : Bytes
  argsOk : Bool
  args : Bytes
  buffer : Bytes
  answers : List Bytes
  steps : Nat
  deriving DecidableEq, Repr

/-- What the device reads of the next descriptor of the KEY_UPDATE ring (R456): whether the read succeeds, its 32 bytes, and whether the
read of the message that it names succeeds. -/
structure KeyDesc where
  readOk : Bool
  bytes : Bytes
  msgOk : Bool
  deriving DecidableEq, Repr

/-- The operands of EXP_SET but the publication (R197). -/
structure ExpOps where
  en : Bool
  portMask : Nat
  dstMac : Nat
  appid : Nat
  vlanId : Nat
  vlanPri : Nat
  gocbRef : Bytes
  datSet : Bytes
  goId : Bytes
  confRev : Nat
  test : Bool
  simulation : Bool
  members : List Nat
  rtFirst : Nat
  rtMax : Nat
  safeAlarm : Bool
  auth : Bool
  keySlot : Nat
  deriving DecidableEq, Repr

/-- A work item (R328). -/
structure WorkItem where
  flow : Nat := 0
  atomic : Bool := false
  prio : Nat
  cls : Nat
  origin : Nat
  budget : Nat
  tag : Nat
  arg : Nat := 0
  deriving DecidableEq, Repr

end Sys2Proof
end

