-- ==== Sys2Proof/Syntax/Wire.lean ====
section
/-! DEFINITION. What passes over the wires: frames of published standards as structured data, per-stream records, and
messages of the fabric. -/

namespace Sys2Proof

/-! ## Per-stream records (R130, R131) -/

/-- The values of a record. -/
inductive RecBody where
  | empty
  /-- Types 0, 1, 4 and 5: the two words of each channel slot. -/
  | slots (vals : List (Word × Word))
  /-- Types 2 and 3: which samples were received; then, for each slot, its samples with their validity. -/
  | samples (got : List Bool) (vals : List (List (Word × Nat)))
  deriving DecidableEq, Repr

/-- A per-stream record. -/
structure Rec where
  stream : Nat
  qual : Nat
  type : Nat
  tOff : Int := 0
  nchan : Nat := 0
  origin : Nat := 3
  nsamp : Nat := 0
  body : RecBody := .empty
  deriving DecidableEq, Repr

/-! ## IEEE 1588 messages (R393) -/

inductive PtpKind where
  | sync | delayReq | followUp | announce | pdelayReq | pdelayResp | pdelayRespFollowUp | other
  deriving DecidableEq, Repr

/-- What an Announce message says of its sender, as the BMCA of IEEE 1588-2019 compares it (R394). -/
structure AnnounceData where
  priority1 : Nat
  clockClass : Nat
  clockAccuracy : Nat
  variance : Nat
  priority2 : Nat
  gmIdentity : Nat
  stepsRemoved : Nat
  srcId : Nat
  srcPort : Nat
  deriving DecidableEq, Repr

/-- A PTP message. Times are in units of 2⁻¹⁶ ns since the PTP epoch; `req` names the port identity that a Pdelay_Resp
or its Follow_Up answers. -/
structure PtpMsg where
  kind : PtpKind
  domain : Nat
  seqId : Nat
  srcId : Nat
  srcPort : Nat
  correction : Int := 0
  stamp : Nat := 0
  twoStep : Bool := false
  req : Nat × Nat := (0, 0)
  /-- Announce only. -/
  ann : Option AnnounceData := none
  utcOffset : Option Nat := none
  leap61 : Bool := false
  leap59 : Bool := false
  timeTraceable : Bool := true
  /-- TLV IEEE_C37_238: total time inaccuracy in ns. -/
  c37Acc : Option Nat := none
  deriving DecidableEq, Repr

/-! ## Frames received on an Ethernet port (R357) -/

/-- The message authentication code of a routed frame or of the security extension of IEC 62351-6 (R52, R70). `covered`
is the text under the MAC. -/
structure AuthInfo where
  keyId : Nat
  alg : Nat
  tag : Bytes
  covered : Bytes
  deriving DecidableEq, Repr

/-- One ASDU: its members are value and quality pairs. -/
structure Asdu where
  smpCnt : Nat
  confRev : Nat
  smpSynch : Nat
  members : List (Word × Word)
  deriving DecidableEq, Repr

/-- A member of a GOOSE dataset. -/
inductive GooseVal where
  | bool (b : Bool)
  | dbpos (v : Nat)
  | int32 (v : Word)
  deriving DecidableEq, Repr

/-- The payload of a sampled-value frame or a routed frame. -/
inductive ApduBody where
  | sv (svId : Bytes) (asdus : List Asdu)
  | goose (stNum sqNum ttlMs : Nat) (test : Bool) (members : List GooseVal)
  deriving DecidableEq, Repr

/-- An IEC 61850-9-2 frame, or an IEC 61850-90-5 SPDU. `optionsOk` is clear where the frame uses an option outside R52. -/
structure ApduFrame where
  appid : Nat
  spdu : Nat := 0
  body : ApduBody
  optionsOk : Bool := true
  auth : Option AuthInfo := none
  deriving DecidableEq, Repr

/-- What a UDP datagram carries. -/
inductive UdpPayload where
  | bytes (b : Bytes)
  | routed (f : ApduFrame)
  | ptp (m : PtpMsg)
  deriving DecidableEq, Repr

/-- A UDP datagram; `len` counts the bytes of its payload. IPv4 addresses are held as ::ffff:a.b.c.d. -/
structure UdpInfo where
  v6 : Bool
  srcIp : Nat
  dstIp : Nat
  srcPort : Nat
  dstPort : Nat
  len : Nat
  fragment : Bool := false
  ipSumOk : Bool := true
  /-- UDP checksum: 0 absent, 1 good, 2 bad. -/
  udpSum : Nat := 1
  payload : UdpPayload
  deriving DecidableEq, Repr

inductive FrameBody where
  | arp (targetIp senderIp senderMac : Nat)
  /-- An ARP frame that is no request. -/
  | arpReply (senderIp senderMac : Nat)
  | nsol (targetIp senderIp : Nat)
  /-- An IGMP or MLD query: its group (0 = general) and its maximum response time in ms. -/
  | mcastQuery (v6 : Bool) (group maxMs : Nat)
  | pause (quanta : Nat)
  | pfc (enable : Nat) (quanta : List Nat)
  | ptp (m : PtpMsg)
  | sv (f : ApduFrame)
  | udp (u : UdpInfo)
  /-- An IP packet of another protocol, to an address. -/
  | ip (dstIp : Nat)
  | other
  deriving DecidableEq, Repr

/-- MACsec protection of a frame (R368, R369): the association it names and what its integrity check covers. -/
structure MacsecTag where
  sci : Nat
  an : Nat
  pn : Nat
  aad : Bytes
  cipher : Bytes
  tag : Bytes
  deriving DecidableEq, Repr

/-- The line condition of a received frame. -/
inductive RxLine where
  | good | fcsBad | smdBad | codeBad
  deriving DecidableEq, Repr

/-- A frame on an Ethernet port. `size` counts from the destination address to the FCS; `vid` is the VID of a C-tag;
`badTag` marks an S-tag or two tags. -/
structure EthFrame where
  dst : Nat
  src : Nat
  size : Nat
  vid : Option Nat := none
  badTag : Bool := false
  /-- It came in fragments (R363). -/
  preempted : Bool := false
  line : RxLine := .good
  fecCorr : Nat := 0
  fecUncorr : Nat := 0
  /-- What ECC finds at the frame's end in the ingest buffer cells of each item it was written to, in their order: 1 a corrected
  error, 2 a double-bit error, 0 (or nothing) none (R76, R79). -/
  ecc : List Nat := []
  macsec : Option MacsecTag := none
  body : FrameBody
  deriving DecidableEq, Repr

/-! ## Frames sent on an Ethernet port (R361) -/

/-- A GOOSE message as sent: the express publication (R197, R198) or the output session (R378) it belongs to, its
APDU's fields, and its members. `t` is in units of 2⁻¹⁶ ns of UTC. -/
structure GooseOut where
  pub : Nat
  dstMac : Nat
  vlan : Nat
  appid : Nat
  gocbRef : Bytes
  datSet : Bytes
  goId : Bytes
  ttlMs : Nat
  t : Nat
  notSync : Bool
  stNum : Nat
  sqNum : Nat
  test : Bool
  simulation : Bool
  confRev : Nat
  ndsCom : Bool
  members : List GooseVal
  /-- A new state that an entry into the safe state withdraws while it has not started (R522). -/
  ordinary : Bool
  deriving DecidableEq, Repr

inductive TxBody where
  | goose (g : GooseOut)
  | arpReply (ip mac toIp toMac : Nat)
  | nadv (ip mac toIp : Nat)
  /-- An IGMPv3 or MLDv2 report for a group, or a leave. -/
  | mcastReport (v6 : Bool) (group : Nat) (join : Bool)
  /-- A PTP message over Ethernet, to its group address. -/
  | ptp (dst : Nat) (m : PtpMsg)
  /-- A UDP datagram of an output session, or a stored frame in answer to a command: session, destination MAC, IP and
  port, source port, payload. -/
  | session (s dstMac dstIp dstPort srcPort : Nat) (payload : Bytes)
  /-- An IEC 61850-90-5 SPDU of an output session: session, destination MAC, IP and port, source port, APPID, SPDU number, KEY_ID
  of its MAC (0 until the frame starts on the line), and its content: sampled values under a stored template, or a GOOSE message. -/
  | routedSv (s dstMac dstIp dstPort srcPort appid spdu keyId : Nat) (template : Bytes) (asdus : List Asdu)
  | routedGoose (s dstMac dstIp dstPort srcPort appid spdu keyId : Nat) (g : GooseOut)
  deriving DecidableEq, Repr

/-- What a session's entry puts in the IP header of a frame on a port: its version, source address, TTL or hop limit, and DSCP (R371).
DESIGN CHOICE, log 171: where the port has no address of that index, the frame names none. -/
structure IpHead where
  v6 : Bool
  src : Option Nat
  ttl : Nat
  dscp : Nat
  deriving DecidableEq, Repr

/-- A frame in a transmit queue: its size from the destination address to the FCS, the VID and the PCP of its tag, and the key slot of a MAC
that is added as it is sent (IEC 62351-6). -/
structure TxFrame where
  size : Nat
  body : TxBody
  vid : Option Nat := none
  pcp : Nat := 0
  auth : Option Nat := none
  ip : Option IpHead := none
  deriving DecidableEq, Repr

/-- The MACsec protection of a frame as sent (R368): its secure channel, association and packet number, whether it is confidential, the
secured data, and the ICV. -/
structure SecTag where
  sci : Nat
  an : Nat
  pn : Nat
  conf : Bool
  data : Bytes
  icv : Bytes
  deriving DecidableEq, Repr

/-! ## Field segment frames (R307 to R311, R382) -/

structure FieldFrame where
  dst : Nat
  etype : Nat
  size : Nat
  fcsOk : Bool
  /-- The frame's content after the EtherType. -/
  data : Bytes
  deriving DecidableEq, Repr

/-! ## Front-end frames (R214, R215) -/

/-- A sample frame of a Filsin module (R215): the bytes between /S/ and /T/, and whether every character of it was valid. -/
structure FeFrame where
  bytes : Bytes
  codeOk : Bool
  deriving DecidableEq, Repr

/-! ## Fabric messages (R116, R118, R200, R422) -/

/-- One stream entry of a seal manifest (R118). -/
structure ManEntry where
  stream : Nat
  mirror : Bool
  qual : Nat
  partner : Nat
  vcrc : Nat
  deriving DecidableEq, Repr

/-- A summary entry (R129). -/
structure SumEntry where
  publisher : Nat
  index : Nat
  qual : Nat
  kind : Nat
  stream : Nat
  slot : Nat
  valueA : Word
  valueB : Word
  deriving DecidableEq, Repr

structure Manifest where
  device : Nat
  early : Bool
  timeSuspect : Bool
  forwarded : Bool := false
  view : Nat
  epoch : Nat
  entries : List ManEntry
  sums : List SumEntry
  deriving DecidableEq, Repr

/-- A link's entry of an LSA (R422). -/
structure LsaLink where
  peer : Nat
  peerLink : Nat
  up : Bool
  width : Nat
  deriving DecidableEq, Repr

structure HelloMsg where
  device : Nat
  fabricId : Nat
  link : Nat
  rate : Nat
  wait : Nat
  rev : Nat
  joined : Bool
  view : Nat
  members : Nat
  deriving DecidableEq, Repr

/-- An amendment record (R134). -/
structure Amendment where
  src : Nat
  shortEpoch : Nat
  primary : Nat
  origQual : Nat
  /-- Receive time-stamp of the late frame, in 2⁻¹⁶ ns. -/
  arrival : Nat
  lateness : Nat
  record : Rec
  deriving DecidableEq, Repr

structure NewViewMsg where
  view : Nat
  prevView : Nat
  fromEpoch : Nat
  members : Nat
  summit : Nat
  minority : Bool
  deriving DecidableEq, Repr

/-- A VOTE or a GRID_STATE message (R200): its short epoch, groups, ISLAND bit, ISL_MEMBERS and view. -/
structure VoteMsg where
  shortEpoch : Nat
  groups : Nat
  island : Bool
  islMembers : Nat := 0
  view : Nat
  deriving DecidableEq, Repr

inductive FabMsg where
  | hello (h : HelloMsg)
  | lsa (seq : Nat) (links : List LsaLink)
  | heartbeat (view : Nat)
  | e2eAck (vc last : Nat)
  | suspect (view suspects : Nat)
  | state (view u suspects : Nat)
  | newView (v : NewViewMsg)
  | fwdDone (view count : Nat)
  | joinReq (rate wait rev streams : Nat)
  | depart (reason : Nat)
  | summit (view : Nat)
  | timeReport (dom0 dom1 : Nat)
  | timeSel (dom : Nat)
  | pairHave (epoch : Nat) (streams : List Nat)
  | pairRec (epoch : Nat) (r : Rec)
  | pairDone (epoch count : Nat)
  | pairAck (epoch count : Nat)
  | manifest (m : Manifest)
  | mirrorRec (epoch : Nat) (r : Rec)
  | amendFwd (a : Amendment)
  | histReq (first last : Nat) (streams : List Nat)
  | histRec (epoch lossCount : Nat) (r : Rec)
  | vote (v : VoteMsg)
  | gridState (v : VoteMsg)
  deriving DecidableEq, Repr

/-- The content of FWD_DONE (R432): the view, and the manifests that its sender has forwarded. -/
structure FwdDone where
  view : Nat
  count : Nat
  deriving DecidableEq, Repr

/-- A link packet as received: header, payload and CRC-32 (R418). -/
structure LinkPacket where
  bytes : Bytes
  deriving DecidableEq, Repr

/-! ## What comes with an event beside the time that passes -/

/-- A frame of host memory that ingest reads, what ECC finds at its end in the cells it was written to, as in `EthFrame`, and whether the
DMA reads of its descriptor and of the frame succeed. -/
structure HostFrame where
  bytes : Bytes
  ecc : List Nat := []
  descOk : Bool := true
  frameOk : Bool := true
  deriving DecidableEq, Repr

/-- An early seal: the time that passes before it, and what its read-back finds: errors corrected, and the streams whose record an
uncorrectable error or a wrong CRC strikes (R104). -/
structure SealPass where
  dt : Nat
  corrected : Nat
  dbe : List Nat
  crcBad : List Nat
  deriving DecidableEq, Repr

/-- The end of the final saves: the time that passes before it, and the points whose read-back fails (R288). -/
structure FinalSaves where
  dt : Nat
  bad : List Nat
  deriving DecidableEq, Repr

end Sys2Proof
end

