-- ==== Sys2Proof/Syntax.lean ====
section
/-! DEFINITION. The commands of the device: one constructor for each row of the table of operations and events. An event carries `dt`, the
ns since the command before it. -/

namespace Sys2Proof

/-- A command. -/
inductive Instr where
  /-- REG_WRITE (R17). -/
  | regWrite (offset size : Nat) (value : DWord)
  /-- LO_READ_LATCH (R18): a read within BAR0, or within BAR2 at 0x40_0000 and above. -/
  | loReadLatch (offset size : Nat)
  /-- GLB_LOCK_WRITE (R562). -/
  | glbLockWrite (value : Word)
  /-- CLK_GATE_SET (R539). -/
  | clkGateSet (mask : Nat)
  /-- GATE_CLOSE (R539). -/
  | gateClose (dt bit : Nat)
  /-- CLK_GATE_CLEAR (R539). -/
  | clkGateClear (mask : Nat)
  /-- ING_ENABLE (R88). -/
  | ingEnable (value : Word)
  /-- ING_DISABLE (R89). -/
  | ingDisable (value : Word)
  /-- ING_DRAIN_DONE (R89). -/
  | ingDrainDone (dt : Nat)
  /-- OSC_ENABLE (R152). -/
  | oscEnable (value : Word)
  /-- ISL_ENABLE (R184). -/
  | islEnable (value : Word)
  /-- FUM_ENABLE (R195). -/
  | fumEnable (value : Word)
  /-- FE_ENABLE (R220). -/
  | feEnable (value : Word)
  /-- ROT_ENABLE (R237). -/
  | rotEnable (value : Word)
  /-- GEY_ENABLE (R274). -/
  | geyEnable (value : Word)
  /-- GEY_STREAM_ENABLE (R270). -/
  | geyStreamEnable (value : Word)
  /-- NRG_ENABLE (R287). -/
  | nrgEnable (value : Word)
  /-- RIO_SEG_ENABLE (R306). -/
  | rioSegEnable (value : Word)
  /-- NET_PORT_ENABLE (R358). -/
  | netPortEnable (port : Nat) (value : Word)
  /-- NET_FLD_ENABLE (R380). -/
  | netFldEnable (value : Word)
  /-- MDIO_START (R380). -/
  | mdioStart (value : Word)
  /-- MDIO_DONE (R380). -/
  | mdioDone (dt data : Nat)
  /-- TIM_ENABLE (R395). -/
  | timEnable (value : Word)
  /-- FAB_LINK_ENABLE (R424). -/
  | fabLinkEnable (value : Word)
  /-- SCH_TRACE_ENABLE (R349). -/
  | schTraceEnable (value : Word)
  /-- RING_ENABLE (R452). -/
  | ringEnable (ring : Nat) (value : Word)
  /-- RING_DISABLE (R452). -/
  | ringDisable (ring : Nat)
  /-- RING_DRAINED (R452). -/
  | ringDrained (dt ring : Nat)
  /-- DOORBELL (R455). -/
  | doorbell (offset size value : Nat) (bufs : List PostedBuf)
  /-- COMMAND_ACCEPT (R459). -/
  | commandAccept (cmd : RawCmd)
  /-- COMMAND_WAIT_DONE (R459). -/
  | commandWaitDone (dt : Nat)
  /-- HOST_INGEST_TAKE (R85). -/
  | hostIngestTake (dt ring len : Nat) (frame : HostFrame) (resv : Bool)
  /-- BUFFER_COMPLETE (R463). -/
  | bufferComplete (dt ring : Nat)
  /-- COALESCE_EXPIRE (R463). -/
  | coalesceExpire (dt ring : Nat)
  /-- MSIX_MODERATION_EXPIRE (R471). -/
  | msixModerationExpire (dt ring : Nat)
  /-- HOST_INTERFACE_RESET (R450). -/
  | hostInterfaceReset (dt : Nat)
  /-- D3HOT_ENTRY (R450). -/
  | d3hotEntry (dt : Nat)
  /-- HIF_NOP (R474). -/
  | hifNop (c : Ctx) (value : Nat)
  /-- HIF_FLUSH (R474). -/
  | hifFlush (c : Ctx) (ring : Nat)
  /-- SNAPSHOT_DELIVER (R32). -/
  | snapshotDeliver (dt : Nat) (bad : List Nat)
  /-- SNAPSHOT_WHOLE_WRITE (R469). -/
  | snapshotWholeWrite (dt : Nat)
  /-- STREAM_SET (R81). -/
  | streamSet (c : Ctx) (stream : Nat) (image : Bytes) (eff : Nat) (imm : Bool)
  /-- STREAM_CLR (R82). -/
  | streamClr (c : Ctx) (stream eff : Nat) (imm : Bool)
  /-- CHAN_SET (R62). -/
  | chanSet (c : Ctx) (first count : Nat) (images : Bytes)
  /-- STREAM_STATS (R92). -/
  | streamStats (c : Ctx) (stream : Nat)
  /-- ETH_FRAME_RX (R357). -/
  | ethFrameRx (dt port age phase : Nat) (frame : EthFrame)
  /-- MCAST_QUERY_ANSWER (R359). -/
  | mcastQueryAnswer (dt port : Nat)
  /-- MCAST_REPORT_TIMER (R359). -/
  | mcastReportTimer (dt port : Nat)
  /-- CONVERSION_ITEM (R64). -/
  | conversionItem (dt stream ecc : Nat)
  /-- EPOCH_OPEN (R101). -/
  | epochOpen (dt epoch : Nat)
  /-- LOCAL_SEAL (R107). -/
  | localSeal (dt corrected : Nat) (dbe crcBad : List Nat)
  /-- EARLY_SEAL (R106). -/
  | earlySeal (x : SealPass)
  /-- FILL_REFORM (R115). -/
  | fillReform (dt epoch : Nat)
  /-- PAIR_HAVE (R116). -/
  | pairHave (dt src seq epoch : Nat) (streams : List Nat)
  /-- PAIR_REC (R116). -/
  | pairRec (dt src seq epoch : Nat) (rec' : Rec)
  /-- PAIR_DONE (R116). -/
  | pairDone (dt src seq epoch count : Nat)
  /-- PAIR_ACK (R116). -/
  | pairAck (dt src seq epoch count : Nat)
  /-- MANIFEST_PUBLISH (R117). -/
  | manifestPublish (dt epoch : Nat)
  /-- SEAL_MANIFEST (R118). -/
  | sealManifest (dt src seq : Nat) (manifest : Manifest)
  /-- CONFIRM (R119). -/
  | confirm (dt : Nat)
  /-- CONFIRM_TIMEOUT (R122). -/
  | confirmTimeout (dt epoch : Nat)
  /-- LATE_RECORD (R132). -/
  | lateRecord (dt stream epoch : Nat) (rec' : Rec) (rx : Nat)
  /-- AMEND_FWD (R133). -/
  | amendFwd (dt src seq : Nat) (amendment : Amendment)
  /-- HIST_READ (R136). -/
  | histRead (c : Ctx) (epoch : Nat) (buf : HostBuf)
  /-- AMEND_READ (R137). -/
  | amendRead (c : Ctx) (stream epoch addr : Nat)
  /-- OSC_SIG_SET (R144). -/
  | oscSigSet (c : Ctx) (first count : Nat) (images : Bytes) (eff : Nat) (imm : Bool)
  /-- OSC_DEF_SET (R160). -/
  | oscDefSet (c : Ctx) (first count : Nat) (images : Bytes)
  /-- OSC_RESET (R173). -/
  | oscReset (c : Ctx) (band : Nat)
  /-- MODE_READ (R173). -/
  | modeRead (c : Ctx) (buf : HostBuf)
  /-- TRACK_UPDATE (R150). -/
  | trackUpdate (dt : Nat)
  /-- SSO_UPDATE (R159). -/
  | ssoUpdate (dt : Nat)
  /-- ENERGY_RANKING (R161). -/
  | energyRanking (dt : Nat)
  /-- TRACKER_LAG (R166). -/
  | trackerLag (dt band : Nat)
  /-- ISLAND_EVALUATE (R181). -/
  | islandEvaluate (dt : Nat)
  /-- ISL_NODE_SET (R178). -/
  | islNodeSet (c : Ctx) (first count : Nat) (images : Bytes) (eff : Nat) (imm : Bool)
  /-- ISL_BRANCH_SET (R178). -/
  | islBranchSet (c : Ctx) (first count : Nat) (images : Bytes) (eff : Nat) (imm : Bool)
  /-- RULE_SET (R185). -/
  | ruleSet (c : Ctx) (first count : Nat) (images : Bytes) (eff : Nat) (imm : Bool)
  /-- EXP_SET (R197). -/
  | expSet (c : Ctx) (pub : Nat) (ops : ExpOps)
  /-- ALM_ACK (R188). -/
  | almAck (c : Ctx) (rule : Nat)
  /-- FUM_READ (R210). -/
  | fumRead (c : Ctx) (buf : HostBuf)
  /-- FUMAROLE_DECISION (R191). -/
  | fumaroleDecision (dt : Nat) (disagree : List Nat)
  /-- MIN_ON_EXPIRE (R194). -/
  | minOnExpire (dt : Nat)
  /-- ALMOK_TIMEOUT (R195). -/
  | almokTimeout (dt : Nat)
  /-- EXPRESS_RETRANSMIT (R198). -/
  | expressRetransmit (dt pub : Nat)
  /-- VOTE_PERIODIC (R200). -/
  | votePeriodic (dt : Nat)
  /-- VOTE (R201). -/
  | vote (dt src seq : Nat) (msg : VoteMsg)
  /-- GRID_STATE (R202). -/
  | gridState (dt src seq : Nat) (msg : VoteMsg)
  /-- GRID_STATE_PERIODIC (R201). -/
  | gridStatePeriodic (dt : Nat)
  /-- SAMPLE_STROBE (R213). -/
  | sampleStrobe (dt link : Nat)
  /-- SAMPLE_FRAME (R215). -/
  | sampleFrame (dt module : Nat) (frame : FeFrame)
  /-- FE_LINK_DOWN (R218). -/
  | feLinkDown (dt module : Nat) (commaLost : Bool)
  /-- FE_COMMAND_SEND (R216). -/
  | feCommandSend (dt link : Nat)
  /-- FE_CMD_VERIFY_TIMEOUT (R217). -/
  | feCmdVerifyTimeout (dt module : Nat)
  /-- FE_START_STEP (R221). -/
  | feStartStep (dt module : Nat)
  /-- FINE_SAMPLE (R222). -/
  | fineSample (dt : Nat)
  /-- LOCAL_ESTIMATION (R233). -/
  | localEstimation (dt stream epoch : Nat)
  /-- CAL_TURN_START (R237). -/
  | calTurnStart (dt module : Nat)
  /-- CAL_TURN_STEP (R237). -/
  | calTurnStep (dt module : Nat)
  /-- CAL_RAMP_END (R240). -/
  | calRampEnd (dt module adc : Nat)
  /-- CAL_READ (R246). -/
  | calRead (c : Ctx) (module : Nat) (buf : HostBuf)
  /-- CAL_RETRY (R245). -/
  | calRetry (c : Ctx) (module mask : Nat)
  /-- GEYSER_TICK (R248). -/
  | geyserTick (dt : Nat)
  /-- DETECTOR_HOLD_EXPIRE (R251). -/
  | detectorHoldExpire (dt detector : Nat)
  /-- DETECTOR_UNFREEZE (R253). -/
  | detectorUnfreeze (dt detector : Nat)
  /-- TRIGGER_REPEAT (R256). -/
  | triggerRepeat (dt trigger : Nat)
  /-- HOLDOFF_EXPIRE (R259). -/
  | holdoffExpire (dt trigger : Nat)
  /-- TRIGGER_STUCK (R261). -/
  | triggerStuck (dt trigger : Nat)
  /-- STREAM_RECORD_DELIVER (R269). -/
  | streamRecordDeliver (dt : Nat)
  /-- GEY_LC_SET (R250). -/
  | geyLcSet (c : Ctx) (first count : Nat) (images : Bytes)
  /-- GEY_TRIG_SET (R255). -/
  | geyTrigSet (c : Ctx) (first count : Nat) (images : Bytes)
  /-- GEY_STREAM_SET (R270). -/
  | geyStreamSet (c : Ctx) (rate mask : Nat)
  /-- GEY_FIRE (R273). -/
  | geyFire (c : Ctx) (trigger : Nat)
  /-- GEY_TRIG_STATS (R273). -/
  | geyTrigStats (c : Ctx) (buf : HostBuf)
  /-- PULSE_EMIT (R282). -/
  | pulseEmit (dt pin : Nat)
  /-- PULSE_WIDTH_END (R282). -/
  | pulseWidthEnd (dt pin : Nat)
  /-- NRG_INTERVAL (R285). -/
  | nrgInterval (dt : Nat)
  /-- NRG_PERIODIC_SAVE (R287). -/
  | nrgPeriodicSave (dt : Nat)
  /-- NRG_SAVE_DONE (R287). -/
  | nrgSaveDone (dt point : Nat) (ok : Bool)
  /-- PFW_ASSERT (R288). -/
  | pfwAssert (dt : Nat)
  /-- PFW_DEASSERT (R288). -/
  | pfwDeassert (dt : Nat)
  /-- NRG_FINAL_SAVE_DONE (R288). -/
  | nrgFinalSaveDone (x : FinalSaves)
  /-- NRG_SET (R289). -/
  | nrgSet (c : Ctx) (point : Nat) (image : Bytes) (clear : Bool)
  /-- NRG_PULSE_SET (R283). -/
  | nrgPulseSet (c : Ctx) (pin point idx weight width : Nat) (en : Bool)
  /-- NRG_READ (R291). -/
  | nrgRead (c : Ctx) (mask : Nat) (latched : Bool) (buf : HostBuf)
  /-- NRG_ACK (R291). -/
  | nrgAck (c : Ctx) (mask : Nat)
  /-- CYCLE_BOUNDARY (R300). -/
  | cycleBoundary (dt : Nat)
  /-- CYCLE_EXEC_DONE (R299). -/
  | cycleExecDone (dt : Nat) (work retained : List (Nat × Bytes))
  /-- OUTPUT_WRITE (R302). -/
  | outputWrite (dt carrier : Nat)
  /-- CYC_FAULT (R304). -/
  | cycFault (dt : Nat)
  /-- LOCKSTEP_MISMATCH (R293). -/
  | lockstepMismatch (dt : Nat)
  /-- OUTPUT_FRAME_LATE (R310). -/
  | outputFrameLate (dt seg : Nat)
  /-- STATION_REPLY (R311). -/
  | stationReply (dt seg : Nat) (fcsOk : Bool) (payload : Bytes)
  /-- RETAINED_SAVE (R317). -/
  | retainedSave (dt : Nat)
  /-- RETAINED_SAVE_DONE (R317). -/
  | retainedSaveDone (dt : Nat) (ok : Bool)
  /-- CYC_LOAD (R296). -/
  | cycLoad (c : Ctx) (image : Bytes)
  /-- CYC_START (R319). -/
  | cycStart (c : Ctx) (retInit : Bool)
  /-- CYC_STOP (R324). -/
  | cycStop (c : Ctx) (mode : Nat)
  /-- CYC_SWITCH (R320). -/
  | cycSwitch (c : Ctx) (target : Nat) (retInit : Bool)
  /-- RIO_STATION_SET (R312). -/
  | rioStationSet (c : Ctx) (station : Nat) (image : Bytes)
  /-- RIO_READ (R324). -/
  | rioRead (c : Ctx) (buf : HostBuf)
  /-- WORK_ITEM_DISPATCH (R331). -/
  | workItemDispatch (dt : Nat) (item : Option WorkItem) (cls : Nat)
  /-- WORK_ITEM_PREEMPT (R335). -/
  | workItemPreempt (dt cls : Nat)
  /-- WORK_ITEM_COMPLETE (R329). -/
  | workItemComplete (dt engine ecc : Nat)
  /-- BUDGET_OVERRUN (R339). -/
  | budgetOverrun (dt engine : Nat)
  /-- IMAGE_EXCEPTION (R339). -/
  | imageException (dt engine : Nat)
  /-- ENGINE_RETIRE (R340). -/
  | engineRetire (dt engine cause : Nat)
  /-- SPARE_JOIN (R340). -/
  | spareJoin (dt : Nat)
  /-- IMAGE_FAULT (R345). -/
  | imageFault (dt engine : Nat)
  /-- MC_HEARTBEAT (R348). -/
  | mcHeartbeat (dt : Nat)
  /-- MC_DEFER (R347). -/
  | mcDefer (dt pct : Nat)
  /-- MC_DEFER_LONG (R347). -/
  | mcDeferLong (dt task : Nat)
  /-- ENG_IMG_LOAD (R343). -/
  | engImgLoad (c : Ctx) (image : Bytes)
  /-- ENG_SWITCH (R344). -/
  | engSwitch (c : Ctx) (cls : Nat)
  /-- SCH_TRACE_READ (R352). -/
  | schTraceRead (c : Ctx) (first : Nat) (buf : HostBuf)
  /-- ETH_LINK_UP (R355). -/
  | ethLinkUp (dt port : Nat)
  /-- ETH_LINK_DOWN (R364). -/
  | ethLinkDown (dt port : Nat) (los : Bool)
  /-- PREEMPT_VERIFY (R362). -/
  | preemptVerify (dt port : Nat) (ok : Bool)
  /-- FRAME_TRANSMIT (R361). -/
  | frameTransmit (dt port phase : Nat)
  /-- PAUSE_EXPIRE (R365). -/
  | pauseExpire (dt port : Nat)
  /-- SESSION_PUBLISH (R373). -/
  | sessionPublish (dt sess : Nat)
  /-- SESSION_GOOSE_RETRANSMIT (R378). -/
  | sessionGooseRetransmit (dt sess : Nat)
  /-- FIELD_FRAME_RX (R382). -/
  | fieldFrameRx (dt seg : Nat) (frame : FieldFrame)
  /-- FIELD_COLLISION (R381). -/
  | fieldCollision (dt seg : Nat)
  /-- FIELD_BACKOFF_EXPIRE (R381). -/
  | fieldBackoffExpire (dt seg : Nat) (carrier : Bool)
  /-- SFP_INSERT (R383). -/
  | sfpInsert (dt port : Nat) (a0 : Bytes)
  /-- SFP_POLL (R383). -/
  | sfpPoll (dt port : Nat) (a2 : Bytes)
  /-- TX_FAULT_RISE (R384). -/
  | txFaultRise (dt port : Nat)
  /-- NET_ADDR_SET (R358). -/
  | netAddrSet (c : Ctx) (port : Nat) (ip4 ip6 : List (Option Nat))
  /-- NET_MCAST_SET (R359). -/
  | netMcastSet (c : Ctx) (port entry mac ip : Nat) (join valid : Bool)
  /-- NET_VID_SET (R360). -/
  | netVidSet (c : Ctx) (port : Nat) (vids : List (Option Nat))
  /-- MACSEC_SET (R368). -/
  | macsecSet (c : Ctx) (port : Nat) (rx : Bool) (chan sci an slot : Nat) (xpn conf : Bool) (window : Nat) (en : Bool)
  /-- SESS_SET (R372). -/
  | sessSet (c : Ctx) (sess : Nat) (image : Bytes)
  /-- SESS_LIST_SET (R372). -/
  | sessListSet (c : Ctx) (first count : Nat) (images : Bytes)
  /-- SESS_CFG_FRAME (R376). -/
  | sessCfgFrame (c : Ctx) (sess kind : Nat) (frame : Bytes)
  /-- SESS_CTRL (R376). -/
  | sessCtrl (c : Ctx) (sess : Nat) (txOn cfgPending : Bool)
  /-- SESS_STATS (R387). -/
  | sessStats (c : Ctx) (sess : Nat)
  /-- SFP_READ (R387). -/
  | sfpRead (c : Ctx) (port page : Nat) (buf : HostBuf)
  /-- PTP_TRANSMIT_TIMER (R393). -/
  | ptpTransmitTimer (dt port : Nat)
  /-- PPS_IN_EDGE (R402). -/
  | ppsInEdge (dt phase : Nat)
  /-- TOD_MESSAGE (R403). -/
  | todMessage (dt : Nat) (msg : Bytes)
  /-- SAMPLE_MISSING_TIMER (R395). -/
  | sampleMissingTimer (dt dom : Nat)
  /-- TIME_REPORT (R398). -/
  | timeReport (dt src seq dom0 dom1 : Nat)
  /-- TIME_REPORT_PERIODIC (R398). -/
  | timeReportPeriodic (dt : Nat)
  /-- TIME_SEL (R398). -/
  | timeSel (dt src seq dom : Nat)
  /-- PPS_OUT_SECOND (R405). -/
  | ppsOutSecond (dt : Nat)
  /-- PPS_OUT_WIDTH_END (R405). -/
  | ppsOutWidthEnd (dt : Nat)
  /-- UTC_OFFSET (R408). -/
  | utcOffset (dt : Nat)
  /-- TIM_SET (R414). -/
  | timSet (c : Ctx) (sec ns frac : Nat)
  /-- TIM_REACQUIRE (R401). -/
  | timReacquire (c : Ctx)
  /-- TS_READ (R411). -/
  | tsRead (c : Ctx) (port : Nat) (tx : Bool) (buf : HostBuf)
  /-- ULX_TRAINED (R424). -/
  | ulxTrained (dt link : Nat)
  /-- ULX_LINK_DOWN (R424). -/
  | ulxLinkDown (dt link : Nat)
  /-- LINK_PACKET (R419). -/
  | linkPacket (dt link : Nat) (pkt : LinkPacket) (fecCorr fecUncorr : Nat)
  /-- REPLAY_TIMEOUT (R419). -/
  | replayTimeout (dt link : Nat)
  /-- LANE_FAIL (R424). -/
  | laneFail (dt link lane : Nat)
  /-- WIDTH_SHED (R425). -/
  | widthShed (dt link : Nat)
  /-- WIDTH_GROW (R425). -/
  | widthGrow (dt link : Nat)
  /-- HELLO (R427). -/
  | hello (dt link : Nat) (msg : HelloMsg)
  /-- LSA (R428). -/
  | lsa (dt link src seq : Nat) (links : List LsaLink)
  /-- LSA_PERIODIC (R428). -/
  | lsaPeriodic (dt : Nat)
  /-- E2E_ACK (R423). -/
  | e2eAck (dt src vc last : Nat)
  /-- E2E_RESEND_TIMEOUT (R423). -/
  | e2eResendTimeout (dt dst : Nat)
  /-- HEARTBEAT_SEND (R430). -/
  | heartbeatSend (dt : Nat)
  /-- HEARTBEAT (R430). -/
  | heartbeat (dt src seq : Nat)
  /-- HEARTBEAT_TIMEOUT (R431). -/
  | heartbeatTimeout (dt device : Nat)
  /-- SUSPECT (R431). -/
  | suspect (dt src seq view suspects : Nat)
  /-- STATE (R432). -/
  | state (dt src seq view u suspects : Nat)
  /-- NEW_VIEW (R432). -/
  | newView (dt src seq : Nat) (msg : NewViewMsg)
  /-- FWD_DONE (R432). -/
  | fwdDone (dt src seq : Nat) (view : FwdDone)
  /-- DEPART (R431). -/
  | depart (dt src seq : Nat)
  /-- JOIN_REQ (R436). -/
  | joinReq (dt src seq rate wait : Nat)
  /-- HIST_REQ (R440). -/
  | histReq (dt src seq first last : Nat) (streams : List Nat)
  /-- HIST_REC (R436). -/
  | histRec (dt src seq epoch lossCount : Nat) (rec' : Rec)
  /-- MIRROR_REC (R38). -/
  | mirrorRec (dt src seq epoch : Nat) (rec' : Rec)
  /-- SUMMIT (R441). -/
  | summit (dt src seq view : Nat)
  /-- SUMMIT_ELECT (R441). -/
  | summitElect (dt silent : Nat)
  /-- AUTO_REJOIN (R435). -/
  | autoRejoin (dt target : Nat)
  /-- FAB_JOIN (R436). -/
  | fabJoin (c : Ctx)
  /-- FAB_LEAVE (R444). -/
  | fabLeave (c : Ctx)
  /-- FAB_ROUTE_READ (R444). -/
  | fabRouteRead (c : Ctx) (buf : HostBuf)
  /-- FAB_VIEW_READ (R444). -/
  | fabViewRead (c : Ctx) (buf : HostBuf)
  /-- FAB_STREAM_DROP (R439). -/
  | fabStreamDrop (c : Ctx) (device index : Nat)
  /-- INSTALL (R489). -/
  | install (dt ring : Nat) (desc : KeyDesc) (msg : Bytes) (upTo : Nat)
  /-- STAGE_NEXT (R489). -/
  | stageNext (dt ring : Nat) (desc : KeyDesc) (msg : Bytes) (upTo : Nat)
  /-- PROMOTE (R489). -/
  | promote (dt ring : Nat) (desc : KeyDesc) (msg : Bytes) (upTo : Nat)
  /-- INVALIDATE (R489). -/
  | invalidate (dt ring : Nat) (desc : KeyDesc) (msg : Bytes) (upTo : Nat)
  /-- LIFECYCLE (R492). -/
  | lifecycle (dt ring : Nat) (desc : KeyDesc) (msg : Bytes) (upTo : Nat)
  /-- OWNER_INIT (R487). -/
  | ownerInit (dt ring : Nat) (desc : KeyDesc) (msg : Bytes) (upTo : Nat)
  /-- KEY_SWEEP (R484). -/
  | keySweep (dt : Nat)
  /-- KEY_INFO (R495). -/
  | keyInfo (c : Ctx) (first count : Nat) (buf : HostBuf)
  /-- KEY_REENROL (R492). -/
  | keyReenrol (c : Ctx) (confirm : Nat)
  /-- KEY_STORE_START (R497). -/
  | keyStoreStart (dt : Nat)
  /-- TRNG_FAIL (R479). -/
  | trngFail (dt : Nat)
  /-- TRNG_RECOVER (R479). -/
  | trngRecover (dt : Nat)
  /-- SINTER_RAISE (R501). -/
  | sinterRaise (dt code status index arg0 arg1 : Nat)
  /-- SINTER_RECORD_WRITE (R500). -/
  | sinterRecordWrite (dt writes : Nat)
  /-- SINTER_HEADER_WRITE (R500). -/
  | sinterHeaderWrite (dt : Nat) (torn : Bool)
  /-- MEM_FAILED (R506). -/
  | memFailed (dt : Nat)
  /-- MEM_PROBE (R506). -/
  | memProbe (dt : Nat) (ok : Bool)
  /-- MEM_RESTORED (R507). -/
  | memRestored (dt : Nat)
  /-- POWER_FAIL_WARNING (R510). -/
  | powerFailWarning (dt : Nat)
  /-- RECORDER_STARTED (R509). -/
  | recorderStarted (dt : Nat)
  /-- SNT_READ (R504). -/
  | sntRead (c : Ctx) (first : Nat) (buf : HostBuf)
  /-- SNT_CLEAR (R508). -/
  | sntClear (c : Ctx) (deviceId counter upTo maxSev : Nat) (tag : Bytes) (steps : Nat)
  /-- ERROR_RAISED (R521). -/
  | errorRaised (dt cls index diag status level : Nat)
  /-- DIAGNOSTIC_CHECK (R517). -/
  | diagnosticCheck (dt diag index : Nat) (ok : Bool) (reading corrected : Nat)
  /-- ERROR_RECOVERY_DONE (R519). -/
  | errorRecoveryDone (dt cls index : Nat)
  /-- ENTRY_CLOSE (R520). -/
  | entryClose (dt seq : Nat)
  /-- ENGINE_SELFTEST (R518). -/
  | engineSelftest (dt engine : Nat)
  /-- ENGINE_SELFTEST_DONE (R518). -/
  | engineSelftestDone (dt : Nat) (ok : Bool)
  /-- MGMT_STALL (R524). -/
  | mgmtStall (dt : Nat)
  /-- MGMT_RESTART (R524). -/
  | mgmtRestart (dt : Nat)
  /-- PROOF_TEST (R525). -/
  | proofTest (dt fails ms : Nat)
  /-- SAF_ERR_READ (R529). -/
  | safErrRead (c : Ctx) (buf : HostBuf)
  /-- SAF_PROOF (R525). -/
  | safProof (c : Ctx) (mask : Nat)
  /-- SAF_FORCE (R529). -/
  | safForce (c : Ctx) (confirm : Nat)
  /-- POWER_ON_RESET (R568). -/
  | powerOnReset (dt : Nat) (pfwLow testEn : Bool)
  /-- RAIL_FALL (R541). -/
  | railFall (dt rail : Nat)
  /-- RST_REQUEST_WARM (R542). -/
  | rstRequestWarm (c : Ctx) (confirm : Nat)
  /-- RST_REQUEST_COLD (R542). -/
  | rstRequestCold (c : Ctx) (confirm : Nat)
  /-- XTAL_JUDGED (R532). -/
  | xtalJudged (dt input : Nat) (gates : List Int)
  /-- RESCUE (R533). -/
  | rescue (dt : Nat)
  /-- PLL_LOCK (R535). -/
  | pllLock (dt : Nat)
  /-- ROOT_LOSS (R534). -/
  | rootLoss (dt : Nat)
  /-- ROOT_REJUDGE (R534). -/
  | rootRejudge (dt input : Nat) (gates : List Int)
  /-- MODULE_DISCOVERY (R547). -/
  | moduleDiscovery (dt : Nat) (mems : List (List Bytes)) (sfps : List (Option Bytes))
  /-- DDR_READY (R543). -/
  | ddrReady (dt gib : Nat) (trained : Bool)
  /-- IMAGE_SET_VERIFY (R545). -/
  | imageSetVerify (dt : Nat) (chips : List (Option Bytes)) (failing : Nat)
  /-- CMD_READY (R543). -/
  | cmdReady (dt : Nat)
  /-- INV_READ (R553). -/
  | invRead (c : Ctx) (pos : Nat) (buf : HostBuf)
  /-- INV_RESCAN (R549). -/
  | invRescan (c : Ctx) (pos : Nat) (answers : List Bytes)
  /-- NOR_SET_WRITE (R545). -/
  | norSetWrite (c : Ctx) (image : Bytes)
  /-- ANNOUNCE_RECEIPT_TIMEOUT (R393). -/
  | announceReceiptTimeout (dt port : Nat)
  /-- TIME_QUALITY_DOUBTFUL (R406). -/
  | timeQualityDoubtful (dt : Nat)
  /-- SFP_REMOVE (R384). -/
  | sfpRemove (dt port : Nat)
  /-- E2E_ACK_SEND (R423). -/
  | e2eAckSend (dt : Nat)
  /-- E2E_UNACKED_SUSPECT (R423). -/
  | e2eUnackedSuspect (dt dst : Nat)
  /-- JOIN_TIMEOUT (R436). -/
  | joinTimeout (dt : Nat)
  /-- REACQUIRE_TIMEOUT (R401). -/
  | reacquireTimeout (dt : Nat)
  /-- CARRIER_DEFER_END (R381). -/
  | carrierDeferEnd (dt seg : Nat)
  /-- D3HOT_EXIT (R450). -/
  | d3hotExit (dt : Nat)
  /-- PCIE_LINK_UP (R449). -/
  | pcieLinkUp (dt width speed : Nat)
  /-- MSIX_UNMASK (R471). -/
  | msixUnmask (vector : Nat)
  deriving DecidableEq, Repr

end Sys2Proof
end

