-- ==== Sys2Proof/Config.lean ====
section
/-! DEFINITION. What the spec leaves to an implementation or gives no number for, as constants without a body: no proof
can see a value of one, so a claim that holds, holds for every value. -/

namespace Sys2Proof.Config

/-- The `n`-th value that the spec leaves open (an undefined content, an outcome no rule fixes). -/
opaque freeNat : Nat → Nat

/-- Random words of the entropy source and the conditioner behind it (R478). -/
opaque randomNat : Nat → Nat

/-- The ECDSA P-384 check of a signature by Turran over a text (R545): the spec gives no public key of Turran. -/
opaque ecdsaVerify : (text signature : Bytes) → Bool

/-- The helper data formed from a seed and a reading of the physically unclonable function, and the seed that a later
reading decodes from helper data; readings are numbered (R476, R477). -/
opaque pufHelper : (seed : Bytes) → (reading : Nat) → Bytes
opaque pufDecode : (helper : Bytes) → (reading : Nat) → Bytes

/-- The 12-byte nonce under which the `n`-th key is sealed with the storage key (R478). -/
opaque cellNonce : (n : Nat) → Bytes

/-- The clockIdentity of this device in PTP messages. -/
opaque clockIdentity : Nat

/-- FAB_CFG.SUMMIT_PRIO of another device: no message of R422 carries it. -/
opaque peerPrio : Nat → Nat

/-- A transcendental function of binary32 that a phasor engine computes; the spec gives its error bound, not its bits. -/
opaque f32Sin : Word → Word
opaque f32Cos : Word → Word
opaque f32Atan2 : Word → Word → Word
opaque f32Log : Word → Word
opaque f32Exp : Word → Word

/-- Sign and payload of the NaN that an operation gives on two operands (0 add, 1 subtract, 2 multiply, 3 divide, 4 square root, 5
conversion, 6 a record with no values): IEEE 754 leaves them open. -/
opaque f32Nan : (op : Nat) → Word → Word → Word
opaque f64Nan : (op : Nat) → DWord → DWord → DWord

/-- The whole number and the fraction that stand for a number which is not finite: the spec states none. -/
opaque intOf : DWord → Int
opaque ratOf : DWord → Rat

/-- Functions of binary64 that the detector engines compute; the spec names the function, not the last bits of its result. -/
opaque f64Exp : DWord → DWord
opaque f64Log : DWord → DWord
opaque f64Log10 : DWord → DWord
opaque f64Atan2 : DWord → DWord → DWord

opaque f64Sin : DWord → DWord
opaque f64Cos : DWord → DWord

/-- A raw sample `places` ticks after the newest one, which a negative DELAY of R223 asks for within its fixed latency of 4. -/
opaque aheadSamp : (newest : Int) → (places : Nat) → Int

/-- Tap `j` of the 8-tap Farrow interpolator of R223 at a delay of `frac` / 1,024 of a raw sample, in units of 2⁻²⁴. -/
opaque farrowTap : (frac j : Nat) → Int

/-- Factor of the numerator of the resonator of R161 at a centre frequency, a width and a sample rate: the spec gives its order, its centre
and its width at −3 dB, not its gain. -/
opaque resonatorGain : (freq width rate : DWord) → DWord

/-- Tap `j` of the 64 taps of the anti-alias filter of R158 at a sample rate: the spec gives its corner, 150 Hz, only. -/
opaque ssoTap : (rate j : Nat) → DWord

/-- Tap `127 ± j` of the linear-phase decimating filter of R226, in units of 2⁻²⁴: the spec gives its response only. -/
opaque firTap : (j : Nat) → Int

/-- The signature of DG14 over the rule, node and branch tables and the RWL fields of FUM, ISL and SAF, given as numbers in order: the
spec does not give the byte layout that its CRC-32 covers. -/
opaque safetySignature : List Nat → Nat

/-- Address of a FIFO item, which its conversion item carries in ARG (R328): the spec gives the FIFO memory no addresses. By stream and
place in the order of queueing. -/
opaque fifoItemAddr : Nat → Nat → BitVec 64

/-- Address of the input of a work item of another ORIGIN, by ORIGIN and TAG (log 145). -/
opaque workAddr : (origin tag : Nat) → BitVec 64

/-- Payload of the link control packet that signals a change to a width state, and the width state that such a payload names (R425): the
spec gives it no format. -/
opaque widthSignal : (width : Nat) → Bytes
opaque widthNamed : (payload : Bytes) → Option Nat

/-- The bytes of a frame from its destination address on, without FCS, as the published standards of its kind lay it out; its MAC of
IEC 62351-6 stands beside it (log 172). -/
opaque frameBytes : TxFrame → (mac : Bytes) → Bytes

/-- confRev in a stored IEC 61850-90-5 template (R377): the spec gives the template no layout. -/
opaque templateConfRev : Bytes → Nat

/-- Bytes 96 to 105 of page A2h as converted (R383), and the levels of the two rate-select pins for a MODE (R384): the spec states
neither. -/
opaque sfpConverted : Bytes → Bytes
opaque rateSelect : (mode : Nat) → Bool × Bool

end Sys2Proof.Config
end

