-- ==== Sys2Proof/Machine/Regs.lean ====
section
/-! DEFINITION. The names of the set-up registers and of their fields, as the register tables of the chapters give
them (R2, R90, R139, R171, R208, R209, R244, R271, R290, R323, R351, R385, R386, R413, R443, R473, R494, R512, R528,
R551, R552, R561). `Reg.<NAME>` is the BAR0 offset, `Fld.<NAME>_<FIELD>` one bit range of it. -/

namespace Sys2Proof.Machine

def Reg.GLB_ID : Nat := 0x000000
def Reg.GLB_LOCK : Nat := 0x000004
def Reg.GLB_STATUS : Nat := 0x000008
def Reg.GLB_LOCK_SIG : Nat := 0x00000C
def Reg.GLB_LOCK_VIOL : Nat := 0x000010
def Reg.GLB_BAD_ACCESS : Nat := 0x000014
def Reg.CLK_STATUS : Nat := 0x010000
def Reg.CLK_XTALn (n : Nat) : Nat := 0x010004 + 4 * n
def Reg.CLK_DIV : Nat := 0x01000C
def Reg.CLK_GATE : Nat := 0x010010
def Reg.CLK_GATE_STATUS : Nat := 0x010014
def Reg.CLK_OUT : Nat := 0x010018
def Reg.RST_STATUS : Nat := 0x010100
def Reg.RST_START_MS : Nat := 0x010104
def Reg.RST_WARM_COUNT : Nat := 0x010108
def Reg.PWR_STATUS : Nat := 0x010200
def Reg.PWR_TEMP : Nat := 0x010204
def Reg.HIF_CTRL : Nat := 0x020000
def Reg.HIF_STATUS : Nat := 0x020004
def Reg.HIF_DB_BAD : Nat := 0x020008
def Reg.HIF_DMA_ERR : Nat := 0x02000C
def Reg.HIF_EVT_LOST : Nat := 0x020010
def Reg.HIF_HOST_RESETS : Nat := 0x020014
def Reg.HIF_SNAP_WHOLE : Nat := 0x020018
def Reg.HIF_SNAP_LOST : Nat := 0x02001C
def Reg.HIF_SNAP_CFG : Nat := 0x020020
def Reg.HIF_RINGn_BASE_LO (n : Nat) : Nat := 0x021000 + 32 * n
def Reg.HIF_RINGn_BASE_HI (n : Nat) : Nat := 0x021004 + 32 * n
def Reg.HIF_RINGn_CFG (n : Nat) : Nat := 0x021008 + 32 * n
def Reg.HIF_RINGn_IRQ (n : Nat) : Nat := 0x02100C + 32 * n
def Reg.HIF_RINGn_POSTED (n : Nat) : Nat := 0x021010 + 32 * n
def Reg.HIF_RINGn_DONE (n : Nat) : Nat := 0x021014 + 32 * n
def Reg.HIF_RINGn_STAT (n : Nat) : Nat := 0x021018 + 32 * n
def Reg.ING_CTRL : Nat := 0x040000
def Reg.ING_CFG : Nat := 0x040004
def Reg.ING_PORTS : Nat := 0x040008
def Reg.ING_STATUS : Nat := 0x04000C
def Reg.ING_BUF_ALLOC : Nat := 0x040010
def Reg.ING_FRAMES_LO : Nat := 0x040020
def Reg.ING_FRAMES_HI : Nat := 0x040024
def Reg.ING_UNMATCHED_LO : Nat := 0x040028
def Reg.ING_UNMATCHED_HI : Nat := 0x04002C
def Reg.ING_CHECK_ERR_LO : Nat := 0x040030
def Reg.ING_CHECK_ERR_HI : Nat := 0x040034
def Reg.ING_LOST_LO : Nat := 0x040038
def Reg.ING_LOST_HI : Nat := 0x04003C
def Reg.ING_FRAG_DROP : Nat := 0x040040
def Reg.ING_OVERSIZE : Nat := 0x040044
def Reg.ING_ECC_CORR : Nat := 0x040048
def Reg.ING_ECC_UNCORR : Nat := 0x04004C
def Reg.CRT_CFG : Nat := 0x060000
def Reg.CRT_ALIGN : Nat := 0x060004
def Reg.CRT_PRED : Nat := 0x060008
def Reg.CRT_AMEND : Nat := 0x06000C
def Reg.CRT_HIST : Nat := 0x060010
def Reg.CRT_STATUS : Nat := 0x060014
def Reg.CRT_VIEW : Nat := 0x060018
def Reg.CRT_LAST_CONF_LO : Nat := 0x060020
def Reg.CRT_LAST_CONF_HI : Nat := 0x060024
def Reg.CRT_SUM_SELn (n : Nat) : Nat := 0x060040 + 4 * n
def Reg.CRT_SEALED_LO : Nat := 0x060100
def Reg.CRT_SEALED_HI : Nat := 0x060104
def Reg.CRT_EARLY_LO : Nat := 0x060108
def Reg.CRT_EARLY_HI : Nat := 0x06010C
def Reg.CRT_FILLED_LO : Nat := 0x060110
def Reg.CRT_FILLED_HI : Nat := 0x060114
def Reg.CRT_AMENDS_LO : Nat := 0x060118
def Reg.CRT_AMENDS_HI : Nat := 0x06011C
def Reg.CRT_OFFGRID : Nat := 0x060120
def Reg.CRT_RANGE_DROP : Nat := 0x060124
def Reg.CRT_TOO_OLD : Nat := 0x060128
def Reg.CRT_DISAGREE : Nat := 0x06012C
def Reg.CRT_VIEW_CHG : Nat := 0x060130
def Reg.CRT_CONF_SLOW : Nat := 0x060134
def Reg.CRT_ECC_CORR : Nat := 0x060138
def Reg.CRT_ECC_UNCORR : Nat := 0x06013C
def Reg.OSC_CTRL : Nat := 0x080000
def Reg.OSC_CFG : Nat := 0x080004
def Reg.OSC_TRK : Nat := 0x080008
def Reg.OSC_BAND : Nat := 0x08000C
def Reg.OSC_ASSOC : Nat := 0x080010
def Reg.OSC_CONF : Nat := 0x080014
def Reg.OSC_SSO : Nat := 0x080018
def Reg.OSC_DEF : Nat := 0x08001C
def Reg.OSC_REF : Nat := 0x080020
def Reg.OSC_STATUS : Nat := 0x080024
def Reg.OSC_COND : Nat := 0x080028
def Reg.OSC_UPDATES_LO : Nat := 0x080030
def Reg.OSC_UPDATES_HI : Nat := 0x080034
def Reg.OSC_SKIPPED : Nat := 0x080038
def Reg.OSC_OVERRUN : Nat := 0x08003C
def Reg.OSC_RESETS : Nat := 0x080040
def Reg.OSC_NO_SLOT : Nat := 0x080044
def Reg.OSC_THRk_F (k : Nat) : Nat := 0x080100 + 16 * k
def Reg.OSC_THRk_D (k : Nat) : Nat := 0x080104 + 16 * k
def Reg.OSC_THRk_A (k : Nat) : Nat := 0x080108 + 16 * k
def Reg.OSC_THRk_P (k : Nat) : Nat := 0x08010C + 16 * k
def Reg.ISL_CTRL : Nat := 0x082000
def Reg.ISL_CFG : Nat := 0x082004
def Reg.ISL_COHk (k : Nat) : Nat := 0x082008 + 4 * k
def Reg.ISL_GRID : Nat := 0x082018
def Reg.ISL_STATUS : Nat := 0x08201C
def Reg.ISL_COUNT : Nat := 0x082020
def Reg.ISL_EVALS_LO : Nat := 0x082028
def Reg.ISL_EVALS_HI : Nat := 0x08202C
def Reg.ISL_DECLARES : Nat := 0x082030
def Reg.ISL_MERGES : Nat := 0x082034
def Reg.ISL_INVALID : Nat := 0x082038
def Reg.FUM_CTRL : Nat := 0x084000
def Reg.FUM_CFG : Nat := 0x084004
def Reg.FUM_STATUS : Nat := 0x084008
def Reg.FUM_CYC_FLAGS : Nat := 0x084010
def Reg.FUM_PINp (p : Nat) : Nat := 0x084020 + 4 * p
def Reg.FUM_GRIDQj (j : Nat) : Nat := 0x084040 + 4 * j
def Reg.FUM_DECISIONS_LO : Nat := 0x084080
def Reg.FUM_DECISIONS_HI : Nat := 0x084084
def Reg.FUM_DISAGREE : Nat := 0x084088
def Reg.FUM_RING_LOST : Nat := 0x08408C
def Reg.FUM_EXP_SENT : Nat := 0x084090
def Reg.FUM_EXP_DROP : Nat := 0x084094
def Reg.FUM_CHATTER : Nat := 0x084098
def Reg.FUM_STUCK : Nat := 0x08409C
def Reg.FUM_CONDi (i : Nat) : Nat := 0x084100 + 4 * i
def Reg.ACQ_CTRL : Nat := 0x0A0000
def Reg.ACQ_STATUS : Nat := 0x0A0008
def Reg.ACQ_FEm_REPAIR (m : Nat) : Nat := 0x0A0020 + 16 * m
def Reg.ACQ_FEm_DOWN (m : Nat) : Nat := 0x0A0024 + 16 * m
def Reg.ACQ_FEm_OVR (m : Nat) : Nat := 0x0A0028 + 16 * m
def Reg.ACQ_FEm_CMDFAIL (m : Nat) : Nat := 0x0A002C + 16 * m
def Reg.ACQ_TRIPLEk (k : Nat) : Nat := 0x0A0100 + 4 * k
def Reg.FLT_CFG : Nat := 0x0A1000
def Reg.FLT_STATUS : Nat := 0x0A1004
def Reg.FLT_CHc (c : Nat) : Nat := 0x0A1100 + 4 * c
def Reg.FLT_CHSTATc (c : Nat) : Nat := 0x0A1200 + 4 * c
def Reg.CAL_CTRL : Nat := 0x0A2000
def Reg.CAL_LIM : Nat := 0x0A2004
def Reg.CAL_STATm (m : Nat) : Nat := 0x0A2010 + 4 * m
def Reg.CAL_FAULTm (m : Nat) : Nat := 0x0A2020 + 4 * m
def Reg.CAL_TURNS_LO : Nat := 0x0A2040
def Reg.CAL_TURNS_HI : Nat := 0x0A2044
def Reg.CAL_ABANDON : Nat := 0x0A2048
def Reg.CAL_REFUSED : Nat := 0x0A204C
def Reg.CAL_SMALL : Nat := 0x0A2050
def Reg.GEY_CTRL : Nat := 0x0B0000
def Reg.GEY_CFG : Nat := 0x0B0004
def Reg.GEY_STATUS : Nat := 0x0B0008
def Reg.GEY_LC_LO : Nat := 0x0B0010
def Reg.GEY_LC_HI : Nat := 0x0B0014
def Reg.GEY_CHAT_LO : Nat := 0x0B0018
def Reg.GEY_CHAT_HI : Nat := 0x0B001C
def Reg.GEY_RECORDS_LO : Nat := 0x0B0020
def Reg.GEY_RECORDS_HI : Nat := 0x0B0024
def Reg.GEY_MARKS_LO : Nat := 0x0B0028
def Reg.GEY_MARKS_HI : Nat := 0x0B002C
def Reg.GEY_DROP_BLOCKS : Nat := 0x0B0030
def Reg.GEY_MARK_LOST : Nat := 0x0B0034
def Reg.GEY_MISSED : Nat := 0x0B0038
def Reg.GEY_CHATTER : Nat := 0x0B003C
def Reg.GEY_STUCK : Nat := 0x0B0040
def Reg.NRG_CTRL : Nat := 0x0B8000
def Reg.NRG_CFG : Nat := 0x0B8004
def Reg.NRG_STATUS : Nat := 0x0B8008
def Reg.NRG_INTERVALS : Nat := 0x0B800C
def Reg.NRG_SAVES_LO : Nat := 0x0B8010
def Reg.NRG_SAVES_HI : Nat := 0x0B8014
def Reg.NRG_FINAL_SAVES : Nat := 0x0B8018
def Reg.NRG_PULSEp_CNT (p : Nat) : Nat := 0x0B8020 + 8 * p
def Reg.NRG_PULSEp_LATE (p : Nat) : Nat := 0x0B8024 + 8 * p
def Reg.NRG_PTn_STAT (n : Nat) : Nat := 0x0B8040 + 4 * n
def Reg.CYC_CFG : Nat := 0x0C0000
def Reg.CYC_STATUS : Nat := 0x0C0004
def Reg.CYC_PROG_ID_LO : Nat := 0x0C0008
def Reg.CYC_PROG_ID_HI : Nat := 0x0C000C
def Reg.CYC_CYCLES_LO : Nat := 0x0C0010
def Reg.CYC_CYCLES_HI : Nat := 0x0C0014
def Reg.CYC_EXEC : Nat := 0x0C0018
def Reg.CYC_OVERRUN : Nat := 0x0C001C
def Reg.CYC_LOCKSTEP : Nat := 0x0C0020
def Reg.CYC_EXCHANGES : Nat := 0x0C0024
def Reg.CYC_RET_SAVES_LO : Nat := 0x0C0028
def Reg.CYC_RET_SAVES_HI : Nat := 0x0C002C
def Reg.CYC_RET_FAIL : Nat := 0x0C0030
def Reg.RIO_CFG : Nat := 0x0C1000
def Reg.RIO_CTRL : Nat := 0x0C1004
def Reg.RIO_STATUS : Nat := 0x0C1008
def Reg.RIO_ONLINE : Nat := 0x0C100C
def Reg.RIO_FAILSAFE : Nat := 0x0C1010
def Reg.RIO_OUT_LATE : Nat := 0x0C1014
def Reg.RIO_REPLY_MISS : Nat := 0x0C1018
def Reg.RIO_REPLY_BAD : Nat := 0x0C101C
def Reg.RIO_CHATTER : Nat := 0x0C1020
def Reg.RIO_STUCK : Nat := 0x0C1024
def Reg.SCH_CFG : Nat := 0x0D0000
def Reg.SCH_STATUS : Nat := 0x0D0004
def Reg.SCH_MC_LOAD : Nat := 0x0D0008
def Reg.SCH_TRACE_CFG : Nat := 0x0D000C
def Reg.SCH_DISPATCH_LO : Nat := 0x0D0010
def Reg.SCH_DISPATCH_HI : Nat := 0x0D0014
def Reg.SCH_PREEMPT_LO : Nat := 0x0D0018
def Reg.SCH_PREEMPT_HI : Nat := 0x0D001C
def Reg.SCH_REFUSED : Nat := 0x0D0020
def Reg.SCH_BUDGET : Nat := 0x0D0024
def Reg.SCH_TRACE_LOST : Nat := 0x0D0028
def Reg.SCH_MC_DEFER_LONG : Nat := 0x0D002C
def Reg.ENG_CFG : Nat := 0x0D1000
def Reg.ENG_STATUS : Nat := 0x0D1004
def Reg.ENG_BANK : Nat := 0x0D1008
def Reg.ENG_RETIRED : Nat := 0x0D100C
def Reg.ENG_EXC : Nat := 0x0D1010
def Reg.ENG_RETIRES : Nat := 0x0D1014
def Reg.ENG_SWITCHES : Nat := 0x0D1018
def Reg.NET_CFG : Nat := 0x0E0000
def Reg.NET_STATUS : Nat := 0x0E0004
def Reg.NET_MDIO : Nat := 0x0E0010
def Reg.NET_Pp_CFG (p : Nat) : Nat := 0x0E0100 + 64 * p
def Reg.NET_Pp_FRAME (p : Nat) : Nat := 0x0E0104 + 64 * p
def Reg.NET_Pp_MAC_LO (p : Nat) : Nat := 0x0E0108 + 64 * p
def Reg.NET_Pp_MAC_HI (p : Nat) : Nat := 0x0E010C + 64 * p
def Reg.NET_Pp_STATUS (p : Nat) : Nat := 0x0E0110 + 64 * p
def Reg.NET_FLD_CFG : Nat := 0x0E0200
def Reg.NET_FLDn_MAC_LO (n : Nat) : Nat := 0x0E0208 + 8 * n
def Reg.NET_FLDn_MAC_HI (n : Nat) : Nat := 0x0E020C + 8 * n
def Reg.NET_Pp_RX_FRAMES_LO (p : Nat) : Nat := 0x0E1000 + 256 * p
def Reg.NET_Pp_RX_FRAMES_HI (p : Nat) : Nat := 0x0E1004 + 256 * p
def Reg.NET_Pp_RX_BYTES_LO (p : Nat) : Nat := 0x0E1008 + 256 * p
def Reg.NET_Pp_RX_BYTES_HI (p : Nat) : Nat := 0x0E100C + 256 * p
def Reg.NET_Pp_TX_FRAMES_LO (p : Nat) : Nat := 0x0E1010 + 256 * p
def Reg.NET_Pp_TX_FRAMES_HI (p : Nat) : Nat := 0x0E1014 + 256 * p
def Reg.NET_Pp_TX_BYTES_LO (p : Nat) : Nat := 0x0E1018 + 256 * p
def Reg.NET_Pp_TX_BYTES_HI (p : Nat) : Nat := 0x0E101C + 256 * p
def Reg.NET_Pp_RX_FCS_ERR (p : Nat) : Nat := 0x0E1020 + 256 * p
def Reg.NET_Pp_RX_SIZE_ERR (p : Nat) : Nat := 0x0E1024 + 256 * p
def Reg.NET_Pp_RX_PCS_ERR (p : Nat) : Nat := 0x0E1028 + 256 * p
def Reg.NET_Pp_RX_FILT_DROP (p : Nat) : Nat := 0x0E102C + 256 * p
def Reg.NET_Pp_RX_CSUM_ERR (p : Nat) : Nat := 0x0E1030 + 256 * p
def Reg.NET_Pp_RX_ING_OFF (p : Nat) : Nat := 0x0E1034 + 256 * p
def Reg.NET_Pp_RX_UNCLAIMED (p : Nat) : Nat := 0x0E1038 + 256 * p
def Reg.NET_Pp_RX_SMD_ERR (p : Nat) : Nat := 0x0E103C + 256 * p
def Reg.NET_Pp_RX_MACSEC_ERR (p : Nat) : Nat := 0x0E1040 + 256 * p
def Reg.NET_Pp_RX_PAUSE (p : Nat) : Nat := 0x0E1044 + 256 * p
def Reg.NET_Pp_TX_EXPRESS (p : Nat) : Nat := 0x0E1048 + 256 * p
def Reg.NET_Pp_TX_PREEMPT (p : Nat) : Nat := 0x0E104C + 256 * p
def Reg.NET_Pp_TX_DROP (p : Nat) : Nat := 0x0E1050 + 256 * p
def Reg.NET_Pp_TX_Q_LOST (p : Nat) : Nat := 0x0E1054 + 256 * p
def Reg.NET_Pp_TX_PAUSED_US (p : Nat) : Nat := 0x0E1058 + 256 * p
def Reg.NET_Pp_FEC_CORR (p : Nat) : Nat := 0x0E105C + 256 * p
def Reg.NET_Pp_FEC_UNCORR (p : Nat) : Nat := 0x0E1060 + 256 * p
def Reg.NET_Pp_LINK_DOWN (p : Nat) : Nat := 0x0E1064 + 256 * p
def Reg.NET_FLDn_TX_FRAMES (n : Nat) : Nat := 0x0E1800 + 64 * n
def Reg.NET_FLDn_RX_FRAMES (n : Nat) : Nat := 0x0E1804 + 64 * n
def Reg.NET_FLDn_COLLISIONS (n : Nat) : Nat := 0x0E1808 + 64 * n
def Reg.NET_FLDn_LATE_COLL (n : Nat) : Nat := 0x0E180C + 64 * n
def Reg.NET_FLDn_EXCESS_COLL (n : Nat) : Nat := 0x0E1810 + 64 * n
def Reg.NET_FLDn_DEFERRALS (n : Nat) : Nat := 0x0E1814 + 64 * n
def Reg.NET_FLDn_RX_FCS_ERR (n : Nat) : Nat := 0x0E1818 + 64 * n
def Reg.NET_FLDn_RX_FILT_DROP (n : Nat) : Nat := 0x0E181C + 64 * n
def Reg.TIM_CTRL : Nat := 0x100000
def Reg.TIM_CFG : Nat := 0x100004
def Reg.TIM_LIM : Nat := 0x100008
def Reg.TIM_STEP_LIM : Nat := 0x10000C
def Reg.TIM_HOLDOVER : Nat := 0x100010
def Reg.TIM_STATUS : Nat := 0x100014
def Reg.TIM_UTC : Nat := 0x100018
def Reg.TIM_NOW_NS : Nat := 0x100020
def Reg.TIM_NOW_SEC_LO : Nat := 0x100024
def Reg.TIM_NOW_SEC_HI : Nat := 0x100028
def Reg.TIM_RATE : Nat := 0x100030
def Reg.TIM_BOUND : Nat := 0x100034
def Reg.TIM_DOMd_CFG (d : Nat) : Nat := 0x100040 + 32 * d
def Reg.TIM_DOMd_OFFSET (d : Nat) : Nat := 0x100044 + 32 * d
def Reg.TIM_DOMd_SAMPLES (d : Nat) : Nat := 0x100048 + 32 * d
def Reg.TIM_DOMd_MISS (d : Nat) : Nat := 0x10004C + 32 * d
def Reg.TIM_DOMd_GM_LO (d : Nat) : Nat := 0x100050 + 32 * d
def Reg.TIM_DOMd_GM_HI (d : Nat) : Nat := 0x100054 + 32 * d
def Reg.TIM_DOMd_ACC (d : Nat) : Nat := 0x100058 + 32 * d
def Reg.TIM_PPS : Nat := 0x100080
def Reg.TIM_GNSS_STAT : Nat := 0x100084
def Reg.TIM_TOD_ERR : Nat := 0x100088
def Reg.TIM_Pp_PTP (p : Nat) : Nat := 0x100100 + 32 * p
def Reg.TIM_Pp_LAT (p : Nat) : Nat := 0x100104 + 32 * p
def Reg.TIM_Pp_STATE (p : Nat) : Nat := 0x100108 + 32 * p
def Reg.TIM_Pp_PDELAY (p : Nat) : Nat := 0x10010C + 32 * p
def Reg.TIM_Pp_TSQ_LOST_RX (p : Nat) : Nat := 0x100110 + 32 * p
def Reg.TIM_Pp_TSQ_LOST_TX (p : Nat) : Nat := 0x100114 + 32 * p
def Reg.TIM_Pp_UNSUPP (p : Nat) : Nat := 0x100118 + 32 * p
def Reg.FAB_CTRL : Nat := 0x120000
def Reg.FAB_CFG : Nat := 0x120004
def Reg.FAB_SHED : Nat := 0x120008
def Reg.FAB_STATUS : Nat := 0x12000C
def Reg.FAB_MEMBERS_LO : Nat := 0x120010
def Reg.FAB_MEMBERS_HI : Nat := 0x120014
def Reg.FAB_REACH_LO : Nat := 0x120018
def Reg.FAB_REACH_HI : Nat := 0x12001C
def Reg.FAB_SUSPECTS : Nat := 0x120020
def Reg.FAB_OWN_ERR : Nat := 0x120024
def Reg.FAB_ELECTIONS : Nat := 0x120028
def Reg.FAB_REJOINS : Nat := 0x12002C
def Reg.FAB_E2E_RETX : Nat := 0x120030
def Reg.FAB_TTL_DROP : Nat := 0x120034
def Reg.FAB_Ln_CFG (n : Nat) : Nat := 0x120100 + 64 * n
def Reg.FAB_Ln_STATUS (n : Nat) : Nat := 0x120104 + 64 * n
def Reg.FAB_Ln_FEC_CORR (n : Nat) : Nat := 0x120108 + 64 * n
def Reg.FAB_Ln_FEC_UNCORR (n : Nat) : Nat := 0x12010C + 64 * n
def Reg.FAB_Ln_RETRY (n : Nat) : Nat := 0x120110 + 64 * n
def Reg.FAB_Ln_DOWN (n : Nat) : Nat := 0x120114 + 64 * n
def Reg.FAB_Ln_WIDTH_CHG (n : Nat) : Nat := 0x120118 + 64 * n
def Reg.KEY_STATUS : Nat := 0x140000
def Reg.KEY_SLOTS : Nat := 0x140004
def Reg.KEY_DEVID_LO : Nat := 0x140008
def Reg.KEY_DEVID_HI : Nat := 0x14000C
def Reg.KEY_COUNTER_LO : Nat := 0x140010
def Reg.KEY_COUNTER_HI : Nat := 0x140014
def Reg.KEY_UPDATES : Nat := 0x140018
def Reg.KEY_REFUSED : Nat := 0x14001C
def Reg.KEY_USE_ORPHANED : Nat := 0x140020
def Reg.KEY_REGEN_RETRY : Nat := 0x140024
def Reg.SNT_CFG : Nat := 0x150000
def Reg.SNT_STATUS : Nat := 0x150004
def Reg.SNT_HEAD_LO : Nat := 0x150008
def Reg.SNT_HEAD_HI : Nat := 0x15000C
def Reg.SNT_OLDEST_LO : Nat := 0x150010
def Reg.SNT_OLDEST_HI : Nat := 0x150014
def Reg.SNT_HELD : Nat := 0x150018
def Reg.SNT_OP_SEC : Nat := 0x15001C
def Reg.SNT_POWER_CYCLES : Nat := 0x150020
def Reg.SNT_OVERWRITTEN : Nat := 0x150024
def Reg.SNT_DISCARDED : Nat := 0x150028
def Reg.SNT_FOLDED : Nat := 0x15002C
def Reg.SNT_SHADOW_LOST : Nat := 0x150030
def Reg.SNT_MEM_FAILS : Nat := 0x150034
def Reg.SAF_CFG : Nat := 0x160000
def Reg.SAF_STATUS : Nat := 0x160004
def Reg.SAF_CAUSE : Nat := 0x160008
def Reg.SAF_HB_AGE : Nat := 0x16000C
def Reg.SAF_CFG_SIG : Nat := 0x160010
def Reg.SAF_PROOF_LAST : Nat := 0x160014
def Reg.SAF_CORRECTED_LO : Nat := 0x160020
def Reg.SAF_CORRECTED_HI : Nat := 0x160024
def Reg.SAF_ERRORS : Nat := 0x160028
def Reg.SAF_ESCALATIONS : Nat := 0x16002C
def Reg.SAF_OVERFLOWS : Nat := 0x160030
def Reg.SAF_MGMT_STALLS : Nat := 0x160034
def Reg.SAF_MGMT_RESTARTS : Nat := 0x160038
def Reg.SAF_PROOFS : Nat := 0x16003C
def Reg.INV_CFG : Nat := 0x170000
def Reg.INV_STATUS : Nat := 0x170004
def Reg.INV_BOARD : Nat := 0x170008
def Reg.INV_READS : Nat := 0x17000C
def Reg.INV_ERRORS : Nat := 0x170010

def Fld.GLB_ID_DEVICE : FieldAt := ⟨Reg.GLB_ID, 16, 16⟩
def Fld.GLB_ID_PKG : FieldAt := ⟨Reg.GLB_ID, 8, 8⟩
def Fld.GLB_ID_REV : FieldAt := ⟨Reg.GLB_ID, 0, 8⟩
def Fld.GLB_STATUS_LOCKED : FieldAt := ⟨Reg.GLB_STATUS, 0, 1⟩
def Fld.GLB_STATUS_LOCK_VIOL : FieldAt := ⟨Reg.GLB_STATUS, 1, 1⟩
def Fld.GLB_STATUS_CFG_ERR : FieldAt := ⟨Reg.GLB_STATUS, 2, 1⟩
def Fld.CLK_STATUS_ROOT : FieldAt := ⟨Reg.CLK_STATUS, 0, 1⟩
def Fld.CLK_STATUS_XTAL0_OK : FieldAt := ⟨Reg.CLK_STATUS, 1, 1⟩
def Fld.CLK_STATUS_XTAL1_OK : FieldAt := ⟨Reg.CLK_STATUS, 2, 1⟩
def Fld.CLK_STATUS_PLL_LOCK : FieldAt := ⟨Reg.CLK_STATUS, 3, 1⟩
def Fld.CLK_STATUS_RESCUE : FieldAt := ⟨Reg.CLK_STATUS, 4, 1⟩
def Fld.CLK_STATUS_CFG_ERR : FieldAt := ⟨Reg.CLK_STATUS, 5, 1⟩
def Fld.CLK_XTALn_PPM (n : Nat) : FieldAt := ⟨Reg.CLK_XTALn n, 0, 16⟩
def Fld.CLK_DIV_ECLK_DIV : FieldAt := ⟨Reg.CLK_DIV, 0, 4⟩
def Fld.CLK_DIV_CCLK_DIV : FieldAt := ⟨Reg.CLK_DIV, 4, 4⟩
def Fld.CLK_DIV_BCLK_DIV : FieldAt := ⟨Reg.CLK_DIV, 8, 5⟩
def Fld.CLK_GATE_GATE : FieldAt := ⟨Reg.CLK_GATE, 0, 15⟩
def Fld.CLK_GATE_STATUS_GATED : FieldAt := ⟨Reg.CLK_GATE_STATUS, 0, 15⟩
def Fld.CLK_OUT_SEL : FieldAt := ⟨Reg.CLK_OUT, 0, 2⟩
def Fld.RST_STATUS_LAST_KIND : FieldAt := ⟨Reg.RST_STATUS, 0, 2⟩
def Fld.RST_STATUS_DDR_READY : FieldAt := ⟨Reg.RST_STATUS, 2, 1⟩
def Fld.RST_STATUS_DDR_KEPT : FieldAt := ⟨Reg.RST_STATUS, 3, 1⟩
def Fld.RST_STATUS_IMG_SET : FieldAt := ⟨Reg.RST_STATUS, 4, 1⟩
def Fld.RST_STATUS_IMG_FALLBACK : FieldAt := ⟨Reg.RST_STATUS, 5, 1⟩
def Fld.RST_STATUS_START_STEP : FieldAt := ⟨Reg.RST_STATUS, 8, 4⟩
def Fld.RST_STATUS_DDR_GIB : FieldAt := ⟨Reg.RST_STATUS, 12, 6⟩
def Fld.RST_START_MS_MS : FieldAt := ⟨Reg.RST_START_MS, 0, 16⟩
def Fld.PWR_STATUS_RAIL_OK : FieldAt := ⟨Reg.PWR_STATUS, 0, 8⟩
def Fld.PWR_STATUS_PFW : FieldAt := ⟨Reg.PWR_STATUS, 8, 1⟩
def Fld.PWR_TEMP_TJ_MAX : FieldAt := ⟨Reg.PWR_TEMP, 0, 8⟩
def Fld.PWR_TEMP_SENSOR : FieldAt := ⟨Reg.PWR_TEMP, 8, 3⟩
def Fld.HIF_CTRL_ERR_VECTOR : FieldAt := ⟨Reg.HIF_CTRL, 0, 6⟩
def Fld.HIF_STATUS_CMD_READY : FieldAt := ⟨Reg.HIF_STATUS, 0, 1⟩
def Fld.HIF_STATUS_LINK_WIDTH : FieldAt := ⟨Reg.HIF_STATUS, 1, 4⟩
def Fld.HIF_STATUS_LINK_SPEED : FieldAt := ⟨Reg.HIF_STATUS, 5, 3⟩
def Fld.HIF_STATUS_FULL_LINK : FieldAt := ⟨Reg.HIF_STATUS, 8, 1⟩
def Fld.HIF_STATUS_D3 : FieldAt := ⟨Reg.HIF_STATUS, 9, 1⟩
def Fld.HIF_STATUS_CFG_ERR : FieldAt := ⟨Reg.HIF_STATUS, 10, 1⟩
def Fld.HIF_SNAP_CFG_STAGE : FieldAt := ⟨Reg.HIF_SNAP_CFG, 0, 1⟩
def Fld.HIF_RINGn_BASE_LO_ADDR (n : Nat) : FieldAt := ⟨Reg.HIF_RINGn_BASE_LO n, 12, 20⟩
def Fld.HIF_RINGn_CFG_EN (n : Nat) : FieldAt := ⟨Reg.HIF_RINGn_CFG n, 0, 1⟩
def Fld.HIF_RINGn_CFG_KIND (n : Nat) : FieldAt := ⟨Reg.HIF_RINGn_CFG n, 1, 4⟩
def Fld.HIF_RINGn_CFG_LOG2_SIZE (n : Nat) : FieldAt := ⟨Reg.HIF_RINGn_CFG n, 5, 5⟩
def Fld.HIF_RINGn_CFG_VECTOR (n : Nat) : FieldAt := ⟨Reg.HIF_RINGn_CFG n, 10, 6⟩
def Fld.HIF_RINGn_CFG_COALESCE_US (n : Nat) : FieldAt := ⟨Reg.HIF_RINGn_CFG n, 16, 16⟩
def Fld.HIF_RINGn_IRQ_MOD_COUNT (n : Nat) : FieldAt := ⟨Reg.HIF_RINGn_IRQ n, 0, 8⟩
def Fld.HIF_RINGn_IRQ_MOD_US (n : Nat) : FieldAt := ⟨Reg.HIF_RINGn_IRQ n, 8, 16⟩
def Fld.HIF_RINGn_STAT_STATE (n : Nat) : FieldAt := ⟨Reg.HIF_RINGn_STAT n, 0, 2⟩
def Fld.HIF_RINGn_STAT_ARMED (n : Nat) : FieldAt := ⟨Reg.HIF_RINGn_STAT n, 2, 1⟩
def Fld.HIF_RINGn_STAT_ERR_CODE (n : Nat) : FieldAt := ⟨Reg.HIF_RINGn_STAT n, 8, 8⟩
def Fld.ING_CTRL_EN : FieldAt := ⟨Reg.ING_CTRL, 0, 1⟩
def Fld.ING_CTRL_C37_EN : FieldAt := ⟨Reg.ING_CTRL, 1, 1⟩
def Fld.ING_CTRL_SV_EN : FieldAt := ⟨Reg.ING_CTRL, 2, 1⟩
def Fld.ING_CTRL_ROUTED_EN : FieldAt := ⟨Reg.ING_CTRL, 3, 1⟩
def Fld.ING_CTRL_HOSTFEED_EN : FieldAt := ⟨Reg.ING_CTRL, 4, 1⟩
def Fld.ING_CFG_FUTURE_LIM : FieldAt := ⟨Reg.ING_CFG, 0, 8⟩
def Fld.ING_CFG_TQ_LIMIT : FieldAt := ⟨Reg.ING_CFG, 8, 4⟩
def Fld.ING_CFG_UNMATCHED_EVT : FieldAt := ⟨Reg.ING_CFG, 12, 1⟩
def Fld.ING_CFG_ACCEPT_V1 : FieldAt := ⟨Reg.ING_CFG, 13, 1⟩
def Fld.ING_PORTS_C37_UDP : FieldAt := ⟨Reg.ING_PORTS, 0, 16⟩
def Fld.ING_PORTS_ROUTED_UDP : FieldAt := ⟨Reg.ING_PORTS, 16, 16⟩
def Fld.ING_STATUS_RUNNING : FieldAt := ⟨Reg.ING_STATUS, 0, 1⟩
def Fld.ING_STATUS_DRAINING : FieldAt := ⟨Reg.ING_STATUS, 1, 1⟩
def Fld.ING_STATUS_CELLS_USED : FieldAt := ⟨Reg.ING_STATUS, 16, 16⟩
def Fld.ING_BUF_ALLOC_CELLS_ALLOC : FieldAt := ⟨Reg.ING_BUF_ALLOC, 0, 16⟩
def Fld.CRT_CFG_RATE : FieldAt := ⟨Reg.CRT_CFG, 0, 8⟩
def Fld.CRT_CFG_WAIT : FieldAt := ⟨Reg.CRT_CFG, 8, 10⟩
def Fld.CRT_CFG_EARLY_SEAL : FieldAt := ⟨Reg.CRT_CFG, 18, 1⟩
def Fld.CRT_CFG_F_NOM : FieldAt := ⟨Reg.CRT_CFG, 19, 1⟩
def Fld.CRT_ALIGN_TOL : FieldAt := ⟨Reg.CRT_ALIGN, 0, 10⟩
def Fld.CRT_PRED_MAX_EPOCHS : FieldAt := ⟨Reg.CRT_PRED, 0, 8⟩
def Fld.CRT_AMEND_HORIZON : FieldAt := ⟨Reg.CRT_AMEND, 0, 24⟩
def Fld.CRT_HIST_SIZE : FieldAt := ⟨Reg.CRT_HIST, 0, 16⟩
def Fld.CRT_HIST_AMEND_SIZE : FieldAt := ⟨Reg.CRT_HIST, 16, 16⟩
def Fld.CRT_STATUS_RUNNING : FieldAt := ⟨Reg.CRT_STATUS, 0, 1⟩
def Fld.CRT_STATUS_SOLO : FieldAt := ⟨Reg.CRT_STATUS, 1, 1⟩
def Fld.CRT_STATUS_SPLIT : FieldAt := ⟨Reg.CRT_STATUS, 2, 1⟩
def Fld.CRT_STATUS_CFG_ERR : FieldAt := ⟨Reg.CRT_STATUS, 3, 1⟩
def Fld.CRT_STATUS_OPEN : FieldAt := ⟨Reg.CRT_STATUS, 8, 8⟩
def Fld.CRT_SUM_SELn_SLOT (n : Nat) : FieldAt := ⟨Reg.CRT_SUM_SELn n, 0, 16⟩
def Fld.CRT_SUM_SELn_EN (n : Nat) : FieldAt := ⟨Reg.CRT_SUM_SELn n, 16, 1⟩
def Fld.OSC_CTRL_EN : FieldAt := ⟨Reg.OSC_CTRL, 0, 1⟩
def Fld.OSC_CTRL_SSO_EN : FieldAt := ⟨Reg.OSC_CTRL, 1, 1⟩
def Fld.OSC_CTRL_DEF_EN : FieldAt := ⟨Reg.OSC_CTRL, 2, 1⟩
def Fld.OSC_CFG_R_DIM : FieldAt := ⟨Reg.OSC_CFG, 0, 8⟩
def Fld.OSC_CFG_SSO_SLOTS : FieldAt := ⟨Reg.OSC_CFG, 8, 5⟩
def Fld.OSC_CFG_REPORT_DIV : FieldAt := ⟨Reg.OSC_CFG, 16, 8⟩
def Fld.OSC_CFG_USE_TEST : FieldAt := ⟨Reg.OSC_CFG, 24, 1⟩
def Fld.OSC_TRK_TAU : FieldAt := ⟨Reg.OSC_TRK, 0, 12⟩
def Fld.OSC_TRK_MISS_LIM : FieldAt := ⟨Reg.OSC_TRK, 12, 7⟩
def Fld.OSC_BAND_F_LO : FieldAt := ⟨Reg.OSC_BAND, 0, 16⟩
def Fld.OSC_BAND_F_HI : FieldAt := ⟨Reg.OSC_BAND, 16, 16⟩
def Fld.OSC_ASSOC_F_TOL : FieldAt := ⟨Reg.OSC_ASSOC, 0, 8⟩
def Fld.OSC_ASSOC_DAMP_TOL : FieldAt := ⟨Reg.OSC_ASSOC, 8, 8⟩
def Fld.OSC_ASSOC_BIRTH_N : FieldAt := ⟨Reg.OSC_ASSOC, 16, 8⟩
def Fld.OSC_ASSOC_DROP_N : FieldAt := ⟨Reg.OSC_ASSOC, 24, 8⟩
def Fld.OSC_CONF_SD_MAX : FieldAt := ⟨Reg.OSC_CONF, 0, 10⟩
def Fld.OSC_CONF_MIN_AGE : FieldAt := ⟨Reg.OSC_CONF, 10, 16⟩
def Fld.OSC_CONF_SNR_MIN : FieldAt := ⟨Reg.OSC_CONF, 26, 6⟩
def Fld.OSC_SSO_F_LO : FieldAt := ⟨Reg.OSC_SSO, 0, 6⟩
def Fld.OSC_SSO_F_HI : FieldAt := ⟨Reg.OSC_SSO, 8, 6⟩
def Fld.OSC_SSO_R_DIM_SSO : FieldAt := ⟨Reg.OSC_SSO, 16, 6⟩
def Fld.OSC_DEF_WIN : FieldAt := ⟨Reg.OSC_DEF, 0, 6⟩
def Fld.OSC_DEF_N_RANK : FieldAt := ⟨Reg.OSC_DEF, 8, 3⟩
def Fld.OSC_DEF_BW_PCT : FieldAt := ⟨Reg.OSC_DEF, 16, 6⟩
def Fld.OSC_REF_SLOT : FieldAt := ⟨Reg.OSC_REF, 0, 16⟩
def Fld.OSC_STATUS_RUNNING : FieldAt := ⟨Reg.OSC_STATUS, 0, 1⟩
def Fld.OSC_STATUS_TRACKER_VALID : FieldAt := ⟨Reg.OSC_STATUS, 1, 1⟩
def Fld.OSC_STATUS_SSO_VALID : FieldAt := ⟨Reg.OSC_STATUS, 2, 1⟩
def Fld.OSC_STATUS_LAG : FieldAt := ⟨Reg.OSC_STATUS, 3, 1⟩
def Fld.OSC_STATUS_CFG_ERR : FieldAt := ⟨Reg.OSC_STATUS, 4, 1⟩
def Fld.OSC_STATUS_N_MODES : FieldAt := ⟨Reg.OSC_STATUS, 8, 7⟩
def Fld.OSC_STATUS_N_SIG : FieldAt := ⟨Reg.OSC_STATUS, 16, 13⟩
def Fld.OSC_THRk_F_F_LO (k : Nat) : FieldAt := ⟨Reg.OSC_THRk_F k, 0, 16⟩
def Fld.OSC_THRk_F_F_HI (k : Nat) : FieldAt := ⟨Reg.OSC_THRk_F k, 16, 16⟩
def Fld.OSC_THRk_D_DAMP_WARN (k : Nat) : FieldAt := ⟨Reg.OSC_THRk_D k, 0, 10⟩
def Fld.OSC_THRk_D_DAMP_ALARM (k : Nat) : FieldAt := ⟨Reg.OSC_THRk_D k, 10, 10⟩
def Fld.OSC_THRk_D_HYST (k : Nat) : FieldAt := ⟨Reg.OSC_THRk_D k, 20, 6⟩
def Fld.OSC_THRk_P_PERSIST (k : Nat) : FieldAt := ⟨Reg.OSC_THRk_P k, 0, 12⟩
def Fld.OSC_THRk_P_AMP_CLASS (k : Nat) : FieldAt := ⟨Reg.OSC_THRk_P k, 12, 2⟩
def Fld.OSC_THRk_P_AMP_EN (k : Nat) : FieldAt := ⟨Reg.OSC_THRk_P k, 14, 1⟩
def Fld.ISL_CTRL_EN : FieldAt := ⟨Reg.ISL_CTRL, 0, 1⟩
def Fld.ISL_CTRL_GRID_EN : FieldAt := ⟨Reg.ISL_CTRL, 1, 1⟩
def Fld.ISL_CFG_PERSIST : FieldAt := ⟨Reg.ISL_CFG, 0, 8⟩
def Fld.ISL_CFG_MIN_LIT : FieldAt := ⟨Reg.ISL_CFG, 8, 8⟩
def Fld.ISL_CFG_LIT_MIN : FieldAt := ⟨Reg.ISL_CFG, 16, 7⟩
def Fld.ISL_CFG_USE_PRED : FieldAt := ⟨Reg.ISL_CFG, 23, 1⟩
def Fld.ISL_COHk_DF_MAX (k : Nat) : FieldAt := ⟨Reg.ISL_COHk k, 0, 16⟩
def Fld.ISL_COHk_SLIP_MAX (k : Nat) : FieldAt := ⟨Reg.ISL_COHk k, 16, 16⟩
def Fld.ISL_GRID_QUORUM : FieldAt := ⟨Reg.ISL_GRID, 0, 7⟩
def Fld.ISL_STATUS_RUNNING : FieldAt := ⟨Reg.ISL_STATUS, 0, 1⟩
def Fld.ISL_STATUS_VALID : FieldAt := ⟨Reg.ISL_STATUS, 1, 1⟩
def Fld.ISL_STATUS_ISLAND_LOCAL : FieldAt := ⟨Reg.ISL_STATUS, 2, 1⟩
def Fld.ISL_STATUS_ISLAND_GRID : FieldAt := ⟨Reg.ISL_STATUS, 3, 1⟩
def Fld.ISL_STATUS_CFG_ERR : FieldAt := ⟨Reg.ISL_STATUS, 4, 1⟩
def Fld.ISL_STATUS_BASE : FieldAt := ⟨Reg.ISL_STATUS, 16, 16⟩
def Fld.ISL_COUNT_CUR : FieldAt := ⟨Reg.ISL_COUNT, 0, 16⟩
def Fld.ISL_COUNT_REF : FieldAt := ⟨Reg.ISL_COUNT, 16, 16⟩
def Fld.FUM_CTRL_EN : FieldAt := ⟨Reg.FUM_CTRL, 0, 1⟩
def Fld.FUM_CFG_GRID_EN : FieldAt := ⟨Reg.FUM_CFG, 0, 1⟩
def Fld.FUM_STATUS_RUNNING : FieldAt := ⟨Reg.FUM_STATUS, 0, 1⟩
def Fld.FUM_STATUS_ALMOK : FieldAt := ⟨Reg.FUM_STATUS, 1, 1⟩
def Fld.FUM_STATUS_SAFE : FieldAt := ⟨Reg.FUM_STATUS, 2, 1⟩
def Fld.FUM_STATUS_DE_DEGRADED : FieldAt := ⟨Reg.FUM_STATUS, 3, 1⟩
def Fld.FUM_STATUS_DE_COUNT : FieldAt := ⟨Reg.FUM_STATUS, 4, 3⟩
def Fld.FUM_STATUS_CFG_ERR : FieldAt := ⟨Reg.FUM_STATUS, 7, 1⟩
def Fld.FUM_STATUS_PINS : FieldAt := ⟨Reg.FUM_STATUS, 8, 8⟩
def Fld.FUM_PINp_ACTIVE_HIGH (p : Nat) : FieldAt := ⟨Reg.FUM_PINp p, 0, 1⟩
def Fld.FUM_PINp_SAFE_ALARM (p : Nat) : FieldAt := ⟨Reg.FUM_PINp p, 1, 1⟩
def Fld.FUM_PINp_EN (p : Nat) : FieldAt := ⟨Reg.FUM_PINp p, 2, 1⟩
def Fld.FUM_PINp_MIN_ON (p : Nat) : FieldAt := ⟨Reg.FUM_PINp p, 8, 8⟩
def Fld.ACQ_CTRL_FE_EN : FieldAt := ⟨Reg.ACQ_CTRL, 0, 4⟩
def Fld.ACQ_STATUS_LINK_UP : FieldAt := ⟨Reg.ACQ_STATUS, 0, 4⟩
def Fld.ACQ_STATUS_ID_OK : FieldAt := ⟨Reg.ACQ_STATUS, 4, 4⟩
def Fld.ACQ_STATUS_MEAS : FieldAt := ⟨Reg.ACQ_STATUS, 8, 4⟩
def Fld.ACQ_STATUS_CFG_ERR : FieldAt := ⟨Reg.ACQ_STATUS, 12, 1⟩
def Fld.ACQ_TRIPLEk_A (k : Nat) : FieldAt := ⟨Reg.ACQ_TRIPLEk k, 0, 6⟩
def Fld.ACQ_TRIPLEk_B (k : Nat) : FieldAt := ⟨Reg.ACQ_TRIPLEk k, 8, 6⟩
def Fld.ACQ_TRIPLEk_C (k : Nat) : FieldAt := ⟨Reg.ACQ_TRIPLEk k, 16, 6⟩
def Fld.ACQ_TRIPLEk_EN (k : Nat) : FieldAt := ⟨Reg.ACQ_TRIPLEk k, 31, 1⟩
def Fld.FLT_CFG_FREEZE_STEP : FieldAt := ⟨Reg.FLT_CFG, 0, 8⟩
def Fld.FLT_CFG_FREEZE_HOLD : FieldAt := ⟨Reg.FLT_CFG, 8, 8⟩
def Fld.FLT_STATUS_CFG_ERR : FieldAt := ⟨Reg.FLT_STATUS, 0, 1⟩
def Fld.FLT_CHc_PRESET (c : Nat) : FieldAt := ⟨Reg.FLT_CHc c, 0, 2⟩
def Fld.FLT_CHc_DCB_EN (c : Nat) : FieldAt := ⟨Reg.FLT_CHc c, 2, 1⟩
def Fld.FLT_CHc_DCB_TAU (c : Nat) : FieldAt := ⟨Reg.FLT_CHc c, 3, 3⟩
def Fld.FLT_CHSTATc_FROZEN (c : Nat) : FieldAt := ⟨Reg.FLT_CHSTATc c, 0, 1⟩
def Fld.FLT_CHSTATc_OVR (c : Nat) : FieldAt := ⟨Reg.FLT_CHSTATc c, 1, 1⟩
def Fld.FLT_CHSTATc_ON_SHADOW (c : Nat) : FieldAt := ⟨Reg.FLT_CHSTATc c, 2, 1⟩
def Fld.CAL_CTRL_ROT_EN : FieldAt := ⟨Reg.CAL_CTRL, 0, 4⟩
def Fld.CAL_LIM_MATCH_GAIN : FieldAt := ⟨Reg.CAL_LIM, 0, 8⟩
def Fld.CAL_LIM_STEP_GAIN : FieldAt := ⟨Reg.CAL_LIM, 8, 8⟩
def Fld.CAL_LIM_DELAY_LIM : FieldAt := ⟨Reg.CAL_LIM, 16, 8⟩
def Fld.CAL_LIM_OFFSET_LIM : FieldAt := ⟨Reg.CAL_LIM, 24, 8⟩
def Fld.CAL_STATm_INPUT (m : Nat) : FieldAt := ⟨Reg.CAL_STATm m, 0, 4⟩
def Fld.CAL_STATm_PHASE (m : Nat) : FieldAt := ⟨Reg.CAL_STATm m, 4, 4⟩
def Fld.CAL_STATm_HALT (m : Nat) : FieldAt := ⟨Reg.CAL_STATm m, 8, 1⟩
def Fld.CAL_STATm_LAPS (m : Nat) : FieldAt := ⟨Reg.CAL_STATm m, 16, 16⟩
def Fld.CAL_FAULTm_ADC (m : Nat) : FieldAt := ⟨Reg.CAL_FAULTm m, 0, 13⟩
def Fld.GEY_CTRL_EN : FieldAt := ⟨Reg.GEY_CTRL, 0, 1⟩
def Fld.GEY_CTRL_STREAM_EN : FieldAt := ⟨Reg.GEY_CTRL, 1, 1⟩
def Fld.GEY_CFG_BUF_SIZE : FieldAt := ⟨Reg.GEY_CFG, 0, 16⟩
def Fld.GEY_CFG_RESERVE : FieldAt := ⟨Reg.GEY_CFG, 16, 8⟩
def Fld.GEY_STATUS_RUNNING : FieldAt := ⟨Reg.GEY_STATUS, 0, 1⟩
def Fld.GEY_STATUS_STREAMING : FieldAt := ⟨Reg.GEY_STATUS, 1, 1⟩
def Fld.GEY_STATUS_BACKPRESSURE : FieldAt := ⟨Reg.GEY_STATUS, 2, 1⟩
def Fld.GEY_STATUS_CFG_ERR : FieldAt := ⟨Reg.GEY_STATUS, 3, 1⟩
def Fld.GEY_STATUS_RATE : FieldAt := ⟨Reg.GEY_STATUS, 4, 1⟩
def Fld.GEY_STATUS_FILL : FieldAt := ⟨Reg.GEY_STATUS, 16, 7⟩
def Fld.NRG_CTRL_EN : FieldAt := ⟨Reg.NRG_CTRL, 0, 1⟩
def Fld.NRG_CFG_HOLDUP : FieldAt := ⟨Reg.NRG_CFG, 0, 8⟩
def Fld.NRG_CFG_INTERVAL : FieldAt := ⟨Reg.NRG_CFG, 8, 6⟩
def Fld.NRG_CFG_PFW_EN : FieldAt := ⟨Reg.NRG_CFG, 14, 1⟩
def Fld.NRG_STATUS_RUNNING : FieldAt := ⟨Reg.NRG_STATUS, 0, 1⟩
def Fld.NRG_STATUS_PFW : FieldAt := ⟨Reg.NRG_STATUS, 1, 1⟩
def Fld.NRG_STATUS_SAVE_FAIL : FieldAt := ⟨Reg.NRG_STATUS, 2, 1⟩
def Fld.NRG_STATUS_CFG_ERR : FieldAt := ⟨Reg.NRG_STATUS, 3, 1⟩
def Fld.NRG_STATUS_VALID : FieldAt := ⟨Reg.NRG_STATUS, 16, 16⟩
def Fld.NRG_PTn_STAT_VALID (n : Nat) : FieldAt := ⟨Reg.NRG_PTn_STAT n, 0, 1⟩
def Fld.NRG_PTn_STAT_OVR (n : Nat) : FieldAt := ⟨Reg.NRG_PTn_STAT n, 1, 1⟩
def Fld.NRG_PTn_STAT_LINK_GAP (n : Nat) : FieldAt := ⟨Reg.NRG_PTn_STAT n, 2, 1⟩
def Fld.NRG_PTn_STAT_UNSAVED (n : Nat) : FieldAt := ⟨Reg.NRG_PTn_STAT n, 3, 1⟩
def Fld.NRG_PTn_STAT_NO_SAVE (n : Nat) : FieldAt := ⟨Reg.NRG_PTn_STAT n, 4, 1⟩
def Fld.NRG_PTn_STAT_CLEARED (n : Nat) : FieldAt := ⟨Reg.NRG_PTn_STAT n, 5, 1⟩
def Fld.CYC_CFG_KEY_SLOT : FieldAt := ⟨Reg.CYC_CFG, 0, 10⟩
def Fld.CYC_CFG_RET_EN : FieldAt := ⟨Reg.CYC_CFG, 10, 1⟩
def Fld.CYC_CFG_RET_PERIOD : FieldAt := ⟨Reg.CYC_CFG, 12, 7⟩
def Fld.CYC_CFG_OVR_MAX : FieldAt := ⟨Reg.CYC_CFG, 20, 4⟩
def Fld.CYC_STATUS_STATE : FieldAt := ⟨Reg.CYC_STATUS, 0, 3⟩
def Fld.CYC_STATUS_BANK : FieldAt := ⟨Reg.CYC_STATUS, 3, 1⟩
def Fld.CYC_STATUS_LOADED : FieldAt := ⟨Reg.CYC_STATUS, 4, 2⟩
def Fld.CYC_STATUS_CFG_ERR : FieldAt := ⟨Reg.CYC_STATUS, 6, 1⟩
def Fld.CYC_STATUS_RET_RESTORED : FieldAt := ⟨Reg.CYC_STATUS, 7, 1⟩
def Fld.CYC_STATUS_RET_FAIL : FieldAt := ⟨Reg.CYC_STATUS, 8, 1⟩
def Fld.CYC_STATUS_SWITCH_PEND : FieldAt := ⟨Reg.CYC_STATUS, 9, 1⟩
def Fld.CYC_EXEC_LAST : FieldAt := ⟨Reg.CYC_EXEC, 0, 16⟩
def Fld.CYC_EXEC_MAX : FieldAt := ⟨Reg.CYC_EXEC, 16, 16⟩
def Fld.RIO_CFG_ETYPE : FieldAt := ⟨Reg.RIO_CFG, 0, 16⟩
def Fld.RIO_CTRL_SEG_EN : FieldAt := ⟨Reg.RIO_CTRL, 0, 2⟩
def Fld.RIO_STATUS_CFG_ERR : FieldAt := ⟨Reg.RIO_STATUS, 0, 1⟩
def Fld.SCH_CFG_PE_PREFETCH : FieldAt := ⟨Reg.SCH_CFG, 0, 1⟩
def Fld.SCH_STATUS_QUEUED : FieldAt := ⟨Reg.SCH_STATUS, 0, 11⟩
def Fld.SCH_STATUS_CFG_ERR : FieldAt := ⟨Reg.SCH_STATUS, 11, 1⟩
def Fld.SCH_STATUS_IN_SERVICE : FieldAt := ⟨Reg.SCH_STATUS, 16, 10⟩
def Fld.SCH_MC_LOAD_PCT : FieldAt := ⟨Reg.SCH_MC_LOAD, 0, 7⟩
def Fld.SCH_MC_LOAD_DEFER : FieldAt := ⟨Reg.SCH_MC_LOAD, 7, 1⟩
def Fld.SCH_MC_LOAD_DEFER_HI : FieldAt := ⟨Reg.SCH_MC_LOAD, 8, 7⟩
def Fld.SCH_MC_LOAD_DEFER_LO : FieldAt := ⟨Reg.SCH_MC_LOAD, 16, 7⟩
def Fld.SCH_TRACE_CFG_EN : FieldAt := ⟨Reg.SCH_TRACE_CFG, 0, 1⟩
def Fld.SCH_TRACE_CFG_CLASS_MASK : FieldAt := ⟨Reg.SCH_TRACE_CFG, 1, 4⟩
def Fld.SCH_TRACE_CFG_MIN_PRIO : FieldAt := ⟨Reg.SCH_TRACE_CFG, 5, 3⟩
def Fld.SCH_TRACE_CFG_SAMPLE : FieldAt := ⟨Reg.SCH_TRACE_CFG, 8, 4⟩
def Fld.SCH_TRACE_CFG_BUF_SIZE : FieldAt := ⟨Reg.SCH_TRACE_CFG, 16, 8⟩
def Fld.ENG_CFG_KEY_SLOT : FieldAt := ⟨Reg.ENG_CFG, 0, 10⟩
def Fld.ENG_STATUS_PE_ACTIVE : FieldAt := ⟨Reg.ENG_STATUS, 0, 16⟩
def Fld.ENG_STATUS_DE_ACTIVE : FieldAt := ⟨Reg.ENG_STATUS, 16, 4⟩
def Fld.ENG_STATUS_SPARE : FieldAt := ⟨Reg.ENG_STATUS, 20, 4⟩
def Fld.ENG_STATUS_NO_SPARE : FieldAt := ⟨Reg.ENG_STATUS, 24, 1⟩
def Fld.ENG_STATUS_DEGRADED : FieldAt := ⟨Reg.ENG_STATUS, 25, 1⟩
def Fld.ENG_STATUS_SWITCHING : FieldAt := ⟨Reg.ENG_STATUS, 26, 2⟩
def Fld.ENG_STATUS_MC_SWITCHING : FieldAt := ⟨Reg.ENG_STATUS, 28, 1⟩
def Fld.ENG_BANK_ACTIVE : FieldAt := ⟨Reg.ENG_BANK, 0, 3⟩
def Fld.ENG_RETIRED_ENGINE : FieldAt := ⟨Reg.ENG_RETIRED, 0, 20⟩
def Fld.NET_CFG_EXPRESS_PAUSE_OBEY : FieldAt := ⟨Reg.NET_CFG, 0, 1⟩
def Fld.NET_STATUS_CFG_ERR : FieldAt := ⟨Reg.NET_STATUS, 0, 1⟩
def Fld.NET_MDIO_DATA : FieldAt := ⟨Reg.NET_MDIO, 0, 16⟩
def Fld.NET_MDIO_REGAD : FieldAt := ⟨Reg.NET_MDIO, 16, 5⟩
def Fld.NET_MDIO_PHYAD : FieldAt := ⟨Reg.NET_MDIO, 21, 5⟩
def Fld.NET_MDIO_WRITE : FieldAt := ⟨Reg.NET_MDIO, 26, 1⟩
def Fld.NET_MDIO_START : FieldAt := ⟨Reg.NET_MDIO, 30, 1⟩
def Fld.NET_MDIO_BUSY : FieldAt := ⟨Reg.NET_MDIO, 31, 1⟩
def Fld.NET_Pp_CFG_EN (p : Nat) : FieldAt := ⟨Reg.NET_Pp_CFG p, 0, 1⟩
def Fld.NET_Pp_CFG_MODE (p : Nat) : FieldAt := ⟨Reg.NET_Pp_CFG p, 1, 2⟩
def Fld.NET_Pp_CFG_FEC_EN (p : Nat) : FieldAt := ⟨Reg.NET_Pp_CFG p, 3, 1⟩
def Fld.NET_Pp_CFG_FC_MODE (p : Nat) : FieldAt := ⟨Reg.NET_Pp_CFG p, 4, 2⟩
def Fld.NET_Pp_CFG_PREEMPT_EN (p : Nat) : FieldAt := ⟨Reg.NET_Pp_CFG p, 6, 1⟩
def Fld.NET_Pp_CFG_VERIFY_DIS (p : Nat) : FieldAt := ⟨Reg.NET_Pp_CFG p, 7, 1⟩
def Fld.NET_Pp_CFG_ADD_FRAG (p : Nat) : FieldAt := ⟨Reg.NET_Pp_CFG p, 8, 2⟩
def Fld.NET_Pp_CFG_VID_FILT_EN (p : Nat) : FieldAt := ⟨Reg.NET_Pp_CFG p, 10, 1⟩
def Fld.NET_Pp_CFG_UNTAGGED_DROP (p : Nat) : FieldAt := ⟨Reg.NET_Pp_CFG p, 11, 1⟩
def Fld.NET_Pp_CFG_PTP_BYPASS (p : Nat) : FieldAt := ⟨Reg.NET_Pp_CFG p, 12, 1⟩
def Fld.NET_Pp_CFG_CL37_AN (p : Nat) : FieldAt := ⟨Reg.NET_Pp_CFG p, 13, 1⟩
def Fld.NET_Pp_FRAME_MAX_FRAME (p : Nat) : FieldAt := ⟨Reg.NET_Pp_FRAME p, 0, 14⟩
def Fld.NET_Pp_MAC_HI_ADDR (p : Nat) : FieldAt := ⟨Reg.NET_Pp_MAC_HI p, 0, 16⟩
def Fld.NET_Pp_STATUS_LINK (p : Nat) : FieldAt := ⟨Reg.NET_Pp_STATUS p, 0, 1⟩
def Fld.NET_Pp_STATUS_PCS_OK (p : Nat) : FieldAt := ⟨Reg.NET_Pp_STATUS p, 1, 1⟩
def Fld.NET_Pp_STATUS_VERIFY (p : Nat) : FieldAt := ⟨Reg.NET_Pp_STATUS p, 2, 2⟩
def Fld.NET_Pp_STATUS_PREEMPT_ACTIVE (p : Nat) : FieldAt := ⟨Reg.NET_Pp_STATUS p, 4, 1⟩
def Fld.NET_Pp_STATUS_PAUSED (p : Nat) : FieldAt := ⟨Reg.NET_Pp_STATUS p, 5, 1⟩
def Fld.NET_Pp_STATUS_MOD_ABS (p : Nat) : FieldAt := ⟨Reg.NET_Pp_STATUS p, 6, 1⟩
def Fld.NET_Pp_STATUS_LOS (p : Nat) : FieldAt := ⟨Reg.NET_Pp_STATUS p, 7, 1⟩
def Fld.NET_Pp_STATUS_TX_FAULT (p : Nat) : FieldAt := ⟨Reg.NET_Pp_STATUS p, 8, 1⟩
def Fld.NET_Pp_STATUS_SFP_ID_OK (p : Nat) : FieldAt := ⟨Reg.NET_Pp_STATUS p, 9, 1⟩
def Fld.NET_Pp_STATUS_MODE_MISMATCH (p : Nat) : FieldAt := ⟨Reg.NET_Pp_STATUS p, 10, 1⟩
def Fld.NET_Pp_STATUS_MACSEC_ACTIVE (p : Nat) : FieldAt := ⟨Reg.NET_Pp_STATUS p, 11, 1⟩
def Fld.NET_Pp_STATUS_PN_EXHAUSTED (p : Nat) : FieldAt := ⟨Reg.NET_Pp_STATUS p, 12, 1⟩
def Fld.NET_Pp_STATUS_KEY_ORPHANED (p : Nat) : FieldAt := ⟨Reg.NET_Pp_STATUS p, 13, 1⟩
def Fld.NET_Pp_STATUS_PFC_PAUSED (p : Nat) : FieldAt := ⟨Reg.NET_Pp_STATUS p, 16, 8⟩
def Fld.NET_FLD_CFG_EN : FieldAt := ⟨Reg.NET_FLD_CFG, 0, 2⟩
def Fld.NET_FLDn_MAC_HI_ADDR (n : Nat) : FieldAt := ⟨Reg.NET_FLDn_MAC_HI n, 0, 16⟩
def Fld.TIM_CTRL_EN : FieldAt := ⟨Reg.TIM_CTRL, 0, 1⟩
def Fld.TIM_CTRL_DOM_EN : FieldAt := ⟨Reg.TIM_CTRL, 1, 2⟩
def Fld.TIM_CTRL_PPS_OUT_MODE : FieldAt := ⟨Reg.TIM_CTRL, 4, 2⟩
def Fld.TIM_CFG_PREF : FieldAt := ⟨Reg.TIM_CFG, 0, 1⟩
def Fld.TIM_CFG_SERVO_TAU : FieldAt := ⟨Reg.TIM_CFG, 8, 8⟩
def Fld.TIM_CFG_LOSS_N : FieldAt := ⟨Reg.TIM_CFG, 16, 8⟩
def Fld.TIM_LIM_LOCK_LIM : FieldAt := ⟨Reg.TIM_LIM, 0, 16⟩
def Fld.TIM_LIM_TQ_LIM : FieldAt := ⟨Reg.TIM_LIM, 16, 16⟩
def Fld.TIM_HOLDOVER_HO_RATE : FieldAt := ⟨Reg.TIM_HOLDOVER, 0, 16⟩
def Fld.TIM_STATUS_ACQUIRED : FieldAt := ⟨Reg.TIM_STATUS, 0, 1⟩
def Fld.TIM_STATUS_TIME_SUSPECT : FieldAt := ⟨Reg.TIM_STATUS, 1, 1⟩
def Fld.TIM_STATUS_FOLLOWING : FieldAt := ⟨Reg.TIM_STATUS, 2, 1⟩
def Fld.TIM_STATUS_SUMMIT_PREF : FieldAt := ⟨Reg.TIM_STATUS, 3, 1⟩
def Fld.TIM_STATUS_LOCAL_OVERRIDE : FieldAt := ⟨Reg.TIM_STATUS, 4, 1⟩
def Fld.TIM_STATUS_DOM_DISAGREE : FieldAt := ⟨Reg.TIM_STATUS, 5, 1⟩
def Fld.TIM_STATUS_HOST_SET : FieldAt := ⟨Reg.TIM_STATUS, 6, 1⟩
def Fld.TIM_STATUS_CFG_ERR : FieldAt := ⟨Reg.TIM_STATUS, 7, 1⟩
def Fld.TIM_STATUS_DOM0_STATE : FieldAt := ⟨Reg.TIM_STATUS, 8, 3⟩
def Fld.TIM_STATUS_DOM1_STATE : FieldAt := ⟨Reg.TIM_STATUS, 12, 3⟩
def Fld.TIM_STATUS_TQ_CODE : FieldAt := ⟨Reg.TIM_STATUS, 16, 4⟩
def Fld.TIM_UTC_OFFSET : FieldAt := ⟨Reg.TIM_UTC, 0, 8⟩
def Fld.TIM_UTC_PENDING : FieldAt := ⟨Reg.TIM_UTC, 8, 1⟩
def Fld.TIM_UTC_NEG : FieldAt := ⟨Reg.TIM_UTC, 9, 1⟩
def Fld.TIM_UTC_OCCURRED : FieldAt := ⟨Reg.TIM_UTC, 10, 1⟩
def Fld.TIM_UTC_HOST_OFFSET : FieldAt := ⟨Reg.TIM_UTC, 16, 8⟩
def Fld.TIM_NOW_SEC_HI_SEC : FieldAt := ⟨Reg.TIM_NOW_SEC_HI, 0, 16⟩
def Fld.TIM_NOW_SEC_HI_FRAC : FieldAt := ⟨Reg.TIM_NOW_SEC_HI, 16, 16⟩
def Fld.TIM_DOMd_CFG_SRC (d : Nat) : FieldAt := ⟨Reg.TIM_DOMd_CFG d, 0, 2⟩
def Fld.TIM_DOMd_CFG_PTP_DOMAIN (d : Nat) : FieldAt := ⟨Reg.TIM_DOMd_CFG d, 8, 8⟩
def Fld.TIM_PPS_PPS_DELAY : FieldAt := ⟨Reg.TIM_PPS, 0, 16⟩
def Fld.TIM_PPS_OUT_WIDTH : FieldAt := ⟨Reg.TIM_PPS, 16, 8⟩
def Fld.TIM_GNSS_STAT_FIX_OK : FieldAt := ⟨Reg.TIM_GNSS_STAT, 0, 1⟩
def Fld.TIM_GNSS_STAT_ANT_OK : FieldAt := ⟨Reg.TIM_GNSS_STAT, 1, 1⟩
def Fld.TIM_GNSS_STAT_SURVEY_DONE : FieldAt := ⟨Reg.TIM_GNSS_STAT, 2, 1⟩
def Fld.TIM_GNSS_STAT_PPS_SEEN : FieldAt := ⟨Reg.TIM_GNSS_STAT, 3, 1⟩
def Fld.TIM_Pp_PTP_EN (p : Nat) : FieldAt := ⟨Reg.TIM_Pp_PTP p, 0, 1⟩
def Fld.TIM_Pp_PTP_DOM (p : Nat) : FieldAt := ⟨Reg.TIM_Pp_PTP p, 1, 1⟩
def Fld.TIM_Pp_PTP_ROLE (p : Nat) : FieldAt := ⟨Reg.TIM_Pp_PTP p, 2, 2⟩
def Fld.TIM_Pp_PTP_ONE_STEP (p : Nat) : FieldAt := ⟨Reg.TIM_Pp_PTP p, 4, 1⟩
def Fld.TIM_Pp_PTP_PROFILE (p : Nat) : FieldAt := ⟨Reg.TIM_Pp_PTP p, 5, 1⟩
def Fld.TIM_Pp_PTP_PRIORITY1 (p : Nat) : FieldAt := ⟨Reg.TIM_Pp_PTP p, 8, 8⟩
def Fld.TIM_Pp_PTP_PRIORITY2 (p : Nat) : FieldAt := ⟨Reg.TIM_Pp_PTP p, 16, 8⟩
def Fld.TIM_Pp_LAT_RX_LAT (p : Nat) : FieldAt := ⟨Reg.TIM_Pp_LAT p, 0, 16⟩
def Fld.TIM_Pp_LAT_TX_LAT (p : Nat) : FieldAt := ⟨Reg.TIM_Pp_LAT p, 16, 16⟩
def Fld.TIM_Pp_STATE_PORT_STATE (p : Nat) : FieldAt := ⟨Reg.TIM_Pp_STATE p, 0, 4⟩
def Fld.FAB_CTRL_LINK_EN : FieldAt := ⟨Reg.FAB_CTRL, 0, 6⟩
def Fld.FAB_CFG_DEVICE : FieldAt := ⟨Reg.FAB_CFG, 0, 6⟩
def Fld.FAB_CFG_SUMMIT_PRIO : FieldAt := ⟨Reg.FAB_CFG, 8, 4⟩
def Fld.FAB_CFG_AUTO_REJOIN : FieldAt := ⟨Reg.FAB_CFG, 12, 1⟩
def Fld.FAB_CFG_FABRIC_ID : FieldAt := ⟨Reg.FAB_CFG, 16, 16⟩
def Fld.FAB_SHED_SHED_PCT : FieldAt := ⟨Reg.FAB_SHED, 0, 7⟩
def Fld.FAB_SHED_GROW_PCT : FieldAt := ⟨Reg.FAB_SHED, 8, 7⟩
def Fld.FAB_SHED_SHED_MS : FieldAt := ⟨Reg.FAB_SHED, 16, 16⟩
def Fld.FAB_STATUS_JOINED : FieldAt := ⟨Reg.FAB_STATUS, 0, 1⟩
def Fld.FAB_STATUS_IS_SUMMIT : FieldAt := ⟨Reg.FAB_STATUS, 1, 1⟩
def Fld.FAB_STATUS_ELECTION : FieldAt := ⟨Reg.FAB_STATUS, 2, 1⟩
def Fld.FAB_STATUS_VIEW_CHANGE : FieldAt := ⟨Reg.FAB_STATUS, 3, 1⟩
def Fld.FAB_STATUS_MINORITY : FieldAt := ⟨Reg.FAB_STATUS, 4, 1⟩
def Fld.FAB_STATUS_CFG_ERR : FieldAt := ⟨Reg.FAB_STATUS, 5, 1⟩
def Fld.FAB_STATUS_SUMMIT : FieldAt := ⟨Reg.FAB_STATUS, 8, 6⟩
def Fld.FAB_STATUS_N_MEMBERS : FieldAt := ⟨Reg.FAB_STATUS, 16, 7⟩
def Fld.FAB_Ln_CFG_MIN_STATE (n : Nat) : FieldAt := ⟨Reg.FAB_Ln_CFG n, 0, 2⟩
def Fld.FAB_Ln_STATUS_STATE (n : Nat) : FieldAt := ⟨Reg.FAB_Ln_STATUS n, 0, 3⟩
def Fld.FAB_Ln_STATUS_WIDTH (n : Nat) : FieldAt := ⟨Reg.FAB_Ln_STATUS n, 4, 2⟩
def Fld.FAB_Ln_STATUS_PEER (n : Nat) : FieldAt := ⟨Reg.FAB_Ln_STATUS n, 8, 6⟩
def Fld.FAB_Ln_STATUS_PEER_LINK (n : Nat) : FieldAt := ⟨Reg.FAB_Ln_STATUS n, 16, 3⟩
def Fld.FAB_Ln_STATUS_LANE_FAIL (n : Nat) : FieldAt := ⟨Reg.FAB_Ln_STATUS n, 20, 4⟩
def Fld.FAB_Ln_STATUS_UTIL (n : Nat) : FieldAt := ⟨Reg.FAB_Ln_STATUS n, 24, 7⟩
def Fld.KEY_STATUS_LC : FieldAt := ⟨Reg.KEY_STATUS, 0, 3⟩
def Fld.KEY_STATUS_ROOT_OK : FieldAt := ⟨Reg.KEY_STATUS, 3, 1⟩
def Fld.KEY_STATUS_ROOT_FAIL : FieldAt := ⟨Reg.KEY_STATUS, 4, 1⟩
def Fld.KEY_STATUS_TRNG_FAIL : FieldAt := ⟨Reg.KEY_STATUS, 5, 1⟩
def Fld.KEY_STATUS_BUSY : FieldAt := ⟨Reg.KEY_STATUS, 6, 1⟩
def Fld.KEY_STATUS_SWEEP : FieldAt := ⟨Reg.KEY_STATUS, 7, 1⟩
def Fld.KEY_STATUS_LAST_RESTART : FieldAt := ⟨Reg.KEY_STATUS, 8, 2⟩
def Fld.KEY_SLOTS_VALID : FieldAt := ⟨Reg.KEY_SLOTS, 0, 11⟩
def Fld.KEY_SLOTS_ORPHANED : FieldAt := ⟨Reg.KEY_SLOTS, 16, 11⟩
def Fld.SNT_CFG_REPEAT_WIN : FieldAt := ⟨Reg.SNT_CFG, 0, 16⟩
def Fld.SNT_CFG_MIN_SEV : FieldAt := ⟨Reg.SNT_CFG, 16, 2⟩
def Fld.SNT_STATUS_RUNNING : FieldAt := ⟨Reg.SNT_STATUS, 0, 1⟩
def Fld.SNT_STATUS_MEM_FAIL : FieldAt := ⟨Reg.SNT_STATUS, 1, 1⟩
def Fld.SNT_STATUS_READING : FieldAt := ⟨Reg.SNT_STATUS, 2, 1⟩
def Fld.SNT_STATUS_CLEARING : FieldAt := ⟨Reg.SNT_STATUS, 3, 1⟩
def Fld.SNT_STATUS_PFW_HOLD : FieldAt := ⟨Reg.SNT_STATUS, 4, 1⟩
def Fld.SNT_STATUS_CFG_ERR : FieldAt := ⟨Reg.SNT_STATUS, 5, 1⟩
def Fld.SNT_STATUS_SHADOW_FILL : FieldAt := ⟨Reg.SNT_STATUS, 16, 10⟩
def Fld.SNT_HEAD_HI_SEQ : FieldAt := ⟨Reg.SNT_HEAD_HI, 0, 16⟩
def Fld.SNT_OLDEST_HI_SEQ : FieldAt := ⟨Reg.SNT_OLDEST_HI, 0, 16⟩
def Fld.SNT_HELD_COUNT : FieldAt := ⟨Reg.SNT_HELD, 0, 18⟩
def Fld.SNT_POWER_CYCLES_COUNT : FieldAt := ⟨Reg.SNT_POWER_CYCLES, 0, 16⟩
def Fld.SAF_CFG_CLOSE_MS : FieldAt := ⟨Reg.SAF_CFG, 0, 16⟩
def Fld.SAF_CFG_PROOF_HOURS : FieldAt := ⟨Reg.SAF_CFG, 16, 10⟩
def Fld.SAF_CFG_MGMT_RESTART_S : FieldAt := ⟨Reg.SAF_CFG, 26, 6⟩
def Fld.SAF_STATUS_SAFE : FieldAt := ⟨Reg.SAF_STATUS, 0, 1⟩
def Fld.SAF_STATUS_PATH_FAULT : FieldAt := ⟨Reg.SAF_STATUS, 1, 1⟩
def Fld.SAF_STATUS_MGMT_STALL : FieldAt := ⟨Reg.SAF_STATUS, 2, 1⟩
def Fld.SAF_STATUS_PROOF_RUNNING : FieldAt := ⟨Reg.SAF_STATUS, 3, 1⟩
def Fld.SAF_STATUS_CFG_ERR : FieldAt := ⟨Reg.SAF_STATUS, 4, 1⟩
def Fld.SAF_STATUS_OPEN : FieldAt := ⟨Reg.SAF_STATUS, 8, 5⟩
def Fld.SAF_STATUS_DIAG_FAIL : FieldAt := ⟨Reg.SAF_STATUS, 16, 15⟩
def Fld.SAF_CAUSE_CLASS : FieldAt := ⟨Reg.SAF_CAUSE, 0, 8⟩
def Fld.SAF_CAUSE_STATUS : FieldAt := ⟨Reg.SAF_CAUSE, 8, 8⟩
def Fld.SAF_CAUSE_DIAG : FieldAt := ⟨Reg.SAF_CAUSE, 16, 8⟩
def Fld.SAF_CAUSE_VALID : FieldAt := ⟨Reg.SAF_CAUSE, 24, 1⟩
def Fld.SAF_HB_AGE_MS : FieldAt := ⟨Reg.SAF_HB_AGE, 0, 16⟩
def Fld.SAF_PROOF_LAST_FAIL : FieldAt := ⟨Reg.SAF_PROOF_LAST, 0, 12⟩
def Fld.SAF_PROOF_LAST_AGE_H : FieldAt := ⟨Reg.SAF_PROOF_LAST, 16, 16⟩
def Fld.INV_CFG_FAST : FieldAt := ⟨Reg.INV_CFG, 0, 1⟩
def Fld.INV_STATUS_PRESENT : FieldAt := ⟨Reg.INV_STATUS, 0, 10⟩
def Fld.INV_STATUS_VALID : FieldAt := ⟨Reg.INV_STATUS, 16, 10⟩
def Fld.INV_STATUS_SCANNING : FieldAt := ⟨Reg.INV_STATUS, 26, 1⟩
def Fld.INV_BOARD_SUBSYS_VENDOR : FieldAt := ⟨Reg.INV_BOARD, 0, 16⟩
def Fld.INV_BOARD_SUBSYS_ID : FieldAt := ⟨Reg.INV_BOARD, 16, 16⟩

end Sys2Proof.Machine
end

