-- ==== Sys2Proof/Machine/AcqState.lean ====
section
/-! DEFINITION. The state of local acquisition, Geyser and the energy block, beside their registers. -/

namespace Sys2Proof.Machine

open Sys2Proof

/-! ## Local acquisition (R212 to R247) -/

/-- Calibration values of an ADC in binary64: GAIN, OFFSET in counts, DELAY in ns (R223). -/
structure CalVals where
  gain : DWord := 0x3FF0000000000000
  offset : DWord := 0
  delay : DWord := 0
  deriving DecidableEq, Repr

/-- Sums over a window: samples, their sum in units of 2⁻²⁴ count, their fundamental, and samples over range. -/
structure CalAcc where
  n : Nat := 0
  sum : Int := 0
  re : DWord := 0
  im : DWord := 0
  ovr : Nat := 0
  deriving DecidableEq, Repr

/-- A raw sample of an ADC in counts, with its marks: over range, repaired, and REF_OK of its frame (R215, R219). -/
structure RawSamp where
  x : Int
  ovr : Bool := false
  rep : Bool := false
  refOk : Bool := true
  deriving DecidableEq, Repr

structure AdcSt where
  /-- Newest first; the newest stands for the module's `top` tick. -/
  raw : List RawSamp := []
  vals : CalVals := {}
  /-- Values of the last accepted reference calibration, and values just computed. -/
  ref : Option CalVals := none
  newRef : Option CalVals := none
  /-- A correction ramp: its first tick, its starting values and its end values (R240). -/
  ramp : Option (Nat × CalVals × CalVals) := none
  refusals : Nat := 0
  acceptedAt : Nat := 0
  acc : CalAcc := {}
  /-- Means over ground, +REF and −REF, in counts. -/
  gnd : DWord := 0
  pos : DWord := 0
  neg : DWord := 0
  deriving DecidableEq, Repr

/-- A stage 2 output in units of 2⁻²⁴ count (R222), with its marks. -/
structure Samp where
  y : Int
  ovr : Bool := false
  rep : Bool := false
  shadow : Bool := false
  frozen : Bool := false
  refOk : Bool := true
  deriving DecidableEq, Repr

/-- A fine sample in binary64 counts, with the coarse phasor that it carries (R230). -/
structure FineSamp where
  x : DWord
  re : DWord
  im : DWord
  ovr : Bool
  deriving DecidableEq, Repr

structure FilsinSt where
  /-- Estimate of the DC-blocking stage in units of 2⁻²⁴ count. -/
  dc : Int := 0
  /-- First tick at which the estimate is no longer frozen (R224). -/
  freezeUntil : Nat := 0
  ovrAt : Option Nat := none
  /-- Stage 2 outputs, newest first; the newest stands for the module's `yTop` tick. -/
  hist : List Samp := []
  /-- Fine samples, newest first; the newest stands for the module's `fineTop`. -/
  fine : List FineSamp := []
  deriving DecidableEq, Repr

/-- A downlink command that waits to be sent (R216); `tries` counts the times it was sent before. -/
structure FeCmd where
  type : Nat
  arg0 : Nat
  arg1 : Nat
  tries : Nat := 0
  deriving DecidableEq, Repr

/-- A MUX command whose echo is awaited, with the tick of its EFF_SEQ (R217). -/
structure FeVerify where
  adc : Nat
  src : Nat
  effK : Nat
  tries : Nat
  deriving DecidableEq, Repr

/-- What a calibration window gathers: a reference source, or a match of two ADCs (R237, R238). -/
inductive CalWin where
  | ground | plus | minus | acRef
  | match_ (input : Nat)
  deriving DecidableEq, Repr

/-- A window over the ADCs named: its first tick and its length. -/
structure WinSt where
  what : CalWin
  adcs : List Nat
  from_ : Nat
  len : Nat
  deriving DecidableEq, Repr

/-- A calibration turn (R237): its input, its start, the next of its steps, the back match windows used, whether its
reference steps failed, and S's values before the match. -/
structure TurnSt where
  input : Nat
  at_ : Nat
  step : Nat := 1
  repeats : Nat := 0
  refBad : Bool := false
  deriving DecidableEq, Repr

structure FeModSt where
  /-- Tick of the last strobe. -/
  strobeK : Option Nat := none
  /-- Tick of the last sample frame that was good or was given up. -/
  lastK : Option Nat := none
  goodRun : Nat := 0
  /-- Consecutive missing or bad frames. -/
  badRun : Nat := 0
  refOk : Bool := true
  /-- Last value of each housekeeping item. -/
  hk : List Nat := List.replicate 16 0
  top : Nat := 0
  yTop : Nat := 0
  fineTop : Nat := 0
  adcs : List AdcSt := List.replicate 13 {}
  chans : List FilsinSt := List.replicate 12 {}
  /-- Measuring start (R221): device time at which the link came up, and the next step. -/
  startAt : Nat := 0
  startStep : Nat := 0
  startBad : Bool := false
  /-- First tick of measurement, or of the chain since a restart (R214). -/
  measFrom : Nat := 0
  /-- G-time of that start: an estimation window must begin after it. -/
  measAt : Nat := 0
  cmdQ : List FeCmd := []
  tag : Nat := 0
  verify : List FeVerify := []
  win : Option WinSt := none
  /-- Input that S carries alone, and the last crossfade: its input, its first tick, and whether it leads to S. -/
  onS : Option Nat := none
  fade : Option (Nat × Nat × Bool) := none
  turn : Option TurnSt := none
  /-- Device time of the next turn start. -/
  turnAt : Option Nat := none
  nextInput : Nat := 0
  deriving DecidableEq, Repr

structure AcqSt where
  mods : List FeModSt := List.replicate 4 {}
  /-- Last fine sample processed. -/
  fineLast : Option Nat := none
  deriving DecidableEq, Repr

/-! ## Geyser (R248 to R274) -/

/-- A local condition detector (R250). -/
structure LcEntry where
  ch : Nat
  qty : Nat
  mode : Nat
  chatN : Nat
  t : Word
  hyst : Word
  hold : Nat
  chatWin : Nat
  deriving DecidableEq, Repr

structure LcSt where
  ent : Option LcEntry := none
  /-- Underlying output; the output in the vector differs from it only while it is frozen. -/
  under : Bool := false
  /-- Previous sample of the quantity and its tick. -/
  prev : Option (DWord × Nat) := none
  /-- Tick at which the clear condition began to hold. -/
  clearSince : Option Nat := none
  /-- Times of the last changes in ticks, newest first. -/
  changes : List Nat := []
  /-- Crossing time of a change in the present tick, in 2⁻¹⁶ ns, and whether it is interpolated. -/
  cross : Option (Nat × Bool) := none
  deriving DecidableEq, Repr

/-- A trigger (R255): the masks of the bits that must be 0 and must be 1. -/
structure TrigEntry where
  must0 : Nat
  must1 : Nat
  level : Bool
  markFall : Bool
  stuckS : Nat
  holdoff : Nat
  repeat_ : Nat
  deriving DecidableEq, Repr

structure TrigSt where
  ent : Option TrigEntry := none
  /-- The match in the previous tick; none where the next tick's match is taken as previous (R258). -/
  prev : Option Bool := none
  /-- The match in the last tick evaluated, whatever a command changed since. -/
  high : Bool := false
  /-- Tick from which the match has stayed 1. -/
  since : Nat := 0
  lastFire : Option Nat := none
  /-- First tick after hold-off. -/
  holdUntil : Option Nat := none
  /-- A firing since the match last rose, for FALL marks. -/
  firedHigh : Bool := false
  stuck : Bool := false
  soft : Nat := 0
  fires : Nat := 0
  missed : Nat := 0
  missedTotal : Nat := 0
  deadTicks : Nat := 0
  deadTotal : Nat := 0
  /-- The last tick counted as blind. -/
  deadAt : Option Nat := none
  deriving DecidableEq, Repr

/-- A mark (R266), numbered when it is written. -/
structure Mark where
  k : Nat
  trig : Nat
  cause : Nat
  interp : Bool
  tbit : Nat
  cross : Nat
  fires : Nat
  deadNs : Nat
  missed : Nat
  vector : Nat
  suspect : Bool
  deriving DecidableEq, Repr

/-- A block interval (R263): its first tick, its rate, whether it is streamed, and its channels. -/
structure BlockSt where
  from_ : Nat
  fine : Bool
  on : Bool
  mask : Nat
  suspect : Bool := false
  /-- The chain restarted in the block. -/
  stepped : Bool := false
  deriving DecidableEq, Repr

/-- Ticks without DATA: first tick, count, CAUSE, and whether time was doubtful in them (R262, R267). -/
structure GapSt where
  from_ : Nat
  count : Nat
  cause : Nat
  suspect : Bool
  deriving DecidableEq, Repr

structure GeySt where
  lcs : Tbl LcSt := []
  trigs : Tbl TrigSt := []
  /-- Last tick evaluated, and the vector in it. -/
  tick : Option Nat := none
  lastVec : Nat := 0
  marks : List Mark := []
  /-- Channel mask of the layout in force, and a layout that waits for its tick: FINE, mask, and the tick in which its command completed
  (R270). -/
  mask : Nat := 0
  newLayout : Option (Bool × Nat × Nat) := none
  /-- Block intervals not written yet, oldest first. -/
  blocks : List BlockSt := []
  /-- Ticks that a GAP record still reports, oldest first. -/
  gaps : List GapSt := []
  /-- The first tick that no DATA or GAP record accounts for, from the first streamed block on, and whether time was doubtful in a tick since
  then (R262, R267). -/
  acct : Option Nat := none
  acctSuspect : Bool := false
  /-- The tick in which STREAM_EN was set or G-time stepped last, and that in which STREAM_EN was cleared last (R269, R270, R274). -/
  streamFrom : Nat := 0
  streamTill : Nat := 0
  seq : Nat := 0
  deriving DecidableEq, Repr

/-! ## Interchange energy (R275 to R292) -/

structure NrgEntry where
  image : Bytes
  wiring : Nat
  reverse : Bool
  v : List Nat
  i : List Nat
  vScale : Word
  iScale : Word
  deriving DecidableEq, Repr

/-- A save slot in MRAM: its 200 bytes (R286). -/
structure SaveSlot where
  image : Bytes
  deriving DecidableEq, Repr

structure PointSt where
  ent : Option NrgEntry := none
  /-- The sixteen internal sums in units of 2⁻⁴⁰ Wh. -/
  sums : List Nat := List.replicate 16 0
  /-- Duration without samples, in steps of 1/12,800 s. -/
  outage : Nat := 0
  pLast : Word := 0
  pNow : Word := 0
  /-- Largest resumed bound and its estimate, in Wh (R289). -/
  bound : Word := 0
  estimate : Word := 0
  /-- Accumulators latched at the last interval boundary, with their time. -/
  latched : List Nat := List.replicate 16 0
  latchedAt : Nat := 0
  /-- A save in progress: the slot it writes, and whether it is a final save. -/
  saving : Option (Nat × Bool × SaveSlot) := none
  deriving DecidableEq, Repr

/-- Crossings under one setting of a pin: edge times in µs of G-time, and a count of crossings that found the queue full. -/
structure PulseJob where
  width : Nat
  times : List Nat := []
  carry : Nat := 0
  deriving DecidableEq, Repr

structure PulseSt where
  en : Bool := false
  point : Nat := 0
  idx : Nat := 0
  weight : Nat := 0
  width : Nat := 0
  residue : Nat := 0
  /-- Crossings not emitted yet; the newest setting's come last (R283). -/
  jobs : List PulseJob := []
  nextFree : Nat := 0
  high : Bool := false
  highUntil : Nat := 0
  deriving DecidableEq, Repr

structure NrgSt where
  points : List PointSt := List.replicate 16 {}
  pins : List PulseSt := List.replicate 4 {}
  /-- Save slots A and B of each point, in MRAM. -/
  slots : List (Option SaveSlot × Option SaveSlot) := List.replicate 16 (none, none)
  /-- G-time of the last step boundary in 2⁻¹⁶ ns, as it was then. -/
  stepAt : Nat := 0
  /-- Last whole second saved, and last interval minute closed. -/
  savedSec : Nat := 0
  intervalMin : Nat := 0
  pfwAt : Option Nat := none
  /-- An assertion has asked for the final save at the next step boundary. -/
  finalDue : Bool := false
  deriving DecidableEq, Repr

end Sys2Proof.Machine
end

