-- ==== Sys2Proof/Machine/GridState.lean ====
section
/-! DEFINITION. The state of ingest and of Crater beside their registers (R47 to R141). -/

namespace Sys2Proof.Machine

/-- An entry of a table that changes at an effective epoch (R81, R82): the entry in force, and the pending change as its
effective short epoch and the new entry, or none for a removal. -/
structure Held (α : Type) where
  cur : Option α := none
  pend : Option (Nat × Option α) := none
  deriving DecidableEq, Repr

/-! ## Ingest -/

/-- A stream entry (R59). -/
structure StreamEntry where
  type : Nat
  authReq : Bool
  testAccept : Bool
  portMask : Nat
  prio : Nat
  vlanId : Nat
  vlanAny : Bool
  srcId : Nat
  udpPort : Nat
  srcAddr : Bytes
  chanBase : Nat
  nchan : Nat
  frate : Nat
  primary : Nat
  mirror : Nat
  keySlot : Nat
  staleN : Nat
  fifoCells : Nat
  outIdcode : Nat
  frameLen : Nat
  pmuBlk : Nat
  format : Nat
  timeBase : Nat
  svidCrc : Nat
  cfgSig : Nat
  phnmr : Nat
  annmr : Nat
  dgnmr : Nat
  deriving DecidableEq, Repr

/-- A channel slot (R62). -/
structure ChanEntry where
  kind : Nat
  enable : Bool
  srcPos : Nat
  scale : Word
  offset : Word
  stream : Nat
  deriving DecidableEq, Repr

/-- An accepted GOOSE message of a stream (R75). -/
structure GooseLast where
  stNum : Nat
  sqNum : Nat
  at_ : Nat
  ttlMs : Nat
  members : List GooseVal
  test : Bool
  suspect : Bool
  port : Nat
  deriving DecidableEq, Repr

/-- The content of a stored item in the form a phasor engine converts (R76). -/
inductive ItemBody where
  /-- A PMU block, from STAT to the last digital word. -/
  | block (b : Bytes)
  /-- ASDUs: smpCnt, the sample's time-tag, and its members. -/
  | asdus (l : List (Nat × Nat × List (Word × Word)))
  | goose (message : GooseLast)
  deriving DecidableEq, Repr

/-- An item of a stream FIFO (R76). Times are in units of 2⁻¹⁶ ns. -/
structure FifoItem where
  rx : Nat
  port : Nat
  cells : Nat
  tag : Nat
  suspect : Bool
  invalid : Bool
  test : Bool
  body : ItemBody
  deriving DecidableEq, Repr

/-- One stream (R59, R76, R92). -/
structure StreamSt where
  entry : Held StreamEntry := {}
  fifo : List FifoItem := []
  frames : Nat := 0
  lost : Nat := 0
  crcErr : Nat := 0
  authErr : Nat := 0
  lenErr : Nat := 0
  dup : Nat := 0
  late : Nat := 0
  timeErr : Nat := 0
  wrongPort : Nat := 0
  /-- Epoch, port and receive time-stamp of the last record committed; the epoch belongs to the current run. -/
  lastEpoch : Nat := 0
  lastPort : Nat := 0
  lastRx : Nat := 0
  committed : Option Nat := none
  stat10 : Bool := false
  cfgChange : Bool := false
  keyOrphaned : Bool := false
  /-- The slot whose orphaned key the last event named, and how often that slot had been written then (R70). -/
  orphanNote : Option (Nat × Nat) := none
  spdu : Option Nat := none
  /-- A STREAM_SET that waits for the stream's history: effective short epoch, IMMEDIATE, and the entry (R440). -/
  awaiting : Option (Nat × Bool × StreamEntry) := none
  /-- The last accepted GOOSE message (R75). -/
  goose : Option GooseLast := none
  /-- The message whose dataset the record takes, and the newest converted: a message whose item is discarded for an uncorrectable
  error gives no record (R79). -/
  gooseUse : Option GooseLast := none
  gooseDone : Option GooseLast := none
  /-- Of the oldest items of the FIFO, how many stood there when ingest, or the stream's protocol, was disabled (R89). -/
  drain : Nat := 0
  deriving DecidableEq, Repr

structure IngSt where
  streams : Tbl StreamSt := []
  chans : Tbl ChanEntry := []
  /-- Device time, in whole seconds, of the last unmatched-source event of each port (R56). -/
  unmatchedAt : Tbl Nat := []
  /-- Frames ingested by the ns of device time, over the last 1.2 s (R122). -/
  load : Tbl Nat := []
  deriving DecidableEq, Repr

/-! ## Crater -/

/-- A record as committed here (R101). -/
structure StoredRec where
  record : Rec
  rx : Nat
  port : Nat
  deriving DecidableEq, Repr

/-- The local seal of an epoch (R107): its instant, and the record of each due stream of the seal set. -/
structure SealInfo where
  at_ : Nat
  early : Bool
  suspect : Bool
  index : Tbl Rec
  /-- Streams filled while an earlier epoch was unconfirmed (R115), and whether their fill has been formed again. -/
  refill : List Nat
  reformed : Bool
  /-- The records of the manifest: the index, with the fill formed again where R115 applied. -/
  published : Tbl Rec
  sums : List SumEntry
  /-- The bits of the condition vector that are latched at the local seal instant (R174). -/
  latch : Nat := 0
  /-- Epoch of the update whose condition word that latch holds (R165). -/
  oscEpoch : Option Nat := none
  deriving DecidableEq, Repr

/-- The pair exchange with one partner (R116). -/
structure PairSt where
  have_ : Option (List Nat) := none
  recs : Tbl Rec := []
  announced : Option Nat := none
  ackSent : Bool := false
  acked : Bool := false
  deriving DecidableEq, Repr

/-- A record that arrived after the local seal of its epoch (R132). -/
structure LateRec where
  stream : Nat
  record : Rec
  rx : Nat
  commitAt : Nat
  deriving DecidableEq, Repr

/-- An entry of the confirmed manifest (R128). -/
structure ConfEntry where
  primary : Nat
  stream : Nat
  mirror : Nat
  qual : Nat
  source : Nat
  deriving DecidableEq, Repr

/-- The confirmation of an epoch (R119). -/
structure ConfInfo where
  at_ : Nat
  view : Nat
  viewChanged : Bool
  members : Nat
  entries : List ConfEntry
  sums : List SumEntry
  recs : Tbl Rec
  diff : Nat
  solo : Bool
  split : Bool
  restart : Bool
  deriving DecidableEq, Repr

/-- An open epoch (R101). -/
structure EpochSlot where
  recs : Tbl StoredRec := []
  checkFail : List Nat := []
  /-- Streams whose committed record an uncorrectable error has struck (R104). -/
  bad : List Nat := []
  sealed : Option SealInfo := none
  pairs : Tbl PairSt := []
  published : Bool := false
  reported : Bool := false
  late : List LateRec := []
  conf : Option ConfInfo := none
  deriving DecidableEq, Repr

/-- A confirmed record as the predictor uses it (R110). -/
structure ConfRec where
  epoch : Nat
  record : Rec
  chanBase : Nat
  nchan : Nat
  deriving DecidableEq, Repr

/-- A confirmed stream's history here: records newest first, and the loss count of R83. -/
structure StreamHist where
  recs : List ConfRec := []
  count : Nat := 0
  lost : Bool := false
  deriving DecidableEq, Repr

/-- A snapshot in the history buffer (R136): its bytes, its local seal instant and its record area. -/
structure HistSnap where
  epoch : Nat
  bytes : Bytes
  sealAt : Nat
  recs : Tbl Rec
  deriving DecidableEq, Repr

structure CrtSt where
  /-- First epoch of the current run (R46, R109). -/
  first : Nat := 0
  nextSeal : Nat := 0
  nextConf : Nat := 0
  nextDeliver : Nat := 0
  /-- The next snapshot confirmed is the first of a run begun under R109. -/
  restart : Bool := false
  slots : Tbl EpochSlot := []
  /-- The newest 16 local seals, for the consumers of R27. -/
  recent : Tbl SealInfo := []
  /-- Manifests held, by epoch and device; kept until 16 epochs after confirmation (R121). -/
  manifests : Tbl (Tbl Manifest) := []
  hists : Tbl StreamHist := []
  snaps : List HistSnap := []
  /-- The runs of epochs whose snapshots the history buffer has overwritten, first and last epoch of each, oldest first. -/
  overRuns : List (Nat × Nat) := []
  /-- The amendment log, each record with its epoch. -/
  amends : List (Nat × Amendment) := []
  /-- (stream, epoch) of amendments that the log has overwritten. -/
  amendLost : List (Nat × Nat) := []
  /-- For each identity with two claims, the `up` time of its latest OWNER_DISAGREE record. -/
  disagreeAt : Tbl Nat := []
  /-- Snapshots that wait for the snapshot ring, oldest first. -/
  waiting : List Nat := []
  /-- Snapshots of a run ended by a backward step that still wait for the ring, each until then with its content (R109, R136). -/
  carry : List (Nat × Option HistSnap) := []
  deriving DecidableEq, Repr

end Sys2Proof.Machine
end

