-- ==== Sys2Proof/Machine/AlarmState.lean ====
section
/-! DEFINITION. The state of the island engine and of Fumarole beside their registers (R174 to R211). -/

namespace Sys2Proof.Machine

/-- A node entry (R176). -/
structure NodeEntry where
  freqSlot : Nat
  angleSlot : Nat
  globalId : Nat
  angleEn : Bool
  area : Nat
  deriving DecidableEq, Repr

/-- A branch entry (R177): its ends, and each breaker's slot, bit and enable. -/
structure BranchEntry where
  nodeA : Nat
  nodeB : Nat
  brk1 : Nat
  brk2 : Nat
  bit1 : Nat
  bit2 : Nat
  en1 : Bool
  en2 : Bool
  unknownClosed : Bool
  cohSet : Nat
  cohEn : Bool
  deriving DecidableEq, Repr

/-- A rule entry (R185). -/
structure RuleEntry where
  op : Nat
  comp : Nat
  missPolicy : Nat
  usePred : Bool
  testOk : Bool
  latch : Bool
  failAssert : Bool
  severity : Nat
  slotA : Nat
  slotB : Nat
  onN : Nat
  offN : Nat
  t1 : Word
  t2 : Word
  hyst : Word
  bits : List Nat
  inv : Nat
  nbits : Nat
  comb : Bool
  gateEn : Bool
  gate : Nat
  pins : Nat
  group : Nat
  groupEn : Bool
  gateInv : Bool
  stuckS : Nat
  chatN : Nat
  chatWin : Nat
  deriving DecidableEq, Repr

/-- A rule's entry and its state (R188 to R190). -/
structure RuleSt where
  entry : Held RuleEntry := {}
  /-- The entry last evaluated: at another one the counts restart (R190). -/
  used : Option RuleEntry := none
  /-- Counts restart at the rule's effective epoch, given as a short epoch; without one they restart at the next decision (R190). -/
  restart : Option (Option Nat) := none
  on : Nat := 0
  off : Nat := 0
  out : Bool := false
  /-- Acknowledged while latched. -/
  acked : Bool := false
  latched : Bool := false
  /-- Value of the assert condition at the last evaluation, and epochs since each of its last changes. -/
  prevCond : Option Bool := none
  changes : List Nat := []
  frozen : Bool := false
  quiet : Nat := 0
  asserted : Nat := 0
  stuck : Bool := false
  deriving DecidableEq, Repr

/-- An express publication (R197, R198). -/
structure Pub where
  en : Bool
  portMask : Nat
  dstMac : Nat
  appid : Nat
  vlanId : Nat
  vlanPri : Nat
  gocbRef : Bytes
  datSet : Bytes
  goId : Bytes
  confRev : Nat
  test : Bool
  simulation : Bool
  members : List Nat
  rtFirst : Nat
  rtMax : Nat
  safeAlarm : Bool
  auth : Bool
  keySlot : Nat
  stNum : Nat := 0
  sqNum : Nat := 0
  vals : Option (List Bool) := none
  t : Nat := 0
  /-- Device time of the next retransmission, and the interval that follows it in ms. -/
  next : Option (Nat × Nat) := none
  deriving DecidableEq, Repr

/-- A change of a grid bit that waits for its record (R202, R205): group or 32, deciding epoch, its new value, and the devices
counted, where this device knows them. -/
structure GridRec where
  index : Nat
  short : Nat
  on : Bool
  members : Option Nat
  deriving DecidableEq, Repr

structure PinSt where
  /-- At the alarm level since this device time. -/
  since : Option Nat := none
  deriving DecidableEq, Repr

structure FumSt where
  rules : Tbl RuleSt := []
  pubs : Tbl Pub := []
  pins : List PinSt := List.replicate 8 {}
  /-- The 512 rule outputs, and the condition vector of the last decision. -/
  outs : Nat := 0
  cond : Nat := 0
  /-- Epoch of the tracker update whose condition word that vector holds (R165). -/
  oscEpoch : Option Nat := none
  grid : Nat := 0
  islandGrid : Bool := false
  islMembers : Nat := 0
  votes : Tbl VoteMsg := []
  /-- Short epoch of the vote that decided the grid bits last (R200), and whether this device, elected summit, still owes its first
  GRID_STATE (R203). -/
  gridEpoch : Nat := 0
  gridOwed : Bool := false
  ownVote : Option (Nat × Bool) := none
  recSeq : Nat := 0
  /-- Next epoch to decide, and the last decision: its epoch and the G-time and device time of its commit. -/
  decided : Option Nat := none
  decidedAt : Nat := 0
  /-- A decision has committed since the last enable; the pins have been enabled since reset. -/
  decidedHere : Bool := false
  driven : Bool := false
  /-- Island reports, each with its epoch and its bytes before and after SEQ, and grid records: they go out with the decision of that epoch,
  and with the next decision (R204). -/
  islReports : List (Nat × Bytes × Bytes) := []
  gridRecs : List GridRec := []
  /-- The group outputs of the last decision (R175). -/
  rgrp : Nat := 0
  /-- Next epoch to decide, once known. -/
  next : Option Nat := none
  /-- Device time of the last VOTE and GRID_STATE sent each second. -/
  voteAt : Nat := 0
  gridAt : Nat := 0
  deriving DecidableEq, Repr

/-- One evaluation's result (R181). -/
structure IslEval where
  epoch : Nat
  valid : Bool
  /-- Counted components: anchor, nodes, lit nodes, area. -/
  comps : List (Nat × Nat × Nat × Nat)
  lit : Nat
  openBr : Nat
  local_ : Bool
  declared : Bool
  merged : Bool
  rebased : Bool
  deriving DecidableEq, Repr

structure IslSt where
  nodes : Tbl (Held NodeEntry) := []
  branches : Tbl (Held BranchEntry) := []
  last : Option IslEval := none
  /-- The results of the newest evaluations, by epoch, for the decisions on them (R174). -/
  evals : Tbl IslEval := []
  /-- Rebase at the next valid evaluation (R184). -/
  rebase : Bool := true
  /-- Effective short epochs of node and branch changes that have not led to a rebase. -/
  changes : List Nat := []
  /-- Next epoch to evaluate, once known. -/
  next : Option Nat := none
  above : Nat := 0
  below : Nat := 0
  deriving DecidableEq, Repr

end Sys2Proof.Machine
end

