-- ==== Sys2Proof/Machine/BaseState.lean ====
section
/-! DEFINITION. The state of the host interface, the time unit, Sinter, the safety monitor and the clock, reset and
inventory units, beside their registers. -/

namespace Sys2Proof.Machine

/-! ## Host interface (R447 to R475) -/

/-- A buffer that host software has posted on a device-to-host ring (R462). `resv` is set where a reserved field of the
descriptor is not 0. -/
structure BufDesc where
  addr : Nat
  len : Nat
  resv : Bool := false
  deriving DecidableEq, Repr

/-- A record that waits for its device-to-host ring (R467); `groupEnd` marks the last record of a record group (R463). -/
structure RingRec where
  bytes : Bytes
  groupEnd : Bool
  deriving DecidableEq, Repr

/-- A buffer that records are being placed in (R463), with the records that start in it. -/
structure OpenBuf where
  k : Nat
  buf : BufDesc
  used : Nat := 0
  recs : Nat := 0
  contIn : Bool := false
  loss : Bool := false
  firstAt : Nat := 0
  items : List RingRec := []
  deriving DecidableEq, Repr

/-- What the ring engine holds for one of the 32 rings beside its registers (R452 to R471). -/
structure RingSt where
  /-- Number of the next descriptor to be fetched, counted since EN was set (R453). -/
  next : Nat := 0
  /-- Fetched descriptors whose completion is not written, oldest first. -/
  open_ : List Nat := []
  /-- Posted buffers not yet used, in descriptor order. -/
  bufs : List BufDesc := []
  cur : Option OpenBuf := none
  unsignalled : Nat := 0
  firstUnsigAt : Nat := 0
  /-- Counts the enables of the ring: a completion belongs to the enable under which its descriptor was fetched. -/
  session : Nat := 0
  /-- Device time at which EN was cleared (R452). -/
  drainFrom : Nat := 0
  /-- What is left of a record longer than its buffers so far (R463). -/
  rest : Option RingRec := none
  deriving DecidableEq, Repr

/-- The later event that a waiting command's completion is tied to (R459). -/
inductive WaitKind where
  | cycStart | cycStop | cycSwitch
  | engSwitch (cls : Nat)
  | fabJoin | fabLeave | streamHistory (stream : Nat)
  | timReacquire
  | proofRun | sntClear | norWrite
  deriving DecidableEq, Repr

/-- An accepted command whose completion waits (R459). `dead` marks one whose ring was reset since (R450). -/
structure WaitCmd where
  ring : Nat
  k : Nat
  session : Nat
  resAddr : Nat
  kind : WaitKind
  since : Nat
  dead : Bool := false
  deriving DecidableEq, Repr

/-- A completion that waits for the function to return to D0 (R450). -/
structure HeldDone where
  ring : Nat
  k : Nat
  session : Nat
  status : Nat
  result : Nat
  addr : Nat
  block : Bytes
  deriving DecidableEq, Repr

/-- A snapshot that is being staged (R469): the buffers claimed for it, the layout predicted for it, the place and length of
each record, and the records written so far. -/
structure StageSt where
  bufs : List (Nat × BufDesc)
  total : Nat
  sumOff : Nat
  manOff : Nat
  recOff : Nat
  recs : List (Nat × Nat × Nat)
  done : Tbl Rec := []
  deriving DecidableEq, Repr

/-- A snapshot that is being written whole (R463, R469): its epoch, the bytes written so far and the bytes left. -/
structure SnapPart where
  epoch : Nat
  off : Nat
  rest : Bytes
  deriving DecidableEq, Repr

/-- The PCI Express configuration of the endpoint function (R447), with the conventional capabilities by ID (Power Management, MSI-X, PCI
Express) and the extended ones (AER, Device Serial Number), whose numbers are PRESUMED (log 128). The subsystem IDs and the serial number stand in INV_BOARD and in the key
store. -/
structure PcieCfg where
  vendor : Nat := 0x1F58
  device : Nat := 0x0840
  revision : Nat := 0xB0
  classCode : Nat := 0x118000
  /-- Sizes in bytes of BAR0/1, BAR2/3, BAR4/5 and the expansion ROM: 64-bit non-prefetchable memory, or 0 where not implemented. -/
  bars : List Nat := [0x400000, 0x10000, 0, 0]
  interruptPin : Nat := 0
  maxPayload : Nat := 512
  maxReadRequest : Nat := 4096
  caps : List Nat := [0x01, 0x11, 0x10]
  extCaps : List Nat := [0x0001, 0x0003]
  msixVectors : Nat := 64
  noSoftReset : Bool := true
  flr : Bool := true
  deriving DecidableEq, Repr

/-- The latched second half of a latching group (R18), by the offset of the register that holds it. -/
abbrev Latches := Tbl Word

structure HifSt where
  rings : List RingSt := List.replicate 32 {}
  waiting : List WaitCmd := []
  heldDone : List HeldDone := []
  /-- Bit k: records of the ring of kind k were lost since its last buffer started (R467). -/
  lossMarks : Nat := 0
  alarmQ : List RingRec := []
  amendQ : List RingRec := []
  trigQ : List RingRec := []
  eventQ : List RingRec := []
  /-- Staged snapshots by epoch (R469). -/
  stages : Tbl StageSt := []
  /-- SEQ of the next event-ring record (R465). -/
  eventSeq : Nat := 0
  latches : Latches := []
  /-- Held low words of 64-bit registers whose high word has not been written yet (R19). -/
  heldLo : Tbl Word := []
  /-- PCI Express link up. -/
  linkUp : Bool := false
  pcie : PcieCfg := {}
  snapPart : Option SnapPart := none
  deriving DecidableEq, Repr

/-! ## Time unit (R389 to R415) -/

/-- One domain (R395 to R401). -/
structure DomSt where
  /-- Offsets of the last three good samples, newest first (R395). -/
  last3 : List Rat := []
  /-- Consecutive good samples below LOCK_LIM. -/
  below : Nat := 0
  /-- Consecutive missing samples. -/
  missRun : Nat := 0
  /-- Device time of the last sample, good or missing, in ns. -/
  lastAt : Nat := 0
  /-- Samples collected toward acquisition: G-time in ns at the sample, and its offset (R397). -/
  acq : List (Rat × Rat) := []
  /-- UTC offset named by the source, where it names one, and a leap it announces: none, or whether it deletes (R408). -/
  utc : Option Nat := none
  leap : Option Bool := none
  deriving DecidableEq, Repr

/-- An entry of a time-stamp queue (R410). -/
structure TsEntry where
  stamp : Nat
  seqId : Nat
  msgType : Nat
  oneStep : Bool
  preempted : Bool
  domain : Nat
  srcPort : Nat
  entrySeq : Nat
  deriving DecidableEq, Repr


/-- A master heard on a port (R394): its last Announce, what that said beside its data set, and the device times of the last two. -/
structure Foreign where
  ann : AnnounceData
  acc : Nat
  utc : Option Nat
  leap61 : Bool
  leap59 : Bool
  lastAt : Nat
  prevAt : Option Nat
  deriving DecidableEq, Repr

/-- A PTP port (R393, R394). -/
structure PtpPortSt where
  foreign : List Foreign := []
  /-- Device time of the last Announce heard, or of the port's start. -/
  lastAnnounceAt : Nat := 0
  /-- A two-step Sync that waits for its Follow_Up: sequenceId, receive stamp and correction, in 2⁻¹⁶ ns. -/
  pendingSync : Option (Nat × Nat × Int) := none
  /-- Own Pdelay_Req: sequenceId and transmit stamp. -/
  pdReq : Option (Nat × Nat) := none
  /-- A Pdelay_Resp that waits for its Pdelay_Resp_Follow_Up: t2, receive stamp t4, correction. -/
  pdResp : Option (Nat × Nat × Int) := none
  /-- meanLinkDelay in 2⁻¹⁶ ns, once measured. -/
  linkDelay : Option Int := none
  txSeq : Nat := 0
  rxQ : List TsEntry := []
  txQ : List TsEntry := []
  rxCount : Nat := 0
  txCount : Nat := 0
  nextTxAt : Nat := 0
  deriving DecidableEq, Repr

structure TimSt where
  /-- Device time: ns of TCLK since the model's power-on. Timers count it; no register shows it. -/
  up : Nat := 0
  /-- Device time of the last release of reset. -/
  releasedAt : Nat := 0
  /-- The 120-bit accumulator of R389 in units of 2⁻⁴⁰ ns. -/
  acc : Nat := 0
  /-- Rate correction in ppb (R389, R396). -/
  r : Rat := 0
  /-- Changes of the rate and steps of the last 10 s, newest first: the device time of each, and the accumulator and the rate before
  it, from which a stamp of an earlier cycle is read (R391). -/
  clockPast : List (Nat × Nat × Rat) := []
  fest : Rat := 0
  pcorr : Rat := 0
  oPrev : Rat := 0
  /-- fest is updated only where o_prev came from the same domain (R399). -/
  oPrevDom : Option Nat := none
  servoAt : Nat := 0
  dom : List DomSt := [{}, {}]
  ports : List PtpPortSt := [{}, {}, {}, {}]
  /-- Domain followed, with holdover on the last one (R399). -/
  followed : Option Nat := none
  bLast : Rat := 0
  /-- Consecutive reports in which the other domain led on this summit. -/
  leadRun : Nat := 0
  /-- Latest domain-state report of each member, on the summit. -/
  reports : Tbl (Nat × Nat) := []
  /-- Members that have reported since the last comparison of the domains. -/
  reported : Nat := 0
  reportAt : Nat := 0
  lastPps : Option Nat := none
  lastPpsAt : Nat := 0
  ppsUsed : Bool := true
  /-- The edge has counted as a missing sample, and its own TOD message may still come late. -/
  ppsLate : Bool := false
  prevTodSec : Option Nat := none
  /-- Leap announced: seconds (TAI) at which it applies, and whether it deletes. -/
  leapAt : Option (Nat × Bool) := none
  leapEndAt : Option Nat := none
  /-- The last leap that applied. -/
  lastLeap : Option (Nat × Bool) := none
  ppsOut : Bool := false
  /-- The second of G-time at which PPS_OUT last rose. -/
  ppsOutSec : Option Nat := none
  ppsOutUntil : Nat := 0
  deriving DecidableEq, Repr

/-! ## Sinter (R498 to R513) -/

/-- A Sinter record (R498). -/
structure SntRec where
  seq : Nat
  code : Nat
  severity : Nat
  fromShadow : Bool := false
  timeSuspect : Bool
  status : Nat
  index : Nat
  timeUs : Nat
  opSec : Nat
  powerCycles : Nat
  repeats : Nat := 0
  arg : Nat
  deriving DecidableEq, Repr

/-- The log header in MRAM (R500). -/
structure SntHeader where
  opSec : Nat := 0
  powerCycles : Nat := 0
  /-- A pending clear: UP_TO_SEQ and MAX_SEV (R508). -/
  clear : Option (Nat × Nat) := none
  ok : Bool := true
  deriving DecidableEq, Repr

structure SntSt where
  /-- Records on the die, in the order of their events. -/
  shadow : List SntRec := []
  /-- Events raised before recorder start, not yet numbered (R509). -/
  waiting : List SntRec := []
  /-- Records in MRAM by rising SEQ. -/
  log : List SntRec := []
  header : SntHeader := {}
  header2 : SntHeader := {}
  nextSeq : Nat := 0
  opSec : Nat := 0
  /-- Device time at which opSec last counted. -/
  opAt : Nat := 0
  powerCycles : Nat := 0
  /-- Device time of the last occurrence of the newest record, where that came since recorder start (R503). -/
  headAt : Option Nat := none
  headerAt : Nat := 0
  lastCommitted : Nat := 0
  /-- Shadow records overwritten during a memory failure (R507). -/
  shadowLostNow : Nat := 0
  firstFailSeq : Option Nat := none
  probeAt : Nat := 0
  /-- The last probe has succeeded: the shadow is drained next (R507). -/
  probeOk : Bool := false
  afterPowerOn : Bool := true
  deriving DecidableEq, Repr

/-! ## Safety monitor (R514 to R530) -/

/-- An entry of the nested error queue (R521, R529). -/
structure ErrEntry where
  seq : Nat
  cls : Nat
  level : Nat
  status : Nat
  index : Nat
  diag : Nat
  timeUs : Nat
  /-- Device time from which CLOSE_MS counts: recovery complete or condition cleared (R520). -/
  clearAt : Option Nat := none
  deriving DecidableEq, Repr

structure ProofSt where
  /-- SEQ of the first error that can be raised during the run. -/
  startSeq : Nat
  /-- Tests still to run. -/
  todo : Nat
  fail : Nat
  interrupted : Nat
  deriving DecidableEq, Repr

structure SafSt where
  queue : List ErrEntry := []
  seq : Nat := 0
  /-- Diagnostics that are failing now, as (diagnostic, INDEX): each raises once until it passes (R517). -/
  failing : List (Nat × Nat) := []
  hbAt : Nat := 0
  proof : Option ProofSt := none
  proofAt : Option Nat := none
  proofAutoAt : Nat := 0
  /-- Engine under self-test (R518), numbered as R350. -/
  testing : Option Nat := none
  /-- Engines that a DE_DISAGREE recovery still tests, in turn (R519). -/
  recoveryTests : List Nat := []
  lastTestAt : Tbl Nat := []
  /-- A lockstep error of the MC pair asks for a management restart (R519, R524). -/
  mcRestart : Bool := false
  deriving DecidableEq, Repr

/-! ## Clocks, resets, inventory (R531 to R553, R565 to R578) -/

/-- Judgement of a crystal input (R532). -/
inductive XtalJudge where
  | notJudged | passed | noOscillation | outside | unstable
  deriving DecidableEq, Repr

structure ClkSt where
  judge : List XtalJudge := [.notJudged, .notJudged]
  judgedAt : List Nat := [0, 0]
  /-- Dividers in force; CLK_DIV takes effect at a warm reset (R536). -/
  eclkDiv : Nat := 4
  cclkDiv : Nat := 8
  bclkDiv : Nat := 10
  /-- The VCO holds its control value after a root loss (R534). -/
  vcoHold : Bool := false
  /-- Gate requests held until the block's port is idle (R539). -/
  gateHeld : Nat := 0
  pfw : Bool := false
  /-- A requested reset that waits for the final saves: its kind (R542). -/
  resetPending : Option Nat := none
  startComplete : Bool := false
  /-- Steps of the start-up order that are done (R543). -/
  discovered : Bool := false
  keyStarted : Bool := false
  imageLoaded : Bool := false
  /-- No image set verified: RESCUE follows (R543). -/
  noImage : Bool := false
  /-- A rail is below its power-on level: the device is held in power-on reset (R568). -/
  held : Bool := false
  /-- A warm reset has applied dividers that break a ratio limit of R536. -/
  ratioBroken : Bool := false
  /-- Test pins (R577). -/
  testEn : Bool := false
  deriving DecidableEq, Repr

structure InvSt where
  /-- The 256 bytes last read from each identity position (R553). -/
  mem : Tbl Bytes := []
  xtal1Fitted : Bool := false
  /-- Content of NOR0 and NOR1 (R545); none where no set has been written. -/
  nor : List (Option Bytes) := [none, none]
  norInUse : Nat := 0
  norBusy : Bool := false
  deriving DecidableEq, Repr

end Sys2Proof.Machine
end

