-- ==== Sys2Proof/Machine/FabState.lean ====
section
/-! DEFINITION. The state of the Ulpex fabric beside its registers (R416 to R446). -/

namespace Sys2Proof.Machine

/-- A packet in a link's transmit queue or replay buffer (R419, R420). -/
structure SentPkt where
  seq : Nat := 0
  vc : Nat
  dst : Nat
  src : Nat
  hops : Nat
  msgSeq : Nat
  first : Bool
  last : Bool
  payload : Bytes
  /-- The link in whose receive buffer a forwarded packet stands until it goes on (R420). -/
  inl : Option Nat := none
  deriving DecidableEq, Repr

structure LinkSt where
  trained : Bool := false
  /-- The HELLO last received on the link, and whether a check of R427 found its partner wrong. -/
  hello : Option HelloMsg := none
  enabledAt : Nat := 0
  txSeq : Nat := 0
  /-- SEQ of the last packet received good and in order. -/
  rxSeq : Nat := 4095
  /-- Packets that wait for room in the replay buffer or for credits. -/
  queue : List SentPkt := []
  replay : List SentPkt := []
  /-- Device time of the last acknowledgement or of the oldest unacknowledged transmission. -/
  ackAt : Nat := 0
  replays : Nat := 0
  /-- Credits held for each virtual channel, in units of 64 bytes. -/
  credits : List Nat := [64, 256, 2048, 512]
  /-- Credits of each virtual channel's receive buffer that are free again and not yet returned to the partner (R420). -/
  owed : List Nat := [0, 0, 0, 0]
  /-- Deficits of VC2 and VC3 (R421). -/
  deficit : List Nat := [0, 0]
  /-- The next turn of the deficit round robin is VC3's. -/
  turn3 : Bool := false
  /-- The 1 ms window in which a packet was last sent, the bytes sent in it, and those of the window before it (R425). -/
  win : Nat := 0
  winBytes : Nat := 0
  prevBytes : Nat := 0
  /-- First 1 ms window of the present run of quiet windows. -/
  quietFrom : Nat := 0
  /-- The same for the 10 µs windows of growth. -/
  win10 : Nat := 0
  bytes10 : Nat := 0
  /-- Growth under way, and the state it goes to. -/
  grow : Option Nat := none
  grewAt : Option Nat := none
  deriving DecidableEq, Repr

/-- A message held at its source until it is acknowledged (R423). -/
structure HeldMsg where
  dst : Nat
  vc : Nat
  seq : Nat
  msg : FabMsg
  sentAt : Nat
  firstAt : Nat
  /-- Sent into the network; a message that waits for room in the store is not. -/
  sent : Bool
  deriving DecidableEq, Repr

/-- A view (R430). -/
structure FabView where
  num : Nat
  fromEpoch : Nat
  members : Nat
  summit : Nat
  minority : Bool
  /-- G-time of its installation here. -/
  at_ : Nat := 0
  deriving DecidableEq, Repr

/-- A stream identity in the manifests of one device (R439): the other owner that it names, the last epoch that lists it, and the epochs
between its last two listings, 0 where it was listed once. -/
structure Claim where
  other : Nat
  last : Nat
  gap : Nat
  deriving DecidableEq, Repr

/-- A view change under way (R432): the STATE messages held at a coordinator as (U, suspects) by device. -/
structure ViewChange where
  suspects : Nat
  joiner : Option Nat := none
  states : Tbl (Nat × Nat) := []
  since : Nat
  deriving DecidableEq, Repr

/-- A route (R428): link, hops and next device. -/
structure Route where
  link : Nat
  hops : Nat
  next : Nat
  deriving DecidableEq, Repr

structure LsaSt where
  seq : Nat
  links : List LsaLink
  deriving DecidableEq, Repr

structure FabSt where
  links : List LinkSt := [{}, {}, {}, {}, {}, {}]
  /-- Views installed, newest first. -/
  views : List FabView := []
  change : Option ViewChange := none
  /-- Number of devices suspected in the change to the last view installed (R122). -/
  lastSuspects : Nat := 0
  /-- Messages held at this source, oldest first. -/
  held : List HeldMsg := []
  /-- Next MSG_SEQ by destination and VC (4·destination + VC). -/
  txMsg : Tbl Nat := []
  /-- Last MSG_SEQ delivered by source and VC. -/
  rxMsg : Tbl Nat := []
  /-- Sources and VCs to which an E2E_ACK is owed. -/
  ackDue : List Nat := []
  lsaSeq : Nat := 0
  /-- Device time of this device's last LSA. -/
  lsaAt : Nat := 0
  lsas : Tbl LsaSt := []
  primary : Tbl Route := []
  alternate : Tbl Route := []
  /-- Device time of the last HEARTBEAT of each member. -/
  hbAt : Tbl Nat := []
  hbSentAt : Nat := 0
  /-- Members whose FWD_DONE is held, by view. -/
  fwdDone : Tbl Nat := []
  /-- By device: the manifests that its FWD_DONE messages announce as forwarded, and the forwarded manifests that have come from it. -/
  fwdDue : Tbl Nat := []
  fwdGot : Tbl Nat := []
  /-- JOIN_REQ messages not yet acted on: device and device time of arrival (R436). -/
  joinReqs : Tbl Nat := []
  /-- Device time at which a join was requested. -/
  joining : Option Nat := none
  /-- A FAB_LEAVE is under way. -/
  leaving : Bool := false
  /-- Newest epoch whose empty manifest was published (R437). -/
  emptyUpTo : Option Nat := none
  joinEpoch : Nat := 0
  /-- Streams lost with both their owners, by 8192·primary + stream, with the mirror of their last entry (R439). -/
  lost : Tbl Nat := []
  /-- Device time of the last automatic attempt to rejoin (R435). -/
  rejoinAt : Option Nat := none
  autoRejoin : Bool := false
  /-- Members whose VOTE and TIME_REPORT an electing summit holds (R441). -/
  electVotes : Nat := 0
  electTimes : Nat := 0
  /-- Members whose TIME_REPORT has come here ahead of the view that makes this device the summit (R441). -/
  earlyTimes : Nat := 0
  /-- Device time of the last Sinter record of R438, by stream identity. -/
  ownErrAt : Tbl Nat := []
  /-- Histories still to be sent to a joiner: joiner, stream, E_join (R436). -/
  histFeeds : List (Nat × Nat × Nat) := []
  /-- Histories asked for: the last epoch asked, by stream (R440). -/
  histWant : Tbl Nat := []
  /-- The stream identities (8192·primary + stream) that each device's manifests list (R439). -/
  claims : Tbl (Tbl Claim) := []
  deriving DecidableEq, Repr

end Sys2Proof.Machine
end

