-- ==== Sys2Proof/Machine/KeyState.lean ====
section
/-! DEFINITION. The state of the key store (R476 to R497). -/

namespace Sys2Proof.Machine

/-- The states of a slot (R482). An EMPTY slot is not listed in the slot table. -/
inductive SlotState where
  | valid | invalid | orphaned
  deriving DecidableEq, Repr

/-- One key: its bytes, its KEY_ID, and the salt and SSCI of a MACsec key (R481). -/
structure KeyVal where
  bytes : Bytes
  keyId : Nat
  salt : Bytes := []
  ssci : Nat := 0
  deriving DecidableEq, Repr

/-- A slot that is not EMPTY (R480 to R482). `world` is the WORLD bit number; a slot whose keys are zeroised holds none. -/
structure Slot where
  state : SlotState
  world : Nat
  alg : Nat
  lcMask : Nat
  master : Nat
  cur : Option KeyVal
  next : Option KeyVal := none
  deriving DecidableEq, Repr

/-- Life-cycle states (R492). -/
inductive LifeCycle where
  | blank | provision | operational | maintenance | returned
  deriving DecidableEq, Repr

def LifeCycle.code : LifeCycle → Nat
  | .blank => 0 | .provision => 1 | .operational => 2 | .maintenance => 3 | .returned => 7

/-- A key as MRAM holds it: its block under AES-256-GCM with the storage key (R478). -/
structure SealedKey where
  nonce : Bytes
  cipher : Bytes
  tag : Bytes
  deriving DecidableEq, Repr

/-- The key cell of a slot that is not EMPTY, with its state in the slot directory (R490). -/
structure KeyCell where
  state : SlotState
  world : Nat
  alg : Nat
  lcMask : Nat
  master : Nat
  cur : Option SealedKey
  next : Option SealedKey := none
  deriving DecidableEq, Repr

/-- A copy of the helper data in MRAM with its CRC-32, and the check value held beside it (R476, R477). -/
structure HelperCopy where
  data : Bytes
  check : Bytes
  crc : Nat
  deriving DecidableEq, Repr

/-- What a committed update changes (R489, R490). -/
inductive KeyChange where
  | setSlot (slot : Nat) (v : Slot)
  | invalidate (slot : Nat)
  | lifecycle (dest : LifeCycle)
  | ownerInit (v : Slot)
  /-- The counter of an authorised clear of the log (R508): no slot changes. -/
  | counterOnly
  deriving DecidableEq, Repr

/-- The same as the journal and the cells hold it: keys under the storage key. -/
inductive StoredChange where
  | setCell (slot : Nat) (c : KeyCell)
  | invalidate (slot : Nat)
  | lifecycle (dest : LifeCycle)
  | ownerInit (c : KeyCell)
  | counterOnly
  deriving DecidableEq, Repr

inductive JournalState where
  | open_ | committed | done
  deriving DecidableEq, Repr

/-- The journal record (R490). -/
structure Journal where
  state : JournalState
  kind : Nat
  target : Nat
  counter : Nat
  change : StoredChange
  deriving DecidableEq, Repr

structure KeySt where
  /-- The key cache on the die, with the attributes of every slot (R478, R483): empty from each reset to key-store start. -/
  slots : Tbl Slot := []
  /-- The slot directory and its key cells in MRAM (R490). -/
  cells : Tbl KeyCell := []
  lc : LifeCycle := .blank
  counter : Nat := 0
  /-- The two copies of the helper data in MRAM (R476); none before enrolment and once they are zeroised. -/
  helper : List HelperCopy := []
  /-- The root secret, while it is regenerated. -/
  root : Option Bytes := none
  rootFail : Bool := false
  deviceId : Nat := 0
  /-- The retained DEVICE_ID in MRAM (R490, R492). -/
  retainedId : Nat := 0
  journal : Option Journal := none
  /-- The supply was lost inside a commit: nothing more is taken before key-store start (R491). -/
  interrupted : Bool := false
  /-- INVALID slots whose descendants the sweep has yet to mark (R484). -/
  sweep : List Nat := []
  /-- How often each slot has been written by an update. -/
  writes : Tbl Nat := []
  lastRestart : Nat := 0
  started : Bool := false
  trngFail : Bool := false
  /-- Enrolment waits for random output (R479, R543). -/
  enrolWaits : Bool := false
  /-- Readings of the PUF and draws of the entropy source so far. -/
  readings : Nat := 0
  draws : Nat := 0
  /-- Keys sealed so far: each has a nonce of its own. -/
  seals : Nat := 0
  deriving DecidableEq, Repr

end Sys2Proof.Machine
end

