-- ==== Sys2Proof/Machine/LogicState.lean ====
section
/-! DEFINITION. The state of the cyclic logic, the remote stations, and the engines and their scheduler beside their
registers (R292 to R354). -/

namespace Sys2Proof.Machine

/-- A program image in a code bank (R295 to R298). -/
structure Program where
  codeLen : Nat
  retLen : Nat
  entry : Nat
  period : Nat
  outAt : Nat
  wcet : Nat
  layoutId : Nat
  programId : Nat
  code : Bytes
  retInit : Bytes
  /-- Value list: SRC, SLOT, PUBLISHER, INDEX. -/
  values : List (Nat × Nat × Nat × Nat)
  /-- Instance table: PATH_ID, KIND, INIT_IN, STATE_OFF. -/
  insts : List (Nat × Nat × Bool × Nat)
  deriving DecidableEq, Repr

/-- A station entry (R312). -/
structure StationEntry where
  seg : Nat
  addr : Nat
  timeoutCyc : Nat
  tmo : Nat
  nMod : Nat
  subst : Nat
  chatN : Nat
  chatWin : Nat
  stuckS : Nat
  modIn : List Nat
  modOut : List Nat
  dflt : Nat
  deriving DecidableEq, Repr

/-- An accepted INPUT frame (R307). -/
structure Reply where
  failsafe : Bool
  outOk : Bool
  fault : Bool
  inputs : Nat
  modOk : Nat
  deriving DecidableEq, Repr

/-- One input's filters (R315): the input reads of its last changes, newest first, and ns at 1 without a break. -/
structure InputSt where
  changes : List Nat := []
  oneNs : Nat := 0
  deriving DecidableEq, Repr

structure StationSt where
  entry : Option StationEntry := none
  /-- A RIO_STATION_SET that takes effect at the next cycle boundary. -/
  next : Option (Option StationEntry) := none
  reply : Option Reply := none
  /-- Values after R314, and after R315. -/
  under : Nat := 0
  vals : Nat := 0
  chat : Nat := 0
  stuck : Nat := 0
  fresh : Bool := false
  stale : Bool := true
  lastReply : Option Reply := none
  miss : Nat := 0
  /-- Input reads in a row at which each module was missing, or was reported not OK (R314). -/
  modMiss : List Nat := List.replicate 8 0
  filters : Tbl InputSt := []
  deriving DecidableEq, Repr

/-- A retained slot in MRAM (R317): its 64-byte header, its data and its COMMIT. -/
structure RetSlot where
  header : Bytes
  data : Ram
  commit : Nat
  deriving DecidableEq, Repr

/-- The copy of the retained data at an output write, with what the header of a save takes from it and from the image that wrote it
(R317). `time` is the G-time in 2⁻¹⁶ ns. -/
structure RetCopy where
  time : Nat
  layoutId : Nat
  programId : Nat
  retLen : Nat
  data : Ram
  deriving DecidableEq, Repr

structure CycSt where
  banks : List (Option Program) := [none, none]
  /-- Work data and retained data (R294). -/
  work : Ram := []
  retained : Ram := []
  /-- G-time, in units of 0.25 ms, of the last cycle boundary and of the earliest next one. -/
  boundary : Nat := 0
  nextBoundary : Nat := 0
  /-- G-time in ns of the last input read. -/
  lastRead : Option Nat := none
  first : Bool := false
  ovrPrev : Bool := false
  /-- The cycle's execution has started, and has ended. -/
  executing : Bool := false
  execDone : Bool := false
  /-- The output write of this cycle is to come. -/
  outPending : Bool := false
  /-- The cycle was late at its first OUT_AT; its input read is skipped once (R303). -/
  late : Bool := false
  skipped : Bool := false
  /-- Overruns in consecutive cycles. -/
  overruns : Nat := 0
  /-- Outputs last written. -/
  outs : List Nat := List.replicate 32 0
  failsafe : Bool := false
  running : Bool := false
  /-- OUTPUT frames are sent: a program has been started since reset. -/
  outputsOn : Bool := false
  /-- A stop at the next boundary: 0 hold, 1 fail-safe, 2 safe state. -/
  stopReq : Option Nat := none
  /-- A switch to come: its target cycle and RET_INIT. -/
  switch : Option (Nat × Bool) := none
  stations : Tbl StationSt := []
  /-- Cycles executed since CYC_START (R301). -/
  since : Nat := 0
  /-- STATION blocks of the last input read, and the number of input reads. -/
  stationImage : Bytes := []
  reads : Nat := 0
  /-- CYCLE of the OUTPUT frame of the present cycle, by segment; none before it was written. -/
  outCycle : List (Option Nat) := [none, none]
  retSlots : List (Option RetSlot) := [none, none]
  /-- A retained save in progress: its slot and complete content. -/
  saving : Option (Nat × RetSlot) := none
  /-- The copy of which a save waits (R317, R318). -/
  retDue : Option RetCopy := none
  /-- The copy of the last output write. -/
  retCopy : Option RetCopy := none
  /-- Number of the RET_PERIOD interval of the last output write. -/
  retDone : Nat := 0
  /-- The newest confirmed snapshot delivered (R300), the newest record of each stream with the channel slots it was formed for, and its summaries. -/
  snap : Option Nat := none
  vals : Tbl ConfRec := []
  sums : Tbl SumEntry := []
  deriving DecidableEq, Repr

/-! ## Engines and scheduler -/

/-- A queued item: its place in the order of queueing, and of a rerun the engine it must not take and, after a budget overrun, the device
time of that overrun. -/
structure QItem where
  item : WorkItem
  order : Int
  avoid : Option Nat := none
  overran : Option Nat := none
  ranNs : Nat := 0
  deriving DecidableEq, Repr

/-- An item in service (R332): running on its engine, or pre-empted. -/
structure Running where
  q : QItem
  engine : Nat
  since : Nat
  preempted : Bool := false
  bank : Nat
  dispatch : Nat
  deriving DecidableEq, Repr

/-- An engine image (R342). -/
structure EngImage where
  imageId : Nat
  layout : Nat
  prefetchOk : Bool
  code : Bytes
  deriving DecidableEq, Repr

/-- A switch of a class (R344, R345). -/
structure Switch where
  old : Nat
  startedAt : Nat
  deriving DecidableEq, Repr

structure SchSt where
  queue : List QItem := []
  service : List Running := []
  /-- Prefetch slots by engine (R337). -/
  slots : Tbl QItem := []
  nextOrder : Nat := 0
  /-- Items returned to the head of their PRIO so far: each stands below every other item (R338, R340). -/
  returned : Nat := 0
  dispatches : Nat := 0
  /-- Items of hardware producers that found no queue entry, in order (R333). -/
  refused : List WorkItem := []
  banks : List (List (Option EngImage)) := [[none, none], [none, none], [none, none]]
  switching : List (Option Switch) := [none, none, none]
  /-- Completed switches, for the 10 s of R345. -/
  switchedAt : List (Option (Nat × Nat)) := [none, none, none]
  /-- Confirmed budget overruns: engine and device time (R340). -/
  overruns : List (Nat × Nat) := []
  /-- Bank of the last dispatch of a flow of the phasor engines, where it was not A (R344). -/
  flowBank : Tbl Nat := []
  sparePending : Bool := false
  /-- Housekeeping tasks deferred: task, device time since, and whether it has been counted (R347). -/
  deferred : List (Nat × Nat × Bool) := []
  deferReported : Option Nat := none
  trace : List Bytes := []
  /-- Trace records on the die, and the device time of the newest (R349). -/
  traceQ : List Bytes := []
  traceAt : Nat := 0
  traceSeq : Nat := 0
  traceCount : Tbl Nat := []
  deriving DecidableEq, Repr

end Sys2Proof.Machine
end

