-- ==== Sys2Proof/Machine/NetState.lean ====
section
/-! DEFINITION. The state of the Ethernet ports, the output sessions and the field segments beside their registers
(R355 to R388). -/

namespace Sys2Proof.Machine

/-- A multicast table entry (R359). -/
structure McastEntry where
  mac : Nat
  ip : Nat
  join : Bool
  deriving DecidableEq, Repr

/-- A frame in progress on the line. Instants are in ps of device time. -/
structure TxCur where
  /-- Queue it came from: 0 to 7, or 8 for the express queue. -/
  queue : Nat
  frame : TxFrame
  startAt : Nat
  endAt : Nat
  /-- Data bytes sent before this fragment. -/
  done : Nat
  /-- It ends as a fragment, with its mCRC; the rest of the frame waits (R362). -/
  frag : Bool := false
  deriving DecidableEq, Repr

/-- A preempted frame that waits to continue (R362). -/
structure TxRest where
  queue : Nat
  frame : TxFrame
  done : Nat
  deriving DecidableEq, Repr

/-- A MACsec association (R368). -/
structure Assoc where
  slot : Nat
  pn : Nat
  deriving DecidableEq, Repr

/-- A secure channel: its SCI, suite (0 GCM-AES-256, 1 GCM-AES-XPN-256), confidentiality, replay window, associations by
AN, and the AN in use. -/
structure SecChan where
  sci : Nat
  xpn : Bool
  conf : Bool
  window : Nat
  assocs : Tbl Assoc := []
  an : Nat := 0
  deriving DecidableEq, Repr

/-- An SFP cage (R383, R384): page A0h of the module in it, and the pages as last read. -/
structure SfpSt where
  module : Bytes := []
  a0 : Bytes := []
  a2 : Bytes := []
  polled : Bool := false
  deriving DecidableEq, Repr

structure PortSt where
  ip4 : List (Option Nat) := [none, none, none, none]
  ip6 : List (Option Nat) := [none, none, none, none]
  mcast : Tbl McastEntry := []
  vids : List Nat := []
  express : List TxFrame := []
  queues : List (List TxFrame) := List.replicate 8 []
  cur : Option TxCur := none
  rest : Option TxRest := none
  /-- Device time in ps from which the next frame may start: the gap after the last one. -/
  freeAt : Nat := 0
  /-- Device time in ps at which a PAUSE ends; the start of the pause time being counted. -/
  pauseUntil : Nat := 0
  pausedFrom : Nat := 0
  pfcUntil : List Nat := List.replicate 8 0
  txSc : Option SecChan := none
  rxSc : Tbl SecChan := []
  /-- A direction stopped for want of a packet number or of a valid key (R370). -/
  txStopped : Bool := false
  rxStopped : Bool := false
  sfp : SfpSt := {}
  /-- Second unsolicited reports: entry and device time (R359). -/
  reports : List (Nat × Nat) := []
  /-- Queries to answer: IP version 6, group, latest device time (R359). -/
  queries : List (Bool × Nat × Nat) := []
  deriving DecidableEq, Repr

/-- An output session entry (R371). -/
structure SessEntry where
  type : Nat
  valid : Bool
  txOn : Bool
  auth : Bool
  splitMute : Bool
  portMask : Nat
  pcp : Nat
  tagged : Bool
  vlanId : Nat
  srcPort : Nat
  dstPort : Nat
  dstMac : Nat
  addrIdx : Nat
  ipv6 : Bool
  ttl : Nat
  dstIp : Nat
  id : Nat
  rateDiv : Nat
  format : Nat
  timeBase : Nat
  listBase : Nat
  listLen : Nat
  nasdu : Nat
  keySlot : Nat
  dscp : Nat
  rtFirst : Nat
  rtMax : Nat
  deriving DecidableEq, Repr

structure SessSt where
  entry : Option SessEntry := none
  txOn : Bool := false
  cfgPending : Bool := false
  /-- Stored frames: 0 header, 1 CFG-1, 2 CFG-2, 3 CFG-3, 4 the 90-5 template. -/
  stored : Tbl Bytes := []
  spdu : Nat := 1
  stNum : Nat := 0
  sqNum : Nat := 0
  members : List GooseVal := []
  stateAt : Nat := 0
  ndsCom : Bool := false
  /-- Device time of the next retransmission and the interval after it, in ms. -/
  nextAt : Option (Nat × Nat) := none
  sent : Nat := 0
  commands : Nat := 0
  notSent : Nat := 0
  keyOrphaned : Bool := false
  /-- Epochs confirmed and not yet published by this session, oldest first. -/
  todo : List Nat := []
  deriving DecidableEq, Repr

/-- The frame that a field MAC sends (R381): its payload, the attempts started, the device time in ns of the first bit of the
attempt on the line, and what it waits for: the end of carrier, or the end of a back-off. -/
structure FieldTx where
  payload : Bytes
  attempts : Nat := 0
  startedAt : Option Nat := none
  deferring : Bool := false
  /-- It has deferred to carrier once, and is counted. -/
  deferred : Bool := false
  backoffUntil : Option Nat := none
  /-- Device time of its OUT_AT. -/
  outAt : Nat
  deriving DecidableEq, Repr

structure FieldSt where
  tx : Option FieldTx := none
  deriving DecidableEq, Repr

structure NetSt where
  ports : List PortSt := [{}, {}, {}, {}]
  sess : Tbl SessSt := []
  sessList : Tbl Nat := []
  fields : List FieldSt := [{}, {}]
  /-- The PHY registers' answer is outside the device: an MDIO access in progress. -/
  mdioBusy : Bool := false
  /-- Random output was withheld before key-store start: the back-off generators have no seeds (R479, R543). -/
  seedsHeld : Bool := false
  /-- A write of NET_FLD_CFG that enables a segment and waits for the seeds. -/
  fldWait : Option Word := none
  deriving DecidableEq, Repr

end Sys2Proof.Machine
end

