-- ==== Sys2Proof/Machine/OscState.lean ====
section
/-! DEFINITION. The state of the oscillation trackers beside their registers (R142 to R173). -/

namespace Sys2Proof.Machine

/-- A signal table entry (R142). -/
structure SigEntry where
  slot : Nat
  derive_ : Nat
  slot2 : Nat
  nom : Word
  /-- Its effective epoch (R146). -/
  since : Nat := 0
  deriving DecidableEq, Repr

/-- A ranking branch entry (R160). -/
structure DefEntry where
  vSlot : Nat
  iSlot : Nat
  factor : Word
  areaFrom : Nat
  areaTo : Nat
  islBranch : Nat
  deriving DecidableEq, Repr

/-- A second-order section: its two delayed values. -/
abbrev Delay := DWord × DWord

/-- Preprocessing state of one signal (R147, R158). -/
structure SigPre where
  zlast : DWord := 0
  /-- Unwrapped angle of DERIVE 0. -/
  unwrapped : DWord := 0
  hp : Delay := (0, 0)
  lp : Delay := (0, 0)
  notch1 : Delay := (0, 0)
  notch2 : Delay := (0, 0)
  ms : DWord := 0
  /-- Epochs still counted as missing after the signal became valid (R146). -/
  settle : Nat := 0
  /-- Input samples of the decimation filter, newest first, with whether each was received (R158). -/
  fir : List (DWord × Bool) := []
  phase : Nat := 0
  entry : Option SigEntry := none
  deriving DecidableEq, Repr

/-- One band's tracker (R149). Matrices are lists of rows; W and y are held by signal index. -/
structure BandSt where
  w : Tbl (List Word) := []
  p : List (List DWord) := []
  a : List (List DWord) := []
  q : List (List DWord) := []
  ee : DWord := 0
  y : Tbl Word := []
  pre : Tbl SigPre := []
  /-- Updates since the last reset, and whether the last one was skipped. -/
  updates : Nat := 0
  skipped : Bool := false
  resetDue : Bool := true
  /-- Epochs evaluated since reset. -/
  evals : Nat := 0
  /-- Next epoch to update with. -/
  next : Option Nat := none
  /-- An update was late, and the last epoch counted so (R166). -/
  lag : Bool := false
  lagEpoch : Option Nat := none
  deriving DecidableEq, Repr

/-- A contribution of a mode to a condition bit (R163). -/
structure Contrib where
  on : Bool := false
  count : Nat := 0
  deriving DecidableEq, Repr

/-- An occupied slot (R154 to R157). State: 0 CANDIDATE, 1 TRACKED, 2 MISSING, 3 RETIRED. -/
structure ModeSlot where
  id : Nat
  state : Nat
  f : DWord
  zeta : DWord
  v : List (DWord × DWord)
  eq : DWord
  age : Nat
  miss : Nat
  zbar : DWord
  zvar : DWord
  snr : DWord
  amp : List DWord
  /-- Signal, relative magnitude and relative angle of the strongest signals. -/
  shape : List (Nat × Nat × Nat)
  suspect : Bool
  predicted : Bool
  matched : Bool
  /-- DAMP_WARN, DAMP_ALARM and AMP_ALARM of each threshold set. -/
  contribs : List Contrib
  deriving DecidableEq, Repr

/-- A ranked position (R161, R162): the mode it holds, since which epoch, and by branch its slope, previous values and
resonators. -/
structure RankSt where
  mode : Option Nat := none
  since : Nat := 0
  slope : Tbl DWord := []
  prev : Tbl (DWord × DWord) := []
  theta : Tbl DWord := []
  bands : Tbl (List Delay) := []
  deriving DecidableEq, Repr

structure OscSt where
  sigs : Tbl (Held SigEntry) := []
  /-- The ranking branches in use, and those that the next update takes (R160). -/
  defs : Tbl DefEntry := []
  defsNext : Tbl DefEntry := []
  em : BandSt := {}
  sso : BandSt := {}
  slots : List (Option ModeSlot) := List.replicate 64 none
  nextId : Nat := 0
  ranks : List RankSt := [{}, {}, {}, {}]
  /-- Last mode report and its ranking report. -/
  report : Option (Bytes × Bytes) := none
  /-- The next report is the first after a reset. -/
  resetNote : Bool := false
  /-- The update whose ranking is still to be formed: its epoch, N_USED, whether it asks for a report, and the retired slots. -/
  ranking : Option (Nat × Nat × Bool × List (Nat × ModeSlot)) := none
  /-- N_USED of the last electromechanical update. -/
  used : Nat := 0
  /-- Epoch of the update whose condition word OSC_COND holds (R165). -/
  wordEpoch : Option Nat := none
  /-- An update has completed since reset. -/
  updated : Bool := false
  deriving DecidableEq, Repr

end Sys2Proof.Machine
end

