-- ==== Sys2Proof/Machine/Outputs.lean ====
section
/-! DEFINITION. What one command sends out of the device. -/

namespace Sys2Proof.Machine

/-- An output of one command. State keeps the outputs of the last command only. -/
inductive Out where
  /-- Data written to host memory (R468). -/
  | hostWrite (addr : Nat) (bytes : Bytes)
  /-- The completion of descriptor `k` of a COMMAND, HOST_INGEST or KEY_UPDATE ring (R456, R461). -/
  | completion (ring k status result phase : Nat)
  /-- The completion of buffer descriptor `k` of a device-to-host ring (R462); `flags` are CONT_IN, CONT_OUT, LOSS. -/
  | bufDone (ring k used info offset status flags phase : Nat)
  /-- An MSI-X message (R471). -/
  | msix (vector : Nat) (addr data : Nat)
  /-- The data a BAR read returns. -/
  | readData (value : DWord)
  /-- A fabric message sent to a device, with its virtual channel and MSG_SEQ; a resend repeats them (R422, R423). -/
  | fabMsg (dst vc seq : Nat) (msg : FabMsg)
  /-- A message sent on one link, with the device it comes from: HELLO, LSA (R427, R428). -/
  | linkMsg (link src : Nat) (msg : FabMsg)
  /-- The bytes of a link packet put on a link, and whether it is a replay (R418, R419). -/
  | linkPkt (link : Nat) (bytes : Bytes) (replay : Bool)
  /-- A frame whose transmission starts on an Ethernet port; `mac` is the tag of IEC 62351-6, and `sectag` its MACsec
  protection. -/
  | ethTx (port : Nat) (frame : TxFrame) (mac : Bytes) (sectag : Option SecTag)
  /-- A preempted frame continues on a port. -/
  | ethResume (port : Nat) (frame : TxFrame)
  /-- A frame whose transmission starts on a field segment. -/
  | fieldTx (seg : Nat) (data : Bytes)
  /-- A 32-bit jam on a field segment (R381). -/
  | fieldJam (seg : Nat)
  /-- An MDIO access: write, PHY address, register, data (R380). -/
  | mdio (write : Bool) (phy reg data : Nat)
  /-- A sample strobe on a front-end link, or the seven bytes of a downlink command (R213, R216). -/
  | feStrobe (link phase seq : Nat)
  | feCommand (link : Nat) (bytes : Bytes)
  /-- What a task of the management cores receives for an item that it offers (R333). -/
  | taskAnswer (origin tag status : Nat)
  deriving DecidableEq, Repr

/-- Relaxed Ordering of a request to host memory: set on buffer data and operand results, clear on every completion, which follows them
(R468); none for an output that is no such request. -/
def Out.relaxed : Out → Option Bool
  | .hostWrite _ _ => some true
  | .completion _ _ _ _ _ | .bufDone _ _ _ _ _ _ _ _ => some false
  | _ => none

end Sys2Proof.Machine
end

