-- ==== Sys2Proof/Machine/RegTable.lean ====
section
/-! DEFINITION. The register tables as data: for each register its first offset, the stride and the number of its
copies, and every field's bits, access code (R16) and range, and the reset words (R560). -/

namespace Sys2Proof.Machine

/-- Registers of the GLB region (R2, R561). -/
def regsGlb0 : List RegFam := [
  ⟨"GLB_ID", 0x000000, 0, 1, [⟨16, 16, .ro, .any⟩, ⟨8, 8, .ro, .any⟩, ⟨0, 8, .ro, .any⟩]⟩,
  ⟨"GLB_LOCK", 0x000004, 0, 1, [⟨0, 32, .wo, .any⟩]⟩,
  ⟨"GLB_STATUS", 0x000008, 0, 1, [⟨0, 1, .ro, .any⟩, ⟨1, 1, .rw1c, .any⟩, ⟨2, 1, .rw1c, .any⟩]⟩,
  ⟨"GLB_LOCK_SIG", 0x00000C, 0, 1, [⟨0, 32, .ro, .any⟩]⟩,
  ⟨"GLB_LOCK_VIOL", 0x000010, 0, 1, [⟨0, 32, .ro, .any⟩]⟩,
  ⟨"GLB_BAD_ACCESS", 0x000014, 0, 1, [⟨0, 32, .ro, .any⟩]⟩]

/-- Registers of the CLK region (R551). -/
def regsClk0 : List RegFam := [
  ⟨"CLK_STATUS", 0x010000, 0, 1, [⟨0, 1, .ro, .any⟩, ⟨1, 1, .ro, .any⟩, ⟨2, 1, .ro, .any⟩, ⟨3, 1, .ro, .any⟩, ⟨4, 1, .ro, .any⟩, ⟨5, 1, .rw1c, .any⟩]⟩,
  ⟨"CLK_XTALn", 0x010004, 4, 2, [⟨0, 16, .ro, .any⟩]⟩,
  ⟨"CLK_DIV", 0x01000C, 0, 1, [⟨0, 4, .rws, (.within 4 8)⟩, ⟨4, 4, .rws, (.within 8 12)⟩, ⟨8, 5, .rws, (.within 10 16)⟩]⟩,
  ⟨"CLK_GATE", 0x010010, 0, 1, [⟨0, 15, .rw, .any⟩]⟩,
  ⟨"CLK_GATE_STATUS", 0x010014, 0, 1, [⟨0, 15, .ro, .any⟩]⟩,
  ⟨"CLK_OUT", 0x010018, 0, 1, [⟨0, 2, .rw, .any⟩]⟩,
  ⟨"RST_STATUS", 0x010100, 0, 1, [⟨0, 2, .ro, .any⟩, ⟨2, 1, .ro, .any⟩, ⟨3, 1, .ro, .any⟩, ⟨4, 1, .ro, .any⟩, ⟨5, 1, .ro, .any⟩, ⟨8, 4, .ro, .any⟩, ⟨12, 6, .ro, .any⟩]⟩,
  ⟨"RST_START_MS", 0x010104, 0, 1, [⟨0, 16, .ro, .any⟩]⟩,
  ⟨"RST_WARM_COUNT", 0x010108, 0, 1, [⟨0, 32, .rws, .any⟩]⟩,
  ⟨"PWR_STATUS", 0x010200, 0, 1, [⟨0, 8, .ro, .any⟩, ⟨8, 1, .ro, .any⟩]⟩,
  ⟨"PWR_TEMP", 0x010204, 0, 1, [⟨0, 8, .ro, .any⟩, ⟨8, 3, .ro, .any⟩]⟩]

/-- Registers of the HIF region (R473). -/
def regsHif0 : List RegFam := [
  ⟨"HIF_CTRL", 0x020000, 0, 1, [⟨0, 6, .rw, .any⟩]⟩,
  ⟨"HIF_STATUS", 0x020004, 0, 1, [⟨0, 1, .ro, .any⟩, ⟨1, 4, .ro, .any⟩, ⟨5, 3, .ro, .any⟩, ⟨8, 1, .ro, .any⟩, ⟨9, 1, .ro, .any⟩, ⟨10, 1, .rw1c, .any⟩]⟩,
  ⟨"HIF_DB_BAD", 0x020008, 0, 1, [⟨0, 32, .ro, .any⟩]⟩,
  ⟨"HIF_DMA_ERR", 0x02000C, 0, 1, [⟨0, 32, .ro, .any⟩]⟩,
  ⟨"HIF_EVT_LOST", 0x020010, 0, 1, [⟨0, 32, .ro, .any⟩]⟩,
  ⟨"HIF_HOST_RESETS", 0x020014, 0, 1, [⟨0, 32, .ro, .any⟩]⟩,
  ⟨"HIF_SNAP_WHOLE", 0x020018, 0, 1, [⟨0, 32, .ro, .any⟩]⟩,
  ⟨"HIF_SNAP_LOST", 0x02001C, 0, 1, [⟨0, 32, .ro, .any⟩]⟩,
  ⟨"HIF_SNAP_CFG", 0x020020, 0, 1, [⟨0, 1, .rwl, .any⟩]⟩,
  ⟨"HIF_RINGn_BASE_LO", 0x021000, 32, 32, [⟨12, 20, .rw, .any⟩]⟩,
  ⟨"HIF_RINGn_BASE_HI", 0x021004, 32, 32, [⟨0, 32, .rw, .any⟩]⟩,
  ⟨"HIF_RINGn_CFG", 0x021008, 32, 32, [⟨0, 1, .rw, .any⟩, ⟨1, 4, .rw, .any⟩, ⟨5, 5, .rw, (.within 6 16)⟩, ⟨10, 6, .rw, .any⟩, ⟨16, 16, .rw, .any⟩]⟩,
  ⟨"HIF_RINGn_IRQ", 0x02100C, 32, 32, [⟨0, 8, .rw, (.within 1 255)⟩, ⟨8, 16, .rw, .any⟩]⟩,
  ⟨"HIF_RINGn_POSTED", 0x021010, 32, 32, [⟨0, 32, .ro, .any⟩]⟩,
  ⟨"HIF_RINGn_DONE", 0x021014, 32, 32, [⟨0, 32, .ro, .any⟩]⟩,
  ⟨"HIF_RINGn_STAT", 0x021018, 32, 32, [⟨0, 2, .ro, .any⟩, ⟨2, 1, .ro, .any⟩, ⟨8, 8, .ro, .any⟩]⟩]

/-- Registers of the ING region (R90). -/
def regsIng0 : List RegFam := [
  ⟨"ING_CTRL", 0x040000, 0, 1, [⟨0, 1, .rw, .any⟩, ⟨1, 1, .rw, .any⟩, ⟨2, 1, .rw, .any⟩, ⟨3, 1, .rw, .any⟩, ⟨4, 1, .rw, .any⟩]⟩,
  ⟨"ING_CFG", 0x040004, 0, 1, [⟨0, 8, .rwl, .any⟩, ⟨8, 4, .rwl, .any⟩, ⟨12, 1, .rwl, .any⟩, ⟨13, 1, .rwl, .any⟩]⟩,
  ⟨"ING_PORTS", 0x040008, 0, 1, [⟨0, 16, .rwl, .any⟩, ⟨16, 16, .rwl, .any⟩]⟩,
  ⟨"ING_STATUS", 0x04000C, 0, 1, [⟨0, 1, .ro, .any⟩, ⟨1, 1, .ro, .any⟩, ⟨16, 16, .ro, .any⟩]⟩,
  ⟨"ING_BUF_ALLOC", 0x040010, 0, 1, [⟨0, 16, .ro, .any⟩]⟩,
  ⟨"ING_FRAMES_LO", 0x040020, 0, 1, [⟨0, 32, .ro, .any⟩]⟩,
  ⟨"ING_FRAMES_HI", 0x040024, 0, 1, [⟨0, 32, .ro, .any⟩]⟩,
  ⟨"ING_UNMATCHED_LO", 0x040028, 0, 1, [⟨0, 32, .ro, .any⟩]⟩,
  ⟨"ING_UNMATCHED_HI", 0x04002C, 0, 1, [⟨0, 32, .ro, .any⟩]⟩,
  ⟨"ING_CHECK_ERR_LO", 0x040030, 0, 1, [⟨0, 32, .ro, .any⟩]⟩,
  ⟨"ING_CHECK_ERR_HI", 0x040034, 0, 1, [⟨0, 32, .ro, .any⟩]⟩,
  ⟨"ING_LOST_LO", 0x040038, 0, 1, [⟨0, 32, .ro, .any⟩]⟩,
  ⟨"ING_LOST_HI", 0x04003C, 0, 1, [⟨0, 32, .ro, .any⟩]⟩,
  ⟨"ING_FRAG_DROP", 0x040040, 0, 1, [⟨0, 32, .ro, .any⟩]⟩,
  ⟨"ING_OVERSIZE", 0x040044, 0, 1, [⟨0, 32, .ro, .any⟩]⟩,
  ⟨"ING_ECC_CORR", 0x040048, 0, 1, [⟨0, 32, .ro, .any⟩]⟩,
  ⟨"ING_ECC_UNCORR", 0x04004C, 0, 1, [⟨0, 32, .ro, .any⟩]⟩]

/-- Registers of the CRT region (R139). -/
def regsCrt0 : List RegFam := [
  ⟨"CRT_CFG", 0x060000, 0, 1, [⟨0, 8, .rwl, (.within 10 240)⟩, ⟨8, 10, .rwl, (.within 1 1000)⟩, ⟨18, 1, .rwl, .any⟩, ⟨19, 1, .rwl, .any⟩]⟩,
  ⟨"CRT_ALIGN", 0x060004, 0, 1, [⟨0, 10, .rwl, (.within 1 1000)⟩]⟩,
  ⟨"CRT_PRED", 0x060008, 0, 1, [⟨0, 8, .rwl, .any⟩]⟩,
  ⟨"CRT_AMEND", 0x06000C, 0, 1, [⟨0, 24, .rwl, .any⟩]⟩,
  ⟨"CRT_HIST", 0x060010, 0, 1, [⟨0, 16, .rwl, (.within 64 28672)⟩, ⟨16, 16, .rwl, (.within 16 4096)⟩]⟩,
  ⟨"CRT_STATUS", 0x060014, 0, 1, [⟨0, 1, .ro, .any⟩, ⟨1, 1, .ro, .any⟩, ⟨2, 1, .ro, .any⟩, ⟨3, 1, .rw1c, .any⟩, ⟨8, 8, .ro, .any⟩]⟩,
  ⟨"CRT_VIEW", 0x060018, 0, 1, [⟨0, 32, .ro, .any⟩]⟩,
  ⟨"CRT_LAST_CONF_LO", 0x060020, 0, 1, [⟨0, 32, .ro, .any⟩]⟩,
  ⟨"CRT_LAST_CONF_HI", 0x060024, 0, 1, [⟨0, 32, .ro, .any⟩]⟩,
  ⟨"CRT_SUM_SELn", 0x060040, 4, 16, [⟨0, 16, .rwl, .any⟩, ⟨16, 1, .rwl, .any⟩]⟩,
  ⟨"CRT_SEALED_LO", 0x060100, 0, 1, [⟨0, 32, .ro, .any⟩]⟩,
  ⟨"CRT_SEALED_HI", 0x060104, 0, 1, [⟨0, 32, .ro, .any⟩]⟩,
  ⟨"CRT_EARLY_LO", 0x060108, 0, 1, [⟨0, 32, .ro, .any⟩]⟩,
  ⟨"CRT_EARLY_HI", 0x06010C, 0, 1, [⟨0, 32, .ro, .any⟩]⟩,
  ⟨"CRT_FILLED_LO", 0x060110, 0, 1, [⟨0, 32, .ro, .any⟩]⟩,
  ⟨"CRT_FILLED_HI", 0x060114, 0, 1, [⟨0, 32, .ro, .any⟩]⟩,
  ⟨"CRT_AMENDS_LO", 0x060118, 0, 1, [⟨0, 32, .ro, .any⟩]⟩,
  ⟨"CRT_AMENDS_HI", 0x06011C, 0, 1, [⟨0, 32, .ro, .any⟩]⟩,
  ⟨"CRT_OFFGRID", 0x060120, 0, 1, [⟨0, 32, .ro, .any⟩]⟩,
  ⟨"CRT_RANGE_DROP", 0x060124, 0, 1, [⟨0, 32, .ro, .any⟩]⟩]

/-- Registers of the CRT region (R139). -/
def regsCrt1 : List RegFam := [
  ⟨"CRT_TOO_OLD", 0x060128, 0, 1, [⟨0, 32, .ro, .any⟩]⟩,
  ⟨"CRT_DISAGREE", 0x06012C, 0, 1, [⟨0, 32, .ro, .any⟩]⟩,
  ⟨"CRT_VIEW_CHG", 0x060130, 0, 1, [⟨0, 32, .ro, .any⟩]⟩,
  ⟨"CRT_CONF_SLOW", 0x060134, 0, 1, [⟨0, 32, .ro, .any⟩]⟩,
  ⟨"CRT_ECC_CORR", 0x060138, 0, 1, [⟨0, 32, .ro, .any⟩]⟩,
  ⟨"CRT_ECC_UNCORR", 0x06013C, 0, 1, [⟨0, 32, .ro, .any⟩]⟩]

/-- Registers of the OSC region (R171). -/
def regsOsc0 : List RegFam := [
  ⟨"OSC_CTRL", 0x080000, 0, 1, [⟨0, 1, .rw, .any⟩, ⟨1, 1, .rw, .any⟩, ⟨2, 1, .rw, .any⟩]⟩,
  ⟨"OSC_CFG", 0x080004, 0, 1, [⟨0, 8, .rwl, (.evenIn 2 128)⟩, ⟨8, 5, .rwl, (.within 0 16)⟩, ⟨16, 8, .rwl, .any⟩, ⟨24, 1, .rwl, .any⟩]⟩,
  ⟨"OSC_TRK", 0x080008, 0, 1, [⟨0, 12, .rwl, (.within 10 1200)⟩, ⟨12, 7, .rwl, (.within 1 100)⟩]⟩,
  ⟨"OSC_BAND", 0x08000C, 0, 1, [⟨0, 16, .rwl, (.within 1 399)⟩, ⟨16, 16, .rwl, (.within 2 400)⟩]⟩,
  ⟨"OSC_ASSOC", 0x080010, 0, 1, [⟨0, 8, .rwl, (.within 1 255)⟩, ⟨8, 8, .rwl, (.within 1 255)⟩, ⟨16, 8, .rwl, (.within 1 255)⟩, ⟨24, 8, .rwl, (.within 1 255)⟩]⟩,
  ⟨"OSC_CONF", 0x080014, 0, 1, [⟨0, 10, .rwl, (.within 1 1000)⟩, ⟨10, 16, .rwl, (.within 1 65535)⟩, ⟨26, 6, .rwl, .any⟩]⟩,
  ⟨"OSC_SSO", 0x080018, 0, 1, [⟨0, 6, .rwl, (.within 5 44)⟩, ⟨8, 6, .rwl, (.within 6 45)⟩, ⟨16, 6, .rwl, (.evenIn 2 32)⟩]⟩,
  ⟨"OSC_DEF", 0x08001C, 0, 1, [⟨0, 6, .rwl, (.within 5 60)⟩, ⟨8, 3, .rwl, (.within 0 4)⟩, ⟨16, 6, .rwl, (.within 10 50)⟩]⟩,
  ⟨"OSC_REF", 0x080020, 0, 1, [⟨0, 16, .rwl, .any⟩]⟩,
  ⟨"OSC_STATUS", 0x080024, 0, 1, [⟨0, 1, .ro, .any⟩, ⟨1, 1, .ro, .any⟩, ⟨2, 1, .ro, .any⟩, ⟨3, 1, .ro, .any⟩, ⟨4, 1, .rw1c, .any⟩, ⟨8, 7, .ro, .any⟩, ⟨16, 13, .ro, .any⟩]⟩,
  ⟨"OSC_COND", 0x080028, 0, 1, [⟨0, 32, .ro, .any⟩]⟩,
  ⟨"OSC_UPDATES_LO", 0x080030, 0, 1, [⟨0, 32, .ro, .any⟩]⟩,
  ⟨"OSC_UPDATES_HI", 0x080034, 0, 1, [⟨0, 32, .ro, .any⟩]⟩,
  ⟨"OSC_SKIPPED", 0x080038, 0, 1, [⟨0, 32, .ro, .any⟩]⟩,
  ⟨"OSC_OVERRUN", 0x08003C, 0, 1, [⟨0, 32, .ro, .any⟩]⟩,
  ⟨"OSC_RESETS", 0x080040, 0, 1, [⟨0, 32, .ro, .any⟩]⟩,
  ⟨"OSC_NO_SLOT", 0x080044, 0, 1, [⟨0, 32, .ro, .any⟩]⟩,
  ⟨"OSC_THRk_F", 0x080100, 16, 8, [⟨0, 16, .rwl, (.within 0 4500)⟩, ⟨16, 16, .rwl, (.within 0 4500)⟩]⟩,
  ⟨"OSC_THRk_D", 0x080104, 16, 8, [⟨0, 10, .rwl, (.within 0 1000)⟩, ⟨10, 10, .rwl, (.within 0 1000)⟩, ⟨20, 6, .rwl, .any⟩]⟩,
  ⟨"OSC_THRk_A", 0x080108, 16, 8, [⟨0, 32, .rwl, .any⟩]⟩]

/-- Registers of the OSC region (R171). -/
def regsOsc1 : List RegFam := [
  ⟨"OSC_THRk_P", 0x08010C, 16, 8, [⟨0, 12, .rwl, (.within 1 4095)⟩, ⟨12, 2, .rwl, .any⟩, ⟨14, 1, .rwl, .any⟩]⟩]

/-- Registers of the ISL region (R208). -/
def regsIsl0 : List RegFam := [
  ⟨"ISL_CTRL", 0x082000, 0, 1, [⟨0, 1, .rw, .any⟩, ⟨1, 1, .rw, .any⟩]⟩,
  ⟨"ISL_CFG", 0x082004, 0, 1, [⟨0, 8, .rwl, (.within 1 255)⟩, ⟨8, 8, .rwl, (.within 1 255)⟩, ⟨16, 7, .rwl, (.within 1 100)⟩, ⟨23, 1, .rwl, .any⟩]⟩,
  ⟨"ISL_COHk", 0x082008, 4, 4, [⟨0, 16, .rwl, (.within 1 65535)⟩, ⟨16, 16, .rwl, (.within 1 65535)⟩]⟩,
  ⟨"ISL_GRID", 0x082018, 0, 1, [⟨0, 7, .rwl, (.within 1 64)⟩]⟩,
  ⟨"ISL_STATUS", 0x08201C, 0, 1, [⟨0, 1, .ro, .any⟩, ⟨1, 1, .ro, .any⟩, ⟨2, 1, .ro, .any⟩, ⟨3, 1, .ro, .any⟩, ⟨4, 1, .rw1c, .any⟩, ⟨16, 16, .ro, .any⟩]⟩,
  ⟨"ISL_COUNT", 0x082020, 0, 1, [⟨0, 16, .ro, .any⟩, ⟨16, 16, .ro, .any⟩]⟩,
  ⟨"ISL_EVALS_LO", 0x082028, 0, 1, [⟨0, 32, .ro, .any⟩]⟩,
  ⟨"ISL_EVALS_HI", 0x08202C, 0, 1, [⟨0, 32, .ro, .any⟩]⟩,
  ⟨"ISL_DECLARES", 0x082030, 0, 1, [⟨0, 32, .ro, .any⟩]⟩,
  ⟨"ISL_MERGES", 0x082034, 0, 1, [⟨0, 32, .ro, .any⟩]⟩,
  ⟨"ISL_INVALID", 0x082038, 0, 1, [⟨0, 32, .ro, .any⟩]⟩]

/-- Registers of the FUM region (R209). -/
def regsFum0 : List RegFam := [
  ⟨"FUM_CTRL", 0x084000, 0, 1, [⟨0, 1, .rw, .any⟩]⟩,
  ⟨"FUM_CFG", 0x084004, 0, 1, [⟨0, 1, .rwl, .any⟩]⟩,
  ⟨"FUM_STATUS", 0x084008, 0, 1, [⟨0, 1, .ro, .any⟩, ⟨1, 1, .ro, .any⟩, ⟨2, 1, .ro, .any⟩, ⟨3, 1, .ro, .any⟩, ⟨4, 3, .ro, .any⟩, ⟨7, 1, .rw1c, .any⟩, ⟨8, 8, .ro, .any⟩]⟩,
  ⟨"FUM_CYC_FLAGS", 0x084010, 0, 1, [⟨0, 32, .ro, .any⟩]⟩,
  ⟨"FUM_PINp", 0x084020, 4, 8, [⟨0, 1, .rwl, .any⟩, ⟨1, 1, .rwl, .any⟩, ⟨2, 1, .rwl, .any⟩, ⟨8, 8, .rwl, .any⟩]⟩,
  ⟨"FUM_GRIDQj", 0x084040, 4, 8, [⟨0, 32, .rwl, .quorums⟩]⟩,
  ⟨"FUM_DECISIONS_LO", 0x084080, 0, 1, [⟨0, 32, .ro, .any⟩]⟩,
  ⟨"FUM_DECISIONS_HI", 0x084084, 0, 1, [⟨0, 32, .ro, .any⟩]⟩,
  ⟨"FUM_DISAGREE", 0x084088, 0, 1, [⟨0, 32, .ro, .any⟩]⟩,
  ⟨"FUM_RING_LOST", 0x08408C, 0, 1, [⟨0, 32, .ro, .any⟩]⟩,
  ⟨"FUM_EXP_SENT", 0x084090, 0, 1, [⟨0, 32, .ro, .any⟩]⟩,
  ⟨"FUM_EXP_DROP", 0x084094, 0, 1, [⟨0, 32, .ro, .any⟩]⟩,
  ⟨"FUM_CHATTER", 0x084098, 0, 1, [⟨0, 32, .ro, .any⟩]⟩,
  ⟨"FUM_STUCK", 0x08409C, 0, 1, [⟨0, 32, .ro, .any⟩]⟩,
  ⟨"FUM_CONDi", 0x084100, 4, 8, [⟨0, 32, .ro, .any⟩]⟩]

/-- Registers of the ACQ region (R244). -/
def regsAcq0 : List RegFam := [
  ⟨"ACQ_CTRL", 0x0A0000, 0, 1, [⟨0, 4, .rw, .any⟩]⟩,
  ⟨"ACQ_STATUS", 0x0A0008, 0, 1, [⟨0, 4, .ro, .any⟩, ⟨4, 4, .ro, .any⟩, ⟨8, 4, .ro, .any⟩, ⟨12, 1, .rw1c, .any⟩]⟩,
  ⟨"ACQ_FEm_REPAIR", 0x0A0020, 16, 4, [⟨0, 32, .ro, .any⟩]⟩,
  ⟨"ACQ_FEm_DOWN", 0x0A0024, 16, 4, [⟨0, 32, .ro, .any⟩]⟩,
  ⟨"ACQ_FEm_OVR", 0x0A0028, 16, 4, [⟨0, 32, .ro, .any⟩]⟩,
  ⟨"ACQ_FEm_CMDFAIL", 0x0A002C, 16, 4, [⟨0, 32, .ro, .any⟩]⟩,
  ⟨"ACQ_TRIPLEk", 0x0A0100, 4, 16, [⟨0, 6, .rwl, (.within 0 47)⟩, ⟨8, 6, .rwl, (.within 0 47)⟩, ⟨16, 6, .rwl, (.within 0 47)⟩, ⟨31, 1, .rwl, .any⟩]⟩]

/-- Registers of the FLT region (R244). -/
def regsFlt0 : List RegFam := [
  ⟨"FLT_CFG", 0x0A1000, 0, 1, [⟨0, 8, .rwl, (.within 1 100)⟩, ⟨8, 8, .rwl, (.within 1 255)⟩]⟩,
  ⟨"FLT_STATUS", 0x0A1004, 0, 1, [⟨0, 1, .rw1c, .any⟩]⟩,
  ⟨"FLT_CHc", 0x0A1100, 4, 48, [⟨0, 2, .rwl, .any⟩, ⟨2, 1, .rwl, .any⟩, ⟨3, 3, .rwl, (.within 0 5)⟩]⟩,
  ⟨"FLT_CHSTATc", 0x0A1200, 4, 48, [⟨0, 1, .ro, .any⟩, ⟨1, 1, .ro, .any⟩, ⟨2, 1, .ro, .any⟩]⟩]

/-- Registers of the CAL region (R244). -/
def regsCal0 : List RegFam := [
  ⟨"CAL_CTRL", 0x0A2000, 0, 1, [⟨0, 4, .rw, .any⟩]⟩,
  ⟨"CAL_LIM", 0x0A2004, 0, 1, [⟨0, 8, .rwl, (.within 1 255)⟩, ⟨8, 8, .rwl, (.within 1 255)⟩, ⟨16, 8, .rwl, (.within 1 255)⟩, ⟨24, 8, .rwl, (.within 1 255)⟩]⟩,
  ⟨"CAL_STATm", 0x0A2010, 4, 4, [⟨0, 4, .ro, .any⟩, ⟨4, 4, .ro, .any⟩, ⟨8, 1, .ro, .any⟩, ⟨16, 16, .ro, .any⟩]⟩,
  ⟨"CAL_FAULTm", 0x0A2020, 4, 4, [⟨0, 13, .ro, .any⟩]⟩,
  ⟨"CAL_TURNS_LO", 0x0A2040, 0, 1, [⟨0, 32, .ro, .any⟩]⟩,
  ⟨"CAL_TURNS_HI", 0x0A2044, 0, 1, [⟨0, 32, .ro, .any⟩]⟩,
  ⟨"CAL_ABANDON", 0x0A2048, 0, 1, [⟨0, 32, .ro, .any⟩]⟩,
  ⟨"CAL_REFUSED", 0x0A204C, 0, 1, [⟨0, 32, .ro, .any⟩]⟩,
  ⟨"CAL_SMALL", 0x0A2050, 0, 1, [⟨0, 32, .ro, .any⟩]⟩]

/-- Registers of the GEY region (R271). -/
def regsGey0 : List RegFam := [
  ⟨"GEY_CTRL", 0x0B0000, 0, 1, [⟨0, 1, .rw, .any⟩, ⟨1, 1, .rw, .any⟩]⟩,
  ⟨"GEY_CFG", 0x0B0004, 0, 1, [⟨0, 16, .rwl, (.within 16 8192)⟩, ⟨16, 8, .rwl, (.within 1 255)⟩]⟩,
  ⟨"GEY_STATUS", 0x0B0008, 0, 1, [⟨0, 1, .ro, .any⟩, ⟨1, 1, .ro, .any⟩, ⟨2, 1, .ro, .any⟩, ⟨3, 1, .rw1c, .any⟩, ⟨4, 1, .ro, .any⟩, ⟨16, 7, .ro, .any⟩]⟩,
  ⟨"GEY_LC_LO", 0x0B0010, 0, 1, [⟨0, 32, .ro, .any⟩]⟩,
  ⟨"GEY_LC_HI", 0x0B0014, 0, 1, [⟨0, 32, .ro, .any⟩]⟩,
  ⟨"GEY_CHAT_LO", 0x0B0018, 0, 1, [⟨0, 32, .ro, .any⟩]⟩,
  ⟨"GEY_CHAT_HI", 0x0B001C, 0, 1, [⟨0, 32, .ro, .any⟩]⟩,
  ⟨"GEY_RECORDS_LO", 0x0B0020, 0, 1, [⟨0, 32, .ro, .any⟩]⟩,
  ⟨"GEY_RECORDS_HI", 0x0B0024, 0, 1, [⟨0, 32, .ro, .any⟩]⟩,
  ⟨"GEY_MARKS_LO", 0x0B0028, 0, 1, [⟨0, 32, .ro, .any⟩]⟩,
  ⟨"GEY_MARKS_HI", 0x0B002C, 0, 1, [⟨0, 32, .ro, .any⟩]⟩,
  ⟨"GEY_DROP_BLOCKS", 0x0B0030, 0, 1, [⟨0, 32, .ro, .any⟩]⟩,
  ⟨"GEY_MARK_LOST", 0x0B0034, 0, 1, [⟨0, 32, .ro, .any⟩]⟩,
  ⟨"GEY_MISSED", 0x0B0038, 0, 1, [⟨0, 32, .ro, .any⟩]⟩,
  ⟨"GEY_CHATTER", 0x0B003C, 0, 1, [⟨0, 32, .ro, .any⟩]⟩,
  ⟨"GEY_STUCK", 0x0B0040, 0, 1, [⟨0, 32, .ro, .any⟩]⟩]

/-- Registers of the NRG region (R290). -/
def regsNrg0 : List RegFam := [
  ⟨"NRG_CTRL", 0x0B8000, 0, 1, [⟨0, 1, .rw, .any⟩]⟩,
  ⟨"NRG_CFG", 0x0B8004, 0, 1, [⟨0, 8, .rwl, (.within 1 250)⟩, ⟨8, 6, .rwl, (.within 1 60)⟩, ⟨14, 1, .rwl, .any⟩]⟩,
  ⟨"NRG_STATUS", 0x0B8008, 0, 1, [⟨0, 1, .ro, .any⟩, ⟨1, 1, .ro, .any⟩, ⟨2, 1, .rw1c, .any⟩, ⟨3, 1, .rw1c, .any⟩, ⟨16, 16, .ro, .any⟩]⟩,
  ⟨"NRG_INTERVALS", 0x0B800C, 0, 1, [⟨0, 32, .ro, .any⟩]⟩,
  ⟨"NRG_SAVES_LO", 0x0B8010, 0, 1, [⟨0, 32, .ro, .any⟩]⟩,
  ⟨"NRG_SAVES_HI", 0x0B8014, 0, 1, [⟨0, 32, .ro, .any⟩]⟩,
  ⟨"NRG_FINAL_SAVES", 0x0B8018, 0, 1, [⟨0, 32, .ro, .any⟩]⟩,
  ⟨"NRG_PULSEp_CNT", 0x0B8020, 8, 4, [⟨0, 32, .ro, .any⟩]⟩,
  ⟨"NRG_PULSEp_LATE", 0x0B8024, 8, 4, [⟨0, 32, .ro, .any⟩]⟩,
  ⟨"NRG_PTn_STAT", 0x0B8040, 4, 16, [⟨0, 1, .ro, .any⟩, ⟨1, 1, .ro, .any⟩, ⟨2, 1, .ro, .any⟩, ⟨3, 1, .ro, .any⟩, ⟨4, 1, .ro, .any⟩, ⟨5, 1, .ro, .any⟩]⟩]

/-- Registers of the CYC region (R323). -/
def regsCyc0 : List RegFam := [
  ⟨"CYC_CFG", 0x0C0000, 0, 1, [⟨0, 10, .rwl, .any⟩, ⟨10, 1, .rwl, .any⟩, ⟨12, 7, .rwl, (.within 1 100)⟩, ⟨20, 4, .rwl, (.within 1 15)⟩]⟩,
  ⟨"CYC_STATUS", 0x0C0004, 0, 1, [⟨0, 3, .ro, .any⟩, ⟨3, 1, .ro, .any⟩, ⟨4, 2, .ro, .any⟩, ⟨6, 1, .rw1c, .any⟩, ⟨7, 1, .ro, .any⟩, ⟨8, 1, .rw1c, .any⟩, ⟨9, 1, .ro, .any⟩]⟩,
  ⟨"CYC_PROG_ID_LO", 0x0C0008, 0, 1, [⟨0, 32, .ro, .any⟩]⟩,
  ⟨"CYC_PROG_ID_HI", 0x0C000C, 0, 1, [⟨0, 32, .ro, .any⟩]⟩,
  ⟨"CYC_CYCLES_LO", 0x0C0010, 0, 1, [⟨0, 32, .ro, .any⟩]⟩,
  ⟨"CYC_CYCLES_HI", 0x0C0014, 0, 1, [⟨0, 32, .ro, .any⟩]⟩,
  ⟨"CYC_EXEC", 0x0C0018, 0, 1, [⟨0, 16, .ro, .any⟩, ⟨16, 16, .ro, .any⟩]⟩,
  ⟨"CYC_OVERRUN", 0x0C001C, 0, 1, [⟨0, 32, .ro, .any⟩]⟩,
  ⟨"CYC_LOCKSTEP", 0x0C0020, 0, 1, [⟨0, 32, .ro, .any⟩]⟩,
  ⟨"CYC_EXCHANGES", 0x0C0024, 0, 1, [⟨0, 32, .ro, .any⟩]⟩,
  ⟨"CYC_RET_SAVES_LO", 0x0C0028, 0, 1, [⟨0, 32, .ro, .any⟩]⟩,
  ⟨"CYC_RET_SAVES_HI", 0x0C002C, 0, 1, [⟨0, 32, .ro, .any⟩]⟩,
  ⟨"CYC_RET_FAIL", 0x0C0030, 0, 1, [⟨0, 32, .ro, .any⟩]⟩]

/-- Registers of the RIO region (R323). -/
def regsRio0 : List RegFam := [
  ⟨"RIO_CFG", 0x0C1000, 0, 1, [⟨0, 16, .rwl, .any⟩]⟩,
  ⟨"RIO_CTRL", 0x0C1004, 0, 1, [⟨0, 2, .rw, .any⟩]⟩,
  ⟨"RIO_STATUS", 0x0C1008, 0, 1, [⟨0, 1, .rw1c, .any⟩]⟩,
  ⟨"RIO_ONLINE", 0x0C100C, 0, 1, [⟨0, 32, .ro, .any⟩]⟩,
  ⟨"RIO_FAILSAFE", 0x0C1010, 0, 1, [⟨0, 32, .ro, .any⟩]⟩,
  ⟨"RIO_OUT_LATE", 0x0C1014, 0, 1, [⟨0, 32, .ro, .any⟩]⟩,
  ⟨"RIO_REPLY_MISS", 0x0C1018, 0, 1, [⟨0, 32, .ro, .any⟩]⟩,
  ⟨"RIO_REPLY_BAD", 0x0C101C, 0, 1, [⟨0, 32, .ro, .any⟩]⟩,
  ⟨"RIO_CHATTER", 0x0C1020, 0, 1, [⟨0, 32, .ro, .any⟩]⟩,
  ⟨"RIO_STUCK", 0x0C1024, 0, 1, [⟨0, 32, .ro, .any⟩]⟩]

/-- Registers of the SCH region (R351). -/
def regsSch0 : List RegFam := [
  ⟨"SCH_CFG", 0x0D0000, 0, 1, [⟨0, 1, .rwl, .any⟩]⟩,
  ⟨"SCH_STATUS", 0x0D0004, 0, 1, [⟨0, 11, .ro, .any⟩, ⟨11, 1, .rw1c, .any⟩, ⟨16, 10, .ro, .any⟩]⟩,
  ⟨"SCH_MC_LOAD", 0x0D0008, 0, 1, [⟨0, 7, .ro, .any⟩, ⟨7, 1, .ro, .any⟩, ⟨8, 7, .rwl, (.within 51 99)⟩, ⟨16, 7, .rwl, (.within 50 98)⟩]⟩,
  ⟨"SCH_TRACE_CFG", 0x0D000C, 0, 1, [⟨0, 1, .rw, .any⟩, ⟨1, 4, .rw, .any⟩, ⟨5, 3, .rw, .any⟩, ⟨8, 4, .rw, .any⟩, ⟨16, 8, .rwl, (.within 1 255)⟩]⟩,
  ⟨"SCH_DISPATCH_LO", 0x0D0010, 0, 1, [⟨0, 32, .ro, .any⟩]⟩,
  ⟨"SCH_DISPATCH_HI", 0x0D0014, 0, 1, [⟨0, 32, .ro, .any⟩]⟩,
  ⟨"SCH_PREEMPT_LO", 0x0D0018, 0, 1, [⟨0, 32, .ro, .any⟩]⟩,
  ⟨"SCH_PREEMPT_HI", 0x0D001C, 0, 1, [⟨0, 32, .ro, .any⟩]⟩,
  ⟨"SCH_REFUSED", 0x0D0020, 0, 1, [⟨0, 32, .ro, .any⟩]⟩,
  ⟨"SCH_BUDGET", 0x0D0024, 0, 1, [⟨0, 32, .ro, .any⟩]⟩,
  ⟨"SCH_TRACE_LOST", 0x0D0028, 0, 1, [⟨0, 32, .ro, .any⟩]⟩,
  ⟨"SCH_MC_DEFER_LONG", 0x0D002C, 0, 1, [⟨0, 32, .ro, .any⟩]⟩]

/-- Registers of the ENG region (R351). -/
def regsEng0 : List RegFam := [
  ⟨"ENG_CFG", 0x0D1000, 0, 1, [⟨0, 10, .rwl, .any⟩]⟩,
  ⟨"ENG_STATUS", 0x0D1004, 0, 1, [⟨0, 16, .ro, .any⟩, ⟨16, 4, .ro, .any⟩, ⟨20, 4, .ro, .any⟩, ⟨24, 1, .ro, .any⟩, ⟨25, 1, .ro, .any⟩, ⟨26, 2, .ro, .any⟩, ⟨28, 1, .ro, .any⟩]⟩,
  ⟨"ENG_BANK", 0x0D1008, 0, 1, [⟨0, 3, .ro, .any⟩]⟩,
  ⟨"ENG_RETIRED", 0x0D100C, 0, 1, [⟨0, 20, .rws, .any⟩]⟩,
  ⟨"ENG_EXC", 0x0D1010, 0, 1, [⟨0, 32, .ro, .any⟩]⟩,
  ⟨"ENG_RETIRES", 0x0D1014, 0, 1, [⟨0, 32, .ro, .any⟩]⟩,
  ⟨"ENG_SWITCHES", 0x0D1018, 0, 1, [⟨0, 32, .ro, .any⟩]⟩]

/-- Registers of the NET region (R385, R386). -/
def regsNet0 : List RegFam := [
  ⟨"NET_CFG", 0x0E0000, 0, 1, [⟨0, 1, .rwl, .any⟩]⟩,
  ⟨"NET_STATUS", 0x0E0004, 0, 1, [⟨0, 1, .rw1c, .any⟩]⟩,
  ⟨"NET_MDIO", 0x0E0010, 0, 1, [⟨0, 16, .rw, .any⟩, ⟨16, 5, .rw, .any⟩, ⟨21, 5, .rw, .any⟩, ⟨26, 1, .rw, .any⟩, ⟨30, 1, .wo, .any⟩, ⟨31, 1, .ro, .any⟩]⟩,
  ⟨"NET_Pp_CFG", 0x0E0100, 64, 4, [⟨0, 1, .rw, .any⟩, ⟨1, 2, .rwl, .any⟩, ⟨3, 1, .rwl, .any⟩, ⟨4, 2, .rwl, (.within 0 2)⟩, ⟨6, 1, .rwl, .any⟩, ⟨7, 1, .rwl, .any⟩, ⟨8, 2, .rwl, .any⟩, ⟨10, 1, .rwl, .any⟩, ⟨11, 1, .rwl, .any⟩, ⟨12, 1, .rwl, .any⟩, ⟨13, 1, .rwl, .any⟩]⟩,
  ⟨"NET_Pp_FRAME", 0x0E0104, 64, 4, [⟨0, 14, .rwl, (.within 1518 9022)⟩]⟩,
  ⟨"NET_Pp_MAC_LO", 0x0E0108, 64, 4, [⟨0, 32, .rwl, .any⟩]⟩,
  ⟨"NET_Pp_MAC_HI", 0x0E010C, 64, 4, [⟨0, 16, .rwl, .any⟩]⟩,
  ⟨"NET_Pp_STATUS", 0x0E0110, 64, 4, [⟨0, 1, .ro, .any⟩, ⟨1, 1, .ro, .any⟩, ⟨2, 2, .ro, .any⟩, ⟨4, 1, .ro, .any⟩, ⟨5, 1, .ro, .any⟩, ⟨6, 1, .ro, .any⟩, ⟨7, 1, .ro, .any⟩, ⟨8, 1, .ro, .any⟩, ⟨9, 1, .ro, .any⟩, ⟨10, 1, .ro, .any⟩, ⟨11, 1, .ro, .any⟩, ⟨12, 1, .ro, .any⟩, ⟨13, 1, .ro, .any⟩, ⟨16, 8, .ro, .any⟩]⟩,
  ⟨"NET_FLD_CFG", 0x0E0200, 0, 1, [⟨0, 2, .rw, .any⟩]⟩,
  ⟨"NET_FLDn_MAC_LO", 0x0E0208, 8, 2, [⟨0, 32, .rwl, .any⟩]⟩,
  ⟨"NET_FLDn_MAC_HI", 0x0E020C, 8, 2, [⟨0, 16, .rwl, .any⟩]⟩,
  ⟨"NET_Pp_RX_FRAMES_LO", 0x0E1000, 256, 4, [⟨0, 32, .ro, .any⟩]⟩,
  ⟨"NET_Pp_RX_FRAMES_HI", 0x0E1004, 256, 4, [⟨0, 32, .ro, .any⟩]⟩,
  ⟨"NET_Pp_RX_BYTES_LO", 0x0E1008, 256, 4, [⟨0, 32, .ro, .any⟩]⟩,
  ⟨"NET_Pp_RX_BYTES_HI", 0x0E100C, 256, 4, [⟨0, 32, .ro, .any⟩]⟩,
  ⟨"NET_Pp_TX_FRAMES_LO", 0x0E1010, 256, 4, [⟨0, 32, .ro, .any⟩]⟩,
  ⟨"NET_Pp_TX_FRAMES_HI", 0x0E1014, 256, 4, [⟨0, 32, .ro, .any⟩]⟩,
  ⟨"NET_Pp_TX_BYTES_LO", 0x0E1018, 256, 4, [⟨0, 32, .ro, .any⟩]⟩,
  ⟨"NET_Pp_TX_BYTES_HI", 0x0E101C, 256, 4, [⟨0, 32, .ro, .any⟩]⟩,
  ⟨"NET_Pp_RX_FCS_ERR", 0x0E1020, 256, 4, [⟨0, 32, .ro, .any⟩]⟩]

/-- Registers of the NET region (R386). -/
def regsNet1 : List RegFam := [
  ⟨"NET_Pp_RX_SIZE_ERR", 0x0E1024, 256, 4, [⟨0, 32, .ro, .any⟩]⟩,
  ⟨"NET_Pp_RX_PCS_ERR", 0x0E1028, 256, 4, [⟨0, 32, .ro, .any⟩]⟩,
  ⟨"NET_Pp_RX_FILT_DROP", 0x0E102C, 256, 4, [⟨0, 32, .ro, .any⟩]⟩,
  ⟨"NET_Pp_RX_CSUM_ERR", 0x0E1030, 256, 4, [⟨0, 32, .ro, .any⟩]⟩,
  ⟨"NET_Pp_RX_ING_OFF", 0x0E1034, 256, 4, [⟨0, 32, .ro, .any⟩]⟩,
  ⟨"NET_Pp_RX_UNCLAIMED", 0x0E1038, 256, 4, [⟨0, 32, .ro, .any⟩]⟩,
  ⟨"NET_Pp_RX_SMD_ERR", 0x0E103C, 256, 4, [⟨0, 32, .ro, .any⟩]⟩,
  ⟨"NET_Pp_RX_MACSEC_ERR", 0x0E1040, 256, 4, [⟨0, 32, .ro, .any⟩]⟩,
  ⟨"NET_Pp_RX_PAUSE", 0x0E1044, 256, 4, [⟨0, 32, .ro, .any⟩]⟩,
  ⟨"NET_Pp_TX_EXPRESS", 0x0E1048, 256, 4, [⟨0, 32, .ro, .any⟩]⟩,
  ⟨"NET_Pp_TX_PREEMPT", 0x0E104C, 256, 4, [⟨0, 32, .ro, .any⟩]⟩,
  ⟨"NET_Pp_TX_DROP", 0x0E1050, 256, 4, [⟨0, 32, .ro, .any⟩]⟩,
  ⟨"NET_Pp_TX_Q_LOST", 0x0E1054, 256, 4, [⟨0, 32, .ro, .any⟩]⟩,
  ⟨"NET_Pp_TX_PAUSED_US", 0x0E1058, 256, 4, [⟨0, 32, .ro, .any⟩]⟩,
  ⟨"NET_Pp_FEC_CORR", 0x0E105C, 256, 4, [⟨0, 32, .ro, .any⟩]⟩,
  ⟨"NET_Pp_FEC_UNCORR", 0x0E1060, 256, 4, [⟨0, 32, .ro, .any⟩]⟩,
  ⟨"NET_Pp_LINK_DOWN", 0x0E1064, 256, 4, [⟨0, 32, .ro, .any⟩]⟩,
  ⟨"NET_FLDn_TX_FRAMES", 0x0E1800, 64, 2, [⟨0, 32, .ro, .any⟩]⟩,
  ⟨"NET_FLDn_RX_FRAMES", 0x0E1804, 64, 2, [⟨0, 32, .ro, .any⟩]⟩,
  ⟨"NET_FLDn_COLLISIONS", 0x0E1808, 64, 2, [⟨0, 32, .ro, .any⟩]⟩]

/-- Registers of the NET region (R386). -/
def regsNet2 : List RegFam := [
  ⟨"NET_FLDn_LATE_COLL", 0x0E180C, 64, 2, [⟨0, 32, .ro, .any⟩]⟩,
  ⟨"NET_FLDn_EXCESS_COLL", 0x0E1810, 64, 2, [⟨0, 32, .ro, .any⟩]⟩,
  ⟨"NET_FLDn_DEFERRALS", 0x0E1814, 64, 2, [⟨0, 32, .ro, .any⟩]⟩,
  ⟨"NET_FLDn_RX_FCS_ERR", 0x0E1818, 64, 2, [⟨0, 32, .ro, .any⟩]⟩,
  ⟨"NET_FLDn_RX_FILT_DROP", 0x0E181C, 64, 2, [⟨0, 32, .ro, .any⟩]⟩]

/-- Registers of the TIM region (R413). -/
def regsTim0 : List RegFam := [
  ⟨"TIM_CTRL", 0x100000, 0, 1, [⟨0, 1, .rw, .any⟩, ⟨1, 2, .rw, .any⟩, ⟨4, 2, .rw, .any⟩]⟩,
  ⟨"TIM_CFG", 0x100004, 0, 1, [⟨0, 1, .rwl, .any⟩, ⟨8, 8, .rwl, (.within 4 255)⟩, ⟨16, 8, .rwl, (.within 2 16)⟩]⟩,
  ⟨"TIM_LIM", 0x100008, 0, 1, [⟨0, 16, .rwl, (.within 1 65535)⟩, ⟨16, 16, .rwl, (.within 1 65535)⟩]⟩,
  ⟨"TIM_STEP_LIM", 0x10000C, 0, 1, [⟨0, 32, .rwl, (.within 1 1000000)⟩]⟩,
  ⟨"TIM_HOLDOVER", 0x100010, 0, 1, [⟨0, 16, .rwl, (.within 1 65535)⟩]⟩,
  ⟨"TIM_STATUS", 0x100014, 0, 1, [⟨0, 1, .ro, .any⟩, ⟨1, 1, .ro, .any⟩, ⟨2, 1, .ro, .any⟩, ⟨3, 1, .ro, .any⟩, ⟨4, 1, .ro, .any⟩, ⟨5, 1, .ro, .any⟩, ⟨6, 1, .ro, .any⟩, ⟨7, 1, .rw1c, .any⟩, ⟨8, 3, .ro, .any⟩, ⟨12, 3, .ro, .any⟩, ⟨16, 4, .ro, .any⟩]⟩,
  ⟨"TIM_UTC", 0x100018, 0, 1, [⟨0, 8, .ro, .any⟩, ⟨8, 1, .ro, .any⟩, ⟨9, 1, .ro, .any⟩, ⟨10, 1, .ro, .any⟩, ⟨16, 8, .rwl, .any⟩]⟩,
  ⟨"TIM_NOW_NS", 0x100020, 0, 1, [⟨0, 32, .ro, .any⟩]⟩,
  ⟨"TIM_NOW_SEC_LO", 0x100024, 0, 1, [⟨0, 32, .ro, .any⟩]⟩,
  ⟨"TIM_NOW_SEC_HI", 0x100028, 0, 1, [⟨0, 16, .ro, .any⟩, ⟨16, 16, .ro, .any⟩]⟩,
  ⟨"TIM_RATE", 0x100030, 0, 1, [⟨0, 32, .ro, .any⟩]⟩,
  ⟨"TIM_BOUND", 0x100034, 0, 1, [⟨0, 32, .ro, .any⟩]⟩,
  ⟨"TIM_DOMd_CFG", 0x100040, 32, 2, [⟨0, 2, .rwl, .any⟩, ⟨8, 8, .rwl, .any⟩]⟩,
  ⟨"TIM_DOMd_OFFSET", 0x100044, 32, 2, [⟨0, 32, .ro, .any⟩]⟩,
  ⟨"TIM_DOMd_SAMPLES", 0x100048, 32, 2, [⟨0, 32, .ro, .any⟩]⟩,
  ⟨"TIM_DOMd_MISS", 0x10004C, 32, 2, [⟨0, 32, .ro, .any⟩]⟩,
  ⟨"TIM_DOMd_GM_LO", 0x100050, 32, 2, [⟨0, 32, .ro, .any⟩]⟩,
  ⟨"TIM_DOMd_GM_HI", 0x100054, 32, 2, [⟨0, 32, .ro, .any⟩]⟩,
  ⟨"TIM_DOMd_ACC", 0x100058, 32, 2, [⟨0, 32, .ro, .any⟩]⟩,
  ⟨"TIM_PPS", 0x100080, 0, 1, [⟨0, 16, .rwl, .any⟩, ⟨16, 8, .rwl, (.within 1 255)⟩]⟩]

/-- Registers of the TIM region (R413). -/
def regsTim1 : List RegFam := [
  ⟨"TIM_GNSS_STAT", 0x100084, 0, 1, [⟨0, 1, .ro, .any⟩, ⟨1, 1, .ro, .any⟩, ⟨2, 1, .ro, .any⟩, ⟨3, 1, .ro, .any⟩]⟩,
  ⟨"TIM_TOD_ERR", 0x100088, 0, 1, [⟨0, 32, .ro, .any⟩]⟩,
  ⟨"TIM_Pp_PTP", 0x100100, 32, 4, [⟨0, 1, .rwl, .any⟩, ⟨1, 1, .rwl, .any⟩, ⟨2, 2, .rwl, (.within 1 3)⟩, ⟨4, 1, .rwl, .any⟩, ⟨5, 1, .rwl, .any⟩, ⟨8, 8, .rwl, .any⟩, ⟨16, 8, .rwl, .any⟩]⟩,
  ⟨"TIM_Pp_LAT", 0x100104, 32, 4, [⟨0, 16, .rwl, .any⟩, ⟨16, 16, .rwl, .any⟩]⟩,
  ⟨"TIM_Pp_STATE", 0x100108, 32, 4, [⟨0, 4, .ro, .any⟩]⟩,
  ⟨"TIM_Pp_PDELAY", 0x10010C, 32, 4, [⟨0, 32, .ro, .any⟩]⟩,
  ⟨"TIM_Pp_TSQ_LOST_RX", 0x100110, 32, 4, [⟨0, 32, .ro, .any⟩]⟩,
  ⟨"TIM_Pp_TSQ_LOST_TX", 0x100114, 32, 4, [⟨0, 32, .ro, .any⟩]⟩,
  ⟨"TIM_Pp_UNSUPP", 0x100118, 32, 4, [⟨0, 32, .ro, .any⟩]⟩]

/-- Registers of the FAB region (R443). -/
def regsFab0 : List RegFam := [
  ⟨"FAB_CTRL", 0x120000, 0, 1, [⟨0, 6, .rw, .any⟩]⟩,
  ⟨"FAB_CFG", 0x120004, 0, 1, [⟨0, 6, .rwl, .any⟩, ⟨8, 4, .rwl, .any⟩, ⟨12, 1, .rwl, .any⟩, ⟨16, 16, .rwl, .any⟩]⟩,
  ⟨"FAB_SHED", 0x120008, 0, 1, [⟨0, 7, .rwl, (.within 5 45)⟩, ⟨8, 7, .rwl, (.within 50 95)⟩, ⟨16, 16, .rwl, (.within 100 60000)⟩]⟩,
  ⟨"FAB_STATUS", 0x12000C, 0, 1, [⟨0, 1, .ro, .any⟩, ⟨1, 1, .ro, .any⟩, ⟨2, 1, .ro, .any⟩, ⟨3, 1, .ro, .any⟩, ⟨4, 1, .ro, .any⟩, ⟨5, 1, .rw1c, .any⟩, ⟨8, 6, .ro, .any⟩, ⟨16, 7, .ro, .any⟩]⟩,
  ⟨"FAB_MEMBERS_LO", 0x120010, 0, 1, [⟨0, 32, .ro, .any⟩]⟩,
  ⟨"FAB_MEMBERS_HI", 0x120014, 0, 1, [⟨0, 32, .ro, .any⟩]⟩,
  ⟨"FAB_REACH_LO", 0x120018, 0, 1, [⟨0, 32, .ro, .any⟩]⟩,
  ⟨"FAB_REACH_HI", 0x12001C, 0, 1, [⟨0, 32, .ro, .any⟩]⟩,
  ⟨"FAB_SUSPECTS", 0x120020, 0, 1, [⟨0, 32, .ro, .any⟩]⟩,
  ⟨"FAB_OWN_ERR", 0x120024, 0, 1, [⟨0, 32, .ro, .any⟩]⟩,
  ⟨"FAB_ELECTIONS", 0x120028, 0, 1, [⟨0, 32, .ro, .any⟩]⟩,
  ⟨"FAB_REJOINS", 0x12002C, 0, 1, [⟨0, 32, .ro, .any⟩]⟩,
  ⟨"FAB_E2E_RETX", 0x120030, 0, 1, [⟨0, 32, .ro, .any⟩]⟩,
  ⟨"FAB_TTL_DROP", 0x120034, 0, 1, [⟨0, 32, .ro, .any⟩]⟩,
  ⟨"FAB_Ln_CFG", 0x120100, 64, 6, [⟨0, 2, .rwl, .any⟩]⟩,
  ⟨"FAB_Ln_STATUS", 0x120104, 64, 6, [⟨0, 3, .ro, .any⟩, ⟨4, 2, .ro, .any⟩, ⟨8, 6, .ro, .any⟩, ⟨16, 3, .ro, .any⟩, ⟨20, 4, .ro, .any⟩, ⟨24, 7, .ro, .any⟩]⟩,
  ⟨"FAB_Ln_FEC_CORR", 0x120108, 64, 6, [⟨0, 32, .ro, .any⟩]⟩,
  ⟨"FAB_Ln_FEC_UNCORR", 0x12010C, 64, 6, [⟨0, 32, .ro, .any⟩]⟩,
  ⟨"FAB_Ln_RETRY", 0x120110, 64, 6, [⟨0, 32, .ro, .any⟩]⟩,
  ⟨"FAB_Ln_DOWN", 0x120114, 64, 6, [⟨0, 32, .ro, .any⟩]⟩]

/-- Registers of the FAB region (R443). -/
def regsFab1 : List RegFam := [
  ⟨"FAB_Ln_WIDTH_CHG", 0x120118, 64, 6, [⟨0, 32, .ro, .any⟩]⟩]

/-- Registers of the KEY region (R494). -/
def regsKey0 : List RegFam := [
  ⟨"KEY_STATUS", 0x140000, 0, 1, [⟨0, 3, .ro, .any⟩, ⟨3, 1, .ro, .any⟩, ⟨4, 1, .ro, .any⟩, ⟨5, 1, .ro, .any⟩, ⟨6, 1, .ro, .any⟩, ⟨7, 1, .ro, .any⟩, ⟨8, 2, .ro, .any⟩]⟩,
  ⟨"KEY_SLOTS", 0x140004, 0, 1, [⟨0, 11, .ro, .any⟩, ⟨16, 11, .ro, .any⟩]⟩,
  ⟨"KEY_DEVID_LO", 0x140008, 0, 1, [⟨0, 32, .ro, .any⟩]⟩,
  ⟨"KEY_DEVID_HI", 0x14000C, 0, 1, [⟨0, 32, .ro, .any⟩]⟩,
  ⟨"KEY_COUNTER_LO", 0x140010, 0, 1, [⟨0, 32, .ro, .any⟩]⟩,
  ⟨"KEY_COUNTER_HI", 0x140014, 0, 1, [⟨0, 32, .ro, .any⟩]⟩,
  ⟨"KEY_UPDATES", 0x140018, 0, 1, [⟨0, 32, .ro, .any⟩]⟩,
  ⟨"KEY_REFUSED", 0x14001C, 0, 1, [⟨0, 32, .ro, .any⟩]⟩,
  ⟨"KEY_USE_ORPHANED", 0x140020, 0, 1, [⟨0, 32, .ro, .any⟩]⟩,
  ⟨"KEY_REGEN_RETRY", 0x140024, 0, 1, [⟨0, 32, .ro, .any⟩]⟩]

/-- Registers of the SNT region (R512). -/
def regsSnt0 : List RegFam := [
  ⟨"SNT_CFG", 0x150000, 0, 1, [⟨0, 16, .rwl, (.within 1 65535)⟩, ⟨16, 2, .rwl, .any⟩]⟩,
  ⟨"SNT_STATUS", 0x150004, 0, 1, [⟨0, 1, .ro, .any⟩, ⟨1, 1, .ro, .any⟩, ⟨2, 1, .ro, .any⟩, ⟨3, 1, .ro, .any⟩, ⟨4, 1, .ro, .any⟩, ⟨5, 1, .rw1c, .any⟩, ⟨16, 10, .ro, .any⟩]⟩,
  ⟨"SNT_HEAD_LO", 0x150008, 0, 1, [⟨0, 32, .ro, .any⟩]⟩,
  ⟨"SNT_HEAD_HI", 0x15000C, 0, 1, [⟨0, 16, .ro, .any⟩]⟩,
  ⟨"SNT_OLDEST_LO", 0x150010, 0, 1, [⟨0, 32, .ro, .any⟩]⟩,
  ⟨"SNT_OLDEST_HI", 0x150014, 0, 1, [⟨0, 16, .ro, .any⟩]⟩,
  ⟨"SNT_HELD", 0x150018, 0, 1, [⟨0, 18, .ro, .any⟩]⟩,
  ⟨"SNT_OP_SEC", 0x15001C, 0, 1, [⟨0, 32, .ro, .any⟩]⟩,
  ⟨"SNT_POWER_CYCLES", 0x150020, 0, 1, [⟨0, 16, .ro, .any⟩]⟩,
  ⟨"SNT_OVERWRITTEN", 0x150024, 0, 1, [⟨0, 32, .ro, .any⟩]⟩,
  ⟨"SNT_DISCARDED", 0x150028, 0, 1, [⟨0, 32, .ro, .any⟩]⟩,
  ⟨"SNT_FOLDED", 0x15002C, 0, 1, [⟨0, 32, .ro, .any⟩]⟩,
  ⟨"SNT_SHADOW_LOST", 0x150030, 0, 1, [⟨0, 32, .ro, .any⟩]⟩,
  ⟨"SNT_MEM_FAILS", 0x150034, 0, 1, [⟨0, 32, .ro, .any⟩]⟩]

/-- Registers of the SAF region (R528). -/
def regsSaf0 : List RegFam := [
  ⟨"SAF_CFG", 0x160000, 0, 1, [⟨0, 16, .rwl, (.within 10 10000)⟩, ⟨16, 10, .rwl, (.within 0 720)⟩, ⟨26, 6, .rwl, (.within 1 63)⟩]⟩,
  ⟨"SAF_STATUS", 0x160004, 0, 1, [⟨0, 1, .ro, .any⟩, ⟨1, 1, .ro, .any⟩, ⟨2, 1, .ro, .any⟩, ⟨3, 1, .ro, .any⟩, ⟨4, 1, .rw1c, .any⟩, ⟨8, 5, .ro, .any⟩, ⟨16, 15, .ro, .any⟩]⟩,
  ⟨"SAF_CAUSE", 0x160008, 0, 1, [⟨0, 8, .rws, .any⟩, ⟨8, 8, .rws, .any⟩, ⟨16, 8, .rws, .any⟩, ⟨24, 1, .rws, .any⟩]⟩,
  ⟨"SAF_HB_AGE", 0x16000C, 0, 1, [⟨0, 16, .ro, .any⟩]⟩,
  ⟨"SAF_CFG_SIG", 0x160010, 0, 1, [⟨0, 32, .ro, .any⟩]⟩,
  ⟨"SAF_PROOF_LAST", 0x160014, 0, 1, [⟨0, 12, .ro, .any⟩, ⟨16, 16, .ro, .any⟩]⟩,
  ⟨"SAF_CORRECTED_LO", 0x160020, 0, 1, [⟨0, 32, .ro, .any⟩]⟩,
  ⟨"SAF_CORRECTED_HI", 0x160024, 0, 1, [⟨0, 32, .ro, .any⟩]⟩,
  ⟨"SAF_ERRORS", 0x160028, 0, 1, [⟨0, 32, .ro, .any⟩]⟩,
  ⟨"SAF_ESCALATIONS", 0x16002C, 0, 1, [⟨0, 32, .ro, .any⟩]⟩,
  ⟨"SAF_OVERFLOWS", 0x160030, 0, 1, [⟨0, 32, .ro, .any⟩]⟩,
  ⟨"SAF_MGMT_STALLS", 0x160034, 0, 1, [⟨0, 32, .ro, .any⟩]⟩,
  ⟨"SAF_MGMT_RESTARTS", 0x160038, 0, 1, [⟨0, 32, .ro, .any⟩]⟩,
  ⟨"SAF_PROOFS", 0x16003C, 0, 1, [⟨0, 32, .ro, .any⟩]⟩]

/-- Registers of the INV region (R552). -/
def regsInv0 : List RegFam := [
  ⟨"INV_CFG", 0x170000, 0, 1, [⟨0, 1, .rwl, .any⟩]⟩,
  ⟨"INV_STATUS", 0x170004, 0, 1, [⟨0, 10, .ro, .any⟩, ⟨16, 10, .ro, .any⟩, ⟨26, 1, .ro, .any⟩]⟩,
  ⟨"INV_BOARD", 0x170008, 0, 1, [⟨0, 16, .ro, .any⟩, ⟨16, 16, .ro, .any⟩]⟩,
  ⟨"INV_READS", 0x17000C, 0, 1, [⟨0, 32, .ro, .any⟩]⟩,
  ⟨"INV_ERRORS", 0x170010, 0, 1, [⟨0, 32, .ro, .any⟩]⟩]

/-- Every register of BAR0 but the MSI-X table and its pending bits. -/
def regTable : List RegFam :=
  regsGlb0 ++ regsClk0 ++ regsHif0 ++ regsIng0 ++ regsCrt0 ++ regsCrt1 ++ regsOsc0 ++ regsOsc1 ++ regsIsl0 ++ regsFum0 ++ regsAcq0 ++ regsFlt0 ++ regsCal0 ++ regsGey0 ++ regsNrg0 ++ regsCyc0 ++ regsRio0 ++ regsSch0 ++ regsEng0 ++ regsNet0 ++ regsNet1 ++ regsNet2 ++ regsTim0 ++ regsTim1 ++ regsFab0 ++ regsFab1 ++ regsKey0 ++ regsSnt0 ++ regsSaf0 ++ regsInv0

def resetWords0 : List (Nat × BitVec 32) := [
  (0x000000, 0x084001B0), (0x01000C, 0x00000A84), (0x010018, 0x00000001), (0x010100, 0x00000100), (0x020000, 0x0000003F), (0x020020, 0x00000001),
  (0x021008, 0x000000C0), (0x02100C, 0x00000001), (0x021028, 0x000000C0), (0x02102C, 0x00000001), (0x021048, 0x000000C0), (0x02104C, 0x00000001),
  (0x021068, 0x000000C0), (0x02106C, 0x00000001), (0x021088, 0x000000C0), (0x02108C, 0x00000001), (0x0210A8, 0x000000C0), (0x0210AC, 0x00000001),
  (0x0210C8, 0x000000C0), (0x0210CC, 0x00000001), (0x0210E8, 0x000000C0), (0x0210EC, 0x00000001), (0x021108, 0x000000C0), (0x02110C, 0x00000001)]

def resetWords1 : List (Nat × BitVec 32) := [
  (0x021128, 0x000000C0), (0x02112C, 0x00000001), (0x021148, 0x000000C0), (0x02114C, 0x00000001), (0x021168, 0x000000C0), (0x02116C, 0x00000001),
  (0x021188, 0x000000C0), (0x02118C, 0x00000001), (0x0211A8, 0x000000C0), (0x0211AC, 0x00000001), (0x0211C8, 0x000000C0), (0x0211CC, 0x00000001),
  (0x0211E8, 0x000000C0), (0x0211EC, 0x00000001), (0x021208, 0x000000C0), (0x02120C, 0x00000001), (0x021228, 0x000000C0), (0x02122C, 0x00000001),
  (0x021248, 0x000000C0), (0x02124C, 0x00000001), (0x021268, 0x000000C0), (0x02126C, 0x00000001), (0x021288, 0x000000C0), (0x02128C, 0x00000001)]

def resetWords2 : List (Nat × BitVec 32) := [
  (0x0212A8, 0x000000C0), (0x0212AC, 0x00000001), (0x0212C8, 0x000000C0), (0x0212CC, 0x00000001), (0x0212E8, 0x000000C0), (0x0212EC, 0x00000001),
  (0x021308, 0x000000C0), (0x02130C, 0x00000001), (0x021328, 0x000000C0), (0x02132C, 0x00000001), (0x021348, 0x000000C0), (0x02134C, 0x00000001),
  (0x021368, 0x000000C0), (0x02136C, 0x00000001), (0x021388, 0x000000C0), (0x02138C, 0x00000001), (0x0213A8, 0x000000C0), (0x0213AC, 0x00000001),
  (0x0213C8, 0x000000C0), (0x0213CC, 0x00000001), (0x0213E8, 0x000000C0), (0x0213EC, 0x00000001), (0x040004, 0x00003504), (0x040008, 0x00661269)]

def resetWords3 : List (Nat × BitVec 32) := [
  (0x060000, 0x0008143C), (0x060004, 0x00000032), (0x060008, 0x00000005), (0x06000C, 0x00008CA0), (0x060010, 0x01001000), (0x060014, 0x00000002),
  (0x080004, 0x003C0010), (0x080008, 0x000140F0), (0x08000C, 0x0190000A), (0x080010, 0x0F3C1E14), (0x080014, 0x18384032), (0x080018, 0x00082D05),
  (0x08001C, 0x00140214), (0x08010C, 0x00000001), (0x08011C, 0x00000001), (0x08012C, 0x00000001), (0x08013C, 0x00000001), (0x08014C, 0x00000001),
  (0x08015C, 0x00000001), (0x08016C, 0x00000001), (0x08017C, 0x00000001), (0x082004, 0x00320203), (0x082008, 0x00320032), (0x08200C, 0x00320032)]

def resetWords4 : List (Nat × BitVec 32) := [
  (0x082010, 0x00320032), (0x082014, 0x00320032), (0x082018, 0x00000002), (0x084020, 0x00000001), (0x084024, 0x00000001), (0x084028, 0x00000001),
  (0x08402C, 0x00000001), (0x084030, 0x00000001), (0x084034, 0x00000001), (0x084038, 0x00000001), (0x08403C, 0x00000001), (0x0A1000, 0x0000190A),
  (0x0A2004, 0x05C83264), (0x0B0004, 0x00100100), (0x0B8004, 0x00004F0A), (0x0C0000, 0x0030A400), (0x0C1000, 0x000088B5), (0x0D0008, 0x00505A00),
  (0x0D000C, 0x0040001E), (0x0D1004, 0x00F00000), (0x0E0100, 0x00003048), (0x0E0104, 0x000005EE), (0x0E0110, 0x00000040), (0x0E0140, 0x00003048)]

def resetWords5 : List (Nat × BitVec 32) := [
  (0x0E0144, 0x000005EE), (0x0E0150, 0x00000040), (0x0E0180, 0x00003048), (0x0E0184, 0x000005EE), (0x0E0190, 0x00000040), (0x0E01C0, 0x00003048),
  (0x0E01C4, 0x000005EE), (0x0E01D0, 0x00000040), (0x100004, 0x00031000), (0x100008, 0x00640064), (0x10000C, 0x000003E8), (0x100010, 0x00000032),
  (0x100014, 0x000F0002), (0x100018, 0x00250025), (0x100034, 0xFFFFFFFF), (0x100080, 0x00640000), (0x100100, 0x00808004), (0x100108, 0x00000001),
  (0x100120, 0x00808004), (0x100128, 0x00000001), (0x100140, 0x00808004), (0x100148, 0x00000001), (0x100160, 0x00808004), (0x100168, 0x00000001)]

def resetWords6 : List (Nat × BitVec 32) := [
  (0x120004, 0x00001800), (0x120008, 0x03E84628), (0x150000, 0x000003E8), (0x160000, 0x14180064), (0x160014, 0xFFFF0000), (0x170000, 0x00000001)]

/-- The words that the register tables reset to a value other than zero, by rising offset. -/
def resetWords : List (Nat × BitVec 32) :=
  resetWords0 ++ resetWords1 ++ resetWords2 ++ resetWords3 ++ resetWords4 ++ resetWords5 ++ resetWords6

/-- The words of every register and of the MSI-X table after a power-on or cold reset. -/
def coldRegs : Sys2Proof.Tbl (BitVec 32) :=
  (resetWords ++ (List.range 64).map (fun v => (0x03000C + 16 * v, (1 : BitVec 32)))).foldl (fun (t : Sys2Proof.Tbl (BitVec 32)) (x : Nat × BitVec 32) => t.put x.1 x.2) []

end Sys2Proof.Machine
end

