-- ==== Sys2Proof/Machine/State.lean ====
section
/-! DEFINITION. The state of the device, the reasons for which a command can stop, and the state after reset. -/

namespace Sys2Proof.Machine

/-- Everything of the device but the key store: its registers (BAR0 offset to word, an absent word reads 0), the units,
the outputs of the last command, and the model's own count of free values taken. -/
structure Dev where
  regs : Tbl Word := []
  hif : HifSt := {}
  ing : IngSt := {}
  crt : CrtSt := {}
  osc : OscSt := {}
  isl : IslSt := {}
  fum : FumSt := {}
  acq : AcqSt := {}
  gey : GeySt := {}
  nrg : NrgSt := {}
  cyc : CycSt := {}
  sch : SchSt := {}
  net : NetSt := {}
  tim : TimSt := {}
  fab : FabSt := {}
  snt : SntSt := {}
  saf : SafSt := {}
  clk : ClkSt := {}
  inv : InvSt := {}
  out : List Out := []
  /-- The model's own: number of free values taken so far (not a thing of the spec). -/
  fresh : Nat := 0
  deriving DecidableEq, Repr

/-- The state of the model: the key store, the rest of the device, and the commands that wait, first in, first out. -/
structure State where
  key : KeySt
  dev : Dev
  pending : List Instr
  deriving DecidableEq, Repr

/-- Reasons for which the device stops. -/
inductive Fault where
  /-- Raised by a warm reset that applies CLK_DIV settings which break a ratio limit: R536 calls the behaviour undefined (safe: the
  machine stops). -/
  | clockRatio
  deriving DecidableEq, Repr

/-- Reasons for which a command has no meaning. -/
inductive Refusal where
  /-- Raised by an arm of `exec` whose command has no meaning yet (safe: the machine stops). -/
  | notModelled (mnemonic : String)
  deriving DecidableEq, Repr

/-- The device right after power-on reset (R541, R560): every register at its reset value, every queue, buffer and memory of the device
empty, as a part leaves the factory (BLANK, no image set, nothing enrolled). No command waits. -/
def State.reset : State :=
  { key := {}, dev := { regs := coldRegs }, pending := [] }

/-- What a command answers. -/
abbrev Answer := Host.Outcome State Fault Refusal

end Sys2Proof.Machine
end

