-- ==== Sys2Proof/Machine/Ops.lean ====
section
/-! DEFINITION. The shared operations: registers and counters, time, host memory and the rings, events, Sinter records,
and the acceptance and completion of ring commands. -/

namespace Sys2Proof.Machine

/-! ## Status codes (R14, R564) -/

def sOk : Nat := 0x00
def sNotValid : Nat := 0x01
def sLate : Nat := 0x02
def sKeyOrphaned : Nat := 0x03
def sAuthFail : Nat := 0x04
def sCounterStale : Nat := 0x05
def sGated : Nat := 0x06
def sBusy : Nat := 0x07
def sBadDesc : Nat := 0x08
def sRange : Nat := 0x09
def sLost : Nat := 0x0A
def sSafeState : Nat := 0x0B
def sNotOwner : Nat := 0x0C
def sOverrun : Nat := 0x0D
def sEscalated : Nat := 0x0E
def sDupKey : Nat := 0x20
def sNoCells : Nat := 0x21
def sRetMismatch : Nat := 0x22
def sImgFault : Nat := 0x23
def sDupDevice : Nat := 0x24
def sLifecycle : Nat := 0x25

/-! ## One unit changed -/

def Dev.modHif (d : Dev) (f : HifSt → HifSt) : Dev := { d with hif := f d.hif }
def Dev.modIng (d : Dev) (f : IngSt → IngSt) : Dev := { d with ing := f d.ing }
def Dev.modCrt (d : Dev) (f : CrtSt → CrtSt) : Dev := { d with crt := f d.crt }
def Dev.modOsc (d : Dev) (f : OscSt → OscSt) : Dev := { d with osc := f d.osc }
def Dev.modIsl (d : Dev) (f : IslSt → IslSt) : Dev := { d with isl := f d.isl }
def Dev.modFum (d : Dev) (f : FumSt → FumSt) : Dev := { d with fum := f d.fum }
def Dev.modAcq (d : Dev) (f : AcqSt → AcqSt) : Dev := { d with acq := f d.acq }
def Dev.modGey (d : Dev) (f : GeySt → GeySt) : Dev := { d with gey := f d.gey }
def Dev.modNrg (d : Dev) (f : NrgSt → NrgSt) : Dev := { d with nrg := f d.nrg }
def Dev.modCyc (d : Dev) (f : CycSt → CycSt) : Dev := { d with cyc := f d.cyc }
def Dev.modSch (d : Dev) (f : SchSt → SchSt) : Dev := { d with sch := f d.sch }
def Dev.modNet (d : Dev) (f : NetSt → NetSt) : Dev := { d with net := f d.net }
def Dev.modTim (d : Dev) (f : TimSt → TimSt) : Dev := { d with tim := f d.tim }
def Dev.modFab (d : Dev) (f : FabSt → FabSt) : Dev := { d with fab := f d.fab }
def Dev.modSnt (d : Dev) (f : SntSt → SntSt) : Dev := { d with snt := f d.snt }
def Dev.modSaf (d : Dev) (f : SafSt → SafSt) : Dev := { d with saf := f d.saf }
def Dev.modClk (d : Dev) (f : ClkSt → ClkSt) : Dev := { d with clk := f d.clk }
def Dev.modInv (d : Dev) (f : InvSt → InvSt) : Dev := { d with inv := f d.inv }

/-! ## Registers -/

/-- The word held at a BAR0 offset. -/
def Dev.reg (d : Dev) (off : Nat) : Word := d.regs.getD off 0

/-- The register file with one word set; a word of 0 is not listed. -/
def setWord (m : Tbl Word) (off : Nat) (v : Word) : Tbl Word := if v = 0 then m.drop off else m.put off v

def Dev.setReg (d : Dev) (off : Nat) (v : Word) : Dev := { d with regs := setWord d.regs off v }

def Dev.regN (d : Dev) (off : Nat) : Nat := (d.reg off).toNat

def Dev.setRegN (d : Dev) (off v : Nat) : Dev := d.setReg off (BitVec.ofNat 32 v)

/-- Bits `lo` to `lo + w - 1` of a word. -/
def bitsAt (v : Word) (lo w : Nat) : Nat := v.toNat / 2 ^ lo % 2 ^ w

/-- The word with bits `lo` to `lo + w - 1` replaced. -/
def withBits (v : Word) (lo w x : Nat) : Word :=
  BitVec.ofNat 32 (v.toNat - bitsAt v lo w * 2 ^ lo + x % 2 ^ w * 2 ^ lo)

/-- The value of a field. -/
def Dev.fld (d : Dev) (f : FieldAt) : Nat := bitsAt (d.reg f.off) f.lo f.width

/-- A one-bit field as a truth value. -/
def Dev.bit (d : Dev) (f : FieldAt) : Bool := decide (d.fld f ≠ 0)

def Dev.setFld (d : Dev) (f : FieldAt) (v : Nat) : Dev := d.setReg f.off (withBits (d.reg f.off) f.lo f.width v)

def Dev.setBit (d : Dev) (f : FieldAt) (b : Bool) : Dev := d.setFld f (b2n b)

/-- Bit `i` of a mask field. -/
def Dev.fbit (d : Dev) (f : FieldAt) (i : Nat) : Bool := (d.fld f).testBit i

def Dev.setFbit (d : Dev) (f : FieldAt) (i : Nat) (b : Bool) : Dev := d.setFld f (putBit (d.fld f) i b)

/-- A 32-bit counter counts `n` more; it wraps and is read by signed difference (R9). -/
def Dev.count (d : Dev) (off : Nat) (n : Nat := 1) : Dev := d.setRegN off (d.regN off + n)

/-- The 64-bit value of a _LO and _HI pair. -/
def Dev.reg64 (d : Dev) (lo : Nat) : Nat := d.regN lo + 2 ^ 32 * d.regN (lo + 4)

def Dev.setReg64 (d : Dev) (lo v : Nat) : Dev := (d.setRegN lo (v % 2 ^ 32)).setRegN (lo + 4) (v / 2 ^ 32)

/-- A 64-bit counter counts `n` more. -/
def Dev.count64 (d : Dev) (lo : Nat) (n : Nat := 1) : Dev := d.setReg64 lo (d.reg64 lo + n)

/-! ## Addressed memories (R294) -/

/-- The byte at an address. -/
def Ram.get (m : Ram) (a : Nat) : Byte := Tbl.getD m a 0

/-- The memory with one byte set; a byte of 0 is not listed. -/
def Ram.set (m : Ram) (a : Nat) (b : Byte) : Ram := if b = 0 then Tbl.drop m a else Tbl.put m a b

/-- The `n` bytes from an address on. -/
def Ram.read (m : Ram) (a n : Nat) : Bytes := (List.range n).map (fun i => Ram.get m (a + i))

/-- Bytes written from an address on, those inside `size`. -/
def Ram.write (size : Nat) : Ram → Nat → Bytes → Ram
  | m, _, [] => m
  | m, a, b :: t => Ram.write size (if a < size then Ram.set m a b else m) (a + 1) t

/-- The canonical form: addresses strictly rising and no entry 0. -/
def Ram.wf (m : Ram) : Bool := Tbl.wf m && m.all (fun x => decide (x.2 ≠ 0))

/-! ## Free values and outputs -/

/-- A value that the spec leaves open, and the device that has taken it. -/
def Dev.draw (d : Dev) : Nat × Dev := (Config.freeNat d.fresh, { d with fresh := d.fresh + 1 })

/-- The device with one more output of the present command. -/
def Dev.emit (d : Dev) (o : Out) : Dev := { d with out := d.out ++ [o] }

/-! ## Time (R5 to R8, R389) -/

/-- INCR of R389 at the rate correction `r` in ppb: units of 2⁻⁴⁰ ns added at each cycle of TCLK. -/
def incrOf (r : Rat) : Nat := ((4 * 2 ^ 40 : Rat) * (1 + r / 1000000000) + 1 / 2).floor.toNat

/-- Time passes: `dt` ns of TCLK. The accumulator adds INCR once for each cycle of 4 ns. -/
def Dev.advance (d : Dev) (dt : Nat) : Dev :=
  let cycles := (d.tim.up + dt) / 4 - d.tim.up / 4
  { d with tim := { d.tim with up := d.tim.up + dt, acc := d.tim.acc + cycles * incrOf d.tim.r } }

/-- Device time in ns. -/
def Dev.up (d : Dev) : Nat := d.tim.up

/-- G-time in units of 2⁻¹⁶ ns since the PTP epoch. -/
def Dev.g16 (d : Dev) : Nat := d.tim.acc / 2 ^ 24

/-- G-time in whole ns. -/
def Dev.gNs (d : Dev) : Nat := d.g16 / 2 ^ 16

/-- G-time in whole seconds. -/
def Dev.gSec (d : Dev) : Nat := d.gNs / 1000000000

/-- G-time in whole µs. -/
def Dev.gUs (d : Dev) : Nat := d.gNs / 1000

/-- The 12 bytes of a G-time given in units of 2⁻¹⁶ ns (R5). -/
def gtimeBytes (t : Nat) : Bytes :=
  let ns := t / 2 ^ 16
  leBytes 2 (t % 2 ^ 16) ++ leBytes 4 (ns % 1000000000) ++ leBytes 6 (ns / 1000000000)

/-- The G-time in units of 2⁻¹⁶ ns that 12 bytes spell, and whether NS is in range (R6). -/
def gtimeOf (b : Bytes) : Nat × Bool :=
  let frac := leNat (slice b 0 2)
  let ns := leNat (slice b 2 4)
  let sec := leNat (slice b 6 6)
  ((sec * 1000000000 + ns) * 2 ^ 16 + frac, decide (ns < 1000000000))

/-- The epoch rate F. -/
def Dev.rate (d : Dev) : Nat := d.fld Fld.CRT_CFG_RATE

/-- The time of epoch `e` at rate `f`, rounded down to 2⁻¹⁶ ns (R7). -/
def epochTime (f e : Nat) : Nat := e * (1000000000 * 2 ^ 16) / f

/-- Time quality is doubtful (R406). -/
def Dev.timeSuspect (d : Dev) : Bool := d.bit Fld.TIM_STATUS_TIME_SUSPECT

/-- This device's number (FAB_CFG.DEVICE). -/
def Dev.deviceNo (d : Dev) : Nat := d.fld Fld.FAB_CFG_DEVICE

/-! ## Running a command on the state -/

/-- The answer of a command: `dt` ns pass, then its effect on the device; the outputs of earlier commands are dropped. -/
def State.run (s : State) (dt : Nat) (f : KeySt → Dev → Dev) : Host.Outcome State Fault Refusal :=
  .next { s with dev := f s.key (Dev.advance { s.dev with out := [] } dt) }

/-- The same for a command that can change the key store too. -/
def State.runKey (s : State) (dt : Nat) (f : KeySt → Dev → KeySt × Dev) : Host.Outcome State Fault Refusal :=
  let r := f s.key (Dev.advance { s.dev with out := [] } dt)
  .next { s with key := r.1, dev := r.2 }

/-! ## Order -/

def insertBy {α : Type} (lt : α → α → Bool) (x : α) : List α → List α
  | [] => [x]
  | y :: t => if lt x y then x :: y :: t else y :: insertBy lt x t

/-- A stable sort: equal elements keep their order. -/
def sortBy {α : Type} (lt : α → α → Bool) (l : List α) : List α := l.reverse.foldl (fun acc x => insertBy (fun a b => !lt b a) x acc) []

/-! ## Check sequences -/

/-- One bit of the reflected CRC-32 of IEEE 802.3. -/
def crc32Bit (c : Nat) : Nat := if c % 2 = 1 then (c / 2) ^^^ 0xEDB88320 else c / 2

def crc32Byte (c : Nat) (b : Byte) : Nat :=
  crc32Bit (crc32Bit (crc32Bit (crc32Bit (crc32Bit (crc32Bit (crc32Bit (crc32Bit (c ^^^ b.toNat))))))))

/-- CRC-32 of IEEE 802.3 over a byte string. -/
def crc32 (b : Bytes) : Nat := (b.foldl crc32Byte 0xFFFFFFFF) ^^^ 0xFFFFFFFF

/-- One bit of a CRC-16 with a polynomial, most significant bit first. -/
def crc16Bit (poly c : Nat) : Nat := if c / 2 ^ 15 % 2 = 1 then (c * 2 % 2 ^ 16) ^^^ poly else c * 2 % 2 ^ 16

def crc16Byte (poly c : Nat) (b : Byte) : Nat :=
  let f := crc16Bit poly
  f (f (f (f (f (f (f (f (c ^^^ (b.toNat * 256)))))))))

/-- CRC-16 with polynomial 0x1021 and initial value 0xFFFF, as CHK of IEEE C37.118.2 computes it. -/
def crc16 (b : Bytes) : Nat := b.foldl (crc16Byte 0x1021) 0xFFFF

/-! ## MSI-X and the rings (R447 to R471) -/

/-- The ring state. -/
def Dev.ring (d : Dev) (n : Nat) : RingSt := (d.hif.rings[n]?).getD {}

def Dev.setRing (d : Dev) (n : Nat) (r : RingSt) : Dev :=
  { d with hif := { d.hif with rings := modifyAt d.hif.rings n (fun _ => r) } }

/-- The word of the MSI-X table at word `w` of a vector's entry: address low and high, data, vector control. -/
def msixOff (vector w : Nat) : Nat := 0x030000 + 16 * vector + 4 * w

/-- The G840 may write to host memory: not in D3hot (R450). -/
def Dev.hostReady (d : Dev) : Bool := !d.bit Fld.HIF_STATUS_D3

/-- A vector's message is sent; a masked vector sets its pending bit (R471). In D3hot none is sent: it stays pending. -/
def Dev.sendMsix (d : Dev) (v : Nat) : Dev :=
  if d.hostReady && (d.regN (msixOff v 3)) % 2 = 0 then
    d.emit (.msix v (d.regN (msixOff v 0) + 2 ^ 32 * d.regN (msixOff v 1)) (d.regN (msixOff v 2)))
  else
    let off := 0x031000 + 4 * (v / 32)
    d.setRegN off (putBit (d.regN off) (v % 32) true)

/-- Where an armed ring's condition holds, its message is sent, which clears ARMED and the unsignalled count (R471).
`now` is set where MOD_US has run out. -/
def Dev.judgeSignal (d : Dev) (n : Nat) (expired : Bool) : Dev :=
  let r := d.ring n
  let modUs := d.fld (Fld.HIF_RINGn_IRQ_MOD_US n)
  if d.bit (Fld.HIF_RINGn_STAT_ARMED n) && decide (0 < r.unsignalled)
      && (decide (modUs = 0) || decide (d.fld (Fld.HIF_RINGn_IRQ_MOD_COUNT n) ≤ r.unsignalled) || expired) then
    ((d.sendMsix (d.fld (Fld.HIF_RINGn_CFG_VECTOR n))).setBit (Fld.HIF_RINGn_STAT_ARMED n) false).setRing n
      { r with unsignalled := 0 }
  else d

/-- A completion was written on ring `n`: DONE counts it, and it is unsignalled (R453, R471). -/
def Dev.countDone (d : Dev) (n : Nat) : Dev :=
  let r := d.ring n
  let r' := { r with unsignalled := r.unsignalled + 1, firstUnsigAt := if r.unsignalled = 0 then d.up else r.firstUnsigAt }
  ((d.count (Reg.HIF_RINGn_DONE n)).setRing n r').judgeSignal n false

/-- PHASE of descriptor `k` of ring `n`: 1 in even passes (R453). -/
def Dev.phase (d : Dev) (n k : Nat) : Nat := 1 - k / 2 ^ d.fld (Fld.HIF_RINGn_CFG_LOG2_SIZE n) % 2

/-- Descriptors posted on ring `n` and not yet fetched. -/
def Dev.available (d : Dev) (n : Nat) : Nat :=
  (d.regN (Reg.HIF_RINGn_POSTED n) + 2 ^ 32 - (d.ring n).next % 2 ^ 32) % 2 ^ 32

/-- A ring of the kind that is enabled and running (R451, R452). -/
def Dev.runs (d : Dev) (n kind : Nat) : Bool :=
  d.bit (Fld.HIF_RINGn_CFG_EN n) && decide (d.fld (Fld.HIF_RINGn_STAT_STATE n) = 1)
    && decide (d.fld (Fld.HIF_RINGn_CFG_KIND n) = kind) && decide (n < 32)

/-- The running ring of a kind of which only one is allowed. -/
def Dev.ringOf (d : Dev) (kind : Nat) : Option Nat := (List.range 32).find? (fun n => d.runs n kind)

/-- Completion of the buffer in use of ring `n` (R462). -/
def Dev.closeBuf (d : Dev) (n : Nat) (contOut : Bool) : Dev :=
  let r := d.ring n
  match r.cur with
  | none => d
  | some b =>
    ((d.setRing n { r with cur := none }).emit
      (.bufDone n b.k b.used b.recs 0 sOk (b2n b.contIn + 2 * b2n contOut + 4 * b2n b.loss) (d.phase n b.k))).countDone n

/-- A posted buffer is usable (R462). -/
def BufDesc.ok (b : BufDesc) : Bool :=
  decide (4096 ≤ b.len) && decide (b.len ≤ 16777216) && decide (b.len % 8 = 0) && decide (b.addr % 8 = 0) && !b.resv

/-- The next usable posted buffer of ring `n` becomes the buffer in use; unusable ones before it complete with
S_BAD_DESC and receive nothing (R462). -/
def Dev.openNext (n : Nat) (contIn : Bool) (kind : Nat) : List BufDesc → Dev → Dev
  | [], d => d
  | b :: t, d =>
    let r := d.ring n
    let d1 := d.setRing n { r with bufs := t, next := r.next + 1 }
    if b.ok then
      { (d1.setRing n { d1.ring n with
            cur := some { k := r.next, buf := b, contIn := contIn, loss := d.hif.lossMarks.testBit kind, firstAt := d.up } }) with
        hif := { (d1.setRing n { d1.ring n with
            cur := some { k := r.next, buf := b, contIn := contIn, loss := d.hif.lossMarks.testBit kind, firstAt := d.up } }).hif with
          lossMarks := putBit d.hif.lossMarks kind false } }
    else Dev.openNext n contIn kind t ((d1.emit (.bufDone n r.next 0 0 0 sBadDesc 0 (d.phase n r.next))).countDone n)

/-- Bytes are written into the buffer in use of ring `n`; `starts` is the record that starts with them. -/
def Dev.fill (d : Dev) (n : Nat) (bytes : Bytes) (starts : Option RingRec) : Dev :=
  let r := d.ring n
  match r.cur with
  | none => d
  | some b =>
    (d.emit (.hostWrite (b.buf.addr + b.used) bytes)).setRing n
      { r with cur := some { b with used := b.used + bytes.length, recs := b.recs + b2n starts.isSome, items := b.items ++ starts.toList } }

/-- Room left in the buffer in use. -/
def Dev.room (d : Dev) (n : Nat) : Nat := match (d.ring n).cur with | none => 0 | some b => b.buf.len - b.used

/-- The last record of a group is placed: with COALESCE_US 0 the buffer completes (R463). -/
def Dev.endGroup (d : Dev) (n : Nat) (groupEnd : Bool) : Dev :=
  if groupEnd && decide (d.fld (Fld.HIF_RINGn_CFG_COALESCE_US n) = 0) then d.closeBuf n false else d

/-- Unusable buffers at the head of a ring complete with S_BAD_DESC (R462). -/
def Dev.dropBad (n : Nat) : List BufDesc → Dev → Dev
  | [], d => d
  | b :: t, d =>
    if b.ok then d
    else
      let r := d.ring n
      Dev.dropBad n t (((d.setRing n { r with bufs := t, next := r.next + 1 }).emit (.bufDone n r.next 0 0 0 sBadDesc 0 (d.phase n r.next))).countDone n)

/-- The buffer in use takes what it can of the rest of a record and, where that is not all, completes with CONT_OUT. -/
def Dev.fillPart (d : Dev) (n : Nat) (bytes : Bytes) (groupEnd : Bool) (starts : Option RingRec) : Dev :=
  let room := d.room n
  let d1 := d.fill n (bytes.take room) starts
  if bytes.length ≤ room then d1.endGroup n groupEnd
  else
    let d2 := d1.closeBuf n true
    d2.setRing n { d2.ring n with rest := some ⟨bytes.drop room, groupEnd⟩ }

/-- A record longer than its buffers so far continues through the buffers that follow, as they are posted (R463). -/
def Dev.continueRec (n kind : Nat) : Nat → Dev → Dev
  | 0, d => d
  | fuel + 1, d =>
    match (d.ring n).rest with
    | none => d
    | some r =>
      let d1 := Dev.openNext n true kind (d.ring n).bufs d
      if (d1.ring n).cur.isNone then d1
      else Dev.continueRec n kind fuel ((d1.setRing n { d1.ring n with rest := none }).fillPart n r.bytes r.groupEnd none)

/-- One record is placed on device-to-host ring `n` of a kind (R463), and whether it was: it waits where no posted buffer takes it. A buffer
that it does not fit in completes; one longer than a whole buffer starts a buffer and continues. -/
def Dev.place (d : Dev) (n kind : Nat) (rec : RingRec) : Dev × Bool :=
  let d0 := if (d.ring n).cur.isSome && decide (d.room n < rec.bytes.length) then d.closeBuf n false else d
  let d1 := if (d0.ring n).cur.isSome then d0 else Dev.openNext n false kind (d0.ring n).bufs d0
  if (d1.ring n).cur.isNone then (d1, false)
  else
    let d2 := d1.fillPart n rec.bytes rec.groupEnd (some rec)
    (Dev.continueRec n kind ((d2.ring n).bufs.length + 1) d2, true)

/-- An event entry of severity 3 (R465, R471). -/
def isCritical (kind : Nat) (b : Bytes) : Bool :=
  decide (kind = 8) && decide (leNat (slice b 0 1) = 1) && decide (leNat (slice b 2 1) / 64 = 3)

/-- Waiting records are placed in order for as long as buffers take them (R463, R467). -/
def Dev.placeAll (n kind : Nat) : List RingRec → Dev → Dev × List RingRec
  | [], d => (d, [])
  | r :: t, d =>
    let p := if (d.ring n).rest.isSome then (d, false) else d.place n kind r
    if p.2 then Dev.placeAll n kind t (if isCritical kind r.bytes then p.1.sendMsix (p.1.fld Fld.HIF_CTRL_ERR_VECTOR) else p.1)
    else (p.1, r :: t)

/-- The store in which the records of a device-to-host kind wait (R467). -/
def Dev.ringQ (d : Dev) (kind : Nat) : List RingRec :=
  if kind = 5 then d.hif.amendQ else if kind = 6 then d.hif.alarmQ else if kind = 7 then d.hif.trigQ
  else if kind = 8 then d.hif.eventQ else []

def Dev.setRingQ (d : Dev) (kind : Nat) (q : List RingRec) : Dev :=
  if kind = 5 then { d with hif := { d.hif with amendQ := q } }
  else if kind = 6 then { d with hif := { d.hif with alarmQ := q } }
  else if kind = 7 then { d with hif := { d.hif with trigQ := q } }
  else if kind = 8 then { d with hif := { d.hif with eventQ := q } }
  else d

/-- The waiting records of a kind go to its ring, where it runs and host memory can be written (R450, R467). -/
def Dev.pump (d : Dev) (kind : Nat) : Dev :=
  match d.ringOf kind with
  | none => d
  | some n =>
    if d.hostReady then
      let d1 := Dev.continueRec n kind ((d.ring n).bufs.length + 1) d
      let res := Dev.placeAll n kind (d1.ringQ kind) d1
      let d2 := res.1.setRingQ kind res.2
      if (d2.ring n).cur.isNone then Dev.dropBad n (d2.ring n).bufs d2 else d2
    else d

/-- The record group that was written last ends here: the last of its records that waits carries that, or the buffer that holds it completes
(R463). -/
def Dev.endGroupOf (d : Dev) (kind : Nat) : Dev :=
  match (d.ringQ kind).getLast? with
  | some r => d.setRingQ kind ((d.ringQ kind).dropLast ++ [{ r with groupEnd := true }])
  | none => match d.ringOf kind with | some n => d.endGroup n d.hostReady | none => d

/-- Bytes held in a record queue. -/
def queueBytes (q : List RingRec) : Nat := q.foldl (fun a r => a + r.bytes.length) 0

/-- The oldest records of a queue are overwritten until at most `cap` are left (R21): the rest, and how many were lost. -/
def trimQueue (cap : Nat) (q : List RingRec) : List RingRec × List RingRec :=
  (q.drop (q.length - cap), q.take (q.length - cap))

/-- Records of an ALARM or EVENT ring join their queue of `cap` records, then go to the ring; a full queue overwrites
its oldest records, each counted at `lostReg` (R21, R204, R467). -/
def Dev.enqueue (d : Dev) (kind cap lostReg : Nat) (recs : List RingRec) : Dev :=
  let d1 := (d.setRingQ kind (d.ringQ kind ++ recs)).pump kind
  let q := trimQueue cap (d1.ringQ kind)
  if q.2.isEmpty then d1
  else
    let d2 := (d1.setRingQ kind q.1).count lostReg q.2.length
    let d3 := { d2 with hif := { d2.hif with lossMarks := putBit d2.hif.lossMarks kind true } }
    if q.2.any (fun r => isCritical kind r.bytes) then d3.sendMsix (d3.fld Fld.HIF_CTRL_ERR_VECTOR) else d3

/-- A record of the event ring, numbered by SEQ whether placed or lost (R465). -/
def Dev.eventRecord (d : Dev) (mk : Nat → Bytes) (groupEnd : Bool := true) : Dev :=
  let d1 := { d with hif := { d.hif with eventSeq := (d.hif.eventSeq + 1) % 2 ^ 32 } }
  d1.enqueue 8 4096 Reg.HIF_EVT_LOST [⟨mk d.hif.eventSeq, groupEnd⟩]

/-- Ring `n` stops: its posted buffers and its claims are given up, and the records of a buffer that is not completed wait again. A record
that buffers completed before hold in part is abandoned, and a loss that no completed buffer has shown stays to be shown (R452, R467). -/
def Dev.haltRing (d : Dev) (n : Nat) : Dev :=
  let r := d.ring n
  let kind := d.fld (Fld.HIF_RINGn_CFG_KIND n)
  let lossy := r.rest.isSome || r.cur.any (fun b => b.contIn || b.loss)
  let d1 := d.setRing n { r with bufs := [], cur := none, rest := none }
  let d2 := match r.cur with
    | none => d1
    | some b => d1.setRingQ kind (b.items ++ d1.ringQ kind)
  let d3 := if lossy then { d2 with hif := { d2.hif with lossMarks := putBit d2.hif.lossMarks kind true } } else d2
  if kind = 4 then { d3 with hif := { d3.hif with stages := [], snapPart := none } } else d3

/-- A ring enters STATE 3 with an error code (R455): the ERR_VECTOR message is sent; the event entry is the caller's. -/
def Dev.ringError (d0 : Dev) (n code : Nat) : Dev :=
  let d := d0.haltRing n
  ((d.setFld (Fld.HIF_RINGn_STAT_STATE n) 3).setFld (Fld.HIF_RINGn_STAT_ERR_CODE n) code).sendMsix
    (d.fld Fld.HIF_CTRL_ERR_VECTOR)

/-! ## Sinter (R498 to R503) -/

/-- Operating seconds now (R498). -/
def Dev.opSec (d : Dev) : Nat := d.snt.opSec + (d.up - d.snt.opAt) / 1000000000

/-- The newest record of the log: the one with the highest SEQ, in the shadow or in MRAM. -/
def SntSt.newest (s : SntSt) : Option SntRec :=
  (s.log ++ s.shadow).foldl (fun m r => match m with | none => some r | some x => if x.seq ≤ r.seq then some r else some x) none

/-- The lowest SEQ held; 0 where no record is. -/
def SntSt.oldest (s : SntSt) : Nat :=
  match (s.log ++ s.shadow).foldl (fun m r => match m with | none => some r | some x => if r.seq < x.seq then some r else some x)
      (none : Option SntRec) with
  | none => 0
  | some r => r.seq

/-- The records without the one numbered `seq`. -/
def dropSeq (seq : Nat) (l : List SntRec) : List SntRec := l.filter (fun r => decide (r.seq ≠ seq))

/-- The victim of R502 for a new record of severity `s`: the oldest record of the lowest severity present, if that is not
above `s`. LOG_CLEARED (0x0F04) and the records numbered in `spared` are never victims. -/
def victimOf (s : Nat) (spared : List Nat) (l : List SntRec) : Option SntRec :=
  let c := l.filter (fun r => decide (r.code ≠ 0x0F04) && !spared.contains r.seq)
  let low := c.foldl (fun m r => min m r.severity) 4
  if low ≤ s then c.find? (fun r => decide (r.severity = low)) else none

/-- A record joins the 512-record shadow under the rule of R502. -/
def Dev.shadowAdd (d : Dev) (r : SntRec) : Dev :=
  if d.snt.shadow.length < 512 then { d with snt := { d.snt with shadow := d.snt.shadow ++ [r] } }
  else
    match victimOf r.severity d.snt.firstFailSeq.toList d.snt.shadow with
    | none => d.count Reg.SNT_DISCARDED
    | some v =>
      let d1 := ({ d with snt := { d.snt with shadow := dropSeq v.seq d.snt.shadow ++ [r] } }).count Reg.SNT_OVERWRITTEN
      if d.bit Fld.SNT_STATUS_MEM_FAIL then
        ({ d1 with snt := { d1.snt with shadowLostNow := d1.snt.shadowLostNow + 1 } }).count Reg.SNT_SHADOW_LOST
      else d1

/-- An event that waits for recorder start joins the shadow under the rule of R502: those that it already holds numbered are older
(R509). -/
def Dev.waitAdd (d : Dev) (r : SntRec) : Dev :=
  let join (x : Dev) : Dev := { x with snt := { x.snt with waiting := x.snt.waiting ++ [r] } }
  if d.snt.waiting.length + d.snt.shadow.length < 512 then join d
  else
    match victimOf r.severity [] (d.snt.shadow ++ d.snt.waiting) with
    | none => d.count Reg.SNT_DISCARDED
    | some v =>
      let held := d.snt.shadow.contains v
      (join { d with snt := { d.snt with
        shadow := if held then dropSeq v.seq d.snt.shadow else d.snt.shadow
        waiting := if held then d.snt.waiting else d.snt.waiting.erase v } }).count Reg.SNT_OVERWRITTEN

/-- The new occurrence folds into the newest record (R503). -/
def Dev.folds (d : Dev) (code sev status index : Nat) (r : SntRec) : Bool :=
  decide (r.code = code) && decide (r.severity = sev) && decide (r.status = status) && decide (r.index = index)
    && d.snt.headAt.any (fun x => decide (d.up < x + d.fld Fld.SNT_CFG_REPEAT_WIN * 1000000)) && decide (r.repeats < 65535)
    && (d.snt.shadow.any (fun x => decide (x.seq = r.seq))
        || (!d.bit Fld.SNT_STATUS_MEM_FAIL && !d.bit Fld.SNT_STATUS_PFW_HOLD))

/-- REPEAT of record `seq` counts one more. -/
def foldInto (seq : Nat) (l : List SntRec) : List SntRec :=
  l.map (fun r => if r.seq = seq then { r with repeats := r.repeats + 1 } else r)

/-- Sinter takes an event that is logged (R499, R501 to R503, R506, R509). -/
def Dev.sinter (d : Dev) (code sev status index arg : Nat) : Dev :=
  let mk (seq : Nat) : SntRec :=
    { seq := seq, code := code, severity := sev, timeSuspect := d.timeSuspect, status := status, index := index,
      timeUs := d.gUs, opSec := d.opSec, powerCycles := d.snt.powerCycles, arg := arg % 2 ^ 32 }
  if sev < d.fld Fld.SNT_CFG_MIN_SEV then d
  else if !d.bit Fld.SNT_STATUS_RUNNING then
    d.waitAdd (mk 0)
  else if d.bit Fld.SNT_STATUS_MEM_FAIL && decide (d.snt.lastCommitted + 2 ^ 24 < d.snt.nextSeq) then
    d.count Reg.SNT_SHADOW_LOST
  else
    match d.snt.newest with
    | some r =>
      if d.folds code sev status index r then
        ({ d with snt := { d.snt with
            shadow := foldInto r.seq d.snt.shadow, log := foldInto r.seq d.snt.log, headAt := some d.up } }).count Reg.SNT_FOLDED
      else ({ d with snt := { d.snt with nextSeq := d.snt.nextSeq + 1, headAt := some d.up } }).shadowAdd (mk d.snt.nextSeq)
    | none => ({ d with snt := { d.snt with nextSeq := d.snt.nextSeq + 1, headAt := some d.up } }).shadowAdd (mk d.snt.nextSeq)

/-! ## Events (R465, R511) -/

/-- The events of R511. -/
inductive Ev where
  | hostReset | ringError
  | unmatchedSource | streamKeyOrphaned | cfgChangePending | streamLost | streamRestored
  | storeRecordLost | ownerDisagree | craterRestart
  | trackerReset
  | feCmdFail | calFault | calHalt
  | detectorChatter
  | nrgSaveFail | nrgInterval | nrgUnsaved | nrgCleared | nrgNoSave
  | cycOverrun | cycFault | stationLost | stationReturned | rioChatter | rioStuck | programSwitch | retLoaded
  | engineRetired | imageSwitch | imageFault | mcDeferLong
  | sfpChange | pnExhausted | macsecKeyOrphaned | sessionKeyOrphaned
  | timeAcquired | domainHoldover | domainFar | domainDisagree | utcOffset
  | viewInstalled | ownershipError
  | rootEnrolled | rootFail | updateRefused | journalReplayed | trngFail
  | memFailed | memRestored | shadowOverflow | logCleared | recorderStarted | powerFailWarning
  | safeState | mgmtStall | errorEscalated | errorOverflow | proofTest
  | startComplete | moduleFound | identityBad | clockJudgedBad
  deriving DecidableEq, Repr

/-- CODE, SEVERITY, sent on the event ring, logged (R511). -/
def Ev.row : Ev → Nat × Nat × Bool × Bool
  | .hostReset => (0x0101, 1, false, true)
  | .ringError => (0x0102, 3, true, false)
  | .unmatchedSource => (0x0201, 0, true, false)
  | .streamKeyOrphaned => (0x0202, 2, true, false)
  | .cfgChangePending => (0x0203, 1, true, false)
  | .streamLost => (0x0204, 2, true, true)
  | .streamRestored => (0x0205, 1, true, true)
  | .storeRecordLost => (0x0301, 3, false, true)
  | .ownerDisagree => (0x0302, 2, false, true)
  | .craterRestart => (0x0303, 2, true, true)
  | .trackerReset => (0x0401, 2, false, true)
  | .feCmdFail => (0x0601, 2, false, true)
  | .calFault => (0x0602, 2, true, true)
  | .calHalt => (0x0603, 3, true, true)
  | .detectorChatter => (0x0701, 1, true, false)
  | .nrgSaveFail => (0x0801, 2, true, false)
  | .nrgInterval => (0x0802, 0, true, false)
  | .nrgUnsaved => (0x0803, 2, false, true)
  | .nrgCleared => (0x0804, 2, false, true)
  | .nrgNoSave => (0x0805, 1, false, true)
  | .cycOverrun => (0x0901, 2, true, false)
  | .cycFault => (0x0902, 3, true, true)
  | .stationLost => (0x0903, 2, true, true)
  | .stationReturned => (0x0904, 1, true, true)
  | .rioChatter => (0x0905, 1, true, false)
  | .rioStuck => (0x0906, 1, true, false)
  | .programSwitch => (0x0907, 1, true, true)
  | .retLoaded => (0x0908, 1, false, true)
  | .engineRetired => (0x0A01, 3, true, true)
  | .imageSwitch => (0x0A02, 1, false, true)
  | .imageFault => (0x0A03, 3, true, true)
  | .mcDeferLong => (0x0A04, 1, true, false)
  | .sfpChange => (0x0B01, 1, true, false)
  | .pnExhausted => (0x0B02, 2, true, false)
  | .macsecKeyOrphaned => (0x0B03, 2, true, false)
  | .sessionKeyOrphaned => (0x0B04, 2, true, false)
  | .timeAcquired => (0x0C01, 1, true, true)
  | .domainHoldover => (0x0C02, 2, true, true)
  | .domainFar => (0x0C03, 2, true, true)
  | .domainDisagree => (0x0C04, 2, true, true)
  | .utcOffset => (0x0C05, 1, false, true)
  | .viewInstalled => (0x0D01, 1, false, true)
  | .ownershipError => (0x0D02, 2, false, true)
  | .rootEnrolled => (0x0E01, 1, false, true)
  | .rootFail => (0x0E02, 3, true, true)
  | .updateRefused => (0x0E03, 1, false, true)
  | .journalReplayed => (0x0E04, 2, false, true)
  | .trngFail => (0x0E05, 3, false, true)
  | .memFailed => (0x0F01, 3, true, true)
  | .memRestored => (0x0F02, 2, true, true)
  | .shadowOverflow => (0x0F03, 2, false, true)
  | .logCleared => (0x0F04, 3, false, true)
  | .recorderStarted => (0x0F05, 0, false, true)
  | .powerFailWarning => (0x0F06, 2, false, true)
  | .safeState => (0x1001, 3, true, true)
  | .mgmtStall => (0x1002, 3, true, true)
  | .errorEscalated => (0x1003, 3, true, true)
  | .errorOverflow => (0x1004, 3, true, true)
  | .proofTest => (0x1005, 0, false, true)
  | .startComplete => (0x1101, 0, true, true)
  | .moduleFound => (0x1102, 0, false, true)
  | .identityBad => (0x1103, 2, true, true)
  | .clockJudgedBad => (0x1104, 3, true, true)

/-- The INDEX of an event that concerns no object. -/
def noIndex : Nat := 0xFFFF

/-- An event entry (R465). -/
def Dev.eventBytes (d : Dev) (code sev status index arg0 arg1 seq : Nat) : Bytes :=
  [0x01, BitVec.ofNat 8 d.deviceNo, BitVec.ofNat 8 (code / 256 + 64 * sev), BitVec.ofNat 8 status] ++
  leBytes 2 code ++ leBytes 2 index ++ gtimeBytes d.g16 ++ leBytes 4 arg0 ++ leBytes 4 arg1 ++ leBytes 4 seq

/-- An event is raised: its entry is sent and its record made, as R511 lists it. -/
def Dev.event (d : Dev) (e : Ev) (index : Nat := noIndex) (arg0 : Nat := 0) (arg1 : Nat := 0) (status : Nat := sOk) : Dev :=
  let row := e.row
  let d1 := if row.2.2.2 then d.sinter row.1 row.2.1 status index arg0 else d
  if row.2.2.1 then d1.eventRecord (d1.eventBytes row.1 row.2.1 status index arg0 arg1) else d1

/-- A ring error with its event, which names the POSTED concerned (R455). -/
def Dev.ringFails (d : Dev) (n code posted : Nat) : Dev := (d.ringError n code).event .ringError n code posted code

/-- The status codes of R14. -/
def statusCodes : List Nat := List.range 15 ++ (List.range 6).map (· + 0x20)

/-- The DMA read of a descriptor of ring `n` fails: the ring enters ERROR (R460). R455 gives no ERR_CODE for that: one of R14's codes, chosen
by a free value (log 16). -/
def Dev.readFails (d : Dev) (n : Nat) : Dev :=
  ({ d with fresh := d.fresh + 1 }.count Reg.HIF_DMA_ERR).ringFails n ((statusCodes[Config.freeNat d.fresh % 21]?).getD sBadDesc)
    (d.regN (Reg.HIF_RINGn_POSTED n))

/-- A fault of a command or key-update descriptor that shows whatever it asks for: a reserved field, ARG_LEN, or an address (R460). -/
def descMalformed (b : Bytes) : Bool :=
  let f (off n : Nat) : Nat := leNat (slice b off n)
  decide (f 6 2 ≠ 0) || decide (f 29 2 ≠ 0) || decide (2 ≤ f 31 1) || decide (f 4 2 % 8 ≠ 0) || decide (f 8 8 % 8 ≠ 0) || decide (f 16 8 % 8 ≠ 0)

/-! ## Ring commands (R456 to R460) -/

/-- What a command's checks and immediate effect answer. -/
inductive CmdRes where
  /-- Completes with a status and RESULT. -/
  | done (status result : Nat)
  /-- Completes with S_OK after a block is written: to a host buffer, or to RES_ADDR where none is named. -/
  | block (bytes : Bytes) (addr : Option Nat)
  /-- Completes at a later event (R459). -/
  | wait (kind : WaitKind)
  deriving DecidableEq, Repr

/-- S_OK with RESULT 0. -/
def CmdRes.ok : CmdRes := .done sOk 0

/-- A completion on a COMMAND ring: written where the ring still runs under the enable of the descriptor (R450, R455). -/
def Dev.complete (d : Dev) (n k session status result addr : Nat) (block : Bytes) : Dev :=
  let r := d.ring n
  let st := d.fld (Fld.HIF_RINGn_STAT_STATE n)
  if r.session ≠ session ∨ st = 0 ∨ st = 3 then d
  else if !d.hostReady then
    { d with hif := { d.hif with heldDone := d.hif.heldDone ++ [⟨n, k, session, status, result, addr, block⟩] } }
  else
    let d1 := if block.isEmpty then d else d.emit (.hostWrite addr block)
    ((d1.setRing n { r with open_ := r.open_.filter (fun j => decide (j ≠ k)) }).emit
      (.completion n k status result (d.phase n k))).countDone n

/-- Ring `n` is a running COMMAND ring with a posted descriptor, and host memory can be read. -/
def Dev.offers (d : Dev) (n : Nat) : Bool := d.runs n 1 && d.hostReady && decide (0 < d.available n)

/-- Commands are accepted from ring `n`: the management cores serve the rings (R475, R524), or the host-interface hardware does in
RESCUE (R533). -/
def Dev.accepts (d : Dev) (n : Nat) : Bool :=
  d.offers n && (d.bit Fld.CLK_STATUS_RESCUE || (d.bit Fld.HIF_STATUS_CMD_READY && !d.bit Fld.SAF_STATUS_MGMT_STALL))

/-- Descriptor `next` of ring `n` is fetched. -/
def Dev.fetch (d : Dev) (n : Nat) : Dev :=
  let r := d.ring n
  d.setRing n { r with next := r.next + 1, open_ := r.open_ ++ [r.next] }

/-- The answer of a command becomes its completion, or its wait. -/
def Dev.answer (d : Dev) (c : Ctx) (k session : Nat) : CmdRes → Dev
  | .done st res => d.complete c.ring k session st res 0 []
  | .block b a =>
    if a.isNone && decide (c.resAddr = 0) then d.complete c.ring k session sBadDesc 0 0 []
    else d.complete c.ring k session sOk b.length (a.getD c.resAddr) b
  | .wait kind =>
    { d with hif := { d.hif with waiting := d.hif.waiting ++ [⟨c.ring, k, session, c.resAddr, kind, d.up, false⟩] } }

/-- A block is clock-gated now (R539). -/
def Dev.gated (d : Dev) (bit : Nat) : Bool := d.fbit Fld.CLK_GATE_STATUS_GATED bit

/-- A command is accepted from its COMMAND ring: its checks and its immediate effect, then its completion or its wait
(R459). `waits` marks a command whose completion its chapter ties to a later event: with 64 commands waiting it
completes with S_BUSY before any of its checks. `gate` is the CLK_GATE bit of its block, if it has one (R539). Where the
ring offers no descriptor no command is accepted, and nothing changes. In RESCUE it completes with S_NOT_VALID (R533). -/
def Dev.accept (d : Dev) (c : Ctx) (waits : Bool) (gate : Option Nat) (f : Dev → Dev × CmdRes) : Dev :=
  if !d.accepts c.ring then d
  else
    let k := (d.ring c.ring).next
    let session := (d.ring c.ring).session
    let d1 := d.fetch c.ring
    if d1.bit Fld.CLK_STATUS_RESCUE then d1.complete c.ring k session sNotValid 0 0 []
    else if waits && decide (64 ≤ d1.hif.waiting.length) then d1.complete c.ring k session sBusy 0 0 []
    else if gate.any d1.gated then d1.complete c.ring k session sGated 0 0 []
    else
      let res := f d1
      res.1.answer c k session res.2

/-- The waiting commands that satisfy `p` complete with a status and RESULT (R459). -/
def Dev.finishWaits (d : Dev) (p : WaitKind → Bool) (status result : Nat) : Dev :=
  let hit := d.hif.waiting.filter (fun w => p w.kind)
  let d1 := { d with hif := { d.hif with waiting := d.hif.waiting.filter (fun w => !p w.kind) } }
  hit.foldl (fun x w => if w.dead then x else x.complete w.ring w.k w.session status result 0 []) d1

/-- A command of the kind waits. -/
def Dev.waitsFor (d : Dev) (p : WaitKind → Bool) : Bool := d.hif.waiting.any (fun w => p w.kind)

/-! ## Writes of Sinter to MRAM (R500, R573) -/

/-- MRAM takes Sinter's writes (R506, R510). -/
def Dev.sntWrites (d : Dev) : Bool :=
  d.bit Fld.SNT_STATUS_RUNNING && !d.bit Fld.SNT_STATUS_MEM_FAIL && !d.bit Fld.SNT_STATUS_PFW_HOLD && !d.bit Fld.SAF_STATUS_MGMT_STALL

/-- The header is to be written: every 60 s. -/
def Dev.headerDue (d : Dev) : Bool := d.sntWrites && decide (d.snt.headerAt + 60000000000 ≤ d.up)

end Sys2Proof.Machine
end

