-- ==== Sys2Proof/Machine/AlarmOps.lean ====
section
/-! DEFINITION. Shared operations of the alarm outputs: transmit queues of the Ethernet ports, express publications, ALM
pins and ALMOK, alarm-ring records, errors and the safe state, and the entry of the cyclic program into FAULT. -/

namespace Sys2Proof.Machine

/-! ## Transmit queues (R361) -/

def Dev.port (d : Dev) (p : Nat) : PortSt := (d.net.ports[p]?).getD {}

def Dev.setPort (d : Dev) (p : Nat) (s : PortSt) : Dev :=
  { d with net := { d.net with ports := modifyAt d.net.ports p (fun _ => s) } }

def Dev.modPort (d : Dev) (p : Nat) (f : PortSt → PortSt) : Dev := d.setPort p (f (d.port p))

/-- Bytes of the frames of a queue. -/
def framesSize (q : List TxFrame) : Nat := q.foldl (fun a f => a + f.size) 0

/-- The oldest frames are overwritten until the queue of 64 KiB holds the rest (R21, R361): the queue and the number
overwritten. -/
def fitQueue : List TxFrame → List TxFrame × Nat
  | [] => ([], 0)
  | f :: t => if framesSize (f :: t) ≤ 65536 then (f :: t, 0) else let r := fitQueue t; (r.1, r.2 + 1)

/-- A frame joins a preemptable queue of a port that runs. -/
def Dev.queueFrame (d : Dev) (p q : Nat) (f : TxFrame) : Dev :=
  if !d.bit (Fld.NET_Pp_STATUS_LINK p) then d.count (Reg.NET_Pp_TX_DROP p)
  else
    let s := d.port p
    let r := fitQueue ((s.queues[q]?).getD [] ++ [f])
    (d.setPort p { s with queues := modifyAt s.queues q (fun _ => r.1) }).count (Reg.NET_Pp_TX_Q_LOST p) r.2

/-- A frame joins the express queue of a port; on a down link it is discarded (R199, R364). -/
def Dev.queueExpress (d : Dev) (p : Nat) (f : TxFrame) : Dev :=
  if !d.bit (Fld.NET_Pp_STATUS_LINK p) then d.count Reg.FUM_EXP_DROP
  else
    let s := d.port p
    let r := fitQueue (s.express ++ [f])
    (d.setPort p { s with express := r.1 }).count (Reg.NET_Pp_TX_Q_LOST p) r.2

/-! ## GOOSE frames (R198, R378) -/

/-- Bytes that a value takes as an ASN.1 INTEGER. -/
def asnIntLen (v : Nat) : Nat :=
  if v < 2 ^ 7 then 1 else if v < 2 ^ 15 then 2 else if v < 2 ^ 23 then 3 else if v < 2 ^ 31 then 4 else 5

/-- A tag, a length and a value of ASN.1 BER. -/
def asnTlv (tag : Nat) (v : Bytes) : Bytes :=
  [BitVec.ofNat 8 tag] ++
  (if v.length < 128 then beBytes 1 v.length else if v.length < 256 then 0x81 :: beBytes 1 v.length else 0x82 :: beBytes 2 v.length) ++ v

def asnInt (tag v : Nat) : Bytes := asnTlv tag (beBytes (asnIntLen v) v)

def gooseValBytes : GooseVal → Bytes
  | .bool b => asnTlv 0x83 (beBytes 1 (b2n b))
  | .dbpos v => asnTlv 0x84 [6, BitVec.ofNat 8 (v * 64)]
  | .int32 v => asnTlv 0x85 (beBytes 4 v.toNat)

/-- The APDU of a GOOSE message, as IEC 61850-8-1 encodes it. -/
def gooseApdu (g : GooseOut) : Bytes :=
  let ns := g.t / 2 ^ 16
  asnTlv 0x61 (asnTlv 0x80 g.gocbRef ++ asnInt 0x81 g.ttlMs ++ asnTlv 0x82 g.datSet ++ asnTlv 0x83 g.goId ++
    asnTlv 0x84 (beBytes 4 (ns / 1000000000) ++ beBytes 3 (ns % 1000000000 * 2 ^ 24 / 1000000000) ++ beBytes 1 (32 * b2n g.notSync)) ++
    asnInt 0x85 g.stNum ++ asnInt 0x86 g.sqNum ++ asnTlv 0x87 (beBytes 1 (b2n (g.test || g.simulation))) ++ asnInt 0x88 g.confRev ++
    asnTlv 0x89 (beBytes 1 (b2n g.ndsCom)) ++ asnInt 0x8A g.members.length ++ asnTlv 0xAB (g.members.flatMap gooseValBytes))

/-- UTC in units of 2⁻¹⁶ ns of a G-time (R408); inside an inserted second the last second of the day repeats (R409). -/
def Dev.utc16 (d : Dev) (g : Nat) : Nat :=
  let sec := 1000000000 * 2 ^ 16
  let off := d.fld Fld.TIM_UTC_OFFSET
  let inserted : Bool := match d.tim.leapAt with
    | some (at_, false) => decide (at_ * sec ≤ g + sec) && decide (g < at_ * sec)
    | _ => false
  if inserted then g - (off + 1) * sec
  else match d.tim.lastLeap with
    | some (at_, false) => if g + sec < at_ * sec then g - (off - 1) * sec else g - off * sec
    | some (at_, true) => if g < at_ * sec then g - (off + 1) * sec else g - off * sec
    | none => g - off * sec

/-- The message of a publication with given values (R198). -/
def Dev.pubFrame (d : Dev) (n : Nat) (p : Pub) (ordinary : Bool) : TxFrame :=
  let ms := ((p.vals).getD []).map GooseVal.bool
  let ttl := 2 * (match p.next with | some (_, nx) => nx | none => p.rtFirst)
  let g : GooseOut :=
    { pub := n, dstMac := p.dstMac, vlan := p.vlanId, appid := p.appid, gocbRef := p.gocbRef, datSet := p.datSet,
      goId := p.goId, ttlMs := ttl, t := d.utc16 p.t, notSync := d.timeSuspect, stNum := p.stNum, sqNum := p.sqNum,
      test := p.test, simulation := p.simulation, confRev := p.confRev, ndsCom := false, members := ms, ordinary := ordinary }
  { size := max 64 (12 + 4 + 2 + 8 + (gooseApdu g).length + (if p.auth then 32 else 0) + 4), body := .goose g,
    vid := some p.vlanId, pcp := p.vlanPri, auth := if p.auth then some p.keySlot else none }

/-- A frame of a publication goes to each port of its mask. -/
def Dev.sendPub (d : Dev) (n : Nat) (p : Pub) (ordinary : Bool) : Dev :=
  (bitsOf 4 p.portMask).foldl (fun x port => x.queueExpress port (x.pubFrame n p ordinary)) d

/-- A number that counts up by one and wraps from 4,294,967,295 to 1 (R198). -/
def bump (v : Nat) : Nat := if v = 2 ^ 32 - 1 then 1 else v + 1

/-- A publication takes a new state with the values given; a schedule follows an ordinary one (R198). -/
def Dev.newState (d : Dev) (n : Nat) (p : Pub) (vals : List Bool) (ordinary : Bool) : Dev :=
  let p' : Pub :=
    { p with stNum := bump p.stNum, sqNum := 0, vals := some vals, t := d.g16,
             next := if ordinary then some (d.up + p.rtFirst * 1000000, p.rtFirst) else none }
  ({ d with fum := { d.fum with pubs := d.fum.pubs.put n p' } }).sendPub n p' ordinary

/-! ## ALM pins (R194 to R196) -/

def Dev.almPins (d : Dev) : Nat := d.fld Fld.FUM_STATUS_PINS

/-- The level of pin `p`: its alarm level is high where ACTIVE_HIGH is 1 (R194); until FUM_CTRL.EN is first set every pin
drives the inactive level of its reset configuration, which is low (R196). -/
def Dev.pinLevel (d : Dev) (p : Nat) : Bool :=
  if !d.fum.driven && !d.bit Fld.SAF_STATUS_SAFE then false
  else if d.almPins.testBit p then d.bit (Fld.FUM_PINp_ACTIVE_HIGH p) else !d.bit (Fld.FUM_PINp_ACTIVE_HIGH p)

/-- PINS of every asserted rule, by the entry that its last decision evaluated. -/
def Dev.wantedPins (d : Dev) : Nat :=
  d.fum.rules.foldl (fun m r => if r.2.out then m ||| ((r.2.used.map (fun e => e.pins)).getD 0) else m) 0

/-- The pins at their alarm level in the safe state (R196). -/
def Dev.safePins (d : Dev) : Nat := maskOf ((List.range 8).filter (fun p => d.bit (Fld.FUM_PINp_SAFE_ALARM p)))

/-- One pin moves to the level of the committed decision, no earlier than the end of MIN_ON (R194). -/
def Dev.updatePin (d : Dev) (want p : Nat) : Dev :=
  let st := (d.fum.pins[p]?).getD {}
  let on := want.testBit p && d.bit (Fld.FUM_PINp_EN p)
  let set (x : PinSt) (level : Bool) : Dev :=
    ({ d with fum := { d.fum with pins := modifyAt d.fum.pins p (fun _ => x) } }).setFbit Fld.FUM_STATUS_PINS p level
  if on then (if st.since.isSome then d else set { since := some d.up } true)
  else match st.since with
    | none => d
    | some t => if t + d.fld (Fld.FUM_PINp_MIN_ON p) * 1000000 ≤ d.up then set { since := none } false else d

/-- The pins follow the committed decision; in the safe state they are at their safe levels. -/
def Dev.updatePins (d : Dev) : Dev :=
  if d.bit Fld.SAF_STATUS_SAFE then d.setFld Fld.FUM_STATUS_PINS d.safePins
  else
    let want := if d.bit Fld.FUM_CTRL_EN then d.wantedPins else 0
    (List.range 8).foldl (fun x p => x.updatePin want p) d

/-! ## ALMOK (R195) -/

/-- Detector engines in service and not under self-test (R191, R193). -/
def Dev.deCount (d : Dev) : Nat := popCount 4 (d.fld Fld.ENG_STATUS_DE_ACTIVE)

/-- The bound within which a decision must have committed: 2 epoch periods and 1.5 ms, in ns. -/
def Dev.almokWindow (d : Dev) : Nat := 2 * 1000000000 / max 1 d.rate + 1500000

/-- Active phasor engines, the joining spare counted. -/
def Dev.activePes (d : Dev) : Nat := popCount 16 (d.fld Fld.ENG_STATUS_PE_ACTIVE) + b2n d.sch.sparePending

/-- ALMOK may be high (R195); with fewer than 12 phasor engines the alarm path has an open fault (R341). -/
def Dev.almokHolds (d : Dev) : Bool :=
  d.bit Fld.FUM_CTRL_EN && d.fum.decidedHere && decide (d.up ≤ d.fum.decidedAt + d.almokWindow) && decide (2 ≤ d.deCount)
    && !d.bit Fld.SAF_STATUS_PATH_FAULT && !d.bit Fld.SAF_STATUS_SAFE && decide (12 ≤ d.activePes)

/-- ALMOK and the engine count take their present values. -/
def Dev.refreshAlmok (d : Dev) : Dev :=
  ((d.setBit Fld.FUM_STATUS_ALMOK d.almokHolds).setFld Fld.FUM_STATUS_DE_COUNT d.deCount).setBit
    Fld.FUM_STATUS_DE_DEGRADED (decide (d.deCount < 2))

/-! ## Alarm-ring records (R204, R205) -/

/-- A rule record or grid record; `flags` is byte 8. SEQ is the alarm path's own record number. -/
def Dev.alarmRecord (d : Dev) (type index short flags qual count value off members : Nat) : Bytes :=
  [BitVec.ofNat 8 type, BitVec.ofNat 8 d.deviceNo] ++ leBytes 2 index ++ leBytes 4 short ++
  [BitVec.ofNat 8 flags, BitVec.ofNat 8 qual, BitVec.ofNat 8 d.almPins, BitVec.ofNat 8 count] ++
  leBytes 4 value ++ leBytes 4 off ++ leBytes 8 members ++ leBytes 4 d.fum.recSeq

def Dev.bumpRecSeq (d : Dev) : Dev := { d with fum := { d.fum with recSeq := (d.fum.recSeq + 1) % 2 ^ 32 } }

/-- The records of one decision go to the alarm ring, whose waiting queue holds 1,024 (R204, R463). -/
def Dev.alarmSend (d : Dev) (recs : List Bytes) : Dev :=
  match recs.reverse with
  | [] => d
  | last :: front => d.enqueue 6 1024 Reg.FUM_RING_LOST ((front.reverse.map (fun b => ⟨b, false⟩)) ++ [⟨last, true⟩])

/-! ## The error queue (R519 to R522) -/

/-- Error classes (R519). -/
def eMemUncorr : Nat := 0x01
def eStoreCheck : Nat := 0x02
def eItemFail : Nat := 0x03
def eSelftest : Nat := 0x04
def eDeDisagree : Nat := 0x05
def eLockstep : Nat := 0x06
def eDecisionLate : Nat := 0x07
def ePin : Nat := 0x08
def eExpress : Nat := 0x09
def eTemp : Nat := 0x0A
def eEngineLoss : Nat := 0x0B
def eProofFail : Nat := 0x0C
def eClock : Nat := 0x0D
def eTimeBase : Nat := 0x0E
def eSupply : Nat := 0x0F
def eMonitor : Nat := 0x10
def eForced : Nat := 0x11
def eOverflow : Nat := 0x12

/-- The initial level of a class; ENGINE_LOSS is raised with its own (R519). -/
def initialLevel (cls : Nat) : Nat := if cls ≤ 0x06 then 1 else if cls ≤ 0x0C then 2 else 3

/-- SAF_STATUS shows the queue. -/
def Dev.refreshSaf (d : Dev) : Dev :=
  ((d.setFld Fld.SAF_STATUS_OPEN d.saf.queue.length).setBit Fld.SAF_STATUS_PATH_FAULT
    (d.saf.queue.any (fun e => decide (2 ≤ e.level)))).refreshAlmok

/-- A publication sends its safe new state and stops its schedule (R198). -/
def Dev.safePub (d : Dev) (e : Nat × Pub) : Dev :=
  if e.2.en then d.newState e.1 e.2 (e.2.members.map (fun _ => e.2.safeAlarm)) false else d

/-- An ordinary new state of an express publication that has not started is withdrawn (R522). -/
def withdrawOrdinary (s : PortSt) : PortSt :=
  { s with express := s.express.filter (fun f => match f.body with | .goose g => !(g.ordinary && decide (g.sqNum = 0)) | _ => true) }

/-- A proof-test run ends: the tests still to run report "interrupted" (R525). -/
def Dev.abortProof (d : Dev) : Dev :=
  match d.saf.proof with
  | none => d
  | some p =>
    let d1 := ((bitsOf 12 p.todo).foldl (fun x t => x.event .proofTest t 2 0) d).finishWaits (fun w => decide (w = .proofRun)) sOk p.fail
    { d1.setBit Fld.SAF_STATUS_PROOF_RUNNING false with saf := { d1.saf with proof := none } }

/-- No program runs that could stop at a boundary: a CYC_SWITCH or CYC_START that waits completes with S_SAFE_STATE as the safe state is entered
(R304, R321). -/
def Dev.dropSwitch (d : Dev) : Dev :=
  ((d.modCyc (fun c => { c with switch := none })).setBit Fld.CYC_STATUS_SWITCH_PEND false).finishWaits
    (fun w => decide (w = .cycStart) || decide (w = .cycSwitch)) sSafeState 0

/-- Entry into the safe state (R522). A program that runs, or whose outputs a STOP holds, stops at the next cycle boundary; FAULT stays
(R304). -/
def Dev.enterSafe (d : Dev) (cls status diag : Nat) : Dev :=
  if d.bit Fld.SAF_STATUS_SAFE then d
  else
    let d1 := (((((d.setBit Fld.SAF_STATUS_SAFE true).setBit Fld.FUM_STATUS_SAFE true).setBit Fld.FUM_STATUS_RUNNING false).setFld
      Fld.SAF_CAUSE_CLASS cls).setFld Fld.SAF_CAUSE_STATUS status).setFld Fld.SAF_CAUSE_DIAG diag
    let d2 := (d1.setBit Fld.SAF_CAUSE_VALID true).setFld Fld.FUM_STATUS_PINS d.safePins
    let holds := d2.cyc.outputsOn && decide (d2.fld Fld.CYC_STATUS_STATE = 0)
    let d3 := { d2 with
      net := { d2.net with ports := d2.net.ports.map withdrawOrdinary }
      fum := { d2.fum with ownVote := none }
      cyc := { d2.cyc with stopReq := if d2.cyc.running || holds then some 2 else d2.cyc.stopReq } }
    let d4 := d3.fum.pubs.foldl Dev.safePub d3
    let d5 := if d4.cyc.running || d4.cyc.outputsOn then d4 else d4.setFld Fld.CYC_STATUS_STATE 3
    let d6 := (d5.alarmSend [d5.alarmRecord 0x06 0xFFFF (d5.fum.decided.getD 0 % 2 ^ 32) 32 0 0 0 0 0]).bumpRecSeq
    let d7 := (d6.event .safeState cls (status + 256 * diag) d.saf.queue.length status).abortProof.refreshAlmok
    if d.cyc.running || holds then d7 else d7.dropSwitch

/-- Recovery at level 1 that is complete as soon as the error is raised, and conditions that do not last (R519, R520). -/
def recoversAtOnce (cls index : Nat) : Bool :=
  cls = eMemUncorr || cls = eStoreCheck || cls = eItemFail || cls = eSelftest || (cls = eLockstep && decide (index = 0))

/-- An error is raised to the safety monitor at a level (R521). `diag` is the diagnostic that found it. -/
def Dev.raiseAt (d : Dev) (cls index status diag level : Nat) : Dev :=
  let d1 := d.count Reg.SAF_ERRORS
  if 16 ≤ d1.saf.queue.length then
    ((d1.count Reg.SAF_OVERFLOWS).event .errorOverflow noIndex cls index).enterSafe eOverflow status 0xFF
  else
    let top := d1.saf.queue.foldl (fun m e => if e.cls = cls then max m e.level else m) 0
    let lv := if top = 0 then level else min 3 (top + 1)
    let st := if top = 0 then status else sEscalated
    let e : ErrEntry :=
      { seq := d1.saf.seq, cls := cls, level := lv, status := st, index := index, diag := diag, timeUs := d1.gUs,
        clearAt := if recoversAtOnce cls index ∧ lv < 3 then some d1.up else none }
    let d2 := { d1 with saf := { d1.saf with
      queue := d1.saf.queue ++ [e]
      seq := (d1.saf.seq + 1) % 2 ^ 32
      recoveryTests :=
        (if cls = eDeDisagree ∧ lv = 1 then (bitsOf 4 (d1.fld Fld.ENG_STATUS_DE_ACTIVE)).take 2 else d1.saf.recoveryTests)
      mcRestart := d1.saf.mcRestart || (cls = eLockstep && decide (index = 1) && decide (lv = 1)) } }
    let d3 := if top = 0 then d2 else (d2.count Reg.SAF_ESCALATIONS).event .errorEscalated cls lv index st
    let d4 := d3.refreshSaf
    if lv = 3 then d4.enterSafe cls st diag else d4

/-- An error is raised at the initial level of its class. -/
def Dev.raise (d : Dev) (cls index : Nat) (diag : Nat := 0xFF) (status : Nat := sOk) : Dev :=
  d.raiseAt cls index status diag (initialLevel cls)

/-- The condition or the recovery of the entries of a class and INDEX below a level is over: CLOSE_MS runs from now (R520). -/
def Dev.clears (d : Dev) (cls index : Nat) (below : Nat := 3) : Dev :=
  { d with saf := { d.saf with queue := d.saf.queue.map (fun e =>
      if e.cls = cls ∧ e.index = index ∧ e.level < below ∧ e.clearAt.isNone then { e with clearAt := some d.up } else e) } }

/-! ## The cyclic program stops (R293, R303, R304) -/

/-- The flags of the cyclic program take effect at an output write (R302). -/
def Dev.setCycFlags (d : Dev) (v : Nat) : Dev :=
  d.setRegN Reg.FUM_CYC_FLAGS v

/-- The program halts in FAULT (cause 0 or 1), in STOP entered with MODE 1 (cause 2), or for the safe state (R304). The
spec lists no cause for the safe state: that argument is a free value. A CYC_SWITCH to come stays pending, but for the safe state, where it
completes with S_SAFE_STATE (log 70). -/
def Dev.cycHalt (d : Dev) (state : Nat) (cause : Option Nat) : Dev :=
  let c := d.cyc
  let d1 := { d with cyc := { c with
    running := false, failsafe := true, executing := false, stopReq := none, switch := if state = 3 then none else c.switch } }
  let d2 := ((d1.setCycFlags 0).setFld Fld.CYC_STATUS_STATE state).setBit Fld.CYC_STATUS_SWITCH_PEND d1.cyc.switch.isSome
  let d3 : Nat × Dev := match cause with | some n => (n, d2) | none => d2.draw
  let d4 := d3.2.event .cycFault noIndex (d.regN Reg.CYC_CYCLES_LO) d3.1
  if state = 3 then d4.finishWaits (fun w => decide (w = .cycStart) || decide (w = .cycSwitch)) sSafeState 0 else d4

end Sys2Proof.Machine
end

