-- ==== Sys2Proof/Machine/Records.lean ====
section
/-! DEFINITION. The byte forms of records, manifests, summary entries, amendments and fabric messages. -/

namespace Sys2Proof

open Sys2Proof.Machine

/-- A number in `n` bytes, most or least significant first: R4 gives Turran's wire protocols the first order and
structures in DDR5 and host memory the second. -/
def intBytes (msb : Bool) (n v : Nat) : Bytes := if msb then beBytes n v else leBytes n v

/-- The two-bit validities of a channel's samples, four to a byte, sample 0 in bits 1:0 (R131). -/
def packValidity : List Nat → Bytes
  | [] => []
  | [a] => [BitVec.ofNat 8 a]
  | [a, b] => [BitVec.ofNat 8 (a + 4 * b)]
  | [a, b, c] => [BitVec.ofNat 8 (a + 4 * b + 16 * c)]
  | a :: b :: c :: e :: t => BitVec.ofNat 8 (a + 4 * b + 16 * c + 64 * e) :: packValidity t

/-- A bitmap of flags, flag 0 in bit 0 of byte 0. -/
def packBits : List Bool → Bytes
  | a :: b :: c :: e :: f :: g :: h :: i :: t =>
    BitVec.ofNat 8 (b2n a + 2 * b2n b + 4 * b2n c + 8 * b2n e + 16 * b2n f + 32 * b2n g + 64 * b2n h + 128 * b2n i) ::
      packBits t
  | [] => []
  | l => [BitVec.ofNat 8 (l.foldr (fun x m => b2n x + 2 * m) 0)]

/-- The value bytes of a record (R131). -/
def RecBody.bytes (msb : Bool) : RecBody → Bytes
  | .empty => []
  | .slots vals => vals.flatMap (fun v => intBytes msb 4 v.1.toNat ++ intBytes msb 4 v.2.toNat)
  | .samples got vals =>
    padTo 8 (packBits got) ++
    vals.flatMap (fun ch => padTo 8 (ch.flatMap (fun x => intBytes msb 4 x.1.toNat) ++ packValidity (ch.map (fun x => x.2))))

/-- A per-stream record (R130). -/
def Rec.bytes (msb : Bool) (r : Rec) : Bytes :=
  let body := r.body.bytes msb
  intBytes msb 2 r.stream ++ [BitVec.ofNat 8 r.qual, BitVec.ofNat 8 r.type] ++ intBytes msb 4 (16 + body.length) ++
  intBytes msb 4 (toTwos 32 r.tOff) ++ [BitVec.ofNat 8 r.nchan, BitVec.ofNat 8 r.origin] ++ intBytes msb 2 r.nsamp ++ body

/-- VCRC: the CRC-32 of a record's value fields, 0 for an empty record (R118). DESIGN CHOICE, log 131: the fields stand least
significant byte first, as in a delivered record; R118 names no byte order for them. -/
def Rec.vcrc (r : Rec) : Nat := match r.body with | .empty => 0 | b => crc32 (b.bytes false)

/-- A summary entry (R129). -/
def SumEntry.bytes (msb : Bool) (e : SumEntry) : Bytes :=
  [BitVec.ofNat 8 e.publisher, BitVec.ofNat 8 e.index, BitVec.ofNat 8 e.qual, BitVec.ofNat 8 e.kind] ++
  intBytes msb 2 e.stream ++ intBytes msb 2 e.slot ++ intBytes msb 4 e.valueA.toNat ++ intBytes msb 4 e.valueB.toNat

/-- An amendment record (R134): in host memory, or most significant byte first on the fabric (R4). -/
def Amendment.bytes (msb : Bool) (a : Amendment) : Bytes :=
  let rec' := a.record.bytes msb
  [0x02, BitVec.ofNat 8 a.src, 0, 0] ++ intBytes msb 4 (32 + rec'.length) ++ intBytes msb 4 a.shortEpoch ++
  intBytes msb 2 a.record.stream ++ [BitVec.ofNat 8 a.primary, BitVec.ofNat 8 a.origQual] ++
  (if msb then (gtimeBytes a.arrival).reverse else gtimeBytes a.arrival) ++
  intBytes msb 4 a.lateness ++ rec'

/-- A message with its CRC-32 inserted after `off` bytes, computed with that field as 0 (R118, R200). -/
def withCrc (off : Nat) (b : Bytes) : Bytes :=
  b.take off ++ beBytes 4 (crc32 (b.take off ++ zeros 4 ++ b.drop off)) ++ b.drop off

/-- A seal manifest (R118). -/
def Manifest.bytes (m : Manifest) : Bytes :=
  withCrc 28 ([0x31, BitVec.ofNat 8 m.device] ++
    beBytes 2 (b2n m.early + 2 * b2n m.timeSuspect + 4 * b2n m.forwarded) ++ beBytes 4 m.view ++ beBytes 8 m.epoch ++
    beBytes 4 m.entries.length ++ beBytes 2 m.sums.length ++ zeros 6 ++
    m.entries.flatMap (fun e =>
      beBytes 2 (e.stream + 32768 * b2n e.mirror) ++ [BitVec.ofNat 8 e.qual, BitVec.ofNat 8 e.partner] ++ beBytes 4 e.vcrc) ++
    m.sums.flatMap (SumEntry.bytes true))

/-- A VOTE or GRID_STATE message (R200). -/
def VoteMsg.bytes (type dev : Nat) (v : VoteMsg) : Bytes :=
  withCrc 28 ([BitVec.ofNat 8 type, BitVec.ofNat 8 dev, 0, 0] ++ beBytes 4 v.shortEpoch ++ beBytes 4 v.groups ++
    [BitVec.ofNat 8 (b2n v.island), 0, 0, 0] ++ beBytes 8 v.islMembers ++ beBytes 4 v.view)

/-- MSG_TYPE (R116, R200, R422). -/
def FabMsg.type : FabMsg → Nat
  | .hello _ => 0x01 | .lsa _ _ => 0x02 | .heartbeat _ => 0x03 | .e2eAck _ _ => 0x04
  | .suspect _ _ => 0x10 | .state _ _ _ => 0x11 | .newView _ => 0x12 | .fwdDone _ _ => 0x13
  | .joinReq _ _ _ _ => 0x14 | .depart _ => 0x15 | .summit _ => 0x20 | .timeReport _ _ => 0x22 | .timeSel _ => 0x23
  | .manifest _ => 0x31 | .pairHave _ _ => 0x32 | .pairRec _ _ => 0x33 | .pairDone _ _ => 0x34 | .pairAck _ _ => 0x35
  | .mirrorRec _ _ => 0x36 | .amendFwd _ => 0x37 | .histReq _ _ _ => 0x38 | .histRec _ _ _ => 0x39
  | .vote _ => 0x40 | .gridState _ => 0x41

/-- The virtual channel of a message (R421, R422). -/
def FabMsg.vc : FabMsg → Nat
  | .vote _ | .gridState _ => 0
  | .manifest _ | .pairHave _ _ | .pairRec _ _ | .pairDone _ _ | .pairAck _ _ | .mirrorRec _ _ | .amendFwd _ => 2
  | .histReq _ _ _ | .histRec _ _ _ => 3
  | _ => 1

/-- The bytes of a fabric message, most significant byte first (R4, R422). DESIGN CHOICE, log 132: the epoch number and the
record count of R116's messages take 8 and 4 bytes; R116 names no width for them. -/
def FabMsg.bytes (dev : Nat) (m : FabMsg) : Bytes :=
  let head : Bytes := [BitVec.ofNat 8 m.type, BitVec.ofNat 8 dev, 0, 0]
  match m with
  | .hello h =>
    head ++ beBytes 2 h.fabricId ++ beBytes 1 h.link ++ beBytes 1 h.rate ++ beBytes 2 h.wait ++ beBytes 1 h.rev ++
      beBytes 1 (b2n h.joined) ++ beBytes 4 h.view ++ beBytes 8 h.members
  | .lsa seq links =>
    head ++ beBytes 4 seq ++ links.flatMap (fun l => beBytes 1 l.peer ++ beBytes 1 l.peerLink ++ beBytes 1 (b2n l.up) ++ beBytes 1 l.width)
  | .heartbeat v => head ++ beBytes 4 v
  | .e2eAck vc last => head ++ beBytes 1 vc ++ zeros 3 ++ beBytes 2 last ++ zeros 2
  | .suspect v s => head ++ beBytes 4 v ++ beBytes 8 s
  | .state v u s => head ++ beBytes 4 v ++ beBytes 8 u ++ beBytes 8 s
  | .newView v =>
    head ++ beBytes 4 v.view ++ beBytes 4 v.prevView ++ beBytes 8 v.fromEpoch ++ beBytes 8 v.members ++
      beBytes 1 v.summit ++ beBytes 1 (b2n v.minority) ++ zeros 2
  | .fwdDone v n => head ++ beBytes 4 v ++ beBytes 4 n
  | .joinReq r w rev n => head ++ beBytes 1 r ++ beBytes 2 w ++ beBytes 1 rev ++ beBytes 4 n
  | .depart r => head ++ beBytes 1 r ++ zeros 3
  | .summit v => head ++ beBytes 4 v
  | .timeReport a b => head ++ beBytes 1 a ++ beBytes 1 b ++ zeros 2
  | .timeSel x => head ++ beBytes 1 x ++ zeros 3
  | .pairHave e ss => head ++ beBytes 8 e ++ ss.flatMap (beBytes 2)
  | .pairRec e r => head ++ beBytes 8 e ++ r.bytes true
  | .pairDone e n => head ++ beBytes 8 e ++ beBytes 4 n
  | .pairAck e n => head ++ beBytes 8 e ++ beBytes 4 n
  | .manifest x => x.bytes
  | .mirrorRec e r => head ++ beBytes 8 e ++ r.bytes true
  | .amendFwd a => head ++ a.bytes true
  | .histReq a b ss => head ++ beBytes 8 a ++ beBytes 8 b ++ ss.flatMap (beBytes 2)
  | .histRec e n r => head ++ beBytes 8 e ++ beBytes 1 n ++ zeros 3 ++ r.bytes true
  | .vote v => v.bytes 0x40 dev
  | .gridState v => v.bytes 0x41 dev

end Sys2Proof
end

