-- ==== Sys2Proof/Machine/FabOps.lean ====
section
/-! DEFINITION. Shared operations of the fabric: routes, the link layer, messages from end to end, suspicion, view
changes and the election of the summit (R416 to R446). -/

namespace Sys2Proof

open Sys2Proof.Machine

/-! ## Link packets (R418): a header of 16 bytes, the payload, and a CRC-32 over both -/

/-- Bits `n` to `n + w - 1` of a big-endian field of `k` bytes at byte `at'` of a packet. -/
def LinkPacket.fieldAt (p : LinkPacket) (at' k n w : Nat) : Nat := beNat (slice p.bytes at' k) / 2 ^ n % 2 ^ w

def LinkPacket.vc (p : LinkPacket) : Nat := p.fieldAt 0 2 14 2
def LinkPacket.kind (p : LinkPacket) : Nat := p.fieldAt 0 2 12 2
def LinkPacket.seq (p : LinkPacket) : Nat := p.fieldAt 0 2 0 12
def LinkPacket.ackSeq (p : LinkPacket) : Nat := p.fieldAt 2 2 0 12
def LinkPacket.nak (p : LinkPacket) : Bool := decide (p.fieldAt 2 2 12 1 = 1)
def LinkPacket.dst (p : LinkPacket) : Nat := p.fieldAt 4 1 0 6
def LinkPacket.src (p : LinkPacket) : Nat := p.fieldAt 5 1 0 6
def LinkPacket.hopsLeft (p : LinkPacket) : Nat := p.fieldAt 6 1 0 3
def LinkPacket.first (p : LinkPacket) : Bool := decide (p.fieldAt 6 1 3 1 = 1)
def LinkPacket.last (p : LinkPacket) : Bool := decide (p.fieldAt 6 1 4 1 = 1)
def LinkPacket.crVc (p : LinkPacket) : Nat := p.fieldAt 7 1 0 2
def LinkPacket.credits (p : LinkPacket) : Nat := p.fieldAt 8 2 0 16
def LinkPacket.len (p : LinkPacket) : Nat := p.fieldAt 10 2 0 12
def LinkPacket.msgSeq (p : LinkPacket) : Nat := p.fieldAt 12 2 0 16
def LinkPacket.payload (p : LinkPacket) : Bytes := slice p.bytes 16 p.len

/-- The packet has the length its header gives, and its CRC is right. -/
def LinkPacket.crcOk (p : LinkPacket) : Bool :=
  decide (p.bytes.length = 20 + p.len) && decide (crc32 (p.bytes.take (16 + p.len)) = beNat (p.bytes.drop (16 + p.len)))

end Sys2Proof

namespace Sys2Proof.Machine

open Sys2Proof

/-- What a packet tells its receiver of the other direction (R418): the acknowledgement, NAK, and the credits returned. -/
structure LinkReturn where
  ackSeq : Nat
  nak : Bool := false
  crVc : Nat := 0
  credits : Nat := 0
  deriving DecidableEq, Repr

/-- The bytes of a link packet (R418). -/
def SentPkt.bytesOf (p : SentPkt) (kind : Nat) (r : LinkReturn) : Bytes :=
  let b := beBytes 2 (16384 * p.vc + 4096 * kind + p.seq) ++ beBytes 2 (r.ackSeq + 4096 * b2n r.nak) ++ beBytes 1 p.dst ++ beBytes 1 p.src ++
    beBytes 1 (p.hops + 8 * b2n p.first + 16 * b2n p.last) ++ beBytes 1 r.crVc ++ beBytes 2 r.credits ++ beBytes 2 p.payload.length ++
    beBytes 2 p.msgSeq ++ zeros 2 ++ p.payload
  b ++ beBytes 4 (crc32 b)

/-- The bytes of a message fragment. -/
def SentPkt.bytes (p : SentPkt) (r : LinkReturn) : Bytes := p.bytesOf 0 r

/-- Payload bytes (LEN). -/
def SentPkt.len (p : SentPkt) : Nat := p.payload.length

/-! ## Links -/

def Dev.link (d : Dev) (l : Nat) : LinkSt := (d.fab.links[l]?).getD {}

def Dev.setLink (d : Dev) (l : Nat) (s : LinkSt) : Dev :=
  { d with fab := { d.fab with links := modifyAt d.fab.links l (fun _ => s) } }

def Dev.modLink (d : Dev) (l : Nat) (f : LinkSt → LinkSt) : Dev := d.setLink l (f (d.link l))

def Dev.linkState (d : Dev) (l : Nat) : Nat := d.fld (Fld.FAB_Ln_STATUS_STATE l)

def Dev.setLinkState (d : Dev) (l v : Nat) : Dev := d.setFld (Fld.FAB_Ln_STATUS_STATE l) v

/-- The link carries messages (R427). -/
def Dev.linkUp (d : Dev) (l : Nat) : Bool := decide (d.linkState l = 3)

/-- Lane rates of a width state added up, in b/s (R416). -/
def lanesRate (w : Nat) : Nat :=
  if w = 0 then 10312500000 else if w = 1 then 28125000000 else if w = 2 then 56250000000 else 112500000000

/-- The widest state that the good lanes allow (R424). -/
def widestOf (failed : Nat) : Nat :=
  let good := 4 - popCount 4 failed
  if good = 4 then 3 else if 2 ≤ good then 2 else 1

/-- `bytes` in a window of `ns` exceed `pct` percent of the data capacity of a width state; data capacity is 32/33 of the
lane rate (R417). -/
def exceeds (bytes ns pct w : Nat) : Bool := decide (pct * lanesRate w * 32 * ns < bytes * 8 * 1000000000 * 100 * 33)

/-- The traffic of a window is below the limit. -/
def below (bytes ns pct w : Nat) : Bool := decide (bytes * 8 * 1000000000 * 100 * 33 < pct * lanesRate w * 32 * ns)

/-- A link starts to grow (R425): one state, or straight to L4. -/
def Dev.startGrow (d : Dev) (l : Nat) (straight : Bool) : Dev :=
  let w := d.fld (Fld.FAB_Ln_STATUS_WIDTH l)
  let top := widestOf (d.fld (Fld.FAB_Ln_STATUS_LANE_FAIL l))
  if d.linkUp l && decide (w < top) then
    d.modLink l (fun s => { s with grow := some (max (s.grow.getD 0) (if straight then top else w + 1)) })
  else d

/-- Bytes of a virtual channel that wait on a link. -/
def LinkSt.queued (s : LinkSt) (vc : Nat) : Nat :=
  (s.queue.filter (fun p => decide (p.vc = vc))).foldl (fun a p => a + p.len) 0

/-- The windows of R425 take `n` bytes sent now, and growth starts where they ask for it. -/
def Dev.countTraffic (d : Dev) (l n : Nat) : Dev :=
  let s := d.link l
  let w := d.fld (Fld.FAB_Ln_STATUS_WIDTH l)
  let ms := d.up / 1000000
  let us := d.up / 10000
  let winBytes := if s.win = ms then s.winBytes + n else n
  let prev := if s.win = ms then s.prevBytes else if s.win + 1 = ms then s.winBytes else 0
  let b10 := if s.win10 = us then s.bytes10 + n else n
  let quiet := below winBytes 1000000 (d.fld Fld.FAB_SHED_SHED_PCT) (w - 1)
  let d1 := d.setLink l { s with
    win := ms, winBytes := winBytes, prevBytes := prev, win10 := us, bytes10 := b10,
    quietFrom := if quiet then s.quietFrom else ms + 1 }
  if exceeds b10 10000 (d.fld Fld.FAB_SHED_GROW_PCT) w || decide (16384 < s.queued 2) || decide (16384 < s.queued 3) then
    d1.startGrow l false
  else d1

/-- What the next packet on a link returns to its partner: the credits owed of the first channel that owes some. -/
def LinkSt.returns (s : LinkSt) (nak : Bool) : LinkReturn :=
  match s.owed.findIdx? (fun n => decide (0 < n)) with
  | some vc => { ackSeq := s.rxSeq, nak := nak, crVc := vc, credits := min 65535 (s.owed.getD vc 0) }
  | none => { ackSeq := s.rxSeq, nak := nak }

/-- The credits that a packet carries are no longer owed. -/
def LinkSt.paid (s : LinkSt) (r : LinkReturn) : LinkSt := { s with owed := modifyAt s.owed r.crVc (fun n => n - r.credits) }

/-- A link control packet (R418). DESIGN CHOICE, log 166: its VC is 0, its SEQ that of the next message packet, HOPS_LEFT 6, FIRST and LAST 1
and MSG_SEQ 0; R418 gives it no values of its own for them. -/
def Dev.controlPkt (d : Dev) (l : Nat) (payload : Bytes) : SentPkt :=
  { seq := (d.link l).txSeq, vc := 0, dst := d.fld (Fld.FAB_Ln_STATUS_PEER l), src := d.deviceNo, hops := 6, msgSeq := 0, first := true, last := true,
    payload := payload }

/-- A link control packet goes out (R418 to R420): an acknowledgement or NAK with the credits owed, or the signal of a width change. It is
not numbered among the packets that are retried. -/
def Dev.sendControl (d : Dev) (l : Nat) (nak : Bool) (payload : Bytes) : Dev :=
  let s := d.link l
  let r := s.returns nak
  ((d.setLink l (s.paid r)).countTraffic l (20 + payload.length)).emit (.linkPkt l ((d.controlPkt l payload).bytesOf 1 r) false)

/-- A message of one link, HELLO or LSA, goes out on it. -/
def Dev.sendOnLink (d : Dev) (l src : Nat) (m : FabMsg) : Dev := (d.countTraffic l (20 + (m.bytes src).length)).emit (.linkMsg l src m)

/-- Percent of the present capacity used in the last 1 ms. -/
def Dev.util (d : Dev) (l : Nat) : Nat :=
  let s := d.link l
  let ms := d.up / 1000000
  let b := if s.win = ms then s.prevBytes else if s.win + 1 = ms then s.winBytes else 0
  min 100 (b * 8 * 1000 * 100 * 33 / (lanesRate (d.fld (Fld.FAB_Ln_STATUS_WIDTH l)) * 32))

/-- Bytes of a packet on the link: header, payload and CRC (R418). -/
def pktBytes (len : Nat) : Nat := 20 + len

/-- Credits a packet takes, in units of 64 bytes (R420). -/
def creditsOf (len : Nat) : Nat := (pktBytes len + 63) / 64

def headOf (q : List SentPkt) (vc : Nat) : Option SentPkt := q.find? (fun p => decide (p.vc = vc))

def dropHead (q : List SentPkt) (vc : Nat) : List SentPkt := q.eraseP (fun p => decide (p.vc = vc))

/-- The virtual channel of VC2 and VC3 that deficit round robin serves next, with weights 4 to 1 (R421), where each has
credits for its head. `fuel` bounds the turns. -/
def drrPick (h2 h3 : Option SentPkt) : Nat → LinkSt → Option Nat × LinkSt
  | 0, s => (none, s)
  | fuel + 1, s =>
    let q : Nat := 2068
    let def2 := (s.deficit[0]?).getD 0
    let def3 := (s.deficit[1]?).getD 0
    match h2, h3 with
    | none, none => (none, { s with deficit := [0, 0], turn3 := false })
    | some _, none => (some 2, { s with deficit := [def2, 0], turn3 := false })
    | none, some _ => (some 3, { s with deficit := [0, def3], turn3 := true })
    | some a, some b =>
      if s.turn3 then
        if pktBytes b.len ≤ def3 then (some 3, { s with deficit := [def2, def3 - pktBytes b.len] })
        else drrPick h2 h3 fuel { s with turn3 := false, deficit := [def2 + 4 * q, def3] }
      else
        if pktBytes a.len ≤ def2 then (some 2, { s with deficit := [def2 - pktBytes a.len, def3] })
        else drrPick h2 h3 fuel { s with turn3 := true, deficit := [def2, def3 + q] }

/-- The head of a virtual channel, where the credits held cover it. -/
def LinkSt.ready (s : LinkSt) (vc : Nat) : Option SentPkt :=
  (headOf s.queue vc).filter (fun p => decide (creditsOf p.len ≤ (s.credits[vc]?).getD 0))

/-- The next packet to start: VC0, then VC1, then VC2 and VC3 in turn (R421). -/
def LinkSt.pick (s : LinkSt) : Option SentPkt × LinkSt :=
  match s.ready 0 with
  | some p => (some p, s)
  | none => match s.ready 1 with
    | some p => (some p, s)
    | none =>
      let r := drrPick (s.ready 2) (s.ready 3) 8 s
      match r.1 with | some vc => (s.ready vc, r.2) | none => (none, r.2)

/-- Bytes in a link's replay buffer of 64 KiB (R419). -/
def LinkSt.replayBytes (s : LinkSt) : Nat := s.replay.foldl (fun a p => a + pktBytes p.len) 0

/-- Room in the receive buffer of a link is free again (R420). -/
def Dev.freeBuffer (d : Dev) (inl : Option Nat) (vc n : Nat) : Dev :=
  match inl with
  | none => d
  | some m => d.modLink m (fun s => { s with owed := modifyAt s.owed vc (fun c => c + n) })

/-- The credits that a link owes go to its partner. -/
def Dev.returnCredits (d : Dev) (inl : Option Nat) : Dev :=
  match inl with
  | none => d
  | some m => if d.linkUp m && (d.link m).owed.any (fun n => decide (0 < n)) then d.sendControl m false [] else d

/-- Packets start on a link for as long as the replay buffer and the credits allow. A forwarded packet that starts leaves the receive buffer
of the link it came by. -/
def Dev.pumpLink (l : Nat) : Nat → Dev → Dev
  | 0, d => d
  | fuel + 1, d =>
    let s := d.link l
    if !d.linkUp l then d
    else
      let r := s.pick
      match r.1 with
      | none => d.setLink l r.2
      | some p =>
        if 65536 < s.replayBytes + pktBytes p.len then d
        else
          let p' := { p with seq := s.txSeq, inl := none }
          let ret := s.returns false
          let s' := { r.2.paid ret with
            queue := dropHead s.queue p.vc, replay := s.replay ++ [p'], txSeq := (s.txSeq + 1) % 4096,
            credits := modifyAt s.credits p.vc (fun c => c - creditsOf p.len),
            ackAt := if s.replay.isEmpty then d.up else s.ackAt }
          let d1 := (((d.setLink l s').countTraffic l (pktBytes p.len)).emit (.linkPkt l (p'.bytes ret) false)).freeBuffer p.inl p.vc
            (creditsOf p.len)
          Dev.pumpLink l fuel (d1.returnCredits p.inl)

def Dev.pumpAll (d : Dev) (l : Nat) : Dev := Dev.pumpLink l ((d.link l).queue.length + 1) d

/-- The fragments of the bytes of a message of a virtual channel, each of a multiple of 4 bytes, and whether it is the last
(R418, R421). -/
def fragments (vc : Nat) : Nat → Bytes → List (Bytes × Bool)
  | 0, _ => []
  | fuel + 1, b =>
    let top := if vc = 0 then 64 else 2048
    if b.length ≤ top then [(padTo 4 b, true)] else (b.take top, false) :: fragments vc fuel (b.drop top)

/-! ## Routes (R428, R429) -/

/-- The devices whose links a device's LSA shows up, as a mask. -/
def lsaPeers (t : Tbl LsaSt) (a : Nat) : Nat :=
  match t.find a with | none => 0 | some s => maskOf ((s.links.filter (fun l => l.up)).map (fun l => l.peer % 64))

/-- The devices one hop beyond a set, without this device. -/
def spread (t : Tbl LsaSt) (self m : Nat) : Nat :=
  putBit ((bitsOf 64 m).foldl (fun acc a => acc ||| lsaPeers t a) m) self false

/-- The devices within 1, 2, … hops by way of one peer. -/
def levels (t : Tbl LsaSt) (self : Nat) : Nat → Nat → List Nat
  | 0, _ => []
  | fuel + 1, m => m :: levels t self fuel (spread t self m)

/-- Hops to a device over the levels of one link; a route longer than 6 hops is never used. -/
def hopsIn (lv : List Nat) (dst : Nat) : Option Nat := (lv.findIdx? (fun m => m.testBit dst)).map (· + 1)

/-- The route of fewest hops, ties to the lower next device and then the lower link. -/
def bestRoute (l : List Route) : Option Route :=
  l.foldl (fun m r =>
    match m with
    | none => some r
    | some x =>
      if r.hops < x.hops ∨ (r.hops = x.hops ∧ (r.next < x.next ∨ (r.next = x.next ∧ r.link < x.link))) then some r else some x) none

/-- The peers of the links that are up, with what lies behind each. -/
def Dev.linkLevels (d : Dev) : List (Nat × Nat × List Nat) :=
  ((List.range 6).filter (fun l => d.linkUp l)).map (fun l =>
    let p := d.fld (Fld.FAB_Ln_STATUS_PEER l)
    (l, p, levels d.fab.lsas d.deviceNo 6 (maskOf [p])))

/-- Every route to a device by a link that is up. -/
def routesTo (ll : List (Nat × Nat × List Nat)) (dst : Nat) : List Route :=
  ll.filterMap (fun x => (hopsIn x.2.2 dst).map (fun h => { link := x.1, hops := h, next := x.2.1 }))

/-- Primary and alternate routes of all devices. -/
def Dev.computeRoutes (d : Dev) : Tbl Route × Tbl Route :=
  let ll := d.linkLevels
  let one (dst : Nat) : Option Route × Option Route :=
    if dst = d.deviceNo then (none, none)
    else
      let rs := routesTo ll dst
      match bestRoute rs with
      | none => (none, none)
      | some p => (some p, bestRoute (rs.filter (fun r => decide (r.link ≠ p.link))))
  ((List.range 64).filterMap (fun n => (one n).1.map (fun r => (n, r))),
   (List.range 64).filterMap (fun n => (one n).2.map (fun r => (n, r))))

/-- The device can be reached. -/
def Dev.reach (d : Dev) (dst : Nat) : Bool := (d.fab.primary.find dst).isSome

/-! ## Messages from end to end (R423) -/

/-- Key of a device and a virtual channel in the tables of message numbers. -/
def vcKey (dev vc : Nat) : Nat := 4 * dev + vc

/-- A packet joins the queue of the route to its destination; without one it is lost. -/
def Dev.enqueuePkt (d : Dev) (p : SentPkt) : Dev :=
  match d.fab.primary.find p.dst with
  | none => d.freeBuffer p.inl p.vc (creditsOf p.len)
  | some r =>
    let d1 := (d.modLink r.link (fun s => { s with queue := s.queue ++ [p] })).pumpAll r.link
    if 16384 < (d1.link r.link).queued 2 ∨ 16384 < (d1.link r.link).queued 3 then d1.startGrow r.link false else d1

/-- A message enters the network. -/
def Dev.transmit (d : Dev) (dst vc seq : Nat) (m : FabMsg) : Dev :=
  let put (a : Dev × Bool) (f : Bytes × Bool) : Dev × Bool :=
    (a.1.enqueuePkt { vc := vc, dst := dst, src := d.deviceNo, hops := 6, msgSeq := seq, first := a.2, last := f.2, payload := f.1 }, false)
  ((fragments vc 65536 (m.bytes d.deviceNo)).foldl put (d.emit (.fabMsg dst vc seq m), true)).1

/-- Bytes of the messages held in the 2 MiB store that are in the network. -/
def storeBytes (dev : Nat) (l : List HeldMsg) : Nat :=
  (l.filter (fun h => h.sent)).foldl (fun a h => a + (h.msg.bytes dev).length) 0

/-- The store takes a message: 256 KiB of its 2 MiB are reserved for VC0 and VC1. -/
def Dev.storeTakes (d : Dev) (vc n : Nat) : Bool :=
  decide (storeBytes d.deviceNo d.fab.held + n ≤ 2097152)
    && (decide (vc < 2) || decide (storeBytes d.deviceNo (d.fab.held.filter (fun h => decide (2 ≤ h.vc))) + n ≤ 1835008))

/-- One held message changes. -/
def Dev.modHeld (d : Dev) (dst vc seq : Nat) (f : HeldMsg → HeldMsg) : Dev :=
  { d with fab := { d.fab with held := d.fab.held.map (fun (o : HeldMsg) => if o.dst = dst ∧ o.vc = vc ∧ o.seq = seq then f o else o) } }

/-- Messages that wait for the store or for a route are sent, in their order for each destination and VC. -/
def Dev.flushHeld (d : Dev) : Dev :=
  d.fab.held.foldl (fun (x : Dev) (h : HeldMsg) =>
    if h.sent then x
    else if x.reach h.dst && x.storeTakes h.vc (h.msg.bytes x.deviceNo).length
        && !x.fab.held.any (fun o => !o.sent && decide (o.dst = h.dst) && decide (o.vc = h.vc) && laterThan 16 h.seq o.seq) then
      (x.modHeld h.dst h.vc h.seq (fun o => { o with sent := true, sentAt := x.up, firstAt := x.up })).transmit h.dst h.vc h.seq h.msg
    else x) d

/-- A message to another device is numbered, held and sent. -/
def Dev.send (d : Dev) (dst : Nat) (m : FabMsg) : Dev :=
  if dst = d.deviceNo then d
  else
    let k := vcKey dst m.vc
    let seq := d.fab.txMsg.getD k 0
    let h : HeldMsg := { dst := dst, vc := m.vc, seq := seq, msg := m, sentAt := d.up, firstAt := d.up, sent := false }
    (d.modFab (fun f => { f with txMsg := f.txMsg.put k ((seq + 1) % 65536), held := f.held ++ [h] })).flushHeld

/-- A message to every device of a mask but this one. -/
def Dev.sendAll (d : Dev) (mask : Nat) (m : FabMsg) : Dev := (bitsOf 64 mask).foldl (fun x n => x.send n m) d

/-- Every unacknowledged message to a device is sent again. -/
def Dev.resend (d : Dev) (dst : Nat) : Dev :=
  d.fab.held.foldl (fun (x : Dev) (h : HeldMsg) =>
    if h.dst = dst ∧ h.sent = true then
      ((x.modHeld h.dst h.vc h.seq (fun o => { o with sentAt := x.up })).transmit h.dst h.vc h.seq h.msg).count Reg.FAB_E2E_RETX
    else x) d

/-- A message arrives whole: it is taken once and in order, and an acknowledgement is owed. The first message of a source
and VC sets the numbering. -/
def Dev.receive (d : Dev) (src vc seq : Nat) : Dev × Bool :=
  let k := vcKey src vc
  let due (x : FabSt) : FabSt := { x with ackDue := if x.ackDue.contains k then x.ackDue else x.ackDue ++ [k] }
  if src = d.deviceNo ∨ 64 ≤ src then (d, false)
  else match d.fab.rxMsg.find k with
    | none => ({ d with fab := due { d.fab with rxMsg := d.fab.rxMsg.put k (seq % 65536) } }, true)
    | some last =>
      if (last + 1) % 65536 = seq then ({ d with fab := due { d.fab with rxMsg := d.fab.rxMsg.put k seq } }, true)
      else ({ d with fab := due d.fab }, false)

/-- A received message has its effect `f` where it is taken. -/
def Dev.onMsg (d : Dev) (src vc seq : Nat) (f : Dev → Dev) : Dev :=
  let r := d.receive src vc seq
  if r.2 then f r.1 else r.1

/-! ## Views (R430, R435, R441) -/

/-- The view of a device on its own before the first view is installed (R45): CRT_VIEW has its reset value. -/
def Dev.loneView (d : Dev) : FabView :=
  { num := 0, fromEpoch := 0, members := maskOf [d.deviceNo], summit := d.deviceNo, minority := false }

/-- The current view. -/
def Dev.view (d : Dev) : FabView := (d.fab.views.head?).getD d.loneView

/-- View(E): the highest number whose FROM_EPOCH is at or before E. -/
def Dev.viewAt (d : Dev) (e : Nat) : FabView := (d.fab.views.find? (fun v => decide (v.fromEpoch ≤ e))).getD d.loneView

/-- The members of the current view but this device. -/
def Dev.others (d : Dev) : Nat := putBit d.view.members d.deviceNo false

def Dev.isSummit (d : Dev) : Bool := decide (d.view.summit = d.deviceNo)

/-- A summit exists (R41, R45). -/
def Dev.joined (d : Dev) : Bool := d.bit Fld.FAB_STATUS_JOINED

/-- SUMMIT_PRIO of a device; that of another device reaches this one in no message. -/
def Dev.prioOf (d : Dev) (n : Nat) : Nat := if n = d.deviceNo then d.fld Fld.FAB_CFG_SUMMIT_PRIO else Config.peerPrio n % 16

/-- The member with the highest SUMMIT_PRIO, ties to the lower number. -/
def Dev.electFrom (d : Dev) (members : Nat) : Nat :=
  ((bitsOf 64 members).foldl (fun m n =>
    match m with
    | none => some n
    | some x => if d.prioOf x < d.prioOf n then some n else some x) (none : Option Nat)).getD d.deviceNo

/-- A new view is a majority view of the previous one. -/
def isMajority (prev new : Nat) : Bool :=
  let kept := prev &&& new
  let low := ((bitsOf 64 prev).head?).getD 0
  decide (2 ≤ popCount 64 new) &&
    (decide (popCount 64 prev < 2 * popCount 64 kept) || (decide (popCount 64 prev = 2 * popCount 64 kept) && new.testBit low))

/-! ## Votes and time reports to the summit (R200, R203, R398) -/

/-- This device's vote. -/
def Dev.myVote (d : Dev) : VoteMsg :=
  let v := d.fum.ownVote.getD (0, false)
  { shortEpoch := d.fum.decided.getD 0 % 2 ^ 32, groups := v.1, island := v.2, view := d.view.num }

/-- The vote goes to the summit; the summit keeps its own. A device in the safe state sends none (R442). -/
def Dev.sendVote (d : Dev) : Dev :=
  if d.bit Fld.SAF_STATUS_SAFE || !d.joined then d
  else if d.isSummit then { d with fum := { d.fum with votes := d.fum.votes.put d.deviceNo d.myVote } }
  else d.send d.view.summit (.vote d.myVote)

/-- Grid records that no decision will carry, as Fumarole makes none, go out on their own (R204). -/
def Dev.gridRecBytes (d : Dev) (off : Nat) (r : GridRec) : Dev × Bytes :=
  match r.members with
  | some m => (d.bumpRecSeq, d.alarmRecord 0x07 r.index r.short (b2n r.on) 0 (popCount 64 m) 0 off m)
  | none =>
    let z := d.draw
    (z.2.bumpRecSeq, d.alarmRecord 0x07 r.index r.short (b2n r.on) 0 (z.1 % 128) 0 off (z.1 / 128))

/-- Grid bits are latched; each changed bit gets a record (R202). `who` gives the devices counted for an index, where known. -/
def Dev.latchGrid (d : Dev) (v : VoteMsg) (who : Nat → Option Nat) : Dev :=
  let changed := (bitsOf 32 (d.fum.grid ^^^ v.groups)) ++ (if d.fum.islandGrid = v.island then [] else [32])
  let recs : List GridRec := changed.map (fun i =>
    { index := i, short := v.shortEpoch, on := if i = 32 then v.island else v.groups.testBit i, members := who i })
  let d1 := (d.modFum (fun f => { f with grid := v.groups, islandGrid := v.island, islMembers := v.islMembers })).setBit Fld.ISL_STATUS_ISLAND_GRID v.island
  if d1.bit Fld.FUM_STATUS_RUNNING then d1.modFum (fun f => { f with gridRecs := f.gridRecs ++ recs })
  else recs.foldl (fun (x : Dev) r => let y := x.gridRecBytes 0 r; y.1.alarmSend [y.2]) d1

/-- The summit counts the votes of the members (R201) with `vote` the short epoch of the vote that brings the count about, where one does;
else the state carries the epoch of the vote that decided it last. `first` makes it send GRID_STATE whatever has changed, as does the
first state it owes after its election. While it elects it waits for a vote of every member (R203). -/
def Dev.recount (d : Dev) (vote : Option Nat) (first : Bool) : Dev :=
  let v := d.view
  let waits := d.bit Fld.FAB_STATUS_ELECTION && decide (d.fab.electVotes &&& v.members ≠ v.members)
  if !d.isSummit || !d.joined || waits then d
  else
    let votes := d.fum.votes.keep (fun n _ => v.members.testBit n && !(decide (n = d.deviceNo) && d.bit Fld.SAF_STATUS_SAFE))
    let who (i : Nat) : Nat :=
      maskOf ((votes.filter (fun (x : Nat × VoteMsg) => if i = 32 then x.2.island else x.2.groups.testBit i)).map (fun x => x.1))
    let quorum (k : Nat) : Nat := bitsAt (d.reg (Reg.FUM_GRIDQj (k / 4))) (8 * (k % 4)) 8
    let groups := maskOf ((List.range 32).filter (fun k => decide (quorum k ≠ 0) && decide (quorum k ≤ popCount 64 (who k))))
    let msg : VoteMsg :=
      { shortEpoch := vote.getD d.fum.gridEpoch, groups := groups, island := decide (d.fld Fld.ISL_GRID_QUORUM ≤ popCount 64 (who 32))
        islMembers := who 32, view := v.num }
    if first || d.fum.gridOwed || decide (groups ≠ d.fum.grid) || decide (msg.island ≠ d.fum.islandGrid) then
      ((d.modFum (fun f => { f with gridEpoch := msg.shortEpoch, gridOwed := false })).latchGrid msg (fun i => some (who i))).sendAll d.others
        (.gridState msg)
    else d

/-- The domain states go to the summit. -/
def Dev.sendTimeReport (d : Dev) : Dev :=
  let a := d.fld Fld.TIM_STATUS_DOM0_STATE
  let b := d.fld Fld.TIM_STATUS_DOM1_STATE
  if !d.joined then d
  else if d.isSummit then { d with tim := { d.tim with reports := d.tim.reports.put d.deviceNo (a, b) } }
  else d.send d.view.summit (.timeReport a b)

/-- The summit sends its selection when its view is installed; the first view of two or more members starts from PREF (R398). -/
def Dev.sendSelection (d : Dev) (first : Bool) : Dev :=
  let sel := if first then d.fld Fld.TIM_CFG_PREF else d.fld Fld.TIM_STATUS_SUMMIT_PREF
  let d1 := (d.setFld Fld.TIM_STATUS_SUMMIT_PREF sel).modTim (fun t => { t with leadRun := 0, reported := 0 })
  if d.joined then d1.sendAll d1.others (.timeSel sel) else d1

/-! ## Suspicion and the view change (R431, R432) -/

/-- The coordinator: the lowest-numbered member that is not suspected. -/
def coordinator (v : FabView) (suspects self : Nat) : Nat :=
  ((bitsOf 64 v.members).find? (fun n => !suspects.testBit n)).getD self

/-- U of STATE (R422, R437). -/
def Dev.ownU (d : Dev) : Nat :=
  if d.bit Fld.CRT_STATUS_RUNNING then d.crt.nextConf
  else if d.joined then (match d.fab.emptyUpTo with | some e => e + 1 | none => d.fab.joinEpoch)
  else d.crt.nextConf

/-- The confirmed records of a stream for the epochs `first` to `last` go to a device with HIST_REC; those not confirmed yet follow
as they are (R436, R440). -/
def Dev.feedHistory (d : Dev) (j i first last : Nat) : Dev :=
  let h := d.crt.hists.getD i {}
  let held := (h.recs.filter (fun r => decide (first ≤ r.epoch) && decide (r.epoch ≤ last))).reverse
  let d1 := held.foldl (fun (x : Dev) (r : ConfRec) => x.send j (.histRec r.epoch (min 255 h.count) r.record)) d
  if d.crt.nextConf ≤ last then d1.modFab (fun f => { f with histFeeds := f.histFeeds ++ [(j, i, last + 1)] }) else d1

/-- Step 3 of R436: the history of every stream shared with a device that has joined, over the MAX_EPOCHS + 1 due epochs before
its first. -/
def Dev.feedJoiners (d : Dev) (new : List Nat) (from_ : Nat) : Dev :=
  new.foldl (fun (x : Dev) (j : Nat) => d.ing.streams.foldl (fun (x : Dev) (s : Nat × StreamSt) =>
    let held := s.2.entry.cur.toList ++ (match s.2.entry.pend with | some (_, some e) => [e] | _ => [])
    match held.find? (fun e => decide (e.primary = j) || decide (e.mirror = j)) with
    | none => x
    | some e =>
      let step := if e.type < 2 then max 1 (d.rate / Nat.gcd d.rate e.frate) else 1
      x.feedHistory j s.1 (from_ - (d.fld Fld.CRT_PRED_MAX_EPOCHS + 1) * step) (from_ - 1)) x) d

/-- A view becomes the current one: registers, FWD_DONE, forwarded manifests, lost streams, histories for a joiner, the
summit's election, and the commands that wait for it. -/
def Dev.install (d : Dev) (v : FabView) (prev : FabView) : Dev :=
  let self := d.deviceNo
  let gone := (bitsOf 64 prev.members).filter (fun n => !v.members.testBit n)
  let new := (bitsOf 64 v.members).filter (fun n => !prev.members.testBit n)
  let n := popCount 64 v.members
  let joining := d.fab.joining.isSome
  let rejoin := joining && d.fab.autoRejoin
  let elects := decide (2 ≤ popCount 64 prev.members) && !v.members.testBit prev.summit && !d.fab.leaving
  -- a new election starts with the votes that came ahead of the view; a running one keeps those of the members that stay (R203)
  let early := maskOf ((d.fum.votes.filter (fun (x : Nat × VoteMsg) => decide (x.2.view = v.num))).map (fun x => x.1))
  -- a device on its own lists no other stream (R45, R123), and one that joins takes up the fabric's history anew
  let lost : Tbl Nat := if n < 2 then [] else gone.foldl (fun (t : Tbl Nat) g => (d.fab.claims.getD g []).foldl (fun (t : Tbl Nat) (x : Nat × Claim) =>
    let p := x.1 / 8192
    if !v.members.testBit p && !v.members.testBit x.2.other then t.put x.1 (if g = p then x.2.other else g) else t) t)
    (if joining then [] else d.fab.lost)
  -- a device that runs the change for a joiner is a member already, also where it joins itself (R436)
  let joiner := joining && (d.fab.change.bind (fun (c : ViewChange) => c.joiner)).isNone
  let tellsOf (t : Tbl Nat) : Tbl Nat := t.keep (fun k _ => !gone.contains k)
  let dropDev (t : Tbl Nat) : Tbl Nat := t.keep (fun k _ => !gone.contains (k / 4))
  let d1 := { d with fum := { d.fum with votes := d.fum.votes.keep (fun k _ => v.members.testBit k), gridOwed := elects || d.fum.gridOwed }, fab := { d.fab with
    views := ({ v with at_ := d.g16 } :: d.fab.views).take 64, change := none, lost := lost, claims := d.fab.claims.keep (fun k _ => !gone.contains k)
    lastSuspects := popCount 64 ((d.fab.change.map (fun (c : ViewChange) => c.suspects)).getD 0)
    held := d.fab.held.filter (fun h => !gone.contains h.dst)
    txMsg := dropDev d.fab.txMsg, rxMsg := dropDev d.fab.rxMsg, ackDue := d.fab.ackDue.filter (fun k => !gone.contains (k / 4))
    hbAt := new.foldl (fun t m => t.put m d.up) (d.fab.hbAt.keep (fun k _ => v.members.testBit k))
    -- an epoch of an earlier view keeps the gate of that view's FWD_DONE
    fwdDone := (d.fab.fwdDone.keep (fun k _ => laterThan 32 k v.num || d.fab.views.any (fun x => decide (x.num = k)))).put v.num
      (putBit ((d.fab.fwdDone.find v.num).getD 0) self true)
    fwdDue := tellsOf d.fab.fwdDue, fwdGot := tellsOf d.fab.fwdGot
    joining := none, autoRejoin := false
    joinEpoch := if joining then v.fromEpoch else d.fab.joinEpoch
    emptyUpTo := if joining then none else d.fab.emptyUpTo
    electVotes := (if elects then early else d.fab.electVotes) &&& v.members
    electTimes := (if elects then d.fab.earlyTimes else d.fab.electTimes) &&& v.members
    earlyTimes := 0
    histFeeds := d.fab.histFeeds.filter (fun h => !gone.contains h.1) } }
  let d2 := ((((((d1.setRegN Reg.CRT_VIEW v.num).count Reg.CRT_VIEW_CHG).setReg64 Reg.FAB_MEMBERS_LO v.members).setFld
    Fld.FAB_STATUS_N_MEMBERS n).setFld Fld.FAB_STATUS_SUMMIT v.summit).setBit Fld.FAB_STATUS_JOINED (decide (2 ≤ n))).setBit
      Fld.FAB_STATUS_IS_SUMMIT (decide (2 ≤ n) && decide (v.summit = self))
  let d3 := ((((d2.setBit Fld.FAB_STATUS_MINORITY v.minority).setBit Fld.CRT_STATUS_SPLIT v.minority).setBit
    Fld.CRT_STATUS_SOLO (decide (n < 2) && !v.minority)).setBit Fld.FAB_STATUS_VIEW_CHANGE false).event .viewInstalled n (v.num % 2 ^ 32) (v.fromEpoch % 2 ^ 32)
  let d4 := if rejoin then d3.count Reg.FAB_REJOINS else d3
  let fwd := d4.crt.manifests.flatMap (fun (row : Nat × Tbl Manifest) =>
    if v.fromEpoch ≤ row.1 then gone.filterMap (fun g => row.2.find g) else [])
  let dests := putBit v.members self false
  let d5 := fwd.foldl (fun (x : Dev) (m : Manifest) => x.sendAll dests (.manifest { m with forwarded := true })) d4
  let d6 := d5.sendAll dests (.fwdDone v.num fwd.length)
  let d7 := if elects then
      ((d6.setBit Fld.FAB_STATUS_ELECTION (decide (2 ≤ n))).count Reg.FAB_ELECTIONS).sendVote.sendTimeReport
    else if new.contains self || joining then (d6.setBit Fld.FAB_STATUS_ELECTION false).sendVote.sendTimeReport
    else d6
  let d8 := if v.summit = self then
      ((d7.modFab (fun f => { f with electVotes := putBit f.electVotes self true, electTimes := putBit f.electTimes self true })).recount
        none false).sendSelection (decide (popCount 64 prev.members < 2))
    else d7
  let d9 := if joining then d8.finishWaits (fun w => decide (w = .fabJoin)) sOk 0 else d8
  if joiner then d9 else d9.feedJoiners (new.filter (fun m => decide (m ≠ self))) v.fromEpoch

/-- This device learns of a view without it: it is on its own, and split unless it left (R435, R444). -/
def Dev.excluded (d : Dev) (num : Nat) : Dev :=
  let self := d.deviceNo
  let leaving := d.fab.leaving
  let v : FabView := { num := num, fromEpoch := d.ownU, members := maskOf [self], summit := self, minority := !leaving }
  let d1 := d.install v d.view
  let d2 := if leaving then ({ d1 with fab := { d1.fab with leaving := false } } : Dev).finishWaits (fun w => decide (w = .fabLeave)) sOk 0 else d1
  d2.setBit Fld.FAB_STATUS_ELECTION false

/-- At the coordinator: once STATE is held from every member it does not suspect, NEW_VIEW is flooded, to the devices that leave as well,
and installed. -/
def Dev.tryNewView (d : Dev) : Dev :=
  match d.fab.change with
  | none => d
  | some c =>
    let v := d.view
    let alive := (bitsOf 64 v.members).filter (fun n => !c.suspects.testBit n)
    if (c.joiner.isSome || decide (coordinator v c.suspects d.deviceNo = d.deviceNo))
        && alive.all (fun n => (c.states.find n).isSome) then
      let members := maskOf (alive ++ (c.joiner.toList.filter (fun j => !alive.contains j)))
      let us := c.states.map (fun s => s.2.1)
      let from_ := match c.joiner with
        | some _ => (if d.bit Fld.CRT_STATUS_RUNNING then d.crt.nextSeal + 3 else d.ownU)
        | none => us.foldl min (us.head?.getD 0)
      let summit := if 2 ≤ popCount 64 v.members ∧ members.testBit v.summit = true then v.summit else d.electFrom members
      let nv : FabView :=
        { num := (v.num + 1) % 2 ^ 32, fromEpoch := from_, members := members, summit := summit,
          minority := !isMajority v.members members }
      let msg : NewViewMsg :=
        { view := nv.num, prevView := v.num, fromEpoch := from_, members := members, summit := summit, minority := nv.minority }
      (d.sendAll (putBit (members ||| v.members) d.deviceNo false) (.newView msg)).install nv v
    else d

/-- STATE is sent to a coordinator, or kept where this device is it. -/
def Dev.sendState (d : Dev) (to_ : Nat) : Dev :=
  match d.fab.change with
  | none => d
  | some c =>
    if to_ = d.deviceNo then
      ({ d with fab := { d.fab with change := some { c with states := c.states.put to_ (d.ownU, c.suspects) } } }).tryNewView
    else d.send to_ (.state d.view.num d.ownU c.suspects)

/-- A view change starts, or starts again with more suspects; every link grows to L4 (R425, R433). A join is a change with no suspects
(R436): where one arises during it, the joiner waits for the change after this one. -/
def Dev.startChange (d : Dev) (suspects : Nat) (joiner : Option Nat) (to_ : Option Nat) : Dev :=
  let old := d.fab.change
  let sus := (old.map (fun (c : ViewChange) => c.suspects)).getD 0 ||| suspects
  let both := joiner <|> old.bind (fun (c : ViewChange) => c.joiner)
  let c : ViewChange :=
    { suspects := sus, joiner := if sus = 0 then both else none, states := [], since := (old.map (fun c => c.since)).getD d.up }
  let d1 := (List.range 6).foldl (fun x l => x.startGrow l true) d
  let waits (t : Tbl Nat) : Tbl Nat := match both with | some j => if sus = 0 then t else t.put j d.up | none => t
  let d2 := { d1 with fab := { d1.fab with change := some c, joinReqs := waits d1.fab.joinReqs } }.setBit Fld.FAB_STATUS_VIEW_CHANGE true
  d2.sendState (to_.getD (coordinator d.view sus d.deviceNo))

/-- Members are suspected here: each is counted, SUSPECT is flooded and the view change starts. -/
def Dev.suspect (d : Dev) (mask : Nat) : Dev :=
  let old := (d.fab.change.map (fun (c : ViewChange) => c.suspects)).getD 0
  let new := (bitsOf 64 (mask &&& d.others)).filter (fun n => !old.testBit n)
  if new.isEmpty then d
  else
    let d1 := d.count Reg.FAB_SUSPECTS new.length
    let all := old ||| maskOf new
    let dests := (bitsOf 64 d1.others).filter (fun n => !all.testBit n)
    (d1.sendAll (maskOf dests) (.suspect d1.view.num all)).startChange (maskOf new) none none

/-- The suspects of a SUSPECT or STATE message are adopted. -/
def Dev.adopt (d : Dev) (mask : Nat) : Dev :=
  let old := (d.fab.change.map (fun (c : ViewChange) => c.suspects)).getD 0
  let new := (bitsOf 64 (mask &&& d.others)).filter (fun n => !old.testBit n)
  if new.isEmpty then d else d.startChange (maskOf new) none none

/-! ## Routes take effect -/

/-- The routes follow the links and LSAs: messages on changed routes are sent again, and members that have become
unreachable are suspected. -/
def Dev.refreshRoutes (d : Dev) : Dev :=
  let r := d.computeRoutes
  let old := d.fab.primary
  let d1 := ({ d with fab := { d.fab with primary := r.1, alternate := r.2 } }).setReg64 Reg.FAB_REACH_LO (maskOf (r.1.map (fun (x : Nat × Route) => x.1)))
  let changed := r.1.filter (fun (x : Nat × Route) => decide (old.find x.1 ≠ some x.2))
  let d2 := (changed.foldl (fun (x : Dev) (c : Nat × Route) => x.resend c.1) d1).flushHeld
  d2.suspect (maskOf ((old.filter (fun (o : Nat × Route) => (r.1.find o.1).isNone)).map (fun (o : Nat × Route) => o.1)))

/-- This device's LSA. -/
def Dev.ownLsa (d : Dev) : List LsaLink :=
  (List.range 6).map (fun l =>
    { peer := d.fld (Fld.FAB_Ln_STATUS_PEER l), peerLink := d.fld (Fld.FAB_Ln_STATUS_PEER_LINK l), up := d.linkUp l,
      width := d.fld (Fld.FAB_Ln_STATUS_WIDTH l) })

/-- The LSA is flooded on every link that is up. -/
def Dev.floodLsa (d : Dev) : Dev :=
  let seq := (d.fab.lsaSeq + 1) % 2 ^ 32
  let d1 := { d with fab := { d.fab with lsaSeq := seq, lsaAt := d.up } }
  ((List.range 6).filter (fun l => d1.linkUp l)).foldl (fun x l => x.sendOnLink l d1.deviceNo (.lsa seq d1.ownLsa)) d1

/-- This device's HELLO on a link. -/
def Dev.ownHello (d : Dev) (l : Nat) : HelloMsg :=
  { device := d.deviceNo, fabricId := d.fld Fld.FAB_CFG_FABRIC_ID, link := l, rate := d.rate, wait := d.fld Fld.CRT_CFG_WAIT,
    rev := d.fld Fld.GLB_ID_REV, joined := d.joined, view := d.view.num, members := d.view.members }

/-- A link's packets are gone, and it starts again as `s`: the packets that waited on it leave the receive buffers of other links, and those
that came by it count on no buffer any more. -/
def Dev.clearLink (d : Dev) (l : Nat) (s : LinkSt) : Dev :=
  let d1 := (d.link l).queue.foldl (fun (x : Dev) p => x.freeBuffer p.inl p.vc (creditsOf p.len)) d
  let d2 := d1.modFab (fun f => { f with links := f.links.map (fun k =>
    { k with queue := k.queue.map (fun p => if p.inl = some l then { p with inl := none } else p) }) })
  d2.setLink l s

/-- A link goes down and trains again: its routes move, and its LSA is flooded (R424, R429). -/
def Dev.linkDown (d : Dev) (l : Nat) : Dev :=
  let st := d.linkState l
  if st ≤ 1 then d
  else
    let s := d.link l
    let d1 := (((d.setLinkState l 1).setFld (Fld.FAB_Ln_STATUS_WIDTH l) 0).clearLink l
      { grewAt := s.grewAt, win := s.win, enabledAt := d.up }).count (Reg.FAB_Ln_DOWN l)
    if st = 3 then (d1.refreshRoutes).floodLsa else d1

end Sys2Proof.Machine
end

