-- ==== Sys2Proof/Machine/Float.lean ====
section
/-! DEFINITION. Arithmetic of IEEE 754 binary32 and binary64, round half to even, on the words in which the device holds
the numbers. Every operation computes the exact result on whole numbers and rounds it once. The payload of a NaN, and what a number that is
none becomes as a whole number, are free values. -/

namespace Sys2Proof.Machine

/-- A number as the format holds it: its value is `±mant * 2 ^ exp`. -/
inductive FNum where
  | nan
  | inf (neg : Bool)
  | fin (neg : Bool) (mant : Nat) (exp : Int)
  deriving DecidableEq, Repr

/-- A format: exponent bits and fraction bits. -/
structure FFmt where
  eb : Nat
  mb : Nat
  deriving DecidableEq, Repr

/-- binary32 and binary64. -/
def f32Fmt : FFmt := ⟨8, 23⟩
def f64Fmt : FFmt := ⟨11, 52⟩

/-- Exponent of the unit of a subnormal fraction. -/
def FFmt.qmin (f : FFmt) : Int := 2 - (2 ^ (f.eb - 1) : Nat) - (f.mb : Int)

def FFmt.decode (f : FFmt) (v : Nat) : FNum :=
  let neg := v.testBit (f.eb + f.mb)
  let e := v / 2 ^ f.mb % 2 ^ f.eb
  let m := v % 2 ^ f.mb
  if e = 2 ^ f.eb - 1 then (if m = 0 then .inf neg else .nan)
  else if e = 0 then .fin neg m f.qmin
  else .fin neg (m + 2 ^ f.mb) (f.qmin + (e - 1 : Nat))

/-- Bits of the sign. -/
def FFmt.signBits (f : FFmt) (neg : Bool) : Nat := b2n neg * 2 ^ (f.eb + f.mb)

def FFmt.infBits (f : FFmt) (neg : Bool) : Nat := f.signBits neg + (2 ^ f.eb - 1) * 2 ^ f.mb

/-- `mant * 2 ^ exp`, plus something below its last bit where `sticky`, rounded half to even into the format. -/
def FFmt.round (f : FFmt) (neg : Bool) (mant : Nat) (exp : Int) (sticky : Bool) : Nat :=
  if mant = 0 then f.signBits neg
  else
    let len : Int := (Nat.log2 mant : Int) + 1
    let q := max (exp + len - (f.mb + 1 : Nat)) f.qmin
    let m : Nat :=
      if q ≤ exp then mant * 2 ^ (exp - q).toNat
      else
        let s := (q - exp).toNat
        let top := mant / 2 ^ s
        let rem := mant % 2 ^ s
        let half := 2 ^ (s - 1)
        if half < rem then top + 1
        else if rem = half then (if sticky then top + 1 else top + top % 2)
        else top
    let bits := if m < 2 ^ f.mb then m else (q - f.qmin + 1).toNat * 2 ^ f.mb + (m - 2 ^ f.mb)
    if (2 ^ f.eb - 1) * 2 ^ f.mb ≤ bits then f.infBits neg else f.signBits neg + bits

/-- The bits of a number; none for NaN. -/
def FFmt.encode (f : FFmt) : FNum → Option Nat
  | .nan => none
  | .inf s => some (f.infBits s)
  | .fin s m e => some (f.round s m e false)

/-- The exact sum. -/
def FNum.add : FNum → FNum → FNum
  | .nan, _ => .nan
  | _, .nan => .nan
  | .inf a, .inf b => if a = b then .inf a else .nan
  | .inf a, _ => .inf a
  | _, .inf b => .inf b
  | .fin sa ma ea, .fin sb mb eb =>
    let e := min ea eb
    let x : Int := (if sa then -1 else 1) * (ma * 2 ^ (ea - e).toNat : Nat)
    let y : Int := (if sb then -1 else 1) * (mb * 2 ^ (eb - e).toNat : Nat)
    let s := x + y
    .fin (if s = 0 then sa && sb else decide (s < 0)) s.natAbs e

def FNum.neg : FNum → FNum
  | .nan => .nan
  | .inf s => .inf (!s)
  | .fin s m e => .fin (!s) m e

/-- The exact product. -/
def FNum.mul : FNum → FNum → FNum
  | .nan, _ => .nan
  | _, .nan => .nan
  | .inf a, .inf b => .inf (a != b)
  | .inf a, .fin b m _ => if m = 0 then .nan else .inf (a != b)
  | .fin a m _, .inf b => if m = 0 then .nan else .inf (a != b)
  | .fin a ma ea, .fin b mb eb => .fin (a != b) (ma * mb) (ea + eb)

/-- The quotient, rounded into the format; none for NaN. -/
def FFmt.div (f : FFmt) (x y : FNum) : Option Nat :=
  match x, y with
  | .nan, _ => none
  | _, .nan => none
  | .inf _, .inf _ => none
  | .inf a, .fin b _ _ => some (f.infBits (a != b))
  | .fin a _ _, .inf b => some (f.signBits (a != b))
  | .fin a ma ea, .fin b mb eb =>
    if mb = 0 then (if ma = 0 then none else some (f.infBits (a != b)))
    else
      let k := f.mb + 4 + Nat.log2 mb
      some (f.round (a != b) (ma * 2 ^ k / mb) (ea - eb - (k : Int)) (decide (ma * 2 ^ k % mb ≠ 0)))

/-- The whole square root, by bisection on `fuel` bits. -/
def isqrt : Nat → Nat → Nat
  | 0, _ => 0
  | fuel + 1, n =>
    let r := isqrt fuel (n / 4) * 2
    if (r + 1) * (r + 1) ≤ n then r + 1 else r

/-- The square root, rounded into the format; none for NaN. -/
def FFmt.sqrt (f : FFmt) : FNum → Option Nat
  | .nan => none
  | .inf s => if s then none else some (f.infBits false)
  | .fin s m e =>
    if m = 0 then some (f.signBits s)
    else if s then none
    else
      let k : Nat := 2 * (f.mb + 4) + (if e % 2 = 0 then 0 else 1)
      let n := m * 2 ^ k
      let r := isqrt (Nat.log2 n + 2) n
      some (f.round false r ((e - (k : Int)) / 2) (decide (r * r ≠ n)))

/-- Order of two numbers: `some true` where x < y, `none` where one is no number. -/
def FNum.lt : FNum → FNum → Option Bool
  | .nan, _ => none
  | _, .nan => none
  | .inf a, .inf b => some (a && !b)
  | .inf a, .fin _ _ _ => some a
  | .fin _ _ _, .inf b => some (!b)
  | .fin sa ma ea, .fin sb mb eb =>
    let e := min ea eb
    let x : Int := (if sa then -1 else 1) * (ma * 2 ^ (ea - e).toNat : Nat)
    let y : Int := (if sb then -1 else 1) * (mb * 2 ^ (eb - e).toNat : Nat)
    some (decide (x < y))

/-- The number as a fraction, where it is finite. -/
def FNum.toRat : FNum → Option Rat
  | .fin s m e =>
    let v : Rat := if 0 ≤ e then ((m * 2 ^ e.toNat : Nat) : Rat) else ((m : Nat) : Rat) / ((2 ^ (-e).toNat : Nat) : Rat)
    some (if s then -v else v)
  | _ => none

/-- The nearest whole number, half to even; none where it is not finite. -/
def FNum.toInt : FNum → Option Int
  | .fin s m e =>
    let v : Nat :=
      if 0 ≤ e then m * 2 ^ e.toNat
      else
        let k := 2 ^ (-e).toNat
        let t := m / k
        let r := m % k
        if k < 2 * r then t + 1 else if 2 * r = k then t + t % 2 else t
    some (if s then -(v : Int) else v)
  | _ => none

/-! ## binary32 -/

def f32 (w : Word) : FNum := f32Fmt.decode w.toNat

/-- The quiet NaN that operation `op` gives on two operands: its sign and payload are free. -/
def nan32 (op : Nat) (a b : Word) : Word := 0x7FC00000 ||| (Config.f32Nan op a b &&& 0x803FFFFF)

def orNan32 (op : Nat) (a b : Word) (x : Option Nat) : Word := match x with | some v => BitVec.ofNat 32 v | none => nan32 op a b

def fAdd (a b : Word) : Word := orNan32 0 a b (f32Fmt.encode ((f32 a).add (f32 b)))
def fSub (a b : Word) : Word := orNan32 1 a b (f32Fmt.encode ((f32 a).add (f32 b).neg))
def fMul (a b : Word) : Word := orNan32 2 a b (f32Fmt.encode ((f32 a).mul (f32 b)))
def fDiv (a b : Word) : Word := orNan32 3 a b (f32Fmt.div (f32 a) (f32 b))
def fSqrt (a : Word) : Word := orNan32 4 a 0 (f32Fmt.sqrt (f32 a))
def fNeg (a : Word) : Word := a ^^^ 0x80000000
def fAbs (a : Word) : Word := a &&& 0x7FFFFFFF
def fLt (a b : Word) : Bool := ((f32 a).lt (f32 b)).getD false
def fGt (a b : Word) : Bool := fLt b a
def fLe (a b : Word) : Bool := ((f32 b).lt (f32 a)).any (fun x => !x)
def fGe (a b : Word) : Bool := fLe b a
def fEq (a b : Word) : Bool := fLe a b && fLe b a
def fIsNum (a : Word) : Bool := match f32 a with | .nan => false | _ => true
def fFinite (a : Word) : Bool := match f32 a with | .fin _ _ _ => true | _ => false
def fOfInt (i : Int) : Word := BitVec.ofNat 32 (f32Fmt.round (decide (i < 0)) i.natAbs 0 false)
def fOfNat (n : Nat) : Word := fOfInt n

/-- A fraction rounded to binary32. -/
def fOfRat (q : Rat) : Word := BitVec.ofNat 32
  (f32Fmt.round (decide (q < 0)) (q.num.natAbs * 2 ^ (160 + Nat.log2 q.den) / q.den)
    (-((160 + Nat.log2 q.den : Nat) : Int)) (decide (q.num.natAbs * 2 ^ (160 + Nat.log2 q.den) % q.den ≠ 0)))

/-- A binary32 number as a fraction; a free value where it is not finite. -/
def fRat (a : Word) : Rat := ((f32 a).toRat).getD (Config.ratOf (a.setWidth 64))

/-! ## binary64 -/

def f64 (w : DWord) : FNum := f64Fmt.decode w.toNat

def nan64 (op : Nat) (a b : DWord) : DWord := 0x7FF8000000000000 ||| (Config.f64Nan op a b &&& 0x8007FFFFFFFFFFFF)

def orNan64 (op : Nat) (a b : DWord) (x : Option Nat) : DWord := match x with | some v => BitVec.ofNat 64 v | none => nan64 op a b

def dAdd (a b : DWord) : DWord := orNan64 0 a b (f64Fmt.encode ((f64 a).add (f64 b)))
def dSub (a b : DWord) : DWord := orNan64 1 a b (f64Fmt.encode ((f64 a).add (f64 b).neg))
def dMul (a b : DWord) : DWord := orNan64 2 a b (f64Fmt.encode ((f64 a).mul (f64 b)))
def dDiv (a b : DWord) : DWord := orNan64 3 a b (f64Fmt.div (f64 a) (f64 b))
def dSqrt (a : DWord) : DWord := orNan64 4 a 0 (f64Fmt.sqrt (f64 a))
def dLt (a b : DWord) : Bool := ((f64 a).lt (f64 b)).getD false
def dOfInt (i : Int) : DWord := BitVec.ofNat 64 (f64Fmt.round (decide (i < 0)) i.natAbs 0 false)
def dOfF32 (a : Word) : DWord := orNan64 5 (a.setWidth 64) 0 (f64Fmt.encode (f32 a))
def fOfF64 (a : DWord) : Word := orNan32 5 (a.setWidth 32) ((a >>> 32).setWidth 32) (f32Fmt.encode (f64 a))

/-- A binary64 number as a fraction; a free value where it is not finite. -/
def dRat (a : DWord) : Rat := ((f64 a).toRat).getD (Config.ratOf a)

/-- A binary64 number as the nearest whole number; a free value where it is not finite. -/
def dInt (a : DWord) : Int := ((f64 a).toInt).getD (Config.intOf a)

/-- The same where the result saturates: an infinity lies beyond every limit. -/
def dIntSat (a : DWord) : Int := match f64 a with | .inf s => if s then -(2 ^ 64) else 2 ^ 64 | _ => dInt a

end Sys2Proof.Machine
end

