-- ==== Sys2Proof/Machine/Linear.lean ====
section
/-! DEFINITION. Vectors, matrices and complex numbers of binary64, second-order filter sections, and eigenvalues with their vectors by
Hessenberg reduction and shifted QR (R147, R150, R153, R158). -/

namespace Sys2Proof.Machine

open Sys2Proof

/-! ## Vectors of binary64 -/

def dAbs (a : DWord) : DWord := a &&& 0x7FFFFFFFFFFFFFFF
def dNeg (a : DWord) : DWord := a ^^^ 0x8000000000000000
def dGe (a b : DWord) : Bool := ((f64 a).lt (f64 b)).any (fun x => !x)
def dMax (a b : DWord) : DWord := if dLt a b then b else a
def dOne : DWord := dOfInt 1

/-- `n / m` as a binary64 number. -/
def dFrac (n m : Nat) : DWord := dDiv (dOfInt n) (dOfInt m)

abbrev Vec := List DWord
abbrev Cpx := DWord × DWord

def vDot (a b : Vec) : DWord := (a.zip b).foldl (fun s x => dAdd s (dMul x.1 x.2)) 0
def vScale (k : DWord) (a : Vec) : Vec := a.map (dMul k)
def vAdd (a b : Vec) : Vec := (a.zip b).map (fun x => dAdd x.1 x.2)
def vSub (a b : Vec) : Vec := (a.zip b).map (fun x => dSub x.1 x.2)
def vZero (n : Nat) : Vec := List.replicate n 0
def matVec (m : List Vec) (v : Vec) : Vec := m.map (fun row => vDot row v)
def transposeM (n : Nat) (m : List Vec) : List Vec := (List.range n).map (fun j => m.map (fun row => (row[j]?).getD 0))
def outer (a b : Vec) : List Vec := a.map (fun x => vScale x b)
def matMap2 (f : DWord → DWord → DWord) (a b : List Vec) : List Vec := (a.zip b).map (fun r => (r.1.zip r.2).map (fun x => f x.1 x.2))
def matScale (k : DWord) (m : List Vec) : List Vec := m.map (vScale k)

/-- `k` times the identity. -/
def identM (k : DWord) (n : Nat) : List Vec := (List.range n).map (fun i => (List.range n).map (fun j => if i = j then k else 0))

/-- A matrix with its symmetric part taken. -/
def symM (n : Nat) (m : List Vec) : List Vec := matMap2 (fun a b => dDiv (dAdd a b) (dOfInt 2)) m (transposeM n m)

def zMul (a b : Cpx) : Cpx := (dSub (dMul a.1 b.1) (dMul a.2 b.2), dAdd (dMul a.1 b.2) (dMul a.2 b.1))
def zConj (a : Cpx) : Cpx := (a.1, dNeg a.2)
def zAdd (a b : Cpx) : Cpx := (dAdd a.1 b.1, dAdd a.2 b.2)
def zAbs2 (a : Cpx) : DWord := dAdd (dMul a.1 a.1) (dMul a.2 a.2)
def zAbs (a : Cpx) : DWord := dSqrt (zAbs2 a)

/-- The product of the conjugate of one complex vector with another. -/
def zDot (a b : List Cpx) : Cpx := (a.zip b).foldl (fun s x => zAdd s (zMul (zConj x.1) x.2)) (0, 0)

/-- One step of a second-order section. -/
def sectionStep (co : List DWord) (s : DWord × DWord) (x : DWord) : DWord × DWord × DWord :=
  let k (i : Nat) : DWord := (co[i]?).getD 0
  let y := dAdd (dMul (k 0) x) s.1
  (y, (dAdd (dSub (dMul (k 1) x) (dMul (k 3) y)) s.2, dSub (dMul (k 2) x) (dMul (k 4) y)))

def dTwoPi : DWord := 0x401921FB54442D18

/-! ## Filters (R147, R158) -/

def dPi : DWord := 0x400921FB54442D18

/-- `tan(π f / rate)`: the frequency axis of the bilinear transform at a sample rate. -/
def warp (f rate : DWord) : DWord :=
  let x := dDiv (dMul dPi f) rate
  dDiv (Config.f64Sin x) (Config.f64Cos x)

/-- Coefficients b0, b1, b2, a1, a2 of a second-order Butterworth section with its −3 dB corner at `f`, bilinear at `rate`. That the
corner is where the digital filter has −3 dB, and the order of the roundings, are DEDUCED, log 44. -/
def butterworth (high : Bool) (f rate : DWord) : List DWord :=
  let k := warp f rate
  let k2 := dMul k k
  let rk := dMul (dSqrt (dOfInt 2)) k
  let n := dAdd (dAdd dOne rk) k2
  let b0 := dDiv (if high then dOne else k2) n
  let b1 := dMul (dOfInt 2) b0
  [b0, if high then dNeg b1 else b1, b0, dDiv (dMul (dOfInt 2) (dSub k2 dOne)) n, dDiv (dAdd (dSub dOne rk) k2) n]

/-- Coefficients of a second-order notch at `f`, `width` wide at −3 dB, bilinear at `rate`; the roundings as for `butterworth`. -/
def notch (f width rate : DWord) : List DWord :=
  let b := warp width rate
  let n := dAdd dOne b
  let c := dDiv (dMul (dOfInt (-2)) (Config.f64Cos (dDiv (dMul (dMul (dOfInt 2) dPi) f) rate))) n
  [dDiv dOne n, c, dDiv dOne n, c, dDiv (dSub dOne b) n]

/-- Coefficients of a second-order resonator centred on `f`, `width` wide at −3 dB (R161): the poles of the notch there, and zeros at 0 and
at half the rate, so that the centre and the width are those of the notch. DEDUCED, log 44; its gain is free. -/
def resonator (f width rate : DWord) : List DWord :=
  let g := Config.resonatorGain f width rate
  [g, 0, dNeg g] ++ (notch f width rate).drop 3

/-! ## Eigenvalues (R153) -/

def zSub (a b : Cpx) : Cpx := (dSub a.1 b.1, dSub a.2 b.2)
def zNeg (a : Cpx) : Cpx := (dNeg a.1, dNeg a.2)
def zScale (k : DWord) (a : Cpx) : Cpx := (dMul k a.1, dMul k a.2)

def zDiv (a b : Cpx) : Cpx :=
  let m := zAbs2 b
  let n := zMul a (zConj b)
  (dDiv n.1 m, dDiv n.2 m)

/-- The square root with a real part that is not negative. -/
def zSqrt (a : Cpx) : Cpx :=
  let m := zAbs a
  let re := dSqrt (dDiv (dAdd m a.1) (dOfInt 2))
  let im := dSqrt (dDiv (dSub m a.1) (dOfInt 2))
  (re, if dLt a.2 0 then dNeg im else im)

abbrev CMat := List (List Cpx)

def zAt (m : CMat) (i j : Nat) : Cpx := (((m[i]?).getD [])[j]?).getD (0, 0)
def zCol (m : CMat) (j : Nat) : List Cpx := m.map (fun row => (row[j]?).getD (0, 0))
def zNorm (v : List Cpx) : DWord := dSqrt (v.foldl (fun s x => dAdd s (zAbs2 x)) 0)
def zMatVec (m : CMat) (v : List Cpx) : List Cpx := m.map (fun row => (row.zip v).foldl (fun s x => zAdd s (zMul x.1 x.2)) (0, 0))
def zIdent (n : Nat) : CMat := (List.range n).map (fun i => (List.range n).map (fun j => if i = j then (dOne, 0) else (0, 0)))

/-- A vector at length 1, or as it is where it is zero. -/
def zUnit (v : List Cpx) : List Cpx := let n := zNorm v; if dAbs n = 0 then v else v.map (fun x => (dDiv x.1 n, dDiv x.2 n))

/-- `M - 2 (M v) v^H`. -/
def reflectRight (v : List Cpx) (m : CMat) : CMat :=
  m.map (fun row =>
    let k := zScale (dOfInt 2) ((row.zip v).foldl (fun s x => zAdd s (zMul x.1 x.2)) (0, 0))
    (row.zip v).map (fun x => zSub x.1 (zMul k (zConj x.2))))

/-- `M - 2 v (v^H M)`. -/
def reflectLeft (v : List Cpx) (m : CMat) : CMat :=
  let n := v.length
  let w := (List.range n).map (fun j => zScale (dOfInt 2) (zDot v (zCol m j)))
  (m.zip v).map (fun r => (r.1.zip w).map (fun x => zSub x.1 (zMul r.2 x.2)))

/-- One Householder step: column `k` of `T` becomes zero below its subdiagonal; `Z` takes the same reflection. -/
def hessStep (tz : CMat × CMat) (k : Nat) : CMat × CMat :=
  let col := (zCol tz.1 k).zipIdx.map (fun x => if k < x.2 then x.1 else (0, 0))
  let x0 := (col[k + 1]?).getD (0, 0)
  let n := zNorm col
  if dAbs n = 0 then tz
  else
    let r := zAbs x0
    let alpha := if dAbs r = 0 then (n, 0) else zScale (dDiv n r) x0
    let v := zUnit (col.zipIdx.map (fun x => if x.2 = k + 1 then zAdd x.1 alpha else x.1))
    (reflectRight v (reflectLeft v tz.1), reflectRight v tz.2)

/-- The Hessenberg form of a real matrix, and the unitary matrix that leads to it. -/
def hessenberg (a : List Vec) : CMat × CMat :=
  (List.range (a.length - 2)).foldl hessStep (a.map (fun row => row.map (fun x => (x, 0))), zIdent a.length)

/-- Two rows combined by a rotation `(c, s)`. -/
def rotRows (m : CMat) (k : Nat) (g : Cpx × Cpx) : CMat :=
  let p := (m[k]?).getD []
  let q := (m[k + 1]?).getD []
  m.zipIdx.map (fun r =>
    if r.2 = k then (p.zip q).map (fun x => zAdd (zMul (zConj g.1) x.1) (zMul (zConj g.2) x.2))
    else if r.2 = k + 1 then (p.zip q).map (fun x => zSub (zMul g.1 x.2) (zMul g.2 x.1))
    else r.1)

/-- Two columns combined by the inverse of that rotation. -/
def rotCols (m : CMat) (k : Nat) (g : Cpx × Cpx) : CMat :=
  m.map (fun row =>
    let p := (row[k]?).getD (0, 0)
    let q := (row[k + 1]?).getD (0, 0)
    row.zipIdx.map (fun x =>
      if x.2 = k then zAdd (zMul p g.1) (zMul q g.2)
      else if x.2 = k + 1 then zSub (zMul q (zConj g.1)) (zMul p (zConj g.2))
      else x.1))

/-- `k` added along the diagonal. -/
def shiftDiag (k : Cpx) (m : CMat) : CMat := m.zipIdx.map (fun r => r.1.zipIdx.map (fun x => if x.2 = r.2 then zAdd x.1 k else x.1))

/-- The eigenvalue of the 2 × 2 block that ends at row `m` which lies nearer to its last element. DESIGN CHOICE, log 44: R153 does not
say which shifts the QR takes. -/
def qrShift (t : CMat) (m : Nat) : Cpx :=
  let a := zAt t (m - 1) (m - 1)
  let d := zAt t m m
  let half := zScale (dFrac 1 2) (zSub a d)
  let root := zSqrt (zAdd (zMul half half) (zMul (zAt t (m - 1) m) (zAt t m (m - 1))))
  let mid := zScale (dFrac 1 2) (zAdd a d)
  let x := zAdd mid root
  let y := zSub mid root
  if dLt (zAbs (zSub y d)) (zAbs (zSub x d)) then y else x

/-- One shifted QR step on rows 0 to `m` of a Hessenberg matrix; `Z` takes the same rotations. -/
def qrStep (m : Nat) (tz : CMat × CMat) : CMat × CMat :=
  let k := qrShift tz.1 m
  let r := (List.range m).foldl (fun (acc : CMat × List (Cpx × Cpx)) i =>
    let a := zAt acc.1 i i
    let b := zAt acc.1 (i + 1) i
    let n := dSqrt (dAdd (zAbs2 a) (zAbs2 b))
    let g : Cpx × Cpx := if dAbs n = 0 then ((dOne, 0), (0, 0)) else ((dDiv a.1 n, dDiv a.2 n), (dDiv b.1 n, dDiv b.2 n))
    (rotRows acc.1 i g, acc.2 ++ [g])) (shiftDiag (zNeg k) tz.1, [])
  let gs := r.2.zipIdx
  (shiftDiag k (gs.foldl (fun t g => rotCols t g.2 g.1) r.1), gs.foldl (fun z g => rotCols z g.2 g.1) tz.2)

/-- QR steps until rows 1 to `m` are decoupled: a subdiagonal element is taken as zero at one rounding error of its neighbours. -/
def qrRun : Nat → Nat → CMat × CMat → CMat × CMat
  | 0, _, tz => tz
  | fuel + 1, m, tz =>
    if m = 0 then tz
    else
      let near := dAdd (zAbs (zAt tz.1 m m)) (zAbs (zAt tz.1 (m - 1) (m - 1)))
      if dGe (dMul (dDiv dOne (dOfInt (2 ^ 52))) near) (zAbs (zAt tz.1 m (m - 1))) then qrRun fuel (m - 1) tz
      else qrRun fuel m (qrStep m tz)

/-- The solution of `(T - T[i][i]) x = 0` with `x[i] = 1` for an upper triangular `T`. -/
def rightNull (t : CMat) (i : Nat) : List Cpx :=
  let l := zAt t i i
  (List.range i).reverse.foldl (fun (x : List Cpx) j =>
    let s := ((((t[j]?).getD []).drop (j + 1)).zip x).foldl (fun s y => zAdd s (zMul y.1 y.2)) (0, 0)
    zNeg (zDiv s (zSub (zAt t j j) l)) :: x) ((dOne, 0) :: List.replicate (t.length - i - 1) (0, 0))

/-- The solution of `w (T - T[i][i]) = 0` with `w[i] = 1`. -/
def leftNull (t : CMat) (i : Nat) : List Cpx :=
  let l := zAt t i i
  ((List.range t.length).drop (i + 1)).foldl (fun (w : List Cpx) j =>
    let s := (w.zip (zCol t j)).foldl (fun s y => zAdd s (zMul y.1 y.2)) (0, 0)
    w ++ [zNeg (zDiv s (zSub (zAt t j j) l))]) (List.replicate i (0, 0) ++ [(dOne, 0)])

/-- The eigenvalues of a matrix, each with its right vector `v` of length 1 and its left vector `u` with `u^H v = 1` (R153). -/
def eigen (a : List Vec) : List (Cpx × List Cpx × List Cpx) :=
  let n := a.length
  let tz := qrRun (40 * n) (n - 1) (hessenberg a)
  (List.range n).map (fun i =>
    let v := zUnit (zMatVec tz.2 (rightNull tz.1 i))
    let u := zMatVec tz.2 ((leftNull tz.1 i).map zConj)
    let p := zConj (zDot u v)
    (zAt tz.1 i i, v, u.map (fun x => zDiv x p)))

end Sys2Proof.Machine
end

