-- ==== Sys2Proof/Machine/Crypto.lean ====
section
/-! DEFINITION. The published functions that the spec names: SHA-256 and HMAC-SHA-256 (FIPS 180-4, RFC 2104), HKDF-SHA-256 (RFC 5869), AES
and its GCM mode (FIPS 197, NIST SP 800-38D). -/

namespace Sys2Proof.Machine

open Sys2Proof

/-! ## SHA-256 -/

def shaK : List Nat :=
  [0x428a2f98, 0x71374491, 0xb5c0fbcf, 0xe9b5dba5, 0x3956c25b, 0x59f111f1, 0x923f82a4, 0xab1c5ed5]
  ++ [0xd807aa98, 0x12835b01, 0x243185be, 0x550c7dc3, 0x72be5d74, 0x80deb1fe, 0x9bdc06a7, 0xc19bf174]
  ++ [0xe49b69c1, 0xefbe4786, 0x0fc19dc6, 0x240ca1cc, 0x2de92c6f, 0x4a7484aa, 0x5cb0a9dc, 0x76f988da]
  ++ [0x983e5152, 0xa831c66d, 0xb00327c8, 0xbf597fc7, 0xc6e00bf3, 0xd5a79147, 0x06ca6351, 0x14292967]
  ++ [0x27b70a85, 0x2e1b2138, 0x4d2c6dfc, 0x53380d13, 0x650a7354, 0x766a0abb, 0x81c2c92e, 0x92722c85]
  ++ [0xa2bfe8a1, 0xa81a664b, 0xc24b8b70, 0xc76c51a3, 0xd192e819, 0xd6990624, 0xf40e3585, 0x106aa070]
  ++ [0x19a4c116, 0x1e376c08, 0x2748774c, 0x34b0bcb5, 0x391c0cb3, 0x4ed8aa4a, 0x5b9cca4f, 0x682e6ff3]
  ++ [0x748f82ee, 0x78a5636f, 0x84c87814, 0x8cc70208, 0x90befffa, 0xa4506ceb, 0xbef9a3f7, 0xc67178f2]

def shaInit : List Nat := [0x6a09e667, 0xbb67ae85, 0x3c6ef372, 0xa54ff53a, 0x510e527f, 0x9b05688c, 0x1f83d9ab, 0x5be0cd19]

/-- Rotation of a 32-bit word to the right. -/
def rotr (n x : Nat) : Nat := (x >>> n ||| x <<< (32 - n)) % 2 ^ 32

/-- `n` more words of the message schedule; the newest word stands first. -/
def shaSchedule : Nat → List Nat → List Nat
  | 0, w => w
  | n + 1, w =>
    let a := w.getD 1 0
    let b := w.getD 14 0
    let s1 := rotr 17 a ^^^ rotr 19 a ^^^ (a >>> 10)
    let s0 := rotr 7 b ^^^ rotr 18 b ^^^ (b >>> 3)
    shaSchedule n ((s1 + w.getD 6 0 + s0 + w.getD 15 0) % 2 ^ 32 :: w)

/-- One round: the eight working words, a round constant and a word of the schedule. -/
def shaRound (s : List Nat) (kw : Nat × Nat) : List Nat :=
  match s with
  | [a, b, c, d, e, f, g, h] =>
    let t1 := h + (rotr 6 e ^^^ rotr 11 e ^^^ rotr 25 e) + ((e &&& f) ^^^ ((2 ^ 32 - 1 - e) &&& g)) + kw.1 + kw.2
    let t2 := (rotr 2 a ^^^ rotr 13 a ^^^ rotr 22 a) + ((a &&& b) ^^^ (a &&& c) ^^^ (b &&& c))
    [(t1 + t2) % 2 ^ 32, a, b, c, (d + t1) % 2 ^ 32, e, f, g]
  | s => s

/-- The hash of `n` blocks of 64 bytes, on from the words `h`. -/
def shaBlocks : Nat → List Nat → Bytes → List Nat
  | 0, h, _ => h
  | n + 1, h, b =>
    let w := (List.range 16).map (fun j => beNat (slice b (4 * j) 4))
    let s := (shaK.zip (shaSchedule 48 w.reverse).reverse).foldl shaRound h
    shaBlocks n (List.zipWith (fun x y => (x + y) % 2 ^ 32) h s) (b.drop 64)

/-- SHA-256 of a byte string. -/
def sha256 (m : Bytes) : Bytes :=
  let pad := m ++ [0x80] ++ zeros ((119 - m.length % 64) % 64) ++ beBytes 8 (8 * m.length)
  (shaBlocks (pad.length / 64) shaInit pad).flatMap (beBytes 4)

/-- HMAC-SHA-256. -/
def hmacSha256 (key text : Bytes) : Bytes :=
  let k0 := if 64 < key.length then sha256 key else key
  let k := k0 ++ zeros (64 - k0.length)
  sha256 (k.map (fun x => x ^^^ 0x5C) ++ sha256 (k.map (fun x => x ^^^ 0x36) ++ text))

/-- The blocks of HKDF's second stage from number `i` on, after block `t`. -/
def hkdfExpand (prk info : Bytes) : Nat → Nat → Bytes → Bytes
  | 0, _, _ => []
  | n + 1, i, t =>
    let t' := hmacSha256 prk (t ++ info ++ [BitVec.ofNat 8 i])
    t' ++ hkdfExpand prk info n (i + 1) t'

/-- HKDF-SHA-256 with a salt, an input, an info string and a length; an empty salt is 32 zeros. -/
def hkdfSha256 (salt input info : Bytes) (len : Nat) : Bytes :=
  (hkdfExpand (hmacSha256 (if salt.isEmpty then zeros 32 else salt) input) info ((len + 31) / 32) 1 []).take len

/-! ## AES -/

def aesRows : List Nat :=
  [0x637c777bf26b6fc53001672bfed7ab76, 0xca82c97dfa5947f0add4a2af9ca472c0, 0xb7fd9326363ff7cc34a5e5f171d83115,
   0x04c723c31896059a071280e2eb27b275, 0x09832c1a1b6e5aa0523bd6b329e32f84, 0x53d100ed20fcb15b6acbbe394a4c58cf,
   0xd0efaafb434d338545f9027f503c9fa8, 0x51a3408f929d38f5bcb6da2110fff3d2, 0xcd0c13ec5f974417c4a77e3d645d1973,
   0x60814fdc222a908846eeb814de5e0bdb, 0xe0323a0a4906245cc2d3ac629195e479, 0xe7c8376d8dd54ea96c56f4ea657aae08,
   0xba78252e1ca6b4c6e8dd741f4bbd8b8a, 0x703eb5664803f60e613557b986c11d9e, 0xe1f8981169d98e949b1e87e9ce5528df,
   0x8ca1890dbfe6426841992d0fb054bb16]

/-- The substitution of a byte. -/
def aesSub (x : Nat) : Nat := aesRows.getD (x / 16) 0 >>> (8 * (15 - x % 16)) % 256

/-- A byte times x in GF(2⁸). -/
def aesTwice (x : Nat) : Nat := if x < 128 then 2 * x else (2 * x) ^^^ 0x11B

def xorL (a b : List Nat) : List Nat := List.zipWith (fun x y => x ^^^ y) a b

/-- `n` more words of the key schedule of a key of `nk` words; `i` is the number of the next, the newest word stands first. -/
def aesSchedule (nk : Nat) : Nat → Nat → Nat → List (List Nat) → List (List Nat)
  | 0, _, _, w => w
  | n + 1, i, rcon, w =>
    let t := w.headD []
    if i % nk = 0 then
      let u := xorL ((t.drop 1 ++ t.take 1).map aesSub) [rcon, 0, 0, 0]
      aesSchedule nk n (i + 1) (aesTwice rcon) (xorL (w.getD (nk - 1) []) u :: w)
    else
      let u := if 6 < nk ∧ i % nk = 4 then t.map aesSub else t
      aesSchedule nk n (i + 1) rcon (xorL (w.getD (nk - 1) []) u :: w)

/-- The round keys of a key of 16 or 32 bytes. -/
def aesKeys (key : Bytes) : List (List Nat) :=
  let nk := key.length / 4
  let w0 := (List.range nk).map (fun j => (slice key (4 * j) 4).map (fun x => x.toNat))
  let w := (aesSchedule nk (4 * (nk + 7) - nk) nk 1 w0.reverse).reverse
  (List.range (nk + 7)).map (fun r => w.getD (4 * r) [] ++ w.getD (4 * r + 1) [] ++ w.getD (4 * r + 2) [] ++ w.getD (4 * r + 3) [])

def shiftRows (s : List Nat) : List Nat := [0, 5, 10, 15, 4, 9, 14, 3, 8, 13, 2, 7, 12, 1, 6, 11].map (fun i => s.getD i 0)

def mixColumn (a b c d : Nat) : List Nat :=
  let t := a ^^^ b ^^^ c ^^^ d
  [a ^^^ t ^^^ aesTwice (a ^^^ b), b ^^^ t ^^^ aesTwice (b ^^^ c), c ^^^ t ^^^ aesTwice (c ^^^ d), d ^^^ t ^^^ aesTwice (d ^^^ a)]

def mixColumns (s : List Nat) : List Nat :=
  (List.range 4).flatMap (fun c => mixColumn (s.getD (4 * c) 0) (s.getD (4 * c + 1) 0) (s.getD (4 * c + 2) 0) (s.getD (4 * c + 3) 0))

/-- The rounds after the first key addition. -/
def aesRounds : List (List Nat) → List Nat → List Nat
  | [], s => s
  | [k], s => xorL (shiftRows (s.map aesSub)) k
  | k :: k' :: t, s => aesRounds (k' :: t) (xorL (mixColumns (shiftRows (s.map aesSub))) k)

/-- AES of one block under round keys. -/
def aesBlock (keys : List (List Nat)) (block : Bytes) : Bytes :=
  (aesRounds keys.tail (xorL (block.map (fun x => x.toNat)) (keys.headD []))).map (fun x => BitVec.ofNat 8 x)

/-! ## GCM -/

/-- `n` further steps of the product in GF(2¹²⁸): bit `n` of `x` decides whether `v` is added. -/
def gcmMulFrom (x : Nat) : Nat → Nat → Nat → Nat
  | 0, z, _ => z
  | n + 1, z, v => gcmMulFrom x n (if x.testBit n then z ^^^ v else z) (if v % 2 = 1 then v / 2 ^^^ 0xE1 <<< 120 else v / 2)

def gcmMul (x y : Nat) : Nat := gcmMulFrom x 128 0 y

def pad16 (b : Bytes) : Bytes := b ++ zeros ((16 - b.length % 16) % 16)

/-- GHASH of `n` blocks. -/
def ghash (h : Nat) : Nat → Nat → Bytes → Nat
  | 0, y, _ => y
  | n + 1, y, b => ghash h n (gcmMul (y ^^^ beNat (b.take 16)) h) (b.drop 16)

/-- The first counter block of a nonce. -/
def gcmStart (h : Nat) (nonce : Bytes) : Nat :=
  if nonce.length = 12 then beNat nonce * 2 ^ 32 + 1
  else
    let b := pad16 nonce ++ beBytes 16 (8 * nonce.length)
    ghash h (b.length / 16) 0 b

/-- The counter block `n` steps on: its low 32 bits count. -/
def gcmCount (j n : Nat) : Nat := j / 2 ^ 32 * 2 ^ 32 + (j + n) % 2 ^ 32

def xorBytes (a b : Bytes) : Bytes := List.zipWith (fun x y => x ^^^ y) a b

/-- The cipher stream of GCM applied to a text: its own inverse. -/
def gcmCrypt (key nonce text : Bytes) : Bytes :=
  let keys := aesKeys key
  let j := gcmStart (beNat (aesBlock keys (zeros 16))) nonce
  ((List.range ((text.length + 15) / 16)).flatMap (fun i => xorBytes ((text.drop (16 * i)).take 16) (aesBlock keys (beBytes 16 (gcmCount j (i + 1))))))

/-- The 16-byte tag of GCM over additional data and a ciphertext. -/
def gcmTag (key nonce aad cipher : Bytes) : Bytes :=
  let keys := aesKeys key
  let h := beNat (aesBlock keys (zeros 16))
  let b := pad16 aad ++ pad16 cipher ++ beBytes 8 (8 * aad.length) ++ beBytes 8 (8 * cipher.length)
  xorBytes (aesBlock keys (beBytes 16 (gcmStart h nonce))) (beBytes 16 (ghash h (b.length / 16) 0 b))

end Sys2Proof.Machine
end

