-- ==== Sys2Proof/Machine/KeyStore.lean ====
section
/-! DEFINITION. The key store: use of a key, the update messages and their journalled commit, life-cycle states, key-store
start (R476 to R497). -/

namespace Sys2Proof.Machine

/-! ## Use of a key -/

def KeySt.slot (k : KeySt) (n : Nat) : Option Slot := k.slots.find n

/-- The worlds of R481, by WORLD bit. -/
def worldUpdate : Nat := 0
def worldR90_5 : Nat := 1
def worldGooseSv : Nat := 2
def worldMacsec : Nat := 3
def worldImage : Nat := 4

/-- The algorithm belongs to the world (R481). -/
def algOfWorld (world alg : Nat) : Bool :=
  if world = 0 then decide (alg = 0x30)
  else if world = 1 ∨ world = 2 then decide (1 ≤ alg ∧ alg ≤ 7)
  else if world = 3 then decide (alg = 0x10)
  else if world = 4 then decide (alg = 0x20)
  else false

/-- Key bytes of an algorithm (R481). -/
def keyBytesOf (alg : Nat) : Nat := if alg = 4 ∨ alg = 5 then 16 else 32

/-- Every proper ancestor of a slot is VALID. Depth is at most 4, so three masters are enough to reach slot 0 (R480). -/
def KeySt.ancestorsValid (k : KeySt) : Nat → Nat → Bool
  | 0, n => decide (n = 0)
  | fuel + 1, n =>
    if n = 0 then true
    else match k.slot n with
      | none => false
      | some s => match k.slot s.master with
        | none => false
        | some m => decide (m.state = .valid) && KeySt.ancestorsValid k fuel s.master

/-- The depth of a slot, with a chain that does not reach slot 0 counted as too deep (R480). -/
def KeySt.depthOf (k : KeySt) : Nat → Nat → Nat
  | 0, _ => 5
  | fuel + 1, n => if n = 0 then 1 else match k.slot n with | none => 5 | some s => 1 + KeySt.depthOf k fuel s.master

def KeySt.depth (k : KeySt) (n : Nat) : Nat := KeySt.depthOf k 5 n

/-- The life-cycle state is in a slot's LC_MASK (R482). -/
def KeySt.lcAllows (k : KeySt) (mask : Nat) : Bool :=
  match k.lc with | .operational => mask.testBit 0 | .maintenance => mask.testBit 1 | _ => false

/-- A use of the key of a slot (R482): its slot, or the status with which the use fails. -/
def KeySt.use (k : KeySt) (n : Nat) : Except Nat Slot :=
  if k.lc = .returned then .error sLifecycle
  else if k.rootFail || !k.started then .error sKeyOrphaned
  else match k.slot n with
    | none => .error sAuthFail
    | some s =>
      if s.state = .orphaned ∨ (s.state = .valid ∧ k.ancestorsValid 4 n = false) then .error sKeyOrphaned
      else if s.state = .invalid then .error sAuthFail
      else if k.lcAllows s.lcMask then .ok s else .error sLifecycle

/-- A use that fails because of an ancestor or of ROOT_FAIL counts in KEY_USE_ORPHANED (R482). -/
def Dev.countUse (d : Dev) : Except Nat Slot → Dev
  | .ok _ => d
  | .error st => if st = sKeyOrphaned then d.count Reg.KEY_USE_ORPHANED else d

/-- The MAC that an algorithm of R481 gives over a text: its bytes, as many as the algorithm's tag has. -/
def macTag (alg : Nat) (key text : Bytes) : Bytes :=
  if alg = 1 then (hmacSha256 key text).take 10
  else if alg = 2 then (hmacSha256 key text).take 16
  else if alg = 3 then (hmacSha256 key text).take 32
  else if alg = 4 ∨ alg = 6 then (gcmTag key (zeros 12) text []).take 8
  else (gcmTag key (zeros 12) text []).take 16

/-! ## Enrolment and regeneration (R476 to R479) -/

def deviceIdOf (root : Bytes) : Nat := leNat (hkdfSha256 [] root (asciiBytes "G840 identity") 8)

/-- The storage key KS. -/
def storageKey (root : Bytes) : Bytes := hkdfSha256 [] root (asciiBytes "G840 storage") 32

/-- The block of a key in a cell: KEY_ID, SSCI, salt and key. DESIGN CHOICE, log 178: the spec gives the block of a cell no layout. -/
def keyText (v : KeyVal) : Bytes := leBytes 4 v.keyId ++ leBytes 4 v.ssci ++ leBytes 1 v.salt.length ++ v.salt ++ v.bytes

def keyOfText (b : Bytes) : KeyVal :=
  let n := leNat (slice b 8 1)
  { keyId := leNat (slice b 0 4), ssci := leNat (slice b 4 4), salt := (b.drop 9).take n, bytes := b.drop (9 + n) }

/-- A key under the storage key (R478). -/
def sealKey (ks : Bytes) (n : Nat) (v : KeyVal) : SealedKey :=
  let c := gcmCrypt ks (Config.cellNonce n) (keyText v)
  { nonce := Config.cellNonce n, cipher := c, tag := gcmTag ks (Config.cellNonce n) [] c }

/-- The key that a cell holds; none where it does not open. -/
def openKey (ks : Bytes) (x : SealedKey) : Option KeyVal :=
  if gcmTag ks x.nonce [] x.cipher = x.tag then some (keyOfText (gcmCrypt ks x.nonce x.cipher)) else none

/-- A slot as its cell, and a cell as the cache takes it: without a root secret no key opens. -/
def sealSlot (root : Option Bytes) (n : Nat) (x : Slot) : KeyCell :=
  let ks := storageKey (root.getD [])
  { state := x.state, world := x.world, alg := x.alg, lcMask := x.lcMask, master := x.master
    cur := x.cur.map (sealKey ks (2 * n)), next := x.next.map (sealKey ks (2 * n + 1)) }

def openCell (root : Option Bytes) (c : KeyCell) : Slot :=
  let o (x : Option SealedKey) : Option KeyVal := x.bind (fun y => root.bind (fun r => openKey (storageKey r) y))
  { state := c.state, world := c.world, alg := c.alg, lcMask := c.lcMask, master := c.master, cur := o c.cur, next := o c.next }

/-- The cache is loaded from the cells (R497). -/
def KeySt.loadCache (k : KeySt) : KeySt := { k with slots := k.cells.mapVals (fun _ c => openCell k.root c) }

/-- The check value held beside the helper data: the first 8 bytes of SHA-256 of RS. -/
def rootCheck (root : Bytes) : Bytes := (sha256 root).take 8

/-- Enrolment: a seed is drawn, helper data formed, the root secret and its identity follow; the state is PROVISION with
every slot EMPTY (R476, R492). The CRC-32 of a copy covers its helper data. -/
def KeySt.enrol (k : KeySt) : KeySt :=
  let seed := leBytes 32 (Config.randomNat k.draws)
  let root := sha256 seed
  let data := Config.pufHelper seed k.readings
  let copy : HelperCopy := { data := data, check := rootCheck root, crc := crc32 data }
  { k with
    helper := [copy, copy], root := some root, rootFail := false,
    deviceId := deviceIdOf root, retainedId := deviceIdOf root, lc := .provision, slots := [], cells := [], sweep := [],
    enrolWaits := false, readings := k.readings + 1, draws := k.draws + 1 }

/-- Regeneration attempts: the root secret, the readings made and the retries counted (R477). -/
def regenerate (helper check : Bytes) : Nat → Nat → Nat → Option Bytes × Nat × Nat
  | 0, reading, retries => (none, reading, retries)
  | fuel + 1, reading, retries =>
    let root := sha256 (Config.pufDecode helper reading)
    if rootCheck root = check then (some root, reading + 1, retries)
    else if fuel = 0 then (none, reading + 1, retries)
    else regenerate helper check fuel (reading + 1) (retries + 1)

/-! ## The commit (R489, R490) and the sweep (R484) -/

/-- A slot whose chain of masters passes a swept slot (R484). -/
def KeySt.descends (k : KeySt) (from_ : List Nat) : Nat → Nat → Bool
  | 0, _ => false
  | fuel + 1, n =>
    if n = 0 then false
    else match k.slot n with
      | none => false
      | some s => from_.contains s.master || KeySt.descends k from_ fuel s.master

/-- The sweep marks every descendant ORPHANED and zeroises its stored keys. -/
def KeySt.runSweep (k : KeySt) : KeySt :=
  let hit (n : Nat) (st : SlotState) : Bool := decide (st = .valid) && k.descends k.sweep 5 n
  { k with
    slots := k.slots.mapVals (fun n s => if hit n s.state then { s with state := .orphaned, cur := none, next := none } else s)
    cells := k.cells.mapVals (fun n s => if hit n s.state then { s with state := .orphaned, cur := none, next := none } else s)
    sweep := [] }

/-- A change as MRAM holds it. -/
def KeySt.stored (k : KeySt) : KeyChange → StoredChange
  | .setSlot n v => .setCell n (sealSlot k.root k.seals v)
  | .invalidate n => .invalidate n
  | .lifecycle x => .lifecycle x
  | .ownerInit v => .ownerInit (sealSlot k.root k.seals v)
  | .counterOnly => .counterOnly

/-- A stored change as the cache takes it. -/
def KeySt.opened (k : KeySt) : StoredChange → KeyChange
  | .setCell n c => .setSlot n (openCell k.root c)
  | .invalidate n => .invalidate n
  | .lifecycle x => .lifecycle x
  | .ownerInit c => .ownerInit (openCell k.root c)
  | .counterOnly => .counterOnly

/-- Step 5 of R490 in MRAM: the slot directory entry, or the life-cycle state (R489, R492). -/
def KeySt.applyStored (k : KeySt) : StoredChange → KeySt
  | .setCell n c => { k with cells := k.cells.put n c, writes := k.writes.update n 0 (· + 1) }
  | .invalidate n =>
    { k with
      cells := k.cells.update n ⟨.invalid, 0, 0, 0, 0, none, none⟩ (fun s => { s with state := .invalid, cur := none, next := none })
      sweep := k.sweep ++ [n] }
  | .lifecycle .provision => { k with lc := .provision, cells := [], sweep := [] }
  | .lifecycle .returned => { k with lc := .returned, cells := [], sweep := [], helper := [], root := none }
  | .lifecycle d => { k with lc := d }
  | .ownerInit c => { k with cells := k.cells.put 0 c, lc := .operational }
  | .counterOnly => k

/-- The same in the key cache, in the same instant. -/
def KeySt.applyCache (k : KeySt) : KeyChange → KeySt
  | .setSlot n v => { k with slots := k.slots.put n v }
  | .invalidate n =>
    { k with slots := k.slots.update n ⟨.invalid, 0, 0, 0, 0, none, none⟩ (fun s => { s with state := .invalid, cur := none, next := none }) }
  | .lifecycle .provision | .lifecycle .returned => { k with slots := [] }
  | .ownerInit v => { k with slots := k.slots.put 0 v }
  | .lifecycle _ | .counterOnly => k

/-- The journalled commit, of which the first `upTo` steps are written before the supply is lost; 6 or more is all of it.
The journal's commit word is step 3, the counter step 4, the slot directory and the key cache step 5 (R490). -/
def KeySt.commit (k0 : KeySt) (kind target counter : Nat) (c : KeyChange) (upTo : Nat) : KeySt :=
  let sc := k0.stored c
  let k := { k0 with seals := k0.seals + 1 }
  let j (st : JournalState) : Journal := ⟨st, kind, target, counter, sc⟩
  if upTo = 0 then { k with interrupted := true }
  else if upTo < 3 then { k with journal := some (j .open_), interrupted := true }
  else if upTo = 3 then { k with journal := some (j .committed), interrupted := true }
  else if upTo = 4 then { k with journal := some (j .committed), counter := counter, interrupted := true }
  else
    let k5 := ({ k with counter := counter }.applyStored sc).applyCache c
    if upTo = 5 then { k5 with journal := some (j .committed), interrupted := true }
    else { k5 with journal := some (j .done) }

/-! ## Update messages (R485 to R489) -/

/-- The fields of an update message (R485). -/
structure UpdateMsg where
  kind : Nat
  format : Nat
  target : Nat
  auth : Nat
  deviceId : Nat
  counter : Nat
  world : Nat
  lcMask : Nat
  master : Nat
  alg : Nat
  newLc : Nat
  keyId : Nat
  nonce : Bytes
  aad : Bytes
  wrapped : Bytes
  tag : Bytes
  /-- A reserved bit is 1, or a field that the KIND leaves at 0 is not. -/
  resv : Bool
  deriving DecidableEq, Repr

def UpdateMsg.ofBytes (b : Bytes) : UpdateMsg :=
  let f (off n : Nat) : Nat := leNat (slice b off n)
  let kind := f 0 1
  let install := decide (kind = 1)
  { kind := kind, format := f 1 1, target := f 2 2 % 1024, auth := f 4 2 % 1024, deviceId := f 8 8, counter := f 16 8,
    world := f 24 1, lcMask := f 25 1, master := f 26 2 % 1024, alg := f 28 1, newLc := f 29 1, keyId := f 32 4,
    nonce := slice b 36 12, aad := slice b 0 48, wrapped := slice b 48 48, tag := slice b 96 16,
    resv := decide (1024 ≤ f 2 2) || decide (1024 ≤ f 4 2) || decide (f 6 2 ≠ 0) || decide (32 ≤ f 24 1)
      || decide (4 ≤ f 25 1) || decide (1024 ≤ f 26 2) || decide (8 ≤ f 29 1) || decide (f 30 2 ≠ 0)
      || (decide (kind = 5) && decide (f 2 2 ≠ 0))
      || (!install && decide (kind ≠ 6) && (decide (f 24 1 ≠ 0) || decide (f 25 1 ≠ 0) || decide (f 26 2 ≠ 0) || decide (f 28 1 ≠ 0)))
      || (decide (kind ≠ 5) && decide (f 29 1 ≠ 0))
      || (!install && decide (kind ≠ 2) && decide (kind ≠ 6) && decide (f 32 4 ≠ 0)) }

/-- The one WORLD bit set in a mask (R485). -/
def worldBit (mask : Nat) : Option Nat := (List.range 5).find? (fun i => decide (mask = 2 ^ i))

/-- The key block of a message under an algorithm (R485). -/
def keyBlock (alg keyId : Nat) (plain : Bytes) : KeyVal :=
  { bytes := plain.take (keyBytesOf alg), keyId := keyId,
    salt := if alg = 0x10 then slice plain 32 12 else [], ssci := if alg = 0x10 then leNat (slice plain 44 4) else 0 }

/-- The kind of message is accepted in the current life-cycle state (R487, R492). -/
def kindAllowed (lc : LifeCycle) (m : UpdateMsg) : Bool :=
  match lc with
  | .blank | .returned => false
  | .provision => decide (m.kind = 6) || (decide (m.kind = 5) && decide (m.newLc = 7))
  | .operational | .maintenance => decide (m.kind ≠ 6)

/-- The message uses the zero key of R487. -/
def zeroKeyAllowed (lc : LifeCycle) (m : UpdateMsg) : Bool :=
  decide (lc = .provision) && (decide (m.kind = 6) || (decide (m.kind = 5) && decide (m.newLc = 7)))

/-- No slot would lie deeper than 4 with `v` in slot `n`: `n` itself, or a slot whose chain of masters passes it (R480). -/
def KeySt.depthFits (k : KeySt) (n : Nat) (v : Slot) : Bool :=
  let k1 := { k with slots := k.slots.put n v }
  decide (k.depth v.master + 1 ≤ 4) && k1.slots.all (fun (x : Nat × Slot) => !k1.descends [n] 5 x.1 || decide (k1.depth x.1 ≤ 4))

/-- What an accepted message changes, or the status of R489. -/
def changeOf (k : KeySt) (m : UpdateMsg) (plain : Bytes) : Except Nat KeyChange :=
  let t := k.slot m.target
  if m.kind = 1 then
    match worldBit m.world with
    | none => .error sRange
    | some w =>
      match k.slot m.master with
      | none => .error sRange
      | some ms =>
        if m.target = 0 then .error sRange
        else if ms.state = .orphaned then .error sKeyOrphaned
        else if ms.state ≠ .valid ∨ ms.world ≠ worldUpdate then .error sRange
        else if algOfWorld w m.alg = false then .error sRange
        else
          let v : Slot := ⟨.valid, w, m.alg, m.lcMask, m.master, some (keyBlock m.alg m.keyId plain), none⟩
          if k.depthFits m.target v = false then .error sRange
          else match t with
          | none => .ok (.setSlot m.target v)
          | some s =>
            if s.state = .valid ∧ ¬ (s.master = m.master ∧ s.world = w ∧ s.alg = m.alg) then .error sRange
            else .ok (.setSlot m.target v)
  else if m.kind = 2 then
    match t with
    | none => .error sRange
    | some s =>
      if s.state ≠ .valid ∨ s.world = worldUpdate then .error sRange
      else .ok (.setSlot m.target { s with next := some (keyBlock s.alg m.keyId plain) })
  else if m.kind = 3 then
    match t with
    | none => .error sRange
    | some s =>
      if s.state ≠ .valid then .error sRange
      else match s.next with
        | none => .error sNotValid
        | some nx => .ok (.setSlot m.target { s with cur := some nx, next := none })
  else if m.kind = 4 then
    match t with
    | none => .error sRange
    | some s => if m.target = 0 ∨ s.state ≠ .valid then .error sRange else .ok (.invalidate m.target)
  else if m.kind = 5 then
    match k.lc, m.newLc with
    | .operational, 3 => .ok (.lifecycle .maintenance)
    | .maintenance, 2 => .ok (.lifecycle .operational)
    | .operational, 1 | .maintenance, 1 => .ok (.lifecycle .provision)
    | .provision, 7 | .operational, 7 | .maintenance, 7 => .ok (.lifecycle .returned)
    | _, _ => .error sRange
  else
    if m.target ≠ 0 ∨ (k.slot 0).isSome = true then .error sRange
    else .ok (.ownerInit ⟨.valid, worldUpdate, 0x30, m.lcMask, 0, some (keyBlock 0x30 m.keyId plain), none⟩)

/-- The authenticating key of a message, or the status with which its AUTH fails (R486 to R488); it is a use of AUTH's key (R482, R483). -/
def authKeyOf (k : KeySt) (m : UpdateMsg) : Except Nat Bytes :=
  if k.rootFail then .error sKeyOrphaned
  else if m.auth = 0x3FF then (if zeroKeyAllowed k.lc m then .ok (zeros 32) else .error sAuthFail)
  else match k.slot m.auth with
    | none => .error sAuthFail
    | some s =>
      if s.state = .orphaned ∨ k.ancestorsValid 4 m.auth = false then .error sKeyOrphaned
      else if s.state ≠ .valid ∨ s.world ≠ worldUpdate then .error sAuthFail
      else
        let fits :=
          if m.kind = 5 then decide (m.auth = 0)
          else if m.kind = 1 then decide (m.auth = m.master)
          else if m.kind = 6 then false
          else match k.slot m.target with | none => decide (m.auth = 0) | some t => decide (t.master = m.auth)
        if !fits then .error sAuthFail
        else if k.lcAllows s.lcMask then .ok ((s.cur.map (fun v => v.bytes)).getD [])
        else .error sLifecycle

/-- The checks of R488 in their order: what the message changes, or the first status that applies. -/
def checkUpdate (k : KeySt) (descOk : Bool) (m : UpdateMsg) : Except Nat KeyChange :=
  if !descOk || decide (m.format ≠ 1) || decide (m.kind = 0) || decide (6 < m.kind) || m.resv then .error sBadDesc
  else if m.deviceId ≠ k.deviceId then .error sAuthFail
  else if kindAllowed k.lc m = false then .error sLifecycle
  else match authKeyOf k m with
    | .error st => .error st
    | .ok key =>
      let kw := hkdfSha256 (leBytes 8 k.deviceId) key (asciiBytes "G840 key update") 32
      if gcmTag kw m.nonce m.aad m.wrapped ≠ m.tag then .error sAuthFail
      else if m.counter ≤ k.counter then .error sCounterStale
      else changeOf k m (gcmCrypt kw m.nonce m.wrapped)

/-- The KEY_UPDATE ring takes its next descriptor: it runs with a posted descriptor, and no update may be under way,
interrupted, or barred by PFW_N or a management stall (R488, R490, R524). -/
def takesUpdate (k : KeySt) (d : Dev) (n : Nat) : Bool :=
  d.runs n 3 && d.hostReady && decide (0 < d.available n) && k.started && !k.interrupted && !d.clk.pfw && !d.bit Fld.SAF_STATUS_MGMT_STALL

/-- A key-update descriptor is sound: its OPCODE is 0 and it names a message of 112 bytes or more (R456, R460, R485). -/
def keyDescOk (b : Bytes) : Bool := decide (leNat (slice b 0 2) = 0) && !descMalformed b && decide (112 ≤ leNat (slice b 4 2))

/-- The descriptor is sound and the message that it names is read. -/
def msgRead (desc : KeyDesc) : Bool := keyDescOk desc.bytes && desc.msgOk

/-- An update message is taken from KEY_UPDATE ring `n`, checked, and committed or refused (R488 to R490). The use of an orphaned key
to authenticate it counts (R482, R483). A sweep still under way ends
first, so that no descendant of an invalidated slot is used again. -/
def keyUpdate (n : Nat) (desc : KeyDesc) (msg : Bytes) (upTo : Nat) (k0 : KeySt) (d : Dev) : KeySt × Dev :=
  if takesUpdate k0 d n = false then (k0, d)
  else if desc.readOk = false then (k0, d.readFails n)
  else
    let k := k0.runSweep
    let m := UpdateMsg.ofBytes (if msgRead desc then msg else [])
    let kd := (d.ring n).next
    let session := (d.ring n).session
    let d1 := if keyDescOk desc.bytes && !desc.msgOk then (d.fetch n).count Reg.HIF_DMA_ERR else d.fetch n
    match checkUpdate k (msgRead desc) m with
    | .error st =>
      let d2 := if st = sKeyOrphaned then d1.count Reg.KEY_USE_ORPHANED else d1
      (k, ((d2.count Reg.KEY_REFUSED).event .updateRefused m.target m.kind 0 st).complete n kd session st
        (k.counter % 2 ^ 32) 0 [])
    | .ok c =>
      let k1 := k.commit m.kind m.target m.counter c upTo
      if upTo < 5 then (k1, d1)
      else (k1, (d1.count Reg.KEY_UPDATES).complete n kd session sOk (k1.counter % 2 ^ 32) 0 [])

/-- A row for one KIND takes a message of that KIND, or one whose KIND is unknown or not read; a message of another kind belongs to
another row. -/
def keyUpdateRow (kind n : Nat) (desc : KeyDesc) (msg : Bytes) (upTo : Nat) (k : KeySt) (d : Dev) : KeySt × Dev :=
  let b := leNat (slice msg 0 1)
  if b = kind ∨ b = 0 ∨ 6 < b ∨ (desc.readOk && msgRead desc) = false then keyUpdate n desc msg upTo k d else (k, d)

/-! ## Key-store start (R477, R491, R497) -/

/-- The journal is replayed (R491): OPEN rolls back, COMMITTED rolls forward, DONE replays nothing. -/
def replayJournal (k : KeySt) (d : Dev) : KeySt × Dev :=
  match k.journal with
  | none => ({ k with interrupted := false, lastRestart := 0 }, d)
  | some j =>
    match j.state with
    | .done => ({ k with interrupted := false, lastRestart := 0 }, d)
    | .open_ =>
      ({ k with journal := some { j with state := .done }, interrupted := false, lastRestart := 1 },
        d.event .journalReplayed j.target (j.kind + 256 * 1))
    | .committed =>
      ({ (({ k with counter := j.counter }.applyStored j.change).applyCache (k.opened j.change)) with
          journal := some { j with state := .done }, interrupted := false, lastRestart := 2 },
        d.event .journalReplayed j.target (j.kind + 256 * 2))

/-- Enrolment with its record, or its wait for random output (R476, R479). -/
def enrolNow (k : KeySt) (d : Dev) : KeySt × Dev :=
  if k.trngFail then ({ k with enrolWaits := true }, d)
  else
    let k1 := k.enrol
    (k1, d.event .rootEnrolled noIndex (k1.deviceId % 2 ^ 32))

/-- The root secret is enrolled at the first start and regenerated at every later one. -/
def startRoot (k : KeySt) (d : Dev) : KeySt × Dev :=
  if k.lc = .blank then enrolNow k d
  else if k.lc = .returned then ({ k with root := none, deviceId := k.retainedId }, d)
  else match k.helper.find? (fun h => decide (crc32 h.data = h.crc)) with
    | none => ({ k with rootFail := true, root := none, deviceId := k.retainedId }, d.event .rootFail noIndex 0)
    | some h =>
      let res := regenerate h.data h.check 4 k.readings 0
      let d1 := d.count Reg.KEY_REGEN_RETRY res.2.2
      match res.1 with
      | some root =>
        ({ k with root := some root, rootFail := false, deviceId := deviceIdOf root, readings := res.2.1 }, d1)
      | none => ({ k with rootFail := true, root := none, deviceId := k.retainedId, readings := res.2.1 }, d1.event .rootFail noIndex (res.2.2 + 1))

/-- Key-store start: the root, the journal, the sweep, and the cache (R497). -/
def keyStoreStart (k : KeySt) (d : Dev) : KeySt × Dev :=
  if k.started then (k, d)
  else
    let r1 := startRoot k d
    let r2 := replayJournal r1.1 r1.2
    ({ r2.1.loadCache.runSweep with started := true }, r2.2)

/-- Management restart: the journal is replayed before key operations resume (R524). -/
def keyRestart (k : KeySt) (d : Dev) : KeySt × Dev :=
  if k.started then
    let r := replayJournal k d
    (r.1.runSweep, r.2)
  else (k, d)

/-- Every reset kind zeroises the key cache: what stays is MRAM (R497). -/
def KeySt.afterReset (k : KeySt) : KeySt :=
  { k with slots := [], root := none, rootFail := false, deviceId := 0, started := false, trngFail := false,
           enrolWaits := false, lastRestart := 0 }

/-! ## Entropy source (R479) -/

/-- A failed health test withholds random output. -/
def trngFails (k : KeySt) (d : Dev) : KeySt × Dev :=
  if k.trngFail then (k, d)
  else ({ k with trngFail := true }, (if k.started then d else d.modNet (fun n => { n with seedsHeld := true })).event .trngFail)

/-- 1,024 samples in a row have passed: random output is released, and a waiting enrolment runs. -/
def trngPass (k : KeySt) (d : Dev) : KeySt × Dev :=
  if !k.trngFail then (k, d) else if k.enrolWaits then enrolNow { k with trngFail := false } d else ({ k with trngFail := false }, d)

/-! ## Commands (R495) -/

/-- The 16-byte block of KEY_INFO for a slot. -/
def keyInfoBlock (k : KeySt) (n : Nat) : Bytes :=
  match k.slot n with
  | none => zeros 16
  | some s =>
    let st := match s.state with | .valid => 1 | .invalid => 2 | .orphaned => 3
    leBytes 1 st ++ leBytes 1 (2 ^ s.world) ++ leBytes 1 s.alg ++ leBytes 1 s.lcMask ++ leBytes 2 s.master ++
    leBytes 1 (k.depth n) ++ leBytes 1 (b2n s.next.isSome) ++
    leBytes 4 ((s.cur.map (fun v => v.keyId)).getD 0) ++ leBytes 4 ((s.next.map (fun v => v.keyId)).getD 0)

def keyInfo (k : KeySt) (first count : Nat) (buf : HostBuf) (d : Dev) : Dev × CmdRes :=
  if count = 0 ∨ 256 < count ∨ 1024 < first + count ∨ buf.len < 16 * count then (d, .done sRange 0)
  else (d, .block ((List.range count).flatMap (fun i => keyInfoBlock k (first + i))) (some buf.addr))

/-- KEY_REENROL (R492, R495): its checks, and the new enrolment. -/
def keyReenrolCheck (k : KeySt) (confirm : Nat) : Nat :=
  if k.rootFail = false ∨ k.lc = .blank ∨ k.lc = .returned then sLifecycle
  else if confirm ≠ 0x454E524C then sRange
  else if k.trngFail then sBusy
  else sOk

end Sys2Proof.Machine
end

