-- ==== Sys2Proof/Machine/Engines.lean ====
section
/-! DEFINITION. Engines and the hardware scheduler: work items, dispatch, pre-emption, retirement, engine images, the
management cores under load, and the scheduling trace (R327 to R354). -/

namespace Sys2Proof.Machine

/-! ## Trace (R349, R350) -/

/-- Index of a class in the lists of banks and switches, and the bit of ENG_BANK; the logic processor has none. -/
def bankIx (cls : Nat) : Nat := if cls = 3 then 2 else if cls = 2 then 3 else cls

/-- Bank in force of a class after its last completed switch: 0 PE, 1 DE, 3 MC (the LE's banks are those of R294). -/
def Dev.bankOf (d : Dev) (cls : Nat) : Nat :=
  if cls = 0 then d.fld Fld.ENG_BANK_ACTIVE % 2 else if cls = 1 then d.fld Fld.ENG_BANK_ACTIVE / 2 % 2
  else if cls = 2 then d.fld Fld.CYC_STATUS_BANK else d.fld Fld.ENG_BANK_ACTIVE / 4

/-- Bank that a dispatch takes: while a switch of the class runs, the new one (R344). -/
def Dev.dispatchBank (d : Dev) (cls : Nat) : Nat :=
  match (d.sch.switching[bankIx cls]?).join with
  | some sw => if cls = 2 then d.bankOf cls else 1 - sw.old
  | none => d.bankOf cls

/-- The records on the die go to the trace buffer, which overwrites its oldest (R349). -/
def Dev.drainTrace (d : Dev) : Dev :=
  let all := d.sch.trace ++ d.sch.traceQ
  d.modSch fun s => { s with trace := all.drop (all.length - d.fld Fld.SCH_TRACE_CFG_BUF_SIZE * 32768), traceQ := [] }

/-- A record enters the 4,096-record queue on the die, which overwrites its oldest under R21 (R349). The spec gives no rate at which the queue
empties: the records of earlier times have left it (log 167). -/
def Dev.keepTrace (d : Dev) (rec' : Bytes) : Dev :=
  let d1 := if d.sch.traceAt < d.up then d.drainTrace else d
  let full := decide (4096 ≤ d1.sch.traceQ.length)
  (d1.modSch fun s => { s with
    traceQ := s.traceQ.drop (b2n full) ++ [rec'], traceAt := d.up, traceSeq := (s.traceSeq + 1) % 2 ^ 32 }).count Reg.SCH_TRACE_LOST (b2n full)

/-- One trace event of R350, kept where its class and PRIO are selected, one in 2^SAMPLE of its kind. -/
def Dev.traceEv (d : Dev) (kind engine : Nat) (i : WorkItem) (bank runNs : Nat) : Dev :=
  if d.bit Fld.SCH_TRACE_CFG_EN && d.fbit Fld.SCH_TRACE_CFG_CLASS_MASK i.cls
      && decide (d.fld Fld.SCH_TRACE_CFG_MIN_PRIO ≤ i.prio) then
    let n := d.sch.traceCount.getD kind 0
    let d1 := (d.modSch fun s => { s with traceCount := d.sch.traceCount.put kind (n + 1) })
    if n % 2 ^ d.fld Fld.SCH_TRACE_CFG_SAMPLE ≠ 0 then d1
    else
      d1.keepTrace <|
        [0x70, BitVec.ofNat 8 kind, BitVec.ofNat 8 engine, BitVec.ofNat 8 (i.prio + 16 * i.cls + 64 * bank)] ++
        leBytes 2 (i.flow + 4096 * b2n i.atomic) ++ [BitVec.ofNat 8 i.origin, 0] ++ leBytes 4 i.tag ++
        leBytes 4 (sat (2 ^ 32 - 1) runNs) ++ leBytes 8 d.gNs ++ leBytes 4 d1.sch.traceSeq ++ zeros 4
  else d

/-! ## Queue and dispatch (R331 to R337) -/

/-- SCH_STATUS shows the queue and the contexts. -/
def Dev.refreshSch (d : Dev) : Dev :=
  (d.setFld Fld.SCH_STATUS_QUEUED d.sch.queue.length).setFld Fld.SCH_STATUS_IN_SERVICE (d.sch.service.length + d.sch.slots.length)

/-- A queue entry that the item may use is free: 128 of the 1,024 are reserved for PRIO 7 (R333). -/
def Dev.hasEntry (d : Dev) (i : WorkItem) : Bool :=
  decide (d.sch.queue.length < 1024)
    && (decide (i.prio = 7) || decide ((d.sch.queue.filter (fun q => decide (q.item.prio ≠ 7))).length < 896))

/-- An item is queued. -/
def Dev.enqueueItem (d : Dev) (i : WorkItem) : Dev :=
  (d.modSch fun s => { s with
    queue := d.sch.queue ++ [{ item := i, order := d.sch.nextOrder }], nextOrder := d.sch.nextOrder + 1 }).refreshSch

/-- A producer offers an item: it is queued, or refused and counted; a task of the management cores receives S_BUSY, and a hardware
producer keeps its work (R333). -/
def Dev.offer (d : Dev) (i : WorkItem) : Dev × Bool :=
  if d.hasEntry i then (d.enqueueItem i, true)
  else
    let d1 := (d.count Reg.SCH_REFUSED).traceEv 5 0xFF i 0 0
    (if i.cls = 3 then d1.emit (.taskAnswer i.origin i.tag sBusy) else d1.modSch fun s => { s with refused := s.refused ++ [i] }, false)

/-- As entries free, the items that hardware producers have kept are offered again, in order (R333). -/
def Dev.reoffer (d : Dev) : Dev :=
  d.sch.refused.foldl (fun x i => if x.hasEntry i then x.enqueueItem i else x.modSch fun s => { s with refused := s.refused ++ [i] })
    (d.modSch fun s => { s with refused := [] })

/-- The 32-byte descriptor of a work item (R328). -/
def workItemBytes (i : WorkItem) : Bytes :=
  leBytes 2 (i.flow % 4096 + 4096 * b2n i.atomic) ++ [BitVec.ofNat 8 (i.prio % 8 + 16 * (i.cls % 4)), BitVec.ofNat 8 i.origin] ++
  leBytes 4 i.budget ++ leBytes 4 i.tag ++ zeros 4 ++ leBytes 8 i.arg ++ zeros 8

/-- What phasor engine `e` reads from local address 0 on in prefetch mode: the descriptor in its slot, then SLOT_VALID (R337). The spec
names no descriptor of an empty slot: zeros (log 145). -/
def Dev.slotBytes (d : Dev) (e : Nat) : Bytes :=
  match d.sch.slots.find e with
  | some q => workItemBytes q.item ++ leBytes 4 1
  | none => zeros 36

/-- The conversion item of a FIFO item of a stream (R77, R330). ARG, the FIFO item's address, is a free value. -/
def convItem (stream prio order : Nat) : WorkItem :=
  { flow := stream % 4096, atomic := true, prio := prio, cls := 0, origin := 0x01, budget := 50, tag := stream
    arg := (Config.fifoItemAddr stream order).toNat }

/-- Ingest raises a conversion item; a refused one is offered again as an entry frees. -/
def Dev.raiseConv (d : Dev) (stream prio : Nat) : Dev := (d.offer (convItem stream prio d.sch.nextOrder)).1

/-- The cyclic program in force. -/
def Dev.program (d : Dev) : Option Program := (d.cyc.banks[d.fld Fld.CYC_STATUS_BANK]?).join

/-- Class, PRIO and BUDGET at which the producer of an ORIGIN other than 0x01 issues its items (R330). The budget of a cycle is two periods. -/
def Dev.originForm (d : Dev) (origin : Nat) : Option (Nat × Nat × Nat) :=
  if origin = 0x02 ∨ origin = 0x03 then some (0, 7, 40)
  else if origin = 0x04 then some (0, 5, 40)
  else if origin = 0x05 then some (1, 6, 3000)
  else if origin = 0x06 then some (1, 5, 3000)
  else if origin = 0x07 then some (1, 4, 3000)
  else if origin = 0x08 then d.program.map (fun p => (2, 7, p.period * 500))
  else if 0x10 ≤ origin ∧ origin ≤ 0x15 then some (3, ([7, 6, 5, 4, 3, 1][origin - 0x10]?).getD 1, 2000)
  else none

/-- The item of a producer, of ATOMIC 0 (R330). -/
def Dev.itemOf (d : Dev) (origin tag arg : Nat) : Option WorkItem :=
  (d.originForm origin).map (fun f => { prio := f.2.1, cls := f.1, origin := origin, budget := f.2.2, tag := tag % 2 ^ 32, arg := arg })

/-- A producer issues an item. Conversion items are raised by ingest with their FIFO items alone, and no other ORIGIN has a producer. -/
def Dev.issue (d : Dev) (origin tag arg : Nat) : Dev :=
  match d.itemOf origin tag arg with | some i => (d.offer i).1 | none => d

/-- Engines of a class in dispatch, numbered as R350. -/
def Dev.enginesOf (d : Dev) (cls : Nat) : List Nat :=
  if cls = 0 then bitsOf 16 (d.fld Fld.ENG_STATUS_PE_ACTIVE)
  else if cls = 1 then (bitsOf 4 (d.fld Fld.ENG_STATUS_DE_ACTIVE)).map (fun n => n + 16)
  else if cls = 2 then [20] else [21]

def classOf (engine : Nat) : Nat := if engine < 16 then 0 else if engine < 20 then 1 else if engine = 20 then 2 else 3

/-- The engine runs an item now. -/
def Dev.engineBusy (d : Dev) (e : Nat) : Bool := d.sch.service.any (fun r => decide (r.engine = e) && !r.preempted)

def Dev.freeEngines (d : Dev) (cls : Nat) : List Nat := (d.enginesOf cls).filter (fun e => !d.engineBusy e)

/-- Contexts of a class (R327). -/
def contextsOf (cls : Nat) : Nat := if cls = 0 then 448 else if cls = 1 then 48 else if cls = 2 then 4 else 12

/-- A context that an item of the class and PRIO may use is free: 32 of the PE contexts are reserved for PRIO 7 (R334). -/
def Dev.contextFree (d : Dev) (cls prio : Nat) : Bool :=
  let held := (d.sch.service.map (fun r => r.q.item) ++ d.sch.slots.map (fun x => x.2.item)).filter (fun i => decide (i.cls = cls))
  decide (held.length < contextsOf cls)
    && (decide (cls ≠ 0) || decide (prio = 7) || decide ((held.filter (fun i => decide (i.prio ≠ 7))).length < 416))

/-- The item's flow has an item in service or in a prefetch slot (R332, R337). -/
def Dev.flowBusy (d : Dev) (i : WorkItem) : Bool :=
  d.sch.service.any (fun r => r.q.item.atomic && decide (r.q.item.flow = i.flow) && decide (r.q.item.cls = i.cls))
    || d.sch.slots.any (fun e => e.2.item.atomic && decide (e.2.item.flow = i.flow))

/-- A queued item is eligible: of its flow it is the first queued, and none is in service (R331, R332). -/
def Dev.eligible (d : Dev) (q : QItem) : Bool :=
  !q.item.atomic || (!d.flowBusy q.item
    && !d.sch.queue.any (fun o => o.item.atomic && decide (o.item.flow = q.item.flow) && decide (o.item.cls = q.item.cls)
        && decide (o.order < q.order)))

/-- Of two candidates, the one that R331 takes: the higher PRIO, then the one queued first. -/
def better (a b : QItem) : QItem :=
  if b.item.prio < a.item.prio ∨ (a.item.prio = b.item.prio ∧ a.order < b.order) then a else b

def bestOf (l : List QItem) : Option QItem := l.foldl (fun m q => match m with | none => some q | some x => some (better x q)) none

/-- An engine may run an item: a rerun takes another engine than the one it left (R339). Where the class has no other in dispatch, as the
management cores never have, it takes the same (log 168). -/
def Dev.mayRun (d : Dev) (q : QItem) (e : Nat) : Bool :=
  decide (q.avoid ≠ some e) || (d.enginesOf q.item.cls).all (fun x => decide (x = e))

/-- The queued item of a class that R331 would dispatch next to one of some engines. -/
def Dev.nextItem (d : Dev) (cls : Nat) (engines : List Nat) : Option QItem :=
  bestOf (d.sch.queue.filter (fun q =>
    decide (q.item.cls = cls) && d.eligible q && d.contextFree cls q.item.prio && engines.any (d.mayRun q)))

/-- The pre-empted item of a class that comes next to one of some engines. -/
def Dev.nextResume (d : Dev) (cls : Nat) (engines : List Nat) : Option QItem :=
  bestOf ((d.sch.service.filter (fun r => r.preempted && decide (r.q.item.cls = cls) && engines.any (d.mayRun r.q))).map (fun r => r.q))

/-- In prefetch mode the slot of a PE is filled as its current item starts (R337). -/
def Dev.fillSlot (d : Dev) (e : Nat) : Dev :=
  if d.bit Fld.SCH_CFG_PE_PREFETCH && decide (e < 16) && (d.sch.slots.find e).isNone then
    match d.nextItem 0 [e] with
    | none => d
    | some q =>
      (d.modSch fun s => { s with
          queue := d.sch.queue.filter (fun x => decide (x.order ≠ q.order)), slots := d.sch.slots.put e q }).traceEv 8 e q.item (d.dispatchBank 0) 0
  else d

/-- A flow moves to the bank of its item's dispatch (R344). -/
def Dev.moveFlow (d : Dev) (e : Nat) (i : WorkItem) (bank : Nat) : Dev :=
  if i.atomic && decide (i.cls = 0) && decide (d.sch.flowBank.getD i.flow 0 ≠ bank) then
    (d.modSch fun s => { s with flowBank := if bank = 0 then s.flowBank.drop i.flow else s.flowBank.put i.flow bank }).traceEv 7 e i bank 0
  else d

/-- An item starts on an engine. -/
def Dev.startOn (d0 : Dev) (e : Nat) (q : QItem) : Dev :=
  let bank := d0.dispatchBank q.item.cls
  let d := d0.moveFlow e q.item bank
  let r : Running := { q := q, engine := e, since := d.up, bank := bank, dispatch := d.sch.dispatches }
  ((((d.modSch fun s => { s with
      queue := d.sch.queue.filter (fun x => decide (x.order ≠ q.order))
      service := d.sch.service ++ [r]
      dispatches := d.sch.dispatches + 1 }).count64 Reg.SCH_DISPATCH_LO).traceEv 0 e q.item bank q.ranNs).fillSlot e).reoffer.refreshSch

/-- A pre-empted item resumes on an engine, on the bank it started on. -/
def Dev.resumeOn (d : Dev) (e : Nat) (q : QItem) : Dev :=
  let bank := ((d.sch.service.find? (fun r => decide (r.q.order = q.order))).map (fun r => r.bank)).getD (d.bankOf q.item.cls)
  (d.modSch fun s => { s with service := d.sch.service.map (fun r =>
      if r.q.order = q.order then { r with engine := e, since := d.up, preempted := false } else r) }).traceEv 2 e q.item bank q.ranNs

/-- The candidate of a class goes to a free engine (R331). -/
def Dev.dispatch (d : Dev) (cls : Nat) : Dev :=
  let free := d.freeEngines cls
  match d.nextItem cls free, d.nextResume cls free with
  | none, none => d
  | none, some r => match free.find? (d.mayRun r) with | none => d | some e => d.resumeOn e r
  | some q, r? =>
    match r?.filter (fun r => decide ((better r q).order = r.order)) with
    | some r => match free.find? (d.mayRun r) with | none => d | some e => d.resumeOn e r
    | none => match free.find? (d.mayRun q) with | none => d | some e => d.startOn e q

/-- The running item of a class that an item pre-empts first: lowest PRIO, then dispatched last (R335). -/
def Dev.victim (d : Dev) (cls : Nat) (q : QItem) : Option Running :=
  (d.sch.service.filter (fun r => decide (r.q.item.cls = cls) && !r.preempted && d.mayRun q r.engine)).foldl (fun m r =>
    match m with
    | none => some r
    | some x =>
      if r.q.item.prio < x.q.item.prio ∨ (r.q.item.prio = x.q.item.prio ∧ x.dispatch < r.dispatch) then some r else some x) none

/-- An eligible item pre-empts, where no engine of its class is free and its PRIO is strictly higher (R335); in prefetch
mode only an item of PRIO 7 pre-empts a PE (R337). -/
def Dev.preempt (d : Dev) (cls : Nat) : Dev :=
  match d.freeEngines cls, d.nextItem cls (d.enginesOf cls) with
  | [], some q =>
    match d.victim cls q with
    | none => d
    | some v =>
    if v.q.item.prio < q.item.prio ∧ (¬ (d.bit Fld.SCH_CFG_PE_PREFETCH ∧ cls = 0) ∨ q.item.prio = 7) then
      let ran := v.q.ranNs + (d.up - v.since)
      let d1 := ((d.modSch fun s => { s with service := d.sch.service.map (fun r =>
          if r.q.order = v.q.order then { r with preempted := true, q := { r.q with ranNs := ran } } else r) }).count64
        Reg.SCH_PREEMPT_LO).traceEv 1 v.engine v.q.item v.bank ran
      d1.startOn v.engine q
    else d
  | _, _ => d

/-! ## Switches of an image (R344, R345) -/

def Dev.setBank (d : Dev) (cls b : Nat) : Dev :=
  d.setFld Fld.ENG_BANK_ACTIVE (putBit (d.fld Fld.ENG_BANK_ACTIVE) (bankIx cls) (decide (b = 1)))

def Dev.image (d : Dev) (cls b : Nat) : Option EngImage := ((d.sch.banks[bankIx cls]?).getD [])[b]?.join

def Dev.imageId (d : Dev) (cls b : Nat) : Nat := ((d.image cls b).map (fun i => i.imageId)).getD 0

def Dev.setSwitching (d : Dev) (cls : Nat) (on : Bool) : Dev :=
  if cls = 3 then d.setBit Fld.ENG_STATUS_MC_SWITCHING on else d.setFbit Fld.ENG_STATUS_SWITCHING cls on

/-- A switch of a class that has no item left in service on the old bank completes (R344). -/
def Dev.finishSwitch (d : Dev) (cls : Nat) : Dev :=
  match (d.sch.switching[bankIx cls]?).join with
  | none => d
  | some sw =>
    if d.sch.service.any (fun r => decide (r.q.item.cls = cls) && decide (r.bank = sw.old)) then d
    else
      let new := 1 - sw.old
      let d1 := (d.modSch fun s => { s with
        switching := modifyAt d.sch.switching (bankIx cls) (fun _ => none)
        switchedAt := modifyAt d.sch.switchedAt (bankIx cls) (fun _ => some (d.up, sw.old)) })
      ((((d1.setBank cls new).setSwitching cls false).count Reg.ENG_SWITCHES).event .imageSwitch cls (d.imageId cls new % 2 ^ 32)
        (d.imageId cls sw.old % 2 ^ 32)).finishWaits (fun w => decide (w = .engSwitch cls)) sOk 0

/-- The bank to fall back to: a switch of the class runs, or completed within the last 10 s (R345). -/
def Dev.fallback (d : Dev) (cls : Nat) : Option Nat :=
  match (d.sch.switching[bankIx cls]?).join with
  | some sw => some sw.old
  | none => match (d.sch.switchedAt[bankIx cls]?).join with
    | some (t, old) => if d.up ≤ t + 10000000000 then some old else none
    | none => none


/-! ## Retirement (R340, R341) -/

/-- The state of R341 follows the number of engines. -/
def Dev.judgeEngines (d : Dev) (before : Nat) : Dev :=
  let n := d.activePes
  let d1 := (d.setBit Fld.ENG_STATUS_DEGRADED (decide (n < 15))).refreshAlmok
  let d2 :=
    if n ≤ 3 ∧ 3 < before then d1.raiseAt eEngineLoss n sOk 0xFF 3
    else if n ≤ 11 ∧ 11 < before then d1.raiseAt eEngineLoss n sOk 0xFF 2
    else d1
  if d.deCount = 0 ∧ !d.bit Fld.SAF_STATUS_SAFE then d2.raiseAt eEngineLoss 0 sOk 0xFF 3 else d2

/-- The recovery tests of a DE_DISAGREE go on without engine `n`; a failure ends them (R519). -/
def Dev.recoveryGoesOn (d : Dev) (n : Nat) (ok : Bool) : Dev :=
  if d.saf.recoveryTests.contains n then
    let left := if ok then d.saf.recoveryTests.filter (fun m => decide (m ≠ n)) else []
    let d1 := d.modSaf (fun s => { s with recoveryTests := left })
    if left.isEmpty then
      d1.modSaf (fun s => { s with queue := s.queue.map (fun (x : ErrEntry) =>
        if x.cls = eDeDisagree ∧ x.level < 3 ∧ x.clearAt.isNone then { x with clearAt := some d.up } else x) })
    else d1
  else d

/-- Items return to the head of their PRIO, in their original order (R338, R340). -/
def Dev.returnItems (d : Dev) (l : List QItem) : Dev :=
  d.modSch fun s => { s with
    queue := l.map (fun q => { q with
      ranNs := 0, order := -((s.returned + (l.filter (fun x => decide (q.order ≤ x.order))).length : Nat) : Int) }) ++ s.queue
    returned := s.returned + l.length }

/-- Time in service of an item so far, in ns (R350). -/
def Dev.ranOf (d : Dev) (r : Running) : Nat := r.q.ranNs + (if r.preempted then 0 else d.up - r.since)

/-- An engine is retired: cause 0 ECC, 1 self-test, 2 budget. -/
def Dev.retire (d : Dev) (e cause : Nat) : Dev :=
  if d.fbit Fld.ENG_RETIRED_ENGINE e || decide (19 < e) then d
  else
    let before := d.activePes
    let mine := d.sch.service.filter (fun r => decide (r.engine = e))
    let slot := (d.sch.slots.find e).toList
    let d1 := mine.foldl (fun x r => x.traceEv 4 e r.q.item r.bank (d.ranOf r)) d
    let d2 := (d1.modSch fun s => { s with
      service := d1.sch.service.filter (fun r => decide (r.engine ≠ e))
      slots := d1.sch.slots.drop e }).returnItems (mine.map (fun r => r.q) ++ slot)
    let d3 := (d2.setFbit Fld.ENG_RETIRED_ENGINE e true).count Reg.ENG_RETIRES
    let active := d3.fbit Fld.ENG_STATUS_PE_ACTIVE e
    let spare := !d3.bit Fld.ENG_STATUS_NO_SPARE
    let d4 :=
      if 16 ≤ e then d3.setFbit Fld.ENG_STATUS_DE_ACTIVE (e - 16) false
      else if active then
        let x := d3.setFbit Fld.ENG_STATUS_PE_ACTIVE e false
        if spare then (x.modSch fun s => { s with sparePending := true }) else x
      else if d3.fld Fld.ENG_STATUS_SPARE = e ∧ spare then
        (d3.modSch fun s => { s with sparePending := false }).setBit Fld.ENG_STATUS_NO_SPARE true
      else d3
    let d5 := ((((d4.event .engineRetired e cause).traceEv 6 e { prio := 7, cls := classOf e, origin := 0, budget := 0, tag := 0 } 0
      0).judgeEngines before).finishSwitch (classOf e)).refreshSch
    if 16 ≤ e then d5.recoveryGoesOn (e - 16) false else d5

/-- The error that a retirement comes with: an uncorrectable error of an engine's memory, or a failed self-test (R340, R519, R579). -/
def Dev.retireError (d : Dev) (e cause : Nat) : Dev :=
  if d.fbit Fld.ENG_RETIRED_ENGINE e || decide (19 < e) then d
  else if cause = 0 then d.raise eMemUncorr (if e < 16 then 5 else 6) 3
  else if cause = 1 then d.raise eSelftest e 11
  else d

/-- The spare joins dispatch in place of a retired engine (R340). -/
def Dev.spareJoin (d : Dev) : Dev :=
  if d.sch.sparePending then
    (((d.modSch fun s => { s with sparePending := false }).setFbit Fld.ENG_STATUS_PE_ACTIVE (d.fld Fld.ENG_STATUS_SPARE) true).setBit
      Fld.ENG_STATUS_NO_SPARE true)
  else d

/-- Three budget overruns in one second, each confirmed by a run elsewhere, retire the engine (R340). `at_` is the time of the overrun that
is confirmed now. -/
def Dev.confirmOverrun (d : Dev) (e at_ : Nat) : Dev :=
  let l := (d.sch.overruns.filter (fun x => decide (d.up < x.2 + 2000000000))) ++ [(e, at_)]
  let mine := (l.filter (fun x => decide (x.1 = e))).map (fun x => x.2)
  let d1 := (d.modSch fun s => { s with overruns := l })
  if mine.any (fun t => decide (3 ≤ (mine.filter (fun u => decide (t ≤ u ∧ u < t + 1000000000))).length)) then d1.retire e 2 else d1

/-! ## Service of items (R329, R339) -/

/-- The item that an engine runs. -/
def Dev.runningOn (d : Dev) (e : Nat) : Option Running := d.sch.service.find? (fun r => decide (r.engine = e) && !r.preempted)

/-- An item leaves service; the engine takes the item of its slot, if it has one. -/
def Dev.endService (d : Dev) (r : Running) : Dev :=
  let d1 := (d.modSch fun s => { s with service := d.sch.service.filter (fun x => decide (x.q.order ≠ r.q.order)) })
  let d2 := match d1.sch.slots.find r.engine with
    | none => d1
    | some q => Dev.startOn (d1.modSch fun s => { s with slots := d1.sch.slots.drop r.engine }) r.engine q
  (d2.finishSwitch r.q.item.cls).refreshSch

/-- The item of an engine completes. A rerun that succeeds confirms the overrun of the engine it left. -/
def Dev.complete' (d : Dev) (r : Running) : Dev :=
  let d1 := (d.traceEv 3 r.engine r.q.item r.bank (d.ranOf r)).endService r
  match r.q.avoid, r.q.overran with | some e, some t => if e = r.engine then d1 else d1.confirmOverrun e t | _, _ => d1

/-- The class falls back to its old bank, and the failing item runs again there (R345). -/
def Dev.fallBack (d : Dev) (r : Running) (old : Nat) : Dev :=
  let cls := r.q.item.cls
  let d1 := ((d.traceEv 4 r.engine r.q.item r.bank (d.ranOf r)).modSch fun s => { s with
    switching := modifyAt d.sch.switching (bankIx cls) (fun _ => none)
    switchedAt := modifyAt d.sch.switchedAt (bankIx cls) (fun _ => none)
    queue := { r.q with ranNs := 0 } :: d.sch.queue })
  (((((d1.setBank cls old).setSwitching cls false).endService r).count Reg.ENG_EXC).event .imageFault cls r.q.item.origin r.q.item.tag
    sImgFault).finishWaits (fun w => decide (w = .engSwitch cls)) sImgFault 0 |>.refreshSch

/-- The item of a producer with a TAG that an engine runs now. -/
def Dev.runningItem (d : Dev) (origin tag : Nat) : Option Running :=
  d.sch.service.find? (fun r => decide (r.q.item.origin = origin) && decide (r.q.item.tag = tag) && !r.preempted)

/-- An item of a producer with a TAG is held up: it is kept, queued, in a slot or in service. -/
def Dev.itemHeld (d : Dev) (origin tag : Nat) : Bool :=
  (d.sch.refused ++ d.sch.queue.map (fun q => q.item) ++ d.sch.slots.map (fun x => x.2.item) ++ d.sch.service.map (fun r => r.q.item)).any
    (fun i => decide (i.origin = origin) && decide (i.tag = tag % 2 ^ 32))

/-- The item of a hardware producer completes, if it runs; else, unless it is held up, it is issued now (R330), and completes where the
scheduler lets it run at once (R331, R335). The second answer says that it has completed: only then has it an effect (R329). The table has no row
for the issue of these items (log 145). -/
def Dev.serve (d : Dev) (origin tag : Nat) : Dev × Bool :=
  match d.runningItem origin (tag % 2 ^ 32) with
  | some r => (d.complete' r, true)
  | none =>
    match d.itemOf origin tag (Config.workAddr origin tag).toNat with
    | none => (d, false)
    | some i =>
      if d.itemHeld origin tag then (d, false)
      else
        let d1 := (d.offer i).1
        let d2 := if (d1.freeEngines i.cls).isEmpty then d1.preempt i.cls else d1.dispatch i.cls
        match d2.runningItem origin (tag % 2 ^ 32) with
        | some r => (d2.complete' r, true)
        | none => (d2, false)

/-- An aborted item is run once more on another engine of its class, or discarded with an error (R339). Whether it was
discarded is the second answer; `budget` says that it ran beyond its BUDGET. -/
def Dev.abortItem (d : Dev) (r : Running) (budget : Bool) : Dev × Bool :=
  let d1 := d.traceEv 4 r.engine r.q.item r.bank (d.ranOf r)
  match r.q.avoid with
  | none => (Dev.endService (d1.modSch fun s => { s with queue := { r.q with avoid := some r.engine, overran := if budget then some d.up else none, ranNs := 0 } :: d1.sch.queue }) r, false)
  | some _ => ((d1.endService r).raise eItemFail r.engine, true)

/-! ## Images (R342, R343) -/

/-- A byte string with `n` bytes at `off` set to 0. -/
def zeroAt (b : Bytes) (off n : Nat) : Bytes := b.take off ++ zeros n ++ b.drop (off + n)

/-- The check of ICRC and TAG of an image with the key of a slot (R296, R343): the failing status, or none. -/
def imageAuth (k : KeySt) (img : Bytes) (slot tagOff crcOff : Nat) : Option Nat :=
  if crc32 (zeroAt (zeroAt img tagOff 32) crcOff 4) ≠ leNat (slice img crcOff 4) then some sAuthFail
  else match k.use slot with
    | .error st => some st
    | .ok s =>
      if s.world ≠ worldImage then some sAuthFail
      else match s.cur with
        | none => some sAuthFail
        | some v => if hmacSha256 v.bytes (zeroAt img tagOff 32) = slice img tagOff 32 then none else some sAuthFail

/-- Bytes of an instruction bank of a class (R327). -/
def bankSize (cls : Nat) : Nat := if cls = 0 then 262144 else if cls = 1 then 524288 else 2097152

/-- The header fields of an engine image are in range (R342). -/
def engHeaderOk (img : Bytes) : Bool :=
  let f (off n : Nat) : Nat := leNat (slice img off n)
  let cls := f 4 1 % 4
  decide (64 ≤ img.length) && decide (f 0 4 = 0x314E4547) && decide (cls ≠ 2) && decide (f 4 1 < 8) && decide (f 5 3 = 0)
    && decide (f 8 4 ≤ bankSize cls) && decide (f 8 4 % 64 = 0) && (decide (cls ≠ 0) || decide (f 12 4 = 0)) && decide (img.length = 64 + f 8 4) && decide (f 56 4 = 0)

/-- ENG_IMG_LOAD (R343). -/
def engImgLoad (img : Bytes) (k : KeySt) (d : Dev) : Dev × CmdRes :=
  let cls := leNat (slice img 4 1) % 4
  match imageAuth k img (d.fld Fld.ENG_CFG_KEY_SLOT) 24 60 with
  | some st => (d.countUse (.error st : Except Nat Slot), .done st 0)
  | none =>
    let pf := decide (leNat (slice img 4 1) / 4 % 2 = 1)
    if engHeaderOk img = false ∨ (cls = 0 ∧ pf = false ∧ d.bit Fld.SCH_CFG_PE_PREFETCH = true) then (d, .done sRange 0)
    else if ((d.sch.switching[bankIx cls]?).join).isSome then (d, .done sBusy 0)
    else
      let im : EngImage := { imageId := leNat (slice img 16 8), layout := leNat (slice img 12 4), prefetchOk := pf, code := img.drop 64 }
      let b := 1 - d.bankOf cls
      ((d.modSch fun s => { s with banks := modifyAt d.sch.banks (bankIx cls) (fun l => modifyAt l b (fun _ => some im)) }), .ok)

/-- ENG_SWITCH (R344, R346). The spec names no status for an empty inactive bank: S_NOT_VALID here. -/
def engSwitch (cls : Nat) (d : Dev) : Dev × CmdRes :=
  if cls = 2 ∨ 3 < cls then (d, .done sRange 0)
  else if d.bit Fld.SAF_STATUS_SAFE then (d, .done sSafeState 0)
  else if ((d.sch.switching[bankIx cls]?).join).isSome then (d, .done sBusy 0)
  else
    let old := d.bankOf cls
    match d.image cls (1 - old) with
    | none => (d, .done sNotValid 0)
    | some im =>
      if cls ≠ 0 ∧ im.layout ≠ (((d.image cls old).map (fun i => i.layout)).getD 0) then (d, .done sRange 0)
      else
        let d1 := (d.modSch fun s => { s with switching := modifyAt d.sch.switching (bankIx cls) (fun _ => some ⟨old, d.up⟩) }).setSwitching cls true
        if d.sch.service.any (fun r => decide (r.q.item.cls = cls) && decide (r.bank = old)) then (d1, .wait (.engSwitch cls))
        else (d1.finishSwitch cls, .ok)

/-- The records of a trace from a SEQ on (R9). -/
def traceFrom (first : Nat) (l : List Bytes) : List Bytes := l.filter (fun r => decide ((leNat (slice r 24 4) + 2 ^ 32 - first) % 2 ^ 32 < 2 ^ 31))

/-- SCH_TRACE_READ (R352): the records from a SEQ on, as many as the buffer holds. What the die still held has reached the buffer. -/
def schTraceRead (first : Nat) (buf : HostBuf) (d0 : Dev) : Dev × CmdRes :=
  let d := d0.drainTrace
  let l := traceFrom (first % 2 ^ 32) d.sch.trace
  match l with
  | [] => (d, .done sNotValid 0)
  | r :: _ =>
    if leNat (slice r 24 4) ≠ first % 2 ^ 32 then (d, .done sLost 0)
    else (d, .block ((l.take (buf.len / 32)).flatMap id) (some buf.addr))

/-! ## The management cores (R347, R348) -/

/-- MC load is measured: crossing DEFER_HI defers the four housekeeping tasks, falling below DEFER_LO starts them. -/
def Dev.mcLoad (d : Dev) (pct : Nat) : Dev :=
  let d1 := d.setFld Fld.SCH_MC_LOAD_PCT (min 100 pct)
  if d.fld Fld.SCH_MC_LOAD_DEFER_HI ≤ pct then
    if d.bit Fld.SCH_MC_LOAD_DEFER then d1
    else (d1.modSch fun s => { s with deferred := (List.range 4).map (fun t => (t, d.up, false)) }).setBit Fld.SCH_MC_LOAD_DEFER true
  else if pct < d.fld Fld.SCH_MC_LOAD_DEFER_LO then
    (d1.modSch fun s => { s with deferred := [], deferReported := none }).setBit Fld.SCH_MC_LOAD_DEFER false
  else d1

/-- A task deferred for more than 60 s is counted once, and an event is sent once per hour while this continues. -/
def Dev.mcDeferLong (d : Dev) (task : Nat) : Dev :=
  match d.sch.deferred.find? (fun x => decide (x.1 = task)) with
  | none => d
  | some (_, since, counted) =>
    if d.up ≤ since + 60000000000 then d
    else
      let d1 := if counted then d else
        ((d.modSch fun s => { s with deferred := d.sch.deferred.map (fun x => if x.1 = task then (x.1, x.2.1, true) else x) }).count
          Reg.SCH_MC_DEFER_LONG)
      if d1.sch.deferReported.all (fun t => decide (t + 3600000000000 ≤ d.up)) then
        (d1.modSch fun s => { s with deferReported := some d.up }).event .mcDeferLong noIndex (d1.regN Reg.SCH_MC_DEFER_LONG)
      else d1

/-- The heartbeat item of the management cores: a stall ends (R348, R524). -/
def Dev.heartbeat (d : Dev) : Dev :=
  ({ d with saf := { d.saf with hbAt := d.up } }.setBit Fld.SAF_STATUS_MGMT_STALL false).setFbit Fld.SAF_STATUS_DIAG_FAIL 12 false

end Sys2Proof.Machine
end

