-- ==== Sys2Proof/Machine/Staging.lean ====
section
/-! DEFINITION. The snapshot ring: claims of buffers for a snapshot that is staged, and the writing of snapshots into posted
buffers (R462, R463, R467, R469). -/

namespace Sys2Proof.Machine

open Sys2Proof

/-- The places of records that follow each other from an offset: stream, offset, length. -/
def placesFrom (off : Nat) : List (Nat × Rec) → List (Nat × Nat × Nat)
  | [] => []
  | (i, r) :: t => let n := (r.bytes false).length; (i, off, n) :: placesFrom (off + n) t

/-- The layout of a snapshot, from its header (R127) and its records. -/
def layoutOf (s : HistSnap) : StageSt :=
  let f (off : Nat) : Nat := leNat (slice s.bytes off 4)
  { bufs := [], total := f 64, sumOff := f 88, manOff := f 96, recOff := f 100, recs := placesFrom (f 100) s.recs }

/-- The first posted buffers that hold `n` bytes, with the unusable ones between them. -/
def takeBufs : Nat → Nat → List BufDesc → Option (List (Nat × BufDesc))
  | _, 0, _ => some []
  | _, _ + 1, [] => none
  | k, n + 1, b :: t => (takeBufs (k + 1) (if b.ok then n + 1 - b.len else n + 1) t).map ((k, b) :: ·)

/-- Posted buffers are claimed for a snapshot of a layout, where they hold it. -/
def Dev.claim (d : Dev) (n e : Nat) (l : StageSt) : Dev :=
  let r := d.ring n
  match takeBufs r.next l.total r.bufs with
  | none => d
  | some bs =>
    (d.setRing n { r with next := r.next + bs.length, bufs := r.bufs.drop bs.length }).modHif
      (fun h => { h with stages := h.stages.put e { l with bufs := bs } })

/-- At the first commit of an epoch the ring claims buffers for the layout that the snapshot of E − F predicts (R469). -/
def Dev.claimStage (d : Dev) (e : Nat) : Dev :=
  match d.ringOf 4, d.crt.snaps.find? (fun s => decide (s.epoch + d.rate = e)) with
  | some n, some s => if d.bit Fld.HIF_SNAP_CFG_STAGE then d.claim n e (layoutOf s) else d
  | _, _ => d

/-- Bytes written at an offset of the usable ones of a run of buffers. -/
def writeAt : List (Nat × BufDesc) → Nat → Bytes → List (Nat × Bytes)
  | [], _, _ => []
  | (_, b) :: t, off, bytes =>
    if bytes.isEmpty then []
    else if !b.ok then writeAt t off bytes
    else if b.len ≤ off then writeAt t (off - b.len) bytes
    else
      let n := b.len - off
      (b.addr + off, bytes.take n) :: writeAt t 0 (bytes.drop n)

def Dev.emitAt (d : Dev) (bufs : List (Nat × BufDesc)) (off : Nat) (bytes : Bytes) : Dev :=
  (writeAt bufs off bytes).foldl (fun (x : Dev) w => x.emit (.hostWrite w.1 w.2)) d

/-- A record of the layout is written to its place. -/
def Dev.emitRec (d : Dev) (s : StageSt) (r : Rec) : Dev :=
  match s.recs.find? (fun x => decide (x.1 = r.stream)) with
  | some (_, off, _) => d.emitAt s.bufs off (r.bytes false)
  | none => d

/-- A record that commits before the local seal is written to its place (R469); in D3hot it is written with what differs after the
confirmation (R450). -/
def Dev.stageRec (d : Dev) (e : Nat) (r : Rec) : Dev :=
  match d.hif.stages.find e with
  | none => d
  | some s =>
    if d.hostReady && s.recs.any (fun x => decide (x.1 = r.stream) && decide (x.2.2 = (r.bytes false).length)) then
      (d.emitRec s r).modHif (fun h => { h with stages := h.stages.put e { s with done := s.done.put r.stream r } })
    else d

/-- Every claim is given up: the buffers wait again as posted ones, in their order. -/
def Dev.releaseStages (d : Dev) : Dev :=
  match d.ringOf 4 with
  | none => d.modHif (fun h => { h with stages := [] })
  | some n =>
    let bs := sortBy (fun (a b : Nat × BufDesc) => decide (a.1 < b.1)) (d.hif.stages.flatMap (fun (s : Nat × StageSt) => s.2.bufs))
    let r := d.ring n
    (d.setRing n { r with next := r.next - bs.length, bufs := bs.map (fun b => b.2) ++ r.bufs }).modHif (fun h => { h with stages := [] })

/-- Claims that gave way to an earlier snapshot are made again in epoch order, and the records staged are written to their new places;
a claim that the posted buffers no longer take is lost. DESIGN CHOICE, log 177: the spec claims buffers in the order of first commits, and
completes descriptors and snapshots in order. -/
def Dev.claimAgain (d : Dev) (n : Nat) (held : Tbl StageSt) : Dev :=
  held.foldl (fun (x : Dev) (s : Nat × StageSt) =>
    let y := x.claim n s.1 s.2
    match y.hif.stages.find s.1 with
    | some st => st.done.foldl (fun (z : Dev) (r : Nat × Rec) => z.emitRec st r.2) y
    | none => y) d

/-- Completions of the buffers of one snapshot, in descriptor order. -/
def Dev.snapDone (n e total : Nat) : List (Nat × BufDesc) → Nat → Dev → Dev
  | [], _, d => d
  | (k, b) :: t, off, d =>
    if !b.ok then Dev.snapDone n e total t off ((d.emit (.bufDone n k 0 0 0 sBadDesc 0 (d.phase n k))).countDone n)
    else
      let used := min b.len (total - off)
      let last := decide (total ≤ off + used)
      let loss := d.hif.lossMarks.testBit 4
      let d1 := (d.emit (.bufDone n k used (e % 2 ^ 32) off sOk (b2n (decide (0 < off)) + 2 * b2n (!last) + 4 * b2n loss) (d.phase n k))).countDone n
      Dev.snapDone n e total t (off + used) (d1.modHif (fun h => { h with lossMarks := putBit h.lossMarks 4 false }))

/-- A snapshot is written whole, as far as posted buffers take it, each buffer completing as it is full; and whether all of it is. -/
def Dev.writeWhole (n : Nat) : Nat → Dev → Dev × Bool
  | 0, d => (d, false)
  | fuel + 1, d0 =>
    match d0.hif.snapPart with
    | none => (d0, true)
    | some p =>
      let d := Dev.dropBad n (d0.ring n).bufs d0
      let r := d.ring n
      match r.bufs with
      | [] => (d, false)
      | b :: t =>
        let d1 := (d.setRing n { r with bufs := t, next := r.next + 1 }).emit (.hostWrite b.addr (p.rest.take b.len))
        let d2 := Dev.snapDone n p.epoch (p.off + p.rest.length) [(r.next, b)] p.off d1
        if p.rest.length ≤ b.len then ((d2.modHif (fun h => { h with snapPart := none })).count Reg.HIF_SNAP_WHOLE, true)
        else Dev.writeWhole n fuel (d2.modHif (fun h => { h with snapPart := some { p with off := p.off + b.len, rest := p.rest.drop b.len } }))

/-- A staged snapshot is completed: the summary block, the manifest section, the records that differ from those staged and the header are
written, then the completions (R469). -/
def Dev.finishStage (d : Dev) (n e : Nat) (st : StageSt) (s : HistSnap) : Dev :=
  let part (x : Dev) (a b : Nat) : Dev := x.emitAt st.bufs a (slice s.bytes a (b - a))
  let d1 := part (part d st.sumOff st.manOff) st.manOff st.recOff
  let d2 := (s.recs.filter (fun (x : Nat × Rec) => decide (st.done.find x.1 ≠ some x.2))).foldl (fun (x : Dev) r => x.emitRec st r.2) d1
  let d3 := part d2 0 st.sumOff
  Dev.snapDone n e st.total st.bufs 0 (d3.modHif (fun h => { h with stages := h.stages.drop e }))

/-- The layout predicted is the layout confirmed. -/
def sameLayout (a b : StageSt) : Bool :=
  decide (a.total = b.total) && decide (a.sumOff = b.sumOff) && decide (a.manOff = b.manOff) && decide (a.recOff = b.recOff)
    && decide (a.recs = b.recs)

/-- The next snapshot that waits for the ring, with its content unless it has been overwritten: those of an ended run first; and what is left
once it has gone. -/
def CrtSt.nextSnap (c : CrtSt) : Option (Nat × Option HistSnap × Bool × CrtSt) :=
  match c.carry, c.waiting with
  | (e, s) :: t, _ => some (e, s, true, { c with carry := t })
  | [], e :: t => some (e, c.snaps.find? (fun s => decide (s.epoch = e)), false, { c with waiting := t })
  | [], [] => none

/-- The snapshot of an epoch has gone to the ring. -/
def Dev.popSnap (d : Dev) (e : Nat) : Dev :=
  match d.crt.nextSnap with
  | some (e', _, _, rest) => if e' = e then d.modCrt (fun c => { c with waiting := rest.waiting, carry := rest.carry }) else d
  | none => d

/-- The claims are held back while a snapshot without one takes its buffers, and then made again. -/
def Dev.aroundStages (d : Dev) (n e : Nat) (f : Dev → Dev × Bool) : Dev × Bool :=
  let r := f d.releaseStages
  if d.hif.stages.isEmpty then f d else (r.1.claimAgain n (d.hif.stages.drop e), r.2)

/-- An overwritten snapshot completes one buffer with S_LOST (R467). -/
def Dev.lostSnap (n e : Nat) (d0 : Dev) : Dev × Bool :=
  let d := Dev.dropBad n (d0.ring n).bufs d0
  let r := d.ring n
  match r.bufs with
  | [] => (d, false)
  | _ :: t =>
    (((d.setRing n { r with bufs := t, next := r.next + 1 }).emit (.bufDone n r.next 0 (e % 2 ^ 32) 0 sLost 0 (d.phase n r.next))).countDone n, true)

/-- A snapshot starts to be written whole. -/
def Dev.startWhole (n e : Nat) (bytes : Bytes) (d : Dev) : Dev × Bool :=
  Dev.writeWhole n ((d.ring n).bufs.length + 1) (d.modHif (fun h => { h with snapPart := some { epoch := e, off := 0, rest := bytes } }))

/-- The claim of an epoch holds the oldest descriptors of those claimed. -/
def Dev.claimFirst (d : Dev) (st : StageSt) : Bool :=
  d.hif.stages.all (fun (s : Nat × StageSt) => decide ((st.bufs.head?.map (fun b => b.1)).getD 0 ≤ (s.2.bufs.head?.map (fun b => b.1)).getD 0))

/-- The next snapshot goes to the ring: staged and as predicted, overwritten, or whole. -/
def Dev.sendSnap (d : Dev) (n e : Nat) (snap : Option HistSnap) (ended : Bool) : Dev × Bool :=
  match snap with
  | none => d.aroundStages n e (Dev.lostSnap n e)
  | some s =>
    match (if ended then none else d.hif.stages.find e) with
    | none => d.aroundStages n e (Dev.startWhole n e s.bytes)
    | some st =>
      if sameLayout { st with bufs := [], done := [] } { layoutOf s with bufs := [] } then
        let d1 := if d.claimFirst st then d else d.releaseStages.claimAgain n d.hif.stages
        match d1.hif.stages.find e with
        | some st1 => (d1.finishStage n e st1 s, true)
        | none => d1.aroundStages n e (Dev.startWhole n e s.bytes)
      else d.aroundStages n e (Dev.startWhole n e s.bytes)

/-- The snapshots that wait go to the ring in epoch order, as far as posted buffers take them. -/
def Dev.pumpSnaps : Nat → Dev → Dev
  | 0, d => d
  | fuel + 1, d =>
    match d.ringOf 4 with
    | none => d
    | some n =>
      if !d.hostReady then d
      else
        match d.hif.snapPart, d.crt.nextSnap with
        | some p, _ =>
          let w := Dev.writeWhole n ((d.ring n).bufs.length + 1) d
          if w.2 then Dev.pumpSnaps fuel (w.1.popSnap p.epoch) else w.1
        | none, some (e, snap, ended, _) =>
          let w := d.sendSnap n e snap ended
          if w.2 then Dev.pumpSnaps fuel (w.1.popSnap e) else w.1
        | none, none => if d.hif.stages.isEmpty then Dev.dropBad n (d.ring n).bufs d else d

def Dev.pumpSnapRing (d : Dev) : Dev := Dev.pumpSnaps (d.crt.carry.length + d.crt.waiting.length + 2) d

end Sys2Proof.Machine
end

