-- ==== Sys2Proof/Machine/Epochs.lean ====
section
/-! DEFINITION. Epochs and stream entries: effective epochs, due epochs, the assignment of records to epochs, their
commit to the open-epoch store, and late records (R81, R82, R95 to R104, R132 to R134). -/

namespace Sys2Proof.Machine

open Sys2Proof

/-! ## Quality flags (R10) -/

def qPresent : Nat := 1
def qPredicted : Nat := 2
def qAmended : Nat := 4
def qTimeSuspect : Nat := 8
def qSrcInvalid : Nat := 16
def qCheckFail : Nat := 32
def qStale : Nat := 64
def qTest : Nat := 128

/-- The record carries PRESENT. -/
def isPresent (r : Rec) : Bool := r.qual.testBit 0

/-! ## Effective epochs (R81, R82) -/

/-- The entry in force at epoch `e`. -/
def Held.at' {α : Type} (h : Held α) (e : Nat) : Option α :=
  match h.pend with
  | none => h.cur
  | some (eff, new) => if signedDiff 32 eff e ≤ 0 then new else h.cur

/-- The entry that the table holds last: the pending one, if there is one. -/
def Held.newest {α : Type} (h : Held α) : Option α := match h.pend with | none => h.cur | some (_, new) => new

/-- A pending entry ceases to be pending once its effective epoch is confirmed; `last` is the newest confirmed epoch of the
run, all earlier ones being confirmed too. -/
def Held.settle {α : Type} (h : Held α) (last : Nat) : Held α :=
  match h.pend with
  | none => h
  | some (eff, new) => if signedDiff 32 eff last ≤ 0 then { cur := new, pend := none } else h

/-- Crater is sealing. -/
def Dev.craterRuns (d : Dev) : Bool := d.bit Fld.CRT_STATUS_RUNNING

/-- The epoch is locally sealed in the current run. -/
def Dev.sealedHere (d : Dev) (e : Nat) : Bool := d.craterRuns && decide (d.crt.first ≤ e) && decide (e < d.crt.nextSeal)

/-- The effective epoch is already locally sealed in the current run: the epoch that the short epoch names nearest to the next
seal lies between the run's first epoch and that seal. -/
def Dev.effSealed (d : Dev) (eff : Nat) : Bool :=
  let back := signedDiff 32 eff d.crt.nextSeal
  d.craterRuns && decide (back < 0) && decide ((d.crt.first : Int) ≤ d.crt.nextSeal + back)

/-- The effective epoch lies before the first epoch of the current run: the change applies from that first epoch (R81). -/
def Dev.effBefore (d : Dev) (eff : Nat) : Bool :=
  d.craterRuns && decide (signedDiff 32 eff d.crt.nextSeal < 0) && decide (d.crt.nextSeal + signedDiff 32 eff d.crt.nextSeal < (d.crt.first : Int))

/-- What a command with an effective epoch makes of a table entry, or the status with which it is refused (R81, R82). A change
that applies from the first epoch of the run is not pending once that epoch is confirmed. -/
def Dev.change {α : Type} (d : Dev) (h : Held α) (eff : Nat) (imm : Bool) (new : Option α) : Except Nat (Held α) :=
  if h.pend.isSome then .error sBusy
  else if imm then
    if d.craterRuns then .ok { cur := h.cur, pend := some (d.crt.nextSeal % 2 ^ 32, new) } else .ok { cur := new, pend := none }
  else if d.effSealed eff then .error sLate
  else if d.effBefore eff && decide (d.crt.first < d.crt.nextConf) then .ok { cur := new, pend := none }
  else .ok { cur := h.cur, pend := some (eff, new) }

/-- The statuses of R82 in the order in which they apply. -/
def statusOrder : List Nat := [sBusy, sLate, sRange, sNoCells, sDupKey]

def firstStatus (l : List Nat) : Option Nat := statusOrder.find? (fun s => l.contains s)

/-! ## Streams -/

def Dev.stream (d : Dev) (i : Nat) : StreamSt := d.ing.streams.getD i {}

def Dev.setStream (d : Dev) (i : Nat) (s : StreamSt) : Dev := d.modIng (fun g => { g with streams := g.streams.put i s })

def Dev.modStream (d : Dev) (i : Nat) (f : StreamSt → StreamSt) : Dev := d.setStream i (f (d.stream i))

/-- The entry of stream `i` in force at epoch `e`. -/
def Dev.entryAt (d : Dev) (i e : Nat) : Option StreamEntry := (d.stream i).entry.at' e

/-- The entry that a command on the stream finds: valid, and the pending one if one is. -/
def Dev.validEntry (d : Dev) (i : Nat) : Option StreamEntry := (d.stream i).entry.newest

/-- FIFO cells of a stream: the entry in force and the pending one are both held (R82), and the larger counts. An entry that
waits for its history is in no table yet. -/
def StreamSt.cells (s : StreamSt) : Nat :=
  max ((s.entry.cur.map (fun e => e.fifoCells)).getD 0) ((s.entry.newest.map (fun e => e.fifoCells)).getD 0)

/-- FIFO cells of the streams but one, with those that an entry waiting for its history will need (R60). -/
def Dev.cellsBut (d : Dev) (i : Nat) : Nat :=
  d.ing.streams.foldl (fun a (s : Nat × StreamSt) =>
    if s.1 = i then a else a + max s.2.cells (match s.2.awaiting with | some (_, _, e) => e.fifoCells | none => 0)) 0

/-- ING_BUF_ALLOC follows the table (R90). -/
def Dev.refreshAlloc (d : Dev) : Dev :=
  d.setFld Fld.ING_BUF_ALLOC_CELLS_ALLOC (d.ing.streams.foldl (fun a (s : Nat × StreamSt) => a + s.2.cells) 0)

/-- An unlisted channel slot is all zeros. -/
def zeroChan : ChanEntry := ⟨0, false, 0, 0, 0, 0⟩

def Dev.chan (d : Dev) (slot : Nat) : ChanEntry := d.ing.chans.getD slot zeroChan

/-- The channel slots of an entry. -/
def Dev.chansOf (d : Dev) (e : StreamEntry) : List ChanEntry := (List.range e.nchan).map (fun i => d.chan (e.chanBase + i))

/-- Sampled values (types 2 and 3). -/
def StreamEntry.isSv (e : StreamEntry) : Bool := decide (e.type = 2) || decide (e.type = 3)

def StreamEntry.isC37 (e : StreamEntry) : Bool := decide (e.type < 2)

/-- Nominal rate r_s: FRATE, or the sample rate. -/
def StreamEntry.rate (e : StreamEntry) : Nat := if e.isSv then (if e.frate % 2 = 0 then 4800 else 14400) else e.frate

def StreamEntry.nasdu (e : StreamEntry) : Nat := e.frate / 2 % 16

/-- Bytes of a stored item (R76). -/
def StreamEntry.itemBytes (e : StreamEntry) : Nat :=
  if e.isC37 then 40 + e.frameLen
  else if e.isSv then 24 + e.nasdu * (16 + e.frameLen)
  else if e.type = 4 then 40 + 8 * e.nchan
  else 128

def StreamEntry.itemCells (e : StreamEntry) : Nat := (e.itemBytes + 127) / 128

/-- The other owner: the mirror of a primary, the primary of a mirror; `self` where it is single-owned. -/
def StreamEntry.partner (e : StreamEntry) (self : Nat) : Nat := if e.primary = self then e.mirror else e.primary

/-- Epoch `e` is due for a stream (R96, R98, R99). -/
def dueAt (f : Nat) (s : StreamEntry) (e : Nat) : Bool := if s.isC37 then decide (e * s.frate % f = 0) else true

/-- Due epochs between two due epochs of the stream. -/
def dueStep (f : Nat) (s : StreamEntry) : Nat := if s.isC37 then f / Nat.gcd f s.frate else 1

/-- The streams of the seal set of epoch `e` that are due (R100), by rising index. -/
def Dev.dueStreams (d : Dev) (e : Nat) : List (Nat × StreamEntry) :=
  d.ing.streams.filterMap (fun (s : Nat × StreamSt) =>
    (s.2.entry.at' e).bind (fun x => if dueAt d.rate x e then some (s.1, x) else none))

/-- Sample instants of a sampled-value stream: the first of epoch `e`, as a number of samples since the PTP epoch. -/
def firstSample (f r e : Nat) : Nat := (e * r + f - 1) / f

/-- NSAMP of epoch `e` (R98). -/
def nsampOf (f r e : Nat) : Nat := firstSample f r (e + 1) - firstSample f r e

/-- The epoch with the nearest epoch time to a time-tag in 2⁻¹⁶ ns, ties to the later (R95). -/
def nearestEpoch (f t : Nat) : Nat := (2 * t * f + 1000000000 * 2 ^ 16) / (2 * 1000000000 * 2 ^ 16)

/-- The record is aligned with its epoch: within TOL µs. -/
def alignedTo (f tol e t : Nat) : Bool :=
  let a : Int := (t * f : Nat) - (e * (1000000000 * 2 ^ 16) : Nat)
  decide (a.natAbs ≤ tol * 1000 * 2 ^ 16 * f)

/-- The first epoch whose epoch time is at or after a G-time in 2⁻¹⁶ ns (R46). -/
def firstEpochAt (f t : Nat) : Nat := (t * f + 1000000000 * 2 ^ 16 - 1) / (1000000000 * 2 ^ 16)

/-! ## The open-epoch store (R101 to R103) -/

def Dev.slot (d : Dev) (e : Nat) : Option EpochSlot := d.crt.slots.find e

/-- The slot of an epoch, which opens where it is not open. -/
def Dev.slotD (d : Dev) (e : Nat) : EpochSlot := d.crt.slots.getD e {}

def Dev.setSlot (d : Dev) (e : Nat) (s : EpochSlot) : Dev :=
  (d.modCrt (fun c => { c with slots := c.slots.put e s }))

/-- Epochs that are open: with a slot, and not yet confirmed (R26). -/
def openCount (t : Tbl EpochSlot) : Nat := (t.filter (fun (s : Nat × EpochSlot) => s.2.conf.isNone)).length

/-- CRT_STATUS.OPEN follows the slots. DEDUCED, log 133: R26 ends an open epoch at its confirmation, while its slot is released at
delivery (R101). -/
def Dev.refreshOpen (d : Dev) : Dev := d.setFld Fld.CRT_STATUS_OPEN (openCount d.crt.slots)

/-- L: the oldest epoch whose slot is not yet released. -/
def Dev.oldestOpen (d : Dev) : Nat := d.crt.nextDeliver

/-- Commit of a record was made: LAST_EPOCH, LAST_PORT and LAST_RX of its stream (R92), and its ingest frame. -/
def Dev.noteCommit (d : Dev) (i e port rx : Nat) : Dev :=
  d.modStream i (fun s => { s with lastEpoch := e % 2 ^ 32, lastPort := port, lastRx := rx, committed := some e })

/-- The record of a stream in an open epoch. -/
def Dev.stored (d : Dev) (e i : Nat) : Option StoredRec := (d.slot e).bind (fun s => s.recs.find i)

/-- A record is committed to the store, and a CHECK_FAIL mark of its epoch is cleared (R72). -/
def Dev.store (d : Dev) (e i : Nat) (r : StoredRec) : Dev :=
  let s := d.slotD e
  let d1 := ((d.setSlot e { s with recs := s.recs.put i r, checkFail := s.checkFail.filter (fun x => decide (x ≠ i)) }).noteCommit i e
    r.port r.rx).refreshOpen
  let d2 := if s.recs.isEmpty then d1.claimStage e else d1
  if isPresent r.record then d2.stageRec e r.record else d2

/-! ## Late records (R132 to R134) -/

/-- Bytes of the amendment log. -/
def amendBytes (l : List (Nat × Amendment)) : Nat := l.foldl (fun a x => a + (x.2.bytes false).length) 0

/-- The oldest records are overwritten until the log of `cap` bytes holds the rest. -/
def fitAmends (cap : Nat) : List (Nat × Amendment) → List (Nat × Amendment) × List (Nat × Amendment)
  | [] => ([], [])
  | a :: t => if amendBytes (a :: t) ≤ cap then (a :: t, []) else let r := fitAmends cap t; (r.1, a :: r.2)

/-- The epoch that a short epoch names, nearest to a given epoch. -/
def epochOfShort (near short : Nat) : Nat := (near + signedDiff 32 short near).toNat

/-- An amendment record of epoch `e` goes to the amendment log and to the amendment ring (R133, R137, R467). -/
def Dev.placeAmend (d : Dev) (e : Nat) (a : Amendment) : Dev :=
  let cap := d.fld Fld.CRT_HIST_AMEND_SIZE * 1048576
  let r := fitAmends cap (d.crt.amends ++ [(e, a)])
  let d1 := d.modCrt (fun c => { c with
    amends := r.1, amendLost := c.amendLost ++ r.2.map (fun x => (x.2.record.stream, x.1)) })
  let bytes := a.bytes false
  let d2 := (d1.setRingQ 5 (d1.hif.amendQ ++ [⟨bytes, true⟩])).pump 5
  let lost := (d2.hif.amendQ.length - r.1.length)
  if lost = 0 then d2
  else d2.modHif (fun h => { h with amendQ := h.amendQ.drop lost, lossMarks := putBit h.lossMarks 5 true })

/-- An amendment of a stream and epoch exists, or has existed. -/
def Dev.hasAmend (d : Dev) (i e : Nat) : Bool :=
  d.crt.amends.any (fun a => decide (a.2.record.stream = i) && decide (a.1 = e)) || d.crt.amendLost.contains (i, e)

/-- The confirmed record of an owned stream, in the store or in the history buffer, and the local seal instant. -/
def Dev.confirmedRec (d : Dev) (i e : Nat) : Option (Rec × Nat) :=
  match (d.slot e).bind (fun s => s.conf.bind (fun c => (c.recs.find i).map (fun r => (r, (s.sealed.map (fun x => x.at_)).getD 0)))) with
  | some x => some x
  | none => (d.crt.snaps.find? (fun s => decide (s.epoch = e))).bind (fun s => (s.recs.find i).map (fun r => (r, s.sealAt)))

/-- A late record of a confirmed epoch is discarded, or becomes an amendment record (R132). The commit is now. -/
def Dev.amend (d : Dev) (i e : Nat) (l : LateRec) : Dev :=
  match d.confirmedRec i e with
  | none => d.count Reg.CRT_TOO_OLD
  | some (rec', sealAt) =>
    let qual := rec'.qual
    if d.hasAmend i e then d.modStream i (fun s => { s with dup := s.dup + 1 })
    else if qual.testBit 0 then d
    else if d.fld Fld.CRT_AMEND_HORIZON + e + 1 < d.crt.nextSeal then d.count Reg.CRT_TOO_OLD
    else
      let us := (l.commitAt - sealAt) / 2 ^ 16 / 1000
      let ent := d.entryAt i e
      let a : Amendment :=
        { src := 0, shortEpoch := e % 2 ^ 32, primary := (ent.map (fun x => if popCount 64 (d.viewAt e).members < 2 then d.deviceNo else x.primary)).getD d.deviceNo,
          origQual := qual ||| qAmended, arrival := l.rx, lateness := sat (2 ^ 32 - 1) us, record := l.record }
      let d1 := (d.placeAmend e a).count64 Reg.CRT_AMENDS_LO
      let p := (ent.map (fun x => x.partner d.deviceNo)).getD d.deviceNo
      if d1.view.members.testBit p then d1.send p (.amendFwd a) else d1

/-- A late record joins those held for its epoch. One of sampled values holds every sample received so far (`Dev.commitEpoch`), so it
takes the place of the stream's earlier one. -/
def joinLate (held : List LateRec) (l : LateRec) : List LateRec :=
  (match l.record.body with | .samples _ _ => held.filter (fun x => decide (x.stream ≠ l.stream)) | _ => held) ++ [l]

/-- A record of a sealed epoch is held until confirmation, then handled (R132). -/
def Dev.lateRecord (d : Dev) (i e : Nat) (r : Rec) (rx : Nat) : Dev :=
  let l : LateRec := { stream := i, record := r, rx := rx, commitAt := d.g16 }
  if e < d.crt.nextConf then d.amend i e l
  else
    let s := d.slotD e
    d.setSlot e { s with late := joinLate s.late l }

/-! ## Commit of a converted record (R95 to R102) -/

/-- A converted C37 or LOCAL record with time-tag `t` is assigned to its epoch and committed, or discarded. DESIGN CHOICE, log 158: a
second frame of an epoch whose slot is released is late, and counts in LATE (R73, R132); log 162: T_OFF is rounded down to whole ns
(R130); log 164: a record that comes while Crater does not run belongs to no run, and counts in CRT_TOO_OLD (R102). -/
def Dev.commitRec (d : Dev) (i : Nat) (ent : StreamEntry) (t : Nat) (r : Rec) (rx port : Nat) : Dev :=
  let f := d.rate
  let e := nearestEpoch f t
  if alignedTo f (d.fld Fld.CRT_ALIGN_TOL) e t = false ∨ dueAt f ent e = false then d.count Reg.CRT_OFFGRID
  else if d.craterRuns = false then d.count Reg.CRT_TOO_OLD
  else if e < d.crt.first then d.count Reg.CRT_TOO_OLD
  else
    let off : Int := ((t : Int) - epochTime f e) / 2 ^ 16
    let r' : Rec := { r with tOff := off, origin := 0 }
    if d.sealedHere e then
      if (d.stored e i).isSome then d.modStream i (fun s => { s with dup := s.dup + 1 })
      else (d.modStream i (fun s => { s with late := s.late + 1 })).lateRecord i e r' rx
    else if d.oldestOpen + 127 < e then d.count Reg.CRT_RANGE_DROP
    else if (d.stored e i).isSome then d.modStream i (fun s => { s with dup := s.dup + 1 })
    else d.store e i ⟨r', rx, port⟩

/-- T_OFF of a sampled-value record: the time of its first sample less T_E, rounded down to whole ns (R130; DESIGN CHOICE, log 162). -/
def svOff (f rate e : Nat) : Int := ((firstSample f rate e * (1000000000 * 2 ^ 16) / rate : Nat) - (epochTime f e : Int)) / 2 ^ 16

/-- An empty sampled-value record of an epoch. -/
def blankSv (f i : Nat) (ent : StreamEntry) (e : Nat) : Rec :=
  let n := nsampOf f ent.rate e
  { stream := i, qual := 0, type := ent.type, tOff := svOff f ent.rate e, nchan := ent.nchan, origin := 0, nsamp := n,
    body := .samples (List.replicate n false) (List.replicate ent.nchan (List.replicate n (0, 0))) }

/-- One sample enters a record: its values by slot, and the flags of its ASDU. -/
def putSample (r : Rec) (k : Nat) (vals : List (Word × Nat)) (flags : Nat) : Rec :=
  match r.body with
  | .samples got v =>
    let v' := (v.zip vals).map (fun x => modifyAt x.1 k (fun _ => x.2))
    { r with qual := r.qual ||| flags, body := .samples (modifyAt got k (fun _ => true)) v' }
  | _ => r

/-- Which samples of a record were received. -/
def gotOf (r : Rec) : List Bool := match r.body with | .samples got _ => got | _ => []

/-- Every sample was received (R98). -/
def allGot (r : Rec) : Bool := (gotOf r).all (fun b => b)

/-- A record with the samples that were not received at 0. -/
def onlyReceived (r : Rec) : Rec :=
  match r.body with
  | .samples got v =>
    { r with qual := 0, body := .samples got (v.map (fun ch => (ch.zip got).map (fun x => if x.2 then x.1 else (0, 0)))) }
  | _ => r

/-- What a frame of sampled values has done so far: one of its samples had been received before, and one came after the local
seal. -/
structure SvNote where
  dup : Bool := false
  late : Bool := false
  deriving DecidableEq, Repr

/-- The samples of one frame that lie in one epoch are committed, or discarded (R98, R102, R132). A sample is its number since the
PTP epoch at the stream's rate with its values. DESIGN CHOICE, log 158: the samples already received make the frame count in DUP,
once, while its other samples are committed; and those of an epoch whose slot is released count the same (R73). -/
def Dev.commitEpoch (d : Dev) (note : SvNote) (i : Nat) (ent : StreamEntry) (e : Nat) (l : List (Nat × List (Word × Nat)))
    (flags rx port : Nat) : Dev × SvNote :=
  let f := d.rate
  let n0 := firstSample f ent.rate e
  let fresh := blankSv f i ent e
  let put (r : Rec) (new : List (Nat × List (Word × Nat))) : Rec :=
    new.foldl (fun r x => if (gotOf r)[x.1 - n0]? = some true then r else putSample r (x.1 - n0) x.2 flags)
      { r with tOff := svOff f ent.rate e, origin := 0 }
  let full (r : Rec) : Rec := { r with qual := if allGot r then r.qual ||| qPresent else r.qual }
  let unseen (r : Rec) : List (Nat × List (Word × Nat)) := l.filter (fun x => decide ((gotOf r)[x.1 - n0]? ≠ some true))
  if d.craterRuns = false ∨ e < d.crt.first then (d.count Reg.CRT_TOO_OLD, note)
  else if d.sealedHere e then
    let seen := match d.stored e i with
      | some s => s.record
      | none => match (d.confirmedRec i e).map (fun x => x.1) with
        | some r => (match r.body with | .samples _ _ => r | _ => fresh)
        | none => fresh
    let lates := ((d.slotD e).late.filter (fun l => decide (l.stream = i))).map (fun l => l.record)
    let base := lates.getLastD (onlyReceived seen)
    let new := unseen base
    let note' : SvNote := { dup := note.dup || decide (new.length < l.length), late := note.late || !new.isEmpty }
    if new.isEmpty then (d, note')
    else
      let r := put base new
      (d.lateRecord i e { r with qual := r.qual ||| qPresent } rx, note')
  else if d.oldestOpen + 127 < e then (d.count Reg.CRT_RANGE_DROP, note)
  else
    let cur := ((d.stored e i).map (fun s => s.record)).getD fresh
    let new := unseen cur
    let note' : SvNote := { note with dup := note.dup || decide (new.length < l.length) }
    if new.isEmpty then (d, note') else (d.store e i ⟨full (put cur new), rx, port⟩, note')

/-- The samples of one frame are committed epoch by epoch; the frame counts at most once in DUP and once in LATE (R73, R74, R92). -/
def Dev.commitSamples (d : Dev) (i : Nat) (ent : StreamEntry) (l : List (Nat × List (Word × Nat))) (flags rx port : Nat) : Dev :=
  let epochOf (x : Nat × List (Word × Nat)) : Nat := x.1 * d.rate / ent.rate
  let r := ((l.map epochOf).eraseDups).foldl (fun (a : Dev × SvNote) e =>
    a.1.commitEpoch a.2 i ent e (l.filter (fun x => decide (epochOf x = e))) flags rx port) (d, {})
  if r.2.dup || r.2.late then r.1.modStream i (fun s => { s with dup := s.dup + b2n r.2.dup, late := s.late + b2n r.2.late }) else r.1

end Sys2Proof.Machine
end

