-- ==== Sys2Proof/Machine/Ingest.lean ====
section
/-! DEFINITION. Ingest: classification of frames, time-tags, checks and authentication, the stream FIFOs, and the
conversion of their items (R47 to R86). -/

namespace Sys2Proof.Machine

open Sys2Proof

/-! ## Time-tags (R65, R409) -/

def sec16 : Nat := 1000000000 * 2 ^ 16

/-- The offsets TAI − UTC that can apply: the present one, and across a leap the other. -/
def Dev.utcOffsets (d : Dev) : List Int :=
  let o : Int := d.fld Fld.TIM_UTC_OFFSET
  let step : Int := if d.bit Fld.TIM_UTC_NEG then -1 else 1
  let back : Int := if d.tim.lastLeap.any (fun x => x.2) then 1 else -1
  [o] ++ (if d.bit Fld.TIM_UTC_PENDING then [o + step] else []) ++ (if d.bit Fld.TIM_UTC_OCCURRED then [o + back] else [])

/-- The time-tag of a SOC and a fraction of a second, with the offset that puts it nearest to `rx`. -/
def Dev.tagOfSoc (d : Dev) (soc frac base rx : Nat) : Nat :=
  let at_ (o : Int) : Int := (((soc : Int) + o) * sec16) + ((frac * sec16 / base : Nat) : Int)
  let best := d.utcOffsets.foldl (fun (m : Option Int) o =>
    match m with
    | none => some (at_ o)
    | some t => if (at_ o - rx).natAbs < (t - rx).natAbs then some (at_ o) else some t) none
  (best.getD 0).toNat

/-- The sample number since the PTP epoch of a smpCnt: its time lies in (rx − 0.5 s, rx + 0.5 s]. -/
def sampleNumber (rate smpCnt rx : Nat) : Nat :=
  let s : Int := (((rx + sec16 / 2) * rate : Nat) - (smpCnt * sec16 : Nat) : Int) / ((sec16 * rate : Nat) : Int)
  s.toNat * rate + smpCnt

/-- FUTURE_LIM in 2⁻¹⁶ ns; 0 acts as 1 (R66). -/
def Dev.futureLim (d : Dev) : Nat := max 1 (d.fld Fld.ING_CFG_FUTURE_LIM) * 500000 * 2 ^ 16

/-! ## Check failures (R70, R71) -/

/-- The next due epoch at or after `e`. -/
def nextDue (f : Nat) (s : StreamEntry) (e : Nat) : Nat := let st := max 1 (dueStep f s); (e + st - 1) / st * st

/-- CHECK_FAIL is marked on the stream's next expected epoch, where it is open, unsealed and holds no committed record. An epoch has a
slot from T_E on, of the 128 that R26 gives. DESIGN CHOICE, log 157: a sampled-value record of which some samples are received counts
as the stream's last committed record, while it holds off no mark of its own epoch. -/
def Dev.markCheckFail (d : Dev) (i : Nat) (ent : StreamEntry) : Dev :=
  let f := d.rate
  let e := match (d.stream i).committed with
    | some c => nextDue f ent (c + 1)
    | none => nextDue f ent d.crt.nextSeal
  let opened := (d.slot e).isSome || (decide (epochTime f e ≤ d.g16) && decide (e ≤ d.oldestOpen + 127))
  let held := match d.stored e i with | none => false | some r => isPresent r.record
  if d.craterRuns && decide (d.crt.nextSeal ≤ e) && opened && !held then
    let s := d.slotD e
    if s.checkFail.contains i then d else (d.setSlot e { s with checkFail := s.checkFail ++ [i] }).refreshOpen
  else d

/-- The key world of a stream type (R70, R481). -/
def streamWorld (type : Nat) : Nat := if type = 2 then worldGooseSv else worldR90_5

/-- A frame's MAC is checked with the key of KEY_SLOT (R70): the device, with the failure counted, and the verdict. The event of an
orphaned key is sent once for a stream until an update has written the slot again. -/
def authFrame (k : KeySt) (i : Nat) (ent : StreamEntry) (a : Option AuthInfo) (d : Dev) : Dev × Bool :=
  if ent.authReq = false then (d, true)
  else
    let fail (x : Dev) : Dev :=
      ((x.modStream i (fun s => { s with authErr := s.authErr + 1 })).count64 Reg.ING_CHECK_ERR_LO).markCheckFail i ent
    let clean (x : Dev) : Dev := x.modStream i (fun s => { s with keyOrphaned := false })
    match k.use ent.keySlot with
    | .error st =>
      let d1 := d.countUse (.error st : Except Nat Slot)
      if st = sKeyOrphaned then
        let note := some (ent.keySlot, k.writes.getD ent.keySlot 0)
        let d2 := if (d.stream i).orphanNote = note then d1 else d1.event .streamKeyOrphaned i ent.keySlot 0 sKeyOrphaned
        (fail (d2.modStream i (fun s => { s with keyOrphaned := true, orphanNote := note })), false)
      else (fail (clean d1), false)
    | .ok s =>
      match a with
      | none => (fail (clean d), false)
      | some m =>
        let key := (s.cur.toList ++ s.next.toList).find? (fun v => decide (v.keyId = m.keyId))
        match key with
        | none => (fail (clean d), false)
        | some v =>
          if s.world = streamWorld ent.type ∧ m.alg = s.alg ∧ macTag m.alg v.bytes m.covered = m.tag then (clean d, true)
          else (fail (clean d), false)

/-! ## The stream FIFOs (R76, R77) -/

/-- CELLS_USED changes. -/
def Dev.useCells (d : Dev) (added freed : Nat) : Dev := d.setFld Fld.ING_STATUS_CELLS_USED (d.fld Fld.ING_STATUS_CELLS_USED + added - freed)

def fifoCells (q : List FifoItem) : Nat := q.foldl (fun a x => a + x.cells) 0

/-- The oldest items are overwritten until `n` more cells fit: what stays and how many went. -/
def makeRoom (cap n : Nat) : List FifoItem → List FifoItem × Nat
  | [] => ([], 0)
  | x :: t => if fifoCells (x :: t) + n ≤ cap then (x :: t, 0) else let r := makeRoom cap n t; (r.1, r.2 + 1)

/-- Work items of overwritten FIFO items leave the queue, which frees entries (R333). -/
def Dev.dropConv (stream : Nat) : Nat → Dev → Dev
  | 0, d => d
  | n + 1, d =>
    match d.sch.queue.find? (fun q => decide (q.item.origin = 0x01) && decide (q.item.tag = stream)) with
    | some q => Dev.dropConv stream n ((d.modSch (fun s => { s with queue := s.queue.filter (fun x => decide (x.order ≠ q.order)) })).reoffer.refreshSch)
    | none => Dev.dropConv stream n (d.modSch (fun s => { s with
        refused := s.refused.eraseP (fun x => decide (x.origin = 0x01) && decide (x.tag = stream)) }))

/-- An item is committed to the stream's FIFO, and its conversion is raised. DESIGN CHOICE, log 160: room is made here, once the frame
has passed its checks, so that a frame that is found bad at its end has overwritten nothing. -/
def Dev.pushItem (d : Dev) (i : Nat) (ent : StreamEntry) (it : FifoItem) : Dev :=
  let st := d.stream i
  let r := makeRoom ent.fifoCells it.cells st.fifo
  let freed := fifoCells st.fifo - fifoCells r.1
  let d1 := d.setStream i { st with fifo := r.1 ++ [it], frames := st.frames + 1, lost := st.lost + r.2, drain := st.drain - r.2 }
  let d2 := Dev.dropConv i r.2 ((((d1.useCells it.cells freed).count64 Reg.ING_FRAMES_LO).count64 Reg.ING_LOST_LO r.2).modIng
    (fun g => { g with load := (g.load.keep (fun t _ => decide (d.up < t + 1200000000))).update d.up 0 (· + 1) }))
  d2.raiseConv i ent.prio

/-- Every item of a stream's FIFO goes. -/
def Dev.flushFifo (d : Dev) (i : Nat) : Dev :=
  let st := d.stream i
  Dev.dropConv i st.fifo.length ((d.setStream i { st with fifo := [], drain := 0 }).useCells 0 (fifoCells st.fifo))

/-- What ECC finds in the cells of an item: 1 a corrected error, 2 a double-bit error (R79). -/
def Dev.ingestEcc (d : Dev) (ecc : Nat) : Dev :=
  if ecc = 2 then (d.count Reg.ING_ECC_UNCORR).raise eMemUncorr 1 3
  else if ecc = 1 then (d.count Reg.ING_ECC_CORR).count64 Reg.SAF_CORRECTED_LO
  else d

/-- A frame that has passed its checks is committed, unless ECC finds a double-bit error at its end: then it is rewound (R76, R79). -/
def Dev.endItem (d : Dev) (ecc i : Nat) (ent : StreamEntry) (it : FifoItem) : Dev :=
  if ecc = 2 then d.ingestEcc ecc else (d.ingestEcc ecc).pushItem i ent it

/-! ## IEEE C37.118.2 (R48 to R51, R58, R65 to R69, R78) -/

/-- Where a C37.118 frame came from: the host-ingest ring, or a UDP datagram with its VID, port and source address; and what ECC finds
in the cells of each of its items. -/
structure C37Path where
  host : Bool
  port : Nat
  vid : Option Nat := none
  dport : Nat := 0
  srcIp : Nat := 0
  ecc : List Nat := []
  deriving DecidableEq, Repr

/-- VLAN and source parts of a key (R54). -/
def vlanMatches (e : StreamEntry) (vid : Option Nat) : Bool := e.vlanAny || decide (vid = some e.vlanId)

def srcMatches (e : StreamEntry) (src : Nat) : Bool := decide (beNat e.srcAddr = 0) || decide (beNat e.srcAddr = src)

/-- The UDP port of an entry: 0 is the default of its protocol (R54). -/
def Dev.udpPortOf (d : Dev) (e : StreamEntry) : Nat :=
  if e.udpPort ≠ 0 then e.udpPort
  else if e.type = 0 then d.fld Fld.ING_PORTS_C37_UDP else d.fld Fld.ING_PORTS_ROUTED_UDP

/-- An entry names the frame's IDCODE and path. -/
def Dev.namesC37 (d : Dev) (p : C37Path) (idcode : Nat) (e : StreamEntry) : Bool :=
  decide (e.srcId = idcode) &&
    (if p.host then decide (e.type = 1)
     else decide (e.type = 0) && vlanMatches e p.vid && decide (d.udpPortOf e = p.dport) && srcMatches e p.srcIp)

/-- The entry of a stream that applies to a frame of the given time (R81). DESIGN CHOICE, log 135: while an entry is pending, the
frame's epoch is read with the TIME_BASE of the new entry. -/
def Dev.entryForSoc (d : Dev) (h : Held StreamEntry) (soc frac rx : Nat) : Option StreamEntry :=
  match h.pend with
  | none => h.cur
  | some (eff, new) =>
    match (new <|> h.cur) with
    | none => none
    | some x => if signedDiff 32 eff (nearestEpoch d.rate (d.tagOfSoc soc frac (max 1 x.timeBase) rx)) ≤ 0 then new else h.cur

/-- The streams whose entries name a frame, with those entries. -/
def Dev.namedC37 (d : Dev) (p : C37Path) (idcode soc frac rx : Nat) : List (Nat × StreamEntry) :=
  d.ing.streams.filterMap (fun (s : Nat × StreamSt) =>
    ((d.entryForSoc s.2.entry soc frac rx).filter (d.namesC37 p idcode)).map (fun e => (s.1, e)))

/-- The blocks of a frame: stream, entry and bytes; and how the walk of R58 ended: 0 at the CHK, 1 with bytes that cannot be
read, 2 past the CHK. -/
def walkBlocks (named : List (Nat × StreamEntry)) : Nat → Nat → Bytes → List (Nat × StreamEntry × Bytes) × Nat
  | 0, _, rest => ([], if rest.isEmpty then 0 else 1)
  | fuel + 1, k, rest =>
    if rest.isEmpty then ([], 0)
    else match named.find? (fun x => decide (x.2.pmuBlk = k)) with
      | none => ([], 1)
      | some (i, e) =>
        if rest.length < e.frameLen then ([], 2)
        else
          let r := walkBlocks named fuel (k + 1) (rest.drop e.frameLen)
          ((i, e, rest.take e.frameLen) :: r.1, r.2)

/-- A recognised frame that matches no entry is counted, and at most one event a second is sent for each port (R56). -/
def Dev.unmatched (d : Dev) (port : Option Nat) (type srcId addr4 : Nat) : Dev :=
  let d1 := d.count64 Reg.ING_UNMATCHED_LO
  match port with
  | none => d1
  | some p =>
    let sec := d.up / 1000000000
    if d.bit Fld.ING_CFG_UNMATCHED_EVT && decide (d.ing.unmatchedAt.find p ≠ some sec) then
      (d1.modIng (fun g => { g with unmatchedAt := g.unmatchedAt.put p sec })).event .unmatchedSource p (type * 2 ^ 24 + srcId) addr4
    else d1

/-- A length error: counted once in each stream that the entries name, else once as unmatched (R78). -/
def Dev.lengthError (d : Dev) (named : List (Nat × StreamEntry)) : Dev :=
  if named.isEmpty then d.count64 Reg.ING_UNMATCHED_LO
  else named.foldl (fun (x : Dev) n => x.modStream n.1 (fun s => { s with lenErr := s.lenErr + 1 })) d

/-- TIME_SUSPECT of a C37.118 frame (R67). -/
def Dev.c37Suspect (d : Dev) (stat fracsec : Nat) : Bool :=
  let tq := fracsec / 2 ^ 24 % 16
  stat.testBit 13 || decide (stat / 16 % 4 ≠ 0) || decide (tq = 15) || decide (d.fld Fld.ING_CFG_TQ_LIMIT ≤ tq) || d.timeSuspect

/-- One block of a good data frame (R57, R66 to R68), with what ECC finds in the cells of its item (R79). -/
def Dev.takeBlock (d : Dev) (p : C37Path) (soc fracsec rx ecc : Nat) (b : Nat × StreamEntry × Bytes) : Dev :=
  let i := b.1
  let ent := b.2.1
  let frac := fracsec % 2 ^ 24
  let stat := beNat (slice b.2.2 0 2)
  let tag := d.tagOfSoc soc frac (max 1 ent.timeBase) rx
  let flags := stat / 2 ^ 14
  if p.host = false ∧ ent.portMask.testBit p.port = false then d.modStream i (fun s => { s with wrongPort := s.wrongPort + 1 })
  else if ent.timeBase ≤ frac ∨ rx + d.futureLim < tag then d.modStream i (fun s => { s with timeErr := s.timeErr + 1 })
  else if flags = 2 ∧ ent.testAccept = false then d.modStream i (fun s => { s with lenErr := s.lenErr + 1 })
  else
    d.endItem ecc i ent
      { rx := rx, port := if p.host then 7 else p.port, cells := ent.itemCells, tag := tag,
        suspect := d.c37Suspect stat fracsec, invalid := decide (flags % 2 = 1), test := decide (flags = 2), body := .block b.2.2 }

/-- A frame whose CHK fails (R69, R71). -/
def Dev.crcError (d : Dev) (p : C37Path) (blocks : List (Nat × StreamEntry × Bytes)) : Dev :=
  blocks.foldl (fun (x : Dev) b =>
    if p.host = false ∧ b.2.1.portMask.testBit p.port = false then x.modStream b.1 (fun s => { s with wrongPort := s.wrongPort + 1 })
    else (x.modStream b.1 (fun s => { s with crcErr := s.crcErr + 1 })).markCheckFail b.1 b.2.1) (d.count64 Reg.ING_CHECK_ERR_LO)

/-- A control-frame entry goes to the event ring (R466). -/
def Dev.controlEntry (d : Dev) (p : C37Path) (sport kind session rx : Nat) (b : Bytes) : Dev :=
  d.eventRecord (fun seq =>
    [0x03, BitVec.ofNat 8 d.deviceNo, BitVec.ofNat 8 p.port, BitVec.ofNat 8 kind] ++ leBytes 2 b.length ++ leBytes 2 session ++
    gtimeBytes rx ++ beBytes 16 p.srcIp ++ leBytes 2 sport ++ leBytes 2 p.dport ++ zeros 4 ++ leBytes 4 seq ++ padTo 8 b)

/-- The frame's version is accepted (R49). -/
def Dev.c37Version (d : Dev) (b : Bytes) : Bool :=
  let v := beNat (slice b 1 1) % 16
  decide (v = 2) || (decide (v = 1) && d.bit Fld.ING_CFG_ACCEPT_V1)

/-- Frame type of a C37.118 frame. -/
def c37Type (b : Bytes) : Nat := beNat (slice b 1 1) / 16 % 8

/-- CHK of a C37.118 frame (R69). DESIGN CHOICE, log 136: it is read from the last two bytes that carry the frame, and covers all bytes
before them, also where FRAMESIZE gives another length. -/
def c37ChkOk (b : Bytes) : Bool := decide (crc16 (b.take (b.length - 2)) = beNat (b.drop (b.length - 2)))

/-- A C37.118 data frame (R49, R58, R69, R78). -/
def Dev.c37Data (d : Dev) (p : C37Path) (rx : Nat) (b : Bytes) : Dev :=
  let idcode := beNat (slice b 4 2)
  let soc := beNat (slice b 6 4)
  let fracsec := beNat (slice b 10 4)
  let port := if p.host then none else some p.port
  let named := d.namedC37 p idcode soc (fracsec % 2 ^ 24) rx
  let w := walkBlocks named 64 0 ((b.drop 14).take (b.length - 16))
  if c37ChkOk b = false then (if w.1.isEmpty then d.count64 Reg.ING_CHECK_ERR_LO else d.crcError p w.1)
  else if d.c37Version b = false ∨ b.length < 14 then d.count64 Reg.ING_UNMATCHED_LO
  else if beNat (slice b 2 2) ≠ b.length ∨ b.length < 16 ∨ w.2 = 2 then d.lengthError named
  else if w.1.isEmpty then d.unmatched port 0 idcode (p.srcIp % 2 ^ 32)
  else
    let d1 := if w.2 = 1 then d.count64 Reg.ING_UNMATCHED_LO else d
    w.1.zipIdx.foldl (fun (x : Dev) blk => x.takeBlock p soc fracsec rx (p.ecc.getD blk.2 0) blk.1) d1

/-- A C37.118 frame other than data (R48, R49): its check and its version, then the control-frame entry. -/
def Dev.c37Control (d : Dev) (p : C37Path) (sport session rx : Nat) (b : Bytes) : Dev :=
  let t := c37Type b
  if c37ChkOk b = false then d.count64 Reg.ING_CHECK_ERR_LO
  else if d.c37Version b = false ∨ b.length < 14 ∨ 6 ≤ t then d.count64 Reg.ING_UNMATCHED_LO
  else d.controlEntry p sport (if t = 1 then 0 else if t = 2 then 1 else if t = 3 then 2 else if t = 5 then 3 else 4) session rx b

/-- A C37.118 frame is dropped for its length: R48 checks the CHK of every frame first. -/
def c37Oversize (b : Bytes) : Bool := decide (8192 < b.length) && c37ChkOk b

/-- A datagram that begins with 0xAA and reaches ingest (R48 to R50, R56). -/
def Dev.ingestC37 (d : Dev) (p : C37Path) (sport rx : Nat) (b : Bytes) : Dev :=
  if c37Oversize b then d.count Reg.ING_OVERSIZE
  else if c37Type b = 0 then d.c37Data p rx b
  else d.c37Control p sport 0xFFFF rx b

/-! ## Sampled values and routed frames (R52, R54, R65 to R75) -/

/-- Where a sampled-value or routed frame came from: its port and VID, and its source MAC or its UDP port and source IP. -/
structure ApduPath where
  port : Nat
  vid : Option Nat
  mac : Option Nat := none
  dport : Nat := 0
  srcIp : Nat := 0
  ecc : List Nat := []
  deriving DecidableEq, Repr

/-- The stream type that a frame's protocol and path allow (R47): EtherType 0x88BA is SV_L2 whatever the frame carries. -/
def apduType (p : ApduPath) : ApduBody → Nat
  | .sv _ _ => if p.mac.isSome then 2 else 3
  | .goose _ _ _ _ _ => if p.mac.isSome then 2 else 4

/-- The source MAC of a type 2 entry: bytes 8 to 13. -/
def macOf (e : StreamEntry) : Nat := beNat (e.srcAddr.take 6)

def Dev.namesApdu (d : Dev) (p : ApduPath) (f : ApduFrame) (e : StreamEntry) : Bool :=
  decide (e.type = apduType p f.body) && decide (e.srcId = f.appid) && vlanMatches e p.vid &&
    (match p.mac with
     | some m => (decide (macOf e = 0) || decide (macOf e = m)) &&
        (decide (e.svidCrc = 0) || (match f.body with | .sv id _ => decide (e.svidCrc = crc32 id) | _ => false))
     | none => decide (d.udpPortOf e = p.dport) && srcMatches e p.srcIp)

/-- The time-tag of a frame: of its first sample, or the receive time-stamp. -/
def apduTag (rate rx : Nat) : ApduBody → Nat
  | .sv _ (a :: _) => sampleNumber rate (a.smpCnt % rate) rx * sec16 / rate
  | _ => rx

/-- The entry of a stream that applies to the frame (R81). DESIGN CHOICE, log 161: a frame whose ASDUs lie on both sides of the
effective epoch is decoded whole by the entry of its first sample's epoch. -/
def Dev.entryForApdu (d : Dev) (h : Held StreamEntry) (f : ApduFrame) (rx : Nat) : Option StreamEntry :=
  match h.pend with
  | none => h.cur
  | some (eff, new) =>
    match (new <|> h.cur) with
    | none => none
    | some x => if signedDiff 32 eff (apduTag (max 1 x.rate) rx f.body * d.rate / sec16) ≤ 0 then new else h.cur

def Dev.namedApdu (d : Dev) (p : ApduPath) (f : ApduFrame) (rx : Nat) : Option (Nat × StreamEntry) :=
  (d.ing.streams.filterMap (fun (s : Nat × StreamSt) =>
    ((d.entryForApdu s.2.entry f rx).filter (d.namesApdu p f)).map (fun e => (s.1, e)))).head?

/-- Every ASDU of a sampled-value frame has 1 to 64 members, and a frame of EtherType 0x88BA carries sampled values (R52). -/
def membersOk (p : ApduPath) : ApduBody → Bool
  | .sv _ asdus => asdus.all (fun a => decide (1 ≤ a.members.length) && decide (a.members.length ≤ 64))
  | .goose _ _ _ _ _ => p.mac.isNone

/-- The structure of a frame is that of its entry (R52, R78). -/
def Dev.apduFits (d : Dev) (ent : StreamEntry) (f : ApduFrame) : Bool :=
  match f.body with
  | .sv _ asdus => decide (asdus.length = ent.nasdu) && asdus.all (fun a => decide (a.members.length * 8 = ent.frameLen))
  | .goose _ _ _ _ ms =>
    (d.chansOf ent).all (fun c => !c.enable ||
      (match ms[c.srcPos]? with
       | some (.bool _) => decide (c.kind = 7)
       | some (.dbpos _) => decide (c.kind = 8)
       | some (.int32 _) => decide (c.kind = 9)
       | none => false))

/-- The quality words of the enabled channels of an ASDU. -/
def Dev.usedQuality (d : Dev) (ent : StreamEntry) (a : Asdu) : List Nat :=
  ((d.chansOf ent).filter (fun c => c.enable)).filterMap (fun c => (a.members[c.srcPos]?).map (fun m => m.2.toNat))

/-- A sampled-value or routed frame reaches ingest. -/
def ingestApdu (k : KeySt) (p : ApduPath) (rx : Nat) (f : ApduFrame) (d : Dev) : Dev :=
  let type := apduType p f.body
  let ecc := p.ecc.headD 0
  match d.namedApdu p f rx with
  | none => d.unmatched (some p.port) type f.appid ((p.mac.getD p.srcIp) % 2 ^ 32)
  | some (i, ent) =>
    let bad (x : Dev) : Dev := x.modStream i (fun s => { s with lenErr := s.lenErr + 1 })
    if ent.portMask.testBit p.port = false then d.modStream i (fun s => { s with wrongPort := s.wrongPort + 1 })
    else if f.optionsOk = false ∨ membersOk p f.body = false then bad d
    else
      let au := authFrame k i ent f.auth d
      if au.2 = false then au.1
      else if p.mac.isNone ∧ ((d.stream i).spdu.any (fun last => !laterThan 32 f.spdu last)) = true then
        au.1.modStream i (fun s => { s with dup := s.dup + 1 })
      else if d.apduFits ent f = false then bad au.1
      else
        let spdu := if p.mac.isNone then some f.spdu else none
        match f.body with
        | .sv _ asdus =>
          let rate := max 1 ent.rate
          let numbers := asdus.map (fun a => sampleNumber rate (a.smpCnt % rate) rx)
          let quals := asdus.flatMap (fun a => d.usedQuality ent a)
          let test := quals.any (fun q => q.testBit 11)
          if asdus.any (fun a => decide (rate ≤ a.smpCnt)) || numbers.any (fun n => decide (rx + d.futureLim < n * sec16 / rate)) then
            au.1.modStream i (fun s => { s with timeErr := s.timeErr + 1 })
          else if test ∧ ent.testAccept = false then bad au.1
          else if ecc = 2 then au.1.ingestEcc 2
          else
            (au.1.modStream i (fun s => { s with spdu := spdu <|> s.spdu })).endItem ecc i ent
              { rx := rx, port := p.port, cells := ent.itemCells, tag := apduTag rate rx f.body,
                suspect := d.timeSuspect || asdus.any (fun a => decide (a.smpSynch ≠ 1 ∧ a.smpSynch ≠ 2)),
                invalid := quals.any (fun q => decide (q % 4 = 1)), test := test,
                body := .asdus ((asdus.zip numbers).map (fun x => (x.1.smpCnt, x.2, x.1.members))) }
        | .goose stNum sqNum ttl test ms =>
          let last := (d.stream i).goose
          let takes := match last with
            | none => true
            | some l => laterThan 32 stNum l.stNum || (decide (stNum = l.stNum) && laterThan 32 sqNum l.sqNum)
                || decide (l.at_ + l.ttlMs * 1000000 * 2 ^ 16 ≤ rx)
          if test ∧ ent.testAccept = false then bad au.1
          else if takes = false then au.1.modStream i (fun s => { s with dup := s.dup + 1 })
          else if ecc = 2 then au.1.ingestEcc 2
          else
            let g : GooseLast :=
              { stNum := stNum, sqNum := sqNum, at_ := rx, ttlMs := ttl, members := ms, test := test, suspect := d.timeSuspect, port := p.port }
            (au.1.modStream i (fun s => { s with spdu := spdu <|> s.spdu, goose := some g, gooseUse := some g })).endItem ecc i ent
              { rx := rx, port := p.port, cells := ent.itemCells, tag := rx, suspect := d.timeSuspect, invalid := false, test := test,
                body := .goose g }

/-! ## Conversion (R64) -/

/-- Sine and cosine of a phasor engine; those of 0 are exact. -/
def fSin (x : Word) : Word := if x &&& 0x7FFFFFFF = 0 then 0 else Config.f32Sin x
def fCos (x : Word) : Word := if x &&& 0x7FFFFFFF = 0 then 0x3F800000 else Config.f32Cos x

/-- 0.0001, 0.001 and 0.01 in binary32. -/
def f1e4 : Word := 0x38D1B717
def f1e3 : Word := 0x3A83126F
def f1e2 : Word := 0x3C23D70A

def fOfTwos16 (v : Nat) : Word := fOfInt (ofTwos 16 v)

/-- Magnitude and angle to real and imaginary parts. -/
def fromPolar (mag ang : Word) : Word × Word := (fMul mag (fCos ang), fMul mag (fSin ang))

/-- (x cos a − y sin a, x sin a + y cos a) in binary32. -/
def rotate (x y a : Word) : Word × Word :=
  (fSub (fMul x (fCos a)) (fMul y (fSin a)), fAdd (fMul x (fSin a)) (fMul y (fCos a)))

def word32 (b : Bytes) (off : Nat) : Word := BitVec.ofNat 32 (beNat (slice b off 4))

def word16 (b : Bytes) (off : Nat) : Nat := beNat (slice b off 2)

/-- A phasor of a block at byte `off`: FORMAT bit 0 is 1 for polar, bit 1 for floating point. -/
def convPhasor (format : Nat) (b : Bytes) (off : Nat) (c : ChanEntry) : Word × Word :=
  let polar := format.testBit 0
  if format.testBit 1 then
    let x := word32 b off
    let y := word32 b (off + 4)
    if polar then fromPolar x (fAdd y c.offset) else rotate x y c.offset
  else if polar then
    fromPolar (fMul (fOfNat (word16 b off)) c.scale) (fAdd (fMul (fOfTwos16 (word16 b (off + 2))) f1e4) c.offset)
  else rotate (fMul (fOfTwos16 (word16 b off)) c.scale) (fMul (fOfTwos16 (word16 b (off + 2))) c.scale) c.offset

/-- The value of one channel slot of a PMU block (R64, R131): phasors, FREQ, DFREQ, analogs, digital words after STAT. DESIGN CHOICE,
log 137: the factors 10⁻⁴, 0.001 and 0.01 are binary32 constants, and a product is rounded before OFFSET is added; R64 gives no
order of rounding. -/
def convSlot (ent : StreamEntry) (b : Bytes) (c : ChanEntry) : Word × Word :=
  let f := ent.format
  let p := if f.testBit 1 then 8 else 4
  let q := if f.testBit 3 then 4 else 2
  let a := if f.testBit 2 then 4 else 2
  let freqAt := 2 + ent.phnmr * p
  let anAt := freqAt + 2 * q
  let dgAt := anAt + ent.annmr * a
  if c.enable = false then (0, 0)
  else if c.kind = 0 then convPhasor f b (2 + c.srcPos * p) c
  else if c.kind = 1 then
    (if f.testBit 3 then word32 b freqAt else fAdd c.offset (fMul (fOfTwos16 (word16 b freqAt)) f1e3), 0)
  else if c.kind = 2 then
    (if f.testBit 3 then word32 b (freqAt + 4) else fMul (fOfTwos16 (word16 b (freqAt + 2))) f1e2, 0)
  else if c.kind = 3 then
    (if f.testBit 2 then fAdd (word32 b (anAt + c.srcPos * 4)) c.offset
     else fAdd (fMul (fOfTwos16 (word16 b (anAt + c.srcPos * 2))) c.scale) c.offset, 0)
  else if c.kind = 4 then (BitVec.ofNat 32 (word16 b (dgAt + c.srcPos * 2)), 0)
  else (0, 0)

/-- A dataset member as a state value, zero-extended (R64). -/
def stateValue : GooseVal → Word
  | .bool b => BitVec.ofNat 32 (b2n b)
  | .dbpos v => BitVec.ofNat 32 (v % 4)
  | .int32 v => v

/-- The values of a GOOSE dataset by channel slot. -/
def Dev.gooseSlots (d : Dev) (ent : StreamEntry) (ms : List GooseVal) : List (Word × Word) :=
  (d.chansOf ent).map (fun c => if c.enable then (((ms[c.srcPos]?).map stateValue).getD 0, 0) else (0, 0))

/-- One ASDU's samples by channel slot, with their validity. -/
def Dev.svSlots (d : Dev) (ent : StreamEntry) (ms : List (Word × Word)) : List (Word × Nat) :=
  (d.chansOf ent).map (fun c =>
    if c.enable then
      match ms[c.srcPos]? with
      | some m => (fMul (fOfInt (ofTwos 32 m.1.toNat)) c.scale, m.2.toNat % 4)
      | none => (0, 0)
    else (0, 0))

/-- Quality flags that an item carries into its record. -/
def FifoItem.flags (it : FifoItem) : Nat := qTimeSuspect * b2n it.suspect + qSrcInvalid * b2n it.invalid + qTest * b2n it.test

/-- A rise of STAT bit 10 is announced, and shown until the next STREAM_SET (R80). -/
def Dev.watchStat10 (d : Dev) (i e : Nat) (now : Bool) : Dev :=
  let st := d.stream i
  let d1 := d.setStream i { st with stat10 := now, cfgChange := st.cfgChange || (now && !st.stat10) }
  if now && !st.stat10 then d1.event .cfgChangePending i (e % 2 ^ 32) else d1

/-- A converted item's record goes to Crater. -/
def Dev.convert (d : Dev) (i : Nat) (it : FifoItem) : Dev :=
  match it.body with
  | .block b =>
    let e := nearestEpoch d.rate it.tag
    match d.entryAt i e with
    | none => d
    | some ent =>
      let r : Rec :=
        { stream := i, qual := qPresent + it.flags, type := ent.type, nchan := ent.nchan,
          body := .slots ((d.chansOf ent).map (convSlot ent b)) }
      (d.watchStat10 i e ((beNat (slice b 0 2)).testBit 10)).commitRec i ent it.tag r it.rx it.port
  | .asdus l =>
    match d.entryAt i (it.tag * d.rate / sec16) with
    | none => d
    | some ent => d.commitSamples i ent (l.map (fun a => (a.2.1, d.svSlots ent a.2.2))) it.flags it.rx it.port
  | .goose g => d.modStream i (fun s => { s with gooseDone := some g })

/-- An item is discarded as an engine reads it (R79): of a GOOSE message no record is formed, and the newest message converted before it
stands again. -/
def Dev.discard (d : Dev) (i : Nat) (it : FifoItem) : Dev :=
  match it.body with
  | .goose g => d.modStream i (fun s => { s with gooseUse := if s.gooseUse = some g then s.gooseDone else s.gooseUse })
  | _ => d

/-- No FIFO holds an item. -/
def Dev.fifosEmpty (d : Dev) : Bool := d.ing.streams.all (fun (s : Nat × StreamSt) => s.2.fifo.isEmpty)

/-- Ingest runs and a protocol bit of ING_CTRL is on. -/
def Dev.ingests (d : Dev) (bit : FieldAt) : Bool := d.bit Fld.ING_CTRL_EN && d.bit bit

/-- The protocol bit of a stream type (R47, R89). -/
def protocolBit (type : Nat) : FieldAt :=
  if type = 0 then Fld.ING_CTRL_C37_EN else if type = 1 then Fld.ING_CTRL_HOSTFEED_EN else if type = 2 then Fld.ING_CTRL_SV_EN
  else Fld.ING_CTRL_ROUTED_EN

/-- The items of the protocols that ingest no longer takes are those to drain (R89). -/
def Dev.markDrain (d : Dev) : Dev :=
  d.modIng (fun g => { g with streams := g.streams.mapVals (fun _ s =>
    if (s.entry.cur <|> s.entry.newest).any (fun e => d.ingests (protocolBit e.type)) then s else { s with drain := s.fifo.length }) })

/-- A FIFO holds an item that stood there when its protocol was disabled (R89). -/
def Dev.drains (d : Dev) : Bool := d.ing.streams.any (fun (s : Nat × StreamSt) => decide (0 < s.2.drain))

/-- DRAINING clears once no item of a protocol that was disabled is left (R89). -/
def Dev.drainDone (d : Dev) : Dev := if d.bit Fld.ING_STATUS_DRAINING && !d.drains then d.setBit Fld.ING_STATUS_DRAINING false else d

/-- The oldest item of a stream's FIFO is converted (R64, R77), or discarded for an uncorrectable error (R79): `ecc` 1 is a
corrected error, 2 a double-bit error found as the engine reads it. -/
def Dev.convertNext (d : Dev) (i ecc : Nat) : Dev :=
  match (d.stream i).fifo with
  | [] => d
  | it :: rest =>
    let d1 := ((d.modStream i (fun s => { s with fifo := rest, drain := s.drain - 1 })).useCells 0 it.cells)
    (if ecc = 2 then (d1.ingestEcc ecc).discard i it else (d1.ingestEcc ecc).convert i it).drainDone

/-- A conversion item completes and commits its record (R329). -/
def Dev.convDone (d : Dev) (r : Running) (ecc : Nat) : Dev := (d.complete' r).convertNext r.q.item.tag ecc

end Sys2Proof.Machine
end

