-- ==== Sys2Proof/Machine/Predict.lean ====
section
/-! DEFINITION. The rotation predictor and the fill of missing records (R110 to R115). -/

namespace Sys2Proof.Machine

open Sys2Proof

/-! ## Complex arithmetic in binary32, in the order of R111 -/

abbrev CWord := Word × Word

def cMul (x y : CWord) : CWord :=
  (fSub (fMul x.1 y.1) (fMul x.2 y.2), fAdd (fMul x.1 y.2) (fMul x.2 y.1))

def cConj (x : CWord) : CWord := (x.1, fNeg x.2)

def cAbs (x : CWord) : Word := fSqrt (fAdd (fMul x.1 x.1) (fMul x.2 x.2))

/-- One step of the rotation: x = x * u, then the magnitude is held. -/
def predictStep (u : CWord) (mag : Word) (x : CWord) : CWord :=
  let y := cMul x u
  let g := fDiv mag (cAbs y)
  (fMul y.1 g, fMul y.2 g)

def iterate {α : Type} (f : α → α) : Nat → α → α
  | 0, x => x
  | n + 1, x => iterate f n (f x)

/-- predict_phasor of R111. -/
def predictPhasor (x1 x2 : CWord) (m : Nat) : CWord :=
  let p := cMul x2 (cConj x1)
  let n := cAbs p
  let mag := cAbs x2
  if n &&& 0x7FFFFFFF = 0 ∨ mag &&& 0x7FFFFFFF = 0 then x2
  else iterate (predictStep (fDiv p.1 n, fDiv p.2 n) mag) m x2

/-! ## Confirmed history -/

def Dev.hist (d : Dev) (i : Nat) : StreamHist := d.crt.hists.getD i {}

/-- The confirmed records of a stream before epoch `e`, newest first. -/
def Dev.histBefore (d : Dev) (i e : Nat) : List ConfRec := (d.hist i).recs.filter (fun r => decide (r.epoch < e))

/-- The record was decoded under an entry like the one in force (R110). -/
def sameSlots (ent : StreamEntry) (r : ConfRec) : Bool :=
  decide (r.record.type = ent.type) && decide (r.chanBase = ent.chanBase) && decide (r.nchan = ent.nchan)

/-- The anchors of R110 in a stream's confirmed history, newest first: a2, the record of the due epoch before it, and how many records
are newer than a2. Every due epoch of the run has a record, so these neighbours are neighbouring due epochs. -/
def anchors : Nat → List ConfRec → Option (ConfRec × Option ConfRec × Nat)
  | _, [] => none
  | n, r :: t => if isPresent r.record then some (r, t.head?, n) else anchors (n + 1) t

/-- Due epochs of a stream that are not yet confirmed, up to and including `e`: each is due under the entry in force at it. -/
def Dev.dueOpen (d : Dev) (i e : Nat) : Nat :=
  let from_ := min d.crt.nextConf e
  ((List.range (e + 1 - from_)).filter (fun k => (d.entryAt i (from_ + k)).any (fun x => dueAt d.rate x (from_ + k)))).length

/-- The anchors a1 and a2 of R110, where none of its cases gives an empty record, and m. -/
def Dev.anchorsOf (d : Dev) (i : Nat) (ent : StreamEntry) (e : Nat) : Option (ConfRec × ConfRec × Nat) :=
  let lim := d.fld Fld.CRT_PRED_MAX_EPOCHS
  match anchors 0 (d.histBefore i e) with
  | some (a2, some a1, newer) =>
    let m := newer + d.dueOpen i e
    if lim = 0 ∨ lim < m ∨ isPresent a1.record = false ∨ a1.record.qual.testBit 4 = true ∨ a2.record.qual.testBit 4 = true
        ∨ sameSlots ent a1 = false ∨ sameSlots ent a2 = false then none
    else some (a1, a2, m)
  | _ => none

/-- An empty record. DESIGN CHOICE, log 162: R130 gives it a LEN of 16 and no values, and here its T_OFF, NCHAN and NSAMP are 0. -/
def emptyRec (i : Nat) (ent : StreamEntry) (qual : Nat) : Rec := { stream := i, qual := qual, type := ent.type, origin := 3 }

/-- TIME_SUSPECT and TEST of a record. -/
def carried (q : Nat) : Nat := q &&& (qTimeSuspect + qTest)

/-- The value of one slot of a filled record (R111, R112). -/
def fillSlot' (c : ChanEntry) (a1 a2 : Word × Word) (m : Nat) : Word × Word :=
  if c.enable = false then (0, 0) else if c.kind = 0 then predictPhasor a1 a2 m else if c.kind = 2 then (0, 0) else a2

def slotsOf (r : Rec) : List (Word × Word) := match r.body with | .slots v => v | _ => []

/-- Prediction fill of a C37 or LOCAL stream (R110 to R112). -/
def Dev.fillC37 (d : Dev) (i : Nat) (ent : StreamEntry) (e : Nat) : Rec :=
  match d.anchorsOf i ent e with
  | some (a1, a2, m) =>
    let vals := ((d.chansOf ent).zip ((slotsOf a1.record).zip (slotsOf a2.record))).map (fun x => fillSlot' x.1 x.2.1 x.2.2 m)
    { stream := i, qual := qPredicted ||| carried a1.record.qual ||| carried a2.record.qual, type := ent.type, nchan := ent.nchan,
      origin := 2, body := .slots vals }
  | none => emptyRec i ent 0

/-- Prediction fill of a GOOSE_ROUTED stream (R114). -/
def Dev.fillGoose (d : Dev) (i : Nat) (ent : StreamEntry) (e : Nat) : Rec :=
  let lim := d.fld Fld.CRT_PRED_MAX_EPOCHS
  match anchors 0 (d.histBefore i e) with
  | some (a2, _, _) =>
    if lim = 0 ∨ a2.epoch + lim < e ∨ a2.record.qual.testBit 4 = true ∨ sameSlots ent a2 = false then emptyRec i ent 0
    else { a2.record with qual := qPredicted ||| carried a2.record.qual, origin := 2 }
  | none => emptyRec i ent 0

/-- The sample numbered `n` of a channel as the confirmed history holds it, where it was received there. DEDUCED, log 134: a
repeated sample keeps the validity it had with its value; R113 speaks of the value alone. -/
def sampleIn (f rate : Nat) (ent : StreamEntry) (recs : List ConfRec) (ch n : Nat) : Option (Word × Nat) :=
  let e := n * f / rate
  (recs.find? (fun r => decide (r.epoch = e))).bind (fun r =>
    if sameSlots ent r then
      match r.record.body with
      | .samples got v =>
        let k := n - firstSample f rate e
        if got[k]? = some true then (v[ch]?).bind (fun l => l[k]?) else none
      | _ => none
    else none)

/-- The sample k·P earlier for the smallest k of 1 or more that was received in a confirmed record within the epochs
allowed (R113). -/
def earlierSample (f rate p first : Nat) (ent : StreamEntry) (recs : List ConfRec) (ch : Nat) : Nat → Nat → Option (Word × Nat)
  | 0, _ => none
  | fuel + 1, n =>
    if n < p ∨ n - p < first then none
    else match sampleIn f rate ent recs ch (n - p) with
      | some x => some x
      | none => earlierSample f rate p first ent recs ch fuel (n - p)

/-- Prediction fill of a sampled-value stream: received samples stay, the others are repeated from earlier cycles (R113), where no
case of R110 gives an empty record. -/
def Dev.fillSv (d : Dev) (i : Nat) (ent : StreamEntry) (e : Nat) : Rec :=
  let f := d.rate
  let rate := ent.rate
  let lim := d.fld Fld.CRT_PRED_MAX_EPOCHS
  let p := rate / (if d.bit Fld.CRT_CFG_F_NOM then 60 else 50)
  let n0 := firstSample f rate e
  let cur := match d.stored e i with | some s => s.record | none => blankSv f i ent e
  let recs := d.histBefore i e
  let first := firstSample f rate (e - lim)
  match d.anchorsOf i ent e, cur.body with
  | some (a1, a2, _), .samples got v =>
    let fill (ch k : Nat) (x : Word × Nat) : Option (Word × Nat) :=
      if got[k]? = some true then some x else earlierSample f rate p first ent recs ch rate (n0 + k)
    let vals := (List.range v.length).map (fun ch => ((v[ch]?.getD []).zipIdx).map (fun x => fill ch x.2 x.1))
    { cur with qual := qPredicted ||| (cur.qual &&& (qTimeSuspect + qSrcInvalid + qTest)) ||| carried a1.record.qual ||| carried a2.record.qual
               origin := 2, body := .samples got (vals.map (fun l => l.map (fun x => x.getD (0, 1)))) }
  | _, _ => emptyRec i ent 0

/-- The fill of a missing record. -/
def Dev.predict (d : Dev) (i : Nat) (ent : StreamEntry) (e : Nat) : Rec :=
  if ent.isSv then d.fillSv i ent e else if ent.type = 4 then d.fillGoose i ent e else d.fillC37 i ent e

end Sys2Proof.Machine
end

