-- ==== Sys2Proof/Machine/Crater.lean ====
section
/-! DEFINITION. Crater: the local seal, the pair exchange, seal manifests, confirmation, delivery, and the commands on
history and amendments (R104 to R141). -/

namespace Sys2Proof.Machine

open Sys2Proof

/-! ## The local seal (R105 to R108) -/

/-- W in 2⁻¹⁶ ns. -/
def Dev.wait16 (d : Dev) : Nat := d.fld Fld.CRT_CFG_WAIT * 500000 * 2 ^ 16

/-- The seal deadline D_E. -/
def Dev.deadline (d : Dev) (e : Nat) : Nat := epochTime d.rate e + d.wait16

/-- A committed record: with PRESENT. -/
def Dev.committed (d : Dev) (e i : Nat) : Option StoredRec := (d.stored e i).filter (fun r => isPresent r.record)

/-- The record of a GOOSE_ROUTED stream, where the last message's timeToLive has not run out (R75). -/
def Dev.gooseRec (d : Dev) (i : Nat) (ent : StreamEntry) : Option (Rec × GooseLast) :=
  (d.stream i).gooseUse.bind (fun g =>
    if d.g16 < g.at_ + g.ttlMs * 1000000 * 2 ^ 16 then
      some ({ stream := i, qual := qPresent + qTimeSuspect * b2n g.suspect + qTest * b2n g.test, type := 4, nchan := ent.nchan, origin := 0,
              body := .slots (d.gooseSlots ent g.members) }, g)
    else none)

/-- The record of a due stream of `e` that is missing (R107): STALE where it is lost, else its fill, with CHECK_FAIL where that is
marked. -/
def Dev.fillOf (d : Dev) (e i : Nat) (ent : StreamEntry) : Rec :=
  if (d.hist i).lost then emptyRec i ent qStale
  else
    let r := d.predict i ent e
    if (d.slotD e).checkFail.contains i then { r with qual := r.qual ||| qCheckFail } else r

/-- A record as a device whose time is doubtful hands it on (R107). -/
def doubted (suspect : Bool) (r : Rec) : Rec := if suspect then { r with qual := r.qual ||| qTimeSuspect } else r

/-- The record of one due stream in the local seal of `e` (R107). -/
def Dev.sealRec (d : Dev) (e i : Nat) (ent : StreamEntry) : Rec :=
  let fill := d.fillOf e i ent
  let r := match d.committed e i with
    | some s => { s.record with origin := 0 }
    | none => if ent.type = 4 then ((d.gooseRec i ent).map (fun x => x.1)).getD fill else fill
  doubted d.timeSuspect r

/-- The streams this device shares with others at epoch `e`, with the other owner. -/
def Dev.shared (d : Dev) (e : Nat) : List (Nat × Nat) :=
  d.ing.streams.filterMap (fun (s : Nat × StreamSt) =>
    (s.2.entry.at' e).bind (fun x => if x.primary ≠ x.mirror then some (s.1, x.partner d.deviceNo) else none))

/-- The partners of R116 that are in view(E). -/
def Dev.partners (d : Dev) (e : Nat) : List Nat :=
  let all := d.shared e
  (bitsOf 64 (d.viewAt e).members).filter (fun p => decide (p ≠ d.deviceNo) && all.any (fun s => decide (s.2 = p)))

/-- The index of an epoch sealed here, from its slot or from the newest seals. -/
def Dev.sealOf (d : Dev) (e : Nat) : Option SealInfo :=
  match (d.slot e).bind (fun s => s.sealed) with | some s => some s | none => d.crt.recent.find e

/-- The due streams shared with a device that are PRESENT in the local seal. -/
def Dev.haveFor (d : Dev) (e p : Nat) (s : SealInfo) : List Nat :=
  let sh := d.shared e
  (s.index.filter (fun (r : Nat × Rec) => isPresent r.2 && sh.any (fun x => decide (x.1 = r.1) && decide (x.2 = p)))).map (fun r => r.1)

def Dev.pair (d : Dev) (e p : Nat) : PairSt := (d.slotD e).pairs.getD p {}

def Dev.setPair (d : Dev) (e p : Nat) (x : PairSt) : Dev :=
  let s := d.slotD e
  d.setSlot e { s with pairs := s.pairs.put p x }

/-- PAIR_REC and PAIR_DONE answer a partner's PAIR_HAVE (R116). -/
def Dev.answerHave (d : Dev) (e p : Nat) (has : List Nat) : Dev :=
  match d.sealOf e with
  | none => d
  | some s =>
    let recs := ((d.haveFor e p s).filter (fun i => !has.contains i)).filterMap (fun i => s.index.find i)
    (recs.foldl (fun (x : Dev) r => x.send p (.pairRec e r)) d).send p (.pairDone e recs.length)

/-- The published value of a summary channel (R120). Of a sampled-value stream the spec names no one value: it is a free value. DESIGN
CHOICE, log 163: a channel whose stream is not due in `e`, or has no entry there, publishes no entry. -/
def Dev.sumEntry (d : Dev) (e : Nat) (s : Tbl Rec) (n : Nat) : Option SumEntry :=
  if d.bit (Fld.CRT_SUM_SELn_EN n) then
    let slot := d.fld (Fld.CRT_SUM_SELn_SLOT n)
    let c := d.chan slot
    (s.find c.stream).bind (fun r =>
      (d.entryAt c.stream e).bind (fun ent =>
        if ent.chanBase ≤ slot ∧ slot < ent.chanBase + ent.nchan then
          let k := slot - ent.chanBase
          let v : Word × Word := match r.body with
            | .slots l => (l[k]?).getD (0, 0)
            | .samples _ _ => (BitVec.ofNat 32 (Config.freeNat (d.fresh + n)), 0)
            | .empty => (0, 0)
          some { publisher := d.deviceNo, index := n, qual := r.qual, kind := c.kind, stream := c.stream, slot := slot, valueA := v.1, valueB := v.2 }
        else none))
  else none

/-- A stream whose entry ends here loses its FIFO at the local seal of its effective epoch, or of the run's first epoch where it took
effect before that (R82). -/
def Dev.flushGone (d : Dev) (e : Nat) : Dev :=
  d.ing.streams.foldl (fun (x : Dev) (s : Nat × StreamSt) =>
    match s.2.entry.pend with
    | some (eff, none) =>
      if (eff = e % 2 ^ 32 ∨ (signedDiff 32 eff e < 0 ∧ e = d.crt.first)) ∧ s.2.fifo.isEmpty = false then
        x.flushFifo s.1
      else x
    | _ => x) d

/-- A record that reads back with a double-bit error, or whose CRC fails, is treated as never committed (R104). -/
def Dev.dropBadRecs (d : Dev) (e : Nat) (dbe crcBad : List Nat) : Dev :=
  let s := d.slotD e
  let hit (l : List Nat) : List Nat := l.filter (fun i => (s.recs.find i).isSome)
  let d1 := if (hit dbe ++ hit crcBad).isEmpty then d
    else d.setSlot e { s with recs := s.recs.keep (fun i _ => !dbe.contains i && !crcBad.contains i) }
  let d2 := (hit dbe).foldl (fun (x : Dev) _ => (x.count Reg.CRT_ECC_UNCORR).raise eMemUncorr 0 3) d1
  (hit crcBad).foldl (fun (x : Dev) i => x.raise eStoreCheck i 2) d2

/-- A STREAM_SET that still waits for history when its effective epoch is sealed completes with S_LATE (R440). -/
def Dev.dropAwaiting (d : Dev) (e : Nat) : Dev :=
  d.ing.streams.foldl (fun (x : Dev) (s : Nat × StreamSt) =>
    match s.2.awaiting with
    | some (eff, false, _) =>
      if signedDiff 32 eff e ≤ 0 then
        ((x.modStream s.1 (fun t => { t with awaiting := none })).modFab (fun f => { f with histWant := f.histWant.drop s.1 })).finishWaits
          (fun w => decide (w = .streamHistory s.1)) sLate 0
      else x
    | _ => x) d

/-- The part of the condition vector that is latched at a local seal instant (R165, R174). -/
def Dev.latchVector (d : Dev) : Nat :=
  d.regN Reg.OSC_COND + 2 ^ 36 * b2n d.fum.islandGrid + 2 ^ 64 * d.fum.grid + 2 ^ 96 * d.regN Reg.FUM_CYC_FLAGS + 2 ^ 128 * b2n d.timeSuspect +
  2 ^ 129 * b2n (d.bit Fld.CRT_STATUS_SOLO) + 2 ^ 130 * b2n (d.bit Fld.CRT_STATUS_SPLIT) + 2 ^ 131 * b2n (d.bit Fld.FAB_STATUS_ELECTION) +
  2 ^ 132 * b2n (d.bit Fld.SAF_STATUS_MGMT_STALL) + 2 ^ 133 * b2n (d.bit Fld.FUM_STATUS_DE_DEGRADED) + 2 ^ 192 * d.reg64 Reg.GEY_LC_LO

/-- The local seal of the next epoch (R107), and the start of its pair exchanges (R116). -/
def Dev.localSeal (d : Dev) (early : Bool) (corrected : Nat) (dbe crcBad : List Nat) : Dev :=
  let e := d.crt.nextSeal
  let d0 := (((d.count Reg.CRT_ECC_CORR corrected).count64 Reg.SAF_CORRECTED_LO corrected).dropBadRecs e dbe crcBad)
  let due := d0.dueStreams e
  let index : Tbl Rec := due.map (fun s => (s.1, d0.sealRec e s.1 s.2))
  let filled := (index.filter (fun (r : Nat × Rec) => r.2.qual.testBit 1)).map (fun r => r.1)
  let refill := if d0.crt.nextConf < e then
      (due.filter (fun s => (index.find s.1).any (fun r => !isPresent r))).map (fun s => s.1)
    else []
  let info : SealInfo :=
    { at_ := d0.g16, early := early, suspect := d0.timeSuspect, index := index, refill := refill, reformed := false, published := index,
      sums := (List.range 16).filterMap (d0.sumEntry e index), latch := d0.latchVector, oscEpoch := d0.osc.wordEpoch }
  let noted := due.foldl (fun (x : Dev) s =>
    if s.2.type = 4 then match d0.gooseRec s.1 s.2 with | some (_, g) => x.noteCommit s.1 e g.port g.at_ | none => x else x) d0
  let s := noted.slotD e
  let d1 := (({ noted with fresh := noted.fresh + 16 }.setSlot e { s with sealed := some info }).modCrt (fun c => { c with
    nextSeal := e + 1, recent := (c.recent.keep (fun k _ => decide (e < k + 16))).put e info })).refreshOpen
  let d2 := ((d1.count64 Reg.CRT_SEALED_LO).count64 Reg.CRT_EARLY_LO (b2n early)).count64 Reg.CRT_FILLED_LO filled.length
  let d3 := (d2.flushGone e).dropAwaiting e
  (d3.partners e).foldl (fun (x : Dev) p =>
    let y := x.send p (.pairHave e (x.haveFor e p info))
    match (x.pair e p).have_ with | some h => y.answerHave e p h | none => y.setPair e p (x.pair e p)) d3

/-- Crater runs, and the next epoch has a slot among the 128 of R26. DESIGN CHOICE, log 139: beyond them a seal waits; R26 says that
this is never reached. -/
def Dev.sealRoom (d : Dev) : Bool := d.craterRuns && decide (d.crt.nextSeal ≤ d.oldestOpen + 127)

/-- The conditions of R106 hold. -/
def Dev.canSealEarly (d : Dev) : Bool :=
  let e := d.crt.nextSeal
  d.sealRoom && d.bit Fld.CRT_CFG_EARLY_SEAL && decide (epochTime d.rate e ≤ d.g16)
    && (d.dueStreams e).all (fun s => decide (s.2.type = 4) || (d.committed e s.1).isSome)

/-- The deadline of the next epoch has come. -/
def Dev.canSeal (d : Dev) : Bool := d.sealRoom && decide (d.deadline d.crt.nextSeal ≤ d.g16)

/-- The slot of an epoch opens at T_E (R101). -/
def Dev.openEpoch (d : Dev) (e : Nat) : Dev :=
  if d.craterRuns && decide (d.crt.nextSeal ≤ e) && decide (epochTime d.rate e ≤ d.g16) && decide (e ≤ d.oldestOpen + 127)
      && (d.slot e).isNone then
    (d.setSlot e {}).refreshOpen
  else d

/-- Step 2 of R115: the fill is formed again from the confirmed history. -/
def Dev.reform (d : Dev) (e : Nat) : Dev :=
  match (d.slot e).bind (fun s => s.sealed) with
  | none => d
  | some info =>
    if info.refill.isEmpty ∨ info.reformed = true ∨ d.crt.nextConf < e then d
    else
      let again (i : Nat) (old : Rec) : Rec :=
        match d.entryAt i e with
        | none => old
        | some ent => doubted info.suspect (d.fillOf e i ent)
      let pub := info.index.mapVals (fun i r => if info.refill.contains i then again i r else r)
      d.setSlot e { d.slotD e with sealed := some { info with published := pub, reformed := true } }

/-! ## Manifests (R117, R118, R437) -/

/-- The identities that a device lists, after one more of its manifests (R439). A stream is listed in each of its due epochs, at least
once in `f` epochs: one that is left out where it was due has ended (R82) or goes on under another identity (R440). DEDUCED, log 179. -/
def claimsAfter (f : Nat) (m : Manifest) (t : Tbl Claim) : Tbl Claim :=
  let t1 := m.entries.foldl (fun (t : Tbl Claim) en =>
    let k := if en.mirror then 8192 * en.partner + en.stream else 8192 * m.device + en.stream
    match t.find k with
    | some c => if c.last < m.epoch then t.put k { other := en.partner, last := m.epoch, gap := m.epoch - c.last } else t
    | none => t.put k { other := en.partner, last := m.epoch, gap := 0 }) t
  t1.keep (fun _ c => decide (m.epoch < c.last + (if c.gap = 0 then max 1 f else c.gap)))

/-- A manifest held; the identities it lists and their owners are remembered (R439). -/
def Dev.keepManifest (d : Dev) (m : Manifest) : Dev :=
  let row := d.crt.manifests.getD m.epoch []
  if (row.find m.device).isSome then d
  else
    (d.modCrt (fun c => { c with manifests := c.manifests.put m.epoch (row.put m.device m) })).modFab (fun f => { f with
      claims := f.claims.update m.device [] (claimsAfter d.rate m) })

/-- A manifest that arrives is taken, unless its device has left the view and it comes from no survivor: R121 lets a survivor use such a
manifest only once it is forwarded. A device that joins publishes under a later view than this one's (R434). -/
def Dev.takesManifest (d : Dev) (m : Manifest) : Bool :=
  m.forwarded || d.fab.joining.isSome || d.view.members.testBit m.device || decide (d.view.num < m.view)

/-- The device is on its own in epoch `e` (R45, R123). -/
def Dev.loneAt (d : Dev) (e : Nat) : Bool := decide (popCount 64 (d.viewAt e).members < 2)

/-- The primary of a stream at epoch `e`: a device on its own owns all of its streams as primary (R45). -/
def Dev.primaryAt (d : Dev) (e : Nat) (ent : StreamEntry) : Nat := if d.loneAt e then d.deviceNo else ent.primary

/-- The manifest of a sealed epoch. A device on its own lists its streams as their primary, with no mirror (R45). -/
def Dev.manifestOf (d : Dev) (e : Nat) (s : SealInfo) : Manifest :=
  let self := d.deviceNo
  let lone := d.loneAt e
  { device := self, early := s.early, timeSuspect := s.suspect, view := (d.viewAt e).num, epoch := e,
    entries := s.published.filterMap (fun (r : Nat × Rec) => (d.entryAt r.1 e).map (fun ent =>
      { stream := r.1, mirror := decide (d.primaryAt e ent ≠ self), qual := r.2.qual, partner := if lone then self else ent.partner self,
        vcrc := r.2.vcrc })),
    sums := s.sums }

/-- The pair exchange of an epoch with every partner in view(E) is complete. -/
def Dev.pairsDone (d : Dev) (e : Nat) : Bool := (d.partners e).all (fun p => (d.pair e p).acked)

/-- The manifest of a sealed epoch may be published (R117). -/
def Dev.canPublish (d : Dev) (e : Nat) : Bool :=
  match d.slot e with
  | none => false
  | some s => match s.sealed with
    | none => false
    | some info => !s.published && d.pairsDone e && (info.refill.isEmpty || info.reformed)

def Dev.publish (d : Dev) (e : Nat) : Dev :=
  if d.canPublish e then
    match (d.slot e).bind (fun s => s.sealed) with
    | none => d
    | some info =>
      let m := d.manifestOf e info
      ((d.setSlot e { d.slotD e with published := true }).keepManifest m).sendAll (d.viewAt e).members (.manifest m)
  else d

/-- While Crater does not seal an epoch, the empty manifest of it is published once another member's arrives (R437). -/
def Dev.emptyManifest (d : Dev) (e : Nat) : Dev :=
  let unsealed := !d.craterRuns || decide (e < d.crt.first)
  if d.joined && unsealed && decide (d.fab.joinEpoch ≤ e) && d.fab.emptyUpTo.all (fun u => decide (u < e)) then
    let m : Manifest :=
      { device := d.deviceNo, early := false, timeSuspect := d.timeSuspect, view := (d.viewAt e).num, epoch := e, entries := [], sums := [] }
    ((d.modFab (fun f => { f with emptyUpTo := some e })).keepManifest m).sendAll (d.viewAt e).members (.manifest m)
  else d

/-! ## Confirmation (R119 to R125) -/

/-- One stream identity in the manifests: the primary's entry and the mirror's with its device. -/
structure Identity where
  primary : Nat
  stream : Nat
  prim : Option ManEntry := none
  mirr : Option (Nat × ManEntry) := none
  deriving DecidableEq, Repr

/-- The identities that a set of manifests lists, and those whose mirror entry R438 ignores, with the partner it named. -/
def identities (ms : List Manifest) : Tbl Identity × List (Nat × Nat) :=
  let prim := ms.foldl (fun (t : Tbl Identity) m => m.entries.foldl (fun t en =>
    if en.mirror then t else t.put (8192 * m.device + en.stream) { primary := m.device, stream := en.stream, prim := some en }) t) []
  ms.foldl (fun (acc : Tbl Identity × List (Nat × Nat)) m => m.entries.foldl (fun (acc : Tbl Identity × List (Nat × Nat)) en =>
    if !en.mirror then acc
    else
      let k := 8192 * en.partner + en.stream
      match acc.1.find k with
      | some x =>
        if x.prim.any (fun p => decide (p.partner ≠ m.device)) then (acc.1, acc.2 ++ [(en.stream, en.partner)])
        else (acc.1.put k { x with mirr := some (m.device, en) }, acc.2)
      | none => (acc.1.put k { primary := en.partner, stream := en.stream, mirr := some (m.device, en) }, acc.2)) acc) (prim, [])

/-- The entry that wins: its QUAL and its device (R119). -/
def Identity.win (x : Identity) : Nat × Nat :=
  let p (q : Nat) : Bool := q.testBit 0
  match x.prim, x.mirr with
  | some a, some (dev, b) => if p a.qual then (a.qual, x.primary) else if p b.qual then (b.qual, dev) else (a.qual, x.primary)
  | some a, none => (a.qual, x.primary)
  | none, some (dev, b) => (b.qual, dev)
  | none, none => (0, x.primary)

/-- VCRC of the winning entry. -/
def Identity.winCrc (x : Identity) : Nat :=
  match x.prim, x.mirr with
  | some a, some (_, b) => if !a.qual.testBit 0 && b.qual.testBit 0 then b.vcrc else a.vcrc
  | some a, none => a.vcrc
  | none, some (_, b) => b.vcrc
  | none, none => 0

def Identity.mirrorDev (x : Identity) : Nat :=
  match x.prim, x.mirr with | some a, _ => a.partner | none, some (dev, _) => dev | none, none => x.primary

/-- Both owners publish PRESENT with different VCRC (R125). -/
def Identity.disagrees (x : Identity) : Bool :=
  match x.prim, x.mirr with
  | some a, some (_, b) => a.qual.testBit 0 && b.qual.testBit 0 && decide (a.vcrc ≠ b.vcrc)
  | _, _ => false

/-- At most one record for each stream each minute. -/
def once (t : Tbl Nat) (k now : Nat) : Bool := match t.find k with | none => true | some at_ => decide (at_ + 60000000000 ≤ now)

/-- ORIGIN of a confirmed record (R130). -/
def originOf (r : Rec) (fromPartner : Bool) : Nat :=
  if fromPartner then 1 else if r.qual.testBit 0 then 0 else if r.qual.testBit 1 then 2 else 3

/-- A body of the same form whose every bit is taken from a free value. -/
def freeBody (n : Nat) : RecBody → RecBody
  | .empty => .empty
  | .slots v => .slots (v.zipIdx.map (fun x => (BitVec.ofNat 32 (n / 2 ^ (64 * x.2)), BitVec.ofNat 32 (n / 2 ^ (64 * x.2 + 32)))))
  | .samples got v =>
    let k := got.length
    .samples (got.zipIdx.map (fun x => n.testBit x.2))
      (v.zipIdx.map (fun ch => ch.1.zipIdx.map (fun x =>
        let at_ := k + 34 * (ch.2 * k + x.2)
        (BitVec.ofNat 32 (n / 2 ^ at_), n / 2 ^ (at_ + 32) % 4))))

/-- The confirmed record of an owned stream, from the published one, with the winner's QUAL, device and VCRC. Where both owners hold the
stream PRESENT with different values, R119 takes the record received from the source, which R116 never sends: DESIGN CHOICE, log
141, its values and T_OFF are free values drawn from `free`. -/
def Dev.confRec (d : Dev) (e free : Nat) (own : Rec) (qual source vcrc : Nat) : Rec :=
  let from_ := decide (source ≠ d.deviceNo) && qual.testBit 0
  match (if from_ then (d.pair e source).recs.find own.stream else none) with
  | some r => { r with qual := qual, origin := 1 }
  | none =>
    if from_ && isPresent own && decide (own.vcrc ≠ vcrc) then
      let z := Config.freeNat free
      { own with qual := qual, origin := 1, tOff := ofTwos 32 (z % 2 ^ 32), body := freeBody (z / 2 ^ 32) own.body }
    else { own with qual := qual, origin := originOf { own with qual := qual } false }

/-- Loss and return of a stream in its confirmed records (R83), and its history for the predictor. -/
def Dev.noteConf (d : Dev) (e : Nat) (r : Rec) : Dev :=
  match d.entryAt r.stream e with
  | none => d
  | some ent =>
    let h := d.hist r.stream
    let rec' : ConfRec := { epoch := e, record := r, chanBase := ent.chanBase, nchan := ent.nchan }
    let n := if isPresent r then 0 else h.count + 1
    let lost := if isPresent r then false else h.lost || decide (ent.staleN ≤ n)
    let d1 := d.modCrt (fun c => { c with hists := c.hists.put r.stream { recs := (rec' :: h.recs).take 257, count := n, lost := lost } })
    if lost && !h.lost then d1.event .streamLost r.stream (e % 2 ^ 32) ent.staleN
    else if h.lost && !lost then d1.event .streamRestored r.stream (e % 2 ^ 32)
    else d1

/-- Pending entries of every table whose effective epoch is confirmed take effect (R82). A stream that ends with it leaves no history
(DESIGN CHOICE, log 142: R110 reads the confirmed records of the stream, and a stream set later is another). DESIGN CHOICE, log 159: its
last SPDU number and its GOOSE messages stay, and meet the frames of a stream set later under the index (R73, R75). -/
def Dev.settle (d : Dev) (e : Nat) : Dev :=
  let ends (i : Nat) : Bool := let h := (d.stream i).entry; h.cur.isSome && (h.settle e).newest.isNone && (h.settle e).cur.isNone
  ((((((d.modIng (fun g => { g with streams := g.streams.mapVals (fun _ s => { s with entry := s.entry.settle e }) })).modCrt
    (fun c => { c with hists := c.hists.keep (fun i _ => !ends i) })).refreshAlloc).modOsc
    (fun o => { o with sigs := o.sigs.mapVals (fun _ h => h.settle e) })).modIsl
      (fun i => { i with nodes := i.nodes.mapVals (fun _ h => h.settle e), branches := i.branches.mapVals (fun _ h => h.settle e) })).modFum
        (fun f => { f with rules := f.rules.mapVals (fun _ r => { r with entry := r.entry.settle e }) }))

/-- Bytes of a manifest section entry (R128). -/
def ConfEntry.bytes (c : ConfEntry) : Bytes :=
  leBytes 2 c.stream ++ [BitVec.ofNat 8 c.primary, BitVec.ofNat 8 c.mirror, BitVec.ofNat 8 c.qual, BitVec.ofNat 8 c.source, 0, 0]

/-- The bound of R122 on confirmation, in ns after D_E, by the frames ingested in the second before D_E. -/
def Dev.confBound (d : Dev) (e changes : Nat) : Nat :=
  let late := (d.g16 - d.deadline e) / 2 ^ 16
  let dNs := d.up - late
  let frames := d.ing.load.foldl (fun a (x : Nat × Nat) => if dNs ≤ x.1 + 1000000000 ∧ x.1 < dNs then a + x.2 else a) 0
  if 0 < changes then 2500000 + (changes - 1) * 1200000 else if frames * 100 < 1966080 then 400000 else 900000

/-- The snapshot of a confirmed epoch (R126, R127). -/
def Dev.snapshot (d : Dev) (e : Nat) (s : SealInfo) (c : ConfInfo) : Bytes :=
  let f := d.rate
  let sums := c.sums.flatMap (SumEntry.bytes false)
  let man := c.entries.flatMap ConfEntry.bytes
  let recs := c.recs.flatMap (fun (r : Nat × Rec) => r.2.bytes false)
  let manOff := 128 + sums.length
  let recOff := manOff + man.length
  let n (b : Nat) : Nat := (c.entries.filter (fun x => x.qual.testBit b)).length
  let flags := b2n c.solo + 2 * b2n c.split + 4 * b2n s.suspect + 8 * b2n s.early + 16 * b2n c.viewChanged + 32 * b2n c.restart
  let head : Bytes :=
    leBytes 2 128 ++ [0x01, BitVec.ofNat 8 d.deviceNo] ++ leBytes 4 flags ++ leBytes 8 e ++ gtimeBytes (epochTime f e) ++ gtimeBytes s.at_ ++
    gtimeBytes c.at_ ++ leBytes 4 c.view ++ leBytes 8 c.members ++ leBytes 4 (recOff + recs.length) ++ leBytes 2 c.recs.length ++
    leBytes 2 c.diff ++ leBytes 4 c.entries.length ++ leBytes 4 (n 0) ++ leBytes 4 (n 1) ++ leBytes 4 (n 6) ++ leBytes 4 128 ++
    leBytes 2 c.sums.length ++ zeros 2 ++ leBytes 4 manOff ++ leBytes 4 recOff ++ zeros 20
  head ++ leBytes 4 (crc32 head) ++ sums ++ man ++ recs

/-- The manifests that the next epoch needs are held; FWD_DONE has come from every member of its view, and the forwarded manifests that it
announces, which travel on another channel, have come too (R119, R121, R432). -/
def Dev.canConfirm (d : Dev) : Bool :=
  let e := d.crt.nextConf
  let v := d.viewAt e
  let row := d.crt.manifests.getD e []
  let gate := match d.fab.fwdDone.find v.num with
    | none => true
    | some m => decide (v.members &&& m = v.members) && (bitsOf 64 v.members).all (fun n => decide (d.fab.fwdDue.getD n 0 ≤ d.fab.fwdGot.getD n 0))
  d.craterRuns && decide (e < d.crt.nextSeal) && ((d.slot e).bind (fun s => s.sealed)).isSome && gate
    && (bitsOf 64 v.members).all (fun n => (row.find n).isSome)

/-- Late records of a confirmed epoch are handled (R132). -/
def Dev.handleLate (d : Dev) (e : Nat) : Dev :=
  let l := (d.slotD e).late
  l.foldl (fun (x : Dev) r => x.amend r.stream e r) (d.setSlot e { d.slotD e with late := [] })

/-- Confirmation of the next epoch (R119). -/
def Dev.confirm (d : Dev) : Dev :=
  let e := d.crt.nextConf
  let d0 := if popCount 64 (d.viewAt e).members < 2 then (d.reform e).publish e else d
  if d0.canConfirm = false then d0
  else
    match (d0.slot e).bind (fun s => s.sealed) with
    | none => d0
    | some info =>
      let v := d0.viewAt e
      let row := d0.crt.manifests.getD e []
      let ms := row.map (fun (m : Nat × Manifest) => m.2)
      let ids := identities ms
      let won := ids.1.map (fun (x : Nat × Identity) => (x.2, x.2.win))
      -- the records of the members of view(E) end a loss; a manifest forwarded for a device that has left does not (R40, R439)
      let backs := (identities (ms.filter (fun m => v.members.testBit m.device))).1
      let lost := d0.fab.lost.keep (fun k _ => !(backs.find k).any (fun x => x.win.1.testBit 0))
      let listed : Tbl ConfEntry := won.map (fun (x : Identity × Nat × Nat) =>
        (8192 * x.1.primary + x.1.stream, (⟨x.1.primary, x.1.stream, x.1.mirrorDev, x.2.1, x.2.2⟩ : ConfEntry)))
      let entries := (lost.foldl (fun (t : Tbl ConfEntry) (l : Nat × Nat) =>
        if (t.find l.1).isSome then t else t.put l.1 ⟨l.1 / 8192, l.1 % 8192, l.2, qStale, l.1 / 8192⟩) listed).map (fun (x : Nat × ConfEntry) => x.2)
      let recs : Tbl Rec := info.published.filterMap (fun (r : Nat × Rec) =>
        (d0.entryAt r.1 e).map (fun ent =>
          match ids.1.find (8192 * d0.primaryAt e ent + r.1) with
          | some x => (r.1, d0.confRec e (d0.fresh + r.1) r.2 x.win.1 x.win.2 x.winCrc)
          | none => (r.1, { r.2 with origin := originOf r.2 false })))
      let diff := (recs.filter (fun (r : Nat × Rec) =>
        match info.index.find r.1 with | some o => decide (o.qual ≠ r.2.qual ∨ o.body ≠ r.2.body) | none => true)).length
      let departed := ms.any (fun m => !v.members.testBit m.device)
      -- the view in force at the epoch was installed after its local seal
      let changed := departed || (d0.fab.views.contains v && decide (info.at_ ≤ v.at_))
      let conf : ConfInfo :=
        { at_ := d0.g16, view := v.num, viewChanged := changed, members := maskOf (ms.map (fun m => m.device)), entries := entries,
          sums := ms.flatMap (fun m => m.sums), recs := recs, diff := diff, solo := decide (popCount 64 v.members < 2) && !v.minority,
          split := v.minority, restart := d0.crt.restart }
      let d1 := (({ d0 with fresh := d0.fresh + 8192 }.setSlot e { d0.slotD e with conf := some conf }).refreshOpen).modCrt (fun c => { c with
        nextConf := e + 1, restart := false, manifests := c.manifests.keep (fun k _ => decide (e < k + 16)) })
      let d2 := ((d1.setReg64 Reg.CRT_LAST_CONF_LO e).modFab (fun f => { f with lost := lost })).settle e
      let d3 := recs.foldl (fun (x : Dev) (r : Nat × Rec) => x.noteConf e r.2) d2
      let d4 := won.foldl (fun (x : Dev) (w : Identity × Nat × Nat) =>
        if w.1.disagrees then
          let y := x.count Reg.CRT_DISAGREE
          let k := 8192 * w.1.primary + w.1.stream
          if once y.crt.disagreeAt k y.up then
            (y.modCrt (fun c => { c with disagreeAt := c.disagreeAt.put k y.up })).event .ownerDisagree w.1.stream (e % 2 ^ 32) (y.regN Reg.CRT_DISAGREE)
          else y
        else x) d3
      let d5 := ids.2.foldl (fun (x : Dev) (o : Nat × Nat) =>
        let y := x.count Reg.FAB_OWN_ERR
        let k := 8192 * o.2 + o.1
        if once y.fab.ownErrAt k y.up then
          (y.modFab (fun f => { f with ownErrAt := f.ownErrAt.put k y.up })).event .ownershipError o.1 o.2
        else y) d4
      let slow := d5.confBound e (if changed then max 1 d5.fab.lastSuspects else 0)
      let d6 := if d5.deadline e + slow * 2 ^ 16 < d5.g16 then d5.count Reg.CRT_CONF_SLOW else d5
      let d7 := d6.fab.histFeeds.foldl (fun (x : Dev) (h : Nat × Nat × Nat) =>
        if e < h.2.2 then
          match recs.find h.2.1 with | some r => x.send h.1 (.histRec e (min 255 (x.hist h.2.1).count) r) | none => x
        else x) d6
      let d8 := d7.modFab (fun f => { f with histFeeds := f.histFeeds.filter (fun h => decide (e + 1 < h.2.2)) })
      let d9 := d8.modNet (fun n => { n with sess := n.sess.mapVals (fun _ s => { s with todo := s.todo ++ [e] }) })
      d9.handleLate e

/-- At D_E + 1.0 ms the devices whose PAIR_ACK or manifest is still lacking are reported to fabric control (R122). -/
def Dev.confTimeout (d : Dev) (e : Nat) : Dev :=
  match d.slot e with
  | none => d
  | some s =>
    if s.sealed.isNone ∨ s.conf.isSome ∨ s.reported = true ∨ d.g16 < d.deadline e + 1000000 * 2 ^ 16 then d
    else
      let v := d.viewAt e
      let row := d.crt.manifests.getD e []
      let noMan := (bitsOf 64 v.members).filter (fun n => (row.find n).isNone)
      let noAck := (d.partners e).filter (fun p => !(d.pair e p).acked)
      (d.setSlot e { s with reported := true }).suspect (maskOf ((noMan ++ noAck).filter (fun n => decide (n ≠ d.deviceNo))))

/-! ## Delivery (R101, R136) -/

def snapsBytes (l : List HistSnap) : Nat := l.foldl (fun a s => a + s.bytes.length) 0

/-- The oldest whole snapshots are overwritten until the rest fits: the rest, and those overwritten. -/
def fitSnaps (cap : Nat) : List HistSnap → List HistSnap × List HistSnap
  | [] => ([], [])
  | s :: t => if snapsBytes (s :: t) ≤ cap then (s :: t, []) else let r := fitSnaps cap t; (r.1, s :: r.2)

/-- The values of a record at zero. -/
def zeroVals (r : Rec) : Rec :=
  match r.body with
  | .empty => r
  | .slots v => { r with body := .slots (v.map (fun _ => (0, 0))) }
  | .samples g v => { r with body := .samples g (v.map (fun l => l.map (fun _ => (0, 0)))) }

/-- Records of a confirmed epoch that an uncorrectable error has struck: the copy of a partner in the view stands in, else
the record is delivered with zero values (R104). -/
def Dev.loseRecs (d : Dev) (e : Nat) (bad : List Nat) (recs : Tbl Rec) : Dev × Tbl Rec :=
  bad.foldl (fun (a : Dev × Tbl Rec) i =>
    match a.2.find i with
    | none => a
    | some r =>
      let d1 := (a.1.count Reg.CRT_ECC_UNCORR).raise eMemUncorr 0 3
      let p := (d1.entryAt i e).map (fun ent => ent.partner d1.deviceNo)
      let helps := p.any (fun q => decide (q ≠ d1.deviceNo) && d1.view.members.testBit q)
      if helps then (d1, a.2) else (d1.event .storeRecordLost i (e % 2 ^ 32), a.2.put i (zeroVals r))) (d, recs)

/-- An overwritten epoch joins the runs of them. -/
def addOver (l : List (Nat × Nat)) (e : Nat) : List (Nat × Nat) :=
  match l.reverse with
  | (lo, hi) :: t => if hi + 1 = e then ((lo, e) :: t).reverse else l ++ [(e, e)]
  | [] => [(e, e)]

/-- A delivered record with the channel slots of the entry it was confirmed under. -/
def Dev.confirmedAs (d : Dev) (e stream : Nat) (r : Rec) : ConfRec :=
  match (d.hist stream).recs.find? (fun x => decide (x.epoch = e)) with
  | some x => { x with record := r }
  | none => { epoch := e, record := r, chanBase := ((d.entryAt stream e).map (fun x => x.chanBase)).getD 0,
              nchan := ((d.entryAt stream e).map (fun x => x.nchan)).getD 0 }

/-- The next confirmed snapshot is written to the history buffer and queued for its ring, and its slot is released. -/
def Dev.deliver (d : Dev) (bad : List Nat) : Dev :=
  let e := d.crt.nextDeliver
  match d.slot e with
  | none => d
  | some s =>
    match s.sealed, s.conf with
    | some info, some conf =>
      let res := d.loseRecs e bad conf.recs
      let bytes := res.1.snapshot e info { conf with recs := res.2 }
      let cap := d.fld Fld.CRT_HIST_SIZE * 1048576
      let r := fitSnaps cap (d.crt.snaps ++ [{ epoch := e, bytes := bytes, sealAt := info.at_, recs := res.2 }])
      let lostW := (r.2.filter (fun x => d.crt.waiting.contains x.epoch)).length
      let d1 := res.1.modCrt (fun c => { c with
        snaps := r.1, overRuns := (r.2.map (fun x => x.epoch)).foldl addOver c.overRuns, nextDeliver := e + 1,
        slots := c.slots.drop e, waiting := c.waiting ++ [e] })
      let d2 := (d1.count Reg.HIF_SNAP_LOST lostW).modHif (fun h => { h with lossMarks := if 0 < lostW then putBit h.lossMarks 4 true else h.lossMarks })
      let vals : Tbl ConfRec := res.2.foldl (fun (t : Tbl ConfRec) (x : Nat × Rec) => t.put x.1 (d2.confirmedAs e x.1 x.2)) d2.cyc.vals
      let sums : Tbl SumEntry := conf.sums.map (fun x => (16 * x.publisher + x.index, x))
      let d3 := d2.modCyc (fun c => { c with snap := some e, vals := vals, sums := sums })
      (d3.refreshOpen).pumpSnapRing
    | _, _ => d

/-! ## A G-time step (R109) -/

/-- Every open epoch that is not locally sealed is discarded with its records, and a new run starts. `step` is the step in
2⁻¹⁶ ns. -/
def Dev.craterStep (d : Dev) (step : Int) : Dev :=
  if d.craterRuns = false then d
  else
    let gone := d.crt.slots.filter (fun (s : Nat × EpochSlot) => s.2.sealed.isNone)
    let dropped := gone.foldl (fun a (s : Nat × EpochSlot) => a + s.2.recs.length) 0
    -- sealed epochs are confirmed and delivered first; such a device is on its own
    let n := d.crt.nextSeal - d.crt.nextConf
    let d1 := iterate (fun x : Dev => x.confirm) n d
    let d2 := iterate (fun x : Dev => x.deliver []) (d1.crt.nextSeal - d1.crt.nextDeliver) d1
    let first := firstEpochAt d2.rate d2.g16
    let back := decide (step < 0)
    let d3 := d2.modCrt (fun c => { c with
      first := first, nextSeal := first, nextConf := first, nextDeliver := first, restart := true, slots := [], recent := [], hists := [],
      manifests := [], disagreeAt := [],
      snaps := if back then [] else c.snaps
      -- no number is held twice: of the epochs overwritten, the new run's are forgotten
      overRuns := if back then c.overRuns.filterMap (fun x => if x.1 < first then some (x.1, min x.2 (first - 1)) else none) else c.overRuns
      amends := if back then [] else c.amends, amendLost := if back then [] else c.amendLost
      carry := if back then c.carry ++ c.waiting.map (fun e => (e, c.snaps.find? (fun s => decide (s.epoch = e)))) else c.carry
      waiting := if back then [] else c.waiting })
    let d4 := d3.modIng (fun g => { g with streams := g.streams.mapVals (fun _ s => { s with committed := none }) })
    let secs : Int := Int.tdiv step sec16
    let arg := toTwos 32 (satSigned 32 secs)
    (((d4.releaseStages).count Reg.CRT_RANGE_DROP dropped).event .craterRestart noIndex arg gone.length).refreshOpen

/-! ## Commands (R140) -/

/-- HIST_READ (R136): the amendments held are those of the epoch's number. DESIGN CHOICE, log 165: a snapshot that was delivered and has
gone otherwise than by being overwritten (a backward step of R109, DDR5 lost at a warm reset) answers S_NOT_VALID. -/
def histRead (e : Nat) (buf : HostBuf) (d : Dev) : Dev × CmdRes :=
  match d.crt.snaps.find? (fun s => decide (s.epoch = e)) with
  | some s =>
    if buf.len < s.bytes.length then (d, .done sRange 0)
    else
      let n := (d.crt.amends.filter (fun a => decide (a.1 = e))).length
      (d.emit (.hostWrite buf.addr s.bytes), .done sOk n)
  | none => (d, .done (if d.crt.overRuns.any (fun o => decide (o.1 ≤ e) && decide (e ≤ o.2)) then sLost else sNotValid) 0)

/-- AMEND_READ. The spec names no length operand: a record is written whole. -/
def amendRead (i e : Nat) (addr : Nat) (d : Dev) : Dev × CmdRes :=
  if 8191 < i then (d, .done sRange 0)
  else match d.crt.amends.find? (fun a => decide (a.2.record.stream = i) && decide (a.1 = e)) with
    | some a => (d, .block (a.2.bytes false) (some addr))
    | none => (d, .done (if d.crt.amendLost.contains (i, e) then sLost else sNotValid) 0)

end Sys2Proof.Machine
end

