-- ==== Sys2Proof/Machine/Streams.lean ====
section
/-! DEFINITION. The commands of ingest on the stream and channel tables, and the rows of ingest and Crater (R54 to R63, R80 to
R92, R231, R232, R440). -/

namespace Sys2Proof.Machine

open Sys2Proof

/-! ## Images (R59, R62) -/

/-- A number of `n` bytes at `off` of a little-endian image. -/
def fieldAt (b : Bytes) (off n : Nat) : Nat := leNat (slice b off n)

/-- A bit of an image that is reserved is 1; the reserved bits are given by byte as a mask. -/
def resvSet (l : List (Nat × Nat)) (b : Bytes) : Bool := l.any (fun x => decide (fieldAt b x.1 1 &&& x.2 ≠ 0))

/-- The reserved bits of a stream entry. -/
def streamResv : List (Nat × Nat) :=
  [(0, 0x80), (1, 0x80), (3, 0xE0), (26, 0x80), (28, 0xC0), (29, 0xC0), (31, 0xFC), (38, 0xC0), (39, 0xF0), (43, 0xFF), (58, 0xFF),
   (59, 0xFF), (60, 0xFF), (61, 0xFF), (62, 0xFF), (63, 0xFF)]

/-- A stream entry image, where VALID is 1 and no reserved bit is. -/
def streamOf (b : Bytes) : Option StreamEntry :=
  let b0 := fieldAt b 0 1
  let b1 := fieldAt b 1 1
  let vl := fieldAt b 2 2
  if b0.testBit 4 && !resvSet streamResv b then
    some {
      type := b0 % 16, authReq := b0.testBit 5, testAccept := b0.testBit 6, portMask := b1 % 16, prio := b1 / 16 % 8
      vlanId := vl % 4096, vlanAny := vl.testBit 12, srcId := fieldAt b 4 2, udpPort := fieldAt b 6 2, srcAddr := slice b 8 16
      chanBase := fieldAt b 24 2, nchan := fieldAt b 26 1 % 128, frate := fieldAt b 27 1, primary := fieldAt b 28 1 % 64
      mirror := fieldAt b 29 1 % 64, keySlot := fieldAt b 30 2 % 1024, staleN := fieldAt b 32 1, fifoCells := fieldAt b 33 1
      outIdcode := fieldAt b 34 2, frameLen := fieldAt b 36 2, pmuBlk := fieldAt b 38 1 % 64, format := fieldAt b 39 1 % 16
      timeBase := fieldAt b 40 3, svidCrc := fieldAt b 44 4, cfgSig := fieldAt b 48 4, phnmr := fieldAt b 52 2
      annmr := fieldAt b 54 2, dgnmr := fieldAt b 56 2 }
  else none

/-- A channel entry image; none where its KIND or a bit of it is reserved. -/
def chanOf (b : Bytes) : Option ChanEntry :=
  let b0 := fieldAt b 0 1
  let b1 := fieldAt b 1 1
  if 9 < b0 % 16 ∨ 32 ≤ b0 ∨ 64 ≤ b1 ∨ fieldAt b 2 2 ≠ 0 ∨ 8192 ≤ fieldAt b 12 2 ∨ fieldAt b 14 2 ≠ 0 then none
  else
    some {
      kind := b0 % 16, enable := b0.testBit 4, srcPos := b1, scale := BitVec.ofNat 32 (fieldAt b 4 4)
      offset := BitVec.ofNat 32 (fieldAt b 8 4), stream := fieldAt b 12 2 }

/-! ## Checks of an entry (R55, R60, R232) -/

/-- Every entry that a stream holds: the one in force, the pending one, and one that waits for history. -/
def StreamSt.entries (s : StreamSt) : List StreamEntry :=
  s.entry.cur.toList ++ (match s.entry.pend with | some (_, some e) => [e] | _ => []) ++
    (match s.awaiting with | some (_, _, e) => [e] | none => [])

/-- The entries of the other streams. -/
def Dev.otherEntries (d : Dev) (i : Nat) : List StreamEntry :=
  d.ing.streams.flatMap (fun (s : Nat × StreamSt) => if s.1 = i then [] else s.2.entries)

/-- The channel ranges of two entries meet. -/
def rangesMeet (a b : StreamEntry) : Bool := decide (a.chanBase < b.chanBase + b.nchan) && decide (b.chanBase < a.chanBase + a.nchan)

def vlansMeet (a b : StreamEntry) : Bool := a.vlanAny || b.vlanAny || decide (a.vlanId = b.vlanId)

def sourcesMeet (a b : StreamEntry) : Bool := decide (beNat a.srcAddr = 0) || decide (beNat b.srcAddr = 0) || decide (a.srcAddr = b.srcAddr)

/-- Some frame can match both entries (R54, R55). -/
def Dev.keysMeet (d : Dev) (a b : StreamEntry) : Bool :=
  if a.type ≠ b.type then false
  else if a.type = 1 then decide (a.srcId = b.srcId) && decide (a.pmuBlk = b.pmuBlk)
  else if a.type = 0 then
    decide (a.srcId = b.srcId) && decide (a.pmuBlk = b.pmuBlk) && vlansMeet a b && decide (d.udpPortOf a = d.udpPortOf b) && sourcesMeet a b
  else if a.type = 2 then
    decide (a.srcId = b.srcId) && vlansMeet a b && (decide (macOf a = 0) || decide (macOf b = 0) || decide (macOf a = macOf b))
      && (decide (a.svidCrc = 0) || decide (b.svidCrc = 0) || decide (a.svidCrc = b.svidCrc))
  else if a.type = 3 ∨ a.type = 4 then
    decide (a.srcId = b.srcId) && vlansMeet a b && decide (d.udpPortOf a = d.udpPortOf b) && sourcesMeet a b
  else false

/-- FRATE is in its range for the type, and sampled-value frames come at most 4,800 times a second. -/
def frateOk (e : StreamEntry) : Bool :=
  if e.isC37 then decide (1 ≤ e.frate) && decide (e.frate ≤ 240)
  else if e.isSv then decide (1 ≤ e.nasdu) && decide (e.nasdu ≤ 8) && decide (e.frate < 32) && decide (e.rate ≤ 4800 * e.nasdu)
  else decide (e.frate = 0)

/-- FRAME_LEN is the length of the PMU block that the entry describes. -/
def frameLenOk (e : StreamEntry) : Bool :=
  let p := if e.format.testBit 1 then 8 else 4
  let q := if e.format.testBit 3 then 4 else 2
  let a := if e.format.testBit 2 then 4 else 2
  if e.isC37 then decide (e.frameLen = 2 + e.phnmr * p + 2 * q + e.annmr * a + 2 * e.dgnmr)
  else decide (e.phnmr = 0) && decide (e.annmr = 0) && decide (e.dgnmr = 0)

/-- A channel slot fits the entry that takes it. -/
def slotFits (i : Nat) (e : StreamEntry) (c : ChanEntry) : Bool :=
  decide (c.stream = i) &&
    (if e.isC37 then
       decide (c.kind ≤ 4) && (decide (c.kind ≠ 0) || decide (c.srcPos < e.phnmr)) && (decide (c.kind ≠ 3) || decide (c.srcPos < e.annmr))
         && (decide (c.kind ≠ 4) || decide (c.srcPos < e.dgnmr))
     else if e.isSv then (decide (c.kind = 5) || decide (c.kind = 6)) && decide (c.srcPos < e.frameLen / 8)
     else if e.type = 4 then decide (7 ≤ c.kind) && decide (c.kind ≤ 9)
     else decide (c.kind ≤ 3) && !(decide (c.kind = 3) && decide (48 ≤ c.srcPos)))

/-- Filter presets (R229, FLT_CHc.PRESET): 0 PRESET_P, 1 PRESET_M, 2 PRESET_Q, 3 PRESET_D. Their group delay in fine samples of 1/12,800 s. -/
def presetDelay (sixty : Bool) (f preset : Nat) : Nat :=
  if preset = 1 then 44800 / max 1 f
  else if preset = 2 then (if sixty then 428 else 510)
  else (if sixty then 214 else 255)

def Dev.presetOf (d : Dev) (ch : Nat) : Nat := d.fld (Fld.FLT_CHc_PRESET ch)

/-- The Filsin channels that a LOCAL channel slot names. -/
def Dev.filsinOf (d : Dev) (c : ChanEntry) : List Nat :=
  if c.srcPos < 48 then [c.srcPos]
  else
    let k := c.srcPos - 48
    [d.fld (Fld.ACQ_TRIPLEk_A k), d.fld (Fld.ACQ_TRIPLEk_B k), d.fld (Fld.ACQ_TRIPLEk_C k)]

/-- The largest group delay among the channels of an entry (R234). -/
def Dev.localDelay (d : Dev) (e : StreamEntry) : Nat :=
  ((d.chansOf e).flatMap d.filsinOf).foldl (fun m ch => max m (presetDelay (d.bit Fld.CRT_CFG_F_NOM) d.rate (d.presetOf ch))) 0

/-- The checks of R232 that the primary makes. -/
def Dev.localOk (d : Dev) (e : StreamEntry) : Bool :=
  let f0 := if d.bit Fld.CRT_CFG_F_NOM then 60 else 50
  (d.chansOf e).all (fun c =>
    let chs := d.filsinOf c
    let ps := chs.map d.presetOf
    (decide (c.srcPos < 48) || (d.bit (Fld.ACQ_TRIPLEk_EN (c.srcPos - 48)) && ps.all (fun p => decide (p = ps.headD 0))))
      && (decide (c.kind = 3) || ps.all (fun p => decide (p ≠ 3)))
      && (decide (d.rate ≤ 2 * f0) || ps.all (fun p => decide (p ≠ 1))))
    && decide ((d.localDelay e + 48) * 10 ≤ d.fld Fld.CRT_CFG_WAIT * 64)

/-- None of the S_RANGE cases of R60 and R232 holds. -/
def Dev.entryOk (d : Dev) (i : Nat) (e : StreamEntry) : Bool :=
  decide (e.type ≤ 5) && decide (1 ≤ e.nchan) && decide (e.nchan ≤ 64) && frateOk e && decide (1 ≤ e.staleN) && decide (4 ≤ e.fifoCells)
    && decide (2 * e.itemCells ≤ e.fifoCells) && (!e.isC37 || decide (0 < e.timeBase)) && decide (e.chanBase + e.nchan ≤ 65536)
    && !(d.otherEntries i).any (rangesMeet e) && (decide (e.primary = d.deviceNo) || decide (e.mirror = d.deviceNo)) && frameLenOk e
    && (d.chansOf e).all (slotFits i e) && (decide (e.type ≠ 5) || decide (e.primary ≠ d.deviceNo) || d.localOk e)

/-! ## STREAM_SET and STREAM_CLR (R81, R82, R91, R440) -/

/-- The first refusal of STREAM_SET, in the order of R82. -/
def Dev.streamRefusal (d : Dev) (i : Nat) (e? : Option StreamEntry) (eff : Nat) (imm : Bool) : Option Nat :=
  let st := d.stream i
  let rng := match e? with | none => true | some e => decide (8191 < i) || !d.entryOk i e
  let cells := match e? with | none => false | some e => decide (49152 < d.cellsBut i + max st.cells e.fifoCells)
  let dup := match e? with | none => false | some e => (d.otherEntries i).any (d.keysMeet e)
  firstStatus ((if i ≤ 8191 ∧ (st.entry.pend.isSome ∨ st.awaiting.isSome) then [sBusy] else []) ++
    (if imm = false ∧ d.effSealed eff = true then [sLate] else []) ++ (if rng then [sRange] else []) ++
    (if cells then [sNoCells] else []) ++ (if dup then [sDupKey] else []))

/-- This device is a new mirror that must fetch the history first: the primary is another member that lists the stream in its manifests,
and no entry of the stream is held here. A stream that is new on both owners has no history (DEDUCED, log 41). -/
def Dev.needsHistory (d : Dev) (i : Nat) (e : StreamEntry) : Bool :=
  d.joined && decide (e.primary ≠ d.deviceNo) && d.view.members.testBit e.primary && ((d.stream i).entry.newest).isNone
    && ((d.fab.claims.getD e.primary []).find (8192 * e.primary + i)).isSome

/-- The next epoch of this device: the next to seal, or, before its Crater runs, the next of the fabric (R437). -/
def Dev.nextEpoch (d : Dev) : Nat := if d.craterRuns then d.crt.nextSeal else d.ownU

/-- HIST_REQ for the MAX_EPOCHS + 1 due epochs before the effective epoch. -/
def Dev.askHistory (d : Dev) (i : Nat) (e : StreamEntry) (eff : Nat) : Dev :=
  let at_ := epochOfShort d.nextEpoch eff
  let step := max 1 (dueStep d.rate e)
  let last := (at_ - 1) / step * step
  let first := last - d.fld Fld.CRT_PRED_MAX_EPOCHS * step
  (d.modFab (fun f => { f with histWant := f.histWant.put i last })).send e.primary (.histReq first last [i])

/-- An accepted entry joins the table. -/
def Dev.putEntry (d : Dev) (i : Nat) (h : Held StreamEntry) : Dev :=
  (d.modStream i (fun s => { s with entry := h, cfgChange := false, awaiting := none })).refreshAlloc

def streamSet (i : Nat) (image : Bytes) (eff : Nat) (imm : Bool) (d : Dev) : Dev × CmdRes :=
  let e? := streamOf image
  match d.streamRefusal i e? eff imm, e? with
  | some st, _ => (d, .done st 0)
  | none, none => (d, .done sRange 0)
  | none, some e =>
    if d.needsHistory i e then
      let eff' := if imm then d.nextEpoch % 2 ^ 32 else eff
      (((d.modStream i (fun s => { s with awaiting := some (eff, imm, e) })).askHistory i e eff').refreshAlloc, .wait (.streamHistory i))
    else
      match d.change (d.stream i).entry eff imm (some e) with
      | .error st => (d, .done st 0)
      | .ok h => (d.putEntry i h, .ok)

/-- The history that a STREAM_SET waits for is held: its entry joins the table (R440). -/
def Dev.historyHeld (d : Dev) (i : Nat) : Dev :=
  match (d.stream i).awaiting with
  | none => d
  | some (eff, imm, e) =>
    let d1 := (d.modStream i (fun s => { s with awaiting := none })).modFab (fun f => { f with histWant := f.histWant.drop i })
    match d1.change (d1.stream i).entry eff imm (some e) with
    | .error st => (d1.refreshAlloc).finishWaits (fun w => decide (w = .streamHistory i)) st 0
    | .ok h => (d1.putEntry i h).finishWaits (fun w => decide (w = .streamHistory i)) sOk 0

def streamClr (i eff : Nat) (imm : Bool) (d : Dev) : Dev × CmdRes :=
  let st := d.stream i
  let refusal := firstStatus ((if i ≤ 8191 ∧ (st.entry.pend.isSome ∨ st.awaiting.isSome) then [sBusy] else []) ++
    (if imm = false ∧ d.effSealed eff = true then [sLate] else []) ++ (if 8191 < i ∨ st.entry.newest.isNone then [sRange] else []))
  match refusal with
  | some s => (d, .done s 0)
  | none =>
    match d.change st.entry eff imm none with
    | .error s => (d, .done s 0)
    | .ok h =>
      let d1 := (d.modStream i (fun s => { s with entry := h })).refreshAlloc
      let d2 := if h.pend.isSome then d1 else d1.modCrt (fun c => { c with hists := c.hists.drop i })
      -- the local seal at which R82 flushes the FIFO has passed, where the clear takes effect at once or from the run's first epoch
      (if h.pend.isSome && !(!imm && d.effBefore eff && decide (d.crt.first < d.crt.nextSeal)) then d2 else d2.flushFifo i, .ok)

/-! ## CHAN_SET and STREAM_STATS -/

/-- The images of a list, `n` bytes each. -/
def imagesOf (n count : Nat) (b : Bytes) : List Bytes := (List.range count).map (fun k => slice b (n * k) n)

def chanSet (first count : Nat) (images : Bytes) (d : Dev) : Dev × CmdRes :=
  let ents := (imagesOf 16 count images).map chanOf
  let inRange := d.ing.streams.any (fun (s : Nat × StreamSt) => s.2.entries.any (fun e =>
    decide (first < e.chanBase + e.nchan) && decide (e.chanBase < first + count)))
  if count = 0 ∨ 64 < count ∨ 65536 < first + count then (d, .done sRange 0)
  else if inRange then (d, .done sBusy 0)
  else if ents.any (fun e => e.isNone) then (d, .done sRange 0)
  else
    let put (t : Tbl ChanEntry) (x : Option ChanEntry × Nat) : Tbl ChanEntry :=
      match x.1 with | some c => if c = zeroChan then t.drop (first + x.2) else t.put (first + x.2) c | none => t
    (d.modIng (fun g => { g with chans := ents.zipIdx.foldl put g.chans }), .ok)

/-- The status block of R92. -/
def Dev.statsBlock (d : Dev) (i : Nat) : Bytes :=
  let s := d.stream i
  leBytes 4 s.frames ++ leBytes 4 s.lost ++ leBytes 4 s.crcErr ++ leBytes 4 s.authErr ++ leBytes 4 s.lenErr ++ leBytes 4 s.dup ++
  leBytes 4 s.late ++ leBytes 4 s.timeErr ++ leBytes 4 s.wrongPort ++ leBytes 4 s.lastEpoch ++
  leBytes 1 (b2n (d.hist i).lost + 2 * b2n s.cfgChange + 4 * b2n s.entry.pend.isSome + 8 * b2n s.keyOrphaned) ++ leBytes 1 s.lastPort ++
  zeros 2 ++ gtimeBytes s.lastRx ++ zeros 8

def streamStats (i : Nat) (d : Dev) : Dev × CmdRes :=
  let s := d.stream i
  if 8191 < i ∨ (s.entry.cur.isNone ∧ s.entry.newest.isNone) then (d, .done sRange 0) else (d, .block (d.statsBlock i) none)

end Sys2Proof.Machine
end

