-- ==== Sys2Proof/Machine/RegOps.lean ====
section
/-! DEFINITION. Writes of BAR0 registers: fields, ranges, the configuration lock, 64-bit pairs, clock gates (R15 to R20, R538,
R539, R555, R556, R561 to R563). -/

namespace Sys2Proof.Machine

open Sys2Proof

/-! ## The register at an offset -/

def famHas (f : RegFam) (off : Nat) : Bool :=
  if f.count = 1 then decide (off = f.base)
  else decide (f.base ≤ off) && decide ((off - f.base) % f.stride = 0) && decide ((off - f.base) / f.stride < f.count)

def regAt (off : Nat) : Option RegFam := regTable.find? (fun f => famHas f off)

/-- The fields of the register at an offset; none where no register is. -/
def fieldsAt (off : Nat) : List FieldSpec := match regAt off with | some f => f.fields | none => []

/-- The _LO registers whose _HI lies at the next 4 bytes, 8-byte aligned: first offset, stride, copies. -/
def pairRegs : List (Nat × Nat × Nat) := [
  (0x040020, 0, 1), (0x040028, 0, 1), (0x040030, 0, 1), (0x040038, 0, 1), (0x060020, 0, 1),
  (0x060100, 0, 1), (0x060108, 0, 1), (0x060110, 0, 1), (0x060118, 0, 1), (0x080030, 0, 1),
  (0x082028, 0, 1), (0x084080, 0, 1), (0x0A2040, 0, 1), (0x0B0010, 0, 1), (0x0B0018, 0, 1),
  (0x0B0020, 0, 1), (0x0B0028, 0, 1), (0x0B8010, 0, 1), (0x0C0008, 0, 1), (0x0C0010, 0, 1),
  (0x0C0028, 0, 1), (0x0D0010, 0, 1), (0x0D0018, 0, 1), (0x0E0108, 64, 4), (0x0E0208, 8, 2),
  (0x0E1000, 256, 4), (0x0E1008, 256, 4), (0x0E1010, 256, 4), (0x0E1018, 256, 4), (0x100050, 32, 2),
  (0x120010, 0, 1), (0x120018, 0, 1), (0x021000, 32, 32), (0x140008, 0, 1), (0x140010, 0, 1),
  (0x150008, 0, 1), (0x150010, 0, 1), (0x160020, 0, 1)]

def isPairLo (off : Nat) : Bool :=
  pairRegs.any (fun p =>
    if p.2.2 = 1 then decide (off = p.1)
    else decide (p.1 ≤ off) && decide ((off - p.1) % p.2.1 = 0) && decide ((off - p.1) / p.2.1 < p.2.2))

/-- The 64-bit pairs that host software writes (R19): a ring's base and the MAC addresses. -/
def isWritePair (off : Nat) : Bool :=
  (decide (0x021000 ≤ off) && decide (off < 0x021400) && decide (off % 32 = 0))
    || (decide (0x0E0100 ≤ off) && decide (off < 0x0E0200) && decide (off % 64 = 8)) || decide (off = 0x0E0208) || decide (off = 0x0E0210)

/-! ## Clock gates (R538, R555) -/

/-- The gate bit of an offset. -/
def gateOf (off : Nat) : Option Nat :=
  if 0x0A0000 ≤ off ∧ off < 0x0B0000 then some 3
  else if 0x0B0000 ≤ off ∧ off < 0x0B8000 then some 0
  else if 0x0B8000 ≤ off ∧ off < 0x0C0000 then some 1
  else if 0x0C0000 ≤ off ∧ off < 0x0D0000 then some 2
  else if 0x0E0100 ≤ off ∧ off < 0x0E0200 then (if off % 64 < 20 then some (5 + (off - 0x0E0100) / 64) else none)
  else if 0x0E0208 ≤ off ∧ off < 0x0E0218 then some 4
  else if 0x0E1000 ≤ off ∧ off < 0x0E1400 then (if off % 256 < 0x68 then some (5 + (off - 0x0E1000) / 256) else none)
  else if 0x0E1800 ≤ off ∧ off < 0x0E1880 then (if off % 64 < 0x20 then some 4 else none)
  else if 0x120100 ≤ off ∧ off < 0x120280 then (if off % 64 < 28 then some (9 + (off - 0x120100) / 64) else none)
  else none

/-- The blocks that run in RESCUE: GLB, CLK, RST and PWR, HIF, SAF and INV (R533). -/
def runsInRescue (off : Nat) : Bool := decide (off < 0x040000) || (decide (0x160000 ≤ off) && decide (off < 0x180000))

/-- An access to the offset meets a gated block, or a block held in reset. -/
def Dev.gatedAt (d : Dev) (off : Nat) : Bool := (gateOf off).any d.gated || (d.bit Fld.CLK_STATUS_RESCUE && !runsInRescue off)

/-- A register write that meets a gated block, or a block held in reset, changes nothing (R20, R533). -/
def Dev.unlessGated (d : Dev) (off : Nat) (f : Dev → Dev) : Dev := if d.gatedAt off then d else f d

/-- The blocks of R538 that count as enabled, by gate bit. -/
def Dev.gateEnabled (d : Dev) (bit : Nat) : Bool :=
  if bit = 0 then d.bit Fld.GEY_CTRL_EN
  else if bit = 1 then d.bit Fld.NRG_CTRL_EN
  else if bit = 2 then decide (d.fld Fld.CYC_STATUS_STATE = 1) || decide (d.fld Fld.RIO_CTRL_SEG_EN ≠ 0)
  else if bit = 3 then decide (d.fld Fld.ACQ_CTRL_FE_EN ≠ 0)
  else if bit = 4 then decide (d.fld Fld.NET_FLD_CFG_EN ≠ 0)
  else if bit < 9 then d.bit (Fld.NET_Pp_CFG_EN (bit - 5))
  else d.fbit Fld.FAB_CTRL_LINK_EN (bit - 9)

/-! ## Field rules (R16, R17, R562) -/

def limitTakes (l : Limit) (v : Nat) : Bool :=
  match l with
  | .any => true
  | .within lo hi => decide (lo ≤ v) && decide (v ≤ hi)
  | .evenIn lo hi => decide (lo ≤ v) && decide (v ≤ hi) && decide (v % 2 = 0)
  | .quorums => (List.range 4).all (fun i => decide (v / 256 ^ i % 256 ≤ 64))

/-- The answer of a write: the word, whether an RWL field was refused under the lock, whether a value was out of range. -/
structure WriteRes where
  word : Word
  viol : Bool := false
  err : Bool := false
  deriving DecidableEq, Repr

/-- One field takes its part of a written word. -/
def writeField (locked : Bool) (v : Word) (r : WriteRes) (f : FieldSpec) : WriteRes :=
  let x := bitsAt v f.lo f.width
  let cur := bitsAt r.word f.lo f.width
  let store : WriteRes :=
    if limitTakes f.lim x then { r with word := withBits r.word f.lo f.width x } else { r with err := true }
  match f.acc with
  | .ro | .wo => r
  | .rw1c => { r with word := withBits r.word f.lo f.width (cur - (cur &&& x)) }
  | .rw | .rws => store
  | .rwl => if locked then (if x = cur then r else { r with viol := true }) else store

def writeFields (locked : Bool) (fields : List FieldSpec) (old v : Word) : WriteRes := fields.foldl (writeField locked v) { word := old }

/-- A field falls back to its old value where it breaks a rule stated against another field. -/
def WriteRes.keep (r : WriteRes) (old : Word) (lo w : Nat) (ok : Bool) : WriteRes :=
  if ok then r
  else { r with word := withBits r.word lo w (bitsAt old lo w), err := true }

/-- The channel is used by a valid LOCAL stream of this device (R225). -/
def Dev.channelInUse (d : Dev) (ch : Nat) : Bool :=
  d.ing.streams.any (fun (s : Nat × StreamSt) => s.2.entries.any (fun e =>
    decide (e.type = 5) && decide (e.primary = d.deviceNo) && (d.chansOf e).any (fun c => (d.filsinOf c).contains ch)))

def Dev.locked (d : Dev) : Bool := d.bit Fld.GLB_STATUS_LOCKED

/-- The field at a bit of a register is an RWL field under the lock: every write of it is discarded (R562). -/
def Dev.discards (d : Dev) (off lo : Nat) : Bool := d.locked && (fieldsAt off).any (fun s => decide (s.lo = lo) && decide (s.acc = .rwl))

/-- Ranges stated against another field, judged after the write (R17), and writes refused as a whole. A field whose write the lock
discards is not judged. -/
def Dev.crossCheck (d : Dev) (off : Nat) (old v : Word) (r : WriteRes) : WriteRes :=
  let f (lo w : Nat) : Nat := bitsAt r.word lo w
  let refuse : WriteRes := { word := old, viol := r.viol, err := true }
  let keep (lo w : Nat) (ok : Bool) : WriteRes := r.keep old lo w (d.discards off lo || ok)
  if off = Reg.OSC_BAND then keep 16 16 (decide (f 0 16 < f 16 16))
  else if off = Reg.OSC_SSO then keep 8 6 (decide (f 0 6 < f 8 6))
  else if off = Reg.SCH_MC_LOAD then keep 16 7 (decide (f 16 7 < f 8 7))
  else if off = Reg.TIM_LIM then keep 0 16 (decide (f 0 16 * 10 ≤ d.regN Reg.TIM_STEP_LIM * 1000))
  else if off = Reg.TIM_STEP_LIM then keep 0 32 (decide (d.fld Fld.TIM_LIM_LOCK_LIM * 10 ≤ f 0 32 * 1000))
  else if Reg.ACQ_TRIPLEk 0 ≤ off ∧ off < Reg.ACQ_TRIPLEk 16 then
    keep 31 1 (decide (f 31 1 = 0) || (decide (f 0 6 ≠ f 8 6) && decide (f 8 6 ≠ f 16 6) && decide (f 0 6 ≠ f 16 6)))
  else if Reg.FLT_CHc 0 ≤ off ∧ off < Reg.FLT_CHc 48 then
    if d.discards off 0 then r
    else if d.channelInUse ((off - Reg.FLT_CHc 0) / 4) ∨ (f 0 2 = 3 ∧ f 2 1 = 1) then refuse else r
  else if Reg.NET_Pp_CFG 0 ≤ off ∧ off < Reg.NET_Pp_CFG 4 ∧ off % 64 = 0 then
    if bitsAt v 1 2 = 3 ∧ d.discards off 1 = false then refuse else r
  else r

/-- The CFG_ERR bit of the block that a register belongs to. The CAL region has none of its own: ACQ_STATUS.CFG_ERR serves it. -/
def cfgErrOf (off : Nat) : Option FieldAt :=
  if off < 0x010000 then none
  else if off < 0x020000 then some Fld.CLK_STATUS_CFG_ERR
  else if off < 0x040000 then some Fld.HIF_STATUS_CFG_ERR
  else if off < 0x060000 then none
  else if off < 0x080000 then some Fld.CRT_STATUS_CFG_ERR
  else if off < 0x082000 then some Fld.OSC_STATUS_CFG_ERR
  else if off < 0x084000 then some Fld.ISL_STATUS_CFG_ERR
  else if off < 0x0A0000 then some Fld.FUM_STATUS_CFG_ERR
  else if off < 0x0A1000 then some Fld.ACQ_STATUS_CFG_ERR
  else if off < 0x0A2000 then some Fld.FLT_STATUS_CFG_ERR
  else if off < 0x0B0000 then some Fld.ACQ_STATUS_CFG_ERR
  else if off < 0x0B8000 then some Fld.GEY_STATUS_CFG_ERR
  else if off < 0x0C0000 then some Fld.NRG_STATUS_CFG_ERR
  else if off < 0x0C1000 then some Fld.CYC_STATUS_CFG_ERR
  else if off < 0x0D0000 then some Fld.RIO_STATUS_CFG_ERR
  else if off < 0x0E0000 then some Fld.SCH_STATUS_CFG_ERR
  else if off < 0x100000 then some Fld.NET_STATUS_CFG_ERR
  else if off < 0x120000 then some Fld.TIM_STATUS_CFG_ERR
  else if off < 0x140000 then some Fld.FAB_STATUS_CFG_ERR
  else if off < 0x150000 then none
  else if off < 0x160000 then some Fld.SNT_STATUS_CFG_ERR
  else if off < 0x170000 then some Fld.SAF_STATUS_CFG_ERR
  else none

/-- A refused value or a violation of the lock is noted. -/
def Dev.noteWrite (d : Dev) (off : Nat) (r : WriteRes) : Dev :=
  let d1 := if r.viol then (d.setBit Fld.GLB_STATUS_LOCK_VIOL true).count Reg.GLB_LOCK_VIOL else d
  if r.err then match cfgErrOf off with | some f => d1.setBit f true | none => d1 else d1

/-- The word that a write leaves in a register without behaviour of its own. -/
def Dev.writeRes (d : Dev) (off : Nat) (v : Word) : WriteRes :=
  let old := d.reg off
  d.crossCheck off old v (writeFields d.locked (fieldsAt off) old v)

/-- A register without behaviour of its own is written. The bits of ENG_RETIRED can be cleared, not set. -/
def Dev.writePlain (d : Dev) (off : Nat) (v : Word) : Dev :=
  let r := d.writeRes off v
  let w := if off = Reg.ENG_RETIRED then d.reg off &&& v else r.word
  (d.setReg off w).noteWrite off r

/-! ## The configuration lock (R561 to R563) -/

/-- The bits of a register that are RWL. -/
def rwlMask (fields : List FieldSpec) : Nat :=
  fields.foldl (fun m f => if f.acc = .rwl then m + (2 ^ f.width - 1) * 2 ^ f.lo else m) 0

/-- Every register that holds an RWL field, with the mask of those bits, by rising offset. -/
def rwlRegs : Tbl Nat :=
  regTable.foldl (fun (t : Tbl Nat) f =>
    let m := rwlMask f.fields
    if m = 0 then t else (List.range f.count).foldl (fun (t : Tbl Nat) i => t.put (f.base + f.stride * i) m) t) []

def Dev.lockSignature (d : Dev) : Nat :=
  crc32 (rwlRegs.flatMap (fun (x : Nat × Nat) => leBytes 4 (d.regN x.1 &&& x.2)))

def lockKey : Word := 0x4C4F434B

def Dev.writeLock (d : Dev) (v : Word) : Dev :=
  if v = lockKey then
    if d.locked then d else (d.setBit Fld.GLB_STATUS_LOCKED true).setRegN Reg.GLB_LOCK_SIG d.lockSignature
  else d.setBit Fld.GLB_STATUS_CFG_ERR true

/-! ## Clock gates set and cleared (R538, R539) -/

/-- CLK_GATE is written: a bit of an enabled block stays 0 with CFG_ERR; another new bit is a request; a cleared bit restarts the
clock or cancels the request. -/
def Dev.writeClkGate (d : Dev) (v : Word) : Dev :=
  let x := v.toNat % 2 ^ 15
  (List.range 15).foldl (fun (a : Dev) b =>
    if x.testBit b then
      if a.fbit Fld.CLK_GATE_GATE b then a
      else if a.gateEnabled b then a.setBit Fld.CLK_STATUS_CFG_ERR true
      else (a.setFbit Fld.CLK_GATE_GATE b true).modClk (fun c => { c with gateHeld := putBit c.gateHeld b true })
    else
      ((a.setFbit Fld.CLK_GATE_GATE b false).setFbit Fld.CLK_GATE_STATUS_GATED b false).modClk
        (fun c => { c with gateHeld := putBit c.gateHeld b false })) d

/-- A held request closes. -/
def Dev.closeGate (d : Dev) (b : Nat) : Dev :=
  if d.clk.gateHeld.testBit b then
    (d.setFbit Fld.CLK_GATE_STATUS_GATED b true).modClk (fun c => { c with gateHeld := putBit c.gateHeld b false })
  else d

/-! ## The DDR5 layout (R137, R272, R349) -/

/-- MiB of the open-epoch store, the history buffer and the amendment log. -/
def Dev.layoutCrt (d : Dev) : Nat := 2048 + d.fld Fld.CRT_HIST_SIZE + d.fld Fld.CRT_HIST_AMEND_SIZE

def Dev.ddrMib (d : Dev) : Nat := d.fld Fld.RST_STATUS_DDR_GIB * 1024

/-! ## Ingest enable and disable (R46, R88, R89, R546) -/

/-- A write that sets ING_CTRL.EN is refused: R137, R437, R492 or R546. -/
def Dev.ingestRefused (k : KeySt) (d : Dev) : Bool :=
  decide (d.ddrMib < d.layoutCrt) || decide (k.lc = .returned) || (d.joined && !d.bit Fld.TIM_STATUS_ACQUIRED)
    || !d.bit Fld.RST_STATUS_DDR_READY

/-- Ingest and Crater start; Crater goes on where it still seals (R46). -/
def Dev.startIngest (d : Dev) : Dev :=
  let d0 := if d.clk.startComplete then d
    else (d.modClk (fun c => { c with startComplete := true })).event .startComplete noIndex
      (sat (2 ^ 32 - 1) ((d.up - d.tim.releasedAt) / 1000000)) (d.fld Fld.RST_STATUS_LAST_KIND)
  let d1 := d0.setBit Fld.ING_STATUS_RUNNING true
  if d1.craterRuns then d1
  else
    let first := firstEpochAt d1.rate d1.g16
    (d1.modCrt (fun c => { c with first := first, nextSeal := first, nextConf := first, nextDeliver := first })).setBit
      Fld.CRT_STATUS_RUNNING true

/-- ING_CTRL is written. -/
def writeIngCtrl (k : KeySt) (v : Word) (d : Dev) : Dev :=
  let was := d.reg Reg.ING_CTRL
  let on := bitsAt v 0 1 = 1
  let d1 := d.setReg Reg.ING_CTRL (BitVec.ofNat 32 (v.toNat % 32))
  let off := (List.range 5).any (fun b => was.toNat.testBit b && !v.toNat.testBit b)
  if on ∧ was.toNat.testBit 0 = false then
    if Dev.ingestRefused k d then (d1.setBit Fld.ING_CTRL_EN false).setBit Fld.CRT_STATUS_CFG_ERR true else d1.startIngest
  else
    let d2 := if on then d1 else d1.setBit Fld.ING_STATUS_RUNNING false
    let d3 := if off then d2.markDrain else d2
    if off && d3.drains then d3.setBit Fld.ING_STATUS_DRAINING true else d3

end Sys2Proof.Machine
end

