-- ==== Sys2Proof/Machine/OscOps.lean ====
section
/-! DEFINITION. Operations of the oscillation trackers: signal values, preprocessing, the subspace tracker, modes and their
association, confidence, thresholds, ranking and reports (R142 to R170). -/

namespace Sys2Proof.Machine

open Sys2Proof

/-- The angle with the multiple of 2π that brings it within π of the previous one. -/
def unwrapTo (prev raw : DWord) : DWord :=
  let k : Int := ((dRat prev - dRat raw) / dRat dTwoPi + 1 / 2).floor
  dAdd raw (dMul (dOfInt k) dTwoPi)

/-! ## The two bands -/

/-- R_DIM of a band: 0 electromechanical, 1 sub-synchronous. -/
def Dev.oscDim (d : Dev) (b : Nat) : Nat := if b = 0 then d.fld Fld.OSC_CFG_R_DIM else d.fld Fld.OSC_SSO_R_DIM_SSO

def Dev.band (d : Dev) (b : Nat) : BandSt := if b = 0 then d.osc.em else d.osc.sso

def Dev.setBand (d : Dev) (b : Nat) (s : BandSt) : Dev := d.modOsc (fun o => if b = 0 then { o with em := s } else { o with sso := s })

def Dev.bandOn (d : Dev) (b : Nat) : Bool := if b = 0 then d.bit Fld.OSC_CTRL_EN else d.bit Fld.OSC_CTRL_SSO_EN

/-- Updates a second: F, or 480. -/
def Dev.bandRate (d : Dev) (b : Nat) : Nat := if b = 0 then d.rate else 480

/-- F_LO and F_HI of a band in 0.01 Hz. -/
def Dev.bandEdges (d : Dev) (b : Nat) : Nat × Nat :=
  if b = 0 then (d.fld Fld.OSC_BAND_F_LO, d.fld Fld.OSC_BAND_F_HI) else (100 * d.fld Fld.OSC_SSO_F_LO, 100 * d.fld Fld.OSC_SSO_F_HI)

/-- The forgetting factor (R148). -/
def Dev.lam (d : Dev) (b : Nat) : DWord :=
  Config.f64Exp (dNeg (dFrac 2 (d.fld Fld.OSC_TRK_TAU * d.bandRate b)))

/-- The slots of a band. -/
def Dev.bandSlots (d : Dev) (b : Nat) : List Nat :=
  let n := 64 - d.fld Fld.OSC_CFG_SSO_SLOTS
  if b = 0 then List.range n else (List.range 64).drop n

/-- Epochs for which a new signal counts as missing (R146). -/
def Dev.settleEpochs (d : Dev) (b : Nat) : Nat := let lo := max 1 (d.bandEdges b).1; (d.rate * 100 + lo - 1) / lo

/-- How many of them are left at epoch `e`: they count from the entry's effective epoch, or from the first of the run after it. -/
def Dev.settleLeft (d : Dev) (b e : Nat) (g : SigEntry) : Nat := d.settleEpochs b - (e - max g.since d.crt.first)

/-! ## Signal values (R143, R145) -/

/-- The record and the value pair of a channel slot in a local seal. -/
def Dev.slotIn (d : Dev) (s : SealInfo) (e slot : Nat) : Option (Rec × Nat) :=
  let st := (d.chan slot).stream
  (d.entryAt st e).bind (fun ent =>
    if ent.chanBase ≤ slot ∧ slot < ent.chanBase + ent.nchan then (s.index.find st).map (fun r => (r, slot - ent.chanBase)) else none)

/-- A record whose values a tracker may use. -/
def Dev.usable (d : Dev) (r : Rec) : Bool :=
  (r.qual.testBit 0 || r.qual.testBit 1) && !r.qual.testBit 6 && !r.qual.testBit 4 && (!r.qual.testBit 7 || d.bit Fld.OSC_CFG_USE_TEST)

/-- The value pair of a slot, where its record may be used. -/
def Dev.slotVal (d : Dev) (s : SealInfo) (e slot : Nat) : Option (Word × Word) :=
  (d.slotIn s e slot).bind (fun x =>
    if d.usable x.1 then (match x.1.body with | .slots l => l[x.2]? | _ => none) else none)

def cpxOf (v : Word × Word) : Cpx := (dOfF32 v.1, dOfF32 v.2)

/-- The value of an electromechanical signal, or none where it is missing. `prev` is the previous unwrapped angle. -/
def Dev.sigValue (d : Dev) (s : SealInfo) (e : Nat) (g : SigEntry) (prev : DWord) : Option DWord :=
  let v := (d.slotVal s e g.slot).map cpxOf
  let i := (d.slotVal s e g.slot2).map cpxOf
  let power (f : Cpx → DWord) : Option DWord :=
    v.bind (fun a => i.map (fun b => dDiv (dMul (dOfF32 g.nom) (f (zMul a (zConj b)))) (dOfInt 1000000)))
  if g.derive_ = 0 then
    let ref := (d.slotVal s e (d.fld Fld.OSC_REF_SLOT)).map cpxOf
    v.bind (fun a => ref.map (fun r => let z := zMul a (zConj r); unwrapTo prev (Config.f64Atan2 z.2 z.1)))
  else if g.derive_ = 1 then v.map (fun a => dDiv (zAbs a) (dOfF32 g.nom))
  else if g.derive_ = 3 then power (fun z => z.1)
  else if g.derive_ = 4 then power (fun z => z.2)
  else v.map (fun a => a.1)

/-- Class of a signal (R143); ANALOG has none. -/
def SigEntry.class (d : Dev) (g : SigEntry) : Nat :=
  match g.derive_ with
  | 0 => 0 | 1 => 2 | 2 => 1 | 3 => 3 | 4 => 3
  | 6 => if (d.chan g.slot).kind = 5 then 0 else 1
  | _ => 9

/-- The normalisation floor (R147, R158). -/
def SigEntry.floor (g : SigEntry) : DWord := if g.derive_ = 3 ∨ g.derive_ = 4 ∨ g.derive_ = 6 then dFrac 1 1000 else dFrac 1 100000

/-- The signals of a band that are valid at an epoch. -/
def Dev.bandSigs (d : Dev) (b e : Nat) : List (Nat × SigEntry) :=
  d.osc.sigs.filterMap (fun (s : Nat × Held SigEntry) =>
    (s.2.at' e).bind (fun g => if decide (g.derive_ = 6) = decide (b = 1) then some (s.1, g) else none))

/-- TIME_SUSPECT and PREDICTED of the records that a signal entry reads. -/
def Dev.sigFlags (d : Dev) (s : SealInfo) (e : Nat) (g : SigEntry) : Bool × Bool :=
  let slots := [g.slot] ++ (if g.derive_ = 3 ∨ g.derive_ = 4 then [g.slot2] else []) ++ (if g.derive_ = 0 then [d.fld Fld.OSC_REF_SLOT] else [])
  let recs := slots.filterMap (fun x => (d.slotIn s e x).map (fun r => r.1))
  (recs.any (fun r => r.qual.testBit 3), recs.any (fun r => r.qual.testBit 1))

/-- The same of a signal by its index. -/
def Dev.flagsAt (d : Dev) (s : SealInfo) (e n : Nat) : Bool × Bool :=
  match (d.osc.sigs.getD n {}).at' e with | some g => d.sigFlags s e g | none => (false, false)

/-! ## Preprocessing (R146, R147) -/

/-- The running mean square, and the signal divided by its root. -/
def normStep (lam floor f : DWord) (p : SigPre) : SigPre × Word :=
  let ms := dAdd (dMul lam p.ms) (dMul (dMul (dSub dOne lam) f) f)
  ({ p with ms := ms }, fOfF64 (dDiv f (dMax (dSqrt ms) floor)))

/-- The preprocessing state of a signal at an update: a new or changed signal starts at zero (R146). -/
def Dev.preOf (d : Dev) (b e : Nat) (s : BandSt) (n : Nat) (g : SigEntry) : SigPre :=
  match s.pre.find n with
  | some p => if p.entry = some g then p else { entry := some g, settle := d.settleLeft b e g }
  | none => { entry := some g, settle := d.settleLeft b e g }

/-- One epoch of one electromechanical signal: its new state, y, and whether it counts as missing. -/
def Dev.preEm (d : Dev) (s : SealInfo) (e : Nat) (g : SigEntry) (p : SigPre) : SigPre × Word × Bool :=
  let v := d.sigValue s e g p.unwrapped
  let z := v.getD p.zlast
  let edges := d.bandEdges 0
  let rate := dOfInt d.rate
  let a := sectionStep (butterworth true (dFrac edges.1 100) rate) p.hp z
  let c := sectionStep (butterworth false (dFrac edges.2 100) rate) p.lp a.1
  let miss := v.isNone || decide (0 < p.settle)
  let r := normStep (d.lam 0) g.floor c.1
    { p with zlast := z, unwrapped := if g.derive_ = 0 then v.getD p.unwrapped else p.unwrapped, hp := a.2, lp := c.2, settle := p.settle - 1 }
  (r.1, if miss then 0 else r.2, miss)

/-! ## The subspace tracker (R149 to R152) -/

/-- The state from which a tracker starts (R152); a signal whose first epochs are not over goes on settling (R146), `left` of them where
the tracker has not counted any. -/
def startBand (r : Nat) (sigs : List (Nat × SigEntry)) (left : SigEntry → Nat) (old : BandSt) : BandSt :=
  let rows := (sigs.zip (List.range sigs.length)).map (fun x => (x.1.1, (List.range r).map (fun j => if j = x.2 then (0x3F800000 : Word) else 0)))
  { old with
    w := rows, p := identM dOne r, a := identM 0 r, q := identM (dOfInt 10000) r, ee := 0, y := []
    pre := sigs.map (fun s => (s.1, { entry := some s.2, settle := match old.pre.find s.1 with
      | some p => if p.entry = some s.2 then p.settle else left s.2
      | none => left s.2 }))
    updates := 0, skipped := false, resetDue := false }

def rowOf (b : BandSt) (r n : Nat) : Vec := (((b.w.find n).getD []).map dOfF32 ++ vZero r).take r

/-- `transpose(W) * y`. -/
def coords (b : BandSt) (r : Nat) (y : List (Nat × Word)) : Vec :=
  y.foldl (fun h x => vAdd h (vScale (dOfF32 x.2) (rowOf b r x.1))) (vZero r)

/-- One update of a tracker with the values of its valid signals and whether each is missing; the coordinates x1, or none where the
update is skipped. -/
def trackStep (r : Nat) (lam : DWord) (missLim : Nat) (ys : List (Nat × Word × Bool)) (b : BandSt) : BandSt × Option Vec :=
  let y : List (Nat × Word) := ys.map (fun x => (x.1, x.2.1))
  let miss := (ys.filter (fun x => x.2.2)).length
  if missLim * ys.length < 100 * miss then ({ b with y := y, skipped := true, updates := b.updates + 1 }, none)
  else
    let h := coords b r y
    let ph := matVec b.p h
    let g := ph.map (fun x => dDiv x (dAdd lam (vDot h ph)))
    let hp := matVec (transposeM r b.p) h
    let p1 := (matMap2 dSub b.p (outer g hp)).map (fun row => row.map (fun x => dDiv x lam))
    let w1 : Tbl (List Word) := ys.map (fun x =>
      let row := rowOf b r x.1
      if x.2.2 then (x.1, row.map fOfF64)
      else
        let err := dSub (dOfF32 x.2.1) (vDot row h)
        (x.1, (vAdd row (vScale err g)).map fOfF64))
    let b1 := { b with w := w1, p := symM r p1 }
    let x1 := coords b1 r y
    let x0 := coords b1 r (ys.map (fun x => (x.1, b.y.getD x.1 0)))
    let qx := matVec b.q x0
    let k := qx.map (fun x => dDiv x (dAdd lam (vDot x0 qx)))
    let a1 := matMap2 dAdd b.a (outer (vSub x1 (matVec b.a x0)) k)
    let xq := matVec (transposeM r b.q) x0
    let q1 := (matMap2 dSub b.q (outer k xq)).map (fun row => row.map (fun x => dDiv x lam))
    let eps := vSub x1 (matVec a1 x0)
    let ee := dAdd (dMul lam b.ee) (dDiv (dMul (dSub dOne lam) (vDot eps eps)) (dOfInt r))
    ({ b1 with a := a1, q := symM r q1, ee := ee, y := y, skipped := false, updates := b.updates + 1 }, some x1)

/-! ## Modes (R153, R154) -/

/-- A candidate: frequency, damping, right eigenvector, and |q|². -/
structure Cand where
  f : DWord
  zeta : DWord
  v : List Cpx
  q2 : DWord
  deriving DecidableEq, Repr

/-- SNR in dB. -/
def snrOf (eq ee : DWord) : DWord :=
  if dRat ee = 0 then dFrac 999 10 else dMul (dOfInt 10) (Config.f64Log10 (dDiv eq ee))

/-- The candidates of an update. -/
def Dev.candidates (d : Dev) (b : Nat) (s : BandSt) (x1 : Vec) : List Cand :=
  let edges := d.bandEdges b
  let rate := dOfInt (d.bandRate b)
  (eigen s.a).filterMap (fun x =>
    let mu := x.1
    let m := zAbs mu
    let re := dMul rate (Config.f64Log m)
    let im := dMul rate (Config.f64Atan2 mu.2 mu.1)
    let f := dDiv im dTwoPi
    let zeta := dDiv (dNeg re) (zAbs (re, im))
    let q := zDot x.2.2 (x1.map (fun v => (v, 0)))
    if dLt 0 mu.2 && dGe f (dFrac edges.1 100) && dLt f (dFrac edges.2 100) && dLt 0 m && dGe (dFrac 105 100) m then
      some { f := f, zeta := zeta, v := x.2.1, q2 := zAbs2 q }
    else none)

/-- The shape of a mode: one complex value for each valid signal. -/
def shapeOf (s : BandSt) (r : Nat) (sigs : List (Nat × SigEntry)) (v : List Cpx) : List (Nat × Cpx) :=
  sigs.map (fun g =>
    let row := rowOf s r g.1
    (g.1, (row.zip v).foldl (fun acc x => zAdd acc (dMul x.1 x.2.1, dMul x.1 x.2.2)) (0, 0)))

/-- The 16 strongest signals, with magnitude and angle relative to the strongest. -/
def strongest (psi : List (Nat × Cpx)) : List (Nat × Nat × Nat) :=
  let top := (sortBy (fun (a b : Nat × Cpx) => dLt (zAbs b.2) (zAbs a.2)) psi).take 16
  match top with
  | [] => []
  | (_, z0) :: _ =>
    let m0 := zAbs z0
    top.map (fun x =>
      let mag := dInt (dMul (dDiv (zAbs x.2) m0) (dOfInt 65535))
      let z := zMul x.2 (zConj z0)
      let ang := dInt (dDiv (dMul (Config.f64Atan2 z.2 z.1) (dOfInt 65536)) dTwoPi)
      (x.1, sat 65535 mag.toNat, toTwos 16 ang))

/-- What one band's update gives its slots: shapes need the signals and their values. -/
structure OscCtx where
  b : Nat
  r : Nat
  lam : DWord
  sigs : List (Nat × SigEntry)
  missing : List Nat
  st : BandSt

/-- AMP of each class. -/
def OscCtx.amps (c : OscCtx) (d : Dev) (psi : List (Nat × Cpx)) (eq : DWord) : List DWord :=
  (List.range 4).map (fun cls => ((psi.zip c.sigs).foldl (fun m x =>
    if x.2.2.class d = cls ∧ c.missing.contains x.1.1 = false then
      let ms := ((c.st.pre.find x.1.1).map (fun (p : SigPre) => p.ms)).getD 0
      dMax m (dMul (dMul (dMul (dOfInt 2) (zAbs x.1.2)) (dSqrt eq)) (dMax (dSqrt ms) x.2.2.floor))
    else m) 0))

/-- A slot takes the values of its matched candidate: energy, SNR, amplitudes, shape and confidence (R153, R154, R157). -/
def OscCtx.matched (c : OscCtx) (d : Dev) (m : ModeSlot) (x : Cand) : ModeSlot :=
  let eq := dAdd (dMul c.lam m.eq) (dMul (dSub dOne c.lam) x.q2)
  let psi := shapeOf c.st c.r c.sigs x.v
  let shape := strongest psi
  let lc := Config.f64Exp (dNeg (dFrac 1 (10 * d.rate)))
  let zbar := dAdd (dMul lc m.zbar) (dMul (dSub dOne lc) x.zeta)
  let dz := dSub x.zeta zbar
  { m with
    f := x.f, zeta := x.zeta, v := x.v, eq := eq, snr := snrOf eq c.st.ee, amp := c.amps d psi eq, shape := shape,
    zbar := zbar, matched := true, zvar := dAdd (dMul lc m.zvar) (dMul (dSub dOne lc) (dMul dz dz)) }

/-- A slot takes the flags that the signals of its shape carry in the current epoch (R154). -/
def ModeSlot.flagged (flags : Nat → Bool × Bool) (m : ModeSlot) : ModeSlot :=
  { m with suspect := m.shape.any (fun s => (flags s.1).1), predicted := m.shape.any (fun s => (flags s.1).2) }

/-! ## Association (R155, R156) -/

/-- The cost of a pair. -/
def Dev.assocCost (d : Dev) (c : Cand) (m : ModeSlot) : DWord :=
  let rho := zAbs (zDot c.v m.v)
  dAdd (dAdd (dDiv (dAbs (dSub c.f m.f)) (dFrac (d.fld Fld.OSC_ASSOC_F_TOL) 1000))
    (dDiv (dAbs (dSub c.zeta m.zeta)) (dFrac (d.fld Fld.OSC_ASSOC_DAMP_TOL) 1000))) (dDiv (dSub dOne rho) (dFrac 1 2))

/-- Pairs in ascending cost, each assigned where its slot and its candidate are free. -/
def assignPairs : List (Nat × Nat × DWord) → List (Nat × Nat) → List (Nat × Nat)
  | [], acc => acc
  | (s, c, _) :: t, acc =>
    assignPairs t (if acc.any (fun a => decide (a.1 = s) || decide (a.2 = c)) then acc else acc ++ [(s, c)])

def Dev.modeSlot (d : Dev) (i : Nat) : Option ModeSlot := (d.osc.slots[i]?).join

def Dev.setSlotMode (d : Dev) (i : Nat) (m : Option ModeSlot) : Dev :=
  d.modOsc (fun o => { o with slots := modifyAt o.slots i (fun _ => m) })

/-- TRACKED is reached at BIRTH_N. -/
def Dev.birth (d : Dev) (m : ModeSlot) : ModeSlot :=
  if m.state = 0 ∧ d.fld Fld.OSC_ASSOC_BIRTH_N ≤ m.age then { m with state := 1 } else m

/-- The zero contributions of a new slot: three for each of the eight sets. -/
def noContribs : List Contrib := List.replicate 24 {}

/-- The candidates meet the slots of their band: the device, the slots retired, and whether a mode was born or left CANDIDATE. The
first damping mean and variance of a new mode are free values. -/
def Dev.associate (d : Dev) (c : OscCtx) (cands : List Cand) : Dev × List (Nat × ModeSlot) × Bool :=
  let slots := d.bandSlots c.b
  let occupied := slots.filterMap (fun i => (d.modeSlot i).map (fun m => (i, m)))
  let pairs := occupied.flatMap (fun s => (cands.zip (List.range cands.length)).map (fun x => (s.1, x.2, d.assocCost x.1 s.2)))
  let good := sortBy (fun (a b : Nat × Nat × DWord) => dLt a.2.2 b.2.2) (pairs.filter (fun p => dLt p.2.2 (dOfInt 3)))
  let got := assignPairs good []
  let one (acc : Dev × List (Nat × ModeSlot) × Bool) (s : Nat × ModeSlot) : Dev × List (Nat × ModeSlot) × Bool :=
    let x := acc.1
    match (got.find? (fun g => decide (g.1 = s.1))).bind (fun g => cands[g.2]?) with
    | some cand =>
      let m := c.matched x { s.2 with miss := 0, age := s.2.age + 1, state := if s.2.state = 2 then 1 else s.2.state } cand
      let m' := x.birth m
      (x.setSlotMode s.1 (some m'), acc.2.1, acc.2.2 || decide (m'.state ≠ m.state) || (decide (s.2.state = 0) && decide (m'.state ≠ 0)))
    | none =>
      let m := { s.2 with miss := s.2.miss + 1, state := 2, matched := false }
      if 16 * x.fld Fld.OSC_ASSOC_DROP_N ≤ m.miss then
        (x.setSlotMode s.1 none, acc.2.1 ++ [(s.1, { m with state := 3, contribs := noContribs })], acc.2.2)
      else (x.setSlotMode s.1 (some m), acc.2.1, acc.2.2 || decide (s.2.state = 0))
  let r1 := occupied.foldl one (d, [], false)
  let loose := (cands.zip (List.range cands.length)).filter (fun x => !got.any (fun g => decide (g.2 = x.2)))
  let eq0 (x : Cand) : DWord := dMul (dSub dOne c.lam) x.q2
  let order := sortBy (fun (a b : Cand × Nat) => dLt (snrOf (eq0 b.1) c.st.ee) (snrOf (eq0 a.1) c.st.ee)) loose
  order.foldl (fun (acc : Dev × List (Nat × ModeSlot) × Bool) x =>
    let y := acc.1
    match slots.find? (fun i => (y.modeSlot i).isNone && (d.modeSlot i).isNone) with
    | none => (y.count Reg.OSC_NO_SLOT, acc.2)
    | some i =>
      let z := y.draw
      let w := z.2.draw
      let m0 : ModeSlot :=
        { id := d.osc.nextId, state := 0, f := 0, zeta := 0, v := [], eq := 0, age := 1, miss := 0, zbar := BitVec.ofNat 64 z.1,
          zvar := BitVec.ofNat 64 w.1, snr := 0, amp := [], shape := [], suspect := false, predicted := false, matched := true, contribs := noContribs }
      let dv := w.2
      let m := dv.birth (c.matched dv { m0 with id := dv.osc.nextId } x.1)
      ((dv.setSlotMode i (some m)).modOsc (fun o => { o with nextId := (o.nextId + 1) % 65536 }), acc.2.1, true)) r1

/-! ## Confidence and thresholds (R157, R163) -/

def dampSd (m : ModeSlot) : DWord := dSqrt m.zvar

def Dev.confident (d : Dev) (m : ModeSlot) : Bool :=
  decide (m.state = 1) && decide (d.fld Fld.OSC_CONF_MIN_AGE ≤ m.age) && dGe (dFrac (d.fld Fld.OSC_CONF_SD_MAX) 10000) (dampSd m)
    && dGe m.snr (dOfInt (d.fld Fld.OSC_CONF_SNR_MIN))

/-- One contribution: `below` and `above` are its assert and release comparisons. -/
def contribStep (persist : Nat) (inside asserts releases : Bool) (c : Contrib) : Contrib :=
  if c.on then
    if releases || !inside then (if persist ≤ c.count + 1 then { on := false, count := 0 } else { c with count := c.count + 1 })
    else { c with count := 0 }
  else
    if asserts then (if persist ≤ c.count + 1 && inside then { on := true, count := 0 } else { c with count := c.count + 1 })
    else { c with count := 0 }

/-- The three contributions of a slot to set `k`. -/
def Dev.setContribs (d : Dev) (m : ModeSlot) (k : Nat) : List Contrib :=
  let lo := d.fld (Fld.OSC_THRk_F_F_LO k)
  let hi := d.fld (Fld.OSC_THRk_F_F_HI k)
  let old (j : Nat) : Contrib := (m.contribs[3 * k + j]?).getD {}
  if hi ≤ lo then [{}, {}, {}]
  else
    let inside := dGe m.f (dFrac lo 100) && dLt m.f (dFrac hi 100)
    let persist := d.fld (Fld.OSC_THRk_P_PERSIST k)
    let live := d.confident m && m.matched
    let damp (t j : Nat) : Contrib :=
      if live then
        contribStep persist inside (dLt m.zeta (dFrac t 1000)) (dGe m.zeta (dFrac (t + d.fld (Fld.OSC_THRk_D_HYST k)) 1000)) (old j)
      else old j
    let limit := dOfF32 (d.reg (Reg.OSC_THRk_A k))
    let amp := (m.amp[d.fld (Fld.OSC_THRk_P_AMP_CLASS k)]?).getD 0
    let ampC : Contrib :=
      if !d.bit (Fld.OSC_THRk_P_AMP_EN k) then {}
      else if live then contribStep persist inside (dLt limit amp) (dGe (dMul (dFrac 9 10) limit) amp) (old 2)
      else old 2
    [damp (d.fld (Fld.OSC_THRk_D_DAMP_WARN k)) 0, damp (d.fld (Fld.OSC_THRk_D_DAMP_ALARM k)) 1, ampC]

/-- The contributions of a slot to set `k` without those of a disabled set and of an amplitude alarm that is not enabled. -/
def Dev.liveContribs (d : Dev) (m : ModeSlot) (k : Nat) : List Contrib :=
  let old (j : Nat) : Contrib := (m.contribs[3 * k + j]?).getD {}
  if d.fld (Fld.OSC_THRk_F_F_HI k) ≤ d.fld (Fld.OSC_THRk_F_F_LO k) then [{}, {}, {}]
  else [old 0, old 1, if d.bit (Fld.OSC_THRk_P_AMP_EN k) then old 2 else {}]

/-- The contributions of a band's slots after an update. -/
def Dev.updateContribs (d : Dev) (b : Nat) : Dev :=
  (d.bandSlots b).foldl (fun (x : Dev) i =>
    match x.modeSlot i with
    | none => x
    | some m => x.setSlotMode i (some { m with contribs := (List.range 8).flatMap (x.setContribs m) })) d

/-- The contributions of a band are cleared, and its tracker starts afresh at its next update. -/
def Dev.resetBand (d : Dev) (b : Nat) : Dev :=
  let d1 := (d.bandSlots b).foldl (fun (x : Dev) i =>
    x.setSlotMode i ((x.modeSlot i).map (fun m => { m with contribs := noContribs }))) d
  (d1.setBand b { d1.band b with resetDue := true }).modOsc (fun o => { o with resetNote := true })

/-! ## The condition word (R164, R165) -/

/-- A ranking is valid: its position has held its mode for WIN seconds (R162). -/
def Dev.rankValid (d : Dev) (r : RankSt) (e : Nat) : Bool := r.mode.isSome && decide (r.since + d.fld Fld.OSC_DEF_WIN * d.rate ≤ e)

def Dev.bandValid (d : Dev) (b : Nat) : Bool :=
  d.bandOn b && decide (d.fld Fld.OSC_CONF_MIN_AGE ≤ (d.band b).updates) && !(d.band b).skipped && !(d.band b).resetDue

/-- The condition word after an update. -/
def Dev.oscWord (d : Dev) (e : Nat) : Nat :=
  let modes := d.osc.slots.filterMap (fun m => m)
  let low := maskOf ((List.range 24).filter (fun i => modes.any (fun m => ((m.contribs[i]?).getD {}).on)))
  let lag := d.osc.em.lag || d.osc.sso.lag
  let rank := d.bit Fld.OSC_CTRL_DEF_EN && (d.osc.ranks.take (d.fld Fld.OSC_DEF_N_RANK)).any (fun r => d.rankValid r e)
  low + 2 ^ 24 * b2n (d.bandValid 0) + 2 ^ 25 * b2n (d.bandValid 1) + 2 ^ 26 * b2n lag + 2 ^ 27 * b2n rank

/-- The word takes effect: in the registers, from which each local seal latches it (R165). -/
def Dev.setOscWord (d : Dev) (e w : Nat) : Dev :=
  let d1 := (((d.setRegN Reg.OSC_COND w).setBit Fld.OSC_STATUS_TRACKER_VALID (w.testBit 24)).setBit Fld.OSC_STATUS_SSO_VALID (w.testBit 25)).setBit
    Fld.OSC_STATUS_LAG (w.testBit 26)
  (d1.setFld Fld.OSC_STATUS_N_MODES ((d1.osc.slots.filterMap (fun m => m)).length)).modOsc (fun o =>
    { o with updated := true, wordEpoch := some e })

/-! ## Energy-flow ranking (R161, R162) -/

def rankBest (l : List (Nat × ModeSlot)) : List (Nat × ModeSlot) :=
  sortBy (fun (a b : Nat × ModeSlot) => dLt b.2.eq a.2.eq) l

/-- The modes to rank: the confident electromechanical modes with the largest energy. -/
def Dev.rankedModes (d : Dev) : List (Nat × ModeSlot) :=
  (rankBest ((d.bandSlots 0).filterMap (fun i => (d.modeSlot i).bind (fun m => if d.confident m then some (i, m) else none)))).take
    (d.fld Fld.OSC_DEF_N_RANK)

/-- One branch at one ranked position. -/
def Dev.rankBranch (d : Dev) (s : SealInfo) (e : Nat) (f : DWord) (k : RankSt) (b : Nat × DefEntry) : RankSt :=
  let rate := dOfInt d.rate
  let ld := Config.f64Exp (dNeg (dFrac 1 (d.fld Fld.OSC_DEF_WIN * d.rate)))
  let old := k.slope.getD b.1 0
  let next (dw : DWord) : DWord := dAdd (dMul ld old) (dMul (dMul (dSub dOne ld) dw) rate)
  match d.slotVal s e b.2.vSlot, d.slotVal s e b.2.iSlot with
  | some v, some i =>
    let v := cpxOf v
    let pq := zMul (zScale (dOfF32 b.2.factor) v) (zConj (cpxOf i))
    let sc (x : DWord) : DWord := dDiv x (dOfInt 1000000)
    let th := unwrapTo (k.theta.getD b.1 0) (Config.f64Atan2 v.2 v.1)
    let lv := Config.f64Log (zAbs v)
    let width := dMax (dDiv (dMul f (dOfInt (d.fld Fld.OSC_DEF_BW_PCT))) (dOfInt 100)) (dFrac 1 100)
    let co := resonator f width rate
    let st := k.bands.getD b.1 []
    let z (n : Nat) (x : DWord) : DWord × Delay := sectionStep co ((st[n]?).getD (0, 0)) x
    let p := z 0 (sc pq.1)
    let q := z 1 (sc pq.2)
    let t := z 2 th
    let l := z 3 lv
    let prev := k.prev.getD b.1 (0, 0)
    let dw := dAdd (dMul p.1 (dSub t.1 prev.1)) (dMul q.1 (dSub l.1 prev.2))
    { k with slope := k.slope.put b.1 (next dw), prev := k.prev.put b.1 (t.1, l.1), theta := k.theta.put b.1 th,
             bands := k.bands.put b.1 [p.2, q.2, t.2, l.2] }
  | _, _ => { k with slope := k.slope.put b.1 (next 0) }

/-- The ranking of an update. -/
def Dev.rank (d : Dev) (s : SealInfo) (e : Nat) : Dev :=
  let modes := d.rankedModes
  let ranks := (List.range 4).map (fun j =>
    match modes[j]? with
    | none => ({} : RankSt)
    | some (_, m) =>
      let old := (d.osc.ranks[j]?).getD {}
      let k : RankSt := if old.mode = some m.id then old else { mode := some m.id, since := e }
      d.osc.defs.foldl (d.rankBranch s e m.f) k)
  d.modOsc (fun o => { o with ranks := ranks })

/-- The source area of a position and its score. -/
def Dev.sourceArea (d : Dev) (k : RankSt) : Nat × DWord :=
  let total (of_ : DefEntry → Nat) (a : Nat) : DWord :=
    d.osc.defs.foldl (fun (t : DWord) (b : Nat × DefEntry) => if of_ b.2 = a then dAdd t (k.slope.getD b.1 0) else t) 0
  let score (a : Nat) : DWord := dSub (total (fun b => b.areaFrom) a) (total (fun b => b.areaTo) a)
  (List.range 32).foldl (fun m a => let s := score a; if dLt m.2 s then (a, s) else m) (0, score 0)

/-! ## Reports (R168 to R170) -/

/-- A value rounded and saturated to 16 bits of two's complement. -/
def sat16 (x : DWord) : Nat := toTwos 16 (satSigned 16 (dIntSat x))

def Dev.modeBytes (d : Dev) (i : Nat) (m : ModeSlot) : Bytes :=
  let band := if (d.bandSlots 0).contains i then 0 else 1
  let damp := max (-1000) (min 1000 (dIntSat (dMul m.zeta (dOfInt 1000))))
  let amps := if band = 0 then m.amp else m.amp.take 2
  let shape := m.shape.take 16
  [BitVec.ofNat 8 (i + 64 * m.state),
   BitVec.ofNat 8 (band + 2 * b2n (d.confident m) + 4 * b2n m.suspect + 8 * b2n m.predicted)] ++
  leBytes 2 m.id ++ leBytes 4 (fOfF64 m.f).toNat ++ leBytes 2 (toTwos 16 damp) ++
  leBytes 2 (sat 65535 (dIntSat (dMul (dampSd m) (dOfInt 10000))).toNat) ++ leBytes 2 (sat16 (dMul m.snr (dOfInt 10))) ++
  leBytes 2 (sat 65535 m.age) ++
  (List.range 4).flatMap (fun k => leBytes 4 (fOfF64 ((amps[k]?).getD 0)).toNat) ++
  shape.flatMap (fun s => leBytes 2 s.1 ++ leBytes 2 s.2.1 ++ leBytes 2 s.2.2) ++
  (List.replicate (16 - shape.length) [0xFF, 0xFF, 0, 0, 0, 0]).flatten

/-- The mode report of an update. -/
def Dev.modeReport (d : Dev) (e used : Nat) (retired : List (Nat × ModeSlot)) : Bytes :=
  let listed := (List.range 64).filterMap (fun i =>
    match d.modeSlot i with
    | some m => if m.state = 0 then none else some (i, m)
    | none => retired.find? (fun r => decide (r.1 = i)))
  let w := d.regN Reg.OSC_COND
  [0x04, BitVec.ofNat 8 d.deviceNo] ++
  leBytes 2 (b2n (w.testBit 24) + 2 * b2n (w.testBit 25) + 4 * b2n (w.testBit 26) + 8 * b2n d.osc.resetNote) ++
  leBytes 4 (e % 2 ^ 32) ++ leBytes 2 listed.length ++ leBytes 2 used ++ leBytes 4 w ++ leBytes 4 (d.regN Reg.OSC_UPDATES_LO) ++ zeros 12 ++
  listed.flatMap (fun x => d.modeBytes x.1 x.2)

/-- The ranking report of an update. -/
def Dev.rankReport (d : Dev) (e : Nat) : Bytes :=
  let held := (d.osc.ranks.take (d.fld Fld.OSC_DEF_N_RANK)).filterMap (fun k => k.mode.bind (fun id =>
    ((List.range 64).find? (fun i => (d.modeSlot i).any (fun m => decide (m.id = id)))).map (fun i => (i, id, k))))
  let one (x : Nat × Nat × RankSt) : Bytes :=
    let k := x.2.2
    let src := d.sourceArea k
    let top := (sortBy (fun (a b : Nat × DefEntry) => dLt (dAbs (k.slope.getD b.1 0)) (dAbs (k.slope.getD a.1 0))) d.osc.defs).take 8
    [BitVec.ofNat 8 x.1, BitVec.ofNat 8 (if d.rankValid k e then src.1 else 0xFF)] ++ leBytes 2 x.2.1 ++ leBytes 4 (fOfF64 src.2).toNat ++ zeros 8 ++
    top.flatMap (fun b => [BitVec.ofNat 8 b.1, BitVec.ofNat 8 b.2.areaFrom] ++ leBytes 2 b.2.islBranch ++ leBytes 4 (fOfF64 (k.slope.getD b.1 0)).toNat) ++
    zeros (64 - 8 * top.length)
  [0x05, BitVec.ofNat 8 d.deviceNo, BitVec.ofNat 8 held.length, 0] ++ leBytes 4 (e % 2 ^ 32) ++ zeros 8 ++ held.flatMap one

/-- The reports of an update are formed; where R168 asks for it they go to the event ring. -/
def Dev.oscReport (d : Dev) (e used : Nat) (place : Bool) (retired : List (Nat × ModeSlot)) : Dev :=
  let m := d.modeReport e used retired
  let r := if d.fld Fld.OSC_DEF_N_RANK = 0 then [] else d.rankReport e
  let d1 := d.modOsc (fun o => { o with report := some (m, r) })
  if place then
    let d2 := d1.modOsc (fun o => { o with resetNote := false })
    if r.isEmpty then d2.eventRecord (fun _ => m) else (d2.eventRecord (fun _ => m) false).eventRecord (fun _ => r)
  else d1

/-! ## Updates (R150, R159, R166) -/

/-- The next epoch of a band, where it is sealed. -/
def Dev.nextUpdate (d : Dev) (b : Nat) : Option Nat :=
  let lo := match (d.band b).next with
    | none => d.crt.first
    | some n => if d.crt.nextSeal < n then d.crt.first else max n d.crt.first
  if d.bandOn b && decide (lo < d.crt.nextSeal) && d.craterRuns then some lo else none

/-- The epochs from `e` on whose update is late, those already counted left out (R166). -/
def Dev.lateUpdates (d : Dev) (b e : Nat) : List Nat :=
  let lo := match (d.band b).lagEpoch with | some k => if k < d.crt.nextSeal then max e (k + 1) else e | none => e
  ((List.range (d.crt.nextSeal - lo)).map (fun i => lo + i)).filter (fun k => decide (d.deadline (k + 1) ≤ d.g16))

/-- Each late update sets LAG and is counted once; a backlog of 8 epochs resets the tracker of the band (R166). OSC_STATUS.LAG follows
with the condition word of the next update, as whose bit it reads (R171). -/
def Dev.checkLag (d : Dev) (b : Nat) : Dev :=
  match d.nextUpdate b with
  | none => d
  | some e =>
    let late := d.lateUpdates b e
    let d1 := match late.getLast? with
      | none => d
      | some k => (d.setBand b { d.band b with lag := true, lagEpoch := some k }).count Reg.OSC_OVERRUN late.length
    let back := d1.crt.nextSeal - e
    if 8 ≤ back then
      let d2 := d1.resetBand b
      ((d2.setBand b { d2.band b with next := some d2.crt.nextSeal }).count Reg.OSC_RESETS).event .trackerReset b back
    else d1

/-- An update has completed in time (R166). -/
def Dev.clearLag (d : Dev) (b e : Nat) : Dev :=
  if d.g16 < d.deadline (e + 1) then d.setBand b { d.band b with lag := false } else d

/-- The tracker starts where a start is due (R152). -/
def Dev.beginBand (d : Dev) (b e : Nat) (sigs : List (Nat × SigEntry)) : Dev :=
  if (d.band b).resetDue then
    let d1 := (d.bandSlots b).foldl (fun (x : Dev) i => x.setSlotMode i none) d
    d1.setBand b (startBand (d1.oscDim b) sigs (d1.settleLeft b e) (d1.band b))
  else d

/-- A signal that is no longer valid leaves the tracker's state. -/
def dropSigs (sigs : List (Nat × SigEntry)) (s : BandSt) : BandSt :=
  let has (n : Nat) : Bool := sigs.any (fun g => decide (g.1 = n))
  { s with w := s.w.keep (fun n _ => has n), pre := s.pre.keep (fun n _ => has n) }

/-- Association and thresholds after the last step of an update, or nothing of them where it was skipped. -/
def Dev.afterSteps (d : Dev) (c : OscCtx) (x1 : Option Vec) : Dev × List (Nat × ModeSlot) × Bool :=
  match x1 with
  | none => (d, [], false)
  | some x =>
    let r := d.associate c (d.candidates c.b c.st x)
    (r.1.updateContribs c.b, r.2)

/-- The flags of R154 in every occupied slot, and no contribution to a set that is disabled or whose amplitude alarm is off (R163). -/
def Dev.refreshModes (d : Dev) (s : SealInfo) (e : Nat) : Dev :=
  (List.range 64).foldl (fun (x : Dev) i => x.setSlotMode i ((x.modeSlot i).map (fun m =>
    { m.flagged (x.flagsAt s e) with contribs := (List.range 8).flatMap (x.liveContribs m) }))) d

/-- The condition word and the report of an update. `tick` is the band's count of updates for REPORT_DIV. -/
def Dev.closeUpdate (d0 : Dev) (s : SealInfo) (e used tick : Nat) (gone : List (Nat × ModeSlot)) (born : Bool) (hold : Bool) : Dev :=
  let d := d0.refreshModes s e
  let retired := gone.map (fun x => (x.1, x.2.flagged (d.flagsAt s e)))
  let old := d.regN Reg.OSC_COND
  let w := d.oscWord e
  let div := d.fld Fld.OSC_CFG_REPORT_DIV
  let place := decide (old ≠ w) || born || !retired.isEmpty || (decide (div ≠ 0) && decide (tick % max 1 div = 0))
  let d1 := d.setOscWord e w
  if hold then d1.modOsc (fun o => { o with ranking := some (e, used, place, retired) }) else d1.oscReport e used place retired

/-- The ranking of the last update, its condition word and its reports (R161). -/
def Dev.energyRanking (d : Dev) : Dev :=
  match d.osc.ranking with
  | none => d
  | some (e, used, place, retired) =>
    let d1 := d.modOsc (fun o => { o with ranking := none })
    match d1.sealOf e with
    | none => d1.oscReport e used place retired
    | some s =>
      let d2 := d1.rank s e
      let old := d2.regN Reg.OSC_COND
      let w := d2.oscWord e
      (if w = old then d2 else d2.setOscWord e w).oscReport e used (place || decide (w ≠ old)) retired

/-- The entries of OSC_DEF_SET take effect at an update (R160). -/
def Dev.takeDefs (d : Dev) : Dev := d.modOsc (fun o => { o with defs := o.defsNext })

/-- The electromechanical update of the next epoch (R150). -/
def Dev.trackUpdate (d : Dev) : Dev :=
  let d0 := (d.energyRanking.takeDefs).checkLag 0
  match d0.nextUpdate 0 with
  | none => d0
  | some e =>
    match d0.sealOf e with
    | none => d0
    | some s =>
      let sigs := d0.bandSigs 0 e
      let d1 := d0.beginBand 0 e sigs
      let r := d1.oscDim 0
      let st0 := dropSigs sigs (d1.band 0)
      let pre := sigs.map (fun g => (g.1, d1.preEm s e g.2 (d1.preOf 0 e st0 g.1 g.2)))
      let fresh (n : Nat) (g : SigEntry) : Bool := match st0.pre.find n with | some p => decide (p.entry ≠ some g) | none => true
      let st1 := { st0 with
        pre := pre.map (fun p => (p.1, p.2.1))
        w := st0.w.keep (fun n _ => !sigs.any (fun g => decide (g.1 = n) && fresh n g.2)) }
      let res := trackStep r (d1.lam 0) (d1.fld Fld.OSC_TRK_MISS_LIM) (pre.map (fun p => (p.1, p.2.2.1, p.2.2.2))) st1
      let missing := (pre.filter (fun p => p.2.2.2)).map (fun p => p.1)
      let d2 := (((d1.setBand 0 { res.1 with next := some (e + 1) }).count64 Reg.OSC_UPDATES_LO).count Reg.OSC_SKIPPED (b2n res.2.isNone)).clearLag 0 e
      let ctx : OscCtx :=
        { b := 0, r := r, lam := d2.lam 0, sigs := sigs, missing := missing, st := d2.band 0 }
      let a := d2.afterSteps ctx res.2
      let hold := a.1.bit Fld.OSC_CTRL_DEF_EN && decide (0 < a.1.fld Fld.OSC_DEF_N_RANK) && res.2.isSome
      let used := sigs.length - missing.length
      (a.1.modOsc (fun o => { o with used := used })).closeUpdate s e used (a.1.reg64 Reg.OSC_UPDATES_LO) a.2.1 a.2.2 hold

/-- Input samples of a sub-synchronous signal in a record: value and whether received. -/
def Dev.ssoInputs (d : Dev) (s : SealInfo) (e : Nat) (g : SigEntry) : List (Option DWord) :=
  match d.slotIn s e g.slot with
  | none => []
  | some x =>
    match x.1.body with
    | .samples got vals =>
      (got.zip ((vals[x.2]?).getD [])).map (fun y => if y.1 && d.usable x.1 then some (dOfF32 y.2.1) else none)
    | _ => []

/-- Rate of a sampled-value stream that a signal reads. -/
def Dev.ssoRate (d : Dev) (e : Nat) (g : SigEntry) : Nat := ((d.entryAt (d.chan g.slot).stream e).map (fun x => x.rate)).getD 4800

/-- The decimated samples of one signal over an epoch: at each instant its filtered value, normalised, and whether it is missing. -/
def Dev.preSso (d : Dev) (s : SealInfo) (e : Nat) (g : SigEntry) (p : SigPre) : SigPre × List (Word × Bool) :=
  let rate := d.ssoRate e g
  let dec := rate / 480
  let ins := d.ssoInputs s e g
  let first := firstSample d.rate rate e
  let n := nsampOf d.rate rate e
  let edges := d.bandEdges 1
  let r480 := dOfInt 480
  let nom := dOfInt (if d.bit Fld.CRT_CFG_F_NOM then 60 else 50)
  let settling := decide (0 < p.settle)
  let step (acc : SigPre × List (Word × Bool)) (k : Nat) : SigPre × List (Word × Bool) :=
    let q := acc.1
    let x := (ins[k]?).join
    let v := x.getD q.zlast
    let win := ((v, x.isSome) :: q.fir).take 64
    let q1 := { q with zlast := v, fir := win }
    if (first + k) % dec = 0 then
      let y := (win.zip (List.range win.length)).foldl (fun t w => dAdd t (dMul (Config.ssoTap rate w.2) w.1.1)) 0
      let miss := win.any (fun w => !w.2) || settling
      let a := sectionStep (notch nom (dOfInt 4) r480) q1.notch1 y
      let b := sectionStep (notch (dMul (dOfInt 2) nom) (dOfInt 4) r480) q1.notch2 a.1
      let c := sectionStep (butterworth true (dFrac edges.1 100) r480) q1.hp b.1
      let f := sectionStep (butterworth false (dFrac edges.2 100) r480) q1.lp c.1
      let z := normStep (d.lam 1) g.floor f.1 { q1 with notch1 := a.2, notch2 := b.2, hp := c.2, lp := f.2 }
      (z.1, acc.2 ++ [(if miss then 0 else z.2, miss)])
    else (q1, acc.2)
  let r := (List.range n).foldl step (p, [])
  ({ r.1 with settle := r.1.settle - 1 }, r.2)

/-- The sub-synchronous update of the next epoch (R159). -/
def Dev.ssoUpdate (d : Dev) : Dev :=
  let d0 := d.checkLag 1
  match d0.nextUpdate 1 with
  | none => d0
  | some e =>
    match d0.sealOf e with
    | none => d0
    | some s =>
      let sigs := d0.bandSigs 1 e
      let d1 := d0.beginBand 1 e sigs
      let r := d1.oscDim 1
      let st0 := dropSigs sigs (d1.band 1)
      let fresh (n : Nat) (g : SigEntry) : Bool := match st0.pre.find n with | some p => decide (p.entry ≠ some g) | none => true
      let pre := sigs.map (fun g => (g.1, d1.preSso s e g.2 (d1.preOf 1 e st0 g.1 g.2)))
      let st1 := { st0 with
        pre := pre.map (fun p => (p.1, p.2.1))
        w := st0.w.keep (fun n _ => !sigs.any (fun g => decide (g.1 = n) && fresh n g.2)) }
      let instants := nsampOf d1.rate 480 e
      let lam := d1.lam 1
      let lim := d1.fld Fld.OSC_TRK_MISS_LIM
      let res := (List.range instants).foldl (fun (acc : BandSt × Option Vec × Nat) k =>
        let ys := pre.map (fun p => let y := (p.2.2[k]?).getD (0, true); (p.1, y.1, y.2))
        let t := trackStep r lam lim ys acc.1
        (t.1, t.2, acc.2.2 + b2n t.2.isNone)) (st1, none, 0)
      let missing := (pre.filter (fun p => ((p.2.2.getLast?).map (fun y => y.2)).getD true)).map (fun p => p.1)
      let d2 := ((d1.setBand 1 { res.1 with next := some (e + 1), evals := res.1.evals + 1 }).count Reg.OSC_SKIPPED res.2.2).clearLag 1 e
      let ctx : OscCtx :=
        { b := 1, r := r, lam := lam, sigs := sigs, missing := missing, st := d2.band 1 }
      let a := d2.afterSteps ctx res.2.1
      a.1.closeUpdate s e a.1.osc.used (a.1.band 1).evals a.2.1 a.2.2 false

end Sys2Proof.Machine
end

