-- ==== Sys2Proof/Machine/AcqOps.lean ====
section
/-! DEFINITION. The sample chain of local acquisition: ticks, gap repair, calibration correction, the filters, and the values
that the records, Geyser and the energy block take from it (R213 to R230). -/

/-! ## Sample frames (R215) -/

namespace Sys2Proof

open Machine

def FeFrame.seq (f : FeFrame) : Nat := beNat (slice f.bytes 0 1)
def FeFrame.ovr (f : FeFrame) : Bool := (beNat (slice f.bytes 1 1)).testBit 0
def FeFrame.refOk (f : FeFrame) : Bool := (beNat (slice f.bytes 1 1)).testBit 1

/-- The samples of ADC0 to ADC12 in counts. -/
def FeFrame.samples (f : FeFrame) : List Int := (List.range 13).map (fun a => ofTwos 24 (beNat (slice f.bytes (2 + 3 * a) 3)))

def FeFrame.hkSel (f : FeFrame) : Nat := beNat (slice f.bytes 41 1) % 16
def FeFrame.hk (f : FeFrame) : Nat := beNat (slice f.bytes 42 2)

/-- The frame has its 46 bytes, and its CRC checks. -/
def FeFrame.crcOk (f : FeFrame) : Bool :=
  f.codeOk && decide (f.bytes.length = 46) && decide (crc16 (f.bytes.take 44) = beNat (slice f.bytes 44 2))

end Sys2Proof

namespace Sys2Proof.Machine

open Sys2Proof

/-! ## Ticks (R213, R226, R248) -/

/-- Time of a raw sample instant in 2⁻¹⁶ ns: 3,906.25 ns each. -/
def tick16 : Nat := 256000000

/-- The newest raw sample instant at or before a G-time. -/
def tickOf (g : Nat) : Nat := g / tick16

/-- Nominal frequency in Hz. -/
def Dev.f0 (d : Dev) : Nat := if d.bit Fld.CRT_CFG_F_NOM then 60 else 50

/-- `n` nominal cycles in ticks. -/
def Dev.cycleTicks (d : Dev) (n : Nat) : Nat := n * 256000 / d.f0

def Dev.feMod (d : Dev) (m : Nat) : FeModSt := (d.acq.mods[m]?).getD {}

def Dev.setFeMod (d : Dev) (m : Nat) (s : FeModSt) : Dev := d.modAcq (fun a => { a with mods := modifyAt a.mods m (fun _ => s) })

def Dev.updFeMod (d : Dev) (m : Nat) (f : FeModSt → FeModSt) : Dev := d.setFeMod m (f (d.feMod m))

def FeModSt.adc (s : FeModSt) (a : Nat) : AdcSt := (s.adcs[a]?).getD {}

def FeModSt.modAdc (s : FeModSt) (a : Nat) (f : AdcSt → AdcSt) : FeModSt := { s with adcs := modifyAt s.adcs a f }

/-- The bytes of the identity memory of module `m` (R548). -/
def Dev.idWord (d : Dev) (m off : Nat) : Nat := beNat (slice (d.inv.mem.getD (2 + m) []) off 4)

/-- L_MOD in ps, and the certified values of the reference. -/
def Dev.lMod (d : Dev) (m : Nat) : Nat := d.idWord m 32
def Dev.refPos (d : Dev) (m : Nat) : Int := ofTwos 32 (d.idWord m 36)
def Dev.refNeg (d : Dev) (m : Nat) : Int := ofTwos 32 (d.idWord m 40)
def Dev.acPhase (d : Dev) (m : Nat) : Int := ofTwos 32 (d.idWord m 52)

def Dev.measuring (d : Dev) (m : Nat) : Bool := d.fbit Fld.ACQ_STATUS_MEAS m

/-! ## Numbers -/

/-- A fraction in binary64. -/
def dOfRat (q : Rat) : DWord := dDiv (dOfInt q.num) (dOfInt q.den)

/-- A number of 2⁻²⁴ count in binary64 counts. -/
def dOfCount (y : Int) : DWord := dDiv (dOfInt y) (dOfInt (2 ^ 24))

/-- e^(−j 2π a / b), the argument taken within one turn. -/
def turnBack (a b : Nat) : Cpx :=
  let r := a % b
  if r = 0 then (dOne, 0)
  else
    let x := dDiv (dMul dTwoPi (dOfInt r)) (dOfInt b)
    (Config.f64Cos x, dNeg (Config.f64Sin x))

def dWrap (x : DWord) : DWord := if dLt dPi x then dSub x dTwoPi else if dLt dPi (dNeg x) || decide (x = dNeg dPi) then dAdd x dTwoPi else x

/-- The argument of a complex number. -/
def zArg (z : Cpx) : DWord := Config.f64Atan2 z.2 z.1

def dSqrt2 : DWord := dSqrt (dOfInt 2)

/-! ## Calibration correction (R223, R240) -/

/-- `a` moved toward `b` by the part `n` / `m` of their difference. -/
def dLerp (a b : DWord) (n m : Nat) : DWord := dAdd a (dDiv (dMul (dSub b a) (dOfInt n)) (dOfInt m))

/-- The values of an ADC in force at a tick: on a ramp they move linearly over 256,000 raw samples. -/
def AdcSt.valsAt (a : AdcSt) (k : Nat) : CalVals :=
  match a.ramp with
  | none => a.vals
  | some (k0, lo, hi) =>
    if k ≤ k0 then lo
    else if k0 + 256000 ≤ k then hi
    else ⟨dLerp lo.gain hi.gain (k - k0) 256000, dLerp lo.offset hi.offset (k - k0) 256000, dLerp lo.delay hi.delay (k - k0) 256000⟩

/-- DELAY in 1/1,024 of a raw sample, within ±8 raw samples. -/
def delayUnits (ns : DWord) : Int :=
  let u := dIntSat (dDiv (dMul ns (dOfInt 262144)) (dOfInt 1000000))
  max (-8192) (min 8192 u)

/-- The corrected sample of an ADC at a tick, in units of 2⁻²⁴ count in 56 bits; `top` is the tick of the newest raw sample. A sample
that a negative DELAY asks for and that is not there yet is a free value (log 57). -/
def AdcSt.corrected (a : AdcSt) (top k : Nat) : Int :=
  let v := a.valsAt k
  let u := delayUnits v.delay
  let whole := u / 1024
  let frac := (u % 1024).toNat
  let off := dRat v.offset
  let sum : Rat := (List.range 8).foldl (fun (s : Rat) (j : Nat) =>
    let at_ : Int := (k : Int) - whole - 4 + (j : Int)
    let x : Rat :=
      if (top : Int) < at_ then ((Config.aheadSamp (((a.raw.head?).map (fun r => r.x)).getD 0) (at_ - top).toNat : Int) : Rat)
      else ((((a.raw[((top : Int) - at_).toNat]?).map (fun r => r.x)).getD 0 : Int) : Rat)
    s + ((Config.farrowTap frac j : Int) : Rat) * (x - off)) 0
  satSigned 56 (dRat v.gain * sum).floor

/-- The marks of the raw sample of a tick. -/
def AdcSt.rawAt (a : AdcSt) (top k : Nat) : RawSamp := if top < k then ⟨0, false, false, true⟩ else (a.raw[top - k]?).getD ⟨0, false, false, true⟩

/-! ## The DC-blocking stage (R224) -/

/-- The coarse magnitude. -/
def FineSamp.mag (f : FineSamp) : DWord := zAbs (f.re, f.im)

def FineSamp.ang (f : FineSamp) : DWord := zArg (f.re, f.im)

/-- Full scale RMS: 2²³ / √2 counts. -/
def dFullRms : DWord := dDiv (dOfInt 8388608) dSqrt2

/-- The magnitude changed by more than FREEZE_STEP percent of full scale within one nominal cycle of fine samples. -/
def Dev.fastChange (d : Dev) (fine : List FineSamp) : Bool :=
  match fine.head?, fine[12800 / d.f0]? with
  | some a, some b =>
    dLt (dDiv (dMul dFullRms (dOfInt (d.fld Fld.FLT_CFG_FREEZE_STEP))) (dOfInt 100)) (dAbs (dSub a.mag b.mag))
  | _, _ => false

/-- Stage 2 of channel `ch` for the corrected sample of a tick. -/
def Dev.stage2 (d : Dev) (ch k : Nat) (x : Int) (marks : Samp) (s : FilsinSt) : FilsinSt :=
  let s1 := if marks.ovr then { s with ovrAt := some k, freezeUntil := max s.freezeUntil (k + 1 + d.cycleTicks (d.fld Fld.FLT_CFG_FREEZE_HOLD)) } else s
  let frozen := decide (k < s1.freezeUntil)
  let on := d.bit (Fld.FLT_CHc_DCB_EN ch)
  let dc : Int := if on && !frozen then s1.dc + (x - s1.dc) / (2 ^ (17 + d.fld (Fld.FLT_CHc_DCB_TAU ch)) : Nat) else s1.dc
  let y := if on then x - dc else x
  { s1 with dc := dc, hist := ({ marks with y := y, frozen := on && frozen } :: s1.hist).take 200000 }

/-! ## One raw tick of a module (R219 to R224, R237, R238) -/

/-- A sample joins an accumulator: `v` in units of 2⁻²⁴ count, its fundamental taken at `hz`. -/
def CalAcc.add (a : CalAcc) (v : Int) (ovr : Bool) (k hz : Nat) : CalAcc :=
  let z := zScale (dOfCount v) (turnBack (k * hz) 256000)
  ⟨a.n + 1, a.sum + v, dAdd a.re z.1, dAdd a.im z.2, a.ovr + b2n ovr⟩

/-- The window takes the samples of a tick: the raw ones for a reference source, the corrected ones for a match. -/
def Dev.feedWin (d : Dev) (isMatch : Bool) (k : Nat) (s : FeModSt) : FeModSt :=
  match s.win with
  | none => s
  | some w =>
    let mine := match w.what with | .match_ _ => isMatch | _ => !isMatch
    if mine && decide (w.from_ ≤ k) && decide (k < w.from_ + w.len) then
      let hz := if isMatch then d.f0 else 1000
      w.adcs.foldl (fun (x : FeModSt) a => x.modAdc a (fun c =>
        let raw := c.rawAt s.top k
        let v : Int := if isMatch then c.corrected s.top k else raw.x * 2 ^ 24
        { c with acc := c.acc.add v raw.ovr k hz })) s
    else s

/-- The weight of S in input `i` at a tick, of 2,560: the last crossfade moves it sample by sample, and it stays where that one ended
(R237). -/
def FeModSt.weight (s : FeModSt) (i k : Nat) : Nat :=
  match s.fade with
  | some (j, k0, toS) => if j = i then (let n := min 2560 (k - k0); if toS then n else 2560 - n) else 0
  | none => 0

/-- Stage 1 of input `i` at a tick: the active ADC, or both in a crossfade over 2,560 raw samples (R237). The marks are those of the
raw samples that it takes. -/
def FeModSt.active (s : FeModSt) (i k : Nat) : Int × Samp :=
  let a := s.adc i
  let sh := s.adc 12
  let ra := a.rawAt s.top k
  let rs := sh.rawAt s.top k
  let w := s.weight i k
  let of (r : RawSamp) (onS : Bool) : Samp := { y := 0, ovr := r.ovr, rep := r.rep, shadow := onS, refOk := r.refOk }
  if w = 0 then (a.corrected s.top k, of ra (s.fade.any (fun f => decide (f.1 = i) && f.2.2 && decide (k = f.2.1))))
  else if w = 2560 then (sh.corrected s.top k, of rs true)
  else (((2560 - w : Int) * a.corrected s.top k + (w : Int) * sh.corrected s.top k) / 2560, of { ra with ovr := ra.ovr || rs.ovr } true)

/-- One raw sample of all 13 ADCs enters the chain as tick `k`; stage 2 follows four ticks behind. -/
def Dev.rawTick (d : Dev) (m k : Nat) (xs : List RawSamp) (s : FeModSt) : FeModSt :=
  let s1 := { s with top := k, adcs := (s.adcs.zip xs).map (fun p => { p.1 with raw := (p.2 :: p.1.raw).take 32 }) }
  let s2 := d.feedWin false k s1
  let y := k - 4
  let s3 := d.feedWin true y s2
  if d.measuring m && decide (s3.measFrom ≤ y) then
    { s3 with yTop := y, chans := (s3.chans.zipIdx).map (fun (p : FilsinSt × Nat) =>
        let v := s3.active p.2 y
        d.stage2 (12 * m + p.2) y v.1 v.2 p.1) }
  else s3

/-- The repaired samples of a gap: linear interpolation for each ADC between the last good sample and the next. They carry neither over
range nor a failed reference, since a repaired gap never changes QUAL (R219). -/
def gapSample (old new : List RawSamp) (j n : Nat) : List RawSamp :=
  (old.zip new).map (fun p => ⟨p.1.x + (p.2.x - p.1.x) * (j : Int) / (n : Int), false, true, true⟩)

/-- The chain takes a good frame as tick `k`, repairing the gap since `last`. -/
def Dev.feedFrame (d : Dev) (m last k : Nat) (xs : List RawSamp) (s : FeModSt) : FeModSt :=
  let old := s.adcs.map (fun a => (a.raw.head?).getD ⟨0, false, false, true⟩)
  let n := k - last
  d.rawTick m k xs ((List.range (n - 1)).foldl (fun (x : FeModSt) j => d.rawTick m (last + j + 1) (gapSample old xs (j + 1) n) x) s)

/-! ## Stage 2 and fine values by tick -/

/-- The stage 2 output of a channel at a tick, held also after the link went down until the chain starts again. -/
def Dev.heldSamp (d : Dev) (ch k : Nat) : Option Samp :=
  let s := d.feMod (ch / 12)
  if decide (s.measFrom ≤ k) && decide (k ≤ s.yTop) then ((s.chans[ch % 12]?).getD {}).hist[s.yTop - k]? else none

/-- The fine sample of a channel with absolute number `n`, held likewise. -/
def Dev.heldFine (d : Dev) (ch n : Nat) : Option FineSamp :=
  let s := d.feMod (ch / 12)
  if n ≤ s.fineTop then ((s.chans[ch % 12]?).getD {}).fine[s.fineTop - n]? else none

/-- The same of a channel that measures. -/
def Dev.sampAt (d : Dev) (ch k : Nat) : Option Samp := if d.measuring (ch / 12) then d.heldSamp ch k else none

def Dev.fineAt (d : Dev) (ch n : Nat) : Option FineSamp := if d.measuring (ch / 12) then d.heldFine ch n else none

/-- Coarse frequency at fine sample `n`: the angle change over the last 16 fine samples (R230). -/
def Dev.coarseFreq (d : Dev) (ch n : Nat) : Option DWord :=
  match d.fineAt ch n, d.fineAt ch (n - 16) with
  | some a, some b =>
    some (dAdd (dOfInt d.f0) (dDiv (dMul (dWrap (dSub a.ang b.ang)) (dOfInt 12800)) (dMul dTwoPi (dOfInt 16))))
  | _, _ => none

/-! ## Filters (R226 to R230) -/

/-- Taps of a moving average over one cycle of f0, divided by its length (R227). -/
def cycleTaps (f0 : Nat) : List Rat :=
  let n := 12800 / f0
  if 12800 % f0 = 0 then List.replicate n (1 / (n : Rat))
  else
    let l : Rat := (12800 : Rat) / (f0 : Rat)
    let e := (l - (n : Rat)) / 2 / l
    e :: (List.replicate n (1 / l) ++ [e])

/-- The taps of two filters in cascade. -/
def convTaps (a b : List Rat) : List Rat :=
  (List.range (a.length + b.length - 1)).map (fun n =>
    (List.range a.length).foldl (fun (s : Rat) i => if i ≤ n then s + (a[i]?).getD 0 * (b[n - i]?).getD 0 else s) 0)

/-- The Hamming-windowed sinc of PRESET_M before normalisation (R229): tap `j` of 2M + 1, −6 dB at 0.3 F. -/
def sincTap (f half j : Nat) : DWord :=
  let n := if j < half then half - j else j - half
  let w := dAdd (dFrac 54 100) (dMul (dFrac 46 100) (Config.f64Cos (dDiv (dMul dPi (dOfInt n)) (dOfInt (max 1 half)))))
  let x := dDiv (dMul dTwoPi (dOfInt (3 * f * n))) (dOfInt 128000)
  if n = 0 then w else dMul w (dDiv (Config.f64Sin x) x)

/-- The taps of a preset. -/
def presetTaps (f0 f preset : Nat) : List DWord :=
  if preset = 1 then
    let half := 44800 / max 1 f
    let raw := (List.range (2 * half + 1)).map (sincTap f half)
    let sum := raw.foldl dAdd 0
    raw.map (fun t => dDiv t sum)
  else
    let one := cycleTaps f0
    let two := convTaps one one
    (if preset = 2 then convTaps two two else two).map dOfRat

/-- The demodulated fine sample: √2 x e^(−j 2π f0 t_n) (R228). -/
def demod (f0 n : Nat) (x : DWord) : Cpx := zScale (dMul dSqrt2 x) (turnBack (f0 * n) 12800)

/-- A filter over a sequence by number: the sum of its taps on the values that end at `n`; a missing value counts as 0. -/
def runTaps (taps : List DWord) (v : Nat → Option Cpx) (n : Nat) : Cpx :=
  ((taps.zipIdx).foldl (fun (s : Cpx) p => zAdd s (zScale p.1 ((v (n - p.2)).getD (0, 0)))) (0, 0))

/-- The fine-path output of a channel at fine sample `n` (R228): its phasor in RMS counts, or for PRESET_D its filtered value. -/
def Dev.fineOut (d : Dev) (ch n : Nat) : Cpx :=
  let p := d.presetOf ch
  runTaps (presetTaps d.f0 d.rate p)
    (fun j => (d.fineAt ch j).map (fun x => if p = 3 then (x.x, 0) else demod d.f0 j x.x)) n

/-- The decimated sample `n` from the stage 2 outputs around tick 20 n (R226), in binary64 counts; none where the chain has
restarted within the filter's span. -/
def Dev.decimate (d : Dev) (ch n : Nat) : Option (DWord × Bool) :=
  let lo := 20 * n - 127
  let l := (List.range 255).map (fun j => d.sampAt ch (lo + j))
  if 127 ≤ 20 * n ∧ (d.sampAt ch (20 * n + 127)).isSome then
    let sum : Int := (l.zipIdx).foldl (fun (s : Int) p => s + Config.firTap (max p.2 127 - min p.2 127) * ((p.1.map (fun x => x.y)).getD 0)) 0
    some (dOfCount (sum / 2 ^ 24), ((List.range 20).any (fun j => (d.sampAt ch (20 * n - j)).any (fun x => x.ovr))))
  else none

/-- A new fine sample of a channel with its coarse phasor: a single one-cycle average (R230). -/
def Dev.newFine (d : Dev) (n : Nat) (x : DWord) (ovr : Bool) (s : FilsinSt) : FilsinSt :=
  let z := runTaps ((cycleTaps d.f0).map dOfRat)
    (fun j => if j = n then some (demod d.f0 n x) else if n < j then none else (s.fine[n - j - 1]?).map (fun y => demod d.f0 j y.x)) n
  { s with fine := (⟨x, z.1, z.2, ovr⟩ :: s.fine).take 20000 }

/-! ## Restarts (R214, R218, R221) -/

/-- The chain of a module starts empty at a G-time. -/
def FeModSt.restartChain (s : FeModSt) (g : Nat) : FeModSt :=
  { s with measFrom := tickOf g + 1, measAt := g, yTop := tickOf g, fineTop := 0, adcs := s.adcs.map (fun a => { a with raw := [] }), chans := s.chans.map (fun c => { c with dc := 0, hist := [], fine := [], freezeUntil := 0, ovrAt := none }) }

/-- What stays of a module whose link is down: the outputs that a block interval still open takes (R264). -/
def FeModSt.heldPart (s : FeModSt) : FeModSt := { measFrom := s.measFrom, yTop := s.yTop, fineTop := s.fineTop, chans := s.chans }

end Sys2Proof.Machine
end

