-- ==== Sys2Proof/Machine/NrgOps.lean ====
section
/-! DEFINITION. Interchange energy metering: the quantities of a step, its accumulators, its pulse crossings and its saves
(R275 to R289). -/

namespace Sys2Proof.Machine

open Sys2Proof

def Dev.point (d : Dev) (p : Nat) : PointSt := (d.nrg.points[p]?).getD {}

def Dev.modPoint (d : Dev) (p : Nat) (f : PointSt → PointSt) : Dev := d.modNrg (fun n => { n with points := modifyAt n.points p f })

/-- The valid points, each with its entry. -/
def Dev.validPoints (d : Dev) : List (Nat × NrgEntry) :=
  (List.range 16).filterMap (fun p => (d.point p).ent.map (fun e => (p, e)))

/-! ## Numbers -/

/-- A fraction rounded half to even. -/
def roundEven (q : Rat) : Int :=
  let f := q.floor
  let r := q - (f : Rat)
  if r < 1 / 2 then f else if 1 / 2 < r then f + 1 else if f % 2 = 0 then f else f + 1

/-- sin(πx) / (πx). -/
def dSinc (x : DWord) : DWord :=
  let y := dMul dPi x
  if dAbs x = 0 then dOne else dDiv (Config.f64Sin y) y

/-- A deviation from nominal frequency limited to ±5 Hz (R233). -/
def limit5 (df : DWord) : DWord := if dLt (dOfInt 5) df then dOfInt 5 else if dLt df (dOfInt (-5)) then dOfInt (-5) else df

/-- |H(Δf)| of R233: sinc² for PRESET_P, sinc⁴ for PRESET_Q. -/
def magResponse (f0 preset : Nat) (df : DWord) : DWord :=
  let s := dSinc (dDiv (limit5 df) (dOfInt f0))
  let p := dMul s s
  if preset = 2 then dMul p p else p

/-! ## Quantities of a step (R278) -/

/-- The elements that a wiring uses. -/
def elements (wiring : Nat) : List Nat := if wiring = 0 then [0, 1, 2] else if wiring = 1 then [0, 2] else [0]

/-- The channels of element `k`: a two-element point takes V_AB with I_A and V_CB with I_C. -/
def NrgEntry.pair (e : NrgEntry) (k : Nat) : Nat × Nat := ((e.v[k]?).getD 0xFF, (e.i[k]?).getD 0xFF)

def NrgEntry.channels (e : NrgEntry) : List Nat := (elements e.wiring).flatMap (fun k => [(e.pair k).1, (e.pair k).2])

/-- A voltage or a current at fine sample `n`, scaled to V or A. -/
def Dev.nrgVolt (d : Dev) (e : NrgEntry) (ch n : Nat) : Option DWord := (d.fineAt ch n).map (fun x => dMul x.x (dOfF32 e.vScale))

def Dev.nrgAmp (d : Dev) (e : NrgEntry) (ch n : Nat) : Option DWord :=
  (d.fineAt ch n).map (fun x => let y := dMul x.x (dOfF32 e.iScale); if e.reverse then dNeg y else y)

/-- Total P, S and Q, then fundamental P1, S1 and Q1. -/
def Dev.quantities (d : Dev) (e : NrgEntry) (n : Nat) : (DWord × DWord × DWord) × (DWord × DWord × DWord) :=
  let taps := presetTaps d.f0 d.rate 0
  let avg (f : Nat → Option DWord) : DWord := (runTaps taps (fun j => (f j).map (fun x => (x, (0 : DWord)))) n).1
  let prod (a b : Nat → Option DWord) (j : Nat) : Option DWord := (a j).bind (fun x => (b j).map (fun y => dMul x y))
  let els := (elements e.wiring).map e.pair
  let v (ch : Nat) : Nat → Option DWord := d.nrgVolt e ch
  let i (ch : Nat) : Nat → Option DWord := d.nrgAmp e ch
  let sumAt (j : Nat) : Option DWord :=
    els.foldl (fun (s : Option DWord) p => s.bind (fun x => (prod (v p.1) (i p.2) j).map (dAdd x))) (some 0)
  let p := avg sumAt
  let s := els.foldl (fun (x : DWord) q => dAdd x (dMul (dSqrt (avg (prod (v q.1) (v q.1)))) (dSqrt (avg (prod (i q.2) (i q.2)))))) 0
  let df := dSub ((d.coarseFreq ((e.pair 0).1) n).getD (dOfInt d.f0)) (dOfInt d.f0)
  let h := magResponse d.f0 0 df
  let fund (f : Nat → Option DWord) : Cpx :=
    let z := runTaps taps (fun j => (f j).map (demod d.f0 j)) n
    (dDiv z.1 h, dDiv z.2 h)
  let ph := els.map (fun q => (fund (v q.1), fund (i q.2)))
  let s1 := ph.foldl (fun (x : DWord) q => dAdd x (dMul (zAbs q.1) (zAbs q.2))) 0
  let z1 := ph.foldl (fun (x : Cpx) q => zAdd x (zMul q.1 (zConj q.2))) (0, 0)
  let na := dSqrt (dMax (dSub (dMul s s) (dMul p p)) 0)
  let q := if dLt 0 z1.2 then na else if dLt z1.2 0 then dNeg na else 0
  ((p, s, q), (z1.1, s1, z1.2))

/-- The addends of one set to its eight accumulators (R279). -/
def addends (p s q : DWord) : List DWord :=
  let imp := !dLt p 0
  let pick (c : Bool) (x : DWord) : DWord := if c then x else 0
  [pick imp p, pick (!imp) (dNeg p), pick (imp && dLt 0 q) q, pick (!imp && dLt 0 q) q, pick (!imp && dLt q 0) (dNeg q),
    pick (imp && dLt q 0) (dNeg q), pick imp s, pick (!imp) s]

/-- The energy of an addend over one step, in units of 2⁻⁴⁰ Wh (R280). -/
def energyOf (x : DWord) : Nat := (roundEven (dRat x * (2 ^ 40 : Nat) / 46080000)).toNat

/-! ## Pulse outputs (R282, R283) -/

/-- A crossing joins the newest job of a pin: in the queue of 1,024 edge times, or in the carry of a full queue. -/
def PulseSt.push (p : PulseSt) (t : Nat) : PulseSt :=
  let held := p.jobs.foldl (fun a j => a + j.times.length) 0
  let last : PulseJob := (p.jobs.getLast?).getD ⟨p.width, [], 0⟩
  let new : PulseJob := if held < 1024 then { last with times := last.times ++ [t] } else { last with carry := (last.carry + 1) % 2 ^ 32 }
  { p with jobs := p.jobs.dropLast ++ [new] }

/-- L_PULSE in µs. -/
def Dev.lPulse (d : Dev) : Nat := if d.bit Fld.CRT_CFG_F_NOM then 19000 else 22000

/-- One step of a pin: `e` is added to its residue and every crossing is queued at its time (R282). `tPrev` is the time of
the previous fine sample in 2⁻¹⁶ ns. -/
def pulseStep (lPulse : Nat) (e tPrev : Nat) (p : PulseSt) : PulseSt :=
  let r0 := p.residue
  let n := (r0 + e) / max 1 p.weight
  let p1 := (List.range n).foldl (fun (x : PulseSt) j =>
    let frac : Rat := (((p.weight * (j + 1) : Nat) : Rat) - ((r0 : Nat) : Rat)) / ((e : Nat) : Rat)
    let tc : Rat := ((tPrev : Nat) : Rat) / 65536000 + frac * (78125 / 1000)
    x.push ((roundEven tc).toNat + lPulse)) p
  { p1 with residue := (r0 + e) % max 1 p.weight }

/-! ## One step (R279 to R281) -/

/-- Point `p` in the step of fine sample `n`. -/
def Dev.pointStep (d : Dev) (n : Nat) (x : Nat × NrgEntry) : Dev :=
  let p := x.1
  let e := x.2
  let samples := e.channels.map (fun ch => d.fineAt ch n)
  let d0 := if samples.any (fun s => s.any (fun y => y.ovr)) then d.setBit (Fld.NRG_PTn_STAT_OVR p) true else d
  if samples.any (fun s => s.isNone) then
    (d0.modPoint p (fun s => { s with outage := s.outage + 1 })).setBit (Fld.NRG_PTn_STAT_LINK_GAP p) true
  else
    let q := d.quantities e n
    let adds := ((addends q.1.1 q.1.2.1 q.1.2.2) ++ (addends q.2.1 q.2.2.1 q.2.2.2)).map energyOf
    let pf := fOfF64 q.1.1
    let d1 := d0.modPoint p (fun s =>
      { s with
        sums := (s.sums.zip adds).map (fun y => (y.1 + y.2) % 2 ^ 80)
        pNow := pf
        pLast := if fLt s.pLast (fAbs pf) then fAbs pf else s.pLast })
    d1.modNrg (fun g => { g with pins := g.pins.map (fun pin =>
      if pin.en && decide (pin.point = p) then pulseStep d.lPulse ((adds[pin.idx]?).getD 0) ((n - 1) * 20 * tick16) pin else pin) })

/-! ## Saves (R286 to R288) -/

def SaveSlot.final (s : SaveSlot) : Bool := (fieldAt s.image 2 1).testBit 0
def SaveSlot.seq (s : SaveSlot) : Nat := fieldAt s.image 4 8
def SaveSlot.defCrc (s : SaveSlot) : Nat := fieldAt s.image 24 4
def SaveSlot.pLast (s : SaveSlot) : Word := BitVec.ofNat 32 (fieldAt s.image 28 4)
def SaveSlot.acc (s : SaveSlot) : List Nat := (List.range 16).map (fun k => fieldAt s.image (32 + 8 * k) 8)

/-- The slot is valid: its CRC is correct and its commit word equals SAVE_SEQ. -/
def SaveSlot.valid (s : SaveSlot) : Bool :=
  decide (crc32 (slice s.image 0 188) = fieldAt s.image 188 4) && decide (fieldAt s.image 192 8 = s.seq)

/-- The 192 bytes of a save before its commit word. -/
def saveBody (p : Nat) (final : Bool) (seq time defCrc : Nat) (pLast : Word) (acc : List Nat) : Bytes :=
  let b : Bytes := [0x50, BitVec.ofNat 8 p, BitVec.ofNat 8 (b2n final), 0] ++ leBytes 8 seq ++ gtimeBytes time ++ leBytes 4 defCrc ++
    leBytes 4 pLast.toNat ++ acc.flatMap (fun x => leBytes 8 x) ++ zeros 28
  b ++ leBytes 4 (crc32 b)

/-- The accumulators: bits 79:16 of the sums. -/
def PointSt.acc (s : PointSt) : List Nat := s.sums.map (fun x => x / 2 ^ 16)

def Dev.saveSlots (d : Dev) (p : Nat) : Option SaveSlot × Option SaveSlot := (d.nrg.slots[p]?).getD (none, none)

/-- The valid save of a point with the higher SAVE_SEQ: its slot and its content. -/
def Dev.latestSave (d : Dev) (p : Nat) : Option (Nat × SaveSlot) :=
  let ok (s : Option SaveSlot) : Option SaveSlot := s.filter (fun x => x.valid)
  match ok (d.saveSlots p).1, ok (d.saveSlots p).2 with
  | none, none => none
  | some a, none => some (0, a)
  | none, some b => some (1, b)
  | some a, some b => if a.seq < b.seq then some (1, b) else some (0, a)

def Dev.setSaveSlot (d : Dev) (p i : Nat) (s : SaveSlot) : Dev :=
  d.modNrg (fun g => { g with slots := modifyAt g.slots p (fun x => if i = 0 then (some s, x.2) else (x.1, some s)) })

/-- DEF_CRC of an entry. -/
def NrgEntry.defCrc (e : NrgEntry) : Nat := crc32 e.image

/-- The largest |P| since the previous save: a save in progress that is given up was none. -/
def PointSt.peakP (s : PointSt) : Word :=
  match s.saving with
  | some (_, _, x) => if fLt s.pLast x.pLast then x.pLast else s.pLast
  | none => s.pLast

/-- The next save of a point: the slot it takes and its content. -/
def Dev.nextSave (d : Dev) (p : Nat) (e : NrgEntry) (final : Bool) (at_ : Nat) : Nat × SaveSlot :=
  let seqOf (s : Option SaveSlot) : Nat := (s.map (fun x => x.seq)).getD 0
  let seq := max (seqOf (d.saveSlots p).1) (seqOf (d.saveSlots p).2) + 1
  let slot := match d.latestSave p with | some (0, _) => 1 | _ => 0
  (slot, ⟨saveBody p final seq at_ e.defCrc (d.point p).peakP (d.point p).acc ++ leBytes 8 seq⟩)

/-- Time of the last step boundary, of which the accumulators are, in 2⁻¹⁶ ns. -/
def Dev.stepTime (d : Dev) : Nat := d.nrg.stepAt

/-- The UTC minute now. -/
def Dev.utcMinute (d : Dev) : Nat :=
  ((d.gSec : Int) - ((d.utcOffsets.head?).getD 0)).toNat / 60

/-- Saves and intervals start with the next whole second and the next minute. -/
def Dev.restartSeconds (d : Dev) : Dev := d.modNrg (fun g => { g with savedSec := d.gSec, intervalMin := d.utcMinute })

/-- A save of a point starts: its body is written, and its slot keeps the old commit word until it completes. A final save takes the slot
of a periodic save in progress (R288). -/
def Dev.startSave (d : Dev) (final : Bool) (x : Nat × NrgEntry) : Dev :=
  let p := x.1
  let y := d.nextSave p x.2 final d.stepTime
  let slot := match (d.point p).saving with | some (i, _, _) => i | none => y.1
  let old := if slot = 0 then (d.saveSlots p).1 else (d.saveSlots p).2
  let commit : Bytes := match old with | some s => slice s.image 192 8 | none => zeros 8
  ((d.setSaveSlot p slot ⟨slice y.2.image 0 192 ++ commit⟩).modPoint p (fun s => { s with saving := some (slot, final, y.2), pLast := 0 }))

/-- A save completes its read-back. -/
def Dev.commitSave (d : Dev) (p : Nat) : Dev :=
  match (d.point p).saving with
  | none => d
  | some (i, _, s) => ((d.setSaveSlot p i s).modPoint p (fun x => { x with saving := none })).count64 Reg.NRG_SAVES_LO

/-- A save fails its read-back; it is tried again at the next second. -/
def Dev.failSave (d : Dev) (p : Nat) : Dev :=
  match (d.point p).saving with
  | none => d
  | some (_, _, s) =>
    ((d.modPoint p (fun x => { x with saving := none, pLast := if fLt x.pLast s.pLast then s.pLast else x.pLast })).setBit
      Fld.NRG_STATUS_SAVE_FAIL true).event .nrgSaveFail p

/-- The step of fine sample `n`: every valid point, then the latch that a final save waits for. -/
def Dev.energyStep (d : Dev) (n : Nat) : Dev :=
  if d.bit Fld.NRG_CTRL_EN then
    let d1 := d.validPoints.foldl (fun (x : Dev) p => x.pointStep n p) d
    let d2 := d1.modNrg (fun g => { g with stepAt := n * 20 * tick16 })
    if d2.nrg.finalDue then (d2.validPoints.foldl (fun (x : Dev) p => x.startSave true p) d2).modNrg (fun g => { g with finalDue := false })
    else d2
  else d

/-- The final saves run or wait for their step boundary. -/
def Dev.finalSaving (d : Dev) : Bool :=
  d.nrg.finalDue || d.nrg.points.any (fun p => p.saving.any (fun x => x.2.1))

/-- A final save is asked for, where metering runs with a valid point: a periodic save in progress gets no commit word, and the final
save takes its slot (R288, R542). -/
def Dev.askFinalSave (d : Dev) : Dev :=
  if d.bit Fld.NRG_CTRL_EN && !d.validPoints.isEmpty && !d.finalSaving then
    d.modNrg (fun g => { g with finalDue := true, points := g.points.map (fun p => { p with saving := p.saving.map (fun x => (x.1, true, x.2.2)) }) })
  else d

end Sys2Proof.Machine
end

