-- ==== Sys2Proof/Machine/AcqRows.lean ====
section
/-! DEFINITION. The rows of the table of operations that concern local acquisition: the front-end links, the filter chain, LOCAL
estimation and live calibration (R212 to R247). -/

namespace Sys2Proof.Machine

open Sys2Proof

/-! ## Commands to a module (R216, R217) -/

def srcGround : Nat := 0x10
def srcPlus : Nat := 0x11
def srcMinus : Nat := 0x12
def srcAc : Nat := 0x13
def srcOff : Nat := 0x1F

/-- A MUX command is queued for each ADC listed. -/
def FeModSt.mux (s : FeModSt) (l : List (Nat × Nat)) : FeModSt := { s with cmdQ := s.cmdQ ++ l.map (fun x => ⟨1, x.1, x.2, 0⟩) }

def FeModSt.acRef (s : FeModSt) (on : Bool) : FeModSt := { s with cmdQ := s.cmdQ ++ [⟨2, b2n on, 0, 0⟩] }

def Dev.linkIsUp (d : Dev) (m : Nat) : Bool := d.fbit Fld.ACQ_STATUS_LINK_UP m

def Dev.nowTick (d : Dev) : Nat := tickOf d.g16

/-! ## Turns (R237, R239) -/

/-- The first input from `i` on, in rotation order, that is not faulted. -/
def Dev.nextInput (d : Dev) (m i : Nat) : Option Nat :=
  ((List.range 12).map (fun k => (i + k) % 12)).find? (fun j => !d.fbit (Fld.CAL_FAULTm_ADC m) j)

def Dev.setPhase (d : Dev) (m p : Nat) : Dev := d.setFld (Fld.CAL_STATm_PHASE m) p

/-- The running turn ends; LAPS counts as the rotation passes its last input. -/
def Dev.endTurn (d : Dev) (m : Nat) : Dev :=
  match (d.feMod m).turn with
  | none => d
  | some t =>
    let nx := (d.nextInput m ((t.input + 1) % 12)).getD 0
    let d1 := (d.updFeMod m (fun s => { s with turn := none, win := none, nextInput := (t.input + 1) % 12 })).setPhase m 0
    if nx ≤ t.input then d1.setFld (Fld.CAL_STATm_LAPS m) (d1.fld (Fld.CAL_STATm_LAPS m) + 1) else d1

/-- The running turn is abandoned: S is disconnected and A stays in service. -/
def Dev.abandonTurn (d : Dev) (m : Nat) : Dev :=
  match (d.feMod m).turn with
  | none => d
  | some t =>
    let d1 := d.updFeMod m (fun s =>
      { (s.mux ([(12, srcOff)] ++ (if 4 < t.step then [(t.input, t.input)] else []))) with onS := none, fade := none })
    (d1.count Reg.CAL_ABANDON).endTurn m

/-- Rotation on a module halts (R242). A turn that runs goes on to its end without the values of the failed step. -/
def Dev.calHalt (d : Dev) (m step : Nat) : Dev :=
  let d1 := d.updFeMod m (fun s => { s with turn := s.turn.map (fun t => { t with refBad := true }), startBad := true })
  if d1.fld (Fld.CAL_STATm_HALT m) = 1 then d1 else (d1.setFld (Fld.CAL_STATm_HALT m) 1).event .calHalt m step

/-! ## Link state (R218, R220) -/

/-- The link of a module goes down: the chain empties, a turn is abandoned, and the start begins again with the link. -/
def Dev.feLinkDown (d : Dev) (m : Nat) : Dev :=
  let d1 := if (d.feMod m).turn.isSome then (d.count Reg.CAL_ABANDON).endTurn m else d
  let old := d1.feMod m
  (((d1.setFbit Fld.ACQ_STATUS_LINK_UP m false).setFbit Fld.ACQ_STATUS_MEAS m false).count (Reg.ACQ_FEm_DOWN m)).setFeMod m
    { old.heldPart with strobeK := old.strobeK, hk := old.hk, tag := old.tag, nextInput := old.nextInput }

/-- ACQ_CTRL is written: a bit is set only with a valid identity (R220). -/
def writeAcqCtrl (v : Word) (d : Dev) : Dev :=
  if d.gatedAt Reg.ACQ_CTRL then d
  else
    (List.range 4).foldl (fun (x : Dev) m =>
      let was := d.fbit Fld.ACQ_CTRL_FE_EN m
      if v.toNat.testBit m && !was then
        if d.fbit Fld.ACQ_STATUS_ID_OK m then (x.setFbit Fld.ACQ_CTRL_FE_EN m true).setFeMod m (x.feMod m).heldPart
        else x.setBit Fld.ACQ_STATUS_CFG_ERR true
      else if was && !v.toNat.testBit m then
        ((((x.setFbit Fld.ACQ_CTRL_FE_EN m false).setFbit Fld.ACQ_STATUS_LINK_UP m false).setFbit Fld.ACQ_STATUS_MEAS m false).setPhase m 0).setFeMod m (x.feMod m).heldPart
      else x) d

/-- FE_ENABLE (R220): a write of ACQ_CTRL. -/
def execFeEnable (value : Word) (s : State) : Answer := s.run 0 (fun _ d => writeAcqCtrl value d)

/-- ROT_EN is cleared: a turn that was to come is abandoned before its step 1, and the rotation goes on with the input after it (R239). One that
runs goes to its end. -/
def Dev.dropTurn (d : Dev) (m : Nat) : Dev :=
  let s := d.feMod m
  if d.measuring m && s.turnAt.isSome && s.turn.isNone && decide (d.fld (Fld.CAL_STATm_HALT m) = 0) then
    match d.nextInput m s.nextInput with
    | none => d
    | some i => (d.updFeMod m (fun x => { x with nextInput := (i + 1) % 12 })).count Reg.CAL_ABANDON
  else d

/-- CAL_CTRL is written: a rotation that is enabled past its first turn start starts now. -/
def writeCalCtrl (v : Word) (d : Dev) : Dev :=
  if d.gatedAt Reg.CAL_CTRL then d
  else
    (List.range 4).foldl (fun (x : Dev) m =>
      let was := d.fbit Fld.CAL_CTRL_ROT_EN m
      let x1 := x.setFbit Fld.CAL_CTRL_ROT_EN m (v.toNat.testBit m)
      if v.toNat.testBit m && !was then x1.updFeMod m (fun s => { s with turnAt := s.turnAt.map (fun t => max t d.up) })
      else if was && !v.toNat.testBit m then x1.dropTurn m
      else x1) d

/-- ROT_ENABLE (R237): a write of CAL_CTRL. -/
def execRotEnable (value : Word) (s : State) : Answer := s.run 0 (fun _ d => writeCalCtrl value d)

/-! ## Strobes and sample frames (R213, R215, R218, R219) -/

/-- The raw sample instant whose strobe is due on link `m`: L_MOD and the span of PHASE come before it. -/
def Dev.strobeDue (d : Dev) (m : Nat) : Nat := tickOf (d.g16 + d.lMod m * 65536 / 1000 + 8 * 65536)

def Dev.sampleStrobe (d : Dev) (m : Nat) : Dev :=
  let k := d.strobeDue m
  if m < 4 ∧ d.fbit Fld.ACQ_CTRL_FE_EN m = true ∧ ((d.feMod m).strobeK).all (fun l => decide (l < k)) = true then
    let r := d.draw
    (r.2.updFeMod m (fun s => { s with strobeK := some k })).emit (.feStrobe m (r.1 % 256) (k % 256))
  else d

/-- SAMPLE_STROBE (R213). -/
def execSampleStrobe (dt link : Nat) (s : State) : Answer := s.run dt (fun _ d => d.sampleStrobe link)

/-- The tick that the SEQ of a frame names: that of the newest strobe with it, later than the last frame. -/
def FeModSt.frameTick (s : FeModSt) (seq : Nat) : Option Nat :=
  s.strobeK.bind (fun sk =>
    let k := sk - (sk + 256 - seq % 256) % 256
    if s.lastK.all (fun l => decide (l < k)) then some k else none)

def overRange (x : Int) : Bool := decide (x = 8388607) || decide (x = -8388608)

/-- The frame's own values: housekeeping, REF_OK and the echoes it answers. -/
def FeModSt.noteFrame (s : FeModSt) (k : Nat) (f : FeFrame) : FeModSt :=
  let item := f.hkSel
  { s with
    lastK := some k, badRun := 0, refOk := f.refOk, hk := modifyAt s.hk item (fun _ => f.hk)
    verify := s.verify.filter (fun v =>
      !(decide (item = v.adc + 2) && decide (v.effK ≤ k) && decide (k ≤ v.effK + 32) && decide (f.hk = v.src))) }

/-- A reference calibration runs on the module: at the start, or in the fourth or seventh phase of a turn. -/
def Dev.inReference (d : Dev) (m : Nat) : Bool :=
  let s := d.feMod m
  (d.linkIsUp m && !d.measuring m && decide (1 ≤ s.startStep) && decide (s.startStep ≤ 9))
    || (s.turn.isSome && (decide (d.fld (Fld.CAL_STATm_PHASE m) = 4) || decide (d.fld (Fld.CAL_STATm_PHASE m) = 7)))

/-- A good frame that names tick `k` on a link that is up. -/
def Dev.goodFrame (d : Dev) (m k : Nat) (f : FeFrame) : Dev :=
  let s := d.feMod m
  let last := s.lastK.getD (k - 1)
  let xs : List RawSamp := f.samples.map (fun x => ⟨x, f.ovr || overRange x, false, f.refOk⟩)
  let s1 := d.feedFrame m last k xs (s.noteFrame k f)
  let d1 := ((d.setFeMod m s1).count (Reg.ACQ_FEm_REPAIR m) (k - last - 1)).count (Reg.ACQ_FEm_OVR m) (xs.filter (fun x => x.ovr)).length
  if !f.refOk && d1.inReference m then
    d1.calHalt m (if d1.fld (Fld.CAL_STATm_PHASE m) = 7 then 13 else if (d1.feMod m).turn.isSome then 7 else 3)
  else d1

/-- The frame counts toward the 256 consecutive good ones that bring the link up. -/
def Dev.frameDown (d : Dev) (m k : Nat) (f : FeFrame) : Dev :=
  let s := d.feMod m
  let run := if s.lastK = some (k - 1) then s.goodRun + 1 else 1
  let d1 := d.setFeMod m { s.noteFrame k f with goodRun := run }
  if 256 ≤ run then (d1.setFbit Fld.ACQ_STATUS_LINK_UP m true).updFeMod m (fun x => { x with startAt := d.up, startStep := 0, goodRun := 0 })
  else d1

def Dev.sampleFrame (d : Dev) (m : Nat) (f : FeFrame) : Dev :=
  if 4 ≤ m ∨ d.fbit Fld.ACQ_CTRL_FE_EN m = false then d
  else
    let s := d.feMod m
    match (if f.crcOk then s.frameTick f.seq else none) with
    | none =>
      let d1 := d.setFeMod m { s with badRun := s.badRun + 1, goodRun := 0 }
      if d.linkIsUp m && decide (5 ≤ s.badRun + 1) then d1.feLinkDown m else d1
    | some k =>
      if d.linkIsUp m then
        if 5 ≤ k - s.lastK.getD (k - 1) - 1 then (d.feLinkDown m).frameDown m k f else d.goodFrame m k f
      else d.frameDown m k f

/-- SAMPLE_FRAME (R215). -/
def execSampleFrame (dt module : Nat) (frame : FeFrame) (s : State) : Answer := s.run dt (fun _ d => d.sampleFrame module frame)

/-- FE_LINK_DOWN (R218): comma alignment is lost, or five strobes in a row are unanswered. -/
def execFeLinkDown (dt module : Nat) (commaLost : Bool) (s : State) : Answer :=
  s.run dt (fun _ d =>
    let m := d.feMod module
    let missing := match m.strobeK, m.lastK with | some sk, some l => decide (l + 6 ≤ sk) | _, _ => false
    if decide (module < 4) && d.linkIsUp module && (commaLost || missing) then d.feLinkDown module else d)

/-- The seven bytes of a downlink command: TYPE, TAG, EFF_SEQ, ARG0, ARG1 and the CRC over them (R216). -/
def FeCmd.bytes (c : FeCmd) (tag effK : Nat) : Bytes :=
  let b : Bytes := [BitVec.ofNat 8 c.type, BitVec.ofNat 8 tag, BitVec.ofNat 8 effK, BitVec.ofNat 8 c.arg0, BitVec.ofNat 8 c.arg1]
  b ++ beBytes 2 (crc16 b)

/-- A command goes out with an EFF_SEQ 2 to 128 strobes ahead. -/
def Dev.feCommandSend (d : Dev) (m : Nat) : Dev :=
  let s := d.feMod m
  match s.cmdQ, s.strobeK with
  | cmd :: rest, some sk =>
    let r := d.draw
    let effK := sk + 2 + r.1 % 127
    let s1 := { s with cmdQ := rest, tag := (s.tag + 1) % 256, verify := s.verify ++ (if cmd.type = 1 then [⟨cmd.arg0, cmd.arg1, effK, cmd.tries + 1⟩] else []) }
    (r.2.setFeMod m s1).emit (.feCommand m (cmd.bytes s.tag effK))
  | _, _ => d

/-- FE_COMMAND_SEND (R216). -/
def execFeCommandSend (dt link : Nat) (s : State) : Answer :=
  s.run dt (fun _ d => if decide (link < 4) && d.fbit Fld.ACQ_CTRL_FE_EN link then d.feCommandSend link else d)

/-- A MUX command whose echo has not come within 32 frames is sent again; the second time it has failed. -/
def Dev.verifyTimeout (d : Dev) (m : Nat) : Dev :=
  let s := d.feMod m
  match s.strobeK with
  | none => d
  | some sk =>
    match s.verify.find? (fun v => decide (v.effK + 32 < sk)) with
    | none => d
    | some v =>
      let d1 := d.setFeMod m { s with verify := s.verify.erase v }
      if v.tries < 2 then d1.updFeMod m (fun x => { x with cmdQ := ⟨1, v.adc, v.src, v.tries⟩ :: x.cmdQ })
      else ((d1.count (Reg.ACQ_FEm_CMDFAIL m)).event .feCmdFail m v.adc 1).abandonTurn m

/-- FE_CMD_VERIFY_TIMEOUT (R217). -/
def execFeCmdVerifyTimeout (dt module : Nat) (s : State) : Answer :=
  s.run dt (fun _ d => if module < 4 then d.verifyTimeout module else d)

/-! ## Reference calibration (R221, R237, R240) -/

/-- A window opens now over the ADCs listed. -/
def FeModSt.openWin (s : FeModSt) (what : CalWin) (adcs : List Nat) (k len : Nat) : FeModSt :=
  { s with win := some ⟨what, adcs, k, len⟩, adcs := (s.adcs.zipIdx).map (fun p => if adcs.contains p.2 then { p.1 with acc := {} } else p.1) }

/-- The mean of an accumulator, in counts. -/
def CalAcc.mean (a : CalAcc) : DWord := dDiv (dOfCount a.sum) (dOfInt a.n)

/-- Step `j` of a reference calibration of the ADCs listed: settle and 20 ms on ground, +REF and −REF, settle and 40 ms on the
AC reference. -/
def FeModSt.refStep (s : FeModSt) (adcs : List Nat) (k j : Nat) : FeModSt :=
  let all (src : Nat) : List (Nat × Nat) := adcs.map (fun a => (a, src))
  let take (x : FeModSt) (f : AdcSt → AdcSt) : FeModSt := adcs.foldl (fun (y : FeModSt) a => y.modAdc a f) { x with win := none }
  if j = 0 then s.mux (all srcGround)
  else if j = 1 then s.openWin .ground adcs k 5120
  else if j = 2 then (take s (fun a => { a with gnd := a.acc.mean })).mux (all srcPlus)
  else if j = 3 then s.openWin .plus adcs k 5120
  else if j = 4 then (take s (fun a => { a with pos := a.acc.mean })).mux (all srcMinus)
  else if j = 5 then s.openWin .minus adcs k 5120
  else if j = 6 then ((take s (fun a => { a with neg := a.acc.mean })).acRef true).mux (all srcAc)
  else if j = 7 then s.openWin .acRef adcs k 10240
  else { s with win := none }

/-- The values that a reference calibration forms (R240). The AC reference has 1,000 Hz; a phase of −ωτ stands for a delay τ. -/
def Dev.refVals (d : Dev) (m : Nat) (a : AdcSt) : CalVals :=
  let gain := dDiv (dOfInt (d.refPos m - d.refNeg m)) (dSub a.pos a.neg)
  let measured := dDiv (dMul (dNeg (zArg (a.acc.re, a.acc.im))) (dOfInt 1000000)) dTwoPi
  ⟨gain, a.gnd, dSub (dDiv (dOfInt (d.acPhase m)) (dOfInt 1000)) measured⟩

/-- A limit is exceeded. -/
def beyond (x lim : DWord) : Bool := dLt lim (dAbs x)

def Dev.delayLim (d : Dev) : DWord := dOfInt (d.fld Fld.CAL_LIM_DELAY_LIM * 10 : Nat)
/-- OFFSET_LIM in counts: units of 0.01% of 2²³. -/
def Dev.offsetLim (d : Dev) : DWord := dDiv (dOfInt (d.fld Fld.CAL_LIM_OFFSET_LIM * 8388608 : Nat)) (dOfInt 10000)

/-- New reference values differ from the previous ones by more than the limits (R240). -/
def Dev.refRefused (d : Dev) (new : CalVals) : Option CalVals → Bool
  | none => false
  | some old =>
    beyond (dSub new.gain old.gain) (dDiv (dOfInt (d.fld Fld.CAL_LIM_STEP_GAIN)) (dOfInt 100000))
      || beyond (dSub new.delay old.delay) d.delayLim || beyond (dSub new.offset old.offset) d.offsetLim

/-! ## Measuring start (R221) -/

/-- Times of the start steps in ms from the link's coming up: the nine steps of the reference calibration, the result, and MEAS. -/
def startTimes : List Nat := [0, 2, 22, 24, 44, 46, 66, 68, 108, 109, 111]

def allAdcs : List Nat := List.range 13

/-- The reference values of all ADCs are taken, and the ADCs connected to their inputs. -/
def Dev.startValues (d : Dev) (m : Nat) : Dev :=
  let s := d.feMod m
  let s1 : FeModSt := { s with adcs := s.adcs.map (fun a =>
    let v := d.refVals m a
    { a with vals := v, ref := some v, newRef := none, ramp := none, refusals := 0, acceptedAt := d.up }) }
  d.setFeMod m ((s1.acRef false).mux ((List.range 12).map (fun a => (a, a)) ++ [(12, srcOff)]))

def Dev.feStartStep (d : Dev) (m : Nat) : Dev :=
  let s := d.feMod m
  match startTimes[s.startStep]? with
  | none => d
  | some ms =>
    if !d.linkIsUp m || d.measuring m || decide (d.up < s.startAt + ms * 1000000) then d
    else
      let d1 := d.updFeMod m (fun x => { x with startStep := x.startStep + 1 })
      if s.startStep < 9 then d1.updFeMod m (fun x => x.refStep allAdcs d.nowTick s.startStep)
      else if s.startStep = 9 then d1.startValues m
      else (d1.setFbit Fld.ACQ_STATUS_MEAS m true).updFeMod m (fun x =>
        { (x.restartChain d.g16) with turnAt := some (d.up + 1000000000) })

/-- FE_START_STEP (R221). -/
def execFeStartStep (dt module : Nat) (s : State) : Answer :=
  s.run dt (fun _ d => if decide (module < 4) && d.fbit Fld.ACQ_CTRL_FE_EN module then d.feStartStep module else d)

/-! ## Matches (R238, R239, R241) -/

/-- The joining ADC's values after a match, whether only the offset was matched, and whether a limit is exceeded. -/
def Dev.matchVals (d : Dev) (a1 a2 : CalAcc) (v : CalVals) : CalVals × Bool × Bool :=
  let x1 : Cpx := (a1.re, a1.im)
  let x2 : Cpx := (a2.re, a2.im)
  let rms := dDiv (dMul dSqrt2 (zAbs x1)) (dOfInt 51200)
  let small := dLt rms (dOfInt 59316)
  let g := if small then dOne else dDiv (zAbs x1) (zAbs x2)
  let tau := if small then 0 else dDiv (dMul (zArg (zMul x1 (zConj x2))) (dOfInt 1000000000)) (dMul dTwoPi (dOfInt d.f0))
  let dOff := dDiv (dSub a2.mean (dDiv a1.mean g)) v.gain
  (⟨dMul v.gain g, dAdd v.offset dOff, dAdd v.delay tau⟩, small,
    beyond (dSub g dOne) (dDiv (dOfInt (d.fld Fld.CAL_LIM_MATCH_GAIN)) (dOfInt 100000)) || beyond tau d.delayLim || beyond dOff d.offsetLim)

def Dev.countSmall (d : Dev) (small : Bool) : Dev := if small then d.count Reg.CAL_SMALL else d

/-- The forward match: S takes the values that match A, and the crossfade to S starts; or the turn is abandoned. -/
def Dev.forwardMatch (d : Dev) (m : Nat) (t : TurnSt) : Dev :=
  let s := d.feMod m
  let a := s.adc t.input
  let sh := s.adc 12
  let r := d.matchVals a.acc sh.acc sh.vals
  if 0 < a.acc.ovr + sh.acc.ovr then d.abandonTurn m
  else if r.2.2 then (d.countSmall r.2.1).abandonTurn m
  else
    ((d.countSmall r.2.1).updFeMod m (fun x =>
      { (x.modAdc 12 (fun y => { y with vals := r.1 })) with fade := some (t.input, d.nowTick, true) })).setPhase m 3

/-- An ADC that joins a match starts from its own reference calibration (R238). -/
def AdcSt.ownRef (a : AdcSt) : AdcSt := { a with vals := a.ref.getD a.vals, ramp := none }

/-- The new reference values of A: refused or accepted; A's own reference calibration is the base of the back match (R238, R240). -/
def Dev.refUpdateA (d : Dev) (m : Nat) (t : TurnSt) : Dev :=
  let s := d.feMod m
  let a := s.adc t.input
  let v := d.refVals m a
  let back (x : FeModSt) : FeModSt := (x.acRef false).mux [(t.input, t.input)]
  if t.refBad then d.updFeMod m (fun x => back (x.modAdc t.input AdcSt.ownRef))
  else if d.refRefused v a.ref then
    let d1 := (d.updFeMod m (fun x => back (x.modAdc t.input (fun y => { y.ownRef with newRef := none, refusals := y.refusals + 1 })))).count Reg.CAL_REFUSED
    if 3 ≤ a.refusals + 1 ∧ d1.fbit (Fld.CAL_FAULTm_ADC m) t.input = false then
      (d1.setFbit (Fld.CAL_FAULTm_ADC m) t.input true).event .calFault m t.input
    else d1
  else
    d.updFeMod m (fun x => back (x.modAdc t.input (fun y =>
      { y with newRef := some v, ref := some v, vals := v, ramp := none, refusals := 0, acceptedAt := d.up })))

/-- The back match: A takes its starting values, and the crossfade to A starts; or the window repeats, up to 8 windows. That any
over-range sample makes it repeat is DEDUCED, log 60. -/
def Dev.backMatch (d : Dev) (m : Nat) (t : TurnSt) : Dev :=
  let s := d.feMod m
  let a := s.adc t.input
  let sh := s.adc 12
  let fadeBack (x : Dev) (v : CalVals) : Dev :=
    (x.updFeMod m (fun y => { (y.modAdc t.input (fun z => { z with vals := v })) with fade := some (t.input, d.nowTick, false) })).setPhase m 6
  if 0 < a.acc.ovr + sh.acc.ovr then
    if t.repeats < 7 then
      d.updFeMod m (fun x =>
        { (x.openWin (.match_ t.input) [t.input, 12] d.nowTick 51200) with turn := some { t with step := 15, repeats := t.repeats + 1 } })
    else
      let ref := sh.ref.getD sh.vals
      fadeBack d ⟨dAdd a.vals.gain (dSub sh.vals.gain ref.gain), dAdd a.vals.offset (dSub sh.vals.offset ref.offset),
        dAdd a.vals.delay (dSub sh.vals.delay ref.delay)⟩
  else
    let r := d.matchVals sh.acc a.acc a.vals
    fadeBack (d.countSmall r.2.1) r.1

/-- The output is A's alone again; where new reference values were accepted, the ramp to them starts (R240). -/
def Dev.handBack (d : Dev) (m : Nat) (t : TurnSt) : Dev :=
  (d.updFeMod m (fun x =>
    { ((x.modAdc t.input (fun y => { y with ramp := y.newRef.map (fun v => (d.nowTick, y.vals, v)), newRef := none })).refStep [12] d.nowTick 0) with onS := none })).setPhase m 7

/-- S takes its new reference values and the turn is complete; where they fail the limits, rotation halts (R242). -/
def Dev.finishS (d : Dev) (m : Nat) (t : TurnSt) : Dev :=
  let sh := (d.feMod m).adc 12
  let v := d.refVals m sh
  let d1 := d.updFeMod m (fun x => x.acRef false)
  let d2 :=
    if t.refBad then d1
    else if d1.refRefused v sh.ref then d1.calHalt m 14
    else d1.updFeMod m (fun x => x.modAdc 12 (fun y => { y with vals := v, ref := some v, acceptedAt := d.up }))
  (d2.count64 Reg.CAL_TURNS_LO).endTurn m

/-- Times of the steps of a turn in ms from its start (R237). -/
def turnTimes : List Nat :=
  [0, 2, 202, 203, 213, 215, 235, 237, 257, 259, 279, 281, 321, 322, 324, 524, 525, 535, 537, 557, 559, 579, 581, 601, 603, 643, 644]

def Dev.turnStep (d : Dev) (m : Nat) (t : TurnSt) : Dev :=
  let n := t.step
  let k := d.nowTick
  let d1 := d.updFeMod m (fun x => { x with turn := some { t with step := n + 1 } })
  let upd (f : FeModSt → FeModSt) : Dev := d1.updFeMod m f
  if n = 1 then (upd (fun x => x.openWin (.match_ t.input) [t.input, 12] k 51200)).setPhase m 2
  else if n = 3 then d1.forwardMatch m t
  else if n = 4 then (upd (fun x => { (x.refStep [t.input] k 0) with onS := some t.input })).setPhase m 4
  else if 5 ≤ n ∧ n ≤ 12 then upd (fun x => x.refStep [t.input] k (n - 4))
  else if n = 13 then d1.refUpdateA m t
  else if n = 14 then (upd (fun x => x.openWin (.match_ t.input) [t.input, 12] k 51200)).setPhase m 5
  else if n = 16 then d1.backMatch m t
  else if n = 17 then d1.handBack m t
  else if 18 ≤ n ∧ n ≤ 25 then upd (fun x => x.refStep [12] k (n - 17))
  else if n = 26 then d1.finishS m t
  else d1

/-- CAL_TURN_STEP (R237): the next step of the running turn is due; each repeated back match window takes 201 ms more. -/
def execCalTurnStep (dt module : Nat) (s : State) : Answer :=
  s.run dt (fun _ d =>
    match (d.feMod module).turn with
    | none => d
    | some t =>
      match turnTimes[t.step]? with
      | none => d
      | some ms => if t.at_ + (ms + 201 * t.repeats) * 1000000 ≤ d.up then d.turnStep module t else d)

/-- A turn start falls due: the turn starts, or it is skipped while another runs. -/
def Dev.turnStart (d : Dev) (m : Nat) : Dev :=
  let s := d.feMod m
  match s.turnAt with
  | none => d
  | some at_ =>
    if !d.measuring m || !d.fbit Fld.CAL_CTRL_ROT_EN m || decide (d.up < at_) then d
    else
      let d1 := d.updFeMod m (fun x => { x with turnAt := some (at_ + 650000000) })
      if s.turn.isSome then d1.count Reg.CAL_ABANDON
      else if d.fld (Fld.CAL_STATm_HALT m) = 1 then d1
      else
        match d.nextInput m s.nextInput with
        | none => d1
        | some i =>
          ((d1.updFeMod m (fun x => { ((x.mux [(12, i)]).modAdc 12 AdcSt.ownRef) with turn := some { input := i, at_ := d.up } })).setFld (Fld.CAL_STATm_INPUT m) i).setPhase m 1

/-- CAL_TURN_START (R237). -/
def execCalTurnStart (dt module : Nat) (s : State) : Answer :=
  s.run dt (fun _ d => if module < 4 then d.turnStart module else d)

/-- CAL_RAMP_END (R240). -/
def execCalRampEnd (dt module adc : Nat) (s : State) : Answer :=
  s.run dt (fun _ d =>
    match ((d.feMod module).adc adc).ramp with
    | none => d
    | some (k0, _, hi) =>
      if k0 + 256000 ≤ d.nowTick then d.updFeMod module (fun x => x.modAdc adc (fun a => { a with vals := hi, ramp := none })) else d)

/-! ## The decimated samples (R222, R224, R226 to R230) -/

/-- The fine sample that is due: 136 raw samples after the instant it stands for (R226). -/
def Dev.fineDue (d : Dev) : Option Nat :=
  if d.nowTick < 136 then none
  else
    let due := (d.nowTick - 136) / 20
    match d.acq.fineLast with
    | none => some due
    | some l => if l < due then some (l + 1) else none

/-- Fine sample `n` of every channel of a module, and the freeze of R224. -/
def Dev.fineModule (d : Dev) (n m : Nat) : Dev :=
  if !d.measuring m then d
  else
    let s := d.feMod m
    let chans := (s.chans.zipIdx).map (fun (p : FilsinSt × Nat) =>
      let base : FilsinSt := if s.fineTop + 1 = n then p.1 else { p.1 with fine := [] }
      match d.decimate (12 * m + p.2) n with
      | none => { base with fine := [] }
      | some (x, ovr) =>
        let c1 := d.newFine n x ovr base
        if d.fastChange c1.fine then { c1 with freezeUntil := max c1.freezeUntil (s.yTop + 1 + d.cycleTicks (d.fld Fld.FLT_CFG_FREEZE_HOLD)) } else c1)
    d.setFeMod m { s with chans := chans, fineTop := n }

def Dev.fineSample (d : Dev) : Dev :=
  match d.fineDue with
  | none => d
  | some n => (((List.range 4).foldl (fun (x : Dev) m => x.fineModule n m) d).modAcq (fun a => { a with fineLast := some n })).energyStep n

/-- FINE_SAMPLE (R222). -/
def execFineSample (dt : Nat) (s : State) : Answer := s.run dt (fun _ d => d.fineSample)

/-- FLT_CHSTATc: FROZEN, OVR and ON_SHADOW now. -/
def Dev.chStat (d : Dev) (ch : Nat) : Nat :=
  let m := ch / 12
  let s := d.feMod m
  let c := (s.chans[ch % 12]?).getD {}
  let onS := decide (s.onS = some (ch % 12)) || s.fade.any (fun f => decide (f.1 = ch % 12) && (f.2.2 || decide (s.yTop < f.2.1 + 2560)))
  if d.measuring m then
    b2n (d.bit (Fld.FLT_CHc_DCB_EN ch) && decide (s.yTop < c.freezeUntil)) + 2 * b2n (c.ovrAt.any (fun k => decide (s.yTop < k + d.cycleTicks 1)))
      + 4 * b2n onS
  else 0

/-! ## LOCAL estimation (R233 to R235) -/

/-- The fine-path output of a source at a place `p` in fine samples after the filter's delay, by linear interpolation. A source is
a channel, or a triple as its positive sequence. -/
def Dev.pathAt (d : Dev) (src : List Nat) (p : Rat) : Cpx :=
  let n := p.floor.toNat
  let w := dOfRat (p - ((n : Nat) : Rat))
  let mix (f : Nat → Cpx) : Cpx := let a := f n; let b := f (n + 1); (dAdd a.1 (dMul w (dSub b.1 a.1)), dAdd a.2 (dMul w (dSub b.2 a.2)))
  match src with
  | [a, b, c] =>
    let third := dFrac 1 3
    let rot (k : Nat) : Cpx := zConj (turnBack k 3)
    mix (fun j => zScale third (zAdd (d.fineOut a j) (zAdd (zMul (rot 1) (d.fineOut b j)) (zMul (rot 2) (d.fineOut c j)))))
  | _ => mix (d.fineOut (src.headD 0))

/-- The frequency of a source around a place: angles 0.625 ms, 8 fine samples, before and after (R233). -/
def Dev.freqAt (d : Dev) (src : List Nat) (p : Rat) : DWord :=
  let a := zArg (d.pathAt src (p + 8))
  let b := zArg (d.pathAt src (p - 8))
  dAdd (dOfInt d.f0) (dDiv (dMul (dWrap (dSub a b)) (dOfInt 1600)) (dMul (dOfInt 2) dTwoPi))

def Dev.rocofAt (d : Dev) (src : List Nat) (p : Rat) : DWord :=
  dMul (dSub (d.freqAt src (p + 32)) (d.freqAt src (p - 32))) (dOfInt 200)

/-- RMS of the stage 2 output over one nominal cycle centred at a time in ticks. -/
def Dev.rmsAt (d : Dev) (ch : Nat) (centre : Rat) : DWord :=
  let half : Rat := (128000 : Rat) / ((d.f0 : Nat) : Rat)
  let lo := (centre - half).ceil.toNat
  let hi := (centre + half).ceil.toNat
  let l := (List.range (hi - lo)).map (fun j => dOfCount (((d.sampAt ch (lo + j)).map (fun x => x.y)).getD 0))
  dSqrt (dDiv (l.foldl (fun (s : DWord) x => dAdd s (dMul x x)) 0) (dOfInt (max 1 l.length)))

/-- The phasor of a source at a place, in RMS counts: divided by |H(Δf)| for PRESET_P and PRESET_Q (R233). -/
def Dev.phasorAt (d : Dev) (src : List Nat) (preset : Nat) (p : Rat) : Cpx :=
  let z := d.pathAt src p
  let h := if preset = 0 ∨ preset = 2 then magResponse d.f0 preset (dSub (d.freqAt src p) (dOfInt d.f0)) else dOne
  (dDiv z.1 h, dDiv z.2 h)

/-- A channel slot of a LOCAL record at epoch `e`: its two words. -/
def Dev.localSlot (d : Dev) (e : Nat) (ch : ChanEntry) : Word × Word :=
  let src := d.filsinOf ch
  let preset := d.presetOf (src.headD 0)
  let t : Rat := ((e * 12800 : Nat) : Rat) / ((d.rate : Nat) : Rat)
  let p := t + ((presetDelay (d.bit Fld.CRT_CFG_F_NOM) d.rate preset : Nat) : Rat)
  let scale := dOfF32 ch.scale
  let offset := dOfF32 ch.offset
  if ch.enable = false then (0, 0)
  else if ch.kind = 0 then
    let y := zScale scale (d.phasorAt src preset p)
    let w := if dAbs offset = 0 then y else zMul y (Config.f64Cos offset, Config.f64Sin offset)
    (fOfF64 w.1, fOfF64 w.2)
  else if ch.kind = 1 then (fOfF64 (d.freqAt src p), 0)
  else if ch.kind = 2 then (fOfF64 (d.rocofAt src p), 0)
  else
    let x := if preset = 3 then (d.pathAt src p).1 else d.rmsAt (src.headD 0) (t * 20)
    (fOfF64 (dAdd (dMul x scale) offset), 0)

/-- A frequency or ROCOF slot derives from a phasor below 2% of full scale, or its frequency is more than 5 Hz off (R235). -/
def Dev.weakSlot (d : Dev) (e : Nat) (ch : ChanEntry) : Bool :=
  let src := d.filsinOf ch
  let t : Rat := ((e * 12800 : Nat) : Rat) / ((d.rate : Nat) : Rat)
  let p := t + ((presetDelay (d.bit Fld.CRT_CFG_F_NOM) d.rate (d.presetOf (src.headD 0)) : Nat) : Rat)
  ch.enable && (decide (ch.kind = 1) || decide (ch.kind = 2)) &&
    (dLt (zAbs (d.phasorAt src (d.presetOf (src.headD 0)) p)) (dMul dFullRms (dFrac 2 100)) || beyond (dSub (d.freqAt src p) (dOfInt d.f0)) (dOfInt 5))

/-- The estimation window of a LOCAL entry in G-time: T_E ∓ (D_p + 3.75 ms), which is 48 fine samples (R233). -/
def Dev.localWindow (d : Dev) (e : Nat) (ent : StreamEntry) : Nat × Nat :=
  let t := epochTime d.rate e
  let w := (d.localDelay ent + 48) * 20 * tick16
  (t - w, t + w)

/-- The records can be estimated: every channel's module measures, its chain since before the window (R214, R221), and the fine samples up to 3.125 ms
after T_E + D_p have come. -/
def Dev.localReady (d : Dev) (e : Nat) (ent : StreamEntry) : Bool :=
  let win := d.localWindow e ent
  let need := (e * 12800 + d.rate - 1) / max 1 d.rate + d.localDelay ent + 41
  ((d.chansOf ent).flatMap d.filsinOf).all (fun ch =>
    d.measuring (ch / 12) && decide ((d.feMod (ch / 12)).measAt < win.1) && decide (need ≤ (d.feMod (ch / 12)).fineTop))

/-- The record of LOCAL stream `i` for epoch `e`: its slots, and SRC_INVALID as R235 sets it. -/
def Dev.localRec (d : Dev) (i e : Nat) (ent : StreamEntry) : Rec :=
  let slots := d.chansOf ent
  let win := d.localWindow e ent
  let lo := (win.1 + tick16 - 1) / tick16
  let hist : List Samp := (slots.flatMap d.filsinOf).flatMap (fun ch =>
    (List.range (tickOf win.2 + 1 - lo)).filterMap (fun j => d.sampAt ch (lo + j)))
  let bad := hist.any (fun x => x.ovr || !x.refOk) || slots.any (d.weakSlot e)
  { stream := i, qual := qPresent + qSrcInvalid * b2n bad, type := 5, nchan := ent.nchan, origin := 0,
    body := .slots (slots.map (d.localSlot e)) }

/-- A record that was formed here goes to the stream's mirror (R38). -/
def Dev.toMirror (d : Dev) (ent : StreamEntry) (e : Nat) (r : Rec) : Dev :=
  if ent.mirror ≠ d.deviceNo ∧ d.view.members.testBit ent.mirror = true ∧ d.joined = true then d.send ent.mirror (.mirrorRec e r) else d

/-- The entry of LOCAL stream `i` for epoch `e`, where its record is to be estimated here and can be. -/
def Dev.localDue (d : Dev) (i e : Nat) : Option StreamEntry :=
  (d.entryAt i e).filter (fun ent => decide (ent.type = 5) && decide (ent.primary = d.deviceNo) && d.craterRuns && (d.stored e i).isNone
    && d.localReady e ent)

/-- The record of LOCAL stream `i` for epoch `e`, committed here and sent to its mirror. R92 names no LAST_PORT and no LAST_RX for it: free
values (log 138). -/
def Dev.localEstimate (d : Dev) (i e : Nat) : Dev :=
  match d.localDue i e with
  | none => d
  | some ent =>
    let z := d.draw
    (z.2.commitRec i ent (epochTime d.rate e) (d.localRec i e ent) (z.1 / 256) (z.1 % 256)).toMirror ent e (d.localRec i e ent)

/-- The work item of a LOCAL stream, of ORIGIN 0x03, is served; as it completes its record is committed (R233, R329). -/
def Dev.localItem (d : Dev) (i e : Nat) : Dev :=
  if (d.localDue i e).isNone then d
  else
    let r := d.serve 0x03 i
    if r.2 then r.1.localEstimate i e else r.1

/-- LOCAL_ESTIMATION (R233). -/
def execLocalEstimation (dt stream epoch : Nat) (s : State) : Answer := s.run dt (fun _ d => d.localItem stream epoch)

/-! ## Calibration commands (R245, R246) -/

/-- The 16-byte block of an ADC. -/
def Dev.calBlock (d : Dev) (a : AdcSt) : Bytes :=
  let v := a.valsAt d.nowTick
  leBytes 4 (fOfF64 v.gain).toNat ++ leBytes 4 (fOfF64 v.offset).toNat ++ leBytes 4 (fOfF64 v.delay).toNat ++
    leBytes 4 (min (2 ^ 32 - 1) ((d.up - a.acceptedAt) / 1000000000))

def calRead (m : Nat) (buf : HostBuf) (d : Dev) : Dev × CmdRes :=
  if 3 < m then (d, .done sRange 0)
  else if !d.measuring m then (d, .done sNotValid 0)
  else if buf.len < 208 then (d, .done sRange 0)
  else (d, .block ((d.feMod m).adcs.flatMap d.calBlock) (some buf.addr))

/-- CAL_READ (R246). -/
def execCalRead (c : Ctx) (module : Nat) (buf : HostBuf) (s : State) : Answer :=
  s.run 0 (fun _ d => d.accept c false (some 3) (calRead module buf))

def calRetry (m mask : Nat) (d : Dev) : Dev × CmdRes :=
  if 3 < m then (d, .done sRange 0)
  else
    let d1 := (bitsOf 13 mask).foldl (fun (x : Dev) a =>
      (x.setFbit (Fld.CAL_FAULTm_ADC m) a false).updFeMod m (fun s => s.modAdc a (fun y => { y with refusals := 0 }))) d
    (d1.setFld (Fld.CAL_STATm_HALT m) 0, .ok)

/-- CAL_RETRY (R245). -/
def execCalRetry (c : Ctx) (module mask : Nat) (s : State) : Answer :=
  s.run 0 (fun _ d => d.accept c false (some 3) (calRetry module mask))

/-! ## A step of G-time (R214) -/

/-- G-time steps: the chains restart empty; what is timed in ticks moves with the scale. `step16` is the step in 2⁻¹⁶ ns. -/
def Dev.acqStep (d : Dev) (step16 : Int) : Dev :=
  let delta : Int := (d.nowTick : Int) - (tickOf ((d.g16 : Int) - step16).toNat : Int)
  let move (k : Nat) : Nat := ((k : Int) + delta).toNat
  (d.modAcq (fun a => { a with
    fineLast := none
    mods := a.mods.map (fun s =>
      { (s.restartChain d.g16) with
        strobeK := none, lastK := none
        verify := s.verify.map (fun v => { v with effK := move v.effK })
        win := s.win.map (fun w => { w with from_ := move w.from_ })
        fade := s.fade.map (fun f => (f.1, move f.2.1, f.2.2))
        adcs := s.adcs.map (fun x => { x with raw := [], ramp := x.ramp.map (fun r => (move r.1, r.2.1, r.2.2)) }) }) })).restartSeconds

end Sys2Proof.Machine
end

