-- ==== Sys2Proof/Machine/GridRows.lean ====
section
/-! DEFINITION. The rows of the table of operations that concern ingest and Crater. -/

namespace Sys2Proof.Machine

open Sys2Proof

/-! ## Pair exchange (R116) -/

/-- The epoch has a slot here, or may have one. -/
def Dev.pairOpen (d : Dev) (e : Nat) : Bool := d.craterRuns && decide (d.crt.nextDeliver ≤ e) && decide (e ≤ d.oldestOpen + 127)

/-- The epoch belongs to the present run. -/
def Dev.inRun (d : Dev) (e : Nat) : Bool := d.craterRuns && decide (d.crt.first ≤ e)

/-- PAIR_HAVE arrives. A device that does not seal the epoch holds no record of it and says so. -/
def Dev.pairHave (d : Dev) (p e : Nat) (streams : List Nat) : Dev :=
  if d.inRun e then
    let d1 := if d.pairOpen e then d.setPair e p { d.pair e p with have_ := some streams } else d
    if e < d.crt.nextSeal then d1.answerHave e p streams else d1
  else d.send p (.pairDone e 0)

/-- PAIR_ACK goes out once every announced record is held. -/
def Dev.ackPair (d : Dev) (p e : Nat) : Dev :=
  let x := d.pair e p
  if x.announced.any (fun n => decide (n ≤ x.recs.length)) && !x.ackSent then
    (d.setPair e p { x with ackSent := true }).send p (.pairAck e x.recs.length)
  else d

def Dev.pairRec (d : Dev) (p e : Nat) (r : Rec) : Dev :=
  if d.pairOpen e then
    let x := d.pair e p
    (d.setPair e p { x with recs := x.recs.put r.stream r }).ackPair p e
  else d

def Dev.pairDone' (d : Dev) (p e n : Nat) : Dev :=
  if d.pairOpen e then (d.setPair e p { d.pair e p with announced := some n }).ackPair p e else d.send p (.pairAck e 0)

def Dev.pairAck (d : Dev) (p e : Nat) : Dev := if d.pairOpen e then d.setPair e p { d.pair e p with acked := true } else d

/-- A mirrored LOCAL record is committed like a record of this device (R38). R92 names no LAST_PORT and no LAST_RX for it: free
values (log 138). -/
def Dev.mirrorRec (d : Dev) (e : Nat) (r : Rec) : Dev :=
  match d.entryAt r.stream e with
  | none => d
  | some ent =>
    if ent.type = 5 ∧ ent.primary ≠ d.deviceNo then
      let z := d.draw
      z.2.commitRec r.stream ent (epochTime d.rate e) r (z.1 / 256) (z.1 % 256)
    else d

/-- An amendment record of the partner is placed here with SRC 1, unless one exists (R133). -/
def Dev.amendFwd (d : Dev) (a : Amendment) : Dev :=
  let e := epochOfShort d.crt.nextSeal a.shortEpoch
  if d.hasAmend a.record.stream e then d else d.placeAmend e { a with src := 1 }

/-- A late record reaches Crater. -/
def Dev.lateRow (d : Dev) (i e : Nat) (r : Rec) (rx : Nat) : Dev :=
  if d.sealedHere e && (d.entryAt i e).isSome then d.lateRecord i e { r with stream := i, origin := 0 } rx else d

/-! ## Host ingest (R85, R86, R461) -/

/-- The stream whose block comes first in a C37.118 data frame, 0xFFFF_FFFF where none matches. -/
def Dev.matchedStream (d : Dev) (rx : Nat) (b : Bytes) : Nat :=
  let named := d.namedC37 { host := true, port := 7 } (beNat (slice b 4 2)) (beNat (slice b 6 4)) (beNat (slice b 10 4) % 2 ^ 24) rx
  match named.find? (fun x => decide (x.2.pmuBlk = 0)) with | some x => x.1 | none => 0xFFFFFFFF

/-- Ingest takes the next descriptor of a HOST_INGEST ring: FRAME_LEN, the frame, and whether a reserved field is set. -/
def Dev.hostIngest (d : Dev) (n len : Nat) (f : HostFrame) (resv : Bool) : Dev :=
  if d.runs n 2 && d.hostReady && decide (0 < d.available n) && d.ingests Fld.ING_CTRL_HOSTFEED_EN then
    let k := (d.ring n).next
    let session := (d.ring n).session
    let d1 := d.fetch n
    let badLen := resv || decide (len = 0) || decide (8192 < len)
    let badFrame := decide (f.bytes.length ≠ len) || decide (beNat (slice f.bytes 0 1) ≠ 0xAA) || decide (c37Type f.bytes ≠ 0)
    if f.descOk = false then d.readFails n
    else if badLen then d1.complete n k session sBadDesc 0 0 []
    else if f.frameOk = false then (d1.count Reg.HIF_DMA_ERR).complete n k session sBadDesc 0 0 []
    else if badFrame then d1.complete n k session sBadDesc 0 0 []
    else
      let rx := d1.g16
      let m := d1.matchedStream rx f.bytes
      (d1.ingestC37 { host := true, port := 7, ecc := f.ecc } 0 rx f.bytes).complete n k session sOk m 0 []
  else d

/-! ## Whole writes of a snapshot (R469) -/

/-- A snapshot that waits is written whole, once buffers are posted. -/
def Dev.wholeWrite (d : Dev) : Dev := d.pumpSnapRing

/-! ## The rows -/

/-- ING_ENABLE (R88): a write of ING_CTRL with EN 1. -/
def execIngEnable (value : Word) (s : State) : Answer :=
  s.run 0 (fun k d => if bitsAt value 0 1 = 1 then d.unlessGated Reg.ING_CTRL (writeIngCtrl k value) else d)

/-- ING_DISABLE (R89): a write of ING_CTRL that clears EN or a protocol bit. -/
def execIngDisable (value : Word) (s : State) : Answer :=
  s.run 0 (fun k d =>
    if (List.range 5).any (fun b => (d.reg Reg.ING_CTRL).toNat.testBit b && !value.toNat.testBit b) then
      d.unlessGated Reg.ING_CTRL (writeIngCtrl k value) else d)

/-- ING_DRAIN_DONE (R89). -/
def execIngDrainDone (dt : Nat) (s : State) : Answer := s.run dt (fun _ d => d.drainDone)

/-- HOST_INGEST_TAKE (R85). -/
def execHostIngestTake (dt ring len : Nat) (frame : HostFrame) (resv : Bool) (s : State) : Answer :=
  s.run dt (fun _ d => d.hostIngest ring len frame resv)

/-- SNAPSHOT_DELIVER (R32): `bad` names streams whose stored record an uncorrectable error has struck (R104). -/
def execSnapshotDeliver (dt : Nat) (bad : List Nat) (s : State) : Answer := s.run dt (fun _ d => d.deliver bad)

/-- SNAPSHOT_WHOLE_WRITE (R469). -/
def execSnapshotWholeWrite (dt : Nat) (s : State) : Answer := s.run dt (fun _ d => d.wholeWrite)

/-- STREAM_SET (R81). -/
def execStreamSet (c : Ctx) (stream : Nat) (image : Bytes) (eff : Nat) (imm : Bool) (s : State) : Answer :=
  s.run 0 (fun _ d => d.accept c true none (streamSet stream image eff imm))

/-- STREAM_CLR (R82). -/
def execStreamClr (c : Ctx) (stream eff : Nat) (imm : Bool) (s : State) : Answer :=
  s.run 0 (fun _ d => d.accept c false none (streamClr stream eff imm))

/-- CHAN_SET (R62). -/
def execChanSet (c : Ctx) (first count : Nat) (images : Bytes) (s : State) : Answer :=
  s.run 0 (fun _ d => d.accept c false none (chanSet first count images))

/-- STREAM_STATS (R92). -/
def execStreamStats (c : Ctx) (stream : Nat) (s : State) : Answer := s.run 0 (fun _ d => d.accept c false none (streamStats stream))

/-- CONVERSION_ITEM (R64): the conversion item of a stream that an engine runs completes; `ecc` 1 is a corrected error in its cells, 2 an
uncorrectable one. -/
def execConversionItem (dt stream ecc : Nat) (s : State) : Answer :=
  s.run dt (fun _ d => match d.runningItem 1 stream with | none => d | some r => d.convDone r ecc)

/-- EPOCH_OPEN (R101). -/
def execEpochOpen (dt epoch : Nat) (s : State) : Answer := s.run dt (fun _ d => d.openEpoch epoch)

/-- LOCAL_SEAL (R107): corrected errors met in the sweep of the slot, and the streams whose record reads back with a double-bit error
or with a bad CRC. -/
def execLocalSeal (dt corrected : Nat) (dbe crcBad : List Nat) (s : State) : Answer :=
  s.run dt (fun _ d => if d.canSeal then d.localSeal false corrected dbe crcBad else d)

/-- EARLY_SEAL (R106), with what the read-back of R104 finds. -/
def execEarlySeal (x : SealPass) (s : State) : Answer :=
  s.run x.dt (fun _ d => if d.canSealEarly then d.localSeal true x.corrected x.dbe x.crcBad else d)

/-- FILL_REFORM (R115). -/
def execFillReform (dt epoch : Nat) (s : State) : Answer := s.run dt (fun _ d => d.reform epoch)

/-- PAIR_HAVE (R116): from a device, with its MSG_SEQ. -/
def execPairHave (dt src seq epoch : Nat) (streams : List Nat) (s : State) : Answer :=
  s.run dt (fun _ d => d.onMsg src 2 seq (fun x => x.pairHave src epoch streams))

/-- PAIR_REC (R116). -/
def execPairRec (dt src seq epoch : Nat) (rec' : Rec) (s : State) : Answer :=
  s.run dt (fun _ d => d.onMsg src 2 seq (fun x => x.pairRec src epoch rec'))

/-- PAIR_DONE (R116). -/
def execPairDone (dt src seq epoch count : Nat) (s : State) : Answer :=
  s.run dt (fun _ d => d.onMsg src 2 seq (fun x => x.pairDone' src epoch count))

/-- PAIR_ACK (R116). -/
def execPairAck (dt src seq epoch _count : Nat) (s : State) : Answer :=
  s.run dt (fun _ d => d.onMsg src 2 seq (fun x => x.pairAck src epoch))

/-- MANIFEST_PUBLISH (R117). -/
def execManifestPublish (dt epoch : Nat) (s : State) : Answer := s.run dt (fun _ d => d.publish epoch)

/-- SEAL_MANIFEST (R118). -/
def execSealManifest (dt src seq : Nat) (manifest : Manifest) (s : State) : Answer :=
  s.run dt (fun _ d => d.onMsg src 2 seq (fun x =>
    let y := if manifest.forwarded then x.modFab (fun f => { f with fwdGot := f.fwdGot.update src 0 (· + 1) }) else x
    if y.takesManifest manifest then (y.keepManifest manifest).emptyManifest manifest.epoch else y))

/-- CONFIRM (R119). -/
def execConfirm (dt : Nat) (s : State) : Answer := s.run dt (fun _ d => d.confirm)

/-- CONFIRM_TIMEOUT (R122). -/
def execConfirmTimeout (dt epoch : Nat) (s : State) : Answer := s.run dt (fun _ d => d.confTimeout epoch)

/-- LATE_RECORD (R132): a converted record of an epoch that is sealed, with its receive time-stamp. -/
def execLateRecord (dt stream epoch : Nat) (rec' : Rec) (rx : Nat) (s : State) : Answer :=
  s.run dt (fun _ d => d.lateRow stream epoch rec' rx)

/-- AMEND_FWD (R133). -/
def execAmendFwd (dt src seq : Nat) (amendment : Amendment) (s : State) : Answer :=
  s.run dt (fun _ d => d.onMsg src 2 seq (fun x => x.amendFwd amendment))

/-- HIST_READ (R136). -/
def execHistRead (c : Ctx) (epoch : Nat) (buf : HostBuf) (s : State) : Answer := s.run 0 (fun _ d => d.accept c false none (histRead epoch buf))

/-- AMEND_READ (R137). -/
def execAmendRead (c : Ctx) (stream epoch addr : Nat) (s : State) : Answer :=
  s.run 0 (fun _ d => d.accept c false none (amendRead stream epoch addr))

/-- MIRROR_REC (R38). -/
def execMirrorRec (dt src seq epoch : Nat) (rec' : Rec) (s : State) : Answer :=
  s.run dt (fun _ d => d.onMsg src 2 seq (fun x => x.mirrorRec epoch rec'))

end Sys2Proof.Machine
end

