-- ==== Sys2Proof/Machine/FabRows.lean ====
section
/-! DEFINITION. The rows of the table of operations that concern the Ulpex fabric. -/

namespace Sys2Proof.Machine

open Sys2Proof

/-! ## Links (R419 to R425, R427) -/

/-- A write of FAB_CTRL: a link whose bit is set trains, a link whose bit is cleared is down (R424). -/
def writeFabCtrl (v : Word) (d : Dev) : Dev :=
  let old := d.fld Fld.FAB_CTRL_LINK_EN
  let new := bitsAt v 0 6
  let d1 := d.writePlain Reg.FAB_CTRL v
  let on (x : Dev) (l : Nat) : Dev := ((x.setLinkState l 1).setFld (Fld.FAB_Ln_STATUS_WIDTH l) 0).clearLink l { enabledAt := x.up }
  let off (x : Dev) (l : Nat) : Dev := ((x.setLinkState l 0).setFld (Fld.FAB_Ln_STATUS_WIDTH l) 0).clearLink l {}
  let d2 := (List.range 6).foldl (fun x l =>
    if new.testBit l && !old.testBit l then on x l else if old.testBit l && !new.testBit l then off x l else x) d1
  if (List.range 6).any (fun l => d.linkUp l && !d2.linkUp l) then d2.refreshRoutes.floodLsa else d2

/-- A link has trained at L1S with its partner: it exchanges HELLO. -/
def Dev.ulxTrained (d : Dev) (l : Nat) : Dev :=
  if decide (l < 6) && decide (d.linkState l = 1) then
    ((d.setLinkState l 2).modLink l (fun s => { s with trained := true })).sendOnLink l d.deviceNo (.hello (d.ownHello l))
  else d

/-- Another link that is up already reaches the same device and the same link number of it. -/
def Dev.linkTaken (d : Dev) (l : Nat) (h : HelloMsg) : Bool :=
  (List.range 6).any (fun m => decide (m ≠ l) && d.linkUp m && decide (d.fld (Fld.FAB_Ln_STATUS_PEER m) = h.device)
    && decide (d.fld (Fld.FAB_Ln_STATUS_PEER_LINK m) = h.link))

/-- The state that a HELLO gives its link (R427). -/
def Dev.helloState (d : Dev) (l : Nat) (h : HelloMsg) : Nat :=
  if h.fabricId ≠ d.fld Fld.FAB_CFG_FABRIC_ID then 4
  else if h.device = d.deviceNo ∨ d.linkTaken l h = true then 5
  else if h.rate ≠ d.rate ∨ h.wait ≠ d.fld Fld.CRT_CFG_WAIT then 6
  else 3

/-- A waiting FAB_JOIN ends with a status. -/
def Dev.joinFails (d : Dev) (status : Nat) : Dev :=
  if d.waitsFor (fun w => decide (w = .fabJoin)) then
    (d.modFab (fun f => { f with joining := none, autoRejoin := false })).finishWaits (fun w => decide (w = .fabJoin)) status 0
  else d

/-- A link that comes up runs at the widest state its lanes allow. -/
def Dev.linkComesUp (d : Dev) (l : Nat) : Dev :=
  ((d.setFld (Fld.FAB_Ln_STATUS_WIDTH l) (widestOf (d.fld (Fld.FAB_Ln_STATUS_LANE_FAIL l)))).modLink l (fun s =>
    { s with win := d.up / 1000000, quietFrom := d.up / 1000000 })).refreshRoutes.floodLsa

/-- HELLO of a link's partner. -/
def Dev.helloRow (d : Dev) (l : Nat) (h : HelloMsg) : Dev :=
  let st := d.linkState l
  if decide (6 ≤ l) || decide (st < 2) then d
  else if ((d.link l).hello).any (fun o => decide (o.device ≠ h.device) || decide (o.fabricId ≠ h.fabricId)) then d.linkDown l
  else
    let new := d.helloState l h
    let d1 := (((d.modLink l (fun s => { s with hello := some h })).setFld (Fld.FAB_Ln_STATUS_PEER l) h.device).setFld
      (Fld.FAB_Ln_STATUS_PEER_LINK l) h.link).setLinkState l new
    if new = 3 then (if st = 3 then d1 else d1.linkComesUp l)
    else
      -- such a link carries nothing but HELLO: its packets go, and their messages are sent again from end to end
      let cleared := d1.clearLink l { (d1.link l) with queue := [], replay := [], replays := 0 }
      let d2 := if st = 3 then cleared.refreshRoutes.floodLsa else cleared
      if new = 5 then d2.joinFails sDupDevice else if new = 6 then d2.joinFails sRange else d2

/-- The packets of the replay buffer are sent again; after 16 replays without progress the link goes down instead (R419). -/
def Dev.replayAll (d : Dev) (l : Nat) : Dev :=
  let s := d.link l
  if s.replay.isEmpty then d
  else if 16 ≤ s.replays then d.linkDown l
  else
    let d1 := ((d.count (Reg.FAB_Ln_RETRY l)).modLink l (fun s => { s with replays := s.replays + 1, ackAt := d.up }))
    s.replay.foldl (fun (x : Dev) (p : SentPkt) =>
      let r := (x.link l).returns false
      ((x.modLink l (fun k => k.paid r)).countTraffic l (pktBytes p.len)).emit (.linkPkt l (p.bytes r) true)) d1

/-- An acknowledgement or NAK: packets up to ACK_SEQ leave the replay buffer, and a NAK replays the rest (R419). -/
def Dev.takeAck (d : Dev) (l ackSeq : Nat) (nak : Bool) : Dev :=
  let s := d.link l
  let left := s.replay.filter (fun p => laterThan 12 p.seq ackSeq)
  let progress := decide (left.length < s.replay.length)
  let d1 := if progress then d.modLink l (fun s => { s with replay := left, replays := 0, ackAt := d.up }) else d
  if nak then d1.replayAll l else d1

/-- A packet for another device goes on with one hop fewer (R418), and stands in the receive buffer of its link until it does; any other packet
leaves that buffer at once (R420). -/
def Dev.forwardPkt (d : Dev) (l : Nat) (p : LinkPacket) : Dev :=
  if p.dst = d.deviceNo ∨ d.linkUp l = false then d.freeBuffer (some l) (p.vc % 4) (creditsOf p.len)
  else if p.hopsLeft = 0 then (d.count Reg.FAB_TTL_DROP).freeBuffer (some l) (p.vc % 4) (creditsOf p.len)
  else d.enqueuePkt { inl := some l, vc := p.vc, dst := p.dst, src := p.src, hops := p.hopsLeft - 1, msgSeq := p.msgSeq, first := p.first, last := p.last, payload := p.payload }

/-- A width state is taken, and counted (R425). -/
def Dev.takeWidth (d : Dev) (l w : Nat) : Dev :=
  if d.fld (Fld.FAB_Ln_STATUS_WIDTH l) = w then d
  else (((d.setFld (Fld.FAB_Ln_STATUS_WIDTH l) w).count (Reg.FAB_Ln_WIDTH_CHG l)).modLink l (fun s =>
    { s with quietFrom := d.up / 1000000 + 1 })).floodLsa

/-- This end changes the width: a link control packet signals it to the other end, which changes with it. -/
def Dev.setWidth (d : Dev) (l w : Nat) : Dev :=
  if d.fld (Fld.FAB_Ln_STATUS_WIDTH l) = w then d else (d.sendControl l false (Config.widthSignal w)).takeWidth l w

/-- A link control packet that signals a change of width is obeyed. -/
def Dev.widthSignalled (d : Dev) (l : Nat) (payload : Bytes) : Dev :=
  if payload = [] ∨ d.linkUp l = false then d
  else match Config.widthNamed payload with | some w => if w < 4 then d.takeWidth l w else d | none => d

/-- A packet received on a link, with the codewords corrected in it and those not correctable (R417 to R420). A link control
packet carries no message and is not numbered among those that are retried. On a link that failed a check of HELLO nothing is taken or
answered (R427). -/
def Dev.linkPacket (d : Dev) (l : Nat) (p : LinkPacket) (fecCorr fecUncorr : Nat) : Dev :=
  if decide (6 ≤ l) || decide (d.linkState l < 2) then d
  else
    let d1 := (d.count (Reg.FAB_Ln_FEC_CORR l) fecCorr).count (Reg.FAB_Ln_FEC_UNCORR l) fecUncorr
    let nakOf (x : Dev) : Dev := x.sendControl l true []
    if 3 < d.linkState l then d1
    else if !p.crcOk || decide (0 < fecUncorr) then nakOf d1
    else
      let d2 := (d1.modLink l (fun s => { s with credits := modifyAt s.credits (p.crVc % 4) (fun c => c + p.credits) })).takeAck l p.ackSeq p.nak
      let d3 :=
        if d2.linkState l < 2 then d2
        else if p.kind = 1 then d2.widthSignalled l p.payload
        else if ((d2.link l).rxSeq + 1) % 4096 ≠ p.seq then nakOf d2
        else
          let x := d2.modLink l (fun s => { s with rxSeq := p.seq })
          (if p.kind = 0 then x.forwardPkt l p else x.freeBuffer (some l) (p.vc % 4) (creditsOf p.len)).sendControl l false []
      d3.pumpAll l

/-- 10 µs without an acknowledgement: a replay (R419). -/
def Dev.replayTimeout (d : Dev) (l : Nat) : Dev :=
  if decide (l < 6) && decide (2 ≤ d.linkState l) && !(d.link l).replay.isEmpty && decide ((d.link l).ackAt + 10000 ≤ d.up) then d.replayAll l
  else d

/-- A lane is marked failed; the link runs at the widest state that is left (R424). -/
def Dev.laneFail (d : Dev) (l lane : Nat) : Dev :=
  if decide (6 ≤ l) || decide (4 ≤ lane) then d
  else
    let d1 := d.setFbit (Fld.FAB_Ln_STATUS_LANE_FAIL l) lane true
    if d1.linkUp l then d1.setWidth l (min (d1.fld (Fld.FAB_Ln_STATUS_WIDTH l)) (widestOf (d1.fld (Fld.FAB_Ln_STATUS_LANE_FAIL l)))) else d1

/-- The conditions of R425 for shedding hold. -/
def Dev.sheds (d : Dev) (l : Nat) : Bool :=
  let s := d.link l
  let w := d.fld (Fld.FAB_Ln_STATUS_WIDTH l)
  decide (l < 6) && d.linkUp l && decide (0 < w) && decide (d.fld (Fld.FAB_Ln_CFG_MIN_STATE l) < w) && s.grow.isNone
    && s.grewAt.all (fun t => decide (t + 10000000000 ≤ d.up)) && decide (s.quietFrom + d.fld Fld.FAB_SHED_SHED_MS ≤ d.up / 1000000)

def Dev.shed (d : Dev) (l : Nat) : Dev := if d.sheds l then d.setWidth l (d.fld (Fld.FAB_Ln_STATUS_WIDTH l) - 1) else d

/-- Growth that was triggered completes. -/
def Dev.growDone (d : Dev) (l : Nat) : Dev :=
  match (d.link l).grow with
  | none => d
  | some t =>
    let d1 := d.modLink l (fun s => { s with grow := none, grewAt := some d.up })
    if d1.linkUp l then d1.setWidth l (min t (widestOf (d1.fld (Fld.FAB_Ln_STATUS_LANE_FAIL l)))) else d1

/-! ## Link state (R428) -/

/-- An LSA of another device: a later one is kept and flooded on. -/
def Dev.lsaRow (d : Dev) (l src seq : Nat) (links : List LsaLink) : Dev :=
  if src = d.deviceNo ∨ 64 ≤ src ∨ d.linkUp l = false then d
  else if (d.fab.lsas.find src).all (fun o => laterThan 32 seq o.seq) then
    let d1 := d.modFab (fun f => { f with lsas := f.lsas.put src ⟨seq, links⟩ })
    (((List.range 6).filter (fun m => decide (m ≠ l) && d1.linkUp m)).foldl (fun (x : Dev) m =>
      x.sendOnLink m src (.lsa seq links)) d1).refreshRoutes
  else d

/-! ## Messages from end to end (R423) -/

/-- Acknowledged messages leave the store. -/
def Dev.e2eAck (d : Dev) (src vc last : Nat) : Dev :=
  (d.modFab (fun f => { f with held := f.held.filter (fun h =>
    !(decide (h.dst = src) && decide (h.vc = vc) && h.sent && !laterThan 16 h.seq last)) })).flushHeld

/-- E2E_ACK goes to every source to which one is owed. -/
def Dev.sendAcks (d : Dev) : Dev :=
  d.fab.ackDue.foldl (fun (x : Dev) k =>
    match x.fab.rxMsg.find k with
    | some last => x.transmit (k / 4) 1 0 (.e2eAck (k % 4) last)
    | none => x) (d.modFab (fun f => { f with ackDue := [] }))

/-- Messages not acknowledged for 200 µs are sent again, where there is a route. -/
def Dev.resendLate (d : Dev) (dst : Nat) : Dev :=
  d.fab.held.foldl (fun (x : Dev) (h : HeldMsg) =>
    if h.dst = dst ∧ h.sent = true ∧ h.sentAt + 200000 ≤ x.up ∧ x.reach dst = true then
      ((x.modHeld h.dst h.vc h.seq (fun o => { o with sentAt := x.up })).transmit h.dst h.vc h.seq h.msg).count Reg.FAB_E2E_RETX
    else x) d

/-- A reachable destination that leaves a message unacknowledged for 1.0 ms is suspect. -/
def Dev.unackedSuspect (d : Dev) (dst : Nat) : Dev :=
  if d.reach dst && d.fab.held.any (fun h => decide (h.dst = dst) && h.sent && decide (h.firstAt + 1000000 ≤ d.up)) then d.suspect (maskOf [dst])
  else d

/-! ## Membership (R430 to R437) -/

def Dev.heartbeatSend (d : Dev) : Dev :=
  if d.joined && decide (d.fab.hbSentAt + 250000 ≤ d.up) then
    (d.modFab (fun f => { f with hbSentAt := d.up })).sendAll d.others (.heartbeat d.view.num)
  else d

def Dev.heartbeatFrom (d : Dev) (src : Nat) : Dev :=
  if d.view.members.testBit src then d.modFab (fun f => { f with hbAt := f.hbAt.put src d.up }) else d

def Dev.heartbeatTimeout (d : Dev) (n : Nat) : Dev :=
  if d.joined && d.others.testBit n && decide (d.fab.hbAt.getD n d.fab.hbSentAt + 1000000 ≤ d.up) then d.suspect (maskOf [n]) else d

/-- A coordinator adds a joiner: STATE is asked of every member, with no suspects. -/
def Dev.startJoin (d : Dev) (j : Nat) : Dev :=
  (d.sendAll d.others (.suspect d.view.num 0)).startChange 0 (some j) (some d.deviceNo)

/-- The next JOIN_REQ of the last second is acted on, where no view change runs. Only a device that is joined, or joining itself
beside a higher-numbered one, acts. -/
def Dev.serveJoins (d : Dev) : Dev :=
  let reqs := d.fab.joinReqs.keep (fun _ t => decide (d.up < t + 1000000000))
  match reqs with
  | [] => d.modFab (fun f => { f with joinReqs := [] })
  | (j, _) :: rest =>
    if d.fab.change.isSome then d.modFab (fun f => { f with joinReqs := reqs })
    else if d.view.members.testBit j then d.modFab (fun f => { f with joinReqs := rest })
    else if d.joined || (d.fab.joining.isSome && decide (d.deviceNo < j)) then
      (d.modFab (fun f => { f with joinReqs := rest })).startJoin j
    else d.modFab (fun f => { f with joinReqs := reqs })

/-- SUSPECT: its suspects are adopted; one that names none asks for STATE only (R436). -/
def Dev.suspectRow (d : Dev) (src view suspects : Nat) : Dev :=
  if view ≠ d.view.num ∨ d.others.testBit src = false then d
  else if suspects = 0 then d.startChange 0 none (some src)
  else d.adopt suspects

/-- STATE reaches a coordinator. -/
def Dev.stateRow (d : Dev) (src view u suspects : Nat) : Dev :=
  if view ≠ d.view.num ∨ d.others.testBit src = false then d
  else
    let d1 := d.adopt suspects
    match d1.fab.change with
    | none => d1
    | some c =>
      if putBit (suspects ||| c.suspects) d1.deviceNo false = putBit suspects d1.deviceNo false then
        ((d1.modFab (fun f => { f with change := some { c with states := c.states.put src (u, suspects) } })).tryNewView).serveJoins
      else d1

/-- NEW_VIEW: the view is installed, or this device learns that it is excluded. -/
def Dev.newViewRow (d : Dev) (src : Nat) (m : NewViewMsg) : Dev :=
  let v : FabView := { num := m.view, fromEpoch := m.fromEpoch, members := m.members, summit := m.summit, minority := m.minority }
  let self := d.deviceNo
  if d.others.testBit src && decide (m.prevView = d.view.num) then
    if m.members.testBit self then (d.install v d.view).serveJoins else d.excluded m.view
  else if d.fab.joining.isSome && m.members.testBit self then
    let gone (n : Nat) : Bool := d.others.testBit n && !m.members.testBit n
    let d1 := d.modFab (fun f => { f with
      held := f.held.filter (fun h => !gone h.dst), txMsg := f.txMsg.keep (fun k _ => !gone (k / 4))
      rxMsg := f.rxMsg.keep (fun k _ => !gone (k / 4)) })
    (d1.install v { d.view with members := maskOf [self] }).serveJoins
  else d

/-- FWD_DONE is held, with the forwarded manifests that it announces (R432). -/
def Dev.fwdDoneRow (d : Dev) (src : Nat) (m : FwdDone) : Dev :=
  d.modFab (fun f => { f with
    fwdDone := f.fwdDone.put m.view (putBit (f.fwdDone.getD m.view 0) src true), fwdDue := f.fwdDue.update src 0 (· + m.count) })

/-- DEPART: the sender is suspected (R431). -/
def Dev.departRow (d : Dev) (src : Nat) : Dev := if d.joined then d.suspect (maskOf [src]) else d

/-- The members of joined neighbours that can be reached; where no neighbour is joined, the devices that can be reached. -/
def Dev.joinTarget (d : Dev) : Option Nat :=
  let hellos := ((List.range 6).filter (fun l => d.linkUp l)).filterMap (fun l => (d.link l).hello)
  let joined := hellos.filter (fun h => h.joined)
  let members := joined.foldl (fun m h => m ||| h.members ||| maskOf [h.device % 64]) 0
  let reach := maskOf (d.fab.primary.map (fun (x : Nat × Route) => x.1))
  if joined.isEmpty then (bitsOf 64 (putBit reach d.deviceNo true)).head?.filter (fun n => decide (n ≠ d.deviceNo))
  else (bitsOf 64 (members &&& putBit reach d.deviceNo false)).head?

/-- Streams that this device owns: those with an entry. -/
def Dev.ownedStreams (d : Dev) : Nat := (d.ing.streams.filter (fun (s : Nat × StreamSt) => (s.2.entry.cur <|> s.2.entry.newest).isSome)).length

/-- JOIN_REQ goes out, and the links grow (R425). -/
def Dev.requestJoin (d : Dev) (target : Option Nat) (auto_ : Bool) : Dev :=
  let d1 := ((List.range 6).foldl (fun (x : Dev) l => x.startGrow l true) d).modFab (fun f => { f with joining := some d.up, autoRejoin := auto_ })
  match target with
  | some t => d1.send t (.joinReq d.rate (d.fld Fld.CRT_CFG_WAIT) (d.fld Fld.GLB_ID_REV) d.ownedStreams)
  | none => d1

def Dev.joinReqRow (d : Dev) (src rate wait : Nat) : Dev :=
  if rate = d.rate ∧ wait = d.fld Fld.CRT_CFG_WAIT then
    (d.modFab (fun f => { f with joinReqs := f.joinReqs.put src d.up })).serveJoins
  else d

/-- No member answered within 1 s (R436). -/
def Dev.joinTimeout (d : Dev) : Dev :=
  match d.fab.joining with
  | some t =>
    if t + 1000000000 ≤ d.up then
      (d.modFab (fun f => { f with joining := none, autoRejoin := false })).finishWaits (fun w => decide (w = .fabJoin)) sNotValid 0
    else d
  | none => d

/-- FAB_JOIN (R427, R436, R437). -/
def fabJoin (d : Dev) : Dev × CmdRes :=
  let any (st : Nat) : Bool := (List.range 6).any (fun l => decide (d.linkState l = st))
  if d.joined || d.fab.joining.isSome then (d, .done sBusy 0)
  else if (d.bit Fld.ING_CTRL_EN && !d.bit Fld.TIM_STATUS_ACQUIRED) || any 6 then (d, .done sRange 0)
  else if any 5 then (d, .done sDupDevice 0)
  else
    let d1 := (d.requestJoin d.joinTarget false).serveJoins
    (d1, if d1.joined then .ok else .wait .fabJoin)

/-- FAB_LEAVE (R431, R444). -/
def fabLeave (d : Dev) : Dev × CmdRes :=
  if d.joined then ((d.modFab (fun f => { f with leaving := true })).sendAll d.others (.depart 0), .wait .fabLeave)
  else (d, .done sNotValid 0)

/-- A split device that reaches a majority member rejoins, at most once in each 10 s (R435). -/
def Dev.autoRejoin (d : Dev) (target : Nat) : Dev :=
  if d.bit Fld.FAB_CFG_AUTO_REJOIN && d.bit Fld.CRT_STATUS_SPLIT && d.fab.joining.isNone && d.reach target
      && d.fab.rejoinAt.all (fun t => decide (t + 10000000000 ≤ d.up)) then
    (d.modFab (fun f => { f with rejoinAt := some d.up })).requestJoin (some target) true
  else d

/-! ## Histories (R436, R440) -/

def Dev.histReqRow (d : Dev) (src first last : Nat) (streams : List Nat) : Dev :=
  streams.foldl (fun (x : Dev) i => x.feedHistory src i first last) d

/-- A confirmed record joins a history, newest first, in place of the record of its epoch. -/
def putHist (r : ConfRec) (l : List ConfRec) : List ConfRec :=
  l.filter (fun x => decide (r.epoch < x.epoch)) ++ r :: l.filter (fun x => decide (x.epoch < r.epoch))

def Dev.histRecRow (d : Dev) (e count : Nat) (r : Rec) : Dev :=
  let ent? := ((d.stream r.stream).awaiting.map (fun (a : Nat × Bool × StreamEntry) => a.2.2)) <|> (d.stream r.stream).entry.newest
  match ent? with
  | none => d
  | some ent =>
    let h := d.hist r.stream
    let h' : StreamHist :=
      { recs := (putHist ⟨e, r, ent.chanBase, ent.nchan⟩ h.recs).take 257, count := count, lost := decide (ent.staleN ≤ count) }
    let d1 := d.modCrt (fun c => { c with hists := c.hists.put r.stream h' })
    match d1.fab.histWant.find r.stream with
    | some last => if last ≤ e then d1.historyHeld r.stream else d1
    | none => d1

/-! ## The summit (R441) -/

def Dev.summitRow (d : Dev) (src view : Nat) : Dev :=
  if view = d.view.num ∧ src = d.view.summit then d.setBit Fld.FAB_STATUS_ELECTION false else d

/-- The new summit holds VOTE and TIME_REPORT of every member: SUMMIT. `silent` are members in the safe state, which send no VOTE
and whose votes count as clear (R442), outside an election too: there the votes they sent before stop counting. -/
def Dev.summitElect (d : Dev) (silent : Nat) : Dev :=
  let m := d.view.members
  if d.bit Fld.FAB_STATUS_ELECTION && d.isSummit && decide ((d.fab.electVotes ||| silent) &&& m = m) && decide (d.fab.electTimes &&& m = m) then
    (((d.setBit Fld.FAB_STATUS_ELECTION false).modFum (fun f => { f with votes := f.votes.keep (fun n _ => !silent.testBit n) })).sendAll d.others
      (.summit d.view.num)).recount none false
  else if !d.bit Fld.FAB_STATUS_ELECTION && d.isSummit && d.joined then
    (d.modFum (fun f => { f with votes := f.votes.keep (fun n _ => !silent.testBit n) })).recount none false
  else d

/-! ## Reads (R444) -/

/-- One entry of FAB_ROUTE_READ; an absent route reads 0. -/
def Dev.routeBytes (d : Dev) (n : Nat) : Bytes :=
  match d.fab.primary.find n with
  | none => zeros 8
  | some r =>
    let a := d.fab.alternate.find n
    [1, BitVec.ofNat 8 r.link, BitVec.ofNat 8 r.hops, BitVec.ofNat 8 ((a.map (fun x => x.link)).getD 0),
     BitVec.ofNat 8 ((a.map (fun x => x.hops)).getD 0), BitVec.ofNat 8 r.next, 0, 0]

def fabRouteRead (buf : HostBuf) (d : Dev) : Dev × CmdRes :=
  if buf.len < 512 then (d, .done sRange 0) else (d, .block ((List.range 64).flatMap d.routeBytes) (some buf.addr))

def fabViewRead (buf : HostBuf) (d : Dev) : Dev × CmdRes :=
  let v := d.view
  let suspects := (d.fab.change.map (fun (c : ViewChange) => c.suspects)).getD 0
  if buf.len < 32 then (d, .done sRange 0)
  else
    (d, .block (leBytes 4 v.num ++ leBytes 8 v.fromEpoch ++ leBytes 8 v.members ++
      [BitVec.ofNat 8 v.summit, BitVec.ofNat 8 (coordinator v suspects d.deviceNo), BitVec.ofNat 8 (b2n v.minority)] ++ zeros 9) (some buf.addr))

/-- FAB_STREAM_DROP ends the listing of a lost stream (R439). -/
def fabStreamDrop (dev index : Nat) (d : Dev) : Dev × CmdRes :=
  let k := 8192 * dev + index
  if index < 8192 ∧ (d.fab.lost.find k).isSome then (d.modFab (fun f => { f with lost := f.lost.drop k }), .ok) else (d, .done sRange 0)

/-! ## The rows -/

/-- FAB_LINK_ENABLE (R424): a write of FAB_CTRL. -/
def execFabLinkEnable (value : Word) (s : State) : Answer := s.run 0 (fun _ d => d.unlessGated Reg.FAB_CTRL (writeFabCtrl value))

/-- ULX_TRAINED (R424). -/
def execUlxTrained (dt link : Nat) (s : State) : Answer := s.run dt (fun _ d => d.ulxTrained link)

/-- ULX_LINK_DOWN (R424). -/
def execUlxLinkDown (dt link : Nat) (s : State) : Answer := s.run dt (fun _ d => if link < 6 then d.linkDown link else d)

/-- LINK_PACKET (R419). -/
def execLinkPacket (dt link : Nat) (pkt : LinkPacket) (fecCorr fecUncorr : Nat) (s : State) : Answer :=
  s.run dt (fun _ d => d.linkPacket link pkt fecCorr fecUncorr)

/-- REPLAY_TIMEOUT (R419). -/
def execReplayTimeout (dt link : Nat) (s : State) : Answer := s.run dt (fun _ d => d.replayTimeout link)

/-- LANE_FAIL (R424). -/
def execLaneFail (dt link lane : Nat) (s : State) : Answer := s.run dt (fun _ d => d.laneFail link lane)

/-- WIDTH_SHED (R425). -/
def execWidthShed (dt link : Nat) (s : State) : Answer := s.run dt (fun _ d => d.shed link)

/-- WIDTH_GROW (R425). -/
def execWidthGrow (dt link : Nat) (s : State) : Answer := s.run dt (fun _ d => if link < 6 then d.growDone link else d)

/-- HELLO (R427). -/
def execHello (dt link : Nat) (msg : HelloMsg) (s : State) : Answer := s.run dt (fun _ d => d.helloRow link msg)

/-- LSA (R428). -/
def execLsa (dt link src seq : Nat) (links : List LsaLink) (s : State) : Answer := s.run dt (fun _ d => d.lsaRow link src seq links)

/-- LSA_PERIODIC (R428): once each second. -/
def execLsaPeriodic (dt : Nat) (s : State) : Answer :=
  s.run dt (fun _ d => if d.fab.lsaAt + 1000000000 ≤ d.up then d.floodLsa else d)

/-- E2E_ACK (R423). -/
def execE2eAck (dt src vc last : Nat) (s : State) : Answer := s.run dt (fun _ d => d.e2eAck src vc last)

/-- E2E_ACK_SEND (R423). -/
def execE2eAckSend (dt : Nat) (s : State) : Answer := s.run dt (fun _ d => d.sendAcks)

/-- E2E_RESEND_TIMEOUT (R423). -/
def execE2eResendTimeout (dt dst : Nat) (s : State) : Answer := s.run dt (fun _ d => d.resendLate dst)

/-- E2E_UNACKED_SUSPECT (R423). -/
def execE2eUnackedSuspect (dt dst : Nat) (s : State) : Answer := s.run dt (fun _ d => d.unackedSuspect dst)

/-- HEARTBEAT_SEND (R430). -/
def execHeartbeatSend (dt : Nat) (s : State) : Answer := s.run dt (fun _ d => d.heartbeatSend)

/-- HEARTBEAT (R430). -/
def execHeartbeat (dt src seq : Nat) (s : State) : Answer := s.run dt (fun _ d => d.onMsg src 1 seq (fun x => x.heartbeatFrom src))

/-- HEARTBEAT_TIMEOUT (R431). -/
def execHeartbeatTimeout (dt device : Nat) (s : State) : Answer := s.run dt (fun _ d => d.heartbeatTimeout device)

/-- SUSPECT (R431). -/
def execSuspect (dt src seq view suspects : Nat) (s : State) : Answer :=
  s.run dt (fun _ d => d.onMsg src 1 seq (fun x => x.suspectRow src view suspects))

/-- STATE (R432). -/
def execState (dt src seq view u suspects : Nat) (s : State) : Answer :=
  s.run dt (fun _ d => d.onMsg src 1 seq (fun x => x.stateRow src view u suspects))

/-- NEW_VIEW (R432). -/
def execNewView (dt src seq : Nat) (msg : NewViewMsg) (s : State) : Answer :=
  s.run dt (fun _ d => d.onMsg src 1 seq (fun x => x.newViewRow src msg))

/-- FWD_DONE (R432). -/
def execFwdDone (dt src seq : Nat) (view : FwdDone) (s : State) : Answer :=
  s.run dt (fun _ d => d.onMsg src 1 seq (fun x => x.fwdDoneRow src view))

/-- DEPART (R431). -/
def execDepart (dt src seq : Nat) (s : State) : Answer := s.run dt (fun _ d => d.onMsg src 1 seq (fun x => x.departRow src))

/-- JOIN_REQ (R436). -/
def execJoinReq (dt src seq rate wait : Nat) (s : State) : Answer :=
  s.run dt (fun _ d => d.onMsg src 1 seq (fun x => x.joinReqRow src rate wait))

/-- JOIN_TIMEOUT (R436). -/
def execJoinTimeout (dt : Nat) (s : State) : Answer := s.run dt (fun _ d => d.joinTimeout)

/-- HIST_REQ (R440). -/
def execHistReq (dt src seq first last : Nat) (streams : List Nat) (s : State) : Answer :=
  s.run dt (fun _ d => d.onMsg src 3 seq (fun x => x.histReqRow src first last streams))

/-- HIST_REC (R436). -/
def execHistRec (dt src seq epoch lossCount : Nat) (rec' : Rec) (s : State) : Answer :=
  s.run dt (fun _ d => d.onMsg src 3 seq (fun x => x.histRecRow epoch lossCount rec'))

/-- SUMMIT (R441). -/
def execSummit (dt src seq view : Nat) (s : State) : Answer := s.run dt (fun _ d => d.onMsg src 1 seq (fun x => x.summitRow src view))

/-- SUMMIT_ELECT (R441). -/
def execSummitElect (dt silent : Nat) (s : State) : Answer := s.run dt (fun _ d => d.summitElect silent)

/-- AUTO_REJOIN (R435): the majority member that is reached. -/
def execAutoRejoin (dt target : Nat) (s : State) : Answer := s.run dt (fun _ d => d.autoRejoin target)

/-- FAB_JOIN (R436). -/
def execFabJoin (c : Ctx) (s : State) : Answer := s.run 0 (fun _ d => d.accept c true none fabJoin)

/-- FAB_LEAVE (R444). -/
def execFabLeave (c : Ctx) (s : State) : Answer := s.run 0 (fun _ d => d.accept c true none fabLeave)

/-- FAB_ROUTE_READ (R444). -/
def execFabRouteRead (c : Ctx) (buf : HostBuf) (s : State) : Answer := s.run 0 (fun _ d => d.accept c false none (fabRouteRead buf))

/-- FAB_VIEW_READ (R444). -/
def execFabViewRead (c : Ctx) (buf : HostBuf) (s : State) : Answer := s.run 0 (fun _ d => d.accept c false none (fabViewRead buf))

/-- FAB_STREAM_DROP (R439). -/
def execFabStreamDrop (c : Ctx) (device index : Nat) (s : State) : Answer :=
  s.run 0 (fun _ d => d.accept c false none (fabStreamDrop device index))

end Sys2Proof.Machine
end

