-- ==== Sys2Proof/Machine/OscRows.lean ====
section
/-! DEFINITION. The rows of the table of operations that concern oscillation tracking. -/

namespace Sys2Proof.Machine

open Sys2Proof

/-- OSC_CTRL is written (R152, R171). The upper band edge must not exceed 0.4 × F. -/
def writeOscCtrl (v : Word) (d : Dev) : Dev :=
  let was := d.reg Reg.OSC_CTRL
  let d1 := d.writePlain Reg.OSC_CTRL v
  let rises (b : Nat) : Bool := v.toNat.testBit b && !was.toNat.testBit b
  let start (x : Dev) (b : Nat) : Dev :=
    (x.resetBand b).setBand b { (x.resetBand b).band b with next := if x.craterRuns then some x.crt.nextSeal else none }
  let d2 := if rises 0 then
      (if 40 * d1.rate < d1.fld Fld.OSC_BAND_F_HI then (d1.setBit Fld.OSC_CTRL_EN false).setBit Fld.OSC_STATUS_CFG_ERR true else start d1 0)
    else d1
  let d3 := if rises 1 then start d2 1 else d2
  d3.setBit Fld.OSC_STATUS_RUNNING (d3.bit Fld.OSC_CTRL_EN)

/-! ## The signal and branch tables (R142, R144, R160) -/

def sigResv : List (Nat × Nat) := [(2, 0xF0), (3, 0xFF), (6, 0xFF), (7, 0xFF), (12, 0xFF), (13, 0xFF), (14, 0xFF), (15, 0xFF)]

/-- A signal entry image: its entry, or a removal where VALID is 0. -/
def sigOf (b : Bytes) : Option SigEntry :=
  let b2 := fieldAt b 2 1
  if b2.testBit 3 then
    some { slot := fieldAt b 0 2, derive_ := b2 % 8, slot2 := fieldAt b 4 2, nom := BitVec.ofNat 32 (fieldAt b 8 4) }
  else none

/-- An enabled slot of a valid stream of this device's table, with its channel and its stream's entry. -/
def Dev.liveSlot (d : Dev) (slot : Nat) : Option (ChanEntry × StreamEntry) :=
  let c := d.chan slot
  (d.validEntry c.stream).bind (fun e => if c.enable && decide (e.chanBase ≤ slot) && decide (slot < e.chanBase + e.nchan) then some (c, e) else none)

/-- The stream is due in every epoch, and not of type 4 (R96). -/
def Dev.everyEpoch (d : Dev) (e : StreamEntry) : Bool := decide (dueStep d.rate e = 1) && decide (e.type ≠ 4)

/-- A positive finite binary32 number. -/
def fPositive (w : Word) : Bool := fFinite w && fLt 0 w

/-- A positive-sequence or single phasor of a kind that a voltage or a current slot has: KIND 0. -/
def Dev.phasorSlot (d : Dev) (slot : Nat) : Bool := (d.liveSlot slot).any (fun x => decide (x.1.kind = 0) && d.everyEpoch x.2)

/-- A signal entry passes R144. -/
def Dev.sigFits (d : Dev) (g : SigEntry) : Bool :=
  let kind (k : Nat) : Bool := (d.liveSlot g.slot).any (fun x => decide (x.1.kind = k) && d.everyEpoch x.2)
  if g.derive_ = 0 then d.phasorSlot g.slot
  else if g.derive_ = 1 then d.phasorSlot g.slot && fPositive g.nom
  else if g.derive_ = 2 then kind 1
  else if g.derive_ = 3 ∨ g.derive_ = 4 then d.phasorSlot g.slot && d.phasorSlot g.slot2 && fPositive g.nom
  else if g.derive_ = 5 then kind 3
  else if g.derive_ = 6 then (d.liveSlot g.slot).any (fun x => (decide (x.1.kind = 5) || decide (x.1.kind = 6)) && x.2.isSv)
  else false

/-- The largest number of signals with DERIVE 6 that are valid at once: now, or with any effective epoch of a pending entry reached. -/
def ssoCount (t : Tbl (Held SigEntry)) : Nat :=
  let sso (o : Option SigEntry) : Bool := o.any (fun g => decide (g.derive_ = 6))
  let at_ (f : Held SigEntry → Option SigEntry) : Nat := (t.filter (fun (x : Nat × Held SigEntry) => sso (f x.2))).length
  let effs := (t.filterMap (fun (x : Nat × Held SigEntry) => x.2.pend.map (fun p => p.1))).eraseDups
  (effs.map (fun e => at_ (fun h => h.at' e))).foldl max (at_ (fun h => h.cur))

/-- The changes of a table that a list of images asks for, or the first status of R82 that refuses one. -/
def Dev.changeAll {α : Type} (d : Dev) (eff : Nat) (imm : Bool) : List (Nat × Option α) → Tbl (Held α) → Except Nat (Tbl (Held α))
  | [], t => .ok t
  | (n, new) :: rest, t =>
    match d.change (t.getD n {}) eff imm new with
    | .error st => .error st
    | .ok h => Dev.changeAll d eff imm rest (t.put n h)

/-- The status of a list of changes: one that any entry gives, in the order of R82, then a bad image. -/
def Dev.changeStatus {α : Type} (d : Dev) (eff : Nat) (imm bad : Bool) (l : List (Nat × Option α)) (t : Tbl (Held α)) : Option Nat :=
  firstStatus ((l.filterMap (fun x => match d.change (t.getD x.1 {}) eff imm x.2 with | .error st => some st | .ok _ => none)) ++
    (if imm = false ∧ d.effSealed eff = true then [sLate] else []) ++ (if bad then [sRange] else []))

/-- A signal entry with its effective epoch; one that equals the entry it replaces is no change (R146). -/
def Dev.stampSig (d : Dev) (eff : Nat) (imm : Bool) (n : Nat) (g : SigEntry) : SigEntry :=
  let new := { g with since := if imm then d.crt.nextSeal else ((d.crt.nextSeal : Int) + signedDiff 32 eff d.crt.nextSeal).toNat }
  match (d.osc.sigs.getD n {}).newest with
  | some o => if { o with since := g.since } = g then o else new
  | none => new

/-- The signal entries that a command gives. -/
def Dev.sigImages (d : Dev) (first count eff : Nat) (imm : Bool) (images : Bytes) : List (Nat × Option SigEntry) :=
  ((imagesOf 16 count images).map sigOf).zipIdx.map (fun x => (first + x.2, x.1.map (d.stampSig eff imm (first + x.2))))

def oscSigSet (first count : Nat) (images : Bytes) (eff : Nat) (imm : Bool) (d : Dev) : Dev × CmdRes :=
  let imgs := imagesOf 16 count images
  let l := d.sigImages first count eff imm images
  let bad := decide (count = 0) || decide (256 < count) || decide (4096 < first + count) || imgs.any (resvSet sigResv)
    || l.any (fun x => x.2.any (fun g => !d.sigFits g))
  match d.changeStatus eff imm bad l d.osc.sigs with
  | some st => (d, .done st 0)
  | none =>
    match d.changeAll eff imm l d.osc.sigs with
    | .error st => (d, .done st 0)
    | .ok t => if 256 < ssoCount t then (d, .done sRange 0) else (d.modOsc (fun o => { o with sigs := t }), .ok)

def defResv : List (Nat × Nat) := [(8, 0xE0), (9, 0xE0), (10, 0xFE), (11, 0xFF), (14, 0xFF), (15, 0xFF)]

def defOf (b : Bytes) : Option DefEntry :=
  if (fieldAt b 10 1).testBit 0 then
    some { vSlot := fieldAt b 0 2, iSlot := fieldAt b 2 2, factor := BitVec.ofNat 32 (fieldAt b 4 4), areaFrom := fieldAt b 8 1 % 32
           areaTo := fieldAt b 9 1 % 32, islBranch := fieldAt b 12 2 }
  else none

/-- The branch table with the entry of the `x.2`-th image put, or removed where its VALID is 0. -/
def putDef (first : Nat) (t : Tbl DefEntry) (x : Option DefEntry × Nat) : Tbl DefEntry :=
  match x.1 with | some g => t.put (first + x.2) g | none => t.drop (first + x.2)

def oscDefSet (first count : Nat) (images : Bytes) (d : Dev) : Dev × CmdRes :=
  let imgs := imagesOf 16 count images
  let l := (imgs.map defOf).zipIdx
  let fits (g : DefEntry) : Bool := d.phasorSlot g.vSlot && d.phasorSlot g.iSlot && fLt 0 g.factor
  if count = 0 ∨ 256 < first + count ∨ imgs.any (resvSet defResv) = true ∨ l.any (fun x => x.1.any (fun g => !fits g)) = true then
    (d, .done sRange 0)
  else
    (d.modOsc (fun o => { o with defsNext := l.foldl (putDef first) o.defsNext }), .ok)

/-- OSC_RESET: band 0 electromechanical, 1 sub-synchronous, 2 both. -/
def oscReset (band : Nat) (d : Dev) : Dev × CmdRes :=
  if 2 < band then (d, .done sRange 0)
  else
    let d1 := if band ≠ 1 then d.resetBand 0 else d
    let d2 := if band ≠ 0 then d1.resetBand 1 else d1
    (d2.count Reg.OSC_RESETS, .ok)

def modeRead (buf : HostBuf) (d : Dev) : Dev × CmdRes :=
  match d.osc.report with
  | none => (d, .done sNotValid 0)
  | some (m, r) =>
    if !d.osc.updated then (d, .done sNotValid 0)
    else if buf.len < (m ++ r).length then (d, .done sRange 0)
    else (d, .block (m ++ r) (some buf.addr))

/-! ## The rows -/

/-- OSC_ENABLE (R152): a write of OSC_CTRL with EN or SSO_EN 1. -/
def execOscEnable (value : Word) (s : State) : Answer :=
  s.run 0 (fun _ d => if value.toNat.testBit 0 || value.toNat.testBit 1 then d.unlessGated Reg.OSC_CTRL (writeOscCtrl value) else d)

/-- OSC_SIG_SET (R144). -/
def execOscSigSet (c : Ctx) (first count : Nat) (images : Bytes) (eff : Nat) (imm : Bool) (s : State) : Answer :=
  s.run 0 (fun _ d => d.accept c false none (oscSigSet first count images eff imm))

/-- OSC_DEF_SET (R160). -/
def execOscDefSet (c : Ctx) (first count : Nat) (images : Bytes) (s : State) : Answer :=
  s.run 0 (fun _ d => d.accept c false none (oscDefSet first count images))

/-- OSC_RESET (R173). -/
def execOscReset (c : Ctx) (band : Nat) (s : State) : Answer := s.run 0 (fun _ d => d.accept c false none (oscReset band))

/-- MODE_READ (R173). -/
def execModeRead (c : Ctx) (buf : HostBuf) (s : State) : Answer := s.run 0 (fun _ d => d.accept c false none (modeRead buf))

/-- The work item of the ranking is served, of ORIGIN 0x07 with the epoch for its TAG; the ranking takes effect as it completes (R329). -/
def Dev.rankItem (d : Dev) : Dev :=
  match d.osc.ranking with
  | none => d
  | some x =>
    let r := d.serve 0x07 x.1
    if r.2 then r.1.energyRanking else r.1

/-- The work item of a band's next update is served, of ORIGIN 0x05 or 0x06; the update takes effect as it completes (R329). A ranking that
still waits comes first. -/
def Dev.updateItem (d : Dev) (b : Nat) : Dev :=
  let d0 := (if b = 0 then d.rankItem else d).checkLag b
  match if b = 0 ∧ d0.osc.ranking.isSome = true then none else d0.nextUpdate b with
  | none => d0
  | some e =>
    let r := d0.serve (0x05 + b) e
    if r.2 then (if b = 0 then r.1.trackUpdate else r.1.ssoUpdate) else r.1

/-- TRACK_UPDATE (R150). -/
def execTrackUpdate (dt : Nat) (s : State) : Answer := s.run dt (fun _ d => d.updateItem 0)

/-- SSO_UPDATE (R159). -/
def execSsoUpdate (dt : Nat) (s : State) : Answer := s.run dt (fun _ d => d.updateItem 1)

/-- ENERGY_RANKING (R161). -/
def execEnergyRanking (dt : Nat) (s : State) : Answer := s.run dt (fun _ d => d.rankItem)

/-- TRACKER_LAG (R166). -/
def execTrackerLag (dt band : Nat) (s : State) : Answer := s.run dt (fun _ d => d.checkLag band)

end Sys2Proof.Machine
end

