-- ==== Sys2Proof/Machine/AlarmRows.lean ====
section
/-! DEFINITION. Island detection, the alarm rules, the decision of Fumarole, express publications and grid alarms, and their
rows (R174 to R211). -/

namespace Sys2Proof.Machine

open Sys2Proof

/-! ## Topology (R176 to R180) -/

def nodeResv : List (Nat × Nat) :=
  [(6, 0x80), (7, 0xFF), (8, 0xFF), (9, 0xFF), (10, 0xFF), (11, 0xFF), (12, 0xFF), (13, 0xFF), (14, 0xFF), (15, 0xFF)]

/-- A node image: its entry, or a removal where VALID is 0. -/
def nodeOf (b : Bytes) : Option NodeEntry :=
  let b6 := fieldAt b 6 1
  if b6.testBit 0 then
    some { freqSlot := fieldAt b 0 2, angleSlot := fieldAt b 2 2, globalId := fieldAt b 4 2, angleEn := b6.testBit 1, area := b6 / 4 % 32 }
  else none

def branchResv : List (Nat × Nat) :=
  [(1, 0xE0), (3, 0xE0), (8, 0x70), (9, 0x70), (10, 0xE0), (11, 0xFF), (12, 0xFF), (13, 0xFF), (14, 0xFF), (15, 0xFF)]

def branchOf (b : Bytes) : Option BranchEntry :=
  let b8 := fieldAt b 8 1
  let b9 := fieldAt b 9 1
  let b10 := fieldAt b 10 1
  if b10.testBit 0 then
    some {
      nodeA := fieldAt b 0 2 % 8192, nodeB := fieldAt b 2 2 % 8192, brk1 := fieldAt b 4 2, brk2 := fieldAt b 6 2
      bit1 := b8 % 16, bit2 := b9 % 16, en1 := b8.testBit 7, en2 := b9.testBit 7, unknownClosed := b10.testBit 1
      cohSet := b10 / 4 % 4, cohEn := b10.testBit 4 }
  else none

/-- A node entry passes R178. -/
def Dev.nodeFits (d : Dev) (n : NodeEntry) : Bool :=
  let kind (slot k : Nat) : Bool := (d.liveSlot slot).any (fun x => decide (x.1.kind = k) && decide (dueStep d.rate x.2 = 1))
  kind n.freqSlot 1 && (!n.angleEn || kind n.angleSlot 0)

/-- A branch entry passes R178. -/
def Dev.branchFits (d : Dev) (b : BranchEntry) : Bool :=
  let brk (en : Bool) (slot : Nat) : Bool :=
    !en || (d.liveSlot slot).any (fun x => decide (x.1.kind = 4) || decide (x.1.kind = 7) || decide (x.1.kind = 8))
  let node (n : Nat) : Bool := ((d.isl.nodes.getD n {}).newest).isSome
  brk b.en1 b.brk1 && brk b.en2 b.brk2 && decide (b.nodeA ≠ b.nodeB) && node b.nodeA && node b.nodeB

/-- The engine rebases at the first valid evaluation at or after the effective epoch of a change (R184). -/
def Dev.noteChange (d : Dev) (eff : Nat) (imm : Bool) : Dev :=
  if imm && !d.craterRuns then d.modIsl (fun i => { i with rebase := true })
  else d.modIsl (fun i => { i with changes := i.changes ++ [if imm then d.crt.nextSeal % 2 ^ 32 else eff] })

/-- The node entries that a command gives. -/
def nodeImages (first count : Nat) (images : Bytes) : List (Nat × Option NodeEntry) :=
  ((imagesOf 16 count images).map nodeOf).zipIdx.map (fun x => (first + x.2, x.1))

/-- The branch entries that a command gives. -/
def branchImages (first count : Nat) (images : Bytes) : List (Nat × Option BranchEntry) :=
  ((imagesOf 16 count images).map branchOf).zipIdx.map (fun x => (first + x.2, x.1))

def islNodeSet (first count : Nat) (images : Bytes) (eff : Nat) (imm : Bool) (d : Dev) : Dev × CmdRes :=
  let imgs := imagesOf 16 count images
  let l := nodeImages first count images
  let bad := decide (count = 0) || decide (256 < count) || decide (8192 < first + count) || imgs.any (resvSet nodeResv)
    || l.any (fun x => x.2.any (fun n => !d.nodeFits n))
  match d.changeStatus eff imm bad l d.isl.nodes with
  | some st => (d, .done st 0)
  | none =>
    match d.changeAll eff imm l d.isl.nodes with
    | .error st => (d, .done st 0)
    | .ok t => ((d.modIsl (fun i => { i with nodes := t })).noteChange eff imm, .ok)

def islBranchSet (first count : Nat) (images : Bytes) (eff : Nat) (imm : Bool) (d : Dev) : Dev × CmdRes :=
  let imgs := imagesOf 16 count images
  let l := branchImages first count images
  let bad := decide (count = 0) || decide (256 < count) || decide (32768 < first + count) || imgs.any (resvSet branchResv)
    || l.any (fun x => x.2.any (fun b => !d.branchFits b))
  match d.changeStatus eff imm bad l d.isl.branches with
  | some st => (d, .done st 0)
  | none =>
    match d.changeAll eff imm l d.isl.branches with
    | .error st => (d, .done st 0)
    | .ok t => ((d.modIsl (fun i => { i with branches := t })).noteChange eff imm, .ok)

/-- A breaker of a branch counts as closed (R179). -/
def Dev.brkClosed (d : Dev) (s : SealInfo) (e slot bit : Nat) (unknown : Bool) : Bool :=
  match d.slotIn s e slot with
  | none => unknown
  | some (r, k) =>
    if !isPresent r || r.qual.testBit 6 then unknown
    else match r.body with
      | .slots l =>
        let v := ((l[k]?).getD (0, 0)).1.toNat
        let kind := (d.chan slot).kind
        if kind = 4 then v.testBit bit
        else if kind = 7 then decide (v = 1)
        else if v % 4 = 2 then true else if v % 4 = 1 then false else unknown
      | _ => unknown

/-- A record that lights a node. -/
def Dev.lights (d : Dev) (r : Rec) : Bool :=
  (isPresent r || (r.qual.testBit 1 && d.bit Fld.ISL_CFG_USE_PRED)) && !r.qual.testBit 6 && !r.qual.testBit 4 && !r.qual.testBit 7

/-- The value pair of a slot whose record lights a node. -/
def Dev.litVal (d : Dev) (s : SealInfo) (e slot : Nat) : Option (Word × Word) :=
  (d.slotIn s e slot).bind (fun x => if d.lights x.1 then (match x.1.body with | .slots l => l[x.2]? | _ => none) else none)

def Dev.nodeLit (d : Dev) (s : SealInfo) (e : Nat) (n : NodeEntry) : Bool := (d.litVal s e n.freqSlot).isSome

def fPi : Word := 0x40490FDB
def fTwoPi : Word := 0x40C90FDB

/-- An angle wrapped to (−π, π]. -/
def fWrap (x : Word) : Word := if fGt x fPi then fSub x fTwoPi else if fLe x (fNeg fPi) then fAdd x fTwoPi else x

/-- The angle of V_A against V_B. -/
def angleBetween (a b : Word × Word) : Word :=
  Config.f32Atan2 (fSub (fMul a.2 b.1) (fMul a.1 b.2)) (fAdd (fMul a.1 b.1) (fMul a.2 b.2))

/-- Both tests of a coherency set pass (R180). -/
def Dev.coherent (d : Dev) (s : SealInfo) (prev : Option SealInfo) (e set : Nat) (a b : NodeEntry) : Bool :=
  let mHz (v : Nat) : Word := fDiv (fOfNat v) (fOfNat 1000)
  match d.litVal s e a.freqSlot, d.litVal s e b.freqSlot with
  | some fa, some fb =>
    let freq := fLe (fAbs (fSub fa.1 fb.1)) (mHz (d.fld (Fld.ISL_COHk_DF_MAX set)))
    let angle (x : SealInfo) (n : Nat) : Option Word :=
      (d.litVal x n a.angleSlot).bind (fun va => (d.litVal x n b.angleSlot).map (fun vb => angleBetween va vb))
    let slip :=
      if a.angleEn && b.angleEn then
        match angle s e, prev.bind (fun p => angle p (e - 1)) with
        | some now, some old => fDiv (fMul (fWrap (fSub now old)) (fOfNat d.rate)) fTwoPi
        | _, _ => 0
      else 0
    freq && fLe (fAbs slip) (mHz (d.fld (Fld.ISL_COHk_SLIP_MAX set)))
  | _, _ => true

/-- A valid branch is connected in an epoch (R180). -/
def Dev.connected (d : Dev) (s : SealInfo) (prev : Option SealInfo) (e : Nat) (br : BranchEntry) (a b : NodeEntry) : Bool :=
  (!br.en1 || d.brkClosed s e br.brk1 br.bit1 br.unknownClosed) && (!br.en2 || d.brkClosed s e br.brk2 br.bit2 br.unknownClosed)
    && (!br.cohEn || !d.nodeLit s e a || !d.nodeLit s e b || d.coherent s prev e br.cohSet a b)

/-! ## Components (R181) -/

/-- The root of a node. -/
def findRoot (t : Tbl Nat) : Nat → Nat → Nat
  | 0, n => n
  | fuel + 1, n => let p := t.getD n n; if p = n then n else findRoot t fuel p

/-- Two nodes become one component; the root is the lower one. -/
def unite (t : Tbl Nat) (a b : Nat) : Tbl Nat :=
  let ra := findRoot t 8192 a
  let rb := findRoot t 8192 b
  if ra = rb then t else t.put (max ra rb) (min ra rb)

/-- The valid nodes of an epoch. -/
def Dev.nodesAt (d : Dev) (e : Nat) : Tbl NodeEntry :=
  d.isl.nodes.filterMap (fun (x : Nat × Held NodeEntry) => (x.2.at' e).map (fun n => (x.1, n)))

/-- The valid branches of an epoch whose ends are valid, each with whether it is connected. -/
def Dev.branchesAt (d : Dev) (s : SealInfo) (e : Nat) (nodes : Tbl NodeEntry) : List (BranchEntry × Bool) :=
  let prev := d.sealOf (e - 1)
  d.isl.branches.filterMap (fun (x : Nat × Held BranchEntry) => (x.2.at' e).bind (fun br =>
    match nodes.find br.nodeA, nodes.find br.nodeB with
    | some a, some b => some (br, d.connected s prev e br a b)
    | _, _ => none))

/-- The counted components: anchor, nodes, lit nodes and area of the root, by ascending anchor. -/
def countedComps (minLit : Nat) (t : Tbl Nat) (nodes : Tbl NodeEntry) (lit : List Nat) : List (Nat × Nat × Nat × Nat) :=
  let root (n : Nat) : Nat := findRoot t 8192 n
  let roots := nodes.filter (fun (x : Nat × NodeEntry) => decide (root x.1 = x.1))
  let all := roots.map (fun x =>
    (x.2.globalId, (nodes.filter (fun y => decide (root y.1 = x.1))).length, (lit.filter (fun n => decide (root n = x.1))).length, x.2.area))
  sortBy (fun (a b : Nat × Nat × Nat × Nat) => decide (a.1 < b.1)) (all.filter (fun c => decide (minLit ≤ c.2.2.1)))

/-! ## The evaluation of an epoch (R182 to R184) -/

/-- An island report, as its bytes before and after SEQ (R206). -/
def Dev.islandReport (d : Dev) (kind : Nat) (v : IslEval) : Bytes × Bytes :=
  ([0x08, BitVec.ofNat 8 d.deviceNo, BitVec.ofNat 8 kind, 0] ++ leBytes 4 (v.epoch % 2 ^ 32) ++ leBytes 2 (d.fld Fld.ISL_STATUS_BASE) ++
    leBytes 2 (d.fld Fld.ISL_COUNT_REF) ++ leBytes 2 v.comps.length ++ leBytes 2 v.lit ++ leBytes 4 v.openBr ++ zeros 8,
   v.comps.flatMap (fun c => leBytes 2 c.1 ++ leBytes 2 c.2.1 ++ leBytes 2 c.2.2.1 ++ [BitVec.ofNat 8 c.2.2.2, 0]))

/-- An island report with its SEQ. -/
def Dev.numberReport (d : Dev) (r : Bytes × Bytes) : Dev × Bytes := (d.bumpRecSeq, r.1 ++ leBytes 4 d.fum.recSeq ++ r.2)

/-- An island report goes out with the next decision, or on its own where no decision is made (R204). -/
def Dev.sendIsland (d : Dev) (kind : Nat) (v : IslEval) : Dev :=
  let r := d.islandReport kind v
  if d.bit Fld.FUM_STATUS_RUNNING then d.modFum (fun f => { f with islReports := f.islReports ++ [(v.epoch, r)] })
  else let y := d.numberReport r; y.1.alarmSend [y.2]

/-- Persistence and rebase after a valid evaluation with a count (R183, R184). -/
def Dev.persist (d : Dev) (v : IslEval) (c : Nat) (rebase : Bool) : Dev :=
  let d0 := d.modIsl (fun i => { i with rebase := false, changes := i.changes.filter (fun x => decide (0 < signedDiff 32 x v.epoch)) })
  if rebase then
    let w := { v with rebased := true, local_ := false }
    let d1 := (((d0.setFld Fld.ISL_STATUS_BASE c).setFld Fld.ISL_COUNT_REF c).setBit Fld.ISL_STATUS_ISLAND_LOCAL false).modIsl
      (fun i => { i with above := 0, below := 0, last := some w })
    d1.sendIsland 3 w
  else
    let ref := d0.fld Fld.ISL_COUNT_REF
    let n := d0.fld Fld.ISL_CFG_PERSIST
    let up := if ref < c then d0.isl.above + 1 else 0
    let down := if c < ref then d0.isl.below + 1 else 0
    let decl := decide (n ≤ up)
    let merge := decide (n ≤ down)
    let d1 := if decl || merge then d0.setFld Fld.ISL_COUNT_REF c else d0
    let loc := decide (d1.fld Fld.ISL_STATUS_BASE < d1.fld Fld.ISL_COUNT_REF)
    let w := { v with local_ := loc, declared := decl, merged := merge }
    let d2 := ((((d1.setBit Fld.ISL_STATUS_ISLAND_LOCAL loc).count Reg.ISL_DECLARES (b2n decl)).count Reg.ISL_MERGES (b2n merge))).modIsl
      (fun i => { i with above := if decl then 0 else up, below := if merge then 0 else down, last := some w })
    if decl then d2.sendIsland 1 w else if merge then d2.sendIsland 2 w else d2

/-- The next epoch of an engine that works on each local seal in order, where it is sealed. -/
def Dev.nextSealed (d : Dev) (next : Option Nat) : Option Nat :=
  let lo := match next with
    | none => d.crt.first
    | some n => if d.crt.nextSeal < n then d.crt.first else max n d.crt.first
  if d.craterRuns && decide (lo < d.crt.nextSeal) then some lo else none

/-- The evaluation of the next sealed epoch (R181). An evaluation with no valid node is not valid. -/
def Dev.islandEvaluate (d : Dev) : Dev :=
  match if d.bit Fld.ISL_CTRL_EN then d.nextSealed d.isl.next else none with
  | none => d
  | some e =>
    let d0 := d.modIsl (fun i => { i with next := some (e + 1) })
    match d0.sealOf e with
    | none => d0
    | some s =>
      let nodes := d0.nodesAt e
      let brs := d0.branchesAt s e nodes
      let t := (brs.filter (fun b => b.2)).foldl (fun (t : Tbl Nat) b => unite t b.1.nodeA b.1.nodeB) []
      let lit := (nodes.filter (fun (x : Nat × NodeEntry) => d0.nodeLit s e x.2)).map (fun x => x.1)
      let comps := countedComps (d0.fld Fld.ISL_CFG_MIN_LIT) t nodes lit
      let valid := decide (d0.fld Fld.ISL_CFG_LIT_MIN * nodes.length ≤ 100 * lit.length) && !nodes.isEmpty
      let v : IslEval :=
        { epoch := e, valid := valid, comps := comps, lit := lit.length, openBr := (brs.filter (fun b => !b.2)).length
          local_ := d0.bit Fld.ISL_STATUS_ISLAND_LOCAL, declared := false, merged := false, rebased := false }
      let d1 := ((d0.count64 Reg.ISL_EVALS_LO).setBit Fld.ISL_STATUS_VALID valid).setFld Fld.ISL_COUNT_CUR comps.length
      let d2 := if valid then
          d1.persist v comps.length (d1.isl.rebase || d1.isl.changes.any (fun x => decide (signedDiff 32 x e ≤ 0)))
        else (d1.modIsl (fun i => { i with last := some v })).count Reg.ISL_INVALID
      d2.modIsl (fun i => { i with evals := (i.evals.keep (fun k _ => decide (e < k + 16))).put e (i.last.getD v) })

/-- Evaluations up to an epoch are complete: its decision uses the result of that epoch. -/
def Dev.islandUpTo (e : Nat) : Nat → Dev → Dev
  | 0, d => d
  | fuel + 1, d =>
    match if d.bit Fld.ISL_CTRL_EN then d.nextSealed d.isl.next else none with
    | none => d
    | some n => if n ≤ e then Dev.islandUpTo e fuel d.islandEvaluate else d

/-- ISL_CTRL is written (R184). While the engine does not evaluate, ISLAND_LOCAL is 0 as bit 32 of the condition vector is (R208). -/
def writeIslCtrl (v : Word) (d : Dev) : Dev :=
  let was := d.bit Fld.ISL_CTRL_EN
  let d1 := d.writePlain Reg.ISL_CTRL v
  let on := d1.bit Fld.ISL_CTRL_EN
  let d2 := if on && !was then
      d1.modIsl (fun i => { i with rebase := true, next := if d1.craterRuns then some d1.crt.nextSeal else none })
    else if on then d1
    else d1.setBit Fld.ISL_STATUS_ISLAND_LOCAL false
  d2.setBit Fld.ISL_STATUS_RUNNING on

/-! ## Alarm rules (R185 to R190) -/

def ruleResv : List (Nat × Nat) := [(0, 0x80), (27, 0x80), (29, 0xF0), (31, 0xFF)]

def ruleOf (b : Bytes) : RuleEntry :=
  let f (o : Nat) : Nat := fieldAt b o 1
  let w (o : Nat) : Word := BitVec.ofNat 32 (fieldAt b o 4)
  { op := f 0 % 16, comp := f 0 / 16 % 8, missPolicy := f 1 % 4, usePred := (f 1).testBit 2, testOk := (f 1).testBit 3, latch := (f 1).testBit 4
    failAssert := (f 1).testBit 5, severity := f 1 / 64, slotA := fieldAt b 2 2, slotB := fieldAt b 4 2, onN := f 6, offN := f 7
    t1 := w 8, t2 := w 12, hyst := w 16, bits := [f 20, f 21, f 22, f 23], inv := f 24 % 16, nbits := f 24 / 16 % 4 + 1
    comb := (f 24).testBit 6, gateEn := (f 24).testBit 7, gate := f 25, pins := f 26, group := f 27 % 32, groupEn := (f 27).testBit 5
    gateInv := (f 27).testBit 6, stuckS := f 28, chatN := f 29 % 16, chatWin := f 30 }

/-- A rule entry passes R185. -/
def Dev.ruleFits (d : Dev) (r : RuleEntry) : Bool :=
  let slot (x : Nat) : Bool := (d.liveSlot x).any (fun c => decide (r.comp = 0) || decide (c.1.kind = 0))
  let usesA := decide (1 ≤ r.op) && decide (r.op ≤ 5)
  (!usesA || slot r.slotA) && (decide (r.op ≠ 4) || slot r.slotB) && decide (r.op ≤ 6) && decide (r.comp ≤ 3) && decide (r.missPolicy ≠ 3)
    && decide (r.onN ≠ 0) && decide (r.offN ≠ 0) && fFinite r.hyst && !fLt r.hyst 0 && decide (r.chatN ≠ 1)
    && (decide (r.chatN = 0) || decide (r.chatWin ≠ 0))

/-- The entry of a rule that has not been set: OP is 0 (OFF). -/
def offRule : RuleEntry := ruleOf (zeros 32)

/-- The rule table with the entry of one image held as R81 and R82 say, and the restart of its counts noted (R190). -/
def Dev.putRule (d : Dev) (eff : Nat) (imm : Bool) (t : Tbl RuleSt) (x : Nat × Option RuleEntry) : Tbl RuleSt :=
  let r := t.getD x.1 {}
  match d.change r.entry eff imm x.2 with
  | .ok h => t.put x.1 { r with entry := h, restart := some (h.pend.map (fun p => p.1)) }
  | .error _ => t

/-- The entries of the rule table. -/
def Dev.ruleEntries (d : Dev) : Tbl (Held RuleEntry) := d.fum.rules.map (fun (x : Nat × RuleSt) => (x.1, x.2.entry))

/-- The rule entries that a command gives. -/
def ruleImages (first count : Nat) (images : Bytes) : List (Nat × Option RuleEntry) :=
  (imagesOf 32 count images).zipIdx.map (fun x => (first + x.2, some (ruleOf x.1)))

def ruleSet (first count : Nat) (images : Bytes) (eff : Nat) (imm : Bool) (d : Dev) : Dev × CmdRes :=
  let l := ruleImages first count images
  let bad := decide (count = 0) || decide (64 < count) || decide (512 < first + count) || (imagesOf 32 count images).any (resvSet ruleResv)
    || l.any (fun x => x.2.any (fun r => !d.ruleFits r))
  match d.changeStatus eff imm bad l d.ruleEntries with
  | some st => (d, .done st 0)
  | none => (d.modFum (fun f => { f with rules := l.foldl (d.putRule eff imm) f.rules }), .ok)

/-- The record that a rule reads is missing (R186). -/
def ruleMissing (r : RuleEntry) (x : Rec) : Bool :=
  (!x.qual.testBit 0 && !x.qual.testBit 1) || x.qual.testBit 6 || x.qual.testBit 4 || (x.qual.testBit 1 && !r.usePred) || (x.qual.testBit 7 && !r.testOk)

/-- The value of a slot under COMP; an INT32 state counts as signed. Of a sampled-value record the spec names no one value: it is a free
value. -/
def Dev.compVal (d : Dev) (slot comp : Nat) (x : Rec × Nat) (free : Nat) : Word :=
  match x.1.body with
  | .slots l =>
    let v := (l[x.2]?).getD (0, 0)
    let kind := (d.chan slot).kind
    if kind = 0 then
      (if comp = 0 then v.1 else if comp = 1 then v.2
       else if comp = 2 then fSqrt (fAdd (fMul v.1 v.1) (fMul v.2 v.2)) else fWrap (Config.f32Atan2 v.2 v.1))
    else if kind = 9 then fOfInt v.1.toInt else if 4 ≤ kind then fOfNat v.1.toNat else v.1
  | _ => BitVec.ofNat 32 (Config.freeNat free)

/-- The value of an input slot in a local seal, or none where it is missing. -/
def Dev.ruleInput (d : Dev) (s : SealInfo) (e : Nat) (r : RuleEntry) (slot free : Nat) : Option Word :=
  (d.slotIn s e slot).bind (fun x => if ruleMissing r x.1 then none else some (d.compVal slot r.comp x free))

/-- The term of a rule on condition-vector bits. -/
def bitsTerm (r : RuleEntry) (vec : Nat) : Bool :=
  let l := (r.bits.take r.nbits).zipIdx.map (fun x => (vec.testBit x.1) != (r.inv.testBit x.2))
  if r.comb then l.any (fun b => b) else l.all (fun b => b)

/-- Assert condition, release condition and value of a rule (R187), or none where an input is missing. -/
def Dev.ruleCond (d : Dev) (s : SealInfo) (prev : Option SealInfo) (e vec : Nat) (r : RuleEntry) (free : Nat) : Option (Bool × Bool × Word) :=
  if r.op = 6 then let t := bitsTerm r vec; some (t, !t, 0)
  else
    let lo := fSub r.t1 r.hyst
    let hi := fAdd r.t1 r.hyst
    (d.ruleInput s e r r.slotA free).bind (fun x =>
      if r.op = 1 then some (fGt x r.t1, fLt x lo, x)
      else if r.op = 2 then some (fLt x r.t1, fGt x hi, x)
      else if r.op = 3 then some (fLt x r.t1 || fGt x r.t2, fLt hi x && fLt x (fSub r.t2 r.hyst), x)
      else if r.op = 4 then
        (d.ruleInput s e r r.slotB (free + 1)).map (fun y =>
          let z := fSub x y
          let a := fAbs (if r.comp = 3 then fWrap z else z)
          (fGt a r.t1, fLt a lo, a))
      else
        (prev.bind (fun p => d.ruleInput p (e - 1) r r.slotA (free + 1))).map (fun y =>
          let a := fMul (fAbs (fSub x y)) (fOfNat d.rate)
          (fGt a r.t1, fLt a lo, a)))

/-- What a rule sends a record for. -/
structure RuleEv where
  latched : Bool := false
  chatter : Bool := false
  stuck : Bool := false
  disagree : Bool := false
  changed : Bool := false
  deriving DecidableEq, Repr

def RuleEv.any (v : RuleEv) : Bool := v.latched || v.chatter || v.stuck || v.disagree || v.changed

/-- Chatter: the changes of the assert condition within the window, with their ages in epochs (R189). -/
def chatStep (r : RuleEntry) (cond : Option Bool) (st : RuleSt) : RuleSt × Bool :=
  match cond with
  | none =>
    let st1 := { st with changes := st.changes.map (· + 1), quiet := st.quiet + 1 }
    (if st.frozen ∧ r.chatWin ≤ st1.quiet then { st1 with frozen := false, changes := [] } else st1, false)
  | some c =>
    let flips := st.prevCond.any (fun p => p != c)
    let aged := (st.changes.map (· + 1)).filter (fun a => decide (a < r.chatWin))
    let now := if flips then 0 :: aged else aged
    let st1 := { st with prevCond := some c, changes := now, quiet := if flips then 0 else st.quiet + 1 }
    if r.chatN = 0 then (st1, false)
    else if st.frozen then (if r.chatWin ≤ st1.quiet then { st1 with frozen := false, changes := [] } else st1, false)
    else if r.chatN ≤ now.length then ({ st1 with frozen := true, quiet := 0 }, true) else (st1, false)

/-- Assertion and release of a rule that is not frozen (R188). -/
def outStep (r : RuleEntry) (asserts releases hold : Bool) (st : RuleSt) : RuleSt × RuleEv :=
  if st.out then
    let off := if hold then st.off else if releases then st.off + 1 else 0
    let gone : RuleSt := { st with out := false, on := 0, off := 0, acked := false, latched := false, asserted := 0 }
    if r.latch then
      if st.acked && releases && !hold then (gone, { changed := true })
      else if r.offN ≤ off ∧ st.latched = false then ({ st with off := off, latched := true }, { latched := true })
      else ({ st with off := off }, {})
    else if r.offN ≤ off then (gone, { changed := true }) else ({ st with off := off }, {})
  else
    let on := if hold then st.on else if asserts && !st.stuck then st.on + 1 else 0
    if r.onN ≤ on then ({ st with out := true, on := 0, off := 0, acked := false, latched := false, asserted := 0 }, { changed := true })
    else ({ st with on := on }, {})

/-- One rule in one decision without a disagreement: its new state, what it sends a record for, and the value of the record. A gate that
does not enable the rule releases its output and clears its counts; chatter and the failing of the assert condition are watched all the
same (R188, R189). -/
def Dev.ruleEval (d : Dev) (s : SealInfo) (prev : Option SealInfo) (e vec free : Nat) (r : RuleEntry) (st : RuleSt) :
    RuleSt × RuleEv × Option Word :=
  if r.op = 0 then ({ st with out := false, on := 0, off := 0, asserted := 0 }, { changed := st.out }, none)
  else
    let c := d.ruleCond s prev e vec r free
    let value := c.map (fun x => x.2.2)
    let hold := c.isNone && decide (r.missPolicy = 0)
    let asserts := match c with | some x => x.1 | none => decide (r.missPolicy = 2)
    let releases := match c with | some x => x.2.1 | none => decide (r.missPolicy = 1)
    let ch := chatStep r (if hold then none else some asserts) st
    let st1 : RuleSt := { ch.1 with stuck := if !hold && !asserts then false else ch.1.stuck }
    if r.gateEn && decide (vec.testBit r.gate = r.gateInv) then
      ({ st1 with out := false, on := 0, off := 0, latched := false, acked := false, asserted := 0 }, { changed := st.out, chatter := ch.2 }, value)
    else
      let o : RuleSt × RuleEv := if st1.frozen then (st1, {}) else outStep r asserts releases hold st1
      if r.stuckS ≠ 0 ∧ o.1.out = true ∧ r.stuckS * d.rate ≤ o.1.asserted then
        ({ o.1 with out := false, on := 0, off := 0, asserted := 0, stuck := true, latched := false, acked := false },
          { o.2 with chatter := ch.2, stuck := true }, value)
      else ({ o.1 with asserted := if o.1.out then o.1.asserted + 1 else 0 }, { o.2 with chatter := ch.2 }, value)

/-- One rule in one decision. Counts restart at its effective epoch (R190). Where the two engines differ its output is asserted under
FAIL_ASSERT and otherwise keeps its value, whatever the rule (R191). -/
def Dev.ruleStep (d : Dev) (s : SealInfo) (prev : Option SealInfo) (e vec : Nat) (dis : Bool) (free : Nat) (st : RuleSt) :
    RuleSt × RuleEv × Option Word :=
  let r := (st.entry.at' e).getD offRule
  let due := st.restart.any (fun p => p.all (fun eff => decide (signedDiff 32 eff e ≤ 0)))
  let st0 : RuleSt :=
    if st.used ≠ some r ∨ due = true then { entry := st.entry, used := some r, restart := if due then none else st.restart, out := st.out } else st
  let x := d.ruleEval s prev e vec free r st0
  if dis then
    let out := r.failAssert || st0.out
    ({ x.1 with out := out, asserted := if out then st0.asserted + 1 else 0 }, { x.2.1 with disagree := true }, x.2.2)
  else x

/-! ## The decision (R191 to R193, R204) -/

/-- The condition vector of a decision (R174). -/
def Dev.condVector (d : Dev) (s : SealInfo) (e : Nat) : Nat :=
  let i := match (if d.bit Fld.ISL_CTRL_EN then d.isl.evals.find e else none) with
    | none => 0
    | some v => b2n v.local_ + 2 * b2n v.declared + 4 * b2n v.merged + 8 * b2n v.valid + 32 * b2n v.rebased
  s.latch + 2 ^ 32 * i + 2 ^ 160 * d.fum.rgrp

/-- The OR of the outputs of each group's rules (R175). -/
def groupOutputs (rules : Tbl RuleSt) : Nat :=
  rules.foldl (fun m (x : Nat × RuleSt) =>
    match x.2.used with | some r => if x.2.out && r.groupEn then putBit m r.group true else m | none => m) 0

/-- The record of a rule after a decision (R205). A missing input has no value: that field is free. -/
def Dev.ruleRecord (d : Dev) (s : SealInfo) (e off n : Nat) (st : RuleSt) (ev : RuleEv) (v : Option Word) : Dev × Bytes :=
  match st.used with
  | none => (d, [])
  | some r =>
    let flags := b2n st.out + 2 * b2n st.latched + 4 * b2n ev.chatter + 8 * b2n ev.stuck + 16 * b2n ev.disagree + 64 * r.severity
    let qual := if r.op = 6 then 0 else ((d.slotIn s e r.slotA).map (fun x => x.1.qual)).getD 0
    let z : Nat × Dev := match v with | some w => (w.toNat, d) | none => if r.op = 6 ∨ r.op = 0 then (0, d) else d.draw
    (z.2.bumpRecSeq, d.alarmRecord 0x06 n (e % 2 ^ 32) flags qual 0 z.1 off 0)

/-- Each enabled publication whose members change sends a new state (R198). -/
def Dev.publish' (d : Dev) (outs vec : Nat) : Dev :=
  d.fum.pubs.foldl (fun (x : Dev) (p : Nat × Pub) =>
    let vals := p.2.members.map (fun m => if m < 512 then outs.testBit m else vec.testBit (m - 512))
    if p.2.en && decide (p.2.vals ≠ some vals) then x.newState p.1 p.2 vals true else x) d

/-- Groups whose quorum is not 0. -/
def Dev.arbitrated (d : Dev) : Nat :=
  maskOf ((List.range 32).filter (fun k => decide (bitsAt (d.reg (Reg.FUM_GRIDQj (k / 4))) (8 * (k % 4)) 8 ≠ 0)))

/-- The vote follows a decision (R200). -/
def Dev.voteAfter (d : Dev) : Dev :=
  if d.bit Fld.FUM_CFG_GRID_EN then
    let v := (d.fum.rgrp &&& d.arbitrated, d.bit Fld.ISL_CTRL_GRID_EN && d.bit Fld.ISL_STATUS_ISLAND_LOCAL)
    if d.fum.ownVote = some v then d
    else (d.modFum (fun f => { f with ownVote := some v })).sendVote.recount (some (d.fum.decided.getD 0 % 2 ^ 32)) false
  else d.modFum (fun f => { f with ownVote := none })

/-- An island report goes out with the decision of epoch `e`: it is of that epoch or an earlier one, or of a run that has ended. -/
def Dev.reportDue (d : Dev) (e : Nat) (x : Nat × Bytes × Bytes) : Bool := decide (x.1 ≤ e) || decide (d.crt.nextSeal ≤ x.1)

/-- The records of a decision: rules, island reports, grid records (R204). -/
def Dev.decisionRecords (d : Dev) (s : SealInfo) (e off : Nat) (evs : List (Nat × RuleSt × RuleEv × Option Word)) : Dev :=
  let r1 := evs.foldl (fun (acc : Dev × List Bytes) x =>
    let y := acc.1.ruleRecord s e off x.1 x.2.1 x.2.2.1 x.2.2.2; (y.1, acc.2 ++ [y.2])) (d, [])
  let r2 := (d.fum.islReports.filter (d.reportDue e)).foldl (fun (acc : Dev × List Bytes) x => let y := acc.1.numberReport x.2; (y.1, acc.2 ++ [y.2])) r1
  let r3 := d.fum.gridRecs.foldl (fun (acc : Dev × List Bytes) x => let y := acc.1.gridRecBytes off x; (y.1, acc.2 ++ [y.2])) r2
  (r3.1.modFum (fun f => { f with islReports := f.islReports.filter (fun x => !d.reportDue e x), gridRecs := [] })).alarmSend r3.2

/-- The decision of the next sealed epoch. `disagree` names the rules for which the two engines differ. -/
def Dev.decide' (d : Dev) (disagree : List Nat) : Dev :=
  match if d.bit Fld.FUM_STATUS_RUNNING && decide (0 < d.deCount) then d.nextSealed d.fum.next else none with
  | none => d
  | some e =>
    match d.sealOf e with
    | none => d.modFum (fun f => { f with next := some (e + 1) })
    | some s =>
      let d0 := Dev.islandUpTo e 128 d
      let vec := d0.condVector s e
      let prev := d0.sealOf (e - 1)
      let two := decide (2 ≤ d0.deCount)
      let all := (disagree.filter (fun i => decide (i < 512))).foldl (fun (t : Tbl RuleSt) i => t.put i (t.getD i {})) d0.fum.rules
      let res := (if two then all else d0.fum.rules).map (fun (x : Nat × RuleSt) =>
        (x.1, d0.ruleStep s prev e vec (two && disagree.contains x.1) (d0.fresh + 2 * x.1) x.2))
      let rules : Tbl RuleSt := res.map (fun x => (x.1, x.2.1))
      let outs := maskOf ((rules.filter (fun (x : Nat × RuleSt) => x.2.out)).map (fun x => x.1))
      let n (f : RuleEv → Bool) : Nat := (res.filter (fun x => f x.2.2.1)).length
      let d1 := { d0 with fresh := d0.fresh + 1024 }.modFum (fun f => { f with
        rules := rules, outs := outs, cond := vec, oscEpoch := s.oscEpoch, rgrp := groupOutputs rules, next := some (e + 1), decided := some e
        decidedAt := d0.up, decidedHere := true })
      let d2 := (((d1.count64 Reg.FUM_DECISIONS_LO).count Reg.FUM_CHATTER (n (fun v => v.chatter))).count Reg.FUM_STUCK (n (fun v => v.stuck))).count
        Reg.FUM_DISAGREE (n (fun v => v.disagree))
      let d3 := (d2.updatePins.publish' outs vec)
      let off := (d3.g16 - s.at_) / 2 ^ 16 / 100
      let d4 := d3.decisionRecords s e off ((res.filter (fun x => x.2.2.1.any)).map (fun x => (x.1, x.2.1, x.2.2.1, x.2.2.2)))
      let d5 := (res.filter (fun x => x.2.2.1.disagree)).foldl (fun (x : Dev) r => x.raise eDeDisagree r.1 5) d4
      d5.voteAfter.refreshAlmok

/-- FUM_CTRL is written: decisions start with the next local seal; with EN 0 the pins are released (R195, R196). -/
def writeFumCtrl (v : Word) (d : Dev) : Dev :=
  let was := d.bit Fld.FUM_CTRL_EN
  let d1 := d.writePlain Reg.FUM_CTRL v
  let on := d1.bit Fld.FUM_CTRL_EN
  let d2 := d1.setBit Fld.FUM_STATUS_RUNNING (on && !d1.bit Fld.SAF_STATUS_SAFE)
  let d3 := if on && !was then
      d2.modFum (fun f => { f with driven := true, decidedHere := false, next := if d2.craterRuns then some d2.crt.nextSeal else none })
    else if was && !on then d2.updatePins else d2
  d3.refreshAlmok

/-! ## Express publications (R197, R198) -/

/-- The operands of EXP_SET are in range. -/
def expFits (k : KeySt) (pub : Nat) (o : ExpOps) : Bool :=
  let str (b : Bytes) : Bool := decide (1 ≤ b.length) && decide (b.length ≤ 64) && b.all (fun c => decide (0x20 ≤ c.toNat) && decide (c.toNat < 0x7F))
  let goose := (k.slot o.keySlot).any (fun s => decide (s.world = worldGooseSv) && decide (s.state = .valid))
  decide (pub < 16) && decide (o.portMask < 16) && decide (0x010CCD010000 ≤ o.dstMac) && decide (o.dstMac ≤ 0x010CCD0101FF)
    && decide (o.appid ≤ 0x3FFF) && decide (o.vlanId < 4096) && decide (o.vlanPri < 8) && str o.gocbRef && str o.datSet && str o.goId
    && decide (o.confRev < 2 ^ 32) && decide (1 ≤ o.members.length) && decide (o.members.length ≤ 32) && o.members.all (fun m => decide (m < 768))
    && decide (1 ≤ o.rtFirst) && decide (o.rtFirst ≤ 255) && decide (o.rtFirst ≤ o.rtMax) && decide (o.rtMax ≤ 60000)
    && decide (o.keySlot < 1024) && (!o.auth || goose)

/-- The publication that the operands give, with no state sent. -/
def pubOf (o : ExpOps) : Pub :=
  { en := o.en, portMask := o.portMask, dstMac := o.dstMac, appid := o.appid, vlanId := o.vlanId, vlanPri := o.vlanPri, gocbRef := o.gocbRef
    datSet := o.datSet, goId := o.goId, confRev := o.confRev, test := o.test, simulation := o.simulation, members := o.members
    rtFirst := o.rtFirst, rtMax := o.rtMax, safeAlarm := o.safeAlarm, auth := o.auth, keySlot := o.keySlot }

def expSet (k : KeySt) (pub : Nat) (o : ExpOps) (d : Dev) : Dev × CmdRes :=
  if expFits k pub o then (d.modFum (fun f => { f with pubs := f.pubs.put pub (pubOf o) }), .ok) else (d, .done sRange 0)

/-- A retransmission of a publication that is due. -/
def Dev.retransmit (d : Dev) (n : Nat) : Dev :=
  match d.fum.pubs.find n with
  | none => d
  | some p =>
    match p.next with
    | some (at_, iv) =>
      if at_ ≤ d.up ∧ p.en = true ∧ d.bit Fld.FUM_CTRL_EN = true then
        let nx := min p.rtMax (2 * iv)
        let p' := { p with sqNum := bump p.sqNum, next := some (at_ + nx * 1000000, nx) }
        (d.modFum (fun f => { f with pubs := f.pubs.put n p' })).sendPub n p' false
      else d
    | none => d

/-! ## Acknowledgement, reading, votes (R188, R200 to R203, R210) -/

/-- A rule is acknowledged: one that is asserted and latches, where it is the one named or all are. -/
def ackRule (rule n : Nat) (r : RuleSt) : RuleSt :=
  if (rule = 0xFFFF ∨ rule = n) ∧ r.out = true ∧ (r.used.any (fun e => e.latch)) = true then { r with acked := true } else r

def almAck (rule : Nat) (d : Dev) : Dev × CmdRes :=
  if rule < 512 ∨ rule = 0xFFFF then (d.modFum (fun f => { f with rules := f.rules.mapVals (ackRule rule) }), .ok)
  else (d, .done sRange 0)

/-- One rule in FUM_READ: its output and flags, as byte 8 of R205. -/
def ruleByte (r : RuleSt) : Byte := BitVec.ofNat 8 (b2n r.out + 2 * b2n r.latched + 4 * b2n r.frozen + 8 * b2n r.stuck)

/-- The condition vector of the last decision, then one byte for each rule. -/
def Dev.fumBlock (d : Dev) : Bytes := leBytes 32 d.fum.cond ++ (List.range 512).map (fun n => ruleByte (d.fum.rules.getD n {}))

def fumRead (buf : HostBuf) (d : Dev) : Dev × CmdRes :=
  if buf.len < 544 then (d, .done sRange 0) else (d, .block d.fumBlock (some buf.addr))

/-- A VOTE arrives: the latest of each device counts, whatever view it names (R201). One that comes ahead of its view is held for it. -/
def Dev.voteRow (d : Dev) (src : Nat) (v : VoteMsg) : Dev :=
  let here := d.view.members.testBit src
  if d.joined && (here || laterThan 32 v.view d.view.num) then
    let d1 := d.modFum (fun f => { f with votes := f.votes.put src v })
    if d.isSummit && here && !d.fum.gridOwed then (d1.modFab (fun f => { f with electVotes := putBit f.electVotes src true })).recount (some v.shortEpoch) false
    else
      -- the last vote of an election, or one ahead of it, decides the first state of the new summit
      let d2 := d1.modFum (fun f => { f with gridEpoch := v.shortEpoch })
      if d.isSummit && here then (d2.modFab (fun f => { f with electVotes := putBit f.electVotes src true })).recount (some v.shortEpoch) false else d2
  else d

/-- A GRID_STATE of the summit, of this view or of one that is still to be installed here. -/
def Dev.gridRow (d : Dev) (src : Nat) (v : VoteMsg) : Dev :=
  if d.joined = true ∧ (src = d.view.summit ∨ laterThan 32 v.view d.view.num = true) then
    (d.modFum (fun f => { f with gridEpoch := v.shortEpoch })).latchGrid v (fun i => if i = 32 then some v.islMembers else none)
  else d

def Dev.votePeriodic (d : Dev) : Dev :=
  if d.bit Fld.FUM_CFG_GRID_EN && decide (d.fum.voteAt + 1000000000 ≤ d.up) then
    (d.modFum (fun f => { f with voteAt := d.up })).sendVote
  else d

def Dev.gridPeriodic (d : Dev) : Dev :=
  if d.isSummit && d.joined && decide (d.fum.gridAt + 1000000000 ≤ d.up) then
    (d.modFum (fun f => { f with gridAt := d.up })).recount none true
  else d

/-! ## The rows -/

/-- ISL_ENABLE (R184): a write of ISL_CTRL with EN 1. -/
def execIslEnable (value : Word) (s : State) : Answer := s.run 0 (fun _ d => if value.toNat.testBit 0 then d.unlessGated Reg.ISL_CTRL (writeIslCtrl value) else d)

/-- FUM_ENABLE (R195): a write of FUM_CTRL with EN 1. -/
def execFumEnable (value : Word) (s : State) : Answer := s.run 0 (fun _ d => if value.toNat.testBit 0 then d.unlessGated Reg.FUM_CTRL (writeFumCtrl value) else d)

/-- ISLAND_EVALUATE (R181). -/
def execIslandEvaluate (dt : Nat) (s : State) : Answer := s.run dt (fun _ d => d.islandEvaluate)

/-- ISL_NODE_SET (R178). -/
def execIslNodeSet (c : Ctx) (first count : Nat) (images : Bytes) (eff : Nat) (imm : Bool) (s : State) : Answer :=
  s.run 0 (fun _ d => d.accept c false none (islNodeSet first count images eff imm))

/-- ISL_BRANCH_SET (R178). -/
def execIslBranchSet (c : Ctx) (first count : Nat) (images : Bytes) (eff : Nat) (imm : Bool) (s : State) : Answer :=
  s.run 0 (fun _ d => d.accept c false none (islBranchSet first count images eff imm))

/-- RULE_SET (R185). -/
def execRuleSet (c : Ctx) (first count : Nat) (images : Bytes) (eff : Nat) (imm : Bool) (s : State) : Answer :=
  s.run 0 (fun _ d => d.accept c false none (ruleSet first count images eff imm))

/-- EXP_SET (R197). -/
def execExpSet (c : Ctx) (pub : Nat) (ops : ExpOps) (s : State) : Answer :=
  s.run 0 (fun k d => d.accept c false none (expSet k pub ops))

/-- ALM_ACK (R188). -/
def execAlmAck (c : Ctx) (rule : Nat) (s : State) : Answer := s.run 0 (fun _ d => d.accept c false none (almAck rule))

/-- FUM_READ (R210). -/
def execFumRead (c : Ctx) (buf : HostBuf) (s : State) : Answer := s.run 0 (fun _ d => d.accept c false none (fumRead buf))

/-- FUMAROLE_DECISION (R191): `disagree` names the rules for which the two engines differ. -/
def execFumaroleDecision (dt : Nat) (disagree : List Nat) (s : State) : Answer := s.run dt (fun _ d => d.decide' disagree)

/-- MIN_ON_EXPIRE (R194). -/
def execMinOnExpire (dt : Nat) (s : State) : Answer := s.run dt (fun _ d => d.updatePins)

/-- ALMOK_TIMEOUT (R195). -/
def execAlmokTimeout (dt : Nat) (s : State) : Answer := s.run dt (fun _ d => d.refreshAlmok)

/-- EXPRESS_RETRANSMIT (R198). -/
def execExpressRetransmit (dt pub : Nat) (s : State) : Answer := s.run dt (fun _ d => d.retransmit pub)

/-- VOTE_PERIODIC (R200). -/
def execVotePeriodic (dt : Nat) (s : State) : Answer := s.run dt (fun _ d => d.votePeriodic)

/-- VOTE (R201). -/
def execVote (dt src seq : Nat) (msg : VoteMsg) (s : State) : Answer := s.run dt (fun _ d => d.onMsg src 0 seq (fun x => x.voteRow src msg))

/-- GRID_STATE (R202). -/
def execGridState (dt src seq : Nat) (msg : VoteMsg) (s : State) : Answer :=
  s.run dt (fun _ d => d.onMsg src 0 seq (fun x => x.gridRow src msg))

/-- GRID_STATE_PERIODIC (R201). -/
def execGridStatePeriodic (dt : Nat) (s : State) : Answer := s.run dt (fun _ d => d.gridPeriodic)

end Sys2Proof.Machine
end

