-- ==== Sys2Proof/Machine/FieldOps.lean ====
section
/-! DEFINITION. The field MACs as they transmit: deferral, collisions, back-off and the bounds on OUTPUT frames (R310, R381). -/

namespace Sys2Proof.Machine

open Sys2Proof

def Dev.field (d : Dev) (g : Nat) : FieldSt := (d.net.fields[g]?).getD {}

def Dev.setFieldTx (d : Dev) (g : Nat) (x : Option FieldTx) : Dev :=
  d.modNet (fun n => { n with fields := modifyAt n.fields g (fun f => { f with tx := x }) })

/-- Line time in ns of a frame with a payload, from its preamble to its FCS, at 10 Mb/s (R380). -/
def fieldDur (payload : Bytes) : Nat := (8 + 14 + max 46 payload.length + 4) * 800

/-- The frame as sent: to the broadcast address, padded, with its FCS (R306, R382). -/
def Dev.fieldBytes (d : Dev) (g : Nat) (payload : Bytes) : Bytes :=
  let body := beBytes 6 (2 ^ 48 - 1) ++ beBytes 6 (d.reg64 (Reg.NET_FLDn_MAC_LO g)) ++ beBytes 2 (d.fld Fld.RIO_CFG_ETYPE) ++ payload ++
    zeros (46 - payload.length)
  body ++ leBytes 4 (crc32 body)

/-- What time has settled on a segment: a frame whose line time is over has been sent. -/
def Dev.fieldSettle (d : Dev) (g : Nat) : Dev :=
  match (d.field g).tx with
  | none => d
  | some x =>
    match x.startedAt with
    | some t => if t + fieldDur x.payload ≤ d.up then (d.setFieldTx g none).count (Reg.NET_FLDn_TX_FRAMES g) else d
    | none => d

/-- An attempt starts on the line. -/
def Dev.fieldStart (d : Dev) (g : Nat) (x : FieldTx) : Dev :=
  (d.setFieldTx g (some { x with attempts := x.attempts + 1, startedAt := some d.up, deferring := false, backoffUntil := none })).emit
    (.fieldTx g (d.fieldBytes g x.payload))

/-- A frame is to be sent: it starts, or defers while carrier, or the gap after it, lasts. A MAC that does not run sends nothing. -/
def Dev.fieldTry (d : Dev) (g : Nat) (carrier : Bool) (x : FieldTx) : Dev :=
  if !d.fbit Fld.NET_FLD_CFG_EN g then d.setFieldTx g (some { x with backoffUntil := none })
  else if carrier then
    (d.setFieldTx g (some { x with deferring := true, deferred := true, backoffUntil := none })).count (Reg.NET_FLDn_DEFERRALS g)
      (b2n (!x.deferred))
  else d.fieldStart g x

/-- The first attempt of an OUTPUT frame has not started within 200 µs of OUT_AT (R310). `atEnd` takes in the last instant. -/
def FieldTx.isLate (x : FieldTx) (now : Nat) (atEnd : Bool) : Bool :=
  decide (x.attempts = 0) && (decide (x.outAt + 200000 < now) || (atEnd && decide (x.outAt + 200000 ≤ now)))

/-- A late frame is discarded for the cycle (R310). -/
def Dev.fieldLate (d : Dev) (g : Nat) (atEnd : Bool) : Dev :=
  match (d.field g).tx with
  | none => d
  | some x => if x.isLate d.up atEnd then (d.setFieldTx g none).count Reg.RIO_OUT_LATE else d

/-- The OUTPUT frame of a cycle is handed to a segment; a frame still unsent is discarded and counted (R381). -/
def Dev.fieldSend (d : Dev) (g : Nat) (payload : Bytes) (carrier : Bool) : Dev :=
  let d1 := d.fieldSettle g
  let d2 := d1.count Reg.RIO_OUT_LATE (b2n (d1.field g).tx.isSome)
  d2.fieldTry g carrier { payload := payload, outAt := d.up }

/-- A collision with the frame on the line (R381): the jam, then a back-off; a late or a sixteenth collision discards the frame. -/
def Dev.fieldCollision (d0 : Dev) (g : Nat) : Dev :=
  let d := d0.fieldSettle g
  match (d.field g).tx with
  | none => d
  | some x =>
    match x.startedAt with
    | none => d
    | some t =>
      let d1 := (d.count (Reg.NET_FLDn_COLLISIONS g)).emit (.fieldJam g)
      if t + 51200 < d.up then (d1.setFieldTx g none).count (Reg.NET_FLDn_LATE_COLL g)
      else if 16 ≤ x.attempts then (d1.setFieldTx g none).count (Reg.NET_FLDn_EXCESS_COLL g)
      else
        let z := d1.draw
        let r := z.1 % 2 ^ min x.attempts 10
        z.2.setFieldTx g (some { x with startedAt := none, backoffUntil := some (d.up + 3200 + r * 51200) })

/-- A back-off ends, and the frame is tried again. -/
def Dev.fieldRetry (d : Dev) (g : Nat) (carrier : Bool) : Dev :=
  match (d.field g).tx with
  | none => d
  | some x => match x.backoffUntil with
    | none => d
    | some t => if t ≤ d.up then d.fieldTry g carrier x else d

/-- Carrier has fallen and its gap is over: a deferring frame starts, unless it is late. -/
def Dev.fieldDeferEnd (d0 : Dev) (g : Nat) : Dev :=
  let d := d0.fieldLate g false
  match (d.field g).tx with
  | none => d
  | some x => if x.deferring then d.fieldTry g false x else d

end Sys2Proof.Machine
end

