-- ==== Sys2Proof/Machine/CycOps.lean ====
section
/-! DEFINITION. The cyclic logic: program images, the input image, remote stations, the phases of a cycle, exchanges and retained
data (R293 to R321). -/

namespace Sys2Proof.Machine

open Sys2Proof

/-! ## Program images (R295 to R298) -/

/-- Sizes of work data and retained data (R294). -/
def workSize : Nat := 2097152
def retSize : Nat := 1048576

/-- The program that an image spells. -/
def programOf (b : Bytes) : Program :=
  let f (off n : Nat) : Nat := fieldAt b off n
  let codeLen := f 8 4
  let retLen := f 12 4
  let vals := 128 + codeLen + retLen
  let insts := vals + 8 * f 32 2
  { codeLen := codeLen, retLen := retLen, entry := f 16 4, period := f 20 2, outAt := f 24 4, wcet := f 28 4, layoutId := f 36 4
    programId := f 40 8, code := slice b 128 codeLen, retInit := slice b (128 + codeLen) retLen
    values := (List.range (f 32 2)).map (fun j =>
      let o := vals + 8 * j
      (f o 1, f (o + 2) 2, f (o + 4) 1, f (o + 5) 1))
    insts := (List.range (f 34 2)).map (fun j =>
      let o := insts + 16 * j
      (f o 8, f (o + 8) 1 % 8, (f (o + 8) 1).testBit 3, f (o + 12) 4)) }

/-- Reserved bytes of the header. -/
def programResv : List (Nat × Nat) := ([6, 7, 22, 23] ++ (List.range 16).map (fun k => 48 + k) ++ (List.range 28).map (fun k => 96 + k)).map (fun o => (o, 0xFF))

/-- Reserved bits of the value list and the instance table that follow the header, the code and the initial values. -/
def programTailResv (p : Program) : List (Nat × Nat) :=
  let v := 128 + p.codeLen + p.retLen
  let i := v + 8 * p.values.length
  (List.range p.values.length).flatMap (fun j => [(v + 8 * j, 0xFE), (v + 8 * j + 1, 0xFF), (v + 8 * j + 6, 0xFF), (v + 8 * j + 7, 0xFF)]) ++
  (List.range p.insts.length).flatMap (fun j => [(i + 16 * j + 8, 0xF0), (i + 16 * j + 9, 0xFF), (i + 16 * j + 10, 0xFF), (i + 16 * j + 11, 0xFF)])

/-- Every field of an image is in its range. The counts are looked at before the tables that they size. -/
def programFits (b : Bytes) : Bool :=
  let p := programOf b
  decide (fieldAt b 0 4 = 0x314B4C4C) && decide (fieldAt b 4 2 = 1) && decide (4 ≤ p.codeLen) && decide (p.codeLen ≤ 4194304) && decide (p.codeLen % 4 = 0)
    && decide (p.retLen ≤ retSize) && decide (p.retLen % 64 = 0) && decide (p.entry < p.codeLen) && decide (4 ≤ p.period) && decide (p.period ≤ 400)
    && decide (100 ≤ p.outAt) && decide (fieldAt b 32 2 ≤ 256) && decide (fieldAt b 34 2 ≤ 4096)
    && decide (b.length = 128 + p.codeLen + p.retLen + 8 * p.values.length + 16 * p.insts.length)
    && !resvSet programResv b && !resvSet (programTailResv p) b
    && p.values.all (fun v => decide (v.2.2.1 < 64) && decide (v.2.2.2 < 16))
    && p.insts.all (fun i => decide (i.2.1 < 5) && decide (i.2.2.2 % 16 = 0) && decide (i.2.2.2 + 16 ≤ workSize))
    && decide ((p.insts.map (fun i => i.1)).Nodup)

/-! ## Stations (R305, R312) -/

def Dev.station (d : Dev) (s : Nat) : StationSt := d.cyc.stations.getD s {}

def Dev.setStation (d : Dev) (s : Nat) (x : StationSt) : Dev := d.modCyc (fun c => { c with stations := c.stations.put s x })

/-- The entry of a station once its pending change has taken effect. -/
def StationSt.newest (x : StationSt) : Option StationEntry := x.next.getD x.entry

/-- The entry that 64 bytes spell; VALID is bit 0 of byte 0. -/
def stationOf (b : Bytes) : StationEntry :=
  { seg := fieldAt b 0 1 / 2 % 2, addr := fieldAt b 1 1, timeoutCyc := fieldAt b 2 1, tmo := fieldAt b 3 1, nMod := fieldAt b 4 1, subst := fieldAt b 5 1
    chatN := fieldAt b 6 1, chatWin := fieldAt b 7 1, stuckS := fieldAt b 8 2, modIn := (List.range 8).map (fun m => fieldAt b (16 + m) 1)
    modOut := (List.range 8).map (fun m => fieldAt b (24 + m) 1), dflt := fieldAt b 32 8 }

def stationResv : List (Nat × Nat) :=
  [(0, 0xFC), (1, 0xF0), (4, 0xF0), (6, 0xF0)] ++ ((List.range 6).map (fun k => (10 + k, 0xFF)) ++ (List.range 24).map (fun k => (40 + k, 0xFF)))

/-- Inputs of the modules in use; a module beyond N_MOD has none. -/
def StationEntry.ins (e : StationEntry) : List Nat := e.modIn.take e.nMod

def StationEntry.fits (e : StationEntry) : Bool :=
  decide (1 ≤ e.timeoutCyc) && decide (2 ≤ e.tmo) && decide (e.timeoutCyc < e.tmo) && decide (1 ≤ e.nMod) && decide (e.nMod ≤ 8)
    && decide (e.chatN ≠ 1) && decide (1 ≤ e.chatWin) && e.modIn.all (fun n => decide (n ≤ 64)) && e.modOut.all (fun n => decide (n ≤ 64))
    && decide (e.ins.sum ≤ 64) && decide ((e.modOut.take e.nMod).sum ≤ 64)

/-- The mask of the inputs of module `m`, numbered in module order. -/
def StationEntry.modMask (e : StationEntry) (m : Nat) : Nat := (2 ^ (e.ins.getD m 0) - 1) * 2 ^ (e.ins.take m).sum

/-- T_X of R309 in µs for the highest address of each segment; 310 where no station is valid. -/
def txOf (es : List StationEntry) : Nat :=
  (List.range 2).foldl (fun m g =>
    let a := (es.filter (fun e => decide (e.seg = g))).foldl (fun x e => max x (e.addr + 1)) 0
    max m (310 + 100 * a)) 310

/-- The station table in force. -/
def Dev.stationsNow (d : Dev) : List StationEntry := d.cyc.stations.filterMap (fun (x : Nat × StationSt) => x.2.entry)

/-- The two conditions of R299 for a station table. -/
def Program.fitsCycle (p : Program) (es : List StationEntry) : Bool :=
  decide (p.wcet + 220 ≤ p.outAt) && decide (p.outAt + txOf es ≤ p.period * 250)

/-! ## The cycle in time (R299) -/

def Dev.otherProgram (d : Dev) : Option Program := (d.cyc.banks[1 - d.fld Fld.CYC_STATUS_BANK]?).join

/-- The last boundary of a period at or before now, and the first at or after a time, in units of 0.25 ms. -/
def Dev.boundaryNow (d : Dev) (p : Nat) : Nat := d.gNs / 250000 / p * p

def boundaryFrom (t p : Nat) : Nat := (t + p - 1) / p * p

/-- A boundary has come that has not been taken. After a step back of G-time an earlier one is due. -/
def Dev.boundaryDue (d : Dev) (p : Nat) : Bool :=
  let b := d.boundaryNow p
  decide (b ≠ d.cyc.boundary) && (decide (d.cyc.nextBoundary ≤ b) || decide (b < d.cyc.boundary))

/-- OUT_AT of the present cycle has come. -/
def Dev.outDue (d : Dev) (p : Program) : Bool := decide (d.cyc.boundary * 250000 + p.outAt * 1000 ≤ d.gNs)

def cyclesNow (d : Dev) : Nat := d.reg64 Reg.CYC_CYCLES_LO

/-! ## Station inputs (R313 to R315) -/

/-- The inputs of a station after R314: the reply's inputs of the modules that are OK, and the last values of the others. -/
def StationEntry.merge (e : StationEntry) (old : Nat) (r : Reply) : Nat :=
  (List.range e.nMod).foldl (fun v m => if r.modOk.testBit m then v - (v &&& e.modMask m) + (r.inputs &&& e.modMask m) else v) old

/-- The substitutes of a station's modules: DEFAULT for each whose SUBST bit says so, else its last values. -/
def StationEntry.substitute (e : StationEntry) (old : Nat) : Nat :=
  (List.range e.nMod).foldl (fun v m => if e.subst.testBit m then v - (v &&& e.modMask m) + (e.dflt &&& e.modMask m) else v) old

/-- A station before its filters (R314): its new state, and whether it was lost or returned. A module that an accepted reply reports not
OK is missing like one without a reply; MISS shows the longest run of a module, and at TIMEOUT_CYC every module takes its substitute (log 69). -/
def stationInputs (e : StationEntry) (x : StationSt) : StationSt × Bool × Bool :=
  let present (m : Nat) : Bool := x.reply.any (fun r => r.modOk.testBit m)
  let back := x.stale && x.reply.isSome
  let base := if back then List.replicate 8 0 else x.modMiss
  let counts := base.zipIdx.map (fun c => if c.2 < e.nMod ∧ present c.2 = false then min 255 (c.1 + 1) else 0)
  let taken := match x.reply with | some r => e.merge x.under r | none => x.under
  let miss := counts.foldl max 0
  let lost := !x.stale && decide (e.timeoutCyc ≤ miss)
  let stale := !back && (x.stale || lost)
  ({ x with
      fresh := x.reply.isSome, lastReply := x.reply.or x.lastReply, reply := none, modMiss := counts, miss := miss, stale := stale
      under := if stale then e.substitute taken else taken }, lost, back)

/-- The filters of one input (R315): its new state, and whether chatter and stuck were declared. `was` is its value before. -/
def inputFilter (e : StationEntry) (read dt : Nat) (was : Bool) (x : StationSt) (i : Nat) : StationSt × Bool × Bool :=
  let now := x.under.testBit i
  let f := x.filters.getD i {}
  let recent := ((if was = now then f.changes else read :: f.changes).filter (fun k => decide (read < k + e.chatWin)))
  let frozen := x.chat.testBit i
  let declares := !frozen && decide (e.chatN ≠ 0) && decide (e.chatN ≤ recent.length)
  let ends := frozen && recent.isEmpty
  let one := if now && was then f.oneNs + dt else 0
  let sticks := now && !x.stuck.testBit i && decide (e.stuckS ≠ 0) && decide (e.stuckS * 1000000000 ≤ one)
  let x1 : StationSt := { x with
    filters := x.filters.put i { changes := recent, oneNs := one },
    chat := putBit x.chat i ((frozen || declares) && !ends),
    stuck := putBit x.stuck i (now && (x.stuck.testBit i || sticks)),
    vals := if frozen && !ends then x.vals else putBit x.vals i now }
  (x1, declares, sticks)

/-- A station at one input read. -/
def Dev.readStation (d : Dev) (read dt s : Nat) (e : StationEntry) (x : StationSt) : Dev :=
  let r := stationInputs e x
  let d1 := d.count Reg.RIO_REPLY_MISS (b2n x.reply.isNone)
  let d2 := if r.2.1 then d1.event .stationLost s r.1.miss else if r.2.2 then d1.event .stationReturned s else d1
  let res := (List.range e.ins.sum).foldl (fun (a : StationSt × Dev) i =>
    let y := inputFilter e read dt (x.under.testBit i) a.1 i
    let d3 := if y.2.1 then (a.2.count Reg.RIO_CHATTER).event .rioChatter s i else a.2
    (y.1, if y.2.2 then (d3.count Reg.RIO_STUCK).event .rioStuck s i else d3)) (r.1, d2)
  res.2.setStation s res.1

/-- The STATION block of a station (R313). -/
def StationSt.block (x : StationSt) : Bytes :=
  match x.entry with
  | none => zeros 32
  | some _ =>
    let flag (f : Reply → Bool) : Nat := b2n (x.lastReply.any f)
    leBytes 8 x.vals ++ leBytes 8 x.chat ++ leBytes 8 x.stuck ++
    [BitVec.ofNat 8 (b2n x.fresh + 2 * b2n x.stale + 4 * b2n x.stale + 8 * flag (fun r => r.failsafe) + 16 * flag (fun r => r.outOk) +
        32 * flag (fun r => r.fault)),
     BitVec.ofNat 8 ((x.lastReply.map (fun r => r.modOk)).getD 0), BitVec.ofNat 8 x.miss] ++ zeros 5

/-- RIO_ONLINE and RIO_FAILSAFE show the stations. -/
def Dev.refreshRio (d : Dev) : Dev :=
  let mask (f : StationSt → Bool) : Nat :=
    maskOf ((d.cyc.stations.filter (fun (x : Nat × StationSt) => x.2.entry.isSome && f x.2)).map (fun x => x.1))
  (d.setRegN Reg.RIO_ONLINE (mask (fun x => !x.stale))).setRegN Reg.RIO_FAILSAFE (mask (fun x => x.lastReply.any (fun r => r.failsafe)))

/-- A pending station change takes effect. An entry whose place or modules change starts as STALE with its substitutes. -/
def StationSt.takeEffect (x : StationSt) : StationSt :=
  match x.next with
  | none => x
  | some none => {}
  | some (some e) =>
    let same := x.entry.any (fun o => decide (o.seg = e.seg ∧ o.addr = e.addr ∧ o.nMod = e.nMod ∧ o.modIn = e.modIn ∧ o.modOut = e.modOut))
    if same then { x with entry := some e, next := none }
    else { entry := some e, under := e.substitute 0, vals := e.substitute 0 }

def Dev.stationsTake (d : Dev) : Dev :=
  (d.modCyc (fun c => { c with stations := (c.stations.mapVals (fun _ x => x.takeEffect)).keep (fun _ x => decide (x ≠ {})) })).refreshRio

/-! ## The input image (R300, R301) -/

/-- A VALUE block: its two values, QUAL and short epoch. -/
def valueBlock (a b : Word) (qual short : Nat) : Bytes :=
  leBytes 4 a.toNat ++ leBytes 4 b.toNat ++ [BitVec.ofNat 8 qual, 0, 0, 0] ++ leBytes 4 short

/-- The newest delivered record whose stream held channel slot `slot`. -/
def Dev.valueOf (d : Dev) (slot : Nat) : Option ConfRec :=
  d.cyc.vals.foldl (fun (m : Option ConfRec) (x : Nat × ConfRec) =>
    if x.2.chanBase ≤ slot ∧ slot < x.2.chanBase + x.2.nchan ∧ m.all (fun o => decide (o.epoch ≤ x.2.epoch)) then some x.2 else m) none

/-- The block of entry `j` of the value list. Of a sampled-value record the spec names no one value: it is free. -/
def Dev.valueAt (d : Dev) (j : Nat) (v : Nat × Nat × Nat × Nat) : Bytes :=
  if v.1.testBit 0 then
    match d.cyc.sums.find (16 * v.2.2.1 + v.2.2.2) with
    | some e => valueBlock e.valueA e.valueB e.qual (d.cyc.snap.getD 0 % 2 ^ 32)
    | none => zeros 16
  else
    let slot := v.2.1
    match d.valueOf slot with
    | some r =>
      let x : Word × Word := match r.record.body with
        | .slots l => (l[slot - r.chanBase]?).getD (0, 0)
        | .samples _ _ => (BitVec.ofNat 32 (Config.freeNat (d.fresh + j)), 0)
        | .empty => (0, 0)
      valueBlock x.1 x.2 r.record.qual (r.epoch % 2 ^ 32)
    | none => zeros 16

/-- The input image at boundary `b`, `dt` ns after the previous input read. -/
def Dev.inputImage (d : Dev) (p : Program) (b dt : Nat) : Bytes :=
  let c := d.cyc
  gtimeBytes (b * 250000 * 2 ^ 16) ++ zeros 4 ++ leBytes 8 c.since ++ leBytes 4 dt ++
  [BitVec.ofNat 8 (b2n c.first + 2 * b2n c.ovrPrev + 4 * b2n d.timeSuspect + 8 * b2n (d.bit Fld.CRT_STATUS_SOLO) +
      16 * b2n (d.bit Fld.CRT_STATUS_SPLIT)), 0, 0, 0] ++
  leBytes 64 d.fum.outs ++ leBytes 4 d.fum.rgrp ++ leBytes 4 (d.fum.cond / 2 ^ 64 % 2 ^ 32) ++
  [BitVec.ofNat 8 (b2n (d.fum.cond.testBit 32) + 2 * b2n (d.fum.cond.testBit 36) + 4 * b2n (d.bit Fld.FUM_STATUS_ALMOK)),
   BitVec.ofNat 8 d.almPins, 0, 0] ++
  leBytes 4 (c.snap.getD 0 % 2 ^ 32) ++ c.stationImage ++ (p.values.zipIdx.flatMap (fun v => d.valueAt v.2 v.1))

/-- Input read at boundary `b`: the stations, then the image, which lies at offset 0 of work data. -/
def Dev.inputRead (d : Dev) (p : Program) (b : Nat) : Dev :=
  let t := b * 250000
  let dt := (d.cyc.lastRead.map (fun x => t - x)).getD 0
  let read := d.cyc.reads + 1
  let d1 := d.cyc.stations.foldl (fun (x : Dev) (s : Nat × StationSt) => match s.2.entry with | some e => x.readStation read dt s.1 e s.2 | none => x) d
  let d2 := (d1.modCyc (fun c => { c with
    reads := read, lastRead := some t, stationImage := (List.range 32).flatMap (fun s => (c.stations.getD s {}).block) })).refreshRio
  let image := d2.inputImage p b dt
  { d2.modCyc (fun c => { c with
      work := Ram.write workSize c.work 0 image, first := false, ovrPrev := false, executing := true, execDone := false,
      late := false, skipped := false }) with fresh := d2.fresh + 256 }

/-! ## Starting and exchanging programs (R319 to R321) -/

/-- The initial state of an instance: only INIT_IN, which is bit 0 of byte 8 of a timer and of byte 0 of an edge detector. -/
def instInit (kind : Nat) (initIn : Bool) : Bytes :=
  if kind < 3 then zeros 8 ++ [BitVec.ofNat 8 (b2n initIn)] ++ zeros 7 else BitVec.ofNat 8 (b2n initIn) :: zeros 15

def initInsts (p : Program) (w : Ram) : Ram := p.insts.foldl (fun (m : Ram) i => Ram.write workSize m i.2.2.2 (instInit i.2.1 i.2.2.1)) w

/-- The fields of a retained slot's header (R317). -/
def RetSlot.retLen (s : RetSlot) : Nat := fieldAt s.header 4 4
def RetSlot.seq (s : RetSlot) : Nat := fieldAt s.header 8 8
def RetSlot.time (s : RetSlot) : Nat := (gtimeOf (slice s.header 16 12)).1
def RetSlot.layoutId (s : RetSlot) : Nat := fieldAt s.header 28 4
def RetSlot.programId (s : RetSlot) : Nat := fieldAt s.header 32 8

/-- A slot is valid when HCRC and DATA_CRC are correct and its COMMIT equals its SAVE_SEQ (R317). -/
def RetSlot.valid (s : RetSlot) : Bool :=
  decide (crc32 (slice s.header 0 60) = fieldAt s.header 60 4) && decide (crc32 (Ram.read s.data 0 s.retLen) = fieldAt s.header 40 4)
    && decide (s.commit = s.seq)

/-- The 64-byte header of a save of a copy in slot `i`. -/
def RetCopy.header (c : RetCopy) (i seq : Nat) : Bytes :=
  let h : Bytes := [0x60, BitVec.ofNat 8 i, 0, 0] ++ leBytes 4 c.retLen ++ leBytes 8 seq ++ gtimeBytes c.time ++ leBytes 4 c.layoutId ++
    leBytes 8 c.programId ++ leBytes 4 (crc32 (Ram.read c.data 0 c.retLen)) ++ zeros 16
  h ++ leBytes 4 (crc32 h)

/-- The RET_LEN bytes of a memory, which are all that a save writes. -/
def keepRet (m : Ram) (n : Nat) : Ram := m.filter (fun (x : Nat × Byte) => decide (x.1 < n))

/-- The valid slot with the higher SAVE_SEQ. -/
def Dev.newestRet (d : Dev) : Option RetSlot :=
  (d.cyc.retSlots.map (fun x => x.filter (fun s => s.valid))).foldl (fun m x => match m, x with
    | some a, some b => if a.seq < b.seq then some b else some a
    | none, x => x
    | m, none => m) none

/-- Retained data is set up from the image's initial values (R319). -/
def Dev.retFromImage (d : Dev) (p : Program) : Dev :=
  ((d.modCyc (fun c => { c with retained := Ram.write retSize [] 0 p.retInit })).setBit Fld.CYC_STATUS_RET_RESTORED false).event
    .retLoaded 1 0 p.programId

/-- Retained data is set up at CYC_START: it is refused, restored or loaded from the image. -/
def Dev.retSetup (d : Dev) (p : Program) (init : Bool) : Option Dev :=
  if init then some (d.retFromImage p)
  else match d.newestRet with
    | none => some (d.retFromImage p)
    | some s =>
      if s.layoutId = p.layoutId then
        some (((d.modCyc (fun c => { c with retained := s.data })).setBit Fld.CYC_STATUS_RET_RESTORED true).event .retLoaded 0
          (s.time / 2 ^ 16 / 1000000000) s.programId)
      else none

/-- Instances of the new program that take the state of an old one (R320): the new offset and the old one. -/
def matchedInsts (old new : Program) : List (Nat × Nat) :=
  new.insts.filterMap (fun i => (old.insts.find? (fun o => decide (o.1 = i.1 ∧ o.2.1 = i.2.1))).map (fun o => (i.2.2.2, o.2.2.2)))

/-- Work data after an exchange: instance states are carried from the old work data. -/
def carryInsts (old new : Program) (w : Ram) : Ram :=
  (matchedInsts old new).foldl (fun (m : Ram) x => Ram.write workSize m x.1 (Ram.read w x.2 16)) (initInsts new w)

/-- The inactive bank becomes active (R320, R321). `old` is the program that stops, where there is one. -/
def Dev.exchange (d : Dev) (old : Option Program) (new : Program) (init : Bool) : Dev :=
  let n := (old.map (fun o => (matchedInsts o new).length)).getD 0
  let d1 := (((d.setFld Fld.CYC_STATUS_BANK (1 - d.fld Fld.CYC_STATUS_BANK)).setReg64 Reg.CYC_PROG_ID_LO new.programId).count Reg.CYC_EXCHANGES).setBit
    Fld.CYC_STATUS_SWITCH_PEND false
  let d2 := (d1.modCyc (fun c => { c with
      work := match old with | some o => carryInsts o new c.work | none => initInsts new c.work
      switch := none, first := true })).event .programSwitch n (new.programId % 2 ^ 32) (((old.map (fun o => o.programId)).getD 0) % 2 ^ 32)
  if init && old.any (fun o => decide (o.layoutId ≠ new.layoutId)) then d2.retFromImage new else d2

/-! ## Phases of a cycle (R299 to R304) -/

/-- The program's cycle starts at boundary `b` with its input read. -/
def Dev.startCycle (d : Dev) (p : Program) (b : Nat) : Dev :=
  (d.modCyc (fun c => { c with boundary := b, nextBoundary := b + p.period, outPending := true })).inputRead p b

/-- A switch is due: its target is 0 or has been reached. -/
def Dev.switchDue (d : Dev) : Option Bool :=
  match d.cyc.switch with
  | some (target, init) => if target = 0 ∨ target ≤ cyclesNow d then some init else none
  | none => none

/-- The replies of a cycle whose input read is skipped are dropped. -/
def Dev.dropReplies (d : Dev) : Dev := d.modCyc (fun c => { c with stations := c.stations.mapVals (fun _ x => { x with reply := none }) })

/-- A boundary while the program runs. A cycle that overran takes two (R303). After an exchange the first cycle waits for the first boundary of the
new P, whose input read takes the replies to the old program's last cycle (R320). -/
def Dev.runBoundary (d : Dev) (p : Program) (b : Nat) : Dev :=
  let late := d.cyc.late
  if late && !d.cyc.skipped then
    (d.modCyc (fun x => { x with boundary := b, nextBoundary := b + p.period, skipped := true, outPending := true })).dropReplies
  else if late && !d.cyc.execDone then
    (d.modCyc (fun x => { x with boundary := b, nextBoundary := b + p.period, outPending := true })).dropReplies.cycHalt 2 (some 0)
  else
    let d0 := if late then d.modCyc (fun x => { x with ovrPrev := true }) else d
    match d0.switchDue, d0.otherProgram with
    | some init, some new =>
      let d1 := d0.exchange (some p) new init
      let b' := boundaryFrom b new.period
      if b' = b then d1.startCycle new b
      else d1.modCyc (fun x => { x with
        boundary := b' - new.period, nextBoundary := b', outPending := false, executing := false, execDone := false, late := false, skipped := false })
    | _, _ => d0.startCycle p b

/-- The stop that a boundary carries out: 0 hold outputs, 1 fail-safe, 2 the safe state. -/
def Dev.stopNow (d : Dev) (mode : Nat) : Dev :=
  if mode = 1 then d.cycHalt 0 (some 2)
  else if mode = 2 then d.cycHalt 3 none
  else (d.setFld Fld.CYC_STATUS_STATE 0).modCyc (fun c => { c with running := false, executing := false, stopReq := none })

/-- A cycle boundary. OUTPUT frames go on while the program is stopped. -/
def Dev.cycleBoundary (d : Dev) : Dev :=
  match d.program with
  | none => d
  | some p =>
    if d.cyc.outputsOn && d.boundaryDue p.period then
      let b := d.boundaryNow p.period
      let d0 := d.stationsTake
      let d1 := match d0.cyc.stopReq with | some m => d0.stopNow m | none => d0
      let d2 := d1.modCyc (fun c => { c with outCycle := [none, none] })
      let d3 := if d2.cyc.running then d2.runBoundary p b
        else (d2.modCyc (fun c => { c with boundary := b, nextBoundary := b + p.period, outPending := true })).dropReplies
      d3.finishWaits (fun w => decide (w = .cycStop)) sOk 0
    else d

/-- Execution of a cycle completes: what it wrote in work data and in retained data. -/
def Dev.execDone (d : Dev) (work retained : List (Nat × Bytes)) : Dev :=
  if d.cyc.running && d.cyc.executing && !d.cyc.execDone then
    let us := (d.gNs - d.cyc.boundary * 250000 + (match d.program with | some p => if d.cyc.skipped then p.period * 250000 else 0 | none => 0)) / 1000
    let d1 := d.modCyc (fun c => { c with
      work := work.foldl (fun (m : Ram) x => Ram.write workSize m x.1 x.2) c.work,
      retained := retained.foldl (fun (m : Ram) x => Ram.write retSize m x.1 x.2) c.retained,
      execDone := true, executing := false, since := c.since + 1 })
    ((d1.count64 Reg.CYC_CYCLES_LO).setFld Fld.CYC_EXEC_LAST (sat 65535 us)).setFld Fld.CYC_EXEC_MAX (max (d1.fld Fld.CYC_EXEC_MAX) (sat 65535 us))
  else d

/-! ## Outputs (R302, R303, R306) -/

/-- The OUTPUT frame payload of a segment. -/
def Dev.outputFrame (d : Dev) (p : Program) (g : Nat) : Bytes :=
  let es := d.cyc.stations.filterMap (fun (x : Nat × StationSt) => x.2.entry.map (fun e => (x.1, e)))
  let mine := (List.range 16).filterMap (fun a => es.find? (fun x => decide (x.2.seg = g ∧ x.2.addr = a)))
  let c := d.cyc
  let body := [0x01, BitVec.ofNat 8 g] ++ beBytes 2 p.period ++ beBytes 4 (cyclesNow d) ++ (gtimeBytes (c.boundary * 250000 * 2 ^ 16)).reverse ++
    [BitVec.ofNat 8 mine.length, 0, 0, 0] ++
    mine.flatMap (fun x =>
      [BitVec.ofNat 8 x.2.addr, BitVec.ofNat 8 (b2n c.running + 2 * b2n c.failsafe), BitVec.ofNat 8 x.2.tmo, 0] ++ beBytes 8 ((c.outs[x.1]?).getD 0))
  body ++ beBytes 4 (crc32 body)

/-- The OUTPUT frames start on the enabled segments. Bit n of `carrier` says that segment n, or the gap after a frame, is busy. -/
def Dev.sendOutputs (d : Dev) (p : Program) (carrier : Nat) : Dev :=
  (List.range 2).foldl (fun (x : Dev) g =>
    if d.fbit Fld.RIO_CTRL_SEG_EN g then
      (x.fieldSend g (d.outputFrame p g) (carrier.testBit g)).modCyc (fun c => { c with outCycle := modifyAt c.outCycle g (fun _ => some (cyclesNow d % 2 ^ 32)) })
    else x) d

/-- The RET_PERIOD interval of G-time now. -/
def Dev.retInterval (d : Dev) : Nat := d.gNs / (max 1 (d.fld Fld.CYC_CFG_RET_PERIOD) * 100000000)

/-- The output write of a completed cycle. The first at or after each RET_PERIOD boundary is the one whose copy is saved (R317). -/
def Dev.writeOutputs (d : Dev) : Dev :=
  let img := Ram.read d.cyc.work 65536 260
  let copy : Option RetCopy := d.program.map (fun p =>
    { time := d.g16, layoutId := p.layoutId, programId := p.programId, retLen := p.retLen, data := keepRet d.cyc.retained p.retLen })
  let d1 := (d.modCyc (fun c => { c with
    outs := (List.range 32).map (fun s => fieldAt img (8 * s) 8), overruns := if c.late then c.overruns else 0, retCopy := copy
    retDue := if d.bit Fld.CYC_CFG_RET_EN && decide (d.retInterval ≠ c.retDone) then copy else c.retDue
    retDone := d.retInterval })).setCycFlags (fieldAt img 256 4)
  d1.finishWaits (fun w => decide (w = .cycStart) || (decide (w = .cycSwitch) && d1.cyc.switch.isNone)) sOk 0

/-- The program overruns (R303); OVR_MAX overruns in consecutive cycles put it in FAULT. -/
def Dev.overrun (d : Dev) : Dev :=
  let us := (d.gNs - d.cyc.boundary * 250000) / 1000
  let d1 := ((d.modCyc (fun c => { c with late := true, skipped := false, overruns := c.overruns + 1 })).count Reg.CYC_OVERRUN).event
    .cycOverrun noIndex (cyclesNow d % 2 ^ 32) us
  if d1.fld Fld.CYC_CFG_OVR_MAX ≤ d1.cyc.overruns then d1.cycHalt 2 (some 0) else d1

/-- OUT_AT of a cycle. -/
def Dev.outputWrite (d : Dev) (carrier : Nat) : Dev :=
  match d.program with
  | none => d
  | some p =>
    if d.cyc.outputsOn && d.cyc.outPending && d.outDue p then
      let d1 := d.modCyc (fun c => { c with outPending := false })
      let d2 :=
        if !d1.cyc.running then d1
        else if d1.cyc.late && !d1.cyc.skipped then d1
        else if d1.cyc.execDone then d1.writeOutputs
        else if d1.cyc.late then d1
        else d1.overrun
      d2.sendOutputs p carrier
    else d

/-- Execution still runs at t_{k+2} (R303). -/
def Dev.cycFaultDue (d : Dev) : Bool :=
  d.cyc.running && d.cyc.late && d.cyc.skipped && !d.cyc.execDone
    && d.program.any (fun p => decide ((d.cyc.boundary + p.period) * 250000 ≤ d.gNs))

/-! ## Replies (R307, R311) -/

/-- A reply that ends now is accepted for the next input read, or discarded and counted. -/
def Dev.stationReply (d : Dev) (g : Nat) (fcsOk : Bool) (b : Bytes) : Dev :=
  let f (off n : Nat) : Nat := beNat (slice b off n)
  let nMod := f 2 1 % 16
  let hit := d.cyc.stations.find? (fun (x : Nat × StationSt) => x.2.entry.any (fun e => decide (e.seg = g ∧ e.addr = f 1 1 % 16 ∧ e.nMod = nMod)))
  let good := fcsOk && decide (28 ≤ b.length) && decide (f 0 1 = 2) && decide (crc32 (b.take 24) = f 24 4)
    && decide ((d.cyc.outCycle[g]?).join = some (f 4 4)) && decide (d.gNs < d.cyc.nextBoundary * 250000)
  match good, hit with
  | true, some x =>
    let r : Reply := { failsafe := (f 3 1).testBit 0, outOk := (f 3 1).testBit 1, fault := (f 3 1).testBit 2, inputs := f 8 8
                       modOk := maskOf ((List.range nMod).filter (fun m => (f (16 + m) 1).testBit 0)) }
    d.setStation x.1 { x.2 with reply := some r }
  | _, _ => d.count Reg.RIO_REPLY_BAD

/-! ## Retained data (R317, R318) -/

/-- A copy goes to the older slot, which keeps its old COMMIT until the save completes. -/
def Dev.startRetSave (d : Dev) (x : RetCopy) : Dev :=
  let seqOf (i : Nat) : Nat := ((((d.cyc.retSlots[i]?).join).filter (fun s => s.valid)).map (fun s => s.seq)).getD 0
  let i := if seqOf 1 < seqOf 0 then 1 else 0
  let seq := max (seqOf 0) (seqOf 1) + 1
  let old := (((d.cyc.retSlots[i]?).join).map (fun s => s.commit)).getD 0
  let slot : RetSlot := { header := x.header i seq, data := x.data, commit := seq }
  d.modCyc (fun c => { c with
    saving := some (i, slot), retSlots := modifyAt c.retSlots i (fun _ => some { slot with commit := old }), retDue := none })

/-- A write of MRAM1 of higher precedence waits or is under way: an energy save, a key-store update, or the Sinter header (R573). -/
def Dev.mramTaken (d : Dev) (k : KeySt) : Bool :=
  d.nrg.finalDue || d.nrg.points.any (fun p => p.saving.isSome) || k.journal.isSome || d.headerDue

/-- A save that waits starts as soon as the writes of higher precedence allow. -/
def Dev.retSave (d : Dev) (k : KeySt) : Dev :=
  match d.cyc.retDue with
  | some x => if d.cyc.saving.isNone && !d.mramTaken k then d.startRetSave x else d
  | none => d

/-- A save ends: it commits, or fails its read-back. -/
def Dev.retSaved (d : Dev) (ok : Bool) : Dev :=
  match d.cyc.saving with
  | none => d
  | some (i, slot) =>
    let d1 := d.modCyc (fun c => { c with saving := none })
    if ok then (d1.modCyc (fun c => { c with retSlots := modifyAt c.retSlots i (fun _ => some slot) })).count64 Reg.CYC_RET_SAVES_LO
    else (d1.setBit Fld.CYC_STATUS_RET_FAIL true).count Reg.CYC_RET_FAIL

/-- PFW_N asserts: a save of the last output write is queued, unless one runs (R318). -/
def Dev.queueRetSave (d : Dev) : Dev :=
  if d.cyc.saving.isNone && d.cyc.retCopy.isSome && d.bit Fld.CYC_CFG_RET_EN then d.modCyc (fun c => { c with retDue := c.retCopy }) else d

end Sys2Proof.Machine
end

