-- ==== Sys2Proof/Machine/GeyRows.lean ====
section
/-! DEFINITION. Geyser: its ticks, detectors, triggers and stream, and their rows (R248 to R274). -/

namespace Sys2Proof.Machine

open Sys2Proof

/-! ## Ticks and the vector (R248, R249) -/

/-- Nothing is evaluated or streamed, and no block interval of the stream is open: ticks only pass. -/
def Dev.geyIdle (d : Dev) : Bool :=
  !d.bit Fld.GEY_CTRL_EN && !d.bit Fld.GEY_CTRL_STREAM_EN && !d.gey.blocks.any (fun b => b.on)
    && d.gey.tick.all (fun k => decide (d.gey.streamTill ≤ k))

/-- The next tick, where it is due 12 ticks after its instant. Idle ticks are passed together. -/
def Dev.tickDue (d : Dev) : Option Nat :=
  let newest := tickOf d.g16 - 12
  if tickOf d.g16 < 12 then none
  else
    match d.gey.tick with
    | none => some newest
    | some k => if k < newest then some (if d.geyIdle then newest else k + 1) else none

/-- The next tick that detectors and triggers evaluate. -/
def Dev.geyDue (d : Dev) : Option Nat := if d.bit Fld.GEY_CTRL_EN then d.tickDue else none

/-- Bits 0 to 191 of the condition vector as they stand now. -/
def Dev.liveVector (d : Dev) : Nat :=
  let i := match if d.bit Fld.ISL_CTRL_EN then d.isl.last else none with
    | none => 0
    | some v => b2n v.local_ + 2 * b2n v.declared + 4 * b2n v.merged + 8 * b2n v.valid + 32 * b2n v.rebased
  (d.latchVector % 2 ^ 192) + 2 ^ 32 * i + 2 ^ 160 * d.fum.rgrp

def Dev.geyVector (d : Dev) : Nat := d.liveVector + 2 ^ 192 * d.reg64 Reg.GEY_LC_LO

def Dev.lc (d : Dev) (j : Nat) : LcSt := d.gey.lcs.getD j {}

def Dev.setLc (d : Dev) (j : Nat) (s : LcSt) : Dev := d.modGey (fun g => { g with lcs := g.lcs.put j s })

def Dev.setLcBit (d : Dev) (j : Nat) (b : Bool) : Dev := d.setReg64 Reg.GEY_LC_LO (putBit (d.reg64 Reg.GEY_LC_LO) j b)

def Dev.lcFrozen (d : Dev) (j : Nat) : Bool := (d.reg64 Reg.GEY_CHAT_LO).testBit j

def Dev.setLcFrozen (d : Dev) (j : Nat) (b : Bool) : Dev := d.setReg64 Reg.GEY_CHAT_LO (putBit (d.reg64 Reg.GEY_CHAT_LO) j b)

/-- The vector bits that a pattern cares about. -/
def TrigEntry.cares (e : TrigEntry) : Nat := e.must0 ||| e.must1

def Dev.modTrig (d : Dev) (n : Nat) (f : TrigSt → TrigSt) : Dev := d.modGey (fun g => { g with trigs := g.trigs.update n {} f })

/-- The triggers that care about a detector take the next tick's match as their previous one (R258). -/
def Dev.calmTriggers (d : Dev) (j : Nat) : Dev :=
  d.modGey (fun g => { g with trigs := g.trigs.mapVals (fun _ t =>
    if t.ent.any (fun e => e.cares.testBit (192 + j)) then { t with prev := none } else t) })

/-! ## Detectors (R250 to R254) -/

/-- The sample of a detector's quantity that is new in tick `k`, with the tick it stands for. A decimated value is new 124 ticks
after the instant that it stands for. -/
def Dev.lcSample (d : Dev) (e : LcEntry) (k : Nat) : Option (DWord × Nat) :=
  if e.qty = 0 then (d.sampAt e.ch k).map (fun x => (dOfCount x.y, k))
  else if k % 20 = 4 ∧ 124 ≤ k then
    let n := (k - 124) / 20
    (if e.qty = 1 then (d.fineAt e.ch n).map (fun x => x.x) else if e.qty = 2 then (d.fineAt e.ch n).map (fun x => x.mag) else d.coarseFreq e.ch n).map
      (fun x => (x, 20 * n))
  else none

/-- D_C in 2⁻¹⁶ ns (R230): the delay of the one-cycle average and of the chain. -/
def Dev.coarseDelay (d : Dev) : Nat := if d.bit Fld.CRT_CFG_F_NOM then 8890625 * 65536 else 10492187 * 65536 + 32768

/-- The crossing time of R252. -/
def Dev.crossTime (d : Dev) (e : LcEntry) (thr : DWord) (x0 x1 : DWord × Nat) : Nat :=
  let th := if e.mode = 2 ∧ dLt x1.1 0 = true then dNeg thr else thr
  let f := dDiv (dSub th x0.1) (dSub x1.1 x0.1)
  let q := (max 1 (min 1024 (dIntSat (dMul f (dOfInt 1024))))).toNat
  let p := if e.qty = 0 then 250000 else 5000000
  x0.2 * tick16 + q * p - (if 2 ≤ e.qty then d.coarseDelay else 0)

/-- The change of a detector at a sample: T is the set threshold, `c` the clear threshold (R251). -/
def Dev.lcStep (d : Dev) (e : LcEntry) (k : Nat) (x : DWord × Nat) (s : LcSt) : LcSt :=
  let t := dOfF32 e.t
  let h := dOfF32 e.hyst
  let low := dSub t h
  let high := dAdd t h
  let v := if e.mode = 2 then dAbs x.1 else x.1
  let sets := if e.mode = 1 then dGe t v else dGe v t
  let clears := if e.mode = 1 then dLt high v else dLt v low
  let cross (thr : DWord) : Nat × Bool := match s.prev with | none => (x.2 * tick16, false) | some p => (d.crossTime e thr p x, true)
  let s1 := { s with prev := some x }
  if !s.under then
    if sets then { s1 with under := true, clearSince := none, changes := k :: s.changes.take 15, cross := some (cross t) } else s1
  else if !clears then { s1 with clearSince := none }
  else
    let since := s.clearSince.getD k
    if e.hold = 0 then
      { s1 with under := false, clearSince := none, changes := k :: s.changes.take 15, cross := some (cross (if e.mode = 1 then high else low)) }
    else if e.hold ≤ k - since then { s1 with under := false, clearSince := none, changes := k :: s.changes.take 15 }
    else { s1 with clearSince := some since }

/-- A frozen detector whose output has not changed for CHAT_WIN ms takes that output (R253), unless its module does not measure (R254). -/
def Dev.lcUnfreeze (d : Dev) (k j : Nat) : Dev :=
  let s := d.lc j
  match s.ent with
  | none => d
  | some e =>
    if d.lcFrozen j && d.measuring (e.ch / 12) && decide ((s.changes.headD 0) + e.chatWin * 256 ≤ k) then
      ((d.setLcFrozen j false).setLcBit j s.under).calmTriggers j
    else d

/-- Detector `j` in tick `k`: unfreezing, its new sample, chatter, and its bit, which without a sample holds its output. -/
def Dev.lcTick (d : Dev) (k j : Nat) : Dev :=
  let d0 := d.lcUnfreeze k j
  let s := d0.lc j
  match s.ent with
  | none => d0.setLcBit j false
  | some e =>
    match d0.lcSample e k with
    | none => if d0.lcFrozen j then d0 else d0.setLcBit j s.under
    | some x =>
      let s1 := d0.lcStep e k x s
      let d1 := d0.setLc j s1
      if d0.lcFrozen j then d1
      else
        let d2 := d1.setLcBit j s1.under
        if s1.under ≠ s.under ∧ e.chatN ≠ 0 ∧ e.chatN ≤ (s1.changes.filter (fun t => decide (k < t + e.chatWin * 256))).length then
          let d3 := (d2.setLcFrozen j true).count Reg.GEY_CHATTER
          d3.event .detectorChatter j (d3.regN Reg.GEY_CHATTER)
        else d2

/-- Every detector in tick `k`. -/
def Dev.allDetectors (d : Dev) (k : Nat) : Dev := (List.range 64).foldl (fun (x : Dev) j => x.lcTick k j) d

/-! ## Marks (R257, R260, R266) -/

/-- A mark of a trigger: its accumulated dead time and misses go with it and restart. -/
def TrigSt.mark (t : TrigSt) (k n cause vec : Nat) (suspect : Bool) (at_ : Nat × Nat × Bool) : TrigSt × Mark :=
  ({ t with deadTicks := 0, missed := 0 },
   { k := k, trig := n, cause := cause, interp := at_.2.2, tbit := at_.2.1, cross := at_.1, fires := t.fires, deadNs := t.deadTicks * 15625 / 4,
     missed := min (2 ^ 32 - 1) t.missed, vector := vec, suspect := suspect })

/-- A trigger misses a match, or loses a mark (R259). -/
def Dev.trigMissed (d : Dev) (n : Nat) : Dev :=
  (d.modTrig n (fun t => { t with missed := t.missed + 1, missedTotal := t.missedTotal + 1 })).count Reg.GEY_MISSED

/-- A mark joins the 1,024-entry queue (R21, R266). -/
def Dev.queueMark (d : Dev) (m : Mark) : Dev :=
  let q := d.gey.marks ++ [m]
  if q.length ≤ 1024 then d.modGey (fun g => { g with marks := q })
  else
    let lost := (q.headD m).trig
    ((d.modGey (fun g => { g with marks := q.drop 1 })).count Reg.GEY_MARK_LOST).trigMissed lost

/-- CROSS, TBIT and INTERP of a firing in tick `k` (R257). -/
def Dev.crossOf (d : Dev) (e : TrigEntry) (k vec : Nat) : Nat × Nat × Bool :=
  let changed := (vec ^^^ d.gey.lastVec) &&& e.cares
  let best := (List.range 64).foldl (fun (b : Option (Nat × Nat × Bool)) j =>
    if changed.testBit (192 + j) then
      match (d.lc j).cross with
      | none => b
      | some c => if b.all (fun x => decide (x.1 < c.1)) then some (c.1, 192 + j, c.2) else b
    else b) none
  best.getD (k * tick16, ((List.range 256).find? (fun i => changed.testBit i)).getD 0xFFFF, false)

/-- Trigger `n` writes a mark in tick `k`. -/
def Dev.writeMark (d : Dev) (k n cause vec : Nat) (at_ : Nat × Nat × Bool) : Dev :=
  let r := (d.gey.trigs.getD n {}).mark k n cause vec d.timeSuspect at_
  (d.modTrig n (fun _ => r.1)).queueMark r.2

/-! ## Triggers (R255 to R261) -/

/-- The tick time with no timing bit. -/
def tickMark (k : Nat) : Nat × Nat × Bool := (k * tick16, 0xFFFF, false)

def TrigEntry.matches (e : TrigEntry) (vec : Nat) : Bool := decide (vec &&& e.must1 = e.must1) && decide (vec &&& e.must0 = 0)

/-- A blind tick counts once (R259). -/
def TrigSt.blindIn (t : TrigSt) (k : Nat) : TrigSt :=
  if t.deadAt = some k then t else { t with deadTicks := t.deadTicks + 1, deadTotal := t.deadTotal + 1, deadAt := some k }

/-- A trigger fires: FIRES, the mark, and hold-off from this tick on. -/
def Dev.trigFire (d : Dev) (k n cause vec : Nat) (e : TrigEntry) (at_ : Nat × Nat × Bool) : Dev :=
  let d1 := (d.modTrig n (fun t => { t with fires := (t.fires + 1) % 2 ^ 32, lastFire := some k, firedHigh := true })).writeMark k n cause vec at_
  if e.holdoff = 0 then d1
  else d1.modTrig n (fun t => { t.blindIn k with holdUntil := some (k + e.holdoff * 256) })

def TrigSt.inHold (t : TrigSt) (k : Nat) : Bool := t.holdUntil.any (fun u => decide (k < u))

/-- A detector bit that the pattern cares about is frozen. -/
def Dev.frozenFor (d : Dev) (e : TrigEntry) : Bool := decide ((2 ^ 192 * d.reg64 Reg.GEY_CHAT_LO) &&& e.cares ≠ 0)

/-- A LEVEL repeat is due in tick `k`, with the match still 1. -/
def TrigSt.repeatDue (t : TrigSt) (e : TrigEntry) (k : Nat) : Bool :=
  e.level && !t.stuck && t.high && !t.inHold k && t.lastFire.any (fun f => decide (f + e.repeat_ * 256 ≤ k))

def Dev.trigRepeat (d : Dev) (k n vec : Nat) : Dev :=
  let t := d.gey.trigs.getD n {}
  match t.ent with
  | none => d
  | some e => if e.matches vec && t.repeatDue e k then d.trigFire k n 1 vec e (tickMark k) else d

/-- The match has stayed 1 for STUCK_S seconds. -/
def Dev.trigStuck (d : Dev) (k n vec : Nat) : Dev :=
  let t := d.gey.trigs.getD n {}
  match t.ent with
  | none => d
  | some e =>
    if e.matches vec && t.high && !t.stuck && decide (e.stuckS ≠ 0) && decide (t.since + e.stuckS * 256000 ≤ k) then
      ((d.modTrig n (fun x => { x with stuck := true })).count Reg.GEY_STUCK).writeMark k n 2 vec (tickMark k)
    else d

/-- Hold-off ends. -/
def Dev.holdExpire (d : Dev) (k n : Nat) : Dev :=
  d.modTrig n (fun t => if t.holdUntil.any (fun u => decide (u ≤ k)) then { t with holdUntil := none } else t)

/-- SOFT marks of GEY_FIRE. -/
def Dev.softMarks (d : Dev) (k n vec : Nat) : Dev :=
  let t := d.gey.trigs.getD n {}
  (List.range t.soft).foldl (fun (x : Dev) _ =>
    (x.modTrig n (fun y => { y with fires := (y.fires + 1) % 2 ^ 32 })).writeMark k n 4 vec (tickMark k)) (d.modTrig n (fun y => { y with soft := 0 }))

/-- Trigger `n` in tick `k`. Where a command's change is taken as the previous match, a match that it raised begins anew without a firing,
one that it ended is over, and one that it left alone runs on (R258, R261). -/
def Dev.trigTick (d : Dev) (k vec n : Nat) : Dev :=
  let d0 := d.holdExpire k n
  let t := d0.gey.trigs.getD n {}
  match t.ent with
  | none => d0
  | some e =>
    let now := e.matches vec
    let was := t.prev.getD now
    let blind := t.inHold k || d0.frozenFor e
    let d1 := if blind then d0.modTrig n (fun x => x.blindIn k) else d0
    let d2 :=
      if now && !was then
        let d' := d1.modTrig n (fun x => { x with since := k })
        if blind then d'.trigMissed n else d'.trigFire k n 0 vec e (d1.crossOf e k vec)
      else if !now && was then
        let d' := if e.markFall && t.firedHigh then d1.writeMark k n 3 vec (d1.crossOf e k vec) else d1
        d'.modTrig n (fun x => { x with firedHigh := false, stuck := false })
      else if !now then d1.modTrig n (fun x => { x with firedHigh := false, stuck := false })
      else if !t.high then d1.modTrig n (fun x => { x with since := k, lastFire := none })
      else (d1.trigRepeat k n vec).trigStuck k n vec
    (d2.softMarks k n vec).modTrig n (fun x => { x with prev := some now, high := now })

/-! ## The stream (R262 to R270) -/

/-- Ticks of a block interval. -/
def blockLen (fine : Bool) : Nat := if fine then 5120 else 256

/-- Ticks after the last tick of a block by which its samples have come. -/
def blockLag (fine : Bool) : Nat := if fine then 106 else 0

def Dev.geyFree (d : Dev) : Nat := d.fld Fld.GEY_CFG_BUF_SIZE * 1048576 - queueBytes d.hif.trigQ

/-- FILL in percent. -/
def Dev.geyFill (d : Dev) : Nat := queueBytes d.hif.trigQ * 100 / (max 1 (d.fld Fld.GEY_CFG_BUF_SIZE) * 1048576)

/-- A record is written to the stream buffer: TYPE, TIME_SUSPECT and the rest after the header; SEQ counts it. -/
def Dev.streamWrite (d : Dev) (type : Nat) (suspect : Bool) (body : Bytes) (groupEnd : Bool) : Dev :=
  let b := [BitVec.ofNat 8 type, BitVec.ofNat 8 (b2n suspect), 0, 0] ++ leBytes 4 (16 + body.length) ++ leBytes 4 d.gey.seq ++ zeros 4 ++ body
  (((d.setRingQ 7 (d.ringQ 7 ++ [⟨b, groupEnd⟩])).modGey (fun g => { g with seq := (g.seq + 1) % 2 ^ 32 })).count64 Reg.GEY_RECORDS_LO)

/-- The flags of a column over the ticks of a block (R265). -/
def Dev.colFlags (d : Dev) (ch from_ n : Nat) (stepped : Bool) : Nat :=
  let l := (List.range n).map (fun j => d.heldSamp ch (from_ + j))
  let any' (f : Samp → Bool) : Bool := l.any (fun s => s.any f)
  b2n (any' (fun s => s.ovr)) + 2 * b2n (any' (fun s => s.rep)) + 4 * b2n (l.any (fun s => s.isNone)) + 8 * b2n (any' (fun s => s.shadow))
    + 16 * b2n (any' (fun s => s.frozen)) + 32 * b2n stepped

/-- A value in units of 2⁻⁸ count, saturated. -/
def Dev.streamValue (d : Dev) (fine : Bool) (ch k : Nat) : Int :=
  let v : Int := if fine then dIntSat (dMul (((d.heldFine ch (k / 20)).map (fun x => x.x)).getD 0) (dOfInt 256))
    else (((d.heldSamp ch k).map (fun x => x.y)).getD 0) / 65536
  max (-(2 ^ 31 - 1)) (min (2 ^ 31 - 1) v)

/-- A DATA record's part after the header, for the first `ticks` ticks of a block (R264). Four bytes of 0 make LEN a multiple of 8 (R262,
log 169). -/
def Dev.dataBody (d : Dev) (b : BlockSt) (ticks : Nat) : Bytes :=
  let chs := bitsOf 48 b.mask
  let p := if b.fine then 20 else 1
  let n := (ticks + p - 1) / p
  leBytes 8 b.from_ ++ [BitVec.ofNat 8 (b2n b.fine), BitVec.ofNat 8 chs.length] ++ leBytes 2 n ++ zeros 4 ++
    (chs.map (fun c => BitVec.ofNat 8 c) ++ List.replicate (48 - chs.length) (0xFF : Byte)) ++
    (chs.map (fun c => BitVec.ofNat 8 (d.colFlags c b.from_ ticks b.stepped)) ++ zeros (48 - chs.length)) ++
    (List.range n).flatMap (fun j => chs.flatMap (fun c => leBytes 4 (toTwos 32 (d.streamValue b.fine c (b.from_ + j * p)))))
    ++ zeros (4 * (n * chs.length % 2))

/-- A GAP record's part after the header (R267). -/
def GapSt.body (g : GapSt) : Bytes := leBytes 8 g.from_ ++ leBytes 4 g.count ++ [BitVec.ofNat 8 g.cause, 0, 0, 0]

/-- Ticks without DATA are noted, joined to the gap before them where that ends at them with the same cause. -/
def addGap (gaps : List GapSt) (n : GapSt) : List GapSt :=
  if n.count = 0 then gaps
  else
    match gaps.getLast? with
    | some g =>
      if g.cause = n.cause ∧ g.from_ + g.count = n.from_ then gaps.dropLast ++ [{ g with count := g.count + n.count, suspect := g.suspect || n.suspect }]
      else gaps ++ [n]
    | none => [n]

/-- The noted gaps are written, as far as they fit. -/
def Dev.writeGaps (d : Dev) : Dev :=
  d.gey.gaps.foldl (fun (x : Dev) g =>
    if 32 ≤ x.geyFree then (x.streamWrite 0x12 g.suspect g.body true).modGey (fun y => { y with gaps := y.gaps.drop 1 }) else x) d

/-- A mark's part after the header (R266). -/
def Mark.body (m : Mark) : Bytes :=
  leBytes 8 m.k ++ leBytes 2 m.trig ++ [BitVec.ofNat 8 m.cause, BitVec.ofNat 8 (b2n m.interp)] ++ leBytes 2 m.tbit ++ zeros 2 ++ gtimeBytes m.cross ++
    leBytes 4 m.fires ++ leBytes 8 m.deadNs ++ leBytes 4 m.missed ++ zeros 4 ++ leBytes 32 m.vector

/-- The marks of ticks before `upTo` are written in order of K and then of trigger; one that does not fit is lost (R263, R268). They end their
record group (R463). -/
def Dev.writeMarks (d : Dev) (upTo : Nat) : Dev :=
  let mine := sortBy (fun (a b : Mark) => decide (a.k < b.k) || (decide (a.k = b.k) && decide (a.trig < b.trig)))
    (d.gey.marks.filter (fun m => decide (m.k < upTo)))
  let d0 := d.modGey (fun g => { g with marks := g.marks.filter (fun m => !decide (m.k < upTo)) })
  let d1 := mine.foldl (fun (x : Dev) m =>
    if 96 ≤ x.geyFree then (x.streamWrite 0x11 m.suspect m.body false).count64 Reg.GEY_MARKS_LO
    else (x.count Reg.GEY_MARK_LOST).trigMissed m.trig) d0
  if mine.isEmpty then d1 else d1.endGroupOf 7

/-- The stream accounts for every tick before `from_`: those since the last record are a gap with the stream disabled (R267, R270). -/
def Dev.accountTo (d : Dev) (from_ : Nat) : Dev :=
  d.modGey (fun g => { g with
    acct := some from_
    acctSuspect := g.acctSuspect && g.acct.any (fun a => decide (from_ ≤ a))
    gaps := match g.acct with | some a => addGap g.gaps ⟨a, from_ - a, 2, g.acctSuspect⟩ | none => g.gaps })

/-- The first `ticks` ticks of a block are written or discarded (R264, R268): what a DATA record leaves free counts the GAP records that go
before it. -/
def Dev.closeData (d : Dev) (b : BlockSt) (ticks : Nat) : Dev :=
  let upTo := b.from_ + ticks
  if b.on && decide (0 < ticks) then
    let hasMarks := d.gey.marks.any (fun m => decide (m.k < upTo))
    let d0 := (d.accountTo b.from_).modGey (fun g => { g with acct := some upTo })
    let body := d0.dataBody b ticks
    if 16 + body.length + 32 * d0.gey.gaps.length + d0.fld Fld.GEY_CFG_RESERVE * 65536 ≤ d0.geyFree then
      (d0.writeGaps.streamWrite 0x10 b.suspect body (!hasMarks)).setBit Fld.GEY_STATUS_BACKPRESSURE false
    else
      ((d0.modGey (fun g => { g with gaps := addGap g.gaps ⟨b.from_, ticks, 0, b.suspect⟩ })).count Reg.GEY_DROP_BLOCKS).setBit
        Fld.GEY_STATUS_BACKPRESSURE true
  else d

/-- The same, and then its marks. -/
def Dev.closeBlock (d : Dev) (b : BlockSt) (ticks : Nat) : Dev := (d.closeData b ticks).writeMarks (b.from_ + ticks)

/-- Blocks whose samples have come are closed, oldest first. -/
def Dev.closeBlocks (k : Nat) : List BlockSt → Dev → Dev
  | [], d => d
  | b :: t, d =>
    let len := blockLen b.fine
    if b.from_ + len + blockLag b.fine ≤ k + 1 then
      Dev.closeBlocks k t ((d.closeBlock b len).modGey (fun g => { g with blocks := g.blocks.drop 1 }))
    else d

/-- The layout of GEY_STREAM_SET comes into force at the first tick after its command that is a multiple of 5,120 (R270). -/
def Dev.takeLayout (d : Dev) (k : Nat) : Dev :=
  match d.gey.newLayout with
  | some (fine, mask, at_) =>
    if at_ < k - k % 5120 then (d.setBit Fld.GEY_STATUS_RATE fine).modGey (fun g => { g with mask := mask, newLayout := none }) else d
  | none => d

/-- A block interval that starts at a tick is streamed: STREAM_EN was set before it and not cleared, nor has G-time stepped since (R269,
R270, R274). -/
def Dev.streamsFrom (d : Dev) (k : Nat) : Bool :=
  decide (d.gey.mask ≠ 0) && decide (d.gey.streamFrom < k) && (d.bit Fld.GEY_CTRL_STREAM_EN || decide (k ≤ d.gey.streamTill))

/-- The block interval of tick `k` is opened as its first tick passes, under the layout in force; where that tick has not been passed alone,
it is not streamed. -/
def Dev.openBlock (d0 : Dev) (k : Nat) : Dev :=
  let d := d0.takeLayout k
  let fine := d.bit Fld.GEY_STATUS_RATE
  let start := k - k % blockLen fine
  if d.gey.blocks.any (fun b => decide (b.from_ = start)) then d
  else
    let on := decide (start = k) && d.streamsFrom k
    (d.modGey (fun g => { g with
      blocks := g.blocks ++ [{ from_ := start, fine := fine, on := on, mask := if on then g.mask else 0 }] })).setBit Fld.GEY_STATUS_STREAMING on

/-- The newest block, and the ticks since the last record, note doubtful time. -/
def Dev.noteSuspect (d : Dev) : Dev :=
  if d.timeSuspect then d.modGey (fun g => { g with
    blocks := g.blocks.dropLast ++ (g.blocks.getLast?).toList.map (fun b => { b with suspect := true })
    acctSuspect := g.acctSuspect || g.blocks.getLast?.any (fun b => !b.on) })
  else d

/-! ## One tick (R248) -/

/-- Detectors and triggers evaluate tick `k`. -/
def Dev.evaluateTick (d : Dev) (k : Nat) : Dev :=
  let d1 := (d.modGey (fun g => { g with lcs := g.lcs.mapVals (fun _ s => { s with cross := none }) })).allDetectors k
  let vec := d1.geyVector
  ((List.range 256).foldl (fun (x : Dev) n => x.trigTick k vec n) d1).modGey (fun g => { g with lastVec := vec })

/-- The tick that is due passes: it opens a block interval or not, is evaluated while EN is 1, and closes the blocks whose samples have come. -/
def Dev.geyserTick (d : Dev) : Dev :=
  match d.tickDue with
  | none => d
  | some k =>
    let d1 := (d.openBlock k).noteSuspect
    let d2 := (if d.bit Fld.GEY_CTRL_EN then d1.evaluateTick k else d1).modGey (fun g => { g with tick := some k })
    Dev.closeBlocks k d2.gey.blocks d2

/-- GEYSER_TICK (R248). -/
def execGeyserTick (dt : Nat) (s : State) : Answer := s.run dt (fun _ d => d.geyserTick)

/-- DETECTOR_HOLD_EXPIRE (R251): in the tick that is due, the clear condition of the detector has held for HOLD ticks. -/
def execDetectorHoldExpire (dt detector : Nat) (s : State) : Answer :=
  s.run dt (fun _ d =>
    match d.geyDue, (d.lc detector).ent with
    | some k, some e =>
      let x := d.lcTick k detector
      if decide (0 < e.hold) && (d.lc detector).under && !(x.lc detector).under then x else d
    | _, _ => d)

/-- DETECTOR_UNFREEZE (R253). -/
def execDetectorUnfreeze (dt detector : Nat) (s : State) : Answer :=
  s.run dt (fun _ d => match d.geyDue with | some k => d.lcUnfreeze k detector | none => d)

/-- TRIGGER_REPEAT (R256): in the tick that is due, the match is still 1 and the repeat has come. -/
def execTriggerRepeat (dt trigger : Nat) (s : State) : Answer :=
  s.run dt (fun _ d => match d.geyDue with | some k => d.trigRepeat k trigger (d.allDetectors k).geyVector | none => d)

/-- HOLDOFF_EXPIRE (R259). -/
def execHoldoffExpire (dt trigger : Nat) (s : State) : Answer :=
  s.run dt (fun _ d => match d.geyDue with | some k => d.holdExpire k trigger | none => d)

/-- TRIGGER_STUCK (R261). -/
def execTriggerStuck (dt trigger : Nat) (s : State) : Answer :=
  s.run dt (fun _ d => match d.geyDue with | some k => d.trigStuck k trigger (d.allDetectors k).geyVector | none => d)

/-- STREAM_RECORD_DELIVER (R269). -/
def execStreamRecordDeliver (dt : Nat) (s : State) : Answer := s.run dt (fun _ d => d.pump 7)

/-! ## Enables (R271, R272, R274, R546) -/

/-- A write that sets STREAM_EN is refused. -/
def Dev.streamRefused (d : Dev) : Bool :=
  (d.ringOf 7).isNone || decide (d.ddrMib < d.layoutCrt + d.fld Fld.GEY_CFG_BUF_SIZE) || !d.bit Fld.RST_STATUS_DDR_READY

/-- Evaluation starts: every detector at 0, every trigger under R258. The mark queue and the stream go on (R266, R274). -/
def Dev.startGeyser (d : Dev) : Dev :=
  (((d.setReg64 Reg.GEY_LC_LO 0).setReg64 Reg.GEY_CHAT_LO 0).setBit Fld.GEY_STATUS_RUNNING true).modGey (fun g =>
    { g with
      lcs := g.lcs.mapVals (fun _ s => { ent := s.ent })
      trigs := g.trigs.mapVals (fun _ t => { t with
        prev := none, high := false, lastFire := none, holdUntil := none, deadAt := none, firedHigh := false, stuck := false }) })

/-- GEY_CTRL is written; the idle ticks before it have passed. -/
def writeGeyCtrl (v : Word) (d0 : Dev) : Dev :=
  if d0.gatedAt Reg.GEY_CTRL then d0
  else
    let d := if d0.geyIdle && d0.gey.tick.isSome then d0.geyserTick else d0
    let en := v.toNat.testBit 0
    let st := v.toNat.testBit 1
    let was := d.bit Fld.GEY_CTRL_EN
    let refuse := st && !d.bit Fld.GEY_CTRL_STREAM_EN && d.streamRefused
    let d1 := (d.setBit Fld.GEY_CTRL_EN en).setBit Fld.GEY_CTRL_STREAM_EN (st && !refuse)
    let d2 := if refuse then d1.setBit Fld.GEY_STATUS_CFG_ERR true else d1
    let ran := d.bit Fld.GEY_CTRL_STREAM_EN
    let d3 := d2.modGey (fun g => { g with
      streamFrom := if st && !refuse && !ran then tickOf d.g16 else g.streamFrom
      streamTill := if ran && !st then tickOf d.g16 else g.streamTill })
    if en && !was then d3.startGeyser
    else if was && !en then d3.setBit Fld.GEY_STATUS_RUNNING false
    else d3

/-- GEY_ENABLE (R274): a write of GEY_CTRL with EN 1. -/
def execGeyEnable (value : Word) (s : State) : Answer := s.run 0 (fun _ d => if value.toNat.testBit 0 then writeGeyCtrl value d else d)

/-- GEY_STREAM_ENABLE (R270): a write of GEY_CTRL. -/
def execGeyStreamEnable (value : Word) (s : State) : Answer := s.run 0 (fun _ d => writeGeyCtrl value d)

/-! ## Commands (R250, R255, R273) -/

def lcResv : List (Nat × Nat) := [(0, 0x40), (1, 0xF0), (2, 0xF0), (3, 0xFF)]

/-- The fields of an image, whatever its VALID. -/
def lcFields (b : Bytes) : LcEntry :=
  let b0 := fieldAt b 0 1
  let b1 := fieldAt b 1 1
  { ch := b0 % 64, qty := b1 % 4, mode := b1 / 4 % 4, chatN := fieldAt b 2 1 % 16, t := BitVec.ofNat 32 (fieldAt b 4 4),
    hyst := BitVec.ofNat 32 (fieldAt b 8 4), hold := fieldAt b 12 2, chatWin := fieldAt b 14 2 }

def lcOf (b : Bytes) : Option LcEntry := if (fieldAt b 0 1).testBit 7 then some (lcFields b) else none

def LcEntry.fits (e : LcEntry) : Bool :=
  decide (e.ch < 48) && decide (e.mode ≠ 3) && !(decide (e.mode = 2) && decide (e.qty = 3)) && fFinite e.t && fFinite e.hyst
    && !fLt e.hyst 0 && decide (e.chatN ≠ 1) && decide (e.chatWin ≠ 0)

/-- One detector takes its image: unused or with an empty state, unfrozen, and its triggers calmed (R250, R258). -/
def Dev.putLc (d : Dev) (first : Nat) (x : Bytes × Nat) : Dev :=
  let j := first + x.2
  ((d.modGey (fun g => { g with lcs := match lcOf x.1 with | some e => g.lcs.put j { ent := some e } | none => g.lcs.drop j })).setLcFrozen j
    false).calmTriggers j

def geyLcSet (first count : Nat) (images : Bytes) (d : Dev) : Dev × CmdRes :=
  let imgs := imagesOf 16 count images
  if count = 0 ∨ 64 < first + count ∨ imgs.any (resvSet lcResv) = true ∨ imgs.any (fun b => !(lcFields b).fits) = true then (d, .done sRange 0)
  else
    ((imgs.zipIdx).foldl (fun (x : Dev) p => x.putLc first p) d, .ok)

/-- GEY_LC_SET (R250). -/
def execGeyLcSet (c : Ctx) (first count : Nat) (images : Bytes) (s : State) : Answer :=
  s.run 0 (fun _ d => d.accept c false (some 0) (geyLcSet first count images))

def trigResv : List (Nat × Nat) := [(64, 0xF8), (70, 0xFF), (71, 0xFF)]

/-- The pattern's code for a vector bit. -/
def patCode (b : Bytes) (i : Nat) : Nat := fieldAt b (i / 4) 1 / 4 ^ (i % 4) % 4

def trigOf (b : Bytes) : Option TrigEntry :=
  let f := fieldAt b 64 1
  if f.testBit 0 then
    some { must0 := maskOf ((List.range 256).filter (fun i => decide (patCode b i = 1))),
           must1 := maskOf ((List.range 256).filter (fun i => decide (patCode b i = 2))),
           level := f.testBit 1, markFall := f.testBit 2, stuckS := fieldAt b 65 1, holdoff := fieldAt b 66 2, repeat_ := fieldAt b 68 2 }
  else none

def trigBad (b : Bytes) : Bool :=
  let level := (fieldAt b 64 1).testBit 1
  let rep := fieldAt b 68 2
  (List.range 256).any (fun i => decide (patCode b i = 3)) || (level && decide (rep = 0)) || (!level && decide (rep ≠ 0)) || resvSet trigResv b

/-- One trigger takes its image, with its counts at 0 and the next match as its previous one (R255, R258). -/
def putTrig (first : Nat) (t : Tbl TrigSt) (x : Bytes × Nat) : Tbl TrigSt :=
  match trigOf x.1 with
  | some e => t.put (first + x.2) { ent := some e }
  | none => t.drop (first + x.2)

def geyTrigSet (first count : Nat) (images : Bytes) (d : Dev) : Dev × CmdRes :=
  let imgs := imagesOf 72 count images
  if count = 0 ∨ 256 < first + count ∨ imgs.any trigBad = true then (d, .done sRange 0)
  else
    (d.modGey (fun g => { g with trigs := (imgs.zipIdx).foldl (putTrig first) g.trigs }), .ok)

/-- GEY_TRIG_SET (R255). -/
def execGeyTrigSet (c : Ctx) (first count : Nat) (images : Bytes) (s : State) : Answer :=
  s.run 0 (fun _ d => d.accept c false (some 0) (geyTrigSet first count images))

def geyStreamSet (rate mask : Nat) (d : Dev) : Dev × CmdRes :=
  if 1 < rate ∨ mask = 0 ∨ 2 ^ 48 ≤ mask then (d, .done sRange 0)
  else (d.modGey (fun g => { g with newLayout := some (decide (rate = 1), mask, tickOf d.g16) }), .ok)

/-- GEY_STREAM_SET (R270). -/
def execGeyStreamSet (c : Ctx) (rate mask : Nat) (s : State) : Answer :=
  s.run 0 (fun _ d => d.accept c false (some 0) (geyStreamSet rate mask))

def geyFire (n : Nat) (d : Dev) : Dev × CmdRes :=
  if (d.gey.trigs.getD n {}).ent.isSome then (d.modTrig n (fun t => { t with soft := t.soft + 1 }), .ok) else (d, .done sRange 0)

/-- GEY_FIRE (R273). -/
def execGeyFire (c : Ctx) (trigger : Nat) (s : State) : Answer :=
  s.run 0 (fun _ d => d.accept c false (some 0) (geyFire trigger))

/-- STATE of a trigger: 0 unused, 1 armed, 2 hold-off, 3 waiting for fall, 4 stuck, 5 blind by freeze. -/
def Dev.trigState (d : Dev) (t : TrigSt) : Nat :=
  match t.ent with
  | none => 0
  | some e =>
    if t.stuck then 4 else if t.holdUntil.any (fun u => decide ((d.gey.tick.getD 0) < u)) then 2 else if d.frozenFor e then 5
    else if t.prev = some true then 3 else 1

def Dev.trigBlock (d : Dev) (n : Nat) : Bytes :=
  let t := d.gey.trigs.getD n {}
  leBytes 4 t.fires ++ leBytes 4 (min (2 ^ 32 - 1) t.missedTotal) ++ leBytes 8 (t.deadTotal * 15625 / 4) ++ [BitVec.ofNat 8 (d.trigState t)] ++ zeros 7

def geyTrigStats (buf : HostBuf) (d : Dev) : Dev × CmdRes :=
  if buf.len < 6144 then (d, .done sRange 0) else (d, .block ((List.range 256).flatMap d.trigBlock) (some buf.addr))

/-- GEY_TRIG_STATS (R273). -/
def execGeyTrigStats (c : Ctx) (buf : HostBuf) (s : State) : Answer :=
  s.run 0 (fun _ d => d.accept c false (some 0) (geyTrigStats buf))

/-! ## A step of G-time (R269) -/

/-- An open block closes with the samples delivered, a gap takes the rest of its interval, then its marks follow; ticks go on at the instant of
the step, and blocks resume at the next interval boundary, on the new scale; what is timed in ticks moves with the scale. `step16` is the step in
2⁻¹⁶ ns, already made. -/
def Dev.geyStep (d : Dev) (step16 : Int) : Dev :=
  let now := tickOf d.g16
  let then_ := tickOf ((d.g16 : Int) - step16).toNat
  let delta : Int := (now : Int) - (then_ : Int)
  let move (t : Nat) : Nat := ((t : Int) + delta).toNat
  let last := if d.geyIdle then then_ else d.gey.tick.getD 0
  let d0 := if d.gey.acct.any (fun a => decide (a ≤ last)) && !d.gey.blocks.any (fun b => b.on) then d.accountTo (last + 1) else d
  let d1 := d.gey.blocks.foldl (fun (x : Dev) b =>
    let len := blockLen b.fine
    let past := min len (last + 1 - b.from_)
    let done := if b.fine then (match d.acq.fineLast with | some n => min past (20 * (n + 1) - b.from_) | none => 0) else past
    let y := x.closeData { b with stepped := true } done
    let z := if b.on then
        ((if done = 0 then y.accountTo b.from_ else y).modGey (fun g => { g with
          acct := some (b.from_ + len)
          gaps := addGap g.gaps ⟨b.from_ + done, len - done, 1, b.suspect || d.timeSuspect⟩ })).writeGaps
      else y
    z.writeMarks (b.from_ + len)) d0
  let len := blockLen (d1.bit Fld.GEY_STATUS_RATE)
  d1.modGey (fun g => { g with
    tick := g.tick.map (fun _ => now), blocks := [], acct := g.acct.map (fun _ => (now / len + 1) * len), acctSuspect := false, streamFrom := now
    newLayout := g.newLayout.map (fun l => (l.1, l.2.1, move l.2.2))
    lcs := g.lcs.mapVals (fun _ s => { s with prev := none, cross := none, clearSince := s.clearSince.map move, changes := s.changes.map move })
    trigs := g.trigs.mapVals (fun _ t => { t with
      deadAt := none, since := move t.since, lastFire := t.lastFire.map move, holdUntil := t.holdUntil.map move }) })

end Sys2Proof.Machine
end

