-- ==== Sys2Proof/Machine/TimeOps.lean ====
section
/-! DEFINITION. The time unit: domains and their states, the servo, acquisition, the followed domain, time quality, UTC, the GNSS
module and the PTP ports (R389 to R412). -/

namespace Sys2Proof.Machine

open Sys2Proof

/-! ## Domains -/

def Dev.dom (d : Dev) (i : Nat) : DomSt := (d.tim.dom[i]?).getD {}

def Dev.setDom (d : Dev) (i : Nat) (x : DomSt) : Dev := d.modTim (fun t => { t with dom := modifyAt t.dom i (fun _ => x) })

def Dev.modDom (d : Dev) (i : Nat) (f : DomSt → DomSt) : Dev := d.setDom i (f (d.dom i))

def domField (i : Nat) : FieldAt := if i = 0 then Fld.TIM_STATUS_DOM0_STATE else Fld.TIM_STATUS_DOM1_STATE

/-- State of a domain (R395). -/
def Dev.domState (d : Dev) (i : Nat) : Nat := d.fld (domField i)

def Dev.setDomState (d : Dev) (i v : Nat) : Dev := d.setFld (domField i) v

/-- LOCKED or ALIGNING: the domain can steer G-time. -/
def Dev.steers (d : Dev) (i : Nat) : Bool := decide (d.domState i = 3) || decide (d.domState i = 4)

def Dev.acquired (d : Dev) : Bool := d.bit Fld.TIM_STATUS_ACQUIRED

/-- LOCK_LIM, STEP_LIM and TQ_LIM in ns. -/
def Dev.lockLim (d : Dev) : Rat := ((d.fld Fld.TIM_LIM_LOCK_LIM * 10 : Nat) : Rat)
def Dev.stepLim (d : Dev) : Rat := ((d.regN Reg.TIM_STEP_LIM * 1000 : Nat) : Rat)
def Dev.tqLim (d : Dev) : Rat := ((d.fld Fld.TIM_LIM_TQ_LIM * 10 : Nat) : Rat)

def ratAbs (x : Rat) : Rat := if x < 0 then -x else x

def ratClamp (lo hi x : Rat) : Rat := max lo (min hi x)

/-- A rational rounded down into a signed field of `n` bits, saturating. -/
def ratField (n : Nat) (x : Rat) : Nat := toTwos n (satSigned n x.floor)

/-- The median of the last three good samples; of fewer, their mean (R395). -/
def medianOf : List Rat → Rat
  | [a, b, c] => max (min a b) (min (max a b) c)
  | [a, b] => (a + b) / 2
  | a :: _ => a
  | [] => 0

def Dev.domOffset (d : Dev) (i : Nat) : Rat := medianOf (d.dom i).last3

/-! ## Time quality (R400, R406, R407) -/

/-- The domain last followed is LOCKED or ALIGNING. -/
def Dev.following (d : Dev) : Bool := d.tim.followed.any d.steers

/-- The bound B in ns; none before acquisition, when it is unbounded. -/
def Dev.bound (d : Dev) : Option Rat :=
  if !d.acquired then none
  else if d.following then some d.tim.bLast
  else some (d.tim.bLast + ((d.fld Fld.TIM_HOLDOVER_HO_RATE * (d.up - d.tim.servoAt) : Nat) : Rat) / 1000000000)

def Dev.doubtful (d : Dev) : Bool :=
  !d.acquired || d.bound.any (fun b => decide (d.tqLim < b)) || d.bit Fld.TIM_STATUS_DOM_DISAGREE

def tqCodeOf (b : Rat) : Nat := ((List.range 11).find? (fun k => decide (b ≤ ((10 ^ k : Nat) : Rat)))).elim 15 (fun k => k + 1)

/-- TIM_BOUND shows B in ns, rounded up and saturating. -/
def boundReg (b : Option Rat) : Nat := match b with | none => 2 ^ 32 - 1 | some x => min (2 ^ 32 - 1) x.ceil.toNat

/-- PPS_OUT may run (R405). -/
def Dev.ppsOutRuns (d : Dev) : Bool :=
  d.bit Fld.TIM_CTRL_EN && (decide (d.fld Fld.TIM_CTRL_PPS_OUT_MODE = 2)
    || (decide (d.fld Fld.TIM_CTRL_PPS_OUT_MODE = 1) && d.acquired && !d.timeSuspect))

/-- While it does not run PPS_OUT is low (R405). -/
def Dev.ppsOutHeld (d : Dev) : Dev := if d.tim.ppsOut && !d.ppsOutRuns then d.modTim (fun t => { t with ppsOut := false }) else d

/-- TIME_SUSPECT, TQ_CODE, TIM_BOUND, PPS_OUT and the leap flags take their present values. -/
def Dev.refreshTime (d : Dev) : Dev :=
  let doubt := d.doubtful
  let code := if doubt then (match d.bound with | none => 15 | some b => tqCodeOf b) else 0
  let d1 := (((d.setBit Fld.TIM_STATUS_TIME_SUSPECT doubt).setFld Fld.TIM_STATUS_TQ_CODE code).setRegN Reg.TIM_BOUND (boundReg d.bound)).ppsOutHeld
  match d.tim.leapEndAt with
  | some t => if t ≤ d.gSec then (d1.setBit Fld.TIM_UTC_OCCURRED false).modTim (fun x => { x with leapEndAt := none }) else d1
  | none => d1

/-- DOM_DISAGREE follows the two domains' offsets (R400). -/
def Dev.refreshDisagree (d : Dev) : Dev :=
  let diff := d.domOffset 0 - d.domOffset 1
  let now := d.steers 0 && d.steers 1 && decide (d.tqLim < ratAbs diff)
  if now = d.bit Fld.TIM_STATUS_DOM_DISAGREE then d
  else (d.setBit Fld.TIM_STATUS_DOM_DISAGREE now).event .domainDisagree (b2n now) (ratField 32 diff)

/-! ## UTC (R408) -/

/-- A new OFFSET with its record. -/
def Dev.setUtc (d : Dev) (v : Nat) : Dev :=
  let old := d.fld Fld.TIM_UTC_OFFSET
  if v = old then d else (d.setFld Fld.TIM_UTC_OFFSET v).event .utcOffset noIndex v old

/-- OFFSET as the leap changes it. -/
def leapOffset (off : Nat) (neg : Bool) : Nat := if neg then off - 1 else off + 1

/-- OFFSET and the pending leap follow the source of the followed domain, or HOST_OFFSET. A leap applies at the end of the UTC day on
which it is announced; while it waits, a source that names the offset after it already changes nothing: OFFSET changes at the leap. -/
def Dev.refreshUtc (d : Dev) : Dev :=
  let src := d.tim.followed.map d.dom
  let named := ((src.map (fun x => x.utc)).join).getD (d.fld Fld.TIM_UTC_HOST_OFFSET)
  match (src.map (fun x => x.leap)).join with
  | some neg =>
    let early := decide (d.tim.leapAt.map (fun x => x.2) = some neg) && decide (named = leapOffset (d.fld Fld.TIM_UTC_OFFSET) neg)
    let d1 := if early then d else d.setUtc named
    let off := d1.fld Fld.TIM_UTC_OFFSET
    let dayEnd := ((d.gSec - off) / 86400 + 1) * 86400
    let at_ := if neg then dayEnd + off - 1 else dayEnd + off + 1
    let same := decide (off = d.fld Fld.TIM_UTC_OFFSET) && decide (d.tim.leapAt.map (fun x => x.2) = some neg)
    ((d1.modTim (fun t => { t with leapAt := if same then t.leapAt else some (at_, neg) })).setBit Fld.TIM_UTC_PENDING true).setBit
      Fld.TIM_UTC_NEG neg
  | none =>
    let d1 := if d.tim.leapAt.isSome then
        ((d.modTim (fun t => { t with leapAt := none })).setBit Fld.TIM_UTC_PENDING false).setBit Fld.TIM_UTC_NEG false
      else d
    d1.setUtc named

/-- 00:00:00 UTC after a leap. -/
def Dev.utcLeap (d : Dev) : Dev :=
  match d.tim.leapAt with
  | none => d
  | some (at_, neg) =>
    if at_ ≤ d.gSec then
      let off := d.fld Fld.TIM_UTC_OFFSET
      let next := leapOffset off neg
      let d1 := (d.modTim (fun t => { t with
        leapAt := none, leapEndAt := some (at_ + 86400), lastLeap := some (at_, neg)
        dom := t.dom.map (fun (x : DomSt) => { x with leap := none, utc := x.utc.map (fun v => if v = off then next else v) }) })).setUtc next
      ((d1.setBit Fld.TIM_UTC_PENDING false).setBit Fld.TIM_UTC_NEG false).setBit Fld.TIM_UTC_OCCURRED true
    else d

/-! ## A step of G-time (R397, R401) -/

/-- The decisions on epochs sealed before a step of G-time are made first (R192). DESIGN CHOICE, log 143: they are made at the step, with
no disagreement of the engines. -/
def Dev.decideAll : Nat → Dev → Dev
  | 0, d => d
  | n + 1, d => if (d.nextSealed d.fum.next).isSome then Dev.decideAll n (d.decide' []) else d

/-- The rate or the accumulator is about to change. -/
def Dev.notePast (d : Dev) : Dev :=
  d.modTim (fun t => { t with clockPast := (t.up, t.acc, t.r) :: t.clockPast.filter (fun x => decide (t.up < x.1 + 10000000000)) })

/-- The accumulator at the cycle of a device time, present, past or of a frame's start a few cycles on. -/
def Dev.accAt (d : Dev) (up : Nat) : Nat :=
  match d.tim.clockPast.reverse.find? (fun x => decide (up / 4 < x.1 / 4)) with
  | some x => x.2.1 - (x.1 / 4 - up / 4) * incrOf x.2.2
  | none => if up ≤ d.up then d.tim.acc - (d.up / 4 - up / 4) * incrOf d.tim.r else d.tim.acc + (up / 4 - d.up / 4) * incrOf d.tim.r

/-- The stamp of an event captured in phase `phase` of the cycle of a device time, with `lat` ns added (R391). -/
def Dev.stampAt (d : Dev) (up phase : Nat) (lat : Int) : Nat := (((d.accAt up / 2 ^ 24 + phase * 65536 : Nat) : Int) + lat * 65536).toNat

/-- G-time steps: Crater starts a new run (R109), Geyser and the front ends follow (R269, R214). Stamps held are carried over. -/
def Dev.shiftGTime (d : Dev) (step : Rat) : Dev :=
  let s40 : Int := (step * 2 ^ 40 + 1 / 2).floor
  let s16 : Int := (step * 65536).floor
  let mv (t : Nat) : Nat := ((t : Int) + s16).toNat
  let d1 := d.notePast.modTim (fun t => { t with
    acc := ((t.acc : Int) + s40).toNat, ppsOutSec := none, oPrev := t.oPrev - step, lastPps := t.lastPps.map mv,
    dom := t.dom.map (fun (x : DomSt) => { x with last3 := x.last3.map (· - step), acq := [] }),
    ports := t.ports.map (fun (p : PtpPortSt) => { p with
      pendingSync := p.pendingSync.map (fun y => (y.1, mv y.2.1, y.2.2)), pdReq := p.pdReq.map (fun y => (y.1, mv y.2)),
      pdResp := p.pdResp.map (fun y => (y.1, mv y.2.1, y.2.2)) }) })
  ((d1.craterStep s16).geyStep s16).acqStep s16

/-- A step of G-time, after the decisions that the seals before it still await. -/
def Dev.stepGTime (d : Dev) (step : Rat) : Dev :=
  (if d.craterRuns && d.bit Fld.FUM_STATUS_RUNNING then Dev.decideAll 128 d else d).shiftGTime step

/-! ## The servo (R396) -/

def Dev.setRate (d : Dev) (fest pcorr : Rat) : Dev :=
  let r : Rat := (ratClamp (-1000000000) 1000000000 (((fest + pcorr) * 1000 + 1 / 2).floor : Rat)) / 1000
  ((if r = d.tim.r then d else d.notePast).modTim (fun t => { t with r := r, fest := fest, pcorr := pcorr })).setRegN Reg.TIM_RATE (toTwos 32 (r * 1000).floor)

/-- servo(o, dt) for a sample of domain `i`. On the first sample of a new domain fest stays (R399). -/
def Dev.servo (d : Dev) (i : Nat) (o : Rat) : Dev :=
  let tau : Rat := (d.fld Fld.TIM_CFG_SERVO_TAU : Nat)
  let dt : Rat := ((d.up - d.tim.servoAt : Nat) : Rat) / 1000000000
  let resid := (o - d.tim.oPrev) / dt + d.tim.pcorr
  let fest := if d.tim.oPrevDom = some i then d.tim.fest + ratClamp (-20 * dt) (20 * dt) (resid * dt / (4 * tau)) else d.tim.fest
  (d.setRate fest (ratClamp (-200) 200 (o / tau))).modTim (fun t => { t with oPrev := o, oPrevDom := some i, servoAt := d.up })

/-- hold(). -/
def Dev.holdRate (d : Dev) : Dev := d.setRate d.tim.fest 0

/-! ## The followed domain (R398, R399) -/

/-- The selected domain: PREF on its own or split, else the summit's selection. -/
def Dev.selectedDom (d : Dev) : Nat :=
  if d.bit Fld.CRT_STATUS_SOLO || d.bit Fld.CRT_STATUS_SPLIT || !d.joined then d.fld Fld.TIM_CFG_PREF else d.fld Fld.TIM_STATUS_SUMMIT_PREF

/-- The domain that R399 wants followed. -/
def Dev.wantedDom (d : Dev) : Option Nat :=
  let s := d.selectedDom
  if d.steers s then some s else if d.steers (1 - s) then some (1 - s) else none

/-- LOCAL_OVERRIDE, the quality and the leap follow a change of a domain's state. -/
def Dev.refreshDomains (d : Dev) : Dev :=
  (d.setBit Fld.TIM_STATUS_LOCAL_OVERRIDE (d.wantedDom.any (fun w => decide (w ≠ d.selectedDom)))).refreshDisagree.refreshTime

/-- A sample of domain `i` steers G-time where `i` is followed or is to be followed from now on. -/
def Dev.steer (d : Dev) (i : Nat) (o acc : Rat) : Dev :=
  let d1 := if d.wantedDom = some i then (d.modTim (fun t => { t with followed := some i })).setFld Fld.TIM_STATUS_FOLLOWING i else d
  if d1.tim.followed = some i ∧ d1.steers i = true then (d1.servo i o).modTim (fun t => { t with bLast := ratAbs o + acc }) else d1

/-! ## Acquisition (R397, R401) -/

/-- The least-squares line through samples (t, o), t in s: its value at the last t, its slope, and its largest residual. -/
def lineFit (l : List (Rat × Rat)) : Rat × Rat × Rat :=
  let n : Rat := (l.length : Nat)
  let sum (f : Rat × Rat → Rat) : Rat := (l.map f).sum
  let mt := sum (fun x => x.1) / n
  let mo := sum (fun x => x.2) / n
  let stt := sum (fun x => (x.1 - mt) * (x.1 - mt))
  let b := if stt = 0 then 0 else sum (fun x => (x.1 - mt) * (x.2 - mo)) / stt
  let at_ (t : Rat) : Rat := mo + b * (t - mt)
  (at_ ((l.getLast?.map (fun x => x.1)).getD 0), b, (l.map (fun x => ratAbs (x.2 - at_ x.1))).foldl max 0)

/-- G-time is acquired on domain `i` by a step. -/
def Dev.acquire (d : Dev) (i : Nat) (step : Rat) (slope : Option Rat) (o acc : Rat) : Dev :=
  let d1 := d.stepGTime step
  let d2 := (((d1.setBit Fld.TIM_STATUS_ACQUIRED true).setDomState i 3).modDom i (fun x => { x with below := 4 })).setFld Fld.TIM_STATUS_FOLLOWING i
  let d3 := d2.modTim (fun t => { t with followed := some i, oPrev := o - step, oPrevDom := some i, servoAt := d.up, bLast := ratAbs (o - step) + acc })
  ((d3.setRate (slope.getD d.tim.fest) 0).refreshUtc.refreshDomains).event .timeAcquired i (ratField 32 (step / 1000))

/-- A waiting TIM_REACQUIRE meets the good sample of the selected domain; whether G-time stepped. -/
def Dev.reacquire (d : Dev) (i : Nat) (o acc : Rat) : Dev × Bool :=
  if d.waitsFor (fun w => decide (w = .timReacquire)) && decide (d.selectedDom = i) then
    if d.bit Fld.ING_CTRL_EN || decide (d.fld Fld.CYC_STATUS_STATE = 1) then
      (d.finishWaits (fun w => decide (w = .timReacquire)) sBusy 0, false)
    else ((d.acquire i (d.domOffset i) none o acc).finishWaits (fun w => decide (w = .timReacquire)) sOk 0, true)
  else (d, false)

/-! ## Samples (R395) -/

/-- The state of a domain by the table of R395, after a good sample once G-time is acquired. A followed domain that becomes FAR is lost: the
rate is held (R396, R401). -/
def Dev.placeDom (d : Dev) (i : Nat) (o : Rat) : Dev :=
  let a := ratAbs o
  if d.stepLim < a then
    let d1 := (d.modDom i (fun x => { x with below := 0 })).setDomState i 6
    if d.tim.followed = some i ∧ d.domState i ≠ 6 then (d1.event .domainFar i (ratField 32 (o / 1000))).holdRate else d1
  else if a < d.lockLim then
    let n := (d.dom i).below + 1
    (d.modDom i (fun x => { x with below := n })).setDomState i (if 4 ≤ n then 3 else 4)
  else (d.modDom i (fun x => { x with below := 0 })).setDomState i 4

/-- A good sample with offset `o` and source inaccuracy `acc`, both in ns. -/
def Dev.goodSample (d : Dev) (i : Nat) (o : Rat) (acc : Nat) (utc : Option Nat) (leap : Option Bool) : Dev :=
  let accR : Rat := (acc : Nat)
  let d1 := ((d.modDom i (fun x => { x with
    last3 := (o :: x.last3).take 3, missRun := 0, lastAt := d.up, utc := utc, leap := leap })).count
      (Reg.TIM_DOMd_SAMPLES i)).setRegN (Reg.TIM_DOMd_ACC i) (sat (2 ^ 32 - 1) acc)
  let d2 := d1.setRegN (Reg.TIM_DOMd_OFFSET i) (ratField 32 (d1.domOffset i))
  if !d.acquired then
    let l := (((d.dom i).acq ++ [(((d.g16 : Nat) : Rat) / 65536000000000, o)]).reverse.take 8).reverse
    let d3 := (d2.modDom i (fun x => { x with acq := l })).setDomState i 2
    let fit := lineFit l
    if l.length = 8 ∧ fit.2.2 ≤ d.lockLim then d3.acquire i fit.1 (some fit.2.1) o accR
    else (d3.reacquire i o accR).1
  else
    let r := (d2.placeDom i o).reacquire i o accR
    if r.2 then r.1 else ((r.1.steer i o accR).refreshUtc).refreshDomains

/-- A missing sample; a domain in LISTENING counts none. `at_` is the device time at which it counts as taken. -/
def Dev.missingSample (d : Dev) (i at_ : Nat) : Dev :=
  let st := d.domState i
  if st < 2 then d
  else
    let x := d.dom i
    let d1 := (d.setDom i { x with missRun := x.missRun + 1, below := 0, acq := [], lastAt := at_ }).count (Reg.TIM_DOMd_MISS i)
    let lost := d.steers i && decide (d.fld Fld.TIM_CFG_LOSS_N ≤ x.missRun + 1)
    let d2 := if lost then (d1.setDomState i 5).event .domainHoldover i else d1
    (if d.tim.followed = some i then d2.holdRate else d2).refreshDomains

/-! ## Enabling (R394, R395, R413) -/

def Dev.domRuns (d : Dev) (i : Nat) : Bool := d.bit Fld.TIM_CTRL_EN && d.fbit Fld.TIM_CTRL_DOM_EN i

def Dev.domSrc (d : Dev) (i : Nat) : Nat := if d.domRuns i then d.fld (Fld.TIM_DOMd_CFG_SRC i) else 0

/-! ## PTP ports (R393, R394) -/

def Dev.ptp (d : Dev) (p : Nat) : PtpPortSt := (d.tim.ports[p]?).getD {}

def Dev.modPtp (d : Dev) (p : Nat) (f : PtpPortSt → PtpPortSt) : Dev := d.modTim (fun t => { t with ports := modifyAt t.ports p f })

def Dev.ptpOn (d : Dev) (p : Nat) : Bool := d.bit Fld.TIM_CTRL_EN && d.bit (Fld.TIM_Pp_PTP_EN p)

def Dev.ptpDom (d : Dev) (p : Nat) : Nat := d.fld (Fld.TIM_Pp_PTP_DOM p)

def Dev.portState (d : Dev) (p : Nat) : Nat := d.fld (Fld.TIM_Pp_STATE_PORT_STATE p)

/-- A master qualifies with two Announces within the last four intervals (IEEE 1588-2019), and while its last one is not older than the
announceReceiptTimeout. -/
def Foreign.qualified (f : Foreign) (now : Nat) : Bool :=
  f.prevAt.any (fun t => decide (now ≤ t + 4000000000)) && decide (now ≤ f.lastAt + 3000000000)

/-- The attributes of a grandmaster in the order of comparison. -/
def annRank (a : AnnounceData) : List Nat := [a.priority1, a.clockClass, a.clockAccuracy, a.variance, a.priority2, a.gmIdentity]

/-- Of two data sets, the first is better (IEEE 1588-2019, data set comparison). `n` and `m` are the ports that received them. -/
def betterAnn (a : AnnounceData) (n : Nat) (b : AnnounceData) (m : Nat) : Bool :=
  if a.gmIdentity = b.gmIdentity then decide ([a.stepsRemoved, a.srcId, a.srcPort, n] < [b.stepsRemoved, b.srcId, b.srcPort, m])
  else decide (annRank a < annRank b)

/-- The best qualified master heard on a port. -/
def Dev.bestOn (d : Dev) (p : Nat) : Option Foreign :=
  ((d.ptp p).foreign.filter (fun f => f.qualified d.up)).foldl (fun m f =>
    match m with | none => some f | some x => if betterAnn f.ann p x.ann p then some f else some x) none

/-- Ports that serve a domain and may be slaves of it. -/
def Dev.slavePorts (d : Dev) (i : Nat) : List Nat :=
  (List.range 4).filter (fun p => d.ptpOn p && decide (d.ptpDom p = i) && decide (d.fld (Fld.TIM_Pp_PTP_ROLE p) ≠ 2))

/-- The best master of a domain, with its port. -/
def Dev.ebest (d : Dev) (i : Nat) : Option (Nat × Foreign) :=
  (d.slavePorts i).foldl (fun m p =>
    match d.bestOn p, m with
    | none, m => m
    | some f, none => some (p, f)
    | some f, some x => if betterAnn f.ann p x.2.ann x.1 then some (p, f) else some x) none

/-- The data set of this clock as a port would announce it without a parent. Accuracy and variance are "unknown". -/
def Dev.ownAnn (d : Dev) (p cls : Nat) : AnnounceData :=
  { priority1 := d.fld (Fld.TIM_Pp_PTP_PRIORITY1 p), clockClass := cls, clockAccuracy := 0xFE, variance := 0xFFFF
    priority2 := d.fld (Fld.TIM_Pp_PTP_PRIORITY2 p), gmIdentity := Config.clockIdentity, stepsRemoved := 0, srcId := Config.clockIdentity, srcPort := p + 1 }

/-- The state that the BMCA and ROLE give a port: 1 INITIALIZING, 4 LISTENING, 6 MASTER, 7 PASSIVE, 9 SLAVE. -/
def Dev.portStateFor (d : Dev) (p : Nat) : Nat :=
  if !d.ptpOn p then 1
  else
    let i := d.ptpDom p
    let role := d.fld (Fld.TIM_Pp_PTP_ROLE p)
    if d.domSrc i = 2 then 6
    else if d.domSrc i ≠ 1 then 4
    else if role = 2 then 6
    else
      let own := d.ownAnn p 248
      match d.ebest i with
      | none => if role = 3 ∨ (d.portState p ≠ 6 ∧ d.up < (d.ptp p).lastAnnounceAt + 3000000000) then 4 else 6
      | some e =>
        if role = 3 then (if e.1 = p then 9 else 4)
        else if betterAnn own 0 e.2.ann e.1 then 6
        else if e.1 = p then 9
        else match d.bestOn p with
          | some f => if f.ann.gmIdentity = e.2.ann.gmIdentity then 7 else 6
          | none => 6

/-- The BMCA runs on every port; a domain's grandmaster shows in TIM_DOMd_GM. -/
def Dev.runBmca (d : Dev) : Dev :=
  let d1 := (List.range 4).foldl (fun (x : Dev) p =>
    let now := d.portStateFor p
    let x1 := x.setFld (Fld.TIM_Pp_STATE_PORT_STATE p) now
    if now = d.portState p then x1 else x1.modPtp p (fun s => { s with pendingSync := none })) d
  (List.range 2).foldl (fun (x : Dev) i =>
    match d.ebest i with
    | some e => if d.domSrc i = 1 ∧ x.portState e.1 = 9 then x.setReg64 (Reg.TIM_DOMd_GM_LO i) e.2.ann.gmIdentity else x
    | none => x) d1

/-- Domains and ports follow TIM_CTRL, TIM_DOMd_CFG and TIM_Pp_PTP after a write. `was` is the device before it. -/
def Dev.timConfigured (was d : Dev) : Dev :=
  let d1 := (List.range 2).foldl (fun (x : Dev) i =>
    if d.domRuns i = was.domRuns i ∧ d.fld (Fld.TIM_DOMd_CFG_SRC i) = was.fld (Fld.TIM_DOMd_CFG_SRC i) then x
    else
      let x1 := (x.setDom i { lastAt := d.up }).setDomState i (b2n (d.domRuns i))
      if d.tim.followed = some i ∧ was.steers i = true then x1.holdRate else x1) d
  let d2 := (List.range 4).foldl (fun (x : Dev) p =>
    if d.ptpOn p = was.ptpOn p then x
    else x.modPtp p (fun s => { s with foreign := [], lastAnnounceAt := d.up, pendingSync := none, pdReq := none, pdResp := none, linkDelay := none, nextTxAt := d.up })) d1
  d2.runBmca.refreshUtc.refreshDomains

/-- TIM_CTRL is written. -/
def writeTimCtrl (v : Word) (d : Dev) : Dev := Dev.timConfigured d (d.writePlain Reg.TIM_CTRL v)

/-- Another register of the time unit is written. -/
def writeTimOther (off : Nat) (v : Word) (d : Dev) : Dev := Dev.timConfigured d (d.writePlain off v)

/-! ## Messages sent -/

/-- The group address of a message (R393). -/
def ptpDst : PtpKind → Nat
  | .pdelayReq | .pdelayResp | .pdelayRespFollowUp => 0x0180C200000E
  | .sync | .delayReq | .followUp | .announce | .other => 0x011B19000000

/-- A PTP message goes to Q7 of a port whose link is up. -/
def Dev.ptpQueue (d : Dev) (p : Nat) (bytes : Nat) (m : PtpMsg) : Dev :=
  if d.bit (Fld.NET_Pp_STATUS_LINK p) then d.queueFrame p 7 { size := max 64 (18 + bytes), body := .ptp (ptpDst m.kind) m } else d

/-- The time of a port's domain for a G-time stamp: G-time plus the domain's filtered offset (R394). -/
def Dev.domainTime (d : Dev) (i t16 : Nat) : Nat := ((t16 : Int) + (d.domOffset i * 65536).floor).toNat

/-- clockClass of a GNSS domain (R394). -/
def Dev.gnssClass (d : Dev) (i : Nat) : Nat :=
  if d.domState i = 3 then 6 else if d.domState i = 5 ∧ d.timeSuspect = false then 7 else 248

/-- The Announce of a master port: its own clock, or that of the parent one step on. -/
def Dev.announceOf (d : Dev) (p : Nat) : PtpMsg :=
  let i := d.ptpDom p
  let parent := if d.domSrc i = 1 then (d.ebest i).filter (fun e => decide (d.portState e.1 = 9)) else none
  let cls := if d.domSrc i = 2 then d.gnssClass i else 248
  let a : AnnounceData := match parent with
    | some e => { e.2.ann with stepsRemoved := e.2.ann.stepsRemoved + 1, srcId := Config.clockIdentity, srcPort := p + 1 }
    | none => d.ownAnn p cls
  let leap := (d.dom i).leap
  { kind := .announce, domain := d.fld (Fld.TIM_DOMd_CFG_PTP_DOMAIN i), seqId := (d.ptp p).txSeq, srcId := Config.clockIdentity, srcPort := p + 1
    ann := some a, utcOffset := (d.dom i).utc, leap61 := leap = some false, leap59 := leap = some true, timeTraceable := decide (a.clockClass < 8)
    c37Acc := if d.bit (Fld.TIM_Pp_PTP_PROFILE p) then some (d.regN (Reg.TIM_DOMd_ACC i) + 50) else none }

/-- A port's 1 s interval (R393): Pdelay_Req from every port whose domain has a source, Announce and Sync from a master port. -/
def Dev.ptpTimer (d : Dev) (p : Nat) : Dev :=
  let i := d.ptpDom p
  if !(d.ptpOn p && decide (p < 4) && decide (d.domSrc i ≠ 0) && decide ((d.ptp p).nextTxAt ≤ d.up)) then d
  else
    let seq := (d.ptp p).txSeq
    let dn := d.fld (Fld.TIM_DOMd_CFG_PTP_DOMAIN i)
    let base : PtpMsg := { kind := .pdelayReq, domain := dn, seqId := seq, srcId := Config.clockIdentity, srcPort := p + 1 }
    let d1 := if d.portState p = 6 then
        (d.ptpQueue p (if d.bit (Fld.TIM_Pp_PTP_PROFILE p) then 86 else 64) (d.announceOf p)).ptpQueue p 44
          { base with kind := .sync, twoStep := !d.bit (Fld.TIM_Pp_PTP_ONE_STEP p) }
      else d
    (d1.ptpQueue p 54 base).modPtp p (fun s => { s with txSeq := (seq + 1) % 65536, nextTxAt := max (s.nextTxAt + 1000000000) d.up })

/-! ## Time-stamp queues (R410, R411) -/

/-- MSG_TYPE of an event message. -/
def ptpEventType : PtpKind → Option Nat
  | .sync => some 0
  | .delayReq => some 1
  | .pdelayReq => some 2
  | .pdelayResp => some 3
  | _ => none

/-- An entry joins the receive or the transmit queue of a port; a full queue overwrites its oldest. -/
def Dev.pushTs (d : Dev) (p : Nat) (tx : Bool) (m : PtpMsg) (stamp : Nat) (oneStep preempted : Bool) : Dev :=
  match ptpEventType m.kind with
  | none => d
  | some ty =>
    let s := d.ptp p
    let e (n : Nat) : TsEntry :=
      { stamp := stamp, seqId := m.seqId, msgType := ty, oneStep := oneStep, preempted := preempted, domain := m.domain, srcPort := m.srcPort, entrySeq := n }
    if tx then
      (d.modPtp p (fun x => { x with txQ := (x.txQ ++ [e s.txCount]).drop (s.txQ.length - 63), txCount := (s.txCount + 1) % 2 ^ 32 })).count
        (Reg.TIM_Pp_TSQ_LOST_TX p) (b2n (decide (s.txQ.length = 64)))
    else
      (d.modPtp p (fun x => { x with rxQ := (x.rxQ ++ [e s.rxCount]).drop (s.rxQ.length - 63), rxCount := (s.rxCount + 1) % 2 ^ 32 })).count
        (Reg.TIM_Pp_TSQ_LOST_RX p) (b2n (decide (s.rxQ.length = 64)))

def TsEntry.bytes (e : TsEntry) : Bytes :=
  gtimeBytes e.stamp ++ leBytes 2 e.seqId ++ [BitVec.ofNat 8 (e.msgType + 16 * b2n e.oneStep + 32 * b2n e.preempted), BitVec.ofNat 8 e.domain] ++
  leBytes 2 e.srcPort ++ zeros 2 ++ leBytes 4 e.entrySeq

/-- The fraction of a stamp below 1 ns, which travels in correctionField. -/
def nsFrac (t : Nat) : Int := ((t % 65536 : Nat) : Int)

/-- A PTP message leaves a port with a transmit stamp: its queue entry, the message as sent, and what follows it. -/
def Dev.ptpSent (d : Dev) (p : Nat) (m : PtpMsg) (t16 : Nat) : Dev × PtpMsg :=
  match m.kind with
  | .sync =>
    let t := d.domainTime (d.ptpDom p) t16
    let d1 := d.pushTs p true m t16 (!m.twoStep) false
    if m.twoStep then (d1.ptpQueue p 44 { m with kind := .followUp, twoStep := false, stamp := t / 65536 * 65536, correction := nsFrac t }, m)
    else (d1, { m with stamp := t / 65536 * 65536, correction := nsFrac t })
  | .pdelayReq => ((d.pushTs p true m t16 false false).modPtp p (fun s => { s with pdReq := some (m.seqId, t16), pdResp := none }), m)
  | .pdelayResp =>
    let d1 := d.pushTs p true m t16 (!m.twoStep) false
    if m.twoStep then
      (d1.ptpQueue p 54 { m with kind := .pdelayRespFollowUp, twoStep := false, stamp := t16 / 65536 * 65536, correction := nsFrac t16 },
        { m with stamp := m.stamp / 65536 * 65536, correction := m.correction - nsFrac m.stamp })
    else (d1, { m with stamp := 0, correction := m.correction + ((t16 : Int) - (m.stamp : Int)) })
  | _ => (d, m)

/-- A preempted PTP event frame keeps its stamp; its entry says so (R363). -/
def Dev.ptpPreempted (d : Dev) (p : Nat) (m : PtpMsg) : Dev :=
  d.modPtp p (fun s => { s with txQ := s.txQ.map (fun e => if e.seqId = m.seqId ∧ some e.msgType = ptpEventType m.kind then { e with preempted := true } else e) })

/-! ## Messages received -/

/-- A Sync pair of the parent gives a sample: its domain time less G-time (R392). Without a peer delay it is a missing one. -/
def Dev.syncSample (d : Dev) (p : Nat) (f : Foreign) (t1 : Nat) (corr : Int) (rx : Nat) : Dev :=
  let i := d.ptpDom p
  match (d.ptp p).linkDelay with
  | none => d.missingSample i d.up
  | some dl =>
    let o : Rat := (((t1 : Int) + corr + dl - (rx : Int) : Int) : Rat) / 65536
    d.goodSample i o f.acc f.utc (if f.leap61 then some false else if f.leap59 then some true else none)

/-- The parent of a slave port. -/
def Dev.parentOf (d : Dev) (p : Nat) : Option Foreign :=
  if d.portState p = 9 then ((d.ebest (d.ptpDom p)).filter (fun e => decide (e.1 = p))).map (fun e => e.2) else none

def fromParent (f : Foreign) (m : PtpMsg) : Bool := decide (f.ann.srcId = m.srcId) && decide (f.ann.srcPort = m.srcPort)

/-- A Sync of the parent. One that still waits for its Follow_Up is a missing sample. -/
def Dev.ptpSync (d : Dev) (p : Nat) (m : PtpMsg) (rx : Nat) : Dev :=
  match d.parentOf p with
  | none => d
  | some f =>
    if !fromParent f m then d
    else
      let d1 := if (d.ptp p).pendingSync.isSome then (d.modPtp p (fun s => { s with pendingSync := none })).missingSample (d.ptpDom p) d.up else d
      if m.twoStep then d1.modPtp p (fun s => { s with pendingSync := some (m.seqId, rx, m.correction) })
      else d1.syncSample p f m.stamp m.correction rx

/-- The queue still holds the entry of an event message (R411). -/
def tsHeld (q : List TsEntry) (ty seq dom : Nat) : Bool := q.any (fun e => decide (e.msgType = ty) && decide (e.seqId = seq) && decide (e.domain = dom))

/-- The Follow_Up of a pending Sync. Where the entry of the Sync has been overwritten the sample is a missing one (R411). -/
def Dev.ptpFollowUp (d : Dev) (p : Nat) (m : PtpMsg) : Dev :=
  match d.parentOf p, (d.ptp p).pendingSync with
  | some f, some (seq, rx, corr) =>
    if fromParent f m && decide (seq = m.seqId) then
      let d1 := d.modPtp p (fun s => { s with pendingSync := none })
      if tsHeld (d.ptp p).rxQ 0 seq m.domain then d1.syncSample p f m.stamp (m.correction + corr) rx else d1.missingSample (d.ptpDom p) d.up
    else d
  | _, _ => d

/-- An Announce is kept, and the BMCA runs. -/
def Dev.ptpAnnounce (d : Dev) (p : Nat) (m : PtpMsg) : Dev :=
  match m.ann with
  | none => d
  | some a =>
    if a.srcId = Config.clockIdentity ∨ 255 ≤ a.stepsRemoved then d
    else
      let old := (d.ptp p).foreign.find? (fun f => decide (f.ann.srcId = a.srcId) && decide (f.ann.srcPort = a.srcPort))
      let f : Foreign :=
        { ann := a, acc := if d.bit (Fld.TIM_Pp_PTP_PROFILE p) then m.c37Acc.getD 0 else 0, utc := m.utcOffset, leap61 := m.leap61, leap59 := m.leap59
          lastAt := d.up, prevAt := old.map (fun o => o.lastAt) }
      (d.modPtp p (fun s => { s with
        foreign := (s.foreign.filter (fun x => !(decide (x.ann.srcId = a.srcId) && decide (x.ann.srcPort = a.srcPort)))) ++ [f], lastAnnounceAt := d.up })).runBmca

/-- Every enabled port answers Pdelay_Req. -/
def Dev.ptpPdelayReq (d : Dev) (p : Nat) (m : PtpMsg) (rx : Nat) : Dev :=
  d.ptpQueue p 54 { kind := .pdelayResp, domain := m.domain, seqId := m.seqId, srcId := Config.clockIdentity, srcPort := p + 1, correction := m.correction
                    stamp := rx, twoStep := !d.bit (Fld.TIM_Pp_PTP_ONE_STEP p), req := (m.srcId, m.srcPort) }

/-- The peer delay exchange of request `m.seqId` ends: ((t4 − t1) − (t3 − t2) − corrections) / 2. Where an entry of it has been overwritten
it gives none, and the last delay stands (R411). -/
def Dev.setLinkDelay (d : Dev) (p : Nat) (m : PtpMsg) (twice : Int) : Dev :=
  let v := twice / 2
  let d1 := d.modPtp p (fun s => { s with pdReq := none, pdResp := none })
  if tsHeld (d.ptp p).txQ 2 m.seqId (d.fld (Fld.TIM_DOMd_CFG_PTP_DOMAIN (d.ptpDom p))) && tsHeld (d.ptp p).rxQ 3 m.seqId m.domain then
    (d1.modPtp p (fun s => { s with linkDelay := some v })).setRegN (Reg.TIM_Pp_PDELAY p) (toTwos 32 (v / 65536))
  else d1

def Dev.ptpPdelayResp (d : Dev) (p : Nat) (m : PtpMsg) (rx : Nat) : Dev :=
  match (d.ptp p).pdReq with
  | none => d
  | some (seq, t1) =>
    if seq = m.seqId ∧ m.req = (Config.clockIdentity, p + 1) then
      if m.twoStep then d.modPtp p (fun s => { s with pdResp := some (m.stamp, rx, m.correction) })
      else d.setLinkDelay p m ((rx : Int) - (t1 : Int) - m.correction)
    else d

def Dev.ptpPdelayFollowUp (d : Dev) (p : Nat) (m : PtpMsg) : Dev :=
  match (d.ptp p).pdReq, (d.ptp p).pdResp with
  | some (seq, t1), some (t2, t4, corr) =>
    if seq = m.seqId ∧ m.req = (Config.clockIdentity, p + 1) then
      d.setLinkDelay p m (((t4 : Int) - (t1 : Int)) - ((m.stamp : Int) - (t2 : Int)) - corr - m.correction)
    else d
  | _, _ => d

/-- A PTP message that a port received with a stamp (R393); `dst` is its destination over Ethernet, none for PTP over UDP. Every event
message joins the receive queue (R410), a message that is not supported too. -/
def Dev.ptpRx (d : Dev) (p : Nat) (m : PtpMsg) (rx : Nat) (dst : Option Nat) (preempted : Bool) : Dev :=
  let d1 := d.pushTs p false m rx false preempted
  if !d.ptpOn p then d
  else if dst ≠ some (ptpDst m.kind) ∨ m.kind = .other ∨ m.kind = .delayReq then d1.count (Reg.TIM_Pp_UNSUPP p)
  else
    let mine := decide (m.domain = d.fld (Fld.TIM_DOMd_CFG_PTP_DOMAIN (d.ptpDom p))) && decide (d.domSrc (d.ptpDom p) = 1)
    match m.kind with
    | .pdelayReq => d1.ptpPdelayReq p m rx
    | .pdelayResp => d1.ptpPdelayResp p m rx
    | .pdelayRespFollowUp => d1.ptpPdelayFollowUp p m
    | .sync => if mine then d1.ptpSync p m rx else d1
    | .followUp => if mine then d1.ptpFollowUp p m else d1
    | .announce => if mine then d1.ptpAnnounce p m else d1
    | .other | .delayReq => d1

/-! ## The GNSS timing module (R402 to R404) -/

/-- Domains whose source is the GNSS module, the selected one first: of two that qualify at the same sample it acquires (R397). -/
def Dev.gnssDoms (d : Dev) : List Nat := [d.selectedDom, 1 - d.selectedDom].filter (fun i => decide (d.domSrc i = 2))

/-- A PPS edge that no TOD message paired with within 900 ms is a missing sample, unless one has been counted since the edge. -/
def Dev.ppsExpire (d : Dev) : Dev :=
  if !d.tim.ppsUsed && decide (d.tim.lastPpsAt + 900000000 < d.up) then
    (d.gnssDoms.filter (fun i => decide ((d.dom i).lastAt < d.tim.lastPpsAt))).foldl (fun (x : Dev) i =>
      x.missingSample i (d.tim.lastPpsAt + 900000000)) (d.modTim (fun t => { t with ppsUsed := true, ppsLate := true }))
  else d

def Dev.ppsEdge (d0 : Dev) (phase : Nat) : Dev :=
  if !d0.bit Fld.TIM_CTRL_EN then d0
  else
    let d := d0.ppsExpire
    (d.modTim (fun t => { t with
      lastPps := some (d.g16 + phase * 65536 - d.fld Fld.TIM_PPS_PPS_DELAY * 65536), lastPpsAt := d.up, ppsUsed := false, ppsLate := false })).setBit Fld.TIM_GNSS_STAT_PPS_SEEN true

/-- A TOD message of 17 bytes, at its end (R402, R403). One that comes too late for its edge, which has counted as a missing sample by then,
counts none of its own. -/
def Dev.todMessage (d0 : Dev) (b : Bytes) : Dev :=
  if !d0.bit Fld.TIM_CTRL_EN then d0
  else
    let d := d0.ppsExpire
    let f (off n : Nat) : Nat := beNat (slice b off n)
    let crcOk := decide (b.length = 17) && decide (f 0 2 = 0x5444) && decide (f 2 1 = 1) && decide (crc16 (b.take 15) = f 15 2)
    let bad (x : Dev) : Dev := x.count Reg.TIM_TOD_ERR
    if !crcOk then bad d
    else
      let d1 := d.setFld ⟨Reg.TIM_GNSS_STAT, 0, 3⟩ (f 3 1 % 8)
      let sec := f 4 6
      let since := d.up - d.tim.lastPpsAt
      match d.tim.lastPps with
      | some stamp =>
        if d.tim.ppsLate then bad (d1.modTim (fun t => { t with ppsLate := false }))
        else if d.tim.ppsUsed then d.gnssDoms.foldl (fun (x : Dev) i => x.missingSample i d.up) (bad d1)
        else if since < 100000000 ∨ 900000000 < since then bad d1
        else if d.tim.prevTodSec.any (fun s => decide (s + 1 ≠ sec)) then bad (d1.modTim (fun t => { t with prevTodSec := some sec }))
        else
          let d2 := d1.modTim (fun t => { t with prevTodSec := some sec, ppsUsed := true })
          let o (x : Dev) : Rat := (sec * 1000000000 : Nat) - ((x.tim.lastPps.getD stamp : Nat) : Rat) / 65536
          let leap := if (f 3 1).testBit 3 then some ((f 3 1).testBit 4) else none
          d.gnssDoms.foldl (fun (x : Dev) i =>
            if f 3 1 % 8 = 7 then x.goodSample i (o x) (f 11 4) (some (f 10 1)) leap else x.missingSample i d.up) d2
      | none => d.gnssDoms.foldl (fun (x : Dev) i => x.missingSample i d.up) (bad d1)

/-- The Syncs of a domain that still wait for their Follow_Up are given up: the sample is counted as missing. -/
def Dev.dropPending (d : Dev) (i : Nat) : Dev :=
  (List.range 4).foldl (fun (x : Dev) p => if x.ptpDom p = i then x.modPtp p (fun s => { s with pendingSync := none }) else x) d

/-- An expected sample has not arrived (R395): 1.5 s after the previous one, and at each further second. -/
def Dev.sampleTimer (d0 : Dev) (i : Nat) : Dev :=
  let d := d0.ppsExpire
  if decide (i < 2) && decide (2 ≤ d.domState i) && decide ((d.dom i).lastAt + 1500000000 ≤ d.up) then (d.dropPending i).missingSample i ((d.dom i).lastAt + 1000000000)
  else d

/-! ## Reports and the selection (R398) -/

/-- The domains are compared: 10 comparisons in a row in which the other domain leads change the selection. -/
def Dev.compareDoms (d : Dev) : Dev :=
  let sel := d.fld Fld.TIM_STATUS_SUMMIT_PREF
  let locked (i : Nat) : Nat := (d.tim.reports.filter (fun (x : Nat × (Nat × Nat)) =>
    d.view.members.testBit x.1 && decide ((if i = 0 then x.2.1 else x.2.2) = 3))).length
  let run := if locked sel < locked (1 - sel) then d.tim.leadRun + 1 else 0
  let d1 := d.modTim (fun t => { t with reported := 0, leadRun := if 10 ≤ run then 0 else run })
  if 10 ≤ run then ((d1.setFld Fld.TIM_STATUS_SUMMIT_PREF (1 - sel)).sendAll d1.others (.timeSel (1 - sel))).refreshDomains else d1

/-- A report that comes ahead of the view which makes this device the summit is held for its election (R441). -/
def Dev.earlyReport (d : Dev) (src a b : Nat) : Dev :=
  (d.modTim (fun t => { t with reports := t.reports.put src (a, b) })).modFab (fun f => { f with earlyTimes := putBit f.earlyTimes src true })

/-- The summit takes a report; when every member has reported the domains are compared. -/
def Dev.takeReport (d : Dev) (src a b : Nat) : Dev :=
  let m := putBit d.tim.reported src true
  let d1 := { d.modTim (fun t => { t with reports := t.reports.put src (a, b), reported := m }) with
    fab := { d.fab with electTimes := putBit d.fab.electTimes src true } }
  if m &&& d.view.members = d.view.members then d1.compareDoms else d1

end Sys2Proof.Machine
end

