-- ==== Sys2Proof/Machine/NetTx.lean ====
section
/-! DEFINITION. The transmitter of an Ethernet port: lines, preemption, PAUSE and PFC, MACsec on transmit (R355, R361 to R370). -/

namespace Sys2Proof.Machine

open Sys2Proof

/-- Line time of one byte in ps, by MODE (R355). -/
def Dev.bytePs (d : Dev) (p : Nat) : Nat :=
  if d.fld (Fld.NET_Pp_CFG_MODE p) = 0 then 320 else if d.fld (Fld.NET_Pp_CFG_MODE p) = 1 then 800 else 8000

def Dev.ps (d : Dev) : Nat := d.up * 1000

/-! ## Pauses (R365, R366) -/

/-- The device time in ps at which the last running pause time ends. -/
def PortSt.pauseEnd (s : PortSt) : Nat := s.pfcUntil.foldl max s.pauseUntil

/-- TX_PAUSED_US counts the whole microseconds of pause time that have run; the status shows what runs. -/
def Dev.settlePause (d : Dev) (p : Nat) : Dev :=
  let s := d.port p
  let us := (min d.ps s.pauseEnd - s.pausedFrom) / 1000000
  let d1 := (d.modPort p (fun x => { x with pausedFrom := x.pausedFrom + us * 1000000 })).count (Reg.NET_Pp_TX_PAUSED_US p) us
  (d1.setBit (Fld.NET_Pp_STATUS_PAUSED p) (decide (d.ps < s.pauseUntil))).setFld (Fld.NET_Pp_STATUS_PFC_PAUSED p)
    (maskOf ((List.range 8).filter (fun q => decide (d.ps < (s.pfcUntil[q]?).getD 0))))

/-- A pause time starts, is replaced or ends. -/
def Dev.setPause (d0 : Dev) (p : Nat) (f : PortSt → PortSt) : Dev :=
  let d := d0.settlePause p
  let running := decide (d.ps < (d.port p).pauseEnd)
  (d.modPort p (fun s => let s1 := f s; if running then s1 else { s1 with pausedFrom := d.ps })).settlePause p

/-- A quantum is 512 bit times. -/
def Dev.pauseTime (d : Dev) (p quanta : Nat) : Nat := quanta * 64 * d.bytePs p

/-- A received PAUSE frame; every one is counted, and one that FC_MODE does not select is ignored. -/
def Dev.rxPause (d : Dev) (p quanta : Nat) : Dev :=
  let d1 := d.count (Reg.NET_Pp_RX_PAUSE p)
  if d.fld (Fld.NET_Pp_CFG_FC_MODE p) = 1 then d1.setPause p (fun s => { s with pauseUntil := d.ps + d.pauseTime p quanta }) else d1

/-- A received PFC frame: the priorities it names and their quanta. -/
def Dev.rxPfc (d : Dev) (p enable : Nat) (quanta : List Nat) : Dev :=
  let d1 := d.count (Reg.NET_Pp_RX_PAUSE p)
  if d.fld (Fld.NET_Pp_CFG_FC_MODE p) = 2 then
    d1.setPause p (fun s => { s with pfcUntil := (List.range 8).map (fun q =>
      if enable.testBit q then d.ps + d.pauseTime p ((quanta[q]?).getD 0) else (s.pfcUntil[q]?).getD 0) })
  else d1

/-- Preemptable queue `q` is stopped; the express queue is number 8. -/
def Dev.pausedQ (d : Dev) (p q : Nat) : Bool :=
  let s := d.port p
  let paused := decide (d.ps < s.pauseUntil)
  if q = 8 then paused && d.bit Fld.NET_CFG_EXPRESS_PAUSE_OBEY else paused || decide (d.ps < (s.pfcUntil[q]?).getD 0)

/-! ## MACsec on transmit (R368 to R370) -/

def worldMacsecOk (k : KeySt) (slot : Nat) : Except Nat KeyVal :=
  match k.use slot with
  | .error st => .error st
  | .ok s => if s.world = worldMacsec then (match s.cur with | some v => .ok v | none => .error sAuthFail) else .error sAuthFail

/-- The next association after the one in use that is installed with packet numbers left below `limit`. -/
def SecChan.nextAn (c : SecChan) (limit : Nat) : Option Nat :=
  ([1, 2, 3].map (fun i => (c.an + i) % 4)).find? (fun a => (c.assocs.find a).any (fun x => decide (x.pn < limit)))

/-- The association that the next frame uses (R370). DEDUCED, log 173: the next one installed is one whose own packet number has not
reached the limit, and a channel that has passed 0xC0000000 for want of one still takes such a one at the end. -/
def SecChan.forNext (c : SecChan) : SecChan :=
  let past (limit : Nat) : Bool := !c.xpn && ((c.assocs.find c.an).any (fun x => decide (limit ≤ x.pn)))
  let low := if past 0xC0000000 then c.nextAn 0xC0000000 else none
  match low <|> (if past 0xFFFFFFFF then c.nextAn 0xFFFFFFFF else none) with
  | some a => { c with an := a }
  | none => c

/-- The nonce of a frame: SCI and packet number; with XPN the salt combined with SSCI and packet number. -/
def macsecNonce (sc : SecChan) (v : KeyVal) (pn : Nat) : Bytes :=
  if sc.xpn then List.zipWith (fun a b => a ^^^ b) v.salt (beBytes 4 v.ssci ++ beBytes 8 pn) else beBytes 8 sc.sci ++ beBytes 4 pn

/-- A frame under GCM: the addresses and the SecTAG are authenticated, and the rest is enciphered or, without confidentiality,
authenticated in the clear (IEEE 802.1AE with confidentiality offset 0). -/
def SecChan.protect (sc : SecChan) (v : KeyVal) (pn : Nat) (frame : Bytes) : SecTag :=
  let user := frame.drop 12
  let short := if user.length < 48 then user.length else 0
  let tag := beBytes 2 0x88E5 ++ beBytes 1 (0x20 + 12 * b2n sc.conf + sc.an) ++ beBytes 1 short ++ beBytes 4 (pn % 2 ^ 32) ++ beBytes 8 sc.sci
  let nonce := macsecNonce sc v pn
  let aad := frame.take 12 ++ tag
  let data := if sc.conf then gcmCrypt v.bytes nonce user else user
  { sci := sc.sci, an := sc.an, pn := pn, conf := sc.conf, data := data
    icv := if sc.conf then gcmTag v.bytes nonce aad data else gcmTag v.bytes nonce (aad ++ data) [] }

/-- MACsec is enabled on a port: a channel of either direction is set. -/
def PortSt.macsecOn (s : PortSt) : Bool := s.txSc.isSome || !s.rxSc.isEmpty

/-- The frame needs protection (R369). -/
def Dev.protects (d : Dev) (p : Nat) (f : TxFrame) : Bool :=
  (d.port p).macsecOn && !(d.bit (Fld.NET_Pp_CFG_PTP_BYPASS p) && (match f.body with | .ptp _ _ => true | _ => false))

/-- The transmit direction stops; its event is sent once. -/
def Dev.stopTx (d : Dev) (p : Nat) (orphan : Option Nat) : Dev :=
  let d1 := d.modPort p (fun s => { s with txStopped := true })
  match orphan with
  | some slot => (d1.setBit (Fld.NET_Pp_STATUS_KEY_ORPHANED p) true).event .macsecKeyOrphaned p slot 0 sKeyOrphaned
  | none => (d1.setBit (Fld.NET_Pp_STATUS_PN_EXHAUSTED p) true).event .pnExhausted p

/-- The protection of the next frame, or none where it is to be discarded. -/
def Dev.takePn (k : KeySt) (d : Dev) (p : Nat) (frame : Bytes) : Dev × Option SecTag :=
  match (d.port p).txSc.map SecChan.forNext with
  | none => (d, none)
  | some sc =>
    match sc.assocs.find sc.an with
    | none => (d, none)
    | some a =>
      if (d.port p).txStopped then (d, none)
      else
        match worldMacsecOk k a.slot with
        | .error st =>
          let d1 := d.countUse (.error st : Except Nat Slot)
          (if st = sKeyOrphaned then d1.stopTx p (some a.slot) else d1, none)
        | .ok v =>
          if !sc.xpn && decide (0xFFFFFFFF ≤ a.pn) then (d.stopTx p none, none)
          else
            (d.modPort p (fun s => { s with txSc := some { sc with assocs := sc.assocs.put sc.an { a with pn := a.pn + 1 } } }),
              some (sc.protect v a.pn frame))

/-! ## Line states -/

/-- A frame whose line time is over has been sent (R386); the gap of 12 bytes follows it. -/
def Dev.txSettle (d : Dev) (p : Nat) : Dev :=
  match (d.port p).cur with
  | none => d
  | some c =>
    if c.endAt ≤ d.ps then
      let d1 := d.modPort p (fun s => { s with cur := none, freeAt := c.endAt + 12 * d.bytePs p })
      if c.frag then d1
      else
        let express := b2n (decide (c.queue = 8))
        (((d1.count64 (Reg.NET_Pp_TX_FRAMES_LO p)).count64 (Reg.NET_Pp_TX_BYTES_LO p) c.frame.size).count (Reg.NET_Pp_TX_EXPRESS p) express).count
          Reg.FUM_EXP_SENT express
    else d

/-- An SPDU names the key that signs it (R379). -/
def withKeyId (keyId : Nat) : TxBody → TxBody
  | .routedSv s m ip dp sp ap n _ t asdus => .routedSv s m ip dp sp ap n keyId t asdus
  | .routedGoose s m ip dp sp ap n _ g => .routedGoose s m ip dp sp ap n keyId g
  | b => b

/-- The text under the MAC of a frame. -/
def macText : TxBody → Bytes
  | .goose g => gooseApdu g
  | .session _ _ _ _ _ b => b
  | .routedSv _ _ _ _ _ _ n kid t asdus => beBytes 4 n ++ beBytes 4 kid ++ t ++ asdus.flatMap (fun a =>
      beBytes 2 a.smpCnt ++ beBytes 4 a.confRev ++ beBytes 1 a.smpSynch ++ a.members.flatMap (fun m => beBytes 4 m.1.toNat ++ beBytes 4 m.2.toNat))
  | .routedGoose _ _ _ _ _ _ n kid g => beBytes 4 n ++ beBytes 4 kid ++ gooseApdu g
  | _ => []

/-- A frame as the slot's key signs it at its start on the line, with its MAC (R197, R379), or the status where the key cannot be
used. -/
def signFrame (k : KeySt) (f : TxFrame) : Except Nat (TxFrame × Bytes) :=
  match f.auth with
  | none => .ok (f, [])
  | some slot =>
    match k.use slot with
    | .error st => .error st
    | .ok s =>
      match s.cur with
      | none => .error sAuthFail
      | some v => let b := withKeyId v.keyId f.body; .ok ({ f with body := b }, macTag s.alg v.bytes (macText b))

/-- A frame starts on the line, with its MAC, its MACsec protection and, for PTP, its stamp, whose event is the first bit after the 8 bytes of
preamble. -/
def Dev.startFrame (k : KeySt) (d : Dev) (p q phase : Nat) (f0 : TxFrame) : Dev :=
  match signFrame k f0 with
  | .error st =>
    (d.countUse (.error st : Except Nat Slot)).count (Reg.NET_Pp_TX_DROP p)
  | .ok (f, mac) =>
    let prot := d.protects p f
    let r := if prot then Dev.takePn k d p (Config.frameBytes f mac) else (d, none)
    if prot && r.2.isNone then r.1.count (Reg.NET_Pp_TX_DROP p)
    else
      let size := f.size + (if prot then 32 else 0)
      let lat := ofTwos 16 (d.fld (Fld.TIM_Pp_LAT_TX_LAT p))
      let stamp := d.stampAt ((d.ps + 8 * d.bytePs p) / 1000) phase lat
      let x : Dev × TxFrame := match f.body with
        | .ptp dst m => let y := r.1.ptpSent p m stamp; (y.1, { f with body := .ptp dst y.2 })
        | _ => (r.1, f)
      let c : TxCur := { queue := q, frame := { x.2 with size := size }, startAt := d.ps, endAt := d.ps + (8 + size) * d.bytePs p, done := 0 }
      (x.1.modPort p (fun s => { s with cur := some c })).emit (.ethTx p x.2 mac r.2)

/-! ## Preemption (R362) -/

/-- Data bytes of the frame on the line that have been sent in its present fragment. -/
def Dev.sentBytes (d : Dev) (p : Nat) (c : TxCur) : Nat := min (c.frame.size - c.done) ((d.ps - c.startAt) / d.bytePs p - 8)

/-- The express frame interrupts: the fragment ends with its mCRC of 4 bytes. -/
def Dev.preemptLine (d : Dev) (p : Nat) (c : TxCur) : Dev :=
  let sent := d.sentBytes p c
  let d1 := (d.modPort p (fun s => { s with
      cur := some { c with endAt := c.startAt + (8 + sent + 4) * d.bytePs p, frag := true }
      rest := some { queue := c.queue, frame := c.frame, done := c.done + sent } })).count (Reg.NET_Pp_TX_PREEMPT p)
  match c.frame.body with | .ptp _ m => d1.ptpPreempted p m | _ => d1

def Dev.mayPreempt (d : Dev) (p : Nat) (c : TxCur) : Bool :=
  let sent := d.sentBytes p c
  d.bit (Fld.NET_Pp_STATUS_PREEMPT_ACTIVE p) && decide (c.queue ≠ 8) && !c.frag
    && decide ((d.fld (Fld.NET_Pp_CFG_ADD_FRAG p) + 1) * 64 ≤ sent + 4) && decide (c.done + sent + 60 ≤ c.frame.size)

/-! ## The transmitter (R361) -/

/-- The highest preemptable queue that is not paused and holds a frame. -/
def Dev.nextQueue (d : Dev) (p : Nat) : Option (Nat × TxFrame) :=
  (List.range 8).reverse.findSome? (fun q =>
    if d.pausedQ p q then none else (((d.port p).queues[q]?).getD []).head?.map (fun f => (q, f)))

/-- The transmitter acts: it starts the next frame, continues a preempted one, or preempts. -/
def Dev.transmitFrame (k : KeySt) (d0 : Dev) (p phase : Nat) : Dev :=
  if d0.bit (Fld.NET_Pp_STATUS_LINK p) = false ∨ 3 < p then d0
  else
    let d := (d0.settlePause p).txSettle p
    let s := d.port p
    let expr := if d.pausedQ p 8 then none else s.express.head?
    match s.cur with
    | some c => if expr.isSome && d.mayPreempt p c then d.preemptLine p c else d
    | none =>
      if d.ps < s.freeAt then d
      else match expr with
        | some f => (d.modPort p (fun x => { x with express := x.express.tail })).startFrame k p 8 phase f
        | none =>
          match s.rest with
          | some r =>
            let left := r.frame.size - r.done
            (d.modPort p (fun x => { x with
              rest := none, cur := some { queue := r.queue, frame := r.frame, startAt := d.ps, endAt := d.ps + (8 + left) * d.bytePs p, done := r.done } })).emit
              (.ethResume p r.frame)
          | none =>
            match d.nextQueue p with
            | some (q, f) => (d.modPort p (fun x => { x with queues := modifyAt x.queues q List.tail })).startFrame k p q phase f
            | none => d

/-! ## Links (R355, R362, R364) -/

/-- The queues of a port are flushed: preemptable frames are counted in TX_DROP, express frames in FUM_EXP_DROP (R199). -/
def Dev.flushPort (d : Dev) (p : Nat) : Dev :=
  let s := d.port p
  let n := (s.queues.map List.length).sum + b2n s.rest.isSome + b2n (s.cur.any (fun c => decide (c.queue ≠ 8) && !c.frag))
  (((d.settlePause p).modPort p (fun x => { x with
    express := [], queues := List.replicate 8 [], cur := none, rest := none, pauseUntil := 0, pfcUntil := List.replicate 8 0 })).count
      (Reg.NET_Pp_TX_DROP p) n).count Reg.FUM_EXP_DROP (s.express.length + b2n (s.cur.any (fun c => decide (c.queue = 8))))

/-- A link goes down. -/
def Dev.ethDown (d : Dev) (p : Nat) : Dev :=
  if d.bit (Fld.NET_Pp_STATUS_LINK p) then
    let d1 := (((d.txSettle p).flushPort p).count (Reg.NET_Pp_LINK_DOWN p)).settlePause p
    (((d1.setBit (Fld.NET_Pp_STATUS_LINK p) false).setBit (Fld.NET_Pp_STATUS_PCS_OK p) false).setFld (Fld.NET_Pp_STATUS_VERIFY p) 0).setBit
      (Fld.NET_Pp_STATUS_PREEMPT_ACTIVE p) false
  else d

/-- A link comes up: preemption is active at once with VERIFY_DIS, else after its verification. -/
def Dev.ethUp (d : Dev) (p : Nat) : Dev :=
  if d.bit (Fld.NET_Pp_CFG_EN p) && !d.bit (Fld.NET_Pp_STATUS_MOD_ABS p) && !d.bit (Fld.NET_Pp_STATUS_LINK p) && decide (p < 4) then
    let pre := d.bit (Fld.NET_Pp_CFG_PREEMPT_EN p)
    let noVer := d.bit (Fld.NET_Pp_CFG_VERIFY_DIS p)
    let d1 := (((d.setBit (Fld.NET_Pp_STATUS_LINK p) true).setBit (Fld.NET_Pp_STATUS_PCS_OK p) true).setBit (Fld.NET_Pp_STATUS_LOS p) false).setBit
      (Fld.NET_Pp_STATUS_TX_FAULT p) false
    (d1.setFld (Fld.NET_Pp_STATUS_VERIFY p) (b2n (pre && !noVer))).setBit (Fld.NET_Pp_STATUS_PREEMPT_ACTIVE p) (pre && noVer)
  else d

/-- The verification of IEEE 802.3br ends. -/
def Dev.preemptVerify (d : Dev) (p : Nat) (ok : Bool) : Dev :=
  if d.fld (Fld.NET_Pp_STATUS_VERIFY p) = 1 ∧ p < 4 then
    (d.setFld (Fld.NET_Pp_STATUS_VERIFY p) (if ok then 2 else 3)).setBit (Fld.NET_Pp_STATUS_PREEMPT_ACTIVE p) ok
  else d

end Sys2Proof.Machine
end

