-- ==== Sys2Proof/Machine/NetSess.lean ====
section
/-! DEFINITION. Output sessions: their entries, the frames they publish, and their commands (R371 to R379, R387). -/

namespace Sys2Proof.Machine

open Sys2Proof

/-! ## Entries (R371) -/

def sessResv : List (Nat × Nat) :=
  [(0, 0xC0), (3, 0xF0), (14, 0x7C), (35, 0xF0), (39, 0xFF), (41, 0xE0), (42, 0x80), (43, 0xF0), (45, 0xFC), (46, 0xC0), (47, 0xFF)] ++
    (List.range 13).map (fun i => (51 + i, 0xFF))

/-- The entry that an image with VALID spells. -/
def sessFields (b : Bytes) : SessEntry :=
  let b0 := fieldAt b 0 1
  let b1 := fieldAt b 1 1
  { type := b0 % 4, valid := b0.testBit 2, txOn := b0.testBit 3, auth := b0.testBit 4, splitMute := b0.testBit 5
    portMask := b1 % 16, pcp := b1 / 16 % 8, tagged := b1.testBit 7, vlanId := fieldAt b 2 2 % 4096, srcPort := fieldAt b 4 2
    dstPort := fieldAt b 6 2, dstMac := beNat (slice b 8 6), addrIdx := fieldAt b 14 1 % 4, ipv6 := (fieldAt b 14 1).testBit 7
    ttl := fieldAt b 15 1, dstIp := beNat (slice b 16 16), id := fieldAt b 32 2, rateDiv := fieldAt b 34 1, format := fieldAt b 35 1 % 16
    timeBase := fieldAt b 36 3, listBase := fieldAt b 40 2 % 8192, listLen := fieldAt b 42 1 % 128, nasdu := fieldAt b 43 1 % 16
    keySlot := fieldAt b 44 2 % 1024, dscp := fieldAt b 46 1 % 64, rtFirst := fieldAt b 48 1, rtMax := fieldAt b 49 2 }

/-- Every field is in its range. -/
def sessInRange (b : Bytes) (e : SessEntry) : Bool :=
  !resvSet sessResv b && decide (e.type ≤ 2) && decide (1 ≤ e.ttl) && decide (1 ≤ e.rateDiv) && decide (e.rateDiv ≤ 240) && decide (1 ≤ e.timeBase)
    && decide (1 ≤ e.listLen) && decide (e.listLen ≤ 64) && decide (e.listBase + e.listLen ≤ 8192)
    && (decide (e.type ≠ 1) || (decide (1 ≤ e.nasdu) && decide (e.nasdu ≤ 8)))
    && (decide (e.type ≠ 2) || (decide (1 ≤ e.rtFirst) && decide (e.rtFirst ≤ e.rtMax) && decide (e.rtMax ≤ 60000)))

/-- The streams that an entry lists. -/
def Dev.sessStreams (d : Dev) (e : SessEntry) : List Nat := (List.range e.listLen).map (fun i => d.net.sessList.getD (e.listBase + i) 0)

/-- The enabled channels of a stream entry of one of the kinds. -/
def Dev.kindsOf (d : Dev) (s : StreamEntry) (kinds : List Nat) : List ChanEntry :=
  (d.chansOf s).filter (fun c => c.enable && kinds.contains c.kind)

/-- Bytes of a UDP frame from the destination address to the FCS. -/
def udpFrame (e : SessEntry) (payload : Nat) : Nat := max 64 (14 + 4 * b2n e.tagged + (if e.ipv6 then 40 else 20) + 8 + payload + 4)

/-- Bytes of the block of a stream in a data frame of a session. -/
def Dev.blockLen (d : Dev) (format : Nat) (s : StreamEntry) : Nat :=
  let q := if format.testBit 3 then 4 else 2
  2 + (d.kindsOf s [0]).length * (if format.testBit 1 then 8 else 4) + 2 * q + (d.kindsOf s [3]).length * (if format.testBit 2 then 4 else 2)
    + 2 * (d.kindsOf s [4]).length

/-- Bytes that the session form of IEC 61850-90-5 takes around its payload. -/
def spduOverhead : Nat := 40

/-- The largest frame that a session sends. -/
def Dev.largestFrame (d : Dev) (e : SessEntry) (ss : List StreamEntry) : Nat :=
  let mac := if e.auth then 32 else 0
  udpFrame e (
    if e.type = 0 then 16 + (ss.map (d.blockLen e.format)).sum
    else if e.type = 1 then spduOverhead + mac + e.nasdu * (20 + 8 * (ss.map (fun s => (d.kindsOf s [5, 6]).length)).sum)
    else spduOverhead + mac + 64 + 6 * (ss.map (fun s => (d.kindsOf s [7, 8, 9]).length)).sum)

def Dev.holds90_5 (k : KeySt) (slot : Nat) : Bool := (k.slot slot).any (fun s => decide (s.world = worldR90_5) && decide (s.state = .valid))

/-- The cases of R372 that concern the listed streams and the ports. -/
def Dev.sessFits (k : KeySt) (d : Dev) (e : SessEntry) (ss : List StreamEntry) : Bool :=
  decide (d.rate % e.rateDiv = 0)
    && ss.all (fun s => !s.isC37 || decide (e.rateDiv * s.frate % max 1 d.rate = 0))
    && (decide (e.type ≠ 0) || ss.all (fun s => !s.isSv && decide (s.type ≠ 4)))
    && (decide (e.type ≠ 1) || (decide (e.listLen = 1) && decide (e.rateDiv = 1) && ss.all (fun s => s.isSv && decide (s.rate % (d.rate * e.nasdu) = 0))))
    && (decide (e.type ≠ 2) || (decide (e.listLen = 1) && ss.all (fun s => decide (s.type = 4) && decide ((d.kindsOf s [7, 8, 9]).length ≤ 32))))
    && (bitsOf 4 e.portMask).all (fun p =>
          decide (d.largestFrame e ss + (if (d.port p).txSc.isSome then 32 else 0) ≤ d.fld (Fld.NET_Pp_FRAME_MAX_FRAME p)))
    && (!e.auth || Dev.holds90_5 k e.keySlot)

def Dev.sess (d : Dev) (s : Nat) : SessSt := d.net.sess.getD s {}

def Dev.modSess (d : Dev) (s : Nat) (f : SessSt → SessSt) : Dev := d.modNet (fun n => { n with sess := n.sess.put s (f (d.sess s)) })

def sessListSet (first count : Nat) (images : Bytes) (d : Dev) : Dev × CmdRes :=
  let l := (imagesOf 2 count images).map leNat
  let used := d.net.sess.any (fun (x : Nat × SessSt) => x.2.entry.any (fun e =>
    decide (first < e.listBase + e.listLen) && decide (e.listBase < first + count)))
  if count = 0 ∨ 256 < count ∨ 8192 < first + count ∨ l.any (fun v => decide (8192 ≤ v)) = true then (d, .done sRange 0)
  else if used then (d, .done sBusy 0)
  else
    let put (t : Tbl Nat) (x : Nat × Nat) : Tbl Nat := if x.1 = 0 then t.drop (first + x.2) else t.put (first + x.2) x.1
    (d.modNet (fun n => { n with sessList := l.zipIdx.foldl put n.sessList }), .ok)

/-- SESS_CFG_FRAME: kinds 0 to 4 are header, CFG-1, CFG-2, CFG-3 and the 90-5 template. -/
def sessCfgFrame (s kind : Nat) (frame : Bytes) (d : Dev) : Dev × CmdRes :=
  match (d.sess s).entry with
  | none => (d, .done sRange 0)
  | some e =>
    if 8192 < frame.length ∨ 4 < kind ∨ (kind = 4) ≠ (e.type ≠ 0) then (d, .done sRange 0)
    else (d.modSess s (fun x => { x with stored := x.stored.put kind frame, cfgPending := x.cfgPending && decide (kind ≠ 2) }), .ok)

/-- The key of a session with AUTH, or the status of its use. -/
def sessKey (k : KeySt) (e : SessEntry) : Except Nat (Option KeyVal) :=
  if e.auth && decide (e.type ≠ 0) then
    match k.use e.keySlot with
    | .error st => .error st
    | .ok s => if s.world = worldR90_5 then (match s.cur with | some v => .ok (some v) | none => .error sAuthFail) else .error sAuthFail
  else .ok none

def sessCtrl (k : KeySt) (s : Nat) (txOn cfgPending : Bool) (d : Dev) : Dev × CmdRes :=
  match (d.sess s).entry with
  | none => (d, .done sRange 0)
  | some e =>
    let keyOk := match sessKey k e with | .ok _ => true | .error _ => false
    (d.modSess s (fun x => { x with txOn := txOn, cfgPending := cfgPending, keyOrphaned := x.keyOrphaned && !(txOn && keyOk) }), .ok)

/-- SPLIT_MUTE holds the session back. -/
def Dev.muted (d : Dev) (e : SessEntry) : Bool := e.splitMute && d.bit Fld.CRT_STATUS_SPLIT

def sessStats (s : Nat) (d : Dev) : Dev × CmdRes :=
  let x := d.sess s
  match x.entry with
  | none => (d, .done sRange 0)
  | some e =>
    (d, .block (leBytes 8 x.sent ++ leBytes 4 x.commands ++ leBytes 4 x.notSent ++
      leBytes 1 (b2n x.txOn + 2 * b2n x.keyOrphaned + 4 * b2n (d.muted e) + 8 * b2n x.cfgPending)) none)

/-! ## Time fields (R374, R407, R409) -/

/-- FRACSEC bits 31:24 for a G-time in 2⁻¹⁶ ns (R407): the instants of the leap that waits and of the last one decide for that G-time; an
inserted second counts as after its leap (R409). -/
def Dev.timeQuality (d : Dev) (g : Nat) : Nat :=
  let leaps : List (Nat × Bool) := (d.tim.leapAt.toList ++ d.tim.lastLeap.toList).map (fun x => ((if x.2 then x.1 else x.1 - 1) * sec16, x.2))
  let pending := leaps.filter (fun x => decide (x.1 ≤ g + 60 * sec16) && decide (g < x.1))
  let occurred := leaps.filter (fun x => decide (x.1 ≤ g) && decide (g < x.1 + 86400 * sec16))
  64 * b2n ((pending ++ occurred).any (fun x => x.2)) + 32 * b2n (!occurred.isEmpty) + 16 * b2n (!pending.isEmpty) + d.fld Fld.TIM_STATUS_TQ_CODE

/-- The nearest whole number of `n / m`, a half going up. -/
def roundDiv (n m : Nat) : Nat := (2 * n + m) / (2 * m)

/-- SOC and FRACSEC of an instant, with its fraction of a second as `num / den`. -/
def Dev.socBytes (d : Dev) (g num den base : Nat) : Bytes :=
  beBytes 4 (d.utc16 g / sec16) ++ beBytes 1 (d.timeQuality g) ++ beBytes 3 (roundDiv (num * base) den)

/-! ## C37.118.2 data frames (R374, R375) -/

/-- What a binary32 value is worth: a number, an infinity of a sign, or neither. -/
inductive Worth where
  | fin (x : Rat)
  | inf (neg : Bool)
  | none
  deriving DecidableEq, Repr

def worthOf (w : Word) : Worth := match f32 w with | .nan => .none | .inf s => .inf s | .fin _ _ _ => .fin (fRat w)

/-- The quotient by a scale factor. -/
def Worth.quot (x : Worth) (s : Word) : Worth :=
  match x, worthOf s with
  | .fin a, .fin b => if b = 0 then .none else .fin (a / b)
  | .fin _, .inf _ => .fin 0
  | .inf n, .fin b => if b = 0 then .none else .inf (n ^^ decide (b < 0))
  | _, _ => .none

/-- The difference from an offset. -/
def Worth.less (x : Worth) (s : Word) : Worth :=
  match x, worthOf s with
  | .fin a, .fin b => .fin (a - b)
  | .inf n, .fin _ => .inf n
  | .fin _, .inf n => .inf (!n)
  | .inf m, .inf n => if m = n then .none else .inf m
  | _, _ => .none

def Worth.times (n : Nat) : Worth → Worth
  | .fin x => .fin (x * (n : Nat))
  | x => x

/-- The nearest whole number, half-even, held between `lo` and `hi`; an infinity saturates. None where the spec gives no number. -/
def Worth.within (lo hi : Int) : Worth → Option Int
  | .fin x => some (max lo (min hi (roundEven x)))
  | .inf n => some (if n then lo else hi)
  | .none => Option.none

/-- A 16-bit field: the number rounded half-even, saturating at ±32,767; `free` where the spec gives no number. -/
def int16Of (free : Nat) (q : Worth) : Bytes :=
  beBytes 2 (match q.within (-32767) 32767 with | some x => toTwos 16 x | none => free % 65536)

def f32Bytes (w : Word) : Bytes := beBytes 4 w.toNat

/-- A field of a record with no values. -/
def noValue (float : Bool) : Bytes := if float then f32Bytes (nan32 6 0 0) else beBytes 2 0x8000

/-- A phasor: its parts, or its magnitude and angle computed in binary32. -/
def phasorBytes (format free : Nat) (c : ChanEntry) (v : Word × Word) : Bytes :=
  let x : Word × Word := if format.testBit 0 then (fSqrt (fAdd (fMul v.1 v.1) (fMul v.2 v.2)), Config.f32Atan2 v.2 v.1) else v
  if format.testBit 1 then f32Bytes x.1 ++ f32Bytes x.2
  else
    int16Of free ((worthOf x.1).quot c.scale) ++
      int16Of (free / 65536) (if format.testBit 0 then (worthOf x.2).times 10000 else (worthOf x.2).quot c.scale)

/-- The first channel of a kind with its value. -/
def firstOf (kind : Nat) (l : List (ChanEntry × (Word × Word))) : Option (ChanEntry × Word) :=
  (l.find? (fun x => decide (x.1.kind = kind))).map (fun x => (x.1, x.2.1))

/-- The values of a block, in the order of R374. -/
def blockValues (format free : Nat) (l : List (ChanEntry × (Word × Word))) : Bytes :=
  let ph := (l.filter (fun x => decide (x.1.kind = 0))).flatMap (fun x => phasorBytes format free x.1 x.2)
  let q := format.testBit 3
  let fr := match firstOf 1 l with
    | some (c, v) => if q then f32Bytes v else int16Of free (((worthOf v).less c.offset).times 1000)
    | none => zeros (if q then 4 else 2)
  let df := match firstOf 2 l with
    | some (_, v) => if q then f32Bytes v else int16Of free ((worthOf v).times 100)
    | none => zeros (if q then 4 else 2)
  let an := (l.filter (fun x => decide (x.1.kind = 3))).flatMap (fun x =>
    if format.testBit 2 then f32Bytes x.2.1 else int16Of free (((worthOf x.2.1).less x.1.offset).quot x.1.scale))
  let dg := (l.filter (fun x => decide (x.1.kind = 4))).flatMap (fun x => beBytes 2 (x.2.1.toNat % 65536))
  ph ++ fr ++ df ++ an ++ dg

/-- The values of a block whose record holds none. -/
def emptyValues (format : Nat) (cs : List ChanEntry) : Bytes :=
  let n (kind : Nat) : Nat := (cs.filter (fun c => decide (c.kind = kind))).length
  (List.replicate (2 * n 0) (noValue (format.testBit 1))).flatten ++ noValue (format.testBit 3) ++ noValue (format.testBit 3) ++
    (List.replicate (n 3) (noValue (format.testBit 2))).flatten ++ (List.replicate (n 4) (noValue false)).flatten

/-- STAT of a block (R375). -/
def statOf (cfgPending : Bool) (qual : Nat) (noVals : Bool) : Nat :=
  let top := if qual.testBit 7 then 2 else if qual.testBit 4 then 1 else if noVals then 3 else 0
  16384 * top + 8192 * b2n (qual.testBit 3) + 1024 * b2n cfgPending + 512 * b2n (qual.testBit 1)

/-- The block of one stream. -/
def Dev.pmuBlock (d : Dev) (format free : Nat) (cfgPending : Bool) (e i : Nat) : Bytes :=
  let ent := d.entryAt i e <|> d.validEntry i
  let cs := ((ent.map d.chansOf).getD [])
  let r : Option Rec := (d.confirmedRec i e).map (fun (x : Rec × Nat) => x.1)
  let qual := (r.map (fun x => x.qual)).getD 0
  match r.map (fun (x : Rec) => x.body) with
  | some (.slots vals) =>
    beBytes 2 (statOf cfgPending qual false) ++ blockValues format free ((cs.zip vals).filter (fun x => x.1.enable))
  | _ => beBytes 2 (statOf cfgPending qual true) ++ emptyValues format (cs.filter (fun c => c.enable))

/-- A frame of C37.118.2 with its CHK. -/
def withChk (b : Bytes) : Bytes := b ++ beBytes 2 (crc16 b)

/-- The data frame of an epoch. -/
def Dev.c37Frame (d : Dev) (x : SessSt) (s : SessEntry) (free e : Nat) : Bytes :=
  let blocks := (d.sessStreams s).flatMap (d.pmuBlock s.format free x.cfgPending e)
  withChk (beBytes 2 0xAA02 ++ beBytes 2 (16 + blocks.length) ++ beBytes 2 s.id ++
    d.socBytes (epochTime d.rate e) (e % max 1 d.rate) (max 1 d.rate) s.timeBase ++ blocks)

/-! ## IEC 61850-90-5 (R377 to R379) -/

/-- A member of an ASDU: the sample and the quality of sample `j` of a slot (R377). -/
def svMember (free : Nat) (test : Bool) (got : List Bool) (c : ChanEntry) (l : List (Word × Nat)) (j : Nat) : Word × Word :=
  let v := (l[j]?).getD (0, 1)
  let received := (got[j]?).getD false
  let value (w : Word) : Word := match ((worthOf w).quot c.scale).within (-2147483648) 2147483647 with
    | some x => BitVec.ofNat 32 (toTwos 32 x)
    | none => BitVec.ofNat 32 free
  let t := 2048 * b2n test
  if received then (value v.1, BitVec.ofNat 32 (b2n (decide (v.2 = 1)) + t))
  else if v = (0, 1) then (0, BitVec.ofNat 32 (1 + t))
  else (value v.1, BitVec.ofNat 32 (3 + 1024 + t))

/-- The ASDUs of an epoch, under a stored template. -/
def Dev.svAsdus (d : Dev) (template : Bytes) (free e i : Nat) : List Asdu :=
  match d.entryAt i e <|> d.validEntry i with
  | none => []
  | some ent =>
    let r : Option Rec := (d.confirmedRec i e).map (fun (x : Rec × Nat) => x.1)
    let qual := (r.map (fun x => x.qual)).getD 0
    let body : List Bool × List (List (Word × Nat)) := match r.map (fun (x : Rec) => x.body) with | some (.samples g v) => (g, v) | _ => ([], [])
    let slots := ((d.chansOf ent).zipIdx).filter (fun x => x.1.enable)
    (List.range (nsampOf d.rate ent.rate e)).map (fun j =>
      { smpCnt := (firstSample d.rate ent.rate e + j) % ent.rate, confRev := Config.templateConfRev template, smpSynch := if qual.testBit 3 then 0 else 2
        members := slots.map (fun x => svMember free (qual.testBit 7) body.1 x.1 ((body.2[x.2]?).getD []) j) })

/-- A list cut into parts of `n`. -/
def cut {α : Type} (n : Nat) : Nat → List α → List (List α)
  | 0, _ => []
  | fuel + 1, l => if l.isEmpty then [] else l.take n :: cut n fuel (l.drop n)

/-- The members of a GOOSE session from a record's values. -/
def Dev.gooseMembers (d : Dev) (ent : StreamEntry) (vals : List (Word × Word)) : List GooseVal :=
  (((d.chansOf ent).zip vals).filter (fun x => x.1.enable && [7, 8, 9].contains x.1.kind)).map (fun x =>
    if x.1.kind = 7 then .bool (decide (x.2.1 ≠ 0)) else if x.1.kind = 8 then .dbpos (x.2.1.toNat % 4) else .int32 x.2.1)

/-! ## Sending (R361, R373) -/

/-- What the session's entry puts in the IP header of its frames on a port (R371). -/
def Dev.sessIp (d : Dev) (p : Nat) (e : SessEntry) : IpHead :=
  let a := if e.ipv6 then (d.port p).ip6 else (d.port p).ip4
  { v6 := e.ipv6, src := (a[e.addrIdx]?).join, ttl := e.ttl, dscp := e.dscp }

/-- A frame of a session joins the queue of its PCP on a port. -/
def Dev.queueSess (d : Dev) (p : Nat) (e : SessEntry) (f : TxFrame) : Dev := d.queueFrame p e.pcp { f with ip := some (d.sessIp p e) }

/-- Frames go to each port of the session whose link is up; the number sent. -/
def Dev.sendSess (d : Dev) (s : Nat) (e : SessEntry) (frames : List TxFrame) : Dev × Nat :=
  let ports := (bitsOf 4 e.portMask).filter (fun p => d.bit (Fld.NET_Pp_STATUS_LINK p))
  let d1 := ports.foldl (fun (x : Dev) p => frames.foldl (fun (y : Dev) f => y.queueSess p e f) x) d
  let n := ports.length * frames.length
  (d1.modSess s (fun x => { x with sent := x.sent + n }), n)

def sessFrame (e : SessEntry) (len : Nat) (body : TxBody) : TxFrame :=
  { size := udpFrame e len, body := body, vid := if e.tagged then some e.vlanId else none, pcp := if e.tagged then e.pcp else 0
    auth := if e.auth && decide (e.type ≠ 0) then some e.keySlot else none }

/-- The GOOSE message of a session's present state (R378). -/
def Dev.gooseOut (d : Dev) (s : Nat) (e : SessEntry) : GooseOut :=
  let x := d.sess s
  { pub := s, dstMac := e.dstMac, vlan := e.vlanId, appid := e.id, gocbRef := x.stored.getD 4 [], datSet := [], goId := []
    ttlMs := 2 * (match x.nextAt with | some (_, nx) => nx | none => e.rtFirst), t := d.utc16 x.stateAt, notSync := d.timeSuspect
    stNum := x.stNum, sqNum := x.sqNum, test := false, simulation := false, confRev := Config.templateConfRev (x.stored.getD 4 []), ndsCom := x.ndsCom, members := x.members
    ordinary := true }

/-- The next SPDU number of a session. -/
def Dev.takeSpdu (d : Dev) (s : Nat) : Dev := d.modSess s (fun x => { x with spdu := (x.spdu + 1) % 2 ^ 32 })

def Dev.sendGoose (d : Dev) (s : Nat) (e : SessEntry) : Dev × Nat :=
  let g := d.gooseOut s e
  let len := spduOverhead + (if e.auth then 32 else 0) + (gooseApdu g).length
  let f := sessFrame e len (.routedGoose s e.dstMac e.dstIp e.dstPort e.srcPort e.id (d.sess s).spdu 0 g)
  (d.takeSpdu s).sendSess s e [f]

/-- A new state of a GOOSE session. -/
def Dev.gooseNewState (d : Dev) (s : Nat) (e : SessEntry) (ms : List GooseVal) (nds : Bool) : Dev × Nat :=
  (d.modSess s (fun x => { x with
    stNum := bump x.stNum, sqNum := 0, members := ms, ndsCom := nds, stateAt := d.g16
    nextAt := some (d.up + e.rtFirst * 1000000, e.rtFirst) })).sendGoose s e

/-- The GOOSE session takes an epoch: what it sends, if anything. The second part tells whether the epoch counts as not sent. -/
def Dev.gooseEpoch (d : Dev) (s : Nat) (e : SessEntry) (ep : Nat) : Dev × Bool :=
  let i := (d.sessStreams e).headD 0
  let x := d.sess s
  let r : Option Rec := (d.confirmedRec i ep).map (fun (y : Rec × Nat) => y.1)
  let lacks := !(r.any (fun y => y.qual.testBit 0 || y.qual.testBit 1))
  if lacks then
    if x.ndsCom || decide (x.stNum = 0) then (d, false)
    else let y := d.gooseNewState s e x.members true; (y.1, decide (y.2 = 0))
  else
    match d.entryAt i ep <|> d.validEntry i, r.map (fun (y : Rec) => y.body) with
    | some ent, some (.slots vals) =>
      let ms := d.gooseMembers ent vals
      if x.stNum ≠ 0 ∧ ms = x.members then (d.modSess s (fun y => { y with ndsCom := false }), false)
      else let y := d.gooseNewState s e ms false; (y.1, decide (y.2 = 0))
    | _, _ => (d, false)

/-- The key of a session is orphaned: it stops, once with its event. -/
def Dev.sessKeyLost (d : Dev) (s : Nat) (e : SessEntry) (st : Nat) : Dev :=
  let d1 := d.countUse (.error st : Except Nat Slot)
  if st = sKeyOrphaned && !(d.sess s).keyOrphaned then
    (d1.modSess s (fun x => { x with keyOrphaned := true })).event .sessionKeyOrphaned s e.keySlot 0 sKeyOrphaned
  else d1

/-- One published epoch of a session. -/
def Dev.publishEpoch (k : KeySt) (d : Dev) (s : Nat) (e : SessEntry) (ep : Nat) : Dev :=
  let x := d.sess s
  let skip (y : Dev) : Dev := y.modSess s (fun z => { z with notSent := (z.notSent + 1) % 2 ^ 32 })
  if x.txOn = false ∨ d.muted e = true ∨ x.keyOrphaned = true then skip d
  else
    match sessKey k e with
    | .error st => skip (d.sessKeyLost s e st)
    | .ok _ =>
      if e.type = 2 then let y := d.gooseEpoch s e ep; if y.2 then skip y.1 else y.1
      else
        let fr := d.draw
        let y : Dev × Nat :=
          if e.type = 0 then
            let b := d.c37Frame x e fr.1 ep
            fr.2.sendSess s e [sessFrame e b.length (.session s e.dstMac e.dstIp e.dstPort e.srcPort b)]
          else
            let asdus := d.svAsdus (x.stored.getD 4 []) fr.1 ep ((d.sessStreams e).headD 0)
            let parts := cut e.nasdu asdus.length asdus
            let frames := parts.zipIdx.map (fun (p : List Asdu × Nat) =>
              sessFrame e (spduOverhead + (if e.auth then 32 else 0) + (p.1.map (fun a => 20 + 8 * a.members.length)).sum)
                (.routedSv s e.dstMac e.dstIp e.dstPort e.srcPort e.id ((x.spdu + p.2) % 2 ^ 32) 0 (x.stored.getD 4 []) p.1))
            (fr.2.modSess s (fun z => { z with spdu := (z.spdu + parts.length) % 2 ^ 32 })).sendSess s e frames
        if y.2 = 0 then skip y.1 else y.1

/-- A session takes the oldest published epoch that it has not handled. -/
def Dev.sessPublish (k : KeySt) (d : Dev) (s : Nat) : Dev :=
  let x := d.sess s
  match x.entry with
  | none => d
  | some e =>
    match x.todo.dropWhile (fun ep => decide (ep % max 1 e.rateDiv ≠ 0)) with
    | [] => d.modSess s (fun z => { z with todo := [] })
    | ep :: rest => Dev.publishEpoch k (d.modSess s (fun z => { z with todo := rest })) s e ep

/-- The work item that assembles a session's next frames is served, of ORIGIN 0x04 with the session for its TAG; they are sent as it
completes (R329, R330). -/
def Dev.sessItem (k : KeySt) (d : Dev) (s : Nat) : Dev :=
  let x := d.sess s
  if x.entry.all (fun e => x.todo.all (fun ep => decide (ep % max 1 e.rateDiv ≠ 0))) then Dev.sessPublish k d s
  else
    let r := d.serve 0x04 s
    if r.2 then Dev.sessPublish k r.1 s else r.1

/-- The epochs confirmed before a new entry completes are published under the old one (R372). -/
def Dev.sessFlush (k : KeySt) (d : Dev) (s : Nat) : Dev := iterate (fun x : Dev => Dev.sessPublish k x s) (d.sess s).todo.length d

/-- SESS_SET (R372). DEDUCED, log 174: an image with VALID 0 is held to the ranges of the fields too, and not to what concerns its
streams. -/
def sessSet (k : KeySt) (s : Nat) (image : Bytes) (d : Dev) : Dev × CmdRes :=
  let e := sessFields image
  if 127 < s ∨ sessInRange image e = false then (d, .done sRange 0)
  else if e.valid = false then ((Dev.sessFlush k d s).modNet (fun n => { n with sess := n.sess.drop s }), .ok)
  else
    let ss := (d.sessStreams e).map d.validEntry
    if ss.any (fun x => x.isNone) then (d, .done sNotOwner 0)
    else if Dev.sessFits k d e ss.reduceOption = false then (d, .done sRange 0)
    else
      ((Dev.sessFlush k d s).modNet (fun n => { n with sess := n.sess.put s { entry := some e, txOn := e.txOn || decide (e.type ≠ 0) } }), .ok)

/-- A retransmission of a GOOSE session. -/
def Dev.sessRetransmit (k : KeySt) (d : Dev) (s : Nat) : Dev :=
  let x := d.sess s
  match x.entry, x.nextAt with
  | some e, some (at_, iv) =>
    if at_ ≤ d.up ∧ x.txOn = true ∧ x.keyOrphaned = false ∧ d.muted e = false then
      match sessKey k e with
      | .error st => d.sessKeyLost s e st
      | .ok _ =>
        let nx := min e.rtMax (2 * iv)
        ((d.modSess s (fun z => { z with sqNum := bump z.sqNum, nextAt := some (at_ + nx * 1000000, nx) })).sendGoose s e).1
    else d
  | _, _ => d

/-! ## Command frames (R376) -/

/-- The session that a command frame is addressed to. -/
def Dev.sessionFor (d : Dev) (p dport : Nat) (b : Bytes) : Option (Nat × SessEntry) :=
  if b.length < 18 ∨ beNat (slice b 0 1) ≠ 0xAA ∨ c37Type b ≠ 4 ∨ c37ChkOk b = false then none
  else
    (d.net.sess.filterMap (fun (x : Nat × SessSt) => x.2.entry.map (fun e => (x.1, e)))).find? (fun x =>
      decide (x.2.type = 0) && x.2.portMask.testBit p && decide (x.2.srcPort = dport) && decide (x.2.id = beNat (slice b 4 2)))

/-- A stored frame with the present SOC, FRACSEC and CHK. -/
def Dev.refreshStored (d : Dev) (e : SessEntry) (b : Bytes) : Bytes :=
  let u := d.utc16 d.g16
  withChk (b.take 6 ++ d.socBytes d.g16 (u % sec16) sec16 e.timeBase ++ (b.take (b.length - 2)).drop 14)

/-- The session handles a command, or passes it to host software. -/
def Dev.sessCommand (d : Dev) (p : C37Path) (srcMac sport rx s : Nat) (e : SessEntry) (b : Bytes) : Dev :=
  let cmd := beNat (slice b 14 2)
  let x := d.sess s
  let handled (f : SessSt → SessSt) : Dev := d.modSess s (fun y => { f y with commands := (y.commands + 1) % 2 ^ 32 })
  if cmd = 1 then handled (fun y => { y with txOn := false })
  else if cmd = 2 then handled (fun y => { y with txOn := true })
  else
    match (if 3 ≤ cmd ∧ cmd ≤ 6 then x.stored.find (cmd - 3) else none) with
    | none => d.controlEntry p sport 4 s rx b
    | some st =>
      let r := d.refreshStored e st
      if d.muted e then handled id
      else (handled id).queueSess p.port e (sessFrame e r.length (.session s srcMac p.srcIp sport e.srcPort r))

end Sys2Proof.Machine
end

