-- ==== Sys2Proof/Machine/NetRx.lean ====
section
/-! DEFINITION. The receiver of an Ethernet port: line checks, MACsec, the filters, and the one receiver of each frame (R356 to R360,
R365 to R369, R376). -/

namespace Sys2Proof.Machine

open Sys2Proof

/-! ## MACsec on receive (R368 to R370) -/

/-- A PTP frame in the sense of R357. -/
def isPtpFrame : FrameBody → Bool
  | .ptp _ => true
  | .udp u => decide (u.dstPort = 319) || decide (u.dstPort = 320)
  | _ => false

/-- The frame needs no validation: MACsec is not enabled on the port, or it is a PTP frame in the clear that bypasses it. -/
def Dev.macsecBypass (d : Dev) (p : Nat) (f : EthFrame) : Bool :=
  !(d.port p).macsecOn || (f.macsec.isNone && d.bit (Fld.NET_Pp_CFG_PTP_BYPASS p) && isPtpFrame f.body)

/-- The receive direction stops for an orphaned key; its event is sent once. -/
def Dev.stopRx (d : Dev) (p slot : Nat) : Dev :=
  if (d.port p).rxStopped then d
  else ((d.modPort p (fun s => { s with rxStopped := true })).setBit (Fld.NET_Pp_STATUS_KEY_ORPHANED p) true).event .macsecKeyOrphaned p slot 0
    sKeyOrphaned

/-- Validation in strict mode with the channel's replay window: the device, and whether the frame passes. -/
def Dev.macsecRx (k : KeySt) (d : Dev) (p : Nat) (t : MacsecTag) : Dev × Bool :=
  let s := d.port p
  match s.rxSc.find? (fun (x : Nat × SecChan) => decide (x.2.sci = t.sci)) with
  | none => (d, false)
  | some (ch, sc) =>
    match sc.assocs.find t.an with
    | none => (d, false)
    | some a =>
      if s.rxStopped then (d, false)
      else
        match worldMacsecOk k a.slot with
        | .error st =>
          let d1 := d.countUse (.error st : Except Nat Slot)
          (if st = sKeyOrphaned then d1.stopRx p a.slot else d1, false)
        | .ok v =>
          let good := decide (gcmTag v.bytes (macsecNonce sc v t.pn) t.aad t.cipher = t.tag) && decide (a.pn ≤ t.pn + sc.window)
            && decide (t.pn ≠ 0)
          if good then
            (d.modPort p (fun x => { x with rxSc := x.rxSc.put ch { sc with assocs := sc.assocs.put t.an { a with pn := max a.pn (t.pn + 1) } } }), true)
          else (d, false)

/-! ## Filters (R356, R358 to R360) -/

/-- Group addresses that the time unit adds: those of the PTP messages of R393. -/
def ptpMacs : List Nat := [0x011B19000000, 0x0180C200000E]

def Dev.macOfPort (d : Dev) (p : Nat) : Nat := d.regN (Reg.NET_Pp_MAC_LO p) + 2 ^ 32 * d.fld (Fld.NET_Pp_MAC_HI_ADDR p)

/-- An IPv4 address in IPv6 form. -/
def mapped (v4 : Nat) : Nat := 0xFFFF00000000 + v4

/-- Addresses of a port, in IPv6 form. -/
def PortSt.ips (s : PortSt) : List Nat := s.ip4.filterMap (fun x => x.map mapped) ++ s.ip6.filterMap id

/-- Solicited-node multicast of an IPv6 address, as a MAC address. -/
def solicitedMac (ip : Nat) : Nat := 0x3333FF000000 + ip % 2 ^ 24

/-- The destination address is accepted. -/
def Dev.macAccepted (d : Dev) (p : Nat) (f : EthFrame) : Bool :=
  let s := d.port p
  if f.dst = 0xFFFFFFFFFFFF then (match f.body with | .arp _ _ _ | .arpReply _ _ => true | _ => false)
  else if f.dst / 2 ^ 40 % 2 = 0 then decide (f.dst = d.macOfPort p)
  else s.mcast.any (fun (e : Nat × McastEntry) => decide (e.2.mac = f.dst)) || (d.ptpOn p && ptpMacs.contains f.dst)
    || (match f.body with
        | .nsol _ _ => s.ip6.any (fun x => x.any (fun ip => decide (solicitedMac ip = f.dst)))
        | .mcastQuery _ _ _ => decide (f.dst = 0x01005E000001) || decide (f.dst = 0x333300000001)
        | _ => false)

/-- The destination of an IP packet is accepted. -/
def Dev.ipAccepted (d : Dev) (p : Nat) (f : EthFrame) : Bool :=
  let mine (ip : Nat) : Bool :=
    (d.port p).ips.contains ip || (d.port p).mcast.any (fun (e : Nat × McastEntry) => decide (e.2.ip ≠ 0) && decide (e.2.ip = ip))
  match f.body with
  | .udp u => mine u.dstIp
  | .ip dst => mine dst
  | _ => true

/-- VID of a C-tagged frame; a priority tag counts as none. -/
def tagVid (f : EthFrame) : Option Nat := f.vid.filter (fun v => decide (v ≠ 0))

/-- VLAN filter (R356, R360). -/
def Dev.vlanAccepted (d : Dev) (p : Nat) (f : EthFrame) : Bool :=
  !f.badTag && (match tagVid f with
    | some v => !d.bit (Fld.NET_Pp_CFG_VID_FILT_EN p) || (d.port p).vids.contains v
    | none => !d.bit (Fld.NET_Pp_CFG_UNTAGGED_DROP p))

/-! ## Receivers (R357) -/

/-- A stream entry takes datagrams to the port. -/
def Dev.streamPort (d : Dev) (dport : Nat) : Bool :=
  d.ing.streams.any (fun (s : Nat × StreamSt) => s.2.entries.any (fun e =>
    (decide (e.type = 0) || decide (e.type = 3) || decide (e.type = 4)) && decide (d.udpPortOf e = dport)))

/-- Ingest takes a datagram, where its protocol is enabled. -/
def Dev.udpIngest (k : KeySt) (d : Dev) (p rx : Nat) (ecc : List Nat) (vid : Option Nat) (u : UdpInfo) : Dev :=
  match u.payload with
  | .bytes b =>
    if beNat (slice b 0 1) ≠ 0xAA ∨ b = [] then d.count (Reg.NET_Pp_RX_UNCLAIMED p)
    else if d.ingests Fld.ING_CTRL_C37_EN = false then d.count (Reg.NET_Pp_RX_ING_OFF p)
    else d.ingestC37 { host := false, port := p, vid := vid, dport := u.dstPort, srcIp := u.srcIp, ecc := ecc } u.srcPort rx b
  | .routed f =>
    if d.ingests Fld.ING_CTRL_ROUTED_EN = false then d.count (Reg.NET_Pp_RX_ING_OFF p)
    else if 8192 < u.len then d.count Reg.ING_OVERSIZE
    else ingestApdu k { port := p, vid := vid, dport := u.dstPort, srcIp := u.srcIp, ecc := ecc } rx f d
  | .ptp _ => d.count (Reg.NET_Pp_RX_UNCLAIMED p)

/-- The frame would be a session's command frame but for its CHK. -/
def Dev.sessionNamed (d : Dev) (p dport : Nat) (b : Bytes) : Bool :=
  decide (18 ≤ b.length) && decide (beNat (slice b 0 1) = 0xAA) && decide (c37Type b = 4) &&
    d.net.sess.any (fun (x : Nat × SessSt) => x.2.entry.any (fun e =>
      decide (e.type = 0) && e.portMask.testBit p && decide (e.srcPort = dport) && decide (e.id = beNat (slice b 4 2))))

/-- A datagram to the port goes to ingest. -/
def Dev.toIngest (d : Dev) (dport : Nat) : Bool := d.streamPort dport || decide (dport = d.fld Fld.ING_PORTS_C37_UDP)

/-- Ingest takes no datagram with such a payload while it, or the protocol, is disabled (R87). -/
def Dev.ingestOff (d : Dev) (u : UdpInfo) : Bool :=
  match u.payload with
  | .bytes _ => !d.ingests Fld.ING_CTRL_C37_EN
  | .routed _ => !d.ingests Fld.ING_CTRL_ROUTED_EN
  | .ptp _ => false

/-- A UDP datagram that has passed the filters. DESIGN CHOICE, log 156: the port checks the IPv4 header checksum before a fragment is
told from a whole datagram, and a fragment that meets ingest disabled, on whatever UDP port, counts in RX_ING_OFF. A command frame to
a session's port whose CHK fails is no session's: it goes to ingest where its port does. -/
def Dev.udpRx (k : KeySt) (d : Dev) (p rx : Nat) (f : EthFrame) (u : UdpInfo) : Dev :=
  let vid := tagVid f
  if u.ipSumOk = false then d.count (Reg.NET_Pp_RX_CSUM_ERR p)
  else if u.fragment then
    d.count (if !d.bit Fld.ING_CTRL_EN || (d.toIngest u.dstPort && d.ingestOff u) then Reg.NET_Pp_RX_ING_OFF p else Reg.ING_FRAG_DROP)
  else if u.udpSum = 2 ∨ (u.udpSum = 0 ∧ u.v6 = true) then d.count (Reg.NET_Pp_RX_CSUM_ERR p)
  else if u.dstPort = 319 ∨ u.dstPort = 320 then
    match u.payload with
    | .ptp m => d.ptpRx p m rx none f.preempted
    | _ => if d.ptpOn p then d.count (Reg.TIM_Pp_UNSUPP p) else d
  else
    let b : Bytes := match u.payload with | .bytes b => b | _ => []
    match d.sessionFor p u.dstPort b with
    | some (s, e) =>
      if 8192 < b.length then d.count Reg.ING_OVERSIZE
      else if d.c37Version b = false then d.count64 Reg.ING_UNMATCHED_LO
      else d.sessCommand { host := false, port := p, vid := vid, dport := u.dstPort, srcIp := u.srcIp } f.src u.srcPort rx s e b
    | none =>
      if d.toIngest u.dstPort then Dev.udpIngest k d p rx f.ecc vid u
      else if d.sessionNamed p u.dstPort b then
        (if d.ingests Fld.ING_CTRL_C37_EN then d.count64 Reg.ING_CHECK_ERR_LO else d.count (Reg.NET_Pp_RX_ING_OFF p))
      else d.count (Reg.NET_Pp_RX_UNCLAIMED p)

/-- The port answers an ARP request for one of its addresses. -/
def Dev.arpRx (d : Dev) (p target sender senderMac : Nat) : Dev :=
  if (d.port p).ip4.contains (some target) then d.queueFrame p 6 { size := 64, body := .arpReply target (d.macOfPort p) sender senderMac } else d

def Dev.nsolRx (d : Dev) (p target sender : Nat) : Dev :=
  if (d.port p).ip6.contains (some target) then d.queueFrame p 6 { size := 90, body := .nadv target (d.macOfPort p) sender } else d

/-- A frame that has passed the filters goes to its receiver. -/
def Dev.dispatchFrame (k : KeySt) (d : Dev) (p rx : Nat) (f : EthFrame) : Dev :=
  match f.body with
  | .arp t s m => d.arpRx p t s m
  | .nsol t s => d.nsolRx p t s
  | .mcastQuery v6 g ms => d.modPort p (fun s => { s with queries := s.queries ++ [(v6, g, d.up + ms * 1000000)] })
  | .ptp m => d.ptpRx p m rx (some f.dst) f.preempted
  | .sv a =>
    if d.ingests Fld.ING_CTRL_SV_EN = false then d.count (Reg.NET_Pp_RX_ING_OFF p)
    else if 8192 + 18 + 4 * b2n f.vid.isSome < f.size then d.count Reg.ING_OVERSIZE
    else ingestApdu k { port := p, vid := tagVid f, mac := some f.src, ecc := f.ecc } rx a d
  | .udp u => Dev.udpRx k d p rx f u
  | .pause _ | .pfc _ _ | .arpReply _ _ | .ip _ | .other => d.count (Reg.NET_Pp_RX_UNCLAIMED p)

/-- The receive time-stamp of a frame whose message timestamp point lay `age` ns ago, with the phase of its capture (R391). -/
def Dev.rxStamp (d : Dev) (p age phase : Nat) : Nat :=
  d.stampAt (d.up - age) phase (-ofTwos 16 (d.fld (Fld.TIM_Pp_LAT_RX_LAT p)))

/-- What the frame carries to a port: a protected frame is of no known kind where MACsec is not enabled. -/
def Dev.seenAs (d : Dev) (p : Nat) (f : EthFrame) : EthFrame :=
  if f.macsec.isSome && !(d.port p).macsecOn then { f with body := .other } else f

/-- RS-FEC runs on the port (R355). -/
def Dev.fecOn (d : Dev) (p : Nat) : Bool := decide (d.fld (Fld.NET_Pp_CFG_MODE p) = 0) && d.bit (Fld.NET_Pp_CFG_FEC_EN p)

/-- A whole frame has been received. -/
def Dev.ethRx (k : KeySt) (d0 : Dev) (p age phase : Nat) (f0 : EthFrame) : Dev :=
  let f := d0.seenAs p f0
  if !(decide (p < 4) && d0.bit (Fld.NET_Pp_CFG_EN p) && d0.bit (Fld.NET_Pp_STATUS_LINK p)) then d0
  else
    let d := if d0.fecOn p then (d0.count (Reg.NET_Pp_FEC_CORR p) f.fecCorr).count (Reg.NET_Pp_FEC_UNCORR p) f.fecUncorr else d0
    match f.line with
    | .fcsBad => d.count (Reg.NET_Pp_RX_FCS_ERR p)
    | .smdBad => d.count (Reg.NET_Pp_RX_SMD_ERR p)
    | .codeBad => d.count (Reg.NET_Pp_RX_PCS_ERR p)
    | .good =>
      if f.size < 64 ∨ d.fld (Fld.NET_Pp_FRAME_MAX_FRAME p) + 4 * b2n f.vid.isSome < f.size then d.count (Reg.NET_Pp_RX_SIZE_ERR p)
      else
        let d1 := (d.count64 (Reg.NET_Pp_RX_FRAMES_LO p)).count64 (Reg.NET_Pp_RX_BYTES_LO p) f.size
        match f.body with
        | .pause q => d1.rxPause p q
        | .pfc en qs => d1.rxPfc p en qs
        | _ =>
          let sec : Dev × Bool :=
            if d1.macsecBypass p f then (d1, true)
            else match f.macsec with | some t => Dev.macsecRx k d1 p t | none => (d1, false)
          if sec.2 = false then sec.1.count (Reg.NET_Pp_RX_MACSEC_ERR p)
          else if !(sec.1.vlanAccepted p f && sec.1.macAccepted p f && sec.1.ipAccepted p f) then sec.1.count (Reg.NET_Pp_RX_FILT_DROP p)
          else Dev.dispatchFrame k sec.1 p (sec.1.rxStamp p age phase) f

end Sys2Proof.Machine
end

