-- ==== Sys2Proof/Machine/NetRows.lean ====
section
/-! DEFINITION. The rows of the table of operations that concern the Ethernet ports, the sessions and the field MACs: port control,
SFP modules, MDIO, multicast, MACsec, sessions (R355 to R388). -/

namespace Sys2Proof.Machine

open Sys2Proof

/-! ## SFP modules (R383, R384) -/

/-- A sum of bytes modulo 256. -/
def sum8 (b : Bytes) : Nat := b.foldl (fun a x => a + x.toNat) 0 % 256

/-- Page A0h identifies an SFP module: byte 0 and both checks, CC_BASE over bytes 0 to 62 and CC_EXT over bytes 64 to 94. -/
def sfpIdOk (a0 : Bytes) : Bool :=
  decide (a0.length = 256) && decide (fieldAt a0 0 1 = 3) && decide (sum8 (slice a0 0 63) = fieldAt a0 63 1)
    && decide (sum8 (slice a0 64 31) = fieldAt a0 95 1)

/-- The compliance codes and the nominal rate cover the mode. -/
def sfpCovers (a0 : Bytes) (mode : Nat) : Bool :=
  let rate := fieldAt a0 12 1
  if mode = 0 then decide (250 ≤ rate)
  else if mode = 1 then decide (16 ≤ fieldAt a0 3 1) || decide (100 ≤ rate)
  else decide (fieldAt a0 6 1 % 8 ≠ 0) || (decide (10 ≤ rate) && decide (rate ≤ 13))

/-- The alarm flags of page A2h: bytes 112 and 113. -/
def sfpFlags (a2 : Bytes) : Nat := fieldAt a2 112 2

/-- SFP_ID_OK and MODE_MISMATCH follow the module; a change of either, or of the alarm flags, is announced. -/
def Dev.judgeSfp (d : Dev) (p : Nat) (flagsBefore : Nat) : Dev :=
  let s := d.port p
  let inserted := !d.bit (Fld.NET_Pp_STATUS_MOD_ABS p)
  let ok := inserted && sfpIdOk s.sfp.a0
  let bad := inserted && !sfpCovers s.sfp.a0 (d.fld (Fld.NET_Pp_CFG_MODE p))
  let changed := decide (ok ≠ d.bit (Fld.NET_Pp_STATUS_SFP_ID_OK p)) || decide (bad ≠ d.bit (Fld.NET_Pp_STATUS_MODE_MISMATCH p))
    || decide (sfpFlags s.sfp.a2 ≠ flagsBefore)
  let d1 := (d.setBit (Fld.NET_Pp_STATUS_SFP_ID_OK p) ok).setBit (Fld.NET_Pp_STATUS_MODE_MISMATCH p) bad
  if changed then d1.event .sfpChange p (d1.regN (Reg.NET_Pp_STATUS p) % 65536) (sfpFlags s.sfp.a2) else d1

/-- Page A0h of the module in the cage is read (R383). -/
def Dev.readSfp (d : Dev) (p : Nat) : Dev := d.modPort p (fun s => { s with sfp := { s.sfp with a0 := s.sfp.module } })

/-- MOD_ABS falls, and page A0h is read. -/
def Dev.sfpInsert (d : Dev) (p : Nat) (a0 : Bytes) : Dev :=
  if 3 < p then d
  else
    (((d.setBit (Fld.NET_Pp_STATUS_MOD_ABS p) false).modPort p (fun s => { s with sfp := { module := slice a0 0 256 } })).readSfp p).judgeSfp p
      (sfpFlags (d.port p).sfp.a2)

/-- MOD_ABS rises: TX_DISABLE goes high, so the link goes down. -/
def Dev.sfpRemove (d : Dev) (p : Nat) : Dev :=
  if 3 < p ∨ d.bit (Fld.NET_Pp_STATUS_MOD_ABS p) = true then d
  else
    (((d.ethDown p).setBit (Fld.NET_Pp_STATUS_MOD_ABS p) true).modPort p (fun s => { s with sfp := {} })).judgeSfp p
      (sfpFlags (d.port p).sfp.a2)

/-- Page A2h is read, where the module has it and housekeeping is not deferred. -/
def Dev.sfpPoll (d : Dev) (p : Nat) (a2 : Bytes) : Dev :=
  let s := d.port p
  if 3 < p ∨ d.bit (Fld.NET_Pp_STATUS_MOD_ABS p) = true ∨ d.bit Fld.SCH_MC_LOAD_DEFER = true ∨ (fieldAt s.sfp.a0 92 1).testBit 6 = false then d
  else (d.modPort p (fun x => { x with sfp := { x.sfp with a2 := slice a2 0 256, polled := true } })).judgeSfp p (sfpFlags s.sfp.a2)

/-- TX_DISABLE and the two rate-select pins of a port (R384). -/
def Dev.txDisable (d : Dev) (p : Nat) : Bool := !d.bit (Fld.NET_Pp_CFG_EN p) || d.bit (Fld.NET_Pp_STATUS_MOD_ABS p)

def Dev.rateSelect (d : Dev) (p : Nat) : Bool × Bool := Config.rateSelect (d.fld (Fld.NET_Pp_CFG_MODE p))

/-! ## Port control (R355, R358, R362) -/

/-- Preemption follows its settings while the link is up. -/
def Dev.judgePreempt (was d : Dev) (p : Nat) : Dev :=
  let set (x : Dev) : Nat × Nat := (x.fld (Fld.NET_Pp_CFG_PREEMPT_EN p), x.fld (Fld.NET_Pp_CFG_VERIFY_DIS p))
  if set was = set d ∨ d.bit (Fld.NET_Pp_STATUS_LINK p) = false then d
  else
    let pre := d.bit (Fld.NET_Pp_CFG_PREEMPT_EN p)
    let noVer := d.bit (Fld.NET_Pp_CFG_VERIFY_DIS p)
    (d.setFld (Fld.NET_Pp_STATUS_VERIFY p) (b2n (pre && !noVer))).setBit (Fld.NET_Pp_STATUS_PREEMPT_ACTIVE p) (pre && noVer)

/-- NET_Pp_CFG is written. EN stays 0 while the MAC address is 0; port enable reads page A0h. -/
def writeNetCfg (p : Nat) (v : Word) (d : Dev) : Dev :=
  let was := d.bit (Fld.NET_Pp_CFG_EN p)
  let d1 := d.writePlain (Reg.NET_Pp_CFG p) v
  let on := d1.bit (Fld.NET_Pp_CFG_EN p)
  if !was && on && decide (d1.macOfPort p = 0) then (d1.setBit (Fld.NET_Pp_CFG_EN p) false).setBit Fld.NET_STATUS_CFG_ERR true
  else
    let d2 := if was && !on then d1.ethDown p else if on && !was then d1.readSfp p else d1
    (Dev.judgePreempt d d2 p).judgeSfp p (sfpFlags (d2.port p).sfp.a2)

/-- NET_FLD_CFG takes a value: a field MAC that stops drops the frame it was sending. -/
def takeFldCfg (v : Word) (d : Dev) : Dev :=
  let d1 := (d.modNet (fun n => { n with fldWait := none })).writePlain Reg.NET_FLD_CFG v
  (List.range 2).foldl (fun (x : Dev) g => if x.fbit Fld.NET_FLD_CFG_EN g then x else (x.fieldSettle g).setFieldTx g none) d1

/-- NET_FLD_CFG is written. A write that enables a segment waits while the back-off generators have no seeds (R479, R543). -/
def writeFldCfg (v : Word) (d : Dev) : Dev :=
  if d.net.seedsHeld && decide (v.toNat % 4 ≠ 0) then d.modNet (fun n => { n with fldWait := some v }) else takeFldCfg v d

/-- Random output is released: the generators are seeded, and a segment's enable that waits takes effect. -/
def Dev.seedFields (d : Dev) : Dev :=
  let d1 := d.modNet (fun n => { n with seedsHeld := false })
  match d.net.fldWait with | some v => takeFldCfg v d1 | none => d1

/-- NET_MDIO is written (R380). An access in progress is not disturbed. -/
def writeMdio (v : Word) (d : Dev) : Dev :=
  if d.bit Fld.NET_MDIO_BUSY then d
  else
    let d1 := d.writePlain Reg.NET_MDIO v
    if bitsAt v 30 1 = 1 then
      ((d1.setBit Fld.NET_MDIO_BUSY true).modNet (fun n => { n with mdioBusy := true })).emit
        (.mdio (d1.bit Fld.NET_MDIO_WRITE) (d1.fld Fld.NET_MDIO_PHYAD) (d1.fld Fld.NET_MDIO_REGAD) (d1.fld Fld.NET_MDIO_DATA))
    else d1

/-- The access ends, with the PHY's answer to a read. -/
def Dev.mdioDone (d : Dev) (data : Nat) : Dev :=
  if d.bit Fld.NET_MDIO_BUSY then
    let d1 := (d.setBit Fld.NET_MDIO_BUSY false).modNet (fun n => { n with mdioBusy := false })
    if d1.bit Fld.NET_MDIO_WRITE then d1 else d1.setFld Fld.NET_MDIO_DATA data
  else d

/-! ## Multicast (R359) -/

/-- A group of IPv6: every address but those of the form ::ffff:a.b.c.d. -/
def isV6 (ip : Nat) : Bool := decide (ip / 2 ^ 32 ≠ 0xFFFF)

/-- A report or a leave goes to Q6 of a port whose link is up. -/
def Dev.sendReport (d : Dev) (p ip : Nat) (join : Bool) : Dev :=
  if d.bit (Fld.NET_Pp_STATUS_LINK p) && decide (ip ≠ 0) then
    d.queueFrame p 6 { size := if isV6 ip then 94 else 64, body := .mcastReport (isV6 ip) ip join }
  else d

/-- A group address of IPv4 or IPv6. -/
def isGroupIp (ip : Nat) : Bool := decide (ip / 2 ^ 120 = 0xFF) || (!isV6 ip && decide (ip % 2 ^ 32 / 2 ^ 28 = 0xE))

/-- An entry of the multicast table changes: a leave for the old group, and for a new one with JOIN two reports 1 s apart. -/
def Dev.mcastChange (d : Dev) (p entry : Nat) (new : Option McastEntry) : Dev :=
  let old := (d.port p).mcast.find entry
  let joins := new.any (fun e => e.join)
  let d1 := match old with | some o => if o.join then d.sendReport p o.ip false else d | none => d
  let d2 := d1.modPort p (fun s => { s with
    mcast := (match new with | some e => s.mcast.put entry e | none => s.mcast.drop entry)
    reports := s.reports.filter (fun r => decide (r.1 ≠ entry)) ++ (if joins then [(entry, d.up + 1000000000)] else []) })
  match new with | some e => if e.join then d2.sendReport p e.ip true else d2 | none => d2

/-- The operands of NET_MCAST_SET are in range. -/
def mcastFits (p entry mac ip : Nat) (valid : Bool) : Bool :=
  decide (p < 4) && decide (entry < 64)
    && (!valid || (decide (mac < 2 ^ 48) && decide (mac / 2 ^ 40 % 2 = 1) && (decide (ip = 0) || isGroupIp ip)))

def mcastSet (p entry mac ip : Nat) (join valid : Bool) (d : Dev) : Dev × CmdRes :=
  let new : Option McastEntry := if valid then some { mac := mac, ip := ip, join := join } else none
  if mcastFits p entry mac ip valid = false then (d, .done sRange 0)
  else if (d.port p).mcast.find entry = new then (d, .ok)
  else (d.mcastChange p entry new, .ok)

/-- Second reports that are due. -/
def Dev.mcastTimer (d : Dev) (p : Nat) : Dev :=
  let due := (d.port p).reports.filter (fun r => decide (r.2 ≤ d.up))
  let d1 := d.modPort p (fun s => { s with reports := s.reports.filter (fun r => decide (d.up < r.2)) })
  due.foldl (fun (x : Dev) (r : Nat × Nat) =>
    match (x.port p).mcast.find r.1 with | some e => if e.join then x.sendReport p e.ip true else x | none => x) d1

/-- The oldest query is answered for the joined groups it asks for. -/
def Dev.answerQuery (d : Dev) (p : Nat) : Dev :=
  match (d.port p).queries with
  | [] => d
  | (v6, g, _) :: rest =>
    let d1 := d.modPort p (fun s => { s with queries := rest })
    (d1.port p).mcast.foldl (fun (x : Dev) (e : Nat × McastEntry) =>
      if e.2.join && decide (isV6 e.2.ip = v6) && (decide (g = 0) || decide (g = e.2.ip)) then x.sendReport p e.2.ip true else x) d1

/-! ## MACsec (R368, R370) -/

/-- The channel of a direction. -/
def Dev.secChan (d : Dev) (p : Nat) (rx : Bool) (ch : Nat) : Option SecChan := if rx then (d.port p).rxSc.find ch else (d.port p).txSc

/-- A channel of a direction is set or removed; MACSEC_ACTIVE shows whether any is left. -/
def Dev.putChan (d : Dev) (p : Nat) (rx : Bool) (ch : Nat) (sc : Option SecChan) : Dev :=
  let y := d.modPort p (fun t =>
    if rx then { t with rxSc := (match sc with | some c => t.rxSc.put ch c | none => t.rxSc.drop ch) } else { t with txSc := sc })
  y.setBit (Fld.NET_Pp_STATUS_MACSEC_ACTIVE p) ((y.port p).txSc.isSome || !(y.port p).rxSc.isEmpty)

/-- An association is installed with packet number 1: in the channel that there is, or in a new one where SCI or suite differ. -/
def Dev.installKey (d : Dev) (p : Nat) (rx : Bool) (ch sci an slot : Nat) (xpn conf : Bool) (window : Nat) : Dev :=
  let new : SecChan := { sci := sci, xpn := xpn, conf := conf, window := window, an := an }
  let base : SecChan := match d.secChan p rx ch with
    | some sc => if sc.sci = sci ∧ sc.xpn = xpn then { sc with conf := conf, window := window } else new
    | none => new
  let sc : SecChan := { base with assocs := base.assocs.put an { slot := slot, pn := 1 }, an := if (d.port p).txStopped && !rx then an else base.an }
  let d1 := (d.putChan p rx ch (some sc)).modPort p (fun t => if rx then { t with rxStopped := false } else { t with txStopped := false })
  let d2 := if rx then d1 else d1.setBit (Fld.NET_Pp_STATUS_PN_EXHAUSTED p) false
  let orphaned := if rx then (d2.port p).txStopped && !d2.bit (Fld.NET_Pp_STATUS_PN_EXHAUSTED p) else (d2.port p).rxStopped
  d2.setBit (Fld.NET_Pp_STATUS_KEY_ORPHANED p) (d2.bit (Fld.NET_Pp_STATUS_KEY_ORPHANED p) && orphaned)

/-- An association is removed; a channel without any goes. -/
def Dev.removeKey (d : Dev) (p : Nat) (rx : Bool) (ch an : Nat) : Dev :=
  match d.secChan p rx ch with
  | none => d
  | some sc => d.putChan p rx ch (if (sc.assocs.drop an).isEmpty then none else some { sc with assocs := sc.assocs.drop an })

/-- The operands of MACSEC_SET are in range. -/
def macsecFits (p : Nat) (rx : Bool) (ch sci an slot window : Nat) : Bool :=
  decide (p < 4) && decide (ch < 8) && (rx || decide (ch = 0)) && decide (sci < 2 ^ 64) && decide (an < 4) && decide (slot < 1024)
    && decide (window < 2 ^ 32)

def macsecSet (k : KeySt) (p : Nat) (rx : Bool) (ch sci an slot : Nat) (xpn conf : Bool) (window : Nat) (en : Bool) (d : Dev) : Dev × CmdRes :=
  if macsecFits p rx ch sci an slot window = false then (d, .done sRange 0)
  else if en = false then (d.removeKey p rx ch an, .ok)
  else if (k.slot slot).all (fun sl => decide (sl.world ≠ worldMacsec)) then (d, .done sRange 0)
  else
    match worldMacsecOk k slot with
    | .error st => (d.countUse (.error st : Except Nat Slot), .done (if st = sKeyOrphaned then sKeyOrphaned else sRange) 0)
    | .ok _ => (d.installKey p rx ch sci an slot xpn conf window, .ok)

/-! ## Addresses and VIDs (R358, R360, R387) -/

def netAddrSet (p : Nat) (ip4 ip6 : List (Option Nat)) (d : Dev) : Dev × CmdRes :=
  if 3 < p ∨ ip4.length ≠ 4 ∨ ip6.length ≠ 4 ∨ ip4.any (fun x => x.any (fun v => decide (2 ^ 32 ≤ v))) = true
      ∨ ip6.any (fun x => x.any (fun v => decide (2 ^ 128 ≤ v))) = true then (d, .done sRange 0)
  else (d.modPort p (fun s => { s with ip4 := ip4, ip6 := ip6 }), .ok)

def netVidSet (p : Nat) (vids : List (Option Nat)) (d : Dev) : Dev × CmdRes :=
  if 3 < p ∨ vids.length ≠ 64 ∨ vids.any (fun x => x.any (fun v => decide (4096 ≤ v))) = true then (d, .done sRange 0)
  else (d.modPort p (fun s => { s with vids := vids.filterMap id }), .ok)

/-- Page A2h as reported: its measured values are converted where bit 5 of the diagnostic type is set, else raw (R383). DESIGN CHOICE,
log 175: the spec states no form of a converted value, so those bytes are free values. -/
def SfpSt.reported (s : SfpSt) : Bytes :=
  let a2 := s.a2 ++ zeros (256 - s.a2.length)
  if (fieldAt s.a0 92 1).testBit 5 && s.polled then a2.take 96 ++ slice (Config.sfpConverted (slice a2 96 10) ++ zeros 10) 0 10 ++ a2.drop 106 else a2

def sfpRead (p page : Nat) (buf : HostBuf) (d : Dev) : Dev × CmdRes :=
  if 3 < p ∨ (page ≠ 0xA0 ∧ page ≠ 0xA2) ∨ buf.len < 256 then (d, .done sRange 0)
  else if d.bit (Fld.NET_Pp_STATUS_MOD_ABS p) then (d, .done sNotValid 0)
  else (d, .block (slice ((if page = 0xA0 then (d.port p).sfp.a0 else (d.port p).sfp.reported) ++ zeros 256) 0 256) (some buf.addr))

/-- The clock gate of a port's commands (R539). -/
def portGate (p : Nat) : Option Nat := if p < 4 then some (5 + p) else none

/-! ## Rows -/

/-- NET_PORT_ENABLE (R358): a write of NET_Pp_CFG. -/
def execNetPortEnable (port : Nat) (value : Word) (s : State) : Answer :=
  s.run 0 (fun _ d => if 3 < port ∨ d.gatedAt (Reg.NET_Pp_CFG port) = true then d else writeNetCfg port value d)

/-- NET_FLD_ENABLE (R380): a write of NET_FLD_CFG. -/
def execNetFldEnable (value : Word) (s : State) : Answer := s.run 0 (fun _ d => d.unlessGated Reg.NET_FLD_CFG (writeFldCfg value))

/-- MDIO_START (R380): a write of NET_MDIO. -/
def execMdioStart (value : Word) (s : State) : Answer := s.run 0 (fun _ d => d.unlessGated Reg.NET_MDIO (writeMdio value))

/-- MDIO_DONE (R380): `data` is what the PHY answers to a read. -/
def execMdioDone (dt data : Nat) (s : State) : Answer := s.run dt (fun _ d => d.mdioDone data)

/-- ETH_FRAME_RX (R357): a whole frame; its message timestamp point lay `age` ns ago and was captured in phase `phase` of TCLK. -/
def execEthFrameRx (dt port age phase : Nat) (frame : EthFrame) (s : State) : Answer := s.run dt (fun k d => Dev.ethRx k d port age phase frame)

/-- MCAST_QUERY_ANSWER (R359). -/
def execMcastQueryAnswer (dt port : Nat) (s : State) : Answer := s.run dt (fun _ d => d.answerQuery port)

/-- MCAST_REPORT_TIMER (R359). -/
def execMcastReportTimer (dt port : Nat) (s : State) : Answer := s.run dt (fun _ d => d.mcastTimer port)

/-- ETH_LINK_UP (R355). -/
def execEthLinkUp (dt port : Nat) (s : State) : Answer := s.run dt (fun _ d => d.ethUp port)

/-- ETH_LINK_DOWN (R364): `los` tells whether the module reports loss of signal. -/
def execEthLinkDown (dt port : Nat) (los : Bool) (s : State) : Answer :=
  s.run dt (fun _ d => if 3 < port then d else (d.ethDown port).setBit (Fld.NET_Pp_STATUS_LOS port) los)

/-- PREEMPT_VERIFY (R362). -/
def execPreemptVerify (dt port : Nat) (ok : Bool) (s : State) : Answer := s.run dt (fun _ d => d.preemptVerify port ok)

/-- FRAME_TRANSMIT (R361): `phase` is the phase of TCLK in which the stamp of a PTP event frame is taken. -/
def execFrameTransmit (dt port phase : Nat) (s : State) : Answer := s.run dt (fun k d => Dev.transmitFrame k d port phase)

/-- PAUSE_EXPIRE (R365). -/
def execPauseExpire (dt port : Nat) (s : State) : Answer := s.run dt (fun _ d => if 3 < port then d else d.settlePause port)

/-- SESSION_PUBLISH (R373). -/
def execSessionPublish (dt sess : Nat) (s : State) : Answer := s.run dt (fun k d => Dev.sessItem k d sess)

/-- SESSION_GOOSE_RETRANSMIT (R378). -/
def execSessionGooseRetransmit (dt sess : Nat) (s : State) : Answer := s.run dt (fun k d => Dev.sessRetransmit k d sess)

/-- SFP_INSERT (R383): the 256 bytes of page A0h. -/
def execSfpInsert (dt port : Nat) (a0 : Bytes) (s : State) : Answer := s.run dt (fun _ d => d.sfpInsert port a0)

/-- SFP_POLL (R383): the 256 bytes of page A2h. -/
def execSfpPoll (dt port : Nat) (a2 : Bytes) (s : State) : Answer := s.run dt (fun _ d => d.sfpPoll port a2)

/-- SFP_REMOVE (R384). -/
def execSfpRemove (dt port : Nat) (s : State) : Answer := s.run dt (fun _ d => d.sfpRemove port)

/-- TX_FAULT_RISE (R384). -/
def execTxFaultRise (dt port : Nat) (s : State) : Answer :=
  s.run dt (fun _ d => if 3 < port then d else (d.ethDown port).setBit (Fld.NET_Pp_STATUS_TX_FAULT port) true)

/-- NET_ADDR_SET (R358). -/
def execNetAddrSet (c : Ctx) (port : Nat) (ip4 ip6 : List (Option Nat)) (s : State) : Answer :=
  s.run 0 (fun _ d => d.accept c false (portGate port) (netAddrSet port ip4 ip6))

/-- NET_MCAST_SET (R359): `ip` is the IP group, an IPv4 one as ::ffff:a.b.c.d, or 0. -/
def execNetMcastSet (c : Ctx) (port entry mac ip : Nat) (join valid : Bool) (s : State) : Answer :=
  s.run 0 (fun _ d => d.accept c false (portGate port) (mcastSet port entry mac ip join valid))

/-- NET_VID_SET (R360). -/
def execNetVidSet (c : Ctx) (port : Nat) (vids : List (Option Nat)) (s : State) : Answer :=
  s.run 0 (fun _ d => d.accept c false (portGate port) (netVidSet port vids))

/-- MACSEC_SET (R368): `rx` is the direction. -/
def execMacsecSet (c : Ctx) (port : Nat) (rx : Bool) (chan sci an slot : Nat) (xpn conf : Bool) (window : Nat) (en : Bool) (s : State) : Answer :=
  s.run 0 (fun k d => d.accept c false (portGate port) (macsecSet k port rx chan sci an slot xpn conf window en))

/-- SESS_SET (R372). -/
def execSessSet (c : Ctx) (sess : Nat) (image : Bytes) (s : State) : Answer := s.run 0 (fun k d => d.accept c false none (sessSet k sess image))

/-- SESS_LIST_SET (R372). -/
def execSessListSet (c : Ctx) (first count : Nat) (images : Bytes) (s : State) : Answer :=
  s.run 0 (fun _ d => d.accept c false none (sessListSet first count images))

/-- SESS_CFG_FRAME (R376): `frame` is the content of the host buffer. -/
def execSessCfgFrame (c : Ctx) (sess kind : Nat) (frame : Bytes) (s : State) : Answer :=
  s.run 0 (fun _ d => d.accept c false none (sessCfgFrame sess kind frame))

/-- SESS_CTRL (R376). -/
def execSessCtrl (c : Ctx) (sess : Nat) (txOn cfgPending : Bool) (s : State) : Answer :=
  s.run 0 (fun k d => d.accept c false none (sessCtrl k sess txOn cfgPending))

/-- SESS_STATS (R387). -/
def execSessStats (c : Ctx) (sess : Nat) (s : State) : Answer := s.run 0 (fun _ d => d.accept c false none (sessStats sess))

/-- SFP_READ (R387). -/
def execSfpRead (c : Ctx) (port page : Nat) (buf : HostBuf) (s : State) : Answer :=
  s.run 0 (fun _ d => d.accept c false (portGate port) (sfpRead port page buf))

end Sys2Proof.Machine
end

