-- ==== Sys2Proof/Machine/SafOps.lean ====
section
/-! DEFINITION. The safety monitor: errors and diagnostics, recovery, engine self-tests, the management cores, proof tests
(R514 to R530, R579). -/

namespace Sys2Proof.Machine

open Sys2Proof

/-! ## Errors (R519 to R521) -/

/-- The reaction beside the queue that a class brings with it: the LE pair's program enters FAULT, and an engine whose self-test
failed is retired (R293, R340, R519). -/
def Dev.reaction (d : Dev) (cls index : Nat) : Dev :=
  if cls = eLockstep ∧ index = 0 ∧ d.cyc.running = true then (d.count Reg.CYC_LOCKSTEP).cycHalt 2 (some 1)
  else if cls = eSelftest then d.retire index 1
  else d

/-- An error of a class is raised. ENGINE_LOSS comes with its own level, 2 or 3 (R341, R193). FORCED comes from SAF_FORCE alone, and
OVERFLOW from a full queue (R521, R529). -/
def Dev.errorRaised (d : Dev) (cls index diag status level : Nat) : Dev :=
  if cls = 0 ∨ eForced ≤ cls then d
  else (d.raiseAt cls (index % 65536) (status % 256) (diag % 256)
    (if cls = eEngineLoss then (if level = 3 then 3 else 2) else initialLevel cls)).reaction cls (index % 65536)

/-- Level 2 entries of a class and INDEX whose condition is back: their CLOSE_MS no longer runs (R520). -/
def Dev.reopens (d : Dev) (cls index : Nat) : Dev :=
  d.modSaf (fun s => { s with queue := s.queue.map (fun e =>
    if e.cls = cls ∧ e.index = index ∧ e.level = 2 then { e with clearAt := none } else e) })

/-- The condition of the level 2 entries of a class and INDEX has gone: their CLOSE_MS runs from now (R520). -/
def Dev.passes (d : Dev) (cls index : Nat) : Dev :=
  d.modSaf (fun s => { s with queue := s.queue.map (fun e =>
    if e.cls = cls ∧ e.index = index ∧ e.level = 2 ∧ e.clearAt.isNone then { e with clearAt := some d.up } else e) })

/-- An entry closes. -/
def Dev.closeEntry (d : Dev) (seq : Nat) : Dev :=
  let due (e : ErrEntry) : Bool :=
    decide (e.seq = seq) && decide (e.level < 3) && e.clearAt.any (fun t => decide (t + d.fld Fld.SAF_CFG_CLOSE_MS * 1000000 ≤ d.up))
  (d.modSaf (fun s => { s with queue := s.queue.filter (fun e => !due e) })).refreshSaf

/-- The class that a diagnostic raises; DG12 raises none. -/
def diagClass (dg : Nat) : Option Nat :=
  [some eDeDisagree, some eDecisionLate, some eStoreCheck, some eMemUncorr, some eLockstep, some ePin, some eExpress, some eClock,
   some eTimeBase, some eSupply, some eTemp, some eSelftest, none, some eMonitor, some eMemUncorr][dg]?.join

/-- A diagnostic that raises this class is failing at this INDEX. -/
def Dev.stillFails (d : Dev) (cls index : Nat) : Bool := d.saf.failing.any (fun x => decide (diagClass x.1 = some cls ∧ x.2 = index))

/-- A recovery is complete, or a condition has cleared. An entry above level 1 waits for its diagnostic (R520). -/
def Dev.recoveryDone (d : Dev) (cls index : Nat) : Dev :=
  let ready : Bool :=
    if cls = eDeDisagree then d.saf.recoveryTests.isEmpty
    else if cls = eLockstep ∧ index = 1 then !d.saf.mcRestart
    else if cls = eEngineLoss then decide (12 ≤ d.activePes) && decide (0 < d.deCount)
    else true
  if ready then d.clears cls index (if d.stillFails cls index then 2 else 3) else d

/-! ## Diagnostics (R517) -/

/-- DIAG_FAIL shows the diagnostics that fail now, DG12 among them. -/
def Dev.refreshDiag (d : Dev) : Dev :=
  d.setFld Fld.SAF_STATUS_DIAG_FAIL (maskOf (d.saf.failing.map (fun x => x.1) ++ (if d.bit Fld.SAF_STATUS_MGMT_STALL then [12] else [])))

/-- What DG9 and DG10 show beside their result: the rail's bit, and the hottest junction with its sensor. -/
def Dev.diagReading (d : Dev) (dg index reading : Nat) (ok : Bool) : Dev :=
  if dg = 9 then d.setFbit Fld.PWR_STATUS_RAIL_OK index (ok && decide (index < 8))
  else if dg = 10 then (d.setFld Fld.PWR_TEMP_TJ_MAX reading).setFld Fld.PWR_TEMP_SENSOR index
  else d

/-- A diagnostic has run. A failure raises its class once, until it has passed or another INDEX fails. Errors that it has corrected
are counted, never raised. -/
def Dev.diagnostic (d0 : Dev) (dg index : Nat) (ok : Bool) (reading corrected : Nat) : Dev :=
  let idx := if dg = 14 then 10 else index % 65536
  let d := (d0.diagReading dg index reading ok).count64 Reg.SAF_CORRECTED_LO corrected
  match diagClass dg with
  | none => d
  | some cls =>
    if ok then
      let was := d.saf.failing.contains (dg, idx)
      let d1 := (d.modSaf (fun s => { s with failing := s.failing.filter (fun x => decide (x ≠ (dg, idx))) })).refreshDiag
      if was ∧ !d1.stillFails cls idx then d1.passes cls idx else d1
    else if d.saf.failing.contains (dg, idx) then d
    else (((d.modSaf (fun s => { s with failing := s.failing ++ [(dg, idx)] })).refreshDiag).errorRaised cls idx dg sOk 0).reopens cls idx

/-- What DG14's signature covers: the RWL bits of the FUM, ISL and SAF registers, then the valid entries of the rule, node and branch
tables. -/
def Dev.safetyContent (d : Dev) : List Nat :=
  let rwl := (rwlRegs.filter (fun (x : Nat × Nat) => decide (0x082000 ≤ x.1 ∧ x.1 < 0x0A0000) || decide (0x160000 ≤ x.1 ∧ x.1 < 0x170000))).map
    (fun (x : Nat × Nat) => (d.reg x.1).toNat &&& x.2)
  let rules := d.fum.rules.flatMap (fun (x : Nat × RuleSt) => match x.2.entry.cur with
    | none => []
    | some r => [x.1, r.op, r.comp, r.missPolicy, b2n r.usePred, b2n r.testOk, b2n r.latch, b2n r.failAssert, r.severity, r.slotA, r.slotB, r.onN,
        r.offN, r.t1.toNat, r.t2.toNat, r.hyst.toNat] ++ r.bits ++ [r.inv, r.nbits, b2n r.comb, b2n r.gateEn, r.gate, r.pins, r.group, b2n r.groupEn,
        b2n r.gateInv, r.stuckS, r.chatN, r.chatWin])
  let nodes := d.isl.nodes.flatMap (fun (x : Nat × Held NodeEntry) => match x.2.cur with
    | none => [] | some n => [x.1, n.freqSlot, n.angleSlot, n.globalId, b2n n.angleEn, n.area])
  let branches := d.isl.branches.flatMap (fun (x : Nat × Held BranchEntry) => match x.2.cur with
    | none => []
    | some b => [x.1, b.nodeA, b.nodeB, b.brk1, b.brk2, b.bit1, b.bit2, b2n b.en1, b2n b.en2, b2n b.unknownClosed, b.cohSet, b2n b.cohEn])
  rwl ++ rules ++ nodes ++ branches

/-! ## Safety rules (R516) -/

/-- The condition-vector bits that a rule reads, under OP 6 and as its gate. -/
def RuleEntry.readBits (r : RuleEntry) : List Nat := (if r.op = 6 then r.bits.take r.nbits else []) ++ (if r.gateEn then [r.gate] else [])

/-- A condition-vector bit from inside the safety boundary, where `out` are the groups that a rule from outside it feeds. -/
def insideBoundary (out bit : Nat) : Bool :=
  [32, 33, 34, 35, 37, 128, 132, 133].contains bit || (decide (160 ≤ bit ∧ bit < 192) && !out.testBit (bit - 160))

/-- The groups fed by a rule that is no safety rule: 32 rounds reach every chain of groups. -/
def outsideGroups (rules : List RuleEntry) : Nat → Nat
  | 0 => 0
  | n + 1 =>
    let out := outsideGroups rules n
    maskOf ((rules.filter (fun r => r.groupEn && r.readBits.any (fun b => !insideBoundary out b))).map (fun r => r.group))

/-- The safety rules: the largest set of rules that read nothing from outside the boundary. -/
def Dev.safetyRules (d : Dev) : List Nat :=
  let rules := d.fum.rules.filterMap (fun (x : Nat × RuleSt) => x.2.entry.cur.map (fun r => (x.1, r)))
  let out := outsideGroups (rules.map (fun x => x.2)) 32
  (rules.filter (fun x => x.2.readBits.all (insideBoundary out))).map (fun x => x.1)

/-! ## Engine self-tests (R518) -/

/-- The test of engine `e` is due: at its 10 min interval, or for a recovery; the first engine of a recovery goes first. -/
def Dev.testDue (d : Dev) (e : Nat) : Bool :=
  match d.saf.recoveryTests with
  | n :: _ => decide (e = n + 16)
  | [] => decide (d.saf.lastTestAt.getD e d.tim.releasedAt + 600000000000 ≤ d.up) && (decide (e < 16) || decide (3 ≤ d.deCount))

/-- Engine `e` is the spare, or the spare can take its place; a detector engine just leaves. -/
def Dev.testStarts (d : Dev) (e : Nat) : Option Dev :=
  if d.engineBusy e ∨ d.fbit Fld.ENG_RETIRED_ENGINE e = true then none
  else if e < 16 then
    if d.bit Fld.ENG_STATUS_NO_SPARE ∨ d.sch.sparePending = true then none
    else
      let sp := d.fld Fld.ENG_STATUS_SPARE
      if e = sp then some d
      else if d.fbit Fld.ENG_STATUS_PE_ACTIVE e then
        some (((d.setFbit Fld.ENG_STATUS_PE_ACTIVE e false).setFbit Fld.ENG_STATUS_PE_ACTIVE sp true).setBit Fld.ENG_STATUS_NO_SPARE true)
      else none
  else if e < 20 ∧ d.fbit Fld.ENG_STATUS_DE_ACTIVE (e - 16) = true then
    let d1 := (d.setFbit Fld.ENG_STATUS_DE_ACTIVE (e - 16) false).refreshAlmok
    some (if d1.deCount = 0 then d1.raiseAt eEngineLoss 0 sOk 0xFF 3 else d1)
  else none

/-- A self-test starts. -/
def Dev.startTest (d : Dev) (e : Nat) : Dev :=
  if d.saf.testing.isSome || !d.testDue e then d
  else match d.testStarts e with
    | none => d
    | some d1 => d1.modSaf (fun s => { s with testing := some e, lastTestAt := s.lastTestAt.put e d.up })

/-- A self-test ends: the engine returns, a tested phasor engine as the spare, or it is retired. -/
def Dev.testDone (d : Dev) (ok : Bool) : Dev :=
  match d.saf.testing with
  | none => d
  | some e =>
    let d1 := d.modSaf (fun s => { s with testing := none })
    let d2 :=
      if !ok then (d1.raise eSelftest e 11).retire e 1
      else if e < 16 then
        if e = d1.fld Fld.ENG_STATUS_SPARE then d1 else (d1.setFld Fld.ENG_STATUS_SPARE e).setBit Fld.ENG_STATUS_NO_SPARE false
      else (d1.setFbit Fld.ENG_STATUS_DE_ACTIVE (e - 16) true).refreshAlmok
    if 16 ≤ e ∧ ok = true then d2.recoveryGoesOn (e - 16) true else d2

/-! ## The management cores (R524) -/

/-- Milliseconds since the last heartbeat, or since management firmware came to run. -/
def Dev.hbAge (d : Dev) : Nat := if d.clk.imageLoaded then (d.up - d.saf.hbAt) / 1000000 else 0

/-- DG12 finds no heartbeat for 50 ms. -/
def Dev.stalls (d : Dev) : Dev :=
  if d.clk.imageLoaded && decide (50 ≤ d.hbAge) && !d.bit Fld.SAF_STATUS_MGMT_STALL then
    (((d.setBit Fld.SAF_STATUS_MGMT_STALL true).refreshDiag).count Reg.SAF_MGMT_STALLS).event .mgmtStall noIndex d.hbAge 0
  else d

/-- A management restart is due: MGMT_RESTART_S without a heartbeat, or after a lockstep error of the MC pair. -/
def Dev.restartDue (d : Dev) : Bool :=
  d.saf.mcRestart || (d.clk.imageLoaded && decide (d.fld Fld.SAF_CFG_MGMT_RESTART_S * 1000 ≤ d.hbAge))

/-- A management restart: the MC pair runs again, and its first heartbeat ends the stall. -/
def mgmtRestart (k : KeySt) (d : Dev) : KeySt × Dev :=
  if d.restartDue then
    let age := d.hbAge
    let d1 := (d.finishWaits (fun _ => true) sBusy 0).count Reg.SAF_MGMT_RESTARTS
    let r := keyRestart k d1
    let d2 := r.2.event .mgmtStall noIndex age 1
    let d3 := (d2.modSaf (fun s => { s with mcRestart := false })).clears eLockstep 1
    (r.1, d3.heartbeat)
  else (k, d)

/-! ## Proof tests (R525) -/

/-- The class of the diagnostic that a test covers; test 10 covers none. -/
def proofClass (t : Nat) : Nat :=
  [eDeDisagree, eMemUncorr, eStoreCheck, eLockstep, ePin, eExpress, eClock, eTimeBase, eSupply, eTemp, 0, eMonitor].getD t 0

/-- A run starts. -/
def Dev.proofStart (d : Dev) (mask : Nat) : Dev :=
  (d.modSaf (fun s => { s with proof := some ⟨s.seq, mask, 0, 0⟩ })).setBit Fld.SAF_STATUS_PROOF_RUNNING true

/-- A real error of the tested class has been raised during the run, and is open. -/
def Dev.proofBlocked (d : Dev) (p : ProofSt) (t : Nat) : Bool :=
  d.saf.queue.any (fun e => decide (e.cls = proofClass t) && decide (0 ≤ signedDiff 32 e.seq p.startSeq))

/-- One test of the run in progress: interrupted, passed or failed. -/
def Dev.proofTest (fails ms : Nat) (d : Dev) (t : Nat) : Dev :=
  match d.saf.proof with
  | none => d
  | some p =>
    if d.proofBlocked p t then
      if p.interrupted.testBit t then d
      else (d.event .proofTest t 2 ms).modSaf (fun s => { s with proof := some { p with interrupted := putBit p.interrupted t true } })
    else
      let failed := fails.testBit t
      let d1 := (d.event .proofTest t (b2n failed) ms).modSaf (fun s => { s with
        proof := some { p with todo := putBit p.todo t false, fail := putBit p.fail t failed } })
      if failed then d1.raise eProofFail t else d1.clears eProofFail t

/-- A run with no test left ends. -/
def Dev.proofEnd (d : Dev) : Dev :=
  match d.saf.proof with
  | none => d
  | some p =>
    if p.todo ≠ 0 then d
    else
      let d1 := (d.modSaf (fun s => { s with proof := none, proofAt := some d.up })).setBit Fld.SAF_STATUS_PROOF_RUNNING false
      ((d1.setFld Fld.SAF_PROOF_LAST_FAIL p.fail).count Reg.SAF_PROOFS).finishWaits (fun w => decide (w = .proofRun)) sOk p.fail

/-- A run starts by itself every PROOF_HOURS; a run in progress goes through its tests. -/
def Dev.proofRun (d : Dev) (fails ms : Nat) : Dev :=
  let hours := d.fld Fld.SAF_CFG_PROOF_HOURS
  let d1 :=
    if d.saf.proof.isNone && decide (hours ≠ 0) && decide (max d.saf.proofAutoAt d.tim.releasedAt + hours * 3600000000000 ≤ d.up) then
      (d.proofStart 0xFFF).modSaf (fun s => { s with proofAutoAt := d.up })
    else d
  match d1.saf.proof with
  | none => d1
  | some p => ((bitsOf 12 p.todo).foldl (Dev.proofTest fails ms) d1).proofEnd

/-- AGE_H of SAF_PROOF_LAST. -/
def Dev.proofAge (d : Dev) : Nat := match d.saf.proofAt with | none => 0xFFFF | some t => sat 0xFFFF ((d.up - t) / 3600000000000)

/-! ## Commands (R529) -/

/-- The 24 bytes of an open entry. -/
def ErrEntry.bytes (e : ErrEntry) : Bytes :=
  leBytes 4 e.seq ++ leBytes 1 e.cls ++ leBytes 1 e.level ++ leBytes 1 e.status ++ leBytes 1 1 ++ leBytes 2 e.index ++ leBytes 1 e.diag ++ zeros 1 ++
  leBytes 8 e.timeUs ++ zeros 4

def safErrRead (buf : HostBuf) (d : Dev) : Dev × CmdRes :=
  if buf.len < 384 then (d, .done sRange 0)
  else (d, .block (slice (d.saf.queue.flatMap ErrEntry.bytes) 0 384) (some buf.addr))

def safProof (mask : Nat) (d : Dev) : Dev × CmdRes :=
  if 4096 ≤ mask then (d, .done sRange 0)
  else if d.saf.proof.isSome then (d, .done sBusy 0)
  else if mask = 0 then (d, .ok)
  else (d.proofStart mask, .wait .proofRun)

def safForce (confirm : Nat) (d : Dev) : Dev × CmdRes :=
  if confirm ≠ 0x53414645 then (d, .done sRange 0) else (d.raise eForced noIndex, .ok)

end Sys2Proof.Machine
end

