-- ==== Sys2Proof/Machine/SntOps.lean ====
section
/-! DEFINITION. Sinter: the write of records to MRAM, memory failure, recorder start, reading and clearing (R498 to R513). -/

namespace Sys2Proof.Machine

open Sys2Proof

/-! ## Records in MRAM (R498, R500, R502) -/

/-- The 32 bytes of a record. -/
def SntRec.bytes (r : SntRec) : Bytes :=
  leBytes 6 r.seq ++ leBytes 2 r.code ++ leBytes 1 (r.severity + 4 * b2n r.fromShadow + 8 * b2n r.timeSuspect) ++ leBytes 1 r.status ++
  leBytes 2 r.index ++ leBytes 8 r.timeUs ++ leBytes 4 r.opSec ++ leBytes 2 r.powerCycles ++ leBytes 2 r.repeats ++ leBytes 4 r.arg

/-- Records that the log holds. -/
def sntCells : Nat := 131072

/-- A record joins the log by rising SEQ. -/
def logInsert (r : SntRec) : List SntRec → List SntRec
  | [] => [r]
  | x :: t => if x.seq < r.seq then x :: logInsert r t else r :: x :: t

/-- One record is written to its cell, over a victim where the log is full (R502). `writes` of the three writes are made before the
supply is lost: a cell of which the last one is missing reads as empty, and the record is still in the shadow. -/
def Dev.writeRecord (d : Dev) (r : SntRec) (writes : Nat) : Dev :=
  let full := decide (sntCells ≤ d.snt.log.length)
  let victim := if full then victimOf r.severity [] d.snt.log else none
  if writes = 0 then d
  else if full && victim.isNone then (d.modSnt (fun s => { s with shadow := dropSeq r.seq s.shadow })).count Reg.SNT_DISCARDED
  else
    let d1 := match victim with
      | some v => (d.modSnt (fun s => { s with log := dropSeq v.seq s.log })).count Reg.SNT_OVERWRITTEN
      | none => d
    if writes < 3 then d1
    else d1.modSnt (fun s => { s with
      log := logInsert r s.log
      shadow := dropSeq r.seq s.shadow
      lastCommitted := max s.lastCommitted r.seq })

/-- The header is written over the older of its two copies (R500); a torn copy is bad. -/
def Dev.writeHeader (d : Dev) (torn : Bool) : Dev :=
  d.modSnt (fun s =>
    let new : SntHeader := { opSec := d.opSec, powerCycles := s.powerCycles, clear := s.header.clear }
    if torn then { s with header2 := { ok := false }, headerAt := d.up } else { s with header := new, header2 := s.header, headerAt := d.up })

/-- The oldest record of the shadow is written. -/
def Dev.recordWrite (d : Dev) (writes : Nat) : Dev :=
  match d.snt.shadow with
  | r :: _ => if d.sntWrites then d.writeRecord r writes else d
  | [] => d

/-! ## Memory failure (R506, R507) -/

/-- The recorder's memory is declared failed. -/
def Dev.memFailed (d : Dev) : Dev :=
  if !d.sntWrites then d
  else
    let d1 := (d.setBit Fld.SNT_STATUS_MEM_FAIL true).count Reg.SNT_MEM_FAILS
    let d2 := d1.modSnt (fun s => { s with shadowLostNow := 0, probeAt := d.up, probeOk := false, firstFailSeq := none })
    let d3 := d2.event .memFailed noIndex (d2.regN Reg.SNT_MEM_FAILS)
    d3.modSnt (fun s => { s with firstFailSeq := s.newest.map (fun r => r.seq) })

/-- MRAM is probed, once per second. -/
def Dev.memProbe (d : Dev) (ok : Bool) : Dev :=
  if d.bit Fld.SNT_STATUS_MEM_FAIL && decide (d.snt.probeAt + 1000000000 ≤ d.up) then
    let d1 := d.modSnt (fun s => { s with probeAt := d.up, probeOk := ok })
    if ok then d1.writeHeader false else d1
  else d

/-- The shadow is drained after a probe that succeeded. -/
def Dev.memRestored (d : Dev) : Dev :=
  if d.bit Fld.SNT_STATUS_MEM_FAIL && d.snt.probeOk then
    let held := d.snt.shadow
    let d1 := held.foldl (fun (x : Dev) r => x.writeRecord { r with fromShadow := true } 3) d
    let lost := d.snt.shadowLostNow
    let d2 := (d1.setBit Fld.SNT_STATUS_MEM_FAIL false).modSnt (fun s => { s with probeOk := false, firstFailSeq := none, shadowLostNow := 0 })
    let d3 := d2.event .memRestored noIndex held.length
    if 0 < lost then d3.event .shadowOverflow noIndex lost else d3
  else d

/-! ## Power fail (R510) -/

/-- Sinter's last record and header before the supplies fall, once the final saves are complete. -/
def Dev.powerFailWarning (d : Dev) : Dev :=
  if d.clk.pfw && !d.finalSaving && d.bit Fld.SNT_STATUS_RUNNING && !d.bit Fld.SNT_STATUS_PFW_HOLD then
    let d1 := d.event .powerFailWarning noIndex d.opSec
    let d2 := if d1.bit Fld.SNT_STATUS_MEM_FAIL then d1
      else
        let x := match d1.snt.shadow.find? (fun r => decide (r.code = 0x0F06)) with | some r => d1.writeRecord r 3 | none => d1
        x.writeHeader false
    d2.setBit Fld.SNT_STATUS_PFW_HOLD true
  else d

/-! ## Clearing (R508) -/

/-- A record that a clear removes: LOG_CLEARED never is. -/
def cleared (upTo maxSev : Nat) (r : SntRec) : Bool := decide (r.seq ≤ upTo) && decide (r.severity ≤ maxSev) && decide (r.code ≠ 0x0F04)

/-- Steps 3 to 5 of an accepted clear. -/
def Dev.runClear (d : Dev) (upTo maxSev : Nat) : Dev :=
  let removed := ((d.snt.log ++ d.snt.shadow).filter (cleared upTo maxSev)).length
  let d1 := d.modSnt (fun s => { s with
    log := s.log.filter (fun r => !cleared upTo maxSev r)
    shadow := s.shadow.filter (fun r => !cleared upTo maxSev r) })
  let d2 := d1.event .logCleared maxSev removed
  (d2.modSnt (fun s => { s with header := { s.header with clear := none } })).setBit Fld.SNT_STATUS_CLEARING false

/-- The operands of SNT_CLEAR. -/
structure ClearOps where
  deviceId : Nat
  counter : Nat
  upTo : Nat
  maxSev : Nat
  tag : Bytes
  deriving DecidableEq, Repr

/-- The first status of R508 that applies. -/
def clearStatus (k : KeySt) (d : Dev) (o : ClearOps) : Nat :=
  if o.deviceId % 2 ^ 64 ≠ k.deviceId then sAuthFail
  else if k.lc ≠ .operational ∧ k.lc ≠ .maintenance then sLifecycle
  else match k.use 0 with
    | .error st => st
    | .ok s =>
      let kc := hkdfSha256 (leBytes 8 k.deviceId) ((s.cur.map (fun v => v.bytes)).getD []) (asciiBytes "G840 sinter clear") 32
      let text := leBytes 8 o.deviceId ++ leBytes 8 o.counter ++ leBytes 8 o.upTo ++ leBytes 1 o.maxSev
      if hmacSha256 kc text ≠ o.tag then sAuthFail
      else if o.counter ≤ k.counter then sCounterStale
      else if 3 < o.maxSev ∨ ((d.snt.newest.map (fun r => r.seq)).getD 0) < o.upTo then sRange
      else sOk

/-- SNT_CLEAR can run now: the recorder runs and MRAM takes writes and updates. -/
def clearReady (k : KeySt) (d : Dev) : Bool :=
  d.sntWrites && k.started && !k.interrupted && !d.clk.pfw && !d.bit Fld.SNT_STATUS_CLEARING

/-- An accepted clear of which `steps` of the five steps are complete before the supply is lost (5: all of it): the command's part. -/
def Dev.clearSteps (d : Dev) (o : ClearOps) (steps : Nat) : Dev × CmdRes :=
  if steps < 2 then (d, .wait .sntClear)
  else if steps < 5 then
    ((d.modSnt (fun s => { s with header := { s.header with clear := some (o.upTo, o.maxSev) } })).setBit Fld.SNT_STATUS_CLEARING true, .wait .sntClear)
  else (d.runClear o.upTo o.maxSev, .ok)

/-- A refused clear. -/
def Dev.clearRefused (d : Dev) (st : Nat) (use : Except Nat Slot) : Dev × CmdRes :=
  ((d.countUse use).event .updateRefused noIndex 0 0 st, .done st 0)

/-- SNT_CLEAR is taken from its ring, with the key store's part of it. -/
def sntClear (c : Ctx) (o : ClearOps) (steps : Nat) (k : KeySt) (d : Dev) : KeySt × Dev :=
  let st := clearStatus k d o
  let use : Except Nat Slot := if st = sKeyOrphaned then .error st else .error sAuthFail
  if d.accepts c.ring && !d.bit Fld.CLK_STATUS_RESCUE && decide (d.hif.waiting.length < 64) && clearReady k d && decide (st = sOk) then
    (k.commit 0 0 o.counter .counterOnly (if steps = 0 then 0 else 6), d.accept c true none (fun x => x.clearSteps o steps))
  else if !clearReady k d then (k, d.accept c true none (fun x => (x, .done sBusy 0)))
  else (k, d.accept c true none (fun x => x.clearRefused st use))

/-! ## Reading (R504, R505) -/

/-- The records by rising SEQ. -/
def Dev.sntHeld (d : Dev) : List SntRec := d.snt.shadow.foldl (fun l r => logInsert r l) d.snt.log

/-- SNT_READ: the reply header and the records. -/
def sntRead (first : Nat) (buf : HostBuf) (d : Dev) : Dev × CmdRes :=
  if buf.len < 64 then (d, .done sRange 0)
  else if d.bit Fld.SNT_STATUS_CLEARING then (d, .done sBusy 0)
  else
    let head := (d.snt.newest.map (fun r => r.seq)).getD 0
    let oldest := d.snt.oldest
    let set := d.sntHeld.filter (fun r => decide (first ≤ r.seq))
    let n := (buf.len - 32) / 32
    let next := match (set.drop n).head? with | some r => r.seq | none => head + 1
    let sent := set.take n
    (d, .block (leBytes 8 head ++ leBytes 8 oldest ++ leBytes 8 next ++ leBytes 4 sent.length ++
      leBytes 1 (2 * b2n (decide (first < oldest)) + 4 * b2n (d.bit Fld.SNT_STATUS_MEM_FAIL)) ++ zeros 3 ++ sent.flatMap SntRec.bytes) (some buf.addr))

/-! ## Recorder start (R499, R509) -/

/-- The header that recorder start reads: of the good copies the one with the higher OP_SEC; with both bad, the highest values of
the log. -/
def SntSt.startHeader (s : SntSt) : SntHeader :=
  match s.header.ok, s.header2.ok with
  | true, true => if s.header.opSec < s.header2.opSec then s.header2 else s.header
  | true, false => s.header
  | false, true => s.header2
  | false, false => { opSec := s.log.foldl (fun m r => max m r.opSec) 0, powerCycles := s.log.foldl (fun m r => max m r.powerCycles) 0 }

/-- An event that has waited takes the next SEQ. -/
def Dev.numberWaiting (base cycles : Nat) (d : Dev) (r : SntRec) : Dev :=
  (d.modSnt (fun s => { s with nextSeq := s.nextSeq + 1, headAt := some d.up })).shadowAdd
    { r with seq := d.snt.nextSeq, opSec := r.opSec + base, powerCycles := cycles }

/-- Recorder start. -/
def Dev.recorderStart (d : Dev) : Dev :=
  if d.bit Fld.SNT_STATUS_RUNNING then d
  else
    let h := d.snt.startHeader
    let cycles := if d.snt.afterPowerOn then sat 65535 (h.powerCycles + 1) else h.powerCycles
    let high := d.snt.log.foldl (fun m r => max m r.seq) 0
    let waiting := d.snt.waiting
    let d1 := (d.modSnt (fun s => { s with
      header := { h with clear := h.clear, ok := true }
      opSec := s.opSec + h.opSec, powerCycles := cycles, nextSeq := high + 2 ^ 24, lastCommitted := high, waiting := [], afterPowerOn := false })).setBit
      Fld.SNT_STATUS_RUNNING true
    let d2 := match h.clear with | some (upTo, maxSev) => d1.runClear upTo maxSev | none => d1
    let d3 := waiting.foldl (Dev.numberWaiting h.opSec cycles) d2
    (d3.event .recorderStarted noIndex cycles).writeHeader false

end Sys2Proof.Machine
end

