-- ==== Sys2Proof/Machine/ClkOps.lean ====
section
/-! DEFINITION. Clocks, reset kinds, start-up order, power fail (R531 to R546, R560, R566 to R571). -/

namespace Sys2Proof.Machine

open Sys2Proof

/-! ## Power fail (R288, R318, R431, R510) -/

/-- PFW_N counts as asserted, or no longer. -/
def Dev.setPfw (d : Dev) (on : Bool) : Dev := ((d.modClk (fun c => { c with pfw := on })).setBit Fld.PWR_STATUS_PFW on).setBit Fld.NRG_STATUS_PFW on

/-- DEPART goes to every other member (R431, R542). -/
def Dev.departs (d : Dev) (reason : Nat) : Dev := if d.joined then d.sendAll d.others (.depart reason) else d

/-- PFW_N asserts: the final save where it is enabled, DEPART, the retained save. -/
def Dev.pfwAssert (d : Dev) : Dev :=
  if d.clk.pfw then d
  else
    let d1 := d.setPfw true
    let d2 := if d1.bit Fld.NRG_CFG_PFW_EN then d1.askFinalSave else d1
    (d2.departs 1).queueRetSave

/-- The final saves of all points complete; a step boundary that they still wait for has passed. Those of the points listed fail their
read-back (R287). -/
def Dev.finalSaved (d : Dev) (bad : List Nat) : Dev :=
  let d1 := if d.nrg.finalDue then (d.validPoints.foldl (fun (x : Dev) p => x.startSave true p) d).modNrg (fun g => { g with finalDue := false }) else d
  (List.range 16).foldl (fun (x : Dev) p =>
    match (x.point p).saving with
    | some (_, true, _) => if bad.contains p then x.failSave p else (x.commitSave p).count Reg.NRG_FINAL_SAVES
    | _ => x) d1

/-- A retained save that is queued or under way is carried to its commit (R542). -/
def Dev.finishRetSave (d : Dev) : Dev :=
  (match d.cyc.retDue with
    | some x => if d.cyc.saving.isNone then d.startRetSave x else d
    | none => d).retSaved true

/-! ## The reset kinds (R541, R560) -/

/-- The word of an offset after reset. -/
def resetWord (off : Nat) : Word := coldRegs.getD off 0

/-- The registers after a reset: 0 power-on, 1 cold, 2 warm. A warm reset keeps the RWS fields, and what shows the root and PLL, which it
keeps too. The rails and PFW_N are shown as they are. -/
def Dev.regsAfter (d : Dev) (kind : Nat) : Tbl Word :=
  let keep := if kind = 2 then [Reg.CLK_DIV, Reg.ENG_RETIRED, Reg.SAF_CAUSE, Reg.CLK_XTALn 0, Reg.CLK_XTALn 1] else []
  let t0 := keep.foldl (fun (t : Tbl Word) off => setWord t off (d.reg off)) coldRegs
  let e : Dev := { d with regs := t0 }
  let e1 := if kind = 2 then
      ((e.setReg Reg.CLK_STATUS (d.reg Reg.CLK_STATUS)).setBit Fld.CLK_STATUS_CFG_ERR false).setRegN Reg.RST_WARM_COUNT (d.regN Reg.RST_WARM_COUNT + 1)
    else e
  let e2 := (e1.setFld Fld.RST_STATUS_LAST_KIND kind).setFld Fld.RST_STATUS_START_STEP (if kind = 2 then 5 else 1)
  ((e2.setPfw d.clk.pfw).setFld Fld.PWR_STATUS_RAIL_OK (d.fld Fld.PWR_STATUS_RAIL_OK)).regs

/-- CLK_DIV breaks a ratio limit of R536. -/
def Dev.ratioBreaks (d : Dev) : Bool :=
  decide (d.fld Fld.CLK_DIV_BCLK_DIV < 2 * d.fld Fld.CLK_DIV_ECLK_DIV) || decide (d.fld Fld.CLK_DIV_BCLK_DIV < d.fld Fld.CLK_DIV_CCLK_DIV)

/-- The clock unit after a reset: a warm reset applies the dividers. -/
def Dev.clkAfter (d : Dev) (kind : Nat) : ClkSt :=
  if kind = 2 then
    { judge := d.clk.judge, judgedAt := d.clk.judgedAt, eclkDiv := d.fld Fld.CLK_DIV_ECLK_DIV, cclkDiv := d.fld Fld.CLK_DIV_CCLK_DIV,
      bclkDiv := d.fld Fld.CLK_DIV_BCLK_DIV, vcoHold := d.clk.vcoHold, pfw := d.clk.pfw, testEn := d.clk.testEn, ratioBroken := d.ratioBreaks }
  else { pfw := d.clk.pfw, testEn := d.clk.testEn }

/-- Sinter after a reset: the log stays in MRAM, and a warm reset keeps the shadow (R509). -/
def sntAfter (s : SntSt) (kind up : Nat) : SntSt :=
  { shadow := if kind = 2 then s.shadow else []
    waiting := if kind = 2 then s.waiting else []
    log := s.log, header := s.header, header2 := s.header2, opAt := up, afterPowerOn := decide (kind = 0) }

/-- A reset of a kind. MRAM, NOR and, at a warm reset, the content of DDR5 stay; training decides on the latter (R141, R541). An image set
whose write the reset cuts off is not valid. -/
def Dev.reset (d : Dev) (kind : Nat) : Dev :=
  { regs := d.regsAfter kind
    crt := if kind = 2 then { snaps := d.crt.snaps, amends := d.crt.amends, amendLost := d.crt.amendLost, overRuns := d.crt.overRuns } else {}
    nrg := { slots := d.nrg.slots }
    cyc := { retSlots := d.cyc.retSlots }
    tim := { up := d.up, releasedAt := d.up }
    snt := sntAfter d.snt kind d.up
    clk := d.clkAfter kind
    inv := { nor := if d.inv.norBusy then modifyAt d.inv.nor (1 - d.inv.norInUse) (fun _ => none) else d.inv.nor, norInUse := d.inv.norInUse }
    out := d.out
    fresh := d.fresh }

/-- A reset of the whole device. -/
def resetAll (kind : Nat) (k : KeySt) (d : Dev) : KeySt × Dev := (k.afterReset, d.reset kind)

/-- A requested reset begins once the final saves are complete (R542). -/
def pendingReset (k : KeySt) (d : Dev) : KeySt × Dev :=
  match d.clk.resetPending with
  | none => (k, d)
  | some kind => if d.finalSaving then (k, d) else resetAll kind k d.finishRetSave

/-- RST_REQUEST is taken from its ring by the host-interface hardware, also in RESCUE and during a management stall (R542, R553). `kind`
is 0 warm, 1 cold. -/
def rstRequest (c : Ctx) (kind confirm : Nat) (k : KeySt) (d : Dev) : KeySt × Dev :=
  if !d.offers c.ring then (k, d)
  else
    let n := (d.ring c.ring).next
    let session := (d.ring c.ring).session
    let d1 := d.fetch c.ring
    if confirm ≠ 0x52535451 ∨ 1 < kind then (k, d1.complete c.ring n session sRange 0 0 [])
    else
      let left := (d1.complete c.ring n session sOk 0 0 []).departs 0
      let d2 := if left.bit Fld.NRG_CFG_PFW_EN then left.askFinalSave else left
      pendingReset k (d2.queueRetSave.modClk (fun x => { x with resetPending := some (if kind = 0 then 2 else 1) }))

/-- A rail is below its power-on level: the device is held in power-on reset. -/
def railFall (rail : Nat) (k : KeySt) (d : Dev) : KeySt × Dev :=
  if rail < 8 then
    let r := resetAll 0 k d
    (r.1, (r.2.setFbit Fld.PWR_STATUS_RAIL_OK rail false).modClk (fun c => { c with held := true }))
  else (k, d)

/-- Power-on reset is released: every rail has been inside its window for 2 ms. PFW_N and TEST_EN are sampled (R571, R577). -/
def powerOn (pfwLow testEn : Bool) (k : KeySt) (d : Dev) : KeySt × Dev :=
  let r := resetAll 0 k d
  (r.1, ((r.2.setPfw pfwLow).setFld Fld.PWR_STATUS_RAIL_OK 255).modClk (fun c => { c with testEn := testEn }))

/-! ## Crystals, PLL, RESCUE (R532 to R535) -/

/-- How the four gates of an input judge it, their offsets in 0.1 ppm; no gate where it does not oscillate. -/
def judgeGates (g : List Int) : XtalJudge :=
  if g = [] then .noOscillation
  else if g.any (fun x => decide (x < -5000 ∨ 5000 < x)) then .outside
  else if g.any (fun x => g.any (fun y => decide (200 < x - y))) then .unstable
  else .passed

/-- The offset that CLK_XTALn shows: the mean of the gates, saturating to 16 bits. -/
def gateMean (g : List Int) : Int := satSigned 16 (g.foldl (· + ·) 0 / (max 1 g.length : Nat))

/-- ARG1 of CLOCK_JUDGED_BAD. -/
def judgeArg : XtalJudge → Nat
  | .noOscillation => 0 | .outside => 1 | .unstable => 2 | _ => 3

def Dev.judgeOf (d : Dev) (n : Nat) : XtalJudge := (d.clk.judge[n]?).getD .notJudged

def xtalOkBit (n : Nat) : FieldAt := if n = 0 then Fld.CLK_STATUS_XTAL0_OK else Fld.CLK_STATUS_XTAL1_OK

/-- The last offset of an input, as ARG0. -/
def Dev.xtalArg (d : Dev) (n : Nat) : Nat := toTwos 32 (ofTwos 16 (d.regN (Reg.CLK_XTALn n)))

/-- A judgement of input `n` is noted; one that does not oscillate gives no offset. -/
def Dev.noteJudge (d : Dev) (n : Nat) (g : List Int) : Dev :=
  let j := judgeGates g
  let d1 := if g = [] then d else d.setRegN (Reg.CLK_XTALn n) (toTwos 16 (gateMean g))
  (d1.setBit (xtalOkBit n) (decide (j = .passed))).modClk (fun c => { c with
    judge := modifyAt c.judge n (fun _ => j), judgedAt := modifyAt c.judgedAt n (fun _ => d.up) })

def Dev.judgedBad (d : Dev) (n arg : Nat) : Dev := d.event .clockJudgedBad n (d.xtalArg n) arg

/-- A failed judgement of `n` is announced; that of XTAL1 without oscillation waits for the end of discovery (R532). -/
def Dev.announceJudge (d : Dev) (n : Nat) : Dev :=
  match d.judgeOf n with
  | .notJudged | .passed => d
  | .noOscillation => if n = 0 ∨ (d.clk.discovered = true ∧ d.inv.xtal1Fitted = true) then d.judgedBad n 0 else d
  | j => d.judgedBad n (judgeArg j)

/-- RESCUE (R533): every block but GLB, CLK, RST and PWR, HIF, SAF and INV is in reset. -/
def enterRescue (k : KeySt) (d : Dev) : KeySt × Dev :=
  let old := d.regs.keep (fun off _ => runsInRescue off)
  let regs := (coldRegs.keep (fun off _ => !runsInRescue off)).foldl (fun (t : Tbl Word) (x : Nat × Word) => t.put x.1 x.2) old
  let d1 : Dev := { d with
    regs := regs, ing := {}, crt := {}, osc := {}, isl := {}, fum := {}, acq := {}, gey := {}, nrg := { slots := d.nrg.slots },
    cyc := { retSlots := d.cyc.retSlots }, sch := {}, net := {}, tim := { up := d.up, releasedAt := d.tim.releasedAt }, fab := {},
    snt := { sntAfter d.snt 0 d.up with waiting := d.snt.waiting } }
  (k.afterReset, ((d1.setBit Fld.CLK_STATUS_RESCUE true).setBit Fld.HIF_STATUS_CMD_READY false).modClk (fun c => { c with imageLoaded := false }))

/-- No crystal passes, or no image set verifies. -/
def Dev.rescueDue (d : Dev) : Bool :=
  !d.bit Fld.CLK_STATUS_RESCUE && !d.clk.held &&
  (d.clk.noImage || (!d.bit Fld.CLK_STATUS_PLL_LOCK && !d.clk.vcoHold &&
    (List.range 2).all (fun n => decide (d.judgeOf n ≠ .notJudged ∧ d.judgeOf n ≠ .passed))))

/-- A crystal input is judged at start-up: XTAL0 first; XTAL1 where XTAL0 has failed, or after the PLL has locked. -/
def xtalJudged (n : Nat) (g : List Int) (k : KeySt) (d : Dev) : KeySt × Dev :=
  let locked := d.bit Fld.CLK_STATUS_PLL_LOCK
  let first : Bool := decide (d.judgeOf n = .notJudged) && !d.clk.held && !d.bit Fld.CLK_STATUS_RESCUE
  let inTurn : Bool := if n = 0 then !locked
    else decide (n = 1) && (locked || decide (d.judgeOf 0 ≠ .notJudged ∧ d.judgeOf 0 ≠ .passed))
  if first && inTurn then
    let d1 := (d.noteJudge n g).announceJudge n
    if locked then (k, d1)
    else if judgeGates g = .passed then (k, (d1.setFld Fld.CLK_STATUS_ROOT n).setFld Fld.RST_STATUS_START_STEP 4)
    else if n = 0 then (k, d1.setFld Fld.RST_STATUS_START_STEP 3)
    else if d1.rescueDue then enterRescue k d1 else (k, d1)
  else (k, d)

/-- START_STEP shows the step in progress (R543), from step 5 on. -/
def Dev.showStep (d : Dev) : Dev :=
  d.setFld Fld.RST_STATUS_START_STEP
    (if !d.clk.discovered then 5 else if !d.clk.keyStarted then 6 else if !d.clk.imageLoaded then 8
     else if !d.bit Fld.SNT_STATUS_RUNNING then 10 else 11)

/-- The PLL locks: to the root at start-up, or to the standby after the root was lost (R534, R535). -/
def Dev.pllLock (d : Dev) : Dev :=
  let root := d.fld Fld.CLK_STATUS_ROOT
  if d.clk.vcoHold then
    if d.judgeOf (1 - root) = .passed then
      ((d.setFld Fld.CLK_STATUS_ROOT (1 - root)).setBit Fld.CLK_STATUS_PLL_LOCK true).modClk (fun c => { c with vcoHold := false })
    else d
  else if !d.bit Fld.CLK_STATUS_PLL_LOCK && decide (d.judgeOf root = .passed) && decide (d.fld Fld.RST_STATUS_START_STEP = 4) then
    (d.setBit Fld.CLK_STATUS_PLL_LOCK true).showStep
  else d

/-- The root is lost in service: the CLOCK error, and the VCO holds. The spec numbers no clock: the INDEX is a free value. -/
def Dev.rootFails (d : Dev) (arg : Nat) : Dev :=
  if d.clk.vcoHold || !d.bit Fld.CLK_STATUS_PLL_LOCK then d
  else
    let root := d.fld Fld.CLK_STATUS_ROOT
    let d1 := ((d.judgedBad root arg).setBit (xtalOkBit root) false).setBit Fld.CLK_STATUS_PLL_LOCK false
    let r := d1.draw
    (r.2.modClk (fun c => { c with vcoHold := true })).raise eClock (r.1 % 65536) 7

/-- 200 ns pass without an edge of the root. -/
def Dev.rootLost (d : Dev) : Dev :=
  let root := d.fld Fld.CLK_STATUS_ROOT
  (d.modClk (fun c => { c with judge := if d.bit Fld.CLK_STATUS_PLL_LOCK then modifyAt c.judge root (fun _ => .noOscillation) else c.judge })).rootFails 3

/-- In service the root is judged again every 60 s, and a standby every hour. -/
def Dev.rejudge (d : Dev) (n : Nat) (g : List Int) : Dev :=
  let root := d.fld Fld.CLK_STATUS_ROOT
  let period := if n = root then 60000000000 else 3600000000000
  if d.bit Fld.CLK_STATUS_PLL_LOCK && !d.clk.vcoHold && decide (n < 2) && decide (d.judgeOf n ≠ .notJudged)
      && decide ((d.clk.judgedAt[n]?).getD 0 + period ≤ d.up) then
    let d1 := d.noteJudge n g
    if judgeGates g = .passed then d1
    else if n = root then d1.rootFails (judgeArg (judgeGates g))
    else d1.announceJudge n
  else d

/-- The frequency on CLKOUT in Hz, 0 while it is low: from a power-on or cold reset until the root is judged (R537). -/
def Dev.clkOut (d : Dev) : Nat :=
  if d.clk.vcoHold || decide (d.judgeOf (d.fld Fld.CLK_STATUS_ROOT) = .passed) then
    [0, 25000000, 10000000, 1000000].getD (d.fld Fld.CLK_OUT_SEL) 0
  else 0

/-! ## DDR5 and the command rings (R541, R543, R544) -/

/-- DDR5 is trained and initialised: its capacity, and whether the content of before a warm reset has been kept. -/
def Dev.ddrReady (d : Dev) (gib : Nat) (trained : Bool) : Dev :=
  if d.bit Fld.CLK_STATUS_PLL_LOCK && !d.bit Fld.RST_STATUS_DDR_READY && !d.bit Fld.CLK_STATUS_RESCUE && decide (gib < 64) then
    let kept := trained && decide (d.fld Fld.RST_STATUS_LAST_KIND = 2)
    let d1 := if kept then d else d.modCrt (fun c => { c with snaps := [], amends := [], amendLost := [], overRuns := [] })
    ((d1.setFld Fld.RST_STATUS_DDR_GIB gib).setBit Fld.RST_STATUS_DDR_KEPT kept).setBit Fld.RST_STATUS_DDR_READY true
  else d

/-- Every step before the last is done, and the management firmware serves the command rings. -/
def Dev.cmdReady (d : Dev) : Dev :=
  if d.clk.discovered && d.clk.keyStarted && d.clk.imageLoaded && d.bit Fld.SNT_STATUS_RUNNING && !d.bit Fld.HIF_STATUS_CMD_READY
      && !d.bit Fld.CLK_STATUS_RESCUE then
    ((d.setBit Fld.HIF_STATUS_CMD_READY true).setRegN Reg.RST_START_MS (sat 65535 ((d.up - d.tim.releasedAt) / 1000000))).showStep
  else d

/-- Key-store start runs at its step (R543). -/
def keyStart (k : KeySt) (d : Dev) : KeySt × Dev :=
  if d.bit Fld.CLK_STATUS_PLL_LOCK && !d.clk.keyStarted && !d.bit Fld.CLK_STATUS_RESCUE then
    let r := keyStoreStart k d
    (r.1, (r.2.modClk (fun c => { c with keyStarted := true })).showStep)
  else (k, d)

/-- Recorder start runs at its step (R543). -/
def Dev.recorderStep (d : Dev) : Dev := if d.clk.imageLoaded && !d.bit Fld.CLK_STATUS_RESCUE then d.recorderStart.showStep else d

/-! ## The answer of a command that can reset the device -/

/-- A warm reset that applies a broken ratio stops the machine: R536 calls its behaviour undefined. -/
def checkRatio (a : Answer) : Answer :=
  match a with
  | .next s => if s.dev.clk.ratioBroken then .fault .clockRatio else .next s
  | x => x

end Sys2Proof.Machine
end

