-- ==== Sys2Proof/Machine/InvOps.lean ====
section
/-! DEFINITION. Module discovery and identity memories, image sets (R545, R547 to R553). -/

namespace Sys2Proof.Machine

open Sys2Proof

/-! ## Identity memories (R548, R549) -/

/-- KIND that belongs to a position. -/
def kindAt (pos : Nat) : Nat := if pos = 0 then 1 else if pos = 1 then 2 else 3

/-- A big-endian field of an identity memory. -/
def idAt (b : Bytes) (off n : Nat) : Nat := beNat (slice b off n)

def idZero (b : Bytes) (off n : Nat) : Bool := decide (idAt b off n = 0)

/-- The fields of the common part and of the body by KIND, with their offsets and whether their values are in range. -/
def idFields (b : Bytes) (kind : Nat) : List (Nat × Bool) :=
  let kind3 := decide (kind ≠ 3)
  [(4, kind3 || decide (idAt b 4 2 = 0x0C12)), (7, idZero b 7 1), (8, (slice b 8 16).all (fun c => decide (0x20 ≤ c.toNat ∧ c.toNat < 0x7F))),
    (26, decide (1 ≤ idAt b 26 1 ∧ idAt b 26 1 ≤ 53)), (27, idZero b 27 5)] ++
  (if kind = 1 then [(36, decide (idAt b 36 1 ≤ 1)), (37, idZero b 37 215)]
   else if kind = 2 then [(34, decide (idAt b 34 1 = 1)), (35, idZero b 35 217)]
   else
    [(32, decide (idAt b 32 4 ≤ 1000000)), (36, decide (0 < ofTwos 32 (idAt b 36 4))), (40, decide (ofTwos 32 (idAt b 40 4) < 0)),
      (48, decide (idAt b 48 2 = 1000)), (50, idZero b 50 2)] ++
    (List.range 12).map (fun i =>
      let w : Word := BitVec.ofNat 32 (idAt b (56 + 4 * i) 4)
      (56 + 4 * i, fFinite w && fGt w 0)) ++
    (List.range 12).map (fun i => (104 + i, decide (idAt b (104 + i) 1 ≤ 1))) ++ [(244, idZero b 244 8)])

/-- What makes an identity memory not valid: ARG0 and ARG1 of IDENTITY_BAD; none where it is valid. -/
def idFault (pos : Nat) (b : Bytes) : Option (Nat × Nat) :=
  if crc32 (slice b 0 252) ≠ idAt b 252 4 then some (2, 0)
  else if idAt b 0 2 ≠ 0x5449 ∨ idAt b 2 1 ≠ 1 then some (3, 0)
  else if idAt b 3 1 ≠ kindAt pos then some (4, 0)
  else match (idFields b (kindAt pos)).find? (fun x => !x.2) with
    | some x => some (5, x.1)
    | none => none

/-- The reads of one position, at most two of them retries after a CRC failure: those made, of the reads that the memory would answer. -/
def idReads : Nat → List Bytes → List Bytes
  | 0, _ => []
  | _, [] => []
  | fuel + 1, b :: t => if crc32 (slice b 0 252) = idAt b 252 4 then [b] else b :: idReads fuel t

/-- What a valid memory sets: subsystem IDs and XTAL1_FITTED, PPS_DELAY unless the lock is set, ID_OK. -/
def Dev.takeIdentity (d : Dev) (pos : Nat) (b : Bytes) : Dev :=
  if pos = 0 then
    (d.setRegN Reg.INV_BOARD (idAt b 32 2 + 65536 * idAt b 34 2)).modInv (fun i => { i with xtal1Fitted := decide (idAt b 36 1 = 1) })
  else if pos = 1 then (if d.locked then d else d.setFld Fld.TIM_PPS_PPS_DELAY (idAt b 32 2))
  else d.setFbit Fld.ACQ_STATUS_ID_OK (pos - 2) true

/-- A position is read, at discovery or by a rescan. -/
def Dev.readIdentity (d : Dev) (rescan : Bool) (pos : Nat) (answers : List Bytes) : Dev :=
  let reads := idReads 3 answers
  let old := (d.inv.mem.find pos).map (fun b => slice b 8 16)
  let wasValid := d.fbit Fld.INV_STATUS_VALID pos
  let bad := (reads.filter (fun b => decide (crc32 (slice b 0 252) ≠ idAt b 252 4))).length
  let d1 := (d.count Reg.INV_READS reads.length).count Reg.INV_ERRORS (if reads.isEmpty then 1 else bad)
  match reads.getLast? with
  | none =>
    let d2 := (d1.setFbit Fld.INV_STATUS_PRESENT pos false).setFbit Fld.INV_STATUS_VALID pos false
    let d3 := if 2 ≤ pos then d2.setFbit Fld.ACQ_STATUS_ID_OK (pos - 2) false else d2
    let d4 := d3.modInv (fun i => { i with mem := i.mem.drop pos })
    if pos = 0 then d4.event .identityBad 0 1 0 else d4
  | some x =>
    let b := slice x 0 256
    let d2 := (d1.setFbit Fld.INV_STATUS_PRESENT pos true).modInv (fun i => { i with mem := i.mem.put pos b })
    match idFault pos b with
    | some (code, off) =>
      let d3 := d2.setFbit Fld.INV_STATUS_VALID pos false
      (if 2 ≤ pos then d3.setFbit Fld.ACQ_STATUS_ID_OK (pos - 2) false else d3).event .identityBad pos code off
    | none =>
      let d3 := (d2.setFbit Fld.INV_STATUS_VALID pos true).takeIdentity pos b
      if rescan && wasValid && decide (old = some (slice b 8 16)) then d3
      else d3.event .moduleFound pos (2 ^ 24 * idAt b 3 1 + 2 ^ 16 * idAt b 6 1 + idAt b 4 2) (crc32 (slice b 8 16))

/-- Module discovery: positions 0 to 5 in order, then the SFP cages that hold a module; the judgement of XTAL1 without oscillation is decided
at its end (R532). -/
def Dev.discover (d : Dev) (mems : List (List Bytes)) (sfps : List (Option Bytes)) : Dev :=
  if d.clk.discovered || d.bit Fld.CLK_STATUS_RESCUE || !d.bit Fld.CLK_STATUS_PLL_LOCK then d
  else
    let d1 := (List.range 6).foldl (fun (x : Dev) p => x.readIdentity false p ((mems[p]?).getD [])) d
    let d2 := (List.range 4).foldl (fun (x : Dev) p => match (sfps[p]?).join with
      | some a0 => (x.sfpInsert p a0).count Reg.INV_READS
      | none => x) d1
    let d3 := if d2.judgeOf 1 = .noOscillation ∧ d2.inv.xtal1Fitted = true then d2.judgedBad 1 0 else d2
    (d3.modClk (fun c => { c with discovered := true })).showStep

/-! ## Commands (R553) -/

/-- A position answered: an identity memory, or a module in an SFP cage whose page A0h has been read. -/
def Dev.answered (d : Dev) (pos : Nat) : Bool :=
  if pos < 6 then d.fbit Fld.INV_STATUS_PRESENT pos
  else !d.bit (Fld.NET_Pp_STATUS_MOD_ABS (pos - 6)) && !(d.port (pos - 6)).sfp.a0.isEmpty

def invRead (pos : Nat) (buf : HostBuf) (d : Dev) : Dev × CmdRes :=
  if 9 < pos ∨ buf.len < 256 then (d, .done sRange 0)
  else if !d.answered pos then (d, .done sNotValid 0)
  else (d, .block (slice (if pos < 6 then d.inv.mem.getD pos [] else (d.port (pos - 6)).sfp.a0) 0 256) (some buf.addr))

def invRescan (pos : Nat) (answers : List Bytes) (d : Dev) : Dev × CmdRes :=
  if 5 < pos then (d, .done sRange 0)
  else if pos = 0 ∨ (2 ≤ pos ∧ d.fbit Fld.ACQ_CTRL_FE_EN (pos - 2) = true) then (d, .done sBusy 0)
  else (d.readIdentity true pos answers, .ok)

/-! ## Image sets (R545) -/

/-- A little-endian field of a directory. -/
def dirAt (b : Bytes) (off n : Nat) : Nat := leNat (slice b off n)

/-- Image `i` of a set: its class and its bytes. -/
def norImage (b : Bytes) (i : Nat) : Nat × Bytes := (dirAt b (16 + 48 * i) 1, slice b (dirAt b (16 + 48 * i + 4) 4) (dirAt b (16 + 48 * i + 8) 4))

def norImages (b : Bytes) : List (Nat × Bytes) := (List.range (dirAt b 14 1)).map (norImage b)

/-- What AUTH covers: the directory up to it, with SET_SEQ at 0, so that the SET_SEQ that NOR_SET_WRITE gives changes no tag. -/
def norText (b : Bytes) : Bytes := zeroAt (slice b 0 400) 4 8

/-- AUTH verifies: under its key slot, or as the factory set. -/
def norAuth (k : KeySt) (b : Bytes) : Bool :=
  let slot := dirAt b 12 2 % 1024
  if slot = 0x3FF then decide (k.lc ≠ .returned) && Config.ecdsaVerify (norText b) (slice b 400 96)
  else match k.use slot with
    | .error _ => false
    | .ok s => decide (s.world = worldImage) && (match s.cur with
      | none => false
      | some v => decide (hmacSha256 v.bytes (norText b) = slice b 400 32 ∧ slice b 432 64 = zeros 64))

/-- A set is valid. -/
def norValid (k : KeySt) (b : Bytes) : Bool :=
  let imgs := norImages b
  let one (cls : Nat) : Bool := decide ((imgs.filter (fun x => decide (x.1 = cls))).length = 1)
  decide (512 ≤ b.length) && decide (dirAt b 0 4 = 0x31534947) && decide (3 ≤ dirAt b 14 1 ∧ dirAt b 14 1 ≤ 8)
    && decide (crc32 (slice b 0 508) = dirAt b 508 4) && norAuth k b
    && (List.range (dirAt b 14 1)).all (fun i =>
      decide (dirAt b (16 + 48 * i + 4) 4 + dirAt b (16 + 48 * i + 8) 4 ≤ b.length)
        && decide (sha256 (norImage b i).2 = slice b (16 + 48 * i + 16) 32))
    && one 0 && one 1 && one 3

def Dev.norSet (d : Dev) (i : Nat) : Option Bytes := (d.inv.nor[i]?).join

/-- SET_SEQ of what a chip holds, where it holds a directory. -/
def Dev.norSeq (d : Dev) (i : Nat) : Nat :=
  match d.norSet i with | some b => (if dirAt b 0 4 = 0x31534947 then dirAt b 4 8 else 0) | none => 0

/-- The set that start-up loads: the valid one with the higher SET_SEQ. -/
def Dev.norPick (k : KeySt) (d : Dev) : Option Nat :=
  let ok (i : Nat) : Bool := (d.norSet i).any (norValid k)
  if ok 0 && ok 1 then some (if d.norSeq 0 < d.norSeq 1 then 1 else 0)
  else if ok 0 then some 0 else if ok 1 then some 1 else none

/-- An engine image as its bank holds it (R342). -/
def engImageOf (img : Bytes) : EngImage :=
  { imageId := dirAt img 16 8, layout := dirAt img 12 4, prefetchOk := decide (dirAt img 4 1 / 4 % 2 = 1), code := img.drop 64 }

/-- Bank A of a class takes the set's image. -/
def Dev.loadBank (d : Dev) (b : Bytes) (cls : Nat) : Dev :=
  match (norImages b).find? (fun x => decide (x.1 = cls)) with
  | none => d
  | some x => (d.modSch (fun s => { s with banks := modifyAt s.banks (bankIx cls) (fun l => modifyAt l 0 (fun _ => some (engImageOf x.2))) })).setBank cls 0

/-- The engines after start-up: every one not retired is active, but for the spare, the highest-numbered phasor engine (R327); one that fails its
self-test is retired (R354). -/
def Dev.startEngines (d : Dev) (failing : Nat) : Dev :=
  let retired := d.fld Fld.ENG_RETIRED_ENGINE
  let pes := (List.range 16).filter (fun e => !retired.testBit e)
  let good := pes.filter (fun e => !failing.testBit e)
  let spare := if 15 < good.length then good.getLast? else none
  let active := good.filter (fun e => decide (some e ≠ spare))
  let des := (List.range 4).filter (fun e => !retired.testBit (16 + e))
  let d1 := ((d.setFld Fld.ENG_STATUS_PE_ACTIVE (maskOf active)).setFld Fld.ENG_STATUS_DE_ACTIVE (maskOf des)).setBit Fld.ENG_STATUS_NO_SPARE spare.isNone
  let d2 := match spare with | some e => d1.setFld Fld.ENG_STATUS_SPARE e | none => d1
  let d3 := d2.judgeEngines 16
  let bad := (List.range 20).filter (fun e => failing.testBit e && !retired.testBit e)
  bad.foldl (fun (x : Dev) e => (x.raise eSelftest e 11).retire e 1) d3

/-- The image set is verified and loaded, the engines are tested, and the management firmware runs. `chips` gives what NOR0 and NOR1 hold where
they have been programmed outside the device. -/
def imageSetVerify (chips : List (Option Bytes)) (failing : Nat) (k : KeySt) (d : Dev) : Dev :=
  if !d.clk.keyStarted || !d.clk.discovered || d.clk.imageLoaded || d.bit Fld.CLK_STATUS_RESCUE then d
  else
    let d1 := d.modInv (fun i => { i with nor := (List.range 2).map (fun n => (chips[n]?).join <|> (i.nor[n]?).join) })
    match Dev.norPick k d1 with
    | none => d1.modClk (fun c => { c with noImage := true })
    | some n =>
      let b := (d1.norSet n).getD []
      let d2 := ((d1.setFld Fld.RST_STATUS_IMG_SET n).setBit Fld.RST_STATUS_IMG_FALLBACK (decide (d1.norSeq n < d1.norSeq (1 - n)))).modInv
        (fun i => { i with norInUse := n })
      let d3 := [0, 1, 3].foldl (fun (x : Dev) cls => x.loadBank b cls) d2
      let d4 := (d3.modClk (fun c => { c with imageLoaded := true })).modSaf (fun s => { s with hbAt := d.up })
      (d4.startEngines failing).showStep

/-- The set as NOR_SET_WRITE writes it: SET_SEQ one above that of the set in use, and the CRC over the directory. -/
def norWithSeq (b : Bytes) (seq : Nat) : Bytes :=
  let dir := slice b 0 4 ++ leBytes 8 seq ++ slice b 12 496
  dir ++ leBytes 4 (crc32 dir) ++ b.drop 512

/-- NOR_SET_WRITE: the set not in use is written and verified. -/
def norSetWrite (image : Bytes) (k : KeySt) (d : Dev) : Dev × CmdRes :=
  if 67108864 < image.length then (d, .done sRange 0)
  else if d.inv.norBusy then (d, .done sBusy 0)
  else
    let b := norWithSeq image (d.norSeq d.inv.norInUse + 1)
    let other := 1 - d.inv.norInUse
    if norValid k b then (d.modInv (fun i => { i with nor := modifyAt i.nor other (fun _ => some b), norBusy := true }), .wait .norWrite)
    else (d.modInv (fun i => { i with nor := modifyAt i.nor other (fun _ => none) }), .done sAuthFail 0)

end Sys2Proof.Machine
end

