-- ==== Sys2Proof/Machine/ClkRows.lean ====
section
/-! DEFINITION. The rows of the table of operations that concern clocks, resets, start-up, module discovery and power fail. -/

namespace Sys2Proof.Machine

open Sys2Proof

/-- CLK_GATE_SET (R539): a write of CLK_GATE that sets the bits of the mask. -/
def execClkGateSet (mask : Nat) (s : State) : Answer :=
  s.run 0 (fun _ d => d.writeClkGate (d.reg Reg.CLK_GATE ||| BitVec.ofNat 32 (mask % 32768)))

/-- CLK_GATE_CLEAR (R539): a write of CLK_GATE that clears the bits of the mask. -/
def execClkGateClear (mask : Nat) (s : State) : Answer :=
  s.run 0 (fun _ d => d.writeClkGate (d.reg Reg.CLK_GATE &&& ~~~BitVec.ofNat 32 (mask % 32768)))

/-- GATE_CLOSE (R539). -/
def execGateClose (dt bit : Nat) (s : State) : Answer := s.run dt (fun _ d => d.closeGate bit)

/-- GLB_LOCK_WRITE (R562). -/
def execGlbLockWrite (value : Word) (s : State) : Answer := s.run 0 (fun _ d => d.writeLock value)

/-- PFW_ASSERT (R288). -/
def execPfwAssert (dt : Nat) (s : State) : Answer := s.run dt (fun _ d => d.pfwAssert)

/-- PFW_DEASSERT (R288): periodic saves resume at the next second. -/
def execPfwDeassert (dt : Nat) (s : State) : Answer := s.run dt (fun _ d => (d.setPfw false).modNrg (fun g => { g with savedSec := d.gSec }))

/-- NRG_FINAL_SAVE_DONE (R288). A reset that waits for the final saves begins (R542). `x.bad` are the points whose read-back fails. -/
def execNrgFinalSaveDone (x : FinalSaves) (s : State) : Answer :=
  checkRatio (s.runKey x.dt (fun k d => pendingReset k (d.finalSaved x.bad)))

/-- POWER_ON_RESET (R568): the level of PFW_N low and of TEST_EN at the release. -/
def execPowerOnReset (dt : Nat) (pfwLow testEn : Bool) (s : State) : Answer := s.runKey dt (powerOn pfwLow testEn)

/-- RAIL_FALL (R541). -/
def execRailFall (dt rail : Nat) (s : State) : Answer := s.runKey dt (railFall rail)

/-- RST_REQUEST_WARM (R542). -/
def execRstRequestWarm (c : Ctx) (confirm : Nat) (s : State) : Answer := checkRatio (s.runKey 0 (rstRequest c 0 confirm))

/-- RST_REQUEST_COLD (R542). -/
def execRstRequestCold (c : Ctx) (confirm : Nat) (s : State) : Answer := s.runKey 0 (rstRequest c 1 confirm)

/-- XTAL_JUDGED (R532): the offsets of the four gates of an input in 0.1 ppm, none where it does not oscillate. -/
def execXtalJudged (dt input : Nat) (gates : List Int) (s : State) : Answer := s.runKey dt (xtalJudged input gates)

/-- RESCUE (R533). -/
def execRescue (dt : Nat) (s : State) : Answer := s.runKey dt (fun k d => if d.rescueDue then enterRescue k d else (k, d))

/-- PLL_LOCK (R535). -/
def execPllLock (dt : Nat) (s : State) : Answer := s.run dt (fun _ d => d.pllLock)

/-- ROOT_LOSS (R534). -/
def execRootLoss (dt : Nat) (s : State) : Answer := s.run dt (fun _ d => d.rootLost)

/-- ROOT_REJUDGE (R534): as XTAL_JUDGED, in service. -/
def execRootRejudge (dt input : Nat) (gates : List Int) (s : State) : Answer := s.run dt (fun _ d => d.rejudge input gates)

/-- MODULE_DISCOVERY (R547): what each of positions 0 to 5 answers at its read and its retries, and page A0h of each SFP module present. -/
def execModuleDiscovery (dt : Nat) (mems : List (List Bytes)) (sfps : List (Option Bytes)) (s : State) : Answer :=
  s.run dt (fun _ d => d.discover mems sfps)

/-- KEY_STORE_START (R497). -/
def execKeyStoreStart (dt : Nat) (s : State) : Answer := s.runKey dt keyStart

/-- DDR_READY (R543): the capacity in GiB, and whether training after a warm reset has passed. -/
def execDdrReady (dt gib : Nat) (trained : Bool) (s : State) : Answer := s.run dt (fun _ d => d.ddrReady gib trained)

/-- IMAGE_SET_VERIFY (R545): what the NOR chips hold where they were programmed outside, and the engines that fail their self-test. -/
def execImageSetVerify (dt : Nat) (chips : List (Option Bytes)) (failing : Nat) (s : State) : Answer :=
  s.run dt (imageSetVerify chips failing)

/-- RECORDER_STARTED (R509). -/
def execRecorderStarted (dt : Nat) (s : State) : Answer := s.run dt (fun _ d => d.recorderStep)

/-- CMD_READY (R543). -/
def execCmdReady (dt : Nat) (s : State) : Answer := s.run dt (fun _ d => d.cmdReady)

/-- INV_READ (R553). -/
def execInvRead (c : Ctx) (pos : Nat) (buf : HostBuf) (s : State) : Answer := s.run 0 (fun _ d => d.accept c false none (invRead pos buf))

/-- INV_RESCAN (R549): what the position answers at its read and its retries. -/
def execInvRescan (c : Ctx) (pos : Nat) (answers : List Bytes) (s : State) : Answer :=
  s.run 0 (fun _ d => d.accept c false none (invRescan pos answers))

/-- NOR_SET_WRITE (R545): the set that the host buffer holds. -/
def execNorSetWrite (c : Ctx) (image : Bytes) (s : State) : Answer := s.run 0 (fun k d => d.accept c true none (norSetWrite image k))

end Sys2Proof.Machine
end

