-- ==== Sys2Proof/Machine/CycRows.lean ====
section
/-! DEFINITION. The rows of the table of operations that concern the cyclic logic, the remote stations and the field MACs. -/

namespace Sys2Proof.Machine

open Sys2Proof

/-! ## The cycle -/

/-- CYCLE_BOUNDARY (R300). -/
def execCycleBoundary (dt : Nat) (s : State) : Answer := s.run dt (fun _ d => d.cycleBoundary)

/-- CYCLE_EXEC_DONE (R299). What the program computes is its own: its writes to work data and to retained data are operands. -/
def execCycleExecDone (dt : Nat) (work retained : List (Nat × Bytes)) (s : State) : Answer := s.run dt (fun _ d => d.execDone work retained)

/-- OUTPUT_WRITE (R302). Bit n of `carrier`: segment n, or the gap after a frame, is busy. -/
def execOutputWrite (dt carrier : Nat) (s : State) : Answer := s.run dt (fun _ d => d.outputWrite carrier)

/-- CYC_FAULT (R304): execution still runs at the second boundary after its own. -/
def execCycFault (dt : Nat) (s : State) : Answer := s.run dt (fun _ d => if d.cycFaultDue then d.cycHalt 2 (some 0) else d)

/-- LOCKSTEP_MISMATCH (R293), which DG4 finds (R517). -/
def execLockstepMismatch (dt : Nat) (s : State) : Answer :=
  s.run dt (fun _ d =>
    if d.cyc.running && d.cyc.executing then ((d.count Reg.CYC_LOCKSTEP).cycHalt 2 (some 1)).raise eLockstep 0 4 else d)

/-- OUTPUT_FRAME_LATE (R310). -/
def execOutputFrameLate (dt seg : Nat) (s : State) : Answer := s.run dt (fun _ d => d.fieldLate seg true)

/-- STATION_REPLY (R311): an INPUT frame that the field MAC took, and whether its FCS is good. -/
def execStationReply (dt seg : Nat) (fcsOk : Bool) (payload : Bytes) (s : State) : Answer :=
  s.run dt (fun _ d => d.stationReply seg fcsOk payload)

/-- RETAINED_SAVE (R317). -/
def execRetainedSave (dt : Nat) (s : State) : Answer := s.run dt (fun k d => d.retSave k)

/-- RETAINED_SAVE_DONE (R317). `ok` says whether the read-back matched. -/
def execRetainedSaveDone (dt : Nat) (ok : Bool) (s : State) : Answer := s.run dt (fun _ d => d.retSaved ok)

/-! ## Commands (R324) -/

def Dev.setCodeBank (d : Dev) (b : Nat) (p : Option Program) : Dev :=
  (d.modCyc (fun c => { c with banks := modifyAt c.banks b (fun _ => p) })).setFbit Fld.CYC_STATUS_LOADED b p.isSome

def cycLoad (img : Bytes) (k : KeySt) (d : Dev) : Dev × CmdRes :=
  let b := 1 - d.fld Fld.CYC_STATUS_BANK
  if d.cyc.switch.isSome then (d, .done sBusy 0)
  else match imageAuth k img (d.fld Fld.CYC_CFG_KEY_SLOT) 64 124 with
    | some st => ((d.setCodeBank b none).countUse (.error st : Except Nat Slot), .done st 0)
    | none => if programFits img then (d.setCodeBank b (some (programOf img)), .ok) else (d.setCodeBank b none, .done sRange 0)

/-- CYC_LOAD (R296): the image that the host buffer holds. -/
def execCycLoad (c : Ctx) (image : Bytes) (s : State) : Answer :=
  s.run 0 (fun k d => d.accept c false (some 2) (cycLoad image k))

/-- A program starts: its first cycle is that of the next boundary. -/
def Dev.startProgram (d : Dev) (p : Program) : Dev :=
  let b := d.boundaryNow p.period
  let d1 := d.modCyc (fun c => { c with
    work := initInsts p [], boundary := b, nextBoundary := b + p.period, lastRead := none, first := true, ovrPrev := false, executing := false
    execDone := false, outPending := false, late := false, skipped := false, overruns := 0, failsafe := false, running := true, outputsOn := true, stopReq := none, since := 0 })
  ((d1.setFld Fld.CYC_STATUS_STATE 1).setFld Fld.CYC_EXEC_MAX 0).setReg64 Reg.CYC_PROG_ID_LO p.programId

def cycStart (init : Bool) (d : Dev) : Dev × CmdRes :=
  if d.bit Fld.SAF_STATUS_SAFE then (d, .done sSafeState 0)
  else if d.cyc.running then (d, .done sBusy 0)
  else match d.program with
    | none => (d, .done sNotValid 0)
    | some p =>
      if p.fitsCycle d.stationsNow = false then (d, .done sRange 0)
      else match d.retSetup p init with
        | none => (d, .done sRetMismatch 0)
        | some d1 => (d1.startProgram p, .wait .cycStart)

/-- CYC_START (R319). -/
def execCycStart (c : Ctx) (retInit : Bool) (s : State) : Answer := s.run 0 (fun _ d => d.accept c true (some 2) (cycStart retInit))

def cycStop (mode : Nat) (d : Dev) : Dev × CmdRes :=
  if 1 < mode then (d, .done sRange 0)
  else if d.cyc.running then (d.modCyc (fun c => { c with stopReq := some (max mode (c.stopReq.getD 0)) }), .wait .cycStop)
  else if d.cyc.outputsOn then
    (if mode = 1 ∧ d.fld Fld.CYC_STATUS_STATE = 0 ∧ d.cyc.failsafe = false then d.modCyc (fun c => { c with stopReq := some 1 }) else d, .wait .cycStop)
  else (d, .ok)

/-- CYC_STOP (R324): MODE 0 holds the outputs, MODE 1 commands fail-safe. -/
def execCycStop (c : Ctx) (mode : Nat) (s : State) : Answer := s.run 0 (fun _ d => d.accept c true (some 2) (cycStop mode))

def cycSwitch (target : Nat) (init : Bool) (d : Dev) : Dev × CmdRes :=
  if d.bit Fld.SAF_STATUS_SAFE then (d, .done sSafeState 0)
  else if d.waitsFor (fun w => decide (w = .cycSwitch)) || d.cyc.switch.isSome then (d, .done sBusy 0)
  else match d.otherProgram with
    | none => (d, .done sNotValid 0)
    | some p =>
      if p.fitsCycle d.stationsNow = false then (d, .done sRange 0)
      else if !init && d.program.any (fun o => decide (o.layoutId ≠ p.layoutId)) then (d, .done sRetMismatch 0)
      else if d.cyc.running then
        ((d.modCyc (fun c => { c with switch := some (target, init) })).setBit Fld.CYC_STATUS_SWITCH_PEND true, .wait .cycSwitch)
      else (d.exchange d.program p init, .wait .cycSwitch)

/-- CYC_SWITCH (R320). -/
def execCycSwitch (c : Ctx) (target : Nat) (retInit : Bool) (s : State) : Answer :=
  s.run 0 (fun _ d => d.accept c true (some 2) (cycSwitch target retInit))

def rioStationSet (n : Nat) (image : Bytes) (d : Dev) : Dev × CmdRes :=
  let valid := (fieldAt image 0 1).testBit 0
  let new : Option StationEntry := if valid then some (stationOf image) else none
  let others := d.cyc.stations.filterMap (fun (x : Nat × StationSt) => if x.1 = n then none else x.2.newest)
  let es := new.toList ++ others
  let bad := decide (31 < n) || resvSet stationResv image || !(stationOf image).fits
    || new.any (fun e => others.any (fun o => decide (o.seg = e.seg ∧ o.addr = e.addr)))
    || (d.cyc.running && d.program.any (fun p => !p.fitsCycle es))
  if bad then (d, .done sRange 0)
  else
    let d1 := d.setStation n { d.station n with next := some new }
    (if d.cyc.outputsOn then d1 else d1.stationsTake, .ok)

/-- RIO_STATION_SET (R312). -/
def execRioStationSet (c : Ctx) (station : Nat) (image : Bytes) (s : State) : Answer :=
  s.run 0 (fun _ d => d.accept c false (some 2) (rioStationSet station image))

def rioRead (buf : HostBuf) (d : Dev) : Dev × CmdRes :=
  if buf.len < 1024 then (d, .done sRange 0) else (d, .block (slice d.cyc.stationImage 0 1024) (some buf.addr))

/-- RIO_READ (R324). -/
def execRioRead (c : Ctx) (buf : HostBuf) (s : State) : Answer := s.run 0 (fun _ d => d.accept c false (some 2) (rioRead buf))

/-! ## Segments and field MACs (R323, R381, R382) -/

/-- RIO_CTRL is written. -/
def writeRioCtrl (v : Word) (d : Dev) : Dev := if d.gatedAt Reg.RIO_CTRL then d else d.writePlain Reg.RIO_CTRL v

/-- RIO_SEG_ENABLE (R323): a write of RIO_CTRL. -/
def execRioSegEnable (value : Word) (s : State) : Answer := s.run 0 (fun _ d => writeRioCtrl value d)

/-- A field MAC that does not run receives nothing. -/
def Dev.fieldRx (d : Dev) (g : Nat) (f : FieldFrame) : Dev :=
  if !(decide (g < 2) && d.fbit Fld.NET_FLD_CFG_EN g) then d
  else if !f.fcsOk then d.count (Reg.NET_FLDn_RX_FCS_ERR g)
  else if f.size < 64 ∨ 1518 < f.size ∨ f.etype ≠ d.fld Fld.RIO_CFG_ETYPE ∨ (f.dst ≠ 2 ^ 48 - 1 ∧ f.dst ≠ d.reg64 (Reg.NET_FLDn_MAC_LO g)) then
    d.count (Reg.NET_FLDn_RX_FILT_DROP g)
  else d.count (Reg.NET_FLDn_RX_FRAMES g)

/-- FIELD_FRAME_RX (R382): the MAC accepts or discards the frame; its content is judged by STATION_REPLY. -/
def execFieldFrameRx (dt seg : Nat) (frame : FieldFrame) (s : State) : Answer := s.run dt (fun _ d => d.fieldRx seg frame)

/-- FIELD_COLLISION (R381). -/
def execFieldCollision (dt seg : Nat) (s : State) : Answer := s.run dt (fun _ d => d.fieldCollision seg)

/-- FIELD_BACKOFF_EXPIRE (R381). `carrier`: the segment, or the gap after a frame, is busy. -/
def execFieldBackoffExpire (dt seg : Nat) (carrier : Bool) (s : State) : Answer := s.run dt (fun _ d => d.fieldRetry seg carrier)

/-- CARRIER_DEFER_END (R381). -/
def execCarrierDeferEnd (dt seg : Nat) (s : State) : Answer := s.run dt (fun _ d => d.fieldDeferEnd seg)

end Sys2Proof.Machine
end

