-- ==== Sys2Proof/Machine/EngineRows.lean ====
section
/-! DEFINITION. The rows of the table of operations that concern the engines and the hardware scheduler (R327 to R354). -/

namespace Sys2Proof.Machine

open Sys2Proof

/-- The epoch of the oldest open slot for which the record of a LOCAL stream is to be estimated. -/
def Dev.localNext (d : Dev) (i : Nat) : Option Nat := (d.crt.slots.map (fun x => x.1)).find? (fun e => (d.localDue i e).isSome)

/-- An item completes, and its results are released as one unit (R329). Those of prediction fill and of the logic processor's and the
management cores' items are the effects of their own rows (log 145). -/
def Dev.releaseItem (k : KeySt) (d : Dev) (r : Running) (ecc : Nat) : Dev :=
  let o := r.q.item.origin
  let i := r.q.item.tag
  if o = 0x01 then d.convDone r ecc
  else
    let d1 := d.complete' r
    if o = 0x03 then (match d1.localNext i with | some e => d1.localEstimate i e | none => d1)
    else if o = 0x04 then Dev.sessPublish k d1 i
    else if o = 0x05 then d1.trackUpdate
    else if o = 0x06 then d1.ssoUpdate
    else if o = 0x07 then d1.energyRanking
    else d1

/-- The item that an engine runs completes. -/
def Dev.itemDone (k : KeySt) (d : Dev) (engine ecc : Nat) : Dev :=
  match d.runningOn engine with
  | none => d
  | some r => Dev.releaseItem k d r ecc

/-- A conversion item that is discarded takes its FIFO item with it, which counts in LOST (R339). -/
def Dev.discardConv (d : Dev) (r : Running) : Dev :=
  if r.q.item.origin = 1 then
    match (d.stream r.q.item.tag).fifo with
    | [] => d
    | it :: rest => ((d.modStream r.q.item.tag (fun s => { s with fifo := rest, lost := s.lost + 1, drain := s.drain - 1 })).useCells 0 it.cells).drainDone
  else d

/-- The running item of an engine is aborted (R339): it runs once more elsewhere, or is discarded. LE items never are. -/
def Dev.abortOn (d : Dev) (r : Running) (counter : Nat) : Dev :=
  if r.q.item.cls = 2 then d
  else
    let res := (d.count counter).abortItem r (decide (counter = Reg.SCH_BUDGET))
    (if res.2 then res.1.discardConv r else res.1).refreshSch

/-- The running item is past its BUDGET, in µs. -/
def Dev.overBudget (d : Dev) (r : Running) : Bool := decide (r.q.item.budget * 1000 < r.q.ranNs + (d.up - r.since))

def Dev.budgetOverrun (d : Dev) (engine : Nat) : Dev :=
  match d.runningOn engine with
  | none => d
  | some r => if d.overBudget r then d.abortOn r Reg.SCH_BUDGET else d

/-- An image exception of the logic processor: its writes are withheld and the program enters FAULT (R293, R303, R339). The spec lists
no cause for it: that argument of the event is a free value. -/
def Dev.leException (d : Dev) : Dev :=
  if d.cyc.running && d.cyc.executing then
    let d1 := (d.count Reg.ENG_EXC).cycHalt 2 none
    match d1.runningOn 20 with
    | none => d1
    | some r => d1.endService r
  else d

/-- An item raises an image exception: the class falls back to its old bank where R345 applies to the item, else R339. -/
def Dev.imageException (d : Dev) (engine : Nat) : Dev :=
  if engine = 20 then d.leException
  else
    match d.runningOn engine with
    | none => d
    | some r =>
      match d.fallback r.q.item.cls with
      | some old => if r.bank ≠ old then d.fallBack r old else d.abortOn r Reg.ENG_EXC
      | none => d.abortOn r Reg.ENG_EXC

/-- The same, where R345 applies. -/
def Dev.imageFaultOn (d : Dev) (engine : Nat) : Dev :=
  match d.runningOn engine with
  | none => d
  | some r =>
    match d.fallback r.q.item.cls with
    | some old => if r.bank ≠ old then d.fallBack r old else d
    | none => d

/-- SCH_TRACE_CFG is written: EN stays 0 where DDR5 is not ready or cannot hold the trace buffer (R349, R546). -/
def Dev.writeTraceCfg (d : Dev) (v : Word) : Dev :=
  let was := d.bit Fld.SCH_TRACE_CFG_EN
  let d1 := d.writePlain Reg.SCH_TRACE_CFG v
  let need := d1.layoutCrt + d1.fld Fld.GEY_CFG_BUF_SIZE + d1.fld Fld.SCH_TRACE_CFG_BUF_SIZE
  if d1.bit Fld.SCH_TRACE_CFG_EN && !was && (!d1.bit Fld.RST_STATUS_DDR_READY || decide (d1.ddrMib < need)) then
    (d1.setBit Fld.SCH_TRACE_CFG_EN false).setBit Fld.SCH_STATUS_CFG_ERR true
  else d1

/-- SCH_TRACE_ENABLE (R349): a write of SCH_TRACE_CFG with EN 1. -/
def execSchTraceEnable (value : Word) (s : State) : Answer :=
  s.run 0 (fun _ d => if bitsAt value 0 1 = 1 then d.unlessGated Reg.SCH_TRACE_CFG (fun x => x.writeTraceCfg value) else d)

/-- WORK_ITEM_DISPATCH (R331): a producer may issue an item first, at the values of R330; then the class dispatches its next item. -/
def execWorkItemDispatch (dt : Nat) (item : Option WorkItem) (cls : Nat) (s : State) : Answer :=
  s.run dt (fun _ d => (match item with | some i => d.issue i.origin i.tag i.arg | none => d).dispatch cls)

/-- WORK_ITEM_PREEMPT (R335). -/
def execWorkItemPreempt (dt cls : Nat) (s : State) : Answer := s.run dt (fun _ d => d.preempt cls)

/-- WORK_ITEM_COMPLETE (R329): the item that an engine runs; `ecc` as for CONVERSION_ITEM. -/
def execWorkItemComplete (dt engine ecc : Nat) (s : State) : Answer := s.run dt (fun k d => Dev.itemDone k d engine ecc)

/-- BUDGET_OVERRUN (R339). -/
def execBudgetOverrun (dt engine : Nat) (s : State) : Answer := s.run dt (fun _ d => d.budgetOverrun engine)

/-- IMAGE_EXCEPTION (R339). -/
def execImageException (dt engine : Nat) (s : State) : Answer := s.run dt (fun _ d => d.imageException engine)

/-- ENGINE_RETIRE (R340): cause 0 an uncorrectable error, 1 a failed self-test, 2 budget overruns. -/
def execEngineRetire (dt engine cause : Nat) (s : State) : Answer := s.run dt (fun _ d => (d.retireError engine cause).retire engine cause)

/-- SPARE_JOIN (R340). -/
def execSpareJoin (dt : Nat) (s : State) : Answer := s.run dt (fun _ d => d.spareJoin)

/-- IMAGE_FAULT (R345). -/
def execImageFault (dt engine : Nat) (s : State) : Answer := s.run dt (fun _ d => d.imageFaultOn engine)

/-- MC_HEARTBEAT (R348). -/
def execMcHeartbeat (dt : Nat) (s : State) : Answer := s.run dt (fun _ d => d.heartbeat)

/-- MC_DEFER (R347): the share of MC time measured, in percent. -/
def execMcDefer (dt pct : Nat) (s : State) : Answer := s.run dt (fun _ d => d.mcLoad pct)

/-- MC_DEFER_LONG (R347). -/
def execMcDeferLong (dt task : Nat) (s : State) : Answer := s.run dt (fun _ d => d.mcDeferLong task)

/-- ENG_IMG_LOAD (R343): the image that the host buffer holds. -/
def execEngImgLoad (c : Ctx) (image : Bytes) (s : State) : Answer := s.run 0 (fun k d => d.accept c false none (engImgLoad image k))

/-- ENG_SWITCH (R344). -/
def execEngSwitch (c : Ctx) (cls : Nat) (s : State) : Answer := s.run 0 (fun _ d => d.accept c true none (engSwitch cls))

/-- SCH_TRACE_READ (R352). -/
def execSchTraceRead (c : Ctx) (first : Nat) (buf : HostBuf) (s : State) : Answer :=
  s.run 0 (fun _ d => d.accept c false none (schTraceRead first buf))

end Sys2Proof.Machine
end

