-- ==== Sys2Proof/Machine/HifOps.lean ====
section
/-! DEFINITION. The host interface: ring set-up, doorbells, completion of buffers, interrupts, host-interface resets (R447 to R475). -/

namespace Sys2Proof.Machine

open Sys2Proof

/-! ## Ring set-up (R451, R452) -/

/-- Rings of a kind that may be enabled at once; 0 for a kind that is unused or reserved. -/
def ringsAllowed (kind : Nat) : Nat := if kind = 1 ∨ kind = 2 then 4 else if 3 ≤ kind ∧ kind ≤ 8 then 1 else 0

/-- A ring of EN 0 and STATE 0. -/
def Dev.ringIdle (d : Dev) (n : Nat) : Bool := !d.bit (Fld.HIF_RINGn_CFG_EN n) && decide (d.fld (Fld.HIF_RINGn_STAT_STATE n) = 0)

/-- The enabled rings of a kind beside ring `n`. -/
def Dev.othersOf (d : Dev) (n kind : Nat) : Nat :=
  ((List.range 32).filter (fun m => decide (m ≠ n) && d.bit (Fld.HIF_RINGn_CFG_EN m) && decide (d.fld (Fld.HIF_RINGn_CFG_KIND m) = kind))).length

def Dev.hifErr (d : Dev) : Dev := d.setBit Fld.HIF_STATUS_CFG_ERR true

/-- What waits for a device-to-host ring goes to it. -/
def Dev.pumpRing (d : Dev) (n : Nat) : Dev :=
  let kind := d.fld (Fld.HIF_RINGn_CFG_KIND n)
  if kind = 4 then d.pumpSnapRing else d.pump kind

/-- A ring starts. -/
def Dev.startRing (d : Dev) (n : Nat) : Dev :=
  let d1 := ((d.setRegN (Reg.HIF_RINGn_POSTED n) 0).setRegN (Reg.HIF_RINGn_DONE n) 0).setRegN (Reg.HIF_RINGn_STAT n) 1
  (d1.setRing n { session := (d.ring n).session + 1 }).pumpRing n

/-- A ring stops fetching and drains. -/
def Dev.stopRing (d : Dev) (n : Nat) : Dev :=
  let d1 := (d.haltRing n).setFld (Fld.HIF_RINGn_STAT_STATE n) 2
  d1.setRing n { d1.ring n with drainFrom := d.up }

/-- HIF_RINGn_CFG is written. -/
def writeRingCfg (n : Nat) (v : Word) (d : Dev) : Dev :=
  let off := Reg.HIF_RINGn_CFG n
  let r := d.writeRes off v
  let w := r.word
  let old := d.reg off
  let fixed : Word := withBits w 1 9 (bitsAt old 1 9)
  let refused := !d.ringIdle n && decide (bitsAt w 1 9 ≠ bitsAt old 1 9)
  let w1 := if refused then fixed else w
  let d1 := d.noteWrite off r
  let d2 := if refused then d1.hifErr else d1
  let kind := bitsAt w1 1 4
  let on := decide (bitsAt w1 0 1 = 1)
  let was := decide (bitsAt old 0 1 = 1)
  if on && !was then
    if d2.othersOf n kind < ringsAllowed kind ∧ d2.fld (Fld.HIF_RINGn_STAT_STATE n) ≠ 2 then (d2.setReg off w1).startRing n
    else (d2.setReg off (withBits w1 0 1 0)).hifErr
  else if was && !on then (d2.setReg off w1).stopRing n
  else d2.setReg off w1

/-- HIF_RINGn_BASE_LO and _HI are written as one value: discarded where it would change the base of a ring that is not idle. -/
def writeRingBase (n : Nat) (lo hi : Word) (d : Dev) : Dev :=
  let lo1 : Word := withBits lo 0 12 0
  let same := decide (d.reg (Reg.HIF_RINGn_BASE_LO n) = lo1) && decide (d.reg (Reg.HIF_RINGn_BASE_HI n) = hi)
  if d.ringIdle n || same then (d.setReg (Reg.HIF_RINGn_BASE_LO n) lo1).setReg (Reg.HIF_RINGn_BASE_HI n) hi else d.hifErr

/-- The DMA in flight of a draining ring has ended. -/
def Dev.ringDrained (d : Dev) (n : Nat) : Dev :=
  if d.fld (Fld.HIF_RINGn_STAT_STATE n) = 2 ∧ n < 32 then d.setFld (Fld.HIF_RINGn_STAT_STATE n) 0 else d

/-! ## Doorbells (R454, R455) -/

/-- Descriptors of ring `n` owned by the device once POSTED is `posted`: counted from the oldest one not yet completed. -/
def Dev.ownedThen (d : Dev) (n posted : Nat) : Nat :=
  let r := d.ring n
  let oldest := if d.fld (Fld.HIF_RINGn_CFG_KIND n) = 1 then r.open_.foldl min r.next else d.regN (Reg.HIF_RINGn_DONE n)
  (posted + 2 ^ 32 - oldest % 2 ^ 32) % 2 ^ 32

/-- The time of MOD_US since the first unsignalled completion has run out. -/
def Dev.modExpired (d : Dev) (n : Nat) : Bool :=
  decide ((d.ring n).firstUnsigAt + d.fld (Fld.HIF_RINGn_IRQ_MOD_US n) * 1000 ≤ d.up)

/-- ARM of a doorbell acts. -/
def Dev.armRing (d : Dev) (n : Nat) : Dev := (d.setBit (Fld.HIF_RINGn_STAT_ARMED n) true).judgeSignal n (d.modExpired n)

/-- The `count` descriptors that a doorbell posts, none where the DMA read of one fails. -/
def postedBufs (count : Nat) (bufs : List PostedBuf) : Option (List BufDesc) :=
  let l := bufs.take count
  if l.length < count ∨ l.any (fun b => !b.readOk) = true then none else some (l.map (fun b => { addr := b.addr, len := b.len, resv := b.resv }))

/-- A doorbell of ring `n`. The buffer descriptors that it posts are read with it (log 176). -/
def Dev.ringDoorbell (d : Dev) (n posted : Nat) (arm : Bool) (bufs : List PostedBuf) : Dev :=
  let diff := signedDiff 32 posted (d.regN (Reg.HIF_RINGn_POSTED n))
  if diff < 0 then d.count Reg.HIF_DB_BAD
  else if 2 ^ d.fld (Fld.HIF_RINGn_CFG_LOG2_SIZE n) < d.ownedThen n posted then d.ringFails n sRange posted
  else
    let d1 := if arm then d.armRing n else d
    if diff = 0 then d1
    else
      let d2 := d1.setRegN (Reg.HIF_RINGn_POSTED n) posted
      if 4 ≤ d2.fld (Fld.HIF_RINGn_CFG_KIND n) then
        match postedBufs diff.toNat bufs with
        | none => d2.readFails n
        | some l => (d2.setRing n { d2.ring n with bufs := (d2.ring n).bufs ++ l }).pumpRing n
      else d2

/-- A write within BAR2 of 4 or 8 bytes. -/
def Dev.doorbell (d : Dev) (offset size value : Nat) (bufs : List PostedBuf) : Dev :=
  let n := offset / 256
  if offset % 256 = 0 ∧ n < 32 ∧ (size = 8 ∨ size = 4) ∧ value < (if size = 4 then 2 ^ 32 else 2 ^ 33)
      ∧ d.bit (Fld.HIF_RINGn_CFG_EN n) = true ∧ d.fld (Fld.HIF_RINGn_STAT_STATE n) ≠ 3 then
    d.ringDoorbell n (value % 2 ^ 32) (decide (2 ^ 32 ≤ value)) bufs
  else d.count Reg.HIF_DB_BAD

/-- What a read of 4 or 8 bytes within BAR2 returns: DONE and STATE at a doorbell, 0 elsewhere (R454, R559). -/
def Dev.doorbellRead (d : Dev) (offset size : Nat) : DWord :=
  let n := offset / 256
  let done := d.regN (Reg.HIF_RINGn_DONE n)
  let state := d.fld (Fld.HIF_RINGn_STAT_STATE n)
  if 32 ≤ n then 0
  else if offset % 256 = 0 ∧ size = 8 then BitVec.ofNat 64 (done + 2 ^ 32 * state)
  else if offset % 256 = 0 ∧ size = 4 then BitVec.ofNat 64 done
  else if offset % 256 = 4 ∧ size = 4 then BitVec.ofNat 64 state
  else 0

/-! ## Buffers and interrupts (R463, R471, R474) -/

/-- A buffer of ring `n` holds a record and completes now. -/
def Dev.flushRing (d : Dev) (n : Nat) : Dev := if (d.ring n).cur.any (fun b => decide (0 < b.used)) then d.closeBuf n false else d

def Dev.coalesce (d : Dev) (n : Nat) : Dev :=
  let us := d.fld (Fld.HIF_RINGn_CFG_COALESCE_US n)
  if (d.ring n).cur.any (fun b => decide (b.firstAt + us * 1000 ≤ d.up)) && decide (us ≠ 0) && d.hostReady then d.flushRing n else d

def hifFlush (n : Nat) (d : Dev) : Dev × CmdRes :=
  if (List.range 4).any (fun i => d.runs n (5 + i)) then (d.flushRing n, .ok) else (d, .done sRange 0)

/-- A word of the MSI-X table is written; an entry that is no longer masked sends its pending message. -/
def writeMsix (off : Nat) (v : Word) (d : Dev) : Dev :=
  let vec := (off - 0x030000) / 16
  let w : Word := if off % 16 = 12 then withBits 0 0 1 (bitsAt v 0 1) else if off % 16 = 0 then withBits v 0 2 0 else v
  let d1 := d.setReg off w
  let pba := 0x031000 + 4 * (vec / 32)
  if off % 16 = 12 ∧ w = 0 ∧ (d1.regN pba).testBit (vec % 32) = true then (d1.setRegN pba (putBit (d1.regN pba) (vec % 32) false)).sendMsix vec
  else d1

/-- Every vector whose message is pending and which is not masked sends it. -/
def Dev.sendPending (d : Dev) : Dev :=
  (List.range 64).foldl (fun (x : Dev) v =>
    let pba := 0x031000 + 4 * (v / 32)
    if (x.regN pba).testBit (v % 32) && decide (x.regN (msixOff v 3) % 2 = 0) then (x.setRegN pba (putBit (x.regN pba) (v % 32) false)).sendMsix v else x) d

/-! ## Resets of the interface, D3hot, the link (R449, R450) -/

/-- The counters of the host interface, with HIF_STATUS. -/
def hifKept : List Nat := [0x020004, 0x020008, 0x02000C, 0x020010, 0x020014, 0x020018, 0x02001C]

/-- The reset values of the host interface's registers and of the MSI-X table, where they are not 0. -/
def hifResets : Tbl Word :=
  [(0x020000, 0x3F), (0x020020, 1)] ++ (List.range 32).flatMap (fun n => [(0x021008 + 32 * n, 0xC0), (0x02100C + 32 * n, 1)]) ++
    (List.range 64).map (fun v => (0x03000C + 16 * v, 1))

/-- The register file with every register of the host interface at its reset value, the counters and CMD_READY kept. -/
def Dev.resetHifRegs (d : Dev) : Dev :=
  let kept := d.regs.keep (fun off _ => decide (off < 0x020000) || decide (0x040000 ≤ off) || hifKept.contains off)
  let d1 := { d with regs := hifResets.foldl (fun (t : Tbl Word) (x : Nat × Word) => t.put x.1 x.2) kept }
  d1.setRegN Reg.HIF_STATUS (d.fld Fld.HIF_STATUS_CMD_READY)

/-- A host-interface reset. Accepted commands run to their end, but their completions are never written. -/
def Dev.hostReset (d : Dev) : Dev :=
  let d1 := (List.range 32).foldl (fun (x : Dev) n =>
    let y := x.haltRing n
    y.setRing n { session := (y.ring n).session + 1 }) d
  let d2 := d1.modHif (fun h => { h with
    waiting := h.waiting.map (fun w => { w with dead := true }), heldDone := [], linkUp := false
    latches := h.latches.keep (fun off _ => decide (off < 0x020000) || decide (0x040000 ≤ off))
    heldLo := h.heldLo.keep (fun off _ => decide (off < 0x020000) || decide (0x040000 ≤ off)) })
  let d3 := (d2.resetHifRegs).count Reg.HIF_HOST_RESETS
  d3.event .hostReset noIndex (d3.regN Reg.HIF_HOST_RESETS)

/-- The function returns to D0: completions, records and messages that have waited go out. -/
def Dev.leaveD3 (d : Dev) : Dev :=
  if d.bit Fld.HIF_STATUS_D3 then
    let d1 := (d.setBit Fld.HIF_STATUS_D3 false).modHif (fun h => { h with heldDone := [] })
    let d2 := d.hif.heldDone.foldl (fun (x : Dev) c => x.complete c.ring c.k c.session c.status c.result c.addr c.block) d1
    (([5, 6, 7, 8].foldl (fun (x : Dev) kind => x.pump kind) d2).pumpSnapRing).sendPending
  else d

/-- The link has trained: lanes and speed code. -/
def Dev.pcieUp (d : Dev) (width speed : Nat) : Dev :=
  if (width = 1 ∨ width = 2 ∨ width = 4 ∨ width = 8) ∧ 1 ≤ speed ∧ speed ≤ 4 then
    ((((d.modHif (fun h => { h with linkUp := true })).setFld Fld.HIF_STATUS_LINK_WIDTH width).setFld Fld.HIF_STATUS_LINK_SPEED speed).setBit
      Fld.HIF_STATUS_FULL_LINK (decide (width = 8 ∧ speed = 4)))
  else d

end Sys2Proof.Machine
end

