-- ==== Sys2Proof/Machine/HifRows.lean ====
section
/-! DEFINITION. The rows of the table of operations that concern the host interface, but the acceptance of raw command descriptors. -/

namespace Sys2Proof.Machine

open Sys2Proof

/-- RING_ENABLE (R452): a write of HIF_RINGn_CFG. -/
def execRingEnable (ring : Nat) (value : Word) (s : State) : Answer := s.run 0 (fun _ d => if ring < 32 then writeRingCfg ring value d else d)

/-- RING_DISABLE (R452): HIF_RINGn_CFG is written back with EN 0. -/
def execRingDisable (ring : Nat) (s : State) : Answer :=
  s.run 0 (fun _ d => if ring < 32 then writeRingCfg ring (withBits (d.reg (Reg.HIF_RINGn_CFG ring)) 0 1 0) d else d)

/-- RING_DRAINED (R452). -/
def execRingDrained (dt ring : Nat) (s : State) : Answer := s.run dt (fun _ d => d.ringDrained ring)

/-- DOORBELL (R455): a write within BAR2, and the buffer descriptors it posts where its ring is a device-to-host ring. -/
def execDoorbell (offset size value : Nat) (bufs : List PostedBuf) (s : State) : Answer :=
  s.run 0 (fun _ d => d.doorbell offset size value bufs)

/-- The event of a waiting command has occurred. The commands of the cyclic program complete with their output write or cycle boundary, and
TIM_REACQUIRE with a domain sample or at its timeout. -/
def Dev.occurred (d : Dev) : WaitKind → Bool
  | .cycStart | .cycStop | .cycSwitch => false
  | .engSwitch cls => ((d.sch.switching[bankIx cls]?).join).isNone
  | .fabJoin => d.joined
  | .fabLeave => !d.joined && !d.fab.leaving
  | .streamHistory i => (d.stream i).awaiting.isNone
  | .timReacquire => false
  | .proofRun => d.saf.proof.isNone
  | .sntClear => d.snt.header.clear.isNone
  | .norWrite => true

/-- COMMAND_WAIT_DONE (R459): the waiting commands whose event has occurred complete. An image set that is being written is written. -/
def execCommandWaitDone (dt : Nat) (s : State) : Answer :=
  s.run dt (fun _ d => (d.modInv (fun i => { i with norBusy := false })).finishWaits (fun w => Dev.occurred d w) sOk 0)

/-- BUFFER_COMPLETE (R463): the records that wait for a ring are placed, and the buffers that they fill complete. -/
def execBufferComplete (dt ring : Nat) (s : State) : Answer := s.run dt (fun _ d => if ring < 32 then d.pumpRing ring else d)

/-- COALESCE_EXPIRE (R463). -/
def execCoalesceExpire (dt ring : Nat) (s : State) : Answer := s.run dt (fun _ d => if ring < 32 then d.coalesce ring else d)

/-- MSIX_MODERATION_EXPIRE (R471). -/
def execMsixModerationExpire (dt ring : Nat) (s : State) : Answer :=
  s.run dt (fun _ d => if ring < 32 then d.judgeSignal ring (d.modExpired ring) else d)

/-- HOST_INTERFACE_RESET (R450). -/
def execHostInterfaceReset (dt : Nat) (s : State) : Answer := s.run dt (fun _ d => d.hostReset)

/-- D3HOT_ENTRY (R450). -/
def execD3hotEntry (dt : Nat) (s : State) : Answer := s.run dt (fun _ d => d.setBit Fld.HIF_STATUS_D3 true)

/-- D3HOT_EXIT (R450). -/
def execD3hotExit (dt : Nat) (s : State) : Answer := s.run dt (fun _ d => d.leaveD3)

/-- PCIE_LINK_UP (R449): lanes, and the speed code of HIF_STATUS. -/
def execPcieLinkUp (dt width speed : Nat) (s : State) : Answer := s.run dt (fun _ d => d.pcieUp width speed)

/-- MSIX_UNMASK (R471). -/
def execMsixUnmask (vector : Nat) (s : State) : Answer := s.run 0 (fun _ d => if vector < 64 then writeMsix (msixOff vector 3) 0 d else d)

/-- HIF_NOP (R474). -/
def execHifNop (c : Ctx) (value : Nat) (s : State) : Answer := s.run 0 (fun _ d => d.accept c false none (fun x => (x, .done sOk (value % 2 ^ 32))))

/-- HIF_FLUSH (R474). -/
def execHifFlush (c : Ctx) (ring : Nat) (s : State) : Answer := s.run 0 (fun _ d => d.accept c false none (hifFlush ring))

end Sys2Proof.Machine
end

