-- ==== Sys2Proof/Machine/KeyRows.lean ====
section
/-! DEFINITION. The rows of the table of operations that concern the key store. Each update message comes with the host memory that
its descriptor names, the descriptor, and how many of the six writes of its commit are made before the supply is lost. -/

namespace Sys2Proof.Machine

open Sys2Proof

/-- INSTALL (R489). -/
def execInstall (dt ring : Nat) (desc : KeyDesc) (msg : Bytes) (upTo : Nat) (s : State) : Answer := s.runKey dt (keyUpdateRow 1 ring desc msg upTo)

/-- STAGE_NEXT (R489). -/
def execStageNext (dt ring : Nat) (desc : KeyDesc) (msg : Bytes) (upTo : Nat) (s : State) : Answer := s.runKey dt (keyUpdateRow 2 ring desc msg upTo)

/-- PROMOTE (R489). -/
def execPromote (dt ring : Nat) (desc : KeyDesc) (msg : Bytes) (upTo : Nat) (s : State) : Answer := s.runKey dt (keyUpdateRow 3 ring desc msg upTo)

/-- INVALIDATE (R489). -/
def execInvalidate (dt ring : Nat) (desc : KeyDesc) (msg : Bytes) (upTo : Nat) (s : State) : Answer := s.runKey dt (keyUpdateRow 4 ring desc msg upTo)

/-- LIFECYCLE (R492). -/
def execLifecycle (dt ring : Nat) (desc : KeyDesc) (msg : Bytes) (upTo : Nat) (s : State) : Answer := s.runKey dt (keyUpdateRow 5 ring desc msg upTo)

/-- OWNER_INIT (R487). -/
def execOwnerInit (dt ring : Nat) (desc : KeyDesc) (msg : Bytes) (upTo : Nat) (s : State) : Answer := s.runKey dt (keyUpdateRow 6 ring desc msg upTo)

/-- KEY_SWEEP (R484). -/
def execKeySweep (dt : Nat) (s : State) : Answer := s.runKey dt (fun k d => (if k.started && !k.interrupted then k.runSweep else k, d))

/-- KEY_INFO (R495). -/
def execKeyInfo (c : Ctx) (first count : Nat) (buf : HostBuf) (s : State) : Answer := s.run 0 (fun k d => d.accept c false none (keyInfo k first count buf))

/-- KEY_REENROL is accepted: its checks, then the new enrolment. -/
def keyReenrol (c : Ctx) (confirm : Nat) (k : KeySt) (d : Dev) : KeySt × Dev :=
  let st := keyReenrolCheck k confirm
  if d.accepts c.ring && !d.bit Fld.CLK_STATUS_RESCUE && decide (d.hif.waiting.length < 64) && decide (st = sOk) then
    ((enrolNow k d).1, d.accept c true none (fun x => ((enrolNow k x).2, .ok)))
  else (k, d.accept c true none (fun x => (x, .done st 0)))

/-- KEY_REENROL (R492). -/
def execKeyReenrol (c : Ctx) (confirm : Nat) (s : State) : Answer := s.runKey 0 (keyReenrol c confirm)

/-- TRNG_FAIL (R479). -/
def execTrngFail (dt : Nat) (s : State) : Answer := s.runKey dt trngFails

/-- TRNG_RECOVER (R479): the 1,024 consecutive samples have passed. -/
def execTrngRecover (dt : Nat) (s : State) : Answer := s.runKey dt (fun k d => trngPass k d.seedFields)

end Sys2Proof.Machine
end

