-- ==== Sys2Proof/Machine/NrgRows.lean ====
section
/-! DEFINITION. The rows of the table of operations that concern interchange energy. The power-fail rows stand with the
resets. -/

namespace Sys2Proof.Machine

open Sys2Proof

/-! ## Enable (R287) -/

/-- NRG_CTRL is written. -/
def writeNrgCtrl (v : Word) (d : Dev) : Dev :=
  if d.gatedAt Reg.NRG_CTRL then d
  else
    let d1 := d.writePlain Reg.NRG_CTRL v
    let on := d1.bit Fld.NRG_CTRL_EN
    let d2 := d1.setBit Fld.NRG_STATUS_RUNNING on
    if on && !d.bit Fld.NRG_CTRL_EN then d2.restartSeconds else d2

/-- NRG_ENABLE (R287). -/
def execNrgEnable (value : Word) (s : State) : Answer :=
  s.run 0 (fun _ d => if bitsAt value 0 1 = 1 then writeNrgCtrl value d else d)

/-! ## Pulses (R282, R283) -/

/-- G-time in whole µs. -/
def Dev.nowUs (d : Dev) : Nat := d.gNs / 1000

/-- The next pulse of a pin: its edge time where it has one, its WIDTH, and the pin without it. -/
def PulseSt.pop (p : PulseSt) : Option (Option Nat × Nat × PulseSt) :=
  match p.jobs.find? (fun j => !j.times.isEmpty || decide (0 < j.carry)) with
  | none => none
  | some j =>
    let rest := p.jobs.dropWhile (fun x => x.times.isEmpty && decide (x.carry = 0))
    match j.times with
    | t :: ts => some (some t, j.width, { p with jobs := { j with times := ts } :: rest.tail })
    | [] => some (none, j.width, { p with jobs := { j with carry := j.carry - 1 } :: rest.tail })

def Dev.modPin (d : Dev) (i : Nat) (f : PulseSt → PulseSt) : Dev := d.modNrg (fun n => { n with pins := modifyAt n.pins i f })

/-- A pulse starts on pin `i` where one is due on the 1 µs grid. A pulse held in the carry has passed its edge time. -/
def Dev.pulseEmit (d : Dev) (i : Nat) : Dev :=
  let p := (d.nrg.pins[i]?).getD {}
  if !d.bit Fld.NRG_CTRL_EN || p.high then d
  else
    match p.pop with
    | none => d
    | some (edge, width, rest) =>
      let t := match edge with | some x => max x p.nextFree | none => p.nextFree
      if d.nowUs < t then d
      else
        let late := match edge with | some x => decide (x < t) | none => true
        let d1 := (d.modPin i (fun _ => { rest with high := true, highUntil := t + width, nextFree := t + 2 * width })).count (Reg.NRG_PULSEp_CNT i)
        if late then d1.count (Reg.NRG_PULSEp_LATE i) else d1

/-- PULSE_EMIT (R282). -/
def execPulseEmit (dt pin : Nat) (s : State) : Answer :=
  s.run dt (fun _ d => if pin < 4 then d.pulseEmit pin else d)

/-- PULSE_WIDTH_END (R282). -/
def execPulseWidthEnd (dt pin : Nat) (s : State) : Answer :=
  s.run dt (fun _ d =>
    let p := (d.nrg.pins[pin]?).getD {}
    if p.high && decide (p.highUntil ≤ d.nowUs) then d.modPin pin (fun x => { x with high := false }) else d)

def nrgPulseSet (pin point idx weight width : Nat) (en : Bool) (d : Dev) : Dev × CmdRes :=
  if 3 < pin ∨ 15 < point ∨ 15 < idx ∨ (d.point point).ent.isNone ∨ weight < 65536 ∨ 2 ^ 64 ≤ weight ∨ width = 0 ∨ 65535 < width then
    (d, .done sRange 0)
  else
    (d.modPin pin (fun p =>
      { p with en := en, point := point, idx := idx, weight := weight, width := width, residue := 0
               jobs := p.jobs.filter (fun j => !j.times.isEmpty || decide (0 < j.carry)) ++ [⟨width, [], 0⟩] }), .ok)

/-- NRG_PULSE_SET (R283). -/
def execNrgPulseSet (c : Ctx) (pin point idx weight width : Nat) (en : Bool) (s : State) : Answer :=
  s.run 0 (fun _ d => d.accept c false (some 1) (nrgPulseSet pin point idx weight width en))

/-! ## Intervals and saves (R285 to R287) -/

/-- NRG_INTERVAL (R285). -/
def execNrgInterval (dt : Nat) (s : State) : Answer :=
  s.run dt (fun _ d =>
    let m := d.utcMinute
    if d.bit Fld.NRG_CTRL_EN && decide (m % max 1 (d.fld Fld.NRG_CFG_INTERVAL) = 0) && decide (m ≠ d.nrg.intervalMin) then
      let t := d.stepTime
      let d1 := (d.modNrg (fun g =>
        { g with intervalMin := m, points := g.points.map (fun p => { p with latched := p.acc, latchedAt := t }) })).count Reg.NRG_INTERVALS
      d1.event .nrgInterval noIndex (d1.regN Reg.NRG_INTERVALS)
    else d)

/-- NRG_PERIODIC_SAVE (R287). -/
def execNrgPeriodicSave (dt : Nat) (s : State) : Answer :=
  s.run dt (fun _ d =>
    if d.bit Fld.NRG_CTRL_EN && !d.bit Fld.NRG_STATUS_PFW && !d.finalSaving && decide (d.gSec ≠ d.nrg.savedSec) then
      (d.validPoints.foldl (fun (x : Dev) p => if (x.point p.1).saving.isSome then x else x.startSave false p) d).modNrg
        (fun g => { g with savedSec := d.gSec })
    else d)

/-- NRG_SAVE_DONE (R287). `ok` says whether the read-back matched. -/
def execNrgSaveDone (dt point : Nat) (ok : Bool) (s : State) : Answer :=
  s.run dt (fun _ d =>
    match (d.point point).saving with
    | some (_, false, _) => if ok then d.commitSave point else d.failSave point
    | _ => d)

/-! ## Points (R275, R276, R289) -/

/-- The entry that 32 bytes spell; VALID is bit 2 of byte 0. -/
def nrgEntryOf (b : Bytes) : NrgEntry :=
  let b0 := fieldAt b 0 1
  { image := slice b 0 32, wiring := b0 % 4, reverse := b0.testBit 3, v := [fieldAt b 2 1, fieldAt b 3 1, fieldAt b 4 1],
    i := [fieldAt b 5 1, fieldAt b 6 1, fieldAt b 7 1], vScale := BitVec.ofNat 32 (fieldAt b 8 4), iScale := BitVec.ofNat 32 (fieldAt b 12 4) }

def nrgResv : List (Nat × Nat) := [(0, 0xF0), (1, 0xFF)] ++ (List.range 16).map (fun k => (16 + k, 0xFF))

/-- S_PK in W (R276), exactly. -/
def NrgEntry.peak (e : NrgEntry) : Rat := ((elements e.wiring).length : Rat) * (fRat e.vScale * 8388608) * (fRat e.iScale * 8388608)

def NrgEntry.fits (e : NrgEntry) : Bool :=
  decide (e.wiring ≠ 3) && e.channels.all (fun ch => decide (ch < 48)) && decide (e.channels.Nodup)
    && fFinite e.vScale && fFinite e.iScale && fGt e.vScale 0 && fGt e.iScale 0 && decide (e.peak ≤ 200000)

/-- T_U in seconds (R289). -/
def Dev.holdTime (d : Dev) (final : Bool) : Rat :=
  if final then ((d.fld Fld.NRG_CFG_HOLDUP : Nat) : Rat) / 5000 else 10002 / 10000

/-- A point becomes valid with its sums, its flags and its bound. -/
def Dev.beginPoint (d : Dev) (p : Nat) (e : NrgEntry) (sums : List Nat) (bound estimate : Word) (stat : Nat) : Dev :=
  ((d.modPoint p (fun _ => { ent := some e, sums := sums, bound := bound, estimate := estimate, latched := sums.map (fun x => x / 2 ^ 16),
                              latchedAt := d.stepTime })).setRegN (Reg.NRG_PTn_STAT p) (1 + stat)).setFbit Fld.NRG_STATUS_VALID p true

/-- A valid point is saved and then removed (R289). Whether the save passes its read-back is a free value; the point is removed in either case
(R287, log 170). -/
def nrgRemove (p : Nat) (d : Dev) : Dev :=
  match (d.point p).ent with
  | none => d
  | some e =>
    let z := d.draw
    let d0 := z.2.startSave false (p, e)
    let d1 := if z.1 % 2 = 0 then d0.commitSave p else d0.failSave p
    (((d1.modPoint p (fun _ => {})).setRegN (Reg.NRG_PTn_STAT p) 0)).setFbit Fld.NRG_STATUS_VALID p false

/-- A point that NRG_SET makes valid: its save decides (R289). -/
def nrgMake (p : Nat) (e : NrgEntry) (clear : Bool) (d : Dev) : Dev × CmdRes :=
  match d.latestSave p with
  | none => (((d.beginPoint p e (List.replicate 16 0) 0 0 16).event .nrgNoSave p), .ok)
  | some (_, s) =>
    if s.defCrc = e.defCrc then
      let t := d.holdTime s.final
      let bound := fOfRat (e.peak * t / 3600)
      let est := fOfRat (fRat s.pLast * t / 3600)
      (((d.beginPoint p e (s.acc.map (fun x => x * 2 ^ 16)) bound est 8).event .nrgUnsaved (p + 256 * b2n s.final) bound.toNat), .ok)
    else if clear then (((d.beginPoint p e (List.replicate 16 0) 0 0 32).event .nrgCleared p), .ok)
    else (d, .done sBusy 0)

/-- NRG_SET on a point that is valid saves it first; where the result is S_BUSY, nothing changes. -/
def nrgSet (p : Nat) (image : Bytes) (clear : Bool) (d : Dev) : Dev × CmdRes :=
  let e := nrgEntryOf image
  let valid := (fieldAt image 0 1).testBit 2
  if 15 < p ∨ resvSet nrgResv image = true then (d, .done sRange 0)
  else if !e.fits then (d, .done sRange 0)
  else if !valid then (nrgRemove p d, .ok)
  else
    let res := nrgMake p e clear (nrgRemove p d)
    if res.2 = .done sBusy 0 then (d, res.2) else res

/-- NRG_SET (R289). -/
def execNrgSet (c : Ctx) (point : Nat) (image : Bytes) (clear : Bool) (s : State) : Answer :=
  s.run 0 (fun _ d => d.accept c false (some 1) (nrgSet point image clear))

/-- The 160-byte block of a point (R291). -/
def Dev.nrgBlock (d : Dev) (latched : Bool) (p : Nat) : Bytes :=
  let s := d.point p
  let acc := if latched then s.latched else s.acc
  let t := if latched then s.latchedAt else d.stepTime
  acc.flatMap (fun x => leBytes 8 x) ++ gtimeBytes t ++ leBytes 4 (d.regN (Reg.NRG_PTn_STAT p)) ++
    leBytes 4 (min (2 ^ 32 - 1) (s.outage * 1000 / 12800)) ++ leBytes 4 s.bound.toNat ++ leBytes 4 s.estimate.toNat ++ leBytes 4 s.pNow.toNat

def nrgRead (mask : Nat) (latched : Bool) (buf : HostBuf) (d : Dev) : Dev × CmdRes :=
  let pts := bitsOf 16 mask
  if buf.len < 160 * pts.length then (d, .done sRange 0)
  else (d, .block (pts.flatMap (d.nrgBlock latched)) (some buf.addr))

/-- NRG_READ (R291). -/
def execNrgRead (c : Ctx) (mask : Nat) (latched : Bool) (buf : HostBuf) (s : State) : Answer :=
  s.run 0 (fun _ d => d.accept c false (some 1) (nrgRead mask latched buf))

def nrgAck (mask : Nat) (d : Dev) : Dev × CmdRes :=
  ((bitsOf 16 mask).foldl (fun (x : Dev) p => x.setRegN (Reg.NRG_PTn_STAT p) (x.regN (Reg.NRG_PTn_STAT p) % 2)) d, .ok)

/-- NRG_ACK (R291). -/
def execNrgAck (c : Ctx) (mask : Nat) (s : State) : Answer :=
  s.run 0 (fun _ d => d.accept c false (some 1) (nrgAck mask))

end Sys2Proof.Machine
end

