-- ==== Sys2Proof/Machine/SafRows.lean ====
section
/-! DEFINITION. The rows of the table of operations that concern the safety monitor. -/

namespace Sys2Proof.Machine

open Sys2Proof

/-- ERROR_RAISED (R521): class, INDEX, the diagnostic that found it (255: none), status code, and the level of an ENGINE_LOSS. -/
def execErrorRaised (dt cls index diag status level : Nat) (s : State) : Answer := s.run dt (fun _ d => d.errorRaised cls index diag status level)

/-- DIAGNOSTIC_CHECK (R517): a diagnostic, the INDEX it looks at, its result, the reading of DG10 in °C as 8 bits of two's complement, and
the errors that it corrected. -/
def execDiagnosticCheck (dt diag index : Nat) (ok : Bool) (reading corrected : Nat) (s : State) : Answer :=
  s.run dt (fun _ d => d.diagnostic diag index ok reading corrected)

/-- ERROR_RECOVERY_DONE (R519): the recovery of the entries of a class and INDEX is complete, or their condition has cleared. -/
def execErrorRecoveryDone (dt cls index : Nat) (s : State) : Answer := s.run dt (fun _ d => d.recoveryDone cls index)

/-- ENTRY_CLOSE (R520): the entry of a SEQ. -/
def execEntryClose (dt seq : Nat) (s : State) : Answer := s.run dt (fun _ d => d.closeEntry seq)

/-- ENGINE_SELFTEST (R518): engines numbered as R350. -/
def execEngineSelftest (dt engine : Nat) (s : State) : Answer := s.run dt (fun _ d => d.startTest engine)

/-- ENGINE_SELFTEST_DONE (R518). -/
def execEngineSelftestDone (dt : Nat) (ok : Bool) (s : State) : Answer := s.run dt (fun _ d => d.testDone ok)

/-- MGMT_STALL (R524). -/
def execMgmtStall (dt : Nat) (s : State) : Answer := s.run dt (fun _ d => d.stalls)

/-- MGMT_RESTART (R524). -/
def execMgmtRestart (dt : Nat) (s : State) : Answer := s.runKey dt mgmtRestart

/-- PROOF_TEST (R525): the tests that fail, as a mask, and the duration of each in ms. -/
def execProofTest (dt fails ms : Nat) (s : State) : Answer := s.run dt (fun _ d => d.proofRun fails ms)

/-- SAF_ERR_READ (R529). -/
def execSafErrRead (c : Ctx) (buf : HostBuf) (s : State) : Answer := s.run 0 (fun _ d => d.accept c false none (safErrRead buf))

/-- SAF_PROOF (R525). -/
def execSafProof (c : Ctx) (mask : Nat) (s : State) : Answer := s.run 0 (fun _ d => d.accept c true none (safProof mask))

/-- SAF_FORCE (R529). -/
def execSafForce (c : Ctx) (confirm : Nat) (s : State) : Answer := s.run 0 (fun _ d => d.accept c false none (safForce confirm))

end Sys2Proof.Machine
end

