-- ==== Sys2Proof/Machine/SntRows.lean ====
section
/-! DEFINITION. The rows of the table of operations that concern Sinter. -/

namespace Sys2Proof.Machine

open Sys2Proof

/-- Every event of R511. -/
def allEvents : List Ev :=
  [.hostReset, .ringError, .unmatchedSource, .streamKeyOrphaned, .cfgChangePending, .streamLost, .streamRestored, .storeRecordLost,
   .ownerDisagree, .craterRestart, .trackerReset, .feCmdFail, .calFault, .calHalt, .detectorChatter, .nrgSaveFail, .nrgInterval,
   .nrgUnsaved, .nrgCleared, .nrgNoSave, .cycOverrun, .cycFault, .stationLost, .stationReturned, .rioChatter, .rioStuck] ++
  [.programSwitch, .retLoaded, .engineRetired, .imageSwitch, .imageFault, .mcDeferLong, .sfpChange, .pnExhausted, .macsecKeyOrphaned,
   .sessionKeyOrphaned, .timeAcquired, .domainHoldover, .domainFar, .domainDisagree, .utcOffset, .viewInstalled, .ownershipError,
   .rootEnrolled, .rootFail, .updateRefused, .journalReplayed, .trngFail, .memFailed, .memRestored, .shadowOverflow, .logCleared,
   .recorderStarted, .powerFailWarning, .safeState, .mgmtStall, .errorEscalated, .errorOverflow, .proofTest, .startComplete,
   .moduleFound, .identityBad, .clockJudgedBad]

/-- SINTER_RAISE (R501): an event of a logged code is raised. -/
def execSinterRaise (dt code status index arg0 arg1 : Nat) (s : State) : Answer :=
  s.run dt (fun _ d =>
    match allEvents.find? (fun e => decide (e.row.1 = code) && e.row.2.2.2) with
    | some e => d.event e (index % 65536) arg0 arg1 (status % 256)
    | none => d)

/-- SINTER_RECORD_WRITE (R500). `writes` of the three writes of the cell are made. -/
def execSinterRecordWrite (dt writes : Nat) (s : State) : Answer := s.run dt (fun _ d => d.recordWrite writes)

/-- SINTER_HEADER_WRITE (R500). `torn` marks a copy that a power cut leaves bad. -/
def execSinterHeaderWrite (dt : Nat) (torn : Bool) (s : State) : Answer :=
  s.run dt (fun _ d => if d.headerDue then d.writeHeader torn else d)

/-- MEM_FAILED (R506). -/
def execMemFailed (dt : Nat) (s : State) : Answer := s.run dt (fun _ d => d.memFailed)

/-- MEM_PROBE (R506). -/
def execMemProbe (dt : Nat) (ok : Bool) (s : State) : Answer := s.run dt (fun _ d => d.memProbe ok)

/-- MEM_RESTORED (R507). -/
def execMemRestored (dt : Nat) (s : State) : Answer := s.run dt (fun _ d => d.memRestored)

/-- POWER_FAIL_WARNING (R510). -/
def execPowerFailWarning (dt : Nat) (s : State) : Answer := s.run dt (fun _ d => d.powerFailWarning)

/-- SNT_READ (R504). -/
def execSntRead (c : Ctx) (first : Nat) (buf : HostBuf) (s : State) : Answer := s.run 0 (fun _ d => d.accept c false none (sntRead first buf))

/-- SNT_CLEAR (R508). -/
def execSntClear (c : Ctx) (deviceId counter upTo maxSev : Nat) (tag : Bytes) (steps : Nat) (s : State) : Answer :=
  s.runKey 0 (sntClear c { deviceId := deviceId, counter := counter, upTo := upTo, maxSev := maxSev, tag := tag } steps)

end Sys2Proof.Machine
end

