-- ==== Sys2Proof/Machine/TimeRows.lean ====
section
/-! DEFINITION. The rows of the table of operations that concern the time unit. -/

namespace Sys2Proof.Machine

open Sys2Proof

/-- TIM_ENABLE (R395): a write of TIM_CTRL. -/
def execTimEnable (value : Word) (s : State) : Answer := s.run 0 (fun _ d => d.unlessGated Reg.TIM_CTRL (writeTimCtrl value))

/-- PTP_TRANSMIT_TIMER (R393). -/
def execPtpTransmitTimer (dt port : Nat) (s : State) : Answer := s.run dt (fun _ d => d.ptpTimer port)

/-- PPS_IN_EDGE (R402): `phase` is the phase of TCLK, 0 to 3 ns, at which the edge is captured. -/
def execPpsInEdge (dt phase : Nat) (s : State) : Answer := s.run dt (fun _ d => d.ppsEdge phase)

/-- TOD_MESSAGE (R403): the bytes of the message, at its end. -/
def execTodMessage (dt : Nat) (msg : Bytes) (s : State) : Answer := s.run dt (fun _ d => d.todMessage msg)

/-- SAMPLE_MISSING_TIMER (R395). -/
def execSampleMissingTimer (dt dom : Nat) (s : State) : Answer := s.run dt (fun _ d => d.sampleTimer dom)

/-- TIME_REPORT (R398): the domain states of a member. -/
def execTimeReport (dt src seq dom0 dom1 : Nat) (s : State) : Answer :=
  s.run dt (fun _ d => d.onMsg src 1 seq (fun x =>
    if x.joined && x.isSummit then x.takeReport src dom0 dom1 else if x.joined then x.earlyReport src dom0 dom1 else x))

/-- TIME_REPORT_PERIODIC (R398). -/
def execTimeReportPeriodic (dt : Nat) (s : State) : Answer :=
  s.run dt (fun _ d =>
    if d.tim.reportAt + 1000000000 ≤ d.up then
      let d1 := d.modTim (fun t => { t with reportAt := d.up })
      if d1.joined && d1.isSummit then d1.takeReport d1.deviceNo (d1.domState 0) (d1.domState 1) else d1.sendTimeReport
    else d)

/-- TIME_SEL (R398): the selection of the summit. -/
def execTimeSel (dt src seq dom : Nat) (s : State) : Answer :=
  s.run dt (fun _ d => d.onMsg src 1 seq (fun x =>
    if x.joined ∧ src = x.view.summit then (x.setFld Fld.TIM_STATUS_SUMMIT_PREF dom).refreshDomains else x))

/-- The whole second of G-time that lies within 2 ns of the present ns of TCLK. -/
def Dev.secondHere (d : Dev) : Option Nat :=
  let g := d.g16 + d.up % 4 * 65536
  let sec := (g + 2 * 65536) / sec16
  if g ≤ sec * sec16 + 2 * 65536 then some sec else none

/-- PPS_OUT_SECOND (R405). -/
def execPpsOutSecond (dt : Nat) (s : State) : Answer :=
  s.run dt (fun _ d =>
    if d.ppsOutRuns && d.secondHere.isSome && decide (d.tim.ppsOutSec ≠ d.secondHere) then
      d.modTim (fun t => { t with ppsOut := true, ppsOutSec := d.secondHere, ppsOutUntil := d.up + d.fld Fld.TIM_PPS_OUT_WIDTH * 1000000 })
    else d.ppsOutHeld)

/-- PPS_OUT_WIDTH_END (R405). -/
def execPpsOutWidthEnd (dt : Nat) (s : State) : Answer :=
  s.run dt (fun _ d => if d.tim.ppsOut && decide (d.tim.ppsOutUntil ≤ d.up) then d.modTim (fun t => { t with ppsOut := false }) else d)

/-- UTC_OFFSET (R408). -/
def execUtcOffset (dt : Nat) (s : State) : Answer := s.run dt (fun _ d => d.utcLeap.refreshTime)

/-- ANNOUNCE_RECEIPT_TIMEOUT (R393): the masters that have fallen silent are dropped, and the BMCA runs again. -/
def execAnnounceReceiptTimeout (dt port : Nat) (s : State) : Answer :=
  s.run dt (fun _ d =>
    if d.ptpOn port && decide (port < 4) && (decide ((d.ptp port).lastAnnounceAt + 3000000000 ≤ d.up)
        || (d.ptp port).foreign.any (fun f => decide (f.lastAt + 3000000000 ≤ d.up))) then
      (d.modPtp port (fun x => { x with foreign := x.foreign.filter (fun f => decide (d.up < f.lastAt + 3000000000)) })).runBmca
    else d)

/-- TIME_QUALITY_DOUBTFUL (R406): B has grown. -/
def execTimeQualityDoubtful (dt : Nat) (s : State) : Answer := s.run dt (fun _ d => d.refreshTime)

/-! ## Commands (R414) -/

/-- TIM_SET steps G-time. DESIGN CHOICE, log 15: R6 and R414 give S_RANGE and S_BUSY no order; the operand's range is checked before the
state. -/
def timSet (sec ns frac : Nat) (d : Dev) : Dev × CmdRes :=
  if 1000000000 ≤ ns ∨ 2 ^ 48 ≤ sec ∨ 2 ^ 16 ≤ frac then (d, .done sRange 0)
  else if d.acquired then (d, .done sBusy 0)
  else
    let t : Rat := ((sec * 1000000000 + ns : Nat) : Rat) + ((frac : Nat) : Rat) / 65536
    let now : Rat := ((d.tim.acc : Nat) : Rat) / 2 ^ 40
    (((d.stepGTime (t - now)).setBit Fld.TIM_STATUS_HOST_SET true).refreshDomains, .ok)

/-- TIM_SET (R414). -/
def execTimSet (c : Ctx) (sec ns frac : Nat) (s : State) : Answer := s.run 0 (fun _ d => d.accept c false none (timSet sec ns frac))

def timReacquire (d : Dev) : Dev × CmdRes :=
  if d.bit Fld.ING_CTRL_EN || decide (d.fld Fld.CYC_STATUS_STATE = 1) || d.waitsFor (fun w => decide (w = .timReacquire)) then (d, .done sBusy 0)
  else (d, .wait .timReacquire)

/-- TIM_REACQUIRE (R401). -/
def execTimReacquire (c : Ctx) (s : State) : Answer := s.run 0 (fun _ d => d.accept c true none timReacquire)

/-- REACQUIRE_TIMEOUT (R401): 10 s without a good sample of the selected domain. -/
def execReacquireTimeout (dt : Nat) (s : State) : Answer :=
  s.run dt (fun _ d =>
    if d.hif.waiting.any (fun w => decide (w.kind = .timReacquire) && decide (w.since + 10000000000 ≤ d.up)) then
      d.finishWaits (fun w => decide (w = .timReacquire)) sNotValid 0
    else d)

def tsRead (port : Nat) (tx : Bool) (buf : HostBuf) (d : Dev) : Dev × CmdRes :=
  if 3 < port ∨ buf.len < 1536 then (d, .done sRange 0)
  else
    let q := if tx then (d.ptp port).txQ else (d.ptp port).rxQ
    (d, .block (slice (q.flatMap TsEntry.bytes) 0 1536) (some buf.addr))

/-- TS_READ (R411): the transmit queue of a port, or its receive queue. -/
def execTsRead (c : Ctx) (port : Nat) (tx : Bool) (buf : HostBuf) (s : State) : Answer := s.run 0 (fun _ d => d.accept c false none (tsRead port tx buf))

end Sys2Proof.Machine
end

