-- ==== Sys2Proof/Machine/BarOps.lean ====
section
/-! DEFINITION. Accesses to BAR0: the registers whose value is computed as they are read, latching groups, write pairs, and the
register that each write reaches (R15 to R20, R555, R556). -/

namespace Sys2Proof.Machine

open Sys2Proof

/-! ## Registers computed as they are read -/

/-- Ethernet ports and field segments are brought up to the present, so that their counters stand as they are now. -/
def Dev.settleCounters (d : Dev) : Dev :=
  let d1 := (List.range 4).foldl (fun (x : Dev) p => (x.settlePause p).txSettle p) d
  (List.range 2).foldl (fun (x : Dev) g => x.fieldSettle g) d1

/-- KEY_STATUS (R494): the fields held in MRAM show once the key store has started. -/
def keyStatusWord (k : KeySt) : Nat :=
  (if k.started then k.lc.code + 256 * k.lastRestart else 0) + 8 * b2n k.root.isSome + 16 * b2n k.rootFail + 32 * b2n k.trngFail
    + 64 * b2n k.interrupted + 128 * b2n (!k.sweep.isEmpty)

/-- KEY_SLOTS (R494). -/
def keySlotsWord (k : KeySt) : Nat :=
  let n (s : SlotState) : Nat := (k.slots.filter (fun (x : Nat × Slot) => decide (x.2.state = s))).length
  if k.started then n .valid + 65536 * n .orphaned else 0

/-- A number of more than 32 bits shown by a _LO register at `lo` and the _HI register after it. -/
def halfOf (lo off v : Nat) : Nat := if off = lo then v % 2 ^ 32 else v / 2 ^ 32 % 2 ^ 32

/-- PPS_SEEN: an edge within the last 1.5 s (R404, R413). -/
def Dev.ppsSeen (d : Dev) : Bool := d.tim.lastPps.isSome && decide (d.up ≤ d.tim.lastPpsAt + 1500000000)

/-- Records Sinter holds (R512), once the recorder has started. -/
def Dev.sntCount (d : Dev) : Nat := min 131072 (d.snt.log.length + d.snt.shadow.length)

/-- An identity position of an Ethernet port's module: present and read, and valid (R548, R551). -/
def Dev.sfpPresence (d : Dev) : Nat :=
  (List.range 4).foldl (fun m p =>
    let here := !d.bit (Fld.NET_Pp_STATUS_MOD_ABS p) && !(d.port p).sfp.a0.isEmpty
    m + 2 ^ (6 + p) * b2n here + 2 ^ (22 + p) * b2n (here && d.bit (Fld.NET_Pp_STATUS_SFP_ID_OK p))) 0

/-- The present value of the word at an offset, where other state gives it; none where the register file holds it. -/
def Dev.computedAt (k : KeySt) (d : Dev) (off : Nat) : Option Nat :=
  let old := d.regN off
  let runs := d.bit Fld.SNT_STATUS_RUNNING
  let head := (d.snt.newest.map (fun r => r.seq)).getD 0
  if off = Reg.TIM_NOW_NS then some (d.gNs % 1000000000)
  else if off = Reg.TIM_NOW_SEC_LO then some (d.gSec % 2 ^ 32)
  else if off = Reg.TIM_NOW_SEC_HI then some (d.gSec / 2 ^ 32 % 65536 + 65536 * (d.g16 % 65536))
  else if off = Reg.TIM_BOUND then some (boundReg d.bound)
  else if off = Reg.TIM_GNSS_STAT then some (old % 8 + 8 * b2n d.ppsSeen + old / 16 * 16)
  else if Reg.FUM_CONDi 0 ≤ off ∧ off < Reg.FUM_CONDi 8 then some (d.fum.cond / 2 ^ (8 * (off - Reg.FUM_CONDi 0)) % 2 ^ 32)
  else if off = Reg.KEY_STATUS then some (keyStatusWord k)
  else if off = Reg.KEY_SLOTS then some (keySlotsWord k)
  else if off = Reg.KEY_DEVID_LO ∨ off = Reg.KEY_DEVID_HI then some (if k.started then halfOf Reg.KEY_DEVID_LO off k.deviceId else 0)
  else if off = Reg.KEY_COUNTER_LO ∨ off = Reg.KEY_COUNTER_HI then some (if k.started then halfOf Reg.KEY_COUNTER_LO off k.counter else 0)
  else if off = Reg.SNT_HEAD_LO ∨ off = Reg.SNT_HEAD_HI then some (if runs then halfOf Reg.SNT_HEAD_LO off head else 0)
  else if off = Reg.SNT_OLDEST_LO ∨ off = Reg.SNT_OLDEST_HI then some (if runs then halfOf Reg.SNT_OLDEST_LO off d.snt.oldest else 0)
  else if off = Reg.SNT_HELD then some (if runs then d.sntCount else 0)
  else if off = Reg.SNT_OP_SEC then some (if runs then d.opSec % 2 ^ 32 else 0)
  else if off = Reg.SNT_POWER_CYCLES then some (if runs then d.snt.powerCycles % 65536 else 0)
  else if off = Reg.SNT_STATUS then some (old % 65536 + 65536 * (if runs then d.snt.shadow.length else 0))
  else if off = Reg.OSC_STATUS then
    some (old % 65536 + 65536 * (d.osc.sigs.filter (fun (s : Nat × Held SigEntry) => s.2.cur.isSome)).length)
  else if Reg.FLT_CHSTATc 0 ≤ off ∧ off < Reg.FLT_CHSTATc 48 ∧ off % 4 = 0 then some (d.chStat ((off - Reg.FLT_CHSTATc 0) / 4))
  else if off = Reg.GEY_STATUS then some (old % 65536 + 65536 * d.geyFill)
  else if Reg.FAB_Ln_STATUS 0 ≤ off ∧ off < Reg.FAB_Ln_STATUS 6 ∧ (off - Reg.FAB_Ln_STATUS 0) % 64 = 0 then
    some (old % 2 ^ 24 + 2 ^ 24 * d.util ((off - Reg.FAB_Ln_STATUS 0) / 64))
  else if off = Reg.SAF_HB_AGE then some (sat 65535 d.hbAge)
  else if off = Reg.SAF_CFG_SIG then some (Config.safetySignature d.safetyContent % 2 ^ 32)
  else if off = Reg.SAF_PROOF_LAST then some (old % 65536 + 65536 * d.proofAge)
  else if off = Reg.INV_STATUS then some (old + d.sfpPresence)
  else none

/-- The present value of the word at an offset. GLB_LOCK is write only. -/
def Dev.wordNow (k : KeySt) (d : Dev) (off : Nat) : Word :=
  if off = Reg.GLB_LOCK then 0
  else match d.computedAt k off with
    | some v => BitVec.ofNat 32 v
    | none => d.reg off

/-! ## Reads (R18, R20, R390, R556) -/

/-- The registers that a read of the word at an offset latches. -/
def latchesOf (off : Nat) : List Nat :=
  if off = Reg.FUM_CONDi 0 then (List.range 7).map (fun i => Reg.FUM_CONDi (i + 1))
  else if off = Reg.TIM_NOW_NS then [Reg.TIM_NOW_SEC_LO, Reg.TIM_NOW_SEC_HI]
  else if isPairLo off then [off + 4]
  else []

/-- A register that shows what another register's read latched. -/
def isLatched (off : Nat) : Bool :=
  (decide (Reg.FUM_CONDi 0 < off) && decide (off < Reg.FUM_CONDi 8)) || decide (off = Reg.TIM_NOW_SEC_LO) || decide (off = Reg.TIM_NOW_SEC_HI)
    || (decide (4 ≤ off) && isPairLo (off - 4))

/-- The reset value of a word. -/
def resetWordAt (off : Nat) : Word := (((resetWords.find? (fun x => decide (x.1 = off))).map (fun x => x.2)).getD 0)

/-- A read of 4 bytes: the value, and the device after it. -/
def Dev.read4 (k : KeySt) (d : Dev) (off : Nat) : Word × Dev :=
  if d.gatedAt off then (0xFFFFFF06, d)
  else if isLatched off then (d.hif.latches.getD off (resetWordAt off), d)
  else
    (d.wordNow k off, d.modHif (fun h => { h with
      latches := (latchesOf off).foldl (fun (t : Tbl Word) o => t.put o (d.wordNow k o)) h.latches }))

/-- A read within BAR0. A read of a gated block is answered at once (R20). -/
def Dev.barRead (k : KeySt) (d : Dev) (off size : Nat) : Dev :=
  let d0 := if d.gatedAt off then d else d.settleCounters
  if size = 4 ∧ off % 4 = 0 then
    let r := d0.read4 k off
    r.2.emit (.readData (r.1.setWidth 64))
  else if size = 8 ∧ isPairLo off = true ∧ off % 8 = 0 then
    let lo := d0.read4 k off
    let hi := lo.2.read4 k (off + 4)
    hi.2.emit (.readData (hi.1 ++ lo.1))
  else (d0.count Reg.GLB_BAD_ACCESS).emit (.readData 0)

/-! ## Writes (R17, R19, R556, R562) -/

/-- Both halves of a MAC address are written: one violation where the lock refuses a changed value. -/
def Dev.writeMac (d : Dev) (off : Nat) (lo hi : Word) : Dev :=
  let a := d.writeRes off lo
  let b := d.writeRes (off + 4) hi
  ((d.setReg off a.word).setReg (off + 4) b.word).noteWrite off { word := a.word, viol := a.viol || b.viol, err := a.err || b.err }

/-- A 64-bit value that host software writes takes effect. -/
def Dev.writePair (d : Dev) (off : Nat) (lo hi : Word) : Dev :=
  if 0x021000 ≤ off ∧ off < 0x021400 then writeRingBase ((off - 0x021000) / 32) lo hi d else d.writeMac off lo hi

/-- The registers of the time unit whose write reconfigures it. -/
def isTimConfig (off : Nat) : Bool :=
  decide (off = Reg.TIM_CFG) || decide (off = Reg.TIM_LIM) || decide (off = Reg.TIM_STEP_LIM) || decide (off = Reg.TIM_HOLDOVER) || decide (off = Reg.TIM_UTC)
    || (List.range 2).any (fun i => decide (off = Reg.TIM_DOMd_CFG i)) || (List.range 4).any (fun p => decide (off = Reg.TIM_Pp_PTP p))

/-- A register with behaviour of its own is written; none where the register has none. -/
def Dev.writeOwn (k : KeySt) (d : Dev) (off : Nat) (v : Word) : Option Dev :=
  if off = Reg.GLB_LOCK then some (d.writeLock v)
  else if off = Reg.CLK_GATE then some (d.writeClkGate v)
  else if off = Reg.ING_CTRL then some (writeIngCtrl k v d)
  else if off = Reg.OSC_CTRL then some (writeOscCtrl v d)
  else if off = Reg.ISL_CTRL then some (writeIslCtrl v d)
  else if off = Reg.FUM_CTRL then some (writeFumCtrl v d)
  else if (Reg.FUM_GRIDQj 0 ≤ off ∧ off < Reg.FUM_GRIDQj 8) ∨ off = Reg.ISL_GRID then some ((d.writePlain off v).recount none false)
  else if Reg.FUM_PINp 0 ≤ off ∧ off < Reg.FUM_PINp 8 then some (d.writePlain off v).updatePins
  else if off = Reg.ACQ_CTRL then some (writeAcqCtrl v d)
  else if off = Reg.CAL_CTRL then some (writeCalCtrl v d)
  else if off = Reg.GEY_CTRL then some (writeGeyCtrl v d)
  else if off = Reg.NRG_CTRL then some (writeNrgCtrl v d)
  else if off = Reg.RIO_CTRL then some (writeRioCtrl v d)
  else if off = Reg.NET_FLD_CFG then some (writeFldCfg v d)
  else if off = Reg.NET_MDIO then some (writeMdio v d)
  else if off = Reg.TIM_CTRL then some (writeTimCtrl v d)
  else if isTimConfig off then some (writeTimOther off v d)
  else if off = Reg.FAB_CTRL then some (writeFabCtrl v d)
  else if off = Reg.SCH_TRACE_CFG then some (d.writeTraceCfg v)
  else if 0x0E0100 ≤ off ∧ off < 0x0E0200 ∧ off % 64 = 0 then some (writeNetCfg ((off - 0x0E0100) / 64) v d)
  else if 0x021000 ≤ off ∧ off < 0x021400 ∧ off % 32 = 8 then some (writeRingCfg ((off - 0x021000) / 32) v d)
  else if 0x030000 ≤ off ∧ off < 0x030400 then some (writeMsix off v d)
  else none

/-- What the PCI Express configuration carries beside its constants: Subsystem Vendor ID, Subsystem ID and Device Serial Number (R447). -/
def pcieIds (k : KeySt) (d : Dev) : Nat × Nat × Nat := (d.fld Fld.INV_BOARD_SUBSYS_VENDOR, d.fld Fld.INV_BOARD_SUBSYS_ID, k.deviceId)

/-- A write of 4 bytes. The low half of a 64-bit value waits for its high half. -/
def Dev.write4 (k : KeySt) (d : Dev) (off : Nat) (v : Word) : Dev :=
  if d.gatedAt off then d
  else if isWritePair off then d.modHif (fun h => { h with heldLo := h.heldLo.put off v })
  else if 4 ≤ off ∧ isWritePair (off - 4) = true then
    (d.writePair (off - 4) (d.hif.heldLo.getD (off - 4) (d.reg (off - 4))) v).modHif (fun h => { h with heldLo := h.heldLo.drop (off - 4) })
  else match d.writeOwn k off v with
    | some x => x
    | none => d.writePlain off v

/-- A write within BAR0. -/
def Dev.barWrite (k : KeySt) (d : Dev) (off size : Nat) (v : DWord) : Dev :=
  if size = 4 ∧ off % 4 = 0 then d.write4 k off (v.setWidth 32)
  else if size = 8 ∧ isPairLo off = true ∧ off % 8 = 0 then
    (d.write4 k off (v.setWidth 32)).write4 k (off + 4) ((v >>> 32).setWidth 32)
  else d.count Reg.GLB_BAD_ACCESS

end Sys2Proof.Machine
end

