-- ==== Sys2Proof/Machine/CmdOps.lean ====
section
/-! DEFINITION. The acceptance of command descriptors as a COMMAND ring holds them: the descriptor format, opcodes, the layout of
operand blocks, and malformed descriptors (R456 to R460). -/

namespace Sys2Proof.Machine

open Sys2Proof

/-! ## Operand blocks (R458) -/

/-- The place of an operand of `n` bytes after `pos`: aligned to its size, a G-time of 12 bytes to 4. -/
def alignFor (n pos : Nat) : Nat := let a := if n = 12 then 4 else if n = 16 then 8 else n; (pos + a - 1) / a * a

/-- Place and size of each operand, for operands of these sizes in order. -/
def argPlaces (sizes : List Nat) : List (Nat × Nat) :=
  (sizes.foldl (fun (p : List (Nat × Nat) × Nat) n => (p.1 ++ [(alignFor n p.2, n)], alignFor n p.2 + n)) ([], 0)).1

/-- The end of the operands but images and strings. -/
def argEnd (sizes : List Nat) : Nat := sizes.foldl (fun p n => alignFor n p + n) 0

/-- The first byte of the images and strings. -/
def imgStart (sizes : List Nat) : Nat := (argEnd sizes + 7) / 8 * 8

/-- The operands of an operand block: numbers, and the bytes from the first image on. -/
structure ArgVals where
  nums : List Nat
  img : Bytes
  deriving DecidableEq, Repr

def argVals (b : Bytes) (sizes : List Nat) : ArgVals :=
  { nums := (argPlaces sizes).map (fun p => leNat (slice b p.1 p.2)), img := b.drop (imgStart sizes) }

/-- Number `i` of an operand block. -/
def ArgVals.n (v : ArgVals) (i : Nat) : Nat := (v.nums[i]?).getD 0

/-- Flag `i` of an operand block. -/
def ArgVals.flag (v : ArgVals) (i : Nat) : Bool := decide (v.n i ≠ 0)

/-- The host buffer whose address and length are numbers `i` and `i + 1`. -/
def ArgVals.buf (v : ArgVals) (i : Nat) : HostBuf := { addr := v.n i, len := v.n (i + 1) }

/-- Images of `n` bytes each, every one on a multiple of 8 bytes, put end to end. -/
def ArgVals.images (v : ArgVals) (n count : Nat) : Bytes := (List.range count).flatMap (fun i => slice v.img ((n + 7) / 8 * 8 * i) n)

/-- A command as its descriptor asks for it: how long its operand block must be, whether its completion is tied to a later event,
its clock gate, and what it does. -/
structure CmdForm where
  need : Nat
  waits : Bool
  gate : Option Nat
  run : Dev → Dev × CmdRes

/-- A command without images. -/
def form (r : RawCmd) (sizes : List Nat) (f : ArgVals → Dev → Dev × CmdRes) (waits : Bool := false) (gate : Option Nat := none) : Option CmdForm :=
  some { need := argEnd sizes, waits := waits, gate := gate, run := f (argVals r.args sizes) }

/-- A command with images: `count` of `n` bytes each. -/
def formImg (r : RawCmd) (sizes : List Nat) (n : Nat) (count : ArgVals → Nat) (f : ArgVals → Bytes → Dev → Dev × CmdRes) (waits : Bool := false)
    (gate : Option Nat := none) : Option CmdForm :=
  let v := argVals r.args sizes
  some { need := imgStart sizes + (n + 7) / 8 * 8 * count v, waits := waits, gate := gate, run := f v (v.images n (count v)) }

/-- The host buffer's content of the length that number `i` gives. -/
def rawBuf (r : RawCmd) (v : ArgVals) (i : Nat) : Bytes := slice r.buffer 0 (v.n (i + 1))

/-! ## The commands of each block, by row of its table (R457) -/

def hifForm (r : RawCmd) : Nat → Option CmdForm
  | 1 => form r [4] (fun v x => (x, .done sOk (v.n 0)))
  | 2 => form r [1] (fun v => hifFlush (v.n 0))
  | _ => none

def ingForm (r : RawCmd) : Nat → Option CmdForm
  | 1 => formImg r [2, 4, 1] 64 (fun _ => 1) (fun v b => streamSet (v.n 0) b (v.n 1) (v.flag 2)) (waits := true)
  | 2 => form r [2, 4, 1] (fun v => streamClr (v.n 0) (v.n 1) (v.flag 2))
  | 3 => formImg r [2, 1] 16 (fun v => v.n 1) (fun v b => chanSet (v.n 0) (v.n 1) b)
  | 4 => form r [2] (fun v => streamStats (v.n 0))
  | _ => none

def crtForm (r : RawCmd) : Nat → Option CmdForm
  | 1 => form r [8, 8, 4] (fun v => histRead (v.n 0) (v.buf 1))
  | 2 => form r [2, 8, 8] (fun v => amendRead (v.n 0) (v.n 1) (v.n 2))
  | _ => none

def oscForm (r : RawCmd) : Nat → Option CmdForm
  | 1 => formImg r [2, 2, 4, 1] 16 (fun v => v.n 1) (fun v b => oscSigSet (v.n 0) (v.n 1) b (v.n 2) (v.flag 3))
  | 2 => formImg r [1, 2] 16 (fun v => v.n 1) (fun v b => oscDefSet (v.n 0) (v.n 1) b)
  | 3 => form r [1] (fun v => oscReset (v.n 0))
  | 4 => form r [8, 4] (fun v => modeRead (v.buf 0))
  | _ => none

/-- A string at the start of `b`, after its 2-byte length; with it the bytes it takes, to the next multiple of 8. -/
def stringAt (b : Bytes) : Bytes × Nat :=
  let n := leNat (slice b 0 2)
  ((b.drop 2).take n, (2 + n + 7) / 8 * 8)

/-- The sizes of EXP_SET's numbers, with `m` members. -/
def expSizes (m : Nat) : List Nat := [1, 1, 1, 8, 2, 2, 1, 4, 1, 1, 1] ++ List.replicate m 2 ++ [1, 2, 1, 1, 2]

/-- EXP_SET (R197): the number of members stands before them. -/
def expForm (k : KeySt) (r : RawCmd) : Option CmdForm :=
  let m := (argVals r.args (expSizes 0)).n 10
  let v := argVals r.args (expSizes m)
  let a := stringAt v.img
  let b := stringAt (v.img.drop a.2)
  let c := stringAt (v.img.drop (a.2 + b.2))
  let ops : ExpOps :=
    { en := v.flag 1, portMask := v.n 2, dstMac := v.n 3, appid := v.n 4, vlanId := v.n 5, vlanPri := v.n 6, gocbRef := a.1, datSet := b.1
      goId := c.1, confRev := v.n 7, test := v.flag 8, simulation := v.flag 9, members := (v.nums.drop 11).take m, rtFirst := v.n (11 + m)
      rtMax := v.n (12 + m), safeAlarm := v.flag (13 + m), auth := v.flag (14 + m), keySlot := v.n (15 + m) }
  some { need := imgStart (expSizes m) + a.2 + b.2 + 2 + c.1.length, waits := false, gate := none, run := expSet k (v.n 0) ops }

def islForm (k : KeySt) (r : RawCmd) : Nat → Option CmdForm
  | 1 => formImg r [2, 2, 4, 1] 16 (fun v => v.n 1) (fun v b => islNodeSet (v.n 0) (v.n 1) b (v.n 2) (v.flag 3))
  | 2 => formImg r [2, 2, 4, 1] 16 (fun v => v.n 1) (fun v b => islBranchSet (v.n 0) (v.n 1) b (v.n 2) (v.flag 3))
  | 3 => formImg r [2, 1, 4, 1] 32 (fun v => v.n 1) (fun v b => ruleSet (v.n 0) (v.n 1) b (v.n 2) (v.flag 3))
  | 4 => expForm k r
  | 5 => form r [2] (fun v => almAck (v.n 0))
  | 6 => form r [8, 4] (fun v => fumRead (v.buf 0))
  | _ => none

def acqForm (r : RawCmd) : Nat → Option CmdForm
  | 1 => form r [1, 8, 4] (fun v => calRead (v.n 0) (v.buf 1)) (gate := some 3)
  | 2 => form r [1, 2] (fun v => calRetry (v.n 0) (v.n 1)) (gate := some 3)
  | _ => none

def geyForm (r : RawCmd) : Nat → Option CmdForm
  | 1 => formImg r [1, 1] 16 (fun v => v.n 1) (fun v b => geyLcSet (v.n 0) (v.n 1) b) (gate := some 0)
  | 2 => formImg r [1, 2] 72 (fun v => v.n 1) (fun v b => geyTrigSet (v.n 0) (v.n 1) b) (gate := some 0)
  | 3 => form r [1, 8] (fun v => geyStreamSet (v.n 0) (v.n 1)) (gate := some 0)
  | 4 => form r [1] (fun v => geyFire (v.n 0)) (gate := some 0)
  | 5 => form r [8, 4] (fun v => geyTrigStats (v.buf 0)) (gate := some 0)
  | _ => none

def nrgForm (r : RawCmd) : Nat → Option CmdForm
  | 1 => formImg r [1, 1] 32 (fun _ => 1) (fun v b => nrgSet (v.n 0) b (v.flag 1)) (gate := some 1)
  | 2 => form r [1, 1, 1, 8, 2, 1] (fun v => nrgPulseSet (v.n 0) (v.n 1) (v.n 2) (v.n 3) (v.n 4) (v.flag 5)) (gate := some 1)
  | 3 => form r [2, 1, 8, 4] (fun v => nrgRead (v.n 0) (v.flag 1) (v.buf 2)) (gate := some 1)
  | 4 => form r [2] (fun v => nrgAck (v.n 0)) (gate := some 1)
  | _ => none

def cycForm (k : KeySt) (r : RawCmd) : Nat → Option CmdForm
  | 1 => form r [8, 4] (fun v => cycLoad (rawBuf r v 0) k) (gate := some 2)
  | 2 => form r [1] (fun v => cycStart (v.flag 0)) (waits := true) (gate := some 2)
  | 3 => form r [1] (fun v => cycStop (v.n 0)) (waits := true) (gate := some 2)
  | 4 => form r [8, 1] (fun v => cycSwitch (v.n 0) (v.flag 1)) (waits := true) (gate := some 2)
  | 5 => formImg r [1] 64 (fun _ => 1) (fun v b => rioStationSet (v.n 0) b) (gate := some 2)
  | 6 => form r [8, 4] (fun v => rioRead (v.buf 0)) (gate := some 2)
  | _ => none

def engForm (k : KeySt) (r : RawCmd) : Nat → Option CmdForm
  | 1 => form r [8, 4] (fun v => engImgLoad (rawBuf r v 0) k)
  | 2 => form r [1] (fun v => engSwitch (v.n 0)) (waits := true)
  | 3 => form r [4, 8, 4] (fun v => schTraceRead (v.n 0) (v.buf 1))
  | _ => none

/-- The port that the first byte of an operand block names. -/
def rawGate (r : RawCmd) : Option Nat := portGate (leNat (slice r.args 0 1))

/-- `n` values from number `i` on, each kept where its flag, from number `j` on, is set. -/
def ArgVals.opts (v : ArgVals) (i j n : Nat) : List (Option Nat) := (List.range n).map (fun q => if v.flag (j + q) then some (v.n (i + q)) else none)

def netForm (k : KeySt) (r : RawCmd) : Nat → Option CmdForm
  | 1 => form r ([1] ++ List.replicate 4 4 ++ List.replicate 4 16 ++ List.replicate 8 1) (fun v => netAddrSet (v.n 0) (v.opts 1 9 4) (v.opts 5 13 4))
      (gate := rawGate r)
  | 2 => form r [1, 1, 8, 16, 1, 1] (fun v => mcastSet (v.n 0) (v.n 1) (v.n 2) (v.n 3) (v.flag 4) (v.flag 5)) (gate := rawGate r)
  | 3 => form r ([1] ++ List.replicate 64 2 ++ List.replicate 64 1) (fun v => netVidSet (v.n 0) (v.opts 1 65 64)) (gate := rawGate r)
  | 4 => form r [1, 1, 1, 8, 1, 2, 1, 1, 4, 1] (fun v x =>
      if 1 < v.n 1 ∨ 1 < v.n 6 then (x, .done sRange 0)
      else macsecSet k (v.n 0) (v.flag 1) (v.n 2) (v.n 3) (v.n 4) (v.n 5) (v.flag 6) (v.flag 7) (v.n 8) (v.flag 9) x) (gate := rawGate r)
  | 5 => formImg r [1] 64 (fun _ => 1) (fun v b => sessSet k (v.n 0) b)
  | 6 => formImg r [2, 2] 2 (fun v => v.n 1) (fun v b => sessListSet (v.n 0) (v.n 1) b)
  | 7 => form r [1, 1, 8, 4] (fun v => sessCfgFrame (v.n 0) (v.n 1) (rawBuf r v 2))
  | 8 => form r [1, 1, 1] (fun v => sessCtrl k (v.n 0) (v.flag 1) (v.flag 2))
  | 9 => form r [1] (fun v => sessStats (v.n 0))
  | 10 => form r [1, 1, 8] (fun v => sfpRead (v.n 0) (v.n 1) { addr := v.n 2, len := 256 }) (gate := rawGate r)
  | _ => none

def timForm (r : RawCmd) : Nat → Option CmdForm
  | 1 => form r [12] (fun v => timSet (v.n 0 / 2 ^ 48) (v.n 0 / 2 ^ 16 % 2 ^ 32) (v.n 0 % 2 ^ 16))
  | 2 => form r [] (fun _ => timReacquire) (waits := true)
  | 3 => form r [1, 1, 8, 4] (fun v x => if 1 < v.n 1 then (x, .done sRange 0) else tsRead (v.n 0) (v.flag 1) (v.buf 2) x)
  | _ => none

def fabForm (r : RawCmd) : Nat → Option CmdForm
  | 1 => form r [] (fun _ => fabJoin) (waits := true)
  | 2 => form r [] (fun _ => fabLeave) (waits := true)
  | 3 => form r [8, 4] (fun v => fabRouteRead (v.buf 0))
  | 4 => form r [8, 4] (fun v => fabViewRead (v.buf 0))
  | 5 => form r [1, 2] (fun v => fabStreamDrop (v.n 0) (v.n 1))
  | _ => none

def safForm (r : RawCmd) : Nat → Option CmdForm
  | 1 => form r [8, 4] (fun v => safErrRead (v.buf 0))
  | 2 => form r [2] (fun v => safProof (v.n 0)) (waits := true)
  | 3 => form r [4] (fun v => safForce (v.n 0))
  | _ => none

def invForm (k : KeySt) (r : RawCmd) : Nat → Option CmdForm
  | 2 => form r [1, 8, 4] (fun v => invRead (v.n 0) (v.buf 1))
  | 3 => form r [1] (fun v => invRescan (v.n 0) r.answers)
  | 4 => form r [8, 4] (fun v => norSetWrite (rawBuf r v 0) k) (waits := true)
  | _ => none

/-- The command of an OPCODE that leaves the key store as it is. -/
def formOf (k : KeySt) (r : RawCmd) (opcode : Nat) : Option CmdForm :=
  let row := opcode % 256
  match opcode / 256 with
  | 0x01 => hifForm r row
  | 0x02 => ingForm r row
  | 0x03 => crtForm r row
  | 0x04 => oscForm r row
  | 0x05 => islForm k r row
  | 0x06 => acqForm r row
  | 0x07 => geyForm r row
  | 0x08 => nrgForm r row
  | 0x09 => cycForm k r row
  | 0x0A => engForm k r row
  | 0x0B => netForm k r row
  | 0x0C => timForm r row
  | 0x0D => fabForm r row
  | 0x0E => if row = 1 then form r [2, 2, 8, 4] (fun v => keyInfo k (v.n 0) (v.n 1) (v.buf 2)) else none
  | 0x0F => if row = 1 then form r [8, 8, 4] (fun v => sntRead (v.n 0) (v.buf 1)) else none
  | 0x10 => safForm r row
  | 0x11 => invForm k r row
  | _ => none

/-! ## Acceptance (R456, R459, R460) -/

def rawOpcode (r : RawCmd) : Nat := leNat (slice r.desc 0 2)

def rawCtx (r : RawCmd) : Ctx := { ring := r.ring, tag := leNat (slice r.desc 2 2), resAddr := leNat (slice r.desc 16 8) }

def rawArgLen (r : RawCmd) : Nat := leNat (slice r.desc 4 2)

/-- A fault of the descriptor that shows whatever command it names. -/
def rawMalformed (r : RawCmd) : Bool := descMalformed r.desc

/-- A descriptor whose operand block must hold `need` bytes completes with S_BAD_DESC. -/
def rawBad (r : RawCmd) (need : Nat) : Bool := rawMalformed r || decide (rawArgLen r < need) || (!r.argsOk && decide (0 < rawArgLen r))

/-- A bad descriptor's effect: a failed read of its operand block counts. -/
def rawBadRun (r : RawCmd) (need : Nat) (d : Dev) : Dev × CmdRes :=
  ((if rawMalformed r || decide (rawArgLen r < need) then d else d.count Reg.HIF_DMA_ERR), .done sBadDesc 0)

/-- A descriptor is accepted as a command that leaves the key store as it is, or names no command. -/
def acceptPlain (r : RawCmd) (k : KeySt) (d : Dev) : Dev :=
  match formOf k r (rawOpcode r) with
  | none => d.accept (rawCtx r) false none (fun x => (x, .done sBadDesc 0))
  | some c =>
    if rawBad r c.need then d.accept (rawCtx r) c.waits none (rawBadRun r c.need)
    else d.accept (rawCtx r) c.waits c.gate c.run

/-- A bad descriptor that asks for a reset completes at once: the host-interface hardware serves it (R553). -/
def rejectReset (r : RawCmd) (d : Dev) : Dev :=
  if !d.offers r.ring then d
  else
    let x := rawBadRun r 8 (d.fetch r.ring)
    x.1.complete r.ring (d.ring r.ring).next (d.ring r.ring).session sBadDesc 0 0 []

/-- A descriptor is accepted whose command can change the key store; none where it names another command. -/
def acceptKeyed (r : RawCmd) (k : KeySt) (d : Dev) : Option (KeySt × Dev) :=
  let refuse (need : Nat) (waits : Bool) : Option (KeySt × Dev) := some (k, d.accept (rawCtx r) waits none (rawBadRun r need))
  if rawOpcode r = 0x0E02 then
    if rawBad r 4 then refuse 4 true else some (keyReenrol (rawCtx r) ((argVals r.args [4]).n 0) k d)
  else if rawOpcode r = 0x0F02 then
    if rawBad r 64 then refuse 64 true
    else
      let v := argVals r.args [8, 8, 8, 1]
      some (sntClear (rawCtx r) { deviceId := v.n 0, counter := v.n 1, upTo := v.n 2, maxSev := v.n 3, tag := slice v.img 0 32 } r.steps k d)
  else if rawOpcode r = 0x1101 then
    if rawBad r 8 then some (k, rejectReset r d)
    else
      let v := argVals r.args [1, 4]
      some (rstRequest (rawCtx r) (v.n 0) (v.n 1) k d)
  else none

/-- The next descriptor of a COMMAND ring is accepted. Where its read fails the ring enters ERROR. -/
def commandAccept (r : RawCmd) (k : KeySt) (d : Dev) : KeySt × Dev :=
  if r.descOk = false then
    if d.offers r.ring then (k, d.readFails r.ring) else (k, d)
  else
    match acceptKeyed r k d with
    | some x => x
    | none => (k, acceptPlain r k d)

end Sys2Proof.Machine
end

