-- ==== Sys2Proof/Machine/BarRows.lean ====
section
/-! DEFINITION. The rows of the table of operations that concern BAR0 accesses and raw command descriptors. -/

namespace Sys2Proof.Machine

open Sys2Proof

/-- REG_WRITE (R17): a write of 4 or 8 bytes within BAR0. -/
def execRegWrite (offset size : Nat) (value : DWord) (s : State) : Answer := s.run 0 (fun k d => d.barWrite k offset size value)

/-- LO_READ_LATCH (R18): a read of 4 or 8 bytes within BAR0; offsets from 0x40_0000 on stand for BAR2 (R454, R559, log 13). -/
def execLoReadLatch (offset size : Nat) (s : State) : Answer :=
  s.run 0 (fun k d => if offset < 0x400000 then d.barRead k offset size else d.emit (.readData (d.doorbellRead (offset - 0x400000) size)))

/-- COMMAND_ACCEPT (R459). -/
def execCommandAccept (cmd : RawCmd) (s : State) : Answer := checkRatio (s.runKey 0 (commandAccept cmd))

end Sys2Proof.Machine
end

