-- ==== Sys2Proof/Machine/Dispatch.lean ====
section
/-! DEFINITION. One arm for each command. -/

namespace Sys2Proof.Machine

open Sys2Proof

/-- The effect of a command on everything but the queue. -/
def exec (i : Instr) (s : State) : Host.Outcome State Fault Refusal :=
  match i with
  | .regWrite offset size value => Sys2Proof.Machine.execRegWrite offset size value s
  | .loReadLatch offset size => Sys2Proof.Machine.execLoReadLatch offset size s
  | .glbLockWrite value => Sys2Proof.Machine.execGlbLockWrite value s
  | .clkGateSet mask => Sys2Proof.Machine.execClkGateSet mask s
  | .gateClose dt bit => Sys2Proof.Machine.execGateClose dt bit s
  | .clkGateClear mask => Sys2Proof.Machine.execClkGateClear mask s
  | .ingEnable value => Sys2Proof.Machine.execIngEnable value s
  | .ingDisable value => Sys2Proof.Machine.execIngDisable value s
  | .ingDrainDone dt => Sys2Proof.Machine.execIngDrainDone dt s
  | .oscEnable value => Sys2Proof.Machine.execOscEnable value s
  | .islEnable value => Sys2Proof.Machine.execIslEnable value s
  | .fumEnable value => Sys2Proof.Machine.execFumEnable value s
  | .feEnable value => Sys2Proof.Machine.execFeEnable value s
  | .rotEnable value => Sys2Proof.Machine.execRotEnable value s
  | .geyEnable value => Sys2Proof.Machine.execGeyEnable value s
  | .geyStreamEnable value => Sys2Proof.Machine.execGeyStreamEnable value s
  | .nrgEnable value => Sys2Proof.Machine.execNrgEnable value s
  | .rioSegEnable value => Sys2Proof.Machine.execRioSegEnable value s
  | .netPortEnable port value => Sys2Proof.Machine.execNetPortEnable port value s
  | .netFldEnable value => Sys2Proof.Machine.execNetFldEnable value s
  | .mdioStart value => Sys2Proof.Machine.execMdioStart value s
  | .mdioDone dt data => Sys2Proof.Machine.execMdioDone dt data s
  | .timEnable value => Sys2Proof.Machine.execTimEnable value s
  | .fabLinkEnable value => Sys2Proof.Machine.execFabLinkEnable value s
  | .schTraceEnable value => Sys2Proof.Machine.execSchTraceEnable value s
  | .ringEnable ring value => Sys2Proof.Machine.execRingEnable ring value s
  | .ringDisable ring => Sys2Proof.Machine.execRingDisable ring s
  | .ringDrained dt ring => Sys2Proof.Machine.execRingDrained dt ring s
  | .doorbell offset size value bufs => Sys2Proof.Machine.execDoorbell offset size value bufs s
  | .commandAccept cmd => Sys2Proof.Machine.execCommandAccept cmd s
  | .commandWaitDone dt => Sys2Proof.Machine.execCommandWaitDone dt s
  | .hostIngestTake dt ring len frame resv => Sys2Proof.Machine.execHostIngestTake dt ring len frame resv s
  | .bufferComplete dt ring => Sys2Proof.Machine.execBufferComplete dt ring s
  | .coalesceExpire dt ring => Sys2Proof.Machine.execCoalesceExpire dt ring s
  | .msixModerationExpire dt ring => Sys2Proof.Machine.execMsixModerationExpire dt ring s
  | .hostInterfaceReset dt => Sys2Proof.Machine.execHostInterfaceReset dt s
  | .d3hotEntry dt => Sys2Proof.Machine.execD3hotEntry dt s
  | .hifNop c value => Sys2Proof.Machine.execHifNop c value s
  | .hifFlush c ring => Sys2Proof.Machine.execHifFlush c ring s
  | .snapshotDeliver dt bad => Sys2Proof.Machine.execSnapshotDeliver dt bad s
  | .snapshotWholeWrite dt => Sys2Proof.Machine.execSnapshotWholeWrite dt s
  | .streamSet c stream image eff imm => Sys2Proof.Machine.execStreamSet c stream image eff imm s
  | .streamClr c stream eff imm => Sys2Proof.Machine.execStreamClr c stream eff imm s
  | .chanSet c first count images => Sys2Proof.Machine.execChanSet c first count images s
  | .streamStats c stream => Sys2Proof.Machine.execStreamStats c stream s
  | .ethFrameRx dt port age phase frame => Sys2Proof.Machine.execEthFrameRx dt port age phase frame s
  | .mcastQueryAnswer dt port => Sys2Proof.Machine.execMcastQueryAnswer dt port s
  | .mcastReportTimer dt port => Sys2Proof.Machine.execMcastReportTimer dt port s
  | .conversionItem dt stream ecc => Sys2Proof.Machine.execConversionItem dt stream ecc s
  | .epochOpen dt epoch => Sys2Proof.Machine.execEpochOpen dt epoch s
  | .localSeal dt corrected dbe crcBad => Sys2Proof.Machine.execLocalSeal dt corrected dbe crcBad s
  | .earlySeal x => Sys2Proof.Machine.execEarlySeal x s
  | .fillReform dt epoch => Sys2Proof.Machine.execFillReform dt epoch s
  | .pairHave dt src seq epoch streams => Sys2Proof.Machine.execPairHave dt src seq epoch streams s
  | .pairRec dt src seq epoch rec' => Sys2Proof.Machine.execPairRec dt src seq epoch rec' s
  | .pairDone dt src seq epoch count => Sys2Proof.Machine.execPairDone dt src seq epoch count s
  | .pairAck dt src seq epoch count => Sys2Proof.Machine.execPairAck dt src seq epoch count s
  | .manifestPublish dt epoch => Sys2Proof.Machine.execManifestPublish dt epoch s
  | .sealManifest dt src seq manifest => Sys2Proof.Machine.execSealManifest dt src seq manifest s
  | .confirm dt => Sys2Proof.Machine.execConfirm dt s
  | .confirmTimeout dt epoch => Sys2Proof.Machine.execConfirmTimeout dt epoch s
  | .lateRecord dt stream epoch rec' rx => Sys2Proof.Machine.execLateRecord dt stream epoch rec' rx s
  | .amendFwd dt src seq amendment => Sys2Proof.Machine.execAmendFwd dt src seq amendment s
  | .histRead c epoch buf => Sys2Proof.Machine.execHistRead c epoch buf s
  | .amendRead c stream epoch addr => Sys2Proof.Machine.execAmendRead c stream epoch addr s
  | .oscSigSet c first count images eff imm => Sys2Proof.Machine.execOscSigSet c first count images eff imm s
  | .oscDefSet c first count images => Sys2Proof.Machine.execOscDefSet c first count images s
  | .oscReset c band => Sys2Proof.Machine.execOscReset c band s
  | .modeRead c buf => Sys2Proof.Machine.execModeRead c buf s
  | .trackUpdate dt => Sys2Proof.Machine.execTrackUpdate dt s
  | .ssoUpdate dt => Sys2Proof.Machine.execSsoUpdate dt s
  | .energyRanking dt => Sys2Proof.Machine.execEnergyRanking dt s
  | .trackerLag dt band => Sys2Proof.Machine.execTrackerLag dt band s
  | .islandEvaluate dt => Sys2Proof.Machine.execIslandEvaluate dt s
  | .islNodeSet c first count images eff imm => Sys2Proof.Machine.execIslNodeSet c first count images eff imm s
  | .islBranchSet c first count images eff imm => Sys2Proof.Machine.execIslBranchSet c first count images eff imm s
  | .ruleSet c first count images eff imm => Sys2Proof.Machine.execRuleSet c first count images eff imm s
  | .expSet c pub ops => Sys2Proof.Machine.execExpSet c pub ops s
  | .almAck c rule => Sys2Proof.Machine.execAlmAck c rule s
  | .fumRead c buf => Sys2Proof.Machine.execFumRead c buf s
  | .fumaroleDecision dt disagree => Sys2Proof.Machine.execFumaroleDecision dt disagree s
  | .minOnExpire dt => Sys2Proof.Machine.execMinOnExpire dt s
  | .almokTimeout dt => Sys2Proof.Machine.execAlmokTimeout dt s
  | .expressRetransmit dt pub => Sys2Proof.Machine.execExpressRetransmit dt pub s
  | .votePeriodic dt => Sys2Proof.Machine.execVotePeriodic dt s
  | .vote dt src seq msg => Sys2Proof.Machine.execVote dt src seq msg s
  | .gridState dt src seq msg => Sys2Proof.Machine.execGridState dt src seq msg s
  | .gridStatePeriodic dt => Sys2Proof.Machine.execGridStatePeriodic dt s
  | .sampleStrobe dt link => Sys2Proof.Machine.execSampleStrobe dt link s
  | .sampleFrame dt module frame => Sys2Proof.Machine.execSampleFrame dt module frame s
  | .feLinkDown dt module commaLost => Sys2Proof.Machine.execFeLinkDown dt module commaLost s
  | .feCommandSend dt link => Sys2Proof.Machine.execFeCommandSend dt link s
  | .feCmdVerifyTimeout dt module => Sys2Proof.Machine.execFeCmdVerifyTimeout dt module s
  | .feStartStep dt module => Sys2Proof.Machine.execFeStartStep dt module s
  | .fineSample dt => Sys2Proof.Machine.execFineSample dt s
  | .localEstimation dt stream epoch => Sys2Proof.Machine.execLocalEstimation dt stream epoch s
  | .calTurnStart dt module => Sys2Proof.Machine.execCalTurnStart dt module s
  | .calTurnStep dt module => Sys2Proof.Machine.execCalTurnStep dt module s
  | .calRampEnd dt module adc => Sys2Proof.Machine.execCalRampEnd dt module adc s
  | .calRead c module buf => Sys2Proof.Machine.execCalRead c module buf s
  | .calRetry c module mask => Sys2Proof.Machine.execCalRetry c module mask s
  | .geyserTick dt => Sys2Proof.Machine.execGeyserTick dt s
  | .detectorHoldExpire dt detector => Sys2Proof.Machine.execDetectorHoldExpire dt detector s
  | .detectorUnfreeze dt detector => Sys2Proof.Machine.execDetectorUnfreeze dt detector s
  | .triggerRepeat dt trigger => Sys2Proof.Machine.execTriggerRepeat dt trigger s
  | .holdoffExpire dt trigger => Sys2Proof.Machine.execHoldoffExpire dt trigger s
  | .triggerStuck dt trigger => Sys2Proof.Machine.execTriggerStuck dt trigger s
  | .streamRecordDeliver dt => Sys2Proof.Machine.execStreamRecordDeliver dt s
  | .geyLcSet c first count images => Sys2Proof.Machine.execGeyLcSet c first count images s
  | .geyTrigSet c first count images => Sys2Proof.Machine.execGeyTrigSet c first count images s
  | .geyStreamSet c rate mask => Sys2Proof.Machine.execGeyStreamSet c rate mask s
  | .geyFire c trigger => Sys2Proof.Machine.execGeyFire c trigger s
  | .geyTrigStats c buf => Sys2Proof.Machine.execGeyTrigStats c buf s
  | .pulseEmit dt pin => Sys2Proof.Machine.execPulseEmit dt pin s
  | .pulseWidthEnd dt pin => Sys2Proof.Machine.execPulseWidthEnd dt pin s
  | .nrgInterval dt => Sys2Proof.Machine.execNrgInterval dt s
  | .nrgPeriodicSave dt => Sys2Proof.Machine.execNrgPeriodicSave dt s
  | .nrgSaveDone dt point ok => Sys2Proof.Machine.execNrgSaveDone dt point ok s
  | .pfwAssert dt => Sys2Proof.Machine.execPfwAssert dt s
  | .pfwDeassert dt => Sys2Proof.Machine.execPfwDeassert dt s
  | .nrgFinalSaveDone x => Sys2Proof.Machine.execNrgFinalSaveDone x s
  | .nrgSet c point image clear => Sys2Proof.Machine.execNrgSet c point image clear s
  | .nrgPulseSet c pin point idx weight width en => Sys2Proof.Machine.execNrgPulseSet c pin point idx weight width en s
  | .nrgRead c mask latched buf => Sys2Proof.Machine.execNrgRead c mask latched buf s
  | .nrgAck c mask => Sys2Proof.Machine.execNrgAck c mask s
  | .cycleBoundary dt => Sys2Proof.Machine.execCycleBoundary dt s
  | .cycleExecDone dt work retained => Sys2Proof.Machine.execCycleExecDone dt work retained s
  | .outputWrite dt carrier => Sys2Proof.Machine.execOutputWrite dt carrier s
  | .cycFault dt => Sys2Proof.Machine.execCycFault dt s
  | .lockstepMismatch dt => Sys2Proof.Machine.execLockstepMismatch dt s
  | .outputFrameLate dt seg => Sys2Proof.Machine.execOutputFrameLate dt seg s
  | .stationReply dt seg fcsOk payload => Sys2Proof.Machine.execStationReply dt seg fcsOk payload s
  | .retainedSave dt => Sys2Proof.Machine.execRetainedSave dt s
  | .retainedSaveDone dt ok => Sys2Proof.Machine.execRetainedSaveDone dt ok s
  | .cycLoad c image => Sys2Proof.Machine.execCycLoad c image s
  | .cycStart c retInit => Sys2Proof.Machine.execCycStart c retInit s
  | .cycStop c mode => Sys2Proof.Machine.execCycStop c mode s
  | .cycSwitch c target retInit => Sys2Proof.Machine.execCycSwitch c target retInit s
  | .rioStationSet c station image => Sys2Proof.Machine.execRioStationSet c station image s
  | .rioRead c buf => Sys2Proof.Machine.execRioRead c buf s
  | .workItemDispatch dt item cls => Sys2Proof.Machine.execWorkItemDispatch dt item cls s
  | .workItemPreempt dt cls => Sys2Proof.Machine.execWorkItemPreempt dt cls s
  | .workItemComplete dt engine ecc => Sys2Proof.Machine.execWorkItemComplete dt engine ecc s
  | .budgetOverrun dt engine => Sys2Proof.Machine.execBudgetOverrun dt engine s
  | .imageException dt engine => Sys2Proof.Machine.execImageException dt engine s
  | .engineRetire dt engine cause => Sys2Proof.Machine.execEngineRetire dt engine cause s
  | .spareJoin dt => Sys2Proof.Machine.execSpareJoin dt s
  | .imageFault dt engine => Sys2Proof.Machine.execImageFault dt engine s
  | .mcHeartbeat dt => Sys2Proof.Machine.execMcHeartbeat dt s
  | .mcDefer dt pct => Sys2Proof.Machine.execMcDefer dt pct s
  | .mcDeferLong dt task => Sys2Proof.Machine.execMcDeferLong dt task s
  | .engImgLoad c image => Sys2Proof.Machine.execEngImgLoad c image s
  | .engSwitch c cls => Sys2Proof.Machine.execEngSwitch c cls s
  | .schTraceRead c first buf => Sys2Proof.Machine.execSchTraceRead c first buf s
  | .ethLinkUp dt port => Sys2Proof.Machine.execEthLinkUp dt port s
  | .ethLinkDown dt port los => Sys2Proof.Machine.execEthLinkDown dt port los s
  | .preemptVerify dt port ok => Sys2Proof.Machine.execPreemptVerify dt port ok s
  | .frameTransmit dt port phase => Sys2Proof.Machine.execFrameTransmit dt port phase s
  | .pauseExpire dt port => Sys2Proof.Machine.execPauseExpire dt port s
  | .sessionPublish dt sess => Sys2Proof.Machine.execSessionPublish dt sess s
  | .sessionGooseRetransmit dt sess => Sys2Proof.Machine.execSessionGooseRetransmit dt sess s
  | .fieldFrameRx dt seg frame => Sys2Proof.Machine.execFieldFrameRx dt seg frame s
  | .fieldCollision dt seg => Sys2Proof.Machine.execFieldCollision dt seg s
  | .fieldBackoffExpire dt seg carrier => Sys2Proof.Machine.execFieldBackoffExpire dt seg carrier s
  | .sfpInsert dt port a0 => Sys2Proof.Machine.execSfpInsert dt port a0 s
  | .sfpPoll dt port a2 => Sys2Proof.Machine.execSfpPoll dt port a2 s
  | .txFaultRise dt port => Sys2Proof.Machine.execTxFaultRise dt port s
  | .netAddrSet c port ip4 ip6 => Sys2Proof.Machine.execNetAddrSet c port ip4 ip6 s
  | .netMcastSet c port entry mac ip join valid => Sys2Proof.Machine.execNetMcastSet c port entry mac ip join valid s
  | .netVidSet c port vids => Sys2Proof.Machine.execNetVidSet c port vids s
  | .macsecSet c port rx chan sci an slot xpn conf window en => Sys2Proof.Machine.execMacsecSet c port rx chan sci an slot xpn conf window en s
  | .sessSet c sess image => Sys2Proof.Machine.execSessSet c sess image s
  | .sessListSet c first count images => Sys2Proof.Machine.execSessListSet c first count images s
  | .sessCfgFrame c sess kind frame => Sys2Proof.Machine.execSessCfgFrame c sess kind frame s
  | .sessCtrl c sess txOn cfgPending => Sys2Proof.Machine.execSessCtrl c sess txOn cfgPending s
  | .sessStats c sess => Sys2Proof.Machine.execSessStats c sess s
  | .sfpRead c port page buf => Sys2Proof.Machine.execSfpRead c port page buf s
  | .ptpTransmitTimer dt port => Sys2Proof.Machine.execPtpTransmitTimer dt port s
  | .ppsInEdge dt phase => Sys2Proof.Machine.execPpsInEdge dt phase s
  | .todMessage dt msg => Sys2Proof.Machine.execTodMessage dt msg s
  | .sampleMissingTimer dt dom => Sys2Proof.Machine.execSampleMissingTimer dt dom s
  | .timeReport dt src seq dom0 dom1 => Sys2Proof.Machine.execTimeReport dt src seq dom0 dom1 s
  | .timeReportPeriodic dt => Sys2Proof.Machine.execTimeReportPeriodic dt s
  | .timeSel dt src seq dom => Sys2Proof.Machine.execTimeSel dt src seq dom s
  | .ppsOutSecond dt => Sys2Proof.Machine.execPpsOutSecond dt s
  | .ppsOutWidthEnd dt => Sys2Proof.Machine.execPpsOutWidthEnd dt s
  | .utcOffset dt => Sys2Proof.Machine.execUtcOffset dt s
  | .timSet c sec ns frac => Sys2Proof.Machine.execTimSet c sec ns frac s
  | .timReacquire c => Sys2Proof.Machine.execTimReacquire c s
  | .tsRead c port tx buf => Sys2Proof.Machine.execTsRead c port tx buf s
  | .ulxTrained dt link => Sys2Proof.Machine.execUlxTrained dt link s
  | .ulxLinkDown dt link => Sys2Proof.Machine.execUlxLinkDown dt link s
  | .linkPacket dt link pkt fecCorr fecUncorr => Sys2Proof.Machine.execLinkPacket dt link pkt fecCorr fecUncorr s
  | .replayTimeout dt link => Sys2Proof.Machine.execReplayTimeout dt link s
  | .laneFail dt link lane => Sys2Proof.Machine.execLaneFail dt link lane s
  | .widthShed dt link => Sys2Proof.Machine.execWidthShed dt link s
  | .widthGrow dt link => Sys2Proof.Machine.execWidthGrow dt link s
  | .hello dt link msg => Sys2Proof.Machine.execHello dt link msg s
  | .lsa dt link src seq links => Sys2Proof.Machine.execLsa dt link src seq links s
  | .lsaPeriodic dt => Sys2Proof.Machine.execLsaPeriodic dt s
  | .e2eAck dt src vc last => Sys2Proof.Machine.execE2eAck dt src vc last s
  | .e2eResendTimeout dt dst => Sys2Proof.Machine.execE2eResendTimeout dt dst s
  | .heartbeatSend dt => Sys2Proof.Machine.execHeartbeatSend dt s
  | .heartbeat dt src seq => Sys2Proof.Machine.execHeartbeat dt src seq s
  | .heartbeatTimeout dt device => Sys2Proof.Machine.execHeartbeatTimeout dt device s
  | .suspect dt src seq view suspects => Sys2Proof.Machine.execSuspect dt src seq view suspects s
  | .state dt src seq view u suspects => Sys2Proof.Machine.execState dt src seq view u suspects s
  | .newView dt src seq msg => Sys2Proof.Machine.execNewView dt src seq msg s
  | .fwdDone dt src seq view => Sys2Proof.Machine.execFwdDone dt src seq view s
  | .depart dt src seq => Sys2Proof.Machine.execDepart dt src seq s
  | .joinReq dt src seq rate wait => Sys2Proof.Machine.execJoinReq dt src seq rate wait s
  | .histReq dt src seq first last streams => Sys2Proof.Machine.execHistReq dt src seq first last streams s
  | .histRec dt src seq epoch lossCount rec' => Sys2Proof.Machine.execHistRec dt src seq epoch lossCount rec' s
  | .mirrorRec dt src seq epoch rec' => Sys2Proof.Machine.execMirrorRec dt src seq epoch rec' s
  | .summit dt src seq view => Sys2Proof.Machine.execSummit dt src seq view s
  | .summitElect dt silent => Sys2Proof.Machine.execSummitElect dt silent s
  | .autoRejoin dt target => Sys2Proof.Machine.execAutoRejoin dt target s
  | .fabJoin c => Sys2Proof.Machine.execFabJoin c s
  | .fabLeave c => Sys2Proof.Machine.execFabLeave c s
  | .fabRouteRead c buf => Sys2Proof.Machine.execFabRouteRead c buf s
  | .fabViewRead c buf => Sys2Proof.Machine.execFabViewRead c buf s
  | .fabStreamDrop c device index => Sys2Proof.Machine.execFabStreamDrop c device index s
  | .install dt ring descOk msg upTo => Sys2Proof.Machine.execInstall dt ring descOk msg upTo s
  | .stageNext dt ring descOk msg upTo => Sys2Proof.Machine.execStageNext dt ring descOk msg upTo s
  | .promote dt ring descOk msg upTo => Sys2Proof.Machine.execPromote dt ring descOk msg upTo s
  | .invalidate dt ring descOk msg upTo => Sys2Proof.Machine.execInvalidate dt ring descOk msg upTo s
  | .lifecycle dt ring descOk msg upTo => Sys2Proof.Machine.execLifecycle dt ring descOk msg upTo s
  | .ownerInit dt ring descOk msg upTo => Sys2Proof.Machine.execOwnerInit dt ring descOk msg upTo s
  | .keySweep dt => Sys2Proof.Machine.execKeySweep dt s
  | .keyInfo c first count buf => Sys2Proof.Machine.execKeyInfo c first count buf s
  | .keyReenrol c confirm => Sys2Proof.Machine.execKeyReenrol c confirm s
  | .keyStoreStart dt => Sys2Proof.Machine.execKeyStoreStart dt s
  | .trngFail dt => Sys2Proof.Machine.execTrngFail dt s
  | .trngRecover dt => Sys2Proof.Machine.execTrngRecover dt s
  | .sinterRaise dt code status index arg0 arg1 => Sys2Proof.Machine.execSinterRaise dt code status index arg0 arg1 s
  | .sinterRecordWrite dt writes => Sys2Proof.Machine.execSinterRecordWrite dt writes s
  | .sinterHeaderWrite dt torn => Sys2Proof.Machine.execSinterHeaderWrite dt torn s
  | .memFailed dt => Sys2Proof.Machine.execMemFailed dt s
  | .memProbe dt ok => Sys2Proof.Machine.execMemProbe dt ok s
  | .memRestored dt => Sys2Proof.Machine.execMemRestored dt s
  | .powerFailWarning dt => Sys2Proof.Machine.execPowerFailWarning dt s
  | .recorderStarted dt => Sys2Proof.Machine.execRecorderStarted dt s
  | .sntRead c first buf => Sys2Proof.Machine.execSntRead c first buf s
  | .sntClear c deviceId counter upTo maxSev tag steps => Sys2Proof.Machine.execSntClear c deviceId counter upTo maxSev tag steps s
  | .errorRaised dt cls index diag status level => Sys2Proof.Machine.execErrorRaised dt cls index diag status level s
  | .diagnosticCheck dt diag index ok reading corrected => Sys2Proof.Machine.execDiagnosticCheck dt diag index ok reading corrected s
  | .errorRecoveryDone dt cls index => Sys2Proof.Machine.execErrorRecoveryDone dt cls index s
  | .entryClose dt seq => Sys2Proof.Machine.execEntryClose dt seq s
  | .engineSelftest dt engine => Sys2Proof.Machine.execEngineSelftest dt engine s
  | .engineSelftestDone dt ok => Sys2Proof.Machine.execEngineSelftestDone dt ok s
  | .mgmtStall dt => Sys2Proof.Machine.execMgmtStall dt s
  | .mgmtRestart dt => Sys2Proof.Machine.execMgmtRestart dt s
  | .proofTest dt fails ms => Sys2Proof.Machine.execProofTest dt fails ms s
  | .safErrRead c buf => Sys2Proof.Machine.execSafErrRead c buf s
  | .safProof c mask => Sys2Proof.Machine.execSafProof c mask s
  | .safForce c confirm => Sys2Proof.Machine.execSafForce c confirm s
  | .powerOnReset dt pfwLow testEn => Sys2Proof.Machine.execPowerOnReset dt pfwLow testEn s
  | .railFall dt rail => Sys2Proof.Machine.execRailFall dt rail s
  | .rstRequestWarm c confirm => Sys2Proof.Machine.execRstRequestWarm c confirm s
  | .rstRequestCold c confirm => Sys2Proof.Machine.execRstRequestCold c confirm s
  | .xtalJudged dt input gates => Sys2Proof.Machine.execXtalJudged dt input gates s
  | .rescue dt => Sys2Proof.Machine.execRescue dt s
  | .pllLock dt => Sys2Proof.Machine.execPllLock dt s
  | .rootLoss dt => Sys2Proof.Machine.execRootLoss dt s
  | .rootRejudge dt input gates => Sys2Proof.Machine.execRootRejudge dt input gates s
  | .moduleDiscovery dt mems sfps => Sys2Proof.Machine.execModuleDiscovery dt mems sfps s
  | .ddrReady dt gib trained => Sys2Proof.Machine.execDdrReady dt gib trained s
  | .imageSetVerify dt chips failing => Sys2Proof.Machine.execImageSetVerify dt chips failing s
  | .cmdReady dt => Sys2Proof.Machine.execCmdReady dt s
  | .invRead c pos buf => Sys2Proof.Machine.execInvRead c pos buf s
  | .invRescan c pos answers => Sys2Proof.Machine.execInvRescan c pos answers s
  | .norSetWrite c image => Sys2Proof.Machine.execNorSetWrite c image s
  | .announceReceiptTimeout dt port => Sys2Proof.Machine.execAnnounceReceiptTimeout dt port s
  | .timeQualityDoubtful dt => Sys2Proof.Machine.execTimeQualityDoubtful dt s
  | .sfpRemove dt port => Sys2Proof.Machine.execSfpRemove dt port s
  | .e2eAckSend dt => Sys2Proof.Machine.execE2eAckSend dt s
  | .e2eUnackedSuspect dt dst => Sys2Proof.Machine.execE2eUnackedSuspect dt dst s
  | .joinTimeout dt => Sys2Proof.Machine.execJoinTimeout dt s
  | .reacquireTimeout dt => Sys2Proof.Machine.execReacquireTimeout dt s
  | .carrierDeferEnd dt seg => Sys2Proof.Machine.execCarrierDeferEnd dt seg s
  | .d3hotExit dt => Sys2Proof.Machine.execD3hotExit dt s
  | .pcieLinkUp dt width speed => Sys2Proof.Machine.execPcieLinkUp dt width speed s
  | .msixUnmask vector => Sys2Proof.Machine.execMsixUnmask vector s

end Sys2Proof.Machine
end

