-- ==== Sys2Proof/Safety.lean ====
section
/-! DEFINITION. What counts as a safe run, and the terms in which statements speak of commands, completions and registers. -/

namespace Sys2Proof.Machine

open Sys2Proof

/-! ## A sound key store -/

/-- A slot of the directory: one of 1,024, holding keys only while it is VALID (R482, R484, R489, R490). -/
def slotSound (n : Nat) (s : Slot) : Prop := n < 1024 ∧ (s.state = .valid ∨ (s.cur = none ∧ s.next = none))

/-- The same of a cell. -/
def cellSound (n : Nat) (c : KeyCell) : Prop := n < 1024 ∧ (c.state = .valid ∨ (c.cur = none ∧ c.next = none))

/-- What a committed change may do in a life-cycle state: no key comes into a RETURNED device, and nothing leads back to BLANK (R492). -/
def changeSound (lc : LifeCycle) : StoredChange → Prop
  | .setCell n c => cellSound n c ∧ lc ≠ .returned
  | .invalidate n => n < 1024 ∧ lc ≠ .returned
  | .lifecycle x => x ≠ .blank ∧ (lc = .returned → x = .returned)
  | .ownerInit c => cellSound 0 c ∧ lc ≠ .returned
  | .counterOnly => True

/-- The key store is sound: its directory and its cache have one entry a slot and hold keys of VALID slots only; a RETURNED device holds no key, no
root secret and no helper data; enrolment waits in BLANK only; and a committed journal record never lowers the counter. -/
def keySound (k : KeySt) : Prop :=
  Tbl.wf k.slots = true ∧ (∀ x ∈ k.slots, slotSound x.1 x.2)
    ∧ Tbl.wf k.cells = true ∧ (∀ x ∈ k.cells, cellSound x.1 x.2)
    ∧ (k.lc = .returned → k.slots = [] ∧ k.cells = [] ∧ k.root = none ∧ k.helper = [])
    ∧ (k.lc = .blank → k.slots = [] ∧ k.cells = [] ∧ k.journal = none)
    ∧ (k.enrolWaits = true → k.lc = .blank)
    ∧ (∀ j, k.journal = some j → j.state = .committed → k.counter ≤ j.counter ∧ changeSound k.lc j.change)

/-- A safe state: the key store is sound, and no warm reset has applied clock ratios that R536 leaves undefined. -/
def safe (s : State) : Prop := keySound s.key ∧ s.dev.clk.ratioBroken = false

/-! ## Commands on a ring -/

/-- A COMMAND ring offers a descriptor that is accepted and not turned away: the rings are served, the device is not in RESCUE, fewer
than 64 commands wait where the command may wait, and the block is not gated (R459, R475, R533, R539). -/
def ready (d : Dev) (ring : Nat) (waits : Bool) (gate : Option Nat) : Prop :=
  d.accepts ring = true ∧ d.bit Fld.CLK_STATUS_RESCUE = false ∧ (waits = true → d.hif.waiting.length < 64) ∧ gate.any d.gated = false

/-- The device after `dt` ns, the outputs of the last command dropped. -/
def later (d : Dev) (dt : Nat) : Dev := Dev.advance { d with out := [] } dt

/-- The device as a ring command's checks see it: the descriptor fetched. -/
def fetched (d : Dev) (ring : Nat) : Dev := Dev.fetch (later d 0) ring

/-- The state in which the command of context `c` has left the device `d'` and is answered: its completion is written, or it waits. -/
def served (s : State) (c : Ctx) (d' : Dev) (r : CmdRes) : State :=
  { s with dev := d'.answer c (s.dev.ring c.ring).next (s.dev.ring c.ring).session r }

/-- No item in service is a rerun, and no image is being switched: the end of an item is then its own effect alone. -/
def Dev.calm (d : Dev) : Bool := d.sch.service.all (fun r => r.q.avoid.isNone) && d.sch.switching.all (fun x => x.isNone)

/-- The completion of the descriptor that ring `ring` offers in `d` is among the outputs of `t`, with this status and RESULT. -/
def completes (d : Dev) (ring status result : Nat) (t : Dev) : Prop :=
  ∃ phase, Out.completion ring (d.ring ring).next status result phase ∈ t.out

/-- The command that ring `ring` offers in `d` waits in `t` for the event `kind`. -/
def waitsIn (d : Dev) (ring : Nat) (kind : WaitKind) (t : Dev) : Prop :=
  ∃ w ∈ t.hif.waiting, w.ring = ring ∧ w.k = (d.ring ring).next ∧ w.kind = kind

/-! ## Pulses -/

/-- Pulses that a pin still owes: edge times in its queue and crossings in its carries (R283). -/
def PulseSt.owed (p : PulseSt) : Nat := (p.jobs.map (fun j => j.times.length + j.carry)).sum

/-- Is a frame to send a PTP message? -/
def TxFrame.isPtp (f : TxFrame) : Bool := match f.body with | .ptp _ _ => true | _ => false

/-! ## Kinds of commands -/

/-- The context of a ring command that is given by its operands. -/
def ctxOf : Instr → Option Ctx
  | .hifNop c .. => some c
  | .hifFlush c .. => some c
  | .streamSet c .. => some c
  | .streamClr c .. => some c
  | .chanSet c .. => some c
  | .streamStats c .. => some c
  | .histRead c .. => some c
  | .amendRead c .. => some c
  | .oscSigSet c .. => some c
  | .oscDefSet c .. => some c
  | .oscReset c .. => some c
  | .modeRead c .. => some c
  | .islNodeSet c .. => some c
  | .islBranchSet c .. => some c
  | .ruleSet c .. => some c
  | .expSet c .. => some c
  | .almAck c .. => some c
  | .fumRead c .. => some c
  | .calRead c .. => some c
  | .calRetry c .. => some c
  | .geyLcSet c .. => some c
  | .geyTrigSet c .. => some c
  | .geyStreamSet c .. => some c
  | .geyFire c .. => some c
  | .geyTrigStats c .. => some c
  | .nrgSet c .. => some c
  | .nrgPulseSet c .. => some c
  | .nrgRead c .. => some c
  | .nrgAck c .. => some c
  | .cycLoad c .. => some c
  | .cycStart c .. => some c
  | .cycStop c .. => some c
  | .cycSwitch c .. => some c
  | .rioStationSet c .. => some c
  | .rioRead c .. => some c
  | .engImgLoad c .. => some c
  | .engSwitch c .. => some c
  | .schTraceRead c .. => some c
  | .netAddrSet c .. => some c
  | .netMcastSet c .. => some c
  | .netVidSet c .. => some c
  | .macsecSet c .. => some c
  | .sessSet c .. => some c
  | .sessListSet c .. => some c
  | .sessCfgFrame c .. => some c
  | .sessCtrl c .. => some c
  | .sessStats c .. => some c
  | .sfpRead c .. => some c
  | .timSet c .. => some c
  | .timReacquire c => some c
  | .tsRead c .. => some c
  | .fabJoin c => some c
  | .fabLeave c => some c
  | .fabRouteRead c .. => some c
  | .fabViewRead c .. => some c
  | .fabStreamDrop c .. => some c
  | .keyInfo c .. => some c
  | .keyReenrol c .. => some c
  | .sntRead c .. => some c
  | .sntClear c .. => some c
  | .safErrRead c .. => some c
  | .safProof c .. => some c
  | .safForce c .. => some c
  | .rstRequestWarm c .. => some c
  | .rstRequestCold c .. => some c
  | .invRead c .. => some c
  | .invRescan c .. => some c
  | .norSetWrite c .. => some c
  | _ => none

/-- The commands that can change the key store: updates, enrolment, its start, the sweep, the entropy source, a restart or a reset of what
carries an update on, and the log clear, which shares its counter. -/
def changesKeys : Instr → Bool
  | .install .. | .stageNext .. | .promote .. | .invalidate .. | .lifecycle .. | .ownerInit .. | .keySweep .. | .keyReenrol ..
  | .keyStoreStart .. | .trngFail .. | .trngRecover .. | .mgmtRestart .. | .sntClear .. | .commandAccept .. | .nrgFinalSaveDone ..
  | .powerOnReset .. | .railFall .. | .rstRequestWarm .. | .rstRequestCold .. | .xtalJudged .. | .rescue .. => true
  | _ => false

/-- The commands through which a warm reset can come about. -/
def canWarmReset : Instr → Bool
  | .commandAccept .. | .nrgFinalSaveDone .. | .rstRequestWarm .. => true
  | _ => false

/-! ## Frames -/

/-- The parts of the device. -/
inductive Part where
  | regs | hif | ing | crt | osc | isl | fum | acq | gey | nrg | cyc | sch | net | tim | fab | snt | saf | clk | inv
  deriving DecidableEq, Repr

/-- Every part of the device but those listed is the same in both (outputs and the count of free values are no parts). -/
def keptBut (l : List Part) (d t : Dev) : Prop :=
  (.regs ∉ l → t.regs = d.regs) ∧ (.hif ∉ l → t.hif = d.hif) ∧ (.ing ∉ l → t.ing = d.ing) ∧ (.crt ∉ l → t.crt = d.crt)
    ∧ (.osc ∉ l → t.osc = d.osc) ∧ (.isl ∉ l → t.isl = d.isl) ∧ (.fum ∉ l → t.fum = d.fum) ∧ (.acq ∉ l → t.acq = d.acq)
    ∧ (.gey ∉ l → t.gey = d.gey) ∧ (.nrg ∉ l → t.nrg = d.nrg) ∧ (.cyc ∉ l → t.cyc = d.cyc) ∧ (.sch ∉ l → t.sch = d.sch)
    ∧ (.net ∉ l → t.net = d.net) ∧ (.tim ∉ l → t.tim = d.tim) ∧ (.fab ∉ l → t.fab = d.fab) ∧ (.snt ∉ l → t.snt = d.snt)
    ∧ (.saf ∉ l → t.saf = d.saf) ∧ (.clk ∉ l → t.clk = d.clk) ∧ (.inv ∉ l → t.inv = d.inv)

/-- A register that a message to the host or a completion moves: DONE and STAT of a ring, and the pending bits of MSI-X. -/
def signalReg (off : Nat) : Prop :=
  (∃ n, n < 32 ∧ (off = Reg.HIF_RINGn_DONE n ∨ off = Reg.HIF_RINGn_STAT n)) ∨ off = 0x031000 ∨ off = 0x031004

/-- A register that raising an event moves: those of a message, and the counters of the event ring and of Sinter. -/
def eventReg (off : Nat) : Prop :=
  signalReg off ∨ off ∈ [Reg.HIF_EVT_LOST, Reg.SNT_DISCARDED, Reg.SNT_FOLDED, Reg.SNT_OVERWRITTEN, Reg.SNT_SHADOW_LOST]

/-- No part of the device but those listed has changed, and no register but those of `p`. -/
def only (l : List Part) (p : Nat → Prop) (d t : Dev) : Prop := keptBut l d t ∧ ∀ off, ¬ p off → t.reg off = d.reg off

/-- After `dt` ns a command has gone from `s` to `t`: no key and no waiting command has changed, no part of the device but those listed,
and no register but those of `p`. -/
def moves (s : State) (dt : Nat) (l : List Part) (p : Nat → Prop) (t : State) : Prop :=
  t.key = s.key ∧ t.pending = s.pending ∧ only l p (later s.dev dt) t.dev

end Sys2Proof.Machine
end

