-- ==== Sys2Proof/WellFormed.lean ====
section
/-! DEFINITION. Well-formed commands: every operand lies within the field or the set of objects that it names. -/

namespace Sys2Proof

/-- A number fits in `n` bits. -/
def fits (n v : Nat) : Bool := decide (v < 2 ^ n)

/-- An access lies within a BAR of 2ⁿ bytes and has a size that PCI Express can carry to it. -/
def barFits (n offset size : Nat) : Bool :=
  (decide (size = 1) || decide (size = 2) || decide (size = 4) || decide (size = 8)) && decide (offset + size ≤ 2 ^ n)

/-- A command's ring, TAG and RES_ADDR (R456). -/
def ctxFits (c : Ctx) : Bool := decide (c.ring < 32) && fits 16 c.tag && fits 64 c.resAddr

/-- A host buffer (R456, R462). -/
def bufFits (b : HostBuf) : Bool := fits 64 b.addr && fits 32 b.len

/-- A descriptor of 32 bytes with an operand block of at most 65,528 (R456). -/
def rawFits (r : RawCmd) : Bool := decide (r.ring < 32) && decide (r.desc.length = 32) && decide (r.args.length ≤ 65528) && decide (r.steps ≤ 5)

/-- A command is well-formed. -/
def wellFormed (i : Instr) : Bool :=
  match i with
  | .regWrite offset size _ => barFits 22 offset size
  | .loReadLatch offset size => barFits 22 offset size || (decide (0x400000 ≤ offset) && barFits 16 (offset - 0x400000) size)
  | .glbLockWrite _ => true
  | .clkGateSet _ => true
  | .gateClose _ bit => decide (bit < 15)
  | .clkGateClear _ => true
  | .ingEnable _ => true
  | .ingDisable _ => true
  | .ingDrainDone _ => true
  | .oscEnable _ => true
  | .islEnable _ => true
  | .fumEnable _ => true
  | .feEnable _ => true
  | .rotEnable _ => true
  | .geyEnable _ => true
  | .geyStreamEnable _ => true
  | .nrgEnable _ => true
  | .rioSegEnable _ => true
  | .netPortEnable port _ => decide (port < 4)
  | .netFldEnable _ => true
  | .mdioStart _ => true
  | .mdioDone _ _ => true
  | .timEnable _ => true
  | .fabLinkEnable _ => true
  | .schTraceEnable _ => true
  | .ringEnable ring _ => decide (ring < 32)
  | .ringDisable ring => decide (ring < 32)
  | .ringDrained _ ring => decide (ring < 32)
  | .doorbell offset size value bufs => barFits 16 offset size && bufs.all (fun b => bufFits { addr := b.addr, len := b.len }) && fits 64 value
  | .commandAccept cmd => rawFits cmd
  | .commandWaitDone _ => true
  | .hostIngestTake _ ring _ frame _ => decide (ring < 32) && frame.ecc.all (fun x => decide (x ≤ 2))
  | .bufferComplete _ ring => decide (ring < 32)
  | .coalesceExpire _ ring => decide (ring < 32)
  | .msixModerationExpire _ ring => decide (ring < 32)
  | .hostInterfaceReset _ => true
  | .d3hotEntry _ => true
  | .hifNop c value => ctxFits c && fits 32 value
  | .hifFlush c ring => ctxFits c && fits 8 ring
  | .snapshotDeliver _ _ => true
  | .snapshotWholeWrite _ => true
  | .streamSet c stream image eff _ => ctxFits c && fits 16 stream && decide (image.length = 64) && fits 32 eff
  | .streamClr c stream eff _ => ctxFits c && fits 16 stream && fits 32 eff
  | .chanSet c first count images => ctxFits c && fits 16 first && fits 16 count && decide (images.length = 16 * count)
  | .streamStats c stream => ctxFits c && fits 16 stream
  | .ethFrameRx _ port _ phase _ => decide (port < 4) && decide (phase < 4)
  | .mcastQueryAnswer _ port => decide (port < 4)
  | .mcastReportTimer _ port => decide (port < 4)
  | .conversionItem _ stream _ => decide (stream < 8192)
  | .epochOpen _ epoch => fits 64 epoch
  | .localSeal _ _ _ _ => true
  | .earlySeal _ => true
  | .fillReform _ epoch => fits 64 epoch
  | .pairHave _ src seq epoch _ => decide (src < 64) && fits 32 seq && fits 64 epoch
  | .pairRec _ src seq epoch _ => decide (src < 64) && fits 32 seq && fits 64 epoch
  | .pairDone _ src seq epoch _ => decide (src < 64) && fits 32 seq && fits 64 epoch
  | .pairAck _ src seq epoch _ => decide (src < 64) && fits 32 seq && fits 64 epoch
  | .manifestPublish _ epoch => fits 64 epoch
  | .sealManifest _ src seq _ => decide (src < 64) && fits 32 seq
  | .confirm _ => true
  | .confirmTimeout _ epoch => fits 64 epoch
  | .lateRecord _ stream epoch _ _ => decide (stream < 8192) && fits 64 epoch
  | .amendFwd _ src seq _ => decide (src < 64) && fits 32 seq
  | .histRead c epoch buf => ctxFits c && fits 64 epoch && bufFits buf
  | .amendRead c stream epoch addr => ctxFits c && fits 16 stream && fits 64 epoch && fits 64 addr
  | .oscSigSet c first count images eff _ => ctxFits c && fits 16 first && fits 16 count && decide (images.length = 16 * count) && fits 32 eff
  | .oscDefSet c first count images => ctxFits c && fits 16 first && fits 16 count && decide (images.length = 16 * count)
  | .oscReset c band => ctxFits c && fits 8 band
  | .modeRead c buf => ctxFits c && bufFits buf
  | .trackUpdate _ => true
  | .ssoUpdate _ => true
  | .energyRanking _ => true
  | .trackerLag _ band => decide (band < 2)
  | .islandEvaluate _ => true
  | .islNodeSet c first count images eff _ => ctxFits c && fits 16 first && fits 16 count && decide (images.length = 16 * count) && fits 32 eff
  | .islBranchSet c first count images eff _ => ctxFits c && fits 16 first && fits 16 count && decide (images.length = 16 * count) && fits 32 eff
  | .ruleSet c first count images eff _ => ctxFits c && fits 16 first && fits 16 count && decide (images.length = 32 * count) && fits 32 eff
  | .expSet c pub _ => ctxFits c && fits 8 pub
  | .almAck c rule => ctxFits c && fits 16 rule
  | .fumRead c buf => ctxFits c && bufFits buf
  | .fumaroleDecision _ _ => true
  | .minOnExpire _ => true
  | .almokTimeout _ => true
  | .expressRetransmit _ pub => decide (pub < 16)
  | .votePeriodic _ => true
  | .vote _ src seq _ => decide (src < 64) && fits 32 seq
  | .gridState _ src seq _ => decide (src < 64) && fits 32 seq
  | .gridStatePeriodic _ => true
  | .sampleStrobe _ link => decide (link < 4)
  | .sampleFrame _ module _ => decide (module < 4)
  | .feLinkDown _ module _ => decide (module < 4)
  | .feCommandSend _ link => decide (link < 4)
  | .feCmdVerifyTimeout _ module => decide (module < 4)
  | .feStartStep _ module => decide (module < 4)
  | .fineSample _ => true
  | .localEstimation _ stream epoch => decide (stream < 8192) && fits 64 epoch
  | .calTurnStart _ module => decide (module < 4)
  | .calTurnStep _ module => decide (module < 4)
  | .calRampEnd _ module adc => decide (module < 4) && decide (adc < 13)
  | .calRead c module buf => ctxFits c && fits 8 module && bufFits buf
  | .calRetry c module mask => ctxFits c && fits 8 module && fits 16 mask
  | .geyserTick _ => true
  | .detectorHoldExpire _ detector => decide (detector < 64)
  | .detectorUnfreeze _ detector => decide (detector < 64)
  | .triggerRepeat _ trigger => decide (trigger < 256)
  | .holdoffExpire _ trigger => decide (trigger < 256)
  | .triggerStuck _ trigger => decide (trigger < 256)
  | .streamRecordDeliver _ => true
  | .geyLcSet c first count images => ctxFits c && fits 16 first && fits 16 count && decide (images.length = 16 * count)
  | .geyTrigSet c first count images => ctxFits c && fits 16 first && fits 16 count && decide (images.length = 72 * count)
  | .geyStreamSet c rate mask => ctxFits c && fits 8 rate && fits 64 mask
  | .geyFire c trigger => ctxFits c && fits 8 trigger
  | .geyTrigStats c buf => ctxFits c && bufFits buf
  | .pulseEmit _ pin => decide (pin < 4)
  | .pulseWidthEnd _ pin => decide (pin < 4)
  | .nrgInterval _ => true
  | .nrgPeriodicSave _ => true
  | .nrgSaveDone _ point _ => decide (point < 16)
  | .pfwAssert _ => true
  | .pfwDeassert _ => true
  | .nrgFinalSaveDone x => x.bad.all (fun p => decide (p < 16))
  | .nrgSet c point image _ => ctxFits c && fits 8 point && decide (image.length = 32)
  | .nrgPulseSet c pin point idx weight width _ => ctxFits c && fits 8 pin && fits 8 point && fits 8 idx && fits 64 weight && fits 16 width
  | .nrgRead c mask _ buf => ctxFits c && fits 16 mask && bufFits buf
  | .nrgAck c mask => ctxFits c && fits 16 mask
  | .cycleBoundary _ => true
  | .cycleExecDone _ _ _ => true
  | .outputWrite _ _ => true
  | .cycFault _ => true
  | .lockstepMismatch _ => true
  | .outputFrameLate _ seg => decide (seg < 2)
  | .stationReply _ seg _ _ => decide (seg < 2)
  | .retainedSave _ => true
  | .retainedSaveDone _ _ => true
  | .cycLoad c _ => ctxFits c
  | .cycStart c _ => ctxFits c
  | .cycStop c mode => ctxFits c && fits 8 mode
  | .cycSwitch c target _ => ctxFits c && fits 64 target
  | .rioStationSet c station image => ctxFits c && fits 8 station && decide (image.length = 64)
  | .rioRead c buf => ctxFits c && bufFits buf
  | .workItemDispatch _ _ _ => true
  | .workItemPreempt _ _ => true
  | .workItemComplete _ engine _ => decide (engine < 64)
  | .budgetOverrun _ engine => decide (engine < 64)
  | .imageException _ engine => decide (engine < 64)
  | .engineRetire _ engine _ => decide (engine < 64)
  | .spareJoin _ => true
  | .imageFault _ engine => decide (engine < 64)
  | .mcHeartbeat _ => true
  | .mcDefer _ pct => decide (pct < 101)
  | .mcDeferLong _ _ => true
  | .engImgLoad c _ => ctxFits c
  | .engSwitch c cls => ctxFits c && fits 8 cls
  | .schTraceRead c first buf => ctxFits c && fits 32 first && bufFits buf
  | .ethLinkUp _ port => decide (port < 4)
  | .ethLinkDown _ port _ => decide (port < 4)
  | .preemptVerify _ port _ => decide (port < 4)
  | .frameTransmit _ port phase => decide (port < 4) && decide (phase < 4)
  | .pauseExpire _ port => decide (port < 4)
  | .sessionPublish _ sess => decide (sess < 128)
  | .sessionGooseRetransmit _ sess => decide (sess < 128)
  | .fieldFrameRx _ seg _ => decide (seg < 2)
  | .fieldCollision _ seg => decide (seg < 2)
  | .fieldBackoffExpire _ seg _ => decide (seg < 2)
  | .sfpInsert _ port _ => decide (port < 4)
  | .sfpPoll _ port _ => decide (port < 4)
  | .txFaultRise _ port => decide (port < 4)
  | .netAddrSet c port _ _ => ctxFits c && fits 8 port
  | .netMcastSet c port entry mac ip _ _ => ctxFits c && fits 8 port && fits 8 entry && fits 64 mac && fits 128 ip
  | .netVidSet c port _ => ctxFits c && fits 8 port
  | .macsecSet c port _ chan sci an slot _ _ window _ => ctxFits c && fits 8 port && fits 8 chan && fits 64 sci && fits 8 an && fits 16 slot && fits 32 window
  | .sessSet c sess image => ctxFits c && fits 8 sess && decide (image.length = 64)
  | .sessListSet c first count images => ctxFits c && fits 16 first && fits 16 count && decide (images.length = 2 * count)
  | .sessCfgFrame c sess kind _ => ctxFits c && fits 8 sess && fits 8 kind
  | .sessCtrl c sess _ _ => ctxFits c && fits 8 sess
  | .sessStats c sess => ctxFits c && fits 8 sess
  | .sfpRead c port page buf => ctxFits c && fits 8 port && fits 8 page && bufFits buf
  | .ptpTransmitTimer _ port => decide (port < 4)
  | .ppsInEdge _ phase => decide (phase < 4)
  | .todMessage _ _ => true
  | .sampleMissingTimer _ dom => decide (dom < 2)
  | .timeReport _ src seq _ _ => decide (src < 64) && fits 32 seq
  | .timeReportPeriodic _ => true
  | .timeSel _ src seq dom => decide (src < 64) && fits 32 seq && decide (dom < 2)
  | .ppsOutSecond _ => true
  | .ppsOutWidthEnd _ => true
  | .utcOffset _ => true
  | .timSet c sec ns frac => ctxFits c && fits 48 sec && fits 32 ns && fits 16 frac
  | .timReacquire c => ctxFits c
  | .tsRead c port _ buf => ctxFits c && fits 8 port && bufFits buf
  | .ulxTrained _ link => decide (link < 6)
  | .ulxLinkDown _ link => decide (link < 6)
  | .linkPacket _ link pkt _ _ => decide (link < 6) && decide (20 ≤ pkt.bytes.length ∧ pkt.bytes.length ≤ 2068)
  | .replayTimeout _ link => decide (link < 6)
  | .laneFail _ link lane => decide (link < 6) && decide (lane < 4)
  | .widthShed _ link => decide (link < 6)
  | .widthGrow _ link => decide (link < 6)
  | .hello _ link _ => decide (link < 6)
  | .lsa _ link src seq _ => decide (link < 6) && decide (src < 64) && fits 32 seq
  | .lsaPeriodic _ => true
  | .e2eAck _ src _ _ => decide (src < 64)
  | .e2eResendTimeout _ dst => decide (dst < 64)
  | .heartbeatSend _ => true
  | .heartbeat _ src seq => decide (src < 64) && fits 32 seq
  | .heartbeatTimeout _ device => decide (device < 64)
  | .suspect _ src seq _ _ => decide (src < 64) && fits 32 seq
  | .state _ src seq _ _ _ => decide (src < 64) && fits 32 seq
  | .newView _ src seq _ => decide (src < 64) && fits 32 seq
  | .fwdDone _ src seq _ => decide (src < 64) && fits 32 seq
  | .depart _ src seq => decide (src < 64) && fits 32 seq
  | .joinReq _ src seq _ _ => decide (src < 64) && fits 32 seq
  | .histReq _ src seq _ _ _ => decide (src < 64) && fits 32 seq
  | .histRec _ src seq epoch _ _ => decide (src < 64) && fits 32 seq && fits 64 epoch
  | .mirrorRec _ src seq epoch _ => decide (src < 64) && fits 32 seq && fits 64 epoch
  | .summit _ src seq _ => decide (src < 64) && fits 32 seq
  | .summitElect _ _ => true
  | .autoRejoin _ _ => true
  | .fabJoin c => ctxFits c
  | .fabLeave c => ctxFits c
  | .fabRouteRead c buf => ctxFits c && bufFits buf
  | .fabViewRead c buf => ctxFits c && bufFits buf
  | .fabStreamDrop c device index => ctxFits c && fits 8 device && fits 16 index
  | .install _ ring desc msg upTo => decide (ring < 32) && decide (desc.bytes.length = 32) && decide (msg.length = 112) && decide (upTo ≤ 6)
  | .stageNext _ ring desc msg upTo => decide (ring < 32) && decide (desc.bytes.length = 32) && decide (msg.length = 112) && decide (upTo ≤ 6)
  | .promote _ ring desc msg upTo => decide (ring < 32) && decide (desc.bytes.length = 32) && decide (msg.length = 112) && decide (upTo ≤ 6)
  | .invalidate _ ring desc msg upTo => decide (ring < 32) && decide (desc.bytes.length = 32) && decide (msg.length = 112) && decide (upTo ≤ 6)
  | .lifecycle _ ring desc msg upTo => decide (ring < 32) && decide (desc.bytes.length = 32) && decide (msg.length = 112) && decide (upTo ≤ 6)
  | .ownerInit _ ring desc msg upTo => decide (ring < 32) && decide (desc.bytes.length = 32) && decide (msg.length = 112) && decide (upTo ≤ 6)
  | .keySweep _ => true
  | .keyInfo c first count buf => ctxFits c && fits 16 first && fits 16 count && bufFits buf
  | .keyReenrol c confirm => ctxFits c && fits 32 confirm
  | .keyStoreStart _ => true
  | .trngFail _ => true
  | .trngRecover _ => true
  | .sinterRaise _ _ _ _ _ _ => true
  | .sinterRecordWrite _ _ => true
  | .sinterHeaderWrite _ _ => true
  | .memFailed _ => true
  | .memProbe _ _ => true
  | .memRestored _ => true
  | .powerFailWarning _ => true
  | .recorderStarted _ => true
  | .sntRead c first buf => ctxFits c && fits 64 first && bufFits buf
  | .sntClear c deviceId counter upTo maxSev tag steps => ctxFits c && fits 64 deviceId && fits 64 counter && fits 64 upTo && fits 8 maxSev && decide (tag.length = 32) && decide (steps ≤ 5)
  | .errorRaised _ _ _ _ _ _ => true
  | .diagnosticCheck _ _ _ _ _ _ => true
  | .errorRecoveryDone _ _ _ => true
  | .entryClose _ seq => fits 32 seq
  | .engineSelftest _ engine => decide (engine < 64)
  | .engineSelftestDone _ _ => true
  | .mgmtStall _ => true
  | .mgmtRestart _ => true
  | .proofTest _ _ _ => true
  | .safErrRead c buf => ctxFits c && bufFits buf
  | .safProof c mask => ctxFits c && fits 16 mask
  | .safForce c confirm => ctxFits c && fits 32 confirm
  | .powerOnReset _ _ _ => true
  | .railFall _ rail => decide (rail < 8)
  | .rstRequestWarm c confirm => ctxFits c && fits 32 confirm
  | .rstRequestCold c confirm => ctxFits c && fits 32 confirm
  | .xtalJudged _ input _ => decide (input < 2)
  | .rescue _ => true
  | .pllLock _ => true
  | .rootLoss _ => true
  | .rootRejudge _ input _ => decide (input < 2)
  | .moduleDiscovery _ _ _ => true
  | .ddrReady _ _ _ => true
  | .imageSetVerify _ _ _ => true
  | .cmdReady _ => true
  | .invRead c pos buf => ctxFits c && fits 8 pos && bufFits buf
  | .invRescan c pos _ => ctxFits c && fits 8 pos
  | .norSetWrite c _ => ctxFits c
  | .announceReceiptTimeout _ port => decide (port < 4)
  | .timeQualityDoubtful _ => true
  | .sfpRemove _ port => decide (port < 4)
  | .e2eAckSend _ => true
  | .e2eUnackedSuspect _ dst => decide (dst < 64)
  | .joinTimeout _ => true
  | .reacquireTimeout _ => true
  | .carrierDeferEnd _ seg => decide (seg < 2)
  | .d3hotExit _ => true
  | .pcieLinkUp _ _ _ => true
  | .msixUnmask vector => decide (vector < 64)

end Sys2Proof
end

