-- ==== Sys2Proof/Certificates/Slice0/Obligations.lean ====
section
/-! DEFINITION. The statements about the device, each with the rules or sections of the spec that it rests on. -/

open Sys2Proof Sys2Proof.Machine

/-- Ingest starts, drains, takes host frames and converts the items of its FIFOs. The order of the checks on a frame is the model's
reading (log 28). Rests on R46, R64, R73, R76, R79, R85, R86, R88, R89, R461; the statement is derived. -/
def Obligations.IngestTakesEffect : Prop :=
  (∀ (s : State) (v : Word) (d : Dev), d = later s.dev 0 → d.gatedAt Reg.ING_CTRL = false → (bitsAt v 0 1 = 1 ∧
      (d.reg Reg.ING_CTRL).toNat.testBit 0 = false) → (Dev.ingestRefused s.key d = false ∧ d.craterRuns = false) → ∃ t,
      exec (.ingEnable v) s = .next t ∧ moves s 0 [.regs, .hif, .crt, .clk, .snt] (fun o => eventReg o ∨ o ∈ [Reg.ING_CTRL,
      Reg.ING_STATUS, Reg.CRT_STATUS]) t ∧ t.dev.regN Reg.ING_CTRL = v.toNat % 32 ∧ t.dev.bit Fld.ING_STATUS_RUNNING = true ∧
      t.dev.craterRuns = true ∧ t.dev.crt.first = firstEpochAt d.rate d.g16 ∧ t.dev.crt.nextSeal = t.dev.crt.first ∧
      t.dev.crt.nextConf = t.dev.crt.first ∧ t.dev.crt.slots = d.crt.slots ∧ t.dev.crt.hists = d.crt.hists)
  ∧ (∀ (s : State) (v : Word) (d : Dev), d = later s.dev 0 → d.gatedAt Reg.ING_CTRL = false → (bitsAt v 0 1 = 1 ∧
      (d.reg Reg.ING_CTRL).toNat.testBit 0 = false) → (d.ddrMib < d.layoutCrt ∨ s.key.lc = .returned ∨ (d.joined = true ∧
      d.bit Fld.TIM_STATUS_ACQUIRED = false) ∨ d.bit Fld.RST_STATUS_DDR_READY = false) → ∃ t, exec (.ingEnable v) s = .next t ∧
      moves s 0 [.regs] (fun o => o ∈ [Reg.ING_CTRL, Reg.CRT_STATUS]) t ∧ t.dev.bit Fld.ING_CTRL_EN = false ∧
      t.dev.bit Fld.CRT_STATUS_CFG_ERR = true ∧ t.dev.craterRuns = d.craterRuns)
  ∧ (∀ (s : State) (v : Word) (d : Dev), d = later s.dev 0 → d.gatedAt Reg.ING_CTRL = false → (bitsAt v 0 1 = 0 ∧ (d.reg
      Reg.ING_CTRL).toNat.testBit 0 = true) → ∃ t, exec (.ingDisable v) s = .next t ∧ moves s 0 [.regs, .ing] (fun o => o ∈ [Reg.ING_CTRL,
      Reg.ING_STATUS]) t ∧ t.dev.regN Reg.ING_CTRL = v.toNat % 32 ∧ t.dev.bit Fld.ING_STATUS_RUNNING = false ∧ (d.fifosEmpty = false →
      t.dev.bit Fld.ING_STATUS_DRAINING = true))
  ∧ (∀ (s : State) (v : Word) (d : Dev), d = later s.dev 0 → d.gatedAt Reg.ING_CTRL = false → (bitsAt v 0 1 = 1 ∧ (d.reg
      Reg.ING_CTRL).toNat.testBit 0 = true ∧ (List.range 5).any (fun b => (d.reg Reg.ING_CTRL).toNat.testBit b && !v.toNat.testBit b) =
      true) → ∃ t, exec (.ingDisable v) s = .next t ∧ moves s 0 [.regs, .ing] (fun o => o ∈ [Reg.ING_CTRL, Reg.ING_STATUS]) t ∧ t.dev.regN
      Reg.ING_CTRL = v.toNat % 32 ∧ t.dev.bit Fld.ING_STATUS_RUNNING = d.bit Fld.ING_STATUS_RUNNING ∧ t.dev.bit Fld.ING_STATUS_DRAINING =
      (d.bit Fld.ING_STATUS_DRAINING || t.dev.drains))
  ∧ (∀ (s : State) (dt : Nat) (d : Dev), d = later s.dev dt → (d.bit Fld.ING_STATUS_DRAINING = true ∧ d.drains = false) → ∃ t, exec
      (.ingDrainDone dt) s = .next t ∧ moves s dt [.regs] (fun o => o ∈ [Reg.ING_STATUS]) t ∧ t.dev.bit Fld.ING_STATUS_DRAINING = false ∧
      t.dev.bit Fld.ING_STATUS_RUNNING = d.bit Fld.ING_STATUS_RUNNING)
  ∧ (∀ (s : State) (dt : Nat) (d : Dev), d = later s.dev dt → (d.bit Fld.ING_STATUS_DRAINING = false ∨ d.drains = true) → ∃ t, exec
      (.ingDrainDone dt) s = .next t ∧ moves s dt [] (fun _ => False) t)
  ∧ (∀ (s : State) (dt n len : Nat) (f : HostFrame) (resv : Bool) (d : Dev), d = later s.dev dt → (d.runs n 2 = true ∧ d.hostReady = true
      ∧ 0 < d.available n ∧ d.ingests Fld.ING_CTRL_HOSTFEED_EN = true) → (f.descOk = true ∧ f.frameOk = true) → (resv = true ∨ len = 0 ∨
      8192 < len ∨ f.bytes.length ≠ len ∨ beNat (slice f.bytes 0 1) ≠ 0xAA ∨ c37Type f.bytes ≠ 0) → ∃ t, exec (.hostIngestTake dt n len f
      resv) s = .next t ∧ moves s dt [.regs, .hif] signalReg t ∧ completes d n sBadDesc 0 t.dev ∧ t.dev.hif.waiting = d.hif.waiting)
  ∧ (∀ (s : State) (dt n len : Nat) (ecc : List Nat) (frame : Bytes) (d : Dev), d = later s.dev dt → (d.runs n 2 = true ∧ d.hostReady =
      true ∧ 0 < d.available n ∧ d.ingests Fld.ING_CTRL_HOSTFEED_EN = true) → (16 ≤ len ∧ len ≤ 8192 ∧ frame.length = len ∧ beNat (slice
      frame 0 1) = 0xAA ∧ c37Type frame = 0 ∧ beNat (slice frame 1 1) % 16 = 2) → (c37ChkOk frame = true ∧ beNat (slice frame 2 2) = len ∧
      d.ing.streams = []) → ∃ t, exec (.hostIngestTake dt n len { bytes := frame, ecc := ecc } false) s = .next t ∧ moves s dt [.regs,
      .hif] (fun o => signalReg o ∨ o ∈ [Reg.ING_UNMATCHED_LO, Reg.ING_UNMATCHED_HI]) t ∧ completes d n sOk 0xFFFFFFFF t.dev ∧ t.dev.reg64
      Reg.ING_UNMATCHED_LO = (d.reg64 Reg.ING_UNMATCHED_LO + 1) % 2 ^ 64)
  ∧ (∀ (s : State) (dt n : Nat) (frame : Bytes) (d : Dev) (i : Nat) (ent : StreamEntry) (st : StreamSt), d = later s.dev dt → (d.runs n 2
      = true ∧ d.hostReady = true ∧ 0 < d.available n ∧ d.ingests Fld.ING_CTRL_HOSTFEED_EN = true) → (2 ≤ ent.frameLen ∧ ent.frameLen ≤
      8176 ∧ frame.length = 16 + ent.frameLen ∧ beNat (slice frame 0 1) = 0xAA ∧ c37Type frame = 0 ∧ beNat (slice frame 1 1) % 16 = 2) →
      (c37ChkOk frame = true ∧ beNat (slice frame 2 2) = frame.length ∧ beNat (slice frame 4 2) = ent.srcId) → (d.ing.streams = [(i, st)]
      ∧ st.entry = { cur := some ent, pend := none } ∧ ent.type = 1 ∧ ent.pmuBlk = 0) → (beNat (slice frame 10 4) % 2 ^ 24 < ent.timeBase
      ∧ d.tagOfSoc (beNat (slice frame 6 4)) (beNat (slice frame 10 4) % 2 ^ 24) ent.timeBase d.g16 ≤ d.g16 + d.futureLim) → (beNat (slice
      frame 14 2) / 2 ^ 14 ≠ 2 ∧ fifoCells st.fifo + ent.itemCells ≤ ent.fifoCells) → ∃ t, exec (.hostIngestTake dt n (16 + ent.frameLen)
      { bytes := frame } false) s = .next t ∧ moves s dt [.regs, .hif, .ing, .sch] (fun o => signalReg o ∨ o ∈ [Reg.ING_STATUS,
      Reg.ING_FRAMES_LO, Reg.ING_FRAMES_HI, Reg.ING_LOST_LO, Reg.ING_LOST_HI] ∨ o / 0x1000 ∈ [0x0d0]) t ∧ completes d n sOk i t.dev ∧ ∃
      it, (t.dev.stream i).fifo = st.fifo ++ [it] ∧ it.body = .block (slice frame 14 ent.frameLen) ∧ it.rx = d.g16 ∧ it.port = 7 ∧
      it.cells = ent.itemCells ∧ (t.dev.stream i).frames = st.frames + 1 ∧ (t.dev.stream i).entry = st.entry ∧ t.dev.reg64
      Reg.ING_FRAMES_LO = (d.reg64 Reg.ING_FRAMES_LO + 1) % 2 ^ 64)
  ∧ (∀ (s : State) (dt n : Nat) (frame : Bytes) (d : Dev) (i : Nat) (ent : StreamEntry) (st : StreamSt), d = later s.dev dt → (d.runs n 2
      = true ∧ d.hostReady = true ∧ 0 < d.available n ∧ d.ingests Fld.ING_CTRL_HOSTFEED_EN = true ∧ d.saf.queue = []) → (2 ≤ ent.frameLen
      ∧ ent.frameLen ≤ 8176 ∧ frame.length = 16 + ent.frameLen ∧ beNat (slice frame 0 1) = 0xAA ∧ c37Type frame = 0 ∧ beNat (slice frame 1
      1) % 16 = 2) → (c37ChkOk frame = true ∧ beNat (slice frame 2 2) = frame.length ∧ beNat (slice frame 4 2) = ent.srcId) →
      (d.ing.streams = [(i, st)] ∧ st.entry = { cur := some ent, pend := none } ∧ ent.type = 1 ∧ ent.pmuBlk = 0) → (beNat (slice frame 10
      4) % 2 ^ 24 < ent.timeBase ∧ d.tagOfSoc (beNat (slice frame 6 4)) (beNat (slice frame 10 4) % 2 ^ 24) ent.timeBase d.g16 ≤ d.g16 +
      d.futureLim) → beNat (slice frame 14 2) / 2 ^ 14 ≠ 2 → ∃ t, exec (.hostIngestTake dt n (16 + ent.frameLen)
      { bytes := frame, ecc := [2] } false) s = .next t ∧ moves s dt [.regs, .hif, .saf] (fun o => signalReg o ∨ o ∈ [Reg.ING_ECC_UNCORR,
      Reg.SAF_ERRORS, Reg.SAF_STATUS, Reg.FUM_STATUS]) t ∧ completes d n sOk i t.dev ∧ t.dev.saf.queue.map (fun e => (e.cls, e.index)) =
      [(eMemUncorr, 1)] ∧ t.dev.regN Reg.ING_ECC_UNCORR = (d.regN Reg.ING_ECC_UNCORR + 1) % 2 ^ 32)
  ∧ (∀ (s : State) (dt i ecc : Nat) (d : Dev), d = later s.dev dt → d.runningItem 1 i = none → ∃ t, exec (.conversionItem dt i ecc) s =
      .next t ∧ moves s dt [] (fun _ => False) t)
  ∧ (∀ (s : State) (dt i : Nat) (d : Dev) (r : Running) (it : FifoItem) (rest : List FifoItem), d = later s.dev dt → ((d.stream i).fifo =
      it :: rest ∧ d.saf.queue = []) → (d.runningItem 1 i = some r ∧ d.sch.service.all (fun r => r.q.avoid.isNone) = true ∧ d.sch.slots =
      [] ∧ d.sch.switching.all (fun x => x.isNone) = true) → ∃ t, exec (.conversionItem dt i 2) s = .next t ∧ moves s dt [.regs, .ing,
      .sch, .saf] (fun o => o ∈ [Reg.SCH_STATUS, Reg.SCH_TRACE_LOST, Reg.ING_STATUS, Reg.ING_ECC_UNCORR, Reg.SAF_ERRORS, Reg.SAF_STATUS,
      Reg.FUM_STATUS]) t ∧ (t.dev.stream i).fifo = rest ∧ (t.dev.stream i).drain = (d.stream i).drain - 1 ∧ (∀ b, it.body = .block b →
      t.dev.stream i = { d.stream i with fifo := rest, drain := (d.stream i).drain - 1 }) ∧ t.dev.saf.queue.map (fun e => (e.cls,
      e.index)) = [(eMemUncorr, 1)] ∧ t.dev.regN Reg.ING_ECC_UNCORR = (d.regN Reg.ING_ECC_UNCORR + 1) % 2 ^ 32)
  ∧ (∀ (s : State) (dt i e : Nat) (d : Dev) (r : Running) (it : FifoItem) (rest : List FifoItem) (b : Bytes) (ent : StreamEntry), d =
      later s.dev dt → ((d.stream i).fifo = it :: rest ∧ it.body = .block b ∧ (d.stream i).entry = { cur := some ent, pend := none } ∧
      ent.type < 2) → (e = nearestEpoch d.rate it.tag ∧ alignedTo d.rate (d.fld Fld.CRT_ALIGN_TOL) e it.tag = true ∧ dueAt d.rate ent e =
      true) → (d.craterRuns = true ∧ d.crt.first ≤ e ∧ d.crt.nextSeal ≤ e ∧ e ≤ d.crt.nextDeliver + 127 ∧ (d.stored e i).isNone = true) →
      (d.runningItem 1 i = some r ∧ d.sch.service.all (fun r => r.q.avoid.isNone) = true ∧ d.sch.slots = [] ∧ d.sch.switching.all (fun x
      => x.isNone) = true) → (beNat (slice b 0 2)).testBit 10 = false → ∃ t, exec (.conversionItem dt i 0) s = .next t ∧ moves s dt
      [.regs, .hif, .ing, .crt, .sch] (fun o => o ∈ [Reg.SCH_STATUS, Reg.SCH_TRACE_LOST, Reg.ING_STATUS, Reg.CRT_STATUS]) t ∧
      (t.dev.stream i).fifo = rest ∧ (t.dev.stream i).committed = some e ∧ (t.dev.stream i).lastPort = it.port ∧ (t.dev.stored e i).map
      (fun r => (r.record.qual, r.record.body, r.rx)) = some (qPresent + it.flags, .slots ((d.chansOf ent).map (convSlot ent b)), it.rx) ∧
      (∀ e' j, (e' ≠ e ∨ j ≠ i) → t.dev.stored e' j = d.stored e' j) ∧ t.dev.crt.nextSeal = d.crt.nextSeal ∧ t.dev.crt.nextConf =
      d.crt.nextConf ∧ t.dev.crt.hists = d.crt.hists ∧ ∀ e', (∃ x, d.slot e' = some x) → (t.dev.slot e').map (fun x => x.sealed) = (d.slot
      e').map (fun x => x.sealed))
  ∧ (∀ (s : State) (dt i e : Nat) (d : Dev) (r : Running) (it : FifoItem) (rest : List FifoItem) (b : Bytes) (ent : StreamEntry), d =
      later s.dev dt → ((d.stream i).fifo = it :: rest ∧ it.body = .block b ∧ (d.stream i).entry = { cur := some ent, pend := none } ∧
      ent.type < 2) → (e = nearestEpoch d.rate it.tag ∧ alignedTo d.rate (d.fld Fld.CRT_ALIGN_TOL) e it.tag = true ∧ dueAt d.rate ent e =
      true) → (d.craterRuns = true ∧ d.crt.first ≤ e ∧ d.crt.nextSeal ≤ e ∧ e ≤ d.crt.nextDeliver + 127 ∧ (d.stored e i).isSome = true) →
      (d.runningItem 1 i = some r ∧ d.sch.service.all (fun r => r.q.avoid.isNone) = true ∧ d.sch.slots = [] ∧ d.sch.switching.all (fun x
      => x.isNone) = true) → (beNat (slice b 0 2)).testBit 10 = false → ∃ t, exec (.conversionItem dt i 0) s = .next t ∧ moves s dt
      [.regs, .ing, .sch] (fun o => o ∈ [Reg.SCH_STATUS, Reg.SCH_TRACE_LOST, Reg.ING_STATUS]) t ∧ (t.dev.stream i).fifo = rest ∧
      (t.dev.stream i).dup = (d.stream i).dup + 1 ∧ (t.dev.stream i).committed = (d.stream i).committed)
  ∧ (∀ (s : State) (dt n len : Nat) (f : HostFrame) (d : Dev), d = later s.dev dt → (d.runs n 2 = true ∧ d.hostReady = true ∧ 0 <
      d.available n ∧ d.ingests Fld.ING_CTRL_HOSTFEED_EN = true) → (f.descOk = true ∧ f.frameOk = false ∧ 1 ≤ len ∧ len ≤ 8192) → ∃ t,
      exec (.hostIngestTake dt n len f false) s = .next t ∧ moves s dt [.regs, .hif] (fun o => signalReg o ∨ o ∈ [Reg.HIF_DMA_ERR]) t ∧
      completes d n sBadDesc 0 t.dev ∧ t.dev.regN Reg.HIF_DMA_ERR = (d.regN Reg.HIF_DMA_ERR + 1) % 2 ^ 32)
  ∧ (∀ (s : State) (dt n len : Nat) (f : HostFrame) (resv : Bool) (d : Dev), d = later s.dev dt → (d.runs n 2 = true ∧ d.hostReady = true
      ∧ 0 < d.available n ∧ d.ingests Fld.ING_CTRL_HOSTFEED_EN = true) → f.descOk = false → ∃ t, exec (.hostIngestTake dt n len f resv) s
      = .next t ∧ moves s dt [.regs, .hif] (fun o => signalReg o ∨ o ∈ [Reg.HIF_DMA_ERR, Reg.HIF_EVT_LOST]) t ∧ t.dev.fld
      (Fld.HIF_RINGn_STAT_STATE n) = 3 ∧ t.dev.regN Reg.HIF_DMA_ERR = (d.regN Reg.HIF_DMA_ERR + 1) % 2 ^ 32)

/-- STREAM_SET, STREAM_CLR, CHAN_SET and STREAM_STATS complete with the status and the effect of R91. Which entry the checks meet while
one is pending is the model's reading (log 127). Rests on R55, R59, R60, R62, R63, R81, R82, R91, R92, R440; the statement is derived. -/
def Obligations.StreamCommandsComplete : Prop :=
  (∀ (s : State) (c : Ctx) (d : Dev) (i : Nat) (image : Bytes) (eff : Nat) (e : StreamEntry), ready s.dev c.ring true none → d = fetched
      s.dev c.ring → (d.streamRefusal i (streamOf image) eff true = none ∧ streamOf image = some e ∧ d.craterRuns = false ∧ d.needsHistory
      i e = false) → exec (.streamSet c i image eff true) s = .next (served s c (d.putEntry i { cur := some e, pend := none }) (.done sOk
      0)))
  ∧ (∀ (s : State) (c : Ctx) (d : Dev) (i : Nat) (image : Bytes) (eff : Nat) (imm : Bool) (e : StreamEntry), ready s.dev c.ring true none
      → d = fetched s.dev c.ring → (d.streamRefusal i (streamOf image) eff imm = none ∧ streamOf image = some e ∧ d.needsHistory i e =
      false) → ((imm = false ∧ (d.effBefore eff = false ∨ d.crt.nextConf ≤ d.crt.first)) ∨ (imm = true ∧ d.craterRuns = true)) → exec
      (.streamSet c i image eff imm) s = .next (served s c (d.putEntry i { cur := (d.stream i).entry.cur, pend := some (if imm then
      d.crt.nextSeal % 2 ^ 32 else eff, some e) }) (.done sOk 0)))
  ∧ (∀ (s : State) (c : Ctx) (d : Dev) (i : Nat) (image : Bytes) (eff : Nat) (imm : Bool) (e : StreamEntry), ready s.dev c.ring true none
      → d = fetched s.dev c.ring → (d.streamRefusal i (streamOf image) eff imm = none ∧ streamOf image = some e ∧ d.needsHistory i e =
      true) → exec (.streamSet c i image eff imm) s = .next (served s c (((d.modStream i (fun (x : StreamSt) =>
      { x with awaiting := some (eff, imm, e) })).askHistory i e (if imm then d.nextEpoch % 2 ^ 32 else eff)).refreshAlloc) (.wait
      (.streamHistory i))))
  ∧ (∀ (s : State) (c : Ctx) (d : Dev) (i : Nat) (image : Bytes) (eff : Nat) (imm : Bool) (st : Nat), ready s.dev c.ring true none →
      d = fetched s.dev c.ring → d.streamRefusal i (streamOf image) eff imm = some st →
      exec (.streamSet c i image eff imm) s = .next (served s c d (.done st 0)))
  ∧ (∀ (s : State) (c : Ctx) (d : Dev) (i : Nat) (image : Bytes) (eff : Nat) (imm : Bool), ready s.dev c.ring true none →
      d = fetched s.dev c.ring → (i ≤ 8191 ∧ (d.stream i).entry.pend.isSome = true) →
      exec (.streamSet c i image eff imm) s = .next (served s c d (.done sBusy 0)))
  ∧ (∀ (s : State) (c : Ctx) (d : Dev) (i : Nat) (image : Bytes) (eff : Nat), ready s.dev c.ring true none → d = fetched s.dev c.ring →
      ((d.stream i).entry.pend = none ∧ (d.stream i).awaiting = none) →
      ((image.headD 0).toNat.testBit 4 = false ∨ (image.headD 0).toNat.testBit 7 = true) →
      exec (.streamSet c i image eff true) s = .next (served s c d (.done sRange 0)))
  ∧ (∀ (s : State) (c : Ctx) (d : Dev) (i : Nat) (eff : Nat) (e : StreamEntry), ready s.dev c.ring false none → d = fetched s.dev c.ring →
      (i ≤ 8191 ∧ (d.stream i).entry = { cur := some e, pend := none } ∧ (d.stream i).awaiting = none ∧ d.craterRuns = false) → exec
      (.streamClr c i eff true) s = .next (served s c ((d.modStream i (fun (x : StreamSt) => { x with entry :=
      { cur := none, pend := none } })).refreshAlloc.modCrt (fun q => { q with hists := q.hists.drop i }) |>.flushFifo i) (.done sOk 0)))
  ∧ (∀ (s : State) (c : Ctx) (d : Dev) (i : Nat) (eff : Nat) (imm : Bool) (e : StreamEntry), ready s.dev c.ring false none → d = fetched
      s.dev c.ring → (i ≤ 8191 ∧ (d.stream i).entry = { cur := some e, pend := none } ∧ (d.stream i).awaiting = none) → ((imm = false ∧
      d.effSealed eff = false ∧ (d.effBefore eff = false ∨ d.crt.nextSeal ≤ d.crt.first)) ∨ (imm = true ∧ d.craterRuns = true)) → exec
      (.streamClr c i eff imm) s = .next (served s c ((d.modStream i (fun (x : StreamSt) => { x with entry :=
      { cur := some e, pend := some (if imm then d.crt.nextSeal % 2 ^ 32 else eff, none) } })).refreshAlloc) (.done sOk 0)))
  ∧ (∀ (s : State) (c : Ctx) (d : Dev) (i : Nat) (eff : Nat), ready s.dev c.ring false none → d = fetched s.dev c.ring →
      (8191 < i ∨ ((d.stream i).entry = {} ∧ (d.stream i).awaiting = none)) →
      exec (.streamClr c i eff true) s = .next (served s c d (.done sRange 0)))
  ∧ (∀ (s : State) (c : Ctx) (d : Dev) (i : Nat) (eff : Nat) (imm : Bool), ready s.dev c.ring false none → d = fetched s.dev c.ring →
      (i ≤ 8191 ∧ (d.stream i).entry.pend.isSome = true) → exec (.streamClr c i eff imm) s = .next (served s c d (.done sBusy 0)))
  ∧ (∀ (s : State) (c : Ctx) (d : Dev) (first count : Nat) (images : Bytes), d = later s.dev 0 → ready s.dev c.ring false none →
      (1 ≤ count ∧ count ≤ 64 ∧ first + count ≤ 65536 ∧ (imagesOf 16 count images).all (fun b => (chanOf b).isSome) = true) →
      d.ing.streams.any (fun x => x.2.entries.any (fun e => decide (first < e.chanBase + e.nchan) && decide (e.chanBase < first +
      count))) = false → ∃ t, exec (.chanSet c first count images) s = .next t ∧ t.pending = s.pending ∧ t.key = s.key ∧ only [.regs,
      .hif, .ing] signalReg d t.dev ∧ completes d c.ring sOk 0 t.dev ∧ (∀ k, k < count →
      chanOf (slice images (16 * k) 16) = some (t.dev.chan (first + k))) ∧ (∀ n, (n < first ∨ first + count ≤ n) →
      t.dev.chan n = d.chan n) ∧ t.dev.ing = { d.ing with chans := t.dev.ing.chans } ∧ t.dev.hif.waiting = d.hif.waiting)
  ∧ (∀ (s : State) (c : Ctx) (d : Dev) (first count : Nat) (images : Bytes), ready s.dev c.ring false none → d = fetched s.dev c.ring →
      (count = 0 ∨ 64 < count ∨ 65536 < first + count) → exec (.chanSet c first count images) s = .next (served s c d (.done sRange 0)))
  ∧ (∀ (s : State) (c : Ctx) (d : Dev) (first count : Nat) (images : Bytes), ready s.dev c.ring false none → d = fetched s.dev c.ring →
      (1 ≤ count ∧ count ≤ 64 ∧ first + count ≤ 65536) →
      d.ing.streams.any (fun x => x.2.entries.any (fun e => decide (first < e.chanBase + e.nchan) && decide (e.chanBase < first +
      count))) = true → exec (.chanSet c first count images) s = .next (served s c d (.done sBusy 0)))
  ∧ (∀ (s : State) (c : Ctx) (d : Dev) (first count : Nat) (images : Bytes), ready s.dev c.ring false none → d = fetched s.dev c.ring →
      (1 ≤ count ∧ count ≤ 64 ∧ first + count ≤ 65536 ∧ (imagesOf 16 count images).all (fun b => (chanOf b).isSome) = false) →
      d.ing.streams.any (fun x => x.2.entries.any (fun e => decide (first < e.chanBase + e.nchan) && decide (e.chanBase < first +
      count))) = false → exec (.chanSet c first count images) s = .next (served s c d (.done sRange 0)))
  ∧ (∀ (s : State) (c : Ctx) (d : Dev) (i : Nat), ready s.dev c.ring false none → d = fetched s.dev c.ring → (i ≤ 8191 ∧
      ((d.stream i).entry.cur.isSome = true ∨ (d.stream i).entry.newest.isSome = true)) →
      exec (.streamStats c i) s = .next (served s c d (.block (d.statsBlock i) none)))
  ∧ (∀ (s : State) (c : Ctx) (d : Dev) (i : Nat), ready s.dev c.ring false none → d = fetched s.dev c.ring →
      (8191 < i ∨ ((d.stream i).entry.cur = none ∧ (d.stream i).entry.newest = none)) →
      exec (.streamStats c i) s = .next (served s c d (.done sRange 0)))
  ∧ (∀ (x : Dev) (i : Nat), (x.statsBlock i).length = 64 ∧ leNat (slice (x.statsBlock i) 0 4) = (x.stream i).frames % 2 ^ 32 ∧
      leNat (slice (x.statsBlock i) 20 4) = (x.stream i).dup % 2 ^ 32 ∧
      leNat (slice (x.statsBlock i) 36 4) = (x.stream i).lastEpoch % 2 ^ 32)
  ∧ (∀ (s : State) (c : Ctx) (d : Dev) (i : Nat) (image : Bytes) (eff : Nat) (imm : Bool) (e : StreamEntry), ready s.dev c.ring true none
      → d = fetched s.dev c.ring → (d.streamRefusal i (streamOf image) eff imm = none ∧ streamOf image = some e ∧ d.needsHistory i e =
      false) → (imm = false ∧ d.effBefore eff = true ∧ d.crt.first < d.crt.nextConf) → exec (.streamSet c i image eff imm) s = .next
      (served s c (d.putEntry i { cur := some e, pend := none }) (.done sOk 0)))
  ∧ (∀ (s : State) (c : Ctx) (d : Dev) (i : Nat) (eff : Nat) (e : StreamEntry), ready s.dev c.ring false none → d = fetched s.dev c.ring →
      (i ≤ 8191 ∧ (d.stream i).entry = { cur := some e, pend := none } ∧ (d.stream i).awaiting = none) → (d.effBefore eff = true ∧
      d.crt.first < d.crt.nextConf ∧ d.crt.nextConf ≤ d.crt.nextSeal) → exec (.streamClr c i eff false) s = .next (served s c
      ((d.modStream i (fun (x : StreamSt) => { x with entry := { cur := none, pend := none } })).refreshAlloc.modCrt (fun q =>
      { q with hists := q.hists.drop i }) |>.flushFifo i) (.done sOk 0)))
  ∧ (∀ (s : State) (c : Ctx) (d : Dev) (i : Nat) (eff : Nat) (e : StreamEntry), ready s.dev c.ring false none → d = fetched s.dev c.ring →
      (i ≤ 8191 ∧ (d.stream i).entry = { cur := some e, pend := none } ∧ (d.stream i).awaiting = none) → (d.effBefore eff = true ∧
      d.crt.nextConf ≤ d.crt.first ∧ d.crt.first < d.crt.nextSeal) → exec (.streamClr c i eff false) s = .next (served s c ((d.modStream i
      (fun (x : StreamSt) => { x with entry := { cur := some e, pend := some (eff, none) } })).refreshAlloc.flushFifo i) (.done sOk 0)))

/-- The commands of the oscillation trackers: enable, signal table, ranking branches, reset and MODE_READ. The order in which the checks
of one command are made is the model's (log 17). Rests on R142, R144, R152, R160, R173; the statement is derived. -/
def Obligations.OscillationCommandsTakeEffect : Prop :=
  (∀ (s : State) (v : Word), s.dev.gatedAt Reg.OSC_CTRL = false → v.toNat.testBit 0 = true → s.dev.bit Fld.OSC_CTRL_EN = false →
      s.dev.fld Fld.OSC_BAND_F_HI ≤ 40 * s.dev.rate → ∃ t, exec (.oscEnable v) s = .next t ∧ moves s 0 [.regs,
      .osc] (fun o => o ∈ [Reg.OSC_CTRL, Reg.OSC_STATUS]) t ∧ t.dev.bit Fld.OSC_CTRL_EN = true ∧
      t.dev.bit Fld.OSC_STATUS_RUNNING = true ∧ t.dev.osc.em.resetDue = true)
  ∧ (∀ (s : State) (c : Ctx) (d : Dev) (first count eff : Nat) (images : Bytes) (imm : Bool) (t : Tbl (Held SigEntry)), ready s.dev c.ring
      false none → d = fetched s.dev c.ring → (1 ≤ count ∧ count ≤ 256 ∧ first + count ≤ 4096) → (imagesOf 16 count images).any (resvSet
      sigResv) = false → (d.sigImages first count eff imm images).all (fun x => x.2.all d.sigFits) = true → d.changeStatus eff imm false
      (d.sigImages first count eff imm images) d.osc.sigs = none → d.changeAll eff imm (d.sigImages first count eff imm images) d.osc.sigs
      = .ok t → ssoCount t ≤ 256 → exec (.oscSigSet c first count images eff imm) s = .next (served s c (d.modOsc (fun o =>
      { o with sigs := t })) (.ok)))
  ∧ (∀ (s : State) (c : Ctx) (d : Dev) (first count eff : Nat) (images : Bytes) (imm : Bool) (g : SigEntry),
      ready s.dev c.ring false none → d = fetched s.dev c.ring → (1 ≤ count ∧ count ≤ 256 ∧ first + count ≤ 4096) →
      some g ∈ (imagesOf 16 count images).map sigOf → d.sigFits g = false → (imm = true ∨ d.effSealed eff = false) →
      d.osc.sigs.all (fun x => x.2.pend.isNone) = true →
      exec (.oscSigSet c first count images eff imm) s = .next (served s c d (.done sRange 0)))
  ∧ (∀ (s : State) (c : Ctx) (d : Dev) (first count : Nat) (images : Bytes) (l : List (Option DefEntry × Nat)), ready s.dev c.ring false
      none → d = fetched s.dev c.ring → (1 ≤ count ∧ first + count ≤ 256) → (imagesOf 16 count images).any (resvSet defResv) = false → l =
      ((imagesOf 16 count images).map defOf).zipIdx → l.all (fun (x : Option DefEntry × Nat) => x.1.all (fun (g : DefEntry) =>
      d.phasorSlot g.vSlot && d.phasorSlot g.iSlot && fLt 0 g.factor)) = true → exec (.oscDefSet c first count images) s = .next (served s
      c (d.modOsc (fun o => { o with defsNext := l.foldl (putDef first) o.defsNext })) (.ok)))
  ∧ (∀ (s : State) (c : Ctx) (d : Dev) (first count : Nat) (images : Bytes) (g : DefEntry), ready s.dev c.ring false none →
      d = fetched s.dev c.ring → some g ∈ (imagesOf 16 count images).map defOf → fLt 0 g.factor = false →
      exec (.oscDefSet c first count images) s = .next (served s c d (.done sRange 0)))
  ∧ (∀ (s : State) (c : Ctx) (d : Dev) (band : Nat), ready s.dev c.ring false none → d = fetched s.dev c.ring → band ≤ 2 →
      exec (.oscReset c band) s = .next (served s c ((if band = 0 then d.resetBand 0 else if band = 1 then d.resetBand 1 else
      (d.resetBand 0).resetBand 1).count Reg.OSC_RESETS) (.ok)))
  ∧ (∀ (s : State) (c : Ctx) (d : Dev) (buf : HostBuf) (m r : Bytes), ready s.dev c.ring false none → d = fetched s.dev c.ring →
      d.osc.report = some (m, r) → d.osc.updated = true →
      exec (.modeRead c buf) s = .next (served s c d (if buf.len < (m ++ r).length then .done sRange 0 else .block (m ++ r) (some
      buf.addr))))
  ∧ (∀ (s : State) (c : Ctx) (d : Dev) (buf : HostBuf), ready s.dev c.ring false none → d = fetched s.dev c.ring → d.osc.updated = false →
      exec (.modeRead c buf) s = .next (served s c d (.done sNotValid 0)))

/-- The updates of the oscillation trackers, the ranking of their modes, and a tracker that falls behind. That a row issues its item where
it has not been dispatched is the model's reading (log 145). Rests on R150, R151, R159, R161, R164, R166; the statement is derived. -/
def Obligations.OscillationUpdatesTakeEffect : Prop :=
  (∀ (s : State) (dt e : Nat) (d : Dev) (q : SealInfo), d = later s.dev dt → d.osc.ranking = none → d.nextUpdate 0 = some e → d.sealOf e =
      some q → (d.g16 < d.deadline (e + 1) ∧ d.crt.nextSeal < e + 8) → (d.calm = true ∧ (d.serve 0x05 e).2 = true) → ∃ t, exec
      (.trackUpdate dt) s = .next t ∧ moves s dt [.regs, .hif, .osc, .sch] (fun o => eventReg o ∨ o ∈ [Reg.OSC_UPDATES_LO,
      Reg.OSC_UPDATES_HI, Reg.OSC_SKIPPED, Reg.OSC_NO_SLOT, Reg.OSC_STATUS, Reg.OSC_COND] ∨ o / 0x1000 = 0x0d0) t ∧ t.dev.osc.em.next =
      some (e + 1) ∧ t.dev.reg64 Reg.OSC_UPDATES_LO = (d.reg64 Reg.OSC_UPDATES_LO + 1) % 2 ^ 64 ∧ t.dev.osc.updated = true)
  ∧ (∀ (s : State) (dt e : Nat) (d : Dev) (q : SealInfo), d = later s.dev dt → d.nextUpdate 1 = some e → d.sealOf e = some q → (d.g16 <
      d.deadline (e + 1) ∧ d.crt.nextSeal < e + 8) → (d.calm = true ∧ (d.serve 0x06 e).2 = true) → ∃ t, exec (.ssoUpdate dt) s = .next t ∧
      moves s dt [.regs, .hif, .osc, .sch] (fun o => eventReg o ∨ o ∈ [Reg.OSC_SKIPPED, Reg.OSC_NO_SLOT, Reg.OSC_STATUS, Reg.OSC_COND] ∨ o
      / 0x1000 = 0x0d0) t ∧ t.dev.osc.sso.next = some (e + 1) ∧ t.dev.osc.em = d.osc.em ∧ t.dev.osc.updated = true)
  ∧ (∀ (s : State) (dt e used : Nat) (place : Bool) (retired : List (Nat × ModeSlot)) (d : Dev) (q : SealInfo), d = later s.dev dt →
      d.osc.ranking = some (e, used, place, retired) → d.sealOf e = some q → (d.calm = true ∧ (d.serve 0x07 e).2 = true) → ∃ t, exec
      (.energyRanking dt) s = .next t ∧ moves s dt [.regs, .hif, .osc, .sch] (fun o => eventReg o ∨ o ∈ [Reg.OSC_STATUS, Reg.OSC_COND] ∨ o
      / 0x1000 = 0x0d0) t ∧ t.dev.osc.ranking = none ∧ t.dev.osc.ranks = (d.rank q e).osc.ranks ∧ t.dev.osc.report.isSome = true ∧
      t.dev.osc.em = d.osc.em ∧ t.dev.osc.sso = d.osc.sso)
  ∧ (∀ (s : State) (dt b e : Nat) (d : Dev), d = later s.dev dt → b ≤ 1 → d.nextUpdate b = some e → (d.lateUpdates b e ≠ [] ∧
      d.crt.nextSeal < e + 8) → ∃ t, exec (.trackerLag dt b) s = .next t ∧ moves s dt [.regs, .osc] (fun o => o ∈ [Reg.OSC_OVERRUN]) t ∧
      t.dev.regN Reg.OSC_OVERRUN = (d.regN Reg.OSC_OVERRUN + (d.lateUpdates b e).length) % 2 ^ 32 ∧ (t.dev.band b).lag = true ∧
      (t.dev.band b).lagEpoch = (d.lateUpdates b e).getLast? ∧ (t.dev.band b).resetDue = (d.band b).resetDue)
  ∧ (∀ (s : State) (dt b e : Nat) (d : Dev), d = later s.dev dt → b ≤ 1 → d.nextUpdate b = some e → (d.band b).lagEpoch = none →
      (d.deadline (e + 1) ≤ d.g16 ∧ d.crt.nextSeal = e + 1) → ∃ t, exec (.trackerLag dt b) s = .next t ∧ moves s dt [.regs, .osc] (fun o
      => o ∈ [Reg.OSC_OVERRUN]) t ∧ t.dev.regN Reg.OSC_OVERRUN = (d.regN Reg.OSC_OVERRUN + 1) % 2 ^ 32 ∧ (t.dev.band b).lag = true ∧
      (t.dev.band b).lagEpoch = some e)
  ∧ (∀ (s : State) (dt b e : Nat) (d : Dev), d = later s.dev dt → b ≤ 1 → d.nextUpdate b = some e →  e + 8 ≤ d.crt.nextSeal → ∃ t, exec
      (.trackerLag dt b) s = .next t ∧ moves s dt [.regs, .hif, .osc, .snt] (fun o => eventReg o ∨ o ∈ [Reg.OSC_STATUS, Reg.OSC_OVERRUN,
      Reg.OSC_RESETS]) t ∧ t.dev.regN Reg.OSC_RESETS = (d.regN Reg.OSC_RESETS + 1) % 2 ^ 32 ∧ (t.dev.band b).resetDue = true)
  ∧ (∀ (r : Nat) (lam : DWord) (lim : Nat) (ys : List (Nat × Word × Bool)) (b : BandSt),
      lim * ys.length < 100 * (ys.filter (fun x => x.2.2)).length →
      trackStep r lam lim ys b = ({ b with y := ys.map (fun x => (x.1, x.2.1)), skipped := true, updates := b.updates + 1 }, none))

/-- The tables, acknowledgements and reads of the island engine and of Fumarole: result and completion. The length and layout of what
FUM_READ writes are the model's choice (log 49), as is the order of a command's checks (log 17). Rests on R176, R177, R178, R184, R185,
R197, R188, R210; the statement is derived. -/
def Obligations.AlarmTablesTakeEffect : Prop :=
  (∀ (s : State) (c : Ctx) (d : Dev) (first count eff : Nat) (images : Bytes) (imm : Bool) (t : Tbl (Held NodeEntry)),
      ready s.dev c.ring false none → d = fetched s.dev c.ring → (1 ≤ count ∧ count ≤ 256 ∧ first + count ≤ 8192) →
      (imagesOf 16 count images).any (resvSet nodeResv) = false →
      (nodeImages first count images).all (fun x => x.2.all d.nodeFits) = true →
      d.changeStatus eff imm false (nodeImages first count images) d.isl.nodes = none →
      d.changeAll eff imm (nodeImages first count images) d.isl.nodes = .ok t →
      exec (.islNodeSet c first count images eff imm) s = .next (served s c ((d.modIsl (fun i => { i with nodes := t })).noteChange eff
      imm) (.ok)))
  ∧ (∀ (s : State) (c : Ctx) (d : Dev) (first count eff : Nat) (images : Bytes) (imm : Bool), ready s.dev c.ring false none →
      d = fetched s.dev c.ring → (nodeImages first count images).any (fun x => x.2.any (fun n => !d.nodeFits n)) = true →
      d.changeStatus eff imm false (nodeImages first count images) d.isl.nodes = none →
      exec (.islNodeSet c first count images eff imm) s = .next (served s c d (.done sRange 0)))
  ∧ (∀ (s : State) (c : Ctx) (d : Dev) (first count eff : Nat) (images : Bytes) (imm : Bool) (t : Tbl (Held BranchEntry)),
      ready s.dev c.ring false none → d = fetched s.dev c.ring → (1 ≤ count ∧ count ≤ 256 ∧ first + count ≤ 32768) →
      (imagesOf 16 count images).any (resvSet branchResv) = false →
      (branchImages first count images).all (fun x => x.2.all d.branchFits) = true →
      d.changeStatus eff imm false (branchImages first count images) d.isl.branches = none →
      d.changeAll eff imm (branchImages first count images) d.isl.branches = .ok t →
      exec (.islBranchSet c first count images eff imm) s = .next (served s c ((d.modIsl (fun i =>
      { i with branches := t })).noteChange eff imm) (.ok)))
  ∧ (∀ (s : State) (c : Ctx) (d : Dev) (first count eff : Nat) (images : Bytes) (imm : Bool), ready s.dev c.ring false none →
      d = fetched s.dev c.ring → (branchImages first count images).any (fun x => x.2.any (fun b => !d.branchFits b)) = true →
      d.changeStatus eff imm false (branchImages first count images) d.isl.branches = none →
      exec (.islBranchSet c first count images eff imm) s = .next (served s c d (.done sRange 0)))
  ∧ (∀ (s : State) (c : Ctx) (d : Dev) (first count eff : Nat) (images : Bytes) (imm : Bool), ready s.dev c.ring false none →
      d = fetched s.dev c.ring → (1 ≤ count ∧ count ≤ 64 ∧ first + count ≤ 512) →
      (imagesOf 32 count images).any (resvSet ruleResv) = false →
      (ruleImages first count images).all (fun x => x.2.all d.ruleFits) = true →
      d.changeStatus eff imm false (ruleImages first count images) d.ruleEntries = none →
      exec (.ruleSet c first count images eff imm) s = .next (served s c (d.modFum (fun f =>
      { f with rules := (ruleImages first count images).foldl (d.putRule eff imm) f.rules })) (.ok)))
  ∧ (∀ (s : State) (c : Ctx) (d : Dev) (first count eff : Nat) (images : Bytes) (imm : Bool), ready s.dev c.ring false none →
      d = fetched s.dev c.ring → (ruleImages first count images).any (fun x => x.2.any (fun r => !d.ruleFits r)) = true →
      d.changeStatus eff imm false (ruleImages first count images) d.ruleEntries = none →
      exec (.ruleSet c first count images eff imm) s = .next (served s c d (.done sRange 0)))
  ∧ (∀ (s : State) (c : Ctx) (d : Dev) (pub : Nat) (o : ExpOps), ready s.dev c.ring false none → d = fetched s.dev c.ring →
      exec (.expSet c pub o) s = .next (served s c (if expFits s.key pub o then d.modFum (fun f =>
      { f with pubs := f.pubs.put pub (pubOf o) }) else d) (if expFits s.key pub o then .ok else .done sRange 0)))
  ∧ (∀ (s : State) (c : Ctx) (d : Dev) (rule : Nat), ready s.dev c.ring false none → d = fetched s.dev c.ring →
      (rule < 512 ∨ rule = 0xFFFF) → exec (.almAck c rule) s = .next (served s c (d.modFum (fun f =>
      { f with rules := f.rules.mapVals (ackRule rule) })) (.ok)))
  ∧ (∀ (s : State) (c : Ctx) (d : Dev) (rule : Nat), ready s.dev c.ring false none → d = fetched s.dev c.ring → (512 ≤ rule ∧
      rule ≠ 0xFFFF) → exec (.almAck c rule) s = .next (served s c d (.done sRange 0)))
  ∧ (∀ (s : State) (c : Ctx) (d : Dev) (buf : HostBuf), ready s.dev c.ring false none → d = fetched s.dev c.ring →
      exec (.fumRead c buf) s = .next (served s c d (if buf.len < 544 then .done sRange 0 else .block d.fumBlock (some buf.addr))))

/-- Enables, evaluations, decisions, timers and messages of the alarm path: result, frame and completion. That a message is taken once and
in its order is R423's rule (Dev.receive). That a disabled Fumarole retransmits nothing is DEDUCED (log 50). Rests on R181, R184, R191,
R194, R195, R198, R200, R201, R202; the statement is derived. -/
def Obligations.AlarmPathEventsTakeEffect : Prop :=
  (∀ (s : State) (v : Word), s.dev.gatedAt Reg.ISL_CTRL = false → v.toNat.testBit 0 = true → s.dev.bit Fld.ISL_CTRL_EN = false → ∃ t,
      exec (.islEnable v) s = .next t ∧ moves s 0 [.regs, .isl] (fun o => o ∈ [Reg.ISL_CTRL, Reg.ISL_STATUS]) t ∧
      t.dev.bit Fld.ISL_CTRL_EN = true ∧ t.dev.bit Fld.ISL_STATUS_RUNNING = true ∧ t.dev.isl.rebase = true)
  ∧ (∀ (s : State) (v : Word), s.dev.gatedAt Reg.FUM_CTRL = false → v.toNat.testBit 0 = true → s.dev.bit Fld.FUM_CTRL_EN = false →
      s.dev.bit Fld.SAF_STATUS_SAFE = false → ∃ t, exec (.fumEnable v) s = .next t ∧ moves s 0 [.regs,
      .fum] (fun o => o ∈ [Reg.FUM_CTRL, Reg.FUM_STATUS]) t ∧ t.dev.bit Fld.FUM_CTRL_EN = true ∧
      t.dev.bit Fld.FUM_STATUS_RUNNING = true ∧ t.dev.bit Fld.FUM_STATUS_ALMOK = false ∧ t.dev.fum.decidedHere = false ∧
      t.dev.fum.driven = true)
  ∧ (∀ (s : State) (dt e : Nat) (d : Dev) (q : SealInfo), d = later s.dev dt → d.bit Fld.ISL_CTRL_EN = true →
      d.nextSealed d.isl.next = some e → d.sealOf e = some q → ∃ t, exec (.islandEvaluate dt) s = .next t ∧ moves s dt [.regs, .hif,
      .isl, .fum] (fun o => signalReg o ∨ o / 0x1000 ∈ [0x082] ∨ o ∈ [Reg.FUM_RING_LOST]) t ∧ t.dev.isl.next = some (e + 1) ∧
      t.dev.reg64 Reg.ISL_EVALS_LO = (d.reg64 Reg.ISL_EVALS_LO + 1) % 2 ^ 64 ∧ t.dev.isl.last.map (fun v => v.epoch) = some e)
  ∧ (∀ (s : State) (dt e : Nat) (l : List Nat) (d : Dev) (q : SealInfo), d = later s.dev dt → d.bit Fld.FUM_STATUS_RUNNING = true →
      0 < d.deCount → d.nextSealed d.fum.next = some e → d.sealOf e = some q → ∃ t, exec (.fumaroleDecision dt l) s = .next t ∧
      moves s dt [.regs, .hif, .isl, .fum, .net, .fab, .snt, .saf, .cyc] (fun _ => True) t ∧ t.dev.fum.decided = some e ∧
      t.dev.fum.decidedAt = d.up ∧ t.dev.reg64 Reg.FUM_DECISIONS_LO = (d.reg64 Reg.FUM_DECISIONS_LO + 1) % 2 ^ 64)
  ∧ (∀ (s : State) (dt p at_ : Nat) (d : Dev), d = later s.dev dt → p < 8 → d.bit Fld.SAF_STATUS_SAFE = false →
      d.wantedPins.testBit p = false → d.fum.pins[p]? = some { since := some at_ } →
      at_ + d.fld (Fld.FUM_PINp_MIN_ON p) * 1000000 ≤ d.up → ∃ t, exec (.minOnExpire dt) s = .next t ∧ moves s dt [.regs,
      .fum] (fun o => o ∈ [Reg.FUM_STATUS]) t ∧ t.dev.almPins.testBit p = false ∧ t.dev.fum.pins[p]? = some { since := none })
  ∧ (∀ (s : State) (dt : Nat) (d : Dev), d = later s.dev dt → d.fum.decidedAt + d.almokWindow < d.up → ∃ t,
      exec (.almokTimeout dt) s = .next t ∧ moves s dt [.regs] (fun o => o ∈ [Reg.FUM_STATUS]) t ∧
      t.dev.bit Fld.FUM_STATUS_ALMOK = false)
  ∧ (∀ (s : State) (dt n at_ iv : Nat) (d : Dev) (p : Pub), d = later s.dev dt → d.fum.pubs.find n = some p → p.next = some (at_, iv) →
      at_ ≤ d.up → p.en = true → d.bit Fld.FUM_CTRL_EN = true → ∃ t, exec (.expressRetransmit dt n) s = .next t ∧ moves s dt [.regs,
      .fum, .net] (fun o => o = Reg.FUM_EXP_DROP ∨ ∃ k, k < 4 ∧ o = Reg.NET_Pp_TX_Q_LOST k) t ∧
      t.dev.fum.pubs.find n = some
      { p with sqNum := bump p.sqNum, next := some (at_ + min p.rtMax (2 * iv) * 1000000, min p.rtMax (2 * iv)) })
  ∧ (∀ (s : State) (dt : Nat) (d : Dev), d = later s.dev dt → d.bit Fld.FUM_CFG_GRID_EN = true → d.fum.voteAt + 1000000000 ≤ d.up →
      exec (.votePeriodic dt) s = .next { s with dev := (d.modFum (fun f => { f with voteAt := d.up })).sendVote })
  ∧ (∀ (s : State) (dt src seq : Nat) (m : VoteMsg) (d d1 : Dev), d = later s.dev dt → d.receive src 0 seq = (d1, true) → (d1.isSummit =
      true ∧ d1.joined = true) → d1.view.members.testBit src = true →  ∃ t, exec (.vote dt src seq m) s = .next t ∧ moves s dt [.regs,
      .hif, .fum, .fab] (fun o => signalReg o ∨ o / 0x1000 ∈ [0x120] ∨ o ∈ [Reg.ISL_STATUS, Reg.FUM_RING_LOST]) t ∧ t.dev.fum.votes.find
      src = some m)
  ∧ (∀ (s : State) (dt src seq : Nat) (m : VoteMsg) (d d1 : Dev), d = later s.dev dt → d.receive src 0 seq = (d1, true) → (src =
      d1.view.summit ∧ d1.joined = true) →  ∃ t, exec (.gridState dt src seq m) s = .next t ∧ moves s dt [.regs, .hif, .fum, .fab] (fun o
      => signalReg o ∨ o ∈ [Reg.ISL_STATUS, Reg.FUM_RING_LOST]) t ∧ t.dev.fum.grid = m.groups ∧ t.dev.fum.islandGrid = m.island)
  ∧ (∀ (s : State) (dt : Nat) (d : Dev), d = later s.dev dt → (d.isSummit = true ∧ d.joined = true) → d.fum.gridAt + 1000000000 ≤ d.up →
      exec (.gridStatePeriodic dt) s = .next { s with dev := (d.modFum (fun f => { f with gridAt := d.up })).recount none true })

/-- Local acquisition: enables, strobes, sample frames, commands, start steps, fine samples, estimation, and the commands of the ring. The
PHASE and EFF_SEQ that the G840 picks within their ranges are free values (log 56). LAST_PORT and LAST_RX of a LOCAL record are free values
(log 138). That LOCAL_ESTIMATION issues its item is the model's reading (log 145). Rests on R213, R215, R216, R217, R218, R219, R220, R221,
R222, R233, R245, R246; the statement is derived. -/
def Obligations.AcquisitionCompletes : Prop :=
  (∀ (s : State) (v : Word) (m : Nat), (m < 4 ∧ m < s.dev.acq.mods.length) → s.dev.gatedAt Reg.ACQ_CTRL = false → v.toNat.testBit m = true
      → s.dev.fbit Fld.ACQ_CTRL_FE_EN m = false → s.dev.fbit Fld.ACQ_STATUS_ID_OK m = true → ∃ t, exec (.feEnable v) s = .next t ∧ moves s
      0 [.regs, .acq] (fun o => o = Reg.ACQ_CTRL ∨ o = Reg.ACQ_STATUS ∨ ∃ k, k < 4 ∧ o = Reg.CAL_STATm k) t ∧ t.dev.fbit
      Fld.ACQ_CTRL_FE_EN m = true ∧ t.dev.feMod m = (s.dev.feMod m).heldPart)
  ∧ (∀ (s : State) (v : Word) (m : Nat), m < 4 → s.dev.gatedAt Reg.ACQ_CTRL = false → v.toNat.testBit m = true →
      s.dev.fbit Fld.ACQ_CTRL_FE_EN m = false → s.dev.fbit Fld.ACQ_STATUS_ID_OK m = false → ∃ t, exec (.feEnable v) s = .next t ∧
      moves s 0 [.regs, .acq] (fun o => o = Reg.ACQ_CTRL ∨ o = Reg.ACQ_STATUS ∨ ∃ k, k < 4 ∧ o = Reg.CAL_STATm k) t ∧
      t.dev.fbit Fld.ACQ_CTRL_FE_EN m = false ∧ t.dev.bit Fld.ACQ_STATUS_CFG_ERR = true)
  ∧ (∀ (s : State) (v : Word), s.dev.gatedAt Reg.CAL_CTRL = false → ∃ t, exec (.rotEnable v) s = .next t ∧ moves s 0 [.regs, .acq] (fun o
      => o ∈ [Reg.CAL_CTRL, Reg.CAL_ABANDON]) t ∧ t.dev.fld Fld.CAL_CTRL_ROT_EN = v.toNat % 16)
  ∧ (∀ (s : State) (dt m : Nat) (d : Dev), d = later s.dev dt → (m < 4 ∧ m < d.acq.mods.length) → d.fbit Fld.ACQ_CTRL_FE_EN m = true →
      (d.feMod m).strobeK.all (fun l => decide (l < d.strobeDue m)) = true → ∃ t, exec (.sampleStrobe dt m) s = .next t ∧
      moves s dt [.acq] (fun _ => False) t ∧ (t.dev.feMod m).strobeK = some (d.strobeDue m) ∧ ∃ phase, phase < 256 ∧
      Out.feStrobe m phase (d.strobeDue m % 256) ∈ t.dev.out)
  ∧ (∀ (s : State) (dt m k : Nat) (f : FeFrame) (d : Dev), d = later s.dev dt → (m < 4 ∧ d.fbit Fld.ACQ_CTRL_FE_EN m = true ∧ d.linkIsUp m
      = true ∧ m < d.acq.mods.length) → (f.crcOk = true ∧ f.refOk = true) → (d.feMod m).frameTick f.seq = some k → k - (d.feMod
      m).lastK.getD (k - 1) - 1 < 5 → ∃ t, exec (.sampleFrame dt m f) s = .next t ∧ moves s dt [.regs, .acq] (fun o => o =
      Reg.ACQ_FEm_REPAIR m ∨ o = Reg.ACQ_FEm_OVR m) t ∧ (t.dev.feMod m).lastK = some k ∧ t.dev.regN (Reg.ACQ_FEm_REPAIR m) = (d.regN
      (Reg.ACQ_FEm_REPAIR m) + (k - (d.feMod m).lastK.getD (k - 1) - 1)) % 2 ^ 32)
  ∧ (∀ (s : State) (dt m : Nat) (f : FeFrame) (d : Dev), d = later s.dev dt → (m < 4 ∧ d.fbit Fld.ACQ_CTRL_FE_EN m = true ∧
      d.linkIsUp m = true ∧ m < d.acq.mods.length) → f.crcOk = false → 4 ≤ (d.feMod m).badRun → ∃ t,
      exec (.sampleFrame dt m f) s = .next t ∧ moves s dt [.regs, .acq] (fun o => o ∈ [Reg.ACQ_STATUS, Reg.CAL_ABANDON,
      Reg.ACQ_FEm_DOWN m, Reg.CAL_STATm m]) t ∧ t.dev.linkIsUp m = false ∧ t.dev.measuring m = false ∧
      t.dev.regN (Reg.ACQ_FEm_DOWN m) = (d.regN (Reg.ACQ_FEm_DOWN m) + 1) % 2 ^ 32)
  ∧ (∀ (s : State) (dt m : Nat) (d : Dev), d = later s.dev dt → (m < 4 ∧ d.linkIsUp m = true ∧ m < d.acq.mods.length) → ∃ t,
      exec (.feLinkDown dt m true) s = .next t ∧ moves s dt [.regs, .acq] (fun o => o ∈ [Reg.ACQ_STATUS, Reg.CAL_ABANDON,
      Reg.ACQ_FEm_DOWN m, Reg.CAL_STATm m]) t ∧ t.dev.linkIsUp m = false ∧ t.dev.measuring m = false ∧
      t.dev.regN (Reg.ACQ_FEm_DOWN m) = (d.regN (Reg.ACQ_FEm_DOWN m) + 1) % 2 ^ 32 ∧ (t.dev.feMod m).turn = none)
  ∧ (∀ (s : State) (dt m sk : Nat) (cmd : FeCmd) (rest : List FeCmd) (d : Dev), d = later s.dev dt → (m < 4 ∧ d.fbit Fld.ACQ_CTRL_FE_EN m
      = true) → (d.feMod m).cmdQ = cmd :: rest → (d.feMod m).strobeK = some sk → ∃ t, exec (.feCommandSend dt m) s = .next t ∧ moves s dt
      [.acq] (fun _ => False) t ∧ (t.dev.feMod m).cmdQ = rest ∧ ∃ n, 2 ≤ n ∧ n ≤ 128 ∧ Out.feCommand m (cmd.bytes (d.feMod m).tag (sk +
      n)) ∈ t.dev.out)
  ∧ (∀ (s : State) (dt m sk : Nat) (v : FeVerify) (d : Dev), d = later s.dev dt → m < 4 → (d.feMod m).strobeK = some sk →
      (d.feMod m).verify.find? (fun v => decide (v.effK + 32 < sk)) = some v → v.tries < 2 → ∃ t,
      exec (.feCmdVerifyTimeout dt m) s = .next t ∧ moves s dt [.acq] (fun _ => False) t ∧ (t.dev.feMod m).cmdQ = ⟨1, v.adc, v.src,
      v.tries⟩ :: (d.feMod m).cmdQ ∧ (t.dev.feMod m).verify = (d.feMod m).verify.erase v)
  ∧ (∀ (s : State) (dt m sk : Nat) (v : FeVerify) (d : Dev), d = later s.dev dt → m < 4 → (d.feMod m).strobeK = some sk →
      (d.feMod m).verify.find? (fun v => decide (v.effK + 32 < sk)) = some v → 2 ≤ v.tries → ∃ t,
      exec (.feCmdVerifyTimeout dt m) s = .next t ∧ moves s dt [.regs, .hif, .acq,
      .snt] (fun o => eventReg o ∨ o ∈ [Reg.ACQ_FEm_CMDFAIL m, Reg.CAL_ABANDON, Reg.CAL_STATm m]) t ∧
      t.dev.regN (Reg.ACQ_FEm_CMDFAIL m) = (d.regN (Reg.ACQ_FEm_CMDFAIL m) + 1) % 2 ^ 32 ∧ (t.dev.feMod m).turn = none)
  ∧ (∀ (s : State) (dt m ms : Nat) (d : Dev), d = later s.dev dt → (m < 4 ∧ d.fbit Fld.ACQ_CTRL_FE_EN m = true ∧ d.linkIsUp m = true ∧
      d.measuring m = false ∧ m < d.acq.mods.length) → startTimes[(d.feMod m).startStep]? = some ms →
      (d.feMod m).startAt + ms * 1000000 ≤ d.up → ∃ t, exec (.feStartStep dt m) s = .next t ∧ moves s dt [.regs,
      .acq] (fun o => o ∈ [Reg.ACQ_STATUS]) t ∧ (t.dev.feMod m).startStep = (d.feMod m).startStep + 1 ∧
      t.dev.measuring m = decide ((d.feMod m).startStep = 10))
  ∧ (∀ (s : State) (dt n : Nat) (d : Dev), d = later s.dev dt → d.fineDue = some n → ∃ t, exec (.fineSample dt) s = .next t ∧
      moves s dt [.regs, .hif, .acq, .nrg, .snt] (fun o => eventReg o ∨ o / 0x1000 ∈ [0x0b8]) t ∧ t.dev.acq.fineLast = some n)
  ∧ (∀ (s : State) (dt i e : Nat) (ent : StreamEntry) (d d1 d2 : Dev), d = later s.dev dt → (d.localDue i e).isSome = true → d.serve 0x03
      i = (d1, true) → d1.localDue i e = some ent → d2 = (d1.draw.2.commitRec i ent (epochTime d1.rate e) (d1.localRec i e ent) (d1.draw.1
      / 256) (d1.draw.1 % 256)).toMirror ent e (d1.localRec i e ent) → exec (.localEstimation dt i e) s = .next { s with dev := d2 })
  ∧ (∀ (s : State) (dt i e : Nat) (d : Dev), d = later s.dev dt → (d.localDue i e).isNone = true → ∃ t, exec (.localEstimation dt i e) s =
      .next t ∧ moves s dt [] (fun _ => False) t)
  ∧ (∀ (s : State) (c : Ctx) (d : Dev) (m : Nat) (buf : HostBuf), ready s.dev c.ring false (some 3) → d = fetched s.dev c.ring →
      exec (.calRead c m buf) s = .next (served s c d (if 3 < m then .done sRange 0 else if d.measuring m = false then .done sNotValid
      0 else if buf.len < 208 then .done sRange 0 else .block ((d.feMod m).adcs.flatMap d.calBlock) (some buf.addr))))
  ∧ (∀ (s : State) (c : Ctx) (d t : Dev) (m mask : Nat), ready s.dev c.ring false (some 3) → d = fetched s.dev c.ring → m < 4 →
      t = (bitsOf 13 mask).foldl (fun (x : Dev) a => (x.setFbit (Fld.CAL_FAULTm_ADC m) a false).updFeMod m (fun s => s.modAdc a (fun y
      => { y with refusals := 0 }))) d → exec (.calRetry c m mask) s = .next (served s c (t.setFld (Fld.CAL_STATm_HALT m) 0) (.ok)))
  ∧ (∀ (s : State) (dt i e : Nat) (d : Dev), d = later s.dev dt → ((d.localDue i e).isSome = true ∧ (d.serve 0x03 i).2 = false) → ∃ t,
      exec (.localEstimation dt i e) s = .next t ∧ moves s dt [.regs, .sch] (fun o => o / 0x1000 = 0x0d0) t)

/-- A calibration turn starts when it falls due, takes its steps at their times, and its correction ramp ends. The sequence of R237 is
counted in 27 steps, each at its time of turnTimes. Rests on R237, R238, R239, R240, R241, R242; the statement is derived. -/
def Obligations.CalibrationTurnsRun : Prop :=
  (∀ (s : State) (dt m at_ i : Nat) (d : Dev), d = later s.dev dt → (m < 4 ∧ d.measuring m = true ∧
      d.fbit Fld.CAL_CTRL_ROT_EN m = true) → ((d.feMod m).turnAt = some at_ ∧ at_ ≤ d.up) → (d.feMod m).turn = none →
      d.fld (Fld.CAL_STATm_HALT m) = 0 → d.nextInput m (d.feMod m).nextInput = some i → ∃ t, exec (.calTurnStart dt m) s = .next t ∧
      moves s dt [.regs, .acq] (fun o => o ∈ [Reg.CAL_STATm m]) t ∧ (t.dev.feMod m).turn = some { input := i, at_ := d.up } ∧
      (t.dev.feMod m).turnAt = some (at_ + 650000000) ∧ (t.dev.feMod m).cmdQ = (d.feMod m).cmdQ ++ [⟨1, 12, i, 0⟩] ∧
      t.dev.fld (Fld.CAL_STATm_INPUT m) = i ∧ t.dev.fld (Fld.CAL_STATm_PHASE m) = 1)
  ∧ (∀ (s : State) (dt m at_ : Nat) (d : Dev), d = later s.dev dt → (m < 4 ∧ d.measuring m = true ∧ d.fbit Fld.CAL_CTRL_ROT_EN m = true) →
      ((d.feMod m).turnAt = some at_ ∧ at_ ≤ d.up) → (d.feMod m).turn.isSome = true → ∃ t, exec (.calTurnStart dt m) s = .next t ∧
      moves s dt [.regs, .acq] (fun o => o ∈ [Reg.CAL_ABANDON]) t ∧ (t.dev.feMod m).turn = (d.feMod m).turn ∧
      t.dev.regN Reg.CAL_ABANDON = (d.regN Reg.CAL_ABANDON + 1) % 2 ^ 32)
  ∧ (∀ (s : State) (dt m ms : Nat) (tn : TurnSt) (d : Dev), d = later s.dev dt → (d.feMod m).turn = some tn →
      turnTimes[tn.step]? = some ms → tn.at_ + (ms + 201 * tn.repeats) * 1000000 ≤ d.up →
      exec (.calTurnStep dt m) s = .next { s with dev := d.turnStep m tn })
  ∧ (∀ (s : State) (dt m : Nat) (tn : TurnSt) (d : Dev), d = later s.dev dt → (m < 4 ∧ (d.feMod m).turn = some tn ∧ tn.step = 1) →
      tn.at_ + (2 + 201 * tn.repeats) * 1000000 ≤ d.up → ∃ t, exec (.calTurnStep dt m) s = .next t ∧ moves s dt [.regs,
      .acq] (fun o => o ∈ [Reg.CAL_STATm m]) t ∧ (t.dev.feMod m).win = some ⟨.match_ tn.input, [tn.input, 12], d.nowTick, 51200⟩ ∧
      (t.dev.feMod m).turn = some { tn with step := 2 } ∧ t.dev.fld (Fld.CAL_STATm_PHASE m) = 2)
  ∧ (∀ (s : State) (dt m : Nat) (tn : TurnSt) (d : Dev), d = later s.dev dt → (m < 4 ∧ (d.feMod m).turn = some tn ∧ tn.step = 26) →
      tn.at_ + (644 + 201 * tn.repeats) * 1000000 ≤ d.up → ∃ t, exec (.calTurnStep dt m) s = .next t ∧ moves s dt [.regs, .hif, .acq,
      .snt] (fun o => eventReg o ∨ o ∈ [Reg.CAL_STATm m, Reg.CAL_TURNS_LO, Reg.CAL_TURNS_HI]) t ∧ (t.dev.feMod m).turn = none ∧
      t.dev.reg64 Reg.CAL_TURNS_LO = (d.reg64 Reg.CAL_TURNS_LO + 1) % 2 ^ 64)
  ∧ (∀ (s : State) (dt m a k0 : Nat) (lo hi : CalVals) (d : Dev), d = later s.dev dt → ((d.feMod m).adc a).ramp = some (k0, lo, hi) →
      k0 + 256000 ≤ d.nowTick → ∃ t, exec (.calRampEnd dt m a) s = .next t ∧ moves s dt [.acq] (fun _ => False) t ∧
      ((t.dev.feMod m).adc a).vals = hi ∧ ((t.dev.feMod m).adc a).ramp = none)

/-- Geyser's ticks, detectors, triggers, stream and enables: what each event and write does. The tick in which a row acts is the model's
reading (log 63). Rests on R248, R251, R253, R256, R257, R258, R259, R260, R261, R269, R272, R274; the statement is derived. -/
def Obligations.GeyserEventsTakeEffect : Prop :=
  (∀ (s : State) (dt k : Nat) (d : Dev), d = later s.dev dt → d.geyDue = some k → ∃ t, exec (.geyserTick dt) s = .next t ∧
      moves s dt [.regs, .hif, .gey, .snt] (fun o => eventReg o ∨ o / 0x1000 ∈ [0x0b0]) t ∧ t.dev.gey.tick = some k ∧
      t.dev.gey.lastVec = t.dev.geyVector)
  ∧ (∀ (s : State) (dt k : Nat) (d : Dev), d = later s.dev dt → d.tickDue = some k → d.bit Fld.GEY_CTRL_EN = false → ∃ t, exec
      (.geyserTick dt) s = .next t ∧ moves s dt [.regs, .hif, .gey] (fun o => signalReg o ∨ o / 0x1000 ∈ [0x0b0]) t ∧ t.dev.gey.tick =
      some k ∧ t.dev.gey.lcs = d.gey.lcs ∧ t.dev.reg64 Reg.GEY_LC_LO = d.reg64 Reg.GEY_LC_LO)
  ∧ (∀ (x : Dev) (k vec n : Nat) (t : TrigSt) (e : TrigEntry), (x.gey.trigs.getD n {} = t ∧ t.ent = some e) → (e.matches vec = true ∧
      t.prev = some false) → (t.inHold k = false ∧ x.frozenFor e = false ∧ t.soft = 0) → x.gey.marks.length < 1024 →
      ((x.trigTick k vec n).gey.trigs.getD n {}).fires = (t.fires + 1) % 2 ^ 32 ∧ ∃ m,
      (x.trigTick k vec n).gey.marks = x.gey.marks ++ [m] ∧ m.k = k ∧ m.trig = n ∧ m.cause = 0 ∧ m.vector = vec)
  ∧ (∀ (s : State) (dt k j : Nat) (d : Dev) (e : LcEntry), d = later s.dev dt → d.geyDue = some k → ((d.lc j).ent = some e ∧ 0 < e.hold) →
      (d.lc j).under = true → ((d.lcTick k j).lc j).under = false → ∃ t, exec (.detectorHoldExpire dt j) s = .next t ∧
      moves s dt [.regs, .hif, .gey, .snt] (fun o => eventReg o ∨ o / 0x1000 ∈ [0x0b0]) t ∧ (t.dev.lc j).under = false)
  ∧ (∀ (s : State) (dt k j : Nat) (d : Dev) (e : LcEntry), d = later s.dev dt → j < 64 → d.geyDue = some k → ((d.lc j).ent = some e ∧
      d.lcFrozen j = true) → (d.lc j).changes.headD 0 + e.chatWin * 256 ≤ k → d.measuring (e.ch / 12) = true → ∃ t, exec
      (.detectorUnfreeze dt j) s = .next t ∧ moves s dt [.regs, .gey] (fun o => o ∈ [Reg.GEY_LC_LO, Reg.GEY_LC_HI, Reg.GEY_CHAT_LO,
      Reg.GEY_CHAT_HI]) t ∧ t.dev.lcFrozen j = false ∧ (t.dev.reg64 Reg.GEY_LC_LO).testBit j = (d.lc j).under)
  ∧ (∀ (s : State) (dt k n : Nat) (d : Dev) (e : TrigEntry), d = later s.dev dt → d.geyDue = some k →
      (d.gey.trigs.getD n {}).ent = some e → e.matches (d.allDetectors k).geyVector = true →
      (d.gey.trigs.getD n {}).repeatDue e k = true → ∃ t, exec (.triggerRepeat dt n) s = .next t ∧ moves s dt [.regs,
      .gey] (fun o => o ∈ [Reg.GEY_MARK_LOST, Reg.GEY_MISSED]) t ∧
      (t.dev.gey.trigs.getD n {}).fires = ((d.gey.trigs.getD n {}).fires + 1) % 2 ^ 32 ∧
      (t.dev.gey.trigs.getD n {}).lastFire = some k ∧ ∃ m ∈ t.dev.gey.marks, m.k = k ∧ m.trig = n ∧ m.cause = 1)
  ∧ (∀ (s : State) (dt k n u : Nat) (d : Dev), d = later s.dev dt → d.geyDue = some k → ((d.gey.trigs.getD n {}).holdUntil = some u ∧
      u ≤ k) → ∃ t, exec (.holdoffExpire dt n) s = .next t ∧ moves s dt [.gey] (fun _ => False) t ∧
      (t.dev.gey.trigs.getD n {}) = { d.gey.trigs.getD n {} with holdUntil := none })
  ∧ (∀ (s : State) (dt k n : Nat) (d : Dev) (e : TrigEntry), d = later s.dev dt → d.geyDue = some k → ((d.gey.trigs.getD n {}).ent = some
      e ∧ e.stuckS ≠ 0) → e.matches (d.allDetectors k).geyVector = true → ((d.gey.trigs.getD n {}).high = true ∧ (d.gey.trigs.getD n
      {}).stuck = false) → (d.gey.trigs.getD n {}).since + e.stuckS * 256000 ≤ k → ∃ t, exec (.triggerStuck dt n) s = .next t ∧ moves s dt
      [.regs, .gey] (fun o => o ∈ [Reg.GEY_MARK_LOST, Reg.GEY_MISSED, Reg.GEY_STUCK]) t ∧ (t.dev.gey.trigs.getD n {}).stuck = true ∧
      t.dev.regN Reg.GEY_STUCK = (d.regN Reg.GEY_STUCK + 1) % 2 ^ 32 ∧ ∃ m ∈ t.dev.gey.marks, m.k = k ∧ m.trig = n ∧ m.cause = 2)
  ∧ (∀ (s : State) (dt n : Nat) (d x : Dev) (r : RingRec) (rest : List RingRec), d = later s.dev dt → (d.ringOf 7 = some n ∧ d.hostReady =
      true ∧ (d.ring n).rest = none) → d.hif.trigQ = r :: rest → d.place n 7 r = (x, true) → ∃ t, exec (.streamRecordDeliver dt) s = .next
      t ∧ moves s dt [.regs, .hif] signalReg t ∧ t.dev.hif.trigQ.length ≤ rest.length)
  ∧ (∀ (s : State) (v : Word) (d : Dev), d = later s.dev 0 → (v.toNat.testBit 0 = true ∧ d.bit Fld.GEY_CTRL_EN = false) → d.gatedAt
      Reg.GEY_CTRL = false → ∃ t, exec (.geyEnable v) s = .next t ∧ moves s 0 [.regs, .hif, .gey] (fun o => signalReg o ∨ o / 0x1000 ∈
      [0x0b0]) t ∧ t.dev.bit Fld.GEY_CTRL_EN = true ∧ t.dev.bit Fld.GEY_STATUS_RUNNING = true ∧ t.dev.reg64 Reg.GEY_LC_LO = 0)
  ∧ (∀ (s : State) (v : Word) (d : Dev), d = later s.dev 0 → d.bit Fld.GEY_CTRL_EN = v.toNat.testBit 0 → d.gatedAt Reg.GEY_CTRL = false →
      (d.geyIdle = false ∨ d.gey.tick = none) → ∃ t, exec (.geyStreamEnable v) s = .next t ∧ moves s 0 [.regs, .gey] (fun o => o ∈
      [Reg.GEY_CTRL, Reg.GEY_STATUS]) t ∧ t.dev.bit Fld.GEY_CTRL_EN = v.toNat.testBit 0 ∧ t.dev.gey.lcs = d.gey.lcs ∧ t.dev.gey.trigs =
      d.gey.trigs ∧ t.dev.gey.marks = d.gey.marks ∧ t.dev.gey.gaps = d.gey.gaps ∧ t.dev.bit Fld.GEY_CTRL_STREAM_EN = (v.toNat.testBit 1 &&
      (d.bit Fld.GEY_CTRL_STREAM_EN || !d.streamRefused)) ∧ t.dev.bit Fld.GEY_STATUS_CFG_ERR = (d.bit Fld.GEY_STATUS_CFG_ERR ||
      (v.toNat.testBit 1 && !d.bit Fld.GEY_CTRL_STREAM_EN && d.streamRefused)))
  ∧ (∀ (s : State) (v : Word) (d : Dev), d = later s.dev 0 → d.bit Fld.GEY_CTRL_EN = v.toNat.testBit 0 → d.gatedAt Reg.GEY_CTRL = false →
      d.geyIdle = true → ∃ t, exec (.geyStreamEnable v) s = .next t ∧ moves s 0 [.regs, .hif, .gey] (fun o => signalReg o ∨ o / 0x1000 ∈
      [0x0b0]) t ∧ t.dev.bit Fld.GEY_CTRL_EN = false ∧ t.dev.gey.lcs = d.gey.lcs ∧ t.dev.gey.gaps = d.gey.gaps ∧ t.dev.bit
      Fld.GEY_CTRL_STREAM_EN = (v.toNat.testBit 1 && !d.streamRefused))

/-- The commands of Geyser: result and completion. The order of a command's checks is the model's reading (log 17). Rests on R250, R255,
R258, R260, R270, R273, R82; the statement is derived. -/
def Obligations.GeyserCommandsComplete : Prop :=
  (∀ (s : State) (c : Ctx) (d : Dev) (first count : Nat) (images : Bytes), ready s.dev c.ring false (some 0) → d = fetched s.dev c.ring →
      (1 ≤ count ∧ first + count ≤ 64) → (imagesOf 16 count images).any (resvSet lcResv) = false → (imagesOf 16 count images).any (fun b
      => !(lcFields b).fits) = false → exec (.geyLcSet c first count images) s = .next (served s c ((imagesOf 16 count
      images).zipIdx.foldl (fun x p => x.putLc first p) d) (.ok)))
  ∧ (∀ (s : State) (c : Ctx) (d : Dev) (first count : Nat) (images : Bytes), ready s.dev c.ring false (some 0) → d = fetched s.dev c.ring
      → (count = 0 ∨ 64 < first + count ∨ (imagesOf 16 count images).any (fun b => resvSet lcResv b || !(lcFields b).fits) = true) → exec
      (.geyLcSet c first count images) s = .next (served s c d (.done sRange 0)))
  ∧ (∀ (s : State) (c : Ctx) (d : Dev) (first count : Nat) (images : Bytes), ready s.dev c.ring false (some 0) → d = fetched s.dev c.ring →
      (1 ≤ count ∧ first + count ≤ 256) → (imagesOf 72 count images).any trigBad = false →
      exec (.geyTrigSet c first count images) s = .next (served s c (d.modGey (fun g =>
      { g with trigs := (imagesOf 72 count images).zipIdx.foldl (putTrig first) g.trigs })) (.ok)))
  ∧ (∀ (s : State) (c : Ctx) (d : Dev) (first count : Nat) (images : Bytes), ready s.dev c.ring false (some 0) → d = fetched s.dev c.ring →
      (count = 0 ∨ 256 < first + count ∨ (imagesOf 72 count images).any trigBad = true) →
      exec (.geyTrigSet c first count images) s = .next (served s c d (.done sRange 0)))
  ∧ (∀ (s : State) (c : Ctx) (d : Dev) (rate mask : Nat), ready s.dev c.ring false (some 0) → d = fetched s.dev c.ring → (rate ≤ 1 ∧ 0 <
      mask ∧ mask < 2 ^ 48) → exec (.geyStreamSet c rate mask) s = .next (served s c (d.modGey (fun g =>
      { g with newLayout := some (decide (rate = 1), mask, tickOf d.g16) })) (.ok)))
  ∧ (∀ (s : State) (c : Ctx) (d : Dev) (rate mask : Nat), ready s.dev c.ring false (some 0) → d = fetched s.dev c.ring →
      (1 < rate ∨ mask = 0 ∨ 2 ^ 48 ≤ mask) → exec (.geyStreamSet c rate mask) s = .next (served s c d (.done sRange 0)))
  ∧ (∀ (s : State) (c : Ctx) (d : Dev) (n : Nat), ready s.dev c.ring false (some 0) → d = fetched s.dev c.ring →
      (d.gey.trigs.getD n {}).ent.isSome = true →
      exec (.geyFire c n) s = .next (served s c (d.modTrig n (fun t => { t with soft := t.soft + 1 })) (.ok)))
  ∧ (∀ (s : State) (c : Ctx) (d : Dev) (n : Nat), ready s.dev c.ring false (some 0) → d = fetched s.dev c.ring →
      (d.gey.trigs.getD n {}).ent = none → exec (.geyFire c n) s = .next (served s c d (.done sRange 0)))
  ∧ (∀ (s : State) (c : Ctx) (d : Dev) (buf : HostBuf), ready s.dev c.ring false (some 0) → d = fetched s.dev c.ring →
      exec (.geyTrigStats c buf) s = .next (served s c d (if buf.len < 6144 then .done sRange 0 else .block ((List.range 256).flatMap
      d.trigBlock) (some buf.addr))))

/-- Interchange energy: enable, pulses, intervals, saves and steps without samples. Which saves NRG_SAVES counts is the model's reading
(log 66), as is the first interval (log 67). Rests on R281, R282, R283, R285, R286, R287, R290; the statement is derived. -/
def Obligations.EnergyEventsTakeEffect : Prop :=
  (∀ (s : State) (v : Word), v.toNat.testBit 0 = true → (later s.dev 0).gatedAt Reg.NRG_CTRL = false → ∃ t,
      exec (.nrgEnable v) s = .next t ∧ moves s 0 [.regs, .nrg] (fun o => o ∈ [Reg.NRG_CTRL, Reg.NRG_STATUS]) t ∧
      t.dev.bit Fld.NRG_CTRL_EN = true ∧ t.dev.bit Fld.NRG_STATUS_RUNNING = true)
  ∧ (∀ (s : State) (dt i x : Nat) (d : Dev) (p rest : PulseSt) (w : Nat), d = later s.dev dt → (i < 4 ∧ d.nrg.pins[i]? = some p) →
      (d.bit Fld.NRG_CTRL_EN = true ∧ p.high = false) → p.pop = some (some x, w, rest) → max x p.nextFree ≤ d.nowUs → ∃ t,
      exec (.pulseEmit dt i) s = .next t ∧ moves s dt [.regs, .nrg] (fun o => o ∈ [Reg.NRG_PULSEp_CNT i, Reg.NRG_PULSEp_LATE i]) t ∧
      t.dev.nrg.pins[i]? = some { rest with high := true, highUntil := max x p.nextFree + w, nextFree := max x p.nextFree + 2 * w } ∧
      t.dev.regN (Reg.NRG_PULSEp_CNT i) = (d.regN (Reg.NRG_PULSEp_CNT i) + 1) % 2 ^ 32 ∧
      t.dev.regN (Reg.NRG_PULSEp_LATE i) = (d.regN (Reg.NRG_PULSEp_LATE i) + (if x < p.nextFree then 1 else 0)) % 2 ^ 32)
  ∧ (∀ (s : State) (dt i : Nat) (d : Dev) (p : PulseSt), d = later s.dev dt → d.nrg.pins[i]? = some p → (p.high = true ∧
      p.highUntil ≤ d.nowUs) → ∃ t, exec (.pulseWidthEnd dt i) s = .next t ∧ moves s dt [.nrg] (fun _ => False) t ∧
      t.dev.nrg.pins[i]? = some { p with high := false })
  ∧ (∀ (s : State) (dt : Nat) (d : Dev), d = later s.dev dt → d.bit Fld.NRG_CTRL_EN = true →
      (d.utcMinute % max 1 (d.fld Fld.NRG_CFG_INTERVAL) = 0 ∧ d.utcMinute ≠ d.nrg.intervalMin) → ∃ t,
      exec (.nrgInterval dt) s = .next t ∧ moves s dt [.regs, .hif, .nrg, .snt] (fun o => eventReg o ∨ o ∈ [Reg.NRG_INTERVALS]) t ∧
      t.dev.nrg.points = d.nrg.points.map (fun p => { p with latched := p.acc, latchedAt := d.stepTime }) ∧
      t.dev.regN Reg.NRG_INTERVALS = (d.regN Reg.NRG_INTERVALS + 1) % 2 ^ 32)
  ∧ (∀ (s : State) (dt p : Nat) (d : Dev) (e : NrgEntry), d = later s.dev dt → (d.bit Fld.NRG_CTRL_EN = true ∧
      d.bit Fld.NRG_STATUS_PFW = false ∧ d.finalSaving = false) → d.gSec ≠ d.nrg.savedSec → (p < 16 ∧ (d.point p).ent = some e ∧
      (d.point p).saving = none) → ∃ t, exec (.nrgPeriodicSave dt) s = .next t ∧ moves s dt [.nrg] (fun _ => False) t ∧
      t.dev.nrg.savedSec = d.gSec ∧ ((t.dev.point p).saving.map (fun x => x.2.2)) = some (d.nextSave p e false d.stepTime).2)
  ∧ (∀ (s : State) (dt p i : Nat) (d : Dev) (x : SaveSlot), d = later s.dev dt → (p < d.nrg.points.length ∧ p < d.nrg.slots.length) →
      (d.point p).saving = some (i, false, x) → ∃ t, exec (.nrgSaveDone dt p true) s = .next t ∧ moves s dt [.regs,
      .nrg] (fun o => o ∈ [Reg.NRG_SAVES_LO, Reg.NRG_SAVES_HI]) t ∧ (t.dev.point p).saving = none ∧
      (if i = 0 then (t.dev.saveSlots p).1 else (t.dev.saveSlots p).2) = some x ∧
      t.dev.reg64 Reg.NRG_SAVES_LO = (d.reg64 Reg.NRG_SAVES_LO + 1) % 2 ^ 64)
  ∧ (∀ (s : State) (dt p i : Nat) (d : Dev) (x : SaveSlot), d = later s.dev dt → p < d.nrg.points.length → (d.point p).saving = some (i,
      false, x) → ∃ t, exec (.nrgSaveDone dt p false) s = .next t ∧ moves s dt [.regs, .hif, .nrg,
      .snt] (fun o => eventReg o ∨ o ∈ [Reg.NRG_STATUS]) t ∧ (t.dev.point p).saving = none ∧
      t.dev.bit Fld.NRG_STATUS_SAVE_FAIL = true ∧ t.dev.nrg.slots = d.nrg.slots)
  ∧ (∀ (x : Dev) (n p : Nat) (e : NrgEntry), p < x.nrg.points.length → e.channels.any (fun ch => (x.fineAt ch n).isNone) = true →
      (x.pointStep n (p, e)).bit (Fld.NRG_PTn_STAT_LINK_GAP p) = true ∧ (x.pointStep n (p, e)).point p =
      { x.point p with outage := (x.point p).outage + 1 } ∧ (x.pointStep n (p, e)).nrg.pins = x.nrg.pins ∧ (e.channels.any (fun ch =>
      (x.fineAt ch n).any (fun y => y.ovr)) = true → (x.pointStep n (p, e)).bit (Fld.NRG_PTn_STAT_OVR p) = true))

/-- A step of a pulse pin loses no pulse: what the pin owes and its residue account for all energy, whether its queue is full or not.
Rests on R282, R283; the statement is derived. -/
def Obligations.PulsesAreNeverDropped : Prop :=
  (∀ lPulse e tPrev (p : PulseSt), 0 < p.weight → p.owed + (p.residue + e) / p.weight < 2 ^ 32 →
    (pulseStep lPulse e tPrev p).owed = p.owed + (p.residue + e) / p.weight
      ∧ (pulseStep lPulse e tPrev p).residue = (p.residue + e) % p.weight)
  ∧ (∀ (p rest : PulseSt) t w, p.pop = some (t, w, rest) → rest.owed + 1 = p.owed)

/-- The commands of interchange energy: result and completion. What NRG_SET does to a point that is valid is the model's reading (log 65).
Whether the save of a removal passes is a free value (log 170). Rests on R276, R282, R283, R289, R291; the statement is derived. -/
def Obligations.EnergyCommandsComplete : Prop :=
  (∀ (s : State) (c : Ctx) (d : Dev) (p : Nat) (image : Bytes) (clear : Bool), ready s.dev c.ring false (some 1) →
      d = fetched s.dev c.ring → (p < 16 ∧ resvSet nrgResv image = false) → ((fieldAt image 0 1).testBit 2 = true ∧
      (nrgEntryOf image).fits = true) → ((d.point p).ent = none ∧ d.latestSave p = none) →
      exec (.nrgSet c p image clear) s = .next (served s c ((d.beginPoint p (nrgEntryOf image) (List.replicate 16 0) 0 0 16).event
      .nrgNoSave p) (.ok)))
  ∧ (∀ (s : State) (c : Ctx) (d : Dev) (p i : Nat) (image : Bytes) (clear : Bool) (x : SaveSlot), ready s.dev c.ring false (some 1) →
      d = fetched s.dev c.ring → (p < 16 ∧ resvSet nrgResv image = false) → ((fieldAt image 0 1).testBit 2 = true ∧
      (nrgEntryOf image).fits = true) → ((d.point p).ent = none ∧ d.latestSave p = some (i, x) ∧
      x.defCrc = (nrgEntryOf image).defCrc) →
      exec (.nrgSet c p image clear) s = .next (served s c ((d.beginPoint p (nrgEntryOf image) (x.acc.map (fun y => y * 2 ^ 16))
      (fOfRat ((nrgEntryOf image).peak * d.holdTime x.final / 3600)) (fOfRat (fRat x.pLast * d.holdTime x.final / 3600)) 8).event
      .nrgUnsaved (p + 256 * b2n x.final) (fOfRat ((nrgEntryOf image).peak * d.holdTime x.final / 3600)).toNat) (.ok)))
  ∧ (∀ (s : State) (c : Ctx) (d : Dev) (p i : Nat) (image : Bytes) (clear : Bool) (x : SaveSlot), ready s.dev c.ring false (some 1) →
      d = fetched s.dev c.ring → (p < 16 ∧ resvSet nrgResv image = false) → ((fieldAt image 0 1).testBit 2 = true ∧
      (nrgEntryOf image).fits = true) → ((d.point p).ent = none ∧ d.latestSave p = some (i, x) ∧
      x.defCrc ≠ (nrgEntryOf image).defCrc) →
      exec (.nrgSet c p image clear) s = .next (served s c (if clear then (d.beginPoint p (nrgEntryOf image) (List.replicate 16 0) 0 0
      32).event .nrgCleared p else d) (if clear then .ok else .done sBusy 0)))
  ∧ (∀ (s : State) (c : Ctx) (d : Dev) (p : Nat) (image : Bytes) (clear : Bool), ready s.dev c.ring false (some 1) → d = fetched s.dev
      c.ring → (p < 16 ∧ resvSet nrgResv image = false) → (nrgEntryOf image).fits = false → exec (.nrgSet c p image clear) s = .next
      (served s c d (.done sRange 0)))
  ∧ (∀ (s : State) (c : Ctx) (d : Dev) (p : Nat) (image : Bytes) (clear : Bool) (e : NrgEntry), ready s.dev c.ring false (some 1) → d =
      fetched s.dev c.ring → (p < 16 ∧ resvSet nrgResv image = false) → ((fieldAt image 0 1).testBit 2 = false ∧ (nrgEntryOf image).fits =
      true) → (d.point p).ent = some e → exec (.nrgSet c p image clear) s = .next (served s c (((((if d.draw.1 % 2 = 0 then
      (d.draw.2.startSave false (p, e)).commitSave p else (d.draw.2.startSave false (p, e)).failSave p).modPoint p (fun _ => {})).setRegN
      (Reg.NRG_PTn_STAT p) 0).setFbit Fld.NRG_STATUS_VALID p false)) (.ok)))
  ∧ (∀ (s : State) (c : Ctx) (d : Dev) (pin point idx weight width : Nat) (en : Bool), ready s.dev c.ring false (some 1) →
      d = fetched s.dev c.ring → (pin < 4 ∧ point < 16 ∧ idx < 16 ∧ (d.point point).ent.isSome = true) → (65536 ≤ weight ∧
      weight < 2 ^ 64 ∧ 0 < width ∧ width < 65536) →
      exec (.nrgPulseSet c pin point idx weight width en) s = .next (served s c (d.modPin pin (fun p =>
      { p with en := en, point := point, idx := idx, weight := weight, width := width, residue := 0, jobs := p.jobs.filter (fun j : PulseJob => !j.times.isEmpty || decide (0 < j.carry)) ++ [(⟨width, [], 0⟩ : PulseJob)] })) (.ok)))
  ∧ (∀ (s : State) (c : Ctx) (d : Dev) (pin point idx weight width : Nat) (en : Bool), ready s.dev c.ring false (some 1) →
      d = fetched s.dev c.ring → (3 < pin ∨ 15 < point ∨ 15 < idx ∨ (d.point point).ent = none ∨ weight < 65536 ∨ 2 ^ 64 ≤ weight ∨
      width = 0 ∨ 65535 < width) → exec (.nrgPulseSet c pin point idx weight width en) s = .next (served s c d (.done sRange 0)))
  ∧ (∀ (s : State) (c : Ctx) (d : Dev) (mask : Nat) (latched : Bool) (buf : HostBuf), ready s.dev c.ring false (some 1) →
      d = fetched s.dev c.ring → exec (.nrgRead c mask latched buf) s = .next (served s c d (if buf.len < 160 * (bitsOf 16 mask).length
      then .done sRange 0 else .block ((bitsOf 16 mask).flatMap (d.nrgBlock latched)) (some buf.addr))))
  ∧ (∀ (s : State) (c : Ctx) (d : Dev) (mask : Nat), ready s.dev c.ring false (some 1) → d = fetched s.dev c.ring →
      exec (.nrgAck c mask) s = .next (served s c ((bitsOf 16 mask).foldl (fun x p => x.setRegN (Reg.NRG_PTn_STAT p) (x.regN
      (Reg.NRG_PTn_STAT p) % 2)) d) (.ok)))

/-- The cyclic program and its stations: boundaries, execution, output writes, overruns, faults, replies and saves. What the program
computes is an operand (log 69); what follows a halt is the model's reading (log 70). Rests on R293, R299, R300, R302, R303, R304, R310,
R311, R317, R320, R321, R323; the statement is derived. -/
def Obligations.CycleEventsTakeEffect : Prop :=
  (∀ (s : State) (dt : Nat) (d : Dev) (p : Program), d = later s.dev dt → d.program = some p → (d.cyc.outputsOn = true ∧
      d.boundaryDue p.period = true) → (d.cyc.running = true ∧ d.cyc.stopReq = none ∧ d.cyc.late = false ∧ d.switchDue = none) → ∃ t,
      exec (.cycleBoundary dt) s = .next t ∧ moves s dt [.regs, .hif, .cyc, .snt] (fun o => eventReg o ∨ o / 0x1000 ∈ [0x0c1]) t ∧
      t.dev.cyc.boundary = d.boundaryNow p.period ∧ t.dev.cyc.nextBoundary = d.boundaryNow p.period + p.period ∧
      t.dev.cyc.lastRead = some (d.boundaryNow p.period * 250000) ∧ t.dev.cyc.executing = true ∧ t.dev.cyc.execDone = false ∧
      t.dev.cyc.outPending = true ∧ t.dev.cyc.outs = d.cyc.outs)
  ∧ (∀ (s : State) (dt : Nat) (d : Dev) (p : Program), d = later s.dev dt → d.program = some p → (d.cyc.outputsOn = true ∧
      d.boundaryDue p.period = true) → (d.cyc.running = true ∧ d.cyc.stopReq = some 0) → ∃ t, exec (.cycleBoundary dt) s = .next t ∧
      moves s dt [.regs, .hif, .cyc] (fun o => signalReg o ∨ o ∈ [Reg.CYC_STATUS, Reg.RIO_ONLINE, Reg.RIO_FAILSAFE]) t ∧
      t.dev.cyc.running = false ∧ t.dev.cyc.stopReq = none ∧ t.dev.fld Fld.CYC_STATUS_STATE = 0 ∧ t.dev.cyc.outs = d.cyc.outs ∧
      t.dev.cyc.failsafe = d.cyc.failsafe)
  ∧ (∀ (s : State) (dt : Nat) (d : Dev) (p q : Program) (init : Bool), d = later s.dev dt → (d.program = some p ∧ d.otherProgram = some q)
      → (d.cyc.outputsOn = true ∧ d.boundaryDue p.period = true) → (d.cyc.running = true ∧ d.cyc.stopReq = none ∧ (d.cyc.late = false ∨
      (d.cyc.skipped = true ∧ d.cyc.execDone = true)) ∧ d.switchDue = some init) → ∃ t, exec (.cycleBoundary dt) s = .next t ∧ moves s dt
      [.regs, .hif, .cyc, .snt] (fun o => eventReg o ∨ o / 0x1000 ∈ [0x0c1] ∨ o ∈ [Reg.CYC_STATUS, Reg.CYC_PROG_ID_LO, Reg.CYC_PROG_ID_HI,
      Reg.CYC_EXCHANGES]) t ∧ t.dev.program = some q ∧ t.dev.regN Reg.CYC_EXCHANGES = (d.regN Reg.CYC_EXCHANGES + 1) % 2 ^ 32 ∧
      t.dev.cyc.outs = d.cyc.outs ∧ t.dev.cyc.switch = none)
  ∧ (∀ (s : State) (dt : Nat) (d : Dev) (w r : List (Nat × Bytes)), d = later s.dev dt → (d.cyc.running = true ∧ d.cyc.executing = true ∧
      d.cyc.execDone = false) → ∃ t, exec (.cycleExecDone dt w r) s = .next t ∧ moves s dt [.regs,
      .cyc] (fun o => o ∈ [Reg.CYC_CYCLES_LO, Reg.CYC_CYCLES_HI, Reg.CYC_EXEC]) t ∧
      t.dev.cyc.work = w.foldl (fun m x => Ram.write workSize m x.1 x.2) d.cyc.work ∧
      t.dev.cyc.retained = r.foldl (fun m x => Ram.write retSize m x.1 x.2) d.cyc.retained ∧ t.dev.cyc.execDone = true ∧
      t.dev.reg64 Reg.CYC_CYCLES_LO = (d.reg64 Reg.CYC_CYCLES_LO + 1) % 2 ^ 64)
  ∧ (∀ (s : State) (dt carrier : Nat) (d : Dev) (p : Program), d = later s.dev dt → (d.program = some p ∧ d.outDue p = true) →
      (d.cyc.outputsOn = true ∧ d.cyc.outPending = true) → (d.cyc.running = true ∧ d.cyc.late = false ∧ d.cyc.execDone = true) → ∃ t,
      exec (.outputWrite dt carrier) s = .next t ∧ moves s dt [.regs, .hif, .cyc,
      .net] (fun o => signalReg o ∨ o / 0x1000 ∈ [0x0e1] ∨ o ∈ [Reg.FUM_CYC_FLAGS, Reg.RIO_OUT_LATE]) t ∧
      t.dev.cyc.outs = (List.range 32).map (fun st => fieldAt (Ram.read d.cyc.work 65536 260) (8 * st) 8) ∧
      t.dev.regN Reg.FUM_CYC_FLAGS = fieldAt (Ram.read d.cyc.work 65536 260) 256 4 ∧ t.dev.cyc.outPending = false)
  ∧ (∀ (s : State) (dt carrier : Nat) (d : Dev) (p : Program), d = later s.dev dt → (d.program = some p ∧ d.outDue p = true) →
      (d.cyc.outputsOn = true ∧ d.cyc.outPending = true) → (d.cyc.running = true ∧ d.cyc.late = false ∧ d.cyc.execDone = false) →
      d.cyc.overruns + 1 < d.fld Fld.CYC_CFG_OVR_MAX → ∃ t, exec (.outputWrite dt carrier) s = .next t ∧ moves s dt [.regs, .hif, .cyc,
      .net, .snt] (fun o => eventReg o ∨ o / 0x1000 ∈ [0x0e1] ∨ o ∈ [Reg.CYC_OVERRUN, Reg.RIO_OUT_LATE]) t ∧ t.dev.cyc.late = true ∧
      t.dev.cyc.overruns = d.cyc.overruns + 1 ∧ t.dev.regN Reg.CYC_OVERRUN = (d.regN Reg.CYC_OVERRUN + 1) % 2 ^ 32 ∧
      t.dev.cyc.outs = d.cyc.outs)
  ∧ (∀ (s : State) (dt : Nat) (d : Dev), d = later s.dev dt → d.cycFaultDue = true → ∃ t, exec (.cycFault dt) s = .next t ∧
      moves s dt [.regs, .hif, .cyc, .snt] (fun o => eventReg o ∨ o ∈ [Reg.FUM_CYC_FLAGS, Reg.CYC_STATUS]) t ∧
      t.dev.fld Fld.CYC_STATUS_STATE = 2 ∧ t.dev.cyc.running = false ∧ t.dev.cyc.failsafe = true ∧ t.dev.regN Reg.FUM_CYC_FLAGS = 0)
  ∧ (∀ (s : State) (dt : Nat) (d : Dev), d = later s.dev dt → (d.cyc.running = true ∧ d.cyc.executing = true) → (d.saf.queue.length < 16 ∧
      d.saf.queue.all (fun e => decide (e.cls ≠ eLockstep)) = true) → ∃ t, exec (.lockstepMismatch dt) s = .next t ∧ moves s dt [.regs,
      .hif, .cyc, .saf, .snt] (fun o => eventReg o ∨ o ∈ [Reg.FUM_CYC_FLAGS, Reg.FUM_STATUS, Reg.CYC_LOCKSTEP, Reg.CYC_STATUS,
      Reg.SAF_ERRORS, Reg.SAF_STATUS]) t ∧ t.dev.fld Fld.CYC_STATUS_STATE = 2 ∧ t.dev.cyc.running = false ∧ t.dev.cyc.failsafe = true ∧
      t.dev.regN Reg.CYC_LOCKSTEP = (d.regN Reg.CYC_LOCKSTEP + 1) % 2 ^ 32 ∧ t.dev.saf.queue.length = d.saf.queue.length + 1)
  ∧ (∀ (s : State) (dt g : Nat) (d : Dev) (x : FieldTx), d = later s.dev dt → (d.field g).tx = some x → (x.attempts = 0 ∧
      x.outAt + 200000 ≤ d.up) → ∃ t, exec (.outputFrameLate dt g) s = .next t ∧ moves s dt [.regs,
      .net] (fun o => o ∈ [Reg.RIO_OUT_LATE]) t ∧ (t.dev.field g).tx = none ∧
      t.dev.regN Reg.RIO_OUT_LATE = (d.regN Reg.RIO_OUT_LATE + 1) % 2 ^ 32)
  ∧ (∀ (s : State) (dt g : Nat) (b : Bytes) (d : Dev) (n : Nat) (x : StationSt) (e : StationEntry), d = later s.dev dt → (28 ≤ b.length ∧
      slice b 0 1 = [2] ∧ beNat (slice b 24 4) = crc32 (b.take 24)) → (d.cyc.outCycle[g]?).join = some (beNat (slice b 4 4)) →
      (d.cyc.stations.find? (fun y => y.2.entry.any (fun e => decide (e.seg = g ∧ e.addr = beNat (slice b 1 1) % 16 ∧ e.nMod = beNat
      (slice b 2 1) % 16))) = some (n, x)) → (x.entry = some e ∧ d.gNs < d.cyc.nextBoundary * 250000) → ∃ t, exec (.stationReply dt g true
      b) s = .next t ∧ moves s dt [.cyc] (fun _ => False) t ∧ ((t.dev.station n).reply.map (fun r => r.inputs)) = some (beNat (slice b 8
      8)))
  ∧ (∀ (s : State) (dt g : Nat) (b : Bytes) (d : Dev), d = later s.dev dt → ∃ t, exec (.stationReply dt g false b) s = .next t ∧
      moves s dt [.regs] (fun o => o ∈ [Reg.RIO_REPLY_BAD]) t ∧ t.dev.regN Reg.RIO_REPLY_BAD = (d.regN Reg.RIO_REPLY_BAD + 1) % 2 ^ 32)
  ∧ (∀ (s : State) (dt : Nat) (d : Dev) (x : RetCopy), d = later s.dev dt → (d.cyc.retDue = some x ∧ d.cyc.saving = none ∧ d.mramTaken
      s.key = false) → ∃ t, exec (.retainedSave dt) s = .next t ∧ moves s dt [.cyc] (fun _ => False) t ∧ ∃ i y, t.dev.cyc.saving = some
      (i, y) ∧ y.data = x.data ∧ y.header = x.header i y.commit ∧ t.dev.cyc.retDue = none)
  ∧ (∀ (s : State) (dt : Nat) (d : Dev), d = later s.dev dt → (d.cyc.saving.isSome = true ∨ d.cyc.retDue = none ∨ d.mramTaken s.key =
      true) → ∃ t, exec (.retainedSave dt) s = .next t ∧ moves s dt [] (fun _ => False) t)
  ∧ (∀ (s : State) (dt i : Nat) (d : Dev) (x : RetSlot), d = later s.dev dt → (d.cyc.saving = some (i, x) ∧ i < d.cyc.retSlots.length) →
      ∃ t, exec (.retainedSaveDone dt true) s = .next t ∧ moves s dt [.regs, .cyc] (fun o => o ∈ [Reg.CYC_RET_SAVES_LO,
      Reg.CYC_RET_SAVES_HI]) t ∧ t.dev.cyc.retSlots[i]? = some (some x) ∧ t.dev.cyc.saving = none ∧
      t.dev.reg64 Reg.CYC_RET_SAVES_LO = (d.reg64 Reg.CYC_RET_SAVES_LO + 1) % 2 ^ 64)
  ∧ (∀ (s : State) (dt i : Nat) (d : Dev) (x : RetSlot), d = later s.dev dt → d.cyc.saving = some (i, x) → ∃ t,
      exec (.retainedSaveDone dt false) s = .next t ∧ moves s dt [.regs, .cyc] (fun o => o ∈ [Reg.CYC_STATUS, Reg.CYC_RET_FAIL]) t ∧
      t.dev.cyc.retSlots = d.cyc.retSlots ∧ t.dev.cyc.saving = none ∧ t.dev.bit Fld.CYC_STATUS_RET_FAIL = true ∧
      t.dev.regN Reg.CYC_RET_FAIL = (d.regN Reg.CYC_RET_FAIL + 1) % 2 ^ 32)
  ∧ (∀ (s : State) (v : Word), (later s.dev 0).gatedAt Reg.RIO_CTRL = false → ∃ t, exec (.rioSegEnable v) s = .next t ∧
      moves s 0 [.regs] (fun o => o ∈ [Reg.RIO_CTRL]) t ∧ t.dev.fld Fld.RIO_CTRL_SEG_EN = v.toNat % 4)

/-- The commands of the cyclic logic: result and completion. The order of the statuses is the model's reading (logs 17, 71, 72, 73). Rests
on R296, R299, R312, R319, R320, R321, R324, R325, R82; the statement is derived. -/
def Obligations.CycleCommandsComplete : Prop :=
  (∀ (s : State) (c : Ctx) (d : Dev) (img : Bytes), ready s.dev c.ring false (some 2) → d = fetched s.dev c.ring → d.cyc.switch = none →
      imageAuth s.key img (d.fld Fld.CYC_CFG_KEY_SLOT) 64 124 = none →
      exec (.cycLoad c img) s = .next (served s c (d.setCodeBank (1 - d.fld Fld.CYC_STATUS_BANK) (if programFits img then some
      (programOf img) else none)) (if programFits img then .ok else .done sRange 0)))
  ∧ (∀ (s : State) (c : Ctx) (d : Dev) (img : Bytes) (st : Nat), ready s.dev c.ring false (some 2) → d = fetched s.dev c.ring →
      d.cyc.switch = none → imageAuth s.key img (d.fld Fld.CYC_CFG_KEY_SLOT) 64 124 = some st →
      exec (.cycLoad c img) s = .next (served s c ((d.setCodeBank (1 - d.fld Fld.CYC_STATUS_BANK) none).countUse (.error st)) (.done st
      0)))
  ∧ (∀ (s : State) (c : Ctx) (d : Dev) (img : Bytes) (x : Nat × Bool), ready s.dev c.ring false (some 2) → d = fetched s.dev c.ring →
      d.cyc.switch = some x → exec (.cycLoad c img) s = .next (served s c d (.done sBusy 0)))
  ∧ (∀ (s : State) (c : Ctx) (d : Dev) (d1 : Dev) (init : Bool) (p : Program), ready s.dev c.ring true (some 2) → d = fetched s.dev c.ring
      → (d.bit Fld.SAF_STATUS_SAFE = false ∧ d.cyc.running = false) → (d.program = some p ∧ p.fitsCycle d.stationsNow = true) → d.retSetup
      p init = some d1 → exec (.cycStart c init) s = .next (served s c (d1.startProgram p) (.wait .cycStart)))
  ∧ (∀ (s : State) (c : Ctx) (d : Dev) (init : Bool), ready s.dev c.ring true (some 2) → d = fetched s.dev c.ring → (d.bit
      Fld.SAF_STATUS_SAFE = true ∨ d.cyc.running = true ∨ d.program = none ∨ d.program.any (fun p : Program => !p.fitsCycle d.stationsNow
      || (d.retSetup p init).isNone) = true) → exec (.cycStart c init) s = .next (served s c d (.done (if d.bit Fld.SAF_STATUS_SAFE then
      sSafeState else if d.cyc.running then sBusy else if d.program.isNone then sNotValid else if d.program.any (fun p : Program =>
      !p.fitsCycle d.stationsNow) then sRange else sRetMismatch) 0)))
  ∧ (∀ (s : State) (c : Ctx) (d : Dev) (mode : Nat), ready s.dev c.ring true (some 2) → d = fetched s.dev c.ring → (mode ≤ 1 ∧
      d.cyc.running = true) → exec (.cycStop c mode) s = .next (served s c (d.modCyc (fun x =>
      { x with stopReq := some (max mode (x.stopReq.getD 0)) })) (.wait .cycStop)))
  ∧ (∀ (s : State) (c : Ctx) (d : Dev) (target : Nat) (init : Bool) (p q : Program), ready s.dev c.ring true (some 2) → d = fetched s.dev
      c.ring → (d.bit Fld.SAF_STATUS_SAFE = false ∧ d.waitsFor (fun w => decide (w = WaitKind.cycSwitch)) = false ∧ d.cyc.switch = none) →
      (d.otherProgram = some q ∧ q.fitsCycle d.stationsNow = true) → (d.cyc.running = true ∧ d.program = some p ∧ (init = true ∨
      p.layoutId = q.layoutId)) → exec (.cycSwitch c target init) s = .next (served s c ((d.modCyc (fun x =>
      { x with switch := some (target, init) })).setBit Fld.CYC_STATUS_SWITCH_PEND true) (.wait .cycSwitch)))
  ∧ (∀ (s : State) (c : Ctx) (d : Dev) (target : Nat) (init : Bool), ready s.dev c.ring true (some 2) → d = fetched s.dev c.ring → (d.bit
      Fld.SAF_STATUS_SAFE = true ∨ d.waitsFor (fun w => decide (w = WaitKind.cycSwitch)) = true ∨ d.cyc.switch.isSome = true ∨
      d.otherProgram = none ∨ d.otherProgram.any (fun p : Program => !p.fitsCycle d.stationsNow) = true) → exec (.cycSwitch c target init)
      s = .next (served s c d (.done (if d.bit Fld.SAF_STATUS_SAFE then sSafeState else if d.waitsFor (fun w => decide (w =
      WaitKind.cycSwitch)) || d.cyc.switch.isSome then sBusy else if d.otherProgram.isNone then sNotValid else sRange) 0)))
  ∧ (∀ (s : State) (c : Ctx) (d : Dev) (target : Nat) (p q : Program), ready s.dev c.ring true (some 2) → d = fetched s.dev c.ring →
      (d.bit Fld.SAF_STATUS_SAFE = false ∧ d.waitsFor (fun w => decide (w = WaitKind.cycSwitch)) = false ∧ d.cyc.switch = none) →
      (d.otherProgram = some q ∧ q.fitsCycle d.stationsNow = true) → (d.program = some p ∧ p.layoutId ≠ q.layoutId) → exec (.cycSwitch c
      target false) s = .next (served s c d (.done sRetMismatch 0)))
  ∧ (∀ (s : State) (c : Ctx) (d : Dev) (n : Nat) (image : Bytes) (es : List StationEntry), ready s.dev c.ring false (some 2) →
      d = fetched s.dev c.ring → es = d.cyc.stations.filterMap (fun x => if x.1 = n then none else x.2.newest) → (n < 32 ∧
      (fieldAt image 0 1).testBit 0 = true ∧ resvSet stationResv image = false ∧ (stationOf image).fits = true) →
      (es.any (fun o => decide (o.seg = (stationOf image).seg ∧ o.addr = (stationOf image).addr)) = false) →
      (d.cyc.running = false ∨ d.program.any (fun p : Program => !p.fitsCycle (stationOf image :: es)) = false) →
      exec (.rioStationSet c n image) s = .next (served s c (if d.cyc.outputsOn then d.setStation n
      { d.station n with next := some (some (stationOf image)) } else (d.setStation n
      { d.station n with next := some (some (stationOf image)) }).stationsTake) (.ok)))
  ∧ (∀ (s : State) (c : Ctx) (d : Dev) (n : Nat) (image : Bytes) (es : List StationEntry), ready s.dev c.ring false (some 2) → d = fetched
      s.dev c.ring → es = d.cyc.stations.filterMap (fun x => if x.1 = n then none else x.2.newest) → (31 < n ∨ resvSet stationResv image =
      true ∨ (stationOf image).fits = false ∨ ((fieldAt image 0 1).testBit 0 = true ∧ (es.any (fun o => decide (o.seg = (stationOf
      image).seg ∧ o.addr = (stationOf image).addr)) = true ∨ (d.cyc.running = true ∧ d.program.any (fun p : Program => !p.fitsCycle
      (stationOf image :: es)) = true)))) → exec (.rioStationSet c n image) s = .next (served s c d (.done sRange 0)))
  ∧ (∀ (s : State) (c : Ctx) (d : Dev) (n : Nat) (image : Bytes) (es : List StationEntry), ready s.dev c.ring false (some 2) → d = fetched
      s.dev c.ring → es = d.cyc.stations.filterMap (fun x => if x.1 = n then none else x.2.newest) → (n < 32 ∧ (fieldAt image 0 1).testBit
      0 = false ∧ resvSet stationResv image = false ∧ (stationOf image).fits = true) → (d.cyc.running = false ∨ d.program.any (fun p :
      Program => !p.fitsCycle es) = false) → exec (.rioStationSet c n image) s = .next (served s c (if d.cyc.outputsOn then d.setStation n
      { d.station n with next := some none } else (d.setStation n { d.station n with next := some none }).stationsTake) (.ok)))
  ∧ (∀ (s : State) (c : Ctx) (d : Dev) (buf : HostBuf), ready s.dev c.ring false (some 2) → d = fetched s.dev c.ring →
      exec (.rioRead c buf) s = .next (served s c d (if buf.len < 1024 then .done sRange 0 else .block (slice d.cyc.stationImage 0
      1024) (some buf.addr))))
  ∧ (∀ (s : State) (c : Ctx) (d : Dev) (target : Nat) (init : Bool) (q : Program), ready s.dev c.ring true (some 2) → d = fetched s.dev
      c.ring → (d.bit Fld.SAF_STATUS_SAFE = false ∧ d.waitsFor (fun w => decide (w = WaitKind.cycSwitch)) = false ∧ d.cyc.switch = none) →
      (d.otherProgram = some q ∧ q.fitsCycle d.stationsNow = true) → (d.cyc.running = false ∧ (init = true ∨ d.program.all (fun p =>
      decide (p.layoutId = q.layoutId)) = true)) → exec (.cycSwitch c target init) s = .next (served s c (d.exchange d.program q init)
      (.wait .cycSwitch)))

/-- The engines and their scheduler: dispatch, pre-emption, completion, faults, retirement, management load and trace. The offer of an item
is part of WORK_ITEM_DISPATCH (log 75); the logic processor's exception is the model's reading (log 77). That a row issues its item, the
rerun in a class with one engine, and the queue of trace records are the model's readings (logs 145, 168, 167). Rests on R329, R331, R333,
R335, R339, R340, R341, R345, R347, R348, R349, R293; the statement is derived. -/
def Obligations.EngineEventsTakeEffect : Prop :=
  (∀ (s : State) (v : Word) (d : Dev), d = later s.dev 0 → d.gatedAt Reg.SCH_TRACE_CFG = false → v.toNat.testBit 0 = true →
      d.bit Fld.RST_STATUS_DDR_READY = true →
      (d.writePlain Reg.SCH_TRACE_CFG v).layoutCrt + d.fld Fld.GEY_CFG_BUF_SIZE + (d.writePlain Reg.SCH_TRACE_CFG v).fld
      Fld.SCH_TRACE_CFG_BUF_SIZE ≤ d.ddrMib → ∃ t, exec (.schTraceEnable v) s = .next t ∧
      moves s 0 [.regs] (fun o => o ∈ [Reg.SCH_TRACE_CFG, Reg.SCH_STATUS]) t ∧ t.dev.bit Fld.SCH_TRACE_CFG_EN = true ∧
      t.dev.fld Fld.SCH_TRACE_CFG_CLASS_MASK = v.toNat / 2 % 16)
  ∧ (∀ (s : State) (v : Word) (d : Dev), d = later s.dev 0 → d.gatedAt Reg.SCH_TRACE_CFG = false → v.toNat.testBit 0 = true →
      (d.bit Fld.SCH_TRACE_CFG_EN = false ∧ d.bit Fld.RST_STATUS_DDR_READY = false) → ∃ t, exec (.schTraceEnable v) s = .next t ∧
      moves s 0 [.regs] (fun o => o ∈ [Reg.SCH_TRACE_CFG, Reg.SCH_STATUS]) t ∧ t.dev.bit Fld.SCH_TRACE_CFG_EN = false ∧
      t.dev.bit Fld.SCH_STATUS_CFG_ERR = true)
  ∧ (∀ (s : State) (dt cls e : Nat) (d : Dev) (q : QItem), d = later s.dev dt → (d.nextItem cls (d.freeEngines cls) = some q ∧
      d.nextResume cls (d.freeEngines cls) = none) → (d.freeEngines cls).find? (d.mayRun q) = some e → (d.bit Fld.SCH_CFG_PE_PREFETCH =
      false ∧ d.sch.refused = []) → ∃ t, exec (.workItemDispatch dt none cls) s = .next t ∧ moves s dt [.regs, .sch] (fun o => o ∈
      [Reg.SCH_DISPATCH_LO, Reg.SCH_DISPATCH_HI, Reg.SCH_STATUS, Reg.SCH_TRACE_LOST]) t ∧ t.dev.sch.queue = d.sch.queue.filter (fun x =>
      decide (x.order ≠ q.order)) ∧ ∃ r, t.dev.sch.service = d.sch.service ++ [r] ∧ r.q = q ∧ r.engine = e ∧ r.preempted = false ∧
      t.dev.reg64 Reg.SCH_DISPATCH_LO = (d.reg64 Reg.SCH_DISPATCH_LO + 1) % 2 ^ 64)
  ∧ (∀ (s : State) (dt cls : Nat) (d : Dev) (i j : WorkItem), d = later s.dev dt → (d.freeEngines cls = [] ∧ d.itemOf i.origin i.tag i.arg
      = some j ∧ d.hasEntry j = true) → ∃ t, exec (.workItemDispatch dt (some i) cls) s = .next t ∧ moves s dt [.regs, .sch] (fun o => o ∈
      [Reg.SCH_STATUS]) t ∧ t.dev.sch.queue = d.sch.queue ++ [{ item := j, order := d.sch.nextOrder }])
  ∧ (∀ (s : State) (dt cls : Nat) (d : Dev) (i j : WorkItem), d = later s.dev dt → (d.freeEngines cls = [] ∧ d.itemOf i.origin i.tag i.arg
      = some j ∧ d.hasEntry j = false) → ∃ t, exec (.workItemDispatch dt (some i) cls) s = .next t ∧ moves s dt [.regs, .sch] (fun o => o
      ∈ [Reg.SCH_REFUSED, Reg.SCH_TRACE_LOST]) t ∧ t.dev.sch.queue = d.sch.queue ∧ (j.cls = 3 → Out.taskAnswer j.origin j.tag sBusy ∈
      t.dev.out ∧ t.dev.sch.refused = d.sch.refused) ∧ (j.cls ≠ 3 → t.dev.sch.refused = d.sch.refused ++ [j]) ∧ t.dev.regN Reg.SCH_REFUSED
      = (d.regN Reg.SCH_REFUSED + 1) % 2 ^ 32)
  ∧ (∀ (s : State) (dt cls : Nat) (d : Dev) (q : QItem) (v : Running), d = later s.dev dt → (d.freeEngines cls = [] ∧ d.nextItem cls
      (d.enginesOf cls) = some q ∧ d.victim cls q = some v) → v.q.item.prio < q.item.prio → (d.bit Fld.SCH_CFG_PE_PREFETCH = false ∧
      d.sch.refused = []) → ∃ t, exec (.workItemPreempt dt cls) s = .next t ∧ moves s dt [.regs, .sch] (fun o => o ∈ [Reg.SCH_DISPATCH_LO,
      Reg.SCH_DISPATCH_HI, Reg.SCH_PREEMPT_LO, Reg.SCH_PREEMPT_HI, Reg.SCH_STATUS, Reg.SCH_TRACE_LOST]) t ∧ t.dev.sch.queue =
      d.sch.queue.filter (fun x => decide (x.order ≠ q.order)) ∧ ∃ r ∈ t.dev.sch.service, r.q = q ∧ r.engine = v.engine ∧ r.preempted =
      false ∧ ∃ r ∈ t.dev.sch.service, r.q.order = v.q.order ∧ r.preempted = true ∧ t.dev.reg64 Reg.SCH_PREEMPT_LO = (d.reg64
      Reg.SCH_PREEMPT_LO + 1) % 2 ^ 64)
  ∧ (∀ (s : State) (dt e ecc : Nat) (d : Dev) (r : Running), d = later s.dev dt → (d.runningOn e = some r ∧ r.q.item.origin ∉ [1, 3, 4, 5,
      6, 7] ∧ r.q.avoid = none) → (d.sch.slots.find r.engine = none ∧ (d.sch.switching[bankIx r.q.item.cls]?).join = none ) → ∃ t, exec
      (.workItemComplete dt e ecc) s = .next t ∧ moves s dt [.regs, .sch] (fun o => o ∈ [Reg.SCH_STATUS, Reg.SCH_TRACE_LOST]) t ∧
      t.dev.sch.service = d.sch.service.filter (fun x => decide (x.q.order ≠ r.q.order)) ∧ t.dev.sch.queue = d.sch.queue)
  ∧ (∀ (s : State) (dt e : Nat) (d : Dev) (r : Running), d = later s.dev dt → (d.runningOn e = some r ∧ r.q.item.cls ≠ 2 ∧ r.q.avoid =
      none) → d.overBudget r = true → (d.sch.slots.find r.engine = none ∧ (d.sch.switching[bankIx r.q.item.cls]?).join = none) → ∃ t, exec
      (.budgetOverrun dt e) s = .next t ∧ moves s dt [.regs, .sch] (fun o => o ∈ [Reg.SCH_STATUS, Reg.SCH_BUDGET, Reg.SCH_TRACE_LOST]) t ∧
      t.dev.sch.service = d.sch.service.filter (fun x => decide (x.q.order ≠ r.q.order)) ∧ t.dev.sch.queue =
      { r.q with avoid := some r.engine, overran := some d.up, ranNs := 0 } :: d.sch.queue ∧ t.dev.regN Reg.SCH_BUDGET = (d.regN
      Reg.SCH_BUDGET + 1) % 2 ^ 32)
  ∧ (∀ (s : State) (dt e : Nat) (d : Dev) (r : Running), d = later s.dev dt → (e ≠ 20 ∧ d.runningOn e = some r ∧ r.q.item.cls ≠ 2 ∧
      r.q.avoid = none ∧ d.fallback r.q.item.cls = none) → d.sch.slots.find r.engine = none → ∃ t, exec (.imageException dt e) s = .next t
      ∧ moves s dt [.regs, .sch] (fun o => o ∈ [Reg.SCH_STATUS, Reg.ENG_EXC, Reg.SCH_TRACE_LOST]) t ∧ t.dev.sch.service =
      d.sch.service.filter (fun x => decide (x.q.order ≠ r.q.order)) ∧ t.dev.sch.queue =
      { r.q with avoid := some r.engine, overran := none, ranNs := 0 } :: d.sch.queue ∧ t.dev.regN Reg.ENG_EXC = (d.regN Reg.ENG_EXC + 1)
      % 2 ^ 32)
  ∧ (∀ (s : State) (dt : Nat) (d : Dev), d = later s.dev dt → (d.cyc.running = true ∧ d.cyc.executing = true ∧ d.runningOn 20 = none) →
      ∃ t, exec (.imageException dt 20) s = .next t ∧ moves s dt [.regs, .hif, .cyc,
      .snt] (fun o => eventReg o ∨ o ∈ [Reg.FUM_CYC_FLAGS, Reg.CYC_STATUS, Reg.ENG_EXC]) t ∧ t.dev.fld Fld.CYC_STATUS_STATE = 2 ∧
      t.dev.cyc.running = false ∧ t.dev.cyc.failsafe = true)
  ∧ (∀ (s : State) (dt e old : Nat) (d : Dev) (r : Running), d = later s.dev dt → (d.runningOn e = some r ∧ r.q.item.cls ∈ [0, 1, 3] ∧ old
      < 2) → (d.fallback r.q.item.cls = some old ∧ r.bank ≠ old ∧ d.sch.slots.find r.engine = none) → ∃ t, exec (.imageFault dt e) s =
      .next t ∧ moves s dt [.regs, .hif, .sch, .snt] (fun o => eventReg o ∨ o ∈ [Reg.ENG_BANK, Reg.ENG_STATUS, Reg.ENG_EXC,
      Reg.SCH_STATUS, Reg.SCH_TRACE_LOST]) t ∧ t.dev.bankOf r.q.item.cls = old ∧ t.dev.sch.queue = { r.q with ranNs := 0 } :: d.sch.queue
      ∧ (t.dev.sch.switching[bankIx r.q.item.cls]?).join = none ∧ t.dev.regN Reg.ENG_EXC = (d.regN Reg.ENG_EXC + 1) % 2 ^ 32)
  ∧ (∀ (s : State) (dt e : Nat) (d : Dev), d = later s.dev dt → (e < 16 ∧ d.fbit Fld.ENG_RETIRED_ENGINE e = false) → (d.fbit
      Fld.ENG_STATUS_PE_ACTIVE e = true ∧ d.bit Fld.ENG_STATUS_NO_SPARE = false ∧ d.sch.sparePending = false ∧ 0 < d.deCount ∧
      (d.sch.switching[0]?).join = none) → ∃ t, exec (.engineRetire dt e 2) s = .next t ∧ moves s dt [.regs, .hif, .sch, .snt] (fun o =>
      eventReg o ∨ o ∈ [Reg.ENG_STATUS, Reg.ENG_RETIRED, Reg.ENG_RETIRES, Reg.FUM_STATUS, Reg.SCH_STATUS, Reg.SCH_TRACE_LOST]) t ∧
      t.dev.fbit Fld.ENG_RETIRED_ENGINE e = true ∧ t.dev.fbit Fld.ENG_STATUS_PE_ACTIVE e = false ∧ t.dev.sch.sparePending = true ∧
      t.dev.sch.service = d.sch.service.filter (fun r => decide (r.engine ≠ e)) ∧ t.dev.regN Reg.ENG_RETIRES = (d.regN Reg.ENG_RETIRES +
      1) % 2 ^ 32)
  ∧ (∀ (s : State) (dt e : Nat) (d : Dev), d = later s.dev dt → (e < 16 ∧ d.fbit Fld.ENG_RETIRED_ENGINE e = false) → d.saf.queue = [] →
      (d.fbit Fld.ENG_STATUS_PE_ACTIVE e = true ∧ d.bit Fld.ENG_STATUS_NO_SPARE = false ∧ d.sch.sparePending = false ∧ 0 < d.deCount ∧
      (d.sch.switching[0]?).join = none) → ∃ t, exec (.engineRetire dt e 0) s = .next t ∧ moves s dt [.regs, .hif, .sch, .snt, .saf] (fun
      o => eventReg o ∨ o ∈ [Reg.SAF_ERRORS, Reg.SAF_STATUS, Reg.ENG_STATUS, Reg.ENG_RETIRED, Reg.ENG_RETIRES, Reg.FUM_STATUS,
      Reg.SCH_STATUS, Reg.SCH_TRACE_LOST]) t ∧ t.dev.fbit Fld.ENG_RETIRED_ENGINE e = true ∧ t.dev.fbit Fld.ENG_STATUS_PE_ACTIVE e = false
      ∧ t.dev.sch.sparePending = true ∧ t.dev.sch.service = d.sch.service.filter (fun r => decide (r.engine ≠ e)) ∧ t.dev.regN
      Reg.ENG_RETIRES = (d.regN Reg.ENG_RETIRES + 1) % 2 ^ 32 ∧ t.dev.saf.queue.map (fun x => (x.cls, x.level, x.index)) = [(eMemUncorr,
      1, 5)])
  ∧ (∀ (s : State) (dt : Nat) (d : Dev), d = later s.dev dt → d.sch.sparePending = true → ∃ t, exec (.spareJoin dt) s = .next t ∧
      moves s dt [.regs, .sch] (fun o => o ∈ [Reg.ENG_STATUS]) t ∧
      t.dev.fbit Fld.ENG_STATUS_PE_ACTIVE (d.fld Fld.ENG_STATUS_SPARE) = true ∧ t.dev.bit Fld.ENG_STATUS_NO_SPARE = true ∧
      t.dev.sch.sparePending = false)
  ∧ (∀ (s : State) (dt : Nat) (d : Dev), d = later s.dev dt → ∃ t, exec (.mcHeartbeat dt) s = .next t ∧ moves s dt [.regs,
      .saf] (fun o => o ∈ [Reg.SAF_STATUS]) t ∧ t.dev.saf.hbAt = d.up ∧ t.dev.bit Fld.SAF_STATUS_MGMT_STALL = false)
  ∧ (∀ (s : State) (dt pct : Nat) (d : Dev), d = later s.dev dt → (d.fld Fld.SCH_MC_LOAD_DEFER_HI ≤ pct ∧
      d.bit Fld.SCH_MC_LOAD_DEFER = false) → ∃ t, exec (.mcDefer dt pct) s = .next t ∧ moves s dt [.regs,
      .sch] (fun o => o ∈ [Reg.SCH_MC_LOAD]) t ∧ t.dev.bit Fld.SCH_MC_LOAD_DEFER = true ∧ t.dev.fld Fld.SCH_MC_LOAD_PCT = min 100 pct ∧
      t.dev.sch.deferred = (List.range 4).map (fun k => (k, d.up, false)))
  ∧ (∀ (s : State) (dt pct : Nat) (d : Dev), d = later s.dev dt → (pct < d.fld Fld.SCH_MC_LOAD_DEFER_LO ∧
      pct < d.fld Fld.SCH_MC_LOAD_DEFER_HI) → ∃ t, exec (.mcDefer dt pct) s = .next t ∧ moves s dt [.regs,
      .sch] (fun o => o ∈ [Reg.SCH_MC_LOAD]) t ∧ t.dev.bit Fld.SCH_MC_LOAD_DEFER = false ∧ t.dev.sch.deferred = [])
  ∧ (∀ (s : State) (dt task since : Nat) (d : Dev), d = later s.dev dt → d.sch.deferred.find? (fun x => decide (x.1 = task)) = some (task,
      since, false) → since + 60000000000 < d.up → ∃ t, exec (.mcDeferLong dt task) s = .next t ∧ moves s dt [.regs, .hif, .sch,
      .snt] (fun o => eventReg o ∨ o ∈ [Reg.SCH_MC_DEFER_LONG]) t ∧
      t.dev.regN Reg.SCH_MC_DEFER_LONG = (d.regN Reg.SCH_MC_DEFER_LONG + 1) % 2 ^ 32)
  ∧ (∀ (s : State) (dt cls : Nat) (d : Dev) (i : WorkItem), d = later s.dev dt → (d.freeEngines cls = [] ∧ d.itemOf i.origin i.tag i.arg =
      none) → ∃ t, exec (.workItemDispatch dt (some i) cls) s = .next t ∧ moves s dt [] (fun _ => False) t)
  ∧ (∀ (s : State) (dt e ecc : Nat) (d x : Dev) (r : Running), d = later s.dev dt → (d.runningOn e = some r ∧ x = d.complete' r) → ∃ t,
      exec (.workItemComplete dt e ecc) s = .next t ∧ t.key = s.key ∧ t.pending = s.pending ∧ (r.q.item.origin = 0x01 → t.dev =
      x.convertNext r.q.item.tag ecc) ∧ (r.q.item.origin = 0x04 → t.dev = Dev.sessPublish s.key x r.q.item.tag) ∧ (r.q.item.origin = 0x05
      → t.dev = x.trackUpdate) ∧ (r.q.item.origin = 0x06 → t.dev = x.ssoUpdate) ∧ (r.q.item.origin = 0x07 → t.dev = x.energyRanking))
  ∧ (∀ (d : Dev) (origin tag : Nat) (i : WorkItem), d.itemOf origin tag (Config.workAddr origin tag).toNat = some i → d.enginesOf i.cls ≠
      [] → (d.sch.queue = [] ∧ d.sch.refused = [] ∧ d.sch.service = [] ∧ d.sch.slots = []) → (d.serve origin tag).2 = true ∧ (d.serve
      origin tag).1.sch.service = [])

/-- The commands of the engines and the scheduler: result and completion. The status for an empty bank and the order of the statuses are the
model's reading (log 76). SCH_TRACE_READ finds the records on the die too (log 74). Rests on R342, R343, R344, R346, R349, R352; the
statement is derived. -/
def Obligations.EngineCommandsComplete : Prop :=
  (∀ (s : State) (c : Ctx) (d : Dev) (img : Bytes) (cls : Nat), ready s.dev c.ring false none → d = fetched s.dev c.ring →
      imageAuth s.key img (d.fld Fld.ENG_CFG_KEY_SLOT) 24 60 = none → (engHeaderOk img = true ∧ cls = leNat (slice img 4 1) % 4) →
      (d.bit Fld.SCH_CFG_PE_PREFETCH = false ∨ cls ≠ 0) → (d.sch.switching[bankIx cls]?).join = none →
      exec (.engImgLoad c img) s = .next (served s c (d.modSch (fun x =>
      { x with banks := modifyAt d.sch.banks (bankIx cls) (fun l => modifyAt l (1 - d.bankOf cls) (fun _ => some { imageId := leNat (slice img 16 8), layout := leNat (slice img 12 4), prefetchOk := decide (leNat (slice img 4 1) / 4 % 2 = 1), code := img.drop 64 })) })) (.ok)))
  ∧ (∀ (s : State) (c : Ctx) (d : Dev) (img : Bytes) (st : Nat), ready s.dev c.ring false none → d = fetched s.dev c.ring →
      imageAuth s.key img (d.fld Fld.ENG_CFG_KEY_SLOT) 24 60 = some st →
      exec (.engImgLoad c img) s = .next (served s c (d.countUse (.error st)) (.done st 0)))
  ∧ (∀ (s : State) (c : Ctx) (d : Dev) (img : Bytes), ready s.dev c.ring false none → d = fetched s.dev c.ring →
      imageAuth s.key img (d.fld Fld.ENG_CFG_KEY_SLOT) 24 60 = none →
      (engHeaderOk img = false ∨ (d.sch.switching[bankIx (leNat (slice img 4 1) % 4)]?).join.isSome = true) →
      (engHeaderOk img = false ∨ d.bit Fld.SCH_CFG_PE_PREFETCH = false) →
      exec (.engImgLoad c img) s = .next (served s c d (.done (if engHeaderOk img then sBusy else sRange) 0)))
  ∧ (∀ (s : State) (c : Ctx) (d d1 : Dev) (cls : Nat) (im : EngImage), ready s.dev c.ring true none → d = fetched s.dev c.ring → (cls = 0
      ∨ cls = 1 ∨ cls = 3) → (d.bit Fld.SAF_STATUS_SAFE = false ∧ (d.sch.switching[bankIx cls]?).join = none) → d.image cls (1 - d.bankOf
      cls) = some im → (cls = 0 ∨ im.layout = ((d.image cls (d.bankOf cls)).map (fun i => i.layout)).getD 0) → d1 = (d.modSch (fun x =>
      { x with switching := modifyAt d.sch.switching (bankIx cls) (fun _ => some ⟨d.bankOf cls, d.up⟩) })).setSwitching cls true → exec
      (.engSwitch c cls) s = .next (if d.sch.service.any (fun r => decide (r.q.item.cls = cls) && decide (r.bank = d.bankOf cls)) then
      served s c d1 (.wait (.engSwitch cls)) else served s c (d1.finishSwitch cls) (.ok)))
  ∧ (∀ (s : State) (c : Ctx) (d : Dev) (cls : Nat) (im : EngImage), d = later s.dev 0 → ready s.dev c.ring true none → (cls = 0 ∨ cls = 1
      ∨ cls = 3) → (d.bit Fld.SAF_STATUS_SAFE = false ∧ (d.sch.switching[bankIx cls]?).join = none ∧ d.sch.switching.length = 3) → d.image
      cls (1 - d.bankOf cls) = some im → (cls = 0 ∨ im.layout = ((d.image cls (d.bankOf cls)).map (fun i => i.layout)).getD 0) →
      d.sch.service.any (fun r => decide (r.q.item.cls = cls)) = false → ∃ t, exec (.engSwitch c cls) s = .next t ∧ completes d c.ring sOk
      0 t.dev ∧ t.dev.bankOf cls = 1 - d.bankOf cls ∧ (t.dev.sch.switching[bankIx cls]?).join = none ∧ t.dev.regN Reg.ENG_SWITCHES =
      (d.regN Reg.ENG_SWITCHES + 1) % 2 ^ 32)
  ∧ (∀ (s : State) (c : Ctx) (d : Dev) (cls : Nat), ready s.dev c.ring true none → d = fetched s.dev c.ring →
      (cls = 2 ∨ 3 < cls ∨ d.bit Fld.SAF_STATUS_SAFE = true ∨ (d.sch.switching[bankIx cls]?).join.isSome = true ∨ (d.image cls (1 -
      d.bankOf cls)) = none) → exec (.engSwitch c cls) s = .next (served s c d (.done (if cls = 2 ∨ 3 < cls then sRange else if d.bit
      Fld.SAF_STATUS_SAFE then sSafeState else if (d.sch.switching[bankIx cls]?).join.isSome then sBusy else sNotValid) 0)))
  ∧ (∀ (s : State) (c : Ctx) (d : Dev) (cls : Nat) (im : EngImage), ready s.dev c.ring true none → d = fetched s.dev c.ring →
      (cls = 1 ∨ cls = 3) → (d.bit Fld.SAF_STATUS_SAFE = false ∧ (d.sch.switching[bankIx cls]?).join = none) →
      (d.image cls (1 - d.bankOf cls) = some im ∧ im.layout ≠ ((d.image cls (d.bankOf cls)).map (fun i => i.layout)).getD 0) →
      exec (.engSwitch c cls) s = .next (served s c d (.done sRange 0)))
  ∧ (∀ (s : State) (c : Ctx) (d x : Dev) (first : Nat) (buf : HostBuf) (l : List Bytes), ready s.dev c.ring false none → d = fetched s.dev
      c.ring → (first < 2 ^ 32 ∧ x = d.drainTrace ∧ l = traceFrom first x.sch.trace) → exec (.schTraceRead c first buf) s = .next (served
      s c x (if l.isEmpty then .done sNotValid 0 else if leNat (slice (l.headD []) 24 4) ≠ first then .done sLost 0 else .block (l.take
      (buf.len / 32)).flatten (some buf.addr))))

/-- The Ethernet ports: enable, reception, links, transmission, preemption, pauses and SFP modules. The order of a frame's filters and the
times of the line are the model's reading (logs 79, 78). Rests on R355, R357, R358, R359, R361, R362, R364, R365, R383, R384, R386; the
statement is derived. -/
def Obligations.PortEventsTakeEffect : Prop :=
  (∀ (s : State) (p : Nat) (v : Word) (d : Dev), d = later s.dev 0 → (p < 4 ∧ d.gatedAt (Reg.NET_Pp_CFG p) = false) → (v.toNat.testBit 0 =
      true ∧ d.bit (Fld.NET_Pp_CFG_EN p) = false ∧ d.bit (Fld.NET_Pp_STATUS_LINK p) = false) → d.macOfPort p ≠ 0 → ∃ t, exec
      (.netPortEnable p v) s = .next t ∧ moves s 0 [.regs, .hif, .net, .snt] (fun o => eventReg o ∨ o ∈ [Reg.NET_Pp_CFG p,
      Reg.NET_Pp_STATUS p, Reg.NET_STATUS]) t ∧ t.dev.bit (Fld.NET_Pp_CFG_EN p) = true ∧ t.dev.net = (d.readSfp p).net)
  ∧ (∀ (s : State) (p : Nat) (v : Word) (d : Dev), d = later s.dev 0 → (p < 4 ∧ d.gatedAt (Reg.NET_Pp_CFG p) = false) →
      (v.toNat.testBit 0 = true ∧ d.bit (Fld.NET_Pp_CFG_EN p) = false) → d.macOfPort p = 0 → ∃ t,
      exec (.netPortEnable p v) s = .next t ∧ moves s 0 [.regs] (fun o => o ∈ [Reg.NET_Pp_CFG p, Reg.NET_STATUS]) t ∧
      t.dev.bit (Fld.NET_Pp_CFG_EN p) = false ∧ t.dev.bit Fld.NET_STATUS_CFG_ERR = true)
  ∧ (∀ (s : State) (dt p age phase : Nat) (f : EthFrame) (d : Dev), d = later s.dev dt → (p < 4 ∧ d.bit (Fld.NET_Pp_CFG_EN p) = true ∧
      d.bit (Fld.NET_Pp_STATUS_LINK p) = true) → f.line = .fcsBad → ∃ t, exec (.ethFrameRx dt p age phase f) s = .next t ∧ moves s dt
      [.regs] (fun o => o ∈ [Reg.NET_Pp_RX_FCS_ERR p, Reg.NET_Pp_FEC_CORR p, Reg.NET_Pp_FEC_UNCORR p]) t ∧ t.dev.regN
      (Reg.NET_Pp_RX_FCS_ERR p) = (d.regN (Reg.NET_Pp_RX_FCS_ERR p) + 1) % 2 ^ 32 ∧ (d.fecOn p = false → t.dev.regN (Reg.NET_Pp_FEC_CORR
      p) = d.regN (Reg.NET_Pp_FEC_CORR p)))
  ∧ (∀ (s : State) (dt p age phase target sender mac : Nat) (f : EthFrame) (d : Dev), d = later s.dev dt → (p < 4 ∧ d.bit
      (Fld.NET_Pp_CFG_EN p) = true ∧ d.bit (Fld.NET_Pp_STATUS_LINK p) = true) → (f.line = .good ∧ 64 ≤ f.size ∧ f.size ≤ d.fld
      (Fld.NET_Pp_FRAME_MAX_FRAME p)) → (f.body = .arp target sender mac ∧ f.dst = 0xFFFFFFFFFFFF ∧ f.macsec = none) → (d.macsecBypass p f
      = true ∧ d.vlanAccepted p f = true) → ((d.port p).ip4.contains (some target) = true ∧ (d.port p).queues[6]? = some []) → ∃ t, exec
      (.ethFrameRx dt p age phase f) s = .next t ∧ moves s dt [.regs, .net] (fun o => o / 0x1000 ∈ [0x0e1]) t ∧ (t.dev.port p).queues[6]?
      = some [{ size := 64, body := .arpReply target (d.macOfPort p) sender mac }] ∧ t.dev.reg64 (Reg.NET_Pp_RX_FRAMES_LO p) = (d.reg64
      (Reg.NET_Pp_RX_FRAMES_LO p) + 1) % 2 ^ 64)
  ∧ (∀ (s : State) (dt p age phase q : Nat) (f : EthFrame) (d : Dev), d = later s.dev dt → (p < d.net.ports.length ∧ p < 4 ∧ d.bit
      (Fld.NET_Pp_CFG_EN p) = true ∧ d.bit (Fld.NET_Pp_STATUS_LINK p) = true) → (f.line = .good ∧ 64 ≤ f.size ∧ f.size ≤ d.fld
      (Fld.NET_Pp_FRAME_MAX_FRAME p)) → (f.body = .pause q ∧ f.macsec = none ∧ d.fld (Fld.NET_Pp_CFG_FC_MODE p) = 1) → ∃ t, exec
      (.ethFrameRx dt p age phase f) s = .next t ∧ moves s dt [.regs, .net] (fun o => o / 0x1000 ∈ [0x0e1] ∨ o ∈ [Reg.NET_Pp_STATUS p]) t
      ∧ (t.dev.port p).pauseUntil = d.ps + q * 64 * d.bytePs p ∧ t.dev.regN (Reg.NET_Pp_RX_PAUSE p) = (d.regN (Reg.NET_Pp_RX_PAUSE p) + 1)
      % 2 ^ 32)
  ∧ (∀ (s : State) (dt p age phase : Nat) (f : EthFrame) (d : Dev), d = later s.dev dt → (p < 4 ∧ d.bit (Fld.NET_Pp_CFG_EN p) = true ∧
      d.bit (Fld.NET_Pp_STATUS_LINK p) = true) → (f.line = .good ∧ 64 ≤ f.size ∧ f.size ≤ d.fld (Fld.NET_Pp_FRAME_MAX_FRAME p)) →
      (f.body = .other ∧ d.macsecBypass p f = true ∧ d.vlanAccepted p f = true ∧ d.macAccepted p f = true) → ∃ t,
      exec (.ethFrameRx dt p age phase f) s = .next t ∧ moves s dt [.regs] (fun o => o / 0x1000 ∈ [0x0e1]) t ∧
      t.dev.regN (Reg.NET_Pp_RX_UNCLAIMED p) = (d.regN (Reg.NET_Pp_RX_UNCLAIMED p) + 1) % 2 ^ 32)
  ∧ (∀ (s : State) (dt p : Nat) (d : Dev) (x : Bool × Nat × Nat) (rest : List (Bool × Nat × Nat)), d = later s.dev dt → (p < 4 ∧
      (d.port p).queries = x :: rest) → ∃ t, exec (.mcastQueryAnswer dt p) s = .next t ∧ moves s dt [.regs,
      .net] (fun o => o / 0x1000 ∈ [0x0e1]) t ∧ (t.dev.port p).queries = rest ∧ (t.dev.port p).mcast = (d.port p).mcast)
  ∧ (∀ (s : State) (dt p n at_ : Nat) (d : Dev) (e : McastEntry), d = later s.dev dt → (p < 4 ∧ (d.port p).reports = [(n, at_)] ∧
      at_ ≤ d.up) → ((d.port p).mcast.find n = some e ∧ e.join = true ∧ e.ip ≠ 0) → (d.bit (Fld.NET_Pp_STATUS_LINK p) = true ∧
      (d.port p).queues[6]? = some []) → ∃ t, exec (.mcastReportTimer dt p) s = .next t ∧ moves s dt [.regs,
      .net] (fun o => o / 0x1000 ∈ [0x0e1]) t ∧ (t.dev.port p).reports = [] ∧
      (t.dev.port p).queues[6]? = some [{ size := if isV6 e.ip then 94 else 64, body := .mcastReport (isV6 e.ip) e.ip true }])
  ∧ (∀ (s : State) (dt p : Nat) (d : Dev), d = later s.dev dt → (p < 4 ∧ d.bit (Fld.NET_Pp_CFG_EN p) = true ∧
      d.bit (Fld.NET_Pp_STATUS_MOD_ABS p) = false ∧ d.bit (Fld.NET_Pp_STATUS_LINK p) = false) → ∃ t,
      exec (.ethLinkUp dt p) s = .next t ∧ moves s dt [.regs] (fun o => o ∈ [Reg.NET_Pp_STATUS p]) t ∧
      t.dev.bit (Fld.NET_Pp_STATUS_LINK p) = true ∧ t.dev.bit (Fld.NET_Pp_STATUS_PCS_OK p) = true ∧
      t.dev.bit (Fld.NET_Pp_STATUS_PREEMPT_ACTIVE p) = (d.bit (Fld.NET_Pp_CFG_PREEMPT_EN p) && d.bit (Fld.NET_Pp_CFG_VERIFY_DIS p)) ∧
      t.dev.fld (Fld.NET_Pp_STATUS_VERIFY p) = b2n (d.bit (Fld.NET_Pp_CFG_PREEMPT_EN p) && !d.bit (Fld.NET_Pp_CFG_VERIFY_DIS p)))
  ∧ (∀ (s : State) (dt p : Nat) (los : Bool) (d : Dev), d = later s.dev dt → (p < 4 ∧ p < d.net.ports.length ∧
      d.bit (Fld.NET_Pp_STATUS_LINK p) = true) → ∃ t, exec (.ethLinkDown dt p los) s = .next t ∧ moves s dt [.regs,
      .net] (fun o => o / 0x1000 ∈ [0x0e1] ∨ o ∈ [Reg.NET_Pp_STATUS p, Reg.FUM_EXP_DROP, Reg.FUM_EXP_SENT]) t ∧
      t.dev.bit (Fld.NET_Pp_STATUS_LINK p) = false ∧ t.dev.bit (Fld.NET_Pp_STATUS_LOS p) = los ∧
      (t.dev.port p).queues = List.replicate 8 [] ∧ (t.dev.port p).express = [] ∧ (t.dev.port p).cur = none ∧
      t.dev.regN (Reg.NET_Pp_LINK_DOWN p) = (d.regN (Reg.NET_Pp_LINK_DOWN p) + 1) % 2 ^ 32)
  ∧ (∀ (s : State) (dt p : Nat) (ok : Bool) (d : Dev), d = later s.dev dt → (p < 4 ∧ d.fld (Fld.NET_Pp_STATUS_VERIFY p) = 1) → ∃ t,
      exec (.preemptVerify dt p ok) s = .next t ∧ moves s dt [.regs] (fun o => o ∈ [Reg.NET_Pp_STATUS p]) t ∧
      t.dev.fld (Fld.NET_Pp_STATUS_VERIFY p) = (if ok then 2 else 3) ∧ t.dev.bit (Fld.NET_Pp_STATUS_PREEMPT_ACTIVE p) = ok)
  ∧ (∀ (s : State) (dt p phase : Nat) (d : Dev) (f : TxFrame) (rest : List TxFrame), d = later s.dev dt → (p < 4 ∧ d.bit
      (Fld.NET_Pp_STATUS_LINK p) = true ∧ d.pausedQ p 8 = false) → ((d.port p).cur = none ∧ (d.port p).freeAt ≤ d.ps ∧ (d.port p).express
      = f :: rest) → (f.auth = none ∧ (d.port p).macsecOn = false) → TxFrame.isPtp f = false → ∃ t, exec (.frameTransmit dt p phase) s =
      .next t ∧ moves s dt [.regs, .net] (fun o => o / 0x1000 ∈ [0x0e1] ∨ o ∈ [Reg.NET_Pp_STATUS p]) t ∧ (t.dev.port p).express = rest ∧
      (t.dev.port p).cur = some { queue := 8, frame := f, startAt := d.ps, endAt := d.ps + (8 + f.size) * d.bytePs p, done := 0 } ∧
      Out.ethTx p f [] none ∈ t.dev.out)
  ∧ (∀ (s : State) (dt p phase q : Nat) (d : Dev) (f : TxFrame), d = later s.dev dt → (p < 4 ∧ d.bit (Fld.NET_Pp_STATUS_LINK p) = true) →
      ((d.port p).cur = none ∧ (d.port p).freeAt ≤ d.ps ∧ (d.port p).express = [] ∧ (d.port p).rest = none) → d.nextQueue p = some (q, f)
      → (f.auth = none ∧ (d.port p).macsecOn = false) → TxFrame.isPtp f = false → ∃ t, exec (.frameTransmit dt p phase) s = .next t ∧
      moves s dt [.regs, .net] (fun o => o / 0x1000 ∈ [0x0e1] ∨ o ∈ [Reg.NET_Pp_STATUS p]) t ∧ (t.dev.port p).queues = modifyAt (d.port
      p).queues q List.tail ∧ (t.dev.port p).cur = some
      { queue := q, frame := f, startAt := d.ps, endAt := d.ps + (8 + f.size) * d.bytePs p, done := 0 } ∧ Out.ethTx p f [] none ∈
      t.dev.out)
  ∧ (∀ (s : State) (dt p phase : Nat) (d : Dev) (f : TxFrame) (rest : List TxFrame) (c : TxCur), d = later s.dev dt → (p < 4 ∧ d.bit
      (Fld.NET_Pp_STATUS_LINK p) = true ∧ d.pausedQ p 8 = false) → ((d.port p).express = f :: rest ∧ (d.port p).cur = some c ∧ d.ps <
      c.endAt ∧ d.mayPreempt p c = true) → (TxFrame.isPtp c.frame = false ∧ f.auth = none ∧ (d.port p).macsecOn = false) → ∃ t, exec
      (.frameTransmit dt p phase) s = .next t ∧ moves s dt [.regs, .net] (fun o => o / 0x1000 ∈ [0x0e1] ∨ o ∈ [Reg.NET_Pp_STATUS p]) t ∧
      (t.dev.port p).rest = some { queue := c.queue, frame := c.frame, done := c.done + d.sentBytes p c } ∧ t.dev.regN
      (Reg.NET_Pp_TX_PREEMPT p) = (d.regN (Reg.NET_Pp_TX_PREEMPT p) + 1) % 2 ^ 32)
  ∧ (∀ (s : State) (dt p : Nat) (d : Dev), d = later s.dev dt → p < 4 → ∃ t, exec (.pauseExpire dt p) s = .next t ∧ moves s dt [.regs,
      .net] (fun o => o ∈ [Reg.NET_Pp_TX_PAUSED_US p, Reg.NET_Pp_STATUS p]) t ∧
      t.dev.bit (Fld.NET_Pp_STATUS_PAUSED p) = decide (d.ps < (d.port p).pauseUntil))
  ∧ (∀ (s : State) (dt p : Nat) (a0 : Bytes) (d : Dev), d = later s.dev dt → (p < 4 ∧ p < d.net.ports.length) → ∃ t,
      exec (.sfpInsert dt p a0) s = .next t ∧ moves s dt [.regs, .hif, .net,
      .snt] (fun o => eventReg o ∨ o ∈ [Reg.NET_Pp_STATUS p]) t ∧ t.dev.bit (Fld.NET_Pp_STATUS_MOD_ABS p) = false ∧
      (t.dev.port p).sfp.a0 = slice a0 0 256 ∧ t.dev.bit (Fld.NET_Pp_STATUS_SFP_ID_OK p) = sfpIdOk (slice a0 0 256))
  ∧ (∀ (s : State) (dt p : Nat) (a2 : Bytes) (d : Dev), d = later s.dev dt → (p < 4 ∧ p < d.net.ports.length ∧
      d.bit (Fld.NET_Pp_STATUS_MOD_ABS p) = false ∧ d.bit Fld.SCH_MC_LOAD_DEFER = false) →
      (fieldAt (d.port p).sfp.a0 92 1).testBit 6 = true → ∃ t, exec (.sfpPoll dt p a2) s = .next t ∧ moves s dt [.regs, .hif, .net,
      .snt] (fun o => eventReg o ∨ o ∈ [Reg.NET_Pp_STATUS p]) t ∧
      (t.dev.port p).sfp = { (d.port p).sfp with a2 := slice a2 0 256, polled := true })
  ∧ (∀ (s : State) (dt p : Nat) (d : Dev), d = later s.dev dt → (p < 4 ∧ d.bit (Fld.NET_Pp_STATUS_MOD_ABS p) = false) → ∃ t,
      exec (.sfpRemove dt p) s = .next t ∧ moves s dt [.regs, .hif, .net,
      .snt] (fun o => eventReg o ∨ o / 0x1000 ∈ [0x0e1] ∨ o ∈ [Reg.NET_Pp_STATUS p, Reg.FUM_EXP_DROP, Reg.FUM_EXP_SENT]) t ∧
      t.dev.bit (Fld.NET_Pp_STATUS_MOD_ABS p) = true ∧ t.dev.bit (Fld.NET_Pp_STATUS_LINK p) = false ∧
      t.dev.bit (Fld.NET_Pp_STATUS_SFP_ID_OK p) = false)
  ∧ (∀ (s : State) (dt p : Nat) (d : Dev), d = later s.dev dt → p < 4 → ∃ t, exec (.txFaultRise dt p) s = .next t ∧ moves s dt [.regs,
      .net] (fun o => o / 0x1000 ∈ [0x0e1] ∨ o ∈ [Reg.NET_Pp_STATUS p, Reg.FUM_EXP_DROP, Reg.FUM_EXP_SENT]) t ∧
      t.dev.bit (Fld.NET_Pp_STATUS_TX_FAULT p) = true ∧ t.dev.bit (Fld.NET_Pp_STATUS_LINK p) = false)
  ∧ (∀ (s : State) (dt p age phase ip : Nat) (f : EthFrame) (d : Dev), d = later s.dev dt → (p < 4 ∧ d.bit (Fld.NET_Pp_CFG_EN p) = true ∧
      d.bit (Fld.NET_Pp_STATUS_LINK p) = true) → (f.line = .good ∧ 64 ≤ f.size ∧ f.size ≤ d.fld (Fld.NET_Pp_FRAME_MAX_FRAME p)) → (f.body
      = .ip ip ∧ d.macsecBypass p f = true) → ((d.port p).ips.contains ip = false ∧ (d.port p).mcast = []) → ∃ t, exec (.ethFrameRx dt p
      age phase f) s = .next t ∧ moves s dt [.regs] (fun o => o / 0x1000 ∈ [0x0e1]) t ∧ t.dev.regN (Reg.NET_Pp_RX_FILT_DROP p) = (d.regN
      (Reg.NET_Pp_RX_FILT_DROP p) + 1) % 2 ^ 32)

/-- Output sessions, field segments and MDIO: what each event and write does. The back-off is a free value within its range (log 81). That
SESSION_PUBLISH issues its item is the model's reading (log 145). Rests on R373, R374, R378, R380, R381, R382, R386; the statement is
derived. -/
def Obligations.SessionsAndFieldsTakeEffect : Prop :=
  (∀ (s : State) (dt n ep : Nat) (d : Dev) (e : SessEntry) (rest : List Nat), d = later s.dev dt → ((d.sess n).entry = some e ∧ e.type =
      0) → (d.sess n).todo.dropWhile (fun x => decide (x % max 1 e.rateDiv ≠ 0)) = ep :: rest → ((d.sess n).txOn = true ∧ d.muted e =
      false ∧ (d.sess n).keyOrphaned = false) → (d.calm = true ∧ (d.serve 0x04 n).2 = true) → ∃ t, exec (.sessionPublish dt n) s = .next t
      ∧ moves s dt [.regs, .net, .sch] (fun o => o / 0x1000 ∈ [0x0e1, 0x0d0]) t ∧ (t.dev.sess n).todo = rest ∧ (t.dev.sess n).sent =
      (d.sess n).sent + ((bitsOf 4 e.portMask).filter (fun p => d.bit (Fld.NET_Pp_STATUS_LINK p))).length)
  ∧ (∀ (s : State) (dt n at_ iv : Nat) (d : Dev) (e : SessEntry) (key : Option KeyVal), d = later s.dev dt → ((d.sess n).entry = some e ∧
      (d.sess n).nextAt = some (at_, iv) ∧ at_ ≤ d.up) → ((d.sess n).txOn = true ∧ (d.sess n).keyOrphaned = false ∧
      d.muted e = false) → sessKey s.key e = .ok key → ∃ t, exec (.sessionGooseRetransmit dt n) s = .next t ∧ moves s dt [.regs,
      .net] (fun o => o / 0x1000 ∈ [0x0e1]) t ∧ (t.dev.sess n).sqNum = bump (d.sess n).sqNum ∧
      (t.dev.sess n).nextAt = some (at_ + min e.rtMax (2 * iv) * 1000000, min e.rtMax (2 * iv)))
  ∧ (∀ (s : State) (v : Word) (d : Dev), d = later s.dev 0 → d.gatedAt Reg.NET_FLD_CFG = false → d.net.seedsHeld = false → ∃ t,
      exec (.netFldEnable v) s = .next t ∧ moves s 0 [.regs, .net] (fun o => o / 0x1000 ∈ [0x0e1] ∨ o ∈ [Reg.NET_FLD_CFG]) t ∧
      t.dev.fld Fld.NET_FLD_CFG_EN = v.toNat % 4 ∧ ∀ g, g < 2 → v.toNat.testBit g = false → (t.dev.field g).tx = none)
  ∧ (∀ (s : State) (v : Word) (d : Dev), d = later s.dev 0 → d.gatedAt Reg.NET_FLD_CFG = false → (d.net.seedsHeld = true ∧
      v.toNat % 4 ≠ 0) → exec (.netFldEnable v) s = .next { s with dev := d.modNet (fun n => { n with fldWait := some v }) })
  ∧ (∀ (s : State) (dt g : Nat) (f : FieldFrame) (d : Dev), d = later s.dev dt → (g < 2 ∧ d.fbit Fld.NET_FLD_CFG_EN g = true) →
      (f.fcsOk = true ∧ 64 ≤ f.size ∧ f.size ≤ 1518 ∧ f.etype = d.fld Fld.RIO_CFG_ETYPE) →
      (f.dst = 2 ^ 48 - 1 ∨ f.dst = d.reg64 (Reg.NET_FLDn_MAC_LO g)) → ∃ t, exec (.fieldFrameRx dt g f) s = .next t ∧
      moves s dt [.regs] (fun o => o ∈ [Reg.NET_FLDn_RX_FRAMES g]) t ∧
      t.dev.regN (Reg.NET_FLDn_RX_FRAMES g) = (d.regN (Reg.NET_FLDn_RX_FRAMES g) + 1) % 2 ^ 32)
  ∧ (∀ (s : State) (dt g : Nat) (f : FieldFrame) (d : Dev), d = later s.dev dt → (g < 2 ∧ d.fbit Fld.NET_FLD_CFG_EN g = true) →
      f.fcsOk = false → ∃ t, exec (.fieldFrameRx dt g f) s = .next t ∧
      moves s dt [.regs] (fun o => o ∈ [Reg.NET_FLDn_RX_FCS_ERR g]) t ∧
      t.dev.regN (Reg.NET_FLDn_RX_FCS_ERR g) = (d.regN (Reg.NET_FLDn_RX_FCS_ERR g) + 1) % 2 ^ 32)
  ∧ (∀ (s : State) (dt g at_ : Nat) (d : Dev) (x : FieldTx), d = later s.dev dt → (g < 2 ∧ (d.field g).tx = some x ∧
      x.startedAt = some at_) → (d.up < at_ + fieldDur x.payload ∧ d.up ≤ at_ + 51200 ∧ x.attempts < 16) → ∃ t,
      exec (.fieldCollision dt g) s = .next t ∧ moves s dt [.regs, .net] (fun o => o ∈ [Reg.NET_FLDn_COLLISIONS g]) t ∧ ∃ r,
      r < 2 ^ min x.attempts 10 ∧ (t.dev.field g).tx = some
      { x with startedAt := none, backoffUntil := some (d.up + 3200 + r * 51200) } ∧ Out.fieldJam g ∈ t.dev.out ∧
      t.dev.regN (Reg.NET_FLDn_COLLISIONS g) = (d.regN (Reg.NET_FLDn_COLLISIONS g) + 1) % 2 ^ 32)
  ∧ (∀ (s : State) (dt g at_ : Nat) (d : Dev) (x : FieldTx), d = later s.dev dt → (g < 2 ∧ d.fbit Fld.NET_FLD_CFG_EN g = true ∧
      (d.field g).tx = some x ∧ x.backoffUntil = some at_ ∧ at_ ≤ d.up) → ∃ t, exec (.fieldBackoffExpire dt g false) s = .next t ∧
      moves s dt [.net] (fun _ => False) t ∧
      (t.dev.field g).tx = some { x with attempts := x.attempts + 1, startedAt := some d.up, deferring := false, backoffUntil := none })
  ∧ (∀ (s : State) (dt g : Nat) (d : Dev) (x : FieldTx), d = later s.dev dt → (g < 2 ∧ d.fbit Fld.NET_FLD_CFG_EN g = true ∧
      (d.field g).tx = some x ∧ x.deferring = true ∧ x.isLate d.up false = false) → ∃ t, exec (.carrierDeferEnd dt g) s = .next t ∧
      moves s dt [.net] (fun _ => False) t ∧
      (t.dev.field g).tx = some { x with attempts := x.attempts + 1, startedAt := some d.up, deferring := false, backoffUntil := none })
  ∧ (∀ (s : State) (v : Word) (d : Dev), d = later s.dev 0 → d.gatedAt Reg.NET_MDIO = false → (d.bit Fld.NET_MDIO_BUSY = false ∧
      v.toNat.testBit 30 = true) → ∃ t, exec (.mdioStart v) s = .next t ∧ moves s 0 [.regs, .net] (fun o => o ∈ [Reg.NET_MDIO]) t ∧
      t.dev.bit Fld.NET_MDIO_BUSY = true ∧
      Out.mdio (v.toNat.testBit 26) (v.toNat / 2 ^ 21 % 32) (v.toNat / 2 ^ 16 % 32) (v.toNat % 65536) ∈ t.dev.out)
  ∧ (∀ (s : State) (dt data : Nat) (d : Dev), d = later s.dev dt → d.bit Fld.NET_MDIO_BUSY = true → ∃ t,
      exec (.mdioDone dt data) s = .next t ∧ moves s dt [.regs, .net] (fun o => o ∈ [Reg.NET_MDIO]) t ∧
      t.dev.bit Fld.NET_MDIO_BUSY = false ∧
      t.dev.fld Fld.NET_MDIO_DATA = (if d.bit Fld.NET_MDIO_WRITE then d.fld Fld.NET_MDIO_DATA else data % 65536))

/-- The commands of the Ethernet ports and the output sessions: result and completion. What MACSEC_SET does to an association and the checks
of SESS_SET are the model's reading (logs 80, 82). The ranges of an image with VALID 0 are the model's reading (log 174), and converted SFP
values are a constant without a body (log 175). Rests on R358, R359, R360, R368, R371, R372, R376, R387; the statement is derived. -/
def Obligations.NetworkCommandsComplete : Prop :=
  (∀ (s : State) (c : Ctx) (d : Dev) (p : Nat) (ip4 ip6 : List (Option Nat)), ready s.dev c.ring false (portGate p) →
      d = fetched s.dev c.ring → (p < 4 ∧ ip4.length = 4 ∧ ip6.length = 4) →
      (ip4.any (fun x => x.any (fun v => decide (2 ^ 32 ≤ v))) = false ∧
      ip6.any (fun x => x.any (fun v => decide (2 ^ 128 ≤ v))) = false) →
      exec (.netAddrSet c p ip4 ip6) s = .next (served s c (d.modPort p (fun x => { x with ip4 := ip4, ip6 := ip6 })) (.ok)))
  ∧ (∀ (s : State) (c : Ctx) (d : Dev) (p : Nat) (ip4 ip6 : List (Option Nat)), ready s.dev c.ring false (portGate p) →
      d = fetched s.dev c.ring → (3 < p ∨ ip4.length ≠ 4 ∨ ip6.length ≠ 4 ∨ ip4.any (fun x => x.any (fun v => decide (2 ^ 32 ≤ v))) =
      true ∨ ip6.any (fun x => x.any (fun v => decide (2 ^ 128 ≤ v))) = true) →
      exec (.netAddrSet c p ip4 ip6) s = .next (served s c d (.done sRange 0)))
  ∧ (∀ (s : State) (c : Ctx) (d : Dev) (p entry mac ip : Nat) (join valid : Bool), ready s.dev c.ring false (portGate p) →
      d = fetched s.dev c.ring → mcastFits p entry mac ip valid = true →
      (d.port p).mcast.find entry ≠ (if valid then some { mac := mac, ip := ip, join := join } else none) →
      exec (.netMcastSet c p entry mac ip join valid) s = .next (served s c (d.mcastChange p entry (if valid then some
      { mac := mac, ip := ip, join := join } else none)) (.ok)))
  ∧ (∀ (s : State) (c : Ctx) (d : Dev) (p entry mac ip : Nat) (join valid : Bool), ready s.dev c.ring false (portGate p) →
      d = fetched s.dev c.ring → mcastFits p entry mac ip valid = false →
      exec (.netMcastSet c p entry mac ip join valid) s = .next (served s c d (.done sRange 0)))
  ∧ (∀ (s : State) (c : Ctx) (d : Dev) (p : Nat) (vids : List (Option Nat)), ready s.dev c.ring false (portGate p) →
      d = fetched s.dev c.ring → (p < 4 ∧ vids.length = 64 ∧ vids.any (fun x => x.any (fun v => decide (4096 ≤ v))) = false) →
      exec (.netVidSet c p vids) s = .next (served s c (d.modPort p (fun x => { x with vids := vids.filterMap id })) (.ok)))
  ∧ (∀ (s : State) (c : Ctx) (d : Dev) (p ch sci an slot window : Nat) (rx xpn conf : Bool) (v : KeyVal),
      ready s.dev c.ring false (portGate p) → d = fetched s.dev c.ring → macsecFits p rx ch sci an slot window = true →
      worldMacsecOk s.key slot = .ok v → exec (.macsecSet c p rx ch sci an slot xpn conf window true) s = .next (served s c
      (d.installKey p rx ch sci an slot xpn conf window) (.ok)))
  ∧ (∀ (s : State) (c : Ctx) (d : Dev) (p ch sci an slot window : Nat) (rx xpn conf : Bool), ready s.dev c.ring false (portGate p) →
      d = fetched s.dev c.ring → (macsecFits p rx ch sci an slot window = false ∨ (s.key.slot slot).all (fun x => decide (x.world ≠
      worldMacsec)) = true) → exec (.macsecSet c p rx ch sci an slot xpn conf window true) s = .next (served s c d (.done sRange 0)))
  ∧ (∀ (s : State) (c : Ctx) (d : Dev) (p ch sci an slot window : Nat) (rx xpn conf : Bool), ready s.dev c.ring false (portGate p) →
      d = fetched s.dev c.ring → (macsecFits p rx ch sci an slot window = true ∧
      (s.key.slot slot).any (fun x => decide (x.world = worldMacsec)) = true) → s.key.use slot = .error sKeyOrphaned →
      exec (.macsecSet c p rx ch sci an slot xpn conf window true) s = .next (served s c (d.count Reg.KEY_USE_ORPHANED) (.done
      sKeyOrphaned 0)))
  ∧ (∀ (s : State) (c : Ctx) (d : Dev) (p ch sci an slot window : Nat) (rx xpn conf : Bool), ready s.dev c.ring false (portGate p) →
      d = fetched s.dev c.ring → macsecFits p rx ch sci an slot window = true →
      exec (.macsecSet c p rx ch sci an slot xpn conf window false) s = .next (served s c (d.removeKey p rx ch an) (.ok)))
  ∧ (∀ (s : State) (c : Ctx) (d : Dev) (n : Nat) (image : Bytes) (e : SessEntry), ready s.dev c.ring false none → d = fetched s.dev c.ring
      → (n < 128 ∧ e = sessFields image ∧ e.valid = true ∧ sessInRange image e = true) → ((d.sessStreams e).map d.validEntry).any (fun x
      => x.isNone) = false → Dev.sessFits s.key d e ((d.sessStreams e).map d.validEntry).reduceOption = true → exec (.sessSet c n image) s
      = .next (served s c ((Dev.sessFlush s.key d n).modNet
      (fun x => { x with sess := x.sess.put n { entry := some e, txOn := e.txOn || decide (e.type ≠ 0) } })) (.ok)))
  ∧ (∀ (s : State) (c : Ctx) (d : Dev) (n : Nat) (image : Bytes) (e : SessEntry), ready s.dev c.ring false none →
      d = fetched s.dev c.ring → (n < 128 ∧ e = sessFields image ∧ e.valid = true ∧ sessInRange image e = true) →
      ((d.sessStreams e).map d.validEntry).any (fun x => x.isNone) = true →
      exec (.sessSet c n image) s = .next (served s c d (.done sNotOwner 0)))
  ∧ (∀ (s : State) (c : Ctx) (d : Dev) (n : Nat) (image : Bytes) (e : SessEntry), ready s.dev c.ring false none → d = fetched s.dev c.ring
      → e = sessFields image → (127 < n ∨ sessInRange image e = false ∨ (e.valid = true ∧ (((d.sessStreams e).map d.validEntry).any (fun x
      => x.isNone) = false ∧ Dev.sessFits s.key d e ((d.sessStreams e).map d.validEntry).reduceOption = false))) → exec (.sessSet c n
      image) s = .next (served s c d (.done sRange 0)))
  ∧ (∀ (s : State) (c : Ctx) (d : Dev) (first count : Nat) (images : Bytes), ready s.dev c.ring false none → d = fetched s.dev c.ring →
      (1 ≤ count ∧ count ≤ 256 ∧ first + count ≤ 8192 ∧
      ((imagesOf 2 count images).map leNat).any (fun v => decide (8192 ≤ v)) = false) →
      d.net.sess.any (fun x => x.2.entry.any (fun e => decide (first < e.listBase + e.listLen) && decide (e.listBase < first + count)))
      = false → exec (.sessListSet c first count images) s = .next (served s c (d.modNet (fun x =>
      { x with sessList := ((imagesOf 2 count images).map leNat).zipIdx.foldl (fun (l : Tbl Nat) (y : Nat × Nat) => if y.1 = 0 then l.drop (first + y.2) else l.put (first + y.2) y.1) x.sessList })) (.ok)))
  ∧ (∀ (s : State) (c : Ctx) (d : Dev) (first count : Nat) (images : Bytes), ready s.dev c.ring false none → d = fetched s.dev c.ring →
      (1 ≤ count ∧ count ≤ 256 ∧ first + count ≤ 8192 ∧
      ((imagesOf 2 count images).map leNat).any (fun v => decide (8192 ≤ v)) = false) →
      d.net.sess.any (fun x => x.2.entry.any (fun e => decide (first < e.listBase + e.listLen) && decide (e.listBase < first + count)))
      = true → exec (.sessListSet c first count images) s = .next (served s c d (.done sBusy 0)))
  ∧ (∀ (s : State) (c : Ctx) (d : Dev) (n kind : Nat) (frame : Bytes) (e : SessEntry), ready s.dev c.ring false none →
      d = fetched s.dev c.ring → ((d.sess n).entry = some e ∧ frame.length ≤ 8192) → ((kind < 4 ∧ e.type = 0) ∨ (kind = 4 ∧
      e.type ≠ 0)) → exec (.sessCfgFrame c n kind frame) s = .next (served s c (d.modSess n (fun x =>
      { x with stored := x.stored.put kind frame, cfgPending := x.cfgPending && decide (kind ≠ 2) })) (.ok)))
  ∧ (∀ (s : State) (c : Ctx) (d : Dev) (n kind : Nat) (frame : Bytes), ready s.dev c.ring false none → d = fetched s.dev c.ring →
      ((d.sess n).entry = none ∨ 8192 < frame.length ∨ 4 < kind) →
      exec (.sessCfgFrame c n kind frame) s = .next (served s c d (.done sRange 0)))
  ∧ (∀ (s : State) (c : Ctx) (d : Dev) (n : Nat) (txOn cfgPending : Bool) (e : SessEntry) (key : Option KeyVal),
      ready s.dev c.ring false none → d = fetched s.dev c.ring → (d.sess n).entry = some e → sessKey s.key e = .ok key →
      exec (.sessCtrl c n txOn cfgPending) s = .next (served s c (d.modSess n (fun x =>
      { x with txOn := txOn, cfgPending := cfgPending, keyOrphaned := x.keyOrphaned && !txOn })) (.ok)))
  ∧ (∀ (s : State) (c : Ctx) (d : Dev) (n : Nat) (e : SessEntry) (x : SessSt), ready s.dev c.ring false none → d = fetched s.dev c.ring →
      (d.sess n = x ∧ x.entry = some e) →
      exec (.sessStats c n) s = .next (served s c d (.block (leBytes 8 x.sent ++ leBytes 4 x.commands ++ leBytes 4 x.notSent ++ leBytes
      1 (b2n x.txOn + 2 * b2n x.keyOrphaned + 4 * b2n (d.muted e) + 8 * b2n x.cfgPending)) none)))
  ∧ (∀ (s : State) (c : Ctx) (d : Dev) (n : Nat), ready s.dev c.ring false none → d = fetched s.dev c.ring → (d.sess n).entry = none →
      exec (.sessStats c n) s = .next (served s c d (.done sRange 0)))
  ∧ (∀ (s : State) (c : Ctx) (d : Dev) (p page : Nat) (buf : HostBuf), ready s.dev c.ring false (portGate p) → d = fetched s.dev c.ring →
      (p < 4 ∧ (page = 0xA0 ∨ page = 0xA2) ∧ 256 ≤ buf.len) → exec (.sfpRead c p page buf) s = .next (served s c d (if d.bit
      (Fld.NET_Pp_STATUS_MOD_ABS p) then .done sNotValid 0 else .block (slice ((if page = 0xA0 then (d.port p).sfp.a0 else (d.port
      p).sfp.reported) ++ zeros 256) 0 256) (some buf.addr))))
  ∧ (∀ (s : State) (c : Ctx) (d : Dev) (p page : Nat) (buf : HostBuf), ready s.dev c.ring false (portGate p) → d = fetched s.dev c.ring →
      (3 < p ∨ (page ≠ 0xA0 ∧ page ≠ 0xA2) ∨ buf.len < 256) → exec (.sfpRead c p page buf) s = .next (served s c d (.done sRange 0)))
  ∧ (∀ (s : State) (c : Ctx) (d : Dev) (n : Nat) (image : Bytes) (e : SessEntry), ready s.dev c.ring false none → d = fetched s.dev c.ring
      → (n < 128 ∧ e = sessFields image ∧ e.valid = false ∧ sessInRange image e = true) → exec (.sessSet c n image) s = .next (served s c
      ((Dev.sessFlush s.key d n).modNet (fun x => { x with sess := x.sess.drop n })) (.ok)))

/-- The time unit: samples, PTP and GNSS messages, reports, PPS_OUT, time quality and UTC. The growth of B is counted from the last sample
that steered (log 85). Rests on R393, R395, R398, R401, R402, R403, R405, R406, R408, R413; the statement is derived. -/
def Obligations.TimeEventsTakeEffect : Prop :=
  (∀ (s : State) (v : Word) (d : Dev), d = later s.dev 0 → d.gatedAt Reg.TIM_CTRL = false → ∃ t, exec (.timEnable v) s = .next t ∧
      moves s 0 [.regs, .hif, .tim, .snt] (fun o => eventReg o ∨ o / 0x1000 ∈ [0x100]) t ∧
      t.dev.bit Fld.TIM_CTRL_EN = v.toNat.testBit 0 ∧ t.dev.fld Fld.TIM_CTRL_DOM_EN = v.toNat / 2 % 4 ∧
      t.dev.fld Fld.TIM_CTRL_PPS_OUT_MODE = v.toNat / 16 % 4)
  ∧ (∀ (s : State) (dt p : Nat) (d : Dev), d = later s.dev dt → (p < 4 ∧ d.ptpOn p = true ∧ d.domSrc (d.ptpDom p) ≠ 0 ∧ (d.ptp p).nextTxAt
      ≤ d.up ∧ d.portState p ≠ 6) → (d.bit (Fld.NET_Pp_STATUS_LINK p) = true ∧ (d.port p).queues[7]? = some [] ∧ p < d.tim.ports.length) →
      ∃ t, exec (.ptpTransmitTimer dt p) s = .next t ∧ moves s dt [.regs, .net, .tim] (fun o => o ∈ [Reg.NET_Pp_TX_Q_LOST p]) t ∧
      (t.dev.port p).queues[7]? = some [
      { size := 72, body := .ptp 0x0180C200000E { kind := .pdelayReq, domain := d.fld (Fld.TIM_DOMd_CFG_PTP_DOMAIN (d.ptpDom p)), seqId := (d.ptp p).txSeq, srcId := Config.clockIdentity, srcPort := p + 1 } }]
      ∧
      (t.dev.ptp p).txSeq = ((d.ptp p).txSeq + 1) % 65536)
  ∧ (∀ (s : State) (dt p : Nat) (d : Dev), d = later s.dev dt → (p < 4 ∧ d.ptpOn p = true ∧ d.domSrc (d.ptpDom p) ≠ 0 ∧ (d.ptp p).nextTxAt
      ≤ d.up ∧ d.portState p = 6) → (d.bit (Fld.NET_Pp_STATUS_LINK p) = true ∧ (d.port p).queues[7]? = some []) → ∃ t, exec
      (.ptpTransmitTimer dt p) s = .next t ∧ moves s dt [.regs, .net, .tim] (fun o => o ∈ [Reg.NET_Pp_TX_Q_LOST p]) t ∧ ((t.dev.port
      p).queues[7]?.getD []).map (fun f => f.size) = [if d.bit (Fld.TIM_Pp_PTP_PROFILE p) then 104 else 82, 64, 72] ∧ ((t.dev.port
      p).queues[7]?.getD []).head?.map (fun f => f.body) = some (.ptp 0x011B19000000 (d.announceOf p)))
  ∧ (∀ (s : State) (dt ph : Nat) (d : Dev), d = later s.dev dt → (d.bit Fld.TIM_CTRL_EN = true ∧ d.tim.ppsUsed = true) → ∃ t, exec
      (.ppsInEdge dt ph) s = .next t ∧ moves s dt [.regs, .tim] (fun o => o ∈ [Reg.TIM_GNSS_STAT]) t ∧ t.dev.tim.lastPps = some (d.g16 +
      ph * 65536 - d.fld Fld.TIM_PPS_PPS_DELAY * 65536) ∧ t.dev.tim.ppsUsed = false ∧ t.dev.tim.ppsLate = false ∧ t.dev.bit
      Fld.TIM_GNSS_STAT_PPS_SEEN = true)
  ∧ (∀ (s : State) (dt : Nat) (b : Bytes) (d : Dev), d = later s.dev dt → (d.bit Fld.TIM_CTRL_EN = true ∧ d.tim.ppsUsed = true) →
      (b.length ≠ 17 ∨ beNat (slice b 0 2) ≠ 0x5444 ∨ beNat (slice b 2 1) ≠ 1 ∨ crc16 (b.take 15) ≠ beNat (slice b 15 2)) → ∃ t,
      exec (.todMessage dt b) s = .next t ∧ moves s dt [.regs] (fun o => o ∈ [Reg.TIM_TOD_ERR]) t ∧
      t.dev.regN Reg.TIM_TOD_ERR = (d.regN Reg.TIM_TOD_ERR + 1) % 2 ^ 32)
  ∧ (∀ (s : State) (dt i stamp : Nat) (d : Dev) (b : Bytes) (sec : Nat), d = later s.dev dt → (d.bit Fld.TIM_CTRL_EN = true ∧ d.gnssDoms =
      [i] ∧ d.acquired = true ∧ d.hif.waiting = []) → (b.length = 17 ∧ beNat (slice b 0 2) = 0x5444 ∧ beNat (slice b 2 1) = 1 ∧ crc16
      (b.take 15) = beNat (slice b 15 2)) → (d.tim.ppsUsed = false ∧ d.tim.ppsLate = false ∧ d.tim.lastPps = some stamp ∧ 100000000 ≤ d.up
      - d.tim.lastPpsAt ∧ d.up - d.tim.lastPpsAt ≤ 900000000) → (beNat (slice b 4 6) = sec ∧ (d.tim.prevTodSec = none ∨
      d.tim.prevTodSec.map (fun x => x + 1) = some sec) ∧ beNat (slice b 3 1) % 8 = 7) → (i < 2 ∧ d.tim.dom.length = 2) → ∃ t, exec
      (.todMessage dt b) s = .next t ∧ moves s dt [.regs, .hif, .tim, .snt] (fun o => eventReg o ∨ o / 0x1000 ∈ [0x100]) t ∧ t.dev.regN
      (Reg.TIM_DOMd_SAMPLES i) = (d.regN (Reg.TIM_DOMd_SAMPLES i) + 1) % 2 ^ 32 ∧ (t.dev.dom i).last3.head? = some ((sec * 1000000000 :
      Nat) - (stamp : Rat) / 65536) ∧ t.dev.tim.ppsUsed = true ∧ t.dev.regN (Reg.TIM_DOMd_ACC i) = beNat (slice b 11 4) ∧ t.dev.domState i
      ≠ 0 ∧ t.dev.domState i ≠ 5)
  ∧ (∀ (s : State) (dt i : Nat) (d : Dev), d = later s.dev dt → (i < 2 ∧ d.tim.dom.length = 2 ∧ d.tim.ppsUsed = true ∧ 2 ≤ d.domState i ∧
      (d.dom i).lastAt + 1500000000 ≤ d.up) → ∃ t, exec (.sampleMissingTimer dt i) s = .next t ∧ moves s dt [.regs, .hif, .tim,
      .snt] (fun o => eventReg o ∨ o / 0x1000 ∈ [0x100]) t ∧
      t.dev.regN (Reg.TIM_DOMd_MISS i) = (d.regN (Reg.TIM_DOMd_MISS i) + 1) % 2 ^ 32 ∧ t.dev.domState i = (if d.steers i = true ∧
      d.fld Fld.TIM_CFG_LOSS_N ≤ (d.dom i).missRun + 1 then 5 else d.domState i) ∧
      (t.dev.dom i).lastAt = (d.dom i).lastAt + 1000000000 ∧ (t.dev.dom i).missRun = (d.dom i).missRun + 1)
  ∧ (∀ (s : State) (dt src seq a b : Nat) (d d1 : Dev), d = later s.dev dt → (d.receive src 1 seq = (d1, true) ∧ d1.joined = true ∧
      d1.isSummit = true) → putBit d1.tim.reported src true &&& d1.view.members ≠ d1.view.members → ∃ t,
      exec (.timeReport dt src seq a b) s = .next t ∧ moves s dt [.tim, .fab] (fun _ => False) t ∧
      t.dev.tim.reports.find src = some (a, b))
  ∧ (∀ (s : State) (dt : Nat) (d : Dev), d = later s.dev dt → (d.tim.reportAt + 1000000000 ≤ d.up ∧ d.joined = false) → ∃ t,
      exec (.timeReportPeriodic dt) s = .next t ∧ moves s dt [.tim] (fun _ => False) t ∧ t.dev.tim.reportAt = d.up)
  ∧ (∀ (s : State) (dt : Nat) (d : Dev), d = later s.dev dt → (d.tim.reportAt + 1000000000 ≤ d.up ∧ d.joined = true ∧ d.isSummit = false) →
      exec (.timeReportPeriodic dt) s = .next
      { s with dev := (d.modTim (fun x => { x with reportAt := d.up })).send d.view.summit (.timeReport (d.domState 0) (d.domState 1)) })
  ∧ (∀ (s : State) (dt src seq dom : Nat) (d d1 : Dev), d = later s.dev dt → (d.receive src 1 seq = (d1, true) ∧ d1.joined = true ∧
      src = d1.view.summit ∧ dom < 2) → ∃ t, exec (.timeSel dt src seq dom) s = .next t ∧ moves s dt [.regs, .hif, .tim, .fab,
      .snt] (fun o => eventReg o ∨ o ∈ [Reg.TIM_STATUS, Reg.TIM_BOUND, Reg.TIM_UTC]) t ∧ t.dev.fld Fld.TIM_STATUS_SUMMIT_PREF = dom)
  ∧ (∀ (s : State) (dt sec : Nat) (d : Dev), d = later s.dev dt → (d.ppsOutRuns = true ∧ d.secondHere = some sec ∧ d.tim.ppsOutSec ≠ some
      sec) → ∃ t, exec (.ppsOutSecond dt) s = .next t ∧ moves s dt [.tim] (fun _ => False) t ∧ t.dev.tim.ppsOut = true ∧
      t.dev.tim.ppsOutSec = some sec ∧ t.dev.tim.ppsOutUntil = d.up + d.fld Fld.TIM_PPS_OUT_WIDTH * 1000000)
  ∧ (∀ (s : State) (dt : Nat) (d : Dev), d = later s.dev dt → d.tim.ppsOutUntil ≤ d.up → ∃ t, exec (.ppsOutWidthEnd dt) s = .next t ∧
      moves s dt [.tim] (fun _ => False) t ∧ t.dev.tim.ppsOut = false)
  ∧ (∀ (s : State) (dt at_ : Nat) (neg : Bool) (d : Dev), d = later s.dev dt → (d.tim.leapAt = some (at_, neg) ∧ at_ ≤ d.gSec ∧
      0 < d.fld Fld.TIM_UTC_OFFSET ∧ d.fld Fld.TIM_UTC_OFFSET < 255) → ∃ t, exec (.utcOffset dt) s = .next t ∧ moves s dt [.regs, .hif,
      .tim, .snt] (fun o => eventReg o ∨ o ∈ [Reg.TIM_STATUS, Reg.TIM_BOUND, Reg.TIM_UTC]) t ∧
      t.dev.fld Fld.TIM_UTC_OFFSET = (if neg then d.fld Fld.TIM_UTC_OFFSET - 1 else d.fld Fld.TIM_UTC_OFFSET + 1) ∧
      t.dev.tim.leapAt = none ∧ t.dev.bit Fld.TIM_UTC_PENDING = false)
  ∧ (∀ (s : State) (dt p : Nat) (d : Dev), d = later s.dev dt → (p < 4 ∧ p < d.tim.ports.length ∧ d.ptpOn p = true ∧ ((d.ptp
      p).lastAnnounceAt + 3000000000 ≤ d.up ∨ (d.ptp p).foreign.any (fun f => decide (f.lastAt + 3000000000 ≤ d.up)) = true)) → ∃ t, exec
      (.announceReceiptTimeout dt p) s = .next t ∧ moves s dt [.regs, .tim] (fun o => o / 0x1000 ∈ [0x100]) t ∧ (t.dev.ptp p).foreign =
      (d.ptp p).foreign.filter (fun f => decide (d.up < f.lastAt + 3000000000)))
  ∧ (∀ (s : State) (dt : Nat) (d : Dev), d = later s.dev dt → (d.acquired = true ∧ d.following = false ∧
      d.bit Fld.TIM_STATUS_DOM_DISAGREE = false) → ∃ t, exec (.timeQualityDoubtful dt) s = .next t ∧ moves s dt [.regs,
      .tim] (fun o => o ∈ [Reg.TIM_STATUS, Reg.TIM_BOUND, Reg.TIM_UTC]) t ∧
      t.dev.bit Fld.TIM_STATUS_TIME_SUSPECT = decide (d.tqLim < d.tim.bLast + ((d.fld Fld.TIM_HOLDOVER_HO_RATE * (d.up - d.tim.servoAt)
      : Nat) : Rat) / 1000000000))
  ∧ (∀ (s : State) (dt : Nat) (d : Dev) (w : WaitCmd), d = later s.dev dt → (d.hif.waiting = [w] ∧ w.kind = .timReacquire ∧
      w.since + 10000000000 ≤ d.up) → ∃ t, exec (.reacquireTimeout dt) s = .next t ∧ moves s dt [.regs, .hif] signalReg t ∧
      t.dev.hif.waiting = [])
  ∧ (∀ (s : State) (dt : Nat) (d : Dev), d = later s.dev dt → (d.ppsOutRuns = true ∧ d.secondHere = none) → (d.tim.ppsOut = true ∧ d.up <
      d.tim.ppsOutUntil) → ∃ t, exec (.ppsOutSecond dt) s = .next t ∧ moves s dt [] (fun _ => False) t)
  ∧ (∀ (s : State) (dt : Nat) (b : Bytes) (d : Dev), d = later s.dev dt → (d.bit Fld.TIM_CTRL_EN = true ∧ d.tim.ppsUsed = true ∧
      d.tim.ppsLate = true ∧ d.tim.lastPps.isSome = true) → (b.length = 17 ∧ beNat (slice b 0 2) = 0x5444 ∧ beNat (slice b 2 1) = 1 ∧
      crc16 (b.take 15) = beNat (slice b 15 2)) → ∃ t, exec (.todMessage dt b) s = .next t ∧ moves s dt [.regs, .tim] (fun o => o ∈
      [Reg.TIM_TOD_ERR, Reg.TIM_GNSS_STAT]) t ∧ t.dev.regN Reg.TIM_TOD_ERR = (d.regN Reg.TIM_TOD_ERR + 1) % 2 ^ 32 ∧ t.dev.tim.ppsLate =
      false)
  ∧ (∀ (s : State) (dt src seq a b : Nat) (d d1 : Dev), d = later s.dev dt → (d.receive src 1 seq = (d1, true) ∧ d1.joined = true ∧
      d1.isSummit = false ∧ src < 64) → ∃ t, exec (.timeReport dt src seq a b) s = .next t ∧ moves s dt [.tim, .fab] (fun _ => False) t ∧
      t.dev.tim.reports.find src = some (a, b) ∧ t.dev.fab.earlyTimes.testBit src = true)

/-- TIM_SET, TIM_REACQUIRE and TS_READ complete with the status and effect of their rules. What follows the entries of a queue that is not
full is the model's choice (log 89). That TIM_SET checks its range before its state is the model's choice (log 15). Rests on R6, R401, R411,
R414; the statement is derived. -/
def Obligations.TimeCommandsComplete : Prop :=
  (∀ (s : State) (c : Ctx) (d : Dev) (sec ns frac : Nat), ready s.dev c.ring false none → d = fetched s.dev c.ring →
      (d.acquired = false ∧ ns < 1000000000 ∧ sec < 2 ^ 48 ∧ frac < 2 ^ 16) →
      exec (.timSet c sec ns frac) s = .next (served s c (((d.stepGTime ((((sec * 1000000000 + ns : Nat) : Rat) + (frac : Rat) / 65536)
      - (d.tim.acc : Rat) / 2 ^ 40)).setBit Fld.TIM_STATUS_HOST_SET true).refreshDomains) (.ok)))
  ∧ (∀ (s : State) (c : Ctx) (d : Dev) (sec ns frac : Nat), ready s.dev c.ring false none → d = fetched s.dev c.ring → (d.acquired = true
      ∨ 1000000000 ≤ ns ∨ 2 ^ 48 ≤ sec ∨ 2 ^ 16 ≤ frac) → exec (.timSet c sec ns frac) s = .next (served s c d (.done (if 1000000000 ≤ ns
      ∨ 2 ^ 48 ≤ sec ∨ 2 ^ 16 ≤ frac then sRange else sBusy) 0)))
  ∧ (∀ (s : State) (c : Ctx) (d : Dev), ready s.dev c.ring true none → d = fetched s.dev c.ring → (d.bit Fld.ING_CTRL_EN = false ∧
      d.fld Fld.CYC_STATUS_STATE ≠ 1 ∧ d.waitsFor (fun w => decide (w = WaitKind.timReacquire)) = false) →
      exec (.timReacquire c) s = .next (served s c d (.wait .timReacquire)))
  ∧ (∀ (s : State) (c : Ctx) (d : Dev), ready s.dev c.ring true none → d = fetched s.dev c.ring →
      (d.bit Fld.ING_CTRL_EN = true ∨ d.fld Fld.CYC_STATUS_STATE = 1 ∨ d.waitsFor (fun w => decide (w = WaitKind.timReacquire)) = true)
      → exec (.timReacquire c) s = .next (served s c d (.done sBusy 0)))
  ∧ (∀ (s : State) (c : Ctx) (d : Dev) (p : Nat) (tx : Bool) (buf : HostBuf), ready s.dev c.ring false none → d = fetched s.dev c.ring →
      (p < 4 ∧ 1536 ≤ buf.len) → exec (.tsRead c p tx buf) s = .next (served s c d (.block (slice ((if tx then (d.ptp p).txQ else
      (d.ptp p).rxQ).flatMap TsEntry.bytes) 0 1536) (some buf.addr))))
  ∧ (∀ (s : State) (c : Ctx) (d : Dev) (p : Nat) (tx : Bool) (buf : HostBuf), ready s.dev c.ring false none → d = fetched s.dev c.ring →
      (3 < p ∨ buf.len < 1536) → exec (.tsRead c p tx buf) s = .next (served s c d (.done sRange 0)))

/-- Ulpex links: training, HELLO, packets, retry, lanes, width, link state and acknowledgements. How HELLO shows a duplicate number and how
the quiet windows are counted are the model's readings (logs 92, 93). The fields of a link control packet that R418 does not give are the
model's (log 166). Rests on R417, R418, R419, R423, R424, R425, R427, R428, R429, R446; the statement is derived. -/
def Obligations.FabricLinksTakeEffect : Prop :=
  (∀ (s : State) (v : Word) (d : Dev), d = later s.dev 0 → d.gatedAt Reg.FAB_CTRL = false → (∀ l, l < 6 → d.linkUp l = false) → ∃ t,
      exec (.fabLinkEnable v) s = .next t ∧ moves s 0 [.regs, .fab] (fun o => o ∈ [Reg.FAB_CTRL, Reg.FAB_STATUS, Reg.FAB_Ln_STATUS 0,
      Reg.FAB_Ln_STATUS 1, Reg.FAB_Ln_STATUS 2, Reg.FAB_Ln_STATUS 3, Reg.FAB_Ln_STATUS 4, Reg.FAB_Ln_STATUS 5]) t ∧
      t.dev.fld Fld.FAB_CTRL_LINK_EN = v.toNat % 64 ∧ ∀ l, l < 6 → (v.toNat.testBit l = true ∧
      (d.fld Fld.FAB_CTRL_LINK_EN).testBit l = false → t.dev.linkState l = 1) ∧ ∀ l, l < 6 → (v.toNat.testBit l = false ∧
      (d.fld Fld.FAB_CTRL_LINK_EN).testBit l = true → t.dev.linkState l = 0))
  ∧ (∀ (s : State) (dt l : Nat) (d : Dev), d = later s.dev dt → (l < 6 ∧ d.linkState l = 1 ∧ l < d.fab.links.length) → ∃ t,
      exec (.ulxTrained dt l) s = .next t ∧ moves s dt [.regs, .fab] (fun o => o ∈ [Reg.FAB_Ln_STATUS l]) t ∧ t.dev.linkState l = 2 ∧
      (t.dev.link l).trained = true ∧ Out.linkMsg l d.deviceNo (.hello (d.ownHello l)) ∈ t.dev.out)
  ∧ (∀ (s : State) (dt l : Nat) (d : Dev), d = later s.dev dt → (l < 6 ∧ 2 ≤ d.linkState l ∧ d.linkState l ≠ 3) → ∃ t,
      exec (.ulxLinkDown dt l) s = .next t ∧ moves s dt [.regs, .fab] (fun o => o ∈ [Reg.FAB_Ln_STATUS l, Reg.FAB_Ln_DOWN l]) t ∧
      t.dev.linkState l = 1 ∧ t.dev.regN (Reg.FAB_Ln_DOWN l) = (d.regN (Reg.FAB_Ln_DOWN l) + 1) % 2 ^ 32)
  ∧ (∀ (s : State) (dt l : Nat) (d : Dev), d = later s.dev dt → (l < 6 ∧ d.linkState l = 3) → ∃ t, exec (.ulxLinkDown dt l) s = .next t ∧
      moves s dt [.regs, .hif, .fum, .tim, .fab, .snt] (fun o => eventReg o ∨ o / 0x1000 ∈ [0x120] ∨ o ∈ [Reg.CRT_VIEW,
      Reg.CRT_VIEW_CHG, Reg.CRT_STATUS, Reg.TIM_STATUS, Reg.ISL_STATUS, Reg.FUM_RING_LOST]) t ∧ t.dev.linkState l = 1 ∧
      t.dev.regN (Reg.FAB_Ln_DOWN l) = (d.regN (Reg.FAB_Ln_DOWN l) + 1) % 2 ^ 32)
  ∧ (∀ (s : State) (dt l : Nat) (h : HelloMsg) (d : Dev), d = later s.dev dt → (l < 6 ∧ d.linkState l = 2 ∧ (d.link l).hello = none ∧
      h.device < 64 ∧ h.link < 8) → h.fabricId ≠ d.fld Fld.FAB_CFG_FABRIC_ID → ∃ t, exec (.hello dt l h) s = .next t ∧
      moves s dt [.regs, .fab] (fun o => o ∈ [Reg.FAB_Ln_STATUS l]) t ∧ t.dev.linkState l = 4 ∧
      t.dev.fld (Fld.FAB_Ln_STATUS_PEER l) = h.device ∧ t.dev.fld (Fld.FAB_Ln_STATUS_PEER_LINK l) = h.link)
  ∧ (∀ (s : State) (dt l : Nat) (h : HelloMsg) (d : Dev), d = later s.dev dt → (l < 6 ∧ d.linkState l = 2 ∧ (d.link l).hello = none ∧
      d.hif.waiting = []) → (h.fabricId = d.fld Fld.FAB_CFG_FABRIC_ID ∧ h.device = d.deviceNo) → ∃ t,
      exec (.hello dt l h) s = .next t ∧ moves s dt [.regs, .fab] (fun o => o ∈ [Reg.FAB_Ln_STATUS l]) t ∧ t.dev.linkState l = 5)
  ∧ (∀ (s : State) (dt l : Nat) (h : HelloMsg) (d : Dev), d = later s.dev dt → (l < 6 ∧ d.linkState l = 2 ∧ (d.link l).hello = none ∧
      d.hif.waiting = []) → (h.fabricId = d.fld Fld.FAB_CFG_FABRIC_ID ∧ h.device ≠ d.deviceNo ∧ d.linkTaken l h = false) →
      (h.rate ≠ d.rate ∨ h.wait ≠ d.fld Fld.CRT_CFG_WAIT) → ∃ t, exec (.hello dt l h) s = .next t ∧ moves s dt [.regs,
      .fab] (fun o => o ∈ [Reg.FAB_Ln_STATUS l]) t ∧ t.dev.linkState l = 6)
  ∧ (∀ (s : State) (dt l : Nat) (h : HelloMsg) (d : Dev), d = later s.dev dt → (l < 6 ∧ d.linkState l = 2 ∧ (d.link l).hello = none ∧
      h.device < 64 ∧ h.link < 8) → (h.fabricId = d.fld Fld.FAB_CFG_FABRIC_ID ∧ h.device ≠ d.deviceNo ∧ d.linkTaken l h = false) →
      (h.rate = d.rate ∧ h.wait = d.fld Fld.CRT_CFG_WAIT ∧ d.fld (Fld.FAB_Ln_STATUS_LANE_FAIL l) = 0) → ∃ t,
      exec (.hello dt l h) s = .next t ∧ moves s dt [.regs, .hif, .fum, .tim, .fab,
      .snt] (fun o => eventReg o ∨ o / 0x1000 ∈ [0x120] ∨ o ∈ [Reg.CRT_VIEW, Reg.CRT_VIEW_CHG, Reg.CRT_STATUS, Reg.TIM_STATUS,
      Reg.ISL_STATUS, Reg.FUM_RING_LOST]) t ∧ t.dev.linkState l = 3 ∧ t.dev.fld (Fld.FAB_Ln_STATUS_WIDTH l) = 3 ∧
      t.dev.fld (Fld.FAB_Ln_STATUS_PEER l) = h.device)
  ∧ (∀ (s : State) (dt l : Nat) (p : LinkPacket) (corr uncorr : Nat) (d : Dev), d = later s.dev dt → (l < 6 ∧ 2 ≤ d.linkState l ∧
      d.linkState l ≤ 3 ∧ (p.crcOk = false ∨ 0 < uncorr)) → ∃ t, exec (.linkPacket dt l p corr uncorr) s = .next t ∧ moves s dt [.regs,
      .fab] (fun o => o ∈ [Reg.FAB_Ln_FEC_CORR l, Reg.FAB_Ln_FEC_UNCORR l]) t ∧ t.dev.regN (Reg.FAB_Ln_FEC_UNCORR l) = (d.regN
      (Reg.FAB_Ln_FEC_UNCORR l) + uncorr) % 2 ^ 32 ∧ Out.linkPkt l ((d.controlPkt l []).bytesOf 1 ((d.link l).returns true)) false ∈
      t.dev.out)
  ∧ (∀ (s : State) (dt l : Nat) (p : LinkPacket) (corr : Nat) (d : Dev), d = later s.dev dt → (l < 6 ∧ l < d.fab.links.length ∧ 2 ≤
      d.linkState l ∧ d.linkState l ≤ 3 ∧ p.crcOk = true ∧ p.nak = false ∧ p.kind = 0) → (((d.link l).rxSeq + 1) % 4096 = p.seq ∧ (d.link
      l).queue = [] ∧ (d.linkUp l = false ∨ p.dst = d.deviceNo)) → ∃ t, exec (.linkPacket dt l p corr 0) s = .next t ∧ moves s dt [.regs,
      .fab] (fun o => o ∈ [Reg.FAB_Ln_FEC_CORR l, Reg.FAB_Ln_FEC_UNCORR l]) t ∧ (t.dev.link l).rxSeq = p.seq ∧ (t.dev.link l).replay =
      (d.link l).replay.filter (fun q => laterThan 12 q.seq p.ackSeq) ∧ (∃ r : LinkReturn, Out.linkPkt l ((d.controlPkt l []).bytesOf 1 r)
      false ∈ t.dev.out ∧ r.ackSeq = p.seq ∧ r.nak = false ∧ ((d.link l).owed = [0, 0, 0, 0] → r.crVc = p.vc % 4 ∧ r.credits = min 65535
      (creditsOf p.len))))
  ∧ (∀ (s : State) (dt l : Nat) (p : LinkPacket) (corr : Nat) (d : Dev), d = later s.dev dt → (l < 6 ∧ l < d.fab.links.length ∧
      d.linkState l = 3 ∧ p.crcOk = true ∧ p.nak = false ∧ p.kind = 0) → (((d.link l).rxSeq + 1) % 4096 = p.seq ∧
      (d.link l).queue = [] ∧ p.dst ≠ d.deviceNo ∧ p.hopsLeft = 0) → ∃ t, exec (.linkPacket dt l p corr 0) s = .next t ∧
      moves s dt [.regs, .fab] (fun o => o ∈ [Reg.FAB_Ln_FEC_CORR l, Reg.FAB_Ln_FEC_UNCORR l, Reg.FAB_TTL_DROP]) t ∧
      t.dev.regN Reg.FAB_TTL_DROP = (d.regN Reg.FAB_TTL_DROP + 1) % 2 ^ 32)
  ∧ (∀ (s : State) (dt l : Nat) (d : Dev), d = later s.dev dt → (l < 6 ∧ l < d.fab.links.length ∧ 2 ≤ d.linkState l ∧ (d.link
      l).replay.isEmpty = false ∧ (d.link l).ackAt + 10000 ≤ d.up ∧ (d.link l).replays < 16) → ∃ t, exec (.replayTimeout dt l) s = .next t
      ∧ moves s dt [.regs, .fab] (fun o => o ∈ [Reg.FAB_Ln_RETRY l]) t ∧ t.dev.regN (Reg.FAB_Ln_RETRY l) = (d.regN (Reg.FAB_Ln_RETRY l) +
      1) % 2 ^ 32 ∧ (t.dev.link l).replays = (d.link l).replays + 1 ∧ t.dev.out.length = (d.link l).replay.length)
  ∧ (∀ (s : State) (dt l : Nat) (d : Dev), d = later s.dev dt → (l < 6 ∧ d.linkState l = 2 ∧ (d.link l).replay.isEmpty = false ∧ (d.link
      l).ackAt + 10000 ≤ d.up ∧ 16 ≤ (d.link l).replays) → ∃ t, exec (.replayTimeout dt l) s = .next t ∧ moves s dt [.regs, .fab] (fun o
      => o ∈ [Reg.FAB_Ln_STATUS l, Reg.FAB_Ln_DOWN l]) t ∧ t.dev.linkState l = 1)
  ∧ (∀ (s : State) (dt l lane : Nat) (d : Dev), d = later s.dev dt → (l < 6 ∧ lane < 4 ∧ d.linkUp l = true ∧
      d.fld (Fld.FAB_Ln_STATUS_LANE_FAIL l) = 0) → ∃ t, exec (.laneFail dt l lane) s = .next t ∧ moves s dt [.regs,
      .fab] (fun o => o ∈ [Reg.FAB_Ln_STATUS l, Reg.FAB_Ln_WIDTH_CHG l]) t ∧ t.dev.fld (Fld.FAB_Ln_STATUS_LANE_FAIL l) = 2 ^ lane ∧
      t.dev.fld (Fld.FAB_Ln_STATUS_WIDTH l) = min (d.fld (Fld.FAB_Ln_STATUS_WIDTH l)) 2)
  ∧ (∀ (s : State) (dt l : Nat) (d : Dev), d = later s.dev dt → (l < 6 ∧ d.linkUp l = true ∧
      d.fld (Fld.FAB_Ln_CFG_MIN_STATE l) < d.fld (Fld.FAB_Ln_STATUS_WIDTH l) ∧ (d.link l).grow = none) →
      ((d.link l).grewAt.all (fun x => decide (x + 10000000000 ≤ d.up)) = true ∧
      (d.link l).quietFrom + d.fld Fld.FAB_SHED_SHED_MS ≤ d.up / 1000000) → ∃ t, exec (.widthShed dt l) s = .next t ∧
      moves s dt [.regs, .fab] (fun o => o ∈ [Reg.FAB_Ln_STATUS l, Reg.FAB_Ln_WIDTH_CHG l]) t ∧
      t.dev.fld (Fld.FAB_Ln_STATUS_WIDTH l) = d.fld (Fld.FAB_Ln_STATUS_WIDTH l) - 1 ∧
      t.dev.regN (Reg.FAB_Ln_WIDTH_CHG l) = (d.regN (Reg.FAB_Ln_WIDTH_CHG l) + 1) % 2 ^ 32)
  ∧ (∀ (s : State) (dt l g : Nat) (d : Dev), d = later s.dev dt → (l < 6 ∧ l < d.fab.links.length ∧ d.linkUp l = true ∧ (d.link l).grow =
      some g ∧ d.fld (Fld.FAB_Ln_STATUS_LANE_FAIL l) = 0) → ∃ t, exec (.widthGrow dt l) s = .next t ∧ moves s dt [.regs, .fab] (fun o => o
      ∈ [Reg.FAB_Ln_STATUS l, Reg.FAB_Ln_WIDTH_CHG l]) t ∧ t.dev.fld (Fld.FAB_Ln_STATUS_WIDTH l) = min g 3 ∧ (d.fld
      (Fld.FAB_Ln_STATUS_WIDTH l) = min g 3 → (t.dev.link l).grow = none) ∧ (t.dev.link l).grewAt = some d.up)
  ∧ (∀ (s : State) (dt l src seq : Nat) (links : List LsaLink) (d : Dev), d = later s.dev dt → (src ≠ d.deviceNo ∧ src < 64 ∧
      d.linkUp l = true ∧ d.fab.lsas.find src = none) → ∃ t, exec (.lsa dt l src seq links) s = .next t ∧ moves s dt [.regs, .hif,
      .fum, .tim, .fab, .snt] (fun o => eventReg o ∨ o / 0x1000 ∈ [0x120] ∨ o ∈ [Reg.CRT_VIEW, Reg.CRT_VIEW_CHG, Reg.CRT_STATUS,
      Reg.TIM_STATUS, Reg.ISL_STATUS, Reg.FUM_RING_LOST]) t ∧ t.dev.fab.lsas.find src = some ⟨seq, links⟩)
  ∧ (∀ (s : State) (dt l src seq : Nat) (links : List LsaLink) (d : Dev) (old : LsaSt), d = later s.dev dt →
      (d.fab.lsas.find src = some old ∧ laterThan 32 seq old.seq = false) →
      exec (.lsa dt l src seq links) s = .next { s with dev := d })
  ∧ (∀ (s : State) (dt : Nat) (d : Dev), d = later s.dev dt → d.fab.lsaAt + 1000000000 ≤ d.up → ∃ t, exec (.lsaPeriodic dt) s = .next t ∧
      moves s dt [.fab] (fun _ => False) t ∧ t.dev.fab.lsaSeq = (d.fab.lsaSeq + 1) % 2 ^ 32 ∧ t.dev.fab.lsaAt = d.up ∧ ∀ l, l < 6 →
      d.linkUp l = true → Out.linkMsg l d.deviceNo (.lsa ((d.fab.lsaSeq + 1) % 2 ^ 32) d.ownLsa) ∈ t.dev.out)
  ∧ (∀ (s : State) (dt src vc last : Nat) (d : Dev), d = later s.dev dt → (∀ h, h ∈ d.fab.held → h.sent = true) → ∃ t,
      exec (.e2eAck dt src vc last) s = .next t ∧ moves s dt [.fab] (fun _ => False) t ∧
      t.dev.fab.held = d.fab.held.filter (fun h => !(decide (h.dst = src) && decide (h.vc = vc) && !laterThan 16 h.seq last)))
  ∧ (∀ (s : State) (dt : Nat) (d : Dev), d = later s.dev dt → ∃ t, exec (.e2eAckSend dt) s = .next t ∧
      moves s dt [.fab] (fun _ => False) t ∧ t.dev.fab.ackDue = [])
  ∧ (∀ (s : State) (dt dst : Nat) (d : Dev) (h : HeldMsg), d = later s.dev dt → (d.fab.held = [h] ∧ h.dst = dst ∧ h.sent = true ∧ h.sentAt
      + 200000 ≤ d.up ∧ d.reach dst = true) → ∃ t, exec (.e2eResendTimeout dt dst) s = .next t ∧ moves s dt [.regs, .fab] (fun o => o ∈
      [Reg.FAB_E2E_RETX]) t ∧ t.dev.regN Reg.FAB_E2E_RETX = (d.regN Reg.FAB_E2E_RETX + 1) % 2 ^ 32 ∧ Out.fabMsg dst h.vc h.seq h.msg ∈
      t.dev.out ∧ t.dev.fab.held = [{ h with sentAt := d.up }])
  ∧ (∀ (s : State) (dt n : Nat) (d : Dev) (h : HeldMsg), d = later s.dev dt → (d.reach n = true ∧ h ∈ d.fab.held ∧ h.dst = n ∧
      h.sent = true ∧ h.firstAt + 1000000 ≤ d.up) → (n < 64 ∧ d.others.testBit n = true ∧ d.fab.change = none) → ∃ t,
      exec (.e2eUnackedSuspect dt n) s = .next t ∧ moves s dt [.regs, .hif, .fum, .tim, .fab,
      .snt] (fun o => eventReg o ∨ o / 0x1000 ∈ [0x120] ∨ o ∈ [Reg.CRT_VIEW, Reg.CRT_VIEW_CHG, Reg.CRT_STATUS, Reg.TIM_STATUS,
      Reg.ISL_STATUS, Reg.FUM_RING_LOST]) t ∧ t.dev.regN Reg.FAB_SUSPECTS = (d.regN Reg.FAB_SUSPECTS + 1) % 2 ^ 32)
  ∧ (∀ (s : State) (dt dst : Nat) (d : Dev), d = later s.dev dt → d.reach dst = false → exec (.e2eResendTimeout dt dst) s = .next
      { s with dev := d })
  ∧ (∀ (s : State) (dt l : Nat) (p : LinkPacket) (d : Dev), d = later s.dev dt → (l < 6 ∧ d.linkUp l = true ∧ p.crcOk = true ∧ p.nak =
      false ∧ p.kind = 1) → (p.payload ≠ [] ∧ (d.link l).queue = []) → ∃ t, exec (.linkPacket dt l p 0 0) s = .next t ∧ moves s dt [.regs,
      .fab] (fun o => o ∈ [Reg.FAB_Ln_STATUS l, Reg.FAB_Ln_WIDTH_CHG l, Reg.FAB_Ln_FEC_CORR l, Reg.FAB_Ln_FEC_UNCORR l]) t ∧ t.dev.fld
      (Fld.FAB_Ln_STATUS_WIDTH l) = (Config.widthNamed p.payload).elim (d.fld (Fld.FAB_Ln_STATUS_WIDTH l)) (fun w => if w < 4 then w else
      d.fld (Fld.FAB_Ln_STATUS_WIDTH l)))
  ∧ (∀ (s : State) (dt l : Nat) (p : LinkPacket) (d : Dev), d = later s.dev dt → (l < 6 ∧ 3 < d.linkState l) → ∃ t, exec (.linkPacket dt l
      p 0 0) s = .next t ∧ moves s dt [.regs] (fun o => o ∈ [Reg.FAB_Ln_FEC_CORR l, Reg.FAB_Ln_FEC_UNCORR l]) t ∧ t.dev.out = [])

/-- Membership of the fabric: heartbeats, suspicion, view changes, joins, histories and the summit. That a message is taken once and in
order is R423's rule (Dev.receive). That adopted suspects are not counted is the model's reading (log 95). Rests on R430, R431, R432,
R435, R436, R440, R441, R442; the statement is derived. -/
def Obligations.MembershipEventsTakeEffect : Prop :=
  (∀ (s : State) (dt : Nat) (d : Dev), d = later s.dev dt → (d.joined = true ∧ d.fab.hbSentAt + 250000 ≤ d.up) →
      exec (.heartbeatSend dt) s = .next
      { s with dev := (d.modFab (fun f => { f with hbSentAt := d.up })).sendAll d.others (.heartbeat d.view.num) })
  ∧ (∀ (s : State) (dt src seq : Nat) (d d1 : Dev), d = later s.dev dt → (d.receive src 1 seq = (d1, true) ∧
      d1.view.members.testBit src = true) → ∃ t, exec (.heartbeat dt src seq) s = .next t ∧ moves s dt [.fab] (fun _ => False) t ∧
      t.dev.fab.hbAt.find src = some d.up)
  ∧ (∀ (s : State) (dt n : Nat) (d : Dev), d = later s.dev dt → (n < 64 ∧ d.joined = true ∧ d.others.testBit n = true ∧
      d.fab.hbAt.find n = some 0 ∧ 1000000 ≤ d.up ∧ d.fab.change = none) → ∃ t, exec (.heartbeatTimeout dt n) s = .next t ∧
      moves s dt [.regs, .hif, .fum, .tim, .fab, .snt] (fun o => eventReg o ∨ o / 0x1000 ∈ [0x120] ∨ o ∈ [Reg.CRT_VIEW,
      Reg.CRT_VIEW_CHG, Reg.CRT_STATUS, Reg.TIM_STATUS, Reg.ISL_STATUS, Reg.FUM_RING_LOST]) t ∧
      t.dev.regN Reg.FAB_SUSPECTS = (d.regN Reg.FAB_SUSPECTS + 1) % 2 ^ 32)
  ∧ (∀ (s : State) (dt src seq mask : Nat) (d d1 : Dev), d = later s.dev dt → (d.receive src 1 seq = (d1, true) ∧
      d1.others.testBit src = true ∧ mask ≠ 0 ∧ mask &&& d1.others = 0) → ∃ t, exec (.suspect dt src seq d.view.num mask) s = .next t ∧
      moves s dt [.fab] (fun _ => False) t ∧ t.dev.fab.change = d.fab.change)
  ∧ (∀ (s : State) (dt src seq n : Nat) (d d1 : Dev), d = later s.dev dt → (d.receive src 1 seq = (d1, true) ∧
      d1.others.testBit src = true ∧ d1.others.testBit n = true ∧ n < 64 ∧ d1.fab.change = none) →
      coordinator d1.view (2 ^ n) d1.deviceNo ≠ d1.deviceNo → ∃ t, exec (.suspect dt src seq d.view.num (2 ^ n)) s = .next t ∧
      moves s dt [.regs, .fab] (fun o => o ∈ [Reg.FAB_STATUS]) t ∧
      t.dev.fab.change = some { suspects := 2 ^ n, joiner := none, states := [], since := d.up } ∧
      t.dev.bit Fld.FAB_STATUS_VIEW_CHANGE = true ∧ t.dev.regN Reg.FAB_SUSPECTS = d.regN Reg.FAB_SUSPECTS)
  ∧ (∀ (s : State) (dt src seq u : Nat) (d d1 : Dev) (c : ViewChange), d = later s.dev dt → (d.receive src 1 seq = (d1, true) ∧
      d1.others.testBit src = true ∧ d1.fab.change = some c) → (c.joiner = none ∧
      coordinator d1.view c.suspects d1.deviceNo ≠ d1.deviceNo) → ∃ t, exec (.state dt src seq d.view.num u c.suspects) s = .next t ∧
      moves s dt [.fab] (fun _ => False) t ∧ t.dev.fab.change.any (fun x => decide (x.states = c.states.put src (u,
      c.suspects))) = true)
  ∧ (∀ (s : State) (dt src seq : Nat) (m : NewViewMsg) (d d1 : Dev), d = later s.dev dt → (d.receive src 1 seq = (d1, true) ∧
      d1.others.testBit src = true ∧ m.prevView = d1.view.num ∧ m.members.testBit d1.deviceNo = true) → (d1.fab.joinReqs = [] ∧ m.members
      < 2 ^ 64 ∧ m.summit < 64 ∧ m.view < 2 ^ 32) → ∃ t, exec (.newView dt src seq m) s = .next t ∧ moves s dt [.regs, .hif, .fum, .tim,
      .fab, .snt] (fun o => eventReg o ∨ o / 0x1000 ∈ [0x120] ∨ o ∈ [Reg.CRT_VIEW, Reg.CRT_VIEW_CHG, Reg.CRT_STATUS, Reg.TIM_STATUS,
      Reg.ISL_STATUS, Reg.FUM_RING_LOST]) t ∧ t.dev.regN Reg.CRT_VIEW = m.view ∧ t.dev.reg64 Reg.FAB_MEMBERS_LO = m.members ∧ t.dev.fld
      Fld.FAB_STATUS_SUMMIT = m.summit ∧ t.dev.fab.views.head? = some
      { num := m.view, fromEpoch := m.fromEpoch, members := m.members, summit := m.summit, minority := m.minority, at_ := d1.g16 }
      ∧ t.dev.bit Fld.FAB_STATUS_VIEW_CHANGE = false ∧ t.dev.bit
      Fld.CRT_STATUS_SPLIT = m.minority ∧ t.dev.regN Reg.CRT_VIEW_CHG = (d.regN Reg.CRT_VIEW_CHG + 1) % 2 ^ 32)
  ∧ (∀ (s : State) (dt src seq : Nat) (m : FwdDone) (d d1 : Dev), d = later s.dev dt → d.receive src 1 seq = (d1, true) → ∃ t, exec
      (.fwdDone dt src seq m) s = .next t ∧ moves s dt [.fab] (fun _ => False) t ∧ t.dev.fab.fwdDone.find m.view = some (putBit
      (d1.fab.fwdDone.getD m.view 0) src true) ∧ t.dev.fab.fwdDue.getD src 0 = d1.fab.fwdDue.getD src 0 + m.count)
  ∧ (∀ (s : State) (dt src seq : Nat) (d d1 : Dev), d = later s.dev dt → (d.receive src 1 seq = (d1, true) ∧ d1.joined = true ∧
      d1.others.testBit src = true ∧ d1.fab.change = none ∧ src < 64) → ∃ t, exec (.depart dt src seq) s = .next t ∧ moves s dt [.regs,
      .hif, .fum, .tim, .fab, .snt] (fun o => eventReg o ∨ o / 0x1000 ∈ [0x120] ∨ o ∈ [Reg.CRT_VIEW, Reg.CRT_VIEW_CHG, Reg.CRT_STATUS,
      Reg.TIM_STATUS, Reg.ISL_STATUS, Reg.FUM_RING_LOST]) t ∧ t.dev.regN Reg.FAB_SUSPECTS = (d.regN Reg.FAB_SUSPECTS + 1) % 2 ^ 32)
  ∧ (∀ (s : State) (dt src seq : Nat) (d d1 : Dev), d = later s.dev dt → (d.receive src 1 seq = (d1, true) ∧ d1.fab.change.isSome = true ∧
      d1.fab.joinReqs = []) → ∃ t, exec (.joinReq dt src seq d.rate (d.fld Fld.CRT_CFG_WAIT)) s = .next t ∧
      moves s dt [.fab] (fun _ => False) t ∧ t.dev.fab.joinReqs = [(src, d.up)])
  ∧ (∀ (s : State) (dt t0 : Nat) (d : Dev) (w : WaitCmd), d = later s.dev dt → (d.fab.joining = some t0 ∧ t0 + 1000000000 ≤ d.up ∧
      d.hif.waiting = [w] ∧ w.kind = .fabJoin) → ∃ t, exec (.joinTimeout dt) s = .next t ∧ moves s dt [.regs, .hif, .fab] signalReg t ∧
      t.dev.fab.joining = none ∧ t.dev.hif.waiting = [])
  ∧ (∀ (s : State) (dt src seq first last i : Nat) (d d1 : Dev), d = later s.dev dt → d.receive src 3 seq = (d1, true) →
      exec (.histReq dt src seq first last [i]) s = .next { s with dev := d1.feedHistory src i first last })
  ∧ (∀ (s : State) (dt src seq e count : Nat) (r : Rec) (d d1 : Dev) (ent : StreamEntry), d = later s.dev dt → (d.receive src 3 seq = (d1,
      true) ∧ (d1.stream r.stream).awaiting = none ∧ (d1.stream r.stream).entry.newest = some ent ∧
      d1.fab.histWant.find r.stream = none) → ∃ t, exec (.histRec dt src seq e count r) s = .next t ∧ moves s dt [.crt,
      .fab] (fun _ => False) t ∧ t.dev.hist r.stream =
      { recs := (putHist ⟨e, r, ent.chanBase, ent.nchan⟩ (d1.hist r.stream).recs).take 257, count := count, lost := decide (ent.staleN ≤ count) })
  ∧ (∀ (s : State) (dt src seq view : Nat) (d d1 : Dev), d = later s.dev dt → (d.receive src 1 seq = (d1, true) ∧ view = d1.view.num ∧
      src = d1.view.summit) → ∃ t, exec (.summit dt src seq view) s = .next t ∧ moves s dt [.regs,
      .fab] (fun o => o ∈ [Reg.FAB_STATUS]) t ∧ t.dev.bit Fld.FAB_STATUS_ELECTION = false)
  ∧ (∀ (s : State) (dt silent : Nat) (d x : Dev), d = later s.dev dt → (d.bit Fld.FAB_STATUS_ELECTION = true ∧ d.isSummit = true ∧
      (d.fab.electVotes ||| silent) &&& d.view.members = d.view.members ∧ d.fab.electTimes &&& d.view.members = d.view.members) → x =
      ((d.setBit Fld.FAB_STATUS_ELECTION false).modFum (fun f => { f with votes := f.votes.keep (fun n _ => !silent.testBit n) })).sendAll
      d.others (.summit d.view.num) → exec (.summitElect dt silent) s = .next { s with dev := x.recount none false })
  ∧ (∀ (s : State) (dt n : Nat) (d : Dev), d = later s.dev dt → (d.bit Fld.FAB_CFG_AUTO_REJOIN = true ∧ d.bit Fld.CRT_STATUS_SPLIT = true ∧
      d.fab.joining = none ∧ d.reach n = true ∧ d.fab.rejoinAt = none) →
      exec (.autoRejoin dt n) s = .next
      { s with dev := (d.modFab (fun f => { f with rejoinAt := some d.up })).requestJoin (some n) true })
  ∧ (∀ (s : State) (dt silent : Nat) (d : Dev), d = later s.dev dt → (d.bit Fld.FAB_STATUS_ELECTION = false ∧ d.isSummit = true ∧ d.joined
      = true) → exec (.summitElect dt silent) s = .next { s with dev := (d.modFum (fun f =>
      { f with votes := f.votes.keep (fun n _ => !silent.testBit n) })).recount none false })

/-- The fabric's commands complete with the status and the answer of R444. The order of FAB_JOIN's refusals is the model's reading (log
15). Rests on R427, R436, R437, R439, R444, R445; the statement is derived. -/
def Obligations.FabricCommandsComplete : Prop :=
  (∀ (s : State) (c : Ctx) (d : Dev), ready s.dev c.ring true none → d = fetched s.dev c.ring → (d.joined = false ∧
      d.fab.joining = none ∧ d.joinTarget = none ∧ d.fab.joinReqs = []) → (d.bit Fld.ING_CTRL_EN = false ∧
      (List.range 6).any (fun l => decide (5 ≤ d.linkState l)) = false) →
      exec (.fabJoin c) s = .next (served s c (d.requestJoin none false) (.wait .fabJoin)))
  ∧ (∀ (s : State) (c : Ctx) (d : Dev), ready s.dev c.ring true none → d = fetched s.dev c.ring →
      (d.joined = true ∨ d.fab.joining.isSome = true) → exec (.fabJoin c) s = .next (served s c d (.done sBusy 0)))
  ∧ (∀ (s : State) (c : Ctx) (d : Dev), ready s.dev c.ring true none → d = fetched s.dev c.ring → (d.joined = false ∧
      d.fab.joining = none) → ((d.bit Fld.ING_CTRL_EN = true ∧
      d.acquired = false) ∨ (List.range 6).any (fun l => decide (d.linkState l = 6)) = true) →
      exec (.fabJoin c) s = .next (served s c d (.done sRange 0)))
  ∧ (∀ (s : State) (c : Ctx) (d : Dev), ready s.dev c.ring true none → d = fetched s.dev c.ring → (d.joined = false ∧
      d.fab.joining = none ∧ d.bit Fld.ING_CTRL_EN = false) → ((List.range 6).any (fun l => decide (d.linkState l = 6)) = false ∧
      (List.range 6).any (fun l => decide (d.linkState l = 5)) = true) →
      exec (.fabJoin c) s = .next (served s c d (.done sDupDevice 0)))
  ∧ (∀ (s : State) (c : Ctx) (d : Dev), ready s.dev c.ring true none → d = fetched s.dev c.ring →
      exec (.fabLeave c) s = .next (served s c (if d.joined then (d.modFab (fun f => { f with leaving := true })).sendAll d.others
      (.depart 0) else d) (if d.joined then .wait .fabLeave else .done sNotValid 0)))
  ∧ (∀ (s : State) (c : Ctx) (d : Dev) (buf : HostBuf), ready s.dev c.ring false none → d = fetched s.dev c.ring →
      exec (.fabRouteRead c buf) s = .next (served s c d (if buf.len < 512 then .done sRange 0 else .block ((List.range 64).flatMap
      d.routeBytes) (some buf.addr))))
  ∧ (∀ (s : State) (c : Ctx) (d : Dev) (buf : HostBuf), ready s.dev c.ring false none → d = fetched s.dev c.ring → (32 ≤ buf.len ∧
      d.fab.change = none) → exec (.fabViewRead c buf) s = .next (served s c d (.block (leBytes 4 d.view.num ++ leBytes 8
      d.view.fromEpoch ++ leBytes 8 d.view.members ++ [BitVec.ofNat 8 d.view.summit, BitVec.ofNat 8 (coordinator d.view 0 d.deviceNo),
      BitVec.ofNat 8 (b2n d.view.minority)] ++ zeros 9) (some buf.addr))))
  ∧ (∀ (s : State) (c : Ctx) (d : Dev) (buf : HostBuf), ready s.dev c.ring false none → d = fetched s.dev c.ring → buf.len < 32 →
      exec (.fabViewRead c buf) s = .next (served s c d (.done sRange 0)))
  ∧ (∀ (s : State) (c : Ctx) (d : Dev) (n i : Nat), ready s.dev c.ring false none → d = fetched s.dev c.ring → (i < 8192 ∧
      (d.fab.lost.find (8192 * n + i)).isSome = true) →
      exec (.fabStreamDrop c n i) s = .next (served s c (d.modFab (fun f => { f with lost := f.lost.drop (8192 * n + i) })) (.ok)))
  ∧ (∀ (s : State) (c : Ctx) (d : Dev) (n i : Nat), ready s.dev c.ring false none → d = fetched s.dev c.ring →
      (8191 < i ∨ d.fab.lost.find (8192 * n + i) = none) → exec (.fabStreamDrop c n i) s = .next (served s c d (.done sRange 0)))

/-- Rings start, stop and drain, and doorbells post descriptors or are refused. What a ring in ERROR shows in POSTED is the model's reading
(log 125). That buffer descriptors are read with the doorbell is the model's reading (log 176). Rests on R451, R452, R454, R455; the
statement is derived. -/
def Obligations.RingsTakeEffect : Prop :=
  (∀ (s : State) (n : Nat) (v : Word) (d : Dev), d = later s.dev 0 → (n < 32 ∧ d.ringIdle n = true ∧ bitsAt v 0 1 = 1) → (6 ≤ bitsAt v 5 5
      ∧ bitsAt v 5 5 ≤ 16) → d.othersOf n (bitsAt v 1 4) < ringsAllowed (bitsAt v 1 4) → (bitsAt v 1 4 = 4 → d.hif.stages = [] ∧
      d.crt.carry = [] ∧ d.crt.waiting = []) → ∃ t, exec (.ringEnable n v) s = .next t ∧ moves s 0 [.regs, .hif] (fun o => o ∈
      [Reg.HIF_RINGn_CFG n, Reg.HIF_RINGn_STAT n, Reg.HIF_RINGn_POSTED n, Reg.HIF_RINGn_DONE n]) t ∧ t.dev.reg (Reg.HIF_RINGn_CFG n) = v ∧
      t.dev.regN (Reg.HIF_RINGn_STAT n) = 1 ∧ t.dev.regN (Reg.HIF_RINGn_POSTED n) = 0 ∧ t.dev.regN (Reg.HIF_RINGn_DONE n) = 0 ∧
      (t.dev.ring n).next = 0 ∧ (t.dev.ring n).open_ = [] ∧ (t.dev.ring n).bufs = [] ∧ (t.dev.ring n).cur = none ∧ t.dev.hif.waiting =
      d.hif.waiting)
  ∧ (∀ (s : State) (n : Nat) (v : Word) (d : Dev), d = later s.dev 0 → (n < 32 ∧ d.ringIdle n = true ∧ bitsAt v 0 1 = 1) →
      ringsAllowed (bitsAt v 1 4) ≤ d.othersOf n (bitsAt v 1 4) → ∃ t, exec (.ringEnable n v) s = .next t ∧
      moves s 0 [.regs] (fun o => o ∈ [Reg.HIF_RINGn_CFG n, Reg.HIF_STATUS]) t ∧ t.dev.bit (Fld.HIF_RINGn_CFG_EN n) = false ∧
      t.dev.fld (Fld.HIF_RINGn_CFG_KIND n) = bitsAt v 1 4 ∧ t.dev.bit Fld.HIF_STATUS_CFG_ERR = true ∧
      t.dev.bit Fld.HIF_STATUS_CMD_READY = d.bit Fld.HIF_STATUS_CMD_READY)
  ∧ (∀ (s : State) (n : Nat) (v : Word) (d : Dev), d = later s.dev 0 → (n < 32 ∧ d.bit (Fld.HIF_RINGn_CFG_EN n) = true ∧
      bitsAt v 0 1 = 1) → bitsAt v 1 9 ≠ bitsAt (d.reg (Reg.HIF_RINGn_CFG n)) 1 9 → ∃ t, exec (.ringEnable n v) s = .next t ∧
      moves s 0 [.regs] (fun o => o ∈ [Reg.HIF_RINGn_CFG n, Reg.HIF_STATUS]) t ∧
      bitsAt (t.dev.reg (Reg.HIF_RINGn_CFG n)) 0 10 = bitsAt (d.reg (Reg.HIF_RINGn_CFG n)) 0 10 ∧
      bitsAt (t.dev.reg (Reg.HIF_RINGn_CFG n)) 10 22 = bitsAt v 10 22 ∧ t.dev.bit Fld.HIF_STATUS_CFG_ERR = true)
  ∧ (∀ (s : State) (n : Nat) (d : Dev), d = later s.dev 0 → (n < 32 ∧ d.bit (Fld.HIF_RINGn_CFG_EN n) = true) →
      (6 ≤ d.fld (Fld.HIF_RINGn_CFG_LOG2_SIZE n) ∧ d.fld (Fld.HIF_RINGn_CFG_LOG2_SIZE n) ≤ 16) → ∃ t,
      exec (.ringDisable n) s = .next t ∧ moves s 0 [.regs, .hif] (fun o => o ∈ [Reg.HIF_RINGn_CFG n, Reg.HIF_RINGn_STAT n]) t ∧
      t.dev.bit (Fld.HIF_RINGn_CFG_EN n) = false ∧ t.dev.fld (Fld.HIF_RINGn_STAT_STATE n) = 2 ∧
      t.dev.fld (Fld.HIF_RINGn_CFG_KIND n) = d.fld (Fld.HIF_RINGn_CFG_KIND n) ∧ (t.dev.ring n).bufs = [] ∧ (t.dev.ring n).cur = none ∧
      t.dev.hif.waiting = d.hif.waiting)
  ∧ (∀ (s : State) (dt n : Nat) (d : Dev), d = later s.dev dt → (n < 32 ∧ d.fld (Fld.HIF_RINGn_STAT_STATE n) = 2) → ∃ t,
      exec (.ringDrained dt n) s = .next t ∧ moves s dt [.regs] (fun o => o ∈ [Reg.HIF_RINGn_STAT n]) t ∧
      t.dev.fld (Fld.HIF_RINGn_STAT_STATE n) = 0 ∧ t.dev.bit (Fld.HIF_RINGn_STAT_ARMED n) = d.bit (Fld.HIF_RINGn_STAT_ARMED n))
  ∧ (∀ (s : State) (dt n : Nat) (d : Dev), d = later s.dev dt → d.fld (Fld.HIF_RINGn_STAT_STATE n) ≠ 2 → ∃ t,
      exec (.ringDrained dt n) s = .next t ∧ moves s dt [] (fun _ => False) t)
  ∧ (∀ (s : State) (n size v : Nat) (d : Dev), d = later s.dev 0 → (n < 32 ∧ (size = 4 ∨ size = 8) ∧ v < 2 ^ 32) →
      (d.bit (Fld.HIF_RINGn_CFG_EN n) = true ∧ d.fld (Fld.HIF_RINGn_STAT_STATE n) ≠ 3 ∧ d.fld (Fld.HIF_RINGn_CFG_KIND n) < 4) →
      0 ≤ signedDiff 32 v (d.regN (Reg.HIF_RINGn_POSTED n)) → d.ownedThen n v ≤ 2 ^ d.fld (Fld.HIF_RINGn_CFG_LOG2_SIZE n) → ∃ t,
      exec (.doorbell (256 * n) size v []) s = .next t ∧ moves s 0 [.regs] (fun o => o ∈ [Reg.HIF_RINGn_POSTED n]) t ∧
      t.dev.regN (Reg.HIF_RINGn_POSTED n) = v ∧ t.dev.out = [])
  ∧ (∀ (s : State) (n v : Nat) (d : Dev), d = later s.dev 0 → (n < 32 ∧ v < 2 ^ 32) → (d.bit (Fld.HIF_RINGn_CFG_EN n) = true ∧
      d.fld (Fld.HIF_RINGn_STAT_STATE n) ≠ 3 ∧ d.fld (Fld.HIF_RINGn_CFG_KIND n) < 4) →
      0 ≤ signedDiff 32 v (d.regN (Reg.HIF_RINGn_POSTED n)) → d.ownedThen n v ≤ 2 ^ d.fld (Fld.HIF_RINGn_CFG_LOG2_SIZE n) →
      (d.ring n).unsignalled = 0 → ∃ t, exec (.doorbell (256 * n) 8 (2 ^ 32 + v) []) s = .next t ∧
      moves s 0 [.regs] (fun o => o ∈ [Reg.HIF_RINGn_POSTED n, Reg.HIF_RINGn_STAT n]) t ∧ t.dev.regN (Reg.HIF_RINGn_POSTED n) = v ∧
      t.dev.bit (Fld.HIF_RINGn_STAT_ARMED n) = true ∧ t.dev.fld (Fld.HIF_RINGn_STAT_STATE n) = d.fld (Fld.HIF_RINGn_STAT_STATE n) ∧
      t.dev.out = [])
  ∧ (∀ (s : State) (n v kind k : Nat) (bufs : List PostedBuf) (d : Dev) (r : RingSt), d = later s.dev 0 → (n < 32 ∧ v < 2 ^ 32) → (d.bit
      (Fld.HIF_RINGn_CFG_EN n) = true ∧ d.fld (Fld.HIF_RINGn_STAT_STATE n) ≠ 3 ∧ d.fld (Fld.HIF_RINGn_CFG_KIND n) = kind) → (5 ≤ kind ∧
      kind ≤ 8 ∧ d.ringQ kind = []) → (signedDiff 32 v (d.regN (Reg.HIF_RINGn_POSTED n)) = (k : Int) ∧ 0 < k ∧ bufs.length = k ∧ bufs.all
      (fun b => b.readOk) = true) → (d.ownedThen n v ≤ 2 ^ d.fld (Fld.HIF_RINGn_CFG_LOG2_SIZE n) ∧ d.hif.rings[n]? = some r ∧ r.rest =
      none) → (r.cur.isSome = true ∨ (r.bufs ++ bufs.map (fun b => (⟨b.addr, b.len, b.resv⟩ : BufDesc))).head?.all (fun b => b.ok) = true)
      → ∃ t, exec (.doorbell (256 * n) 4 v bufs) s = .next t ∧ moves s 0 [.regs, .hif] (fun o => o ∈ [Reg.HIF_RINGn_POSTED n]) t ∧
      t.dev.regN (Reg.HIF_RINGn_POSTED n) = v ∧ t.dev.hif.rings[n]? = some
      { r with bufs := r.bufs ++ bufs.map (fun b => ⟨b.addr, b.len, b.resv⟩) } ∧ t.dev.hif.waiting = d.hif.waiting)
  ∧ (∀ (s : State) (n size v : Nat) (d : Dev), d = later s.dev 0 → (n < 32 ∧ (size = 4 ∨ size = 8) ∧ v < 2 ^ 32) →
      (d.bit (Fld.HIF_RINGn_CFG_EN n) = true ∧ d.fld (Fld.HIF_RINGn_STAT_STATE n) ≠ 3) →
      signedDiff 32 v (d.regN (Reg.HIF_RINGn_POSTED n)) < 0 → ∃ t, exec (.doorbell (256 * n) size v []) s = .next t ∧
      moves s 0 [.regs] (fun o => o ∈ [Reg.HIF_DB_BAD]) t ∧ t.dev.regN Reg.HIF_DB_BAD = (d.regN Reg.HIF_DB_BAD + 1) % 2 ^ 32)
  ∧ (∀ (s : State) (off size v : Nat) (bufs : List PostedBuf) (d : Dev), d = later s.dev 0 → (off % 256 ≠ 0 ∨ 32 ≤ off / 256 ∨ (size ≠ 4 ∧
      size ≠ 8) ∨ 2 ^ 33 ≤ v ∨ d.bit (Fld.HIF_RINGn_CFG_EN (off / 256)) = false ∨ d.fld (Fld.HIF_RINGn_STAT_STATE (off / 256)) = 3) →
      ∃ t, exec (.doorbell off size v bufs) s = .next t ∧ moves s 0 [.regs] (fun o => o ∈ [Reg.HIF_DB_BAD]) t ∧
      t.dev.regN Reg.HIF_DB_BAD = (d.regN Reg.HIF_DB_BAD + 1) % 2 ^ 32)
  ∧ (∀ (s : State) (n size v : Nat) (bufs : List PostedBuf) (d : Dev), d = later s.dev 0 → (n < 32 ∧ (size = 4 ∨ size = 8) ∧ v < 2 ^ 32) →
      (d.bit (Fld.HIF_RINGn_CFG_EN n) = true ∧ d.fld (Fld.HIF_RINGn_STAT_STATE n) ≠ 3) →
      0 ≤ signedDiff 32 v (d.regN (Reg.HIF_RINGn_POSTED n)) → 2 ^ d.fld (Fld.HIF_RINGn_CFG_LOG2_SIZE n) < d.ownedThen n v → ∃ t,
      exec (.doorbell (256 * n) size v bufs) s = .next t ∧ moves s 0 [.regs, .hif] (fun o => signalReg o ∨ o ∈ [Reg.HIF_EVT_LOST]) t ∧
      t.dev.fld (Fld.HIF_RINGn_STAT_STATE n) = 3 ∧ t.dev.fld (Fld.HIF_RINGn_STAT_ERR_CODE n) = sRange ∧ (t.dev.ring n).bufs = [] ∧
      t.dev.hif.waiting = d.hif.waiting)
  ∧ (∀ (s : State) (n v k : Nat) (bufs : List PostedBuf) (d : Dev), d = later s.dev 0 → (n < 32 ∧ v < 2 ^ 32) → (d.bit
      (Fld.HIF_RINGn_CFG_EN n) = true ∧ d.fld (Fld.HIF_RINGn_STAT_STATE n) ≠ 3 ∧ 4 ≤ d.fld (Fld.HIF_RINGn_CFG_KIND n)) → (signedDiff 32 v
      (d.regN (Reg.HIF_RINGn_POSTED n)) = (k : Int) ∧ (bufs.length < k ∨ (bufs.take k).any (fun b => !b.readOk) = true)) → d.ownedThen n v
      ≤ 2 ^ d.fld (Fld.HIF_RINGn_CFG_LOG2_SIZE n) → ∃ t, exec (.doorbell (256 * n) 4 v bufs) s = .next t ∧ moves s 0 [.regs, .hif] (fun o
      => signalReg o ∨ o ∈ [Reg.HIF_EVT_LOST, Reg.HIF_DMA_ERR, Reg.HIF_RINGn_POSTED n]) t ∧ t.dev.fld (Fld.HIF_RINGn_STAT_STATE n) = 3 ∧
      t.dev.regN Reg.HIF_DMA_ERR = (d.regN Reg.HIF_DMA_ERR + 1) % 2 ^ 32 ∧ t.dev.hif.waiting = d.hif.waiting)

/-- Commands are accepted and wait; buffers, messages, resets and the link of the host interface act. Where R458 does not draw an operand
block its layout is the model's reading (log 18). Rests on R449, R450, R456, R459, R463, R471, R474; the statement is derived. -/
def Obligations.HostInterfaceTakesEffect : Prop :=
  (∀ (s : State) (r : RawCmd) (x : Dev) (f : CmdForm), formOf s.key r (rawOpcode r) = some f → x = fetched s.dev r.ring →
      (r.descOk = true ∧ rawBad r f.need = false) → ready s.dev r.ring f.waits f.gate →
      (served s (rawCtx r) (f.run x).1 (f.run x).2).dev.clk.ratioBroken = false →
      exec (.commandAccept r) s = .next (served s (rawCtx r) (f.run x).1 (f.run x).2))
  ∧ (∀ (s : State) (r : RawCmd) (x : Dev) (f : CmdForm), formOf s.key r (rawOpcode r) = some f → (x = fetched s.dev r.ring ∧
      s.dev.clk.ratioBroken = false) → (r.descOk = true ∧ rawMalformed r = true) → ready s.dev r.ring f.waits none →
      exec (.commandAccept r) s = .next (served s (rawCtx r) x (.done sBadDesc 0)))
  ∧ (∀ (s : State) (r : RawCmd) (x : Dev), ((formOf s.key r (rawOpcode r)).isNone = true ∧ rawOpcode r ∉ [0x0E02, 0x0F02, 0x1101]) →
      (x = fetched s.dev r.ring ∧ s.dev.clk.ratioBroken = false) → r.descOk = true → ready s.dev r.ring false none →
      exec (.commandAccept r) s = .next (served s (rawCtx r) x (.done sBadDesc 0)))
  ∧ (∀ (s : State) (r : RawCmd) (d : Dev), d = later s.dev 0 → (r.descOk = false ∧ d.offers r.ring = true ∧
      s.dev.clk.ratioBroken = false) → ∃ t, exec (.commandAccept r) s = .next t ∧ moves s 0 [.regs,
      .hif] (fun o => signalReg o ∨ o ∈ [Reg.HIF_EVT_LOST, Reg.HIF_DMA_ERR]) t ∧ t.dev.fld (Fld.HIF_RINGn_STAT_STATE r.ring) = 3 ∧
      t.dev.regN Reg.HIF_DMA_ERR = (d.regN Reg.HIF_DMA_ERR + 1) % 2 ^ 32 ∧ t.dev.hif.waiting = d.hif.waiting)
  ∧ (∀ (s : State) (dt : Nat) (d : Dev) (w : WaitCmd), d = later s.dev dt → (w ∈ d.hif.waiting ∧ d.occurred w.kind = true ∧
      w.dead = false ∧ w.session = (d.ring w.ring).session) → (d.hostReady = true ∧ d.fld (Fld.HIF_RINGn_STAT_STATE w.ring) = 1) →
      d.hif.waiting.all (fun x => decide (x.ring < 32)) = true → ∃ t, exec (.commandWaitDone dt) s = .next t ∧ moves s dt [.regs, .hif,
      .inv] signalReg t ∧ ∃ ph, Out.completion w.ring w.k sOk 0 ph ∈ t.dev.out ∧
      t.dev.hif.waiting = d.hif.waiting.filter (fun x => !d.occurred x.kind) ∧ t.dev.inv.norBusy = false)
  ∧ (∀ (s : State) (dt : Nat) (d : Dev), d = later s.dev dt → d.hif.waiting.any (fun x => d.occurred x.kind) = false → ∃ t,
      exec (.commandWaitDone dt) s = .next t ∧ moves s dt [.inv] (fun _ => False) t ∧ t.dev.inv.norBusy = false ∧
      t.dev.hif.waiting = d.hif.waiting)
  ∧ (∀ (s : State) (dt n kind : Nat) (d x : Dev) (r : RingRec) (rest : List RingRec), d = later s.dev dt → (5 ≤ kind ∧ kind ≤ 8 ∧ d.fld
      (Fld.HIF_RINGn_CFG_KIND n) = kind ∧ d.ringOf kind = some n) → (d.hostReady = true ∧ d.ringQ kind = r :: rest ∧ (d.ring n).rest =
      none) → d.place n kind r = (x, true) → ∃ t, exec (.bufferComplete dt n) s = .next t ∧ moves s dt [.regs, .hif] signalReg t ∧
      (t.dev.ringQ kind).length ≤ rest.length ∧ t.dev.hif.waiting = d.hif.waiting)
  ∧ (∀ (s : State) (dt n : Nat) (d : Dev) (b : OpenBuf), d = later s.dev dt → (n < 32 ∧ (d.ring n).cur = some b ∧ 0 < b.used ∧
      d.hostReady = true) → (d.fld (Fld.HIF_RINGn_CFG_COALESCE_US n) ≠ 0 ∧
      b.firstAt + d.fld (Fld.HIF_RINGn_CFG_COALESCE_US n) * 1000 ≤ d.up) → ∃ t, exec (.coalesceExpire dt n) s = .next t ∧
      moves s dt [.regs, .hif] signalReg t ∧ (t.dev.ring n).cur = none ∧
      t.dev.regN (Reg.HIF_RINGn_DONE n) = (d.regN (Reg.HIF_RINGn_DONE n) + 1) % 2 ^ 32 ∧ ∃ flags ph,
      Out.bufDone n b.k b.used b.recs 0 sOk flags ph ∈ t.dev.out ∧ t.dev.hif.waiting = d.hif.waiting)
  ∧ (∀ (s : State) (dt n v : Nat) (d : Dev), d = later s.dev dt → (n < 32 ∧ d.bit (Fld.HIF_RINGn_STAT_ARMED n) = true ∧
      0 < (d.ring n).unsignalled ∧ d.modExpired n = true) → (v = d.fld (Fld.HIF_RINGn_CFG_VECTOR n) ∧ d.hostReady = true ∧
      d.regN (msixOff v 3) % 2 = 0) → ∃ t, exec (.msixModerationExpire dt n) s = .next t ∧ moves s dt [.regs,
      .hif] (fun o => o ∈ [Reg.HIF_RINGn_STAT n]) t ∧ t.dev.bit (Fld.HIF_RINGn_STAT_ARMED n) = false ∧ (t.dev.ring n).unsignalled = 0 ∧
      t.dev.out = [.msix v (d.regN (msixOff v 0) + 2 ^ 32 * d.regN (msixOff v 1)) (d.regN (msixOff v 2))])
  ∧ (∀ (s : State) (dt n v : Nat) (d : Dev), d = later s.dev dt → (n < 32 ∧ d.bit (Fld.HIF_RINGn_STAT_ARMED n) = true ∧
      0 < (d.ring n).unsignalled ∧ d.modExpired n = true) → (v = d.fld (Fld.HIF_RINGn_CFG_VECTOR n) ∧ d.regN (msixOff v 3) % 2 = 1) →
      ∃ t, exec (.msixModerationExpire dt n) s = .next t ∧ moves s dt [.regs, .hif] signalReg t ∧
      t.dev.bit (Fld.HIF_RINGn_STAT_ARMED n) = false ∧ (t.dev.ring n).unsignalled = 0 ∧
      (t.dev.regN (0x031000 + 4 * (v / 32))).testBit (v % 32) = true ∧ t.dev.out = [])
  ∧ (∀ (s : State) (dt : Nat) (d : Dev), d = later s.dev dt → ∃ t, exec (.hostInterfaceReset dt) s = .next t ∧ moves s dt [.regs, .hif,
      .snt] (fun o => eventReg o ∨ (0x020000 ≤ o ∧ o < 0x040000)) t ∧
      t.dev.regN Reg.HIF_HOST_RESETS = (d.regN Reg.HIF_HOST_RESETS + 1) % 2 ^ 32 ∧ ∀ n, n < 32 →
      t.dev.regN (Reg.HIF_RINGn_CFG n) = 0xC0 ∧ t.dev.regN (Reg.HIF_RINGn_STAT n) = 0 ∧ (t.dev.ring n).bufs = [] ∧ ∀ v, v < 64 →
      t.dev.regN (msixOff v 3) = 1 ∧ t.dev.regN Reg.HIF_STATUS = d.fld Fld.HIF_STATUS_CMD_READY ∧ t.dev.hif.linkUp = false ∧
      t.dev.hif.waiting = d.hif.waiting.map (fun w => { w with dead := true }) ∧ ∀ r ∈ [Reg.HIF_DB_BAD, Reg.HIF_DMA_ERR,
      Reg.HIF_EVT_LOST, Reg.HIF_SNAP_LOST, Reg.HIF_SNAP_WHOLE], t.dev.reg r = d.reg r)
  ∧ (∀ (s : State) (dt : Nat) (d : Dev), d = later s.dev dt → ∃ t, exec (.d3hotEntry dt) s = .next t ∧
      moves s dt [.regs] (fun o => o ∈ [Reg.HIF_STATUS]) t ∧ t.dev.bit Fld.HIF_STATUS_D3 = true ∧
      t.dev.bit Fld.HIF_STATUS_CMD_READY = d.bit Fld.HIF_STATUS_CMD_READY ∧ t.dev.hostReady = false)
  ∧ (∀ (s : State) (dt : Nat) (d : Dev), d = later s.dev dt → d.bit Fld.HIF_STATUS_D3 = true →
      d.hif.heldDone.all (fun c => decide (c.ring < 32)) = true → ∃ t, exec (.d3hotExit dt) s = .next t ∧ moves s dt [.regs, .hif,
      .crt] (fun o => signalReg o ∨ o ∈ [Reg.HIF_STATUS, Reg.HIF_SNAP_WHOLE]) t ∧ t.dev.hostReady = true ∧ t.dev.hif.heldDone = [] ∧
      t.dev.hif.waiting = d.hif.waiting ∧ ∀ c ∈ d.hif.heldDone, c.session = (d.ring c.ring).session →
      d.fld (Fld.HIF_RINGn_STAT_STATE c.ring) = 1 → ∃ ph, Out.completion c.ring c.k c.status c.result ph ∈ t.dev.out)
  ∧ (∀ (s : State) (dt : Nat) (d : Dev), d = later s.dev dt → d.bit Fld.HIF_STATUS_D3 = false → ∃ t, exec (.d3hotExit dt) s = .next t ∧
      moves s dt [] (fun _ => False) t)
  ∧ (∀ (s : State) (dt width speed : Nat) (d : Dev), d = later s.dev dt → (width ∈ [1, 2, 4, 8] ∧ 1 ≤ speed ∧ speed ≤ 4) → ∃ t,
      exec (.pcieLinkUp dt width speed) s = .next t ∧ moves s dt [.regs, .hif] (fun o => o ∈ [Reg.HIF_STATUS]) t ∧
      t.dev.hif.linkUp = true ∧ t.dev.fld Fld.HIF_STATUS_LINK_WIDTH = width ∧ t.dev.fld Fld.HIF_STATUS_LINK_SPEED = speed ∧
      t.dev.bit Fld.HIF_STATUS_FULL_LINK = decide (width = 8 ∧ speed = 4) ∧
      t.dev.bit Fld.HIF_STATUS_CMD_READY = d.bit Fld.HIF_STATUS_CMD_READY ∧ t.dev.hif.rings = d.hif.rings)
  ∧ (∀ (s : State) (v : Nat) (d : Dev), d = later s.dev 0 → (v < 64 ∧ (d.regN (0x031000 + 4 * (v / 32))).testBit (v % 32) = true ∧
      d.hostReady = true) → ∃ t, exec (.msixUnmask v) s = .next t ∧
      moves s 0 [.regs] (fun o => o = msixOff v 3 ∨ o = 0x031000 + 4 * (v / 32)) t ∧ t.dev.regN (msixOff v 3) = 0 ∧
      (t.dev.regN (0x031000 + 4 * (v / 32))).testBit (v % 32) = false ∧
      t.dev.out = [.msix v (d.regN (msixOff v 0) + 2 ^ 32 * d.regN (msixOff v 1)) (d.regN (msixOff v 2))])
  ∧ (∀ (s : State) (v : Nat) (d : Dev), d = later s.dev 0 → (v < 64 ∧ (d.regN (0x031000 + 4 * (v / 32))).testBit (v % 32) = false) → ∃ t,
      exec (.msixUnmask v) s = .next t ∧ moves s 0 [.regs] (fun o => o = msixOff v 3) t ∧ t.dev.regN (msixOff v 3) = 0 ∧ t.dev.out = [])
  ∧ (∀ (s : State) (c : Ctx) (d : Dev) (value : Nat), ready s.dev c.ring false none → d = fetched s.dev c.ring →
      exec (.hifNop c value) s = .next (served s c d (.done sOk (value % 2 ^ 32))))
  ∧ (∀ (s : State) (c : Ctx) (d : Dev) (n : Nat), ready s.dev c.ring false none → d = fetched s.dev c.ring → (d.runs n 5 = false ∧
      d.runs n 6 = false ∧ d.runs n 7 = false ∧ d.runs n 8 = false) → exec (.hifFlush c n) s = .next (served s c d (.done sRange 0)))
  ∧ (∀ (s : State) (c : Ctx) (d : Dev) (n k : Nat), ready s.dev c.ring false none → d = fetched s.dev c.ring → (5 ≤ k ∧ k ≤ 8 ∧
      d.runs n k = true ∧ (d.ring n).cur.any (fun b => decide (0 < b.used)) = true) →
      exec (.hifFlush c n) s = .next (served s c (d.closeBuf n false) (.done sOk 0)))
  ∧ (∀ (s : State) (c : Ctx) (d : Dev) (n k : Nat), ready s.dev c.ring false none → d = fetched s.dev c.ring → (5 ≤ k ∧ k ≤ 8 ∧
      d.runs n k = true ∧ (d.ring n).cur.any (fun b => decide (0 < b.used)) = false) →
      exec (.hifFlush c n) s = .next (served s c d (.done sOk 0)))

/-- An update message that passes its checks takes the effect of its KIND and completes with S_OK. A sweep still to run ends first (log
101). The fields that a KIND leaves at 0 and what OWNER_INIT carries are the model's reading (log 98). The layout of a cell is the model's
(log 178). Rests on R480, R484, R485, R487, R488, R489, R490, R492; the statement is derived. -/
def Obligations.KeyUpdatesCommit : Prop :=
  (∀ (s : State) (dt ring : Nat) (desc : KeyDesc) (msg : Bytes) (m : UpdateMsg) (upTo : Nat) (d : Dev), d = later s.dev dt → (m =
      UpdateMsg.ofBytes msg ∧ m.kind = 1 ∧ 6 ≤ upTo ∧ takesUpdate s.key d ring = true ∧ desc.readOk = true ∧ msgRead desc = true) →
      (checkUpdate s.key.runSweep true m).isOk = true → ∃ t, exec (.install dt ring desc msg upTo) s = .next t ∧ t.pending = s.pending ∧
      (∃ w v, worldBit m.world = some w ∧ v.keyId = m.keyId ∧ t.key.slot m.target = some ⟨.valid, w, m.alg, m.lcMask, m.master, some v,
      none⟩ ∧ t.key.cells.find m.target = some (sealSlot s.key.root s.key.seals ⟨.valid, w, m.alg, m.lcMask, m.master, some v, none⟩)) ∧
      m.target ≠ 0 ∧ t.key.lc = s.key.lc ∧ (∀ n, n ≠ m.target → t.key.slot n = s.key.runSweep.slot n) ∧ s.key.runSweep.counter < m.counter
      ∧ t.key.counter = m.counter ∧ t.dev.regN Reg.KEY_UPDATES = (d.regN Reg.KEY_UPDATES + 1) % 2 ^ 32 ∧ completes d ring sOk (m.counter %
      2 ^ 32) t.dev ∧ only [.regs, .hif] (fun o => signalReg o ∨ o = Reg.KEY_UPDATES) d t.dev)
  ∧ (∀ (s : State) (dt ring : Nat) (desc : KeyDesc) (msg : Bytes) (m : UpdateMsg) (upTo : Nat) (d : Dev), d = later s.dev dt → (m =
      UpdateMsg.ofBytes msg ∧ m.kind = 2 ∧ 6 ≤ upTo ∧ takesUpdate s.key d ring = true ∧ desc.readOk = true ∧ msgRead desc = true) →
      (checkUpdate s.key.runSweep true m).isOk = true → ∃ t, exec (.stageNext dt ring desc msg upTo) s = .next t ∧ t.pending = s.pending ∧
      (t.key.slot m.target).map (fun x => (x.state, x.cur, x.next.map (fun v => v.keyId))) = (s.key.runSweep.slot m.target).map (fun x =>
      (x.state, x.cur, some m.keyId)) ∧ t.key.lc = s.key.lc ∧ (∀ n, n ≠ m.target → t.key.slot n = s.key.runSweep.slot n) ∧
      s.key.runSweep.counter < m.counter ∧ t.key.counter = m.counter ∧ t.dev.regN Reg.KEY_UPDATES = (d.regN Reg.KEY_UPDATES + 1) % 2 ^ 32
      ∧ completes d ring sOk (m.counter % 2 ^ 32) t.dev ∧ only [.regs, .hif] (fun o => signalReg o ∨ o = Reg.KEY_UPDATES) d t.dev)
  ∧ (∀ (s : State) (dt ring : Nat) (desc : KeyDesc) (msg : Bytes) (m : UpdateMsg) (upTo : Nat) (d : Dev), d = later s.dev dt → (m =
      UpdateMsg.ofBytes msg ∧ m.kind = 3 ∧ 6 ≤ upTo ∧ takesUpdate s.key d ring = true ∧ desc.readOk = true ∧ msgRead desc = true) →
      (checkUpdate s.key.runSweep true m).isOk = true → ∃ t, exec (.promote dt ring desc msg upTo) s = .next t ∧ t.pending = s.pending ∧
      (t.key.slot m.target).map (fun x => (x.state, x.cur, x.next)) = (s.key.runSweep.slot m.target).map (fun x => (x.state, x.next,
      none)) ∧ (s.key.runSweep.slot m.target).any (fun x => x.next.isSome) = true ∧ t.key.lc = s.key.lc ∧ (∀ n, n ≠ m.target → t.key.slot
      n = s.key.runSweep.slot n) ∧ s.key.runSweep.counter < m.counter ∧ t.key.counter = m.counter ∧ t.dev.regN Reg.KEY_UPDATES = (d.regN
      Reg.KEY_UPDATES + 1) % 2 ^ 32 ∧ completes d ring sOk (m.counter % 2 ^ 32) t.dev ∧ only [.regs, .hif] (fun o => signalReg o ∨ o =
      Reg.KEY_UPDATES) d t.dev)
  ∧ (∀ (s : State) (dt ring : Nat) (desc : KeyDesc) (msg : Bytes) (m : UpdateMsg) (upTo : Nat) (d : Dev), d = later s.dev dt → (m =
      UpdateMsg.ofBytes msg ∧ m.kind = 4 ∧ 6 ≤ upTo ∧ takesUpdate s.key d ring = true ∧ desc.readOk = true ∧ msgRead desc = true) →
      (checkUpdate s.key.runSweep true m).isOk = true → ∃ t, exec (.invalidate dt ring desc msg upTo) s = .next t ∧ t.pending = s.pending
      ∧ (t.key.slot m.target).map (fun x => (x.state, x.cur, x.next)) = some (.invalid, none, none) ∧ t.key.sweep = [m.target] ∧ m.target
      ≠ 0 ∧ t.key.lc = s.key.lc ∧ (∀ n, n ≠ m.target → t.key.slot n = s.key.runSweep.slot n) ∧ s.key.runSweep.counter < m.counter ∧
      t.key.counter = m.counter ∧ t.dev.regN Reg.KEY_UPDATES = (d.regN Reg.KEY_UPDATES + 1) % 2 ^ 32 ∧ completes d ring sOk (m.counter % 2
      ^ 32) t.dev ∧ only [.regs, .hif] (fun o => signalReg o ∨ o = Reg.KEY_UPDATES) d t.dev)
  ∧ (∀ (s : State) (dt ring : Nat) (desc : KeyDesc) (msg : Bytes) (m : UpdateMsg) (upTo : Nat) (d : Dev), d = later s.dev dt → (m =
      UpdateMsg.ofBytes msg ∧ m.kind = 5 ∧ 6 ≤ upTo ∧ takesUpdate s.key d ring = true ∧ desc.readOk = true ∧ msgRead desc = true) →
      (checkUpdate s.key.runSweep true m).isOk = true → ∃ t, exec (.lifecycle dt ring desc msg upTo) s = .next t ∧ t.pending = s.pending ∧
      t.key.lc.code = m.newLc ∧ (m.newLc = 1 ∨ m.newLc = 7 → t.key.slots = [] ∧ t.key.cells = []) ∧ (m.newLc = 2 ∨ m.newLc = 3 →
      t.key.slots = s.key.runSweep.slots) ∧ (m.newLc = 7 → t.key.root = none ∧ t.key.helper = []) ∧ s.key.runSweep.counter < m.counter ∧
      t.key.counter = m.counter ∧ t.dev.regN Reg.KEY_UPDATES = (d.regN Reg.KEY_UPDATES + 1) % 2 ^ 32 ∧ completes d ring sOk (m.counter % 2
      ^ 32) t.dev ∧ only [.regs, .hif] (fun o => signalReg o ∨ o = Reg.KEY_UPDATES) d t.dev)
  ∧ (∀ (s : State) (dt ring : Nat) (desc : KeyDesc) (msg : Bytes) (m : UpdateMsg) (upTo : Nat) (d : Dev), d = later s.dev dt → (m =
      UpdateMsg.ofBytes msg ∧ m.kind = 6 ∧ 6 ≤ upTo ∧ takesUpdate s.key d ring = true ∧ desc.readOk = true ∧ msgRead desc = true) →
      (checkUpdate s.key.runSweep true m).isOk = true → ∃ t, exec (.ownerInit dt ring desc msg upTo) s = .next t ∧ t.pending = s.pending ∧
      t.key.lc = .operational ∧ s.key.lc = .provision ∧ s.key.slot 0 = none ∧ (t.key.slot 0).map (fun x => (x.state, x.world, x.alg)) =
      some (.valid, 0, 0x30) ∧ (t.key.slot 0).map (fun x => (x.lcMask, x.master, x.next)) = some (m.lcMask, 0, none) ∧ (∀ n, n ≠ 0 →
      t.key.slot n = s.key.runSweep.slot n) ∧ s.key.runSweep.counter < m.counter ∧ t.key.counter = m.counter ∧ t.dev.regN Reg.KEY_UPDATES
      = (d.regN Reg.KEY_UPDATES + 1) % 2 ^ 32 ∧ completes d ring sOk (m.counter % 2 ^ 32) t.dev ∧ only [.regs, .hif] (fun o => signalReg o
      ∨ o = Reg.KEY_UPDATES) d t.dev)
  ∧ (∀ (s : State) (dt ring : Nat) (desc : KeyDesc) (msg : Bytes) (m : UpdateMsg) (upTo : Nat) (d : Dev), d = later s.dev dt → (m =
      UpdateMsg.ofBytes msg ∧ m.kind = 4 ∧ 1 ≤ upTo ∧ upTo ≤ 3 ∧ takesUpdate s.key d ring = true ∧ desc.readOk = true ∧ msgRead desc =
      true) → (checkUpdate s.key.runSweep true m).isOk = true → ∃ t, exec (.invalidate dt ring desc msg upTo) s = .next t ∧ t.pending =
      s.pending ∧ t.key.slots = s.key.runSweep.slots ∧ t.key.cells = s.key.runSweep.cells ∧ t.key.counter = s.key.counter ∧ t.key.lc =
      s.key.lc ∧ t.key.interrupted = true ∧ t.key.journal.map (fun j => (j.state, j.target, j.counter)) = some (if upTo = 3 then
      .committed else .open_, m.target, m.counter) ∧ only [.regs, .hif] (fun o => signalReg o) d t.dev)

/-- The checks of R488 come in their order: the first that fails gives the status, and nothing changes. A sweep still to run ends first
(log 101). Rests on R482, R486, R487, R488, R492; the statement is derived. -/
def Obligations.KeyUpdatesAreRefusedInOrder : Prop :=
  (∀ (s : State) (dt ring : Nat) (desc : KeyDesc) (msg : Bytes) (m : UpdateMsg) (upTo : Nat) (d : Dev), d = later s.dev dt → (m =
      UpdateMsg.ofBytes msg ∧ (m.kind = 1 ∨ m.kind = 0 ∨ 6 < m.kind) ∧ takesUpdate s.key d ring = true) → desc.readOk = true → (msgRead
      desc = false ∨ m.format ≠ 1 ∨ m.kind ≠ 1 ∨ m.resv = true) → ∃ t, exec (.install dt ring desc msg upTo) s = .next t ∧ t.pending =
      s.pending ∧ t.key = s.key.runSweep ∧ t.dev.regN Reg.KEY_REFUSED = (d.regN Reg.KEY_REFUSED + 1) % 2 ^ 32 ∧ completes d ring sBadDesc
      (s.key.counter % 2 ^ 32) t.dev ∧ only [.regs, .hif, .snt] (fun o => eventReg o ∨ o ∈ [Reg.KEY_REFUSED, Reg.HIF_DMA_ERR]) d t.dev)
  ∧ (∀ (s : State) (dt ring : Nat) (desc : KeyDesc) (msg : Bytes) (m : UpdateMsg) (upTo : Nat) (d : Dev), d = later s.dev dt → (m =
      UpdateMsg.ofBytes msg ∧ m.kind = 2 ∧ takesUpdate s.key d ring = true) → (desc.readOk = true ∧ msgRead desc = true ∧ m.format = 1 ∧
      m.resv = false ∧ m.deviceId ≠ s.key.deviceId) → ∃ t, exec (.stageNext dt ring desc msg upTo) s = .next t ∧ t.pending = s.pending ∧
      t.key = s.key.runSweep ∧ t.dev.regN Reg.KEY_REFUSED = (d.regN Reg.KEY_REFUSED + 1) % 2 ^ 32 ∧ completes d ring sAuthFail
      (s.key.counter % 2 ^ 32) t.dev ∧ only [.regs, .hif, .snt] (fun o => eventReg o ∨ o = Reg.KEY_REFUSED) d t.dev)
  ∧ (∀ (s : State) (dt ring : Nat) (desc : KeyDesc) (msg : Bytes) (m : UpdateMsg) (upTo : Nat) (d : Dev), d = later s.dev dt → (m =
      UpdateMsg.ofBytes msg ∧ m.kind = 6 ∧ takesUpdate s.key d ring = true) → (desc.readOk = true ∧ msgRead desc = true ∧ m.format = 1 ∧
      m.resv = false ∧ m.deviceId = s.key.deviceId ∧ s.key.lc ≠ .provision) → ∃ t, exec (.ownerInit dt ring desc msg upTo) s = .next t ∧
      t.pending = s.pending ∧ t.key = s.key.runSweep ∧ t.dev.regN Reg.KEY_REFUSED = (d.regN Reg.KEY_REFUSED + 1) % 2 ^ 32 ∧ completes d
      ring sLifecycle (s.key.counter % 2 ^ 32) t.dev ∧ only [.regs, .hif, .snt] (fun o => eventReg o ∨ o = Reg.KEY_REFUSED) d t.dev)
  ∧ (∀ (s : State) (dt ring : Nat) (desc : KeyDesc) (msg : Bytes) (m : UpdateMsg) (upTo : Nat) (d : Dev), d = later s.dev dt → (m =
      UpdateMsg.ofBytes msg ∧ m.kind = 1 ∧ takesUpdate s.key d ring = true) → (desc.readOk = true ∧ msgRead desc = true ∧ m.format = 1 ∧
      m.resv = false ∧ m.deviceId = s.key.deviceId ∧ (s.key.lc = .operational ∨ s.key.lc = .maintenance) ∧ s.key.rootFail = true) → ∃ t,
      exec (.install dt ring desc msg upTo) s = .next t ∧ t.pending = s.pending ∧ t.key = s.key.runSweep ∧ t.dev.regN Reg.KEY_REFUSED =
      (d.regN Reg.KEY_REFUSED + 1) % 2 ^ 32 ∧ t.dev.regN Reg.KEY_USE_ORPHANED = (d.regN Reg.KEY_USE_ORPHANED + 1) % 2 ^ 32 ∧ completes d
      ring sKeyOrphaned (s.key.counter % 2 ^ 32) t.dev ∧ only [.regs, .hif, .snt] (fun o => eventReg o ∨ o ∈ [Reg.KEY_REFUSED,
      Reg.KEY_USE_ORPHANED]) d t.dev)
  ∧ (∀ (s : State) (dt ring : Nat) (desc : KeyDesc) (msg : Bytes) (m : UpdateMsg) (upTo : Nat) (d : Dev), d = later s.dev dt → (m =
      UpdateMsg.ofBytes msg ∧ m.kind = 3 ∧ takesUpdate s.key d ring = true) → (desc.readOk = true ∧ msgRead desc = true ∧ m.format = 1 ∧
      m.resv = false ∧ m.deviceId = s.key.deviceId ∧ (s.key.lc = .operational ∨ s.key.lc = .maintenance) ∧ s.key.rootFail = false ∧ m.auth
      = 0x3FF) → ∃ t, exec (.promote dt ring desc msg upTo) s = .next t ∧ t.pending = s.pending ∧ t.key = s.key.runSweep ∧ t.dev.regN
      Reg.KEY_REFUSED = (d.regN Reg.KEY_REFUSED + 1) % 2 ^ 32 ∧ completes d ring sAuthFail (s.key.counter % 2 ^ 32) t.dev ∧ only [.regs,
      .hif, .snt] (fun o => eventReg o ∨ o = Reg.KEY_REFUSED) d t.dev)
  ∧ (∀ (s : State) (dt ring : Nat) (desc : KeyDesc) (msg : Bytes) (m : UpdateMsg) (upTo : Nat) (d : Dev), d = later s.dev dt → (m =
      UpdateMsg.ofBytes msg ∧ m.kind = 5 ∧ takesUpdate s.key d ring = true) → (desc.readOk = true ∧ msgRead desc = true ∧ m.format = 1 ∧
      m.resv = false ∧ m.deviceId = s.key.deviceId ∧ s.key.lc = .provision ∧ m.newLc = 7 ∧ s.key.rootFail = false ∧ m.auth = 0x3FF) →
      gcmTag (hkdfSha256 (leBytes 8 s.key.deviceId) (zeros 32) (asciiBytes "G840 key update") 32) m.nonce m.aad m.wrapped = m.tag →
      m.counter ≤ s.key.counter → ∃ t, exec (.lifecycle dt ring desc msg upTo) s = .next t ∧ t.pending = s.pending ∧ t.key =
      s.key.runSweep ∧ t.dev.regN Reg.KEY_REFUSED = (d.regN Reg.KEY_REFUSED + 1) % 2 ^ 32 ∧ completes d ring sCounterStale (s.key.counter
      % 2 ^ 32) t.dev ∧ only [.regs, .hif, .snt] (fun o => eventReg o ∨ o = Reg.KEY_REFUSED) d t.dev)
  ∧ (∀ (s : State) (dt ring : Nat) (desc : KeyDesc) (msg : Bytes) (upTo : Nat) (d : Dev), d = later s.dev dt → (takesUpdate s.key d ring =
      true ∧ ring < 32 ∧ desc.readOk = false) → ∃ t, exec (.install dt ring desc msg upTo) s = .next t ∧ t.pending = s.pending ∧ t.key =
      s.key ∧ t.dev.fld (Fld.HIF_RINGn_STAT_STATE ring) = 3 ∧ t.dev.regN Reg.HIF_DMA_ERR = (d.regN Reg.HIF_DMA_ERR + 1) % 2 ^ 32 ∧ only
      [.regs, .hif] (fun o => signalReg o ∨ o ∈ [Reg.HIF_EVT_LOST, Reg.HIF_DMA_ERR]) d t.dev)

/-- Key-store start, the sweep, the entropy source and the key store's commands. What a failed regeneration leaves of DEVICE_ID is the
model's reading (log 100). Rests on R476, R477, R479, R484, R491, R492, R495, R497; the statement is derived. -/
def Obligations.KeyStoreEventsTakeEffect : Prop :=
  (∀ (s : State) (dt : Nat) (d : Dev), d = later s.dev dt → (d.bit Fld.CLK_STATUS_PLL_LOCK = true ∧ d.clk.keyStarted = false ∧
      d.bit Fld.CLK_STATUS_RESCUE = false ∧ s.key.started = false) → (s.key.lc = .blank ∧ s.key.trngFail = false ∧
      s.key.journal = none) → ∃ t, exec (.keyStoreStart dt) s = .next t ∧ t.pending = s.pending ∧ t.key.lc = .provision ∧
      t.key.root.isSome = true ∧ t.key.slots = [] ∧ t.key.started = true ∧ t.key.counter = s.key.counter ∧ only [.regs, .hif, .snt,
      .clk] (fun o => eventReg o ∨ o = Reg.RST_STATUS) d t.dev)
  ∧ (∀ (s : State) (dt : Nat) (d : Dev), d = later s.dev dt → (d.bit Fld.CLK_STATUS_PLL_LOCK = true ∧ d.clk.keyStarted = false ∧
      d.bit Fld.CLK_STATUS_RESCUE = false ∧ s.key.started = false) → (s.key.lc = .blank ∧ s.key.trngFail = true ∧
      s.key.journal = none) → ∃ t, exec (.keyStoreStart dt) s = .next t ∧ t.pending = s.pending ∧ t.key.lc = .blank ∧
      t.key.enrolWaits = true ∧ t.key.root = s.key.root ∧ only [.regs, .clk] (fun o => o = Reg.RST_STATUS) d t.dev)
  ∧ (∀ (s : State) (dt : Nat) (d : Dev) (j : Journal), d = later s.dev dt → (d.bit Fld.CLK_STATUS_PLL_LOCK = true ∧ d.clk.keyStarted =
      false ∧ d.bit Fld.CLK_STATUS_RESCUE = false ∧ s.key.started = false) → (s.key.lc ≠ .blank ∧ s.key.lc ≠ .returned ∧ s.key.helper = []
      ∧ s.key.sweep = [] ∧ s.key.journal = some j ∧ j.state = .open_) → ∃ t, exec (.keyStoreStart dt) s = .next t ∧ t.pending = s.pending
      ∧ t.key.rootFail = true ∧ t.key.lastRestart = 1 ∧ t.key.counter = s.key.counter ∧ t.key.slots.map (fun x => x.1) = s.key.cells.map
      (fun x => x.1) ∧ t.key.slots.all (fun x => x.2.cur.isNone && x.2.next.isNone) = true ∧ t.key.journal = some
      { j with state := .done } ∧ t.key.interrupted = false ∧ only [.regs, .hif, .snt, .clk] (fun o => eventReg o ∨ o = Reg.RST_STATUS) d
      t.dev)
  ∧ (∀ (s : State) (dt : Nat) (d : Dev) (j : Journal) (n : Nat) (v : KeyCell), d = later s.dev dt → (d.bit Fld.CLK_STATUS_PLL_LOCK = true
      ∧ d.clk.keyStarted = false ∧ d.bit Fld.CLK_STATUS_RESCUE = false ∧ s.key.started = false) → (s.key.lc ≠ .blank ∧ s.key.lc ≠
      .returned ∧ s.key.sweep = [] ∧ s.key.journal = some j ∧ j.state = .committed ∧ j.change = .setCell n v) → ∃ t, exec (.keyStoreStart
      dt) s = .next t ∧ t.pending = s.pending ∧ t.key.lastRestart = 2 ∧ t.key.counter = j.counter ∧ t.key.cells.find n = some v ∧
      t.key.slot n = some (openCell t.key.root v) ∧ t.key.journal = some { j with state := .done } ∧ t.key.interrupted = false ∧ only
      [.regs, .hif, .snt, .clk] (fun o => eventReg o ∨ o = Reg.RST_STATUS ∨ o = Reg.KEY_REGEN_RETRY) d t.dev)
  ∧ (∀ (s : State) (dt n : Nat) (x : Slot) (d : Dev), d = later s.dev dt → (s.key.started = true ∧ s.key.interrupted = false ∧
      s.key.slot n = some x ∧ x.state = .valid ∧ s.key.descends s.key.sweep 5 n = true) → ∃ t, exec (.keySweep dt) s = .next t ∧
      t.pending = s.pending ∧ t.key.slot n = some { x with state := .orphaned, cur := none, next := none } ∧ t.key.sweep = [] ∧
      t.key.counter = s.key.counter ∧ t.key.lc = s.key.lc ∧ t.dev = d)
  ∧ (∀ (s : State) (dt n : Nat) (d : Dev), d = later s.dev dt → (s.key.started = true ∧ s.key.interrupted = false ∧
      s.key.descends s.key.sweep 5 n = false) → ∃ t, exec (.keySweep dt) s = .next t ∧ t.pending = s.pending ∧
      t.key.slot n = s.key.slot n)
  ∧ (∀ (s : State) (dt : Nat) (d : Dev), d = later s.dev dt → s.key.trngFail = false → ∃ t, exec (.trngFail dt) s = .next t ∧
      t.pending = s.pending ∧ t.key = { s.key with trngFail := true } ∧ only [.regs, .hif, .net, .snt] eventReg d t.dev)
  ∧ (∀ (s : State) (dt : Nat) (d : Dev), d = later s.dev dt → (s.key.trngFail = true ∧ s.key.enrolWaits = false) → ∃ t,
      exec (.trngRecover dt) s = .next t ∧ t.pending = s.pending ∧ t.key = { s.key with trngFail := false } ∧
      t.dev.net.seedsHeld = false ∧ t.dev.net.fldWait = none ∧ only [.regs,
      .net] (fun o => o = Reg.NET_FLD_CFG ∨ o / 0x1000 = 0x0E1) d t.dev)
  ∧ (∀ (s : State) (dt : Nat) (d : Dev), d = later s.dev dt → (s.key.trngFail = true ∧ s.key.enrolWaits = true ∧ d.net.fldWait = none) →
      ∃ t, exec (.trngRecover dt) s = .next t ∧ t.pending = s.pending ∧ t.key.lc = .provision ∧ t.key.root.isSome = true ∧
      t.key.slots = [] ∧ t.key.counter = s.key.counter ∧ t.key.trngFail = false ∧ only [.regs, .hif, .net, .snt] eventReg d t.dev)
  ∧ (∀ (s : State) (c : Ctx) (d : Dev) (first count : Nat) (buf : HostBuf), ready s.dev c.ring false none → d = fetched s.dev c.ring →
      (1 ≤ count ∧ count ≤ 256 ∧ first + count ≤ 1024 ∧ 16 * count ≤ buf.len) →
      exec (.keyInfo c first count buf) s = .next (served s c d (.block ((List.range count).flatMap (fun i => keyInfoBlock s.key (first
      + i))) (some buf.addr))))
  ∧ (∀ (s : State) (c : Ctx) (d : Dev) (first count : Nat) (buf : HostBuf), ready s.dev c.ring false none → d = fetched s.dev c.ring →
      (count = 0 ∨ 256 < count ∨ 1024 < first + count ∨ buf.len < 16 * count) →
      exec (.keyInfo c first count buf) s = .next (served s c d (.done sRange 0)))
  ∧ (∀ (s : State) (c : Ctx) (d : Dev) (confirm : Nat), ready s.dev c.ring true none → d = fetched s.dev c.ring →
      (s.key.rootFail = false ∨ s.key.lc = .blank ∨ s.key.lc = .returned) →
      exec (.keyReenrol c confirm) s = .next (served s c d (.done sLifecycle 0)))
  ∧ (∀ (s : State) (c : Ctx) (d : Dev) (confirm : Nat), ready s.dev c.ring true none → d = fetched s.dev c.ring → (s.key.rootFail = true ∧
      s.key.lc ≠ .blank ∧ s.key.lc ≠ .returned) → (confirm ≠ 0x454E524C ∨ s.key.trngFail = true) →
      exec (.keyReenrol c confirm) s = .next (served s c d (.done (if confirm = 0x454E524C then sBusy else sRange) 0)))
  ∧ (∀ (s : State) (c : Ctx) (d : Dev), d = later s.dev 0 → ready s.dev c.ring true none → (s.key.rootFail = true ∧ s.key.lc ≠ .blank ∧
      s.key.lc ≠ .returned ∧ s.key.trngFail = false) → ∃ t, exec (.keyReenrol c 0x454E524C) s = .next t ∧ t.pending = s.pending ∧
      t.key.lc = .provision ∧ t.key.root.isSome = true ∧ t.key.rootFail = false ∧ t.key.slots = [] ∧ t.key.counter = s.key.counter ∧
      completes d c.ring sOk 0 t.dev ∧ only [.regs, .hif, .snt] eventReg d t.dev)

/-- Sinter: raising, folding, overwriting, writing, memory failure, power fail and recorder start. That a fold needs MRAM to take writes
is the model's reading (log 108). Rests on R498, R499, R500, R502, R503, R506, R507, R509, R510; the statement is derived. -/
def Obligations.SinterEventsTakeEffect : Prop :=
  (∀ (s : State) (dt code status index arg0 arg1 : Nat) (d : Dev) (e : Ev), d = later s.dev dt →
      allEvents.find? (fun x => decide (x.row.1 = code) && x.row.2.2.2) = some e → (d.bit Fld.SNT_STATUS_RUNNING = true ∧
      d.bit Fld.SNT_STATUS_MEM_FAIL = false ∧ d.fld Fld.SNT_CFG_MIN_SEV ≤ e.row.2.1 ∧ d.snt.shadow.length < 512) →
      d.snt.newest.any (d.folds code e.row.2.1 (status % 256) (index % 65536)) = false → ∃ t,
      exec (.sinterRaise dt code status index arg0 arg1) s = .next t ∧ moves s dt [.regs, .hif, .snt] eventReg t ∧
      t.dev.snt.nextSeq = d.snt.nextSeq + 1 ∧
      t.dev.snt.shadow = d.snt.shadow ++
      [{ seq := d.snt.nextSeq, code := code, severity := e.row.2.1, timeSuspect := d.timeSuspect, status := status % 256, index := index % 65536, timeUs := d.gUs, opSec := d.opSec, powerCycles := d.snt.powerCycles, arg := arg0 % 2 ^ 32 }])
  ∧ (∀ (s : State) (dt code status index arg0 arg1 : Nat) (d : Dev) (e : Ev) (r : SntRec), d = later s.dev dt →
      allEvents.find? (fun x => decide (x.row.1 = code) && x.row.2.2.2) = some e → (d.bit Fld.SNT_STATUS_RUNNING = true ∧
      d.bit Fld.SNT_STATUS_MEM_FAIL = false ∧ d.fld Fld.SNT_CFG_MIN_SEV ≤ e.row.2.1) → (d.snt.newest = some r ∧
      d.folds code e.row.2.1 (status % 256) (index % 65536) r = true) → ∃ t,
      exec (.sinterRaise dt code status index arg0 arg1) s = .next t ∧ moves s dt [.regs, .hif, .snt] eventReg t ∧
      t.dev.snt.nextSeq = d.snt.nextSeq ∧ t.dev.regN Reg.SNT_FOLDED = (d.regN Reg.SNT_FOLDED + 1) % 2 ^ 32 ∧
      t.dev.snt.shadow = foldInto r.seq d.snt.shadow ∧ t.dev.snt.log = foldInto r.seq d.snt.log)
  ∧ (∀ (s : State) (dt code status index arg0 arg1 : Nat) (d : Dev) (e : Ev) (v : SntRec), d = later s.dev dt →
      allEvents.find? (fun x => decide (x.row.1 = code) && x.row.2.2.2) = some e → (d.bit Fld.SNT_STATUS_RUNNING = true ∧
      d.bit Fld.SNT_STATUS_MEM_FAIL = false ∧ d.fld Fld.SNT_CFG_MIN_SEV ≤ e.row.2.1 ∧ 512 ≤ d.snt.shadow.length) →
      (d.snt.newest.any (d.folds code e.row.2.1 (status % 256) (index % 65536)) = false ∧
      victimOf e.row.2.1 d.snt.firstFailSeq.toList d.snt.shadow = some v) → ∃ t,
      exec (.sinterRaise dt code status index arg0 arg1) s = .next t ∧ moves s dt [.regs, .hif, .snt] eventReg t ∧
      t.dev.snt.shadow.map (fun x => x.seq) = (dropSeq v.seq d.snt.shadow).map (fun x => x.seq) ++ [d.snt.nextSeq] ∧
      t.dev.regN Reg.SNT_OVERWRITTEN = (d.regN Reg.SNT_OVERWRITTEN + 1) % 2 ^ 32 ∧
      t.dev.regN Reg.SNT_DISCARDED = d.regN Reg.SNT_DISCARDED)
  ∧ (∀ (s : State) (dt code status index arg0 arg1 : Nat) (d : Dev) (e : Ev), d = later s.dev dt →
      allEvents.find? (fun x => decide (x.row.1 = code) && x.row.2.2.2) = some e → (d.bit Fld.SNT_STATUS_RUNNING = true ∧
      d.bit Fld.SNT_STATUS_MEM_FAIL = false ∧ d.fld Fld.SNT_CFG_MIN_SEV ≤ e.row.2.1 ∧ 512 ≤ d.snt.shadow.length) →
      (d.snt.newest.any (d.folds code e.row.2.1 (status % 256) (index % 65536)) = false ∧
      victimOf e.row.2.1 d.snt.firstFailSeq.toList d.snt.shadow = none) → ∃ t,
      exec (.sinterRaise dt code status index arg0 arg1) s = .next t ∧ moves s dt [.regs, .hif, .snt] eventReg t ∧
      t.dev.snt.shadow = d.snt.shadow ∧ t.dev.regN Reg.SNT_DISCARDED = (d.regN Reg.SNT_DISCARDED + 1) % 2 ^ 32 ∧
      t.dev.regN Reg.SNT_OVERWRITTEN = d.regN Reg.SNT_OVERWRITTEN)
  ∧ (∀ (s : State) (dt code status index arg0 arg1 : Nat) (d : Dev) (e : Ev), d = later s.dev dt →
      allEvents.find? (fun x => decide (x.row.1 = code) && x.row.2.2.2) = some e → (d.bit Fld.SNT_STATUS_RUNNING = false ∧
      d.fld Fld.SNT_CFG_MIN_SEV ≤ e.row.2.1 ∧ d.snt.waiting.length + d.snt.shadow.length < 512) → ∃ t,
      exec (.sinterRaise dt code status index arg0 arg1) s = .next t ∧ moves s dt [.regs, .hif, .snt] eventReg t ∧
      t.dev.snt.waiting.length = d.snt.waiting.length + 1 ∧ t.dev.snt.waiting.getLast?.map (fun x => (x.seq, x.code)) = some (0,
      code) ∧ t.dev.snt.shadow = d.snt.shadow ∧ t.dev.snt.nextSeq = d.snt.nextSeq)
  ∧ (∀ (s : State) (dt n : Nat) (d : Dev) (r : SntRec) (rest : List SntRec), d = later s.dev dt → (d.sntWrites = true ∧
      d.snt.shadow = r :: rest ∧ 3 ≤ n ∧ d.snt.log.length < sntCells) → ∃ t, exec (.sinterRecordWrite dt n) s = .next t ∧
      moves s dt [.snt] (fun _ => False) t ∧ t.dev.snt.log = logInsert r d.snt.log ∧ t.dev.snt.shadow = dropSeq r.seq d.snt.shadow)
  ∧ (∀ (s : State) (dt n : Nat) (d : Dev), d = later s.dev dt → (n < 3 ∧ d.snt.log.length < sntCells) → ∃ t,
      exec (.sinterRecordWrite dt n) s = .next t ∧ moves s dt [] (fun _ => False) t ∧ t.dev.snt = d.snt)
  ∧ (∀ (s : State) (dt : Nat) (torn : Bool) (d : Dev), d = later s.dev dt → (d.sntWrites = true ∧ d.snt.headerAt + 60000000000 ≤ d.up) →
      ∃ t, exec (.sinterHeaderWrite dt torn) s = .next t ∧ moves s dt [.snt] (fun _ => False) t ∧ t.dev.snt.headerAt = d.up ∧
      t.dev.snt.header2.ok = (!torn && d.snt.header.ok) ∧
      t.dev.snt.header = (if torn then d.snt.header else
      { opSec := d.opSec, powerCycles := d.snt.powerCycles, clear := d.snt.header.clear }))
  ∧ (∀ (s : State) (dt : Nat) (d : Dev), d = later s.dev dt → d.sntWrites = true → ∃ t, exec (.memFailed dt) s = .next t ∧
      moves s dt [.regs, .hif, .snt] (fun o => eventReg o ∨ o ∈ [Reg.SNT_STATUS, Reg.SNT_MEM_FAILS]) t ∧
      t.dev.bit Fld.SNT_STATUS_MEM_FAIL = true ∧ t.dev.regN Reg.SNT_MEM_FAILS = (d.regN Reg.SNT_MEM_FAILS + 1) % 2 ^ 32 ∧
      t.dev.snt.log.length = d.snt.log.length)
  ∧ (∀ (s : State) (dt : Nat) (d : Dev), d = later s.dev dt → (d.bit Fld.SNT_STATUS_MEM_FAIL = true ∧ d.snt.probeAt + 1000000000 ≤ d.up) →
      ∃ t, exec (.memProbe dt false) s = .next t ∧ moves s dt [.snt] (fun _ => False) t ∧
      t.dev.snt = { d.snt with probeAt := d.up, probeOk := false })
  ∧ (∀ (s : State) (dt : Nat) (d : Dev), d = later s.dev dt → (d.bit Fld.SNT_STATUS_MEM_FAIL = true ∧ d.snt.probeAt + 1000000000 ≤ d.up) →
      ∃ t, exec (.memProbe dt true) s = .next t ∧ moves s dt [.snt] (fun _ => False) t ∧ t.dev.snt.probeOk = true ∧
      t.dev.snt.probeAt = d.up ∧ t.dev.snt.shadow = d.snt.shadow ∧ t.dev.snt.log = d.snt.log)
  ∧ (∀ (s : State) (dt : Nat) (d : Dev) (r : SntRec), d = later s.dev dt → (d.bit Fld.SNT_STATUS_MEM_FAIL = true ∧ d.snt.probeOk = true ∧
      d.snt.shadow = [r] ∧ d.snt.log.length < sntCells) → ∃ t, exec (.memRestored dt) s = .next t ∧ moves s dt [.regs, .hif,
      .snt] (fun o => eventReg o ∨ o ∈ [Reg.SNT_STATUS]) t ∧ t.dev.bit Fld.SNT_STATUS_MEM_FAIL = false ∧
      t.dev.snt.log.map (fun x => (x.seq, x.fromShadow)) = (logInsert { r with fromShadow := true } d.snt.log).map (fun x => (x.seq,
      x.fromShadow)))
  ∧ (∀ (s : State) (dt : Nat) (d : Dev), d = later s.dev dt → (d.clk.pfw = true ∧ d.finalSaving = false ∧
      d.bit Fld.SNT_STATUS_RUNNING = true ∧ d.bit Fld.SNT_STATUS_PFW_HOLD = false) → ∃ t, exec (.powerFailWarning dt) s = .next t ∧
      moves s dt [.regs, .hif, .snt] (fun o => eventReg o ∨ o ∈ [Reg.SNT_STATUS]) t ∧ t.dev.bit Fld.SNT_STATUS_PFW_HOLD = true ∧
      t.dev.sntWrites = false)
  ∧ (∀ (s : State) (dt : Nat) (d : Dev), d = later s.dev dt → (d.clk.imageLoaded = true ∧ d.bit Fld.CLK_STATUS_RESCUE = false ∧
      d.bit Fld.SNT_STATUS_RUNNING = false ∧ d.fld Fld.SNT_CFG_MIN_SEV = 0) → (d.snt.waiting = [] ∧ d.snt.shadow = [] ∧
      d.snt.headAt = none ∧ d.snt.startHeader.clear = none) → ∃ t, exec (.recorderStarted dt) s = .next t ∧ moves s dt [.regs, .hif,
      .snt, .clk] (fun o => eventReg o ∨ o ∈ [Reg.SNT_STATUS, Reg.RST_STATUS]) t ∧ t.dev.bit Fld.SNT_STATUS_RUNNING = true ∧
      t.dev.snt.powerCycles = (if d.snt.afterPowerOn then min 65535 (d.snt.startHeader.powerCycles + 1) else
      d.snt.startHeader.powerCycles) ∧ t.dev.snt.shadow.map (fun x => (x.seq,
      x.code)) = [(d.snt.log.foldl (fun m x => max m x.seq) 0 + 2 ^ 24, 0x0F05)] ∧
      t.dev.snt.opSec = d.snt.opSec + d.snt.startHeader.opSec)

/-- SNT_READ and SNT_CLEAR complete with the status, the reply and the effect of R505 and R508. What SNT_CLEAR answers where it cannot be
written is the model's choice (log 106). Rests on R504, R505, R508, R513; the statement is derived. -/
def Obligations.SinterCommandsComplete : Prop :=
  (∀ (s : State) (c : Ctx) (d : Dev) (first : Nat) (buf : HostBuf) (l : List SntRec), ready s.dev c.ring false none →
      d = fetched s.dev c.ring → (64 ≤ buf.len ∧ d.bit Fld.SNT_STATUS_CLEARING = false ∧
      l = d.sntHeld.filter (fun r => decide (first ≤ r.seq)) ∧ 32 + 32 * l.length ≤ buf.len) →
      exec (.sntRead c first buf) s = .next (served s c d (.block (leBytes 8 ((d.snt.newest.map (fun (r : SntRec) => r.seq)).getD 0) ++
      leBytes 8 d.snt.oldest ++ leBytes 8 ((d.snt.newest.map (fun (r : SntRec) => r.seq)).getD 0 + 1) ++ leBytes 4 l.length ++ leBytes
      1 (2 * b2n (decide (first < d.snt.oldest)) + 4 * b2n (d.bit Fld.SNT_STATUS_MEM_FAIL)) ++ zeros 3 ++ l.flatMap SntRec.bytes) (some
      buf.addr))))
  ∧ (∀ (s : State) (c : Ctx) (d : Dev) (first : Nat) (buf : HostBuf), ready s.dev c.ring false none → d = fetched s.dev c.ring →
      (buf.len < 64 ∨ d.bit Fld.SNT_STATUS_CLEARING = true) →
      exec (.sntRead c first buf) s = .next (served s c d (.done (if buf.len < 64 then sRange else sBusy) 0)))
  ∧ (∀ (s : State) (c : Ctx) (d : Dev) (id counter upTo maxSev steps st : Nat) (tag : Bytes), ready s.dev c.ring true none →
      d = fetched s.dev c.ring → (clearReady s.key (later s.dev 0) = true ∧ clearStatus s.key (later s.dev 0) ⟨id, counter, upTo,
      maxSev, tag⟩ = st ∧ st ≠ sOk ∧ st ≠ sKeyOrphaned) →
      exec (.sntClear c id counter upTo maxSev tag steps) s = .next (served s c (d.event .updateRefused noIndex 0 0 st) (.done st 0)))
  ∧ (∀ (s : State) (c : Ctx) (d : Dev) (id counter upTo maxSev : Nat) (tag : Bytes), d = later s.dev 0 → (ready s.dev c.ring true none ∧
      clearReady s.key d = true ∧ clearStatus s.key d ⟨id, counter, upTo, maxSev, tag⟩ = sOk) → ∃ t,
      exec (.sntClear c id counter upTo maxSev tag 5) s = .next t ∧ t.pending = s.pending ∧ t.key.counter = counter ∧
      s.key.counter < counter ∧ t.key.slots = s.key.slots ∧ t.key.lc = s.key.lc ∧ completes d c.ring sOk 0 t.dev ∧
      t.dev.snt.log = d.snt.log.filter (fun r => !cleared upTo maxSev r) ∧ only [.regs, .hif,
      .snt] (fun o => eventReg o ∨ o = Reg.SNT_STATUS) d t.dev)

/-- Safety errors: raising, escalation, overflow, diagnostics, recovery, closing and the safe state. The status of a diagnostic's error
and when its condition clears are the model's readings (logs 109, 110). Rests on R517, R519, R520, R521, R522, R340, R293; the statement
is derived. -/
def Obligations.SafetyErrorsTakeEffect : Prop :=
  (∀ (s : State) (dt cls index diag status level : Nat) (d : Dev), d = later s.dev dt → (0 < cls ∧ cls < eEngineLoss ∧ cls ≠ eSelftest ∧
      cls ≠ eLockstep) → (d.saf.queue.length < 16 ∧ d.saf.queue.all (fun e => decide (e.cls ≠ cls)) = true) → ∃ t,
      exec (.errorRaised dt cls index diag status level) s = .next t ∧ moves s dt [.regs, .saf] (fun o => o ∈ [Reg.SAF_ERRORS,
      Reg.SAF_STATUS, Reg.FUM_STATUS]) t ∧
      t.dev.saf.queue = d.saf.queue ++
      [{ seq := d.saf.seq, cls := cls, level := initialLevel cls, status := status % 256, index := index % 65536, diag := diag % 256, timeUs := d.gUs, clearAt := if recoversAtOnce cls (index % 65536) then some d.up else none }] ∧
      t.dev.regN Reg.SAF_ERRORS = (d.regN Reg.SAF_ERRORS + 1) % 2 ^ 32 ∧ t.dev.fld Fld.SAF_STATUS_OPEN = d.saf.queue.length + 1 ∧
      (initialLevel cls = 2 → t.dev.bit Fld.SAF_STATUS_PATH_FAULT = true ∧ t.dev.bit Fld.FUM_STATUS_ALMOK = false))
  ∧ (∀ (s : State) (dt cls index diag status level : Nat) (d : Dev), d = later s.dev dt → (0 < cls ∧ cls < eForced ∧ cls ≠ eSelftest ∧
      cls ≠ eLockstep) → (d.saf.queue.length < 16 ∧ d.saf.queue.foldl (fun m e => if e.cls = cls then max m e.level else m) 0 = 1) →
      ∃ t, exec (.errorRaised dt cls index diag status level) s = .next t ∧ moves s dt [.regs, .hif, .snt,
      .saf] (fun o => eventReg o ∨ o ∈ [Reg.SAF_ERRORS, Reg.SAF_ESCALATIONS, Reg.SAF_STATUS, Reg.FUM_STATUS]) t ∧
      t.dev.saf.queue.map (fun e => (e.cls, e.level, e.status, e.index)) = d.saf.queue.map (fun e => (e.cls, e.level, e.status,
      e.index)) ++ [(cls, 2, sEscalated, index % 65536)] ∧ t.dev.regN Reg.SAF_ESCALATIONS = (d.regN Reg.SAF_ESCALATIONS + 1) % 2 ^ 32 ∧
      t.dev.bit Fld.SAF_STATUS_PATH_FAULT = true)
  ∧ (∀ (s : State) (dt cls index diag status level : Nat) (d : Dev), d = later s.dev dt → (eClock ≤ cls ∧ cls < eForced ∧
      d.saf.queue.length < 16 ∧ d.bit Fld.SAF_STATUS_SAFE = false) → d.saf.queue.all (fun e => decide (e.cls ≠ cls)) = true → ∃ t,
      exec (.errorRaised dt cls index diag status level) s = .next t ∧ t.pending = s.pending ∧ t.key = s.key ∧
      t.dev.bit Fld.SAF_STATUS_SAFE = true ∧ t.dev.bit Fld.FUM_STATUS_SAFE = true ∧ t.dev.bit Fld.FUM_STATUS_RUNNING = false ∧
      t.dev.bit Fld.FUM_STATUS_ALMOK = false ∧ t.dev.fld Fld.SAF_CAUSE_CLASS = cls ∧ t.dev.fld Fld.SAF_CAUSE_STATUS = status % 256 ∧
      t.dev.fld Fld.SAF_CAUSE_DIAG = diag % 256 ∧ t.dev.bit Fld.SAF_CAUSE_VALID = true ∧ t.dev.fld Fld.FUM_STATUS_PINS = d.safePins ∧
      t.dev.saf.queue.map (fun e => (e.cls, e.level)) = d.saf.queue.map (fun e => (e.cls, e.level)) ++ [(cls, 3)])
  ∧ (∀ (s : State) (dt cls index diag status level : Nat) (d : Dev), d = later s.dev dt → (0 < cls ∧ cls < eForced ∧ cls ≠ eSelftest ∧
      cls ≠ eLockstep ∧ 16 ≤ d.saf.queue.length ∧ d.bit Fld.SAF_STATUS_SAFE = false) → ∃ t,
      exec (.errorRaised dt cls index diag status level) s = .next t ∧ t.pending = s.pending ∧ t.key = s.key ∧
      t.dev.saf.queue = d.saf.queue ∧ t.dev.regN Reg.SAF_OVERFLOWS = (d.regN Reg.SAF_OVERFLOWS + 1) % 2 ^ 32 ∧
      t.dev.bit Fld.SAF_STATUS_SAFE = true ∧ t.dev.fld Fld.SAF_CAUSE_CLASS = eOverflow ∧ t.dev.fld Fld.SAF_CAUSE_DIAG = 0xFF)
  ∧ (∀ (s : State) (dt diag status level : Nat) (d : Dev), d = later s.dev dt → (d.cyc.running = true ∧ d.saf.queue = [] ∧
      d.bit Fld.SAF_STATUS_SAFE = false) → ∃ t, exec (.errorRaised dt eLockstep 0 diag status level) s = .next t ∧
      t.pending = s.pending ∧ t.key = s.key ∧ t.dev.fld Fld.CYC_STATUS_STATE = 2 ∧ t.dev.cyc.running = false ∧
      t.dev.regN Reg.CYC_LOCKSTEP = (d.regN Reg.CYC_LOCKSTEP + 1) % 2 ^ 32 ∧ t.dev.saf.queue.map (fun e => (e.cls, e.level,
      e.clearAt)) = [(eLockstep, 1, some d.up)])
  ∧ (∀ (s : State) (dt index diag status level : Nat) (d : Dev), d = later s.dev dt → (index < 20 ∧
      d.fbit Fld.ENG_RETIRED_ENGINE index = false) → ∃ t, exec (.errorRaised dt eSelftest index diag status level) s = .next t ∧
      t.pending = s.pending ∧ t.key = s.key ∧ t.dev.fbit Fld.ENG_RETIRED_ENGINE index = true ∧
      t.dev.regN Reg.ENG_RETIRES = (d.regN Reg.ENG_RETIRES + 1) % 2 ^ 32)
  ∧ (∀ (s : State) (dt cls index diag status level : Nat) (d : Dev), d = later s.dev dt → (cls = 0 ∨ eForced ≤ cls) → ∃ t,
      exec (.errorRaised dt cls index diag status level) s = .next t ∧ moves s dt [] (fun _ => False) t ∧ t.dev.saf = d.saf)
  ∧ (∀ (s : State) (dt dg index reading corrected : Nat) (d : Dev), d = later s.dev dt → (dg < 15 ∧ dg ≠ 12 ∧ d.saf.failing = []) → ∃ t,
      exec (.diagnosticCheck dt dg index true reading corrected) s = .next t ∧ moves s dt [.regs] (fun o => o ∈ [Reg.SAF_CORRECTED_LO,
      Reg.SAF_CORRECTED_HI, Reg.SAF_STATUS, Reg.PWR_STATUS, Reg.PWR_TEMP]) t ∧
      t.dev.reg64 Reg.SAF_CORRECTED_LO = (d.reg64 Reg.SAF_CORRECTED_LO + corrected) % 2 ^ 64 ∧ (dg = 10 →
      t.dev.fld Fld.PWR_TEMP_TJ_MAX = reading % 256) ∧ (dg = 9 → index < 8 → t.dev.fbit Fld.PWR_STATUS_RAIL_OK index = true))
  ∧ (∀ (s : State) (dt dg cls index reading corrected : Nat) (d : Dev), d = later s.dev dt → (diagClass dg = some cls ∧
      initialLevel cls = 2 ∧ d.saf.failing.contains (dg, index % 65536) = false) → (d.saf.queue.length < 16 ∧
      d.saf.queue.all (fun e => decide (e.cls ≠ cls)) = true) → ∃ t,
      exec (.diagnosticCheck dt dg index false reading corrected) s = .next t ∧ moves s dt [.regs,
      .saf] (fun o => o ∈ [Reg.SAF_CORRECTED_LO, Reg.SAF_CORRECTED_HI, Reg.SAF_STATUS, Reg.SAF_ERRORS, Reg.PWR_STATUS, Reg.PWR_TEMP,
      Reg.FUM_STATUS]) t ∧ t.dev.saf.failing = d.saf.failing ++ [(dg, index % 65536)] ∧ t.dev.fbit Fld.SAF_STATUS_DIAG_FAIL dg = true ∧
      t.dev.saf.queue.map (fun e => (e.cls, e.level, e.index, e.diag, e.clearAt)) = d.saf.queue.map (fun e => (e.cls, e.level, e.index,
      e.diag, e.clearAt)) ++ [(cls, 2, index % 65536, dg, none)])
  ∧ (∀ (s : State) (dt dg cls index reading corrected : Nat) (d : Dev), d = later s.dev dt → (diagClass dg = some cls ∧ dg ≠ 14 ∧
      d.saf.failing.contains (dg, index % 65536) = true) → ∃ t,
      exec (.diagnosticCheck dt dg index false reading corrected) s = .next t ∧ moves s dt [.regs] (fun o => o ∈ [Reg.SAF_CORRECTED_LO,
      Reg.SAF_CORRECTED_HI, Reg.PWR_STATUS, Reg.PWR_TEMP]) t ∧ t.dev.saf = d.saf ∧ t.dev.regN Reg.SAF_ERRORS = d.regN Reg.SAF_ERRORS)
  ∧ (∀ (s : State) (dt dg cls index reading corrected : Nat) (d : Dev) (e : ErrEntry), d = later s.dev dt → (diagClass dg = some cls ∧
      dg ≠ 14 ∧ d.saf.failing = [(dg, index % 65536)]) → (d.saf.queue = [e] ∧ e.cls = cls ∧ e.index = index % 65536 ∧ e.level = 2 ∧
      e.clearAt = none) → ∃ t, exec (.diagnosticCheck dt dg index true reading corrected) s = .next t ∧ moves s dt [.regs,
      .saf] (fun o => o ∈ [Reg.SAF_CORRECTED_LO, Reg.SAF_CORRECTED_HI, Reg.SAF_STATUS, Reg.PWR_STATUS, Reg.PWR_TEMP]) t ∧
      t.dev.saf.failing = [] ∧ t.dev.saf.queue = [{ e with clearAt := some d.up }])
  ∧ (∀ (s : State) (dt index : Nat) (d : Dev) (e : ErrEntry), d = later s.dev dt → (d.saf.recoveryTests = [] ∧ d.saf.queue = [e] ∧
      e.cls = eDeDisagree ∧ e.index = index ∧ e.level = 1 ∧ e.clearAt = none) → ∃ t,
      exec (.errorRecoveryDone dt eDeDisagree index) s = .next t ∧ moves s dt [.saf] (fun _ => False) t ∧
      t.dev.saf.queue = [{ e with clearAt := some d.up }])
  ∧ (∀ (s : State) (dt index n : Nat) (d : Dev) (rest : List Nat), d = later s.dev dt → d.saf.recoveryTests = n :: rest → ∃ t,
      exec (.errorRecoveryDone dt eDeDisagree index) s = .next t ∧ moves s dt [] (fun _ => False) t ∧ t.dev.saf = d.saf)
  ∧ (∀ (s : State) (dt seq since : Nat) (d : Dev) (e : ErrEntry) (l1 l2 : List ErrEntry), d = later s.dev dt →
      (d.saf.queue = l1 ++ e :: l2 ∧ e.seq = seq ∧ (l1 ++ l2).all (fun x => decide (x.seq ≠ seq)) = true ∧
      l1.length + l2.length < 32) → (e.level < 3 ∧ e.clearAt = some since ∧ since + d.fld Fld.SAF_CFG_CLOSE_MS * 1000000 ≤ d.up) → ∃ t,
      exec (.entryClose dt seq) s = .next t ∧ moves s dt [.regs, .saf] (fun o => o ∈ [Reg.SAF_STATUS, Reg.FUM_STATUS]) t ∧
      t.dev.saf.queue = l1 ++ l2 ∧ t.dev.fld Fld.SAF_STATUS_OPEN = l1.length + l2.length ∧
      t.dev.bit Fld.SAF_STATUS_PATH_FAULT = (l1 ++ l2).any (fun x => decide (2 ≤ x.level)))
  ∧ (∀ (s : State) (dt seq : Nat) (d : Dev), d = later s.dev dt →
      (d.saf.queue.all (fun e => decide (e.seq ≠ seq ∨ e.level = 3 ∨ e.clearAt = none)) = true) → ∃ t,
      exec (.entryClose dt seq) s = .next t ∧ moves s dt [.regs] (fun o => o ∈ [Reg.SAF_STATUS, Reg.FUM_STATUS]) t ∧
      t.dev.saf.queue = d.saf.queue)

/-- Engine self-tests, the stall and restart of the management cores, and proof tests. When a test is due and which test a row runs are
the model's readings (logs 111, 112, 113). Rests on R518, R519, R524, R525; the statement is derived. -/
def Obligations.SafetyTestsTakeEffect : Prop :=
  (∀ (s : State) (dt e : Nat) (d : Dev), d = later s.dev dt → (d.saf.testing = none ∧ d.testDue e = true ∧ e < 16 ∧
      e ≠ d.fld Fld.ENG_STATUS_SPARE ∧ d.fbit Fld.ENG_STATUS_PE_ACTIVE e = true) → (d.engineBusy e = false ∧
      d.fbit Fld.ENG_RETIRED_ENGINE e = false ∧ d.bit Fld.ENG_STATUS_NO_SPARE = false ∧ d.sch.sparePending = false) → ∃ t,
      exec (.engineSelftest dt e) s = .next t ∧ moves s dt [.regs, .saf] (fun o => o ∈ [Reg.ENG_STATUS]) t ∧
      t.dev.saf.testing = some e ∧ t.dev.fbit Fld.ENG_STATUS_PE_ACTIVE e = false ∧
      t.dev.fbit Fld.ENG_STATUS_PE_ACTIVE (d.fld Fld.ENG_STATUS_SPARE) = true ∧ t.dev.bit Fld.ENG_STATUS_NO_SPARE = true)
  ∧ (∀ (s : State) (dt e : Nat) (d : Dev), d = later s.dev dt → (d.saf.testing = none ∧ d.testDue (16 + e) = true ∧ e < 4 ∧
      d.fbit Fld.ENG_STATUS_DE_ACTIVE e = true ∧ 2 ≤ d.deCount) → (d.engineBusy (16 + e) = false ∧
      d.fbit Fld.ENG_RETIRED_ENGINE (16 + e) = false) → ∃ t, exec (.engineSelftest dt (16 + e)) s = .next t ∧ moves s dt [.regs,
      .saf] (fun o => o ∈ [Reg.ENG_STATUS, Reg.FUM_STATUS]) t ∧ t.dev.saf.testing = some (16 + e) ∧
      t.dev.fbit Fld.ENG_STATUS_DE_ACTIVE e = false ∧ t.dev.fld Fld.FUM_STATUS_DE_COUNT + 1 = d.deCount)
  ∧ (∀ (s : State) (dt e : Nat) (d : Dev), d = later s.dev dt → d.testDue e = false → ∃ t, exec (.engineSelftest dt e) s = .next t ∧
      moves s dt [] (fun _ => False) t ∧ t.dev.saf = d.saf)
  ∧ (∀ (s : State) (dt e : Nat) (d : Dev), d = later s.dev dt → (d.saf.testing = some e ∧ e < 16 ∧ e ≠ d.fld Fld.ENG_STATUS_SPARE) → ∃ t,
      exec (.engineSelftestDone dt true) s = .next t ∧ moves s dt [.regs, .saf] (fun o => o ∈ [Reg.ENG_STATUS]) t ∧
      t.dev.saf.testing = none ∧ t.dev.fld Fld.ENG_STATUS_SPARE = e ∧ t.dev.bit Fld.ENG_STATUS_NO_SPARE = false)
  ∧ (∀ (s : State) (dt e : Nat) (d : Dev), d = later s.dev dt → (d.saf.testing = some (16 + e) ∧ e < 4 ∧ d.saf.recoveryTests = []) → ∃ t,
      exec (.engineSelftestDone dt true) s = .next t ∧ moves s dt [.regs, .saf] (fun o => o ∈ [Reg.ENG_STATUS, Reg.FUM_STATUS]) t ∧
      t.dev.saf.testing = none ∧ t.dev.fbit Fld.ENG_STATUS_DE_ACTIVE e = true ∧ t.dev.saf.queue = d.saf.queue)
  ∧ (∀ (s : State) (dt e : Nat) (d : Dev), d = later s.dev dt → (d.saf.testing = some e ∧ e < 20) → ∃ t,
      exec (.engineSelftestDone dt false) s = .next t ∧ t.pending = s.pending ∧ t.key = s.key ∧ t.dev.saf.testing = none ∧
      t.dev.fbit Fld.ENG_RETIRED_ENGINE e = true ∧ t.dev.regN Reg.SAF_ERRORS ≠ d.regN Reg.SAF_ERRORS)
  ∧ (∀ (s : State) (dt : Nat) (d : Dev), d = later s.dev dt → (d.clk.imageLoaded = true ∧ 50 ≤ d.hbAge ∧
      d.bit Fld.SAF_STATUS_MGMT_STALL = false) → ∃ t, exec (.mgmtStall dt) s = .next t ∧ moves s dt [.regs, .hif,
      .snt] (fun o => eventReg o ∨ o ∈ [Reg.SAF_STATUS, Reg.SAF_MGMT_STALLS]) t ∧ t.dev.bit Fld.SAF_STATUS_MGMT_STALL = true ∧
      t.dev.regN Reg.SAF_MGMT_STALLS = (d.regN Reg.SAF_MGMT_STALLS + 1) % 2 ^ 32 ∧ t.dev.saf.queue = d.saf.queue)
  ∧ (∀ (s : State) (dt : Nat) (d : Dev), d = later s.dev dt → d.hbAge < 50 → ∃ t, exec (.mgmtStall dt) s = .next t ∧
      moves s dt [] (fun _ => False) t ∧ t.dev.bit Fld.SAF_STATUS_MGMT_STALL = d.bit Fld.SAF_STATUS_MGMT_STALL)
  ∧ (∀ (s : State) (dt : Nat) (d : Dev), d = later s.dev dt → d.restartDue = true → ∃ t, exec (.mgmtRestart dt) s = .next t ∧
      t.pending = s.pending ∧ t.dev.bit Fld.SAF_STATUS_MGMT_STALL = false ∧ t.dev.saf.mcRestart = false ∧ t.dev.hif.waiting = [] ∧
      t.dev.regN Reg.SAF_MGMT_RESTARTS = (d.regN Reg.SAF_MGMT_RESTARTS + 1) % 2 ^ 32 ∧ t.dev.hbAge = 0)
  ∧ (∀ (s : State) (dt ms : Nat) (d : Dev), d = later s.dev dt → (d.saf.proof = none ∧ d.fld Fld.SAF_CFG_PROOF_HOURS ≠ 0 ∧
      d.saf.queue = []) → max d.saf.proofAutoAt d.tim.releasedAt + d.fld Fld.SAF_CFG_PROOF_HOURS * 3600000000000 ≤ d.up → ∃ t,
      exec (.proofTest dt 0 ms) s = .next t ∧ moves s dt [.regs, .hif, .snt, .saf] (fun o => eventReg o ∨ o ∈ [Reg.SAF_STATUS,
      Reg.SAF_PROOF_LAST, Reg.SAF_PROOFS]) t ∧ t.dev.saf.proof = none ∧ t.dev.saf.proofAt = some d.up ∧ t.dev.saf.proofAutoAt = d.up ∧
      t.dev.fld Fld.SAF_PROOF_LAST_FAIL = 0 ∧ t.dev.regN Reg.SAF_PROOFS = (d.regN Reg.SAF_PROOFS + 1) % 2 ^ 32)
  ∧ (∀ (s : State) (dt n fails ms : Nat) (d : Dev) (p : ProofSt), d = later s.dev dt → (d.saf.proof = some p ∧ n < 12 ∧ p.todo = 2 ^ n ∧
      fails.testBit n = true ∧ d.saf.queue = []) → ∃ t, exec (.proofTest dt fails ms) s = .next t ∧ moves s dt [.regs, .hif, .snt,
      .saf] (fun o => eventReg o ∨ o ∈ [Reg.SAF_STATUS, Reg.SAF_PROOF_LAST, Reg.SAF_PROOFS, Reg.SAF_ERRORS, Reg.FUM_STATUS]) t ∧
      t.dev.saf.proof = none ∧ t.dev.fld Fld.SAF_PROOF_LAST_FAIL = putBit p.fail n true % 4096 ∧
      t.dev.bit Fld.SAF_STATUS_PROOF_RUNNING = false ∧ t.dev.saf.queue.map (fun e => (e.cls, e.level, e.index)) = [(eProofFail, 2, n)])
  ∧ (∀ (s : State) (dt n fails ms : Nat) (d : Dev) (p : ProofSt), d = later s.dev dt → (d.saf.proof = some p ∧ n < 12 ∧ p.todo = 2 ^ n ∧
      d.proofBlocked p n = true ∧ p.interrupted.testBit n = true) → ∃ t, exec (.proofTest dt fails ms) s = .next t ∧
      moves s dt [] (fun _ => False) t ∧ t.dev.saf = d.saf)

/-- SAF_ERR_READ, SAF_PROOF and SAF_FORCE complete with the status and the effect of R529. The bounds of the mask are the model's reading
(log 113). Rests on R529, R525, R522; the statement is derived. -/
def Obligations.SafetyCommandsComplete : Prop :=
  (∀ (s : State) (c : Ctx) (d : Dev) (buf : HostBuf), ready s.dev c.ring false none → d = fetched s.dev c.ring → 384 ≤ buf.len →
      exec (.safErrRead c buf) s = .next (served s c d (.block (slice (d.saf.queue.flatMap ErrEntry.bytes) 0 384) (some buf.addr))))
  ∧ (∀ (s : State) (c : Ctx) (d : Dev) (buf : HostBuf), ready s.dev c.ring false none → d = fetched s.dev c.ring → buf.len < 384 →
      exec (.safErrRead c buf) s = .next (served s c d (.done sRange 0)))
  ∧ (∀ (s : State) (c : Ctx) (d : Dev) (mask : Nat), ready s.dev c.ring true none → d = fetched s.dev c.ring → (0 < mask ∧ mask < 4096 ∧
      d.saf.proof = none) → exec (.safProof c mask) s = .next (served s c (d.proofStart mask) (.wait .proofRun)))
  ∧ (∀ (s : State) (c : Ctx) (d : Dev) (mask : Nat), ready s.dev c.ring true none → d = fetched s.dev c.ring → (mask < 4096 ∧
      d.saf.proof ≠ none) → exec (.safProof c mask) s = .next (served s c d (.done sBusy 0)))
  ∧ (∀ (s : State) (c : Ctx) (d : Dev) (confirm : Nat), ready s.dev c.ring false none → d = fetched s.dev c.ring → confirm ≠ 0x53414645 →
      exec (.safForce c confirm) s = .next (served s c d (.done sRange 0)))
  ∧ (∀ (s : State) (c : Ctx) (d : Dev), d = later s.dev 0 → (ready s.dev c.ring false none ∧ d.bit Fld.SAF_STATUS_SAFE = false ∧
      d.saf.queue.length < 16 ∧ d.saf.queue.all (fun e => decide (e.cls ≠ eForced)) = true) → ∃ t,
      exec (.safForce c 0x53414645) s = .next t ∧ t.pending = s.pending ∧ t.key = s.key ∧ completes d c.ring sOk 0 t.dev ∧
      t.dev.bit Fld.SAF_STATUS_SAFE = true ∧ t.dev.fld Fld.SAF_CAUSE_CLASS = eForced ∧ t.dev.fld Fld.SAF_CAUSE_DIAG = 0xFF ∧
      t.dev.fld Fld.FUM_STATUS_PINS = d.safePins)

/-- Power-on, cold and warm reset, rail falls, power fail and RESCUE. What a warm reset keeps beside the RWS fields, and the operands of
the rows, are the model's readings (logs 120, 119, 118, 5). Rests on R533, R541, R542, R553, R560, R568, R288, R536; the statement is
derived. -/
def Obligations.ResetsTakeEffect : Prop :=
  (∀ (s : State) (dt : Nat) (pfwLow testEn : Bool) (d : Dev), d = later s.dev dt → ∃ t,
      exec (.powerOnReset dt pfwLow testEn) s = .next t ∧ t.pending = s.pending ∧ t.key = s.key.afterReset ∧
      t.dev.fld Fld.RST_STATUS_LAST_KIND = 0 ∧ t.dev.fld Fld.RST_STATUS_START_STEP = 1 ∧ t.dev.fld Fld.PWR_STATUS_RAIL_OK = 255 ∧
      t.dev.bit Fld.PWR_STATUS_PFW = pfwLow ∧ t.dev.clk.held = false ∧ t.dev.clk.testEn = testEn ∧ t.dev.snt.log = d.snt.log ∧
      t.dev.snt.afterPowerOn = true ∧ t.dev.nrg.slots = d.nrg.slots ∧ t.dev.cyc.retSlots = d.cyc.retSlots ∧ t.dev.hif = {} ∧
      t.dev.ing = {} ∧ t.dev.saf = {} ∧ (∀ off, off ≠ Reg.RST_STATUS → off ≠ Reg.PWR_STATUS → off ≠ Reg.NRG_STATUS →
      t.dev.reg off = resetWord off))
  ∧ (∀ (s : State) (dt rail : Nat) (d : Dev), d = later s.dev dt → rail < 8 → ∃ t, exec (.railFall dt rail) s = .next t ∧
      t.pending = s.pending ∧ t.key = s.key.afterReset ∧ t.dev.clk.held = true ∧ t.dev.fbit Fld.PWR_STATUS_RAIL_OK rail = false ∧
      t.dev.snt.log = d.snt.log ∧ (∀ off, off ≠ Reg.RST_STATUS → off ≠ Reg.PWR_STATUS → off ≠ Reg.NRG_STATUS →
      t.dev.reg off = resetWord off))
  ∧ (∀ (s : State) (dt rail : Nat) (d : Dev), d = later s.dev dt → 8 ≤ rail → ∃ t, exec (.railFall dt rail) s = .next t ∧
      moves s dt [] (fun _ => False) t ∧ t.dev.clk = d.clk)
  ∧ (∀ (s : State) (c : Ctx) (d : Dev), d = later s.dev 0 → (d.offers c.ring = true ∧ d.bit Fld.NRG_CFG_PFW_EN = false ∧
      d.finalSaving = false) → ∃ t, exec (.rstRequestCold c 0x52535451) s = .next t ∧ t.pending = s.pending ∧
      t.key = s.key.afterReset ∧ completes d c.ring sOk 0 t.dev ∧ t.dev.fld Fld.RST_STATUS_LAST_KIND = 1 ∧
      t.dev.snt.afterPowerOn = false ∧ t.dev.nrg.slots = d.nrg.slots ∧ (∀ off, off ≠ Reg.RST_STATUS → off ≠ Reg.PWR_STATUS →
      off ≠ Reg.NRG_STATUS → t.dev.reg off = resetWord off))
  ∧ (∀ (s : State) (c : Ctx) (d : Dev), d = later s.dev 0 → (d.offers c.ring = true ∧ d.bit Fld.NRG_CFG_PFW_EN = false ∧
      d.finalSaving = false ∧ d.ratioBreaks = false) → ∃ t, exec (.rstRequestWarm c 0x52535451) s = .next t ∧ t.pending = s.pending ∧
      t.key = s.key.afterReset ∧ completes d c.ring sOk 0 t.dev ∧ t.dev.fld Fld.RST_STATUS_LAST_KIND = 2 ∧
      t.dev.regN Reg.RST_WARM_COUNT = (d.regN Reg.RST_WARM_COUNT + 1) % 2 ^ 32 ∧ t.dev.clk.eclkDiv = d.fld Fld.CLK_DIV_ECLK_DIV ∧
      t.dev.clk.cclkDiv = d.fld Fld.CLK_DIV_CCLK_DIV ∧ t.dev.clk.bclkDiv = d.fld Fld.CLK_DIV_BCLK_DIV ∧
      t.dev.reg Reg.CLK_DIV = d.reg Reg.CLK_DIV ∧ t.dev.reg Reg.ENG_RETIRED = d.reg Reg.ENG_RETIRED ∧
      t.dev.reg Reg.SAF_CAUSE = d.reg Reg.SAF_CAUSE ∧ t.dev.bit Fld.GLB_STATUS_LOCKED = false ∧
      t.dev.reg Reg.CRT_CFG = resetWord Reg.CRT_CFG)
  ∧ (∀ (s : State) (c : Ctx) (d : Dev), d = later s.dev 0 → (d.offers c.ring = true ∧ d.bit Fld.NRG_CFG_PFW_EN = false ∧
      d.finalSaving = false ∧ d.ratioBreaks = true) → exec (.rstRequestWarm c 0x52535451) s = .fault .clockRatio)
  ∧ (∀ (s : State) (c : Ctx) (d : Dev), d = later s.dev 0 → (d.offers c.ring = true ∧ d.clk.ratioBroken = false) →
      (d.bit Fld.NRG_CFG_PFW_EN = true ∧ d.bit Fld.NRG_CTRL_EN = true ∧ d.validPoints ≠ [] ∧ d.finalSaving = false) → ∃ t,
      exec (.rstRequestWarm c 0x52535451) s = .next t ∧ t.pending = s.pending ∧ t.key = s.key ∧ completes d c.ring sOk 0 t.dev ∧
      t.dev.clk.resetPending = some 2 ∧ t.dev.nrg.finalDue = true)
  ∧ (∀ (s : State) (c : Ctx) (confirm : Nat) (d : Dev), d = later s.dev 0 → (d.offers c.ring = true ∧ confirm ≠ 0x52535451 ∧
      d.clk.ratioBroken = false) → ∃ t, exec (.rstRequestWarm c confirm) s = .next t ∧ moves s 0 [.regs, .hif] signalReg t ∧
      completes d c.ring sRange 0 t.dev)
  ∧ (∀ (s : State) (c : Ctx) (confirm : Nat) (d : Dev), d = later s.dev 0 → (d.offers c.ring = true ∧ confirm ≠ 0x52535451) → ∃ t,
      exec (.rstRequestCold c confirm) s = .next t ∧ moves s 0 [.regs, .hif] signalReg t ∧ completes d c.ring sRange 0 t.dev)
  ∧ (∀ (s : State) (dt : Nat) (d : Dev) (bad : List Nat), d = later s.dev dt → (d.clk.resetPending = none ∧ d.clk.ratioBroken = false ∧
      d.nrg.finalDue = false ∧ d.finalSaving = false) → ∃ t, exec (.nrgFinalSaveDone ⟨dt, bad⟩) s = .next t ∧ moves s dt [] (fun _ => False)
      t ∧ t.dev.nrg = d.nrg)
  ∧ (∀ (s : State) (dt p : Nat) (d : Dev) (a : Nat) (x : SaveSlot) (bad : List Nat), d = later s.dev dt → (d.clk.resetPending = none ∧
      d.clk.ratioBroken = false ∧ d.nrg.finalDue = false ∧ p < 16 ∧ (d.point p).saving = some (a, true, x)) → (List.range 16).all (fun n
      => decide (n = p) || (d.point n).saving.isNone) = true → bad.contains p = false → ∃ t, exec (.nrgFinalSaveDone ⟨dt, bad⟩) s = .next t ∧
      moves s dt [.regs, .nrg] (fun o => o ∈ [Reg.NRG_FINAL_SAVES, Reg.NRG_SAVES_LO, Reg.NRG_SAVES_HI]) t ∧ (t.dev.point p).saving = none
      ∧ t.dev.regN Reg.NRG_FINAL_SAVES = (d.regN Reg.NRG_FINAL_SAVES + 1) % 2 ^ 32)
  ∧ (∀ (s : State) (dt p : Nat) (d : Dev) (a : Nat) (x : SaveSlot) (bad : List Nat), d = later s.dev dt → (d.clk.resetPending = none ∧
      d.clk.ratioBroken = false ∧ d.nrg.finalDue = false ∧ p < 16 ∧ (d.point p).saving = some (a, true, x)) → (List.range 16).all (fun n
      => decide (n = p) || (d.point n).saving.isNone) = true → bad.contains p = true → ∃ t, exec (.nrgFinalSaveDone ⟨dt, bad⟩) s = .next t ∧
      moves s dt [.regs, .hif, .nrg, .snt] (fun o => eventReg o ∨ o ∈ [Reg.NRG_STATUS]) t ∧ (t.dev.point p).saving = none ∧ t.dev.bit
      Fld.NRG_STATUS_SAVE_FAIL = true ∧ t.dev.nrg.slots = d.nrg.slots)
  ∧ (∀ (s : State) (dt : Nat) (d : Dev) (bad : List Nat), d = later s.dev dt → (d.clk.resetPending = some 1 ∧ d.finalSaving = false) → ∃
      t, exec (.nrgFinalSaveDone ⟨dt, bad⟩) s = .next t ∧ t.pending = s.pending ∧ t.key = s.key.afterReset ∧ t.dev.fld
      Fld.RST_STATUS_LAST_KIND = 1 ∧ t.dev.nrg.slots = d.nrg.slots ∧ t.dev.clk.resetPending = none)
  ∧ (∀ (s : State) (dt : Nat) (d : Dev), d = later s.dev dt → (d.clk.pfw = false ∧ d.joined = false) → ∃ t,
      exec (.pfwAssert dt) s = .next t ∧ moves s dt [.regs, .nrg, .cyc, .clk] (fun o => o ∈ [Reg.PWR_STATUS, Reg.NRG_STATUS]) t ∧
      t.dev.clk.pfw = true ∧ t.dev.bit Fld.PWR_STATUS_PFW = true ∧ t.dev.bit Fld.NRG_STATUS_PFW = true ∧
      (d.bit Fld.NRG_CFG_PFW_EN = true ∧ d.bit Fld.NRG_CTRL_EN = true ∧ d.validPoints ≠ [] → d.finalSaving = false →
      t.dev.nrg.finalDue = true))
  ∧ (∀ (s : State) (dt : Nat) (d : Dev), d = later s.dev dt → d.clk.pfw = true → ∃ t, exec (.pfwAssert dt) s = .next t ∧
      moves s dt [] (fun _ => False) t ∧ t.dev.clk = d.clk)
  ∧ (∀ (s : State) (dt : Nat) (d : Dev), d = later s.dev dt → ∃ t, exec (.pfwDeassert dt) s = .next t ∧ moves s dt [.regs, .nrg, .clk]
      (fun o => o ∈ [Reg.PWR_STATUS, Reg.NRG_STATUS]) t ∧ t.dev.clk.pfw = false ∧ t.dev.bit Fld.PWR_STATUS_PFW = false ∧ t.dev.bit
      Fld.NRG_STATUS_PFW = false ∧ t.dev.nrg = { d.nrg with savedSec := d.gSec })
  ∧ (∀ (s : State) (dt : Nat) (d : Dev), d = later s.dev dt → d.rescueDue = true → ∃ t, exec (.rescue dt) s = .next t ∧
      t.pending = s.pending ∧ t.key = s.key.afterReset ∧ t.dev.bit Fld.CLK_STATUS_RESCUE = true ∧
      t.dev.bit Fld.HIF_STATUS_CMD_READY = false ∧ t.dev.ing = {} ∧ t.dev.fum = {} ∧ t.dev.saf = d.saf ∧ t.dev.snt.log = d.snt.log ∧
      (∀ off, runsInRescue off = false → t.dev.reg off = resetWord off) ∧ (∀ off, runsInRescue off = true → off ≠ Reg.CLK_STATUS →
      off ≠ Reg.HIF_STATUS → t.dev.reg off = d.reg off))
  ∧ (∀ (s : State) (dt : Nat) (d : Dev), d = later s.dev dt → d.rescueDue = false → ∃ t, exec (.rescue dt) s = .next t ∧
      moves s dt [] (fun _ => False) t ∧ t.dev.clk = d.clk)

/-- Crystals, the PLL, the loss of the root, module discovery, DDR5, the image set and CMD_READY. The offset, the order of the steps and
what AUTH covers are the model's readings (logs 117, 119, 122, 121, 116). Rests on R532, R534, R535, R543, R545, R547, R549, R354; the
statement is derived. -/
def Obligations.StartUpTakesEffect : Prop :=
  (∀ (s : State) (dt : Nat) (gates : List Int) (d : Dev), d = later s.dev dt → (d.judgeOf 0 = .notJudged ∧ d.clk.judge.length = 2 ∧
      d.clk.held = false ∧ d.bit Fld.CLK_STATUS_RESCUE = false ∧ d.bit Fld.CLK_STATUS_PLL_LOCK = false ∧ judgeGates gates = .passed) →
      ∃ t, exec (.xtalJudged dt 0 gates) s = .next t ∧ moves s dt [.regs, .clk] (fun o => o ∈ [Reg.CLK_STATUS, Reg.CLK_XTALn 0,
      Reg.RST_STATUS]) t ∧ t.dev.fld Fld.CLK_STATUS_ROOT = 0 ∧ t.dev.bit Fld.CLK_STATUS_XTAL0_OK = true ∧
      t.dev.fld Fld.RST_STATUS_START_STEP = 4 ∧ t.dev.judgeOf 0 = .passed ∧ t.dev.regN (Reg.CLK_XTALn 0) = toTwos 16 (gateMean gates))
  ∧ (∀ (s : State) (dt : Nat) (gates : List Int) (d : Dev), d = later s.dev dt → (d.judgeOf 0 = .notJudged ∧ d.clk.judge.length = 2 ∧
      d.clk.held = false ∧ d.bit Fld.CLK_STATUS_RESCUE = false ∧ d.bit Fld.CLK_STATUS_PLL_LOCK = false ∧ judgeGates gates ≠ .passed) →
      ∃ t, exec (.xtalJudged dt 0 gates) s = .next t ∧ moves s dt [.regs, .hif, .snt, .clk] (fun o => eventReg o ∨ o ∈ [Reg.CLK_STATUS,
      Reg.CLK_XTALn 0, Reg.RST_STATUS]) t ∧ t.dev.bit Fld.CLK_STATUS_XTAL0_OK = false ∧ t.dev.fld Fld.RST_STATUS_START_STEP = 3 ∧
      t.dev.judgeOf 0 = judgeGates gates)
  ∧ (∀ (s : State) (dt : Nat) (gates : List Int) (d : Dev), d = later s.dev dt → (d.judgeOf 0 = .outside ∧ d.judgeOf 1 = .notJudged ∧
      d.clk.judge.length = 2 ∧ d.clk.held = false ∧ d.bit Fld.CLK_STATUS_RESCUE = false ∧ d.bit Fld.CLK_STATUS_PLL_LOCK = false ∧
      judgeGates gates = .passed) → ∃ t, exec (.xtalJudged dt 1 gates) s = .next t ∧ moves s dt [.regs,
      .clk] (fun o => o ∈ [Reg.CLK_STATUS, Reg.CLK_XTALn 1, Reg.RST_STATUS]) t ∧ t.dev.fld Fld.CLK_STATUS_ROOT = 1 ∧
      t.dev.bit Fld.CLK_STATUS_XTAL1_OK = true ∧ t.dev.fld Fld.RST_STATUS_START_STEP = 4)
  ∧ (∀ (s : State) (dt : Nat) (gates : List Int) (d : Dev), d = later s.dev dt → (d.judgeOf 0 = .noOscillation ∧ d.judgeOf 1 = .notJudged ∧
      d.clk.judge.length = 2 ∧ d.clk.held = false ∧ d.bit Fld.CLK_STATUS_RESCUE = false ∧ d.bit Fld.CLK_STATUS_PLL_LOCK = false ∧
      d.clk.vcoHold = false ∧ judgeGates gates ≠ .passed) → ∃ t, exec (.xtalJudged dt 1 gates) s = .next t ∧ t.pending = s.pending ∧
      t.key = s.key.afterReset ∧ t.dev.bit Fld.CLK_STATUS_RESCUE = true ∧ t.dev.bit Fld.HIF_STATUS_CMD_READY = false)
  ∧ (∀ (s : State) (dt : Nat) (gates : List Int) (d : Dev), d = later s.dev dt → (d.judgeOf 1 = .notJudged ∧ d.clk.judge.length = 2 ∧
      d.clk.held = false ∧ d.bit Fld.CLK_STATUS_RESCUE = false ∧ d.bit Fld.CLK_STATUS_PLL_LOCK = true ∧ judgeGates gates = .passed) →
      ∃ t, exec (.xtalJudged dt 1 gates) s = .next t ∧ moves s dt [.regs, .clk] (fun o => o ∈ [Reg.CLK_STATUS, Reg.CLK_XTALn 1]) t ∧
      t.dev.fld Fld.CLK_STATUS_ROOT = d.fld Fld.CLK_STATUS_ROOT ∧ t.dev.bit Fld.CLK_STATUS_XTAL1_OK = true ∧ t.dev.judgeOf 1 = .passed)
  ∧ (∀ (s : State) (dt : Nat) (d : Dev), d = later s.dev dt → (d.clk.vcoHold = false ∧ d.bit Fld.CLK_STATUS_PLL_LOCK = false ∧
      d.judgeOf (d.fld Fld.CLK_STATUS_ROOT) = .passed ∧ d.fld Fld.RST_STATUS_START_STEP = 4 ∧ d.clk.discovered = false) → ∃ t,
      exec (.pllLock dt) s = .next t ∧ moves s dt [.regs] (fun o => o ∈ [Reg.CLK_STATUS, Reg.RST_STATUS]) t ∧
      t.dev.bit Fld.CLK_STATUS_PLL_LOCK = true ∧ t.dev.fld Fld.RST_STATUS_START_STEP = 5 ∧
      t.dev.fld Fld.CLK_STATUS_ROOT = d.fld Fld.CLK_STATUS_ROOT)
  ∧ (∀ (s : State) (dt : Nat) (d : Dev), d = later s.dev dt → (d.clk.vcoHold = true ∧
      d.judgeOf (1 - d.fld Fld.CLK_STATUS_ROOT) = .passed) → ∃ t, exec (.pllLock dt) s = .next t ∧ moves s dt [.regs,
      .clk] (fun o => o ∈ [Reg.CLK_STATUS]) t ∧ t.dev.fld Fld.CLK_STATUS_ROOT = 1 - d.fld Fld.CLK_STATUS_ROOT ∧
      t.dev.bit Fld.CLK_STATUS_PLL_LOCK = true ∧ t.dev.clk.vcoHold = false)
  ∧ (∀ (s : State) (dt : Nat) (d : Dev), d = later s.dev dt → (d.clk.vcoHold = false ∧ d.bit Fld.CLK_STATUS_PLL_LOCK = true ∧
      d.saf.queue.all (fun e => decide (e.cls ≠ eClock)) = true) → ∃ t, exec (.rootLoss dt) s = .next t ∧ t.pending = s.pending ∧
      t.key = s.key ∧ t.dev.bit Fld.SAF_STATUS_SAFE = true ∧ t.dev.clk.vcoHold = true ∧ t.dev.bit Fld.CLK_STATUS_PLL_LOCK = false ∧
      t.dev.regN Reg.SAF_ERRORS = (d.regN Reg.SAF_ERRORS + 1) % 2 ^ 32)
  ∧ (∀ (s : State) (dt : Nat) (d : Dev), d = later s.dev dt → d.bit Fld.CLK_STATUS_PLL_LOCK = false → ∃ t,
      exec (.rootLoss dt) s = .next t ∧ moves s dt [] (fun _ => False) t ∧ t.dev.clk = d.clk)
  ∧ (∀ (s : State) (dt n : Nat) (gates : List Int) (d : Dev), d = later s.dev dt → (d.bit Fld.CLK_STATUS_PLL_LOCK = true ∧
      d.clk.vcoHold = false ∧ n = d.fld Fld.CLK_STATUS_ROOT ∧ d.judgeOf n ≠ .notJudged ∧ d.clk.judgedAt.length = 2 ∧
      d.clk.judge.length = 2) → ((d.clk.judgedAt[n]?).getD 0 + 60000000000 ≤ d.up ∧ judgeGates gates = .passed) → ∃ t,
      exec (.rootRejudge dt n gates) s = .next t ∧ moves s dt [.regs, .clk] (fun o => o = Reg.CLK_STATUS ∨ o = Reg.CLK_XTALn n) t ∧
      t.dev.regN (Reg.CLK_XTALn n) = toTwos 16 (gateMean gates) ∧ t.dev.clk.judgedAt[n]? = some d.up ∧ t.dev.judgeOf n = .passed)
  ∧ (∀ (s : State) (dt n : Nat) (gates : List Int) (d : Dev), d = later s.dev dt → (d.bit Fld.CLK_STATUS_PLL_LOCK = true ∧
      d.clk.vcoHold = false ∧ n = d.fld Fld.CLK_STATUS_ROOT ∧ d.judgeOf n ≠ .notJudged) →
      ((d.clk.judgedAt[n]?).getD 0 + 60000000000 ≤ d.up ∧ judgeGates gates ≠ .passed ∧
      d.saf.queue.all (fun e => decide (e.cls ≠ eClock)) = true) → ∃ t, exec (.rootRejudge dt n gates) s = .next t ∧
      t.pending = s.pending ∧ t.key = s.key ∧ t.dev.bit Fld.SAF_STATUS_SAFE = true ∧ t.dev.clk.vcoHold = true ∧
      t.dev.bit Fld.CLK_STATUS_PLL_LOCK = false)
  ∧ (∀ (s : State) (dt : Nat) (d : Dev), d = later s.dev dt → (d.clk.discovered = false ∧ d.bit Fld.CLK_STATUS_RESCUE = false ∧
      d.bit Fld.CLK_STATUS_PLL_LOCK = true) → ∃ t, exec (.moduleDiscovery dt [] []) s = .next t ∧ moves s dt [.regs, .hif, .snt, .clk,
      .inv] (fun o => eventReg o ∨ o ∈ [Reg.INV_STATUS, Reg.INV_READS, Reg.INV_ERRORS, Reg.ACQ_STATUS, Reg.RST_STATUS]) t ∧
      t.dev.clk.discovered = true ∧ t.dev.regN Reg.INV_ERRORS = (d.regN Reg.INV_ERRORS + 6) % 2 ^ 32 ∧
      t.dev.regN Reg.INV_READS = d.regN Reg.INV_READS ∧
      (List.range 6).all (fun p => !t.dev.fbit Fld.INV_STATUS_PRESENT p && !t.dev.fbit Fld.INV_STATUS_VALID p) = true)
  ∧ (∀ (s : State) (dt : Nat) (b : Bytes) (d : Dev), d = later s.dev dt → (d.clk.discovered = false ∧ d.bit Fld.CLK_STATUS_RESCUE = false ∧
      d.bit Fld.CLK_STATUS_PLL_LOCK = true) → (b.length = 256 ∧ idFault 0 b = none) → ∃ t,
      exec (.moduleDiscovery dt [[b]] []) s = .next t ∧ moves s dt [.regs, .hif, .snt, .clk,
      .inv] (fun o => eventReg o ∨ o ∈ [Reg.INV_STATUS, Reg.INV_READS, Reg.INV_ERRORS, Reg.INV_BOARD, Reg.ACQ_STATUS,
      Reg.RST_STATUS]) t ∧ t.dev.clk.discovered = true ∧ t.dev.regN Reg.INV_READS = (d.regN Reg.INV_READS + 1) % 2 ^ 32 ∧
      t.dev.fbit Fld.INV_STATUS_VALID 0 = true ∧ t.dev.fbit Fld.INV_STATUS_PRESENT 0 = true ∧
      t.dev.fld Fld.INV_BOARD_SUBSYS_VENDOR = idAt b 32 2 ∧ t.dev.fld Fld.INV_BOARD_SUBSYS_ID = idAt b 34 2 ∧
      t.dev.inv.xtal1Fitted = decide (idAt b 36 1 = 1) ∧ t.dev.inv.mem.find 0 = some b)
  ∧ (∀ (s : State) (dt gib : Nat) (d : Dev), d = later s.dev dt → (d.bit Fld.CLK_STATUS_PLL_LOCK = true ∧
      d.bit Fld.RST_STATUS_DDR_READY = false ∧ d.bit Fld.CLK_STATUS_RESCUE = false ∧ gib < 64 ∧ d.fld Fld.RST_STATUS_LAST_KIND = 2) →
      ∃ t, exec (.ddrReady dt gib true) s = .next t ∧ moves s dt [.regs] (fun o => o ∈ [Reg.RST_STATUS]) t ∧
      t.dev.bit Fld.RST_STATUS_DDR_READY = true ∧ t.dev.bit Fld.RST_STATUS_DDR_KEPT = true ∧ t.dev.fld Fld.RST_STATUS_DDR_GIB = gib)
  ∧ (∀ (s : State) (dt gib : Nat) (trained : Bool) (d : Dev), d = later s.dev dt → (d.bit Fld.CLK_STATUS_PLL_LOCK = true ∧
      d.bit Fld.RST_STATUS_DDR_READY = false ∧ d.bit Fld.CLK_STATUS_RESCUE = false ∧ gib < 64 ∧
      (trained = false ∨ d.fld Fld.RST_STATUS_LAST_KIND ≠ 2)) → ∃ t, exec (.ddrReady dt gib trained) s = .next t ∧ moves s dt [.regs,
      .crt] (fun o => o ∈ [Reg.RST_STATUS]) t ∧ t.dev.bit Fld.RST_STATUS_DDR_READY = true ∧ t.dev.bit Fld.RST_STATUS_DDR_KEPT = false ∧
      t.dev.fld Fld.RST_STATUS_DDR_GIB = gib ∧ t.dev.crt.snaps = [] ∧ t.dev.crt.amends = [])
  ∧ (∀ (s : State) (dt n : Nat) (d : Dev), d = later s.dev dt → (d.clk.keyStarted = true ∧ d.clk.discovered = true ∧
      d.clk.imageLoaded = false ∧ d.bit Fld.CLK_STATUS_RESCUE = false) → (d.inv.nor.length = 2 ∧ Dev.norPick s.key d = some n ∧
      d.fld Fld.ENG_RETIRED_ENGINE = 0 ∧ d.bit Fld.SNT_STATUS_RUNNING = false) → ∃ t, exec (.imageSetVerify dt [] 0) s = .next t ∧
      moves s dt [.regs, .sch, .saf, .clk, .inv] (fun o => o ∈ [Reg.RST_STATUS, Reg.ENG_STATUS, Reg.ENG_BANK, Reg.FUM_STATUS]) t ∧
      t.dev.clk.imageLoaded = true ∧ t.dev.inv.norInUse = n ∧ t.dev.fld Fld.RST_STATUS_IMG_SET = n ∧
      t.dev.bit Fld.RST_STATUS_IMG_FALLBACK = decide (d.norSeq n < d.norSeq (1 - n)) ∧ t.dev.fld Fld.RST_STATUS_START_STEP = 10 ∧
      t.dev.fld Fld.ENG_STATUS_PE_ACTIVE = 0x7FFF ∧ t.dev.fld Fld.ENG_STATUS_DE_ACTIVE = 15 ∧ t.dev.fld Fld.ENG_STATUS_SPARE = 15 ∧
      t.dev.bit Fld.ENG_STATUS_NO_SPARE = false ∧ t.dev.hbAge = 0)
  ∧ (∀ (s : State) (dt failing : Nat) (d : Dev), d = later s.dev dt → (d.clk.keyStarted = true ∧ d.clk.discovered = true ∧
      d.clk.imageLoaded = false ∧ d.bit Fld.CLK_STATUS_RESCUE = false) → d.inv.nor = [none, none] → ∃ t,
      exec (.imageSetVerify dt [] failing) s = .next t ∧ moves s dt [.clk] (fun _ => False) t ∧
      t.dev.clk = { d.clk with noImage := true })
  ∧ (∀ (s : State) (dt : Nat) (d : Dev), d = later s.dev dt → (d.clk.discovered = true ∧ d.clk.keyStarted = true ∧
      d.clk.imageLoaded = true ∧ d.bit Fld.SNT_STATUS_RUNNING = true ∧ d.bit Fld.HIF_STATUS_CMD_READY = false ∧
      d.bit Fld.CLK_STATUS_RESCUE = false) → ∃ t, exec (.cmdReady dt) s = .next t ∧ moves s dt [.regs] (fun o => o ∈ [Reg.HIF_STATUS,
      Reg.RST_START_MS, Reg.RST_STATUS]) t ∧ t.dev.bit Fld.HIF_STATUS_CMD_READY = true ∧
      t.dev.regN Reg.RST_START_MS = sat 65535 ((d.up - d.tim.releasedAt) / 1000000) ∧ t.dev.fld Fld.RST_STATUS_START_STEP = 11)
  ∧ (∀ (s : State) (dt : Nat) (d : Dev), d = later s.dev dt →
      (d.clk.imageLoaded = false ∨ d.bit Fld.SNT_STATUS_RUNNING = false ∨ d.bit Fld.CLK_STATUS_RESCUE = true) → ∃ t,
      exec (.cmdReady dt) s = .next t ∧ moves s dt [] (fun _ => False) t ∧
      t.dev.bit Fld.HIF_STATUS_CMD_READY = d.bit Fld.HIF_STATUS_CMD_READY)

/-- INV_READ, INV_RESCAN and NOR_SET_WRITE complete with the status and the effect of R553. What AUTH covers is the model's choice (log
122). Rests on R553, R549, R545; the statement is derived. -/
def Obligations.InventoryCommandsComplete : Prop :=
  (∀ (s : State) (c : Ctx) (d : Dev) (pos : Nat) (buf : HostBuf), ready s.dev c.ring false none → d = fetched s.dev c.ring →
      (9 < pos ∨ buf.len < 256) → exec (.invRead c pos buf) s = .next (served s c d (.done sRange 0)))
  ∧ (∀ (s : State) (c : Ctx) (d : Dev) (pos : Nat) (buf : HostBuf), ready s.dev c.ring false none → d = fetched s.dev c.ring → (pos ≤ 9 ∧
      256 ≤ buf.len ∧ d.answered pos = false) → exec (.invRead c pos buf) s = .next (served s c d (.done sNotValid 0)))
  ∧ (∀ (s : State) (c : Ctx) (d : Dev) (pos : Nat) (buf : HostBuf) (b : Bytes), ready s.dev c.ring false none → d = fetched s.dev c.ring →
      (pos ≤ 5 ∧ 256 ≤ buf.len ∧ d.fbit Fld.INV_STATUS_PRESENT pos = true ∧ d.inv.mem.find pos = some b ∧ b.length = 256) →
      exec (.invRead c pos buf) s = .next (served s c d (.block b (some buf.addr))))
  ∧ (∀ (s : State) (c : Ctx) (d : Dev) (pos : Nat) (answers : List Bytes), ready s.dev c.ring false none → d = fetched s.dev c.ring →
      5 < pos → exec (.invRescan c pos answers) s = .next (served s c d (.done sRange 0)))
  ∧ (∀ (s : State) (c : Ctx) (d : Dev) (pos : Nat) (answers : List Bytes), ready s.dev c.ring false none → d = fetched s.dev c.ring →
      (pos = 0 ∨ (2 ≤ pos ∧ pos ≤ 5 ∧ d.fbit Fld.ACQ_CTRL_FE_EN (pos - 2) = true)) →
      exec (.invRescan c pos answers) s = .next (served s c d (.done sBusy 0)))
  ∧ (∀ (s : State) (c : Ctx) (d : Dev) (pos : Nat) (answers : List Bytes), ready s.dev c.ring false none → d = fetched s.dev c.ring →
      (pos = 1 ∨ (2 ≤ pos ∧ pos ≤ 5 ∧ d.fbit Fld.ACQ_CTRL_FE_EN (pos - 2) = false)) →
      exec (.invRescan c pos answers) s = .next (served s c (d.readIdentity true pos answers) (.done sOk 0)))
  ∧ (∀ (s : State) (c : Ctx) (d : Dev) (image : Bytes), ready s.dev c.ring true none → d = fetched s.dev c.ring → 67108864 < image.length →
      exec (.norSetWrite c image) s = .next (served s c d (.done sRange 0)))
  ∧ (∀ (s : State) (c : Ctx) (d : Dev) (image : Bytes), ready s.dev c.ring true none → d = fetched s.dev c.ring →
      (image.length ≤ 67108864 ∧ d.inv.norBusy = true) → exec (.norSetWrite c image) s = .next (served s c d (.done sBusy 0)))
  ∧ (∀ (s : State) (c : Ctx) (d : Dev) (image : Bytes) (new : Bytes), ready s.dev c.ring true none → d = fetched s.dev c.ring →
      (image.length ≤ 67108864 ∧ d.inv.norBusy = false ∧ new = norWithSeq image (d.norSeq d.inv.norInUse + 1) ∧
      norValid s.key new = true) → exec (.norSetWrite c image) s = .next (served s c (d.modInv (fun (i : InvSt) =>
      { i with nor := modifyAt i.nor (1 - d.inv.norInUse) (fun _ => some new), norBusy := true })) (.wait .norWrite)))
  ∧ (∀ (s : State) (c : Ctx) (d : Dev) (image : Bytes), ready s.dev c.ring true none → d = fetched s.dev c.ring →
      (image.length ≤ 67108864 ∧ d.inv.norBusy = false ∧ norValid s.key (norWithSeq image (d.norSeq d.inv.norInUse + 1)) = false) →
      exec (.norSetWrite c image) s = .next (served s c (d.modInv (fun (i : InvSt) =>
      { i with nor := modifyAt i.nor (1 - d.inv.norInUse) (fun _ => none) })) (.done sAuthFail 0)))

/-- Writes and reads of BAR0, the configuration lock and the clock gates do what the register map says. A read brings the counters of the
ports up to the present, which the model keeps until then. Rests on R16, R17, R18, R19, R20, R538, R539, R555, R556, R562; the statement
is derived. -/
def Obligations.RegisterAccessesTakeEffect : Prop :=
  (∀ (s : State) (v : Word) (d : Dev), d = later s.dev 0 → (d.locked = false ∧ d.bit Fld.CLK_STATUS_RESCUE = false) → ∃ t,
      exec (.regWrite Reg.CRT_PRED 4 (v.setWidth 64)) s = .next t ∧ moves s 0 [.regs] (fun o => o ∈ [Reg.CRT_PRED]) t ∧
      t.dev.fld Fld.CRT_PRED_MAX_EPOCHS = v.toNat % 256 ∧ bitsAt (t.dev.reg Reg.CRT_PRED) 8 24 = bitsAt (d.reg Reg.CRT_PRED) 8 24)
  ∧ (∀ (s : State) (v : Word) (d : Dev), d = later s.dev 0 → (d.locked = true ∧ d.bit Fld.CLK_STATUS_RESCUE = false ∧
      v.toNat % 256 ≠ d.fld Fld.CRT_PRED_MAX_EPOCHS) → ∃ t, exec (.regWrite Reg.CRT_PRED 4 (v.setWidth 64)) s = .next t ∧
      moves s 0 [.regs] (fun o => o ∈ [Reg.GLB_STATUS, Reg.GLB_LOCK_VIOL]) t ∧ t.dev.bit Fld.GLB_STATUS_LOCK_VIOL = true ∧
      t.dev.locked = true ∧ t.dev.regN Reg.GLB_LOCK_VIOL = (d.regN Reg.GLB_LOCK_VIOL + 1) % 2 ^ 32)
  ∧ (∀ (s : State) (v : Word) (d : Dev), d = later s.dev 0 → (d.locked = false ∧ d.bit Fld.CLK_STATUS_RESCUE = false ∧
      (v.toNat % 256 < 10 ∨ 240 < v.toNat % 256)) → ∃ t, exec (.regWrite Reg.CRT_CFG 4 (v.setWidth 64)) s = .next t ∧
      moves s 0 [.regs] (fun o => o ∈ [Reg.CRT_CFG, Reg.CRT_STATUS]) t ∧ t.dev.rate = d.rate ∧
      t.dev.bit Fld.CRT_STATUS_CFG_ERR = true ∧ t.dev.craterRuns = d.craterRuns ∧
      t.dev.bit Fld.CRT_CFG_EARLY_SEAL = v.toNat.testBit 18 ∧ t.dev.bit Fld.CRT_CFG_F_NOM = v.toNat.testBit 19)
  ∧ (∀ (s : State) (off : Nat) (v : DWord) (d : Dev), d = later s.dev 0 → (off % 4 = 0 ∧ (off ∈ [Reg.CRT_VIEW, Reg.HIF_DB_BAD,
      Reg.TIM_BOUND] ∨ 0x180000 ≤ off)) → ∃ t, exec (.regWrite off 4 v) s = .next t ∧ moves s 0 [.regs] (fun _ => False) t)
  ∧ (∀ (s : State) (off : Nat) (v : DWord) (d : Dev), d = later s.dev 0 → (off % 4 = 0 ∧ d.gatedAt off = true) → ∃ t,
      exec (.regWrite off 4 v) s = .next t ∧ moves s 0 [] (fun _ => False) t)
  ∧ (∀ (s : State) (off size : Nat) (v : DWord) (d : Dev), d = later s.dev 0 → ((size ≠ 4 ∧ size ≠ 8) ∨ off % 4 ≠ 0) → ∃ t,
      exec (.regWrite off size v) s = .next t ∧ moves s 0 [.regs] (fun o => o ∈ [Reg.GLB_BAD_ACCESS]) t ∧
      t.dev.regN Reg.GLB_BAD_ACCESS = (d.regN Reg.GLB_BAD_ACCESS + 1) % 2 ^ 32)
  ∧ (∀ (s : State) (n : Nat) (lo hi : Word) (d : Dev), d = later s.dev 0 → (n < 32 ∧ d.ringIdle n = true) → ∃ t,
      exec (.regWrite (Reg.HIF_RINGn_BASE_LO n) 8 (hi ++ lo)) s = .next t ∧ moves s 0 [.regs,
      .hif] (fun o => o ∈ [Reg.HIF_RINGn_BASE_LO n, Reg.HIF_RINGn_BASE_HI n]) t ∧
      t.dev.reg (Reg.HIF_RINGn_BASE_LO n) = lo &&& 0xFFFFF000 ∧ t.dev.reg (Reg.HIF_RINGn_BASE_HI n) = hi ∧
      t.dev.hif.rings = d.hif.rings ∧ t.dev.hif.waiting = d.hif.waiting)
  ∧ (∀ (s : State) (off : Nat) (d : Dev), d = later s.dev 0 → (off ∈ [Reg.CRT_CFG, Reg.CRT_PRED, Reg.GLB_STATUS, Reg.ENG_STATUS,
      Reg.SAF_CFG] ∧ d.bit Fld.CLK_STATUS_RESCUE = false) → ∃ t, exec (.loReadLatch off 4) s = .next t ∧ moves s 0 [.regs, .net,
      .hif] (fun o => o / 0x1000 ∈ [0x0e0, 0x0e1] ∨ o ∈ [Reg.FUM_EXP_SENT]) t ∧ t.dev.out = [.readData ((d.reg off).setWidth 64)] ∧
      t.dev.hif = d.hif)
  ∧ (∀ (s : State) (lo : Nat) (d : Dev), d = later s.dev 0 → (lo ∈ [Reg.ING_FRAMES_LO, Reg.CRT_LAST_CONF_LO, Reg.CRT_SEALED_LO] ∧
      d.bit Fld.CLK_STATUS_RESCUE = false) → ∃ t, exec (.loReadLatch lo 4) s = .next t ∧ moves s 0 [.regs, .net,
      .hif] (fun o => o / 0x1000 ∈ [0x0e0, 0x0e1] ∨ o ∈ [Reg.FUM_EXP_SENT]) t ∧ t.dev.out = [.readData ((d.reg lo).setWidth 64)] ∧
      t.dev.hif.latches.find (lo + 4) = some (d.reg (lo + 4)) ∧ t.dev.hif.waiting = d.hif.waiting)
  ∧ (∀ (s : State) (hi : Nat) (w : Word) (d : Dev), d = later s.dev 0 → (hi ∈ [Reg.ING_FRAMES_HI, Reg.CRT_LAST_CONF_HI,
      Reg.CRT_SEALED_HI] ∧ d.bit Fld.CLK_STATUS_RESCUE = false) → d.hif.latches.find hi = some w → ∃ t,
      exec (.loReadLatch hi 4) s = .next t ∧ moves s 0 [.regs, .net] (fun o => o / 0x1000 ∈ [0x0e0,
      0x0e1] ∨ o ∈ [Reg.FUM_EXP_SENT]) t ∧ t.dev.out = [.readData (w.setWidth 64)])
  ∧ (∀ (s : State) (off : Nat) (d : Dev), d = later s.dev 0 → (off % 4 = 0 ∧ d.gatedAt off = true) → ∃ t,
      exec (.loReadLatch off 4) s = .next t ∧ moves s 0 [] (fun _ => False) t ∧ t.dev.out = [.readData 0xFFFFFF06])
  ∧ (∀ (s : State) (off size : Nat) (d : Dev), d = later s.dev 0 → (off < 0x400000 ∧ ((size ≠ 4 ∧ size ≠ 8) ∨ off % 4 ≠ 0)) → ∃ t, exec
      (.loReadLatch off size) s = .next t ∧ moves s 0 [.regs, .net] (fun o => o ∈ [Reg.GLB_BAD_ACCESS] ∨ o / 0x1000 ∈ [0x0e0, 0x0e1] ∨ o ∈
      [Reg.FUM_EXP_SENT]) t ∧ t.dev.regN Reg.GLB_BAD_ACCESS = (d.regN Reg.GLB_BAD_ACCESS + 1) % 2 ^ 32 ∧ t.dev.out = [.readData 0])
  ∧ (∀ (s : State) (n : Nat) (d : Dev), d = later s.dev 0 → n < 32 → exec (.loReadLatch (0x400000 + 256 * n) 8) s = .next
      { s with dev := d.emit (.readData (BitVec.ofNat 64 (d.regN (Reg.HIF_RINGn_DONE n) + 2 ^ 32 * d.fld (Fld.HIF_RINGn_STAT_STATE n)))) })
  ∧ (∀ (s : State) (d : Dev), d = later s.dev 0 → d.locked = false → ∃ t, exec (.glbLockWrite 0x4C4F434B) s = .next t ∧
      moves s 0 [.regs] (fun o => o ∈ [Reg.GLB_STATUS, Reg.GLB_LOCK_SIG]) t ∧ t.dev.locked = true ∧
      t.dev.regN Reg.GLB_LOCK_SIG = d.lockSignature % 2 ^ 32 ∧ t.dev.bit Fld.GLB_STATUS_CFG_ERR = d.bit Fld.GLB_STATUS_CFG_ERR ∧
      t.dev.bit Fld.GLB_STATUS_LOCK_VIOL = d.bit Fld.GLB_STATUS_LOCK_VIOL)
  ∧ (∀ (s : State) (d : Dev), d = later s.dev 0 → d.locked = true → ∃ t, exec (.glbLockWrite 0x4C4F434B) s = .next t ∧
      moves s 0 [] (fun _ => False) t)
  ∧ (∀ (s : State) (v : Word) (d : Dev), d = later s.dev 0 → v ≠ 0x4C4F434B → ∃ t, exec (.glbLockWrite v) s = .next t ∧
      moves s 0 [.regs] (fun o => o ∈ [Reg.GLB_STATUS]) t ∧ t.dev.bit Fld.GLB_STATUS_CFG_ERR = true ∧ t.dev.locked = d.locked)
  ∧ (∀ (s : State) (mask b : Nat) (d : Dev), d = later s.dev 0 → (b < 15 ∧ mask.testBit b = true ∧ d.gateEnabled b = false ∧
      d.fbit Fld.CLK_GATE_GATE b = false) → ∃ t, exec (.clkGateSet mask) s = .next t ∧ moves s 0 [.regs,
      .clk] (fun o => o ∈ [Reg.CLK_GATE, Reg.CLK_GATE_STATUS, Reg.CLK_STATUS]) t ∧ t.dev.fbit Fld.CLK_GATE_GATE b = true ∧
      t.dev.clk.gateHeld.testBit b = true ∧ t.dev.gated b = d.gated b ∧ ∀ j, j < 15 → mask.testBit j = false →
      t.dev.fbit Fld.CLK_GATE_GATE j = d.fbit Fld.CLK_GATE_GATE j)
  ∧ (∀ (s : State) (mask b : Nat) (d : Dev), d = later s.dev 0 → (b < 15 ∧ mask.testBit b = true ∧ d.gateEnabled b = true ∧
      d.fbit Fld.CLK_GATE_GATE b = false) → ∃ t, exec (.clkGateSet mask) s = .next t ∧ moves s 0 [.regs,
      .clk] (fun o => o ∈ [Reg.CLK_GATE, Reg.CLK_GATE_STATUS, Reg.CLK_STATUS]) t ∧ t.dev.fbit Fld.CLK_GATE_GATE b = false ∧
      t.dev.bit Fld.CLK_STATUS_CFG_ERR = true ∧ t.dev.clk.gateHeld.testBit b = d.clk.gateHeld.testBit b)
  ∧ (∀ (s : State) (dt b : Nat) (d : Dev), d = later s.dev dt → (b < 15 ∧ d.clk.gateHeld.testBit b = true) → ∃ t,
      exec (.gateClose dt b) s = .next t ∧ moves s dt [.regs, .clk] (fun o => o ∈ [Reg.CLK_GATE_STATUS]) t ∧ t.dev.gated b = true ∧
      t.dev.clk.gateHeld.testBit b = false ∧ ∀ j, j < 15 → j ≠ b → t.dev.gated j = d.gated j ∧
      t.dev.clk.gateHeld.testBit j = d.clk.gateHeld.testBit j)
  ∧ (∀ (s : State) (dt b : Nat) (d : Dev), d = later s.dev dt → d.clk.gateHeld.testBit b = false → ∃ t,
      exec (.gateClose dt b) s = .next t ∧ moves s dt [] (fun _ => False) t)
  ∧ (∀ (s : State) (mask b : Nat) (d : Dev), d = later s.dev 0 → (b < 15 ∧ mask.testBit b = true) → ∃ t,
      exec (.clkGateClear mask) s = .next t ∧ moves s 0 [.regs, .clk] (fun o => o ∈ [Reg.CLK_GATE, Reg.CLK_GATE_STATUS]) t ∧
      t.dev.fbit Fld.CLK_GATE_GATE b = false ∧ t.dev.gated b = false ∧ t.dev.clk.gateHeld.testBit b = false ∧ ∀ j, j < 15 →
      mask.testBit j = false → t.dev.fbit Fld.CLK_GATE_GATE j = d.fbit Fld.CLK_GATE_GATE j)

/-- Crater opens, seals, fills again, confirms and delivers epochs, and takes late records. A committed record is the local seal's
record of its stream, with ORIGIN 0. An event whose condition does not hold changes nothing (log 2). Rests on R31, R32, R45, R101,
R105, R106, R107, R115, R116, R119, R122, R132; the statement is derived. -/
def Obligations.CraterEventsTakeEffect : Prop :=
  (∀ (s : State) (dt e : Nat) (d : Dev), d = later s.dev dt → (d.craterRuns = true ∧ d.crt.nextSeal ≤ e ∧ epochTime d.rate e ≤ d.g16 ∧ e ≤
      d.crt.nextDeliver + 127 ∧ d.slot e = none) → ∃ t, exec (.epochOpen dt e) s = .next t ∧ moves s dt [.regs, .crt] (fun o => o ∈
      [Reg.CRT_STATUS]) t ∧ t.dev.slot e = some {} ∧ (∀ e', e' ≠ e → t.dev.slot e' = d.slot e') ∧ t.dev.crt =
      { d.crt with slots := t.dev.crt.slots } ∧ t.dev.craterRuns = true ∧ t.dev.fld Fld.CRT_STATUS_OPEN = openCount t.dev.crt.slots % 2 ^
      Fld.CRT_STATUS_OPEN.width)
  ∧ (∀ (s : State) (dt e : Nat) (d : Dev), d = later s.dev dt → (d.craterRuns = false ∨ e < d.crt.nextSeal ∨
      d.g16 < epochTime d.rate e ∨ d.crt.nextDeliver + 127 < e ∨ (d.slot e).isSome = true) → ∃ t,
      exec (.epochOpen dt e) s = .next t ∧ moves s dt [] (fun _ => False) t)
  ∧ (∀ (s : State) (dt e corrected : Nat) (d d0 : Dev), d = later s.dev dt → d0 = (d.count Reg.CRT_ECC_CORR corrected).count64
      Reg.SAF_CORRECTED_LO corrected → (e = d.crt.nextSeal ∧ d.craterRuns = true ∧ d.deadline e ≤ d.g16 ∧ e ≤ d.crt.nextDeliver + 127) →
      d.ing.streams.all (fun x => x.2.awaiting.isNone && x.2.entry.pend.all (fun p => p.2.isSome)) = true → ∃ t info, exec (.localSeal dt
      corrected [] []) s = .next t ∧ moves s dt [.regs, .ing, .crt, .fab] (fun o => o ∈ [Reg.CRT_STATUS, Reg.CRT_ECC_CORR,
      Reg.SAF_CORRECTED_LO, Reg.SAF_CORRECTED_HI, Reg.CRT_SEALED_LO, Reg.CRT_SEALED_HI, Reg.CRT_EARLY_LO, Reg.CRT_EARLY_HI,
      Reg.CRT_FILLED_LO, Reg.CRT_FILLED_HI]) t ∧ t.dev.crt =
      { d.crt with nextSeal := e + 1, recent := t.dev.crt.recent, slots := t.dev.crt.slots } ∧ (t.dev.slot e).bind (fun x => x.sealed) =
      some info ∧ t.dev.crt.recent.find e = some info ∧ (∀ e', e' ≠ e → t.dev.slot e' = d.slot e') ∧ info.at_ = d.g16 ∧ info.early = false
      ∧ info.suspect = d.timeSuspect ∧ info.index = (d0.dueStreams e).map (fun x => (x.1, d0.sealRec e x.1 x.2)) ∧ (∀ i ent r, (i, ent) ∈
      d.dueStreams e → d.committed e i = some r → d.timeSuspect = false → (i, { r.record with origin := 0 }) ∈ info.index) ∧ (∀ p ∈
      d.partners e, (d.pair e p).have_ = none → ∃ h ∈ t.dev.fab.held, h.dst = p ∧ ∃ l, h.msg = .pairHave e l) ∧ t.dev.reg64
      Reg.CRT_SEALED_LO = (d.reg64 Reg.CRT_SEALED_LO + 1) % 2 ^ 64 ∧ t.dev.reg64 Reg.CRT_EARLY_LO = d.reg64 Reg.CRT_EARLY_LO ∧ t.dev.regN
      Reg.CRT_ECC_CORR = (d.regN Reg.CRT_ECC_CORR + corrected) % 2 ^ 32)
  ∧ (∀ (s : State) (dt corrected : Nat) (dbe crcBad : List Nat) (d : Dev), d = later s.dev dt → (d.craterRuns = false ∨ d.g16 < d.deadline
      d.crt.nextSeal ∨ d.crt.nextDeliver + 127 < d.crt.nextSeal) → ∃ t, exec (.localSeal dt corrected dbe crcBad) s = .next t ∧ moves s dt
      [] (fun _ => False) t)
  ∧ (∀ (s : State) (dt e corrected : Nat) (d : Dev), d = later s.dev dt → (e = d.crt.nextSeal ∧ d.craterRuns = true ∧ d.bit
      Fld.CRT_CFG_EARLY_SEAL = true ∧ e ≤ d.crt.nextDeliver + 127 ∧ epochTime d.rate e ≤ d.g16 ∧ (d.dueStreams e).all (fun x => decide
      (x.2.type = 4) || (d.committed e x.1).isSome) = true) → d.ing.streams.all (fun x => x.2.awaiting.isNone && x.2.entry.pend.all (fun p
      => p.2.isSome)) = true → ∃ t info, exec (.earlySeal ⟨dt, corrected, [], []⟩) s = .next t ∧ moves s dt [.regs, .ing, .crt, .fab] (fun o =>
      o ∈ [Reg.CRT_STATUS, Reg.CRT_ECC_CORR, Reg.SAF_CORRECTED_LO, Reg.SAF_CORRECTED_HI, Reg.CRT_SEALED_LO, Reg.CRT_SEALED_HI,
      Reg.CRT_EARLY_LO, Reg.CRT_EARLY_HI, Reg.CRT_FILLED_LO, Reg.CRT_FILLED_HI]) t ∧ t.dev.crt =
      { d.crt with nextSeal := e + 1, recent := t.dev.crt.recent, slots := t.dev.crt.slots } ∧ (t.dev.slot e).bind (fun x => x.sealed) =
      some info ∧ (∀ e', e' ≠ e → t.dev.slot e' = d.slot e') ∧ info.at_ = d.g16 ∧ info.early = true ∧ (∀ i ent r, (i, ent) ∈ d.dueStreams
      e → d.committed e i = some r → d.timeSuspect = false → (i, { r.record with origin := 0 }) ∈ info.index) ∧ t.dev.reg64
      Reg.CRT_SEALED_LO = (d.reg64 Reg.CRT_SEALED_LO + 1) % 2 ^ 64 ∧ t.dev.reg64 Reg.CRT_EARLY_LO = (d.reg64 Reg.CRT_EARLY_LO + 1) % 2 ^
      64 ∧ t.dev.regN Reg.CRT_ECC_CORR = (d.regN Reg.CRT_ECC_CORR + corrected) % 2 ^ 32)
  ∧ (∀ (s : State) (dt corrected : Nat) (dbe crcBad : List Nat) (d : Dev), d = later s.dev dt → (d.craterRuns = false ∨ d.crt.nextDeliver
      + 127 < d.crt.nextSeal ∨ d.bit Fld.CRT_CFG_EARLY_SEAL = false ∨ d.g16 < epochTime d.rate d.crt.nextSeal ∨ (d.dueStreams
      d.crt.nextSeal).any (fun x => decide (x.2.type ≠ 4) && (d.committed d.crt.nextSeal x.1).isNone) = true) → ∃ t, exec (.earlySeal ⟨dt,
      corrected, dbe, crcBad⟩) s = .next t ∧ moves s dt [] (fun _ => False) t)
  ∧ (∀ (s : State) (dt e : Nat) (d : Dev) (x : EpochSlot) (info : SealInfo), d = later s.dev dt → (d.slot e = some x ∧
      x.sealed = some info) → (info.refill ≠ [] ∧ info.reformed = false ∧ e ≤ d.crt.nextConf) → ∃ t pub,
      exec (.fillReform dt e) s = .next t ∧ moves s dt [.crt] (fun _ => False) t ∧
      t.dev.crt = { d.crt with slots := t.dev.crt.slots } ∧ (∀ e', e' ≠ e → t.dev.slot e' = d.slot e') ∧
      t.dev.slot e = some { x with sealed := some { info with published := pub, reformed := true } } ∧
      (∀ i, i ∉ info.refill → pub.find i = info.index.find i) ∧
      (∀ i ent r, i ∈ info.refill → info.index.find i = some r → d.entryAt i e = some ent → (d.hist i).lost = true →
      (pub.find i).map (fun y => y.body) = some .empty))
  ∧ (∀ (s : State) (dt e : Nat) (d : Dev), d = later s.dev dt → (d.slot e).bind (fun x => x.sealed) = none → ∃ t,
      exec (.fillReform dt e) s = .next t ∧ moves s dt [] (fun _ => False) t)
  ∧ (∀ (s : State) (dt e : Nat) (d : Dev) (x : EpochSlot) (info : SealInfo), d = later s.dev dt → (e = d.crt.nextConf ∧ d.slot e = some x
      ∧ x.sealed = some info ∧ x.late = [] ∧ x.published = false ∧ info.refill = []) → (d.fab.views = [] ∧ d.fab.histFeeds = [] ∧
      d.crt.manifests.getD e [] = [] ∧ d.fab.fwdDone.find 0 = none) → (d.craterRuns = true ∧ e < d.crt.nextSeal) → ∃ t c, exec (.confirm
      dt) s = .next t ∧ moves s dt [.regs, .hif, .ing, .crt, .osc, .isl, .fum, .fab, .snt, .net] (fun o => eventReg o ∨ o ∈
      [Reg.CRT_STATUS, Reg.ING_BUF_ALLOC, Reg.CRT_LAST_CONF_LO, Reg.CRT_LAST_CONF_HI, Reg.CRT_DISAGREE, Reg.FAB_OWN_ERR,
      Reg.CRT_CONF_SLOW]) t ∧ t.dev.crt.nextConf = e + 1 ∧ t.dev.crt.nextSeal = d.crt.nextSeal ∧ t.dev.crt.nextDeliver = d.crt.nextDeliver
      ∧ (t.dev.slot e).bind (fun y => y.conf) = some c ∧ (t.dev.slot e).bind (fun y => y.sealed) = some info ∧ (∀ e', e' ≠ e → t.dev.slot
      e' = d.slot e') ∧ c.at_ = d.g16 ∧ c.view = 0 ∧ c.members = 2 ^ d.deviceNo ∧ c.solo = true ∧ c.split = false ∧ c.sums = info.sums ∧
      t.dev.reg64 Reg.CRT_LAST_CONF_LO = e % 2 ^ 64)
  ∧ (∀ (s : State) (dt e : Nat) (d : Dev), d = later s.dev dt → (e = d.crt.nextConf ∧ 2 ≤ popCount 64 (d.viewAt e).members ∧ d.canConfirm
      = true) → (d.fab.histFeeds = [] ∧ (d.slotD e).late = []) → ∃ t c, exec (.confirm dt) s = .next t ∧ moves s dt [.regs, .hif, .ing,
      .crt, .osc, .isl, .fum, .fab, .snt, .net] (fun o => eventReg o ∨ o ∈ [Reg.CRT_STATUS, Reg.ING_BUF_ALLOC, Reg.CRT_LAST_CONF_LO,
      Reg.CRT_LAST_CONF_HI, Reg.CRT_DISAGREE, Reg.FAB_OWN_ERR, Reg.CRT_CONF_SLOW]) t ∧ t.dev.crt.nextConf = e + 1 ∧ t.dev.crt.nextSeal =
      d.crt.nextSeal ∧ t.dev.crt.nextDeliver = d.crt.nextDeliver ∧ (t.dev.slot e).bind (fun y => y.conf) = some c ∧ c.at_ = d.g16 ∧ c.view
      = (d.viewAt e).num ∧ c.solo = false ∧ c.split = (d.viewAt e).minority ∧ t.dev.reg64 Reg.CRT_LAST_CONF_LO = e % 2 ^ 64)
  ∧ (∀ (s : State) (dt : Nat) (d : Dev), d = later s.dev dt → (2 ≤ popCount 64 (d.viewAt d.crt.nextConf).members ∧
      d.canConfirm = false) → ∃ t, exec (.confirm dt) s = .next t ∧ moves s dt [] (fun _ => False) t)
  ∧ (∀ (s : State) (dt e : Nat) (d : Dev) (x : EpochSlot), d = later s.dev dt → (d.slot e = some x ∧ x.sealed.isSome = true ∧
      x.conf = none ∧ x.reported = false ∧ d.deadline e + 1000000 * 2 ^ 16 ≤ d.g16) → (d.partners e = [] ∧
      (bitsOf 64 (d.viewAt e).members).all (fun n => decide (n = d.deviceNo) ||
      ((d.crt.manifests.getD e []).find n).isSome) = true) → ∃ t, exec (.confirmTimeout dt e) s = .next t ∧
      moves s dt [.crt] (fun _ => False) t ∧ t.dev.slot e = some { x with reported := true } ∧
      (∀ e', e' ≠ e → t.dev.slot e' = d.slot e') ∧ t.dev.crt = { d.crt with slots := t.dev.crt.slots })
  ∧ (∀ (s : State) (dt e n : Nat) (d : Dev) (x : EpochSlot), d = later s.dev dt → (d.slot e = some x ∧ x.sealed.isSome = true ∧
      x.conf = none ∧ x.reported = false ∧ d.deadline e + 1000000 * 2 ^ 16 ≤ d.g16) → (d.partners e = [] ∧ n ≠ d.deviceNo ∧
      (bitsOf 64 (d.viewAt e).members).filter (fun m => ((d.crt.manifests.getD e []).find m).isNone) = [n] ∧
      d.others.testBit n = true ∧ d.fab.change = none) → ∃ t, exec (.confirmTimeout dt e) s = .next t ∧ moves s dt [.regs, .hif, .crt,
      .fum, .tim, .fab, .snt] (fun o => eventReg o ∨ o / 0x1000 ∈ [0x120] ∨ o ∈ [Reg.CRT_VIEW, Reg.CRT_VIEW_CHG, Reg.CRT_STATUS,
      Reg.TIM_STATUS, Reg.ISL_STATUS, Reg.FUM_RING_LOST]) t ∧ t.dev.slot e = some { x with reported := true } ∧
      t.dev.regN Reg.FAB_SUSPECTS = (d.regN Reg.FAB_SUSPECTS + 1) % 2 ^ 32)
  ∧ (∀ (s : State) (dt e : Nat) (d : Dev), d = later s.dev dt → (d.slot e = none ∨ d.g16 < d.deadline e + 1000000 * 2 ^ 16) → ∃ t,
      exec (.confirmTimeout dt e) s = .next t ∧ moves s dt [] (fun _ => False) t)
  ∧ (∀ (s : State) (dt i e rx : Nat) (r : Rec) (d : Dev), d = later s.dev dt → (d.sealedHere e = true ∧ (d.entryAt i e).isSome = true ∧
      d.crt.nextConf ≤ e) → ∃ t, exec (.lateRecord dt i e r rx) s = .next t ∧ moves s dt [.crt] (fun _ => False) t ∧ t.dev.crt =
      { d.crt with slots := t.dev.crt.slots } ∧ (∀ e', e' ≠ e → t.dev.slot e' = d.slot e') ∧
      t.dev.slot e = some { d.slotD e with
        late := joinLate (d.slotD e).late { stream := i, record := { r with stream := i, origin := 0 }, rx := rx, commitAt := d.g16 } })
  ∧ (∀ (s : State) (dt i e rx : Nat) (r : Rec) (d : Dev), d = later s.dev dt → (d.sealedHere e = true ∧
      (d.entryAt i e).isSome = true ∧ e < d.crt.nextConf ∧ d.confirmedRec i e = none) → ∃ t,
      exec (.lateRecord dt i e r rx) s = .next t ∧ moves s dt [.regs] (fun o => o ∈ [Reg.CRT_TOO_OLD]) t ∧
      t.dev.regN Reg.CRT_TOO_OLD = (d.regN Reg.CRT_TOO_OLD + 1) % 2 ^ 32)
  ∧ (∀ (s : State) (dt i e rx sealAt : Nat) (r old : Rec) (ent : StreamEntry) (a : Amendment) (d : Dev), d = later s.dev dt →
      (d.sealedHere e = true ∧ d.entryAt i e = some ent ∧ e < d.crt.nextConf ∧ d.confirmedRec i e = some (old, sealAt)) → (d.hasAmend i e
      = false ∧ old.qual.testBit 0 = false ∧ d.crt.nextSeal ≤ d.fld Fld.CRT_AMEND_HORIZON + e + 1 ∧ (ent.partner d.deviceNo = d.deviceNo ∨
      d.view.members.testBit (ent.partner d.deviceNo) = false)) → a =
      { src := 0, shortEpoch := e % 2 ^ 32, primary := d.primaryAt e ent, origQual := old.qual ||| 4, arrival := rx, lateness := min (2 ^ 32 - 1) ((d.g16 - sealAt) / 2 ^ 16 / 1000), record := { r with stream := i, origin := 0 } }
      → (amendBytes (d.crt.amends ++ [(e, a)]) ≤ d.fld Fld.CRT_HIST_AMEND_SIZE * 1048576 ∧ d.ringOf
      5 = none ∧ d.hif.amendQ.length ≤ d.crt.amends.length) → ∃ t, exec (.lateRecord dt i e r rx) s = .next t ∧ moves s dt [.regs, .hif,
      .crt] (fun o => o ∈ [Reg.CRT_AMENDS_LO, Reg.CRT_AMENDS_HI]) t ∧ t.dev.crt = { d.crt with amends := d.crt.amends ++ [(e, a)] } ∧
      t.dev.hif.amendQ = d.hif.amendQ ++ [⟨a.bytes false, true⟩] ∧ t.dev.reg64 Reg.CRT_AMENDS_LO = (d.reg64 Reg.CRT_AMENDS_LO + 1) % 2 ^
      64)
  ∧ (∀ (s : State) (dt i e rx : Nat) (r : Rec) (d : Dev), d = later s.dev dt → (d.sealedHere e = false ∨
      d.entryAt i e = none) → ∃ t, exec (.lateRecord dt i e r rx) s = .next t ∧ moves s dt [] (fun _ => False) t)
  ∧ (∀ (s : State) (dt e : Nat) (d : Dev) (x : EpochSlot) (info : SealInfo) (c : ConfInfo) (h : HistSnap), d = later s.dev dt →
      (e = d.crt.nextDeliver ∧ d.slot e = some x ∧ x.sealed = some info ∧ x.conf = some c) →
      h = { epoch := e, bytes := d.snapshot e info c, sealAt := info.at_, recs := c.recs } →
      (snapsBytes (d.crt.snaps ++ [h]) ≤ d.fld Fld.CRT_HIST_SIZE * 1048576 ∧ d.ringOf 4 = none) → ∃ t,
      exec (.snapshotDeliver dt []) s = .next t ∧ moves s dt [.regs, .crt, .cyc] (fun o => o ∈ [Reg.CRT_STATUS]) t ∧
      t.dev.crt.nextDeliver = e + 1 ∧ t.dev.slot e = none ∧ (∀ e', e' ≠ e → t.dev.slot e' = d.slot e') ∧
      t.dev.crt.snaps = d.crt.snaps ++ [h] ∧ t.dev.crt.waiting = d.crt.waiting ++ [e] ∧ t.dev.cyc.snap = some e ∧
      t.dev.crt.nextSeal = d.crt.nextSeal ∧ t.dev.crt.nextConf = d.crt.nextConf ∧ t.dev.craterRuns = d.craterRuns)
  ∧ (∀ (s : State) (dt e : Nat) (bad : List Nat) (d : Dev) (x : EpochSlot), d = later s.dev dt → (e = d.crt.nextDeliver ∧
      d.slot e = some x ∧ x.sealed.isSome = true ∧ x.conf.isSome = true) → ∃ t, exec (.snapshotDeliver dt bad) s = .next t ∧
      t.key = s.key ∧ t.pending = s.pending ∧ t.dev.crt.nextDeliver = e + 1 ∧ t.dev.slot e = none ∧
      t.dev.crt.nextConf = d.crt.nextConf ∧ t.dev.crt.nextSeal = d.crt.nextSeal)
  ∧ (∀ (s : State) (dt : Nat) (bad : List Nat) (d : Dev), d = later s.dev dt →
      (d.slot d.crt.nextDeliver).bind (fun x => x.conf) = none → ∃ t, exec (.snapshotDeliver dt bad) s = .next t ∧
      moves s dt [] (fun _ => False) t)
  ∧ (∀ (s : State) (dt e n : Nat) (d : Dev) (b : BufDesc) (h : HistSnap), d = later s.dev dt → (d.ringOf 4 = some n ∧ d.hostReady = true ∧
      d.crt.carry = [] ∧ d.crt.waiting = [e] ∧ d.crt.snaps.find? (fun x => decide (x.epoch = e)) = some h) → (d.hif.snapPart = none ∧
      d.hif.stages = [] ∧ (d.ring n).bufs = [b] ∧ b.ok = true ∧ 0 < h.bytes.length ∧ h.bytes.length ≤ b.len) → ∃ t flags ph, exec
      (.snapshotWholeWrite dt) s = .next t ∧ moves s dt [.regs, .hif, .crt] (fun o => signalReg o ∨ o ∈ [Reg.HIF_SNAP_WHOLE]) t ∧
      Out.hostWrite b.addr h.bytes ∈ t.dev.out ∧ Out.bufDone n (d.ring n).next h.bytes.length (e % 2 ^ 32) 0 sOk flags ph ∈ t.dev.out ∧
      t.dev.crt = { d.crt with waiting := [] } ∧ (t.dev.ring n).bufs = [] ∧ t.dev.regN Reg.HIF_SNAP_WHOLE = (d.regN Reg.HIF_SNAP_WHOLE +
      1) % 2 ^ 32)
  ∧ (∀ (s : State) (dt : Nat) (d : Dev), d = later s.dev dt → (d.ringOf 4 = none ∨ d.hostReady = false ∨ (d.crt.carry = [] ∧ d.crt.waiting
      = [] ∧ d.hif.snapPart = none ∧ (d.ringOf 4).all (fun n => (d.ring n).bufs.isEmpty) = true)) → ∃ t, exec (.snapshotWholeWrite dt) s =
      .next t ∧ moves s dt [] (fun _ => False) t)

/-- The pair exchange, seal manifests, amendments and mirrored records of the fabric act on Crater. A device that does not seal an epoch
answers that it holds no record (log 43). LAST_PORT and LAST_RX of a mirrored record are free values (log 138). Rests on R38, R116, R117,
R118, R121, R133, R423, R437; the statement is derived. -/
def Obligations.FabricRecordsTakeEffect : Prop :=
  (∀ (s : State) (dt src seq e : Nat) (l : List Nat) (d d1 : Dev), d = later s.dev dt → (d.receive src 2 seq = (d1, true) ∧
      d1.pairOpen e = true ∧ d1.crt.first ≤ e ∧ d1.crt.nextSeal ≤ e) → ∃ t, exec (.pairHave dt src seq e l) s = .next t ∧
      moves s dt [.crt, .fab] (fun _ => False) t ∧ t.dev.fab = d1.fab ∧ t.dev.crt = { d.crt with slots := t.dev.crt.slots } ∧
      t.dev.pair e src = { d.pair e src with have_ := some l } ∧ (∀ e', e' ≠ e → t.dev.slot e' = d.slot e'))
  ∧ (∀ (s : State) (dt src seq e : Nat) (l : List Nat) (d d1 : Dev) (info : SealInfo), d = later s.dev dt →
      (d.receive src 2 seq = (d1, true) ∧ d1.inRun e = true ∧ e < d1.crt.nextSeal ∧ d1.sealOf e = some info) → ∃ t,
      exec (.pairHave dt src seq e l) s = .next t ∧ moves s dt [.crt, .fab] (fun _ => False) t ∧
      (∀ i r, i ∈ d1.haveFor e src info → l.contains i = false → info.index.find i = some r → ∃ h ∈ t.dev.fab.held,
      h.dst = src ∧ h.msg = .pairRec e r) ∧ ∃ h ∈ t.dev.fab.held, h.dst = src ∧ h.msg =
      .pairDone e (((d1.haveFor e src info).filter (fun i => !l.contains i)).filterMap (fun i => info.index.find i)).length)
  ∧ (∀ (s : State) (dt src seq e : Nat) (l : List Nat) (d d1 : Dev), d = later s.dev dt → (d.receive src 2 seq = (d1, true) ∧
      d1.inRun e = false) → ∃ t, exec (.pairHave dt src seq e l) s = .next t ∧ moves s dt [.fab] (fun _ => False) t ∧
      ∃ h ∈ t.dev.fab.held, h.dst = src ∧ h.msg = .pairDone e 0)
  ∧ (∀ (s : State) (dt src seq e : Nat) (r : Rec) (d d1 : Dev), d = later s.dev dt → (d.receive src 2 seq = (d1, true) ∧
      d1.pairOpen e = true ∧ (d1.pair e src).announced = none) → ∃ t, exec (.pairRec dt src seq e r) s = .next t ∧
      moves s dt [.crt, .fab] (fun _ => False) t ∧ t.dev.fab = d1.fab ∧ t.dev.crt = { d.crt with slots := t.dev.crt.slots } ∧
      t.dev.pair e src = { d.pair e src with recs := (d.pair e src).recs.put r.stream r })
  ∧ (∀ (s : State) (dt src seq e n : Nat) (r : Rec) (d d1 : Dev), d = later s.dev dt → (d.receive src 2 seq = (d1, true) ∧
      d1.pairOpen e = true ∧ (d1.pair e src).announced = some n ∧ n ≤ ((d1.pair e src).recs.put r.stream r).length ∧
      (d1.pair e src).ackSent = false) → ∃ t, exec (.pairRec dt src seq e r) s = .next t ∧
      moves s dt [.crt, .fab] (fun _ => False) t ∧
      t.dev.pair e src = { d.pair e src with recs := (d.pair e src).recs.put r.stream r, ackSent := true } ∧
      ∃ h ∈ t.dev.fab.held, h.dst = src ∧ h.msg = .pairAck e ((d1.pair e src).recs.put r.stream r).length)
  ∧ (∀ (s : State) (dt src seq e n : Nat) (d d1 : Dev), d = later s.dev dt → (d.receive src 2 seq = (d1, true) ∧
      d1.pairOpen e = true ∧ (d1.pair e src).recs.length < n) → ∃ t, exec (.pairDone dt src seq e n) s = .next t ∧
      moves s dt [.crt, .fab] (fun _ => False) t ∧ t.dev.fab = d1.fab ∧
      t.dev.pair e src = { d.pair e src with announced := some n })
  ∧ (∀ (s : State) (dt src seq e n : Nat) (d d1 : Dev), d = later s.dev dt → (d.receive src 2 seq = (d1, true) ∧
      d1.pairOpen e = true ∧ n ≤ (d1.pair e src).recs.length ∧ (d1.pair e src).ackSent = false) → ∃ t,
      exec (.pairDone dt src seq e n) s = .next t ∧ moves s dt [.crt, .fab] (fun _ => False) t ∧
      t.dev.pair e src = { d.pair e src with announced := some n, ackSent := true } ∧
      ∃ h ∈ t.dev.fab.held, h.dst = src ∧ h.msg = .pairAck e (d1.pair e src).recs.length)
  ∧ (∀ (s : State) (dt src seq e n : Nat) (d d1 : Dev), d = later s.dev dt → (d.receive src 2 seq = (d1, true) ∧
      d1.pairOpen e = false) → ∃ t, exec (.pairDone dt src seq e n) s = .next t ∧ moves s dt [.fab] (fun _ => False) t ∧
      ∃ h ∈ t.dev.fab.held, h.dst = src ∧ h.msg = .pairAck e 0)
  ∧ (∀ (s : State) (dt src seq e n : Nat) (d d1 : Dev), d = later s.dev dt → (d.receive src 2 seq = (d1, true) ∧
      d1.pairOpen e = true) → ∃ t, exec (.pairAck dt src seq e n) s = .next t ∧ moves s dt [.crt, .fab] (fun _ => False) t ∧
      t.dev.fab = d1.fab ∧ t.dev.pair e src = { d.pair e src with acked := true })
  ∧ (∀ (s : State) (dt src seq e n : Nat) (r : Rec) (d d1 : Dev), d = later s.dev dt → (d.receive src 2 seq = (d1, true) ∧
      d1.pairOpen e = false) → (∃ t, exec (.pairAck dt src seq e n) s = .next t ∧ moves s dt [.fab] (fun _ => False) t) ∧ ∃ t,
      exec (.pairRec dt src seq e r) s = .next t ∧ moves s dt [.fab] (fun _ => False) t)
  ∧ (∀ (s : State) (dt e : Nat) (d : Dev) (x : EpochSlot) (info : SealInfo), d = later s.dev dt → (d.slot e = some x ∧
      x.sealed = some info ∧ x.published = false) → (d.pairsDone e = true ∧ (info.refill = [] ∨ info.reformed = true)) → ∃ t,
      exec (.manifestPublish dt e) s = .next t ∧ moves s dt [.crt, .fab] (fun _ => False) t ∧
      t.dev.slot e = some { x with published := true } ∧ (∀ e', e' ≠ e → t.dev.slot e' = d.slot e') ∧
      ((t.dev.crt.manifests.getD e []).find d.deviceNo).isSome = true ∧ ∀ n, n < 64 → n ≠ d.deviceNo →
      (d.viewAt e).members.testBit n = true → ∃ h ∈ t.dev.fab.held, h.dst = n ∧ h.msg = .manifest (d.manifestOf e info))
  ∧ (∀ (s : State) (dt e : Nat) (d : Dev), d = later s.dev dt → d.canPublish e = false → ∃ t,
      exec (.manifestPublish dt e) s = .next t ∧ moves s dt [] (fun _ => False) t)
  ∧ (∀ (s : State) (dt src seq : Nat) (m : Manifest) (d d1 : Dev), d = later s.dev dt → (d.receive src 2 seq = (d1, true) ∧
      d1.takesManifest m = true ∧ ((d1.crt.manifests.getD m.epoch []).find m.device) = none) → (d1.joined = false ∨ (d1.craterRuns = true
      ∧ d1.crt.first ≤ m.epoch)) → ∃ t, exec (.sealManifest dt src seq m) s = .next t ∧ moves s dt [.crt, .fab] (fun _ => False) t ∧
      t.dev.crt = { d.crt with manifests := t.dev.crt.manifests } ∧ (t.dev.crt.manifests.getD m.epoch []).find m.device = some m ∧ ∀ e',
      e' ≠ m.epoch → t.dev.crt.manifests.find e' = d.crt.manifests.find e')
  ∧ (∀ (s : State) (dt src seq : Nat) (m : Manifest) (d d1 : Dev), d = later s.dev dt → (d.receive src 2 seq = (d1, true) ∧
      ((d1.crt.manifests.getD m.epoch []).find m.device).isSome = true) → (d1.joined = false ∨ (d1.craterRuns = true ∧
      d1.crt.first ≤ m.epoch)) → ∃ t, exec (.sealManifest dt src seq m) s = .next t ∧ moves s dt [.fab] (fun _ => False) t)
  ∧ (∀ (s : State) (dt src seq : Nat) (m : Manifest) (d d1 : Dev), d = later s.dev dt → (d.receive src 2 seq = (d1, true) ∧
      d1.takesManifest m = true ∧ m.device ≠ d1.deviceNo) → (d1.joined = true ∧ d1.craterRuns = false ∧ d1.fab.joinEpoch ≤ m.epoch ∧
      d1.fab.emptyUpTo = none) → ∃ t, exec (.sealManifest dt src seq m) s = .next t ∧ moves s dt [.crt, .fab] (fun _ => False) t ∧
      t.dev.fab.emptyUpTo = some m.epoch ∧ ((t.dev.crt.manifests.getD m.epoch []).find d.deviceNo).isSome = true)
  ∧ (∀ (s : State) (dt src seq : Nat) (m : Manifest) (d d1 : Dev), d = later s.dev dt → (d.receive src 2 seq = (d1, true) ∧ m.forwarded =
      false ∧ d1.fab.joining = none ∧ d1.view.members.testBit m.device = false ∧ m.view ≤ d1.view.num) → ∃ t, exec (.sealManifest dt src
      seq m) s = .next t ∧ moves s dt [.fab] (fun _ => False) t ∧ t.dev.fab = d1.fab)
  ∧ (∀ (s : State) (dt src seq e : Nat) (a : Amendment) (d d1 : Dev), d = later s.dev dt → (d.receive src 2 seq = (d1, true) ∧ e =
      epochOfShort d1.crt.nextSeal a.shortEpoch ∧ d1.hasAmend a.record.stream e = false) → (amendBytes (d1.crt.amends ++ [(e,
      { a with src := 1 })]) ≤ d1.fld Fld.CRT_HIST_AMEND_SIZE * 1048576 ∧ d1.ringOf 5 = none ∧ d1.hif.amendQ.length ≤
      d1.crt.amends.length) → ∃ t, exec (.amendFwd dt src seq a) s = .next t ∧ moves s dt [.hif, .crt, .fab] (fun _ => False) t ∧
      t.dev.fab = d1.fab ∧ t.dev.crt = { d.crt with amends := d.crt.amends ++ [(e, { a with src := 1 })] })
  ∧ (∀ (s : State) (dt src seq : Nat) (a : Amendment) (d d1 : Dev), d = later s.dev dt → (d.receive src 2 seq = (d1, true) ∧
      d1.hasAmend a.record.stream (epochOfShort d1.crt.nextSeal a.shortEpoch) = true) → ∃ t,
      exec (.amendFwd dt src seq a) s = .next t ∧ moves s dt [.fab] (fun _ => False) t)
  ∧ (∀ (s : State) (dt src seq e : Nat) (r : Rec) (d d1 : Dev) (ent : StreamEntry), d = later s.dev dt → (d.receive src 2 seq = (d1, true)
      ∧ d1.entryAt r.stream e = some ent ∧ ent.type = 5 ∧ ent.primary ≠ d1.deviceNo) → (nearestEpoch d1.rate (epochTime d1.rate e) = e ∧
      alignedTo d1.rate (d1.fld Fld.CRT_ALIGN_TOL) e (epochTime d1.rate e) = true) → (d1.craterRuns = true ∧ d1.crt.first ≤ e ∧
      d1.crt.nextSeal ≤ e ∧ e ≤ d1.crt.nextDeliver + 127 ∧ d1.stored e r.stream = none) → ∃ t, exec (.mirrorRec dt src seq e r) s = .next
      t ∧ moves s dt [.regs, .hif, .ing, .crt, .fab] (fun o => o ∈ [Reg.CRT_STATUS]) t ∧ t.dev.stored e r.stream = some
      ⟨{ r with tOff := 0, origin := 0 }, d1.draw.1 / 256, d1.draw.1 % 256⟩ ∧ (∀ e' j, (e' ≠ e ∨ j ≠ r.stream) → t.dev.stored e' j =
      d.stored e' j) ∧ t.dev.crt = { d.crt with slots := t.dev.crt.slots })
  ∧ (∀ (s : State) (dt src seq e : Nat) (r : Rec) (d d1 : Dev), d = later s.dev dt → (d.receive src 2 seq = (d1, true) ∧
      (d1.entryAt r.stream e).all (fun x => decide (x.type ≠ 5 ∨ x.primary = d1.deviceNo)) = true) → ∃ t,
      exec (.mirrorRec dt src seq e r) s = .next t ∧ moves s dt [.fab] (fun _ => False) t)

/-- HIST_READ and AMEND_READ complete with the status, the RESULT and the block of their rules. A record of AMEND_READ is written whole,
since R140 names no length (log 39). Rests on R136, R137, R140; the statement is derived. -/
def Obligations.HistoryCommandsComplete : Prop :=
  (∀ (s : State) (c : Ctx) (e : Nat) (buf : HostBuf) (d : Dev) (x : HistSnap), ready s.dev c.ring false none → d = fetched s.dev c.ring →
      (d.crt.snaps.find? (fun y => decide (y.epoch = e)) = some x ∧ x.bytes.length ≤ buf.len) → exec (.histRead c e buf) s = .next (served
      s c (d.emit (.hostWrite buf.addr x.bytes)) (.done sOk (d.crt.amends.filter (fun a => decide (a.1 = e))).length)))
  ∧ (∀ (s : State) (c : Ctx) (e : Nat) (buf : HostBuf) (d : Dev) (x : HistSnap), ready s.dev c.ring false none →
      d = fetched s.dev c.ring → (d.crt.snaps.find? (fun y => decide (y.epoch = e)) = some x ∧ buf.len < x.bytes.length) →
      exec (.histRead c e buf) s = .next (served s c d (.done sRange 0)))
  ∧ (∀ (s : State) (c : Ctx) (e lo hi : Nat) (buf : HostBuf) (d : Dev), ready s.dev c.ring false none → d = fetched s.dev c.ring →
      (d.crt.snaps.find? (fun y => decide (y.epoch = e)) = none ∧ (lo, hi) ∈ d.crt.overRuns ∧ lo ≤ e ∧ e ≤ hi) → exec (.histRead c e buf)
      s = .next (served s c d (.done sLost 0)))
  ∧ (∀ (s : State) (c : Ctx) (e : Nat) (buf : HostBuf) (d : Dev), ready s.dev c.ring false none → d = fetched s.dev c.ring →
      (d.crt.snaps.find? (fun y => decide (y.epoch = e)) = none ∧ d.crt.overRuns.all (fun o => decide (e < o.1 ∨ o.2 < e)) = true) → exec
      (.histRead c e buf) s = .next (served s c d (.done sNotValid 0)))
  ∧ (∀ (s : State) (c : Ctx) (i e addr : Nat) (d : Dev) (a : Amendment), ready s.dev c.ring false none → d = fetched s.dev c.ring → (i <
      8192 ∧ d.crt.amends.find? (fun y => decide (y.2.record.stream = i) && decide (y.1 = e)) = some (e, a)) → exec (.amendRead c i e
      addr) s = .next (served s c d (.block (a.bytes false) (some addr))))
  ∧ (∀ (s : State) (c : Ctx) (i e addr : Nat) (d : Dev), ready s.dev c.ring false none → d = fetched s.dev c.ring → (i < 8192 ∧
      d.crt.amends.find? (fun y => decide (y.2.record.stream = i) && decide (y.1 = e)) = none) → exec (.amendRead c i e addr) s = .next
      (served s c d (.done (if d.crt.amendLost.contains (i, e) then sLost else sNotValid) 0)))
  ∧ (∀ (s : State) (c : Ctx) (i e addr : Nat) (d : Dev), ready s.dev c.ring false none → d = fetched s.dev c.ring → 8192 ≤ i →
      exec (.amendRead c i e addr) s = .next (served s c d (.done sRange 0)))

/-- A step takes the command at the front of the queue and executes it with the queue's rest; on an empty queue the device idles. Both
are the model's form of a block without a program (log 1); the statement is derived. -/
def Obligations.StepRunsTheFrontCommand : Prop :=
  (∀ (s : State) (c : Instr) (rest : List Instr), s.pending = c :: rest → step s = exec c { s with pending := rest })
  ∧ (∀ s : State, s.pending = [] → step s = .next s)

/-- No command adds to the queue or takes from it, so a step leaves the queue's rest. The queue is the model's own (log 1); the statement
is derived. -/
def Obligations.CommandsKeepTheQueue : Prop :=
  (∀ (s t : State) (c : Instr), exec c s = .next t → t.pending = s.pending)
  ∧ (∀ (s t : State) (c : Instr) (rest : List Instr), s.pending = c :: rest → step s = .next t → t.pending = rest)

/-- No command is refused, and a command stops the machine in one case: a warm reset that applies clock ratios which R536 leaves
undefined. Such a reset can follow RST_REQUEST alone. The stop is the model's form of that (log 5). Rests on R536, R541, R542; the
statement is derived. -/
def Obligations.OnlyWarmResetsStop : Prop :=
  (∀ (s : State) (c : Instr) (r : Refusal), exec c s ≠ .refused r)
  ∧ (∀ (s : State) (c : Instr) (f : Fault), exec c s = .fault f → f = .clockRatio ∧ canWarmReset c = true)
  ∧ (∀ (s : State) (c : Instr), canWarmReset c = false → ∃ t, exec c s = .next t)

/-- A command of a ring that offers no descriptor is not accepted: nothing changes but that the last command's outputs go (log 19).
Rests on R459; the statement is derived. -/
def Obligations.IdleRingChangesNothing : Prop :=
  ∀ (s : State) (i : Instr) (c : Ctx), ctxOf i = some c → (later s.dev 0).offers c.ring = false → s.dev.clk.ratioBroken = false →
    exec i s = .next { s with dev := later s.dev 0 }

/-- The state after power-on reset: the registers the spec names for identification, no command in the queue, a sound key store, no ring
enabled, and nothing that waits, runs or is gated. Memory that keeps its content without power is that of a new part, which is the model's
choice (log 6). Rests on R2, R452, R475, R497, R541, R560; the statement is derived. -/
def Obligations.ResetLeavesASafeState : Prop :=
  safe State.reset ∧ State.reset.pending = [] ∧ State.reset.dev.reg Reg.GLB_ID = 0x084001B0
  ∧ State.reset.dev.bit Fld.HIF_STATUS_CMD_READY = false ∧ State.reset.dev.bit Fld.ING_CTRL_EN = false
  ∧ State.reset.dev.craterRuns = false ∧ State.reset.dev.fld Fld.FAB_CTRL_LINK_EN = 0 ∧ State.reset.key.started = false
  ∧ (∀ n, n < 32 → State.reset.dev.bit (Fld.HIF_RINGn_CFG_EN n) = false) ∧ (∀ b, b < 15 → State.reset.dev.gated b = false)
  ∧ State.reset.dev.hif.waiting = [] ∧ State.reset.dev.crt.slots = [] ∧ State.reset.dev.saf.queue = []

/-- Every step keeps the key store sound: its directory is in canonical form and holds keys of VALID slots only, a RETURNED device holds
no key, no root secret and no helper data, and a committed journal record never lowers the counter. Rests on R482, R484, R489, R490, R491,
R492, R497; the statement is derived. -/
def Obligations.KeyStoreStaysSound : Prop :=
  ∀ s t : State, keySound s.key → step s = .next t → keySound t.key

/-- Over a step from a sound key store the counter never falls, RETURNED is permanent and holds nothing, and no state leads back to BLANK.
Rests on R488, R490, R491, R492; the statement is derived. -/
def Obligations.LifeCycleNeverGoesBack : Prop :=
  (∀ s t : State, keySound s.key → step s = .next t → s.key.counter ≤ t.key.counter ∧ (s.key.lc = .returned → t.key.lc = .returned ∧
      t.key.slots = [] ∧ t.key.cells = [] ∧ t.key.root = none ∧ t.key.helper = []) ∧ (s.key.lc ≠ .blank → t.key.lc ≠ .blank))

/-- A command that is no update, no start or reset of the key store, no event of its entropy source and no clear of the log leaves the
whole key store as it is. Rests on R484, R488, R490, R497, R508; the statement is derived. -/
def Obligations.OnlyKeyCommandsChangeKeys : Prop :=
  ∀ (s t : State) (c : Instr), changesKeys c = false → exec c s = .next t → t.key = s.key

/-- Values of n bits are compared by signed difference (R9). -/
def Obligations.SignedDifferenceCompares : Prop :=
  ∀ n a b : Nat, 0 < n →
    -(2 : Int) ^ (n - 1) ≤ signedDiff n a b ∧ signedDiff n a b ≤ (2 : Int) ^ (n - 1) - 1
    ∧ (2 : Int) ^ n ∣ signedDiff n a b - ((a : Int) - b)
    ∧ (laterThan n a b = true ↔ 0 < signedDiff n a b)
    ∧ (signedDiff n a b = -(2 : Int) ^ (n - 1) → laterThan n a b = false)
    ∧ (∀ x y : Nat, a = x % 2 ^ n → b = y % 2 ^ n → ((x : Int) - y).natAbs < 2 ^ (n - 1) →
      (laterThan n a b = true ↔ y < x))

/-- A register read that targets a clock-gated block returns 0xFFFF_FF06, with S_GATED in bits 7:0, and does not wait (R20). Which gate a
register has is R538 and R555. -/
def Obligations.GatedReadsAnswerAtOnce : Prop :=
  (∀ (s : State) (off : Nat), off % 4 = 0 → (gateOf off).any (later s.dev 0).gated = true →
    exec (.loReadLatch off 4) s = .next { s with dev := (later s.dev 0).emit (.readData 0xFFFFFF06) })
  ∧ (0xFFFFFF06 : Nat) % 2 ^ 8 = sGated

/-- Reading TIM_NOW_NS latches TIM_NOW_SEC_LO and TIM_NOW_SEC_HI of the same instant, and reads of the two return what is latched, so that
the three registers form one G-time value (R390). -/
def Obligations.TimeReadsLatchTogether : Prop :=
  ∀ (s : State) (d : Dev), d = later s.dev 0 → d.bit Fld.CLK_STATUS_RESCUE = false → ∃ (t : State) (lo hi : Word),
    exec (.loReadLatch Reg.TIM_NOW_NS 4) s = .next t ∧ t.dev.out = [.readData (BitVec.ofNat 64 (d.gNs % 1000000000))]
    ∧ (∀ u : State, u.dev.hif.latches = t.dev.hif.latches → u.dev.bit Fld.CLK_STATUS_RESCUE = false →
      (∃ v, exec (.loReadLatch Reg.TIM_NOW_SEC_LO 4) u = .next v ∧ v.dev.out = [.readData (lo.setWidth 64)]
        ∧ v.dev.hif.latches = t.dev.hif.latches)
      ∧ ∃ v, exec (.loReadLatch Reg.TIM_NOW_SEC_HI 4) u = .next v ∧ v.dev.out = [.readData (hi.setWidth 64)]
        ∧ v.dev.hif.latches = t.dev.hif.latches)
    ∧ lo.toNat + 2 ^ 32 * (hi.toNat % 2 ^ 16) = d.gSec % 2 ^ 48 ∧ hi.toNat / 2 ^ 16 = d.g16 % 2 ^ 16

/-- Every row of the island engine and the alarm path completes with its own effect: the two enables, the evaluation and the decision of the
next sealed epoch, the timers of pins, ALMOK and express frames, and the exchange of votes. The conditions are those of the rules on the
state and the operands alone. Rests on R181, R191, R192, R194, R195, R198, R199, R201, R202, R208, R209; the statement is derived. -/
def Obligations.AlarmPathRowsComplete : Prop :=
  (∀ (s : State) (v : Word), s.dev.gatedAt Reg.ISL_CTRL = false → v.toNat.testBit 0 = true → s.dev.bit Fld.ISL_CTRL_EN = false → ∃ t, exec
      (.islEnable v) s = .next t ∧ t.pending = s.pending ∧ t.dev.bit Fld.ISL_CTRL_EN = true ∧ t.dev.bit Fld.ISL_STATUS_RUNNING = true)
  ∧ (∀ (s : State) (v : Word), s.dev.gatedAt Reg.FUM_CTRL = false → v.toNat.testBit 0 = true → s.dev.bit Fld.FUM_CTRL_EN = false →
      s.dev.bit Fld.SAF_STATUS_SAFE = false → ∃ t, exec (.fumEnable v) s = .next t ∧ t.pending = s.pending ∧ t.dev.bit Fld.FUM_CTRL_EN =
      true ∧ t.dev.bit Fld.FUM_STATUS_RUNNING = true)
  ∧ (∀ (s : State) (dt e : Nat) (d : Dev) (q : SealInfo), d = later s.dev dt → d.bit Fld.ISL_CTRL_EN = true → d.nextSealed d.isl.next =
      some e → d.sealOf e = some q → ∃ t, exec (.islandEvaluate dt) s = .next t ∧ t.pending = s.pending ∧ t.dev.isl.next = some (e + 1) ∧
      t.dev.reg64 Reg.ISL_EVALS_LO = (d.reg64 Reg.ISL_EVALS_LO + 1) % 2 ^ 64)
  ∧ (∀ (s : State) (dt e : Nat) (l : List Nat) (d : Dev) (q : SealInfo), d = later s.dev dt → d.bit Fld.FUM_STATUS_RUNNING = true → 0 <
      d.deCount → d.nextSealed d.fum.next = some e → d.sealOf e = some q → ∃ t, exec (.fumaroleDecision dt l) s = .next t ∧ t.pending =
      s.pending ∧ t.dev.fum.decided = some e ∧ t.dev.reg64 Reg.FUM_DECISIONS_LO = (d.reg64 Reg.FUM_DECISIONS_LO + 1) % 2 ^ 64)
  ∧ (∀ (s : State) (dt p at_ : Nat) (d : Dev), d = later s.dev dt → p < 8 → d.bit Fld.SAF_STATUS_SAFE = false → d.wantedPins.testBit p =
      false → d.fum.pins[p]? = some { since := some at_ } → at_ + d.fld (Fld.FUM_PINp_MIN_ON p) * 1000000 ≤ d.up → ∃ t, exec (.minOnExpire
      dt) s = .next t ∧ t.pending = s.pending ∧ t.dev.almPins.testBit p = false)
  ∧ (∀ (s : State) (dt : Nat) (d : Dev), d = later s.dev dt → d.fum.decidedAt + d.almokWindow < d.up → ∃ t, exec (.almokTimeout dt) s =
      .next t ∧ t.pending = s.pending ∧ t.dev.bit Fld.FUM_STATUS_ALMOK = false)
  ∧ (∀ (s : State) (dt n at_ iv : Nat) (d : Dev) (p : Pub), d = later s.dev dt → d.fum.pubs.find n = some p → p.next = some (at_, iv) →
      at_ ≤ d.up → p.en = true → d.bit Fld.FUM_CTRL_EN = true → ∃ t, exec (.expressRetransmit dt n) s = .next t ∧ t.pending = s.pending ∧
      t.dev.fum.pubs.find n = some { p with sqNum := bump p.sqNum, next := some (at_ + min p.rtMax (2 * iv) * 1000000, min p.rtMax (2 *
      iv)) })
  ∧ (∀ (s : State) (dt : Nat) (d : Dev), d = later s.dev dt → d.bit Fld.FUM_CFG_GRID_EN = true → d.fum.voteAt + 1000000000 ≤ d.up → exec
      (.votePeriodic dt) s = .next { s with dev := (d.modFum (fun f => { f with voteAt := d.up })).sendVote })
  ∧ (∀ (s : State) (dt src seq : Nat) (m : VoteMsg) (d d1 : Dev), d = later s.dev dt → d.receive src 0 seq = (d1, true) → (d1.isSummit =
      true ∧ d1.joined = true) → d1.view.members.testBit src = true → ∃ t, exec (.vote dt src seq m) s = .next t ∧ t.pending = s.pending ∧
      t.dev.fum.votes.find src = some m)
  ∧ (∀ (s : State) (dt src seq : Nat) (m : VoteMsg) (d d1 : Dev), d = later s.dev dt → d.receive src 0 seq = (d1, true) → (src =
      d1.view.summit ∧ d1.joined = true) → ∃ t, exec (.gridState dt src seq m) s = .next t ∧ t.pending = s.pending ∧ t.dev.fum.grid =
      m.groups ∧ t.dev.fum.islandGrid = m.island)
  ∧ (∀ (s : State) (dt : Nat) (d : Dev), d = later s.dev dt → (d.isSummit = true ∧ d.joined = true) → d.fum.gridAt + 1000000000 ≤ d.up →
      exec (.gridStatePeriodic dt) s = .next { s with dev := (d.modFum (fun f => { f with gridAt := d.up })).recount none true })

/-- Every row of Geyser's own events completes with its own effect: a tick, the end of a detector's hold, of a freeze and of a hold-off, a
repeat, STUCK, the delivery of a stream record, and the two enables. Rests on R248, R251, R253, R254, R259, R260, R261, R263, R268, R274;
the statement is derived. -/
def Obligations.GeyserRowsComplete : Prop :=
  (∀ (s : State) (dt k : Nat) (d : Dev), d = later s.dev dt → d.geyDue = some k → ∃ t, exec (.geyserTick dt) s = .next t ∧ t.pending =
      s.pending ∧ t.dev.gey.tick = some k)
  ∧ (∀ (s : State) (dt k j : Nat) (d : Dev) (e : LcEntry), d = later s.dev dt → d.geyDue = some k → ((d.lc j).ent = some e ∧ 0 < e.hold) →
      (d.lc j).under = true → ((d.lcTick k j).lc j).under = false → ∃ t, exec (.detectorHoldExpire dt j) s = .next t ∧ t.pending =
      s.pending ∧ (t.dev.lc j).under = false)
  ∧ (∀ (s : State) (dt k j : Nat) (d : Dev) (e : LcEntry), d = later s.dev dt → j < 64 → d.geyDue = some k → ((d.lc j).ent = some e ∧
      d.lcFrozen j = true) → (d.lc j).changes.headD 0 + e.chatWin * 256 ≤ k → d.measuring (e.ch / 12) = true → ∃ t, exec
      (.detectorUnfreeze dt j) s = .next t ∧ t.pending = s.pending ∧ t.dev.lcFrozen j = false)
  ∧ (∀ (s : State) (dt k n : Nat) (d : Dev) (e : TrigEntry), d = later s.dev dt → d.geyDue = some k → (d.gey.trigs.getD n {}).ent = some e
      → e.matches (d.allDetectors k).geyVector = true → (d.gey.trigs.getD n {}).repeatDue e k = true → ∃ t, exec (.triggerRepeat dt n) s =
      .next t ∧ t.pending = s.pending ∧ (t.dev.gey.trigs.getD n {}).fires = ((d.gey.trigs.getD n {}).fires + 1) % 2 ^ 32)
  ∧ (∀ (s : State) (dt k n u : Nat) (d : Dev), d = later s.dev dt → d.geyDue = some k → ((d.gey.trigs.getD n {}).holdUntil = some u ∧ u ≤
      k) → ∃ t, exec (.holdoffExpire dt n) s = .next t ∧ t.pending = s.pending ∧ (t.dev.gey.trigs.getD n {}) = { d.gey.trigs.getD n {}
      with holdUntil := none })
  ∧ (∀ (s : State) (dt k n : Nat) (d : Dev) (e : TrigEntry), d = later s.dev dt → d.geyDue = some k → ((d.gey.trigs.getD n {}).ent = some
      e ∧ e.stuckS ≠ 0) → e.matches (d.allDetectors k).geyVector = true → ((d.gey.trigs.getD n {}).high = true ∧ (d.gey.trigs.getD n
      {}).stuck = false) → (d.gey.trigs.getD n {}).since + e.stuckS * 256000 ≤ k → ∃ t, exec (.triggerStuck dt n) s = .next t ∧ t.pending
      = s.pending ∧ (t.dev.gey.trigs.getD n {}).stuck = true)
  ∧ (∀ (s : State) (dt n : Nat) (d x : Dev) (r : RingRec) (rest : List RingRec), d = later s.dev dt → (d.ringOf 7 = some n ∧ d.hostReady =
      true ∧ (d.ring n).rest = none) → d.hif.trigQ = r :: rest → d.place n 7 r = (x, true) → ∃ t, exec (.streamRecordDeliver dt) s = .next
      t ∧ t.pending = s.pending ∧ t.dev.hif.trigQ.length ≤ rest.length)
  ∧ (∀ (s : State) (v : Word) (d : Dev), d = later s.dev 0 → (v.toNat.testBit 0 = true ∧ d.bit Fld.GEY_CTRL_EN = false) → d.gatedAt
      Reg.GEY_CTRL = false → ∃ t, exec (.geyEnable v) s = .next t ∧ t.pending = s.pending ∧ t.dev.bit Fld.GEY_CTRL_EN = true ∧ t.dev.bit
      Fld.GEY_STATUS_RUNNING = true)
  ∧ (∀ (s : State) (v : Word) (d : Dev), d = later s.dev 0 → d.bit Fld.GEY_CTRL_EN = v.toNat.testBit 0 → d.gatedAt Reg.GEY_CTRL = false →
      ∃ t, exec (.geyStreamEnable v) s = .next t ∧ t.pending = s.pending ∧ t.dev.bit Fld.GEY_CTRL_STREAM_EN = (v.toNat.testBit 1 && (d.bit
      Fld.GEY_CTRL_STREAM_EN || !d.streamRefused)))

/-- Every row of the cycle's own events completes with its own effect: a boundary, the end of execution, the output write, a fault, a
lockstep mismatch, a late frame, a reply in time, a retained save and its end, and the segment enable. Rests on R293, R300, R303, R304,
R310, R311, R317, R318, R323; the statement is derived. -/
def Obligations.CycleRowsComplete : Prop :=
  (∀ (s : State) (dt : Nat) (d : Dev) (p : Program), d = later s.dev dt → d.program = some p → (d.cyc.outputsOn = true ∧ d.boundaryDue
      p.period = true) → (d.cyc.running = true ∧ d.cyc.stopReq = none ∧ d.cyc.late = false ∧ d.switchDue = none) → ∃ t, exec
      (.cycleBoundary dt) s = .next t ∧ t.pending = s.pending ∧ t.dev.cyc.boundary = d.boundaryNow p.period ∧ t.dev.cyc.nextBoundary =
      d.boundaryNow p.period + p.period ∧ t.dev.cyc.executing = true)
  ∧ (∀ (s : State) (dt : Nat) (d : Dev) (w r : List (Nat × Bytes)), d = later s.dev dt → (d.cyc.running = true ∧ d.cyc.executing = true ∧
      d.cyc.execDone = false) → ∃ t, exec (.cycleExecDone dt w r) s = .next t ∧ t.pending = s.pending ∧ t.dev.cyc.execDone = true ∧
      t.dev.reg64 Reg.CYC_CYCLES_LO = (d.reg64 Reg.CYC_CYCLES_LO + 1) % 2 ^ 64)
  ∧ (∀ (s : State) (dt carrier : Nat) (d : Dev) (p : Program), d = later s.dev dt → (d.program = some p ∧ d.outDue p = true) →
      (d.cyc.outputsOn = true ∧ d.cyc.outPending = true) → (d.cyc.running = true ∧ d.cyc.late = false ∧ d.cyc.execDone = true) → ∃ t, exec
      (.outputWrite dt carrier) s = .next t ∧ t.pending = s.pending ∧ t.dev.cyc.outs = (List.range 32).map (fun st => fieldAt (Ram.read
      d.cyc.work 65536 260) (8 * st) 8) ∧ t.dev.regN Reg.FUM_CYC_FLAGS = fieldAt (Ram.read d.cyc.work 65536 260) 256 4 ∧
      t.dev.cyc.outPending = false)
  ∧ (∀ (s : State) (dt : Nat) (d : Dev), d = later s.dev dt → d.cycFaultDue = true → ∃ t, exec (.cycFault dt) s = .next t ∧ t.pending =
      s.pending ∧ t.dev.fld Fld.CYC_STATUS_STATE = 2 ∧ t.dev.cyc.running = false ∧ t.dev.cyc.failsafe = true)
  ∧ (∀ (s : State) (dt : Nat) (d : Dev), d = later s.dev dt → (d.cyc.running = true ∧ d.cyc.executing = true) → (d.saf.queue.length < 16 ∧
      d.saf.queue.all (fun e => decide (e.cls ≠ eLockstep)) = true) → ∃ t, exec (.lockstepMismatch dt) s = .next t ∧ t.pending = s.pending
      ∧ t.dev.fld Fld.CYC_STATUS_STATE = 2 ∧ t.dev.cyc.running = false ∧ t.dev.regN Reg.CYC_LOCKSTEP = (d.regN Reg.CYC_LOCKSTEP + 1) % 2 ^
      32)
  ∧ (∀ (s : State) (dt g : Nat) (d : Dev) (x : FieldTx), d = later s.dev dt → (d.field g).tx = some x → (x.attempts = 0 ∧ x.outAt + 200000
      ≤ d.up) → ∃ t, exec (.outputFrameLate dt g) s = .next t ∧ t.pending = s.pending ∧ (t.dev.field g).tx = none ∧ t.dev.regN
      Reg.RIO_OUT_LATE = (d.regN Reg.RIO_OUT_LATE + 1) % 2 ^ 32)
  ∧ (∀ (s : State) (dt g : Nat) (b : Bytes) (d : Dev) (n : Nat) (x : StationSt) (e : StationEntry), d = later s.dev dt → (28 ≤ b.length ∧
      slice b 0 1 = [2] ∧ beNat (slice b 24 4) = crc32 (b.take 24)) → (d.cyc.outCycle[g]?).join = some (beNat (slice b 4 4)) →
      (d.cyc.stations.find? (fun y => y.2.entry.any (fun e => decide (e.seg = g ∧ e.addr = beNat (slice b 1 1) % 16 ∧ e.nMod = beNat
      (slice b 2 1) % 16))) = some (n, x)) → (x.entry = some e ∧ d.gNs < d.cyc.nextBoundary * 250000) → ∃ t, exec (.stationReply dt g true
      b) s = .next t ∧ t.pending = s.pending ∧ ((t.dev.station n).reply.map (fun r => r.inputs)) = some (beNat (slice b 8 8)))
  ∧ (∀ (s : State) (dt : Nat) (d : Dev) (x : RetCopy), d = later s.dev dt → (d.cyc.retDue = some x ∧ d.cyc.saving = none ∧ d.mramTaken
      s.key = false) → ∃ t, exec (.retainedSave dt) s = .next t ∧ t.pending = s.pending ∧ t.dev.cyc.saving.isSome = true)
  ∧ (∀ (s : State) (dt i : Nat) (d : Dev) (x : RetSlot), d = later s.dev dt → (d.cyc.saving = some (i, x) ∧ i < d.cyc.retSlots.length) → ∃
      t, exec (.retainedSaveDone dt true) s = .next t ∧ t.pending = s.pending ∧ t.dev.cyc.retSlots[i]? = some (some x) ∧ t.dev.cyc.saving
      = none ∧ t.dev.reg64 Reg.CYC_RET_SAVES_LO = (d.reg64 Reg.CYC_RET_SAVES_LO + 1) % 2 ^ 64)
  ∧ (∀ (s : State) (v : Word), (later s.dev 0).gatedAt Reg.RIO_CTRL = false → ∃ t, exec (.rioSegEnable v) s = .next t ∧ t.pending =
      s.pending ∧ t.dev.fld Fld.RIO_CTRL_SEG_EN = v.toNat % 4)

/-- Every row of the sessions' and field ports' own events completes with its own effect: a published frame, a GOOSE retransmission, the
field enable, a field frame, a collision, the end of a backoff and of a deferral, and the two MDIO rows. That SESSION_PUBLISH issues its
item is the model's reading (log 145). Rests on R373, R378, R380, R381, R382, R385; the statement is derived. -/
def Obligations.SessionAndFieldRowsComplete : Prop :=
  (∀ (s : State) (dt n ep : Nat) (d : Dev) (e : SessEntry) (rest : List Nat), d = later s.dev dt → ((d.sess n).entry = some e ∧ e.type =
      0) → (d.sess n).todo.dropWhile (fun x => decide (x % max 1 e.rateDiv ≠ 0)) = ep :: rest → ((d.sess n).txOn = true ∧ d.muted e =
      false ∧ (d.sess n).keyOrphaned = false) → (d.calm = true ∧ (d.serve 0x04 n).2 = true) → ∃ t, exec (.sessionPublish dt n) s = .next t
      ∧ t.pending = s.pending ∧ (t.dev.sess n).todo = rest ∧ (t.dev.sess n).sent = (d.sess n).sent + ((bitsOf 4 e.portMask).filter (fun p
      => d.bit (Fld.NET_Pp_STATUS_LINK p))).length)
  ∧ (∀ (s : State) (dt n at_ iv : Nat) (d : Dev) (e : SessEntry) (key : Option KeyVal), d = later s.dev dt → ((d.sess n).entry = some e ∧
      (d.sess n).nextAt = some (at_, iv) ∧ at_ ≤ d.up) → ((d.sess n).txOn = true ∧ (d.sess n).keyOrphaned = false ∧ d.muted e = false) →
      sessKey s.key e = .ok key → ∃ t, exec (.sessionGooseRetransmit dt n) s = .next t ∧ t.pending = s.pending ∧ (t.dev.sess n).sqNum =
      bump (d.sess n).sqNum ∧ (t.dev.sess n).nextAt = some (at_ + min e.rtMax (2 * iv) * 1000000, min e.rtMax (2 * iv)))
  ∧ (∀ (s : State) (v : Word) (d : Dev), d = later s.dev 0 → d.gatedAt Reg.NET_FLD_CFG = false → d.net.seedsHeld = false → ∃ t, exec
      (.netFldEnable v) s = .next t ∧ t.pending = s.pending ∧ t.dev.fld Fld.NET_FLD_CFG_EN = v.toNat % 4)
  ∧ (∀ (s : State) (dt g : Nat) (f : FieldFrame) (d : Dev), d = later s.dev dt → (g < 2 ∧ d.fbit Fld.NET_FLD_CFG_EN g = true) → (f.fcsOk =
      true ∧ 64 ≤ f.size ∧ f.size ≤ 1518 ∧ f.etype = d.fld Fld.RIO_CFG_ETYPE) → (f.dst = 2 ^ 48 - 1 ∨ f.dst = d.reg64 (Reg.NET_FLDn_MAC_LO
      g)) → ∃ t, exec (.fieldFrameRx dt g f) s = .next t ∧ t.pending = s.pending ∧ t.dev.regN (Reg.NET_FLDn_RX_FRAMES g) = (d.regN
      (Reg.NET_FLDn_RX_FRAMES g) + 1) % 2 ^ 32)
  ∧ (∀ (s : State) (dt g at_ : Nat) (d : Dev) (x : FieldTx), d = later s.dev dt → (g < 2 ∧ (d.field g).tx = some x ∧ x.startedAt = some
      at_) → (d.up < at_ + fieldDur x.payload ∧ d.up ≤ at_ + 51200 ∧ x.attempts < 16) → ∃ t, exec (.fieldCollision dt g) s = .next t ∧
      t.pending = s.pending ∧ t.dev.regN (Reg.NET_FLDn_COLLISIONS g) = (d.regN (Reg.NET_FLDn_COLLISIONS g) + 1) % 2 ^ 32)
  ∧ (∀ (s : State) (dt g at_ : Nat) (d : Dev) (x : FieldTx), d = later s.dev dt → (g < 2 ∧ d.fbit Fld.NET_FLD_CFG_EN g = true ∧ (d.field
      g).tx = some x ∧ x.backoffUntil = some at_ ∧ at_ ≤ d.up) → ∃ t, exec (.fieldBackoffExpire dt g false) s = .next t ∧ t.pending =
      s.pending ∧ (t.dev.field g).tx = some { x with attempts := x.attempts + 1, startedAt := some d.up, deferring := false, backoffUntil
      := none })
  ∧ (∀ (s : State) (dt g : Nat) (d : Dev) (x : FieldTx), d = later s.dev dt → (g < 2 ∧ d.fbit Fld.NET_FLD_CFG_EN g = true ∧ (d.field g).tx
      = some x ∧ x.deferring = true ∧ x.isLate d.up false = false) → ∃ t, exec (.carrierDeferEnd dt g) s = .next t ∧ t.pending = s.pending
      ∧ (t.dev.field g).tx = some { x with attempts := x.attempts + 1, startedAt := some d.up, deferring := false, backoffUntil := none })
  ∧ (∀ (s : State) (v : Word) (d : Dev), d = later s.dev 0 → d.gatedAt Reg.NET_MDIO = false → (d.bit Fld.NET_MDIO_BUSY = false ∧
      v.toNat.testBit 30 = true) → ∃ t, exec (.mdioStart v) s = .next t ∧ t.pending = s.pending ∧ t.dev.bit Fld.NET_MDIO_BUSY = true)
  ∧ (∀ (s : State) (dt data : Nat) (d : Dev), d = later s.dev dt → d.bit Fld.NET_MDIO_BUSY = true → ∃ t, exec (.mdioDone dt data) s =
      .next t ∧ t.pending = s.pending ∧ t.dev.bit Fld.NET_MDIO_BUSY = false)

/-- Every row of the fabric's membership completes with its own effect: heartbeats, suspicion, the change of a view, departure and joining,
the history of streams, the summit's election, and the automatic rejoin. Rests on R42, R430, R431, R432, R433, R435, R436, R440, R441; the
statement is derived. -/
def Obligations.MembershipRowsComplete : Prop :=
  (∀ (s : State) (dt : Nat) (d : Dev), d = later s.dev dt → (d.joined = true ∧ d.fab.hbSentAt + 250000 ≤ d.up) → exec (.heartbeatSend dt)
      s = .next { s with dev := (d.modFab (fun f => { f with hbSentAt := d.up })).sendAll d.others (.heartbeat d.view.num) })
  ∧ (∀ (s : State) (dt src seq : Nat) (d d1 : Dev), d = later s.dev dt → (d.receive src 1 seq = (d1, true) ∧ d1.view.members.testBit src =
      true) → ∃ t, exec (.heartbeat dt src seq) s = .next t ∧ t.pending = s.pending ∧ t.dev.fab.hbAt.find src = some d.up)
  ∧ (∀ (s : State) (dt n : Nat) (d : Dev), d = later s.dev dt → (n < 64 ∧ d.joined = true ∧ d.others.testBit n = true ∧ d.fab.hbAt.find n
      = some 0 ∧ 1000000 ≤ d.up ∧ d.fab.change = none) → ∃ t, exec (.heartbeatTimeout dt n) s = .next t ∧ t.pending = s.pending ∧
      t.dev.regN Reg.FAB_SUSPECTS = (d.regN Reg.FAB_SUSPECTS + 1) % 2 ^ 32)
  ∧ (∀ (s : State) (dt src seq n : Nat) (d d1 : Dev), d = later s.dev dt → (d.receive src 1 seq = (d1, true) ∧ d1.others.testBit src =
      true ∧ d1.others.testBit n = true ∧ n < 64 ∧ d1.fab.change = none) → coordinator d1.view (2 ^ n) d1.deviceNo ≠ d1.deviceNo → ∃ t,
      exec (.suspect dt src seq d.view.num (2 ^ n)) s = .next t ∧ t.pending = s.pending ∧ t.dev.fab.change = some
      { suspects := 2 ^ n, joiner := none, states := [], since := d.up } ∧ t.dev.bit Fld.FAB_STATUS_VIEW_CHANGE = true)
  ∧ (∀ (s : State) (dt src seq u : Nat) (d d1 : Dev) (c : ViewChange), d = later s.dev dt → (d.receive src 1 seq = (d1, true) ∧
      d1.others.testBit src = true ∧ d1.fab.change = some c) → (c.joiner = none ∧ coordinator d1.view c.suspects d1.deviceNo ≠
      d1.deviceNo) → ∃ t, exec (.state dt src seq d.view.num u c.suspects) s = .next t ∧ t.pending = s.pending ∧ t.dev.fab.change.any (fun
      x => decide (x.states = c.states.put src (u, c.suspects))) = true)
  ∧ (∀ (s : State) (dt src seq : Nat) (m : NewViewMsg) (d d1 : Dev), d = later s.dev dt → (d.receive src 1 seq = (d1, true) ∧
      d1.others.testBit src = true ∧ m.prevView = d1.view.num ∧ m.members.testBit d1.deviceNo = true) → (d1.fab.joinReqs = [] ∧ m.members
      < 2 ^ 64 ∧ m.summit < 64 ∧ m.view < 2 ^ 32) → ∃ t, exec (.newView dt src seq m) s = .next t ∧ t.pending = s.pending ∧ t.dev.regN
      Reg.CRT_VIEW = m.view ∧ t.dev.reg64 Reg.FAB_MEMBERS_LO = m.members ∧ t.dev.fld Fld.FAB_STATUS_SUMMIT = m.summit ∧
      t.dev.fab.views.head? = some
      { num := m.view, fromEpoch := m.fromEpoch, members := m.members, summit := m.summit, minority := m.minority, at_ := d1.g16 })
  ∧ (∀ (s : State) (dt src seq : Nat) (m : FwdDone) (d d1 : Dev), d = later s.dev dt → d.receive src 1 seq = (d1, true) → ∃ t, exec
      (.fwdDone dt src seq m) s = .next t ∧ t.pending = s.pending ∧ t.dev.fab.fwdDone.find m.view = some (putBit (d1.fab.fwdDone.getD
      m.view 0) src true))
  ∧ (∀ (s : State) (dt src seq : Nat) (d d1 : Dev), d = later s.dev dt → (d.receive src 1 seq = (d1, true) ∧ d1.joined = true ∧
      d1.others.testBit src = true ∧ d1.fab.change = none ∧ src < 64) → ∃ t, exec (.depart dt src seq) s = .next t ∧ t.pending = s.pending
      ∧ t.dev.regN Reg.FAB_SUSPECTS = (d.regN Reg.FAB_SUSPECTS + 1) % 2 ^ 32)
  ∧ (∀ (s : State) (dt src seq : Nat) (d d1 : Dev), d = later s.dev dt → (d.receive src 1 seq = (d1, true) ∧ d1.fab.change.isSome = true ∧
      d1.fab.joinReqs = []) → ∃ t, exec (.joinReq dt src seq d.rate (d.fld Fld.CRT_CFG_WAIT)) s = .next t ∧ t.pending = s.pending ∧
      t.dev.fab.joinReqs = [(src, d.up)])
  ∧ (∀ (s : State) (dt t0 : Nat) (d : Dev) (w : WaitCmd), d = later s.dev dt → (d.fab.joining = some t0 ∧ t0 + 1000000000 ≤ d.up ∧
      d.hif.waiting = [w] ∧ w.kind = .fabJoin) → ∃ t, exec (.joinTimeout dt) s = .next t ∧ t.pending = s.pending ∧ t.dev.fab.joining =
      none ∧ t.dev.hif.waiting = [])
  ∧ (∀ (s : State) (dt src seq first last i : Nat) (d d1 : Dev), d = later s.dev dt → d.receive src 3 seq = (d1, true) → exec (.histReq dt
      src seq first last [i]) s = .next { s with dev := d1.feedHistory src i first last })
  ∧ (∀ (s : State) (dt src seq e count : Nat) (r : Rec) (d d1 : Dev) (ent : StreamEntry), d = later s.dev dt → (d.receive src 3 seq = (d1,
      true) ∧ (d1.stream r.stream).awaiting = none ∧ (d1.stream r.stream).entry.newest = some ent ∧ d1.fab.histWant.find r.stream = none)
      → ∃ t, exec (.histRec dt src seq e count r) s = .next t ∧ t.pending = s.pending ∧ t.dev.hist r.stream =
      { recs := (putHist ⟨e, r, ent.chanBase, ent.nchan⟩ (d1.hist r.stream).recs).take 257, count := count, lost := decide (ent.staleN ≤ count) })
  ∧ (∀ (s : State) (dt src seq view : Nat) (d d1 : Dev), d = later s.dev dt → (d.receive src 1 seq = (d1, true) ∧ view = d1.view.num ∧ src
      = d1.view.summit) → ∃ t, exec (.summit dt src seq view) s = .next t ∧ t.pending = s.pending ∧ t.dev.bit Fld.FAB_STATUS_ELECTION =
      false)
  ∧ (∀ (s : State) (dt silent : Nat) (d x : Dev), d = later s.dev dt → (d.bit Fld.FAB_STATUS_ELECTION = true ∧ d.isSummit = true ∧
      (d.fab.electVotes ||| silent) &&& d.view.members = d.view.members ∧ d.fab.electTimes &&& d.view.members = d.view.members) → x =
      ((d.setBit Fld.FAB_STATUS_ELECTION false).modFum (fun f => { f with votes := f.votes.keep (fun n _ => !silent.testBit n) })).sendAll
      d.others (.summit d.view.num) → exec (.summitElect dt silent) s = .next { s with dev := x.recount none false })
  ∧ (∀ (s : State) (dt n : Nat) (d : Dev), d = later s.dev dt → (d.bit Fld.FAB_CFG_AUTO_REJOIN = true ∧ d.bit Fld.CRT_STATUS_SPLIT = true
      ∧ d.fab.joining = none ∧ d.reach n = true ∧ d.fab.rejoinAt = none) → exec (.autoRejoin dt n) s = .next
      { s with dev := (d.modFab (fun f => { f with rejoinAt := some d.up })).requestJoin (some n) true })

/-- Every row of Crater's epochs and of the records the owners exchange completes with its own effect: opening, sealing, filling again,
confirming, delivering, and the messages of R116, R117, R133 and R38. Rests on R32, R101, R106, R107, R115, R116, R117, R119, R122, R132,
R133, R134; the statement is derived. -/
def Obligations.EpochRowsComplete : Prop :=
  (∀ (s : State) (dt e : Nat) (d : Dev), d = later s.dev dt → (d.craterRuns = true ∧ d.crt.nextSeal ≤ e ∧ epochTime d.rate e ≤ d.g16 ∧ e ≤
      d.crt.nextDeliver + 127 ∧ d.slot e = none) → ∃ t, exec (.epochOpen dt e) s = .next t ∧ t.pending = s.pending ∧ t.dev.slot e = some
      {})
  ∧ (∀ (s : State) (dt e corrected : Nat) (d d0 : Dev), d = later s.dev dt → d0 = (d.count Reg.CRT_ECC_CORR corrected).count64
      Reg.SAF_CORRECTED_LO corrected → (e = d.crt.nextSeal ∧ d.craterRuns = true ∧ d.deadline e ≤ d.g16 ∧ e ≤ d.crt.nextDeliver + 127) →
      d.ing.streams.all (fun x => x.2.awaiting.isNone && x.2.entry.pend.all (fun p => p.2.isSome)) = true → ∃ t, exec (.localSeal dt
      corrected [] []) s = .next t ∧ t.pending = s.pending ∧ t.dev.crt.nextSeal = e + 1 ∧ t.dev.reg64 Reg.CRT_SEALED_LO = (d.reg64
      Reg.CRT_SEALED_LO + 1) % 2 ^ 64)
  ∧ (∀ (s : State) (dt e corrected : Nat) (d : Dev), d = later s.dev dt → (e = d.crt.nextSeal ∧ d.craterRuns = true ∧ d.bit
      Fld.CRT_CFG_EARLY_SEAL = true ∧ e ≤ d.crt.nextDeliver + 127 ∧ epochTime d.rate e ≤ d.g16 ∧ (d.dueStreams e).all (fun x => decide
      (x.2.type = 4) || (d.committed e x.1).isSome) = true) → d.ing.streams.all (fun x => x.2.awaiting.isNone && x.2.entry.pend.all (fun p
      => p.2.isSome)) = true → ∃ t, exec (.earlySeal ⟨dt, corrected, [], []⟩) s = .next t ∧ t.pending = s.pending ∧ t.dev.crt.nextSeal = e + 1
      ∧ t.dev.reg64 Reg.CRT_EARLY_LO = (d.reg64 Reg.CRT_EARLY_LO + 1) % 2 ^ 64)
  ∧ (∀ (s : State) (dt e : Nat) (d : Dev) (x : EpochSlot) (info : SealInfo), d = later s.dev dt → (d.slot e = some x ∧ x.sealed = some
      info) → (info.refill ≠ [] ∧ info.reformed = false ∧ e ≤ d.crt.nextConf) → ∃ t, exec (.fillReform dt e) s = .next t ∧ t.pending =
      s.pending ∧ ((t.dev.slot e).bind (fun y => y.sealed)).any (fun y => y.reformed) = true)
  ∧ (∀ (s : State) (dt e : Nat) (d : Dev) (x : EpochSlot) (info : SealInfo), d = later s.dev dt → (e = d.crt.nextConf ∧ d.slot e = some x
      ∧ x.sealed = some info ∧ x.late = [] ∧ x.published = false ∧ info.refill = []) → (d.fab.views = [] ∧ d.fab.histFeeds = [] ∧
      d.crt.manifests.getD e [] = [] ∧ d.fab.fwdDone.find 0 = none) → (d.craterRuns = true ∧ e < d.crt.nextSeal) → ∃ t, exec (.confirm dt)
      s = .next t ∧ t.pending = s.pending ∧ t.dev.crt.nextConf = e + 1 ∧ (t.dev.slot e).any (fun y => y.conf.isSome) = true)
  ∧ (∀ (s : State) (dt e : Nat) (d : Dev) (x : EpochSlot), d = later s.dev dt → (d.slot e = some x ∧ x.sealed.isSome = true ∧ x.conf =
      none ∧ x.reported = false ∧ d.deadline e + 1000000 * 2 ^ 16 ≤ d.g16) → (d.partners e = [] ∧ (bitsOf 64 (d.viewAt e).members).all
      (fun n => decide (n = d.deviceNo) || ((d.crt.manifests.getD e []).find n).isSome) = true) → ∃ t, exec (.confirmTimeout dt e) s =
      .next t ∧ t.pending = s.pending ∧ t.dev.slot e = some { x with reported := true })
  ∧ (∀ (s : State) (dt i e rx sealAt : Nat) (r old : Rec) (ent : StreamEntry) (a : Amendment) (d : Dev), d = later s.dev dt →
      (d.sealedHere e = true ∧ d.entryAt i e = some ent ∧ e < d.crt.nextConf ∧ d.confirmedRec i e = some (old, sealAt)) → (d.hasAmend i e
      = false ∧ old.qual.testBit 0 = false ∧ d.crt.nextSeal ≤ d.fld Fld.CRT_AMEND_HORIZON + e + 1 ∧ (ent.partner d.deviceNo = d.deviceNo ∨
      d.view.members.testBit (ent.partner d.deviceNo) = false)) → a =
      { src := 0, shortEpoch := e % 2 ^ 32, primary := d.primaryAt e ent, origQual := old.qual ||| 4, arrival := rx, lateness := min (2 ^ 32 - 1) ((d.g16 - sealAt) / 2 ^ 16 / 1000), record := { r with stream := i, origin := 0 } }
      → (amendBytes (d.crt.amends ++ [(e, a)]) ≤ d.fld Fld.CRT_HIST_AMEND_SIZE * 1048576 ∧ d.ringOf
      5 = none ∧ d.hif.amendQ.length ≤ d.crt.amends.length) → ∃ t, exec (.lateRecord dt i e r rx) s = .next t ∧ t.pending = s.pending ∧
      t.dev.crt = { d.crt with amends := d.crt.amends ++ [(e, a)] })
  ∧ (∀ (s : State) (dt e : Nat) (d : Dev) (x : EpochSlot) (info : SealInfo) (c : ConfInfo) (h : HistSnap), d = later s.dev dt → (e =
      d.crt.nextDeliver ∧ d.slot e = some x ∧ x.sealed = some info ∧ x.conf = some c) → h =
      { epoch := e, bytes := d.snapshot e info c, sealAt := info.at_, recs := c.recs } → (snapsBytes (d.crt.snaps ++ [h]) ≤ d.fld
      Fld.CRT_HIST_SIZE * 1048576 ∧ d.ringOf 4 = none) → ∃ t, exec (.snapshotDeliver dt []) s = .next t ∧ t.pending = s.pending ∧
      t.dev.crt.nextDeliver = e + 1 ∧ t.dev.slot e = none ∧ t.dev.crt.snaps = d.crt.snaps ++ [h])
  ∧ (∀ (s : State) (dt e n : Nat) (d : Dev) (b : BufDesc) (h : HistSnap), d = later s.dev dt → (d.ringOf 4 = some n ∧ d.hostReady = true ∧
      d.crt.carry = [] ∧ d.crt.waiting = [e] ∧ d.crt.snaps.find? (fun x => decide (x.epoch = e)) = some h) → (d.hif.snapPart = none ∧
      d.hif.stages = [] ∧ (d.ring n).bufs = [b] ∧ b.ok = true ∧ 0 < h.bytes.length ∧ h.bytes.length ≤ b.len) → ∃ t, exec
      (.snapshotWholeWrite dt) s = .next t ∧ t.pending = s.pending ∧ t.dev.crt.waiting = [] ∧ t.dev.regN Reg.HIF_SNAP_WHOLE = (d.regN
      Reg.HIF_SNAP_WHOLE + 1) % 2 ^ 32)
  ∧ (∀ (s : State) (dt src seq e : Nat) (l : List Nat) (d d1 : Dev), d = later s.dev dt → (d.receive src 2 seq = (d1, true) ∧ d1.pairOpen
      e = true ∧ d1.crt.first ≤ e ∧ d1.crt.nextSeal ≤ e) → ∃ t, exec (.pairHave dt src seq e l) s = .next t ∧ t.pending = s.pending ∧
      t.dev.pair e src = { d.pair e src with have_ := some l })
  ∧ (∀ (s : State) (dt src seq e : Nat) (r : Rec) (d d1 : Dev), d = later s.dev dt → (d.receive src 2 seq = (d1, true) ∧ d1.pairOpen e =
      true ∧ (d1.pair e src).announced = none) → ∃ t, exec (.pairRec dt src seq e r) s = .next t ∧ t.pending = s.pending ∧ t.dev.pair e
      src = { d.pair e src with recs := (d.pair e src).recs.put r.stream r })
  ∧ (∀ (s : State) (dt src seq e n : Nat) (d d1 : Dev), d = later s.dev dt → (d.receive src 2 seq = (d1, true) ∧ d1.pairOpen e = true ∧
      (d1.pair e src).recs.length < n) → ∃ t, exec (.pairDone dt src seq e n) s = .next t ∧ t.pending = s.pending ∧ t.dev.pair e src =
      { d.pair e src with announced := some n })
  ∧ (∀ (s : State) (dt src seq e n : Nat) (d d1 : Dev), d = later s.dev dt → (d.receive src 2 seq = (d1, true) ∧ d1.pairOpen e = true) → ∃
      t, exec (.pairAck dt src seq e n) s = .next t ∧ t.pending = s.pending ∧ t.dev.pair e src = { d.pair e src with acked := true })
  ∧ (∀ (s : State) (dt e : Nat) (d : Dev) (x : EpochSlot) (info : SealInfo), d = later s.dev dt → (d.slot e = some x ∧ x.sealed = some
      info ∧ x.published = false) → (d.pairsDone e = true ∧ (info.refill = [] ∨ info.reformed = true)) → ∃ t, exec (.manifestPublish dt e)
      s = .next t ∧ t.pending = s.pending ∧ t.dev.slot e = some { x with published := true })
  ∧ (∀ (s : State) (dt src seq : Nat) (m : Manifest) (d d1 : Dev), d = later s.dev dt → (d.receive src 2 seq = (d1, true) ∧
      d1.takesManifest m = true ∧ ((d1.crt.manifests.getD m.epoch []).find m.device) = none) → (d1.joined = false ∨ (d1.craterRuns = true
      ∧ d1.crt.first ≤ m.epoch)) → ∃ t, exec (.sealManifest dt src seq m) s = .next t ∧ t.pending = s.pending ∧ (t.dev.crt.manifests.getD
      m.epoch []).find m.device = some m)
  ∧ (∀ (s : State) (dt src seq e : Nat) (a : Amendment) (d d1 : Dev), d = later s.dev dt → (d.receive src 2 seq = (d1, true) ∧ e =
      epochOfShort d1.crt.nextSeal a.shortEpoch ∧ d1.hasAmend a.record.stream e = false) → (amendBytes (d1.crt.amends ++ [(e,
      { a with src := 1 })]) ≤ d1.fld Fld.CRT_HIST_AMEND_SIZE * 1048576 ∧ d1.ringOf 5 = none ∧ d1.hif.amendQ.length ≤
      d1.crt.amends.length) → ∃ t, exec (.amendFwd dt src seq a) s = .next t ∧ t.pending = s.pending ∧ t.dev.crt =
      { d.crt with amends := d.crt.amends ++ [(e, { a with src := 1 })] })
  ∧ (∀ (s : State) (dt src seq e : Nat) (r : Rec) (d d1 : Dev) (ent : StreamEntry), d = later s.dev dt → (d.receive src 2 seq = (d1, true)
      ∧ d1.entryAt r.stream e = some ent ∧ ent.type = 5 ∧ ent.primary ≠ d1.deviceNo) → (nearestEpoch d1.rate (epochTime d1.rate e) = e ∧
      alignedTo d1.rate (d1.fld Fld.CRT_ALIGN_TOL) e (epochTime d1.rate e) = true) → (d1.craterRuns = true ∧ d1.crt.first ≤ e ∧
      d1.crt.nextSeal ≤ e ∧ e ≤ d1.crt.nextDeliver + 127 ∧ d1.stored e r.stream = none) → ∃ t, exec (.mirrorRec dt src seq e r) s = .next
      t ∧ t.pending = s.pending ∧ t.dev.stored e r.stream = some ⟨{ r with tOff := 0, origin := 0 }, d1.draw.1 / 256, d1.draw.1 % 256⟩)

/-- Every row of the key store's own events and commands completes with its own effect: enrolment at start-up, the sweep, the entropy
source's failure and recovery, KEY_INFO and KEY_REENROL. Rests on R476, R479, R484, R492, R495, R497; the statement is derived. -/
def Obligations.KeyStoreRowsComplete : Prop :=
  (∀ (s : State) (dt : Nat) (d : Dev), d = later s.dev dt → (d.bit Fld.CLK_STATUS_PLL_LOCK = true ∧ d.clk.keyStarted = false ∧ d.bit
      Fld.CLK_STATUS_RESCUE = false ∧ s.key.started = false) → (s.key.lc = .blank ∧ s.key.trngFail = false ∧ s.key.journal = none) → ∃ t,
      exec (.keyStoreStart dt) s = .next t ∧ t.pending = s.pending ∧ t.key.lc = .provision ∧ t.key.root.isSome = true ∧ t.key.started =
      true)
  ∧ (∀ (s : State) (dt n : Nat) (x : Slot) (d : Dev), d = later s.dev dt → (s.key.started = true ∧ s.key.interrupted = false ∧ s.key.slot
      n = some x ∧ x.state = .valid ∧ s.key.descends s.key.sweep 5 n = true) → ∃ t, exec (.keySweep dt) s = .next t ∧ t.pending =
      s.pending ∧ t.key.slot n = some { x with state := .orphaned, cur := none, next := none })
  ∧ (∀ (s : State) (dt : Nat) (d : Dev), d = later s.dev dt → s.key.trngFail = false → ∃ t, exec (.trngFail dt) s = .next t ∧ t.pending =
      s.pending ∧ t.key.trngFail = true)
  ∧ (∀ (s : State) (dt : Nat) (d : Dev), d = later s.dev dt → (s.key.trngFail = true ∧ s.key.enrolWaits = false) → ∃ t, exec (.trngRecover
      dt) s = .next t ∧ t.pending = s.pending ∧ t.key.trngFail = false ∧ t.dev.net.seedsHeld = false)
  ∧ (∀ (s : State) (c : Ctx) (d : Dev) (first count : Nat) (buf : HostBuf), ready s.dev c.ring false none → d = fetched s.dev c.ring → (1
      ≤ count ∧ count ≤ 256 ∧ first + count ≤ 1024 ∧ 16 * count ≤ buf.len) → exec (.keyInfo c first count buf) s = .next (served s c d
      (.block ((List.range count).flatMap (fun i => keyInfoBlock s.key (first + i))) (some buf.addr))))
  ∧ (∀ (s : State) (c : Ctx) (d : Dev), d = later s.dev 0 → ready s.dev c.ring true none → (s.key.rootFail = true ∧ s.key.lc ≠ .blank ∧
      s.key.lc ≠ .returned ∧ s.key.trngFail = false) → ∃ t, exec (.keyReenrol c 0x454E524C) s = .next t ∧ t.pending = s.pending ∧ t.key.lc
      = .provision ∧ t.key.rootFail = false ∧ completes d c.ring sOk 0 t.dev)
end

