-- ==== Sys2Proof/Laws/Tbl.lean ====
section
/-! SUPPORT. Tables: reads after writes, and the canonical form that every operation keeps. -/

namespace Sys2Proof

variable {α β : Type}

theorem Tbl.wf_cons (j : Nat) (v : α) (t : Tbl α) : Tbl.wf ((j, v) :: t) = true ↔ (∀ x ∈ t, j < x.1) ∧ Tbl.wf t = true := by
  induction t generalizing j v with
  | nil => simp [Tbl.wf]
  | cons y t ih =>
    obtain ⟨k, w⟩ := y
    simp only [Tbl.wf, Bool.and_eq_true, decide_eq_true_eq]
    constructor
    · rintro ⟨h, hw⟩
      refine ⟨fun x hx => ?_, hw⟩
      rcases List.mem_cons.mp hx with rfl | hx
      · exact h
      · exact lt_trans h (((ih k w).mp hw).1 x hx)
    · exact fun h => ⟨h.1 _ (List.mem_cons_self ..), h.2⟩

@[simp] theorem Tbl.wf_nil : Tbl.wf ([] : Tbl α) = true := rfl

theorem Tbl.mem_put {t : Tbl α} {k : Nat} {v : α} {x : Nat × α} (h : x ∈ Tbl.put t k v) : x = (k, v) ∨ x ∈ t := by
  induction t with
  | nil => simp [Tbl.put] at h; simp [h]
  | cons y t ih =>
    obtain ⟨j, w⟩ := y
    simp only [Tbl.put] at h
    split at h
    · rcases List.mem_cons.mp h with h | h
      · exact .inl h
      · exact .inr (List.mem_cons_of_mem _ h)
    · split at h
      · rcases List.mem_cons.mp h with h | h
        · exact .inl h
        · exact .inr h
      · rcases List.mem_cons.mp h with h | h
        · exact .inr (h ▸ List.mem_cons_self ..)
        · exact (ih h).imp id (List.mem_cons_of_mem _)

theorem Tbl.mem_drop {t : Tbl α} {k : Nat} {x : Nat × α} (h : x ∈ Tbl.drop t k) : x ∈ t := by
  induction t with
  | nil => simp [Tbl.drop] at h
  | cons y t ih =>
    obtain ⟨j, w⟩ := y
    simp only [Tbl.drop] at h
    split at h
    · exact List.mem_cons_of_mem _ (ih h)
    · rcases List.mem_cons.mp h with h | h
      · exact h ▸ List.mem_cons_self ..
      · exact List.mem_cons_of_mem _ (ih h)

/-- A write keeps the canonical form. -/
theorem Tbl.put_wf {t : Tbl α} (k : Nat) (v : α) (h : Tbl.wf t = true) : Tbl.wf (Tbl.put t k v) = true := by
  induction t with
  | nil => rfl
  | cons y t ih =>
    obtain ⟨j, w⟩ := y
    obtain ⟨h1, h2⟩ := (Tbl.wf_cons j w t).mp h
    simp only [Tbl.put]
    split
    · subst_vars; exact (Tbl.wf_cons _ _ _).mpr ⟨h1, h2⟩
    · split
      · rename_i hkj
        refine (Tbl.wf_cons _ _ _).mpr ⟨fun x hx => ?_, h⟩
        rcases List.mem_cons.mp hx with rfl | hx
        · exact hkj
        · exact lt_trans hkj (h1 x hx)
      · refine (Tbl.wf_cons _ _ _).mpr ⟨fun x hx => ?_, ih h2⟩
        rcases Tbl.mem_put hx with rfl | hx
        · show j < k; omega
        · exact h1 x hx

/-- A removal keeps the canonical form. -/
theorem Tbl.drop_wf {t : Tbl α} (k : Nat) (h : Tbl.wf t = true) : Tbl.wf (Tbl.drop t k) = true := by
  induction t with
  | nil => rfl
  | cons y t ih =>
    obtain ⟨j, w⟩ := y
    obtain ⟨h1, h2⟩ := (Tbl.wf_cons j w t).mp h
    simp only [Tbl.drop]
    split
    · exact ih h2
    · exact (Tbl.wf_cons _ _ _).mpr ⟨fun x hx => h1 x (Tbl.mem_drop hx), ih h2⟩

theorem Tbl.mem_mapVals {f : Nat → α → β} {t : Tbl α} {x : Nat × β} (h : x ∈ Tbl.mapVals f t) : ∃ v, (x.1, v) ∈ t ∧ x.2 = f x.1 v := by
  induction t with
  | nil => simp [Tbl.mapVals] at h
  | cons y t ih =>
    obtain ⟨j, w⟩ := y
    simp only [Tbl.mapVals, List.mem_cons] at h
    rcases h with rfl | h
    · exact ⟨w, List.mem_cons_self .., rfl⟩
    · obtain ⟨v, hv, e⟩ := ih h; exact ⟨v, List.mem_cons_of_mem _ hv, e⟩

/-- A change of every entry keeps the canonical form. -/
theorem Tbl.mapVals_wf {t : Tbl α} (f : Nat → α → β) (h : Tbl.wf t = true) : Tbl.wf (Tbl.mapVals f t) = true := by
  induction t with
  | nil => rfl
  | cons y t ih =>
    obtain ⟨j, w⟩ := y
    obtain ⟨h1, h2⟩ := (Tbl.wf_cons j w t).mp h
    refine (Tbl.wf_cons _ _ _).mpr ⟨fun x hx => ?_, ih h2⟩
    obtain ⟨v, hv, -⟩ := Tbl.mem_mapVals hx
    exact h1 _ hv

theorem Tbl.mem_keep {p : Nat → α → Bool} {t : Tbl α} {x : Nat × α} (h : x ∈ Tbl.keep p t) : x ∈ t ∧ p x.1 x.2 = true := by
  induction t with
  | nil => simp [Tbl.keep] at h
  | cons y t ih =>
    obtain ⟨j, w⟩ := y
    simp only [Tbl.keep] at h
    split at h
    · rcases List.mem_cons.mp h with rfl | h
      · exact ⟨List.mem_cons_self .., by assumption⟩
      · exact ⟨List.mem_cons_of_mem _ (ih h).1, (ih h).2⟩
    · exact ⟨List.mem_cons_of_mem _ (ih h).1, (ih h).2⟩

/-- A selection of entries keeps the canonical form. -/
theorem Tbl.keep_wf {t : Tbl α} (p : Nat → α → Bool) (h : Tbl.wf t = true) : Tbl.wf (Tbl.keep p t) = true := by
  induction t with
  | nil => rfl
  | cons y t ih =>
    obtain ⟨j, w⟩ := y
    obtain ⟨h1, h2⟩ := (Tbl.wf_cons j w t).mp h
    simp only [Tbl.keep]
    split
    · exact (Tbl.wf_cons _ _ _).mpr ⟨fun x hx => h1 x (Tbl.mem_keep hx).1, ih h2⟩
    · exact ih h2

/-- A read after a write to the same number gives the value written. -/
@[simp] theorem Tbl.find_put_same (t : Tbl α) (k : Nat) (v : α) : Tbl.find (Tbl.put t k v) k = some v := by
  induction t with
  | nil => simp [Tbl.put, Tbl.find]
  | cons y t ih =>
    obtain ⟨j, w⟩ := y
    simp only [Tbl.put]
    split
    · simp [Tbl.find]
    · split
      · simp [Tbl.find]
      · rename_i h1 h2; simp [Tbl.find, h1, ih]

/-- A write leaves every other number alone. -/
theorem Tbl.find_put_other (t : Tbl α) {k i : Nat} (v : α) (h : i ≠ k) : Tbl.find (Tbl.put t k v) i = Tbl.find t i := by
  induction t with
  | nil => simp [Tbl.put, Tbl.find, h.symm]
  | cons y t ih =>
    obtain ⟨j, w⟩ := y
    simp only [Tbl.put]
    split
    · rename_i hj; subst hj; simp [Tbl.find, h.symm]
    · split
      · simp [Tbl.find, h.symm]
      · simp [Tbl.find, ih]

/-- A removed number reads as absent. -/
@[simp] theorem Tbl.find_drop_same (t : Tbl α) (k : Nat) : Tbl.find (Tbl.drop t k) k = none := by
  induction t with
  | nil => rfl
  | cons y t ih =>
    obtain ⟨j, w⟩ := y
    simp only [Tbl.drop]
    split
    · exact ih
    · rename_i hj; simp [Tbl.find, hj, ih]

/-- A removal leaves every other number alone. -/
theorem Tbl.find_drop_other (t : Tbl α) {k i : Nat} (h : i ≠ k) : Tbl.find (Tbl.drop t k) i = Tbl.find t i := by
  induction t with
  | nil => rfl
  | cons y t ih =>
    obtain ⟨j, w⟩ := y
    simp only [Tbl.drop]
    split
    · rename_i hj; subst hj; simp [Tbl.find, h.symm, ih]
    · simp [Tbl.find, ih]

/-- A number found is an entry. -/
theorem Tbl.mem_of_find {t : Tbl α} {k : Nat} {v : α} (h : Tbl.find t k = some v) : (k, v) ∈ t := by
  induction t with
  | nil => simp [Tbl.find] at h
  | cons y t ih =>
    obtain ⟨j, w⟩ := y
    simp only [Tbl.find] at h
    split at h
    · rename_i hj; subst hj; cases h; exact List.mem_cons_self ..
    · exact List.mem_cons_of_mem _ (ih h)

end Sys2Proof
end

