-- ==== Sys2Proof/Laws/State.lean ====
section
/-! SUPPORT. What each update of the device leaves as it was, one lemma per field, and registers read after they are written. -/

namespace Sys2Proof.Machine

open Sys2Proof

variable (d : Dev)

@[simp] theorem Dev.modHif_regs (f : HifSt → HifSt) : (d.modHif f).regs = d.regs := rfl
@[simp] theorem Dev.modHif_hif (f : HifSt → HifSt) : (d.modHif f).hif = f d.hif := rfl
@[simp] theorem Dev.modHif_ing (f : HifSt → HifSt) : (d.modHif f).ing = d.ing := rfl
@[simp] theorem Dev.modHif_crt (f : HifSt → HifSt) : (d.modHif f).crt = d.crt := rfl
@[simp] theorem Dev.modHif_osc (f : HifSt → HifSt) : (d.modHif f).osc = d.osc := rfl
@[simp] theorem Dev.modHif_isl (f : HifSt → HifSt) : (d.modHif f).isl = d.isl := rfl
@[simp] theorem Dev.modHif_fum (f : HifSt → HifSt) : (d.modHif f).fum = d.fum := rfl
@[simp] theorem Dev.modHif_acq (f : HifSt → HifSt) : (d.modHif f).acq = d.acq := rfl
@[simp] theorem Dev.modHif_gey (f : HifSt → HifSt) : (d.modHif f).gey = d.gey := rfl
@[simp] theorem Dev.modHif_nrg (f : HifSt → HifSt) : (d.modHif f).nrg = d.nrg := rfl
@[simp] theorem Dev.modHif_cyc (f : HifSt → HifSt) : (d.modHif f).cyc = d.cyc := rfl
@[simp] theorem Dev.modHif_sch (f : HifSt → HifSt) : (d.modHif f).sch = d.sch := rfl
@[simp] theorem Dev.modHif_net (f : HifSt → HifSt) : (d.modHif f).net = d.net := rfl
@[simp] theorem Dev.modHif_tim (f : HifSt → HifSt) : (d.modHif f).tim = d.tim := rfl
@[simp] theorem Dev.modHif_fab (f : HifSt → HifSt) : (d.modHif f).fab = d.fab := rfl
@[simp] theorem Dev.modHif_snt (f : HifSt → HifSt) : (d.modHif f).snt = d.snt := rfl
@[simp] theorem Dev.modHif_saf (f : HifSt → HifSt) : (d.modHif f).saf = d.saf := rfl
@[simp] theorem Dev.modHif_clk (f : HifSt → HifSt) : (d.modHif f).clk = d.clk := rfl
@[simp] theorem Dev.modHif_inv (f : HifSt → HifSt) : (d.modHif f).inv = d.inv := rfl
@[simp] theorem Dev.modHif_out (f : HifSt → HifSt) : (d.modHif f).out = d.out := rfl
@[simp] theorem Dev.modHif_fresh (f : HifSt → HifSt) : (d.modHif f).fresh = d.fresh := rfl

@[simp] theorem Dev.modIng_regs (f : IngSt → IngSt) : (d.modIng f).regs = d.regs := rfl
@[simp] theorem Dev.modIng_hif (f : IngSt → IngSt) : (d.modIng f).hif = d.hif := rfl
@[simp] theorem Dev.modIng_ing (f : IngSt → IngSt) : (d.modIng f).ing = f d.ing := rfl
@[simp] theorem Dev.modIng_crt (f : IngSt → IngSt) : (d.modIng f).crt = d.crt := rfl
@[simp] theorem Dev.modIng_osc (f : IngSt → IngSt) : (d.modIng f).osc = d.osc := rfl
@[simp] theorem Dev.modIng_isl (f : IngSt → IngSt) : (d.modIng f).isl = d.isl := rfl
@[simp] theorem Dev.modIng_fum (f : IngSt → IngSt) : (d.modIng f).fum = d.fum := rfl
@[simp] theorem Dev.modIng_acq (f : IngSt → IngSt) : (d.modIng f).acq = d.acq := rfl
@[simp] theorem Dev.modIng_gey (f : IngSt → IngSt) : (d.modIng f).gey = d.gey := rfl
@[simp] theorem Dev.modIng_nrg (f : IngSt → IngSt) : (d.modIng f).nrg = d.nrg := rfl
@[simp] theorem Dev.modIng_cyc (f : IngSt → IngSt) : (d.modIng f).cyc = d.cyc := rfl
@[simp] theorem Dev.modIng_sch (f : IngSt → IngSt) : (d.modIng f).sch = d.sch := rfl
@[simp] theorem Dev.modIng_net (f : IngSt → IngSt) : (d.modIng f).net = d.net := rfl
@[simp] theorem Dev.modIng_tim (f : IngSt → IngSt) : (d.modIng f).tim = d.tim := rfl
@[simp] theorem Dev.modIng_fab (f : IngSt → IngSt) : (d.modIng f).fab = d.fab := rfl
@[simp] theorem Dev.modIng_snt (f : IngSt → IngSt) : (d.modIng f).snt = d.snt := rfl
@[simp] theorem Dev.modIng_saf (f : IngSt → IngSt) : (d.modIng f).saf = d.saf := rfl
@[simp] theorem Dev.modIng_clk (f : IngSt → IngSt) : (d.modIng f).clk = d.clk := rfl
@[simp] theorem Dev.modIng_inv (f : IngSt → IngSt) : (d.modIng f).inv = d.inv := rfl
@[simp] theorem Dev.modIng_out (f : IngSt → IngSt) : (d.modIng f).out = d.out := rfl
@[simp] theorem Dev.modIng_fresh (f : IngSt → IngSt) : (d.modIng f).fresh = d.fresh := rfl

@[simp] theorem Dev.modCrt_regs (f : CrtSt → CrtSt) : (d.modCrt f).regs = d.regs := rfl
@[simp] theorem Dev.modCrt_hif (f : CrtSt → CrtSt) : (d.modCrt f).hif = d.hif := rfl
@[simp] theorem Dev.modCrt_ing (f : CrtSt → CrtSt) : (d.modCrt f).ing = d.ing := rfl
@[simp] theorem Dev.modCrt_crt (f : CrtSt → CrtSt) : (d.modCrt f).crt = f d.crt := rfl
@[simp] theorem Dev.modCrt_osc (f : CrtSt → CrtSt) : (d.modCrt f).osc = d.osc := rfl
@[simp] theorem Dev.modCrt_isl (f : CrtSt → CrtSt) : (d.modCrt f).isl = d.isl := rfl
@[simp] theorem Dev.modCrt_fum (f : CrtSt → CrtSt) : (d.modCrt f).fum = d.fum := rfl
@[simp] theorem Dev.modCrt_acq (f : CrtSt → CrtSt) : (d.modCrt f).acq = d.acq := rfl
@[simp] theorem Dev.modCrt_gey (f : CrtSt → CrtSt) : (d.modCrt f).gey = d.gey := rfl
@[simp] theorem Dev.modCrt_nrg (f : CrtSt → CrtSt) : (d.modCrt f).nrg = d.nrg := rfl
@[simp] theorem Dev.modCrt_cyc (f : CrtSt → CrtSt) : (d.modCrt f).cyc = d.cyc := rfl
@[simp] theorem Dev.modCrt_sch (f : CrtSt → CrtSt) : (d.modCrt f).sch = d.sch := rfl
@[simp] theorem Dev.modCrt_net (f : CrtSt → CrtSt) : (d.modCrt f).net = d.net := rfl
@[simp] theorem Dev.modCrt_tim (f : CrtSt → CrtSt) : (d.modCrt f).tim = d.tim := rfl
@[simp] theorem Dev.modCrt_fab (f : CrtSt → CrtSt) : (d.modCrt f).fab = d.fab := rfl
@[simp] theorem Dev.modCrt_snt (f : CrtSt → CrtSt) : (d.modCrt f).snt = d.snt := rfl
@[simp] theorem Dev.modCrt_saf (f : CrtSt → CrtSt) : (d.modCrt f).saf = d.saf := rfl
@[simp] theorem Dev.modCrt_clk (f : CrtSt → CrtSt) : (d.modCrt f).clk = d.clk := rfl
@[simp] theorem Dev.modCrt_inv (f : CrtSt → CrtSt) : (d.modCrt f).inv = d.inv := rfl
@[simp] theorem Dev.modCrt_out (f : CrtSt → CrtSt) : (d.modCrt f).out = d.out := rfl
@[simp] theorem Dev.modCrt_fresh (f : CrtSt → CrtSt) : (d.modCrt f).fresh = d.fresh := rfl

@[simp] theorem Dev.modOsc_regs (f : OscSt → OscSt) : (d.modOsc f).regs = d.regs := rfl
@[simp] theorem Dev.modOsc_hif (f : OscSt → OscSt) : (d.modOsc f).hif = d.hif := rfl
@[simp] theorem Dev.modOsc_ing (f : OscSt → OscSt) : (d.modOsc f).ing = d.ing := rfl
@[simp] theorem Dev.modOsc_crt (f : OscSt → OscSt) : (d.modOsc f).crt = d.crt := rfl
@[simp] theorem Dev.modOsc_osc (f : OscSt → OscSt) : (d.modOsc f).osc = f d.osc := rfl
@[simp] theorem Dev.modOsc_isl (f : OscSt → OscSt) : (d.modOsc f).isl = d.isl := rfl
@[simp] theorem Dev.modOsc_fum (f : OscSt → OscSt) : (d.modOsc f).fum = d.fum := rfl
@[simp] theorem Dev.modOsc_acq (f : OscSt → OscSt) : (d.modOsc f).acq = d.acq := rfl
@[simp] theorem Dev.modOsc_gey (f : OscSt → OscSt) : (d.modOsc f).gey = d.gey := rfl
@[simp] theorem Dev.modOsc_nrg (f : OscSt → OscSt) : (d.modOsc f).nrg = d.nrg := rfl
@[simp] theorem Dev.modOsc_cyc (f : OscSt → OscSt) : (d.modOsc f).cyc = d.cyc := rfl
@[simp] theorem Dev.modOsc_sch (f : OscSt → OscSt) : (d.modOsc f).sch = d.sch := rfl
@[simp] theorem Dev.modOsc_net (f : OscSt → OscSt) : (d.modOsc f).net = d.net := rfl
@[simp] theorem Dev.modOsc_tim (f : OscSt → OscSt) : (d.modOsc f).tim = d.tim := rfl
@[simp] theorem Dev.modOsc_fab (f : OscSt → OscSt) : (d.modOsc f).fab = d.fab := rfl
@[simp] theorem Dev.modOsc_snt (f : OscSt → OscSt) : (d.modOsc f).snt = d.snt := rfl
@[simp] theorem Dev.modOsc_saf (f : OscSt → OscSt) : (d.modOsc f).saf = d.saf := rfl
@[simp] theorem Dev.modOsc_clk (f : OscSt → OscSt) : (d.modOsc f).clk = d.clk := rfl
@[simp] theorem Dev.modOsc_inv (f : OscSt → OscSt) : (d.modOsc f).inv = d.inv := rfl
@[simp] theorem Dev.modOsc_out (f : OscSt → OscSt) : (d.modOsc f).out = d.out := rfl
@[simp] theorem Dev.modOsc_fresh (f : OscSt → OscSt) : (d.modOsc f).fresh = d.fresh := rfl

@[simp] theorem Dev.modIsl_regs (f : IslSt → IslSt) : (d.modIsl f).regs = d.regs := rfl
@[simp] theorem Dev.modIsl_hif (f : IslSt → IslSt) : (d.modIsl f).hif = d.hif := rfl
@[simp] theorem Dev.modIsl_ing (f : IslSt → IslSt) : (d.modIsl f).ing = d.ing := rfl
@[simp] theorem Dev.modIsl_crt (f : IslSt → IslSt) : (d.modIsl f).crt = d.crt := rfl
@[simp] theorem Dev.modIsl_osc (f : IslSt → IslSt) : (d.modIsl f).osc = d.osc := rfl
@[simp] theorem Dev.modIsl_isl (f : IslSt → IslSt) : (d.modIsl f).isl = f d.isl := rfl
@[simp] theorem Dev.modIsl_fum (f : IslSt → IslSt) : (d.modIsl f).fum = d.fum := rfl
@[simp] theorem Dev.modIsl_acq (f : IslSt → IslSt) : (d.modIsl f).acq = d.acq := rfl
@[simp] theorem Dev.modIsl_gey (f : IslSt → IslSt) : (d.modIsl f).gey = d.gey := rfl
@[simp] theorem Dev.modIsl_nrg (f : IslSt → IslSt) : (d.modIsl f).nrg = d.nrg := rfl
@[simp] theorem Dev.modIsl_cyc (f : IslSt → IslSt) : (d.modIsl f).cyc = d.cyc := rfl
@[simp] theorem Dev.modIsl_sch (f : IslSt → IslSt) : (d.modIsl f).sch = d.sch := rfl
@[simp] theorem Dev.modIsl_net (f : IslSt → IslSt) : (d.modIsl f).net = d.net := rfl
@[simp] theorem Dev.modIsl_tim (f : IslSt → IslSt) : (d.modIsl f).tim = d.tim := rfl
@[simp] theorem Dev.modIsl_fab (f : IslSt → IslSt) : (d.modIsl f).fab = d.fab := rfl
@[simp] theorem Dev.modIsl_snt (f : IslSt → IslSt) : (d.modIsl f).snt = d.snt := rfl
@[simp] theorem Dev.modIsl_saf (f : IslSt → IslSt) : (d.modIsl f).saf = d.saf := rfl
@[simp] theorem Dev.modIsl_clk (f : IslSt → IslSt) : (d.modIsl f).clk = d.clk := rfl
@[simp] theorem Dev.modIsl_inv (f : IslSt → IslSt) : (d.modIsl f).inv = d.inv := rfl
@[simp] theorem Dev.modIsl_out (f : IslSt → IslSt) : (d.modIsl f).out = d.out := rfl
@[simp] theorem Dev.modIsl_fresh (f : IslSt → IslSt) : (d.modIsl f).fresh = d.fresh := rfl

@[simp] theorem Dev.modFum_regs (f : FumSt → FumSt) : (d.modFum f).regs = d.regs := rfl
@[simp] theorem Dev.modFum_hif (f : FumSt → FumSt) : (d.modFum f).hif = d.hif := rfl
@[simp] theorem Dev.modFum_ing (f : FumSt → FumSt) : (d.modFum f).ing = d.ing := rfl
@[simp] theorem Dev.modFum_crt (f : FumSt → FumSt) : (d.modFum f).crt = d.crt := rfl
@[simp] theorem Dev.modFum_osc (f : FumSt → FumSt) : (d.modFum f).osc = d.osc := rfl
@[simp] theorem Dev.modFum_isl (f : FumSt → FumSt) : (d.modFum f).isl = d.isl := rfl
@[simp] theorem Dev.modFum_fum (f : FumSt → FumSt) : (d.modFum f).fum = f d.fum := rfl
@[simp] theorem Dev.modFum_acq (f : FumSt → FumSt) : (d.modFum f).acq = d.acq := rfl
@[simp] theorem Dev.modFum_gey (f : FumSt → FumSt) : (d.modFum f).gey = d.gey := rfl
@[simp] theorem Dev.modFum_nrg (f : FumSt → FumSt) : (d.modFum f).nrg = d.nrg := rfl
@[simp] theorem Dev.modFum_cyc (f : FumSt → FumSt) : (d.modFum f).cyc = d.cyc := rfl
@[simp] theorem Dev.modFum_sch (f : FumSt → FumSt) : (d.modFum f).sch = d.sch := rfl
@[simp] theorem Dev.modFum_net (f : FumSt → FumSt) : (d.modFum f).net = d.net := rfl
@[simp] theorem Dev.modFum_tim (f : FumSt → FumSt) : (d.modFum f).tim = d.tim := rfl
@[simp] theorem Dev.modFum_fab (f : FumSt → FumSt) : (d.modFum f).fab = d.fab := rfl
@[simp] theorem Dev.modFum_snt (f : FumSt → FumSt) : (d.modFum f).snt = d.snt := rfl
@[simp] theorem Dev.modFum_saf (f : FumSt → FumSt) : (d.modFum f).saf = d.saf := rfl
@[simp] theorem Dev.modFum_clk (f : FumSt → FumSt) : (d.modFum f).clk = d.clk := rfl
@[simp] theorem Dev.modFum_inv (f : FumSt → FumSt) : (d.modFum f).inv = d.inv := rfl
@[simp] theorem Dev.modFum_out (f : FumSt → FumSt) : (d.modFum f).out = d.out := rfl
@[simp] theorem Dev.modFum_fresh (f : FumSt → FumSt) : (d.modFum f).fresh = d.fresh := rfl

@[simp] theorem Dev.modAcq_regs (f : AcqSt → AcqSt) : (d.modAcq f).regs = d.regs := rfl
@[simp] theorem Dev.modAcq_hif (f : AcqSt → AcqSt) : (d.modAcq f).hif = d.hif := rfl
@[simp] theorem Dev.modAcq_ing (f : AcqSt → AcqSt) : (d.modAcq f).ing = d.ing := rfl
@[simp] theorem Dev.modAcq_crt (f : AcqSt → AcqSt) : (d.modAcq f).crt = d.crt := rfl
@[simp] theorem Dev.modAcq_osc (f : AcqSt → AcqSt) : (d.modAcq f).osc = d.osc := rfl
@[simp] theorem Dev.modAcq_isl (f : AcqSt → AcqSt) : (d.modAcq f).isl = d.isl := rfl
@[simp] theorem Dev.modAcq_fum (f : AcqSt → AcqSt) : (d.modAcq f).fum = d.fum := rfl
@[simp] theorem Dev.modAcq_acq (f : AcqSt → AcqSt) : (d.modAcq f).acq = f d.acq := rfl
@[simp] theorem Dev.modAcq_gey (f : AcqSt → AcqSt) : (d.modAcq f).gey = d.gey := rfl
@[simp] theorem Dev.modAcq_nrg (f : AcqSt → AcqSt) : (d.modAcq f).nrg = d.nrg := rfl
@[simp] theorem Dev.modAcq_cyc (f : AcqSt → AcqSt) : (d.modAcq f).cyc = d.cyc := rfl
@[simp] theorem Dev.modAcq_sch (f : AcqSt → AcqSt) : (d.modAcq f).sch = d.sch := rfl
@[simp] theorem Dev.modAcq_net (f : AcqSt → AcqSt) : (d.modAcq f).net = d.net := rfl
@[simp] theorem Dev.modAcq_tim (f : AcqSt → AcqSt) : (d.modAcq f).tim = d.tim := rfl
@[simp] theorem Dev.modAcq_fab (f : AcqSt → AcqSt) : (d.modAcq f).fab = d.fab := rfl
@[simp] theorem Dev.modAcq_snt (f : AcqSt → AcqSt) : (d.modAcq f).snt = d.snt := rfl
@[simp] theorem Dev.modAcq_saf (f : AcqSt → AcqSt) : (d.modAcq f).saf = d.saf := rfl
@[simp] theorem Dev.modAcq_clk (f : AcqSt → AcqSt) : (d.modAcq f).clk = d.clk := rfl
@[simp] theorem Dev.modAcq_inv (f : AcqSt → AcqSt) : (d.modAcq f).inv = d.inv := rfl
@[simp] theorem Dev.modAcq_out (f : AcqSt → AcqSt) : (d.modAcq f).out = d.out := rfl
@[simp] theorem Dev.modAcq_fresh (f : AcqSt → AcqSt) : (d.modAcq f).fresh = d.fresh := rfl

@[simp] theorem Dev.modGey_regs (f : GeySt → GeySt) : (d.modGey f).regs = d.regs := rfl
@[simp] theorem Dev.modGey_hif (f : GeySt → GeySt) : (d.modGey f).hif = d.hif := rfl
@[simp] theorem Dev.modGey_ing (f : GeySt → GeySt) : (d.modGey f).ing = d.ing := rfl
@[simp] theorem Dev.modGey_crt (f : GeySt → GeySt) : (d.modGey f).crt = d.crt := rfl
@[simp] theorem Dev.modGey_osc (f : GeySt → GeySt) : (d.modGey f).osc = d.osc := rfl
@[simp] theorem Dev.modGey_isl (f : GeySt → GeySt) : (d.modGey f).isl = d.isl := rfl
@[simp] theorem Dev.modGey_fum (f : GeySt → GeySt) : (d.modGey f).fum = d.fum := rfl
@[simp] theorem Dev.modGey_acq (f : GeySt → GeySt) : (d.modGey f).acq = d.acq := rfl
@[simp] theorem Dev.modGey_gey (f : GeySt → GeySt) : (d.modGey f).gey = f d.gey := rfl
@[simp] theorem Dev.modGey_nrg (f : GeySt → GeySt) : (d.modGey f).nrg = d.nrg := rfl
@[simp] theorem Dev.modGey_cyc (f : GeySt → GeySt) : (d.modGey f).cyc = d.cyc := rfl
@[simp] theorem Dev.modGey_sch (f : GeySt → GeySt) : (d.modGey f).sch = d.sch := rfl
@[simp] theorem Dev.modGey_net (f : GeySt → GeySt) : (d.modGey f).net = d.net := rfl
@[simp] theorem Dev.modGey_tim (f : GeySt → GeySt) : (d.modGey f).tim = d.tim := rfl
@[simp] theorem Dev.modGey_fab (f : GeySt → GeySt) : (d.modGey f).fab = d.fab := rfl
@[simp] theorem Dev.modGey_snt (f : GeySt → GeySt) : (d.modGey f).snt = d.snt := rfl
@[simp] theorem Dev.modGey_saf (f : GeySt → GeySt) : (d.modGey f).saf = d.saf := rfl
@[simp] theorem Dev.modGey_clk (f : GeySt → GeySt) : (d.modGey f).clk = d.clk := rfl
@[simp] theorem Dev.modGey_inv (f : GeySt → GeySt) : (d.modGey f).inv = d.inv := rfl
@[simp] theorem Dev.modGey_out (f : GeySt → GeySt) : (d.modGey f).out = d.out := rfl
@[simp] theorem Dev.modGey_fresh (f : GeySt → GeySt) : (d.modGey f).fresh = d.fresh := rfl

@[simp] theorem Dev.modNrg_regs (f : NrgSt → NrgSt) : (d.modNrg f).regs = d.regs := rfl
@[simp] theorem Dev.modNrg_hif (f : NrgSt → NrgSt) : (d.modNrg f).hif = d.hif := rfl
@[simp] theorem Dev.modNrg_ing (f : NrgSt → NrgSt) : (d.modNrg f).ing = d.ing := rfl
@[simp] theorem Dev.modNrg_crt (f : NrgSt → NrgSt) : (d.modNrg f).crt = d.crt := rfl
@[simp] theorem Dev.modNrg_osc (f : NrgSt → NrgSt) : (d.modNrg f).osc = d.osc := rfl
@[simp] theorem Dev.modNrg_isl (f : NrgSt → NrgSt) : (d.modNrg f).isl = d.isl := rfl
@[simp] theorem Dev.modNrg_fum (f : NrgSt → NrgSt) : (d.modNrg f).fum = d.fum := rfl
@[simp] theorem Dev.modNrg_acq (f : NrgSt → NrgSt) : (d.modNrg f).acq = d.acq := rfl
@[simp] theorem Dev.modNrg_gey (f : NrgSt → NrgSt) : (d.modNrg f).gey = d.gey := rfl
@[simp] theorem Dev.modNrg_nrg (f : NrgSt → NrgSt) : (d.modNrg f).nrg = f d.nrg := rfl
@[simp] theorem Dev.modNrg_cyc (f : NrgSt → NrgSt) : (d.modNrg f).cyc = d.cyc := rfl
@[simp] theorem Dev.modNrg_sch (f : NrgSt → NrgSt) : (d.modNrg f).sch = d.sch := rfl
@[simp] theorem Dev.modNrg_net (f : NrgSt → NrgSt) : (d.modNrg f).net = d.net := rfl
@[simp] theorem Dev.modNrg_tim (f : NrgSt → NrgSt) : (d.modNrg f).tim = d.tim := rfl
@[simp] theorem Dev.modNrg_fab (f : NrgSt → NrgSt) : (d.modNrg f).fab = d.fab := rfl
@[simp] theorem Dev.modNrg_snt (f : NrgSt → NrgSt) : (d.modNrg f).snt = d.snt := rfl
@[simp] theorem Dev.modNrg_saf (f : NrgSt → NrgSt) : (d.modNrg f).saf = d.saf := rfl
@[simp] theorem Dev.modNrg_clk (f : NrgSt → NrgSt) : (d.modNrg f).clk = d.clk := rfl
@[simp] theorem Dev.modNrg_inv (f : NrgSt → NrgSt) : (d.modNrg f).inv = d.inv := rfl
@[simp] theorem Dev.modNrg_out (f : NrgSt → NrgSt) : (d.modNrg f).out = d.out := rfl
@[simp] theorem Dev.modNrg_fresh (f : NrgSt → NrgSt) : (d.modNrg f).fresh = d.fresh := rfl

@[simp] theorem Dev.modCyc_regs (f : CycSt → CycSt) : (d.modCyc f).regs = d.regs := rfl
@[simp] theorem Dev.modCyc_hif (f : CycSt → CycSt) : (d.modCyc f).hif = d.hif := rfl
@[simp] theorem Dev.modCyc_ing (f : CycSt → CycSt) : (d.modCyc f).ing = d.ing := rfl
@[simp] theorem Dev.modCyc_crt (f : CycSt → CycSt) : (d.modCyc f).crt = d.crt := rfl
@[simp] theorem Dev.modCyc_osc (f : CycSt → CycSt) : (d.modCyc f).osc = d.osc := rfl
@[simp] theorem Dev.modCyc_isl (f : CycSt → CycSt) : (d.modCyc f).isl = d.isl := rfl
@[simp] theorem Dev.modCyc_fum (f : CycSt → CycSt) : (d.modCyc f).fum = d.fum := rfl
@[simp] theorem Dev.modCyc_acq (f : CycSt → CycSt) : (d.modCyc f).acq = d.acq := rfl
@[simp] theorem Dev.modCyc_gey (f : CycSt → CycSt) : (d.modCyc f).gey = d.gey := rfl
@[simp] theorem Dev.modCyc_nrg (f : CycSt → CycSt) : (d.modCyc f).nrg = d.nrg := rfl
@[simp] theorem Dev.modCyc_cyc (f : CycSt → CycSt) : (d.modCyc f).cyc = f d.cyc := rfl
@[simp] theorem Dev.modCyc_sch (f : CycSt → CycSt) : (d.modCyc f).sch = d.sch := rfl
@[simp] theorem Dev.modCyc_net (f : CycSt → CycSt) : (d.modCyc f).net = d.net := rfl
@[simp] theorem Dev.modCyc_tim (f : CycSt → CycSt) : (d.modCyc f).tim = d.tim := rfl
@[simp] theorem Dev.modCyc_fab (f : CycSt → CycSt) : (d.modCyc f).fab = d.fab := rfl
@[simp] theorem Dev.modCyc_snt (f : CycSt → CycSt) : (d.modCyc f).snt = d.snt := rfl
@[simp] theorem Dev.modCyc_saf (f : CycSt → CycSt) : (d.modCyc f).saf = d.saf := rfl
@[simp] theorem Dev.modCyc_clk (f : CycSt → CycSt) : (d.modCyc f).clk = d.clk := rfl
@[simp] theorem Dev.modCyc_inv (f : CycSt → CycSt) : (d.modCyc f).inv = d.inv := rfl
@[simp] theorem Dev.modCyc_out (f : CycSt → CycSt) : (d.modCyc f).out = d.out := rfl
@[simp] theorem Dev.modCyc_fresh (f : CycSt → CycSt) : (d.modCyc f).fresh = d.fresh := rfl

@[simp] theorem Dev.modSch_regs (f : SchSt → SchSt) : (d.modSch f).regs = d.regs := rfl
@[simp] theorem Dev.modSch_hif (f : SchSt → SchSt) : (d.modSch f).hif = d.hif := rfl
@[simp] theorem Dev.modSch_ing (f : SchSt → SchSt) : (d.modSch f).ing = d.ing := rfl
@[simp] theorem Dev.modSch_crt (f : SchSt → SchSt) : (d.modSch f).crt = d.crt := rfl
@[simp] theorem Dev.modSch_osc (f : SchSt → SchSt) : (d.modSch f).osc = d.osc := rfl
@[simp] theorem Dev.modSch_isl (f : SchSt → SchSt) : (d.modSch f).isl = d.isl := rfl
@[simp] theorem Dev.modSch_fum (f : SchSt → SchSt) : (d.modSch f).fum = d.fum := rfl
@[simp] theorem Dev.modSch_acq (f : SchSt → SchSt) : (d.modSch f).acq = d.acq := rfl
@[simp] theorem Dev.modSch_gey (f : SchSt → SchSt) : (d.modSch f).gey = d.gey := rfl
@[simp] theorem Dev.modSch_nrg (f : SchSt → SchSt) : (d.modSch f).nrg = d.nrg := rfl
@[simp] theorem Dev.modSch_cyc (f : SchSt → SchSt) : (d.modSch f).cyc = d.cyc := rfl
@[simp] theorem Dev.modSch_sch (f : SchSt → SchSt) : (d.modSch f).sch = f d.sch := rfl
@[simp] theorem Dev.modSch_net (f : SchSt → SchSt) : (d.modSch f).net = d.net := rfl
@[simp] theorem Dev.modSch_tim (f : SchSt → SchSt) : (d.modSch f).tim = d.tim := rfl
@[simp] theorem Dev.modSch_fab (f : SchSt → SchSt) : (d.modSch f).fab = d.fab := rfl
@[simp] theorem Dev.modSch_snt (f : SchSt → SchSt) : (d.modSch f).snt = d.snt := rfl
@[simp] theorem Dev.modSch_saf (f : SchSt → SchSt) : (d.modSch f).saf = d.saf := rfl
@[simp] theorem Dev.modSch_clk (f : SchSt → SchSt) : (d.modSch f).clk = d.clk := rfl
@[simp] theorem Dev.modSch_inv (f : SchSt → SchSt) : (d.modSch f).inv = d.inv := rfl
@[simp] theorem Dev.modSch_out (f : SchSt → SchSt) : (d.modSch f).out = d.out := rfl
@[simp] theorem Dev.modSch_fresh (f : SchSt → SchSt) : (d.modSch f).fresh = d.fresh := rfl

@[simp] theorem Dev.modNet_regs (f : NetSt → NetSt) : (d.modNet f).regs = d.regs := rfl
@[simp] theorem Dev.modNet_hif (f : NetSt → NetSt) : (d.modNet f).hif = d.hif := rfl
@[simp] theorem Dev.modNet_ing (f : NetSt → NetSt) : (d.modNet f).ing = d.ing := rfl
@[simp] theorem Dev.modNet_crt (f : NetSt → NetSt) : (d.modNet f).crt = d.crt := rfl
@[simp] theorem Dev.modNet_osc (f : NetSt → NetSt) : (d.modNet f).osc = d.osc := rfl
@[simp] theorem Dev.modNet_isl (f : NetSt → NetSt) : (d.modNet f).isl = d.isl := rfl
@[simp] theorem Dev.modNet_fum (f : NetSt → NetSt) : (d.modNet f).fum = d.fum := rfl
@[simp] theorem Dev.modNet_acq (f : NetSt → NetSt) : (d.modNet f).acq = d.acq := rfl
@[simp] theorem Dev.modNet_gey (f : NetSt → NetSt) : (d.modNet f).gey = d.gey := rfl
@[simp] theorem Dev.modNet_nrg (f : NetSt → NetSt) : (d.modNet f).nrg = d.nrg := rfl
@[simp] theorem Dev.modNet_cyc (f : NetSt → NetSt) : (d.modNet f).cyc = d.cyc := rfl
@[simp] theorem Dev.modNet_sch (f : NetSt → NetSt) : (d.modNet f).sch = d.sch := rfl
@[simp] theorem Dev.modNet_net (f : NetSt → NetSt) : (d.modNet f).net = f d.net := rfl
@[simp] theorem Dev.modNet_tim (f : NetSt → NetSt) : (d.modNet f).tim = d.tim := rfl
@[simp] theorem Dev.modNet_fab (f : NetSt → NetSt) : (d.modNet f).fab = d.fab := rfl
@[simp] theorem Dev.modNet_snt (f : NetSt → NetSt) : (d.modNet f).snt = d.snt := rfl
@[simp] theorem Dev.modNet_saf (f : NetSt → NetSt) : (d.modNet f).saf = d.saf := rfl
@[simp] theorem Dev.modNet_clk (f : NetSt → NetSt) : (d.modNet f).clk = d.clk := rfl
@[simp] theorem Dev.modNet_inv (f : NetSt → NetSt) : (d.modNet f).inv = d.inv := rfl
@[simp] theorem Dev.modNet_out (f : NetSt → NetSt) : (d.modNet f).out = d.out := rfl
@[simp] theorem Dev.modNet_fresh (f : NetSt → NetSt) : (d.modNet f).fresh = d.fresh := rfl

@[simp] theorem Dev.modTim_regs (f : TimSt → TimSt) : (d.modTim f).regs = d.regs := rfl
@[simp] theorem Dev.modTim_hif (f : TimSt → TimSt) : (d.modTim f).hif = d.hif := rfl
@[simp] theorem Dev.modTim_ing (f : TimSt → TimSt) : (d.modTim f).ing = d.ing := rfl
@[simp] theorem Dev.modTim_crt (f : TimSt → TimSt) : (d.modTim f).crt = d.crt := rfl
@[simp] theorem Dev.modTim_osc (f : TimSt → TimSt) : (d.modTim f).osc = d.osc := rfl
@[simp] theorem Dev.modTim_isl (f : TimSt → TimSt) : (d.modTim f).isl = d.isl := rfl
@[simp] theorem Dev.modTim_fum (f : TimSt → TimSt) : (d.modTim f).fum = d.fum := rfl
@[simp] theorem Dev.modTim_acq (f : TimSt → TimSt) : (d.modTim f).acq = d.acq := rfl
@[simp] theorem Dev.modTim_gey (f : TimSt → TimSt) : (d.modTim f).gey = d.gey := rfl
@[simp] theorem Dev.modTim_nrg (f : TimSt → TimSt) : (d.modTim f).nrg = d.nrg := rfl
@[simp] theorem Dev.modTim_cyc (f : TimSt → TimSt) : (d.modTim f).cyc = d.cyc := rfl
@[simp] theorem Dev.modTim_sch (f : TimSt → TimSt) : (d.modTim f).sch = d.sch := rfl
@[simp] theorem Dev.modTim_net (f : TimSt → TimSt) : (d.modTim f).net = d.net := rfl
@[simp] theorem Dev.modTim_tim (f : TimSt → TimSt) : (d.modTim f).tim = f d.tim := rfl
@[simp] theorem Dev.modTim_fab (f : TimSt → TimSt) : (d.modTim f).fab = d.fab := rfl
@[simp] theorem Dev.modTim_snt (f : TimSt → TimSt) : (d.modTim f).snt = d.snt := rfl
@[simp] theorem Dev.modTim_saf (f : TimSt → TimSt) : (d.modTim f).saf = d.saf := rfl
@[simp] theorem Dev.modTim_clk (f : TimSt → TimSt) : (d.modTim f).clk = d.clk := rfl
@[simp] theorem Dev.modTim_inv (f : TimSt → TimSt) : (d.modTim f).inv = d.inv := rfl
@[simp] theorem Dev.modTim_out (f : TimSt → TimSt) : (d.modTim f).out = d.out := rfl
@[simp] theorem Dev.modTim_fresh (f : TimSt → TimSt) : (d.modTim f).fresh = d.fresh := rfl

@[simp] theorem Dev.modFab_regs (f : FabSt → FabSt) : (d.modFab f).regs = d.regs := rfl
@[simp] theorem Dev.modFab_hif (f : FabSt → FabSt) : (d.modFab f).hif = d.hif := rfl
@[simp] theorem Dev.modFab_ing (f : FabSt → FabSt) : (d.modFab f).ing = d.ing := rfl
@[simp] theorem Dev.modFab_crt (f : FabSt → FabSt) : (d.modFab f).crt = d.crt := rfl
@[simp] theorem Dev.modFab_osc (f : FabSt → FabSt) : (d.modFab f).osc = d.osc := rfl
@[simp] theorem Dev.modFab_isl (f : FabSt → FabSt) : (d.modFab f).isl = d.isl := rfl
@[simp] theorem Dev.modFab_fum (f : FabSt → FabSt) : (d.modFab f).fum = d.fum := rfl
@[simp] theorem Dev.modFab_acq (f : FabSt → FabSt) : (d.modFab f).acq = d.acq := rfl
@[simp] theorem Dev.modFab_gey (f : FabSt → FabSt) : (d.modFab f).gey = d.gey := rfl
@[simp] theorem Dev.modFab_nrg (f : FabSt → FabSt) : (d.modFab f).nrg = d.nrg := rfl
@[simp] theorem Dev.modFab_cyc (f : FabSt → FabSt) : (d.modFab f).cyc = d.cyc := rfl
@[simp] theorem Dev.modFab_sch (f : FabSt → FabSt) : (d.modFab f).sch = d.sch := rfl
@[simp] theorem Dev.modFab_net (f : FabSt → FabSt) : (d.modFab f).net = d.net := rfl
@[simp] theorem Dev.modFab_tim (f : FabSt → FabSt) : (d.modFab f).tim = d.tim := rfl
@[simp] theorem Dev.modFab_fab (f : FabSt → FabSt) : (d.modFab f).fab = f d.fab := rfl
@[simp] theorem Dev.modFab_snt (f : FabSt → FabSt) : (d.modFab f).snt = d.snt := rfl
@[simp] theorem Dev.modFab_saf (f : FabSt → FabSt) : (d.modFab f).saf = d.saf := rfl
@[simp] theorem Dev.modFab_clk (f : FabSt → FabSt) : (d.modFab f).clk = d.clk := rfl
@[simp] theorem Dev.modFab_inv (f : FabSt → FabSt) : (d.modFab f).inv = d.inv := rfl
@[simp] theorem Dev.modFab_out (f : FabSt → FabSt) : (d.modFab f).out = d.out := rfl
@[simp] theorem Dev.modFab_fresh (f : FabSt → FabSt) : (d.modFab f).fresh = d.fresh := rfl

@[simp] theorem Dev.modSnt_regs (f : SntSt → SntSt) : (d.modSnt f).regs = d.regs := rfl
@[simp] theorem Dev.modSnt_hif (f : SntSt → SntSt) : (d.modSnt f).hif = d.hif := rfl
@[simp] theorem Dev.modSnt_ing (f : SntSt → SntSt) : (d.modSnt f).ing = d.ing := rfl
@[simp] theorem Dev.modSnt_crt (f : SntSt → SntSt) : (d.modSnt f).crt = d.crt := rfl
@[simp] theorem Dev.modSnt_osc (f : SntSt → SntSt) : (d.modSnt f).osc = d.osc := rfl
@[simp] theorem Dev.modSnt_isl (f : SntSt → SntSt) : (d.modSnt f).isl = d.isl := rfl
@[simp] theorem Dev.modSnt_fum (f : SntSt → SntSt) : (d.modSnt f).fum = d.fum := rfl
@[simp] theorem Dev.modSnt_acq (f : SntSt → SntSt) : (d.modSnt f).acq = d.acq := rfl
@[simp] theorem Dev.modSnt_gey (f : SntSt → SntSt) : (d.modSnt f).gey = d.gey := rfl
@[simp] theorem Dev.modSnt_nrg (f : SntSt → SntSt) : (d.modSnt f).nrg = d.nrg := rfl
@[simp] theorem Dev.modSnt_cyc (f : SntSt → SntSt) : (d.modSnt f).cyc = d.cyc := rfl
@[simp] theorem Dev.modSnt_sch (f : SntSt → SntSt) : (d.modSnt f).sch = d.sch := rfl
@[simp] theorem Dev.modSnt_net (f : SntSt → SntSt) : (d.modSnt f).net = d.net := rfl
@[simp] theorem Dev.modSnt_tim (f : SntSt → SntSt) : (d.modSnt f).tim = d.tim := rfl
@[simp] theorem Dev.modSnt_fab (f : SntSt → SntSt) : (d.modSnt f).fab = d.fab := rfl
@[simp] theorem Dev.modSnt_snt (f : SntSt → SntSt) : (d.modSnt f).snt = f d.snt := rfl
@[simp] theorem Dev.modSnt_saf (f : SntSt → SntSt) : (d.modSnt f).saf = d.saf := rfl
@[simp] theorem Dev.modSnt_clk (f : SntSt → SntSt) : (d.modSnt f).clk = d.clk := rfl
@[simp] theorem Dev.modSnt_inv (f : SntSt → SntSt) : (d.modSnt f).inv = d.inv := rfl
@[simp] theorem Dev.modSnt_out (f : SntSt → SntSt) : (d.modSnt f).out = d.out := rfl
@[simp] theorem Dev.modSnt_fresh (f : SntSt → SntSt) : (d.modSnt f).fresh = d.fresh := rfl

@[simp] theorem Dev.modSaf_regs (f : SafSt → SafSt) : (d.modSaf f).regs = d.regs := rfl
@[simp] theorem Dev.modSaf_hif (f : SafSt → SafSt) : (d.modSaf f).hif = d.hif := rfl
@[simp] theorem Dev.modSaf_ing (f : SafSt → SafSt) : (d.modSaf f).ing = d.ing := rfl
@[simp] theorem Dev.modSaf_crt (f : SafSt → SafSt) : (d.modSaf f).crt = d.crt := rfl
@[simp] theorem Dev.modSaf_osc (f : SafSt → SafSt) : (d.modSaf f).osc = d.osc := rfl
@[simp] theorem Dev.modSaf_isl (f : SafSt → SafSt) : (d.modSaf f).isl = d.isl := rfl
@[simp] theorem Dev.modSaf_fum (f : SafSt → SafSt) : (d.modSaf f).fum = d.fum := rfl
@[simp] theorem Dev.modSaf_acq (f : SafSt → SafSt) : (d.modSaf f).acq = d.acq := rfl
@[simp] theorem Dev.modSaf_gey (f : SafSt → SafSt) : (d.modSaf f).gey = d.gey := rfl
@[simp] theorem Dev.modSaf_nrg (f : SafSt → SafSt) : (d.modSaf f).nrg = d.nrg := rfl
@[simp] theorem Dev.modSaf_cyc (f : SafSt → SafSt) : (d.modSaf f).cyc = d.cyc := rfl
@[simp] theorem Dev.modSaf_sch (f : SafSt → SafSt) : (d.modSaf f).sch = d.sch := rfl
@[simp] theorem Dev.modSaf_net (f : SafSt → SafSt) : (d.modSaf f).net = d.net := rfl
@[simp] theorem Dev.modSaf_tim (f : SafSt → SafSt) : (d.modSaf f).tim = d.tim := rfl
@[simp] theorem Dev.modSaf_fab (f : SafSt → SafSt) : (d.modSaf f).fab = d.fab := rfl
@[simp] theorem Dev.modSaf_snt (f : SafSt → SafSt) : (d.modSaf f).snt = d.snt := rfl
@[simp] theorem Dev.modSaf_saf (f : SafSt → SafSt) : (d.modSaf f).saf = f d.saf := rfl
@[simp] theorem Dev.modSaf_clk (f : SafSt → SafSt) : (d.modSaf f).clk = d.clk := rfl
@[simp] theorem Dev.modSaf_inv (f : SafSt → SafSt) : (d.modSaf f).inv = d.inv := rfl
@[simp] theorem Dev.modSaf_out (f : SafSt → SafSt) : (d.modSaf f).out = d.out := rfl
@[simp] theorem Dev.modSaf_fresh (f : SafSt → SafSt) : (d.modSaf f).fresh = d.fresh := rfl

@[simp] theorem Dev.modClk_regs (f : ClkSt → ClkSt) : (d.modClk f).regs = d.regs := rfl
@[simp] theorem Dev.modClk_hif (f : ClkSt → ClkSt) : (d.modClk f).hif = d.hif := rfl
@[simp] theorem Dev.modClk_ing (f : ClkSt → ClkSt) : (d.modClk f).ing = d.ing := rfl
@[simp] theorem Dev.modClk_crt (f : ClkSt → ClkSt) : (d.modClk f).crt = d.crt := rfl
@[simp] theorem Dev.modClk_osc (f : ClkSt → ClkSt) : (d.modClk f).osc = d.osc := rfl
@[simp] theorem Dev.modClk_isl (f : ClkSt → ClkSt) : (d.modClk f).isl = d.isl := rfl
@[simp] theorem Dev.modClk_fum (f : ClkSt → ClkSt) : (d.modClk f).fum = d.fum := rfl
@[simp] theorem Dev.modClk_acq (f : ClkSt → ClkSt) : (d.modClk f).acq = d.acq := rfl
@[simp] theorem Dev.modClk_gey (f : ClkSt → ClkSt) : (d.modClk f).gey = d.gey := rfl
@[simp] theorem Dev.modClk_nrg (f : ClkSt → ClkSt) : (d.modClk f).nrg = d.nrg := rfl
@[simp] theorem Dev.modClk_cyc (f : ClkSt → ClkSt) : (d.modClk f).cyc = d.cyc := rfl
@[simp] theorem Dev.modClk_sch (f : ClkSt → ClkSt) : (d.modClk f).sch = d.sch := rfl
@[simp] theorem Dev.modClk_net (f : ClkSt → ClkSt) : (d.modClk f).net = d.net := rfl
@[simp] theorem Dev.modClk_tim (f : ClkSt → ClkSt) : (d.modClk f).tim = d.tim := rfl
@[simp] theorem Dev.modClk_fab (f : ClkSt → ClkSt) : (d.modClk f).fab = d.fab := rfl
@[simp] theorem Dev.modClk_snt (f : ClkSt → ClkSt) : (d.modClk f).snt = d.snt := rfl
@[simp] theorem Dev.modClk_saf (f : ClkSt → ClkSt) : (d.modClk f).saf = d.saf := rfl
@[simp] theorem Dev.modClk_clk (f : ClkSt → ClkSt) : (d.modClk f).clk = f d.clk := rfl
@[simp] theorem Dev.modClk_inv (f : ClkSt → ClkSt) : (d.modClk f).inv = d.inv := rfl
@[simp] theorem Dev.modClk_out (f : ClkSt → ClkSt) : (d.modClk f).out = d.out := rfl
@[simp] theorem Dev.modClk_fresh (f : ClkSt → ClkSt) : (d.modClk f).fresh = d.fresh := rfl

@[simp] theorem Dev.modInv_regs (f : InvSt → InvSt) : (d.modInv f).regs = d.regs := rfl
@[simp] theorem Dev.modInv_hif (f : InvSt → InvSt) : (d.modInv f).hif = d.hif := rfl
@[simp] theorem Dev.modInv_ing (f : InvSt → InvSt) : (d.modInv f).ing = d.ing := rfl
@[simp] theorem Dev.modInv_crt (f : InvSt → InvSt) : (d.modInv f).crt = d.crt := rfl
@[simp] theorem Dev.modInv_osc (f : InvSt → InvSt) : (d.modInv f).osc = d.osc := rfl
@[simp] theorem Dev.modInv_isl (f : InvSt → InvSt) : (d.modInv f).isl = d.isl := rfl
@[simp] theorem Dev.modInv_fum (f : InvSt → InvSt) : (d.modInv f).fum = d.fum := rfl
@[simp] theorem Dev.modInv_acq (f : InvSt → InvSt) : (d.modInv f).acq = d.acq := rfl
@[simp] theorem Dev.modInv_gey (f : InvSt → InvSt) : (d.modInv f).gey = d.gey := rfl
@[simp] theorem Dev.modInv_nrg (f : InvSt → InvSt) : (d.modInv f).nrg = d.nrg := rfl
@[simp] theorem Dev.modInv_cyc (f : InvSt → InvSt) : (d.modInv f).cyc = d.cyc := rfl
@[simp] theorem Dev.modInv_sch (f : InvSt → InvSt) : (d.modInv f).sch = d.sch := rfl
@[simp] theorem Dev.modInv_net (f : InvSt → InvSt) : (d.modInv f).net = d.net := rfl
@[simp] theorem Dev.modInv_tim (f : InvSt → InvSt) : (d.modInv f).tim = d.tim := rfl
@[simp] theorem Dev.modInv_fab (f : InvSt → InvSt) : (d.modInv f).fab = d.fab := rfl
@[simp] theorem Dev.modInv_snt (f : InvSt → InvSt) : (d.modInv f).snt = d.snt := rfl
@[simp] theorem Dev.modInv_saf (f : InvSt → InvSt) : (d.modInv f).saf = d.saf := rfl
@[simp] theorem Dev.modInv_clk (f : InvSt → InvSt) : (d.modInv f).clk = d.clk := rfl
@[simp] theorem Dev.modInv_inv (f : InvSt → InvSt) : (d.modInv f).inv = f d.inv := rfl
@[simp] theorem Dev.modInv_out (f : InvSt → InvSt) : (d.modInv f).out = d.out := rfl
@[simp] theorem Dev.modInv_fresh (f : InvSt → InvSt) : (d.modInv f).fresh = d.fresh := rfl

@[simp] theorem Dev.setReg_hif (off : Nat) (v : Word) : (d.setReg off v).hif = d.hif := rfl
@[simp] theorem Dev.setReg_ing (off : Nat) (v : Word) : (d.setReg off v).ing = d.ing := rfl
@[simp] theorem Dev.setReg_crt (off : Nat) (v : Word) : (d.setReg off v).crt = d.crt := rfl
@[simp] theorem Dev.setReg_osc (off : Nat) (v : Word) : (d.setReg off v).osc = d.osc := rfl
@[simp] theorem Dev.setReg_isl (off : Nat) (v : Word) : (d.setReg off v).isl = d.isl := rfl
@[simp] theorem Dev.setReg_fum (off : Nat) (v : Word) : (d.setReg off v).fum = d.fum := rfl
@[simp] theorem Dev.setReg_acq (off : Nat) (v : Word) : (d.setReg off v).acq = d.acq := rfl
@[simp] theorem Dev.setReg_gey (off : Nat) (v : Word) : (d.setReg off v).gey = d.gey := rfl
@[simp] theorem Dev.setReg_nrg (off : Nat) (v : Word) : (d.setReg off v).nrg = d.nrg := rfl
@[simp] theorem Dev.setReg_cyc (off : Nat) (v : Word) : (d.setReg off v).cyc = d.cyc := rfl
@[simp] theorem Dev.setReg_sch (off : Nat) (v : Word) : (d.setReg off v).sch = d.sch := rfl
@[simp] theorem Dev.setReg_net (off : Nat) (v : Word) : (d.setReg off v).net = d.net := rfl
@[simp] theorem Dev.setReg_tim (off : Nat) (v : Word) : (d.setReg off v).tim = d.tim := rfl
@[simp] theorem Dev.setReg_fab (off : Nat) (v : Word) : (d.setReg off v).fab = d.fab := rfl
@[simp] theorem Dev.setReg_snt (off : Nat) (v : Word) : (d.setReg off v).snt = d.snt := rfl
@[simp] theorem Dev.setReg_saf (off : Nat) (v : Word) : (d.setReg off v).saf = d.saf := rfl
@[simp] theorem Dev.setReg_clk (off : Nat) (v : Word) : (d.setReg off v).clk = d.clk := rfl
@[simp] theorem Dev.setReg_inv (off : Nat) (v : Word) : (d.setReg off v).inv = d.inv := rfl
@[simp] theorem Dev.setReg_out (off : Nat) (v : Word) : (d.setReg off v).out = d.out := rfl
@[simp] theorem Dev.setReg_fresh (off : Nat) (v : Word) : (d.setReg off v).fresh = d.fresh := rfl

@[simp] theorem Dev.setRegN_hif (off v : Nat) : (d.setRegN off v).hif = d.hif := rfl
@[simp] theorem Dev.setRegN_ing (off v : Nat) : (d.setRegN off v).ing = d.ing := rfl
@[simp] theorem Dev.setRegN_crt (off v : Nat) : (d.setRegN off v).crt = d.crt := rfl
@[simp] theorem Dev.setRegN_osc (off v : Nat) : (d.setRegN off v).osc = d.osc := rfl
@[simp] theorem Dev.setRegN_isl (off v : Nat) : (d.setRegN off v).isl = d.isl := rfl
@[simp] theorem Dev.setRegN_fum (off v : Nat) : (d.setRegN off v).fum = d.fum := rfl
@[simp] theorem Dev.setRegN_acq (off v : Nat) : (d.setRegN off v).acq = d.acq := rfl
@[simp] theorem Dev.setRegN_gey (off v : Nat) : (d.setRegN off v).gey = d.gey := rfl
@[simp] theorem Dev.setRegN_nrg (off v : Nat) : (d.setRegN off v).nrg = d.nrg := rfl
@[simp] theorem Dev.setRegN_cyc (off v : Nat) : (d.setRegN off v).cyc = d.cyc := rfl
@[simp] theorem Dev.setRegN_sch (off v : Nat) : (d.setRegN off v).sch = d.sch := rfl
@[simp] theorem Dev.setRegN_net (off v : Nat) : (d.setRegN off v).net = d.net := rfl
@[simp] theorem Dev.setRegN_tim (off v : Nat) : (d.setRegN off v).tim = d.tim := rfl
@[simp] theorem Dev.setRegN_fab (off v : Nat) : (d.setRegN off v).fab = d.fab := rfl
@[simp] theorem Dev.setRegN_snt (off v : Nat) : (d.setRegN off v).snt = d.snt := rfl
@[simp] theorem Dev.setRegN_saf (off v : Nat) : (d.setRegN off v).saf = d.saf := rfl
@[simp] theorem Dev.setRegN_clk (off v : Nat) : (d.setRegN off v).clk = d.clk := rfl
@[simp] theorem Dev.setRegN_inv (off v : Nat) : (d.setRegN off v).inv = d.inv := rfl
@[simp] theorem Dev.setRegN_out (off v : Nat) : (d.setRegN off v).out = d.out := rfl
@[simp] theorem Dev.setRegN_fresh (off v : Nat) : (d.setRegN off v).fresh = d.fresh := rfl

@[simp] theorem Dev.setFld_hif (f : FieldAt) (v : Nat) : (d.setFld f v).hif = d.hif := rfl
@[simp] theorem Dev.setFld_ing (f : FieldAt) (v : Nat) : (d.setFld f v).ing = d.ing := rfl
@[simp] theorem Dev.setFld_crt (f : FieldAt) (v : Nat) : (d.setFld f v).crt = d.crt := rfl
@[simp] theorem Dev.setFld_osc (f : FieldAt) (v : Nat) : (d.setFld f v).osc = d.osc := rfl
@[simp] theorem Dev.setFld_isl (f : FieldAt) (v : Nat) : (d.setFld f v).isl = d.isl := rfl
@[simp] theorem Dev.setFld_fum (f : FieldAt) (v : Nat) : (d.setFld f v).fum = d.fum := rfl
@[simp] theorem Dev.setFld_acq (f : FieldAt) (v : Nat) : (d.setFld f v).acq = d.acq := rfl
@[simp] theorem Dev.setFld_gey (f : FieldAt) (v : Nat) : (d.setFld f v).gey = d.gey := rfl
@[simp] theorem Dev.setFld_nrg (f : FieldAt) (v : Nat) : (d.setFld f v).nrg = d.nrg := rfl
@[simp] theorem Dev.setFld_cyc (f : FieldAt) (v : Nat) : (d.setFld f v).cyc = d.cyc := rfl
@[simp] theorem Dev.setFld_sch (f : FieldAt) (v : Nat) : (d.setFld f v).sch = d.sch := rfl
@[simp] theorem Dev.setFld_net (f : FieldAt) (v : Nat) : (d.setFld f v).net = d.net := rfl
@[simp] theorem Dev.setFld_tim (f : FieldAt) (v : Nat) : (d.setFld f v).tim = d.tim := rfl
@[simp] theorem Dev.setFld_fab (f : FieldAt) (v : Nat) : (d.setFld f v).fab = d.fab := rfl
@[simp] theorem Dev.setFld_snt (f : FieldAt) (v : Nat) : (d.setFld f v).snt = d.snt := rfl
@[simp] theorem Dev.setFld_saf (f : FieldAt) (v : Nat) : (d.setFld f v).saf = d.saf := rfl
@[simp] theorem Dev.setFld_clk (f : FieldAt) (v : Nat) : (d.setFld f v).clk = d.clk := rfl
@[simp] theorem Dev.setFld_inv (f : FieldAt) (v : Nat) : (d.setFld f v).inv = d.inv := rfl
@[simp] theorem Dev.setFld_out (f : FieldAt) (v : Nat) : (d.setFld f v).out = d.out := rfl
@[simp] theorem Dev.setFld_fresh (f : FieldAt) (v : Nat) : (d.setFld f v).fresh = d.fresh := rfl

@[simp] theorem Dev.setBit_hif (f : FieldAt) (b : Bool) : (d.setBit f b).hif = d.hif := rfl
@[simp] theorem Dev.setBit_ing (f : FieldAt) (b : Bool) : (d.setBit f b).ing = d.ing := rfl
@[simp] theorem Dev.setBit_crt (f : FieldAt) (b : Bool) : (d.setBit f b).crt = d.crt := rfl
@[simp] theorem Dev.setBit_osc (f : FieldAt) (b : Bool) : (d.setBit f b).osc = d.osc := rfl
@[simp] theorem Dev.setBit_isl (f : FieldAt) (b : Bool) : (d.setBit f b).isl = d.isl := rfl
@[simp] theorem Dev.setBit_fum (f : FieldAt) (b : Bool) : (d.setBit f b).fum = d.fum := rfl
@[simp] theorem Dev.setBit_acq (f : FieldAt) (b : Bool) : (d.setBit f b).acq = d.acq := rfl
@[simp] theorem Dev.setBit_gey (f : FieldAt) (b : Bool) : (d.setBit f b).gey = d.gey := rfl
@[simp] theorem Dev.setBit_nrg (f : FieldAt) (b : Bool) : (d.setBit f b).nrg = d.nrg := rfl
@[simp] theorem Dev.setBit_cyc (f : FieldAt) (b : Bool) : (d.setBit f b).cyc = d.cyc := rfl
@[simp] theorem Dev.setBit_sch (f : FieldAt) (b : Bool) : (d.setBit f b).sch = d.sch := rfl
@[simp] theorem Dev.setBit_net (f : FieldAt) (b : Bool) : (d.setBit f b).net = d.net := rfl
@[simp] theorem Dev.setBit_tim (f : FieldAt) (b : Bool) : (d.setBit f b).tim = d.tim := rfl
@[simp] theorem Dev.setBit_fab (f : FieldAt) (b : Bool) : (d.setBit f b).fab = d.fab := rfl
@[simp] theorem Dev.setBit_snt (f : FieldAt) (b : Bool) : (d.setBit f b).snt = d.snt := rfl
@[simp] theorem Dev.setBit_saf (f : FieldAt) (b : Bool) : (d.setBit f b).saf = d.saf := rfl
@[simp] theorem Dev.setBit_clk (f : FieldAt) (b : Bool) : (d.setBit f b).clk = d.clk := rfl
@[simp] theorem Dev.setBit_inv (f : FieldAt) (b : Bool) : (d.setBit f b).inv = d.inv := rfl
@[simp] theorem Dev.setBit_out (f : FieldAt) (b : Bool) : (d.setBit f b).out = d.out := rfl
@[simp] theorem Dev.setBit_fresh (f : FieldAt) (b : Bool) : (d.setBit f b).fresh = d.fresh := rfl

@[simp] theorem Dev.setFbit_hif (f : FieldAt) (i : Nat) (b : Bool) : (d.setFbit f i b).hif = d.hif := rfl
@[simp] theorem Dev.setFbit_ing (f : FieldAt) (i : Nat) (b : Bool) : (d.setFbit f i b).ing = d.ing := rfl
@[simp] theorem Dev.setFbit_crt (f : FieldAt) (i : Nat) (b : Bool) : (d.setFbit f i b).crt = d.crt := rfl
@[simp] theorem Dev.setFbit_osc (f : FieldAt) (i : Nat) (b : Bool) : (d.setFbit f i b).osc = d.osc := rfl
@[simp] theorem Dev.setFbit_isl (f : FieldAt) (i : Nat) (b : Bool) : (d.setFbit f i b).isl = d.isl := rfl
@[simp] theorem Dev.setFbit_fum (f : FieldAt) (i : Nat) (b : Bool) : (d.setFbit f i b).fum = d.fum := rfl
@[simp] theorem Dev.setFbit_acq (f : FieldAt) (i : Nat) (b : Bool) : (d.setFbit f i b).acq = d.acq := rfl
@[simp] theorem Dev.setFbit_gey (f : FieldAt) (i : Nat) (b : Bool) : (d.setFbit f i b).gey = d.gey := rfl
@[simp] theorem Dev.setFbit_nrg (f : FieldAt) (i : Nat) (b : Bool) : (d.setFbit f i b).nrg = d.nrg := rfl
@[simp] theorem Dev.setFbit_cyc (f : FieldAt) (i : Nat) (b : Bool) : (d.setFbit f i b).cyc = d.cyc := rfl
@[simp] theorem Dev.setFbit_sch (f : FieldAt) (i : Nat) (b : Bool) : (d.setFbit f i b).sch = d.sch := rfl
@[simp] theorem Dev.setFbit_net (f : FieldAt) (i : Nat) (b : Bool) : (d.setFbit f i b).net = d.net := rfl
@[simp] theorem Dev.setFbit_tim (f : FieldAt) (i : Nat) (b : Bool) : (d.setFbit f i b).tim = d.tim := rfl
@[simp] theorem Dev.setFbit_fab (f : FieldAt) (i : Nat) (b : Bool) : (d.setFbit f i b).fab = d.fab := rfl
@[simp] theorem Dev.setFbit_snt (f : FieldAt) (i : Nat) (b : Bool) : (d.setFbit f i b).snt = d.snt := rfl
@[simp] theorem Dev.setFbit_saf (f : FieldAt) (i : Nat) (b : Bool) : (d.setFbit f i b).saf = d.saf := rfl
@[simp] theorem Dev.setFbit_clk (f : FieldAt) (i : Nat) (b : Bool) : (d.setFbit f i b).clk = d.clk := rfl
@[simp] theorem Dev.setFbit_inv (f : FieldAt) (i : Nat) (b : Bool) : (d.setFbit f i b).inv = d.inv := rfl
@[simp] theorem Dev.setFbit_out (f : FieldAt) (i : Nat) (b : Bool) : (d.setFbit f i b).out = d.out := rfl
@[simp] theorem Dev.setFbit_fresh (f : FieldAt) (i : Nat) (b : Bool) : (d.setFbit f i b).fresh = d.fresh := rfl

@[simp] theorem Dev.count_hif (off n : Nat) : (d.count off n).hif = d.hif := rfl
@[simp] theorem Dev.count_ing (off n : Nat) : (d.count off n).ing = d.ing := rfl
@[simp] theorem Dev.count_crt (off n : Nat) : (d.count off n).crt = d.crt := rfl
@[simp] theorem Dev.count_osc (off n : Nat) : (d.count off n).osc = d.osc := rfl
@[simp] theorem Dev.count_isl (off n : Nat) : (d.count off n).isl = d.isl := rfl
@[simp] theorem Dev.count_fum (off n : Nat) : (d.count off n).fum = d.fum := rfl
@[simp] theorem Dev.count_acq (off n : Nat) : (d.count off n).acq = d.acq := rfl
@[simp] theorem Dev.count_gey (off n : Nat) : (d.count off n).gey = d.gey := rfl
@[simp] theorem Dev.count_nrg (off n : Nat) : (d.count off n).nrg = d.nrg := rfl
@[simp] theorem Dev.count_cyc (off n : Nat) : (d.count off n).cyc = d.cyc := rfl
@[simp] theorem Dev.count_sch (off n : Nat) : (d.count off n).sch = d.sch := rfl
@[simp] theorem Dev.count_net (off n : Nat) : (d.count off n).net = d.net := rfl
@[simp] theorem Dev.count_tim (off n : Nat) : (d.count off n).tim = d.tim := rfl
@[simp] theorem Dev.count_fab (off n : Nat) : (d.count off n).fab = d.fab := rfl
@[simp] theorem Dev.count_snt (off n : Nat) : (d.count off n).snt = d.snt := rfl
@[simp] theorem Dev.count_saf (off n : Nat) : (d.count off n).saf = d.saf := rfl
@[simp] theorem Dev.count_clk (off n : Nat) : (d.count off n).clk = d.clk := rfl
@[simp] theorem Dev.count_inv (off n : Nat) : (d.count off n).inv = d.inv := rfl
@[simp] theorem Dev.count_out (off n : Nat) : (d.count off n).out = d.out := rfl
@[simp] theorem Dev.count_fresh (off n : Nat) : (d.count off n).fresh = d.fresh := rfl

@[simp] theorem Dev.setReg64_hif (lo v : Nat) : (d.setReg64 lo v).hif = d.hif := rfl
@[simp] theorem Dev.setReg64_ing (lo v : Nat) : (d.setReg64 lo v).ing = d.ing := rfl
@[simp] theorem Dev.setReg64_crt (lo v : Nat) : (d.setReg64 lo v).crt = d.crt := rfl
@[simp] theorem Dev.setReg64_osc (lo v : Nat) : (d.setReg64 lo v).osc = d.osc := rfl
@[simp] theorem Dev.setReg64_isl (lo v : Nat) : (d.setReg64 lo v).isl = d.isl := rfl
@[simp] theorem Dev.setReg64_fum (lo v : Nat) : (d.setReg64 lo v).fum = d.fum := rfl
@[simp] theorem Dev.setReg64_acq (lo v : Nat) : (d.setReg64 lo v).acq = d.acq := rfl
@[simp] theorem Dev.setReg64_gey (lo v : Nat) : (d.setReg64 lo v).gey = d.gey := rfl
@[simp] theorem Dev.setReg64_nrg (lo v : Nat) : (d.setReg64 lo v).nrg = d.nrg := rfl
@[simp] theorem Dev.setReg64_cyc (lo v : Nat) : (d.setReg64 lo v).cyc = d.cyc := rfl
@[simp] theorem Dev.setReg64_sch (lo v : Nat) : (d.setReg64 lo v).sch = d.sch := rfl
@[simp] theorem Dev.setReg64_net (lo v : Nat) : (d.setReg64 lo v).net = d.net := rfl
@[simp] theorem Dev.setReg64_tim (lo v : Nat) : (d.setReg64 lo v).tim = d.tim := rfl
@[simp] theorem Dev.setReg64_fab (lo v : Nat) : (d.setReg64 lo v).fab = d.fab := rfl
@[simp] theorem Dev.setReg64_snt (lo v : Nat) : (d.setReg64 lo v).snt = d.snt := rfl
@[simp] theorem Dev.setReg64_saf (lo v : Nat) : (d.setReg64 lo v).saf = d.saf := rfl
@[simp] theorem Dev.setReg64_clk (lo v : Nat) : (d.setReg64 lo v).clk = d.clk := rfl
@[simp] theorem Dev.setReg64_inv (lo v : Nat) : (d.setReg64 lo v).inv = d.inv := rfl
@[simp] theorem Dev.setReg64_out (lo v : Nat) : (d.setReg64 lo v).out = d.out := rfl
@[simp] theorem Dev.setReg64_fresh (lo v : Nat) : (d.setReg64 lo v).fresh = d.fresh := rfl

@[simp] theorem Dev.count64_hif (lo n : Nat) : (d.count64 lo n).hif = d.hif := rfl
@[simp] theorem Dev.count64_ing (lo n : Nat) : (d.count64 lo n).ing = d.ing := rfl
@[simp] theorem Dev.count64_crt (lo n : Nat) : (d.count64 lo n).crt = d.crt := rfl
@[simp] theorem Dev.count64_osc (lo n : Nat) : (d.count64 lo n).osc = d.osc := rfl
@[simp] theorem Dev.count64_isl (lo n : Nat) : (d.count64 lo n).isl = d.isl := rfl
@[simp] theorem Dev.count64_fum (lo n : Nat) : (d.count64 lo n).fum = d.fum := rfl
@[simp] theorem Dev.count64_acq (lo n : Nat) : (d.count64 lo n).acq = d.acq := rfl
@[simp] theorem Dev.count64_gey (lo n : Nat) : (d.count64 lo n).gey = d.gey := rfl
@[simp] theorem Dev.count64_nrg (lo n : Nat) : (d.count64 lo n).nrg = d.nrg := rfl
@[simp] theorem Dev.count64_cyc (lo n : Nat) : (d.count64 lo n).cyc = d.cyc := rfl
@[simp] theorem Dev.count64_sch (lo n : Nat) : (d.count64 lo n).sch = d.sch := rfl
@[simp] theorem Dev.count64_net (lo n : Nat) : (d.count64 lo n).net = d.net := rfl
@[simp] theorem Dev.count64_tim (lo n : Nat) : (d.count64 lo n).tim = d.tim := rfl
@[simp] theorem Dev.count64_fab (lo n : Nat) : (d.count64 lo n).fab = d.fab := rfl
@[simp] theorem Dev.count64_snt (lo n : Nat) : (d.count64 lo n).snt = d.snt := rfl
@[simp] theorem Dev.count64_saf (lo n : Nat) : (d.count64 lo n).saf = d.saf := rfl
@[simp] theorem Dev.count64_clk (lo n : Nat) : (d.count64 lo n).clk = d.clk := rfl
@[simp] theorem Dev.count64_inv (lo n : Nat) : (d.count64 lo n).inv = d.inv := rfl
@[simp] theorem Dev.count64_out (lo n : Nat) : (d.count64 lo n).out = d.out := rfl
@[simp] theorem Dev.count64_fresh (lo n : Nat) : (d.count64 lo n).fresh = d.fresh := rfl

@[simp] theorem Dev.emit_regs (o : Out) : (d.emit o).regs = d.regs := rfl
@[simp] theorem Dev.emit_hif (o : Out) : (d.emit o).hif = d.hif := rfl
@[simp] theorem Dev.emit_ing (o : Out) : (d.emit o).ing = d.ing := rfl
@[simp] theorem Dev.emit_crt (o : Out) : (d.emit o).crt = d.crt := rfl
@[simp] theorem Dev.emit_osc (o : Out) : (d.emit o).osc = d.osc := rfl
@[simp] theorem Dev.emit_isl (o : Out) : (d.emit o).isl = d.isl := rfl
@[simp] theorem Dev.emit_fum (o : Out) : (d.emit o).fum = d.fum := rfl
@[simp] theorem Dev.emit_acq (o : Out) : (d.emit o).acq = d.acq := rfl
@[simp] theorem Dev.emit_gey (o : Out) : (d.emit o).gey = d.gey := rfl
@[simp] theorem Dev.emit_nrg (o : Out) : (d.emit o).nrg = d.nrg := rfl
@[simp] theorem Dev.emit_cyc (o : Out) : (d.emit o).cyc = d.cyc := rfl
@[simp] theorem Dev.emit_sch (o : Out) : (d.emit o).sch = d.sch := rfl
@[simp] theorem Dev.emit_net (o : Out) : (d.emit o).net = d.net := rfl
@[simp] theorem Dev.emit_tim (o : Out) : (d.emit o).tim = d.tim := rfl
@[simp] theorem Dev.emit_fab (o : Out) : (d.emit o).fab = d.fab := rfl
@[simp] theorem Dev.emit_snt (o : Out) : (d.emit o).snt = d.snt := rfl
@[simp] theorem Dev.emit_saf (o : Out) : (d.emit o).saf = d.saf := rfl
@[simp] theorem Dev.emit_clk (o : Out) : (d.emit o).clk = d.clk := rfl
@[simp] theorem Dev.emit_inv (o : Out) : (d.emit o).inv = d.inv := rfl
@[simp] theorem Dev.emit_out (o : Out) : (d.emit o).out = d.out ++ [o] := rfl
@[simp] theorem Dev.emit_fresh (o : Out) : (d.emit o).fresh = d.fresh := rfl

@[simp] theorem Dev.advance_regs (n : Nat) : (d.advance n).regs = d.regs := rfl
@[simp] theorem Dev.advance_hif (n : Nat) : (d.advance n).hif = d.hif := rfl
@[simp] theorem Dev.advance_ing (n : Nat) : (d.advance n).ing = d.ing := rfl
@[simp] theorem Dev.advance_crt (n : Nat) : (d.advance n).crt = d.crt := rfl
@[simp] theorem Dev.advance_osc (n : Nat) : (d.advance n).osc = d.osc := rfl
@[simp] theorem Dev.advance_isl (n : Nat) : (d.advance n).isl = d.isl := rfl
@[simp] theorem Dev.advance_fum (n : Nat) : (d.advance n).fum = d.fum := rfl
@[simp] theorem Dev.advance_acq (n : Nat) : (d.advance n).acq = d.acq := rfl
@[simp] theorem Dev.advance_gey (n : Nat) : (d.advance n).gey = d.gey := rfl
@[simp] theorem Dev.advance_nrg (n : Nat) : (d.advance n).nrg = d.nrg := rfl
@[simp] theorem Dev.advance_cyc (n : Nat) : (d.advance n).cyc = d.cyc := rfl
@[simp] theorem Dev.advance_sch (n : Nat) : (d.advance n).sch = d.sch := rfl
@[simp] theorem Dev.advance_net (n : Nat) : (d.advance n).net = d.net := rfl
@[simp] theorem Dev.advance_fab (n : Nat) : (d.advance n).fab = d.fab := rfl
@[simp] theorem Dev.advance_snt (n : Nat) : (d.advance n).snt = d.snt := rfl
@[simp] theorem Dev.advance_saf (n : Nat) : (d.advance n).saf = d.saf := rfl
@[simp] theorem Dev.advance_clk (n : Nat) : (d.advance n).clk = d.clk := rfl
@[simp] theorem Dev.advance_inv (n : Nat) : (d.advance n).inv = d.inv := rfl
@[simp] theorem Dev.advance_out (n : Nat) : (d.advance n).out = d.out := rfl
@[simp] theorem Dev.advance_fresh (n : Nat) : (d.advance n).fresh = d.fresh := rfl
@[simp] theorem Dev.setRing_regs (n : Nat) (r : RingSt) : (d.setRing n r).regs = d.regs := rfl
@[simp] theorem Dev.setRing_ing (n : Nat) (r : RingSt) : (d.setRing n r).ing = d.ing := rfl
@[simp] theorem Dev.setRing_crt (n : Nat) (r : RingSt) : (d.setRing n r).crt = d.crt := rfl
@[simp] theorem Dev.setRing_osc (n : Nat) (r : RingSt) : (d.setRing n r).osc = d.osc := rfl
@[simp] theorem Dev.setRing_isl (n : Nat) (r : RingSt) : (d.setRing n r).isl = d.isl := rfl
@[simp] theorem Dev.setRing_fum (n : Nat) (r : RingSt) : (d.setRing n r).fum = d.fum := rfl
@[simp] theorem Dev.setRing_acq (n : Nat) (r : RingSt) : (d.setRing n r).acq = d.acq := rfl
@[simp] theorem Dev.setRing_gey (n : Nat) (r : RingSt) : (d.setRing n r).gey = d.gey := rfl
@[simp] theorem Dev.setRing_nrg (n : Nat) (r : RingSt) : (d.setRing n r).nrg = d.nrg := rfl
@[simp] theorem Dev.setRing_cyc (n : Nat) (r : RingSt) : (d.setRing n r).cyc = d.cyc := rfl
@[simp] theorem Dev.setRing_sch (n : Nat) (r : RingSt) : (d.setRing n r).sch = d.sch := rfl
@[simp] theorem Dev.setRing_net (n : Nat) (r : RingSt) : (d.setRing n r).net = d.net := rfl
@[simp] theorem Dev.setRing_tim (n : Nat) (r : RingSt) : (d.setRing n r).tim = d.tim := rfl
@[simp] theorem Dev.setRing_fab (n : Nat) (r : RingSt) : (d.setRing n r).fab = d.fab := rfl
@[simp] theorem Dev.setRing_snt (n : Nat) (r : RingSt) : (d.setRing n r).snt = d.snt := rfl
@[simp] theorem Dev.setRing_saf (n : Nat) (r : RingSt) : (d.setRing n r).saf = d.saf := rfl
@[simp] theorem Dev.setRing_clk (n : Nat) (r : RingSt) : (d.setRing n r).clk = d.clk := rfl
@[simp] theorem Dev.setRing_inv (n : Nat) (r : RingSt) : (d.setRing n r).inv = d.inv := rfl
@[simp] theorem Dev.setRing_out (n : Nat) (r : RingSt) : (d.setRing n r).out = d.out := rfl
@[simp] theorem Dev.setRing_fresh (n : Nat) (r : RingSt) : (d.setRing n r).fresh = d.fresh := rfl

/-! ## Registers -/

theorem setWord_find_same (m : Tbl Word) (off : Nat) (v : Word) : Tbl.getD (setWord m off v) off 0 = v := by
  unfold setWord Tbl.getD; split
  · simp [*]
  · simp

theorem setWord_find_other (m : Tbl Word) {off i : Nat} (v : Word) (h : i ≠ off) : Tbl.getD (setWord m off v) i 0 = Tbl.getD m i 0 := by
  unfold setWord Tbl.getD; split
  · rw [Tbl.find_drop_other m h]
  · rw [Tbl.find_put_other m v h]

/-- A register read after it is written. -/
@[simp] theorem Dev.reg_setReg_same (off : Nat) (v : Word) : (d.setReg off v).reg off = v := setWord_find_same d.regs off v

/-- A register keeps its word when another is written. -/
theorem Dev.reg_setReg_other {off i : Nat} (v : Word) (h : i ≠ off) : (d.setReg off v).reg i = d.reg i := setWord_find_other d.regs v h

@[simp] theorem Dev.reg_setReg (off i : Nat) (v : Word) : (d.setReg off v).reg i = if i = off then v else d.reg i := by
  split
  · subst_vars; exact d.reg_setReg_same i v
  · exact d.reg_setReg_other v (by assumption)

@[simp] theorem Dev.reg_emit (o : Out) (off : Nat) : (d.emit o).reg off = d.reg off := rfl
@[simp] theorem Dev.reg_advance (n off : Nat) : (d.advance n).reg off = d.reg off := rfl
@[simp] theorem Dev.reg_setRing (n off : Nat) (r : RingSt) : (d.setRing n r).reg off = d.reg off := rfl
@[simp] theorem Dev.reg_modHif (f : HifSt → HifSt) (off : Nat) : (d.modHif f).reg off = d.reg off := rfl
@[simp] theorem Dev.reg_modIng (f : IngSt → IngSt) (off : Nat) : (d.modIng f).reg off = d.reg off := rfl
@[simp] theorem Dev.reg_modCrt (f : CrtSt → CrtSt) (off : Nat) : (d.modCrt f).reg off = d.reg off := rfl
@[simp] theorem Dev.reg_modOsc (f : OscSt → OscSt) (off : Nat) : (d.modOsc f).reg off = d.reg off := rfl
@[simp] theorem Dev.reg_modIsl (f : IslSt → IslSt) (off : Nat) : (d.modIsl f).reg off = d.reg off := rfl
@[simp] theorem Dev.reg_modFum (f : FumSt → FumSt) (off : Nat) : (d.modFum f).reg off = d.reg off := rfl
@[simp] theorem Dev.reg_modAcq (f : AcqSt → AcqSt) (off : Nat) : (d.modAcq f).reg off = d.reg off := rfl
@[simp] theorem Dev.reg_modGey (f : GeySt → GeySt) (off : Nat) : (d.modGey f).reg off = d.reg off := rfl
@[simp] theorem Dev.reg_modNrg (f : NrgSt → NrgSt) (off : Nat) : (d.modNrg f).reg off = d.reg off := rfl
@[simp] theorem Dev.reg_modCyc (f : CycSt → CycSt) (off : Nat) : (d.modCyc f).reg off = d.reg off := rfl
@[simp] theorem Dev.reg_modSch (f : SchSt → SchSt) (off : Nat) : (d.modSch f).reg off = d.reg off := rfl
@[simp] theorem Dev.reg_modNet (f : NetSt → NetSt) (off : Nat) : (d.modNet f).reg off = d.reg off := rfl
@[simp] theorem Dev.reg_modTim (f : TimSt → TimSt) (off : Nat) : (d.modTim f).reg off = d.reg off := rfl
@[simp] theorem Dev.reg_modFab (f : FabSt → FabSt) (off : Nat) : (d.modFab f).reg off = d.reg off := rfl
@[simp] theorem Dev.reg_modSnt (f : SntSt → SntSt) (off : Nat) : (d.modSnt f).reg off = d.reg off := rfl
@[simp] theorem Dev.reg_modSaf (f : SafSt → SafSt) (off : Nat) : (d.modSaf f).reg off = d.reg off := rfl
@[simp] theorem Dev.reg_modClk (f : ClkSt → ClkSt) (off : Nat) : (d.modClk f).reg off = d.reg off := rfl
@[simp] theorem Dev.reg_modInv (f : InvSt → InvSt) (off : Nat) : (d.modInv f).reg off = d.reg off := rfl

/-! ## Fields -/

theorem withBits_toNat_lt (v : Word) (lo w x : Nat) (h : lo + w ≤ 32) :
    v.toNat - bitsAt v lo w * 2 ^ lo + x % 2 ^ w * 2 ^ lo < 2 ^ 32 ∧
    (v.toNat - bitsAt v lo w * 2 ^ lo + x % 2 ^ w * 2 ^ lo) = v.toNat / 2 ^ (lo + w) * 2 ^ (lo + w) + x % 2 ^ w * 2 ^ lo + v.toNat % 2 ^ lo := by
  have hv := v.isLt
  have e1 : v.toNat = v.toNat / 2 ^ lo * 2 ^ lo + v.toNat % 2 ^ lo := (Nat.div_add_mod' _ _).symm
  have e2 : v.toNat / 2 ^ lo = v.toNat / 2 ^ lo / 2 ^ w * 2 ^ w + v.toNat / 2 ^ lo % 2 ^ w := (Nat.div_add_mod' _ _).symm
  have e3 : v.toNat / 2 ^ lo / 2 ^ w = v.toNat / 2 ^ (lo + w) := by rw [Nat.div_div_eq_div_mul, ← pow_add]
  have hx : x % 2 ^ w < 2 ^ w := Nat.mod_lt _ (by positivity)
  have hl : v.toNat % 2 ^ lo < 2 ^ lo := Nat.mod_lt _ (by positivity)
  have key : v.toNat - bitsAt v lo w * 2 ^ lo + x % 2 ^ w * 2 ^ lo
      = v.toNat / 2 ^ (lo + w) * 2 ^ (lo + w) + x % 2 ^ w * 2 ^ lo + v.toNat % 2 ^ lo := by
    have : v.toNat = v.toNat / 2 ^ (lo + w) * 2 ^ (lo + w) + bitsAt v lo w * 2 ^ lo + v.toNat % 2 ^ lo := by
      conv_lhs => rw [e1, e2, e3]
      unfold bitsAt
      rw [pow_add]; ring
    omega
  refine ⟨?_, key⟩
  rw [key]
  have hd : v.toNat / 2 ^ (lo + w) < 2 ^ (32 - (lo + w)) := by
    rw [Nat.div_lt_iff_lt_mul (by positivity), ← pow_add]
    simpa [show 32 - (lo + w) + (lo + w) = 32 by omega] using hv
  have h1 : (v.toNat / 2 ^ (lo + w) + 1) * 2 ^ (lo + w) ≤ 2 ^ (32 - (lo + w)) * 2 ^ (lo + w) := Nat.mul_le_mul_right _ hd
  have h2 : (x % 2 ^ w + 1) * 2 ^ lo ≤ 2 ^ w * 2 ^ lo := Nat.mul_le_mul_right _ hx
  rw [← pow_add, show 32 - (lo + w) + (lo + w) = 32 by omega] at h1
  rw [← pow_add, show w + lo = lo + w by omega] at h2
  rw [Nat.add_mul, one_mul] at h1 h2
  omega

theorem withBits_toNat (v : Word) (lo w x : Nat) (h : lo + w ≤ 32) :
    (withBits v lo w x).toNat = v.toNat / 2 ^ (lo + w) * 2 ^ (lo + w) + x % 2 ^ w * 2 ^ lo + v.toNat % 2 ^ lo := by
  obtain ⟨h1, h2⟩ := withBits_toNat_lt v lo w x h
  unfold withBits
  rw [BitVec.toNat_ofNat, Nat.mod_eq_of_lt h1, h2]

/-- A bit range read after it is replaced. -/
theorem bitsAt_withBits_same (v : Word) (lo w x : Nat) (h : lo + w ≤ 32) : bitsAt (withBits v lo w x) lo w = x % 2 ^ w := by
  unfold bitsAt
  rw [withBits_toNat v lo w x h]
  have e : v.toNat / 2 ^ (lo + w) * 2 ^ (lo + w) + x % 2 ^ w * 2 ^ lo + v.toNat % 2 ^ lo
      = v.toNat % 2 ^ lo + 2 ^ lo * (x % 2 ^ w + 2 ^ w * (v.toNat / 2 ^ (lo + w))) := by rw [pow_add]; ring
  rw [e, Nat.add_mul_div_left _ _ (by positivity), Nat.div_eq_of_lt (Nat.mod_lt _ (by positivity)), Nat.zero_add,
    Nat.add_mul_mod_self_left, Nat.mod_mod]

/-- A bit range keeps its value when one above or below it is replaced. -/
theorem bitsAt_withBits_other (v : Word) (lo w x lo' w' : Nat) (h : lo + w ≤ 32) (hd : lo' + w' ≤ lo ∨ lo + w ≤ lo') :
    bitsAt (withBits v lo w x) lo' w' = bitsAt v lo' w' := by
  unfold bitsAt
  rw [withBits_toNat v lo w x h]
  rcases hd with hd | hd
  · have key : ∀ n : Nat, n / 2 ^ lo' % 2 ^ w' = n % 2 ^ lo / 2 ^ lo' % 2 ^ w' := by
      intro n
      have : 2 ^ lo = 2 ^ lo' * 2 ^ (lo - lo') := by rw [← pow_add]; congr 1; omega
      rw [this, Nat.mod_mul_right_div_self, Nat.mod_mod_of_dvd]
      exact pow_dvd_pow 2 (by omega)
    rw [key, key v.toNat]
    congr 2
    have e : v.toNat / 2 ^ (lo + w) * 2 ^ (lo + w) + x % 2 ^ w * 2 ^ lo + v.toNat % 2 ^ lo
        = v.toNat % 2 ^ lo + 2 ^ lo * (x % 2 ^ w + 2 ^ w * (v.toNat / 2 ^ (lo + w))) := by rw [pow_add]; ring
    rw [e, Nat.add_mul_mod_self_left, Nat.mod_mod]
  · have e : 2 ^ lo' = 2 ^ (lo + w) * 2 ^ (lo' - (lo + w)) := by rw [← pow_add]; congr 1; omega
    have hlow : x % 2 ^ w * 2 ^ lo + v.toNat % 2 ^ lo < 2 ^ (lo + w) := by
      have hx : x % 2 ^ w < 2 ^ w := Nat.mod_lt _ (by positivity)
      have hl : v.toNat % 2 ^ lo < 2 ^ lo := Nat.mod_lt _ (by positivity)
      have h2 : (x % 2 ^ w + 1) * 2 ^ lo ≤ 2 ^ w * 2 ^ lo := Nat.mul_le_mul_right _ hx
      rw [← pow_add, show w + lo = lo + w by omega, Nat.add_mul, one_mul] at h2
      omega
    have : (v.toNat / 2 ^ (lo + w) * 2 ^ (lo + w) + x % 2 ^ w * 2 ^ lo + v.toNat % 2 ^ lo) / 2 ^ (lo + w) = v.toNat / 2 ^ (lo + w) := by
      rw [Nat.add_assoc, Nat.mul_comm, Nat.mul_add_div (by positivity), Nat.div_eq_of_lt hlow, Nat.add_zero]
    rw [e, ← Nat.div_div_eq_div_mul, ← Nat.div_div_eq_div_mul, this]

/-- A field read after it is written. -/
theorem Dev.fld_setFld_same (f : FieldAt) (v : Nat) (h : f.lo + f.width ≤ 32) : (d.setFld f v).fld f = v % 2 ^ f.width := by
  unfold Dev.fld Dev.setFld; rw [Dev.reg_setReg_same]; exact bitsAt_withBits_same _ _ _ _ h

/-- A field keeps its value when another register is written, or other bits of its own. -/
theorem Dev.fld_setFld_other (f g : FieldAt) (v : Nat) (h : f.lo + f.width ≤ 32)
    (hd : g.off ≠ f.off ∨ g.lo + g.width ≤ f.lo ∨ f.lo + f.width ≤ g.lo) : (d.setFld f v).fld g = d.fld g := by
  unfold Dev.fld Dev.setFld
  rw [Dev.reg_setReg]
  split
  · rename_i e; rw [bitsAt_withBits_other _ _ _ _ _ _ h (hd.resolve_left (fun hh => hh e)), e]
  · rfl

theorem Dev.bit_setBit_same (f : FieldAt) (b : Bool) (h : f.lo + f.width ≤ 32) (hw : 0 < f.width) : (d.setBit f b).bit f = b := by
  unfold Dev.bit Dev.setBit
  rw [Dev.fld_setFld_same _ _ _ h]
  have : 1 < 2 ^ f.width := Nat.one_lt_two_pow (by omega)
  cases b <;> simp [b2n, Nat.mod_eq_of_lt this]

end Sys2Proof.Machine
end

