-- ==== Sys2Proof/Laws/Serve.lean ====
section
/-! SUPPORT. What the shared operations can do: the passing of time, the acceptance of a ring command, completions and events, and the
parts of the device that each leaves as it was. -/

namespace Sys2Proof.Machine

open Sys2Proof

/-! ## Frames compose -/

theorem keptBut_refl (l : List Part) (d : Dev) : keptBut l d d := by simp [keptBut]

theorem keptBut_trans {l : List Part} {a b c : Dev} (h : keptBut l a b) (k : keptBut l b c) : keptBut l a c := by
  simp only [keptBut] at *
  obtain ⟨h1, h2, h3, h4, h5, h6, h7, h8, h9, h10, h11, h12, h13, h14, h15, h16, h17, h18, h19⟩ := h
  obtain ⟨k1, k2, k3, k4, k5, k6, k7, k8, k9, k10, k11, k12, k13, k14, k15, k16, k17, k18, k19⟩ := k
  exact ⟨fun x => (k1 x).trans (h1 x), fun x => (k2 x).trans (h2 x), fun x => (k3 x).trans (h3 x), fun x => (k4 x).trans (h4 x),
    fun x => (k5 x).trans (h5 x), fun x => (k6 x).trans (h6 x), fun x => (k7 x).trans (h7 x), fun x => (k8 x).trans (h8 x),
    fun x => (k9 x).trans (h9 x), fun x => (k10 x).trans (h10 x), fun x => (k11 x).trans (h11 x), fun x => (k12 x).trans (h12 x),
    fun x => (k13 x).trans (h13 x), fun x => (k14 x).trans (h14 x), fun x => (k15 x).trans (h15 x), fun x => (k16 x).trans (h16 x),
    fun x => (k17 x).trans (h17 x), fun x => (k18 x).trans (h18 x), fun x => (k19 x).trans (h19 x)⟩

theorem keptBut_mono {l m : List Part} {a b : Dev} (hs : ∀ p ∈ l, p ∈ m) (h : keptBut l a b) : keptBut m a b := by
  simp only [keptBut] at *
  obtain ⟨h1, h2, h3, h4, h5, h6, h7, h8, h9, h10, h11, h12, h13, h14, h15, h16, h17, h18, h19⟩ := h
  exact ⟨fun x => h1 (fun y => x (hs _ y)), fun x => h2 (fun y => x (hs _ y)), fun x => h3 (fun y => x (hs _ y)),
    fun x => h4 (fun y => x (hs _ y)), fun x => h5 (fun y => x (hs _ y)), fun x => h6 (fun y => x (hs _ y)),
    fun x => h7 (fun y => x (hs _ y)), fun x => h8 (fun y => x (hs _ y)), fun x => h9 (fun y => x (hs _ y)),
    fun x => h10 (fun y => x (hs _ y)), fun x => h11 (fun y => x (hs _ y)), fun x => h12 (fun y => x (hs _ y)),
    fun x => h13 (fun y => x (hs _ y)), fun x => h14 (fun y => x (hs _ y)), fun x => h15 (fun y => x (hs _ y)),
    fun x => h16 (fun y => x (hs _ y)), fun x => h17 (fun y => x (hs _ y)), fun x => h18 (fun y => x (hs _ y)),
    fun x => h19 (fun y => x (hs _ y))⟩

theorem keptBut_foldl {α : Type} {l : List Part} (f : Dev → α → Dev) (h : ∀ x a, keptBut l x (f x a)) (as : List α) (d : Dev) :
    keptBut l d (as.foldl f d) := by
  induction as generalizing d with
  | nil => exact keptBut_refl l d
  | cons a t ih => exact keptBut_trans (h d a) (ih _)

/-! ## Each shared operation's frame -/

theorem setReg_kept (d : Dev) (off : Nat) (v : Word) : keptBut [.regs] d (d.setReg off v) := by simp [keptBut, Dev.setReg]
theorem setRegN_kept (d : Dev) (off v : Nat) : keptBut [.regs] d (d.setRegN off v) := setReg_kept _ _ _
theorem setFld_kept (d : Dev) (f : FieldAt) (v : Nat) : keptBut [.regs] d (d.setFld f v) := setReg_kept _ _ _
theorem setBit_kept (d : Dev) (f : FieldAt) (b : Bool) : keptBut [.regs] d (d.setBit f b) := setReg_kept _ _ _
theorem setFbit_kept (d : Dev) (f : FieldAt) (i : Nat) (b : Bool) : keptBut [.regs] d (d.setFbit f i b) := setReg_kept _ _ _
theorem count_kept (d : Dev) (off n : Nat) : keptBut [.regs] d (d.count off n) := setReg_kept _ _ _
theorem setReg64_kept (d : Dev) (lo v : Nat) : keptBut [.regs] d (d.setReg64 lo v) :=
  keptBut_trans (setRegN_kept _ _ _) (setRegN_kept _ _ _)
theorem count64_kept (d : Dev) (lo n : Nat) : keptBut [.regs] d (d.count64 lo n) := setReg64_kept _ _ _
theorem emit_kept (d : Dev) (o : Out) : keptBut [] d (d.emit o) := by simp [keptBut, Dev.emit]
theorem setRing_kept (d : Dev) (n : Nat) (r : RingSt) : keptBut [.hif] d (d.setRing n r) := by simp [keptBut, Dev.setRing]
theorem fetch_kept (d : Dev) (n : Nat) : keptBut [.hif] d (d.fetch n) := setRing_kept _ _ _

theorem sendMsix_kept (d : Dev) (v : Nat) : keptBut [.regs] d (d.sendMsix v) := by
  unfold Dev.sendMsix
  split
  · exact keptBut_mono (by simp) (emit_kept _ _)
  · exact setRegN_kept _ _ _

theorem judgeSignal_kept (d : Dev) (n : Nat) (b : Bool) : keptBut [.regs, .hif] d (d.judgeSignal n b) := by
  unfold Dev.judgeSignal
  simp only
  split
  · exact keptBut_trans (keptBut_mono (by simp) (sendMsix_kept _ _))
      (keptBut_trans (keptBut_mono (by simp) (setBit_kept _ _ _)) (keptBut_mono (by simp) (setRing_kept _ _ _)))
  · exact keptBut_refl _ _

theorem countDone_kept (d : Dev) (n : Nat) : keptBut [.regs, .hif] d (d.countDone n) := by
  unfold Dev.countDone
  exact keptBut_trans (keptBut_mono (by simp) (count_kept _ _ _))
    (keptBut_trans (keptBut_mono (by simp) (setRing_kept _ _ _)) (judgeSignal_kept _ _ _))

theorem complete_kept (d : Dev) (n k session status result addr : Nat) (b : Bytes) :
    keptBut [.regs, .hif] d (d.complete n k session status result addr b) := by
  unfold Dev.complete
  simp only
  split
  · exact keptBut_refl _ _
  · split
    · simp [keptBut]
    · split
      · exact keptBut_trans (keptBut_mono (by simp) (setRing_kept _ _ _))
          (keptBut_trans (keptBut_mono (by simp) (emit_kept _ _)) (countDone_kept _ _))
      · exact keptBut_trans (keptBut_mono (by simp) (emit_kept _ _)) (keptBut_trans (keptBut_mono (by simp) (setRing_kept _ _ _))
          (keptBut_trans (keptBut_mono (by simp) (emit_kept _ _)) (countDone_kept _ _)))

theorem answer_kept (d : Dev) (c : Ctx) (k session : Nat) (r : CmdRes) : keptBut [.regs, .hif] d (d.answer c k session r) := by
  cases r with
  | done st res => exact complete_kept _ _ _ _ _ _ _ _
  | block b a =>
    simp only [Dev.answer]
    split <;> exact complete_kept _ _ _ _ _ _ _ _
  | wait kind => simp [Dev.answer, keptBut]

/-! ## Time and the acceptance of commands -/

/-- No time passes in 0 ns: only the outputs of the last command go. -/
theorem later_zero (d : Dev) : later d 0 = { d with out := [] } := by simp [later, Dev.advance]

/-- A command that is ready is accepted: its checks and its effect are made on the device with the descriptor fetched, and answered. -/
theorem accept_ready {d : Dev} {c : Ctx} {waits : Bool} {gate : Option Nat} {f : Dev → Dev × CmdRes}
    (h1 : d.accepts c.ring = true) (h2 : (d.fetch c.ring).bit Fld.CLK_STATUS_RESCUE = false)
    (h3 : waits = true → (d.fetch c.ring).hif.waiting.length < 64) (h4 : gate.any (d.fetch c.ring).gated = false) :
    d.accept c waits gate f
      = (f (d.fetch c.ring)).1.answer c (d.ring c.ring).next (d.ring c.ring).session (f (d.fetch c.ring)).2 := by
  unfold Dev.accept
  have h3' : (waits && decide (64 ≤ (d.fetch c.ring).hif.waiting.length)) = false := by
    cases hw : waits with
    | false => rfl
    | true => have := h3 hw; simp; omega
  simp [h1, h2, h4, h3']

@[simp] theorem fetch_regs (d : Dev) (n : Nat) : (d.fetch n).regs = d.regs := rfl

@[simp] theorem fetch_waiting (d : Dev) (n : Nat) : (d.fetch n).hif.waiting = d.hif.waiting := rfl

/-- What a ready command answers, as a whole state. -/
theorem run_accept_ready {s : State} {c : Ctx} {waits : Bool} {gate : Option Nat} (g : KeySt → Dev → Dev × CmdRes)
    (h : ready s.dev c.ring waits gate) :
    s.run 0 (fun k d => d.accept c waits gate (g k))
      = .next (served s c (g s.key (fetched s.dev c.ring)).1 (g s.key (fetched s.dev c.ring)).2) := by
  obtain ⟨h1, h2, h3, h4⟩ := h
  have hd : Dev.advance { s.dev with out := [] } 0 = later s.dev 0 := rfl
  simp only [State.run, served, fetched, hd]
  rw [accept_ready (d := later s.dev 0)]
  · rfl
  · exact h1
  · exact h2
  · exact h3
  · exact h4

end Sys2Proof.Machine
end

