-- ==== Sys2Proof/Laws/Frames.lean ====
section
/-! SUPPORT. Which registers and which parts of the device the shared operations move: registers, messages, completions, the rings and
events. -/

namespace Sys2Proof.Machine

open Sys2Proof

/-! ## One register -/

theorem getD_setWord (m : Tbl Word) (o k : Nat) (v : Word) : (setWord m o v).getD k 0 = if k = o then v else m.getD k 0 := by
  unfold setWord Tbl.getD
  by_cases hv : v = 0
  · rw [if_pos hv]
    by_cases hk : k = o
    · subst hk; simp [hv]
    · simp [hk, Tbl.find_drop_other _ hk]
  · rw [if_neg hv]
    by_cases hk : k = o
    · subst hk; simp
    · simp [hk, Tbl.find_put_other _ _ hk]

theorem reg_setReg (d : Dev) (o k : Nat) (v : Word) : (d.setReg o v).reg k = if k = o then v else d.reg k := getD_setWord d.regs o k v

@[simp] theorem reg_setReg_same (d : Dev) (o : Nat) (v : Word) : (d.setReg o v).reg o = v := (reg_setReg d o o v).trans (if_pos rfl)

theorem reg_setReg_other (d : Dev) {o k : Nat} (v : Word) (h : k ≠ o) : (d.setReg o v).reg k = d.reg k :=
  (reg_setReg d o k v).trans (if_neg h)

@[simp] theorem reg_emit (d : Dev) (o : Out) (k : Nat) : (d.emit o).reg k = d.reg k := rfl
@[simp] theorem reg_setRing (d : Dev) (n : Nat) (r : RingSt) (k : Nat) : (d.setRing n r).reg k = d.reg k := rfl

/-! ## The frame relation -/

theorem only_refl (l : List Part) (p : Nat → Prop) (d : Dev) : only l p d d := ⟨keptBut_refl l d, fun _ _ => rfl⟩

theorem only_trans {l : List Part} {p : Nat → Prop} {a b c : Dev} (h : only l p a b) (k : only l p b c) : only l p a c :=
  ⟨keptBut_trans h.1 k.1, fun o ho => (k.2 o ho).trans (h.2 o ho)⟩

theorem only_mono {l m : List Part} {p q : Nat → Prop} {a b : Dev} (hs : ∀ x ∈ l, x ∈ m) (hp : ∀ o, p o → q o) (h : only l p a b) :
    only m q a b := ⟨keptBut_mono hs h.1, fun o ho => h.2 o (fun x => ho (hp o x))⟩

/-- Only the register file moves, and in it only one register. -/
theorem only_setReg (d : Dev) (o : Nat) (v : Word) : only [.regs] (fun k => k = o) d (d.setReg o v) :=
  ⟨setReg_kept d o v, fun _ h => reg_setReg_other d v h⟩

/-- An operation on parts other than the register file. -/
theorem only_of_kept {l : List Part} {p : Nat → Prop} {a b : Dev} (h : keptBut l a b) (hr : b.regs = a.regs) : only l p a b :=
  ⟨h, fun o _ => by simp [Dev.reg, hr]⟩

theorem only_foldl {α : Type} {l : List Part} {p : Nat → Prop} (f : Dev → α → Dev) (h : ∀ x a, only l p x (f x a)) (as : List α) (d : Dev) :
    only l p d (as.foldl f d) := by
  induction as generalizing d with
  | nil => exact only_refl l p d
  | cons a t ih => exact only_trans (h d a) (ih _)

/-! ## Messages and completions -/

theorem signalReg_done {n : Nat} (h : n < 32) : signalReg (Reg.HIF_RINGn_DONE n) := .inl ⟨n, h, .inl rfl⟩
theorem signalReg_stat {n : Nat} (h : n < 32) : signalReg (Reg.HIF_RINGn_STAT n) := .inl ⟨n, h, .inr rfl⟩

theorem sendMsix_only (d : Dev) {v : Nat} (hv : v < 64) : only [.regs] signalReg d (d.sendMsix v) := by
  unfold Dev.sendMsix
  split
  · exact only_of_kept (keptBut_mono (by simp) (emit_kept _ _)) rfl
  · refine only_mono (fun _ h => h) ?_ (only_setReg _ _ _)
    intro o ho
    subst ho
    have : v / 32 = 0 ∨ v / 32 = 1 := by omega
    rcases this with h | h
    · exact .inr (.inl (by simp [h]))
    · exact .inr (.inr (by simp [h]))

theorem fld_lt (d : Dev) (f : FieldAt) : d.fld f < 2 ^ f.width := Nat.mod_lt _ (by positivity)

theorem setRing_only (d : Dev) (n : Nat) (r : RingSt) (p : Nat → Prop) : only [.regs, .hif] p d (d.setRing n r) :=
  only_of_kept (keptBut_mono (by simp) (setRing_kept _ _ _)) rfl

theorem emit_only (d : Dev) (o : Out) (p : Nat → Prop) : only [.regs, .hif] p d (d.emit o) :=
  only_of_kept (keptBut_mono (by simp) (emit_kept _ _)) rfl

theorem setReg_signal (d : Dev) {o : Nat} (v : Word) (h : signalReg o) : only [.regs, .hif] signalReg d (d.setReg o v) :=
  only_mono (p := fun k => k = o) (by simp) (by rintro _ rfl; exact h) (only_setReg d o v)

theorem judgeSignal_only (d : Dev) {n : Nat} (h : n < 32) (b : Bool) : only [.regs, .hif] signalReg d (d.judgeSignal n b) := by
  unfold Dev.judgeSignal
  simp only
  split
  · exact only_trans (only_mono (by simp) (fun _ k => k) (sendMsix_only _ (fld_lt _ _)))
      (only_trans (setReg_signal _ _ (signalReg_stat h)) (setRing_only _ _ _ _))
  · exact only_refl _ _ _

theorem countDone_only (d : Dev) {n : Nat} (h : n < 32) : only [.regs, .hif] signalReg d (d.countDone n) := by
  unfold Dev.countDone
  exact only_trans (setReg_signal _ _ (signalReg_done h)) (only_trans (setRing_only _ _ _ _) (judgeSignal_only _ h _))

theorem complete_only (d : Dev) {n : Nat} (h : n < 32) (k session status result addr : Nat) (b : Bytes) :
    only [.regs, .hif] signalReg d (d.complete n k session status result addr b) := by
  unfold Dev.complete
  simp only
  split
  · exact only_refl _ _ _
  · split
    · exact only_of_kept (by simp [keptBut]) rfl
    · refine only_trans ?_ (only_trans (setRing_only _ _ _ _) (only_trans (emit_only _ _ _) (countDone_only _ h)))
      split
      · exact only_refl _ _ _
      · exact emit_only _ _ _

theorem runs_lt {d : Dev} {n kind : Nat} (h : d.runs n kind = true) : n < 32 := by
  simp [Dev.runs] at h; exact h.2

theorem accepts_lt {d : Dev} {n : Nat} (h : d.accepts n = true) : n < 32 := by
  simp only [Dev.accepts, Dev.offers, Bool.and_eq_true] at h
  exact runs_lt h.1.1.1

theorem answer_only (d : Dev) (c : Ctx) (hc : c.ring < 32) (k session : Nat) (r : CmdRes) :
    only [.regs, .hif] signalReg d (d.answer c k session r) := by
  cases r with
  | done st res => exact complete_only _ hc _ _ _ _ _ _
  | block b a =>
    simp only [Dev.answer]
    split <;> exact complete_only _ hc _ _ _ _ _ _
  | wait kind => exact only_of_kept (by simp [Dev.answer, keptBut]) rfl

/-! ## The rings -/

theorem closeBuf_only (d : Dev) {n : Nat} (h : n < 32) (b : Bool) : only [.regs, .hif] signalReg d (d.closeBuf n b) := by
  unfold Dev.closeBuf
  simp only
  split
  · exact only_refl _ _ _
  · exact only_trans (setRing_only _ _ _ _) (only_trans (emit_only _ _ _) (countDone_only _ h))

theorem openNext_only {n : Nat} (h : n < 32) (b : Bool) (kind : Nat) (l : List BufDesc) (d : Dev) :
    only [.regs, .hif] signalReg d (Dev.openNext n b kind l d) := by
  induction l generalizing d with
  | nil => exact only_refl _ _ _
  | cons x t ih =>
    simp only [Dev.openNext]
    split
    · exact only_of_kept (by simp [keptBut, Dev.setRing]) rfl
    · exact only_trans (only_trans (setRing_only _ _ _ _) (only_trans (emit_only _ _ _) (countDone_only _ h))) (ih _)

theorem fill_only (d : Dev) (n : Nat) (b : Bytes) (s : Option RingRec) : only [.regs, .hif] signalReg d (d.fill n b s) := by
  unfold Dev.fill
  simp only
  split
  · exact only_refl _ _ _
  · exact only_trans (emit_only _ _ _) (setRing_only _ _ _ _)

theorem dropBad_only {n : Nat} (h : n < 32) (l : List BufDesc) (d : Dev) : only [.regs, .hif] signalReg d (Dev.dropBad n l d) := by
  induction l generalizing d with
  | nil => exact only_refl _ _ _
  | cons x t ih =>
    simp only [Dev.dropBad]
    split
    · exact only_refl _ _ _
    · exact only_trans (only_trans (setRing_only _ _ _ _) (only_trans (emit_only _ _ _) (countDone_only _ h))) (ih _)

theorem endGroup_only {n : Nat} (h : n < 32) (d : Dev) (b : Bool) : only [.regs, .hif] signalReg d (d.endGroup n b) := by
  unfold Dev.endGroup
  split
  · exact closeBuf_only _ h _
  · exact only_refl _ _ _

theorem fillPart_only {n : Nat} (h : n < 32) (d : Dev) (b : Bytes) (g : Bool) (s : Option RingRec) :
    only [.regs, .hif] signalReg d (d.fillPart n b g s) := by
  unfold Dev.fillPart
  simp only
  split
  · exact only_trans (fill_only _ _ _ _) (endGroup_only h _ _)
  · exact only_trans (fill_only _ _ _ _) (only_trans (closeBuf_only _ h _) (setRing_only _ _ _ _))

theorem continueRec_only {n : Nat} (h : n < 32) (kind : Nat) (fuel : Nat) (d : Dev) :
    only [.regs, .hif] signalReg d (Dev.continueRec n kind fuel d) := by
  induction fuel generalizing d with
  | zero => exact only_refl _ _ _
  | succ f ih =>
    simp only [Dev.continueRec]
    split
    · exact only_refl _ _ _
    · split
      · exact openNext_only h _ _ _ _
      · exact only_trans (openNext_only h _ _ _ _) (only_trans (setRing_only _ _ _ _) (only_trans (fillPart_only h _ _ _ _) (ih _)))

theorem place_only {n : Nat} (h : n < 32) (kind : Nat) (r : RingRec) (d : Dev) : only [.regs, .hif] signalReg d (d.place n kind r).1 := by
  unfold Dev.place
  simp only
  have h0 : only [.regs, .hif] signalReg d
      (if ((d.ring n).cur.isSome && decide (d.room n < r.bytes.length)) = true then d.closeBuf n false else d) := by
    split
    · exact closeBuf_only _ h _
    · exact only_refl _ _ _
  generalize (if ((d.ring n).cur.isSome && decide (d.room n < r.bytes.length)) = true then d.closeBuf n false else d) = d0 at h0 ⊢
  have h1 : only [.regs, .hif] signalReg d0 (if (d0.ring n).cur.isSome = true then d0 else Dev.openNext n false kind (d0.ring n).bufs d0) := by
    split
    · exact only_refl _ _ _
    · exact openNext_only h _ _ _ _
  generalize (if (d0.ring n).cur.isSome = true then d0 else Dev.openNext n false kind (d0.ring n).bufs d0) = d1 at h1 ⊢
  refine only_trans h0 (only_trans h1 ?_)
  split
  · exact only_refl _ _ _
  · exact only_trans (fillPart_only h _ _ _ _) (continueRec_only h _ _ _)

theorem placeAll_only {n : Nat} (h : n < 32) (kind : Nat) (l : List RingRec) (d : Dev) :
    only [.regs, .hif] signalReg d (Dev.placeAll n kind l d).1 := by
  induction l generalizing d with
  | nil => exact only_refl _ _ _
  | cons r t ih =>
    simp only [Dev.placeAll]
    have h0 : only [.regs, .hif] signalReg d (if (d.ring n).rest.isSome = true then (d, false) else d.place n kind r).1 := by
      split
      · exact only_refl _ _ _
      · exact place_only h kind r d
    generalize (if (d.ring n).rest.isSome = true then (d, false) else d.place n kind r) = p at h0 ⊢
    split
    · refine only_trans h0 (only_trans ?_ (ih _))
      split
      · exact only_mono (by simp) (fun _ k => k) (sendMsix_only _ (fld_lt _ _))
      · exact only_refl _ _ _
    · exact h0

theorem setRingQ_only (d : Dev) (kind : Nat) (q : List RingRec) : only [.regs, .hif] signalReg d (d.setRingQ kind q) := by
  unfold Dev.setRingQ
  split
  · exact only_of_kept (by simp [keptBut]) rfl
  · split
    · exact only_of_kept (by simp [keptBut]) rfl
    · split
      · exact only_of_kept (by simp [keptBut]) rfl
      · split
        · exact only_of_kept (by simp [keptBut]) rfl
        · exact only_refl _ _ _

theorem ringOf_lt {d : Dev} {kind n : Nat} (h : d.ringOf kind = some n) : n < 32 := by
  have := List.mem_of_find?_eq_some h
  simpa using this

theorem pump_only (d : Dev) (kind : Nat) : only [.regs, .hif] signalReg d (d.pump kind) := by
  unfold Dev.pump
  split
  · exact only_refl _ _ _
  · rename_i n e
    simp only
    split
    · have h0 := continueRec_only (ringOf_lt e) kind ((d.ring n).bufs.length + 1) d
      generalize Dev.continueRec n kind ((d.ring n).bufs.length + 1) d = d1 at h0 ⊢
      have h1 := only_trans h0 (only_trans (placeAll_only (ringOf_lt e) kind (d1.ringQ kind) d1)
        (setRingQ_only (Dev.placeAll n kind (d1.ringQ kind) d1).1 kind (Dev.placeAll n kind (d1.ringQ kind) d1).2))
      split
      · exact only_trans h1 (dropBad_only (ringOf_lt e) _ _)
      · exact h1
    · exact only_refl _ _ _

theorem enqueue_only (d : Dev) (kind cap lostReg : Nat) (recs : List RingRec) :
    only [.regs, .hif] (fun o => signalReg o ∨ o = lostReg) d (d.enqueue kind cap lostReg recs) := by
  have up {a b : Dev} (h : only [.regs, .hif] signalReg a b) : only [.regs, .hif] (fun o => signalReg o ∨ o = lostReg) a b :=
    only_mono (fun _ x => x) (fun _ k => .inl k) h
  unfold Dev.enqueue
  simp only
  have h1 := up (only_trans (setRingQ_only d kind (d.ringQ kind ++ recs)) (pump_only _ kind))
  generalize (d.setRingQ kind (d.ringQ kind ++ recs)).pump kind = d1 at h1 ⊢
  generalize trimQueue cap (d1.ringQ kind) = q
  split
  · exact h1
  · have h2 := only_trans h1 (up (setRingQ_only d1 kind q.1))
    have h3 := only_trans h2 (only_mono (p := fun k => k = lostReg) (by simp) (fun _ k => .inr k)
      (only_setReg (d1.setRingQ kind q.1) lostReg (BitVec.ofNat 32 ((d1.setRingQ kind q.1).regN lostReg + q.2.length))))
    have h4 (x : Dev) (m : Nat) : only [.regs, .hif] (fun o => signalReg o ∨ o = lostReg) x { x with hif := { x.hif with lossMarks := m } } :=
      only_of_kept (by simp [keptBut]) rfl
    split
    · exact only_trans h3 (only_trans (h4 _ _) (up (only_mono (by simp) (fun _ k => k) (sendMsix_only _ (fld_lt _ _)))))
    · exact only_trans h3 (h4 _ _)

/-! ## Events -/

theorem eventRecord_only (d : Dev) (mk : Nat → Bytes) (g : Bool) : only [.regs, .hif] eventReg d (d.eventRecord mk g) := by
  unfold Dev.eventRecord
  simp only
  have h1 : only [.regs, .hif] eventReg d { d with hif := { d.hif with eventSeq := (d.hif.eventSeq + 1) % 2 ^ 32 } } :=
    only_of_kept (by simp [keptBut]) rfl
  refine only_trans h1 (only_mono (fun _ x => x) ?_ (enqueue_only _ 8 4096 Reg.HIF_EVT_LOST _))
  intro o ho
  rcases ho with h | h
  · exact .inl h
  · exact .inr (by simp [h])

theorem count_event (d : Dev) {o : Nat} (h : eventReg o) (n : Nat) : only [.regs, .hif, .snt] eventReg d (d.count o n) :=
  only_mono (p := fun k => k = o) (by simp) (by rintro _ rfl; exact h) (only_setReg d o _)

theorem snt_only (d : Dev) (s : SntSt) : only [.regs, .hif, .snt] eventReg d { d with snt := s } :=
  only_of_kept (by simp [keptBut]) rfl

theorem shadowAdd_only (d : Dev) (r : SntRec) : only [.regs, .hif, .snt] eventReg d (d.shadowAdd r) := by
  unfold Dev.shadowAdd
  split
  · exact snt_only _ _
  · split
    · exact count_event _ (.inr (by simp)) _
    · simp only
      have h1 (v : SntRec) := only_trans (snt_only d { d.snt with shadow := dropSeq v.seq d.snt.shadow ++ [r] })
        (count_event _ (o := Reg.SNT_OVERWRITTEN) (.inr (by simp)) 1)
      split
      · exact only_trans (h1 _) (only_trans (snt_only _ _) (count_event _ (.inr (by simp)) _))
      · exact h1 _

theorem waitAdd_only (d : Dev) (r : SntRec) : only [.regs, .hif, .snt] eventReg d (d.waitAdd r) := by
  unfold Dev.waitAdd
  simp only
  split
  · exact snt_only _ _
  · split
    · exact count_event _ (.inr (by simp)) _
    · exact only_trans (snt_only _ _) (only_trans (snt_only _ _) (count_event _ (.inr (by simp)) _))

theorem sinter_only (d : Dev) (code sev status index arg : Nat) :
    only [.regs, .hif, .snt] eventReg d (d.sinter code sev status index arg) := by
  unfold Dev.sinter
  simp only
  split
  · exact only_refl _ _ _
  · split
    · exact waitAdd_only _ _
    · split
      · exact count_event _ (.inr (by simp)) _
      · split
        · split
          · exact only_trans (snt_only _ _) (count_event _ (.inr (by simp)) _)
          · exact only_trans (snt_only _ _) (shadowAdd_only _ _)
        · exact only_trans (snt_only _ _) (shadowAdd_only _ _)

/-- Raising an event moves rings, their messages and Sinter only. -/
theorem event_only (d : Dev) (e : Ev) (index arg0 arg1 status : Nat) :
    only [.regs, .hif, .snt] eventReg d (d.event e index arg0 arg1 status) := by
  unfold Dev.event
  simp only
  have h1 : only [.regs, .hif, .snt] eventReg d
      (if e.row.2.2.2 = true then d.sinter e.row.1 e.row.2.1 status index arg0 else d) := by
    split
    · exact sinter_only _ _ _ _ _ _
    · exact only_refl _ _ _
  split
  · exact only_trans h1 (only_mono (by simp) (fun _ k => k) (eventRecord_only _ _ _))
  · exact h1

end Sys2Proof.Machine
end

