-- ==== Sys2Proof/Laws/Ram.lean ====
section
/-! SUPPORT. Addressed memories and the register file: reads after writes, and the canonical form that every operation keeps. -/

namespace Sys2Proof.Machine

open Sys2Proof

/-- A byte read after it is written. -/
@[simp] theorem Ram.get_set_same (m : Ram) (a : Nat) (b : Byte) : Ram.get (Ram.set m a b) a = b := by
  unfold Ram.get Ram.set Tbl.getD
  split
  · simp [*]
  · simp

/-- A write of one byte leaves every other byte as it was. -/
theorem Ram.get_set_other (m : Ram) {a i : Nat} (b : Byte) (h : i ≠ a) : Ram.get (Ram.set m a b) i = Ram.get m i := by
  unfold Ram.get Ram.set Tbl.getD
  split
  · rw [Tbl.find_drop_other m h]
  · rw [Tbl.find_put_other m b h]

theorem Ram.set_wf {m : Ram} (a : Nat) (b : Byte) (h : Ram.wf m = true) : Ram.wf (Ram.set m a b) = true := by
  simp only [Ram.wf, Bool.and_eq_true, List.all_eq_true, decide_eq_true_eq] at h ⊢
  unfold Ram.set
  split
  · exact ⟨Tbl.drop_wf a h.1, fun x hx => h.2 x (Tbl.mem_drop hx)⟩
  · refine ⟨Tbl.put_wf a b h.1, fun x hx => ?_⟩
    rcases Tbl.mem_put hx with rfl | hx
    · assumption
    · exact h.2 x hx

/-- A write of bytes keeps the canonical form. -/
theorem Ram.write_wf (size : Nat) (m : Ram) (a : Nat) (l : Bytes) (h : Ram.wf m = true) : Ram.wf (Ram.write size m a l) = true := by
  induction l generalizing m a with
  | nil => exact h
  | cons b t ih =>
    simp only [Ram.write]
    split
    · exact ih _ _ (Ram.set_wf a b h)
    · exact ih _ _ h

/-- A write of bytes leaves every byte outside them as it was. -/
theorem Ram.get_write_outside (size : Nat) (m : Ram) (a : Nat) (l : Bytes) (i : Nat) (h : i < a ∨ a + l.length ≤ i) :
    Ram.get (Ram.write size m a l) i = Ram.get m i := by
  induction l generalizing m a with
  | nil => rfl
  | cons b t ih =>
    simp only [List.length_cons] at h
    simp only [Ram.write]
    split
    · rw [ih _ _ (by omega), Ram.get_set_other _ _ (by omega)]
    · rw [ih _ _ (by omega)]

/-- A register written keeps the file canonical: offsets rising and no word of 0 listed. -/
theorem setWord_wf {m : Tbl Word} (off : Nat) (v : Word) (h : Tbl.wf m = true) : Tbl.wf (setWord m off v) = true := by
  unfold setWord
  split
  · exact Tbl.drop_wf off h
  · exact Tbl.put_wf off v h

/-- The reset state's registers are in canonical form. -/
theorem reset_regs_wf : Tbl.wf State.reset.dev.regs = true := by decide +kernel

end Sys2Proof.Machine
end

