-- ==== Sys2Proof/Laws/Step.lean ====
section
/-! SUPPORT. What a command can do to the state: it runs on the device alone, or on the device and the key store, and no command touches the
queue. Statements about every command follow from these without a look at any one of them. -/

namespace Sys2Proof.Machine

open Sys2Proof

/-- A command that is none of those of the key store runs on the device alone. -/
theorem exec_run (s : State) (c : Instr) (h : changesKeys c = false) : ∃ dt f, exec c s = s.run dt f := by
  cases c <;> cases h <;> (dsimp only [exec]; exact ⟨_, _, rfl⟩)

/-- A command that no warm reset can follow runs on the device and the key store. -/
theorem exec_runKey (s : State) (c : Instr) (h : canWarmReset c = false) : ∃ dt f, exec c s = s.runKey dt f := by
  by_cases hk : changesKeys c = false
  · obtain ⟨dt, f, e⟩ := exec_run s c hk
    exact ⟨dt, fun k d => (k, f k d), e⟩
  · cases c <;> first | exact absurd rfl hk | (cases h; done) | (dsimp only [exec]; exact ⟨_, _, rfl⟩)

/-- The others run in the same way, and the clock ratios are checked then. -/
theorem exec_checkRatio (s : State) (c : Instr) (h : canWarmReset c = true) : ∃ dt f, exec c s = checkRatio (s.runKey dt f) := by
  cases c <;> first | (cases h; done) | (dsimp only [exec]; exact ⟨_, _, rfl⟩)

/-- A command of a ring that is none of those of the key store is accepted from that ring, at once. -/
theorem exec_accept (s : State) (i : Instr) (c : Ctx) (h : ctxOf i = some c) (hk : changesKeys i = false) :
    ∃ (w : Bool) (g : Option Nat) (f : KeySt → Dev → Dev → Dev × CmdRes), exec i s = s.run 0 (fun k d => d.accept c w g (f k d)) := by
  cases i <;> first
    | (cases h; done)
    | (cases hk; done)
    | (cases h; cases hk; dsimp only [exec]; exact ⟨_, _, _, rfl⟩)

/-- A ring that offers no descriptor has nothing to accept. -/
theorem accept_idle {d : Dev} {c : Ctx} (h : d.offers c.ring = false) (w : Bool) (g : Option Nat) (f : Dev → Dev × CmdRes) :
    d.accept c w g f = d := by
  simp [Dev.accept, Dev.accepts, h]

end Sys2Proof.Machine
end

