-- ==== Sys2Proof/Tests/Slice0.lean ====
section
/-! SUPPORT. Tests: one step each on small states, and for every statement a state and operands that meet its hypotheses. -/

namespace Sys2Proof.Tests

set_option Elab.async false
set_option linter.unusedVariables false

open Sys2Proof Sys2Proof.Machine

/-- A state with some registers set. -/
def set (l : List (Nat × Nat)) (s : State) : State := { s with dev := l.foldl (fun d x => d.setRegN x.1 x.2) s.dev }

/-- A state with a part of its device changed. -/
def dev (f : Dev → Dev) (s : State) : State := { s with dev := f s.dev }

/-- A device whose registers and parts are empty. -/
def s0 : State := { key := {}, dev := {}, pending := [] }

/-- A device whose COMMAND ring 0 runs with one descriptor posted. -/
def sR : State := set [(Reg.HIF_RINGn_POSTED 0, 1)]
  (dev (fun d => (((d.setFld (Fld.HIF_RINGn_CFG_KIND 0) 1).setBit (Fld.HIF_RINGn_CFG_EN 0) true).setFld (Fld.HIF_RINGn_STAT_STATE 0) 1).setBit
    Fld.HIF_STATUS_CMD_READY true) s0)

/-- The context of a command on ring 0. -/
def c0 : Ctx := { ring := 0, tag := 0, resAddr := 0x1000 }

/-- A local seal without records. -/
def seal0 : SealInfo := { at_ := 0, early := false, suspect := false, index := [], refill := [], reformed := false, published := [], sums := [] }

/-- A device whose Crater runs at 60 epochs a second with epoch 0 sealed. -/
def sC : State := set [(Reg.CRT_CFG, 60)] (dev (fun d => (d.setBit Fld.CRT_STATUS_RUNNING true).modCrt (fun q =>
  { q with first := 0, nextSeal := 1, recent := [(0, seal0)] })) s0)

/-- Operands of an express publication. -/
def exp0 : ExpOps :=
  { en := true, portMask := 1, dstMac := 0x010CCD010000, appid := 1, vlanId := 5, vlanPri := 4, gocbRef := [0x41], datSet := [0x42], goId := [0x43]
    confRev := 1, test := false, simulation := false, members := [0, 512], rtFirst := 4, rtMax := 1000, safeAlarm := true, auth := false, keySlot := 0 }

/-- A device 0 that is joined with device 1, itself the summit, or device 1 the summit. -/
def sFab (summit : Nat) : State :=
  dev (fun d => (d.setBit Fld.FAB_STATUS_JOINED true).modFab (fun f =>
    { f with views := [{ num := 3, fromEpoch := 0, members := 3, summit := summit, minority := false }] })) s0
def sF : State := sFab 0
def sF1 : State := sFab 1

def vote0 : VoteMsg := { shortEpoch := 7, groups := 1, island := false, view := 3 }

/-- A device whose front-end link 1 is enabled, with the module's state given. -/
def sFe (m : FeModSt) (up meas : Bool) : State :=
  dev (fun d => (((d.setFbit Fld.ACQ_CTRL_FE_EN 1 true).setFbit Fld.ACQ_STATUS_LINK_UP 1 up).setFbit Fld.ACQ_STATUS_MEAS 1 meas).setFeMod 1 m) s0

def frame0 (seq : Nat) : FeFrame :=
  let b := [BitVec.ofNat 8 seq, 2] ++ zeros 42
  ⟨b ++ beBytes 2 (crc16 b), true⟩

/-- A LOCAL stream entry of one channel. -/
def local0 : StreamEntry :=
  { type := 5, authReq := false, testAccept := false, portMask := 0, prio := 0, vlanId := 0, vlanAny := false, srcId := 0, udpPort := 0
    srcAddr := [], chanBase := 0, nchan := 0, frate := 0, primary := 0, mirror := 0, keySlot := 0, staleN := 1, fifoCells := 4, outIdcode := 0
    frameLen := 0, pmuBlk := 0, format := 0, timeBase := 0, svidCrc := 0, cfgSig := 0, phnmr := 0, annmr := 0, dgnmr := 0 }

def sLocal : State := set [(Reg.ENG_STATUS, 0xFF0010)] (dev (fun d => d.setStream 9 { entry := { cur := some local0 } }) sC)

/-- A device with no phasor engine, one whose Geyser is idle, and two with engines, of which one has a ranking to do. -/
def sLocalWaits : State := set [(Reg.ENG_STATUS, 0xFF0000)] sLocal
def sIdle : State := dev (fun d => (d.modTim (fun t => { t with acc := 2 ^ 40 * 1000000000 })).modGey (fun g => { g with tick := some 9 })) s0
def sEng : State := set [(Reg.ENG_STATUS, 0xFF0010)] sC
def sRanking : State := dev (fun d => d.modOsc (fun o => { o with ranking := some (0, 0, true, []) })) sEng

/-- A device whose Geyser runs, with detector 3 and trigger 5 as given. -/
def sGey (l : LcSt) (t : TrigSt) : State :=
  dev (fun d => ((d.setBit Fld.GEY_CTRL_EN true).setBit Fld.GEY_STATUS_RUNNING true).modGey (fun g => { g with lcs := g.lcs.put 3 l, trigs := g.trigs.put 5 t })) s0

def lc0 : LcEntry := { ch := 0, qty := 0, mode := 0, chatN := 0, t := 0x3F800000, hyst := 0, hold := 0, chatWin := 1 }

/-- A trigger that cares about grid-event bit 0. -/
def trig0 : TrigEntry := { must0 := 1, must1 := 0, level := true, markFall := false, stuckS := 1, holdoff := 2, repeat_ := 5 }

/-- A device whose ring 1 is of kind `kind` and runs with one buffer. -/
def sBuf (kind : Nat) (s : State) : State := set [(Reg.HIF_RINGn_POSTED 1, 1)]
  (dev (fun d => (((d.setFld (Fld.HIF_RINGn_CFG_KIND 1) kind).setBit (Fld.HIF_RINGn_CFG_EN 1) true).setFld (Fld.HIF_RINGn_STAT_STATE 1) 1).setRing 1
    { bufs := [⟨0x1000, 4096, false⟩] }) s)

/-- A device that streams while its Geyser does not evaluate. -/
def sStreaming : State := dev (fun d => (d.setBit Fld.GEY_CTRL_STREAM_EN true).modTim (fun t => { t with acc := 2 ^ 40 * 1000000000 })) s0

/-- Channel 0 of a module that measures, its newest sample 0 at tick 3. -/
def chan0 (d : Dev) : Dev :=
  (d.setFbit Fld.ACQ_STATUS_MEAS 0 true).setFeMod 0 { yTop := 3, chans := [{ hist := [{ y := 0 }] }] }

/-- A detector of channel 0, which measures, is frozen and calm for a window. -/
def sCalm : State := set [(Reg.GEY_CHAT_LO, 8)] (dev chan0 (sGey { ent := some lc0, under := true } {}))

def sHold : State := dev chan0 (sGey { ent := some { lc0 with hold := 2 }, under := true, clearSince := some 1 } {})

/-- The image and the entry of a one-element metering point. -/
def nrgImage : Bytes := [6, 0, 0, 0xFF, 0xFF, 1, 0xFF, 0xFF, 0, 0, 0, 0x37, 0, 0, 0, 0x37] ++ zeros 16
/-- The same entry with VALID 0. -/
def nrgOff : Bytes := [2] ++ nrgImage.drop 1
def nrg0 : NrgEntry := nrgEntryOf nrgImage
def saveOf (p crc : Nat) : SaveSlot := ⟨saveBody p false 4 0 crc 0 (List.replicate 16 7) ++ leBytes 8 4⟩
def save0 : SaveSlot := saveOf 3 9

/-- A device that meters, with pin 2 as given; one with point 1 valid; and one with a save of point 3. -/
def sNrg (p : PulseSt) : State := set [(Reg.NRG_CFG, 0x100)] (dev (fun d => (d.setBit Fld.NRG_CTRL_EN true).modPin 2 (fun _ => p)) s0)
def sNrgPt (v : Option (Nat × Bool × SaveSlot)) : State := dev (fun d => d.modPoint 1 (fun _ => { ent := some nrg0, saving := v })) (sNrg {})
def sSaved (x : SaveSlot) : State := dev (fun d => d.setSaveSlot 3 0 x) sR

/-- Two small programs, a station, and a device that runs the first with its station 7. -/
def prog0 : Program :=
  { codeLen := 4, retLen := 0, entry := 0, period := 20, outAt := 3000, wcet := 2400, layoutId := 1, programId := 9, code := zeros 4, retInit := []
    values := [], insts := [] }
def prog1 : Program := { prog0 with programId := 10 }
def station0 : StationEntry :=
  { seg := 0, addr := 5, timeoutCyc := 3, tmo := 4, nMod := 1, subst := 1, chatN := 0, chatWin := 1, stuckS := 0, modIn := [4, 0, 0, 0, 0, 0, 0, 0]
    modOut := List.replicate 8 0, dflt := 0 }
def sCyc (f : CycSt → CycSt) : State := set [(Reg.CYC_STATUS, 0x31), (Reg.CYC_CFG, 0x300000)] (dev (fun d => d.modCyc (fun c => f { c with
  banks := [some prog0, some prog1], running := true, outputsOn := true, stations := [(7, { entry := some station0 })] })) s0)

/-- An image of a program, with its ICRC and its TAG under key bytes `k`. -/
def image0 (k : Bytes) : Bytes :=
  let h := [0x4C, 0x4C, 0x4B, 0x31, 1, 0, 0, 0, 4, 0, 0, 0, 0, 0, 0, 0, 0, 0, 0, 0, 20, 0, 0, 0] ++ leBytes 4 3000 ++ leBytes 4 2400 ++ zeros 92 ++ zeros 4
  let c := h.take 124 ++ leBytes 4 (crc32 h) ++ h.drop 128
  c.take 64 ++ hmacSha256 k c ++ c.drop 96

/-- An operational key store with a key for images in slot 5. -/
def key0 : KeySt :=
  let v (w : Nat) : Slot := { state := .valid, world := w, alg := 0x20, lcMask := 3, master := 0, cur := some { keyId := 1, bytes := zeros 32 } }
  { lc := .operational, started := true, root := some (zeros 32), slots := [(0, v 0), (5, v 4)] }

/-- A COMMAND ring beside a cyclic program that does not run, and beside one that runs. -/
def sRcyc (f : CycSt → CycSt) (run : Bool) : State := { set [(Reg.CYC_STATUS, 0x30 + b2n run), (Reg.CYC_CFG, 5)] (dev (fun d => d.modCyc (fun c => f { c with
  banks := [some prog0, some prog1], running := run, outputsOn := run })) sR) with key := key0 }
/-- A running program with a copy of its retained data that waits for MRAM. -/
def sRetDue : State := sCyc (fun c => { c with retDue := some ⟨7, 1, 9, 512, []⟩ })
def stationImage0 : Bytes := [1, 5, 3, 4, 1, 1, 0, 1] ++ zeros 8 ++ [4] ++ zeros 47

/-- A reply of the station to cycle 0. -/
def reply0 : Bytes :=
  let b := [2, 5, 1, 2] ++ zeros 4 ++ beBytes 8 3 ++ [1] ++ zeros 7
  b ++ beBytes 4 (crc32 b) ++ zeros 18

/-- Work items: an unordered item of the phasor engines at PRIO `p`, queued as number `n`, and one in service on engine `e`. -/
def item0 (p : Nat) : WorkItem := { prio := p, cls := 0, origin := 2, budget := 40, tag := 1 }
def q0 (p n : Nat) : QItem := { item := item0 p, order := n }
def run0 (p n e : Nat) : Running := { q := q0 p n, engine := e, since := 0, bank := 0, dispatch := n }

/-- A device of which phasor engine 4 and all detector engines are active, with PE 15 the spare. -/
def sSch (q : List QItem) (r : List Running) : State := set [(Reg.ENG_STATUS, 0xFF0010), (Reg.SCH_MC_LOAD, 0x505A00)]
  (dev (fun d => d.modSch (fun x => { x with queue := q, service := r })) s0)

/-- The header of an engine image of class `cls` with its ICRC and its TAG under key bytes `k`. -/
def engImage0 (cls : Nat) (k : Bytes) : Bytes :=
  let h := [0x47, 0x45, 0x4E, 0x31, BitVec.ofNat 8 cls] ++ zeros 59
  let c := h.take 60 ++ leBytes 4 (crc32 h)
  c.take 24 ++ hmacSha256 k c ++ c.drop 56

/-- A COMMAND ring beside key slot 5 for engine images, with an image in bank B of class 0. -/
def sReng : State := { set [(Reg.ENG_CFG, 5)] (dev (fun d => d.modSch (fun x => { x with
  banks := [[none, some ⟨3, 0, true, []⟩], [none, none], [none, none]], trace := [zeros 32, zeros 32], traceSeq := 2 })) sR) with key := key0 }

/-- A device whose port 1 is enabled with its link up, an IPv4 address, and the port's state changed by `f`. -/
def sPort (f : PortSt → PortSt) : State := set [(Reg.NET_Pp_CFG 1, 1), (Reg.NET_Pp_STATUS 1, 1), (Reg.NET_Pp_FRAME 1, 1518), (Reg.NET_Pp_MAC_LO 1, 5)]
  (dev (fun d => d.modPort 1 (fun s => f { s with ip4 := [some 7, none, none, none] })) s0)

def arp0 : EthFrame := { dst := 0xFFFFFFFFFFFF, src := 9, size := 64, body := .arp 7 3 9 }
def tx0 : TxFrame := { size := 64, body := .arpReply 7 5 3 9 }
def cur0 : TxCur := { queue := 5, frame := { size := 9018, body := .session 0 0 0 0 0 [] }, startAt := 0, endAt := 72208000, done := 0 }

/-- A C37.118 session of one epoch in two, with an epoch to publish; and a GOOSE session whose retransmission is due. -/
def sess0 (type : Nat) : SessEntry :=
  { type := type, valid := true, txOn := true, auth := false, splitMute := false, portMask := 2, pcp := 5, tagged := false, vlanId := 0, srcPort := 1
    dstPort := 2, dstMac := 3, addrIdx := 0, ipv6 := false, ttl := 1, dstIp := 4, id := 5, rateDiv := 2, format := 0, timeBase := 1000, listBase := 0
    listLen := 1, nasdu := 1, keySlot := 0, dscp := 0, rtFirst := 4, rtMax := 1000 }
def sSess (x : SessSt) : State := dev (fun d => d.modNet (fun n => { n with sess := [(3, x)] })) (sPort id)

/-- A device with a C37.118 session that has two epochs to publish, and phasor engines to format them. -/
def sSessEng : State := set [(Reg.ENG_STATUS, 0xFF0010)] (sSess { entry := some (sess0 0), txOn := true, todo := [3, 4] })
/-- A device whose field MAC 1 runs with a frame as given. -/
def sField (x : Option FieldTx) : State := dev (fun d => (d.setFbit Fld.NET_FLD_CFG_EN 1 true).setFieldTx 1 x) s0
def ftx0 : FieldTx := { payload := [], attempts := 1, startedAt := some 0, outAt := 0 }

/-- A COMMAND ring beside session 3, and beside a key for MACsec in slot 6. -/
def sRnet : State :=
  let v (w : Nat) : Slot := { state := .valid, world := w, alg := 0x10, lcMask := 3, master := 0, cur := some { keyId := 1, bytes := zeros 32 } }
  { set [(Reg.NET_Pp_FRAME 1, 1518), (Reg.CRT_CFG, 60)] (dev (fun d => (d.modNet (fun n => { n with sess := [(3, { entry := some (sess0 0) })] })).setStream 0
    { entry := { cur := some local0 } }) sR) with key := { lc := .operational, started := true, root := some (zeros 32), slots := [(0, v 0), (6, v 3)] } }
def sessImage0 : Bytes := [4, 2] ++ zeros 13 ++ [1] ++ zeros 18 ++ [1, 0, 1, 0, 0] ++ zeros 3 ++ [1] ++ zeros 21

/-- A device whose time unit runs with DOM0 from source `src`, served by port 1, which has its link up. -/
def sTim (src : Nat) (f : TimSt → TimSt) : State := set [(Reg.TIM_CTRL, 3), (Reg.TIM_DOMd_CFG 0, src), (Reg.TIM_Pp_PTP 1, 5), (Reg.TIM_CFG, 0x31000)]
  (dev (fun d => d.modTim f) (sPort id))

/-- A TOD message of second 3 with the flags given. -/
def tod0 (flags : Nat) : Bytes :=
  let b := [0x54, 0x44, 1, BitVec.ofNat 8 flags] ++ beBytes 6 3 ++ [37] ++ beBytes 4 30
  b ++ beBytes 2 (crc16 b)

/-- A device that has acquired G-time on DOM0, the GNSS module, with an edge that waits for its message. -/
def sPps : State := set [(Reg.TIM_STATUS, 0x301), (Reg.TIM_LIM, 0x640064)] (sTim 2 (fun t => { t with lastPps := some 65536, ppsUsed := false, followed := some 0 }))

/-- A device whose PPS_OUT is high, at a time that is no second; and one whose TOD message comes after its edge has counted. -/
def sPpsHigh : State := set [(Reg.TIM_CTRL, 0x21)] (dev (fun d => (d.modTim (fun t => { t with acc := 5000 * 2 ^ 40, ppsOut := true, ppsOutUntil := 100 }))) s0)
def sPpsLate : State := dev (fun d => d.modTim (fun t => { t with ppsUsed := true, ppsLate := true })) sPps

def wReacq : WaitCmd := { ring := 0, k := 0, session := 0, resAddr := 0, kind := .timReacquire, since := 0 }

/-- A device 0 whose link 1 is in state `st`, at L4 where it is up, toward device 1. -/
def sLink (st : Nat) : State := set [(Reg.FAB_CTRL, 2), (Reg.FAB_Ln_STATUS 1, st + (if st = 3 then 0x130 else 0)), (Reg.FAB_SHED, 0x3E84628)]
  (dev (fun d => d.modLink 1 (fun x => { x with trained := true })) s0)

def hello0 : HelloMsg := { device := 1, fabricId := 0, link := 3, rate := 0, wait := 0, rev := 1, joined := false, view := 0, members := 2 }
/-- A data packet to a device on virtual channel 1, with one credit for channel 0 and the payload 1 to 8, its hops used up. -/
def packet (dst : Nat) : LinkPacket :=
  let b : Bytes := [0x40, 0, 0x0F, 0xFF, BitVec.ofNat 8 dst, 1, 0x18, 0, 0, 1, 0, 8, 0, 0, 0, 0, 1, 2, 3, 4, 5, 6, 7, 8]
  ⟨b ++ beBytes 4 (crc32 b)⟩
def pkt0 : LinkPacket :=
  packet 0
/-- A link control packet with a payload. -/
def pktWidth : LinkPacket :=
  let b : Bytes := [0x50, 0, 0x0F, 0xFF, 0, 1, 0x18, 0, 0, 0, 0, 1, 0, 0, 0, 0, 9]
  ⟨b ++ beBytes 4 (crc32 b)⟩
def sReplay (st : Nat) : State := dev (fun d => d.modLink 1 (fun x => { x with replay := [{ vc := 1, dst := 1, src := 0, hops := 6, msgSeq := 0, first := true, last := true, payload := zeros 8 }] })) (sLink st)

/-- A device of a view of two that holds a message to device 1, which it reaches by link 1. -/
def held0 : HeldMsg := { dst := 1, vc := 1, seq := 0, msg := .summit 3, sentAt := 0, firstAt := 0, sent := true }
def sHeld : State := dev (fun d => d.modFab (fun f => { f with held := [held0], primary := [(1, ⟨1, 1, 1⟩)] })) sF

/-- Device 2 of a view of three. -/
def sF3 : State := set [(Reg.FAB_CFG, 2)] (dev (fun d => (d.setBit Fld.FAB_STATUS_JOINED true).modFab (fun f =>
  { f with views := [{ num := 3, fromEpoch := 0, members := 7, summit := 1, minority := false }] })) s0)
def change0 : ViewChange := { suspects := 2, since := 0 }
def nv0 : NewViewMsg := { view := 4, prevView := 3, fromEpoch := 9, members := 5, summit := 0, minority := false }
def sJoining : State := dev (fun d => (d.modFab (fun f => { f with joining := some 0 })).modHif (fun h => { h with waiting := [{ wReacq with kind := .fabJoin }] })) s0
def sHist : State := dev (fun d => d.setStream 9 { entry := { cur := some local0 } }) sF
def sSplit : State := set [(Reg.FAB_CFG, 0x1000)] (dev (fun d => (d.setBit Fld.CRT_STATUS_SPLIT true).modFab (fun f => { f with primary := [(1, ⟨1, 1, 1⟩)] })) s0)
def rec0 : Rec := { stream := 9, qual := 0, type := 5 }

/-! The key tree of the worked example of R493: the owner key, an area master in slot 3, and an R90_5 key in slot 40. -/
def slotOf (w alg master : Nat) (id : Nat) : Slot :=
  { state := .valid, world := w, alg := alg, lcMask := 3, master := master, cur := some { keyId := id, bytes := zeros 32 } }
def keySlots : Tbl Slot := [(0, slotOf 0 0x30 0 1), (3, slotOf 0 0x30 0 2), (40, { slotOf 1 2 3 3 with next := some { keyId := 4, bytes := zeros 32 } })]
def keyTree : KeySt :=
  { lc := .operational, started := true, root := some (zeros 32), deviceId := 5, retainedId := 5, counter := 1000
    slots := keySlots, cells := keySlots.mapVals (fun n x => sealSlot (some (zeros 32)) n x) }

/-- A key-update descriptor of a message of 112 bytes, and one whose OPCODE is not 0. -/
def desc0 : KeyDesc := { readOk := true, bytes := [0, 0, 0, 0, 112, 0, 0, 0, 0, 0x10] ++ zeros 22, msgOk := true }
def descBad : KeyDesc := { desc0 with bytes := [1, 0, 0, 0, 112, 0, 0, 0, 0, 0x10] ++ zeros 22 }
/-- A device with key store `k` whose ring 1 is a KEY_UPDATE ring with a descriptor. -/
def sKey (k : KeySt) : State := { sBuf 3 s0 with key := k }

/-- An update message under a key of 32 zero bytes: its bytes 24 to 31 are `mid`, its key block is what 48 zero bytes decrypt to. -/
def upd0 (kind target auth counter : Nat) (mid : Bytes) (keyId : Nat) : Bytes :=
  let aad := [BitVec.ofNat 8 kind, 1] ++ leBytes 2 target ++ leBytes 2 auth ++ zeros 2 ++ leBytes 8 5 ++ leBytes 8 counter ++ mid ++ leBytes 4 keyId ++ zeros 12
  aad ++ zeros 48 ++ gcmTag (hkdfSha256 (leBytes 8 5) (zeros 32) (asciiBytes "G840 key update") 32) (zeros 12) aad (zeros 48)

/-- A device whose PLL has locked, before key-store start. -/
def sPll (k : KeySt) : State := { dev (fun d => d.setBit Fld.CLK_STATUS_PLL_LOCK true) s0 with key := k }
def cell0 : KeyCell := { state := .valid, world := 1, alg := 2, lcMask := 3, master := 3, cur := some ⟨zeros 12, zeros 25, zeros 16⟩ }
def jr0 : Journal := { state := .open_, kind := 1, target := 41, counter := 1001, change := .setCell 41 cell0 }
def jr1 : Journal := { jr0 with state := .committed }

/-- A device whose recorder runs, and one with a COMMAND ring beside; a record of TRNG_FAIL. -/
def sSnt (f : SntSt → SntSt) : State := set [(Reg.SNT_STATUS, 1), (Reg.SNT_CFG, 0x3E8)] (dev (fun d => d.modSnt f) s0)
def snt0 (n : Nat) : SntRec := { seq := n, code := 0x0E05, severity := 3, timeSuspect := false, status := 0, index := 0xFFFF, timeUs := 0, opSec := 0, powerCycles := 1, arg := 7 }
def sRsnt : State := set [(Reg.SNT_STATUS, 1), (Reg.SNT_CFG, 0x3E8)] (dev (fun d => d.modSnt (fun x => { x with log := [snt0 4, snt0 9], nextSeq := 10 })) sR)

/-- The TAG of a clear of device 5 with COUNTER 1,001, UP_TO_SEQ 9 and MAX_SEV 3 under a key of 32 zero bytes. -/
def clearTag0 : Bytes :=
  hmacSha256 (hkdfSha256 (leBytes 8 5) (zeros 32) (asciiBytes "G840 sinter clear") 32) (leBytes 8 5 ++ leBytes 8 1001 ++ leBytes 8 9 ++ leBytes 1 3)

/-- An error entry whose condition is over, a device with a queue of errors, and one with a COMMAND ring beside. -/
def err0 (cls index level : Nat) : ErrEntry :=
  { seq := 0, cls := cls, level := level, status := 0, index := index, diag := 0xFF, timeUs := 0, clearAt := some 0 }
def sSaf (l : List ErrEntry) : State := set [(Reg.SAF_CFG, 0x14180064)] (dev (fun d => d.modSaf (fun q => { q with queue := l })) s0)
def sRsaf : State := dev (fun d => d.modSaf (fun q => { q with queue := [err0 1 4 1] })) sR

/-- A device with a clock unit as given, and one that meters a valid point beside a COMMAND ring. -/
def sClk (l : List (Nat × Nat)) (f : ClkSt → ClkSt) : State := set l (dev (fun d => d.modClk f) s0)
def sRnrg : State := dev (fun d => (d.setBit Fld.NRG_CTRL_EN true).modPoint 1 (fun _ => { ent := some nrg0 })) sR

/-- A board identity memory. -/
def board0 : Bytes :=
  let b := [0x54, 0x49, 1, 1, 0, 7, 2, 0] ++ List.replicate 16 0x20 ++ beBytes 2 2030 ++ [9] ++ zeros 5 ++ beBytes 2 0x1234 ++ beBytes 2 0x5678 ++ [1] ++ zeros 215
  b ++ beBytes 4 (crc32 b)
def sRinv : State := dev (fun d => (d.setFbit Fld.INV_STATUS_PRESENT 0 true).modInv (fun i => { i with mem := [(0, board0)] })) sR

/-- An image set with SET_SEQ 3 and three images of 64 bytes, its tag under a key of 32 zero bytes in slot 5. -/
def nor0 : Bytes :=
  let entry (cls off : Nat) : Bytes := [BitVec.ofNat 8 cls, 0, 0, 0] ++ leBytes 4 off ++ leBytes 4 64 ++ zeros 4 ++ sha256 (zeros 64)
  let rest := leBytes 2 5 ++ [3, 0] ++ entry 0 512 ++ entry 1 576 ++ entry 3 640 ++ zeros 240
  let dir := leBytes 4 0x31534947 ++ leBytes 8 3 ++ rest ++ hmacSha256 (zeros 32) (leBytes 4 0x31534947 ++ zeros 8 ++ rest) ++ zeros 76
  dir ++ leBytes 4 (crc32 dir) ++ zeros 192
def sNor : State := dev (fun d => d.modInv (fun i => { i with nor := [some nor0, none] })) (sClk [] (fun x => { x with keyStarted := true, discovered := true }))
def sRnor (busy : Bool) : State := dev (fun d => d.modInv (fun i => { i with nor := [some nor0, none], norBusy := busy })) sR

/-- COMMAND ring 0 with 64 places, five posted; the descriptor of HIF_NOP with operand 5. -/
def sRing : State := set [(Reg.HIF_RINGn_CFG 0, 0xC3), (Reg.HIF_RINGn_POSTED 0, 5)] sR
def rawNop : RawCmd :=
  { ring := 0, descOk := true, desc := [1, 1, 0, 0, 8] ++ zeros 27, argsOk := true, args := leBytes 4 5 ++ zeros 4, buffer := [], answers := [], steps := 0 }

/-- A command that waits for the image set, the buffer in use of ring 1, an armed ring with what completed, and what waited in D3hot. -/
def sWait : State := dev (fun d => d.modHif (fun h => { h with waiting := [{ wReacq with kind := .norWrite }] })) sR
def open0 : OpenBuf := { k := 0, buf := ⟨0x1000, 4096, false⟩, used := 64, recs := 2 }
def sRopen : State := dev (fun d => d.setRing 1 { cur := some open0 }) (sBuf 6 sR)
def sOpen : State := dev (fun d => d.setFld (Fld.HIF_RINGn_CFG_COALESCE_US 1) 10) sRopen
def sArm (mask : Nat) : State := set [(msixOff 0 3, mask), (msixOff 0 2, 9)] (dev (fun d => ((d.setRing 1 { unsignalled := 2 }).setBit
  (Fld.HIF_RINGn_STAT_ARMED 1) true).setFld (Fld.HIF_RINGn_IRQ_MOD_US 1) 5) s0)
def sD3 : State := dev (fun d => (d.setBit Fld.HIF_STATUS_D3 true).modHif (fun h => { h with heldDone := [⟨0, 0, 0, 0, 7, 0, []⟩] })) sR
def sBuf6 : State := set [(Reg.HIF_RINGn_CFG 1, 0xCD)] (sBuf 6 s0)

/-- A C37_HOST stream of one block of 4 bytes, its frame of second 0, and devices that take it, that hold it in a FIFO. -/
def ent37 : StreamEntry :=
  { type := 1, authReq := false, testAccept := false, portMask := 0, prio := 3, vlanId := 0, vlanAny := false, srcId := 5, udpPort := 0
    srcAddr := zeros 16, chanBase := 16, nchan := 1, frate := 60, primary := 0, mirror := 0, keySlot := 0, staleN := 1, fifoCells := 4, outIdcode := 0
    frameLen := 4, pmuBlk := 0, format := 0, timeBase := 1000, svidCrc := 0, cfgSig := 0, phnmr := 0, annmr := 0, dgnmr := 0 }
def stream37 : StreamSt := { entry := { cur := some ent37 } }
def frame37 : Bytes := let b := [0xAA, 2, 0, 20, 0, 5] ++ zeros 12; b ++ beBytes 2 (crc16 b)
def item37 : FifoItem := { rx := 3, port := 7, cells := 1, tag := epochTime 60 1, suspect := false, invalid := false, test := false, body := .block (zeros 4) }
def sFeed (l : List (Nat × StreamSt)) : State := set [(Reg.ING_CTRL, 0x11)] (dev (fun d => d.modIng (fun g => { g with streams := l })) (sBuf 2 sC))
def sIng : State := set [(Reg.ING_CTRL, 0x1F)] (dev (fun d => d.modIng (fun g => { g with streams := [(9, { stream37 with fifo := [item37] })] })) s0)
def runConv : Running := { run0 3 0 4 with q := { item := { item0 3 with origin := 1, tag := 9 }, order := 0 } }
def sItem (f : State → State) : State := f (set [(Reg.CRT_ALIGN, 50)] (dev (fun d => (d.modIng (fun g =>
  { g with streams := [(9, { stream37 with fifo := [item37] })] })).modSch (fun x => { x with service := [runConv] })) sC))
def sDdr : State := set [(Reg.CRT_CFG, 60), (Reg.CRT_HIST, 0x1001000)] (dev (fun d => (d.setBit Fld.RST_STATUS_DDR_READY true).setFld Fld.RST_STATUS_DDR_GIB 16) s0)

/-- An entry image of a C37_HOST stream of one frequency of 10 bytes, the same with device 1 as primary, and states with such streams. -/
def image37 : Bytes := [0x11, 0x30, 0, 0, 5, 0] ++ zeros 18 ++ [16, 0, 1, 60, 0, 0, 0, 0, 1, 4, 0, 0, 6, 0, 0, 0, 0xE8, 3] ++ zeros 22
def imageMirror : Bytes := [0x11, 0x30, 0, 0, 5, 0] ++ zeros 18 ++ [16, 0, 1, 60, 1, 0, 0, 0, 1, 4, 0, 0, 6, 0, 0, 0, 0xE8, 3] ++ zeros 22
def chan37 (s : State) : State := dev (fun d => d.modIng (fun g => { g with chans := [(16, { zeroChan with kind := 1, enable := true, stream := 9 })] })) s
def sRstream : State := dev (fun d => d.setStream 9 stream37) sR
def sRpend : State := dev (fun d => d.setStream 9 { entry := { cur := none, pend := some (70, some ent37) } }) sR
def sMirror : State := set [(Reg.CRT_CFG, 60)] (dev (fun d => ((d.setBit Fld.CRT_STATUS_RUNNING true).setBit Fld.FAB_STATUS_JOINED true).modFab (fun f =>
  { f with claims := [(1, [(8201, ⟨0, 0, 0⟩)])], views := [{ num := 3, fromEpoch := 0, members := 3, summit := 0, minority := false }] })) (chan37 sR))

/-- Ingest that runs from epoch 100 on, with that epoch confirmed and not. -/
def sRlate : State := dev (fun d => (d.setBit Fld.CRT_STATUS_RUNNING true).modCrt (fun q => { q with first := 100, nextSeal := 104, nextConf := 102 })) sRstream
def sRearly : State := dev (fun d => d.modCrt (fun q => { q with nextConf := 100 })) sRlate

/-- A function at a number that is brought to a numeral first. -/
def atNumeral {α : Type} (f : Nat → α) : Nat → α
  | 0 => f 0
  | n + 1 => f (n + 1)

theorem atNumeral_eq {α : Type} (f : Nat → α) (n : Nat) : atNumeral f n = f n := by cases n <;> rfl

/-- CRC-32 with the sum so far a numeral at every byte, so that the kernel computes it byte by byte. -/
def crcRun : Bytes → Nat → Nat
  | [], c => c
  | b :: t, c => atNumeral (crcRun t) (crc32Byte c b)

theorem crcRun_eq_foldl : ∀ (b : Bytes) (c : Nat), crcRun b c = b.foldl crc32Byte c
  | [], _ => rfl
  | _ :: t, _ => (atNumeral_eq _ _).trans (crcRun_eq_foldl t _)

theorem crc32_eq_crcRun (b : Bytes) : crc32 b = crcRun b 0xFFFFFFFF ^^^ 0xFFFFFFFF :=
  congrArg (· ^^^ 0xFFFFFFFF) (crcRun_eq_foldl b _).symm

theorem nor0_valid : norValid key0 nor0 = true := by
  simp only [nor0, norValid, crc32_eq_crcRun]; decide +kernel

theorem nor0_rewritten_valid : norValid key0 (norWithSeq nor0 4) = true := by
  simp only [nor0, norWithSeq, norValid, crc32_eq_crcRun]; decide +kernel

/-- NOR0 is picked where it holds a valid set and NOR1 holds none. -/
theorem norPick_first (k : KeySt) (d : Dev) (b : Bytes) (h0 : d.norSet 0 = some b) (h1 : d.norSet 1 = none) (hv : norValid k b = true) :
    Dev.norPick k d = some 0 := by simp [Dev.norPick, h0, h1, hv]

/-- A device that can load the image set of NOR0. -/
def sNorKey : State := { sNor with key := key0 }

theorem sNorKey_picks_nor0 : Dev.norPick sNorKey.key (later sNorKey.dev 5) = some 0 := norPick_first _ _ nor0 rfl rfl nor0_valid

/-! ## Published test vectors: FIPS 180-4, RFC 4231 case 1, RFC 5869 case 3, FIPS 197 C.1, and GCM test case 14 -/

theorem test_sha256 : sha256 [0x61, 0x62, 0x63] = beBytes 32 0xba7816bf8f01cfea414140de5dae2223b00361a396177a9cb410ff61f20015ad := by decide +kernel

theorem test_hmac : hmacSha256 (List.replicate 20 0x0B) [0x48, 0x69, 0x20, 0x54, 0x68, 0x65, 0x72, 0x65]
    = beBytes 32 0xb0344c61d8db38535ca8afceaf0bf12b881dc200c9833da726e9376c2e32cff7 := by decide +kernel

theorem test_hkdf : hkdfSha256 [] (List.replicate 22 0x0B) [] 42
    = beBytes 42 0x8da4e775a563c18f715f802a063c5a31b8a11f5c5ee1879ec3454e5f3c738d2d9d201395faa4b61a96c8 := by decide +kernel

theorem test_aes128 : aesBlock (aesKeys ((List.range 16).map (BitVec.ofNat 8))) ((List.range 16).map (fun i => BitVec.ofNat 8 (17 * i)))
    = beBytes 16 0x69c4e0d86a7b0430d8cdb78070b4c55a := by decide +kernel

theorem test_gcm_crypt : gcmCrypt (zeros 32) (zeros 12) (zeros 16) = beBytes 16 0xcea7403d4d606b6e074ec5d3baf39d18 := by decide +kernel

theorem test_gcm_tag : gcmTag (zeros 32) (zeros 12) [] (beBytes 16 0xcea7403d4d606b6e074ec5d3baf39d18)
    = beBytes 16 0xd0d1c8a799996bf0265b98b5d48ab919 := by decide +kernel

/-! ## Every statement has a state that meets its hypotheses -/

theorem witness_IngestTakesEffect_1 : ∃ (s : State) (v : Word) (d : Dev), (d = later s.dev 0) ∧ (d.gatedAt Reg.ING_CTRL = false) ∧
    (bitsAt v 0 1 = 1 ∧ (d.reg Reg.ING_CTRL).toNat.testBit 0 = false) ∧ (Dev.ingestRefused s.key d = false ∧ d.craterRuns = false) :=
  ⟨sDdr, 0x1F, later sDdr.dev 0,
    rfl, (by decide +kernel), (by decide +kernel), (by decide +kernel)⟩

theorem witness_IngestTakesEffect_2 : ∃ (s : State) (v : Word) (d : Dev), (d = later s.dev 0) ∧ (d.gatedAt Reg.ING_CTRL = false) ∧
    (bitsAt v 0 1 = 1 ∧ (d.reg Reg.ING_CTRL).toNat.testBit 0 = false) ∧
    (d.ddrMib < d.layoutCrt ∨ s.key.lc = .returned ∨ (d.joined = true ∧
    d.bit Fld.TIM_STATUS_ACQUIRED = false) ∨ d.bit Fld.RST_STATUS_DDR_READY = false) :=
  ⟨s0, 0x1F, later s0.dev 0,
    rfl, (by decide +kernel), (by decide +kernel), (by decide +kernel)⟩

theorem witness_IngestTakesEffect_3 : ∃ (s : State) (v : Word) (d : Dev), (d = later s.dev 0) ∧ (d.gatedAt Reg.ING_CTRL = false) ∧ (bitsAt
    v 0 1 = 0 ∧ (d.reg Reg.ING_CTRL).toNat.testBit 0 = true) :=
  ⟨sIng, 0x1E, later sIng.dev 0,
    rfl, (by decide +kernel), (by decide +kernel)⟩

theorem witness_IngestTakesEffect_4 : ∃ (s : State) (v : Word) (d : Dev), (d = later s.dev 0) ∧ (d.gatedAt Reg.ING_CTRL = false) ∧ (bitsAt
    v 0 1 = 1 ∧ (d.reg Reg.ING_CTRL).toNat.testBit 0 = true ∧ (List.range 5).any (fun b => (d.reg Reg.ING_CTRL).toNat.testBit b &&
    !v.toNat.testBit b) = true) :=
  ⟨sIng, 0x0F, later sIng.dev 0,
    rfl, (by decide +kernel), (by decide +kernel)⟩

theorem witness_IngestTakesEffect_5 : ∃ (s : State) (dt : Nat) (d : Dev), (d = later s.dev dt) ∧ (d.bit Fld.ING_STATUS_DRAINING = true ∧
    d.drains = false) :=
  ⟨set [(Reg.ING_STATUS, 2)] s0, 9, later (set [(Reg.ING_STATUS, 2)] s0).dev 9,
    rfl, (by decide +kernel)⟩

theorem witness_IngestTakesEffect_6 : ∃ (s : State) (dt : Nat) (d : Dev), (d = later s.dev dt) ∧ (d.bit Fld.ING_STATUS_DRAINING = false ∨
    d.drains = true) :=
  ⟨s0, 9, later s0.dev 9,
    rfl, (by decide +kernel)⟩

theorem witness_IngestTakesEffect_7 : ∃ (s : State) (dt n len : Nat) (f : HostFrame) (resv : Bool) (d : Dev), (d = later s.dev dt) ∧
    (d.runs n 2 = true ∧ d.hostReady = true ∧ 0 < d.available n ∧ d.ingests Fld.ING_CTRL_HOSTFEED_EN = true) ∧ (f.descOk = true ∧
    f.frameOk = true) ∧ (resv = true ∨ len = 0 ∨ 8192 < len ∨ f.bytes.length ≠ len ∨ beNat (slice f.bytes 0 1) ≠ 0xAA ∨ c37Type f.bytes ≠
    0) :=
  ⟨sFeed [], 0, 1, 0, { bytes := [] }, false, later (sFeed []).dev 0,
    rfl, (by decide +kernel), (by decide +kernel), (by decide +kernel)⟩

theorem witness_IngestTakesEffect_8 : ∃ (s : State) (dt n len : Nat) (ecc : List Nat) (frame : Bytes) (d : Dev), (d = later s.dev dt) ∧
    (d.runs n 2 = true ∧ d.hostReady = true ∧ 0 < d.available n ∧ d.ingests Fld.ING_CTRL_HOSTFEED_EN = true) ∧ (16 ≤ len ∧ len ≤ 8192 ∧
    frame.length = len ∧ beNat (slice frame 0 1) = 0xAA ∧ c37Type frame = 0 ∧ beNat (slice frame 1 1) % 16 = 2) ∧ (c37ChkOk frame = true ∧
    beNat (slice frame 2 2) = len ∧ d.ing.streams = []) :=
  ⟨sFeed [], 0, 1, 20, [1], frame37, later (sFeed []).dev 0,
    rfl, (by decide +kernel), (by decide +kernel), (by decide +kernel)⟩

theorem witness_IngestTakesEffect_9 : ∃ (s : State) (dt n : Nat) (frame : Bytes) (d : Dev) (i : Nat) (ent : StreamEntry) (st : StreamSt),
    (d = later s.dev dt) ∧ (d.runs n 2 = true ∧ d.hostReady = true ∧ 0 < d.available n ∧ d.ingests Fld.ING_CTRL_HOSTFEED_EN = true) ∧ (2 ≤
    ent.frameLen ∧ ent.frameLen ≤ 8176 ∧ frame.length = 16 + ent.frameLen ∧ beNat (slice frame 0 1) = 0xAA ∧ c37Type frame = 0 ∧ beNat
    (slice frame 1 1) % 16 = 2) ∧ (c37ChkOk frame = true ∧ beNat (slice frame 2 2) = frame.length ∧ beNat (slice frame 4 2) = ent.srcId) ∧
    (d.ing.streams = [(i, st)] ∧ st.entry = { cur := some ent, pend := none } ∧ ent.type = 1 ∧ ent.pmuBlk = 0) ∧ (beNat (slice frame 10 4)
    % 2 ^ 24 < ent.timeBase ∧ d.tagOfSoc (beNat (slice frame 6 4)) (beNat (slice frame 10 4) % 2 ^ 24) ent.timeBase d.g16 ≤ d.g16 +
    d.futureLim) ∧ (beNat (slice frame 14 2) / 2 ^ 14 ≠ 2 ∧ fifoCells st.fifo + ent.itemCells ≤ ent.fifoCells) :=
  ⟨sFeed [(9, stream37)], 0, 1, frame37, later (sFeed [(9, stream37)]).dev 0, 9, ent37, stream37,
    rfl, (by decide +kernel), (by decide +kernel), (by decide +kernel), (by decide +kernel), (by decide +kernel), (by decide +kernel)⟩

theorem witness_IngestTakesEffect_10 : ∃ (s : State) (dt n : Nat) (frame : Bytes) (d : Dev) (i : Nat) (ent : StreamEntry) (st : StreamSt),
    (d = later s.dev dt) ∧ (d.runs n 2 = true ∧ d.hostReady = true ∧ 0 < d.available n ∧ d.ingests Fld.ING_CTRL_HOSTFEED_EN = true ∧
    d.saf.queue = []) ∧ (2 ≤ ent.frameLen ∧ ent.frameLen ≤ 8176 ∧ frame.length = 16 + ent.frameLen ∧ beNat (slice frame 0 1) = 0xAA ∧
    c37Type frame = 0 ∧ beNat (slice frame 1 1) % 16 = 2) ∧ (c37ChkOk frame = true ∧ beNat (slice frame 2 2) = frame.length ∧ beNat (slice
    frame 4 2) = ent.srcId) ∧ (d.ing.streams = [(i, st)] ∧ st.entry = { cur := some ent, pend := none } ∧ ent.type = 1 ∧ ent.pmuBlk = 0) ∧
    (beNat (slice frame 10 4) % 2 ^ 24 < ent.timeBase ∧ d.tagOfSoc (beNat (slice frame 6 4)) (beNat (slice frame 10 4) % 2 ^ 24)
    ent.timeBase d.g16 ≤ d.g16 + d.futureLim) ∧ (beNat (slice frame 14 2) / 2 ^ 14 ≠ 2) :=
  ⟨sFeed [(9, stream37)], 0, 1, frame37, later (sFeed [(9, stream37)]).dev 0, 9, ent37, stream37,
    rfl, (by decide +kernel), (by decide +kernel), (by decide +kernel), (by decide +kernel), (by decide +kernel), (by decide +kernel)⟩

theorem witness_IngestTakesEffect_11 : ∃ (s : State) (dt i ecc : Nat) (d : Dev), (d = later s.dev dt) ∧ (d.runningItem 1 i = none) :=
  ⟨s0, 9, 4, 0, later s0.dev 9,
    rfl, (by decide +kernel)⟩

theorem witness_IngestTakesEffect_12 : ∃ (s : State) (dt i : Nat) (d : Dev) (r : Running) (it : FifoItem) (rest : List FifoItem), (d =
    later s.dev dt) ∧ ((d.stream i).fifo = it :: rest ∧ d.saf.queue = []) ∧ (d.runningItem 1 i = some r ∧ d.sch.service.all (fun r =>
    r.q.avoid.isNone) = true ∧ d.sch.slots = [] ∧ d.sch.switching.all (fun x => x.isNone) = true) :=
  ⟨sItem (fun s => s), 9, 9, later (sItem (fun s => s)).dev 9, runConv, item37, [],
    rfl, (by decide +kernel), (by decide +kernel)⟩

theorem witness_IngestTakesEffect_13 : ∃ (s : State) (dt i e : Nat) (d : Dev) (r : Running) (it : FifoItem) (rest : List FifoItem) (b :
    Bytes) (ent : StreamEntry), (d = later s.dev dt) ∧ ((d.stream i).fifo = it :: rest ∧ it.body = .block b ∧ (d.stream i).entry =
    { cur := some ent, pend := none } ∧ ent.type < 2) ∧ (e = nearestEpoch d.rate it.tag ∧ alignedTo d.rate (d.fld Fld.CRT_ALIGN_TOL) e
    it.tag = true ∧ dueAt d.rate ent e = true) ∧ (d.craterRuns = true ∧ d.crt.first ≤ e ∧ d.crt.nextSeal ≤ e ∧ e ≤ d.crt.nextDeliver + 127
    ∧ (d.stored e i).isNone = true) ∧ (d.runningItem 1 i = some r ∧ d.sch.service.all (fun r => r.q.avoid.isNone) = true ∧ d.sch.slots =
    [] ∧ d.sch.switching.all (fun x => x.isNone) = true) ∧ ((beNat (slice b 0 2)).testBit 10 = false) :=
  ⟨sItem (fun s => s), 9, 9, 1, later (sItem (fun s => s)).dev 9, runConv, item37, [], zeros 4, ent37,
    rfl, (by decide +kernel), (by decide +kernel), (by decide +kernel), (by decide +kernel), (by decide +kernel)⟩

theorem witness_IngestTakesEffect_14 : ∃ (s : State) (dt i e : Nat) (d : Dev) (r : Running) (it : FifoItem) (rest : List FifoItem) (b :
    Bytes) (ent : StreamEntry), (d = later s.dev dt) ∧ ((d.stream i).fifo = it :: rest ∧ it.body = .block b ∧ (d.stream i).entry =
    { cur := some ent, pend := none } ∧ ent.type < 2) ∧ (e = nearestEpoch d.rate it.tag ∧ alignedTo d.rate (d.fld Fld.CRT_ALIGN_TOL) e
    it.tag = true ∧ dueAt d.rate ent e = true) ∧ (d.craterRuns = true ∧ d.crt.first ≤ e ∧ d.crt.nextSeal ≤ e ∧ e ≤ d.crt.nextDeliver + 127
    ∧ (d.stored e i).isSome = true) ∧ (d.runningItem 1 i = some r ∧ d.sch.service.all (fun r => r.q.avoid.isNone) = true ∧ d.sch.slots =
    [] ∧ d.sch.switching.all (fun x => x.isNone) = true) ∧ ((beNat (slice b 0 2)).testBit 10 = false) :=
  ⟨sItem (dev (fun d => d.setSlot 1 { recs := [(9, ⟨rec0, 0, 0⟩)] })), 9, 9, 1, later (sItem (dev (fun d => d.setSlot 1
    { recs := [(9, ⟨rec0, 0, 0⟩)] }))).dev 9, runConv, item37, [], zeros 4, ent37,
    rfl, (by decide +kernel), (by decide +kernel), (by decide +kernel), (by decide +kernel), (by decide +kernel)⟩

theorem witness_IngestTakesEffect_15 : ∃ (s : State) (dt n len : Nat) (f : HostFrame) (d : Dev), (d = later s.dev dt) ∧ (d.runs n 2 = true
    ∧ d.hostReady = true ∧ 0 < d.available n ∧ d.ingests Fld.ING_CTRL_HOSTFEED_EN = true) ∧ (f.descOk = true ∧ f.frameOk = false ∧ 1 ≤ len
    ∧ len ≤ 8192) :=
  ⟨sFeed [], 0, 1, 20, { bytes := [], frameOk := false }, later (sFeed []).dev 0,
    rfl, (by decide +kernel), (by decide +kernel)⟩

theorem witness_IngestTakesEffect_16 : ∃ (s : State) (dt n len : Nat) (f : HostFrame) (resv : Bool) (d : Dev), (d = later s.dev dt) ∧
    (d.runs n 2 = true ∧ d.hostReady = true ∧ 0 < d.available n ∧ d.ingests Fld.ING_CTRL_HOSTFEED_EN = true) ∧ (f.descOk = false) :=
  ⟨sFeed [], 0, 1, 20, { bytes := [], descOk := false }, false, later (sFeed []).dev 0,
    rfl, (by decide +kernel), (by decide +kernel)⟩

theorem witness_StreamCommandsComplete_1 : ∃ (s : State) (c : Ctx) (d : Dev) (i : Nat) (image : Bytes) (eff : Nat) (e : StreamEntry),
    (ready s.dev c.ring true none) ∧ (d = fetched s.dev c.ring) ∧ (d.streamRefusal i (streamOf image) eff true = none ∧ streamOf image =
    some e ∧ d.craterRuns = false ∧ d.needsHistory i e = false) :=
  ⟨chan37 sR, c0, fetched (chan37 sR).dev 0, 9, image37, 0, (streamOf image37).getD ent37,
    (by unfold ready; decide +kernel), rfl, (by decide +kernel)⟩

theorem witness_StreamCommandsComplete_2 : ∃ (s : State) (c : Ctx) (d : Dev) (i : Nat) (image : Bytes) (eff : Nat) (imm : Bool) (e :
    StreamEntry), (ready s.dev c.ring true none) ∧ (d = fetched s.dev c.ring) ∧ (d.streamRefusal i (streamOf image) eff imm = none ∧
    streamOf image = some e ∧ d.needsHistory i e = false) ∧ ((imm = false ∧ (d.effBefore eff = false ∨ d.crt.nextConf ≤ d.crt.first)) ∨
    (imm = true ∧ d.craterRuns = true)) :=
  ⟨chan37 sR, c0, fetched (chan37 sR).dev 0, 9, image37, 70, false, (streamOf image37).getD ent37,
    (by unfold ready; decide +kernel), rfl, (by decide +kernel), (by decide +kernel)⟩

theorem witness_StreamCommandsComplete_3 : ∃ (s : State) (c : Ctx) (d : Dev) (i : Nat) (image : Bytes) (eff : Nat) (imm : Bool) (e :
    StreamEntry), (ready s.dev c.ring true none) ∧ (d = fetched s.dev c.ring) ∧ (d.streamRefusal i (streamOf image) eff imm = none ∧
    streamOf image = some e ∧ d.needsHistory i e = true) :=
  ⟨sMirror, c0, fetched sMirror.dev 0, 9, imageMirror, 70, false, (streamOf imageMirror).getD ent37,
    (by unfold ready; decide +kernel), rfl, (by decide +kernel)⟩

theorem witness_StreamCommandsComplete_4 : ∃ (s : State) (c : Ctx) (d : Dev) (i : Nat) (image : Bytes) (eff : Nat) (imm : Bool) (st :
    Nat), (ready s.dev c.ring true none) ∧ (d = fetched s.dev c.ring) ∧ (d.streamRefusal i (streamOf image) eff imm = some st) :=
  ⟨sR, c0, fetched sR.dev 0, 8192, image37, 70, false, sRange,
    (by unfold ready; decide +kernel), rfl, (by decide +kernel)⟩

theorem witness_StreamCommandsComplete_5 : ∃ (s : State) (c : Ctx) (d : Dev) (i : Nat) (image : Bytes) (eff : Nat) (imm : Bool),
    (ready s.dev c.ring true none) ∧ (d = fetched s.dev c.ring) ∧ (i ≤ 8191 ∧ (d.stream i).entry.pend.isSome = true) :=
  ⟨sRpend, c0, fetched sRpend.dev 0, 9, image37, 70, true,
    (by unfold ready; decide +kernel), rfl, (by decide +kernel)⟩

theorem witness_StreamCommandsComplete_6 : ∃ (s : State) (c : Ctx) (d : Dev) (i : Nat) (image : Bytes) (eff : Nat),
    (ready s.dev c.ring true none) ∧ (d = fetched s.dev c.ring) ∧ ((d.stream i).entry.pend = none ∧ (d.stream i).awaiting = none) ∧
    ((image.headD 0).toNat.testBit 4 = false ∨ (image.headD 0).toNat.testBit 7 = true) :=
  ⟨sR, c0, fetched sR.dev 0, 9, zeros 64, 70,
    (by unfold ready; decide +kernel), rfl, (by decide +kernel), (by decide +kernel)⟩

theorem witness_StreamCommandsComplete_7 : ∃ (s : State) (c : Ctx) (d : Dev) (i : Nat) (eff : Nat) (e : StreamEntry), (ready s.dev c.ring
    false none) ∧ (d = fetched s.dev c.ring) ∧ (i ≤ 8191 ∧ (d.stream i).entry = { cur := some e, pend := none } ∧ (d.stream i).awaiting =
    none ∧ d.craterRuns = false) :=
  ⟨sRstream, c0, fetched sRstream.dev 0, 9, 0, ent37,
    (by unfold ready; decide +kernel), rfl, (by decide +kernel)⟩

theorem witness_StreamCommandsComplete_8 : ∃ (s : State) (c : Ctx) (d : Dev) (i : Nat) (eff : Nat) (imm : Bool) (e : StreamEntry), (ready
    s.dev c.ring false none) ∧ (d = fetched s.dev c.ring) ∧ (i ≤ 8191 ∧ (d.stream i).entry = { cur := some e, pend := none } ∧ (d.stream
    i).awaiting = none) ∧ ((imm = false ∧ d.effSealed eff = false ∧ (d.effBefore eff = false ∨ d.crt.nextSeal ≤ d.crt.first)) ∨ (imm =
    true ∧ d.craterRuns = true)) :=
  ⟨sRstream, c0, fetched sRstream.dev 0, 9, 70, false, ent37,
    (by unfold ready; decide +kernel), rfl, (by decide +kernel), (by decide +kernel)⟩

theorem witness_StreamCommandsComplete_9 : ∃ (s : State) (c : Ctx) (d : Dev) (i : Nat) (eff : Nat), (ready s.dev c.ring false none) ∧
    (d = fetched s.dev c.ring) ∧ (8191 < i ∨ ((d.stream i).entry = {} ∧ (d.stream i).awaiting = none)) :=
  ⟨sR, c0, fetched sR.dev 0, 9, 70,
    (by unfold ready; decide +kernel), rfl, (by decide +kernel)⟩

theorem witness_StreamCommandsComplete_10 : ∃ (s : State) (c : Ctx) (d : Dev) (i : Nat) (eff : Nat) (imm : Bool),
    (ready s.dev c.ring false none) ∧ (d = fetched s.dev c.ring) ∧ (i ≤ 8191 ∧ (d.stream i).entry.pend.isSome = true) :=
  ⟨sRpend, c0, fetched sRpend.dev 0, 9, 70, true,
    (by unfold ready; decide +kernel), rfl, (by decide +kernel)⟩

theorem witness_StreamCommandsComplete_11 : ∃ (s : State) (c : Ctx) (d : Dev) (first count : Nat) (images : Bytes),
    (d = later s.dev 0) ∧ (ready s.dev c.ring false none) ∧ (1 ≤ count ∧ count ≤ 64 ∧ first + count ≤ 65536 ∧
    (imagesOf 16 count images).all (fun b => (chanOf b).isSome) = true) ∧
    (d.ing.streams.any (fun x => x.2.entries.any (fun e => decide (first < e.chanBase + e.nchan) && decide (e.chanBase < first +
    count))) = false) :=
  ⟨sR, c0, later sR.dev 0, 16, 2, [0x14] ++ zeros 15 ++ zeros 16,
    rfl, (by unfold ready; decide +kernel), (by decide +kernel), (by decide +kernel)⟩

theorem witness_StreamCommandsComplete_12 : ∃ (s : State) (c : Ctx) (d : Dev) (first count : Nat) (images : Bytes),
    (ready s.dev c.ring false none) ∧ (d = fetched s.dev c.ring) ∧ (count = 0 ∨ 64 < count ∨ 65536 < first + count) :=
  ⟨sR, c0, fetched sR.dev 0, 16, 65, [],
    (by unfold ready; decide +kernel), rfl, (by decide +kernel)⟩

theorem witness_StreamCommandsComplete_13 : ∃ (s : State) (c : Ctx) (d : Dev) (first count : Nat) (images : Bytes),
    (ready s.dev c.ring false none) ∧ (d = fetched s.dev c.ring) ∧ (1 ≤ count ∧ count ≤ 64 ∧ first + count ≤ 65536) ∧
    (d.ing.streams.any (fun x => x.2.entries.any (fun e => decide (first < e.chanBase + e.nchan) && decide (e.chanBase < first +
    count))) = true) :=
  ⟨sRstream, c0, fetched sRstream.dev 0, 15, 2, zeros 32,
    (by unfold ready; decide +kernel), rfl, (by decide +kernel), (by decide +kernel)⟩

theorem witness_StreamCommandsComplete_14 : ∃ (s : State) (c : Ctx) (d : Dev) (first count : Nat) (images : Bytes),
    (ready s.dev c.ring false none) ∧ (d = fetched s.dev c.ring) ∧ (1 ≤ count ∧ count ≤ 64 ∧ first + count ≤ 65536 ∧
    (imagesOf 16 count images).all (fun b => (chanOf b).isSome) = false) ∧
    (d.ing.streams.any (fun x => x.2.entries.any (fun e => decide (first < e.chanBase + e.nchan) && decide (e.chanBase < first +
    count))) = false) :=
  ⟨sR, c0, fetched sR.dev 0, 15, 1, [0x0A] ++ zeros 15,
    (by unfold ready; decide +kernel), rfl, (by decide +kernel), (by decide +kernel)⟩

theorem witness_StreamCommandsComplete_15 : ∃ (s : State) (c : Ctx) (d : Dev) (i : Nat), (ready s.dev c.ring false none) ∧
    (d = fetched s.dev c.ring) ∧ (i ≤ 8191 ∧ ((d.stream i).entry.cur.isSome = true ∨ (d.stream i).entry.newest.isSome = true)) :=
  ⟨sRstream, c0, fetched sRstream.dev 0, 9,
    (by unfold ready; decide +kernel), rfl, (by decide +kernel)⟩

theorem witness_StreamCommandsComplete_16 : ∃ (s : State) (c : Ctx) (d : Dev) (i : Nat), (ready s.dev c.ring false none) ∧
    (d = fetched s.dev c.ring) ∧ (8191 < i ∨ ((d.stream i).entry.cur = none ∧ (d.stream i).entry.newest = none)) :=
  ⟨sR, c0, fetched sR.dev 0, 9,
    (by unfold ready; decide +kernel), rfl, (by decide +kernel)⟩

theorem witness_StreamCommandsComplete_18 : ∃ (s : State) (c : Ctx) (d : Dev) (i : Nat) (image : Bytes) (eff : Nat) (imm : Bool) (e :
    StreamEntry), (ready s.dev c.ring true none) ∧ (d = fetched s.dev c.ring) ∧ (d.streamRefusal i (streamOf image) eff imm = none ∧
    streamOf image = some e ∧ d.needsHistory i e = false) ∧ (imm = false ∧ d.effBefore eff = true ∧ d.crt.first < d.crt.nextConf) :=
  ⟨chan37 sRlate, c0, fetched (chan37 sRlate).dev 0, 9, image37, 70, false, (streamOf image37).getD ent37,
    (by unfold ready; decide +kernel), rfl, (by decide +kernel), (by decide +kernel)⟩

theorem witness_StreamCommandsComplete_19 : ∃ (s : State) (c : Ctx) (d : Dev) (i : Nat) (eff : Nat) (e : StreamEntry), (ready s.dev c.ring
    false none) ∧ (d = fetched s.dev c.ring) ∧ (i ≤ 8191 ∧ (d.stream i).entry = { cur := some e, pend := none } ∧ (d.stream i).awaiting =
    none) ∧ (d.effBefore eff = true ∧ d.crt.first < d.crt.nextConf ∧ d.crt.nextConf ≤ d.crt.nextSeal) :=
  ⟨sRlate, c0, fetched sRlate.dev 0, 9, 70, ent37,
    (by unfold ready; decide +kernel), rfl, (by decide +kernel), (by decide +kernel)⟩

theorem witness_StreamCommandsComplete_20 : ∃ (s : State) (c : Ctx) (d : Dev) (i : Nat) (eff : Nat) (e : StreamEntry), (ready s.dev c.ring
    false none) ∧ (d = fetched s.dev c.ring) ∧ (i ≤ 8191 ∧ (d.stream i).entry = { cur := some e, pend := none } ∧ (d.stream i).awaiting =
    none) ∧ (d.effBefore eff = true ∧ d.crt.nextConf ≤ d.crt.first ∧ d.crt.first < d.crt.nextSeal) :=
  ⟨sRearly, c0, fetched sRearly.dev 0, 9, 70, ent37,
    (by unfold ready; decide +kernel), rfl, (by decide +kernel), (by decide +kernel)⟩

theorem witness_OscillationCommandsTakeEffect_1 : ∃ (s : State) (v : Word), (s.dev.gatedAt Reg.OSC_CTRL = false) ∧
    (v.toNat.testBit 0 = true) ∧ (s.dev.bit Fld.OSC_CTRL_EN = false) ∧ (s.dev.fld Fld.OSC_BAND_F_HI ≤ 40 * s.dev.rate) :=
  ⟨set [(Reg.CRT_CFG, 60)] s0, 1,
    (by decide +kernel), (by decide +kernel), (by decide +kernel), (by decide +kernel)⟩

theorem witness_OscillationCommandsTakeEffect_2 : ∃ (s : State) (c : Ctx) (d : Dev) (first count eff : Nat) (images : Bytes) (imm : Bool)
    (t : Tbl (Held SigEntry)), (ready s.dev c.ring false none) ∧ (d = fetched s.dev c.ring) ∧ (1 ≤ count ∧ count ≤ 256 ∧ first + count ≤
    4096) ∧ ((imagesOf 16 count images).any (resvSet sigResv) = false) ∧ ((d.sigImages first count eff imm images).all (fun x => x.2.all
    d.sigFits) = true) ∧ (d.changeStatus eff imm false (d.sigImages first count eff imm images) d.osc.sigs = none) ∧ (d.changeAll eff imm
    (d.sigImages first count eff imm images) d.osc.sigs = .ok t) ∧ (ssoCount t ≤ 256) :=
  ⟨sR, c0, fetched sR.dev 0, 5, 1, 0, zeros 16, true, [(5, ⟨none, none⟩)],
    (by unfold ready; decide +kernel), rfl, (by decide +kernel), (by decide +kernel), (by decide +kernel), (by decide +kernel), (by decide +kernel), (by decide +kernel)⟩

theorem witness_OscillationCommandsTakeEffect_3 : ∃ (s : State) (c : Ctx) (d : Dev) (first count eff : Nat) (images : Bytes) (imm :
    Bool) (g : SigEntry), (ready s.dev c.ring false none) ∧ (d = fetched s.dev c.ring) ∧ (1 ≤ count ∧ count ≤ 256 ∧
    first + count ≤ 4096) ∧ (some g ∈ (imagesOf 16 count images).map sigOf) ∧ (d.sigFits g = false) ∧
    (imm = true ∨ d.effSealed eff = false) ∧ (d.osc.sigs.all (fun x => x.2.pend.isNone) = true) :=
  ⟨sR, c0, fetched sR.dev 0, 5, 1, 0, [0, 0, 8] ++ zeros 13, true, ⟨0, 0, 0, 0, 0⟩,
    (by unfold ready; decide +kernel), rfl, (by decide +kernel), (by decide +kernel), (by decide +kernel), (by decide +kernel), (by decide +kernel)⟩

theorem witness_OscillationCommandsTakeEffect_4 : ∃ (s : State) (c : Ctx) (d : Dev) (first count : Nat) (images : Bytes) (l : List (Option
    DefEntry × Nat)), (ready s.dev c.ring false none) ∧ (d = fetched s.dev c.ring) ∧ (1 ≤ count ∧ first + count ≤ 256) ∧ ((imagesOf 16
    count images).any (resvSet defResv) = false) ∧ (l = ((imagesOf 16 count images).map defOf).zipIdx) ∧ (l.all (fun (x : Option DefEntry
    × Nat) => x.1.all (fun (g : DefEntry) => d.phasorSlot g.vSlot && d.phasorSlot g.iSlot && fLt 0 g.factor)) = true) :=
  ⟨sR, c0, fetched sR.dev 0, 5, 1, zeros 16, [(none, 0)],
    (by unfold ready; decide +kernel), rfl, (by decide +kernel), (by decide +kernel), (by decide +kernel), (by decide +kernel)⟩

theorem witness_OscillationCommandsTakeEffect_5 : ∃ (s : State) (c : Ctx) (d : Dev) (first count : Nat) (images : Bytes) (g :
    DefEntry), (ready s.dev c.ring false none) ∧ (d = fetched s.dev c.ring) ∧ (some g ∈ (imagesOf 16 count images).map defOf) ∧
    (fLt 0 g.factor = false) :=
  ⟨sR, c0, fetched sR.dev 0, 5, 1, zeros 10 ++ [1] ++ zeros 5, ⟨0, 0, 0, 0, 0, 0⟩,
    (by unfold ready; decide +kernel), rfl, (by decide +kernel), (by decide +kernel)⟩

theorem witness_OscillationCommandsTakeEffect_6 : ∃ (s : State) (c : Ctx) (d : Dev) (band : Nat), (ready s.dev c.ring false none) ∧
    (d = fetched s.dev c.ring) ∧ (band ≤ 2) :=
  ⟨sR, c0, fetched sR.dev 0, 2,
    (by unfold ready; decide +kernel), rfl, (by decide +kernel)⟩

theorem witness_OscillationCommandsTakeEffect_7 : ∃ (s : State) (c : Ctx) (d : Dev) (buf : HostBuf) (m r : Bytes),
    (ready s.dev c.ring false none) ∧ (d = fetched s.dev c.ring) ∧ (d.osc.report = some (m, r)) ∧ (d.osc.updated = true) :=
  ⟨dev (fun d => d.modOsc (fun o => { o with report := some ([4], []), updated := true })) sR, c0,
    fetched (dev (fun d => d.modOsc (fun o => { o with report := some ([4], []), updated := true })) sR).dev 0, ⟨0x2000, 64⟩, [4], [],
    (by unfold ready; decide +kernel), rfl, (by decide +kernel), (by decide +kernel)⟩

theorem witness_OscillationCommandsTakeEffect_8 : ∃ (s : State) (c : Ctx) (d : Dev) (buf : HostBuf), (ready s.dev c.ring false none) ∧
    (d = fetched s.dev c.ring) ∧ (d.osc.updated = false) :=
  ⟨sR, c0, fetched sR.dev 0, ⟨0x2000, 64⟩,
    (by unfold ready; decide +kernel), rfl, (by decide +kernel)⟩

theorem witness_OscillationUpdatesTakeEffect_1 : ∃ (s : State) (dt e : Nat) (d : Dev) (q : SealInfo), (d = later s.dev dt) ∧
    (d.osc.ranking = none) ∧ (d.nextUpdate 0 = some e) ∧ (d.sealOf e = some q) ∧ (d.g16 < d.deadline (e + 1) ∧ d.crt.nextSeal < e + 8) ∧
    (d.calm = true ∧ (d.serve 0x05 e).2 = true) :=
  ⟨set [(Reg.OSC_CTRL, 1)] sEng, 0, 0, later (set [(Reg.OSC_CTRL, 1)] sEng).dev 0, seal0,
    rfl, (by decide +kernel), (by decide +kernel), (by decide +kernel), (by decide +kernel), (by decide +kernel)⟩

theorem witness_OscillationUpdatesTakeEffect_2 : ∃ (s : State) (dt e : Nat) (d : Dev) (q : SealInfo), (d = later s.dev dt) ∧ (d.nextUpdate
    1 = some e) ∧ (d.sealOf e = some q) ∧ (d.g16 < d.deadline (e + 1) ∧ d.crt.nextSeal < e + 8) ∧ (d.calm = true ∧ (d.serve 0x06 e).2 =
    true) :=
  ⟨set [(Reg.OSC_CTRL, 2)] sEng, 0, 0, later (set [(Reg.OSC_CTRL, 2)] sEng).dev 0, seal0,
    rfl, (by decide +kernel), (by decide +kernel), (by decide +kernel), (by decide +kernel)⟩

theorem witness_OscillationUpdatesTakeEffect_3 : ∃ (s : State) (dt e used : Nat) (place : Bool) (retired : List (Nat × ModeSlot)) (d :
    Dev) (q : SealInfo), (d = later s.dev dt) ∧ (d.osc.ranking = some (e, used, place, retired)) ∧ (d.sealOf e = some q) ∧ (d.calm = true
    ∧ (d.serve 0x07 e).2 = true) :=
  ⟨sRanking, 0, 0, 0, true, [], later sRanking.dev 0, seal0,
    rfl, (by decide +kernel), (by decide +kernel), (by decide +kernel)⟩

theorem witness_OscillationUpdatesTakeEffect_4 : ∃ (s : State) (dt b e : Nat) (d : Dev), (d = later s.dev dt) ∧ (b ≤ 1) ∧ (d.nextUpdate b
    = some e) ∧ (d.lateUpdates b e ≠ [] ∧ d.crt.nextSeal < e + 8) :=
  ⟨set [(Reg.OSC_CTRL, 1)] sC, 100000000, 0, 0, later (set [(Reg.OSC_CTRL, 1)] sC).dev 100000000,
    rfl, (by decide +kernel), (by decide +kernel), (by decide +kernel)⟩

theorem witness_OscillationUpdatesTakeEffect_5 : ∃ (s : State) (dt b e : Nat) (d : Dev), (d = later s.dev dt) ∧ (b ≤ 1) ∧ (d.nextUpdate b
    = some e) ∧ ((d.band b).lagEpoch = none) ∧ (d.deadline (e + 1) ≤ d.g16 ∧ d.crt.nextSeal = e + 1) :=
  ⟨set [(Reg.OSC_CTRL, 1)] sC, 100000000, 0, 0, later (set [(Reg.OSC_CTRL, 1)] sC).dev 100000000,
    rfl, (by decide +kernel), (by decide +kernel), (by decide +kernel), (by decide +kernel)⟩

theorem witness_OscillationUpdatesTakeEffect_6 : ∃ (s : State) (dt b e : Nat) (d : Dev), (d = later s.dev dt) ∧ (b ≤ 1) ∧ (d.nextUpdate b
    = some e) ∧ (e + 8 ≤ d.crt.nextSeal) :=
  ⟨set [(Reg.OSC_CTRL, 2)] (dev (fun d => d.modCrt (fun q => { q with nextSeal := 8 })) sC), 100000000, 1, 0, later (set [(Reg.OSC_CTRL,
    2)] (dev (fun d => d.modCrt (fun q => { q with nextSeal := 8 })) sC)).dev 100000000,
    rfl, (by decide +kernel), (by decide +kernel), (by decide +kernel)⟩

theorem witness_OscillationUpdatesTakeEffect_7 : ∃ (r : Nat) (lam : DWord) (lim : Nat) (ys : List (Nat × Word × Bool)) (b : BandSt),
    (lim * ys.length < 100 * (ys.filter (fun x => x.2.2)).length) :=
  ⟨2, 0, 20, [(0, 0, true)], {},
    (by decide +kernel)⟩

theorem witness_AlarmTablesTakeEffect_1 : ∃ (s : State) (c : Ctx) (d : Dev) (first count eff : Nat) (images : Bytes) (imm : Bool) (t :
    Tbl (Held NodeEntry)), (ready s.dev c.ring false none) ∧ (d = fetched s.dev c.ring) ∧ (1 ≤ count ∧ count ≤ 256 ∧
    first + count ≤ 8192) ∧ ((imagesOf 16 count images).any (resvSet nodeResv) = false) ∧
    ((nodeImages first count images).all (fun x => x.2.all d.nodeFits) = true) ∧
    (d.changeStatus eff imm false (nodeImages first count images) d.isl.nodes = none) ∧
    (d.changeAll eff imm (nodeImages first count images) d.isl.nodes = .ok t) :=
  ⟨sR, c0, fetched sR.dev 0, 5, 1, 0, zeros 16, true, [(5, ⟨none, none⟩)],
    (by unfold ready; decide +kernel), rfl, (by decide +kernel), (by decide +kernel), (by decide +kernel), (by decide +kernel), (by rfl)⟩

theorem witness_AlarmTablesTakeEffect_2 : ∃ (s : State) (c : Ctx) (d : Dev) (first count eff : Nat) (images : Bytes) (imm : Bool),
    (ready s.dev c.ring false none) ∧ (d = fetched s.dev c.ring) ∧
    ((nodeImages first count images).any (fun x => x.2.any (fun n => !d.nodeFits n)) = true) ∧
    (d.changeStatus eff imm false (nodeImages first count images) d.isl.nodes = none) :=
  ⟨sR, c0, fetched sR.dev 0, 5, 1, 0, zeros 6 ++ [1] ++ zeros 9, true,
    (by unfold ready; decide +kernel), rfl, (by decide +kernel), (by decide +kernel)⟩

theorem witness_AlarmTablesTakeEffect_3 : ∃ (s : State) (c : Ctx) (d : Dev) (first count eff : Nat) (images : Bytes) (imm : Bool) (t :
    Tbl (Held BranchEntry)), (ready s.dev c.ring false none) ∧ (d = fetched s.dev c.ring) ∧ (1 ≤ count ∧ count ≤ 256 ∧
    first + count ≤ 32768) ∧ ((imagesOf 16 count images).any (resvSet branchResv) = false) ∧
    ((branchImages first count images).all (fun x => x.2.all d.branchFits) = true) ∧
    (d.changeStatus eff imm false (branchImages first count images) d.isl.branches = none) ∧
    (d.changeAll eff imm (branchImages first count images) d.isl.branches = .ok t) :=
  ⟨sR, c0, fetched sR.dev 0, 5, 1, 0, zeros 16, true, [(5, ⟨none, none⟩)],
    (by unfold ready; decide +kernel), rfl, (by decide +kernel), (by decide +kernel), (by decide +kernel), (by decide +kernel), (by rfl)⟩

theorem witness_AlarmTablesTakeEffect_4 : ∃ (s : State) (c : Ctx) (d : Dev) (first count eff : Nat) (images : Bytes) (imm : Bool),
    (ready s.dev c.ring false none) ∧ (d = fetched s.dev c.ring) ∧
    ((branchImages first count images).any (fun x => x.2.any (fun b => !d.branchFits b)) = true) ∧
    (d.changeStatus eff imm false (branchImages first count images) d.isl.branches = none) :=
  ⟨sR, c0, fetched sR.dev 0, 5, 1, 0, zeros 10 ++ [1] ++ zeros 5, true,
    (by unfold ready; decide +kernel), rfl, (by decide +kernel), (by decide +kernel)⟩

theorem witness_AlarmTablesTakeEffect_5 : ∃ (s : State) (c : Ctx) (d : Dev) (first count eff : Nat) (images : Bytes) (imm : Bool),
    (ready s.dev c.ring false none) ∧ (d = fetched s.dev c.ring) ∧ (1 ≤ count ∧ count ≤ 64 ∧ first + count ≤ 512) ∧
    ((imagesOf 32 count images).any (resvSet ruleResv) = false) ∧
    ((ruleImages first count images).all (fun x => x.2.all d.ruleFits) = true) ∧
    (d.changeStatus eff imm false (ruleImages first count images) d.ruleEntries = none) :=
  ⟨sR, c0, fetched sR.dev 0, 5, 1, 0, zeros 6 ++ [1, 1] ++ zeros 24, true,
    (by unfold ready; decide +kernel), rfl, (by decide +kernel), (by decide +kernel), (by decide +kernel), (by decide +kernel)⟩

theorem witness_AlarmTablesTakeEffect_6 : ∃ (s : State) (c : Ctx) (d : Dev) (first count eff : Nat) (images : Bytes) (imm : Bool),
    (ready s.dev c.ring false none) ∧ (d = fetched s.dev c.ring) ∧
    ((ruleImages first count images).any (fun x => x.2.any (fun r => !d.ruleFits r)) = true) ∧
    (d.changeStatus eff imm false (ruleImages first count images) d.ruleEntries = none) :=
  ⟨sR, c0, fetched sR.dev 0, 5, 1, 0, zeros 32, true,
    (by unfold ready; decide +kernel), rfl, (by decide +kernel), (by decide +kernel)⟩

theorem witness_AlarmTablesTakeEffect_7 : ∃ (s : State) (c : Ctx) (d : Dev) (pub : Nat) (o : ExpOps), (ready s.dev c.ring false none) ∧
    (d = fetched s.dev c.ring) :=
  ⟨sR, c0, fetched sR.dev 0, 3, exp0,
    (by unfold ready; decide +kernel), rfl⟩

theorem witness_AlarmTablesTakeEffect_8 : ∃ (s : State) (c : Ctx) (d : Dev) (rule : Nat), (ready s.dev c.ring false none) ∧
    (d = fetched s.dev c.ring) ∧ (rule < 512 ∨ rule = 0xFFFF) :=
  ⟨sR, c0, fetched sR.dev 0, 511,
    (by unfold ready; decide +kernel), rfl, (by decide +kernel)⟩

theorem witness_AlarmTablesTakeEffect_9 : ∃ (s : State) (c : Ctx) (d : Dev) (rule : Nat), (ready s.dev c.ring false none) ∧
    (d = fetched s.dev c.ring) ∧ (512 ≤ rule ∧ rule ≠ 0xFFFF) :=
  ⟨sR, c0, fetched sR.dev 0, 512,
    (by unfold ready; decide +kernel), rfl, (by decide +kernel)⟩

theorem witness_AlarmTablesTakeEffect_10 : ∃ (s : State) (c : Ctx) (d : Dev) (buf : HostBuf), (ready s.dev c.ring false none) ∧
    (d = fetched s.dev c.ring) :=
  ⟨sR, c0, fetched sR.dev 0, ⟨0x2000, 544⟩,
    (by unfold ready; decide +kernel), rfl⟩

theorem witness_AlarmPathEventsTakeEffect_1 : ∃ (s : State) (v : Word), (s.dev.gatedAt Reg.ISL_CTRL = false) ∧
    (v.toNat.testBit 0 = true) ∧ (s.dev.bit Fld.ISL_CTRL_EN = false) :=
  ⟨s0, 1,
    (by decide +kernel), (by decide +kernel), (by decide +kernel)⟩

theorem witness_AlarmPathEventsTakeEffect_2 : ∃ (s : State) (v : Word), (s.dev.gatedAt Reg.FUM_CTRL = false) ∧
    (v.toNat.testBit 0 = true) ∧ (s.dev.bit Fld.FUM_CTRL_EN = false) ∧ (s.dev.bit Fld.SAF_STATUS_SAFE = false) :=
  ⟨s0, 1,
    (by decide +kernel), (by decide +kernel), (by decide +kernel), (by decide +kernel)⟩

theorem witness_AlarmPathEventsTakeEffect_3 : ∃ (s : State) (dt e : Nat) (d : Dev) (q : SealInfo), (d = later s.dev dt) ∧
    (d.bit Fld.ISL_CTRL_EN = true) ∧ (d.nextSealed d.isl.next = some e) ∧ (d.sealOf e = some q) :=
  ⟨set [(Reg.ISL_CTRL, 1)] sC, 0, 0, later (set [(Reg.ISL_CTRL, 1)] sC).dev 0, seal0,
    rfl, (by decide +kernel), (by decide +kernel), (by decide +kernel)⟩

theorem witness_AlarmPathEventsTakeEffect_4 : ∃ (s : State) (dt e : Nat) (l : List Nat) (d : Dev) (q : SealInfo),
    (d = later s.dev dt) ∧ (d.bit Fld.FUM_STATUS_RUNNING = true) ∧ (0 < d.deCount) ∧ (d.nextSealed d.fum.next = some e) ∧
    (d.sealOf e = some q) :=
  ⟨set [(Reg.FUM_CTRL, 1), (Reg.FUM_STATUS, 1), (Reg.ENG_STATUS, 0xFFFFFFFF)] sC, 0, 0, [], later (set [(Reg.FUM_CTRL, 1),
    (Reg.FUM_STATUS, 1), (Reg.ENG_STATUS, 0xFFFFFFFF)] sC).dev 0, seal0,
    rfl, (by decide +kernel), (by decide +kernel), (by decide +kernel), (by decide +kernel)⟩

theorem witness_AlarmPathEventsTakeEffect_5 : ∃ (s : State) (dt p at_ : Nat) (d : Dev), (d = later s.dev dt) ∧ (p < 8) ∧
    (d.bit Fld.SAF_STATUS_SAFE = false) ∧ (d.wantedPins.testBit p = false) ∧ (d.fum.pins[p]? = some { since := some at_ }) ∧
    (at_ + d.fld (Fld.FUM_PINp_MIN_ON p) * 1000000 ≤ d.up) :=
  ⟨dev (fun d => d.modFum (fun f => { f with pins := [{}, { since := some 0 }, {}, {}, {}, {}, {}, {}] })) (set [(Reg.FUM_STATUS,
    0x200), (Reg.FUM_PINp 1, 0x104)] s0), 1000000, 1, 0,
    later (dev (fun d => d.modFum (fun f => { f with pins := [{}, { since := some 0 }, {}, {}, {}, {}, {}, {}] })) (set
    [(Reg.FUM_STATUS, 0x200), (Reg.FUM_PINp 1, 0x104)] s0)).dev 1000000,
    rfl, (by decide +kernel), (by decide +kernel), (by decide +kernel), (by decide +kernel), (by decide +kernel)⟩

theorem witness_AlarmPathEventsTakeEffect_6 : ∃ (s : State) (dt : Nat) (d : Dev), (d = later s.dev dt) ∧
    (d.fum.decidedAt + d.almokWindow < d.up) :=
  ⟨set [(Reg.CRT_CFG, 60), (Reg.FUM_STATUS, 2)] s0, 100000000, later (set [(Reg.CRT_CFG, 60), (Reg.FUM_STATUS, 2)] s0).dev 100000000,
    rfl, (by decide +kernel)⟩

theorem witness_AlarmPathEventsTakeEffect_7 : ∃ (s : State) (dt n at_ iv : Nat) (d : Dev) (p : Pub), (d = later s.dev dt) ∧
    (d.fum.pubs.find n = some p) ∧ (p.next = some (at_, iv)) ∧ (at_ ≤ d.up) ∧ (p.en = true) ∧ (d.bit Fld.FUM_CTRL_EN = true) :=
  ⟨dev (fun d => d.modFum (fun f => { f with pubs := [(3, { pubOf exp0 with next := some (0, 4) })] })) (set [(Reg.FUM_CTRL, 1)] s0),
    5, 3, 0, 4, later (dev (fun d => d.modFum (fun f => { f with pubs := [(3, { pubOf exp0 with next := some (0, 4) })] })) (set
    [(Reg.FUM_CTRL, 1)] s0)).dev 5, { pubOf exp0 with next := some (0, 4) },
    rfl, (by decide +kernel), (by decide +kernel), (by decide +kernel), (by decide +kernel), (by decide +kernel)⟩

theorem witness_AlarmPathEventsTakeEffect_8 : ∃ (s : State) (dt : Nat) (d : Dev), (d = later s.dev dt) ∧
    (d.bit Fld.FUM_CFG_GRID_EN = true) ∧ (d.fum.voteAt + 1000000000 ≤ d.up) :=
  ⟨set [(Reg.FUM_CFG, 1)] s0, 1000000000, later (set [(Reg.FUM_CFG, 1)] s0).dev 1000000000,
    rfl, (by decide +kernel), (by decide +kernel)⟩

theorem witness_AlarmPathEventsTakeEffect_9 : ∃ (s : State) (dt src seq : Nat) (m : VoteMsg) (d d1 : Dev), (d = later s.dev dt) ∧
    (d.receive src 0 seq = (d1, true)) ∧ (d1.isSummit = true ∧ d1.joined = true) ∧ (d1.view.members.testBit src = true) :=
  ⟨sF, 0, 1, 0, vote0, later sF.dev 0, ((later sF.dev 0).receive 1 0 0).1,
    rfl, (by decide +kernel), (by decide +kernel), (by decide +kernel)⟩

theorem witness_AlarmPathEventsTakeEffect_10 : ∃ (s : State) (dt src seq : Nat) (m : VoteMsg) (d d1 : Dev), (d = later s.dev dt) ∧
    (d.receive src 0 seq = (d1, true)) ∧ (src = d1.view.summit ∧ d1.joined = true) :=
  ⟨sF1, 0, 1, 0, vote0, later sF1.dev 0, ((later sF1.dev 0).receive 1 0 0).1,
    rfl, (by decide +kernel), (by decide +kernel)⟩

theorem witness_AlarmPathEventsTakeEffect_11 : ∃ (s : State) (dt : Nat) (d : Dev), (d = later s.dev dt) ∧ (d.isSummit = true ∧ d.joined =
    true) ∧ (d.fum.gridAt + 1000000000 ≤ d.up) :=
  ⟨sF, 1000000000, later sF.dev 1000000000,
    rfl, (by decide +kernel), (by decide +kernel)⟩

theorem witness_AcquisitionCompletes_1 : ∃ (s : State) (v : Word) (m : Nat), (m < 4 ∧ m < s.dev.acq.mods.length) ∧ (s.dev.gatedAt
    Reg.ACQ_CTRL = false) ∧ (v.toNat.testBit m = true) ∧ (s.dev.fbit Fld.ACQ_CTRL_FE_EN m = false) ∧ (s.dev.fbit Fld.ACQ_STATUS_ID_OK m =
    true) :=
  ⟨set [(Reg.ACQ_STATUS, 0x20)] s0, 2, 1,
    (by decide +kernel), (by decide +kernel), (by decide +kernel), (by decide +kernel), (by decide +kernel)⟩

theorem witness_AcquisitionCompletes_2 : ∃ (s : State) (v : Word) (m : Nat), (m < 4) ∧ (s.dev.gatedAt Reg.ACQ_CTRL = false) ∧
    (v.toNat.testBit m = true) ∧ (s.dev.fbit Fld.ACQ_CTRL_FE_EN m = false) ∧ (s.dev.fbit Fld.ACQ_STATUS_ID_OK m = false) :=
  ⟨s0, 2, 1,
    (by decide +kernel), (by decide +kernel), (by decide +kernel), (by decide +kernel), (by decide +kernel)⟩

theorem witness_AcquisitionCompletes_3 : ∃ (s : State) (v : Word), (s.dev.gatedAt Reg.CAL_CTRL = false) :=
  ⟨s0, 10,
    (by decide +kernel)⟩

theorem witness_AcquisitionCompletes_4 : ∃ (s : State) (dt m : Nat) (d : Dev), (d = later s.dev dt) ∧ (m < 4 ∧ m < d.acq.mods.length) ∧
    (d.fbit Fld.ACQ_CTRL_FE_EN m = true) ∧ ((d.feMod m).strobeK.all (fun l => decide (l < d.strobeDue m)) = true) :=
  ⟨sFe {} false false, 0, 1, later (sFe {} false false).dev 0,
    rfl, (by decide +kernel), (by decide +kernel), (by decide +kernel)⟩

theorem witness_AcquisitionCompletes_5 : ∃ (s : State) (dt m k : Nat) (f : FeFrame) (d : Dev), (d = later s.dev dt) ∧ (m < 4 ∧ d.fbit
    Fld.ACQ_CTRL_FE_EN m = true ∧ d.linkIsUp m = true ∧ m < d.acq.mods.length) ∧ (f.crcOk = true ∧ f.refOk = true) ∧ ((d.feMod
    m).frameTick f.seq = some k) ∧ (k - (d.feMod m).lastK.getD (k - 1) - 1 < 5) :=
  ⟨sFe { strobeK := some 7, lastK := some 4 } true false, 0, 1, 7, frame0 7, later (sFe { strobeK := some 7, lastK := some 4 } true
    false).dev 0,
    rfl, (by decide +kernel), (by decide +kernel), (by decide +kernel), (by decide +kernel)⟩

theorem witness_AcquisitionCompletes_6 : ∃ (s : State) (dt m : Nat) (f : FeFrame) (d : Dev), (d = later s.dev dt) ∧ (m < 4 ∧
    d.fbit Fld.ACQ_CTRL_FE_EN m = true ∧ d.linkIsUp m = true ∧ m < d.acq.mods.length) ∧ (f.crcOk = false) ∧ (4 ≤ (d.feMod m).badRun) :=
  ⟨sFe { badRun := 4 } true true, 0, 1, { frame0 7 with codeOk := false }, later (sFe { badRun := 4 } true true).dev 0,
    rfl, (by decide +kernel), (by decide +kernel), (by decide +kernel)⟩

theorem witness_AcquisitionCompletes_7 : ∃ (s : State) (dt m : Nat) (d : Dev), (d = later s.dev dt) ∧ (m < 4 ∧ d.linkIsUp m = true ∧
    m < d.acq.mods.length) :=
  ⟨sFe {} true true, 0, 1, later (sFe {} true true).dev 0,
    rfl, (by decide +kernel)⟩

theorem witness_AcquisitionCompletes_8 : ∃ (s : State) (dt m sk : Nat) (cmd : FeCmd) (rest : List FeCmd) (d : Dev), (d = later s.dev dt) ∧
    (m < 4 ∧ d.fbit Fld.ACQ_CTRL_FE_EN m = true) ∧ ((d.feMod m).cmdQ = cmd :: rest) ∧ ((d.feMod m).strobeK = some sk) :=
  ⟨sFe { cmdQ := [⟨1, 0, 16, 0⟩], strobeK := some 9 } true false, 0, 1, 9, ⟨1, 0, 16, 0⟩, [], later (sFe
    { cmdQ := [⟨1, 0, 16, 0⟩], strobeK := some 9 } true false).dev 0,
    rfl, (by decide +kernel), (by decide +kernel), (by decide +kernel)⟩

theorem witness_AcquisitionCompletes_9 : ∃ (s : State) (dt m sk : Nat) (v : FeVerify) (d : Dev), (d = later s.dev dt) ∧ (m < 4) ∧
    ((d.feMod m).strobeK = some sk) ∧ ((d.feMod m).verify.find? (fun v => decide (v.effK + 32 < sk)) = some v) ∧ (v.tries < 2) :=
  ⟨sFe { verify := [⟨0, 16, 5, 1⟩], strobeK := some 90 } true false, 0, 1, 90, ⟨0, 16, 5, 1⟩,
    later (sFe { verify := [⟨0, 16, 5, 1⟩], strobeK := some 90 } true false).dev 0,
    rfl, (by decide +kernel), (by decide +kernel), (by decide +kernel), (by decide +kernel)⟩

theorem witness_AcquisitionCompletes_10 : ∃ (s : State) (dt m sk : Nat) (v : FeVerify) (d : Dev), (d = later s.dev dt) ∧ (m < 4) ∧
    ((d.feMod m).strobeK = some sk) ∧ ((d.feMod m).verify.find? (fun v => decide (v.effK + 32 < sk)) = some v) ∧ (2 ≤ v.tries) :=
  ⟨sFe { verify := [⟨0, 16, 5, 2⟩], strobeK := some 90 } true false, 0, 1, 90, ⟨0, 16, 5, 2⟩,
    later (sFe { verify := [⟨0, 16, 5, 2⟩], strobeK := some 90 } true false).dev 0,
    rfl, (by decide +kernel), (by decide +kernel), (by decide +kernel), (by decide +kernel)⟩

theorem witness_AcquisitionCompletes_11 : ∃ (s : State) (dt m ms : Nat) (d : Dev), (d = later s.dev dt) ∧ (m < 4 ∧
    d.fbit Fld.ACQ_CTRL_FE_EN m = true ∧ d.linkIsUp m = true ∧ d.measuring m = false ∧ m < d.acq.mods.length) ∧
    (startTimes[(d.feMod m).startStep]? = some ms) ∧ ((d.feMod m).startAt + ms * 1000000 ≤ d.up) :=
  ⟨sFe { startStep := 10 } true false, 111000000, 1, 111, later (sFe { startStep := 10 } true false).dev 111000000,
    rfl, (by decide +kernel), (by decide +kernel), (by decide +kernel)⟩

theorem witness_AcquisitionCompletes_12 : ∃ (s : State) (dt n : Nat) (d : Dev), (d = later s.dev dt) ∧ (d.fineDue = some n) :=
  ⟨s0, 1000000, 6, later s0.dev 1000000,
    rfl, (by decide +kernel)⟩

theorem witness_AcquisitionCompletes_13 : ∃ (s : State) (dt i e : Nat) (ent : StreamEntry) (d d1 d2 : Dev), (d = later s.dev dt) ∧
    ((d.localDue i e).isSome = true) ∧ (d.serve 0x03 i = (d1, true)) ∧ (d1.localDue i e = some ent) ∧ (d2 = (d1.draw.2.commitRec i ent
    (epochTime d1.rate e) (d1.localRec i e ent) (d1.draw.1 / 256) (d1.draw.1 % 256)).toMirror ent e (d1.localRec i e ent)) :=
  ⟨sLocal, 0, 9, 1, local0, later sLocal.dev 0, ((later sLocal.dev 0).serve 0x03 9).1, (((later sLocal.dev 0).serve 0x03
    9).1.draw.2.commitRec 9 local0 (epochTime ((later sLocal.dev 0).serve 0x03 9).1.rate 1) (((later sLocal.dev 0).serve 0x03
    9).1.localRec 9 1 local0) (((later sLocal.dev 0).serve 0x03 9).1.draw.1 / 256) (((later sLocal.dev 0).serve 0x03 9).1.draw.1 %
    256)).toMirror local0 1 (((later sLocal.dev 0).serve 0x03 9).1.localRec 9 1 local0),
    rfl, (by decide +kernel), (by decide +kernel), (by decide +kernel), rfl⟩

theorem witness_AcquisitionCompletes_14 : ∃ (s : State) (dt i e : Nat) (d : Dev), (d = later s.dev dt) ∧ ((d.localDue i e).isNone = true)
    :=
  ⟨s0, 9, 9, 1, later s0.dev 9,
    rfl, (by decide +kernel)⟩

theorem witness_AcquisitionCompletes_15 : ∃ (s : State) (c : Ctx) (d : Dev) (m : Nat) (buf : HostBuf),
    (ready s.dev c.ring false (some 3)) ∧ (d = fetched s.dev c.ring) :=
  ⟨sR, c0, fetched sR.dev 0, 1, ⟨0x2000, 208⟩,
    (by unfold ready; decide +kernel), rfl⟩

theorem witness_AcquisitionCompletes_16 : ∃ (s : State) (c : Ctx) (d t : Dev) (m mask : Nat), (ready s.dev c.ring false (some 3)) ∧
    (d = fetched s.dev c.ring) ∧ (m < 4) ∧
    (t = (bitsOf 13 mask).foldl (fun (x : Dev) a => (x.setFbit (Fld.CAL_FAULTm_ADC m) a false).updFeMod m (fun s => s.modAdc a (fun y
    => { y with refusals := 0 }))) d) :=
  ⟨sR, c0, fetched sR.dev 0, fetched sR.dev 0, 1, 0,
    (by unfold ready; decide +kernel), rfl, (by decide +kernel), rfl⟩

theorem witness_AcquisitionCompletes_17 : ∃ (s : State) (dt i e : Nat) (d : Dev), (d = later s.dev dt) ∧ ((d.localDue i e).isSome = true ∧
    (d.serve 0x03 i).2 = false) :=
  ⟨sLocalWaits, 0, 9, 1, later sLocalWaits.dev 0,
    rfl, (by decide +kernel)⟩

theorem witness_CalibrationTurnsRun_1 : ∃ (s : State) (dt m at_ i : Nat) (d : Dev), (d = later s.dev dt) ∧ (m < 4 ∧
    d.measuring m = true ∧ d.fbit Fld.CAL_CTRL_ROT_EN m = true) ∧ ((d.feMod m).turnAt = some at_ ∧ at_ ≤ d.up) ∧
    ((d.feMod m).turn = none) ∧ (d.fld (Fld.CAL_STATm_HALT m) = 0) ∧ (d.nextInput m (d.feMod m).nextInput = some i) :=
  ⟨set [(Reg.CAL_CTRL, 2)] (sFe { turnAt := some 5, nextInput := 3 } true true), 5, 1, 5, 3, later (set [(Reg.CAL_CTRL,
    2)] (sFe { turnAt := some 5, nextInput := 3 } true true)).dev 5,
    rfl, (by decide +kernel), (by decide +kernel), (by decide +kernel), (by decide +kernel), (by decide +kernel)⟩

theorem witness_CalibrationTurnsRun_2 : ∃ (s : State) (dt m at_ : Nat) (d : Dev), (d = later s.dev dt) ∧ (m < 4 ∧
    d.measuring m = true ∧ d.fbit Fld.CAL_CTRL_ROT_EN m = true) ∧ ((d.feMod m).turnAt = some at_ ∧ at_ ≤ d.up) ∧
    ((d.feMod m).turn.isSome = true) :=
  ⟨set [(Reg.CAL_CTRL, 2)] (sFe { turnAt := some 5, turn := some ⟨0, 0, 1, 0, false⟩ } true true), 5, 1, 5, later (set [(Reg.CAL_CTRL,
    2)] (sFe { turnAt := some 5, turn := some ⟨0, 0, 1, 0, false⟩ } true true)).dev 5,
    rfl, (by decide +kernel), (by decide +kernel), (by decide +kernel)⟩

theorem witness_CalibrationTurnsRun_3 : ∃ (s : State) (dt m ms : Nat) (tn : TurnSt) (d : Dev), (d = later s.dev dt) ∧
    ((d.feMod m).turn = some tn) ∧ (turnTimes[tn.step]? = some ms) ∧ (tn.at_ + (ms + 201 * tn.repeats) * 1000000 ≤ d.up) :=
  ⟨sFe { turn := some ⟨0, 0, 1, 0, false⟩ } true true, 2000000, 1, 2, ⟨0, 0, 1, 0, false⟩,
    later (sFe { turn := some ⟨0, 0, 1, 0, false⟩ } true true).dev 2000000,
    rfl, (by decide +kernel), (by decide +kernel), (by decide +kernel)⟩

theorem witness_CalibrationTurnsRun_4 : ∃ (s : State) (dt m : Nat) (tn : TurnSt) (d : Dev), (d = later s.dev dt) ∧ (m < 4 ∧
    (d.feMod m).turn = some tn ∧ tn.step = 1) ∧ (tn.at_ + (2 + 201 * tn.repeats) * 1000000 ≤ d.up) :=
  ⟨sFe { turn := some ⟨0, 0, 1, 0, false⟩ } true true, 2000000, 1, ⟨0, 0, 1, 0, false⟩,
    later (sFe { turn := some ⟨0, 0, 1, 0, false⟩ } true true).dev 2000000,
    rfl, (by decide +kernel), (by decide +kernel)⟩

theorem witness_CalibrationTurnsRun_5 : ∃ (s : State) (dt m : Nat) (tn : TurnSt) (d : Dev), (d = later s.dev dt) ∧ (m < 4 ∧
    (d.feMod m).turn = some tn ∧ tn.step = 26) ∧ (tn.at_ + (644 + 201 * tn.repeats) * 1000000 ≤ d.up) :=
  ⟨sFe { turn := some ⟨0, 0, 26, 0, false⟩ } true true, 644000000, 1, ⟨0, 0, 26, 0, false⟩,
    later (sFe { turn := some ⟨0, 0, 26, 0, false⟩ } true true).dev 644000000,
    rfl, (by decide +kernel), (by decide +kernel)⟩

theorem witness_CalibrationTurnsRun_6 : ∃ (s : State) (dt m a k0 : Nat) (lo hi : CalVals) (d : Dev), (d = later s.dev dt) ∧
    (((d.feMod m).adc a).ramp = some (k0, lo, hi)) ∧ (k0 + 256000 ≤ d.nowTick) :=
  ⟨sFe (({} : FeModSt).modAdc 2 (fun x => { x with ramp := some (0, {}, {}) })) true true, 1000000000, 1, 2, 0, {}, {},
    later (sFe (({} : FeModSt).modAdc 2 (fun x => { x with ramp := some (0, {}, {}) })) true true).dev 1000000000,
    rfl, (by decide +kernel), (by decide +kernel)⟩

theorem witness_GeyserEventsTakeEffect_1 : ∃ (s : State) (dt k : Nat) (d : Dev), (d = later s.dev dt) ∧ (d.geyDue = some k) :=
  ⟨sGey {} {}, 60000, 3, later (sGey {} {}).dev 60000,
    rfl, (by decide +kernel)⟩

theorem witness_GeyserEventsTakeEffect_2 : ∃ (s : State) (dt k : Nat) (d : Dev), (d = later s.dev dt) ∧ (d.tickDue = some k) ∧ (d.bit
    Fld.GEY_CTRL_EN = false) :=
  ⟨sStreaming, 0, 255988, later sStreaming.dev 0,
    rfl, (by decide +kernel), (by decide +kernel)⟩

theorem witness_GeyserEventsTakeEffect_3 : ∃ (x : Dev) (k vec n : Nat) (t : TrigSt) (e : TrigEntry), (x.gey.trigs.getD n {} = t ∧
    t.ent = some e) ∧ (e.matches vec = true ∧ t.prev = some false) ∧ (t.inHold k = false ∧ x.frozenFor e = false ∧ t.soft = 0) ∧
    (x.gey.marks.length < 1024) :=
  ⟨(sGey {} { ent := some trig0, prev := some false }).dev, 9, 0, 5, { ent := some trig0, prev := some false }, trig0,
    (by decide +kernel), (by decide +kernel), (by decide +kernel), (by decide +kernel)⟩

theorem witness_GeyserEventsTakeEffect_4 : ∃ (s : State) (dt k j : Nat) (d : Dev) (e : LcEntry), (d = later s.dev dt) ∧
    (d.geyDue = some k) ∧ ((d.lc j).ent = some e ∧ 0 < e.hold) ∧ ((d.lc j).under = true) ∧ (((d.lcTick k j).lc j).under = false) :=
  ⟨sHold, 60000, 3, 3, later sHold.dev 60000, { lc0 with hold := 2 },
    rfl, (by decide +kernel), (by decide +kernel), (by decide +kernel), (by decide +kernel)⟩

theorem witness_GeyserEventsTakeEffect_5 : ∃ (s : State) (dt k j : Nat) (d : Dev) (e : LcEntry), (d = later s.dev dt) ∧ (j < 64) ∧
    (d.geyDue = some k) ∧ ((d.lc j).ent = some e ∧ d.lcFrozen j = true) ∧ ((d.lc j).changes.headD 0 + e.chatWin * 256 ≤ k) ∧ (d.measuring
    (e.ch / 12) = true) :=
  ⟨sCalm, 2000000, 500, 3, later sCalm.dev 2000000, lc0,
    rfl, (by decide +kernel), (by decide +kernel), (by decide +kernel), (by decide +kernel), (by decide +kernel)⟩

theorem witness_GeyserEventsTakeEffect_6 : ∃ (s : State) (dt k n : Nat) (d : Dev) (e : TrigEntry), (d = later s.dev dt) ∧
    (d.geyDue = some k) ∧ ((d.gey.trigs.getD n {}).ent = some e) ∧ (e.matches (d.allDetectors k).geyVector = true) ∧
    ((d.gey.trigs.getD n {}).repeatDue e k = true) :=
  ⟨sGey {} { ent := some { trig0 with repeat_ := 1 }, prev := some true, high := true, lastFire := some 200 }, 2000000, 500, 5,
    later (sGey {} { ent := some { trig0 with repeat_ := 1 }, prev := some true, high := true, lastFire := some 200 }).dev 2000000,
    { trig0 with repeat_ := 1 },
    rfl, (by decide +kernel), (by decide +kernel), (by decide +kernel), (by decide +kernel)⟩

theorem witness_GeyserEventsTakeEffect_7 : ∃ (s : State) (dt k n u : Nat) (d : Dev), (d = later s.dev dt) ∧ (d.geyDue = some k) ∧
    ((d.gey.trigs.getD n {}).holdUntil = some u ∧ u ≤ k) :=
  ⟨sGey {} { ent := some trig0, holdUntil := some 500 }, 2000000, 500, 5, 500,
    later (sGey {} { ent := some trig0, holdUntil := some 500 }).dev 2000000,
    rfl, (by decide +kernel), (by decide +kernel)⟩

theorem witness_GeyserEventsTakeEffect_8 : ∃ (s : State) (dt k n : Nat) (d : Dev) (e : TrigEntry), (d = later s.dev dt) ∧ (d.geyDue = some
    k) ∧ ((d.gey.trigs.getD n {}).ent = some e ∧ e.stuckS ≠ 0) ∧ (e.matches (d.allDetectors k).geyVector = true) ∧ ((d.gey.trigs.getD n
    {}).high = true ∧ (d.gey.trigs.getD n {}).stuck = false) ∧ ((d.gey.trigs.getD n {}).since + e.stuckS * 256000 ≤ k) :=
  ⟨sGey {} { ent := some trig0, prev := some true, high := true }, 1001000000, 256244, 5, later (sGey {} { ent := some trig0, prev := some true, high := true }).dev
    1001000000, trig0,
    rfl, (by decide +kernel), (by decide +kernel), (by decide +kernel), (by decide +kernel), (by decide +kernel)⟩

theorem witness_GeyserEventsTakeEffect_9 : ∃ (s : State) (dt n : Nat) (d x : Dev) (r : RingRec) (rest : List RingRec), (d = later s.dev
    dt) ∧ (d.ringOf 7 = some n ∧ d.hostReady = true ∧ (d.ring n).rest = none) ∧ (d.hif.trigQ = r :: rest) ∧ (d.place n 7 r = (x, true)) :=
  ⟨sBuf 7 (dev (fun d => d.setRingQ 7 [⟨zeros 32, true⟩]) s0), 0, 1, later (sBuf 7 (dev (fun d => d.setRingQ 7 [⟨zeros 32, true⟩])
    s0)).dev 0, ((later (sBuf 7 (dev (fun d => d.setRingQ 7 [⟨zeros 32, true⟩]) s0)).dev 0).place 1 7 ⟨zeros 32, true⟩).1, ⟨zeros 32,
    true⟩, [],
    rfl, (by decide +kernel), (by decide +kernel), (by decide +kernel)⟩

theorem witness_GeyserEventsTakeEffect_10 : ∃ (s : State) (v : Word) (d : Dev), (d = later s.dev 0) ∧ (v.toNat.testBit 0 = true ∧ d.bit
    Fld.GEY_CTRL_EN = false) ∧ (d.gatedAt Reg.GEY_CTRL = false) :=
  ⟨s0, 1, later s0.dev 0,
    rfl, (by decide +kernel), (by decide +kernel)⟩

theorem witness_GeyserEventsTakeEffect_11 : ∃ (s : State) (v : Word) (d : Dev), (d = later s.dev 0) ∧ (d.bit Fld.GEY_CTRL_EN =
    v.toNat.testBit 0) ∧ (d.gatedAt Reg.GEY_CTRL = false) ∧ (d.geyIdle = false ∨ d.gey.tick = none) :=
  ⟨s0, 2, later s0.dev 0,
    rfl, (by decide +kernel), (by decide +kernel), (by decide +kernel)⟩

theorem witness_GeyserEventsTakeEffect_12 : ∃ (s : State) (v : Word) (d : Dev), (d = later s.dev 0) ∧ (d.bit Fld.GEY_CTRL_EN =
    v.toNat.testBit 0) ∧ (d.gatedAt Reg.GEY_CTRL = false) ∧ (d.geyIdle = true) :=
  ⟨sIdle, 2, later sIdle.dev 0,
    rfl, (by decide +kernel), (by decide +kernel), (by decide +kernel)⟩

theorem witness_GeyserCommandsComplete_1 : ∃ (s : State) (c : Ctx) (d : Dev) (first count : Nat) (images : Bytes), (ready s.dev c.ring
    false (some 0)) ∧ (d = fetched s.dev c.ring) ∧ (1 ≤ count ∧ first + count ≤ 64) ∧ ((imagesOf 16 count images).any (resvSet lcResv) =
    false) ∧ ((imagesOf 16 count images).any (fun b => !(lcFields b).fits) = false) :=
  ⟨sR, c0, fetched sR.dev 0, 5, 1, [0x80] ++ zeros 13 ++ [1, 0],
    (by unfold ready; decide +kernel), rfl, (by decide +kernel), (by decide +kernel), (by decide +kernel)⟩

theorem witness_GeyserCommandsComplete_2 : ∃ (s : State) (c : Ctx) (d : Dev) (first count : Nat) (images : Bytes), (ready s.dev c.ring
    false (some 0)) ∧ (d = fetched s.dev c.ring) ∧ (count = 0 ∨ 64 < first + count ∨ (imagesOf 16 count images).any (fun b => resvSet
    lcResv b || !(lcFields b).fits) = true) :=
  ⟨sR, c0, fetched sR.dev 0, 64, 1, zeros 16,
    (by unfold ready; decide +kernel), rfl, (by decide +kernel)⟩

theorem witness_GeyserCommandsComplete_3 : ∃ (s : State) (c : Ctx) (d : Dev) (first count : Nat) (images : Bytes),
    (ready s.dev c.ring false (some 0)) ∧ (d = fetched s.dev c.ring) ∧ (1 ≤ count ∧ first + count ≤ 256) ∧
    ((imagesOf 72 count images).any trigBad = false) :=
  ⟨sR, c0, fetched sR.dev 0, 255, 1, [1] ++ zeros 63 ++ [1] ++ zeros 7,
    (by unfold ready; decide +kernel), rfl, (by decide +kernel), (by decide +kernel)⟩

theorem witness_GeyserCommandsComplete_4 : ∃ (s : State) (c : Ctx) (d : Dev) (first count : Nat) (images : Bytes),
    (ready s.dev c.ring false (some 0)) ∧ (d = fetched s.dev c.ring) ∧
    (count = 0 ∨ 256 < first + count ∨ (imagesOf 72 count images).any trigBad = true) :=
  ⟨sR, c0, fetched sR.dev 0, 255, 1, [3] ++ zeros 71,
    (by unfold ready; decide +kernel), rfl, (by decide +kernel)⟩

theorem witness_GeyserCommandsComplete_5 : ∃ (s : State) (c : Ctx) (d : Dev) (rate mask : Nat), (ready s.dev c.ring false (some 0)) ∧ (d =
    fetched s.dev c.ring) ∧ (rate ≤ 1 ∧ 0 < mask ∧ mask < 2 ^ 48) :=
  ⟨sR, c0, fetched sR.dev 0, 1, 2 ^ 48 - 1,
    (by unfold ready; decide +kernel), rfl, (by decide +kernel)⟩

theorem witness_GeyserCommandsComplete_6 : ∃ (s : State) (c : Ctx) (d : Dev) (rate mask : Nat), (ready s.dev c.ring false (some 0)) ∧
    (d = fetched s.dev c.ring) ∧ (1 < rate ∨ mask = 0 ∨ 2 ^ 48 ≤ mask) :=
  ⟨sR, c0, fetched sR.dev 0, 1, 0,
    (by unfold ready; decide +kernel), rfl, (by decide +kernel)⟩

theorem witness_GeyserCommandsComplete_7 : ∃ (s : State) (c : Ctx) (d : Dev) (n : Nat), (ready s.dev c.ring false (some 0)) ∧
    (d = fetched s.dev c.ring) ∧ ((d.gey.trigs.getD n {}).ent.isSome = true) :=
  ⟨dev (fun d => d.modGey (fun g => { g with trigs := [(5, { ent := some trig0 })] })) sR, c0,
    fetched (dev (fun d => d.modGey (fun g => { g with trigs := [(5, { ent := some trig0 })] })) sR).dev 0, 5,
    (by unfold ready; decide +kernel), rfl, (by decide +kernel)⟩

theorem witness_GeyserCommandsComplete_8 : ∃ (s : State) (c : Ctx) (d : Dev) (n : Nat), (ready s.dev c.ring false (some 0)) ∧
    (d = fetched s.dev c.ring) ∧ ((d.gey.trigs.getD n {}).ent = none) :=
  ⟨sR, c0, fetched sR.dev 0, 5,
    (by unfold ready; decide +kernel), rfl, (by decide +kernel)⟩

theorem witness_GeyserCommandsComplete_9 : ∃ (s : State) (c : Ctx) (d : Dev) (buf : HostBuf), (ready s.dev c.ring false (some 0)) ∧
    (d = fetched s.dev c.ring) :=
  ⟨sR, c0, fetched sR.dev 0, ⟨0x1000, 6144⟩,
    (by unfold ready; decide +kernel), rfl⟩

theorem witness_EnergyEventsTakeEffect_1 : ∃ (s : State) (v : Word), (v.toNat.testBit 0 = true) ∧
    ((later s.dev 0).gatedAt Reg.NRG_CTRL = false) :=
  ⟨s0, 1,
    (by decide +kernel), (by decide +kernel)⟩

theorem witness_EnergyEventsTakeEffect_2 : ∃ (s : State) (dt i x : Nat) (d : Dev) (p rest : PulseSt) (w : Nat), (d = later s.dev dt) ∧
    (i < 4 ∧ d.nrg.pins[i]? = some p) ∧ (d.bit Fld.NRG_CTRL_EN = true ∧ p.high = false) ∧ (p.pop = some (some x, w, rest)) ∧
    (max x p.nextFree ≤ d.nowUs) :=
  ⟨sNrg { jobs := [⟨10, [5], 0⟩], nextFree := 7 }, 9000, 2, 5, later (sNrg { jobs := [⟨10, [5], 0⟩], nextFree := 7 }).dev 9000,
    { jobs := [⟨10, [5], 0⟩], nextFree := 7 }, { jobs := [⟨10, [], 0⟩], nextFree := 7 }, 10,
    rfl, (by decide +kernel), (by decide +kernel), (by decide +kernel), (by decide +kernel)⟩

theorem witness_EnergyEventsTakeEffect_3 : ∃ (s : State) (dt i : Nat) (d : Dev) (p : PulseSt), (d = later s.dev dt) ∧
    (d.nrg.pins[i]? = some p) ∧ (p.high = true ∧ p.highUntil ≤ d.nowUs) :=
  ⟨sNrg { high := true, highUntil := 7 }, 9000, 2, later (sNrg { high := true, highUntil := 7 }).dev 9000,
    { high := true, highUntil := 7 },
    rfl, (by decide +kernel), (by decide +kernel)⟩

theorem witness_EnergyEventsTakeEffect_4 : ∃ (s : State) (dt : Nat) (d : Dev), (d = later s.dev dt) ∧ (d.bit Fld.NRG_CTRL_EN = true) ∧
    (d.utcMinute % max 1 (d.fld Fld.NRG_CFG_INTERVAL) = 0 ∧ d.utcMinute ≠ d.nrg.intervalMin) :=
  ⟨sNrg {}, 60000000000, later (sNrg {}).dev 60000000000,
    rfl, (by decide +kernel), (by decide +kernel)⟩

theorem witness_EnergyEventsTakeEffect_5 : ∃ (s : State) (dt p : Nat) (d : Dev) (e : NrgEntry), (d = later s.dev dt) ∧
    (d.bit Fld.NRG_CTRL_EN = true ∧ d.bit Fld.NRG_STATUS_PFW = false ∧ d.finalSaving = false) ∧ (d.gSec ≠ d.nrg.savedSec) ∧ (p < 16 ∧
    (d.point p).ent = some e ∧ (d.point p).saving = none) :=
  ⟨sNrgPt none, 1000000000, 1, later (sNrgPt none).dev 1000000000, nrg0,
    rfl, (by decide +kernel), (by decide +kernel), (by decide +kernel)⟩

theorem witness_EnergyEventsTakeEffect_6 : ∃ (s : State) (dt p i : Nat) (d : Dev) (x : SaveSlot), (d = later s.dev dt) ∧
    (p < d.nrg.points.length ∧ p < d.nrg.slots.length) ∧ ((d.point p).saving = some (i, false, x)) :=
  ⟨sNrgPt (some (1, false, save0)), 0, 1, 1, later (sNrgPt (some (1, false, save0))).dev 0, save0,
    rfl, (by decide +kernel), (by decide +kernel)⟩

theorem witness_EnergyEventsTakeEffect_7 : ∃ (s : State) (dt p i : Nat) (d : Dev) (x : SaveSlot), (d = later s.dev dt) ∧
    (p < d.nrg.points.length) ∧ ((d.point p).saving = some (i, false, x)) :=
  ⟨sNrgPt (some (1, false, save0)), 0, 1, 1, later (sNrgPt (some (1, false, save0))).dev 0, save0,
    rfl, (by decide +kernel), (by decide +kernel)⟩

theorem witness_EnergyEventsTakeEffect_8 : ∃ (x : Dev) (n p : Nat) (e : NrgEntry), (p < x.nrg.points.length) ∧ (e.channels.any (fun ch =>
    (x.fineAt ch n).isNone) = true) ∧ ((x.pointStep n (p, e)).bit (Fld.NRG_PTn_STAT_LINK_GAP p) = true ∧ (x.pointStep n (p, e)).point p =
    { x.point p with outage := (x.point p).outage + 1 } ∧ (x.pointStep n (p, e)).nrg.pins = x.nrg.pins ∧ (e.channels.any (fun ch =>
    (x.fineAt ch n).any (fun y => y.ovr)) = true → (x.pointStep n (p, e)).bit (Fld.NRG_PTn_STAT_OVR p) = true)) :=
  ⟨(sNrgPt none).dev, 3, 1, nrg0,
    (by decide +kernel), (by decide +kernel), (by decide +kernel)⟩

theorem witness_PulsesAreNeverDropped_1 : 0 < ({ weight := 10, residue := 3, jobs := [⟨1, [], 0⟩] } : PulseSt).weight
    ∧ ({ weight := 10, residue := 3, jobs := [⟨1, [], 0⟩] } : PulseSt).owed + (3 + 57) / 10 < 2 ^ 32 := by decide

theorem witness_PulsesAreNeverDropped_2 :
    ({ jobs := [⟨7, [5], 0⟩] } : PulseSt).pop = some (some 5, 7, { jobs := [⟨7, [], 0⟩] }) := by decide

theorem witness_EnergyCommandsComplete_1 : ∃ (s : State) (c : Ctx) (d : Dev) (p : Nat) (image : Bytes) (clear : Bool),
    (ready s.dev c.ring false (some 1)) ∧ (d = fetched s.dev c.ring) ∧ (p < 16 ∧ resvSet nrgResv image = false) ∧
    ((fieldAt image 0 1).testBit 2 = true ∧ (nrgEntryOf image).fits = true) ∧ ((d.point p).ent = none ∧ d.latestSave p = none) :=
  ⟨sR, c0, fetched sR.dev 0, 3, nrgImage, false,
    (by unfold ready; decide +kernel), rfl, (by decide +kernel), (by decide +kernel), (by decide +kernel)⟩

theorem witness_EnergyCommandsComplete_2 : ∃ (s : State) (c : Ctx) (d : Dev) (p i : Nat) (image : Bytes) (clear : Bool) (x : SaveSlot),
    (ready s.dev c.ring false (some 1)) ∧ (d = fetched s.dev c.ring) ∧ (p < 16 ∧ resvSet nrgResv image = false) ∧
    ((fieldAt image 0 1).testBit 2 = true ∧ (nrgEntryOf image).fits = true) ∧ ((d.point p).ent = none ∧ d.latestSave p = some (i, x) ∧
    x.defCrc = (nrgEntryOf image).defCrc) :=
  ⟨sSaved (saveOf 3 (nrgEntryOf nrgImage).defCrc), c0,
    fetched (sSaved (saveOf 3 (nrgEntryOf nrgImage).defCrc)).dev 0, 3, 0, nrgImage, false,
    saveOf 3 (nrgEntryOf nrgImage).defCrc,
    (by unfold ready; decide +kernel), rfl, (by decide +kernel), (by decide +kernel), (by decide +kernel)⟩

theorem witness_EnergyCommandsComplete_3 : ∃ (s : State) (c : Ctx) (d : Dev) (p i : Nat) (image : Bytes) (clear : Bool) (x : SaveSlot),
    (ready s.dev c.ring false (some 1)) ∧ (d = fetched s.dev c.ring) ∧ (p < 16 ∧ resvSet nrgResv image = false) ∧
    ((fieldAt image 0 1).testBit 2 = true ∧ (nrgEntryOf image).fits = true) ∧ ((d.point p).ent = none ∧ d.latestSave p = some (i, x) ∧
    x.defCrc ≠ (nrgEntryOf image).defCrc) :=
  ⟨sSaved save0, c0, fetched (sSaved save0).dev 0, 3, 0, nrgImage, true, save0,
    (by unfold ready; decide +kernel), rfl, (by decide +kernel), (by decide +kernel), (by decide +kernel)⟩

theorem witness_EnergyCommandsComplete_4 : ∃ (s : State) (c : Ctx) (d : Dev) (p : Nat) (image : Bytes) (clear : Bool), (ready s.dev c.ring
    false (some 1)) ∧ (d = fetched s.dev c.ring) ∧ (p < 16 ∧ resvSet nrgResv image = false) ∧ ((nrgEntryOf image).fits = false) :=
  ⟨sR, c0, fetched sR.dev 0, 3, [7] ++ nrgImage.drop 1, false,
    (by unfold ready; decide +kernel), rfl, (by decide +kernel), (by decide +kernel)⟩

theorem witness_EnergyCommandsComplete_5 : ∃ (s : State) (c : Ctx) (d : Dev) (p : Nat) (image : Bytes) (clear : Bool) (e : NrgEntry),
    (ready s.dev c.ring false (some 1)) ∧ (d = fetched s.dev c.ring) ∧ (p < 16 ∧ resvSet nrgResv image = false) ∧ ((fieldAt image 0
    1).testBit 2 = false ∧ (nrgEntryOf image).fits = true) ∧ ((d.point p).ent = some e) :=
  ⟨dev (fun d => d.modPoint 3 (fun _ => { ent := some nrg0 })) sR, c0, fetched (dev (fun d => d.modPoint 3 (fun _ =>
    { ent := some nrg0 })) sR).dev 0, 3, nrgOff, false, nrg0,
    (by unfold ready; decide +kernel), rfl, (by decide +kernel), (by decide +kernel), (by decide +kernel)⟩

theorem witness_EnergyCommandsComplete_6 : ∃ (s : State) (c : Ctx) (d : Dev) (pin point idx weight width : Nat) (en : Bool),
    (ready s.dev c.ring false (some 1)) ∧ (d = fetched s.dev c.ring) ∧ (pin < 4 ∧ point < 16 ∧ idx < 16 ∧
    (d.point point).ent.isSome = true) ∧ (65536 ≤ weight ∧ weight < 2 ^ 64 ∧ 0 < width ∧ width < 65536) :=
  ⟨dev (fun d => d.modPoint 3 (fun _ => { ent := some nrg0 })) sR, c0,
    fetched (dev (fun d => d.modPoint 3 (fun _ => { ent := some nrg0 })) sR).dev 0, 3, 3, 15, 65536, 65535, true,
    (by unfold ready; decide +kernel), rfl, (by decide +kernel), (by decide +kernel)⟩

theorem witness_EnergyCommandsComplete_7 : ∃ (s : State) (c : Ctx) (d : Dev) (pin point idx weight width : Nat) (en : Bool),
    (ready s.dev c.ring false (some 1)) ∧ (d = fetched s.dev c.ring) ∧
    (3 < pin ∨ 15 < point ∨ 15 < idx ∨ (d.point point).ent = none ∨ weight < 65536 ∨ 2 ^ 64 ≤ weight ∨ width = 0 ∨ 65535 < width) :=
  ⟨sR, c0, fetched sR.dev 0, 3, 3, 15, 65536, 65535, true,
    (by unfold ready; decide +kernel), rfl, (by decide +kernel)⟩

theorem witness_EnergyCommandsComplete_8 : ∃ (s : State) (c : Ctx) (d : Dev) (mask : Nat) (latched : Bool) (buf : HostBuf),
    (ready s.dev c.ring false (some 1)) ∧ (d = fetched s.dev c.ring) :=
  ⟨sR, c0, fetched sR.dev 0, 0x8001, false, ⟨0x1000, 320⟩,
    (by unfold ready; decide +kernel), rfl⟩

theorem witness_EnergyCommandsComplete_9 : ∃ (s : State) (c : Ctx) (d : Dev) (mask : Nat), (ready s.dev c.ring false (some 1)) ∧
    (d = fetched s.dev c.ring) :=
  ⟨sR, c0, fetched sR.dev 0, 0x8001,
    (by unfold ready; decide +kernel), rfl⟩

theorem witness_CycleEventsTakeEffect_1 : ∃ (s : State) (dt : Nat) (d : Dev) (p : Program), (d = later s.dev dt) ∧
    (d.program = some p) ∧ (d.cyc.outputsOn = true ∧ d.boundaryDue p.period = true) ∧ (d.cyc.running = true ∧ d.cyc.stopReq = none ∧
    d.cyc.late = false ∧ d.switchDue = none) :=
  ⟨sCyc id, 5000000, later (sCyc id).dev 5000000, prog0,
    rfl, (by decide +kernel), (by decide +kernel), (by decide +kernel)⟩

theorem witness_CycleEventsTakeEffect_2 : ∃ (s : State) (dt : Nat) (d : Dev) (p : Program), (d = later s.dev dt) ∧
    (d.program = some p) ∧ (d.cyc.outputsOn = true ∧ d.boundaryDue p.period = true) ∧ (d.cyc.running = true ∧ d.cyc.stopReq = some 0) :=
  ⟨sCyc (fun c => { c with stopReq := some 0 }), 5000000, later (sCyc (fun c => { c with stopReq := some 0 })).dev 5000000, prog0,
    rfl, (by decide +kernel), (by decide +kernel), (by decide +kernel)⟩

theorem witness_CycleEventsTakeEffect_3 : ∃ (s : State) (dt : Nat) (d : Dev) (p q : Program) (init : Bool), (d = later s.dev dt) ∧
    (d.program = some p ∧ d.otherProgram = some q) ∧ (d.cyc.outputsOn = true ∧ d.boundaryDue p.period = true) ∧ (d.cyc.running = true ∧
    d.cyc.stopReq = none ∧ (d.cyc.late = false ∨ (d.cyc.skipped = true ∧ d.cyc.execDone = true)) ∧ d.switchDue = some init) :=
  ⟨sCyc (fun c => { c with switch := some (0, false) }), 5000000, later (sCyc (fun c => { c with switch := some (0, false) })).dev
    5000000, prog0, prog1, false,
    rfl, (by decide +kernel), (by decide +kernel), (by decide +kernel)⟩

theorem witness_CycleEventsTakeEffect_4 : ∃ (s : State) (dt : Nat) (d : Dev) (w r : List (Nat × Bytes)), (d = later s.dev dt) ∧
    (d.cyc.running = true ∧ d.cyc.executing = true ∧ d.cyc.execDone = false) :=
  ⟨sCyc (fun c => { c with executing := true }), 5000000, later (sCyc (fun c => { c with executing := true })).dev 5000000, [(65536,
    [3])], [(0, [1])],
    rfl, (by decide +kernel)⟩

theorem witness_CycleEventsTakeEffect_5 : ∃ (s : State) (dt carrier : Nat) (d : Dev) (p : Program), (d = later s.dev dt) ∧
    (d.program = some p ∧ d.outDue p = true) ∧ (d.cyc.outputsOn = true ∧ d.cyc.outPending = true) ∧ (d.cyc.running = true ∧
    d.cyc.late = false ∧ d.cyc.execDone = true) :=
  ⟨sCyc (fun c => { c with outPending := true, execDone := true, work := [(65536, 7), (65792, 1)] }), 5000000, 1,
    later (sCyc (fun c => { c with outPending := true, execDone := true, work := [(65536, 7), (65792, 1)] })).dev 5000000, prog0,
    rfl, (by decide +kernel), (by decide +kernel), (by decide +kernel)⟩

theorem witness_CycleEventsTakeEffect_6 : ∃ (s : State) (dt carrier : Nat) (d : Dev) (p : Program), (d = later s.dev dt) ∧
    (d.program = some p ∧ d.outDue p = true) ∧ (d.cyc.outputsOn = true ∧ d.cyc.outPending = true) ∧ (d.cyc.running = true ∧
    d.cyc.late = false ∧ d.cyc.execDone = false) ∧ (d.cyc.overruns + 1 < d.fld Fld.CYC_CFG_OVR_MAX) :=
  ⟨sCyc (fun c => { c with outPending := true, executing := true }), 5000000, 1,
    later (sCyc (fun c => { c with outPending := true, executing := true })).dev 5000000, prog0,
    rfl, (by decide +kernel), (by decide +kernel), (by decide +kernel), (by decide +kernel)⟩

theorem witness_CycleEventsTakeEffect_7 : ∃ (s : State) (dt : Nat) (d : Dev), (d = later s.dev dt) ∧ (d.cycFaultDue = true) :=
  ⟨sCyc (fun c => { c with late := true, skipped := true, executing := true }), 15000000,
    later (sCyc (fun c => { c with late := true, skipped := true, executing := true })).dev 15000000,
    rfl, (by decide +kernel)⟩

theorem witness_CycleEventsTakeEffect_8 : ∃ (s : State) (dt : Nat) (d : Dev), (d = later s.dev dt) ∧ (d.cyc.running = true ∧
    d.cyc.executing = true) ∧ (d.saf.queue.length < 16 ∧ d.saf.queue.all (fun e => decide (e.cls ≠ eLockstep)) = true) :=
  ⟨sCyc (fun c => { c with executing := true }), 0, later (sCyc (fun c => { c with executing := true })).dev 0,
    rfl, (by decide +kernel), (by decide +kernel)⟩

theorem witness_CycleEventsTakeEffect_9 : ∃ (s : State) (dt g : Nat) (d : Dev) (x : FieldTx), (d = later s.dev dt) ∧
    ((d.field g).tx = some x) ∧ (x.attempts = 0 ∧ x.outAt + 200000 ≤ d.up) :=
  ⟨dev (fun d => d.setFieldTx 1 (some { payload := [], outAt := 5 })) s0, 200005, 1,
    later (dev (fun d => d.setFieldTx 1 (some { payload := [], outAt := 5 })) s0).dev 200005, { payload := [], outAt := 5 },
    rfl, (by decide +kernel), (by decide +kernel)⟩

theorem witness_CycleEventsTakeEffect_10 : ∃ (s : State) (dt g : Nat) (b : Bytes) (d : Dev) (n : Nat) (x : StationSt) (e : StationEntry),
    (d = later s.dev dt) ∧ (28 ≤ b.length ∧ slice b 0 1 = [2] ∧ beNat (slice b 24 4) = crc32 (b.take 24)) ∧ ((d.cyc.outCycle[g]?).join =
    some (beNat (slice b 4 4))) ∧ (d.cyc.stations.find? (fun y => y.2.entry.any (fun e => decide (e.seg = g ∧ e.addr = beNat (slice b 1 1)
    % 16 ∧ e.nMod = beNat (slice b 2 1) % 16))) = some (n, x)) ∧ (x.entry = some e ∧ d.gNs < d.cyc.nextBoundary * 250000) :=
  ⟨sCyc (fun c => { c with outCycle := [some 0, none], nextBoundary := 20 }), 0, 0, reply0, later (sCyc (fun c =>
    { c with outCycle := [some 0, none], nextBoundary := 20 })).dev 0, 7, { entry := some station0 }, station0,
    rfl, (by decide +kernel), (by decide +kernel), (by decide +kernel), (by decide +kernel)⟩

theorem witness_CycleEventsTakeEffect_11 : ∃ (s : State) (dt g : Nat) (b : Bytes) (d : Dev), (d = later s.dev dt) :=
  ⟨s0, 0, 0, reply0, later s0.dev 0,
    rfl⟩

theorem witness_CycleEventsTakeEffect_12 : ∃ (s : State) (dt : Nat) (d : Dev) (x : RetCopy), (d = later s.dev dt) ∧ (d.cyc.retDue = some x
    ∧ d.cyc.saving = none ∧ d.mramTaken s.key = false) :=
  ⟨sRetDue, 9, later sRetDue.dev 9, ⟨7, 1, 9, 512, []⟩,
    rfl, (by decide +kernel)⟩

theorem witness_CycleEventsTakeEffect_13 : ∃ (s : State) (dt : Nat) (d : Dev), (d = later s.dev dt) ∧ (d.cyc.saving.isSome = true ∨
    d.cyc.retDue = none ∨ d.mramTaken s.key = true) :=
  ⟨s0, 9, later s0.dev 9,
    rfl, (by decide +kernel)⟩

theorem witness_CycleEventsTakeEffect_14 : ∃ (s : State) (dt i : Nat) (d : Dev) (x : RetSlot), (d = later s.dev dt) ∧ (d.cyc.saving = some
    (i, x) ∧ i < d.cyc.retSlots.length) :=
  ⟨sCyc (fun c => { c with saving := some (1, ⟨zeros 64, [], 3⟩) }), 0, 1, later (sCyc (fun c =>
    { c with saving := some (1, ⟨zeros 64, [], 3⟩) })).dev 0, ⟨zeros 64, [], 3⟩,
    rfl, (by decide +kernel)⟩

theorem witness_CycleEventsTakeEffect_15 : ∃ (s : State) (dt i : Nat) (d : Dev) (x : RetSlot), (d = later s.dev dt) ∧ (d.cyc.saving = some
    (i, x)) :=
  ⟨sCyc (fun c => { c with saving := some (1, ⟨zeros 64, [], 3⟩) }), 0, 1, later (sCyc (fun c =>
    { c with saving := some (1, ⟨zeros 64, [], 3⟩) })).dev 0, ⟨zeros 64, [], 3⟩,
    rfl, (by decide +kernel)⟩

theorem witness_CycleEventsTakeEffect_16 : ∃ (s : State) (v : Word), ((later s.dev 0).gatedAt Reg.RIO_CTRL = false) :=
  ⟨s0, 7,
    (by decide +kernel)⟩

theorem witness_CycleCommandsComplete_1 : ∃ (s : State) (c : Ctx) (d : Dev) (img : Bytes), (ready s.dev c.ring false (some 2)) ∧
    (d = fetched s.dev c.ring) ∧ (d.cyc.switch = none) ∧ (imageAuth s.key img (d.fld Fld.CYC_CFG_KEY_SLOT) 64 124 = none) :=
  ⟨sRcyc id false, c0, fetched (sRcyc id false).dev 0, image0 (zeros 32),
    (by unfold ready; decide +kernel), rfl, (by decide +kernel), (by decide +kernel)⟩

theorem witness_CycleCommandsComplete_2 : ∃ (s : State) (c : Ctx) (d : Dev) (img : Bytes) (st : Nat),
    (ready s.dev c.ring false (some 2)) ∧ (d = fetched s.dev c.ring) ∧ (d.cyc.switch = none) ∧
    (imageAuth s.key img (d.fld Fld.CYC_CFG_KEY_SLOT) 64 124 = some st) :=
  ⟨sRcyc id false, c0, fetched (sRcyc id false).dev 0, image0 [1], sAuthFail,
    (by unfold ready; decide +kernel), rfl, (by decide +kernel), (by decide +kernel)⟩

theorem witness_CycleCommandsComplete_3 : ∃ (s : State) (c : Ctx) (d : Dev) (img : Bytes) (x : Nat × Bool),
    (ready s.dev c.ring false (some 2)) ∧ (d = fetched s.dev c.ring) ∧ (d.cyc.switch = some x) :=
  ⟨sRcyc (fun c => { c with switch := some (0, false) }) true, c0,
    fetched (sRcyc (fun c => { c with switch := some (0, false) }) true).dev 0, image0 [1], (0, false),
    (by unfold ready; decide +kernel), rfl, (by decide +kernel)⟩

theorem witness_CycleCommandsComplete_4 : ∃ (s : State) (c : Ctx) (d : Dev) (d1 : Dev) (init : Bool) (p : Program), (ready s.dev c.ring
    true (some 2)) ∧ (d = fetched s.dev c.ring) ∧ (d.bit Fld.SAF_STATUS_SAFE = false ∧ d.cyc.running = false) ∧ (d.program = some p ∧
    p.fitsCycle d.stationsNow = true) ∧ (d.retSetup p init = some d1) :=
  ⟨sRcyc id false, c0, fetched (sRcyc id false).dev 0, (fetched (sRcyc id false).dev 0).retFromImage prog0, true, prog0,
    (by unfold ready; decide +kernel), rfl, (by decide +kernel), (by decide +kernel), (by decide +kernel)⟩

theorem witness_CycleCommandsComplete_5 : ∃ (s : State) (c : Ctx) (d : Dev) (init : Bool), (ready s.dev c.ring true (some 2)) ∧ (d =
    fetched s.dev c.ring) ∧ (d.bit Fld.SAF_STATUS_SAFE = true ∨ d.cyc.running = true ∨ d.program = none ∨ d.program.any (fun p : Program
    => !p.fitsCycle d.stationsNow || (d.retSetup p init).isNone) = true) :=
  ⟨sRcyc id true, c0, fetched (sRcyc id true).dev 0, true,
    (by unfold ready; decide +kernel), rfl, (by decide +kernel)⟩

theorem witness_CycleCommandsComplete_6 : ∃ (s : State) (c : Ctx) (d : Dev) (mode : Nat), (ready s.dev c.ring true (some 2)) ∧
    (d = fetched s.dev c.ring) ∧ (mode ≤ 1 ∧ d.cyc.running = true) :=
  ⟨sRcyc id true, c0, fetched (sRcyc id true).dev 0, 1,
    (by unfold ready; decide +kernel), rfl, (by decide +kernel)⟩

theorem witness_CycleCommandsComplete_7 : ∃ (s : State) (c : Ctx) (d : Dev) (target : Nat) (init : Bool) (p q : Program), (ready s.dev
    c.ring true (some 2)) ∧ (d = fetched s.dev c.ring) ∧ (d.bit Fld.SAF_STATUS_SAFE = false ∧ d.waitsFor (fun w => decide (w =
    WaitKind.cycSwitch)) = false ∧ d.cyc.switch = none) ∧ (d.otherProgram = some q ∧ q.fitsCycle d.stationsNow = true) ∧ (d.cyc.running =
    true ∧ d.program = some p ∧ (init = true ∨ p.layoutId = q.layoutId)) :=
  ⟨sRcyc id true, c0, fetched (sRcyc id true).dev 0, 3, false, prog0, prog1,
    (by unfold ready; decide +kernel), rfl, (by decide +kernel), (by decide +kernel), (by decide +kernel)⟩

theorem witness_CycleCommandsComplete_8 : ∃ (s : State) (c : Ctx) (d : Dev) (target : Nat) (init : Bool), (ready s.dev c.ring true (some
    2)) ∧ (d = fetched s.dev c.ring) ∧ (d.bit Fld.SAF_STATUS_SAFE = true ∨ d.waitsFor (fun w => decide (w = WaitKind.cycSwitch)) = true ∨
    d.cyc.switch.isSome = true ∨ d.otherProgram = none ∨ d.otherProgram.any (fun p : Program => !p.fitsCycle d.stationsNow) = true) :=
  ⟨sRcyc (fun c => { c with banks := [some prog0, none] }) true, c0, fetched (sRcyc (fun c => { c with banks := [some prog0, none] })
    true).dev 0, 3, false,
    (by unfold ready; decide +kernel), rfl, (by decide +kernel)⟩

theorem witness_CycleCommandsComplete_9 : ∃ (s : State) (c : Ctx) (d : Dev) (target : Nat) (p q : Program), (ready s.dev c.ring true (some
    2)) ∧ (d = fetched s.dev c.ring) ∧ (d.bit Fld.SAF_STATUS_SAFE = false ∧ d.waitsFor (fun w => decide (w = WaitKind.cycSwitch)) = false
    ∧ d.cyc.switch = none) ∧ (d.otherProgram = some q ∧ q.fitsCycle d.stationsNow = true) ∧ (d.program = some p ∧ p.layoutId ≠ q.layoutId)
    :=
  ⟨sRcyc (fun c => { c with banks := [some prog0, some { prog1 with layoutId := 2 }] }) true, c0, fetched (sRcyc (fun c => { c with banks
    := [some prog0, some { prog1 with layoutId := 2 }] }) true).dev 0, 3, prog0, { prog1 with layoutId := 2 },
    (by unfold ready; decide +kernel), rfl, (by decide +kernel), (by decide +kernel), (by decide +kernel)⟩

theorem witness_CycleCommandsComplete_10 : ∃ (s : State) (c : Ctx) (d : Dev) (n : Nat) (image : Bytes) (es : List StationEntry),
    (ready s.dev c.ring false (some 2)) ∧ (d = fetched s.dev c.ring) ∧
    (es = d.cyc.stations.filterMap (fun x => if x.1 = n then none else x.2.newest)) ∧ (n < 32 ∧ (fieldAt image 0 1).testBit 0 = true ∧
    resvSet stationResv image = false ∧ (stationOf image).fits = true) ∧ (es.any (fun o => decide (o.seg = (stationOf image).seg ∧
    o.addr = (stationOf image).addr)) = false) ∧
    (d.cyc.running = false ∨ d.program.any (fun p : Program => !p.fitsCycle (stationOf image :: es)) = false) :=
  ⟨sRcyc id false, c0, fetched (sRcyc id false).dev 0, 7, stationImage0, [],
    (by unfold ready; decide +kernel), rfl, (by decide +kernel), (by decide +kernel), (by decide +kernel), (by decide +kernel)⟩

theorem witness_CycleCommandsComplete_11 : ∃ (s : State) (c : Ctx) (d : Dev) (n : Nat) (image : Bytes) (es : List StationEntry), (ready
    s.dev c.ring false (some 2)) ∧ (d = fetched s.dev c.ring) ∧ (es = d.cyc.stations.filterMap (fun x => if x.1 = n then none else
    x.2.newest)) ∧ (31 < n ∨ resvSet stationResv image = true ∨ (stationOf image).fits = false ∨ ((fieldAt image 0 1).testBit 0 = true ∧
    (es.any (fun o => decide (o.seg = (stationOf image).seg ∧ o.addr = (stationOf image).addr)) = true ∨ (d.cyc.running = true ∧
    d.program.any (fun p : Program => !p.fitsCycle (stationOf image :: es)) = true)))) :=
  ⟨sRcyc id false, c0, fetched (sRcyc id false).dev 0, 7, [1] ++ zeros 63, [],
    (by unfold ready; decide +kernel), rfl, (by decide +kernel), (by decide +kernel)⟩

theorem witness_CycleCommandsComplete_12 : ∃ (s : State) (c : Ctx) (d : Dev) (n : Nat) (image : Bytes) (es : List StationEntry), (ready
    s.dev c.ring false (some 2)) ∧ (d = fetched s.dev c.ring) ∧ (es = d.cyc.stations.filterMap (fun x => if x.1 = n then none else
    x.2.newest)) ∧ (n < 32 ∧ (fieldAt image 0 1).testBit 0 = false ∧ resvSet stationResv image = false ∧ (stationOf image).fits = true) ∧
    (d.cyc.running = false ∨ d.program.any (fun p : Program => !p.fitsCycle es) = false) :=
  ⟨sRcyc id false, c0, fetched (sRcyc id false).dev 0, 7, 0 :: stationImage0.drop 1, [],
    (by unfold ready; decide +kernel), rfl, (by decide +kernel), (by decide +kernel), (by decide +kernel)⟩

theorem witness_CycleCommandsComplete_13 : ∃ (s : State) (c : Ctx) (d : Dev) (buf : HostBuf), (ready s.dev c.ring false (some 2)) ∧
    (d = fetched s.dev c.ring) :=
  ⟨sR, c0, fetched sR.dev 0, ⟨0x1000, 1024⟩,
    (by unfold ready; decide +kernel), rfl⟩

theorem witness_CycleCommandsComplete_14 : ∃ (s : State) (c : Ctx) (d : Dev) (target : Nat) (init : Bool) (q : Program), (ready s.dev
    c.ring true (some 2)) ∧ (d = fetched s.dev c.ring) ∧ (d.bit Fld.SAF_STATUS_SAFE = false ∧ d.waitsFor (fun w => decide (w =
    WaitKind.cycSwitch)) = false ∧ d.cyc.switch = none) ∧ (d.otherProgram = some q ∧ q.fitsCycle d.stationsNow = true) ∧ (d.cyc.running =
    false ∧ (init = true ∨ d.program.all (fun p => decide (p.layoutId = q.layoutId)) = true)) :=
  ⟨sRcyc id false, c0, fetched (sRcyc id false).dev 0, 3, false, prog1,
    (by unfold ready; decide +kernel), rfl, (by decide +kernel), (by decide +kernel), (by decide +kernel)⟩

theorem witness_EngineEventsTakeEffect_1 : ∃ (s : State) (v : Word) (d : Dev), (d = later s.dev 0) ∧
    (d.gatedAt Reg.SCH_TRACE_CFG = false) ∧ (v.toNat.testBit 0 = true) ∧ (d.bit Fld.RST_STATUS_DDR_READY = true) ∧
    ((d.writePlain Reg.SCH_TRACE_CFG v).layoutCrt + d.fld Fld.GEY_CFG_BUF_SIZE + (d.writePlain Reg.SCH_TRACE_CFG v).fld
    Fld.SCH_TRACE_CFG_BUF_SIZE ≤ d.ddrMib) :=
  ⟨set [(Reg.RST_STATUS, 0xFFFFFFFF)] s0, 0x400007, later (set [(Reg.RST_STATUS, 0xFFFFFFFF)] s0).dev 0,
    rfl, (by decide +kernel), (by decide +kernel), (by decide +kernel), (by decide +kernel)⟩

theorem witness_EngineEventsTakeEffect_2 : ∃ (s : State) (v : Word) (d : Dev), (d = later s.dev 0) ∧
    (d.gatedAt Reg.SCH_TRACE_CFG = false) ∧ (v.toNat.testBit 0 = true) ∧ (d.bit Fld.SCH_TRACE_CFG_EN = false ∧
    d.bit Fld.RST_STATUS_DDR_READY = false) :=
  ⟨s0, 0x400007, later s0.dev 0,
    rfl, (by decide +kernel), (by decide +kernel), (by decide +kernel)⟩

theorem witness_EngineEventsTakeEffect_3 : ∃ (s : State) (dt cls e : Nat) (d : Dev) (q : QItem), (d = later s.dev dt) ∧ (d.nextItem cls
    (d.freeEngines cls) = some q ∧ d.nextResume cls (d.freeEngines cls) = none) ∧ ((d.freeEngines cls).find? (d.mayRun q) = some e) ∧
    (d.bit Fld.SCH_CFG_PE_PREFETCH = false ∧ d.sch.refused = []) :=
  ⟨sSch [q0 3 8] [], 0, 0, 4, later (sSch [q0 3 8] []).dev 0, q0 3 8,
    rfl, (by decide +kernel), (by decide +kernel), (by decide +kernel)⟩

theorem witness_EngineEventsTakeEffect_4 : ∃ (s : State) (dt cls : Nat) (d : Dev) (i j : WorkItem), (d = later s.dev dt) ∧ (d.freeEngines
    cls = [] ∧ d.itemOf i.origin i.tag i.arg = some j ∧ d.hasEntry j = true) :=
  ⟨sSch [] [run0 7 1 4], 0, 0, later (sSch [] [run0 7 1 4]).dev 0, item0 5, { item0 7 with arg := 0 },
    rfl, (by decide +kernel)⟩

theorem witness_EngineEventsTakeEffect_5 : ∃ (s : State) (dt cls : Nat) (d : Dev) (i j : WorkItem), (d = later s.dev dt) ∧ (d.freeEngines
    cls = [] ∧ d.itemOf i.origin i.tag i.arg = some j ∧ d.hasEntry j = false) :=
  ⟨sSch (List.replicate 896 (q0 6 1)) [run0 7 1 4], 0, 0, later (sSch (List.replicate 896 (q0 6 1)) [run0 7 1 4]).dev 0,
    { item0 5 with origin := 4 }, { item0 5 with origin := 4 },
    rfl, (by decide +kernel)⟩

theorem witness_EngineEventsTakeEffect_6 : ∃ (s : State) (dt cls : Nat) (d : Dev) (q : QItem) (v : Running), (d = later s.dev dt) ∧
    (d.freeEngines cls = [] ∧ d.nextItem cls (d.enginesOf cls) = some q ∧ d.victim cls q = some v) ∧ (v.q.item.prio < q.item.prio) ∧
    (d.bit Fld.SCH_CFG_PE_PREFETCH = false ∧ d.sch.refused = []) :=
  ⟨sSch [q0 3 8] [run0 2 1 4], 5, 0, later (sSch [q0 3 8] [run0 2 1 4]).dev 5, q0 3 8, run0 2 1 4,
    rfl, (by decide +kernel), (by decide +kernel), (by decide +kernel)⟩

theorem witness_EngineEventsTakeEffect_7 : ∃ (s : State) (dt e ecc : Nat) (d : Dev) (r : Running), (d = later s.dev dt) ∧ (d.runningOn e =
    some r ∧ r.q.item.origin ∉ [1, 3, 4, 5, 6, 7] ∧ r.q.avoid = none) ∧ ((d.sch.slots.find r.engine = none ∧ (d.sch.switching[bankIx
    r.q.item.cls]?).join = none )) :=
  ⟨sSch [] [run0 2 1 4], 5, 4, 0, later (sSch [] [run0 2 1 4]).dev 5, run0 2 1 4,
    rfl, (by decide +kernel), (by decide +kernel)⟩

theorem witness_EngineEventsTakeEffect_8 : ∃ (s : State) (dt e : Nat) (d : Dev) (r : Running), (d = later s.dev dt) ∧ (d.runningOn e =
    some r ∧ r.q.item.cls ≠ 2 ∧ r.q.avoid = none) ∧ (d.overBudget r = true) ∧ (d.sch.slots.find r.engine = none ∧ (d.sch.switching[bankIx
    r.q.item.cls]?).join = none) :=
  ⟨sSch [] [run0 2 1 4], 40001, 4, later (sSch [] [run0 2 1 4]).dev 40001, run0 2 1 4,
    rfl, (by decide +kernel), (by decide +kernel), (by decide +kernel)⟩

theorem witness_EngineEventsTakeEffect_9 : ∃ (s : State) (dt e : Nat) (d : Dev) (r : Running), (d = later s.dev dt) ∧ (e ≠ 20 ∧
    d.runningOn e = some r ∧ r.q.item.cls ≠ 2 ∧ r.q.avoid = none ∧ d.fallback r.q.item.cls = none) ∧ (d.sch.slots.find r.engine = none) :=
  ⟨sSch [] [run0 2 1 4], 1, 4, later (sSch [] [run0 2 1 4]).dev 1, run0 2 1 4,
    rfl, (by decide +kernel), (by decide +kernel)⟩

theorem witness_EngineEventsTakeEffect_10 : ∃ (s : State) (dt : Nat) (d : Dev), (d = later s.dev dt) ∧ (d.cyc.running = true ∧
    d.cyc.executing = true ∧ d.runningOn 20 = none) :=
  ⟨sCyc (fun c => { c with executing := true }), 0, later (sCyc (fun c => { c with executing := true })).dev 0,
    rfl, (by decide +kernel)⟩

theorem witness_EngineEventsTakeEffect_11 : ∃ (s : State) (dt e old : Nat) (d : Dev) (r : Running), (d = later s.dev dt) ∧ (d.runningOn e
    = some r ∧ r.q.item.cls ∈ [0, 1, 3] ∧ old < 2) ∧ (d.fallback r.q.item.cls = some old ∧ r.bank ≠ old ∧ d.sch.slots.find r.engine =
    none) :=
  ⟨dev (fun d => d.modSch (fun x => { x with switching := [some ⟨1, 0⟩, none, none] })) (sSch [] [run0 2 1 4]), 1, 4, 1, later (dev (fun d
    => d.modSch (fun x => { x with switching := [some ⟨1, 0⟩, none, none] })) (sSch [] [run0 2 1 4])).dev 1, run0 2 1 4,
    rfl, (by decide +kernel), (by decide +kernel)⟩

theorem witness_EngineEventsTakeEffect_12 : ∃ (s : State) (dt e : Nat) (d : Dev), (d = later s.dev dt) ∧ (e < 16 ∧ d.fbit
    Fld.ENG_RETIRED_ENGINE e = false) ∧ (d.fbit Fld.ENG_STATUS_PE_ACTIVE e = true ∧ d.bit Fld.ENG_STATUS_NO_SPARE = false ∧
    d.sch.sparePending = false ∧ 0 < d.deCount ∧ (d.sch.switching[0]?).join = none) :=
  ⟨sSch [] [run0 2 1 4], 1, 4, later (sSch [] [run0 2 1 4]).dev 1,
    rfl, (by decide +kernel), (by decide +kernel)⟩

theorem witness_EngineEventsTakeEffect_13 : ∃ (s : State) (dt e : Nat) (d : Dev), (d = later s.dev dt) ∧ (e < 16 ∧ d.fbit
    Fld.ENG_RETIRED_ENGINE e = false) ∧ (d.saf.queue = []) ∧ (d.fbit Fld.ENG_STATUS_PE_ACTIVE e = true ∧ d.bit Fld.ENG_STATUS_NO_SPARE =
    false ∧ d.sch.sparePending = false ∧ 0 < d.deCount ∧ (d.sch.switching[0]?).join = none) :=
  ⟨sSch [] [run0 2 1 4], 1, 4, later (sSch [] [run0 2 1 4]).dev 1,
    rfl, (by decide +kernel), (by decide +kernel), (by decide +kernel)⟩

theorem witness_EngineEventsTakeEffect_14 : ∃ (s : State) (dt : Nat) (d : Dev), (d = later s.dev dt) ∧ (d.sch.sparePending = true) :=
  ⟨dev (fun d => d.modSch (fun x => { x with sparePending := true })) (sSch [] []), 1,
    later (dev (fun d => d.modSch (fun x => { x with sparePending := true })) (sSch [] [])).dev 1,
    rfl, (by decide +kernel)⟩

theorem witness_EngineEventsTakeEffect_15 : ∃ (s : State) (dt : Nat) (d : Dev), (d = later s.dev dt) :=
  ⟨s0, 4, later s0.dev 4,
    rfl⟩

theorem witness_EngineEventsTakeEffect_16 : ∃ (s : State) (dt pct : Nat) (d : Dev), (d = later s.dev dt) ∧
    (d.fld Fld.SCH_MC_LOAD_DEFER_HI ≤ pct ∧ d.bit Fld.SCH_MC_LOAD_DEFER = false) :=
  ⟨sSch [] [], 4, 90, later (sSch [] []).dev 4,
    rfl, (by decide +kernel)⟩

theorem witness_EngineEventsTakeEffect_17 : ∃ (s : State) (dt pct : Nat) (d : Dev), (d = later s.dev dt) ∧
    (pct < d.fld Fld.SCH_MC_LOAD_DEFER_LO ∧ pct < d.fld Fld.SCH_MC_LOAD_DEFER_HI) :=
  ⟨sSch [] [], 4, 79, later (sSch [] []).dev 4,
    rfl, (by decide +kernel)⟩

theorem witness_EngineEventsTakeEffect_18 : ∃ (s : State) (dt task since : Nat) (d : Dev), (d = later s.dev dt) ∧
    (d.sch.deferred.find? (fun x => decide (x.1 = task)) = some (task, since, false)) ∧ (since + 60000000000 < d.up) :=
  ⟨dev (fun d => d.modSch (fun x => { x with deferred := [(2, 0, false)] })) s0, 60000000001, 2, 0,
    later (dev (fun d => d.modSch (fun x => { x with deferred := [(2, 0, false)] })) s0).dev 60000000001,
    rfl, (by decide +kernel), (by decide +kernel)⟩

theorem witness_EngineEventsTakeEffect_19 : ∃ (s : State) (dt cls : Nat) (d : Dev) (i : WorkItem), (d = later s.dev dt) ∧ (d.freeEngines
    cls = [] ∧ d.itemOf i.origin i.tag i.arg = none) :=
  ⟨sSch [] [run0 7 1 4], 0, 0, later (sSch [] [run0 7 1 4]).dev 0, { item0 5 with origin := 1 },
    rfl, (by decide +kernel)⟩

theorem witness_EngineEventsTakeEffect_20 : ∃ (s : State) (dt e ecc : Nat) (d x : Dev) (r : Running), (d = later s.dev dt) ∧ (d.runningOn
    e = some r ∧ x = d.complete' r) :=
  ⟨sSch [] [run0 2 1 4], 5, 4, 0, later (sSch [] [run0 2 1 4]).dev 5, (later (sSch [] [run0 2 1 4]).dev 5).complete' (run0 2 1 4), run0 2
    1 4,
    rfl, ⟨by decide +kernel, rfl⟩⟩

theorem witness_EngineEventsTakeEffect_21 : ∃ (d : Dev) (origin tag : Nat) (i : WorkItem), (d.itemOf origin tag (Config.workAddr origin tag).toNat = some i) ∧
    (d.enginesOf i.cls ≠ []) ∧ (d.sch.queue = [] ∧ d.sch.refused = [] ∧ d.sch.service = [] ∧ d.sch.slots = []) :=
  ⟨(sSch [] []).dev, 5, 9, { prio := 6, cls := 1, origin := 5, budget := 3000, tag := 9, arg := (Config.workAddr 5 9).toNat },
    rfl, (by decide +kernel), (by decide +kernel)⟩

theorem witness_EngineCommandsComplete_1 : ∃ (s : State) (c : Ctx) (d : Dev) (img : Bytes) (cls : Nat),
    (ready s.dev c.ring false none) ∧ (d = fetched s.dev c.ring) ∧ (imageAuth s.key img (d.fld Fld.ENG_CFG_KEY_SLOT) 24 60 = none) ∧
    (engHeaderOk img = true ∧ cls = leNat (slice img 4 1) % 4) ∧ (d.bit Fld.SCH_CFG_PE_PREFETCH = false ∨ cls ≠ 0) ∧
    ((d.sch.switching[bankIx cls]?).join = none) :=
  ⟨sReng, c0, fetched sReng.dev 0, engImage0 1 (zeros 32), 1,
    (by unfold ready; decide +kernel), rfl, (by decide +kernel), (by decide +kernel), (by decide +kernel), (by decide +kernel)⟩

theorem witness_EngineCommandsComplete_2 : ∃ (s : State) (c : Ctx) (d : Dev) (img : Bytes) (st : Nat),
    (ready s.dev c.ring false none) ∧ (d = fetched s.dev c.ring) ∧ (imageAuth s.key img (d.fld Fld.ENG_CFG_KEY_SLOT) 24 60 = some st) :=
  ⟨sReng, c0, fetched sReng.dev 0, zeros 64, sAuthFail,
    (by unfold ready; decide +kernel), rfl, (by decide +kernel)⟩

theorem witness_EngineCommandsComplete_3 : ∃ (s : State) (c : Ctx) (d : Dev) (img : Bytes), (ready s.dev c.ring false none) ∧
    (d = fetched s.dev c.ring) ∧ (imageAuth s.key img (d.fld Fld.ENG_CFG_KEY_SLOT) 24 60 = none) ∧
    (engHeaderOk img = false ∨ (d.sch.switching[bankIx (leNat (slice img 4 1) % 4)]?).join.isSome = true) ∧
    (engHeaderOk img = false ∨ d.bit Fld.SCH_CFG_PE_PREFETCH = false) :=
  ⟨sReng, c0, fetched sReng.dev 0, engImage0 2 (zeros 32),
    (by unfold ready; decide +kernel), rfl, (by decide +kernel), (by decide +kernel), (by decide +kernel)⟩

/-- A switch of a class's images has begun. -/
def dSwitch (d : Dev) (cls : Nat) : Dev :=
  (d.modSch (fun x => { x with switching := modifyAt d.sch.switching (bankIx cls) (fun _ => some ⟨d.bankOf cls, d.up⟩) })).setSwitching cls true

theorem witness_EngineCommandsComplete_4 : ∃ (s : State) (c : Ctx) (d d1 : Dev) (cls : Nat) (im : EngImage), (ready s.dev c.ring true
    none) ∧ (d = fetched s.dev c.ring) ∧ (cls = 0 ∨ cls = 1 ∨ cls = 3) ∧ (d.bit Fld.SAF_STATUS_SAFE = false ∧ (d.sch.switching[bankIx
    cls]?).join = none) ∧ (d.image cls (1 - d.bankOf cls) = some im) ∧ (cls = 0 ∨ im.layout = ((d.image cls (d.bankOf cls)).map (fun i =>
    i.layout)).getD 0) ∧ (d1 = (d.modSch (fun x =>
    { x with switching := modifyAt d.sch.switching (bankIx cls) (fun _ => some ⟨d.bankOf cls, d.up⟩) })).setSwitching cls true) :=
  ⟨sReng, c0, fetched sReng.dev 0,
    dSwitch (fetched sReng.dev 0) 0, 0, ⟨3, 0, true, []⟩,
    (by unfold ready; decide +kernel), rfl, (by decide +kernel), (by decide +kernel), (by decide +kernel), (by decide +kernel), rfl⟩

theorem witness_EngineCommandsComplete_5 : ∃ (s : State) (c : Ctx) (d : Dev) (cls : Nat) (im : EngImage), (d = later s.dev 0) ∧ (ready
    s.dev c.ring true none) ∧ (cls = 0 ∨ cls = 1 ∨ cls = 3) ∧ (d.bit Fld.SAF_STATUS_SAFE = false ∧ (d.sch.switching[bankIx cls]?).join =
    none ∧ d.sch.switching.length = 3) ∧ (d.image cls (1 - d.bankOf cls) = some im) ∧ (cls = 0 ∨ im.layout = ((d.image cls (d.bankOf
    cls)).map (fun i => i.layout)).getD 0) ∧ (d.sch.service.any (fun r => decide (r.q.item.cls = cls)) = false) :=
  ⟨sReng, c0, later sReng.dev 0, 0, ⟨3, 0, true, []⟩,
    rfl, (by unfold ready; decide +kernel), (by decide +kernel), (by decide +kernel), (by decide +kernel), (by decide +kernel), (by decide +kernel)⟩

theorem witness_EngineCommandsComplete_6 : ∃ (s : State) (c : Ctx) (d : Dev) (cls : Nat), (ready s.dev c.ring true none) ∧
    (d = fetched s.dev c.ring) ∧ (cls = 2 ∨ 3 < cls ∨ d.bit Fld.SAF_STATUS_SAFE = true ∨ (d.sch.switching[bankIx cls]?).join.isSome =
    true ∨ (d.image cls (1 - d.bankOf cls)) = none) :=
  ⟨sReng, c0, fetched sReng.dev 0, 1,
    (by unfold ready; decide +kernel), rfl, (by decide +kernel)⟩

theorem witness_EngineCommandsComplete_7 : ∃ (s : State) (c : Ctx) (d : Dev) (cls : Nat) (im : EngImage),
    (ready s.dev c.ring true none) ∧ (d = fetched s.dev c.ring) ∧ (cls = 1 ∨ cls = 3) ∧ (d.bit Fld.SAF_STATUS_SAFE = false ∧
    (d.sch.switching[bankIx cls]?).join = none) ∧ (d.image cls (1 - d.bankOf cls) = some im ∧
    im.layout ≠ ((d.image cls (d.bankOf cls)).map (fun i => i.layout)).getD 0) :=
  ⟨dev (fun d => d.modSch (fun x => { x with banks := [[none, none], [none, some ⟨3, 5, true, []⟩], [none, none]] })) sReng, c0,
    fetched (dev (fun d => d.modSch (fun x => { x with banks := [[none, none], [none, some ⟨3, 5, true, []⟩], [none, none]] }))
    sReng).dev 0, 1, ⟨3, 5, true, []⟩,
    (by unfold ready; decide +kernel), rfl, (by decide +kernel), (by decide +kernel), (by decide +kernel)⟩

theorem witness_EngineCommandsComplete_8 : ∃ (s : State) (c : Ctx) (d x : Dev) (first : Nat) (buf : HostBuf) (l : List Bytes), (ready
    s.dev c.ring false none) ∧ (d = fetched s.dev c.ring) ∧ (first < 2 ^ 32 ∧ x = d.drainTrace ∧ l = traceFrom first x.sch.trace) :=
  ⟨sReng, c0, fetched sReng.dev 0, (fetched sReng.dev 0).drainTrace, 0, ⟨0x1000, 64⟩, traceFrom 0 (fetched sReng.dev
    0).drainTrace.sch.trace,
    (by unfold ready; decide +kernel), rfl, ⟨by decide +kernel, rfl, rfl⟩⟩

theorem witness_PortEventsTakeEffect_1 : ∃ (s : State) (p : Nat) (v : Word) (d : Dev), (d = later s.dev 0) ∧ (p < 4 ∧ d.gatedAt
    (Reg.NET_Pp_CFG p) = false) ∧ (v.toNat.testBit 0 = true ∧ d.bit (Fld.NET_Pp_CFG_EN p) = false ∧ d.bit (Fld.NET_Pp_STATUS_LINK p) =
    false) ∧ (d.macOfPort p ≠ 0) :=
  ⟨set [(Reg.NET_Pp_MAC_LO 3, 1)] s0, 3, 1, later (set [(Reg.NET_Pp_MAC_LO 3, 1)] s0).dev 0,
    rfl, (by decide +kernel), (by decide +kernel), (by decide +kernel)⟩

theorem witness_PortEventsTakeEffect_2 : ∃ (s : State) (p : Nat) (v : Word) (d : Dev), (d = later s.dev 0) ∧ (p < 4 ∧
    d.gatedAt (Reg.NET_Pp_CFG p) = false) ∧ (v.toNat.testBit 0 = true ∧ d.bit (Fld.NET_Pp_CFG_EN p) = false) ∧ (d.macOfPort p = 0) :=
  ⟨s0, 3, 1, later s0.dev 0,
    rfl, (by decide +kernel), (by decide +kernel), (by decide +kernel)⟩

theorem witness_PortEventsTakeEffect_3 : ∃ (s : State) (dt p age phase : Nat) (f : EthFrame) (d : Dev), (d = later s.dev dt) ∧ (p < 4 ∧
    d.bit (Fld.NET_Pp_CFG_EN p) = true ∧ d.bit (Fld.NET_Pp_STATUS_LINK p) = true) ∧ (f.line = .fcsBad) :=
  ⟨sPort id, 0, 1, 0, 0, { arp0 with line := .fcsBad }, later (sPort id).dev 0,
    rfl, (by decide +kernel), (by decide +kernel)⟩

theorem witness_PortEventsTakeEffect_4 : ∃ (s : State) (dt p age phase target sender mac : Nat) (f : EthFrame) (d : Dev), (d = later s.dev
    dt) ∧ (p < 4 ∧ d.bit (Fld.NET_Pp_CFG_EN p) = true ∧ d.bit (Fld.NET_Pp_STATUS_LINK p) = true) ∧ (f.line = .good ∧ 64 ≤ f.size ∧ f.size
    ≤ d.fld (Fld.NET_Pp_FRAME_MAX_FRAME p)) ∧ (f.body = .arp target sender mac ∧ f.dst = 0xFFFFFFFFFFFF ∧ f.macsec = none) ∧
    (d.macsecBypass p f = true ∧ d.vlanAccepted p f = true) ∧ ((d.port p).ip4.contains (some target) = true ∧ (d.port p).queues[6]? = some
    []) :=
  ⟨sPort id, 0, 1, 0, 0, 7, 3, 9, arp0, later (sPort id).dev 0,
    rfl, (by decide +kernel), (by decide +kernel), (by decide +kernel), (by decide +kernel), (by decide +kernel)⟩

theorem witness_PortEventsTakeEffect_5 : ∃ (s : State) (dt p age phase q : Nat) (f : EthFrame) (d : Dev), (d = later s.dev dt) ∧ (p <
    d.net.ports.length ∧ p < 4 ∧ d.bit (Fld.NET_Pp_CFG_EN p) = true ∧ d.bit (Fld.NET_Pp_STATUS_LINK p) = true) ∧ (f.line = .good ∧ 64 ≤
    f.size ∧ f.size ≤ d.fld (Fld.NET_Pp_FRAME_MAX_FRAME p)) ∧ (f.body = .pause q ∧ f.macsec = none ∧ d.fld (Fld.NET_Pp_CFG_FC_MODE p) = 1)
    :=
  ⟨set [(Reg.NET_Pp_CFG 1, 17)] (sPort id), 0, 1, 0, 0, 256, { arp0 with body := .pause 256 }, later (set [(Reg.NET_Pp_CFG 1, 17)] (sPort
    id)).dev 0,
    rfl, (by decide +kernel), (by decide +kernel), (by decide +kernel)⟩

theorem witness_PortEventsTakeEffect_6 : ∃ (s : State) (dt p age phase : Nat) (f : EthFrame) (d : Dev), (d = later s.dev dt) ∧ (p < 4 ∧
    d.bit (Fld.NET_Pp_CFG_EN p) = true ∧ d.bit (Fld.NET_Pp_STATUS_LINK p) = true) ∧ (f.line = .good ∧ 64 ≤ f.size ∧
    f.size ≤ d.fld (Fld.NET_Pp_FRAME_MAX_FRAME p)) ∧ (f.body = .other ∧ d.macsecBypass p f = true ∧ d.vlanAccepted p f = true ∧
    d.macAccepted p f = true) :=
  ⟨sPort id, 0, 1, 0, 0, { arp0 with body := .other, dst := 5 }, later (sPort id).dev 0,
    rfl, (by decide +kernel), (by decide +kernel), (by decide +kernel)⟩

theorem witness_PortEventsTakeEffect_7 : ∃ (s : State) (dt p : Nat) (d : Dev) (x : Bool × Nat × Nat) (rest : List (Bool × Nat × Nat)),
    (d = later s.dev dt) ∧ (p < 4 ∧ (d.port p).queries = x :: rest) :=
  ⟨sPort (fun s => { s with queries := [(false, 0, 5)], mcast := [(2, { mac := 0x01005E000009, ip := 0xFFFFE0000009, join := true })] }),
    0, 1, later (sPort (fun s =>
    { s with queries := [(false, 0, 5)], mcast := [(2, { mac := 0x01005E000009, ip := 0xFFFFE0000009, join := true })] })).dev 0,
    (false, 0, 5), [],
    rfl, (by decide +kernel)⟩

theorem witness_PortEventsTakeEffect_8 : ∃ (s : State) (dt p n at_ : Nat) (d : Dev) (e : McastEntry), (d = later s.dev dt) ∧ (p < 4 ∧
    (d.port p).reports = [(n, at_)] ∧ at_ ≤ d.up) ∧ ((d.port p).mcast.find n = some e ∧ e.join = true ∧ e.ip ≠ 0) ∧
    (d.bit (Fld.NET_Pp_STATUS_LINK p) = true ∧ (d.port p).queues[6]? = some []) :=
  ⟨sPort (fun s => { s with reports := [(2, 5)], mcast := [(2, { mac := 0x01005E000009, ip := 0xFFFFE0000009, join := true })] }), 9,
    1, 2, 5, later (sPort (fun s =>
    { s with reports := [(2, 5)], mcast := [(2, { mac := 0x01005E000009, ip := 0xFFFFE0000009, join := true })] })).dev 9,
    { mac := 0x01005E000009, ip := 0xFFFFE0000009, join := true },
    rfl, (by decide +kernel), (by decide +kernel), (by decide +kernel)⟩

theorem witness_PortEventsTakeEffect_9 : ∃ (s : State) (dt p : Nat) (d : Dev), (d = later s.dev dt) ∧ (p < 4 ∧
    d.bit (Fld.NET_Pp_CFG_EN p) = true ∧ d.bit (Fld.NET_Pp_STATUS_MOD_ABS p) = false ∧ d.bit (Fld.NET_Pp_STATUS_LINK p) = false) :=
  ⟨set [(Reg.NET_Pp_CFG 2, 0x41)] s0, 0, 2, later (set [(Reg.NET_Pp_CFG 2, 0x41)] s0).dev 0,
    rfl, (by decide +kernel)⟩

theorem witness_PortEventsTakeEffect_10 : ∃ (s : State) (dt p : Nat) (los : Bool) (d : Dev), (d = later s.dev dt) ∧ (p < 4 ∧
    p < d.net.ports.length ∧ d.bit (Fld.NET_Pp_STATUS_LINK p) = true) :=
  ⟨sPort (fun s => { s with express := [tx0] }), 0, 1, true, later (sPort (fun s => { s with express := [tx0] })).dev 0,
    rfl, (by decide +kernel)⟩

theorem witness_PortEventsTakeEffect_11 : ∃ (s : State) (dt p : Nat) (ok : Bool) (d : Dev), (d = later s.dev dt) ∧ (p < 4 ∧
    d.fld (Fld.NET_Pp_STATUS_VERIFY p) = 1) :=
  ⟨set [(Reg.NET_Pp_STATUS 2, 5)] s0, 0, 2, true, later (set [(Reg.NET_Pp_STATUS 2, 5)] s0).dev 0,
    rfl, (by decide +kernel)⟩

theorem witness_PortEventsTakeEffect_12 : ∃ (s : State) (dt p phase : Nat) (d : Dev) (f : TxFrame) (rest : List TxFrame), (d = later s.dev
    dt) ∧ (p < 4 ∧ d.bit (Fld.NET_Pp_STATUS_LINK p) = true ∧ d.pausedQ p 8 = false) ∧ ((d.port p).cur = none ∧ (d.port p).freeAt ≤ d.ps ∧
    (d.port p).express = f :: rest) ∧ (f.auth = none ∧ (d.port p).macsecOn = false) ∧ (TxFrame.isPtp f = false) :=
  ⟨sPort (fun s => { s with express := [tx0] }), 0, 1, 0, later (sPort (fun s => { s with express := [tx0] })).dev 0, tx0, [],
    rfl, (by decide +kernel), (by decide +kernel), (by decide +kernel), (by decide +kernel)⟩

theorem witness_PortEventsTakeEffect_13 : ∃ (s : State) (dt p phase q : Nat) (d : Dev) (f : TxFrame), (d = later s.dev dt) ∧ (p < 4 ∧
    d.bit (Fld.NET_Pp_STATUS_LINK p) = true) ∧ ((d.port p).cur = none ∧ (d.port p).freeAt ≤ d.ps ∧ (d.port p).express = [] ∧ (d.port
    p).rest = none) ∧ (d.nextQueue p = some (q, f)) ∧ (f.auth = none ∧ (d.port p).macsecOn = false) ∧ (TxFrame.isPtp f = false) :=
  ⟨sPort (fun s => { s with queues := modifyAt s.queues 6 (fun _ => [tx0]) }), 0, 1, 0, 6, later (sPort (fun s =>
    { s with queues := modifyAt s.queues 6 (fun _ => [tx0]) })).dev 0, tx0,
    rfl, (by decide +kernel), (by decide +kernel), (by decide +kernel), (by decide +kernel), (by decide +kernel)⟩

theorem witness_PortEventsTakeEffect_14 : ∃ (s : State) (dt p phase : Nat) (d : Dev) (f : TxFrame) (rest : List TxFrame) (c : TxCur), (d =
    later s.dev dt) ∧ (p < 4 ∧ d.bit (Fld.NET_Pp_STATUS_LINK p) = true ∧ d.pausedQ p 8 = false) ∧ ((d.port p).express = f :: rest ∧
    (d.port p).cur = some c ∧ d.ps < c.endAt ∧ d.mayPreempt p c = true) ∧ (TxFrame.isPtp c.frame = false ∧ f.auth = none ∧ (d.port
    p).macsecOn = false) :=
  ⟨set [(Reg.NET_Pp_STATUS 1, 0x11), (Reg.NET_Pp_CFG 1, 5)] (sPort (fun s => { s with express := [tx0], cur := some cur0 })), 20000, 1, 0,
    later (set [(Reg.NET_Pp_STATUS 1, 0x11), (Reg.NET_Pp_CFG 1, 5)] (sPort (fun s => { s with express := [tx0], cur := some cur0 }))).dev
    20000, tx0, [], cur0,
    rfl, (by decide +kernel), (by decide +kernel), (by decide +kernel)⟩

theorem witness_PortEventsTakeEffect_15 : ∃ (s : State) (dt p : Nat) (d : Dev), (d = later s.dev dt) ∧ (p < 4) :=
  ⟨sPort (fun s => { s with pauseUntil := 5000 }), 5, 1, later (sPort (fun s => { s with pauseUntil := 5000 })).dev 5,
    rfl, (by decide +kernel)⟩

theorem witness_PortEventsTakeEffect_16 : ∃ (s : State) (dt p : Nat) (a0 : Bytes) (d : Dev), (d = later s.dev dt) ∧ (p < 4 ∧
    p < d.net.ports.length) :=
  ⟨s0, 0, 1, [3], later s0.dev 0,
    rfl, (by decide +kernel)⟩

theorem witness_PortEventsTakeEffect_17 : ∃ (s : State) (dt p : Nat) (a2 : Bytes) (d : Dev), (d = later s.dev dt) ∧ (p < 4 ∧
    p < d.net.ports.length ∧ d.bit (Fld.NET_Pp_STATUS_MOD_ABS p) = false ∧ d.bit Fld.SCH_MC_LOAD_DEFER = false) ∧
    ((fieldAt (d.port p).sfp.a0 92 1).testBit 6 = true) :=
  ⟨sPort (fun s => { s with sfp := { a0 := zeros 92 ++ [64] } }), 0, 1, [3],
    later (sPort (fun s => { s with sfp := { a0 := zeros 92 ++ [64] } })).dev 0,
    rfl, (by decide +kernel), (by decide +kernel)⟩

theorem witness_PortEventsTakeEffect_18 : ∃ (s : State) (dt p : Nat) (d : Dev), (d = later s.dev dt) ∧ (p < 4 ∧
    d.bit (Fld.NET_Pp_STATUS_MOD_ABS p) = false) :=
  ⟨sPort id, 0, 1, later (sPort id).dev 0,
    rfl, (by decide +kernel)⟩

theorem witness_PortEventsTakeEffect_19 : ∃ (s : State) (dt p : Nat) (d : Dev), (d = later s.dev dt) ∧ (p < 4) :=
  ⟨sPort id, 0, 1, later (sPort id).dev 0,
    rfl, (by decide +kernel)⟩

theorem witness_PortEventsTakeEffect_20 : ∃ (s : State) (dt p age phase ip : Nat) (f : EthFrame) (d : Dev), (d = later s.dev dt) ∧ (p < 4
    ∧ d.bit (Fld.NET_Pp_CFG_EN p) = true ∧ d.bit (Fld.NET_Pp_STATUS_LINK p) = true) ∧ (f.line = .good ∧ 64 ≤ f.size ∧ f.size ≤ d.fld
    (Fld.NET_Pp_FRAME_MAX_FRAME p)) ∧ (f.body = .ip ip ∧ d.macsecBypass p f = true) ∧ ((d.port p).ips.contains ip = false ∧ (d.port
    p).mcast = []) :=
  ⟨sPort id, 0, 1, 0, 0, 9, { dst := 5, src := 9, size := 64, body := .ip 9 }, later (sPort id).dev 0,
    rfl, (by decide +kernel), (by decide +kernel), (by decide +kernel), (by decide +kernel)⟩

theorem witness_SessionsAndFieldsTakeEffect_1 : ∃ (s : State) (dt n ep : Nat) (d : Dev) (e : SessEntry) (rest : List Nat), (d = later
    s.dev dt) ∧ ((d.sess n).entry = some e ∧ e.type = 0) ∧ ((d.sess n).todo.dropWhile (fun x => decide (x % max 1 e.rateDiv ≠ 0)) = ep ::
    rest) ∧ ((d.sess n).txOn = true ∧ d.muted e = false ∧ (d.sess n).keyOrphaned = false) ∧ (d.calm = true ∧ (d.serve 0x04 n).2 = true) :=
  ⟨sSessEng, 0, 3, 4, later sSessEng.dev 0, sess0 0, [],
    rfl, (by decide +kernel), (by decide +kernel), (by decide +kernel), (by decide +kernel)⟩

theorem witness_SessionsAndFieldsTakeEffect_2 : ∃ (s : State) (dt n at_ iv : Nat) (d : Dev) (e : SessEntry) (key : Option KeyVal),
    (d = later s.dev dt) ∧ ((d.sess n).entry = some e ∧ (d.sess n).nextAt = some (at_, iv) ∧ at_ ≤ d.up) ∧ ((d.sess n).txOn = true ∧
    (d.sess n).keyOrphaned = false ∧ d.muted e = false) ∧ (sessKey s.key e = .ok key) :=
  ⟨sSess { entry := some (sess0 2), txOn := true, nextAt := some (5, 4) }, 9, 3, 5, 4,
    later (sSess { entry := some (sess0 2), txOn := true, nextAt := some (5, 4) }).dev 9, sess0 2, none,
    rfl, (by decide +kernel), (by decide +kernel), (by decide +kernel)⟩

theorem witness_SessionsAndFieldsTakeEffect_3 : ∃ (s : State) (v : Word) (d : Dev), (d = later s.dev 0) ∧
    (d.gatedAt Reg.NET_FLD_CFG = false) ∧ (d.net.seedsHeld = false) :=
  ⟨s0, 3, later s0.dev 0,
    rfl, (by decide +kernel), (by decide +kernel)⟩

theorem witness_SessionsAndFieldsTakeEffect_4 : ∃ (s : State) (v : Word) (d : Dev), (d = later s.dev 0) ∧
    (d.gatedAt Reg.NET_FLD_CFG = false) ∧ (d.net.seedsHeld = true ∧ v.toNat % 4 ≠ 0) :=
  ⟨dev (fun d => d.modNet (fun n => { n with seedsHeld := true })) s0, 3,
    later (dev (fun d => d.modNet (fun n => { n with seedsHeld := true })) s0).dev 0,
    rfl, (by decide +kernel), (by decide +kernel)⟩

theorem witness_SessionsAndFieldsTakeEffect_5 : ∃ (s : State) (dt g : Nat) (f : FieldFrame) (d : Dev), (d = later s.dev dt) ∧ (g < 2 ∧
    d.fbit Fld.NET_FLD_CFG_EN g = true) ∧ (f.fcsOk = true ∧ 64 ≤ f.size ∧ f.size ≤ 1518 ∧ f.etype = d.fld Fld.RIO_CFG_ETYPE) ∧
    (f.dst = 2 ^ 48 - 1 ∨ f.dst = d.reg64 (Reg.NET_FLDn_MAC_LO g)) :=
  ⟨set [(Reg.RIO_CFG, 0x88B5)] (sField none), 0, 1, { dst := 0, etype := 0x88B5, size := 64, fcsOk := true, data := [] },
    later (set [(Reg.RIO_CFG, 0x88B5)] (sField none)).dev 0,
    rfl, (by decide +kernel), (by decide +kernel), (by decide +kernel)⟩

theorem witness_SessionsAndFieldsTakeEffect_6 : ∃ (s : State) (dt g : Nat) (f : FieldFrame) (d : Dev), (d = later s.dev dt) ∧ (g < 2 ∧
    d.fbit Fld.NET_FLD_CFG_EN g = true) ∧ (f.fcsOk = false) :=
  ⟨sField none, 0, 1, { dst := 0, etype := 0x88B5, size := 64, fcsOk := false, data := [] }, later (sField none).dev 0,
    rfl, (by decide +kernel), (by decide +kernel)⟩

theorem witness_SessionsAndFieldsTakeEffect_7 : ∃ (s : State) (dt g at_ : Nat) (d : Dev) (x : FieldTx), (d = later s.dev dt) ∧ (g < 2 ∧
    (d.field g).tx = some x ∧ x.startedAt = some at_) ∧ (d.up < at_ + fieldDur x.payload ∧ d.up ≤ at_ + 51200 ∧ x.attempts < 16) :=
  ⟨sField (some ftx0), 51200, 1, 0, later (sField (some ftx0)).dev 51200, ftx0,
    rfl, (by decide +kernel), (by decide +kernel)⟩

theorem witness_SessionsAndFieldsTakeEffect_8 : ∃ (s : State) (dt g at_ : Nat) (d : Dev) (x : FieldTx), (d = later s.dev dt) ∧ (g < 2 ∧
    d.fbit Fld.NET_FLD_CFG_EN g = true ∧ (d.field g).tx = some x ∧ x.backoffUntil = some at_ ∧ at_ ≤ d.up) :=
  ⟨sField (some { ftx0 with startedAt := none, backoffUntil := some 7 }), 7, 1, 7,
    later (sField (some { ftx0 with startedAt := none, backoffUntil := some 7 })).dev 7,
    { ftx0 with startedAt := none, backoffUntil := some 7 },
    rfl, (by decide +kernel)⟩

theorem witness_SessionsAndFieldsTakeEffect_9 : ∃ (s : State) (dt g : Nat) (d : Dev) (x : FieldTx), (d = later s.dev dt) ∧ (g < 2 ∧
    d.fbit Fld.NET_FLD_CFG_EN g = true ∧ (d.field g).tx = some x ∧ x.deferring = true ∧ x.isLate d.up false = false) :=
  ⟨sField (some { payload := [], outAt := 0, deferring := true }), 200000, 1,
    later (sField (some { payload := [], outAt := 0, deferring := true })).dev 200000, { payload := [], outAt := 0, deferring := true },
    rfl, (by decide +kernel)⟩

theorem witness_SessionsAndFieldsTakeEffect_10 : ∃ (s : State) (v : Word) (d : Dev), (d = later s.dev 0) ∧
    (d.gatedAt Reg.NET_MDIO = false) ∧ (d.bit Fld.NET_MDIO_BUSY = false ∧ v.toNat.testBit 30 = true) :=
  ⟨s0, 0x44230007, later s0.dev 0,
    rfl, (by decide +kernel), (by decide +kernel)⟩

theorem witness_SessionsAndFieldsTakeEffect_11 : ∃ (s : State) (dt data : Nat) (d : Dev), (d = later s.dev dt) ∧
    (d.bit Fld.NET_MDIO_BUSY = true) :=
  ⟨set [(Reg.NET_MDIO, 0x80000000)] s0, 0, 77, later (set [(Reg.NET_MDIO, 0x80000000)] s0).dev 0,
    rfl, (by decide +kernel)⟩

theorem witness_NetworkCommandsComplete_1 : ∃ (s : State) (c : Ctx) (d : Dev) (p : Nat) (ip4 ip6 : List (Option Nat)),
    (ready s.dev c.ring false (portGate p)) ∧ (d = fetched s.dev c.ring) ∧ (p < 4 ∧ ip4.length = 4 ∧ ip6.length = 4) ∧
    (ip4.any (fun x => x.any (fun v => decide (2 ^ 32 ≤ v))) = false ∧
    ip6.any (fun x => x.any (fun v => decide (2 ^ 128 ≤ v))) = false) :=
  ⟨sRnet, c0, fetched sRnet.dev 0, 3, [some 0xFFFFFFFF, none, none, none], [none, none, none, none],
    (by unfold ready; decide +kernel), rfl, (by decide +kernel), (by decide +kernel)⟩

theorem witness_NetworkCommandsComplete_2 : ∃ (s : State) (c : Ctx) (d : Dev) (p : Nat) (ip4 ip6 : List (Option Nat)),
    (ready s.dev c.ring false (portGate p)) ∧ (d = fetched s.dev c.ring) ∧
    (3 < p ∨ ip4.length ≠ 4 ∨ ip6.length ≠ 4 ∨ ip4.any (fun x => x.any (fun v => decide (2 ^ 32 ≤ v))) = true ∨ ip6.any (fun x => x.any
    (fun v => decide (2 ^ 128 ≤ v))) = true) :=
  ⟨sRnet, c0, fetched sRnet.dev 0, 3, [some 0x100000000, none, none, none], [none, none, none, none],
    (by unfold ready; decide +kernel), rfl, (by decide +kernel)⟩

theorem witness_NetworkCommandsComplete_3 : ∃ (s : State) (c : Ctx) (d : Dev) (p entry mac ip : Nat) (join valid : Bool),
    (ready s.dev c.ring false (portGate p)) ∧ (d = fetched s.dev c.ring) ∧ (mcastFits p entry mac ip valid = true) ∧
    ((d.port p).mcast.find entry ≠ (if valid then some { mac := mac, ip := ip, join := join } else none)) :=
  ⟨sRnet, c0, fetched sRnet.dev 0, 3, 63, 0x01005E000009, 0xFFFFE0000009, true, true,
    (by unfold ready; decide +kernel), rfl, (by decide +kernel), (by decide +kernel)⟩

theorem witness_NetworkCommandsComplete_4 : ∃ (s : State) (c : Ctx) (d : Dev) (p entry mac ip : Nat) (join valid : Bool),
    (ready s.dev c.ring false (portGate p)) ∧ (d = fetched s.dev c.ring) ∧ (mcastFits p entry mac ip valid = false) :=
  ⟨sRnet, c0, fetched sRnet.dev 0, 3, 63, 0x00005E000009, 0, true, true,
    (by unfold ready; decide +kernel), rfl, (by decide +kernel)⟩

theorem witness_NetworkCommandsComplete_5 : ∃ (s : State) (c : Ctx) (d : Dev) (p : Nat) (vids : List (Option Nat)),
    (ready s.dev c.ring false (portGate p)) ∧ (d = fetched s.dev c.ring) ∧ (p < 4 ∧ vids.length = 64 ∧
    vids.any (fun x => x.any (fun v => decide (4096 ≤ v))) = false) :=
  ⟨sRnet, c0, fetched sRnet.dev 0, 3, some 4095 :: List.replicate 63 none,
    (by unfold ready; decide +kernel), rfl, (by decide +kernel)⟩

theorem witness_NetworkCommandsComplete_6 : ∃ (s : State) (c : Ctx) (d : Dev) (p ch sci an slot window : Nat) (rx xpn conf : Bool) (v :
    KeyVal), (ready s.dev c.ring false (portGate p)) ∧ (d = fetched s.dev c.ring) ∧ (macsecFits p rx ch sci an slot window = true) ∧
    (worldMacsecOk s.key slot = .ok v) :=
  ⟨sRnet, c0, fetched sRnet.dev 0, 3, 7, 9, 3, 6, 0, true, true, true, { keyId := 1, bytes := zeros 32 },
    (by unfold ready; decide +kernel), rfl, (by decide +kernel), (by decide +kernel)⟩

theorem witness_NetworkCommandsComplete_7 : ∃ (s : State) (c : Ctx) (d : Dev) (p ch sci an slot window : Nat) (rx xpn conf : Bool),
    (ready s.dev c.ring false (portGate p)) ∧ (d = fetched s.dev c.ring) ∧
    (macsecFits p rx ch sci an slot window = false ∨ (s.key.slot slot).all (fun x => decide (x.world ≠ worldMacsec)) = true) :=
  ⟨sRnet, c0, fetched sRnet.dev 0, 3, 7, 9, 3, 5, 0, true, true, true,
    (by unfold ready; decide +kernel), rfl, (by decide +kernel)⟩

theorem witness_NetworkCommandsComplete_8 : ∃ (s : State) (c : Ctx) (d : Dev) (p ch sci an slot window : Nat) (rx xpn conf : Bool),
    (ready s.dev c.ring false (portGate p)) ∧ (d = fetched s.dev c.ring) ∧ (macsecFits p rx ch sci an slot window = true ∧
    (s.key.slot slot).any (fun x => decide (x.world = worldMacsec)) = true) ∧ (s.key.use slot = .error sKeyOrphaned) :=
  ⟨{ sRnet with key := { sRnet.key with rootFail := true } }, c0, fetched sRnet.dev 0, 3, 7, 9, 3, 6, 0, true, true, true,
    (by unfold ready; decide +kernel), rfl, (by decide +kernel), (by decide +kernel)⟩

theorem witness_NetworkCommandsComplete_9 : ∃ (s : State) (c : Ctx) (d : Dev) (p ch sci an slot window : Nat) (rx xpn conf : Bool),
    (ready s.dev c.ring false (portGate p)) ∧ (d = fetched s.dev c.ring) ∧ (macsecFits p rx ch sci an slot window = true) :=
  ⟨sRnet, c0, fetched sRnet.dev 0, 3, 7, 9, 3, 6, 0, true, true, true,
    (by unfold ready; decide +kernel), rfl, (by decide +kernel)⟩

theorem witness_NetworkCommandsComplete_10 : ∃ (s : State) (c : Ctx) (d : Dev) (n : Nat) (image : Bytes) (e : SessEntry), (ready s.dev
    c.ring false none) ∧ (d = fetched s.dev c.ring) ∧ (n < 128 ∧ e = sessFields image ∧ e.valid = true ∧ sessInRange image e = true) ∧
    (((d.sessStreams e).map d.validEntry).any (fun x => x.isNone) = false) ∧ (Dev.sessFits s.key d e ((d.sessStreams e).map
    d.validEntry).reduceOption = true) :=
  ⟨sRnet, c0, fetched sRnet.dev 0, 127, sessImage0, sessFields sessImage0,
    (by unfold ready; decide +kernel), rfl, (by decide +kernel), (by decide +kernel), (by decide +kernel)⟩

theorem witness_NetworkCommandsComplete_11 : ∃ (s : State) (c : Ctx) (d : Dev) (n : Nat) (image : Bytes) (e : SessEntry),
    (ready s.dev c.ring false none) ∧ (d = fetched s.dev c.ring) ∧ (n < 128 ∧ e = sessFields image ∧ e.valid = true ∧
    sessInRange image e = true) ∧ (((d.sessStreams e).map d.validEntry).any (fun x => x.isNone) = true) :=
  ⟨sR, c0, fetched sR.dev 0, 127, sessImage0, sessFields sessImage0,
    (by unfold ready; decide +kernel), rfl, (by decide +kernel), (by decide +kernel)⟩

theorem witness_NetworkCommandsComplete_12 : ∃ (s : State) (c : Ctx) (d : Dev) (n : Nat) (image : Bytes) (e : SessEntry), (ready s.dev
    c.ring false none) ∧ (d = fetched s.dev c.ring) ∧ (e = sessFields image) ∧ (127 < n ∨ sessInRange image e = false ∨ (e.valid = true ∧
    (((d.sessStreams e).map d.validEntry).any (fun x => x.isNone) = false ∧ Dev.sessFits s.key d e ((d.sessStreams e).map
    d.validEntry).reduceOption = false))) :=
  ⟨sRnet, c0, fetched sRnet.dev 0, 127, [4] ++ zeros 63, sessFields ([4] ++ zeros 63),
    (by unfold ready; decide +kernel), rfl, (by decide +kernel), (by decide +kernel)⟩

theorem witness_NetworkCommandsComplete_13 : ∃ (s : State) (c : Ctx) (d : Dev) (first count : Nat) (images : Bytes),
    (ready s.dev c.ring false none) ∧ (d = fetched s.dev c.ring) ∧ (1 ≤ count ∧ count ≤ 256 ∧ first + count ≤ 8192 ∧
    ((imagesOf 2 count images).map leNat).any (fun v => decide (8192 ≤ v)) = false) ∧
    (d.net.sess.any (fun x => x.2.entry.any (fun e => decide (first < e.listBase + e.listLen) && decide (e.listBase < first + count)))
    = false) :=
  ⟨sRnet, c0, fetched sRnet.dev 0, 8191, 1, [0xFF, 0x1F],
    (by unfold ready; decide +kernel), rfl, (by decide +kernel), (by decide +kernel)⟩

theorem witness_NetworkCommandsComplete_14 : ∃ (s : State) (c : Ctx) (d : Dev) (first count : Nat) (images : Bytes),
    (ready s.dev c.ring false none) ∧ (d = fetched s.dev c.ring) ∧ (1 ≤ count ∧ count ≤ 256 ∧ first + count ≤ 8192 ∧
    ((imagesOf 2 count images).map leNat).any (fun v => decide (8192 ≤ v)) = false) ∧
    (d.net.sess.any (fun x => x.2.entry.any (fun e => decide (first < e.listBase + e.listLen) && decide (e.listBase < first + count)))
    = true) :=
  ⟨sRnet, c0, fetched sRnet.dev 0, 0, 1, [0xFF, 0x1F],
    (by unfold ready; decide +kernel), rfl, (by decide +kernel), (by decide +kernel)⟩

theorem witness_NetworkCommandsComplete_15 : ∃ (s : State) (c : Ctx) (d : Dev) (n kind : Nat) (frame : Bytes) (e : SessEntry),
    (ready s.dev c.ring false none) ∧ (d = fetched s.dev c.ring) ∧ ((d.sess n).entry = some e ∧ frame.length ≤ 8192) ∧ ((kind < 4 ∧
    e.type = 0) ∨ (kind = 4 ∧ e.type ≠ 0)) :=
  ⟨sRnet, c0, fetched sRnet.dev 0, 3, 2, [0xAA], sess0 0,
    (by unfold ready; decide +kernel), rfl, (by decide +kernel), (by decide +kernel)⟩

theorem witness_NetworkCommandsComplete_16 : ∃ (s : State) (c : Ctx) (d : Dev) (n kind : Nat) (frame : Bytes),
    (ready s.dev c.ring false none) ∧ (d = fetched s.dev c.ring) ∧ ((d.sess n).entry = none ∨ 8192 < frame.length ∨ 4 < kind) :=
  ⟨sRnet, c0, fetched sRnet.dev 0, 3, 5, [0xAA],
    (by unfold ready; decide +kernel), rfl, (by decide +kernel)⟩

theorem witness_NetworkCommandsComplete_17 : ∃ (s : State) (c : Ctx) (d : Dev) (n : Nat) (txOn cfgPending : Bool) (e : SessEntry) (key
    : Option KeyVal), (ready s.dev c.ring false none) ∧ (d = fetched s.dev c.ring) ∧ ((d.sess n).entry = some e) ∧
    (sessKey s.key e = .ok key) :=
  ⟨sRnet, c0, fetched sRnet.dev 0, 3, true, true, sess0 0, none,
    (by unfold ready; decide +kernel), rfl, (by decide +kernel), (by decide +kernel)⟩

theorem witness_NetworkCommandsComplete_18 : ∃ (s : State) (c : Ctx) (d : Dev) (n : Nat) (e : SessEntry) (x : SessSt),
    (ready s.dev c.ring false none) ∧ (d = fetched s.dev c.ring) ∧ (d.sess n = x ∧ x.entry = some e) :=
  ⟨sRnet, c0, fetched sRnet.dev 0, 3, sess0 0, { entry := some (sess0 0) },
    (by unfold ready; decide +kernel), rfl, (by decide +kernel)⟩

theorem witness_NetworkCommandsComplete_19 : ∃ (s : State) (c : Ctx) (d : Dev) (n : Nat), (ready s.dev c.ring false none) ∧
    (d = fetched s.dev c.ring) ∧ ((d.sess n).entry = none) :=
  ⟨sRnet, c0, fetched sRnet.dev 0, 4,
    (by unfold ready; decide +kernel), rfl, (by decide +kernel)⟩

theorem witness_NetworkCommandsComplete_20 : ∃ (s : State) (c : Ctx) (d : Dev) (p page : Nat) (buf : HostBuf), (ready s.dev c.ring false
    (portGate p)) ∧ (d = fetched s.dev c.ring) ∧ (p < 4 ∧ (page = 0xA0 ∨ page = 0xA2) ∧ 256 ≤ buf.len) :=
  ⟨sRnet, c0, fetched sRnet.dev 0, 3, 0xA2, ⟨0x1000, 256⟩,
    (by unfold ready; decide +kernel), rfl, (by decide +kernel)⟩

theorem witness_NetworkCommandsComplete_21 : ∃ (s : State) (c : Ctx) (d : Dev) (p page : Nat) (buf : HostBuf),
    (ready s.dev c.ring false (portGate p)) ∧ (d = fetched s.dev c.ring) ∧ (3 < p ∨ (page ≠ 0xA0 ∧ page ≠ 0xA2) ∨ buf.len < 256) :=
  ⟨sRnet, c0, fetched sRnet.dev 0, 3, 0xA1, ⟨0x1000, 256⟩,
    (by unfold ready; decide +kernel), rfl, (by decide +kernel)⟩

theorem witness_NetworkCommandsComplete_22 : ∃ (s : State) (c : Ctx) (d : Dev) (n : Nat) (image : Bytes) (e : SessEntry), (ready s.dev
    c.ring false none) ∧ (d = fetched s.dev c.ring) ∧ (n < 128 ∧ e = sessFields image ∧ e.valid = false ∧ sessInRange image e = true) :=
  ⟨sRnet, c0, fetched sRnet.dev 0, 3, sessImage0.set 0 0, sessFields (sessImage0.set 0 0),
    (by unfold ready; decide +kernel), rfl, (by decide +kernel)⟩

theorem witness_TimeEventsTakeEffect_1 : ∃ (s : State) (v : Word) (d : Dev), (d = later s.dev 0) ∧ (d.gatedAt Reg.TIM_CTRL = false) :=
  ⟨s0, 0x13, later s0.dev 0,
    rfl, (by decide +kernel)⟩

theorem witness_TimeEventsTakeEffect_2 : ∃ (s : State) (dt p : Nat) (d : Dev), (d = later s.dev dt) ∧ (p < 4 ∧ d.ptpOn p = true ∧ d.domSrc
    (d.ptpDom p) ≠ 0 ∧ (d.ptp p).nextTxAt ≤ d.up ∧ d.portState p ≠ 6) ∧ (d.bit (Fld.NET_Pp_STATUS_LINK p) = true ∧ (d.port p).queues[7]? =
    some [] ∧ p < d.tim.ports.length) :=
  ⟨sTim 1 id, 5, 1, later (sTim 1 id).dev 5,
    rfl, (by decide +kernel), (by decide +kernel)⟩

theorem witness_TimeEventsTakeEffect_3 : ∃ (s : State) (dt p : Nat) (d : Dev), (d = later s.dev dt) ∧ (p < 4 ∧ d.ptpOn p = true ∧ d.domSrc
    (d.ptpDom p) ≠ 0 ∧ (d.ptp p).nextTxAt ≤ d.up ∧ d.portState p = 6) ∧ (d.bit (Fld.NET_Pp_STATUS_LINK p) = true ∧ (d.port p).queues[7]? =
    some []) :=
  ⟨set [(Reg.TIM_Pp_STATE 1, 6)] (sTim 1 id), 5, 1, later (set [(Reg.TIM_Pp_STATE 1, 6)] (sTim 1 id)).dev 5,
    rfl, (by decide +kernel), (by decide +kernel)⟩

theorem witness_TimeEventsTakeEffect_4 : ∃ (s : State) (dt ph : Nat) (d : Dev), (d = later s.dev dt) ∧ (d.bit Fld.TIM_CTRL_EN = true ∧
    d.tim.ppsUsed = true) :=
  ⟨sTim 2 id, 5, 1, later (sTim 2 id).dev 5,
    rfl, (by decide +kernel)⟩

theorem witness_TimeEventsTakeEffect_5 : ∃ (s : State) (dt : Nat) (b : Bytes) (d : Dev), (d = later s.dev dt) ∧
    (d.bit Fld.TIM_CTRL_EN = true ∧ d.tim.ppsUsed = true) ∧
    (b.length ≠ 17 ∨ beNat (slice b 0 2) ≠ 0x5444 ∨ beNat (slice b 2 1) ≠ 1 ∨ crc16 (b.take 15) ≠ beNat (slice b 15 2)) :=
  ⟨sTim 2 id, 5, tod0 7 ++ [1], later (sTim 2 id).dev 5,
    rfl, (by decide +kernel), (by decide +kernel)⟩

theorem witness_TimeEventsTakeEffect_6 : ∃ (s : State) (dt i stamp : Nat) (d : Dev) (b : Bytes) (sec : Nat), (d = later s.dev dt) ∧ (d.bit
    Fld.TIM_CTRL_EN = true ∧ d.gnssDoms = [i] ∧ d.acquired = true ∧ d.hif.waiting = []) ∧ (b.length = 17 ∧ beNat (slice b 0 2) = 0x5444 ∧
    beNat (slice b 2 1) = 1 ∧ crc16 (b.take 15) = beNat (slice b 15 2)) ∧ (d.tim.ppsUsed = false ∧ d.tim.ppsLate = false ∧ d.tim.lastPps =
    some stamp ∧ 100000000 ≤ d.up - d.tim.lastPpsAt ∧ d.up - d.tim.lastPpsAt ≤ 900000000) ∧ (beNat (slice b 4 6) = sec ∧ (d.tim.prevTodSec
    = none ∨ d.tim.prevTodSec.map (fun x => x + 1) = some sec) ∧ beNat (slice b 3 1) % 8 = 7) ∧ (i < 2 ∧ d.tim.dom.length = 2) :=
  ⟨sPps, 200000000, 0, 65536, later sPps.dev 200000000, tod0 7, 3,
    rfl, (by decide +kernel), (by decide +kernel), (by decide +kernel), (by decide +kernel), (by decide +kernel)⟩

theorem witness_TimeEventsTakeEffect_7 : ∃ (s : State) (dt i : Nat) (d : Dev), (d = later s.dev dt) ∧ (i < 2 ∧ d.tim.dom.length = 2 ∧
    d.tim.ppsUsed = true ∧ 2 ≤ d.domState i ∧ (d.dom i).lastAt + 1500000000 ≤ d.up) :=
  ⟨set [(Reg.TIM_STATUS, 0x300)] (sTim 2 id), 1500000000, 0, later (set [(Reg.TIM_STATUS, 0x300)] (sTim 2 id)).dev 1500000000,
    rfl, (by decide +kernel)⟩

theorem witness_TimeEventsTakeEffect_8 : ∃ (s : State) (dt src seq a b : Nat) (d d1 : Dev), (d = later s.dev dt) ∧
    (d.receive src 1 seq = (d1, true) ∧ d1.joined = true ∧ d1.isSummit = true) ∧
    (putBit d1.tim.reported src true &&& d1.view.members ≠ d1.view.members) :=
  ⟨sF, 0, 1, 0, 3, 4, later sF.dev 0, ((later sF.dev 0).receive 1 1 0).1,
    rfl, (by decide +kernel), (by decide +kernel)⟩

theorem witness_TimeEventsTakeEffect_9 : ∃ (s : State) (dt : Nat) (d : Dev), (d = later s.dev dt) ∧
    (d.tim.reportAt + 1000000000 ≤ d.up ∧ d.joined = false) :=
  ⟨s0, 1000000000, later s0.dev 1000000000,
    rfl, (by decide +kernel)⟩

theorem witness_TimeEventsTakeEffect_10 : ∃ (s : State) (dt : Nat) (d : Dev), (d = later s.dev dt) ∧
    (d.tim.reportAt + 1000000000 ≤ d.up ∧ d.joined = true ∧ d.isSummit = false) :=
  ⟨sF1, 1000000000, later sF1.dev 1000000000,
    rfl, (by decide +kernel)⟩

theorem witness_TimeEventsTakeEffect_11 : ∃ (s : State) (dt src seq dom : Nat) (d d1 : Dev), (d = later s.dev dt) ∧
    (d.receive src 1 seq = (d1, true) ∧ d1.joined = true ∧ src = d1.view.summit ∧ dom < 2) :=
  ⟨sF1, 0, 1, 0, 1, later sF1.dev 0, ((later sF1.dev 0).receive 1 1 0).1,
    rfl, (by decide +kernel)⟩

theorem witness_TimeEventsTakeEffect_12 : ∃ (s : State) (dt sec : Nat) (d : Dev), (d = later s.dev dt) ∧ (d.ppsOutRuns = true ∧
    d.secondHere = some sec ∧ d.tim.ppsOutSec ≠ some sec) :=
  ⟨set [(Reg.TIM_CTRL, 0x21)] s0, 0, 0, later (set [(Reg.TIM_CTRL, 0x21)] s0).dev 0,
    rfl, (by decide +kernel)⟩

theorem witness_TimeEventsTakeEffect_13 : ∃ (s : State) (dt : Nat) (d : Dev), (d = later s.dev dt) ∧ (d.tim.ppsOutUntil ≤ d.up) :=
  ⟨dev (fun d => d.modTim (fun t => { t with ppsOut := true, ppsOutUntil := 5 })) s0, 5,
    later (dev (fun d => d.modTim (fun t => { t with ppsOut := true, ppsOutUntil := 5 })) s0).dev 5,
    rfl, (by decide +kernel)⟩

theorem witness_TimeEventsTakeEffect_14 : ∃ (s : State) (dt at_ : Nat) (neg : Bool) (d : Dev), (d = later s.dev dt) ∧
    (d.tim.leapAt = some (at_, neg) ∧ at_ ≤ d.gSec ∧ 0 < d.fld Fld.TIM_UTC_OFFSET ∧ d.fld Fld.TIM_UTC_OFFSET < 255) :=
  ⟨dev (fun d => (d.setFld Fld.TIM_UTC_OFFSET 37).modTim (fun t => { t with leapAt := some (0, true) })) s0, 5, 0, true,
    later (dev (fun d => (d.setFld Fld.TIM_UTC_OFFSET 37).modTim (fun t => { t with leapAt := some (0, true) })) s0).dev 5,
    rfl, (by decide +kernel)⟩

theorem witness_TimeEventsTakeEffect_15 : ∃ (s : State) (dt p : Nat) (d : Dev), (d = later s.dev dt) ∧ (p < 4 ∧ p < d.tim.ports.length ∧
    d.ptpOn p = true ∧ ((d.ptp p).lastAnnounceAt + 3000000000 ≤ d.up ∨ (d.ptp p).foreign.any (fun f => decide (f.lastAt + 3000000000 ≤
    d.up)) = true)) :=
  ⟨sTim 1 id, 3000000000, 1, later (sTim 1 id).dev 3000000000,
    rfl, (by decide +kernel)⟩

theorem witness_TimeEventsTakeEffect_16 : ∃ (s : State) (dt : Nat) (d : Dev), (d = later s.dev dt) ∧ (d.acquired = true ∧
    d.following = false ∧ d.bit Fld.TIM_STATUS_DOM_DISAGREE = false) :=
  ⟨set [(Reg.TIM_STATUS, 1), (Reg.TIM_LIM, 0x640064), (Reg.TIM_HOLDOVER, 50)] s0, 19400000000, later (set [(Reg.TIM_STATUS, 1),
    (Reg.TIM_LIM, 0x640064), (Reg.TIM_HOLDOVER, 50)] s0).dev 19400000000,
    rfl, (by decide +kernel)⟩

theorem witness_TimeEventsTakeEffect_17 : ∃ (s : State) (dt : Nat) (d : Dev) (w : WaitCmd), (d = later s.dev dt) ∧
    (d.hif.waiting = [w] ∧ w.kind = .timReacquire ∧ w.since + 10000000000 ≤ d.up) :=
  ⟨dev (fun d => d.modHif (fun h => { h with waiting := [wReacq] })) s0, 10000000000,
    later (dev (fun d => d.modHif (fun h => { h with waiting := [wReacq] })) s0).dev 10000000000, wReacq,
    rfl, (by decide +kernel)⟩

theorem witness_TimeEventsTakeEffect_18 : ∃ (s : State) (dt : Nat) (d : Dev), (d = later s.dev dt) ∧ (d.ppsOutRuns = true ∧ d.secondHere =
    none) ∧ (d.tim.ppsOut = true ∧ d.up < d.tim.ppsOutUntil) :=
  ⟨sPpsHigh, 4, later sPpsHigh.dev 4,
    rfl, (by decide +kernel), (by decide +kernel)⟩

theorem witness_TimeEventsTakeEffect_19 : ∃ (s : State) (dt : Nat) (b : Bytes) (d : Dev), (d = later s.dev dt) ∧ (d.bit Fld.TIM_CTRL_EN =
    true ∧ d.tim.ppsUsed = true ∧ d.tim.ppsLate = true ∧ d.tim.lastPps.isSome = true) ∧ (b.length = 17 ∧ beNat (slice b 0 2) = 0x5444 ∧
    beNat (slice b 2 1) = 1 ∧ crc16 (b.take 15) = beNat (slice b 15 2)) :=
  ⟨sPpsLate, 0, tod0 7, later sPpsLate.dev 0,
    rfl, (by decide +kernel), (by decide +kernel)⟩

theorem witness_TimeEventsTakeEffect_20 : ∃ (s : State) (dt src seq a b : Nat) (d d1 : Dev), (d = later s.dev dt) ∧ (d.receive src 1 seq =
    (d1, true) ∧ d1.joined = true ∧ d1.isSummit = false ∧ src < 64) :=
  ⟨sF1, 0, 1, 0, 3, 4, later sF1.dev 0, ((later sF1.dev 0).receive 1 1 0).1,
    rfl, (by decide +kernel)⟩

theorem witness_TimeCommandsComplete_1 : ∃ (s : State) (c : Ctx) (d : Dev) (sec ns frac : Nat), (ready s.dev c.ring false none) ∧
    (d = fetched s.dev c.ring) ∧ (d.acquired = false ∧ ns < 1000000000 ∧ sec < 2 ^ 48 ∧ frac < 2 ^ 16) :=
  ⟨sR, c0, fetched sR.dev 0, 9, 999999999, 1,
    (by unfold ready; decide +kernel), rfl, (by decide +kernel)⟩

theorem witness_TimeCommandsComplete_2 : ∃ (s : State) (c : Ctx) (d : Dev) (sec ns frac : Nat), (ready s.dev c.ring false none) ∧ (d =
    fetched s.dev c.ring) ∧ (d.acquired = true ∨ 1000000000 ≤ ns ∨ 2 ^ 48 ≤ sec ∨ 2 ^ 16 ≤ frac) :=
  ⟨sR, c0, fetched sR.dev 0, 9, 1000000000, 1,
    (by unfold ready; decide +kernel), rfl, (by decide +kernel)⟩

theorem witness_TimeCommandsComplete_3 : ∃ (s : State) (c : Ctx) (d : Dev), (ready s.dev c.ring true none) ∧
    (d = fetched s.dev c.ring) ∧ (d.bit Fld.ING_CTRL_EN = false ∧ d.fld Fld.CYC_STATUS_STATE ≠ 1 ∧
    d.waitsFor (fun w => decide (w = WaitKind.timReacquire)) = false) :=
  ⟨sR, c0, fetched sR.dev 0,
    (by unfold ready; decide +kernel), rfl, (by decide +kernel)⟩

theorem witness_TimeCommandsComplete_4 : ∃ (s : State) (c : Ctx) (d : Dev), (ready s.dev c.ring true none) ∧
    (d = fetched s.dev c.ring) ∧ (d.bit Fld.ING_CTRL_EN = true ∨ d.fld Fld.CYC_STATUS_STATE = 1 ∨ d.waitsFor (fun w => decide (w =
    WaitKind.timReacquire)) = true) :=
  ⟨set [(Reg.ING_CTRL, 1)] sR, c0, fetched (set [(Reg.ING_CTRL, 1)] sR).dev 0,
    (by unfold ready; decide +kernel), rfl, (by decide +kernel)⟩

theorem witness_TimeCommandsComplete_5 : ∃ (s : State) (c : Ctx) (d : Dev) (p : Nat) (tx : Bool) (buf : HostBuf),
    (ready s.dev c.ring false none) ∧ (d = fetched s.dev c.ring) ∧ (p < 4 ∧ 1536 ≤ buf.len) :=
  ⟨sR, c0, fetched sR.dev 0, 3, true, ⟨0x1000, 1536⟩,
    (by unfold ready; decide +kernel), rfl, (by decide +kernel)⟩

theorem witness_TimeCommandsComplete_6 : ∃ (s : State) (c : Ctx) (d : Dev) (p : Nat) (tx : Bool) (buf : HostBuf),
    (ready s.dev c.ring false none) ∧ (d = fetched s.dev c.ring) ∧ (3 < p ∨ buf.len < 1536) :=
  ⟨sR, c0, fetched sR.dev 0, 3, true, ⟨0x1000, 1535⟩,
    (by unfold ready; decide +kernel), rfl, (by decide +kernel)⟩

theorem witness_FabricLinksTakeEffect_1 : ∃ (s : State) (v : Word) (d : Dev), (d = later s.dev 0) ∧ (d.gatedAt Reg.FAB_CTRL = false) ∧
    (∀ l, l < 6 → d.linkUp l = false) :=
  ⟨s0, 3, later s0.dev 0,
    rfl, (by decide +kernel), (by decide +kernel)⟩

theorem witness_FabricLinksTakeEffect_2 : ∃ (s : State) (dt l : Nat) (d : Dev), (d = later s.dev dt) ∧ (l < 6 ∧ d.linkState l = 1 ∧
    l < d.fab.links.length) :=
  ⟨sLink 1, 0, 1, later (sLink 1).dev 0,
    rfl, (by decide +kernel)⟩

theorem witness_FabricLinksTakeEffect_3 : ∃ (s : State) (dt l : Nat) (d : Dev), (d = later s.dev dt) ∧ (l < 6 ∧ 2 ≤ d.linkState l ∧
    d.linkState l ≠ 3) :=
  ⟨sLink 2, 0, 1, later (sLink 2).dev 0,
    rfl, (by decide +kernel)⟩

theorem witness_FabricLinksTakeEffect_4 : ∃ (s : State) (dt l : Nat) (d : Dev), (d = later s.dev dt) ∧ (l < 6 ∧ d.linkState l = 3) :=
  ⟨sLink 3, 0, 1, later (sLink 3).dev 0,
    rfl, (by decide +kernel)⟩

theorem witness_FabricLinksTakeEffect_5 : ∃ (s : State) (dt l : Nat) (h : HelloMsg) (d : Dev), (d = later s.dev dt) ∧ (l < 6 ∧
    d.linkState l = 2 ∧ (d.link l).hello = none ∧ h.device < 64 ∧ h.link < 8) ∧ (h.fabricId ≠ d.fld Fld.FAB_CFG_FABRIC_ID) :=
  ⟨sLink 2, 0, 1, { hello0 with fabricId := 9 }, later (sLink 2).dev 0,
    rfl, (by decide +kernel), (by decide +kernel)⟩

theorem witness_FabricLinksTakeEffect_6 : ∃ (s : State) (dt l : Nat) (h : HelloMsg) (d : Dev), (d = later s.dev dt) ∧ (l < 6 ∧
    d.linkState l = 2 ∧ (d.link l).hello = none ∧ d.hif.waiting = []) ∧ (h.fabricId = d.fld Fld.FAB_CFG_FABRIC_ID ∧
    h.device = d.deviceNo) :=
  ⟨sLink 2, 0, 1, { hello0 with device := 0 }, later (sLink 2).dev 0,
    rfl, (by decide +kernel), (by decide +kernel)⟩

theorem witness_FabricLinksTakeEffect_7 : ∃ (s : State) (dt l : Nat) (h : HelloMsg) (d : Dev), (d = later s.dev dt) ∧ (l < 6 ∧
    d.linkState l = 2 ∧ (d.link l).hello = none ∧ d.hif.waiting = []) ∧ (h.fabricId = d.fld Fld.FAB_CFG_FABRIC_ID ∧
    h.device ≠ d.deviceNo ∧ d.linkTaken l h = false) ∧ (h.rate ≠ d.rate ∨ h.wait ≠ d.fld Fld.CRT_CFG_WAIT) :=
  ⟨sLink 2, 0, 1, { hello0 with rate := 50 }, later (sLink 2).dev 0,
    rfl, (by decide +kernel), (by decide +kernel), (by decide +kernel)⟩

theorem witness_FabricLinksTakeEffect_8 : ∃ (s : State) (dt l : Nat) (h : HelloMsg) (d : Dev), (d = later s.dev dt) ∧ (l < 6 ∧
    d.linkState l = 2 ∧ (d.link l).hello = none ∧ h.device < 64 ∧ h.link < 8) ∧ (h.fabricId = d.fld Fld.FAB_CFG_FABRIC_ID ∧
    h.device ≠ d.deviceNo ∧ d.linkTaken l h = false) ∧ (h.rate = d.rate ∧ h.wait = d.fld Fld.CRT_CFG_WAIT ∧
    d.fld (Fld.FAB_Ln_STATUS_LANE_FAIL l) = 0) :=
  ⟨sLink 2, 0, 1, hello0, later (sLink 2).dev 0,
    rfl, (by decide +kernel), (by decide +kernel), (by decide +kernel)⟩

theorem witness_FabricLinksTakeEffect_9 : ∃ (s : State) (dt l : Nat) (p : LinkPacket) (corr uncorr : Nat) (d : Dev), (d = later s.dev dt)
    ∧ (l < 6 ∧ 2 ≤ d.linkState l ∧ d.linkState l ≤ 3 ∧ (p.crcOk = false ∨ 0 < uncorr)) :=
  ⟨sLink 3, 0, 1, pkt0, 0, 1, later (sLink 3).dev 0,
    rfl, (by decide +kernel)⟩

theorem witness_FabricLinksTakeEffect_10 : ∃ (s : State) (dt l : Nat) (p : LinkPacket) (corr : Nat) (d : Dev), (d = later s.dev dt) ∧ (l <
    6 ∧ l < d.fab.links.length ∧ 2 ≤ d.linkState l ∧ d.linkState l ≤ 3 ∧ p.crcOk = true ∧ p.nak = false ∧ p.kind = 0) ∧ (((d.link l).rxSeq
    + 1) % 4096 = p.seq ∧ (d.link l).queue = [] ∧ (d.linkUp l = false ∨ p.dst = d.deviceNo)) :=
  ⟨sLink 3, 0, 1, pkt0, 2, later (sLink 3).dev 0,
    rfl, (by decide +kernel), (by decide +kernel)⟩

theorem witness_FabricLinksTakeEffect_11 : ∃ (s : State) (dt l : Nat) (p : LinkPacket) (corr : Nat) (d : Dev), (d = later s.dev dt) ∧
    (l < 6 ∧ l < d.fab.links.length ∧ d.linkState l = 3 ∧ p.crcOk = true ∧ p.nak = false ∧ p.kind = 0) ∧
    (((d.link l).rxSeq + 1) % 4096 = p.seq ∧ (d.link l).queue = [] ∧ p.dst ≠ d.deviceNo ∧ p.hopsLeft = 0) :=
  ⟨sLink 3, 0, 1, packet 7, 2, later (sLink 3).dev 0,
    rfl, (by decide +kernel), (by decide +kernel)⟩

theorem witness_FabricLinksTakeEffect_12 : ∃ (s : State) (dt l : Nat) (d : Dev), (d = later s.dev dt) ∧ (l < 6 ∧ l < d.fab.links.length ∧
    2 ≤ d.linkState l ∧ (d.link l).replay.isEmpty = false ∧ (d.link l).ackAt + 10000 ≤ d.up ∧ (d.link l).replays < 16) :=
  ⟨sReplay 3, 10000, 1, later (sReplay 3).dev 10000,
    rfl, (by decide +kernel)⟩

theorem witness_FabricLinksTakeEffect_13 : ∃ (s : State) (dt l : Nat) (d : Dev), (d = later s.dev dt) ∧ (l < 6 ∧ d.linkState l = 2 ∧
    (d.link l).replay.isEmpty = false ∧ (d.link l).ackAt + 10000 ≤ d.up ∧ 16 ≤ (d.link l).replays) :=
  ⟨dev (fun d => d.modLink 1 (fun x => { x with replays := 16 })) (sReplay 2), 10000, 1, later (dev (fun d => d.modLink 1 (fun x =>
    { x with replays := 16 })) (sReplay 2)).dev 10000,
    rfl, (by decide +kernel)⟩

theorem witness_FabricLinksTakeEffect_14 : ∃ (s : State) (dt l lane : Nat) (d : Dev), (d = later s.dev dt) ∧ (l < 6 ∧ lane < 4 ∧
    d.linkUp l = true ∧ d.fld (Fld.FAB_Ln_STATUS_LANE_FAIL l) = 0) :=
  ⟨sLink 3, 0, 1, 2, later (sLink 3).dev 0,
    rfl, (by decide +kernel)⟩

theorem witness_FabricLinksTakeEffect_15 : ∃ (s : State) (dt l : Nat) (d : Dev), (d = later s.dev dt) ∧ (l < 6 ∧ d.linkUp l = true ∧
    d.fld (Fld.FAB_Ln_CFG_MIN_STATE l) < d.fld (Fld.FAB_Ln_STATUS_WIDTH l) ∧ (d.link l).grow = none) ∧
    ((d.link l).grewAt.all (fun x => decide (x + 10000000000 ≤ d.up)) = true ∧
    (d.link l).quietFrom + d.fld Fld.FAB_SHED_SHED_MS ≤ d.up / 1000000) :=
  ⟨set [(Reg.FAB_SHED, 0x3E80000)] (sLink 3), 1000000000, 1, later (set [(Reg.FAB_SHED, 0x3E80000)] (sLink 3)).dev 1000000000,
    rfl, (by decide +kernel), (by decide +kernel)⟩

theorem witness_FabricLinksTakeEffect_16 : ∃ (s : State) (dt l g : Nat) (d : Dev), (d = later s.dev dt) ∧ (l < 6 ∧ l < d.fab.links.length
    ∧ d.linkUp l = true ∧ (d.link l).grow = some g ∧ d.fld (Fld.FAB_Ln_STATUS_LANE_FAIL l) = 0) :=
  ⟨dev (fun d => d.modLink 1 (fun x => { x with grow := some 1 })) (sLink 3), 0, 1, 1, later (dev (fun d => d.modLink 1 (fun x =>
    { x with grow := some 1 })) (sLink 3)).dev 0,
    rfl, (by decide +kernel)⟩

theorem witness_FabricLinksTakeEffect_17 : ∃ (s : State) (dt l src seq : Nat) (links : List LsaLink) (d : Dev), (d = later s.dev dt) ∧
    (src ≠ d.deviceNo ∧ src < 64 ∧ d.linkUp l = true ∧ d.fab.lsas.find src = none) :=
  ⟨sLink 3, 0, 1, 7, 3, [], later (sLink 3).dev 0,
    rfl, (by decide +kernel)⟩

theorem witness_FabricLinksTakeEffect_18 : ∃ (s : State) (dt l src seq : Nat) (links : List LsaLink) (d : Dev) (old : LsaSt),
    (d = later s.dev dt) ∧ (d.fab.lsas.find src = some old ∧ laterThan 32 seq old.seq = false) :=
  ⟨dev (fun d => d.modFab (fun f => { f with lsas := [(7, ⟨4, []⟩)] })) (sLink 3), 0, 1, 7, 4, [],
    later (dev (fun d => d.modFab (fun f => { f with lsas := [(7, ⟨4, []⟩)] })) (sLink 3)).dev 0, ⟨4, []⟩,
    rfl, (by decide +kernel)⟩

theorem witness_FabricLinksTakeEffect_19 : ∃ (s : State) (dt : Nat) (d : Dev), (d = later s.dev dt) ∧
    (d.fab.lsaAt + 1000000000 ≤ d.up) :=
  ⟨sLink 3, 1000000000, later (sLink 3).dev 1000000000,
    rfl, (by decide +kernel)⟩

theorem witness_FabricLinksTakeEffect_20 : ∃ (s : State) (dt src vc last : Nat) (d : Dev), (d = later s.dev dt) ∧ (∀ h,
    h ∈ d.fab.held → h.sent = true) :=
  ⟨sHeld, 0, 1, 1, 0, later sHeld.dev 0,
    rfl, (by decide)⟩

theorem witness_FabricLinksTakeEffect_21 : ∃ (s : State) (dt : Nat) (d : Dev), (d = later s.dev dt) :=
  ⟨sF1, 0, later sF1.dev 0,
    rfl⟩

theorem witness_FabricLinksTakeEffect_22 : ∃ (s : State) (dt dst : Nat) (d : Dev) (h : HeldMsg), (d = later s.dev dt) ∧ (d.fab.held = [h]
    ∧ h.dst = dst ∧ h.sent = true ∧ h.sentAt + 200000 ≤ d.up ∧ d.reach dst = true) :=
  ⟨sHeld, 200000, 1, later sHeld.dev 200000, held0,
    rfl, (by decide +kernel)⟩

theorem witness_FabricLinksTakeEffect_23 : ∃ (s : State) (dt n : Nat) (d : Dev) (h : HeldMsg), (d = later s.dev dt) ∧
    (d.reach n = true ∧ h ∈ d.fab.held ∧ h.dst = n ∧ h.sent = true ∧ h.firstAt + 1000000 ≤ d.up) ∧ (n < 64 ∧
    d.others.testBit n = true ∧ d.fab.change = none) :=
  ⟨sHeld, 1000000, 1, later sHeld.dev 1000000, held0,
    rfl, (by decide +kernel), (by decide +kernel)⟩

theorem witness_FabricLinksTakeEffect_24 : ∃ (s : State) (dt dst : Nat) (d : Dev), (d = later s.dev dt) ∧ (d.reach dst = false) :=
  ⟨sF, 0, 1, later sF.dev 0,
    rfl, (by decide +kernel)⟩

theorem witness_FabricLinksTakeEffect_25 : ∃ (s : State) (dt l : Nat) (p : LinkPacket) (d : Dev), (d = later s.dev dt) ∧ (l < 6 ∧ d.linkUp
    l = true ∧ p.crcOk = true ∧ p.nak = false ∧ p.kind = 1) ∧ (p.payload ≠ [] ∧ (d.link l).queue = []) :=
  ⟨sLink 3, 0, 1, pktWidth, later (sLink 3).dev 0,
    rfl, (by decide +kernel), (by decide +kernel)⟩

theorem witness_FabricLinksTakeEffect_26 : ∃ (s : State) (dt l : Nat) (p : LinkPacket) (d : Dev), (d = later s.dev dt) ∧ (l < 6 ∧ 3 <
    d.linkState l) :=
  ⟨sLink 5, 0, 1, pkt0, later (sLink 5).dev 0,
    rfl, (by decide +kernel)⟩

theorem witness_MembershipEventsTakeEffect_1 : ∃ (s : State) (dt : Nat) (d : Dev), (d = later s.dev dt) ∧ (d.joined = true ∧
    d.fab.hbSentAt + 250000 ≤ d.up) :=
  ⟨sF, 250000, later sF.dev 250000,
    rfl, (by decide +kernel)⟩

theorem witness_MembershipEventsTakeEffect_2 : ∃ (s : State) (dt src seq : Nat) (d d1 : Dev), (d = later s.dev dt) ∧
    (d.receive src 1 seq = (d1, true) ∧ d1.view.members.testBit src = true) :=
  ⟨sF, 7, 1, 0, later sF.dev 7, ((later sF.dev 7).receive 1 1 0).1,
    rfl, (by decide +kernel)⟩

theorem witness_MembershipEventsTakeEffect_3 : ∃ (s : State) (dt n : Nat) (d : Dev), (d = later s.dev dt) ∧ (n < 64 ∧ d.joined = true ∧
    d.others.testBit n = true ∧ d.fab.hbAt.find n = some 0 ∧ 1000000 ≤ d.up ∧ d.fab.change = none) :=
  ⟨dev (fun d => d.modFab (fun f => { f with hbAt := [(1, 0)] })) sF, 1000000, 1,
    later (dev (fun d => d.modFab (fun f => { f with hbAt := [(1, 0)] })) sF).dev 1000000,
    rfl, (by decide +kernel)⟩

theorem witness_MembershipEventsTakeEffect_4 : ∃ (s : State) (dt src seq mask : Nat) (d d1 : Dev), (d = later s.dev dt) ∧
    (d.receive src 1 seq = (d1, true) ∧ d1.others.testBit src = true ∧ mask ≠ 0 ∧ mask &&& d1.others = 0) :=
  ⟨sF, 0, 1, 0, 1, later sF.dev 0, ((later sF.dev 0).receive 1 1 0).1,
    rfl, (by decide +kernel)⟩

theorem witness_MembershipEventsTakeEffect_5 : ∃ (s : State) (dt src seq n : Nat) (d d1 : Dev), (d = later s.dev dt) ∧
    (d.receive src 1 seq = (d1, true) ∧ d1.others.testBit src = true ∧ d1.others.testBit n = true ∧ n < 64 ∧ d1.fab.change = none) ∧
    (coordinator d1.view (2 ^ n) d1.deviceNo ≠ d1.deviceNo) :=
  ⟨sF3, 0, 0, 0, 1, later sF3.dev 0, ((later sF3.dev 0).receive 0 1 0).1,
    rfl, (by decide +kernel), (by decide +kernel)⟩

theorem witness_MembershipEventsTakeEffect_6 : ∃ (s : State) (dt src seq u : Nat) (d d1 : Dev) (c : ViewChange), (d = later s.dev dt) ∧
    (d.receive src 1 seq = (d1, true) ∧ d1.others.testBit src = true ∧ d1.fab.change = some c) ∧ (c.joiner = none ∧
    coordinator d1.view c.suspects d1.deviceNo ≠ d1.deviceNo) :=
  ⟨dev (fun d => d.modFab (fun f => { f with change := some change0 })) sF3, 0, 0, 0, 9,
    later (dev (fun d => d.modFab (fun f => { f with change := some change0 })) sF3).dev 0,
    ((later (dev (fun d => d.modFab (fun f => { f with change := some change0 })) sF3).dev 0).receive 0 1 0).1, change0,
    rfl, (by decide +kernel), (by decide +kernel)⟩

theorem witness_MembershipEventsTakeEffect_7 : ∃ (s : State) (dt src seq : Nat) (m : NewViewMsg) (d d1 : Dev), (d = later s.dev dt) ∧
    (d.receive src 1 seq = (d1, true) ∧ d1.others.testBit src = true ∧ m.prevView = d1.view.num ∧ m.members.testBit d1.deviceNo = true) ∧
    (d1.fab.joinReqs = [] ∧ m.members < 2 ^ 64 ∧ m.summit < 64 ∧ m.view < 2 ^ 32) :=
  ⟨sF3, 0, 0, 0, nv0, later sF3.dev 0, ((later sF3.dev 0).receive 0 1 0).1,
    rfl, (by decide +kernel), (by decide +kernel)⟩

theorem witness_MembershipEventsTakeEffect_8 : ∃ (s : State) (dt src seq : Nat) (m : FwdDone) (d d1 : Dev), (d = later s.dev dt) ∧
    (d.receive src 1 seq = (d1, true)) :=
  ⟨sF, 0, 1, 0, ⟨4, 2⟩, later sF.dev 0, ((later sF.dev 0).receive 1 1 0).1,
    rfl, (by decide +kernel)⟩

theorem witness_MembershipEventsTakeEffect_9 : ∃ (s : State) (dt src seq : Nat) (d d1 : Dev), (d = later s.dev dt) ∧
    (d.receive src 1 seq = (d1, true) ∧ d1.joined = true ∧ d1.others.testBit src = true ∧ d1.fab.change = none ∧ src < 64) :=
  ⟨sF, 0, 1, 0, later sF.dev 0, ((later sF.dev 0).receive 1 1 0).1,
    rfl, (by decide +kernel)⟩

theorem witness_MembershipEventsTakeEffect_10 : ∃ (s : State) (dt src seq : Nat) (d d1 : Dev), (d = later s.dev dt) ∧
    (d.receive src 1 seq = (d1, true) ∧ d1.fab.change.isSome = true ∧ d1.fab.joinReqs = []) :=
  ⟨dev (fun d => d.modFab (fun f => { f with change := some change0 })) sF3, 0, 9, 0,
    later (dev (fun d => d.modFab (fun f => { f with change := some change0 })) sF3).dev 0,
    ((later (dev (fun d => d.modFab (fun f => { f with change := some change0 })) sF3).dev 0).receive 9 1 0).1,
    rfl, (by decide +kernel)⟩

theorem witness_MembershipEventsTakeEffect_11 : ∃ (s : State) (dt t0 : Nat) (d : Dev) (w : WaitCmd), (d = later s.dev dt) ∧
    (d.fab.joining = some t0 ∧ t0 + 1000000000 ≤ d.up ∧ d.hif.waiting = [w] ∧ w.kind = .fabJoin) :=
  ⟨sJoining, 1000000000, 0, later sJoining.dev 1000000000, { wReacq with kind := .fabJoin },
    rfl, (by decide +kernel)⟩

theorem witness_MembershipEventsTakeEffect_12 : ∃ (s : State) (dt src seq first last i : Nat) (d d1 : Dev), (d = later s.dev dt) ∧
    (d.receive src 3 seq = (d1, true)) :=
  ⟨sF, 0, 1, 0, 0, 3, 9, later sF.dev 0, ((later sF.dev 0).receive 1 3 0).1,
    rfl, (by decide +kernel)⟩

theorem witness_MembershipEventsTakeEffect_13 : ∃ (s : State) (dt src seq e count : Nat) (r : Rec) (d d1 : Dev) (ent : StreamEntry),
    (d = later s.dev dt) ∧ (d.receive src 3 seq = (d1, true) ∧ (d1.stream r.stream).awaiting = none ∧
    (d1.stream r.stream).entry.newest = some ent ∧ d1.fab.histWant.find r.stream = none) :=
  ⟨sHist, 0, 1, 0, 5, 2, rec0, later sHist.dev 0, ((later sHist.dev 0).receive 1 3 0).1, local0,
    rfl, (by decide +kernel)⟩

theorem witness_MembershipEventsTakeEffect_14 : ∃ (s : State) (dt src seq view : Nat) (d d1 : Dev), (d = later s.dev dt) ∧
    (d.receive src 1 seq = (d1, true) ∧ view = d1.view.num ∧ src = d1.view.summit) :=
  ⟨sF1, 0, 1, 0, 3, later sF1.dev 0, ((later sF1.dev 0).receive 1 1 0).1,
    rfl, (by decide +kernel)⟩

theorem witness_MembershipEventsTakeEffect_15 : ∃ (s : State) (dt silent : Nat) (d x : Dev), (d = later s.dev dt) ∧ (d.bit
    Fld.FAB_STATUS_ELECTION = true ∧ d.isSummit = true ∧ (d.fab.electVotes ||| silent) &&& d.view.members = d.view.members ∧
    d.fab.electTimes &&& d.view.members = d.view.members) ∧ (x = ((d.setBit Fld.FAB_STATUS_ELECTION false).modFum (fun f =>
    { f with votes := f.votes.keep (fun n _ => !silent.testBit n) })).sendAll d.others (.summit d.view.num)) :=
  ⟨dev (fun d => (d.setBit Fld.FAB_STATUS_ELECTION true).modFab (fun f => { f with electVotes := 1, electTimes := 3 })) sF, 0, 2, (later
    (dev (fun d => (d.setBit Fld.FAB_STATUS_ELECTION true).modFab (fun f => { f with electVotes := 1, electTimes := 3 })) sF).dev 0),
    (((later (dev (fun d => (d.setBit Fld.FAB_STATUS_ELECTION true).modFab (fun f => { f with electVotes := 1, electTimes := 3 })) sF).dev
    0).setBit Fld.FAB_STATUS_ELECTION false).modFum (fun f => { f with votes := f.votes.keep (fun n _ => !(2 : Nat).testBit n) })).sendAll
    (later (dev (fun d => (d.setBit Fld.FAB_STATUS_ELECTION true).modFab (fun f => { f with electVotes := 1, electTimes := 3 })) sF).dev
    0).others (.summit (later (dev (fun d => (d.setBit Fld.FAB_STATUS_ELECTION true).modFab (fun f =>
    { f with electVotes := 1, electTimes := 3 })) sF).dev 0).view.num),
    rfl, (by decide +kernel), (by decide +kernel)⟩

theorem witness_MembershipEventsTakeEffect_16 : ∃ (s : State) (dt n : Nat) (d : Dev), (d = later s.dev dt) ∧
    (d.bit Fld.FAB_CFG_AUTO_REJOIN = true ∧ d.bit Fld.CRT_STATUS_SPLIT = true ∧ d.fab.joining = none ∧ d.reach n = true ∧
    d.fab.rejoinAt = none) :=
  ⟨sSplit, 0, 1, later sSplit.dev 0,
    rfl, (by decide +kernel)⟩

theorem witness_MembershipEventsTakeEffect_17 : ∃ (s : State) (dt silent : Nat) (d : Dev), (d = later s.dev dt) ∧ (d.bit
    Fld.FAB_STATUS_ELECTION = false ∧ d.isSummit = true ∧ d.joined = true) :=
  ⟨sF, 0, 2, later sF.dev 0,
    rfl, (by decide +kernel)⟩

theorem witness_FabricCommandsComplete_1 : ∃ (s : State) (c : Ctx) (d : Dev), (ready s.dev c.ring true none) ∧
    (d = fetched s.dev c.ring) ∧ (d.joined = false ∧ d.fab.joining = none ∧ d.joinTarget = none ∧ d.fab.joinReqs = []) ∧
    (d.bit Fld.ING_CTRL_EN = false ∧ (List.range 6).any (fun l => decide (5 ≤ d.linkState l)) = false) :=
  ⟨sR, c0, fetched sR.dev 0,
    (by unfold ready; decide +kernel), rfl, (by decide +kernel), (by decide +kernel)⟩

theorem witness_FabricCommandsComplete_2 : ∃ (s : State) (c : Ctx) (d : Dev), (ready s.dev c.ring true none) ∧
    (d = fetched s.dev c.ring) ∧ (d.joined = true ∨ d.fab.joining.isSome = true) :=
  ⟨dev (fun d => d.setBit Fld.FAB_STATUS_JOINED true) sR, c0, fetched (dev (fun d => d.setBit Fld.FAB_STATUS_JOINED true) sR).dev 0,
    (by unfold ready; decide +kernel), rfl, (by decide +kernel)⟩

theorem witness_FabricCommandsComplete_3 : ∃ (s : State) (c : Ctx) (d : Dev), (ready s.dev c.ring true none) ∧
    (d = fetched s.dev c.ring) ∧ (d.joined = false ∧ d.fab.joining = none) ∧ ((d.bit Fld.ING_CTRL_EN = true ∧
    d.acquired = false) ∨ (List.range 6).any (fun l => decide (d.linkState l = 6)) = true) :=
  ⟨set [(Reg.ING_CTRL, 1)] sR, c0, fetched (set [(Reg.ING_CTRL, 1)] sR).dev 0,
    (by unfold ready; decide +kernel), rfl, (by decide +kernel), (by decide +kernel)⟩

theorem witness_FabricCommandsComplete_4 : ∃ (s : State) (c : Ctx) (d : Dev), (ready s.dev c.ring true none) ∧
    (d = fetched s.dev c.ring) ∧ (d.joined = false ∧ d.fab.joining = none ∧ d.bit Fld.ING_CTRL_EN = false) ∧
    ((List.range 6).any (fun l => decide (d.linkState l = 6)) = false ∧
    (List.range 6).any (fun l => decide (d.linkState l = 5)) = true) :=
  ⟨set [(Reg.FAB_Ln_STATUS 5, 5)] sR, c0, fetched (set [(Reg.FAB_Ln_STATUS 5, 5)] sR).dev 0,
    (by unfold ready; decide +kernel), rfl, (by decide +kernel), (by decide +kernel)⟩

theorem witness_FabricCommandsComplete_5 : ∃ (s : State) (c : Ctx) (d : Dev), (ready s.dev c.ring true none) ∧
    (d = fetched s.dev c.ring) :=
  ⟨sR, c0, fetched sR.dev 0,
    (by unfold ready; decide +kernel), rfl⟩

theorem witness_FabricCommandsComplete_6 : ∃ (s : State) (c : Ctx) (d : Dev) (buf : HostBuf), (ready s.dev c.ring false none) ∧
    (d = fetched s.dev c.ring) :=
  ⟨sR, c0, fetched sR.dev 0, ⟨0x1000, 512⟩,
    (by unfold ready; decide +kernel), rfl⟩

theorem witness_FabricCommandsComplete_7 : ∃ (s : State) (c : Ctx) (d : Dev) (buf : HostBuf), (ready s.dev c.ring false none) ∧
    (d = fetched s.dev c.ring) ∧ (32 ≤ buf.len ∧ d.fab.change = none) :=
  ⟨sR, c0, fetched sR.dev 0, ⟨0x1000, 32⟩,
    (by unfold ready; decide +kernel), rfl, (by decide +kernel)⟩

theorem witness_FabricCommandsComplete_8 : ∃ (s : State) (c : Ctx) (d : Dev) (buf : HostBuf), (ready s.dev c.ring false none) ∧
    (d = fetched s.dev c.ring) ∧ (buf.len < 32) :=
  ⟨sR, c0, fetched sR.dev 0, ⟨0x1000, 31⟩,
    (by unfold ready; decide +kernel), rfl, (by decide +kernel)⟩

theorem witness_FabricCommandsComplete_9 : ∃ (s : State) (c : Ctx) (d : Dev) (n i : Nat), (ready s.dev c.ring false none) ∧
    (d = fetched s.dev c.ring) ∧ (i < 8192 ∧ (d.fab.lost.find (8192 * n + i)).isSome = true) :=
  ⟨dev (fun d => d.modFab (fun f => { f with lost := [(16389, 3)] })) sR, c0,
    fetched (dev (fun d => d.modFab (fun f => { f with lost := [(16389, 3)] })) sR).dev 0, 2, 5,
    (by unfold ready; decide +kernel), rfl, (by decide +kernel)⟩

theorem witness_FabricCommandsComplete_10 : ∃ (s : State) (c : Ctx) (d : Dev) (n i : Nat), (ready s.dev c.ring false none) ∧
    (d = fetched s.dev c.ring) ∧ (8191 < i ∨ d.fab.lost.find (8192 * n + i) = none) :=
  ⟨sR, c0, fetched sR.dev 0, 2, 5,
    (by unfold ready; decide +kernel), rfl, (by decide +kernel)⟩

theorem witness_RingsTakeEffect_1 : ∃ (s : State) (n : Nat) (v : Word) (d : Dev), (d = later s.dev 0) ∧ (n < 32 ∧ d.ringIdle n = true ∧
    bitsAt v 0 1 = 1) ∧ (6 ≤ bitsAt v 5 5 ∧ bitsAt v 5 5 ≤ 16) ∧ (d.othersOf n (bitsAt v 1 4) < ringsAllowed (bitsAt v 1 4)) ∧ (bitsAt v 1
    4 = 4 → d.hif.stages = [] ∧ d.crt.carry = [] ∧ d.crt.waiting = []) :=
  ⟨s0, 3, 0xCD, later s0.dev 0,
    rfl, (by decide +kernel), (by decide +kernel), (by decide +kernel), (by decide +kernel)⟩

theorem witness_RingsTakeEffect_2 : ∃ (s : State) (n : Nat) (v : Word) (d : Dev), (d = later s.dev 0) ∧ (n < 32 ∧ d.ringIdle n = true ∧
    bitsAt v 0 1 = 1) ∧ (ringsAllowed (bitsAt v 1 4) ≤ d.othersOf n (bitsAt v 1 4)) :=
  ⟨s0, 3, 0xC1, later s0.dev 0,
    rfl, (by decide +kernel), (by decide +kernel)⟩

theorem witness_RingsTakeEffect_3 : ∃ (s : State) (n : Nat) (v : Word) (d : Dev), (d = later s.dev 0) ∧ (n < 32 ∧
    d.bit (Fld.HIF_RINGn_CFG_EN n) = true ∧ bitsAt v 0 1 = 1) ∧ (bitsAt v 1 9 ≠ bitsAt (d.reg (Reg.HIF_RINGn_CFG n)) 1 9) :=
  ⟨sR, 0, 0x5CD, later sR.dev 0,
    rfl, (by decide +kernel), (by decide +kernel)⟩

theorem witness_RingsTakeEffect_4 : ∃ (s : State) (n : Nat) (d : Dev), (d = later s.dev 0) ∧ (n < 32 ∧
    d.bit (Fld.HIF_RINGn_CFG_EN n) = true) ∧ (6 ≤ d.fld (Fld.HIF_RINGn_CFG_LOG2_SIZE n) ∧ d.fld (Fld.HIF_RINGn_CFG_LOG2_SIZE n) ≤ 16) :=
  ⟨sRing, 0, later sRing.dev 0,
    rfl, (by decide +kernel), (by decide +kernel)⟩

theorem witness_RingsTakeEffect_5 : ∃ (s : State) (dt n : Nat) (d : Dev), (d = later s.dev dt) ∧ (n < 32 ∧
    d.fld (Fld.HIF_RINGn_STAT_STATE n) = 2) :=
  ⟨set [(Reg.HIF_RINGn_STAT 4, 2)] s0, 9, 4, later (set [(Reg.HIF_RINGn_STAT 4, 2)] s0).dev 9,
    rfl, (by decide +kernel)⟩

theorem witness_RingsTakeEffect_6 : ∃ (s : State) (dt n : Nat) (d : Dev), (d = later s.dev dt) ∧
    (d.fld (Fld.HIF_RINGn_STAT_STATE n) ≠ 2) :=
  ⟨s0, 9, 4, later s0.dev 9,
    rfl, (by decide +kernel)⟩

theorem witness_RingsTakeEffect_7 : ∃ (s : State) (n size v : Nat) (d : Dev), (d = later s.dev 0) ∧ (n < 32 ∧ (size = 4 ∨ size = 8) ∧
    v < 2 ^ 32) ∧ (d.bit (Fld.HIF_RINGn_CFG_EN n) = true ∧ d.fld (Fld.HIF_RINGn_STAT_STATE n) ≠ 3 ∧
    d.fld (Fld.HIF_RINGn_CFG_KIND n) < 4) ∧ (0 ≤ signedDiff 32 v (d.regN (Reg.HIF_RINGn_POSTED n))) ∧
    (d.ownedThen n v ≤ 2 ^ d.fld (Fld.HIF_RINGn_CFG_LOG2_SIZE n)) :=
  ⟨sRing, 0, 4, 9, later sRing.dev 0,
    rfl, (by decide +kernel), (by decide +kernel), (by decide +kernel), (by decide +kernel)⟩

theorem witness_RingsTakeEffect_8 : ∃ (s : State) (n v : Nat) (d : Dev), (d = later s.dev 0) ∧ (n < 32 ∧ v < 2 ^ 32) ∧
    (d.bit (Fld.HIF_RINGn_CFG_EN n) = true ∧ d.fld (Fld.HIF_RINGn_STAT_STATE n) ≠ 3 ∧ d.fld (Fld.HIF_RINGn_CFG_KIND n) < 4) ∧
    (0 ≤ signedDiff 32 v (d.regN (Reg.HIF_RINGn_POSTED n))) ∧ (d.ownedThen n v ≤ 2 ^ d.fld (Fld.HIF_RINGn_CFG_LOG2_SIZE n)) ∧
    ((d.ring n).unsignalled = 0) :=
  ⟨sRing, 0, 9, later sRing.dev 0,
    rfl, (by decide +kernel), (by decide +kernel), (by decide +kernel), (by decide +kernel), (by decide +kernel)⟩

theorem witness_RingsTakeEffect_9 : ∃ (s : State) (n v kind k : Nat) (bufs : List PostedBuf) (d : Dev) (r : RingSt), (d = later s.dev 0) ∧
    (n < 32 ∧ v < 2 ^ 32) ∧ (d.bit (Fld.HIF_RINGn_CFG_EN n) = true ∧ d.fld (Fld.HIF_RINGn_STAT_STATE n) ≠ 3 ∧ d.fld
    (Fld.HIF_RINGn_CFG_KIND n) = kind) ∧ (5 ≤ kind ∧ kind ≤ 8 ∧ d.ringQ kind = []) ∧ (signedDiff 32 v (d.regN (Reg.HIF_RINGn_POSTED n)) =
    (k : Int) ∧ 0 < k ∧ bufs.length = k ∧ bufs.all (fun b => b.readOk) = true) ∧ (d.ownedThen n v ≤ 2 ^ d.fld (Fld.HIF_RINGn_CFG_LOG2_SIZE
    n) ∧ d.hif.rings[n]? = some r ∧ r.rest = none) ∧ (r.cur.isSome = true ∨ (r.bufs ++ bufs.map (fun b => (⟨b.addr, b.len, b.resv⟩ :
    BufDesc))).head?.all (fun b => b.ok) = true) :=
  ⟨sBuf6, 1, 3, 6, 2, [⟨0x1000, 4096, false, true⟩, ⟨0x2000, 4096, false, true⟩], later sBuf6.dev 0, { bufs := [⟨0x1000, 4096, false⟩] },
    rfl, (by decide +kernel), (by decide +kernel), (by decide +kernel), (by decide +kernel), (by decide +kernel), (by decide +kernel)⟩

theorem witness_RingsTakeEffect_10 : ∃ (s : State) (n size v : Nat) (d : Dev), (d = later s.dev 0) ∧ (n < 32 ∧ (size = 4 ∨ size = 8) ∧
    v < 2 ^ 32) ∧ (d.bit (Fld.HIF_RINGn_CFG_EN n) = true ∧ d.fld (Fld.HIF_RINGn_STAT_STATE n) ≠ 3) ∧
    (signedDiff 32 v (d.regN (Reg.HIF_RINGn_POSTED n)) < 0) :=
  ⟨sRing, 0, 4, 0, later sRing.dev 0,
    rfl, (by decide +kernel), (by decide +kernel), (by decide +kernel)⟩

theorem witness_RingsTakeEffect_11 : ∃ (s : State) (off size v : Nat) (bufs : List PostedBuf) (d : Dev), (d = later s.dev 0) ∧
    (off % 256 ≠ 0 ∨ 32 ≤ off / 256 ∨ (size ≠ 4 ∧
    size ≠ 8) ∨ 2 ^ 33 ≤ v ∨ d.bit (Fld.HIF_RINGn_CFG_EN (off / 256)) = false ∨ d.fld (Fld.HIF_RINGn_STAT_STATE (off / 256)) = 3) :=
  ⟨sRing, 4, 4, 9, [], later sRing.dev 0,
    rfl, (by decide +kernel)⟩

theorem witness_RingsTakeEffect_12 : ∃ (s : State) (n size v : Nat) (bufs : List PostedBuf) (d : Dev), (d = later s.dev 0) ∧ (n < 32 ∧
    (size = 4 ∨ size = 8) ∧ v < 2 ^ 32) ∧ (d.bit (Fld.HIF_RINGn_CFG_EN n) = true ∧ d.fld (Fld.HIF_RINGn_STAT_STATE n) ≠ 3) ∧
    (0 ≤ signedDiff 32 v (d.regN (Reg.HIF_RINGn_POSTED n))) ∧ (2 ^ d.fld (Fld.HIF_RINGn_CFG_LOG2_SIZE n) < d.ownedThen n v) :=
  ⟨sRing, 0, 4, 100, [], later sRing.dev 0,
    rfl, (by decide +kernel), (by decide +kernel), (by decide +kernel), (by decide +kernel)⟩

theorem witness_RingsTakeEffect_13 : ∃ (s : State) (n v k : Nat) (bufs : List PostedBuf) (d : Dev), (d = later s.dev 0) ∧ (n < 32 ∧ v < 2
    ^ 32) ∧ (d.bit (Fld.HIF_RINGn_CFG_EN n) = true ∧ d.fld (Fld.HIF_RINGn_STAT_STATE n) ≠ 3 ∧ 4 ≤ d.fld (Fld.HIF_RINGn_CFG_KIND n)) ∧
    (signedDiff 32 v (d.regN (Reg.HIF_RINGn_POSTED n)) = (k : Int) ∧ (bufs.length < k ∨ (bufs.take k).any (fun b => !b.readOk) = true)) ∧
    (d.ownedThen n v ≤ 2 ^ d.fld (Fld.HIF_RINGn_CFG_LOG2_SIZE n)) :=
  ⟨sBuf6, 1, 3, 2, [⟨0x1000, 4096, false, false⟩], later sBuf6.dev 0,
    rfl, (by decide +kernel), (by decide +kernel), (by decide +kernel), (by decide +kernel)⟩

theorem witness_HostInterfaceTakesEffect_1 : ∃ (s : State) (r : RawCmd) (x : Dev) (f : CmdForm),
    (formOf s.key r (rawOpcode r) = some f) ∧ (x = fetched s.dev r.ring) ∧ (r.descOk = true ∧ rawBad r f.need = false) ∧
    (ready s.dev r.ring f.waits f.gate) ∧ ((served s (rawCtx r) (f.run x).1 (f.run x).2).dev.clk.ratioBroken = false) :=
  ⟨sR, rawNop, fetched sR.dev 0, ⟨4, false, none, fun x => (x, .done sOk ((argVals rawNop.args [4]).n 0))⟩,
    rfl, rfl, (by decide +kernel), (by unfold ready; decide +kernel), (by decide +kernel)⟩

theorem witness_HostInterfaceTakesEffect_2 : ∃ (s : State) (r : RawCmd) (x : Dev) (f : CmdForm),
    (formOf s.key r (rawOpcode r) = some f) ∧ (x = fetched s.dev r.ring ∧ s.dev.clk.ratioBroken = false) ∧ (r.descOk = true ∧
    rawMalformed r = true) ∧ (ready s.dev r.ring f.waits none) :=
  ⟨sR, { rawNop with desc := [1, 1, 0, 0, 4] ++ zeros 27 }, fetched sR.dev 0, ⟨4, false, none, fun x => (x,
    .done sOk ((argVals rawNop.args [4]).n 0))⟩,
    rfl, (by decide +kernel), (by decide +kernel), (by unfold ready; decide +kernel)⟩

theorem witness_HostInterfaceTakesEffect_3 : ∃ (s : State) (r : RawCmd) (x : Dev), ((formOf s.key r (rawOpcode r)).isNone = true ∧
    rawOpcode r ∉ [0x0E02, 0x0F02, 0x1101]) ∧ (x = fetched s.dev r.ring ∧ s.dev.clk.ratioBroken = false) ∧ (r.descOk = true) ∧
    (ready s.dev r.ring false none) :=
  ⟨sR, { rawNop with desc := zeros 32 }, fetched sR.dev 0,
    (by decide +kernel), (by decide +kernel), (by decide +kernel), (by unfold ready; decide +kernel)⟩

theorem witness_HostInterfaceTakesEffect_4 : ∃ (s : State) (r : RawCmd) (d : Dev), (d = later s.dev 0) ∧ (r.descOk = false ∧
    d.offers r.ring = true ∧ s.dev.clk.ratioBroken = false) :=
  ⟨sR, { rawNop with descOk := false }, later sR.dev 0,
    rfl, (by decide +kernel)⟩

theorem witness_HostInterfaceTakesEffect_5 : ∃ (s : State) (dt : Nat) (d : Dev) (w : WaitCmd), (d = later s.dev dt) ∧
    (w ∈ d.hif.waiting ∧ d.occurred w.kind = true ∧ w.dead = false ∧ w.session = (d.ring w.ring).session) ∧ (d.hostReady = true ∧
    d.fld (Fld.HIF_RINGn_STAT_STATE w.ring) = 1) ∧ (d.hif.waiting.all (fun x => decide (x.ring < 32)) = true) :=
  ⟨sWait, 9, later sWait.dev 9, { wReacq with kind := .norWrite },
    rfl, (by decide +kernel), (by decide +kernel), (by decide +kernel)⟩

theorem witness_HostInterfaceTakesEffect_6 : ∃ (s : State) (dt : Nat) (d : Dev), (d = later s.dev dt) ∧
    (d.hif.waiting.any (fun x => d.occurred x.kind) = false) :=
  ⟨dev (fun d => d.modHif (fun h => { h with waiting := [wReacq] })) s0, 9,
    later (dev (fun d => d.modHif (fun h => { h with waiting := [wReacq] })) s0).dev 9,
    rfl, (by decide +kernel)⟩

theorem witness_HostInterfaceTakesEffect_7 : ∃ (s : State) (dt n kind : Nat) (d x : Dev) (r : RingRec) (rest : List RingRec), (d = later
    s.dev dt) ∧ (5 ≤ kind ∧ kind ≤ 8 ∧ d.fld (Fld.HIF_RINGn_CFG_KIND n) = kind ∧ d.ringOf kind = some n) ∧ (d.hostReady = true ∧ d.ringQ
    kind = r :: rest ∧ (d.ring n).rest = none) ∧ (d.place n kind r = (x, true)) :=
  ⟨sBuf 7 (dev (fun d => d.setRingQ 7 [⟨zeros 32, true⟩]) s0), 0, 1, 7, later (sBuf 7 (dev (fun d => d.setRingQ 7 [⟨zeros 32, true⟩])
    s0)).dev 0, ((later (sBuf 7 (dev (fun d => d.setRingQ 7 [⟨zeros 32, true⟩]) s0)).dev 0).place 1 7 ⟨zeros 32, true⟩).1, ⟨zeros 32,
    true⟩, [],
    rfl, (by decide +kernel), (by decide +kernel), (by decide +kernel)⟩

theorem witness_HostInterfaceTakesEffect_8 : ∃ (s : State) (dt n : Nat) (d : Dev) (b : OpenBuf), (d = later s.dev dt) ∧ (n < 32 ∧
    (d.ring n).cur = some b ∧ 0 < b.used ∧ d.hostReady = true) ∧ (d.fld (Fld.HIF_RINGn_CFG_COALESCE_US n) ≠ 0 ∧
    b.firstAt + d.fld (Fld.HIF_RINGn_CFG_COALESCE_US n) * 1000 ≤ d.up) :=
  ⟨sOpen, 10000, 1, later sOpen.dev 10000, open0,
    rfl, (by decide +kernel), (by decide +kernel)⟩

theorem witness_HostInterfaceTakesEffect_9 : ∃ (s : State) (dt n v : Nat) (d : Dev), (d = later s.dev dt) ∧ (n < 32 ∧
    d.bit (Fld.HIF_RINGn_STAT_ARMED n) = true ∧ 0 < (d.ring n).unsignalled ∧ d.modExpired n = true) ∧
    (v = d.fld (Fld.HIF_RINGn_CFG_VECTOR n) ∧ d.hostReady = true ∧ d.regN (msixOff v 3) % 2 = 0) :=
  ⟨sArm 0, 10000, 1, 0, later (sArm 0).dev 10000,
    rfl, (by decide +kernel), (by decide +kernel)⟩

theorem witness_HostInterfaceTakesEffect_10 : ∃ (s : State) (dt n v : Nat) (d : Dev), (d = later s.dev dt) ∧ (n < 32 ∧
    d.bit (Fld.HIF_RINGn_STAT_ARMED n) = true ∧ 0 < (d.ring n).unsignalled ∧ d.modExpired n = true) ∧
    (v = d.fld (Fld.HIF_RINGn_CFG_VECTOR n) ∧ d.regN (msixOff v 3) % 2 = 1) :=
  ⟨sArm 1, 10000, 1, 0, later (sArm 1).dev 10000,
    rfl, (by decide +kernel), (by decide +kernel)⟩

theorem witness_HostInterfaceTakesEffect_11 : ∃ (s : State) (dt : Nat) (d : Dev), (d = later s.dev dt) :=
  ⟨sWait, 9, later sWait.dev 9,
    rfl⟩

theorem witness_HostInterfaceTakesEffect_12 : ∃ (s : State) (dt : Nat) (d : Dev), (d = later s.dev dt) :=
  ⟨s0, 9, later s0.dev 9,
    rfl⟩

theorem witness_HostInterfaceTakesEffect_13 : ∃ (s : State) (dt : Nat) (d : Dev), (d = later s.dev dt) ∧
    (d.bit Fld.HIF_STATUS_D3 = true) ∧ (d.hif.heldDone.all (fun c => decide (c.ring < 32)) = true) :=
  ⟨sD3, 9, later sD3.dev 9,
    rfl, (by decide +kernel), (by decide +kernel)⟩

theorem witness_HostInterfaceTakesEffect_14 : ∃ (s : State) (dt : Nat) (d : Dev), (d = later s.dev dt) ∧
    (d.bit Fld.HIF_STATUS_D3 = false) :=
  ⟨s0, 9, later s0.dev 9,
    rfl, (by decide +kernel)⟩

theorem witness_HostInterfaceTakesEffect_15 : ∃ (s : State) (dt width speed : Nat) (d : Dev), (d = later s.dev dt) ∧ (width ∈ [1, 2, 4,
    8] ∧ 1 ≤ speed ∧ speed ≤ 4) :=
  ⟨s0, 9, 8, 4, later s0.dev 9,
    rfl, (by decide +kernel)⟩

theorem witness_HostInterfaceTakesEffect_16 : ∃ (s : State) (v : Nat) (d : Dev), (d = later s.dev 0) ∧ (v < 64 ∧
    (d.regN (0x031000 + 4 * (v / 32))).testBit (v % 32) = true ∧ d.hostReady = true) :=
  ⟨set [(0x031004, 4), (msixOff 34 3, 1), (msixOff 34 2, 7)] s0, 34, later (set [(0x031004, 4), (msixOff 34 3, 1), (msixOff 34 2,
    7)] s0).dev 0,
    rfl, (by decide +kernel)⟩

theorem witness_HostInterfaceTakesEffect_17 : ∃ (s : State) (v : Nat) (d : Dev), (d = later s.dev 0) ∧ (v < 64 ∧
    (d.regN (0x031000 + 4 * (v / 32))).testBit (v % 32) = false) :=
  ⟨set [(msixOff 34 3, 1)] s0, 34, later (set [(msixOff 34 3, 1)] s0).dev 0,
    rfl, (by decide +kernel)⟩

theorem witness_HostInterfaceTakesEffect_18 : ∃ (s : State) (c : Ctx) (d : Dev) (value : Nat), (ready s.dev c.ring false none) ∧
    (d = fetched s.dev c.ring) :=
  ⟨sR, c0, fetched sR.dev 0, 77,
    (by unfold ready; decide +kernel), rfl⟩

theorem witness_HostInterfaceTakesEffect_19 : ∃ (s : State) (c : Ctx) (d : Dev) (n : Nat), (ready s.dev c.ring false none) ∧
    (d = fetched s.dev c.ring) ∧ (d.runs n 5 = false ∧ d.runs n 6 = false ∧ d.runs n 7 = false ∧ d.runs n 8 = false) :=
  ⟨sR, c0, fetched sR.dev 0, 0,
    (by unfold ready; decide +kernel), rfl, (by decide +kernel)⟩

theorem witness_HostInterfaceTakesEffect_20 : ∃ (s : State) (c : Ctx) (d : Dev) (n k : Nat), (ready s.dev c.ring false none) ∧
    (d = fetched s.dev c.ring) ∧ (5 ≤ k ∧ k ≤ 8 ∧ d.runs n k = true ∧ (d.ring n).cur.any (fun b => decide (0 < b.used)) = true) :=
  ⟨sRopen, c0, fetched sRopen.dev 0, 1, 6,
    (by unfold ready; decide +kernel), rfl, (by decide +kernel)⟩

theorem witness_HostInterfaceTakesEffect_21 : ∃ (s : State) (c : Ctx) (d : Dev) (n k : Nat), (ready s.dev c.ring false none) ∧
    (d = fetched s.dev c.ring) ∧ (5 ≤ k ∧ k ≤ 8 ∧ d.runs n k = true ∧ (d.ring n).cur.any (fun b => decide (0 < b.used)) = false) :=
  ⟨sBuf 6 sR, c0, fetched (sBuf 6 sR).dev 0, 1, 6,
    (by unfold ready; decide +kernel), rfl, (by decide +kernel)⟩

theorem witness_KeyUpdatesCommit_1 : ∃ (s : State) (dt ring : Nat) (desc : KeyDesc) (msg : Bytes) (m : UpdateMsg) (upTo : Nat) (d : Dev),
    (d = later s.dev dt) ∧ (m = UpdateMsg.ofBytes msg ∧ m.kind = 1 ∧ 6 ≤ upTo ∧ takesUpdate s.key d ring = true ∧ desc.readOk = true ∧
    msgRead desc = true) ∧ ((checkUpdate s.key.runSweep true m).isOk = true) :=
  ⟨sKey (keyTree), 0, 1, desc0, upd0 1 41 3 1001 [2, 3, 3, 0, 2, 0, 0, 0] 77, UpdateMsg.ofBytes (upd0 1 41 3 1001 [2, 3, 3, 0, 2, 0, 0, 0]
    77), 6, later (sKey (keyTree)).dev 0,
    rfl, (by decide +kernel), (by decide +kernel)⟩

theorem witness_KeyUpdatesCommit_2 : ∃ (s : State) (dt ring : Nat) (desc : KeyDesc) (msg : Bytes) (m : UpdateMsg) (upTo : Nat) (d : Dev),
    (d = later s.dev dt) ∧ (m = UpdateMsg.ofBytes msg ∧ m.kind = 2 ∧ 6 ≤ upTo ∧ takesUpdate s.key d ring = true ∧ desc.readOk = true ∧
    msgRead desc = true) ∧ ((checkUpdate s.key.runSweep true m).isOk = true) :=
  ⟨sKey (keyTree), 0, 1, desc0, upd0 2 40 3 1001 (zeros 8) 77, UpdateMsg.ofBytes (upd0 2 40 3 1001 (zeros 8) 77), 6, later (sKey
    (keyTree)).dev 0,
    rfl, (by decide +kernel), (by decide +kernel)⟩

theorem witness_KeyUpdatesCommit_3 : ∃ (s : State) (dt ring : Nat) (desc : KeyDesc) (msg : Bytes) (m : UpdateMsg) (upTo : Nat) (d : Dev),
    (d = later s.dev dt) ∧ (m = UpdateMsg.ofBytes msg ∧ m.kind = 3 ∧ 6 ≤ upTo ∧ takesUpdate s.key d ring = true ∧ desc.readOk = true ∧
    msgRead desc = true) ∧ ((checkUpdate s.key.runSweep true m).isOk = true) :=
  ⟨sKey (keyTree), 0, 1, desc0, upd0 3 40 3 1001 (zeros 8) 0, UpdateMsg.ofBytes (upd0 3 40 3 1001 (zeros 8) 0), 6, later (sKey
    (keyTree)).dev 0,
    rfl, (by decide +kernel), (by decide +kernel)⟩

theorem witness_KeyUpdatesCommit_4 : ∃ (s : State) (dt ring : Nat) (desc : KeyDesc) (msg : Bytes) (m : UpdateMsg) (upTo : Nat) (d : Dev),
    (d = later s.dev dt) ∧ (m = UpdateMsg.ofBytes msg ∧ m.kind = 4 ∧ 6 ≤ upTo ∧ takesUpdate s.key d ring = true ∧ desc.readOk = true ∧
    msgRead desc = true) ∧ ((checkUpdate s.key.runSweep true m).isOk = true) :=
  ⟨sKey (keyTree), 0, 1, desc0, upd0 4 3 0 1001 (zeros 8) 0, UpdateMsg.ofBytes (upd0 4 3 0 1001 (zeros 8) 0), 6, later (sKey
    (keyTree)).dev 0,
    rfl, (by decide +kernel), (by decide +kernel)⟩

theorem witness_KeyUpdatesCommit_5 : ∃ (s : State) (dt ring : Nat) (desc : KeyDesc) (msg : Bytes) (m : UpdateMsg) (upTo : Nat) (d : Dev),
    (d = later s.dev dt) ∧ (m = UpdateMsg.ofBytes msg ∧ m.kind = 5 ∧ 6 ≤ upTo ∧ takesUpdate s.key d ring = true ∧ desc.readOk = true ∧
    msgRead desc = true) ∧ ((checkUpdate s.key.runSweep true m).isOk = true) :=
  ⟨sKey (keyTree), 0, 1, desc0, upd0 5 0 0 1001 [0, 0, 0, 0, 0, 3, 0, 0] 0, UpdateMsg.ofBytes (upd0 5 0 0 1001 [0, 0, 0, 0, 0, 3, 0, 0]
    0), 6, later (sKey (keyTree)).dev 0,
    rfl, (by decide +kernel), (by decide +kernel)⟩

theorem witness_KeyUpdatesCommit_6 : ∃ (s : State) (dt ring : Nat) (desc : KeyDesc) (msg : Bytes) (m : UpdateMsg) (upTo : Nat) (d : Dev),
    (d = later s.dev dt) ∧ (m = UpdateMsg.ofBytes msg ∧ m.kind = 6 ∧ 6 ≤ upTo ∧ takesUpdate s.key d ring = true ∧ desc.readOk = true ∧
    msgRead desc = true) ∧ ((checkUpdate s.key.runSweep true m).isOk = true) :=
  ⟨sKey ({ keyTree with lc := .provision, slots := [] }), 0, 1, desc0, upd0 6 0 0x3FF 1001 [0, 3, 0, 0, 0, 0, 0, 0] 9, UpdateMsg.ofBytes
    (upd0 6 0 0x3FF 1001 [0, 3, 0, 0, 0, 0, 0, 0] 9), 6, later (sKey ({ keyTree with lc := .provision, slots := [] })).dev 0,
    rfl, (by decide +kernel), (by decide +kernel)⟩

theorem witness_KeyUpdatesCommit_7 : ∃ (s : State) (dt ring : Nat) (desc : KeyDesc) (msg : Bytes) (m : UpdateMsg) (upTo : Nat) (d : Dev),
    (d = later s.dev dt) ∧ (m = UpdateMsg.ofBytes msg ∧ m.kind = 4 ∧ 1 ≤ upTo ∧ upTo ≤ 3 ∧ takesUpdate s.key d ring = true ∧ desc.readOk =
    true ∧ msgRead desc = true) ∧ ((checkUpdate s.key.runSweep true m).isOk = true) :=
  ⟨sKey keyTree, 0, 1, desc0, upd0 4 3 0 1001 (zeros 8) 0, UpdateMsg.ofBytes (upd0 4 3 0 1001 (zeros 8) 0), 2, later (sKey keyTree).dev 0,
    rfl, (by decide +kernel), (by decide +kernel)⟩

theorem witness_KeyUpdatesAreRefusedInOrder_1 : ∃ (s : State) (dt ring : Nat) (desc : KeyDesc) (msg : Bytes) (m : UpdateMsg) (upTo : Nat)
    (d : Dev), (d = later s.dev dt) ∧ (m = UpdateMsg.ofBytes msg ∧ (m.kind = 1 ∨ m.kind = 0 ∨ 6 < m.kind) ∧ takesUpdate s.key d ring =
    true) ∧ (desc.readOk = true) ∧ (msgRead desc = false ∨ m.format ≠ 1 ∨ m.kind ≠ 1 ∨ m.resv = true) :=
  ⟨sKey (keyTree), 0, 1, descBad, [1, 1] ++ zeros 110, UpdateMsg.ofBytes ([1, 1] ++ zeros 110), 6, later (sKey (keyTree)).dev 0,
    rfl, (by decide +kernel), (by decide +kernel), (by decide +kernel)⟩

theorem witness_KeyUpdatesAreRefusedInOrder_2 : ∃ (s : State) (dt ring : Nat) (desc : KeyDesc) (msg : Bytes) (m : UpdateMsg) (upTo : Nat)
    (d : Dev), (d = later s.dev dt) ∧ (m = UpdateMsg.ofBytes msg ∧ m.kind = 2 ∧ takesUpdate s.key d ring = true) ∧ (desc.readOk = true ∧
    msgRead desc = true ∧ m.format = 1 ∧ m.resv = false ∧ m.deviceId ≠ s.key.deviceId) :=
  ⟨sKey (keyTree), 0, 1, desc0, [2, 1] ++ zeros 110, UpdateMsg.ofBytes ([2, 1] ++ zeros 110), 6, later (sKey (keyTree)).dev 0,
    rfl, (by decide +kernel), (by decide +kernel)⟩

theorem witness_KeyUpdatesAreRefusedInOrder_3 : ∃ (s : State) (dt ring : Nat) (desc : KeyDesc) (msg : Bytes) (m : UpdateMsg) (upTo : Nat)
    (d : Dev), (d = later s.dev dt) ∧ (m = UpdateMsg.ofBytes msg ∧ m.kind = 6 ∧ takesUpdate s.key d ring = true) ∧ (desc.readOk = true ∧
    msgRead desc = true ∧ m.format = 1 ∧ m.resv = false ∧ m.deviceId = s.key.deviceId ∧ s.key.lc ≠ .provision) :=
  ⟨sKey (keyTree), 0, 1, desc0, [6, 1, 0, 0, 0, 0, 0, 0, 5] ++ zeros 103, UpdateMsg.ofBytes ([6, 1, 0, 0, 0, 0, 0, 0, 5] ++ zeros 103), 6,
    later (sKey (keyTree)).dev 0,
    rfl, (by decide +kernel), (by decide +kernel)⟩

theorem witness_KeyUpdatesAreRefusedInOrder_4 : ∃ (s : State) (dt ring : Nat) (desc : KeyDesc) (msg : Bytes) (m : UpdateMsg) (upTo : Nat)
    (d : Dev), (d = later s.dev dt) ∧ (m = UpdateMsg.ofBytes msg ∧ m.kind = 1 ∧ takesUpdate s.key d ring = true) ∧ (desc.readOk = true ∧
    msgRead desc = true ∧ m.format = 1 ∧ m.resv = false ∧ m.deviceId = s.key.deviceId ∧ (s.key.lc = .operational ∨ s.key.lc =
    .maintenance) ∧ s.key.rootFail = true) :=
  ⟨sKey ({ keyTree with rootFail := true }), 0, 1, desc0, [1, 1, 0, 0, 0, 0, 0, 0, 5] ++ zeros 103, UpdateMsg.ofBytes ([1, 1, 0, 0, 0, 0,
    0, 0, 5] ++ zeros 103), 6, later (sKey ({ keyTree with rootFail := true })).dev 0,
    rfl, (by decide +kernel), (by decide +kernel)⟩

theorem witness_KeyUpdatesAreRefusedInOrder_5 : ∃ (s : State) (dt ring : Nat) (desc : KeyDesc) (msg : Bytes) (m : UpdateMsg) (upTo : Nat)
    (d : Dev), (d = later s.dev dt) ∧ (m = UpdateMsg.ofBytes msg ∧ m.kind = 3 ∧ takesUpdate s.key d ring = true) ∧ (desc.readOk = true ∧
    msgRead desc = true ∧ m.format = 1 ∧ m.resv = false ∧ m.deviceId = s.key.deviceId ∧ (s.key.lc = .operational ∨ s.key.lc =
    .maintenance) ∧ s.key.rootFail = false ∧ m.auth = 0x3FF) :=
  ⟨sKey (keyTree), 0, 1, desc0, [3, 1, 0, 0, 0xFF, 3, 0, 0, 5] ++ zeros 103, UpdateMsg.ofBytes ([3, 1, 0, 0, 0xFF, 3, 0, 0, 5] ++ zeros
    103), 6, later (sKey (keyTree)).dev 0,
    rfl, (by decide +kernel), (by decide +kernel)⟩

theorem witness_KeyUpdatesAreRefusedInOrder_6 : ∃ (s : State) (dt ring : Nat) (desc : KeyDesc) (msg : Bytes) (m : UpdateMsg) (upTo : Nat)
    (d : Dev), (d = later s.dev dt) ∧ (m = UpdateMsg.ofBytes msg ∧ m.kind = 5 ∧ takesUpdate s.key d ring = true) ∧ (desc.readOk = true ∧
    msgRead desc = true ∧ m.format = 1 ∧ m.resv = false ∧ m.deviceId = s.key.deviceId ∧ s.key.lc = .provision ∧ m.newLc = 7 ∧
    s.key.rootFail = false ∧ m.auth = 0x3FF) ∧ (gcmTag (hkdfSha256 (leBytes 8 s.key.deviceId) (zeros 32) (asciiBytes "G840 key update")
    32) m.nonce m.aad m.wrapped = m.tag) ∧ (m.counter ≤ s.key.counter) :=
  ⟨sKey ({ keyTree with lc := .provision, slots := [] }), 0, 1, desc0, upd0 5 0 0x3FF 1000 [0, 0, 0, 0, 0, 7, 0, 0] 0, UpdateMsg.ofBytes
    (upd0 5 0 0x3FF 1000 [0, 0, 0, 0, 0, 7, 0, 0] 0), 6, later (sKey ({ keyTree with lc := .provision, slots := [] })).dev 0,
    rfl, (by decide +kernel), (by decide +kernel), (by decide +kernel), (by decide +kernel)⟩

theorem witness_KeyUpdatesAreRefusedInOrder_7 : ∃ (s : State) (dt ring : Nat) (desc : KeyDesc) (msg : Bytes) (upTo : Nat) (d : Dev), (d =
    later s.dev dt) ∧ (takesUpdate s.key d ring = true ∧ ring < 32 ∧ desc.readOk = false) :=
  ⟨sKey keyTree, 0, 1, { desc0 with readOk := false }, [1, 1] ++ zeros 110, 6, later (sKey keyTree).dev 0,
    rfl, (by decide +kernel)⟩

theorem witness_KeyStoreEventsTakeEffect_1 : ∃ (s : State) (dt : Nat) (d : Dev), (d = later s.dev dt) ∧
    (d.bit Fld.CLK_STATUS_PLL_LOCK = true ∧ d.clk.keyStarted = false ∧ d.bit Fld.CLK_STATUS_RESCUE = false ∧ s.key.started = false) ∧
    (s.key.lc = .blank ∧ s.key.trngFail = false ∧ s.key.journal = none) :=
  ⟨sPll {}, 0, later (sPll {}).dev 0,
    rfl, (by decide +kernel), (by decide +kernel)⟩

theorem witness_KeyStoreEventsTakeEffect_2 : ∃ (s : State) (dt : Nat) (d : Dev), (d = later s.dev dt) ∧
    (d.bit Fld.CLK_STATUS_PLL_LOCK = true ∧ d.clk.keyStarted = false ∧ d.bit Fld.CLK_STATUS_RESCUE = false ∧ s.key.started = false) ∧
    (s.key.lc = .blank ∧ s.key.trngFail = true ∧ s.key.journal = none) :=
  ⟨sPll { trngFail := true }, 0, later (sPll { trngFail := true }).dev 0,
    rfl, (by decide +kernel), (by decide +kernel)⟩

theorem witness_KeyStoreEventsTakeEffect_3 : ∃ (s : State) (dt : Nat) (d : Dev) (j : Journal), (d = later s.dev dt) ∧ (d.bit
    Fld.CLK_STATUS_PLL_LOCK = true ∧ d.clk.keyStarted = false ∧ d.bit Fld.CLK_STATUS_RESCUE = false ∧ s.key.started = false) ∧ (s.key.lc ≠
    .blank ∧ s.key.lc ≠ .returned ∧ s.key.helper = [] ∧ s.key.sweep = [] ∧ s.key.journal = some j ∧ j.state = .open_) :=
  ⟨sPll { keyTree with started := false, journal := some jr0 }, 0, later (sPll { keyTree with started := false, journal := some jr0 }).dev
    0, jr0,
    rfl, (by decide +kernel), (by decide +kernel)⟩

theorem witness_KeyStoreEventsTakeEffect_4 : ∃ (s : State) (dt : Nat) (d : Dev) (j : Journal) (n : Nat) (v : KeyCell), (d = later s.dev
    dt) ∧ (d.bit Fld.CLK_STATUS_PLL_LOCK = true ∧ d.clk.keyStarted = false ∧ d.bit Fld.CLK_STATUS_RESCUE = false ∧ s.key.started = false)
    ∧ (s.key.lc ≠ .blank ∧ s.key.lc ≠ .returned ∧ s.key.sweep = [] ∧ s.key.journal = some j ∧ j.state = .committed ∧ j.change = .setCell n
    v) :=
  ⟨sPll { keyTree with started := false, journal := some jr1 }, 0, later (sPll { keyTree with started := false, journal := some jr1 }).dev
    0, jr1, 41, cell0,
    rfl, (by decide +kernel), (by decide +kernel)⟩

theorem witness_KeyStoreEventsTakeEffect_5 : ∃ (s : State) (dt n : Nat) (x : Slot) (d : Dev), (d = later s.dev dt) ∧
    (s.key.started = true ∧ s.key.interrupted = false ∧ s.key.slot n = some x ∧ x.state = .valid ∧
    s.key.descends s.key.sweep 5 n = true) :=
  ⟨sKey { keyTree with sweep := [3] }, 0, 40, { slotOf 1 2 3 3 with next := some { keyId := 4, bytes := zeros 32 } },
    later (sKey { keyTree with sweep := [3] }).dev 0,
    rfl, (by decide +kernel)⟩

theorem witness_KeyStoreEventsTakeEffect_6 : ∃ (s : State) (dt n : Nat) (d : Dev), (d = later s.dev dt) ∧ (s.key.started = true ∧
    s.key.interrupted = false ∧ s.key.descends s.key.sweep 5 n = false) :=
  ⟨sKey { keyTree with sweep := [3] }, 0, 3, later (sKey { keyTree with sweep := [3] }).dev 0,
    rfl, (by decide +kernel)⟩

theorem witness_KeyStoreEventsTakeEffect_7 : ∃ (s : State) (dt : Nat) (d : Dev), (d = later s.dev dt) ∧ (s.key.trngFail = false) :=
  ⟨s0, 0, later s0.dev 0,
    rfl, (by decide +kernel)⟩

theorem witness_KeyStoreEventsTakeEffect_8 : ∃ (s : State) (dt : Nat) (d : Dev), (d = later s.dev dt) ∧ (s.key.trngFail = true ∧
    s.key.enrolWaits = false) :=
  ⟨{ s0 with key := { trngFail := true } }, 0, later s0.dev 0,
    rfl, (by decide +kernel)⟩

theorem witness_KeyStoreEventsTakeEffect_9 : ∃ (s : State) (dt : Nat) (d : Dev), (d = later s.dev dt) ∧ (s.key.trngFail = true ∧
    s.key.enrolWaits = true ∧ d.net.fldWait = none) :=
  ⟨{ s0 with key := { trngFail := true, enrolWaits := true } }, 0, later s0.dev 0,
    rfl, (by decide +kernel)⟩

theorem witness_KeyStoreEventsTakeEffect_10 : ∃ (s : State) (c : Ctx) (d : Dev) (first count : Nat) (buf : HostBuf),
    (ready s.dev c.ring false none) ∧ (d = fetched s.dev c.ring) ∧ (1 ≤ count ∧ count ≤ 256 ∧ first + count ≤ 1024 ∧
    16 * count ≤ buf.len) :=
  ⟨sR, c0, fetched sR.dev 0, 1023, 1, ⟨0x1000, 16⟩,
    (by unfold ready; decide +kernel), rfl, (by decide +kernel)⟩

theorem witness_KeyStoreEventsTakeEffect_11 : ∃ (s : State) (c : Ctx) (d : Dev) (first count : Nat) (buf : HostBuf),
    (ready s.dev c.ring false none) ∧ (d = fetched s.dev c.ring) ∧
    (count = 0 ∨ 256 < count ∨ 1024 < first + count ∨ buf.len < 16 * count) :=
  ⟨sR, c0, fetched sR.dev 0, 1023, 2, ⟨0x1000, 32⟩,
    (by unfold ready; decide +kernel), rfl, (by decide +kernel)⟩

theorem witness_KeyStoreEventsTakeEffect_12 : ∃ (s : State) (c : Ctx) (d : Dev) (confirm : Nat), (ready s.dev c.ring true none) ∧
    (d = fetched s.dev c.ring) ∧ (s.key.rootFail = false ∨ s.key.lc = .blank ∨ s.key.lc = .returned) :=
  ⟨sR, c0, fetched sR.dev 0, 0x454E524C,
    (by unfold ready; decide +kernel), rfl, (by decide +kernel)⟩

theorem witness_KeyStoreEventsTakeEffect_13 : ∃ (s : State) (c : Ctx) (d : Dev) (confirm : Nat), (ready s.dev c.ring true none) ∧
    (d = fetched s.dev c.ring) ∧ (s.key.rootFail = true ∧ s.key.lc ≠ .blank ∧ s.key.lc ≠ .returned) ∧
    (confirm ≠ 0x454E524C ∨ s.key.trngFail = true) :=
  ⟨{ sR with key := { keyTree with rootFail := true } }, c0, fetched sR.dev 0, 7,
    (by unfold ready; decide +kernel), rfl, (by decide +kernel), (by decide +kernel)⟩

theorem witness_KeyStoreEventsTakeEffect_14 : ∃ (s : State) (c : Ctx) (d : Dev), (d = later s.dev 0) ∧ (ready s.dev c.ring true none) ∧
    (s.key.rootFail = true ∧ s.key.lc ≠ .blank ∧ s.key.lc ≠ .returned ∧ s.key.trngFail = false) :=
  ⟨{ sR with key := { keyTree with rootFail := true } }, c0, later sR.dev 0,
    rfl, (by unfold ready; decide +kernel), (by decide +kernel)⟩

theorem witness_SinterEventsTakeEffect_1 : ∃ (s : State) (dt code status index arg0 arg1 : Nat) (d : Dev) (e : Ev),
    (d = later s.dev dt) ∧ (allEvents.find? (fun x => decide (x.row.1 = code) && x.row.2.2.2) = some e) ∧
    (d.bit Fld.SNT_STATUS_RUNNING = true ∧ d.bit Fld.SNT_STATUS_MEM_FAIL = false ∧ d.fld Fld.SNT_CFG_MIN_SEV ≤ e.row.2.1 ∧
    d.snt.shadow.length < 512) ∧ (d.snt.newest.any (d.folds code e.row.2.1 (status % 256) (index % 65536)) = false) :=
  ⟨sSnt id, 5, 0x0E05, 0, 0xFFFF, 7, 0, later (sSnt id).dev 5, .trngFail,
    rfl, (by decide +kernel), (by decide +kernel), (by decide +kernel)⟩

theorem witness_SinterEventsTakeEffect_2 : ∃ (s : State) (dt code status index arg0 arg1 : Nat) (d : Dev) (e : Ev) (r : SntRec),
    (d = later s.dev dt) ∧ (allEvents.find? (fun x => decide (x.row.1 = code) && x.row.2.2.2) = some e) ∧
    (d.bit Fld.SNT_STATUS_RUNNING = true ∧ d.bit Fld.SNT_STATUS_MEM_FAIL = false ∧ d.fld Fld.SNT_CFG_MIN_SEV ≤ e.row.2.1) ∧
    (d.snt.newest = some r ∧ d.folds code e.row.2.1 (status % 256) (index % 65536) r = true) :=
  ⟨sSnt (fun x => { x with shadow := [snt0 9], headAt := some 0 }), 5, 0x0E05, 0, 0xFFFF, 7, 0,
    later (sSnt (fun x => { x with shadow := [snt0 9], headAt := some 0 })).dev 5, .trngFail, snt0 9,
    rfl, (by decide +kernel), (by decide +kernel), (by decide +kernel)⟩

theorem witness_SinterEventsTakeEffect_3 : ∃ (s : State) (dt code status index arg0 arg1 : Nat) (d : Dev) (e : Ev) (v : SntRec),
    (d = later s.dev dt) ∧ (allEvents.find? (fun x => decide (x.row.1 = code) && x.row.2.2.2) = some e) ∧
    (d.bit Fld.SNT_STATUS_RUNNING = true ∧ d.bit Fld.SNT_STATUS_MEM_FAIL = false ∧ d.fld Fld.SNT_CFG_MIN_SEV ≤ e.row.2.1 ∧
    512 ≤ d.snt.shadow.length) ∧ (d.snt.newest.any (d.folds code e.row.2.1 (status % 256) (index % 65536)) = false ∧
    victimOf e.row.2.1 d.snt.firstFailSeq.toList d.snt.shadow = some v) :=
  ⟨sSnt (fun x => { x with shadow := (List.range 512).map snt0, nextSeq := 600 }), 5, 0x0E05, 1, 0xFFFF, 7, 0,
    later (sSnt (fun x => { x with shadow := (List.range 512).map snt0, nextSeq := 600 })).dev 5, .trngFail, snt0 0,
    rfl, (by decide +kernel), (by decide +kernel), (by decide +kernel)⟩

theorem witness_SinterEventsTakeEffect_4 : ∃ (s : State) (dt code status index arg0 arg1 : Nat) (d : Dev) (e : Ev),
    (d = later s.dev dt) ∧ (allEvents.find? (fun x => decide (x.row.1 = code) && x.row.2.2.2) = some e) ∧
    (d.bit Fld.SNT_STATUS_RUNNING = true ∧ d.bit Fld.SNT_STATUS_MEM_FAIL = false ∧ d.fld Fld.SNT_CFG_MIN_SEV ≤ e.row.2.1 ∧
    512 ≤ d.snt.shadow.length) ∧ (d.snt.newest.any (d.folds code e.row.2.1 (status % 256) (index % 65536)) = false ∧
    victimOf e.row.2.1 d.snt.firstFailSeq.toList d.snt.shadow = none) :=
  ⟨sSnt (fun x => { x with shadow := (List.range 512).map (fun n => { snt0 n with severity := 3 }), nextSeq := 600 }), 5, 0x0C01, 1,
    0xFFFF, 7, 0, later (sSnt (fun x =>
    { x with shadow := (List.range 512).map (fun n => { snt0 n with severity := 3 }), nextSeq := 600 })).dev 5, .timeAcquired,
    rfl, (by decide +kernel), (by decide +kernel), (by decide +kernel)⟩

theorem witness_SinterEventsTakeEffect_5 : ∃ (s : State) (dt code status index arg0 arg1 : Nat) (d : Dev) (e : Ev),
    (d = later s.dev dt) ∧ (allEvents.find? (fun x => decide (x.row.1 = code) && x.row.2.2.2) = some e) ∧
    (d.bit Fld.SNT_STATUS_RUNNING = false ∧ d.fld Fld.SNT_CFG_MIN_SEV ≤ e.row.2.1 ∧ d.snt.waiting.length + d.snt.shadow.length < 512) :=
  ⟨s0, 5, 0x0E05, 0, 0xFFFF, 7, 0, later s0.dev 5, .trngFail,
    rfl, (by decide +kernel), (by decide +kernel)⟩

theorem witness_SinterEventsTakeEffect_6 : ∃ (s : State) (dt n : Nat) (d : Dev) (r : SntRec) (rest : List SntRec),
    (d = later s.dev dt) ∧ (d.sntWrites = true ∧ d.snt.shadow = r :: rest ∧ 3 ≤ n ∧ d.snt.log.length < sntCells) :=
  ⟨sSnt (fun x => { x with shadow := [snt0 9], log := [snt0 4, snt0 12] }), 5, 3,
    later (sSnt (fun x => { x with shadow := [snt0 9], log := [snt0 4, snt0 12] })).dev 5, snt0 9, [],
    rfl, (by decide +kernel)⟩

theorem witness_SinterEventsTakeEffect_7 : ∃ (s : State) (dt n : Nat) (d : Dev), (d = later s.dev dt) ∧ (n < 3 ∧
    d.snt.log.length < sntCells) :=
  ⟨sSnt (fun x => { x with shadow := [snt0 9] }), 5, 2, later (sSnt (fun x => { x with shadow := [snt0 9] })).dev 5,
    rfl, (by decide +kernel)⟩

theorem witness_SinterEventsTakeEffect_8 : ∃ (s : State) (dt : Nat) (torn : Bool) (d : Dev), (d = later s.dev dt) ∧
    (d.sntWrites = true ∧ d.snt.headerAt + 60000000000 ≤ d.up) :=
  ⟨sSnt id, 60000000000, false, later (sSnt id).dev 60000000000,
    rfl, (by decide +kernel)⟩

theorem witness_SinterEventsTakeEffect_9 : ∃ (s : State) (dt : Nat) (d : Dev), (d = later s.dev dt) ∧ (d.sntWrites = true) :=
  ⟨sSnt id, 5, later (sSnt id).dev 5,
    rfl, (by decide +kernel)⟩

theorem witness_SinterEventsTakeEffect_10 : ∃ (s : State) (dt : Nat) (d : Dev), (d = later s.dev dt) ∧
    (d.bit Fld.SNT_STATUS_MEM_FAIL = true ∧ d.snt.probeAt + 1000000000 ≤ d.up) :=
  ⟨set [(Reg.SNT_STATUS, 3)] (sSnt id), 1000000000, later (set [(Reg.SNT_STATUS, 3)] (sSnt id)).dev 1000000000,
    rfl, (by decide +kernel)⟩

theorem witness_SinterEventsTakeEffect_11 : ∃ (s : State) (dt : Nat) (d : Dev), (d = later s.dev dt) ∧
    (d.bit Fld.SNT_STATUS_MEM_FAIL = true ∧ d.snt.probeAt + 1000000000 ≤ d.up) :=
  ⟨set [(Reg.SNT_STATUS, 3)] (sSnt id), 1000000000, later (set [(Reg.SNT_STATUS, 3)] (sSnt id)).dev 1000000000,
    rfl, (by decide +kernel)⟩

theorem witness_SinterEventsTakeEffect_12 : ∃ (s : State) (dt : Nat) (d : Dev) (r : SntRec), (d = later s.dev dt) ∧
    (d.bit Fld.SNT_STATUS_MEM_FAIL = true ∧ d.snt.probeOk = true ∧ d.snt.shadow = [r] ∧ d.snt.log.length < sntCells) :=
  ⟨set [(Reg.SNT_STATUS, 3)] (sSnt (fun x => { x with probeOk := true, shadow := [snt0 9] })), 5, later (set [(Reg.SNT_STATUS,
    3)] (sSnt (fun x => { x with probeOk := true, shadow := [snt0 9] }))).dev 5, snt0 9,
    rfl, (by decide +kernel)⟩

theorem witness_SinterEventsTakeEffect_13 : ∃ (s : State) (dt : Nat) (d : Dev), (d = later s.dev dt) ∧ (d.clk.pfw = true ∧
    d.finalSaving = false ∧ d.bit Fld.SNT_STATUS_RUNNING = true ∧ d.bit Fld.SNT_STATUS_PFW_HOLD = false) :=
  ⟨dev (fun d => d.modClk (fun c => { c with pfw := true })) (sSnt id), 5,
    later (dev (fun d => d.modClk (fun c => { c with pfw := true })) (sSnt id)).dev 5,
    rfl, (by decide +kernel)⟩

theorem witness_SinterEventsTakeEffect_14 : ∃ (s : State) (dt : Nat) (d : Dev), (d = later s.dev dt) ∧ (d.clk.imageLoaded = true ∧
    d.bit Fld.CLK_STATUS_RESCUE = false ∧ d.bit Fld.SNT_STATUS_RUNNING = false ∧ d.fld Fld.SNT_CFG_MIN_SEV = 0) ∧ (d.snt.waiting = [] ∧
    d.snt.shadow = [] ∧ d.snt.headAt = none ∧ d.snt.startHeader.clear = none) :=
  ⟨dev (fun d => d.modClk (fun c => { c with imageLoaded := true })) s0, 5,
    later (dev (fun d => d.modClk (fun c => { c with imageLoaded := true })) s0).dev 5,
    rfl, (by decide +kernel), (by decide +kernel)⟩

theorem witness_SinterCommandsComplete_1 : ∃ (s : State) (c : Ctx) (d : Dev) (first : Nat) (buf : HostBuf) (l : List SntRec),
    (ready s.dev c.ring false none) ∧ (d = fetched s.dev c.ring) ∧ (64 ≤ buf.len ∧ d.bit Fld.SNT_STATUS_CLEARING = false ∧
    l = d.sntHeld.filter (fun r => decide (first ≤ r.seq)) ∧ 32 + 32 * l.length ≤ buf.len) :=
  ⟨sRsnt, c0, fetched sRsnt.dev 0, 5, ⟨0x1000, 64⟩, [snt0 9],
    (by unfold ready; decide +kernel), rfl, (by decide +kernel)⟩

theorem witness_SinterCommandsComplete_2 : ∃ (s : State) (c : Ctx) (d : Dev) (first : Nat) (buf : HostBuf),
    (ready s.dev c.ring false none) ∧ (d = fetched s.dev c.ring) ∧ (buf.len < 64 ∨ d.bit Fld.SNT_STATUS_CLEARING = true) :=
  ⟨sRsnt, c0, fetched sRsnt.dev 0, 5, ⟨0x1000, 63⟩,
    (by unfold ready; decide +kernel), rfl, (by decide +kernel)⟩

theorem witness_SinterCommandsComplete_3 : ∃ (s : State) (c : Ctx) (d : Dev) (id counter upTo maxSev steps st : Nat) (tag : Bytes),
    (ready s.dev c.ring true none) ∧ (d = fetched s.dev c.ring) ∧ (clearReady s.key (later s.dev 0) = true ∧
    clearStatus s.key (later s.dev 0) ⟨id, counter, upTo, maxSev, tag⟩ = st ∧ st ≠ sOk ∧ st ≠ sKeyOrphaned) :=
  ⟨{ sRsnt with key := keyTree }, c0, fetched sRsnt.dev 0, 6, 1001, 9, 3, 5, sAuthFail, [],
    (by unfold ready; decide +kernel), rfl, (by decide +kernel)⟩

theorem witness_SinterCommandsComplete_4 : ∃ (s : State) (c : Ctx) (d : Dev) (id counter upTo maxSev : Nat) (tag : Bytes),
    (d = later s.dev 0) ∧ (ready s.dev c.ring true none ∧ clearReady s.key d = true ∧ clearStatus s.key d ⟨id, counter, upTo, maxSev,
    tag⟩ = sOk) :=
  ⟨{ sRsnt with key := keyTree }, c0, later sRsnt.dev 0, 5, 1001, 9, 3, clearTag0,
    rfl, (by unfold ready; decide +kernel)⟩

theorem witness_SafetyErrorsTakeEffect_1 : ∃ (s : State) (dt cls index diag status level : Nat) (d : Dev), (d = later s.dev dt) ∧
    (0 < cls ∧ cls < eEngineLoss ∧ cls ≠ eSelftest ∧ cls ≠ eLockstep) ∧ (d.saf.queue.length < 16 ∧
    d.saf.queue.all (fun e => decide (e.cls ≠ cls)) = true) :=
  ⟨s0, 5, 8, 3, 5, 0, 0, later s0.dev 5,
    rfl, (by decide +kernel), (by decide +kernel)⟩

theorem witness_SafetyErrorsTakeEffect_2 : ∃ (s : State) (dt cls index diag status level : Nat) (d : Dev), (d = later s.dev dt) ∧
    (0 < cls ∧ cls < eForced ∧ cls ≠ eSelftest ∧ cls ≠ eLockstep) ∧ (d.saf.queue.length < 16 ∧
    d.saf.queue.foldl (fun m e => if e.cls = cls then max m e.level else m) 0 = 1) :=
  ⟨sSaf [err0 1 4 1], 5, 1, 3, 3, 0, 0, later (sSaf [err0 1 4 1]).dev 5,
    rfl, (by decide +kernel), (by decide +kernel)⟩

theorem witness_SafetyErrorsTakeEffect_3 : ∃ (s : State) (dt cls index diag status level : Nat) (d : Dev), (d = later s.dev dt) ∧
    (eClock ≤ cls ∧ cls < eForced ∧ d.saf.queue.length < 16 ∧ d.bit Fld.SAF_STATUS_SAFE = false) ∧
    (d.saf.queue.all (fun e => decide (e.cls ≠ cls)) = true) :=
  ⟨set [(Reg.FUM_PINp 2, 4)] s0, 5, 0x0D, 3, 7, 0, 0, later (set [(Reg.FUM_PINp 2, 4)] s0).dev 5,
    rfl, (by decide +kernel), (by decide +kernel)⟩

theorem witness_SafetyErrorsTakeEffect_4 : ∃ (s : State) (dt cls index diag status level : Nat) (d : Dev), (d = later s.dev dt) ∧
    (0 < cls ∧ cls < eForced ∧ cls ≠ eSelftest ∧ cls ≠ eLockstep ∧ 16 ≤ d.saf.queue.length ∧ d.bit Fld.SAF_STATUS_SAFE = false) :=
  ⟨sSaf (List.replicate 16 (err0 1 4 1)), 5, 8, 3, 5, 0, 0, later (sSaf (List.replicate 16 (err0 1 4 1))).dev 5,
    rfl, (by decide +kernel)⟩

theorem witness_SafetyErrorsTakeEffect_5 : ∃ (s : State) (dt diag status level : Nat) (d : Dev), (d = later s.dev dt) ∧
    (d.cyc.running = true ∧ d.saf.queue = [] ∧ d.bit Fld.SAF_STATUS_SAFE = false) :=
  ⟨sCyc id, 5, 4, 0, 0, later (sCyc id).dev 5,
    rfl, (by decide +kernel)⟩

theorem witness_SafetyErrorsTakeEffect_6 : ∃ (s : State) (dt index diag status level : Nat) (d : Dev), (d = later s.dev dt) ∧
    (index < 20 ∧ d.fbit Fld.ENG_RETIRED_ENGINE index = false) :=
  ⟨sSch [] [], 5, 6, 11, 0, 0, later (sSch [] []).dev 5,
    rfl, (by decide +kernel)⟩

theorem witness_SafetyErrorsTakeEffect_7 : ∃ (s : State) (dt cls index diag status level : Nat) (d : Dev), (d = later s.dev dt) ∧
    (cls = 0 ∨ eForced ≤ cls) :=
  ⟨s0, 5, 0x11, 3, 5, 0, 0, later s0.dev 5,
    rfl, (by decide +kernel)⟩

theorem witness_SafetyErrorsTakeEffect_8 : ∃ (s : State) (dt dg index reading corrected : Nat) (d : Dev), (d = later s.dev dt) ∧
    (dg < 15 ∧ dg ≠ 12 ∧ d.saf.failing = []) :=
  ⟨s0, 5, 9, 3, 0, 7, later s0.dev 5,
    rfl, (by decide +kernel)⟩

theorem witness_SafetyErrorsTakeEffect_9 : ∃ (s : State) (dt dg cls index reading corrected : Nat) (d : Dev), (d = later s.dev dt) ∧
    (diagClass dg = some cls ∧ initialLevel cls = 2 ∧ d.saf.failing.contains (dg, index % 65536) = false) ∧ (d.saf.queue.length < 16 ∧
    d.saf.queue.all (fun e => decide (e.cls ≠ cls)) = true) :=
  ⟨s0, 5, 5, 8, 3, 0, 7, later s0.dev 5,
    rfl, (by decide +kernel), (by decide +kernel)⟩

theorem witness_SafetyErrorsTakeEffect_10 : ∃ (s : State) (dt dg cls index reading corrected : Nat) (d : Dev), (d = later s.dev dt) ∧
    (diagClass dg = some cls ∧ dg ≠ 14 ∧ d.saf.failing.contains (dg, index % 65536) = true) :=
  ⟨dev (fun d => d.modSaf (fun q => { q with failing := [(5, 3)] })) s0, 5, 5, 8, 3, 0, 7,
    later (dev (fun d => d.modSaf (fun q => { q with failing := [(5, 3)] })) s0).dev 5,
    rfl, (by decide +kernel)⟩

theorem witness_SafetyErrorsTakeEffect_11 : ∃ (s : State) (dt dg cls index reading corrected : Nat) (d : Dev) (e : ErrEntry),
    (d = later s.dev dt) ∧ (diagClass dg = some cls ∧ dg ≠ 14 ∧ d.saf.failing = [(dg, index % 65536)]) ∧ (d.saf.queue = [e] ∧
    e.cls = cls ∧ e.index = index % 65536 ∧ e.level = 2 ∧ e.clearAt = none) :=
  ⟨dev (fun d => d.modSaf (fun q => { q with failing := [(5, 3)] })) (sSaf [{ err0 8 3 2 with clearAt := none }]), 5, 5, 8, 3, 0, 7,
    later (dev (fun d => d.modSaf (fun q => { q with failing := [(5, 3)] })) (sSaf [{ err0 8 3 2 with clearAt := none }])).dev 5,
    { err0 8 3 2 with clearAt := none },
    rfl, (by decide +kernel), (by decide +kernel)⟩

theorem witness_SafetyErrorsTakeEffect_12 : ∃ (s : State) (dt index : Nat) (d : Dev) (e : ErrEntry), (d = later s.dev dt) ∧
    (d.saf.recoveryTests = [] ∧ d.saf.queue = [e] ∧ e.cls = eDeDisagree ∧ e.index = index ∧ e.level = 1 ∧ e.clearAt = none) :=
  ⟨sSaf [{ err0 5 3 1 with clearAt := none }], 5, 3, later (sSaf [{ err0 5 3 1 with clearAt := none }]).dev 5,
    { err0 5 3 1 with clearAt := none },
    rfl, (by decide +kernel)⟩

theorem witness_SafetyErrorsTakeEffect_13 : ∃ (s : State) (dt index n : Nat) (d : Dev) (rest : List Nat), (d = later s.dev dt) ∧
    (d.saf.recoveryTests = n :: rest) :=
  ⟨dev (fun d => d.modSaf (fun q => { q with recoveryTests := [0, 1] })) (sSaf [{ err0 5 3 1 with clearAt := none }]), 5, 3, 0,
    later (dev (fun d => d.modSaf (fun q => { q with recoveryTests := [0, 1] })) (sSaf [{ err0 5 3 1 with clearAt := none }])).dev 5,
    [1],
    rfl, (by decide +kernel)⟩

theorem witness_SafetyErrorsTakeEffect_14 : ∃ (s : State) (dt seq since : Nat) (d : Dev) (e : ErrEntry) (l1 l2 : List ErrEntry),
    (d = later s.dev dt) ∧ (d.saf.queue = l1 ++ e :: l2 ∧ e.seq = seq ∧ (l1 ++ l2).all (fun x => decide (x.seq ≠ seq)) = true ∧
    l1.length + l2.length < 32) ∧ (e.level < 3 ∧ e.clearAt = some since ∧ since + d.fld Fld.SAF_CFG_CLOSE_MS * 1000000 ≤ d.up) :=
  ⟨sSaf [err0 8 3 2], 100000000, 0, 0, later (sSaf [err0 8 3 2]).dev 100000000, err0 8 3 2, [], [],
    rfl, (by decide +kernel), (by decide +kernel)⟩

theorem witness_SafetyErrorsTakeEffect_15 : ∃ (s : State) (dt seq : Nat) (d : Dev), (d = later s.dev dt) ∧
    (d.saf.queue.all (fun e => decide (e.seq ≠ seq ∨ e.level = 3 ∨ e.clearAt = none)) = true) :=
  ⟨sSaf [err0 8 3 3], 100000000, 0, later (sSaf [err0 8 3 3]).dev 100000000,
    rfl, (by decide +kernel)⟩

theorem witness_SafetyTestsTakeEffect_1 : ∃ (s : State) (dt e : Nat) (d : Dev), (d = later s.dev dt) ∧ (d.saf.testing = none ∧
    d.testDue e = true ∧ e < 16 ∧ e ≠ d.fld Fld.ENG_STATUS_SPARE ∧ d.fbit Fld.ENG_STATUS_PE_ACTIVE e = true) ∧
    (d.engineBusy e = false ∧ d.fbit Fld.ENG_RETIRED_ENGINE e = false ∧ d.bit Fld.ENG_STATUS_NO_SPARE = false ∧
    d.sch.sparePending = false) :=
  ⟨sSch [] [], 600000000000, 4, later (sSch [] []).dev 600000000000,
    rfl, (by decide +kernel), (by decide +kernel)⟩

theorem witness_SafetyTestsTakeEffect_2 : ∃ (s : State) (dt e : Nat) (d : Dev), (d = later s.dev dt) ∧ (d.saf.testing = none ∧
    d.testDue (16 + e) = true ∧ e < 4 ∧ d.fbit Fld.ENG_STATUS_DE_ACTIVE e = true ∧ 2 ≤ d.deCount) ∧ (d.engineBusy (16 + e) = false ∧
    d.fbit Fld.ENG_RETIRED_ENGINE (16 + e) = false) :=
  ⟨(sSch [] []), 600000000000, 2, later (sSch [] []).dev 600000000000,
    rfl, (by decide +kernel), (by decide +kernel)⟩

theorem witness_SafetyTestsTakeEffect_3 : ∃ (s : State) (dt e : Nat) (d : Dev), (d = later s.dev dt) ∧ (d.testDue e = false) :=
  ⟨sSch [] [], 5, 4, later (sSch [] []).dev 5,
    rfl, (by decide +kernel)⟩

theorem witness_SafetyTestsTakeEffect_4 : ∃ (s : State) (dt e : Nat) (d : Dev), (d = later s.dev dt) ∧ (d.saf.testing = some e ∧
    e < 16 ∧ e ≠ d.fld Fld.ENG_STATUS_SPARE) :=
  ⟨dev (fun d => d.modSaf (fun q => { q with testing := some 4 })) (sSch [] []), 5, 4,
    later (dev (fun d => d.modSaf (fun q => { q with testing := some 4 })) (sSch [] [])).dev 5,
    rfl, (by decide +kernel)⟩

theorem witness_SafetyTestsTakeEffect_5 : ∃ (s : State) (dt e : Nat) (d : Dev), (d = later s.dev dt) ∧ (d.saf.testing = some (16 + e) ∧
    e < 4 ∧ d.saf.recoveryTests = []) :=
  ⟨dev (fun d => d.modSaf (fun q => { q with testing := some 18 })) (sSch [] []), 5, 2,
    later (dev (fun d => d.modSaf (fun q => { q with testing := some 18 })) (sSch [] [])).dev 5,
    rfl, (by decide +kernel)⟩

theorem witness_SafetyTestsTakeEffect_6 : ∃ (s : State) (dt e : Nat) (d : Dev), (d = later s.dev dt) ∧ (d.saf.testing = some e ∧
    e < 20) :=
  ⟨dev (fun d => d.modSaf (fun q => { q with testing := some 4 })) (sSch [] []), 5, 4,
    later (dev (fun d => d.modSaf (fun q => { q with testing := some 4 })) (sSch [] [])).dev 5,
    rfl, (by decide +kernel)⟩

theorem witness_SafetyTestsTakeEffect_7 : ∃ (s : State) (dt : Nat) (d : Dev), (d = later s.dev dt) ∧ (d.clk.imageLoaded = true ∧
    50 ≤ d.hbAge ∧ d.bit Fld.SAF_STATUS_MGMT_STALL = false) :=
  ⟨dev (fun d => d.modClk (fun c => { c with imageLoaded := true })) s0, 50000000,
    later (dev (fun d => d.modClk (fun c => { c with imageLoaded := true })) s0).dev 50000000,
    rfl, (by decide +kernel)⟩

theorem witness_SafetyTestsTakeEffect_8 : ∃ (s : State) (dt : Nat) (d : Dev), (d = later s.dev dt) ∧ (d.hbAge < 50) :=
  ⟨dev (fun d => d.modClk (fun c => { c with imageLoaded := true })) s0, 49999999,
    later (dev (fun d => d.modClk (fun c => { c with imageLoaded := true })) s0).dev 49999999,
    rfl, (by decide +kernel)⟩

theorem witness_SafetyTestsTakeEffect_9 : ∃ (s : State) (dt : Nat) (d : Dev), (d = later s.dev dt) ∧ (d.restartDue = true) :=
  ⟨dev (fun d => d.modSaf (fun q => { q with mcRestart := true })) (dev (fun d => d.modHif (fun h => { h with waiting := [wReacq] }))
    s0), 5, later (dev (fun d => d.modSaf (fun q => { q with mcRestart := true })) (dev (fun d => d.modHif (fun h =>
    { h with waiting := [wReacq] })) s0)).dev 5,
    rfl, (by decide +kernel)⟩

theorem witness_SafetyTestsTakeEffect_10 : ∃ (s : State) (dt ms : Nat) (d : Dev), (d = later s.dev dt) ∧ (d.saf.proof = none ∧
    d.fld Fld.SAF_CFG_PROOF_HOURS ≠ 0 ∧ d.saf.queue = []) ∧
    (max d.saf.proofAutoAt d.tim.releasedAt + d.fld Fld.SAF_CFG_PROOF_HOURS * 3600000000000 ≤ d.up) :=
  ⟨set [(Reg.SAF_CFG, 0x14180064)] s0, 86400000000000, 3, later (set [(Reg.SAF_CFG, 0x14180064)] s0).dev 86400000000000,
    rfl, (by decide +kernel), (by decide +kernel)⟩

theorem witness_SafetyTestsTakeEffect_11 : ∃ (s : State) (dt n fails ms : Nat) (d : Dev) (p : ProofSt), (d = later s.dev dt) ∧
    (d.saf.proof = some p ∧ n < 12 ∧ p.todo = 2 ^ n ∧ fails.testBit n = true ∧ d.saf.queue = []) :=
  ⟨dev (fun d => d.modSaf (fun q => { q with proof := some ⟨0, 4, 0, 0⟩ })) s0, 5, 2, 4, 3,
    later (dev (fun d => d.modSaf (fun q => { q with proof := some ⟨0, 4, 0, 0⟩ })) s0).dev 5, ⟨0, 4, 0, 0⟩,
    rfl, (by decide +kernel)⟩

theorem witness_SafetyTestsTakeEffect_12 : ∃ (s : State) (dt n fails ms : Nat) (d : Dev) (p : ProofSt), (d = later s.dev dt) ∧
    (d.saf.proof = some p ∧ n < 12 ∧ p.todo = 2 ^ n ∧ d.proofBlocked p n = true ∧ p.interrupted.testBit n = true) :=
  ⟨dev (fun d => d.modSaf (fun q => { q with proof := some ⟨0, 4, 0, 4⟩ })) (sSaf [err0 2 3 1]), 5, 2, 4, 3,
    later (dev (fun d => d.modSaf (fun q => { q with proof := some ⟨0, 4, 0, 4⟩ })) (sSaf [err0 2 3 1])).dev 5, ⟨0, 4, 0, 4⟩,
    rfl, (by decide +kernel)⟩

theorem witness_SafetyCommandsComplete_1 : ∃ (s : State) (c : Ctx) (d : Dev) (buf : HostBuf), (ready s.dev c.ring false none) ∧
    (d = fetched s.dev c.ring) ∧ (384 ≤ buf.len) :=
  ⟨sRsaf, c0, fetched sRsaf.dev 0, ⟨0x1000, 384⟩,
    (by unfold ready; decide +kernel), rfl, (by decide +kernel)⟩

theorem witness_SafetyCommandsComplete_2 : ∃ (s : State) (c : Ctx) (d : Dev) (buf : HostBuf), (ready s.dev c.ring false none) ∧
    (d = fetched s.dev c.ring) ∧ (buf.len < 384) :=
  ⟨sRsaf, c0, fetched sRsaf.dev 0, ⟨0x1000, 383⟩,
    (by unfold ready; decide +kernel), rfl, (by decide +kernel)⟩

theorem witness_SafetyCommandsComplete_3 : ∃ (s : State) (c : Ctx) (d : Dev) (mask : Nat), (ready s.dev c.ring true none) ∧
    (d = fetched s.dev c.ring) ∧ (0 < mask ∧ mask < 4096 ∧ d.saf.proof = none) :=
  ⟨sR, c0, fetched sR.dev 0, 4,
    (by unfold ready; decide +kernel), rfl, (by decide +kernel)⟩

theorem witness_SafetyCommandsComplete_4 : ∃ (s : State) (c : Ctx) (d : Dev) (mask : Nat), (ready s.dev c.ring true none) ∧
    (d = fetched s.dev c.ring) ∧ (mask < 4096 ∧ d.saf.proof ≠ none) :=
  ⟨dev (fun d => d.modSaf (fun q => { q with proof := some ⟨0, 4, 0, 0⟩ })) sR, c0,
    fetched (dev (fun d => d.modSaf (fun q => { q with proof := some ⟨0, 4, 0, 0⟩ })) sR).dev 0, 4,
    (by unfold ready; decide +kernel), rfl, (by decide +kernel)⟩

theorem witness_SafetyCommandsComplete_5 : ∃ (s : State) (c : Ctx) (d : Dev) (confirm : Nat), (ready s.dev c.ring false none) ∧
    (d = fetched s.dev c.ring) ∧ (confirm ≠ 0x53414645) :=
  ⟨sR, c0, fetched sR.dev 0, 4,
    (by unfold ready; decide +kernel), rfl, (by decide +kernel)⟩

theorem witness_SafetyCommandsComplete_6 : ∃ (s : State) (c : Ctx) (d : Dev), (d = later s.dev 0) ∧ (ready s.dev c.ring false none ∧
    d.bit Fld.SAF_STATUS_SAFE = false ∧ d.saf.queue.length < 16 ∧ d.saf.queue.all (fun e => decide (e.cls ≠ eForced)) = true) :=
  ⟨sR, c0, later sR.dev 0,
    rfl, (by unfold ready; decide +kernel)⟩

theorem witness_ResetsTakeEffect_1 : ∃ (s : State) (dt : Nat) (pfwLow testEn : Bool) (d : Dev), (d = later s.dev dt) :=
  ⟨sSaf [err0 8 3 2], 5, false, true, later (sSaf [err0 8 3 2]).dev 5,
    rfl⟩

theorem witness_ResetsTakeEffect_2 : ∃ (s : State) (dt rail : Nat) (d : Dev), (d = later s.dev dt) ∧ (rail < 8) :=
  ⟨sSaf [err0 8 3 2], 5, 3, later (sSaf [err0 8 3 2]).dev 5,
    rfl, (by decide +kernel)⟩

theorem witness_ResetsTakeEffect_3 : ∃ (s : State) (dt rail : Nat) (d : Dev), (d = later s.dev dt) ∧ (8 ≤ rail) :=
  ⟨s0, 5, 8, later s0.dev 5,
    rfl, (by decide +kernel)⟩

theorem witness_ResetsTakeEffect_4 : ∃ (s : State) (c : Ctx) (d : Dev), (d = later s.dev 0) ∧ (d.offers c.ring = true ∧
    d.bit Fld.NRG_CFG_PFW_EN = false ∧ d.finalSaving = false) :=
  ⟨sR, c0, later sR.dev 0,
    rfl, (by decide +kernel)⟩

theorem witness_ResetsTakeEffect_5 : ∃ (s : State) (c : Ctx) (d : Dev), (d = later s.dev 0) ∧ (d.offers c.ring = true ∧
    d.bit Fld.NRG_CFG_PFW_EN = false ∧ d.finalSaving = false ∧ d.ratioBreaks = false) :=
  ⟨set [(Reg.CLK_DIV, 0xA84), (Reg.SAF_CAUSE, 8)] sR, c0, later (set [(Reg.CLK_DIV, 0xA84), (Reg.SAF_CAUSE, 8)] sR).dev 0,
    rfl, (by decide +kernel)⟩

theorem witness_ResetsTakeEffect_6 : ∃ (s : State) (c : Ctx) (d : Dev), (d = later s.dev 0) ∧ (d.offers c.ring = true ∧
    d.bit Fld.NRG_CFG_PFW_EN = false ∧ d.finalSaving = false ∧ d.ratioBreaks = true) :=
  ⟨set [(Reg.CLK_DIV, 0x9F5)] sR, c0, later (set [(Reg.CLK_DIV, 0x9F5)] sR).dev 0,
    rfl, (by decide +kernel)⟩

theorem witness_ResetsTakeEffect_7 : ∃ (s : State) (c : Ctx) (d : Dev), (d = later s.dev 0) ∧ (d.offers c.ring = true ∧
    d.clk.ratioBroken = false) ∧ (d.bit Fld.NRG_CFG_PFW_EN = true ∧ d.bit Fld.NRG_CTRL_EN = true ∧ d.validPoints ≠ [] ∧
    d.finalSaving = false) :=
  ⟨set [(Reg.NRG_CFG, 0x4000)] sRnrg, c0, later (set [(Reg.NRG_CFG, 0x4000)] sRnrg).dev 0,
    rfl, (by decide +kernel), (by decide +kernel)⟩

theorem witness_ResetsTakeEffect_8 : ∃ (s : State) (c : Ctx) (confirm : Nat) (d : Dev), (d = later s.dev 0) ∧ (d.offers c.ring = true ∧
    confirm ≠ 0x52535451 ∧ d.clk.ratioBroken = false) :=
  ⟨sR, c0, 5, later sR.dev 0,
    rfl, (by decide +kernel)⟩

theorem witness_ResetsTakeEffect_9 : ∃ (s : State) (c : Ctx) (confirm : Nat) (d : Dev), (d = later s.dev 0) ∧ (d.offers c.ring = true ∧
    confirm ≠ 0x52535451) :=
  ⟨sR, c0, 5, later sR.dev 0,
    rfl, (by decide +kernel)⟩

theorem witness_ResetsTakeEffect_10 : ∃ (s : State) (dt : Nat) (d : Dev) (bad : List Nat), (d = later s.dev dt) ∧ (d.clk.resetPending =
    none ∧ d.clk.ratioBroken = false ∧ d.nrg.finalDue = false ∧ d.finalSaving = false) :=
  ⟨s0, 5, later s0.dev 5, [3],
    rfl, (by decide +kernel)⟩

theorem witness_ResetsTakeEffect_11 : ∃ (s : State) (dt p : Nat) (d : Dev) (a : Nat) (x : SaveSlot) (bad : List Nat), (d = later s.dev dt)
    ∧ (d.clk.resetPending = none ∧ d.clk.ratioBroken = false ∧ d.nrg.finalDue = false ∧ p < 16 ∧ (d.point p).saving = some (a, true, x)) ∧
    ((List.range 16).all (fun n => decide (n = p) || (d.point n).saving.isNone) = true) ∧ (bad.contains p = false) :=
  ⟨sNrgPt (some (1, true, save0)), 5, 1, later (sNrgPt (some (1, true, save0))).dev 5, 1, save0, [],
    rfl, (by decide +kernel), (by decide +kernel), (by decide +kernel)⟩

theorem witness_ResetsTakeEffect_12 : ∃ (s : State) (dt p : Nat) (d : Dev) (a : Nat) (x : SaveSlot) (bad : List Nat), (d = later s.dev dt)
    ∧ (d.clk.resetPending = none ∧ d.clk.ratioBroken = false ∧ d.nrg.finalDue = false ∧ p < 16 ∧ (d.point p).saving = some (a, true, x)) ∧
    ((List.range 16).all (fun n => decide (n = p) || (d.point n).saving.isNone) = true) ∧ (bad.contains p = true) :=
  ⟨sNrgPt (some (1, true, save0)), 5, 1, later (sNrgPt (some (1, true, save0))).dev 5, 1, save0, [1],
    rfl, (by decide +kernel), (by decide +kernel), (by decide +kernel)⟩

theorem witness_ResetsTakeEffect_13 : ∃ (s : State) (dt : Nat) (d : Dev) (bad : List Nat), (d = later s.dev dt) ∧ (d.clk.resetPending =
    some 1 ∧ d.finalSaving = false) :=
  ⟨dev (fun d => d.modClk (fun x => { x with resetPending := some 1 })) s0, 5, later (dev (fun d => d.modClk (fun x =>
    { x with resetPending := some 1 })) s0).dev 5, [],
    rfl, (by decide +kernel)⟩

theorem witness_ResetsTakeEffect_14 : ∃ (s : State) (dt : Nat) (d : Dev), (d = later s.dev dt) ∧ (d.clk.pfw = false ∧
    d.joined = false) :=
  ⟨s0, 5, later s0.dev 5,
    rfl, (by decide +kernel)⟩

theorem witness_ResetsTakeEffect_15 : ∃ (s : State) (dt : Nat) (d : Dev), (d = later s.dev dt) ∧ (d.clk.pfw = true) :=
  ⟨dev (fun d => d.setPfw true) s0, 5, later (dev (fun d => d.setPfw true) s0).dev 5,
    rfl, (by decide +kernel)⟩

theorem witness_ResetsTakeEffect_16 : ∃ (s : State) (dt : Nat) (d : Dev), (d = later s.dev dt) :=
  ⟨dev (fun d => d.setPfw true) s0, 5, later (dev (fun d => d.setPfw true) s0).dev 5,
    rfl⟩

theorem witness_ResetsTakeEffect_17 : ∃ (s : State) (dt : Nat) (d : Dev), (d = later s.dev dt) ∧ (d.rescueDue = true) :=
  ⟨sClk [] (fun x => { x with noImage := true }), 5, later (sClk [] (fun x => { x with noImage := true })).dev 5,
    rfl, (by decide +kernel)⟩

theorem witness_ResetsTakeEffect_18 : ∃ (s : State) (dt : Nat) (d : Dev), (d = later s.dev dt) ∧ (d.rescueDue = false) :=
  ⟨s0, 5, later s0.dev 5,
    rfl, (by decide +kernel)⟩

theorem witness_StartUpTakesEffect_1 : ∃ (s : State) (dt : Nat) (gates : List Int) (d : Dev), (d = later s.dev dt) ∧
    (d.judgeOf 0 = .notJudged ∧ d.clk.judge.length = 2 ∧ d.clk.held = false ∧ d.bit Fld.CLK_STATUS_RESCUE = false ∧
    d.bit Fld.CLK_STATUS_PLL_LOCK = false ∧ judgeGates gates = .passed) :=
  ⟨s0, 5, [100, 120, 90, 100], later s0.dev 5,
    rfl, (by decide +kernel)⟩

theorem witness_StartUpTakesEffect_2 : ∃ (s : State) (dt : Nat) (gates : List Int) (d : Dev), (d = later s.dev dt) ∧
    (d.judgeOf 0 = .notJudged ∧ d.clk.judge.length = 2 ∧ d.clk.held = false ∧ d.bit Fld.CLK_STATUS_RESCUE = false ∧
    d.bit Fld.CLK_STATUS_PLL_LOCK = false ∧ judgeGates gates ≠ .passed) :=
  ⟨s0, 5, [100, 400, 90, 100], later s0.dev 5,
    rfl, (by decide +kernel)⟩

theorem witness_StartUpTakesEffect_3 : ∃ (s : State) (dt : Nat) (gates : List Int) (d : Dev), (d = later s.dev dt) ∧
    (d.judgeOf 0 = .outside ∧ d.judgeOf 1 = .notJudged ∧ d.clk.judge.length = 2 ∧ d.clk.held = false ∧
    d.bit Fld.CLK_STATUS_RESCUE = false ∧ d.bit Fld.CLK_STATUS_PLL_LOCK = false ∧ judgeGates gates = .passed) :=
  ⟨sClk [] (fun x => { x with judge := [.outside, .notJudged] }), 5, [0, 0, 0, 0],
    later (sClk [] (fun x => { x with judge := [.outside, .notJudged] })).dev 5,
    rfl, (by decide +kernel)⟩

theorem witness_StartUpTakesEffect_4 : ∃ (s : State) (dt : Nat) (gates : List Int) (d : Dev), (d = later s.dev dt) ∧
    (d.judgeOf 0 = .noOscillation ∧ d.judgeOf 1 = .notJudged ∧ d.clk.judge.length = 2 ∧ d.clk.held = false ∧
    d.bit Fld.CLK_STATUS_RESCUE = false ∧ d.bit Fld.CLK_STATUS_PLL_LOCK = false ∧ d.clk.vcoHold = false ∧ judgeGates gates ≠ .passed) :=
  ⟨sClk [] (fun x => { x with judge := [.noOscillation, .notJudged] }), 5, [],
    later (sClk [] (fun x => { x with judge := [.noOscillation, .notJudged] })).dev 5,
    rfl, (by decide +kernel)⟩

theorem witness_StartUpTakesEffect_5 : ∃ (s : State) (dt : Nat) (gates : List Int) (d : Dev), (d = later s.dev dt) ∧
    (d.judgeOf 1 = .notJudged ∧ d.clk.judge.length = 2 ∧ d.clk.held = false ∧ d.bit Fld.CLK_STATUS_RESCUE = false ∧
    d.bit Fld.CLK_STATUS_PLL_LOCK = true ∧ judgeGates gates = .passed) :=
  ⟨sClk [(Reg.CLK_STATUS, 0xA)] id, 5, [0, 0, 0, 0], later (sClk [(Reg.CLK_STATUS, 0xA)] id).dev 5,
    rfl, (by decide +kernel)⟩

theorem witness_StartUpTakesEffect_6 : ∃ (s : State) (dt : Nat) (d : Dev), (d = later s.dev dt) ∧ (d.clk.vcoHold = false ∧
    d.bit Fld.CLK_STATUS_PLL_LOCK = false ∧ d.judgeOf (d.fld Fld.CLK_STATUS_ROOT) = .passed ∧ d.fld Fld.RST_STATUS_START_STEP = 4 ∧
    d.clk.discovered = false) :=
  ⟨sClk [(Reg.RST_STATUS, 0x400)] (fun x => { x with judge := [.passed, .notJudged] }), 5, later (sClk [(Reg.RST_STATUS,
    0x400)] (fun x => { x with judge := [.passed, .notJudged] })).dev 5,
    rfl, (by decide +kernel)⟩

theorem witness_StartUpTakesEffect_7 : ∃ (s : State) (dt : Nat) (d : Dev), (d = later s.dev dt) ∧ (d.clk.vcoHold = true ∧
    d.judgeOf (1 - d.fld Fld.CLK_STATUS_ROOT) = .passed) :=
  ⟨sClk [] (fun x => { x with vcoHold := true, judge := [.noOscillation, .passed] }), 5,
    later (sClk [] (fun x => { x with vcoHold := true, judge := [.noOscillation, .passed] })).dev 5,
    rfl, (by decide +kernel)⟩

theorem witness_StartUpTakesEffect_8 : ∃ (s : State) (dt : Nat) (d : Dev), (d = later s.dev dt) ∧ (d.clk.vcoHold = false ∧
    d.bit Fld.CLK_STATUS_PLL_LOCK = true ∧ d.saf.queue.all (fun e => decide (e.cls ≠ eClock)) = true) :=
  ⟨sClk [(Reg.CLK_STATUS, 0xA)] id, 5, later (sClk [(Reg.CLK_STATUS, 0xA)] id).dev 5,
    rfl, (by decide +kernel)⟩

theorem witness_StartUpTakesEffect_9 : ∃ (s : State) (dt : Nat) (d : Dev), (d = later s.dev dt) ∧
    (d.bit Fld.CLK_STATUS_PLL_LOCK = false) :=
  ⟨s0, 5, later s0.dev 5,
    rfl, (by decide +kernel)⟩

theorem witness_StartUpTakesEffect_10 : ∃ (s : State) (dt n : Nat) (gates : List Int) (d : Dev), (d = later s.dev dt) ∧
    (d.bit Fld.CLK_STATUS_PLL_LOCK = true ∧ d.clk.vcoHold = false ∧ n = d.fld Fld.CLK_STATUS_ROOT ∧ d.judgeOf n ≠ .notJudged ∧
    d.clk.judgedAt.length = 2 ∧ d.clk.judge.length = 2) ∧ ((d.clk.judgedAt[n]?).getD 0 + 60000000000 ≤ d.up ∧
    judgeGates gates = .passed) :=
  ⟨sClk [(Reg.CLK_STATUS, 0xA)] (fun x => { x with judge := [.passed, .passed] }), 60000000000, 0, [-3, -3, -3, -3],
    later (sClk [(Reg.CLK_STATUS, 0xA)] (fun x => { x with judge := [.passed, .passed] })).dev 60000000000,
    rfl, (by decide +kernel), (by decide +kernel)⟩

theorem witness_StartUpTakesEffect_11 : ∃ (s : State) (dt n : Nat) (gates : List Int) (d : Dev), (d = later s.dev dt) ∧
    (d.bit Fld.CLK_STATUS_PLL_LOCK = true ∧ d.clk.vcoHold = false ∧ n = d.fld Fld.CLK_STATUS_ROOT ∧ d.judgeOf n ≠ .notJudged) ∧
    ((d.clk.judgedAt[n]?).getD 0 + 60000000000 ≤ d.up ∧ judgeGates gates ≠ .passed ∧
    d.saf.queue.all (fun e => decide (e.cls ≠ eClock)) = true) :=
  ⟨sClk [(Reg.CLK_STATUS, 0xA)] (fun x => { x with judge := [.passed, .passed] }), 60000000000, 0, [-5001, -5001, -5001, -5001],
    later (sClk [(Reg.CLK_STATUS, 0xA)] (fun x => { x with judge := [.passed, .passed] })).dev 60000000000,
    rfl, (by decide +kernel), (by decide +kernel)⟩

theorem witness_StartUpTakesEffect_12 : ∃ (s : State) (dt : Nat) (d : Dev), (d = later s.dev dt) ∧ (d.clk.discovered = false ∧
    d.bit Fld.CLK_STATUS_RESCUE = false ∧ d.bit Fld.CLK_STATUS_PLL_LOCK = true) :=
  ⟨sClk [(Reg.CLK_STATUS, 0xA)] id, 5, later (sClk [(Reg.CLK_STATUS, 0xA)] id).dev 5,
    rfl, (by decide +kernel)⟩

theorem witness_StartUpTakesEffect_13 : ∃ (s : State) (dt : Nat) (b : Bytes) (d : Dev), (d = later s.dev dt) ∧
    (d.clk.discovered = false ∧ d.bit Fld.CLK_STATUS_RESCUE = false ∧ d.bit Fld.CLK_STATUS_PLL_LOCK = true) ∧ (b.length = 256 ∧
    idFault 0 b = none) :=
  ⟨sClk [(Reg.CLK_STATUS, 0xA)] id, 5, board0, later (sClk [(Reg.CLK_STATUS, 0xA)] id).dev 5,
    rfl, (by decide +kernel), (by decide +kernel)⟩

theorem witness_StartUpTakesEffect_14 : ∃ (s : State) (dt gib : Nat) (d : Dev), (d = later s.dev dt) ∧
    (d.bit Fld.CLK_STATUS_PLL_LOCK = true ∧ d.bit Fld.RST_STATUS_DDR_READY = false ∧ d.bit Fld.CLK_STATUS_RESCUE = false ∧ gib < 64 ∧
    d.fld Fld.RST_STATUS_LAST_KIND = 2) :=
  ⟨sClk [(Reg.CLK_STATUS, 0xA), (Reg.RST_STATUS, 2)] id, 5, 32, later (sClk [(Reg.CLK_STATUS, 0xA), (Reg.RST_STATUS, 2)] id).dev 5,
    rfl, (by decide +kernel)⟩

theorem witness_StartUpTakesEffect_15 : ∃ (s : State) (dt gib : Nat) (trained : Bool) (d : Dev), (d = later s.dev dt) ∧
    (d.bit Fld.CLK_STATUS_PLL_LOCK = true ∧ d.bit Fld.RST_STATUS_DDR_READY = false ∧ d.bit Fld.CLK_STATUS_RESCUE = false ∧ gib < 64 ∧
    (trained = false ∨ d.fld Fld.RST_STATUS_LAST_KIND ≠ 2)) :=
  ⟨sClk [(Reg.CLK_STATUS, 0xA)] id, 5, 32, true, later (sClk [(Reg.CLK_STATUS, 0xA)] id).dev 5,
    rfl, (by decide +kernel)⟩

theorem witness_StartUpTakesEffect_16 : ∃ (s : State) (dt n : Nat) (d : Dev), (d = later s.dev dt) ∧ (d.clk.keyStarted = true ∧
    d.clk.discovered = true ∧ d.clk.imageLoaded = false ∧ d.bit Fld.CLK_STATUS_RESCUE = false) ∧ (d.inv.nor.length = 2 ∧
    Dev.norPick s.key d = some n ∧ d.fld Fld.ENG_RETIRED_ENGINE = 0 ∧ d.bit Fld.SNT_STATUS_RUNNING = false) :=
  ⟨sNorKey, 5, 0, later sNorKey.dev 5,
    rfl, (by decide +kernel), (by decide +kernel), sNorKey_picks_nor0, (by decide +kernel)⟩

theorem witness_StartUpTakesEffect_17 : ∃ (s : State) (dt failing : Nat) (d : Dev), (d = later s.dev dt) ∧ (d.clk.keyStarted = true ∧
    d.clk.discovered = true ∧ d.clk.imageLoaded = false ∧ d.bit Fld.CLK_STATUS_RESCUE = false) ∧ (d.inv.nor = [none, none]) :=
  ⟨sClk [] (fun x => { x with keyStarted := true, discovered := true }), 5, 0,
    later (sClk [] (fun x => { x with keyStarted := true, discovered := true })).dev 5,
    rfl, (by decide +kernel), (by decide +kernel)⟩

theorem witness_StartUpTakesEffect_18 : ∃ (s : State) (dt : Nat) (d : Dev), (d = later s.dev dt) ∧ (d.clk.discovered = true ∧
    d.clk.keyStarted = true ∧ d.clk.imageLoaded = true ∧ d.bit Fld.SNT_STATUS_RUNNING = true ∧ d.bit Fld.HIF_STATUS_CMD_READY = false ∧
    d.bit Fld.CLK_STATUS_RESCUE = false) :=
  ⟨sClk [(Reg.SNT_STATUS, 1)] (fun x => { x with keyStarted := true, discovered := true, imageLoaded := true }), 240000000,
    later (sClk [(Reg.SNT_STATUS, 1)] (fun x => { x with keyStarted := true, discovered := true, imageLoaded := true })).dev 240000000,
    rfl, (by decide +kernel)⟩

theorem witness_StartUpTakesEffect_19 : ∃ (s : State) (dt : Nat) (d : Dev), (d = later s.dev dt) ∧
    (d.clk.imageLoaded = false ∨ d.bit Fld.SNT_STATUS_RUNNING = false ∨ d.bit Fld.CLK_STATUS_RESCUE = true) :=
  ⟨s0, 5, later s0.dev 5,
    rfl, (by decide +kernel)⟩

theorem witness_InventoryCommandsComplete_1 : ∃ (s : State) (c : Ctx) (d : Dev) (pos : Nat) (buf : HostBuf),
    (ready s.dev c.ring false none) ∧ (d = fetched s.dev c.ring) ∧ (9 < pos ∨ buf.len < 256) :=
  ⟨sR, c0, fetched sR.dev 0, 3, ⟨0x1000, 255⟩,
    (by unfold ready; decide +kernel), rfl, (by decide +kernel)⟩

theorem witness_InventoryCommandsComplete_2 : ∃ (s : State) (c : Ctx) (d : Dev) (pos : Nat) (buf : HostBuf),
    (ready s.dev c.ring false none) ∧ (d = fetched s.dev c.ring) ∧ (pos ≤ 9 ∧ 256 ≤ buf.len ∧ d.answered pos = false) :=
  ⟨sR, c0, fetched sR.dev 0, 3, ⟨0x1000, 256⟩,
    (by unfold ready; decide +kernel), rfl, (by decide +kernel)⟩

theorem witness_InventoryCommandsComplete_3 : ∃ (s : State) (c : Ctx) (d : Dev) (pos : Nat) (buf : HostBuf) (b : Bytes),
    (ready s.dev c.ring false none) ∧ (d = fetched s.dev c.ring) ∧ (pos ≤ 5 ∧ 256 ≤ buf.len ∧
    d.fbit Fld.INV_STATUS_PRESENT pos = true ∧ d.inv.mem.find pos = some b ∧ b.length = 256) :=
  ⟨sRinv, c0, fetched sRinv.dev 0, 0, ⟨0x1000, 256⟩, board0,
    (by unfold ready; decide +kernel), rfl, (by decide), (by decide), (by decide +kernel), rfl, (by decide +kernel)⟩

theorem witness_InventoryCommandsComplete_4 : ∃ (s : State) (c : Ctx) (d : Dev) (pos : Nat) (answers : List Bytes),
    (ready s.dev c.ring false none) ∧ (d = fetched s.dev c.ring) ∧ (5 < pos) :=
  ⟨sR, c0, fetched sR.dev 0, 6, [],
    (by unfold ready; decide +kernel), rfl, (by decide +kernel)⟩

theorem witness_InventoryCommandsComplete_5 : ∃ (s : State) (c : Ctx) (d : Dev) (pos : Nat) (answers : List Bytes),
    (ready s.dev c.ring false none) ∧ (d = fetched s.dev c.ring) ∧ (pos = 0 ∨ (2 ≤ pos ∧ pos ≤ 5 ∧
    d.fbit Fld.ACQ_CTRL_FE_EN (pos - 2) = true)) :=
  ⟨sR, c0, fetched sR.dev 0, 0, [],
    (by unfold ready; decide +kernel), rfl, (by decide +kernel)⟩

theorem witness_InventoryCommandsComplete_6 : ∃ (s : State) (c : Ctx) (d : Dev) (pos : Nat) (answers : List Bytes),
    (ready s.dev c.ring false none) ∧ (d = fetched s.dev c.ring) ∧ (pos = 1 ∨ (2 ≤ pos ∧ pos ≤ 5 ∧
    d.fbit Fld.ACQ_CTRL_FE_EN (pos - 2) = false)) :=
  ⟨sR, c0, fetched sR.dev 0, 1, [board0],
    (by unfold ready; decide +kernel), rfl, (by decide +kernel)⟩

theorem witness_InventoryCommandsComplete_7 : ∃ (s : State) (c : Ctx) (d : Dev) (image : Bytes), (ready s.dev c.ring true none) ∧
    (d = fetched s.dev c.ring) ∧ (67108864 < image.length) :=
  ⟨sR, c0, fetched sR.dev 0, List.replicate 67108865 0,
    (by unfold ready; decide +kernel), rfl, (by rw [List.length_replicate]; decide)⟩

theorem witness_InventoryCommandsComplete_8 : ∃ (s : State) (c : Ctx) (d : Dev) (image : Bytes), (ready s.dev c.ring true none) ∧
    (d = fetched s.dev c.ring) ∧ (image.length ≤ 67108864 ∧ d.inv.norBusy = true) :=
  ⟨sRnor true, c0, fetched (sRnor true).dev 0, [],
    (by unfold ready; decide +kernel), rfl, (by decide +kernel)⟩

theorem witness_InventoryCommandsComplete_9 : ∃ (s : State) (c : Ctx) (d : Dev) (image : Bytes) (new : Bytes),
    (ready s.dev c.ring true none) ∧ (d = fetched s.dev c.ring) ∧ (image.length ≤ 67108864 ∧ d.inv.norBusy = false ∧
    new = norWithSeq image (d.norSeq d.inv.norInUse + 1) ∧ norValid s.key new = true) :=
  ⟨{ sRnor false with key := key0 }, c0, fetched (sRnor false).dev 0, nor0, norWithSeq nor0 4,
    (by unfold ready; decide +kernel), rfl, (by decide +kernel), (by decide +kernel),
    congrArg (norWithSeq nor0) (by decide +kernel), nor0_rewritten_valid⟩

theorem witness_InventoryCommandsComplete_10 : ∃ (s : State) (c : Ctx) (d : Dev) (image : Bytes), (ready s.dev c.ring true none) ∧
    (d = fetched s.dev c.ring) ∧ (image.length ≤ 67108864 ∧ d.inv.norBusy = false ∧
    norValid s.key (norWithSeq image (d.norSeq d.inv.norInUse + 1)) = false) :=
  ⟨sRnor false, c0, fetched (sRnor false).dev 0, [],
    (by unfold ready; decide +kernel), rfl, (by decide +kernel)⟩

theorem witness_RegisterAccessesTakeEffect_1 : ∃ (s : State) (v : Word) (d : Dev), (d = later s.dev 0) ∧ (d.locked = false ∧
    d.bit Fld.CLK_STATUS_RESCUE = false) :=
  ⟨s0, 0x107, later s0.dev 0,
    rfl, (by decide +kernel)⟩

theorem witness_RegisterAccessesTakeEffect_2 : ∃ (s : State) (v : Word) (d : Dev), (d = later s.dev 0) ∧ (d.locked = true ∧
    d.bit Fld.CLK_STATUS_RESCUE = false ∧ v.toNat % 256 ≠ d.fld Fld.CRT_PRED_MAX_EPOCHS) :=
  ⟨dev (fun d => d.setBit Fld.GLB_STATUS_LOCKED true) s0, 7, later (dev (fun d => d.setBit Fld.GLB_STATUS_LOCKED true) s0).dev 0,
    rfl, (by decide +kernel)⟩

theorem witness_RegisterAccessesTakeEffect_3 : ∃ (s : State) (v : Word) (d : Dev), (d = later s.dev 0) ∧ (d.locked = false ∧
    d.bit Fld.CLK_STATUS_RESCUE = false ∧ (v.toNat % 256 < 10 ∨ 240 < v.toNat % 256)) :=
  ⟨set [(Reg.CRT_CFG, 60)] s0, 0x40005, later (set [(Reg.CRT_CFG, 60)] s0).dev 0,
    rfl, (by decide +kernel)⟩

theorem witness_RegisterAccessesTakeEffect_4 : ∃ (s : State) (off : Nat) (v : DWord) (d : Dev), (d = later s.dev 0) ∧ (off % 4 = 0 ∧
    (off ∈ [Reg.CRT_VIEW, Reg.HIF_DB_BAD, Reg.TIM_BOUND] ∨ 0x180000 ≤ off)) :=
  ⟨s0, 0x180004, 7, later s0.dev 0,
    rfl, (by decide +kernel)⟩

theorem witness_RegisterAccessesTakeEffect_5 : ∃ (s : State) (off : Nat) (v : DWord) (d : Dev), (d = later s.dev 0) ∧ (off % 4 = 0 ∧
    d.gatedAt off = true) :=
  ⟨set [(Reg.CLK_GATE_STATUS, 1)] s0, Reg.GEY_CTRL, 1, later (set [(Reg.CLK_GATE_STATUS, 1)] s0).dev 0,
    rfl, (by decide +kernel)⟩

theorem witness_RegisterAccessesTakeEffect_6 : ∃ (s : State) (off size : Nat) (v : DWord) (d : Dev), (d = later s.dev 0) ∧ ((size ≠ 4 ∧
    size ≠ 8) ∨ off % 4 ≠ 0) :=
  ⟨s0, 2, 4, 7, later s0.dev 0,
    rfl, (by decide +kernel)⟩

theorem witness_RegisterAccessesTakeEffect_7 : ∃ (s : State) (n : Nat) (lo hi : Word) (d : Dev), (d = later s.dev 0) ∧ (n < 32 ∧
    d.ringIdle n = true) :=
  ⟨s0, 3, 0x12345678, 9, later s0.dev 0,
    rfl, (by decide +kernel)⟩

theorem witness_RegisterAccessesTakeEffect_8 : ∃ (s : State) (off : Nat) (d : Dev), (d = later s.dev 0) ∧ (off ∈ [Reg.CRT_CFG,
    Reg.CRT_PRED, Reg.GLB_STATUS, Reg.ENG_STATUS, Reg.SAF_CFG] ∧ d.bit Fld.CLK_STATUS_RESCUE = false) :=
  ⟨set [(Reg.CRT_CFG, 60)] s0, Reg.CRT_CFG, later (set [(Reg.CRT_CFG, 60)] s0).dev 0,
    rfl, (by decide +kernel)⟩

theorem witness_RegisterAccessesTakeEffect_9 : ∃ (s : State) (lo : Nat) (d : Dev), (d = later s.dev 0) ∧ (lo ∈ [Reg.ING_FRAMES_LO,
    Reg.CRT_LAST_CONF_LO, Reg.CRT_SEALED_LO] ∧ d.bit Fld.CLK_STATUS_RESCUE = false) :=
  ⟨set [(Reg.ING_FRAMES_LO, 60), (Reg.ING_FRAMES_HI, 2)] s0, Reg.ING_FRAMES_LO, later (set [(Reg.ING_FRAMES_LO, 60),
    (Reg.ING_FRAMES_HI, 2)] s0).dev 0,
    rfl, (by decide +kernel)⟩

theorem witness_RegisterAccessesTakeEffect_10 : ∃ (s : State) (hi : Nat) (w : Word) (d : Dev), (d = later s.dev 0) ∧
    (hi ∈ [Reg.ING_FRAMES_HI, Reg.CRT_LAST_CONF_HI, Reg.CRT_SEALED_HI] ∧ d.bit Fld.CLK_STATUS_RESCUE = false) ∧
    (d.hif.latches.find hi = some w) :=
  ⟨dev (fun d => d.modHif (fun h => { h with latches := [(Reg.ING_FRAMES_HI, 7)] })) s0, Reg.ING_FRAMES_HI, 7,
    later (dev (fun d => d.modHif (fun h => { h with latches := [(Reg.ING_FRAMES_HI, 7)] })) s0).dev 0,
    rfl, (by decide +kernel), (by decide +kernel)⟩

theorem witness_RegisterAccessesTakeEffect_11 : ∃ (s : State) (off : Nat) (d : Dev), (d = later s.dev 0) ∧ (off % 4 = 0 ∧
    d.gatedAt off = true) :=
  ⟨set [(Reg.CLK_GATE_STATUS, 1)] s0, Reg.GEY_CTRL, later (set [(Reg.CLK_GATE_STATUS, 1)] s0).dev 0,
    rfl, (by decide +kernel)⟩

theorem witness_RegisterAccessesTakeEffect_12 : ∃ (s : State) (off size : Nat) (d : Dev), (d = later s.dev 0) ∧ (off < 0x400000 ∧ ((size ≠
    4 ∧ size ≠ 8) ∨ off % 4 ≠ 0)) :=
  ⟨s0, 2, 4, later s0.dev 0,
    rfl, (by decide +kernel)⟩

theorem witness_RegisterAccessesTakeEffect_13 : ∃ (s : State) (n : Nat) (d : Dev), (d = later s.dev 0) ∧ (n < 32) :=
  ⟨sR, 0, later sR.dev 0,
    rfl, (by decide +kernel)⟩

theorem witness_RegisterAccessesTakeEffect_14 : ∃ (s : State) (d : Dev), (d = later s.dev 0) ∧ (d.locked = false) :=
  ⟨s0, later s0.dev 0,
    rfl, (by decide +kernel)⟩

theorem witness_RegisterAccessesTakeEffect_15 : ∃ (s : State) (d : Dev), (d = later s.dev 0) ∧ (d.locked = true) :=
  ⟨dev (fun d => d.setBit Fld.GLB_STATUS_LOCKED true) s0, later (dev (fun d => d.setBit Fld.GLB_STATUS_LOCKED true) s0).dev 0,
    rfl, (by decide +kernel)⟩

theorem witness_RegisterAccessesTakeEffect_16 : ∃ (s : State) (v : Word) (d : Dev), (d = later s.dev 0) ∧ (v ≠ 0x4C4F434B) :=
  ⟨s0, 5, later s0.dev 0,
    rfl, (by decide +kernel)⟩

theorem witness_RegisterAccessesTakeEffect_17 : ∃ (s : State) (mask b : Nat) (d : Dev), (d = later s.dev 0) ∧ (b < 15 ∧
    mask.testBit b = true ∧ d.gateEnabled b = false ∧ d.fbit Fld.CLK_GATE_GATE b = false) :=
  ⟨s0, 4, 2, later s0.dev 0,
    rfl, (by decide +kernel)⟩

theorem witness_RegisterAccessesTakeEffect_18 : ∃ (s : State) (mask b : Nat) (d : Dev), (d = later s.dev 0) ∧ (b < 15 ∧
    mask.testBit b = true ∧ d.gateEnabled b = true ∧ d.fbit Fld.CLK_GATE_GATE b = false) :=
  ⟨dev (fun d => d.setBit Fld.GEY_CTRL_EN true) s0, 1, 0, later (dev (fun d => d.setBit Fld.GEY_CTRL_EN true) s0).dev 0,
    rfl, (by decide +kernel)⟩

theorem witness_RegisterAccessesTakeEffect_19 : ∃ (s : State) (dt b : Nat) (d : Dev), (d = later s.dev dt) ∧ (b < 15 ∧
    d.clk.gateHeld.testBit b = true) :=
  ⟨sClk [] (fun c => { c with gateHeld := 6 }), 9, 2, later (sClk [] (fun c => { c with gateHeld := 6 })).dev 9,
    rfl, (by decide +kernel)⟩

theorem witness_RegisterAccessesTakeEffect_20 : ∃ (s : State) (dt b : Nat) (d : Dev), (d = later s.dev dt) ∧
    (d.clk.gateHeld.testBit b = false) :=
  ⟨s0, 9, 2, later s0.dev 9,
    rfl, (by decide +kernel)⟩

theorem witness_RegisterAccessesTakeEffect_21 : ∃ (s : State) (mask b : Nat) (d : Dev), (d = later s.dev 0) ∧ (b < 15 ∧
    mask.testBit b = true) :=
  ⟨sClk [(Reg.CLK_GATE, 5), (Reg.CLK_GATE_STATUS, 5)] id, 4, 2, later (sClk [(Reg.CLK_GATE, 5), (Reg.CLK_GATE_STATUS, 5)] id).dev 0,
    rfl, (by decide +kernel)⟩

/-- A device whose Crater runs, one second after the PTP epoch, with what is given of its epochs; and the same in a view of two. -/
def sE (f : CrtSt → CrtSt) : State := dev (fun d => (d.modTim (fun t => { t with acc := 2 ^ 40 * 1000000000 })).modCrt f) sC
def sE2 (f : CrtSt → CrtSt) : State := dev (fun d => (d.setBit Fld.FAB_STATUS_JOINED true).modFab (fun x =>
  { x with views := [{ num := 3, fromEpoch := 0, members := 3, summit := 0, minority := false }] })) (sE f)

/-- A sealed epoch with the record of stream 9; a confirmation; a snapshot in the history buffer; a late record's amendment. -/
def sealed9 : SealInfo := { seal0 with index := [(9, { rec0 with qual := 2 })], refill := [9], published := [(9, { rec0 with qual := 2 })] }
def conf0 : ConfInfo :=
  { at_ := 5, view := 0, viewChanged := false, members := 1, entries := [], sums := [], recs := [(9, rec0)], diff := 0, solo := true, split := false
    restart := false }
def snap0 : HistSnap := { epoch := 0, bytes := zeros 8, sealAt := 0, recs := [(9, { rec0 with qual := 2 })] }
def amend0 : Amendment :=
  { src := 0, shortEpoch := 0, primary := 0, origQual := 6, arrival := 3, lateness := 1000000, record := { rec0 with qual := 1, origin := 0 } }
def at0 : EpochSlot := { sealed := some seal0 }
def at9 : EpochSlot := { sealed := some sealed9 }
def done0 : EpochSlot := { sealed := some seal0, conf := some conf0 }
def man0 (n : Nat) : Manifest := { device := n, early := false, timeSuspect := false, view := 3, epoch := 0, entries := [], sums := [] }
def rec1 : Rec := { rec0 with qual := 1 }
def rec2 : Rec := { rec0 with qual := 2 }
def in9 (e : StreamEntry) (s : State) : State := dev (fun d => d.setStream 9 { entry := { cur := some e } }) s
def sSeal : State := set [(Reg.CRT_CFG, 60 + 2 ^ 18)] (in9 local0 (sE (fun c => { c with slots := [(1, { recs := [(9, ⟨{ rec0 with qual := 1 }, 3, 0⟩)] })] })))
def sLate (c : Nat) : State := set [(Reg.CRT_HIST, 0x1001000)] (in9 local0 (sE (fun x => { x with nextConf := c })))
def sSealed (e : Nat) (x : EpochSlot) : State := sE (fun c => { c with nextConf := e, slots := [(e, x)] })
def sSealed2 (l : List Nat) : State := sE2 (fun c => { c with slots := [(0, at0)], manifests := [(0, l.map (fun n => (n, man0 n)))] })
def at5 : PairSt := { announced := some 1 }
def sAmends : State := dev (fun d => d.modCrt (fun c => { c with amends := [(0, amend0)] })) sC
def sHeld1 : State := sE (fun c => { c with manifests := [(0, [(1, man0 1)])] })
def sToRing : State := sBuf 4 (sE (fun c => { c with waiting := [0], snaps := [snap0] }))
def sAmendable : State := dev (fun d => d.modCrt (fun c => { c with snaps := [snap0] })) (sLate 1)
def sDone : State := set [(Reg.CRT_HIST, 0x1001000)] (sSealed 0 done0)
def local1 : StreamEntry := { local0 with primary := 1 }
def sMirrored : State := set [(Reg.CRT_ALIGN, 50)] (in9 local1 (sE id))
def sSnaps : State := dev (fun d => d.modCrt (fun c => { c with snaps := [snap0], amends := [(0, amend0)], overRuns := [(4, 6)] })) sR

theorem witness_CraterEventsTakeEffect_1 : ∃ (s : State) (dt e : Nat) (d : Dev), (d = later s.dev dt) ∧ (d.craterRuns = true ∧
    d.crt.nextSeal ≤ e ∧ epochTime d.rate e ≤ d.g16 ∧ e ≤ d.crt.nextDeliver + 127 ∧ d.slot e = none) :=
  ⟨sE id, 1, 5, later (sE id).dev 1,
    rfl, (by decide +kernel)⟩

theorem witness_CraterEventsTakeEffect_2 : ∃ (s : State) (dt e : Nat) (d : Dev), (d = later s.dev dt) ∧ (d.craterRuns = false ∨ e <
    d.crt.nextSeal ∨ d.g16 < epochTime d.rate e ∨ d.crt.nextDeliver + 127 < e ∨ (d.slot e).isSome = true) :=
  ⟨s0, 1, 0, later s0.dev 1,
    rfl, (by decide +kernel)⟩

theorem witness_CraterEventsTakeEffect_3 : ∃ (s : State) (dt e corrected : Nat) (d d0 : Dev), (d = later s.dev dt) ∧ (d0 = (d.count
    Reg.CRT_ECC_CORR corrected).count64 Reg.SAF_CORRECTED_LO corrected) ∧ (e = d.crt.nextSeal ∧ d.craterRuns = true ∧ d.deadline e ≤ d.g16
    ∧ e ≤ d.crt.nextDeliver + 127) ∧ (d.ing.streams.all (fun x => x.2.awaiting.isNone && x.2.entry.pend.all (fun p => p.2.isSome)) = true)
    :=
  ⟨sSeal, 1, 1, 2, later sSeal.dev 1, ((later sSeal.dev 1).count Reg.CRT_ECC_CORR 2).count64 Reg.SAF_CORRECTED_LO 2,
    rfl, rfl, (by decide +kernel), (by decide +kernel)⟩

theorem witness_CraterEventsTakeEffect_4 : ∃ (s : State) (dt corrected : Nat) (dbe crcBad : List Nat) (d : Dev), (d = later s.dev dt) ∧
    (d.craterRuns = false ∨ d.g16 < d.deadline d.crt.nextSeal ∨ d.crt.nextDeliver + 127 < d.crt.nextSeal) :=
  ⟨s0, 1, 0, [], [], later s0.dev 1,
    rfl, (by decide +kernel)⟩

theorem witness_CraterEventsTakeEffect_5 : ∃ (s : State) (dt e corrected : Nat) (d : Dev), (d = later s.dev dt) ∧ (e = d.crt.nextSeal ∧
    d.craterRuns = true ∧ d.bit Fld.CRT_CFG_EARLY_SEAL = true ∧ e ≤ d.crt.nextDeliver + 127 ∧ epochTime d.rate e ≤ d.g16 ∧ (d.dueStreams
    e).all (fun x => decide (x.2.type = 4) || (d.committed e x.1).isSome) = true) ∧ (d.ing.streams.all (fun x => x.2.awaiting.isNone &&
    x.2.entry.pend.all (fun p => p.2.isSome)) = true) :=
  ⟨sSeal, 1, 1, 2, later sSeal.dev 1,
    rfl, (by decide +kernel), (by decide +kernel)⟩

theorem witness_CraterEventsTakeEffect_6 : ∃ (s : State) (dt corrected : Nat) (dbe crcBad : List Nat) (d : Dev), (d = later s.dev dt) ∧
    (d.craterRuns = false ∨ d.crt.nextDeliver + 127 < d.crt.nextSeal ∨ d.bit Fld.CRT_CFG_EARLY_SEAL = false ∨ d.g16 < epochTime d.rate
    d.crt.nextSeal ∨ (d.dueStreams d.crt.nextSeal).any (fun x => decide (x.2.type ≠ 4) && (d.committed d.crt.nextSeal x.1).isNone) = true)
    :=
  ⟨s0, 1, 0, [], [], later s0.dev 1,
    rfl, (by decide +kernel)⟩

theorem witness_CraterEventsTakeEffect_7 : ∃ (s : State) (dt e : Nat) (d : Dev) (x : EpochSlot) (info : SealInfo), (d = later s.dev dt) ∧
    (d.slot e = some x ∧ x.sealed = some info) ∧ (info.refill ≠ [] ∧ info.reformed = false ∧ e ≤ d.crt.nextConf) :=
  ⟨sSealed 1 at9, 1, 1, later (sSealed 1 at9).dev 1, at9, sealed9,
    rfl, (by decide +kernel), (by decide +kernel)⟩

theorem witness_CraterEventsTakeEffect_8 : ∃ (s : State) (dt e : Nat) (d : Dev), (d = later s.dev dt) ∧ ((d.slot e).bind (fun x =>
    x.sealed) = none) :=
  ⟨s0, 1, 0, later s0.dev 1,
    rfl, (by decide +kernel)⟩

theorem witness_CraterEventsTakeEffect_9 : ∃ (s : State) (dt e : Nat) (d : Dev) (x : EpochSlot) (info : SealInfo), (d = later s.dev dt) ∧
    (e = d.crt.nextConf ∧ d.slot e = some x ∧ x.sealed = some info ∧ x.late = [] ∧ x.published = false ∧ info.refill = []) ∧ (d.fab.views
    = [] ∧ d.fab.histFeeds = [] ∧ d.crt.manifests.getD e [] = [] ∧ d.fab.fwdDone.find 0 = none) ∧ (d.craterRuns = true ∧ e <
    d.crt.nextSeal) :=
  ⟨sSealed 0 at0, 1, 0, later (sSealed 0 at0).dev 1, at0, seal0,
    rfl, (by decide +kernel), (by decide +kernel), (by decide +kernel)⟩

theorem witness_CraterEventsTakeEffect_10 : ∃ (s : State) (dt e : Nat) (d : Dev), (d = later s.dev dt) ∧ (e = d.crt.nextConf ∧ 2 ≤
    popCount 64 (d.viewAt e).members ∧ d.canConfirm = true) ∧ (d.fab.histFeeds = [] ∧ (d.slotD e).late = []) :=
  ⟨sSealed2 [0, 1], 1, 0, later (sSealed2 [0, 1]).dev 1,
    rfl, (by decide +kernel), (by decide +kernel)⟩

theorem witness_CraterEventsTakeEffect_11 : ∃ (s : State) (dt : Nat) (d : Dev), (d = later s.dev dt) ∧ (2 ≤ popCount 64 (d.viewAt
    d.crt.nextConf).members ∧ d.canConfirm = false) :=
  ⟨sSealed2 [], 1, later (sSealed2 []).dev 1,
    rfl, (by decide +kernel)⟩

theorem witness_CraterEventsTakeEffect_12 : ∃ (s : State) (dt e : Nat) (d : Dev) (x : EpochSlot), (d = later s.dev dt) ∧ (d.slot e = some
    x ∧ x.sealed.isSome = true ∧ x.conf = none ∧ x.reported = false ∧ d.deadline e + 1000000 * 2 ^ 16 ≤ d.g16) ∧ (d.partners e = [] ∧
    (bitsOf 64 (d.viewAt e).members).all (fun n => decide (n = d.deviceNo) || ((d.crt.manifests.getD e []).find n).isSome) = true) :=
  ⟨sSealed 0 at0, 1, 0, later (sSealed 0 at0).dev 1, at0,
    rfl, (by decide +kernel), (by decide +kernel)⟩

theorem witness_CraterEventsTakeEffect_13 : ∃ (s : State) (dt e n : Nat) (d : Dev) (x : EpochSlot), (d = later s.dev dt) ∧ (d.slot e =
    some x ∧ x.sealed.isSome = true ∧ x.conf = none ∧ x.reported = false ∧ d.deadline e + 1000000 * 2 ^ 16 ≤ d.g16) ∧ (d.partners e = [] ∧
    n ≠ d.deviceNo ∧ (bitsOf 64 (d.viewAt e).members).filter (fun m => ((d.crt.manifests.getD e []).find m).isNone) = [n] ∧
    d.others.testBit n = true ∧ d.fab.change = none) :=
  ⟨sSealed2 [0], 1, 0, 1, later (sSealed2 [0]).dev 1, at0,
    rfl, (by decide +kernel), (by decide +kernel)⟩

theorem witness_CraterEventsTakeEffect_14 : ∃ (s : State) (dt e : Nat) (d : Dev), (d = later s.dev dt) ∧ (d.slot e = none ∨ d.g16 <
    d.deadline e + 1000000 * 2 ^ 16) :=
  ⟨s0, 1, 0, later s0.dev 1,
    rfl, (by decide +kernel)⟩

theorem witness_CraterEventsTakeEffect_15 : ∃ (s : State) (dt i e rx : Nat) (r : Rec) (d : Dev), (d = later s.dev dt) ∧ (d.sealedHere e =
    true ∧ (d.entryAt i e).isSome = true ∧ d.crt.nextConf ≤ e) :=
  ⟨sLate 0, 1, 9, 0, 3, rec1, later (sLate 0).dev 1,
    rfl, (by decide +kernel)⟩

theorem witness_CraterEventsTakeEffect_16 : ∃ (s : State) (dt i e rx : Nat) (r : Rec) (d : Dev), (d = later s.dev dt) ∧ (d.sealedHere e =
    true ∧ (d.entryAt i e).isSome = true ∧ e < d.crt.nextConf ∧ d.confirmedRec i e = none) :=
  ⟨sLate 1, 1, 9, 0, 3, rec1, later (sLate 1).dev 1,
    rfl, (by decide +kernel)⟩

theorem witness_CraterEventsTakeEffect_17 : ∃ (s : State) (dt i e rx sealAt : Nat) (r old : Rec) (ent : StreamEntry) (a : Amendment) (d :
    Dev), (d = later s.dev dt) ∧ (d.sealedHere e = true ∧ d.entryAt i e = some ent ∧ e < d.crt.nextConf ∧ d.confirmedRec i e = some (old,
    sealAt)) ∧ (d.hasAmend i e = false ∧ old.qual.testBit 0 = false ∧ d.crt.nextSeal ≤ d.fld Fld.CRT_AMEND_HORIZON + e + 1 ∧ (ent.partner
    d.deviceNo = d.deviceNo ∨ d.view.members.testBit (ent.partner d.deviceNo) = false)) ∧ (a =
      { src := 0, shortEpoch := e % 2 ^ 32, primary := d.primaryAt e ent, origQual := old.qual ||| 4, arrival := rx, lateness := min (2 ^ 32 - 1) ((d.g16 - sealAt) / 2 ^ 16 / 1000), record := { r with stream := i, origin := 0 } }) ∧ (amendBytes (d.crt.amends ++ [(e, a)]) ≤ d.fld Fld.CRT_HIST_AMEND_SIZE *
    1048576 ∧ d.ringOf 5 = none ∧ d.hif.amendQ.length ≤ d.crt.amends.length) :=
  ⟨sAmendable, 1, 9, 0, 3, 0, rec1, rec2, local0, amend0, later sAmendable.dev 1,
    rfl, (by decide +kernel), (by decide +kernel), (by decide +kernel), (by decide +kernel)⟩

theorem witness_CraterEventsTakeEffect_18 : ∃ (s : State) (dt i e rx : Nat) (r : Rec) (d : Dev), (d = later s.dev dt) ∧ (d.sealedHere e =
    false ∨ d.entryAt i e = none) :=
  ⟨s0, 1, 9, 0, 3, rec0, later s0.dev 1,
    rfl, (by decide +kernel)⟩

theorem witness_CraterEventsTakeEffect_19 : ∃ (s : State) (dt e : Nat) (d : Dev) (x : EpochSlot) (info : SealInfo) (c : ConfInfo) (h :
    HistSnap), (d = later s.dev dt) ∧ (e = d.crt.nextDeliver ∧ d.slot e = some x ∧ x.sealed = some info ∧ x.conf = some c) ∧ (h =
    { epoch := e, bytes := d.snapshot e info c, sealAt := info.at_, recs := c.recs }) ∧ (snapsBytes (d.crt.snaps ++ [h]) ≤ d.fld
    Fld.CRT_HIST_SIZE * 1048576 ∧ d.ringOf 4 = none) :=
  ⟨sDone, 1, 0, later sDone.dev 1, done0, seal0, conf0, ⟨0, (later sDone.dev 1).snapshot 0 seal0 conf0, 0, conf0.recs⟩,
    rfl, (by decide +kernel), (by decide +kernel), (by decide +kernel)⟩

theorem witness_CraterEventsTakeEffect_20 : ∃ (s : State) (dt e : Nat) (bad : List Nat) (d : Dev) (x : EpochSlot), (d = later s.dev dt) ∧
    (e = d.crt.nextDeliver ∧ d.slot e = some x ∧ x.sealed.isSome = true ∧ x.conf.isSome = true) :=
  ⟨sDone, 1, 0, [9], later sDone.dev 1, done0,
    rfl, (by decide +kernel)⟩

theorem witness_CraterEventsTakeEffect_21 : ∃ (s : State) (dt : Nat) (bad : List Nat) (d : Dev), (d = later s.dev dt) ∧ ((d.slot
    d.crt.nextDeliver).bind (fun x => x.conf) = none) :=
  ⟨s0, 1, [9], later s0.dev 1,
    rfl, (by decide +kernel)⟩

theorem witness_CraterEventsTakeEffect_22 : ∃ (s : State) (dt e n : Nat) (d : Dev) (b : BufDesc) (h : HistSnap), (d = later s.dev dt) ∧
    (d.ringOf 4 = some n ∧ d.hostReady = true ∧ d.crt.carry = [] ∧ d.crt.waiting = [e] ∧ d.crt.snaps.find? (fun x => decide (x.epoch = e))
    = some h) ∧ (d.hif.snapPart = none ∧ d.hif.stages = [] ∧ (d.ring n).bufs = [b] ∧ b.ok = true ∧ 0 < h.bytes.length ∧ h.bytes.length ≤
    b.len) :=
  ⟨sToRing, 1, 0, 1, later sToRing.dev 1, ⟨0x1000, 4096, false⟩, snap0,
    rfl, (by decide +kernel), (by decide +kernel)⟩

theorem witness_CraterEventsTakeEffect_23 : ∃ (s : State) (dt : Nat) (d : Dev), (d = later s.dev dt) ∧ (d.ringOf 4 = none ∨ d.hostReady =
    false ∨ (d.crt.carry = [] ∧ d.crt.waiting = [] ∧ d.hif.snapPart = none ∧ (d.ringOf 4).all (fun n => (d.ring n).bufs.isEmpty) = true))
    :=
  ⟨s0, 1, later s0.dev 1,
    rfl, (by decide +kernel)⟩

theorem witness_FabricRecordsTakeEffect_1 : ∃ (s : State) (dt src seq e : Nat) (l : List Nat) (d d1 : Dev), (d = later s.dev dt) ∧
    (d.receive src 2 seq = (d1, true) ∧ d1.pairOpen e = true ∧ d1.crt.first ≤ e ∧ d1.crt.nextSeal ≤ e) :=
  ⟨sE id, 1, 1, 5, 5, [9], later (sE id).dev 1, ((later (sE id).dev 1).receive 1 2 5).1,
    rfl, (by decide +kernel)⟩

theorem witness_FabricRecordsTakeEffect_2 : ∃ (s : State) (dt src seq e : Nat) (l : List Nat) (d d1 : Dev) (info : SealInfo), (d = later
    s.dev dt) ∧ (d.receive src 2 seq = (d1, true) ∧ d1.inRun e = true ∧ e < d1.crt.nextSeal ∧ d1.sealOf e = some info) :=
  ⟨sE id, 1, 1, 5, 0, [9], later (sE id).dev 1, ((later (sE id).dev 1).receive 1 2 5).1, seal0,
    rfl, (by decide +kernel)⟩

theorem witness_FabricRecordsTakeEffect_3 : ∃ (s : State) (dt src seq e : Nat) (l : List Nat) (d d1 : Dev), (d = later s.dev dt) ∧
    (d.receive src 2 seq = (d1, true) ∧ d1.inRun e = false) :=
  ⟨s0, 1, 1, 5, 0, [9], later s0.dev 1, ((later s0.dev 1).receive 1 2 5).1,
    rfl, (by decide +kernel)⟩

theorem witness_FabricRecordsTakeEffect_4 : ∃ (s : State) (dt src seq e : Nat) (r : Rec) (d d1 : Dev), (d = later s.dev dt) ∧ (d.receive
    src 2 seq = (d1, true) ∧ d1.pairOpen e = true ∧ (d1.pair e src).announced = none) :=
  ⟨sE id, 1, 1, 5, 5, rec0, later (sE id).dev 1, ((later (sE id).dev 1).receive 1 2 5).1,
    rfl, (by decide +kernel)⟩

theorem witness_FabricRecordsTakeEffect_5 : ∃ (s : State) (dt src seq e n : Nat) (r : Rec) (d d1 : Dev), (d = later s.dev dt) ∧ (d.receive
    src 2 seq = (d1, true) ∧ d1.pairOpen e = true ∧ (d1.pair e src).announced = some n ∧ n ≤ ((d1.pair e src).recs.put r.stream r).length
    ∧ (d1.pair e src).ackSent = false) :=
  ⟨sSealed 5 { pairs := [(1, at5)] }, 1, 1, 5, 5, 1, rec0, later (sSealed 5 { pairs := [(1, at5)] }).dev 1, ((later (sSealed 5
    { pairs := [(1, at5)] }).dev 1).receive 1 2 5).1,
    rfl, (by decide +kernel)⟩

theorem witness_FabricRecordsTakeEffect_6 : ∃ (s : State) (dt src seq e n : Nat) (d d1 : Dev), (d = later s.dev dt) ∧ (d.receive src 2 seq
    = (d1, true) ∧ d1.pairOpen e = true ∧ (d1.pair e src).recs.length < n) :=
  ⟨sE id, 1, 1, 5, 5, 1, later (sE id).dev 1, ((later (sE id).dev 1).receive 1 2 5).1,
    rfl, (by decide +kernel)⟩

theorem witness_FabricRecordsTakeEffect_7 : ∃ (s : State) (dt src seq e n : Nat) (d d1 : Dev), (d = later s.dev dt) ∧ (d.receive src 2 seq
    = (d1, true) ∧ d1.pairOpen e = true ∧ n ≤ (d1.pair e src).recs.length ∧ (d1.pair e src).ackSent = false) :=
  ⟨sE id, 1, 1, 5, 5, 0, later (sE id).dev 1, ((later (sE id).dev 1).receive 1 2 5).1,
    rfl, (by decide +kernel)⟩

theorem witness_FabricRecordsTakeEffect_8 : ∃ (s : State) (dt src seq e n : Nat) (d d1 : Dev), (d = later s.dev dt) ∧ (d.receive src 2 seq
    = (d1, true) ∧ d1.pairOpen e = false) :=
  ⟨s0, 1, 1, 5, 5, 0, later s0.dev 1, ((later s0.dev 1).receive 1 2 5).1,
    rfl, (by decide +kernel)⟩

theorem witness_FabricRecordsTakeEffect_9 : ∃ (s : State) (dt src seq e n : Nat) (d d1 : Dev), (d = later s.dev dt) ∧ (d.receive src 2 seq
    = (d1, true) ∧ d1.pairOpen e = true) :=
  ⟨sE id, 1, 1, 5, 5, 0, later (sE id).dev 1, ((later (sE id).dev 1).receive 1 2 5).1,
    rfl, (by decide +kernel)⟩

theorem witness_FabricRecordsTakeEffect_10 : ∃ (s : State) (dt src seq e n : Nat) (r : Rec) (d d1 : Dev), (d = later s.dev dt) ∧
    (d.receive src 2 seq = (d1, true) ∧ d1.pairOpen e = false) :=
  ⟨s0, 1, 1, 5, 5, 0, rec0, later s0.dev 1, ((later s0.dev 1).receive 1 2 5).1,
    rfl, (by decide +kernel)⟩

theorem witness_FabricRecordsTakeEffect_11 : ∃ (s : State) (dt e : Nat) (d : Dev) (x : EpochSlot) (info : SealInfo), (d = later s.dev dt)
    ∧ (d.slot e = some x ∧ x.sealed = some info ∧ x.published = false) ∧ (d.pairsDone e = true ∧ (info.refill = [] ∨ info.reformed =
    true)) :=
  ⟨sSealed2 [], 1, 0, later (sSealed2 []).dev 1, at0, seal0,
    rfl, (by decide +kernel), (by decide +kernel)⟩

theorem witness_FabricRecordsTakeEffect_12 : ∃ (s : State) (dt e : Nat) (d : Dev), (d = later s.dev dt) ∧ (d.canPublish e = false) :=
  ⟨s0, 1, 0, later s0.dev 1,
    rfl, (by decide +kernel)⟩

theorem witness_FabricRecordsTakeEffect_13 : ∃ (s : State) (dt src seq : Nat) (m : Manifest) (d d1 : Dev), (d = later s.dev dt) ∧
    (d.receive src 2 seq = (d1, true) ∧ d1.takesManifest m = true ∧ ((d1.crt.manifests.getD m.epoch []).find m.device) = none) ∧
    (d1.joined = false ∨ (d1.craterRuns = true ∧ d1.crt.first ≤ m.epoch)) :=
  ⟨sE id, 1, 1, 5, man0 1, later (sE id).dev 1, ((later (sE id).dev 1).receive 1 2 5).1,
    rfl, (by decide +kernel), (by decide +kernel)⟩

theorem witness_FabricRecordsTakeEffect_14 : ∃ (s : State) (dt src seq : Nat) (m : Manifest) (d d1 : Dev), (d = later s.dev dt) ∧
    (d.receive src 2 seq = (d1, true) ∧ ((d1.crt.manifests.getD m.epoch []).find m.device).isSome = true) ∧ (d1.joined = false ∨
    (d1.craterRuns = true ∧ d1.crt.first ≤ m.epoch)) :=
  ⟨sHeld1, 1, 1, 5, man0 1, later sHeld1.dev 1, ((later sHeld1.dev 1).receive 1 2 5).1,
    rfl, (by decide +kernel), (by decide +kernel)⟩

theorem witness_FabricRecordsTakeEffect_15 : ∃ (s : State) (dt src seq : Nat) (m : Manifest) (d d1 : Dev), (d = later s.dev dt) ∧
    (d.receive src 2 seq = (d1, true) ∧ d1.takesManifest m = true ∧ m.device ≠ d1.deviceNo) ∧ (d1.joined = true ∧ d1.craterRuns = false ∧
    d1.fab.joinEpoch ≤ m.epoch ∧ d1.fab.emptyUpTo = none) :=
  ⟨sF, 1, 1, 5, man0 1, later sF.dev 1, ((later sF.dev 1).receive 1 2 5).1,
    rfl, (by decide +kernel), (by decide +kernel)⟩

theorem witness_FabricRecordsTakeEffect_16 : ∃ (s : State) (dt src seq : Nat) (m : Manifest) (d d1 : Dev), (d = later s.dev dt) ∧
    (d.receive src 2 seq = (d1, true) ∧ m.forwarded = false ∧ d1.fab.joining = none ∧ d1.view.members.testBit m.device = false ∧ m.view ≤
    d1.view.num) :=
  ⟨sE id, 1, 1, 5, { man0 7 with view := 0 }, later (sE id).dev 1, ((later (sE id).dev 1).receive 1 2 5).1,
    rfl, (by decide +kernel)⟩

theorem witness_FabricRecordsTakeEffect_17 : ∃ (s : State) (dt src seq e : Nat) (a : Amendment) (d d1 : Dev), (d = later s.dev dt) ∧
    (d.receive src 2 seq = (d1, true) ∧ e = epochOfShort d1.crt.nextSeal a.shortEpoch ∧ d1.hasAmend a.record.stream e = false) ∧
    (amendBytes (d1.crt.amends ++ [(e, { a with src := 1 })]) ≤ d1.fld Fld.CRT_HIST_AMEND_SIZE * 1048576 ∧ d1.ringOf 5 = none ∧
    d1.hif.amendQ.length ≤ d1.crt.amends.length) :=
  ⟨sLate 0, 1, 1, 5, 0, amend0, later (sLate 0).dev 1, ((later (sLate 0).dev 1).receive 1 2 5).1,
    rfl, (by decide +kernel), (by decide +kernel)⟩

theorem witness_FabricRecordsTakeEffect_18 : ∃ (s : State) (dt src seq : Nat) (a : Amendment) (d d1 : Dev), (d = later s.dev dt) ∧
    (d.receive src 2 seq = (d1, true) ∧ d1.hasAmend a.record.stream (epochOfShort d1.crt.nextSeal a.shortEpoch) = true) :=
  ⟨sAmends, 1, 1, 5, amend0, later sAmends.dev 1, ((later sAmends.dev 1).receive 1 2 5).1,
    rfl, (by decide +kernel)⟩

theorem witness_FabricRecordsTakeEffect_19 : ∃ (s : State) (dt src seq e : Nat) (r : Rec) (d d1 : Dev) (ent : StreamEntry), (d = later
    s.dev dt) ∧ (d.receive src 2 seq = (d1, true) ∧ d1.entryAt r.stream e = some ent ∧ ent.type = 5 ∧ ent.primary ≠ d1.deviceNo) ∧
    (nearestEpoch d1.rate (epochTime d1.rate e) = e ∧ alignedTo d1.rate (d1.fld Fld.CRT_ALIGN_TOL) e (epochTime d1.rate e) = true) ∧
    (d1.craterRuns = true ∧ d1.crt.first ≤ e ∧ d1.crt.nextSeal ≤ e ∧ e ≤ d1.crt.nextDeliver + 127 ∧ d1.stored e r.stream = none) :=
  ⟨sMirrored, 1, 1, 5, 5, rec0, later sMirrored.dev 1, ((later sMirrored.dev 1).receive 1 2 5).1, local1,
    rfl, (by decide +kernel), (by decide +kernel), (by decide +kernel)⟩

theorem witness_FabricRecordsTakeEffect_20 : ∃ (s : State) (dt src seq e : Nat) (r : Rec) (d d1 : Dev), (d = later s.dev dt) ∧ (d.receive
    src 2 seq = (d1, true) ∧ (d1.entryAt r.stream e).all (fun x => decide (x.type ≠ 5 ∨ x.primary = d1.deviceNo)) = true) :=
  ⟨s0, 1, 1, 5, 5, rec0, later s0.dev 1, ((later s0.dev 1).receive 1 2 5).1,
    rfl, (by decide +kernel)⟩

theorem witness_HistoryCommandsComplete_1 : ∃ (s : State) (c : Ctx) (e : Nat) (buf : HostBuf) (d : Dev) (x : HistSnap), (ready s.dev
    c.ring false none) ∧ (d = fetched s.dev c.ring) ∧ (d.crt.snaps.find? (fun y => decide (y.epoch = e)) = some x ∧ x.bytes.length ≤
    buf.len) :=
  ⟨sSnaps, c0, 0, ⟨0x1000, 4096⟩, fetched sSnaps.dev 0, snap0,
    (by unfold ready; decide +kernel), rfl, (by decide +kernel)⟩

theorem witness_HistoryCommandsComplete_2 : ∃ (s : State) (c : Ctx) (e : Nat) (buf : HostBuf) (d : Dev) (x : HistSnap), (ready s.dev
    c.ring false none) ∧ (d = fetched s.dev c.ring) ∧ (d.crt.snaps.find? (fun y => decide (y.epoch = e)) = some x ∧ buf.len <
    x.bytes.length) :=
  ⟨sSnaps, c0, 0, ⟨0x1000, 4⟩, fetched sSnaps.dev 0, snap0,
    (by unfold ready; decide +kernel), rfl, (by decide +kernel)⟩

theorem witness_HistoryCommandsComplete_3 : ∃ (s : State) (c : Ctx) (e lo hi : Nat) (buf : HostBuf) (d : Dev), (ready s.dev c.ring false
    none) ∧ (d = fetched s.dev c.ring) ∧ (d.crt.snaps.find? (fun y => decide (y.epoch = e)) = none ∧ (lo, hi) ∈ d.crt.overRuns ∧ lo ≤ e ∧
    e ≤ hi) :=
  ⟨sSnaps, c0, 5, 4, 6, ⟨0x1000, 4096⟩, fetched sSnaps.dev 0,
    (by unfold ready; decide +kernel), rfl, (by decide +kernel)⟩

theorem witness_HistoryCommandsComplete_4 : ∃ (s : State) (c : Ctx) (e : Nat) (buf : HostBuf) (d : Dev), (ready s.dev c.ring false none) ∧
    (d = fetched s.dev c.ring) ∧ (d.crt.snaps.find? (fun y => decide (y.epoch = e)) = none ∧ d.crt.overRuns.all (fun o => decide (e < o.1
    ∨ o.2 < e)) = true) :=
  ⟨sSnaps, c0, 7, ⟨0x1000, 4096⟩, fetched sSnaps.dev 0,
    (by unfold ready; decide +kernel), rfl, (by decide +kernel)⟩

theorem witness_HistoryCommandsComplete_5 : ∃ (s : State) (c : Ctx) (i e addr : Nat) (d : Dev) (a : Amendment), (ready s.dev c.ring false
    none) ∧ (d = fetched s.dev c.ring) ∧ (i < 8192 ∧ d.crt.amends.find? (fun y => decide (y.2.record.stream = i) && decide (y.1 = e)) =
    some (e, a)) :=
  ⟨sSnaps, c0, 9, 0, 0x1000, fetched sSnaps.dev 0, amend0,
    (by unfold ready; decide +kernel), rfl, (by decide +kernel)⟩

theorem witness_HistoryCommandsComplete_6 : ∃ (s : State) (c : Ctx) (i e addr : Nat) (d : Dev), (ready s.dev c.ring false none) ∧ (d =
    fetched s.dev c.ring) ∧ (i < 8192 ∧ d.crt.amends.find? (fun y => decide (y.2.record.stream = i) && decide (y.1 = e)) = none) :=
  ⟨sSnaps, c0, 9, 1, 0x1000, fetched sSnaps.dev 0,
    (by unfold ready; decide +kernel), rfl, (by decide +kernel)⟩

theorem witness_HistoryCommandsComplete_7 : ∃ (s : State) (c : Ctx) (i e addr : Nat) (d : Dev), (ready s.dev c.ring false none) ∧ (d =
    fetched s.dev c.ring) ∧ (8192 ≤ i) :=
  ⟨sSnaps, c0, 8192, 1, 0x1000, fetched sSnaps.dev 0,
    (by unfold ready; decide +kernel), rfl, (by decide +kernel)⟩

theorem witness_StepRunsTheFrontCommand_1 : ∃ (s : State) (c : Instr) (rest : List Instr), s.pending = c :: rest :=
  ⟨{ s0 with pending := [.keySweep 0, .gateClose 0 3] }, .keySweep 0, [.gateClose 0 3], rfl⟩

theorem witness_StepRunsTheFrontCommand_2 : ∃ s : State, s.pending = [] := ⟨s0, rfl⟩

theorem witness_CommandsKeepTheQueue_1 : ∃ (s t : State) (c : Instr), exec c s = .next t :=
  ⟨{ s0 with pending := [.gateClose 0 3] }, _, .keySweep 0, rfl⟩

theorem witness_CommandsKeepTheQueue_2 : ∃ (s t : State) (c : Instr) (rest : List Instr), s.pending = c :: rest ∧ step s = .next t :=
  ⟨{ s0 with pending := [.keySweep 0, .gateClose 0 3] }, _, .keySweep 0, [.gateClose 0 3], rfl, rfl⟩

theorem witness_OnlyWarmResetsStop_2 : ∃ (s : State) (c : Instr) (f : Fault), exec c s = .fault f :=
  ⟨set [(Reg.CLK_DIV, 0x9F5)] sR, .rstRequestWarm c0 0x52535451, .clockRatio,
    by dsimp only [exec, execRstRequestWarm, State.runKey, checkRatio]; exact if_pos (by decide +kernel)⟩

theorem witness_OnlyWarmResetsStop_3 : ∃ (s : State) (c : Instr), canWarmReset c = false := ⟨s0, .keySweep 0, rfl⟩

theorem witness_IdleRingChangesNothing : ∃ (s : State) (i : Instr) (c : Ctx), ctxOf i = some c ∧ (later s.dev 0).offers c.ring = false ∧
    s.dev.clk.ratioBroken = false :=
  ⟨s0, .rstRequestWarm c0 0x52535451, c0, rfl, by decide +kernel, rfl⟩

/-- A sound key store with one key, in a life-cycle state. -/
def sKeep (lc : LifeCycle) (slots : Tbl Slot) : State :=
  { s0 with key := { lc := lc, started := true, slots := slots }, pending := [.keySweep 0] }

def slot0 : Slot := ⟨.valid, 0, 0x30, 1, 0, some { bytes := zeros 32, keyId := 0 }, none⟩

theorem witness_KeyStoreStaysSound : ∃ s t : State, keySound s.key ∧ step s = .next t :=
  ⟨sKeep .operational [(0, slot0)], _, by simp [keySound, sKeep, slotSound, slot0, Tbl.wf], rfl⟩

theorem witness_LifeCycleNeverGoesBack_1 : ∃ s t : State, keySound s.key ∧ step s = .next t ∧ s.key.lc = .returned :=
  ⟨sKeep .returned [], _, by simp [keySound, sKeep], rfl, rfl⟩

theorem witness_LifeCycleNeverGoesBack_2 : ∃ s t : State, keySound s.key ∧ step s = .next t ∧ s.key.lc ≠ .blank :=
  ⟨sKeep .operational [(0, slot0)], _, by simp [keySound, sKeep, slotSound, slot0, Tbl.wf], rfl, by decide⟩

theorem witness_OnlyKeyCommandsChangeKeys : ∃ (s t : State) (c : Instr), changesKeys c = false ∧ exec c s = .next t :=
  ⟨sKeep .operational [(0, slot0)], _, .gateClose 0 3, rfl, rfl⟩

theorem witness_SignedDifferenceCompares_5 : ∃ n a b : Nat, 0 < n ∧ signedDiff n a b = -(2 : Int) ^ (n - 1) :=
  ⟨32, 0, 0x80000000, by decide, by decide⟩

/-- The worked example of R9. -/
theorem witness_SignedDifferenceCompares_6 : ∃ n a b x y : Nat, 0 < n ∧ a = x % 2 ^ n ∧ b = y % 2 ^ n ∧
    ((x : Int) - y).natAbs < 2 ^ (n - 1) :=
  ⟨32, 3, 0xFFFFFFFE, 0x100000003, 0xFFFFFFFE, by decide, by decide, by decide, by decide⟩

/-! Ill-formed commands, one for each check of `wellFormed`, are refused. -/
def badCtx : Ctx := { c0 with ring := 32 }
def raw0 : RawCmd := { ring := 0, descOk := true, desc := zeros 32, argsOk := true, args := [], buffer := [], answers := [], steps := 5 }
def badBuf : HostBuf := ⟨2 ^ 64, 4⟩

theorem test_ill_formed_accesses : [Instr.regWrite 0 3 0, .regWrite (2 ^ 22) 4 0, .loReadLatch 0x410000 4, .gateClose 0 15, .netPortEnable 4 0,
    .ringEnable 32 0, .ringDrained 0 32, .doorbell 0 16 0 [], .doorbell 0 8 (2 ^ 64) [], .doorbell 0 4 1 [⟨2 ^ 64, 4, false, true⟩],
    .commandAccept { raw0 with ring := 32 }, .commandAccept { raw0 with desc := zeros 31 }, .commandAccept { raw0 with args := zeros 65529 },
    .commandAccept { raw0 with steps := 6 }, .hostIngestTake 0 32 16 { bytes := [] } false, .hostIngestTake 0 0 16 { bytes := [], ecc := [3] } false,
    .msixUnmask 64].all (fun i => !wellFormed i) = true := by decide +kernel

theorem test_ill_formed_ring_commands : [Instr.hifNop badCtx 0, .hifNop { c0 with tag := 65536 } 0, .hifNop { c0 with resAddr := 2 ^ 64 } 0,
    .hifNop c0 (2 ^ 32), .hifFlush c0 256, .streamSet c0 65536 (zeros 64) 0 false, .streamSet c0 0 (zeros 63) 0 false,
    .streamSet c0 0 (zeros 64) (2 ^ 32) false, .chanSet c0 0 2 (zeros 16), .ruleSet c0 0 2 (zeros 32) 0 false, .geyTrigSet c0 0 2 (zeros 72),
    .sessListSet c0 0 2 (zeros 2), .histRead c0 (2 ^ 64) ⟨0, 4⟩, .histRead c0 0 badBuf, .histRead c0 0 ⟨0, 2 ^ 32⟩, .amendRead c0 0 0 (2 ^ 64),
    .oscReset c0 256, .geyStreamSet c0 0 (2 ^ 64), .nrgSet c0 0 (zeros 31) false, .nrgPulseSet c0 0 0 0 (2 ^ 64) 0 false, .nrgAck c0 65536,
    .cycSwitch c0 (2 ^ 64) false, .rioStationSet c0 0 (zeros 63), .netMcastSet c0 0 0 (2 ^ 64) 0 false false, .netMcastSet c0 0 0 0 (2 ^ 128) false false,
    .macsecSet c0 0 false 0 (2 ^ 64) 0 0 false false 0 false, .sessSet c0 0 (zeros 63), .timSet c0 (2 ^ 48) 0 0, .timSet c0 0 (2 ^ 32) 0,
    .timSet c0 0 0 65536, .fabStreamDrop c0 256 0, .sntClear c0 0 0 0 0 (zeros 31) 5, .sntClear c0 0 0 0 0 (zeros 32) 6].all
    (fun i => !wellFormed i) = true := by decide +kernel

theorem test_ill_formed_events : [Instr.ethFrameRx 0 4 0 0 arp0, .ethFrameRx 0 0 0 4 arp0, .frameTransmit 0 4 0, .frameTransmit 0 0 4, .ppsInEdge 0 4,
    .conversionItem 0 8192 0, .epochOpen 0 (2 ^ 64), .lateRecord 0 8192 0 rec0 0, .trackerLag 0 2, .expressRetransmit 0 16, .sampleStrobe 0 4,
    .calRampEnd 0 4 0, .calRampEnd 0 0 13, .detectorHoldExpire 0 64, .triggerRepeat 0 256, .pulseEmit 0 4, .nrgSaveDone 0 16 true,
    .nrgFinalSaveDone ⟨0, [16]⟩, .outputFrameLate 0 2, .budgetOverrun 0 64, .mcDefer 0 101, .sessionPublish 0 128, .sampleMissingTimer 0 2,
    .timeSel 0 64 0 0, .timeSel 0 0 (2 ^ 32) 0, .timeSel 0 0 0 2, .ulxTrained 0 6, .linkPacket 0 6 pkt0 0 0, .linkPacket 0 0 ⟨zeros 19⟩ 0 0,
    .linkPacket 0 0 ⟨zeros 2069⟩ 0 0, .laneFail 0 0 4, .pairHave 0 0 0 (2 ^ 64) [], .install 0 32 desc0 (zeros 112) 6,
    .install 0 0 { desc0 with bytes := zeros 31 } (zeros 112) 6, .install 0 0 desc0 (zeros 111) 6, .install 0 0 desc0 (zeros 112) 7,
    .entryClose 0 (2 ^ 32), .railFall 0 8, .xtalJudged 0 2 []].all (fun i => !wellFormed i) = true := by decide +kernel

theorem test_signedDiff_example : signedDiff 32 3 0xFFFFFFFE = 5 := by decide

theorem witness_GatedReadsAnswerAtOnce : ∃ (s : State) (off : Nat), off % 4 = 0 ∧ (gateOf off).any (later s.dev 0).gated = true :=
  ⟨set [(Reg.CLK_GATE_STATUS, 1)] s0, Reg.GEY_CTRL, by decide +kernel⟩

theorem witness_TimeReadsLatchTogether : ∃ (s : State) (d : Dev) (t u : State), d = later s.dev 0 ∧ d.bit Fld.CLK_STATUS_RESCUE = false ∧
    exec (.loReadLatch Reg.TIM_NOW_NS 4) s = .next t ∧ u.dev.hif.latches = t.dev.hif.latches ∧ u.dev.bit Fld.CLK_STATUS_RESCUE = false :=
  ⟨s0, later s0.dev 0, _, dev (fun d => Dev.barRead s0.key { d with out := [] } Reg.TIM_NOW_NS 4) s0, rfl, by decide +kernel, rfl,
    by decide +kernel, by decide +kernel⟩
theorem witness_AlarmPathRowsComplete_1 : ∃ (s : State) (v : Word), (s.dev.gatedAt Reg.ISL_CTRL = false) ∧ (v.toNat.testBit 0 = true) ∧
    (s.dev.bit Fld.ISL_CTRL_EN = false) :=
  ⟨s0, 1,
    (by decide +kernel), (by decide +kernel), (by decide +kernel)⟩

theorem witness_AlarmPathRowsComplete_2 : ∃ (s : State) (v : Word), (s.dev.gatedAt Reg.FUM_CTRL = false) ∧ (v.toNat.testBit 0 = true) ∧
    (s.dev.bit Fld.FUM_CTRL_EN = false) ∧ (s.dev.bit Fld.SAF_STATUS_SAFE = false) :=
  ⟨s0, 1,
    (by decide +kernel), (by decide +kernel), (by decide +kernel), (by decide +kernel)⟩

theorem witness_AlarmPathRowsComplete_3 : ∃ (s : State) (dt e : Nat) (d : Dev) (q : SealInfo), (d = later s.dev dt) ∧ (d.bit
    Fld.ISL_CTRL_EN = true) ∧ (d.nextSealed d.isl.next = some e) ∧ (d.sealOf e = some q) :=
  ⟨set [(Reg.ISL_CTRL, 1)] sC, 0, 0, later (set [(Reg.ISL_CTRL, 1)] sC).dev 0, seal0,
    rfl, (by decide +kernel), (by decide +kernel), (by decide +kernel)⟩

theorem witness_AlarmPathRowsComplete_4 : ∃ (s : State) (dt e : Nat) (l : List Nat) (d : Dev) (q : SealInfo), (d = later s.dev dt) ∧
    (d.bit Fld.FUM_STATUS_RUNNING = true) ∧ (0 < d.deCount) ∧ (d.nextSealed d.fum.next = some e) ∧ (d.sealOf e = some q) :=
  ⟨set [(Reg.FUM_CTRL, 1), (Reg.FUM_STATUS, 1), (Reg.ENG_STATUS, 0xFFFFFFFF)] sC, 0, 0, [], later (set [(Reg.FUM_CTRL, 1),
    (Reg.FUM_STATUS, 1), (Reg.ENG_STATUS, 0xFFFFFFFF)] sC).dev 0, seal0,
    rfl, (by decide +kernel), (by decide +kernel), (by decide +kernel), (by decide +kernel)⟩

theorem witness_AlarmPathRowsComplete_5 : ∃ (s : State) (dt p at_ : Nat) (d : Dev), (d = later s.dev dt) ∧ (p < 8) ∧ (d.bit
    Fld.SAF_STATUS_SAFE = false) ∧ (d.wantedPins.testBit p = false) ∧ (d.fum.pins[p]? = some { since := some at_ }) ∧ (at_ + d.fld
    (Fld.FUM_PINp_MIN_ON p) * 1000000 ≤ d.up) :=
  ⟨dev (fun d => d.modFum (fun f => { f with pins := [{}, { since := some 0 }, {}, {}, {}, {}, {}, {}] })) (set [(Reg.FUM_STATUS, 0x200),
    (Reg.FUM_PINp 1, 0x104)] s0), 1000000, 1, 0, later (dev (fun d => d.modFum (fun f => { f with pins := [{}, { since := some 0 }, {},
    {}, {}, {}, {}, {}] })) (set [(Reg.FUM_STATUS, 0x200), (Reg.FUM_PINp 1, 0x104)] s0)).dev 1000000,
    rfl, (by decide +kernel), (by decide +kernel), (by decide +kernel), (by decide +kernel), (by decide +kernel)⟩

theorem witness_AlarmPathRowsComplete_6 : ∃ (s : State) (dt : Nat) (d : Dev), (d = later s.dev dt) ∧ (d.fum.decidedAt + d.almokWindow <
    d.up) :=
  ⟨set [(Reg.CRT_CFG, 60), (Reg.FUM_STATUS, 2)] s0, 100000000, later (set [(Reg.CRT_CFG, 60), (Reg.FUM_STATUS, 2)] s0).dev 100000000,
    rfl, (by decide +kernel)⟩

theorem witness_AlarmPathRowsComplete_7 : ∃ (s : State) (dt n at_ iv : Nat) (d : Dev) (p : Pub), (d = later s.dev dt) ∧ (d.fum.pubs.find n
    = some p) ∧ (p.next = some (at_, iv)) ∧ (at_ ≤ d.up) ∧ (p.en = true) ∧ (d.bit Fld.FUM_CTRL_EN = true) :=
  ⟨dev (fun d => d.modFum (fun f => { f with pubs := [(3, { pubOf exp0 with next := some (0, 4) })] })) (set [(Reg.FUM_CTRL, 1)] s0), 5,
    3, 0, 4, later (dev (fun d => d.modFum (fun f => { f with pubs := [(3, { pubOf exp0 with next := some (0, 4) })] })) (set
    [(Reg.FUM_CTRL, 1)] s0)).dev 5, { pubOf exp0 with next := some (0, 4) },
    rfl, (by decide +kernel), (by decide +kernel), (by decide +kernel), (by decide +kernel), (by decide +kernel)⟩

theorem witness_AlarmPathRowsComplete_8 : ∃ (s : State) (dt : Nat) (d : Dev), (d = later s.dev dt) ∧ (d.bit Fld.FUM_CFG_GRID_EN = true) ∧
    (d.fum.voteAt + 1000000000 ≤ d.up) :=
  ⟨set [(Reg.FUM_CFG, 1)] s0, 1000000000, later (set [(Reg.FUM_CFG, 1)] s0).dev 1000000000,
    rfl, (by decide +kernel), (by decide +kernel)⟩

theorem witness_AlarmPathRowsComplete_9 : ∃ (s : State) (dt src seq : Nat) (m : VoteMsg) (d d1 : Dev), (d = later s.dev dt) ∧ (d.receive
    src 0 seq = (d1, true)) ∧ (d1.isSummit = true ∧ d1.joined = true) ∧ (d1.view.members.testBit src = true) :=
  ⟨sF, 0, 1, 0, vote0, later sF.dev 0, ((later sF.dev 0).receive 1 0 0).1,
    rfl, (by decide +kernel), (by decide +kernel), (by decide +kernel)⟩

theorem witness_AlarmPathRowsComplete_10 : ∃ (s : State) (dt src seq : Nat) (m : VoteMsg) (d d1 : Dev), (d = later s.dev dt) ∧ (d.receive
    src 0 seq = (d1, true)) ∧ (src = d1.view.summit ∧ d1.joined = true) :=
  ⟨sF1, 0, 1, 0, vote0, later sF1.dev 0, ((later sF1.dev 0).receive 1 0 0).1,
    rfl, (by decide +kernel), (by decide +kernel)⟩

theorem witness_AlarmPathRowsComplete_11 : ∃ (s : State) (dt : Nat) (d : Dev), (d = later s.dev dt) ∧ (d.isSummit = true ∧ d.joined =
    true) ∧ (d.fum.gridAt + 1000000000 ≤ d.up) :=
  ⟨sF, 1000000000, later sF.dev 1000000000,
    rfl, (by decide +kernel), (by decide +kernel)⟩

theorem witness_GeyserRowsComplete_1 : ∃ (s : State) (dt k : Nat) (d : Dev), (d = later s.dev dt) ∧ (d.geyDue = some k) :=
  ⟨sGey {} {}, 60000, 3, later (sGey {} {}).dev 60000,
    rfl, (by decide +kernel)⟩

theorem witness_GeyserRowsComplete_2 : ∃ (s : State) (dt k j : Nat) (d : Dev) (e : LcEntry), (d = later s.dev dt) ∧ (d.geyDue = some k) ∧
    ((d.lc j).ent = some e ∧ 0 < e.hold) ∧ ((d.lc j).under = true) ∧ (((d.lcTick k j).lc j).under = false) :=
  ⟨sHold, 60000, 3, 3, later sHold.dev 60000, { lc0 with hold := 2 },
    rfl, (by decide +kernel), (by decide +kernel), (by decide +kernel), (by decide +kernel)⟩

theorem witness_GeyserRowsComplete_3 : ∃ (s : State) (dt k j : Nat) (d : Dev) (e : LcEntry), (d = later s.dev dt) ∧ (j < 64) ∧ (d.geyDue =
    some k) ∧ ((d.lc j).ent = some e ∧ d.lcFrozen j = true) ∧ ((d.lc j).changes.headD 0 + e.chatWin * 256 ≤ k) ∧ (d.measuring (e.ch / 12)
    = true) :=
  ⟨sCalm, 2000000, 500, 3, later sCalm.dev 2000000, lc0,
    rfl, (by decide +kernel), (by decide +kernel), (by decide +kernel), (by decide +kernel), (by decide +kernel)⟩

theorem witness_GeyserRowsComplete_4 : ∃ (s : State) (dt k n : Nat) (d : Dev) (e : TrigEntry), (d = later s.dev dt) ∧ (d.geyDue = some k)
    ∧ ((d.gey.trigs.getD n {}).ent = some e) ∧ (e.matches (d.allDetectors k).geyVector = true) ∧ ((d.gey.trigs.getD n {}).repeatDue e k =
    true) :=
  ⟨sGey {} { ent := some { trig0 with repeat_ := 1 }, prev := some true, high := true, lastFire := some 200 }, 2000000, 500, 5, later
    (sGey {} { ent := some { trig0 with repeat_ := 1 }, prev := some true, high := true, lastFire := some 200 }).dev 2000000,
    { trig0 with repeat_ := 1 },
    rfl, (by decide +kernel), (by decide +kernel), (by decide +kernel), (by decide +kernel)⟩

theorem witness_GeyserRowsComplete_5 : ∃ (s : State) (dt k n u : Nat) (d : Dev), (d = later s.dev dt) ∧ (d.geyDue = some k) ∧
    ((d.gey.trigs.getD n {}).holdUntil = some u ∧ u ≤ k) :=
  ⟨sGey {} { ent := some trig0, holdUntil := some 500 }, 2000000, 500, 5, 500, later (sGey {}
    { ent := some trig0, holdUntil := some 500 }).dev 2000000,
    rfl, (by decide +kernel), (by decide +kernel)⟩

theorem witness_GeyserRowsComplete_6 : ∃ (s : State) (dt k n : Nat) (d : Dev) (e : TrigEntry), (d = later s.dev dt) ∧ (d.geyDue = some k)
    ∧ ((d.gey.trigs.getD n {}).ent = some e ∧ e.stuckS ≠ 0) ∧ (e.matches (d.allDetectors k).geyVector = true) ∧ ((d.gey.trigs.getD n
    {}).high = true ∧ (d.gey.trigs.getD n {}).stuck = false) ∧ ((d.gey.trigs.getD n {}).since + e.stuckS * 256000 ≤ k) :=
  ⟨sGey {} { ent := some trig0, prev := some true, high := true }, 1001000000, 256244, 5, later (sGey {}
    { ent := some trig0, prev := some true, high := true }).dev 1001000000, trig0,
    rfl, (by decide +kernel), (by decide +kernel), (by decide +kernel), (by decide +kernel), (by decide +kernel)⟩

theorem witness_GeyserRowsComplete_7 : ∃ (s : State) (dt n : Nat) (d x : Dev) (r : RingRec) (rest : List RingRec), (d = later s.dev dt) ∧
    (d.ringOf 7 = some n ∧ d.hostReady = true ∧ (d.ring n).rest = none) ∧ (d.hif.trigQ = r :: rest) ∧ (d.place n 7 r = (x, true)) :=
  ⟨sBuf 7 (dev (fun d => d.setRingQ 7 [⟨zeros 32, true⟩]) s0), 0, 1, later (sBuf 7 (dev (fun d => d.setRingQ 7 [⟨zeros 32, true⟩])
    s0)).dev 0, ((later (sBuf 7 (dev (fun d => d.setRingQ 7 [⟨zeros 32, true⟩]) s0)).dev 0).place 1 7 ⟨zeros 32, true⟩).1, ⟨zeros 32,
    true⟩, [],
    rfl, (by decide +kernel), (by decide +kernel), (by decide +kernel)⟩

theorem witness_GeyserRowsComplete_8 : ∃ (s : State) (v : Word) (d : Dev), (d = later s.dev 0) ∧ (v.toNat.testBit 0 = true ∧ d.bit
    Fld.GEY_CTRL_EN = false) ∧ (d.gatedAt Reg.GEY_CTRL = false) :=
  ⟨s0, 1, later s0.dev 0,
    rfl, (by decide +kernel), (by decide +kernel)⟩

theorem witness_GeyserRowsComplete_9 : ∃ (s : State) (v : Word) (d : Dev), (d = later s.dev 0) ∧ (d.bit Fld.GEY_CTRL_EN = v.toNat.testBit
    0) ∧ (d.gatedAt Reg.GEY_CTRL = false) :=
  ⟨s0, 2, later s0.dev 0,
    rfl, (by decide +kernel), (by decide +kernel)⟩
theorem witness_CycleRowsComplete_1 : ∃ (s : State) (dt : Nat) (d : Dev) (p : Program), (d = later s.dev dt) ∧ (d.program = some p) ∧
    (d.cyc.outputsOn = true ∧ d.boundaryDue p.period = true) ∧ (d.cyc.running = true ∧ d.cyc.stopReq = none ∧ d.cyc.late = false ∧
    d.switchDue = none) :=
  ⟨sCyc id, 5000000, later (sCyc id).dev 5000000, prog0,
    rfl, (by decide +kernel), (by decide +kernel), (by decide +kernel)⟩

theorem witness_CycleRowsComplete_2 : ∃ (s : State) (dt : Nat) (d : Dev) (w r : List (Nat × Bytes)), (d = later s.dev dt) ∧ (d.cyc.running
    = true ∧ d.cyc.executing = true ∧ d.cyc.execDone = false) :=
  ⟨sCyc (fun c => { c with executing := true }), 5000000, later (sCyc (fun c => { c with executing := true })).dev 5000000, [(65536,
    [3])], [(0, [1])],
    rfl, (by decide +kernel)⟩

theorem witness_CycleRowsComplete_3 : ∃ (s : State) (dt carrier : Nat) (d : Dev) (p : Program), (d = later s.dev dt) ∧ (d.program = some p
    ∧ d.outDue p = true) ∧ (d.cyc.outputsOn = true ∧ d.cyc.outPending = true) ∧ (d.cyc.running = true ∧ d.cyc.late = false ∧
    d.cyc.execDone = true) :=
  ⟨sCyc (fun c => { c with outPending := true, execDone := true, work := [(65536, 7), (65792, 1)] }), 5000000, 1, later (sCyc (fun c =>
    { c with outPending := true, execDone := true, work := [(65536, 7), (65792, 1)] })).dev 5000000, prog0,
    rfl, (by decide +kernel), (by decide +kernel), (by decide +kernel)⟩

theorem witness_CycleRowsComplete_4 : ∃ (s : State) (dt : Nat) (d : Dev), (d = later s.dev dt) ∧ (d.cycFaultDue = true) :=
  ⟨sCyc (fun c => { c with late := true, skipped := true, executing := true }), 15000000, later (sCyc (fun c =>
    { c with late := true, skipped := true, executing := true })).dev 15000000,
    rfl, (by decide +kernel)⟩

theorem witness_CycleRowsComplete_5 : ∃ (s : State) (dt : Nat) (d : Dev), (d = later s.dev dt) ∧ (d.cyc.running = true ∧ d.cyc.executing =
    true) ∧ (d.saf.queue.length < 16 ∧ d.saf.queue.all (fun e => decide (e.cls ≠ eLockstep)) = true) :=
  ⟨sCyc (fun c => { c with executing := true }), 0, later (sCyc (fun c => { c with executing := true })).dev 0,
    rfl, (by decide +kernel), (by decide +kernel)⟩

theorem witness_CycleRowsComplete_6 : ∃ (s : State) (dt g : Nat) (d : Dev) (x : FieldTx), (d = later s.dev dt) ∧ ((d.field g).tx = some x)
    ∧ (x.attempts = 0 ∧ x.outAt + 200000 ≤ d.up) :=
  ⟨dev (fun d => d.setFieldTx 1 (some { payload := [], outAt := 5 })) s0, 200005, 1, later (dev (fun d => d.setFieldTx 1 (some
    { payload := [], outAt := 5 })) s0).dev 200005, { payload := [], outAt := 5 },
    rfl, (by decide +kernel), (by decide +kernel)⟩

theorem witness_CycleRowsComplete_7 : ∃ (s : State) (dt g : Nat) (b : Bytes) (d : Dev) (n : Nat) (x : StationSt) (e : StationEntry), (d =
    later s.dev dt) ∧ (28 ≤ b.length ∧ slice b 0 1 = [2] ∧ beNat (slice b 24 4) = crc32 (b.take 24)) ∧ ((d.cyc.outCycle[g]?).join = some
    (beNat (slice b 4 4))) ∧ (d.cyc.stations.find? (fun y => y.2.entry.any (fun e => decide (e.seg = g ∧ e.addr = beNat (slice b 1 1) % 16
    ∧ e.nMod = beNat (slice b 2 1) % 16))) = some (n, x)) ∧ (x.entry = some e ∧ d.gNs < d.cyc.nextBoundary * 250000) :=
  ⟨sCyc (fun c => { c with outCycle := [some 0, none], nextBoundary := 20 }), 0, 0, reply0, later (sCyc (fun c =>
    { c with outCycle := [some 0, none], nextBoundary := 20 })).dev 0, 7, { entry := some station0 }, station0,
    rfl, (by decide +kernel), (by decide +kernel), (by decide +kernel), (by decide +kernel)⟩

theorem witness_CycleRowsComplete_8 : ∃ (s : State) (dt : Nat) (d : Dev) (x : RetCopy), (d = later s.dev dt) ∧ (d.cyc.retDue = some x ∧
    d.cyc.saving = none ∧ d.mramTaken s.key = false) :=
  ⟨sRetDue, 9, later sRetDue.dev 9, ⟨7, 1, 9, 512, []⟩,
    rfl, (by decide +kernel)⟩

theorem witness_CycleRowsComplete_9 : ∃ (s : State) (dt i : Nat) (d : Dev) (x : RetSlot), (d = later s.dev dt) ∧ (d.cyc.saving = some (i,
    x) ∧ i < d.cyc.retSlots.length) :=
  ⟨sCyc (fun c => { c with saving := some (1, ⟨zeros 64, [], 3⟩) }), 0, 1, later (sCyc (fun c =>
    { c with saving := some (1, ⟨zeros 64, [], 3⟩) })).dev 0, ⟨zeros 64, [], 3⟩,
    rfl, (by decide +kernel)⟩

theorem witness_CycleRowsComplete_10 : ∃ (s : State) (v : Word), ((later s.dev 0).gatedAt Reg.RIO_CTRL = false) :=
  ⟨s0, 7,
    (by decide +kernel)⟩
theorem witness_SessionAndFieldRowsComplete_1 : ∃ (s : State) (dt n ep : Nat) (d : Dev) (e : SessEntry) (rest : List Nat), (d = later
    s.dev dt) ∧ ((d.sess n).entry = some e ∧ e.type = 0) ∧ ((d.sess n).todo.dropWhile (fun x => decide (x % max 1 e.rateDiv ≠ 0)) = ep ::
    rest) ∧ ((d.sess n).txOn = true ∧ d.muted e = false ∧ (d.sess n).keyOrphaned = false) ∧ (d.calm = true ∧ (d.serve 0x04 n).2 = true) :=
  ⟨sSessEng, 0, 3, 4, later sSessEng.dev 0, sess0 0, [],
    rfl, (by decide +kernel), (by decide +kernel), (by decide +kernel), (by decide +kernel)⟩

theorem witness_SessionAndFieldRowsComplete_2 : ∃ (s : State) (dt n at_ iv : Nat) (d : Dev) (e : SessEntry) (key : Option KeyVal), (d =
    later s.dev dt) ∧ ((d.sess n).entry = some e ∧ (d.sess n).nextAt = some (at_, iv) ∧ at_ ≤ d.up) ∧ ((d.sess n).txOn = true ∧ (d.sess
    n).keyOrphaned = false ∧ d.muted e = false) ∧ (sessKey s.key e = .ok key) :=
  ⟨sSess { entry := some (sess0 2), txOn := true, nextAt := some (5, 4) }, 9, 3, 5, 4, later (sSess
    { entry := some (sess0 2), txOn := true, nextAt := some (5, 4) }).dev 9, sess0 2, none,
    rfl, (by decide +kernel), (by decide +kernel), (by decide +kernel)⟩

theorem witness_SessionAndFieldRowsComplete_3 : ∃ (s : State) (v : Word) (d : Dev), (d = later s.dev 0) ∧ (d.gatedAt Reg.NET_FLD_CFG =
    false) ∧ (d.net.seedsHeld = false) :=
  ⟨s0, 3, later s0.dev 0,
    rfl, (by decide +kernel), (by decide +kernel)⟩

theorem witness_SessionAndFieldRowsComplete_4 : ∃ (s : State) (dt g : Nat) (f : FieldFrame) (d : Dev), (d = later s.dev dt) ∧ (g < 2 ∧
    d.fbit Fld.NET_FLD_CFG_EN g = true) ∧ (f.fcsOk = true ∧ 64 ≤ f.size ∧ f.size ≤ 1518 ∧ f.etype = d.fld Fld.RIO_CFG_ETYPE) ∧ (f.dst = 2
    ^ 48 - 1 ∨ f.dst = d.reg64 (Reg.NET_FLDn_MAC_LO g)) :=
  ⟨set [(Reg.RIO_CFG, 0x88B5)] (sField none), 0, 1, { dst := 0, etype := 0x88B5, size := 64, fcsOk := true, data := [] }, later (set
    [(Reg.RIO_CFG, 0x88B5)] (sField none)).dev 0,
    rfl, (by decide +kernel), (by decide +kernel), (by decide +kernel)⟩

theorem witness_SessionAndFieldRowsComplete_5 : ∃ (s : State) (dt g at_ : Nat) (d : Dev) (x : FieldTx), (d = later s.dev dt) ∧ (g < 2 ∧
    (d.field g).tx = some x ∧ x.startedAt = some at_) ∧ (d.up < at_ + fieldDur x.payload ∧ d.up ≤ at_ + 51200 ∧ x.attempts < 16) :=
  ⟨sField (some ftx0), 51200, 1, 0, later (sField (some ftx0)).dev 51200, ftx0,
    rfl, (by decide +kernel), (by decide +kernel)⟩

theorem witness_SessionAndFieldRowsComplete_6 : ∃ (s : State) (dt g at_ : Nat) (d : Dev) (x : FieldTx), (d = later s.dev dt) ∧ (g < 2 ∧
    d.fbit Fld.NET_FLD_CFG_EN g = true ∧ (d.field g).tx = some x ∧ x.backoffUntil = some at_ ∧ at_ ≤ d.up) :=
  ⟨sField (some { ftx0 with startedAt := none, backoffUntil := some 7 }), 7, 1, 7, later (sField (some
    { ftx0 with startedAt := none, backoffUntil := some 7 })).dev 7, { ftx0 with startedAt := none, backoffUntil := some 7 },
    rfl, (by decide +kernel)⟩

theorem witness_SessionAndFieldRowsComplete_7 : ∃ (s : State) (dt g : Nat) (d : Dev) (x : FieldTx), (d = later s.dev dt) ∧ (g < 2 ∧ d.fbit
    Fld.NET_FLD_CFG_EN g = true ∧ (d.field g).tx = some x ∧ x.deferring = true ∧ x.isLate d.up false = false) :=
  ⟨sField (some { payload := [], outAt := 0, deferring := true }), 200000, 1, later (sField (some
    { payload := [], outAt := 0, deferring := true })).dev 200000, { payload := [], outAt := 0, deferring := true },
    rfl, (by decide +kernel)⟩

theorem witness_SessionAndFieldRowsComplete_8 : ∃ (s : State) (v : Word) (d : Dev), (d = later s.dev 0) ∧ (d.gatedAt Reg.NET_MDIO = false)
    ∧ (d.bit Fld.NET_MDIO_BUSY = false ∧ v.toNat.testBit 30 = true) :=
  ⟨s0, 0x44230007, later s0.dev 0,
    rfl, (by decide +kernel), (by decide +kernel)⟩

theorem witness_SessionAndFieldRowsComplete_9 : ∃ (s : State) (dt data : Nat) (d : Dev), (d = later s.dev dt) ∧ (d.bit Fld.NET_MDIO_BUSY =
    true) :=
  ⟨set [(Reg.NET_MDIO, 0x80000000)] s0, 0, 77, later (set [(Reg.NET_MDIO, 0x80000000)] s0).dev 0,
    rfl, (by decide +kernel)⟩
theorem witness_MembershipRowsComplete_1 : ∃ (s : State) (dt : Nat) (d : Dev), (d = later s.dev dt) ∧ (d.joined = true ∧ d.fab.hbSentAt +
    250000 ≤ d.up) :=
  ⟨sF, 250000, later sF.dev 250000,
    rfl, (by decide +kernel)⟩

theorem witness_MembershipRowsComplete_2 : ∃ (s : State) (dt src seq : Nat) (d d1 : Dev), (d = later s.dev dt) ∧ (d.receive src 1 seq =
    (d1, true) ∧ d1.view.members.testBit src = true) :=
  ⟨sF, 7, 1, 0, later sF.dev 7, ((later sF.dev 7).receive 1 1 0).1,
    rfl, (by decide +kernel)⟩

theorem witness_MembershipRowsComplete_3 : ∃ (s : State) (dt n : Nat) (d : Dev), (d = later s.dev dt) ∧ (n < 64 ∧ d.joined = true ∧
    d.others.testBit n = true ∧ d.fab.hbAt.find n = some 0 ∧ 1000000 ≤ d.up ∧ d.fab.change = none) :=
  ⟨dev (fun d => d.modFab (fun f => { f with hbAt := [(1, 0)] })) sF, 1000000, 1, later (dev (fun d => d.modFab (fun f =>
    { f with hbAt := [(1, 0)] })) sF).dev 1000000,
    rfl, (by decide +kernel)⟩

theorem witness_MembershipRowsComplete_4 : ∃ (s : State) (dt src seq n : Nat) (d d1 : Dev), (d = later s.dev dt) ∧ (d.receive src 1 seq =
    (d1, true) ∧ d1.others.testBit src = true ∧ d1.others.testBit n = true ∧ n < 64 ∧ d1.fab.change = none) ∧ (coordinator d1.view (2 ^ n)
    d1.deviceNo ≠ d1.deviceNo) :=
  ⟨sF3, 0, 0, 0, 1, later sF3.dev 0, ((later sF3.dev 0).receive 0 1 0).1,
    rfl, (by decide +kernel), (by decide +kernel)⟩

theorem witness_MembershipRowsComplete_5 : ∃ (s : State) (dt src seq u : Nat) (d d1 : Dev) (c : ViewChange), (d = later s.dev dt) ∧
    (d.receive src 1 seq = (d1, true) ∧ d1.others.testBit src = true ∧ d1.fab.change = some c) ∧ (c.joiner = none ∧ coordinator d1.view
    c.suspects d1.deviceNo ≠ d1.deviceNo) :=
  ⟨dev (fun d => d.modFab (fun f => { f with change := some change0 })) sF3, 0, 0, 0, 9, later (dev (fun d => d.modFab (fun f =>
    { f with change := some change0 })) sF3).dev 0, ((later (dev (fun d => d.modFab (fun f => { f with change := some change0 })) sF3).dev
    0).receive 0 1 0).1, change0,
    rfl, (by decide +kernel), (by decide +kernel)⟩

theorem witness_MembershipRowsComplete_6 : ∃ (s : State) (dt src seq : Nat) (m : NewViewMsg) (d d1 : Dev), (d = later s.dev dt) ∧
    (d.receive src 1 seq = (d1, true) ∧ d1.others.testBit src = true ∧ m.prevView = d1.view.num ∧ m.members.testBit d1.deviceNo = true) ∧
    (d1.fab.joinReqs = [] ∧ m.members < 2 ^ 64 ∧ m.summit < 64 ∧ m.view < 2 ^ 32) :=
  ⟨sF3, 0, 0, 0, nv0, later sF3.dev 0, ((later sF3.dev 0).receive 0 1 0).1,
    rfl, (by decide +kernel), (by decide +kernel)⟩

theorem witness_MembershipRowsComplete_7 : ∃ (s : State) (dt src seq : Nat) (m : FwdDone) (d d1 : Dev), (d = later s.dev dt) ∧ (d.receive
    src 1 seq = (d1, true)) :=
  ⟨sF, 0, 1, 0, ⟨4, 2⟩, later sF.dev 0, ((later sF.dev 0).receive 1 1 0).1,
    rfl, (by decide +kernel)⟩

theorem witness_MembershipRowsComplete_8 : ∃ (s : State) (dt src seq : Nat) (d d1 : Dev), (d = later s.dev dt) ∧ (d.receive src 1 seq =
    (d1, true) ∧ d1.joined = true ∧ d1.others.testBit src = true ∧ d1.fab.change = none ∧ src < 64) :=
  ⟨sF, 0, 1, 0, later sF.dev 0, ((later sF.dev 0).receive 1 1 0).1,
    rfl, (by decide +kernel)⟩

theorem witness_MembershipRowsComplete_9 : ∃ (s : State) (dt src seq : Nat) (d d1 : Dev), (d = later s.dev dt) ∧ (d.receive src 1 seq =
    (d1, true) ∧ d1.fab.change.isSome = true ∧ d1.fab.joinReqs = []) :=
  ⟨dev (fun d => d.modFab (fun f => { f with change := some change0 })) sF3, 0, 9, 0, later (dev (fun d => d.modFab (fun f =>
    { f with change := some change0 })) sF3).dev 0, ((later (dev (fun d => d.modFab (fun f => { f with change := some change0 })) sF3).dev
    0).receive 9 1 0).1,
    rfl, (by decide +kernel)⟩

theorem witness_MembershipRowsComplete_10 : ∃ (s : State) (dt t0 : Nat) (d : Dev) (w : WaitCmd), (d = later s.dev dt) ∧ (d.fab.joining =
    some t0 ∧ t0 + 1000000000 ≤ d.up ∧ d.hif.waiting = [w] ∧ w.kind = .fabJoin) :=
  ⟨sJoining, 1000000000, 0, later sJoining.dev 1000000000, { wReacq with kind := .fabJoin },
    rfl, (by decide +kernel)⟩

theorem witness_MembershipRowsComplete_11 : ∃ (s : State) (dt src seq first last i : Nat) (d d1 : Dev), (d = later s.dev dt) ∧ (d.receive
    src 3 seq = (d1, true)) :=
  ⟨sF, 0, 1, 0, 0, 3, 9, later sF.dev 0, ((later sF.dev 0).receive 1 3 0).1,
    rfl, (by decide +kernel)⟩

theorem witness_MembershipRowsComplete_12 : ∃ (s : State) (dt src seq e count : Nat) (r : Rec) (d d1 : Dev) (ent : StreamEntry), (d =
    later s.dev dt) ∧ (d.receive src 3 seq = (d1, true) ∧ (d1.stream r.stream).awaiting = none ∧ (d1.stream r.stream).entry.newest = some
    ent ∧ d1.fab.histWant.find r.stream = none) :=
  ⟨sHist, 0, 1, 0, 5, 2, rec0, later sHist.dev 0, ((later sHist.dev 0).receive 1 3 0).1, local0,
    rfl, (by decide +kernel)⟩

theorem witness_MembershipRowsComplete_13 : ∃ (s : State) (dt src seq view : Nat) (d d1 : Dev), (d = later s.dev dt) ∧ (d.receive src 1
    seq = (d1, true) ∧ view = d1.view.num ∧ src = d1.view.summit) :=
  ⟨sF1, 0, 1, 0, 3, later sF1.dev 0, ((later sF1.dev 0).receive 1 1 0).1,
    rfl, (by decide +kernel)⟩

theorem witness_MembershipRowsComplete_14 : ∃ (s : State) (dt silent : Nat) (d x : Dev), (d = later s.dev dt) ∧ (d.bit
    Fld.FAB_STATUS_ELECTION = true ∧ d.isSummit = true ∧ (d.fab.electVotes ||| silent) &&& d.view.members = d.view.members ∧
    d.fab.electTimes &&& d.view.members = d.view.members) ∧ (x = ((d.setBit Fld.FAB_STATUS_ELECTION false).modFum (fun f =>
    { f with votes := f.votes.keep (fun n _ => !silent.testBit n) })).sendAll d.others (.summit d.view.num)) :=
  ⟨dev (fun d => (d.setBit Fld.FAB_STATUS_ELECTION true).modFab (fun f => { f with electVotes := 1, electTimes := 3 })) sF, 0, 2, (later
    (dev (fun d => (d.setBit Fld.FAB_STATUS_ELECTION true).modFab (fun f => { f with electVotes := 1, electTimes := 3 })) sF).dev 0),
    (((later (dev (fun d => (d.setBit Fld.FAB_STATUS_ELECTION true).modFab (fun f => { f with electVotes := 1, electTimes := 3 })) sF).dev
    0).setBit Fld.FAB_STATUS_ELECTION false).modFum (fun f => { f with votes := f.votes.keep (fun n _ => !(2 : Nat).testBit n) })).sendAll
    (later (dev (fun d => (d.setBit Fld.FAB_STATUS_ELECTION true).modFab (fun f => { f with electVotes := 1, electTimes := 3 })) sF).dev
    0).others (.summit (later (dev (fun d => (d.setBit Fld.FAB_STATUS_ELECTION true).modFab (fun f =>
    { f with electVotes := 1, electTimes := 3 })) sF).dev 0).view.num),
    rfl, (by decide +kernel), (by decide +kernel)⟩

theorem witness_MembershipRowsComplete_15 : ∃ (s : State) (dt n : Nat) (d : Dev), (d = later s.dev dt) ∧ (d.bit Fld.FAB_CFG_AUTO_REJOIN =
    true ∧ d.bit Fld.CRT_STATUS_SPLIT = true ∧ d.fab.joining = none ∧ d.reach n = true ∧ d.fab.rejoinAt = none) :=
  ⟨sSplit, 0, 1, later sSplit.dev 0,
    rfl, (by decide +kernel)⟩
theorem witness_EpochRowsComplete_1 : ∃ (s : State) (dt e : Nat) (d : Dev), (d = later s.dev dt) ∧ (d.craterRuns = true ∧ d.crt.nextSeal ≤
    e ∧ epochTime d.rate e ≤ d.g16 ∧ e ≤ d.crt.nextDeliver + 127 ∧ d.slot e = none) :=
  ⟨sE id, 1, 5, later (sE id).dev 1,
    rfl, (by decide +kernel)⟩

theorem witness_EpochRowsComplete_2 : ∃ (s : State) (dt e corrected : Nat) (d d0 : Dev), (d = later s.dev dt) ∧ (d0 = (d.count
    Reg.CRT_ECC_CORR corrected).count64 Reg.SAF_CORRECTED_LO corrected) ∧ (e = d.crt.nextSeal ∧ d.craterRuns = true ∧ d.deadline e ≤ d.g16
    ∧ e ≤ d.crt.nextDeliver + 127) ∧ (d.ing.streams.all (fun x => x.2.awaiting.isNone && x.2.entry.pend.all (fun p => p.2.isSome)) = true)
    :=
  ⟨sSeal, 1, 1, 2, later sSeal.dev 1, ((later sSeal.dev 1).count Reg.CRT_ECC_CORR 2).count64 Reg.SAF_CORRECTED_LO 2,
    rfl, rfl, (by decide +kernel), (by decide +kernel)⟩

theorem witness_EpochRowsComplete_3 : ∃ (s : State) (dt e corrected : Nat) (d : Dev), (d = later s.dev dt) ∧ (e = d.crt.nextSeal ∧
    d.craterRuns = true ∧ d.bit Fld.CRT_CFG_EARLY_SEAL = true ∧ e ≤ d.crt.nextDeliver + 127 ∧ epochTime d.rate e ≤ d.g16 ∧ (d.dueStreams
    e).all (fun x => decide (x.2.type = 4) || (d.committed e x.1).isSome) = true) ∧ (d.ing.streams.all (fun x => x.2.awaiting.isNone &&
    x.2.entry.pend.all (fun p => p.2.isSome)) = true) :=
  ⟨sSeal, 1, 1, 2, later sSeal.dev 1,
    rfl, (by decide +kernel), (by decide +kernel)⟩

theorem witness_EpochRowsComplete_4 : ∃ (s : State) (dt e : Nat) (d : Dev) (x : EpochSlot) (info : SealInfo), (d = later s.dev dt) ∧
    (d.slot e = some x ∧ x.sealed = some info) ∧ (info.refill ≠ [] ∧ info.reformed = false ∧ e ≤ d.crt.nextConf) :=
  ⟨sSealed 1 at9, 1, 1, later (sSealed 1 at9).dev 1, at9, sealed9,
    rfl, (by decide +kernel), (by decide +kernel)⟩

theorem witness_EpochRowsComplete_5 : ∃ (s : State) (dt e : Nat) (d : Dev) (x : EpochSlot) (info : SealInfo), (d = later s.dev dt) ∧ (e =
    d.crt.nextConf ∧ d.slot e = some x ∧ x.sealed = some info ∧ x.late = [] ∧ x.published = false ∧ info.refill = []) ∧ (d.fab.views = []
    ∧ d.fab.histFeeds = [] ∧ d.crt.manifests.getD e [] = [] ∧ d.fab.fwdDone.find 0 = none) ∧ (d.craterRuns = true ∧ e < d.crt.nextSeal) :=
  ⟨sSealed 0 at0, 1, 0, later (sSealed 0 at0).dev 1, at0, seal0,
    rfl, (by decide +kernel), (by decide +kernel), (by decide +kernel)⟩

theorem witness_EpochRowsComplete_6 : ∃ (s : State) (dt e : Nat) (d : Dev) (x : EpochSlot), (d = later s.dev dt) ∧ (d.slot e = some x ∧
    x.sealed.isSome = true ∧ x.conf = none ∧ x.reported = false ∧ d.deadline e + 1000000 * 2 ^ 16 ≤ d.g16) ∧ (d.partners e = [] ∧ (bitsOf
    64 (d.viewAt e).members).all (fun n => decide (n = d.deviceNo) || ((d.crt.manifests.getD e []).find n).isSome) = true) :=
  ⟨sSealed 0 at0, 1, 0, later (sSealed 0 at0).dev 1, at0,
    rfl, (by decide +kernel), (by decide +kernel)⟩

theorem witness_EpochRowsComplete_7 : ∃ (s : State) (dt i e rx sealAt : Nat) (r old : Rec) (ent : StreamEntry) (a : Amendment) (d : Dev),
    (d = later s.dev dt) ∧ (d.sealedHere e = true ∧ d.entryAt i e = some ent ∧ e < d.crt.nextConf ∧ d.confirmedRec i e = some (old,
    sealAt)) ∧ (d.hasAmend i e = false ∧ old.qual.testBit 0 = false ∧ d.crt.nextSeal ≤ d.fld Fld.CRT_AMEND_HORIZON + e + 1 ∧ (ent.partner
    d.deviceNo = d.deviceNo ∨ d.view.members.testBit (ent.partner d.deviceNo) = false)) ∧ (a =
      { src := 0, shortEpoch := e % 2 ^ 32, primary := d.primaryAt e ent, origQual := old.qual ||| 4, arrival := rx, lateness := min (2 ^ 32 - 1) ((d.g16 - sealAt) / 2 ^ 16 / 1000), record := { r with stream := i, origin := 0 } }) ∧ (amendBytes (d.crt.amends ++ [(e, a)]) ≤ d.fld Fld.CRT_HIST_AMEND_SIZE *
    1048576 ∧ d.ringOf 5 = none ∧ d.hif.amendQ.length ≤ d.crt.amends.length) :=
  ⟨sAmendable, 1, 9, 0, 3, 0, rec1, rec2, local0, amend0, later sAmendable.dev 1,
    rfl, (by decide +kernel), (by decide +kernel), (by decide +kernel), (by decide +kernel)⟩

theorem witness_EpochRowsComplete_8 : ∃ (s : State) (dt e : Nat) (d : Dev) (x : EpochSlot) (info : SealInfo) (c : ConfInfo) (h :
    HistSnap), (d = later s.dev dt) ∧ (e = d.crt.nextDeliver ∧ d.slot e = some x ∧ x.sealed = some info ∧ x.conf = some c) ∧ (h =
    { epoch := e, bytes := d.snapshot e info c, sealAt := info.at_, recs := c.recs }) ∧ (snapsBytes (d.crt.snaps ++ [h]) ≤ d.fld
    Fld.CRT_HIST_SIZE * 1048576 ∧ d.ringOf 4 = none) :=
  ⟨sDone, 1, 0, later sDone.dev 1, done0, seal0, conf0, ⟨0, (later sDone.dev 1).snapshot 0 seal0 conf0, 0, conf0.recs⟩,
    rfl, (by decide +kernel), (by decide +kernel), (by decide +kernel)⟩

theorem witness_EpochRowsComplete_9 : ∃ (s : State) (dt e n : Nat) (d : Dev) (b : BufDesc) (h : HistSnap), (d = later s.dev dt) ∧
    (d.ringOf 4 = some n ∧ d.hostReady = true ∧ d.crt.carry = [] ∧ d.crt.waiting = [e] ∧ d.crt.snaps.find? (fun x => decide (x.epoch = e))
    = some h) ∧ (d.hif.snapPart = none ∧ d.hif.stages = [] ∧ (d.ring n).bufs = [b] ∧ b.ok = true ∧ 0 < h.bytes.length ∧ h.bytes.length ≤
    b.len) :=
  ⟨sToRing, 1, 0, 1, later sToRing.dev 1, ⟨0x1000, 4096, false⟩, snap0,
    rfl, (by decide +kernel), (by decide +kernel)⟩

theorem witness_EpochRowsComplete_10 : ∃ (s : State) (dt src seq e : Nat) (l : List Nat) (d d1 : Dev), (d = later s.dev dt) ∧ (d.receive
    src 2 seq = (d1, true) ∧ d1.pairOpen e = true ∧ d1.crt.first ≤ e ∧ d1.crt.nextSeal ≤ e) :=
  ⟨sE id, 1, 1, 5, 5, [9], later (sE id).dev 1, ((later (sE id).dev 1).receive 1 2 5).1,
    rfl, (by decide +kernel)⟩

theorem witness_EpochRowsComplete_11 : ∃ (s : State) (dt src seq e : Nat) (r : Rec) (d d1 : Dev), (d = later s.dev dt) ∧ (d.receive src 2
    seq = (d1, true) ∧ d1.pairOpen e = true ∧ (d1.pair e src).announced = none) :=
  ⟨sE id, 1, 1, 5, 5, rec0, later (sE id).dev 1, ((later (sE id).dev 1).receive 1 2 5).1,
    rfl, (by decide +kernel)⟩

theorem witness_EpochRowsComplete_12 : ∃ (s : State) (dt src seq e n : Nat) (d d1 : Dev), (d = later s.dev dt) ∧ (d.receive src 2 seq =
    (d1, true) ∧ d1.pairOpen e = true ∧ (d1.pair e src).recs.length < n) :=
  ⟨sE id, 1, 1, 5, 5, 1, later (sE id).dev 1, ((later (sE id).dev 1).receive 1 2 5).1,
    rfl, (by decide +kernel)⟩

theorem witness_EpochRowsComplete_13 : ∃ (s : State) (dt src seq e n : Nat) (d d1 : Dev), (d = later s.dev dt) ∧ (d.receive src 2 seq =
    (d1, true) ∧ d1.pairOpen e = true) :=
  ⟨sE id, 1, 1, 5, 5, 0, later (sE id).dev 1, ((later (sE id).dev 1).receive 1 2 5).1,
    rfl, (by decide +kernel)⟩

theorem witness_EpochRowsComplete_14 : ∃ (s : State) (dt e : Nat) (d : Dev) (x : EpochSlot) (info : SealInfo), (d = later s.dev dt) ∧
    (d.slot e = some x ∧ x.sealed = some info ∧ x.published = false) ∧ (d.pairsDone e = true ∧ (info.refill = [] ∨ info.reformed = true))
    :=
  ⟨sSealed2 [], 1, 0, later (sSealed2 []).dev 1, at0, seal0,
    rfl, (by decide +kernel), (by decide +kernel)⟩

theorem witness_EpochRowsComplete_15 : ∃ (s : State) (dt src seq : Nat) (m : Manifest) (d d1 : Dev), (d = later s.dev dt) ∧ (d.receive src
    2 seq = (d1, true) ∧ d1.takesManifest m = true ∧ ((d1.crt.manifests.getD m.epoch []).find m.device) = none) ∧ (d1.joined = false ∨
    (d1.craterRuns = true ∧ d1.crt.first ≤ m.epoch)) :=
  ⟨sE id, 1, 1, 5, man0 1, later (sE id).dev 1, ((later (sE id).dev 1).receive 1 2 5).1,
    rfl, (by decide +kernel), (by decide +kernel)⟩

theorem witness_EpochRowsComplete_16 : ∃ (s : State) (dt src seq e : Nat) (a : Amendment) (d d1 : Dev), (d = later s.dev dt) ∧ (d.receive
    src 2 seq = (d1, true) ∧ e = epochOfShort d1.crt.nextSeal a.shortEpoch ∧ d1.hasAmend a.record.stream e = false) ∧ (amendBytes
    (d1.crt.amends ++ [(e, { a with src := 1 })]) ≤ d1.fld Fld.CRT_HIST_AMEND_SIZE * 1048576 ∧ d1.ringOf 5 = none ∧ d1.hif.amendQ.length ≤
    d1.crt.amends.length) :=
  ⟨sLate 0, 1, 1, 5, 0, amend0, later (sLate 0).dev 1, ((later (sLate 0).dev 1).receive 1 2 5).1,
    rfl, (by decide +kernel), (by decide +kernel)⟩

theorem witness_EpochRowsComplete_17 : ∃ (s : State) (dt src seq e : Nat) (r : Rec) (d d1 : Dev) (ent : StreamEntry), (d = later s.dev dt)
    ∧ (d.receive src 2 seq = (d1, true) ∧ d1.entryAt r.stream e = some ent ∧ ent.type = 5 ∧ ent.primary ≠ d1.deviceNo) ∧ (nearestEpoch
    d1.rate (epochTime d1.rate e) = e ∧ alignedTo d1.rate (d1.fld Fld.CRT_ALIGN_TOL) e (epochTime d1.rate e) = true) ∧ (d1.craterRuns =
    true ∧ d1.crt.first ≤ e ∧ d1.crt.nextSeal ≤ e ∧ e ≤ d1.crt.nextDeliver + 127 ∧ d1.stored e r.stream = none) :=
  ⟨sMirrored, 1, 1, 5, 5, rec0, later sMirrored.dev 1, ((later sMirrored.dev 1).receive 1 2 5).1, local1,
    rfl, (by decide +kernel), (by decide +kernel), (by decide +kernel)⟩
theorem witness_KeyStoreRowsComplete_1 : ∃ (s : State) (dt : Nat) (d : Dev), (d = later s.dev dt) ∧ (d.bit Fld.CLK_STATUS_PLL_LOCK = true
    ∧ d.clk.keyStarted = false ∧ d.bit Fld.CLK_STATUS_RESCUE = false ∧ s.key.started = false) ∧ (s.key.lc = .blank ∧ s.key.trngFail =
    false ∧ s.key.journal = none) :=
  ⟨sPll {}, 0, later (sPll {}).dev 0,
    rfl, (by decide +kernel), (by decide +kernel)⟩

theorem witness_KeyStoreRowsComplete_2 : ∃ (s : State) (dt n : Nat) (x : Slot) (d : Dev), (d = later s.dev dt) ∧ (s.key.started = true ∧
    s.key.interrupted = false ∧ s.key.slot n = some x ∧ x.state = .valid ∧ s.key.descends s.key.sweep 5 n = true) :=
  ⟨sKey { keyTree with sweep := [3] }, 0, 40, { slotOf 1 2 3 3 with next := some { keyId := 4, bytes := zeros 32 } }, later (sKey
    { keyTree with sweep := [3] }).dev 0,
    rfl, (by decide +kernel)⟩

theorem witness_KeyStoreRowsComplete_3 : ∃ (s : State) (dt : Nat) (d : Dev), (d = later s.dev dt) ∧ (s.key.trngFail = false) :=
  ⟨s0, 0, later s0.dev 0,
    rfl, (by decide +kernel)⟩

theorem witness_KeyStoreRowsComplete_4 : ∃ (s : State) (dt : Nat) (d : Dev), (d = later s.dev dt) ∧ (s.key.trngFail = true ∧
    s.key.enrolWaits = false) :=
  ⟨{ s0 with key := { trngFail := true } }, 0, later s0.dev 0,
    rfl, (by decide +kernel)⟩

theorem witness_KeyStoreRowsComplete_5 : ∃ (s : State) (c : Ctx) (d : Dev) (first count : Nat) (buf : HostBuf), (ready s.dev c.ring false
    none) ∧ (d = fetched s.dev c.ring) ∧ (1 ≤ count ∧ count ≤ 256 ∧ first + count ≤ 1024 ∧ 16 * count ≤ buf.len) :=
  ⟨sR, c0, fetched sR.dev 0, 1023, 1, ⟨0x1000, 16⟩,
    (by unfold ready; decide +kernel), rfl, (by decide +kernel)⟩

theorem witness_KeyStoreRowsComplete_6 : ∃ (s : State) (c : Ctx) (d : Dev), (d = later s.dev 0) ∧ (ready s.dev c.ring true none) ∧
    (s.key.rootFail = true ∧ s.key.lc ≠ .blank ∧ s.key.lc ≠ .returned ∧ s.key.trngFail = false) :=
  ⟨{ sR with key := { keyTree with rootFail := true } }, c0, later sR.dev 0,
    rfl, (by unfold ready; decide +kernel), (by decide +kernel)⟩

end Sys2Proof.Tests
end

section
/-! Proofs about the scope statements: comparison by signed difference, the state after reset, commands of the time unit, and reads of
gated blocks. -/

namespace Sys2Proof

/-! ## Comparison by signed difference (R9) -/

/-- The difference that R9 takes modulo 2ⁿ in natural numbers is that of the whole numbers. -/
theorem natCast_modular_sub (n a b : Nat) :
    (((a % 2 ^ n + 2 ^ n - b % 2 ^ n) % 2 ^ n : Nat) : Int) = ((a : Int) - b) % (2 ^ n : Nat) := by
  have hb : b % 2 ^ n < 2 ^ n := Nat.mod_lt _ (by positivity)
  rw [Int.natCast_mod, Nat.cast_sub (by omega), Nat.cast_add, Int.natCast_mod, Int.natCast_mod, add_sub_right_comm,
    Int.add_emod_right, Int.sub_emod_emod, Int.emod_sub_emod]

/-- R9's signed difference is the balanced remainder of the library. -/
theorem signedDiff_eq_bmod {n : Nat} (hn : 0 < n) (a b : Nat) : signedDiff n a b = Int.bmod ((a : Int) - b) (2 ^ n) := by
  have half : 2 * 2 ^ (n - 1) = 2 ^ n := mul_pow_sub_one hn.ne' 2
  have bound : (((2 ^ n : Nat) : Int) + 1) / 2 = ((2 ^ (n - 1) : Nat) : Int) := by omega
  simp only [signedDiff, Int.bmod, ← natCast_modular_sub, bound, Nat.cast_lt]

theorem neg_le_signedDiff {n : Nat} (hn : 0 < n) (a b : Nat) : -(2 : Int) ^ (n - 1) ≤ signedDiff n a b := by
  rw [signedDiff_eq_bmod hn]
  have half : (2 : Int) * 2 ^ (n - 1) = 2 ^ n := mul_pow_sub_one hn.ne' 2
  have h := Int.le_bmod (x := (a : Int) - b) (m := 2 ^ n) (by positivity)
  push_cast at h
  omega

theorem signedDiff_lt {n : Nat} (hn : 0 < n) (a b : Nat) : signedDiff n a b < (2 : Int) ^ (n - 1) := by
  rw [signedDiff_eq_bmod hn]
  have half : (2 : Int) * 2 ^ (n - 1) = 2 ^ n := mul_pow_sub_one hn.ne' 2
  have h := Int.bmod_lt (x := (a : Int) - b) (m := 2 ^ n) (by positivity)
  push_cast at h
  omega

theorem dvd_signedDiff_sub {n : Nat} (hn : 0 < n) (a b : Nat) : (2 : Int) ^ n ∣ signedDiff n a b - ((a : Int) - b) := by
  rw [signedDiff_eq_bmod hn]
  exact_mod_cast Int.dvd_bmod_sub_self (x := (a : Int) - b) (m := 2 ^ n)

/-- The low bits of two counts less than 2ⁿ⁻¹ apart have the counts' own difference. -/
theorem signedDiff_mod_of_near {n : Nat} (hn : 0 < n) {x y : Nat} (h : ((x : Int) - y).natAbs < 2 ^ (n - 1)) :
    signedDiff n (x % 2 ^ n) (y % 2 ^ n) = (x : Int) - y := by
  have half : 2 * 2 ^ (n - 1) = 2 ^ n := mul_pow_sub_one hn.ne' 2
  rw [signedDiff_eq_bmod hn, Int.natCast_mod, Int.natCast_mod, Int.sub_emod_bmod, Int.emod_sub_bmod]
  exact Int.bmod_eq_of_le (by omega) (by omega)

theorem laterThan_iff (n a b : Nat) : laterThan n a b = true ↔ 0 < signedDiff n a b := decide_eq_true_iff

/-- Settles O51: the signed difference is the balanced remainder of a - b modulo 2ⁿ, which is fixed by its range and its residue. -/
theorem signedDifferenceCompares : Obligations.SignedDifferenceCompares := by
  unfold Obligations.SignedDifferenceCompares
  intro n a b hn
  refine ⟨neg_le_signedDiff hn a b, Int.le_sub_one_of_lt (signedDiff_lt hn a b), dvd_signedDiff_sub hn a b, laterThan_iff n a b, ?_, ?_⟩
  · intro h
    have pos : (0 : Int) < 2 ^ (n - 1) := by positivity
    exact decide_eq_false (by omega)
  · rintro x y rfl rfl near
    rw [laterThan_iff, signedDiff_mod_of_near hn near]
    omega

end Sys2Proof

namespace Sys2Proof.Machine

open Sys2Proof

/-! ## What the passing of time leaves as it was -/

@[simp] theorem later_out (d : Dev) (dt : Nat) : (later d dt).out = [] := rfl
@[simp] theorem later_bit (d : Dev) (dt : Nat) (f : FieldAt) : (later d dt).bit f = d.bit f := rfl

/-! ## The state after reset -/

/-- A key store as it leaves the factory is sound: it holds nothing, and it is BLANK. -/
theorem keySound_new : keySound {} := by simp [keySound]

theorem reset_ring_disabled (n : Nat) (h : n < 32) : State.reset.dev.bit (Fld.HIF_RINGn_CFG_EN n) = false := by
  revert n; decide +kernel

/-- No bit of CLK_GATE_STATUS is set in the reset words. -/
theorem reset_not_gated (b : Nat) : State.reset.dev.gated b = false := by
  have h : State.reset.dev.fld Fld.CLK_GATE_STATUS_GATED = 0 := by decide +kernel
  simp [Dev.gated, Dev.fbit, h]

/-- Settles O47: the reset words hold no enable and no gate, and every part that has none starts empty. -/
theorem resetLeavesASafeState : Obligations.ResetLeavesASafeState := by
  unfold Obligations.ResetLeavesASafeState
  have safeNow : safe State.reset := ⟨keySound_new, rfl⟩
  have idReg : State.reset.dev.reg Reg.GLB_ID = 0x084001B0 := by decide +kernel
  have cmdReady : State.reset.dev.bit Fld.HIF_STATUS_CMD_READY = false := by decide +kernel
  have ingest : State.reset.dev.bit Fld.ING_CTRL_EN = false := by decide +kernel
  have crater : State.reset.dev.craterRuns = false := by decide +kernel
  have links : State.reset.dev.fld Fld.FAB_CTRL_LINK_EN = 0 := by decide +kernel
  exact ⟨safeNow, rfl, idReg, cmdReady, ingest, crater, links, rfl, reset_ring_disabled, fun b _ => reset_not_gated b, rfl, rfl, rfl⟩

/-! ## Commands of the time unit -/

/-- What each check of TIM_SET answers. -/
theorem timSet_of_outOfRange {sec ns frac : Nat} (d : Dev) (h : 1000000000 ≤ ns ∨ 2 ^ 48 ≤ sec ∨ 2 ^ 16 ≤ frac) :
    timSet sec ns frac d = (d, .done sRange 0) := if_pos h

theorem timSet_of_acquired {sec ns frac : Nat} {d : Dev} (h : ¬ (1000000000 ≤ ns ∨ 2 ^ 48 ≤ sec ∨ 2 ^ 16 ≤ frac))
    (ha : d.acquired = true) : timSet sec ns frac d = (d, .done sBusy 0) := by
  rw [timSet, if_neg h, if_pos ha]

theorem timSet_of_free {sec ns frac : Nat} {d : Dev} (h : ¬ (1000000000 ≤ ns ∨ 2 ^ 48 ≤ sec ∨ 2 ^ 16 ≤ frac))
    (ha : d.acquired = false) : timSet sec ns frac d =
      (((d.stepGTime ((((sec * 1000000000 + ns : Nat) : Rat) + (frac : Rat) / 65536) - (d.tim.acc : Rat) / 2 ^ 40)).setBit
        Fld.TIM_STATUS_HOST_SET true).refreshDomains, .ok) := by
  rw [timSet, if_neg h, if_neg (by simp [ha])]

/-- TIM_SET that changes nothing: S_RANGE comes before S_BUSY (log 15). -/
theorem timSet_refused {sec ns frac : Nat} {d : Dev} (h : d.acquired = true ∨ 1000000000 ≤ ns ∨ 2 ^ 48 ≤ sec ∨ 2 ^ 16 ≤ frac) :
    timSet sec ns frac d
      = (d, .done (if 1000000000 ≤ ns ∨ 2 ^ 48 ≤ sec ∨ 2 ^ 16 ≤ frac then sRange else sBusy) 0) := by
  by_cases hr : 1000000000 ≤ ns ∨ 2 ^ 48 ≤ sec ∨ 2 ^ 16 ≤ frac
  · rw [timSet_of_outOfRange d hr, if_pos hr]
  · rw [timSet_of_acquired hr (h.resolve_right hr), if_neg hr]

/-- Settles O22: each command is accepted, and its own checks give the answer. -/
theorem timeCommandsComplete : Obligations.TimeCommandsComplete := by
  unfold Obligations.TimeCommandsComplete
  refine ⟨?_, ?_, ?_, ?_, ?_, ?_⟩
  · rintro s c d sec ns frac hr rfl ⟨hfree, hns, hsec, hfrac⟩
    refine (run_accept_ready (fun _ => timSet sec ns frac) hr).trans ?_
    rw [timSet_of_free (by omega) hfree]
  · rintro s c d sec ns frac hr rfl h
    refine (run_accept_ready (fun _ => timSet sec ns frac) hr).trans ?_
    rw [timSet_refused h]
  · rintro s c d hr rfl ⟨hen, hcyc, hwait⟩
    refine (run_accept_ready (fun _ => timReacquire) hr).trans ?_
    simp [timReacquire, hen, hcyc, hwait]
  · rintro s c d hr rfl h
    refine (run_accept_ready (fun _ => timReacquire) hr).trans ?_
    simp [timReacquire, or_assoc, h]
  · rintro s c d p tx buf hr rfl ⟨hp, hlen⟩
    refine (run_accept_ready (fun _ => tsRead p tx buf) hr).trans ?_
    rw [tsRead, if_neg (by omega)]
  · rintro s c d p tx buf hr rfl h
    refine (run_accept_ready (fun _ => tsRead p tx buf) hr).trans ?_
    rw [tsRead, if_pos h]

/-! ## Reads of gated blocks (R20, R533) -/

/-- Every register with a clock gate lies below 0x18_0000, in BAR0. -/
theorem gateOf_eq_none {off : Nat} (h : 0x180000 ≤ off) : gateOf off = none := by
  unfold gateOf
  iterate 9 rw [if_neg (by omega)]

theorem lt_of_gated {d : Dev} {off : Nat} (h : (gateOf off).any d.gated = true) : off < 0x180000 := by
  by_contra hle
  simp [gateOf_eq_none (not_lt.mp hle)] at h

theorem gatedAt_of_gate {d : Dev} {off : Nat} (h : (gateOf off).any d.gated = true) : d.gatedAt off = true := by simp [Dev.gatedAt, h]

/-- In RESCUE every block counts as gated but those that run in it. -/
theorem gatedAt_of_rescue {d : Dev} {off : Nat} (h : d.bit Fld.CLK_STATUS_RESCUE = true) (hoff : runsInRescue off = false) :
    d.gatedAt off = true := by simp [Dev.gatedAt, h, hoff]

theorem barRead_gated (k : KeySt) {d : Dev} {off : Nat} (ha : off % 4 = 0) (hg : d.gatedAt off = true) :
    d.barRead k off 4 = d.emit (.readData 0xFFFFFF06) := by
  simp [Dev.barRead, Dev.read4, ha, hg]

/-- A read of 4 bytes within BAR0 that meets a gated block answers at once, and only the answer is new. -/
theorem exec_loReadLatch_gated {s : State} {off : Nat} (hlt : off < 0x400000) (ha : off % 4 = 0) (hg : (later s.dev 0).gatedAt off = true) :
    exec (.loReadLatch off 4) s = .next { s with dev := (later s.dev 0).emit (.readData 0xFFFFFF06) } := by
  rw [← barRead_gated s.key ha hg]
  simp only [exec, execLoReadLatch, State.run, if_pos hlt]
  rfl

/-- A read from 0x40_0000 on is one of BAR2 (log 13): it answers what the doorbells hold, and no gate concerns it. -/
theorem exec_loReadLatch_bar2 (s : State) {off : Nat} (size : Nat) (h : 0x400000 ≤ off) :
    exec (.loReadLatch off size) s
      = .next { s with dev := (later s.dev 0).emit (.readData ((later s.dev 0).doorbellRead (off - 0x400000) size)) } := by
  simp only [exec, execLoReadLatch, State.run, if_neg (not_lt.mpr h)]
  rfl

/-- Settles O52: a clock gate belongs to registers of BAR0 only, where a read of a gated block is answered at once. -/
theorem gatedReadsAnswerAtOnce : Obligations.GatedReadsAnswerAtOnce := by
  unfold Obligations.GatedReadsAnswerAtOnce
  refine ⟨fun s off ha hg => ?_, rfl⟩
  have hlt : off < 0x400000 := (lt_of_gated hg).trans (by decide)
  exact exec_loReadLatch_gated hlt ha (gatedAt_of_gate hg)

/-! ## A doorbell read in RESCUE -/

/-- The device after reset, held in RESCUE. -/
def rescueState : State := { State.reset with dev := State.reset.dev.setBit Fld.CLK_STATUS_RESCUE true }

/-- The offset of ring 0's doorbell stands for no block of BAR0 that runs in RESCUE, so it counts as gated. -/
theorem rescueState_gatedAt_doorbell : (later rescueState.dev 0).gatedAt 0x400000 = true := by
  have rescue : rescueState.dev.bit Fld.CLK_STATUS_RESCUE = true := State.reset.dev.bit_setBit_same _ true (by decide) (by decide)
  exact gatedAt_of_rescue (by rw [later_bit, rescue]) (by decide)

theorem rescueState_doorbellRead : (later rescueState.dev 0).doorbellRead 0 4 = 0 := by decide +kernel

/-- Refutes O39: its clause on reads of a gated block does not keep to BAR0. In RESCUE the doorbell of ring 0 at 0x40_0000, which is BAR2
(log 13), counts as gated, and a read of it answers DONE, 0, and not 0xFFFF_FF06. For offsets of BAR0 the clause holds:
`exec_loReadLatch_gated`. -/
theorem not_registerAccessesTakeEffect : ¬ Obligations.RegisterAccessesTakeEffect := by
  unfold Obligations.RegisterAccessesTakeEffect
  rintro ⟨-, -, -, -, -, -, -, -, -, -, gatedRead, -⟩
  obtain ⟨t, step, -, out⟩ := gatedRead rescueState 0x400000 _ rfl ⟨by decide, rescueState_gatedAt_doorbell⟩
  rw [exec_loReadLatch_bar2 _ _ le_rfl] at step
  cases step
  simp [rescueState_doorbellRead] at out

end Sys2Proof.Machine
end

section
/-! Proofs' shared layer: what a row of the table answers, messages received and sent over the fabric, the open-epoch store, and counters. -/

namespace Sys2Proof.Machine

open Sys2Proof

/-! ## What a row answers -/

/-- The device that a command leaves which runs on the device alone. -/
theorem dev_of_run {s t : State} {dt : Nat} {f : KeySt → Dev → Dev} (h : s.run dt f = .next t) : t.dev = f s.key (later s.dev dt) := by
  cases h; rfl

/-- What a row leaves: its frame, and what holds with its device in place. -/
theorem exists_run_moves {P : State → Prop} {s : State} {dt : Nat} {f : KeySt → Dev → Dev} {d : Dev} {l : List Part} {p : Nat → Prop}
    (e : f s.key (later s.dev dt) = d) (frame : only l p (later s.dev dt) d) (h : P { s with dev := d }) :
    ∃ t, s.run dt f = .next t ∧ moves s dt l p t ∧ P t := ⟨_, rfl, ⟨rfl, rfl, e ▸ frame⟩, e ▸ h⟩

/-- A row whose condition does not hold changes nothing. -/
theorem run_idle {s : State} {dt : Nat} {f : KeySt → Dev → Dev} (l : List Part) (p : Nat → Prop)
    (e : f s.key (later s.dev dt) = later s.dev dt) : ∃ t, s.run dt f = .next t ∧ moves s dt l p t :=
  ⟨_, rfl, rfl, rfl, e.symm ▸ only_refl l p _⟩

/-! ## Messages received -/

/-- A message that is taken is received by the device that has noted it. -/
theorem receive_of_taken {d : Dev} {src vc seq : Nat} (h : (d.receive src vc seq).2 = true) :
    d.receive src vc seq = ((d.receive src vc seq).1, true) := Prod.ext rfl h

section Received

variable {d d1 : Dev} {src vc seq : Nat}

theorem onMsg_of_receive (h : d.receive src vc seq = (d1, true)) (f : Dev → Dev) : d.onMsg src vc seq f = f d1 := by
  simp [Dev.onMsg, h]

/-- A message that is taken comes from another device, and only its number and the acknowledgement owed are noted. -/
theorem receive_taken (h : d.receive src vc seq = (d1, true)) :
    src ≠ d.deviceNo ∧ ∃ rx due, d1 = { d with fab := { d.fab with rxMsg := rx, ackDue := due } } := by
  unfold Dev.receive at h
  simp only at h
  split at h
  · cases h
  · rename_i hsrc
    refine ⟨fun e => hsrc (.inl e), ?_⟩
    split at h
    · cases h; exact ⟨_, _, rfl⟩
    · split at h
      · cases h; exact ⟨_, _, rfl⟩
      · cases h

theorem receive_crt (h : d.receive src vc seq = (d1, true)) : d1.crt = d.crt := by
  obtain ⟨-, _, _, rfl⟩ := receive_taken h
  rfl

theorem receive_src (h : d.receive src vc seq = (d1, true)) : src ≠ d1.deviceNo := by
  obtain ⟨hsrc, _, _, rfl⟩ := receive_taken h
  exact hsrc

theorem receive_deviceNo (h : d.receive src vc seq = (d1, true)) : d1.deviceNo = d.deviceNo := by
  obtain ⟨-, _, _, rfl⟩ := receive_taken h
  rfl

theorem receive_only (h : d.receive src vc seq = (d1, true)) (p : Nat → Prop) : only [.fab] p d d1 := by
  obtain ⟨-, _, _, rfl⟩ := receive_taken h
  exact only_of_kept (by simp [keptBut]) rfl

/-- The row of a message that is taken has its effect on the device that has noted it. -/
theorem exists_onMsg_moves {P : State → Prop} {s : State} {dt : Nat} {f : Dev → Dev} {t : Dev} {l : List Part} {p : Nat → Prop}
    (h : (later s.dev dt).receive src vc seq = (d1, true)) (hl : Part.fab ∈ l) (e : f d1 = t) (frame : only l p d1 t)
    (post : P { s with dev := t }) :
    ∃ t, s.run dt (fun _ x => x.onMsg src vc seq f) = .next t ∧ moves s dt l p t ∧ P t :=
  exists_run_moves ((onMsg_of_receive h f).trans e)
    (only_trans (only_mono (by rintro _ hx; cases List.mem_singleton.mp hx; exact hl) (fun _ x => x) (receive_only h p)) frame) post

/-- The same of the frame alone. -/
theorem exists_onMsg_only {s : State} {dt : Nat} {f : Dev → Dev} {t : Dev} {l : List Part} {p : Nat → Prop}
    (h : (later s.dev dt).receive src vc seq = (d1, true)) (hl : Part.fab ∈ l) (e : f d1 = t) (frame : only l p d1 t) :
    ∃ t, s.run dt (fun _ x => x.onMsg src vc seq f) = .next t ∧ moves s dt l p t := by
  obtain ⟨t, run, mv, -⟩ := exists_onMsg_moves (P := fun _ => True) h hl e frame trivial
  exact ⟨t, run, mv⟩

/-- The row of a message that is taken and has no effect leaves the note of it. -/
theorem exists_onMsg_idle {s : State} {dt : Nat} {f : Dev → Dev} (h : (later s.dev dt).receive src vc seq = (d1, true)) (e : f d1 = d1) :
    ∃ t, s.run dt (fun _ x => x.onMsg src vc seq f) = .next t ∧ moves s dt [.fab] (fun _ => False) t :=
  exists_onMsg_only h (by simp) e (only_refl _ _ _)

end Received

/-! ## Packets on the links -/

/-- From `d` to `t` only the links and the outputs have changed. -/
def linksOnly (d t : Dev) : Prop := ∃ links out, t = { d with fab := { d.fab with links := links }, out := out }

theorem linksOnly_refl (d : Dev) : linksOnly d d := ⟨_, _, rfl⟩

theorem linksOnly_trans {a b c : Dev} (h : linksOnly a b) (k : linksOnly b c) : linksOnly a c := by
  obtain ⟨_, _, rfl⟩ := h
  obtain ⟨_, _, rfl⟩ := k
  exact ⟨_, _, rfl⟩

theorem linksOnly_ite {c : Prop} [Decidable c] {d a b : Dev} (h : linksOnly d a) (k : linksOnly d b) : linksOnly d (if c then a else b) := by
  split <;> assumption

theorem setLink_linksOnly (d : Dev) (l : Nat) (s : LinkSt) : linksOnly d (d.setLink l s) := ⟨_, _, rfl⟩
theorem modLink_linksOnly (d : Dev) (l : Nat) (f : LinkSt → LinkSt) : linksOnly d (d.modLink l f) := ⟨_, _, rfl⟩
theorem emit_linksOnly (d : Dev) (o : Out) : linksOnly d (d.emit o) := ⟨_, _, rfl⟩

theorem startGrow_linksOnly (d : Dev) (l : Nat) (b : Bool) : linksOnly d (d.startGrow l b) := by
  unfold Dev.startGrow
  simp only
  split
  · exact modLink_linksOnly _ _ _
  · exact linksOnly_refl _

theorem countTraffic_linksOnly (d : Dev) (l n : Nat) : linksOnly d (d.countTraffic l n) := by
  unfold Dev.countTraffic
  exact linksOnly_ite (linksOnly_trans (setLink_linksOnly _ _ _) (startGrow_linksOnly _ _ _)) (setLink_linksOnly _ _ _)

theorem freeBuffer_linksOnly (d : Dev) (inl : Option Nat) (vc n : Nat) : linksOnly d (d.freeBuffer inl vc n) := by
  cases inl with
  | none => exact linksOnly_refl _
  | some m => simp only [Dev.freeBuffer]; exact modLink_linksOnly _ _ _

theorem sendControl_linksOnly (d : Dev) (l : Nat) (nak : Bool) (b : Bytes) : linksOnly d (d.sendControl l nak b) :=
  linksOnly_trans (setLink_linksOnly _ _ _) (linksOnly_trans (countTraffic_linksOnly _ _ _) (emit_linksOnly _ _))

theorem returnCredits_linksOnly (d : Dev) (inl : Option Nat) : linksOnly d (d.returnCredits inl) := by
  cases inl with
  | none => exact linksOnly_refl _
  | some m =>
    simp only [Dev.returnCredits]
    split
    · exact sendControl_linksOnly _ _ _ _
    · exact linksOnly_refl _

theorem pumpLink_linksOnly (l fuel : Nat) (d : Dev) : linksOnly d (Dev.pumpLink l fuel d) := by
  induction fuel generalizing d with
  | zero => exact linksOnly_refl _
  | succ n ih =>
    simp only [Dev.pumpLink]
    split
    · exact linksOnly_refl _
    · split
      · exact setLink_linksOnly _ _ _
      · split
        · exact linksOnly_refl _
        · exact linksOnly_trans (setLink_linksOnly _ _ _) <| linksOnly_trans (countTraffic_linksOnly _ _ _) <|
            linksOnly_trans (emit_linksOnly _ _) <| linksOnly_trans (freeBuffer_linksOnly _ _ _ _) <|
            linksOnly_trans (returnCredits_linksOnly _ _) (ih _)

theorem enqueuePkt_linksOnly (d : Dev) (p : SentPkt) : linksOnly d (d.enqueuePkt p) := by
  unfold Dev.enqueuePkt
  split
  · exact freeBuffer_linksOnly _ _ _ _
  · have pumped (r : Route) : linksOnly d ((d.modLink r.link (fun s => { s with queue := s.queue ++ [p] })).pumpAll r.link) :=
      linksOnly_trans (modLink_linksOnly _ _ _) (pumpLink_linksOnly _ _ _)
    simp only
    split
    · exact linksOnly_trans (pumped _) (startGrow_linksOnly _ _ _)
    · exact pumped _

/-- A relation that every step of a fold keeps is kept by the fold. -/
theorem foldl_keeps {α β : Type} {R : β → β → Prop} (refl : ∀ x, R x x) (trans : ∀ {x y z}, R x y → R y z → R x z) {f : β → α → β}
    (step : ∀ x a, R x (f x a)) (l : List α) (x : β) : R x (l.foldl f x) := by
  induction l generalizing x with
  | nil => exact refl x
  | cons a t ih => exact trans (step x a) (ih _)

theorem transmit_linksOnly (d : Dev) (dst vc seq : Nat) (m : FabMsg) : linksOnly d (d.transmit dst vc seq m) :=
  linksOnly_trans (emit_linksOnly d _) (foldl_keeps (R := fun (a b : Dev × Bool) => linksOnly a.1 b.1) (fun a => linksOnly_refl a.1)
    (fun h k => linksOnly_trans h k) (fun a _ => enqueuePkt_linksOnly a.1 _) _ (d.emit _, true))

/-! ## Messages held and sent -/

/-- A message to a device is held until it is acknowledged. -/
def holds (l : List HeldMsg) (dst : Nat) (m : FabMsg) : Prop := ∃ h ∈ l, h.dst = dst ∧ h.msg = m

/-- From `d` to `t` messages were sent: only the links, the messages held, their numbers and the outputs have changed, and every message that
was held still is. -/
def sends (d t : Dev) : Prop :=
  (∃ links held tx out, t = { d with fab := { d.fab with links := links, held := held, txMsg := tx }, out := out })
    ∧ ∀ dst m, holds d.fab.held dst m → holds t.fab.held dst m

theorem sends_refl (d : Dev) : sends d d := ⟨⟨_, _, _, _, rfl⟩, fun _ _ h => h⟩

theorem sends_trans {a b c : Dev} (h : sends a b) (k : sends b c) : sends a c := by
  obtain ⟨⟨_, _, _, _, rfl⟩, h⟩ := h
  obtain ⟨⟨_, _, _, _, rfl⟩, k⟩ := k
  exact ⟨⟨_, _, _, _, rfl⟩, fun dst m x => k dst m (h dst m x)⟩

theorem sends_of_linksOnly {d t : Dev} (h : linksOnly d t) : sends d t := by
  obtain ⟨_, _, rfl⟩ := h
  exact ⟨⟨_, _, _, _, rfl⟩, fun _ _ x => x⟩

theorem modHeld_sends (d : Dev) (dst vc seq : Nat) {f : HeldMsg → HeldMsg} (hf : ∀ o, (f o).dst = o.dst ∧ (f o).msg = o.msg) :
    sends d (d.modHeld dst vc seq f) := by
  refine ⟨⟨_, _, _, _, rfl⟩, ?_⟩
  rintro dst' m ⟨h, mem, hd, hm⟩
  refine ⟨_, List.mem_map_of_mem mem, ?_⟩
  split
  · exact ⟨(hf h).1.trans hd, (hf h).2.trans hm⟩
  · exact ⟨hd, hm⟩

theorem flushHeld_sends (d : Dev) : sends d d.flushHeld := by
  refine foldl_keeps sends_refl sends_trans (fun x h => ?_) _ d
  split
  · exact sends_refl _
  · split
    · have marked : sends x (x.modHeld h.dst h.vc h.seq (fun o => { o with sent := true, sentAt := x.up, firstAt := x.up })) :=
        modHeld_sends _ _ _ _ (fun _ => ⟨rfl, rfl⟩)
      exact sends_trans marked (sends_of_linksOnly (transmit_linksOnly _ _ _ _ _))
    · exact sends_refl _

theorem send_sends (d : Dev) (dst : Nat) (m : FabMsg) : sends d (d.send dst m) := by
  unfold Dev.send
  split
  · exact sends_refl _
  · refine sends_trans ⟨⟨_, _, _, _, rfl⟩, ?_⟩ (flushHeld_sends _)
    rintro dst' m' ⟨h, mem, hh⟩
    exact ⟨h, List.mem_append_left _ mem, hh⟩

/-- A message sent to another device is held. -/
theorem send_holds {d : Dev} {dst : Nat} (m : FabMsg) (h : dst ≠ d.deviceNo) : holds (d.send dst m).fab.held dst m := by
  unfold Dev.send
  rw [if_neg h]
  exact (flushHeld_sends _).2 _ _ ⟨_, List.mem_append_right _ (List.mem_singleton_self _), rfl, rfl⟩

theorem foldl_send_sends {α : Type} (dst : α → Nat) (msg : α → FabMsg) (l : List α) (d : Dev) :
    sends d (l.foldl (fun (x : Dev) a => x.send (dst a) (msg a)) d) :=
  foldl_keeps sends_refl sends_trans (fun x _ => send_sends x _ _) l d

theorem sendAll_sends (d : Dev) (mask : Nat) (m : FabMsg) : sends d (d.sendAll mask m) := foldl_send_sends (fun n => n) (fun _ => m) _ d

section Sends

variable {d t : Dev} (h : sends d t)

include h

theorem sends_regs : t.regs = d.regs := by obtain ⟨⟨_, _, _, _, rfl⟩, -⟩ := h; rfl
theorem sends_crt : t.crt = d.crt := by obtain ⟨⟨_, _, _, _, rfl⟩, -⟩ := h; rfl
theorem sends_emptyUpTo : t.fab.emptyUpTo = d.fab.emptyUpTo := by obtain ⟨⟨_, _, _, _, rfl⟩, -⟩ := h; rfl
theorem sends_reg (o : Nat) : t.reg o = d.reg o := by rw [Dev.reg, sends_regs h, Dev.reg]
theorem sends_deviceNo : t.deviceNo = d.deviceNo := by simp only [Dev.deviceNo, Dev.fld, sends_reg h]
theorem sends_only (p : Nat → Prop) : only [.fab] p d t := by
  obtain ⟨⟨_, _, _, _, rfl⟩, -⟩ := h
  exact only_of_kept (by simp [keptBut]) rfl

end Sends

/-- Each message of a row of messages to other devices is held. -/
theorem foldl_send_holds {α : Type} (dst : α → Nat) (msg : α → FabMsg) {l : List α} {a : α} (mem : a ∈ l) {d : Dev}
    (h : dst a ≠ d.deviceNo) : holds (l.foldl (fun (x : Dev) a => x.send (dst a) (msg a)) d).fab.held (dst a) (msg a) := by
  induction l generalizing d with
  | nil => cases mem
  | cons b t ih =>
    rcases List.mem_cons.mp mem with rfl | mem
    · exact (foldl_send_sends dst msg t _).2 _ _ (send_holds _ h)
    · exact ih mem (by rwa [sends_deviceNo (send_sends d _ _)])

/-- A message sent to every device of a mask is held for each of them but this one. -/
theorem sendAll_holds {d : Dev} {mask n : Nat} (m : FabMsg) (hlt : n < 64) (hmask : mask.testBit n = true) (hn : n ≠ d.deviceNo) :
    holds (d.sendAll mask m).fab.held n m :=
  foldl_send_holds (fun n => n) (fun _ => m) (List.mem_filter.mpr ⟨List.mem_range.mpr hlt, hmask⟩) hn

/-! ## The open-epoch store -/

theorem setSlot_only (d : Dev) (e : Nat) (x : EpochSlot) (p : Nat → Prop) : only [.crt] p d (d.setSlot e x) :=
  only_of_kept (by simp [keptBut, Dev.setSlot]) rfl

@[simp] theorem setSlot_crt (d : Dev) (e : Nat) (x : EpochSlot) :
    (d.setSlot e x).crt = { d.crt with slots := d.crt.slots.put e x } := rfl

@[simp] theorem setSlot_fab (d : Dev) (e : Nat) (x : EpochSlot) : (d.setSlot e x).fab = d.fab := rfl

@[simp] theorem slot_setSlot_same (d : Dev) (e : Nat) (x : EpochSlot) : (d.setSlot e x).slot e = some x := Tbl.find_put_same _ _ _

theorem slot_setSlot_other (d : Dev) {e e' : Nat} (x : EpochSlot) (h : e' ≠ e) : (d.setSlot e x).slot e' = d.slot e' :=
  Tbl.find_put_other _ _ h

theorem slotD_eq (d : Dev) (e : Nat) : d.slotD e = (d.slot e).getD {} := rfl

theorem slotD_of_slot {d : Dev} {e : Nat} {x : EpochSlot} (h : d.slot e = some x) : d.slotD e = x := by rw [slotD_eq, h]; rfl

@[simp] theorem slotD_setSlot_same (d : Dev) (e : Nat) (x : EpochSlot) : (d.setSlot e x).slotD e = x := slotD_of_slot (slot_setSlot_same d e x)

theorem slot_of_crt {d t : Dev} (h : t.crt = d.crt) (e : Nat) : t.slot e = d.slot e := by rw [Dev.slot, h, Dev.slot]

/-- The pair exchange of an epoch is changed in its slot. -/
theorem setPair_eq (d : Dev) (e p : Nat) (x : PairSt) :
    d.setPair e p x = d.setSlot e { d.slotD e with pairs := (d.slotD e).pairs.put p x } := rfl

@[simp] theorem setPair_fab (d : Dev) (e p : Nat) (x : PairSt) : (d.setPair e p x).fab = d.fab := rfl

theorem setPair_only (d : Dev) (e p : Nat) (x : PairSt) (q : Nat → Prop) : only [.crt] q d (d.setPair e p x) := setSlot_only _ _ _ _

@[simp] theorem pair_setPair_same (d : Dev) (e p : Nat) (x : PairSt) : (d.setPair e p x).pair e p = x := by
  simp [Dev.pair, setPair_eq, Tbl.getD]

theorem slot_setPair_other (d : Dev) {e e' : Nat} (p : Nat) (x : PairSt) (h : e' ≠ e) : (d.setPair e p x).slot e' = d.slot e' :=
  slot_setSlot_other d _ h

theorem pair_of_crt {d t : Dev} (h : t.crt = d.crt) (e p : Nat) : t.pair e p = d.pair e p := by
  rw [Dev.pair, Dev.slotD, h, Dev.pair, Dev.slotD]

/-! ## Counters -/

theorem regN_lt (d : Dev) (o : Nat) : d.regN o < 2 ^ 32 := (d.reg o).isLt

theorem regN_setRegN (d : Dev) (o v k : Nat) : (d.setRegN o v).regN k = if k = o then v % 2 ^ 32 else d.regN k := by
  unfold Dev.regN Dev.setRegN
  rw [reg_setReg]
  split
  · exact BitVec.toNat_ofNat _ _
  · rfl

theorem regN_count (d : Dev) (o n k : Nat) : (d.count o n).regN k = if k = o then (d.regN o + n) % 2 ^ 32 else d.regN k :=
  regN_setRegN d o _ k

theorem reg64_setReg64_same (d : Dev) (lo v : Nat) : (d.setReg64 lo v).reg64 lo = v % 2 ^ 64 := by
  have apart : lo ≠ lo + 4 := by omega
  simp only [Dev.reg64, Dev.setReg64, regN_setRegN, if_neg apart, if_true]
  omega

/-- A 64-bit counter that counts. -/
theorem reg64_count64_same (d : Dev) (lo n : Nat) : (d.count64 lo n).reg64 lo = (d.reg64 lo + n) % 2 ^ 64 := reg64_setReg64_same _ _ _

theorem setReg64_only (d : Dev) (lo v : Nat) : only [.regs] (fun k => k = lo ∨ k = lo + 4) d (d.setReg64 lo v) :=
  only_trans (only_mono (fun _ x => x) (fun _ => .inl) (only_setReg _ _ _)) (only_mono (fun _ x => x) (fun _ => .inr) (only_setReg _ _ _))

theorem count64_only (d : Dev) (lo n : Nat) : only [.regs] (fun k => k = lo ∨ k = lo + 4) d (d.count64 lo n) := setReg64_only _ _ _

theorem count_only (d : Dev) (o n : Nat) : only [.regs] (fun k => k = o) d (d.count o n) := only_setReg _ _ _

theorem setFld_only (d : Dev) (f : FieldAt) (v : Nat) : only [.regs] (fun k => k = f.off) d (d.setFld f v) := only_setReg _ _ _

theorem setBit_only (d : Dev) (f : FieldAt) (b : Bool) : only [.regs] (fun k => k = f.off) d (d.setBit f b) := only_setReg _ _ _

section Only

variable {l : List Part} {p : Nat → Prop} {d t : Dev} (h : only l p d t)

include h

theorem only_regN {o : Nat} (ho : ¬ p o) : t.regN o = d.regN o := by rw [Dev.regN, h.2 o ho, Dev.regN]
theorem only_fld {f : FieldAt} (ho : ¬ p f.off) : t.fld f = d.fld f := by rw [Dev.fld, h.2 _ ho, Dev.fld]
theorem only_bit {f : FieldAt} (ho : ¬ p f.off) : t.bit f = d.bit f := by rw [Dev.bit, only_fld h ho, Dev.bit]
theorem only_reg64 {o : Nat} (ho : ¬ p o) (ho' : ¬ p (o + 4)) : t.reg64 o = d.reg64 o := by
  rw [Dev.reg64, only_regN h ho, only_regN h ho', Dev.reg64]

end Only

end Sys2Proof.Machine
end

section
/-! Proofs about the fabric's membership and Crater's events: two statements that do not keep to waiting commands of rings that exist. -/

namespace Sys2Proof.Machine

open Sys2Proof

/-! ## A FAB_JOIN that waits on a ring beyond the 32 -/

/-- A FAB_JOIN that waits on ring `n`. -/
def joinOn (n : Nat) : WaitCmd := { ring := n, k := 0, session := 0, resAddr := 0, kind := .fabJoin, since := 0 }

/-- A view of devices 0 and 1. -/
def viewOfTwo : FabView := { num := 0, fromEpoch := 0, members := 3, summit := 0, minority := false }

/-- Device 0 in that view, joining by a command of ring `n`, whose STAT would read running; every other register reads 0. -/
def joinerOn (n : Nat) : Dev :=
  { regs := [(Reg.HIF_RINGn_STAT n, 1)], hif := { waiting := [joinOn n] }, fab := { joining := some 0, views := [viewOfTwo] } }

/-! ## NEW_VIEW -/

/-- DONE of ring 32640 would lie at FAB_MEMBERS_HI. -/
def strayJoiner : State := { key := {}, dev := joinerOn 32640, pending := [] }

/-- NEW_VIEW of a view of device 0 alone. -/
def loneViewMsg : NewViewMsg := { view := 1, prevView := 0, fromEpoch := 0, members := 1, summit := 1, minority := false }

theorem strayJoiner_taken : ((later strayJoiner.dev 0).receive 1 1 0).2 = true := by decide +kernel

/-- The completion counts in FAB_MEMBERS_HI. -/
theorem strayJoiner_members :
    ((later strayJoiner.dev 0).onMsg 1 1 0 (fun x => x.newViewRow 1 loneViewMsg)).reg64 Reg.FAB_MEMBERS_LO = 2 ^ 32 + 1 := by decide +kernel

/-- Refutes O58: its clause on NEW_VIEW does not ask that the rings of the waiting commands exist. Where a FAB_JOIN waits on ring 32640, whose
DONE would lie at FAB_MEMBERS_HI, the view installed completes it, and FAB_MEMBERS reads 2³² + 1 for the members 1. -/
theorem not_membershipRowsComplete : ¬ Obligations.MembershipRowsComplete := by
  unfold Obligations.MembershipRowsComplete
  rintro ⟨-, -, -, -, -, newView, -⟩
  obtain ⟨t, step, -, -, members, -⟩ := newView strayJoiner 0 1 0 loneViewMsg _ _ rfl
    ⟨receive_of_taken strayJoiner_taken, by decide +kernel, by decide +kernel, by decide +kernel⟩
    ⟨by decide +kernel, by decide, by decide, by decide⟩
  rw [dev_of_run (f := fun _ d => d.onMsg 1 1 0 (fun x => x.newViewRow 1 loneViewMsg)) step, strayJoiner_members] at members
  exact absurd members (by decide)

/-! ## CONFIRM_TIMEOUT -/

/-- The local seal of an epoch without streams. -/
def bareSeal : SealInfo :=
  { at_ := 0, early := false, suspect := false, index := [], refill := [], reformed := false, published := [], sums := [] }

/-- Epoch 0 with that seal. -/
def bareSlot : EpochSlot := { sealed := some bareSeal }

/-- The manifest of device 0 for it. -/
def bareManifest : Manifest := { device := 0, early := false, timeSuspect := false, view := 0, epoch := 0, entries := [], sums := [] }

/-- Device 0 of two, long past the deadline of epoch 0, of which it holds its own manifest alone; it joins by a command of ring 32. -/
def lateJoiner : State :=
  { key := {}, pending := [], dev := { joinerOn 32 with
      crt := { slots := [(0, bareSlot)], manifests := [(0, [(0, bareManifest)])] }, tim := { acc := 2 ^ 84 } } }

/-- DONE of ring 32 is no register that a message or an event moves. -/
theorem not_eventReg_done32 : ¬ eventReg (Reg.HIF_RINGn_DONE 32) := by
  simp only [eventReg, signalReg, Reg.HIF_RINGn_DONE, Reg.HIF_RINGn_STAT]
  rintro ((⟨n, hn, h | h⟩ | h | h) | h)
  · omega
  · omega
  · omega
  · omega
  · revert h; decide

theorem lateJoiner_done :
    ((later lateJoiner.dev 0).confTimeout 0).reg (Reg.HIF_RINGn_DONE 32) ≠ (later lateJoiner.dev 0).reg (Reg.HIF_RINGn_DONE 32) := by
  decide +kernel

/-- Refutes O40: its clause on CONFIRM_TIMEOUT does not ask that the rings of the waiting commands exist. The silent member of a view of two is
suspected and the view installed without it; a FAB_JOIN that waits on ring 32 completes, and the register that would be DONE of that ring
counts, which is none of those the clause names. -/
theorem not_craterEventsTakeEffect : ¬ Obligations.CraterEventsTakeEffect := by
  unfold Obligations.CraterEventsTakeEffect
  rintro ⟨-, -, -, -, -, -, -, -, -, -, -, -, confirmTimeout, -⟩
  obtain ⟨t, step, ⟨-, -, -, regs⟩, -⟩ := confirmTimeout lateJoiner 0 0 1 _ bareSlot rfl (by decide +kernel) (by decide +kernel)
  rw [dev_of_run (f := fun _ d => d.confTimeout 0) step] at regs
  refine lateJoiner_done (regs (Reg.HIF_RINGn_DONE 32) ?_)
  rintro (h | h | h)
  · exact not_eventReg_done32 h
  · revert h; decide
  · revert h; decide

end Sys2Proof.Machine
end

section
/-! Proofs about the records that owners exchange over the fabric (R38, R116 to R118, R121, R133, R437). -/

namespace Sys2Proof.Machine

open Sys2Proof

/-- A frame with more parts. -/
theorem only_wider {l l' : List Part} {p : Nat → Prop} {d t : Dev} (h : only l p d t) (hl : ∀ x ∈ l, x ∈ l') : only l' p d t :=
  only_mono hl (fun _ x => x) h

/-! ## The pair exchange (R116) -/

section Pairs

variable {d : Dev} {e p n : Nat}

theorem inRun_of_pairOpen (h : d.pairOpen e = true) (hf : d.crt.first ≤ e) : d.inRun e = true := by
  simp only [Dev.pairOpen, Bool.and_eq_true] at h
  simp [Dev.inRun, h.1.1, hf]

/-- PAIR_HAVE of an epoch not sealed yet is noted. -/
theorem pairHave_unsealed {l : List Nat} (h : d.pairOpen e = true) (hf : d.crt.first ≤ e) (hs : d.crt.nextSeal ≤ e) :
    d.pairHave p e l = d.setPair e p { d.pair e p with have_ := some l } := by
  simp [Dev.pairHave, inRun_of_pairOpen h hf, h, Nat.not_lt.mpr hs]

theorem pairHave_outside {l : List Nat} (h : d.inRun e = false) : d.pairHave p e l = d.send p (.pairDone e 0) := by
  simp [Dev.pairHave, h]

/-- PAIR_HAVE of a sealed epoch is answered, and noted while the epoch has a slot. -/
theorem pairHave_sealed {l : List Nat} (h : d.inRun e = true) (hs : e < d.crt.nextSeal) :
    d.pairHave p e l
      = (if d.pairOpen e then d.setPair e p { d.pair e p with have_ := some l } else d).answerHave e p l := by
  simp [Dev.pairHave, h, hs]

/-- What is noted of a partner does not touch the seal. -/
theorem sealOf_setPair (d : Dev) (e p : Nat) (x : PairSt) : (d.setPair e p x).sealOf e = d.sealOf e := by
  unfold Dev.sealOf
  rw [setPair_eq, slot_setSlot_same, slotD_eq]
  cases h : d.slot e <;> rfl

theorem answerHave_of_seal {info : SealInfo} (h : d.sealOf e = some info) (l : List Nat) :
    d.answerHave e p l
      = ((((d.haveFor e p info).filter (fun i => !l.contains i)).filterMap (fun i => info.index.find i)).foldl
          (fun (x : Dev) r => x.send p (.pairRec e r)) d).send p
        (.pairDone e (((d.haveFor e p info).filter (fun i => !l.contains i)).filterMap (fun i => info.index.find i)).length) := by
  simp only [Dev.answerHave, h]

theorem answerHave_sends (d : Dev) (e p : Nat) (l : List Nat) : sends d (d.answerHave e p l) := by
  unfold Dev.answerHave
  split
  · exact sends_refl _
  · exact sends_trans (foldl_send_sends (fun _ => p) (.pairRec e) _ _) (send_sends _ _ _)

/-- The answer holds each record that the partner lacks, and their number. -/
theorem answerHave_holds {info : SealInfo} (h : d.sealOf e = some info) (hp : p ≠ d.deviceNo) (l : List Nat) :
    (∀ i r, i ∈ d.haveFor e p info → l.contains i = false → info.index.find i = some r →
        holds (d.answerHave e p l).fab.held p (.pairRec e r))
      ∧ holds (d.answerHave e p l).fab.held p
          (.pairDone e (((d.haveFor e p info).filter (fun i => !l.contains i)).filterMap (fun i => info.index.find i)).length) := by
  rw [answerHave_of_seal h]
  have recsSent := foldl_send_sends (fun _ : Rec => p) (.pairRec e)
    (((d.haveFor e p info).filter (fun i => !l.contains i)).filterMap (fun i => info.index.find i)) d
  refine ⟨fun i r hi hl hr => (send_sends _ _ _).2 _ _ ?_, send_holds _ (by rwa [sends_deviceNo recsSent])⟩
  have lacked : r ∈ ((d.haveFor e p info).filter (fun i => !l.contains i)).filterMap (fun i => info.index.find i) :=
    List.mem_filterMap.mpr ⟨i, List.mem_filter.mpr ⟨hi, by rw [hl]; rfl⟩, hr⟩
  exact foldl_send_holds (fun _ : Rec => p) (.pairRec e) lacked hp

/-- The acknowledgement goes out once, when every announced record is held. -/
theorem ackPair_complete (ha : (d.pair e p).announced = some n) (hn : n ≤ (d.pair e p).recs.length) (hs : (d.pair e p).ackSent = false) :
    d.ackPair p e = (d.setPair e p { d.pair e p with ackSent := true }).send p (.pairAck e (d.pair e p).recs.length) := by
  simp [Dev.ackPair, ha, hn, hs]

theorem ackPair_unannounced (ha : (d.pair e p).announced = none) : d.ackPair p e = d := by
  simp [Dev.ackPair, ha]

theorem ackPair_short (ha : (d.pair e p).announced = some n) (hn : (d.pair e p).recs.length < n) : d.ackPair p e = d := by
  simp [Dev.ackPair, ha, Nat.not_le.mpr hn]

theorem pairRec_open (h : d.pairOpen e = true) (r : Rec) :
    d.pairRec p e r = (d.setPair e p { d.pair e p with recs := (d.pair e p).recs.put r.stream r }).ackPair p e := by
  simp [Dev.pairRec, h]

theorem pairRec_closed (h : d.pairOpen e = false) (r : Rec) : d.pairRec p e r = d := by simp [Dev.pairRec, h]

theorem pairDone_open (h : d.pairOpen e = true) :
    d.pairDone' p e n = (d.setPair e p { d.pair e p with announced := some n }).ackPair p e := by
  simp [Dev.pairDone', h]

theorem pairDone_closed (h : d.pairOpen e = false) : d.pairDone' p e n = d.send p (.pairAck e 0) := by simp [Dev.pairDone', h]

theorem pairAck_open (h : d.pairOpen e = true) : d.pairAck p e = d.setPair e p { d.pair e p with acked := true } := by
  simp [Dev.pairAck, h]

theorem pairAck_closed (h : d.pairOpen e = false) : d.pairAck p e = d := by simp [Dev.pairAck, h]

/-- PAIR_HAVE of a sealed epoch is answered with each record that the partner lacks and their number. -/
theorem pairHave_holds {info : SealInfo} (hr : d.inRun e = true) (hs : e < d.crt.nextSeal) (hi : d.sealOf e = some info) (hp : p ≠ d.deviceNo)
    (l : List Nat) :
    (∀ i r, i ∈ d.haveFor e p info → l.contains i = false → info.index.find i = some r →
        holds (d.pairHave p e l).fab.held p (.pairRec e r))
      ∧ holds (d.pairHave p e l).fab.held p
          (.pairDone e (((d.haveFor e p info).filter (fun i => !l.contains i)).filterMap (fun i => info.index.find i)).length) := by
  rw [pairHave_sealed hr hs]
  split
  · exact answerHave_holds ((sealOf_setPair d e p _).trans hi) hp l
  · exact answerHave_holds hi hp l

/-- A pair exchange that changes and then sends. -/
theorem only_of_sends_setPair {t : Dev} {x : PairSt} (h : sends (d.setPair e p x) t) (q : Nat → Prop) : only [.crt, .fab] q d t :=
  only_trans (only_wider (setPair_only d e p x q) (by simp)) (only_wider (sends_only h q) (by simp))

theorem pairHave_sealed_only (hr : d.inRun e = true) (hs : e < d.crt.nextSeal) (l : List Nat) (q : Nat → Prop) :
    only [.crt, .fab] q d (d.pairHave p e l) := by
  rw [pairHave_sealed hr hs]
  split
  · exact only_of_sends_setPair (answerHave_sends _ _ _ _) q
  · exact only_wider (sends_only (answerHave_sends _ _ _ _) q) (by simp)

section Acknowledged

variable {x : PairSt} (ha : x.announced = some n) (hn : n ≤ x.recs.length) (hs : x.ackSent = false)

include ha hn hs

/-- An exchange that is complete now is noted as acknowledged, and its acknowledgement is sent. -/
theorem ackPair_setPair : (d.setPair e p x).ackPair p e
    = ((d.setPair e p x).setPair e p { x with ackSent := true }).send p (.pairAck e x.recs.length) := by
  have same := pair_setPair_same d e p x
  rw [ackPair_complete (by rw [same]; exact ha) (by rw [same]; exact hn) (by rw [same]; exact hs), same]

theorem ackPair_setPair_only {q : Nat → Prop} : only [.crt, .fab] q d ((d.setPair e p x).ackPair p e) := by
  rw [ackPair_setPair ha hn hs]
  exact only_trans (only_wider (setPair_only d e p x q) (by simp)) (only_of_sends_setPair (send_sends _ _ _) q)

theorem pair_ackPair_setPair : ((d.setPair e p x).ackPair p e).pair e p = { x with ackSent := true } := by
  rw [ackPair_setPair ha hn hs, pair_of_crt (sends_crt (send_sends _ _ _)), pair_setPair_same]

theorem ackPair_setPair_holds (hp : p ≠ d.deviceNo) : holds ((d.setPair e p x).ackPair p e).fab.held p (.pairAck e x.recs.length) := by
  rw [ackPair_setPair ha hn hs]
  exact send_holds _ hp

end Acknowledged

end Pairs

/-! ## Manifests (R117, R118, R437) -/

section Manifests

variable {d : Dev} {m : Manifest} {e : Nat}

theorem keepManifest_known (h : ((d.crt.manifests.getD m.epoch []).find m.device).isSome = true) : d.keepManifest m = d := by
  simp [Dev.keepManifest, h]

/-- The first manifest of a device and epoch is kept beside the others. -/
theorem keepManifest_new (h : (d.crt.manifests.getD m.epoch []).find m.device = none) :
    d.keepManifest m = { d with
      crt := { d.crt with manifests := d.crt.manifests.put m.epoch ((d.crt.manifests.getD m.epoch []).put m.device m) }
      fab := { d.fab with claims := d.fab.claims.update m.device [] (claimsAfter d.rate m) } } := by
  simp only [Dev.keepManifest, h]; rfl

/-- Only the manifests of Crater and the claims of the fabric change. -/
theorem keepManifest_eq (d : Dev) (m : Manifest) : ∃ ms cs,
    d.keepManifest m = { d with crt := { d.crt with manifests := ms }, fab := { d.fab with claims := cs } } := by
  unfold Dev.keepManifest
  simp only
  split <;> exact ⟨_, _, rfl⟩

theorem keepManifest_crt (d : Dev) (m : Manifest) : (d.keepManifest m).crt = { d.crt with manifests := (d.keepManifest m).crt.manifests } := by
  obtain ⟨_, _, h⟩ := keepManifest_eq d m
  rw [h]

theorem keepManifest_fab (d : Dev) (m : Manifest) : (d.keepManifest m).fab = { d.fab with claims := (d.keepManifest m).fab.claims } := by
  obtain ⟨_, _, h⟩ := keepManifest_eq d m
  rw [h]

theorem keepManifest_only (d : Dev) (m : Manifest) (p : Nat → Prop) : only [.crt, .fab] p d (d.keepManifest m) := by
  obtain ⟨_, _, h⟩ := keepManifest_eq d m
  rw [h]
  exact only_of_kept (by simp [keptBut]) rfl

theorem keepManifest_slot (d : Dev) (m : Manifest) (e : Nat) : (d.keepManifest m).slot e = d.slot e := by
  rw [Dev.slot, keepManifest_crt, Dev.slot]

/-- Some manifest of the device and epoch is held then. -/
theorem keepManifest_held (d : Dev) (m : Manifest) :
    (((d.keepManifest m).crt.manifests.getD m.epoch []).find m.device).isSome = true := by
  cases h : (d.crt.manifests.getD m.epoch []).find m.device with
  | none => simp [keepManifest_new h, Tbl.getD]
  | some x => rw [keepManifest_known (by rw [h]; rfl), h]; rfl

theorem manifests_find_of_new (h : (d.crt.manifests.getD m.epoch []).find m.device = none) :
    ((d.keepManifest m).crt.manifests.getD m.epoch []).find m.device = some m := by
  simp [keepManifest_new h, Tbl.getD]

theorem manifests_other (d : Dev) (m : Manifest) {e : Nat} (he : e ≠ m.epoch) :
    (d.keepManifest m).crt.manifests.find e = d.crt.manifests.find e := by
  unfold Dev.keepManifest
  simp only
  split
  · rfl
  · exact Tbl.find_put_other _ _ he

/-- A device on its own, and one whose Crater seals the epoch, publishes no empty manifest. -/
theorem emptyManifest_idle (h : d.joined = false ∨ (d.craterRuns = true ∧ d.crt.first ≤ e)) : d.emptyManifest e = d := by
  unfold Dev.emptyManifest
  rcases h with h | ⟨h, hf⟩
  · simp [h]
  · simp [h, Nat.not_lt.mpr hf]

/-- The empty manifest of an epoch that a member does not seal. -/
def Dev.emptyOf (d : Dev) (e : Nat) : Manifest :=
  { device := d.deviceNo, early := false, timeSuspect := d.timeSuspect, view := (d.viewAt e).num, epoch := e, entries := [], sums := [] }

theorem emptyManifest_first (hj : d.joined = true) (hr : d.craterRuns = false) (he : d.fab.joinEpoch ≤ e) (hu : d.fab.emptyUpTo = none) :
    d.emptyManifest e
      = ((d.modFab (fun f => { f with emptyUpTo := some e })).keepManifest (d.emptyOf e)).sendAll (d.viewAt e).members
          (.manifest (d.emptyOf e)) := by
  simp [Dev.emptyManifest, hj, hr, he, hu, Dev.emptyOf]

theorem canPublish_of_sealed {x : EpochSlot} {info : SealInfo} (hx : d.slot e = some x) (hs : x.sealed = some info)
    (hp : x.published = false) (hd : d.pairsDone e = true) (hr : info.refill = [] ∨ info.reformed = true) : d.canPublish e = true := by
  simp only [Dev.canPublish, hx, hs, hp, hd]
  rcases hr with h | h <;> simp [h]

/-- The manifest of a sealed epoch is kept and sent to the members of its view. -/
theorem publish_eq {x : EpochSlot} {info : SealInfo} (hx : d.slot e = some x) (hs : x.sealed = some info) (hc : d.canPublish e = true) :
    d.publish e = ((d.setSlot e { x with published := true }).keepManifest (d.manifestOf e info)).sendAll (d.viewAt e).members
      (.manifest (d.manifestOf e info)) := by
  simp [Dev.publish, hc, hx, hs, slotD_of_slot hx]

theorem publish_idle (h : d.canPublish e = false) : d.publish e = d := by simp [Dev.publish, h]

end Manifests

/-! ## SEAL_MANIFEST -/

/-- The device that has counted a forwarded manifest. -/
def Dev.countForwarded (d : Dev) (src : Nat) (m : Manifest) : Dev :=
  if m.forwarded then d.modFab (fun f => { f with fwdGot := f.fwdGot.update src 0 (· + 1) }) else d

/-- What SEAL_MANIFEST does at its receiver. -/
def Dev.manifestRow (d : Dev) (src : Nat) (m : Manifest) : Dev :=
  if (d.countForwarded src m).takesManifest m then ((d.countForwarded src m).keepManifest m).emptyManifest m.epoch else d.countForwarded src m

theorem exec_sealManifest (s : State) (dt src seq : Nat) (m : Manifest) :
    exec (.sealManifest dt src seq m) s = s.run dt (fun _ d => d.onMsg src 2 seq (fun x => x.manifestRow src m)) := rfl

/-- Only the number of forwarded manifests has moved. -/
theorem countForwarded_eq (d : Dev) (src : Nat) (m : Manifest) :
    ∃ got, d.countForwarded src m = { d with fab := { d.fab with fwdGot := got } } := by
  unfold Dev.countForwarded
  split <;> exact ⟨_, rfl⟩

theorem countForwarded_only (d : Dev) (src : Nat) (m : Manifest) (p : Nat → Prop) : only [.fab] p d (d.countForwarded src m) := by
  obtain ⟨_, e⟩ := countForwarded_eq d src m
  rw [e]
  exact only_of_kept (by simp [keptBut]) rfl

theorem countForwarded_crt (d : Dev) (src : Nat) (m : Manifest) : (d.countForwarded src m).crt = d.crt := by
  obtain ⟨_, e⟩ := countForwarded_eq d src m
  rw [e]

theorem countForwarded_takes (d : Dev) (src : Nat) (m : Manifest) : (d.countForwarded src m).takesManifest m = d.takesManifest m := by
  obtain ⟨_, e⟩ := countForwarded_eq d src m
  rw [e]; rfl

theorem manifestRow_taken {d : Dev} {src : Nat} {m : Manifest} (h : d.takesManifest m = true) :
    d.manifestRow src m = ((d.countForwarded src m).keepManifest m).emptyManifest m.epoch := by
  rw [Dev.manifestRow, countForwarded_takes, if_pos h]

theorem manifestRow_refused {d : Dev} {src : Nat} {m : Manifest} (h : d.takesManifest m = false) :
    d.manifestRow src m = d.countForwarded src m := by
  rw [Dev.manifestRow, countForwarded_takes, if_neg (by rw [h]; exact Bool.false_ne_true)]

/-- A manifest that no member forwarded, of a device that the view in force excludes, is not taken. -/
theorem takesManifest_excluded {d : Dev} {m : Manifest} (hf : m.forwarded = false) (hj : d.fab.joining = none)
    (hv : d.view.members.testBit m.device = false) (hn : m.view ≤ d.view.num) : d.takesManifest m = false := by
  simp [Dev.takesManifest, hf, hj, hv, hn]

theorem joined_of_only {l : List Part} {p : Nat → Prop} {d t : Dev} (h : only l p d t) (hp : ¬ p Reg.FAB_STATUS) : t.joined = d.joined :=
  only_bit h hp

theorem craterRuns_of_only {l : List Part} {p : Nat → Prop} {d t : Dev} (h : only l p d t) (hp : ¬ p Reg.CRT_STATUS) :
    t.craterRuns = d.craterRuns := only_bit h hp

/-- The device that has kept a manifest that arrived. -/
def Dev.keptFrom (d : Dev) (src : Nat) (m : Manifest) : Dev := (d.countForwarded src m).keepManifest m

section KeptFrom

variable (d : Dev) (src : Nat) (m : Manifest)

theorem keptFrom_only (p : Nat → Prop) : only [.crt, .fab] p d (d.keptFrom src m) :=
  only_trans (only_wider (countForwarded_only d src m p) (by simp)) (keepManifest_only _ m p)

theorem keptFrom_crt : (d.keptFrom src m).crt = { d.crt with manifests := (d.keptFrom src m).crt.manifests } := by
  rw [Dev.keptFrom, keepManifest_crt, countForwarded_crt]

theorem keptFrom_joined : (d.keptFrom src m).joined = d.joined := joined_of_only (keptFrom_only d src m (fun _ => False)) id

theorem keptFrom_craterRuns : (d.keptFrom src m).craterRuns = d.craterRuns := craterRuns_of_only (keptFrom_only d src m (fun _ => False)) id

theorem keptFrom_first : (d.keptFrom src m).crt.first = d.crt.first := by rw [keptFrom_crt]

theorem keptFrom_fab : ∃ got cs, (d.keptFrom src m).fab = { d.fab with fwdGot := got, claims := cs } := by
  obtain ⟨got, e⟩ := countForwarded_eq d src m
  rw [Dev.keptFrom, keepManifest_fab, e]
  exact ⟨_, _, rfl⟩

theorem keptFrom_other {e : Nat} (h : e ≠ m.epoch) : (d.keptFrom src m).crt.manifests.find e = d.crt.manifests.find e := by
  rw [Dev.keptFrom, manifests_other _ _ h, countForwarded_crt]

variable {d src m}

theorem keptFrom_find (h : (d.crt.manifests.getD m.epoch []).find m.device = none) :
    ((d.keptFrom src m).crt.manifests.getD m.epoch []).find m.device = some m :=
  manifests_find_of_new (by rwa [countForwarded_crt])

theorem keptFrom_known (h : ((d.crt.manifests.getD m.epoch []).find m.device).isSome = true) :
    d.keptFrom src m = d.countForwarded src m := keepManifest_known (by rwa [countForwarded_crt])

/-- A device on its own, or whose Crater seals the epoch, keeps what arrives and publishes nothing. -/
theorem manifestRow_quiet (h : d.takesManifest m = true)
    (hq : d.joined = false ∨ (d.craterRuns = true ∧ d.crt.first ≤ m.epoch)) : d.manifestRow src m = d.keptFrom src m := by
  rw [manifestRow_taken h]
  refine emptyManifest_idle (d := d.keptFrom src m) ?_
  rw [keptFrom_joined, keptFrom_craterRuns, keptFrom_first]
  exact hq

/-- A second manifest of a device and epoch changes nothing but the number of forwarded ones. -/
theorem manifestRow_known (h : ((d.crt.manifests.getD m.epoch []).find m.device).isSome = true)
    (hq : d.joined = false ∨ (d.craterRuns = true ∧ d.crt.first ≤ m.epoch)) : d.manifestRow src m = d.countForwarded src m := by
  cases ht : d.takesManifest m with
  | false => exact manifestRow_refused ht
  | true => rw [manifestRow_quiet ht hq, keptFrom_known h]

/-- A member whose Crater does not run publishes its empty manifest when another's arrives. -/
theorem manifestRow_empty (h : d.takesManifest m = true) (hj : d.joined = true) (hr : d.craterRuns = false)
    (he : d.fab.joinEpoch ≤ m.epoch) (hu : d.fab.emptyUpTo = none) :
    d.manifestRow src m = (((d.keptFrom src m).modFab (fun f => { f with emptyUpTo := some m.epoch })).keepManifest
      ((d.keptFrom src m).emptyOf m.epoch)).sendAll ((d.keptFrom src m).viewAt m.epoch).members
        (.manifest ((d.keptFrom src m).emptyOf m.epoch)) := by
  obtain ⟨_, _, hfab⟩ := keptFrom_fab d src m
  rw [manifestRow_taken h]
  refine emptyManifest_first (d := d.keptFrom src m) ?_ ?_ ?_ ?_
  · rw [keptFrom_joined, hj]
  · rw [keptFrom_craterRuns, hr]
  · rw [hfab]; exact he
  · rw [hfab]; exact hu

end KeptFrom

/-! ## Amendments (R133) -/

theorem fitAmends_of_fits {cap : Nat} {l : List (Nat × Amendment)} (h : amendBytes l ≤ cap) : fitAmends cap l = (l, []) := by
  cases l with
  | nil => rfl
  | cons a t => exact if_pos h

/-- Which ring serves a kind is read from the registers alone. -/
theorem ringOf_of_regs {d t : Dev} (h : t.regs = d.regs) (k : Nat) : t.ringOf k = d.ringOf k := by
  have same (o : Nat) : t.reg o = d.reg o := by rw [Dev.reg, h, Dev.reg]
  unfold Dev.ringOf Dev.runs Dev.bit Dev.fld
  simp only [same]

/-- An amendment that the log and the store of its ring hold, with no ring to send it on. -/
theorem placeAmend_fits {d : Dev} {e : Nat} {a : Amendment}
    (hcap : amendBytes (d.crt.amends ++ [(e, a)]) ≤ d.fld Fld.CRT_HIST_AMEND_SIZE * 1048576) (hring : d.ringOf 5 = none)
    (hq : d.hif.amendQ.length ≤ d.crt.amends.length) :
    d.placeAmend e a = { d with
      crt := { d.crt with amends := d.crt.amends ++ [(e, a)] }, hif := { d.hif with amendQ := d.hif.amendQ ++ [⟨a.bytes false, true⟩] } } := by
  have noRing (t : Dev) (ht : t.regs = d.regs) : t.pump 5 = t := by simp [Dev.pump, ringOf_of_regs ht, hring]
  simp only [Dev.placeAmend, fitAmends_of_fits hcap]
  rw [noRing (Dev.setRingQ _ 5 _) ?_]
  swap
  · rfl
  have fits : (d.hif.amendQ ++ [⟨a.bytes false, true⟩] : List RingRec).length - (d.crt.amends ++ [(e, a)]).length = 0 := by
    simp; omega
  refine (if_pos fits).trans ?_
  simp [Dev.modCrt, Dev.setRingQ]

/-! ## Commits to the open-epoch store (R101) -/

theorem claimStage_hif (d : Dev) (e : Nat) : ∃ hif, d.claimStage e = { d with hif := hif } := by
  unfold Dev.claimStage
  split
  · split
    · unfold Dev.claim
      simp only
      split <;> exact ⟨_, rfl⟩
    · exact ⟨_, rfl⟩
  · exact ⟨_, rfl⟩

theorem emitAt_out (d : Dev) (l : List (Nat × BufDesc)) (o : Nat) (b : Bytes) : ∃ out, d.emitAt l o b = { d with out := out } :=
  foldl_keeps (R := fun d t : Dev => ∃ out, t = { d with out := out }) (fun _ => ⟨_, rfl⟩)
    (by rintro _ _ _ ⟨_, rfl⟩ ⟨_, rfl⟩; exact ⟨_, rfl⟩) (fun _ _ => ⟨_, rfl⟩) _ d

theorem stageRec_hif (d : Dev) (e : Nat) (r : Rec) : ∃ hif out, d.stageRec e r = { d with hif := hif, out := out } := by
  unfold Dev.stageRec
  split
  · exact ⟨_, _, rfl⟩
  · split
    · unfold Dev.emitRec
      split
      · obtain ⟨_, e⟩ := emitAt_out d _ _ _
        rw [e]; exact ⟨_, _, rfl⟩
      · exact ⟨_, _, rfl⟩
    · exact ⟨_, _, rfl⟩

/-- A commit writes the slot of its epoch, its stream's notes and CRT_STATUS.OPEN; the staging of the snapshot moves the host interface. -/
theorem store_eq (d : Dev) (e i : Nat) (r : StoredRec) : ∃ hif out, d.store e i r =
    { ((d.setSlot e { d.slotD e with
        recs := (d.slotD e).recs.put i r, checkFail := (d.slotD e).checkFail.filter (fun x => decide (x ≠ i)) }).noteCommit i e
        r.port r.rx).refreshOpen with hif := hif, out := out } := by
  unfold Dev.store
  simp only
  generalize ((d.setSlot e { d.slotD e with
    recs := (d.slotD e).recs.put i r, checkFail := (d.slotD e).checkFail.filter (fun x => decide (x ≠ i)) }).noteCommit i e
    r.port r.rx).refreshOpen = t
  have claimed : ∃ hif, (if (d.slotD e).recs.isEmpty then t.claimStage e else t) = { t with hif := hif } := by
    split
    · exact claimStage_hif t e
    · exact ⟨_, rfl⟩
  obtain ⟨_, claimed⟩ := claimed
  rw [claimed]
  split
  · obtain ⟨_, _, staged⟩ := stageRec_hif { t with hif := _ } e r.record
    exact ⟨_, _, staged⟩
  · exact ⟨_, _, rfl⟩

section Store

variable (d : Dev) (e i : Nat) (r : StoredRec)

theorem store_crt : (d.store e i r).crt = { d.crt with slots := (d.store e i r).crt.slots } := by
  obtain ⟨_, _, h⟩ := store_eq d e i r
  rw [h]; rfl

theorem store_slots : (d.store e i r).crt.slots = d.crt.slots.put e { d.slotD e with
    recs := (d.slotD e).recs.put i r, checkFail := (d.slotD e).checkFail.filter (fun x => decide (x ≠ i)) } := by
  obtain ⟨_, _, h⟩ := store_eq d e i r
  rw [h]; rfl

theorem slot_store_same : (d.store e i r).slot e = some { d.slotD e with
    recs := (d.slotD e).recs.put i r, checkFail := (d.slotD e).checkFail.filter (fun x => decide (x ≠ i)) } := by
  rw [Dev.slot, store_slots, Tbl.find_put_same]

theorem slot_store_other {e' : Nat} (h : e' ≠ e) : (d.store e i r).slot e' = d.slot e' := by
  rw [Dev.slot, store_slots, Tbl.find_put_other _ _ h, Dev.slot]

theorem stored_store_same : (d.store e i r).stored e i = some r := by
  rw [Dev.stored, slot_store_same]
  exact Tbl.find_put_same _ _ _

/-- A commit leaves every other record as it was. -/
theorem stored_store_other {e' j : Nat} (h : e' ≠ e ∨ j ≠ i) : (d.store e i r).stored e' j = d.stored e' j := by
  by_cases he : e' = e
  · subst he
    rw [Dev.stored, slot_store_same]
    refine (Tbl.find_put_other _ _ (h.resolve_left (fun x => x rfl))).trans ?_
    rw [Dev.stored, slotD_eq]
    cases d.slot e' <;> rfl
  · rw [Dev.stored, slot_store_other d e i r he, Dev.stored]

theorem store_only : only [.regs, .hif, .ing, .crt] (fun o => o = Reg.CRT_STATUS) d (d.store e i r) := by
  obtain ⟨_, _, h⟩ := store_eq d e i r
  rw [h]
  have slotSet := setSlot_only d e { d.slotD e with
    recs := (d.slotD e).recs.put i r, checkFail := (d.slotD e).checkFail.filter (fun x => decide (x ≠ i)) } (fun o => o = Reg.CRT_STATUS)
  have noted (x : Dev) : only [.ing] (fun o => o = Reg.CRT_STATUS) x (x.noteCommit i e r.port r.rx) :=
    only_of_kept (by simp [keptBut, Dev.noteCommit, Dev.modStream, Dev.setStream]) rfl
  have opened (x : Dev) : only [.regs] (fun o => o = Reg.CRT_STATUS) x x.refreshOpen := setFld_only _ _ _
  have staged (x : Dev) (hif : HifSt) (out : List Out) : only [.hif] (fun o => o = Reg.CRT_STATUS) x { x with hif := hif, out := out } :=
    only_of_kept (by simp [keptBut]) rfl
  exact only_trans (only_mono (by simp) (fun _ x => x) slotSet) <| only_trans (only_mono (by simp) (fun _ x => x) (noted _)) <|
    only_trans (only_mono (by simp) (fun _ x => x) (opened _)) (only_mono (by simp) (fun _ x => x) (staged _ _ _))

end Store

/-- A record on the grid of its stream, of an epoch of the run that is not sealed and has a slot, is committed where none is. -/
theorem commitRec_stores {d : Dev} {i e t : Nat} {ent : StreamEntry} {r : Rec} {rx port : Nat} (he : nearestEpoch d.rate t = e)
    (ha : alignedTo d.rate (d.fld Fld.CRT_ALIGN_TOL) e t = true) (hdue : dueAt d.rate ent e = true) (hr : d.craterRuns = true)
    (hf : d.crt.first ≤ e) (hs : d.crt.nextSeal ≤ e) (ho : e ≤ d.crt.nextDeliver + 127) (hn : d.stored e i = none) :
    d.commitRec i ent t r rx port
      = d.store e i ⟨{ r with tOff := ((t : Int) - epochTime d.rate e) / 2 ^ 16, origin := 0 }, rx, port⟩ := by
  have unsealed : d.sealedHere e = false := by simp [Dev.sealedHere, Nat.not_lt.mpr hs]
  have room : ¬ d.oldestOpen + 127 < e := Nat.not_lt.mpr ho
  simp [Dev.commitRec, he, ha, hdue, hr, Nat.not_lt.mpr hf, unsealed, room, hn]

end Sys2Proof.Machine
end

section
/-! Proof that the records which owners exchange over the fabric act on Crater (R38, R116 to R118, R121, R133, R423, R437). -/

namespace Sys2Proof.Machine

open Sys2Proof

theorem stored_of_crt {d t : Dev} (h : t.crt = d.crt) (e i : Nat) : t.stored e i = d.stored e i := by
  rw [Dev.stored, slot_of_crt h, Dev.stored]

/-! ## The empty manifest (R437) -/

section Empty

variable {d : Dev} {src : Nat} {m : Manifest} (h : d.takesManifest m = true) (hj : d.joined = true) (hr : d.craterRuns = false)
  (he : d.fab.joinEpoch ≤ m.epoch) (hu : d.fab.emptyUpTo = none)

include h hj hr he hu

theorem manifestRow_empty_only (p : Nat → Prop) : only [.crt, .fab] p d (d.manifestRow src m) := by
  rw [manifestRow_empty h hj hr he hu]
  have noted (x : Dev) : only [.fab] p x (x.modFab (fun f => { f with emptyUpTo := some m.epoch })) :=
    only_of_kept (by simp [keptBut, Dev.modFab]) rfl
  exact only_trans (keptFrom_only d src m p) <| only_trans (only_wider (noted _) (by simp)) <|
    only_trans (keepManifest_only _ _ p) (only_wider (sends_only (sendAll_sends _ _ _) p) (by simp))

theorem manifestRow_emptyUpTo : (d.manifestRow src m).fab.emptyUpTo = some m.epoch := by
  rw [manifestRow_empty h hj hr he hu, sends_emptyUpTo (sendAll_sends _ _ _), keepManifest_fab]
  rfl

theorem manifestRow_empty_held : (((d.manifestRow src m).crt.manifests.getD m.epoch []).find d.deviceNo).isSome = true := by
  have self : (d.keptFrom src m).deviceNo = d.deviceNo := only_fld (keptFrom_only d src m (fun _ => False)) id
  rw [manifestRow_empty h hj hr he hu, sends_crt (sendAll_sends _ _ _), ← self]
  exact keepManifest_held _ ((d.keptFrom src m).emptyOf m.epoch)

end Empty

/-! ## Publication -/

section Publish

variable {d : Dev} {e : Nat} {x : EpochSlot} {info : SealInfo} (hx : d.slot e = some x) (hs : x.sealed = some info)
  (hc : d.canPublish e = true)

include hx hs hc

theorem publish_only (p : Nat → Prop) : only [.crt, .fab] p d (d.publish e) := by
  rw [publish_eq hx hs hc]
  exact only_trans (only_wider (setSlot_only d e _ p) (by simp)) <|
    only_trans (keepManifest_only _ _ p) (only_wider (sends_only (sendAll_sends _ _ _) p) (by simp))

theorem slot_publish_same : (d.publish e).slot e = some { x with published := true } := by
  rw [publish_eq hx hs hc, slot_of_crt (sends_crt (sendAll_sends _ _ _)), keepManifest_slot, slot_setSlot_same]

theorem slot_publish_other {e' : Nat} (h : e' ≠ e) : (d.publish e).slot e' = d.slot e' := by
  rw [publish_eq hx hs hc, slot_of_crt (sends_crt (sendAll_sends _ _ _)), keepManifest_slot, slot_setSlot_other _ _ h]

theorem publish_held : (((d.publish e).crt.manifests.getD e []).find d.deviceNo).isSome = true := by
  rw [publish_eq hx hs hc, sends_crt (sendAll_sends _ _ _)]
  exact keepManifest_held _ (d.manifestOf e info)

theorem publish_holds {n : Nat} (hlt : n < 64) (hn : n ≠ d.deviceNo) (hm : (d.viewAt e).members.testBit n = true) :
    holds (d.publish e).fab.held n (.manifest (d.manifestOf e info)) := by
  rw [publish_eq hx hs hc]
  refine sendAll_holds _ hlt hm ?_
  rw [Dev.deviceNo, only_fld (keepManifest_only _ _ (fun _ => False)) id]
  exact hn

end Publish

theorem exec_manifestPublish (s : State) (dt e : Nat) : exec (.manifestPublish dt e) s = s.run dt (fun _ d => d.publish e) := rfl

/-! ## Mirrored records (R38) -/

theorem draw_only (d : Dev) (p : Nat → Prop) : only [] p d d.draw.2 := only_of_kept (by simp [keptBut, Dev.draw]) rfl

theorem mirrorRec_mirrored {d : Dev} {e : Nat} {r : Rec} {ent : StreamEntry} (h : d.entryAt r.stream e = some ent) (ht : ent.type = 5)
    (hp : ent.primary ≠ d.deviceNo) :
    d.mirrorRec e r = d.draw.2.commitRec r.stream ent (epochTime d.rate e) r (d.draw.1 / 256) (d.draw.1 % 256) := by
  simp only [Dev.mirrorRec, h]
  exact if_pos ⟨ht, hp⟩

theorem mirrorRec_ignored {d : Dev} {e : Nat} {r : Rec}
    (h : (d.entryAt r.stream e).all (fun x => decide (x.type ≠ 5 ∨ x.primary = d.deviceNo)) = true) : d.mirrorRec e r = d := by
  unfold Dev.mirrorRec
  cases he : d.entryAt r.stream e with
  | none => rfl
  | some ent =>
    have hor : ent.type ≠ 5 ∨ ent.primary = d.deviceNo := by simpa [he] using h
    exact if_neg (fun ⟨ht, hp⟩ => hor.elim (fun k => k ht) hp)

/-- A mirrored record on its epoch's grid time is stored with the offset 0. -/
theorem mirrorRec_stores {d : Dev} {e : Nat} {r : Rec} {ent : StreamEntry} (h : d.entryAt r.stream e = some ent) (ht : ent.type = 5)
    (hp : ent.primary ≠ d.deviceNo) (hn : nearestEpoch d.rate (epochTime d.rate e) = e)
    (ha : alignedTo d.rate (d.fld Fld.CRT_ALIGN_TOL) e (epochTime d.rate e) = true) (hr : d.craterRuns = true) (hf : d.crt.first ≤ e)
    (hs : d.crt.nextSeal ≤ e) (ho : e ≤ d.crt.nextDeliver + 127) (hno : d.stored e r.stream = none) :
    d.mirrorRec e r = d.draw.2.store e r.stream ⟨{ r with tOff := 0, origin := 0 }, d.draw.1 / 256, d.draw.1 % 256⟩ := by
  have due : dueAt d.rate ent e = true := by simp [dueAt, StreamEntry.isC37, ht]
  rw [mirrorRec_mirrored h ht hp, commitRec_stores (d := d.draw.2) hn ha due hr hf hs ho hno]
  have zero : ((epochTime d.rate e : Int) - epochTime d.draw.2.rate e) / 2 ^ 16 = 0 := by
    rw [show epochTime d.draw.2.rate e = epochTime d.rate e from rfl, Int.sub_self, Int.zero_ediv]
  rw [zero]

/-! ## The obligation -/

/-- Settles O41, clause by clause from what each row does to the device that has received its message. -/
theorem fabricRecordsTakeEffect : Obligations.FabricRecordsTakeEffect := by
  unfold Obligations.FabricRecordsTakeEffect
  refine ⟨?_, ?_, ?_, ?_, ?_, ?_, ?_, ?_, ?_, ?_, ?_, ?_, ?_, ?_, ?_, ?_, ?_, ?_, ?_, ?_⟩
  · rintro s dt src seq e l d d1 rfl ⟨h, ho, hf, hs⟩
    simp only [← pair_of_crt (receive_crt h), ← slot_of_crt (receive_crt h), ← receive_crt h]
    exact exists_onMsg_moves h (by simp) (pairHave_unsealed ho hf hs) (only_wider (setPair_only _ _ _ _ _) (by simp))
      ⟨rfl, rfl, pair_setPair_same _ _ _ _, fun e' he => slot_setPair_other _ _ _ he⟩
  · rintro s dt src seq e l d d1 info rfl ⟨h, hr, hs, hi⟩
    exact exists_onMsg_moves h (by simp) rfl (pairHave_sealed_only hr hs l _) (pairHave_holds hr hs hi (receive_src h) l)
  · rintro s dt src seq e l d d1 rfl ⟨h, hr⟩
    exact exists_onMsg_moves h (by simp) (pairHave_outside hr) (sends_only (send_sends _ _ _) _) (send_holds _ (receive_src h))
  · rintro s dt src seq e r d d1 rfl ⟨h, ho, ha⟩
    simp only [← pair_of_crt (receive_crt h), ← receive_crt h]
    refine exists_onMsg_moves h (by simp) ((pairRec_open ho r).trans (ackPair_unannounced ?_)) (only_wider (setPair_only _ _ _ _ _) (by simp))
      ⟨rfl, rfl, pair_setPair_same _ _ _ _⟩
    rw [pair_setPair_same]; exact ha
  · rintro s dt src seq e n r d d1 rfl ⟨h, ho, ha, hn, hs⟩
    simp only [← pair_of_crt (receive_crt h)]
    have announced : ({ d1.pair e src with recs := (d1.pair e src).recs.put r.stream r } : PairSt).announced = some n := ha
    exact exists_onMsg_moves h (by simp) (pairRec_open ho r) (ackPair_setPair_only announced hn hs)
      ⟨pair_ackPair_setPair announced hn hs, ackPair_setPair_holds announced hn hs (receive_src h)⟩
  · rintro s dt src seq e n d d1 rfl ⟨h, ho, hn⟩
    simp only [← pair_of_crt (receive_crt h)]
    refine exists_onMsg_moves h (by simp) ((pairDone_open ho).trans (ackPair_short (n := n) ?_ ?_)) (only_wider (setPair_only _ _ _ _ _) (by simp))
      ⟨rfl, pair_setPair_same _ _ _ _⟩
    · rw [pair_setPair_same]
    · rw [pair_setPair_same]; exact hn
  · rintro s dt src seq e n d d1 rfl ⟨h, ho, hn, hs⟩
    simp only [← pair_of_crt (receive_crt h)]
    have announced : ({ d1.pair e src with announced := some n } : PairSt).announced = some n := rfl
    exact exists_onMsg_moves h (by simp) (pairDone_open ho) (ackPair_setPair_only announced hn hs)
      ⟨pair_ackPair_setPair announced hn hs, ackPair_setPair_holds announced hn hs (receive_src h)⟩
  · rintro s dt src seq e n d d1 rfl ⟨h, ho⟩
    exact exists_onMsg_moves h (by simp) (pairDone_closed ho) (sends_only (send_sends _ _ _) _) (send_holds _ (receive_src h))
  · rintro s dt src seq e n d d1 rfl ⟨h, ho⟩
    simp only [← pair_of_crt (receive_crt h)]
    exact exists_onMsg_moves h (by simp) (pairAck_open ho) (only_wider (setPair_only _ _ _ _ _) (by simp))
      ⟨rfl, pair_setPair_same _ _ _ _⟩
  · rintro s dt src seq e n r d d1 rfl ⟨h, ho⟩
    exact ⟨exists_onMsg_idle h (pairAck_closed ho), exists_onMsg_idle h (pairRec_closed ho r)⟩
  · rintro s dt e d x info rfl ⟨hx, hs, hp⟩ ⟨hd, hr⟩
    have hc := canPublish_of_sealed hx hs hp hd hr
    rw [exec_manifestPublish]
    exact exists_run_moves rfl (publish_only hx hs hc _) ⟨slot_publish_same hx hs hc, fun e' he => slot_publish_other hx hs hc he,
      publish_held hx hs hc, fun n hlt hn hm => publish_holds hx hs hc hlt hn hm⟩
  · rintro s dt e d rfl hc
    rw [exec_manifestPublish]
    exact run_idle _ _ (publish_idle hc)
  · rintro s dt src seq m d d1 rfl ⟨h, ht, hm⟩ hq
    simp only [← receive_crt h]
    exact exists_onMsg_moves h (by simp) (manifestRow_quiet ht hq) (keptFrom_only _ _ _ _)
      ⟨keptFrom_crt _ _ _, keptFrom_find hm, fun e' he => keptFrom_other _ _ _ he⟩
  · rintro s dt src seq m d d1 rfl ⟨h, hm⟩ hq
    exact exists_onMsg_only h (by simp) (manifestRow_known hm hq) (countForwarded_only _ _ _ _)
  · rintro s dt src seq m d d1 rfl ⟨h, ht, -⟩ ⟨hj, hr, he, hu⟩
    simp only [← receive_deviceNo h]
    exact exists_onMsg_moves h (by simp) rfl (manifestRow_empty_only ht hj hr he hu _)
      ⟨manifestRow_emptyUpTo ht hj hr he hu, manifestRow_empty_held ht hj hr he hu⟩
  · rintro s dt src seq m d d1 rfl ⟨h, hf, hj, hv, hn⟩
    have same : d1.countForwarded src m = d1 := if_neg (by rw [hf]; exact Bool.false_ne_true)
    exact exists_onMsg_moves h (by simp) ((manifestRow_refused (takesManifest_excluded hf hj hv hn)).trans same) (only_refl _ _ _) rfl
  · rintro s dt src seq e a d d1 rfl ⟨h, rfl, ha⟩ ⟨hcap, hring, hq⟩
    simp only [← receive_crt h]
    exact exists_onMsg_moves h (by simp) ((if_neg (by rw [ha]; exact Bool.false_ne_true)).trans (placeAmend_fits hcap hring hq))
      (only_of_kept (by simp [keptBut]) rfl) ⟨rfl, rfl⟩
  · rintro s dt src seq a d d1 rfl ⟨h, ha⟩
    exact exists_onMsg_idle h (if_pos ha)
  · rintro s dt src seq e r d d1 ent rfl ⟨h, hent, ht, hp⟩ ⟨hn, hal⟩ ⟨hr, hf, hs, ho, hno⟩
    simp only [← stored_of_crt (receive_crt h), ← receive_crt h]
    refine exists_onMsg_moves h (by simp) (mirrorRec_stores hent ht hp hn hal hr hf hs ho hno) ?_
      ⟨stored_store_same _ _ _ _, fun e' j hj => stored_store_other _ _ _ _ hj, store_crt _ _ _ _⟩
    exact only_trans (only_wider (draw_only _ _) (by simp)) (only_mono (by simp) (by simp) (store_only _ _ _ _))
  · rintro s dt src seq e r d d1 rfl ⟨h, hent⟩
    exact exists_onMsg_idle h (mirrorRec_ignored hent)

end Sys2Proof.Machine
end

section
/-! Proof that the rows of Crater's epochs complete with their effect: openings, seals, fills, confirmation, late records and delivery. -/

namespace Sys2Proof.Machine

open Sys2Proof

/-- A fold whose every step leaves the start as it is. -/
theorem foldl_idle {α β : Type} {f : β → α → β} {b : β} {l : List α} (h : ∀ a ∈ l, f b a = b) : l.foldl f b = b := by
  induction l with
  | nil => rfl
  | cons a t ih =>
    rw [List.foldl_cons, h a (List.mem_cons_self ..)]
    exact ih (fun x hx => h x (List.mem_cons_of_mem _ hx))

/-! ## The local seal (R82, R104 to R107) -/

/-- No stream's entry ends, and none waits for its history. -/
def Dev.streamsStay (d : Dev) : Bool := d.ing.streams.all (fun x => x.2.awaiting.isNone && x.2.entry.pend.all (fun p => p.2.isSome))

theorem streamsStay_iff {d : Dev} : d.streamsStay = true ↔
    ∀ x ∈ d.ing.streams, x.2.awaiting = none ∧ x.2.entry.pend.all (fun p => p.2.isSome) = true := by
  simp [Dev.streamsStay]

theorem noteCommit_streamsStay {d : Dev} (h : d.streamsStay = true) (i e p r : Nat) : (d.noteCommit i e p r).streamsStay = true := by
  rw [streamsStay_iff] at h ⊢
  have old : (d.stream i).awaiting = none ∧ (d.stream i).entry.pend.all (fun p => p.2.isSome) = true := by
    unfold Dev.stream Tbl.getD
    cases hf : d.ing.streams.find i with
    | none => exact ⟨rfl, rfl⟩
    | some x => exact h _ (Tbl.mem_of_find hf)
  intro x hx
  rcases Tbl.mem_put hx with rfl | hx
  · exact old
  · exact h x hx

theorem flushGone_idle {d : Dev} (h : d.streamsStay = true) (e : Nat) : d.flushGone e = d := by
  refine foldl_idle (fun s hs => ?_)
  have stays := (streamsStay_iff.mp h s hs).2
  cases hp : s.2.entry.pend with
  | none => rfl
  | some p =>
    obtain ⟨eff, new⟩ := p
    cases new with
    | none => rw [hp] at stays; exact absurd stays Bool.false_ne_true
    | some x => rfl

theorem dropAwaiting_idle {d : Dev} (h : d.streamsStay = true) (e : Nat) : d.dropAwaiting e = d :=
  foldl_idle (fun s hs => by rw [(streamsStay_iff.mp h s hs).1])

theorem noteCommit_only (d : Dev) (i e port rx : Nat) (p : Nat → Prop) : only [.ing] p d (d.noteCommit i e port rx) :=
  only_of_kept (by simp [keptBut, Dev.noteCommit, Dev.modStream, Dev.setStream]) rfl

theorem modCrt_only (d : Dev) (f : CrtSt → CrtSt) (p : Nat → Prop) : only [.crt] p d (d.modCrt f) :=
  only_of_kept (by simp [keptBut, Dev.modCrt]) rfl

theorem modHif_only (d : Dev) (f : HifSt → HifSt) (p : Nat → Prop) : only [.hif] p d (d.modHif f) :=
  only_of_kept (by simp [keptBut, Dev.modHif]) rfl

theorem modCyc_only (d : Dev) (f : CycSt → CycSt) (p : Nat → Prop) : only [.cyc] p d (d.modCyc f) :=
  only_of_kept (by simp [keptBut, Dev.modCyc]) rfl

theorem fresh_only (d : Dev) (n : Nat) (p : Nat → Prop) : only [] p d { d with fresh := n } := only_of_kept (by simp [keptBut]) rfl

/-- From `d` to `t` messages were sent and pair exchanges changed: the registers and the numbers of the next epochs stay. -/
def exchanges (d t : Dev) : Prop := t.regs = d.regs ∧ t.crt = { d.crt with slots := t.crt.slots }

theorem exchanges_refl (d : Dev) : exchanges d d := ⟨rfl, rfl⟩

theorem exchanges_trans {a b c : Dev} (h : exchanges a b) (k : exchanges b c) : exchanges a c :=
  ⟨k.1.trans h.1, by rw [k.2, h.2]⟩

theorem exchanges_of_sends {d t : Dev} (h : sends d t) : exchanges d t := ⟨sends_regs h, by rw [sends_crt h]⟩

theorem exchanges_setPair (d : Dev) (e p : Nat) (x : PairSt) : exchanges d (d.setPair e p x) := ⟨rfl, rfl⟩

theorem exchanges_reg64 {d t : Dev} (h : exchanges d t) (o : Nat) : t.reg64 o = d.reg64 o := by
  simp only [Dev.reg64, Dev.regN, Dev.reg, h.1]

/-- The local seal of the next epoch moves on to the epoch after it and counts. -/
theorem localSeal_counts {d : Dev} (h : d.streamsStay = true) (early : Bool) (corrected : Nat) :
    (d.localSeal early corrected [] []).crt.nextSeal = d.crt.nextSeal + 1
      ∧ (d.localSeal early corrected [] []).reg64 Reg.CRT_SEALED_LO = (d.reg64 Reg.CRT_SEALED_LO + 1) % 2 ^ 64
      ∧ (d.localSeal early corrected [] []).reg64 Reg.CRT_EARLY_LO = (d.reg64 Reg.CRT_EARLY_LO + b2n early) % 2 ^ 64 := by
  generalize ht : d.localSeal early corrected [] [] = t
  unfold Dev.localSeal at ht
  extract_lets e d0 due index filled refill info noted s d1 d2 d3 at ht
  have corrections : only [.regs] (fun o => o ∈ [Reg.CRT_ECC_CORR, Reg.SAF_CORRECTED_LO, Reg.SAF_CORRECTED_LO + 4]) d d0 :=
    only_trans (only_mono (by simp) (by simp) (count_only d _ _)) (only_mono (by simp) (by simp) (count64_only _ _ _))
  have noted_only : only [.ing] (fun _ => False) d0 noted := by
    refine only_foldl _ (fun x a => ?_) _ _
    split
    · split
      · exact noteCommit_only _ _ _ _ _ _
      · exact only_refl _ _ _
    · exact only_refl _ _ _
  have noted_stays : noted.streamsStay = true := by
    refine List.foldlRecOn (motive := fun x : Dev => x.streamsStay = true) _ _ h (fun x hx a _ => ?_)
    split
    · split
      · exact noteCommit_streamsStay hx _ _ _ _
      · exact hx
    · exact hx
  have sealed_only : only [.regs, .crt] (fun o => o = Reg.CRT_STATUS) noted d1 :=
    only_trans (only_wider (fresh_only noted _ _) (by simp)) <| only_trans (only_wider (setSlot_only _ _ _ _) (by simp)) <|
      only_trans (only_wider (modCrt_only _ _ _) (by simp)) (only_wider (setFld_only _ _ _) (by simp))
  have sealed_next : d1.crt.nextSeal = d.crt.nextSeal + 1 := rfl
  have stays : d1.streamsStay = true := noted_stays
  clear_value d1 noted d0
  have kept : d3 = d2 := by
    have stays : d2.streamsStay = true := stays
    show (d2.flushGone e).dropAwaiting e = d2
    rw [flushGone_idle stays, dropAwaiting_idle stays]
  have exchanged : exchanges d3 t := by
    rw [← ht]
    refine foldl_keeps exchanges_refl exchanges_trans (fun x p => ?_) _ _
    refine exchanges_trans (exchanges_of_sends (send_sends x p (.pairHave e (x.haveFor e p info)))) ?_
    split
    · exact exchanges_of_sends (answerHave_sends _ _ _ _)
    · exact exchanges_setPair _ _ _ _
  have before {o : Nat} (ho : o ∉ [Reg.CRT_ECC_CORR, Reg.SAF_CORRECTED_LO, Reg.SAF_CORRECTED_LO + 4, Reg.CRT_STATUS])
      (ho' : o + 4 ∉ [Reg.CRT_ECC_CORR, Reg.SAF_CORRECTED_LO, Reg.SAF_CORRECTED_LO + 4, Reg.CRT_STATUS]) : d1.reg64 o = d.reg64 o := by
    simp only [List.mem_cons, List.not_mem_nil, not_or] at ho ho'
    calc d1.reg64 o = noted.reg64 o := only_reg64 sealed_only ho.2.2.2.1 ho'.2.2.2.1
      _ = d0.reg64 o := only_reg64 noted_only id id
      _ = d.reg64 o := only_reg64 corrections (by simp; tauto) (by simp; tauto)
  refine ⟨?_, ?_, ?_⟩
  · rw [exchanged.2, kept]; exact sealed_next
  · rw [exchanges_reg64 exchanged, kept]
    calc d2.reg64 Reg.CRT_SEALED_LO = ((d1.count64 Reg.CRT_SEALED_LO).count64 Reg.CRT_EARLY_LO (b2n early)).reg64 Reg.CRT_SEALED_LO :=
          only_reg64 (count64_only _ _ _) (by decide) (by decide)
      _ = (d1.count64 Reg.CRT_SEALED_LO).reg64 Reg.CRT_SEALED_LO := only_reg64 (count64_only _ _ _) (by decide) (by decide)
      _ = (d.reg64 Reg.CRT_SEALED_LO + 1) % 2 ^ 64 := by rw [reg64_count64_same, before (by decide) (by decide)]
  · rw [exchanges_reg64 exchanged, kept]
    calc d2.reg64 Reg.CRT_EARLY_LO = ((d1.count64 Reg.CRT_SEALED_LO).count64 Reg.CRT_EARLY_LO (b2n early)).reg64 Reg.CRT_EARLY_LO :=
          only_reg64 (count64_only _ _ _) (by decide) (by decide)
      _ = ((d1.count64 Reg.CRT_SEALED_LO).reg64 Reg.CRT_EARLY_LO + b2n early) % 2 ^ 64 := reg64_count64_same _ _ _
      _ = (d1.reg64 Reg.CRT_EARLY_LO + b2n early) % 2 ^ 64 := by
          rw [only_reg64 (count64_only d1 Reg.CRT_SEALED_LO 1) (by decide) (by decide)]
      _ = (d.reg64 Reg.CRT_EARLY_LO + b2n early) % 2 ^ 64 := by rw [before (by decide) (by decide)]

/-! ## Openings and fills (R101, R115) -/

/-- An epoch that has begun, lies in the store's reach and has no slot gets one. -/
theorem slot_openEpoch {d : Dev} {e : Nat} (hr : d.craterRuns = true) (hs : d.crt.nextSeal ≤ e) (ht : epochTime d.rate e ≤ d.g16)
    (ho : e ≤ d.crt.nextDeliver + 127) (hn : d.slot e = none) : (d.openEpoch e).slot e = some {} := by
  have opens : d.openEpoch e = (d.setSlot e {}).refreshOpen := by simp [Dev.openEpoch, Dev.oldestOpen, hr, hs, ht, ho, hn]
  rw [opens]
  exact slot_setSlot_same d e {}

/-- A sealed epoch with nothing to fill again. -/
theorem reform_idle {d : Dev} {e : Nat} {x : EpochSlot} {info : SealInfo} (hx : d.slot e = some x) (hs : x.sealed = some info)
    (hr : info.refill = []) : d.reform e = d := by
  simp [Dev.reform, hx, hs, hr]

/-- A sealed epoch whose fill is formed again is marked so. -/
theorem reform_reformed {d : Dev} {e : Nat} {x : EpochSlot} {info : SealInfo} (hx : d.slot e = some x) (hs : x.sealed = some info)
    (hr : info.refill ≠ []) (hf : info.reformed = false) (hc : e ≤ d.crt.nextConf) :
    (((d.reform e).slot e).bind (fun y => y.sealed)).any (fun y => y.reformed) = true := by
  simp [Dev.reform, hx, hs, hr, hf, Nat.not_lt.mpr hc]

/-! ## A device on its own (R45) -/

section Lone

variable {d : Dev} {e : Nat} (h : d.fab.views = [])

include h

theorem viewAt_lone : d.viewAt e = d.loneView := by rw [Dev.viewAt, h]; rfl

theorem members_lone {n : Nat} (hn : n ∈ bitsOf 64 (d.viewAt e).members) : n = d.deviceNo := by
  rw [viewAt_lone h] at hn
  have bit : (maskOf [d.deviceNo]).testBit n = true := (List.mem_filter.mp hn).2
  have self : d.deviceNo = n := by simpa [maskOf, putBit, Nat.testBit_two_pow] using bit
  exact self.symm

theorem popCount_lone : popCount 64 (d.viewAt e).members < 2 := by
  have distinct : (bitsOf 64 (d.viewAt e).members).Nodup := List.Nodup.filter _ List.nodup_range
  have same := fun n => members_lone (n := n) (e := e) h
  unfold popCount
  generalize bitsOf 64 (d.viewAt e).members = l at distinct same
  match l with
  | [] => exact Nat.zero_lt_two
  | [_] => exact Nat.one_lt_two
  | a :: b :: t =>
    have hab : a = b := (same a (by simp)).trans (same b (by simp)).symm
    exact absurd hab (by simpa using fun hab => (List.nodup_cons.mp distinct).1 (by simp [hab]))

theorem partners_lone : d.partners e = [] := by
  unfold Dev.partners
  refine List.filter_eq_nil_iff.mpr (fun n hn => ?_)
  simp [members_lone h hn]

end Lone

/-! ## Confirmation (R119) -/

/-- From `d` to `t` the epoch to confirm next and the slots stay. -/
def confKept (d t : Dev) : Prop := t.crt.nextConf = d.crt.nextConf ∧ t.crt.slots = d.crt.slots

theorem confKept_refl (d : Dev) : confKept d d := ⟨rfl, rfl⟩

theorem confKept_trans {a b c : Dev} (h : confKept a b) (k : confKept b c) : confKept a c := ⟨k.1.trans h.1, k.2.trans h.2⟩

theorem confKept_of_crt {d t : Dev} (h : t.crt = d.crt) : confKept d t := ⟨by rw [h], by rw [h]⟩

theorem confKept_modCrt (d : Dev) {f : CrtSt → CrtSt} (hn : ∀ c, (f c).nextConf = c.nextConf) (hs : ∀ c, (f c).slots = c.slots) :
    confKept d (d.modCrt f) := ⟨hn d.crt, hs d.crt⟩

theorem confKept_event {d x : Dev} (h : confKept d x) {e : Ev} {index arg0 arg1 status : Nat} :
    confKept d (x.event e index arg0 arg1 status) := by
  obtain ⟨-, -, -, crt, -⟩ := (event_only x e index arg0 arg1 status).1
  exact confKept_trans h (confKept_of_crt (crt (by simp)))

theorem confKept_noteConf (d : Dev) (e : Nat) (r : Rec) : confKept d (d.noteConf e r) := by
  unfold Dev.noteConf
  split
  · exact confKept_refl d
  · extract_lets h rec' n lost d1
    have noted : confKept d d1 := ⟨rfl, rfl⟩
    clear_value d1 lost
    split
    · exact confKept_event noted
    · split
      · exact confKept_event noted
      · exact noted

theorem confKept_settle (d : Dev) (e : Nat) : confKept d (d.settle e) := ⟨rfl, rfl⟩

section Confirm

variable {d : Dev} {x : EpochSlot} {info : SealInfo}

/-- A device on its own confirms the next epoch once it is sealed and its own manifest is held. -/
theorem canConfirm_lone (hv : d.fab.views = []) (hf : d.fab.fwdDone.find 0 = none) (hx : d.slot d.crt.nextConf = some x)
    (hs : x.sealed = some info) (hr : d.craterRuns = true) (hn : d.crt.nextConf < d.crt.nextSeal)
    (hm : ((d.crt.manifests.getD d.crt.nextConf []).find d.deviceNo).isSome = true) : d.canConfirm = true := by
  have num : (d.viewAt d.crt.nextConf).num = 0 := by rw [viewAt_lone hv]; rfl
  have all : (bitsOf 64 (d.viewAt d.crt.nextConf).members).all
      (fun n => ((d.crt.manifests.getD d.crt.nextConf []).find n).isSome) = true :=
    List.all_eq_true.mpr (fun n h => by rw [members_lone hv h]; exact hm)
  simp [Dev.canConfirm, num, hf, hx, hs, hr, hn, all]

end Confirm

theorem nextConf_setSlot (d : Dev) (e : Nat) (x : EpochSlot) : (d.setSlot e x).crt.nextConf = d.crt.nextConf := rfl

theorem handleLate_none {d : Dev} {e : Nat} {y : EpochSlot} (h : d.slot e = some y) (hl : y.late = []) :
    d.handleLate e = d.setSlot e { y with late := [] } := by
  unfold Dev.handleLate
  rw [slotD_of_slot h, hl]
  rfl

/-- The next epoch that can be confirmed and holds no late record is confirmed in its slot. -/
theorem confirm_of_can {d d0 : Dev} {x : EpochSlot} {info : SealInfo}
    (h0 : d0 = if popCount 64 (d.viewAt d.crt.nextConf).members < 2 then (d.reform d.crt.nextConf).publish d.crt.nextConf else d)
    (hc : d0.canConfirm = true) (hx : d0.slot d.crt.nextConf = some x) (hs : x.sealed = some info) (hl : x.late = []) :
    (d.confirm).crt.nextConf = d.crt.nextConf + 1 ∧ ((d.confirm).slot d.crt.nextConf).any (fun y => y.conf.isSome) = true := by
  generalize ht : d.confirm = t
  unfold Dev.confirm at ht
  extract_lets +onlyGivenNames e d0' at ht
  have same : d0' = d0 := h0.symm
  clear_value d0'
  subst same
  rw [if_neg (by rw [hc]; exact Bool.noConfusion)] at ht
  have sealed : (d0'.slot e).bind (fun s => s.sealed) = some info := by rw [hx]; exact hs
  rw [sealed] at ht
  dsimp -zeta only at ht
  extract_lets +onlyGivenNames v row ms ids won backs lost listed entries recs diff departed changed conf old at ht
  have old_eq : old = x := slotD_of_slot hx
  clear_value v row ms ids won backs lost listed entries recs diff departed changed conf old
  extract_lets +onlyGivenNames d1 at ht
  have next1 : d1.crt.nextConf = e + 1 := rfl
  have slot1 : d1.slot e = some { x with conf := some conf } := by
    rw [← old_eq]
    exact Tbl.find_put_same _ _ _
  clear_value d1
  extract_lets +onlyGivenNames d2 at ht
  have k2 : confKept d1 d2 := confKept_trans (confKept_of_crt rfl) (confKept_settle _ e)
  clear_value d2
  extract_lets +onlyGivenNames d3 at ht
  have k3 : confKept d2 d3 := foldl_keeps confKept_refl confKept_trans (fun y (r : Nat × Rec) => confKept_noteConf y e r.2) _ _
  clear_value d3
  extract_lets +onlyGivenNames d4 at ht
  have k4 : confKept d3 d4 := by
    refine foldl_keeps confKept_refl confKept_trans (fun y w => ?_) _ _
    split
    · extract_lets z k
      have counted : confKept y z := confKept_of_crt rfl
      clear_value z k
      split
      · refine confKept_trans counted (confKept_event ?_)
        exact confKept_modCrt z (fun _ => rfl) (fun _ => rfl)
      · exact counted
    · exact confKept_refl y
  clear_value d4
  extract_lets +onlyGivenNames d5 at ht
  have k5 : confKept d4 d5 := by
    refine foldl_keeps confKept_refl confKept_trans (fun y o => ?_) _ _
    extract_lets z k
    have counted : confKept y z := confKept_of_crt rfl
    clear_value z k
    split
    · refine confKept_trans counted (confKept_event ?_)
      exact confKept_of_crt rfl
    · exact counted
  clear_value d5
  extract_lets +onlyGivenNames slow d6 at ht
  have k6 : confKept d5 d6 := by
    show confKept d5 (if _ then _ else _)
    split
    · exact confKept_of_crt rfl
    · exact confKept_refl d5
  clear_value d6
  extract_lets +onlyGivenNames d7 at ht
  have k7 : confKept d6 d7 := by
    refine foldl_keeps confKept_refl confKept_trans (fun y o => ?_) _ _
    split
    · split
      · exact confKept_of_crt (sends_crt (send_sends _ _ _))
      · exact confKept_refl y
    · exact confKept_refl y
  clear_value d7
  extract_lets +onlyGivenNames d8 d9 at ht
  obtain ⟨f, h8⟩ : ∃ f, d8 = d7.modFab f := ⟨_, rfl⟩
  obtain ⟨g, h9⟩ : ∃ g, d9 = d8.modNet g := ⟨_, rfl⟩
  clear_value d8 d9
  have k9 : confKept d7 d9 := confKept_of_crt (by rw [h9, h8, Dev.modNet_crt, Dev.modFab_crt])
  have kept : confKept d1 d9 := confKept_trans k2 <| confKept_trans k3 <| confKept_trans k4 <| confKept_trans k5 <|
    confKept_trans k6 <| confKept_trans k7 k9
  have slot9 : d9.slot e = some { x with conf := some conf } := (congrArg (fun l => Tbl.find l e) kept.2).trans slot1
  rw [← ht, handleLate_none slot9 hl]
  exact ⟨(nextConf_setSlot _ _ _).trans (kept.1.trans next1), by rw [slot_setSlot_same]; rfl⟩

section ConfirmAlone

variable {d : Dev} {x : EpochSlot} {info : SealInfo}

/-- What publication leaves: the rest of Crater, the views and FWD_DONE. -/
theorem publish_keeps {e : Nat} (hx : d.slot e = some x) (hs : x.sealed = some info) (hc : d.canPublish e = true) :
    (d.publish e).crt.nextConf = d.crt.nextConf ∧ (d.publish e).crt.nextSeal = d.crt.nextSeal
      ∧ (d.publish e).fab.views = d.fab.views ∧ (d.publish e).fab.fwdDone = d.fab.fwdDone := by
  rw [publish_eq hx hs hc]
  obtain ⟨⟨_, _, _, _, sent⟩, -⟩ := sendAll_sends ((d.setSlot e { x with published := true }).keepManifest (d.manifestOf e info))
    (d.viewAt e).members (.manifest (d.manifestOf e info))
  obtain ⟨_, _, kept⟩ := keepManifest_eq (d.setSlot e { x with published := true }) (d.manifestOf e info)
  rw [sent, kept]
  exact ⟨rfl, rfl, rfl, rfl⟩

/-- A device on its own publishes and confirms the next epoch once it is sealed. -/
theorem confirm_alone (hx : d.slot d.crt.nextConf = some x) (hs : x.sealed = some info) (hl : x.late = []) (hp : x.published = false)
    (hr : info.refill = []) (hv : d.fab.views = []) (hf : d.fab.fwdDone.find 0 = none) (hruns : d.craterRuns = true)
    (hn : d.crt.nextConf < d.crt.nextSeal) :
    (d.confirm).crt.nextConf = d.crt.nextConf + 1 ∧ ((d.confirm).slot d.crt.nextConf).any (fun y => y.conf.isSome) = true := by
  have done : d.pairsDone d.crt.nextConf = true := by rw [Dev.pairsDone, partners_lone hv]; rfl
  have hc := canPublish_of_sealed hx hs hp done (.inl hr)
  obtain ⟨keptConf, keptSeal, keptViews, keptFwd⟩ := publish_keeps hx hs hc
  have frame := publish_only hx hs hc (fun _ => False)
  have slot0 := slot_publish_same hx hs hc
  refine confirm_of_can (d0 := d.publish d.crt.nextConf) ?_ ?_ slot0 hs hl
  · rw [if_pos (popCount_lone hv), reform_idle hx hs hr]
  · refine canConfirm_lone (x := { x with published := true }) (info := info) ?_ ?_ ?_ hs ?_ ?_ ?_
    · rw [keptViews, hv]
    · rw [keptFwd, hf]
    · rw [keptConf]; exact slot0
    · rw [craterRuns_of_only frame id, hruns]
    · rw [keptConf, keptSeal]; exact hn
    · rw [keptConf, Dev.deviceNo, only_fld frame id]
      exact publish_held hx hs hc

end ConfirmAlone

/-! ## The confirmation's time limit (R122) -/

/-- No member but this device lacks a manifest, and no partner an acknowledgement: nothing is suspected. -/
theorem confTimeout_reports {d : Dev} {e : Nat} {x : EpochSlot} (hx : d.slot e = some x) (hs : x.sealed.isSome = true)
    (hc : x.conf = none) (hr : x.reported = false) (ht : d.deadline e + 1000000 * 2 ^ 16 ≤ d.g16) (hp : d.partners e = [])
    (hm : (bitsOf 64 (d.viewAt e).members).all
      (fun n => decide (n = d.deviceNo) || ((d.crt.manifests.getD e []).find n).isSome) = true) :
    d.confTimeout e = d.setSlot e { x with reported := true } := by
  have silent : ((bitsOf 64 (d.viewAt e).members).filter (fun n => ((d.crt.manifests.getD e []).find n).isNone)).filter
      (fun n => decide (n ≠ d.deviceNo)) = [] := by
    refine List.filter_eq_nil_iff.mpr (fun n hn => ?_)
    obtain ⟨mem, missing⟩ := List.mem_filter.mp hn
    have known := List.all_eq_true.mp hm n mem
    rw [Option.isNone_iff_eq_none.mp missing] at known
    simpa using known
  have due : ¬ (x.sealed.isNone = true ∨ x.conf.isSome = true ∨ x.reported = true ∨ d.g16 < d.deadline e + 1000000 * 2 ^ 16) := by
    simp only [← Option.not_isSome, hs, hc, hr, Nat.not_lt.mpr ht]
    decide
  have nothing (y : Dev) : y.suspect (maskOf []) = y := by simp [Dev.suspect, maskOf, bitsOf]
  simp only [Dev.confTimeout, hx]
  rw [if_neg due, hp, List.filter_nil, List.append_nil, silent, nothing]

/-! ## Late records (R132, R133) -/

/-- The amendment record that a late record of a confirmed epoch becomes. -/
def Dev.amendmentOf (d : Dev) (e : Nat) (ent : StreamEntry) (old : Rec) (sealAt : Nat) (l : LateRec) : Amendment :=
  { src := 0, shortEpoch := e % 2 ^ 32, primary := if popCount 64 (d.viewAt e).members < 2 then d.deviceNo else ent.primary, origQual := old.qual ||| 4, arrival := l.rx,
    lateness := min (2 ^ 32 - 1) ((l.commitAt - sealAt) / 2 ^ 16 / 1000), record := l.record }

section Late

variable {d : Dev} {i e sealAt : Nat} {old : Rec} {ent : StreamEntry}

theorem primaryAt_eq (d : Dev) (e : Nat) (ent : StreamEntry) :
    d.primaryAt e ent = if popCount 64 (d.viewAt e).members < 2 then d.deviceNo else ent.primary := by
  simp only [Dev.primaryAt, Dev.loneAt, decide_eq_true_eq]

theorem crt_count64 (d : Dev) (lo n : Nat) : (d.count64 lo n).crt = d.crt := rfl

/-- A late record of a confirmed epoch that was missing becomes an amendment, placed here and sent to the partner. -/
theorem amend_crt {l : LateRec} (hc : d.confirmedRec i e = some (old, sealAt)) (hent : d.entryAt i e = some ent)
    (ha : d.hasAmend i e = false) (hq : old.qual.testBit 0 = false) (hh : d.crt.nextSeal ≤ d.fld Fld.CRT_AMEND_HORIZON + e + 1) :
    (d.amend i e l).crt = (d.placeAmend e (d.amendmentOf e ent old sealAt l)).crt := by
  unfold Dev.amend
  rw [hc, hent]
  dsimp -zeta only
  rw [if_neg (by rw [ha]; exact Bool.false_ne_true), if_neg (by rw [hq]; exact Bool.false_ne_true), if_neg (Nat.not_lt.mpr hh)]
  extract_lets us en a d1 p
  have placed : d1.crt = (d.placeAmend e a).crt := crt_count64 _ _ _
  split
  · exact (sends_crt (send_sends d1 p _)).trans placed
  · exact placed

/-- A record of an epoch that is sealed and confirmed goes to the amendments. -/
theorem lateRow_confirmed (hs : d.sealedHere e = true) (hent : d.entryAt i e = some ent) (hn : e < d.crt.nextConf) (r : Rec) (rx : Nat) :
    d.lateRow i e r rx = d.amend i e { stream := i, record := { r with stream := i, origin := 0 }, rx := rx, commitAt := d.g16 } := by
  simp [Dev.lateRow, hs, hent, Dev.lateRecord, hn]

end Late

/-! ## Delivery (R101, R136) -/

/-- Which ring serves a kind is read from the CFG and STAT registers. -/
theorem ringOf_of_only {l : List Part} {p : Nat → Prop} {d t : Dev} (h : only l p d t)
    (hp : ∀ n, n < 32 → ¬ p (Reg.HIF_RINGn_CFG n) ∧ ¬ p (Reg.HIF_RINGn_STAT n)) (k : Nat) : t.ringOf k = d.ringOf k := by
  have same : (fun n => t.runs n k) = fun n => d.runs n k := by
    funext n
    by_cases hn : n < 32
    · obtain ⟨cfg, stat⟩ := hp n hn
      have en : t.bit (Fld.HIF_RINGn_CFG_EN n) = d.bit (Fld.HIF_RINGn_CFG_EN n) := only_bit h cfg
      have state : t.fld (Fld.HIF_RINGn_STAT_STATE n) = d.fld (Fld.HIF_RINGn_STAT_STATE n) := only_fld h stat
      have kind : t.fld (Fld.HIF_RINGn_CFG_KIND n) = d.fld (Fld.HIF_RINGn_CFG_KIND n) := only_fld h cfg
      simp only [Dev.runs, en, state, kind]
    · simp [Dev.runs, hn]
  rw [Dev.ringOf, same, Dev.ringOf]

theorem pumpSnapRing_none {d : Dev} (h : d.ringOf 4 = none) : d.pumpSnapRing = d := by simp [Dev.pumpSnapRing, Dev.pumpSnaps, h]

theorem fitSnaps_of_fits {cap : Nat} {l : List HistSnap} (h : snapsBytes l ≤ cap) : fitSnaps cap l = (l, []) := by
  cases l with
  | nil => rfl
  | cons a t => exact if_pos h

/-- The next confirmed snapshot is stored and waits for its ring, and its slot is released. -/
theorem deliver_crt {d : Dev} {x : EpochSlot} {info : SealInfo} {c : ConfInfo} {h : HistSnap} (hx : d.slot d.crt.nextDeliver = some x)
    (hs : x.sealed = some info) (hc : x.conf = some c)
    (hh : h = { epoch := d.crt.nextDeliver, bytes := d.snapshot d.crt.nextDeliver info c, sealAt := info.at_, recs := c.recs })
    (hfit : snapsBytes (d.crt.snaps ++ [h]) ≤ d.fld Fld.CRT_HIST_SIZE * 1048576) (hring : d.ringOf 4 = none) :
    (d.deliver []).crt = { d.crt with
      snaps := d.crt.snaps ++ [h], nextDeliver := d.crt.nextDeliver + 1, slots := d.crt.slots.drop d.crt.nextDeliver,
      waiting := d.crt.waiting ++ [d.crt.nextDeliver] } := by
  generalize ht : d.deliver [] = t
  unfold Dev.deliver at ht
  extract_lets e cap at ht
  rw [hx] at ht
  dsimp -zeta only at ht
  rw [hs, hc] at ht
  dsimp -zeta only at ht
  extract_lets res bytes r lostW d1 d2 vals sums d3 at ht
  have fits : r = (d.crt.snaps ++ [h], []) := by rw [hh]; rw [hh] at hfit; exact fitSnaps_of_fits hfit
  have stored : d1.crt = { d.crt with
      snaps := d.crt.snaps ++ [h], nextDeliver := e + 1, slots := d.crt.slots.drop e, waiting := d.crt.waiting ++ [e] } := by
    show ({ d.crt with
      snaps := r.1, overRuns := (r.2.map (fun x => x.epoch)).foldl addOver d.crt.overRuns, nextDeliver := e + 1,
      slots := d.crt.slots.drop e, waiting := d.crt.waiting ++ [e] } : CrtSt) = _
    rw [fits]
    rfl
  have frame : only [.regs, .hif, .crt, .cyc] (fun o => o ∈ [Reg.HIF_SNAP_LOST, Reg.CRT_STATUS]) d d3.refreshOpen := by
    have lost (y : Dev) (n : Nat) : only [.regs, .hif, .crt, .cyc] (fun o => o ∈ [Reg.HIF_SNAP_LOST, Reg.CRT_STATUS]) y
        (y.count Reg.HIF_SNAP_LOST n) := only_mono (by simp) (by simp) (count_only _ _ _)
    have opened : only [.regs, .hif, .crt, .cyc] (fun o => o ∈ [Reg.HIF_SNAP_LOST, Reg.CRT_STATUS]) d3 d3.refreshOpen :=
      only_mono (by simp) (by rintro _ rfl; decide) (setFld_only _ _ _)
    exact only_trans (only_wider (modCrt_only d _ _) (by simp)) <| only_trans (lost _ _) <|
      only_trans (only_wider (modHif_only _ _ _) (by simp)) <| only_trans (only_wider (modCyc_only d2 _ _) (by simp)) opened
  have noRing : d3.refreshOpen.ringOf 4 = none := by
    refine (ringOf_of_only frame (fun n _ => ?_) 4).trans hring
    simp only [Reg.HIF_RINGn_CFG, Reg.HIF_RINGn_STAT, Reg.HIF_SNAP_LOST, Reg.CRT_STATUS, List.mem_cons, List.not_mem_nil, or_false]
    omega
  rw [← ht, pumpSnapRing_none noRing]
  exact stored

/-! ## Snapshots written whole (R463, R469) -/

theorem snapDone_only {n : Nat} (h : n < 32) (e total : Nat) (l : List (Nat × BufDesc)) (off : Nat) (d : Dev) :
    only [.regs, .hif] signalReg d (Dev.snapDone n e total l off d) := by
  induction l generalizing off d with
  | nil => exact only_refl _ _ _
  | cons x t ih =>
    unfold Dev.snapDone
    split
    · exact only_trans (emit_only _ _ _) (only_trans (countDone_only _ h) (ih _ _))
    · exact only_trans (emit_only _ _ _) <| only_trans (countDone_only _ h) <|
        only_trans (only_wider (modHif_only _ _ _) (by simp)) (ih _ _)

/-- With no snapshot that waits only buffers that cannot be used are given back. -/
theorem pumpSnaps_empty {d : Dev} (hp : d.hif.snapPart = none) (hn : d.crt.nextSnap = none) (fuel : Nat) :
    only [.regs, .hif] signalReg d (Dev.pumpSnaps fuel d) := by
  cases fuel with
  | zero => exact only_refl _ _ _
  | succ fuel =>
    unfold Dev.pumpSnaps
    cases hr : d.ringOf 4 with
    | none => exact only_refl _ _ _
    | some n =>
      simp only [hp, hn]
      split
      · exact only_refl _ _ _
      · split
        · exact dropBad_only (ringOf_lt hr) _ _
        · exact only_refl _ _ _

section Whole

variable {d : Dev} {n e : Nat} {b : BufDesc} {bytes : Bytes}

/-- A snapshot that one buffer holds is written and counted. -/
theorem startWhole_one (hlt : n < 32) (hb : (d.ring n).bufs = [b]) (hok : b.ok = true) (hlen : bytes.length ≤ b.len) :
    ∃ t, only [.regs, .hif] signalReg d t
      ∧ Dev.startWhole n e bytes d = ((t.modHif (fun h => { h with snapPart := none })).count Reg.HIF_SNAP_WHOLE, true) := by
  have started : only [.regs, .hif] signalReg d (d.modHif (fun h => { h with snapPart := some { epoch := e, off := 0, rest := bytes } })) :=
    only_wider (modHif_only _ _ _) (by simp)
  have bufs : ((d.modHif (fun h => { h with snapPart := some { epoch := e, off := 0, rest := bytes } })).ring n).bufs = [b] := hb
  have part : (d.modHif (fun h => { h with snapPart := some { epoch := e, off := 0, rest := bytes } })).hif.snapPart
      = some { epoch := e, off := 0, rest := bytes } := rfl
  unfold Dev.startWhole
  generalize d.modHif (fun h => { h with snapPart := some { epoch := e, off := 0, rest := bytes } }) = d0 at started bufs part
  have usable : Dev.dropBad n (d0.ring n).bufs d0 = d0 := by rw [bufs]; exact if_pos hok
  rw [hb]
  unfold Dev.writeWhole
  rw [part]
  dsimp -zeta only
  rw [usable]
  dsimp only
  rw [bufs]
  refine ⟨_, ?_, if_pos hlen⟩
  exact only_trans started <| only_trans (setRing_only _ _ _ _) <| only_trans (emit_only _ _ _) (snapDone_only hlt _ _ _ _ _)

/-- What a wait of the snapshot ring's next epoch is. -/
theorem nextSnap_waiting {c : CrtSt} {e : Nat} (hc : c.carry = []) (hw : c.waiting = [e]) :
    c.nextSnap = some (e, c.snaps.find? (fun s => decide (s.epoch = e)), false, { c with waiting := [] }) := by
  simp [CrtSt.nextSnap, hc, hw]

theorem popSnap_waiting {t : Dev} (hc : t.crt.carry = []) (hw : t.crt.waiting = [e]) :
    t.popSnap e = t.modCrt (fun c => { c with waiting := [], carry := [] }) := by
  simp [Dev.popSnap, nextSnap_waiting hc hw, hc]

theorem snapWhole_apart : ¬ signalReg Reg.HIF_SNAP_WHOLE := by
  simp only [signalReg, Reg.HIF_SNAP_WHOLE, Reg.HIF_RINGn_DONE, Reg.HIF_RINGn_STAT]
  rintro (⟨n, -, h | h⟩ | h | h) <;> omega

/-- The one snapshot that waits is written whole: nothing waits then, and it is counted. -/
theorem wholeWrite_one {h : HistSnap} (hring : d.ringOf 4 = some n) (hready : d.hostReady = true) (hc : d.crt.carry = [])
    (hw : d.crt.waiting = [e]) (hf : d.crt.snaps.find? (fun x => decide (x.epoch = e)) = some h) (hp : d.hif.snapPart = none)
    (hst : d.hif.stages = []) (hb : (d.ring n).bufs = [b]) (hok : b.ok = true) (hlen : h.bytes.length ≤ b.len) :
    d.wholeWrite.crt.waiting = [] ∧ d.wholeWrite.regN Reg.HIF_SNAP_WHOLE = (d.regN Reg.HIF_SNAP_WHOLE + 1) % 2 ^ 32 := by
  obtain ⟨t, written, whole⟩ := startWhole_one (e := e) (ringOf_lt hring) hb hok hlen
  have next : d.crt.nextSnap = _ := nextSnap_waiting hc hw
  have sent : d.sendSnap n e (some h) false = Dev.startWhole n e h.bytes d := by
    simp [Dev.sendSnap, hst, Dev.aroundStages, Tbl.find]
  have keptCrt : t.crt = d.crt := by
    obtain ⟨-, -, -, crt, -⟩ := written.1
    exact crt (by simp)
  generalize hu : (t.modHif (fun h => { h with snapPart := none })).count Reg.HIF_SNAP_WHOLE = u at whole
  have countedCrt : u.crt = d.crt := by rw [← hu, ← keptCrt]; rfl
  have popped : u.popSnap e = u.modCrt (fun c => { c with waiting := [], carry := [] }) :=
    popSnap_waiting (by rw [countedCrt, hc]) (by rw [countedCrt, hw])
  have pumped : d.wholeWrite = Dev.pumpSnaps 2 (u.popSnap e) := by
    unfold Dev.wholeWrite Dev.pumpSnapRing
    rw [hc, hw]
    show Dev.pumpSnaps (2 + 1) d = _
    rw [Dev.pumpSnaps, hring]
    simp [hready, hp, next, hf, sent, whole]
  have empty : (u.popSnap e).crt.nextSnap = none := by rw [popped]; rfl
  have idle : (u.popSnap e).hif.snapPart = none := by rw [popped, ← hu]; rfl
  have rest := pumpSnaps_empty idle empty 2
  rw [pumped]
  constructor
  · obtain ⟨-, -, -, crt, -⟩ := rest.1
    rw [crt (by simp), popped]
    rfl
  · rw [only_regN rest snapWhole_apart, popped]
    show u.regN Reg.HIF_SNAP_WHOLE = _
    rw [← hu, regN_count, if_pos rfl]
    show (t.regN Reg.HIF_SNAP_WHOLE + 1) % 2 ^ 32 = _
    rw [only_regN written snapWhole_apart]

end Whole

end Sys2Proof.Machine
end

section
/-! Proof that the rows of Crater's epochs and of the owners' records complete with their effect. -/

namespace Sys2Proof.Machine

open Sys2Proof

/-- A row whose effect on the device is known. -/
theorem exists_run_row {P : State → Prop} {s : State} {dt : Nat} {f : KeySt → Dev → Dev} {d : Dev} (e : f s.key (later s.dev dt) = d)
    (h : P { s with dev := d }) : ∃ t, s.run dt f = .next t ∧ t.pending = s.pending ∧ P t := ⟨_, rfl, rfl, e ▸ h⟩

/-- Settles O59: the rows of the owners' records complete by O41, the others by what each does to Crater. -/
theorem epochRowsComplete : Obligations.EpochRowsComplete := by
  have records := fabricRecordsTakeEffect
  unfold Obligations.FabricRecordsTakeEffect at records
  obtain ⟨pairHave, -, -, pairRec, -, pairDone, -, -, pairAck, -, publish, -, manifest, -, -, -, amendFwd, -, mirror, -⟩ := records
  unfold Obligations.EpochRowsComplete
  refine ⟨?_, ?_, ?_, ?_, ?_, ?_, ?_, ?_, ?_, ?_, ?_, ?_, ?_, ?_, ?_, ?_, ?_⟩
  · rintro s dt e d rfl ⟨hr, hs, ht, ho, hn⟩
    exact ⟨_, rfl, rfl, slot_openEpoch hr hs ht ho hn⟩
  · rintro s dt e corrected d d0 rfl rfl ⟨rfl, hr, ht, ho⟩ hq
    have can : (later s.dev dt).canSeal = true := by simp [Dev.canSeal, Dev.sealRoom, Dev.oldestOpen, hr, ht, ho]
    obtain ⟨next, counted, -⟩ := localSeal_counts hq false corrected
    exact exists_run_row (f := fun _ d => if d.canSeal then d.localSeal false corrected [] [] else d) (if_pos can) ⟨next, counted⟩
  · rintro s dt e corrected d rfl ⟨rfl, hr, he, ho, ht, hc⟩ hq
    have can : (later s.dev dt).canSealEarly = true := by simp [Dev.canSealEarly, Dev.sealRoom, Dev.oldestOpen, hr, he, ht, ho, hc]
    obtain ⟨next, -, counted⟩ := localSeal_counts hq true corrected
    exact exists_run_row (f := fun _ d => if d.canSealEarly then d.localSeal true corrected [] [] else d) (if_pos can) ⟨next, counted⟩
  · rintro s dt e d x info rfl ⟨hx, hs⟩ ⟨hr, hf, hc⟩
    exact ⟨_, rfl, rfl, reform_reformed hx hs hr hf hc⟩
  · rintro s dt e d x info rfl ⟨rfl, hx, hs, hl, hp, hr⟩ ⟨hv, -, -, hf⟩ ⟨hruns, hn⟩
    exact ⟨_, rfl, rfl, confirm_alone hx hs hl hp hr hv hf hruns hn⟩
  · rintro s dt e d x rfl ⟨hx, hs, hc, hr, ht⟩ ⟨hp, hm⟩
    exact exists_run_row (f := fun _ d => d.confTimeout e) (confTimeout_reports hx hs hc hr ht hp hm) (slot_setSlot_same _ _ _)
  · rintro s dt i e rx sealAt r old ent a d rfl ⟨hs, hent, hn, hc⟩ ⟨ha, hq, hh, -⟩ rfl ⟨hcap, hring, hlen⟩
    refine ⟨_, rfl, rfl, ?_⟩
    show ((later s.dev dt).lateRow i e r rx).crt = _
    rw [lateRow_confirmed hs hent hn, amend_crt hc hent ha hq hh, Dev.amendmentOf, ← primaryAt_eq, placeAmend_fits hcap hring hlen]
  · rintro s dt e d x info c h rfl ⟨rfl, hx, hs, hc⟩ hh ⟨hfit, hring⟩
    have delivered := deliver_crt hx hs hc hh hfit hring
    refine ⟨_, rfl, rfl, congrArg CrtSt.nextDeliver delivered, ?_, congrArg CrtSt.snaps delivered⟩
    exact (congrArg (fun c : CrtSt => c.slots.find (later s.dev dt).crt.nextDeliver) delivered).trans (Tbl.find_drop_same _ _)
  · rintro s dt e n d b h rfl ⟨hring, hready, hc, hw, hf⟩ ⟨hp, hst, hb, hok, -, hlen⟩
    exact ⟨_, rfl, rfl, wholeWrite_one hring hready hc hw hf hp hst hb hok hlen⟩
  · intro s dt src seq e l d d1 hd h
    obtain ⟨t, run, ⟨-, queue, -⟩, -, -, noted, -⟩ := pairHave s dt src seq e l d d1 hd h
    exact ⟨t, run, queue, noted⟩
  · intro s dt src seq e r d d1 hd h
    obtain ⟨t, run, ⟨-, queue, -⟩, -, -, held⟩ := pairRec s dt src seq e r d d1 hd h
    exact ⟨t, run, queue, held⟩
  · intro s dt src seq e n d d1 hd h
    obtain ⟨t, run, ⟨-, queue, -⟩, -, noted⟩ := pairDone s dt src seq e n d d1 hd h
    exact ⟨t, run, queue, noted⟩
  · intro s dt src seq e n d d1 hd h
    obtain ⟨t, run, ⟨-, queue, -⟩, -, noted⟩ := pairAck s dt src seq e n d d1 hd h
    exact ⟨t, run, queue, noted⟩
  · intro s dt e d x info hd h hready
    obtain ⟨t, run, ⟨-, queue, -⟩, published, -⟩ := publish s dt e d x info hd h hready
    exact ⟨t, run, queue, published⟩
  · intro s dt src seq m d d1 hd h hq
    obtain ⟨t, run, ⟨-, queue, -⟩, -, kept, -⟩ := manifest s dt src seq m d d1 hd h hq
    exact ⟨t, run, queue, kept⟩
  · intro s dt src seq e a d d1 hd h hfit
    obtain ⟨t, run, ⟨-, queue, -⟩, -, stored⟩ := amendFwd s dt src seq e a d d1 hd h hfit
    exact ⟨t, run, queue, stored⟩
  · intro s dt src seq e r d d1 ent hd h ht hr
    obtain ⟨t, run, ⟨-, queue, -⟩, stored, -⟩ := mirror s dt src seq e r d d1 ent hd h ht hr
    exact ⟨t, run, queue, stored⟩

end Sys2Proof.Machine
end

section
/-! Proofs' layer of ingest: registers apart from the signals', one part out of a frame, and fields beside fields. -/

namespace Sys2Proof.Machine

open Sys2Proof

/-! ## One part out of a frame -/

section Parts

variable {l : List Part} {p : Nat → Prop} {d t : Dev} (h : only l p d t)

include h

theorem only_hif (hn : Part.hif ∉ l) : t.hif = d.hif := by obtain ⟨-, hif, -⟩ := h.1; exact hif hn
theorem only_ing (hn : Part.ing ∉ l) : t.ing = d.ing := by obtain ⟨-, -, ing, -⟩ := h.1; exact ing hn
theorem only_crt (hn : Part.crt ∉ l) : t.crt = d.crt := by obtain ⟨-, -, -, crt, -⟩ := h.1; exact crt hn
theorem only_tim (hn : Part.tim ∉ l) : t.tim = d.tim := by obtain ⟨-, -, -, -, -, -, -, -, -, -, -, -, -, tim, -⟩ := h.1; exact tim hn
theorem only_saf (hn : Part.saf ∉ l) : t.saf = d.saf := by
  obtain ⟨-, -, -, -, -, -, -, -, -, -, -, -, -, -, -, -, saf, -⟩ := h.1; exact saf hn

end Parts

/-! ## Registers that signals and events do not move -/

theorem signalReg_range {o : Nat} (h : signalReg o) : 0x021014 ≤ o ∧ o ≤ 0x031004 := by
  simp only [signalReg, Reg.HIF_RINGn_DONE, Reg.HIF_RINGn_STAT] at h
  rcases h with ⟨n, hn, h | h⟩ | h | h <;> omega

theorem eventReg_range {o : Nat} (h : eventReg o) : (0x020010 ≤ o ∧ o ≤ 0x031004) ∨ (0x150024 ≤ o ∧ o ≤ 0x150030) := by
  rcases h with h | h
  · have := signalReg_range h; omega
  · simp only [List.mem_cons, List.not_mem_nil, or_false] at h
    rcases h with rfl | rfl | rfl | rfl | rfl <;> decide

theorem not_signalReg {o : Nat} (h : o < 0x021014 ∨ 0x031004 < o) : ¬ signalReg o := fun k => by
  have := signalReg_range k; omega

theorem not_eventReg {o : Nat} (h : o < 0x020010 ∨ (0x031004 < o ∧ o < 0x150024) ∨ 0x150030 < o) : ¬ eventReg o := fun k => by
  have := eventReg_range k; omega

/-! ## Fields -/

theorem bit_of_fld {d t : Dev} {f : FieldAt} (h : t.fld f = d.fld f) : t.bit f = d.bit f := by rw [Dev.bit, h, Dev.bit]

theorem bit_setBit_other {d : Dev} {f g : FieldAt} (b : Bool) (h : f.lo + f.width ≤ 32)
    (hd : g.off ≠ f.off ∨ g.lo + g.width ≤ f.lo ∨ f.lo + f.width ≤ g.lo) : (d.setBit f b).bit g = d.bit g :=
  bit_of_fld (Dev.fld_setFld_other d f g _ h hd)

theorem regN_setReg_same (d : Dev) (o : Nat) (w : Word) : (d.setReg o w).regN o = w.toNat := by rw [Dev.regN, reg_setReg_same]

end Sys2Proof.Machine
end

section
/-! Proofs about the start and the stop of ingest (R46, R88, R89, R546). -/

namespace Sys2Proof.Machine

open Sys2Proof

/-! ## A write of ING_CTRL -/

section Write

variable {k : KeySt} {v : Word} {d : Dev}

/-- The write itself, which keeps the low five bits. -/
def Dev.withIngCtrl (d : Dev) (v : Word) : Dev := d.setReg Reg.ING_CTRL (BitVec.ofNat 32 (v.toNat % 32))

theorem withIngCtrl_only (d : Dev) (v : Word) : only [.regs] (fun o => o = Reg.ING_CTRL) d (d.withIngCtrl v) := only_setReg _ _ _

theorem regN_withIngCtrl (d : Dev) (v : Word) : (d.withIngCtrl v).regN Reg.ING_CTRL = v.toNat % 32 := by
  rw [Dev.withIngCtrl, regN_setReg_same, BitVec.toNat_ofNat]
  omega

/-- A write that sets EN starts ingest, unless it is refused. -/
theorem writeIngCtrl_starts (hon : bitsAt v 0 1 = 1) (hwas : (d.reg Reg.ING_CTRL).toNat.testBit 0 = false)
    (hr : Dev.ingestRefused k d = false) : writeIngCtrl k v d = (d.withIngCtrl v).startIngest := by
  simp only [writeIngCtrl, hon, hwas, hr]
  rfl

theorem writeIngCtrl_refused (hon : bitsAt v 0 1 = 1) (hwas : (d.reg Reg.ING_CTRL).toNat.testBit 0 = false)
    (hr : Dev.ingestRefused k d = true) :
    writeIngCtrl k v d = ((d.withIngCtrl v).setBit Fld.ING_CTRL_EN false).setBit Fld.CRT_STATUS_CFG_ERR true := by
  simp only [writeIngCtrl, hon, hwas, hr]
  rfl

/-- The device after DRAINING has followed the items that are to drain. -/
def Dev.drainingSet (d : Dev) : Dev := if d.drains then d.setBit Fld.ING_STATUS_DRAINING true else d

/-- A write that clears EN stops ingest, and what the FIFOs hold drains. -/
theorem writeIngCtrl_stops (hon : bitsAt v 0 1 = 0) (hwas : (d.reg Reg.ING_CTRL).toNat.testBit 0 = true)
    (hv : v.toNat.testBit 0 = false) :
    writeIngCtrl k v d = (((d.withIngCtrl v).setBit Fld.ING_STATUS_RUNNING false).markDrain).drainingSet := by
  have off : (List.range 5).any (fun b => (d.reg Reg.ING_CTRL).toNat.testBit b && !v.toNat.testBit b) = true :=
    List.any_eq_true.mpr ⟨0, by simp, by simp [hwas, hv]⟩
  simp only [writeIngCtrl, hon, off]
  rfl

/-- A write that clears a protocol bit alone leaves ingest running. -/
theorem writeIngCtrl_narrows (hon : bitsAt v 0 1 = 1) (hwas : (d.reg Reg.ING_CTRL).toNat.testBit 0 = true)
    (off : (List.range 5).any (fun b => (d.reg Reg.ING_CTRL).toNat.testBit b && !v.toNat.testBit b) = true) :
    writeIngCtrl k v d = ((d.withIngCtrl v).markDrain).drainingSet := by
  simp only [writeIngCtrl, hon, hwas, off]
  rfl

end Write

/-! ## The start -/

theorem modClk_only (d : Dev) (f : ClkSt → ClkSt) (p : Nat → Prop) : only [.clk] p d (d.modClk f) :=
  only_of_kept (by simp [keptBut, Dev.modClk]) rfl

section Start

variable {d : Dev}

/-- The device that has sent START_COMPLETE, if it had not before. -/
def Dev.completesStart (d : Dev) : Dev :=
  if d.clk.startComplete then d
  else (d.modClk (fun c => { c with startComplete := true })).event .startComplete noIndex
    (sat (2 ^ 32 - 1) ((d.up - d.tim.releasedAt) / 1000000)) (d.fld Fld.RST_STATUS_LAST_KIND)

theorem completesStart_only (d : Dev) : only [.regs, .hif, .clk, .snt] eventReg d d.completesStart := by
  unfold Dev.completesStart
  split
  · exact only_refl _ _ _
  · exact only_trans (only_wider (modClk_only _ _ _) (by simp)) (only_wider (event_only _ _ _ _ _ _) (by simp))

/-- Crater starts at the first epoch at or after now. -/
def CrtSt.startAt (c : CrtSt) (e : Nat) : CrtSt := { c with first := e, nextSeal := e, nextConf := e, nextDeliver := e }

theorem startAt_numbers (c : CrtSt) (e : Nat) : (c.startAt e).first = e ∧ (c.startAt e).nextSeal = (c.startAt e).first
    ∧ (c.startAt e).nextConf = (c.startAt e).first ∧ (c.startAt e).slots = c.slots ∧ (c.startAt e).hists = c.hists :=
  ⟨rfl, rfl, rfl, rfl, rfl⟩

theorem completesStart_rate (d : Dev) : d.completesStart.rate = d.rate :=
  only_fld (completesStart_only d) (not_eventReg (by decide))

theorem completesStart_g16 (d : Dev) : d.completesStart.g16 = d.g16 := by
  rw [Dev.g16, only_tim (completesStart_only d) (by simp), Dev.g16]

theorem completesStart_crt (d : Dev) : d.completesStart.crt = d.crt := only_crt (completesStart_only d) (by simp)

theorem completesStart_craterRuns (d : Dev) : d.completesStart.craterRuns = d.craterRuns :=
  craterRuns_of_only (completesStart_only d) (not_eventReg (by decide))

/-- Where Crater does not run it starts with ingest. -/
theorem startIngest_eq (h : d.craterRuns = false) :
    d.startIngest = ((d.completesStart.setBit Fld.ING_STATUS_RUNNING true).modCrt
      (fun c => c.startAt (firstEpochAt d.rate d.g16))).setBit Fld.CRT_STATUS_RUNNING true := by
  have rate : (d.completesStart.setBit Fld.ING_STATUS_RUNNING true).rate = d.rate :=
    (only_fld (setBit_only _ _ _) (by decide)).trans (completesStart_rate d)
  have off : (d.completesStart.setBit Fld.ING_STATUS_RUNNING true).craterRuns = false :=
    (craterRuns_of_only (setBit_only _ _ _) (by decide)).trans ((completesStart_craterRuns d).trans h)
  have now : (d.completesStart.setBit Fld.ING_STATUS_RUNNING true).g16 = d.g16 := completesStart_g16 d
  have shape (x : Dev) (hx : x = d.completesStart.setBit Fld.ING_STATUS_RUNNING true) : d.startIngest = if x.craterRuns then x
      else (x.modCrt (fun c => c.startAt (firstEpochAt x.rate x.g16))).setBit Fld.CRT_STATUS_RUNNING true := by rw [hx]; rfl
  rw [shape _ rfl, if_neg (by rw [off]; exact Bool.false_ne_true), rate, now]

theorem startIngest_only (h : d.craterRuns = false) :
    only [.regs, .hif, .crt, .clk, .snt] (fun o => eventReg o ∨ o ∈ [Reg.ING_STATUS, Reg.CRT_STATUS]) d d.startIngest := by
  rw [startIngest_eq h]
  exact only_trans (only_mono (by simp) (fun _ => .inl) (completesStart_only d)) <|
    only_trans (only_mono (by simp) (by rintro _ rfl; exact .inr (by decide)) (setBit_only _ _ _)) <|
    only_trans (only_wider (modCrt_only _ _ _) (by simp)) (only_mono (by simp) (by rintro _ rfl; exact .inr (by decide)) (setBit_only _ _ _))

theorem startIngest_crt (h : d.craterRuns = false) : d.startIngest.crt = d.crt.startAt (firstEpochAt d.rate d.g16) := by
  rw [startIngest_eq h]
  exact congrArg (fun c => c.startAt (firstEpochAt d.rate d.g16)) (completesStart_crt d)

theorem startIngest_craterRuns (h : d.craterRuns = false) : d.startIngest.craterRuns = true := by
  rw [startIngest_eq h]
  exact Dev.bit_setBit_same _ _ _ (by decide) (by decide)

theorem startIngest_running (h : d.craterRuns = false) : d.startIngest.bit Fld.ING_STATUS_RUNNING = true := by
  rw [startIngest_eq h, only_bit (setBit_only _ _ _) (by decide), only_bit (modCrt_only _ _ (fun _ => False)) id]
  exact Dev.bit_setBit_same _ _ _ (by decide) (by decide)

end Start

/-! ## The stop and the drain -/

theorem modIng_only (d : Dev) (f : IngSt → IngSt) (p : Nat → Prop) : only [.ing] p d (d.modIng f) :=
  only_of_kept (by simp [keptBut, Dev.modIng]) rfl

theorem mem_mapVals {α β : Type} (f : Nat → α → β) {t : Tbl α} {i : Nat} {v : α} (h : (i, v) ∈ t) : (i, f i v) ∈ Tbl.mapVals f t := by
  induction t with
  | nil => cases h
  | cons x t ih =>
    rcases List.mem_cons.mp h with rfl | h
    · exact List.mem_cons_self ..
    · exact List.mem_cons_of_mem _ (ih h)

section Drain

variable {d : Dev}

theorem drainingSet_only (d : Dev) : only [.regs] (fun o => o = Reg.ING_STATUS) d d.drainingSet := by
  unfold Dev.drainingSet
  split
  · exact setBit_only _ _ _
  · exact only_refl _ _ _

theorem drainingSet_drains (d : Dev) : d.drainingSet.drains = d.drains := by
  rw [Dev.drains, only_ing (drainingSet_only d) (by simp), Dev.drains]

theorem drainingSet_running (d : Dev) : d.drainingSet.bit Fld.ING_STATUS_RUNNING = d.bit Fld.ING_STATUS_RUNNING := by
  unfold Dev.drainingSet
  split
  · exact bit_setBit_other _ (by decide) (by decide)
  · rfl

theorem drainingSet_draining (d : Dev) :
    d.drainingSet.bit Fld.ING_STATUS_DRAINING = (d.bit Fld.ING_STATUS_DRAINING || d.drains) := by
  unfold Dev.drainingSet
  cases h : d.drains with
  | false => simp
  | true =>
    rw [if_pos rfl, Bool.or_true]
    exact Dev.bit_setBit_same _ _ _ (by decide) (by decide)

theorem markDrain_only (d : Dev) (p : Nat → Prop) : only [.ing] p d d.markDrain := modIng_only _ _ _

/-- With EN at 0 every item of every FIFO is to drain. -/
theorem markDrain_drains (hen : d.bit Fld.ING_CTRL_EN = false) (h : d.fifosEmpty = false) : d.markDrain.drains = true := by
  have drained : ∃ x ∈ d.ing.streams, x.2.fifo.isEmpty = false := by
    simpa [Dev.fifosEmpty] using h
  obtain ⟨⟨i, st⟩, mem, full⟩ := drained
  have stopped (o : Option StreamEntry) : o.any (fun e => d.ingests (protocolBit e.type)) = false := by
    cases o <;> simp [Dev.ingests, hen]
  refine List.any_eq_true.mpr ⟨_, mem_mapVals _ mem, ?_⟩
  simp only [stopped]
  cases hf : st.fifo with
  | nil => rw [hf] at full; cases full
  | cons a t => exact decide_eq_true (Nat.succ_pos _)

end Drain

theorem drainDone_clears {d : Dev} (h : d.bit Fld.ING_STATUS_DRAINING = true) (hd : d.drains = false) :
    d.drainDone = d.setBit Fld.ING_STATUS_DRAINING false := by
  simp [Dev.drainDone, h, hd]

theorem drainDone_idle {d : Dev} (h : d.bit Fld.ING_STATUS_DRAINING = false ∨ d.drains = true) : d.drainDone = d := by
  rcases h with h | h <;> simp [Dev.drainDone, h]

/-! ## What the two rows do to the device -/

theorem testBit_zero_iff (v : Word) : v.toNat.testBit 0 = decide (bitsAt v 0 1 = 1) := by
  simp [bitsAt, Nat.testBit_zero]

theorem any_cleared_of_en {was v : Word} (hwas : was.toNat.testBit 0 = true) (hv : v.toNat.testBit 0 = false) :
    (List.range 5).any (fun b => was.toNat.testBit b && !v.toNat.testBit b) = true :=
  List.any_eq_true.mpr ⟨0, by simp, by simp [hwas, hv]⟩

theorem withIngCtrl_en {d : Dev} {v : Word} (h : bitsAt v 0 1 = 0) : (d.withIngCtrl v).bit Fld.ING_CTRL_EN = false := by
  have low : bitsAt v 0 1 = v.toNat % 2 := by simp [bitsAt]
  have fld : (d.withIngCtrl v).fld Fld.ING_CTRL_EN = v.toNat % 32 % 2 := by
    rw [← regN_withIngCtrl d v]; simp [Dev.fld, bitsAt, Dev.regN, Fld.ING_CTRL_EN]
  rw [Dev.bit, fld]
  simp
  omega

section Rows

variable {k : KeySt} {v : Word} {d : Dev}

/-- A write that sets EN starts ingest and Crater. -/
theorem ingEnable_starts (hon : bitsAt v 0 1 = 1) (hwas : (d.reg Reg.ING_CTRL).toNat.testBit 0 = false)
    (hr : Dev.ingestRefused k d = false) (hruns : d.craterRuns = false) :
    only [.regs, .hif, .crt, .clk, .snt] (fun o => eventReg o ∨ o ∈ [Reg.ING_CTRL, Reg.ING_STATUS, Reg.CRT_STATUS]) d (writeIngCtrl k v d)
      ∧ (writeIngCtrl k v d).regN Reg.ING_CTRL = v.toNat % 32 ∧ (writeIngCtrl k v d).bit Fld.ING_STATUS_RUNNING = true
      ∧ (writeIngCtrl k v d).craterRuns = true ∧ (writeIngCtrl k v d).crt.first = firstEpochAt d.rate d.g16
      ∧ (writeIngCtrl k v d).crt.nextSeal = (writeIngCtrl k v d).crt.first
      ∧ (writeIngCtrl k v d).crt.nextConf = (writeIngCtrl k v d).crt.first
      ∧ (writeIngCtrl k v d).crt.slots = d.crt.slots ∧ (writeIngCtrl k v d).crt.hists = d.crt.hists := by
  have written := withIngCtrl_only d v
  have off : (d.withIngCtrl v).craterRuns = false := (craterRuns_of_only written (by decide)).trans hruns
  have rate : (d.withIngCtrl v).rate = d.rate := only_fld written (by decide)
  have now : (d.withIngCtrl v).g16 = d.g16 := rfl
  have crt : (d.withIngCtrl v).crt = d.crt := rfl
  have started := startIngest_only off
  rw [writeIngCtrl_starts hon hwas hr]
  refine ⟨?_, ?_, startIngest_running off, startIngest_craterRuns off, ?_⟩
  · exact only_trans (only_mono (by simp) (by rintro _ rfl; exact .inr (by decide)) written)
      (only_mono (by simp) (fun o ho => ho.imp_right (List.mem_cons_of_mem _)) started)
  · rw [only_regN started (fun h => h.elim (not_eventReg (by decide)) (by decide)), regN_withIngCtrl]
  · rw [startIngest_crt off, rate, now, crt]
    exact startAt_numbers _ _

/-- A refused write leaves EN at 0 and sets CFG_ERR. -/
theorem ingEnable_refused (hon : bitsAt v 0 1 = 1) (hwas : (d.reg Reg.ING_CTRL).toNat.testBit 0 = false)
    (hr : Dev.ingestRefused k d = true) :
    only [.regs] (fun o => o ∈ [Reg.ING_CTRL, Reg.CRT_STATUS]) d (writeIngCtrl k v d)
      ∧ (writeIngCtrl k v d).bit Fld.ING_CTRL_EN = false ∧ (writeIngCtrl k v d).bit Fld.CRT_STATUS_CFG_ERR = true
      ∧ (writeIngCtrl k v d).craterRuns = d.craterRuns := by
  rw [writeIngCtrl_refused hon hwas hr]
  have written := withIngCtrl_only d v
  have cleared := setBit_only (d.withIngCtrl v) Fld.ING_CTRL_EN false
  have flagged := setBit_only ((d.withIngCtrl v).setBit Fld.ING_CTRL_EN false) Fld.CRT_STATUS_CFG_ERR true
  refine ⟨?_, ?_, Dev.bit_setBit_same _ _ _ (by decide) (by decide), ?_⟩
  · exact only_trans (only_mono (by simp) (by rintro _ rfl; decide) written) <|
      only_trans (only_mono (by simp) (by rintro _ rfl; decide) cleared) (only_mono (by simp) (by rintro _ rfl; decide) flagged)
  · exact (only_bit flagged (by decide)).trans (Dev.bit_setBit_same _ _ _ (by decide) (by decide))
  · exact (bit_setBit_other _ (by decide) (by decide)).trans <|
      (craterRuns_of_only cleared (by decide)).trans (craterRuns_of_only written (by decide))

/-- What a write that stops or narrows ingest does after the write itself: the FIFOs drain. -/
theorem markDrain_drainingSet_only (d : Dev) :
    only [.regs, .ing] (fun o => o ∈ [Reg.ING_CTRL, Reg.ING_STATUS]) d d.markDrain.drainingSet :=
  only_trans (only_wider (markDrain_only _ _) (by simp)) (only_mono (by simp) (by rintro _ rfl; decide) (drainingSet_only _))

theorem regN_ingCtrl_drainingSet (d : Dev) : d.markDrain.drainingSet.regN Reg.ING_CTRL = d.regN Reg.ING_CTRL :=
  (only_regN (drainingSet_only _) (by decide)).trans (only_regN (markDrain_only d (fun _ => False)) id)

theorem bit_markDrain (d : Dev) (f : FieldAt) : d.markDrain.bit f = d.bit f := only_bit (markDrain_only d (fun _ => False)) id

/-- A write that clears EN stops ingest, and what the FIFOs hold drains. -/
theorem ingDisable_stops (hon : bitsAt v 0 1 = 0) (hwas : (d.reg Reg.ING_CTRL).toNat.testBit 0 = true) :
    only [.regs, .ing] (fun o => o ∈ [Reg.ING_CTRL, Reg.ING_STATUS]) d (writeIngCtrl k v d)
      ∧ (writeIngCtrl k v d).regN Reg.ING_CTRL = v.toNat % 32 ∧ (writeIngCtrl k v d).bit Fld.ING_STATUS_RUNNING = false
      ∧ (d.fifosEmpty = false → (writeIngCtrl k v d).bit Fld.ING_STATUS_DRAINING = true) := by
  rw [writeIngCtrl_stops hon hwas (by rw [testBit_zero_iff, hon]; rfl)]
  have written := withIngCtrl_only d v
  have stopped := setBit_only (d.withIngCtrl v) Fld.ING_STATUS_RUNNING false
  have en : ((d.withIngCtrl v).setBit Fld.ING_STATUS_RUNNING false).bit Fld.ING_CTRL_EN = false :=
    (only_bit stopped (by decide)).trans (withIngCtrl_en hon)
  refine ⟨?_, ?_, ?_, fun full => ?_⟩
  · exact only_trans (only_mono (by simp) (by rintro _ rfl; decide) written) <|
      only_trans (only_mono (by simp) (by rintro _ rfl; decide) stopped) (markDrain_drainingSet_only _)
  · rw [regN_ingCtrl_drainingSet, only_regN stopped (by decide), regN_withIngCtrl]
  · rw [drainingSet_running, bit_markDrain]
    exact Dev.bit_setBit_same _ _ _ (by decide) (by decide)
  · rw [drainingSet_draining, markDrain_drains en full, Bool.or_true]

/-- A write that clears a protocol bit alone leaves ingest running, and what the FIFOs of the protocol hold drains. -/
theorem ingDisable_narrows (hon : bitsAt v 0 1 = 1) (hwas : (d.reg Reg.ING_CTRL).toNat.testBit 0 = true)
    (off : (List.range 5).any (fun b => (d.reg Reg.ING_CTRL).toNat.testBit b && !v.toNat.testBit b) = true) :
    only [.regs, .ing] (fun o => o ∈ [Reg.ING_CTRL, Reg.ING_STATUS]) d (writeIngCtrl k v d)
      ∧ (writeIngCtrl k v d).regN Reg.ING_CTRL = v.toNat % 32
      ∧ (writeIngCtrl k v d).bit Fld.ING_STATUS_RUNNING = d.bit Fld.ING_STATUS_RUNNING
      ∧ (writeIngCtrl k v d).bit Fld.ING_STATUS_DRAINING = (d.bit Fld.ING_STATUS_DRAINING || (writeIngCtrl k v d).drains) := by
  rw [writeIngCtrl_narrows hon hwas off]
  have written := withIngCtrl_only d v
  refine ⟨?_, ?_, ?_, ?_⟩
  · exact only_trans (only_mono (by simp) (by rintro _ rfl; decide) written) (markDrain_drainingSet_only _)
  · rw [regN_ingCtrl_drainingSet, regN_withIngCtrl]
  · rw [drainingSet_running, bit_markDrain, only_bit written (by decide)]
  · rw [drainingSet_drains, drainingSet_draining, bit_markDrain, only_bit written (by decide)]

end Rows

end Sys2Proof.Machine
end

section
/-! Proofs about the descriptors that ingest takes from a HOST_INGEST ring: their completions and their errors (R85, R86, R455, R461). -/

namespace Sys2Proof.Machine

open Sys2Proof

/-! ## Rings and completions -/

theorem getElem?_modifyAt_same {α : Type} (f : α → α) (l : List α) (n : Nat) : (modifyAt l n f)[n]? = (l[n]?).map f := by
  induction l generalizing n with
  | nil => simp [modifyAt]
  | cons x t ih =>
    cases n with
    | zero => rfl
    | succ n => exact ih n

/-- A descriptor that is fetched leaves the ring's session. -/
theorem session_fetch (d : Dev) (n : Nat) : ((d.fetch n).ring n).session = (d.ring n).session := by
  simp only [Dev.fetch, Dev.setRing, Dev.ring, getElem?_modifyAt_same]
  cases d.hif.rings[n]? <;> rfl

theorem fetch_only (d : Dev) (n : Nat) (p : Nat → Prop) : only [.hif] p d (d.fetch n) := only_of_kept (fetch_kept d n) rfl

theorem sendMsix_out (d : Dev) (v : Nat) : d.out ⊆ (d.sendMsix v).out := by
  unfold Dev.sendMsix
  split
  · exact List.subset_append_left _ _
  · exact List.Subset.refl _

theorem sendMsix_hif (d : Dev) (v : Nat) : (d.sendMsix v).hif = d.hif := by
  unfold Dev.sendMsix
  split <;> rfl

theorem judgeSignal_out (d : Dev) (n : Nat) (b : Bool) : d.out ⊆ (d.judgeSignal n b).out := by
  unfold Dev.judgeSignal
  simp only
  split
  · exact sendMsix_out _ _
  · exact List.Subset.refl _

theorem setRing_waiting (d : Dev) (n : Nat) (r : RingSt) : (d.setRing n r).hif.waiting = d.hif.waiting := rfl

theorem judgeSignal_waiting (d : Dev) (n : Nat) (b : Bool) : (d.judgeSignal n b).hif.waiting = d.hif.waiting := by
  unfold Dev.judgeSignal
  simp only
  split
  · rw [setRing_waiting, Dev.setBit_hif, sendMsix_hif]
  · rfl

theorem countDone_out (d : Dev) (n : Nat) : d.out ⊆ (d.countDone n).out := by
  unfold Dev.countDone
  exact fun _ h => judgeSignal_out _ _ _ h

theorem countDone_waiting (d : Dev) (n : Nat) : (d.countDone n).hif.waiting = d.hif.waiting := by
  unfold Dev.countDone
  simp only
  rw [judgeSignal_waiting, setRing_waiting, Dev.count_hif]

theorem complete_waiting (d : Dev) (n k session status result addr : Nat) (b : Bytes) :
    (d.complete n k session status result addr b).hif.waiting = d.hif.waiting := by
  unfold Dev.complete
  simp only
  split
  · rfl
  · split
    · rfl
    · rw [countDone_waiting, Dev.emit_hif, setRing_waiting]
      split <;> rfl

/-- The completion is among the outputs where the ring runs under the descriptor's enable and host memory can be written. -/
theorem complete_mem_out {x : Dev} {n k session : Nat} (hs : (x.ring n).session = session) (hst : x.fld (Fld.HIF_RINGn_STAT_STATE n) = 1)
    (hh : x.hostReady = true) (status result : Nat) :
    ∃ phase, Out.completion n k status result phase ∈ (x.complete n k session status result 0 []).out := by
  refine ⟨x.phase n k, ?_⟩
  unfold Dev.complete
  simp only [hs, hst, hh]
  rw [if_neg (by simp), if_neg (by simp)]
  refine countDone_out _ _ ?_
  exact List.mem_append_right _ (List.mem_singleton_self _)

theorem state_of_runs {d : Dev} {n kind : Nat} (h : d.runs n kind = true) : d.fld (Fld.HIF_RINGn_STAT_STATE n) = 1 := by
  simp only [Dev.runs, Bool.and_eq_true, decide_eq_true_eq] at h
  exact h.1.1.2

section Complete

variable {d x : Dev} {n kind status result : Nat} {l : List Part} {p : Nat → Prop} (hrun : d.runs n kind = true)

include hrun

/-- What ingest does between the fetch and the completion leaves the ring: the completion is written. -/
theorem completes_of_only (h : only l p (d.fetch n) x) (hl : Part.hif ∉ l) (hstat : ¬ p (Reg.HIF_RINGn_STAT n))
    (hst : ¬ p Reg.HIF_STATUS) (hready : d.hostReady = true) :
    completes d n status result (x.complete n (d.ring n).next (d.ring n).session status result 0 []) := by
  refine complete_mem_out ?_ ?_ ?_ status result
  · rw [Dev.ring, only_hif h hl]
    exact session_fetch d n
  · rw [only_fld h hstat]
    exact state_of_runs hrun
  · rw [Dev.hostReady, only_bit h hst]
    exact hready

/-- The frame of the row: the fetch, ingest and the completion. -/
theorem hostRow_only {m : List Part} {q : Nat → Prop} (h : only l p (d.fetch n) x) (hl : ∀ a ∈ l, a ∈ m) (hp : ∀ o, p o → q o)
    (hm : Part.regs ∈ m ∧ Part.hif ∈ m) (hq : ∀ o, signalReg o → q o) (k session status result : Nat) :
    only m q d (x.complete n k session status result 0 []) := by
  refine only_trans (only_wider (fetch_only d n q) (by simpa using hm.2)) (only_trans (only_mono hl hp h) ?_)
  exact only_mono (by simpa using hm) hq (complete_only x (runs_lt hrun) k session status result 0 [])

end Complete

/-! ## HOST_INGEST_TAKE -/

section Host

variable {d : Dev} {n len : Nat} {f : HostFrame} {resv : Bool}
  (hrow : d.runs n 2 = true ∧ d.hostReady = true ∧ 0 < d.available n ∧ d.ingests Fld.ING_CTRL_HOSTFEED_EN = true)

include hrow

/-- A descriptor that cannot be read. -/
theorem hostIngest_unread (hd : f.descOk = false) : d.hostIngest n len f resv = d.readFails n := by
  obtain ⟨hrun, hready, havail, hen⟩ := hrow
  simp [Dev.hostIngest, hrun, hready, havail, hen, hd]

/-- A length or a reserved field that is not allowed. -/
theorem hostIngest_badLen (hd : f.descOk = true) (hb : resv = true ∨ len = 0 ∨ 8192 < len) :
    d.hostIngest n len f resv = (d.fetch n).complete n (d.ring n).next (d.ring n).session sBadDesc 0 0 [] := by
  obtain ⟨hrun, hready, havail, hen⟩ := hrow
  have bad : (resv || decide (len = 0) || decide (8192 < len)) = true := by simpa [or_assoc] using hb
  simp [Dev.hostIngest, hrun, hready, havail, hen, hd, bad]

section Read

variable (hd : f.descOk = true) (hl : 1 ≤ len ∧ len ≤ 8192)

include hd hl

/-- A frame that cannot be read. -/
theorem hostIngest_noFrame (hf : f.frameOk = false) : d.hostIngest n len f false
    = ((d.fetch n).count Reg.HIF_DMA_ERR).complete n (d.ring n).next (d.ring n).session sBadDesc 0 0 [] := by
  obtain ⟨hrun, hready, havail, hen⟩ := hrow
  have h0 : len ≠ 0 := by omega
  simp [Dev.hostIngest, hrun, hready, havail, hen, hd, h0, Nat.not_lt.mpr hl.2, hf]

/-- A frame that is no data frame. -/
theorem hostIngest_badFrame (hf : f.frameOk = true)
    (hb : f.bytes.length ≠ len ∨ beNat (slice f.bytes 0 1) ≠ 0xAA ∨ c37Type f.bytes ≠ 0) :
    d.hostIngest n len f false = (d.fetch n).complete n (d.ring n).next (d.ring n).session sBadDesc 0 0 [] := by
  obtain ⟨hrun, hready, havail, hen⟩ := hrow
  have h0 : len ≠ 0 := by omega
  have bad : (decide (f.bytes.length ≠ len) || decide (beNat (slice f.bytes 0 1) ≠ 0xAA) || decide (c37Type f.bytes ≠ 0)) = true := by
    simpa [or_assoc] using hb
  simp only [Dev.hostIngest, hrun, hready, havail, hen, hd, hf, bad]
  simp [h0, Nat.not_lt.mpr hl.2]

/-- A data frame goes to ingest, and its completion names the stream that it matches. -/
theorem hostIngest_takes (hf : f.frameOk = true) (hlen : f.bytes.length = len) (hsync : beNat (slice f.bytes 0 1) = 0xAA)
    (htype : c37Type f.bytes = 0) :
    d.hostIngest n len f false = (((d.fetch n).c37Data { host := true, port := 7, ecc := f.ecc } (d.fetch n).g16 f.bytes).complete n
      (d.ring n).next (d.ring n).session sOk ((d.fetch n).matchedStream (d.fetch n).g16 f.bytes) 0 []) := by
  obtain ⟨hrun, hready, havail, hen⟩ := hrow
  have h0 : len ≠ 0 := by omega
  have small : c37Oversize f.bytes = false := by simp [c37Oversize, hlen, Nat.not_lt.mpr hl.2]
  simp [Dev.hostIngest, hrun, hready, havail, hen, hd, h0, Nat.not_lt.mpr hl.2, hf, hlen, hsync, htype, Dev.ingestC37, small]

end Read

end Host

end Sys2Proof.Machine
end

section
/-! Proofs about C37.118 data frames from the host: the blocks that the entries name, and the frame that none names (R49, R56 to R58). -/

namespace Sys2Proof.Machine

open Sys2Proof

/-! ## The walk over a frame's blocks -/

theorem walkBlocks_nil (fuel k : Nat) (rest : Bytes) : (walkBlocks [] fuel k rest).1 = [] ∧ (walkBlocks [] fuel k rest).2 ≠ 2 := by
  cases fuel with
  | zero => refine ⟨rfl, ?_⟩; simp only [walkBlocks]; split <;> decide
  | succ fuel =>
    simp only [walkBlocks]
    split <;> simp

/-- Bytes that the string holds are read as they stand. -/
theorem slice_eq_take {b : Bytes} {off n : Nat} (h : off + n ≤ b.length) : slice b off n = (b.drop off).take n := by
  have full : ((b.drop off).take n).length = n := by simp; omega
  simp [slice, full, zeros]

theorem slice_length (b : Bytes) (off n : Nat) : (slice b off n).length = n := by
  simp [slice, zeros]

/-- One entry of block 0 takes a rest of just its length. -/
theorem walkBlocks_single {i : Nat} {ent : StreamEntry} {rest : Bytes} (hp : ent.pmuBlk = 0) (hl : rest.length = ent.frameLen)
    (h0 : 0 < ent.frameLen) (fuel : Nat) : walkBlocks [(i, ent)] (fuel + 1) 0 rest = ([(i, ent, rest)], 0) := by
  have some_rest : rest.isEmpty = false := by
    cases rest with
    | nil => simp at hl; omega
    | cons => rfl
  have done : walkBlocks [(i, ent)] fuel 1 [] = ([], 0) := by
    cases fuel <;> rfl
  have all : rest.take ent.frameLen = rest ∧ rest.drop ent.frameLen = [] := by simp [← hl]
  simp only [walkBlocks, some_rest, List.find?_cons, hp, decide_true, hl, all.1, all.2, done]
  simp

/-! ## A data frame -/

section Data

variable {d : Dev} {p : C37Path} {rx : Nat} {b : Bytes}
  (chk : c37ChkOk b = true) (version : d.c37Version b = true) (hsize : beNat (slice b 2 2) = b.length) (h16 : 16 ≤ b.length)

/-- Version 2 is always accepted. -/
theorem c37Version_two (h : beNat (slice b 1 1) % 16 = 2) : d.c37Version b = true := by simp [Dev.c37Version, h]

/-- The entries that name a frame of the path. -/
def Dev.namedIn (d : Dev) (p : C37Path) (rx : Nat) (b : Bytes) : List (Nat × StreamEntry) :=
  d.namedC37 p (beNat (slice b 4 2)) (beNat (slice b 6 4)) (beNat (slice b 10 4) % 2 ^ 24) rx

include chk version hsize h16

/-- A frame of the host that no entry names is counted. -/
theorem c37Data_unnamed (hn : d.namedIn p rx b = []) (hh : p.host = true) : d.c37Data p rx b = d.count64 Reg.ING_UNMATCHED_LO := by
  obtain ⟨none_walked, no_overrun⟩ := walkBlocks_nil 64 0 ((b.drop 14).take (b.length - 16))
  have h14 : ¬ b.length < 14 := by omega
  unfold Dev.namedIn at hn
  simp only [Dev.c37Data, hn, none_walked, no_overrun]
  simp [chk, version, hsize, Nat.not_lt.mpr h16, h14, hh, Dev.unmatched]

/-- A frame of one block that one entry names: its block is taken. -/
theorem c37Data_single {i : Nat} {ent : StreamEntry} (hn : d.namedIn p rx b = [(i, ent)]) (hp : ent.pmuBlk = 0) (h0 : 0 < ent.frameLen)
    (hl : b.length = 16 + ent.frameLen) : d.c37Data p rx b
      = d.takeBlock p (beNat (slice b 6 4)) (beNat (slice b 10 4)) rx (p.ecc.getD 0 0) (i, ent, slice b 14 ent.frameLen) := by
  have h14 : ¬ b.length < 14 := by omega
  have rest : (b.drop 14).take (b.length - 16) = slice b 14 ent.frameLen := by
    rw [slice_eq_take (by omega)]; simp [hl]
  have walk := walkBlocks_single (i := i) hp (rest := slice b 14 ent.frameLen) (slice_length _ _ _) h0 63
  unfold Dev.namedIn at hn
  simp only [Dev.c37Data, hn, rest, walk]
  simp [chk, version, hsize, Nat.not_lt.mpr h16, h14]

end Data

/-! ## The entry that names a host's frame -/

section Named

variable {d : Dev} {n : Nat} {p : C37Path} {rx : Nat} {b : Bytes}

theorem namedIn_none (h : d.ing.streams = []) : d.namedIn p rx b = [] := by simp [Dev.namedIn, Dev.namedC37, h]

/-- The one stream's entry is of the host's type and of the frame's IDCODE. -/
theorem namedIn_single {i : Nat} {ent : StreamEntry} {st : StreamSt} (h : d.ing.streams = [(i, st)])
    (he : st.entry = { cur := some ent, pend := none }) (hid : beNat (slice b 4 2) = ent.srcId) (ht : ent.type = 1) (hh : p.host = true) :
    d.namedIn p rx b = [(i, ent)] := by
  simp [Dev.namedIn, Dev.namedC37, h, he, Dev.entryForSoc, Dev.namesC37, hid, ht, hh, Option.filter]

theorem matchedStream_none (h : d.ing.streams = []) : d.matchedStream rx b = 0xFFFFFFFF := by
  have hn : d.namedIn { host := true, port := 7 } rx b = [] := namedIn_none h
  unfold Dev.namedIn at hn
  simp only [Dev.matchedStream, hn]
  rfl

theorem matchedStream_single {i : Nat} {ent : StreamEntry} {st : StreamSt} (h : d.ing.streams = [(i, st)])
    (he : st.entry = { cur := some ent, pend := none }) (hid : beNat (slice b 4 2) = ent.srcId) (ht : ent.type = 1) (hp : ent.pmuBlk = 0) :
    d.matchedStream rx b = i := by
  have hn : d.namedIn { host := true, port := 7 } rx b = [(i, ent)] := namedIn_single h he hid ht rfl
  unfold Dev.namedIn at hn
  simp only [Dev.matchedStream, hn]
  simp [hp]

end Named

/-! ## HOST_INGEST_TAKE: the descriptors that fail, and the frame that no stream names -/

/-- Registers above the signals' are none of theirs, and are not HIF_STATUS. -/
theorem apart_of_beyond {o : Nat} (h : 0x031004 < o) : o ≠ Reg.HIF_STATUS ∧ ¬ signalReg o :=
  ⟨by rintro rfl; exact absurd h (by decide), not_signalReg (.inr h)⟩

section Rows

variable {d : Dev} {n len : Nat} {f : HostFrame} {resv : Bool}
  (hrow : d.runs n 2 = true ∧ d.hostReady = true ∧ 0 < d.available n ∧ d.ingests Fld.ING_CTRL_HOSTFEED_EN = true)

include hrow

/-- A bad descriptor or frame completes with S_BAD_DESC, and moves nothing else. -/
theorem hostIngest_bad (hok : f.descOk = true ∧ f.frameOk = true)
    (hb : resv = true ∨ len = 0 ∨ 8192 < len ∨ f.bytes.length ≠ len ∨ beNat (slice f.bytes 0 1) ≠ 0xAA ∨ c37Type f.bytes ≠ 0) :
    d.hostIngest n len f resv = (d.fetch n).complete n (d.ring n).next (d.ring n).session sBadDesc 0 0 [] := by
  by_cases hl : resv = true ∨ len = 0 ∨ 8192 < len
  · exact hostIngest_badLen hrow hok.1 hl
  · simp only [not_or, Bool.not_eq_true] at hl
    obtain ⟨rfl, h0, hmax⟩ := hl
    refine hostIngest_badFrame hrow hok.1 (by omega) hok.2 ?_
    simpa [h0, hmax] using hb

/-- What ingest does to a frame, between the fetch and the completion, and beside the registers of both. -/
theorem ingested_completes {l m : List Part} {p q : Nat → Prop} {x : Dev} (h : only l p (d.fetch n) x)
    (hp : ∀ o, p o → o ≠ Reg.HIF_STATUS ∧ ¬ signalReg o) (hl : Part.hif ∉ l) (hm : ∀ a ∈ [Part.regs, Part.hif] ++ l, a ∈ m)
    (hq : ∀ o, p o ∨ signalReg o → q o) (status result : Nat) :
    only m q d (x.complete n (d.ring n).next (d.ring n).session status result 0 [])
      ∧ completes d n status result (x.complete n (d.ring n).next (d.ring n).session status result 0 []) := by
  obtain ⟨hrun, hready, -, -⟩ := hrow
  refine ⟨hostRow_only hrun h (fun a ha => hm a (List.mem_append_right _ ha)) (fun o ho => hq o (.inl ho)) ?_ (fun o ho => hq o (.inr ho))
    _ _ _ _, completes_of_only hrun h hl (fun hs => ?_) (fun hs => ?_) hready⟩
  · exact ⟨hm _ (by simp), hm _ (by simp)⟩
  · exact (hp _ hs).2 (signalReg_stat (runs_lt hrun))
  · exact (hp _ hs).1 rfl

/-- What the completion of a host's descriptor does not move. -/
theorem ended_only (x : Dev) (k session status result : Nat) :
    only [.regs, .hif] signalReg x (x.complete n k session status result 0 []) := by
  obtain ⟨hrun, -, -, -⟩ := hrow
  exact complete_only x (runs_lt hrun) _ _ _ _ _ _

theorem hostIngest_bad_effect (hok : f.descOk = true ∧ f.frameOk = true)
    (hb : resv = true ∨ len = 0 ∨ 8192 < len ∨ f.bytes.length ≠ len ∨ beNat (slice f.bytes 0 1) ≠ 0xAA ∨ c37Type f.bytes ≠ 0) :
    only [.regs, .hif] signalReg d (d.hostIngest n len f resv) ∧ completes d n sBadDesc 0 (d.hostIngest n len f resv)
      ∧ (d.hostIngest n len f resv).hif.waiting = d.hif.waiting := by
  rw [hostIngest_bad hrow hok hb]
  obtain ⟨frame, done⟩ := ingested_completes hrow (only_refl [] (fun _ => False) (d.fetch n)) (by simp) (by simp) (m := [.regs, .hif]) (by simp)
    (q := signalReg) (by simp) sBadDesc 0
  exact ⟨frame, done, complete_waiting _ _ _ _ _ _ _ _⟩

theorem hostIngest_noFrame_effect (hok : f.descOk = true ∧ f.frameOk = false) (hlen : 1 ≤ len ∧ len ≤ 8192) :
    only [.regs, .hif] (fun o => signalReg o ∨ o ∈ [Reg.HIF_DMA_ERR]) d (d.hostIngest n len f false)
      ∧ completes d n sBadDesc 0 (d.hostIngest n len f false)
      ∧ (d.hostIngest n len f false).regN Reg.HIF_DMA_ERR = (d.regN Reg.HIF_DMA_ERR + 1) % 2 ^ 32 := by
  rw [hostIngest_noFrame hrow hok.1 hlen hok.2]
  obtain ⟨frame, done⟩ := ingested_completes hrow (count_only (d.fetch n) Reg.HIF_DMA_ERR 1)
    (by rintro _ rfl; exact ⟨by decide, not_signalReg (by decide)⟩) (by simp) (m := [.regs, .hif]) (by simp)
    (q := fun o => signalReg o ∨ o ∈ [Reg.HIF_DMA_ERR]) (by rintro o (rfl | h) <;> simp [*]) sBadDesc 0
  refine ⟨frame, done, ?_⟩
  rw [only_regN (ended_only hrow _ _ _ _ _) (not_signalReg (by decide)), regN_count, if_pos rfl]
  rfl

end Rows

/-- A data frame of the host's that is whole and of version 2. -/
def hostData (frame : Bytes) (len : Nat) : Prop :=
  (16 ≤ len ∧ len ≤ 8192 ∧ frame.length = len ∧ beNat (slice frame 0 1) = 0xAA ∧ c37Type frame = 0 ∧ beNat (slice frame 1 1) % 16 = 2)
    ∧ c37ChkOk frame = true ∧ beNat (slice frame 2 2) = len

section Frames

variable {d : Dev} {n len : Nat} {frame : Bytes} {ecc : List Nat}
  (hrow : d.runs n 2 = true ∧ d.hostReady = true ∧ 0 < d.available n ∧ d.ingests Fld.ING_CTRL_HOSTFEED_EN = true)
  (hdata : hostData frame len)

include hrow hdata

/-- A frame that no stream names. -/
theorem hostIngest_unnamed (hs : d.ing.streams = []) : d.hostIngest n len { bytes := frame, ecc := ecc } false
    = ((d.fetch n).count64 Reg.ING_UNMATCHED_LO).complete n (d.ring n).next (d.ring n).session sOk 0xFFFFFFFF 0 [] := by
  obtain ⟨⟨h16, hmax, hlen, hsync, htype, hver⟩, chk, hsize⟩ := hdata
  have none_there : (d.fetch n).ing.streams = [] := hs
  rw [hostIngest_takes hrow rfl (by omega) rfl hlen hsync htype, matchedStream_none none_there,
    c37Data_unnamed chk (c37Version_two hver) (by rw [hsize, hlen]) (by rw [hlen]; exact h16) (namedIn_none none_there) rfl]

theorem hostIngest_unnamed_effect (hs : d.ing.streams = []) :
    only [.regs, .hif] (fun o => signalReg o ∨ o ∈ [Reg.ING_UNMATCHED_LO, Reg.ING_UNMATCHED_HI]) d
        (d.hostIngest n len { bytes := frame, ecc := ecc } false)
      ∧ completes d n sOk 0xFFFFFFFF (d.hostIngest n len { bytes := frame, ecc := ecc } false)
      ∧ (d.hostIngest n len { bytes := frame, ecc := ecc } false).reg64 Reg.ING_UNMATCHED_LO
        = (d.reg64 Reg.ING_UNMATCHED_LO + 1) % 2 ^ 64 := by
  rw [hostIngest_unnamed hrow hdata hs]
  obtain ⟨frame, done⟩ := ingested_completes hrow (count64_only (d.fetch n) Reg.ING_UNMATCHED_LO 1)
    (by rintro _ (rfl | rfl) <;> exact apart_of_beyond (by decide)) (by simp) (m := [.regs, .hif]) (by simp)
    (q := fun o => signalReg o ∨ o ∈ [Reg.ING_UNMATCHED_LO, Reg.ING_UNMATCHED_HI])
    (by rintro o ((rfl | rfl) | h); exacts [.inr (by decide), .inr (by decide), .inl h]) sOk 0xFFFFFFFF
  refine ⟨frame, done, ?_⟩
  rw [only_reg64 (ended_only hrow _ _ _ _ _) (not_signalReg (by decide)) (not_signalReg (by decide)), reg64_count64_same]
  rfl

end Frames

end Sys2Proof.Machine
end

section
/-! Proofs about a stream's FIFO and its conversion items: an item that is committed, and one that ECC rewinds (R66, R76, R77, R79). -/

namespace Sys2Proof.Machine

open Sys2Proof

/-! ## The scheduler's side of an item -/

theorem modSch_only (d : Dev) (f : SchSt → SchSt) (p : Nat → Prop) : only [.sch] p d (d.modSch f) :=
  only_of_kept (by simp [keptBut, Dev.modSch]) rfl

theorem refreshSch_only (d : Dev) : only [.regs] (fun o => o = Reg.SCH_STATUS) d d.refreshSch :=
  only_trans (setFld_only _ _ _) (setFld_only _ _ _)

theorem drainTrace_only (d : Dev) (p : Nat → Prop) : only [.sch] p d d.drainTrace := modSch_only _ _ _

theorem keepTrace_only (d : Dev) (b : Bytes) : only [.regs, .sch] (fun o => o = Reg.SCH_TRACE_LOST) d (d.keepTrace b) := by
  unfold Dev.keepTrace
  simp only
  refine only_trans ?_ (only_trans (only_wider (modSch_only _ _ _) (by simp)) (only_wider (count_only _ _ _) (by simp)))
  split
  · exact only_wider (drainTrace_only _ _) (by simp)
  · exact only_refl _ _ _

theorem traceEv_only (d : Dev) (kind engine : Nat) (i : WorkItem) (bank ns : Nat) :
    only [.regs, .sch] (fun o => o = Reg.SCH_TRACE_LOST) d (d.traceEv kind engine i bank ns) := by
  unfold Dev.traceEv
  simp only
  split
  · split
    · exact only_wider (modSch_only _ _ _) (by simp)
    · exact only_trans (only_wider (modSch_only _ _ _) (by simp)) (keepTrace_only _ _)
  · exact only_refl _ _ _

/-- A conversion item that is offered moves the scheduler alone. -/
theorem raiseConv_only (d : Dev) (i prio : Nat) : only [.regs, .sch] (fun o => o / 0x1000 ∈ [0x0d0]) d (d.raiseConv i prio) := by
  unfold Dev.raiseConv Dev.offer
  split
  · exact only_trans (only_wider (modSch_only _ _ _) (by simp)) (only_mono (by simp) (by rintro _ rfl; decide) (refreshSch_only _))
  · exact only_trans (only_mono (by simp) (by rintro _ rfl; decide) (count_only _ _ _))
      (only_trans (only_mono (by simp) (by rintro _ rfl; decide) (traceEv_only _ _ _ _ _ _)) (only_wider (modSch_only _ _ _) (by simp)))

/-! ## Streams -/

theorem stream_single {d : Dev} {i : Nat} {st : StreamSt} (h : d.ing.streams = [(i, st)]) : d.stream i = st := by
  simp [Dev.stream, h, Tbl.getD, Tbl.find]

theorem stream_of_ing {d t : Dev} (h : t.ing = d.ing) (i : Nat) : t.stream i = d.stream i := by rw [Dev.stream, h, Dev.stream]

theorem stream_setStream_same (d : Dev) (i : Nat) (x : StreamSt) : (d.setStream i x).stream i = x := by
  simp [Dev.stream, Dev.setStream, Dev.modIng, Tbl.getD]

theorem setStream_only (d : Dev) (i : Nat) (x : StreamSt) (p : Nat → Prop) : only [.ing] p d (d.setStream i x) :=
  only_of_kept (by simp [keptBut, Dev.setStream]) rfl

theorem modStream_only (d : Dev) (i : Nat) (f : StreamSt → StreamSt) (p : Nat → Prop) : only [.ing] p d (d.modStream i f) :=
  setStream_only _ _ _ _

theorem useCells_only (d : Dev) (a b : Nat) : only [.regs] (fun o => o = Reg.ING_STATUS) d (d.useCells a b) := setFld_only _ _ _

/-! ## The item of a frame -/

theorem slice_slice {b : Bytes} {off n k : Nat} (hk : k ≤ n) (h : off + n ≤ b.length) : slice (slice b off n) 0 k = slice b off k := by
  rw [slice_eq_take (b := slice b off n) (by rw [slice_length]; omega), slice_eq_take h, slice_eq_take (by omega)]
  simp [List.take_take, hk]

/-- Where the cells fit, nothing is overwritten. -/
theorem makeRoom_fits {cap n : Nat} {q : List FifoItem} (h : fifoCells q + n ≤ cap) : makeRoom cap n q = (q, 0) := by
  cases q with
  | nil => rfl
  | cons x t => exact if_pos h

section Push

variable {d : Dev} {i : Nat} {ent : StreamEntry} {it : FifoItem}

/-- The stream once the item is in its FIFO. -/
def StreamSt.push (st : StreamSt) (it : FifoItem) : StreamSt := { st with fifo := st.fifo ++ [it], frames := st.frames + 1 }

/-- The device with the item in the stream's FIFO, before its conversion is raised. -/
def Dev.pushed (d : Dev) (i : Nat) (it : FifoItem) : Dev :=
  ((((d.setStream i ((d.stream i).push it)).useCells it.cells 0).count64 Reg.ING_FRAMES_LO).count64 Reg.ING_LOST_LO 0).modIng
    (fun g => { g with load := (g.load.keep (fun t _ => decide (d.up < t + 1200000000))).update d.up 0 (· + 1) })

theorem pushItem_fits (h : fifoCells (d.stream i).fifo + it.cells ≤ ent.fifoCells) :
    d.pushItem i ent it = (d.pushed i it).raiseConv i ent.prio := by
  simp only [Dev.pushItem, makeRoom_fits h, Nat.sub_self, Dev.dropConv]
  rfl

theorem pushed_only (d : Dev) (i : Nat) (it : FifoItem) : only [.regs, .ing]
    (fun o => o ∈ [Reg.ING_STATUS, Reg.ING_FRAMES_LO, Reg.ING_FRAMES_HI, Reg.ING_LOST_LO, Reg.ING_LOST_HI]) d (d.pushed i it) := by
  refine only_trans (only_wider (setStream_only d i _ _) (by simp)) <| only_trans (only_mono (by simp) ?_ (useCells_only _ _ _)) <|
    only_trans (only_mono (by simp) ?_ (count64_only _ _ _)) <| only_trans (only_mono (by simp) ?_ (count64_only _ _ _))
      (only_wider (modIng_only _ _ _) (by simp))
  · rintro _ rfl; decide
  · rintro _ (rfl | rfl) <;> decide
  · rintro _ (rfl | rfl) <;> decide

theorem stream_pushed (d : Dev) (i : Nat) (it : FifoItem) : (d.pushed i it).stream i = (d.stream i).push it := by
  rw [Dev.pushed, stream_of_ing rfl]
  exact stream_setStream_same d i _

theorem frames_pushed (d : Dev) (i : Nat) (it : FifoItem) :
    (d.pushed i it).reg64 Reg.ING_FRAMES_LO = (d.reg64 Reg.ING_FRAMES_LO + 1) % 2 ^ 64 := by
  have before : ((d.setStream i ((d.stream i).push it)).useCells it.cells 0).reg64 Reg.ING_FRAMES_LO = d.reg64 Reg.ING_FRAMES_LO :=
    only_reg64 (useCells_only (d.setStream i ((d.stream i).push it)) _ _) (by decide) (by decide)
  have after (x : Dev) : (x.count64 Reg.ING_LOST_LO 0).reg64 Reg.ING_FRAMES_LO = x.reg64 Reg.ING_FRAMES_LO :=
    only_reg64 (count64_only x _ _) (by decide) (by decide)
  rw [Dev.pushed, only_reg64 (modIng_only _ _ (fun _ => False)) id id, after, reg64_count64_same, before]

end Push

/-! ## A block of a good frame -/

section Block

variable {d : Dev} {p : C37Path} {soc fracsec rx ecc i : Nat} {ent : StreamEntry} {b : Bytes}

/-- The FIFO item of a block from the host. -/
def Dev.hostItem (d : Dev) (soc fracsec rx : Nat) (ent : StreamEntry) (b : Bytes) : FifoItem :=
  let stat := beNat (slice b 0 2)
  { rx := rx, port := 7, cells := ent.itemCells, tag := d.tagOfSoc soc (fracsec % 2 ^ 24) ent.timeBase rx,
    suspect := d.c37Suspect stat fracsec, invalid := decide (stat / 2 ^ 14 % 2 = 1), test := decide (stat / 2 ^ 14 = 2), body := .block b }

/-- A block in time, that is no test, reaches the end of its item. -/
theorem takeBlock_host (hh : p.host = true) (hfrac : fracsec % 2 ^ 24 < ent.timeBase)
    (htime : d.tagOfSoc soc (fracsec % 2 ^ 24) ent.timeBase rx ≤ rx + d.futureLim) (htest : beNat (slice b 0 2) / 2 ^ 14 ≠ 2) :
    d.takeBlock p soc fracsec rx ecc (i, ent, b) = d.endItem ecc i ent (d.hostItem soc fracsec rx ent b) := by
  have base : max 1 ent.timeBase = ent.timeBase := by omega
  simp only [Dev.takeBlock, Dev.hostItem, base, hh]
  rw [if_neg (by simp), if_neg (by omega), if_neg (by omega)]
  rfl

end Block

end Sys2Proof.Machine
end

section
/-! Proofs about the cells of a FIFO item with a double-bit error, and about the frames of a host that one stream names (R76, R79, R519). -/

namespace Sys2Proof.Machine

open Sys2Proof

/-! ## The first error of the monitor's queue -/

theorem refreshSaf_only (d : Dev) : only [.regs] (fun o => o ∈ [Reg.SAF_STATUS, Reg.FUM_STATUS]) d d.refreshSaf := by
  have fld (x : Dev) (f : FieldAt) (v : Nat) (h : f.off ∈ [Reg.SAF_STATUS, Reg.FUM_STATUS]) :
      only [.regs] (fun o => o ∈ [Reg.SAF_STATUS, Reg.FUM_STATUS]) x (x.setFld f v) :=
    only_mono (by simp) (by rintro _ rfl; exact h) (setFld_only x f v)
  exact only_trans (fld _ _ _ (by decide)) <| only_trans (fld _ _ _ (by decide)) <| only_trans (fld _ _ _ (by decide)) <|
    only_trans (fld _ _ _ (by decide)) (fld _ _ _ (by decide))

/-- An uncorrectable memory error that meets an empty queue is its one entry, at level 1. -/
theorem raise_memUncorr {d : Dev} (h : d.saf.queue = []) (index diag : Nat) : ∃ saf : SafSt,
    d.raise eMemUncorr index diag = ({ d.count Reg.SAF_ERRORS with saf := saf }).refreshSaf
      ∧ saf.queue.map (fun e => (e.cls, e.index)) = [(eMemUncorr, index)] := by
  have counted : (d.count Reg.SAF_ERRORS).saf.queue = [] := h
  unfold Dev.raise Dev.raiseAt
  simp only [counted, List.length_nil, List.foldl_nil]
  rw [if_neg (by decide)]
  exact ⟨_, rfl, rfl⟩

theorem raise_memUncorr_effect {d : Dev} (h : d.saf.queue = []) (index diag : Nat) :
    only [.regs, .saf] (fun o => o ∈ [Reg.SAF_ERRORS, Reg.SAF_STATUS, Reg.FUM_STATUS]) d (d.raise eMemUncorr index diag)
      ∧ (d.raise eMemUncorr index diag).saf.queue.map (fun e => (e.cls, e.index)) = [(eMemUncorr, index)] := by
  obtain ⟨saf, eq, queue⟩ := raise_memUncorr h index diag
  rw [eq]
  constructor
  · refine only_trans (only_mono (by simp) ?_ (count_only d Reg.SAF_ERRORS 1)) <|
      only_trans (b := { d.count Reg.SAF_ERRORS with saf := saf }) ?_ (only_mono (by simp) ?_ (refreshSaf_only _))
    · rintro _ rfl; decide
    · exact only_of_kept (by simp [keptBut]) rfl
    · exact fun _ ho => List.mem_cons_of_mem _ ho
  · rw [only_saf (refreshSaf_only _) (by simp)]
    exact queue

/-! ## Cells with a double-bit error -/

/-- The registers of a double-bit error in an item's cells. -/
def eccReg (o : Nat) : Prop := o ∈ [Reg.ING_ECC_UNCORR, Reg.SAF_ERRORS, Reg.SAF_STATUS, Reg.FUM_STATUS]

theorem ingestEcc_uncorr {d : Dev} (h : d.saf.queue = []) : only [.regs, .saf] eccReg d (d.ingestEcc 2)
    ∧ (d.ingestEcc 2).saf.queue.map (fun e => (e.cls, e.index)) = [(eMemUncorr, 1)]
    ∧ (d.ingestEcc 2).regN Reg.ING_ECC_UNCORR = (d.regN Reg.ING_ECC_UNCORR + 1) % 2 ^ 32 := by
  have counted : (d.count Reg.ING_ECC_UNCORR).saf.queue = [] := h
  obtain ⟨frame, queue⟩ := raise_memUncorr_effect counted 1 3
  have eq : d.ingestEcc 2 = (d.count Reg.ING_ECC_UNCORR).raise eMemUncorr 1 3 := rfl
  rw [eq]
  refine ⟨only_trans (only_mono (by simp) ?_ (count_only _ _ _)) (only_mono (by simp) ?_ frame), queue, ?_⟩
  · rintro _ rfl; unfold eccReg; decide
  · exact fun _ ho => List.mem_cons_of_mem _ ho
  · rw [only_regN frame (by decide), regN_count, if_pos rfl]

/-! ## HOST_INGEST_TAKE of a frame that one stream names -/

section Single

variable {d : Dev} {n i : Nat} {frame : Bytes} {ent : StreamEntry} {st : StreamSt} {ecc : List Nat}
  (hrow : d.runs n 2 = true ∧ d.hostReady = true ∧ 0 < d.available n ∧ d.ingests Fld.ING_CTRL_HOSTFEED_EN = true)
  (hdata : hostData frame (16 + ent.frameLen)) (hlen : 2 ≤ ent.frameLen) (hid : beNat (slice frame 4 2) = ent.srcId)
  (hst : d.ing.streams = [(i, st)] ∧ st.entry = { cur := some ent, pend := none } ∧ ent.type = 1 ∧ ent.pmuBlk = 0)
  (htime : beNat (slice frame 10 4) % 2 ^ 24 < ent.timeBase
    ∧ d.tagOfSoc (beNat (slice frame 6 4)) (beNat (slice frame 10 4) % 2 ^ 24) ent.timeBase d.g16 ≤ d.g16 + d.futureLim)
  (htest : beNat (slice frame 14 2) / 2 ^ 14 ≠ 2)

/-- The item that the frame's one block makes. -/
def Dev.frameItem (d : Dev) (ent : StreamEntry) (frame : Bytes) : FifoItem :=
  d.hostItem (beNat (slice frame 6 4)) (beNat (slice frame 10 4)) d.g16 ent (slice frame 14 ent.frameLen)

include hrow hdata hlen hid hst htime htest

theorem hostIngest_single : d.hostIngest n (16 + ent.frameLen) { bytes := frame, ecc := ecc } false
    = ((d.fetch n).endItem (ecc.getD 0 0) i ent ((d.fetch n).frameItem ent frame)).complete n (d.ring n).next (d.ring n).session sOk i 0 [] := by
  obtain ⟨⟨h16, hmax, hl, hsync, htype, hver⟩, chk, hsize⟩ := hdata
  obtain ⟨hs, he, ht, hp⟩ := hst
  have fetched : (d.fetch n).ing.streams = [(i, st)] := hs
  rw [hostIngest_takes hrow rfl (by omega) rfl hl hsync htype, matchedStream_single fetched he hid ht hp,
    c37Data_single chk (c37Version_two hver) (by rw [hsize, hl]) (by rw [hl]; exact h16) (namedIn_single fetched he hid ht rfl) hp
      (by omega) hl,
    takeBlock_host (d := d.fetch n) (rx := (d.fetch n).g16) rfl htime.1 htime.2 (by rw [slice_slice hlen (by omega)]; exact htest)]
  rfl

/-- A double-bit error rewinds the item: none is committed. -/
theorem hostIngest_single_ecc (hq : d.saf.queue = []) :
    only [.regs, .hif, .saf] (fun o => signalReg o ∨ o ∈ [Reg.ING_ECC_UNCORR, Reg.SAF_ERRORS, Reg.SAF_STATUS, Reg.FUM_STATUS]) d
        (d.hostIngest n (16 + ent.frameLen) { bytes := frame, ecc := [2] } false)
      ∧ completes d n sOk i (d.hostIngest n (16 + ent.frameLen) { bytes := frame, ecc := [2] } false)
      ∧ (d.hostIngest n (16 + ent.frameLen) { bytes := frame, ecc := [2] } false).saf.queue.map (fun e => (e.cls, e.index))
        = [(eMemUncorr, 1)]
      ∧ (d.hostIngest n (16 + ent.frameLen) { bytes := frame, ecc := [2] } false).regN Reg.ING_ECC_UNCORR
        = (d.regN Reg.ING_ECC_UNCORR + 1) % 2 ^ 32 := by
  rw [hostIngest_single hrow hdata hlen hid hst htime htest]
  obtain ⟨moved, queue, counted⟩ := ingestEcc_uncorr (d := d.fetch n) hq
  have eq (it : FifoItem) : (d.fetch n).endItem ([2].getD 0 0) i ent it = (d.fetch n).ingestEcc 2 := rfl
  rw [eq]
  obtain ⟨frame, done⟩ := ingested_completes hrow moved
    (fun o ho => apart_of_beyond ((by decide : ∀ o ∈ [Reg.ING_ECC_UNCORR, Reg.SAF_ERRORS, Reg.SAF_STATUS, Reg.FUM_STATUS], 0x031004 < o) o ho))
    (by simp) (m := [.regs, .hif, .saf]) (by simp) (fun o => Or.symm) sOk i
  refine ⟨frame, done, ?_, ?_⟩
  · rw [only_saf (ended_only hrow _ _ _ _ _) (by simp)]
    exact queue
  · rw [only_regN (ended_only hrow _ _ _ _ _) (not_signalReg (by decide)), counted]
    rfl

/-- The registers of an item that is committed to a FIFO, and of its conversion. -/
def itemReg (o : Nat) : Prop :=
  o ∈ [Reg.ING_STATUS, Reg.ING_FRAMES_LO, Reg.ING_FRAMES_HI, Reg.ING_LOST_LO, Reg.ING_LOST_HI] ∨ o / 0x1000 ∈ [0x0d0]

omit hrow hdata hlen hid hst htime htest in
theorem itemReg_beyond {o : Nat} (h : itemReg o) : 0x031004 < o := by
  rcases h with h | h
  · exact (by decide : ∀ o ∈ [Reg.ING_STATUS, Reg.ING_FRAMES_LO, Reg.ING_FRAMES_HI, Reg.ING_LOST_LO, Reg.ING_LOST_HI], 0x031004 < o) o h
  · simp only [List.mem_singleton] at h
    omega

theorem hostIngest_single_good (hfit : fifoCells st.fifo + ent.itemCells ≤ ent.fifoCells) :
    only [.regs, .hif, .ing, .sch] (fun o => signalReg o ∨ itemReg o) d
        (d.hostIngest n (16 + ent.frameLen) { bytes := frame } false)
      ∧ completes d n sOk i (d.hostIngest n (16 + ent.frameLen) { bytes := frame } false)
      ∧ (d.hostIngest n (16 + ent.frameLen) { bytes := frame } false).stream i = st.push ((d.fetch n).frameItem ent frame)
      ∧ (d.hostIngest n (16 + ent.frameLen) { bytes := frame } false).reg64 Reg.ING_FRAMES_LO
        = (d.reg64 Reg.ING_FRAMES_LO + 1) % 2 ^ 64 := by
  rw [hostIngest_single hrow hdata hlen hid hst htime htest]
  have was : (d.fetch n).stream i = st := stream_single (by exact hst.1)
  have eq (it : FifoItem) : (d.fetch n).endItem (([] : List Nat).getD 0 0) i ent it = (d.fetch n).pushItem i ent it := rfl
  rw [eq, pushItem_fits (by rw [was]; exact hfit)]
  have raised := raiseConv_only ((d.fetch n).pushed i ((d.fetch n).frameItem ent frame)) i ent.prio
  have moved : only [.regs, .ing, .sch] itemReg (d.fetch n)
      (((d.fetch n).pushed i ((d.fetch n).frameItem ent frame)).raiseConv i ent.prio) :=
    only_trans (only_mono (by simp) (fun _ => .inl) (pushed_only _ _ _)) (only_mono (by simp) (fun _ => .inr) raised)
  obtain ⟨frame', done⟩ := ingested_completes hrow moved
    (fun o ho => apart_of_beyond (itemReg_beyond ho))
    (by simp) (m := [.regs, .hif, .ing, .sch]) (by simp) (q := fun o => signalReg o ∨ itemReg o) (fun o => Or.symm) sOk i
  have ended := ended_only hrow (((d.fetch n).pushed i ((d.fetch n).frameItem ent frame)).raiseConv i ent.prio) (d.ring n).next
    (d.ring n).session sOk i
  refine ⟨frame', done, ?_, ?_⟩
  · rw [stream_of_ing (only_ing ended (by simp)), stream_of_ing (only_ing raised (by simp)), stream_pushed, was]
  · rw [only_reg64 ended (not_signalReg (by decide)) (not_signalReg (by decide)), only_reg64 raised (by decide) (by decide), frames_pushed]
    rfl

end Single

end Sys2Proof.Machine
end

section
/-! Proofs about CONVERSION_ITEM: the item that completes, the oldest item of its FIFO, and the record that Crater commits (R64, R77, R79, R329). -/

namespace Sys2Proof.Machine

open Sys2Proof

/-! ## An item of an engine completes -/

/-- An engine runs the item, nothing is in prefetch, and no image is being switched; no item of the engines is a rerun. -/
def Dev.plainItem (d : Dev) (i : Nat) (r : Running) : Prop :=
  d.runningItem 1 i = some r ∧ d.sch.service.all (fun r => r.q.avoid.isNone) = true ∧ d.sch.slots = []
    ∧ d.sch.switching.all (fun x => x.isNone) = true

/-- The registers of an item's completion. -/
def doneReg (o : Nat) : Prop := o ∈ [Reg.SCH_STATUS, Reg.SCH_TRACE_LOST]

section Done

variable {d : Dev} {i : Nat} {r : Running}

theorem runningItem_tag (h : d.runningItem 1 i = some r) : r.q.item.tag = i := by
  have found := List.find?_some h
  simp only [Bool.and_eq_true, decide_eq_true_eq] at found
  exact found.1.2

theorem plainItem_avoid (h : d.plainItem i r) : r.q.avoid = none := by
  obtain ⟨hrun, avoids, -, -⟩ := h
  have held : r ∈ d.sch.service := List.mem_of_find?_eq_some hrun
  simpa using List.all_eq_true.mp avoids r held

theorem keepTrace_switching (d : Dev) (b : Bytes) :
    (d.keepTrace b).sch.slots = d.sch.slots ∧ (d.keepTrace b).sch.switching = d.sch.switching := by
  unfold Dev.keepTrace
  simp only
  split <;> exact ⟨rfl, rfl⟩

/-- The trace leaves the slots and the switches of the scheduler. -/
theorem traceEv_switching (d : Dev) (kind engine : Nat) (w : WorkItem) (bank ns : Nat) :
    (d.traceEv kind engine w bank ns).sch.slots = d.sch.slots ∧ (d.traceEv kind engine w bank ns).sch.switching = d.sch.switching := by
  unfold Dev.traceEv
  simp only
  split
  · split
    · exact ⟨rfl, rfl⟩
    · exact keepTrace_switching _ _
  · exact ⟨rfl, rfl⟩

/-- No switch of the class runs. -/
theorem finishSwitch_idle {d : Dev} (h : d.sch.switching.all (fun x => x.isNone) = true) (cls : Nat) : d.finishSwitch cls = d := by
  have none_runs : (d.sch.switching[bankIx cls]?).join = none := by
    cases hx : d.sch.switching[bankIx cls]? with
    | none => rfl
    | some x => simpa using List.all_eq_true.mp h x (List.mem_of_getElem? hx)
  unfold Dev.finishSwitch
  rw [none_runs]

theorem endService_plain {d : Dev} (hs : d.sch.slots = []) (hw : d.sch.switching.all (fun x => x.isNone) = true) (r : Running) :
    d.endService r = (d.modSch fun s => { s with service := d.sch.service.filter (fun x => decide (x.q.order ≠ r.q.order)) }).refreshSch := by
  have no_slot : (d.modSch fun s =>
      { s with service := d.sch.service.filter (fun x => decide (x.q.order ≠ r.q.order)) }).sch.slots.find r.engine = none := by
    simp [Dev.modSch, hs, Tbl.find]
  unfold Dev.endService
  simp only [no_slot]
  rw [finishSwitch_idle (by exact hw)]

/-- The completion moves the scheduler, its status and its trace. -/
theorem complete'_only (h : d.plainItem i r) : only [.regs, .sch] doneReg d (d.complete' r) := by
  have avoid := plainItem_avoid h
  obtain ⟨-, -, hs, hw⟩ := h
  unfold Dev.complete'
  simp only [avoid]
  obtain ⟨slots, switching⟩ := traceEv_switching d 3 r.engine r.q.item r.bank (d.ranOf r)
  rw [endService_plain (slots.trans hs) (by rw [switching]; exact hw)]
  refine only_trans (only_mono (by simp) ?_ (traceEv_only d _ _ _ _ _)) <|
    only_trans (only_wider (modSch_only _ _ _) (by simp)) (only_mono (by simp) ?_ (refreshSch_only _))
  · rintro _ rfl; unfold doneReg; decide
  · rintro _ rfl; unfold doneReg; decide

end Done

/-! ## The oldest item of a FIFO -/

/-- The stream once its oldest item has left the FIFO. -/
def StreamSt.popped (st : StreamSt) (rest : List FifoItem) : StreamSt := { st with fifo := rest, drain := st.drain - 1 }

/-- The device once the oldest item has left the stream's FIFO. -/
def Dev.popped (d : Dev) (i : Nat) (it : FifoItem) (rest : List FifoItem) : Dev :=
  (d.modStream i (fun s => s.popped rest)).useCells 0 it.cells

theorem popped_only (d : Dev) (i : Nat) (it : FifoItem) (rest : List FifoItem) :
    only [.regs, .ing] (fun o => o = Reg.ING_STATUS) d (d.popped i it rest) :=
  only_trans (only_wider (modStream_only d i _ _) (by simp)) (only_wider (useCells_only _ _ _) (by simp))

theorem stream_popped (d : Dev) (i : Nat) (it : FifoItem) (rest : List FifoItem) :
    (d.popped i it rest).stream i = (d.stream i).popped rest := by
  rw [Dev.popped, stream_of_ing (only_ing (useCells_only _ _ _) (by simp))]
  exact stream_setStream_same d i _

theorem drainDone_only (d : Dev) : only [.regs] (fun o => o = Reg.ING_STATUS) d d.drainDone := by
  unfold Dev.drainDone
  split
  · exact setBit_only _ _ _
  · exact only_refl _ _ _

section Convert

variable {d : Dev} {i : Nat} {it : FifoItem} {rest : List FifoItem} {b : Bytes} {ent : StreamEntry}

theorem convertNext_uncorr (h : (d.stream i).fifo = it :: rest) :
    d.convertNext i 2 = (((d.popped i it rest).ingestEcc 2).discard i it).drainDone := by
  simp only [Dev.convertNext, h]
  rfl

theorem convertNext_good (h : (d.stream i).fifo = it :: rest) : d.convertNext i 0 = ((d.popped i it rest).convert i it).drainDone := by
  simp only [Dev.convertNext, h]
  rfl

/-! ### Discarded -/

theorem discard_block (h : it.body = .block b) : d.discard i it = d := by simp [Dev.discard, h]

theorem discard_only (d : Dev) (i : Nat) (it : FifoItem) (p : Nat → Prop) : only [.ing] p d (d.discard i it) := by
  unfold Dev.discard
  split
  · exact modStream_only _ _ _ _
  · exact only_refl _ _ _

/-- A message that is discarded leaves the FIFO as it was. -/
theorem discard_fifo (d : Dev) (i : Nat) (it : FifoItem) :
    ((d.discard i it).stream i).fifo = (d.stream i).fifo ∧ ((d.discard i it).stream i).drain = (d.stream i).drain := by
  unfold Dev.discard
  split
  · rw [Dev.modStream, stream_setStream_same]
    exact ⟨rfl, rfl⟩
  · exact ⟨rfl, rfl⟩

/-! ### Committed -/

/-- The stream once its STAT bit 10 is seen clear. -/
def StreamSt.stat10Clear (st : StreamSt) : StreamSt := { st with stat10 := false }

theorem watchStat10_clear (d : Dev) (i e : Nat) : d.watchStat10 i e false = d.modStream i StreamSt.stat10Clear := by
  simp [Dev.watchStat10, Dev.modStream, StreamSt.stat10Clear]

/-- The record of a block. -/
def Dev.blockRec (d : Dev) (i : Nat) (it : FifoItem) (ent : StreamEntry) (b : Bytes) : Rec :=
  { stream := i, qual := qPresent + it.flags, type := ent.type, nchan := ent.nchan, body := .slots ((d.chansOf ent).map (convSlot ent b)) }

theorem convert_block (hb : it.body = .block b) (he : (d.stream i).entry = { cur := some ent, pend := none })
    (h10 : (beNat (slice b 0 2)).testBit 10 = false) :
    d.convert i it = (d.modStream i StreamSt.stat10Clear).commitRec i ent it.tag (d.blockRec i it ent b) it.rx it.port := by
  simp only [Dev.convert, hb, Dev.entryAt, he, Held.at', h10, watchStat10_clear]
  rfl

/-- A record of an epoch of the run that is not sealed, where one is held, is a duplicate. -/
theorem commitRec_duplicate {e t : Nat} {r : Rec} {rx port : Nat} (he : nearestEpoch d.rate t = e)
    (ha : alignedTo d.rate (d.fld Fld.CRT_ALIGN_TOL) e t = true) (hdue : dueAt d.rate ent e = true) (hr : d.craterRuns = true)
    (hf : d.crt.first ≤ e) (hs : d.crt.nextSeal ≤ e) (ho : e ≤ d.crt.nextDeliver + 127) (hn : (d.stored e i).isSome = true) :
    d.commitRec i ent t r rx port = d.modStream i (fun s => { s with dup := s.dup + 1 }) := by
  have unsealed : d.sealedHere e = false := by simp [Dev.sealedHere, Nat.not_lt.mpr hs]
  have room : ¬ d.oldestOpen + 127 < e := Nat.not_lt.mpr ho
  simp [Dev.commitRec, he, ha, hdue, hr, Nat.not_lt.mpr hf, unsealed, room, hn]

end Convert

end Sys2Proof.Machine
end

section
/-! The effects of CONVERSION_ITEM on the stream, the error queue and Crater (R64, R77, R79). -/

namespace Sys2Proof.Machine

open Sys2Proof

/-- Crater can take a record of the stream's epoch at the time-tag: it lies on the stream's grid, in the run, before the seals, and has a
slot. -/
def Dev.takesAt (d : Dev) (ent : StreamEntry) (e t : Nat) : Prop :=
  (e = nearestEpoch d.rate t ∧ alignedTo d.rate (d.fld Fld.CRT_ALIGN_TOL) e t = true ∧ dueAt d.rate ent e = true)
    ∧ d.craterRuns = true ∧ d.crt.first ≤ e ∧ d.crt.nextSeal ≤ e ∧ e ≤ d.crt.nextDeliver + 127

theorem takesAt_of_only {l : List Part} {p : Nat → Prop} {d t : Dev} (h : only l p d t) (hl : Part.crt ∉ l) (hcfg : ¬ p Reg.CRT_CFG)
    (htol : ¬ p Reg.CRT_ALIGN) (hst : ¬ p Reg.CRT_STATUS) {ent : StreamEntry} {e tag : Nat} (ht : d.takesAt ent e tag) :
    t.takesAt ent e tag := by
  have rate : t.rate = d.rate := only_fld h hcfg
  unfold Dev.takesAt at ht ⊢
  rw [rate, only_fld h (f := Fld.CRT_ALIGN_TOL) htol, craterRuns_of_only h hst, only_crt h hl]
  exact ht

/-- A commit notes the record in its stream. -/
theorem stream_store (d : Dev) (e i : Nat) (r : StoredRec) : (d.store e i r).stream i
    = { d.stream i with lastEpoch := e % 2 ^ 32, lastPort := r.port, lastRx := r.rx, committed := some e } := by
  obtain ⟨_, _, h⟩ := store_eq d e i r
  rw [h]
  exact stream_setStream_same (d.setSlot e _) i _

/-- A commit seals nothing. -/
theorem sealed_store {d : Dev} {e i : Nat} {r : StoredRec} {e' : Nat} (h : ∃ x, d.slot e' = some x) :
    ((d.store e i r).slot e').map (fun x => x.sealed) = (d.slot e').map (fun x => x.sealed) := by
  obtain ⟨x, hx⟩ := h
  by_cases he : e' = e
  · subst he
    rw [slot_store_same, hx, slotD_of_slot hx]
    rfl
  · rw [slot_store_other d e i r he]

section Conversion

variable {d : Dev} {i : Nat} {r : Running} {it : FifoItem} {rest : List FifoItem}
  (hplain : d.plainItem i r) (hfifo : (d.stream i).fifo = it :: rest)

/-- The device whose completed item has taken the oldest item of its FIFO. -/
def Dev.itemTaken (d : Dev) (i : Nat) (r : Running) (it : FifoItem) (rest : List FifoItem) : Dev := (d.complete' r).popped i it rest

include hplain

theorem itemTaken_only (it : FifoItem) (rest : List FifoItem) :
    only [.regs, .ing, .sch] (fun o => o ∈ [Reg.SCH_STATUS, Reg.SCH_TRACE_LOST, Reg.ING_STATUS]) d (d.itemTaken i r it rest) := by
  refine only_trans (only_mono (by simp) ?_ (complete'_only hplain)) (only_mono (by simp) ?_ (popped_only _ _ _ _))
  · exact (by decide : ∀ o ∈ [Reg.SCH_STATUS, Reg.SCH_TRACE_LOST], o ∈ [Reg.SCH_STATUS, Reg.SCH_TRACE_LOST, Reg.ING_STATUS])
  · rintro _ rfl; decide

theorem complete'_stream : (d.complete' r).stream i = d.stream i := stream_of_ing (only_ing (complete'_only hplain) (by simp)) i

theorem stream_itemTaken (it : FifoItem) (rest : List FifoItem) : (d.itemTaken i r it rest).stream i = (d.stream i).popped rest := by
  rw [Dev.itemTaken, stream_popped, complete'_stream hplain]

/-! ### An uncorrectable error -/

theorem convDone_uncorr (hfifo : (d.stream i).fifo = it :: rest) :
    d.convDone r 2 = (((d.itemTaken i r it rest).ingestEcc 2).discard i it).drainDone := by
  rw [Dev.convDone, runningItem_tag hplain.1, convertNext_uncorr (by rw [complete'_stream hplain]; exact hfifo)]
  rfl

theorem convDone_uncorr_effect (hfifo : (d.stream i).fifo = it :: rest) (hq : d.saf.queue = []) :
    only [.regs, .ing, .sch, .saf] (fun o => o ∈ [Reg.SCH_STATUS, Reg.SCH_TRACE_LOST, Reg.ING_STATUS, Reg.ING_ECC_UNCORR, Reg.SAF_ERRORS,
        Reg.SAF_STATUS, Reg.FUM_STATUS]) d (d.convDone r 2)
      ∧ ((d.convDone r 2).stream i).fifo = rest ∧ ((d.convDone r 2).stream i).drain = (d.stream i).drain - 1
      ∧ (∀ b, it.body = .block b → (d.convDone r 2).stream i = (d.stream i).popped rest)
      ∧ (d.convDone r 2).saf.queue.map (fun e => (e.cls, e.index)) = [(eMemUncorr, 1)]
      ∧ (d.convDone r 2).regN Reg.ING_ECC_UNCORR = (d.regN Reg.ING_ECC_UNCORR + 1) % 2 ^ 32 := by
  rw [convDone_uncorr hplain hfifo]
  have taken := itemTaken_only hplain it rest
  obtain ⟨moved, queue, counted⟩ := ingestEcc_uncorr (d := d.itemTaken i r it rest) (by rw [only_saf taken (by simp)]; exact hq)
  have dropped (p : Nat → Prop) := discard_only ((d.itemTaken i r it rest).ingestEcc 2) i it p
  have drained := drainDone_only (((d.itemTaken i r it rest).ingestEcc 2).discard i it)
  have stream : ((d.itemTaken i r it rest).ingestEcc 2).stream i = (d.stream i).popped rest := by
    rw [stream_of_ing (only_ing moved (by simp)), stream_itemTaken hplain]
  have last := stream_of_ing (only_ing drained (by simp)) i
  obtain ⟨fifo, drain⟩ := discard_fifo ((d.itemTaken i r it rest).ingestEcc 2) i it
  refine ⟨?_, ?_, ?_, ?_, ?_, ?_⟩
  · refine only_trans (only_mono (by simp) ?_ taken) <| only_trans (only_mono (by simp) ?_ moved) <|
      only_trans (only_wider (dropped _) (by simp)) (only_mono (by simp) ?_ drained)
    · exact fun o ho => List.mem_append_left [Reg.ING_ECC_UNCORR, Reg.SAF_ERRORS, Reg.SAF_STATUS, Reg.FUM_STATUS] ho
    · exact fun o ho => List.mem_append_right [Reg.SCH_STATUS, Reg.SCH_TRACE_LOST, Reg.ING_STATUS] ho
    · rintro _ rfl; decide
  · rw [last, fifo, stream]; rfl
  · rw [last, drain, stream]; rfl
  · intro b hb
    rw [last, discard_block hb, stream]
  · rw [only_saf drained (by simp), only_saf (dropped (fun _ => False)) (by simp)]
    exact queue
  · rw [only_regN drained (by decide), only_regN (dropped (fun _ => False)) id, counted, only_regN taken (by decide)]

/-! ### A block -/

section Block

variable {e : Nat} {b : Bytes} {ent : StreamEntry} (hfifo : (d.stream i).fifo = it :: rest) (hb : it.body = .block b)
  (he : (d.stream i).entry = { cur := some ent, pend := none }) (h10 : (beNat (slice b 0 2)).testBit 10 = false)

/-- The device that has taken the item and its STAT word, as Crater meets it. -/
def Dev.blockTaken (d : Dev) (i : Nat) (r : Running) (it : FifoItem) (rest : List FifoItem) : Dev :=
  (d.itemTaken i r it rest).modStream i StreamSt.stat10Clear

theorem blockTaken_only (it : FifoItem) (rest : List FifoItem) :
    only [.regs, .ing, .sch] (fun o => o ∈ [Reg.SCH_STATUS, Reg.SCH_TRACE_LOST, Reg.ING_STATUS]) d (d.blockTaken i r it rest) :=
  only_trans (itemTaken_only hplain it rest) (only_wider (modStream_only _ _ _ _) (by simp))

theorem stream_blockTaken (it : FifoItem) (rest : List FifoItem) :
    (d.blockTaken i r it rest).stream i = ((d.stream i).popped rest).stat10Clear := by
  rw [Dev.blockTaken, Dev.modStream, stream_setStream_same, stream_itemTaken hplain]

theorem chans_itemTaken (it : FifoItem) (rest : List FifoItem) : (d.itemTaken i r it rest).ing.chans = d.ing.chans := by
  have done := only_ing (complete'_only hplain) (by simp)
  rw [Dev.itemTaken, Dev.popped, only_ing (useCells_only _ _ _) (by simp)]
  show (d.complete' r).ing.chans = d.ing.chans
  rw [done]

theorem blockRec_itemTaken (it : FifoItem) (rest : List FifoItem) (ent : StreamEntry) (b : Bytes) :
    (d.itemTaken i r it rest).blockRec i it ent b = d.blockRec i it ent b := by
  simp only [Dev.blockRec, Dev.chansOf, Dev.chan, chans_itemTaken hplain it rest]

include hfifo hb he h10

theorem convDone_block : d.convDone r 0
    = ((d.blockTaken i r it rest).commitRec i ent it.tag (d.blockRec i it ent b) it.rx it.port).drainDone := by
  rw [Dev.convDone, runningItem_tag hplain.1, convertNext_good (by rw [complete'_stream hplain]; exact hfifo),
    convert_block hb (by rw [stream_popped, complete'_stream hplain]; exact he) h10]
  rw [show ((d.complete' r).popped i it rest).blockRec i it ent b = d.blockRec i it ent b from blockRec_itemTaken hplain it rest ent b]
  rfl

variable (htakes : d.takesAt ent e it.tag)

include htakes

/-- The record's epoch is held already. -/
theorem convDone_duplicate (hheld : (d.stored e i).isSome = true) :
    d.convDone r 0 = ((d.blockTaken i r it rest).modStream i (fun s => { s with dup := s.dup + 1 })).drainDone := by
  have taken := blockTaken_only hplain it rest
  obtain ⟨⟨hnear, halign, hdue⟩, hr, hf, hs, ho⟩ := takesAt_of_only taken (by simp) (by decide) (by decide) (by decide) htakes
  rw [convDone_block hplain hfifo hb he h10, commitRec_duplicate hnear.symm halign hdue hr hf hs ho
    (by rw [Dev.stored, slot_of_crt (only_crt taken (by simp))]; exact hheld)]

/-- The record as Crater stores it. -/
def Dev.blockStored (d : Dev) (i e : Nat) (it : FifoItem) (ent : StreamEntry) (b : Bytes) : StoredRec :=
  ⟨{ d.blockRec i it ent b with tOff := ((it.tag : Int) - epochTime d.rate e) / 2 ^ 16, origin := 0 }, it.rx, it.port⟩

/-- The record's epoch is free for it. -/
theorem convDone_stores (hfree : d.stored e i = none) :
    d.convDone r 0 = ((d.blockTaken i r it rest).store e i (d.blockStored i e it ent b)).drainDone := by
  have taken := blockTaken_only hplain it rest
  have rate : (d.blockTaken i r it rest).rate = d.rate := only_fld taken (by decide)
  obtain ⟨⟨hnear, halign, hdue⟩, hr, hf, hs, ho⟩ := takesAt_of_only taken (by simp) (by decide) (by decide) (by decide) htakes
  rw [convDone_block hplain hfifo hb he h10, commitRec_stores hnear.symm halign hdue hr hf hs ho
    (by rw [Dev.stored, slot_of_crt (only_crt taken (by simp))]; exact hfree), rate, Dev.blockStored]

theorem convDone_duplicate_effect (hheld : (d.stored e i).isSome = true) :
    only [.regs, .ing, .sch] (fun o => o ∈ [Reg.SCH_STATUS, Reg.SCH_TRACE_LOST, Reg.ING_STATUS]) d (d.convDone r 0)
      ∧ ((d.convDone r 0).stream i).fifo = rest ∧ ((d.convDone r 0).stream i).dup = (d.stream i).dup + 1
      ∧ ((d.convDone r 0).stream i).committed = (d.stream i).committed := by
  rw [convDone_duplicate hplain hfifo hb he h10 htakes hheld]
  have stream : ((((d.blockTaken i r it rest).modStream i (fun s => { s with dup := s.dup + 1 })).drainDone).stream i)
      = { ((d.stream i).popped rest).stat10Clear with dup := (d.stream i).dup + 1 } := by
    rw [stream_of_ing (only_ing (drainDone_only _) (by simp)), Dev.modStream, stream_setStream_same, stream_blockTaken hplain]
    rfl
  rw [stream]
  refine ⟨only_trans (blockTaken_only hplain it rest) <| only_trans (only_wider (modStream_only _ _ _ _) (by simp))
    (only_mono (by simp) ?_ (drainDone_only _)), rfl, rfl, rfl⟩
  rintro _ rfl; decide

theorem convDone_stores_only (hfree : d.stored e i = none) : only [.regs, .hif, .ing, .crt, .sch]
    (fun o => o ∈ [Reg.SCH_STATUS, Reg.SCH_TRACE_LOST, Reg.ING_STATUS, Reg.CRT_STATUS]) d (d.convDone r 0) := by
  rw [convDone_stores hplain hfifo hb he h10 htakes hfree]
  refine only_trans (only_mono (by simp) ?_ (blockTaken_only hplain it rest)) <| only_trans (only_mono (by simp) ?_ (store_only _ _ _ _))
    (only_mono (by simp) ?_ (drainDone_only _))
  · exact fun o ho => List.mem_append_left [Reg.CRT_STATUS] ho
  · rintro _ rfl; decide
  · rintro _ rfl; decide

theorem convDone_stores_stream (hfree : d.stored e i = none) : ((d.convDone r 0).stream i).fifo = rest
    ∧ ((d.convDone r 0).stream i).committed = some e ∧ ((d.convDone r 0).stream i).lastPort = it.port := by
  rw [convDone_stores hplain hfifo hb he h10 htakes hfree, stream_of_ing (only_ing (drainDone_only _) (by simp)), stream_store,
    stream_blockTaken hplain]
  exact ⟨rfl, rfl, rfl⟩

/-- Crater after the commit: the record is held, and nothing else of it has changed. -/
theorem convDone_stores_crater (hfree : d.stored e i = none) : (d.convDone r 0).stored e i = some (d.blockStored i e it ent b)
    ∧ (∀ e' j, (e' ≠ e ∨ j ≠ i) → (d.convDone r 0).stored e' j = d.stored e' j)
    ∧ (d.convDone r 0).crt = { d.crt with slots := (d.convDone r 0).crt.slots }
    ∧ ∀ e', (∃ x, d.slot e' = some x) → ((d.convDone r 0).slot e').map (fun x => x.sealed) = (d.slot e').map (fun x => x.sealed) := by
  rw [convDone_stores hplain hfifo hb he h10 htakes hfree]
  have drained := only_crt (drainDone_only ((d.blockTaken i r it rest).store e i (d.blockStored i e it ent b))) (by simp)
  have before := only_crt (blockTaken_only hplain it rest) (by simp)
  have slots := slot_of_crt drained
  have was := slot_of_crt before
  refine ⟨?_, ?_, ?_, ?_⟩
  · rw [Dev.stored, slots]
    exact stored_store_same _ _ _ _
  · intro e' j h
    rw [Dev.stored, slots]
    refine (stored_store_other _ _ _ _ h).trans ?_
    rw [Dev.stored, was, Dev.stored]
  · rw [drained, store_crt, before]
  · intro e' h
    rw [slots, sealed_store (by rw [was]; exact h), was]

end Block

end Conversion

end Sys2Proof.Machine
end

section
/-! Proofs about a descriptor that cannot be read: its ring's STATE 3, which the records of the event ring do not move (R455, R460, R463). -/

namespace Sys2Proof.Machine

open Sys2Proof

/-! ## What leaves the STATE of every ring -/

/-- Every ring has the STATE that it had. -/
def Dev.statesKept (d t : Dev) : Prop := ∀ m, t.fld (Fld.HIF_RINGn_STAT_STATE m) = d.fld (Fld.HIF_RINGn_STAT_STATE m)

theorem statesKept_refl (d : Dev) : d.statesKept d := fun _ => rfl

theorem statesKept_trans {a b c : Dev} (h : a.statesKept b) (k : b.statesKept c) : a.statesKept c := fun m => (k m).trans (h m)

theorem statesKept_of_regs {d t : Dev} (h : t.regs = d.regs) : d.statesKept t := fun m => by rw [Dev.fld, Dev.reg, h, ← Dev.reg, ← Dev.fld]

theorem statesKept_setRing (d : Dev) (n : Nat) (r : RingSt) : d.statesKept (d.setRing n r) := statesKept_of_regs rfl

theorem statesKept_emit (d : Dev) (o : Out) : d.statesKept (d.emit o) := statesKept_of_regs rfl

theorem statesKept_hif (d : Dev) (h : HifSt) : d.statesKept { d with hif := h } := statesKept_of_regs rfl

theorem statesKept_setReg (d : Dev) {o : Nat} (w : Word) (h : ∀ m, Reg.HIF_RINGn_STAT m ≠ o) : d.statesKept (d.setReg o w) := fun m => by
  simp only [Dev.fld, Fld.HIF_RINGn_STAT_STATE, reg_setReg_other _ _ (h m)]

theorem statesKept_count (d : Dev) {o : Nat} (k : Nat) (h : ∀ m, Reg.HIF_RINGn_STAT m ≠ o) : d.statesKept (d.count o k) :=
  statesKept_setReg d _ h

/-- Any other field of STAT. -/
theorem statesKept_setFld (d : Dev) {f : FieldAt} (v : Nat) (h : f.lo + f.width ≤ 32) (hlo : 2 ≤ f.lo) : d.statesKept (d.setFld f v) :=
  fun _ => Dev.fld_setFld_other d f _ v h (.inr (.inl hlo))

theorem statesKept_sendMsix (d : Dev) {v : Nat} (hv : v < 64) : d.statesKept (d.sendMsix v) := by
  unfold Dev.sendMsix
  split
  · exact statesKept_of_regs rfl
  · refine statesKept_setReg _ _ (fun m => ?_)
    have : v / 32 = 0 ∨ v / 32 = 1 := by omega
    simp only [Reg.HIF_RINGn_STAT]
    omega

theorem statesKept_judgeSignal (d : Dev) (n : Nat) (b : Bool) : d.statesKept (d.judgeSignal n b) := by
  unfold Dev.judgeSignal
  simp only
  split
  · exact statesKept_trans (statesKept_sendMsix d (fld_lt _ _))
      (statesKept_trans (statesKept_setFld _ _ (le_refl 3 |>.trans (by decide)) (le_refl 2)) (statesKept_setRing _ _ _))
  · exact statesKept_refl _

theorem statesKept_countDone (d : Dev) (n : Nat) : d.statesKept (d.countDone n) := by
  unfold Dev.countDone
  refine statesKept_trans (statesKept_setReg d _ (fun m => ?_)) (statesKept_trans (statesKept_setRing _ _ _) (statesKept_judgeSignal _ _ _))
  simp only [Reg.HIF_RINGn_STAT, Reg.HIF_RINGn_DONE]
  omega

theorem statesKept_closeBuf (d : Dev) (n : Nat) (b : Bool) : d.statesKept (d.closeBuf n b) := by
  unfold Dev.closeBuf
  simp only
  split
  · exact statesKept_refl _
  · exact statesKept_trans (statesKept_setRing _ _ _) (statesKept_trans (statesKept_emit _ _) (statesKept_countDone _ n))

theorem statesKept_openNext (n : Nat) (b : Bool) (kind : Nat) (l : List BufDesc) (d : Dev) : d.statesKept (Dev.openNext n b kind l d) := by
  induction l generalizing d with
  | nil => exact statesKept_refl _
  | cons x t ih =>
    simp only [Dev.openNext]
    split
    · exact statesKept_of_regs rfl
    · exact statesKept_trans (statesKept_trans (statesKept_setRing _ _ _) (statesKept_trans (statesKept_emit _ _) (statesKept_countDone _ n))) (ih _)

theorem statesKept_dropBad (n : Nat) (l : List BufDesc) (d : Dev) : d.statesKept (Dev.dropBad n l d) := by
  induction l generalizing d with
  | nil => exact statesKept_refl _
  | cons x t ih =>
    simp only [Dev.dropBad]
    split
    · exact statesKept_refl _
    · exact statesKept_trans (statesKept_trans (statesKept_setRing _ _ _) (statesKept_trans (statesKept_emit _ _) (statesKept_countDone _ n))) (ih _)

theorem fill_regs (d : Dev) (n : Nat) (b : Bytes) (s : Option RingRec) : (d.fill n b s).regs = d.regs := by
  unfold Dev.fill
  simp only
  split <;> rfl

theorem statesKept_endGroup (d : Dev) (n : Nat) (b : Bool) : d.statesKept (d.endGroup n b) := by
  unfold Dev.endGroup
  split
  · exact statesKept_closeBuf _ _ _
  · exact statesKept_refl _

theorem statesKept_fillPart (d : Dev) (n : Nat) (b : Bytes) (g : Bool) (s : Option RingRec) : d.statesKept (d.fillPart n b g s) := by
  unfold Dev.fillPart
  simp only
  refine statesKept_trans (statesKept_of_regs (fill_regs d n (b.take (d.room n)) s)) ?_
  split
  · exact statesKept_endGroup _ _ _
  · exact statesKept_trans (statesKept_closeBuf _ n true) (statesKept_setRing _ _ _)

theorem statesKept_continueRec (n kind fuel : Nat) (d : Dev) : d.statesKept (Dev.continueRec n kind fuel d) := by
  induction fuel generalizing d with
  | zero => exact statesKept_refl _
  | succ f ih =>
    simp only [Dev.continueRec]
    split
    · exact statesKept_refl _
    · refine statesKept_trans (statesKept_openNext n true kind (d.ring n).bufs d) ?_
      split
      · exact statesKept_refl _
      · exact statesKept_trans (statesKept_trans (statesKept_setRing _ _ _) (statesKept_fillPart _ _ _ _ _)) (ih _)

theorem statesKept_ite {c : Prop} [Decidable c] {d a b : Dev} (h : d.statesKept a) (k : d.statesKept b) : d.statesKept (if c then a else b) := by
  split
  · exact h
  · exact k

theorem statesKept_place (n kind : Nat) (r : RingRec) (d : Dev) : d.statesKept (d.place n kind r).1 := by
  unfold Dev.place
  simp only
  have closed := statesKept_ite (c := ((d.ring n).cur.isSome && decide (d.room n < r.bytes.length)) = true)
    (statesKept_closeBuf d n false) (statesKept_refl d)
  generalize (if ((d.ring n).cur.isSome && decide (d.room n < r.bytes.length)) = true then d.closeBuf n false else d) = d0 at closed ⊢
  have opened := statesKept_ite (c := (d0.ring n).cur.isSome = true) (statesKept_refl d0)
    (statesKept_openNext n false kind (d0.ring n).bufs d0)
  generalize (if (d0.ring n).cur.isSome = true then d0 else Dev.openNext n false kind (d0.ring n).bufs d0) = d1 at opened ⊢
  refine statesKept_trans closed (statesKept_trans opened ?_)
  split
  · exact statesKept_refl _
  · exact statesKept_trans (statesKept_fillPart _ _ _ _ _) (statesKept_continueRec _ _ _ _)

theorem statesKept_placeAll (n kind : Nat) (l : List RingRec) (d : Dev) : d.statesKept (Dev.placeAll n kind l d).1 := by
  induction l generalizing d with
  | nil => exact statesKept_refl _
  | cons r t ih =>
    simp only [Dev.placeAll]
    have placed : d.statesKept (if (d.ring n).rest.isSome = true then (d, false) else d.place n kind r).1 := by
      split
      · exact statesKept_refl _
      · exact statesKept_place n kind r d
    generalize (if (d.ring n).rest.isSome = true then (d, false) else d.place n kind r) = p at placed ⊢
    split
    · exact statesKept_trans placed
        (statesKept_trans (statesKept_ite (statesKept_sendMsix _ (fld_lt _ _)) (statesKept_refl _)) (ih _))
    · exact placed

theorem setRingQ_regs (d : Dev) (kind : Nat) (q : List RingRec) : (d.setRingQ kind q).regs = d.regs := by
  unfold Dev.setRingQ
  repeat' split
  all_goals rfl

theorem statesKept_pump (d : Dev) (kind : Nat) : d.statesKept (d.pump kind) := by
  unfold Dev.pump
  split
  · exact statesKept_refl _
  · rename_i n _
    refine statesKept_ite ?_ (statesKept_refl _)
    have waiting (x : Dev) (l : List RingRec) : x.statesKept ((Dev.placeAll n kind l x).1.setRingQ kind (Dev.placeAll n kind l x).2) :=
      statesKept_trans (statesKept_placeAll n kind l x) (statesKept_of_regs (setRingQ_regs _ _ _))
    refine statesKept_trans (statesKept_continueRec n kind ((d.ring n).bufs.length + 1) d) ?_
    exact statesKept_ite (statesKept_trans (waiting _ _) (statesKept_dropBad _ _ _)) (waiting _ _)

/-- The message of ERR_VECTOR. -/
theorem statesKept_errMsg (d : Dev) (c : Prop) [Decidable c] :
    d.statesKept (if c then d.sendMsix (d.fld Fld.HIF_CTRL_ERR_VECTOR) else d) :=
  statesKept_ite (statesKept_sendMsix _ (fld_lt _ _)) (statesKept_refl _)

theorem statesKept_enqueue (d : Dev) (kind cap lostReg : Nat) (hlost : ∀ m, Reg.HIF_RINGn_STAT m ≠ lostReg) (recs : List RingRec) :
    d.statesKept (d.enqueue kind cap lostReg recs) := by
  unfold Dev.enqueue
  simp only
  have pumped := statesKept_trans (statesKept_of_regs (setRingQ_regs d kind (d.ringQ kind ++ recs))) (statesKept_pump _ kind)
  generalize (d.setRingQ kind (d.ringQ kind ++ recs)).pump kind = d1 at pumped ⊢
  generalize trimQueue cap (d1.ringQ kind) = q
  refine statesKept_trans pumped (statesKept_ite (statesKept_refl _) ?_)
  refine statesKept_trans (statesKept_of_regs (setRingQ_regs d1 kind q.1)) ?_
  refine statesKept_trans (statesKept_count _ q.2.length hlost) (statesKept_trans ?_ (statesKept_errMsg _ _))
  exact statesKept_hif _ _

/-- A record of the event ring leaves the STATE of every ring. -/
theorem statesKept_eventRecord (d : Dev) (mk : Nat → Bytes) (g : Bool) : d.statesKept (d.eventRecord mk g) := by
  unfold Dev.eventRecord
  refine statesKept_trans (statesKept_of_regs ?_) (statesKept_enqueue _ 8 4096 Reg.HIF_EVT_LOST (fun m => ?_) _)
  · rfl
  · simp only [Reg.HIF_RINGn_STAT, Reg.HIF_EVT_LOST]
    omega

/-! ## The ring that stops -/

theorem setRingQ_hif (d : Dev) (kind : Nat) (q : List RingRec) (p : Nat → Prop) : only [.hif] p d (d.setRingQ kind q) := by
  refine only_of_kept ?_ (setRingQ_regs d kind q)
  unfold Dev.setRingQ
  repeat' split
  all_goals simp [keptBut]

theorem only_ite {c : Prop} [Decidable c] {l : List Part} {p : Nat → Prop} {d a b : Dev} (h : only l p d a) (k : only l p d b) :
    only l p d (if c then a else b) := by
  split
  · exact h
  · exact k

theorem hif_only (d : Dev) (h : HifSt) (p : Nat → Prop) : only [.hif] p d { d with hif := h } := only_of_kept (by simp [keptBut]) rfl

/-- A ring that halts moves the host interface, and no register. -/
theorem haltRing_only (d : Dev) (n : Nat) (p : Nat → Prop) : only [.hif] p d (d.haltRing n) := by
  unfold Dev.haltRing
  extract_lets r kind lossy d1 d2 was d3 held
  have cleared : only [.hif] p d d1 := only_of_kept (setRing_kept _ _ _) rfl
  have requeued : only [.hif] p d d2 := by
    simp only [d2]
    split
    · exact cleared
    · exact only_trans cleared (setRingQ_hif _ _ _ _)
  have marked : only [.hif] p d d3 := only_ite (only_trans requeued (hif_only _ _ _)) requeued
  exact only_ite (only_trans marked (hif_only _ _ _)) marked

/-! ## The error of the ring -/

section Error

variable {d : Dev} {n : Nat}

theorem ringError_only (h : n < 32) (code : Nat) : only [.regs, .hif] signalReg d (d.ringError n code) := by
  have stat (x : Dev) (f : FieldAt) (v : Nat) (hf : f.off = Reg.HIF_RINGn_STAT n) : only [.regs, .hif] signalReg x (x.setFld f v) :=
    only_mono (by simp) (by rintro _ rfl; rw [hf]; exact signalReg_stat h) (setFld_only x f v)
  refine only_trans (only_wider (haltRing_only d n _) (by simp)) <| only_trans (stat _ (Fld.HIF_RINGn_STAT_STATE n) 3 rfl) <|
    only_trans (stat _ (Fld.HIF_RINGn_STAT_ERR_CODE n) code rfl) ?_
  exact only_wider (sendMsix_only _ (fld_lt _ _)) (by simp)

theorem ringError_state (n code : Nat) : (d.ringError n code).fld (Fld.HIF_RINGn_STAT_STATE n) = 3 := by
  unfold Dev.ringError
  extract_lets x
  rw [statesKept_sendMsix _ (fld_lt _ _), Dev.fld_setFld_other _ _ _ _ (by simp [Fld.HIF_RINGn_STAT_ERR_CODE])
    (by simp [Fld.HIF_RINGn_STAT_ERR_CODE, Fld.HIF_RINGn_STAT_STATE])]
  exact Dev.fld_setFld_same _ _ _ (by simp [Fld.HIF_RINGn_STAT_STATE])

/-- The event of a ring's error has an entry on the event ring and no record of Sinter's. -/
theorem ringFails_eq (d : Dev) (n code posted : Nat) :
    ∃ mk, d.ringFails n code posted = (d.ringError n code).eventRecord mk := by
  unfold Dev.ringFails Dev.event
  simp only [Ev.row, if_true, Bool.false_eq_true, if_false]
  exact ⟨_, rfl⟩

theorem ringFails_only (h : n < 32) (code posted : Nat) :
    only [.regs, .hif] (fun o => signalReg o ∨ o ∈ [Reg.HIF_EVT_LOST]) d (d.ringFails n code posted) := by
  obtain ⟨mk, eq⟩ := ringFails_eq d n code posted
  rw [eq]
  refine only_trans (only_mono (fun _ x => x) (fun _ => .inl) (ringError_only h code)) ?_
  unfold Dev.eventRecord
  exact only_trans (only_wider (hif_only _ _ _) (by simp))
    (only_mono (fun _ x => x) (fun o ho => ho.imp id (by simp)) (enqueue_only _ 8 4096 Reg.HIF_EVT_LOST _))

theorem ringFails_state (n code posted : Nat) : (d.ringFails n code posted).fld (Fld.HIF_RINGn_STAT_STATE n) = 3 := by
  obtain ⟨mk, eq⟩ := ringFails_eq d n code posted
  rw [eq, statesKept_eventRecord]
  exact ringError_state n code

/-- A descriptor that cannot be read puts its ring in STATE 3, and counts in HIF_DMA_ERR. -/
theorem readFails_effect (h : n < 32) :
    only [.regs, .hif] (fun o => signalReg o ∨ o ∈ [Reg.HIF_DMA_ERR, Reg.HIF_EVT_LOST]) d (d.readFails n)
      ∧ (d.readFails n).fld (Fld.HIF_RINGn_STAT_STATE n) = 3
      ∧ (d.readFails n).regN Reg.HIF_DMA_ERR = (d.regN Reg.HIF_DMA_ERR + 1) % 2 ^ 32 := by
  have fresh (p : Nat → Prop) : only [.regs, .hif] p d { d with fresh := d.fresh + 1 } := only_of_kept (by simp [keptBut]) rfl
  have counted := count_only ({ d with fresh := d.fresh + 1 }) Reg.HIF_DMA_ERR 1
  unfold Dev.readFails
  refine ⟨only_trans (fresh _) (only_trans (only_mono (by simp) ?_ counted) (only_mono (by simp) ?_ (ringFails_only h _ _))),
    ringFails_state _ _ _, ?_⟩
  · rintro _ rfl; exact .inr (by decide)
  · exact fun o ho => ho.imp id (fun hm => List.mem_cons_of_mem _ hm)
  · rw [only_regN (ringFails_only h _ _) ?_, regN_count, if_pos rfl]
    · rfl
    · rintro (hs | hm)
      · exact not_signalReg (by decide) hs
      · exact absurd hm (by decide)

theorem hostIngest_unread_effect {len : Nat} {f : HostFrame} {resv : Bool}
    (hrow : d.runs n 2 = true ∧ d.hostReady = true ∧ 0 < d.available n ∧ d.ingests Fld.ING_CTRL_HOSTFEED_EN = true)
    (hd : f.descOk = false) :
    only [.regs, .hif] (fun o => signalReg o ∨ o ∈ [Reg.HIF_DMA_ERR, Reg.HIF_EVT_LOST]) d (d.hostIngest n len f resv)
      ∧ (d.hostIngest n len f resv).fld (Fld.HIF_RINGn_STAT_STATE n) = 3
      ∧ (d.hostIngest n len f resv).regN Reg.HIF_DMA_ERR = (d.regN Reg.HIF_DMA_ERR + 1) % 2 ^ 32 := by
  rw [hostIngest_unread hrow hd]
  exact readFails_effect (runs_lt hrow.1)

end Error

end Sys2Proof.Machine
end

section
/-! The statement about ingest (O1). -/

namespace Sys2Proof.Machine

open Sys2Proof

/-- A write to a block that runs takes effect. -/
theorem unlessGated_open {d : Dev} {off : Nat} (h : d.gatedAt off = false) (f : Dev → Dev) : d.unlessGated off f = f d := by
  simp [Dev.unlessGated, h]

theorem ingEnable_writes {k : KeySt} {v : Word} {d : Dev} (hon : bitsAt v 0 1 = 1) (hg : d.gatedAt Reg.ING_CTRL = false) :
    (if bitsAt v 0 1 = 1 then d.unlessGated Reg.ING_CTRL (writeIngCtrl k v) else d) = writeIngCtrl k v d :=
  (if_pos hon).trans (unlessGated_open hg _)

theorem ingDisable_writes {k : KeySt} {v : Word} {d : Dev} (hg : d.gatedAt Reg.ING_CTRL = false)
    (off : (List.range 5).any (fun b => (d.reg Reg.ING_CTRL).toNat.testBit b && !v.toNat.testBit b) = true) :
    (if (List.range 5).any (fun b => (d.reg Reg.ING_CTRL).toNat.testBit b && !v.toNat.testBit b) then
      d.unlessGated Reg.ING_CTRL (writeIngCtrl k v) else d) = writeIngCtrl k v d :=
  (if_pos off).trans (unlessGated_open hg _)

theorem exec_ingEnable (s : State) (v : Word) : exec (.ingEnable v) s
    = s.run 0 (fun k d => if bitsAt v 0 1 = 1 then d.unlessGated Reg.ING_CTRL (writeIngCtrl k v) else d) := rfl

theorem exec_ingDisable (s : State) (v : Word) : exec (.ingDisable v) s
    = s.run 0 (fun k d => if (List.range 5).any (fun b => (d.reg Reg.ING_CTRL).toNat.testBit b && !v.toNat.testBit b) then
      d.unlessGated Reg.ING_CTRL (writeIngCtrl k v) else d) := rfl

theorem exec_ingDrainDone (s : State) (dt : Nat) : exec (.ingDrainDone dt) s = s.run dt (fun _ d => d.drainDone) := rfl

theorem exec_hostIngestTake (s : State) (dt n len : Nat) (f : HostFrame) (resv : Bool) :
    exec (.hostIngestTake dt n len f resv) s = s.run dt (fun _ d => d.hostIngest n len f resv) := rfl

/-- The row of a conversion item on the device. -/
def Dev.conversionRow (d : Dev) (i ecc : Nat) : Dev := match d.runningItem 1 i with | none => d | some r => d.convDone r ecc

theorem exec_conversionItem (s : State) (dt i ecc : Nat) :
    exec (.conversionItem dt i ecc) s = s.run dt (fun _ d => d.conversionRow i ecc) := rfl

theorem conversionRow_idle {d : Dev} {i : Nat} (h : d.runningItem 1 i = none) (ecc : Nat) : d.conversionRow i ecc = d := by
  simp [Dev.conversionRow, h]

theorem conversionRow_runs {d : Dev} {i : Nat} {r : Running} (h : d.plainItem i r) (ecc : Nat) : d.conversionRow i ecc = d.convDone r ecc := by
  simp [Dev.conversionRow, h.1]

/-- Settles O1: a lemma about the device for each clause, and its row of the table. -/
theorem ingestTakesEffect : Obligations.IngestTakesEffect := by
  unfold Obligations.IngestTakesEffect
  refine ⟨?_, ?_, ?_, ?_, ?_, ?_, ?_, ?_, ?_, ?_, ?_, ?_, ?_, ?_, ?_, ?_⟩
  · rintro s v d rfl hg ⟨hon, hwas⟩ ⟨hr, hruns⟩
    obtain ⟨frame, rest⟩ := ingEnable_starts hon hwas hr hruns
    rw [exec_ingEnable]
    exact exists_run_moves (ingEnable_writes hon hg) frame rest
  · rintro s v d rfl hg ⟨hon, hwas⟩ hr
    have refused : Dev.ingestRefused s.key (later s.dev 0) = true := by
      rcases hr with h | h | ⟨h, h'⟩ | h
      · simp [Dev.ingestRefused, h]
      · simp [Dev.ingestRefused, h]
      · simp only [Dev.ingestRefused, h, h']; simp
      · simp only [Dev.ingestRefused, h]; simp
    obtain ⟨frame, rest⟩ := ingEnable_refused hon hwas refused
    rw [exec_ingEnable]
    exact exists_run_moves (ingEnable_writes hon hg) frame rest
  · rintro s v d rfl hg ⟨hon, hwas⟩
    obtain ⟨frame, rest⟩ := ingDisable_stops (k := s.key) hon hwas
    rw [exec_ingDisable]
    exact exists_run_moves (ingDisable_writes hg (any_cleared_of_en hwas (by rw [testBit_zero_iff, hon]; rfl))) frame rest
  · rintro s v d rfl hg ⟨hon, hwas, off⟩
    obtain ⟨frame, rest⟩ := ingDisable_narrows (k := s.key) hon hwas off
    rw [exec_ingDisable]
    exact exists_run_moves (ingDisable_writes hg off) frame rest
  · rintro s dt d rfl ⟨h, hd⟩
    rw [exec_ingDrainDone]
    exact exists_run_moves (drainDone_clears h hd) (only_mono (by simp) (by rintro _ rfl; decide) (setBit_only _ _ _))
      ⟨Dev.bit_setBit_same _ _ _ (by decide) (by decide), bit_setBit_other _ (by decide) (by decide)⟩
  · rintro s dt d rfl h
    rw [exec_ingDrainDone]
    exact run_idle _ _ (drainDone_idle h)
  · rintro s dt n len f resv d rfl hrow hok hb
    obtain ⟨frame, rest⟩ := hostIngest_bad_effect hrow hok hb
    rw [exec_hostIngestTake]
    exact exists_run_moves rfl frame rest
  · rintro s dt n len ecc bytes d rfl hrow hform ⟨chk, hsize, hs⟩
    obtain ⟨frame, rest⟩ := hostIngest_unnamed_effect (ecc := ecc) hrow ⟨hform, chk, hsize⟩ hs
    rw [exec_hostIngestTake]
    exact exists_run_moves rfl frame rest
  · rintro s dt n bytes d i ent st rfl hrow ⟨h2, hmax, hlen, hsync, htype, hver⟩ ⟨chk, hsize, hid⟩ hst htime ⟨htest, hfit⟩
    have hdata : hostData bytes (16 + ent.frameLen) := ⟨⟨by omega, by omega, hlen, hsync, htype, hver⟩, chk, hsize.trans hlen⟩
    obtain ⟨frame, done, stream, counted⟩ := hostIngest_single_good hrow hdata h2 hid hst htime htest hfit
    rw [exec_hostIngestTake]
    refine exists_run_moves rfl (only_mono (fun _ x => x) (fun _ => id) frame) ⟨done, ((later s.dev dt).fetch n).frameItem ent bytes, ?_⟩
    rw [stream]
    exact ⟨rfl, rfl, rfl, rfl, rfl, rfl, rfl, counted⟩
  · rintro s dt n bytes d i ent st rfl ⟨hrun, hready, havail, hen, hq⟩ ⟨h2, hmax, hlen, hsync, htype, hver⟩ ⟨chk, hsize, hid⟩ hst htime htest
    have hdata : hostData bytes (16 + ent.frameLen) := ⟨⟨by omega, by omega, hlen, hsync, htype, hver⟩, chk, hsize.trans hlen⟩
    obtain ⟨frame, rest⟩ := hostIngest_single_ecc ⟨hrun, hready, havail, hen⟩ hdata h2 hid hst htime htest hq
    rw [exec_hostIngestTake]
    exact exists_run_moves rfl frame rest
  · rintro s dt i ecc d rfl hidle
    rw [exec_conversionItem]
    exact run_idle _ _ (conversionRow_idle hidle ecc)
  · rintro s dt i d r it rest rfl ⟨hfifo, hq⟩ hplain
    obtain ⟨frame, rest⟩ := convDone_uncorr_effect hplain hfifo hq
    rw [exec_conversionItem]
    exact exists_run_moves (conversionRow_runs hplain _) frame rest
  · rintro s dt i e d r it rest b ent rfl ⟨hfifo, hb, he, -⟩ hgrid ⟨hr, hf, hs, ho, hfree⟩ hplain h10
    have htakes : (later s.dev dt).takesAt ent e it.tag := ⟨hgrid, hr, hf, hs, ho⟩
    have hnone := Option.isNone_iff_eq_none.mp hfree
    have frame := convDone_stores_only hplain hfifo hb he h10 htakes hnone
    obtain ⟨fifo, committed, port⟩ := convDone_stores_stream hplain hfifo hb he h10 htakes hnone
    obtain ⟨held, others, crt, sealed⟩ := convDone_stores_crater hplain hfifo hb he h10 htakes hnone
    rw [exec_conversionItem]
    refine exists_run_moves (conversionRow_runs hplain _) frame ⟨fifo, committed, port, ?_, others, ?_, ?_, ?_, sealed⟩
    · rw [held]; rfl
    · rw [crt]
    · rw [crt]
    · rw [crt]
  · rintro s dt i e d r it rest b ent rfl ⟨hfifo, hb, he, -⟩ hgrid ⟨hr, hf, hs, ho, hheld⟩ hplain h10
    obtain ⟨frame, rest⟩ := convDone_duplicate_effect hplain hfifo hb he h10 ⟨hgrid, hr, hf, hs, ho⟩ hheld
    rw [exec_conversionItem]
    exact exists_run_moves (conversionRow_runs hplain _) frame rest
  · rintro s dt n len f d rfl hrow ⟨hdesc, hframe, hlen⟩
    obtain ⟨frame, rest⟩ := hostIngest_noFrame_effect hrow ⟨hdesc, hframe⟩ hlen
    rw [exec_hostIngestTake]
    exact exists_run_moves rfl frame rest
  · rintro s dt n len f resv d rfl hrow hdesc
    obtain ⟨frame, rest⟩ := hostIngest_unread_effect hrow hdesc
    rw [exec_hostIngestTake]
    exact exists_run_moves rfl frame rest

end Sys2Proof.Machine
end

section
/-! Proofs about STREAM_CLR (R81, R82, R91): the clear that becomes pending, and the statement's clause on it, which does not say that no epoch
is confirmed before it is sealed. -/

namespace Sys2Proof.Machine

open Sys2Proof

/-! ## What leaves a stream -/

/-- The answer of a command leaves the streams. -/
theorem stream_served {s : State} {c : Ctx} (hc : c.ring < 32) (x : Dev) (r : CmdRes) (i : Nat) :
    (served s c x r).dev.stream i = x.stream i :=
  stream_of_ing (only_ing (answer_only x c hc _ _ r) (by simp)) i

theorem stream_refreshAlloc (d : Dev) (i : Nat) : d.refreshAlloc.stream i = d.stream i := stream_of_ing rfl i

theorem stream_modStream_same (d : Dev) (i : Nat) (f : StreamSt → StreamSt) : (d.modStream i f).stream i = f (d.stream i) :=
  stream_setStream_same d i _

/-! ## What a change makes of a table entry (R81, R82) -/

section Change

variable {α : Type} {d : Dev} {h : Held α} (free : h.pend = none)

include free

/-- IMMEDIATE in a run: from the next epoch to be sealed. -/
theorem change_immediate_pends (hruns : d.craterRuns = true) (eff : Nat) (new : Option α) :
    d.change h eff true new = .ok { cur := h.cur, pend := some (d.crt.nextSeal % 2 ^ 32, new) } := by
  simp [Dev.change, free, hruns]

/-- From its effective epoch, unless that is sealed or stands for a first epoch of the run that is confirmed. -/
theorem change_pends {eff : Nat} (hsealed : d.effSealed eff = false) (hconf : d.effBefore eff = false ∨ d.crt.nextConf ≤ d.crt.first)
    (new : Option α) : d.change h eff false new = .ok { cur := h.cur, pend := some (eff, new) } := by
  have unconfirmed : (d.effBefore eff && decide (d.crt.first < d.crt.nextConf)) = false := by
    rcases hconf with hb | hc
    · simp [hb]
    · simp [hc]
  simp [Dev.change, free, hsealed, unconfirmed]

end Change

/-! ## A clear that becomes pending -/

/-- Where no check fails there is no status of a refusal. -/
theorem firstStatus_nil : firstStatus [] = none := rfl

section Clear

variable {d : Dev} {i eff : Nat} {imm : Bool} {e : StreamEntry}

/-- With a valid entry, none pending, and an effective epoch not sealed, no check of STREAM_CLR refuses: the change decides, and the FIFO keeps
its items where that is pending and no seal of the run has passed from the effective epoch on. -/
theorem streamClr_pends {h : Held StreamEntry} (hi : i ≤ 8191) (hentry : (d.stream i).entry = { cur := some e, pend := none })
    (hwait : (d.stream i).awaiting = none) (hlate : imm = true ∨ d.effSealed eff = false)
    (hchange : d.change { cur := some e, pend := none } eff imm none = .ok h) (hpend : h.pend.isSome = true)
    (hseal : imm = true ∨ d.effBefore eff = false ∨ d.crt.nextSeal ≤ d.crt.first) :
    streamClr i eff imm d = ((d.modStream i (fun x => { x with entry := h })).refreshAlloc, .ok) := by
  have notLate : ¬ (imm = false ∧ d.effSealed eff = true) := by
    rintro ⟨rfl, hs⟩
    simp [hs] at hlate
  have valid : ¬ (8191 < i ∨ (some e).isNone = true) := by simpa using hi
  have keeps : (h.pend.isSome && !(!imm && d.effBefore eff && decide (d.crt.first < d.crt.nextSeal))) = true := by
    rcases hseal with h1 | h1 | h1 <;> simp [hpend, h1]
  simp only [streamClr, hentry, hwait, Held.newest, if_neg notLate, if_neg valid, hchange, if_pos keeps, if_pos hpend]
  simp [firstStatus_nil]

/-- What the statement's clause says holds where no epoch is confirmed before it is sealed. -/
theorem exec_streamClr_pends {s : State} {c : Ctx} (hr : ready s.dev c.ring false none) (hd : d = fetched s.dev c.ring) (hi : i ≤ 8191)
    (hentry : (d.stream i).entry = { cur := some e, pend := none }) (hwait : (d.stream i).awaiting = none)
    (heff : (imm = false ∧ d.effSealed eff = false ∧ (d.effBefore eff = false ∨ d.crt.nextSeal ≤ d.crt.first))
      ∨ (imm = true ∧ d.craterRuns = true)) (hconf : d.crt.nextConf ≤ d.crt.nextSeal) :
    exec (.streamClr c i eff imm) s = .next (served s c ((d.modStream i (fun x => { x with entry :=
      { cur := some e, pend := some (if imm then d.crt.nextSeal % 2 ^ 32 else eff, none) } })).refreshAlloc) (.done sOk 0)) := by
  subst hd
  refine (run_accept_ready (fun _ => streamClr i eff imm) hr).trans ?_
  rcases heff with ⟨rfl, hsealed, hbefore⟩ | ⟨rfl, hruns⟩
  · have change := change_pends (h := { cur := some e, pend := none }) rfl hsealed (hbefore.imp_right hconf.trans) none
    rw [streamClr_pends hi hentry hwait (.inr hsealed) change rfl (.inr hbefore)]
    rfl
  · have change := change_immediate_pends (h := { cur := some e, pend := none }) rfl hruns eff none
    rw [streamClr_pends hi hentry hwait (.inl rfl) change rfl (.inl rfl)]
    rfl

end Clear

/-! ## A clear in a run whose first epoch is confirmed before it is sealed -/

/-- The context of a command on ring 0. -/
def ringZero : Ctx := { ring := 0, tag := 0, resAddr := 0 }

/-- A C37_HOST entry of one channel. -/
def hostEntry : StreamEntry :=
  { type := 1, authReq := false, testAccept := false, portMask := 0, prio := 0, vlanId := 0, vlanAny := false, srcId := 1, udpPort := 0
    srcAddr := zeros 16, chanBase := 0, nchan := 1, frate := 50, primary := 0, mirror := 0, keySlot := 0, staleN := 1, fifoCells := 4
    outIdcode := 0, frameLen := 4, pmuBlk := 0, format := 0, timeBase := 1000, svidCrc := 0, cfgSig := 0, phnmr := 0, annmr := 0, dgnmr := 0 }

/-- A device whose COMMAND ring 0 runs with one descriptor posted; the command rings are served. -/
def commandRingDev : Dev :=
  (((((({} : Dev).setFld (Fld.HIF_RINGn_CFG_KIND 0) 1).setBit (Fld.HIF_RINGn_CFG_EN 0) true).setFld (Fld.HIF_RINGn_STAT_STATE 0) 1).setBit
    Fld.HIF_STATUS_CMD_READY true).setRegN (Reg.HIF_RINGn_POSTED 0) 1)

/-- Stream 0 is in force, and Crater runs from epoch 1, which is confirmed though it is not sealed. -/
def confirmedUnsealed : State :=
  { key := {}, pending := [], dev := ((commandRingDev.setBit Fld.CRT_STATUS_RUNNING true).modCrt (fun q =>
      { q with first := 1, nextSeal := 1, nextConf := 2 })).setStream 0 { entry := { cur := some hostEntry } } }

theorem confirmedUnsealed_ready : ready confirmedUnsealed.dev ringZero.ring false none := by
  unfold ready
  decide +kernel

/-- The effective epoch 0 lies before the run, and the run's first epoch is confirmed: the clear takes effect at once, so nothing is pending. -/
theorem confirmedUnsealed_clears {t : State} (h : exec (.streamClr ringZero 0 0 false) confirmedUnsealed = .next t) :
    (t.dev.stream 0).entry.pend = none := by
  rw [dev_of_run (f := fun _ d => d.accept ringZero false none (streamClr 0 0 false)) h]
  decide +kernel

/-- Refutes O2: its clause on a STREAM_CLR that becomes pending does not ask that no epoch is confirmed before it is sealed. Where the run's
first epoch is the next to be sealed and yet confirmed, a clear from before the run takes effect at once. With that asked the clause holds:
`exec_streamClr_pends`. -/
theorem not_streamCommandsComplete : ¬ Obligations.StreamCommandsComplete := by
  unfold Obligations.StreamCommandsComplete
  rintro ⟨-, -, -, -, -, -, -, clearPends, -⟩
  have step := clearPends confirmedUnsealed ringZero _ 0 0 false hostEntry confirmedUnsealed_ready rfl (by decide +kernel)
    (.inl (by decide +kernel))
  have cleared := confirmedUnsealed_clears step
  rw [stream_served (by decide), stream_refreshAlloc, stream_modStream_same] at cleared
  cases cleared

end Sys2Proof.Machine
end

section
/-! Proofs about the commands of the history (R136, R137, R140). -/

namespace Sys2Proof.Machine

open Sys2Proof

/-! ## HIST_READ (R136) -/

section HistRead

variable {d : Dev} {e : Nat} {buf : HostBuf}

theorem histRead_of_held {x : HistSnap} (hx : d.crt.snaps.find? (fun y => decide (y.epoch = e)) = some x) (hlen : x.bytes.length ≤ buf.len) :
    histRead e buf d
      = (d.emit (.hostWrite buf.addr x.bytes), .done sOk (d.crt.amends.filter (fun a => decide (a.1 = e))).length) := by
  simp only [histRead, hx, if_neg hlen.not_gt]

theorem histRead_of_short {x : HistSnap} (hx : d.crt.snaps.find? (fun y => decide (y.epoch = e)) = some x) (hlen : buf.len < x.bytes.length) :
    histRead e buf d = (d, .done sRange 0) := by
  simp only [histRead, hx, if_pos hlen]

theorem histRead_of_overwritten {lo hi : Nat} (hx : d.crt.snaps.find? (fun y => decide (y.epoch = e)) = none)
    (hmem : (lo, hi) ∈ d.crt.overRuns) (hlo : lo ≤ e) (hhi : e ≤ hi) : histRead e buf d = (d, .done sLost 0) := by
  have lost : d.crt.overRuns.any (fun o => decide (o.1 ≤ e) && decide (e ≤ o.2)) = true :=
    List.any_eq_true.mpr ⟨(lo, hi), hmem, by simp [hlo, hhi]⟩
  simp only [histRead, hx, if_pos lost]

/-- Log 165: an epoch neither held nor overwritten answers S_NOT_VALID, whether or not it was ever delivered. -/
theorem histRead_of_absent (hx : d.crt.snaps.find? (fun y => decide (y.epoch = e)) = none)
    (hall : d.crt.overRuns.all (fun o => decide (e < o.1 ∨ o.2 < e)) = true) : histRead e buf d = (d, .done sNotValid 0) := by
  have kept : ¬ d.crt.overRuns.any (fun o => decide (o.1 ≤ e) && decide (e ≤ o.2)) = true := by
    intro lost
    obtain ⟨o, ho, hin⟩ := List.any_eq_true.mp lost
    have hout := List.all_eq_true.mp hall o ho
    simp only [Bool.and_eq_true, decide_eq_true_eq] at hin hout
    omega
  simp only [histRead, hx, if_neg kept]

end HistRead

/-! ## AMEND_READ (R137) -/

section AmendRead

variable {d : Dev} {i e addr : Nat}

theorem amendRead_of_held {a : Nat × Amendment} (hi : i < 8192)
    (ha : d.crt.amends.find? (fun y => decide (y.2.record.stream = i) && decide (y.1 = e)) = some a) :
    amendRead i e addr d = (d, .block (a.2.bytes false) (some addr)) := by
  rw [amendRead, if_neg (by omega), ha]

theorem amendRead_of_absent (hi : i < 8192)
    (ha : d.crt.amends.find? (fun y => decide (y.2.record.stream = i) && decide (y.1 = e)) = none) :
    amendRead i e addr d = (d, .done (if d.crt.amendLost.contains (i, e) then sLost else sNotValid) 0) := by
  rw [amendRead, if_neg (by omega), ha]

theorem amendRead_of_outOfRange (hi : 8192 ≤ i) : amendRead i e addr d = (d, .done sRange 0) := if_pos hi

end AmendRead

/-! ## The two rows on a ring -/

theorem exec_histRead {s : State} {c : Ctx} (hr : ready s.dev c.ring false none) {e : Nat} {buf : HostBuf} {res : Dev × CmdRes}
    (h : histRead e buf (fetched s.dev c.ring) = res) : exec (.histRead c e buf) s = .next (served s c res.1 res.2) := by
  subst h
  exact run_accept_ready (fun _ => histRead e buf) hr

theorem exec_amendRead {s : State} {c : Ctx} (hr : ready s.dev c.ring false none) {i e addr : Nat} {res : Dev × CmdRes}
    (h : amendRead i e addr (fetched s.dev c.ring) = res) : exec (.amendRead c i e addr) s = .next (served s c res.1 res.2) := by
  subst h
  exact run_accept_ready (fun _ => amendRead i e addr) hr

/-- Settles O42: each command is accepted, and what the history and the amendment log hold decides its answer. -/
theorem historyCommandsComplete : Obligations.HistoryCommandsComplete := by
  unfold Obligations.HistoryCommandsComplete
  refine ⟨?_, ?_, ?_, ?_, ?_, ?_, ?_⟩
  · rintro s c e buf d x hr rfl ⟨hx, hlen⟩
    exact exec_histRead hr (histRead_of_held hx hlen)
  · rintro s c e buf d x hr rfl ⟨hx, hlen⟩
    exact exec_histRead hr (histRead_of_short hx hlen)
  · rintro s c e lo hi buf d hr rfl ⟨hx, hmem, hlo, hhi⟩
    exact exec_histRead hr (histRead_of_overwritten hx hmem hlo hhi)
  · rintro s c e buf d hr rfl ⟨hx, hall⟩
    exact exec_histRead hr (histRead_of_absent hx hall)
  · rintro s c i e addr d a hr rfl ⟨hi, ha⟩
    exact exec_amendRead hr (amendRead_of_held hi ha)
  · rintro s c i e addr d hr rfl ⟨hi, ha⟩
    exact exec_amendRead hr (amendRead_of_absent hi ha)
  · rintro s c i e addr d hr rfl hi
    exact exec_amendRead hr (amendRead_of_outOfRange hi)

end Sys2Proof.Machine
end

section
/-! Proofs about the hardware scheduler: what the service of a producer's item moves where no item in service is a rerun and no image is being
switched (R329 to R337). -/

namespace Sys2Proof.Machine

open Sys2Proof

/-! ## What the scheduler's operations keep -/

/-- The registers of the scheduler. -/
def schReg (o : Nat) : Prop := o / 0x1000 = 0x0d0

/-- The items that are queued, in a prefetch slot or in service. -/
def SchSt.items (s : SchSt) : List QItem := s.queue ++ s.slots.map (fun x => x.2) ++ s.service.map (fun r => r.q)

theorem mem_items {s : SchSt} {q : QItem} :
    q ∈ s.items ↔ q ∈ s.queue ∨ (∃ x ∈ s.slots, x.2 = q) ∨ ∃ r ∈ s.service, r.q = q := by
  simp only [SchSt.items, List.mem_append, List.mem_map, or_assoc]

theorem mem_items_of_queue {s : SchSt} {q : QItem} (h : q ∈ s.queue) : q ∈ s.items := mem_items.mpr (.inl h)

theorem mem_items_of_slots {s : SchSt} {x : Nat × QItem} (h : x ∈ s.slots) : x.2 ∈ s.items := mem_items.mpr (.inr (.inl ⟨x, h, rfl⟩))

theorem mem_items_of_service {s : SchSt} {r : Running} (h : r ∈ s.service) : r.q ∈ s.items := mem_items.mpr (.inr (.inr ⟨r, h, rfl⟩))

/-- Every item of `P` that the scheduler holds runs for the first time. -/
def firstRuns (P : WorkItem → Prop) (s : SchSt) : Prop := ∀ q ∈ s.items, P q.item → q.avoid = none

/-- From `d` to `t` the scheduler alone has moved; no switch of an image has begun or ended, and no item of `P` has become a rerun. -/
def schedules (P : WorkItem → Prop) (d t : Dev) : Prop :=
  only [.regs, .sch] schReg d t ∧ t.sch.switching = d.sch.switching ∧ (firstRuns P d.sch → firstRuns P t.sch)

variable {P : WorkItem → Prop} {d t : Dev}

theorem schedules_refl (d : Dev) : schedules P d d := ⟨only_refl _ _ _, rfl, id⟩

theorem schedules_trans {a b c : Dev} (h : schedules P a b) (k : schedules P b c) : schedules P a c :=
  ⟨only_trans h.1 k.1, k.2.1.trans h.2.1, k.2.2 ∘ h.2.2⟩

theorem schedules_ite {c : Prop} [Decidable c] {a b : Dev} (h : schedules P d a) (k : schedules P d b) :
    schedules P d (if c then a else b) := by
  split <;> assumption

/-- An operation that leaves the scheduler's lists. -/
theorem schedules_of_items (h : only [.regs, .sch] schReg d t) (switching : t.sch.switching = d.sch.switching)
    (items : t.sch.items = d.sch.items) : schedules P d t := ⟨h, switching, by rw [firstRuns, firstRuns, items]; exact id⟩

theorem schedules_of_regs {p : Nat → Prop} (h : only [.regs] p d t) (hp : ∀ o, p o → schReg o) : schedules P d t := by
  have sch : t.sch = d.sch := by
    obtain ⟨-, -, -, -, -, -, -, -, -, -, -, kept, -⟩ := h.1
    exact kept (by simp)
  exact schedules_of_items (only_mono (by simp) hp h) (by rw [sch]) (by rw [sch])

theorem count_schedules (d : Dev) {o : Nat} (h : schReg o) (n : Nat) : schedules P d (d.count o n) :=
  schedules_of_regs (count_only d o n) (by rintro _ rfl; exact h)

theorem count64_schedules (d : Dev) {o : Nat} (h : schReg o) (h' : schReg (o + 4)) (n : Nat) : schedules P d (d.count64 o n) :=
  schedules_of_regs (count64_only d o n) (by rintro _ (rfl | rfl) <;> assumption)

theorem refreshSch_schedules (d : Dev) : schedules P d d.refreshSch :=
  schedules_of_regs (refreshSch_only d) (by rintro _ rfl; unfold schReg; decide)

/-- A change of the scheduler that holds no item but those it held, and first runs. -/
theorem modSch_schedules {f : SchSt → SchSt} (switching : (f d.sch).switching = d.sch.switching)
    (items : firstRuns P d.sch → firstRuns P (f d.sch)) : schedules P d (d.modSch f) :=
  ⟨only_wider (modSch_only d f _) (by simp), switching, items⟩

theorem keepTrace_items (d : Dev) (b : Bytes) : (d.keepTrace b).sch.items = d.sch.items := by
  unfold Dev.keepTrace
  simp only
  split <;> rfl

theorem traceEv_items (d : Dev) (kind engine : Nat) (w : WorkItem) (bank ns : Nat) :
    (d.traceEv kind engine w bank ns).sch.items = d.sch.items := by
  unfold Dev.traceEv
  simp only
  split
  · split
    · rfl
    · exact keepTrace_items _ _
  · rfl

theorem traceEv_schedules (d : Dev) (kind engine : Nat) (w : WorkItem) (bank ns : Nat) :
    schedules P d (d.traceEv kind engine w bank ns) := by
  obtain ⟨-, switching⟩ := traceEv_switching d kind engine w bank ns
  exact schedules_of_items (only_mono (by simp) (by rintro _ rfl; unfold schReg; decide) (traceEv_only d kind engine w bank ns))
    switching (traceEv_items _ _ _ _ _ _)

/-! ## Queue -/

theorem enqueueItem_schedules (d : Dev) (i : WorkItem) : schedules P d (d.enqueueItem i) := by
  unfold Dev.enqueueItem
  refine schedules_trans (modSch_schedules (d := d) rfl fun h q hq => ?_) (refreshSch_schedules _)
  rcases mem_items.mp hq with hq | ⟨x, hx, rfl⟩ | ⟨r, hr, rfl⟩
  · rcases List.mem_append.mp hq with hq | hq
    · exact h q (mem_items_of_queue hq)
    · rw [List.mem_singleton.mp hq]
      exact fun _ => rfl
  · exact h x.2 (mem_items_of_slots hx)
  · exact h r.q (mem_items_of_service hr)

/-- What a hardware producer keeps is no item of the scheduler's. -/
theorem keepRefused_schedules (d : Dev) (l : List WorkItem → List WorkItem) :
    schedules P d (d.modSch fun s => { s with refused := l s.refused }) := modSch_schedules rfl id

theorem emit_schedules (d : Dev) (o : Out) : schedules P d (d.emit o) :=
  schedules_of_items (only_of_kept (keptBut_mono (by simp) (emit_kept d o)) rfl) rfl rfl

theorem offer_schedules (d : Dev) (i : WorkItem) : schedules P d (d.offer i).1 := by
  unfold Dev.offer
  simp only
  split
  · exact enqueueItem_schedules d i
  · have refused := schedules_trans (P := P) (count_schedules d (o := Reg.SCH_REFUSED) (by unfold schReg; decide) 1)
      (traceEv_schedules _ 5 0xFF i 0 0)
    exact schedules_ite (schedules_trans refused (emit_schedules _ _)) (schedules_trans refused (keepRefused_schedules _ (· ++ [i])))

theorem reoffer_schedules (d : Dev) : schedules P d d.reoffer :=
  schedules_trans (keepRefused_schedules d (fun _ => [])) <|
    foldl_keeps schedules_refl schedules_trans (fun x i => schedules_ite (enqueueItem_schedules x i) (keepRefused_schedules x (· ++ [i]))) _ _

/-! ## Dispatch -/

theorem bestOf_mem {l : List QItem} {q : QItem} (h : bestOf l = some q) : q ∈ l := by
  have inv (l : List QItem) (m : Option QItem) (h : l.foldl (fun m q => match m with | none => some q | some x => some (better x q)) m = some q) :
      m = some q ∨ q ∈ l := by
    induction l generalizing m with
    | nil => exact .inl h
    | cons a l ih =>
      rcases ih _ h with e | e
      · cases m with
        | none => cases e; simp
        | some x =>
          simp only [Option.some.injEq, better] at e
          split at e
          · exact .inl (congrArg some e)
          · simp [e]
      · simp [e]
  exact (inv l none h).resolve_left (by simp)

theorem nextItem_mem {cls : Nat} {engines : List Nat} {q : QItem} (h : d.nextItem cls engines = some q) : q ∈ d.sch.queue :=
  List.mem_of_mem_filter (bestOf_mem h)

/-- The queue without an item, which a slot takes. -/
theorem fillSlot_schedules (d : Dev) (e : Nat) : schedules P d (d.fillSlot e) := by
  unfold Dev.fillSlot
  split
  · split
    · exact schedules_refl d
    · rename_i q hq
      refine schedules_trans (modSch_schedules (d := d) rfl fun h x hx => ?_) (traceEv_schedules _ _ _ _ _ _)
      rcases mem_items.mp hx with hx | ⟨y, hy, rfl⟩ | ⟨r, hr, rfl⟩
      · exact h x (mem_items_of_queue (List.mem_of_mem_filter hx))
      · rcases Tbl.mem_put hy with rfl | hy
        · exact h q (mem_items_of_queue (nextItem_mem hq))
        · exact h y.2 (mem_items_of_slots hy)
      · exact h r.q (mem_items_of_service hr)
  · exact schedules_refl d

theorem moveFlow_schedules (d : Dev) (e : Nat) (i : WorkItem) (bank : Nat) : schedules P d (d.moveFlow e i bank) := by
  unfold Dev.moveFlow
  split
  · exact schedules_trans (modSch_schedules (d := d) rfl id) (traceEv_schedules _ _ _ _ _ _)
  · exact schedules_refl d

theorem moveFlow_items (d : Dev) (e : Nat) (i : WorkItem) (bank : Nat) : (d.moveFlow e i bank).sch.items = d.sch.items := by
  unfold Dev.moveFlow
  split
  · exact traceEv_items _ _ _ _ _ _
  · rfl

/-- An item enters service: a first run, where `P` speaks of it. -/
theorem firstRuns_serviced {s t : SchSt} {r : Running} (queue : ∀ q ∈ t.queue, q ∈ s.queue) (slots : t.slots = s.slots)
    (service : t.service = s.service ++ [r]) (first : firstRuns P s → P r.q.item → r.q.avoid = none) (h : firstRuns P s) :
    firstRuns P t := by
  intro x hx
  rw [mem_items, slots, service] at hx
  rcases hx with hx | ⟨y, hy, rfl⟩ | ⟨y, hy, rfl⟩
  · exact h x (mem_items_of_queue (queue x hx))
  · exact h y.2 (mem_items_of_slots hy)
  · rcases List.mem_append.mp hy with hy | hy
    · exact h y.q (mem_items_of_service hy)
    · rw [List.mem_singleton.mp hy]
      exact first h

/-- An item starts on an engine: a first run, where `P` speaks of it. -/
theorem startOn_schedules (d : Dev) (e : Nat) {q : QItem} (first : firstRuns P d.sch → P q.item → q.avoid = none) :
    schedules P d (d.startOn e q) := by
  unfold Dev.startOn
  simp only
  refine schedules_trans (moveFlow_schedules d e q.item (d.dispatchBank q.item.cls)) ?_
  have first' : firstRuns P (d.moveFlow e q.item (d.dispatchBank q.item.cls)).sch → P q.item → q.avoid = none := by
    rwa [firstRuns, moveFlow_items]
  generalize d.moveFlow e q.item (d.dispatchBank q.item.cls) = d1 at first' ⊢
  refine schedules_trans ?_ (schedules_trans (traceEv_schedules _ _ _ _ _ _) (schedules_trans (fillSlot_schedules _ _)
    (schedules_trans (reoffer_schedules _) (refreshSch_schedules _))))
  refine schedules_trans ?_ (count64_schedules _ (by unfold schReg; decide) (by unfold schReg; decide) _)
  exact modSch_schedules rfl (firstRuns_serviced (fun _ h => List.mem_of_mem_filter h) rfl rfl first')

/-- A change of what is in service that leaves each item and what it runs for. -/
theorem modService_schedules (d : Dev) {f : Running → Running} (h : ∀ r, (f r).q.item = r.q.item ∧ (f r).q.avoid = r.q.avoid) :
    schedules P d (d.modSch fun s => { s with service := d.sch.service.map f }) := by
  refine modSch_schedules rfl fun first x hx => ?_
  rcases mem_items.mp hx with hx | ⟨y, hy, rfl⟩ | ⟨y, hy, rfl⟩
  · exact first x (mem_items_of_queue hx)
  · exact first y.2 (mem_items_of_slots hy)
  · obtain ⟨r, hr, rfl⟩ := List.mem_map.mp hy
    rw [(h r).1, (h r).2]
    exact first r.q (mem_items_of_service hr)

theorem resumeOn_schedules (d : Dev) (e : Nat) (q : QItem) : schedules P d (d.resumeOn e q) :=
  schedules_trans (modService_schedules d fun r => by split <;> exact ⟨rfl, rfl⟩) (traceEv_schedules _ _ _ _ _ _)

theorem dispatch_schedules (d : Dev) (cls : Nat) : schedules P d (d.dispatch cls) := by
  have resumes (q : QItem) : schedules P d (match (d.freeEngines cls).find? (d.mayRun q) with | none => d | some e => d.resumeOn e q) := by
    split
    · exact schedules_refl d
    · exact resumeOn_schedules d _ q
  unfold Dev.dispatch
  simp only
  split
  · exact schedules_refl d
  · exact resumes _
  · rename_i q hq
    split
    · exact resumes _
    · split
      · exact schedules_refl d
      · exact startOn_schedules d _ fun first => first q (mem_items_of_queue (nextItem_mem hq))

theorem preempt_schedules (d : Dev) (cls : Nat) : schedules P d (d.preempt cls) := by
  unfold Dev.preempt
  split
  · rename_i q _ hq
    split
    · exact schedules_refl d
    · rename_i v _
      refine schedules_ite ?_ (schedules_refl d)
      refine schedules_trans ?_ (startOn_schedules _ _ fun first => first q ?_)
      · refine schedules_trans ?_ (schedules_trans (count64_schedules _ (by unfold schReg; decide) (by unfold schReg; decide) _)
          (traceEv_schedules _ _ _ _ _ _))
        exact modService_schedules d fun r => by split <;> exact ⟨rfl, rfl⟩
      · rw [traceEv_items]
        exact mem_items_of_queue (nextItem_mem (d := d) hq)
  · exact schedules_refl d

/-! ## Service (R329, R339) -/

/-- The scheduler once an item has left service. -/
def Dev.leaveService (d : Dev) (r : Running) : Dev :=
  d.modSch fun s => { s with service := d.sch.service.filter (fun x => decide (x.q.order ≠ r.q.order)) }

/-- An engine takes the item of its slot, if it has one. -/
def Dev.takeSlot (d : Dev) (e : Nat) : Dev :=
  match d.sch.slots.find e with
  | none => d
  | some q => Dev.startOn (d.modSch fun s => { s with slots := d.sch.slots.drop e }) e q

theorem endService_eq (d : Dev) (r : Running) :
    d.endService r = (((d.leaveService r).takeSlot r.engine).finishSwitch r.q.item.cls).refreshSch := rfl

/-- Of the slot's item nothing is said. -/
theorem takeSlot_schedules (d : Dev) (e : Nat) : schedules (fun _ => False) d (d.takeSlot e) := by
  unfold Dev.takeSlot
  split
  · exact schedules_refl d
  · exact schedules_trans (modSch_schedules rfl fun _ _ _ => False.elim) (startOn_schedules _ _ fun _ => False.elim)

theorem endService_only (d : Dev) (still : d.sch.switching.all (fun x => x.isNone) = true) (r : Running) :
    only [.regs, .sch] schReg d (d.endService r) := by
  have left : schedules (fun _ => False) d (d.leaveService r) := modSch_schedules rfl fun _ _ _ => False.elim
  have taken := schedules_trans left (takeSlot_schedules _ r.engine)
  rw [endService_eq, finishSwitch_idle (by rw [taken.2.1]; exact still)]
  exact (schedules_trans taken (refreshSch_schedules _)).1

/-- The completion of an item that runs for the first time. -/
theorem complete'_first_only (d : Dev) (still : d.sch.switching.all (fun x => x.isNone) = true) {r : Running} (first : r.q.avoid = none) :
    only [.regs, .sch] schReg d (d.complete' r) := by
  have traced := traceEv_schedules (P := fun _ => False) d 3 r.engine r.q.item r.bank (d.ranOf r)
  unfold Dev.complete'
  simp only [first]
  exact only_trans traced.1 (endService_only _ (by rw [traced.2.1]; exact still) r)

theorem runningItem_some {origin tag : Nat} {r : Running} (h : d.runningItem origin tag = some r) :
    r ∈ d.sch.service ∧ r.q.item.origin = origin ∧ r.q.item.tag = tag := by
  have found := List.find?_some h
  simp only [Bool.and_eq_true, decide_eq_true_eq] at found
  exact ⟨List.mem_of_find?_eq_some h, found.1⟩

/-- A producer's item that the scheduler does not hold cannot be a rerun. -/
theorem firstRuns_of_not_held {origin tag : Nat} (h : d.itemHeld origin tag = false) :
    firstRuns (fun i => i.origin = origin ∧ i.tag = tag % 2 ^ 32) d.sch := by
  rintro q hq hP
  rw [Dev.itemHeld, List.any_eq_false] at h
  refine absurd ?_ (h q.item ?_)
  · simpa using hP
  · rcases mem_items.mp hq with hq | ⟨x, hx, rfl⟩ | ⟨r, hr, rfl⟩
    · simp only [List.mem_append, List.mem_map]
      exact .inl (.inl (.inr ⟨q, hq, rfl⟩))
    · simp only [List.mem_append, List.mem_map]
      exact .inl (.inr ⟨x, hx, rfl⟩)
    · simp only [List.mem_append, List.mem_map]
      exact .inr ⟨r, hr, rfl⟩

/-- The service of a producer's item moves the scheduler alone, where no item in service is a rerun and no image is being switched. -/
theorem serve_only (calm : d.calm = true) (origin tag : Nat) : only [.regs, .sch] schReg d (d.serve origin tag).1 := by
  simp only [Dev.calm, Bool.and_eq_true] at calm
  obtain ⟨first, still⟩ := calm
  unfold Dev.serve
  split
  · rename_i r hr
    have none_avoided := List.all_eq_true.mp first r (runningItem_some hr).1
    exact complete'_first_only d still (Option.isNone_iff_eq_none.mp none_avoided)
  · split
    · exact only_refl _ _ _
    · rename_i i _
      split
      · exact only_refl _ _ _
      · rename_i held
        have firsts := firstRuns_of_not_held (Bool.eq_false_iff.mpr held)
        have offered := offer_schedules (P := fun i => i.origin = origin ∧ i.tag = tag % 2 ^ 32) d i
        simp only
        generalize (d.offer i).1 = d1 at offered ⊢
        have dispatched := schedules_trans offered (schedules_ite (c := (d1.freeEngines i.cls).isEmpty = true)
          (preempt_schedules d1 i.cls) (dispatch_schedules d1 i.cls))
        generalize (if (d1.freeEngines i.cls).isEmpty = true then d1.preempt i.cls else d1.dispatch i.cls) = d2 at dispatched ⊢
        obtain ⟨moved, switching, stay⟩ := dispatched
        split
        · rename_i r hr
          obtain ⟨mem, named⟩ := runningItem_some hr
          have none_avoided := stay firsts r.q (mem_items_of_service mem) named
          exact only_trans moved (complete'_first_only d2 (by rw [switching]; exact still) none_avoided)
        · exact moved

end Sys2Proof.Machine
end

section
/-! Proofs about the oscillation trackers: the parts of the device that their operations move, and what each leaves of the trackers (R150 to R169). -/

namespace Sys2Proof.Machine

open Sys2Proof

/-! ## Bands and slots -/

theorem modOsc_only (d : Dev) (f : OscSt → OscSt) (p : Nat → Prop) : only [.osc] p d (d.modOsc f) :=
  only_of_kept (by simp [keptBut, Dev.modOsc]) rfl

theorem setBand_only (d : Dev) (b : Nat) (x : BandSt) (p : Nat → Prop) : only [.osc] p d (d.setBand b x) := modOsc_only _ _ _

@[simp] theorem band_setBand_same (d : Dev) (b : Nat) (x : BandSt) : (d.setBand b x).band b = x := by
  by_cases hb : b = 0 <;> simp [Dev.band, Dev.setBand, hb]

theorem band_zero (d : Dev) : d.band 0 = d.osc.em := rfl

theorem band_one (d : Dev) : d.band 1 = d.osc.sso := rfl

theorem em_setBand_one (d : Dev) (x : BandSt) : (d.setBand 1 x).osc.em = d.osc.em := rfl

theorem band_of_osc {d t : Dev} (h : t.osc = d.osc) (b : Nat) : t.band b = d.band b := by rw [Dev.band, h, Dev.band]

section Parts

variable {l : List Part} {p : Nat → Prop} {d t : Dev} (h : only l p d t)

include h

theorem only_osc (hn : Part.osc ∉ l) : t.osc = d.osc := by obtain ⟨-, -, -, -, osc, -⟩ := h.1; exact osc hn

end Parts

/-- From `d` to `t` the mode slots alone have changed. -/
def slotsOnly (d t : Dev) : Prop := ∃ slots, t = d.modOsc (fun o => { o with slots := slots })

theorem slotsOnly_refl (d : Dev) : slotsOnly d d := ⟨d.osc.slots, rfl⟩

theorem slotsOnly_trans {a b c : Dev} (h : slotsOnly a b) (k : slotsOnly b c) : slotsOnly a c := by
  obtain ⟨_, rfl⟩ := h
  obtain ⟨_, rfl⟩ := k
  exact ⟨_, rfl⟩

theorem setSlotMode_slots (d : Dev) (i : Nat) (m : Option ModeSlot) : slotsOnly d (d.setSlotMode i m) := ⟨_, rfl⟩

theorem foldl_slots {α : Type} {f : Dev → α → Dev} (step : ∀ x a, slotsOnly x (f x a)) (l : List α) (d : Dev) : slotsOnly d (l.foldl f d) :=
  foldl_keeps slotsOnly_refl slotsOnly_trans step l d

theorem updateContribs_slots (d : Dev) (b : Nat) : slotsOnly d (d.updateContribs b) :=
  foldl_slots (fun x i => by
    split
    · exact slotsOnly_refl x
    · exact setSlotMode_slots _ _ _) _ d

theorem refreshModes_slots (d : Dev) (q : SealInfo) (e : Nat) : slotsOnly d (d.refreshModes q e) :=
  foldl_slots (fun x i => setSlotMode_slots x i _) _ d

/-- From `d` to `t` the mode slots have changed, and modes that found no slot were counted: the trackers and everything else of the device stay. -/
def modesOnly (d t : Dev) : Prop :=
  only [.regs, .osc] (fun o => o = Reg.OSC_NO_SLOT) d t ∧ ∃ slots n, t.osc = { d.osc with slots := slots, nextId := n }

theorem modesOnly_refl (d : Dev) : modesOnly d d := ⟨only_refl _ _ _, _, _, rfl⟩

theorem modesOnly_trans {a b c : Dev} (h : modesOnly a b) (k : modesOnly b c) : modesOnly a c := by
  obtain ⟨h, s, n, e⟩ := h
  obtain ⟨k, s', n', e'⟩ := k
  exact ⟨only_trans h k, s', n', by rw [e', e]⟩

theorem modesOnly_of_slots {d t : Dev} (h : slotsOnly d t) : modesOnly d t := by
  obtain ⟨_, rfl⟩ := h
  exact ⟨only_wider (modOsc_only _ _ _) (by simp), _, _, rfl⟩

theorem em_of_modes {d t : Dev} (h : modesOnly d t) : t.osc.em = d.osc.em := by
  obtain ⟨-, slots, n, e⟩ := h
  rw [e]

theorem sso_of_modes {d t : Dev} (h : modesOnly d t) : t.osc.sso = d.osc.sso := by
  obtain ⟨-, slots, n, e⟩ := h
  rw [e]

theorem setSlotMode_modes (d : Dev) (i : Nat) (m : Option ModeSlot) : modesOnly d (d.setSlotMode i m) :=
  modesOnly_of_slots (setSlotMode_slots d i m)

theorem noSlot_modes (d : Dev) : modesOnly d (d.count Reg.OSC_NO_SLOT) := ⟨only_wider (count_only _ _ _) (by simp), _, _, rfl⟩

theorem draw_modes (d : Dev) : modesOnly d d.draw.2 := ⟨only_wider (draw_only _ _) (by simp), _, _, rfl⟩

theorem nextId_modes (d : Dev) (n : Nat) : modesOnly d (d.modOsc (fun o => { o with nextId := n })) :=
  ⟨only_wider (modOsc_only _ _ _) (by simp), _, _, rfl⟩

theorem associate_modes (d : Dev) (c : OscCtx) (cands : List Cand) : modesOnly d (d.associate c cands).1 := by
  have fold {α : Type} {f : Dev × List (Nat × ModeSlot) × Bool → α → Dev × List (Nat × ModeSlot) × Bool}
      (step : ∀ x a, modesOnly x.1 (f x a).1) (l : List α) (x) : modesOnly x.1 (l.foldl f x).1 :=
    foldl_keeps (R := fun (a b : Dev × List (Nat × ModeSlot) × Bool) => modesOnly a.1 b.1) (fun _ => modesOnly_refl _)
      (fun h k => modesOnly_trans h k) step l x
  unfold Dev.associate
  simp only
  refine modesOnly_trans (fold ?_ _ (d, [], false)) (fold ?_ _ _)
  · intro x s
    split
    · exact setSlotMode_modes _ _ _
    · split
      · exact setSlotMode_modes _ _ _
      · exact setSlotMode_modes _ _ _
  · intro x a
    split
    · exact noSlot_modes _
    · exact modesOnly_trans (draw_modes _) (modesOnly_trans (draw_modes _) (modesOnly_trans (setSlotMode_modes _ _ _) (nextId_modes _ _)))

theorem afterSteps_modes (d : Dev) (c : OscCtx) (x1 : Option Vec) : modesOnly d (d.afterSteps c x1).1 := by
  unfold Dev.afterSteps
  split
  · exact modesOnly_refl d
  · exact modesOnly_trans (associate_modes _ _ _) (modesOnly_of_slots (updateContribs_slots _ _))

/-! ## A tracker that starts -/

/-- A reset of a band: beside what its slots contribute, its start is due, and the next report says so (R173). -/
theorem resetBand_eq (d : Dev) (b : Nat) : ∃ slots, d.resetBand b
    = ((d.modOsc (fun o => { o with slots := slots })).setBand b { d.band b with resetDue := true }).modOsc
      (fun o => { o with resetNote := true }) := by
  obtain ⟨slots, e⟩ := foldl_slots (f := fun (x : Dev) i =>
    x.setSlotMode i ((x.modeSlot i).map (fun m => { m with contribs := noContribs }))) (fun x i => setSlotMode_slots x i _) (d.bandSlots b) d
  refine ⟨slots, ?_⟩
  unfold Dev.resetBand
  simp only
  rw [e]
  rfl

theorem resetBand_only (d : Dev) (b : Nat) (p : Nat → Prop) : only [.osc] p d (d.resetBand b) := by
  obtain ⟨slots, e⟩ := resetBand_eq d b
  rw [e]
  exact only_trans (modOsc_only _ _ _) (only_trans (setBand_only _ _ _ _) (modOsc_only _ _ _))

theorem band_resetBand_same (d : Dev) (b : Nat) : (d.resetBand b).band b = { d.band b with resetDue := true } := by
  obtain ⟨slots, e⟩ := resetBand_eq d b
  rw [e]
  exact band_setBand_same _ b _

/-- A reset of the sub-synchronous band leaves the electromechanical tracker. -/
theorem em_resetBand_one (d : Dev) : (d.resetBand 1).osc.em = d.osc.em := by
  obtain ⟨slots, e⟩ := resetBand_eq d 1
  rw [e]
  rfl

/-- A start of a band empties its slots and sets its tracker. -/
theorem beginBand_eq (d : Dev) (b e : Nat) (sigs : List (Nat × SigEntry)) :
    d.beginBand b e sigs = d ∨ ∃ slots x, d.beginBand b e sigs = (d.modOsc (fun o => { o with slots := slots })).setBand b x := by
  unfold Dev.beginBand
  split
  · obtain ⟨slots, h⟩ := foldl_slots (f := fun (x : Dev) i => x.setSlotMode i none) (fun x i => setSlotMode_slots x i _) (d.bandSlots b) d
    simp only
    rw [h]
    exact .inr ⟨_, _, rfl⟩
  · exact .inl rfl

theorem beginBand_only (d : Dev) (b e : Nat) (sigs : List (Nat × SigEntry)) (p : Nat → Prop) : only [.osc] p d (d.beginBand b e sigs) := by
  rcases beginBand_eq d b e sigs with h | ⟨slots, x, h⟩
  · rw [h]
    exact only_refl _ _ _
  · rw [h]
    exact only_trans (modOsc_only _ _ _) (setBand_only _ _ _ _)

theorem em_beginBand_one (d : Dev) (e : Nat) (sigs : List (Nat × SigEntry)) : (d.beginBand 1 e sigs).osc.em = d.osc.em := by
  rcases beginBand_eq d 1 e sigs with h | ⟨slots, x, h⟩
  · rw [h]
  · rw [h]
    rfl

theorem clearLag_only (d : Dev) (b e : Nat) (p : Nat → Prop) : only [.osc] p d (d.clearLag b e) :=
  only_ite (setBand_only _ _ _ _) (only_refl _ _ _)

theorem next_clearLag (d : Dev) (b e : Nat) : ((d.clearLag b e).band b).next = (d.band b).next := by
  unfold Dev.clearLag
  split
  · rw [band_setBand_same]
  · rfl

theorem em_clearLag_one (d : Dev) (e : Nat) : (d.clearLag 1 e).osc.em = d.osc.em := by
  unfold Dev.clearLag
  split <;> rfl

/-! ## The condition word and the reports (R164 to R170) -/

/-- The registers that an update's condition word and its reports move. -/
def wordReg (o : Nat) : Prop := eventReg o ∨ o ∈ [Reg.OSC_STATUS, Reg.OSC_COND]

theorem setOscWord_only (d : Dev) (e w : Nat) : only [.regs, .osc] (fun o => o ∈ [Reg.OSC_STATUS, Reg.OSC_COND]) d (d.setOscWord e w) := by
  have status (x : Dev) (f : FieldAt) (v : Nat) (hf : f.off = Reg.OSC_STATUS) :
      only [.regs, .osc] (fun o => o ∈ [Reg.OSC_STATUS, Reg.OSC_COND]) x (x.setFld f v) :=
    only_mono (by simp) (by rintro _ rfl; simp [hf]) (setFld_only x f v)
  have cond : only [.regs, .osc] (fun o => o ∈ [Reg.OSC_STATUS, Reg.OSC_COND]) d (d.setRegN Reg.OSC_COND w) :=
    only_mono (by simp) (by rintro _ rfl; simp) (only_setReg d Reg.OSC_COND _)
  exact only_trans cond (only_trans (status _ _ _ rfl) (only_trans (status _ _ _ rfl) (only_trans (status _ _ _ rfl)
    (only_trans (status _ _ _ rfl) (only_wider (modOsc_only _ _ _) (by simp))))))

theorem setOscWord_osc (d : Dev) (e w : Nat) : (d.setOscWord e w).osc = { d.osc with updated := true, wordEpoch := some e } := rfl

theorem eventRecord_osc (d : Dev) (mk : Nat → Bytes) (g : Bool) : (d.eventRecord mk g).osc = d.osc :=
  only_osc (eventRecord_only d mk g) (by simp)

/-- The reports of an update: the last ones are held, and the event ring may take them. -/
theorem oscReport_effect (d : Dev) (e used : Nat) (place : Bool) (retired : List (Nat × ModeSlot)) :
    only [.regs, .hif, .osc] eventReg d (d.oscReport e used place retired)
    ∧ ∃ r note, (d.oscReport e used place retired).osc = { d.osc with report := some r, resetNote := note } := by
  have held (x : Dev) (f : OscSt → OscSt) : only [.regs, .hif, .osc] eventReg x (x.modOsc f) := only_wider (modOsc_only x f _) (by simp)
  have placed (x : Dev) (mk : Nat → Bytes) (g : Bool) : only [.regs, .hif, .osc] eventReg x (x.eventRecord mk g) :=
    only_wider (eventRecord_only x mk g) (by simp)
  unfold Dev.oscReport
  generalize d.modeReport e used retired = m
  generalize (if d.fld Fld.OSC_DEF_N_RANK = 0 then [] else d.rankReport e) = r
  simp only
  split
  · split
    · refine ⟨only_trans (held _ _) (only_trans (held _ _) (placed _ _ _)), (m, r), false, ?_⟩
      rw [eventRecord_osc, Dev.modOsc_osc, Dev.modOsc_osc]
    · refine ⟨only_trans (held _ _) (only_trans (held _ _) (only_trans (placed _ _ _) (placed _ _ _))), (m, r), false, ?_⟩
      rw [eventRecord_osc, eventRecord_osc, Dev.modOsc_osc, Dev.modOsc_osc]
  · exact ⟨held _ _, (m, r), _, Dev.modOsc_osc _ _⟩

/-- The end of an update leaves both trackers. -/
theorem closeUpdate_effect (d : Dev) (q : SealInfo) (e used tick : Nat) (gone : List (Nat × ModeSlot)) (born hold : Bool) :
    only [.regs, .hif, .osc] wordReg d (d.closeUpdate q e used tick gone born hold)
    ∧ (d.closeUpdate q e used tick gone born hold).osc.em = d.osc.em
    ∧ (d.closeUpdate q e used tick gone born hold).osc.sso = d.osc.sso
    ∧ (d.closeUpdate q e used tick gone born hold).osc.updated = true := by
  obtain ⟨slots, refreshed⟩ := refreshModes_slots d q e
  unfold Dev.closeUpdate
  simp only
  rw [refreshed]
  generalize Dev.oscWord _ _ = w
  have word : only [.regs, .hif, .osc] wordReg d ((d.modOsc (fun o => { o with slots := slots })).setOscWord e w) :=
    only_trans (only_wider (modOsc_only _ _ _) (by simp)) (only_mono (by simp) (fun _ => .inr) (setOscWord_only _ _ _))
  split
  · exact ⟨only_trans word (only_wider (modOsc_only _ _ _) (by simp)), rfl, rfl, rfl⟩
  · obtain ⟨frame, r, note, osc⟩ := oscReport_effect ((d.modOsc (fun o => { o with slots := slots })).setOscWord e w) e used _ _
    rw [osc]
    exact ⟨only_trans word (only_mono (fun _ x => x) (fun _ => .inl) frame), rfl, rfl, rfl⟩

end Sys2Proof.Machine
end

section
/-! The statement about the commands of the oscillation trackers (O3): OSC_CTRL, the signal and branch tables, the resets and MODE_READ (R142, R144,
R152, R160, R173). -/

namespace Sys2Proof.Machine

open Sys2Proof

/-! ## OSC_ENABLE (R152) -/

theorem fieldsAt_oscCtrl : fieldsAt Reg.OSC_CTRL = [⟨0, 1, .rw, .any⟩, ⟨1, 1, .rw, .any⟩, ⟨2, 1, .rw, .any⟩] := by decide +kernel

/-- OSC_CTRL takes its three bits from the written word, whatever they are. -/
def Dev.oscCtrlWord (d : Dev) (v : Word) : Word :=
  withBits (withBits (withBits (d.reg Reg.OSC_CTRL) 0 1 (bitsAt v 0 1)) 1 1 (bitsAt v 1 1)) 2 1 (bitsAt v 2 1)

theorem writePlain_oscCtrl (d : Dev) (v : Word) : d.writePlain Reg.OSC_CTRL v = d.setReg Reg.OSC_CTRL (d.oscCtrlWord v) := by
  have res : d.writeRes Reg.OSC_CTRL v = { word := d.oscCtrlWord v } := by
    simp only [Dev.writeRes, fieldsAt_oscCtrl]
    rfl
  simp only [Dev.writePlain, res]
  rfl

theorem bitsAt_oscCtrlWord (d : Dev) (v : Word) : bitsAt (d.oscCtrlWord v) 0 1 = bitsAt v 0 1 := by
  rw [Dev.oscCtrlWord, bitsAt_withBits_other _ _ _ _ _ _ (by decide) (by decide), bitsAt_withBits_other _ _ _ _ _ _ (by decide) (by decide),
    bitsAt_withBits_same _ _ _ _ (by decide)]
  exact Nat.mod_mod _ _

/-- A band that is enabled: its start is due, from the next epoch to be sealed on. -/
def Dev.armBand (d : Dev) (b : Nat) : Dev :=
  (d.resetBand b).setBand b { (d.resetBand b).band b with next := if d.craterRuns then some d.crt.nextSeal else none }

theorem armBand_only (d : Dev) (b : Nat) (p : Nat → Prop) : only [.osc] p d (d.armBand b) :=
  only_trans (resetBand_only _ _ _) (setBand_only _ _ _ _)

theorem armBand_due (d : Dev) (b : Nat) : ((d.armBand b).band b).resetDue = true := by
  rw [Dev.armBand, band_setBand_same, band_resetBand_same]

theorem em_armBand_one (d : Dev) : (d.armBand 1).osc.em = d.osc.em := em_resetBand_one d

section Enable

variable {d : Dev} {v : Word} (hon : v.toNat.testBit 0 = true) (hwas : d.bit Fld.OSC_CTRL_EN = false)
  (hedge : d.fld Fld.OSC_BAND_F_HI ≤ 40 * d.rate)

include hon hwas hedge

/-- A write that sets EN starts the electromechanical tracker, and the sub-synchronous one where it sets SSO_EN too. -/
theorem writeOscCtrl_starts : ∃ t,
    (t = (d.setReg Reg.OSC_CTRL (d.oscCtrlWord v)).armBand 0 ∨ t = ((d.setReg Reg.OSC_CTRL (d.oscCtrlWord v)).armBand 0).armBand 1)
    ∧ writeOscCtrl v d = t.setBit Fld.OSC_STATUS_RUNNING (t.bit Fld.OSC_CTRL_EN) := by
  have rises : (v.toNat.testBit 0 && !(d.reg Reg.OSC_CTRL).toNat.testBit 0) = true := by
    have was : (d.reg Reg.OSC_CTRL).toNat.testBit 0 = false := by
      rw [testBit_zero_iff, decide_eq_false_iff_not]
      have zero : bitsAt (d.reg Reg.OSC_CTRL) 0 1 = 0 := not_ne_iff.mp (of_decide_eq_false hwas)
      omega
    rw [hon, was]
    rfl
  have written := only_setReg d Reg.OSC_CTRL (d.oscCtrlWord v)
  have fits : ¬ 40 * (d.setReg Reg.OSC_CTRL (d.oscCtrlWord v)).rate < (d.setReg Reg.OSC_CTRL (d.oscCtrlWord v)).fld Fld.OSC_BAND_F_HI := by
    rw [Dev.rate, only_fld written (by decide), only_fld written (by decide)]
    exact not_lt.mpr hedge
  unfold writeOscCtrl
  simp only [writePlain_oscCtrl, rises, if_neg fits, if_true]
  split
  · exact ⟨_, .inr rfl, rfl⟩
  · exact ⟨_, .inl rfl, rfl⟩

theorem writeOscCtrl_enables : only [.regs, .osc] (fun o => o ∈ [Reg.OSC_CTRL, Reg.OSC_STATUS]) d (writeOscCtrl v d)
    ∧ (writeOscCtrl v d).bit Fld.OSC_CTRL_EN = true ∧ (writeOscCtrl v d).bit Fld.OSC_STATUS_RUNNING = true
    ∧ (writeOscCtrl v d).osc.em.resetDue = true := by
  obtain ⟨t, starts, result⟩ := writeOscCtrl_starts hon hwas hedge
  have written := only_setReg d Reg.OSC_CTRL (d.oscCtrlWord v)
  have en : (d.setReg Reg.OSC_CTRL (d.oscCtrlWord v)).bit Fld.OSC_CTRL_EN = true := by
    have one : bitsAt v 0 1 = 1 := of_decide_eq_true ((testBit_zero_iff v).symm.trans hon)
    simp [Dev.bit, Dev.fld, Fld.OSC_CTRL_EN, bitsAt_oscCtrlWord, one]
  generalize d.setReg Reg.OSC_CTRL (d.oscCtrlWord v) = x at starts written en
  obtain ⟨armed, due⟩ : only [.osc] (fun _ => False) x t ∧ t.osc.em.resetDue = true := by
    rcases starts with rfl | rfl
    · exact ⟨armBand_only _ _ _, armBand_due x 0⟩
    · exact ⟨only_trans (armBand_only _ _ _) (armBand_only _ _ _), by rw [em_armBand_one]; exact armBand_due x 0⟩
  have en' : t.bit Fld.OSC_CTRL_EN = true := (only_bit armed id).trans en
  rw [result, en']
  refine ⟨?_, ?_, ?_, due⟩
  · exact only_trans (only_mono (by simp) (by rintro _ rfl; decide) written)
      (only_trans (only_mono (by simp) (fun _ => False.elim) armed) (only_mono (by simp) (by rintro _ rfl; decide) (setBit_only _ _ _)))
  · rw [only_bit (setBit_only _ _ _) (by decide)]
    exact en'
  · exact Dev.bit_setBit_same _ _ _ (by decide) (by decide)

end Enable

/-! ## OSC_SIG_SET (R144) -/

section SigSet

variable {d : Dev} {first count eff : Nat} {images : Bytes} {imm : Bool}

/-- The effective epoch of an entry is none of what R144 asks. -/
theorem sigFits_stampSig (d : Dev) (eff : Nat) (imm : Bool) (n : Nat) (g : SigEntry) : d.sigFits (d.stampSig eff imm n g) = d.sigFits g := by
  unfold Dev.stampSig
  simp only
  split
  · rename_i o _
    split
    · rename_i same
      rw [← same]
      rfl
    · rfl
  · rfl

/-- Where each entry given passes a check, none fails it. -/
theorem any_unfit_of_all {α β : Type} {f : α → Option β} {p : β → Bool} {l : List α} (h : l.all (fun x => (f x).all p) = true) :
    l.any (fun x => (f x).any (fun g => !p g)) = false := by
  refine List.any_eq_false.mpr fun x hx => ?_
  have fit := List.all_eq_true.mp h x hx
  cases hg : f x with
  | none => simp
  | some g => simpa [hg] using fit

theorem any_unfit_of_mem {g : SigEntry} (hg : some g ∈ (imagesOf 16 count images).map sigOf) (hfit : d.sigFits g = false) :
    (d.sigImages first count eff imm images).any (fun x => x.2.any (fun g => !d.sigFits g)) = true := by
  obtain ⟨k, hk⟩ := List.mem_iff_getElem?.mp hg
  refine List.any_eq_true.mpr ⟨(first + k, some (d.stampSig eff imm (first + k) g)), ?_, by simp [sigFits_stampSig, hfit]⟩
  exact List.mem_map.mpr ⟨(some g, k), List.mem_zipIdx_iff_getElem?.mpr hk, rfl⟩

/-- An entry of a table none of whose entries is pending. -/
theorem getD_pend_none {α : Type} {t : Tbl (Held α)} (h : t.all (fun x => x.2.pend.isNone) = true) (n : Nat) : (t.getD n {}).pend = none := by
  unfold Tbl.getD
  cases found : t.find n with
  | none => rfl
  | some x => exact Option.isNone_iff_eq_none.mp (List.all_eq_true.mp h _ (Tbl.mem_of_find found))

/-- With nothing pending and an effective epoch not sealed, no change is refused. -/
theorem change_ok {α : Type} {h : Held α} (free : h.pend = none) (hlate : imm = true ∨ d.effSealed eff = false) (new : Option α) :
    ∃ r, d.change h eff imm new = .ok r := by
  unfold Dev.change
  simp only [free]
  rcases hlate with rfl | hs
  · by_cases hr : d.craterRuns = true <;> simp [hr]
  · simp only [hs]
    split_ifs <;> simp_all

/-- A bad image alone makes S_RANGE. -/
theorem changeStatus_bad {α : Type} {l : List (Nat × Option α)} {t : Tbl (Held α)} (free : t.all (fun x => x.2.pend.isNone) = true)
    (hlate : imm = true ∨ d.effSealed eff = false) : d.changeStatus eff imm true l t = some sRange := by
  have timely : ¬ (imm = false ∧ d.effSealed eff = true) := by
    rintro ⟨rfl, hs⟩
    simp [hs] at hlate
  unfold Dev.changeStatus
  rw [List.filterMap_eq_nil_iff.mpr ?_, if_neg timely]
  · rfl
  · intro x _
    obtain ⟨r, hr⟩ := change_ok (getD_pend_none free x.1) hlate x.2
    rw [hr]

/-- The checks of OSC_SIG_SET before those of its effective epoch. -/
def Dev.sigBad (d : Dev) (first count eff : Nat) (imm : Bool) (images : Bytes) : Bool :=
  decide (count = 0) || decide (256 < count) || decide (4096 < first + count) || (imagesOf 16 count images).any (resvSet sigResv)
    || (d.sigImages first count eff imm images).any (fun x => x.2.any (fun g => !d.sigFits g))

theorem oscSigSet_of_status {st : Nat}
    (h : d.changeStatus eff imm (d.sigBad first count eff imm images) (d.sigImages first count eff imm images) d.osc.sigs = some st) :
    oscSigSet first count images eff imm d = (d, .done st 0) := by
  rw [Dev.sigBad] at h
  simp only [oscSigSet, h]

theorem sigBad_of_unfit {g : SigEntry} (hg : some g ∈ (imagesOf 16 count images).map sigOf) (hfit : d.sigFits g = false) :
    d.sigBad first count eff imm images = true := by
  rw [Dev.sigBad, any_unfit_of_mem hg hfit, Bool.or_true]

theorem sigBad_of_fits (hc : 1 ≤ count ∧ count ≤ 256 ∧ first + count ≤ 4096)
    (hresv : (imagesOf 16 count images).any (resvSet sigResv) = false)
    (hfit : (d.sigImages first count eff imm images).all (fun x => x.2.all d.sigFits) = true) :
    d.sigBad first count eff imm images = false := by
  obtain ⟨h1, h2, h3⟩ := hc
  rw [Dev.sigBad, hresv, any_unfit_of_all (f := fun (x : Nat × Option SigEntry) => x.2) hfit,
    decide_eq_false (by omega), decide_eq_false (by omega), decide_eq_false (by omega)]
  rfl

theorem oscSigSet_changes {t : Tbl (Held SigEntry)} (hbad : d.sigBad first count eff imm images = false)
    (hstatus : d.changeStatus eff imm false (d.sigImages first count eff imm images) d.osc.sigs = none)
    (hall : d.changeAll eff imm (d.sigImages first count eff imm images) d.osc.sigs = .ok t) (hsso : ssoCount t ≤ 256) :
    oscSigSet first count images eff imm d = (d.modOsc (fun o => { o with sigs := t }), .ok) := by
  rw [Dev.sigBad] at hbad
  simp only [oscSigSet, hbad, hstatus, hall, if_neg (not_lt.mpr hsso)]

end SigSet

/-! ## OSC_DEF_SET (R160) -/

section DefSet

variable {d : Dev} {first count : Nat} {images : Bytes}

/-- A branch entry passes R160. -/
def Dev.defFits (d : Dev) (g : DefEntry) : Bool := d.phasorSlot g.vSlot && d.phasorSlot g.iSlot && fLt 0 g.factor

theorem oscDefSet_changes (hc : 1 ≤ count ∧ first + count ≤ 256) (hresv : (imagesOf 16 count images).any (resvSet defResv) = false)
    (hfit : (((imagesOf 16 count images).map defOf).zipIdx).all (fun x => x.1.all d.defFits) = true) :
    oscDefSet first count images d
      = (d.modOsc (fun o => { o with defsNext := (((imagesOf 16 count images).map defOf).zipIdx).foldl (putDef first) o.defsNext }), .ok) := by
  have fits := any_unfit_of_all (f := fun (x : Option DefEntry × Nat) => x.1) hfit
  refine if_neg ?_
  rintro (h | h | h | h)
  · omega
  · omega
  · exact absurd (hresv.symm.trans h) Bool.false_ne_true
  · exact absurd (fits.symm.trans h) Bool.false_ne_true

theorem oscDefSet_refused {g : DefEntry} (hg : some g ∈ (imagesOf 16 count images).map defOf) (hfactor : fLt 0 g.factor = false) :
    oscDefSet first count images d = (d, .done sRange 0) := by
  obtain ⟨k, hk⟩ := List.mem_iff_getElem?.mp hg
  refine if_pos (.inr (.inr (.inr (List.any_eq_true.mpr ⟨(some g, k), List.mem_zipIdx_iff_getElem?.mpr hk, ?_⟩))))
  show (!(d.phasorSlot g.vSlot && d.phasorSlot g.iSlot && fLt 0 g.factor)) = true
  rw [hfactor, Bool.and_false]
  rfl

end DefSet

/-! ## OSC_RESET and MODE_READ (R173) -/

theorem oscReset_bands (d : Dev) {band : Nat} (h : band ≤ 2) :
    oscReset band d = ((if band = 0 then d.resetBand 0 else if band = 1 then d.resetBand 1 else
      (d.resetBand 0).resetBand 1).count Reg.OSC_RESETS, .ok) := by
  interval_cases band <;> rfl

section ModeRead

variable {d : Dev} {buf : HostBuf}

theorem modeRead_of_report {m r : Bytes} (hr : d.osc.report = some (m, r)) (hu : d.osc.updated = true) :
    modeRead buf d = (d, if buf.len < (m ++ r).length then .done sRange 0 else .block (m ++ r) (some buf.addr)) := by
  simp only [modeRead, hr, hu, Bool.not_true, if_neg Bool.false_ne_true]
  split <;> rfl

theorem modeRead_not_updated (hu : d.osc.updated = false) : modeRead buf d = (d, .done sNotValid 0) := by
  unfold modeRead
  split
  · rfl
  · simp [hu]

end ModeRead

/-! ## The rows on a ring -/

section Rows

variable {s : State} {c : Ctx} (hr : ready s.dev c.ring false none) {res : Dev × CmdRes}

include hr

theorem exec_oscSigSet {first count eff : Nat} {images : Bytes} {imm : Bool}
    (h : oscSigSet first count images eff imm (fetched s.dev c.ring) = res) :
    exec (.oscSigSet c first count images eff imm) s = .next (served s c res.1 res.2) := by
  subst h
  exact run_accept_ready (fun _ => oscSigSet first count images eff imm) hr

theorem exec_oscDefSet {first count : Nat} {images : Bytes} (h : oscDefSet first count images (fetched s.dev c.ring) = res) :
    exec (.oscDefSet c first count images) s = .next (served s c res.1 res.2) := by
  subst h
  exact run_accept_ready (fun _ => oscDefSet first count images) hr

theorem exec_oscReset {band : Nat} (h : oscReset band (fetched s.dev c.ring) = res) :
    exec (.oscReset c band) s = .next (served s c res.1 res.2) := by
  subst h
  exact run_accept_ready (fun _ => oscReset band) hr

theorem exec_modeRead {buf : HostBuf} (h : modeRead buf (fetched s.dev c.ring) = res) :
    exec (.modeRead c buf) s = .next (served s c res.1 res.2) := by
  subst h
  exact run_accept_ready (fun _ => modeRead buf) hr

end Rows

theorem exec_oscEnable (s : State) (v : Word) : exec (.oscEnable v) s
    = s.run 0 (fun _ d => if v.toNat.testBit 0 || v.toNat.testBit 1 then d.unlessGated Reg.OSC_CTRL (writeOscCtrl v) else d) := rfl

theorem oscEnable_writes {v : Word} {d : Dev} (hon : v.toNat.testBit 0 = true) (hg : d.gatedAt Reg.OSC_CTRL = false) :
    (if v.toNat.testBit 0 || v.toNat.testBit 1 then d.unlessGated Reg.OSC_CTRL (writeOscCtrl v) else d) = writeOscCtrl v d :=
  (if_pos (by rw [hon]; rfl)).trans (unlessGated_open hg _)

/-- Settles O3: what each command makes of the trackers, and its row of the table. -/
theorem oscillationCommandsTakeEffect : Obligations.OscillationCommandsTakeEffect := by
  unfold Obligations.OscillationCommandsTakeEffect
  refine ⟨?_, ?_, ?_, ?_, ?_, ?_, ?_, ?_⟩
  · intro s v hg hon hwas hedge
    obtain ⟨frame, rest⟩ := writeOscCtrl_enables (d := later s.dev 0) hon hwas hedge
    rw [exec_oscEnable]
    exact exists_run_moves (oscEnable_writes hon hg) frame rest
  · rintro s c d first count eff images imm t hr rfl hc hresv hfit hstatus hall hsso
    exact exec_oscSigSet hr (oscSigSet_changes (sigBad_of_fits hc hresv hfit) hstatus hall hsso)
  · rintro s c d first count eff images imm g hr rfl - hg hfit hlate hfree
    refine exec_oscSigSet hr (oscSigSet_of_status ?_)
    rw [sigBad_of_unfit hg hfit]
    exact changeStatus_bad hfree hlate
  · rintro s c d first count images l hr rfl hc hresv rfl hfit
    exact exec_oscDefSet hr (oscDefSet_changes hc hresv hfit)
  · rintro s c d first count images g hr rfl hg hfactor
    exact exec_oscDefSet hr (oscDefSet_refused hg hfactor)
  · rintro s c d band hr rfl hb
    exact exec_oscReset hr (oscReset_bands _ hb)
  · rintro s c d buf m r hr rfl hreport hu
    exact exec_modeRead hr (modeRead_of_report hreport hu)
  · rintro s c d buf hr rfl hu
    exact exec_modeRead hr (modeRead_not_updated hu)

end Sys2Proof.Machine
end

section
/-! Proofs about the updates of the oscillation trackers: lag, the stages of an update, and what the service of a work item leaves of them (R150,
R159, R161, R164, R166). -/

namespace Sys2Proof.Machine

open Sys2Proof

/-! ## Lag (R166) -/

theorem epochTime_mono {f e k : Nat} (h : e ≤ k) : epochTime f e ≤ epochTime f k := Nat.div_le_div_right (Nat.mul_le_mul_right _ h)

theorem deadline_mono (d : Dev) {e k : Nat} (h : e ≤ k) : d.deadline e ≤ d.deadline k := Nat.add_le_add_right (epochTime_mono h) _

section Lag

variable {d : Dev} {b e : Nat}

theorem mem_lateUpdates {k : Nat} (h : k ∈ d.lateUpdates b e) : e ≤ k ∧ d.deadline (k + 1) ≤ d.g16 := by
  simp only [Dev.lateUpdates, List.mem_filter, List.mem_map, decide_eq_true_eq] at h
  obtain ⟨⟨i, -, rfl⟩, late⟩ := h
  refine ⟨le_trans ?_ (Nat.le_add_right _ i), late⟩
  split
  · split
    · exact le_max_left _ _
    · exact le_refl _
  · exact le_refl _

theorem lateUpdates_timely (h : d.g16 < d.deadline (e + 1)) : d.lateUpdates b e = [] := by
  refine List.eq_nil_iff_forall_not_mem.mpr fun k hk => ?_
  obtain ⟨hek, late⟩ := mem_lateUpdates hk
  exact absurd (lt_of_lt_of_le h (deadline_mono d (Nat.succ_le_succ hek))) (not_lt.mpr late)

/-- The one epoch that waits is late, where none was counted. -/
theorem lateUpdates_single (hlag : (d.band b).lagEpoch = none) (hlate : d.deadline (e + 1) ≤ d.g16) (hseal : d.crt.nextSeal = e + 1) :
    d.lateUpdates b e = [e] := by
  simp [Dev.lateUpdates, hlag, hseal, hlate]

/-- The late updates of a band are noted and counted. -/
def Dev.noteLate (d : Dev) (b : Nat) (late : List Nat) : Dev :=
  match late.getLast? with
  | none => d
  | some k => (d.setBand b { d.band b with lag := true, lagEpoch := some k }).count Reg.OSC_OVERRUN late.length

theorem noteLate_only (d : Dev) (b : Nat) (late : List Nat) (p : Nat → Prop) (hp : p Reg.OSC_OVERRUN) :
    only [.regs, .osc] p d (d.noteLate b late) := by
  unfold Dev.noteLate
  split
  · exact only_refl _ _ _
  · exact only_trans (only_wider (setBand_only _ _ _ _) (by simp)) (only_mono (by simp) (by rintro _ rfl; exact hp) (count_only _ _ _))

theorem noteLate_crt (d : Dev) (b : Nat) (late : List Nat) : (d.noteLate b late).crt = d.crt :=
  only_crt (noteLate_only d b late (fun _ => True) trivial) (by simp)

/-- The tracker of a band that has fallen behind is to start again, from the next epoch to be sealed. -/
def Dev.behind (d : Dev) (b back : Nat) : Dev :=
  (((d.resetBand b).setBand b { (d.resetBand b).band b with next := some (d.resetBand b).crt.nextSeal }).count Reg.OSC_RESETS).event
    .trackerReset b back

theorem checkLag_eq (hn : d.nextUpdate b = some e) : d.checkLag b
    = if 8 ≤ d.crt.nextSeal - e then (d.noteLate b (d.lateUpdates b e)).behind b (d.crt.nextSeal - e) else d.noteLate b (d.lateUpdates b e) := by
  rw [← noteLate_crt d b (d.lateUpdates b e)]
  simp only [Dev.checkLag, hn]
  rfl

/-- A tracker in time, with fewer than 8 epochs waiting, notes nothing. -/
theorem checkLag_timely (hn : d.nextUpdate b = some e) (ht : d.g16 < d.deadline (e + 1)) (hb : d.crt.nextSeal < e + 8) : d.checkLag b = d := by
  rw [checkLag_eq hn, if_neg (by omega), lateUpdates_timely ht]
  rfl

/-- Late updates with fewer than 8 epochs waiting: LAG, and each is counted. -/
theorem checkLag_late (hn : d.nextUpdate b = some e) (hl : d.lateUpdates b e ≠ []) (hb : d.crt.nextSeal < e + 8) :
    only [.regs, .osc] (fun o => o ∈ [Reg.OSC_OVERRUN]) d (d.checkLag b)
    ∧ (d.checkLag b).regN Reg.OSC_OVERRUN = (d.regN Reg.OSC_OVERRUN + (d.lateUpdates b e).length) % 2 ^ 32
    ∧ (d.checkLag b).band b = { d.band b with lag := true, lagEpoch := (d.lateUpdates b e).getLast? } := by
  rw [checkLag_eq hn, if_neg (by omega)]
  refine ⟨noteLate_only _ _ _ _ (by simp), ?_⟩
  unfold Dev.noteLate
  split
  · rename_i none_last
    exact absurd (List.getLast?_eq_none_iff.mp none_last) hl
  · rename_i k last
    rw [regN_count, if_pos rfl, band_of_osc (Dev.count_osc _ _ _), band_setBand_same, last]
    exact ⟨rfl, rfl⟩

theorem event_osc (d : Dev) (ev : Ev) (index arg0 arg1 status : Nat) : (d.event ev index arg0 arg1 status).osc = d.osc :=
  only_osc (event_only d ev index arg0 arg1 status) (by simp)

/-- With 8 or more epochs waiting the tracker is to start again. -/
theorem behind_effect (d : Dev) (b back : Nat) :
    only [.regs, .hif, .osc, .snt] (fun o => eventReg o ∨ o = Reg.OSC_RESETS) d (d.behind b back)
    ∧ (d.behind b back).regN Reg.OSC_RESETS = (d.regN Reg.OSC_RESETS + 1) % 2 ^ 32 ∧ ((d.behind b back).band b).resetDue = true := by
  have reset : only [.osc] (fun _ => False) d
      ((d.resetBand b).setBand b { (d.resetBand b).band b with next := some (d.resetBand b).crt.nextSeal }) :=
    only_trans (resetBand_only _ _ _) (setBand_only _ _ _ _)
  have due : (((d.resetBand b).setBand b { (d.resetBand b).band b with next := some (d.resetBand b).crt.nextSeal }).band b).resetDue = true := by
    rw [band_setBand_same, band_resetBand_same]
  unfold Dev.behind
  generalize (d.resetBand b).setBand b { (d.resetBand b).band b with next := some (d.resetBand b).crt.nextSeal } = d1 at reset due ⊢
  have raised := event_only (d1.count Reg.OSC_RESETS) .trackerReset b back 0 sOk
  refine ⟨?_, ?_, ?_⟩
  · exact only_trans (only_mono (by simp) (fun _ => False.elim) reset)
      (only_trans (only_mono (by simp) (fun _ => .inr) (count_only d1 _ _)) (only_mono (by simp) (fun _ => .inl) raised))
  · rw [only_regN raised (not_eventReg (by decide)), regN_count, if_pos rfl, only_regN reset id]
  · rw [band_of_osc (event_osc _ _ _ _ _ _), band_of_osc (Dev.count_osc _ _ _)]
    exact due

theorem checkLag_behind (hn : d.nextUpdate b = some e) (hb : e + 8 ≤ d.crt.nextSeal) :
    only [.regs, .hif, .osc, .snt] (fun o => eventReg o ∨ o ∈ [Reg.OSC_STATUS, Reg.OSC_OVERRUN, Reg.OSC_RESETS]) d (d.checkLag b)
    ∧ (d.checkLag b).regN Reg.OSC_RESETS = (d.regN Reg.OSC_RESETS + 1) % 2 ^ 32 ∧ ((d.checkLag b).band b).resetDue = true := by
  rw [checkLag_eq hn, if_pos (by omega)]
  obtain ⟨frame, counted, due⟩ := behind_effect (d.noteLate b (d.lateUpdates b e)) b (d.crt.nextSeal - e)
  have noted := noteLate_only d b (d.lateUpdates b e) (fun o => o = Reg.OSC_OVERRUN) rfl
  refine ⟨only_trans (only_mono (by simp) (by rintro _ rfl; exact .inr (by simp)) noted) (only_mono (fun _ x => x) ?_ frame), ?_, due⟩
  · rintro o (h | rfl)
    · exact .inl h
    · exact .inr (by simp)
  · rw [counted, only_regN noted (by decide)]

end Lag

/-! ## The steps of a tracker (R150) -/

/-- A step with too many of its signals missing is skipped. -/
theorem trackStep_skipped {r lim : Nat} {lam : DWord} {ys : List (Nat × Word × Bool)} {b : BandSt}
    (h : lim * ys.length < 100 * (ys.filter (fun x => x.2.2)).length) :
    trackStep r lam lim ys b = ({ b with y := ys.map (fun x => (x.1, x.2.1)), skipped := true, updates := b.updates + 1 }, none) := if_pos h

/-! ## The stages of an update (R150, R159) -/

theorem energyRanking_none {d : Dev} (h : d.osc.ranking = none) : d.energyRanking = d := by simp only [Dev.energyRanking, h]

section Update

variable {d : Dev} {e : Nat} {q : SealInfo} (hseal : d.sealOf e = some q) (ht : d.g16 < d.deadline (e + 1)) (hb : d.crt.nextSeal < e + 8)

/-- The device once the electromechanical tracker has taken epoch `e`: it has started where that was due, has stepped, and is in time. -/
def Dev.emStepped (d : Dev) (e : Nat) (sigs : List (Nat × SigEntry)) (x : BandSt) (skips : Nat) : Dev :=
  ((((d.beginBand 0 e sigs).setBand 0 { x with next := some (e + 1) }).count64 Reg.OSC_UPDATES_LO).count Reg.OSC_SKIPPED skips).clearLag 0 e

/-- The same of the sub-synchronous tracker, which has no count of its updates. -/
def Dev.ssoStepped (d : Dev) (e : Nat) (sigs : List (Nat × SigEntry)) (x : BandSt) (skips : Nat) : Dev :=
  (((d.beginBand 1 e sigs).setBand 1 { x with next := some (e + 1) }).count Reg.OSC_SKIPPED skips).clearLag 1 e

include hseal ht hb

theorem trackUpdate_stages (hrank : d.osc.ranking = none) (hn : d.nextUpdate 0 = some e) : ∃ sigs x skips t used tick gone born hold,
    modesOnly (d.takeDefs.emStepped e sigs x skips) t
    ∧ d.trackUpdate = (t.modOsc (fun o => { o with used := used })).closeUpdate q e used tick gone born hold := by
  have lag : d.takeDefs.checkLag 0 = d.takeDefs := checkLag_timely (d := d.takeDefs) hn ht hb
  have next : d.takeDefs.nextUpdate 0 = some e := hn
  have sealed : d.takeDefs.sealOf e = some q := hseal
  generalize result : d.trackUpdate = u
  rw [Dev.trackUpdate, energyRanking_none hrank, lag] at result
  split at result
  · rename_i idle
    cases idle.symm.trans next
  · rename_i e' due
    cases due.symm.trans next
    split at result
    · rename_i unsealed
      cases unsealed.symm.trans sealed
    · rename_i q' info
      cases info.symm.trans sealed
      extract_lets sigs d1 r st0 pre fresh st1 res missing _ d2 ctx a hold used at result
      subst result
      exact ⟨sigs, res.1, b2n res.2.isNone, a.1, used, _, _, _, hold, afterSteps_modes d2 ctx res.2, rfl⟩

theorem ssoUpdate_stages (hn : d.nextUpdate 1 = some e) : ∃ sigs x skips t used tick gone born,
    modesOnly (d.ssoStepped e sigs x skips) t ∧ d.ssoUpdate = t.closeUpdate q e used tick gone born false := by
  generalize result : d.ssoUpdate = u
  rw [Dev.ssoUpdate, checkLag_timely hn ht hb] at result
  split at result
  · rename_i idle
    cases idle.symm.trans hn
  · rename_i e' due
    cases due.symm.trans hn
    split at result
    · rename_i unsealed
      cases unsealed.symm.trans hseal
    · rename_i q' info
      cases info.symm.trans hseal
      extract_lets sigs d1 r st0 fresh pre st1 instants lam lim res missing _ d2 ctx a at result
      subst result
      exact ⟨sigs, { res.1 with evals := res.1.evals + 1 }, res.2.2, a.1, _, _, _, _, afterSteps_modes d2 ctx res.2.1, rfl⟩

end Update

/-! ## What an update leaves -/

section Stages

variable (d : Dev) (e : Nat) (sigs : List (Nat × SigEntry)) (x : BandSt) (skips : Nat)

theorem emStepped_only : only [.regs, .osc] (fun o => o ∈ [Reg.OSC_UPDATES_LO, Reg.OSC_UPDATES_HI, Reg.OSC_SKIPPED]) d
    (d.emStepped e sigs x skips) := by
  refine only_trans (only_wider (beginBand_only _ _ _ _ _) (by simp)) <| only_trans (only_wider (setBand_only _ _ _ _) (by simp)) <|
    only_trans (only_mono (by simp) ?_ (count64_only _ _ _)) <| only_trans (only_mono (by simp) ?_ (count_only _ _ _))
      (only_wider (clearLag_only _ _ _ _) (by simp))
  · rintro _ (rfl | rfl) <;> decide
  · rintro _ rfl; decide

theorem emStepped_next : (d.emStepped e sigs x skips).osc.em.next = some (e + 1) := by
  rw [← band_zero, Dev.emStepped, next_clearLag, band_of_osc (Dev.count_osc _ _ _), band_of_osc (Dev.count64_osc _ _ _), band_setBand_same]

theorem emStepped_counts : (d.emStepped e sigs x skips).reg64 Reg.OSC_UPDATES_LO = (d.reg64 Reg.OSC_UPDATES_LO + 1) % 2 ^ 64 := by
  have before : ((d.beginBand 0 e sigs).setBand 0 { x with next := some (e + 1) }).reg64 Reg.OSC_UPDATES_LO = d.reg64 Reg.OSC_UPDATES_LO :=
    only_reg64 (only_trans (beginBand_only _ _ _ _ (fun _ => False)) (setBand_only _ _ _ _)) id id
  have after (y : Dev) : ((y.count Reg.OSC_SKIPPED skips).clearLag 0 e).reg64 Reg.OSC_UPDATES_LO = y.reg64 Reg.OSC_UPDATES_LO := by
    rw [only_reg64 (clearLag_only _ 0 e (fun _ => False)) id id, only_reg64 (count_only y _ _) (by decide) (by decide)]
  rw [Dev.emStepped, after, reg64_count64_same, before]

theorem ssoStepped_only : only [.regs, .osc] (fun o => o ∈ [Reg.OSC_SKIPPED]) d (d.ssoStepped e sigs x skips) := by
  refine only_trans (only_wider (beginBand_only _ _ _ _ _) (by simp)) <| only_trans (only_wider (setBand_only _ _ _ _) (by simp)) <|
    only_trans (only_mono (by simp) ?_ (count_only _ _ _)) (only_wider (clearLag_only _ _ _ _) (by simp))
  rintro _ rfl
  decide

theorem ssoStepped_next : (d.ssoStepped e sigs x skips).osc.sso.next = some (e + 1) := by
  rw [← band_one, Dev.ssoStepped, next_clearLag, band_of_osc (Dev.count_osc _ _ _), band_setBand_same]

theorem ssoStepped_em : (d.ssoStepped e sigs x skips).osc.em = d.osc.em := by
  rw [Dev.ssoStepped, em_clearLag_one, Dev.count_osc, em_setBand_one, em_beginBand_one]

end Stages

section Effect

variable {d : Dev} {e : Nat} {q : SealInfo} (hseal : d.sealOf e = some q) (ht : d.g16 < d.deadline (e + 1)) (hb : d.crt.nextSeal < e + 8)

include hseal ht hb

/-- The electromechanical update takes its epoch, counts one, and completes. -/
theorem trackUpdate_effect (hrank : d.osc.ranking = none) (hn : d.nextUpdate 0 = some e) :
    only [.regs, .hif, .osc] (fun o => eventReg o ∨ o ∈ [Reg.OSC_UPDATES_LO, Reg.OSC_UPDATES_HI, Reg.OSC_SKIPPED, Reg.OSC_NO_SLOT,
      Reg.OSC_STATUS, Reg.OSC_COND]) d d.trackUpdate
    ∧ d.trackUpdate.osc.em.next = some (e + 1) ∧ d.trackUpdate.reg64 Reg.OSC_UPDATES_LO = (d.reg64 Reg.OSC_UPDATES_LO + 1) % 2 ^ 64
    ∧ d.trackUpdate.osc.updated = true := by
  obtain ⟨sigs, x, skips, t, used, tick, gone, born, hold, modes, result⟩ := trackUpdate_stages hseal ht hb hrank hn
  have stepped := emStepped_only d.takeDefs e sigs x skips
  have kept := modOsc_only t (fun o => { o with used := used }) (fun _ => False)
  obtain ⟨closed, em, -, updated⟩ := closeUpdate_effect (t.modOsc (fun o => { o with used := used })) q e used tick gone born hold
  rw [result]
  refine ⟨?_, ?_, ?_, updated⟩
  · refine only_trans (only_wider (modOsc_only d _ _) (by simp)) <| only_trans (only_mono (by simp) ?_ stepped) <|
      only_trans (only_mono (by simp) ?_ modes.1) <| only_trans (only_mono (by simp) (fun _ => False.elim) kept) (only_mono (fun _ x => x) ?_ closed)
    · exact fun o h => .inr ((by decide : ∀ o ∈ [Reg.OSC_UPDATES_LO, Reg.OSC_UPDATES_HI, Reg.OSC_SKIPPED], o ∈ [Reg.OSC_UPDATES_LO,
        Reg.OSC_UPDATES_HI, Reg.OSC_SKIPPED, Reg.OSC_NO_SLOT, Reg.OSC_STATUS, Reg.OSC_COND]) o h)
    · rintro _ rfl
      exact .inr (by decide)
    · exact fun o h => h.imp id (fun h => (by decide : ∀ o ∈ [Reg.OSC_STATUS, Reg.OSC_COND], o ∈ [Reg.OSC_UPDATES_LO, Reg.OSC_UPDATES_HI,
        Reg.OSC_SKIPPED, Reg.OSC_NO_SLOT, Reg.OSC_STATUS, Reg.OSC_COND]) o h)
  · rw [em, Dev.modOsc_osc, em_of_modes modes, emStepped_next]
  · rw [only_reg64 closed (fun h => h.elim (not_eventReg (by decide)) (by decide)) (fun h => h.elim (not_eventReg (by decide)) (by decide)),
      only_reg64 kept id id, only_reg64 modes.1 (by decide) (by decide), emStepped_counts]
    rfl

/-- The sub-synchronous update takes its epoch and completes; the other tracker stays. -/
theorem ssoUpdate_effect (hn : d.nextUpdate 1 = some e) :
    only [.regs, .hif, .osc] (fun o => eventReg o ∨ o ∈ [Reg.OSC_SKIPPED, Reg.OSC_NO_SLOT, Reg.OSC_STATUS, Reg.OSC_COND]) d d.ssoUpdate
    ∧ d.ssoUpdate.osc.sso.next = some (e + 1) ∧ d.ssoUpdate.osc.em = d.osc.em ∧ d.ssoUpdate.osc.updated = true := by
  obtain ⟨sigs, x, skips, t, used, tick, gone, born, modes, result⟩ := ssoUpdate_stages hseal ht hb hn
  have stepped := ssoStepped_only d e sigs x skips
  obtain ⟨closed, em, sso, updated⟩ := closeUpdate_effect t q e used tick gone born false
  rw [result]
  refine ⟨?_, ?_, ?_, updated⟩
  · refine only_trans (only_mono (by simp) ?_ stepped) <| only_trans (only_mono (by simp) ?_ modes.1) (only_mono (fun _ x => x) ?_ closed)
    · exact fun o h => .inr ((by decide : ∀ o ∈ [Reg.OSC_SKIPPED], o ∈ [Reg.OSC_SKIPPED, Reg.OSC_NO_SLOT, Reg.OSC_STATUS, Reg.OSC_COND]) o h)
    · rintro _ rfl
      exact .inr (by decide)
    · exact fun o h => h.imp id (fun h => (by decide : ∀ o ∈ [Reg.OSC_STATUS, Reg.OSC_COND],
        o ∈ [Reg.OSC_SKIPPED, Reg.OSC_NO_SLOT, Reg.OSC_STATUS, Reg.OSC_COND]) o h)
  · rw [sso, sso_of_modes modes, ssoStepped_next]
  · rw [em, em_of_modes modes, ssoStepped_em]

end Effect

end Sys2Proof.Machine
end

section
/-! Proofs about the ranking of the modes (R161): what it leaves, and what it reads. -/

namespace Sys2Proof.Machine

open Sys2Proof

/-! ## What a ranking leaves -/

theorem rank_only (d : Dev) (q : SealInfo) (e : Nat) (p : Nat → Prop) : only [.osc] p d (d.rank q e) := modOsc_only _ _ _

theorem rank_osc (d : Dev) (q : SealInfo) (e : Nat) : (d.rank q e).osc = { d.osc with ranks := (d.rank q e).osc.ranks } := rfl

/-- The ranking that is due is no longer held. -/
def Dev.takeRanking (d : Dev) : Dev := d.modOsc (fun o => { o with ranking := none })

/-- The condition word after a ranking, set where it has changed. -/
def Dev.wordRanked (d : Dev) (e : Nat) : Dev := if d.oscWord e = d.regN Reg.OSC_COND then d else d.setOscWord e (d.oscWord e)

theorem wordRanked_effect (d : Dev) (e : Nat) :
    only [.regs, .osc] (fun o => o ∈ [Reg.OSC_STATUS, Reg.OSC_COND]) d (d.wordRanked e)
    ∧ ∃ updated word, (d.wordRanked e).osc = { d.osc with updated := updated, wordEpoch := word } := by
  unfold Dev.wordRanked
  split
  · exact ⟨only_refl _ _ _, _, _, rfl⟩
  · exact ⟨setOscWord_only _ _ _, _, _, setOscWord_osc _ _ _⟩

section Ranking

variable {d : Dev} {e used : Nat} {place : Bool} {retired : List (Nat × ModeSlot)} {q : SealInfo}
  (hr : d.osc.ranking = some (e, used, place, retired)) (hseal : d.sealOf e = some q)

include hr hseal

theorem energyRanking_due : ∃ place', d.energyRanking = ((d.takeRanking.rank q e).wordRanked e).oscReport e used place' retired := by
  have sealed : (d.modOsc (fun o => { o with ranking := none })).sealOf e = some q := hseal
  simp only [Dev.energyRanking, hr, sealed]
  exact ⟨_, rfl⟩

/-- The ranking that is due is made and reported; the trackers stay. -/
theorem energyRanking_effect :
    only [.regs, .hif, .osc] wordReg d d.energyRanking ∧ d.energyRanking.osc.ranking = none
    ∧ d.energyRanking.osc.ranks = (d.takeRanking.rank q e).osc.ranks ∧ d.energyRanking.osc.report.isSome = true
    ∧ d.energyRanking.osc.em = d.osc.em ∧ d.energyRanking.osc.sso = d.osc.sso := by
  obtain ⟨place', result⟩ := energyRanking_due hr hseal
  have ranked : only [.osc] (fun _ => False) d (d.takeRanking.rank q e) := only_trans (modOsc_only _ _ _) (rank_only _ _ _ _)
  have osc := rank_osc d.takeRanking q e
  generalize d.takeRanking.rank q e = d2 at result ranked osc
  obtain ⟨worded, _, _, osc'⟩ := wordRanked_effect d2 e
  obtain ⟨reported, _, _, osc''⟩ := oscReport_effect (d2.wordRanked e) e used place' retired
  refine ⟨?_, ?_⟩
  · rw [result]
    exact only_trans (only_mono (by simp) (fun _ => False.elim) ranked) (only_trans (only_mono (by simp) (fun _ => .inr) worded)
      (only_mono (fun _ x => x) (fun _ => .inl) reported))
  · rw [result, osc'', osc']
    refine ⟨?_, rfl, rfl, ?_, ?_⟩ <;> rw [osc] <;> rfl

end Ranking

/-! ## What a ranking reads -/

/-- Two devices of the same streams, modes, branches, positions and registers outside the scheduler's. -/
def ranksAlike (d t : Dev) : Prop :=
  t.ing = d.ing ∧ t.osc.slots = d.osc.slots ∧ t.osc.ranks = d.osc.ranks ∧ t.osc.defs = d.osc.defs
    ∧ ∀ f : FieldAt, ¬ schReg f.off → t.fld f = d.fld f

section Alike

variable {d t : Dev} (h : ranksAlike d t) (q : SealInfo) (e : Nat)

include h

theorem slotVal_alike (slot : Nat) : t.slotVal q e slot = d.slotVal q e slot := by
  obtain ⟨ing, -, -, -, fld⟩ := h
  have mode : t.fld Fld.OSC_CFG_USE_TEST = d.fld Fld.OSC_CFG_USE_TEST := fld _ (by unfold schReg; decide)
  have read : t.slotIn q e slot = d.slotIn q e slot := by
    simp only [Dev.slotIn, Dev.chan, Dev.entryAt, Dev.stream, ing]
  have usable : t.usable = d.usable := by
    funext r
    simp only [Dev.usable, Dev.bit, mode]
  rw [Dev.slotVal, read, usable, Dev.slotVal]

theorem confident_alike (m : ModeSlot) : t.confident m = d.confident m := by
  obtain ⟨-, -, -, -, fld⟩ := h
  have age : t.fld Fld.OSC_CONF_MIN_AGE = d.fld Fld.OSC_CONF_MIN_AGE := fld _ (by unfold schReg; decide)
  have sd : t.fld Fld.OSC_CONF_SD_MAX = d.fld Fld.OSC_CONF_SD_MAX := fld _ (by unfold schReg; decide)
  have snr : t.fld Fld.OSC_CONF_SNR_MIN = d.fld Fld.OSC_CONF_SNR_MIN := fld _ (by unfold schReg; decide)
  simp only [Dev.confident, age, sd, snr]

theorem rankedModes_alike : t.rankedModes = d.rankedModes := by
  have confident := confident_alike h
  obtain ⟨-, slots, -, -, fld⟩ := h
  have sso : t.fld Fld.OSC_CFG_SSO_SLOTS = d.fld Fld.OSC_CFG_SSO_SLOTS := fld _ (by unfold schReg; decide)
  have number : t.fld Fld.OSC_DEF_N_RANK = d.fld Fld.OSC_DEF_N_RANK := fld _ (by unfold schReg; decide)
  simp only [Dev.rankedModes, Dev.bandSlots, Dev.modeSlot, slots, confident, sso, number]

theorem rankBranch_alike (f : DWord) (k : RankSt) (b : Nat × DefEntry) : t.rankBranch q e f k b = d.rankBranch q e f k b := by
  have value := slotVal_alike h q e
  obtain ⟨-, -, -, -, fld⟩ := h
  have rate : t.rate = d.rate := fld _ (by unfold schReg; decide)
  have win : t.fld Fld.OSC_DEF_WIN = d.fld Fld.OSC_DEF_WIN := fld _ (by unfold schReg; decide)
  have width : t.fld Fld.OSC_DEF_BW_PCT = d.fld Fld.OSC_DEF_BW_PCT := fld _ (by unfold schReg; decide)
  simp only [Dev.rankBranch, value, rate, win, width]

theorem rank_alike : (t.rank q e).osc.ranks = (d.rank q e).osc.ranks := by
  have branch : t.rankBranch q e = d.rankBranch q e := by
    funext f k b
    exact rankBranch_alike h q e f k b
  have modes := rankedModes_alike h
  obtain ⟨-, -, ranks, defs, -⟩ := h
  simp only [Dev.rank, Dev.modOsc_osc, branch, modes, ranks, defs]

end Alike

end Sys2Proof.Machine
end

section
/-! The statement about the updates of the oscillation trackers (O4): each is made as its work item completes, and the service of that item leaves
the trackers and what they read (R150, R151, R159, R161, R164, R166, R329). -/

namespace Sys2Proof.Machine

open Sys2Proof

/-! ## The device that has served an item -/

section Served

variable {d t : Dev} (h : only [.regs, .sch] schReg d t)

include h

theorem served_osc : t.osc = d.osc := only_osc h (by simp)

theorem served_crt : t.crt = d.crt := only_crt h (by simp)

theorem served_deadline (e : Nat) : t.deadline e = d.deadline e := by
  rw [Dev.deadline, Dev.rate, Dev.wait16, only_fld h (by unfold schReg; decide), only_fld h (by unfold schReg; decide)]
  rfl

theorem served_g16 : t.g16 = d.g16 := by rw [Dev.g16, only_tim h (by simp), Dev.g16]

theorem served_sealOf (e : Nat) : t.sealOf e = d.sealOf e := by
  rw [Dev.sealOf, slot_of_crt (served_crt h), served_crt h]
  rfl

theorem served_nextUpdate (b : Nat) : t.nextUpdate b = d.nextUpdate b := by
  have on : t.bandOn b = d.bandOn b := by
    rw [Dev.bandOn, only_bit h (by unfold schReg; decide), only_bit h (by unfold schReg; decide), Dev.bandOn]
  rw [Dev.nextUpdate, on, band_of_osc (served_osc h), served_crt h, Dev.craterRuns, only_bit h (by unfold schReg; decide)]
  rfl

/-- The ranking reads nothing that the service moves. -/
theorem served_ranksAlike : ranksAlike d t.takeRanking := by
  have ing : t.ing = d.ing := only_ing h (by simp)
  have osc : t.takeRanking.osc = { d.osc with ranking := none } := by rw [← served_osc h]; rfl
  exact ⟨ing, by rw [osc], by rw [osc], by rw [osc], fun _ hf => only_fld h hf⟩

end Served

/-! ## The rows -/

theorem exec_trackUpdate (s : State) (dt : Nat) : exec (.trackUpdate dt) s = s.run dt (fun _ d => d.updateItem 0) := rfl
theorem exec_ssoUpdate (s : State) (dt : Nat) : exec (.ssoUpdate dt) s = s.run dt (fun _ d => d.updateItem 1) := rfl
theorem exec_energyRanking (s : State) (dt : Nat) : exec (.energyRanking dt) s = s.run dt (fun _ d => d.rankItem) := rfl
theorem exec_trackerLag (s : State) (dt b : Nat) : exec (.trackerLag dt b) s = s.run dt (fun _ d => d.checkLag b) := rfl

section Items

variable {d : Dev} {e : Nat}

theorem rankItem_none (hrank : d.osc.ranking = none) : d.rankItem = d := by simp only [Dev.rankItem, hrank]

theorem rankItem_due {x : Nat × Bool × List (Nat × ModeSlot)} (hrank : d.osc.ranking = some (e, x)) (hserved : (d.serve 0x07 e).2 = true) :
    d.rankItem = (d.serve 0x07 e).1.energyRanking := by
  simp only [Dev.rankItem, hrank, hserved, if_true]

variable (ht : d.g16 < d.deadline (e + 1)) (hb : d.crt.nextSeal < e + 8)

include ht hb

theorem updateItem_em (hrank : d.osc.ranking = none) (hn : d.nextUpdate 0 = some e) (hserved : (d.serve 0x05 e).2 = true) :
    d.updateItem 0 = (d.serve 0x05 e).1.trackUpdate := by
  simp [Dev.updateItem, rankItem_none hrank, checkLag_timely hn ht hb, hrank, hn, hserved]

theorem updateItem_sso (hn : d.nextUpdate 1 = some e) (hserved : (d.serve 0x06 e).2 = true) :
    d.updateItem 1 = (d.serve 0x06 e).1.ssoUpdate := by
  simp [Dev.updateItem, checkLag_timely hn ht hb, hn, hserved]

end Items

/-- A row that serves an item first moves the scheduler and what its update moves. -/
theorem served_only {p q : Nat → Prop} {d x t : Dev} (h : only [.regs, .sch] schReg d x) (k : only [.regs, .hif, .osc] p x t)
    (hs : ∀ o, schReg o → q o) (hp : ∀ o, p o → q o) : only [.regs, .hif, .osc, .sch] q d t :=
  only_trans (only_mono (by simp) hs h) (only_mono (by simp) hp k)

/-- Settles O4: the item is served, and the update that then completes says what has changed. -/
theorem oscillationUpdatesTakeEffect : Obligations.OscillationUpdatesTakeEffect := by
  unfold Obligations.OscillationUpdatesTakeEffect
  refine ⟨?_, ?_, ?_, ?_, ?_, ?_, ?_⟩
  · rintro s dt e d q rfl hrank hn hseal ⟨ht, hb⟩ ⟨calm, hserved⟩
    have moved := serve_only calm 0x05 e
    have row := updateItem_em ht hb hrank hn hserved
    generalize ((later s.dev dt).serve 0x05 e).1 = x at moved row
    obtain ⟨frame, next, counted, updated⟩ := trackUpdate_effect ((served_sealOf moved e).trans hseal)
      (by rwa [served_g16 moved, served_deadline moved]) (by rwa [served_crt moved]) (by rwa [served_osc moved])
      ((served_nextUpdate moved 0).trans hn)
    rw [exec_trackUpdate]
    refine exists_run_moves row (served_only moved frame (fun _ h => .inr (.inr h)) fun _ h => h.imp id .inl) ⟨next, ?_, updated⟩
    rw [counted, only_reg64 moved (by unfold schReg; decide) (by unfold schReg; decide)]
  · rintro s dt e d q rfl hn hseal ⟨ht, hb⟩ ⟨calm, hserved⟩
    have moved := serve_only calm 0x06 e
    have row := updateItem_sso ht hb hn hserved
    generalize ((later s.dev dt).serve 0x06 e).1 = x at moved row
    obtain ⟨frame, next, em, updated⟩ := ssoUpdate_effect ((served_sealOf moved e).trans hseal)
      (by rwa [served_g16 moved, served_deadline moved]) (by rwa [served_crt moved]) ((served_nextUpdate moved 1).trans hn)
    rw [exec_ssoUpdate]
    exact exists_run_moves row (served_only moved frame (fun _ h => .inr (.inr h)) fun _ h => h.imp id .inl)
      ⟨next, em.trans (by rw [served_osc moved]), updated⟩
  · rintro s dt e used place retired d q rfl hrank hseal ⟨calm, hserved⟩
    have moved := serve_only calm 0x07 e
    have row := rankItem_due hrank hserved
    generalize ((later s.dev dt).serve 0x07 e).1 = x at moved row
    obtain ⟨frame, none_due, ranks, report, em, sso⟩ :=
      energyRanking_effect (by rw [served_osc moved]; exact hrank) ((served_sealOf moved e).trans hseal)
    rw [exec_energyRanking]
    refine exists_run_moves row (served_only moved frame (fun _ h => .inr (.inr h)) fun _ h => h.imp id .inl)
      ⟨none_due, ranks.trans (rank_alike (served_ranksAlike moved) q e), report, ?_, ?_⟩
    · rw [em, served_osc moved]
    · rw [sso, served_osc moved]
  · rintro s dt b e d rfl - hn ⟨hlate, hb⟩
    obtain ⟨frame, counted, band⟩ := checkLag_late hn hlate hb
    rw [exec_trackerLag]
    exact exists_run_moves rfl frame ⟨counted, by rw [band], by rw [band], by rw [band]⟩
  · rintro s dt b e d rfl - hn hlag ⟨hlate, hseal⟩
    have late := lateUpdates_single hlag hlate hseal
    obtain ⟨frame, counted, band⟩ := checkLag_late hn (by rw [late]; simp) (by omega)
    rw [late] at counted band
    rw [exec_trackerLag]
    exact exists_run_moves rfl frame ⟨counted, by rw [band], by rw [band]; rfl⟩
  · rintro s dt b e d rfl - hn hb
    obtain ⟨frame, rest⟩ := checkLag_behind hn hb
    rw [exec_trackerLag]
    exact exists_run_moves rfl frame rest
  · intro r lam lim ys b h
    exact trackStep_skipped h

end Sys2Proof.Machine
end

section
/-! The statement about the tables, acknowledgements and reads of the alarm path (O5): what each command makes of the tables of the island engine and
of Fumarole (R176, R177, R178, R184, R185, R188, R197, R210). -/

namespace Sys2Proof.Machine

open Sys2Proof

/-! ## The statuses of R82 -/

/-- With no status against a list of changes, a bad image makes S_RANGE. -/
theorem firstStatus_append_range {l : List Nat} (h : firstStatus l = none) : firstStatus (l ++ [sRange]) = some sRange := by
  have absent : ∀ s ∈ statusOrder, s ∉ l := by simpa [firstStatus] using h
  have busy : sBusy ∉ l := absent sBusy (by decide)
  have late : sLate ∉ l := absent sLate (by decide)
  have busyFirst : sBusy ≠ sRange := by decide
  have lateFirst : sLate ≠ sRange := by decide
  simp [firstStatus, statusOrder, busy, late, busyFirst, lateFirst]

theorem changeStatus_range {α : Type} {d : Dev} {eff : Nat} {imm : Bool} {l : List (Nat × Option α)} {t : Tbl (Held α)}
    (h : d.changeStatus eff imm false l t = none) : d.changeStatus eff imm true l t = some sRange := by
  rw [Dev.changeStatus, if_neg Bool.false_ne_true, List.append_nil] at h
  rw [Dev.changeStatus, if_pos rfl]
  exact firstStatus_append_range h

/-! ## The checks of a table command -/

/-- The checks of a table command before those of its effective epoch: at most `most` images, all within a table of `size` entries, no
reserved bit set, and every entry given fits. -/
def tableBad {α : Type} (most size first count : Nat) (reserved : Bool) (fits : α → Bool) (l : List (Nat × Option α)) : Bool :=
  decide (count = 0) || decide (most < count) || decide (size < first + count) || reserved || l.any (fun x => x.2.any (fun g => !fits g))

section Checks

variable {α : Type} {most size first count : Nat} {reserved : Bool} {fits : α → Bool} {l : List (Nat × Option α)}

theorem tableBad_of_unfit (h : l.any (fun x => x.2.any (fun g => !fits g)) = true) : tableBad most size first count reserved fits l = true := by
  rw [tableBad, h, Bool.or_true]

theorem tableBad_of_fits (hc : 1 ≤ count ∧ count ≤ most ∧ first + count ≤ size) (hresv : reserved = false)
    (hfit : l.all (fun x => x.2.all fits) = true) : tableBad most size first count reserved fits l = false := by
  obtain ⟨h1, h2, h3⟩ := hc
  rw [tableBad, hresv, any_unfit_of_all (f := fun (x : Nat × Option α) => x.2) hfit,
    decide_eq_false (by omega), decide_eq_false (by omega), decide_eq_false (by omega)]
  rfl

end Checks

/-! ## The tables (R178, R184, R185) -/

section Tables

variable {d : Dev} {first count eff : Nat} {images : Bytes} {imm : Bool}

/-- The checks of ISL_NODE_SET (R178). -/
def Dev.nodesBad (d : Dev) (first count : Nat) (images : Bytes) : Bool :=
  tableBad 256 8192 first count ((imagesOf 16 count images).any (resvSet nodeResv)) d.nodeFits (nodeImages first count images)

/-- The checks of ISL_BRANCH_SET (R178). -/
def Dev.branchesBad (d : Dev) (first count : Nat) (images : Bytes) : Bool :=
  tableBad 256 32768 first count ((imagesOf 16 count images).any (resvSet branchResv)) d.branchFits (branchImages first count images)

/-- The checks of RULE_SET (R185). -/
def Dev.rulesBad (d : Dev) (first count : Nat) (images : Bytes) : Bool :=
  tableBad 64 512 first count ((imagesOf 32 count images).any (resvSet ruleResv)) d.ruleFits (ruleImages first count images)

theorem islNodeSet_changes {t : Tbl (Held NodeEntry)} (hbad : d.nodesBad first count images = false)
    (hstatus : d.changeStatus eff imm false (nodeImages first count images) d.isl.nodes = none)
    (hall : d.changeAll eff imm (nodeImages first count images) d.isl.nodes = .ok t) :
    islNodeSet first count images eff imm d = ((d.modIsl (fun i => { i with nodes := t })).noteChange eff imm, .ok) := by
  rw [Dev.nodesBad, tableBad] at hbad
  simp only [islNodeSet, hbad, hstatus, hall]

theorem islNodeSet_range (hbad : d.nodesBad first count images = true)
    (hstatus : d.changeStatus eff imm false (nodeImages first count images) d.isl.nodes = none) :
    islNodeSet first count images eff imm d = (d, .done sRange 0) := by
  rw [Dev.nodesBad, tableBad] at hbad
  simp only [islNodeSet, hbad, changeStatus_range hstatus]

theorem islBranchSet_changes {t : Tbl (Held BranchEntry)} (hbad : d.branchesBad first count images = false)
    (hstatus : d.changeStatus eff imm false (branchImages first count images) d.isl.branches = none)
    (hall : d.changeAll eff imm (branchImages first count images) d.isl.branches = .ok t) :
    islBranchSet first count images eff imm d = ((d.modIsl (fun i => { i with branches := t })).noteChange eff imm, .ok) := by
  rw [Dev.branchesBad, tableBad] at hbad
  simp only [islBranchSet, hbad, hstatus, hall]

theorem islBranchSet_range (hbad : d.branchesBad first count images = true)
    (hstatus : d.changeStatus eff imm false (branchImages first count images) d.isl.branches = none) :
    islBranchSet first count images eff imm d = (d, .done sRange 0) := by
  rw [Dev.branchesBad, tableBad] at hbad
  simp only [islBranchSet, hbad, changeStatus_range hstatus]

theorem ruleSet_changes (hbad : d.rulesBad first count images = false)
    (hstatus : d.changeStatus eff imm false (ruleImages first count images) d.ruleEntries = none) :
    ruleSet first count images eff imm d
      = (d.modFum (fun f => { f with rules := (ruleImages first count images).foldl (d.putRule eff imm) f.rules }), .ok) := by
  rw [Dev.rulesBad, tableBad] at hbad
  simp only [ruleSet, hbad, hstatus]

theorem ruleSet_range (hbad : d.rulesBad first count images = true)
    (hstatus : d.changeStatus eff imm false (ruleImages first count images) d.ruleEntries = none) :
    ruleSet first count images eff imm d = (d, .done sRange 0) := by
  rw [Dev.rulesBad, tableBad] at hbad
  simp only [ruleSet, hbad, changeStatus_range hstatus]

end Tables

/-! ## Publications, acknowledgements and FUM_READ (R188, R197, R210) -/

theorem expSet_eq (k : KeySt) (pub : Nat) (o : ExpOps) (d : Dev) : expSet k pub o d
    = (if expFits k pub o then d.modFum (fun f => { f with pubs := f.pubs.put pub (pubOf o) }) else d,
      if expFits k pub o then .ok else .done sRange 0) := by
  unfold expSet
  split <;> rfl

theorem fumRead_eq (buf : HostBuf) (d : Dev) :
    fumRead buf d = (d, if buf.len < 544 then .done sRange 0 else .block d.fumBlock (some buf.addr)) := by
  unfold fumRead
  split <;> rfl

theorem almAck_of_named {rule : Nat} (d : Dev) (h : rule < 512 ∨ rule = 0xFFFF) :
    almAck rule d = (d.modFum (fun f => { f with rules := f.rules.mapVals (ackRule rule) }), .ok) := if_pos h

theorem almAck_of_outOfRange {rule : Nat} (d : Dev) (h : 512 ≤ rule ∧ rule ≠ 0xFFFF) : almAck rule d = (d, .done sRange 0) :=
  if_neg (by omega)

/-! ## The rows on a ring -/

/-- A row that a ring accepts whenever it is ready answers with what its command makes of the device. -/
theorem exec_of_accept {i : Instr} {s : State} {c : Ctx} (f : KeySt → Dev → Dev × CmdRes) {res : Dev × CmdRes}
    (hr : ready s.dev c.ring false none) (hi : exec i s = s.run 0 (fun k d => d.accept c false none (f k)))
    (h : f s.key (fetched s.dev c.ring) = res) : exec i s = .next (served s c res.1 res.2) := by
  rw [hi, run_accept_ready f hr, h]

/-- Settles O5: each command is accepted; the checks of its images, or of its operands, decide between its effect and S_RANGE. -/
theorem alarmTablesTakeEffect : Obligations.AlarmTablesTakeEffect := by
  unfold Obligations.AlarmTablesTakeEffect
  refine ⟨?_, ?_, ?_, ?_, ?_, ?_, ?_, ?_, ?_, ?_⟩
  · rintro s c d first count eff images imm t hr rfl hc hresv hfit hstatus hall
    exact exec_of_accept (fun _ => islNodeSet first count images eff imm) hr rfl (islNodeSet_changes (tableBad_of_fits hc hresv hfit) hstatus hall)
  · rintro s c d first count eff images imm hr rfl hfit hstatus
    exact exec_of_accept (fun _ => islNodeSet first count images eff imm) hr rfl (islNodeSet_range (tableBad_of_unfit hfit) hstatus)
  · rintro s c d first count eff images imm t hr rfl hc hresv hfit hstatus hall
    exact exec_of_accept (fun _ => islBranchSet first count images eff imm) hr rfl
      (islBranchSet_changes (tableBad_of_fits hc hresv hfit) hstatus hall)
  · rintro s c d first count eff images imm hr rfl hfit hstatus
    exact exec_of_accept (fun _ => islBranchSet first count images eff imm) hr rfl (islBranchSet_range (tableBad_of_unfit hfit) hstatus)
  · rintro s c d first count eff images imm hr rfl hc hresv hfit hstatus
    exact exec_of_accept (fun _ => ruleSet first count images eff imm) hr rfl (ruleSet_changes (tableBad_of_fits hc hresv hfit) hstatus)
  · rintro s c d first count eff images imm hr rfl hfit hstatus
    exact exec_of_accept (fun _ => ruleSet first count images eff imm) hr rfl (ruleSet_range (tableBad_of_unfit hfit) hstatus)
  · rintro s c d pub o hr rfl
    exact exec_of_accept (fun k => expSet k pub o) hr rfl (expSet_eq s.key pub o _)
  · rintro s c d rule hr rfl h
    exact exec_of_accept (fun _ => almAck rule) hr rfl (almAck_of_named _ h)
  · rintro s c d rule hr rfl h
    exact exec_of_accept (fun _ => almAck rule) hr rfl (almAck_of_outOfRange _ h)
  · rintro s c d buf hr rfl
    exact exec_of_accept (fun _ => fumRead buf) hr rfl (fumRead_eq buf _)

end Sys2Proof.Machine
end

section
/-! Proofs about the outputs of the alarm path: masks, alarm-ring records, express publications, ALM pins and ALMOK (R194 to R198, R204). -/

namespace Sys2Proof

/-! ## Masks -/

/-- A bit that is put leaves what lies above it and below it. -/
theorem putBit_eq (m i : Nat) (b : Bool) : putBit m i b = 2 ^ i * (2 * (m / 2 ^ i / 2) + b.toNat) + m % 2 ^ i := by
  have whole := Nat.div_add_mod m (2 ^ i)
  have half := Nat.div_add_mod (m / 2 ^ i) 2
  rw [putBit, Nat.testBit_eq_decide_div_mod_eq]
  generalize m / 2 ^ i / 2 = w at half ⊢
  rcases Nat.mod_two_eq_zero_or_one (m / 2 ^ i) with odd | odd
  all_goals
    rw [odd] at half ⊢
    rw [← half, Nat.mul_add] at whole
    cases b <;> simp [Nat.mul_add] <;> omega

theorem testBit_putBit (m i j : Nat) (b : Bool) : (putBit m i b).testBit j = if j = i then b else m.testBit j := by
  have low : m % 2 ^ i < 2 ^ i := Nat.mod_lt _ (by positivity)
  have parts : m.testBit j = (2 ^ i * (m / 2 ^ i) + m % 2 ^ i).testBit j := by rw [Nat.div_add_mod]
  rw [putBit_eq, Nat.testBit_two_pow_mul_add _ low, parts, Nat.testBit_two_pow_mul_add _ low]
  rcases lt_trichotomy j i with h | rfl | h
  · simp [h, h.ne]
  · cases b <;> simp [Nat.testBit_zero]
  · obtain ⟨k, rfl⟩ : ∃ k, j = i + (k + 1) := ⟨j - i - 1, by omega⟩
    rw [if_neg (by omega), if_neg (by omega), if_neg (by omega), Nat.add_sub_cancel_left, Nat.testBit_succ, Nat.testBit_succ]
    have above : (2 * (m / 2 ^ i / 2) + b.toNat) / 2 = m / 2 ^ i / 2 := by cases b <;> simp; omega
    rw [above]

theorem getElem?_modifyAt_other {α : Type} (f : α → α) (l : List α) {n k : Nat} (h : k ≠ n) : (modifyAt l n f)[k]? = l[k]? := by
  induction l generalizing n k with
  | nil => rfl
  | cons x t ih =>
    cases n with
    | zero =>
      obtain ⟨k, rfl⟩ := Nat.exists_eq_succ_of_ne_zero h
      rfl
    | succ n =>
      cases k with
      | zero => rfl
      | succ k => exact ih (fun e => h (congrArg Nat.succ e))

end Sys2Proof

namespace Sys2Proof.Machine

open Sys2Proof

/-! ## Parts of the device -/

section Parts

variable {l : List Part} {p : Nat → Prop} {d t : Dev} (h : only l p d t)

include h

theorem only_isl (hn : Part.isl ∉ l) : t.isl = d.isl := by obtain ⟨-, -, -, -, -, isl, -⟩ := h.1; exact isl hn
theorem only_fum (hn : Part.fum ∉ l) : t.fum = d.fum := by obtain ⟨-, -, -, -, -, -, fum, -⟩ := h.1; exact fum hn

end Parts

theorem modIsl_only (d : Dev) (f : IslSt → IslSt) (p : Nat → Prop) : only [.isl] p d (d.modIsl f) :=
  only_of_kept (by simp [keptBut, Dev.modIsl]) rfl

theorem modFum_only (d : Dev) (f : FumSt → FumSt) (p : Nat → Prop) : only [.fum] p d (d.modFum f) :=
  only_of_kept (by simp [keptBut, Dev.modFum]) rfl

theorem modFab_only (d : Dev) (f : FabSt → FabSt) (p : Nat → Prop) : only [.fab] p d (d.modFab f) :=
  only_of_kept (by simp [keptBut, Dev.modFab]) rfl

/-! ## Alarm-ring records (R204, R205) -/

/-- The registers that records of the alarm ring move. -/
def alarmReg (o : Nat) : Prop := signalReg o ∨ o = Reg.FUM_RING_LOST

theorem alarmSend_only (d : Dev) (recs : List Bytes) : only [.regs, .hif] alarmReg d (d.alarmSend recs) := by
  unfold Dev.alarmSend
  split
  · exact only_refl _ _ _
  · exact enqueue_only _ _ _ _ _

/-- From `d` to `t` records were numbered and sent to the alarm ring: of Fumarole's own state only the record number has changed. -/
def recordsOnly (d t : Dev) : Prop := only [.regs, .hif, .fum] alarmReg d t ∧ ∃ n, t.fum = { d.fum with recSeq := n }

theorem recordsOnly_refl (d : Dev) : recordsOnly d d := ⟨only_refl _ _ _, _, rfl⟩

theorem recordsOnly_trans {a b c : Dev} (h : recordsOnly a b) (k : recordsOnly b c) : recordsOnly a c := by
  obtain ⟨frame, _, e⟩ := h
  obtain ⟨frame', _, e'⟩ := k
  exact ⟨only_trans frame frame', _, by rw [e', e]⟩

theorem alarmSend_records (d : Dev) (recs : List Bytes) : recordsOnly d (d.alarmSend recs) :=
  ⟨only_wider (alarmSend_only d recs) (by simp), _, only_fum (alarmSend_only d recs) (by simp)⟩

theorem bumpRecSeq_records (d : Dev) : recordsOnly d d.bumpRecSeq := ⟨only_of_kept (by simp [keptBut, Dev.bumpRecSeq]) rfl, _, rfl⟩

theorem draw_records (d : Dev) : recordsOnly d d.draw.2 := ⟨only_wider (draw_only d _) (by simp), _, rfl⟩

theorem gridRecBytes_records (d : Dev) (off : Nat) (r : GridRec) : recordsOnly d (d.gridRecBytes off r).1 := by
  unfold Dev.gridRecBytes
  split
  · exact bumpRecSeq_records d
  · exact recordsOnly_trans (draw_records d) (bumpRecSeq_records _)

theorem numberReport_records (d : Dev) (r : Bytes × Bytes) : recordsOnly d (d.numberReport r).1 := bumpRecSeq_records d

theorem ruleRecord_records (d : Dev) (s : SealInfo) (e off n : Nat) (st : RuleSt) (ev : RuleEv) (v : Option Word) :
    recordsOnly d (d.ruleRecord s e off n st ev v).1 := by
  unfold Dev.ruleRecord
  split
  · exact recordsOnly_refl d
  · simp only
    refine recordsOnly_trans ?_ (bumpRecSeq_records _)
    split
    · exact recordsOnly_refl d
    · split
      · exact recordsOnly_refl d
      · exact draw_records d

/-- Records that are made one after the other. -/
theorem foldl_records {α : Type} {f : Dev → α → Dev × Bytes} (step : ∀ x a, recordsOnly x (f x a).1) (l : List α)
    (acc : Dev × List Bytes) : recordsOnly acc.1 (l.foldl (fun acc a => ((f acc.1 a).1, acc.2 ++ [(f acc.1 a).2])) acc).1 :=
  foldl_keeps (R := fun (a b : Dev × List Bytes) => recordsOnly a.1 b.1) (fun _ => recordsOnly_refl _) (fun h k => recordsOnly_trans h k)
    (fun x a => step x.1 a) l acc

/-! ## Express publications (R198, R199) -/

/-- The registers that a frame of a publication moves. -/
def expressReg (o : Nat) : Prop := o = Reg.FUM_EXP_DROP ∨ ∃ k, k < 4 ∧ o = Reg.NET_Pp_TX_Q_LOST k

theorem setPort_only (d : Dev) (p : Nat) (x : PortSt) (q : Nat → Prop) : only [.net] q d (d.setPort p x) :=
  only_of_kept (by simp [keptBut, Dev.setPort]) rfl

theorem queueExpress_only (d : Dev) {p : Nat} (hp : p < 4) (f : TxFrame) : only [.regs, .net] expressReg d (d.queueExpress p f) := by
  unfold Dev.queueExpress
  split
  · exact only_mono (by simp) (fun _ => .inl) (count_only _ _ _)
  · exact only_trans (only_wider (setPort_only _ _ _ _) (by simp)) (only_mono (by simp) (fun _ h => .inr ⟨p, hp, h⟩) (count_only _ _ _))

theorem sendPub_only (d : Dev) (n : Nat) (p : Pub) (ordinary : Bool) : only [.regs, .net] expressReg d (d.sendPub n p ordinary) := by
  have ports : ∀ k ∈ bitsOf 4 p.portMask, k < 4 := fun k hk => List.mem_range.mp (List.mem_filter.mp hk).1
  unfold Dev.sendPub
  generalize bitsOf 4 p.portMask = l at ports
  induction l generalizing d with
  | nil => exact only_refl _ _ _
  | cons k l ih =>
    exact only_trans (queueExpress_only d (ports k List.mem_cons_self) _) (ih _ (fun j hj => ports j (List.mem_cons_of_mem k hj)))

theorem retransmit_due {d : Dev} {n at_ iv : Nat} {p : Pub} (hp : d.fum.pubs.find n = some p) (hnext : p.next = some (at_, iv))
    (hat : at_ ≤ d.up) (hen : p.en = true) (hctrl : d.bit Fld.FUM_CTRL_EN = true) :
    (d.retransmit n).fum.pubs.find n = some
      { p with sqNum := bump p.sqNum, next := some (at_ + min p.rtMax (2 * iv) * 1000000, min p.rtMax (2 * iv)) } := by
  simp only [Dev.retransmit, hp, hnext, hat, hen, hctrl, and_self, if_true]
  rw [only_fum (sendPub_only _ _ _ _) (by simp)]
  exact Tbl.find_put_same _ _ _

/-! ## ALM pins (R194) -/

/-- Pin `p` is driven to a level, and its state noted. -/
def Dev.setPin (d : Dev) (p : Nat) (x : PinSt) (level : Bool) : Dev :=
  (d.modFum (fun f => { f with pins := modifyAt f.pins p (fun _ => x) })).setFbit Fld.FUM_STATUS_PINS p level

theorem setPin_only (d : Dev) (p : Nat) (x : PinSt) (level : Bool) : only [.regs, .fum] (fun o => o = Reg.FUM_STATUS) d (d.setPin p x level) :=
  only_trans (only_wider (modFum_only _ _ _) (by simp)) (only_wider (setFld_only _ _ _) (by simp))

theorem pins_setPin (d : Dev) (p : Nat) (x : PinSt) (level : Bool) : (d.setPin p x level).fum.pins = modifyAt d.fum.pins p (fun _ => x) := rfl

theorem almPins_setPin (d : Dev) {p q : Nat} (hq : q < 8) (x : PinSt) (level : Bool) :
    (d.setPin p x level).almPins.testBit q = if q = p then level else d.almPins.testBit q := by
  have word : (d.setPin p x level).almPins = putBit d.almPins p level % 2 ^ 8 := Dev.fld_setFld_same _ Fld.FUM_STATUS_PINS _ (by decide)
  rw [word, Nat.testBit_mod_two_pow, testBit_putBit]
  simp [hq]

/-- What a pin does: nothing, or it is driven to a level. -/
theorem updatePin_eq (d : Dev) (want p : Nat) : d.updatePin want p = d ∨ ∃ x level, d.updatePin want p = d.setPin p x level := by
  unfold Dev.updatePin
  simp only
  split
  · split
    · exact .inl rfl
    · exact .inr ⟨_, _, rfl⟩
  · split
    · exact .inl rfl
    · split
      · exact .inr ⟨_, _, rfl⟩
      · exact .inl rfl

theorem updatePin_only (d : Dev) (want p : Nat) : only [.regs, .fum] (fun o => o = Reg.FUM_STATUS) d (d.updatePin want p) := by
  rcases updatePin_eq d want p with h | ⟨x, level, h⟩
  · rw [h]
    exact only_refl _ _ _
  · rw [h]
    exact setPin_only _ _ _ _

/-- Pin `p` is at its alarm level since `at_`, and its MIN_ON has run out. -/
def Dev.pinDue (d : Dev) (p at_ : Nat) : Prop :=
  d.fum.pins[p]? = some { since := some at_ } ∧ at_ + d.fld (Fld.FUM_PINp_MIN_ON p) * 1000000 ≤ d.up

/-- Pin `p` is released. -/
def Dev.pinReleased (d : Dev) (p : Nat) : Prop := d.fum.pins[p]? = some { since := none } ∧ d.almPins.testBit p = false

section Pin

variable {d : Dev} {want p at_ : Nat} (hp : p < 8)

/-- Another pin leaves pin `p`. -/
theorem updatePin_other {q : Nat} (hq : p ≠ q) : (d.updatePin want q).fum.pins[p]? = d.fum.pins[p]?
    ∧ (p < 8 → (d.updatePin want q).almPins.testBit p = d.almPins.testBit p) := by
  rcases updatePin_eq d want q with h | ⟨x, level, h⟩
  · rw [h]
    exact ⟨rfl, fun _ => rfl⟩
  · rw [h, pins_setPin, getElem?_modifyAt_other _ _ hq]
    exact ⟨rfl, fun hp => by rw [almPins_setPin d hp, if_neg hq]⟩

theorem pinDue_other {q : Nat} (hq : p ≠ q) (h : d.pinDue p at_) : (d.updatePin want q).pinDue p at_ := by
  obtain ⟨since, due⟩ := h
  have frame := updatePin_only d want q
  have minOn : Reg.FUM_PINp p ≠ Reg.FUM_STATUS := by simp only [Reg.FUM_PINp, Reg.FUM_STATUS]; omega
  refine ⟨(updatePin_other hq).1.trans since, ?_⟩
  rw [only_fld frame (f := Fld.FUM_PINp_MIN_ON p) minOn, Dev.up, only_tim frame (by simp)]
  exact due

include hp

theorem pinReleased_kept (hw : want.testBit p = false) (h : d.pinReleased p) (q : Nat) : (d.updatePin want q).pinReleased p := by
  by_cases hq : p = q
  · subst hq
    have idle : d.updatePin want p = d := by simp [Dev.updatePin, hw, h.1]
    rwa [idle]
  · obtain ⟨pins, level⟩ := updatePin_other (d := d) (want := want) hq
    exact ⟨pins.trans h.1, (level hp).trans h.2⟩

theorem pinDue_releases (hw : want.testBit p = false) (h : d.pinDue p at_) : (d.updatePin want p).pinReleased p := by
  obtain ⟨since, due⟩ := h
  have released : d.updatePin want p = d.setPin p { since := none } false := by
    simp only [Dev.updatePin, hw, since, Option.getD_some, Bool.false_and, if_neg Bool.false_ne_true, if_pos due]
    rfl
  rw [released]
  refine ⟨?_, by rw [almPins_setPin d hp, if_pos rfl]⟩
  rw [pins_setPin, getElem?_modifyAt_same, since]
  rfl

/-- Once every pin has moved, pin `p` is released. -/
theorem foldl_pinReleased (hw : want.testBit p = false) {l : List Nat} (hl : d.pinReleased p ∨ (p ∈ l ∧ d.pinDue p at_)) :
    (l.foldl (fun x q => x.updatePin want q) d).pinReleased p := by
  induction l generalizing d with
  | nil => simpa using hl
  | cons q l ih =>
    refine ih ?_
    rcases hl with released | ⟨mem, due⟩
    · exact .inl (pinReleased_kept hp hw released q)
    · by_cases hq : p = q
      · subst hq
        exact .inl (pinDue_releases hp hw due)
      · exact .inr ⟨List.mem_of_ne_of_mem hq mem, pinDue_other hq due⟩

/-- A pin that no rule wants is released once its MIN_ON has run out. -/
theorem updatePins_releases (hsafe : d.bit Fld.SAF_STATUS_SAFE = false) (hw : d.wantedPins.testBit p = false) (h : d.pinDue p at_) :
    d.updatePins.pinReleased p := by
  unfold Dev.updatePins
  rw [if_neg (by simp [hsafe])]
  refine foldl_pinReleased hp ?_ (.inr ⟨List.mem_range.mpr hp, h⟩)
  split
  · exact hw
  · exact Nat.zero_testBit p

end Pin

theorem updatePins_only (d : Dev) : only [.regs, .fum] (fun o => o = Reg.FUM_STATUS) d d.updatePins := by
  unfold Dev.updatePins
  split
  · exact only_wider (setFld_only _ _ _) (by simp)
  · exact only_foldl _ (fun x p => updatePin_only x _ p) _ _

/-! ## ALMOK (R195) -/

theorem refreshAlmok_only (d : Dev) : only [.regs] (fun o => o = Reg.FUM_STATUS) d d.refreshAlmok :=
  only_trans (setBit_only _ Fld.FUM_STATUS_ALMOK _)
    (only_trans (setFld_only _ Fld.FUM_STATUS_DE_COUNT _) (setBit_only _ Fld.FUM_STATUS_DE_DEGRADED _))

/-- ALMOK is refreshed, and the bits of FUM_STATUS beside the engine count stay. -/
theorem bit_refreshAlmok_almok (d : Dev) : d.refreshAlmok.bit Fld.FUM_STATUS_ALMOK = d.almokHolds := by
  rw [Dev.refreshAlmok, bit_setBit_other _ (by decide) (by decide),
    bit_of_fld (Dev.fld_setFld_other _ Fld.FUM_STATUS_DE_COUNT Fld.FUM_STATUS_ALMOK _ (by decide) (by decide)),
    Dev.bit_setBit_same _ _ _ (by decide) (by decide)]

theorem bit_refreshAlmok_running (d : Dev) : d.refreshAlmok.bit Fld.FUM_STATUS_RUNNING = d.bit Fld.FUM_STATUS_RUNNING := by
  rw [Dev.refreshAlmok, bit_setBit_other _ (by decide) (by decide),
    bit_of_fld (Dev.fld_setFld_other _ Fld.FUM_STATUS_DE_COUNT Fld.FUM_STATUS_RUNNING _ (by decide) (by decide)),
    bit_setBit_other _ (by decide) (by decide)]

theorem almokHolds_late {d : Dev} (h : d.fum.decidedAt + d.almokWindow < d.up) : d.almokHolds = false := by
  simp [Dev.almokHolds, Nat.not_le.mpr h]

end Sys2Proof.Machine
end

section
/-! Proofs about the grid alarms and the evaluation of islands: what the count of the votes and an evaluation leave of the device (R181 to R184,
R200 to R203). -/

namespace Sys2Proof.Machine

open Sys2Proof

/-! ## Grid bits and votes (R200 to R202) -/

/-- The registers that the latch of the grid bits moves. -/
def gridReg (o : Nat) : Prop := alarmReg o ∨ o = Reg.ISL_STATUS

/-- Grid bits are latched, and their records kept for the next decision or sent. -/
theorem latchGrid_effect (d : Dev) (v : VoteMsg) (who : Nat → Option Nat) :
    only [.regs, .hif, .fum] gridReg d (d.latchGrid v who)
    ∧ ∃ recs n, (d.latchGrid v who).fum
      = { d.fum with grid := v.groups, islandGrid := v.island, islMembers := v.islMembers, gridRecs := recs, recSeq := n } := by
  have sent (x : Dev) (l : List GridRec) :
      recordsOnly x (l.foldl (fun x r => (x.gridRecBytes 0 r).1.alarmSend [(x.gridRecBytes 0 r).2]) x) :=
    foldl_keeps recordsOnly_refl recordsOnly_trans (fun x r => recordsOnly_trans (gridRecBytes_records x 0 r) (alarmSend_records _ _)) l x
  unfold Dev.latchGrid
  extract_lets changed recs d1
  have latched : only [.regs, .hif, .fum] gridReg d d1 :=
    only_trans (only_wider (modFum_only _ _ _) (by simp)) (only_mono (by simp) (fun _ h => .inr h) (setBit_only _ Fld.ISL_STATUS_ISLAND_GRID _))
  split
  · exact ⟨only_trans latched (only_wider (modFum_only _ _ _) (by simp)), _, _, rfl⟩
  · obtain ⟨frame, n, fum⟩ := sent d1 recs
    exact ⟨only_trans latched (only_mono (fun _ x => x) (fun _ => .inl) frame), d.fum.gridRecs, n, fum⟩

/-- The votes are counted: the grid bits may change, and what follows from them; the votes themselves and the last decision stay. -/
theorem recount_effect (d : Dev) (vote : Option Nat) (first : Bool) :
    only [.regs, .hif, .fum, .fab] gridReg d (d.recount vote first)
    ∧ (d.recount vote first).fum.votes = d.fum.votes ∧ (d.recount vote first).fum.decided = d.fum.decided := by
  unfold Dev.recount
  extract_lets v waits votes who quorum groups msg
  split
  · exact ⟨only_refl _ _ _, rfl, rfl⟩
  · split
    · obtain ⟨frame, recs, n, fum⟩ := latchGrid_effect (d.modFum (fun f => { f with gridEpoch := msg.shortEpoch, gridOwed := false })) msg
        (fun i => some (who i))
      have out := sends_only (sendAll_sends ((d.modFum (fun f => { f with gridEpoch := msg.shortEpoch, gridOwed := false })).latchGrid msg
        (fun i => some (who i))) d.others (.gridState msg)) gridReg
      rw [only_fum out (by simp), fum]
      exact ⟨only_trans (only_wider (modFum_only _ _ _) (by simp)) (only_trans (only_wider frame (by simp)) (only_wider out (by simp))), rfl, rfl⟩
    · exact ⟨only_refl _ _ _, rfl, rfl⟩

/-- A vote that a member sends the summit is held and counted. -/
theorem voteRow_votes {d : Dev} {src : Nat} (v : VoteMsg) (hd : d.isSummit = true ∧ d.joined = true) (hsrc : d.view.members.testBit src = true) :
    (d.voteRow src v).fum.votes.find src = some v := by
  obtain ⟨summit, joined⟩ := hd
  unfold Dev.voteRow
  simp only [summit, joined, hsrc, Bool.true_or, Bool.and_self, Bool.true_and, if_true]
  split
  · rw [(recount_effect _ _ _).2.1]
    exact Tbl.find_put_same _ _ _
  · rw [(recount_effect _ _ _).2.1]
    exact Tbl.find_put_same _ _ _

/-- The state that the summit sends is latched. -/
theorem gridRow_latches {d : Dev} {src : Nat} (v : VoteMsg) (h : src = d.view.summit ∧ d.joined = true) :
    (d.gridRow src v).fum.grid = v.groups ∧ (d.gridRow src v).fum.islandGrid = v.island := by
  rw [Dev.gridRow, if_pos ⟨h.2, .inl h.1⟩]
  obtain ⟨-, recs, n, fum⟩ := latchGrid_effect (d.modFum (fun f => { f with gridEpoch := v.shortEpoch })) v
    (fun i => if i = 32 then some v.islMembers else none)
  rw [fum]
  exact ⟨rfl, rfl⟩

theorem votePeriodic_due {d : Dev} (hen : d.bit Fld.FUM_CFG_GRID_EN = true) (hat : d.fum.voteAt + 1000000000 ≤ d.up) :
    d.votePeriodic = (d.modFum (fun f => { f with voteAt := d.up })).sendVote := by
  simp [Dev.votePeriodic, hen, hat]

theorem gridPeriodic_due {d : Dev} (hd : d.isSummit = true ∧ d.joined = true) (hat : d.fum.gridAt + 1000000000 ≤ d.up) :
    d.gridPeriodic = (d.modFum (fun f => { f with gridAt := d.up })).recount none true := by
  simp [Dev.gridPeriodic, hd.1, hd.2, hat]

/-! ## The evaluation of an epoch (R181 to R184) -/

/-- The registers that an evaluation moves beside its count. -/
def evalReg (o : Nat) : Prop := alarmReg o ∨ o ∈ [Reg.ISL_STATUS, Reg.ISL_COUNT, Reg.ISL_DECLARES, Reg.ISL_MERGES, Reg.ISL_INVALID]

/-- From `d` to `t` an evaluation has gone on: the next epoch to evaluate stays. -/
def evaluates (d t : Dev) : Prop := only [.regs, .hif, .isl, .fum] evalReg d t ∧ t.isl.next = d.isl.next

theorem evaluates_trans {a b c : Dev} (h : evaluates a b) (k : evaluates b c) : evaluates a c := ⟨only_trans h.1 k.1, k.2.trans h.2⟩

theorem evaluates_refl (d : Dev) : evaluates d d := ⟨only_refl _ _ _, rfl⟩

theorem evaluates_of_regs {d t : Dev} {o : Nat} (h : only [.regs] (fun k => k = o) d t)
    (ho : o ∈ [Reg.ISL_STATUS, Reg.ISL_COUNT, Reg.ISL_DECLARES, Reg.ISL_MERGES, Reg.ISL_INVALID]) : evaluates d t :=
  ⟨only_mono (by simp) (by rintro _ rfl; exact .inr ho) h, by rw [only_isl h (by simp)]⟩

theorem evaluates_modIsl (d : Dev) {f : IslSt → IslSt} (hf : ∀ i, (f i).next = i.next) : evaluates d (d.modIsl f) :=
  ⟨only_wider (modIsl_only _ _ _) (by simp), hf d.isl⟩

theorem evaluates_setFld (d : Dev) (f : FieldAt) (v : Nat)
    (hf : f.off ∈ [Reg.ISL_STATUS, Reg.ISL_COUNT, Reg.ISL_DECLARES, Reg.ISL_MERGES, Reg.ISL_INVALID]) : evaluates d (d.setFld f v) :=
  evaluates_of_regs (setFld_only _ _ _) hf

theorem evaluates_count (d : Dev) (o n : Nat)
    (ho : o ∈ [Reg.ISL_STATUS, Reg.ISL_COUNT, Reg.ISL_DECLARES, Reg.ISL_MERGES, Reg.ISL_INVALID]) : evaluates d (d.count o n) :=
  evaluates_of_regs (count_only _ _ _) ho

theorem sendIsland_evaluates (d : Dev) (kind : Nat) (v : IslEval) : evaluates d (d.sendIsland kind v) := by
  have records {t : Dev} (h : recordsOnly d t) : evaluates d t :=
    ⟨only_mono (by simp) (fun _ => .inl) h.1, by rw [only_isl h.1 (by simp)]⟩
  unfold Dev.sendIsland
  simp only
  split
  · exact ⟨only_wider (modFum_only _ _ _) (by simp), rfl⟩
  · exact records (recordsOnly_trans (numberReport_records d _) (alarmSend_records _ _))

theorem persist_evaluates (d : Dev) (v : IslEval) (c : Nat) (rebase : Bool) : evaluates d (d.persist v c rebase) := by
  unfold Dev.persist
  extract_lets d0 w1 d1 ref n up down decl merge d2 loc w2 d3
  have begun : evaluates d d0 := evaluates_modIsl d (fun _ => rfl)
  split
  · have based : evaluates d0 d1 := evaluates_trans (evaluates_setFld _ Fld.ISL_STATUS_BASE _ (by decide))
      (evaluates_trans (evaluates_setFld _ Fld.ISL_COUNT_REF _ (by decide))
        (evaluates_trans (evaluates_setFld _ Fld.ISL_STATUS_ISLAND_LOCAL _ (by decide)) (evaluates_modIsl _ (fun _ => rfl))))
    exact evaluates_trans begun (evaluates_trans based (sendIsland_evaluates _ _ _))
  · have counted : evaluates d0 d2 := by
      show evaluates d0 (if _ then _ else _)
      split
      · exact evaluates_setFld _ Fld.ISL_COUNT_REF _ (by decide)
      · exact evaluates_refl _
    have judged : evaluates d2 d3 := evaluates_trans (evaluates_setFld _ Fld.ISL_STATUS_ISLAND_LOCAL _ (by decide))
      (evaluates_trans (evaluates_count _ _ _ (by decide)) (evaluates_trans (evaluates_count _ _ _ (by decide)) (evaluates_modIsl _ (fun _ => rfl))))
    refine evaluates_trans begun (evaluates_trans counted (evaluates_trans judged ?_))
    split
    · exact sendIsland_evaluates _ _ _
    · split
      · exact sendIsland_evaluates _ _ _
      · exact evaluates_refl _

/-- The device that takes epoch `e` for its evaluation. -/
def Dev.takesEval (d : Dev) (e : Nat) : Dev := d.modIsl (fun i => { i with next := some (e + 1) })

/-- What the evaluation of a sealed epoch does: it takes the epoch, counts and goes on. -/
theorem islandEvaluate_stages {d : Dev} {e : Nat} {q : SealInfo} (hen : d.bit Fld.ISL_CTRL_EN = true) (hn : d.nextSealed d.isl.next = some e)
    (hs : d.sealOf e = some q) : evaluates ((d.takesEval e).count64 Reg.ISL_EVALS_LO) d.islandEvaluate := by
  generalize result : d.islandEvaluate = t
  rw [Dev.islandEvaluate, if_pos hen] at result
  split at result
  · rename_i idle
    cases idle.symm.trans hn
  rename_i due
  cases due.symm.trans hn
  extract_lets d0 nodes at result
  split at result
  · rename_i unsealed
    cases unsealed.symm.trans hs
  · extract_lets brs tbl lit comps valid v d1 d2 at result
    subst result
    have counted : evaluates ((d.takesEval e).count64 Reg.ISL_EVALS_LO) d1 :=
      evaluates_trans (evaluates_setFld _ Fld.ISL_STATUS_VALID _ (by decide)) (evaluates_setFld _ Fld.ISL_COUNT_CUR _ (by decide))
    refine evaluates_trans counted (evaluates_trans ?_ (evaluates_modIsl d2 (fun _ => rfl)))
    show evaluates d1 (if _ then _ else _)
    split
    · exact persist_evaluates _ _ _ _
    · exact evaluates_trans (evaluates_modIsl d1 (f := fun i => { i with last := some v }) (fun _ => rfl))
        (evaluates_count _ Reg.ISL_INVALID _ (by decide))

/-- The registers that evaluations move. -/
def evalsReg (o : Nat) : Prop := evalReg o ∨ o = Reg.ISL_EVALS_LO ∨ o = Reg.ISL_EVALS_LO + 4

theorem islandEvaluate_only (d : Dev) : only [.regs, .hif, .isl, .fum] evalsReg d d.islandEvaluate := by
  cases hen : d.bit Fld.ISL_CTRL_EN with
  | false =>
    have idle : d.islandEvaluate = d := by simp [Dev.islandEvaluate, hen]
    rw [idle]
    exact only_refl _ _ _
  | true =>
    cases hn : d.nextSealed d.isl.next with
    | none =>
      have idle : d.islandEvaluate = d := by simp [Dev.islandEvaluate, hn]
      rw [idle]
      exact only_refl _ _ _
    | some e =>
      have taken (p : Nat → Prop) : only [.regs, .hif, .isl, .fum] p d (d.takesEval e) := only_wider (modIsl_only _ _ _) (by simp)
      cases hs : d.sealOf e with
      | none =>
        have skipped : d.islandEvaluate = d.takesEval e := by
          have unsealed : (d.takesEval e).sealOf e = none := hs
          simp only [Dev.takesEval] at unsealed ⊢
          simp [Dev.islandEvaluate, hen, hn, unsealed]
        rw [skipped]
        exact taken _
      | some q =>
        exact only_trans (taken _) (only_trans (only_mono (by simp) (fun _ => .inr) (count64_only _ _ _))
          (only_mono (fun _ x => x) (fun _ => .inl) (islandEvaluate_stages hen hn hs).1))

theorem islandUpTo_only (e fuel : Nat) (d : Dev) : only [.regs, .hif, .isl, .fum] evalsReg d (Dev.islandUpTo e fuel d) := by
  induction fuel generalizing d with
  | zero => exact only_refl _ _ _
  | succ fuel ih =>
    rw [Dev.islandUpTo]
    split
    · exact only_refl _ _ _
    · split
      · exact only_trans (islandEvaluate_only d) (ih _)
      · exact only_refl _ _ _

end Sys2Proof.Machine
end

section
/-! Proofs about a decision: what follows from it leaves its epoch and its count (R190 to R195, R519 to R522). -/

namespace Sys2Proof.Machine

open Sys2Proof

/-- From `d` to `t` the last decision and the count of decisions stay. -/
def decisionKept (d t : Dev) : Prop := t.fum.decided = d.fum.decided ∧ t.reg64 Reg.FUM_DECISIONS_LO = d.reg64 Reg.FUM_DECISIONS_LO

/-- A register of the count of decisions. -/
def decisionsReg (o : Nat) : Prop := o = Reg.FUM_DECISIONS_LO ∨ o = Reg.FUM_DECISIONS_LO + 4

theorem decisionKept_refl (d : Dev) : decisionKept d d := ⟨rfl, rfl⟩

theorem decisionKept_trans {a b c : Dev} (h : decisionKept a b) (k : decisionKept b c) : decisionKept a c :=
  ⟨k.1.trans h.1, k.2.trans h.2⟩

theorem decisionKept_of_regs {d t : Dev} (hf : t.fum.decided = d.fum.decided) (hr : t.regs = d.regs) : decisionKept d t :=
  ⟨hf, by simp only [Dev.reg64, Dev.regN, Dev.reg, hr]⟩

theorem decisionKept_of_only {l : List Part} {p : Nat → Prop} {d t : Dev} (h : only l p d t) (hf : t.fum.decided = d.fum.decided)
    (hp : ¬ p Reg.FUM_DECISIONS_LO ∧ ¬ p (Reg.FUM_DECISIONS_LO + 4)) : decisionKept d t := ⟨hf, only_reg64 h hp.1 hp.2⟩

theorem decisionKept_setFld (d : Dev) (f : FieldAt) (v : Nat) (h : Reg.FUM_DECISIONS_LO ≠ f.off ∧ Reg.FUM_DECISIONS_LO + 4 ≠ f.off) :
    decisionKept d (d.setFld f v) := decisionKept_of_only (setFld_only d f v) rfl h

theorem decisionKept_setBit (d : Dev) (f : FieldAt) (b : Bool) (h : Reg.FUM_DECISIONS_LO ≠ f.off ∧ Reg.FUM_DECISIONS_LO + 4 ≠ f.off) :
    decisionKept d (d.setBit f b) := decisionKept_setFld d f _ h

theorem decisionKept_count (d : Dev) (o n : Nat) (h : Reg.FUM_DECISIONS_LO ≠ o ∧ Reg.FUM_DECISIONS_LO + 4 ≠ o) :
    decisionKept d (d.count o n) := decisionKept_of_only (count_only d o n) rfl h

theorem decisionKept_event (d : Dev) (e : Ev) (index arg0 arg1 status : Nat) : decisionKept d (d.event e index arg0 arg1 status) := by
  have frame := event_only d e index arg0 arg1 status
  exact decisionKept_of_only frame (by rw [only_fum frame (by simp)]) ⟨not_eventReg (by decide), not_eventReg (by decide)⟩

theorem decisionKept_records {d t : Dev} (h : recordsOnly d t) : decisionKept d t := by
  obtain ⟨frame, n, fum⟩ := h
  have apart {o : Nat} (ho : o < 0x021014 ∨ 0x031004 < o) (hl : o ≠ Reg.FUM_RING_LOST) : ¬ alarmReg o := not_or.mpr ⟨not_signalReg ho, hl⟩
  exact decisionKept_of_only frame (by rw [fum]) ⟨apart (by decide) (by decide), apart (by decide) (by decide)⟩

/-! ## Completions

A command that waits may name a ring beyond the 32 of the part; DONE and STAT of such a ring lie at offsets of their own all the same. -/

theorem decisionKept_sendMsix (d : Dev) {v : Nat} (hv : v < 64) : decisionKept d (d.sendMsix v) := by
  have frame := sendMsix_only d hv
  exact decisionKept_of_only frame (by rw [only_fum frame (by simp)]) ⟨not_signalReg (by decide), not_signalReg (by decide)⟩

theorem stat_apart (n : Nat) : Reg.FUM_DECISIONS_LO ≠ Reg.HIF_RINGn_STAT n ∧ Reg.FUM_DECISIONS_LO + 4 ≠ Reg.HIF_RINGn_STAT n := by
  simp only [Reg.FUM_DECISIONS_LO, Reg.HIF_RINGn_STAT]
  omega

theorem done_apart (n : Nat) : Reg.FUM_DECISIONS_LO ≠ Reg.HIF_RINGn_DONE n ∧ Reg.FUM_DECISIONS_LO + 4 ≠ Reg.HIF_RINGn_DONE n := by
  simp only [Reg.FUM_DECISIONS_LO, Reg.HIF_RINGn_DONE]
  omega

theorem decisionKept_judgeSignal (d : Dev) (n : Nat) (expired : Bool) : decisionKept d (d.judgeSignal n expired) := by
  unfold Dev.judgeSignal
  simp only
  split
  · exact decisionKept_trans (decisionKept_sendMsix d (fld_lt _ _)) (decisionKept_trans (decisionKept_setBit _ _ _ (stat_apart n))
      (decisionKept_of_regs rfl rfl))
  · exact decisionKept_refl d

theorem decisionKept_complete (d : Dev) (n k session status result addr : Nat) (b : Bytes) :
    decisionKept d (d.complete n k session status result addr b) := by
  unfold Dev.complete
  extract_lets r st held d1
  split
  · exact decisionKept_refl d
  · split
    · exact decisionKept_of_regs rfl rfl
    · have written : decisionKept d d1 := by
        show decisionKept d (if _ then _ else _)
        split
        · exact decisionKept_refl d
        · exact decisionKept_of_regs rfl rfl
      exact decisionKept_trans written (decisionKept_trans (decisionKept_count _ _ 1 (done_apart n))
        (decisionKept_trans (decisionKept_of_regs rfl rfl) (decisionKept_judgeSignal _ n false)))

theorem decisionKept_finishWaits (d : Dev) (p : WaitKind → Bool) (status result : Nat) : decisionKept d (d.finishWaits p status result) := by
  refine decisionKept_trans (decisionKept_of_regs rfl rfl) (foldl_keeps decisionKept_refl decisionKept_trans (fun x w => ?_) _ _)
  split
  · exact decisionKept_refl x
  · exact decisionKept_complete _ _ _ _ _ _ _ _

/-! ## The safe state and the errors (R519 to R522) -/

theorem decisionKept_refreshAlmok (d : Dev) : decisionKept d d.refreshAlmok :=
  decisionKept_of_only (refreshAlmok_only d) rfl (by decide)

theorem decisionKept_sendPub (d : Dev) (n : Nat) (p : Pub) (ordinary : Bool) : decisionKept d (d.sendPub n p ordinary) := by
  have apart {o : Nat} (h : decisionsReg o) : ¬ expressReg o := by
    rintro (drop | ⟨k, hk, lost⟩)
    · subst drop
      exact absurd h (by simp [decisionsReg, Reg.FUM_EXP_DROP, Reg.FUM_DECISIONS_LO])
    · subst lost
      simp only [decisionsReg, Reg.NET_Pp_TX_Q_LOST, Reg.FUM_DECISIONS_LO] at h
      omega
  have frame := sendPub_only d n p ordinary
  exact decisionKept_of_only frame (by rw [only_fum frame (by simp)]) ⟨apart (.inl rfl), apart (.inr rfl)⟩

theorem decisionKept_newState (d : Dev) (n : Nat) (p : Pub) (vals : List Bool) (ordinary : Bool) :
    decisionKept d (d.newState n p vals ordinary) := by
  refine decisionKept_trans ?_ (decisionKept_sendPub _ _ _ _)
  exact decisionKept_of_regs rfl rfl

theorem decisionKept_safePub (d : Dev) (e : Nat × Pub) : decisionKept d (d.safePub e) := by
  unfold Dev.safePub
  split
  · exact decisionKept_newState _ _ _ _ _
  · exact decisionKept_refl d

theorem decisionKept_abortProof (d : Dev) : decisionKept d d.abortProof := by
  unfold Dev.abortProof
  split
  · exact decisionKept_refl d
  · extract_lets d1
    have told : decisionKept d d1 := decisionKept_trans
      (foldl_keeps decisionKept_refl decisionKept_trans (fun x t => decisionKept_event x .proofTest t 2 0 _) _ d) (decisionKept_finishWaits _ _ _ _)
    exact decisionKept_trans told (decisionKept_trans (decisionKept_setBit d1 Fld.SAF_STATUS_PROOF_RUNNING false (by decide))
      (decisionKept_of_regs rfl rfl))

theorem decisionKept_dropSwitch (d : Dev) : decisionKept d d.dropSwitch :=
  decisionKept_trans (decisionKept_of_regs rfl rfl)
    (decisionKept_trans (decisionKept_setBit (d.modCyc (fun c => { c with switch := none })) Fld.CYC_STATUS_SWITCH_PEND false (by decide))
      (decisionKept_finishWaits _ _ _ _))

theorem decisionKept_enterSafe (d : Dev) (cls status diag : Nat) : decisionKept d (d.enterSafe cls status diag) := by
  unfold Dev.enterSafe
  split
  · exact decisionKept_refl d
  extract_lets d1 d2 holds fum cyc net d3 d4 d5 d6 d7
  have cause : decisionKept d d1 := decisionKept_trans (decisionKept_setBit d Fld.SAF_STATUS_SAFE true (by decide))
    (decisionKept_trans (decisionKept_setBit _ Fld.FUM_STATUS_SAFE true (by decide))
    (decisionKept_trans (decisionKept_setBit _ Fld.FUM_STATUS_RUNNING false (by decide))
    (decisionKept_trans (decisionKept_setFld _ Fld.SAF_CAUSE_CLASS cls (by decide))
    (decisionKept_trans (decisionKept_setFld _ Fld.SAF_CAUSE_STATUS status (by decide))
      (decisionKept_setFld _ Fld.SAF_CAUSE_DIAG diag (by decide))))))
  have pins : decisionKept d1 d2 := decisionKept_trans (decisionKept_setBit d1 Fld.SAF_CAUSE_VALID true (by decide))
    (decisionKept_setFld _ Fld.FUM_STATUS_PINS _ (by decide))
  have withdrawn : decisionKept d2 d3 := decisionKept_of_regs rfl rfl
  have published : decisionKept d3 d4 := foldl_keeps decisionKept_refl decisionKept_trans decisionKept_safePub _ d3
  have stopped : decisionKept d4 d5 := by
    show decisionKept d4 (if _ then _ else _)
    split
    · exact decisionKept_refl d4
    · exact decisionKept_setFld d4 Fld.CYC_STATUS_STATE 3 (by decide)
  have recorded : decisionKept d5 d6 := decisionKept_records (recordsOnly_trans (alarmSend_records d5 _) (bumpRecSeq_records _))
  have told : decisionKept d6 d7 := decisionKept_trans (decisionKept_event d6 .safeState cls _ _ status)
    (decisionKept_trans (decisionKept_abortProof _) (decisionKept_refreshAlmok _))
  have all := decisionKept_trans cause (decisionKept_trans pins (decisionKept_trans withdrawn (decisionKept_trans published
    (decisionKept_trans stopped (decisionKept_trans recorded told)))))
  split
  · exact all
  · exact decisionKept_trans all (decisionKept_dropSwitch d7)

theorem decisionKept_refreshSaf (d : Dev) : decisionKept d d.refreshSaf := by
  have frame := refreshSaf_only d
  exact decisionKept_of_only frame (by rw [only_fum frame (by simp)]) (by decide)

theorem decisionKept_raiseAt (d : Dev) (cls index status diag level : Nat) : decisionKept d (d.raiseAt cls index status diag level) := by
  unfold Dev.raiseAt
  extract_lets d1 top lv st e saf d2 d3 d4
  have counted : decisionKept d d1 := decisionKept_count d Reg.SAF_ERRORS 1 (by decide)
  split
  · exact decisionKept_trans counted (decisionKept_trans (decisionKept_count d1 Reg.SAF_OVERFLOWS 1 (by decide))
      (decisionKept_trans (decisionKept_event _ .errorOverflow _ _ _ _) (decisionKept_enterSafe _ _ _ _)))
  · have queued : decisionKept d1 d2 := decisionKept_of_regs rfl rfl
    have escalated : decisionKept d2 d3 := by
      show decisionKept d2 (if _ then _ else _)
      split
      · exact decisionKept_refl d2
      · exact decisionKept_trans (decisionKept_count d2 Reg.SAF_ESCALATIONS 1 (by decide)) (decisionKept_event _ .errorEscalated _ _ _ _)
    have all := decisionKept_trans counted (decisionKept_trans queued (decisionKept_trans escalated (decisionKept_refreshSaf d3)))
    split
    · exact decisionKept_trans all (decisionKept_enterSafe d4 _ _ _)
    · exact all

/-! ## What follows from a decision (R194, R197, R200, R204) -/

theorem decisionKept_setPin (d : Dev) (p : Nat) (x : PinSt) (level : Bool) : decisionKept d (d.setPin p x level) :=
  decisionKept_of_only (setPin_only d p x level) rfl (by decide)

theorem decisionKept_updatePins (d : Dev) : decisionKept d d.updatePins := by
  unfold Dev.updatePins
  split
  · exact decisionKept_setFld d Fld.FUM_STATUS_PINS _ (by decide)
  · refine foldl_keeps decisionKept_refl decisionKept_trans (fun x p => ?_) _ d
    rcases updatePin_eq x (if d.bit Fld.FUM_CTRL_EN = true then d.wantedPins else 0) p with h | ⟨y, level, h⟩
    · rw [h]
      exact decisionKept_refl x
    · rw [h]
      exact decisionKept_setPin x p y level

theorem decisionKept_publish (d : Dev) (outs vec : Nat) : decisionKept d (d.publish' outs vec) := by
  refine foldl_keeps decisionKept_refl decisionKept_trans (fun x p => ?_) _ d
  extract_lets vals
  split
  · exact decisionKept_newState _ _ _ _ _
  · exact decisionKept_refl x

theorem decisionKept_decisionRecords (d : Dev) (s : SealInfo) (e off : Nat) (evs : List (Nat × RuleSt × RuleEv × Option Word)) :
    decisionKept d (d.decisionRecords s e off evs) := by
  unfold Dev.decisionRecords
  extract_lets r1 r2 r3
  have rules : recordsOnly d r1.1 := foldl_records (f := fun x (a : Nat × RuleSt × RuleEv × Option Word) =>
    x.ruleRecord s e off a.1 a.2.1 a.2.2.1 a.2.2.2) (fun _ _ => ruleRecord_records _ _ _ _ _ _ _ _) evs (d, [])
  have islands : recordsOnly r1.1 r2.1 := foldl_records (f := fun x (a : Nat × Bytes × Bytes) => x.numberReport a.2)
    (fun _ _ => numberReport_records _ _) _ r1
  have grid : recordsOnly r2.1 r3.1 := foldl_records (f := fun x a => x.gridRecBytes off a) (fun _ _ => gridRecBytes_records _ _ _) _ r2
  have made := decisionKept_records (recordsOnly_trans rules (recordsOnly_trans islands grid))
  refine decisionKept_trans ?_ (decisionKept_records (alarmSend_records _ _))
  exact decisionKept_trans made (decisionKept_of_regs rfl rfl)

theorem decisionKept_sendVote (d : Dev) : decisionKept d d.sendVote := by
  unfold Dev.sendVote
  split
  · exact decisionKept_refl d
  · split
    · exact decisionKept_of_regs rfl rfl
    · have frame := sends_only (send_sends d d.view.summit (.vote d.myVote)) decisionsReg
      exact decisionKept_of_regs (by rw [only_fum frame (by simp)]) (sends_regs (send_sends _ _ _))

theorem decisionKept_recount (d : Dev) (vote : Option Nat) (first : Bool) : decisionKept d (d.recount vote first) := by
  have apart {o : Nat} (ho : o < 0x021014 ∨ 0x031004 < o) (hl : o ≠ Reg.FUM_RING_LOST) (hi : o ≠ Reg.ISL_STATUS) : ¬ gridReg o :=
    not_or.mpr ⟨not_or.mpr ⟨not_signalReg ho, hl⟩, hi⟩
  obtain ⟨frame, -, decided⟩ := recount_effect d vote first
  exact decisionKept_of_only frame decided ⟨apart (by decide) (by decide) (by decide), apart (by decide) (by decide) (by decide)⟩

theorem decisionKept_voteAfter (d : Dev) : decisionKept d d.voteAfter := by
  unfold Dev.voteAfter
  split
  · extract_lets v
    split
    · exact decisionKept_refl d
    · refine decisionKept_trans (decisionKept_trans ?_ (decisionKept_sendVote _)) (decisionKept_recount _ _ _)
      exact decisionKept_of_regs rfl rfl
  · exact decisionKept_of_regs rfl rfl

/-! ## The decision (R190, R192) -/

/-- The evaluations that a decision waits for leave the count of decisions. -/
theorem reg64_islandUpTo (e fuel : Nat) (d : Dev) :
    (Dev.islandUpTo e fuel d).reg64 Reg.FUM_DECISIONS_LO = d.reg64 Reg.FUM_DECISIONS_LO := by
  have apart {o : Nat} (ho : o < 0x021014 ∨ 0x031004 < o) (hl : o ∉ [Reg.FUM_RING_LOST, Reg.ISL_STATUS, Reg.ISL_COUNT, Reg.ISL_DECLARES,
      Reg.ISL_MERGES, Reg.ISL_INVALID, Reg.ISL_EVALS_LO, Reg.ISL_EVALS_LO + 4]) : ¬ evalsReg o := by
    rintro (((signal | lost) | eval) | count)
    · exact not_signalReg ho signal
    · exact hl (by simp [lost])
    · exact hl (List.mem_cons_of_mem _ (List.mem_append_left _ eval))
    · rcases count with rfl | rfl <;> exact hl (by simp)
  exact only_reg64 (islandUpTo_only e fuel d) (apart (by decide) (by decide)) (apart (by decide) (by decide))

/-- The decision of a sealed epoch is committed and counted. -/
theorem decide_commits {d : Dev} {e : Nat} {q : SealInfo} (disagree : List Nat) (hrun : d.bit Fld.FUM_STATUS_RUNNING = true)
    (hde : 0 < d.deCount) (hn : d.nextSealed d.fum.next = some e) (hs : d.sealOf e = some q) :
    (d.decide' disagree).fum.decided = some e
    ∧ (d.decide' disagree).reg64 Reg.FUM_DECISIONS_LO = (d.reg64 Reg.FUM_DECISIONS_LO + 1) % 2 ^ 64 := by
  generalize result : d.decide' disagree = t
  have decides : (d.bit Fld.FUM_STATUS_RUNNING && decide (0 < d.deCount)) = true := by simp [hrun, hde]
  rw [Dev.decide', if_pos decides] at result
  split at result
  · rename_i idle
    cases idle.symm.trans hn
  rename_i due
  cases due.symm.trans hn
  split at result
  · rename_i unsealed
    cases unsealed.symm.trans hs
  extract_lets d0 vec prev two all res rules outs n d1 d2 d3 off d4 d5 at result
  have committed : d1.fum.decided = some e ∧ d1.reg64 Reg.FUM_DECISIONS_LO = d.reg64 Reg.FUM_DECISIONS_LO :=
    ⟨rfl, reg64_islandUpTo e 128 d⟩
  have counted : decisionKept (d1.count64 Reg.FUM_DECISIONS_LO) d2 := decisionKept_trans (decisionKept_count _ Reg.FUM_CHATTER _ (by decide))
    (decisionKept_trans (decisionKept_count _ Reg.FUM_STUCK _ (by decide)) (decisionKept_count _ Reg.FUM_DISAGREE _ (by decide)))
  have out : decisionKept d2 d3 := decisionKept_trans (decisionKept_updatePins d2) (decisionKept_publish _ _ _)
  have recorded : decisionKept d3 d4 := decisionKept_decisionRecords d3 _ _ _ _
  have raised : decisionKept d4 d5 := foldl_keeps decisionKept_refl decisionKept_trans (fun x r => decisionKept_raiseAt x _ _ _ _ _) _ d4
  have voted : decisionKept d5 t := result ▸ decisionKept_trans (decisionKept_voteAfter d5) (decisionKept_refreshAlmok _)
  obtain ⟨decided, count⟩ := decisionKept_trans counted (decisionKept_trans out (decisionKept_trans recorded (decisionKept_trans raised voted)))
  exact ⟨decided.trans committed.1, by rw [count, reg64_count64_same, committed.2]⟩

end Sys2Proof.Machine
end

section
/-! The statement that the rows of the island engine and of the alarm path complete with their effect (R181, R191 to R195, R198 to R202, R208,
R209). -/

namespace Sys2Proof.Machine

open Sys2Proof

/-! ## The enables (R184, R195) -/

theorem fieldsAt_islCtrl : fieldsAt Reg.ISL_CTRL = [⟨0, 1, .rw, .any⟩, ⟨1, 1, .rw, .any⟩] := by decide +kernel

theorem fieldsAt_fumCtrl : fieldsAt Reg.FUM_CTRL = [⟨0, 1, .rw, .any⟩] := by decide +kernel

/-- ISL_CTRL takes its two bits from the written word, whatever they are. -/
def Dev.islCtrlWord (d : Dev) (v : Word) : Word := withBits (withBits (d.reg Reg.ISL_CTRL) 0 1 (bitsAt v 0 1)) 1 1 (bitsAt v 1 1)

/-- FUM_CTRL takes its bit from the written word, whatever it is. -/
def Dev.fumCtrlWord (d : Dev) (v : Word) : Word := withBits (d.reg Reg.FUM_CTRL) 0 1 (bitsAt v 0 1)

theorem writePlain_islCtrl (d : Dev) (v : Word) : d.writePlain Reg.ISL_CTRL v = d.setReg Reg.ISL_CTRL (d.islCtrlWord v) := by
  have res : d.writeRes Reg.ISL_CTRL v = { word := d.islCtrlWord v } := by
    simp only [Dev.writeRes, fieldsAt_islCtrl]
    rfl
  simp only [Dev.writePlain, res]
  rfl

theorem writePlain_fumCtrl (d : Dev) (v : Word) : d.writePlain Reg.FUM_CTRL v = d.setReg Reg.FUM_CTRL (d.fumCtrlWord v) := by
  have res : d.writeRes Reg.FUM_CTRL v = { word := d.fumCtrlWord v } := by
    simp only [Dev.writeRes, fieldsAt_fumCtrl]
    rfl
  simp only [Dev.writePlain, res]
  rfl

section Enable

variable {d : Dev} {v : Word} (hon : v.toNat.testBit 0 = true)

include hon

/-- A word whose bit 0 is 1 gives the field of that bit the value 1. -/
theorem bitsAt_enable_written (w : Word) : bitsAt (withBits w 0 1 (bitsAt v 0 1)) 0 1 = 1 := by
  rw [testBit_zero_iff] at hon
  exact (bitsAt_withBits_same _ _ _ _ (by decide)).trans (congrArg (· % 2 ^ 1) (of_decide_eq_true hon))

theorem bit_islCtrl_enabled : (d.writePlain Reg.ISL_CTRL v).bit Fld.ISL_CTRL_EN = true := by
  have word : bitsAt (d.islCtrlWord v) 0 1 = 1 :=
    (bitsAt_withBits_other _ _ _ _ _ _ (by decide) (by decide)).trans (bitsAt_enable_written hon _)
  simp [writePlain_islCtrl, Dev.bit, Dev.fld, Fld.ISL_CTRL_EN, word]

theorem bit_fumCtrl_enabled : (d.writePlain Reg.FUM_CTRL v).bit Fld.FUM_CTRL_EN = true := by
  have word : bitsAt (d.fumCtrlWord v) 0 1 = 1 := bitsAt_enable_written hon _
  simp [writePlain_fumCtrl, Dev.bit, Dev.fld, Fld.FUM_CTRL_EN, word]

/-- The island engine is enabled and runs. -/
theorem writeIslCtrl_enables (hwas : d.bit Fld.ISL_CTRL_EN = false) :
    (writeIslCtrl v d).bit Fld.ISL_CTRL_EN = true ∧ (writeIslCtrl v d).bit Fld.ISL_STATUS_RUNNING = true := by
  have on := bit_islCtrl_enabled (d := d) hon
  simp only [writeIslCtrl, on, hwas, Bool.not_false, Bool.and_self, if_true]
  exact ⟨(bit_setBit_other _ (by decide) (by decide)).trans on, Dev.bit_setBit_same _ _ _ (by decide) (by decide)⟩

/-- Fumarole is enabled and, out of the safe state, runs. -/
theorem writeFumCtrl_enables (hwas : d.bit Fld.FUM_CTRL_EN = false) (hsafe : d.bit Fld.SAF_STATUS_SAFE = false) :
    (writeFumCtrl v d).bit Fld.FUM_CTRL_EN = true ∧ (writeFumCtrl v d).bit Fld.FUM_STATUS_RUNNING = true := by
  have on := bit_fumCtrl_enabled (d := d) hon
  have calm : (d.writePlain Reg.FUM_CTRL v).bit Fld.SAF_STATUS_SAFE = false := by
    rw [writePlain_fumCtrl, only_bit (only_setReg _ _ _) (by decide), hsafe]
  simp only [writeFumCtrl, on, hwas, calm, Bool.not_false, Bool.and_self, if_true]
  exact ⟨(only_bit (refreshAlmok_only _) (by decide)).trans ((bit_setBit_other _ (by decide) (by decide)).trans on),
    (bit_refreshAlmok_running _).trans (Dev.bit_setBit_same _ _ _ (by decide) (by decide))⟩

end Enable

theorem exec_islEnable (s : State) (v : Word) :
    exec (.islEnable v) s = s.run 0 (fun _ d => if v.toNat.testBit 0 then d.unlessGated Reg.ISL_CTRL (writeIslCtrl v) else d) := rfl

theorem exec_fumEnable (s : State) (v : Word) :
    exec (.fumEnable v) s = s.run 0 (fun _ d => if v.toNat.testBit 0 then d.unlessGated Reg.FUM_CTRL (writeFumCtrl v) else d) := rfl

/-! ## The rows -/

/-- The evaluation of a sealed epoch takes its epoch and is counted. -/
theorem islandEvaluate_counts {d : Dev} {e : Nat} {q : SealInfo} (hen : d.bit Fld.ISL_CTRL_EN = true) (hn : d.nextSealed d.isl.next = some e)
    (hs : d.sealOf e = some q) : d.islandEvaluate.isl.next = some (e + 1)
      ∧ d.islandEvaluate.reg64 Reg.ISL_EVALS_LO = (d.reg64 Reg.ISL_EVALS_LO + 1) % 2 ^ 64 := by
  have apart {o : Nat} (ho : o < 0x021014 ∨ 0x031004 < o) (hl : o ∉ [Reg.FUM_RING_LOST, Reg.ISL_STATUS, Reg.ISL_COUNT, Reg.ISL_DECLARES,
      Reg.ISL_MERGES, Reg.ISL_INVALID]) : ¬ evalReg o := by
    rintro ((signal | lost) | eval)
    · exact not_signalReg ho signal
    · exact hl (by simp [lost])
    · exact hl (List.mem_cons_of_mem _ eval)
  obtain ⟨frame, next⟩ := islandEvaluate_stages hen hn hs
  refine ⟨next, ?_⟩
  rw [only_reg64 frame (apart (by decide) (by decide)) (apart (by decide) (by decide)), reg64_count64_same]
  rfl

/-- Settles O54: each row by what it does to the island engine or the alarm path. -/
theorem alarmPathRowsComplete : Obligations.AlarmPathRowsComplete := by
  unfold Obligations.AlarmPathRowsComplete
  refine ⟨?_, ?_, ?_, ?_, ?_, ?_, ?_, ?_, ?_, ?_, ?_⟩
  · intro s v hg hon hwas
    rw [exec_islEnable]
    exact exists_run_row ((if_pos hon).trans (unlessGated_open (d := later s.dev 0) hg _)) (writeIslCtrl_enables (d := later s.dev 0) hon hwas)
  · intro s v hg hon hwas hsafe
    rw [exec_fumEnable]
    exact exists_run_row ((if_pos hon).trans (unlessGated_open (d := later s.dev 0) hg _)) (writeFumCtrl_enables (d := later s.dev 0) hon hwas hsafe)
  · rintro s dt e d q rfl hen hn hs
    exact ⟨_, rfl, rfl, islandEvaluate_counts hen hn hs⟩
  · rintro s dt e l d q rfl hrun hde hn hs
    exact ⟨_, rfl, rfl, decide_commits l hrun hde hn hs⟩
  · rintro s dt p at_ d rfl hp hsafe hw since due
    exact ⟨_, rfl, rfl, (updatePins_releases hp hsafe hw ⟨since, due⟩).2⟩
  · rintro s dt d rfl late
    exact ⟨_, rfl, rfl, (bit_refreshAlmok_almok _).trans (almokHolds_late late)⟩
  · rintro s dt n at_ iv d p rfl hp hnext hat hen hctrl
    exact ⟨_, rfl, rfl, retransmit_due hp hnext hat hen hctrl⟩
  · rintro s dt d rfl hen hat
    exact congrArg (fun x => (.next { s with dev := x } : Answer)) (votePeriodic_due hen hat)
  · rintro s dt src seq m d d1 rfl taken summit member
    exact exists_run_row (f := fun _ d => d.onMsg src 0 seq (fun x => x.voteRow src m)) (onMsg_of_receive taken _)
      (voteRow_votes m summit member)
  · rintro s dt src seq m d d1 rfl taken summit
    exact exists_run_row (f := fun _ d => d.onMsg src 0 seq (fun x => x.gridRow src m)) (onMsg_of_receive taken _) (gridRow_latches m summit)
  · rintro s dt d rfl summit hat
    exact congrArg (fun x => (.next { s with dev := x } : Answer)) (gridPeriodic_due summit hat)

end Sys2Proof.Machine
end

section
/-! Proofs' layer of local acquisition: folds over the modules, the state of a module, and the bits of mask fields. -/

namespace Sys2Proof.Machine

open Sys2Proof

/-! ## Folds -/

/-- A relation that each step of a fold over the elements of a list keeps is kept by the fold. -/
theorem foldl_keeps_of_mem {α β : Type} {R : β → β → Prop} (refl : ∀ x, R x x) (trans : ∀ {x y z}, R x y → R y z → R x z)
    {f : β → α → β} {l : List α} (step : ∀ x, ∀ a ∈ l, R x (f x a)) (x : β) : R x (l.foldl f x) := by
  induction l generalizing x with
  | nil => exact refl x
  | cons a l ih => exact trans (step x a List.mem_cons_self) (ih (fun y b hb => step y b (List.mem_cons_of_mem a hb)) _)

/-- A fold in which every step but that of `a` keeps a relation: what stands before and after the step of `a`. -/
theorem foldl_around {α β : Type} {R : β → β → Prop} (refl : ∀ x, R x x) (trans : ∀ {x y z}, R x y → R y z → R x z)
    {f : β → α → β} {l : List α} {a : α} (mem : a ∈ l) (nodup : l.Nodup) (step : ∀ x, ∀ b ∈ l, b ≠ a → R x (f x b)) (x : β) :
    ∃ y, R x y ∧ R (f y a) (l.foldl f x) := by
  obtain ⟨before, after, rfl⟩ := List.append_of_mem mem
  obtain ⟨-, single, apart⟩ := List.nodup_append.mp nodup
  refine ⟨before.foldl f x, foldl_keeps_of_mem refl trans (fun y b hb => ?_) x, ?_⟩
  · exact step y b (List.mem_append_left _ hb) (apart b hb a List.mem_cons_self)
  · rw [List.foldl_append, List.foldl_cons]
    refine foldl_keeps_of_mem refl trans (fun y b hb => ?_) _
    refine step y b (List.mem_append_right _ (List.mem_cons_of_mem a hb)) ?_
    rintro rfl
    exact (List.nodup_cons.mp single).1 hb

theorem only_foldl_of_mem {α : Type} {l : List Part} {p : Nat → Prop} {f : Dev → α → Dev} {as : List α}
    (step : ∀ x, ∀ a ∈ as, only l p x (f x a)) (d : Dev) : only l p d (as.foldl f d) :=
  foldl_keeps_of_mem (only_refl l p) only_trans step d

/-! ## The state of a module -/

/-- A module with a state other than the one after reset is there. -/
theorem lt_mods_of_feMod {d : Dev} {m : Nat} (h : d.feMod m ≠ {}) : m < d.acq.mods.length := by
  by_contra hm
  exact h (by rw [Dev.feMod, List.getElem?_eq_none (not_lt.mp hm), Option.getD_none])

theorem feMod_setFeMod_same {d : Dev} {m : Nat} (h : m < d.acq.mods.length) (s : FeModSt) : (d.setFeMod m s).feMod m = s := by
  simp [Dev.feMod, Dev.setFeMod, getElem?_modifyAt_same, List.getElem?_eq_getElem h]

theorem feMod_setFeMod_other (d : Dev) {m n : Nat} (h : n ≠ m) (s : FeModSt) : (d.setFeMod m s).feMod n = d.feMod n := by
  simp only [Dev.feMod, Dev.setFeMod, Dev.modAcq_acq, getElem?_modifyAt_other _ _ h]

theorem feMod_updFeMod_same {d : Dev} {m : Nat} (h : m < d.acq.mods.length) (f : FeModSt → FeModSt) :
    (d.updFeMod m f).feMod m = f (d.feMod m) := feMod_setFeMod_same h _

theorem length_modifyAt {α : Type} (f : α → α) (l : List α) (n : Nat) : (modifyAt l n f).length = l.length := by
  induction l generalizing n with
  | nil => rfl
  | cons x t ih =>
    cases n with
    | zero => rfl
    | succ n => exact congrArg Nat.succ (ih n)

theorem feMod_of_acq {d t : Dev} (h : t.acq = d.acq) (m : Nat) : t.feMod m = d.feMod m := by rw [Dev.feMod, h, Dev.feMod]

@[simp] theorem feMod_setFld (d : Dev) (f : FieldAt) (v m : Nat) : (d.setFld f v).feMod m = d.feMod m := feMod_of_acq rfl m
@[simp] theorem feMod_count (d : Dev) (o n m : Nat) : (d.count o n).feMod m = d.feMod m := feMod_of_acq rfl m
@[simp] theorem feMod_emit (d : Dev) (o : Out) (m : Nat) : (d.emit o).feMod m = d.feMod m := feMod_of_acq rfl m

theorem regN_setFeMod (d : Dev) (m : Nat) (s : FeModSt) (o : Nat) : (d.setFeMod m s).regN o = d.regN o := rfl
theorem fbit_setFeMod (d : Dev) (m : Nat) (s : FeModSt) (f : FieldAt) (i : Nat) : (d.setFeMod m s).fbit f i = d.fbit f i := rfl

@[simp] theorem length_mods_setFeMod (d : Dev) (m : Nat) (s : FeModSt) : (d.setFeMod m s).acq.mods.length = d.acq.mods.length :=
  length_modifyAt _ _ _

@[simp] theorem length_mods_updFeMod (d : Dev) (m : Nat) (f : FeModSt → FeModSt) :
    (d.updFeMod m f).acq.mods.length = d.acq.mods.length := length_modifyAt _ _ _

theorem setFeMod_only (d : Dev) (m : Nat) (s : FeModSt) (p : Nat → Prop) : only [.acq] p d (d.setFeMod m s) :=
  only_of_kept (by simp [keptBut, Dev.setFeMod]) rfl

theorem updFeMod_only (d : Dev) (m : Nat) (f : FeModSt → FeModSt) (p : Nat → Prop) : only [.acq] p d (d.updFeMod m f) :=
  setFeMod_only _ _ _ _

section Parts

variable {l : List Part} {p : Nat → Prop} {d t : Dev} (h : only l p d t)

include h

theorem only_acq (hn : Part.acq ∉ l) : t.acq = d.acq := by obtain ⟨-, -, -, -, -, -, -, acq, -⟩ := h.1; exact acq hn
theorem only_fbit {f : FieldAt} (ho : ¬ p f.off) (i : Nat) : t.fbit f i = d.fbit f i := by rw [Dev.fbit, only_fld h ho, Dev.fbit]

end Parts

/-! ## Mask fields -/

theorem setFbit_only (d : Dev) (f : FieldAt) (i : Nat) (b : Bool) : only [.regs] (fun k => k = f.off) d (d.setFbit f i b) := setFld_only _ _ _

theorem fbit_setFbit_same (d : Dev) {f : FieldAt} {i : Nat} (b : Bool) (h : f.lo + f.width ≤ 32) (hi : i < f.width) :
    (d.setFbit f i b).fbit f i = b := by
  rw [Dev.fbit, Dev.setFbit, Dev.fld_setFld_same _ _ _ h, Nat.testBit_mod_two_pow, testBit_putBit]
  simp [hi]

theorem fbit_setFbit_beside (d : Dev) {f : FieldAt} {i j : Nat} (b : Bool) (h : f.lo + f.width ≤ 32) (hj : j ≠ i) :
    (d.setFbit f i b).fbit f j = d.fbit f j := by
  rw [Dev.fbit, Dev.setFbit, Dev.fld_setFld_same _ _ _ h, Nat.testBit_mod_two_pow, testBit_putBit, if_neg hj, Dev.fbit]
  by_cases hw : j < f.width
  · simp [hw]
  · have high : d.fld f < 2 ^ j := (fld_lt d f).trans_le (Nat.pow_le_pow_right two_pos (not_lt.mp hw))
    simp [hw, Nat.testBit_lt_two_pow high]

theorem fbit_setFld_other (d : Dev) {f g : FieldAt} (v i : Nat) (h : f.lo + f.width ≤ 32)
    (hd : g.off ≠ f.off ∨ g.lo + g.width ≤ f.lo ∨ f.lo + f.width ≤ g.lo) : (d.setFld f v).fbit g i = d.fbit g i := by
  rw [Dev.fbit, Dev.fld_setFld_other _ _ _ _ h hd, Dev.fbit]

theorem fbit_setFbit_other (d : Dev) {f g : FieldAt} (i : Nat) (b : Bool) (j : Nat) (h : f.lo + f.width ≤ 32)
    (hd : g.off ≠ f.off ∨ g.lo + g.width ≤ f.lo ∨ f.lo + f.width ≤ g.lo) : (d.setFbit f i b).fbit g j = d.fbit g j :=
  fbit_setFld_other d _ j h hd

end Sys2Proof.Machine
end

section
/-! Proofs about the enables of the front-end links and of the rotation (R220, R237, R239). -/

namespace Sys2Proof.Machine

open Sys2Proof

/-! ## A write of ACQ_CTRL (R220) -/

section FeEnable

variable {d : Dev} {v : Word}

/-- Module `k` loses its enable, and with it link, measurement and the phase of its turn. -/
def Dev.feOff (x : Dev) (k : Nat) : Dev :=
  ((((x.setFbit Fld.ACQ_CTRL_FE_EN k false).setFbit Fld.ACQ_STATUS_LINK_UP k false).setFbit Fld.ACQ_STATUS_MEAS k false).setPhase k
    0).setFeMod k (x.feMod k).heldPart

/-- What a write of ACQ_CTRL on `d` does for module `k`, once the modules before it have led to `x`. -/
def Dev.acqCtrlBit (d : Dev) (v : Word) (x : Dev) (k : Nat) : Dev :=
  if v.toNat.testBit k && !d.fbit Fld.ACQ_CTRL_FE_EN k then
    if d.fbit Fld.ACQ_STATUS_ID_OK k then (x.setFbit Fld.ACQ_CTRL_FE_EN k true).setFeMod k (x.feMod k).heldPart
    else x.setBit Fld.ACQ_STATUS_CFG_ERR true
  else if d.fbit Fld.ACQ_CTRL_FE_EN k && !v.toNat.testBit k then x.feOff k
  else x

theorem writeAcqCtrl_open (hg : d.gatedAt Reg.ACQ_CTRL = false) : writeAcqCtrl v d = (List.range 4).foldl (d.acqCtrlBit v) d :=
  if_neg (by simp [hg])

/-- The registers that a write of ACQ_CTRL moves. -/
def feEnableReg (o : Nat) : Prop := o = Reg.ACQ_CTRL ∨ o = Reg.ACQ_STATUS ∨ ∃ k, k < 4 ∧ o = Reg.CAL_STATm k

theorem feOff_only (x : Dev) {k : Nat} (hk : k < 4) : only [.regs, .acq] feEnableReg x (x.feOff k) := by
  have status (y : Dev) (f : FieldAt) (h : f.off = Reg.ACQ_STATUS) : only [.regs, .acq] feEnableReg y (y.setFbit f k false) :=
    only_mono (by simp) (fun _ e => .inr (.inl (e.trans h))) (setFbit_only _ _ _ _)
  refine only_trans (only_mono (by simp) (fun _ => .inl) (setFbit_only x Fld.ACQ_CTRL_FE_EN k false)) ?_
  refine only_trans (status _ Fld.ACQ_STATUS_LINK_UP rfl) (only_trans (status _ Fld.ACQ_STATUS_MEAS rfl) ?_)
  exact only_trans (only_mono (by simp) (fun _ e => .inr (.inr ⟨k, hk, e⟩)) (setFld_only _ (Fld.CAL_STATm_PHASE k) 0))
    (only_wider (setFeMod_only _ _ _ _) (by simp))

theorem acqCtrlBit_only (x : Dev) {k : Nat} (hk : k < 4) : only [.regs, .acq] feEnableReg x (d.acqCtrlBit v x k) := by
  unfold Dev.acqCtrlBit
  refine only_ite (only_ite ?_ ?_) (only_ite (feOff_only x hk) (only_refl _ _ _))
  · exact only_trans (only_mono (by simp) (fun _ => .inl) (setFbit_only _ _ _ _)) (only_wider (setFeMod_only _ _ _ _) (by simp))
  · exact only_mono (by simp) (fun _ e => .inr (.inl e)) (setBit_only _ _ _)

theorem writeAcqCtrl_only (hg : d.gatedAt Reg.ACQ_CTRL = false) : only [.regs, .acq] feEnableReg d (writeAcqCtrl v d) := by
  rw [writeAcqCtrl_open hg]
  exact only_foldl_of_mem (fun x _ hk => acqCtrlBit_only x (List.mem_range.mp hk)) d

/-- From `x` to `y` module `m` keeps its state and its enable, and CFG_ERR stays set. -/
def keepsModule (m : Nat) (x y : Dev) : Prop :=
  y.feMod m = x.feMod m ∧ y.acq.mods.length = x.acq.mods.length ∧ y.fbit Fld.ACQ_CTRL_FE_EN m = x.fbit Fld.ACQ_CTRL_FE_EN m
    ∧ (x.bit Fld.ACQ_STATUS_CFG_ERR = true → y.bit Fld.ACQ_STATUS_CFG_ERR = true)

theorem keepsModule_refl (m : Nat) (x : Dev) : keepsModule m x x := ⟨rfl, rfl, rfl, id⟩

theorem keepsModule_trans {m : Nat} {x y z : Dev} (h : keepsModule m x y) (k : keepsModule m y z) : keepsModule m x z := by
  obtain ⟨state, length, enable, err⟩ := h
  obtain ⟨state', length', enable', err'⟩ := k
  exact ⟨state'.trans state, length'.trans length, enable'.trans enable, err' ∘ err⟩

theorem setFeMod_keepsModule (x : Dev) {m k : Nat} (hk : k ≠ m) (s : FeModSt) : keepsModule m x (x.setFeMod k s) :=
  ⟨feMod_setFeMod_other x hk.symm s, length_mods_setFeMod _ _ _, rfl, id⟩

/-- A field of another register, or other bits of ACQ_STATUS. -/
theorem setFld_keepsModule (x : Dev) (m : Nat) {f : FieldAt} (w : Nat) (h : f.lo + f.width ≤ 32) (hen : Reg.ACQ_CTRL ≠ f.off)
    (herr : Reg.ACQ_STATUS ≠ f.off ∨ f.lo + f.width ≤ 12) : keepsModule m x (x.setFld f w) := by
  refine ⟨rfl, rfl, fbit_setFld_other x w m h (.inl hen), fun e => ?_⟩
  rw [← e]
  exact bit_of_fld (Dev.fld_setFld_other x f Fld.ACQ_STATUS_CFG_ERR w h (herr.imp id .inr))

theorem setPhase_keepsModule (x : Dev) (m k p : Nat) : keepsModule m x (x.setPhase k p) := by
  have apart : Reg.ACQ_CTRL ≠ Reg.CAL_STATm k ∧ Reg.ACQ_STATUS ≠ Reg.CAL_STATm k := by
    simp only [Reg.ACQ_CTRL, Reg.ACQ_STATUS, Reg.CAL_STATm]
    omega
  exact setFld_keepsModule x m p (f := Fld.CAL_STATm_PHASE k) (by simp [Fld.CAL_STATm_PHASE]) apart.1 (.inl apart.2)

theorem setFbit_keepsModule (x : Dev) {m k : Nat} (hk : k ≠ m) (b : Bool) : keepsModule m x (x.setFbit Fld.ACQ_CTRL_FE_EN k b) :=
  ⟨rfl, rfl, fbit_setFbit_beside x b (by decide) hk.symm,
    fun e => (bit_of_fld (Dev.fld_setFld_other x Fld.ACQ_CTRL_FE_EN Fld.ACQ_STATUS_CFG_ERR _ (by decide) (by decide))).trans e⟩

theorem setCfgErr_keepsModule (x : Dev) (m : Nat) : keepsModule m x (x.setBit Fld.ACQ_STATUS_CFG_ERR true) :=
  ⟨feMod_setFld x _ _ m, rfl, fbit_setFld_other x (f := Fld.ACQ_STATUS_CFG_ERR) (g := Fld.ACQ_CTRL_FE_EN) _ m (by decide) (by decide),
    fun _ => Dev.bit_setBit_same x _ true (by decide) (by decide)⟩

theorem feOff_keepsModule (x : Dev) {m k : Nat} (hk : k ≠ m) : keepsModule m x (x.feOff k) :=
  keepsModule_trans (setFbit_keepsModule x hk false) <|
    keepsModule_trans (setFld_keepsModule _ m (f := Fld.ACQ_STATUS_LINK_UP) _ (by decide) (by decide) (by decide)) <|
    keepsModule_trans (setFld_keepsModule _ m (f := Fld.ACQ_STATUS_MEAS) _ (by decide) (by decide) (by decide)) <|
    keepsModule_trans (setPhase_keepsModule _ m k 0) <|
    setFeMod_keepsModule _ hk _

/-- The other modules' bits leave module `m`. -/
theorem acqCtrlBit_keepsModule (x : Dev) {m k : Nat} (hk : k ≠ m) : keepsModule m x (d.acqCtrlBit v x k) := by
  unfold Dev.acqCtrlBit
  split
  · split
    · exact keepsModule_trans (setFbit_keepsModule x hk true) (setFeMod_keepsModule _ hk _)
    · exact setCfgErr_keepsModule x m
  · split
    · exact feOff_keepsModule x hk
    · exact keepsModule_refl m x

/-- Of a write of ACQ_CTRL module `m` sees its own bit alone. -/
theorem writeAcqCtrl_around {m : Nat} (hm : m < 4) (hg : d.gatedAt Reg.ACQ_CTRL = false) :
    ∃ x, keepsModule m d x ∧ keepsModule m (d.acqCtrlBit v x m) (writeAcqCtrl v d) := by
  rw [writeAcqCtrl_open hg]
  exact foldl_around (keepsModule_refl m) keepsModule_trans (List.mem_range.mpr hm) List.nodup_range
    (fun x _ _ hk => acqCtrlBit_keepsModule x hk) d

section Set

variable {m : Nat} (hm : m < 4) (hg : d.gatedAt Reg.ACQ_CTRL = false) (hon : v.toNat.testBit m = true)
  (hwas : d.fbit Fld.ACQ_CTRL_FE_EN m = false)

include hm hg hon hwas

/-- A link whose identity is valid starts, its module empty but for what an open block still takes. -/
theorem writeAcqCtrl_starts (hl : m < d.acq.mods.length) (hid : d.fbit Fld.ACQ_STATUS_ID_OK m = true) :
    (writeAcqCtrl v d).fbit Fld.ACQ_CTRL_FE_EN m = true ∧ (writeAcqCtrl v d).feMod m = (d.feMod m).heldPart := by
  obtain ⟨x, ⟨state, length, -⟩, ⟨state', -, enable', -⟩⟩ := writeAcqCtrl_around (v := v) hm hg
  have own : d.acqCtrlBit v x m = (x.setFbit Fld.ACQ_CTRL_FE_EN m true).setFeMod m (x.feMod m).heldPart := by
    simp [Dev.acqCtrlBit, hon, hwas, hid]
  rw [own] at state' enable'
  rw [feMod_setFeMod_same (d := x.setFbit _ _ _) (hl.trans_eq length.symm), state] at state'
  exact ⟨enable'.trans (fbit_setFbit_same x true (by decide) hm), state'⟩

/-- A link whose identity is not valid does not start, and CFG_ERR says so. -/
theorem writeAcqCtrl_refused (hid : d.fbit Fld.ACQ_STATUS_ID_OK m = false) :
    (writeAcqCtrl v d).fbit Fld.ACQ_CTRL_FE_EN m = false ∧ (writeAcqCtrl v d).bit Fld.ACQ_STATUS_CFG_ERR = true := by
  obtain ⟨x, ⟨-, -, enable, -⟩, ⟨-, -, enable', err'⟩⟩ := writeAcqCtrl_around (v := v) hm hg
  have own : d.acqCtrlBit v x m = x.setBit Fld.ACQ_STATUS_CFG_ERR true := by simp [Dev.acqCtrlBit, hon, hwas, hid]
  rw [own] at enable' err'
  obtain ⟨-, -, kept, -⟩ := setCfgErr_keepsModule x m
  exact ⟨enable'.trans (kept.trans (enable.trans hwas)), err' (Dev.bit_setBit_same _ _ _ (by decide) (by decide))⟩

end Set

end FeEnable

/-! ## A write of CAL_CTRL (R237, R239) -/

section RotEnable

variable {d : Dev} {v : Word}

/-- What a write of CAL_CTRL on `d` does for module `k`, once the modules before it have led to `x`. -/
def Dev.calCtrlBit (d : Dev) (v : Word) (x : Dev) (k : Nat) : Dev :=
  let written := x.setFbit Fld.CAL_CTRL_ROT_EN k (v.toNat.testBit k)
  if v.toNat.testBit k && !d.fbit Fld.CAL_CTRL_ROT_EN k then written.updFeMod k (fun s => { s with turnAt := s.turnAt.map (fun t => max t d.up) })
  else if d.fbit Fld.CAL_CTRL_ROT_EN k && !v.toNat.testBit k then written.dropTurn k
  else written

theorem writeCalCtrl_open (hg : d.gatedAt Reg.CAL_CTRL = false) : writeCalCtrl v d = (List.range 4).foldl (d.calCtrlBit v) d :=
  if_neg (by simp [hg])

theorem dropTurn_only (x : Dev) (k : Nat) : only [.regs, .acq] (fun o => o = Reg.CAL_ABANDON) x (x.dropTurn k) := by
  unfold Dev.dropTurn
  simp only
  split
  · split
    · exact only_refl _ _ _
    · exact only_trans (only_wider (updFeMod_only _ _ _ _) (by simp)) (only_wider (count_only _ _ _) (by simp))
  · exact only_refl _ _ _

/-- Beside the bit of ROT_EN only the module's turns and the count of those given up move. -/
theorem calCtrlBit_only (x : Dev) (k : Nat) : only [.regs, .acq] (fun o => o = Reg.CAL_ABANDON)
    (x.setFbit Fld.CAL_CTRL_ROT_EN k (v.toNat.testBit k)) (d.calCtrlBit v x k) :=
  only_ite (only_wider (updFeMod_only _ _ _ _) (by simp)) (only_ite (dropTurn_only _ k) (only_refl _ _ _))

theorem writeCalCtrl_only (hg : d.gatedAt Reg.CAL_CTRL = false) :
    only [.regs, .acq] (fun o => o ∈ [Reg.CAL_CTRL, Reg.CAL_ABANDON]) d (writeCalCtrl v d) := by
  rw [writeCalCtrl_open hg]
  refine only_foldl_of_mem (fun x k _ => only_trans (b := x.setFbit Fld.CAL_CTRL_ROT_EN k (v.toNat.testBit k)) ?_ ?_) d
  · exact only_mono (by simp) (by rintro _ rfl; simp [Fld.CAL_CTRL_ROT_EN]) (setFbit_only x Fld.CAL_CTRL_ROT_EN k (v.toNat.testBit k))
  · exact only_mono (fun _ h => h) (by rintro _ rfl; simp) (calCtrlBit_only x k)

theorem fbit_calCtrlBit (x : Dev) (k i : Nat) :
    (d.calCtrlBit v x k).fbit Fld.CAL_CTRL_ROT_EN i = (x.setFbit Fld.CAL_CTRL_ROT_EN k (v.toNat.testBit k)).fbit Fld.CAL_CTRL_ROT_EN i :=
  only_fbit (calCtrlBit_only x k) (by decide) i

theorem fbit_writeCalCtrl (hg : d.gatedAt Reg.CAL_CTRL = false) {m : Nat} (hm : m < 4) :
    (writeCalCtrl v d).fbit Fld.CAL_CTRL_ROT_EN m = v.toNat.testBit m := by
  rw [writeCalCtrl_open hg]
  obtain ⟨x, -, kept⟩ := foldl_around (R := fun x y : Dev => y.fbit Fld.CAL_CTRL_ROT_EN m = x.fbit Fld.CAL_CTRL_ROT_EN m)
    (f := d.calCtrlBit v) (fun _ => rfl) (fun h k => k.trans h) (List.mem_range.mpr hm) List.nodup_range
    (fun x k _ hk => (fbit_calCtrlBit x k m).trans (fbit_setFbit_beside x _ (by decide) hk.symm)) d
  exact kept.trans ((fbit_calCtrlBit x m m).trans (fbit_setFbit_same x _ (by decide) hm))

/-- The four bits of ROT_EN are those of the written word. -/
theorem rotEn_writeCalCtrl (hg : d.gatedAt Reg.CAL_CTRL = false) : (writeCalCtrl v d).fld Fld.CAL_CTRL_ROT_EN = v.toNat % 16 := by
  refine Nat.eq_of_testBit_eq fun i => ?_
  rw [show 16 = 2 ^ 4 from rfl, Nat.testBit_mod_two_pow]
  by_cases hi : i < 4
  · rw [decide_eq_true hi, Bool.true_and]
    exact fbit_writeCalCtrl hg hi
  · have high : (writeCalCtrl v d).fld Fld.CAL_CTRL_ROT_EN < 2 ^ i := (fld_lt _ _).trans_le (Nat.pow_le_pow_right two_pos (not_lt.mp hi))
    simp [hi, Nat.testBit_lt_two_pow high]

end RotEnable

end Sys2Proof.Machine
end

section
/-! Proofs about turns that end and links that go down, strobes, sample frames and downlink commands (R213 to R219, R239, R242). -/

namespace Sys2Proof.Machine

open Sys2Proof

/-! ## Turns that end (R237, R239, R242) -/

theorem setPhase_only (d : Dev) (m p : Nat) : only [.regs] (fun o => o = Reg.CAL_STATm m) d (d.setPhase m p) := setFld_only _ _ _

@[simp] theorem feMod_setPhase (d : Dev) (m p k : Nat) : (d.setPhase m p).feMod k = d.feMod k := feMod_of_acq rfl k

theorem endTurn_only (d : Dev) (m : Nat) : only [.regs, .acq] (fun o => o = Reg.CAL_STATm m) d (d.endTurn m) := by
  unfold Dev.endTurn
  split
  · exact only_refl _ _ _
  · have ended (f : FeModSt → FeModSt) : only [.regs, .acq] (fun o => o = Reg.CAL_STATm m) d ((d.updFeMod m f).setPhase m 0) :=
      only_trans (only_wider (updFeMod_only _ _ _ _) (by simp)) (only_wider (setPhase_only _ m 0) (by simp))
    exact only_ite (only_trans (ended _) (only_wider (setFld_only _ (Fld.CAL_STATm_LAPS m) _) (by simp))) (ended _)

/-- After its end no turn runs. -/
theorem turn_endTurn (d : Dev) (m : Nat) : ((d.endTurn m).feMod m).turn = none := by
  unfold Dev.endTurn
  split
  · assumption
  · rename_i t running
    have there : m < d.acq.mods.length := lt_mods_of_feMod fun e => by simp [e] at running
    simp only
    split <;> simp [feMod_updFeMod_same there]

/-- The registers that the end of a turn before its time moves. -/
def abandonReg (m o : Nat) : Prop := o = Reg.CAL_ABANDON ∨ o = Reg.CAL_STATm m

/-- A turn that counts as abandoned ends. -/
theorem abandoned_only (d : Dev) (m : Nat) : only [.regs, .acq] (abandonReg m) d ((d.count Reg.CAL_ABANDON).endTurn m) :=
  only_trans (only_mono (by simp) (fun _ => .inl) (count_only _ _ _)) (only_mono (fun _ h => h) (fun _ => .inr) (endTurn_only _ m))

theorem abandonTurn_only (d : Dev) (m : Nat) : only [.regs, .acq] (abandonReg m) d (d.abandonTurn m) := by
  unfold Dev.abandonTurn
  split
  · exact only_refl _ _ _
  · exact only_trans (only_wider (updFeMod_only _ _ _ _) (by simp)) (abandoned_only _ m)

theorem turn_abandonTurn (d : Dev) (m : Nat) : ((d.abandonTurn m).feMod m).turn = none := by
  unfold Dev.abandonTurn
  split
  · assumption
  · exact turn_endTurn _ m

/-! ## A link that goes down (R218) -/

/-- A turn that runs is abandoned with the link. -/
def Dev.turnLost (d : Dev) (m : Nat) : Dev := if (d.feMod m).turn.isSome then (d.count Reg.CAL_ABANDON).endTurn m else d

/-- The module once its link is down: the outputs that an open block interval takes, and what the link keeps. -/
def FeModSt.linkDown (s : FeModSt) : FeModSt :=
  { s.heldPart with strobeK := s.strobeK, hk := s.hk, tag := s.tag, nextInput := s.nextInput }

theorem feLinkDown_eq (d : Dev) (m : Nat) : d.feLinkDown m
    = ((((d.turnLost m).setFbit Fld.ACQ_STATUS_LINK_UP m false).setFbit Fld.ACQ_STATUS_MEAS m false).count (Reg.ACQ_FEm_DOWN m)).setFeMod m
      ((d.turnLost m).feMod m).linkDown := rfl

theorem turnLost_only (d : Dev) (m : Nat) : only [.regs, .acq] (abandonReg m) d (d.turnLost m) :=
  only_ite (abandoned_only d m) (only_refl _ _ _)

theorem length_mods_endTurn (d : Dev) (m : Nat) : (d.endTurn m).acq.mods.length = d.acq.mods.length := by
  unfold Dev.endTurn
  split
  · rfl
  · simp only
    split <;> simp [Dev.setPhase]

theorem length_mods_turnLost (d : Dev) (m : Nat) : (d.turnLost m).acq.mods.length = d.acq.mods.length := by
  unfold Dev.turnLost
  split
  · exact length_mods_endTurn _ m
  · rfl

theorem feLinkDown_only (d : Dev) (m : Nat) : only [.regs, .acq]
    (fun o => o ∈ [Reg.ACQ_STATUS, Reg.CAL_ABANDON, Reg.ACQ_FEm_DOWN m, Reg.CAL_STATm m]) d (d.feLinkDown m) := by
  rw [feLinkDown_eq]
  refine only_trans (only_mono (fun _ h => h) (by rintro _ (rfl | rfl) <;> simp) (turnLost_only d m)) ?_
  refine only_trans (only_mono (by simp) (by rintro _ rfl; simp [Fld.ACQ_STATUS_LINK_UP]) (setFbit_only _ Fld.ACQ_STATUS_LINK_UP m false)) ?_
  refine only_trans (only_mono (by simp) (by rintro _ rfl; simp [Fld.ACQ_STATUS_MEAS]) (setFbit_only _ Fld.ACQ_STATUS_MEAS m false)) ?_
  exact only_trans (only_mono (by simp) (by rintro _ rfl; simp) (count_only _ _ _)) (only_wider (setFeMod_only _ _ _ _) (by simp))

section LinkDown

variable {d : Dev} {m : Nat} (hm : m < 4)

include hm

theorem down_status_apart : Reg.ACQ_STATUS ≠ Reg.ACQ_FEm_DOWN m := by
  simp only [Reg.ACQ_STATUS, Reg.ACQ_FEm_DOWN]
  omega

theorem measuring_feLinkDown : (d.feLinkDown m).measuring m = false := by
  rw [Dev.measuring, feLinkDown_eq, fbit_setFeMod, only_fbit (count_only _ _ _) (down_status_apart hm)]
  exact fbit_setFbit_same _ _ (by decide) hm

theorem linkIsUp_feLinkDown : (d.feLinkDown m).linkIsUp m = false := by
  rw [Dev.linkIsUp, feLinkDown_eq, fbit_setFeMod, only_fbit (count_only _ _ _) (down_status_apart hm),
    fbit_setFbit_other _ _ _ _ (by decide) (by decide)]
  exact fbit_setFbit_same _ _ (by decide) hm

theorem down_feLinkDown : (d.feLinkDown m).regN (Reg.ACQ_FEm_DOWN m) = (d.regN (Reg.ACQ_FEm_DOWN m) + 1) % 2 ^ 32 := by
  have status (x : Dev) (f : FieldAt) (h : f.off = Reg.ACQ_STATUS) :
      (x.setFbit f m false).regN (Reg.ACQ_FEm_DOWN m) = x.regN (Reg.ACQ_FEm_DOWN m) :=
    only_regN (setFbit_only _ _ _ _) (fun e => down_status_apart hm (h.symm.trans e.symm))
  have lost : (d.turnLost m).regN (Reg.ACQ_FEm_DOWN m) = d.regN (Reg.ACQ_FEm_DOWN m) := by
    refine only_regN (turnLost_only d m) ?_
    simp only [abandonReg, Reg.ACQ_FEm_DOWN, Reg.CAL_ABANDON, Reg.CAL_STATm]
    omega
  rw [feLinkDown_eq, regN_setFeMod, regN_count, if_pos rfl, status _ _ rfl, status _ _ rfl, lost]

end LinkDown

theorem feMod_feLinkDown {d : Dev} {m : Nat} (h : m < d.acq.mods.length) :
    (d.feLinkDown m).feMod m = ((d.turnLost m).feMod m).linkDown := by
  rw [feLinkDown_eq, feMod_setFeMod_same]
  simpa [length_mods_turnLost] using h

/-- What a link that goes down leaves: neither link nor measurement, one more in DOWN, and no turn. -/
theorem feLinkDown_effect {d : Dev} {m : Nat} (hm : m < 4) (h : m < d.acq.mods.length) :
    (d.feLinkDown m).linkIsUp m = false ∧ (d.feLinkDown m).measuring m = false
      ∧ (d.feLinkDown m).regN (Reg.ACQ_FEm_DOWN m) = (d.regN (Reg.ACQ_FEm_DOWN m) + 1) % 2 ^ 32 ∧ ((d.feLinkDown m).feMod m).turn = none :=
  ⟨linkIsUp_feLinkDown hm, measuring_feLinkDown hm, down_feLinkDown hm, by rw [feMod_feLinkDown h]; rfl⟩

/-! ## Strobes (R213) -/

theorem emit_bare_only (d : Dev) (o : Out) (p : Nat → Prop) : only [] p d (d.emit o) := only_of_kept (emit_kept d o) rfl

/-- The strobe of a link whose instant has come: its PHASE is a free value. -/
theorem sampleStrobe_due {d : Dev} {m : Nat} (hm : m < 4) (hen : d.fbit Fld.ACQ_CTRL_FE_EN m = true)
    (hdue : (d.feMod m).strobeK.all (fun l => decide (l < d.strobeDue m)) = true) :
    d.sampleStrobe m = (d.draw.2.updFeMod m (fun s => { s with strobeK := some (d.strobeDue m) })).emit
      (.feStrobe m (d.draw.1 % 256) (d.strobeDue m % 256)) := if_pos ⟨hm, hen, hdue⟩

theorem sampleStrobe_effect {d : Dev} {m : Nat} (hm : m < 4) (hl : m < d.acq.mods.length) (hen : d.fbit Fld.ACQ_CTRL_FE_EN m = true)
    (hdue : (d.feMod m).strobeK.all (fun l => decide (l < d.strobeDue m)) = true) :
    only [.acq] (fun _ => False) d (d.sampleStrobe m) ∧ ((d.sampleStrobe m).feMod m).strobeK = some (d.strobeDue m)
      ∧ ∃ phase, phase < 256 ∧ Out.feStrobe m phase (d.strobeDue m % 256) ∈ (d.sampleStrobe m).out := by
  rw [sampleStrobe_due hm hen hdue]
  refine ⟨?_, ?_, _, Nat.mod_lt _ (by decide), List.mem_append_right _ (List.mem_singleton_self _)⟩
  · exact only_trans (only_wider (draw_only d _) (by simp)) (only_trans (updFeMod_only _ _ _ _) (only_wider (emit_bare_only _ _ _) (by simp)))
  · rw [feMod_emit, feMod_updFeMod_same (d := d.draw.2) hl]

/-! ## The sample chain keeps the tick of the last frame (R219) -/

/-- ADCs that change one after the other leave the rest of the module. -/
theorem foldl_modAdc_eq (f : AdcSt → AdcSt) (l : List Nat) (s : FeModSt) :
    ∃ adcs, l.foldl (fun (x : FeModSt) a => x.modAdc a f) s = { s with adcs := adcs } :=
  foldl_keeps (R := fun a b : FeModSt => ∃ adcs, b = { a with adcs := adcs }) (f := fun x a => x.modAdc a f) (fun _ => ⟨_, rfl⟩)
    (by rintro _ _ _ ⟨_, rfl⟩ ⟨_, rfl⟩; exact ⟨_, rfl⟩) (fun _ _ => ⟨_, rfl⟩) l s

theorem lastK_foldl_modAdc (f : AdcSt → AdcSt) (l : List Nat) (s : FeModSt) :
    (l.foldl (fun (x : FeModSt) a => x.modAdc a f) s).lastK = s.lastK := by
  obtain ⟨_, e⟩ := foldl_modAdc_eq f l s
  rw [e]

theorem lastK_feedWin (d : Dev) (isMatch : Bool) (k : Nat) (s : FeModSt) : (d.feedWin isMatch k s).lastK = s.lastK := by
  unfold Dev.feedWin
  split
  · rfl
  · simp only [apply_ite FeModSt.lastK, lastK_foldl_modAdc, ite_self]

theorem lastK_rawTick (d : Dev) (m k : Nat) (xs : List RawSamp) (s : FeModSt) : (d.rawTick m k xs s).lastK = s.lastK := by
  unfold Dev.rawTick
  simp only
  split
  · exact (lastK_feedWin d true (k - 4) _).trans (lastK_feedWin d false k _)
  · exact (lastK_feedWin d true (k - 4) _).trans (lastK_feedWin d false k _)

theorem lastK_feedFrame (d : Dev) (m last k : Nat) (xs : List RawSamp) (s : FeModSt) : (d.feedFrame m last k xs s).lastK = s.lastK :=
  (lastK_rawTick d m k xs _).trans
    (foldl_keeps (R := fun a b : FeModSt => b.lastK = a.lastK) (fun _ => rfl) (fun h k => k.trans h) (fun x _ => lastK_rawTick d m _ _ x) _ s)

/-! ## Sample frames (R215, R218, R219) -/

section Frame

variable {d : Dev} {m : Nat} {f : FeFrame} (hm : m < 4) (hen : d.fbit Fld.ACQ_CTRL_FE_EN m = true) (hup : d.linkIsUp m = true)

include hm hen hup

/-- A good frame that names a tick less than five frames after the last is taken as that tick. -/
theorem sampleFrame_good {k : Nat} (hcrc : f.crcOk = true) (hk : (d.feMod m).frameTick f.seq = some k)
    (hgap : k - (d.feMod m).lastK.getD (k - 1) - 1 < 5) : d.sampleFrame m f = d.goodFrame m k f := by
  have live : ¬ (4 ≤ m ∨ d.fbit Fld.ACQ_CTRL_FE_EN m = false) := by simp [hen, hm]
  simp only [Dev.sampleFrame, if_neg live, hcrc, if_true, hk, hup, if_neg (not_le.mpr hgap)]

/-- The fifth bad frame in a row takes the link down. -/
theorem sampleFrame_fifthBad (hcrc : f.crcOk = false) (hbad : 4 ≤ (d.feMod m).badRun) :
    d.sampleFrame m f = (d.setFeMod m { d.feMod m with badRun := (d.feMod m).badRun + 1, goodRun := 0 }).feLinkDown m := by
  have live : ¬ (4 ≤ m ∨ d.fbit Fld.ACQ_CTRL_FE_EN m = false) := by simp [hen, hm]
  have fifth : 5 ≤ (d.feMod m).badRun + 1 := by omega
  simp [Dev.sampleFrame, if_neg live, hcrc, hup, fifth]

end Frame

/-- A good frame whose reference holds: the chain's samples, and the counts of the frames missed and of the samples over range. -/
theorem goodFrame_eq {f : FeFrame} (href : f.refOk = true) (d : Dev) (m k : Nat) : ∃ s n, s.lastK = some k ∧ d.goodFrame m k f
    = ((d.setFeMod m s).count (Reg.ACQ_FEm_REPAIR m) (k - (d.feMod m).lastK.getD (k - 1) - 1)).count (Reg.ACQ_FEm_OVR m) n :=
  ⟨_, _, lastK_feedFrame d m _ k _ ((d.feMod m).noteFrame k f), if_neg (by simp [href])⟩

theorem goodFrame_effect {d : Dev} {m k : Nat} {f : FeFrame} (hl : m < d.acq.mods.length) (href : f.refOk = true) :
    only [.regs, .acq] (fun o => o = Reg.ACQ_FEm_REPAIR m ∨ o = Reg.ACQ_FEm_OVR m) d (d.goodFrame m k f)
      ∧ ((d.goodFrame m k f).feMod m).lastK = some k ∧ (d.goodFrame m k f).regN (Reg.ACQ_FEm_REPAIR m)
        = (d.regN (Reg.ACQ_FEm_REPAIR m) + (k - (d.feMod m).lastK.getD (k - 1) - 1)) % 2 ^ 32 := by
  obtain ⟨s, n, last, e⟩ := goodFrame_eq href d m k
  rw [e]
  refine ⟨?_, ?_, ?_⟩
  · exact only_trans (only_wider (setFeMod_only _ _ _ _) (by simp)) (only_trans (only_mono (by simp) (fun _ => .inl) (count_only _ _ _))
      (only_mono (by simp) (fun _ => .inr) (count_only _ _ _)))
  · simp [feMod_setFeMod_same hl, last]
  · have apart : Reg.ACQ_FEm_REPAIR m ≠ Reg.ACQ_FEm_OVR m := by simp [Reg.ACQ_FEm_REPAIR, Reg.ACQ_FEm_OVR]
    rw [regN_count, if_neg apart, regN_count, if_pos rfl]
    rfl

theorem badFrame_effect {d : Dev} {m : Nat} (hm : m < 4) (hl : m < d.acq.mods.length) (s : FeModSt) :
    only [.regs, .acq] (fun o => o ∈ [Reg.ACQ_STATUS, Reg.CAL_ABANDON, Reg.ACQ_FEm_DOWN m, Reg.CAL_STATm m]) d ((d.setFeMod m s).feLinkDown m)
      ∧ ((d.setFeMod m s).feLinkDown m).linkIsUp m = false ∧ ((d.setFeMod m s).feLinkDown m).measuring m = false
      ∧ ((d.setFeMod m s).feLinkDown m).regN (Reg.ACQ_FEm_DOWN m) = (d.regN (Reg.ACQ_FEm_DOWN m) + 1) % 2 ^ 32 := by
  obtain ⟨link, meas, down, -⟩ := feLinkDown_effect hm (hl.trans_eq (length_mods_setFeMod d m s).symm)
  exact ⟨only_trans (only_wider (setFeMod_only d m s _) (by simp)) (feLinkDown_only _ m), link, meas, down⟩

/-! ## Downlink commands (R216, R217) -/

/-- The module once the first command that waits has gone out with the EFF_SEQ of tick `effK`. -/
def FeModSt.sent (s : FeModSt) (cmd : FeCmd) (rest : List FeCmd) (effK : Nat) : FeModSt :=
  { s with cmdQ := rest, tag := (s.tag + 1) % 256, verify := s.verify ++ (if cmd.type = 1 then [⟨cmd.arg0, cmd.arg1, effK, cmd.tries + 1⟩] else []) }

/-- The echo of a command is no longer awaited. -/
def Dev.dropEcho (d : Dev) (m : Nat) (v : FeVerify) : Dev := d.setFeMod m { d.feMod m with verify := (d.feMod m).verify.erase v }

section Command

variable {d : Dev} {m sk : Nat} (hsk : (d.feMod m).strobeK = some sk)

include hsk

/-- A module that has had a strobe is there. -/
theorem lt_mods_of_strobe : m < d.acq.mods.length := lt_mods_of_feMod fun e => by simp [e] at hsk

theorem feCommandSend_effect {cmd : FeCmd} {rest : List FeCmd} (hq : (d.feMod m).cmdQ = cmd :: rest) :
    only [.acq] (fun _ => False) d (d.feCommandSend m) ∧ ((d.feCommandSend m).feMod m).cmdQ = rest
      ∧ ∃ n, 2 ≤ n ∧ n ≤ 128 ∧ Out.feCommand m (cmd.bytes (d.feMod m).tag (sk + n)) ∈ (d.feCommandSend m).out := by
  have sent : d.feCommandSend m = (d.draw.2.setFeMod m ((d.feMod m).sent cmd rest (sk + (2 + d.draw.1 % 127)))).emit
      (.feCommand m (cmd.bytes (d.feMod m).tag (sk + (2 + d.draw.1 % 127)))) := by
    simp [Dev.feCommandSend, FeModSt.sent, hq, hsk, Nat.add_assoc]
  rw [sent]
  refine ⟨?_, ?_, 2 + d.draw.1 % 127, by omega, by omega, List.mem_append_right _ (List.mem_singleton_self _)⟩
  · exact only_trans (only_wider (draw_only d _) (by simp)) (only_trans (setFeMod_only _ _ _ _) (only_wider (emit_bare_only _ _ _) (by simp)))
  · rw [feMod_emit, feMod_setFeMod_same (d := d.draw.2) (lt_mods_of_strobe hsk)]
    rfl

variable {v : FeVerify} (hv : (d.feMod m).verify.find? (fun v => decide (v.effK + 32 < sk)) = some v)

include hv

theorem verifyTimeout_late : d.verifyTimeout m
    = if v.tries < 2 then (d.dropEcho m v).updFeMod m (fun x => { x with cmdQ := ⟨1, v.adc, v.src, v.tries⟩ :: x.cmdQ })
      else (((d.dropEcho m v).count (Reg.ACQ_FEm_CMDFAIL m)).event .feCmdFail m v.adc 1).abandonTurn m := by
  simp [Dev.verifyTimeout, Dev.dropEcho, hsk, hv]

/-- The first time, the command whose echo has not come waits to be sent once more. -/
theorem verifyTimeout_repeats (ht : v.tries < 2) :
    only [.acq] (fun _ => False) d (d.verifyTimeout m)
      ∧ ((d.verifyTimeout m).feMod m).cmdQ = ⟨1, v.adc, v.src, v.tries⟩ :: (d.feMod m).cmdQ
      ∧ ((d.verifyTimeout m).feMod m).verify = (d.feMod m).verify.erase v := by
  have there := lt_mods_of_strobe hsk
  rw [verifyTimeout_late hsk hv, if_pos ht, feMod_updFeMod_same (d := d.dropEcho m v) (there.trans_eq (length_mods_setFeMod _ _ _).symm), Dev.dropEcho,
    feMod_setFeMod_same there]
  exact ⟨only_trans (setFeMod_only _ _ _ _) (updFeMod_only _ _ _ _), rfl, rfl⟩

/-- The second time it has failed: it counts in CMDFAIL, and the turn is abandoned. -/
theorem verifyTimeout_fails (hm : m < 4) (ht : 2 ≤ v.tries) :
    only [.regs, .hif, .acq, .snt] (fun o => eventReg o ∨ o ∈ [Reg.ACQ_FEm_CMDFAIL m, Reg.CAL_ABANDON, Reg.CAL_STATm m]) d (d.verifyTimeout m)
      ∧ (d.verifyTimeout m).regN (Reg.ACQ_FEm_CMDFAIL m) = (d.regN (Reg.ACQ_FEm_CMDFAIL m) + 1) % 2 ^ 32
      ∧ ((d.verifyTimeout m).feMod m).turn = none := by
  rw [verifyTimeout_late hsk hv, if_neg (not_lt.mpr ht)]
  have noted : only [.acq] (fun _ => False) d (d.dropEcho m v) := setFeMod_only _ _ _ _
  generalize d.dropEcho m v = x at noted ⊢
  have counted := count_only x (Reg.ACQ_FEm_CMDFAIL m) 1
  have raised := event_only (x.count (Reg.ACQ_FEm_CMDFAIL m)) .feCmdFail m v.adc 1 sOk
  have dropped := abandonTurn_only ((x.count (Reg.ACQ_FEm_CMDFAIL m)).event .feCmdFail m v.adc 1) m
  refine ⟨?_, ?_, turn_abandonTurn _ m⟩
  · refine only_trans (only_mono (by simp) (fun _ => False.elim) noted) (only_trans (only_mono (by simp) ?_ counted)
      (only_trans (only_mono (by simp) (fun _ => .inl) raised) (only_mono (by simp) ?_ dropped)))
    · rintro _ rfl
      exact .inr List.mem_cons_self
    · rintro _ (rfl | rfl)
      · exact .inr (by simp)
      · exact .inr (by simp)
  · have quiet : ¬ abandonReg m (Reg.ACQ_FEm_CMDFAIL m) ∧ ¬ eventReg (Reg.ACQ_FEm_CMDFAIL m) := by
      simp only [abandonReg, Reg.ACQ_FEm_CMDFAIL, Reg.CAL_ABANDON, Reg.CAL_STATm]
      exact ⟨by omega, not_eventReg (by omega)⟩
    rw [only_regN dropped quiet.1, only_regN raised quiet.2, regN_count, if_pos rfl, only_regN noted id]

end Command

end Sys2Proof.Machine
end

section
/-! Proofs about the measuring start, fine samples with their step of energy, LOCAL estimation, and the statement about local acquisition (O7). -/

namespace Sys2Proof.Machine

open Sys2Proof

/-! ## Measuring start (R221) -/

theorem startStep_foldl_modAdc (f : AdcSt → AdcSt) (l : List Nat) (s : FeModSt) :
    (l.foldl (fun (x : FeModSt) a => x.modAdc a f) s).startStep = s.startStep := by
  obtain ⟨_, e⟩ := foldl_modAdc_eq f l s
  rw [e]

/-- A step of a reference calibration counts no step of the start. -/
theorem startStep_refStep (s : FeModSt) (adcs : List Nat) (k j : Nat) : (s.refStep adcs k j).startStep = s.startStep := by
  simp only [FeModSt.refStep, apply_ite FeModSt.startStep, FeModSt.mux, FeModSt.acRef, FeModSt.openWin, startStep_foldl_modAdc, ite_self]

theorem startValues_only (d : Dev) (m : Nat) (p : Nat → Prop) : only [.acq] p d (d.startValues m) := setFeMod_only _ _ _ _

theorem startStep_startValues {d : Dev} {m : Nat} (h : m < d.acq.mods.length) :
    ((d.startValues m).feMod m).startStep = (d.feMod m).startStep := by
  rw [Dev.startValues, feMod_setFeMod_same h]
  rfl

/-- A step of the start is counted. -/
def Dev.startCounted (d : Dev) (m : Nat) : Dev := d.updFeMod m (fun x => { x with startStep := x.startStep + 1 })

/-- The last step of the start: the module measures, its chain empty, and its turns begin a second later. -/
def Dev.startMeasuring (d : Dev) (m : Nat) (at_ g : Nat) : Dev :=
  (d.setFbit Fld.ACQ_STATUS_MEAS m true).updFeMod m (fun x => { (x.restartChain g) with turnAt := some (at_ + 1000000000) })

section Start

variable {d : Dev} {m ms : Nat} (hm : m < 4) (hl : m < d.acq.mods.length)

theorem startCounted_only (p : Nat → Prop) : only [.acq] p d (d.startCounted m) := updFeMod_only _ _ _ _

/-- What a step of the start that is due makes of the device: a step of the reference calibration, the values it gives, or measurement. -/
theorem feStartStep_due (hms : startTimes[(d.feMod m).startStep]? = some ms) (hup : d.linkIsUp m = true) (hmeas : d.measuring m = false)
    (hdue : (d.feMod m).startAt + ms * 1000000 ≤ d.up) : d.feStartStep m
      = if (d.feMod m).startStep < 9 then (d.startCounted m).updFeMod m (fun x => x.refStep allAdcs d.nowTick (d.feMod m).startStep)
        else if (d.feMod m).startStep = 9 then (d.startCounted m).startValues m
        else (d.startCounted m).startMeasuring m d.up d.g16 := by
  simp [Dev.feStartStep, hms, hup, hmeas, Dev.startCounted, Dev.startMeasuring, not_lt.mpr hdue]

include hl

theorem length_mods_startCounted : m < (d.startCounted m).acq.mods.length := hl.trans_eq (length_mods_updFeMod _ _ _).symm

theorem startStep_startCounted : ((d.startCounted m).feMod m).startStep = (d.feMod m).startStep + 1 := by
  rw [Dev.startCounted, feMod_updFeMod_same hl]

include hm

theorem feStartStep_effect (hms : startTimes[(d.feMod m).startStep]? = some ms) (hup : d.linkIsUp m = true) (hmeas : d.measuring m = false)
    (hdue : (d.feMod m).startAt + ms * 1000000 ≤ d.up) :
    only [.regs, .acq] (fun o => o ∈ [Reg.ACQ_STATUS]) d (d.feStartStep m)
      ∧ ((d.feStartStep m).feMod m).startStep = (d.feMod m).startStep + 1
      ∧ (d.feStartStep m).measuring m = decide ((d.feMod m).startStep = 10) := by
  rw [feStartStep_due hms hup hmeas hdue]
  have step : (d.feMod m).startStep < 11 := (List.getElem?_eq_some_iff.mp hms).1
  have counted := startCounted_only (d := d) (m := m) (fun o => o ∈ [Reg.ACQ_STATUS])
  have there := length_mods_startCounted hl
  split
  · rename_i early
    refine ⟨only_wider (only_trans counted (updFeMod_only _ _ _ _)) (by simp), ?_, ?_⟩
    · rw [feMod_updFeMod_same there, startStep_refStep, startStep_startCounted hl]
    · exact hmeas.trans (decide_eq_false (by omega)).symm
  · split
    · rename_i values
      refine ⟨only_wider (only_trans counted (startValues_only _ _ _)) (by simp), ?_, ?_⟩
      · rw [startStep_startValues there, startStep_startCounted hl]
      · exact hmeas.trans (decide_eq_false (by omega)).symm
    · refine ⟨?_, ?_, ?_⟩
      · refine only_trans (only_wider counted (by simp)) (only_trans (only_mono (by simp) ?_ (setFbit_only _ Fld.ACQ_STATUS_MEAS m true))
          (only_wider (updFeMod_only _ _ _ _) (by simp)))
        rintro _ rfl
        exact List.mem_singleton_self _
      · rw [Dev.startMeasuring, feMod_updFeMod_same (d := (d.startCounted m).setFbit _ _ _) there]
        exact startStep_startCounted hl
      · exact (fbit_setFbit_same _ true (by decide) hm).trans (decide_eq_true (by omega)).symm

end Start

/-! ## Fine samples and the step of energy (R222, R279) -/

theorem modAcq_only (d : Dev) (f : AcqSt → AcqSt) (p : Nat → Prop) : only [.acq] p d (d.modAcq f) := only_of_kept (by simp [keptBut]) rfl

theorem modNrg_only (d : Dev) (f : NrgSt → NrgSt) (p : Nat → Prop) : only [.nrg] p d (d.modNrg f) := only_of_kept (by simp [keptBut]) rfl

/-- The registers of the energy block. -/
def nrgReg (o : Nat) : Prop := o / 0x1000 = 0x0b8

theorem setPointBit_only (d : Dev) {f : FieldAt} {p : Nat} (hp : p < 16) (hf : f.off = Reg.NRG_PTn_STAT p) (b : Bool) :
    only [.regs, .nrg] nrgReg d (d.setBit f b) := by
  refine only_mono (by simp) ?_ (setBit_only d f b)
  rintro _ rfl
  rw [hf, nrgReg, Reg.NRG_PTn_STAT]
  omega

theorem pointStep_only (d : Dev) (n : Nat) {x : Nat × NrgEntry} (hp : x.1 < 16) : only [.regs, .nrg] nrgReg d (d.pointStep n x) := by
  have nrg (y : Dev) (f : NrgSt → NrgSt) : only [.regs, .nrg] nrgReg y (y.modNrg f) := only_wider (modNrg_only y f _) (by simp)
  unfold Dev.pointStep
  extract_lets p e samples d0
  have marked : only [.regs, .nrg] nrgReg d d0 := only_ite (setPointBit_only d hp rfl true) (only_refl _ _ _)
  split
  · exact only_trans marked (only_trans (nrg _ _) (setPointBit_only _ hp rfl true))
  · exact only_trans marked (only_trans (nrg _ _) (nrg _ _))

theorem lt_of_mem_validPoints {d : Dev} {x : Nat × NrgEntry} (h : x ∈ d.validPoints) : x.1 < 16 := by
  obtain ⟨p, hp, hx⟩ := List.mem_filterMap.mp h
  obtain ⟨e, -, rfl⟩ := Option.map_eq_some_iff.mp hx
  exact List.mem_range.mp hp

theorem startSave_only (d : Dev) (final : Bool) (x : Nat × NrgEntry) (p : Nat → Prop) : only [.nrg] p d (d.startSave final x) :=
  only_trans (modNrg_only _ _ _) (modNrg_only _ _ _)

theorem energyStep_only (d : Dev) (n : Nat) : only [.regs, .nrg] nrgReg d (d.energyStep n) := by
  have nrg (y : Dev) (f : NrgSt → NrgSt) : only [.regs, .nrg] nrgReg y (y.modNrg f) := only_wider (modNrg_only y f _) (by simp)
  unfold Dev.energyStep
  extract_lets d1 d2
  have points : only [.regs, .nrg] nrgReg d d1 := only_foldl_of_mem (fun y _ hx => pointStep_only y n (lt_of_mem_validPoints hx)) d
  have stepped : only [.regs, .nrg] nrgReg d d2 := only_trans points (nrg _ _)
  refine only_ite (only_ite (only_trans stepped (only_trans ?_ (nrg _ _))) stepped) (only_refl _ _ _)
  exact only_foldl _ (fun y x => only_wider (startSave_only y true x _) (by simp)) _ _

theorem fineModule_only (d : Dev) (n m : Nat) (p : Nat → Prop) : only [.acq] p d (d.fineModule n m) := by
  unfold Dev.fineModule
  exact only_ite (only_refl _ _ _) (setFeMod_only _ _ _ _)

theorem fineSample_effect {d : Dev} {n : Nat} (hn : d.fineDue = some n) :
    only [.regs, .acq, .nrg] nrgReg d d.fineSample ∧ d.fineSample.acq.fineLast = some n := by
  have taken : d.fineSample = (((List.range 4).foldl (fun (x : Dev) m => x.fineModule n m) d).modAcq
      (fun a => { a with fineLast := some n })).energyStep n := by simp only [Dev.fineSample, hn]
  rw [taken]
  have chans : only [.acq] nrgReg d ((List.range 4).foldl (fun (x : Dev) m => x.fineModule n m) d) :=
    only_foldl _ (fun x m => fineModule_only x n m _) _ d
  generalize (List.range 4).foldl (fun (x : Dev) m => x.fineModule n m) d = x at chans ⊢
  have energy := energyStep_only (x.modAcq (fun a => { a with fineLast := some n })) n
  refine ⟨only_trans (only_wider chans (by simp)) (only_trans (only_wider (modAcq_only x _ _) (by simp)) (only_wider energy (by simp))), ?_⟩
  rw [only_acq energy (by simp)]
  rfl

/-! ## LOCAL estimation (R233, R329) -/

/-- An item that does not complete yet has moved the scheduler alone. -/
theorem serve_pending_only {d : Dev} {origin tag : Nat} (h : (d.serve origin tag).2 = false) :
    only [.regs, .sch] schReg d (d.serve origin tag).1 := by
  unfold Dev.serve at h ⊢
  split at h
  · cases h
  · split at h
    · exact only_refl _ _ _
    · rename_i i _
      split at h
      · rw [if_pos ‹_›]
        exact only_refl _ _ _
      · rw [if_neg ‹_›]
        have offered := offer_schedules (P := fun _ => False) d i
        simp only at h ⊢
        generalize (d.offer i).1 = d1 at offered h ⊢
        have dispatched := schedules_trans offered (schedules_ite (c := (d1.freeEngines i.cls).isEmpty = true)
          (preempt_schedules d1 i.cls) (dispatch_schedules d1 i.cls))
        split at h
        · cases h
        · exact dispatched.1

section Estimate

variable {d : Dev} {i e : Nat}

/-- The record is committed as its item completes, where it can still be estimated. -/
theorem localItem_commits {d1 : Dev} {ent : StreamEntry} (hdue : (d.localDue i e).isSome = true) (hserved : d.serve 0x03 i = (d1, true))
    (hent : d1.localDue i e = some ent) : d.localItem i e
      = (d1.draw.2.commitRec i ent (epochTime d1.rate e) (d1.localRec i e ent) (d1.draw.1 / 256) (d1.draw.1 % 256)).toMirror ent e
        (d1.localRec i e ent) := by
  have due : ¬ (d.localDue i e).isNone = true := by simpa [Option.isSome_iff_ne_none] using hdue
  simp only [Dev.localItem, if_neg due, hserved, if_true, Dev.localEstimate, hent]

theorem localItem_idle (h : (d.localDue i e).isNone = true) : d.localItem i e = d := if_pos h

theorem localItem_pending (hdue : (d.localDue i e).isSome = true) (hserved : (d.serve 0x03 i).2 = false) :
    d.localItem i e = (d.serve 0x03 i).1 := by
  have due : ¬ (d.localDue i e).isNone = true := by simpa [Option.isSome_iff_ne_none] using hdue
  simp only [Dev.localItem, if_neg due, hserved, Bool.false_eq_true, if_false]

end Estimate

/-! ## CAL_READ and CAL_RETRY (R245, R246) -/

theorem calRead_eq (m : Nat) (buf : HostBuf) (d : Dev) : calRead m buf d = (d, if 3 < m then .done sRange 0
    else if d.measuring m = false then .done sNotValid 0 else if buf.len < 208 then .done sRange 0
    else .block ((d.feMod m).adcs.flatMap d.calBlock) (some buf.addr)) := by
  unfold calRead
  simp only [Bool.not_eq_true', ← apply_ite (Prod.mk d)]

theorem calRetry_of_lt {m mask : Nat} {d t : Dev} (hm : m < 4)
    (ht : t = (bitsOf 13 mask).foldl (fun (x : Dev) a =>
      (x.setFbit (Fld.CAL_FAULTm_ADC m) a false).updFeMod m (fun s => s.modAdc a (fun y => { y with refusals := 0 }))) d) :
    calRetry m mask d = (t.setFld (Fld.CAL_STATm_HALT m) 0, .ok) := by
  subst ht
  exact if_neg (by omega)

/-! ## The rows -/

section Rows

variable (s : State) (dt m : Nat)

theorem exec_feEnable (v : Word) : exec (.feEnable v) s = s.run 0 (fun _ d => writeAcqCtrl v d) := rfl

theorem exec_rotEnable (v : Word) : exec (.rotEnable v) s = s.run 0 (fun _ d => writeCalCtrl v d) := rfl

theorem exec_sampleStrobe : exec (.sampleStrobe dt m) s = s.run dt (fun _ d => d.sampleStrobe m) := rfl

theorem exec_sampleFrame (f : FeFrame) : exec (.sampleFrame dt m f) s = s.run dt (fun _ d => d.sampleFrame m f) := rfl

/-- Lost comma alignment takes a link down whatever frames are missing. -/
theorem exec_feLinkDown_commaLost : exec (.feLinkDown dt m true) s
    = s.run dt (fun _ d => if decide (m < 4) && d.linkIsUp m then d.feLinkDown m else d) := by
  simp only [exec, execFeLinkDown, Bool.true_or, Bool.and_true]

theorem exec_feCommandSend : exec (.feCommandSend dt m) s
    = s.run dt (fun _ d => if decide (m < 4) && d.fbit Fld.ACQ_CTRL_FE_EN m then d.feCommandSend m else d) := rfl

theorem exec_feCmdVerifyTimeout : exec (.feCmdVerifyTimeout dt m) s = s.run dt (fun _ d => if m < 4 then d.verifyTimeout m else d) := rfl

theorem exec_feStartStep : exec (.feStartStep dt m) s
    = s.run dt (fun _ d => if decide (m < 4) && d.fbit Fld.ACQ_CTRL_FE_EN m then d.feStartStep m else d) := rfl

theorem exec_fineSample : exec (.fineSample dt) s = s.run dt (fun _ d => d.fineSample) := rfl

theorem exec_localEstimation (i e : Nat) : exec (.localEstimation dt i e) s = s.run dt (fun _ d => d.localItem i e) := rfl

end Rows

/-- A row of which only the frame is said. -/
theorem exists_run_only {s : State} {dt : Nat} {f : KeySt → Dev → Dev} {d : Dev} {l : List Part} {p : Nat → Prop}
    (e : f s.key (later s.dev dt) = d) (frame : only l p (later s.dev dt) d) : ∃ t, s.run dt f = .next t ∧ moves s dt l p t :=
  ⟨_, rfl, rfl, rfl, e ▸ frame⟩

theorem if_live {m : Nat} {b : Bool} {x y : Dev} (hm : m < 4) (hb : b = true) : (if decide (m < 4) && b then x else y) = x :=
  if_pos (by simp [hm, hb])

/-- Settles O7: what each row does to the device, or to the state of its module. -/
theorem acquisitionCompletes : Obligations.AcquisitionCompletes := by
  unfold Obligations.AcquisitionCompletes
  refine ⟨?_, ?_, ?_, ?_, ?_, ?_, ?_, ?_, ?_, ?_, ?_, ?_, ?_, ?_, ?_, ?_, ?_⟩
  · rintro s v m ⟨hm, hl⟩ hg hon hwas hid
    rw [exec_feEnable]
    exact exists_run_moves rfl (writeAcqCtrl_only (d := later s.dev 0) hg) (writeAcqCtrl_starts (d := later s.dev 0) hm hg hon hwas hl hid)
  · rintro s v m hm hg hon hwas hid
    rw [exec_feEnable]
    exact exists_run_moves rfl (writeAcqCtrl_only (d := later s.dev 0) hg) (writeAcqCtrl_refused (d := later s.dev 0) hm hg hon hwas hid)
  · rintro s v hg
    rw [exec_rotEnable]
    exact exists_run_moves rfl (writeCalCtrl_only (d := later s.dev 0) hg) (rotEn_writeCalCtrl (d := later s.dev 0) hg)
  · rintro s dt m d rfl ⟨hm, hl⟩ hen hdue
    obtain ⟨frame, sent⟩ := sampleStrobe_effect hm hl hen hdue
    rw [exec_sampleStrobe]
    exact exists_run_moves rfl frame sent
  · rintro s dt m k f d rfl ⟨hm, hen, hup, hl⟩ ⟨hcrc, href⟩ hk hgap
    obtain ⟨frame, last, repaired⟩ := goodFrame_effect (k := k) hl href
    rw [exec_sampleFrame]
    exact exists_run_moves (sampleFrame_good hm hen hup hcrc hk hgap) frame ⟨last, repaired⟩
  · rintro s dt m f d rfl ⟨hm, hen, hup, hl⟩ hcrc hbad
    obtain ⟨frame, down⟩ := badFrame_effect hm hl _
    rw [exec_sampleFrame]
    exact exists_run_moves (sampleFrame_fifthBad hm hen hup hcrc hbad) frame down
  · rintro s dt m d rfl ⟨hm, hup, hl⟩
    rw [exec_feLinkDown_commaLost]
    exact exists_run_moves (if_live hm hup) (feLinkDown_only _ m) (feLinkDown_effect hm hl)
  · rintro s dt m sk cmd rest d rfl ⟨hm, hen⟩ hq hsk
    obtain ⟨frame, sent⟩ := feCommandSend_effect hsk hq
    rw [exec_feCommandSend]
    exact exists_run_moves (if_live hm hen) frame sent
  · rintro s dt m sk v d rfl hm hsk hv ht
    obtain ⟨frame, again⟩ := verifyTimeout_repeats hsk hv ht
    rw [exec_feCmdVerifyTimeout]
    exact exists_run_moves (if_pos hm) frame again
  · rintro s dt m sk v d rfl hm hsk hv ht
    obtain ⟨frame, failed⟩ := verifyTimeout_fails hsk hv hm ht
    rw [exec_feCmdVerifyTimeout]
    exact exists_run_moves (if_pos hm) frame failed
  · rintro s dt m ms d rfl ⟨hm, hen, hup, hmeas, hl⟩ hms hdue
    obtain ⟨frame, started⟩ := feStartStep_effect hm hl hms hup hmeas hdue
    rw [exec_feStartStep]
    exact exists_run_moves (if_live hm hen) frame started
  · rintro s dt n d rfl hn
    obtain ⟨frame, last⟩ := fineSample_effect hn
    rw [exec_fineSample]
    exact exists_run_moves rfl (only_mono (by simp) (fun _ h => .inr (List.mem_singleton.mpr h)) frame) last
  · rintro s dt i e ent d d1 d2 rfl hdue hserved hent rfl
    exact congrArg (fun x => (.next { s with dev := x } : Answer)) (localItem_commits hdue hserved hent)
  · rintro s dt i e d rfl hnone
    rw [exec_localEstimation]
    exact run_idle [] _ (localItem_idle hnone)
  · rintro s c d m buf hr rfl
    refine (run_accept_ready (fun _ => calRead m buf) hr).trans ?_
    rw [calRead_eq]
  · rintro s c d t m mask hr rfl hm ht
    refine (run_accept_ready (fun _ => calRetry m mask) hr).trans ?_
    rw [calRetry_of_lt hm ht]
  · rintro s dt i e d rfl ⟨hdue, hserved⟩
    rw [exec_localEstimation]
    exact exists_run_only (localItem_pending hdue hserved) (serve_pending_only hserved)

end Sys2Proof.Machine
end

section
/-! Proofs about calibration turns: their start, their first and their last step, the end of a correction ramp, and the statement about them
(R237 to R242; O8). -/

namespace Sys2Proof.Machine

open Sys2Proof

/-! ## The start of a turn (R237) -/

/-- Of a module's inputs the next one is among the twelve. -/
theorem nextInput_lt {d : Dev} {m j i : Nat} (h : d.nextInput m j = some i) : i < 12 := by
  obtain ⟨k, -, rfl⟩ := List.mem_map.mp (List.mem_of_find?_eq_some h)
  exact Nat.mod_lt _ (by decide)

/-- The next turn start of a module is 650 ms later. -/
def Dev.turnRearmed (d : Dev) (m at_ : Nat) : Dev := d.updFeMod m (fun x => { x with turnAt := some (at_ + 650000000) })

/-- The module with a turn of input `i` that starts: S goes to the input, with its own reference values. -/
def FeModSt.turned (s : FeModSt) (i at_ : Nat) : FeModSt :=
  { ((s.mux [(12, i)]).modAdc 12 AdcSt.ownRef) with turn := some { input := i, at_ := at_ } }

section Start

variable {d : Dev} {m at_ : Nat} (hmeas : d.measuring m = true) (hrot : d.fbit Fld.CAL_CTRL_ROT_EN m = true)
  (hturnAt : (d.feMod m).turnAt = some at_) (hat : at_ ≤ d.up)

theorem turnRearmed_only (p : Nat → Prop) : only [.acq] p d (d.turnRearmed m at_) := updFeMod_only _ _ _ _

include hturnAt

theorem lt_mods_of_turnAt : m < d.acq.mods.length := lt_mods_of_feMod fun e => by simp [e] at hturnAt

theorem feMod_turnRearmed : (d.turnRearmed m at_).feMod m = { d.feMod m with turnAt := some (at_ + 650000000) } := by
  rw [Dev.turnRearmed, feMod_updFeMod_same (lt_mods_of_turnAt hturnAt)]

include hmeas hrot hat

theorem turnStart_starts {i : Nat} (hidle : (d.feMod m).turn = none) (hhalt : d.fld (Fld.CAL_STATm_HALT m) = 0)
    (hi : d.nextInput m (d.feMod m).nextInput = some i) : d.turnStart m
      = (((d.turnRearmed m at_).updFeMod m (fun x => x.turned i d.up)).setFld (Fld.CAL_STATm_INPUT m) i).setPhase m 1 := by
  simp [Dev.turnStart, hturnAt, hmeas, hrot, not_lt.mpr hat, hidle, hhalt, hi, Dev.turnRearmed, FeModSt.turned]

theorem turnStart_skips (hruns : (d.feMod m).turn.isSome = true) : d.turnStart m = (d.turnRearmed m at_).count Reg.CAL_ABANDON := by
  simp [Dev.turnStart, hturnAt, hmeas, hrot, not_lt.mpr hat, hruns, Dev.turnRearmed]

/-- A turn start that has come, with no turn running and rotation not halted. -/
theorem turnStart_effect {i : Nat} (hidle : (d.feMod m).turn = none) (hhalt : d.fld (Fld.CAL_STATm_HALT m) = 0)
    (hi : d.nextInput m (d.feMod m).nextInput = some i) :
    only [.regs, .acq] (fun o => o ∈ [Reg.CAL_STATm m]) d (d.turnStart m)
      ∧ ((d.turnStart m).feMod m).turn = some { input := i, at_ := d.up }
      ∧ ((d.turnStart m).feMod m).turnAt = some (at_ + 650000000)
      ∧ ((d.turnStart m).feMod m).cmdQ = (d.feMod m).cmdQ ++ [⟨1, 12, i, 0⟩]
      ∧ (d.turnStart m).fld (Fld.CAL_STATm_INPUT m) = i ∧ (d.turnStart m).fld (Fld.CAL_STATm_PHASE m) = 1 := by
  have there : m < (d.turnRearmed m at_).acq.mods.length :=
    (lt_mods_of_turnAt hturnAt).trans_eq (length_mods_updFeMod _ _ _).symm
  have state : (d.turnStart m).feMod m = { d.feMod m with turnAt := some (at_ + 650000000) }.turned i d.up := by
    rw [turnStart_starts hmeas hrot hturnAt hat hidle hhalt hi, feMod_setPhase, feMod_setFld, feMod_updFeMod_same there,
      feMod_turnRearmed hturnAt]
  rw [state, turnStart_starts hmeas hrot hturnAt hat hidle hhalt hi]
  refine ⟨?_, rfl, rfl, rfl, ?_, ?_⟩
  · exact only_trans (only_wider (turnRearmed_only _) (by simp)) (only_trans (only_wider (updFeMod_only _ _ _ _) (by simp))
      (only_trans (only_mono (by simp) (fun _ h => List.mem_singleton.mpr h) (setFld_only _ (Fld.CAL_STATm_INPUT m) i))
        (only_mono (by simp) (fun _ h => List.mem_singleton.mpr h) (setPhase_only _ m 1))))
  · rw [Dev.setPhase, Dev.fld_setFld_other _ (Fld.CAL_STATm_PHASE m) (Fld.CAL_STATm_INPUT m) _ (by simp [Fld.CAL_STATm_PHASE])
      (.inr (.inl (by simp [Fld.CAL_STATm_PHASE, Fld.CAL_STATm_INPUT]))), Dev.fld_setFld_same _ _ _ (by simp [Fld.CAL_STATm_INPUT])]
    exact Nat.mod_eq_of_lt ((nextInput_lt hi).trans (by simp [Fld.CAL_STATm_INPUT]))
  · exact Dev.fld_setFld_same _ (Fld.CAL_STATm_PHASE m) 1 (by simp [Fld.CAL_STATm_PHASE])

/-- A turn start that has come while a turn runs is skipped. -/
theorem turnStart_skip_effect (hruns : (d.feMod m).turn.isSome = true) :
    only [.regs, .acq] (fun o => o ∈ [Reg.CAL_ABANDON]) d (d.turnStart m) ∧ ((d.turnStart m).feMod m).turn = (d.feMod m).turn
      ∧ (d.turnStart m).regN Reg.CAL_ABANDON = (d.regN Reg.CAL_ABANDON + 1) % 2 ^ 32 := by
  rw [turnStart_skips hmeas hrot hturnAt hat hruns]
  refine ⟨?_, ?_, ?_⟩
  · exact only_trans (only_wider (turnRearmed_only _) (by simp))
      (only_mono (by simp) (fun _ h => List.mem_singleton.mpr h) (count_only _ _ _))
  · rw [feMod_count, feMod_turnRearmed hturnAt]
  · rw [regN_count, if_pos rfl, Dev.turnRearmed, Dev.updFeMod, regN_setFeMod]

end Start

/-! ## The steps of a turn (R237, R240 to R242) -/

/-- The running turn goes on to the step after `t.step`. -/
def Dev.turnStepped (d : Dev) (m : Nat) (t : TurnSt) : Dev := d.updFeMod m (fun x => { x with turn := some { t with step := t.step + 1 } })

section Step

variable {d : Dev} {m : Nat} {t : TurnSt}

theorem turnStepped_only (p : Nat → Prop) : only [.acq] p d (d.turnStepped m t) := updFeMod_only _ _ _ _

theorem turnStep_first (h : t.step = 1) : d.turnStep m t
    = ((d.turnStepped m t).updFeMod m (fun x => x.openWin (.match_ t.input) [t.input, 12] d.nowTick 51200)).setPhase m 2 := if_pos h

theorem turnStep_last (h : t.step = 26) : d.turnStep m t = (d.turnStepped m t).finishS m t := by
  simp [Dev.turnStep, h, Dev.turnStepped]

/-- The first step opens the window of the forward match. -/
theorem turnStep_first_effect (hturn : (d.feMod m).turn = some t) (h : t.step = 1) :
    only [.regs, .acq] (fun o => o ∈ [Reg.CAL_STATm m]) d (d.turnStep m t)
      ∧ ((d.turnStep m t).feMod m).win = some ⟨.match_ t.input, [t.input, 12], d.nowTick, 51200⟩
      ∧ ((d.turnStep m t).feMod m).turn = some { t with step := 2 } ∧ (d.turnStep m t).fld (Fld.CAL_STATm_PHASE m) = 2 := by
  have there : m < d.acq.mods.length := lt_mods_of_feMod fun e => by simp [e] at hturn
  have state : (d.turnStep m t).feMod m
      = { d.feMod m with turn := some { t with step := t.step + 1 } }.openWin (.match_ t.input) [t.input, 12] d.nowTick 51200 := by
    rw [turnStep_first h, feMod_setPhase, feMod_updFeMod_same (d := d.turnStepped m t) (there.trans_eq (length_mods_updFeMod _ _ _).symm),
      Dev.turnStepped, feMod_updFeMod_same there]
  rw [state, turnStep_first h]
  refine ⟨?_, rfl, by rw [FeModSt.openWin, h], Dev.fld_setFld_same _ (Fld.CAL_STATm_PHASE m) 2 (by simp [Fld.CAL_STATm_PHASE])⟩
  exact only_trans (only_wider (turnStepped_only _) (by simp)) (only_trans (only_wider (updFeMod_only _ _ _ _) (by simp))
    (only_mono (by simp) (fun _ h => List.mem_singleton.mpr h) (setPhase_only _ m 2)))

/-- The registers that a halt of the rotation moves. -/
def haltReg (m o : Nat) : Prop := eventReg o ∨ o = Reg.CAL_STATm m

theorem calHalt_only (d : Dev) (m step : Nat) : only [.regs, .hif, .acq, .snt] (haltReg m) d (d.calHalt m step) := by
  unfold Dev.calHalt
  extract_lets d1
  have noted : only [.regs, .hif, .acq, .snt] (haltReg m) d d1 := only_wider (updFeMod_only _ _ _ _) (by simp)
  refine only_ite noted (only_trans noted (only_trans (only_mono (by simp) ?_ (setFld_only _ (Fld.CAL_STATm_HALT m) 1))
    (only_mono (by simp) (fun _ => .inl) (event_only _ _ _ _ _ _))))
  rintro _ rfl
  exact .inr rfl

/-- What S becomes at the end of a turn: its new reference values, unless they fail the limits or the reference steps had failed. -/
def Dev.takeRefS (d : Dev) (m : Nat) (t : TurnSt) : Dev :=
  let v := d.refVals m ((d.feMod m).adc 12)
  let d1 := d.updFeMod m (fun x => x.acRef false)
  if t.refBad then d1
  else if d1.refRefused v ((d.feMod m).adc 12).ref then d1.calHalt m 14
  else d1.updFeMod m (fun x => x.modAdc 12 (fun y => { y with vals := v, ref := some v, acceptedAt := d.up }))

theorem finishS_eq (d : Dev) (m : Nat) (t : TurnSt) : d.finishS m t = ((d.takeRefS m t).count64 Reg.CAL_TURNS_LO).endTurn m := rfl

theorem takeRefS_only (d : Dev) (m : Nat) (t : TurnSt) : only [.regs, .hif, .acq, .snt] (haltReg m) d (d.takeRefS m t) := by
  unfold Dev.takeRefS
  extract_lets v d1
  have off : only [.regs, .hif, .acq, .snt] (haltReg m) d d1 := only_wider (updFeMod_only _ _ _ _) (by simp)
  exact only_ite off (only_ite (only_trans off (calHalt_only _ _ _)) (only_trans off (only_wider (updFeMod_only _ _ _ _) (by simp))))

/-- The counter of turns is none of the registers of a halt or of a turn's end. -/
theorem calTurns_apart {m o : Nat} (hm : m < 4) (ho : o = Reg.CAL_TURNS_LO ∨ o = Reg.CAL_TURNS_LO + 4) :
    ¬ haltReg m o ∧ o ≠ Reg.CAL_STATm m := by
  simp only [Reg.CAL_TURNS_LO] at ho
  have stat : o ≠ Reg.CAL_STATm m := by
    simp only [Reg.CAL_STATm]
    omega
  exact ⟨fun h => h.elim (not_eventReg (by omega)) stat, stat⟩

/-- The last step ends the turn and counts it. -/
theorem finishS_effect (hm : m < 4) :
    only [.regs, .hif, .acq, .snt] (fun o => eventReg o ∨ o ∈ [Reg.CAL_STATm m, Reg.CAL_TURNS_LO, Reg.CAL_TURNS_HI]) d (d.finishS m t)
      ∧ ((d.finishS m t).feMod m).turn = none ∧ (d.finishS m t).reg64 Reg.CAL_TURNS_LO = (d.reg64 Reg.CAL_TURNS_LO + 1) % 2 ^ 64 := by
  rw [finishS_eq]
  have taken := takeRefS_only d m t
  generalize d.takeRefS m t = x at taken ⊢
  have ended := endTurn_only (x.count64 Reg.CAL_TURNS_LO) m
  obtain ⟨lo, lo'⟩ := calTurns_apart hm (.inl rfl)
  obtain ⟨hi, hi'⟩ := calTurns_apart hm (.inr rfl)
  refine ⟨?_, turn_endTurn _ m, ?_⟩
  · refine only_trans (only_mono (fun _ h => h) ?_ taken) (only_trans (only_mono (by simp) ?_ (count64_only x Reg.CAL_TURNS_LO 1))
      (only_mono (by simp) ?_ ended))
    · rintro _ (h | rfl)
      · exact .inl h
      · exact .inr List.mem_cons_self
    · rintro _ (rfl | rfl)
      · exact .inr (by simp)
      · exact .inr (by simp [Reg.CAL_TURNS_LO, Reg.CAL_TURNS_HI])
    · rintro _ rfl
      exact .inr List.mem_cons_self
  · rw [only_reg64 ended lo' hi', reg64_count64_same, only_reg64 taken lo hi]

theorem turnStep_last_effect (hm : m < 4) (h : t.step = 26) :
    only [.regs, .hif, .acq, .snt] (fun o => eventReg o ∨ o ∈ [Reg.CAL_STATm m, Reg.CAL_TURNS_LO, Reg.CAL_TURNS_HI]) d (d.turnStep m t)
      ∧ ((d.turnStep m t).feMod m).turn = none ∧ (d.turnStep m t).reg64 Reg.CAL_TURNS_LO = (d.reg64 Reg.CAL_TURNS_LO + 1) % 2 ^ 64 := by
  rw [turnStep_last h]
  have stepped := turnStepped_only (d := d) (m := m) (t := t) (fun _ => False)
  obtain ⟨frame, turn, counted⟩ := finishS_effect (d := d.turnStepped m t) (t := t) hm
  exact ⟨only_trans (only_mono (by simp) (fun _ => False.elim) stepped) frame, turn, counted.trans (by rw [only_reg64 stepped id id])⟩

end Step

/-! ## The end of a correction ramp (R240) -/

theorem adc_modAdc_same {s : FeModSt} {a : Nat} (h : a < s.adcs.length) (f : AdcSt → AdcSt) : (s.modAdc a f).adc a = f (s.adc a) := by
  simp [FeModSt.adc, FeModSt.modAdc, getElem?_modifyAt_same, List.getElem?_eq_getElem h]

/-- An ADC with a ramp is there. -/
theorem lt_adcs_of_ramp {s : FeModSt} {a : Nat} {r : Nat × CalVals × CalVals} (h : (s.adc a).ramp = some r) : a < s.adcs.length := by
  by_contra hle
  rw [FeModSt.adc, List.getElem?_eq_none (not_lt.mp hle)] at h
  cases h

/-- The module after reset has no ramp. -/
theorem ramp_adc_reset (a : Nat) : (({} : FeModSt).adc a).ramp = none := by
  simp only [FeModSt.adc, List.getElem?_replicate]
  split <;> rfl

/-- The ADC takes the end values of its ramp. -/
def Dev.rampDone (d : Dev) (m a : Nat) (hi : CalVals) : Dev :=
  d.updFeMod m (fun x => x.modAdc a (fun y => { y with vals := hi, ramp := none }))

theorem adc_rampDone {d : Dev} {m a : Nat} {r : Nat × CalVals × CalVals} (h : ((d.feMod m).adc a).ramp = some r) (hi : CalVals) :
    ((d.rampDone m a hi).feMod m).adc a = { (d.feMod m).adc a with vals := hi, ramp := none } := by
  have there : m < d.acq.mods.length := lt_mods_of_feMod fun e => by rw [e, ramp_adc_reset] at h; cases h
  rw [Dev.rampDone, feMod_updFeMod_same there, adc_modAdc_same (lt_adcs_of_ramp h)]

/-! ## The rows -/

theorem exec_calTurnStart (s : State) (dt m : Nat) :
    exec (.calTurnStart dt m) s = s.run dt (fun _ d => if m < 4 then d.turnStart m else d) := rfl

/-- The row of a step of a turn on the device. -/
def Dev.calTurnRow (d : Dev) (m : Nat) : Dev :=
  match (d.feMod m).turn with
  | none => d
  | some t =>
    match turnTimes[t.step]? with
    | none => d
    | some ms => if t.at_ + (ms + 201 * t.repeats) * 1000000 ≤ d.up then d.turnStep m t else d

theorem exec_calTurnStep (s : State) (dt m : Nat) : exec (.calTurnStep dt m) s = s.run dt (fun _ d => d.calTurnRow m) := rfl

theorem calTurnRow_due {d : Dev} {m ms : Nat} {t : TurnSt} (hturn : (d.feMod m).turn = some t) (hms : turnTimes[t.step]? = some ms)
    (hdue : t.at_ + (ms + 201 * t.repeats) * 1000000 ≤ d.up) : d.calTurnRow m = d.turnStep m t := by
  simp only [Dev.calTurnRow, hturn, hms, if_pos hdue]

/-- The row of the end of a ramp on the device. -/
def Dev.calRampRow (d : Dev) (m a : Nat) : Dev :=
  match ((d.feMod m).adc a).ramp with
  | none => d
  | some (k0, _, hi) => if k0 + 256000 ≤ d.nowTick then d.rampDone m a hi else d

theorem exec_calRampEnd (s : State) (dt m a : Nat) : exec (.calRampEnd dt m a) s = s.run dt (fun _ d => d.calRampRow m a) := rfl

theorem calRampRow_due {d : Dev} {m a k0 : Nat} {lo hi : CalVals} (hramp : ((d.feMod m).adc a).ramp = some (k0, lo, hi))
    (hdue : k0 + 256000 ≤ d.nowTick) : d.calRampRow m a = d.rampDone m a hi := by
  simp only [Dev.calRampRow, hramp, if_pos hdue]

/-- Settles O8: what the rows make of the module whose turn or ramp they concern. -/
theorem calibrationTurnsRun : Obligations.CalibrationTurnsRun := by
  unfold Obligations.CalibrationTurnsRun
  refine ⟨?_, ?_, ?_, ?_, ?_, ?_⟩
  · rintro s dt m at_ i d rfl ⟨hm, hmeas, hrot⟩ ⟨hturnAt, hat⟩ hidle hhalt hi
    obtain ⟨frame, turned⟩ := turnStart_effect hmeas hrot hturnAt hat hidle hhalt hi
    rw [exec_calTurnStart]
    exact exists_run_moves (if_pos hm) frame turned
  · rintro s dt m at_ d rfl ⟨hm, hmeas, hrot⟩ ⟨hturnAt, hat⟩ hruns
    obtain ⟨frame, skipped⟩ := turnStart_skip_effect hmeas hrot hturnAt hat hruns
    rw [exec_calTurnStart]
    exact exists_run_moves (if_pos hm) frame skipped
  · rintro s dt m ms tn d rfl hturn hms hdue
    exact congrArg (fun x => (.next { s with dev := x } : Answer)) (calTurnRow_due hturn hms hdue)
  · rintro s dt m tn d rfl ⟨hm, hturn, hstep⟩ hdue
    obtain ⟨frame, opened⟩ := turnStep_first_effect hturn hstep
    rw [exec_calTurnStep]
    exact exists_run_moves (calTurnRow_due hturn (by rw [hstep]; rfl) hdue) frame opened
  · rintro s dt m tn d rfl ⟨hm, hturn, hstep⟩ hdue
    obtain ⟨frame, ended⟩ := turnStep_last_effect hm hstep
    rw [exec_calTurnStep]
    exact exists_run_moves (calTurnRow_due hturn (by rw [hstep]; rfl) hdue) frame ended
  · rintro s dt m a k0 lo hi d rfl hramp hdue
    have done := adc_rampDone hramp hi
    rw [exec_calRampEnd]
    exact exists_run_moves (calRampRow_due hramp hdue) (updFeMod_only _ _ _ _) ⟨congrArg AdcSt.vals done, congrArg AdcSt.ramp done⟩

end Sys2Proof.Machine
end

section
/-! Proofs' layer of Geyser: triggers read after they change, what closing a block of the stream moves, and the queue of stream records
(R257 to R269). -/

namespace Sys2Proof

theorem Tbl.getD_update_same {α : Type} (t : Tbl α) (k : Nat) (v : α) (f : α → α) : (t.update k v f).getD k v = f (t.getD k v) := by
  simp [Tbl.update, Tbl.getD]

theorem Tbl.getD_update_other {α : Type} (t : Tbl α) {k i : Nat} (v : α) (f : α → α) (h : i ≠ k) :
    (t.update k v f).getD i v = t.getD i v := by
  simp [Tbl.update, Tbl.getD, Tbl.find_put_other _ _ h]

end Sys2Proof

namespace Sys2Proof.Machine

open Sys2Proof

/-! ## Triggers read after they change -/

@[simp] theorem trig_modTrig_same (d : Dev) (n : Nat) (f : TrigSt → TrigSt) :
    (d.modTrig n f).gey.trigs.getD n {} = f (d.gey.trigs.getD n {}) := Tbl.getD_update_same _ _ _ _

theorem trig_modTrig_other (d : Dev) {n i : Nat} (f : TrigSt → TrigSt) (h : i ≠ n) :
    (d.modTrig n f).gey.trigs.getD i {} = d.gey.trigs.getD i {} := Tbl.getD_update_other _ _ _ h

/-- What misses leave of a trigger: all but their counts. -/
theorem trig_trigMissed (d : Dev) (i n : Nat) : ∃ a b,
    (d.trigMissed i).gey.trigs.getD n {} = { d.gey.trigs.getD n {} with missed := a, missedTotal := b } := by
  have counted : (d.trigMissed i).gey = (d.modTrig i (fun t => { t with missed := t.missed + 1, missedTotal := t.missedTotal + 1 })).gey := rfl
  rw [counted]
  by_cases h : n = i
  · subst h
    exact ⟨_, _, trig_modTrig_same _ _ _⟩
  · exact ⟨_, _, trig_modTrig_other _ _ h⟩

theorem trig_queueMark (d : Dev) (m : Mark) (n : Nat) : ∃ a b,
    (d.queueMark m).gey.trigs.getD n {} = { d.gey.trigs.getD n {} with missed := a, missedTotal := b } := by
  unfold Dev.queueMark
  extract_lets q lost
  split
  · exact ⟨_, _, rfl⟩
  · exact trig_trigMissed _ _ _

/-- What a mark leaves of its trigger: all but the dead time and the misses that went with it. -/
theorem trig_writeMark (d : Dev) (k n cause vec : Nat) (at_ : Nat × Nat × Bool) : ∃ a b,
    (d.writeMark k n cause vec at_).gey.trigs.getD n {} = { d.gey.trigs.getD n {} with deadTicks := 0, missed := a, missedTotal := b } := by
  unfold Dev.writeMark
  extract_lets r
  obtain ⟨a, b, queued⟩ := trig_queueMark (d.modTrig n (fun _ => r.1)) r.2 n
  exact ⟨a, b, by rw [queued, trig_modTrig_same]; rfl⟩

theorem blindIn_fires (t : TrigSt) (k : Nat) : (t.blindIn k).fires = t.fires := by
  unfold TrigSt.blindIn
  split <;> rfl

/-- A trigger that fires counts it. -/
theorem fires_trigFire (d : Dev) (k n cause vec : Nat) (e : TrigEntry) (at_ : Nat × Nat × Bool) :
    ((d.trigFire k n cause vec e at_).gey.trigs.getD n {}).fires = ((d.gey.trigs.getD n {}).fires + 1) % 2 ^ 32 := by
  unfold Dev.trigFire
  extract_lets d1
  have fired : (d1.gey.trigs.getD n {}).fires = ((d.gey.trigs.getD n {}).fires + 1) % 2 ^ 32 := by
    obtain ⟨a, b, marked⟩ := trig_writeMark
      (d.modTrig n (fun t => { t with fires := (t.fires + 1) % 2 ^ 32, lastFire := some k, firedHigh := true })) k n cause vec at_
    rw [marked, trig_modTrig_same]
  split
  · exact fired
  · rw [trig_modTrig_same]
    exact (blindIn_fires _ _).trans fired

/-! ## Closing the blocks of the stream (R263 to R268) -/

/-- The registers of Geyser that its stream moves. -/
def streamRegs : List Nat := [Reg.GEY_STATUS, Reg.GEY_RECORDS_LO, Reg.GEY_RECORDS_HI, Reg.GEY_MARKS_LO, Reg.GEY_MARKS_HI,
  Reg.GEY_DROP_BLOCKS, Reg.GEY_MARK_LOST, Reg.GEY_MISSED]

/-- The registers that the stream of Geyser moves: its own, and those of messages and completions. -/
def streamReg (o : Nat) : Prop := signalReg o ∨ o ∈ streamRegs

/-- What opening and closing blocks of the stream can do: no part of the device moves but registers, the host interface and Geyser, no
register but those of the stream; every ring keeps its STATE, and the last tick stays. -/
structure StreamStep (d t : Dev) : Prop where
  frame : only [.regs, .hif, .gey] streamReg d t
  states : ∀ m < 32, t.fld (Fld.HIF_RINGn_STAT_STATE m) = d.fld (Fld.HIF_RINGn_STAT_STATE m)
  tick : t.gey.tick = d.gey.tick

theorem only_gey {l : List Part} {p : Nat → Prop} {d t : Dev} (h : only l p d t) (hn : Part.gey ∉ l) : t.gey = d.gey := by
  obtain ⟨-, -, -, -, -, -, -, -, gey, -⟩ := h.1; exact gey hn

theorem modGey_only (d : Dev) (f : GeySt → GeySt) (p : Nat → Prop) : only [.gey] p d (d.modGey f) :=
  only_of_kept (by simp [keptBut, Dev.modGey]) rfl

theorem streamStep_refl (d : Dev) : StreamStep d d := ⟨only_refl _ _ _, fun _ _ => rfl, rfl⟩

theorem streamStep_trans {a b c : Dev} (h : StreamStep a b) (k : StreamStep b c) : StreamStep a c :=
  ⟨only_trans h.frame k.frame, fun m hm => (k.states m hm).trans (h.states m hm), k.tick.trans h.tick⟩

theorem streamStep_ite {c : Prop} [Decidable c] {d a b : Dev} (h : StreamStep d a) (k : StreamStep d b) : StreamStep d (if c then a else b) := by
  split
  · exact h
  · exact k

theorem streamStep_modGey {d : Dev} {f : GeySt → GeySt} (h : (f d.gey).tick = d.gey.tick) : StreamStep d (d.modGey f) :=
  ⟨only_wider (modGey_only _ _ _) (by simp), fun m _ => statesKept_of_regs rfl m, h⟩

theorem streamStep_setRingQ (d : Dev) (kind : Nat) (q : List RingRec) : StreamStep d (d.setRingQ kind q) := by
  have frame := setRingQ_hif d kind q streamReg
  exact ⟨only_wider frame (by simp), fun m _ => statesKept_of_regs (setRingQ_regs _ _ _) m, by rw [only_gey frame (by simp)]⟩

/-- The stream's own registers lie in the region of Geyser. -/
theorem le_of_streamRegs {o : Nat} (ho : o ∈ streamRegs) : 0x0B0000 ≤ o := by
  simp only [streamRegs, List.mem_cons, List.not_mem_nil, or_false] at ho
  rcases ho with rfl | rfl | rfl | rfl | rfl | rfl | rfl | rfl <;> decide

theorem stat_ne_of_streamRegs {o m : Nat} (ho : o ∈ streamRegs) (hm : m < 32) : Reg.HIF_RINGn_STAT m ≠ o := by
  have high := le_of_streamRegs ho
  simp only [Reg.HIF_RINGn_STAT]
  omega

/-- CFG of a ring is no register that the stream moves. -/
theorem not_streamReg_cfg {n : Nat} (hn : n < 32) : ¬ streamReg (Reg.HIF_RINGn_CFG n) := by
  rintro (signal | own)
  · simp only [signalReg, Reg.HIF_RINGn_CFG, Reg.HIF_RINGn_DONE, Reg.HIF_RINGn_STAT] at signal
    omega
  · have high := le_of_streamRegs own
    simp only [Reg.HIF_RINGn_CFG] at high
    omega

theorem not_streamReg {o : Nat} (h : o < 0x021014 ∨ 0x031004 < o) (hs : o ∉ streamRegs) : ¬ streamReg o :=
  fun k => k.elim (not_signalReg h) hs

theorem streamStep_setReg (d : Dev) {o : Nat} (w : Word) (ho : o ∈ streamRegs) : StreamStep d (d.setReg o w) where
  frame := only_mono (by simp) (by rintro _ rfl; exact .inr ho) (only_setReg d o w)
  states m hm := only_fld (only_setReg d o w) (stat_ne_of_streamRegs ho hm)
  tick := rfl

theorem streamStep_count64 (d : Dev) {lo : Nat} (n : Nat) (hlo : lo ∈ streamRegs) (hhi : lo + 4 ∈ streamRegs) :
    StreamStep d (d.count64 lo n) := streamStep_trans (streamStep_setReg d _ hlo) (streamStep_setReg _ _ hhi)

theorem streamStep_streamWrite (d : Dev) (type : Nat) (suspect : Bool) (body : Bytes) (groupEnd : Bool) :
    StreamStep d (d.streamWrite type suspect body groupEnd) := by
  unfold Dev.streamWrite
  extract_lets b
  exact streamStep_trans (streamStep_setRingQ _ _ _)
    (streamStep_trans (streamStep_modGey rfl) (streamStep_count64 _ _ (by decide) (by decide)))

theorem streamStep_trigMissed (d : Dev) (n : Nat) : StreamStep d (d.trigMissed n) :=
  streamStep_trans (b := d.modTrig n (fun t => { t with missed := t.missed + 1, missedTotal := t.missedTotal + 1 }))
    (streamStep_modGey rfl) (streamStep_setReg _ _ (by decide))

theorem streamStep_writeGaps (d : Dev) : StreamStep d d.writeGaps :=
  foldl_keeps_of_mem streamStep_refl streamStep_trans
    (fun _ _ _ => streamStep_ite (streamStep_trans (streamStep_streamWrite _ _ _ _ _) (streamStep_modGey rfl)) (streamStep_refl _)) d

/-- The record group that ends moves its queue, or completes the buffer in use of its ring. -/
theorem streamStep_endGroupOf (d : Dev) (kind : Nat) : StreamStep d (d.endGroupOf kind) := by
  unfold Dev.endGroupOf
  split
  · exact streamStep_setRingQ _ _ _
  · split
    · rename_i n serves
      have frame := endGroup_only (ringOf_lt serves) d d.hostReady
      exact ⟨only_mono (by simp) (fun _ => .inl) frame, fun m _ => statesKept_endGroup d n d.hostReady m, by rw [only_gey frame (by simp)]⟩
    · exact streamStep_refl _

theorem streamStep_writeMarks (d : Dev) (upTo : Nat) : StreamStep d (d.writeMarks upTo) := by
  unfold Dev.writeMarks
  extract_lets mine d0 d1
  have written : StreamStep d d1 := by
    refine streamStep_trans (b := d0) (streamStep_modGey rfl) (foldl_keeps_of_mem streamStep_refl streamStep_trans (fun x m _ => ?_) d0)
    exact streamStep_ite
      (streamStep_trans (streamStep_streamWrite _ _ _ _ _) (streamStep_count64 _ _ (by decide) (by decide)))
      (streamStep_trans (streamStep_setReg _ _ (by decide)) (streamStep_trigMissed _ _))
  exact streamStep_ite written (streamStep_trans written (streamStep_endGroupOf _ _))

theorem streamStep_closeData (d : Dev) (b : BlockSt) (ticks : Nat) : StreamStep d (d.closeData b ticks) := by
  unfold Dev.closeData
  extract_lets upTo hasMarks d0 body
  have accounted : StreamStep d d0 := streamStep_trans (b := d.accountTo b.from_) (streamStep_modGey rfl) (streamStep_modGey rfl)
  refine streamStep_ite (streamStep_trans accounted (streamStep_ite ?_ ?_)) (streamStep_refl _)
  · exact streamStep_trans (streamStep_writeGaps _) (streamStep_trans (streamStep_streamWrite _ _ _ _ _) (streamStep_setReg _ _ (by decide)))
  · exact streamStep_trans (streamStep_modGey rfl)
      (streamStep_trans (streamStep_setReg _ _ (by decide)) (streamStep_setReg _ _ (by decide)))

theorem streamStep_closeBlocks (k : Nat) (l : List BlockSt) (d : Dev) : StreamStep d (Dev.closeBlocks k l d) := by
  induction l generalizing d with
  | nil => exact streamStep_refl _
  | cons b l ih =>
    have closed : StreamStep d (d.closeBlock b (blockLen b.fine)) :=
      streamStep_trans (streamStep_closeData _ _ _) (streamStep_writeMarks _ _)
    exact streamStep_ite (streamStep_trans closed (streamStep_trans (streamStep_modGey rfl) (ih _))) (streamStep_refl _)

theorem streamStep_takeLayout (d : Dev) (k : Nat) : StreamStep d (d.takeLayout k) := by
  unfold Dev.takeLayout
  split
  · exact streamStep_ite (streamStep_trans (streamStep_setReg _ _ (by decide)) (streamStep_modGey rfl)) (streamStep_refl _)
  · exact streamStep_refl _

theorem streamStep_openBlock (d : Dev) (k : Nat) : StreamStep d (d.openBlock k) := by
  unfold Dev.openBlock
  extract_lets x fine start on
  have taken : StreamStep d x := streamStep_takeLayout d k
  exact streamStep_ite taken (streamStep_trans taken (streamStep_trans (streamStep_modGey rfl) (streamStep_setReg _ _ (by decide))))

theorem streamStep_noteSuspect (d : Dev) : StreamStep d d.noteSuspect :=
  streamStep_ite (streamStep_modGey rfl) (streamStep_refl _)

/-- The stream moves no ring's EN, KIND or STATE. -/
theorem ringOf_of_streamStep {d t : Dev} (h : StreamStep d t) (kind : Nat) : t.ringOf kind = d.ringOf kind := by
  have same : (fun n => t.runs n kind) = fun n => d.runs n kind := by
    funext n
    by_cases hn : n < 32
    · have en : t.bit (Fld.HIF_RINGn_CFG_EN n) = d.bit (Fld.HIF_RINGn_CFG_EN n) := only_bit h.frame (not_streamReg_cfg hn)
      have serves : t.fld (Fld.HIF_RINGn_CFG_KIND n) = d.fld (Fld.HIF_RINGn_CFG_KIND n) := only_fld h.frame (not_streamReg_cfg hn)
      simp only [Dev.runs, en, h.states n hn, serves]
    · simp [Dev.runs, hn]
  rw [Dev.ringOf, same, Dev.ringOf]

theorem streamRefused_of_streamStep {d t : Dev} (h : StreamStep d t) : t.streamRefused = d.streamRefused := by
  have reg {f : FieldAt} (hf : f.off < 0x021014 ∨ 0x031004 < f.off) (hs : f.off ∉ streamRegs) : t.fld f = d.fld f :=
    only_fld h.frame (not_streamReg hf hs)
  have ready : t.bit Fld.RST_STATUS_DDR_READY = d.bit Fld.RST_STATUS_DDR_READY := bit_of_fld (reg (by decide) (by decide))
  rw [Dev.streamRefused, Dev.ddrMib, Dev.layoutCrt, ringOf_of_streamStep h, ready, reg (f := Fld.RST_STATUS_DDR_GIB) (by decide) (by decide),
    reg (f := Fld.CRT_HIST_SIZE) (by decide) (by decide), reg (f := Fld.CRT_HIST_AMEND_SIZE) (by decide) (by decide),
    reg (f := Fld.GEY_CFG_BUF_SIZE) (by decide) (by decide)]
  rfl

/-! ## A tick (R248) -/

/-- The tick that is due passes. -/
theorem tick_geyserTick {d : Dev} {k : Nat} (h : d.tickDue = some k) : d.geyserTick.gey.tick = some k := by
  simp only [Dev.geyserTick, h]
  exact (streamStep_closeBlocks _ _ _).tick

theorem tickDue_of_geyDue {d : Dev} {k : Nat} (h : d.geyDue = some k) : d.tickDue = some k := by
  unfold Dev.geyDue at h
  split at h
  · exact h
  · cases h

/-- Where Geyser does not evaluate, a tick opens and closes blocks of the stream, around its own number. -/
theorem geyserTick_unevaluated {d : Dev} {k : Nat} (h : d.tickDue = some k) (hen : d.bit Fld.GEY_CTRL_EN = false) :
    ∃ x, StreamStep d x ∧ StreamStep (x.modGey (fun g => { g with tick := some k })) d.geyserTick := by
  refine ⟨(d.openBlock k).noteSuspect, streamStep_trans (streamStep_openBlock _ _) (streamStep_noteSuspect _), ?_⟩
  simp only [Dev.geyserTick, h, hen, Bool.false_eq_true, if_false]
  exact streamStep_closeBlocks _ _ _

/-! ## The queue of stream records (R269, R463) -/

theorem judgeSignal_trigQ (d : Dev) (n : Nat) (expired : Bool) : (d.judgeSignal n expired).hif.trigQ = d.hif.trigQ := by
  unfold Dev.judgeSignal
  extract_lets r modUs
  split
  · have sent : (d.sendMsix (d.fld (Fld.HIF_RINGn_CFG_VECTOR n))).hif.trigQ = d.hif.trigQ := by rw [sendMsix_hif]
    exact sent
  · rfl

theorem countDone_trigQ (d : Dev) (n : Nat) : (d.countDone n).hif.trigQ = d.hif.trigQ := by
  unfold Dev.countDone
  exact judgeSignal_trigQ _ _ _

theorem dropBad_trigQ (n : Nat) (l : List BufDesc) (d : Dev) : (Dev.dropBad n l d).hif.trigQ = d.hif.trigQ := by
  induction l generalizing d with
  | nil => rfl
  | cons b l ih =>
    simp only [Dev.dropBad]
    split
    · rfl
    · rw [ih, countDone_trigQ]
      rfl

theorem placeAll_length_le (n kind : Nat) (l : List RingRec) (d : Dev) : (Dev.placeAll n kind l d).2.length ≤ l.length := by
  induction l generalizing d with
  | nil => exact le_refl _
  | cons r l ih =>
    simp only [Dev.placeAll]
    generalize (if (d.ring n).rest.isSome = true then (d, false) else d.place n kind r) = placed
    split
    · exact (ih _).trans (Nat.le_succ _)
    · exact le_refl _

/-- A ring that is not in the midst of a record takes the one that it has room for. -/
theorem placeAll_placed {d x : Dev} {n kind : Nat} {r : RingRec} (hrest : (d.ring n).rest = none) (hplace : d.place n kind r = (x, true))
    (l : List RingRec) : (Dev.placeAll n kind (r :: l) d).2.length ≤ l.length := by
  simp only [Dev.placeAll, hrest, hplace, Option.isSome_none, Bool.false_eq_true, if_false, if_true]
  exact placeAll_length_le _ _ _ _

theorem continueRec_idle {d : Dev} {n : Nat} (h : (d.ring n).rest = none) (kind fuel : Nat) : Dev.continueRec n kind fuel d = d := by
  cases fuel with
  | zero => rfl
  | succ fuel => simp only [Dev.continueRec, h]

/-- Where the ring of stream records is not in the midst of one, the records that wait are placed. -/
theorem pump_trigQ {d : Dev} {n : Nat} (hring : d.ringOf 7 = some n) (hready : d.hostReady = true) (hrest : (d.ring n).rest = none) :
    (d.pump 7).hif.trigQ = (Dev.placeAll n 7 d.hif.trigQ d).2 := by
  simp only [Dev.pump, hring, hready, continueRec_idle hrest, if_true]
  split
  · exact dropBad_trigQ _ _ _
  · rfl

end Sys2Proof.Machine
end

section
/-! Proofs about a write of GEY_CTRL: the idle ticks that pass before it, and the bits that it sets (R270, R271, R274). -/

namespace Sys2Proof.Machine

open Sys2Proof

/-! ## The ticks before a write -/

/-- The device once the idle ticks before a write of GEY_CTRL have passed. -/
def Dev.idlePassed (d : Dev) : Dev := if d.geyIdle && d.gey.tick.isSome then d.geyserTick else d

theorem en_of_geyIdle {d : Dev} (h : d.geyIdle = true) : d.bit Fld.GEY_CTRL_EN = false := by
  simp only [Dev.geyIdle, Bool.and_eq_true, Bool.not_eq_true'] at h
  obtain ⟨⟨⟨en, -⟩, -⟩, -⟩ := h
  exact en

theorem geyserTick_notDue {d : Dev} (h : d.tickDue = none) : d.geyserTick = d := by simp only [Dev.geyserTick, h]

theorem streamRefused_modGey (d : Dev) (f : GeySt → GeySt) : (d.modGey f).streamRefused = d.streamRefused := rfl

/-- What idle ticks leave: GEY_CTRL, and what a start of the stream is judged by. -/
theorem idlePassed_keeps (d : Dev) :
    (∀ f : FieldAt, f.off = Reg.GEY_CTRL → d.idlePassed.bit f = d.bit f) ∧ d.idlePassed.streamRefused = d.streamRefused := by
  unfold Dev.idlePassed
  split
  · rename_i idle
    have off := en_of_geyIdle (Bool.and_eq_true_iff.mp idle).1
    cases due : d.tickDue with
    | none => rw [geyserTick_notDue due]; exact ⟨fun _ _ => rfl, rfl⟩
    | some k =>
      obtain ⟨x, opened, closed⟩ := geyserTick_unevaluated due off
      have apart : ¬ streamReg Reg.GEY_CTRL := not_streamReg (by decide) (by decide)
      refine ⟨fun f hf => ?_, (streamRefused_of_streamStep closed).trans ?_⟩
      · rw [← hf] at apart
        exact (only_bit closed.frame apart).trans (only_bit opened.frame apart)
      · exact (streamRefused_modGey x _).trans (streamRefused_of_streamStep opened)
  · exact ⟨fun _ _ => rfl, rfl⟩

theorem en_idlePassed (d : Dev) : d.idlePassed.bit Fld.GEY_CTRL_EN = d.bit Fld.GEY_CTRL_EN := (idlePassed_keeps d).1 _ rfl

theorem streamEn_idlePassed (d : Dev) : d.idlePassed.bit Fld.GEY_CTRL_STREAM_EN = d.bit Fld.GEY_CTRL_STREAM_EN :=
  (idlePassed_keeps d).1 _ rfl

theorem streamRefused_idlePassed (d : Dev) : d.idlePassed.streamRefused = d.streamRefused := (idlePassed_keeps d).2

/-! ## The write -/

section Write

variable {d : Dev} {v : Word}

/-- STREAM_EN after a write: what the word asks, unless a start is refused. -/
def Dev.streamAllowed (d : Dev) (v : Word) : Bool := v.toNat.testBit 1 && (d.bit Fld.GEY_CTRL_STREAM_EN || !d.streamRefused)

/-- The bits of GEY_CTRL and CFG_ERR that a write leaves, and the ticks of the stream that it notes. -/
def Dev.withGeyCtrl (d : Dev) (v : Word) : Dev :=
  let refuse := v.toNat.testBit 1 && !d.bit Fld.GEY_CTRL_STREAM_EN && d.streamRefused
  let ctrl := (d.setBit Fld.GEY_CTRL_EN (v.toNat.testBit 0)).setBit Fld.GEY_CTRL_STREAM_EN (v.toNat.testBit 1 && !refuse)
  (if refuse then ctrl.setBit Fld.GEY_STATUS_CFG_ERR true else ctrl).modGey (fun g => { g with
    streamFrom := if v.toNat.testBit 1 && !refuse && !d.bit Fld.GEY_CTRL_STREAM_EN then tickOf d.g16 else g.streamFrom
    streamTill := if d.bit Fld.GEY_CTRL_STREAM_EN && !v.toNat.testBit 1 then tickOf d.g16 else g.streamTill })

theorem writeGeyCtrl_open (hg : d.gatedAt Reg.GEY_CTRL = false) : writeGeyCtrl v d
    = if v.toNat.testBit 0 && !d.idlePassed.bit Fld.GEY_CTRL_EN then (d.idlePassed.withGeyCtrl v).startGeyser
      else if d.idlePassed.bit Fld.GEY_CTRL_EN && !v.toNat.testBit 0 then (d.idlePassed.withGeyCtrl v).setBit Fld.GEY_STATUS_RUNNING false
      else d.idlePassed.withGeyCtrl v := if_neg (by simp [hg])

/-- A write that sets EN starts the evaluation. -/
theorem writeGeyCtrl_starts (hg : d.gatedAt Reg.GEY_CTRL = false) (hon : v.toNat.testBit 0 = true) (hwas : d.bit Fld.GEY_CTRL_EN = false) :
    writeGeyCtrl v d = (d.idlePassed.withGeyCtrl v).startGeyser := by
  rw [writeGeyCtrl_open hg]
  exact if_pos (by rw [hon, en_idlePassed, hwas]; rfl)

/-- A write that leaves EN as it was sets STREAM_EN alone. -/
theorem writeGeyCtrl_same (hg : d.gatedAt Reg.GEY_CTRL = false) (hen : d.bit Fld.GEY_CTRL_EN = v.toNat.testBit 0) :
    writeGeyCtrl v d = d.idlePassed.withGeyCtrl v := by
  rw [writeGeyCtrl_open hg, en_idlePassed, hen]
  simp only [Bool.and_not_self, Bool.false_eq_true, if_false]

/-- What the word asks of STREAM_EN, less what is refused, is what is allowed. -/
theorem streamAllowed_eq (d : Dev) (v : Word) :
    (v.toNat.testBit 1 && !(v.toNat.testBit 1 && !d.bit Fld.GEY_CTRL_STREAM_EN && d.streamRefused)) = d.streamAllowed v := by
  rw [Dev.streamAllowed]
  cases v.toNat.testBit 1 <;> cases d.bit Fld.GEY_CTRL_STREAM_EN <;> rfl

/-- CFG_ERR and what a write notes of the stream leave GEY_CTRL. -/
theorem bit_withGeyCtrl (d : Dev) (v : Word) {f : FieldAt} (hf : f.off = Reg.GEY_CTRL) : (d.withGeyCtrl v).bit f
    = ((d.setBit Fld.GEY_CTRL_EN (v.toNat.testBit 0)).setBit Fld.GEY_CTRL_STREAM_EN (d.streamAllowed v)).bit f := by
  have apart : f.off ≠ Fld.GEY_STATUS_CFG_ERR.off := by rw [hf]; decide
  unfold Dev.withGeyCtrl
  extract_lets refuse ctrl
  have frame : only [.regs] (fun o => o = Fld.GEY_STATUS_CFG_ERR.off) ctrl
      (if refuse then ctrl.setBit Fld.GEY_STATUS_CFG_ERR true else ctrl) :=
    only_ite (setBit_only _ _ _) (only_refl _ _ _)
  refine (only_bit (modGey_only _ _ (fun _ => False)) id).trans ((only_bit frame apart).trans ?_)
  rw [← streamAllowed_eq]

theorem en_withGeyCtrl (d : Dev) (v : Word) : (d.withGeyCtrl v).bit Fld.GEY_CTRL_EN = v.toNat.testBit 0 := by
  rw [bit_withGeyCtrl d v rfl, bit_setBit_other _ (by decide) (by decide), Dev.bit_setBit_same _ _ _ (by decide) (by decide)]

theorem streamEn_withGeyCtrl (d : Dev) (v : Word) : (d.withGeyCtrl v).bit Fld.GEY_CTRL_STREAM_EN = d.streamAllowed v := by
  rw [bit_withGeyCtrl d v rfl, Dev.bit_setBit_same _ _ _ (by decide) (by decide)]

/-- A write that leaves EN as it was gives STREAM_EN what is allowed. -/
theorem streamEn_writeGeyCtrl (hg : d.gatedAt Reg.GEY_CTRL = false) (hen : d.bit Fld.GEY_CTRL_EN = v.toNat.testBit 0) :
    (writeGeyCtrl v d).bit Fld.GEY_CTRL_STREAM_EN = d.streamAllowed v := by
  rw [writeGeyCtrl_same hg hen, streamEn_withGeyCtrl, Dev.streamAllowed, streamEn_idlePassed, streamRefused_idlePassed, Dev.streamAllowed]

/-- A start sets RUNNING, beside the detectors' outputs. -/
theorem running_startGeyser (d : Dev) : d.startGeyser.bit Fld.GEY_STATUS_RUNNING = true :=
  (only_bit (modGey_only _ _ (fun _ => False)) id).trans (Dev.bit_setBit_same _ _ _ (by decide) (by decide))

theorem en_startGeyser (d : Dev) : d.startGeyser.bit Fld.GEY_CTRL_EN = d.bit Fld.GEY_CTRL_EN := by
  unfold Dev.startGeyser
  rw [only_bit (modGey_only _ _ (fun _ => False)) id, only_bit (setBit_only _ _ _) (by decide), only_bit (setReg64_only _ _ _) (by decide),
    only_bit (setReg64_only _ _ _) (by decide)]

/-- A write that sets EN starts Geyser. -/
theorem writeGeyCtrl_enables (hg : d.gatedAt Reg.GEY_CTRL = false) (hon : v.toNat.testBit 0 = true) (hwas : d.bit Fld.GEY_CTRL_EN = false) :
    (writeGeyCtrl v d).bit Fld.GEY_CTRL_EN = true ∧ (writeGeyCtrl v d).bit Fld.GEY_STATUS_RUNNING = true := by
  rw [writeGeyCtrl_starts hg hon hwas]
  exact ⟨(en_startGeyser _).trans ((en_withGeyCtrl _ v).trans hon), running_startGeyser _⟩

end Write

end Sys2Proof.Machine
end

section
/-! The statement that the rows of Geyser's own events complete with their effect (R248, R251, R253, R254, R259 to R261, R263, R268, R274). -/

namespace Sys2Proof.Machine

open Sys2Proof

/-! ## Detectors -/

theorem lcFrozen_lcUnfreeze {d : Dev} {k j : Nat} {e : LcEntry} (hent : (d.lc j).ent = some e) (hfrozen : d.lcFrozen j = true)
    (hcalm : (d.lc j).changes.headD 0 + e.chatWin * 256 ≤ k) (hmeas : d.measuring (e.ch / 12) = true) :
    (d.lcUnfreeze k j).lcFrozen j = false := by
  have thaws : d.lcUnfreeze k j = ((d.setLcFrozen j false).setLcBit j (d.lc j).under).calmTriggers j := by
    simp only [Dev.lcUnfreeze, hent, hfrozen, hmeas, decide_eq_true hcalm, Bool.and_self, if_true]
  have chat : (d.lcUnfreeze k j).reg64 Reg.GEY_CHAT_LO = putBit (d.reg64 Reg.GEY_CHAT_LO) j false % 2 ^ 64 := by
    rw [thaws]
    exact (only_reg64 (setReg64_only _ Reg.GEY_LC_LO _) (by decide) (by decide)).trans (reg64_setReg64_same _ _ _)
  rw [Dev.lcFrozen, chat, Nat.testBit_mod_two_pow, testBit_putBit, if_pos rfl, Bool.and_false]

/-- The row of the end of a detector's hold on the device. -/
def Dev.holdExpireRow (d : Dev) (j : Nat) : Dev :=
  match d.geyDue, (d.lc j).ent with
  | some k, some e => if decide (0 < e.hold) && (d.lc j).under && !((d.lcTick k j).lc j).under then d.lcTick k j else d
  | _, _ => d

theorem exec_detectorHoldExpire (s : State) (dt j : Nat) : exec (.detectorHoldExpire dt j) s = s.run dt (fun _ d => d.holdExpireRow j) := rfl

theorem holdExpireRow_clears {d : Dev} {k j : Nat} {e : LcEntry} (hdue : d.geyDue = some k) (hent : (d.lc j).ent = some e)
    (hhold : 0 < e.hold) (hunder : (d.lc j).under = true) (hclear : ((d.lcTick k j).lc j).under = false) :
    d.holdExpireRow j = d.lcTick k j := by
  simp only [Dev.holdExpireRow, hdue, hent, hunder, hclear, decide_eq_true hhold, Bool.not_false, Bool.and_self, if_true]

/-- A row of Geyser's evaluation on the device: it acts in the tick that is due. -/
def Dev.inDueTick (d : Dev) (f : Nat → Dev) : Dev := match d.geyDue with | some k => f k | none => d

theorem inDueTick_due {d : Dev} {k : Nat} (h : d.geyDue = some k) (f : Nat → Dev) : d.inDueTick f = f k := by simp only [Dev.inDueTick, h]

theorem exec_detectorUnfreeze (s : State) (dt j : Nat) :
    exec (.detectorUnfreeze dt j) s = s.run dt (fun _ d => d.inDueTick (fun k => d.lcUnfreeze k j)) := rfl

theorem exec_triggerRepeat (s : State) (dt n : Nat) : exec (.triggerRepeat dt n) s
    = s.run dt (fun _ d => d.inDueTick (fun k => d.trigRepeat k n (d.allDetectors k).geyVector)) := rfl

theorem exec_holdoffExpire (s : State) (dt n : Nat) :
    exec (.holdoffExpire dt n) s = s.run dt (fun _ d => d.inDueTick (fun k => d.holdExpire k n)) := rfl

theorem exec_triggerStuck (s : State) (dt n : Nat) : exec (.triggerStuck dt n) s
    = s.run dt (fun _ d => d.inDueTick (fun k => d.trigStuck k n (d.allDetectors k).geyVector)) := rfl

/-! ## Triggers -/

/-- A trigger whose repeat is due, with its match still 1, fires. -/
theorem trigRepeat_due {d : Dev} {k n vec : Nat} {e : TrigEntry} (hent : (d.gey.trigs.getD n {}).ent = some e) (hmatch : e.matches vec = true)
    (hdue : (d.gey.trigs.getD n {}).repeatDue e k = true) : d.trigRepeat k n vec = d.trigFire k n 1 vec e (tickMark k) := by
  simp only [Dev.trigRepeat, hent, hmatch, hdue, Bool.and_self, if_true]

theorem holdUntil_holdExpire {d : Dev} {k n u : Nat} (hhold : (d.gey.trigs.getD n {}).holdUntil = some u) (hu : u ≤ k) :
    (d.holdExpire k n).gey.trigs.getD n {} = { d.gey.trigs.getD n {} with holdUntil := none } := by
  rw [Dev.holdExpire, trig_modTrig_same]
  exact if_pos (by rw [hhold]; exact decide_eq_true hu)

/-- A trigger whose match has stayed 1 for STUCK_S seconds is marked. -/
theorem stuck_trigStuck {d : Dev} {k n vec : Nat} {e : TrigEntry} (hent : (d.gey.trigs.getD n {}).ent = some e) (hs : e.stuckS ≠ 0)
    (hmatch : e.matches vec = true) (hhigh : (d.gey.trigs.getD n {}).high = true) (hfree : (d.gey.trigs.getD n {}).stuck = false)
    (hsince : (d.gey.trigs.getD n {}).since + e.stuckS * 256000 ≤ k) : ((d.trigStuck k n vec).gey.trigs.getD n {}).stuck = true := by
  have marks : d.trigStuck k n vec
      = ((d.modTrig n (fun x => { x with stuck := true })).count Reg.GEY_STUCK).writeMark k n 2 vec (tickMark k) := by
    simp only [Dev.trigStuck, hent, hmatch, hhigh, hfree, decide_eq_true hs, decide_eq_true hsince, Bool.not_false, Bool.and_self, if_true]
  obtain ⟨a, b, marked⟩ := trig_writeMark ((d.modTrig n (fun x => { x with stuck := true })).count Reg.GEY_STUCK) k n 2 vec (tickMark k)
  rw [marks, marked, Dev.count_gey, trig_modTrig_same]

/-! ## The rows -/

theorem exec_geyserTick (s : State) (dt : Nat) : exec (.geyserTick dt) s = s.run dt (fun _ d => d.geyserTick) := rfl

theorem exec_geyEnable (s : State) (v : Word) :
    exec (.geyEnable v) s = s.run 0 (fun _ d => if v.toNat.testBit 0 then writeGeyCtrl v d else d) := rfl

theorem exec_geyStreamEnable (s : State) (v : Word) : exec (.geyStreamEnable v) s = s.run 0 (fun _ d => writeGeyCtrl v d) := rfl

theorem exec_streamRecordDeliver (s : State) (dt : Nat) : exec (.streamRecordDeliver dt) s = s.run dt (fun _ d => d.pump 7) := rfl

/-- Settles O55: each row by what it does to a detector, a trigger, the stream or GEY_CTRL. -/
theorem geyserRowsComplete : Obligations.GeyserRowsComplete := by
  unfold Obligations.GeyserRowsComplete
  refine ⟨?_, ?_, ?_, ?_, ?_, ?_, ?_, ?_, ?_⟩
  · rintro s dt k d rfl hdue
    rw [exec_geyserTick]
    exact exists_run_row rfl (tick_geyserTick (tickDue_of_geyDue hdue))
  · rintro s dt k j d e rfl hdue ⟨hent, hhold⟩ hunder hclear
    rw [exec_detectorHoldExpire]
    exact exists_run_row (holdExpireRow_clears hdue hent hhold hunder hclear) hclear
  · rintro s dt k j d e rfl - hdue ⟨hent, hfrozen⟩ hcalm hmeas
    rw [exec_detectorUnfreeze]
    exact exists_run_row (inDueTick_due hdue _) (lcFrozen_lcUnfreeze hent hfrozen hcalm hmeas)
  · rintro s dt k n d e rfl hdue hent hmatch hrepeat
    rw [exec_triggerRepeat]
    exact exists_run_row ((inDueTick_due hdue _).trans (trigRepeat_due hent hmatch hrepeat)) (fires_trigFire _ _ _ _ _ _ _)
  · rintro s dt k n u d rfl hdue ⟨hhold, hu⟩
    rw [exec_holdoffExpire]
    exact exists_run_row (inDueTick_due hdue _) (holdUntil_holdExpire hhold hu)
  · rintro s dt k n d e rfl hdue ⟨hent, hs⟩ hmatch ⟨hhigh, hfree⟩ hsince
    rw [exec_triggerStuck]
    exact exists_run_row (inDueTick_due hdue _) (stuck_trigStuck hent hs hmatch hhigh hfree hsince)
  · rintro s dt n d x r rest rfl ⟨hring, hready, hrest⟩ hq hplace
    rw [exec_streamRecordDeliver]
    refine exists_run_row rfl ?_
    rw [pump_trigQ hring hready hrest, hq]
    exact placeAll_placed hrest hplace rest
  · rintro s v d rfl ⟨hon, hwas⟩ hg
    rw [exec_geyEnable]
    exact exists_run_row (if_pos hon) (writeGeyCtrl_enables hg hon hwas)
  · rintro s v d rfl hen hg
    rw [exec_geyStreamEnable]
    exact exists_run_row rfl (streamEn_writeGeyCtrl hg hen)

end Sys2Proof.Machine
end

section
/-! The statement about the commands of Geyser (O10): the checks of each decide between its effect and S_RANGE (R250, R255, R258, R260,
R270, R273). -/

namespace Sys2Proof.Machine

open Sys2Proof

section Commands

variable {d : Dev} {first count rate mask n : Nat} {images : Bytes}

theorem geyLcSet_fits (hc : 1 ≤ count ∧ first + count ≤ 64) (hresv : (imagesOf 16 count images).any (resvSet lcResv) = false)
    (hfit : (imagesOf 16 count images).any (fun b => !(lcFields b).fits) = false) :
    geyLcSet first count images d = ((imagesOf 16 count images).zipIdx.foldl (fun x p => x.putLc first p) d, .ok) := by
  refine if_neg ?_
  simp only [hresv, hfit, Bool.false_eq_true, or_false]
  omega

theorem geyLcSet_refused (h : count = 0 ∨ 64 < first + count
      ∨ (imagesOf 16 count images).any (fun b => resvSet lcResv b || !(lcFields b).fits) = true) :
    geyLcSet first count images d = (d, .done sRange 0) := by
  refine if_pos (h.imp_right (Or.imp_right fun bad => ?_))
  obtain ⟨b, hb, faulty⟩ := List.any_eq_true.mp bad
  rcases (Bool.or_eq_true _ _).mp faulty with resv | unfit
  · exact .inl (List.any_eq_true.mpr ⟨b, hb, resv⟩)
  · exact .inr (List.any_eq_true.mpr ⟨b, hb, unfit⟩)

theorem geyTrigSet_fits (hc : 1 ≤ count ∧ first + count ≤ 256) (hbad : (imagesOf 72 count images).any trigBad = false) :
    geyTrigSet first count images d
      = (d.modGey (fun g => { g with trigs := (imagesOf 72 count images).zipIdx.foldl (putTrig first) g.trigs }), .ok) := by
  refine if_neg ?_
  simp only [hbad, Bool.false_eq_true, or_false]
  omega

theorem geyTrigSet_refused (h : count = 0 ∨ 256 < first + count ∨ (imagesOf 72 count images).any trigBad = true) :
    geyTrigSet first count images d = (d, .done sRange 0) := if_pos h

theorem geyStreamSet_fits (h : rate ≤ 1 ∧ 0 < mask ∧ mask < 2 ^ 48) : geyStreamSet rate mask d
    = (d.modGey (fun g => { g with newLayout := some (decide (rate = 1), mask, tickOf d.g16) }), .ok) := if_neg (by omega)

theorem geyStreamSet_refused (h : 1 < rate ∨ mask = 0 ∨ 2 ^ 48 ≤ mask) : geyStreamSet rate mask d = (d, .done sRange 0) := if_pos h

theorem geyFire_set (h : (d.gey.trigs.getD n {}).ent.isSome = true) :
    geyFire n d = (d.modTrig n (fun t => { t with soft := t.soft + 1 }), .ok) := if_pos h

theorem geyFire_unused (h : (d.gey.trigs.getD n {}).ent = none) : geyFire n d = (d, .done sRange 0) := if_neg (by simp [h])

theorem geyTrigStats_eq (buf : HostBuf) (d : Dev) : geyTrigStats buf d
    = (d, if buf.len < 6144 then .done sRange 0 else .block ((List.range 256).flatMap d.trigBlock) (some buf.addr)) := by
  unfold geyTrigStats
  split <;> rfl

end Commands

/-- A row of Geyser that its ring accepts whenever it is ready answers with what its command makes of the device. -/
theorem exec_of_geyAccept {i : Instr} {s : State} {c : Ctx} {f : Dev → Dev × CmdRes} {res : Dev × CmdRes}
    (hr : ready s.dev c.ring false (some 0)) (hi : exec i s = s.run 0 (fun _ d => d.accept c false (some 0) f))
    (h : f (fetched s.dev c.ring) = res) : exec i s = .next (served s c res.1 res.2) := by
  rw [hi, run_accept_ready (fun _ => f) hr, h]

/-- Settles O10: each command is accepted; its checks decide between its effect and S_RANGE. -/
theorem geyserCommandsComplete : Obligations.GeyserCommandsComplete := by
  unfold Obligations.GeyserCommandsComplete
  refine ⟨?_, ?_, ?_, ?_, ?_, ?_, ?_, ?_, ?_⟩
  · rintro s c d first count images hr rfl hc hresv hfit
    exact exec_of_geyAccept hr rfl (geyLcSet_fits hc hresv hfit)
  · rintro s c d first count images hr rfl hbad
    exact exec_of_geyAccept hr rfl (geyLcSet_refused hbad)
  · rintro s c d first count images hr rfl hc hbad
    exact exec_of_geyAccept hr rfl (geyTrigSet_fits hc hbad)
  · rintro s c d first count images hr rfl hbad
    exact exec_of_geyAccept hr rfl (geyTrigSet_refused hbad)
  · rintro s c d rate mask hr rfl h
    exact exec_of_geyAccept hr rfl (geyStreamSet_fits h)
  · rintro s c d rate mask hr rfl h
    exact exec_of_geyAccept hr rfl (geyStreamSet_refused h)
  · rintro s c d n hr rfl h
    exact exec_of_geyAccept hr rfl (geyFire_set h)
  · rintro s c d n hr rfl h
    exact exec_of_geyAccept hr rfl (geyFire_unused h)
  · rintro s c d buf hr rfl
    exact exec_of_geyAccept hr rfl (geyTrigStats_eq buf _)

end Sys2Proof.Machine
end

section
/-! Proof that a pulse pin loses no pulse: what one crossing adds to what the pin owes, and what one pulse takes from it (R282, R283; O12). -/

namespace Sys2Proof.Machine

open Sys2Proof

/-! ## What a job owes -/

/-- The pulses that a job still owes: edge times in the queue, and crossings in its carry. -/
def PulseJob.owed (j : PulseJob) : Nat := j.times.length + j.carry

/-- The job owes a pulse. -/
def PulseJob.owes (j : PulseJob) : Bool := !j.times.isEmpty || decide (0 < j.carry)

theorem PulseSt.owed_eq (p : PulseSt) : p.owed = (p.jobs.map PulseJob.owed).sum := rfl

theorem not_owes_iff (j : PulseJob) : (!j.owes) = true ↔ j.owed = 0 := by
  simp [PulseJob.owes, PulseJob.owed]

theorem not_owes_eq (j : PulseJob) : (!j.owes) = (j.times.isEmpty && decide (j.carry = 0)) := by
  simp [PulseJob.owes, Nat.pos_iff_ne_zero]

theorem sum_owed_of_none {l : List PulseJob} (h : ∀ j ∈ l, (!j.owes) = true) : (l.map PulseJob.owed).sum = 0 := by
  refine List.sum_eq_zero fun n hn => ?_
  obtain ⟨j, hj, rfl⟩ := List.mem_map.mp hn
  exact (not_owes_iff j).mp (h j hj)

/-! ## A crossing (R282, R283) -/

/-- The newest job with one crossing more, where the pin holds `held` edge times: an edge time where the queue has room, else one more in
the carry. -/
def PulseJob.cross (j : PulseJob) (held t : Nat) : PulseJob :=
  if held < 1024 then { j with times := j.times ++ [t] } else { j with carry := (j.carry + 1) % 2 ^ 32 }

theorem owed_cross (j : PulseJob) (held t : Nat) (h : j.owed + 1 < 2 ^ 32) : (j.cross held t).owed = j.owed + 1 := by
  unfold PulseJob.cross PulseJob.owed at *
  split
  · simp only [List.length_append, List.length_singleton]
    omega
  · have fits : (j.carry + 1) % 2 ^ 32 = j.carry + 1 := Nat.mod_eq_of_lt (by omega)
    exact congrArg (j.times.length + ·) fits

/-- The edge times in the queue of a pin. -/
def PulseSt.held (p : PulseSt) : Nat := p.jobs.foldl (fun a j => a + j.times.length) 0

/-- A crossing joins the newest job, or a new one where the pin has none. -/
theorem push_jobs (p : PulseSt) (t : Nat) : ∃ (l : List PulseJob) (j : PulseJob),
    p.owed = (l.map PulseJob.owed).sum + j.owed ∧ (p.push t).jobs = l ++ [j.cross p.held t] := by
  rcases List.eq_nil_or_concat p.jobs with none | ⟨l, j, jobs⟩
  · exact ⟨[], ⟨p.width, [], 0⟩, by rw [PulseSt.owed_eq, none]; rfl, by rw [PulseSt.push, PulseSt.held, none]; rfl⟩
  · refine ⟨l, j, ?_, ?_⟩
    · rw [PulseSt.owed_eq, jobs, List.concat_eq_append, List.map_append, List.sum_append, List.map_singleton, List.sum_singleton]
    · simp only [PulseSt.push, PulseSt.held, jobs, List.concat_eq_append, List.getLast?_concat, Option.getD_some, List.dropLast_concat]
      rfl

theorem owed_push (p : PulseSt) (t : Nat) (h : p.owed + 1 < 2 ^ 32) : (p.push t).owed = p.owed + 1 := by
  obtain ⟨l, j, before, after⟩ := push_jobs p t
  have newest := owed_cross j p.held t (by omega)
  rw [PulseSt.owed_eq, after, before, List.map_append, List.sum_append, List.map_singleton, List.sum_singleton, newest, Nat.add_assoc]

theorem owed_foldl_push (at_ : Nat → Nat) (l : List Nat) (p : PulseSt) (h : p.owed + l.length < 2 ^ 32) :
    (l.foldl (fun (x : PulseSt) j => x.push (at_ j)) p).owed = p.owed + l.length := by
  induction l generalizing p with
  | nil => rfl
  | cons j l ih =>
    rw [List.length_cons] at h
    have first := owed_push p (at_ j) (by omega)
    rw [List.foldl_cons, ih _ (by omega), first, List.length_cons]
    omega

/-- A step of a pin: every crossing is owed, and the residue is what no crossing takes. -/
theorem pulseStep_accounts (lPulse e tPrev : Nat) (p : PulseSt) (hw : 0 < p.weight) (h : p.owed + (p.residue + e) / p.weight < 2 ^ 32) :
    (pulseStep lPulse e tPrev p).owed = p.owed + (p.residue + e) / p.weight
      ∧ (pulseStep lPulse e tPrev p).residue = (p.residue + e) % p.weight := by
  have weight : max 1 p.weight = p.weight := max_eq_right hw
  simp only [pulseStep, weight, and_true]
  exact (owed_foldl_push _ _ p (by rwa [List.length_range])).trans (by rw [List.length_range])

/-! ## A pulse that is emitted (R283) -/

/-- A pulse is taken from the first job that owes one; the jobs before it owe none. -/
theorem pop_jobs {p rest : PulseSt} {t : Option Nat} {w : Nat} (h : p.pop = some (t, w, rest)) : ∃ (j j' : PulseJob) (after : List PulseJob),
    p.owed = j.owed + (after.map PulseJob.owed).sum ∧ rest.jobs = j' :: after ∧ j'.owed + 1 = j.owed := by
  unfold PulseSt.pop at h
  split at h
  · cases h
  · next j found =>
    obtain ⟨owes, before, after, jobs, idle⟩ := List.find?_eq_some_iff_append.mp found
    change j.owes = true at owes
    have skipped : p.jobs.dropWhile (fun x => x.times.isEmpty && decide (x.carry = 0)) = j :: after := by
      rw [jobs, List.dropWhile_append_of_pos (fun x hx => (not_owes_eq x).symm.trans (idle x hx)),
        List.dropWhile_cons_of_neg (by rw [← not_owes_eq, owes]; decide)]
    have owed : p.owed = j.owed + (after.map PulseJob.owed).sum := by
      rw [PulseSt.owed_eq, jobs, List.map_append, List.sum_append, sum_owed_of_none idle, List.map_cons, List.sum_cons, Nat.zero_add]
    rw [skipped] at h
    split at h
    · next times =>
      obtain ⟨-, -, rfl⟩ := h
      exact ⟨j, _, after, owed, rfl, by simp only [PulseJob.owed, times]; simp; omega⟩
    · next times =>
      obtain ⟨-, -, rfl⟩ := h
      have carried : 0 < j.carry := by simpa [PulseJob.owes, times] using owes
      exact ⟨j, _, after, owed, rfl, by simp only [PulseJob.owed, times]; simp; omega⟩

theorem owed_pop {p rest : PulseSt} {t : Option Nat} {w : Nat} (h : p.pop = some (t, w, rest)) : rest.owed + 1 = p.owed := by
  obtain ⟨j, j', after, before, jobs, taken⟩ := pop_jobs h
  rw [before, PulseSt.owed_eq, jobs, List.map_cons, List.sum_cons]
  omega

/-- Settles O12: a step adds every crossing to what is owed, and a pulse takes one from it. -/
theorem pulsesAreNeverDropped : Obligations.PulsesAreNeverDropped := by
  unfold Obligations.PulsesAreNeverDropped
  exact ⟨pulseStep_accounts, fun _ _ _ _ => owed_pop⟩

end Sys2Proof.Machine
end

section
/-! Proofs' layer of interchange energy: points, pins and save slots read after they change, and what the starts and the ends of saves leave
(R281, R286, R287). -/

namespace Sys2Proof.Machine

open Sys2Proof

/-! ## Parts of the device -/

theorem only_nrg {l : List Part} {p : Nat → Prop} {d t : Dev} (h : only l p d t) (hn : Part.nrg ∉ l) : t.nrg = d.nrg := by
  obtain ⟨-, -, -, -, -, -, -, -, -, nrg, -⟩ := h.1; exact nrg hn

theorem point_of_nrg {d t : Dev} (h : t.nrg = d.nrg) (p : Nat) : t.point p = d.point p := by rw [Dev.point, h, Dev.point]

theorem saveSlots_of_nrg {d t : Dev} (h : t.nrg = d.nrg) (p : Nat) : t.saveSlots p = d.saveSlots p := by rw [Dev.saveSlots, h, Dev.saveSlots]

/-! ## Points, pins and save slots -/

theorem modPoint_only (d : Dev) (n : Nat) (f : PointSt → PointSt) (p : Nat → Prop) : only [.nrg] p d (d.modPoint n f) := modNrg_only _ _ _

theorem modPin_only (d : Dev) (i : Nat) (f : PulseSt → PulseSt) (p : Nat → Prop) : only [.nrg] p d (d.modPin i f) := modNrg_only _ _ _

theorem setSaveSlot_only (d : Dev) (n i : Nat) (s : SaveSlot) (p : Nat → Prop) : only [.nrg] p d (d.setSaveSlot n i s) := modNrg_only _ _ _

theorem point_modPoint_same {d : Dev} {p : Nat} (h : p < d.nrg.points.length) (f : PointSt → PointSt) :
    (d.modPoint p f).point p = f (d.point p) := by
  simp [Dev.point, Dev.modPoint, getElem?_modifyAt_same, List.getElem?_eq_getElem h]

theorem point_modPoint_other (d : Dev) {p q : Nat} (h : q ≠ p) (f : PointSt → PointSt) : (d.modPoint p f).point q = d.point q := by
  simp only [Dev.point, Dev.modPoint, Dev.modNrg_nrg, getElem?_modifyAt_other _ _ h]

theorem pins_modPin (d : Dev) (i : Nat) (f : PulseSt → PulseSt) : (d.modPin i f).nrg.pins[i]? = (d.nrg.pins[i]?).map f :=
  getElem?_modifyAt_same _ _ _

theorem saveSlots_setSaveSlot_same {d : Dev} {p : Nat} (h : p < d.nrg.slots.length) (i : Nat) (s : SaveSlot) :
    (d.setSaveSlot p i s).saveSlots p = if i = 0 then (some s, (d.saveSlots p).2) else ((d.saveSlots p).1, some s) := by
  simp [Dev.saveSlots, Dev.setSaveSlot, getElem?_modifyAt_same, List.getElem?_eq_getElem h]

theorem saveSlots_setSaveSlot_other (d : Dev) {p q : Nat} (h : q ≠ p) (i : Nat) (s : SaveSlot) :
    (d.setSaveSlot p i s).saveSlots q = d.saveSlots q := by
  simp only [Dev.saveSlots, Dev.setSaveSlot, Dev.modNrg_nrg, getElem?_modifyAt_other _ _ h]

/-- A point with a state other than the one after reset is there. -/
theorem lt_points_of_point {d : Dev} {p : Nat} (h : d.point p ≠ {}) : p < d.nrg.points.length := by
  by_contra hp
  exact h (by rw [Dev.point, List.getElem?_eq_none (not_lt.mp hp), Option.getD_none])

theorem lt_points_of_ent {d : Dev} {p : Nat} {e : NrgEntry} (h : (d.point p).ent = some e) : p < d.nrg.points.length :=
  lt_points_of_point fun empty => by rw [empty] at h; cases h

/-! ## The valid points -/

theorem mem_validPoints {d : Dev} {p : Nat} {e : NrgEntry} : (p, e) ∈ d.validPoints ↔ p < 16 ∧ (d.point p).ent = some e := by
  simp only [Dev.validPoints, List.mem_filterMap, List.mem_range, Option.map_eq_some_iff, Prod.mk.injEq]
  constructor
  · rintro ⟨q, hq, e', he, rfl, rfl⟩
    exact ⟨hq, he⟩
  · rintro ⟨hp, he⟩
    exact ⟨p, hp, e, he, rfl, rfl⟩

theorem validPoints_nodup (d : Dev) : d.validPoints.Nodup := by
  refine List.nodup_range.filterMap fun p q x hp hq => ?_
  obtain ⟨_, _, rfl⟩ := Option.map_eq_some_iff.mp hp
  obtain ⟨_, _, same⟩ := Option.map_eq_some_iff.mp hq
  exact (congrArg Prod.fst same).symm

/-! ## Saves -/

/-- What the save of another point leaves of point `p`: its state, its slots and the time of the step. -/
structure PointKept (p : Nat) (d t : Dev) : Prop where
  point : t.point p = d.point p
  slots : t.saveSlots p = d.saveSlots p
  count : t.nrg.points.length = d.nrg.points.length
  time : t.stepTime = d.stepTime

theorem pointKept_refl (p : Nat) (d : Dev) : PointKept p d d := ⟨rfl, rfl, rfl, rfl⟩

theorem pointKept_trans {p : Nat} {a b c : Dev} (h : PointKept p a b) (k : PointKept p b c) : PointKept p a c :=
  ⟨k.point.trans h.point, k.slots.trans h.slots, k.count.trans h.count, k.time.trans h.time⟩

theorem startSave_pointKept (d : Dev) (final : Bool) {x : Nat × NrgEntry} {p : Nat} (h : p ≠ x.1) : PointKept p d (d.startSave final x) where
  point := point_modPoint_other _ h _
  slots := saveSlots_setSaveSlot_other d h _ _
  count := length_modifyAt _ _ _
  time := rfl

/-- The next save of a point depends on its state and its slots only. -/
theorem nextSave_of_pointKept {p : Nat} {d t : Dev} (h : PointKept p d t) (e : NrgEntry) (final : Bool) (at_ : Nat) :
    t.nextSave p e final at_ = d.nextSave p e final at_ := by
  simp only [Dev.nextSave, Dev.latestSave, h.point, h.slots]

/-- A save that starts: its body stands in its slot, and the point notes it. -/
theorem startSave_eq (d : Dev) (final : Bool) (p : Nat) (e : NrgEntry) : ∃ slot body, d.startSave final (p, e)
    = (d.setSaveSlot p slot body).modPoint p
        (fun s => { s with saving := some (slot, final, (d.nextSave p e final d.stepTime).2), pLast := 0 }) := ⟨_, _, rfl⟩

/-- A save that starts is the point's next save. -/
theorem saving_startSave {d : Dev} {p : Nat} (h : p < d.nrg.points.length) (final : Bool) (e : NrgEntry) :
    (((d.startSave final (p, e)).point p).saving.map (fun x => x.2.2)) = some (d.nextSave p e final d.stepTime).2 := by
  obtain ⟨slot, body, started⟩ := startSave_eq d final p e
  have there : p < (d.setSaveSlot p slot body).nrg.points.length := h
  rw [started, point_modPoint_same there]
  rfl

/-- A save that passes its read-back: it stands in its slot, and counts. -/
theorem commitSave_eq {d : Dev} {p i : Nat} {final : Bool} {x : SaveSlot} (h : (d.point p).saving = some (i, final, x)) : d.commitSave p
    = ((d.setSaveSlot p i x).modPoint p (fun s => { s with saving := none })).count64 Reg.NRG_SAVES_LO := by
  simp only [Dev.commitSave, h]

/-- A point whose save has failed: the peak of that save counts for the next one. -/
def PointSt.saveFailed (s : PointSt) (x : SaveSlot) : PointSt :=
  { s with saving := none, pLast := if fLt s.pLast x.pLast then x.pLast else s.pLast }

theorem failSave_eq {d : Dev} {p i : Nat} {final : Bool} {x : SaveSlot} (h : (d.point p).saving = some (i, final, x)) : d.failSave p
    = ((d.modPoint p (fun s => s.saveFailed x)).setBit Fld.NRG_STATUS_SAVE_FAIL true).event .nrgSaveFail p := by
  simp only [Dev.failSave, h]
  rfl

end Sys2Proof.Machine
end

section
/-! The statement that the rows of interchange energy take effect: its enable, pulses, intervals, saves, and steps without samples (R281 to R283,
R285 to R287, R290; O11). -/

namespace Sys2Proof.Machine

open Sys2Proof

/-! ## NRG_ENABLE (R287) -/

theorem fieldsAt_nrgCtrl : fieldsAt Reg.NRG_CTRL = [⟨0, 1, .rw, .any⟩] := by decide +kernel

/-- NRG_CTRL takes its bit from the written word, whatever it is. -/
def Dev.nrgCtrlWord (d : Dev) (v : Word) : Word := withBits (d.reg Reg.NRG_CTRL) 0 1 (bitsAt v 0 1)

theorem writePlain_nrgCtrl (d : Dev) (v : Word) : d.writePlain Reg.NRG_CTRL v = d.setReg Reg.NRG_CTRL (d.nrgCtrlWord v) := by
  have res : d.writeRes Reg.NRG_CTRL v = { word := d.nrgCtrlWord v } := by
    simp only [Dev.writeRes, fieldsAt_nrgCtrl]
    rfl
  simp only [Dev.writePlain, res]
  rfl

theorem exec_nrgEnable (s : State) (v : Word) :
    exec (.nrgEnable v) s = s.run 0 (fun _ d => if bitsAt v 0 1 = 1 then writeNrgCtrl v d else d) := rfl

theorem restartSeconds_only (d : Dev) (p : Nat → Prop) : only [.nrg] p d d.restartSeconds := modNrg_only _ _ _

section Enable

variable {d : Dev} {v : Word} (hon : v.toNat.testBit 0 = true)

include hon

theorem bit_nrgCtrl_enabled : (d.writePlain Reg.NRG_CTRL v).bit Fld.NRG_CTRL_EN = true := by
  have word : bitsAt (d.nrgCtrlWord v) 0 1 = 1 := bitsAt_enable_written hon _
  simp [writePlain_nrgCtrl, Dev.bit, Dev.fld, Fld.NRG_CTRL_EN, word]

/-- A write that sets EN sets RUNNING, and restarts the seconds where EN was 0. -/
theorem writeNrgCtrl_eq (hg : d.gatedAt Reg.NRG_CTRL = false) : writeNrgCtrl v d
    = if d.bit Fld.NRG_CTRL_EN then (d.writePlain Reg.NRG_CTRL v).setBit Fld.NRG_STATUS_RUNNING true
      else ((d.writePlain Reg.NRG_CTRL v).setBit Fld.NRG_STATUS_RUNNING true).restartSeconds := by
  have on := bit_nrgCtrl_enabled (d := d) hon
  unfold writeNrgCtrl
  simp only [hg, on, Bool.false_eq_true, if_false, Bool.true_and]
  cases d.bit Fld.NRG_CTRL_EN <;> rfl

theorem writeNrgCtrl_enables (hg : d.gatedAt Reg.NRG_CTRL = false) :
    only [.regs, .nrg] (fun o => o ∈ [Reg.NRG_CTRL, Reg.NRG_STATUS]) d (writeNrgCtrl v d)
      ∧ (writeNrgCtrl v d).bit Fld.NRG_CTRL_EN = true ∧ (writeNrgCtrl v d).bit Fld.NRG_STATUS_RUNNING = true := by
  have on := bit_nrgCtrl_enabled (d := d) hon
  have written : only [.regs] (fun o => o = Reg.NRG_CTRL) d (d.writePlain Reg.NRG_CTRL v) := writePlain_nrgCtrl d v ▸ only_setReg d _ _
  have runs := setBit_only (d.writePlain Reg.NRG_CTRL v) Fld.NRG_STATUS_RUNNING true
  rw [writeNrgCtrl_eq hon hg]
  generalize d.writePlain Reg.NRG_CTRL v = x at on written runs
  have restarts : only [.nrg] (fun _ => False) (x.setBit Fld.NRG_STATUS_RUNNING true)
      (if d.bit Fld.NRG_CTRL_EN then x.setBit Fld.NRG_STATUS_RUNNING true else (x.setBit Fld.NRG_STATUS_RUNNING true).restartSeconds) :=
    only_ite (only_refl _ _ _) (restartSeconds_only _ _)
  refine ⟨?_, ?_, ?_⟩
  · exact only_trans (only_mono (by simp) (by rintro _ rfl; decide) written)
      (only_trans (only_mono (by simp) (by rintro _ rfl; decide) runs) (only_mono (by simp) (fun _ => False.elim) restarts))
  · exact (only_bit restarts id).trans ((only_bit runs (by decide)).trans on)
  · exact (only_bit restarts id).trans (Dev.bit_setBit_same _ _ _ (by decide) (by decide))

end Enable

/-! ## Pulses (R282, R283) -/

theorem exec_pulseEmit (s : State) (dt i : Nat) : exec (.pulseEmit dt i) s = s.run dt (fun _ d => if i < 4 then d.pulseEmit i else d) := rfl

/-- Pin `i` with a pulse of WIDTH `w` driven from `t` on, which is counted. -/
def Dev.pulseDriven (d : Dev) (i t w : Nat) (rest : PulseSt) : Dev :=
  (d.modPin i (fun _ => { rest with high := true, highUntil := t + w, nextFree := t + 2 * w })).count (Reg.NRG_PULSEp_CNT i)

section Emit

variable {d : Dev} {i x w : Nat} {p rest : PulseSt} (hp : d.nrg.pins[i]? = some p)

include hp

/-- A pulse with an edge time that is due is driven; it is late where the pin was not free at its edge time. -/
theorem pulseEmit_due (hen : d.bit Fld.NRG_CTRL_EN = true) (hlow : p.high = false) (hpop : p.pop = some (some x, w, rest))
    (hdue : max x p.nextFree ≤ d.nowUs) : d.pulseEmit i
      = if x < p.nextFree then (d.pulseDriven i (max x p.nextFree) w rest).count (Reg.NRG_PULSEp_LATE i)
        else d.pulseDriven i (max x p.nextFree) w rest := by
  have late : x < max x p.nextFree ↔ x < p.nextFree := by rw [lt_max_iff, or_iff_right (lt_irrefl x)]
  simp only [Dev.pulseEmit, hp, Option.getD_some, hen, hlow, hpop, if_neg (not_lt.mpr hdue), late,
    Bool.not_true, Bool.or_self, Bool.false_eq_true, if_false, decide_eq_true_eq]
  rfl

/-- The pulse's pin and the two counters, after it is driven and counted as late where it is. -/
theorem pulseDriven_effect (t : Nat) (late : Prop) [Decidable late] {y : Dev}
    (hy : y = if late then (d.pulseDriven i t w rest).count (Reg.NRG_PULSEp_LATE i) else d.pulseDriven i t w rest) :
    only [.regs, .nrg] (fun o => o ∈ [Reg.NRG_PULSEp_CNT i, Reg.NRG_PULSEp_LATE i]) d y
      ∧ y.nrg.pins[i]? = some { rest with high := true, highUntil := t + w, nextFree := t + 2 * w }
      ∧ y.regN (Reg.NRG_PULSEp_CNT i) = (d.regN (Reg.NRG_PULSEp_CNT i) + 1) % 2 ^ 32
      ∧ y.regN (Reg.NRG_PULSEp_LATE i) = (d.regN (Reg.NRG_PULSEp_LATE i) + (if late then 1 else 0)) % 2 ^ 32 := by
  have apart : Reg.NRG_PULSEp_LATE i ≠ Reg.NRG_PULSEp_CNT i := by simp only [Reg.NRG_PULSEp_LATE, Reg.NRG_PULSEp_CNT]; omega
  have driven : only [.regs, .nrg] (fun o => o ∈ [Reg.NRG_PULSEp_CNT i, Reg.NRG_PULSEp_LATE i]) d (d.pulseDriven i t w rest) :=
    only_trans (only_wider (modPin_only d i _ _) (by simp)) (only_mono (by simp) (by rintro _ rfl; simp) (count_only _ _ _))
  have pin : (d.pulseDriven i t w rest).nrg.pins[i]? = some { rest with high := true, highUntil := t + w, nextFree := t + 2 * w } :=
    (pins_modPin _ _ _).trans (by rw [hp]; rfl)
  have cnt : (d.pulseDriven i t w rest).regN (Reg.NRG_PULSEp_CNT i) = (d.regN (Reg.NRG_PULSEp_CNT i) + 1) % 2 ^ 32 :=
    (regN_count _ _ _ _).trans (if_pos rfl)
  have lates : (d.pulseDriven i t w rest).regN (Reg.NRG_PULSEp_LATE i) = d.regN (Reg.NRG_PULSEp_LATE i) :=
    (regN_count _ _ _ _).trans (if_neg apart)
  by_cases h : late
  · rw [if_pos h] at hy
    subst hy
    have counted := count_only (d.pulseDriven i t w rest) (Reg.NRG_PULSEp_LATE i) 1
    refine ⟨only_trans driven (only_mono (by simp) (by rintro _ rfl; simp) counted), pin, (only_regN counted apart.symm).trans cnt, ?_⟩
    rw [regN_count, if_pos rfl, if_pos h, lates]
  · rw [if_neg h] at hy
    subst hy
    refine ⟨driven, pin, cnt, ?_⟩
    rw [if_neg h, lates, Nat.add_zero, Nat.mod_eq_of_lt (regN_lt d _)]

end Emit

/-- The row of the end of a pulse on the device. -/
def Dev.pulseEndRow (d : Dev) (i : Nat) : Dev :=
  let p := (d.nrg.pins[i]?).getD {}
  if p.high && decide (p.highUntil ≤ d.nowUs) then d.modPin i (fun x => { x with high := false }) else d

theorem exec_pulseWidthEnd (s : State) (dt i : Nat) : exec (.pulseWidthEnd dt i) s = s.run dt (fun _ d => d.pulseEndRow i) := rfl

theorem pulseEndRow_due {d : Dev} {i : Nat} {p : PulseSt} (hp : d.nrg.pins[i]? = some p) (hhigh : p.high = true)
    (hdue : p.highUntil ≤ d.nowUs) : d.pulseEndRow i = d.modPin i (fun x => { x with high := false }) := by
  simp only [Dev.pulseEndRow, hp, Option.getD_some, hhigh, decide_eq_true hdue, Bool.and_self, if_true]

/-! ## Intervals (R285) -/

/-- The device with every point's accumulators latched at the minute, and the interval counted. -/
def Dev.intervalClosed (d : Dev) : Dev :=
  (d.modNrg (fun g => { g with
    intervalMin := d.utcMinute
    points := g.points.map (fun p => { p with latched := p.acc, latchedAt := d.stepTime }) })).count Reg.NRG_INTERVALS

/-- The row of an interval on the device. -/
def Dev.intervalRow (d : Dev) : Dev :=
  if d.bit Fld.NRG_CTRL_EN && decide (d.utcMinute % max 1 (d.fld Fld.NRG_CFG_INTERVAL) = 0) && decide (d.utcMinute ≠ d.nrg.intervalMin) then
    d.intervalClosed.event .nrgInterval noIndex (d.intervalClosed.regN Reg.NRG_INTERVALS)
  else d

theorem exec_nrgInterval (s : State) (dt : Nat) : exec (.nrgInterval dt) s = s.run dt (fun _ d => d.intervalRow) := rfl

theorem intervalRow_due {d : Dev} (hen : d.bit Fld.NRG_CTRL_EN = true) (hmin : d.utcMinute % max 1 (d.fld Fld.NRG_CFG_INTERVAL) = 0)
    (hnew : d.utcMinute ≠ d.nrg.intervalMin) :
    d.intervalRow = d.intervalClosed.event .nrgInterval noIndex (d.intervalClosed.regN Reg.NRG_INTERVALS) :=
  if_pos (by rw [hen, decide_eq_true hmin, decide_eq_true hnew]; rfl)

theorem intervalClosed_only (d : Dev) : only [.regs, .nrg] (fun o => o ∈ [Reg.NRG_INTERVALS]) d d.intervalClosed :=
  only_trans (only_wider (modNrg_only d _ _) (by simp)) (only_mono (by simp) (by rintro _ rfl; exact List.mem_singleton_self _) (count_only _ _ _))

theorem intervalRow_effect {d : Dev} (hen : d.bit Fld.NRG_CTRL_EN = true) (hmin : d.utcMinute % max 1 (d.fld Fld.NRG_CFG_INTERVAL) = 0)
    (hnew : d.utcMinute ≠ d.nrg.intervalMin) :
    only [.regs, .hif, .nrg, .snt] (fun o => eventReg o ∨ o ∈ [Reg.NRG_INTERVALS]) d d.intervalRow
      ∧ d.intervalRow.nrg.points = d.nrg.points.map (fun p => { p with latched := p.acc, latchedAt := d.stepTime })
      ∧ d.intervalRow.regN Reg.NRG_INTERVALS = (d.regN Reg.NRG_INTERVALS + 1) % 2 ^ 32 := by
  rw [intervalRow_due hen hmin hnew]
  have raised := event_only d.intervalClosed .nrgInterval noIndex (d.intervalClosed.regN Reg.NRG_INTERVALS) 0 sOk
  refine ⟨only_trans (only_mono (by simp) (fun _ => .inr) (intervalClosed_only d)) (only_mono (by simp) (fun _ => .inl) raised), ?_, ?_⟩
  · rw [only_nrg raised (by decide)]
    rfl
  · rw [only_regN raised (not_eventReg (by decide))]
    exact (regN_count _ _ _ _).trans (if_pos rfl)

/-! ## Saves (R286, R287) -/

/-- A point's part in the periodic save: one that a save already runs for starts none. -/
def Dev.saveUnlessSaving (d : Dev) (x : Nat × NrgEntry) : Dev := if (d.point x.1).saving.isSome then d else d.startSave false x

/-- The row of the periodic saves on the device. -/
def Dev.periodicSaveRow (d : Dev) : Dev :=
  if d.bit Fld.NRG_CTRL_EN && !d.bit Fld.NRG_STATUS_PFW && !d.finalSaving && decide (d.gSec ≠ d.nrg.savedSec) then
    (d.validPoints.foldl Dev.saveUnlessSaving d).modNrg (fun g => { g with savedSec := d.gSec })
  else d

theorem exec_nrgPeriodicSave (s : State) (dt : Nat) : exec (.nrgPeriodicSave dt) s = s.run dt (fun _ d => d.periodicSaveRow) := rfl

theorem periodicSaveRow_due {d : Dev} (hen : d.bit Fld.NRG_CTRL_EN = true) (hpfw : d.bit Fld.NRG_STATUS_PFW = false)
    (hfinal : d.finalSaving = false) (hsec : d.gSec ≠ d.nrg.savedSec) :
    d.periodicSaveRow = (d.validPoints.foldl Dev.saveUnlessSaving d).modNrg (fun g => { g with savedSec := d.gSec }) :=
  if_pos (by rw [hen, hpfw, hfinal, decide_eq_true hsec]; rfl)

theorem saveUnlessSaving_only (d : Dev) (x : Nat × NrgEntry) (p : Nat → Prop) : only [.nrg] p d (d.saveUnlessSaving x) :=
  only_ite (only_refl _ _ _) (startSave_only _ _ _ _)

theorem saveUnlessSaving_pointKept (d : Dev) {x : Nat × NrgEntry} {p : Nat} (h : p ≠ x.1) : PointKept p d (d.saveUnlessSaving x) := by
  unfold Dev.saveUnlessSaving
  split
  · exact pointKept_refl _ _
  · exact startSave_pointKept d false h

/-- Every valid point that no save runs for starts its next one: the saves of the other points leave it. -/
theorem saving_foldl_saves {d : Dev} {p : Nat} {e : NrgEntry} (hp : p < 16) (hent : (d.point p).ent = some e) (hidle : (d.point p).saving = none) :
    ((d.validPoints.foldl Dev.saveUnlessSaving d).point p).saving.map (fun x => x.2.2) = some (d.nextSave p e false d.stepTime).2 := by
  have others (y : Dev) (x : Nat × NrgEntry) (hx : x ∈ d.validPoints) (hne : x ≠ (p, e)) : PointKept p y (y.saveUnlessSaving x) := by
    refine saveUnlessSaving_pointKept y ?_
    rintro rfl
    have same : (d.point x.1).ent = some x.2 := (mem_validPoints.mp hx).2
    exact hne (Prod.ext rfl (Option.some.inj (same.symm.trans hent)))
  obtain ⟨y, before, after⟩ := foldl_around (R := PointKept p) (pointKept_refl p) pointKept_trans (mem_validPoints.mpr ⟨hp, hent⟩)
    (validPoints_nodup d) others d
  have there : p < y.nrg.points.length := before.count ▸ lt_points_of_ent hent
  have starts : y.saveUnlessSaving (p, e) = y.startSave false (p, e) :=
    if_neg (by rw [before.point, hidle]; decide)
  rw [after.point, starts, saving_startSave there, before.time, nextSave_of_pointKept before]

/-- The row of the end of a periodic save on the device. -/
def Dev.saveDoneRow (d : Dev) (p : Nat) (ok : Bool) : Dev :=
  match (d.point p).saving with
  | some (_, false, _) => if ok then d.commitSave p else d.failSave p
  | _ => d

theorem exec_nrgSaveDone (s : State) (dt p : Nat) (ok : Bool) : exec (.nrgSaveDone dt p ok) s = s.run dt (fun _ d => d.saveDoneRow p ok) := rfl

section SaveDone

variable {d : Dev} {p i : Nat} {x : SaveSlot} (hsaving : (d.point p).saving = some (i, false, x))

include hsaving

theorem saveDoneRow_saving (ok : Bool) : d.saveDoneRow p ok = if ok then d.commitSave p else d.failSave p := by
  simp only [Dev.saveDoneRow, hsaving]

theorem commitSave_effect (hp : p < d.nrg.points.length) (hslot : p < d.nrg.slots.length) :
    only [.regs, .nrg] (fun o => o ∈ [Reg.NRG_SAVES_LO, Reg.NRG_SAVES_HI]) d (d.commitSave p)
      ∧ ((d.commitSave p).point p).saving = none
      ∧ (if i = 0 then ((d.commitSave p).saveSlots p).1 else ((d.commitSave p).saveSlots p).2) = some x
      ∧ (d.commitSave p).reg64 Reg.NRG_SAVES_LO = (d.reg64 Reg.NRG_SAVES_LO + 1) % 2 ^ 64 := by
  rw [commitSave_eq hsaving]
  have slot := saveSlots_setSaveSlot_same hslot i x
  have there : p < (d.setSaveSlot p i x).nrg.points.length := hp
  have stored : only [.regs, .nrg] (fun o => o ∈ [Reg.NRG_SAVES_LO, Reg.NRG_SAVES_HI]) d (d.setSaveSlot p i x) :=
    only_wider (setSaveSlot_only _ _ _ _ _) (by simp)
  refine ⟨only_trans stored (only_trans (only_wider (modPoint_only _ _ _ _) (by simp)) (only_mono (by simp) ?_ (count64_only _ _ _))), ?_, ?_, ?_⟩
  · rintro _ (rfl | rfl)
    · exact List.mem_cons_self
    · exact List.mem_cons_of_mem _ (List.mem_singleton.mpr rfl)
  · exact congrArg PointSt.saving (point_modPoint_same there _)
  · change (if i = 0 then ((d.setSaveSlot p i x).saveSlots p).1 else ((d.setSaveSlot p i x).saveSlots p).2) = some x
    rw [slot]
    split <;> rfl
  · exact reg64_count64_same _ _ _

theorem failSave_effect (hp : p < d.nrg.points.length) :
    only [.regs, .hif, .nrg, .snt] (fun o => eventReg o ∨ o ∈ [Reg.NRG_STATUS]) d (d.failSave p)
      ∧ ((d.failSave p).point p).saving = none ∧ (d.failSave p).bit Fld.NRG_STATUS_SAVE_FAIL = true
      ∧ (d.failSave p).nrg.slots = d.nrg.slots := by
  rw [failSave_eq hsaving]
  have raised := event_only ((d.modPoint p (fun s => s.saveFailed x)).setBit Fld.NRG_STATUS_SAVE_FAIL true) .nrgSaveFail p 0 0 sOk
  have marked := setBit_only (d.modPoint p (fun s => s.saveFailed x)) Fld.NRG_STATUS_SAVE_FAIL true
  refine ⟨?_, ?_, ?_, (congrArg NrgSt.slots (only_nrg raised (by decide)) :)⟩
  · refine only_trans (only_wider (modPoint_only d p _ _) (by simp)) (only_trans (only_mono (by simp) ?_ marked)
      (only_mono (by simp) (fun _ => .inl) raised))
    rintro _ rfl
    exact .inr (List.mem_singleton_self _)
  · rw [point_of_nrg (only_nrg raised (by decide))]
    exact congrArg PointSt.saving (point_modPoint_same hp _)
  · rw [only_bit raised (not_eventReg (by decide))]
    exact Dev.bit_setBit_same _ _ _ (by decide) (by decide)

end SaveDone

/-! ## Steps without samples (R281) -/

/-- A point of which a channel was clipped in the step carries OVR. -/
def Dev.clipMarked (d : Dev) (n p : Nat) (e : NrgEntry) : Dev :=
  if e.channels.any (fun ch => (d.fineAt ch n).any (fun y => y.ovr)) then d.setBit (Fld.NRG_PTn_STAT_OVR p) true else d

theorem clipMarked_only (d : Dev) (n p : Nat) (e : NrgEntry) : only [.regs] (fun o => o = Reg.NRG_PTn_STAT p) d (d.clipMarked n p e) :=
  only_ite (setBit_only _ _ _) (only_refl _ _ _)

theorem pointStep_gap {d : Dev} {n p : Nat} {e : NrgEntry} (h : e.channels.any (fun ch => (d.fineAt ch n).isNone) = true) : d.pointStep n (p, e)
    = ((d.clipMarked n p e).modPoint p (fun s => { s with outage := s.outage + 1 })).setBit (Fld.NRG_PTn_STAT_LINK_GAP p) true := by
  have gap : (e.channels.map (fun ch => d.fineAt ch n)).any (fun s => s.isNone) = true := List.any_map.trans h
  simp only [Dev.pointStep, gap, if_true, List.any_map]
  rfl

/-- A step in which a channel has no sample lengthens the outage and marks the gap; one that was clipped is marked too. -/
theorem pointStep_gap_effect {d : Dev} {n p : Nat} {e : NrgEntry} (hp : p < d.nrg.points.length)
    (h : e.channels.any (fun ch => (d.fineAt ch n).isNone) = true) :
    (d.pointStep n (p, e)).bit (Fld.NRG_PTn_STAT_LINK_GAP p) = true
      ∧ (d.pointStep n (p, e)).point p = { d.point p with outage := (d.point p).outage + 1 }
      ∧ (d.pointStep n (p, e)).nrg.pins = d.nrg.pins
      ∧ (e.channels.any (fun ch => (d.fineAt ch n).any (fun y => y.ovr)) = true →
          (d.pointStep n (p, e)).bit (Fld.NRG_PTn_STAT_OVR p) = true) := by
  rw [pointStep_gap h]
  have hfield : (Fld.NRG_PTn_STAT_LINK_GAP p).lo + (Fld.NRG_PTn_STAT_LINK_GAP p).width ≤ 32 := by simp [Fld.NRG_PTn_STAT_LINK_GAP]
  have same : (d.clipMarked n p e).nrg = d.nrg := only_nrg (clipMarked_only d n p e) (by simp)
  refine ⟨Dev.bit_setBit_same _ _ _ hfield (Nat.succ_pos 0), ?_, (congrArg NrgSt.pins same :), fun clipped => ?_⟩
  · exact (point_modPoint_same (same ▸ hp) _).trans (by rw [point_of_nrg same])
  · have below : (Fld.NRG_PTn_STAT_OVR p).lo + (Fld.NRG_PTn_STAT_OVR p).width ≤ (Fld.NRG_PTn_STAT_LINK_GAP p).lo := le_refl 2
    have marked : (d.clipMarked n p e).bit (Fld.NRG_PTn_STAT_OVR p) = true := by
      rw [Dev.clipMarked, if_pos clipped]
      exact Dev.bit_setBit_same d _ _ (below.trans (by simp [Fld.NRG_PTn_STAT_LINK_GAP])) (Nat.succ_pos 0)
    exact (bit_setBit_other _ hfield (.inr (.inl below))).trans marked

/-! ## The rows -/

/-- Settles O11: each row by what it does to NRG_CTRL, a pin, the points or a save. -/
theorem energyEventsTakeEffect : Obligations.EnergyEventsTakeEffect := by
  unfold Obligations.EnergyEventsTakeEffect
  refine ⟨?_, ?_, ?_, ?_, ?_, ?_, ?_, ?_⟩
  · rintro s v hon hg
    obtain ⟨frame, enabled⟩ := writeNrgCtrl_enables hon hg
    rw [exec_nrgEnable]
    exact exists_run_moves (if_pos (of_decide_eq_true ((testBit_zero_iff v).symm.trans hon))) frame enabled
  · rintro s dt i x d p rest w rfl ⟨hi, hp⟩ ⟨hen, hlow⟩ hpop hdue
    obtain ⟨frame, driven⟩ := pulseDriven_effect hp (max x p.nextFree) (x < p.nextFree) (pulseEmit_due hp hen hlow hpop hdue)
    rw [exec_pulseEmit]
    exact exists_run_moves (if_pos hi) frame driven
  · rintro s dt i d p rfl hp ⟨hhigh, hdue⟩
    rw [exec_pulseWidthEnd]
    exact exists_run_moves (pulseEndRow_due hp hhigh hdue) (modPin_only _ _ _ _) ((pins_modPin _ _ _).trans (by rw [hp]; rfl))
  · rintro s dt d rfl hen ⟨hmin, hnew⟩
    obtain ⟨frame, latched⟩ := intervalRow_effect hen hmin hnew
    rw [exec_nrgInterval]
    exact exists_run_moves rfl frame latched
  · rintro s dt p d e rfl ⟨hen, hpfw, hfinal⟩ hsec ⟨hp, hent, hidle⟩
    have saved : only [.nrg] (fun _ => False) (later s.dev dt) ((later s.dev dt).validPoints.foldl Dev.saveUnlessSaving (later s.dev dt)) :=
      only_foldl _ (fun y x => saveUnlessSaving_only y x _) _ _
    rw [exec_nrgPeriodicSave]
    exact exists_run_moves (periodicSaveRow_due hen hpfw hfinal hsec) (only_trans saved (modNrg_only _ _ _))
      ⟨rfl, saving_foldl_saves hp hent hidle⟩
  · rintro s dt p i d x rfl ⟨hp, hslot⟩ hsaving
    obtain ⟨frame, committed⟩ := commitSave_effect hsaving hp hslot
    rw [exec_nrgSaveDone]
    exact exists_run_moves (saveDoneRow_saving hsaving true) frame committed
  · rintro s dt p i d x rfl hp hsaving
    obtain ⟨frame, failed⟩ := failSave_effect hsaving hp
    rw [exec_nrgSaveDone]
    exact exists_run_moves (saveDoneRow_saving hsaving false) frame failed
  · rintro d n p e hp hgap
    exact pointStep_gap_effect hp hgap

end Sys2Proof.Machine
end

section
/-! The statement about the commands of interchange energy (O13): the checks of each, and for NRG_SET the save found, decide between its effect
and its refusal (R276, R282, R283, R289, R291). -/

namespace Sys2Proof.Machine

open Sys2Proof

/-! ## NRG_SET (R276, R289) -/

section Set

variable {d : Dev} {p : Nat} {image : Bytes} {clear : Bool}

theorem nrgRemove_unused (h : (d.point p).ent = none) : nrgRemove p d = d := by simp only [nrgRemove, h]

section Fits

variable (hp : p < 16 ∧ resvSet nrgResv image = false)

include hp

theorem nrgSet_unfit (hfit : (nrgEntryOf image).fits = false) : nrgSet p image clear d = (d, .done sRange 0) := by
  obtain ⟨hlt, hresv⟩ := hp
  simp only [nrgSet, hresv, hfit, not_lt.mpr (Nat.le_of_lt_succ hlt), Bool.false_eq_true, or_self, if_false, Bool.not_false, if_true]

theorem nrgSet_removes (hvalid : (fieldAt image 0 1).testBit 2 = false) (hfit : (nrgEntryOf image).fits = true) :
    nrgSet p image clear d = (nrgRemove p d, .ok) := by
  obtain ⟨hlt, hresv⟩ := hp
  simp only [nrgSet, hresv, hvalid, hfit, not_lt.mpr (Nat.le_of_lt_succ hlt), Bool.false_eq_true, or_self, if_false, Bool.not_false,
    Bool.not_true, if_true]

variable (hvalid : (fieldAt image 0 1).testBit 2 = true ∧ (nrgEntryOf image).fits = true) (hent : (d.point p).ent = none)

include hvalid hent

/-- On a point that is not valid, the save found decides; S_BUSY changes nothing. -/
theorem nrgSet_makes : nrgSet p image clear d = if (nrgMake p (nrgEntryOf image) clear d).2 = .done sBusy 0
    then (d, (nrgMake p (nrgEntryOf image) clear d).2) else nrgMake p (nrgEntryOf image) clear d := by
  obtain ⟨hlt, hresv⟩ := hp
  obtain ⟨valid, hfit⟩ := hvalid
  simp only [nrgSet, hresv, valid, hfit, not_lt.mpr (Nat.le_of_lt_succ hlt), Bool.false_eq_true, or_self, if_false, Bool.not_true,
    nrgRemove_unused hent]

/-- A point that is made valid. -/
theorem nrgSet_of_made {x : Dev} (h : nrgMake p (nrgEntryOf image) clear d = (x, .ok)) : nrgSet p image clear d = (x, .ok) := by
  rw [nrgSet_makes hp hvalid hent, h]
  have notBusy : CmdRes.ok ≠ .done sBusy 0 := by decide
  exact if_neg notBusy

/-- A point that starts at 0. -/
theorem nrgSet_new (hsave : d.latestSave p = none) : nrgSet p image clear d
    = ((d.beginPoint p (nrgEntryOf image) (List.replicate 16 0) 0 0 16).event .nrgNoSave p, .ok) :=
  nrgSet_of_made hp hvalid hent (by simp only [nrgMake, hsave])

/-- A point that resumes the save of the same definition. -/
theorem nrgSet_resumes {i : Nat} {x : SaveSlot} (hsave : d.latestSave p = some (i, x)) (hcrc : x.defCrc = (nrgEntryOf image).defCrc) :
    nrgSet p image clear d = ((d.beginPoint p (nrgEntryOf image) (x.acc.map (fun y => y * 2 ^ 16))
      (fOfRat ((nrgEntryOf image).peak * d.holdTime x.final / 3600)) (fOfRat (fRat x.pLast * d.holdTime x.final / 3600)) 8).event .nrgUnsaved
      (p + 256 * b2n x.final) (fOfRat ((nrgEntryOf image).peak * d.holdTime x.final / 3600)).toNat, .ok) :=
  nrgSet_of_made hp hvalid hent (by simp only [nrgMake, hsave, hcrc, if_true])

/-- The save of another definition is in the way unless CLEAR is set. -/
theorem nrgSet_otherSave {i : Nat} {x : SaveSlot} (hsave : d.latestSave p = some (i, x)) (hcrc : x.defCrc ≠ (nrgEntryOf image).defCrc) :
    nrgSet p image clear d = (if clear then (d.beginPoint p (nrgEntryOf image) (List.replicate 16 0) 0 0 32).event .nrgCleared p else d,
      if clear then .ok else .done sBusy 0) := by
  cases clear
  · have busy : nrgMake p (nrgEntryOf image) false d = (d, .done sBusy 0) := by
      simp only [nrgMake, hsave, if_neg hcrc, Bool.false_eq_true, if_false]
    rw [nrgSet_makes hp hvalid hent, busy]
    rfl
  · exact nrgSet_of_made hp hvalid hent (by simp only [nrgMake, hsave, if_neg hcrc, if_true])

end Fits

/-- A valid point is saved before it is removed, whether the save passes its read-back or not. -/
theorem nrgRemove_valid {e : NrgEntry} (h : (d.point p).ent = some e) : nrgRemove p d = ((((if d.draw.1 % 2 = 0
    then (d.draw.2.startSave false (p, e)).commitSave p else (d.draw.2.startSave false (p, e)).failSave p).modPoint p (fun _ => {})).setRegN
    (Reg.NRG_PTn_STAT p) 0).setFbit Fld.NRG_STATUS_VALID p false) := by simp only [nrgRemove, h]

end Set

/-! ## NRG_PULSE_SET and NRG_READ (R282, R283, R291) -/

section Pulse

variable {d : Dev} {pin point idx weight width : Nat} {en : Bool}

theorem nrgPulseSet_fits (hp : pin < 4 ∧ point < 16 ∧ idx < 16 ∧ (d.point point).ent.isSome = true)
    (hw : 65536 ≤ weight ∧ weight < 2 ^ 64 ∧ 0 < width ∧ width < 65536) : nrgPulseSet pin point idx weight width en d
      = (d.modPin pin (fun p => { p with
          en := en, point := point, idx := idx, weight := weight, width := width, residue := 0
          jobs := p.jobs.filter (fun j : PulseJob => !j.times.isEmpty || decide (0 < j.carry)) ++ [(⟨width, [], 0⟩ : PulseJob)] }), .ok) := by
  obtain ⟨hpin, hpoint, hidx, hent⟩ := hp
  have used : (d.point point).ent.isNone = false := by rw [← Option.not_isSome, hent]; rfl
  refine if_neg ?_
  simp only [used, Bool.false_eq_true, false_or]
  omega

theorem nrgPulseSet_refused (h : 3 < pin ∨ 15 < point ∨ 15 < idx ∨ (d.point point).ent = none ∨ weight < 65536 ∨ 2 ^ 64 ≤ weight ∨ width = 0
    ∨ 65535 < width) : nrgPulseSet pin point idx weight width en d = (d, .done sRange 0) :=
  if_pos (by rwa [Option.isNone_iff_eq_none])

end Pulse

theorem nrgRead_eq (mask : Nat) (latched : Bool) (buf : HostBuf) (d : Dev) : nrgRead mask latched buf d
    = (d, if buf.len < 160 * (bitsOf 16 mask).length then .done sRange 0
      else .block ((bitsOf 16 mask).flatMap (d.nrgBlock latched)) (some buf.addr)) := by
  simp only [nrgRead]
  split <;> rfl

/-! ## The rows on a ring -/

/-- A row that a ring accepts whenever it is ready, whatever the block's gate, answers with what its command makes of the device. -/
theorem exec_of_gatedAccept {i : Instr} {s : State} {c : Ctx} {waits : Bool} {gate : Option Nat} {f : Dev → Dev × CmdRes} {res : Dev × CmdRes}
    (hr : ready s.dev c.ring waits gate) (hi : exec i s = s.run 0 (fun _ d => d.accept c waits gate f))
    (h : f (fetched s.dev c.ring) = res) : exec i s = .next (served s c res.1 res.2) := by
  rw [hi, run_accept_ready (fun _ => f) hr, h]

/-- Settles O13: each command is accepted; its checks, and for NRG_SET the save found, decide what it makes of the device. -/
theorem energyCommandsComplete : Obligations.EnergyCommandsComplete := by
  unfold Obligations.EnergyCommandsComplete
  refine ⟨?_, ?_, ?_, ?_, ?_, ?_, ?_, ?_, ?_⟩
  · rintro s c d p image clear hr rfl hp hvalid ⟨hent, hsave⟩
    exact exec_of_gatedAccept hr rfl (nrgSet_new hp hvalid hent hsave)
  · rintro s c d p i image clear x hr rfl hp hvalid ⟨hent, hsave, hcrc⟩
    exact exec_of_gatedAccept hr rfl (nrgSet_resumes hp hvalid hent hsave hcrc)
  · rintro s c d p i image clear x hr rfl hp hvalid ⟨hent, hsave, hcrc⟩
    exact exec_of_gatedAccept hr rfl (nrgSet_otherSave hp hvalid hent hsave hcrc)
  · rintro s c d p image clear hr rfl hp hfit
    exact exec_of_gatedAccept hr rfl (nrgSet_unfit hp hfit)
  · rintro s c d p image clear e hr rfl hp ⟨hvalid, hfit⟩ hent
    have removed := nrgSet_removes (d := fetched s.dev c.ring) (clear := clear) hp hvalid hfit
    rw [nrgRemove_valid hent] at removed
    exact exec_of_gatedAccept hr rfl removed
  · rintro s c d pin point idx weight width en hr rfl hp hw
    exact exec_of_gatedAccept hr rfl (nrgPulseSet_fits hp hw)
  · rintro s c d pin point idx weight width en hr rfl h
    exact exec_of_gatedAccept hr rfl (nrgPulseSet_refused h)
  · rintro s c d mask latched buf hr rfl
    exact exec_of_gatedAccept hr rfl (nrgRead_eq mask latched buf _)
  · rintro s c d mask hr rfl
    exact exec_of_gatedAccept (f := nrgAck mask) hr rfl rfl

end Sys2Proof.Machine
end

section
/-! Proofs' layer of the cyclic logic: completions on rings of any number, the part that the cycle holds, and what a halt, an error that meets none
of its class, and the segments leave (R304, R310, R381, R453, R521). -/

namespace Sys2Proof.Machine

open Sys2Proof

/-! ## The cycle's part out of a frame -/

theorem only_cyc {l : List Part} {p : Nat → Prop} {d t : Dev} (h : only l p d t) (hn : Part.cyc ∉ l) : t.cyc = d.cyc := by
  obtain ⟨-, -, -, -, -, -, -, -, -, -, cyc, -⟩ := h.1; exact cyc hn

theorem only_net {l : List Part} {p : Nat → Prop} {d t : Dev} (h : only l p d t) (hn : Part.net ∉ l) : t.net = d.net := by
  obtain ⟨-, -, -, -, -, -, -, -, -, -, -, -, net, -⟩ := h.1; exact net hn

/-- Raising an event leaves the cycle. -/
theorem event_cyc (d : Dev) (e : Ev) (index arg0 arg1 status : Nat) : (d.event e index arg0 arg1 status).cyc = d.cyc :=
  only_cyc (event_only d e index arg0 arg1 status) (by simp)

/-! ## Completions

A command that waits may name a ring beyond the 32 of the part; DONE and STAT of such a ring lie at offsets of their own all the same. -/

/-- A register that a completion on a ring of any number moves. -/
def ringReg (o : Nat) : Prop := signalReg o ∨ ∃ n, o = Reg.HIF_RINGn_DONE n ∨ o = Reg.HIF_RINGn_STAT n

theorem not_ringReg {o : Nat} (h : o < 0x021014 ∨ 0x031004 < o) (hd : o % 32 ≠ 20) (hs : o % 32 ≠ 24) : ¬ ringReg o := by
  rintro (signal | ⟨n, done | stat⟩)
  · exact not_signalReg h signal
  · rw [Reg.HIF_RINGn_DONE] at done; omega
  · rw [Reg.HIF_RINGn_STAT] at stat; omega

theorem judgeSignal_ring (d : Dev) (n : Nat) (expired : Bool) : only [.regs, .hif] ringReg d (d.judgeSignal n expired) := by
  unfold Dev.judgeSignal
  simp only
  split
  · exact only_trans (only_mono (by simp) (fun _ => .inl) (sendMsix_only _ (fld_lt _ _)))
      (only_trans (only_mono (by simp) (by rintro _ rfl; exact .inr ⟨n, .inr rfl⟩) (setBit_only _ (Fld.HIF_RINGn_STAT_ARMED n) false))
        (setRing_only _ _ _ _))
  · exact only_refl _ _ _

theorem countDone_ring (d : Dev) (n : Nat) : only [.regs, .hif] ringReg d (d.countDone n) :=
  only_trans (only_mono (by simp) (by rintro _ rfl; exact .inr ⟨n, .inl rfl⟩) (count_only d (Reg.HIF_RINGn_DONE n) 1))
    (only_trans (setRing_only _ _ _ _) (judgeSignal_ring _ n false))

theorem complete_ring (d : Dev) (n k session status result addr : Nat) (b : Bytes) :
    only [.regs, .hif] ringReg d (d.complete n k session status result addr b) := by
  unfold Dev.complete
  extract_lets r st held d1
  split
  · exact only_refl _ _ _
  · split
    · exact only_of_kept (by simp [keptBut]) rfl
    · have written : only [.regs, .hif] ringReg d d1 := only_ite (only_refl _ _ _) (emit_only _ _ _)
      exact only_trans written (only_trans (setRing_only _ _ _ _) (only_trans (emit_only _ _ _) (countDone_ring _ n)))

/-- The completion of waiting commands moves the rings alone. -/
theorem finishWaits_ring (d : Dev) (p : WaitKind → Bool) (status result : Nat) :
    only [.regs, .hif] ringReg d (d.finishWaits p status result) := by
  refine only_trans (b := { d with hif := { d.hif with waiting := d.hif.waiting.filter (fun w => !p w.kind) } })
    (only_of_kept (by simp [keptBut]) rfl) (only_foldl _ (fun x w => ?_) _ _)
  exact only_ite (only_refl _ _ _) (complete_ring _ _ _ _ _ _ _ _)

theorem finishWaits_cyc (d : Dev) (p : WaitKind → Bool) (status result : Nat) : (d.finishWaits p status result).cyc = d.cyc :=
  only_cyc (finishWaits_ring d p status result) (by simp)

/-! ## A halt (R304) -/

/-- The program in FAULT: it does not run, and its outputs are commanded fail-safe. -/
def Dev.faulted (d : Dev) : Prop := d.fld Fld.CYC_STATUS_STATE = 2 ∧ d.cyc.running = false ∧ d.cyc.failsafe = true

/-- What leaves the cycle and CYC_STATUS leaves a program in FAULT. -/
theorem faulted_of_only {l : List Part} {p : Nat → Prop} {d t : Dev} (h : only l p d t) (hl : Part.cyc ∉ l) (hp : ¬ p Reg.CYC_STATUS)
    (hd : d.faulted) : t.faulted := by
  rw [Dev.faulted, only_cyc h hl, only_fld h hp]
  exact hd

/-- The registers and the parts that a halt in FAULT moves, and the state that it leaves. -/
theorem cycHalt_fault (d : Dev) (cause : Nat) :
    only [.regs, .hif, .cyc, .snt] (fun o => eventReg o ∨ o ∈ [Reg.FUM_CYC_FLAGS, Reg.CYC_STATUS]) d (d.cycHalt 2 (some cause))
      ∧ (d.cycHalt 2 (some cause)).faulted := by
  generalize result : d.cycHalt 2 (some cause) = t
  unfold Dev.cycHalt at result
  extract_lets c d1 d2 d3 d4 at result
  have halted : only [.cyc] (fun _ => False) d d1 := only_of_kept (by simp [keptBut, d1]) rfl
  have status : only [.regs] (fun o => o ∈ [Reg.FUM_CYC_FLAGS, Reg.CYC_STATUS]) d1 d2 :=
    only_trans (only_mono (by simp) (by rintro _ rfl; decide) (only_setReg d1 Reg.FUM_CYC_FLAGS 0))
      (only_trans (only_mono (by simp) (by rintro _ rfl; decide) (setFld_only (d1.setCycFlags 0) Fld.CYC_STATUS_STATE 2))
        (only_mono (by simp) (by rintro _ rfl; decide) (setBit_only _ Fld.CYC_STATUS_SWITCH_PEND _)))
  have state : d2.faulted := by
    refine ⟨?_, rfl, rfl⟩
    show ((_ : Dev).setFld Fld.CYC_STATUS_SWITCH_PEND _).fld _ = 2
    rw [Dev.fld_setFld_other _ _ _ _ (by decide) (by decide), Dev.fld_setFld_same _ _ _ (by decide)]
    rfl
  have told : only [.regs, .hif, .snt] eventReg d2 t := by
    rw [if_neg (by decide)] at result
    subst result
    exact event_only d2 .cycFault _ _ cause _
  exact ⟨only_trans (only_mono (by simp) (fun _ => False.elim) halted) (only_trans (only_mono (by simp) (fun _ => .inr) status)
    (only_mono (by simp) (fun _ => .inl) told)), faulted_of_only told (by simp) (not_eventReg (by decide)) state⟩

/-! ## The first error of a class (R521) -/

/-- The highest level of the entries of a class that has none. -/
theorem foldl_level_of_none {cls : Nat} {l : List ErrEntry} (h : l.all (fun e => decide (e.cls ≠ cls)) = true) :
    l.foldl (fun m e => if e.cls = cls then max m e.level else m) 0 = 0 := by
  induction l with
  | nil => rfl
  | cons e t ih =>
    simp only [List.all_cons, Bool.and_eq_true, decide_eq_true_eq] at h
    rw [List.foldl_cons, if_neg h.1]
    exact ih h.2

/-- An error that meets no entry of its class in a queue with room joins it, and the safe state is not entered. -/
theorem raise_first {d : Dev} {cls : Nat} (hroom : d.saf.queue.length < 16) (hnone : d.saf.queue.all (fun e => decide (e.cls ≠ cls)) = true)
    (hlevel : initialLevel cls ≠ 3) (index diag status : Nat) :
    ∃ saf : SafSt, d.raise cls index diag status = ({ d.count Reg.SAF_ERRORS with saf := saf }).refreshSaf := by
  have room : ¬ 16 ≤ (d.count Reg.SAF_ERRORS).saf.queue.length := Nat.not_le.mpr hroom
  have unraised : (d.count Reg.SAF_ERRORS).saf.queue.foldl (fun m e => if e.cls = cls then max m e.level else m) 0 = 0 :=
    foldl_level_of_none hnone
  unfold Dev.raise Dev.raiseAt
  simp only [unraised, if_neg room, if_true, if_neg hlevel]
  exact ⟨_, rfl⟩

theorem raise_first_only {d : Dev} {cls : Nat} (hroom : d.saf.queue.length < 16)
    (hnone : d.saf.queue.all (fun e => decide (e.cls ≠ cls)) = true) (hlevel : initialLevel cls ≠ 3) (index diag status : Nat) :
    only [.regs, .saf] (fun o => o ∈ [Reg.SAF_ERRORS, Reg.SAF_STATUS, Reg.FUM_STATUS]) d (d.raise cls index diag status) := by
  obtain ⟨saf, eq⟩ := raise_first hroom hnone hlevel index diag status
  rw [eq]
  exact only_trans (only_mono (by simp) (by rintro _ rfl; decide) (count_only d Reg.SAF_ERRORS 1))
    (only_trans (b := { d.count Reg.SAF_ERRORS with saf := saf }) (only_of_kept (by simp [keptBut]) rfl)
      (only_mono (by simp) (fun _ => List.mem_cons_of_mem _) (refreshSaf_only _)))

/-! ## The segments (R310, R381) -/

theorem modNet_only (d : Dev) (f : NetSt → NetSt) (p : Nat → Prop) : only [.net] p d (d.modNet f) :=
  only_of_kept (by simp [keptBut, Dev.modNet]) rfl

theorem setFieldTx_only (d : Dev) (g : Nat) (x : Option FieldTx) (p : Nat → Prop) : only [.net] p d (d.setFieldTx g x) := modNet_only _ _ _

/-- What a segment sends next, read after it is set. -/
theorem tx_setFieldTx_none (d : Dev) (g : Nat) : ((d.setFieldTx g none).field g).tx = none := by
  simp only [Dev.field, Dev.setFieldTx, Dev.modNet, getElem?_modifyAt_same]
  cases d.net.fields[g]? <;> rfl

/-- A register that an OUTPUT frame handed to segment `g` moves. -/
def segReg (g o : Nat) : Prop := o ∈ [Reg.NET_FLDn_TX_FRAMES g, Reg.RIO_OUT_LATE, Reg.NET_FLDn_DEFERRALS g]

theorem fieldSettle_seg (d : Dev) (g : Nat) : only [.regs, .net] (segReg g) d (d.fieldSettle g) := by
  unfold Dev.fieldSettle
  split
  · exact only_refl _ _ _
  · split
    · refine only_ite (only_trans (only_wider (setFieldTx_only d g none _) (by simp)) ?_) (only_refl _ _ _)
      exact only_mono (by simp) (by rintro _ rfl; simp [segReg]) (count_only _ (Reg.NET_FLDn_TX_FRAMES g) 1)
    · exact only_refl _ _ _

theorem fieldTry_seg (d : Dev) (g : Nat) (carrier : Bool) (x : FieldTx) : only [.regs, .net] (segReg g) d (d.fieldTry g carrier x) := by
  have set (y : Option FieldTx) : only [.regs, .net] (segReg g) d (d.setFieldTx g y) := only_wider (setFieldTx_only d g y _) (by simp)
  unfold Dev.fieldTry
  refine only_ite (set _) (only_ite ?_ ?_)
  · exact only_trans (set _) (only_mono (by simp) (by rintro _ rfl; simp [segReg]) (count_only _ (Reg.NET_FLDn_DEFERRALS g) _))
  · exact only_trans (set _) (only_of_kept (keptBut_mono (by simp) (emit_kept _ _)) rfl)

theorem fieldSend_seg (d : Dev) (g : Nat) (payload : Bytes) (carrier : Bool) :
    only [.regs, .net] (segReg g) d (d.fieldSend g payload carrier) :=
  only_trans (fieldSettle_seg d g) (only_trans (only_mono (by simp) (by rintro _ rfl; simp [segReg]) (count_only _ Reg.RIO_OUT_LATE _))
    (fieldTry_seg _ _ _ _))

/-- The registers of the segments lie apart from the cyclic flags. -/
theorem not_segReg_cycFlags (g : Nat) : ¬ segReg g Reg.FUM_CYC_FLAGS := by
  simp only [segReg, List.mem_cons, List.not_mem_nil, or_false, Reg.FUM_CYC_FLAGS, Reg.NET_FLDn_TX_FRAMES, Reg.RIO_OUT_LATE,
    Reg.NET_FLDn_DEFERRALS]
  omega

end Sys2Proof.Machine
end

section
/-! The statement that the rows of the cycle's own events complete with their effect (R293, R299 to R304, R306, R310, R311, R317, R318, R323; O56). -/

namespace Sys2Proof.Machine

open Sys2Proof

/-! ## The boundary (R300, R312 to R315) -/

/-- From `d` to `t` the cycle has changed in its stations alone. -/
def stationsMoved (d t : Dev) : Prop := ∃ st, t.cyc = { d.cyc with stations := st }

theorem stationsMoved_refl (d : Dev) : stationsMoved d d := ⟨_, rfl⟩

theorem stationsMoved_trans {a b c : Dev} (h : stationsMoved a b) (k : stationsMoved b c) : stationsMoved a c := by
  obtain ⟨_, h⟩ := h
  obtain ⟨st, k⟩ := k
  exact ⟨st, by rw [k, h]⟩

theorem stationsMoved_of_cyc {d t : Dev} (h : t.cyc = d.cyc) : stationsMoved d t := ⟨_, h⟩

/-- A filter that declares counts and raises its event. -/
theorem declared_cyc (x : Dev) (c : Bool) (o : Nat) (e : Ev) (s i : Nat) :
    (if c then (x.count o).event e s i else x).cyc = x.cyc := by
  split
  · exact event_cyc _ _ _ _ _ _
  · rfl

theorem readStation_moves (d : Dev) (read dt s : Nat) (e : StationEntry) (x : StationSt) :
    stationsMoved d (d.readStation read dt s e x) := by
  unfold Dev.readStation
  extract_lets r d1 d2 res
  have lost : d2.cyc = d.cyc := by
    show (if _ then _ else if _ then _ else _ : Dev).cyc = d.cyc
    split
    · exact event_cyc _ _ _ _ _ _
    · split
      · exact event_cyc _ _ _ _ _ _
      · rfl
  have filtered : res.2.cyc = d2.cyc := by
    refine foldl_keeps (R := fun a b : StationSt × Dev => b.2.cyc = a.2.cyc) (fun _ => rfl) (fun h k => k.trans h) (fun a i => ?_) _ (r.1, d2)
    exact (declared_cyc _ _ _ _ _ _).trans (declared_cyc _ _ _ _ _ _)
  exact ⟨_, congrArg (fun c : CycSt => { c with stations := c.stations.put s res.1 }) (filtered.trans lost)⟩

/-- An input read keeps the cycle's boundaries and starts its execution. -/
theorem inputRead_executes (d : Dev) (p : Program) (b : Nat) : (d.inputRead p b).cyc.boundary = d.cyc.boundary
    ∧ (d.inputRead p b).cyc.nextBoundary = d.cyc.nextBoundary ∧ (d.inputRead p b).cyc.executing = true := by
  unfold Dev.inputRead
  extract_lets t dt read d1 d2 image
  have moved : stationsMoved d d1 := by
    refine foldl_keeps stationsMoved_refl stationsMoved_trans (fun x s => ?_) _ d
    split
    · exact readStation_moves _ _ _ _ _ _
    · exact stationsMoved_refl x
  clear_value d1 image
  obtain ⟨st, moved⟩ := moved
  refine ⟨?_, ?_, rfl⟩
  · show d1.cyc.boundary = d.cyc.boundary
    rw [moved]
  · show d1.cyc.nextBoundary = d.cyc.nextBoundary
    rw [moved]

theorem startCycle_executes (d : Dev) (p : Program) (b : Nat) : (d.startCycle p b).cyc.boundary = b
    ∧ (d.startCycle p b).cyc.nextBoundary = b + p.period ∧ (d.startCycle p b).cyc.executing = true := inputRead_executes _ p b

theorem stationsTake_regs (d : Dev) : only [.regs, .cyc] (fun o => o ∈ [Reg.RIO_ONLINE, Reg.RIO_FAILSAFE]) d d.stationsTake :=
  only_trans (only_wider (modCyc_only d _ _) (by simp))
    (only_trans (only_mono (by simp) (by rintro _ rfl; decide) (only_setReg _ Reg.RIO_ONLINE _))
      (only_mono (by simp) (by rintro _ rfl; decide) (only_setReg _ Reg.RIO_FAILSAFE _)))

/-- A switch to come is looked at with the cycles counted. -/
theorem switchDue_congr {d t : Dev} (hs : t.cyc.switch = d.cyc.switch) (hc : cyclesNow t = cyclesNow d) : t.switchDue = d.switchDue := by
  rw [Dev.switchDue, hs, hc, Dev.switchDue]

/-- A boundary of a program that runs on time, with no stop and no switch to come, starts its next cycle. -/
theorem cycleBoundary_begins {d : Dev} {p : Program} (hp : d.program = some p) (hout : d.cyc.outputsOn = true)
    (hdue : d.boundaryDue p.period = true) (hrun : d.cyc.running = true) (hstop : d.cyc.stopReq = none) (hlate : d.cyc.late = false)
    (hsw : d.switchDue = none) : d.cycleBoundary.cyc.boundary = d.boundaryNow p.period
      ∧ d.cycleBoundary.cyc.nextBoundary = d.boundaryNow p.period + p.period ∧ d.cycleBoundary.cyc.executing = true := by
  generalize result : d.cycleBoundary = t
  have due : (d.cyc.outputsOn && d.boundaryDue p.period) = true := by rw [hout, hdue]; rfl
  simp only [Dev.cycleBoundary, hp, due, if_true] at result
  have stays : d.stationsTake.cyc.stopReq = none := hstop
  have runs : (d.stationsTake.modCyc (fun c => { c with outCycle := [none, none] })).cyc.running = true := hrun
  have cycles : cyclesNow d.stationsTake = cyclesNow d := only_reg64 (stationsTake_regs d) (by decide) (by decide)
  rw [stays] at result
  simp only [runs, if_true] at result
  have noSwitch : (d.stationsTake.modCyc (fun c => { c with outCycle := [none, none] })).switchDue = none :=
    (switchDue_congr (t := d.stationsTake.modCyc (fun c => { c with outCycle := [none, none] })) (d := d) rfl cycles).trans hsw
  have onTime : (d.stationsTake.modCyc (fun c => { c with outCycle := [none, none] })).cyc.late = false := hlate
  generalize d.stationsTake.modCyc (fun c => { c with outCycle := [none, none] }) = x at result noSwitch onTime
  have begun : x.runBoundary p (d.boundaryNow p.period) = x.startCycle p (d.boundaryNow p.period) := by
    simp only [Dev.runBoundary, onTime, noSwitch, Bool.false_and, Bool.false_eq_true, if_false]
  rw [← result, finishWaits_cyc, begun]
  exact startCycle_executes x p _

/-! ## Execution and outputs (R299, R302) -/

theorem execDone_counts {d : Dev} {w r : List (Nat × Bytes)} (hrun : d.cyc.running = true) (hexec : d.cyc.executing = true)
    (hdone : d.cyc.execDone = false) : (d.execDone w r).cyc.execDone = true
      ∧ (d.execDone w r).reg64 Reg.CYC_CYCLES_LO = (d.reg64 Reg.CYC_CYCLES_LO + 1) % 2 ^ 64 := by
  have counts : (d.cyc.running && d.cyc.executing && !d.cyc.execDone) = true := by rw [hrun, hexec, hdone]; rfl
  rw [Dev.execDone, if_pos counts]
  extract_lets us d1
  refine ⟨rfl, ?_⟩
  rw [only_reg64 (setFld_only _ _ _) (by decide) (by decide), only_reg64 (setFld_only _ _ _) (by decide) (by decide), reg64_count64_same]
  rfl

/-- The outputs that an image of 260 bytes at 65,536 of work data spells. -/
def outputsOf (work : Ram) : List Nat := (List.range 32).map (fun st => fieldAt (Ram.read work 65536 260) (8 * st) 8)

/-- Its flags. -/
def flagsOf (work : Ram) : Nat := fieldAt (Ram.read work 65536 260) 256 4

theorem leNat_lt (b : Bytes) : leNat b < 256 ^ b.length := by
  induction b with
  | nil => decide
  | cons x t ih =>
    have := x.isLt
    rw [leNat, List.length_cons, pow_succ]
    omega

theorem length_slice (b : Bytes) (off n : Nat) : (slice b off n).length = n := by
  simp only [slice, zeros, List.length_append, List.length_replicate, List.length_take]
  omega

theorem fieldAt_lt (b : Bytes) (off n : Nat) : fieldAt b off n < 256 ^ n := (leNat_lt _).trans_eq (by rw [length_slice])

/-- From `d` to `t` the outputs, the flags and the output write to come stay. -/
def outputsKept (d t : Dev) : Prop :=
  t.cyc.outs = d.cyc.outs ∧ t.regN Reg.FUM_CYC_FLAGS = d.regN Reg.FUM_CYC_FLAGS ∧ t.cyc.outPending = d.cyc.outPending

theorem outputsKept_refl (d : Dev) : outputsKept d d := ⟨rfl, rfl, rfl⟩

theorem outputsKept_trans {a b c : Dev} (h : outputsKept a b) (k : outputsKept b c) : outputsKept a c :=
  ⟨k.1.trans h.1, k.2.1.trans h.2.1, k.2.2.trans h.2.2⟩

theorem outputsKept_of_only {l : List Part} {p : Nat → Prop} {d t : Dev} (h : only l p d t) (hl : Part.cyc ∉ l)
    (hp : ¬ p Reg.FUM_CYC_FLAGS) : outputsKept d t := ⟨by rw [only_cyc h hl], only_regN h hp, by rw [only_cyc h hl]⟩

/-- The output write latches the outputs and the flags. -/
theorem writeOutputs_latches (d : Dev) : d.writeOutputs.cyc.outs = outputsOf d.cyc.work
    ∧ d.writeOutputs.regN Reg.FUM_CYC_FLAGS = flagsOf d.cyc.work ∧ d.writeOutputs.cyc.outPending = d.cyc.outPending := by
  unfold Dev.writeOutputs
  extract_lets img copy d1
  have flags : d1.regN Reg.FUM_CYC_FLAGS = flagsOf d.cyc.work := by
    refine (regN_setRegN _ _ _ _).trans ?_
    rw [if_pos rfl]
    exact Nat.mod_eq_of_lt (fieldAt_lt _ _ 4)
  obtain ⟨outs, kept, pending⟩ := outputsKept_of_only
    (finishWaits_ring d1 (fun w => decide (w = .cycStart) || (decide (w = .cycSwitch) && d1.cyc.switch.isNone)) sOk 0) (by simp)
    (not_ringReg (by decide) (by decide) (by decide))
  exact ⟨outs, kept.trans flags, pending⟩

theorem sendOutputs_kept (d : Dev) (p : Program) (carrier : Nat) : outputsKept d (d.sendOutputs p carrier) := by
  refine foldl_keeps outputsKept_refl outputsKept_trans (fun x g => ?_) _ d
  split
  · have sent := outputsKept_of_only (fieldSend_seg x g (d.outputFrame p g) (carrier.testBit g)) (by simp) (not_segReg_cycFlags g)
    exact outputsKept_trans sent ⟨rfl, rfl, rfl⟩
  · exact outputsKept_refl x

/-- OUT_AT of a cycle that was executed in time. -/
theorem outputWrite_latches {d : Dev} {p : Program} (carrier : Nat) (hp : d.program = some p) (hdue : d.outDue p = true)
    (hout : d.cyc.outputsOn = true) (hpend : d.cyc.outPending = true) (hrun : d.cyc.running = true) (hlate : d.cyc.late = false)
    (hdone : d.cyc.execDone = true) : (d.outputWrite carrier).cyc.outs = outputsOf d.cyc.work
      ∧ (d.outputWrite carrier).regN Reg.FUM_CYC_FLAGS = flagsOf d.cyc.work ∧ (d.outputWrite carrier).cyc.outPending = false := by
  have writes : d.outputWrite carrier = (d.modCyc (fun c => { c with outPending := false })).writeOutputs.sendOutputs p carrier := by
    simp [Dev.outputWrite, hp, hdue, hout, hpend, hrun, hlate, hdone]
  rw [writes]
  obtain ⟨outs, flags, pending⟩ := writeOutputs_latches (d.modCyc (fun c => { c with outPending := false }))
  obtain ⟨outs', flags', pending'⟩ := sendOutputs_kept (d.modCyc (fun c => { c with outPending := false })).writeOutputs p carrier
  exact ⟨outs'.trans outs, flags'.trans flags, pending'.trans pending⟩

/-! ## Lockstep, late frames and replies (R293, R310, R311) -/

/-- A lockstep mismatch is counted, and puts the program in FAULT before its error is raised. -/
theorem lockstep_faults {d : Dev} (hroom : d.saf.queue.length < 16) (hnone : d.saf.queue.all (fun e => decide (e.cls ≠ eLockstep)) = true) :
    (((d.count Reg.CYC_LOCKSTEP).cycHalt 2 (some 1)).raise eLockstep 0 4).faulted
      ∧ (((d.count Reg.CYC_LOCKSTEP).cycHalt 2 (some 1)).raise eLockstep 0 4).regN Reg.CYC_LOCKSTEP
        = (d.regN Reg.CYC_LOCKSTEP + 1) % 2 ^ 32 := by
  obtain ⟨halt, fault⟩ := cycHalt_fault (d.count Reg.CYC_LOCKSTEP) 1
  have queue : ((d.count Reg.CYC_LOCKSTEP).cycHalt 2 (some 1)).saf.queue = d.saf.queue := by rw [only_saf halt (by simp)]; rfl
  have raised := raise_first_only (d := (d.count Reg.CYC_LOCKSTEP).cycHalt 2 (some 1)) (by rw [queue]; exact hroom) (by rw [queue]; exact hnone)
    (by decide : initialLevel eLockstep ≠ 3) 0 4 sOk
  refine ⟨faulted_of_only raised (by simp) (by decide) fault, ?_⟩
  have apart : ¬ (eventReg Reg.CYC_LOCKSTEP ∨ Reg.CYC_LOCKSTEP ∈ [Reg.FUM_CYC_FLAGS, Reg.CYC_STATUS]) :=
    not_or.mpr ⟨not_eventReg (by decide), by decide⟩
  rw [only_regN raised (by decide), only_regN halt apart, regN_count, if_pos rfl]

/-- A frame not started within 200 µs is discarded and counted. -/
theorem fieldLate_discards {d : Dev} {g : Nat} {x : FieldTx} (htx : (d.field g).tx = some x) (hatt : x.attempts = 0)
    (hlate : x.outAt + 200000 ≤ d.up) : ((d.fieldLate g true).field g).tx = none
      ∧ (d.fieldLate g true).regN Reg.RIO_OUT_LATE = (d.regN Reg.RIO_OUT_LATE + 1) % 2 ^ 32 := by
  have late : x.isLate d.up true = true := by simp [FieldTx.isLate, hatt, hlate]
  have eq : d.fieldLate g true = (d.setFieldTx g none).count Reg.RIO_OUT_LATE := by simp only [Dev.fieldLate, htx, late, if_true]
  rw [eq]
  exact ⟨tx_setFieldTx_none d g, (regN_count _ _ _ _).trans (if_pos rfl)⟩

theorem station_setStation_same (d : Dev) (n : Nat) (x : StationSt) : (d.setStation n x).station n = x := by
  simp [Dev.station, Dev.setStation, Tbl.getD]

/-- A good reply to the segment's present OUTPUT frame, before the next boundary, is kept for the next input read. -/
theorem stationReply_keeps {d : Dev} {g n : Nat} {b : Bytes} {x : StationSt}
    (hframe : 28 ≤ b.length ∧ slice b 0 1 = [2] ∧ beNat (slice b 24 4) = crc32 (b.take 24))
    (hcycle : (d.cyc.outCycle[g]?).join = some (beNat (slice b 4 4)))
    (hhit : d.cyc.stations.find? (fun y => y.2.entry.any (fun e => decide (e.seg = g ∧ e.addr = beNat (slice b 1 1) % 16
      ∧ e.nMod = beNat (slice b 2 1) % 16))) = some (n, x))
    (htime : d.gNs < d.cyc.nextBoundary * 250000) :
    ((d.stationReply g true b).station n).reply.map (fun r => r.inputs) = some (beNat (slice b 8 8)) := by
  obtain ⟨hlen, hkind, hcrc⟩ := hframe
  have kind : beNat (slice b 0 1) = 2 := by rw [hkind]; rfl
  simp only [Dev.stationReply, hlen, kind, hcrc, hcycle, hhit, htime, decide_true, Bool.and_self, station_setStation_same]
  rfl

/-! ## Retained saves (R317, R318) -/

theorem retSave_starts {k : KeySt} {d : Dev} {x : RetCopy} (hdue : d.cyc.retDue = some x) (hnone : d.cyc.saving = none)
    (hfree : d.mramTaken k = false) : d.retSave k = d.startRetSave x := by
  simp [Dev.retSave, hdue, hnone, hfree]

/-- A save whose read-back matched commits its slot and is counted. -/
theorem retSaved_commits {d : Dev} {i : Nat} {x : RetSlot} (hsave : d.cyc.saving = some (i, x)) (hi : i < d.cyc.retSlots.length) :
    (d.retSaved true).cyc.retSlots[i]? = some (some x) ∧ (d.retSaved true).cyc.saving = none
      ∧ (d.retSaved true).reg64 Reg.CYC_RET_SAVES_LO = (d.reg64 Reg.CYC_RET_SAVES_LO + 1) % 2 ^ 64 := by
  simp only [Dev.retSaved, hsave, if_true]
  refine ⟨?_, rfl, reg64_count64_same _ _ _⟩
  show (modifyAt d.cyc.retSlots i (fun _ => some x))[i]? = some (some x)
  rw [getElem?_modifyAt_same, List.getElem?_eq_getElem hi]
  rfl

/-! ## RIO_CTRL (R323) -/

theorem fieldsAt_rioCtrl : fieldsAt Reg.RIO_CTRL = [⟨0, 2, .rw, .any⟩] := by decide +kernel

/-- RIO_CTRL takes SEG_EN from the written word, whatever it is. -/
theorem writePlain_rioCtrl (d : Dev) (v : Word) :
    d.writePlain Reg.RIO_CTRL v = d.setFld Fld.RIO_CTRL_SEG_EN (bitsAt v 0 2) := by
  have res : d.writeRes Reg.RIO_CTRL v = { word := withBits (d.reg Reg.RIO_CTRL) 0 2 (bitsAt v 0 2) } := by
    simp only [Dev.writeRes, fieldsAt_rioCtrl]
    rfl
  simp only [Dev.writePlain, res]
  rfl

theorem writeRioCtrl_segEn {d : Dev} (v : Word) (hg : d.gatedAt Reg.RIO_CTRL = false) :
    (writeRioCtrl v d).fld Fld.RIO_CTRL_SEG_EN = v.toNat % 4 := by
  rw [writeRioCtrl, if_neg (by simp [hg]), writePlain_rioCtrl, Dev.fld_setFld_same _ _ _ (by decide)]
  simp [bitsAt, Fld.RIO_CTRL_SEG_EN]

/-! ## The rows -/

/-- Settles O56: each row by what it does to the cycle, a segment, a station or a retained slot. -/
theorem cycleRowsComplete : Obligations.CycleRowsComplete := by
  unfold Obligations.CycleRowsComplete
  refine ⟨?_, ?_, ?_, ?_, ?_, ?_, ?_, ?_, ?_, ?_⟩
  · rintro s dt d p rfl hp ⟨hout, hdue⟩ ⟨hrun, hstop, hlate, hsw⟩
    exact ⟨_, rfl, rfl, cycleBoundary_begins hp hout hdue hrun hstop hlate hsw⟩
  · rintro s dt d w r rfl ⟨hrun, hexec, hdone⟩
    exact ⟨_, rfl, rfl, execDone_counts hrun hexec hdone⟩
  · rintro s dt carrier d p rfl ⟨hp, hdue⟩ ⟨hout, hpend⟩ ⟨hrun, hlate, hdone⟩
    exact ⟨_, rfl, rfl, outputWrite_latches carrier hp hdue hout hpend hrun hlate hdone⟩
  · rintro s dt d rfl hdue
    obtain ⟨-, fault⟩ := cycHalt_fault (later s.dev dt) 0
    generalize halted : (later s.dev dt).cycHalt 2 (some 0) = x at fault
    exact exists_run_row (f := fun _ d => if d.cycFaultDue then d.cycHalt 2 (some 0) else d) ((if_pos hdue).trans halted) fault
  · rintro s dt d rfl ⟨hrun, hexec⟩ ⟨hroom, hnone⟩
    obtain ⟨⟨state, stopped, -⟩, counted⟩ := lockstep_faults hroom hnone
    generalize raised : (((later s.dev dt).count Reg.CYC_LOCKSTEP).cycHalt 2 (some 1)).raise eLockstep 0 4 = x at state stopped counted
    have mismatch : ((later s.dev dt).cyc.running && (later s.dev dt).cyc.executing) = true := by rw [hrun, hexec]; rfl
    exact exists_run_row (f := fun _ d => if d.cyc.running && d.cyc.executing then
      ((d.count Reg.CYC_LOCKSTEP).cycHalt 2 (some 1)).raise eLockstep 0 4 else d) ((if_pos mismatch).trans raised) ⟨state, stopped, counted⟩
  · rintro s dt g d x rfl htx ⟨hatt, hlate⟩
    exact ⟨_, rfl, rfl, fieldLate_discards htx hatt hlate⟩
  · rintro s dt g b d n x e rfl hframe hcycle hhit ⟨-, htime⟩
    exact ⟨_, rfl, rfl, stationReply_keeps hframe hcycle hhit htime⟩
  · rintro s dt d x rfl ⟨hdue, hnone, hfree⟩
    exact exists_run_row (f := fun k d => d.retSave k) (retSave_starts hdue hnone hfree) rfl
  · rintro s dt i d x rfl ⟨hsave, hi⟩
    exact ⟨_, rfl, rfl, retSaved_commits hsave hi⟩
  · intro s v hg
    exact ⟨_, rfl, rfl, writeRioCtrl_segEn v hg⟩

end Sys2Proof.Machine
end

section
/-! The statement about the cycle's events (O14), which does not keep to waiting commands of rings that exist (R300, R324, R453). -/

namespace Sys2Proof.Machine

open Sys2Proof

/-! ## A CYC_STOP that waits on a ring beyond the 32 -/

/-- A program with a cycle of 1 ms. -/
def briefProgram : Program :=
  { codeLen := 4, retLen := 0, entry := 0, period := 4, outAt := 400, wcet := 100, layoutId := 0, programId := 1, code := [0, 0, 0, 0]
    retInit := [], values := [], insts := [] }

/-- The program runs, and 1 ms has brought the boundary at which it is to stop with its outputs held. The CYC_STOP waits on ring 32, whose STAT
would read running. -/
def strayStop : State :=
  { key := {}, pending := [], dev :=
    { regs := [(Reg.HIF_RINGn_STAT 32, 1), (Reg.CYC_STATUS, 1)]
      hif := { waiting := [{ ring := 32, k := 0, session := 0, resAddr := 0, kind := .cycStop, since := 0 }] }
      cyc := { banks := [some briefProgram, none], nextBoundary := 4, running := true, outputsOn := true, stopReq := some 0 }
      tim := { acc := 1000000 * 2 ^ 40 } } }

theorem strayStop_program : (later strayStop.dev 0).program = some briefProgram := by decide +kernel

theorem strayStop_boundaryDue : (later strayStop.dev 0).boundaryDue briefProgram.period = true := by decide +kernel

/-- The completion counts in the register that would be DONE of ring 32. -/
theorem strayStop_done :
    (later strayStop.dev 0).cycleBoundary.reg (Reg.HIF_RINGn_DONE 32) ≠ (later strayStop.dev 0).reg (Reg.HIF_RINGn_DONE 32) := by
  decide +kernel

/-- Refutes O14: its clause on a boundary that stops the program does not ask that the rings of the waiting commands exist. The CYC_STOP that
waits on ring 32 completes, and the register that would be DONE of that ring counts, which is none of those the clause names. -/
theorem not_cycleEventsTakeEffect : ¬ Obligations.CycleEventsTakeEffect := by
  unfold Obligations.CycleEventsTakeEffect
  rintro ⟨-, boundaryStops, -⟩
  obtain ⟨t, step, ⟨-, -, -, regs⟩, -⟩ :=
    boundaryStops strayStop 0 _ briefProgram rfl strayStop_program ⟨rfl, strayStop_boundaryDue⟩ ⟨rfl, rfl⟩
  rw [dev_of_run (f := fun _ d => d.cycleBoundary) step] at regs
  refine strayStop_done (regs (Reg.HIF_RINGn_DONE 32) ?_)
  rintro (h | h)
  · exact not_eventReg_done32 (.inl h)
  · revert h; decide

end Sys2Proof.Machine
end

section
/-! The statement about the commands of the cyclic logic (O15): the checks of each, in their order, decide between its effect and its status
(R296, R299, R312, R319 to R321, R324). -/

namespace Sys2Proof.Machine

open Sys2Proof

/-! ## CYC_LOAD (R296) -/

section Load

variable {k : KeySt} {d : Dev} {img : Bytes}

theorem cycLoad_verified (hsw : d.cyc.switch = none) (hauth : imageAuth k img (d.fld Fld.CYC_CFG_KEY_SLOT) 64 124 = none) :
    cycLoad img k d = (d.setCodeBank (1 - d.fld Fld.CYC_STATUS_BANK) (if programFits img then some (programOf img) else none),
      if programFits img then .ok else .done sRange 0) := by
  simp only [cycLoad, hsw, hauth, Option.isSome_none, Bool.false_eq_true, if_false]
  split <;> rfl

theorem cycLoad_unverified {st : Nat} (hsw : d.cyc.switch = none)
    (hauth : imageAuth k img (d.fld Fld.CYC_CFG_KEY_SLOT) 64 124 = some st) :
    cycLoad img k d = ((d.setCodeBank (1 - d.fld Fld.CYC_STATUS_BANK) none).countUse (.error st), .done st 0) := by
  simp only [cycLoad, hsw, hauth, Option.isSome_none, Bool.false_eq_true, if_false]

theorem cycLoad_switchPending {x : Nat × Bool} (hsw : d.cyc.switch = some x) : cycLoad img k d = (d, .done sBusy 0) :=
  if_pos (by rw [hsw]; rfl)

end Load

/-! ## CYC_START and CYC_STOP (R299, R319, R324) -/

section Start

variable {d : Dev} {init : Bool} {p : Program}

theorem cycStart_starts {d1 : Dev} (hsafe : d.bit Fld.SAF_STATUS_SAFE = false) (hrun : d.cyc.running = false) (hp : d.program = some p)
    (hfit : p.fitsCycle d.stationsNow = true) (hret : d.retSetup p init = some d1) :
    cycStart init d = (d1.startProgram p, .wait .cycStart) := by
  simp only [cycStart, hsafe, hrun, hp, hfit, hret, Bool.false_eq_true, Bool.true_eq_false, if_false]

/-- The status of a CYC_START that is refused. -/
def Dev.startStatus (d : Dev) : Nat :=
  if d.bit Fld.SAF_STATUS_SAFE then sSafeState else if d.cyc.running then sBusy else if d.program.isNone then sNotValid
  else if d.program.any (fun p : Program => !p.fitsCycle d.stationsNow) then sRange else sRetMismatch

theorem cycStart_refused (h : d.bit Fld.SAF_STATUS_SAFE = true ∨ d.cyc.running = true ∨ d.program = none
    ∨ d.program.any (fun p : Program => !p.fitsCycle d.stationsNow || (d.retSetup p init).isNone) = true) :
    cycStart init d = (d, .done d.startStatus 0) := by
  cases hsafe : d.bit Fld.SAF_STATUS_SAFE with
  | true => simp [cycStart, Dev.startStatus, hsafe]
  | false =>
    cases hrun : d.cyc.running with
    | true => simp [cycStart, Dev.startStatus, hsafe, hrun]
    | false =>
      cases hp : d.program with
      | none => simp [cycStart, Dev.startStatus, hsafe, hrun, hp]
      | some p =>
        cases hfit : p.fitsCycle d.stationsNow with
        | false => simp [cycStart, Dev.startStatus, hsafe, hrun, hp, hfit]
        | true =>
          have hret : d.retSetup p init = none := by simpa [hsafe, hrun, hp, hfit] using h
          simp [cycStart, Dev.startStatus, hsafe, hrun, hp, hfit, hret]

theorem cycStop_running {mode : Nat} (hmode : mode ≤ 1) (hrun : d.cyc.running = true) :
    cycStop mode d = (d.modCyc (fun x => { x with stopReq := some (max mode (x.stopReq.getD 0)) }), .wait .cycStop) := by
  rw [cycStop, if_neg (not_lt.mpr hmode), if_pos hrun]

end Start

/-! ## CYC_SWITCH (R320, R321) -/

section Switch

variable {d : Dev} {target : Nat} {init : Bool} {q : Program}

/-- No check on the device's own state refuses a CYC_SWITCH. -/
def Dev.switchFree (d : Dev) : Prop :=
  d.bit Fld.SAF_STATUS_SAFE = false ∧ d.waitsFor (fun w => decide (w = WaitKind.cycSwitch)) = false ∧ d.cyc.switch = none

/-- A switch to a program that meets R299: RET_INIT or the same layout decides whether it is made, and whether a program runs decides when. -/
theorem cycSwitch_fitting (hfree : d.switchFree) (hq : d.otherProgram = some q) (hfit : q.fitsCycle d.stationsNow = true) :
    cycSwitch target init d
      = if !init && d.program.any (fun o => decide (o.layoutId ≠ q.layoutId)) then (d, .done sRetMismatch 0)
        else if d.cyc.running then
          ((d.modCyc (fun c => { c with switch := some (target, init) })).setBit Fld.CYC_STATUS_SWITCH_PEND true, .wait .cycSwitch)
        else (d.exchange d.program q init, .wait .cycSwitch) := by
  obtain ⟨hsafe, hwait, hsw⟩ := hfree
  simp only [cycSwitch, hsafe, hwait, hsw, hq, hfit, Option.isSome_none, Bool.or_self, Bool.false_eq_true, Bool.true_eq_false, if_false]

theorem cycSwitch_pends {p : Program} (hfree : d.switchFree) (hq : d.otherProgram = some q) (hfit : q.fitsCycle d.stationsNow = true)
    (hrun : d.cyc.running = true) (hp : d.program = some p) (hlay : init = true ∨ p.layoutId = q.layoutId) :
    cycSwitch target init d
      = ((d.modCyc (fun x => { x with switch := some (target, init) })).setBit Fld.CYC_STATUS_SWITCH_PEND true, .wait .cycSwitch) := by
  have same : (!init && d.program.any (fun o => decide (o.layoutId ≠ q.layoutId))) = false := by
    rcases hlay with rfl | h
    · rfl
    · simp [hp, h]
  rw [cycSwitch_fitting hfree hq hfit, same, if_neg Bool.false_ne_true, if_pos hrun]

theorem cycSwitch_exchanges (hfree : d.switchFree) (hq : d.otherProgram = some q) (hfit : q.fitsCycle d.stationsNow = true)
    (hrun : d.cyc.running = false) (hlay : init = true ∨ d.program.all (fun p => decide (p.layoutId = q.layoutId)) = true) :
    cycSwitch target init d = (d.exchange d.program q init, .wait .cycSwitch) := by
  have same : (!init && d.program.any (fun o => decide (o.layoutId ≠ q.layoutId))) = false := by
    rcases hlay with rfl | h
    · rfl
    · cases hp : d.program with
      | none => simp
      | some p => simpa [hp] using fun _ => by simpa [hp] using h
  rw [cycSwitch_fitting hfree hq hfit, same, if_neg Bool.false_ne_true, hrun, if_neg Bool.false_ne_true]

theorem cycSwitch_otherLayout {p : Program} (hfree : d.switchFree) (hq : d.otherProgram = some q) (hfit : q.fitsCycle d.stationsNow = true)
    (hp : d.program = some p) (hlay : p.layoutId ≠ q.layoutId) : cycSwitch target false d = (d, .done sRetMismatch 0) := by
  rw [cycSwitch_fitting hfree hq hfit, if_pos (by simp [hp, hlay])]

/-- The status of a CYC_SWITCH that is refused before the layouts are compared. -/
def Dev.switchStatus (d : Dev) : Nat :=
  if d.bit Fld.SAF_STATUS_SAFE then sSafeState
  else if d.waitsFor (fun w => decide (w = WaitKind.cycSwitch)) || d.cyc.switch.isSome then sBusy
  else if d.otherProgram.isNone then sNotValid else sRange

theorem cycSwitch_refused (h : d.bit Fld.SAF_STATUS_SAFE = true ∨ d.waitsFor (fun w => decide (w = WaitKind.cycSwitch)) = true
    ∨ d.cyc.switch.isSome = true ∨ d.otherProgram = none ∨ d.otherProgram.any (fun p : Program => !p.fitsCycle d.stationsNow) = true) :
    cycSwitch target init d = (d, .done d.switchStatus 0) := by
  cases hsafe : d.bit Fld.SAF_STATUS_SAFE with
  | true => simp [cycSwitch, Dev.switchStatus, hsafe]
  | false =>
    cases hbusy : d.waitsFor (fun w => decide (w = WaitKind.cycSwitch)) || d.cyc.switch.isSome with
    | true => simp only [cycSwitch, Dev.switchStatus, hsafe, hbusy, Bool.false_eq_true, if_false, if_true]
    | false =>
      cases hq : d.otherProgram with
      | none => simp only [cycSwitch, Dev.switchStatus, hsafe, hbusy, hq, Option.isNone_none, Bool.false_eq_true, if_false, if_true]
      | some q =>
        obtain ⟨hwait, hsw⟩ := Bool.or_eq_false_iff.mp hbusy
        have hfit : q.fitsCycle d.stationsNow = false := by simpa [hsafe, hwait, hsw, hq] using h
        simp only [cycSwitch, Dev.switchStatus, hsafe, hbusy, hq, hfit, Option.isNone_some, Bool.false_eq_true, if_false, if_true]

end Switch

/-! ## RIO_STATION_SET (R299, R312) -/

section Station

variable {d : Dev} {n : Nat} {image : Bytes}

/-- What an image makes of a station's entry: VALID 0 removes it. -/
def entryOf (image : Bytes) : Option StationEntry := if (fieldAt image 0 1).testBit 0 then some (stationOf image) else none

/-- The entries of the other stations once their pending changes have taken effect. -/
def Dev.otherStations (d : Dev) (n : Nat) : List StationEntry :=
  d.cyc.stations.filterMap (fun (x : Nat × StationSt) => if x.1 = n then none else x.2.newest)

/-- An image that RIO_STATION_SET refuses: out of range, at an address that is taken, or against R299. -/
def Dev.badStation (d : Dev) (n : Nat) (image : Bytes) : Bool :=
  decide (31 < n) || resvSet stationResv image || !(stationOf image).fits
    || (entryOf image).any (fun e => (d.otherStations n).any (fun o => decide (o.seg = e.seg ∧ o.addr = e.addr)))
    || (d.cyc.running && d.program.any (fun p => !p.fitsCycle ((entryOf image).toList ++ d.otherStations n)))

/-- A station with its entry to come, which takes effect at once where no OUTPUT frames are sent. -/
def Dev.changeStation (d : Dev) (n : Nat) (new : Option StationEntry) : Dev :=
  if d.cyc.outputsOn then d.setStation n { d.station n with next := some new }
  else (d.setStation n { d.station n with next := some new }).stationsTake

theorem rioStationSet_eq : rioStationSet n image d
    = if d.badStation n image then (d, .done sRange 0) else (d.changeStation n (entryOf image), .ok) := rfl

theorem rioStationSet_taken {new : Option StationEntry} (hnew : entryOf image = new) (hn : n < 32) (hresv : resvSet stationResv image = false)
    (hfit : (stationOf image).fits = true)
    (hplace : new.any (fun e => (d.otherStations n).any (fun o => decide (o.seg = e.seg ∧ o.addr = e.addr))) = false)
    (hcycle : d.cyc.running = false ∨ d.program.any (fun p => !p.fitsCycle (new.toList ++ d.otherStations n)) = false) :
    rioStationSet n image d = (d.changeStation n new, .ok) := by
  subst hnew
  have good : d.badStation n image = false := by
    have inRange : decide (31 < n) = false := decide_eq_false (by omega)
    rw [Dev.badStation, inRange, hresv, hfit, hplace]
    rcases hcycle with h | h <;> simp only [h, Bool.not_true, Bool.or_self, Bool.false_and, Bool.and_false]
  rw [rioStationSet_eq, good, if_neg Bool.false_ne_true]

theorem rioStationSet_refused (h : 31 < n ∨ resvSet stationResv image = true ∨ (stationOf image).fits = false
    ∨ ((fieldAt image 0 1).testBit 0 = true
      ∧ ((d.otherStations n).any (fun o => decide (o.seg = (stationOf image).seg ∧ o.addr = (stationOf image).addr)) = true
        ∨ (d.cyc.running = true ∧ d.program.any (fun p : Program => !p.fitsCycle (stationOf image :: d.otherStations n)) = true)))) :
    rioStationSet n image d = (d, .done sRange 0) := by
  have bad : d.badStation n image = true := by
    rcases h with h | h | h | ⟨valid, h⟩
    · simp [Dev.badStation, h]
    · simp [Dev.badStation, h]
    · simp [Dev.badStation, h]
    · have new : entryOf image = some (stationOf image) := if_pos valid
      rw [Dev.badStation, new]
      rcases h with taken | ⟨run, late⟩
      · simp only [Option.any_some, taken, Bool.or_true, Bool.true_or]
      · simp only [Option.toList_some, List.cons_append, List.nil_append, run, late, Bool.and_self, Bool.or_true]
  rw [rioStationSet_eq, if_pos bad]

end Station

theorem rioRead_eq (buf : HostBuf) (d : Dev) : rioRead buf d
    = (d, if buf.len < 1024 then .done sRange 0 else .block (slice d.cyc.stationImage 0 1024) (some buf.addr)) := by
  rw [rioRead]
  split <;> rfl

/-! ## The rows on a ring -/

/-- Settles O15: each command is accepted; its checks, in their order, decide between its effect and its status. -/
theorem cycleCommandsComplete : Obligations.CycleCommandsComplete := by
  unfold Obligations.CycleCommandsComplete
  refine ⟨?_, ?_, ?_, ?_, ?_, ?_, ?_, ?_, ?_, ?_, ?_, ?_, ?_, ?_⟩
  · rintro s c d img hr rfl hsw hauth
    refine (run_accept_ready (cycLoad img) hr).trans ?_
    rw [cycLoad_verified hsw hauth]
  · rintro s c d img st hr rfl hsw hauth
    refine (run_accept_ready (cycLoad img) hr).trans ?_
    rw [cycLoad_unverified hsw hauth]
  · rintro s c d img x hr rfl hsw
    refine (run_accept_ready (cycLoad img) hr).trans ?_
    rw [cycLoad_switchPending hsw]
  · rintro s c d d1 init p hr rfl ⟨hsafe, hrun⟩ ⟨hp, hfit⟩ hret
    exact exec_of_gatedAccept hr rfl (cycStart_starts hsafe hrun hp hfit hret)
  · rintro s c d init hr rfl h
    exact exec_of_gatedAccept hr rfl (cycStart_refused h)
  · rintro s c d mode hr rfl ⟨hmode, hrun⟩
    exact exec_of_gatedAccept hr rfl (cycStop_running hmode hrun)
  · rintro s c d target init p q hr rfl hfree ⟨hq, hfit⟩ ⟨hrun, hp, hlay⟩
    refine (run_accept_ready (fun _ => cycSwitch target init) hr).trans ?_
    rw [cycSwitch_pends hfree hq hfit hrun hp hlay]
  · rintro s c d target init hr rfl h
    exact exec_of_gatedAccept hr rfl (cycSwitch_refused h)
  · rintro s c d target p q hr rfl hfree ⟨hq, hfit⟩ ⟨hp, hlay⟩
    exact exec_of_gatedAccept hr rfl (cycSwitch_otherLayout hfree hq hfit hp hlay)
  · rintro s c d n image es hr rfl rfl ⟨hn, valid, hresv, hfit⟩ hplace hcycle
    exact exec_of_gatedAccept hr rfl (rioStationSet_taken (if_pos valid) hn hresv hfit hplace hcycle)
  · rintro s c d n image es hr rfl rfl h
    exact exec_of_gatedAccept hr rfl (rioStationSet_refused h)
  · rintro s c d n image es hr rfl rfl ⟨hn, valid, hresv, hfit⟩ hcycle
    exact exec_of_gatedAccept hr rfl (rioStationSet_taken (if_neg (by simp [valid])) hn hresv hfit rfl hcycle)
  · rintro s c d buf hr rfl
    exact exec_of_gatedAccept hr rfl (rioRead_eq buf _)
  · rintro s c d target init q hr rfl hfree ⟨hq, hfit⟩ ⟨hrun, hlay⟩
    exact exec_of_gatedAccept hr rfl (cycSwitch_exchanges hfree hq hfit hrun hlay)

end Sys2Proof.Machine
end

section
/-! The statement about the engines' events (O16), which does not speak of the configuration lock (R16, R349, R562). -/

namespace Sys2Proof.Machine

open Sys2Proof

/-! ## A trace buffer's size written under the lock -/

/-- The device right after power-on reset, its configuration locked: SCH_TRACE_CFG.BUF_SIZE is 64, and DDR5 is not ready. -/
def lockedReset : State := { State.reset with dev := State.reset.dev.setBit Fld.GLB_STATUS_LOCKED true }

/-- A word for SCH_TRACE_CFG with EN 1 and BUF_SIZE 32. -/
def halfTrace : Word := 0x200001

theorem lockedReset_traceOff : (later lockedReset.dev 0).bit Fld.SCH_TRACE_CFG_EN = false
    ∧ (later lockedReset.dev 0).bit Fld.RST_STATUS_DDR_READY = false := by decide +kernel

/-- The lock discards the new BUF_SIZE, and the violation is counted (R562). -/
theorem lockedReset_violation :
    ((later lockedReset.dev 0).unlessGated Reg.SCH_TRACE_CFG (fun x => x.writeTraceCfg halfTrace)).reg Reg.GLB_LOCK_VIOL
      ≠ (later lockedReset.dev 0).reg Reg.GLB_LOCK_VIOL := by decide +kernel

/-- Refutes O16: its clauses on SCH_TRACE_ENABLE do not ask that the configuration is unlocked. BUF_SIZE is an RWL field, so a write that names
another size under the lock counts in GLB_LOCK_VIOL, which is none of the registers the clause names. -/
theorem not_engineEventsTakeEffect : ¬ Obligations.EngineEventsTakeEffect := by
  unfold Obligations.EngineEventsTakeEffect
  rintro ⟨-, traceStaysOff, -⟩
  obtain ⟨t, step, ⟨-, -, -, regs⟩, -⟩ :=
    traceStaysOff lockedReset halfTrace _ rfl (by decide +kernel) (by decide) lockedReset_traceOff
  have written : t.dev = (later lockedReset.dev 0).unlessGated Reg.SCH_TRACE_CFG (fun x => x.writeTraceCfg halfTrace) :=
    dev_of_run (f := fun _ d => d.unlessGated Reg.SCH_TRACE_CFG (fun x => x.writeTraceCfg halfTrace)) step
  rw [written] at regs
  exact lockedReset_violation (regs Reg.GLB_LOCK_VIOL (by decide))

end Sys2Proof.Machine
end

section
/-! The statement about the commands of the engines (O17), which does not keep to the rings that the part has (R344, R451, R471). -/

namespace Sys2Proof.Machine

open Sys2Proof

/-! ## A signal that leaves its ring -/

section Signal

variable {d : Dev} {n : Nat}

theorem ring_setRing_same (h : n < d.hif.rings.length) (r : RingSt) : (d.setRing n r).ring n = r := by
  simp [Dev.ring, Dev.setRing, getElem?_modifyAt_same, List.getElem?_eq_getElem h]

/-- A message that is sent at once leaves its ring disarmed (R471). -/
theorem judgeSignal_disarms (armed : d.bit (Fld.HIF_RINGn_STAT_ARMED n) = true) (unsignalled : 0 < (d.ring n).unsignalled)
    (atOnce : d.fld (Fld.HIF_RINGn_IRQ_MOD_US n) = 0) (expired : Bool) :
    (d.judgeSignal n expired).bit (Fld.HIF_RINGn_STAT_ARMED n) = false := by
  unfold Dev.judgeSignal
  extract_lets r modUs
  rw [if_pos (by simp [armed, modUs, atOnce, r, unsignalled])]
  exact Dev.bit_setBit_same _ (Fld.HIF_RINGn_STAT_ARMED n) false (by simp [Fld.HIF_RINGn_STAT_ARMED])
    (by simp [Fld.HIF_RINGn_STAT_ARMED])

/-- A completion on an armed ring without moderation leaves it disarmed. -/
theorem countDone_disarms (exist : n < d.hif.rings.length) (armed : d.bit (Fld.HIF_RINGn_STAT_ARMED n) = true)
    (atOnce : d.fld (Fld.HIF_RINGn_IRQ_MOD_US n) = 0) : (d.countDone n).bit (Fld.HIF_RINGn_STAT_ARMED n) = false := by
  have counted := count_only d (Reg.HIF_RINGn_DONE n) 1
  unfold Dev.countDone
  refine judgeSignal_disarms ?_ ?_ ?_ _
  · exact (only_bit counted (by simp [Fld.HIF_RINGn_STAT_ARMED, Reg.HIF_RINGn_STAT, Reg.HIF_RINGn_DONE])).trans armed
  · rw [ring_setRing_same (d := d.count (Reg.HIF_RINGn_DONE n)) exist]
    exact Nat.succ_pos _
  · exact (only_fld counted (by simp [Fld.HIF_RINGn_IRQ_MOD_US, Reg.HIF_RINGn_IRQ, Reg.HIF_RINGn_DONE])).trans atOnce

theorem complete_disarms (exist : n < d.hif.rings.length) (state : d.fld (Fld.HIF_RINGn_STAT_STATE n) = 1) (host : d.hostReady = true)
    (armed : d.bit (Fld.HIF_RINGn_STAT_ARMED n) = true) (atOnce : d.fld (Fld.HIF_RINGn_IRQ_MOD_US n) = 0) (k status result : Nat) :
    (d.complete n k (d.ring n).session status result 0 []).bit (Fld.HIF_RINGn_STAT_ARMED n) = false := by
  unfold Dev.complete
  simp only [state, host]
  rw [if_neg (by simp), if_neg (by simp)]
  refine countDone_disarms (d := Dev.emit _ _) ?_ armed atOnce
  simpa [Dev.setRing, length_modifyAt] using exist

end Signal

/-! ## A switch that starts, and ends at once (R344) -/

section Switch

variable {d : Dev}

/-- The device with a switch of a class begun. -/
def Dev.switchBegun (d : Dev) (cls : Nat) : Dev :=
  (d.modSch fun s => { s with switching := modifyAt d.sch.switching (bankIx cls) (fun _ => some ⟨d.bankOf cls, d.up⟩) }).setSwitching cls true

/-- ENG_SWITCH of a phasor engines' image that no item in service holds up. -/
theorem engSwitch_ends {im : EngImage} (safe : d.bit Fld.SAF_STATUS_SAFE = false) (still : (d.sch.switching[bankIx 0]?).join = none)
    (image : d.image 0 (1 - d.bankOf 0) = some im) (idle : d.sch.service = []) :
    engSwitch 0 d = ((d.switchBegun 0).finishSwitch 0, .ok) := by
  unfold engSwitch
  simp only [safe, still, image, idle]
  rfl

/-- An event that Sinter's MIN_SEV leaves out and no ring takes changes nothing (R499, R511). -/
theorem event_imageSwitch_unlogged (low : 1 < d.fld Fld.SNT_CFG_MIN_SEV) (index arg0 arg1 : Nat) :
    d.event .imageSwitch index arg0 arg1 = d := by
  simp [Dev.event, Ev.row, Dev.sinter, low]

/-- The device with a switch of a class ended, its event and its completions still to come. -/
def Dev.switchEnded (d : Dev) (cls old : Nat) : Dev :=
  (((d.modSch fun s => { s with
    switching := modifyAt d.sch.switching (bankIx cls) (fun _ => none)
    switchedAt := modifyAt d.sch.switchedAt (bankIx cls) (fun _ => some (d.up, old)) }).setBank cls (1 - old)).setSwitching cls false).count
      Reg.ENG_SWITCHES

theorem finishSwitch_unlogged {cls : Nat} {sw : Switch} (running : (d.sch.switching[bankIx cls]?).join = some sw)
    (idle : d.sch.service = []) (low : 1 < (d.switchEnded cls sw.old).fld Fld.SNT_CFG_MIN_SEV) :
    d.finishSwitch cls = (d.switchEnded cls sw.old).finishWaits (fun w => decide (w = .engSwitch cls)) sOk 0 := by
  unfold Dev.finishSwitch
  simp only [running, idle]
  exact congrArg (fun x => x.finishWaits (fun w => decide (w = .engSwitch cls)) sOk 0) (event_imageSwitch_unlogged low _ _ _)

/-- The one command that waits completes. -/
theorem finishWaits_one {p : WaitKind → Bool} {w : WaitCmd} (one : d.hif.waiting = [w]) (hit : p w.kind = true) (alive : w.dead = false)
    (status result : Nat) : d.finishWaits p status result
      = ({ d with hif := { d.hif with waiting := [] } } : Dev).complete w.ring w.k w.session status result 0 [] := by
  simp [Dev.finishWaits, one, hit, alive]

theorem exec_engSwitch {s : State} {c : Ctx} {cls : Nat} {r : CmdRes} (hr : ready s.dev c.ring true none)
    (h : engSwitch cls (fetched s.dev c.ring) = (d, r)) : exec (.engSwitch c cls) s = .next (served s c d r) :=
  exec_of_gatedAccept hr rfl h

end Switch

/-! ## A device with 22,529 rings -/

/-- STAT of ring 22528 would lie at ENG_SWITCHES, and 5 switches would read as ARMED. -/
theorem armed_of_fiveSwitches {d : Dev} (h : d.regN Reg.ENG_SWITCHES = 5) : d.bit (Fld.HIF_RINGn_STAT_ARMED 22528) = true := by
  have bit : d.bit (Fld.HIF_RINGn_STAT_ARMED 22528) = decide (d.regN Reg.ENG_SWITCHES / 2 ^ 2 % 2 ^ 1 ≠ 0) := rfl
  rw [bit, h]
  rfl

/-- The answer of a command on one of the 32 rings leaves ARMED of ring 22528. -/
theorem served_armed_22528 (s : State) {c : Ctx} (hc : c.ring < 32) (d : Dev) (r : CmdRes) :
    (served s c d r).dev.bit (Fld.HIF_RINGn_STAT_ARMED 22528) = d.bit (Fld.HIF_RINGn_STAT_ARMED 22528) :=
  only_bit (answer_only d c hc _ _ r) (not_signalReg (by decide))

/-- An ENG_SWITCH of class 0 that waits on ring 22528. -/
def strayWait : WaitCmd := { ring := 22528, k := 0, session := 0, resAddr := 0, kind := .engSwitch 0, since := 0 }

/-- COMMAND ring 0 of 22,529 runs with one descriptor posted, and bank 1 of the phasor engines holds an image. ENG_SWITCHES is 4: read as the STAT
of ring 22528 once it has counted, the ring runs and is armed. Sinter keeps events of severity 2 and 3. -/
def manyRings : State :=
  { key := {}, pending := [], dev :=
    { regs := [(Reg.HIF_STATUS, 1), (Reg.HIF_RINGn_CFG 0, 3), (Reg.HIF_RINGn_POSTED 0, 1), (Reg.HIF_RINGn_STAT 0, 1), (Reg.ENG_SWITCHES, 4),
        (Reg.SNT_CFG, 0x20000)]
      hif := { rings := List.replicate 22529 {}, waiting := [strayWait] }
      sch := { banks := [[none, some ⟨3, 0, true, []⟩], [none, none], [none, none]] } } }

theorem manyRings_ready : ready manyRings.dev ringZero.ring true none := by unfold ready; decide +kernel

/-- The device that has ended the switch, with nothing left waiting. -/
def manyRingsEnded : Dev :=
  let d := ((fetched manyRings.dev 0).switchBegun 0).switchEnded 0 0
  { d with hif := { d.hif with waiting := [] } }

theorem manyRingsEnded_rings : manyRingsEnded.hif.rings = modifyAt (List.replicate 22529 {}) 0 (fun _ => { next := 1, open_ := [0] }) := rfl

theorem manyRingsEnded_ring : manyRingsEnded.ring 22528 = {} := by
  rw [Dev.ring, manyRingsEnded_rings, getElem?_modifyAt_other _ _ (by decide), List.getElem?_replicate_of_lt (by decide)]
  rfl

/-- The device once the command on ring 22528 has completed. -/
def strayDone : Dev := manyRingsEnded.complete 22528 0 (manyRingsEnded.ring 22528).session sOk 0 0 []

theorem manyRings_switches : engSwitch 0 (fetched manyRings.dev 0) = (strayDone, .ok) := by
  rw [engSwitch_ends (im := ⟨3, 0, true, []⟩) (by decide +kernel) (by decide +kernel) (by decide +kernel) rfl,
    finishSwitch_unlogged (sw := ⟨0, 0⟩) (by decide +kernel) rfl (by decide +kernel), finishWaits_one rfl rfl rfl, strayDone,
    manyRingsEnded_ring]
  rfl

/-- The message of ring 22528 clears bit 2 of ENG_SWITCHES. -/
theorem strayDone_disarmed : strayDone.bit (Fld.HIF_RINGn_STAT_ARMED 22528) = false :=
  complete_disarms (by rw [manyRingsEnded_rings, length_modifyAt, List.length_replicate]; decide) (by decide +kernel) (by decide +kernel)
    (by decide +kernel) (by decide +kernel) _ _ _

/-- Refutes O17: its clause on a switch that ends at once does not ask that the device has no more than its 32 rings, nor that the rings of the
waiting commands exist. Where it has 22,529, STAT of the last would lie at ENG_SWITCHES; an ENG_SWITCH that waits there completes with the switch,
and its message clears ARMED, which is bit 2 of the 5 switches counted. -/
theorem not_engineCommandsComplete : ¬ Obligations.EngineCommandsComplete := by
  unfold Obligations.EngineCommandsComplete
  rintro ⟨-, -, -, -, switchEnds, -⟩
  obtain ⟨t, step, -, -, -, switches⟩ := switchEnds manyRings ringZero _ 0 ⟨3, 0, true, []⟩ rfl manyRings_ready (.inl rfl)
    (by decide +kernel) (by decide +kernel) (.inl rfl) (by decide +kernel)
  have answered := exec_engSwitch manyRings_ready manyRings_switches
  obtain rfl := Host.Outcome.next.inj (step.symm.trans answered)
  have fiveSwitches := switches.trans (show _ = 5 by decide +kernel)
  have armed := (served_armed_22528 manyRings (c := ringZero) (by decide) strayDone .ok).symm.trans (armed_of_fiveSwitches fiveSwitches)
  exact Bool.false_ne_true (strayDone_disarmed.symm.trans armed)

end Sys2Proof.Machine
end

section
/-! Proofs about every command: the queue, the answers, a ring that offers nothing, and the key store. -/

namespace Sys2Proof.Machine

open Sys2Proof

/-! ## What every command answers -/

/-- The check of the clock ratios lets a next state through as it is, and stops the machine where the ratios are broken. -/
theorem checkRatio_next (s : State) : checkRatio (.next s) = if s.dev.clk.ratioBroken then .fault .clockRatio else .next s := rfl

theorem checkRatio_of_sound {s : State} (h : s.dev.clk.ratioBroken = false) : checkRatio (.next s) = .next s := by simp [checkRatio_next, h]

/-- A next state that passes the check is the one checked. -/
theorem eq_of_checkRatio {s t : State} (h : checkRatio (.next s) = .next t) : s = t := by
  rw [checkRatio_next] at h
  split at h
  · cases h
  · cases h; rfl

/-- A command that answers a next state has run on the device and the key store. -/
theorem exec_next {s t : State} {c : Instr} (h : exec c s = .next t) : ∃ dt f, s.runKey dt f = .next t := by
  cases hw : canWarmReset c with
  | false =>
    obtain ⟨dt, f, e⟩ := exec_runKey s c hw
    exact ⟨dt, f, e.symm.trans h⟩
  | true =>
    obtain ⟨dt, f, e⟩ := exec_checkRatio s c hw
    exact ⟨dt, f, congrArg _ (eq_of_checkRatio (e.symm.trans h))⟩

theorem exec_pending {s t : State} {c : Instr} (h : exec c s = .next t) : t.pending = s.pending := by
  obtain ⟨_, _, e⟩ := exec_next h
  cases e; rfl

theorem step_of_front {s : State} {c : Instr} {rest : List Instr} (h : s.pending = c :: rest) : step s = exec c { s with pending := rest } := by
  simp [step, h]

theorem step_of_empty {s : State} (h : s.pending = []) : step s = .next s := by simp [step, h]

/-- Settles O43: the step looks at the front of the queue alone. -/
theorem stepRunsTheFrontCommand : Obligations.StepRunsTheFrontCommand :=
  ⟨fun _ _ _ => step_of_front, fun _ => step_of_empty⟩

/-- Settles O44: every command runs on the device and the key store, which do not hold the queue. -/
theorem commandsKeepTheQueue : Obligations.CommandsKeepTheQueue := by
  unfold Obligations.CommandsKeepTheQueue
  refine ⟨fun s t c => exec_pending, fun s t c rest hq h => ?_⟩
  rw [step_of_front hq] at h
  exact exec_pending h

/-- Settles O45: a command that no warm reset can follow has a next state, and the check of the ratios alone can stop the others. -/
theorem onlyWarmResetsStop : Obligations.OnlyWarmResetsStop := by
  unfold Obligations.OnlyWarmResetsStop
  have goesOn (s : State) (c : Instr) (h : canWarmReset c = false) : ∃ t, exec c s = .next t := by
    obtain ⟨dt, f, e⟩ := exec_runKey s c h
    exact ⟨_, e⟩
  have stops (s : State) (c : Instr) (h : canWarmReset c = true) : (∃ t, exec c s = .next t) ∨ exec c s = .fault .clockRatio := by
    obtain ⟨dt, f, e⟩ := exec_checkRatio s c h
    rw [e, State.runKey, checkRatio_next]
    split
    · exact .inr rfl
    · exact .inl ⟨_, rfl⟩
  refine ⟨fun s c r h => ?_, fun s c f h => ?_, goesOn⟩
  · cases hw : canWarmReset c with
    | false => obtain ⟨t, e⟩ := goesOn s c hw; cases e.symm.trans h
    | true =>
      rcases stops s c hw with ⟨t, e⟩ | e
      · cases e.symm.trans h
      · cases e.symm.trans h
  · cases hw : canWarmReset c with
    | false => obtain ⟨t, e⟩ := goesOn s c hw; cases e.symm.trans h
    | true =>
      rcases stops s c hw with ⟨t, e⟩ | e
      · cases e.symm.trans h
      · cases e.symm.trans h; exact ⟨rfl, rfl⟩

/-- Settles O50: such a command runs on the device alone. -/
theorem onlyKeyCommandsChangeKeys : Obligations.OnlyKeyCommandsChangeKeys := by
  unfold Obligations.OnlyKeyCommandsChangeKeys
  intro s t c hc h
  obtain ⟨dt, f, e⟩ := exec_run s c hc
  cases e.symm.trans h; rfl

/-! ## A ring that offers nothing -/

section Idle

variable {d : Dev} {c : Ctx} (h : d.offers c.ring = false)

include h

theorem accepts_of_not_offers : d.accepts c.ring = false := by simp [Dev.accepts, h]

theorem keyReenrol_idle (confirm : Nat) (k : KeySt) : keyReenrol c confirm k d = (k, d) := by
  simp [keyReenrol, accepts_of_not_offers h, accept_idle h]

theorem sntClear_idle (o : ClearOps) (steps : Nat) (k : KeySt) : sntClear c o steps k d = (k, d) := by
  simp [sntClear, accepts_of_not_offers h, accept_idle h]

theorem rstRequest_idle (kind confirm : Nat) (k : KeySt) : rstRequest c kind confirm k d = (k, d) := by
  simp [rstRequest, h]

end Idle

/-- A row that runs on the device and the key store and changes neither. -/
theorem runKey_idle {s : State} {f : KeySt → Dev → KeySt × Dev} (h : f s.key (later s.dev 0) = (s.key, later s.dev 0)) :
    s.runKey 0 f = .next { s with dev := later s.dev 0 } := by
  have e : s.runKey 0 f = .next { s with key := (f s.key (later s.dev 0)).1, dev := (f s.key (later s.dev 0)).2 } := rfl
  rw [e, h]

/-- Settles O46: the acceptance of a descriptor, KEY_REENROL, SNT_CLEAR and RST_REQUEST all look at what the ring offers first. -/
theorem idleRingChangesNothing : Obligations.IdleRingChangesNothing := by
  unfold Obligations.IdleRingChangesNothing
  intro s i c hc idle sound
  cases hk : changesKeys i with
  | false =>
    obtain ⟨w, g, f, e⟩ := exec_accept s i c hc hk
    rw [e]
    exact congrArg (fun d => Host.Outcome.next { s with dev := d }) (accept_idle idle w g _)
  | true =>
    cases i <;> first | (cases hc; done) | (cases hk; done) | skip
    case keyReenrol => cases hc; exact runKey_idle (keyReenrol_idle idle _ _)
    case sntClear => cases hc; exact runKey_idle (sntClear_idle idle _ _ _)
    case rstRequestCold => cases hc; exact runKey_idle (rstRequest_idle idle _ _ _)
    case rstRequestWarm =>
      cases hc
      exact (congrArg checkRatio (runKey_idle (rstRequest_idle idle _ _ _))).trans (checkRatio_of_sound sound)

end Sys2Proof.Machine
end

section
/-! Proofs about the key store: what each of its operations makes of a sound one. -/

namespace Sys2Proof.Machine

open Sys2Proof

/-! ## Tables whose entries are sound -/

/-- A table in canonical form whose entries satisfy `P`. -/
def tableSound {α : Type} (P : Nat → α → Prop) (t : Tbl α) : Prop := Tbl.wf t = true ∧ ∀ x ∈ t, P x.1 x.2

section Tables

variable {α β : Type} {P : Nat → α → Prop} {Q : Nat → β → Prop} {t : Tbl α}

theorem tableSound_nil : tableSound P [] := ⟨rfl, fun _ h => nomatch h⟩

theorem tableSound_put (h : tableSound P t) {n : Nat} {v : α} (hv : P n v) : tableSound P (t.put n v) :=
  ⟨Tbl.put_wf n v h.1, fun x hx => (Tbl.mem_put hx).elim (fun e => e ▸ hv) (h.2 x)⟩

theorem tableSound_mapVals (h : tableSound P t) {f : Nat → α → β} (hf : ∀ n v, P n v → Q n (f n v)) : tableSound Q (t.mapVals f) := by
  refine ⟨Tbl.mapVals_wf f h.1, fun x hx => ?_⟩
  obtain ⟨v, hv, e⟩ := Tbl.mem_mapVals hx
  exact e ▸ hf x.1 v (h.2 _ hv)

end Tables

theorem slotSound_zeroised {n : Nat} (h : n < 1024) {s : Slot} (hc : s.cur = none) (hn : s.next = none) : slotSound n s := ⟨h, .inr ⟨hc, hn⟩⟩
theorem cellSound_zeroised {n : Nat} (h : n < 1024) {c : KeyCell} (hc : c.cur = none) (hn : c.next = none) : cellSound n c :=
  ⟨h, .inr ⟨hc, hn⟩⟩

/-- A slot under the storage key has its state, and no key where it has none. -/
theorem cellSound_sealSlot {n : Nat} {s : Slot} (root : Option Bytes) (i : Nat) (h : slotSound n s) : cellSound n (sealSlot root i s) :=
  ⟨h.1, h.2.imp id (fun ⟨hc, hn⟩ => by simp [sealSlot, hc, hn])⟩

theorem slotSound_openCell {n : Nat} {c : KeyCell} (root : Option Bytes) (h : cellSound n c) : slotSound n (openCell root c) :=
  ⟨h.1, h.2.imp id (fun ⟨hc, hn⟩ => by simp [openCell, hc, hn])⟩

/-! ## Where a key store can go -/

/-- From `k` the key store may go to `k'`: where `k` is sound `k'` is, its counter has not fallen, RETURNED stays, and BLANK does not come
back. -/
def keyGoes (k k' : KeySt) : Prop :=
  keySound k → keySound k' ∧ k.counter ≤ k'.counter ∧ (k.lc = .returned → k'.lc = .returned) ∧ (k.lc ≠ .blank → k'.lc ≠ .blank)

theorem keyGoes_refl (k : KeySt) : keyGoes k k := fun h => ⟨h, le_rfl, id, id⟩

theorem keyGoes_trans {a b c : KeySt} (h : keyGoes a b) (h' : keyGoes b c) : keyGoes a c := by
  intro sound
  obtain ⟨sound, count, ret, blank⟩ := h sound
  obtain ⟨sound, count', ret', blank'⟩ := h' sound
  exact ⟨sound, count.trans count', ret' ∘ ret, blank' ∘ blank⟩

/-- Soundness by its parts: the two tables, then what the life-cycle state and the journal ask for. -/
theorem keySound_iff (k : KeySt) :
    keySound k ↔ tableSound slotSound k.slots ∧ tableSound cellSound k.cells
      ∧ (k.lc = .returned → k.slots = [] ∧ k.cells = [] ∧ k.root = none ∧ k.helper = [])
      ∧ (k.lc = .blank → k.slots = [] ∧ k.cells = [] ∧ k.journal = none)
      ∧ (k.enrolWaits = true → k.lc = .blank)
      ∧ (∀ j, k.journal = some j → j.state = .committed → k.counter ≤ j.counter ∧ changeSound k.lc j.change) := by
  simp only [keySound, tableSound, and_assoc]

/-- A key store whose tables, life-cycle state, root secret, helper data, journal and counter are the same. -/
theorem keyGoes_of_same {k k' : KeySt} (slots : k'.slots = k.slots := by rfl) (cells : k'.cells = k.cells := by rfl)
    (lc : k'.lc = k.lc := by rfl) (root : k'.root = k.root := by rfl) (helper : k'.helper = k.helper := by rfl)
    (journal : k'.journal = k.journal := by rfl) (waits : k'.enrolWaits = k.enrolWaits := by rfl)
    (counter : k'.counter = k.counter := by rfl) : keyGoes k k' := by
  intro h
  refine ⟨?_, counter ▸ le_rfl, fun e => lc ▸ e, fun e => lc ▸ e⟩
  simpa only [keySound, slots, cells, lc, root, helper, journal, waits, counter] using h

/-- What was committed may be done in any life-cycle state but RETURNED. -/
theorem changeSound_of_ne_returned {lc lc' : LifeCycle} {c : StoredChange} (h : changeSound lc c) (hlc : lc' ≠ .returned) :
    changeSound lc' c := by
  cases c with
  | setCell n c => exact ⟨h.1, hlc⟩
  | invalidate n => exact ⟨h.1, hlc⟩
  | lifecycle x => exact ⟨h.1, fun e => absurd e hlc⟩
  | ownerInit c => exact ⟨h.1, hlc⟩
  | counterOnly => trivial

/-! ## An enrolled key store -/

/-- A sound key store that is not BLANK, its journal aside. -/
def enrolledSound (k : KeySt) : Prop :=
  tableSound slotSound k.slots ∧ tableSound cellSound k.cells
    ∧ (k.lc = .returned → k.slots = [] ∧ k.cells = [] ∧ k.root = none ∧ k.helper = [])
    ∧ k.lc ≠ .blank ∧ k.enrolWaits = false

theorem enrolledSound_of_keySound {k : KeySt} (h : keySound k) (hlc : k.lc ≠ .blank) : enrolledSound k := by
  obtain ⟨slots, cells, ret, -, waits, -⟩ := (keySound_iff k).mp h
  exact ⟨slots, cells, ret, hlc, Bool.eq_false_iff.mpr (hlc ∘ waits)⟩

theorem keySound_of_enrolledSound {k : KeySt} (h : enrolledSound k)
    (journal : ∀ j, k.journal = some j → j.state = .committed → k.counter ≤ j.counter ∧ changeSound k.lc j.change) : keySound k := by
  obtain ⟨slots, cells, ret, hlc, waits⟩ := h
  exact (keySound_iff k).mpr ⟨slots, cells, ret, fun e => absurd e hlc, fun e => absurd e (by simp [waits]), journal⟩

/-- A journal record that is not committed asks for nothing. -/
theorem keySound_of_open {k : KeySt} {j : Journal} (h : enrolledSound k) (hj : k.journal = some j) (hs : j.state ≠ .committed) : keySound k :=
  keySound_of_enrolledSound h (fun i hi hc => by cases hj.symm.trans hi; exact absurd hc hs)

theorem keySound_of_committed {k : KeySt} {j : Journal} (h : enrolledSound k) (hj : k.journal = some j) (count : k.counter ≤ j.counter)
    (hs : changeSound k.lc j.change) : keySound k :=
  keySound_of_enrolledSound h (fun i hi _ => by cases hj.symm.trans hi; exact ⟨count, hs⟩)

/-- A change that the cache can take. -/
def changeFits : KeyChange → Prop
  | .setSlot n v => slotSound n v
  | .invalidate n => n < 1024
  | .lifecycle x => x ≠ .blank
  | .ownerInit v => slotSound 0 v
  | .counterOnly => True

/-- The same change, to MRAM and to the cache. -/
def sameChange : StoredChange → KeyChange → Prop
  | .setCell n _, .setSlot m _ => n = m
  | .invalidate n, .invalidate m => n = m
  | .lifecycle x, .lifecycle y => x = y
  | .ownerInit _, .ownerInit _ => True
  | .counterOnly, .counterOnly => True
  | _, _ => False

theorem sameChange_stored (k : KeySt) (c : KeyChange) : sameChange (k.stored c) c := by cases c <;> simp [sameChange, KeySt.stored]
theorem sameChange_opened (k : KeySt) (c : StoredChange) : sameChange c (k.opened c) := by cases c <;> simp [sameChange, KeySt.opened]

theorem changeSound_stored (k : KeySt) {c : KeyChange} {lc : LifeCycle} (h : changeFits c) (hlc : lc ≠ .returned) :
    changeSound lc (k.stored c) := by
  cases c with
  | setSlot n v => exact ⟨cellSound_sealSlot _ _ h, hlc⟩
  | invalidate n => exact ⟨h, hlc⟩
  | lifecycle x => exact ⟨h, fun e => absurd e hlc⟩
  | ownerInit v => exact ⟨cellSound_sealSlot _ _ h, hlc⟩
  | counterOnly => trivial

theorem changeFits_opened (k : KeySt) {c : StoredChange} {lc : LifeCycle} (h : changeSound lc c) : changeFits (k.opened c) := by
  cases c with
  | setCell n c => exact slotSound_openCell _ h.1
  | invalidate n => exact h.1
  | lifecycle x => exact h.1
  | ownerInit c => exact slotSound_openCell _ h.1
  | counterOnly => trivial

/-- The life-cycle state after a change. -/
def lcAfter (lc : LifeCycle) : StoredChange → LifeCycle
  | .lifecycle x => x
  | .ownerInit _ => .operational
  | _ => lc

theorem applyCache_lc (k : KeySt) (c : KeyChange) : (k.applyCache c).lc = k.lc := by
  rcases c with _ | _ | x | _ | _
  · rfl
  · rfl
  · cases x <;> rfl
  · rfl
  · rfl

theorem applyStored_lc (k : KeySt) (c : StoredChange) : (k.applyStored c).lc = lcAfter k.lc c := by
  rcases c with _ | _ | x | _ | _
  · rfl
  · rfl
  · cases x <;> rfl
  · rfl
  · rfl

theorem changeSound_lcAfter {lc : LifeCycle} {c : StoredChange} (h : changeSound lc c) : changeSound (lcAfter lc c) c := by
  cases c with
  | lifecycle x => exact ⟨h.1, id⟩
  | ownerInit c => exact ⟨h.1, by simp [lcAfter]⟩
  | _ => exact h

/-- A change that is sound keeps an enrolled store sound, in MRAM and in the cache. -/
theorem enrolledSound_apply {k : KeySt} {sc : StoredChange} {c : KeyChange} (h : enrolledSound k) (hs : changeSound k.lc sc)
    (hf : changeFits c) (same : sameChange sc c) : enrolledSound ((k.applyStored sc).applyCache c) := by
  obtain ⟨slots, cells, ret, hlc, waits⟩ := h
  match sc, c, same with
  | .setCell n cell, .setSlot _ v, rfl =>
    exact ⟨tableSound_put slots hf, tableSound_put cells hs.1, fun e => absurd e hs.2, hlc, waits⟩
  | .invalidate n, .invalidate _, rfl =>
    exact ⟨tableSound_put slots (slotSound_zeroised hf rfl rfl), tableSound_put cells (cellSound_zeroised hf rfl rfl),
      fun e => absurd e hs.2, hlc, waits⟩
  | .lifecycle x, .lifecycle _, rfl =>
    cases x with
    | blank => exact absurd rfl hf
    | provision => exact ⟨tableSound_nil, tableSound_nil, nofun, nofun, waits⟩
    | operational => exact ⟨slots, cells, nofun, nofun, waits⟩
    | maintenance => exact ⟨slots, cells, nofun, nofun, waits⟩
    | returned => exact ⟨tableSound_nil, tableSound_nil, fun _ => ⟨rfl, rfl, rfl, rfl⟩, nofun, waits⟩
  | .ownerInit cell, .ownerInit v, _ => exact ⟨tableSound_put slots hf, tableSound_put cells hs.1, nofun, nofun, waits⟩
  | .counterOnly, .counterOnly, _ => exact ⟨slots, cells, ret, hlc, waits⟩

theorem apply_lc (k : KeySt) (sc : StoredChange) (c : KeyChange) : ((k.applyStored sc).applyCache c).lc = lcAfter k.lc sc := by
  rw [applyCache_lc, applyStored_lc]

/-- A change that a RETURNED device may make leaves it RETURNED. -/
theorem lcAfter_returned {sc : StoredChange} (h : changeSound .returned sc) : lcAfter .returned sc = .returned := by
  cases sc with
  | lifecycle x => exact h.2 rfl
  | ownerInit c => exact absurd rfl h.2
  | _ => rfl

theorem lcAfter_ne_blank {lc : LifeCycle} {sc : StoredChange} (h : changeSound lc sc) (hlc : lc ≠ .blank) : lcAfter lc sc ≠ .blank := by
  cases sc with
  | lifecycle x => exact h.1
  | ownerInit c => nofun
  | _ => exact hlc

theorem applyCache_counter (k : KeySt) (c : KeyChange) : (k.applyCache c).counter = k.counter := by
  rcases c with _ | _ | x | _ | _
  · rfl
  · rfl
  · cases x <;> rfl
  · rfl
  · rfl

theorem applyStored_counter (k : KeySt) (c : StoredChange) : (k.applyStored c).counter = k.counter := by
  rcases c with _ | _ | x | _ | _
  · rfl
  · rfl
  · cases x <;> rfl
  · rfl
  · rfl

theorem apply_counter (k : KeySt) (sc : StoredChange) (c : KeyChange) : ((k.applyStored sc).applyCache c).counter = k.counter := by
  rw [applyCache_counter, applyStored_counter]

/-! ## The commit (R489, R490) -/

/-- A commit of a newer counter, of which any number of steps is written, keeps an enrolled store sound: the journal is committed before
the change is made, and the change still may be made after it. -/
theorem commit_goes {k : KeySt} {c : KeyChange} {counter : Nat} (kind target upTo : Nat) (blank : k.lc ≠ .blank) (returned : k.lc ≠ .returned)
    (newer : k.counter < counter) (hf : changeFits c) : keyGoes k (k.commit kind target counter c upTo) := by
  intro sound
  have enrolled := enrolledSound_of_keySound sound blank
  have hs : changeSound k.lc (k.stored c) := changeSound_stored k hf returned
  have applied := enrolledSound_apply (k := { k with seals := k.seals + 1, counter := counter }) enrolled hs hf (sameChange_stored k c)
  have lc := apply_lc { k with seals := k.seals + 1, counter := counter } (k.stored c) c
  have count := apply_counter { k with seals := k.seals + 1, counter := counter } (k.stored c) c
  have blank' : lcAfter k.lc (k.stored c) ≠ .blank := lcAfter_ne_blank hs blank
  unfold KeySt.commit
  dsimp only
  split
  · exact (keyGoes_of_same : keyGoes k _) sound
  · split
    · exact ⟨keySound_of_open enrolled rfl nofun, le_rfl, id, id⟩
    · split
      · exact ⟨keySound_of_committed enrolled rfl newer.le hs, le_rfl, id, id⟩
      · split
        · exact ⟨keySound_of_committed enrolled rfl le_rfl hs, newer.le, id, id⟩
        · split
          · exact ⟨keySound_of_committed applied rfl count.le (lc ▸ changeSound_lcAfter hs), newer.le.trans count.ge,
              fun e => absurd e returned, fun _ => lc ▸ blank'⟩
          · exact ⟨keySound_of_open applied rfl nofun, newer.le.trans count.ge, fun e => absurd e returned, fun _ => lc ▸ blank'⟩

/-! ## The sweep, the cache and resets (R484, R497) -/

theorem runSweep_goes (k : KeySt) : keyGoes k k.runSweep := by
  intro sound
  obtain ⟨slots, cells, ret, blank, waits, journal⟩ := (keySound_iff k).mp sound
  refine ⟨(keySound_iff _).mpr ⟨tableSound_mapVals slots ?_, tableSound_mapVals cells ?_, fun e => ?_, fun e => ?_, waits, journal⟩, le_rfl, id, id⟩
  · intro n s h
    split
    · exact slotSound_zeroised h.1 rfl rfl
    · exact h
  · intro n c h
    split
    · exact cellSound_zeroised h.1 rfl rfl
    · exact h
  · obtain ⟨hs, hc, hr, hh⟩ := ret e
    exact ⟨congrArg (Tbl.mapVals _) hs, congrArg (Tbl.mapVals _) hc, hr, hh⟩
  · obtain ⟨hs, hc, hj⟩ := blank e
    exact ⟨congrArg (Tbl.mapVals _) hs, congrArg (Tbl.mapVals _) hc, hj⟩

theorem loadCache_goes (k : KeySt) : keyGoes k k.loadCache := by
  intro sound
  obtain ⟨-, cells, ret, blank, waits, journal⟩ := (keySound_iff k).mp sound
  refine ⟨(keySound_iff _).mpr ⟨tableSound_mapVals cells (fun _ _ => slotSound_openCell _), cells, fun e => ?_, fun e => ?_, waits, journal⟩,
    le_rfl, id, id⟩
  · obtain ⟨-, hc, hr, hh⟩ := ret e
    exact ⟨congrArg (Tbl.mapVals _) hc, hc, hr, hh⟩
  · obtain ⟨-, hc, hj⟩ := blank e
    exact ⟨congrArg (Tbl.mapVals _) hc, hc, hj⟩

theorem afterReset_goes (k : KeySt) : keyGoes k k.afterReset := by
  intro sound
  obtain ⟨-, cells, ret, blank, -, journal⟩ := (keySound_iff k).mp sound
  refine ⟨(keySound_iff _).mpr ⟨tableSound_nil, cells, fun e => ?_, fun e => ?_, nofun, journal⟩, le_rfl, id, id⟩
  · obtain ⟨-, hc, -, hh⟩ := ret e
    exact ⟨rfl, hc, rfl, hh⟩
  · obtain ⟨-, hc, hj⟩ := blank e
    exact ⟨rfl, hc, hj⟩

/-! ## Enrolment and start (R476, R477, R491) -/

theorem enrol_goes {k : KeySt} (returned : k.lc ≠ .returned) : keyGoes k k.enrol := by
  intro sound
  obtain ⟨-, -, -, -, -, journal⟩ := (keySound_iff k).mp sound
  refine ⟨(keySound_iff _).mpr ⟨tableSound_nil, tableSound_nil, nofun, nofun, nofun, fun j hj hc => ?_⟩, le_rfl, fun e => absurd e returned,
    fun _ => nofun⟩
  exact ⟨(journal j hj hc).1, changeSound_of_ne_returned (journal j hj hc).2 nofun⟩

/-- Enrolment waits in BLANK only. -/
theorem waits_goes {k : KeySt} (blank : k.lc = .blank) : keyGoes k { k with enrolWaits := true } := by
  intro sound
  obtain ⟨slots, cells, ret, hb, -, journal⟩ := (keySound_iff k).mp sound
  exact ⟨(keySound_iff _).mpr ⟨slots, cells, ret, hb, fun _ => blank, journal⟩, le_rfl, id, id⟩

theorem enrolNow_goes {k : KeySt} (d : Dev) (h : k.lc = .blank ∨ (k.lc ≠ .returned ∧ k.trngFail = false)) : keyGoes k (enrolNow k d).1 := by
  unfold enrolNow
  split
  · rename_i fail
    exact waits_goes (h.resolve_right (fun x => by simp [fail] at x))
  · refine enrol_goes ?_
    rcases h with h | h
    · rw [h]; nofun
    · exact h.1

/-- The root secret may change in any state but RETURNED, and may go in that one too. -/
theorem root_goes {k k' : KeySt} (h : k.lc ≠ .returned ∨ k'.root = none) (slots : k'.slots = k.slots := by rfl)
    (cells : k'.cells = k.cells := by rfl) (lc : k'.lc = k.lc := by rfl) (helper : k'.helper = k.helper := by rfl)
    (journal : k'.journal = k.journal := by rfl) (waits : k'.enrolWaits = k.enrolWaits := by rfl)
    (counter : k'.counter = k.counter := by rfl) : keyGoes k k' := by
  intro sound
  refine ⟨?_, counter ▸ le_rfl, fun e => lc ▸ e, fun e => lc ▸ e⟩
  obtain ⟨hs, hc, ret, blank, hw, hj⟩ := (keySound_iff k).mp sound
  rw [keySound_iff, slots, cells, lc, helper, journal, waits, counter]
  refine ⟨hs, hc, fun e => ?_, blank, hw, hj⟩
  obtain ⟨a, b, -, e'⟩ := ret e
  exact ⟨a, b, h.resolve_left (fun x => x e), e'⟩

theorem startRoot_goes (k : KeySt) (d : Dev) : keyGoes k (startRoot k d).1 := by
  unfold startRoot
  split
  · exact enrolNow_goes d (.inl ‹_›)
  · split
    · exact root_goes (.inr rfl)
    · rename_i returned
      split
      · exact root_goes (.inr rfl)
      · dsimp only
        split
        · exact root_goes (.inl returned)
        · exact root_goes (.inr rfl)

/-- A journal record that is rolled back or is done asks for nothing more. -/
theorem journalDone_goes {k : KeySt} {j : Journal} (hj : k.journal = some j) :
    keyGoes k { k with journal := some { j with state := .done }, interrupted := false, lastRestart := 1 } := by
  intro sound
  obtain ⟨-, -, -, blank, -, -⟩ := (keySound_iff k).mp sound
  have notBlank : k.lc ≠ .blank := fun e => absurd (hj.symm.trans (blank e).2.2) nofun
  have enrolled := enrolledSound_of_keySound sound notBlank
  exact ⟨keySound_of_open enrolled rfl nofun, le_rfl, id, id⟩

/-- A committed record is rolled forward, with its counter. -/
theorem journalApplied_goes {k : KeySt} {j : Journal} (hj : k.journal = some j) (committed : j.state = .committed) :
    keyGoes k { (({ k with counter := j.counter }.applyStored j.change).applyCache (k.opened j.change)) with
      journal := some { j with state := .done }, interrupted := false, lastRestart := 2 } := by
  intro sound
  obtain ⟨-, -, -, blank, -, journal⟩ := (keySound_iff k).mp sound
  obtain ⟨newer, hs⟩ := journal j hj committed
  have notBlank : k.lc ≠ .blank := fun e => absurd (hj.symm.trans (blank e).2.2) nofun
  have enrolled := enrolledSound_of_keySound sound notBlank
  have applied := enrolledSound_apply (k := { k with counter := j.counter }) enrolled hs (changeFits_opened k hs) (sameChange_opened k j.change)
  have lc := apply_lc { k with counter := j.counter } j.change (k.opened j.change)
  have count := apply_counter { k with counter := j.counter } j.change (k.opened j.change)
  refine ⟨keySound_of_open applied rfl nofun, newer.trans count.ge, fun e => lc.trans ?_, fun _ => lc ▸ lcAfter_ne_blank hs notBlank⟩
  exact e ▸ lcAfter_returned (e ▸ hs)

theorem replayJournal_goes (k : KeySt) (d : Dev) : keyGoes k (replayJournal k d).1 := by
  unfold replayJournal
  split
  · exact keyGoes_of_same
  · rename_i j hj
    split
    · exact keyGoes_of_same
    · exact journalDone_goes hj
    · exact journalApplied_goes hj ‹_›

theorem keyStoreStart_goes (k : KeySt) (d : Dev) : keyGoes k (keyStoreStart k d).1 := by
  unfold keyStoreStart
  split
  · exact keyGoes_refl k
  · exact keyGoes_trans (startRoot_goes k d) (keyGoes_trans (replayJournal_goes _ _) (keyGoes_trans (loadCache_goes _)
      (keyGoes_trans (runSweep_goes _) keyGoes_of_same)))

theorem keyRestart_goes (k : KeySt) (d : Dev) : keyGoes k (keyRestart k d).1 := by
  unfold keyRestart
  split
  · exact keyGoes_trans (replayJournal_goes k d) (runSweep_goes _)
  · exact keyGoes_refl k

theorem trngPass_goes (k : KeySt) (d : Dev) : keyGoes k (trngPass k d).1 := by
  unfold trngPass
  split
  · exact keyGoes_refl k
  · split
    · rename_i waits
      intro sound
      have blank := ((keySound_iff k).mp sound).2.2.2.2.1 waits
      exact keyGoes_trans (keyGoes_of_same : keyGoes k { k with trngFail := false }) (enrolNow_goes d (.inl blank)) sound
    · exact keyGoes_of_same

theorem trngFails_goes (k : KeySt) (d : Dev) : keyGoes k (trngFails k d).1 := by
  unfold trngFails
  split
  · exact keyGoes_refl k
  · exact keyGoes_of_same

/-! ## Update messages (R488, R489) -/

/-- An accepted message changes a slot of the directory to a VALID one, or leads out of BLANK. -/
theorem changeFits_of_changeOf {k : KeySt} {m : UpdateMsg} {plain : Bytes} {c : KeyChange} (h : changeOf k m plain = .ok c)
    (target : m.target < 1024) : changeFits c := by
  unfold changeOf at h
  dsimp only at h
  split at h
  · repeat' split at h
    all_goals cases h
    all_goals exact ⟨target, .inl rfl⟩
  · split at h
    · repeat' split at h
      all_goals cases h
      rename_i usable
      exact ⟨target, .inl (not_not.mp (fun e => usable (.inl e)))⟩
    · split at h
      · repeat' split at h
        all_goals cases h
        rename_i valid _ _ _
        exact ⟨target, .inl (not_not.mp valid)⟩
      · split at h
        · repeat' split at h
          all_goals cases h
          exact target
        · split at h
          · split at h <;> cases h <;> nofun
          · split at h <;> cases h
            exact ⟨by decide, .inl rfl⟩

/-- What the checks of R488 let through. -/
theorem checkUpdate_ok {k : KeySt} {descOk : Bool} {m : UpdateMsg} {c : KeyChange} (h : checkUpdate k descOk m = .ok c) :
    kindAllowed k.lc m = true ∧ k.counter < m.counter ∧ ∃ plain, changeOf k m plain = .ok c := by
  unfold checkUpdate at h
  split at h
  · cases h
  · split at h
    · cases h
    · split at h
      · cases h
      · rename_i allowed
        split at h
        · cases h
        · dsimp only at h
          split at h
          · cases h
          · split at h
            · cases h
            · exact ⟨Bool.eq_true_of_not_eq_false allowed, by omega, _, h⟩

theorem lc_of_kindAllowed {lc : LifeCycle} {m : UpdateMsg} (h : kindAllowed lc m = true) : lc ≠ .blank ∧ lc ≠ .returned := by
  cases lc with
  | blank => cases h
  | returned => cases h
  | _ => exact ⟨nofun, nofun⟩

theorem target_ofBytes_lt (b : Bytes) : (UpdateMsg.ofBytes b).target < 1024 := Nat.mod_lt _ (by decide)

theorem keyUpdate_goes (n : Nat) (desc : KeyDesc) (msg : Bytes) (upTo : Nat) (k : KeySt) (d : Dev) :
    keyGoes k (keyUpdate n desc msg upTo k d).1 := by
  unfold keyUpdate
  split
  · exact keyGoes_refl k
  · split
    · exact keyGoes_refl k
    · refine keyGoes_trans (runSweep_goes k) ?_
      dsimp only
      split
      · exact keyGoes_refl _
      · rename_i c ok
        obtain ⟨allowed, newer, plain, change⟩ := checkUpdate_ok ok
        obtain ⟨blank, returned⟩ := lc_of_kindAllowed allowed
        have goes (kind target : Nat) := commit_goes kind target upTo blank returned newer (changeFits_of_changeOf change (target_ofBytes_lt _))
        split <;> exact goes _ _

theorem keyUpdateRow_goes (kind n : Nat) (desc : KeyDesc) (msg : Bytes) (upTo : Nat) (k : KeySt) (d : Dev) :
    keyGoes k (keyUpdateRow kind n desc msg upTo k d).1 := by
  unfold keyUpdateRow
  dsimp only
  split
  · exact keyUpdate_goes _ _ _ _ _ _
  · exact keyGoes_refl k

/-! ## KEY_REENROL and SNT_CLEAR -/

theorem keyReenrolCheck_ok {k : KeySt} {confirm : Nat} (h : keyReenrolCheck k confirm = sOk) :
    k.rootFail = true ∧ k.lc ≠ .blank ∧ k.lc ≠ .returned ∧ k.trngFail = false := by
  unfold keyReenrolCheck at h
  split at h
  · cases h
  · rename_i state
    simp only [not_or, Bool.not_eq_false] at state
    split at h
    · cases h
    · split at h
      · cases h
      · rename_i random
        exact ⟨state.1, state.2.1, state.2.2, Bool.eq_false_iff.mpr random⟩

theorem keyReenrol_goes (c : Ctx) (confirm : Nat) (k : KeySt) (d : Dev) : keyGoes k (keyReenrol c confirm k d).1 := by
  unfold keyReenrol
  dsimp only
  split
  · rename_i h
    simp only [Bool.and_eq_true, decide_eq_true_eq] at h
    obtain ⟨-, -, returned, random⟩ := keyReenrolCheck_ok h.2
    exact enrolNow_goes d (.inr ⟨returned, random⟩)
  · exact keyGoes_refl k

/-- No use of a key fails with S_OK. -/
theorem use_error_ne_ok {k : KeySt} {n st : Nat} (h : k.use n = .error st) : st ≠ sOk := by
  unfold KeySt.use at h
  repeat' split at h
  all_goals cases h
  all_goals decide

/-- What the checks of R508 let through. -/
theorem clearStatus_ok {k : KeySt} {d : Dev} {o : ClearOps} (h : clearStatus k d o = sOk) :
    (k.lc = .operational ∨ k.lc = .maintenance) ∧ k.counter < o.counter := by
  unfold clearStatus at h
  split at h
  · cases h
  · split at h
    · cases h
    · rename_i lc
      split at h
      · exact absurd h (use_error_ne_ok ‹_›)
      · dsimp only at h
        split at h
        · cases h
        · split at h
          · cases h
          · rename_i newer
            exact ⟨by tauto, not_le.mp newer⟩

theorem sntClear_goes (c : Ctx) (o : ClearOps) (steps : Nat) (k : KeySt) (d : Dev) : keyGoes k (sntClear c o steps k d).1 := by
  unfold sntClear
  dsimp only
  split
  · rename_i h
    simp only [Bool.and_eq_true, decide_eq_true_eq] at h
    obtain ⟨lc, newer⟩ := clearStatus_ok h.2
    have states : k.lc ≠ .blank ∧ k.lc ≠ .returned := by rcases lc with e | e <;> rw [e] <;> exact ⟨nofun, nofun⟩
    exact commit_goes _ _ _ states.1 states.2 newer trivial
  · split <;> exact keyGoes_refl k

/-! ## Resets and restarts -/

theorem pendingReset_goes (k : KeySt) (d : Dev) : keyGoes k (pendingReset k d).1 := by
  unfold pendingReset
  split
  · exact keyGoes_refl k
  · split
    · exact keyGoes_refl k
    · exact afterReset_goes k

theorem rstRequest_goes (c : Ctx) (kind confirm : Nat) (k : KeySt) (d : Dev) : keyGoes k (rstRequest c kind confirm k d).1 := by
  unfold rstRequest
  split
  · exact keyGoes_refl k
  · dsimp only
    split
    · exact keyGoes_refl k
    · exact pendingReset_goes k _

theorem railFall_goes (rail : Nat) (k : KeySt) (d : Dev) : keyGoes k (railFall rail k d).1 := by
  unfold railFall
  split
  · exact afterReset_goes k
  · exact keyGoes_refl k

theorem enterRescue_goes (k : KeySt) (d : Dev) : keyGoes k (enterRescue k d).1 := afterReset_goes k

/-- A judgement of a crystal empties the cache where it ends in RESCUE, and else leaves the key store alone. -/
theorem xtalJudged_key (n : Nat) (g : List Int) (k : KeySt) (d : Dev) :
    (xtalJudged n g k d).1 = k ∨ (xtalJudged n g k d).1 = k.afterReset := by
  unfold xtalJudged
  dsimp only
  split_ifs <;> simp [enterRescue]

theorem xtalJudged_goes (n : Nat) (g : List Int) (k : KeySt) (d : Dev) : keyGoes k (xtalJudged n g k d).1 := by
  rcases xtalJudged_key n g k d with e | e <;> rw [e]
  · exact keyGoes_refl k
  · exact afterReset_goes k

theorem keyStart_goes (k : KeySt) (d : Dev) : keyGoes k (keyStart k d).1 := by
  unfold keyStart
  split
  · exact keyStoreStart_goes k d
  · exact keyGoes_refl k

theorem mgmtRestart_goes (k : KeySt) (d : Dev) : keyGoes k (mgmtRestart k d).1 := by
  unfold mgmtRestart
  split
  · exact keyRestart_goes k _
  · exact keyGoes_refl k

theorem acceptKeyed_goes {r : RawCmd} {k : KeySt} {d : Dev} {x : KeySt × Dev} (h : acceptKeyed r k d = some x) : keyGoes k x.1 := by
  unfold acceptKeyed at h
  dsimp only at h
  split at h
  · split at h <;> cases h
    · exact keyGoes_refl k
    · exact keyReenrol_goes _ _ _ _
  · split at h
    · split at h <;> cases h
      · exact keyGoes_refl k
      · exact sntClear_goes _ _ _ _ _
    · split at h
      · split at h <;> cases h
        · exact keyGoes_refl k
        · exact rstRequest_goes _ _ _ _ _
      · cases h

theorem commandAccept_goes (r : RawCmd) (k : KeySt) (d : Dev) : keyGoes k (commandAccept r k d).1 := by
  unfold commandAccept
  split
  · split <;> exact keyGoes_refl k
  · split
    · exact acceptKeyed_goes ‹_›
    · exact keyGoes_refl k

/-! ## Every command -/

theorem goes_of_runKey {s t : State} {dt : Nat} {f : KeySt → Dev → KeySt × Dev} (h : s.runKey dt f = .next t)
    (goes : ∀ d, keyGoes s.key (f s.key d).1) : keyGoes s.key t.key := by
  cases h; exact goes _

theorem goes_of_checkRatio {s t : State} {dt : Nat} {f : KeySt → Dev → KeySt × Dev} (h : checkRatio (s.runKey dt f) = .next t)
    (goes : ∀ d, keyGoes s.key (f s.key d).1) : keyGoes s.key t.key :=
  goes_of_runKey (congrArg _ (eq_of_checkRatio h)) goes

theorem exec_goes {s t : State} {c : Instr} (h : exec c s = .next t) : keyGoes s.key t.key := by
  cases hk : changesKeys c with
  | false =>
    rw [onlyKeyCommandsChangeKeys s t c hk h]
    exact keyGoes_refl _
  | true =>
    cases c <;> first | (cases hk; done) | skip
    case install => exact goes_of_runKey (f := keyUpdateRow 1 _ _ _ _) h (keyUpdateRow_goes _ _ _ _ _ _)
    case stageNext => exact goes_of_runKey (f := keyUpdateRow 2 _ _ _ _) h (keyUpdateRow_goes _ _ _ _ _ _)
    case promote => exact goes_of_runKey (f := keyUpdateRow 3 _ _ _ _) h (keyUpdateRow_goes _ _ _ _ _ _)
    case invalidate => exact goes_of_runKey (f := keyUpdateRow 4 _ _ _ _) h (keyUpdateRow_goes _ _ _ _ _ _)
    case lifecycle => exact goes_of_runKey (f := keyUpdateRow 5 _ _ _ _) h (keyUpdateRow_goes _ _ _ _ _ _)
    case ownerInit => exact goes_of_runKey (f := keyUpdateRow 6 _ _ _ _) h (keyUpdateRow_goes _ _ _ _ _ _)
    case keySweep =>
      refine goes_of_runKey (f := fun k d => (if k.started && !k.interrupted then k.runSweep else k, d)) h (fun d => ?_)
      dsimp only
      split
      · exact runSweep_goes _
      · exact keyGoes_refl _
    case keyReenrol => exact goes_of_runKey (f := keyReenrol _ _) h (keyReenrol_goes _ _ _)
    case keyStoreStart => exact goes_of_runKey (f := keyStart) h (keyStart_goes _)
    case trngFail => exact goes_of_runKey (f := trngFails) h (trngFails_goes _)
    case trngRecover => exact goes_of_runKey (f := fun k d => trngPass k d.seedFields) h (fun d => trngPass_goes _ _)
    case mgmtRestart => exact goes_of_runKey (f := mgmtRestart) h (mgmtRestart_goes _)
    case sntClear => exact goes_of_runKey (f := sntClear _ _ _) h (sntClear_goes _ _ _ _)
    case commandAccept => exact goes_of_checkRatio (f := commandAccept _) h (commandAccept_goes _ _)
    case nrgFinalSaveDone x =>
      dsimp only [exec, execNrgFinalSaveDone] at h
      exact goes_of_checkRatio h (fun d => pendingReset_goes s.key (d.finalSaved x.bad))
    case powerOnReset => exact goes_of_runKey (f := powerOn _ _) h (fun _ => afterReset_goes _)
    case railFall => exact goes_of_runKey (f := railFall _) h (railFall_goes _ _)
    case rstRequestWarm => exact goes_of_checkRatio (f := rstRequest _ 0 _) h (rstRequest_goes _ _ _ _)
    case rstRequestCold => exact goes_of_runKey (f := rstRequest _ 1 _) h (rstRequest_goes _ _ _ _)
    case xtalJudged => exact goes_of_runKey (f := xtalJudged _ _) h (xtalJudged_goes _ _ _)
    case rescue =>
      refine goes_of_runKey (f := fun k d => if d.rescueDue then enterRescue k d else (k, d)) h (fun d => ?_)
      split
      · exact enterRescue_goes _ _
      · exact keyGoes_refl _

/-- A step runs the command at the front of the queue, which does not change the key store, or leaves the state as it is. -/
theorem step_goes {s t : State} (h : step s = .next t) : keyGoes s.key t.key := by
  cases hq : s.pending with
  | nil =>
    rw [step_of_empty hq] at h
    cases h; exact keyGoes_refl _
  | cons c rest =>
    rw [step_of_front hq] at h
    exact exec_goes (s := { s with pending := rest }) h

/-- Settles O48: every operation of the key store keeps it sound. -/
theorem keyStoreStaysSound : Obligations.KeyStoreStaysSound := by
  unfold Obligations.KeyStoreStaysSound
  intro s t sound h
  exact (step_goes h sound).1

/-- Settles O49: no operation lowers the counter or leads out of RETURNED or into BLANK, and what RETURNED holds is part of soundness. -/
theorem lifeCycleNeverGoesBack : Obligations.LifeCycleNeverGoesBack := by
  unfold Obligations.LifeCycleNeverGoesBack
  intro s t sound h
  obtain ⟨soundAfter, counter, returned, blank⟩ := step_goes h sound
  refine ⟨counter, fun e => ⟨returned e, ?_⟩, blank⟩
  exact ((keySound_iff _).mp soundAfter).2.2.1 (returned e)

end Sys2Proof.Machine
end

section
/-! The statement about the Ethernet ports (O18), which does not ask that the configuration is unlocked (R358, R562). -/

namespace Sys2Proof.Machine

open Sys2Proof

/-- A write of NET_Pp_CFG that enables a port and names another MODE. -/
def enableOtherMode : Word := 3

/-- A state under the lock with port 0 off and without a MAC address. MODE is an RWL field: the lock discards it, and the violation is
counted (R562). -/
def lockedPort : { s : State // ((later s.dev 0).gatedAt (Reg.NET_Pp_CFG 0) = false ∧ (later s.dev 0).bit (Fld.NET_Pp_CFG_EN 0) = false
    ∧ (later s.dev 0).macOfPort 0 = 0)
    ∧ (writeNetCfg 0 enableOtherMode (later s.dev 0)).reg Reg.GLB_LOCK_VIOL ≠ (later s.dev 0).reg Reg.GLB_LOCK_VIOL } :=
  ⟨{ State.reset with dev := { State.reset.dev with regs := [] }.setBit Fld.GLB_STATUS_LOCKED true }, by decide⟩

theorem exec_netPortEnable {s t : State} {p : Nat} {v : Word} (hp : p < 4) (h : (later s.dev 0).gatedAt (Reg.NET_Pp_CFG p) = false)
    (step : exec (.netPortEnable p v) s = .next t) : t.dev = writeNetCfg p v (later s.dev 0) := by
  have written := dev_of_run (f := fun _ d => if 3 < p ∨ d.gatedAt (Reg.NET_Pp_CFG p) = true then d else writeNetCfg p v d) step
  rwa [if_neg (by simp [h]; omega)] at written

/-- Refutes O18: its clauses on NET_PORT_ENABLE do not ask that the configuration is unlocked. A port without a MAC address that is enabled
under the lock, by a write that names another MODE, counts in GLB_LOCK_VIOL, which is none of the registers the clause names. -/
theorem not_portEventsTakeEffect : ¬ Obligations.PortEventsTakeEffect := by
  unfold Obligations.PortEventsTakeEffect
  rintro ⟨-, portStaysOff, -⟩
  obtain ⟨s, ⟨open_, off, mac⟩, counts⟩ := lockedPort
  obtain ⟨t, step, ⟨-, -, -, regs⟩, -⟩ := portStaysOff s 0 enableOtherMode _ rfl ⟨by decide, open_⟩ ⟨by decide, off⟩ mac
  rw [exec_netPortEnable (by decide) open_ step] at regs
  exact counts (regs Reg.GLB_LOCK_VIOL (by decide))

end Sys2Proof.Machine
end

section
/-! Proofs about reads of the time registers (R390): the counters of the ports are brought up to the present first, which the time does not
see. -/

namespace Sys2Proof.Machine

open Sys2Proof

/-! ## What a read settles -/

/-- The device in which ports and segments are brought up to the present: the port state moves, and registers from FUM_EXP_SENT on. -/
def settles (d t : Dev) : Prop := only [.regs, .net] (fun o => 0x080000 ≤ o) d t ∧ t.out = d.out

theorem settles_refl (d : Dev) : settles d d := ⟨only_refl _ _ _, rfl⟩

theorem settles_trans {a b c : Dev} (h : settles a b) (k : settles b c) : settles a c := ⟨only_trans h.1 k.1, k.2.trans h.2⟩

theorem settles_setReg (d : Dev) {o : Nat} (v : Word) (h : 0x080000 ≤ o) : settles d (d.setReg o v) :=
  ⟨only_mono (p := fun k => k = o) (by simp) (by rintro _ rfl; exact h) (only_setReg d o v), rfl⟩

theorem settles_modNet (d : Dev) (f : NetSt → NetSt) : settles d (d.modNet f) :=
  ⟨only_of_kept (by simp [keptBut, Dev.modNet]) rfl, rfl⟩

theorem settles_modPort (d : Dev) (p : Nat) (f : PortSt → PortSt) : settles d (d.modPort p f) :=
  ⟨only_of_kept (by simp [keptBut, Dev.modPort, Dev.setPort]) rfl, rfl⟩

theorem settles_count (d : Dev) {o : Nat} (n : Nat) (h : 0x080000 ≤ o) : settles d (d.count o n) := settles_setReg _ _ h
theorem settles_setFld (d : Dev) {f : FieldAt} (v : Nat) (h : 0x080000 ≤ f.off) : settles d (d.setFld f v) := settles_setReg _ _ h
theorem settles_setBit (d : Dev) {f : FieldAt} (b : Bool) (h : 0x080000 ≤ f.off) : settles d (d.setBit f b) := settles_setReg _ _ h
theorem settles_count64 (d : Dev) {o : Nat} (n : Nat) (h : 0x080000 ≤ o) : settles d (d.count64 o n) :=
  settles_trans (settles_setReg _ _ h) (settles_setReg _ _ (by omega))

theorem settlePause_settles (d : Dev) (p : Nat) : settles d (d.settlePause p) := by
  have paused : 0x080000 ≤ Reg.NET_Pp_TX_PAUSED_US p := by simp only [Reg.NET_Pp_TX_PAUSED_US]; omega
  have status : 0x080000 ≤ Reg.NET_Pp_STATUS p := by simp only [Reg.NET_Pp_STATUS]; omega
  unfold Dev.settlePause
  exact settles_trans (settles_modPort d p _) (settles_trans (settles_count _ _ paused)
    (settles_trans (settles_setBit _ _ status) (settles_setFld _ _ status)))

theorem txSettle_settles (d : Dev) (p : Nat) : settles d (d.txSettle p) := by
  have frames : 0x080000 ≤ Reg.NET_Pp_TX_FRAMES_LO p := by simp only [Reg.NET_Pp_TX_FRAMES_LO]; omega
  have bytes : 0x080000 ≤ Reg.NET_Pp_TX_BYTES_LO p := by simp only [Reg.NET_Pp_TX_BYTES_LO]; omega
  have express : 0x080000 ≤ Reg.NET_Pp_TX_EXPRESS p := by simp only [Reg.NET_Pp_TX_EXPRESS]; omega
  unfold Dev.txSettle
  split
  · exact settles_refl d
  · split
    · dsimp only
      split
      · exact settles_modPort _ _ _
      · exact settles_trans (settles_modPort d p _) (settles_trans (settles_count64 _ _ frames) (settles_trans (settles_count64 _ _ bytes)
          (settles_trans (settles_count _ _ express) (settles_count _ _ (by decide)))))
    · exact settles_refl d

theorem fieldSettle_settles (d : Dev) (g : Nat) : settles d (d.fieldSettle g) := by
  unfold Dev.fieldSettle
  split
  · exact settles_refl d
  · split
    · split
      · exact settles_trans (settles_modNet d _) (settles_count _ _ (by simp only [Reg.NET_FLDn_TX_FRAMES]; omega))
      · exact settles_refl d
    · exact settles_refl d

theorem settleCounters_settles (d : Dev) : settles d d.settleCounters :=
  settles_trans
    (foldl_keeps settles_refl settles_trans (fun x p => settles_trans (settlePause_settles x p) (txSettle_settles _ p)) (List.range 4) d)
    (foldl_keeps settles_refl settles_trans fieldSettle_settles (List.range 2) _)

section Settled

variable {d t : Dev} (h : settles d t)

include h

theorem settles_hif : t.hif = d.hif := only_hif h.1 (by simp)
theorem settles_tim : t.tim = d.tim := only_tim h.1 (by simp)
theorem settles_rescue : t.bit Fld.CLK_STATUS_RESCUE = d.bit Fld.CLK_STATUS_RESCUE := only_bit h.1 (by decide)
theorem settles_gNs : t.gNs = d.gNs := by rw [Dev.gNs, Dev.g16, settles_tim h]; rfl
theorem settles_gSec : t.gSec = d.gSec := by rw [Dev.gSec, settles_gNs h]; rfl
theorem settles_g16 : t.g16 = d.g16 := by rw [Dev.g16, settles_tim h]; rfl

end Settled

/-! ## The time registers -/

/-- The time registers have no gate. -/
theorem gatedAt_of_timNow {d : Dev} {off : Nat} (rescue : d.bit Fld.CLK_STATUS_RESCUE = false) (h : gateOf off = none) :
    d.gatedAt off = false := by simp [Dev.gatedAt, rescue, h]

/-- The device whose read of a word is answered. -/
def readAnswered (r : Word × Dev) : Dev := r.2.emit (.readData (r.1.setWidth 64))

theorem readAnswered_out (r : Word × Dev) : (readAnswered r).out = r.2.out ++ [.readData (r.1.setWidth 64)] := rfl
theorem readAnswered_hif (r : Word × Dev) : (readAnswered r).hif = r.2.hif := rfl

/-- A read of 4 bytes in a block that is not gated. -/
theorem exec_loReadLatch_open {s : State} {off : Nat} (hlt : off < 0x400000) (ha : off % 4 = 0) (hg : (later s.dev 0).gatedAt off = false) :
    exec (.loReadLatch off 4) s = .next { s with dev := readAnswered ((later s.dev 0).settleCounters.read4 s.key off) } := by
  have read : (later s.dev 0).barRead s.key off 4 = readAnswered ((later s.dev 0).settleCounters.read4 s.key off) := by
    simp [Dev.barRead, ha, hg, readAnswered]
  rw [← read]
  simp only [exec, execLoReadLatch, State.run, if_pos hlt]
  rfl

/-- The two words that a read of TIM_NOW_NS latches, and the device that has latched them. -/
def Dev.secLo (d : Dev) : Word := BitVec.ofNat 32 (d.gSec % 2 ^ 32)
def Dev.secHi (d : Dev) : Word := BitVec.ofNat 32 (d.gSec / 2 ^ 32 % 65536 + 65536 * (d.g16 % 65536))
def Dev.latchSeconds (d : Dev) : Dev :=
  d.modHif (fun h => { h with latches := (h.latches.put Reg.TIM_NOW_SEC_LO d.secLo).put Reg.TIM_NOW_SEC_HI d.secHi })

theorem wordNow_ns (k : KeySt) (d : Dev) : d.wordNow k Reg.TIM_NOW_NS = BitVec.ofNat 32 (d.gNs % 1000000000) := rfl
theorem wordNow_secLo (k : KeySt) (d : Dev) : d.wordNow k Reg.TIM_NOW_SEC_LO = d.secLo := rfl
theorem wordNow_secHi (k : KeySt) (d : Dev) : d.wordNow k Reg.TIM_NOW_SEC_HI = d.secHi := rfl

/-- A read of TIM_NOW_NS gives the nanoseconds and latches the two others. -/
theorem read4_ns (k : KeySt) {d : Dev} (hg : d.gatedAt Reg.TIM_NOW_NS = false) :
    d.read4 k Reg.TIM_NOW_NS = (BitVec.ofNat 32 (d.gNs % 1000000000), d.latchSeconds) := by
  have own : isLatched Reg.TIM_NOW_NS = false := by decide
  have two : latchesOf Reg.TIM_NOW_NS = [Reg.TIM_NOW_SEC_LO, Reg.TIM_NOW_SEC_HI] := by decide
  simp only [Dev.read4, hg, own, two, Bool.false_eq_true, if_false, List.foldl, wordNow_ns, wordNow_secLo, wordNow_secHi, Dev.latchSeconds]

/-- A read of a latched word gives what is latched, and keeps it. -/
theorem read4_latched (k : KeySt) {d : Dev} {off : Nat} {w : Word} (hg : d.gatedAt off = false) (hl : isLatched off = true)
    (held : d.hif.latches.find off = some w) : d.read4 k off = (w, d) := by
  simp [Dev.read4, hg, hl, Tbl.getD, held]

/-- A read of a latched word answers it, and no latch moves. -/
theorem exec_read_latched {s : State} {off : Nat} {w : Word} (hlt : off < 0x400000) (ha : off % 4 = 0) (gate : gateOf off = none)
    (hl : isLatched off = true) (rescue : s.dev.bit Fld.CLK_STATUS_RESCUE = false) (held : s.dev.hif.latches.find off = some w) :
    ∃ t, exec (.loReadLatch off 4) s = .next t ∧ t.dev.out = [.readData (w.setWidth 64)] ∧ t.dev.hif.latches = s.dev.hif.latches := by
  have settled := settleCounters_settles (later s.dev 0)
  have rescueAfter : (later s.dev 0).settleCounters.bit Fld.CLK_STATUS_RESCUE = false := (settles_rescue settled).trans rescue
  have heldAfter : (later s.dev 0).settleCounters.hif.latches.find off = some w := by rw [settles_hif settled]; exact held
  have read := read4_latched s.key (gatedAt_of_timNow rescueAfter gate) hl heldAfter
  refine ⟨_, exec_loReadLatch_open hlt ha (gatedAt_of_timNow rescue gate), ?_, ?_⟩
  · rw [read, readAnswered_out, settled.2, later_out]
    rfl
  · rw [read, readAnswered_hif, settles_hif settled]
    rfl

/-- The two words that are latched are found where they are read. -/
theorem latchSeconds_find (d : Dev) : d.latchSeconds.hif.latches.find Reg.TIM_NOW_SEC_LO = some d.secLo
    ∧ d.latchSeconds.hif.latches.find Reg.TIM_NOW_SEC_HI = some d.secHi :=
  ⟨(Tbl.find_put_other _ _ (by decide)).trans (Tbl.find_put_same _ _ _), Tbl.find_put_same _ _ _⟩

/-- Both words are answered, and the latches stay. -/
theorem exec_read_seconds {u : State} {d : Dev} (latches : u.dev.hif.latches = d.latchSeconds.hif.latches)
    (rescue : u.dev.bit Fld.CLK_STATUS_RESCUE = false) :
    (∃ v, exec (.loReadLatch Reg.TIM_NOW_SEC_LO 4) u = .next v ∧ v.dev.out = [.readData (d.secLo.setWidth 64)]
      ∧ v.dev.hif.latches = u.dev.hif.latches)
    ∧ ∃ v, exec (.loReadLatch Reg.TIM_NOW_SEC_HI 4) u = .next v ∧ v.dev.out = [.readData (d.secHi.setWidth 64)]
      ∧ v.dev.hif.latches = u.dev.hif.latches := by
  obtain ⟨lo, hi⟩ := latchSeconds_find d
  rw [← latches] at lo hi
  exact ⟨exec_read_latched (by decide) (by decide) (by decide) (by decide) rescue lo,
    exec_read_latched (by decide) (by decide) (by decide) (by decide) rescue hi⟩

/-- The two words hold the second modulo 2^48 and the fraction. -/
theorem secLo_secHi (d : Dev) : d.secLo.toNat + 2 ^ 32 * (d.secHi.toNat % 2 ^ 16) = d.gSec % 2 ^ 48 := by
  rw [Dev.secLo, Dev.secHi]
  generalize d.gSec = sec
  generalize d.g16 = ticks
  simp only [BitVec.toNat_ofNat]
  omega

theorem secHi_fraction (d : Dev) : d.secHi.toNat / 2 ^ 16 = d.g16 % 2 ^ 16 := by
  rw [Dev.secHi]
  generalize d.gSec = sec
  generalize d.g16 = ticks
  simp only [BitVec.toNat_ofNat]
  omega

/-- Settles O53: a read of TIM_NOW_NS latches the seconds and the fraction of one instant, and reads of the two answer the latches. -/
theorem timeReadsLatchTogether : Obligations.TimeReadsLatchTogether := by
  unfold Obligations.TimeReadsLatchTogether
  rintro s d rfl rescue
  have settled := settleCounters_settles (later s.dev 0)
  have rescueAfter : (later s.dev 0).settleCounters.bit Fld.CLK_STATUS_RESCUE = false := (settles_rescue settled).trans rescue
  have read := read4_ns s.key (gatedAt_of_timNow rescueAfter (off := Reg.TIM_NOW_NS) (by decide))
  have step := exec_loReadLatch_open (s := s) (off := Reg.TIM_NOW_NS) (by decide) (by decide) (gatedAt_of_timNow rescue (by decide))
  rw [read] at step
  generalize (later s.dev 0).settleCounters = d at settled step
  refine ⟨_, d.secLo, d.secHi, step, ?_, ?_, ?_, ?_⟩
  · have widened : (BitVec.ofNat 32 (d.gNs % 1000000000)).setWidth 64 = BitVec.ofNat 64 ((later s.dev 0).gNs % 1000000000) := by
      rw [settles_gNs settled]
      exact BitVec.eq_of_toNat_eq (by simp; omega)
    rw [readAnswered_out, widened, Dev.latchSeconds, Dev.modHif_out, settled.2, later_out]
    rfl
  · intro u latches rescueU
    rw [readAnswered_hif] at latches ⊢
    have answered := exec_read_seconds latches rescueU
    rw [latches] at answered
    exact answered
  · rw [secLo_secHi, settles_gSec settled]
  · rw [secHi_fraction, settles_g16 settled]

end Sys2Proof.Machine
end

section
/-! The statement about the rings (O26), which does not ask that one ring of a device-to-host kind is enabled (R451, R462). -/

namespace Sys2Proof.Machine

open Sys2Proof

/-- HIF_RINGn_CFG of an enabled ring of KIND 5 with 64 descriptors. -/
def amendRing : Word := 203

/-- No register but those of two rings differs from 0: rings 1 and 2 both run with KIND 5, of which R451 allows one, and ring 1 holds a posted buffer of 0 bytes. -/
def twoAmendRings : State :=
  let on := fun (d : Dev) n => (d.setReg (Reg.HIF_RINGn_CFG n) amendRing).setReg (Reg.HIF_RINGn_STAT n) 1
  { State.reset with dev := (on (on { State.reset.dev with regs := [] } 1) 2).setRing 1 { bufs := [⟨0, 0, false⟩] } }

/-- What a doorbell of ring 2 posts there. -/
def usableBuf : PostedBuf := ⟨0, 4096, false, true⟩

/-- KIND 5's records go to ring 1, which completes its own bad buffer (R462). -/
theorem twoAmendRings_otherDone : ((later twoAmendRings.dev 0).doorbell (256 * 2) 4 1 [usableBuf]).reg (Reg.HIF_RINGn_DONE 1)
    ≠ (later twoAmendRings.dev 0).reg (Reg.HIF_RINGn_DONE 1) := by decide +kernel

/-- Refutes O26: its clause on a doorbell that posts buffers does not ask that the ring is the only one of its KIND. Where a ring before it
runs with the same KIND and a bad buffer in front, that buffer completes, and the other ring's HIF_RINGn_DONE is no register the clause names. -/
theorem not_ringsTakeEffect : ¬ Obligations.RingsTakeEffect := by
  unfold Obligations.RingsTakeEffect
  rintro ⟨-, -, -, -, -, -, -, -, posts, -⟩
  obtain ⟨t, step, ⟨-, -, -, regs⟩, -⟩ := posts twoAmendRings 2 1 5 1 [usableBuf] _ ((later twoAmendRings.dev 0).ring 2) rfl (by decide)
    (by decide) (by decide) (by decide) (by decide) (by decide)
  have written := dev_of_run (f := fun _ d => d.doorbell (256 * 2) 4 1 [usableBuf]) step
  rw [written] at regs
  exact twoAmendRings_otherDone (regs _ (by decide))

end Sys2Proof.Machine
end

section
/-! The statement about the time unit's events (O21), which does not keep to the rings that the part has (R451, R459). -/

namespace Sys2Proof.Machine

open Sys2Proof

/-- A TIM_REACQUIRE that has waited on ring 32 since device time 0. -/
def reacquireOn32 : WaitCmd := ⟨32, 0, 0, 0, .timReacquire, 0, false⟩

/-- What the timer does to a device with one TIM_REACQUIRE that has waited for 10 s. -/
def Dev.endReacquire (d : Dev) : Dev := d.finishWaits (fun w => decide (w = .timReacquire)) sNotValid 0

/-- That command waits where ring 32 shows STATE 1: its end counts in what would be DONE of the ring. -/
def reacquireBeyond : { s : State // (later s.dev 10000000000).hif.waiting = [reacquireOn32] ∧ 10000000000 ≤ (later s.dev 10000000000).up
    ∧ (later s.dev 10000000000).endReacquire.reg (Reg.HIF_RINGn_DONE 32) ≠ (later s.dev 10000000000).reg (Reg.HIF_RINGn_DONE 32) } :=
  ⟨{ State.reset with dev := ({ State.reset.dev with regs := [] }.setReg (Reg.HIF_RINGn_STAT 32) 1).modHif (fun h => { h with waiting := [reacquireOn32] }) },
    by decide⟩

theorem exec_reacquireTimeout {s t : State} {dt : Nat} (due : (later s.dev dt).hif.waiting.any
      (fun w => decide (w.kind = .timReacquire) && decide (w.since + 10000000000 ≤ (later s.dev dt).up)) = true)
    (step : exec (.reacquireTimeout dt) s = .next t) : t.dev = (later s.dev dt).endReacquire := by
  have timed := dev_of_run (f := fun _ d =>
    if d.hif.waiting.any (fun w => decide (w.kind = .timReacquire) && decide (w.since + 10000000000 ≤ d.up)) then d.endReacquire else d) step
  rwa [if_pos due] at timed

/-- Refutes O21: its clause on TIM_REACQUIRE's timeout does not ask that the command waits on one of the 32 rings. On ring 32 the completion
counts in a register that is HIF_RINGn_DONE of no ring of the part. -/
theorem not_timeEventsTakeEffect : ¬ Obligations.TimeEventsTakeEffect := by
  unfold Obligations.TimeEventsTakeEffect
  rintro ⟨-, -, -, -, -, -, -, -, -, -, -, -, -, -, -, -, timesOut, -⟩
  obtain ⟨s, waits, late, counts⟩ := reacquireBeyond
  have overdue : reacquireOn32.since + 10000000000 ≤ (later s.dev 10000000000).up := (Nat.zero_add _).symm ▸ late
  obtain ⟨t, step, ⟨-, -, -, regs⟩, -⟩ := timesOut s 10000000000 _ reacquireOn32 rfl ⟨waits, rfl, overdue⟩
  rw [exec_reacquireTimeout (by simp [waits, late, reacquireOn32]) step] at regs
  exact counts (regs _ fun signal => not_eventReg_done32 (.inl signal))

end Sys2Proof.Machine
end

section
/-! The statement about the fabric's commands (O25): one lemma on what each command answers, by the order of its checks (R444). -/

namespace Sys2Proof.Machine

open Sys2Proof

/-! ## A join request leaves registers and requests -/

/-- A join request grows links; it leaves the membership and the join requests. -/
theorem requestJoin_keeps (d : Dev) (auto_ : Bool) :
    (d.requestJoin none auto_).fab.joinReqs = d.fab.joinReqs ∧ (d.requestJoin none auto_).joined = d.joined := by
  obtain ⟨links, out, grown⟩ :=
    foldl_keeps linksOnly_refl linksOnly_trans (fun x l => startGrow_linksOnly x l true) (List.range 6) d
  rw [Dev.requestJoin, grown]
  exact ⟨rfl, rfl⟩

/-- Without a join request none is served. -/
theorem serveJoins_of_none {d : Dev} (h : d.fab.joinReqs = []) : d.serveJoins = d := by
  have same : d.modFab (fun f => { f with joinReqs := [] }) = d := by
    rw [← h]
    rfl
  unfold Dev.serveJoins
  rw [h]
  exact same

/-! ## The commands -/

section Join

variable {d : Dev}

theorem fabJoin_busy (h : d.joined = true ∨ d.fab.joining.isSome = true) : fabJoin d = (d, .done sBusy 0) := by
  rw [fabJoin, if_pos (by simpa using h)]

variable (free : d.joined = false) (quiet : d.fab.joining = none)

include free quiet

theorem fabJoin_range (h : (d.bit Fld.ING_CTRL_EN = true ∧ d.acquired = false) ∨ (List.range 6).any (fun l => decide (d.linkState l = 6)) = true) :
    fabJoin d = (d, .done sRange 0) := by
  rw [fabJoin, if_neg (by simp [free, quiet]), if_pos]
  rcases h with ⟨ing, time⟩ | link
  · have unlocked : d.bit Fld.TIM_STATUS_ACQUIRED = false := time
    simp [ing, unlocked]
  · simp only [link, Bool.or_true]

variable (noIng : d.bit Fld.ING_CTRL_EN = false)

include noIng

theorem fabJoin_duplicate (noSix : (List.range 6).any (fun l => decide (d.linkState l = 6)) = false)
    (five : (List.range 6).any (fun l => decide (d.linkState l = 5)) = true) : fabJoin d = (d, .done sDupDevice 0) := by
  rw [fabJoin, if_neg (by simp [free, quiet]), if_neg (by simp [noIng, noSix]), if_pos five]

theorem fabJoin_waits (alone : d.joinTarget = none) (noReq : d.fab.joinReqs = [])
    (links : (List.range 6).any (fun l => decide (5 ≤ d.linkState l)) = false) :
    fabJoin d = (d.requestJoin none false, .wait .fabJoin) := by
  have noneAt {st : Nat} (h : 5 ≤ st) : (List.range 6).any (fun l => decide (d.linkState l = st)) = false := by
    rw [List.any_eq_false] at links ⊢
    intro l hl same
    exact links l hl (by simpa [of_decide_eq_true same] using h)
  obtain ⟨reqs, member⟩ := requestJoin_keeps d false
  rw [fabJoin, if_neg (by simp [free, quiet]), if_neg (by simp [noIng, noneAt (show 5 ≤ 6 by decide)]),
    if_neg (by simp [noneAt (show 5 ≤ 5 by decide)]), alone]
  simp only [serveJoins_of_none (reqs.trans noReq), member, free, Bool.false_eq_true, if_false]

end Join

theorem fabLeave_eq (d : Dev) : fabLeave d = (if d.joined then (d.modFab (fun f => { f with leaving := true })).sendAll d.others (.depart 0) else d,
    if d.joined then .wait .fabLeave else .done sNotValid 0) := by
  unfold fabLeave
  split <;> rfl

theorem fabRouteRead_eq (buf : HostBuf) (d : Dev) : fabRouteRead buf d
    = (d, if buf.len < 512 then .done sRange 0 else .block ((List.range 64).flatMap d.routeBytes) (some buf.addr)) := by
  unfold fabRouteRead
  split <;> rfl

theorem fabViewRead_short {buf : HostBuf} (h : buf.len < 32) (d : Dev) : fabViewRead buf d = (d, .done sRange 0) := if_pos h

/-- With no view change there are no suspects. -/
theorem fabViewRead_calm {buf : HostBuf} (h : 32 ≤ buf.len) {d : Dev} (calm : d.fab.change = none) : fabViewRead buf d
    = (d, .block (leBytes 4 d.view.num ++ leBytes 8 d.view.fromEpoch ++ leBytes 8 d.view.members ++
      [BitVec.ofNat 8 d.view.summit, BitVec.ofNat 8 (coordinator d.view 0 d.deviceNo), BitVec.ofNat 8 (b2n d.view.minority)] ++ zeros 9)
      (some buf.addr)) := by
  rw [fabViewRead, if_neg (by omega), calm]
  rfl

theorem fabStreamDrop_listed {n i : Nat} {d : Dev} (h : i < 8192 ∧ (d.fab.lost.find (8192 * n + i)).isSome = true) :
    fabStreamDrop n i d = (d.modFab (fun f => { f with lost := f.lost.drop (8192 * n + i) }), .ok) := if_pos h

theorem fabStreamDrop_unlisted {n i : Nat} {d : Dev} (h : 8191 < i ∨ d.fab.lost.find (8192 * n + i) = none) :
    fabStreamDrop n i d = (d, .done sRange 0) := by
  refine if_neg ?_
  rintro ⟨inRange, listed⟩
  rcases h with far | absent
  · omega
  · simp [absent] at listed

/-- Settles O25: each command is accepted, and its checks, in their order, decide what it answers. -/
theorem fabricCommandsComplete : Obligations.FabricCommandsComplete := by
  unfold Obligations.FabricCommandsComplete
  refine ⟨?_, ?_, ?_, ?_, ?_, ?_, ?_, ?_, ?_, ?_⟩
  · rintro s c _ hr rfl ⟨free, quiet, alone, noReq⟩ ⟨noIng, links⟩
    exact exec_of_gatedAccept hr rfl (fabJoin_waits free quiet noIng alone noReq links)
  · rintro s c _ hr rfl h
    exact exec_of_gatedAccept hr rfl (fabJoin_busy h)
  · rintro s c _ hr rfl ⟨free, quiet⟩ h
    exact exec_of_gatedAccept hr rfl (fabJoin_range free quiet h)
  · rintro s c _ hr rfl ⟨free, quiet, noIng⟩ ⟨noSix, five⟩
    exact exec_of_gatedAccept hr rfl (fabJoin_duplicate free quiet noIng noSix five)
  · rintro s c _ hr rfl
    exact exec_of_gatedAccept hr rfl (fabLeave_eq _)
  · rintro s c _ buf hr rfl
    exact exec_of_gatedAccept hr rfl (fabRouteRead_eq buf _)
  · rintro s c _ buf hr rfl ⟨room, calm⟩
    exact exec_of_gatedAccept hr rfl (fabViewRead_calm room calm)
  · rintro s c _ buf hr rfl short
    exact exec_of_gatedAccept hr rfl (fabViewRead_short short _)
  · rintro s c _ n i hr rfl h
    exact exec_of_gatedAccept hr rfl (fabStreamDrop_listed h)
  · rintro s c _ n i hr rfl h
    exact exec_of_gatedAccept hr rfl (fabStreamDrop_unlisted h)

end Sys2Proof.Machine
end

section
/-! The field ports (R380 to R382): what moves as a segment settles, is enabled, collides or tries again, and the MDIO register. -/

namespace Sys2Proof.Machine

open Sys2Proof

/-! ## Segments -/

/-- A register of the network block's counters. -/
def netCounter (o : Nat) : Prop := o / 0x1000 = 0x0e1

theorem netCounter_field {g : Nat} (h : g < 2) : netCounter (Reg.NET_FLDn_TX_FRAMES g) := by
  simp only [netCounter, Reg.NET_FLDn_TX_FRAMES]
  omega

/-- From `d` to `t` what the network block holds has changed in its segments alone. -/
def segmentsMoved (d t : Dev) : Prop := ∃ f, t.net = { d.net with fields := f }

theorem segmentsMoved_refl (d : Dev) : segmentsMoved d d := ⟨_, rfl⟩

theorem segmentsMoved_trans {a b c : Dev} (h : segmentsMoved a b) (k : segmentsMoved b c) : segmentsMoved a c := by
  obtain ⟨_, h⟩ := h
  obtain ⟨f, k⟩ := k
  exact ⟨f, by rw [k, h]⟩

theorem setFieldTx_moves (d : Dev) (g : Nat) (x : Option FieldTx) : segmentsMoved d (d.setFieldTx g x) := ⟨_, rfl⟩

theorem fieldSettle_moves (d : Dev) (g : Nat) : segmentsMoved d (d.fieldSettle g) := by
  unfold Dev.fieldSettle
  split
  · exact segmentsMoved_refl d
  · split
    · split
      · exact ⟨_, rfl⟩
      · exact segmentsMoved_refl d
    · exact segmentsMoved_refl d

theorem fieldSettle_only (d : Dev) (g : Nat) : only [.regs, .net] (fun o => o = Reg.NET_FLDn_TX_FRAMES g) d (d.fieldSettle g) := by
  unfold Dev.fieldSettle
  split
  · exact only_refl _ _ _
  · split
    · exact only_ite (only_trans (only_wider (setFieldTx_only d g none _) (by simp)) (only_wider (count_only _ _ 1) (by simp))) (only_refl _ _ _)
    · exact only_refl _ _ _

theorem tx_setFieldTx_same {d : Dev} {g : Nat} {x y : FieldTx} (h : (d.field g).tx = some x) : ((d.setFieldTx g (some y)).field g).tx = some y := by
  simp only [Dev.field, Dev.setFieldTx, Dev.modNet, getElem?_modifyAt_same] at h ⊢
  cases hf : d.net.fields[g]? with
  | none =>
    rw [hf] at h
    cases h
  | some f => rfl

theorem field_setFieldTx_other (d : Dev) {g k : Nat} (h : k ≠ g) (x : Option FieldTx) : (d.setFieldTx g x).field k = d.field k := by
  simp only [Dev.field, Dev.setFieldTx, Dev.modNet, getElem?_modifyAt_other _ _ h]

theorem field_fieldSettle_other (d : Dev) {g k : Nat} (h : k ≠ g) : (d.fieldSettle g).field k = d.field k := by
  unfold Dev.fieldSettle
  split
  · rfl
  · split
    · split
      · exact field_setFieldTx_other d h none
      · rfl
    · rfl

/-- A frame whose line time is not over is still on the line. -/
theorem fieldSettle_sending {d : Dev} {g at_ : Nat} {x : FieldTx} (tx : (d.field g).tx = some x) (started : x.startedAt = some at_)
    (early : d.up < at_ + fieldDur x.payload) : d.fieldSettle g = d := by
  rw [Dev.fieldSettle, tx]
  simp only [started]
  exact if_neg (by omega)

/-! ## NET_FLD_CFG -/

theorem fieldsAt_netFldCfg : fieldsAt Reg.NET_FLD_CFG = [⟨0, 2, .rw, .any⟩] := by decide

/-- NET_FLD_CFG takes EN from the written word, whatever it is. -/
theorem writePlain_netFldCfg (d : Dev) (v : Word) : d.writePlain Reg.NET_FLD_CFG v = d.setFld Fld.NET_FLD_CFG_EN (bitsAt v 0 2) := by
  have res : d.writeRes Reg.NET_FLD_CFG v = { word := withBits (d.reg Reg.NET_FLD_CFG) 0 2 (bitsAt v 0 2) } := by
    simp only [Dev.writeRes, fieldsAt_netFldCfg]
    rfl
  simp only [Dev.writePlain, res]
  rfl

/-- A segment whose MAC does not run drops its frame. -/
def Dev.stopField (d : Dev) (g : Nat) : Dev := if d.fbit Fld.NET_FLD_CFG_EN g then d else (d.fieldSettle g).setFieldTx g none

theorem takeFldCfg_eq (v : Word) (d : Dev) : takeFldCfg v d
    = (((d.modNet (fun n => { n with fldWait := none })).setFld Fld.NET_FLD_CFG_EN (bitsAt v 0 2)).stopField 0).stopField 1 := by
  rw [← writePlain_netFldCfg]
  rfl

theorem stopField_moves (d : Dev) (g : Nat) : segmentsMoved d (d.stopField g) := by
  unfold Dev.stopField
  split
  · exact segmentsMoved_refl d
  · exact segmentsMoved_trans (fieldSettle_moves d g) (setFieldTx_moves _ g none)

theorem stopField_only (d : Dev) {g : Nat} (h : g < 2) : only [.regs, .net] netCounter d (d.stopField g) := by
  refine only_ite (only_refl _ _ _) (only_trans (only_mono (by simp) ?_ (fieldSettle_only d g)) (only_wider (setFieldTx_only _ g none _) (by simp)))
  rintro _ rfl
  exact netCounter_field h

theorem stopField_stops {d : Dev} {g : Nat} (h : d.fbit Fld.NET_FLD_CFG_EN g = false) : ((d.stopField g).field g).tx = none := by
  rw [Dev.stopField, if_neg (by simp [h])]
  exact tx_setFieldTx_none _ g

theorem field_stopField_other (d : Dev) {g k : Nat} (h : k ≠ g) : (d.stopField g).field k = d.field k := by
  unfold Dev.stopField
  split
  · rfl
  · rw [field_setFieldTx_other _ h, field_fieldSettle_other _ h]

theorem fld_stopField {d : Dev} {g : Nat} (h : g < 2) : (d.stopField g).fld Fld.NET_FLD_CFG_EN = d.fld Fld.NET_FLD_CFG_EN :=
  only_fld (stopField_only d h) (by unfold netCounter; decide)

section TakeFldCfg

variable (d : Dev) (v : Word)

/-- The device as NET_FLD_CFG has its value, before the MACs that stop have dropped their frames. -/
def Dev.fldCfgSet : Dev := (d.modNet (fun n => { n with fldWait := none })).setFld Fld.NET_FLD_CFG_EN (bitsAt v 0 2)

theorem fld_fldCfgSet : (d.fldCfgSet v).fld Fld.NET_FLD_CFG_EN = v.toNat % 4 := by
  rw [Dev.fldCfgSet, Dev.fld_setFld_same _ _ _ (by decide)]
  simp [bitsAt, Fld.NET_FLD_CFG_EN]

theorem takeFldCfg_only : only [.regs, .net] (fun o => o = Reg.NET_FLD_CFG ∨ netCounter o) d (takeFldCfg v d) := by
  rw [takeFldCfg_eq]
  have written : only [.regs, .net] (fun o => o = Reg.NET_FLD_CFG ∨ netCounter o) d (d.fldCfgSet v) :=
    only_trans (only_wider (modNet_only d _ _) (by simp)) (only_mono (by simp) (fun _ h => .inl h) (setFld_only _ Fld.NET_FLD_CFG_EN _))
  exact only_trans written (only_mono (by simp) (fun _ h => .inr h)
    (only_trans (stopField_only (d.fldCfgSet v) (by decide)) (stopField_only _ (by decide))))

theorem takeFldCfg_en : (takeFldCfg v d).fld Fld.NET_FLD_CFG_EN = v.toNat % 4 := by
  rw [takeFldCfg_eq, fld_stopField (by decide), fld_stopField (by decide)]
  exact fld_fldCfgSet d v

/-- The write ends a wait for the seeds, and else moves segments alone. -/
theorem takeFldCfg_net : ∃ f, (takeFldCfg v d).net = { d.net with fldWait := none, fields := f } := by
  rw [takeFldCfg_eq]
  exact segmentsMoved_trans (stopField_moves (d.fldCfgSet v) 0) (stopField_moves _ 1)

theorem takeFldCfg_stops {g : Nat} (hg : g < 2) (off : v.toNat.testBit g = false) : ((takeFldCfg v d).field g).tx = none := by
  have stopped : ∀ x : Dev, x.fld Fld.NET_FLD_CFG_EN = v.toNat % 4 → x.fbit Fld.NET_FLD_CFG_EN g = false := by
    intro x en
    have low : (v.toNat % 2 ^ 2).testBit g = false := by rw [Nat.testBit_mod_two_pow, off, Bool.and_false]
    rw [Dev.fbit, en]
    exact low
  rw [takeFldCfg_eq]
  obtain rfl | rfl : g = 0 ∨ g = 1 := by omega
  · rw [field_stopField_other _ (by decide)]
    exact stopField_stops (stopped _ (fld_fldCfgSet d v))
  · exact stopField_stops (stopped _ ((fld_stopField (by decide)).trans (fld_fldCfgSet d v)))

end TakeFldCfg

/-! ## Random output is released (R479) -/

/-- The registers that the release of random output moves. -/
def seedReg (o : Nat) : Prop := o = Reg.NET_FLD_CFG ∨ netCounter o

theorem seedFields_only (d : Dev) : only [.regs, .net] seedReg d d.seedFields := by
  have released := only_wider (l' := [.regs, .net]) (modNet_only d (fun n => { n with seedsHeld := false }) seedReg) (by simp)
  unfold Dev.seedFields
  dsimp only
  split
  · exact only_trans released (takeFldCfg_only _ _)
  · exact released

theorem seedFields_net (d : Dev) : d.seedFields.net.seedsHeld = false ∧ d.seedFields.net.fldWait = none := by
  unfold Dev.seedFields
  dsimp only
  split
  · rename_i v _
    obtain ⟨f, net⟩ := takeFldCfg_net (d.modNet (fun n => { n with seedsHeld := false })) v
    rw [net]
    exact ⟨rfl, rfl⟩
  · exact ⟨rfl, by assumption⟩

/-- Without a write that waits nothing but the network block's own state moves. -/
theorem seedFields_quiet {d : Dev} (h : d.net.fldWait = none) : d.seedFields = d.modNet (fun n => { n with seedsHeld := false }) := by
  rw [Dev.seedFields, h]

end Sys2Proof.Machine
end

section
/-! Key-store start, the sweep, the entropy source and the key store's commands (R476 to R479, R484, R491, R492, R495, R497). -/

namespace Sys2Proof.Machine

open Sys2Proof

/-! ## Tables -/

theorem find_mapVals {α β : Type} (f : Nat → α → β) (t : Tbl α) (n : Nat) : (Tbl.mapVals f t).find n = (t.find n).map (f n) := by
  induction t with
  | nil => rfl
  | cons x t ih =>
    obtain ⟨j, v⟩ := x
    simp only [Tbl.mapVals, Tbl.find]
    split
    · rename_i here
      rw [here]
      rfl
    · exact ih

theorem map_fst_mapVals {α β : Type} (f : Nat → α → β) (t : Tbl α) : (Tbl.mapVals f t).map (fun x => x.1) = t.map (fun x => x.1) := by
  induction t with
  | nil => rfl
  | cons x t ih => exact congrArg (x.1 :: ·) ih

theorem mapVals_id {α : Type} {f : Nat → α → α} (h : ∀ n v, f n v = v) (t : Tbl α) : Tbl.mapVals f t = t := by
  induction t with
  | nil => rfl
  | cons x t ih =>
    obtain ⟨j, v⟩ := x
    simp only [Tbl.mapVals, h, ih]

/-! ## The sweep (R484) -/

/-- What a sweep makes of a slot that hangs under a swept one. -/
def Slot.orphan (x : Slot) : Slot := { x with state := .orphaned, cur := none, next := none }

section Sweep

variable {k : KeySt} {n : Nat}

theorem slot_runSweep_hit {x : Slot} (held : k.slot n = some x) (valid : x.state = .valid) (below : k.descends k.sweep 5 n = true) :
    k.runSweep.slot n = some x.orphan := by
  rw [KeySt.slot] at held
  rw [KeySt.slot, KeySt.runSweep, find_mapVals, held]
  simp [valid, below, Slot.orphan]

theorem slot_runSweep_other (apart : k.descends k.sweep 5 n = false) : k.runSweep.slot n = k.slot n := by
  rw [KeySt.slot, KeySt.slot, KeySt.runSweep, find_mapVals]
  simp only [apart, Bool.and_false, Bool.false_eq_true, if_false]
  cases k.slots.find n <;> rfl

theorem descends_nothing (k : KeySt) (fuel n : Nat) : k.descends [] fuel n = false := by
  induction fuel generalizing n with
  | zero => rfl
  | succ fuel ih =>
    unfold KeySt.descends
    split
    · rfl
    · split
      · rfl
      · simp [ih]

/-- Where no slot is swept a sweep changes nothing. -/
theorem runSweep_idle (none_swept : k.sweep = []) : k.runSweep = k := by
  have same {α : Type} (t : Tbl α) : Tbl.mapVals (fun _ v => v) t = t := mapVals_id (fun _ _ => rfl) t
  rw [KeySt.runSweep]
  simp only [none_swept, descends_nothing, Bool.and_false, Bool.false_eq_true, if_false, same]
  rw [← none_swept]

end Sweep

/-! ## Events that only the log takes (R511) -/

/-- A counter of the log. -/
def logReg (o : Nat) : Prop := o ∈ [Reg.SNT_DISCARDED, Reg.SNT_FOLDED, Reg.SNT_OVERWRITTEN, Reg.SNT_SHADOW_LOST]

theorem count_log (d : Dev) {o : Nat} (h : logReg o) (n : Nat) : only [.regs, .snt] logReg d (d.count o n) :=
  only_mono (p := fun k => k = o) (by simp) (by rintro _ rfl; exact h) (count_only d o n)

theorem snt_log (d : Dev) (s : SntSt) : only [.regs, .snt] logReg d { d with snt := s } := only_of_kept (by simp [keptBut]) rfl

theorem shadowAdd_log (d : Dev) (r : SntRec) : only [.regs, .snt] logReg d (d.shadowAdd r) := by
  unfold Dev.shadowAdd
  split
  · exact snt_log _ _
  · split
    · exact count_log _ (by simp [logReg]) _
    · have put (v : SntRec) := only_trans (snt_log d { d.snt with shadow := dropSeq v.seq d.snt.shadow ++ [r] })
        (count_log _ (o := Reg.SNT_OVERWRITTEN) (by simp [logReg]) 1)
      dsimp only
      split
      · exact only_trans (put _) (only_trans (snt_log _ _) (count_log _ (by simp [logReg]) _))
      · exact put _

theorem waitAdd_log (d : Dev) (r : SntRec) : only [.regs, .snt] logReg d (d.waitAdd r) := by
  unfold Dev.waitAdd
  dsimp only
  split
  · exact snt_log _ _
  · split
    · exact count_log _ (by simp [logReg]) _
    · exact only_trans (snt_log _ _) (only_trans (snt_log _ _) (count_log _ (by simp [logReg]) _))

theorem sinter_log (d : Dev) (code sev status index arg : Nat) : only [.regs, .snt] logReg d (d.sinter code sev status index arg) := by
  unfold Dev.sinter
  dsimp only
  split
  · exact only_refl _ _ _
  · split
    · exact waitAdd_log _ _
    · split
      · exact count_log _ (by simp [logReg]) _
      · split
        · split
          · exact only_trans (snt_log _ _) (count_log _ (by simp [logReg]) _)
          · exact only_trans (snt_log _ _) (shadowAdd_log _ _)
        · exact only_trans (snt_log _ _) (shadowAdd_log _ _)

/-- An event that is not sent on the event ring moves the log alone. -/
theorem event_log (d : Dev) {e : Ev} (unsent : e.row.2.2.1 = false) (index arg0 arg1 status : Nat) :
    only [.regs, .snt] logReg d (d.event e index arg0 arg1 status) := by
  unfold Dev.event
  simp only [unsent, Bool.false_eq_true, if_false]
  exact only_ite (sinter_log _ _ _ _ _ _) (only_refl _ _ _)

theorem eventReg_of_logReg {o : Nat} (h : logReg o) : eventReg o := .inr (List.mem_cons_of_mem _ h)

/-! ## Enrolment (R476, R492) -/

section Enrol

variable {k : KeySt} (d : Dev)

theorem enrolNow_waits (fail : k.trngFail = true) : enrolNow k d = ({ k with enrolWaits := true }, d) := if_pos fail

theorem enrolNow_runs (random : k.trngFail = false) :
    enrolNow k d = (k.enrol, d.event .rootEnrolled noIndex (k.enrol.deviceId % 2 ^ 32)) := if_neg (by simp [random])

/-- The record of an enrolment moves the log alone. -/
theorem enrolNow_log : only [.regs, .snt] logReg d (enrolNow k d).2 := by
  unfold enrolNow
  split
  · exact only_refl _ _ _
  · exact event_log d rfl _ _ _ _

end Enrol

/-! ## Key-store start (R477, R491, R497) -/

/-- What key-store start may move beside the key store: the log, the event ring and the count of the retries. -/
def startReg (o : Nat) : Prop := eventReg o ∨ o = Reg.KEY_REGEN_RETRY

section Root

variable {k : KeySt} (d : Dev)

theorem startRoot_blank (blank : k.lc = .blank) : startRoot k d = enrolNow k d := if_pos blank

theorem startRoot_noHelper (began : k.lc ≠ .blank) (kept : k.lc ≠ .returned) (none_held : k.helper = []) :
    startRoot k d = ({ k with rootFail := true, root := none, deviceId := k.retainedId }, d.event .rootFail noIndex 0) := by
  rw [startRoot, if_neg began, if_neg kept, none_held]
  rfl

/-- A later start leaves all but the root secret and its readings. -/
theorem startRoot_later (began : k.lc ≠ .blank) (kept : k.lc ≠ .returned) :
    ∃ root fail id readings, (startRoot k d).1 = { k with root := root, rootFail := fail, deviceId := id, readings := readings } := by
  rw [startRoot, if_neg began, if_neg kept]
  split
  · exact ⟨_, _, _, _, rfl⟩
  · dsimp only
    split
    · exact ⟨_, _, _, _, rfl⟩
    · exact ⟨_, _, _, _, rfl⟩

theorem startRoot_only : only [.regs, .hif, .snt] startReg d (startRoot k d).2 := by
  have raised (x : Dev) (e : Ev) (i a b st : Nat) : only [.regs, .hif, .snt] startReg x (x.event e i a b st) :=
    only_mono (by simp) (fun _ h => .inl h) (event_only x e i a b st)
  have counted (n : Nat) : only [.regs, .hif, .snt] startReg d (d.count Reg.KEY_REGEN_RETRY n) :=
    only_mono (by simp) (fun _ h => .inr h) (count_only d _ n)
  unfold startRoot
  split
  · exact only_mono (by simp) (fun _ h => .inl (eventReg_of_logReg h)) (enrolNow_log d)
  · split
    · exact only_refl _ _ _
    · split
      · dsimp only
        exact raised d .rootFail noIndex 0 0 sOk
      · rename_i h _
        generalize regenerate h.data h.check 4 k.readings 0 = res
        dsimp only
        split
        · exact counted _
        · dsimp only
          exact only_trans (counted _) (raised _ _ _ _ _ _)

end Root

/-- The key store whose journal, left COMMITTED with a cell, is rolled forward. -/
def KeySt.rolledForward (k : KeySt) (j : Journal) (n : Nat) (v : KeyCell) : KeySt :=
  { k with
    counter := j.counter, cells := k.cells.put n v, writes := k.writes.update n 0 (· + 1), slots := k.slots.put n (openCell k.root v),
    journal := some { j with state := .done }, interrupted := false, lastRestart := 2 }

/-- The key store without its root secret whose journal, left OPEN, is rolled back. -/
def KeySt.rolledBack (k : KeySt) (j : Journal) : KeySt :=
  { k with
    rootFail := true, root := none, deviceId := k.retainedId, journal := some { j with state := .done }, interrupted := false, lastRestart := 1 }

section Replay

variable {k : KeySt} (d : Dev)

theorem replayJournal_none (empty : k.journal = none) : replayJournal k d = ({ k with interrupted := false, lastRestart := 0 }, d) := by
  rw [replayJournal, empty]

variable {j : Journal} (held : k.journal = some j)

include held

theorem replayJournal_open (state : j.state = .open_) : replayJournal k d
    = ({ k with journal := some { j with state := .done }, interrupted := false, lastRestart := 1 },
      d.event .journalReplayed j.target (j.kind + 256 * 1)) := by
  simp only [replayJournal, held, state]

/-- A committed cell is rolled forward into MRAM and the cache, with its counter. -/
theorem replayJournal_committed {n : Nat} {v : KeyCell} (state : j.state = .committed) (change : j.change = .setCell n v) :
    replayJournal k d = (k.rolledForward j n v, d.event .journalReplayed j.target (j.kind + 256 * 2)) := by
  simp only [replayJournal, held, state, change, KeySt.applyStored, KeySt.applyCache, KeySt.opened, KeySt.rolledForward]

end Replay

theorem replayJournal_only (k : KeySt) (d : Dev) : only [.regs, .hif, .snt] eventReg d (replayJournal k d).2 := by
  unfold replayJournal
  split
  · exact only_refl _ _ _
  · split
    · exact only_refl _ _ _
    · exact event_only _ _ _ _ _ _
    · exact event_only _ _ _ _ _ _

/-- The device after key-store start: the step is done, and START_STEP shows the next one (R543). -/
def Dev.keyStepDone (d : Dev) : Dev := (d.modClk (fun c => { c with keyStarted := true })).showStep

theorem keyStepDone_only (d : Dev) : only [.regs, .clk] (fun o => o = Reg.RST_STATUS) d d.keyStepDone :=
  only_trans (only_wider (modClk_only d _ _) (by simp)) (only_wider (setFld_only _ Fld.RST_STATUS_START_STEP _) (by simp))

/-- The key store whose cache is loaded, and which has started. -/
def KeySt.cached (k : KeySt) : KeySt := { k.loadCache.runSweep with started := true }

/-- Without a sweep that is under way the cache holds what the cells do. -/
theorem cached_idle {k : KeySt} (idle : k.sweep = []) : k.cached = { k.loadCache with started := true } := by
  rw [KeySt.cached, runSweep_idle (k := k.loadCache) idle]

section KeyStart

variable {k k1 k2 : KeySt} {d d1 d2 : Dev} (due : d.bit Fld.CLK_STATUS_PLL_LOCK = true ∧ d.clk.keyStarted = false
  ∧ d.bit Fld.CLK_STATUS_RESCUE = false ∧ k.started = false)

include due

/-- Key-store start, by what becomes of the root and of the journal. -/
theorem keyStart_eq (root : startRoot k d = (k1, d1)) (journal : replayJournal k1 d1 = (k2, d2)) :
    keyStart k d = (k2.cached, d2.keyStepDone) := by
  obtain ⟨locked, first, running, stopped⟩ := due
  rw [keyStart, if_pos (by simp [locked, first, running])]
  simp only [keyStoreStart, stopped, Bool.false_eq_true, if_false, root, journal]
  rfl

theorem keyStart_only {p : Nat → Prop} (events : ∀ o, eventReg o → p o) (root : only [.regs, .hif, .snt] p d (startRoot k d).2) :
    only [.regs, .hif, .snt, .clk] (fun o => p o ∨ o = Reg.RST_STATUS) d (keyStart k d).2 := by
  rw [keyStart_eq due rfl rfl]
  exact only_trans (only_mono (by simp) (fun _ h => .inl h) root)
    (only_trans (only_mono (by simp) (fun _ h => .inl (events _ h)) (replayJournal_only _ _))
      (only_mono (by simp) (fun _ h => .inr h) (keyStepDone_only _)))

/-- A blank device without random output: the enrolment waits. -/
theorem keyStart_withheld (blank : k.lc = .blank) (fail : k.trngFail = true) (empty : k.journal = none) :
    keyStart k d = (({ k with enrolWaits := true, interrupted := false, lastRestart := 0 } : KeySt).cached, d.keyStepDone) :=
  keyStart_eq due ((startRoot_blank d blank).trans (enrolNow_waits d fail)) (replayJournal_none d (k := { k with enrolWaits := true }) empty)

/-- A blank device is enrolled. -/
theorem keyStart_enrols (blank : k.lc = .blank) (random : k.trngFail = false) (empty : k.journal = none) :
    (keyStart k d).1 = ({ k.enrol with interrupted := false, lastRestart := 0 } : KeySt).cached
      ∧ only [.regs, .hif, .snt, .clk] (fun o => eventReg o ∨ o = Reg.RST_STATUS) d (keyStart k d).2 := by
  have root := (startRoot_blank d blank).trans (enrolNow_runs d random)
  refine ⟨?_, keyStart_only due (fun _ h => h) ?_⟩
  · rw [keyStart_eq due root (replayJournal_none _ (k := k.enrol) empty)]
  · rw [startRoot_blank d blank]
    exact only_mono (by simp) (fun _ h => eventReg_of_logReg h) (enrolNow_log d)

section Later

variable (began : k.lc ≠ .blank) (kept : k.lc ≠ .returned) {j : Journal} (held : k.journal = some j)

include began kept held

/-- A journal left OPEN on a device whose root secret is lost is rolled back, and no key opens. -/
theorem keyStart_rollsBack (lost : k.helper = []) (state : j.state = .open_) :
    (keyStart k d).1 = (k.rolledBack j).cached
      ∧ only [.regs, .hif, .snt, .clk] (fun o => eventReg o ∨ o = Reg.RST_STATUS) d (keyStart k d).2 := by
  have root := startRoot_noHelper d began kept lost
  refine ⟨?_, keyStart_only due (fun _ h => h) ?_⟩
  · rw [keyStart_eq due root (replayJournal_open _ (k := { k with rootFail := true, root := none, deviceId := k.retainedId }) held state)]
    rfl
  · rw [root]
    dsimp only
    exact event_only d .rootFail noIndex 0 0 sOk

/-- A journal left COMMITTED is rolled forward, with its counter. -/
theorem keyStart_rollsForward {n : Nat} {v : KeyCell} (state : j.state = .committed) (change : j.change = .setCell n v) :
    ∃ root fail id readings,
      (keyStart k d).1 = (({ k with root := root, rootFail := fail, deviceId := id, readings := readings } : KeySt).rolledForward j n v).cached := by
  obtain ⟨root, fail, id, readings, found⟩ := startRoot_later d began kept
  refine ⟨root, fail, id, readings, ?_⟩
  have rolled := replayJournal_committed (startRoot k d).2
    (k := { k with root := root, rootFail := fail, deviceId := id, readings := readings }) held state change
  rw [keyStart_eq due (Prod.ext found rfl) rolled]

end Later

end KeyStart

/-! ## What the rows leave -/

theorem exists_runKey {P : State → Prop} {s : State} {dt : Nat} {f : KeySt → Dev → KeySt × Dev} (h :
    P { s with key := (f s.key (later s.dev dt)).1, dev := (f s.key (later s.dev dt)).2 }) :
    ∃ t, s.runKey dt f = .next t ∧ t.pending = s.pending ∧ P t := ⟨_, rfl, rfl, h⟩

theorem loadCache_closed (k : KeySt) (lost : k.root = none) :
    k.loadCache.slots.map (fun x => x.1) = k.cells.map (fun x => x.1)
      ∧ k.loadCache.slots.all (fun x => x.2.cur.isNone && x.2.next.isNone) = true := by
  refine ⟨map_fst_mapVals _ _, List.all_eq_true.mpr fun x hx => ?_⟩
  obtain ⟨c, -, opened⟩ := Tbl.mem_mapVals hx
  rw [opened, lost]
  cases hc : c.cur <;> cases hn : c.next <;> simp [openCell, hc, hn]

theorem slot_loadCache (k : KeySt) {n : Nat} {v : KeyCell} (h : k.cells.find n = some v) : k.loadCache.slot n = some (openCell k.root v) := by
  rw [KeySt.slot, KeySt.loadCache, find_mapVals, h]
  rfl

/-! ## The entropy source (R479) -/

section Entropy

variable {k : KeySt} (d : Dev)

theorem trngFails_log (passing : k.trngFail = false) : (trngFails k d).1 = { k with trngFail := true }
    ∧ only [.regs, .hif, .net, .snt] eventReg d (trngFails k d).2 := by
  rw [trngFails, if_neg (by simp [passing])]
  refine ⟨rfl, only_trans (b := if k.started then d else d.modNet (fun n => { n with seedsHeld := true })) ?_ ?_⟩
  · exact only_ite (only_refl _ _ _) (only_wider (modNet_only _ _ _) (by simp))
  · exact only_mono (by simp) (fun _ h => eventReg_of_logReg h) (event_log _ rfl _ _ _ _)

variable (failing : k.trngFail = true)

include failing

theorem trngPass_plain (calm : k.enrolWaits = false) : trngPass k d = ({ k with trngFail := false }, d) := by
  rw [trngPass, if_neg (by simp [failing]), if_neg (by simp [calm])]

theorem trngPass_enrols (waits : k.enrolWaits = true) : trngPass k d
    = (({ k with trngFail := false } : KeySt).enrol, d.event .rootEnrolled noIndex (({ k with trngFail := false } : KeySt).enrol.deviceId % 2 ^ 32)) := by
  rw [trngPass, if_neg (by simp [failing]), if_pos waits]
  exact enrolNow_runs d rfl

end Entropy

/-! ## The commands (R492, R495) -/

theorem keyInfo_fits {k : KeySt} {first count : Nat} {buf : HostBuf}
    (h : 1 ≤ count ∧ count ≤ 256 ∧ first + count ≤ 1024 ∧ 16 * count ≤ buf.len) (d : Dev) :
    keyInfo k first count buf d = (d, .block ((List.range count).flatMap (fun i => keyInfoBlock k (first + i))) (some buf.addr)) :=
  if_neg (by omega)

theorem keyInfo_refused {k : KeySt} {first count : Nat} {buf : HostBuf}
    (h : count = 0 ∨ 256 < count ∨ 1024 < first + count ∨ buf.len < 16 * count) (d : Dev) :
    keyInfo k first count buf d = (d, .done sRange 0) := if_pos h

theorem keyReenrolCheck_lifecycle {k : KeySt} (h : k.rootFail = false ∨ k.lc = .blank ∨ k.lc = .returned) (confirm : Nat) :
    keyReenrolCheck k confirm = sLifecycle := if_pos h

section Reenrol

variable {k : KeySt} (failed : k.rootFail = true ∧ k.lc ≠ .blank ∧ k.lc ≠ .returned)

include failed

theorem keyReenrolCheck_refused {confirm : Nat} (h : confirm ≠ 0x454E524C ∨ k.trngFail = true) :
    keyReenrolCheck k confirm = if confirm = 0x454E524C then sBusy else sRange := by
  obtain ⟨fail, began, kept⟩ := failed
  rw [keyReenrolCheck, if_neg (by simp [fail, began, kept])]
  by_cases right : confirm = 0x454E524C
  · have withheld : k.trngFail = true := h.resolve_left (not_not_intro right)
    rw [if_neg (not_not_intro right), if_pos withheld, if_pos right]
  · rw [if_pos right, if_neg right]

theorem keyReenrolCheck_passes (random : k.trngFail = false) : keyReenrolCheck k 0x454E524C = sOk := by
  obtain ⟨fail, began, kept⟩ := failed
  rw [keyReenrolCheck, if_neg (by simp [fail, began, kept]), if_neg (by decide), if_neg (by simp [random])]

end Reenrol

/-- A KEY_REENROL whose check fails completes with that status. -/
theorem exec_keyReenrol_refused {s : State} {c : Ctx} {confirm st : Nat} (hr : ready s.dev c.ring true none)
    (check : keyReenrolCheck s.key confirm = st) (bad : st ≠ sOk) :
    exec (.keyReenrol c confirm) s = .next (served s c (fetched s.dev c.ring) (.done st 0)) := by
  refine Eq.trans ?_ (run_accept_ready (fun _ x => (x, .done st 0)) hr)
  have refused : keyReenrol c confirm s.key (later s.dev 0) = (s.key, (later s.dev 0).accept c true none (fun x => (x, .done st 0))) := by
    rw [keyReenrol, check]
    exact if_neg (by simp [bad])
  show Host.Outcome.next { s with key := (keyReenrol c confirm s.key (later s.dev 0)).1, dev := (keyReenrol c confirm s.key (later s.dev 0)).2 } = _
  rw [refused]
  rfl

/-- A KEY_REENROL that passes enrols the device anew and completes with S_OK. -/
theorem keyReenrol_enrols {c : Ctx} {k : KeySt} {d : Dev} (hr : ready d c.ring true none) (check : keyReenrolCheck k 0x454E524C = sOk)
    (random : k.trngFail = false) :
    (keyReenrol c 0x454E524C k d).1 = k.enrol ∧ completes d c.ring sOk 0 (keyReenrol c 0x454E524C k d).2
      ∧ only [.regs, .hif, .snt] eventReg d (keyReenrol c 0x454E524C k d).2 := by
  obtain ⟨takes, awake, room, open_⟩ := hr
  have ran : keyReenrol c 0x454E524C k d = ((enrolNow k d).1, d.accept c true none (fun x => ((enrolNow k x).2, .ok))) := by
    rw [keyReenrol, check]
    exact if_pos (by simp [takes, awake, room rfl])
  have done := accept_ready (c := c) (waits := true) (gate := none) (f := fun x => ((enrolNow k x).2, .ok)) takes awake room open_
  have offered : d.runs c.ring 1 = true ∧ d.hostReady = true := by
    simp only [Dev.accepts, Dev.offers, Bool.and_eq_true] at takes
    exact takes.1.1
  obtain ⟨runs, host⟩ := offered
  have enrolled := enrolNow_log (k := k) (d.fetch c.ring)
  rw [ran, done]
  refine ⟨by rw [enrolNow_runs d random], ?_, ?_⟩
  · refine completes_of_only runs (l := [.regs, .snt]) (p := logReg) enrolled (by decide) ?_ ?_ host
    · simp only [logReg, Reg.HIF_RINGn_STAT]
      have := runs_lt runs
      simp only [List.mem_cons, List.not_mem_nil, or_false, Reg.SNT_DISCARDED, Reg.SNT_FOLDED, Reg.SNT_OVERWRITTEN, Reg.SNT_SHADOW_LOST]
      omega
    · unfold logReg
      decide
  · refine only_trans (only_wider (fetch_only d c.ring eventReg) (by simp)) ?_
    exact only_trans (only_mono (by simp) (fun _ h => eventReg_of_logReg h) enrolled)
      (only_mono (by simp) (fun _ h => .inl h) (answer_only _ c (runs_lt runs) _ _ _))

end Sys2Proof.Machine
end

section
/-! The statements about the key store's own events and commands (O30, O60). -/

namespace Sys2Proof.Machine

open Sys2Proof

/-! ## What an enrolment leaves -/

section Enrolled

variable (k : KeySt)

theorem enrol_lc : k.enrol.lc = .provision := rfl
theorem enrol_root : k.enrol.root.isSome = true := rfl
theorem enrol_slots : k.enrol.slots = [] := rfl
theorem enrol_counter : k.enrol.counter = k.counter := rfl
theorem enrol_rootFail : k.enrol.rootFail = false := rfl
theorem enrol_trngFail : k.enrol.trngFail = k.trngFail := rfl

/-- The store of a device that its start enrols. -/
def KeySt.enrolStarted : KeySt := ({ k.enrol with interrupted := false, lastRestart := 0 } : KeySt).cached

theorem enrolStarted_facts : k.enrolStarted.lc = .provision ∧ k.enrolStarted.root.isSome = true ∧ k.enrolStarted.slots = []
    ∧ k.enrolStarted.started = true ∧ k.enrolStarted.counter = k.counter := by
  rw [KeySt.enrolStarted, cached_idle (by rfl)]
  exact ⟨rfl, rfl, rfl, rfl, rfl⟩

end Enrolled

theorem rolledBack_facts {k : KeySt} (j : Journal) (idle : k.sweep = []) : (k.rolledBack j).cached.rootFail = true
    ∧ (k.rolledBack j).cached.lastRestart = 1 ∧ (k.rolledBack j).cached.counter = k.counter
    ∧ (k.rolledBack j).cached.slots.map (fun x => x.1) = k.cells.map (fun x => x.1)
    ∧ (k.rolledBack j).cached.slots.all (fun x => x.2.cur.isNone && x.2.next.isNone) = true
    ∧ (k.rolledBack j).cached.journal = some { j with state := .done } ∧ (k.rolledBack j).cached.interrupted = false := by
  rw [cached_idle (by exact idle)]
  obtain ⟨same, closed⟩ := loadCache_closed (k.rolledBack j) rfl
  exact ⟨rfl, rfl, rfl, same, closed, rfl, rfl⟩

theorem rolledForward_facts {k : KeySt} (j : Journal) (n : Nat) (v : KeyCell) (idle : k.sweep = []) :
    (k.rolledForward j n v).cached.lastRestart = 2 ∧ (k.rolledForward j n v).cached.counter = j.counter
    ∧ (k.rolledForward j n v).cached.cells.find n = some v
    ∧ (k.rolledForward j n v).cached.slot n = some (openCell (k.rolledForward j n v).cached.root v)
    ∧ (k.rolledForward j n v).cached.journal = some { j with state := .done } ∧ (k.rolledForward j n v).cached.interrupted = false := by
  have held : (k.rolledForward j n v).cells.find n = some v := Tbl.find_put_same _ _ _
  rw [cached_idle (by exact idle)]
  exact ⟨rfl, rfl, held, slot_loadCache _ held, rfl, rfl⟩

/-! ## The rows -/

/-- A sweep runs on a store that has started and is not interrupted. -/
theorem exists_keySweep {P : State → Prop} {s : State} {dt : Nat} (runs : s.key.started = true ∧ s.key.interrupted = false)
    (h : P { s with key := s.key.runSweep, dev := later s.dev dt }) :
    ∃ t, exec (.keySweep dt) s = .next t ∧ t.pending = s.pending ∧ P t := by
  obtain ⟨started, whole⟩ := runs
  refine exists_runKey (f := fun k d => (if k.started && !k.interrupted then k.runSweep else k, d)) ?_
  simpa only [started, whole, Bool.not_false, Bool.and_self, if_true] using h

/-- Settles O30: each row by what becomes of the root, the journal, the cache or the checks. -/
theorem keyStoreEventsTakeEffect : Obligations.KeyStoreEventsTakeEffect := by
  unfold Obligations.KeyStoreEventsTakeEffect
  refine ⟨?_, ?_, ?_, ?_, ?_, ?_, ?_, ?_, ?_, ?_, ?_, ?_, ?_, ?_⟩
  · rintro s dt _ rfl due ⟨blank, random, empty⟩
    obtain ⟨key, frame⟩ := keyStart_enrols due blank random empty
    obtain ⟨lc, root, slots, started, counter⟩ := enrolStarted_facts s.key
    refine exists_runKey (f := keyStart) ?_
    rw [key]
    exact ⟨lc, root, slots, started, counter, frame⟩
  · rintro s dt _ rfl due ⟨blank, fail, empty⟩
    refine exists_runKey (f := keyStart) ?_
    rw [keyStart_withheld due blank fail empty]
    exact ⟨blank, rfl, rfl, keyStepDone_only _⟩
  · rintro s dt _ j rfl due ⟨began, kept, lost, idle, held, state⟩
    obtain ⟨key, frame⟩ := keyStart_rollsBack due began kept held lost state
    obtain ⟨fail, restart, counter, same, closed, journal, whole⟩ := rolledBack_facts j idle
    refine exists_runKey (f := keyStart) ?_
    rw [key]
    exact ⟨fail, restart, counter, same, closed, journal, whole, frame⟩
  · rintro s dt _ j n v rfl due ⟨began, kept, idle, held, state, change⟩
    obtain ⟨root, fail, id, readings, key⟩ := keyStart_rollsForward due began kept held state change
    obtain ⟨restart, counter, cell, slot, journal, whole⟩ := rolledForward_facts
      (k := { s.key with root := root, rootFail := fail, deviceId := id, readings := readings }) j n v idle
    have frame := keyStart_only due (fun _ h => .inl h) (startRoot_only (later s.dev dt))
    refine exists_runKey (f := keyStart) ?_
    rw [key]
    refine ⟨restart, counter, cell, slot, journal, whole, only_mono (fun _ h => h) ?_ frame⟩
    rintro o ((event | retry) | step)
    · exact .inl event
    · exact .inr (.inr retry)
    · exact .inr (.inl step)
  · rintro s dt n x _ rfl ⟨started, whole, held, valid, below⟩
    exact exists_keySweep ⟨started, whole⟩ ⟨slot_runSweep_hit held valid below, rfl, rfl, rfl, rfl⟩
  · rintro s dt n _ rfl ⟨started, whole, apart⟩
    exact exists_keySweep ⟨started, whole⟩ (slot_runSweep_other apart)
  · rintro s dt _ rfl passing
    exact exists_runKey (f := trngFails) (trngFails_log _ passing)
  · rintro s dt _ rfl ⟨failing, calm⟩
    obtain ⟨seeds, wait⟩ := seedFields_net (later s.dev dt)
    refine exists_runKey (f := fun k d => trngPass k d.seedFields) ?_
    rw [trngPass_plain _ failing calm]
    exact ⟨rfl, seeds, wait, seedFields_only _⟩
  · rintro s dt _ rfl ⟨failing, waits, noWrite⟩
    refine exists_runKey (f := fun k d => trngPass k d.seedFields) ?_
    rw [trngPass_enrols _ failing waits, seedFields_quiet noWrite]
    have released := only_wider (l' := [.regs, .hif, .net, .snt]) (modNet_only (later s.dev dt) (fun n => { n with seedsHeld := false }) eventReg)
      (by simp)
    refine ⟨enrol_lc _, enrol_root _, enrol_slots _, enrol_counter _, enrol_trngFail _, only_trans released ?_⟩
    exact only_mono (by simp) (fun _ h => eventReg_of_logReg h) (event_log _ rfl _ _ _ _)
  · rintro s c _ first count buf hr rfl fits
    exact exec_of_accept (fun k => keyInfo k first count buf) hr rfl (keyInfo_fits fits _)
  · rintro s c _ first count buf hr rfl bad
    exact exec_of_accept (fun k => keyInfo k first count buf) hr rfl (keyInfo_refused bad _)
  · rintro s c _ confirm hr rfl barred
    exact exec_keyReenrol_refused hr (keyReenrolCheck_lifecycle barred confirm) (by decide)
  · rintro s c _ confirm hr rfl failed bad
    refine exec_keyReenrol_refused hr (keyReenrolCheck_refused failed bad) ?_
    split <;> decide
  · rintro s c _ rfl hr ⟨fail, began, kept, random⟩
    obtain ⟨key, done, frame⟩ := keyReenrol_enrols (d := later s.dev 0) hr (keyReenrolCheck_passes ⟨fail, began, kept⟩ random) random
    refine exists_runKey (f := keyReenrol c 0x454E524C) ?_
    rw [key]
    exact ⟨enrol_lc _, enrol_root _, enrol_rootFail _, enrol_slots _, enrol_counter _, done, frame⟩

/-- Settles O60: the rows of O30, of which it asks a part. -/
theorem keyStoreRowsComplete : Obligations.KeyStoreRowsComplete := by
  obtain ⟨enrols, -, -, -, sweeps, -, fails, recovers, -, informs, -, -, -, reenrols⟩ := keyStoreEventsTakeEffect
  unfold Obligations.KeyStoreRowsComplete
  refine ⟨?_, ?_, ?_, ?_, informs, ?_⟩
  · intro s dt d hd due blank
    obtain ⟨t, step, pending, lc, root, -, started, -⟩ := enrols s dt d hd due blank
    exact ⟨t, step, pending, lc, root, started⟩
  · intro s dt n x d hd h
    obtain ⟨t, step, pending, slot, -⟩ := sweeps s dt n x d hd h
    exact ⟨t, step, pending, slot⟩
  · intro s dt d hd h
    obtain ⟨t, step, pending, key, -⟩ := fails s dt d hd h
    exact ⟨t, step, pending, by rw [key]⟩
  · intro s dt d hd h
    obtain ⟨t, step, pending, key, seeds, -⟩ := recovers s dt d hd h
    exact ⟨t, step, pending, by rw [key], seeds⟩
  · intro s c d hd hr h
    obtain ⟨t, step, pending, lc, -, rootFail, -, -, done, -⟩ := reenrols s c d hd hr h
    exact ⟨t, step, pending, lc, rootFail, done⟩

end Sys2Proof.Machine
end

section
/-! The output sessions and the rows of the field ports (R373, R374, R378, R380 to R382, R386): the statements O19 and O57. -/

namespace Sys2Proof.Machine

open Sys2Proof

/-! ## Sessions -/

section Session

variable (d : Dev) (n : Nat) (f : SessSt → SessSt)

theorem sess_modSess_same : (d.modSess n f).sess n = f (d.sess n) := by
  show (Tbl.getD (d.net.sess.put n (f (d.sess n))) n {}) = _
  rw [Tbl.getD, Tbl.find_put_same]
  rfl

theorem modSess_only (p : Nat → Prop) : only [.net] p d (d.modSess n f) := modNet_only _ _ _

end Session

/-- Frames of a session have been queued from `d` to `t`: counters of the ports have moved, and no session. -/
def framesQueued (d t : Dev) : Prop := only [.regs, .net] netCounter d t ∧ t.net.sess = d.net.sess

theorem framesQueued_refl (d : Dev) : framesQueued d d := ⟨only_refl _ _ _, rfl⟩

theorem framesQueued_trans {a b c : Dev} (h : framesQueued a b) (k : framesQueued b c) : framesQueued a c :=
  ⟨only_trans h.1 k.1, k.2.trans h.2⟩

theorem queueFrame_queued (d : Dev) {p : Nat} (hp : p < 4) (q : Nat) (f : TxFrame) : framesQueued d (d.queueFrame p q f) := by
  have drop : netCounter (Reg.NET_Pp_TX_DROP p) := by simp only [netCounter, Reg.NET_Pp_TX_DROP]; omega
  have lost : netCounter (Reg.NET_Pp_TX_Q_LOST p) := by simp only [netCounter, Reg.NET_Pp_TX_Q_LOST]; omega
  unfold Dev.queueFrame
  split
  · exact ⟨only_mono (by simp) (by rintro _ rfl; exact drop) (count_only _ _ _), rfl⟩
  · refine ⟨only_trans (only_wider (setPort_only d p _ _) (by simp)) (only_mono (by simp) (by rintro _ rfl; exact lost) (count_only _ _ _)), rfl⟩

/-- The ports of a session that send now. -/
def Dev.sessPorts (d : Dev) (e : SessEntry) : List Nat := (bitsOf 4 e.portMask).filter (fun p => d.bit (Fld.NET_Pp_STATUS_LINK p))

theorem lt_of_mem_sessPorts {d : Dev} {e : SessEntry} {p : Nat} (h : p ∈ d.sessPorts e) : p < 4 := by
  simp only [Dev.sessPorts, bitsOf, List.mem_filter, List.mem_range] at h
  exact h.1.1

/-- The device whose frames of a session are queued on its ports. -/
def Dev.queueAll (d : Dev) (e : SessEntry) (frames : List TxFrame) : Dev :=
  (d.sessPorts e).foldl (fun (x : Dev) p => frames.foldl (fun (y : Dev) f => y.queueSess p e f) x) d

theorem queueSess_queued (d : Dev) {p : Nat} (hp : p < 4) (e : SessEntry) (f : TxFrame) : framesQueued d (d.queueSess p e f) :=
  queueFrame_queued d hp _ _

theorem queueAll_queued (d : Dev) (e : SessEntry) (frames : List TxFrame) : framesQueued d (d.queueAll e frames) := by
  have onPort : ∀ x : Dev, ∀ p ∈ d.sessPorts e, framesQueued x (frames.foldl (fun (y : Dev) f => y.queueSess p e f) x) := fun x p hp =>
    foldl_keeps framesQueued_refl framesQueued_trans (fun y f => queueSess_queued y (lt_of_mem_sessPorts hp) e f) frames x
  exact foldl_keeps_of_mem framesQueued_refl framesQueued_trans onPort d

theorem sendSess_eq (d : Dev) (n : Nat) (e : SessEntry) (frames : List TxFrame) : d.sendSess n e frames
    = ((d.queueAll e frames).modSess n (fun x => { x with sent := x.sent + (d.sessPorts e).length * frames.length }),
      (d.sessPorts e).length * frames.length) := rfl

theorem sendSess_only (d : Dev) (n : Nat) (e : SessEntry) (frames : List TxFrame) :
    only [.regs, .net] netCounter d (d.sendSess n e frames).1 :=
  only_trans (queueAll_queued d e frames).1 (only_wider (modSess_only _ n _ _) (by simp))

/-- A session that sends has one frame more for each port and frame. -/
theorem sendSess_sess (d : Dev) (n : Nat) (e : SessEntry) (frames : List TxFrame) : ((d.sendSess n e frames).1).sess n
    = { d.sess n with sent := (d.sess n).sent + (d.sessPorts e).length * frames.length } := by
  have same : (d.queueAll e frames).sess n = d.sess n := by rw [Dev.sess, (queueAll_queued d e frames).2, Dev.sess]
  rw [sendSess_eq]
  exact (sess_modSess_same _ _ _).trans (by rw [same])

/-! ## SESSION_PUBLISH (R373) -/

section Publish

variable {k : KeySt} {d : Dev} {n ep : Nat} {e : SessEntry} {rest : List Nat}

/-- A C37_OUT session that runs sends its data frame on each of its ports whose link is up. -/
theorem publishEpoch_sends (data : e.type = 0) (runs : (d.sess n).txOn = true ∧ d.muted e = false ∧ (d.sess n).keyOrphaned = false) :
    only [.regs, .net] netCounter d (Dev.publishEpoch k d n e ep) ∧ ((Dev.publishEpoch k d n e ep).sess n).todo = (d.sess n).todo
      ∧ ((Dev.publishEpoch k d n e ep).sess n).sent = (d.sess n).sent + (d.sessPorts e).length := by
  obtain ⟨on, unmuted, sound⟩ := runs
  have noKey : sessKey k e = .ok none := by simp [sessKey, data]
  have kind : e.type ≠ 2 := by omega
  let frames := [sessFrame e (d.c37Frame (d.sess n) e d.draw.1 ep).length
    (.session n e.dstMac e.dstIp e.dstPort e.srcPort (d.c37Frame (d.sess n) e d.draw.1 ep))]
  have sends : Dev.publishEpoch k d n e ep = if (d.draw.2.sendSess n e frames).2 = 0
      then (d.draw.2.sendSess n e frames).1.modSess n (fun z => { z with notSent := (z.notSent + 1) % 2 ^ 32 })
      else (d.draw.2.sendSess n e frames).1 := by
    rw [Dev.publishEpoch, if_neg (by simp [on, unmuted, sound]), noKey]
    simp only [if_neg kind, if_pos data]
    rfl
  have sess : ((d.draw.2.sendSess n e frames).1).sess n = { d.sess n with sent := (d.sess n).sent + (d.sessPorts e).length } := by
    rw [sendSess_sess]
    exact congrArg (fun m => { d.sess n with sent := (d.sess n).sent + m }) (Nat.mul_one _)
  have frame : only [.regs, .net] netCounter d (d.draw.2.sendSess n e frames).1 :=
    only_trans (only_wider (draw_only d _) (by simp)) (sendSess_only _ _ _ _)
  rw [sends]
  generalize d.draw.2.sendSess n e frames = sent at sess frame
  split
  · refine ⟨only_trans frame (only_wider (modSess_only _ n _ _) (by simp)), ?_, ?_⟩ <;> rw [sess_modSess_same, sess]
  · exact ⟨frame, by rw [sess], by rw [sess]⟩

/-- The item of a session that has an epoch to publish is served, and then the epoch is published. -/
theorem sessItem_eq (entry : (d.sess n).entry = some e)
    (due : (d.sess n).todo.dropWhile (fun x => decide (x % max 1 e.rateDiv ≠ 0)) = ep :: rest) (served : (d.serve 0x04 n).2 = true)
    (same : (d.serve 0x04 n).1.sess n = d.sess n) :
    Dev.sessItem k d n = Dev.publishEpoch k ((d.serve 0x04 n).1.modSess n (fun z => { z with todo := rest })) n e ep := by
  have inTodo : ep ∈ (d.sess n).todo := (List.dropWhile_sublist _).subset (due ▸ List.mem_cons_self)
  have divides : ep % max 1 e.rateDiv = 0 := by
    have first := List.head_dropWhile_not (fun x => decide (x % max 1 e.rateDiv ≠ 0)) (l := (d.sess n).todo) (by rw [due]; simp)
    simp only [due, List.head_cons] at first
    simpa using first
  have some_due : (d.sess n).entry.all (fun e => (d.sess n).todo.all (fun ep => decide (ep % max 1 e.rateDiv ≠ 0))) = false := by
    rw [entry]
    exact List.all_eq_false.mpr ⟨ep, inTodo, by simp [divides]⟩
  rw [Dev.sessItem]
  simp only [some_due, served, Bool.false_eq_true, if_false, if_true]
  rw [Dev.sessPublish, same, entry]
  simp only [due]

theorem sessionPublish_sends (entry : (d.sess n).entry = some e) (data : e.type = 0)
    (due : (d.sess n).todo.dropWhile (fun x => decide (x % max 1 e.rateDiv ≠ 0)) = ep :: rest)
    (runs : (d.sess n).txOn = true ∧ d.muted e = false ∧ (d.sess n).keyOrphaned = false) (calm : d.calm = true)
    (served : (d.serve 0x04 n).2 = true) :
    only [.regs, .net, .sch] (fun o => o / 0x1000 ∈ [0x0e1, 0x0d0]) d (Dev.sessItem k d n) ∧ ((Dev.sessItem k d n).sess n).todo = rest
      ∧ ((Dev.sessItem k d n).sess n).sent
        = (d.sess n).sent + ((bitsOf 4 e.portMask).filter (fun p => d.bit (Fld.NET_Pp_STATUS_LINK p))).length := by
  have item := serve_only calm 0x04 n
  have net := only_net item (by simp)
  rw [sessItem_eq entry due served (by rw [Dev.sess, net, Dev.sess])]
  generalize (d.serve 0x04 n).1 = x at item net
  have same : x.sess n = d.sess n := by rw [Dev.sess, net, Dev.sess]
  have links : ∀ p, x.bit (Fld.NET_Pp_STATUS_LINK p) = d.bit (Fld.NET_Pp_STATUS_LINK p) := fun p =>
    only_bit item (by simp only [schReg, Fld.NET_Pp_STATUS_LINK, Reg.NET_Pp_STATUS]; omega)
  have split_ : x.muted e = d.muted e := by rw [Dev.muted, only_bit item (by unfold schReg; decide), Dev.muted]
  have taken := sess_modSess_same x n (fun z => { z with todo := rest })
  rw [same] at taken
  obtain ⟨frame, todo, sent⟩ := publishEpoch_sends (k := k) (d := x.modSess n (fun z => { z with todo := rest })) (n := n) (ep := ep) data
    (by rw [taken]; exact ⟨runs.1, split_.trans runs.2.1, runs.2.2⟩)
  refine ⟨?_, ?_, ?_⟩
  · exact only_trans (only_mono (by simp) (fun o h => by simp only [schReg] at h; simp [h]) item)
      (only_trans (only_wider (modSess_only x n _ _) (by simp))
        (only_mono (by simp) (fun o h => by simp only [netCounter] at h; simp [h]) frame))
  · rw [todo, taken]
  · rw [sent, taken]
    have ports : (x.modSess n (fun z => { z with todo := rest })).sessPorts e = d.sessPorts e := List.filter_congr fun p _ => links p
    rw [ports]
    rfl

end Publish

/-! ## SESSION_GOOSE_RETRANSMIT (R378) -/

theorem sessRetransmit_sends {k : KeySt} {d : Dev} {n at_ iv : Nat} {e : SessEntry} {key : Option KeyVal}
    (due : (d.sess n).entry = some e ∧ (d.sess n).nextAt = some (at_, iv) ∧ at_ ≤ d.up)
    (runs : (d.sess n).txOn = true ∧ (d.sess n).keyOrphaned = false ∧ d.muted e = false) (use : sessKey k e = .ok key) :
    only [.regs, .net] netCounter d (Dev.sessRetransmit k d n) ∧ ((Dev.sessRetransmit k d n).sess n).sqNum = bump (d.sess n).sqNum
      ∧ ((Dev.sessRetransmit k d n).sess n).nextAt = some (at_ + min e.rtMax (2 * iv) * 1000000, min e.rtMax (2 * iv)) := by
  obtain ⟨entry, next, now⟩ := due
  obtain ⟨on, sound, unmuted⟩ := runs
  let bumped : SessSt → SessSt := fun z =>
    { z with sqNum := bump z.sqNum, nextAt := some (at_ + min e.rtMax (2 * iv) * 1000000, min e.rtMax (2 * iv)) }
  have sends : Dev.sessRetransmit k d n = ((d.modSess n bumped).sendGoose n e).1 := by
    rw [Dev.sessRetransmit, entry, next]
    simp only [use, if_pos (show at_ ≤ d.up ∧ (d.sess n).txOn = true ∧ (d.sess n).keyOrphaned = false ∧ d.muted e = false from
      ⟨now, on, sound, unmuted⟩)]
    rfl
  rw [sends, Dev.sendGoose]
  refine ⟨?_, ?_, ?_⟩
  · exact only_trans (only_wider (modSess_only d n bumped _) (by simp))
      (only_trans (only_wider (modSess_only _ n _ _) (by simp)) (sendSess_only _ _ _ _))
  all_goals
    rw [sendSess_sess, Dev.takeSpdu, sess_modSess_same, sess_modSess_same]

end Sys2Proof.Machine
end

section
/-! The rows of the field ports and of MDIO (R380 to R382), and the statements about them and the sessions (O19, O57). -/

namespace Sys2Proof.Machine

open Sys2Proof

/-- An output moves no part and no register. -/
theorem emit_quiet (d : Dev) (o : Out) (p : Nat → Prop) : only [] p d (d.emit o) := only_of_kept (emit_kept d o) rfl

/-! ## Frames of a segment (R381, R382) -/

section Segment

variable {d : Dev} {g at_ : Nat}

/-- A counter that counts one more, and alone. -/
theorem count_one (d : Dev) (o : Nat) : only [.regs] (fun k => k ∈ [o]) d (d.count o) ∧ (d.count o).regN o = (d.regN o + 1) % 2 ^ 32 := by
  refine ⟨only_mono (by simp) (fun _ h => by simp [h]) (count_only d o 1), ?_⟩
  rw [regN_count, if_pos rfl]

section Reception

variable {f : FieldFrame} (runs : g < 2 ∧ d.fbit Fld.NET_FLD_CFG_EN g = true)

include runs

theorem fieldRx_bad (fcs : f.fcsOk = false) : d.fieldRx g f = d.count (Reg.NET_FLDn_RX_FCS_ERR g) := by
  simp [Dev.fieldRx, runs.1, runs.2, fcs]

theorem fieldRx_takes (whole : f.fcsOk = true ∧ 64 ≤ f.size ∧ f.size ≤ 1518 ∧ f.etype = d.fld Fld.RIO_CFG_ETYPE)
    (dst : f.dst = 2 ^ 48 - 1 ∨ f.dst = d.reg64 (Reg.NET_FLDn_MAC_LO g)) : d.fieldRx g f = d.count (Reg.NET_FLDn_RX_FRAMES g) := by
  obtain ⟨fcs, small, large, etype⟩ := whole
  have fits : ¬ (f.size < 64 ∨ 1518 < f.size ∨ f.etype ≠ d.fld Fld.RIO_CFG_ETYPE ∨ (f.dst ≠ 2 ^ 48 - 1 ∧ f.dst ≠ d.reg64 (Reg.NET_FLDn_MAC_LO g))) := by
    rintro (h | h | h | ⟨h, h'⟩)
    · omega
    · omega
    · exact h etype
    · exact dst.elim h h'
  rw [Dev.fieldRx, if_neg (by simp [runs.1, runs.2]), if_neg (by simp [fcs]), if_neg fits]

end Reception

section Attempt

variable {x : FieldTx} (tx : (d.field g).tx = some x)

include tx

/-- What an early collision makes of the frame: it backs off for fewer than 2 to the number of its attempts slot times, 1,024 at most. -/
theorem fieldCollision_backsOff (started : x.startedAt = some at_)
    (early : d.up < at_ + fieldDur x.payload ∧ d.up ≤ at_ + 51200 ∧ x.attempts < 16) :
    only [.regs, .net] (fun o => o ∈ [Reg.NET_FLDn_COLLISIONS g]) d (d.fieldCollision g)
      ∧ (∃ r, r < 2 ^ min x.attempts 10
        ∧ ((d.fieldCollision g).field g).tx = some { x with startedAt := none, backoffUntil := some (d.up + 3200 + r * 51200) })
      ∧ Out.fieldJam g ∈ (d.fieldCollision g).out
      ∧ (d.fieldCollision g).regN (Reg.NET_FLDn_COLLISIONS g) = (d.regN (Reg.NET_FLDn_COLLISIONS g) + 1) % 2 ^ 32 := by
  obtain ⟨online, inSlot, few⟩ := early
  let jammed := (d.count (Reg.NET_FLDn_COLLISIONS g)).emit (.fieldJam g)
  let r := jammed.draw.1 % 2 ^ min x.attempts 10
  let waiting : FieldTx := { x with startedAt := none, backoffUntil := some (d.up + 3200 + r * 51200) }
  have backs : d.fieldCollision g = jammed.draw.2.setFieldTx g (some waiting) := by
    rw [Dev.fieldCollision, fieldSettle_sending tx started online]
    simp only [tx, started]
    rw [if_neg (by omega), if_neg (by omega)]
  have counted := (count_one d (Reg.NET_FLDn_COLLISIONS g)).1
  rw [backs]
  refine ⟨?_, ⟨r, Nat.mod_lt _ (Nat.two_pow_pos _), tx_setFieldTx_same (x := x) (by exact tx)⟩, ?_, ?_⟩
  · refine only_trans (only_wider counted (by simp)) ?_
    refine only_trans (b := jammed) (only_wider (emit_quiet _ _ _) (by simp)) ?_
    exact only_trans (only_wider (draw_only jammed _) (by simp)) (only_wider (setFieldTx_only _ g _ _) (by simp))
  · exact List.mem_append_right _ (List.mem_singleton_self _)
  · exact (count_one d (Reg.NET_FLDn_COLLISIONS g)).2

/-- The frame as an attempt starts now. -/
def FieldTx.starts (x : FieldTx) (now : Nat) : FieldTx :=
  { x with attempts := x.attempts + 1, startedAt := some now, deferring := false, backoffUntil := none }

theorem fieldStart_starts : only [.net] (fun _ => False) d (d.fieldStart g x) ∧ ((d.fieldStart g x).field g).tx = some (x.starts d.up) :=
  ⟨only_trans (setFieldTx_only d g _ _) (only_wider (emit_quiet _ _ _) (by simp)), tx_setFieldTx_same tx⟩

variable (runs : d.fbit Fld.NET_FLD_CFG_EN g = true)

include runs

theorem fieldRetry_starts (backoff : x.backoffUntil = some at_) (now : at_ ≤ d.up) : d.fieldRetry g false = d.fieldStart g x := by
  rw [Dev.fieldRetry, tx]
  simp only [backoff, if_pos now, Dev.fieldTry, runs, Bool.not_true, Bool.false_eq_true, if_false]

theorem fieldDeferEnd_starts (defers : x.deferring = true) (inTime : x.isLate d.up false = false) :
    d.fieldDeferEnd g = d.fieldStart g x := by
  have kept : d.fieldLate g false = d := by
    rw [Dev.fieldLate, tx]
    exact if_neg (by simp [inTime])
  rw [Dev.fieldDeferEnd, kept]
  simp only [tx, defers, if_true, Dev.fieldTry, runs, Bool.not_true, Bool.false_eq_true, if_false]

end Attempt

end Segment

/-! ## MDIO (R380) -/

theorem fieldsAt_netMdio : fieldsAt Reg.NET_MDIO
    = [⟨0, 16, .rw, .any⟩, ⟨16, 5, .rw, .any⟩, ⟨21, 5, .rw, .any⟩, ⟨26, 1, .rw, .any⟩, ⟨30, 1, .wo, .any⟩, ⟨31, 1, .ro, .any⟩] := by
  decide

/-- NET_MDIO takes its four fields from the written word, whatever they are. -/
def Dev.mdioWord (d : Dev) (v : Word) : Word :=
  withBits (withBits (withBits (withBits (d.reg Reg.NET_MDIO) 0 16 (bitsAt v 0 16)) 16 5 (bitsAt v 16 5)) 21 5 (bitsAt v 21 5)) 26 1 (bitsAt v 26 1)

theorem writePlain_netMdio (d : Dev) (v : Word) : d.writePlain Reg.NET_MDIO v = d.setReg Reg.NET_MDIO (d.mdioWord v) := by
  have res : d.writeRes Reg.NET_MDIO v = { word := d.mdioWord v } := by
    simp only [Dev.writeRes, fieldsAt_netMdio]
    rfl
  simp only [Dev.writePlain, res]
  rfl

/-- Each field of NET_MDIO as written. -/
theorem bitsAt_mdioWord (d : Dev) (v : Word) : bitsAt (d.mdioWord v) 26 1 = v.toNat / 2 ^ 26 % 2 ∧ bitsAt (d.mdioWord v) 21 5 = v.toNat / 2 ^ 21 % 32
    ∧ bitsAt (d.mdioWord v) 16 5 = v.toNat / 2 ^ 16 % 32 ∧ bitsAt (d.mdioWord v) 0 16 = v.toNat % 65536 := by
  have masked (lo w : Nat) : bitsAt v lo w % 2 ^ w = v.toNat / 2 ^ lo % 2 ^ w := Nat.mod_mod _ _
  rw [Dev.mdioWord]
  refine ⟨?_, ?_, ?_, ?_⟩
  · rw [bitsAt_withBits_same _ _ _ _ (by decide), masked]
    rfl
  · rw [bitsAt_withBits_other _ _ _ _ _ _ (by decide) (by decide), bitsAt_withBits_same _ _ _ _ (by decide), masked]
    rfl
  · rw [bitsAt_withBits_other _ _ _ _ _ _ (by decide) (by decide), bitsAt_withBits_other _ _ _ _ _ _ (by decide) (by decide),
      bitsAt_withBits_same _ _ _ _ (by decide), masked]
    rfl
  · rw [bitsAt_withBits_other _ _ _ _ _ _ (by decide) (by decide), bitsAt_withBits_other _ _ _ _ _ _ (by decide) (by decide),
      bitsAt_withBits_other _ _ _ _ _ _ (by decide) (by decide), bitsAt_withBits_same _ _ _ _ (by decide), masked]
    simp

theorem bit_modNet (d : Dev) (f : NetSt → NetSt) (g : FieldAt) : (d.modNet f).bit g = d.bit g := rfl
theorem fld_modNet (d : Dev) (f : NetSt → NetSt) (g : FieldAt) : (d.modNet f).fld g = d.fld g := rfl
theorem bit_emit (d : Dev) (o : Out) (g : FieldAt) : (d.emit o).bit g = d.bit g := rfl

/-- The access that a written word starts. -/
def mdioOut (v : Word) : Out := .mdio (v.toNat.testBit 26) (v.toNat / 2 ^ 21 % 32) (v.toNat / 2 ^ 16 % 32) (v.toNat % 65536)

theorem writeMdio_starts {d : Dev} {v : Word} (idle : d.bit Fld.NET_MDIO_BUSY = false) (start : v.toNat.testBit 30 = true) :
    only [.regs, .net] (fun o => o ∈ [Reg.NET_MDIO]) d (writeMdio v d) ∧ (writeMdio v d).bit Fld.NET_MDIO_BUSY = true
      ∧ mdioOut v ∈ (writeMdio v d).out := by
  have bit30 : bitsAt v 30 1 = 1 := by
    rw [Nat.testBit_eq_decide_div_mod_eq] at start
    exact of_decide_eq_true start
  have write : (v.toNat / 2 ^ 26 % 2 ≠ 0) ↔ v.toNat.testBit 26 = true := by
    rw [Nat.testBit_eq_decide_div_mod_eq, decide_eq_true_eq]
    omega
  obtain ⟨wr, phy, reg, data⟩ := bitsAt_mdioWord d v
  have access : Out.mdio ((d.setReg Reg.NET_MDIO (d.mdioWord v)).bit Fld.NET_MDIO_WRITE) ((d.setReg Reg.NET_MDIO (d.mdioWord v)).fld Fld.NET_MDIO_PHYAD)
      ((d.setReg Reg.NET_MDIO (d.mdioWord v)).fld Fld.NET_MDIO_REGAD) ((d.setReg Reg.NET_MDIO (d.mdioWord v)).fld Fld.NET_MDIO_DATA) = mdioOut v := by
    simp only [Dev.bit, Dev.fld, reg_setReg_same, Fld.NET_MDIO_WRITE, Fld.NET_MDIO_PHYAD, Fld.NET_MDIO_REGAD, Fld.NET_MDIO_DATA, wr, phy, reg, data,
      mdioOut, write, Bool.decide_eq_true]
  rw [writeMdio, if_neg (by simp [idle])]
  simp only [writePlain_netMdio, if_pos bit30, access]
  refine ⟨?_, ?_, List.mem_append_right _ (List.mem_singleton_self _)⟩
  · refine only_trans (only_mono (by simp) (fun _ h => by simp [h]) (only_setReg d Reg.NET_MDIO (d.mdioWord v))) ?_
    refine only_trans (only_mono (by simp) (fun _ h => by simp [h, Fld.NET_MDIO_BUSY]) (setBit_only _ Fld.NET_MDIO_BUSY true)) ?_
    exact only_trans (only_wider (modNet_only _ _ _) (by simp)) (only_wider (emit_quiet _ _ _) (by simp))
  · rw [bit_emit, bit_modNet]
    exact Dev.bit_setBit_same _ _ true (by decide) (by decide)

theorem mdioDone_ends {d : Dev} (data : Nat) (busy : d.bit Fld.NET_MDIO_BUSY = true) :
    only [.regs, .net] (fun o => o ∈ [Reg.NET_MDIO]) d (d.mdioDone data) ∧ (d.mdioDone data).bit Fld.NET_MDIO_BUSY = false
      ∧ (d.mdioDone data).fld Fld.NET_MDIO_DATA = if d.bit Fld.NET_MDIO_WRITE then d.fld Fld.NET_MDIO_DATA else data % 65536 := by
  let ended := (d.setBit Fld.NET_MDIO_BUSY false).modNet (fun n => { n with mdioBusy := false })
  have free : ended.bit Fld.NET_MDIO_BUSY = false :=
    (bit_modNet _ _ _).trans (Dev.bit_setBit_same d _ false (by decide) (by decide))
  have held : ended.fld Fld.NET_MDIO_DATA = d.fld Fld.NET_MDIO_DATA :=
    (fld_modNet _ _ _).trans (Dev.fld_setFld_other d _ _ _ (by decide) (.inr (by decide)))
  have write : ended.bit Fld.NET_MDIO_WRITE = d.bit Fld.NET_MDIO_WRITE :=
    (bit_modNet _ _ _).trans (bit_setBit_other false (by decide) (.inr (by decide)))
  have frame : only [.regs, .net] (fun o => o ∈ [Reg.NET_MDIO]) d ended :=
    only_trans (only_mono (by simp) (fun _ h => by simp [h, Fld.NET_MDIO_BUSY]) (setBit_only d Fld.NET_MDIO_BUSY false))
      (only_wider (modNet_only _ _ _) (by simp))
  have done : d.mdioDone data = if d.bit Fld.NET_MDIO_WRITE then ended else ended.setFld Fld.NET_MDIO_DATA data := by
    rw [Dev.mdioDone, if_pos busy, ← write]
  rw [done]
  generalize ended = x at free held frame
  split
  · exact ⟨frame, free, held⟩
  · refine ⟨only_trans frame (only_mono (by simp) (fun _ h => by simp [h, Fld.NET_MDIO_DATA]) (setFld_only _ Fld.NET_MDIO_DATA data)), ?_, ?_⟩
    · exact (bit_of_fld (Dev.fld_setFld_other x _ _ _ (by decide) (.inr (by decide)))).trans free
    · exact Dev.fld_setFld_same x Fld.NET_MDIO_DATA data (by decide)

end Sys2Proof.Machine
end

section
/-! The statements about the output sessions and the field ports (O19, O57). -/

namespace Sys2Proof.Machine

open Sys2Proof

/-- Settles O19: each row by what it does to its session, its segment or the MDIO register. -/
theorem sessionsAndFieldsTakeEffect : Obligations.SessionsAndFieldsTakeEffect := by
  unfold Obligations.SessionsAndFieldsTakeEffect
  refine ⟨?_, ?_, ?_, ?_, ?_, ?_, ?_, ?_, ?_, ?_, ?_⟩
  · rintro s dt n ep _ e rest rfl ⟨entry, data⟩ due runs ⟨calm, served⟩
    obtain ⟨frame, sess⟩ := sessionPublish_sends (k := s.key) entry data due runs calm served
    exact exists_run_moves (f := fun k d => Dev.sessItem k d n) rfl frame sess
  · rintro s dt n at_ iv _ e key rfl due runs use
    obtain ⟨frame, sess⟩ := sessRetransmit_sends due runs use
    exact exists_run_moves (f := fun k d => Dev.sessRetransmit k d n) rfl
      (only_mono (fun _ h => h) (fun o h => by simp only [netCounter] at h; simp [h]) frame) sess
  · rintro s v _ rfl open_ seeds
    have takes : (later s.dev 0).unlessGated Reg.NET_FLD_CFG (writeFldCfg v) = takeFldCfg v (later s.dev 0) := by
      rw [unlessGated_open open_, writeFldCfg, if_neg (by simp [seeds])]
    refine exists_run_moves (f := fun _ d => d.unlessGated Reg.NET_FLD_CFG (writeFldCfg v)) takes ?_
      ⟨takeFldCfg_en _ v, fun g hg off => takeFldCfg_stops _ v hg off⟩
    refine only_mono (fun _ h => h) ?_ (takeFldCfg_only (later s.dev 0) v)
    rintro o (here | counter)
    · exact .inr (by simp [here])
    · exact .inl (by simp only [netCounter] at counter; simp [counter])
  · rintro s v _ rfl open_ ⟨held, enables⟩
    have waits : (later s.dev 0).unlessGated Reg.NET_FLD_CFG (writeFldCfg v) = (later s.dev 0).modNet (fun n => { n with fldWait := some v }) := by
      rw [unlessGated_open open_, writeFldCfg, if_pos (by simp [held, enables])]
    rw [← waits]
    rfl
  · rintro s dt g f _ rfl runs whole dst
    obtain ⟨frame, counts⟩ := count_one (later s.dev dt) (Reg.NET_FLDn_RX_FRAMES g)
    exact exists_run_moves (f := fun _ d => d.fieldRx g f) (fieldRx_takes runs whole dst) frame counts
  · rintro s dt g f _ rfl runs fcs
    obtain ⟨frame, counts⟩ := count_one (later s.dev dt) (Reg.NET_FLDn_RX_FCS_ERR g)
    exact exists_run_moves (f := fun _ d => d.fieldRx g f) (fieldRx_bad runs fcs) frame counts
  · rintro s dt g at_ _ x rfl ⟨-, tx, started⟩ early
    obtain ⟨frame, ⟨r, bound, waiting⟩, jam, counts⟩ := fieldCollision_backsOff tx started early
    exact exists_run_moves (f := fun _ d => d.fieldCollision g) rfl frame ⟨r, bound, waiting, jam, counts⟩
  · rintro s dt g at_ _ x rfl ⟨-, runs, tx, backoff, now⟩
    obtain ⟨frame, sends⟩ := fieldStart_starts tx
    exact exists_run_moves (f := fun _ d => d.fieldRetry g false) (fieldRetry_starts tx runs backoff now) frame sends
  · rintro s dt g _ x rfl ⟨-, runs, tx, defers, inTime⟩
    obtain ⟨frame, sends⟩ := fieldStart_starts tx
    exact exists_run_moves (f := fun _ d => d.fieldDeferEnd g) (fieldDeferEnd_starts tx runs defers inTime) frame sends
  · rintro s v _ rfl open_ ⟨idle, start⟩
    obtain ⟨frame, busy, out⟩ := writeMdio_starts idle start
    exact exists_run_moves (f := fun _ d => d.unlessGated Reg.NET_MDIO (writeMdio v)) (unlessGated_open open_ _) frame ⟨busy, out⟩
  · rintro s dt data _ rfl busy
    obtain ⟨frame, free, held⟩ := mdioDone_ends data busy
    exact exists_run_moves (f := fun _ d => d.mdioDone data) rfl frame ⟨free, held⟩

/-- What a row leaves, without its frame. -/
theorem exists_of_moves {a : Answer} {s : State} {dt : Nat} {l : List Part} {p : Nat → Prop} {P Q : State → Prop}
    (h : ∃ t, a = .next t ∧ moves s dt l p t ∧ P t) (weaker : ∀ t, P t → Q t) : ∃ t, a = .next t ∧ t.pending = s.pending ∧ Q t := by
  obtain ⟨t, step, ⟨-, pending, -⟩, holds⟩ := h
  exact ⟨t, step, pending, weaker t holds⟩

/-- Settles O57: the rows of O19, of which it asks a part. -/
theorem sessionAndFieldRowsComplete : Obligations.SessionAndFieldRowsComplete := by
  obtain ⟨publishes, resends, enables, -, receives, -, collides, retries, defers, starts, ends⟩ := sessionsAndFieldsTakeEffect
  unfold Obligations.SessionAndFieldRowsComplete
  refine ⟨?_, ?_, ?_, ?_, ?_, ?_, ?_, ?_, ?_⟩
  · intro s dt n ep d e rest hd entry due runs served
    exact exists_of_moves (publishes s dt n ep d e rest hd entry due runs served) fun _ h => h
  · intro s dt n at_ iv d e key hd due runs use
    exact exists_of_moves (resends s dt n at_ iv d e key hd due runs use) fun _ h => h
  · intro s v d hd open_ seeds
    exact exists_of_moves (enables s v d hd open_ seeds) fun _ h => h.1
  · intro s dt g f d hd runs whole dst
    exact exists_of_moves (receives s dt g f d hd runs whole dst) fun _ h => h
  · intro s dt g at_ d x hd tx early
    refine exists_of_moves (collides s dt g at_ d x hd tx early) fun _ h => ?_
    obtain ⟨-, -, -, -, counts⟩ := h
    exact counts
  · intro s dt g at_ d x hd h
    exact exists_of_moves (retries s dt g at_ d x hd h) fun _ h => h
  · intro s dt g d x hd h
    exact exists_of_moves (defers s dt g d x hd h) fun _ h => h
  · intro s v d hd open_ h
    exact exists_of_moves (starts s v d hd open_ h) fun _ h => h.1
  · intro s dt data d hd busy
    exact exists_of_moves (ends s dt data d hd busy) fun _ h => h.1

end Sys2Proof.Machine
end

section
/-! The statement about SNT_READ and SNT_CLEAR (O32), which does not ask that the clear's own record is a new one (R503, R508). -/

namespace Sys2Proof.Machine

open Sys2Proof

/-- The record of a clear of MAX_SEV 3: the newest of the log, made at device time 0. -/
def clearRecord : SntRec :=
  { seq := 9, code := 0x0F04, severity := 3, timeSuspect := false, status := 0, index := 3, timeUs := 0, opSec := 0, powerCycles := 1, arg := 1 }

/-- The slot of an owner key of 32 zero bytes. -/
def ownerSlot : Slot :=
  { state := .valid, world := worldUpdate, alg := 0x30, lcMask := 3, master := 0, cur := some { keyId := 1, bytes := zeros 32 } }

/-- The key store of device 5 with that owner key. -/
def ownerKeyStore : KeySt :=
  { lc := .operational, started := true, deviceId := 5, counter := 1000
    slots := [(0, ownerSlot)] }

/-- A recorder that runs with a REPEAT_WIN of 1 s, whose log ends with the record of a clear made just now; ring 0 offers a command. -/
def clearedBefore : State :=
  let ringRuns := fun (d : Dev) => (((d.setReg (Reg.HIF_RINGn_CFG 0) 3).setReg (Reg.HIF_RINGn_STAT 0) 1).setReg (Reg.HIF_RINGn_POSTED 0) 1).setBit
    Fld.HIF_STATUS_CMD_READY true
  let recorderRuns := fun (d : Dev) => (d.setReg Reg.SNT_STATUS 1).setReg Reg.SNT_CFG 1000
  { State.reset with
    key := ownerKeyStore
    dev := (ringRuns (recorderRuns { State.reset.dev with regs := [] })).modSnt (fun x => { x with log := [clearRecord], nextSeq := 10, headAt := some 0 }) }

/-- The TAG of a clear of device 5 with COUNTER 1,001, UP_TO_SEQ 9 and MAX_SEV 3 under that owner key (R508). -/
def clearTag : Bytes :=
  hmacSha256 (hkdfSha256 (leBytes 8 5) (zeros 32) (asciiBytes "G840 sinter clear") 32) (leBytes 8 5 ++ leBytes 8 1001 ++ leBytes 8 9 ++ leBytes 1 3)

/-- A clear of its own device whose tag is that of the owner key passes the checks of R508. -/
theorem clearStatus_accepts {k : KeySt} {d : Dev} {id counter upTo maxSev : Nat} {slot : Slot} {key : Bytes}
    (device : id % 2 ^ 64 = k.deviceId ∧ k.deviceId = id) (lc : k.lc = .operational) (use : k.use 0 = .ok slot)
    (held : (slot.cur.map (fun v => v.bytes)).getD [] = key) (fresh : k.counter < counter)
    (range : maxSev ≤ 3 ∧ upTo ≤ (d.snt.newest.map (fun r => r.seq)).getD 0) :
    clearStatus k d ⟨id, counter, upTo, maxSev, hmacSha256 (hkdfSha256 (leBytes 8 id) key (asciiBytes "G840 sinter clear") 32)
      (leBytes 8 id ++ leBytes 8 counter ++ leBytes 8 upTo ++ leBytes 1 maxSev)⟩ = sOk := by
  obtain ⟨own, same⟩ := device
  have inRange : ¬ (3 < maxSev ∨ (d.snt.newest.map (fun r => r.seq)).getD 0 < upTo) := by omega
  unfold clearStatus
  simp only [own, ne_eq, not_true_eq_false, if_false, lc, false_and, use, held, same, Nat.not_le.mpr fresh, inRange]

theorem sntClear_accepted {c : Ctx} {o : ClearOps} {k : KeySt} {d : Dev} (accepted : clearStatus k d o = sOk)
    (runs : (d.accepts c.ring && !d.bit Fld.CLK_STATUS_RESCUE && decide (d.hif.waiting.length < 64) && clearReady k d) = true) :
    (sntClear c o 5 k d).2 = d.accept c true none (fun x => (x.runClear o.upTo o.maxSev, .ok)) := by
  unfold sntClear
  rw [if_pos (by rw [runs, accepted]; rfl)]
  rfl

theorem clearedBefore_status : clearStatus clearedBefore.key (later clearedBefore.dev 0) ⟨5, 1001, 9, 3, clearTag⟩ = sOk :=
  clearStatus_accepts (by decide) rfl (slot := ownerSlot) rfl rfl (by decide) (by decide)

/-- The record of the new clear folds into that of the one before: REPEAT counts it (R503). -/
theorem clearedBefore_folds : (sntClear ringZero ⟨5, 1001, 9, 3, clearTag⟩ 5 clearedBefore.key (later clearedBefore.dev 0)).2.snt.log
    ≠ (later clearedBefore.dev 0).snt.log.filter (fun r => !cleared 9 3 r) := by
  rw [sntClear_accepted clearedBefore_status (by decide)]
  decide

theorem clearedBefore_accepts : ready clearedBefore.dev ringZero.ring true none ∧ clearReady clearedBefore.key (later clearedBefore.dev 0) = true
    ∧ clearStatus clearedBefore.key (later clearedBefore.dev 0) ⟨5, 1001, 9, 3, clearTag⟩ = sOk := by
  refine ⟨?_, ?_, clearedBefore_status⟩
  · unfold ready
    decide
  · decide

theorem dev_of_runKey {s t : State} {dt : Nat} {f : KeySt → Dev → KeySt × Dev} (h : s.runKey dt f = .next t) :
    t.dev = (f s.key (later s.dev dt)).2 := by
  cases h; rfl

theorem dev_of_sntClear {s t : State} {c : Ctx} {id counter upTo maxSev steps : Nat} {tag : Bytes}
    (step : exec (.sntClear c id counter upTo maxSev tag steps) s = .next t) :
    t.dev = (sntClear c ⟨id, counter, upTo, maxSev, tag⟩ steps s.key (later s.dev 0)).2 :=
  dev_of_runKey (f := sntClear c ⟨id, counter, upTo, maxSev, tag⟩ steps) step

/-- Refutes O32: its clause on an accepted clear says that the log is what the clear leaves of it. Where the newest record is that of a
clear of the same MAX_SEV within REPEAT_WIN, the new LOG_CLEARED folds into it, and its REPEAT has changed in the log. -/
theorem not_sinterCommandsComplete : ¬ Obligations.SinterCommandsComplete := by
  unfold Obligations.SinterCommandsComplete
  rintro ⟨-, -, -, clears⟩
  obtain ⟨t, step, -, -, -, -, -, -, log, -⟩ := clears clearedBefore ringZero _ 5 1001 9 3 clearTag rfl clearedBefore_accepts
  rw [dev_of_sntClear step] at log
  exact clearedBefore_folds log

end Sys2Proof.Machine
end

section
/-! The statement about safety errors (O33), which does not keep to waiting commands of rings that exist (R451, R453, R522). -/

namespace Sys2Proof.Machine

open Sys2Proof

/-- An engine's self-test has failed twice before, and a CYC_START waits on ring 22528, whose HIF_RINGn_DONE would be ENG_RETIRES. -/
def selftestBeyond : State :=
  let failed : ErrEntry := { seq := 0, cls := eSelftest, level := 2, status := sOk, index := 3, diag := 0xFF, timeUs := 0, clearAt := none }
  { State.reset with
    dev := (({ State.reset.dev with regs := [] }.setReg (Reg.HIF_RINGn_STAT 22528) 1).modHif (fun h => { h with waiting := [⟨22528, 0, 0, 0, .cycStart, 0, false⟩] })).modSaf
      (fun x => { x with queue := [failed] }) }

/-- The third failure enters the safe state, which completes the command, and retires the engine: both count there. -/
theorem selftestBeyond_counts : ((later selftestBeyond.dev 0).errorRaised eSelftest 3 0 0 0).regN Reg.ENG_RETIRES
    ≠ ((later selftestBeyond.dev 0).regN Reg.ENG_RETIRES + 1) % 2 ^ 32 := by decide +kernel

theorem dev_of_errorRaised {s t : State} {dt cls index diag status level : Nat}
    (step : exec (.errorRaised dt cls index diag status level) s = .next t) :
    t.dev = (later s.dev dt).errorRaised cls index diag status level :=
  dev_of_run (f := fun _ d => d.errorRaised cls index diag status level) step

/-- Refutes O33: its clause on a failed self-test does not ask that the waiting commands are those of the 32 rings. Where the error enters the
safe state, a CYC_START that waits on ring 22528 completes, and what would be HIF_RINGn_DONE of that ring is ENG_RETIRES. -/
theorem not_safetyErrorsTakeEffect : ¬ Obligations.SafetyErrorsTakeEffect := by
  unfold Obligations.SafetyErrorsTakeEffect
  rintro ⟨-, -, -, -, -, retires, -⟩
  obtain ⟨t, step, -, -, -, counted⟩ := retires selftestBeyond 0 3 0 0 0 _ rfl (by decide)
  rw [dev_of_errorRaised step] at counted
  exact selftestBeyond_counts counted

end Sys2Proof.Machine
end

section
/-! The commands on the inventory and on the image sets (O38; R545, R549, R553). -/

namespace Sys2Proof.Machine

open Sys2Proof

/-! ## INV_READ -/

theorem invRead_outOfRange {pos : Nat} {buf : HostBuf} (d : Dev) (h : 9 < pos ∨ buf.len < 256) : invRead pos buf d = (d, .done sRange 0) :=
  if_pos h

theorem invRead_silent {pos : Nat} {buf : HostBuf} {d : Dev} (hp : pos ≤ 9) (hlen : 256 ≤ buf.len) (silent : d.answered pos = false) :
    invRead pos buf d = (d, .done sNotValid 0) := by
  have fits : ¬ (9 < pos ∨ buf.len < 256) := by omega
  rw [invRead, if_neg fits, if_pos (by simp [silent])]

/-- A position with an identity memory answers the 256 bytes last read of it. -/
theorem invRead_memory {pos : Nat} {buf : HostBuf} {d : Dev} {b : Bytes} (hp : pos ≤ 5) (hlen : 256 ≤ buf.len)
    (present : d.fbit Fld.INV_STATUS_PRESENT pos = true) (held : d.inv.mem.find pos = some b) (hb : b.length = 256) :
    invRead pos buf d = (d, .block b (some buf.addr)) := by
  have fits : ¬ (9 < pos ∨ buf.len < 256) := by omega
  have memory : pos < 6 := by omega
  have whole : slice b 0 256 = b := by simp [slice, ← hb, zeros]
  rw [invRead, if_neg fits, if_neg (by simp [Dev.answered, memory, present]), if_pos memory, Tbl.getD, held, Option.getD_some, whole]

/-! ## INV_RESCAN -/

theorem invRescan_outOfRange {pos : Nat} (answers : List Bytes) (d : Dev) (h : 5 < pos) : invRescan pos answers d = (d, .done sRange 0) :=
  if_pos h

theorem invRescan_inUse {pos : Nat} {answers : List Bytes} {d : Dev} (hp : pos ≤ 5)
    (inUse : pos = 0 ∨ (2 ≤ pos ∧ d.fbit Fld.ACQ_CTRL_FE_EN (pos - 2) = true)) : invRescan pos answers d = (d, .done sBusy 0) := by
  rw [invRescan, if_neg (by omega), if_pos inUse]

theorem invRescan_reads {pos : Nat} {answers : List Bytes} {d : Dev} (hp : pos ≤ 5) (h0 : pos ≠ 0)
    (free : 2 ≤ pos → d.fbit Fld.ACQ_CTRL_FE_EN (pos - 2) = false) : invRescan pos answers d = (d.readIdentity true pos answers, .ok) := by
  have notInUse : ¬ (pos = 0 ∨ (2 ≤ pos ∧ d.fbit Fld.ACQ_CTRL_FE_EN (pos - 2) = true)) := by
    rintro (rfl | ⟨h2, on⟩)
    · exact h0 rfl
    · simp [free h2] at on
  rw [invRescan, if_neg (by omega), if_neg notInUse]

/-! ## NOR_SET_WRITE -/

section NorSet

variable {image : Bytes} {k : KeySt} {d : Dev}

theorem norSetWrite_tooLong (h : 67108864 < image.length) : norSetWrite image k d = (d, .done sRange 0) := if_pos h

theorem norSetWrite_busy (h : image.length ≤ 67108864) (busy : d.inv.norBusy = true) : norSetWrite image k d = (d, .done sBusy 0) := by
  rw [norSetWrite, if_neg (Nat.not_lt.mpr h), if_pos busy]

/-- A set that verifies is written to the chip not in use, and the command waits for it. -/
theorem norSetWrite_verifies (h : image.length ≤ 67108864) (free : d.inv.norBusy = false)
    (valid : norValid k (norWithSeq image (d.norSeq d.inv.norInUse + 1)) = true) : norSetWrite image k d =
      (d.modInv (fun (i : InvSt) => { i with
        nor := modifyAt i.nor (1 - d.inv.norInUse) (fun _ => some (norWithSeq image (d.norSeq d.inv.norInUse + 1))), norBusy := true }),
       .wait .norWrite) := by
  rw [norSetWrite, if_neg (Nat.not_lt.mpr h), if_neg (by simp [free])]
  exact if_pos valid

/-- One that does not verify leaves the chip not in use without a set. -/
theorem norSetWrite_fails (h : image.length ≤ 67108864) (free : d.inv.norBusy = false)
    (invalid : norValid k (norWithSeq image (d.norSeq d.inv.norInUse + 1)) = false) : norSetWrite image k d =
      (d.modInv (fun (i : InvSt) => { i with nor := modifyAt i.nor (1 - d.inv.norInUse) (fun _ => none) }), .done sAuthFail 0) := by
  rw [norSetWrite, if_neg (Nat.not_lt.mpr h), if_neg (by simp [free])]
  exact if_neg (by simp [invalid])

end NorSet

/-- A row that a ring accepts, of a command that looks at the key store. -/
theorem exec_of_keyAccept {i : Instr} {s : State} {c : Ctx} {waits : Bool} {gate : Option Nat} {f : KeySt → Dev → Dev × CmdRes} {res : Dev × CmdRes}
    (hr : ready s.dev c.ring waits gate) (hi : exec i s = s.run 0 (fun k d => d.accept c waits gate (f k)))
    (h : f s.key (fetched s.dev c.ring) = res) : exec i s = .next (served s c res.1 res.2) := by
  rw [hi, run_accept_ready f hr, h]

/-- Settles O38: each command is accepted; its checks in their order decide what it makes of the device. -/
theorem inventoryCommandsComplete : Obligations.InventoryCommandsComplete := by
  unfold Obligations.InventoryCommandsComplete
  refine ⟨?_, ?_, ?_, ?_, ?_, ?_, ?_, ?_, ?_, ?_⟩
  · rintro s c d pos buf hr rfl h
    exact exec_of_gatedAccept hr rfl (invRead_outOfRange _ h)
  · rintro s c d pos buf hr rfl ⟨hp, hlen, silent⟩
    exact exec_of_gatedAccept hr rfl (invRead_silent hp hlen silent)
  · rintro s c d pos buf b hr rfl ⟨hp, hlen, present, held, hb⟩
    exact exec_of_gatedAccept hr rfl (invRead_memory hp hlen present held hb)
  · rintro s c d pos answers hr rfl hp
    exact exec_of_gatedAccept hr rfl (invRescan_outOfRange answers _ hp)
  · rintro s c d pos answers hr rfl inUse
    have hp : pos ≤ 5 := by omega
    exact exec_of_gatedAccept hr rfl (invRescan_inUse hp (inUse.imp_right fun ⟨h2, _, on⟩ => ⟨h2, on⟩))
  · rintro s c d pos answers hr rfl free
    have hp : pos ≤ 5 := by omega
    have h0 : pos ≠ 0 := by omega
    exact exec_of_gatedAccept hr rfl (invRescan_reads hp h0 fun h2 => free.elim (fun h1 => by omega) fun ⟨_, _, off⟩ => off)
  · rintro s c d image hr rfl h
    exact exec_of_keyAccept (f := norSetWrite image) hr rfl (norSetWrite_tooLong h)
  · rintro s c d image hr rfl ⟨h, busy⟩
    exact exec_of_keyAccept (f := norSetWrite image) hr rfl (norSetWrite_busy h busy)
  · rintro s c d image new hr rfl ⟨h, free, rfl, valid⟩
    exact exec_of_keyAccept (f := norSetWrite image) hr rfl (norSetWrite_verifies h free valid)
  · rintro s c d image hr rfl ⟨h, free, invalid⟩
    exact exec_of_keyAccept (f := norSetWrite image) hr rfl (norSetWrite_fails h free invalid)

end Sys2Proof.Machine
end

section
/-! What the resets leave of the registers and of the units (R533, R541, R560, R568), and a device that leaves the view by DEPART (R431). -/

namespace Sys2Proof.Machine

open Sys2Proof

/-! ## What is set in a table beside another -/

theorem find_keep {α : Type} (q : Nat → Bool) (t : Tbl α) (k : Nat) : (Tbl.keep (fun o _ => q o) t).find k = if q k then t.find k else none := by
  induction t with
  | nil => simp [Tbl.keep, Tbl.find]
  | cons x t ih =>
    obtain ⟨j, v⟩ := x
    rcases eq_or_ne j k with rfl | hj
    · cases hq : q j <;> simp [Tbl.keep, Tbl.find, hq, ih]
    · cases hq : q j <;> simp [Tbl.keep, Tbl.find, hq, hj, ih]

theorem find_eq_none_of_lt {α : Type} {t : Tbl α} {k : Nat} (h : ∀ x ∈ t, k < x.1) : t.find k = none := by
  cases hf : t.find k with
  | none => rfl
  | some v => exact absurd (h _ (Tbl.mem_of_find hf)) (Nat.lt_irrefl k)

/-- The words of a canonical table take their places in another. -/
theorem find_foldl_put {α : Type} {l : Tbl α} (hl : Tbl.wf l = true) (t : Tbl α) (k : Nat) :
    (l.foldl (fun (t : Tbl α) (x : Nat × α) => t.put x.1 x.2) t).find k = (l.find k).or (t.find k) := by
  induction l generalizing t with
  | nil => rfl
  | cons x l ih =>
    obtain ⟨j, v⟩ := x
    obtain ⟨above, hl⟩ := (Tbl.wf_cons j v l).mp hl
    rw [List.foldl_cons, ih hl]
    rcases eq_or_ne j k with rfl | hj
    · simp [Tbl.find, find_eq_none_of_lt above]
    · simp [Tbl.find, hj, Tbl.find_put_other _ _ hj.symm]

/-! ## The registers after a reset -/

/-- A register that shows the reset itself, the rails and PFW_N. -/
abbrev resetReg (o : Nat) : Prop := o = Reg.RST_STATUS ∨ o = Reg.PWR_STATUS ∨ o = Reg.NRG_STATUS

theorem setPfw_only (d : Dev) (on : Bool) : only [.regs, .clk] (fun o => o = Reg.PWR_STATUS ∨ o = Reg.NRG_STATUS) d (d.setPfw on) :=
  only_trans (b := d.modClk (fun c => { c with pfw := on })) (only_of_kept (by simp [keptBut, Dev.modClk]) rfl) (only_trans (only_mono (by simp) (fun _ => .inl) (setBit_only _ _ _))
    (only_mono (by simp) (fun _ => .inr) (setBit_only _ _ _)))

section Reset

variable (d : Dev)

/-- The registers of `e` with what shows a reset of a kind. -/
def Dev.stamped (e d : Dev) (kind step : Nat) : Dev :=
  (((e.setFld Fld.RST_STATUS_LAST_KIND kind).setFld Fld.RST_STATUS_START_STEP step).setPfw d.clk.pfw).setFld Fld.PWR_STATUS_RAIL_OK
    (d.fld Fld.PWR_STATUS_RAIL_OK)

theorem stamped_only (e : Dev) (kind step : Nat) : only [.regs, .clk] resetReg e (e.stamped d kind step) := by
  have status {x : Dev} (f : FieldAt) (v : Nat) (hf : resetReg f.off) : only [.regs, .clk] resetReg x (x.setFld f v) :=
    only_mono (by simp) (by rintro _ rfl; exact hf) (setFld_only x f v)
  exact only_trans (status _ _ (.inl rfl)) (only_trans (status _ _ (.inl rfl)) (only_trans
    (only_mono (fun _ x => x) (fun _ => .inr) (setPfw_only _ _)) (status _ _ (.inr (.inl rfl)))))

theorem regsAfter_cold {kind : Nat} (hk : kind ≠ 2) : d.regsAfter kind = (Dev.stamped { d with regs := coldRegs } d kind 1).regs := by
  simp only [Dev.regsAfter, if_neg hk, List.foldl_nil, Dev.stamped]

theorem stamped_other (t : Tbl Word) (kind step : Nat) {o : Nat} (ho : ¬ resetReg o) :
    (Dev.stamped { d with regs := t } d kind step).regs.getD o 0 = t.getD o 0 := (stamped_only d _ kind step).2 o ho

/-- A power-on or cold reset returns every register, but for those that show it, to its reset value. -/
theorem reset_reg {kind : Nat} (hk : kind ≠ 2) {o : Nat} (ho : ¬ resetReg o) : (d.reset kind).reg o = resetWord o := by
  rw [Dev.reg, Dev.reset, regsAfter_cold d hk, stamped_other d coldRegs kind 1 ho, resetWord]

theorem stamped_fld (e : Dev) (kind step : Nat) {f : FieldAt} (hf : f.off = Reg.RST_STATUS) : (e.stamped d kind step).fld f
    = ((e.setFld Fld.RST_STATUS_LAST_KIND kind).setFld Fld.RST_STATUS_START_STEP step).fld f := by
  have rails : ¬ f.off = Fld.PWR_STATUS_RAIL_OK.off := by rw [hf]; decide
  have pfw : ¬ (f.off = Reg.PWR_STATUS ∨ f.off = Reg.NRG_STATUS) := by rw [hf]; decide
  exact (only_fld (setFld_only _ _ _) rails).trans (only_fld (setPfw_only _ _) pfw)

theorem stamped_kind (e : Dev) {kind : Nat} (hk : kind < 4) (step : Nat) : (e.stamped d kind step).fld Fld.RST_STATUS_LAST_KIND = kind :=
  (stamped_fld d e kind step rfl).trans ((Dev.fld_setFld_other _ _ _ _ (by decide) (by decide)).trans
    ((Dev.fld_setFld_same _ _ _ (by decide)).trans (Nat.mod_eq_of_lt hk)))

theorem stamped_step (e : Dev) (kind : Nat) {step : Nat} (hs : step < 16) : (e.stamped d kind step).fld Fld.RST_STATUS_START_STEP = step :=
  (stamped_fld d e kind step rfl).trans ((Dev.fld_setFld_same _ _ _ (by decide)).trans (Nat.mod_eq_of_lt hs))

/-! ## A warm reset -/

/-- The registers that a warm reset begins from: those at reset, with the RWS fields, the root and the PLL as they were, and the count. -/
def Dev.warmBase : Dev :=
  ((Dev.setReg { d with
    regs := setWord (setWord (setWord (setWord (setWord coldRegs Reg.CLK_DIV (d.reg Reg.CLK_DIV)) Reg.ENG_RETIRED (d.reg Reg.ENG_RETIRED))
      Reg.SAF_CAUSE (d.reg Reg.SAF_CAUSE)) (Reg.CLK_XTALn 0) (d.reg (Reg.CLK_XTALn 0))) (Reg.CLK_XTALn 1) (d.reg (Reg.CLK_XTALn 1)) }
    Reg.CLK_STATUS (d.reg Reg.CLK_STATUS)).setBit Fld.CLK_STATUS_CFG_ERR false).setRegN Reg.RST_WARM_COUNT (d.regN Reg.RST_WARM_COUNT + 1)

theorem reset_warm_reg (o : Nat) : (d.reset 2).reg o = (d.warmBase.stamped d 2 5).reg o := rfl

theorem warmBase_reg {o : Nat} (hc : o ≠ Reg.CLK_STATUS) (hw : o ≠ Reg.RST_WARM_COUNT) : d.warmBase.reg o
    = if o ∈ [Reg.CLK_DIV, Reg.ENG_RETIRED, Reg.SAF_CAUSE, Reg.CLK_XTALn 0, Reg.CLK_XTALn 1] then d.reg o else resetWord o := by
  unfold Dev.warmBase Dev.setRegN Dev.setBit Dev.setFld
  rw [reg_setReg_other _ _ hw, reg_setReg_other _ _ (show o ≠ Fld.CLK_STATUS_CFG_ERR.off from hc), reg_setReg_other _ _ hc]
  simp only [Dev.reg, getD_setWord, List.mem_cons, List.not_mem_nil, or_false]
  split_ifs with h1 h2 h3 h4 h5 h h <;> simp_all [resetWord]

/-- A warm reset keeps the RWS fields and the crystals' offsets. -/
theorem reset_warm_keeps {o : Nat} (ho : o ∈ [Reg.CLK_DIV, Reg.ENG_RETIRED, Reg.SAF_CAUSE, Reg.CLK_XTALn 0, Reg.CLK_XTALn 1]) :
    (d.reset 2).reg o = d.reg o := by
  have apart : ∀ x ∈ [Reg.CLK_DIV, Reg.ENG_RETIRED, Reg.SAF_CAUSE, Reg.CLK_XTALn 0, Reg.CLK_XTALn 1],
      (x ≠ Reg.RST_STATUS ∧ x ≠ Reg.PWR_STATUS ∧ x ≠ Reg.NRG_STATUS) ∧ x ≠ Reg.CLK_STATUS ∧ x ≠ Reg.RST_WARM_COUNT := by decide
  obtain ⟨⟨h1, h2, h3⟩, hc, hw⟩ := apart o ho
  have unstamped : ¬ resetReg o := by rintro (h | h | h) <;> contradiction
  rw [reset_warm_reg, (stamped_only d _ 2 5).2 o unstamped, warmBase_reg d hc hw, if_pos ho]

/-- Other registers return to their reset values. -/
theorem reset_warm_resets {o : Nat} (ho : o ∉ [Reg.CLK_DIV, Reg.ENG_RETIRED, Reg.SAF_CAUSE, Reg.CLK_XTALn 0, Reg.CLK_XTALn 1])
    (unstamped : ¬ resetReg o) (hc : o ≠ Reg.CLK_STATUS) (hw : o ≠ Reg.RST_WARM_COUNT) : (d.reset 2).reg o = resetWord o := by
  rw [reset_warm_reg, (stamped_only d _ 2 5).2 o unstamped, warmBase_reg d hc hw, if_neg ho]

theorem reset_warm_count : (d.reset 2).regN Reg.RST_WARM_COUNT = (d.regN Reg.RST_WARM_COUNT + 1) % 2 ^ 32 := by
  show (d.warmBase.stamped d 2 5).regN _ = _
  rw [only_regN (stamped_only d _ 2 5) (by simp [resetReg, Reg.RST_WARM_COUNT, Reg.RST_STATUS, Reg.PWR_STATUS, Reg.NRG_STATUS]), Dev.warmBase,
    Dev.setRegN, Dev.regN, reg_setReg_same, BitVec.toNat_ofNat]

end Reset

/-! ## RESCUE -/

section Rescue

variable (k : KeySt) (d : Dev)

theorem foldl_put_wf {α : Type} (l : List (Nat × α)) {t : Tbl α} (h : Tbl.wf t = true) :
    Tbl.wf (l.foldl (fun (t : Tbl α) (x : Nat × α) => t.put x.1 x.2) t) = true := by
  induction l generalizing t with
  | nil => exact h
  | cons x l ih => exact ih (Tbl.put_wf _ _ h)

/-- A register that the reset values do not list resets to zero. -/
theorem resetWord_unlisted {o : Nat}
    (h : (resetWords ++ (List.range 64).map (fun v => (0x03000C + 16 * v, (1 : BitVec 32)))).all (fun x => x.1 != o) = true) :
    resetWord o = 0 := by
  have absent {l : List (Nat × Word)} (t : Tbl Word) (h : l.all (fun x => x.1 != o) = true) :
      (l.foldl (fun (t : Tbl Word) (x : Nat × Word) => t.put x.1 x.2) t).find o = t.find o := by
    induction l generalizing t with
    | nil => rfl
    | cons x l ih =>
      rw [List.all_cons, Bool.and_eq_true, bne_iff_ne] at h
      rw [List.foldl_cons, ih _ h.2, Tbl.find_put_other _ _ (Ne.symm h.1)]
  rw [resetWord, coldRegs, Tbl.getD, absent _ h]
  rfl

theorem coldRegs_wf : Tbl.wf coldRegs = true := foldl_put_wf _ rfl

/-- The registers as RESCUE begins. -/
theorem rescue_getD (o : Nat) : ((coldRegs.keep (fun off _ => !runsInRescue off)).foldl (fun (t : Tbl Word) (x : Nat × Word) => t.put x.1 x.2)
    (d.regs.keep (fun off _ => runsInRescue off))).getD o 0 = if runsInRescue o then d.reg o else resetWord o := by
  rw [Tbl.getD, find_foldl_put (Tbl.keep_wf _ coldRegs_wf), find_keep, find_keep]
  cases runsInRescue o <;> simp [Dev.reg, resetWord, Tbl.getD]

theorem enterRescue_regs : ∃ x : Dev, (∀ o, x.reg o = if runsInRescue o then d.reg o else resetWord o) ∧ ∀ o, (enterRescue k d).2.reg o
    = ((x.setBit Fld.CLK_STATUS_RESCUE true).setBit Fld.HIF_STATUS_CMD_READY false).reg o := by
  have flagged (x : Dev) (f : ClkSt → ClkSt) (o : Nat) : (x.modClk f).reg o = x.reg o := rfl
  unfold enterRescue
  refine ⟨_, fun o => ?_, fun o => flagged _ _ o⟩
  rw [Dev.reg, rescue_getD]

/-- What runs in RESCUE keeps its registers, and the rest returns to its reset values. -/
theorem enterRescue_reg {o : Nat} (hc : o ≠ Reg.CLK_STATUS) (hs : o ≠ Reg.HIF_STATUS) :
    (enterRescue k d).2.reg o = if runsInRescue o then d.reg o else resetWord o := by
  obtain ⟨x, begun, shown⟩ := enterRescue_regs k d
  rw [shown, (setBit_only _ _ _).2 o hs, (setBit_only _ _ _).2 o hc, begun]

theorem enterRescue_shows : (enterRescue k d).2.bit Fld.CLK_STATUS_RESCUE = true ∧ (enterRescue k d).2.bit Fld.HIF_STATUS_CMD_READY = false := by
  obtain ⟨x, -, shown⟩ := enterRescue_regs k d
  simp only [Dev.bit, Dev.fld, shown]
  exact ⟨(only_bit (setBit_only _ Fld.HIF_STATUS_CMD_READY _) (by decide)).trans (Dev.bit_setBit_same _ _ _ (by decide) (by decide)),
    Dev.bit_setBit_same _ _ _ (by decide) (by decide)⟩

end Rescue

/-! ## DEPART

What is sent over the fabric adds to the outputs, and takes none away. -/

/-- The outputs of `d` are among those of `t`. -/
structure toldKept (d t : Dev) : Prop where
  out : d.out ⊆ t.out

theorem toldKept_refl (d : Dev) : toldKept d d := ⟨List.Subset.refl _⟩

theorem toldKept_trans {a b c : Dev} (h : toldKept a b) (k : toldKept b c) : toldKept a c := ⟨List.Subset.trans h.out k.out⟩

theorem toldKept_of_out {d t : Dev} (h : t.out = d.out) : toldKept d t := ⟨fun _ x => h.symm ▸ x⟩

theorem toldKept_emit (d : Dev) (o : Out) : toldKept d (d.emit o) := ⟨List.subset_append_left _ _⟩

theorem setLink_out (d : Dev) (l : Nat) (s : LinkSt) : (d.setLink l s).out = d.out := rfl

theorem toldKept_startGrow (d : Dev) (l : Nat) (b : Bool) : toldKept d (d.startGrow l b) := by
  unfold Dev.startGrow
  simp only
  split
  · exact toldKept_of_out rfl
  · exact toldKept_refl d

theorem toldKept_countTraffic (d : Dev) (l n : Nat) : toldKept d (d.countTraffic l n) := by
  unfold Dev.countTraffic
  extract_lets s w ms us winBytes prev b10 quiet counted
  have kept : toldKept d counted := toldKept_of_out rfl
  split
  · exact toldKept_trans kept (toldKept_startGrow _ _ _)
  · exact kept

theorem toldKept_freeBuffer (d : Dev) (inl : Option Nat) (vc n : Nat) : toldKept d (d.freeBuffer inl vc n) := by
  cases inl with
  | none => exact toldKept_refl _
  | some m => exact toldKept_of_out rfl

theorem toldKept_sendControl (d : Dev) (l : Nat) (nak : Bool) (b : Bytes) : toldKept d (d.sendControl l nak b) :=
  toldKept_trans (toldKept_of_out (setLink_out _ _ _)) (toldKept_trans (toldKept_countTraffic (d.setLink l _) _ _) (toldKept_emit _ _))

theorem toldKept_returnCredits (d : Dev) (inl : Option Nat) : toldKept d (d.returnCredits inl) := by
  cases inl with
  | none => exact toldKept_refl _
  | some m =>
    simp only [Dev.returnCredits]
    split
    · exact toldKept_sendControl _ _ _ _
    · exact toldKept_refl _

theorem toldKept_pumpLink (l fuel : Nat) (d : Dev) : toldKept d (Dev.pumpLink l fuel d) := by
  induction fuel generalizing d with
  | zero => exact toldKept_refl _
  | succ n ih =>
    simp only [Dev.pumpLink]
    split
    · exact toldKept_refl _
    · split
      · exact toldKept_of_out rfl
      · split
        · exact toldKept_refl _
        · exact toldKept_trans (toldKept_of_out (setLink_out _ _ _)) <| toldKept_trans (toldKept_countTraffic _ _ _) <|
            toldKept_trans (toldKept_emit _ _) <| toldKept_trans (toldKept_freeBuffer _ _ _ _) <|
            toldKept_trans (toldKept_returnCredits _ _) (ih _)

theorem toldKept_enqueuePkt (d : Dev) (p : SentPkt) : toldKept d (d.enqueuePkt p) := by
  unfold Dev.enqueuePkt
  split
  · exact toldKept_freeBuffer _ _ _ _
  · have pumped (r : Route) : toldKept d ((d.modLink r.link (fun s => { s with queue := s.queue ++ [p] })).pumpAll r.link) :=
      by
      refine toldKept_trans (b := d.modLink r.link _) ?_ (toldKept_pumpLink _ _ _)
      exact toldKept_of_out rfl
    simp only
    split
    · exact toldKept_trans (pumped _) (toldKept_startGrow _ _ _)
    · exact pumped _

theorem toldKept_transmit (d : Dev) (dst vc seq : Nat) (m : FabMsg) : toldKept d (d.transmit dst vc seq m) :=
  toldKept_trans (toldKept_emit d _) (foldl_keeps (R := fun (a b : Dev × Bool) => toldKept a.1 b.1) (fun a => toldKept_refl a.1)
    (fun h k => toldKept_trans h k) (fun a _ => toldKept_enqueuePkt a.1 _) _ (d.emit _, true))

theorem toldKept_flushHeld (d : Dev) : toldKept d d.flushHeld := by
  refine foldl_keeps toldKept_refl toldKept_trans (fun x h => ?_) _ d
  split
  · exact toldKept_refl _
  · split
    · exact toldKept_trans (b := x.modHeld h.dst h.vc h.seq _) (toldKept_of_out rfl) (toldKept_transmit _ _ _ _ _)
    · exact toldKept_refl _

theorem toldKept_send (d : Dev) (dst : Nat) (m : FabMsg) : toldKept d (d.send dst m) := by
  unfold Dev.send
  split
  · exact toldKept_refl _
  · exact toldKept_trans (toldKept_of_out (Dev.modFab_out d _)) (toldKept_flushHeld _)

theorem toldKept_departs (d : Dev) (reason : Nat) : toldKept d (d.departs reason) := by
  unfold Dev.departs
  split
  · exact foldl_keeps toldKept_refl toldKept_trans (fun x n => toldKept_send x n _) _ d
  · exact toldKept_refl _

theorem departs_only (d : Dev) (reason : Nat) (p : Nat → Prop) : only [.fab] p d (d.departs reason) := by
  unfold Dev.departs
  split
  · exact sends_only (sendAll_sends _ _ _) p
  · exact only_refl _ _ _

theorem departs_alone {d : Dev} (h : d.joined = false) (reason : Nat) : d.departs reason = d := if_neg (by simp [h])

end Sys2Proof.Machine
end

section
/-! The final saves, power fail and the requested resets (R288, R318, R431, R542). -/

namespace Sys2Proof.Machine

open Sys2Proof

/-! ## The final saves (R288) -/

/-- A fold in which only the step of `a` has an effect, before it and after it. -/
theorem foldl_single {α β : Type} {f : β → α → β} {l : List α} {a : α} {b : β} (mem : a ∈ l) (nodup : l.Nodup)
    (before : ∀ x ∈ l, x ≠ a → f b x = b) (after : ∀ x ∈ l, x ≠ a → f (f b a) x = f b a) : l.foldl f b = f b a := by
  obtain ⟨front, back, rfl⟩ := List.append_of_mem mem
  obtain ⟨-, single, apart⟩ := List.nodup_append.mp nodup
  have first : front.foldl f b = b := foldl_idle fun x hx => before x (List.mem_append_left _ hx) (apart x hx a List.mem_cons_self)
  have last : back.foldl f (f b a) = f b a := foldl_idle fun x hx =>
    after x (List.mem_append_right _ (List.mem_cons_of_mem a hx)) (fun h => (List.nodup_cons.mp single).1 (h ▸ hx))
  rw [List.foldl_append, List.foldl_cons, first, last]

/-- What the end of the final saves makes of one point. -/
def Dev.finalSaveOf (bad : List Nat) (d : Dev) (p : Nat) : Dev :=
  match (d.point p).saving with
  | some (_, true, _) => if bad.contains p then d.failSave p else (d.commitSave p).count Reg.NRG_FINAL_SAVES
  | _ => d

section FinalSaves

variable {d : Dev} {p a : Nat} {x : SaveSlot} {bad : List Nat}

theorem finalSaved_eq (bad : List Nat) (h : d.nrg.finalDue = false) : d.finalSaved bad = (List.range 16).foldl (Dev.finalSaveOf bad) d := by
  simp only [Dev.finalSaved, h]
  rfl

theorem finalSaveOf_none (bad : List Nat) (h : (d.point p).saving = none) : d.finalSaveOf bad p = d := by simp only [Dev.finalSaveOf, h]

theorem finalSaveOf_periodic (bad : List Nat) (h : (d.point p).saving = some (a, false, x)) : d.finalSaveOf bad p = d := by
  simp only [Dev.finalSaveOf, h]

theorem finalDue_of_finalSaving (h : d.finalSaving = false) : d.nrg.finalDue = false := (Bool.or_eq_false_iff.mp h).1

/-- Where no final save runs, their end finds none. -/
theorem finalSaved_idle (bad : List Nat) (h : d.finalSaving = false) : d.finalSaved bad = d := by
  rw [finalSaved_eq bad (finalDue_of_finalSaving h)]
  refine foldl_idle fun p _ => ?_
  cases hs : (d.point p).saving with
  | none => exact finalSaveOf_none bad hs
  | some s =>
    obtain ⟨a, final, x⟩ := s
    cases final with
    | false => exact finalSaveOf_periodic bad hs
    | true =>
      have some_final : d.nrg.points.any (fun p => p.saving.any (fun x => x.2.1)) = true := by
        unfold Dev.point at hs
        cases hp : d.nrg.points[p]? with
        | none => simp [hp] at hs
        | some y =>
          rw [hp, Option.getD_some] at hs
          exact List.any_eq_true.mpr ⟨y, List.mem_of_getElem? hp, by rw [hs]; rfl⟩
      rw [Dev.finalSaving, some_final, Bool.or_true] at h
      cases h

/-- Where one point alone saves, for the last time, the end of the final saves is the end of its save. -/
theorem finalSaved_single (due : d.nrg.finalDue = false) (hp : p < 16)
    (others : (List.range 16).all (fun n => decide (n = p) || (d.point n).saving.isNone) = true)
    (kept : ∀ n, n ≠ p → (d.finalSaveOf bad p).point n = d.point n) : d.finalSaved bad = d.finalSaveOf bad p := by
  have none_else (n : Nat) (hn : n ∈ List.range 16) (hne : n ≠ p) : (d.point n).saving = none := by
    simpa [hne] using List.all_eq_true.mp others n hn
  rw [finalSaved_eq bad due]
  exact foldl_single (List.mem_range.mpr hp) List.nodup_range (fun n hn hne => finalSaveOf_none bad (none_else n hn hne))
    (fun n hn hne => finalSaveOf_none bad ((congrArg PointSt.saving (kept n hne)).trans (none_else n hn hne)))

theorem points_lt_of_saving {s : Nat × Bool × SaveSlot} (h : (d.point p).saving = some s) : p < d.nrg.points.length := by
  by_contra hp
  rw [Dev.point, List.getElem?_eq_none (Nat.le_of_not_lt hp), Option.getD_none] at h
  cases h

theorem finalSaved_commits (due : d.nrg.finalDue = false) (hp : p < 16) (saving : (d.point p).saving = some (a, true, x))
    (others : (List.range 16).all (fun n => decide (n = p) || (d.point n).saving.isNone) = true) (good : bad.contains p = false) :
    only [.regs, .nrg] (fun o => o ∈ [Reg.NRG_FINAL_SAVES, Reg.NRG_SAVES_LO, Reg.NRG_SAVES_HI]) d (d.finalSaved bad)
      ∧ ((d.finalSaved bad).point p).saving = none
      ∧ (d.finalSaved bad).regN Reg.NRG_FINAL_SAVES = (d.regN Reg.NRG_FINAL_SAVES + 1) % 2 ^ 32 := by
  have ends : d.finalSaveOf bad p = (((d.setSaveSlot p a x).modPoint p (fun s => { s with saving := none })).count64 Reg.NRG_SAVES_LO).count
      Reg.NRG_FINAL_SAVES := by
    simp only [Dev.finalSaveOf, saving, good, commitSave_eq saving]
    rfl
  have there : p < (d.setSaveSlot p a x).nrg.points.length := points_lt_of_saving saving
  rw [finalSaved_single due hp others (fun n hne => by rw [ends]; exact point_modPoint_other _ hne _), ends]
  have slots : only [.regs, .nrg] (fun o => o = Reg.NRG_SAVES_LO ∨ o = Reg.NRG_SAVES_LO + 4) d
      (((d.setSaveSlot p a x).modPoint p (fun s => { s with saving := none })).count64 Reg.NRG_SAVES_LO) :=
    only_trans (only_wider (setSaveSlot_only _ _ _ _ _) (by simp)) (only_trans (only_wider (modPoint_only _ _ _ _) (by simp))
      (only_wider (count64_only _ _ _) (by simp)))
  refine ⟨only_trans (only_mono (fun _ h => h) ?_ slots) (only_mono (by simp) ?_ (count_only _ _ _)), ?_, ?_⟩
  · rintro o (rfl | rfl) <;> decide
  · rintro o rfl
    decide
  · exact congrArg PointSt.saving (point_modPoint_same there _)
  · rw [regN_count, if_pos rfl, only_regN slots (by decide)]

theorem finalSaved_fails (due : d.nrg.finalDue = false) (hp : p < 16) (saving : (d.point p).saving = some (a, true, x))
    (others : (List.range 16).all (fun n => decide (n = p) || (d.point n).saving.isNone) = true) (failed : bad.contains p = true) :
    only [.regs, .hif, .nrg, .snt] (fun o => eventReg o ∨ o ∈ [Reg.NRG_STATUS]) d (d.finalSaved bad)
      ∧ ((d.finalSaved bad).point p).saving = none ∧ (d.finalSaved bad).bit Fld.NRG_STATUS_SAVE_FAIL = true
      ∧ (d.finalSaved bad).nrg.slots = d.nrg.slots := by
  have ends : d.finalSaveOf bad p
      = ((d.modPoint p (fun s => s.saveFailed x)).setBit Fld.NRG_STATUS_SAVE_FAIL true).event .nrgSaveFail p := by
    simp only [Dev.finalSaveOf, saving, failed, if_true, failSave_eq saving]
  have raised := event_only ((d.modPoint p (fun s => s.saveFailed x)).setBit Fld.NRG_STATUS_SAVE_FAIL true) .nrgSaveFail p 0 0 sOk
  have marked := setBit_only (d.modPoint p (fun s => s.saveFailed x)) Fld.NRG_STATUS_SAVE_FAIL true
  have points (n : Nat) : (d.finalSaveOf bad p).point n = (d.modPoint p (fun s => s.saveFailed x)).point n := by
    rw [ends, point_of_nrg (only_nrg raised (by decide))]
    rfl
  rw [finalSaved_single due hp others (fun n hne => (points n).trans (point_modPoint_other _ hne _)), points, ends]
  refine ⟨?_, congrArg PointSt.saving (point_modPoint_same (points_lt_of_saving saving) _), ?_,
    (congrArg NrgSt.slots (only_nrg raised (by decide)) :)⟩
  · refine only_trans (only_wider (modPoint_only d p _ _) (by simp)) (only_trans (only_mono (by simp) ?_ marked)
      (only_mono (by simp) (fun _ => .inl) raised))
    rintro _ rfl
    exact .inr (List.mem_singleton_self _)
  · rw [only_bit raised (not_eventReg (by decide))]
    exact Dev.bit_setBit_same _ _ _ (by decide) (by decide)

end FinalSaves

theorem only_clk {l : List Part} {p : Nat → Prop} {d t : Dev} (h : only l p d t) (hl : Part.clk ∉ l) : t.clk = d.clk := by
  obtain ⟨⟨-, -, -, -, -, -, -, -, -, -, -, -, -, -, -, -, -, clk, -⟩, -⟩ := h
  exact clk hl

/-! ## What a reset asks for first (R288, R318) -/

theorem askFinalSave_only (d : Dev) (p : Nat → Prop) : only [.nrg] p d d.askFinalSave := by
  unfold Dev.askFinalSave
  split
  · exact modNrg_only _ _ _
  · exact only_refl _ _ _

theorem askFinalSave_asks {d : Dev} (hen : d.bit Fld.NRG_CTRL_EN = true) (valid : d.validPoints ≠ []) (idle : d.finalSaving = false) :
    d.askFinalSave.nrg.finalDue = true := by
  have asked : (d.bit Fld.NRG_CTRL_EN && !d.validPoints.isEmpty && !d.finalSaving) = true := by simp [hen, valid, idle]
  rw [Dev.askFinalSave, if_pos asked]
  rfl

theorem queueRetSave_only (d : Dev) (p : Nat → Prop) : only [.cyc] p d d.queueRetSave := by
  unfold Dev.queueRetSave
  split
  · exact only_of_kept (by simp [keptBut, Dev.modCyc]) rfl
  · exact only_refl _ _ _

theorem queueRetSave_out (d : Dev) : d.queueRetSave.out = d.out := by
  unfold Dev.queueRetSave
  split <;> rfl

theorem startRetSave_only (d : Dev) (x : RetCopy) (p : Nat → Prop) : only [.cyc] p d (d.startRetSave x) :=
  only_of_kept (by simp [keptBut, Dev.startRetSave, Dev.modCyc]) rfl

/-- The registers of the count of retained saves. -/
abbrev retSaveReg (o : Nat) : Prop := o = Reg.CYC_RET_SAVES_LO ∨ o = Reg.CYC_RET_SAVES_LO + 4

theorem retSaved_only (d : Dev) : only [.regs, .cyc] retSaveReg d (d.retSaved true) := by
  unfold Dev.retSaved
  split
  · exact only_refl _ _ _
  · have cyc {x : Dev} (f : CycSt → CycSt) : only [.regs, .cyc] retSaveReg x (x.modCyc f) := only_of_kept (by simp [keptBut, Dev.modCyc]) rfl
    exact only_trans (cyc _) (only_trans (cyc _) (only_mono (by simp) (fun _ h => h) (count64_only _ _ _)))

theorem finishRetSave_only (d : Dev) : only [.regs, .cyc] retSaveReg d d.finishRetSave := by
  unfold Dev.finishRetSave
  split
  · split
    · exact only_trans (only_wider (startRetSave_only _ _ _) (by simp)) (retSaved_only _)
    · exact retSaved_only d
  · exact retSaved_only d

theorem retSaved_out (d : Dev) : (d.retSaved true).out = d.out := by
  unfold Dev.retSaved
  split <;> rfl

theorem finishRetSave_out (d : Dev) : d.finishRetSave.out = d.out := by
  unfold Dev.finishRetSave
  split
  · split <;> exact retSaved_out _
  · exact retSaved_out d

/-! ## The request (R542) -/

/-- The device as ring `n`'s request is answered and it leaves the view. -/
def Dev.leavesBy (d : Dev) (n : Nat) : Dev := ((d.fetch n).complete n (d.ring n).next (d.ring n).session sOk 0 0 []).departs 0

/-- The device that waits for its reset of a kind. -/
def Dev.asksReset (d : Dev) (n kind : Nat) : Dev :=
  (if (d.leavesBy n).bit Fld.NRG_CFG_PFW_EN then (d.leavesBy n).askFinalSave else d.leavesBy n).queueRetSave.modClk
    (fun x => { x with resetPending := some kind })

section Request

variable {d : Dev} {c : Ctx} {k : KeySt} (offers : d.offers c.ring = true)

include offers

theorem offers_runs : d.runs c.ring 1 = true ∧ d.hostReady = true := by
  simp only [Dev.offers, Bool.and_eq_true] at offers
  exact ⟨offers.1.1, offers.1.2⟩

theorem rstRequest_other {confirm : Nat} (kind : Nat) (h : confirm ≠ 0x52535451) : rstRequest c kind confirm k d
    = (k, (d.fetch c.ring).complete c.ring (d.ring c.ring).next (d.ring c.ring).session sRange 0 0 []) := by
  unfold rstRequest
  rw [if_neg (by simp [offers])]
  exact if_pos (.inl h)

theorem rstRequest_cold : rstRequest c 1 0x52535451 k d = pendingReset k (d.asksReset c.ring 1) := by
  unfold rstRequest
  rw [if_neg (by simp [offers])]
  exact if_neg (by omega)

theorem rstRequest_warm : rstRequest c 0 0x52535451 k d = pendingReset k (d.asksReset c.ring 2) := by
  unfold rstRequest
  rw [if_neg (by simp [offers])]
  exact if_neg (by omega)

/-- What answers the request. -/
theorem request_completes (status : Nat) :
    completes d c.ring status 0 ((d.fetch c.ring).complete c.ring (d.ring c.ring).next (d.ring c.ring).session status 0 0 []) := by
  obtain ⟨hrun, ready⟩ := offers_runs offers
  exact completes_of_only hrun (only_refl [] (fun _ => False) (d.fetch c.ring)) (by simp) id id ready

theorem request_only (status : Nat) : only [.regs, .hif] signalReg d
    ((d.fetch c.ring).complete c.ring (d.ring c.ring).next (d.ring c.ring).session status 0 0 []) := by
  obtain ⟨hrun, -⟩ := offers_runs offers
  exact only_trans (only_wider (fetch_only d c.ring _) (by simp)) (complete_only _ (runs_lt hrun) _ _ _ _ _ _)

theorem leavesBy_only : only [.regs, .hif, .fab] signalReg d (d.leavesBy c.ring) :=
  only_trans (only_wider (request_only offers sOk) (by simp)) (only_wider (departs_only _ _ _) (by simp))

theorem asksReset_only (kind : Nat) : only [.regs, .hif, .fab, .nrg, .cyc, .clk] signalReg d (d.asksReset c.ring kind) := by
  unfold Dev.asksReset
  refine only_trans (only_wider (leavesBy_only offers) (by simp)) (only_trans ?_ (only_trans (only_wider (queueRetSave_only _ _) (by simp))
    (only_wider (modClk_only _ _ _) (by simp))))
  split
  · exact only_wider (askFinalSave_only _ _) (by simp)
  · exact only_refl _ _ _

theorem asksReset_completes (kind : Nat) : completes d c.ring sOk 0 (d.asksReset c.ring kind) := by
  obtain ⟨phase, told⟩ := request_completes offers sOk
  refine ⟨phase, ?_⟩
  have left := (toldKept_departs ((d.fetch c.ring).complete c.ring (d.ring c.ring).next (d.ring c.ring).session sOk 0 0 []) 0).out told
  unfold Dev.asksReset
  rw [Dev.modClk_out, queueRetSave_out]
  split
  · unfold Dev.askFinalSave
    split <;> exact left
  · exact left

theorem asksReset_clk (kind : Nat) : (d.asksReset c.ring kind).clk = { d.clk with resetPending := some kind } := by
  have left : (d.leavesBy c.ring).clk = d.clk := only_clk (leavesBy_only offers) (by simp)
  have asked : (if (d.leavesBy c.ring).bit Fld.NRG_CFG_PFW_EN then (d.leavesBy c.ring).askFinalSave else d.leavesBy c.ring).clk = d.clk := by
    split
    · exact (only_clk (askFinalSave_only _ (fun _ => False)) (by simp)).trans left
    · exact left
  unfold Dev.asksReset
  rw [Dev.modClk_clk, only_clk (queueRetSave_only _ (fun _ => False)) (by simp), asked]

theorem leavesBy_nrg : (d.leavesBy c.ring).nrg = d.nrg := only_nrg (leavesBy_only offers) (by simp)

theorem leavesBy_bit (f : FieldAt) (h : f.off < 0x021014 ∨ 0x031004 < f.off) : (d.leavesBy c.ring).bit f = d.bit f :=
  only_bit (leavesBy_only offers) (not_signalReg h)

theorem asksReset_nrg (kind : Nat) (hen : d.bit Fld.NRG_CFG_PFW_EN = false) : (d.asksReset c.ring kind).nrg = d.nrg := by
  have off : (d.leavesBy c.ring).bit Fld.NRG_CFG_PFW_EN = false := (leavesBy_bit offers _ (by decide)).trans hen
  unfold Dev.asksReset
  rw [off, if_neg (by simp), Dev.modClk_nrg, only_nrg (queueRetSave_only _ (fun _ => False)) (by simp), leavesBy_nrg offers]

theorem asksReset_waits (kind : Nat) (hpfw : d.bit Fld.NRG_CFG_PFW_EN = true) (hen : d.bit Fld.NRG_CTRL_EN = true)
    (valid : d.validPoints ≠ []) (idle : d.finalSaving = false) : (d.asksReset c.ring kind).nrg.finalDue = true := by
  have on : (d.leavesBy c.ring).bit Fld.NRG_CFG_PFW_EN = true := (leavesBy_bit offers _ (by decide)).trans hpfw
  have nrg := leavesBy_nrg offers
  unfold Dev.asksReset
  rw [on, if_pos rfl, Dev.modClk_nrg, only_nrg (queueRetSave_only _ (fun _ => False)) (by simp)]
  refine askFinalSave_asks ((leavesBy_bit offers _ (by decide)).trans hen) ?_ ?_
  · simp only [Dev.validPoints, Dev.point, nrg] at valid ⊢
    exact valid
  · rw [Dev.finalSaving, nrg]
    exact idle

/-- The device from which the reset begins has the units' states and the registers of before, but for those that the request moves. -/
theorem begins_only (kind : Nat) : only [.regs, .hif, .fab, .nrg, .cyc, .clk] (fun o => signalReg o ∨ retSaveReg o) d
    (d.asksReset c.ring kind).finishRetSave :=
  only_trans (only_mono (fun _ h => h) (fun _ => .inl) (asksReset_only offers kind))
    (only_mono (by simp) (fun _ => .inr) (finishRetSave_only _))

end Request

theorem pendingReset_begins {k : KeySt} {d : Dev} {kind : Nat} (pending : d.clk.resetPending = some kind) (saved : d.finalSaving = false) :
    pendingReset k d = (k.afterReset, d.finishRetSave.reset kind) := by
  simp [pendingReset, pending, saved, resetAll]

theorem pendingReset_waits {k : KeySt} {d : Dev} {kind : Nat} (pending : d.clk.resetPending = some kind) (saving : d.finalSaving = true) :
    pendingReset k d = (k, d) := by simp [pendingReset, pending, saving]

theorem pendingReset_none {k : KeySt} {d : Dev} (pending : d.clk.resetPending = none) : pendingReset k d = (k, d) := by
  simp [pendingReset, pending]

end Sys2Proof.Machine
end

section
/-! The rows of resets and power fail on the device and the key store (R288, R533, R541, R568). -/

namespace Sys2Proof.Machine

open Sys2Proof

/-! ## Rows on the device and the key store -/

section Rows

variable {P : State → Prop} {s : State} {dt : Nat} {f : KeySt → Dev → KeySt × Dev} {k : KeySt} {d : Dev}

/-- A row that goes through the check of the clock ratios, where they hold. -/
theorem exists_checked (e : f s.key (later s.dev dt) = (k, d)) (sound : d.clk.ratioBroken = false)
    (h : P { s with key := k, dev := d }) : ∃ t, checkRatio (s.runKey dt f) = .next t ∧ P t := by
  have run : s.runKey dt f = .next { s with key := k, dev := d } := by
    have shown : s.runKey dt f = .next { s with key := (f s.key (later s.dev dt)).1, dev := (f s.key (later s.dev dt)).2 } := rfl
    rw [shown, e]
  exact ⟨_, by rw [run]; exact checkRatio_of_sound sound, h⟩

theorem exists_runKey_of (e : f s.key (later s.dev dt) = (k, d)) (h : P { s with key := k, dev := d }) :
    ∃ t, s.runKey dt f = .next t ∧ P t := by
  have shown : s.runKey dt f = .next { s with key := (f s.key (later s.dev dt)).1, dev := (f s.key (later s.dev dt)).2 } := rfl
  exact ⟨_, by rw [shown, e], h⟩

end Rows

theorem setPfw_shows (d : Dev) (on : Bool) : (d.setPfw on).clk.pfw = on ∧ (d.setPfw on).bit Fld.PWR_STATUS_PFW = on
    ∧ (d.setPfw on).bit Fld.NRG_STATUS_PFW = on :=
  ⟨rfl, (only_bit (setBit_only _ _ _) (by decide)).trans (Dev.bit_setBit_same _ _ _ (by decide) (by decide)),
    Dev.bit_setBit_same _ _ _ (by decide) (by decide)⟩

section Resets

variable (k : KeySt) (d : Dev)

/-! ## Power-on and the rails -/

theorem powerOn_reg (pfwLow testEn : Bool) {o : Nat} (ho : ¬ resetReg o) : (powerOn pfwLow testEn k d).2.reg o = resetWord o := by
  have shown : only [.regs, .clk] resetReg (d.reset 0) (powerOn pfwLow testEn k d).2 :=
    only_trans (only_mono (fun _ h => h) (fun _ => .inr) (setPfw_only _ _)) (only_trans (only_mono (by simp) (by rintro _ rfl; exact .inr (.inl rfl))
      (setFld_only _ _ _)) (only_wider (modClk_only _ _ _) (by simp)))
  exact (shown.2 o ho).trans (reset_reg d (by decide) ho)

theorem reset_kind {kind : Nat} (hk : kind < 4) : (d.reset kind).fld Fld.RST_STATUS_LAST_KIND = kind := by
  have shown (r : Tbl Word) : d.regsAfter kind = r → (d.reset kind).fld Fld.RST_STATUS_LAST_KIND
      = bitsAt (r.getD Reg.RST_STATUS 0) 0 2 := by rintro rfl; rfl
  rcases eq_or_ne kind 2 with rfl | h2
  · exact stamped_kind d d.warmBase (by decide) 5
  · exact (shown _ (regsAfter_cold d h2)).trans (stamped_kind d { d with regs := coldRegs } hk 1)

theorem reset_step {kind : Nat} (h2 : kind ≠ 2) : (d.reset kind).fld Fld.RST_STATUS_START_STEP = 1 := by
  have shown (r : Tbl Word) : d.regsAfter kind = r → (d.reset kind).fld Fld.RST_STATUS_START_STEP
      = bitsAt (r.getD Reg.RST_STATUS 0) 8 4 := by rintro rfl; rfl
  exact (shown _ (regsAfter_cold d h2)).trans (stamped_step d { d with regs := coldRegs } kind (by decide))

/-- What a reset keeps of the log and of the save slots. -/
theorem reset_keeps (kind : Nat) : (d.reset kind).snt.log = d.snt.log ∧ (d.reset kind).nrg.slots = d.nrg.slots
    ∧ (d.reset kind).cyc.retSlots = d.cyc.retSlots := by
  have snt : (d.reset kind).snt = sntAfter d.snt kind d.up := rfl
  have nrg : (d.reset kind).nrg = { slots := d.nrg.slots } := rfl
  have cyc : (d.reset kind).cyc = { retSlots := d.cyc.retSlots } := rfl
  exact ⟨by rw [snt, sntAfter], by rw [nrg], by rw [cyc]⟩

theorem powerOn_keeps (pfwLow testEn : Bool) : (powerOn pfwLow testEn k d).2.snt.log = d.snt.log
    ∧ (powerOn pfwLow testEn k d).2.nrg.slots = d.nrg.slots ∧ (powerOn pfwLow testEn k d).2.cyc.retSlots = d.cyc.retSlots := by
  have kept (x : Dev) (g : ClkSt → ClkSt) : (((x.setPfw pfwLow).setFld Fld.PWR_STATUS_RAIL_OK 255).modClk g).snt = x.snt
      ∧ (((x.setPfw pfwLow).setFld Fld.PWR_STATUS_RAIL_OK 255).modClk g).nrg = x.nrg
      ∧ (((x.setPfw pfwLow).setFld Fld.PWR_STATUS_RAIL_OK 255).modClk g).cyc = x.cyc := ⟨rfl, rfl, rfl⟩
  obtain ⟨log, slots, retSlots⟩ := reset_keeps d 0
  rw [powerOn, resetAll, (kept _ _).1, (kept _ _).2.1, (kept _ _).2.2]
  exact ⟨log, slots, retSlots⟩

theorem powerOn_fld (pfwLow testEn : Bool) (f : FieldAt) : (powerOn pfwLow testEn k d).2.fld f
    = (((d.reset 0).setPfw pfwLow).setFld Fld.PWR_STATUS_RAIL_OK 255).fld f := by
  have kept (x : Dev) (g : ClkSt → ClkSt) : (x.modClk g).fld f = x.fld f := rfl
  exact kept (((d.reset 0).setPfw pfwLow).setFld Fld.PWR_STATUS_RAIL_OK 255) _

theorem powerOn_shows (pfwLow testEn : Bool) : (powerOn pfwLow testEn k d).2.fld Fld.RST_STATUS_LAST_KIND = 0
    ∧ (powerOn pfwLow testEn k d).2.fld Fld.RST_STATUS_START_STEP = 1 ∧ (powerOn pfwLow testEn k d).2.fld Fld.PWR_STATUS_RAIL_OK = 255
    ∧ (powerOn pfwLow testEn k d).2.bit Fld.PWR_STATUS_PFW = pfwLow := by
  have kind := reset_kind d (kind := 0) (by decide)
  have step := reset_step d (kind := 0) (by decide)
  simp only [Dev.bit, powerOn_fld]
  generalize d.reset 0 = x at kind step ⊢
  have status {f : FieldAt} (hf : f.off = Reg.RST_STATUS) : ((x.setPfw pfwLow).setFld Fld.PWR_STATUS_RAIL_OK 255).fld f = x.fld f := by
    have rails : ¬ f.off = Fld.PWR_STATUS_RAIL_OK.off := by rw [hf]; decide
    have pfw : ¬ (f.off = Reg.PWR_STATUS ∨ f.off = Reg.NRG_STATUS) := by rw [hf]; decide
    exact (only_fld (setFld_only _ _ _) rails).trans (only_fld (setPfw_only _ _) pfw)
  refine ⟨(status rfl).trans kind, (status rfl).trans step, Dev.fld_setFld_same _ _ _ (by decide), ?_⟩
  rw [Dev.fld_setFld_other _ _ _ _ (by decide) (by decide)]
  exact (setPfw_shows x pfwLow).2.1

theorem railFall_reg {rail : Nat} (hr : rail < 8) {o : Nat} (ho : ¬ resetReg o) : (railFall rail k d).2.reg o = resetWord o := by
  rw [railFall, if_pos hr]
  exact ((setFbit_only _ _ _ _).2 o (fun h => ho (.inr (.inl h)))).trans (reset_reg d (by decide) ho)

theorem railFall_shows {rail : Nat} (hr : rail < 8) : (railFall rail k d).1 = k.afterReset ∧ (railFall rail k d).2.clk.held = true
    ∧ (railFall rail k d).2.fbit Fld.PWR_STATUS_RAIL_OK rail = false ∧ (railFall rail k d).2.snt.log = d.snt.log := by
  have kept (x : Dev) (g : ClkSt → ClkSt) : ((x.setFbit Fld.PWR_STATUS_RAIL_OK rail false).modClk g).snt = x.snt := rfl
  rw [railFall, if_pos hr]
  refine ⟨rfl, rfl, fbit_setFbit_same (d.reset 0) false (by decide) hr, ?_⟩
  rw [kept, resetAll, (reset_keeps d 0).1]

end Resets

/-! ## PFW_ASSERT -/

section Pfw

variable {d : Dev}

/-- The device in a view of its own, with its final save asked for. -/
theorem pfwAssert_eq (low : d.clk.pfw = false) (alone : d.joined = false) : d.pfwAssert
    = (if (d.setPfw true).bit Fld.NRG_CFG_PFW_EN then (d.setPfw true).askFinalSave else d.setPfw true).queueRetSave := by
  have joined (x : Dev) (h : only [.regs, .clk, .nrg] (fun o => o = Reg.PWR_STATUS ∨ o = Reg.NRG_STATUS) d x) : x.joined = false :=
    (only_bit h (by decide)).trans alone
  have marked : only [.regs, .clk, .nrg] (fun o => o = Reg.PWR_STATUS ∨ o = Reg.NRG_STATUS) d (d.setPfw true) :=
    only_wider (setPfw_only d true) (by simp)
  unfold Dev.pfwAssert
  rw [if_neg (by simp [low])]
  refine congrArg Dev.queueRetSave (departs_alone (joined _ ?_) 1)
  split
  · exact only_trans marked (only_wider (askFinalSave_only _ _) (by simp))
  · exact marked

theorem pfwAssert_effect (low : d.clk.pfw = false) (alone : d.joined = false) :
    only [.regs, .nrg, .cyc, .clk] (fun o => o ∈ [Reg.PWR_STATUS, Reg.NRG_STATUS]) d d.pfwAssert ∧ d.pfwAssert.clk.pfw = true
      ∧ d.pfwAssert.bit Fld.PWR_STATUS_PFW = true ∧ d.pfwAssert.bit Fld.NRG_STATUS_PFW = true := by
  obtain ⟨pfw, power, energy⟩ := setPfw_shows d true
  have asked : only [.nrg, .cyc] (fun _ => False) (d.setPfw true) d.pfwAssert := by
    rw [pfwAssert_eq low alone]
    refine only_trans ?_ (only_wider (queueRetSave_only _ _) (by simp))
    split
    · exact only_wider (askFinalSave_only _ _) (by simp)
    · exact only_refl _ _ _
  refine ⟨only_trans (only_mono (by simp) ?_ (setPfw_only d true)) (only_mono (by simp) (fun _ => False.elim) asked), ?_,
    (only_bit asked id).trans power, (only_bit asked id).trans energy⟩
  · rintro o (rfl | rfl) <;> decide
  · rw [only_clk asked (by simp), pfw]

theorem pfwAssert_asks (low : d.clk.pfw = false) (alone : d.joined = false)
    (on : d.bit Fld.NRG_CFG_PFW_EN = true ∧ d.bit Fld.NRG_CTRL_EN = true ∧ d.validPoints ≠ []) (idle : d.finalSaving = false) :
    d.pfwAssert.nrg.finalDue = true := by
  obtain ⟨hpfw, hen, valid⟩ := on
  have kept {f : FieldAt} (h : ¬ (f.off = Reg.PWR_STATUS ∨ f.off = Reg.NRG_STATUS)) : (d.setPfw true).bit f = d.bit f :=
    only_bit (setPfw_only d true) h
  rw [pfwAssert_eq low alone, if_pos ((kept (by decide)).trans hpfw), only_nrg (queueRetSave_only _ (fun _ => False)) (by simp)]
  exact askFinalSave_asks ((kept (by decide)).trans hen) valid idle

end Pfw

/-! ## RESCUE -/

section RescueRow

variable (k : KeySt) (d : Dev)

theorem enterRescue_units : (enterRescue k d).1 = k.afterReset ∧ (enterRescue k d).2.ing = {} ∧ (enterRescue k d).2.fum = {}
    ∧ (enterRescue k d).2.saf = d.saf ∧ (enterRescue k d).2.snt.log = d.snt.log := by
  have flagged (x : Dev) (g : ClkSt → ClkSt) : (((x.setBit Fld.CLK_STATUS_RESCUE true).setBit Fld.HIF_STATUS_CMD_READY false).modClk g).saf = x.saf
      ∧ (((x.setBit Fld.CLK_STATUS_RESCUE true).setBit Fld.HIF_STATUS_CMD_READY false).modClk g).snt = x.snt := ⟨rfl, rfl⟩
  refine ⟨rfl, rfl, rfl, ?_, ?_⟩
  · rw [enterRescue, (flagged _ _).1]
  · rw [enterRescue, (flagged _ _).2, sntAfter]

end RescueRow

/-! ## The requested resets -/

section Requested

variable {d : Dev} {c : Ctx} (k : KeySt) (offers : d.offers c.ring = true) (hen : d.bit Fld.NRG_CFG_PFW_EN = false)
  (idle : d.finalSaving = false)

include offers

theorem begins_completes (kind : Nat) : completes d c.ring sOk 0 ((d.asksReset c.ring kind).finishRetSave.reset kind) := by
  obtain ⟨phase, told⟩ := asksReset_completes offers kind
  exact ⟨phase, (finishRetSave_out _).symm ▸ told⟩

/-- A register below the rings', or above the messages' and not the count of retained saves, is what it was as the reset begins. -/
theorem begins_reg (kind : Nat) {o : Nat} (ho : o < 0x021014 ∨ 0x031004 < o) (hr : ¬ retSaveReg o) :
    (d.asksReset c.ring kind).finishRetSave.reg o = d.reg o := (begins_only offers kind).2 o (not_or.mpr ⟨not_signalReg ho, hr⟩)

include hen

theorem begins_nrg (kind : Nat) : (d.asksReset c.ring kind).finishRetSave.nrg = d.nrg :=
  (only_nrg (finishRetSave_only _) (by simp)).trans (asksReset_nrg offers kind hen)

include idle

theorem asked_begins (kind : Nat) : pendingReset k (d.asksReset c.ring kind)
    = (k.afterReset, (d.asksReset c.ring kind).finishRetSave.reset kind) := by
  refine pendingReset_begins (by rw [asksReset_clk offers]) ?_
  rw [Dev.finalSaving, asksReset_nrg offers kind hen]
  exact idle

end Requested

end Sys2Proof.Machine
end

section
/-! The statement that resets, power fail and RESCUE take effect (R288, R533, R541, R542, R560, R568; O36). -/

namespace Sys2Proof.Machine

open Sys2Proof

theorem ne_of_resetReg {o : Nat} (h1 : o ≠ Reg.RST_STATUS) (h2 : o ≠ Reg.PWR_STATUS) (h3 : o ≠ Reg.NRG_STATUS) : ¬ resetReg o := by
  rintro (h | h | h) <;> contradiction

/-- A requested warm reset: what it applies, counts and keeps of the registers of before. -/
theorem warm_effect {d : Dev} {c : Ctx} (offers : d.offers c.ring = true) {x : Dev} (hx : x = (d.asksReset c.ring 2).finishRetSave) :
    (x.reset 2).regN Reg.RST_WARM_COUNT = (d.regN Reg.RST_WARM_COUNT + 1) % 2 ^ 32
      ∧ (x.reset 2).clk.eclkDiv = d.fld Fld.CLK_DIV_ECLK_DIV ∧ (x.reset 2).clk.cclkDiv = d.fld Fld.CLK_DIV_CCLK_DIV
      ∧ (x.reset 2).clk.bclkDiv = d.fld Fld.CLK_DIV_BCLK_DIV ∧ (x.reset 2).reg Reg.CLK_DIV = d.reg Reg.CLK_DIV
      ∧ (x.reset 2).reg Reg.ENG_RETIRED = d.reg Reg.ENG_RETIRED ∧ (x.reset 2).reg Reg.SAF_CAUSE = d.reg Reg.SAF_CAUSE
      ∧ (x.reset 2).clk.ratioBroken = d.ratioBreaks := by
  subst hx
  have kept (o : Nat) (ho : o < 0x021014 ∨ 0x031004 < o) (hr : ¬ retSaveReg o) := begins_reg offers 2 ho hr
  have div := kept Reg.CLK_DIV (by decide) (by decide)
  have field (f : FieldAt) (hf : f.off = Reg.CLK_DIV) : (d.asksReset c.ring 2).finishRetSave.fld f = d.fld f := by
    rw [Dev.fld, hf, div, ← hf, ← Dev.fld]
  generalize (d.asksReset c.ring 2).finishRetSave = x at kept div field
  refine ⟨?_, field _ rfl, field _ rfl, field _ rfl, ?_, ?_, ?_, ?_⟩
  · rw [reset_warm_count, Dev.regN, kept Reg.RST_WARM_COUNT (by decide) (by decide), ← Dev.regN]
  · rw [reset_warm_keeps x (by decide), div]
  · rw [reset_warm_keeps x (by decide), kept Reg.ENG_RETIRED (by decide) (by decide)]
  · rw [reset_warm_keeps x (by decide), kept Reg.SAF_CAUSE (by decide) (by decide)]
  · have broken : (x.reset 2).clk.ratioBroken = x.ratioBreaks := rfl
    rw [broken, Dev.ratioBreaks, Dev.ratioBreaks, field _ rfl, field _ rfl, field _ rfl]

section Rows

variable {P : State → Prop} {s : State} {k : KeySt} {d : Dev}

theorem exists_finalSaveDone {dt : Nat} {bad : List Nat} (e : pendingReset s.key ((later s.dev dt).finalSaved bad) = (k, d))
    (sound : d.clk.ratioBroken = false) (h : P { s with key := k, dev := d }) :
    ∃ t, exec (.nrgFinalSaveDone ⟨dt, bad⟩) s = .next t ∧ P t := by
  have row : exec (.nrgFinalSaveDone ⟨dt, bad⟩) s = checkRatio (s.runKey dt (fun k d => pendingReset k (d.finalSaved bad))) := rfl
  rw [row]
  exact exists_checked e sound h

/-- Final saves that no reset waits for: their frame, and their device. -/
theorem exists_finalSaves_moves {dt : Nat} {bad : List Nat} {l : List Part} {p : Nat → Prop} (e : (later s.dev dt).finalSaved bad = d)
    (none_pending : (later s.dev dt).clk.resetPending = none) (sound : (later s.dev dt).clk.ratioBroken = false) (hl : Part.clk ∉ l)
    (frame : only l p (later s.dev dt) d) : ∃ t, exec (.nrgFinalSaveDone ⟨dt, bad⟩) s = .next t ∧ moves s dt l p t ∧ t.dev = d := by
  have clk := only_clk frame hl
  have waits : pendingReset s.key ((later s.dev dt).finalSaved bad) = (s.key, d) := by
    rw [e, pendingReset_none (clk ▸ none_pending)]
  exact exists_finalSaveDone waits (clk ▸ sound) ⟨⟨rfl, rfl, frame⟩, rfl⟩

theorem exists_rstWarm {c : Ctx} {confirm : Nat} (e : rstRequest c 0 confirm s.key (later s.dev 0) = (k, d))
    (sound : d.clk.ratioBroken = false) (h : P { s with key := k, dev := d }) :
    ∃ t, exec (.rstRequestWarm c confirm) s = .next t ∧ P t := exists_checked (f := rstRequest c 0 confirm) e sound h

theorem exists_rstCold {c : Ctx} {confirm : Nat} (e : rstRequest c 1 confirm s.key (later s.dev 0) = (k, d))
    (h : P { s with key := k, dev := d }) : ∃ t, exec (.rstRequestCold c confirm) s = .next t ∧ P t :=
  exists_runKey_of (f := rstRequest c 1 confirm) e h

theorem exists_rescue {dt : Nat}
    (e : (if (later s.dev dt).rescueDue then enterRescue s.key (later s.dev dt) else (s.key, later s.dev dt)) = (k, d)) :
    ∃ t, exec (.rescue dt) s = .next t ∧ t.pending = s.pending ∧ t.key = k ∧ t.dev = d :=
  exists_runKey_of (f := fun k d => if d.rescueDue then enterRescue k d else (k, d)) e ⟨rfl, rfl, rfl⟩

end Rows

/-- Settles O36: a reset returns the registers to their reset values, but for those that show it; a request is answered before its reset begins,
and where a final save is due the reset waits; RESCUE keeps the registers of the blocks that run in it. -/
theorem resetsTakeEffect : Obligations.ResetsTakeEffect := by
  unfold Obligations.ResetsTakeEffect
  refine ⟨?_, ?_, ?_, ?_, ?_, ?_, ?_, ?_, ?_, ?_, ?_, ?_, ?_, ?_, ?_, ?_, ?_, ?_⟩
  · rintro s dt pfwLow testEn d rfl
    obtain ⟨kind, step, rails, pfw⟩ := powerOn_shows s.key (later s.dev dt) pfwLow testEn
    obtain ⟨log, slots, retSlots⟩ := powerOn_keeps s.key (later s.dev dt) pfwLow testEn
    refine exists_runKey (f := powerOn pfwLow testEn)
      ⟨rfl, kind, step, rails, pfw, rfl, rfl, log, rfl, slots, retSlots, rfl, rfl, rfl, ?_⟩
    exact fun o h1 h2 h3 => powerOn_reg _ _ pfwLow testEn (ne_of_resetReg h1 h2 h3)
  · rintro s dt rail d rfl hr
    obtain ⟨key, held, low, log⟩ := railFall_shows s.key (later s.dev dt) hr
    refine exists_runKey (f := railFall rail) ⟨key, held, low, log, fun o h1 h2 h3 => ?_⟩
    exact railFall_reg _ _ hr (ne_of_resetReg h1 h2 h3)
  · rintro s dt rail d rfl hr
    have idle : railFall rail s.key (later s.dev dt) = (s.key, later s.dev dt) := if_neg (Nat.not_lt.mpr hr)
    exact exists_runKey_of idle ⟨⟨rfl, rfl, only_refl _ _ _⟩, rfl⟩
  · rintro s c d rfl ⟨offers, hen, saved⟩
    have slots := congrArg NrgSt.slots (begins_nrg offers hen 1)
    refine exists_rstCold ((rstRequest_cold offers).trans (asked_begins s.key offers hen saved 1))
      ⟨rfl, rfl, begins_completes offers 1, reset_kind _ (by decide), rfl, (reset_keeps _ 1).2.1.trans slots, fun o h1 h2 h3 => ?_⟩
    exact reset_reg _ (by decide) (ne_of_resetReg h1 h2 h3)
  · rintro s c d rfl ⟨offers, hen, saved, sound⟩
    obtain ⟨count, eclk, cclk, bclk, div, retired, cause, broken⟩ := warm_effect offers rfl
    refine exists_rstWarm ((rstRequest_warm offers).trans (asked_begins s.key offers hen saved 2)) (broken.trans sound)
      ⟨rfl, rfl, begins_completes offers 2, reset_kind _ (by decide), count, eclk, cclk, bclk, div, retired, cause, ?_, ?_⟩
    · have locked := reset_warm_resets ((later s.dev 0).asksReset c.ring 2).finishRetSave (o := Reg.GLB_STATUS) (by decide) (by decide) (by decide)
        (by decide)
      have unlocked : resetWord Reg.GLB_STATUS = 0 := resetWord_unlisted (by decide)
      simp only [Dev.bit, Dev.fld, show Fld.GLB_STATUS_LOCKED.off = Reg.GLB_STATUS from rfl, locked, unlocked]
      decide
    · exact reset_warm_resets _ (by decide) (by decide) (by decide) (by decide)
  · rintro s c d rfl ⟨offers, hen, saved, breaks⟩
    obtain ⟨-, -, -, -, -, -, -, broken⟩ := warm_effect offers rfl
    have run := (rstRequest_warm (k := s.key) offers).trans (asked_begins s.key offers hen saved 2)
    have row : exec (.rstRequestWarm c 0x52535451) s = checkRatio (.next { s with
        key := (rstRequest c 0 0x52535451 s.key (later s.dev 0)).1, dev := (rstRequest c 0 0x52535451 s.key (later s.dev 0)).2 }) := rfl
    rw [row, run, checkRatio_next]
    exact if_pos (broken.trans breaks)
  · rintro s c d rfl ⟨offers, sound⟩ ⟨hpfw, hen, valid, saved⟩
    have due := asksReset_waits offers 2 hpfw hen valid saved
    have clk := asksReset_clk offers 2
    refine exists_rstWarm ((rstRequest_warm offers).trans (pendingReset_waits (by rw [clk]) (by rw [Dev.finalSaving, due, Bool.true_or])))
      (by rw [clk]; exact sound) ⟨rfl, rfl, asksReset_completes offers 2, ?_, due⟩
    exact congrArg ClkSt.resetPending clk
  · rintro s c confirm d rfl ⟨offers, other, sound⟩
    have clk := only_clk (request_only offers sRange) (by simp)
    refine exists_rstWarm (rstRequest_other offers 0 other) (by rw [clk]; exact sound)
      ⟨⟨rfl, rfl, request_only offers sRange⟩, request_completes offers sRange⟩
  · rintro s c confirm d rfl ⟨offers, other⟩
    exact exists_rstCold (rstRequest_other offers 1 other) ⟨⟨rfl, rfl, request_only offers sRange⟩, request_completes offers sRange⟩
  · rintro s dt d bad rfl ⟨none_pending, sound, due, saved⟩
    obtain ⟨t, step, frame, dev⟩ := exists_finalSaves_moves (l := []) (finalSaved_idle bad saved) none_pending sound (by simp)
      (only_refl _ (fun _ => False) _)
    exact ⟨t, step, frame, by rw [dev]⟩
  · rintro s dt p d a x bad rfl ⟨none_pending, sound, due, hp, saving⟩ others good
    obtain ⟨frame, effect⟩ := finalSaved_commits due hp saving others good
    obtain ⟨t, step, frame, dev⟩ := exists_finalSaves_moves rfl none_pending sound (by simp) frame
    exact ⟨t, step, frame, by rw [dev]; exact effect⟩
  · rintro s dt p d a x bad rfl ⟨none_pending, sound, due, hp, saving⟩ others failed
    obtain ⟨frame, effect⟩ := finalSaved_fails due hp saving others failed
    obtain ⟨t, step, frame, dev⟩ := exists_finalSaves_moves rfl none_pending sound (by simp) frame
    exact ⟨t, step, frame, by rw [dev]; exact effect⟩
  · rintro s dt d bad rfl ⟨pending, saved⟩
    have slots := congrArg NrgSt.slots (only_nrg (finishRetSave_only (later s.dev dt)) (by simp))
    have begins : pendingReset s.key ((later s.dev dt).finalSaved bad) = (s.key.afterReset, (later s.dev dt).finishRetSave.reset 1) := by
      rw [finalSaved_idle bad saved, pendingReset_begins pending saved]
    exact exists_finalSaveDone begins rfl
      ⟨rfl, rfl, reset_kind _ (by decide), (reset_keeps _ 1).2.1.trans slots, rfl⟩
  · rintro s dt d rfl ⟨low, alone⟩
    obtain ⟨frame, pfw, power, energy⟩ := pfwAssert_effect low alone
    exact exists_run_moves (f := fun _ d => d.pfwAssert) rfl frame ⟨pfw, power, energy, fun on idle => pfwAssert_asks low alone on idle⟩
  · rintro s dt d rfl low
    have idle : (later s.dev dt).pfwAssert = later s.dev dt := if_pos low
    exact exists_run_moves (f := fun _ d => d.pfwAssert) idle (only_refl _ _ _) rfl
  · rintro s dt d rfl
    obtain ⟨pfw, power, energy⟩ := setPfw_shows (later s.dev dt) false
    have frame : only [.regs, .nrg, .clk] (fun o => o ∈ [Reg.PWR_STATUS, Reg.NRG_STATUS]) (later s.dev dt)
        (((later s.dev dt).setPfw false).modNrg (fun g => { g with savedSec := (later s.dev dt).gSec })) := by
      refine only_trans (only_mono (by simp) ?_ (setPfw_only _ false)) (only_wider (modNrg_only _ _ _) (by simp))
      rintro o (rfl | rfl) <;> decide
    exact exists_run_moves (f := fun _ d => (d.setPfw false).modNrg (fun g => { g with savedSec := d.gSec })) rfl frame
      ⟨pfw, power, energy, rfl⟩
  · rintro s dt d rfl due
    obtain ⟨key, ing, fum, saf, log⟩ := enterRescue_units s.key (later s.dev dt)
    obtain ⟨rescue, ready⟩ := enterRescue_shows s.key (later s.dev dt)
    obtain ⟨t, step, pending, key', dev⟩ := exists_rescue ((if_pos due).trans Prod.mk.eta.symm)
    refine ⟨t, step, pending, key'.trans key, ?_⟩
    rw [dev]
    refine ⟨rescue, ready, ing, fum, saf, log, fun o ho => ?_, fun o ho hc hs => ?_⟩
    · have apart : o ≠ Reg.CLK_STATUS ∧ o ≠ Reg.HIF_STATUS := by
        constructor <;> rintro rfl <;> cases ho
      rw [enterRescue_reg _ _ apart.1 apart.2, ho]
      exact if_neg (by simp)
    · rw [enterRescue_reg _ _ hc hs, if_pos ho]
  · rintro s dt d rfl notDue
    obtain ⟨t, step, pending, key, dev⟩ := exists_rescue (s := s) (dt := dt) (if_neg (by simp [notDue]))
    exact ⟨t, step, ⟨key, pending, dev ▸ only_refl _ _ _⟩, by rw [dev]⟩

end Sys2Proof.Machine
end

section
/-! What leaves the enable under which a ring runs (R452): its records, their messages, completions and events. -/

namespace Sys2Proof.Machine

open Sys2Proof

/-- Every ring runs under the enable under which it ran. -/
structure Dev.sessionsKept (d t : Dev) : Prop where
  same : ∀ m, (t.ring m).session = (d.ring m).session

theorem sessionsKept_refl (d : Dev) : d.sessionsKept d := ⟨fun _ => rfl⟩

theorem sessionsKept_trans {a b c : Dev} (h : a.sessionsKept b) (k : b.sessionsKept c) : a.sessionsKept c :=
  ⟨fun m => (k.same m).trans (h.same m)⟩

theorem sessionsKept_of_rings {d t : Dev} (h : t.hif.rings = d.hif.rings) : d.sessionsKept t :=
  ⟨fun m => by rw [Dev.ring, h, Dev.ring]⟩

theorem sessionsKept_of_hif {d t : Dev} (h : t.hif = d.hif) : d.sessionsKept t := sessionsKept_of_rings (by rw [h])

theorem sessionsKept_ite {c : Prop} [Decidable c] {d a b : Dev} (h : d.sessionsKept a) (k : d.sessionsKept b) :
    d.sessionsKept (if c then a else b) := by
  split
  · exact h
  · exact k

theorem sessionsKept_setRing {d : Dev} {n : Nat} {r : RingSt} (h : r.session = (d.ring n).session) : d.sessionsKept (d.setRing n r) := by
  refine ⟨fun m => ?_⟩
  rcases eq_or_ne m n with rfl | hm
  · simp only [Dev.ring, Dev.setRing, getElem?_modifyAt_same] at h ⊢
    cases hr : d.hif.rings[m]? with
    | none => rfl
    | some x => rw [hr] at h; exact h
  · simp only [Dev.ring, Dev.setRing, getElem?_modifyAt_other _ _ hm]

theorem sessionsKept_sendMsix (d : Dev) (v : Nat) : d.sessionsKept (d.sendMsix v) := sessionsKept_of_hif (sendMsix_hif d v)

theorem sessionsKept_judgeSignal (d : Dev) (n : Nat) (b : Bool) : d.sessionsKept (d.judgeSignal n b) := by
  unfold Dev.judgeSignal
  simp only
  split
  · have sent : ((d.sendMsix (d.fld (Fld.HIF_RINGn_CFG_VECTOR n))).setBit (Fld.HIF_RINGn_STAT_ARMED n) false).hif = d.hif := by
      rw [Dev.setBit_hif, sendMsix_hif]
    exact sessionsKept_trans (sessionsKept_of_hif sent) (sessionsKept_setRing (by rw [Dev.ring, Dev.ring, sent]))
  · exact sessionsKept_refl d

theorem sessionsKept_countDone (d : Dev) (n : Nat) : d.sessionsKept (d.countDone n) := by
  unfold Dev.countDone
  extract_lets x x'
  have counted : d.sessionsKept (d.count (Reg.HIF_RINGn_DONE n)) := sessionsKept_of_hif (Dev.count_hif d _ _)
  have unsignalled : (d.count (Reg.HIF_RINGn_DONE n)).sessionsKept ((d.count (Reg.HIF_RINGn_DONE n)).setRing n x') :=
    sessionsKept_setRing (by rw [Dev.ring, Dev.count_hif, ← Dev.ring])
  exact sessionsKept_trans counted (sessionsKept_trans unsignalled (sessionsKept_judgeSignal _ _ _))

theorem sessionsKept_emit (d : Dev) (o : Out) : d.sessionsKept (d.emit o) := sessionsKept_of_hif rfl

/-- A ring written, an output, and a completion counted. -/
theorem sessionsKept_completed {d : Dev} {n : Nat} {r : RingSt} (h : r.session = (d.ring n).session) (o : Out) :
    d.sessionsKept (((d.setRing n r).emit o).countDone n) :=
  sessionsKept_trans (sessionsKept_setRing h) (sessionsKept_trans (sessionsKept_emit _ _) (sessionsKept_countDone _ n))

theorem sessionsKept_closeBuf (d : Dev) (n : Nat) (b : Bool) : d.sessionsKept (d.closeBuf n b) := by
  unfold Dev.closeBuf
  simp only
  split
  · exact sessionsKept_refl _
  · exact sessionsKept_completed (d := d) (n := n) (r := { d.ring n with cur := none }) rfl _

theorem sessionsKept_openNext (n : Nat) (b : Bool) (kind : Nat) (l : List BufDesc) (d : Dev) : d.sessionsKept (Dev.openNext n b kind l d) := by
  induction l generalizing d with
  | nil => exact sessionsKept_refl _
  | cons x t ih =>
    simp only [Dev.openNext]
    split
    · have taken := sessionsKept_setRing (d := d) (n := n) (r := { d.ring n with bufs := t, next := (d.ring n).next + 1 }) rfl
      refine sessionsKept_trans taken ?_
      generalize d.setRing n _ = y
      have opened (cur : Option OpenBuf) : y.sessionsKept (y.setRing n { y.ring n with cur := cur }) := sessionsKept_setRing rfl
      exact sessionsKept_trans (opened _) (sessionsKept_of_rings rfl)
    · exact sessionsKept_trans (sessionsKept_completed (d := d) (n := n) (r := { d.ring n with bufs := t, next := (d.ring n).next + 1 }) rfl _) (ih _)

theorem sessionsKept_dropBad (n : Nat) (l : List BufDesc) (d : Dev) : d.sessionsKept (Dev.dropBad n l d) := by
  induction l generalizing d with
  | nil => exact sessionsKept_refl _
  | cons x t ih =>
    simp only [Dev.dropBad]
    split
    · exact sessionsKept_refl _
    · exact sessionsKept_trans (sessionsKept_completed (d := d) (n := n) (r := { d.ring n with bufs := t, next := (d.ring n).next + 1 }) rfl _) (ih _)

theorem sessionsKept_fill (d : Dev) (n : Nat) (b : Bytes) (s : Option RingRec) : d.sessionsKept (d.fill n b s) := by
  unfold Dev.fill
  simp only
  split
  · exact sessionsKept_refl _
  · exact sessionsKept_trans (sessionsKept_emit d _) (sessionsKept_setRing rfl)

theorem sessionsKept_endGroup (d : Dev) (n : Nat) (b : Bool) : d.sessionsKept (d.endGroup n b) := by
  unfold Dev.endGroup
  exact sessionsKept_ite (sessionsKept_closeBuf _ _ _) (sessionsKept_refl _)

theorem sessionsKept_fillPart (d : Dev) (n : Nat) (b : Bytes) (g : Bool) (s : Option RingRec) : d.sessionsKept (d.fillPart n b g s) := by
  unfold Dev.fillPart
  simp only
  refine sessionsKept_trans (sessionsKept_fill d n (b.take (d.room n)) s) (sessionsKept_ite (sessionsKept_endGroup _ _ _) ?_)
  generalize d.fill n _ s = y
  refine sessionsKept_trans (sessionsKept_closeBuf y n true) ?_
  generalize y.closeBuf n true = z
  exact sessionsKept_setRing rfl

theorem sessionsKept_continueRec (n kind fuel : Nat) (d : Dev) : d.sessionsKept (Dev.continueRec n kind fuel d) := by
  induction fuel generalizing d with
  | zero => exact sessionsKept_refl _
  | succ f ih =>
    simp only [Dev.continueRec]
    split
    · exact sessionsKept_refl _
    · refine sessionsKept_trans (sessionsKept_openNext n true kind (d.ring n).bufs d) (sessionsKept_ite (sessionsKept_refl _) ?_)
      generalize Dev.openNext n true kind (d.ring n).bufs d = y
      have begun : y.sessionsKept (y.setRing n { y.ring n with rest := none }) := sessionsKept_setRing rfl
      exact sessionsKept_trans begun (sessionsKept_trans (sessionsKept_fillPart _ _ _ _ _) (ih _))

theorem sessionsKept_place (n kind : Nat) (r : RingRec) (d : Dev) : d.sessionsKept (d.place n kind r).1 := by
  unfold Dev.place
  extract_lets d0 d1 d2
  have closed : d.sessionsKept d0 := sessionsKept_ite (sessionsKept_closeBuf d n false) (sessionsKept_refl d)
  have opened : d0.sessionsKept d1 := sessionsKept_ite (sessionsKept_refl d0) (sessionsKept_openNext n false kind (d0.ring n).bufs d0)
  refine sessionsKept_trans closed (sessionsKept_trans opened ?_)
  split
  · exact sessionsKept_refl _
  · exact sessionsKept_trans (sessionsKept_fillPart _ _ _ _ _) (sessionsKept_continueRec _ _ _ _)

theorem sessionsKept_placeAll (n kind : Nat) (l : List RingRec) (d : Dev) : d.sessionsKept (Dev.placeAll n kind l d).1 := by
  induction l generalizing d with
  | nil => exact sessionsKept_refl _
  | cons r t ih =>
    simp only [Dev.placeAll]
    have placed : d.sessionsKept (if (d.ring n).rest.isSome = true then (d, false) else d.place n kind r).1 := by
      split
      · exact sessionsKept_refl _
      · exact sessionsKept_place n kind r d
    generalize (if (d.ring n).rest.isSome = true then (d, false) else d.place n kind r) = p at placed ⊢
    split
    · exact sessionsKept_trans placed
        (sessionsKept_trans (sessionsKept_ite (sessionsKept_sendMsix _ _) (sessionsKept_refl _)) (ih _))
    · exact placed

theorem sessionsKept_setRingQ (d : Dev) (kind : Nat) (q : List RingRec) : d.sessionsKept (d.setRingQ kind q) := by
  refine sessionsKept_of_rings ?_
  unfold Dev.setRingQ
  repeat' split
  all_goals rfl

theorem sessionsKept_pump (d : Dev) (kind : Nat) : d.sessionsKept (d.pump kind) := by
  unfold Dev.pump
  split
  · exact sessionsKept_refl _
  · rename_i n _
    refine sessionsKept_ite ?_ (sessionsKept_refl _)
    have waiting (x : Dev) (l : List RingRec) : x.sessionsKept ((Dev.placeAll n kind l x).1.setRingQ kind (Dev.placeAll n kind l x).2) :=
      sessionsKept_trans (sessionsKept_placeAll n kind l x) (sessionsKept_setRingQ _ _ _)
    refine sessionsKept_trans (sessionsKept_continueRec n kind ((d.ring n).bufs.length + 1) d) ?_
    exact sessionsKept_ite (sessionsKept_trans (waiting _ _) (sessionsKept_dropBad _ _ _)) (waiting _ _)

theorem sessionsKept_enqueue (d : Dev) (kind cap lostReg : Nat) (recs : List RingRec) : d.sessionsKept (d.enqueue kind cap lostReg recs) := by
  unfold Dev.enqueue
  extract_lets d1 q d2 h d3
  have pumped : d.sessionsKept d1 := sessionsKept_trans (sessionsKept_setRingQ d kind _) (sessionsKept_pump _ kind)
  refine sessionsKept_trans pumped (sessionsKept_ite (sessionsKept_refl _) ?_)
  have trimmed : d1.sessionsKept d3 := sessionsKept_trans (b := d2)
    (sessionsKept_trans (sessionsKept_setRingQ d1 kind q.1) (sessionsKept_of_hif (Dev.count_hif _ _ _))) (sessionsKept_of_rings rfl)
  exact sessionsKept_trans trimmed (sessionsKept_ite (sessionsKept_sendMsix _ _) (sessionsKept_refl _))

theorem sessionsKept_eventRecord (d : Dev) (mk : Nat → Bytes) (g : Bool) : d.sessionsKept (d.eventRecord mk g) := by
  unfold Dev.eventRecord
  exact sessionsKept_trans (b := { d with hif := { d.hif with eventSeq := (d.hif.eventSeq + 1) % 2 ^ 32 } }) (sessionsKept_of_rings rfl)
    (sessionsKept_enqueue _ _ _ _ _)

theorem sessionsKept_complete (d : Dev) (n k session status result addr : Nat) (b : Bytes) :
    d.sessionsKept (d.complete n k session status result addr b) := by
  unfold Dev.complete
  extract_lets r st held d1
  refine sessionsKept_ite (sessionsKept_refl d) (sessionsKept_ite (sessionsKept_of_rings rfl) ?_)
  have written : d1.hif = d.hif := by
    show (if _ then _ else _ : Dev).hif = _
    split <;> rfl
  exact sessionsKept_trans (sessionsKept_of_hif written) (sessionsKept_completed (by rw [Dev.ring, written, ← Dev.ring]) _)

theorem sessionsKept_finishWaits (d : Dev) (p : WaitKind → Bool) (status result : Nat) : d.sessionsKept (d.finishWaits p status result) := by
  unfold Dev.finishWaits
  extract_lets hit h x
  have listed : d.sessionsKept x := sessionsKept_of_rings rfl
  refine sessionsKept_trans listed (foldl_keeps sessionsKept_refl sessionsKept_trans (fun x w => ?_) hit x)
  exact sessionsKept_ite (sessionsKept_refl x) (sessionsKept_complete _ _ _ _ _ _ _ _)

theorem statesKept_complete (d : Dev) (n k session status result addr : Nat) (b : Bytes) :
    d.statesKept (d.complete n k session status result addr b) := by
  unfold Dev.complete
  extract_lets r st held d1
  refine statesKept_ite (statesKept_refl d) (statesKept_ite (statesKept_of_regs rfl) ?_)
  have written : d1.regs = d.regs := by
    show (if _ then _ else _ : Dev).regs = _
    split <;> rfl
  exact statesKept_trans (statesKept_of_regs written) (statesKept_trans (statesKept_setRing _ _ _)
    (statesKept_trans (statesKept_emit _ _) (statesKept_countDone _ n)))

theorem statesKept_finishWaits (d : Dev) (p : WaitKind → Bool) (status result : Nat) : d.statesKept (d.finishWaits p status result) := by
  unfold Dev.finishWaits
  extract_lets hit h x
  have listed : d.statesKept x := statesKept_of_regs rfl
  refine statesKept_trans listed (foldl_keeps statesKept_refl statesKept_trans (fun x w => ?_) hit x)
  exact statesKept_ite (statesKept_refl x) (statesKept_complete _ _ _ _ _ _ _ _)

end Sys2Proof.Machine
end

section
/-! What the entry into the safe state leaves (R522): the safe state itself with its cause and pins, the clocks, and the rings' STATE and enables.
Commands that wait may name rings beyond the 32 of the part; DONE and STAT of such a ring lie at offsets of their own all the same. -/

namespace Sys2Proof.Machine

open Sys2Proof

/-! ## Completions on any ring -/

/-- DONE or STAT of a ring of any number, or a pending word of MSI-X. -/
def anyRingReg (o : Nat) : Prop := (∃ n, o = Reg.HIF_RINGn_DONE n ∨ o = Reg.HIF_RINGn_STAT n) ∨ o = 0x031000 ∨ o = 0x031004

theorem anyRingReg_of_signalReg {o : Nat} (h : signalReg o) : anyRingReg o := by
  rcases h with ⟨n, -, h⟩ | h
  · exact .inl ⟨n, h⟩
  · exact .inr h

theorem judgeSignal_rings (d : Dev) (n : Nat) (b : Bool) : only [.regs, .hif] anyRingReg d (d.judgeSignal n b) := by
  unfold Dev.judgeSignal
  simp only
  split
  · have sent : only [.regs, .hif] anyRingReg d (d.sendMsix (d.fld (Fld.HIF_RINGn_CFG_VECTOR n))) :=
      only_mono (by simp) (fun _ => anyRingReg_of_signalReg) (sendMsix_only d (fld_lt _ _))
    have cleared (x : Dev) : only [.regs, .hif] anyRingReg x (x.setBit (Fld.HIF_RINGn_STAT_ARMED n) false) :=
      only_mono (by simp) (by rintro _ rfl; exact .inl ⟨n, .inr rfl⟩) (setBit_only _ _ _)
    exact only_trans sent (only_trans (cleared _) (setRing_only _ _ _ _))
  · exact only_refl _ _ _

theorem countDone_rings (d : Dev) (n : Nat) : only [.regs, .hif] anyRingReg d (d.countDone n) := by
  have counted : only [.regs, .hif] anyRingReg d (d.count (Reg.HIF_RINGn_DONE n)) :=
    only_mono (by simp) (by rintro _ rfl; exact .inl ⟨n, .inl rfl⟩) (count_only _ _ _)
  unfold Dev.countDone
  exact only_trans counted (only_trans (setRing_only _ _ _ _) (judgeSignal_rings _ n _))

theorem complete_rings (d : Dev) (n k session status result addr : Nat) (b : Bytes) :
    only [.regs, .hif] anyRingReg d (d.complete n k session status result addr b) := by
  unfold Dev.complete
  extract_lets r st held d1
  refine only_ite (only_refl _ _ _) (only_ite (only_of_kept (by simp [keptBut]) rfl) ?_)
  have written : only [.regs, .hif] anyRingReg d d1 := only_ite (only_refl _ _ _) (emit_only _ _ _)
  exact only_trans written (only_trans (setRing_only _ _ _ _) (only_trans (emit_only _ _ _) (countDone_rings _ n)))

theorem finishWaits_rings (d : Dev) (p : WaitKind → Bool) (status result : Nat) :
    only [.regs, .hif] anyRingReg d (d.finishWaits p status result) := by
  unfold Dev.finishWaits
  extract_lets hit h x
  have listed : only [.regs, .hif] anyRingReg d x := only_of_kept (by simp [keptBut, x]) rfl
  exact only_trans listed (only_foldl _ (fun y w => only_ite (only_refl _ _ _) (complete_rings _ _ _ _ _ _ _ _)) hit x)

/-! ## STATE and the enables of the rings -/

theorem statesKept_of_only {l : List Part} {p : Nat → Prop} {d t : Dev} (h : only l p d t) (hp : ∀ m, ¬ p (Reg.HIF_RINGn_STAT m)) :
    d.statesKept t := fun m => only_fld h (hp m)

theorem stat_mod (m : Nat) : Reg.HIF_RINGn_STAT m % 32 = 24 := by
  simp only [Reg.HIF_RINGn_STAT]
  omega

theorem statesKept_event (d : Dev) (e : Ev) (index arg0 arg1 status : Nat) : d.statesKept (d.event e index arg0 arg1 status) := by
  unfold Dev.event
  simp only
  have logged : d.statesKept (if e.row.2.2.2 = true then d.sinter e.row.1 e.row.2.1 status index arg0 else d) := by
    refine statesKept_ite (statesKept_of_only (sinter_log d _ _ _ _ _) (fun m h => ?_)) (statesKept_refl d)
    have listed : ∀ o, logReg o → o % 32 ≠ 24 := by unfold logReg; decide
    exact listed _ h (stat_mod m)
  exact statesKept_ite (statesKept_trans logged (statesKept_eventRecord _ _ _)) logged

theorem sessionsKept_event (d : Dev) (e : Ev) (index arg0 arg1 status : Nat) : d.sessionsKept (d.event e index arg0 arg1 status) := by
  unfold Dev.event
  simp only
  have logged : d.sessionsKept (if e.row.2.2.2 = true then d.sinter e.row.1 e.row.2.1 status index arg0 else d) :=
    sessionsKept_ite (sessionsKept_of_hif (only_hif (sinter_log d _ _ _ _ _) (by simp))) (sessionsKept_refl d)
  exact sessionsKept_ite (sessionsKept_trans logged (sessionsKept_eventRecord _ _ _)) logged

/-! ## What the entry keeps -/

/-- The parts that the entry moves. -/
abbrev entryParts : List Part := [.regs, .hif, .fum, .net, .cyc, .snt, .saf]

/-- The registers that the entry moves beside those that say its cause. -/
def entryReg (o : Nat) : Prop :=
  anyRingReg o ∨ eventReg o ∨ o = Reg.FUM_RING_LOST ∨ expressReg o ∨ o ∈ [Reg.SAF_STATUS, Reg.FUM_STATUS, Reg.CYC_STATUS]

/-- From `d` to `t` the safe state, its pins, STATE and the enables of the rings stay, and so does what the entry does not move. -/
structure entryKept (d t : Dev) : Prop where
  frame : only entryParts entryReg d t
  safe : t.bit Fld.SAF_STATUS_SAFE = d.bit Fld.SAF_STATUS_SAFE
  pins : t.fld Fld.FUM_STATUS_PINS = d.fld Fld.FUM_STATUS_PINS
  states : d.statesKept t
  sessions : d.sessionsKept t

theorem entryKept_refl (d : Dev) : entryKept d d := ⟨only_refl _ _ _, rfl, rfl, statesKept_refl d, sessionsKept_refl d⟩

theorem entryKept_trans {a b c : Dev} (h : entryKept a b) (k : entryKept b c) : entryKept a c :=
  ⟨only_trans h.frame k.frame, k.safe.trans h.safe, k.pins.trans h.pins, statesKept_trans h.states k.states,
    sessionsKept_trans h.sessions k.sessions⟩

theorem entryKept_ite {c : Prop} [Decidable c] {d a b : Dev} (h : entryKept d a) (k : entryKept d b) : entryKept d (if c then a else b) := by
  split
  · exact h
  · exact k

/-- A frame apart from the two registers that show the safe state. -/
theorem entryKept_of_only {l : List Part} {p : Nat → Prop} {d t : Dev} (h : only l p d t) (hl : ∀ x ∈ l, x ∈ entryParts)
    (hp : ∀ o, p o → entryReg o) (apart : ¬ p Reg.SAF_STATUS ∧ ¬ p Reg.FUM_STATUS) (states : d.statesKept t) (sessions : d.sessionsKept t) :
    entryKept d t := ⟨only_mono hl hp h, only_bit h apart.1, only_fld h apart.2, states, sessions⟩

/-- No register and no ring. -/
theorem entryKept_of_regs {d t : Dev} (kept : keptBut entryParts d t) (regs : t.regs = d.regs) (hif : t.hif = d.hif) : entryKept d t :=
  entryKept_of_only (only_of_kept (p := fun _ => False) kept regs) (fun _ h => h) (fun _ => False.elim) ⟨id, id⟩ (statesKept_of_regs regs)
    (sessionsKept_of_hif hif)

/-- A field of the safety, Fumarole or program status beside those that stay. -/
theorem entryKept_setFld (d : Dev) {f : FieldAt} (v : Nat) (hf : f.off ∈ [Reg.SAF_STATUS, Reg.FUM_STATUS, Reg.CYC_STATUS])
    (h : f.lo + f.width ≤ 32) (hs : Fld.SAF_STATUS_SAFE.off ≠ f.off ∨ Fld.SAF_STATUS_SAFE.lo + Fld.SAF_STATUS_SAFE.width ≤ f.lo)
    (hp : Fld.FUM_STATUS_PINS.off ≠ f.off ∨ f.lo + f.width ≤ Fld.FUM_STATUS_PINS.lo) : entryKept d (d.setFld f v) where
  frame := only_mono (by simp) (by rintro _ rfl; exact .inr (.inr (.inr (.inr hf)))) (setFld_only d f v)
  safe := bit_of_fld (Dev.fld_setFld_other d f _ v h (hs.imp_right .inl))
  pins := Dev.fld_setFld_other d f _ v h (hp.imp_right .inr)
  states := statesKept_of_only (setFld_only d f v) fun m e => by
    have := stat_mod m
    have listed : ∀ o ∈ [Reg.SAF_STATUS, Reg.FUM_STATUS, Reg.CYC_STATUS], o % 32 ≠ 24 := by decide
    exact listed _ hf (e ▸ this)
  sessions := sessionsKept_of_hif (Dev.setFld_hif d f v)

theorem entryKept_setBit (d : Dev) {f : FieldAt} (b : Bool) (hf : f.off ∈ [Reg.SAF_STATUS, Reg.FUM_STATUS, Reg.CYC_STATUS])
    (h : f.lo + f.width ≤ 32) (hs : Fld.SAF_STATUS_SAFE.off ≠ f.off ∨ Fld.SAF_STATUS_SAFE.lo + Fld.SAF_STATUS_SAFE.width ≤ f.lo)
    (hp : Fld.FUM_STATUS_PINS.off ≠ f.off ∨ f.lo + f.width ≤ Fld.FUM_STATUS_PINS.lo) : entryKept d (d.setBit f b) :=
  entryKept_setFld d _ hf h hs hp

theorem entryKept_event (d : Dev) (e : Ev) (index arg0 arg1 status : Nat) : entryKept d (d.event e index arg0 arg1 status) :=
  entryKept_of_only (event_only d e index arg0 arg1 status) (by simp) (fun _ h => .inr (.inl h)) ⟨not_eventReg (by decide), not_eventReg (by decide)⟩
    (statesKept_event d e index arg0 arg1 status) (sessionsKept_event d e index arg0 arg1 status)

theorem entryKept_finishWaits (d : Dev) (p : WaitKind → Bool) (status result : Nat) : entryKept d (d.finishWaits p status result) := by
  have apart : ¬ anyRingReg Reg.SAF_STATUS ∧ ¬ anyRingReg Reg.FUM_STATUS := by
    have ring {o : Nat} (h : anyRingReg o) : o % 32 = 20 ∨ o % 32 = 24 ∨ o = 0x031000 ∨ o = 0x031004 := by
      simp only [anyRingReg, Reg.HIF_RINGn_DONE, Reg.HIF_RINGn_STAT] at h
      rcases h with ⟨n, h | h⟩ | h | h <;> omega
    exact ⟨fun h => absurd (ring h) (by decide), fun h => absurd (ring h) (by decide)⟩
  exact entryKept_of_only (finishWaits_rings d p status result) (by simp) (fun _ => .inl) apart (statesKept_finishWaits d p status result)
    (sessionsKept_finishWaits d p status result)

theorem entryKept_refreshAlmok (d : Dev) : entryKept d d.refreshAlmok :=
  entryKept_trans (entryKept_setBit d _ (by decide) (by decide) (by decide) (by decide))
    (entryKept_trans (entryKept_setFld _ _ (by decide) (by decide) (by decide) (by decide))
      (entryKept_setBit _ _ (by decide) (by decide) (by decide) (by decide)))

theorem entryKept_sendPub (d : Dev) (n : Nat) (p : Pub) (ordinary : Bool) : entryKept d (d.sendPub n p ordinary) := by
  have frame := sendPub_only d n p ordinary
  have apart {o : Nat} (h : o % 32 ≠ 20) : ¬ expressReg o := by
    rintro (drop | ⟨k, -, lost⟩)
    · subst drop
      exact h rfl
    · simp only [Reg.NET_Pp_TX_Q_LOST] at lost
      omega
  exact entryKept_of_only frame (by simp) (fun _ h => .inr (.inr (.inr (.inl h)))) ⟨apart (by decide), apart (by decide)⟩
    (statesKept_of_only frame fun m => apart (by rw [stat_mod]; decide)) (sessionsKept_of_hif (only_hif frame (by simp)))

theorem entryKept_safePub (d : Dev) (e : Nat × Pub) : entryKept d (d.safePub e) := by
  unfold Dev.safePub
  refine entryKept_ite ?_ (entryKept_refl d)
  unfold Dev.newState
  refine entryKept_trans ?_ (entryKept_sendPub _ _ _ _)
  exact entryKept_of_regs (by simp [keptBut]) rfl rfl

theorem entryKept_saf (d : Dev) (x : SafSt) : entryKept d { d with saf := x } := entryKept_of_regs (by simp [keptBut]) rfl rfl

theorem entryKept_units (d : Dev) (net : NetSt) (fum : FumSt) (cyc : CycSt) : entryKept d { d with net := net, fum := fum, cyc := cyc } :=
  entryKept_of_regs (by simp [keptBut]) rfl rfl

theorem entryKept_bumpRecSeq (d : Dev) : entryKept d d.bumpRecSeq :=
  entryKept_of_regs (by simp [keptBut, Dev.bumpRecSeq]) rfl rfl

theorem entryKept_abortProof (d : Dev) : entryKept d d.abortProof := by
  unfold Dev.abortProof
  split
  · exact entryKept_refl d
  · extract_lets d1
    have told : entryKept d d1 := entryKept_trans
      (foldl_keeps entryKept_refl entryKept_trans (fun x t => entryKept_event x .proofTest t 2 0 _) _ d) (entryKept_finishWaits _ _ _ _)
    exact entryKept_trans told (entryKept_trans (entryKept_setBit d1 (f := Fld.SAF_STATUS_PROOF_RUNNING) false (by decide) (by decide) (by decide) (by decide))
      (entryKept_saf _ _))

theorem entryKept_dropSwitch (d : Dev) : entryKept d d.dropSwitch :=
  entryKept_trans (b := d.modCyc (fun c => { c with switch := none })) (entryKept_of_regs (by simp [keptBut, Dev.modCyc]) rfl rfl)
    (entryKept_trans (entryKept_setBit _ (f := Fld.CYC_STATUS_SWITCH_PEND) false (by decide) (by decide) (by decide) (by decide))
      (entryKept_finishWaits _ _ _ _))

theorem statesKept_alarmSend (d : Dev) (recs : List Bytes) : d.statesKept (d.alarmSend recs) := by
  have lost (m : Nat) : Reg.HIF_RINGn_STAT m ≠ Reg.FUM_RING_LOST := fun h => by
    have stat := stat_mod m
    rw [h] at stat
    exact absurd stat (by decide)
  unfold Dev.alarmSend
  split
  · exact statesKept_refl d
  · exact statesKept_enqueue _ _ _ _ lost _

theorem sessionsKept_alarmSend (d : Dev) (recs : List Bytes) : d.sessionsKept (d.alarmSend recs) := by
  unfold Dev.alarmSend
  split
  · exact sessionsKept_refl d
  · exact sessionsKept_enqueue _ _ _ _ _

theorem entryKept_alarmSend (d : Dev) (recs : List Bytes) : entryKept d (d.alarmSend recs) := by
  have apart {o : Nat} (ho : o < 0x021014 ∨ 0x031004 < o) (hl : o ≠ Reg.FUM_RING_LOST) : ¬ alarmReg o := not_or.mpr ⟨not_signalReg ho, hl⟩
  refine entryKept_of_only (alarmSend_only d recs) (by simp) ?_ ⟨apart (by decide) (by decide), apart (by decide) (by decide)⟩
    (statesKept_alarmSend d recs) (sessionsKept_alarmSend d recs)
  rintro o (h | h)
  · exact .inl (anyRingReg_of_signalReg h)
  · exact .inr (.inr (.inl h))

/-! ## The entry itself -/

/-- The device whose registers say that it enters the safe state, and why. -/
def Dev.entersSafe (d : Dev) (cls status diag : Nat) : Dev :=
  (((((((d.setBit Fld.SAF_STATUS_SAFE true).setBit Fld.FUM_STATUS_SAFE true).setBit Fld.FUM_STATUS_RUNNING false).setFld
    Fld.SAF_CAUSE_CLASS cls).setFld Fld.SAF_CAUSE_STATUS status).setFld Fld.SAF_CAUSE_DIAG diag).setBit Fld.SAF_CAUSE_VALID true).setFld
    Fld.FUM_STATUS_PINS d.safePins

theorem enterSafe_kept {d : Dev} (free : d.bit Fld.SAF_STATUS_SAFE = false) (cls status diag : Nat) :
    entryKept (d.entersSafe cls status diag) (d.enterSafe cls status diag) := by
  unfold Dev.enterSafe
  rw [if_neg (by simp [free])]
  extract_lets d1 d2 holds fum cyc net d3 d4 d5 d6 d7
  have withdrawn : entryKept d2 d3 := entryKept_units d2 _ _ _
  have published : entryKept d3 d4 := foldl_keeps entryKept_refl entryKept_trans entryKept_safePub _ d3
  have stopped : entryKept d4 d5 := entryKept_ite (entryKept_refl d4)
    (entryKept_setFld d4 3 (by decide) (by decide) (by decide) (by decide))
  have recorded : entryKept d5 d6 := entryKept_trans (entryKept_alarmSend d5 _) (entryKept_bumpRecSeq _)
  have told : entryKept d6 d7 := entryKept_trans (entryKept_event d6 .safeState cls _ _ status)
    (entryKept_trans (entryKept_abortProof _) (entryKept_refreshAlmok _))
  have all : entryKept d2 d7 := entryKept_trans withdrawn (entryKept_trans published (entryKept_trans stopped (entryKept_trans recorded told)))
  exact entryKept_ite all (entryKept_trans all (entryKept_dropSwitch d7))

end Sys2Proof.Machine
end

section
/-! The entry into the safe state and the errors of level 3 (R519, R521, R522). -/

namespace Sys2Proof.Machine

open Sys2Proof

/-! ## The registers that say the safe state -/

theorem entersSafe_only (d : Dev) (cls status diag : Nat) :
    only [.regs] (fun o => o ∈ [Reg.SAF_STATUS, Reg.FUM_STATUS, Reg.SAF_CAUSE]) d (d.entersSafe cls status diag) := by
  have step {x : Dev} {f : FieldAt} (v : Nat) (hf : f.off ∈ [Reg.SAF_STATUS, Reg.FUM_STATUS, Reg.SAF_CAUSE]) :
      only [.regs] (fun o => o ∈ [Reg.SAF_STATUS, Reg.FUM_STATUS, Reg.SAF_CAUSE]) x (x.setFld f v) :=
    only_mono (by simp) (by rintro _ rfl; exact hf) (setFld_only x f v)
  exact only_trans (step _ (by decide)) (only_trans (step _ (by decide)) (only_trans (step _ (by decide)) (only_trans (step _ (by decide))
    (only_trans (step _ (by decide)) (only_trans (step _ (by decide)) (only_trans (step _ (by decide)) (step _ (by decide))))))))

theorem entersSafe_safe (d : Dev) (cls status diag : Nat) : (d.entersSafe cls status diag).bit Fld.SAF_STATUS_SAFE = true := by
  have other {x : Dev} {f : FieldAt} (v : Nat) (h : f.lo + f.width ≤ 32) (hf : Fld.SAF_STATUS_SAFE.off ≠ f.off) :
      (x.setFld f v).bit Fld.SAF_STATUS_SAFE = x.bit Fld.SAF_STATUS_SAFE := bit_of_fld (Dev.fld_setFld_other x f _ v h (.inl hf))
  unfold Dev.entersSafe Dev.setBit
  rw [other _ (by decide) (by decide), other _ (by decide) (by decide), other _ (by decide) (by decide), other _ (by decide) (by decide),
    other _ (by decide) (by decide), other _ (by decide) (by decide), other _ (by decide) (by decide)]
  exact Dev.bit_setBit_same d _ true (by decide) (by decide)

theorem entersSafe_cause (d : Dev) (cls status diag : Nat) : (d.entersSafe cls status diag).fld Fld.SAF_CAUSE_CLASS = cls % 2 ^ 8
    ∧ (d.entersSafe cls status diag).fld Fld.SAF_CAUSE_DIAG = diag % 2 ^ 8
    ∧ (d.entersSafe cls status diag).fld Fld.FUM_STATUS_PINS = d.safePins % 2 ^ 8 := by
  unfold Dev.entersSafe Dev.setBit
  refine ⟨?_, ?_, Dev.fld_setFld_same _ _ _ (by decide)⟩
  · rw [Dev.fld_setFld_other _ _ _ _ (by decide) (by decide), Dev.fld_setFld_other _ _ _ _ (by decide) (by decide),
      Dev.fld_setFld_other _ _ _ _ (by decide) (by decide), Dev.fld_setFld_other _ _ _ _ (by decide) (by decide),
      Dev.fld_setFld_same _ _ _ (by decide)]
    rfl
  · rw [Dev.fld_setFld_other _ _ _ _ (by decide) (by decide), Dev.fld_setFld_other _ _ _ _ (by decide) (by decide),
      Dev.fld_setFld_same _ _ _ (by decide)]
    rfl

/-! ## The entry -/

/-- The registers that the entry moves, with those that say its cause. -/
def entryOrCauseReg (o : Nat) : Prop := entryReg o ∨ o = Reg.SAF_CAUSE

/-- A device that has entered the safe state is in it, and its clocks are what they were. -/
theorem enterSafe_effect (d : Dev) (cls status diag : Nat) :
    only entryParts entryOrCauseReg d (d.enterSafe cls status diag) ∧ (d.enterSafe cls status diag).bit Fld.SAF_STATUS_SAFE = true := by
  cases free : d.bit Fld.SAF_STATUS_SAFE with
  | true =>
    have stays : d.enterSafe cls status diag = d := if_pos free
    rw [stays]
    exact ⟨only_refl _ _ _, free⟩
  | false =>
    have kept := enterSafe_kept free cls status diag
    refine ⟨only_trans (only_mono (by simp) ?_ (entersSafe_only d cls status diag)) (only_mono (fun _ h => h) (fun _ => .inl) kept.frame),
      kept.safe.trans (entersSafe_safe d cls status diag)⟩
    intro o ho
    simp only [List.mem_cons, List.not_mem_nil, or_false] at ho
    rcases ho with h | h | h
    · exact .inl (.inr (.inr (.inr (.inr (by simp [h])))))
    · exact .inl (.inr (.inr (.inr (.inr (by simp [h])))))
    · exact .inr h

theorem entryOrCauseReg_range {o : Nat} (h : entryOrCauseReg o) :
    o % 32 = 20 ∨ o % 32 = 24 ∨ (0x020010 ≤ o ∧ o ≤ 0x031004) ∨ (0x150024 ≤ o ∧ o ≤ 0x150030)
      ∨ o ∈ [Reg.FUM_RING_LOST, Reg.SAF_STATUS, Reg.FUM_STATUS, Reg.CYC_STATUS, Reg.SAF_CAUSE] := by
  rcases h with (ring | event | lost | (drop | ⟨k, hk, lost⟩) | status) | cause
  · simp only [anyRingReg, Reg.HIF_RINGn_DONE, Reg.HIF_RINGn_STAT] at ring
    rcases ring with ⟨n, h | h⟩ | h | h <;> omega
  · have range := eventReg_range event
    omega
  · simp [lost]
  · exact .inl (by rw [drop]; rfl)
  · refine .inl ?_
    rw [lost]
    simp only [Reg.NET_Pp_TX_Q_LOST]
    omega
  · refine .inr (.inr (.inr (.inr ?_)))
    simp only [List.mem_cons, List.not_mem_nil, or_false] at status ⊢
    tauto
  · simp [cause]

/-! ## Errors of level 3 -/

/-- The registers that an error of level 3 moves. -/
def fatalReg (o : Nat) : Prop := entryOrCauseReg o ∨ o = Reg.SAF_ERRORS ∨ o = Reg.SAF_OVERFLOWS

/-- The queue with an error in front of the entry. -/
theorem refreshSaf_entry (d : Dev) : only entryParts entryOrCauseReg d d.refreshSaf := by
  refine only_mono (by simp) ?_ (refreshSaf_only d)
  intro o ho
  simp only [List.mem_cons, List.not_mem_nil, or_false] at ho
  rcases ho with h | h <;> exact .inl (.inr (.inr (.inr (.inr (by simp [h])))))

section Fatal

variable {d : Dev} {cls : Nat} (hlevel : initialLevel cls = 3) (hnone : d.saf.queue.all (fun e => decide (e.cls ≠ cls)) = true)

include hlevel hnone

/-- An error of a class of level 3 that is not in the queue joins it where there is room, and the safe state is entered. -/
theorem raise_fatal (hroom : d.saf.queue.length < 16) (index diag status : Nat) : ∃ saf : SafSt,
    d.raise cls index diag status = ({ d.count Reg.SAF_ERRORS with saf := saf }).refreshSaf.enterSafe cls status diag := by
  have room : ¬ 16 ≤ (d.count Reg.SAF_ERRORS).saf.queue.length := Nat.not_le.mpr hroom
  have unraised : (d.count Reg.SAF_ERRORS).saf.queue.foldl (fun m e => if e.cls = cls then max m e.level else m) 0 = 0 :=
    foldl_level_of_none hnone
  unfold Dev.raise Dev.raiseAt
  simp only [unraised, if_neg room, if_true, hlevel]
  exact ⟨_, rfl⟩

theorem raise_fatal_effect (index diag status : Nat) : only entryParts fatalReg d (d.raise cls index diag status)
    ∧ (d.raise cls index diag status).bit Fld.SAF_STATUS_SAFE = true
    ∧ (d.raise cls index diag status).regN Reg.SAF_ERRORS = (d.regN Reg.SAF_ERRORS + 1) % 2 ^ 32 := by
  have apart : ¬ entryOrCauseReg Reg.SAF_ERRORS := fun h => absurd (entryOrCauseReg_range h) (by decide)
  have counted : only entryParts fatalReg d (d.count Reg.SAF_ERRORS) :=
    only_mono (by simp) (by rintro _ rfl; exact .inr (.inl rfl)) (count_only d _ _)
  have shown : (d.count Reg.SAF_ERRORS).regN Reg.SAF_ERRORS = (d.regN Reg.SAF_ERRORS + 1) % 2 ^ 32 := by rw [regN_count, if_pos rfl]
  by_cases hroom : d.saf.queue.length < 16
  · obtain ⟨saf, raised⟩ := raise_fatal hlevel hnone hroom index diag status
    rw [raised]
    obtain ⟨frame, safe⟩ := enterSafe_effect ({ d.count Reg.SAF_ERRORS with saf := saf }).refreshSaf cls status diag
    have queued : only entryParts entryOrCauseReg (d.count Reg.SAF_ERRORS) ({ d.count Reg.SAF_ERRORS with saf := saf }) :=
      only_of_kept (by simp [keptBut]) rfl
    have entered := only_trans queued (only_trans (refreshSaf_entry _) frame)
    exact ⟨only_trans counted (only_mono (fun _ h => h) (fun _ => .inl) entered), safe, (only_regN entered apart).trans shown⟩
  · have full : 16 ≤ (d.count Reg.SAF_ERRORS).saf.queue.length := Nat.not_lt.mp hroom
    have raised : d.raise cls index diag status
        = (((d.count Reg.SAF_ERRORS).count Reg.SAF_OVERFLOWS).event .errorOverflow noIndex cls index).enterSafe eOverflow status 0xFF := by
      unfold Dev.raise Dev.raiseAt
      exact if_pos full
    rw [raised]
    have overflowed : only entryParts (fun o => o = Reg.SAF_OVERFLOWS) (d.count Reg.SAF_ERRORS) ((d.count Reg.SAF_ERRORS).count Reg.SAF_OVERFLOWS) :=
      only_wider (count_only _ _ _) (by simp)
    have told := event_only ((d.count Reg.SAF_ERRORS).count Reg.SAF_OVERFLOWS) .errorOverflow noIndex cls index sOk
    obtain ⟨frame, safe⟩ := enterSafe_effect
      (((d.count Reg.SAF_ERRORS).count Reg.SAF_OVERFLOWS).event .errorOverflow noIndex cls index) eOverflow status 0xFF
    refine ⟨only_trans counted (only_trans (only_mono (fun _ h => h) (fun _ h => .inr (.inr h)) overflowed)
      (only_trans (only_mono (by simp) (fun _ h => .inl (.inl (.inr (.inl h)))) told) (only_mono (fun _ h => h) (fun _ => .inl) frame))), safe, ?_⟩
    rw [only_regN frame apart, only_regN told (not_eventReg (by decide)), only_regN overflowed (by decide), shown]

end Fatal

end Sys2Proof.Machine
end

section
/-! The judgement of the crystals, the PLL and the loss of the root (R532 to R535). -/

namespace Sys2Proof.Machine

open Sys2Proof

/-! ## A judgement noted -/

theorem judgeGates_passed_ne {g : List Int} (h : judgeGates g = .passed) : g ≠ [] := by
  rintro rfl
  cases h

theorem judgeGates_judged (g : List Int) : judgeGates g ≠ .notJudged := by
  unfold judgeGates
  split
  · decide
  · split
    · decide
    · split <;> decide

theorem toTwos_lt (n : Nat) (v : Int) : toTwos n v < 2 ^ n := by
  have pos : (0 : Int) < ((2 ^ n : Nat) : Int) := by exact_mod_cast Nat.two_pow_pos n
  have lt := Int.emod_lt_of_pos v pos
  have nonneg := Int.emod_nonneg v (ne_of_gt pos)
  unfold toTwos
  omega

section Note

variable (d : Dev) (n : Nat) (g : List Int)

/-- The offset that the gates give. -/
def Dev.noteOffset : Dev := if g = [] then d else d.setRegN (Reg.CLK_XTALn n) (toTwos 16 (gateMean g))

theorem noteOffset_only : only [.regs] (fun o => o = Reg.CLK_XTALn n) d (d.noteOffset n g) := by
  unfold Dev.noteOffset
  split
  · exact only_refl _ _ _
  · exact only_setReg _ _ _

theorem xtalOkBit_off : (xtalOkBit n).off = Reg.CLK_STATUS := by
  unfold xtalOkBit
  split <;> rfl

theorem noteJudge_only : only [.regs, .clk] (fun o => o = Reg.CLK_STATUS ∨ o = Reg.CLK_XTALn n) d (d.noteJudge n g) := by
  have shown : only [.regs, .clk] (fun o => o = Reg.CLK_STATUS ∨ o = Reg.CLK_XTALn n) (d.noteOffset n g)
      ((d.noteOffset n g).setBit (xtalOkBit n) (decide (judgeGates g = .passed))) :=
    only_mono (by simp) (by rintro _ rfl; exact .inl (xtalOkBit_off n)) (setBit_only _ _ _)
  exact only_trans (only_mono (by simp) (fun _ => .inr) (noteOffset_only d n g)) (only_trans shown (only_wider (modClk_only _ _ _) (by simp)))

theorem noteJudge_clk : (d.noteJudge n g).clk = { d.clk with
    judge := modifyAt d.clk.judge n (fun _ => judgeGates g), judgedAt := modifyAt d.clk.judgedAt n (fun _ => d.up) } := by
  have kept : ((d.noteOffset n g).setBit (xtalOkBit n) (decide (judgeGates g = .passed))).clk = d.clk :=
    only_clk (only_trans (only_mono (fun _ h => h) (fun _ _ => trivial) (noteOffset_only d n g)) (only_mono (q := fun _ => True) (fun _ h => h)
      (fun _ _ => trivial) (setBit_only _ _ _))) (by simp)
  exact congrArg (fun c : ClkSt => { c with
    judge := modifyAt c.judge n (fun _ => judgeGates g), judgedAt := modifyAt c.judgedAt n (fun _ => d.up) }) kept

theorem judgeOf_of_clk {x y : Dev} (h : x.clk = y.clk) (m : Nat) : x.judgeOf m = y.judgeOf m := by rw [Dev.judgeOf, h, Dev.judgeOf]

theorem judgeOf_noteJudge_same {d : Dev} {n : Nat} (hn : n < d.clk.judge.length) : (d.noteJudge n g).judgeOf n = judgeGates g := by
  rw [Dev.judgeOf, noteJudge_clk, getElem?_modifyAt_same, List.getElem?_eq_getElem hn]
  rfl

theorem judgeOf_noteJudge_other {m : Nat} (hm : m ≠ n) : (d.noteJudge n g).judgeOf m = d.judgeOf m := by
  rw [Dev.judgeOf, noteJudge_clk, getElem?_modifyAt_other _ _ hm, Dev.judgeOf]

/-- A field of CLK_STATUS beside the judgement's own bit. -/
theorem fld_noteJudge {f : FieldAt} (hf : f.off = Reg.CLK_STATUS)
    (apart : f.lo + f.width ≤ (xtalOkBit n).lo ∨ (xtalOkBit n).lo + (xtalOkBit n).width ≤ f.lo) : (d.noteJudge n g).fld f = d.fld f := by
  have other : f.off ≠ Reg.CLK_XTALn n := by
    rw [hf]
    simp only [Reg.CLK_STATUS, Reg.CLK_XTALn]
    omega
  have fits : (xtalOkBit n).lo + (xtalOkBit n).width ≤ 32 := by
    unfold xtalOkBit
    split <;> decide
  exact (Dev.fld_setFld_other (d.noteOffset n g) (xtalOkBit n) f _ fits (.inr apart)).trans (only_fld (noteOffset_only d n g) other)

/-- The fields beside the judgements' bits. -/
theorem noteJudge_status : (d.noteJudge n g).fld Fld.CLK_STATUS_ROOT = d.fld Fld.CLK_STATUS_ROOT
    ∧ (d.noteJudge n g).bit Fld.CLK_STATUS_PLL_LOCK = d.bit Fld.CLK_STATUS_PLL_LOCK
    ∧ (d.noteJudge n g).bit Fld.CLK_STATUS_RESCUE = d.bit Fld.CLK_STATUS_RESCUE := by
  have beside {f : FieldAt} (h : f.lo + f.width ≤ 1 ∨ 3 ≤ f.lo) :
      f.lo + f.width ≤ (xtalOkBit n).lo ∨ (xtalOkBit n).lo + (xtalOkBit n).width ≤ f.lo := by
    unfold xtalOkBit
    split <;> simp only [Fld.CLK_STATUS_XTAL0_OK, Fld.CLK_STATUS_XTAL1_OK] <;> omega
  exact ⟨fld_noteJudge d n g rfl (beside (by decide)), bit_of_fld (fld_noteJudge d n g rfl (beside (by decide))),
    bit_of_fld (fld_noteJudge d n g rfl (beside (by decide)))⟩

theorem noteJudge_ok : (d.noteJudge n g).bit (xtalOkBit n) = decide (judgeGates g = .passed) := by
  have fits : (xtalOkBit n).lo + (xtalOkBit n).width ≤ 32 ∧ 0 < (xtalOkBit n).width := by
    unfold xtalOkBit
    split <;> decide
  exact Dev.bit_setBit_same (d.noteOffset n g) (xtalOkBit n) _ fits.1 fits.2

theorem noteJudge_offset (h : g ≠ []) : (d.noteJudge n g).regN (Reg.CLK_XTALn n) = toTwos 16 (gateMean g) := by
  have other : Reg.CLK_XTALn n ≠ (xtalOkBit n).off := by
    rw [xtalOkBit_off]
    simp only [Reg.CLK_STATUS, Reg.CLK_XTALn]
    omega
  have lt := toTwos_lt 16 (gateMean g)
  have kept : (d.noteJudge n g).reg (Reg.CLK_XTALn n) = (d.noteOffset n g).reg (Reg.CLK_XTALn n) := (setBit_only _ _ _).2 _ other
  rw [Dev.regN, kept, Dev.noteOffset, if_neg h, Dev.setRegN, reg_setReg_same, BitVec.toNat_ofNat]
  exact Nat.mod_eq_of_lt (by omega)

end Note

/-! ## A judgement announced -/

theorem announceJudge_passed {d : Dev} {n : Nat} (h : d.judgeOf n = .passed) : d.announceJudge n = d := by
  unfold Dev.announceJudge
  rw [h]

theorem announceJudge_only (d : Dev) (n : Nat) : only [.regs, .hif, .snt] eventReg d (d.announceJudge n) := by
  unfold Dev.announceJudge
  split
  · exact only_refl _ _ _
  · exact only_refl _ _ _
  · exact only_ite (event_only _ _ _ _ _ _) (only_refl _ _ _)
  · exact event_only _ _ _ _ _ _

/-! ## XTAL_JUDGED -/

section Judged

variable {d : Dev} {n : Nat} {g : List Int} (first : d.judgeOf n = .notJudged ∧ d.clk.held = false ∧ d.bit Fld.CLK_STATUS_RESCUE = false)
  (inTurn : (if n = 0 then !d.bit Fld.CLK_STATUS_PLL_LOCK
    else decide (n = 1) && (d.bit Fld.CLK_STATUS_PLL_LOCK || decide (d.judgeOf 0 ≠ .notJudged ∧ d.judgeOf 0 ≠ .passed))) = true)

include first inTurn

/-- A first judgement in its turn. -/
theorem xtalJudged_first (k : KeySt) : xtalJudged n g k d
    = if d.bit Fld.CLK_STATUS_PLL_LOCK then (k, (d.noteJudge n g).announceJudge n)
      else if judgeGates g = .passed then
        (k, ((((d.noteJudge n g).announceJudge n).setFld Fld.CLK_STATUS_ROOT n).setFld Fld.RST_STATUS_START_STEP 4))
      else if n = 0 then (k, ((d.noteJudge n g).announceJudge n).setFld Fld.RST_STATUS_START_STEP 3)
      else if ((d.noteJudge n g).announceJudge n).rescueDue then enterRescue k ((d.noteJudge n g).announceJudge n)
      else (k, (d.noteJudge n g).announceJudge n) := by
  obtain ⟨unjudged, unheld, running⟩ := first
  unfold xtalJudged
  simp only [unjudged, unheld, running, inTurn]
  rfl

theorem xtalJudged_passes (k : KeySt) (hn : n < d.clk.judge.length) (unlocked : d.bit Fld.CLK_STATUS_PLL_LOCK = false)
    (passed : judgeGates g = .passed) :
    xtalJudged n g k d = (k, ((d.noteJudge n g).setFld Fld.CLK_STATUS_ROOT n).setFld Fld.RST_STATUS_START_STEP 4) := by
  have quiet := announceJudge_passed ((judgeOf_noteJudge_same g hn).trans passed)
  rw [xtalJudged_first first inTurn, if_neg (by simp [unlocked]), if_pos passed, quiet]

end Judged

/-- What an input that passes at start-up leaves. -/
theorem rootTaken_effect (d : Dev) {n : Nat} (hn : n < 2) (g : List Int) {t : Dev}
    (ht : t = ((d.noteJudge n g).setFld Fld.CLK_STATUS_ROOT n).setFld Fld.RST_STATUS_START_STEP 4) :
    only [.regs, .clk] (fun o => o ∈ [Reg.CLK_STATUS, Reg.CLK_XTALn n, Reg.RST_STATUS]) d t ∧ t.fld Fld.CLK_STATUS_ROOT = n
      ∧ t.bit (xtalOkBit n) = decide (judgeGates g = .passed) ∧ t.fld Fld.RST_STATUS_START_STEP = 4 ∧ t.clk = (d.noteJudge n g).clk
      ∧ t.regN (Reg.CLK_XTALn n) = (d.noteJudge n g).regN (Reg.CLK_XTALn n) := by
  subst ht
  have rooted := setFld_only (d.noteJudge n g) Fld.CLK_STATUS_ROOT n
  have stepped := setFld_only ((d.noteJudge n g).setFld Fld.CLK_STATUS_ROOT n) Fld.RST_STATUS_START_STEP 4
  have okOff : (xtalOkBit n).off ≠ Fld.RST_STATUS_START_STEP.off := by rw [xtalOkBit_off]; decide
  have okBeside : Fld.CLK_STATUS_ROOT.lo + Fld.CLK_STATUS_ROOT.width ≤ (xtalOkBit n).lo := by
    unfold xtalOkBit
    split <;> decide
  have offset : Reg.CLK_XTALn n ≠ Reg.CLK_STATUS ∧ Reg.CLK_XTALn n ≠ Reg.RST_STATUS := by
    simp only [Reg.CLK_XTALn, Reg.CLK_STATUS, Reg.RST_STATUS]
    omega
  refine ⟨only_trans (only_mono (fun _ h => h) ?_ (noteJudge_only d n g)) (only_trans (only_mono (by simp) ?_ rooted) (only_mono (by simp) ?_ stepped)),
    ?_, ?_, Dev.fld_setFld_same _ _ _ (by decide), rfl, ?_⟩
  · rintro o (rfl | rfl) <;> simp
  · rintro o rfl
    exact List.mem_cons_self
  · rintro o rfl
    exact List.mem_cons_of_mem _ (List.mem_cons_of_mem _ List.mem_cons_self)
  · rw [only_fld stepped (by decide), Dev.fld_setFld_same _ _ _ (by decide)]
    exact Nat.mod_eq_of_lt hn
  · rw [only_bit stepped okOff, bit_of_fld (Dev.fld_setFld_other _ _ _ _ (by decide) (.inr (.inr okBeside))), noteJudge_ok]
  · rw [only_regN stepped offset.2, only_regN rooted offset.1]

end Sys2Proof.Machine
end

section
/-! The PLL, the loss of the root, DDR5 and CMD_READY (R534, R535, R541, R543). -/

namespace Sys2Proof.Machine

open Sys2Proof

/-! ## START_STEP -/

theorem showStep_only (d : Dev) : only [.regs] (fun o => o = Reg.RST_STATUS) d d.showStep := setFld_only _ Fld.RST_STATUS_START_STEP _

theorem showStep_step (d : Dev) : d.showStep.fld Fld.RST_STATUS_START_STEP = (if !d.clk.discovered then 5 else if !d.clk.keyStarted then 6
    else if !d.clk.imageLoaded then 8 else if !d.bit Fld.SNT_STATUS_RUNNING then 10 else 11) := by
  unfold Dev.showStep
  rw [Dev.fld_setFld_same _ _ _ (by decide)]
  apply Nat.mod_eq_of_lt
  split_ifs <;> decide

/-- A field of RST_STATUS beside START_STEP. -/
theorem showStep_other (d : Dev) {f : FieldAt} (h : f.lo + f.width ≤ 8 ∨ 12 ≤ f.lo) : d.showStep.fld f = d.fld f :=
  Dev.fld_setFld_other d Fld.RST_STATUS_START_STEP f _ (by decide) (.inr (h.imp_right id))

/-! ## PLL_LOCK -/

section Lock

variable {d : Dev}

theorem pllLock_starts (free : d.clk.vcoHold = false) (unlocked : d.bit Fld.CLK_STATUS_PLL_LOCK = false)
    (passed : d.judgeOf (d.fld Fld.CLK_STATUS_ROOT) = .passed) (step : d.fld Fld.RST_STATUS_START_STEP = 4) :
    d.pllLock = (d.setBit Fld.CLK_STATUS_PLL_LOCK true).showStep := by
  simp [Dev.pllLock, free, unlocked, passed, step]

theorem pllLock_starts_effect (new : d.clk.discovered = false) :
    only [.regs] (fun o => o ∈ [Reg.CLK_STATUS, Reg.RST_STATUS]) d (d.setBit Fld.CLK_STATUS_PLL_LOCK true).showStep
      ∧ (d.setBit Fld.CLK_STATUS_PLL_LOCK true).showStep.bit Fld.CLK_STATUS_PLL_LOCK = true
      ∧ (d.setBit Fld.CLK_STATUS_PLL_LOCK true).showStep.fld Fld.RST_STATUS_START_STEP = 5
      ∧ (d.setBit Fld.CLK_STATUS_PLL_LOCK true).showStep.fld Fld.CLK_STATUS_ROOT = d.fld Fld.CLK_STATUS_ROOT := by
  have stepped := showStep_only (d.setBit Fld.CLK_STATUS_PLL_LOCK true)
  have undiscovered : (d.setBit Fld.CLK_STATUS_PLL_LOCK true).clk.discovered = false := new
  refine ⟨only_trans (only_mono (by simp) ?_ (setBit_only d Fld.CLK_STATUS_PLL_LOCK true)) (only_mono (by simp) ?_ stepped), ?_, ?_, ?_⟩
  · rintro o rfl
    exact List.mem_cons_self
  · rintro o rfl
    exact List.mem_cons_of_mem _ List.mem_cons_self
  · rw [only_bit stepped (by decide), Dev.bit_setBit_same _ _ _ (by decide) (by decide)]
  · rw [showStep_step, undiscovered]
    rfl
  · rw [only_fld stepped (by decide)]
    exact Dev.fld_setFld_other _ _ _ _ (by decide) (by decide)

theorem pllLock_standby (held : d.clk.vcoHold = true) (passed : d.judgeOf (1 - d.fld Fld.CLK_STATUS_ROOT) = .passed) : d.pllLock
    = ((d.setFld Fld.CLK_STATUS_ROOT (1 - d.fld Fld.CLK_STATUS_ROOT)).setBit Fld.CLK_STATUS_PLL_LOCK true).modClk
        (fun c => { c with vcoHold := false }) := by
  simp [Dev.pllLock, held, passed]

theorem pllLock_standby_effect (held : d.clk.vcoHold = true) (passed : d.judgeOf (1 - d.fld Fld.CLK_STATUS_ROOT) = .passed) :
    only [.regs, .clk] (fun o => o ∈ [Reg.CLK_STATUS]) d d.pllLock
      ∧ d.pllLock.fld Fld.CLK_STATUS_ROOT = 1 - d.fld Fld.CLK_STATUS_ROOT ∧ d.pllLock.bit Fld.CLK_STATUS_PLL_LOCK = true
      ∧ d.pllLock.clk.vcoHold = false := by
  rw [pllLock_standby held passed]
  generalize hr : 1 - d.fld Fld.CLK_STATUS_ROOT = root
  have lt : root < 2 := by omega
  have status {x : Dev} {f : FieldAt} (v : Nat) (hf : f.off = Reg.CLK_STATUS) : only [.regs, .clk] (fun o => o ∈ [Reg.CLK_STATUS]) x (x.setFld f v) :=
    only_mono (by simp) (by rintro _ rfl; exact List.mem_singleton.mpr hf) (setFld_only x f v)
  refine ⟨only_trans (status root rfl) (only_trans (status _ rfl) (only_wider (modClk_only _ _ _) (by simp))), ?_,
    Dev.bit_setBit_same (d.setFld Fld.CLK_STATUS_ROOT root) _ _ (by decide) (by decide), rfl⟩
  have beside : ((d.setFld Fld.CLK_STATUS_ROOT root).setBit Fld.CLK_STATUS_PLL_LOCK true).fld Fld.CLK_STATUS_ROOT = root := by
    unfold Dev.setBit
    rw [Dev.fld_setFld_other _ _ _ _ (by decide) (by decide), Dev.fld_setFld_same _ _ _ (by decide)]
    exact Nat.mod_eq_of_lt lt
  exact beside

end Lock

/-! ## The root fails in service -/

/-- The error of a lost clock, where the VCO holds without lock. -/
theorem raise_clock_effect {x : Dev} (held : x.clk.vcoHold = true) (unlocked : x.bit Fld.CLK_STATUS_PLL_LOCK = false)
    (hnone : x.saf.queue.all (fun e => decide (e.cls ≠ eClock)) = true) (index : Nat) :
    (x.raise eClock index 7).bit Fld.SAF_STATUS_SAFE = true ∧ (x.raise eClock index 7).clk.vcoHold = true
      ∧ (x.raise eClock index 7).bit Fld.CLK_STATUS_PLL_LOCK = false
      ∧ (x.raise eClock index 7).regN Reg.SAF_ERRORS = (x.regN Reg.SAF_ERRORS + 1) % 2 ^ 32 := by
  have level : initialLevel eClock = 3 := by decide
  have apart : ¬ fatalReg Reg.CLK_STATUS := by
    rintro (h | h | h)
    · exact absurd (entryOrCauseReg_range h) (by decide)
    · exact absurd h (by decide)
    · exact absurd h (by decide)
  obtain ⟨frame, safe, counted⟩ := raise_fatal_effect level hnone index 7 sOk
  exact ⟨safe, (congrArg ClkSt.vcoHold (only_clk frame (by simp))).trans held, (only_bit frame apart).trans unlocked, counted⟩

/-- The device whose root has failed is announced, and without lock. -/
def Dev.rootUnlocked (d : Dev) (arg : Nat) : Dev :=
  ((d.judgedBad (d.fld Fld.CLK_STATUS_ROOT) arg).setBit (xtalOkBit (d.fld Fld.CLK_STATUS_ROOT)) false).setBit Fld.CLK_STATUS_PLL_LOCK false

theorem rootFails_eq {d : Dev} (free : d.clk.vcoHold = false) (locked : d.bit Fld.CLK_STATUS_PLL_LOCK = true) (arg : Nat) : d.rootFails arg
    = ((d.rootUnlocked arg).draw.2.modClk (fun c => { c with vcoHold := true })).raise eClock ((d.rootUnlocked arg).draw.1 % 65536) 7 :=
  if_neg (by simp [free, locked])

theorem rootUnlocked_effect (d : Dev) (arg : Nat) : (d.rootUnlocked arg).bit Fld.CLK_STATUS_PLL_LOCK = false
    ∧ (d.rootUnlocked arg).saf = d.saf ∧ (d.rootUnlocked arg).regN Reg.SAF_ERRORS = d.regN Reg.SAF_ERRORS := by
  unfold Dev.rootUnlocked
  generalize d.fld Fld.CLK_STATUS_ROOT = root
  have told : only [.regs, .hif, .snt] eventReg d (d.judgedBad root arg) := event_only d .clockJudgedBad root (d.xtalArg root) arg sOk
  generalize d.judgedBad root arg = x at told
  have marked : only [.regs] (fun o => o = Reg.CLK_STATUS) x ((x.setBit (xtalOkBit root) false).setBit Fld.CLK_STATUS_PLL_LOCK false) :=
    only_trans (only_mono (fun _ h => h) (by rintro _ rfl; exact xtalOkBit_off root) (setBit_only _ (xtalOkBit root) false)) (setBit_only _ _ _)
  exact ⟨Dev.bit_setBit_same _ _ _ (by decide) (by decide), (only_saf marked (by simp)).trans (only_saf told (by simp)),
    (only_regN marked (by decide)).trans (only_regN told (not_eventReg (by decide)))⟩

/-- The same, as the VCO of an unlocked device is held. -/
theorem raise_clock_held {x : Dev} (unlocked : x.bit Fld.CLK_STATUS_PLL_LOCK = false)
    (hnone : x.saf.queue.all (fun e => decide (e.cls ≠ eClock)) = true) (index : Nat) :
    ((x.draw.2.modClk (fun c => { c with vcoHold := true })).raise eClock index 7).bit Fld.SAF_STATUS_SAFE = true
      ∧ ((x.draw.2.modClk (fun c => { c with vcoHold := true })).raise eClock index 7).clk.vcoHold = true
      ∧ ((x.draw.2.modClk (fun c => { c with vcoHold := true })).raise eClock index 7).bit Fld.CLK_STATUS_PLL_LOCK = false
      ∧ ((x.draw.2.modClk (fun c => { c with vcoHold := true })).raise eClock index 7).regN Reg.SAF_ERRORS
        = (x.regN Reg.SAF_ERRORS + 1) % 2 ^ 32 := by
  generalize hy : x.draw.2.modClk (fun c => { c with vcoHold := true }) = y
  have held : y.clk.vcoHold = true := by rw [← hy]; rfl
  have regs : y.regs = x.regs := by rw [← hy]; rfl
  have saf : y.saf = x.saf := by rw [← hy]; rfl
  have errors : y.regN Reg.SAF_ERRORS = x.regN Reg.SAF_ERRORS := by rw [Dev.regN, Dev.reg, regs, Dev.regN, Dev.reg]
  have unlocked' : y.bit Fld.CLK_STATUS_PLL_LOCK = false := by
    rw [← unlocked, Dev.bit, Dev.fld, Dev.reg, regs, Dev.bit, Dev.fld, Dev.reg]
  rw [← errors]
  exact raise_clock_effect held unlocked' (by rw [saf]; exact hnone) index

theorem rootFails_effect {d : Dev} (free : d.clk.vcoHold = false) (locked : d.bit Fld.CLK_STATUS_PLL_LOCK = true)
    (hnone : d.saf.queue.all (fun e => decide (e.cls ≠ eClock)) = true) (arg : Nat) : (d.rootFails arg).bit Fld.SAF_STATUS_SAFE = true
      ∧ (d.rootFails arg).clk.vcoHold = true ∧ (d.rootFails arg).bit Fld.CLK_STATUS_PLL_LOCK = false
      ∧ (d.rootFails arg).regN Reg.SAF_ERRORS = (d.regN Reg.SAF_ERRORS + 1) % 2 ^ 32 := by
  obtain ⟨unlocked, saf, errors⟩ := rootUnlocked_effect d arg
  rw [rootFails_eq free locked arg, ← errors]
  generalize d.rootUnlocked arg = x at unlocked saf
  exact raise_clock_held unlocked (by rw [saf]; exact hnone) _

theorem rootLost_effect {d : Dev} (free : d.clk.vcoHold = false) (locked : d.bit Fld.CLK_STATUS_PLL_LOCK = true)
    (hnone : d.saf.queue.all (fun e => decide (e.cls ≠ eClock)) = true) : d.rootLost.bit Fld.SAF_STATUS_SAFE = true
      ∧ d.rootLost.clk.vcoHold = true ∧ d.rootLost.bit Fld.CLK_STATUS_PLL_LOCK = false
      ∧ d.rootLost.regN Reg.SAF_ERRORS = (d.regN Reg.SAF_ERRORS + 1) % 2 ^ 32 := by
  have fails (f : ClkSt → ClkSt) (held : (f d.clk).vcoHold = false) := rootFails_effect (d := d.modClk f) held locked hnone 3
  exact fails _ free

/-- Without lock there is no root to lose. -/
theorem rootLost_unlocked {d : Dev} (unlocked : d.bit Fld.CLK_STATUS_PLL_LOCK = false) : d.rootLost = d := by
  have fails (x : Dev) (h : x.bit Fld.CLK_STATUS_PLL_LOCK = false) : x.rootFails 3 = x := if_pos (by simp [h])
  unfold Dev.rootLost
  rw [fails (d.modClk _) unlocked, unlocked]
  rfl

section Rejudge

variable {d : Dev} {n : Nat} {g : List Int} (service : d.bit Fld.CLK_STATUS_PLL_LOCK = true ∧ d.clk.vcoHold = false
    ∧ n = d.fld Fld.CLK_STATUS_ROOT ∧ d.judgeOf n ≠ .notJudged) (due : (d.clk.judgedAt[n]?).getD 0 + 60000000000 ≤ d.up)

include service due

/-- A judgement of the root that is due. -/
theorem rejudge_root : d.rejudge n g
    = if judgeGates g = .passed then d.noteJudge n g else (d.noteJudge n g).rootFails (judgeArg (judgeGates g)) := by
  obtain ⟨locked, free, root, judged⟩ := service
  have lt : n < 2 := by
    rw [root]
    exact fld_lt d Fld.CLK_STATUS_ROOT
  unfold Dev.rejudge
  simp [locked, free, ← root, lt, judged, due]

theorem rejudge_passes (lengths : d.clk.judgedAt.length = 2 ∧ d.clk.judge.length = 2) (passed : judgeGates g = .passed) :
    only [.regs, .clk] (fun o => o = Reg.CLK_STATUS ∨ o = Reg.CLK_XTALn n) d (d.rejudge n g)
      ∧ (d.rejudge n g).regN (Reg.CLK_XTALn n) = toTwos 16 (gateMean g) ∧ (d.rejudge n g).clk.judgedAt[n]? = some d.up
      ∧ (d.rejudge n g).judgeOf n = .passed := by
  have noted := rejudge_root service due (g := g)
  obtain ⟨-, -, root, -⟩ := service
  have lt : n < 2 := by
    rw [root]
    exact fld_lt d Fld.CLK_STATUS_ROOT
  rw [noted, if_pos passed]
  refine ⟨noteJudge_only d n g, noteJudge_offset d n g (judgeGates_passed_ne passed), ?_, ?_⟩
  · rw [noteJudge_clk, getElem?_modifyAt_same, List.getElem?_eq_getElem (by omega)]
    rfl
  · rw [judgeOf_noteJudge_same g (by omega), passed]

theorem rejudge_fails (failed : judgeGates g ≠ .passed) (hnone : d.saf.queue.all (fun e => decide (e.cls ≠ eClock)) = true) :
    (d.rejudge n g).bit Fld.SAF_STATUS_SAFE = true ∧ (d.rejudge n g).clk.vcoHold = true
      ∧ (d.rejudge n g).bit Fld.CLK_STATUS_PLL_LOCK = false := by
  have noted := rejudge_root service due (g := g)
  obtain ⟨locked, free, -, -⟩ := service
  obtain ⟨-, lock, -⟩ := noteJudge_status d n g
  have free' : (d.noteJudge n g).clk.vcoHold = false := by rw [noteJudge_clk]; exact free
  have hnone' : (d.noteJudge n g).saf.queue.all (fun e => decide (e.cls ≠ eClock)) = true := by
    rw [only_saf (noteJudge_only d n g) (by simp)]
    exact hnone
  obtain ⟨safe, held, unlocked, -⟩ := rootFails_effect free' (lock.trans locked) hnone' (judgeArg (judgeGates g))
  rw [noted, if_neg failed]
  exact ⟨safe, held, unlocked⟩

end Rejudge

/-! ## DDR5 -/

section Ddr

variable {d : Dev} {gib : Nat} (hgib : gib < 64)

/-- The three fields that DDR_READY shows. -/
def Dev.ddrShown (d : Dev) (gib : Nat) (kept : Bool) : Dev :=
  ((d.setFld Fld.RST_STATUS_DDR_GIB gib).setBit Fld.RST_STATUS_DDR_KEPT kept).setBit Fld.RST_STATUS_DDR_READY true

theorem ddrReady_eq (ready : d.bit Fld.CLK_STATUS_PLL_LOCK = true ∧ d.bit Fld.RST_STATUS_DDR_READY = false ∧ d.bit Fld.CLK_STATUS_RESCUE = false)
    (hgib : gib < 64) (trained : Bool) : d.ddrReady gib trained
    = (if trained && decide (d.fld Fld.RST_STATUS_LAST_KIND = 2) then d
        else d.modCrt (fun c => { c with snaps := [], amends := [], amendLost := [], overRuns := [] })).ddrShown gib
          (trained && decide (d.fld Fld.RST_STATUS_LAST_KIND = 2)) := by
  obtain ⟨locked, untrained, running⟩ := ready
  have due : (d.bit Fld.CLK_STATUS_PLL_LOCK && !d.bit Fld.RST_STATUS_DDR_READY && !d.bit Fld.CLK_STATUS_RESCUE && decide (gib < 64)) = true := by
    simp [locked, untrained, running, hgib]
  exact if_pos due

theorem ddrShown_only (d : Dev) (gib : Nat) (kept : Bool) : only [.regs] (fun o => o ∈ [Reg.RST_STATUS]) d (d.ddrShown gib kept) := by
  have status {x : Dev} {f : FieldAt} (v : Nat) (hf : f.off = Reg.RST_STATUS) : only [.regs] (fun o => o ∈ [Reg.RST_STATUS]) x (x.setFld f v) :=
    only_mono (by simp) (by rintro _ rfl; exact List.mem_singleton.mpr hf) (setFld_only x f v)
  exact only_trans (status _ rfl) (only_trans (status _ rfl) (status _ rfl))

include hgib in
theorem ddrShown_shows (d : Dev) (kept : Bool) : (d.ddrShown gib kept).bit Fld.RST_STATUS_DDR_READY = true
    ∧ (d.ddrShown gib kept).bit Fld.RST_STATUS_DDR_KEPT = kept ∧ (d.ddrShown gib kept).fld Fld.RST_STATUS_DDR_GIB = gib := by
  unfold Dev.ddrShown
  refine ⟨Dev.bit_setBit_same _ _ _ (by decide) (by decide), ?_, ?_⟩
  · rw [bit_setBit_other true (by decide) (by decide), Dev.bit_setBit_same _ _ _ (by decide) (by decide)]
  · unfold Dev.setBit
    rw [Dev.fld_setFld_other _ _ _ _ (by decide) (by decide), Dev.fld_setFld_other _ _ _ _ (by decide) (by decide),
      Dev.fld_setFld_same _ _ _ (by decide)]
    exact Nat.mod_eq_of_lt hgib

end Ddr

/-! ## CMD_READY -/

theorem cmdReady_effect {d : Dev} (done : d.clk.discovered = true ∧ d.clk.keyStarted = true ∧ d.clk.imageLoaded = true
    ∧ d.bit Fld.SNT_STATUS_RUNNING = true ∧ d.bit Fld.HIF_STATUS_CMD_READY = false ∧ d.bit Fld.CLK_STATUS_RESCUE = false) :
    only [.regs] (fun o => o ∈ [Reg.HIF_STATUS, Reg.RST_START_MS, Reg.RST_STATUS]) d d.cmdReady
      ∧ d.cmdReady.bit Fld.HIF_STATUS_CMD_READY = true
      ∧ d.cmdReady.regN Reg.RST_START_MS = sat 65535 ((d.up - d.tim.releasedAt) / 1000000)
      ∧ d.cmdReady.fld Fld.RST_STATUS_START_STEP = 11 := by
  obtain ⟨discovered, keys, image, recorder, unready, running⟩ := done
  generalize hms : sat 65535 ((d.up - d.tim.releasedAt) / 1000000) = ms
  have lt : ms < 2 ^ 32 := by
    rw [← hms, sat]
    omega
  have eq : d.cmdReady = ((d.setBit Fld.HIF_STATUS_CMD_READY true).setRegN Reg.RST_START_MS ms).showStep := by
    unfold Dev.cmdReady
    rw [if_pos (by simp [discovered, keys, image, recorder, unready, running]), hms]
  have ready := setBit_only d Fld.HIF_STATUS_CMD_READY true
  have timed := only_setReg (d.setBit Fld.HIF_STATUS_CMD_READY true) Reg.RST_START_MS (BitVec.ofNat 32 ms)
  have stepped := showStep_only ((d.setBit Fld.HIF_STATUS_CMD_READY true).setRegN Reg.RST_START_MS ms)
  rw [eq]
  refine ⟨only_trans (only_mono (by simp) ?_ ready) (only_trans (only_mono (by simp) ?_ timed) (only_mono (by simp) ?_ stepped)), ?_, ?_, ?_⟩
  · rintro o rfl
    exact List.mem_cons_self
  · rintro o rfl
    exact List.mem_cons_of_mem _ List.mem_cons_self
  · rintro o rfl
    exact List.mem_cons_of_mem _ (List.mem_cons_of_mem _ List.mem_cons_self)
  · rw [only_bit stepped (by decide), Dev.setRegN, only_bit timed (by decide), Dev.bit_setBit_same _ _ _ (by decide) (by decide)]
  · rw [only_regN stepped (by decide), Dev.setRegN, Dev.regN, reg_setReg_same, BitVec.toNat_ofNat, Nat.mod_eq_of_lt lt]
  · have recording : ((d.setBit Fld.HIF_STATUS_CMD_READY true).setRegN Reg.RST_START_MS ms).bit Fld.SNT_STATUS_RUNNING = true :=
      (only_bit timed (by decide)).trans ((only_bit ready (by decide)).trans recorder)
    have clk : ((d.setBit Fld.HIF_STATUS_CMD_READY true).setRegN Reg.RST_START_MS ms).clk = d.clk := rfl
    rw [showStep_step, recording, clk, discovered, keys, image]
    rfl

theorem cmdReady_waits {d : Dev} (h : d.clk.imageLoaded = false ∨ d.bit Fld.SNT_STATUS_RUNNING = false ∨ d.bit Fld.CLK_STATUS_RESCUE = true) :
    d.cmdReady = d := by
  refine if_neg ?_
  rcases h with h | h | h <;> simp [h]

end Sys2Proof.Machine
end

section
/-! Module discovery (R532, R547, R549): what a position without an answer leaves, and what a valid board memory sets. -/

namespace Sys2Proof.Machine

open Sys2Proof

theorem only_inv {l : List Part} {p : Nat → Prop} {d t : Dev} (h : only l p d t) (hl : Part.inv ∉ l) : t.inv = d.inv := by
  obtain ⟨⟨-, -, -, -, -, -, -, -, -, -, -, -, -, -, -, -, -, -, inv⟩, -⟩ := h
  exact inv hl

theorem modInv_only (d : Dev) (f : InvSt → InvSt) (p : Nat → Prop) : only [.inv] p d (d.modInv f) :=
  only_of_kept (by simp [keptBut, Dev.modInv]) rfl

/-- The registers that an unanswered read may change. -/
def discoveryReg (o : Nat) : Prop := eventReg o ∨ o ∈ [Reg.INV_STATUS, Reg.INV_READS, Reg.INV_ERRORS, Reg.ACQ_STATUS]

/-! ## Positions without an answer -/

/-- What the reads of the positions `l`, which nothing answers, make of the device. -/
structure silentReads (l : List Nat) (d t : Dev) : Prop where
  frame : only [.regs, .hif, .snt, .inv] discoveryReg d t
  errors : t.regN Reg.INV_ERRORS = (d.regN Reg.INV_ERRORS + l.length) % 2 ^ 32
  reads : t.regN Reg.INV_READS = d.regN Reg.INV_READS
  present : ∀ q, q < 10 → t.fbit Fld.INV_STATUS_PRESENT q = (d.fbit Fld.INV_STATUS_PRESENT q && decide (q ∉ l))
  valid : ∀ q, q < 10 → t.fbit Fld.INV_STATUS_VALID q = (d.fbit Fld.INV_STATUS_VALID q && decide (q ∉ l))
  mem : ∀ q, q ∉ l → t.inv.mem.find q = d.inv.mem.find q
  fitted : t.inv.xtal1Fitted = d.inv.xtal1Fitted

theorem silentReads_nil (d : Dev) : silentReads [] d d where
  frame := only_refl _ _ _
  errors := (Nat.mod_eq_of_lt (d.reg Reg.INV_ERRORS).isLt).symm
  reads := rfl
  present q _ := by simp
  valid q _ := by simp
  mem _ _ := rfl
  fitted := rfl

theorem silentReads_cons {p : Nat} {l : List Nat} {d x t : Dev} (first : silentReads [p] d x) (rest : silentReads l x t) : silentReads (p :: l) d t where
  frame := only_trans first.frame rest.frame
  errors := by
    have one : ([p] : List Nat).length = 1 := rfl
    rw [rest.errors, first.errors, one, List.length_cons]
    omega
  reads := rest.reads.trans first.reads
  present q hq := by
    rw [rest.present q hq, first.present q hq]
    simp [Bool.and_assoc]
  valid q hq := by
    rw [rest.valid q hq, first.valid q hq]
    simp [Bool.and_assoc]
  mem q hq := by
    rw [List.mem_cons, not_or] at hq
    rw [rest.mem q hq.2, first.mem q (List.mem_singleton.not.mpr hq.1)]
  fitted := rest.fitted.trans first.fitted

/-- INV_STATUS and the counters as position `p` is found silent. -/
def Dev.marksSilent (d : Dev) (p : Nat) : Dev :=
  (((d.count Reg.INV_READS 0).count Reg.INV_ERRORS 1).setFbit Fld.INV_STATUS_PRESENT p false).setFbit Fld.INV_STATUS_VALID p false

theorem marksSilent_only (d : Dev) (p : Nat) : only [.regs] (fun o => o ∈ [Reg.INV_STATUS, Reg.INV_READS, Reg.INV_ERRORS]) d (d.marksSilent p) := by
  have marked {x : Dev} {f : FieldAt} (hf : f.off = Reg.INV_STATUS) :
      only [.regs] (fun o => o ∈ [Reg.INV_STATUS, Reg.INV_READS, Reg.INV_ERRORS]) x (x.setFbit f p false) :=
    only_mono (by simp) (by rintro _ rfl; rw [hf]; decide) (setFbit_only x f p false)
  exact only_trans (only_mono (by simp) (by rintro _ rfl; decide) (count_only _ _ _))
    (only_trans (only_mono (by simp) (by rintro _ rfl; decide) (count_only _ _ _)) (only_trans (marked rfl) (marked rfl)))

theorem marksSilent_counts (d : Dev) (p : Nat) : (d.marksSilent p).regN Reg.INV_ERRORS = (d.regN Reg.INV_ERRORS + 1) % 2 ^ 32
    ∧ (d.marksSilent p).regN Reg.INV_READS = d.regN Reg.INV_READS := by
  have marked (x : Dev) {o : Nat} (ho : o ≠ Reg.INV_STATUS) :
      ((x.setFbit Fld.INV_STATUS_PRESENT p false).setFbit Fld.INV_STATUS_VALID p false).regN o = x.regN o :=
    (only_regN (setFbit_only _ _ _ _) ho).trans (only_regN (setFbit_only _ _ _ _) ho)
  unfold Dev.marksSilent
  rw [marked _ (by decide), marked _ (by decide), regN_count, if_pos rfl, regN_count, if_neg (by decide), regN_count,
    if_neg (by decide), regN_count, if_pos rfl]
  exact ⟨rfl, Nat.mod_eq_of_lt (d.reg Reg.INV_READS).isLt⟩

theorem marksSilent_status (d : Dev) {p q : Nat} (hp : p < 10) (hq : q < 10) :
    (d.marksSilent p).fbit Fld.INV_STATUS_PRESENT q = (d.fbit Fld.INV_STATUS_PRESENT q && decide (q ≠ p))
      ∧ (d.marksSilent p).fbit Fld.INV_STATUS_VALID q = (d.fbit Fld.INV_STATUS_VALID q && decide (q ≠ p)) := by
  have counted {f : FieldAt} (hf : f.off = Reg.INV_STATUS) : ((d.count Reg.INV_READS 0).count Reg.INV_ERRORS 1).fbit f q = d.fbit f q :=
    (only_fbit (count_only _ _ _) (by rw [hf]; decide) q).trans (only_fbit (count_only _ _ _) (by rw [hf]; decide) q)
  unfold Dev.marksSilent
  rw [fbit_setFbit_other _ _ _ _ (by decide) (by decide)]
  rcases eq_or_ne q p with rfl | hne
  · rw [fbit_setFbit_same _ _ (by decide) hq, fbit_setFbit_same _ _ (by decide) hq]
    simp
  · rw [fbit_setFbit_beside _ _ (by decide) hne, fbit_setFbit_beside _ _ (by decide) hne, fbit_setFbit_other _ _ _ _ (by decide) (by decide),
      counted rfl, counted rfl]
    simp [hne]

/-- What follows once a position is found silent: ID_OK, the memory held, and the event of the board's. -/
def Dev.forgetsMemory (d : Dev) (p : Nat) : Dev :=
  let x := (if 2 ≤ p then d.setFbit Fld.ACQ_STATUS_ID_OK (p - 2) false else d).modInv (fun i => { i with mem := i.mem.drop p })
  if p = 0 then x.event .identityBad 0 1 0 else x

theorem forgetsMemory_only (d : Dev) (p : Nat) : only [.regs, .hif, .snt, .inv] (fun o => eventReg o ∨ o = Reg.ACQ_STATUS) d (d.forgetsMemory p) := by
  unfold Dev.forgetsMemory
  have cleared : only [.regs, .hif, .snt, .inv] (fun o => eventReg o ∨ o = Reg.ACQ_STATUS) d
      ((if 2 ≤ p then d.setFbit Fld.ACQ_STATUS_ID_OK (p - 2) false else d).modInv (fun i => { i with mem := i.mem.drop p })) :=
    only_trans (only_ite (only_mono (by simp) (by rintro _ rfl; exact .inr rfl) (setFbit_only _ _ _ _)) (only_refl _ _ _))
      (only_wider (modInv_only _ _ _) (by simp))
  exact only_ite (only_trans cleared (only_mono (by simp) (fun _ => .inl) (event_only _ _ _ _ _ _))) cleared

theorem forgetsMemory_inv (d : Dev) (p : Nat) : (d.forgetsMemory p).inv = { d.inv with mem := d.inv.mem.drop p } := by
  have cleared (x : Dev) (h : x.inv = d.inv) : (x.modInv (fun i => { i with mem := i.mem.drop p })).inv = { d.inv with mem := d.inv.mem.drop p } :=
    congrArg (fun i : InvSt => { i with mem := i.mem.drop p }) h
  have told (x : Dev) : (if p = 0 then x.event .identityBad 0 1 0 else x).inv = x.inv := by
    split
    · exact only_inv (event_only _ _ _ _ _ _) (by simp)
    · rfl
  rw [Dev.forgetsMemory, told]
  apply cleared
  split <;> rfl

theorem readIdentity_silent (d : Dev) {p : Nat} (hp : p < 6) : silentReads [p] d (d.readIdentity false p []) := by
  have shown : d.readIdentity false p [] = (d.marksSilent p).forgetsMemory p := rfl
  have inv := forgetsMemory_inv (d.marksSilent p) p
  have after := forgetsMemory_only (d.marksSilent p) p
  have marked := marksSilent_only d p
  have held : (d.marksSilent p).inv = d.inv := only_inv marked (by simp)
  have status {f : FieldAt} (hf : f.off = Reg.INV_STATUS) (q : Nat) : ((d.marksSilent p).forgetsMemory p).fbit f q = (d.marksSilent p).fbit f q :=
    only_fbit after (by rw [hf]; exact not_or.mpr ⟨not_eventReg (by decide), by decide⟩) q
  obtain ⟨errors, reads⟩ := marksSilent_counts d p
  rw [held] at inv
  rw [shown]
  refine ⟨only_trans (only_mono (by simp) ?_ marked) (only_mono (by simp) ?_ after), ?_, ?_, fun q hq => ?_, fun q hq => ?_, fun q hq => ?_, ?_⟩
  · intro o ho
    right
    simp only [List.mem_cons, List.not_mem_nil, or_false] at ho ⊢
    tauto
  · rintro o (h | rfl)
    · exact .inl h
    · exact .inr (by decide)
  · exact (only_regN after (not_or.mpr ⟨not_eventReg (by decide), by decide⟩)).trans errors
  · exact (only_regN after (not_or.mpr ⟨not_eventReg (by decide), by decide⟩)).trans reads
  · rw [status rfl, (marksSilent_status d (by omega) hq).1]
    simp
  · rw [status rfl, (marksSilent_status d (by omega) hq).2]
    simp
  · rw [inv]
    exact Tbl.find_drop_other _ (by simpa using hq)
  · rw [inv]

theorem foldl_readIdentity_silent {l : List Nat} (hl : ∀ p ∈ l, p < 6) {mems : List (List Bytes)} (silent : ∀ p ∈ l, (mems[p]?).getD [] = []) (d : Dev) :
    silentReads l d (l.foldl (fun (x : Dev) p => x.readIdentity false p ((mems[p]?).getD [])) d) := by
  induction l generalizing d with
  | nil => exact silentReads_nil d
  | cons p l ih =>
    obtain ⟨hp, hl⟩ := List.forall_mem_cons.mp hl
    obtain ⟨none, silent⟩ := List.forall_mem_cons.mp silent
    rw [List.foldl_cons, none]
    exact silentReads_cons (readIdentity_silent d hp) (ih hl silent _)

/-! ## The end of discovery -/

section Discover

variable {d : Dev} (new : d.clk.discovered = false ∧ d.bit Fld.CLK_STATUS_RESCUE = false ∧ d.bit Fld.CLK_STATUS_PLL_LOCK = true)

/-- Discovery ends: the judgement of XTAL1 without oscillation, and the step that start-up has come to. -/
def Dev.endsDiscovery (d : Dev) : Dev :=
  ((if d.judgeOf 1 = .noOscillation ∧ d.inv.xtal1Fitted = true then d.judgedBad 1 0 else d).modClk (fun c => { c with discovered := true })).showStep

include new in
theorem discover_eq (mems : List (List Bytes)) :
    d.discover mems [] = ((List.range 6).foldl (fun (x : Dev) p => x.readIdentity false p ((mems[p]?).getD [])) d).endsDiscovery := by
  obtain ⟨undiscovered, running, locked⟩ := new
  unfold Dev.discover
  rw [if_neg (by simp [undiscovered, running, locked])]
  exact congrArg Dev.endsDiscovery (foldl_idle (l := List.range 4) (fun _ _ => rfl))

theorem endsDiscovery_effect (d : Dev) : only [.regs, .hif, .snt, .clk] (fun o => eventReg o ∨ o = Reg.RST_STATUS) d d.endsDiscovery
    ∧ d.endsDiscovery.clk.discovered = true ∧ d.endsDiscovery.inv = d.inv := by
  have judged : only [.regs, .hif, .snt, .clk] (fun o => eventReg o ∨ o = Reg.RST_STATUS) d
      (if d.judgeOf 1 = .noOscillation ∧ d.inv.xtal1Fitted = true then d.judgedBad 1 0 else d) :=
    only_ite (only_mono (by simp) (fun _ => .inl) (event_only _ _ _ _ _ _)) (only_refl _ _ _)
  unfold Dev.endsDiscovery
  generalize (if d.judgeOf 1 = .noOscillation ∧ d.inv.xtal1Fitted = true then d.judgedBad 1 0 else d) = x at judged ⊢
  have stepped := showStep_only (x.modClk (fun c => { c with discovered := true }))
  exact ⟨only_trans judged (only_trans (only_wider (modClk_only _ _ _) (by simp)) (only_mono (by simp) (fun _ => .inr) stepped)),
    congrArg ClkSt.discovered (only_clk stepped (by simp)),
    (only_inv stepped (by simp)).trans (only_inv (t := x) judged (by simp))⟩

/-- No position answers. -/
theorem discover_nothing (new : d.clk.discovered = false ∧ d.bit Fld.CLK_STATUS_RESCUE = false ∧ d.bit Fld.CLK_STATUS_PLL_LOCK = true) :
    only [.regs, .hif, .snt, .clk, .inv] (fun o => eventReg o ∨ o ∈ [Reg.INV_STATUS, Reg.INV_READS, Reg.INV_ERRORS, Reg.ACQ_STATUS, Reg.RST_STATUS])
        d (d.discover [] [])
      ∧ (d.discover [] []).clk.discovered = true ∧ (d.discover [] []).regN Reg.INV_ERRORS = (d.regN Reg.INV_ERRORS + 6) % 2 ^ 32
      ∧ (d.discover [] []).regN Reg.INV_READS = d.regN Reg.INV_READS
      ∧ (List.range 6).all (fun p => !(d.discover [] []).fbit Fld.INV_STATUS_PRESENT p && !(d.discover [] []).fbit Fld.INV_STATUS_VALID p) = true := by
  rw [discover_eq new]
  have silent := foldl_readIdentity_silent (l := List.range 6) (fun p => List.mem_range.mp) (mems := []) (fun _ _ => rfl) d
  generalize (List.range 6).foldl (fun (x : Dev) p => x.readIdentity false p ((([] : List (List Bytes))[p]?).getD [])) d = x at silent ⊢
  obtain ⟨ends, discovered, -⟩ := endsDiscovery_effect x
  have apart {o : Nat} (h : o = Reg.INV_STATUS ∨ o = Reg.INV_READS ∨ o = Reg.INV_ERRORS) : ¬ (eventReg o ∨ o = Reg.RST_STATUS) := by
    rcases h with rfl | rfl | rfl <;> exact not_or.mpr ⟨not_eventReg (by decide), by decide⟩
  refine ⟨only_trans (only_mono (by simp) ?_ silent.frame) (only_mono (by simp) ?_ ends), discovered, ?_, ?_, ?_⟩
  · rintro o (h | h)
    · exact .inl h
    · right
      simp only [List.mem_cons, List.not_mem_nil, or_false] at h ⊢
      tauto
  · rintro o (h | rfl)
    · exact .inl h
    · exact .inr (by decide)
  · exact (only_regN ends (apart (by simp))).trans silent.errors
  · exact (only_regN ends (apart (by simp))).trans silent.reads
  · rw [List.all_eq_true]
    intro p hp
    have lt := List.mem_range.mp hp
    rw [only_fbit ends (apart (.inl rfl)), only_fbit ends (apart (.inl rfl)), silent.present p (by omega), silent.valid p (by omega)]
    simp [lt]

end Discover

end Sys2Proof.Machine
end

section
/-! Module discovery: a valid board memory (R545, R549). -/

namespace Sys2Proof.Machine

open Sys2Proof

/-! ## A valid board memory -/

theorem idAt_lt (b : Bytes) (off n : Nat) : idAt b off n < 256 ^ n := by
  have bound := leNat_lt (slice b off n).reverse
  rw [List.length_reverse, slice_length] at bound
  exact bound

/-- What the board memory `b`, which is valid, makes of the device. -/
structure boardRead (b : Bytes) (d t : Dev) : Prop where
  frame : only [.regs, .hif, .snt, .inv] (fun o => eventReg o ∨ o ∈ [Reg.INV_STATUS, Reg.INV_READS, Reg.INV_ERRORS, Reg.INV_BOARD]) d t
  reads : t.regN Reg.INV_READS = (d.regN Reg.INV_READS + 1) % 2 ^ 32
  present : t.fbit Fld.INV_STATUS_PRESENT 0 = true
  valid : t.fbit Fld.INV_STATUS_VALID 0 = true
  vendor : t.fld Fld.INV_BOARD_SUBSYS_VENDOR = idAt b 32 2
  subsystem : t.fld Fld.INV_BOARD_SUBSYS_ID = idAt b 34 2
  fitted : t.inv.xtal1Fitted = decide (idAt b 36 1 = 1)
  mem : t.inv.mem.find 0 = some b

/-- The counters and INV_STATUS as the board memory has been read and found valid. -/
def Dev.marksBoard (d : Dev) (b : Bytes) : Dev :=
  ((((d.count Reg.INV_READS 1).count Reg.INV_ERRORS 0).setFbit Fld.INV_STATUS_PRESENT 0 true).modInv (fun i => { i with mem := i.mem.put 0 b })).setFbit
    Fld.INV_STATUS_VALID 0 true

theorem marksBoard_only (d : Dev) (b : Bytes) :
    only [.regs, .inv] (fun o => o ∈ [Reg.INV_STATUS, Reg.INV_READS, Reg.INV_ERRORS]) d (d.marksBoard b) := by
  have marked {x : Dev} {f : FieldAt} (hf : f.off = Reg.INV_STATUS) :
      only [.regs, .inv] (fun o => o ∈ [Reg.INV_STATUS, Reg.INV_READS, Reg.INV_ERRORS]) x (x.setFbit f 0 true) :=
    only_mono (by simp) (by rintro _ rfl; rw [hf]; decide) (setFbit_only x f 0 true)
  exact only_trans (only_mono (by simp) (by rintro _ rfl; decide) (count_only _ _ _))
    (only_trans (only_mono (by simp) (by rintro _ rfl; decide) (count_only _ _ _))
      (only_trans (marked rfl) (only_trans (only_wider (modInv_only _ _ _) (by simp)) (marked rfl))))

theorem marksBoard_shows (d : Dev) (b : Bytes) : (d.marksBoard b).regN Reg.INV_READS = (d.regN Reg.INV_READS + 1) % 2 ^ 32
    ∧ (d.marksBoard b).fbit Fld.INV_STATUS_PRESENT 0 = true ∧ (d.marksBoard b).fbit Fld.INV_STATUS_VALID 0 = true
    ∧ (d.marksBoard b).inv = { d.inv with mem := d.inv.mem.put 0 b } := by
  unfold Dev.marksBoard
  refine ⟨?_, ?_, fbit_setFbit_same _ _ (by decide) (by decide), rfl⟩
  · rw [only_regN (setFbit_only _ _ _ _) (by decide), only_regN (modInv_only _ _ (fun _ => False)) not_false,
      only_regN (setFbit_only _ _ _ _) (by decide), regN_count, if_neg (by decide), regN_count, if_pos rfl]
  · rw [fbit_setFbit_other _ _ _ _ (by decide) (by decide), only_fbit (modInv_only _ _ (fun _ => False)) not_false,
      fbit_setFbit_same _ _ (by decide) (by decide)]

/-- The identity of the board is taken and announced. -/
def Dev.announcesBoard (d : Dev) (b : Bytes) : Dev :=
  ((d.setRegN Reg.INV_BOARD (idAt b 32 2 + 65536 * idAt b 34 2)).modInv
    (fun i => { i with xtal1Fitted := decide (idAt b 36 1 = 1) })).event .moduleFound 0
      (2 ^ 24 * idAt b 3 1 + 2 ^ 16 * idAt b 6 1 + idAt b 4 2) (crc32 (slice b 8 16))

theorem idFault_crc {pos : Nat} {b : Bytes} (h : idFault pos b = none) : crc32 (slice b 0 252) = idAt b 252 4 := by
  by_contra bad
  rw [idFault, if_pos bad] at h
  cases h

theorem readIdentity_board (d : Dev) {b : Bytes} (hb : b.length = 256) (good : idFault 0 b = none) :
    d.readIdentity false 0 [b] = (d.marksBoard b).announcesBoard b := by
  have whole : slice b 0 256 = b := by simp [slice, ← hb, zeros]
  have crc := idFault_crc good
  have made : idReads 3 [b] = [b] := by simp [idReads]
  have last : ([b] : List Bytes).getLast? = some b := rfl
  unfold Dev.readIdentity
  simp only [made, last, whole, good, List.filter_cons, crc, ne_eq, not_true_eq_false, decide_false, Bool.false_eq_true, if_false, List.filter_nil,
    List.length_nil, List.isEmpty_cons, Bool.false_and, Dev.takeIdentity, if_true, List.length_singleton]
  rfl

theorem announcesBoard_effect (d : Dev) (b : Bytes) :
    only [.regs, .hif, .snt, .inv] (fun o => eventReg o ∨ o = Reg.INV_BOARD) d (d.announcesBoard b)
      ∧ (d.announcesBoard b).regN Reg.INV_BOARD = idAt b 32 2 + 65536 * idAt b 34 2
      ∧ (d.announcesBoard b).inv = { d.inv with xtal1Fitted := decide (idAt b 36 1 = 1) } := by
  have vendor := idAt_lt b 32 2
  have subsystem := idAt_lt b 34 2
  have lt : idAt b 32 2 + 65536 * idAt b 34 2 < 2 ^ 32 := by omega
  have taken := only_setReg d Reg.INV_BOARD (BitVec.ofNat 32 (idAt b 32 2 + 65536 * idAt b 34 2))
  have shown : (d.setRegN Reg.INV_BOARD (idAt b 32 2 + 65536 * idAt b 34 2)).regN Reg.INV_BOARD = idAt b 32 2 + 65536 * idAt b 34 2 := by
    rw [regN_setRegN, if_pos rfl, Nat.mod_eq_of_lt lt]
  have told (x : Dev) := event_only x .moduleFound 0 (2 ^ 24 * idAt b 3 1 + 2 ^ 16 * idAt b 6 1 + idAt b 4 2) (crc32 (slice b 8 16)) sOk
  unfold Dev.announcesBoard
  refine ⟨only_trans (only_mono (by simp) (fun _ => .inr) taken) (only_trans (only_wider (modInv_only _ _ _) (by simp))
    (only_mono (by simp) (fun _ => .inl) (told _))), ?_, (only_inv (told _) (by simp)).trans rfl⟩
  rw [only_regN (told _) (not_eventReg (by decide))]
  exact shown

theorem readIdentity_boardRead (d : Dev) {b : Bytes} (hb : b.length = 256) (good : idFault 0 b = none) :
    boardRead b d (d.readIdentity false 0 [b]) := by
  have vendor := idAt_lt b 32 2
  have subsystem := idAt_lt b 34 2
  obtain ⟨reads, present, valid, mem⟩ := marksBoard_shows d b
  obtain ⟨told, board, inv⟩ := announcesBoard_effect (d.marksBoard b) b
  have status {f : FieldAt} (hf : f.off = Reg.INV_STATUS) : ((d.marksBoard b).announcesBoard b).fbit f 0 = (d.marksBoard b).fbit f 0 :=
    only_fbit told (by rw [hf]; exact not_or.mpr ⟨not_eventReg (by decide), by decide⟩) 0
  rw [readIdentity_board d hb good]
  refine ⟨only_trans (only_mono (by simp) ?_ (marksBoard_only d b)) (only_mono (by simp) ?_ told),
    (only_regN told (not_or.mpr ⟨not_eventReg (by decide), by decide⟩)).trans reads, (status rfl).trans present, (status rfl).trans valid, ?_, ?_, ?_, ?_⟩
  · intro o ho
    right
    simp only [List.mem_cons, List.not_mem_nil, or_false] at ho ⊢
    tauto
  · rintro o (h | rfl)
    · exact .inl h
    · exact .inr (by decide)
  · have value : ((d.marksBoard b).announcesBoard b).fld Fld.INV_BOARD_SUBSYS_VENDOR = (idAt b 32 2 + 65536 * idAt b 34 2) / 2 ^ 0 % 2 ^ 16 :=
      congrArg (fun v : Nat => v / 2 ^ 0 % 2 ^ 16) board
    omega
  · have value : ((d.marksBoard b).announcesBoard b).fld Fld.INV_BOARD_SUBSYS_ID = (idAt b 32 2 + 65536 * idAt b 34 2) / 2 ^ 16 % 2 ^ 16 :=
      congrArg (fun v : Nat => v / 2 ^ 16 % 2 ^ 16) board
    omega
  · rw [inv]
  · rw [inv, mem]
    exact Tbl.find_put_same _ _ _

/-- Only the board answers, and its memory is valid. -/
theorem discover_board {d : Dev} (new : d.clk.discovered = false ∧ d.bit Fld.CLK_STATUS_RESCUE = false ∧ d.bit Fld.CLK_STATUS_PLL_LOCK = true)
    {b : Bytes} (hb : b.length = 256) (good : idFault 0 b = none) : ∃ t, d.discover [[b]] [] = t
      ∧ only [.regs, .hif, .snt, .clk, .inv]
        (fun o => eventReg o ∨ o ∈ [Reg.INV_STATUS, Reg.INV_READS, Reg.INV_ERRORS, Reg.INV_BOARD, Reg.ACQ_STATUS, Reg.RST_STATUS]) d t
      ∧ t.clk.discovered = true ∧ t.regN Reg.INV_READS = (d.regN Reg.INV_READS + 1) % 2 ^ 32
      ∧ t.fbit Fld.INV_STATUS_VALID 0 = true ∧ t.fbit Fld.INV_STATUS_PRESENT 0 = true
      ∧ t.fld Fld.INV_BOARD_SUBSYS_VENDOR = idAt b 32 2 ∧ t.fld Fld.INV_BOARD_SUBSYS_ID = idAt b 34 2
      ∧ t.inv.xtal1Fitted = decide (idAt b 36 1 = 1) ∧ t.inv.mem.find 0 = some b := by
  have six : List.range 6 = 0 :: [1, 2, 3, 4, 5] := by decide
  have rest : ∀ p ∈ [1, 2, 3, 4, 5], ([[b]][p]?).getD [] = [] := by simp
  have board := readIdentity_boardRead d hb good
  rw [discover_eq new, six, List.foldl_cons]
  refine ⟨_, rfl, ?_⟩
  change boardRead b d (d.readIdentity false 0 (([[b]][0]?).getD [])) at board
  generalize d.readIdentity false 0 (([[b]][0]?).getD []) = x at board ⊢
  have silent := foldl_readIdentity_silent (l := [1, 2, 3, 4, 5]) (by decide) rest x
  generalize [1, 2, 3, 4, 5].foldl (fun (x : Dev) p => x.readIdentity false p (([[b]][p]?).getD [])) x = y at silent ⊢
  obtain ⟨ends, discovered, inv⟩ := endsDiscovery_effect y
  have apart {o : Nat} (h : 0x170000 ≤ o ∧ o ≠ Reg.RST_STATUS) : ¬ (eventReg o ∨ o = Reg.RST_STATUS) := not_or.mpr ⟨not_eventReg (by omega), h.2⟩
  have beside : ¬ discoveryReg Reg.INV_BOARD := not_or.mpr ⟨not_eventReg (by decide), by decide⟩
  refine ⟨only_trans (only_mono (by simp) ?_ board.frame) (only_trans (only_mono (by simp) ?_ silent.frame) (only_mono (by simp) ?_ ends)),
    discovered, ?_, ?_, ?_, ?_, ?_, ?_, ?_⟩
  · rintro o (h | h)
    · exact .inl h
    · right
      simp only [List.mem_cons, List.not_mem_nil, or_false] at h ⊢
      tauto
  · rintro o (h | h)
    · exact .inl h
    · right
      simp only [List.mem_cons, List.not_mem_nil, or_false] at h ⊢
      tauto
  · rintro o (h | rfl)
    · exact .inl h
    · exact .inr (by decide)
  · rw [only_regN ends (apart (by decide)), silent.reads, board.reads]
  · rw [only_fbit ends (apart (by decide)), silent.valid 0 (by decide), board.valid]
    rfl
  · rw [only_fbit ends (apart (by decide)), silent.present 0 (by decide), board.present]
    rfl
  · rw [only_fld ends (apart (by decide)), only_fld silent.frame beside, board.vendor]
  · rw [only_fld ends (apart (by decide)), only_fld silent.frame beside, board.subsystem]
  · rw [inv, silent.fitted, board.fitted]
  · rw [inv, silent.mem 0 (by decide), board.mem]

end Sys2Proof.Machine
end

section
/-! The image set and the engines after start-up (R327, R354, R545). -/

namespace Sys2Proof.Machine

open Sys2Proof

theorem modSaf_only (d : Dev) (f : SafSt → SafSt) (p : Nat → Prop) : only [.saf] p d (d.modSaf f) :=
  only_of_kept (by simp [keptBut, Dev.modSaf]) rfl

/-! ## The image set -/

theorem modInv_same {d : Dev} {f : InvSt → InvSt} (h : f d.inv = d.inv) : d.modInv f = d := by rw [Dev.modInv, h]

/-- Chips that have not been programmed outside the device hold what they held. -/
theorem nor_unprogrammed {l : List (Option Bytes)} (h : l.length = 2) :
    (List.range 2).map (fun n => ((([] : List (Option Bytes))[n]?).join <|> (l[n]?).join)) = l := by
  obtain ⟨a, b, rfl⟩ := List.length_eq_two.mp h
  rfl

/-- What a set loads into the device before the engines start. -/
def Dev.loadsSet (d : Dev) (n : Nat) : Dev :=
  (([0, 1, 3].foldl (fun (x : Dev) cls => x.loadBank ((d.norSet n).getD []) cls)
    (((d.setFld Fld.RST_STATUS_IMG_SET n).setBit Fld.RST_STATUS_IMG_FALLBACK (decide (d.norSeq n < d.norSeq (1 - n)))).modInv
      (fun i => { i with norInUse := n }))).modClk (fun c => { c with imageLoaded := true })).modSaf (fun s => { s with hbAt := d.up })

section ImageSet

variable {k : KeySt} {d : Dev} (due : d.clk.keyStarted = true ∧ d.clk.discovered = true ∧ d.clk.imageLoaded = false
  ∧ d.bit Fld.CLK_STATUS_RESCUE = false) (hnor : d.inv.nor.length = 2) (failing : Nat)

include due hnor

theorem imageSetVerify_due : imageSetVerify [] failing k d = match Dev.norPick k d with
    | none => d.modClk (fun c => { c with noImage := true })
    | some n => ((d.loadsSet n).startEngines failing).showStep := by
  obtain ⟨keys, discovered, unloaded, running⟩ := due
  have held := modInv_same (d := d) (f := fun i => { i with
    nor := (List.range 2).map (fun n => ((([] : List (Option Bytes))[n]?).join <|> (i.nor[n]?).join)) }) (by rw [nor_unprogrammed hnor])
  unfold imageSetVerify
  rw [if_neg (by simp [keys, discovered, unloaded, running])]
  simp only [held]
  rfl

end ImageSet

theorem norPick_lt {k : KeySt} {d : Dev} {n : Nat} (h : Dev.norPick k d = some n) : n < 2 := by
  unfold Dev.norPick at h
  simp only at h
  split at h
  · cases h
    split <;> decide
  · split at h
    · cases h
      decide
    · split at h
      · cases h
        decide
      · cases h

theorem loadBank_only (d : Dev) (b : Bytes) (cls : Nat) : only [.regs, .sch] (fun o => o = Reg.ENG_BANK) d (d.loadBank b cls) := by
  unfold Dev.loadBank
  split
  · exact only_refl _ _ _
  · exact only_trans (only_wider (modSch_only _ _ _) (by simp)) (only_mono (by simp) (fun _ h => h) (setFld_only _ Fld.ENG_BANK_ACTIVE _))

/-- The parts and registers of a set that loads. -/
theorem loadsSet_only (d : Dev) (n : Nat) :
    only [.regs, .sch, .saf, .clk, .inv] (fun o => o ∈ [Reg.RST_STATUS, Reg.ENG_BANK]) d (d.loadsSet n) := by
  have status {x : Dev} {f : FieldAt} (v : Nat) (hf : f.off = Reg.RST_STATUS) :
      only [.regs, .sch, .saf, .clk, .inv] (fun o => o ∈ [Reg.RST_STATUS, Reg.ENG_BANK]) x (x.setFld f v) :=
    only_mono (by simp) (by rintro _ rfl; rw [hf]; decide) (setFld_only x f v)
  have banks (b : Bytes) (x : Dev) : only [.regs, .sch, .saf, .clk, .inv] (fun o => o ∈ [Reg.RST_STATUS, Reg.ENG_BANK]) x
      ([0, 1, 3].foldl (fun (x : Dev) cls => x.loadBank b cls) x) :=
    foldl_keeps (only_refl _ _) only_trans (fun y cls => only_mono (by simp) (by rintro _ rfl; decide) (loadBank_only y b cls)) _ x
  exact only_trans (status _ rfl) (only_trans (status _ rfl) (only_trans (only_wider (modInv_only _ _ _) (by simp)) (only_trans (banks _ _)
    (only_trans (only_wider (modClk_only _ _ _) (by simp)) (only_wider (modSaf_only _ _ _) (by simp))))))

theorem loadsSet_shows (d : Dev) {n : Nat} (hn : n < 2) : (d.loadsSet n).fld Fld.RST_STATUS_IMG_SET = n
    ∧ (d.loadsSet n).bit Fld.RST_STATUS_IMG_FALLBACK = decide (d.norSeq n < d.norSeq (1 - n)) ∧ (d.loadsSet n).inv.norInUse = n
    ∧ (d.loadsSet n).clk = { d.clk with imageLoaded := true } ∧ (d.loadsSet n).saf.hbAt = d.up := by
  have banks (b : Bytes) (x : Dev) : only [.regs, .sch] (fun o => o = Reg.ENG_BANK) x
      ([0, 1, 3].foldl (fun (x : Dev) cls => x.loadBank b cls) x) :=
    foldl_keeps (only_refl _ _) only_trans (fun y cls => loadBank_only y b cls) _ x
  unfold Dev.loadsSet
  generalize decide (d.norSeq n < d.norSeq (1 - n)) = fallback
  generalize hx : (((d.setFld Fld.RST_STATUS_IMG_SET n).setBit Fld.RST_STATUS_IMG_FALLBACK fallback).modInv (fun i => { i with norInUse := n })) = x
  have loaded := banks ((d.norSet n).getD []) x
  have set : x.fld Fld.RST_STATUS_IMG_SET = n ∧ x.bit Fld.RST_STATUS_IMG_FALLBACK = fallback ∧ x.inv.norInUse = n ∧ x.clk = d.clk := by
    rw [← hx]
    refine ⟨?_, Dev.bit_setBit_same (d.setFld Fld.RST_STATUS_IMG_SET n) _ _ (by decide) (by decide), rfl, rfl⟩
    refine (Dev.fld_setFld_other (d.setFld Fld.RST_STATUS_IMG_SET n) Fld.RST_STATUS_IMG_FALLBACK Fld.RST_STATUS_IMG_SET _ (by decide) (by decide)).trans ?_
    rw [Dev.fld_setFld_same _ _ _ (by decide)]
    exact Nat.mod_eq_of_lt hn
  generalize [0, 1, 3].foldl (fun (x : Dev) cls => x.loadBank ((d.norSet n).getD []) cls) x = y at loaded ⊢
  obtain ⟨set, fell, inUse, clk⟩ := set
  refine ⟨?_, ?_, ?_, ?_, rfl⟩
  · exact (only_fld loaded (by decide)).trans set
  · exact (only_bit loaded (by decide)).trans fell
  · exact (congrArg InvSt.norInUse (only_inv loaded (by simp))).trans inUse
  · exact congrArg (fun c : ClkSt => { c with imageLoaded := true }) ((only_clk loaded (by simp)).trans clk)

/-! ## The engines -/

/-- ENG_STATUS as start-up leaves it where no engine is retired or fails. -/
def Dev.enginesUp (d : Dev) : Dev :=
  (((d.setFld Fld.ENG_STATUS_PE_ACTIVE 0x7FFF).setFld Fld.ENG_STATUS_DE_ACTIVE 15).setBit Fld.ENG_STATUS_NO_SPARE false).setFld Fld.ENG_STATUS_SPARE 15

/-- The engines after start-up, where one of those that pass is the spare and none is retired. -/
theorem startEngines_lists {d : Dev} {failing pes des e : Nat} {good : List Nat}
    (tested : ((List.range 16).filter (fun e => !(d.fld Fld.ENG_RETIRED_ENGINE).testBit e)).filter (fun e => !failing.testBit e) = good)
    (spare : (if 15 < good.length then good.getLast? else none) = some e) (active : maskOf (good.filter (fun g => decide (some g ≠ some e))) = pes)
    (decision : maskOf ((List.range 4).filter (fun e => !(d.fld Fld.ENG_RETIRED_ENGINE).testBit (16 + e))) = des)
    (bad : (List.range 20).filter (fun e => failing.testBit e && !(d.fld Fld.ENG_RETIRED_ENGINE).testBit e) = []) :
    d.startEngines failing = ((((d.setFld Fld.ENG_STATUS_PE_ACTIVE pes).setFld Fld.ENG_STATUS_DE_ACTIVE des).setBit Fld.ENG_STATUS_NO_SPARE
      false).setFld Fld.ENG_STATUS_SPARE e).judgeEngines 16 := by
  unfold Dev.startEngines
  simp only
  rw [tested, spare, active, decision, bad, List.foldl_nil, Option.isNone_some]
theorem startEngines_sound {d : Dev} (none_retired : d.fld Fld.ENG_RETIRED_ENGINE = 0) : d.startEngines 0 = d.enginesUp.judgeEngines 16 := by
  have sixteen : ((List.range 16).filter (fun e => !Nat.testBit 0 e)).filter (fun e => !Nat.testBit 0 e) = List.range 16 := by simp
  have four : maskOf ((List.range 4).filter (fun e => !Nat.testBit 0 (16 + e))) = 15 := by decide
  have passed : (List.range 20).filter (fun e => Nat.testBit 0 e && !Nat.testBit 0 e) = [] := by simp
  exact startEngines_lists (good := List.range 16) (by rw [none_retired]; exact sixteen) (by decide) (by decide) (by rw [none_retired]; exact four)
    (by rw [none_retired]; exact passed)

theorem enginesUp_only (d : Dev) : only [.regs] (fun o => o = Reg.ENG_STATUS) d d.enginesUp :=
  only_trans (setFld_only _ Fld.ENG_STATUS_PE_ACTIVE _) (only_trans (setFld_only _ Fld.ENG_STATUS_DE_ACTIVE _)
    (only_trans (setBit_only _ Fld.ENG_STATUS_NO_SPARE _) (setFld_only _ Fld.ENG_STATUS_SPARE _)))

theorem enginesUp_shows (d : Dev) : d.enginesUp.fld Fld.ENG_STATUS_PE_ACTIVE = 0x7FFF ∧ d.enginesUp.fld Fld.ENG_STATUS_DE_ACTIVE = 15
    ∧ d.enginesUp.fld Fld.ENG_STATUS_SPARE = 15 ∧ d.enginesUp.bit Fld.ENG_STATUS_NO_SPARE = false := by
  unfold Dev.enginesUp Dev.setBit
  refine ⟨?_, ?_, Dev.fld_setFld_same _ _ _ (by decide), ?_⟩
  · rw [Dev.fld_setFld_other _ _ _ _ (by decide) (by decide), Dev.fld_setFld_other _ _ _ _ (by decide) (by decide),
      Dev.fld_setFld_other _ _ _ _ (by decide) (by decide), Dev.fld_setFld_same _ _ _ (by decide)]
    rfl
  · rw [Dev.fld_setFld_other _ _ _ _ (by decide) (by decide), Dev.fld_setFld_other _ _ _ _ (by decide) (by decide),
      Dev.fld_setFld_same _ _ _ (by decide)]
    rfl
  · rw [Dev.bit, Dev.fld_setFld_other _ _ _ _ (by decide) (by decide), Dev.fld_setFld_same _ _ _ (by decide)]
    rfl

/-- With 15 phasor engines and four decision engines nothing is lost. -/
theorem judgeEngines_all {d : Dev} (pes : d.fld Fld.ENG_STATUS_PE_ACTIVE = 0x7FFF) (des : d.fld Fld.ENG_STATUS_DE_ACTIVE = 15) (before : Nat) :
    d.judgeEngines before = (d.setBit Fld.ENG_STATUS_DEGRADED (decide (d.activePes < 15))).refreshAlmok := by
  have fifteen : popCount 16 0x7FFF = 15 := by decide
  have four : popCount 4 15 = 4 := by decide
  have active : 15 ≤ d.activePes := by
    rw [Dev.activePes, pes, fifteen]
    exact Nat.le_add_right _ _
  have decides : d.deCount = 4 := by rw [Dev.deCount, des, four]
  have few : ¬ (d.activePes ≤ 3 ∧ 3 < before) ∧ ¬ (d.activePes ≤ 11 ∧ 11 < before) := ⟨by omega, by omega⟩
  have some_decide : ¬ (d.deCount = 0 ∧ (!d.bit Fld.SAF_STATUS_SAFE) = true) := by
    rw [decides]
    exact fun h => absurd h.1 (by decide)
  unfold Dev.judgeEngines
  simp only [few.1, few.2, some_decide, if_false]

theorem startEngines_effect {d : Dev} (none_retired : d.fld Fld.ENG_RETIRED_ENGINE = 0) :
    only [.regs] (fun o => o ∈ [Reg.ENG_STATUS, Reg.FUM_STATUS]) d (d.startEngines 0)
      ∧ (d.startEngines 0).fld Fld.ENG_STATUS_PE_ACTIVE = 0x7FFF ∧ (d.startEngines 0).fld Fld.ENG_STATUS_DE_ACTIVE = 15
      ∧ (d.startEngines 0).fld Fld.ENG_STATUS_SPARE = 15 ∧ (d.startEngines 0).bit Fld.ENG_STATUS_NO_SPARE = false := by
  obtain ⟨pes, des, spare, spared⟩ := enginesUp_shows d
  have up := enginesUp_only d
  rw [startEngines_sound none_retired, judgeEngines_all pes des]
  generalize d.enginesUp = x at pes des spare spared up
  generalize decide (x.activePes < 15) = degraded
  have shown := refreshAlmok_only (x.setBit Fld.ENG_STATUS_DEGRADED degraded)
  have kept {f : FieldAt} (hf : f.off = Reg.ENG_STATUS) (h : f.lo + f.width ≤ 25 ∨ 26 ≤ f.lo) :
      (x.setBit Fld.ENG_STATUS_DEGRADED degraded).refreshAlmok.fld f = x.fld f :=
    (only_fld shown (by rw [hf]; decide)).trans (Dev.fld_setFld_other x Fld.ENG_STATUS_DEGRADED f _ (by decide) (.inr h))
  refine ⟨only_trans (only_mono (by simp) ?_ up) (only_trans (only_mono (by simp) ?_ (setBit_only x Fld.ENG_STATUS_DEGRADED degraded))
    (only_mono (by simp) ?_ shown)), (kept rfl (by decide)).trans pes, (kept rfl (by decide)).trans des, (kept rfl (by decide)).trans spare,
    (bit_of_fld (kept rfl (by decide))).trans spared⟩
  · rintro o rfl
    exact List.mem_cons_self
  · rintro o rfl
    exact List.mem_cons_self
  · rintro o rfl
    exact List.mem_cons_of_mem _ List.mem_cons_self

/-! ## IMAGE_SET_VERIFY -/

theorem imageSetVerify_loads {k : KeySt} {d : Dev} {n : Nat} (due : d.clk.keyStarted = true ∧ d.clk.discovered = true ∧ d.clk.imageLoaded = false
    ∧ d.bit Fld.CLK_STATUS_RESCUE = false) (found : d.inv.nor.length = 2 ∧ Dev.norPick k d = some n ∧ d.fld Fld.ENG_RETIRED_ENGINE = 0
    ∧ d.bit Fld.SNT_STATUS_RUNNING = false) : ∃ t, imageSetVerify [] 0 k d = t
      ∧ only [.regs, .sch, .saf, .clk, .inv] (fun o => o ∈ [Reg.RST_STATUS, Reg.ENG_STATUS, Reg.ENG_BANK, Reg.FUM_STATUS]) d t
      ∧ t.clk.imageLoaded = true ∧ t.inv.norInUse = n ∧ t.fld Fld.RST_STATUS_IMG_SET = n
      ∧ t.bit Fld.RST_STATUS_IMG_FALLBACK = decide (d.norSeq n < d.norSeq (1 - n)) ∧ t.fld Fld.RST_STATUS_START_STEP = 10
      ∧ t.fld Fld.ENG_STATUS_PE_ACTIVE = 0x7FFF ∧ t.fld Fld.ENG_STATUS_DE_ACTIVE = 15 ∧ t.fld Fld.ENG_STATUS_SPARE = 15
      ∧ t.bit Fld.ENG_STATUS_NO_SPARE = false ∧ t.hbAge = 0 := by
  obtain ⟨hnor, pick, none_retired, stopped⟩ := found
  have verified := imageSetVerify_due (k := k) due hnor 0
  obtain ⟨keys, discovered, -, -⟩ := due
  rw [pick] at verified
  refine ⟨((d.loadsSet n).startEngines 0).showStep, verified, ?_⟩
  obtain ⟨set, fell, inUse, clk, beat⟩ := loadsSet_shows d (norPick_lt pick)
  have loads := loadsSet_only d n
  obtain ⟨starts, pes, des, spare, spared⟩ := startEngines_effect (d := d.loadsSet n) ((only_fld loads (by decide)).trans none_retired)
  have ready : ((d.loadsSet n).startEngines 0).clk.discovered = true ∧ ((d.loadsSet n).startEngines 0).clk.keyStarted = true
      ∧ ((d.loadsSet n).startEngines 0).clk.imageLoaded = true := by
    rw [only_clk starts (by simp), clk]
    exact ⟨discovered, keys, rfl⟩
  have unrecorded : ((d.loadsSet n).startEngines 0).bit Fld.SNT_STATUS_RUNNING = false :=
    (only_bit starts (by decide)).trans ((only_bit loads (by decide)).trans stopped)
  have status {f : FieldAt} (hf : f.off = Reg.RST_STATUS) : ((d.loadsSet n).startEngines 0).fld f = (d.loadsSet n).fld f :=
    only_fld starts (by rw [hf]; decide)
  have time : ((d.loadsSet n).startEngines 0).up = d.up := congrArg TimSt.up ((only_tim starts (by simp)).trans (only_tim loads (by simp)))
  have beats : ((d.loadsSet n).startEngines 0).saf.hbAt = d.up := (congrArg SafSt.hbAt (only_saf starts (by simp))).trans beat
  have inv : ((d.loadsSet n).startEngines 0).inv.norInUse = n := (congrArg InvSt.norInUse (only_inv starts (by simp))).trans inUse
  have set' := (status rfl).trans set
  have fell' := (bit_of_fld (status rfl)).trans fell
  have frame := only_trans (only_mono (q := fun o => o ∈ [Reg.RST_STATUS, Reg.ENG_STATUS, Reg.ENG_BANK, Reg.FUM_STATUS]) (fun _ h => h) ?_ loads)
    (only_mono (by simp) ?_ starts)
  · generalize (d.loadsSet n).startEngines 0 = x at pes des spare spared ready unrecorded time beats inv set' fell' frame ⊢
    have stepped := showStep_only x
    obtain ⟨found, started, loaded⟩ := ready
    refine ⟨only_trans frame (only_mono (l := [.regs]) (by simp) ?_ stepped), ?_, ?_, ?_, ?_, ?_, ?_, ?_, ?_, ?_, ?_⟩
    · rintro o rfl
      exact List.mem_cons_self
    · rw [only_clk stepped (by simp), loaded]
    · exact (congrArg InvSt.norInUse (only_inv stepped (by simp))).trans inv
    · exact (showStep_other x (by decide)).trans set'
    · exact (bit_of_fld (showStep_other x (by decide))).trans fell'
    · rw [showStep_step, found, started, loaded, unrecorded]
      rfl
    · exact (only_fld stepped (by decide)).trans pes
    · exact (only_fld stepped (by decide)).trans des
    · exact (only_fld stepped (by decide)).trans spare
    · exact (only_bit stepped (by decide)).trans spared
    · have age : x.showStep.hbAge = x.hbAge := rfl
      rw [age, Dev.hbAge, time, beats, Nat.sub_self, loaded]
      rfl
  · intro o ho
    simp only [List.mem_cons, List.not_mem_nil, or_false] at ho ⊢
    tauto
  · intro o ho
    simp only [List.mem_cons, List.not_mem_nil, or_false] at ho ⊢
    tauto

theorem imageSetVerify_none {k : KeySt} {d : Dev} (due : d.clk.keyStarted = true ∧ d.clk.discovered = true ∧ d.clk.imageLoaded = false
    ∧ d.bit Fld.CLK_STATUS_RESCUE = false) (empty : d.inv.nor = [none, none]) (failing : Nat) :
    imageSetVerify [] failing k d = d.modClk (fun c => { c with noImage := true }) := by
  have nothing : Dev.norPick k d = none := by
    have unset (i : Nat) (hi : i < 2) : d.norSet i = none := by
      rw [Dev.norSet, empty]
      interval_cases i <;> rfl
    simp [Dev.norPick, unset 0, unset 1]
  rw [imageSetVerify_due due (by rw [empty]; rfl), nothing]

end Sys2Proof.Machine
end

section
/-! The statement about start-up (O37; R354, R532 to R535, R541, R543, R545, R547). -/

namespace Sys2Proof.Machine

open Sys2Proof

/-! ## A first judgement that does not pass, or that comes after the PLL has locked -/

section Judged

variable {d : Dev} {g : List Int}

/-- An input that is judged and announced. -/
theorem judgeAnnounced_effect {n : Nat} (hn : n < d.clk.judge.length) :
    only [.regs, .hif, .snt, .clk] (fun o => eventReg o ∨ o ∈ [Reg.CLK_STATUS, Reg.CLK_XTALn n]) d ((d.noteJudge n g).announceJudge n)
      ∧ ((d.noteJudge n g).announceJudge n).bit (xtalOkBit n) = decide (judgeGates g = .passed)
      ∧ ((d.noteJudge n g).announceJudge n).judgeOf n = judgeGates g
      ∧ ((d.noteJudge n g).announceJudge n).clk = (d.noteJudge n g).clk := by
  have told := announceJudge_only (d.noteJudge n g) n
  have clk := only_clk told (by simp)
  refine ⟨only_trans (only_mono (by simp) ?_ (noteJudge_only d n g)) (only_mono (by simp) (fun _ => .inl) told), ?_, ?_, clk⟩
  · rintro o (rfl | rfl) <;> exact .inr (by simp)
  · rw [only_bit told (by rw [xtalOkBit_off]; exact not_eventReg (by decide)), noteJudge_ok]
  · rw [judgeOf_of_clk clk, judgeOf_noteJudge_same g hn]

/-- XTAL0 fails at start-up: XTAL1 is judged next. -/
theorem xtalJudged_first_fails {k : KeySt} (first : d.judgeOf 0 = .notJudged ∧ d.clk.held = false ∧ d.bit Fld.CLK_STATUS_RESCUE = false)
    (hlen : d.clk.judge.length = 2) (unlocked : d.bit Fld.CLK_STATUS_PLL_LOCK = false) (failed : judgeGates g ≠ .passed) :
    ∃ x, xtalJudged 0 g k d = (k, x)
      ∧ only [.regs, .hif, .snt, .clk] (fun o => eventReg o ∨ o ∈ [Reg.CLK_STATUS, Reg.CLK_XTALn 0, Reg.RST_STATUS]) d x
      ∧ x.bit Fld.CLK_STATUS_XTAL0_OK = false ∧ x.fld Fld.RST_STATUS_START_STEP = 3 ∧ x.judgeOf 0 = judgeGates g := by
  have judged := xtalJudged_first (g := g) first (by simp [unlocked]) k
  rw [if_neg (by simp [unlocked]), if_neg failed, if_pos rfl] at judged
  refine ⟨_, judged, ?_⟩
  obtain ⟨frame, ok, gates, -⟩ := judgeAnnounced_effect (d := d) (g := g) (n := 0) (by omega)
  generalize (d.noteJudge 0 g).announceJudge 0 = x at frame ok gates ⊢
  have stepped := setFld_only x Fld.RST_STATUS_START_STEP 3
  refine ⟨only_trans (only_mono (fun _ h => h) ?_ frame) (only_mono (by simp) ?_ stepped), ?_, Dev.fld_setFld_same _ _ _ (by decide),
    (judgeOf_of_clk (only_clk stepped (by simp)) 0).trans gates⟩
  · rintro o (h | h)
    · exact .inl h
    · right
      simp only [List.mem_cons, List.not_mem_nil, or_false] at h ⊢
      tauto
  · rintro o rfl
    exact .inr (by decide)
  · exact (only_bit stepped (by decide)).trans (ok.trans (decide_eq_false failed))

/-- Neither input passes: RESCUE. -/
theorem xtalJudged_rescues {k : KeySt} (first : d.judgeOf 1 = .notJudged ∧ d.clk.held = false ∧ d.bit Fld.CLK_STATUS_RESCUE = false)
    (silent : d.judgeOf 0 = .noOscillation) (hlen : d.clk.judge.length = 2)
    (unlocked : d.bit Fld.CLK_STATUS_PLL_LOCK = false ∧ d.clk.vcoHold = false) (failed : judgeGates g ≠ .passed) :
    ∃ x, xtalJudged 1 g k d = enterRescue k x := by
  obtain ⟨unlocked, free⟩ := unlocked
  have judged := xtalJudged_first (g := g) first (by simp [silent]) k
  obtain ⟨frame, -, gates, clk⟩ := judgeAnnounced_effect (d := d) (g := g) (n := 1) (by omega)
  obtain ⟨-, held, running⟩ := first
  have status {f : FieldAt} (hf : f.off = Reg.CLK_STATUS) : ((d.noteJudge 1 g).announceJudge 1).fld f = (d.noteJudge 1 g).fld f :=
    only_fld (announceJudge_only _ _) (by rw [hf]; exact not_eventReg (by decide))
  obtain ⟨-, lock, rescue⟩ := noteJudge_status d 1 g
  have clk' : ((d.noteJudge 1 g).announceJudge 1).clk.held = false ∧ ((d.noteJudge 1 g).announceJudge 1).clk.vcoHold = false := by
    rw [clk, noteJudge_clk]
    exact ⟨held, free⟩
  have other : ((d.noteJudge 1 g).announceJudge 1).judgeOf 0 = .noOscillation := by
    rw [judgeOf_of_clk clk, judgeOf_noteJudge_other d 1 g (by decide), silent]
  have lock' := ((bit_of_fld (status rfl)).trans lock).trans unlocked
  have rescue' := ((bit_of_fld (status rfl)).trans rescue).trans running
  have due : ((d.noteJudge 1 g).announceJudge 1).rescueDue = true := by
    have judgedBad := judgeGates_judged g
    have two : List.range 2 = [0, 1] := by decide
    simp [Dev.rescueDue, lock', rescue', clk', two, other, gates, failed, judgedBad]
  rw [if_neg (by simp [unlocked]), if_neg failed, if_neg (by decide), if_pos due] at judged
  exact ⟨_, judged⟩

/-- XTAL1 passes after the PLL has locked: it becomes the standby. -/
theorem xtalJudged_standby {k : KeySt} (first : d.judgeOf 1 = .notJudged ∧ d.clk.held = false ∧ d.bit Fld.CLK_STATUS_RESCUE = false)
    (hlen : d.clk.judge.length = 2) (locked : d.bit Fld.CLK_STATUS_PLL_LOCK = true) (passed : judgeGates g = .passed) :
    xtalJudged 1 g k d = (k, d.noteJudge 1 g) := by
  have quiet := announceJudge_passed ((judgeOf_noteJudge_same (d := d) (n := 1) g (by omega)).trans passed)
  rw [xtalJudged_first (g := g) first (by simp [locked]) k, if_pos locked, quiet]

end Judged

/-- Settles O37: the inputs are judged in their turn and announced; what PLL_LOCK, a lost root, discovery, DDR5, the image set and CMD_READY make
of the device follows from the state in which each finds it. -/
theorem startUpTakesEffect : Obligations.StartUpTakesEffect := by
  unfold Obligations.StartUpTakesEffect
  refine ⟨?_, ?_, ?_, ?_, ?_, ?_, ?_, ?_, ?_, ?_, ?_, ?_, ?_, ?_, ?_, ?_, ?_, ?_, ?_⟩
  · rintro s dt g d rfl ⟨unjudged, hlen, held, running, unlocked, passed⟩
    have judged := xtalJudged_passes (g := g) ⟨unjudged, held, running⟩ (by simp [unlocked]) s.key (by omega) unlocked passed
    obtain ⟨frame, root, ok, step, clk, offset⟩ := rootTaken_effect (later s.dev dt) (n := 0) (by decide) g rfl
    refine exists_runKey_of (f := xtalJudged 0 g) judged ⟨⟨rfl, rfl, frame⟩, root, ok.trans (decide_eq_true passed), step, ?_, ?_⟩
    · exact (judgeOf_of_clk clk 0).trans ((judgeOf_noteJudge_same g (by omega)).trans passed)
    · exact offset.trans (noteJudge_offset _ 0 g (judgeGates_passed_ne passed))
  · rintro s dt g d rfl ⟨unjudged, hlen, held, running, unlocked, failed⟩
    obtain ⟨x, judged, frame, ok, step, gates⟩ := xtalJudged_first_fails (k := s.key) ⟨unjudged, held, running⟩ hlen unlocked failed
    exact exists_runKey_of (f := xtalJudged 0 g) judged ⟨⟨rfl, rfl, frame⟩, ok, step, gates⟩
  · rintro s dt g d rfl ⟨outside, unjudged, hlen, held, running, unlocked, passed⟩
    have judged := xtalJudged_passes (g := g) ⟨unjudged, held, running⟩ (by simp [outside]) s.key (by omega) unlocked passed
    obtain ⟨frame, root, ok, step, -, -⟩ := rootTaken_effect (later s.dev dt) (n := 1) (by decide) g rfl
    exact exists_runKey_of (f := xtalJudged 1 g) judged ⟨⟨rfl, rfl, frame⟩, root, ok.trans (decide_eq_true passed), step⟩
  · rintro s dt g d rfl ⟨silent, unjudged, hlen, held, running, unlocked, free, failed⟩
    obtain ⟨x, judged⟩ := xtalJudged_rescues (k := s.key) ⟨unjudged, held, running⟩ silent hlen ⟨unlocked, free⟩ failed
    obtain ⟨rescue, unready⟩ := enterRescue_shows s.key x
    exact exists_runKey_of (f := xtalJudged 1 g) judged ⟨rfl, (enterRescue_units s.key x).1, rescue, unready⟩
  · rintro s dt g d rfl ⟨unjudged, hlen, held, running, locked, passed⟩
    have judged := xtalJudged_standby (k := s.key) ⟨unjudged, held, running⟩ hlen locked passed
    have frame : only [.regs, .clk] (fun o => o ∈ [Reg.CLK_STATUS, Reg.CLK_XTALn 1]) (later s.dev dt) ((later s.dev dt).noteJudge 1 g) :=
      only_mono (fun _ h => h) (by rintro o (rfl | rfl) <;> simp) (noteJudge_only _ 1 g)
    refine exists_runKey_of (f := xtalJudged 1 g) judged ⟨⟨rfl, rfl, frame⟩, (noteJudge_status _ 1 g).1,
      (noteJudge_ok _ 1 g).trans (decide_eq_true passed), (judgeOf_noteJudge_same g (by omega)).trans passed⟩
  · rintro s dt d rfl ⟨free, unlocked, passed, step, new⟩
    obtain ⟨frame, lock, step', root⟩ := pllLock_starts_effect new
    exact exists_run_moves (f := fun _ d => d.pllLock) (pllLock_starts free unlocked passed step) frame ⟨lock, step', root⟩
  · rintro s dt d rfl ⟨held, passed⟩
    obtain ⟨frame, effect⟩ := pllLock_standby_effect held passed
    exact exists_run_moves (f := fun _ d => d.pllLock) rfl frame effect
  · rintro s dt d rfl ⟨free, locked, hnone⟩
    exact ⟨_, rfl, rfl, rfl, rootLost_effect free locked hnone⟩
  · rintro s dt d rfl unlocked
    exact exists_run_moves (f := fun _ d => d.rootLost) (rootLost_unlocked unlocked) (only_refl _ _ _) rfl
  · rintro s dt n g d rfl ⟨locked, free, root, judged, hat, hlen⟩ ⟨due, passed⟩
    obtain ⟨frame, effect⟩ := rejudge_passes ⟨locked, free, root, judged⟩ due ⟨hat, hlen⟩ passed
    exact exists_run_moves (f := fun _ d => d.rejudge n g) rfl frame effect
  · rintro s dt n g d rfl service ⟨due, failed, hnone⟩
    exact ⟨_, rfl, rfl, rfl, rejudge_fails service due failed hnone⟩
  · rintro s dt d rfl new
    obtain ⟨frame, effect⟩ := discover_nothing new
    exact exists_run_moves (f := fun _ d => d.discover [] []) rfl frame effect
  · rintro s dt b d rfl new ⟨hb, good⟩
    obtain ⟨t, found, frame, effect⟩ := discover_board new hb good
    exact exists_run_moves (f := fun _ d => d.discover [[b]] []) found frame effect
  · rintro s dt gib d rfl ⟨locked, untrained, running, hgib, warm⟩
    have shown := ddrReady_eq ⟨locked, untrained, running⟩ hgib true
    rw [warm, if_pos (by decide)] at shown
    exact exists_run_moves (f := fun _ d => d.ddrReady gib true) shown (ddrShown_only _ _ _) (ddrShown_shows hgib _ _)
  · rintro s dt gib trained d rfl ⟨locked, untrained, running, hgib, lost⟩
    have gone : (trained && decide ((later s.dev dt).fld Fld.RST_STATUS_LAST_KIND = 2)) = false := by
      rcases lost with h | h <;> simp [h]
    have shown := ddrReady_eq ⟨locked, untrained, running⟩ hgib trained
    rw [gone, if_neg (by decide)] at shown
    obtain ⟨ready, kept, capacity⟩ := ddrShown_shows hgib ((later s.dev dt).modCrt fun c =>
      { c with snaps := [], amends := [], amendLost := [], overRuns := [] }) false
    refine exists_run_moves (f := fun _ d => d.ddrReady gib trained) shown (only_trans (only_wider (modCrt_only _ _ _) (by simp))
      (only_mono (by simp) (fun _ h => h) (ddrShown_only _ gib false))) ⟨ready, kept, capacity, rfl, rfl⟩
  · rintro s dt n d rfl due found
    obtain ⟨t, loads, frame, effect⟩ := imageSetVerify_loads due found
    exact exists_run_moves (f := imageSetVerify [] 0) loads frame effect
  · rintro s dt failing d rfl due empty
    exact exists_run_moves (f := imageSetVerify [] failing) (imageSetVerify_none due empty failing) (modClk_only _ _ _) rfl
  · rintro s dt d rfl done
    obtain ⟨frame, effect⟩ := cmdReady_effect done
    exact exists_run_moves (f := fun _ d => d.cmdReady) rfl frame effect
  · rintro s dt d rfl unready
    exact exists_run_moves (f := fun _ d => d.cmdReady) (cmdReady_waits unready) (only_refl _ _ _) rfl

end Sys2Proof.Machine
end

section
/-! The commands of the safety block (O35; R522, R525, R529). -/

namespace Sys2Proof.Machine

open Sys2Proof

/-! ## SAF_ERR_READ and SAF_PROOF -/

theorem safErrRead_fits {buf : HostBuf} (d : Dev) (h : 384 ≤ buf.len) :
    safErrRead buf d = (d, .block (slice (d.saf.queue.flatMap ErrEntry.bytes) 0 384) (some buf.addr)) := if_neg (Nat.not_lt.mpr h)

theorem safErrRead_short {buf : HostBuf} (d : Dev) (h : buf.len < 384) : safErrRead buf d = (d, .done sRange 0) := if_pos h

theorem safProof_starts {mask : Nat} {d : Dev} (hm : 0 < mask ∧ mask < 4096) (idle : d.saf.proof = none) :
    safProof mask d = (d.proofStart mask, .wait .proofRun) := by
  rw [safProof, if_neg (by omega), if_neg (by simp [idle]), if_neg (by omega)]

theorem safProof_busy {mask : Nat} {d : Dev} (hm : mask < 4096) (runs : d.saf.proof ≠ none) : safProof mask d = (d, .done sBusy 0) := by
  rw [safProof, if_neg (by omega), if_pos (Option.isSome_iff_ne_none.mpr runs)]

/-! ## The mask of the pins -/

theorem testBit_maskOf (l : List Nat) (i : Nat) : (maskOf l).testBit i = decide (i ∈ l) := by
  have fold (m : Nat) : (l.foldl (fun m i => putBit m i true) m).testBit i = (m.testBit i || decide (i ∈ l)) := by
    induction l generalizing m with
    | nil => simp
    | cons j l ih =>
      rw [List.foldl_cons, ih, testBit_putBit]
      by_cases h : i = j <;> simp [h]
  rw [maskOf, fold, Nat.zero_testBit, Bool.false_or]

theorem maskOf_lt {l : List Nat} {n : Nat} (h : ∀ i ∈ l, i < n) : maskOf l < 2 ^ n := by
  refine Nat.lt_pow_two_of_testBit _ fun i hi => ?_
  rw [testBit_maskOf, decide_eq_false]
  exact fun listed => Nat.not_lt.mpr hi (h i listed)

theorem safePins_lt (d : Dev) : d.safePins < 2 ^ 8 := maskOf_lt fun _ h => List.mem_range.mp (List.mem_of_mem_filter h)

theorem safePins_of_only {l : List Part} {p : Nat → Prop} {d t : Dev} (h : only l p d t) (hp : ∀ n, n < 8 → ¬ p (Reg.FUM_PINp n)) :
    t.safePins = d.safePins := by
  refine congrArg maskOf (List.filter_congr fun n hn => ?_)
  exact only_bit h (hp n (List.mem_range.mp hn))

/-! ## SAF_FORCE -/

theorem safForce_other {confirm : Nat} (d : Dev) (h : confirm ≠ 0x53414645) : safForce confirm d = (d, .done sRange 0) := if_pos h

theorem safForce_confirmed (d : Dev) : safForce 0x53414645 d = (d.raise eForced noIndex 0xFF sOk, .ok) := if_neg (by simp)

theorem entryKept_refreshSaf (d : Dev) : entryKept d d.refreshSaf :=
  entryKept_trans (entryKept_setFld d _ (by decide) (by decide) (by decide) (by decide))
    (entryKept_trans (entryKept_setBit _ _ (by decide) (by decide) (by decide) (by decide)) (entryKept_refreshAlmok _))

theorem not_entryReg_cause : ¬ entryReg Reg.SAF_CAUSE := by
  rintro (ring | event | lost | (drop | ⟨k, hk, lost⟩) | status)
  · simp only [anyRingReg, Reg.HIF_RINGn_DONE, Reg.HIF_RINGn_STAT, Reg.SAF_CAUSE] at ring
    rcases ring with ⟨n, h | h⟩ | h | h <;> omega
  · exact not_eventReg (by decide) event
  · exact absurd lost (by decide)
  · exact absurd drop (by decide)
  · simp only [Reg.SAF_CAUSE, Reg.NET_Pp_TX_Q_LOST] at lost
    omega
  · exact absurd status (by decide)

section Force

variable {d : Dev} {cls : Nat} (hlevel : initialLevel cls = 3) (hnone : d.saf.queue.all (fun e => decide (e.cls ≠ cls)) = true)
  (hroom : d.saf.queue.length < 16) (free : d.bit Fld.SAF_STATUS_SAFE = false)

include hlevel hnone hroom free

/-- An error of level 3 with room in the queue enters the safe state, whose cause it is, with the pins' safe levels; the rings stay. -/
theorem raise_fatal_enters (index diag status : Nat) : (d.raise cls index diag status).bit Fld.SAF_STATUS_SAFE = true
    ∧ (d.raise cls index diag status).fld Fld.SAF_CAUSE_CLASS = cls % 2 ^ 8 ∧ (d.raise cls index diag status).fld Fld.SAF_CAUSE_DIAG = diag % 2 ^ 8
    ∧ (d.raise cls index diag status).fld Fld.FUM_STATUS_PINS = d.safePins
    ∧ d.statesKept (d.raise cls index diag status) ∧ d.sessionsKept (d.raise cls index diag status) := by
  obtain ⟨saf, raised⟩ := raise_fatal hlevel hnone hroom index diag status
  have counted := count_only d Reg.SAF_ERRORS 1
  have queued : only [.regs, .saf] (fun o => o = Reg.SAF_ERRORS) d ({ d.count Reg.SAF_ERRORS with saf := saf }) :=
    only_trans (only_wider counted (by simp)) (only_of_kept (by simp [keptBut]) rfl)
  have apart (m : Nat) : Reg.HIF_RINGn_STAT m ∉ [Reg.SAF_ERRORS, Reg.SAF_STATUS, Reg.FUM_STATUS, Reg.SAF_CAUSE] := fun h => by
    have stat : ∀ o ∈ [Reg.SAF_ERRORS, Reg.SAF_STATUS, Reg.FUM_STATUS, Reg.SAF_CAUSE], o % 32 ≠ 24 := by decide
    exact stat _ h (stat_mod m)
  rw [raised]
  generalize ({ d.count Reg.SAF_ERRORS with saf := saf }) = x at queued
  have shown := entryKept_refreshSaf x
  have pins : x.refreshSaf.safePins = d.safePins :=
    (safePins_of_only (refreshSaf_only x) (by decide)).trans (safePins_of_only queued (by decide))
  have enters := entersSafe_only x.refreshSaf cls status diag
  have kept := enterSafe_kept (shown.safe.trans ((only_bit queued (by decide)).trans free)) cls status diag
  obtain ⟨cause, why, levels⟩ := entersSafe_cause x.refreshSaf cls status diag
  refine ⟨kept.safe.trans (entersSafe_safe _ cls status diag), (only_fld kept.frame not_entryReg_cause).trans cause,
    (only_fld kept.frame not_entryReg_cause).trans why, kept.pins.trans ?_, ?_, ?_⟩
  · rw [levels, pins]
    exact Nat.mod_eq_of_lt (safePins_lt d)
  · refine statesKept_trans (statesKept_of_only queued fun m h => ?_) (statesKept_trans shown.states (statesKept_trans
      (statesKept_of_only enters fun m h => ?_) kept.states))
    · exact apart m (by rw [h]; decide)
    · exact apart m (by simp only [List.mem_cons, List.not_mem_nil, or_false] at h ⊢; tauto)
  · exact sessionsKept_trans (sessionsKept_of_hif (only_hif queued (by simp))) (sessionsKept_trans shown.sessions
      (sessionsKept_trans (sessionsKept_of_hif (only_hif enters (by simp))) kept.sessions))

end Force

/-- Settles O35: each command is accepted; its checks decide what it makes of the device, and an accepted SAF_FORCE enters the safe state before
it completes. -/
theorem safetyCommandsComplete : Obligations.SafetyCommandsComplete := by
  unfold Obligations.SafetyCommandsComplete
  refine ⟨?_, ?_, ?_, ?_, ?_, ?_⟩
  · rintro s c d buf hr rfl h
    exact exec_of_gatedAccept hr rfl (safErrRead_fits _ h)
  · rintro s c d buf hr rfl h
    exact exec_of_gatedAccept hr rfl (safErrRead_short _ h)
  · rintro s c d mask hr rfl ⟨pos, lt, idle⟩
    exact exec_of_gatedAccept hr rfl (safProof_starts ⟨pos, lt⟩ idle)
  · rintro s c d mask hr rfl ⟨lt, runs⟩
    exact exec_of_gatedAccept hr rfl (safProof_busy lt runs)
  · rintro s c d confirm hr rfl other
    exact exec_of_gatedAccept hr rfl (safForce_other _ other)
  · rintro s c d rfl ⟨hr, free, hroom, hnone⟩
    have fetches := fetch_only (later s.dev 0) c.ring (fun _ => False)
    have level : initialLevel eForced = 3 := by decide
    obtain ⟨safe, cause, why, pins, states, sessions⟩ :=
      raise_fatal_enters (d := fetched s.dev c.ring) level hnone hroom ((only_bit fetches not_false).trans free) noIndex 0xFF sOk
    obtain ⟨frame, -, -⟩ := raise_fatal_effect (d := fetched s.dev c.ring) level hnone noIndex 0xFF sOk
    have row := exec_of_gatedAccept (i := .safForce c 0x53414645) (f := safForce 0x53414645) hr rfl (safForce_confirmed _)
    obtain ⟨accepted, -⟩ := hr
    simp only [Dev.accepts, Bool.and_eq_true] at accepted
    obtain ⟨runs, ready⟩ := offers_runs accepted.1
    have session : ((fetched s.dev c.ring).ring c.ring).session = (s.dev.ring c.ring).session := session_fetch (later s.dev 0) c.ring
    have state : (fetched s.dev c.ring).fld (Fld.HIF_RINGn_STAT_STATE c.ring) = 1 := (only_fld fetches not_false).trans (state_of_runs runs)
    have host : (fetched s.dev c.ring).hostReady = true := ready
    have levels : (fetched s.dev c.ring).safePins = (later s.dev 0).safePins := safePins_of_only fetches fun _ _ => id
    generalize fetched s.dev c.ring = y at safe cause why pins states sessions frame row session state host levels
    generalize y.raise eForced noIndex 0xFF sOk = x at safe cause why pins states sessions frame row
    have apart : ¬ fatalReg Reg.HIF_STATUS := by
      rintro (h | h | h)
      · exact absurd (entryOrCauseReg_range h) (by decide)
      · exact absurd h (by decide)
      · exact absurd h (by decide)
    have answered := complete_rings x c.ring (s.dev.ring c.ring).next (s.dev.ring c.ring).session sOk 0 0 []
    have ring {o : Nat} (h : o % 32 ≠ 20 ∧ o % 32 ≠ 24 ∧ o ≠ 0x031000 ∧ o ≠ 0x031004) : ¬ anyRingReg o := by
      simp only [anyRingReg, Reg.HIF_RINGn_DONE, Reg.HIF_RINGn_STAT]
      rintro (⟨n, h | h⟩ | h | h) <;> omega
    have told := complete_mem_out (x := x) ((sessions.same c.ring).trans session) ((states c.ring).trans state)
      ((congrArg not (only_bit frame apart)).trans host) (k := (s.dev.ring c.ring).next) sOk 0
    exact ⟨_, row, rfl, rfl, told, (only_bit answered (ring (by decide))).trans safe, (only_fld answered (ring (by decide))).trans cause,
      (only_fld answered (ring (by decide))).trans why, (only_fld answered (ring (by decide))).trans (pins.trans levels)⟩

end Sys2Proof.Machine
end

section
/-! What Sinter makes of an event, case by case (R499, R501 to R503, R509). -/

namespace Sys2Proof.Machine

open Sys2Proof

theorem only_snt {l : List Part} {p : Nat → Prop} {d t : Dev} (h : only l p d t) (hl : Part.snt ∉ l) : t.snt = d.snt := by
  obtain ⟨⟨-, -, -, -, -, -, -, -, -, -, -, -, -, -, -, snt, -⟩, -⟩ := h
  exact snt hl

theorem modSnt_only (d : Dev) (f : SntSt → SntSt) (p : Nat → Prop) : only [.snt] p d (d.modSnt f) :=
  only_of_kept (by simp [keptBut, Dev.modSnt]) rfl

/-- The record that an event makes, numbered `seq`. -/
def Dev.recordOf (d : Dev) (seq code sev status index arg : Nat) : SntRec :=
  { seq := seq, code := code, severity := sev, timeSuspect := d.timeSuspect, status := status, index := index, timeUs := d.gUs, opSec := d.opSec,
    powerCycles := d.snt.powerCycles, arg := arg % 2 ^ 32 }

/-- The next SEQ is taken, now. -/
def Dev.takesNumber (d : Dev) : Dev := { d with snt := { d.snt with nextSeq := d.snt.nextSeq + 1, headAt := some d.up } }

section Sinter

variable {d : Dev} {code sev status index arg : Nat}

/-- A recorder that runs on sound memory adds a record that does not fold. -/
theorem sinter_adds (running : d.bit Fld.SNT_STATUS_RUNNING = true) (kept : d.fld Fld.SNT_CFG_MIN_SEV ≤ sev)
    (numbers : (d.bit Fld.SNT_STATUS_MEM_FAIL && decide (d.snt.lastCommitted + 2 ^ 24 < d.snt.nextSeq)) = false)
    (new : d.snt.newest.any (d.folds code sev status index) = false) : d.sinter code sev status index arg
      = d.takesNumber.shadowAdd (d.recordOf d.snt.nextSeq code sev status index arg) := by
  unfold Dev.sinter
  simp only [if_neg (Nat.not_lt.mpr kept), running, numbers, Bool.not_true, Bool.false_eq_true, if_false]
  split
  next r newest =>
    rw [newest] at new
    rw [if_neg (by simpa using new)]
    rfl
  next => rfl

theorem sinter_folds {r : SntRec} (running : d.bit Fld.SNT_STATUS_RUNNING = true) (kept : d.fld Fld.SNT_CFG_MIN_SEV ≤ sev)
    (numbers : (d.bit Fld.SNT_STATUS_MEM_FAIL && decide (d.snt.lastCommitted + 2 ^ 24 < d.snt.nextSeq)) = false)
    (newest : d.snt.newest = some r) (folds : d.folds code sev status index r = true) : d.sinter code sev status index arg
      = ({ d with snt := { d.snt with shadow := foldInto r.seq d.snt.shadow, log := foldInto r.seq d.snt.log, headAt := some d.up } }).count
        Reg.SNT_FOLDED := by
  unfold Dev.sinter
  simp only [if_neg (Nat.not_lt.mpr kept), running, numbers, Bool.not_true, Bool.false_eq_true, if_false, newest, if_pos folds]

theorem sinter_waits (stopped : d.bit Fld.SNT_STATUS_RUNNING = false) (kept : d.fld Fld.SNT_CFG_MIN_SEV ≤ sev) :
    d.sinter code sev status index arg = d.waitAdd (d.recordOf 0 code sev status index arg) := by
  unfold Dev.sinter
  simp only [if_neg (Nat.not_lt.mpr kept), stopped, Bool.not_false, if_true]
  rfl

end Sinter

/-! ## The shadow (R502) -/

section Shadow

variable {d : Dev} (r : SntRec)

theorem shadowAdd_room (room : d.snt.shadow.length < 512) : d.shadowAdd r = { d with snt := { d.snt with shadow := d.snt.shadow ++ [r] } } := if_pos room

theorem shadowAdd_over {v : SntRec} (full : 512 ≤ d.snt.shadow.length) (victim : victimOf r.severity d.snt.firstFailSeq.toList d.snt.shadow = some v)
    (sound : d.bit Fld.SNT_STATUS_MEM_FAIL = false) :
    d.shadowAdd r = ({ d with snt := { d.snt with shadow := dropSeq v.seq d.snt.shadow ++ [r] } }).count Reg.SNT_OVERWRITTEN := by
  unfold Dev.shadowAdd
  rw [if_neg (Nat.not_lt.mpr full), victim]
  simp only [sound, Bool.false_eq_true, if_false]

theorem shadowAdd_discards (full : 512 ≤ d.snt.shadow.length) (none_found : victimOf r.severity d.snt.firstFailSeq.toList d.snt.shadow = none) :
    d.shadowAdd r = d.count Reg.SNT_DISCARDED := by
  unfold Dev.shadowAdd
  rw [if_neg (Nat.not_lt.mpr full), none_found]

theorem waitAdd_room (room : d.snt.waiting.length + d.snt.shadow.length < 512) :
    d.waitAdd r = { d with snt := { d.snt with waiting := d.snt.waiting ++ [r] } } := if_pos room

theorem shadowAdd_keepsLog (d : Dev) : (d.shadowAdd r).snt.log = d.snt.log := by
  unfold Dev.shadowAdd
  split
  · rfl
  · split
    · rfl
    · dsimp only
      split <;> rfl

theorem waitAdd_keepsLog (d : Dev) : (d.waitAdd r).snt.log = d.snt.log := by
  unfold Dev.waitAdd
  dsimp only
  split
  · rfl
  · split <;> rfl

end Shadow

/-- An event leaves the records in MRAM, but for the REPEAT of one into which it folds. -/
theorem sinter_keepsLog (d : Dev) (code sev status index arg : Nat) : (d.sinter code sev status index arg).snt.log = d.snt.log
    ∨ ∃ seq, (d.sinter code sev status index arg).snt.log = foldInto seq d.snt.log := by
  unfold Dev.sinter
  dsimp only
  split
  · exact .inl rfl
  · split
    · exact .inl (waitAdd_keepsLog _ _)
    · split
      · exact .inl rfl
      · split
        · split
          · exact .inr ⟨_, rfl⟩
          · exact .inl (shadowAdd_keepsLog _ _)
        · exact .inl (shadowAdd_keepsLog _ _)

/-- What a fold does not move in the records is what it was. -/
theorem map_foldInto {α : Type} {f : SntRec → α} (hf : ∀ r n, f { r with repeats := n } = f r) (seq : Nat) (l : List SntRec) :
    (foldInto seq l).map f = l.map f := by
  rw [foldInto, List.map_map]
  refine List.map_congr_left fun r _ => ?_
  dsimp only [Function.comp]
  split
  · exact hf r _
  · rfl

/-! ## The event as a whole (R465, R511) -/

theorem eventRecord_lost (d : Dev) (mk : Nat → Bytes) (g : Bool) :
    only [.regs, .hif] (fun o => signalReg o ∨ o = Reg.HIF_EVT_LOST) d (d.eventRecord mk g) := by
  unfold Dev.eventRecord
  simp only
  exact only_trans (b := { d with hif := { d.hif with eventSeq := (d.hif.eventSeq + 1) % 2 ^ 32 } }) (only_of_kept (by simp [keptBut]) rfl)
    (enqueue_only _ 8 4096 Reg.HIF_EVT_LOST _)

/-- After the log an event moves the event ring alone. -/
theorem event_afterLog (d : Dev) {e : Ev} (logged : e.row.2.2.2 = true) (index arg0 arg1 status : Nat) :
    only [.regs, .hif] (fun o => signalReg o ∨ o = Reg.HIF_EVT_LOST) (d.sinter e.row.1 e.row.2.1 status index arg0)
      (d.event e index arg0 arg1 status) := by
  unfold Dev.event
  simp only [logged, if_true]
  exact only_ite (eventRecord_lost _ _ _) (only_refl _ _ _)

theorem event_keepsLog (d : Dev) (e : Ev) (index arg0 arg1 status : Nat) : (d.event e index arg0 arg1 status).snt.log = d.snt.log
    ∨ ∃ seq, (d.event e index arg0 arg1 status).snt.log = foldInto seq d.snt.log := by
  cases logged : e.row.2.2.2 with
  | true =>
    have snt := only_snt (event_afterLog d logged index arg0 arg1 status) (by simp)
    rw [snt]
    exact sinter_keepsLog d _ _ _ _ _
  | false =>
    have unlogged : (d.event e index arg0 arg1 status).snt = d.snt := by
      unfold Dev.event
      simp only [logged, Bool.false_eq_true, if_false]
      split
      · exact only_snt (eventRecord_lost _ _ _) (by simp)
      · rfl
    rw [unlogged]
    exact .inl rfl

/-- A counter of the log is not moved by the event ring. -/
theorem not_lostReg {o : Nat} (h : logReg o) : ¬ (signalReg o ∨ o = Reg.HIF_EVT_LOST) := by
  have range : ∀ o, logReg o → 0x031004 < o ∧ o ≠ Reg.HIF_EVT_LOST := by unfold logReg; decide
  obtain ⟨above, apart⟩ := range o h
  exact not_or.mpr ⟨not_signalReg (.inr above), apart⟩

end Sys2Proof.Machine
end

section
/-! The rows of Sinter's events (R500, R502, R503, R506, R507, R509, R510). -/

namespace Sys2Proof.Machine

open Sys2Proof

/-! ## SINTER_RAISE -/

section Raise

variable {d : Dev} {e : Ev} {code status index arg0 arg1 : Nat}

/-- The device after the log has taken the event that SINTER_RAISE raises. -/
def Dev.logs (d : Dev) (e : Ev) (code status index arg0 : Nat) : Dev := d.sinter code e.row.2.1 (status % 256) (index % 65536) arg0

theorem exec_sinterRaise {s : State} {dt : Nat} (found : allEvents.find? (fun x => decide (x.row.1 = code) && x.row.2.2.2) = some e) :
    ∃ t, exec (.sinterRaise dt code status index arg0 arg1) s = .next t ∧ moves s dt [.regs, .hif, .snt] eventReg t
      ∧ only [.regs, .hif] (fun o => signalReg o ∨ o = Reg.HIF_EVT_LOST) ((later s.dev dt).logs e code status index arg0) t.dev := by
  have row := List.find?_some found
  simp only [Bool.and_eq_true, decide_eq_true_eq] at row
  obtain ⟨rfl, logged⟩ := row
  have raised : (match allEvents.find? (fun x => decide (x.row.1 = e.row.1) && x.row.2.2.2) with
      | some e => (later s.dev dt).event e (index % 65536) arg0 arg1 (status % 256)
      | none => later s.dev dt) = (later s.dev dt).event e (index % 65536) arg0 arg1 (status % 256) := by rw [found]
  exact exists_run_moves (f := fun _ d => match allEvents.find? (fun x => decide (x.row.1 = e.row.1) && x.row.2.2.2) with
      | some e => d.event e (index % 65536) arg0 arg1 (status % 256)
      | none => d) raised (event_only _ _ _ _ _ _) (event_afterLog _ logged _ _ _ _)

variable (running : d.bit Fld.SNT_STATUS_RUNNING = true) (sound : d.bit Fld.SNT_STATUS_MEM_FAIL = false) (kept : d.fld Fld.SNT_CFG_MIN_SEV ≤ e.row.2.1)

section Adds

variable (new : d.snt.newest.any (d.folds code e.row.2.1 (status % 256) (index % 65536)) = false)

include running sound kept new

theorem logs_adds : d.logs e code status index arg0
    = d.takesNumber.shadowAdd (d.recordOf d.snt.nextSeq code e.row.2.1 (status % 256) (index % 65536) arg0) :=
  sinter_adds running kept (by simp [sound]) new

theorem logs_room (room : d.snt.shadow.length < 512) : (d.logs e code status index arg0).snt.nextSeq = d.snt.nextSeq + 1
    ∧ (d.logs e code status index arg0).snt.shadow
      = d.snt.shadow ++ [d.recordOf d.snt.nextSeq code e.row.2.1 (status % 256) (index % 65536) arg0] := by
  rw [logs_adds running sound kept new, shadowAdd_room (d := d.takesNumber) _ room]
  exact ⟨rfl, rfl⟩

theorem logs_over {v : SntRec} (full : 512 ≤ d.snt.shadow.length)
    (victim : victimOf e.row.2.1 d.snt.firstFailSeq.toList d.snt.shadow = some v) :
    (d.logs e code status index arg0).snt.shadow.map (fun x => x.seq) = (dropSeq v.seq d.snt.shadow).map (fun x => x.seq) ++ [d.snt.nextSeq]
      ∧ (d.logs e code status index arg0).regN Reg.SNT_OVERWRITTEN = (d.regN Reg.SNT_OVERWRITTEN + 1) % 2 ^ 32
      ∧ (d.logs e code status index arg0).regN Reg.SNT_DISCARDED = d.regN Reg.SNT_DISCARDED := by
  rw [logs_adds running sound kept new, shadowAdd_over (d := d.takesNumber) _ full victim sound]
  refine ⟨List.map_append, ?_, ?_⟩
  · rw [regN_count, if_pos rfl]
    rfl
  · rw [regN_count, if_neg (by decide)]
    rfl

theorem logs_discards (full : 512 ≤ d.snt.shadow.length)
    (none_found : victimOf e.row.2.1 d.snt.firstFailSeq.toList d.snt.shadow = none) :
    (d.logs e code status index arg0).snt.shadow = d.snt.shadow
      ∧ (d.logs e code status index arg0).regN Reg.SNT_DISCARDED = (d.regN Reg.SNT_DISCARDED + 1) % 2 ^ 32
      ∧ (d.logs e code status index arg0).regN Reg.SNT_OVERWRITTEN = d.regN Reg.SNT_OVERWRITTEN := by
  rw [logs_adds running sound kept new, shadowAdd_discards (d := d.takesNumber) _ full none_found]
  refine ⟨rfl, ?_, ?_⟩
  · rw [regN_count, if_pos rfl]
    rfl
  · rw [regN_count, if_neg (by decide)]
    rfl

end Adds

include running sound kept in
theorem logs_folds {r : SntRec} (newest : d.snt.newest = some r) (folds : d.folds code e.row.2.1 (status % 256) (index % 65536) r = true) :
    (d.logs e code status index arg0).snt.nextSeq = d.snt.nextSeq
      ∧ (d.logs e code status index arg0).regN Reg.SNT_FOLDED = (d.regN Reg.SNT_FOLDED + 1) % 2 ^ 32
      ∧ (d.logs e code status index arg0).snt.shadow = foldInto r.seq d.snt.shadow
      ∧ (d.logs e code status index arg0).snt.log = foldInto r.seq d.snt.log := by
  rw [Dev.logs, sinter_folds running kept (by simp [sound]) newest folds]
  refine ⟨rfl, ?_, rfl, rfl⟩
  rw [regN_count, if_pos rfl]
  rfl

include kept in
theorem logs_waits (stopped : d.bit Fld.SNT_STATUS_RUNNING = false) (room : d.snt.waiting.length + d.snt.shadow.length < 512) :
    (d.logs e code status index arg0).snt.waiting = d.snt.waiting ++ [d.recordOf 0 code e.row.2.1 (status % 256) (index % 65536) arg0]
      ∧ (d.logs e code status index arg0).snt.shadow = d.snt.shadow ∧ (d.logs e code status index arg0).snt.nextSeq = d.snt.nextSeq := by
  rw [Dev.logs, sinter_waits stopped kept, waitAdd_room _ room]
  exact ⟨rfl, rfl, rfl⟩

end Raise

/-! ## Records and header in MRAM -/

section Writes

variable {d : Dev}

theorem writeRecord_room {r : SntRec} {n : Nat} (room : d.snt.log.length < sntCells) (hn : 3 ≤ n) : d.writeRecord r n
    = d.modSnt (fun s => { s with log := logInsert r s.log, shadow := dropSeq r.seq s.shadow, lastCommitted := max s.lastCommitted r.seq }) := by
  have some_write : n ≠ 0 := by omega
  unfold Dev.writeRecord
  simp only [decide_eq_false (Nat.not_le.mpr room), Bool.false_eq_true, if_false, Bool.false_and, if_neg (Nat.not_lt.mpr hn), if_neg some_write]

theorem writeRecord_short {r : SntRec} {n : Nat} (room : d.snt.log.length < sntCells) (hn : n < 3) : d.writeRecord r n = d := by
  unfold Dev.writeRecord
  simp only [decide_eq_false (Nat.not_le.mpr room), Bool.false_eq_true, if_false, Bool.false_and, if_pos hn]
  exact ite_self _

theorem recordWrite_short {n : Nat} (room : d.snt.log.length < sntCells) (hn : n < 3) : d.recordWrite n = d := by
  unfold Dev.recordWrite
  split
  · rw [writeRecord_short room hn]
    exact ite_self _
  · rfl

theorem writeHeader_only (d : Dev) (torn : Bool) (p : Nat → Prop) : only [.snt] p d (d.writeHeader torn) := modSnt_only _ _ _

theorem writeHeader_effect (d : Dev) (torn : Bool) : (d.writeHeader torn).snt.headerAt = d.up
    ∧ (d.writeHeader torn).snt.header2.ok = (!torn && d.snt.header.ok)
    ∧ (d.writeHeader torn).snt.header
      = (if torn then d.snt.header else { opSec := d.opSec, powerCycles := d.snt.powerCycles, clear := d.snt.header.clear }) := by
  cases torn <;> exact ⟨rfl, rfl, rfl⟩

/-- A record's cell moves counters of the log at most. -/
theorem writeRecord_log (d : Dev) (r : SntRec) (n : Nat) : only [.regs, .snt] logReg d (d.writeRecord r n) := by
  have snt (x : Dev) (f : SntSt → SntSt) : only [.regs, .snt] logReg x (x.modSnt f) := only_wider (modSnt_only x f _) (by simp)
  unfold Dev.writeRecord
  dsimp only
  refine only_ite (only_refl _ _ _) (only_ite (only_trans (snt _ _) (count_log _ (by simp [logReg]) _)) ?_)
  have onto : only [.regs, .snt] logReg d (match (if decide (sntCells ≤ d.snt.log.length) = true then victimOf r.severity [] d.snt.log else none) with
      | some v => (d.modSnt (fun s => { s with log := dropSeq v.seq s.log })).count Reg.SNT_OVERWRITTEN
      | none => d) := by
    split
    · exact only_trans (snt _ _) (count_log _ (by simp [logReg]) _)
    · exact only_refl _ _ _
  exact only_ite onto (only_trans onto (snt _ _))

end Writes

/-! ## Memory failure -/

section Memory

variable {d : Dev}

/-- MEM_FAIL is set and counted, and MRAM is to be probed. -/
def Dev.marksFailed (d : Dev) : Dev :=
  ((d.setBit Fld.SNT_STATUS_MEM_FAIL true).count Reg.SNT_MEM_FAILS).modSnt
    (fun s => { s with shadowLostNow := 0, probeAt := d.up, probeOk := false, firstFailSeq := none })

theorem memFailed_due (writes : d.sntWrites = true) : d.memFailed
    = (d.marksFailed.event .memFailed noIndex (d.marksFailed.regN Reg.SNT_MEM_FAILS)).modSnt
        (fun s => { s with firstFailSeq := s.newest.map (fun r => r.seq) }) := if_neg (by simp [writes])

theorem marksFailed_effect (d : Dev) : only [.regs, .snt] (fun o => o ∈ [Reg.SNT_STATUS, Reg.SNT_MEM_FAILS]) d d.marksFailed
    ∧ d.marksFailed.bit Fld.SNT_STATUS_MEM_FAIL = true ∧ d.marksFailed.regN Reg.SNT_MEM_FAILS = (d.regN Reg.SNT_MEM_FAILS + 1) % 2 ^ 32
    ∧ d.marksFailed.snt.log = d.snt.log := by
  have last := modSnt_only ((d.setBit Fld.SNT_STATUS_MEM_FAIL true).count Reg.SNT_MEM_FAILS)
    (fun s => { s with shadowLostNow := 0, probeAt := d.up, probeOk := false, firstFailSeq := none })
  have snt : d.marksFailed.snt = { d.snt with shadowLostNow := 0, probeAt := d.up, probeOk := false, firstFailSeq := none } := rfl
  refine ⟨only_trans (only_mono (by simp) (by rintro _ rfl; decide) (setBit_only d Fld.SNT_STATUS_MEM_FAIL true))
      (only_trans (only_mono (by simp) (by rintro _ rfl; decide) (count_only _ Reg.SNT_MEM_FAILS 1)) (only_wider (last _) (by simp))), ?_, ?_, ?_⟩
  · rw [Dev.marksFailed, only_bit (last (fun _ => False)) not_false, only_bit (count_only _ _ _) (by decide),
      Dev.bit_setBit_same _ _ _ (by decide) (by decide)]
  · rw [Dev.marksFailed, only_regN (last (fun _ => False)) not_false, regN_count, if_pos rfl,
      only_regN (setBit_only d Fld.SNT_STATUS_MEM_FAIL true) (by decide)]
  · rw [snt]

theorem event_keepsLogLength (x : Dev) (e : Ev) (index arg0 arg1 status : Nat) :
    (x.event e index arg0 arg1 status).snt.log.length = x.snt.log.length := by
  rcases event_keepsLog x e index arg0 arg1 status with same | ⟨seq, folded⟩
  · rw [same]
  · rw [folded, foldInto, List.length_map]

theorem memFailed_effect (writes : d.sntWrites = true) :
    only [.regs, .hif, .snt] (fun o => eventReg o ∨ o ∈ [Reg.SNT_STATUS, Reg.SNT_MEM_FAILS]) d d.memFailed
      ∧ d.memFailed.bit Fld.SNT_STATUS_MEM_FAIL = true ∧ d.memFailed.regN Reg.SNT_MEM_FAILS = (d.regN Reg.SNT_MEM_FAILS + 1) % 2 ^ 32
      ∧ d.memFailed.snt.log.length = d.snt.log.length := by
  obtain ⟨marked, shows, counted, log⟩ := marksFailed_effect d
  have told := event_only d.marksFailed .memFailed noIndex (d.marksFailed.regN Reg.SNT_MEM_FAILS) 0 sOk
  have last := modSnt_only (d.marksFailed.event .memFailed noIndex (d.marksFailed.regN Reg.SNT_MEM_FAILS))
    (fun s => { s with firstFailSeq := s.newest.map (fun r => r.seq) }) eventReg
  have kept (y : Dev) (f : SntSt → Option Nat) : (y.modSnt (fun s => { s with firstFailSeq := f s })).snt.log = y.snt.log := rfl
  have frame := only_trans told (only_wider last (by simp))
  rw [memFailed_due writes]
  refine ⟨only_trans (only_mono (by simp) (fun _ => .inr) marked) (only_mono (fun _ h => h) (fun _ => .inl) frame),
    (only_bit frame (not_eventReg (by decide))).trans shows, (only_regN frame (not_eventReg (by decide))).trans counted, ?_⟩
  rw [kept, event_keepsLogLength, log]

theorem memProbe_due (failed : d.bit Fld.SNT_STATUS_MEM_FAIL = true) (due : d.snt.probeAt + 1000000000 ≤ d.up) (ok : Bool) : d.memProbe ok
    = if ok then (d.modSnt (fun s => { s with probeAt := d.up, probeOk := ok })).writeHeader false
      else d.modSnt (fun s => { s with probeAt := d.up, probeOk := ok }) :=
  if_pos (by simp [failed, due])

/-- A shadow of one record is drained. -/
theorem memRestored_single {r : SntRec} (failed : d.bit Fld.SNT_STATUS_MEM_FAIL = true) (probed : d.snt.probeOk = true) (held : d.snt.shadow = [r])
    (room : d.snt.log.length < sntCells) :
    only [.regs, .hif, .snt] (fun o => eventReg o ∨ o ∈ [Reg.SNT_STATUS]) d d.memRestored ∧ d.memRestored.bit Fld.SNT_STATUS_MEM_FAIL = false
      ∧ d.memRestored.snt.log.map (fun x => (x.seq, x.fromShadow))
        = (logInsert { r with fromShadow := true } d.snt.log).map (fun x => (x.seq, x.fromShadow)) := by
  have same (l : List SntRec) (seq : Nat) : (foldInto seq l).map (fun x => (x.seq, x.fromShadow)) = l.map (fun x => (x.seq, x.fromShadow)) :=
    map_foldInto (f := fun x => (x.seq, x.fromShadow)) (fun _ _ => rfl) seq l
  have logged (x : Dev) (e : Ev) (i a : Nat) : (x.event e i a).snt.log.map (fun x => (x.seq, x.fromShadow))
      = x.snt.log.map (fun x => (x.seq, x.fromShadow)) := by
    rcases event_keepsLog x e i a 0 sOk with kept | ⟨seq, folded⟩
    · rw [kept]
    · rw [folded, same]
  unfold Dev.memRestored
  rw [if_pos (by simp [failed, probed])]
  simp only [held, List.foldl_cons, List.foldl_nil, writeRecord_room (r := { r with fromShadow := true }) room (Nat.le_refl 3), List.length_singleton]
  generalize hx : ((d.modSnt fun s => { s with
      log := logInsert { r with fromShadow := true } s.log, shadow := dropSeq r.seq s.shadow, lastCommitted := max s.lastCommitted r.seq }).setBit
        Fld.SNT_STATUS_MEM_FAIL false).modSnt (fun s => { s with probeOk := false, firstFailSeq := none, shadowLostNow := 0 }) = x
  have drained : only [.regs, .snt] (fun o => o ∈ [Reg.SNT_STATUS]) d x := by
    rw [← hx]
    exact only_trans (only_wider (modSnt_only _ _ _) (by simp)) (only_trans (only_mono (by simp) (by rintro _ rfl; decide) (setBit_only _ _ _))
      (only_wider (modSnt_only _ _ _) (by simp)))
  have shown : x.bit Fld.SNT_STATUS_MEM_FAIL = false := by
    rw [← hx]
    exact Dev.bit_setBit_same _ _ _ (by decide) (by decide)
  have log : x.snt.log = logInsert { r with fromShadow := true } d.snt.log := by
    rw [← hx]
    rfl
  have told (y : Dev) (e : Ev) (i a : Nat) := event_only y e i a 0 sOk
  have restored := told x .memRestored noIndex 1
  have seqs := logged x .memRestored noIndex 1
  generalize x.event .memRestored noIndex 1 = y at restored seqs
  have status : y.bit Fld.SNT_STATUS_MEM_FAIL = false := (only_bit restored (not_eventReg (by decide))).trans shown
  have frame : only [.regs, .hif, .snt] (fun o => eventReg o ∨ o ∈ [Reg.SNT_STATUS]) d y :=
    only_trans (only_mono (by simp) (fun _ => .inr) drained) (only_mono (fun _ h => h) (fun _ => .inl) restored)
  split
  · exact ⟨only_trans frame (only_mono (fun _ h => h) (fun _ => .inl) (told _ _ _ _)),
      (only_bit (told _ _ _ _) (not_eventReg (by decide))).trans status, (logged _ _ _ _).trans (by rw [seqs, log])⟩
  · exact ⟨frame, status, by rw [seqs, log]⟩

end Memory

end Sys2Proof.Machine
end

section
/-! Sinter's power fail and recorder start, and the statement about its events (O31). -/

namespace Sys2Proof.Machine

open Sys2Proof

/-! ## POWER_FAIL_WARNING (R510) -/

section PowerFail

variable {d : Dev}

/-- The last record and the header before the supplies fall, where MRAM takes them. -/
def Dev.writesLast (d : Dev) : Dev :=
  if d.bit Fld.SNT_STATUS_MEM_FAIL then d
  else (match d.snt.shadow.find? (fun (r : SntRec) => decide (r.code = 0x0F06)) with | some r => d.writeRecord r 3 | none => d).writeHeader false

theorem writesLast_log (d : Dev) : only [.regs, .snt] logReg d d.writesLast := by
  unfold Dev.writesLast
  refine only_ite (only_refl _ _ _) (only_trans ?_ (only_wider (writeHeader_only _ _ _) (by simp)))
  split
  · exact writeRecord_log _ _ _
  · exact only_refl _ _ _

theorem powerFailWarning_due (due : d.clk.pfw = true ∧ d.finalSaving = false ∧ d.bit Fld.SNT_STATUS_RUNNING = true
    ∧ d.bit Fld.SNT_STATUS_PFW_HOLD = false) :
    d.powerFailWarning = (d.event .powerFailWarning noIndex d.opSec).writesLast.setBit Fld.SNT_STATUS_PFW_HOLD true := by
  obtain ⟨pfw, saved, running, free⟩ := due
  exact if_pos (by simp [pfw, saved, running, free])

theorem powerFailWarning_effect (due : d.clk.pfw = true ∧ d.finalSaving = false ∧ d.bit Fld.SNT_STATUS_RUNNING = true
    ∧ d.bit Fld.SNT_STATUS_PFW_HOLD = false) :
    only [.regs, .hif, .snt] (fun o => eventReg o ∨ o ∈ [Reg.SNT_STATUS]) d d.powerFailWarning
      ∧ d.powerFailWarning.bit Fld.SNT_STATUS_PFW_HOLD = true ∧ d.powerFailWarning.sntWrites = false := by
  have told := event_only d .powerFailWarning noIndex d.opSec 0 sOk
  have written := writesLast_log (d.event .powerFailWarning noIndex d.opSec 0 sOk)
  rw [powerFailWarning_due due]
  generalize (d.event .powerFailWarning noIndex d.opSec 0 sOk).writesLast = x at written
  have holds : (x.setBit Fld.SNT_STATUS_PFW_HOLD true).bit Fld.SNT_STATUS_PFW_HOLD = true := Dev.bit_setBit_same _ _ _ (by decide) (by decide)
  refine ⟨only_trans (only_mono (fun _ h => h) (fun _ => .inl) told) (only_trans (only_mono (by simp) (fun _ h => .inl (eventReg_of_logReg h)) written)
    (only_mono (by simp) (by rintro _ rfl; exact .inr (by decide)) (setBit_only _ _ _))), holds, ?_⟩
  rw [Dev.sntWrites, holds]
  simp

end PowerFail

/-! ## RECORDER_STARTED (R499, R509) -/

section Start

variable {d : Dev}

/-- The power cycles that recorder start shows. -/
def Dev.startCycles (d : Dev) : Nat :=
  if d.snt.afterPowerOn then sat 65535 (d.snt.startHeader.powerCycles + 1) else d.snt.startHeader.powerCycles

/-- The recorder runs, with the header found and the SEQ of its first record. -/
def Dev.takesHeader (d : Dev) : Dev :=
  (d.modSnt (fun s => { s with
    header := { d.snt.startHeader with clear := d.snt.startHeader.clear, ok := true }
    opSec := s.opSec + d.snt.startHeader.opSec
    powerCycles := d.startCycles
    nextSeq := d.snt.log.foldl (fun m r => max m r.seq) 0 + 2 ^ 24
    lastCommitted := d.snt.log.foldl (fun m r => max m r.seq) 0
    waiting := []
    afterPowerOn := false })).setBit Fld.SNT_STATUS_RUNNING true

theorem takesHeader_only (d : Dev) : only [.regs, .snt] (fun o => o ∈ [Reg.SNT_STATUS]) d d.takesHeader :=
  only_trans (only_wider (modSnt_only _ _ _) (by simp)) (only_mono (by simp) (by rintro _ rfl; decide) (setBit_only _ Fld.SNT_STATUS_RUNNING true))

theorem recorderStart_quiet (stopped : d.bit Fld.SNT_STATUS_RUNNING = false) (none_waits : d.snt.waiting = []) (unclear : d.snt.startHeader.clear = none) :
    d.recorderStart = (d.takesHeader.event .recorderStarted noIndex d.startCycles).writeHeader false := by
  unfold Dev.recorderStart
  rw [if_neg (by simp [stopped])]
  simp only [none_waits, List.foldl_nil, unclear, Dev.takesHeader, Dev.startCycles]

/-- Recorder start's own event is numbered and logged. -/
theorem takesHeader_started (sev0 : d.fld Fld.SNT_CFG_MIN_SEV = 0) (empty : d.snt.shadow = []) (fresh : d.snt.headAt = none) (n : Nat) :
    (d.takesHeader.event .recorderStarted noIndex n).snt.shadow.map (fun x => (x.seq, x.code))
        = [(d.snt.log.foldl (fun m x => max m x.seq) 0 + 2 ^ 24, 0x0F05)]
      ∧ (d.takesHeader.event .recorderStarted noIndex n).snt.opSec = d.takesHeader.snt.opSec
      ∧ (d.takesHeader.event .recorderStarted noIndex n).snt.powerCycles = d.takesHeader.snt.powerCycles := by
  have status := takesHeader_only d
  have running : d.takesHeader.bit Fld.SNT_STATUS_RUNNING = true := Dev.bit_setBit_same _ _ _ (by decide) (by decide)
  have kept : d.takesHeader.fld Fld.SNT_CFG_MIN_SEV ≤ 0 := by rw [only_fld status (by decide), sev0]
  have shadow : d.takesHeader.snt.shadow = [] := empty
  have head : d.takesHeader.snt.headAt = none := fresh
  have next : d.takesHeader.snt.nextSeq = d.snt.log.foldl (fun m x => max m x.seq) 0 + 2 ^ 24 := rfl
  have committed : d.takesHeader.snt.lastCommitted = d.snt.log.foldl (fun m x => max m x.seq) 0 := rfl
  generalize d.takesHeader = x at running kept shadow head next committed ⊢
  have new : x.snt.newest.any (x.folds 0x0F05 0 sOk noIndex) = false := by
    have never (r : SntRec) : x.folds 0x0F05 0 sOk noIndex r = false := by simp [Dev.folds, head]
    cases x.snt.newest with
    | none => rfl
    | some r => exact never r
  have numbers : (x.bit Fld.SNT_STATUS_MEM_FAIL && decide (x.snt.lastCommitted + 2 ^ 24 < x.snt.nextSeq)) = false := by
    rw [next, committed]
    simp
  have logged := only_snt (event_afterLog x (e := .recorderStarted) rfl noIndex n 0 sOk) (by simp)
  have adds := (sinter_adds (arg := n) running kept numbers new).trans (shadowAdd_room (d := x.takesNumber) _ (by rw [Dev.takesNumber, shadow]; decide))
  have made : (x.event .recorderStarted noIndex n).snt
      = { x.takesNumber.snt with shadow := x.takesNumber.snt.shadow ++ [x.recordOf x.snt.nextSeq 0x0F05 0 sOk noIndex n] } :=
    logged.trans (congrArg Dev.snt adds)
  rw [made, ← next]
  refine ⟨?_, rfl, rfl⟩
  rw [Dev.takesNumber, shadow]
  rfl

theorem recorderStart_effect (stopped : d.bit Fld.SNT_STATUS_RUNNING = false ∧ d.fld Fld.SNT_CFG_MIN_SEV = 0) (quiet : d.snt.waiting = []
    ∧ d.snt.shadow = [] ∧ d.snt.headAt = none ∧ d.snt.startHeader.clear = none) :
    only [.regs, .hif, .snt] (fun o => eventReg o ∨ o ∈ [Reg.SNT_STATUS]) d d.recorderStart ∧ d.recorderStart.bit Fld.SNT_STATUS_RUNNING = true
      ∧ d.recorderStart.snt.powerCycles
        = (if d.snt.afterPowerOn then min 65535 (d.snt.startHeader.powerCycles + 1) else d.snt.startHeader.powerCycles)
      ∧ d.recorderStart.snt.shadow.map (fun x => (x.seq, x.code)) = [(d.snt.log.foldl (fun m x => max m x.seq) 0 + 2 ^ 24, 0x0F05)]
      ∧ d.recorderStart.snt.opSec = d.snt.opSec + d.snt.startHeader.opSec := by
  obtain ⟨stopped, sev0⟩ := stopped
  obtain ⟨none_waits, empty, fresh, unclear⟩ := quiet
  obtain ⟨shadow, opSec, cycles⟩ := takesHeader_started sev0 empty fresh d.startCycles
  have status := takesHeader_only d
  have running : d.takesHeader.bit Fld.SNT_STATUS_RUNNING = true := Dev.bit_setBit_same _ _ _ (by decide) (by decide)
  have counted : d.takesHeader.snt.powerCycles
      = (if d.snt.afterPowerOn then min 65535 (d.snt.startHeader.powerCycles + 1) else d.snt.startHeader.powerCycles) := rfl
  have seconds : d.takesHeader.snt.opSec = d.snt.opSec + d.snt.startHeader.opSec := rfl
  have told := event_only d.takesHeader .recorderStarted noIndex d.startCycles 0 sOk
  rw [recorderStart_quiet stopped none_waits unclear]
  generalize d.takesHeader.event .recorderStarted noIndex d.startCycles = x at shadow opSec cycles told
  have header := writeHeader_only x false
  have kept : (x.writeHeader false).snt.powerCycles = x.snt.powerCycles ∧ (x.writeHeader false).snt.shadow = x.snt.shadow
      ∧ (x.writeHeader false).snt.opSec = x.snt.opSec := ⟨rfl, rfl, rfl⟩
  refine ⟨only_trans (only_mono (by simp) (fun _ => .inr) status) (only_trans (only_mono (fun _ h => h) (fun _ => .inl) told)
    (only_wider (header _) (by simp))), ?_, ?_, ?_, ?_⟩
  · rw [only_bit (header (fun _ => False)) not_false, only_bit told (not_eventReg (by decide)), running]
  · rw [kept.1, cycles, counted]
  · rw [kept.2.1, shadow]
  · rw [kept.2.2, opSec, seconds]

theorem recorderStep_effect (due : d.clk.imageLoaded = true ∧ d.bit Fld.CLK_STATUS_RESCUE = false ∧ d.bit Fld.SNT_STATUS_RUNNING = false
    ∧ d.fld Fld.SNT_CFG_MIN_SEV = 0) (quiet : d.snt.waiting = [] ∧ d.snt.shadow = [] ∧ d.snt.headAt = none ∧ d.snt.startHeader.clear = none) :
    only [.regs, .hif, .snt, .clk] (fun o => eventReg o ∨ o ∈ [Reg.SNT_STATUS, Reg.RST_STATUS]) d d.recorderStep
      ∧ d.recorderStep.bit Fld.SNT_STATUS_RUNNING = true
      ∧ d.recorderStep.snt.powerCycles
        = (if d.snt.afterPowerOn then min 65535 (d.snt.startHeader.powerCycles + 1) else d.snt.startHeader.powerCycles)
      ∧ d.recorderStep.snt.shadow.map (fun x => (x.seq, x.code)) = [(d.snt.log.foldl (fun m x => max m x.seq) 0 + 2 ^ 24, 0x0F05)]
      ∧ d.recorderStep.snt.opSec = d.snt.opSec + d.snt.startHeader.opSec := by
  obtain ⟨loaded, running, stopped, sev0⟩ := due
  obtain ⟨frame, runs, effect⟩ := recorderStart_effect ⟨stopped, sev0⟩ quiet
  have starts : d.recorderStep = d.recorderStart.showStep := if_pos (by simp [loaded, running])
  rw [starts]
  generalize d.recorderStart = x at frame runs effect
  have stepped := showStep_only x
  refine ⟨only_trans (only_mono (by simp) ?_ frame) (only_mono (by simp) ?_ stepped), (only_bit stepped (by decide)).trans runs, ?_⟩
  · rintro o (h | h)
    · exact .inl h
    · exact .inr (by simp only [List.mem_cons, List.not_mem_nil, or_false] at h ⊢; exact .inl h)
  · rintro o rfl
    exact .inr (by decide)
  · rw [only_snt stepped (by simp)]
    exact effect

end Start

/-- Settles O31: an event is added, folded, put in the place of a victim, discarded or held as Sinter's state says; the rows of its memory write,
mark and drain the log. -/
theorem sinterEventsTakeEffect : Obligations.SinterEventsTakeEffect := by
  unfold Obligations.SinterEventsTakeEffect
  refine ⟨?_, ?_, ?_, ?_, ?_, ?_, ?_, ?_, ?_, ?_, ?_, ?_, ?_, ?_⟩
  · rintro s dt code status index arg0 arg1 d e rfl found ⟨running, sound, kept, room⟩ new
    obtain ⟨t, step, frame, ring⟩ := exec_sinterRaise (s := s) (dt := dt) (status := status) (index := index) (arg0 := arg0) (arg1 := arg1) found
    obtain ⟨next, shadow⟩ := logs_room (arg0 := arg0) running sound kept new room
    rw [← only_snt ring (by simp)] at next shadow
    exact ⟨t, step, frame, next, shadow⟩
  · rintro s dt code status index arg0 arg1 d e r rfl found ⟨running, sound, kept⟩ ⟨newest, folds⟩
    obtain ⟨t, step, frame, ring⟩ := exec_sinterRaise (s := s) (dt := dt) (status := status) (index := index) (arg0 := arg0) (arg1 := arg1) found
    obtain ⟨next, folded, shadow, log⟩ := logs_folds (arg0 := arg0) running sound kept newest folds
    rw [← only_snt ring (by simp)] at next shadow log
    rw [← only_regN ring (not_lostReg (by simp [logReg]))] at folded
    exact ⟨t, step, frame, next, folded, shadow, log⟩
  · rintro s dt code status index arg0 arg1 d e v rfl found ⟨running, sound, kept, full⟩ ⟨new, victim⟩
    obtain ⟨t, step, frame, ring⟩ := exec_sinterRaise (s := s) (dt := dt) (status := status) (index := index) (arg0 := arg0) (arg1 := arg1) found
    obtain ⟨shadow, replaced, discarded⟩ := logs_over (arg0 := arg0) running sound kept new full victim
    rw [← only_snt ring (by simp)] at shadow
    rw [← only_regN ring (not_lostReg (by simp [logReg]))] at replaced discarded
    exact ⟨t, step, frame, shadow, replaced, discarded⟩
  · rintro s dt code status index arg0 arg1 d e rfl found ⟨running, sound, kept, full⟩ ⟨new, none_found⟩
    obtain ⟨t, step, frame, ring⟩ := exec_sinterRaise (s := s) (dt := dt) (status := status) (index := index) (arg0 := arg0) (arg1 := arg1) found
    obtain ⟨shadow, discarded, replaced⟩ := logs_discards (arg0 := arg0) running sound kept new full none_found
    rw [← only_snt ring (by simp)] at shadow
    rw [← only_regN ring (not_lostReg (by simp [logReg]))] at replaced discarded
    exact ⟨t, step, frame, shadow, discarded, replaced⟩
  · rintro s dt code status index arg0 arg1 d e rfl found ⟨stopped, kept, room⟩
    obtain ⟨t, step, frame, ring⟩ := exec_sinterRaise (s := s) (dt := dt) (status := status) (index := index) (arg0 := arg0) (arg1 := arg1) found
    obtain ⟨waiting, shadow, next⟩ := logs_waits (code := code) (status := status) (index := index) (arg0 := arg0) kept stopped room
    rw [← only_snt ring (by simp)] at waiting shadow next
    refine ⟨t, step, frame, ?_, ?_, shadow, next⟩
    · rw [waiting, List.length_append, List.length_singleton]
    · rw [waiting, List.getLast?_concat]
      rfl
  · rintro s dt n d r rest rfl ⟨writes, held, hn, room⟩
    have written : (later s.dev dt).recordWrite n = (later s.dev dt).modSnt (fun s =>
        { s with log := logInsert r s.log, shadow := dropSeq r.seq s.shadow, lastCommitted := max s.lastCommitted r.seq }) := by
      rw [Dev.recordWrite, held]
      exact (if_pos writes).trans (writeRecord_room room hn)
    exact exists_run_moves (f := fun _ d => d.recordWrite n) written (modSnt_only _ _ _) ⟨rfl, rfl⟩
  · rintro s dt n d rfl ⟨hn, room⟩
    exact exists_run_moves (f := fun _ d => d.recordWrite n) (recordWrite_short room hn) (only_refl _ _ _) rfl
  · rintro s dt torn d rfl ⟨writes, due⟩
    have written : (if (later s.dev dt).headerDue then (later s.dev dt).writeHeader torn else later s.dev dt) = (later s.dev dt).writeHeader torn :=
      if_pos (by simp [Dev.headerDue, writes, due])
    exact exists_run_moves (f := fun _ d => if d.headerDue then d.writeHeader torn else d) written (writeHeader_only _ _ _) (writeHeader_effect _ _)
  · rintro s dt d rfl writes
    obtain ⟨frame, effect⟩ := memFailed_effect writes
    exact exists_run_moves (f := fun _ d => d.memFailed) rfl frame effect
  · rintro s dt d rfl ⟨failed, due⟩
    exact exists_run_moves (f := fun _ d => d.memProbe false) (memProbe_due failed due false) (modSnt_only _ _ _) rfl
  · rintro s dt d rfl ⟨failed, due⟩
    exact exists_run_moves (f := fun _ d => d.memProbe true) (memProbe_due failed due true)
      (only_trans (modSnt_only _ _ _) (writeHeader_only _ _ _)) ⟨rfl, rfl, rfl, rfl⟩
  · rintro s dt d r rfl ⟨failed, probed, held, room⟩
    obtain ⟨frame, effect⟩ := memRestored_single failed probed held room
    exact exists_run_moves (f := fun _ d => d.memRestored) rfl frame effect
  · rintro s dt d rfl due
    obtain ⟨frame, effect⟩ := powerFailWarning_effect due
    exact exists_run_moves (f := fun _ d => d.powerFailWarning) rfl frame effect
  · rintro s dt d rfl due quiet
    obtain ⟨frame, effect⟩ := recorderStep_effect due quiet
    exact exists_run_moves (f := fun _ d => d.recorderStep) rfl frame effect

end Sys2Proof.Machine
end

section
/-! What the rings' work keeps for the host: messages once sent, the commands that wait, and the completions held back in D3hot. -/

namespace Sys2Proof.Machine

open Sys2Proof

/-! ## The relation -/

/-- Nothing sent is taken back, and the commands that wait and the completions held back are the same. -/
structure Dev.hostKept (d t : Dev) : Prop where
  sent : d.out ⊆ t.out
  waits : t.hif.waiting = d.hif.waiting
  held : t.hif.heldDone = d.hif.heldDone

theorem hostKept_refl (d : Dev) : d.hostKept d := ⟨List.Subset.refl _, rfl, rfl⟩

theorem hostKept_trans {a b c : Dev} (h : a.hostKept b) (k : b.hostKept c) : a.hostKept c :=
  ⟨List.Subset.trans h.sent k.sent, k.waits.trans h.waits, k.held.trans h.held⟩

theorem hostKept_ite {c : Prop} [Decidable c] {d a b : Dev} (h : d.hostKept a) (k : d.hostKept b) : d.hostKept (if c then a else b) := by
  split
  · exact h
  · exact k

theorem hostKept_of_hif {d t : Dev} (sent : d.out ⊆ t.out) (h : t.hif = d.hif) : d.hostKept t := ⟨sent, by rw [h], by rw [h]⟩

theorem hostKept_setReg (d : Dev) (o : Nat) (v : Word) : d.hostKept (d.setReg o v) := hostKept_of_hif (List.Subset.refl _) rfl

theorem hostKept_setRing (d : Dev) (n : Nat) (r : RingSt) : d.hostKept (d.setRing n r) := ⟨List.Subset.refl _, rfl, rfl⟩

theorem hostKept_emit (d : Dev) (o : Out) : d.hostKept (d.emit o) := hostKept_of_hif (List.subset_append_left _ _) rfl

theorem hostKept_setRingQ (d : Dev) (kind : Nat) (q : List RingRec) : d.hostKept (d.setRingQ kind q) := by
  unfold Dev.setRingQ
  repeat' split
  all_goals exact ⟨List.Subset.refl _, rfl, rfl⟩

theorem hostKept_lossMarks (d : Dev) (m : Nat) : d.hostKept { d with hif := { d.hif with lossMarks := m } } :=
  ⟨List.Subset.refl _, rfl, rfl⟩

/-! ## Messages and completed buffers -/

theorem hostKept_sendMsix (d : Dev) (v : Nat) : d.hostKept (d.sendMsix v) := hostKept_of_hif (sendMsix_out d v) (sendMsix_hif d v)

theorem hostKept_judgeSignal (d : Dev) (n : Nat) (b : Bool) : d.hostKept (d.judgeSignal n b) := by
  unfold Dev.judgeSignal
  simp only
  exact hostKept_ite (hostKept_trans (hostKept_sendMsix _ _) (hostKept_trans (hostKept_setReg _ _ _) (hostKept_setRing _ _ _)))
    (hostKept_refl d)

theorem hostKept_countDone (d : Dev) (n : Nat) : d.hostKept (d.countDone n) := by
  unfold Dev.countDone
  exact hostKept_trans (hostKept_setReg _ _ _) (hostKept_trans (hostKept_setRing _ _ _) (hostKept_judgeSignal _ _ _))

/-- A ring written, an output, and a completion counted. -/
theorem hostKept_completed (d : Dev) (n : Nat) (r : RingSt) (o : Out) : d.hostKept (((d.setRing n r).emit o).countDone n) :=
  hostKept_trans (hostKept_setRing _ _ _) (hostKept_trans (hostKept_emit _ _) (hostKept_countDone _ n))

theorem hostKept_closeBuf (d : Dev) (n : Nat) (b : Bool) : d.hostKept (d.closeBuf n b) := by
  unfold Dev.closeBuf
  simp only
  split
  · exact hostKept_refl _
  · exact hostKept_completed _ _ _ _

/-! ## Records placed in buffers -/

theorem hostKept_openNext (n : Nat) (b : Bool) (kind : Nat) (l : List BufDesc) (d : Dev) : d.hostKept (Dev.openNext n b kind l d) := by
  induction l generalizing d with
  | nil => exact hostKept_refl _
  | cons x t ih =>
    simp only [Dev.openNext]
    split
    · refine hostKept_trans (hostKept_setRing d n { d.ring n with bufs := t, next := (d.ring n).next + 1 }) ?_
      generalize d.setRing n _ = y
      exact hostKept_trans (hostKept_setRing y n _) (hostKept_lossMarks _ _)
    · exact hostKept_trans (hostKept_completed d n { d.ring n with bufs := t, next := (d.ring n).next + 1 } _) (ih _)

theorem hostKept_dropBad (n : Nat) (l : List BufDesc) (d : Dev) : d.hostKept (Dev.dropBad n l d) := by
  induction l generalizing d with
  | nil => exact hostKept_refl _
  | cons x t ih =>
    simp only [Dev.dropBad]
    exact hostKept_ite (hostKept_refl _) (hostKept_trans (hostKept_completed _ _ _ _) (ih _))

theorem hostKept_fill (d : Dev) (n : Nat) (b : Bytes) (s : Option RingRec) : d.hostKept (d.fill n b s) := by
  unfold Dev.fill
  simp only
  split
  · exact hostKept_refl _
  · exact hostKept_trans (hostKept_emit d _) (hostKept_setRing _ _ _)

theorem hostKept_endGroup (d : Dev) (n : Nat) (b : Bool) : d.hostKept (d.endGroup n b) := by
  unfold Dev.endGroup
  exact hostKept_ite (hostKept_closeBuf _ _ _) (hostKept_refl _)

theorem hostKept_fillPart (d : Dev) (n : Nat) (b : Bytes) (g : Bool) (s : Option RingRec) : d.hostKept (d.fillPart n b g s) := by
  unfold Dev.fillPart
  simp only
  refine hostKept_trans (hostKept_fill d n (b.take (d.room n)) s) (hostKept_ite (hostKept_endGroup _ _ _) ?_)
  exact hostKept_trans (hostKept_closeBuf _ n true) (hostKept_setRing _ _ _)

theorem hostKept_continueRec (n kind fuel : Nat) (d : Dev) : d.hostKept (Dev.continueRec n kind fuel d) := by
  induction fuel generalizing d with
  | zero => exact hostKept_refl _
  | succ f ih =>
    simp only [Dev.continueRec]
    split
    · exact hostKept_refl _
    · refine hostKept_trans (hostKept_openNext n true kind (d.ring n).bufs d) (hostKept_ite (hostKept_refl _) ?_)
      exact hostKept_trans (hostKept_setRing _ _ _) (hostKept_trans (hostKept_fillPart _ _ _ _ _) (ih _))

theorem hostKept_place (n kind : Nat) (r : RingRec) (d : Dev) : d.hostKept (d.place n kind r).1 := by
  unfold Dev.place
  extract_lets d0 d1 d2
  have closed : d.hostKept d0 := hostKept_ite (hostKept_closeBuf d n false) (hostKept_refl d)
  have opened : d0.hostKept d1 := hostKept_ite (hostKept_refl d0) (hostKept_openNext n false kind (d0.ring n).bufs d0)
  refine hostKept_trans closed (hostKept_trans opened ?_)
  split
  · exact hostKept_refl _
  · exact hostKept_trans (hostKept_fillPart _ _ _ _ _) (hostKept_continueRec _ _ _ _)

theorem hostKept_placeAll (n kind : Nat) (l : List RingRec) (d : Dev) : d.hostKept (Dev.placeAll n kind l d).1 := by
  induction l generalizing d with
  | nil => exact hostKept_refl _
  | cons r t ih =>
    simp only [Dev.placeAll]
    have placed : d.hostKept (if (d.ring n).rest.isSome = true then (d, false) else d.place n kind r).1 := by
      split
      · exact hostKept_refl _
      · exact hostKept_place n kind r d
    generalize (if (d.ring n).rest.isSome = true then (d, false) else d.place n kind r) = p at placed ⊢
    split
    · exact hostKept_trans placed (hostKept_trans (hostKept_ite (hostKept_sendMsix _ _) (hostKept_refl _)) (ih _))
    · exact placed

theorem hostKept_pump (d : Dev) (kind : Nat) : d.hostKept (d.pump kind) := by
  unfold Dev.pump
  split
  · exact hostKept_refl _
  · rename_i n _
    refine hostKept_ite ?_ (hostKept_refl _)
    have waiting (x : Dev) (l : List RingRec) : x.hostKept ((Dev.placeAll n kind l x).1.setRingQ kind (Dev.placeAll n kind l x).2) :=
      hostKept_trans (hostKept_placeAll n kind l x) (hostKept_setRingQ _ _ _)
    refine hostKept_trans (hostKept_continueRec n kind ((d.ring n).bufs.length + 1) d) ?_
    exact hostKept_ite (hostKept_trans (waiting _ _) (hostKept_dropBad _ _ _)) (waiting _ _)

/-! ## Errors of a ring and their event -/

theorem hostKept_enqueue (d : Dev) (kind cap lostReg : Nat) (recs : List RingRec) : d.hostKept (d.enqueue kind cap lostReg recs) := by
  unfold Dev.enqueue
  extract_lets d1 q d2 h d3
  have pumped : d.hostKept d1 := hostKept_trans (hostKept_setRingQ d kind _) (hostKept_pump _ kind)
  have trimmed : d1.hostKept d3 := hostKept_trans (b := d2) (hostKept_trans (hostKept_setRingQ d1 kind q.1) (hostKept_setReg _ _ _))
    (hostKept_lossMarks _ _)
  exact hostKept_trans pumped (hostKept_ite (hostKept_refl _)
    (hostKept_trans trimmed (hostKept_ite (hostKept_sendMsix _ _) (hostKept_refl _))))

theorem hostKept_eventRecord (d : Dev) (mk : Nat → Bytes) (g : Bool) : d.hostKept (d.eventRecord mk g) := by
  have numbered : d.hostKept { d with hif := { d.hif with eventSeq := (d.hif.eventSeq + 1) % 2 ^ 32 } } := ⟨List.Subset.refl _, rfl, rfl⟩
  unfold Dev.eventRecord
  exact hostKept_trans numbered (hostKept_enqueue _ _ _ _ _)

theorem hostKept_haltRing (d : Dev) (n : Nat) : d.hostKept (d.haltRing n) := by
  unfold Dev.haltRing
  extract_lets r kind lossy d1 d2 was d3 stopped
  have cleared : d.hostKept d1 := hostKept_setRing _ _ _
  have requeued : d.hostKept d2 := by
    simp only [d2]
    split
    · exact cleared
    · exact hostKept_trans cleared (hostKept_setRingQ _ _ _)
  have marked : d.hostKept d3 := hostKept_ite (hostKept_trans requeued (hostKept_lossMarks _ _)) requeued
  have unstaged (x : Dev) : x.hostKept { x with hif := { x.hif with stages := [], snapPart := none } } := ⟨List.Subset.refl _, rfl, rfl⟩
  exact hostKept_ite (hostKept_trans marked (unstaged _)) marked

theorem hostKept_ringFails (d : Dev) (n code posted : Nat) : d.hostKept (d.ringFails n code posted) := by
  obtain ⟨mk, eq⟩ := ringFails_eq d n code posted
  have stopped : d.hostKept (d.ringError n code) := by
    unfold Dev.ringError
    exact hostKept_trans (hostKept_haltRing d n) (hostKept_trans (hostKept_setReg _ _ _)
      (hostKept_trans (hostKept_setReg _ _ _) (hostKept_sendMsix _ _)))
  rw [eq]
  exact hostKept_trans stopped (hostKept_eventRecord _ _ _)

theorem hostKept_readFails (d : Dev) (n : Nat) : d.hostKept (d.readFails n) := by
  have fresh : d.hostKept { d with fresh := d.fresh + 1 } := ⟨List.Subset.refl _, rfl, rfl⟩
  unfold Dev.readFails
  exact hostKept_trans fresh (hostKept_trans (hostKept_setReg _ _ _) (hostKept_ringFails _ _ _ _))

end Sys2Proof.Machine
end

section
/-! What the work of the snapshot ring moves and keeps (R463, R467, R469): Crater's waiting snapshots, HIF_SNAP_WHOLE and the registers of a
message or a completion. -/

namespace Sys2Proof.Machine

open Sys2Proof

/-! ## The relation -/

/-- A register that the work of the snapshot ring moves. -/
def snapReg (o : Nat) : Prop := signalReg o ∨ o = Reg.HIF_SNAP_WHOLE

/-- Only the snapshot ring's registers, the host interface and Crater move, and the host keeps what it was sent and what it is owed. -/
def hostMoves (d t : Dev) : Prop := only [.regs, .hif, .crt] snapReg d t ∧ d.hostKept t

theorem hostMoves_refl (d : Dev) : hostMoves d d := ⟨only_refl _ _ _, hostKept_refl d⟩

theorem hostMoves_trans {a b c : Dev} (h : hostMoves a b) (k : hostMoves b c) : hostMoves a c :=
  ⟨only_trans h.1 k.1, hostKept_trans h.2 k.2⟩

theorem hostMoves_ite {c : Prop} [Decidable c] {d a b : Dev} (h : hostMoves d a) (k : hostMoves d b) : hostMoves d (if c then a else b) := by
  split
  · exact h
  · exact k

theorem hostMoves_of_signal {d t : Dev} (h : only [.regs, .hif] signalReg d t) (k : d.hostKept t) : hostMoves d t :=
  ⟨only_mono (by simp) (fun _ => .inl) h, k⟩

theorem hostMoves_foldl {α : Type} {f : Dev → α → Dev} (h : ∀ x a, hostMoves x (f x a)) (l : List α) (d : Dev) : hostMoves d (l.foldl f d) :=
  foldl_keeps hostMoves_refl hostMoves_trans h l d

theorem hostMoves_emit (d : Dev) (o : Out) : hostMoves d (d.emit o) := hostMoves_of_signal (emit_only _ _ _) (hostKept_emit _ _)

theorem hostMoves_setRing (d : Dev) (n : Nat) (r : RingSt) : hostMoves d (d.setRing n r) :=
  hostMoves_of_signal (setRing_only _ _ _ _) (hostKept_setRing _ _ _)

theorem hostMoves_modHif {d : Dev} {f : HifSt → HifSt} (waits : (f d.hif).waiting = d.hif.waiting)
    (held : (f d.hif).heldDone = d.hif.heldDone) : hostMoves d (d.modHif f) :=
  hostMoves_of_signal (only_wider (modHif_only _ _ _) (by simp)) ⟨List.Subset.refl _, waits, held⟩

theorem hostMoves_countWhole (d : Dev) : hostMoves d (d.count Reg.HIF_SNAP_WHOLE) :=
  ⟨only_mono (by simp) (fun _ => .inr) (count_only _ _ _), hostKept_setReg _ _ _⟩

theorem hostMoves_popSnap (d : Dev) (e : Nat) : hostMoves d (d.popSnap e) := by
  unfold Dev.popSnap
  split
  · exact hostMoves_ite ⟨only_wider (modCrt_only _ _ _) (by simp), List.Subset.refl _, rfl, rfl⟩ (hostMoves_refl d)
  · exact hostMoves_refl d

/-! ## Claims (R469) -/

theorem hostMoves_emitAt (d : Dev) (bufs : List (Nat × BufDesc)) (off : Nat) (bytes : Bytes) : hostMoves d (d.emitAt bufs off bytes) :=
  hostMoves_foldl (fun x _ => hostMoves_emit x _) _ d

theorem hostMoves_emitRec (d : Dev) (s : StageSt) (r : Rec) : hostMoves d (d.emitRec s r) := by
  unfold Dev.emitRec
  split
  · exact hostMoves_emitAt _ _ _ _
  · exact hostMoves_refl d

theorem hostMoves_claim (d : Dev) (n e : Nat) (l : StageSt) : hostMoves d (d.claim n e l) := by
  unfold Dev.claim
  simp only
  split
  · exact hostMoves_refl d
  · exact hostMoves_trans (hostMoves_setRing d n _) (hostMoves_modHif rfl rfl)

theorem hostMoves_claimAgain (d : Dev) (n : Nat) (held : Tbl StageSt) : hostMoves d (d.claimAgain n held) := by
  unfold Dev.claimAgain
  refine hostMoves_foldl (fun x s => ?_) held d
  have claimed := hostMoves_claim x n s.1 s.2
  simp only
  split
  · exact hostMoves_trans claimed (hostMoves_foldl (fun y r => hostMoves_emitRec y _ _) _ _)
  · exact claimed

theorem hostMoves_releaseStages (d : Dev) : hostMoves d d.releaseStages := by
  unfold Dev.releaseStages
  split
  · exact hostMoves_modHif rfl rfl
  · exact hostMoves_trans (hostMoves_setRing d _ _) (hostMoves_modHif rfl rfl)

theorem hostMoves_aroundStages {f : Dev → Dev × Bool} (h : ∀ x, hostMoves x (f x).1) (d : Dev) (n e : Nat) :
    hostMoves d (d.aroundStages n e f).1 := by
  unfold Dev.aroundStages
  simp only
  split
  · exact h d
  · exact hostMoves_trans (hostMoves_releaseStages d) (hostMoves_trans (h _) (hostMoves_claimAgain _ _ _))

/-! ## Snapshots (R463, R467) -/

section Ring

variable {n : Nat} (hn : n < 32)

include hn

theorem hostMoves_countDone (d : Dev) : hostMoves d (d.countDone n) := hostMoves_of_signal (countDone_only _ hn) (hostKept_countDone _ _)

theorem hostMoves_dropBad (d : Dev) (l : List BufDesc) : hostMoves d (Dev.dropBad n l d) :=
  hostMoves_of_signal (dropBad_only hn _ _) (hostKept_dropBad _ _ _)

theorem hostMoves_snapDone (e total : Nat) (l : List (Nat × BufDesc)) (off : Nat) (d : Dev) :
    hostMoves d (Dev.snapDone n e total l off d) := by
  induction l generalizing off d with
  | nil => exact hostMoves_refl d
  | cons x t ih =>
    have told (o : Out) : hostMoves d ((d.emit o).countDone n) := hostMoves_trans (hostMoves_emit d o) (hostMoves_countDone hn _)
    unfold Dev.snapDone
    split
    · exact hostMoves_trans (told _) (ih _ _)
    · exact hostMoves_trans (told _) (hostMoves_trans (hostMoves_modHif rfl rfl) (ih _ _))

theorem hostMoves_writeWhole (fuel : Nat) (d : Dev) : hostMoves d (Dev.writeWhole n fuel d).1 := by
  induction fuel generalizing d with
  | zero => exact hostMoves_refl d
  | succ fuel ih =>
    unfold Dev.writeWhole
    split
    · exact hostMoves_refl d
    · rename_i p _
      have usable := hostMoves_dropBad hn d (d.ring n).bufs
      generalize Dev.dropBad n (d.ring n).bufs d = x at usable
      dsimp only
      split
      · exact usable
      · rename_i b t _
        have written : hostMoves x ((x.setRing n { x.ring n with bufs := t, next := (x.ring n).next + 1 }).emit
            (.hostWrite b.addr (p.rest.take b.len))) := hostMoves_trans (hostMoves_setRing _ _ _) (hostMoves_emit _ _)
        generalize (x.setRing n _).emit _ = y at written
        have done := hostMoves_snapDone hn p.epoch (p.off + p.rest.length) [((x.ring n).next, b)] p.off y
        generalize Dev.snapDone n p.epoch _ _ p.off y = z at done
        have begun := hostMoves_trans usable (hostMoves_trans written done)
        split
        · exact hostMoves_trans begun (hostMoves_trans (hostMoves_modHif rfl rfl) (hostMoves_countWhole _))
        · exact hostMoves_trans begun (hostMoves_trans (hostMoves_modHif rfl rfl) (ih _))

theorem hostMoves_startWhole (e : Nat) (bytes : Bytes) (d : Dev) : hostMoves d (Dev.startWhole n e bytes d).1 := by
  unfold Dev.startWhole
  exact hostMoves_trans (hostMoves_modHif rfl rfl) (hostMoves_writeWhole hn _ _)

theorem hostMoves_lostSnap (e : Nat) (d : Dev) : hostMoves d (Dev.lostSnap n e d).1 := by
  unfold Dev.lostSnap
  have usable := hostMoves_dropBad hn d (d.ring n).bufs
  generalize Dev.dropBad n (d.ring n).bufs d = x at usable
  dsimp only
  split
  · exact usable
  · exact hostMoves_trans usable (hostMoves_trans (hostMoves_setRing _ _ _)
      (hostMoves_trans (hostMoves_emit _ _) (hostMoves_countDone hn _)))

theorem hostMoves_finishStage (d : Dev) (e : Nat) (st : StageSt) (s : HistSnap) : hostMoves d (d.finishStage n e st s) := by
  unfold Dev.finishStage
  have records (x : Dev) (l : List (Nat × Rec)) : hostMoves x (l.foldl (fun (y : Dev) r => y.emitRec st r.2) x) :=
    hostMoves_foldl (fun y r => hostMoves_emitRec y _ _) l x
  exact hostMoves_trans (hostMoves_emitAt _ _ _ _) <| hostMoves_trans (hostMoves_emitAt _ _ _ _) <| hostMoves_trans (records _ _) <|
    hostMoves_trans (hostMoves_emitAt _ _ _ _) <| hostMoves_trans (hostMoves_modHif rfl rfl) (hostMoves_snapDone hn _ _ _ _ _)

theorem hostMoves_sendSnap (d : Dev) (e : Nat) (snap : Option HistSnap) (ended : Bool) : hostMoves d (d.sendSnap n e snap ended).1 := by
  have whole (x : Dev) (s : HistSnap) : hostMoves x (x.aroundStages n e (Dev.startWhole n e s.bytes)).1 :=
    hostMoves_aroundStages (hostMoves_startWhole hn e s.bytes) x n e
  unfold Dev.sendSnap
  split
  · exact hostMoves_aroundStages (hostMoves_lostSnap hn e) d n e
  · rename_i s
    split
    · exact whole d s
    · rename_i st _
      split
      · have first : hostMoves d (if d.claimFirst st = true then d else d.releaseStages.claimAgain n d.hif.stages) :=
          hostMoves_ite (hostMoves_refl d) (hostMoves_trans (hostMoves_releaseStages d) (hostMoves_claimAgain _ _ _))
        generalize (if d.claimFirst st = true then d else d.releaseStages.claimAgain n d.hif.stages) = x at first
        dsimp only
        split
        · exact hostMoves_trans first (hostMoves_finishStage hn _ _ _ _)
        · exact hostMoves_trans first (whole x s)
      · exact whole d s

end Ring

theorem hostMoves_pumpSnaps (fuel : Nat) (d : Dev) : hostMoves d (Dev.pumpSnaps fuel d) := by
  induction fuel generalizing d with
  | zero => exact hostMoves_refl d
  | succ fuel ih =>
    unfold Dev.pumpSnaps
    split
    · exact hostMoves_refl d
    · rename_i n ring
      have hn := ringOf_lt ring
      have goesOn {w : Dev × Bool} (e : Nat) (h : hostMoves d w.1) :
          hostMoves d (if w.2 = true then Dev.pumpSnaps fuel (w.1.popSnap e) else w.1) :=
        hostMoves_ite (hostMoves_trans h (hostMoves_trans (hostMoves_popSnap _ _) (ih _))) h
      refine hostMoves_ite (hostMoves_refl d) ?_
      split
      · exact goesOn _ (hostMoves_writeWhole hn _ d)
      · exact goesOn _ (hostMoves_sendSnap hn d _ _ _)
      · exact hostMoves_ite (hostMoves_dropBad hn d _) (hostMoves_refl d)

theorem hostMoves_pumpSnapRing (d : Dev) : hostMoves d d.pumpSnapRing := hostMoves_pumpSnaps _ d

theorem hostMoves_pump (d : Dev) (kind : Nat) : hostMoves d (d.pump kind) := hostMoves_of_signal (pump_only d kind) (hostKept_pump d kind)

/-! ## Messages that waited (R471) -/

theorem signalReg_pending {v : Nat} (h : v < 64) : signalReg (0x031000 + 4 * (v / 32)) := by
  have : v / 32 = 0 ∨ v / 32 = 1 := by omega
  rcases this with low | high
  · exact .inr (.inl (by rw [low]))
  · exact .inr (.inr (by rw [high]))

theorem hostMoves_sendPending (d : Dev) : hostMoves d d.sendPending := by
  unfold Dev.sendPending
  refine foldl_keeps_of_mem hostMoves_refl hostMoves_trans (fun x v hv => ?_) d
  have hv : v < 64 := List.mem_range.mp hv
  have cleared (w : Nat) : hostMoves x (x.setRegN (0x031000 + 4 * (v / 32)) w) :=
    hostMoves_of_signal (setReg_signal _ _ (signalReg_pending hv)) (hostKept_setReg _ _ _)
  have sent (y : Dev) : hostMoves y (y.sendMsix v) :=
    hostMoves_of_signal (only_wider (sendMsix_only y hv) (by simp)) (hostKept_sendMsix y v)
  exact hostMoves_ite (hostMoves_trans (cleared _) (sent _)) (hostMoves_refl x)

end Sys2Proof.Machine
end

section
/-! Descriptors that a COMMAND ring offers, and the commands that wait (R456, R459, R460). -/

namespace Sys2Proof.Machine

open Sys2Proof

/-! ## Descriptors (R456, R459) -/

section Accept

variable {s : State} {r : RawCmd}

/-- The commands that can change the key store have no form among those that leave it. -/
theorem opcode_of_form {k : KeySt} {f : CmdForm} (h : formOf k r (rawOpcode r) = some f) : rawOpcode r ∉ [0x0E02, 0x0F02, 0x1101] := by
  intro keyed
  simp only [List.mem_cons, List.not_mem_nil, or_false] at keyed
  rcases keyed with opcode | opcode | opcode <;> rw [opcode] at h <;> simp [formOf, invForm] at h

theorem acceptKeyed_none (h : rawOpcode r ∉ [0x0E02, 0x0F02, 0x1101]) (k : KeySt) (d : Dev) : acceptKeyed r k d = none := by
  simp only [List.mem_cons, List.not_mem_nil, or_false, not_or] at h
  obtain ⟨reenrol, clear, reset⟩ := h
  simp [acceptKeyed, reenrol, clear, reset]

/-- A descriptor that names no command of the key store, and that is accepted whenever its ring is ready, answers like a row of its own. -/
theorem commandAccept_runs {waits : Bool} {gate : Option Nat} {run : Dev → Dev × CmdRes} {res : Dev × CmdRes} (read : r.descOk = true)
    (plain : rawOpcode r ∉ [0x0E02, 0x0F02, 0x1101])
    (accepts : ∀ d, acceptPlain r s.key d = d.accept (rawCtx r) waits gate run) (hr : ready s.dev r.ring waits gate)
    (runs : run (fetched s.dev r.ring) = res) (sound : (served s (rawCtx r) res.1 res.2).dev.clk.ratioBroken = false) :
    exec (.commandAccept r) s = .next (served s (rawCtx r) res.1 res.2) := by
  have begun : s.runKey 0 (commandAccept r) = s.run 0 (fun _ d => d.accept (rawCtx r) waits gate run) := by
    simp [State.runKey, State.run, commandAccept, read, acceptKeyed_none plain, accepts]
  show checkRatio (s.runKey 0 (commandAccept r)) = _
  rw [begun, run_accept_ready (c := rawCtx r) (fun _ => run) hr]
  change checkRatio (.next (served s (rawCtx r) (run (fetched s.dev r.ring)).1 (run (fetched s.dev r.ring)).2)) = _
  rw [runs, checkRatio_of_sound sound]

theorem answer_clk (d : Dev) (c : Ctx) (k session : Nat) (res : CmdRes) : (d.answer c k session res).clk = d.clk :=
  only_clk (p := fun _ => True) ⟨answer_kept d c k session res, fun _ h => absurd trivial h⟩ (by simp)

/-- An answer to the descriptor fetched leaves the clocks. -/
theorem served_fetched_clk (c : Ctx) (res : CmdRes) : (served s c (fetched s.dev r.ring) res).dev.clk = s.dev.clk := by
  show (Dev.answer _ c _ _ res).clk = _
  rw [answer_clk]
  rfl

theorem commandAccept_malformed {f : CmdForm} (form : formOf s.key r (rawOpcode r) = some f) (sound : s.dev.clk.ratioBroken = false)
    (read : r.descOk = true) (bad : rawMalformed r = true) (hr : ready s.dev r.ring f.waits none) :
    exec (.commandAccept r) s = .next (served s (rawCtx r) (fetched s.dev r.ring) (.done sBadDesc 0)) := by
  refine commandAccept_runs (run := rawBadRun r f.need) (res := (fetched s.dev r.ring, .done sBadDesc 0)) read (opcode_of_form form) (fun d => ?_) hr ?_ ?_
  · simp [acceptPlain, form, rawBad, bad]
  · simp [rawBadRun, bad]
  · exact (congrArg ClkSt.ratioBroken (served_fetched_clk _ _)).trans sound

theorem commandAccept_unnamed (unnamed : (formOf s.key r (rawOpcode r)).isNone = true) (plain : rawOpcode r ∉ [0x0E02, 0x0F02, 0x1101])
    (sound : s.dev.clk.ratioBroken = false) (read : r.descOk = true) (hr : ready s.dev r.ring false none) :
    exec (.commandAccept r) s = .next (served s (rawCtx r) (fetched s.dev r.ring) (.done sBadDesc 0)) := by
  refine commandAccept_runs (run := fun x => (x, .done sBadDesc 0)) (res := (fetched s.dev r.ring, .done sBadDesc 0)) read plain (fun d => ?_) hr rfl ?_
  · simp [acceptPlain, Option.isNone_iff_eq_none.mp unnamed]
  · exact (congrArg ClkSt.ratioBroken (served_fetched_clk _ _)).trans sound

/-- A descriptor that cannot be read puts its ring in STATE 3 (R460). -/
theorem commandAccept_unread (unread : r.descOk = false) (offered : (later s.dev 0).offers r.ring = true)
    (sound : s.dev.clk.ratioBroken = false) :
    exec (.commandAccept r) s = .next { s with dev := (later s.dev 0).readFails r.ring } := by
  have hn : r.ring < 32 := by
    simp only [Dev.offers, Bool.and_eq_true] at offered
    exact runs_lt offered.1.1
  have begun : exec (.commandAccept r) s = checkRatio (.next { s with
      key := (commandAccept r s.key (later s.dev 0)).1, dev := (commandAccept r s.key (later s.dev 0)).2 }) := rfl
  have clocks : (later s.dev 0).clk = s.dev.clk := rfl
  generalize later s.dev 0 = d at offered clocks begun
  have fails : commandAccept r s.key d = (s.key, d.readFails r.ring) := by rw [commandAccept, if_pos unread, if_pos offered]
  have kept : (d.readFails r.ring).clk = d.clk := only_clk (readFails_effect hn).1 (by simp)
  have still : (d.readFails r.ring).clk.ratioBroken = false := by rw [kept, clocks, sound]
  rw [begun, fails]
  generalize d.readFails r.ring = x at still
  exact checkRatio_of_sound (s := { s with dev := x }) still

end Accept

/-! ## Completions (R453, R459) -/

/-- What the completion of a command leaves where host memory can be written: the rings and their STATE, and what the host is owed. -/
structure Dev.completionKept (d t : Dev) : Prop where
  ready : t.hostReady = true
  states : d.statesKept t
  sessions : d.sessionsKept t
  host : d.hostKept t

theorem hostKept_complete {d : Dev} (ready : d.hostReady = true) (n k session status result addr : Nat) (b : Bytes) :
    d.hostKept (d.complete n k session status result addr b) := by
  unfold Dev.complete
  extract_lets r st held d1
  rw [if_neg (c := (!d.hostReady) = true) (by simp [ready])]
  have written : d.hostKept d1 := hostKept_ite (hostKept_refl d) (hostKept_emit _ _)
  exact hostKept_ite (hostKept_refl d) (hostKept_trans written (hostKept_completed _ _ _ _))

theorem hostReady_of_signal {l : List Part} {d t : Dev} (h : only l signalReg d t) : t.hostReady = d.hostReady := by
  rw [Dev.hostReady, Dev.hostReady, only_bit h (not_signalReg (by decide))]

theorem completionKept_complete {d : Dev} {n : Nat} (hn : n < 32) (ready : d.hostReady = true) (k session status result addr : Nat) (b : Bytes) :
    d.completionKept (d.complete n k session status result addr b) :=
  ⟨(hostReady_of_signal (complete_only d hn k session status result addr b)).trans ready, statesKept_complete _ _ _ _ _ _ _ _,
    sessionsKept_complete _ _ _ _ _ _ _ _, hostKept_complete ready _ _ _ _ _ _ _⟩

theorem completionKept_trans {a b c : Dev} (h : a.completionKept b) (k : b.completionKept c) : a.completionKept c :=
  ⟨k.ready, statesKept_trans h.states k.states, sessionsKept_trans h.sessions k.sessions, hostKept_trans h.host k.host⟩

section Fold

variable {α : Type} {f : Dev → α → Dev} {l : List α}
  (step : ∀ x : Dev, ∀ a ∈ l, x.hostReady = true → x.completionKept (f x a))

include step

theorem completionKept_foldl {d : Dev} (ready : d.hostReady = true) : d.completionKept (l.foldl f d) := by
  induction l generalizing d with
  | nil => exact ⟨ready, statesKept_refl d, sessionsKept_refl d, hostKept_refl d⟩
  | cons a l ih =>
    have first := step d a List.mem_cons_self ready
    exact completionKept_trans first (ih (fun x b hb => step x b (List.mem_cons_of_mem a hb)) first.ready)

/-- A fold of completions comes to each element of its list with the rings as they were, and what it sends then stays sent. -/
theorem completionKept_at {d : Dev} (ready : d.hostReady = true) {a : α} (mem : a ∈ l) :
    ∃ x, d.completionKept x ∧ (f x a).out ⊆ (l.foldl f d).out := by
  obtain ⟨before, after, rfl⟩ := List.append_of_mem mem
  have reached : d.completionKept (before.foldl f d) :=
    completionKept_foldl (fun x b hb => step x b (List.mem_append_left _ hb)) ready
  have there := step (before.foldl f d) a mem reached.ready
  refine ⟨before.foldl f d, reached, ?_⟩
  rw [List.foldl_append, List.foldl_cons]
  exact (completionKept_foldl (fun x b hb => step x b (List.mem_append_right _ (List.mem_cons_of_mem a hb))) there.ready).host.sent

end Fold

/-- A completion whose ring runs in the descriptor's session is written. -/
theorem complete_sends {x : Dev} {n k session : Nat} (current : (x.ring n).session = session)
    (runs : x.fld (Fld.HIF_RINGn_STAT_STATE n) = 1) (ready : x.hostReady = true) (status result addr : Nat) (b : Bytes) :
    ∃ ph, Out.completion n k status result ph ∈ (x.complete n k session status result addr b).out := by
  refine ⟨x.phase n k, ?_⟩
  unfold Dev.complete
  simp only [current, runs, ready]
  rw [if_neg (by simp), if_neg (by simp)]
  exact countDone_out _ _ (List.mem_append_right _ (List.mem_singleton_self _))

/-! ## Commands that wait (R459) -/

section Waits

variable {d : Dev} {p : WaitKind → Bool} {status result : Nat}

theorem finishWaits_idle (idle : d.hif.waiting.any (fun w => p w.kind) = false) : d.finishWaits p status result = d := by
  have none_hit : d.hif.waiting.filter (fun w => p w.kind) = [] := by
    rw [List.any_eq_false] at idle
    rw [List.filter_eq_nil_iff]
    exact idle
  have all_stay : d.hif.waiting.filter (fun w => !p w.kind) = d.hif.waiting := by
    rw [List.any_eq_false] at idle
    rw [List.filter_eq_self]
    intro w hw
    simpa using idle w hw
  simp only [Dev.finishWaits, none_hit, all_stay, List.foldl_nil]

/-- The device with the commands taken from the list whose event has occurred. -/
def Dev.unlisted (d : Dev) (p : WaitKind → Bool) : Dev :=
  { d with hif := { d.hif with waiting := d.hif.waiting.filter (fun w => !p w.kind) } }

/-- A waiting command of which the event has occurred completes, unless its host has reset the interface. -/
def Dev.finishWait (status result : Nat) (d : Dev) (w : WaitCmd) : Dev :=
  if w.dead then d else d.complete w.ring w.k w.session status result 0 []

theorem finishWaits_eq : d.finishWaits p status result
    = (d.hif.waiting.filter (fun w => p w.kind)).foldl (Dev.finishWait status result) (d.unlisted p) := rfl

variable (rings : d.hif.waiting.all (fun w => decide (w.ring < 32)) = true)

include rings

theorem ring_lt_of_hit {w : WaitCmd} (hw : w ∈ d.hif.waiting.filter (fun w => p w.kind)) : w.ring < 32 := by
  simpa using (List.all_eq_true.mp rings) w (List.mem_filter.mp hw).1

theorem finishWait_step (x : Dev) (w : WaitCmd) (hw : w ∈ d.hif.waiting.filter (fun w => p w.kind)) (ready : x.hostReady = true) :
    x.completionKept (x.finishWait status result w) := by
  unfold Dev.finishWait
  split
  · exact ⟨ready, statesKept_refl x, sessionsKept_refl x, hostKept_refl x⟩
  · exact completionKept_complete (ring_lt_of_hit rings hw) ready _ _ _ _ _ _

theorem finishWaits_signal : only [.regs, .hif] signalReg d (d.finishWaits p status result) := by
  rw [finishWaits_eq]
  have taken : only [.regs, .hif] signalReg d (d.unlisted p) := only_wider (hif_only _ _ _) (by simp)
  refine only_trans taken (only_foldl_of_mem (fun x w hw => ?_) _)
  exact only_ite (only_refl _ _ _) (complete_only x (ring_lt_of_hit rings hw) _ _ _ _ _ _)

theorem finishWaits_completes (ready : d.hostReady = true) {w : WaitCmd} (mem : w ∈ d.hif.waiting) (hit : p w.kind = true)
    (alive : w.dead = false) (current : w.session = (d.ring w.ring).session) (runs : d.fld (Fld.HIF_RINGn_STAT_STATE w.ring) = 1) :
    ∃ ph, Out.completion w.ring w.k status result ph ∈ (d.finishWaits p status result).out := by
  have listed : w ∈ d.hif.waiting.filter (fun w => p w.kind) := List.mem_filter.mpr ⟨mem, hit⟩
  have state : (d.unlisted p).fld (Fld.HIF_RINGn_STAT_STATE w.ring) = 1 := runs
  have session : ((d.unlisted p).ring w.ring).session = w.session := current.symm
  obtain ⟨x, reached, stays⟩ := completionKept_at (d := d.unlisted p) (finishWait_step (status := status) (result := result) rings) ready listed
  have sends := complete_sends (x := x) (n := w.ring) (k := w.k) (session := w.session) ((reached.sessions.same _).trans session)
    ((reached.states _).trans state) reached.ready status result 0 []
  obtain ⟨ph, sent⟩ := sends
  refine ⟨ph, stays ?_⟩
  rw [Dev.finishWait, if_neg (by simp [alive])]
  exact sent

theorem finishWaits_waiting (ready : d.hostReady = true) :
    (d.finishWaits p status result).hif.waiting = d.hif.waiting.filter (fun w => !p w.kind) := by
  rw [finishWaits_eq]
  exact (completionKept_foldl (d := d.unlisted p) (finishWait_step rings) ready).host.waits

end Waits

end Sys2Proof.Machine
end

section
/-! Buffers that complete, messages that are moderated or masked, the link and D3hot (R449, R450, R463, R471, R474). -/

namespace Sys2Proof.Machine

open Sys2Proof

/-! ## The queues of records -/

theorem ringQ_of_hif {d t : Dev} (h : t.hif = d.hif) (kind : Nat) : t.ringQ kind = d.ringQ kind := by rw [Dev.ringQ, h, Dev.ringQ]

theorem ringQ_setRing (d : Dev) (n : Nat) (r : RingSt) (kind : Nat) : (d.setRing n r).ringQ kind = d.ringQ kind := rfl

theorem judgeSignal_ringQ (d : Dev) (n : Nat) (expired : Bool) (kind : Nat) : (d.judgeSignal n expired).ringQ kind = d.ringQ kind := by
  unfold Dev.judgeSignal
  simp only
  split
  · rw [ringQ_setRing, ringQ_of_hif (Dev.setBit_hif _ _ _), ringQ_of_hif (sendMsix_hif _ _)]
  · rfl

theorem countDone_ringQ (d : Dev) (n kind : Nat) : (d.countDone n).ringQ kind = d.ringQ kind := by
  unfold Dev.countDone
  simp only
  rw [judgeSignal_ringQ, ringQ_setRing, ringQ_of_hif (Dev.count_hif _ _ _)]

theorem dropBad_ringQ (n : Nat) (l : List BufDesc) (d : Dev) (kind : Nat) : (Dev.dropBad n l d).ringQ kind = d.ringQ kind := by
  induction l generalizing d with
  | nil => rfl
  | cons b l ih =>
    simp only [Dev.dropBad]
    split
    · rfl
    · rw [ih, countDone_ringQ, ringQ_of_hif (Dev.emit_hif _ _), ringQ_setRing]

theorem ringQ_setRingQ_same {kind : Nat} (h : 5 ≤ kind ∧ kind ≤ 8) (d : Dev) (q : List RingRec) : (d.setRingQ kind q).ringQ kind = q := by
  obtain ⟨low, high⟩ := h
  interval_cases kind <;> rfl

/-- Where a ring is not in the midst of a record, those that wait for it and are not placed wait on. -/
theorem pump_ringQ {d : Dev} {n kind : Nat} (h : 5 ≤ kind ∧ kind ≤ 8) (ring : d.ringOf kind = some n) (ready : d.hostReady = true)
    (rest : (d.ring n).rest = none) : (d.pump kind).ringQ kind = (Dev.placeAll n kind (d.ringQ kind) d).2 := by
  simp only [Dev.pump, ring, ready, continueRec_idle rest, if_true]
  split
  · rw [dropBad_ringQ, ringQ_setRingQ_same h]
  · exact ringQ_setRingQ_same h _ _

theorem pumpRing_records {d : Dev} {n kind : Nat} (own : d.fld (Fld.HIF_RINGn_CFG_KIND n) = kind) (records : kind ≠ 4) :
    d.pumpRing n = d.pump kind := by
  simp only [Dev.pumpRing, own, if_neg records]

/-! ## Buffers (R463) -/

section Buffer

variable {d : Dev} {n : Nat}

theorem cur_setRing {r : RingSt} (h : r.cur = (d.ring n).cur) : ((d.setRing n r).ring n).cur = (d.ring n).cur := by
  simp only [Dev.ring, Dev.setRing, getElem?_modifyAt_same] at h ⊢
  cases hr : d.hif.rings[n]? with
  | none => rfl
  | some x => rw [hr] at h; exact h

theorem ring_of_hif {t : Dev} (h : t.hif = d.hif) : t.ring n = d.ring n := by rw [Dev.ring, h, Dev.ring]

theorem judgeSignal_cur (d : Dev) (n : Nat) (expired : Bool) : ((d.judgeSignal n expired).ring n).cur = (d.ring n).cur := by
  unfold Dev.judgeSignal
  simp only
  split
  · have sent : ((d.sendMsix (d.fld (Fld.HIF_RINGn_CFG_VECTOR n))).setBit (Fld.HIF_RINGn_STAT_ARMED n) false).ring n = d.ring n :=
      ring_of_hif (by rw [Dev.setBit_hif, sendMsix_hif])
    rw [cur_setRing (by rw [sent]), sent]
  · rfl

theorem countDone_cur (d : Dev) (n : Nat) : ((d.countDone n).ring n).cur = (d.ring n).cur := by
  have counted : (d.count (Reg.HIF_RINGn_DONE n)).ring n = d.ring n := ring_of_hif (Dev.count_hif _ _ _)
  unfold Dev.countDone
  simp only
  rw [judgeSignal_cur, cur_setRing (by rw [counted]), counted]

theorem judgeSignal_done (d : Dev) (n : Nat) (expired : Bool) :
    (d.judgeSignal n expired).regN (Reg.HIF_RINGn_DONE n) = d.regN (Reg.HIF_RINGn_DONE n) := by
  have apart : ∀ o, o % 32 = 24 ∨ o % 32 = 0 ∨ o % 32 = 4 → Reg.HIF_RINGn_DONE n ≠ o := by
    intro o ho
    simp only [Reg.HIF_RINGn_DONE]
    omega
  have sent (v : Nat) (hv : v < 64) : (d.sendMsix v).regN (Reg.HIF_RINGn_DONE n) = d.regN (Reg.HIF_RINGn_DONE n) := by
    unfold Dev.sendMsix
    split
    · rfl
    · have : v / 32 = 0 ∨ v / 32 = 1 := by omega
      exact (regN_setRegN _ _ _ _).trans (if_neg (apart _ (by omega)))
  unfold Dev.judgeSignal
  simp only
  split
  · refine (only_regN (only_setReg _ _ _) (apart _ (.inl (by simp only [Fld.HIF_RINGn_STAT_ARMED, Reg.HIF_RINGn_STAT]; omega)))).trans (sent _ (fld_lt _ _))
  · rfl

theorem countDone_done (d : Dev) (n : Nat) :
    (d.countDone n).regN (Reg.HIF_RINGn_DONE n) = (d.regN (Reg.HIF_RINGn_DONE n) + 1) % 2 ^ 32 := by
  unfold Dev.countDone
  exact (judgeSignal_done _ n _).trans ((regN_count d _ _ _).trans (if_pos rfl))

variable {b : OpenBuf} (cur : (d.ring n).cur = some b)

include cur

theorem length_of_cur : n < d.hif.rings.length := by
  by_contra beyond
  rw [Dev.ring, List.getElem?_eq_none (not_lt.mp beyond)] at cur
  cases cur

theorem closeBuf_eq (contOut : Bool) : d.closeBuf n contOut = ((d.setRing n { d.ring n with cur := none }).emit
    (.bufDone n b.k b.used b.recs 0 sOk (b2n b.contIn + 2 * b2n contOut + 4 * b2n b.loss) (d.phase n b.k))).countDone n := by
  simp only [Dev.closeBuf, cur]

theorem closeBuf_cur (contOut : Bool) : ((d.closeBuf n contOut).ring n).cur = none := by
  rw [closeBuf_eq cur, countDone_cur, ring_of_hif (Dev.emit_hif _ _), ring_setRing_same (length_of_cur cur)]

theorem closeBuf_done (contOut : Bool) :
    (d.closeBuf n contOut).regN (Reg.HIF_RINGn_DONE n) = (d.regN (Reg.HIF_RINGn_DONE n) + 1) % 2 ^ 32 := by
  rw [closeBuf_eq cur, countDone_done]
  rfl

theorem closeBuf_tells (contOut : Bool) : ∃ flags ph, Out.bufDone n b.k b.used b.recs 0 sOk flags ph ∈ (d.closeBuf n contOut).out := by
  rw [closeBuf_eq cur]
  exact ⟨_, _, countDone_out _ _ (List.mem_append_right _ (List.mem_singleton_self _))⟩

theorem flushRing_of_used (used : 0 < b.used) : d.flushRing n = d.closeBuf n false := by simp [Dev.flushRing, cur, used]

/-- A buffer that has waited for COALESCE_US completes (R463). -/
theorem coalesce_of_due (used : 0 < b.used) (ready : d.hostReady = true) (on : d.fld (Fld.HIF_RINGn_CFG_COALESCE_US n) ≠ 0)
    (due : b.firstAt + d.fld (Fld.HIF_RINGn_CFG_COALESCE_US n) * 1000 ≤ d.up) : d.coalesce n = d.closeBuf n false := by
  rw [← flushRing_of_used cur used]
  simp [Dev.coalesce, cur, ready, on, due]

end Buffer

/-! ## Messages (R471) -/

section Message

variable {d : Dev} {n v : Nat}

/-- The entry of a vector in the MSI-X table. -/
def Dev.message (d : Dev) (v : Nat) : Out := .msix v (d.regN (msixOff v 0) + 2 ^ 32 * d.regN (msixOff v 1)) (d.regN (msixOff v 2))

theorem sendMsix_open (ready : d.hostReady = true) (unmasked : d.regN (msixOff v 3) % 2 = 0) : d.sendMsix v = d.emit (d.message v) := by
  rw [Dev.sendMsix, if_pos (by simp [ready, unmasked]), Dev.message]

theorem sendMsix_masked (masked : d.regN (msixOff v 3) % 2 = 1) :
    d.sendMsix v = d.setRegN (0x031000 + 4 * (v / 32)) (putBit (d.regN (0x031000 + 4 * (v / 32))) (v % 32) true) := by
  rw [Dev.sendMsix, if_neg (by simp [masked])]

theorem judgeSignal_expired (armed : d.bit (Fld.HIF_RINGn_STAT_ARMED n) = true) (unsignalled : 0 < (d.ring n).unsignalled) :
    d.judgeSignal n true = ((d.sendMsix (d.fld (Fld.HIF_RINGn_CFG_VECTOR n))).setBit (Fld.HIF_RINGn_STAT_ARMED n) false).setRing n
      { d.ring n with unsignalled := 0 } := by
  unfold Dev.judgeSignal
  extract_lets r modUs
  rw [if_pos (by simp [armed, unsignalled, r])]

theorem length_of_unsignalled (unsignalled : 0 < (d.ring n).unsignalled) : n < d.hif.rings.length := by
  by_contra beyond
  rw [Dev.ring, List.getElem?_eq_none (not_lt.mp beyond)] at unsignalled
  exact absurd unsignalled (lt_irrefl 0)

/-- The ring and its STAT once the message of an expired moderation has gone. -/
theorem signalled_ring {x : Dev} (sent : x.hif = d.hif) (unsignalled : 0 < (d.ring n).unsignalled) :
    (((x.setBit (Fld.HIF_RINGn_STAT_ARMED n) false).setRing n { d.ring n with unsignalled := 0 }).bit (Fld.HIF_RINGn_STAT_ARMED n) = false)
      ∧ (((x.setBit (Fld.HIF_RINGn_STAT_ARMED n) false).setRing n { d.ring n with unsignalled := 0 }).ring n).unsignalled = 0 := by
  refine ⟨?_, ?_⟩
  · exact Dev.bit_setBit_same x (Fld.HIF_RINGn_STAT_ARMED n) false (by simp [Fld.HIF_RINGn_STAT_ARMED]) (by simp [Fld.HIF_RINGn_STAT_ARMED])
  · rw [ring_setRing_same]
    rw [Dev.setBit_hif, sent]
    exact length_of_unsignalled unsignalled

/-- A pending bit that is set reads 1. -/
theorem testBit_pending {w : Nat} : (putBit w (v % 32) true % 2 ^ 32).testBit (v % 32) = true := by
  rw [Nat.testBit_mod_two_pow, testBit_putBit, if_pos rfl]
  simp [Nat.mod_lt v (by decide : 0 < 32)]

theorem testBit_unpended {w : Nat} : (putBit w (v % 32) false % 2 ^ 32).testBit (v % 32) = false := by
  rw [Nat.testBit_mod_two_pow, testBit_putBit, if_pos rfl, Bool.and_false]

end Message

/-! ## Vectors that are unmasked (R471) -/

section Unmask

variable {d : Dev} {v : Nat}

/-- The device with the mask of a vector taken off. -/
def Dev.unmasked (d : Dev) (v : Nat) : Dev := d.setReg (msixOff v 3) 0

theorem regN_unmasked (d : Dev) (v o : Nat) : (d.unmasked v).regN o = if o = msixOff v 3 then 0 else d.regN o := by
  rw [Dev.regN, Dev.unmasked, reg_setReg]
  split
  · rfl
  · rfl

theorem unmasked_only (d : Dev) (v : Nat) : only [.regs] (fun o => o = msixOff v 3) d (d.unmasked v) := only_setReg _ _ _

theorem unmasked_pending : (d.unmasked v).regN (0x031000 + 4 * (v / 32)) = d.regN (0x031000 + 4 * (v / 32)) := by
  rw [regN_unmasked, if_neg (by simp only [msixOff]; omega)]

theorem writeMsix_unmask (d : Dev) (v : Nat) : writeMsix (msixOff v 3) 0 d
    = if ((d.unmasked v).regN (0x031000 + 4 * (v / 32))).testBit (v % 32) = true
      then ((d.unmasked v).setRegN (0x031000 + 4 * (v / 32)) (putBit ((d.unmasked v).regN (0x031000 + 4 * (v / 32))) (v % 32) false)).sendMsix v
      else d.unmasked v := by
  have word : msixOff v 3 % 16 = 12 := by simp only [msixOff]; omega
  have entry : (msixOff v 3 - 0x030000) / 16 = v := by simp only [msixOff]; omega
  have zero : withBits 0#32 0 1 (bitsAt 0#32 0 1) = 0#32 := by decide
  unfold writeMsix Dev.unmasked
  simp [word, entry, zero]

end Unmask

/-! ## D3hot and the link (R449, R450) -/

theorem pcieUp_trained {d : Dev} {width speed : Nat} (lanes : width ∈ [1, 2, 4, 8]) (code : 1 ≤ speed ∧ speed ≤ 4) : d.pcieUp width speed
    = ((((d.modHif (fun h => { h with linkUp := true })).setFld Fld.HIF_STATUS_LINK_WIDTH width).setFld Fld.HIF_STATUS_LINK_SPEED speed).setBit
      Fld.HIF_STATUS_FULL_LINK (decide (width = 8 ∧ speed = 4))) := if_pos ⟨by simpa using lanes, code⟩

end Sys2Proof.Machine
end

section
/-! The reset of the host interface (R450). -/

namespace Sys2Proof.Machine

open Sys2Proof

/-! ## The rings -/

theorem setRingQ_rings (d : Dev) (kind : Nat) (q : List RingRec) : (d.setRingQ kind q).hif.rings = d.hif.rings := by
  unfold Dev.setRingQ
  repeat' split
  all_goals rfl

theorem haltRing_rings (d : Dev) (n : Nat) :
    (d.haltRing n).hif.rings = (d.setRing n { d.ring n with bufs := [], cur := none, rest := none }).hif.rings := by
  unfold Dev.haltRing
  extract_lets r kind lossy d1 d2 was d3 stopped
  have requeued : d2.hif.rings = d1.hif.rings := by
    simp only [d2]
    split
    · rfl
    · exact setRingQ_rings _ _ _
  have marked : d3.hif.rings = d1.hif.rings := by
    refine Eq.trans ?_ requeued
    simp only [d3]
    split
    · rfl
    · rfl
  refine Eq.trans ?_ marked
  split
  · rfl
  · rfl

/-- A ring at a reset of the interface: it halts, and a new session begins. -/
def Dev.newSession (d : Dev) (n : Nat) : Dev := (d.haltRing n).setRing n { session := ((d.haltRing n).ring n).session + 1 }

theorem bufs_newSession_same (d : Dev) (n : Nat) : ((d.newSession n).ring n).bufs = [] := by
  unfold Dev.newSession
  simp only [Dev.ring, Dev.setRing, getElem?_modifyAt_same]
  cases (d.haltRing n).hif.rings[n]? with
  | none => rfl
  | some r => rfl

theorem bufs_newSession {d : Dev} {m : Nat} (h : (d.ring m).bufs = []) (n : Nat) : ((d.newSession n).ring m).bufs = [] := by
  rcases eq_or_ne m n with rfl | apart
  · exact bufs_newSession_same d m
  · have other : (d.newSession n).ring m = d.ring m := by
      unfold Dev.newSession
      rw [Dev.ring, Dev.setRing, getElem?_modifyAt_other _ _ apart, haltRing_rings, Dev.setRing, getElem?_modifyAt_other _ _ apart, Dev.ring]
    rw [other, h]

theorem hostKept_newSession (d : Dev) (n : Nat) : d.hostKept (d.newSession n) :=
  hostKept_trans (hostKept_haltRing d n) (hostKept_setRing _ _ _)

theorem newSession_only (d : Dev) (n : Nat) (p : Nat → Prop) : only [.hif] p d (d.newSession n) :=
  only_trans (haltRing_only d n p) (only_of_kept (setRing_kept _ _ _) rfl)

/-- Every ring begins a new session. -/
def Dev.newSessions (d : Dev) : Dev := (List.range 32).foldl Dev.newSession d

theorem bufs_newSessions (d : Dev) {m : Nat} (hm : m < 32) : (d.newSessions.ring m).bufs = [] := by
  obtain ⟨before, after, split⟩ := List.append_of_mem (List.mem_range.mpr hm)
  have stays : ∀ x : Dev, (x.ring m).bufs = [] → ((after.foldl Dev.newSession x).ring m).bufs = [] :=
    foldl_keeps (R := fun x y : Dev => (x.ring m).bufs = [] → (y.ring m).bufs = []) (fun _ h => h) (fun h k => k ∘ h)
      (fun _ n h => bufs_newSession h n) after
  rw [Dev.newSessions, split, List.foldl_append, List.foldl_cons]
  exact stays _ (bufs_newSession_same _ m)

theorem hostKept_newSessions (d : Dev) : d.hostKept d.newSessions := foldl_keeps hostKept_refl hostKept_trans hostKept_newSession _ d

theorem newSessions_only (d : Dev) (p : Nat → Prop) : only [.hif] p d d.newSessions := only_foldl _ (fun x n => newSession_only x n p) _ d

/-! ## The registers -/

/-- A register of the host interface or of the MSI-X table. -/
abbrev hostReg (o : Nat) : Prop := 0x020000 ≤ o ∧ o < 0x040000

theorem hifResets_wf : Tbl.wf hifResets = true := by decide +kernel

theorem hifResets_outside {o : Nat} (h : ¬ hostReg o) : hifResets.find o = none := by
  cases found : hifResets.find o with
  | none => rfl
  | some v =>
    have listed : hifResets.all (fun x => decide (hostReg x.1)) = true := by decide +kernel
    exact absurd (of_decide_eq_true (List.all_eq_true.mp listed _ (Tbl.mem_of_find found))) h

/-- The registers of the host interface as its reset leaves them, HIF_STATUS apart: those listed at their reset values, the counters as they
were, the others 0. -/
theorem resetHifRegs_reg (d : Dev) {o : Nat} (apart : o ≠ Reg.HIF_STATUS) : d.resetHifRegs.reg o
    = ((hifResets.find o).or (if (decide (o < 0x020000) || decide (0x040000 ≤ o) || hifKept.contains o) = true then d.regs.find o
      else none)).getD 0 := by
  unfold Dev.resetHifRegs
  extract_lets kept x
  have file (t : Tbl Word) : Dev.reg { d with regs := t } o = (t.find o).getD 0 := rfl
  rw [Dev.setRegN, reg_setReg_other x _ apart, file, find_foldl_put hifResets_wf, find_keep]

theorem resetHifRegs_only (d : Dev) : only [.regs] hostReg d d.resetHifRegs := by
  refine ⟨by simp [keptBut, Dev.resetHifRegs, Dev.setRegN, Dev.setReg], fun o ho => ?_⟩
  have apart : o ≠ Reg.HIF_STATUS := by
    rintro rfl
    exact ho (by decide)
  have outside : (decide (o < 0x020000) || decide (0x040000 ≤ o) || hifKept.contains o) = true := by
    have : o < 0x020000 ∨ 0x040000 ≤ o := by omega
    simp [this]
  rw [resetHifRegs_reg d apart, hifResets_outside ho, if_pos outside, Option.none_or]
  rfl

theorem resetHifRegs_listed (d : Dev) {o : Nat} {w : Word} (apart : o ≠ Reg.HIF_STATUS) (listed : hifResets.find o = some w) :
    d.resetHifRegs.reg o = w := by
  rw [resetHifRegs_reg d apart, listed]
  rfl

theorem resetHifRegs_kept (d : Dev) {o : Nat} (apart : o ≠ Reg.HIF_STATUS) (unlisted : hifResets.find o = none)
    (kept : hifKept.contains o = true) : d.resetHifRegs.reg o = d.reg o := by
  rw [resetHifRegs_reg d apart, unlisted, kept, Bool.or_true, if_pos rfl, Option.none_or]
  rfl

theorem resetHifRegs_zero (d : Dev) {o : Nat} (apart : o ≠ Reg.HIF_STATUS) (own : hostReg o) (unlisted : hifResets.find o = none)
    (cleared : hifKept.contains o = false) : d.resetHifRegs.reg o = 0 := by
  have inside : (decide (o < 0x020000) || decide (0x040000 ≤ o) || hifKept.contains o) = false := by
    simp only [cleared, Bool.or_false, Bool.or_eq_false_iff, decide_eq_false_iff_not]
    omega
  rw [resetHifRegs_reg d apart, unlisted, inside]
  rfl

theorem resetHifRegs_status (d : Dev) : d.resetHifRegs.regN Reg.HIF_STATUS = d.fld Fld.HIF_STATUS_CMD_READY := by
  have small : d.fld Fld.HIF_STATUS_CMD_READY < 2 ^ 32 := (fld_lt d Fld.HIF_STATUS_CMD_READY).trans (by decide)
  unfold Dev.resetHifRegs
  exact (regN_setRegN _ _ _ _).trans ((if_pos rfl).trans (Nat.mod_eq_of_lt small))

theorem hifResets_cfg : ∀ n < 32, hifResets.find (Reg.HIF_RINGn_CFG n) = some 0xC0 := by decide +kernel
theorem hifResets_stat : ∀ n < 32, hifResets.find (Reg.HIF_RINGn_STAT n) = none := by decide +kernel
theorem hifResets_mask : ∀ v < 64, hifResets.find (msixOff v 3) = some 1 := by decide +kernel
theorem hifResets_counters : ∀ o ∈ hifKept, hifResets.find o = none := by decide +kernel

/-! ## The reset -/

/-- What a reset of the interface does to its own state: waiting commands will not complete, and nothing is held back. -/
def HifSt.dropped (h : HifSt) : HifSt :=
  { h with
    waiting := h.waiting.map (fun w => { w with dead := true }), heldDone := [], linkUp := false
    latches := h.latches.keep (fun off _ => decide (off < 0x020000) || decide (0x040000 ≤ off))
    heldLo := h.heldLo.keep (fun off _ => decide (off < 0x020000) || decide (0x040000 ≤ off)) }

/-- The device before its reset of the interface is counted and logged. -/
def Dev.hostCleared (d : Dev) : Dev := (d.newSessions.modHif HifSt.dropped).resetHifRegs

/-- The device before its reset of the interface is logged. -/
def Dev.hostCounted (d : Dev) : Dev := d.hostCleared.count Reg.HIF_HOST_RESETS

theorem hostReset_eq (d : Dev) : d.hostReset = d.hostCounted.event .hostReset noIndex (d.hostCounted.regN Reg.HIF_HOST_RESETS) := rfl

theorem not_logReg_of_hostReg {o : Nat} (h : hostReg o) : ¬ logReg o := by
  have listed : ∀ o, logReg o → ¬ hostReg o := by unfold logReg; decide
  exact fun k => listed o k h

section Reset

variable (d : Dev)

theorem hostReset_log : only [.regs, .snt] logReg d.hostCounted d.hostReset := by
  rw [hostReset_eq]
  exact event_log d.hostCounted rfl _ _ _ _

theorem hostReset_hif : d.hostReset.hif = d.newSessions.hif.dropped := by
  have cleared : d.hostCleared.hif = (d.newSessions.modHif HifSt.dropped).hif := only_hif (resetHifRegs_only _) (by simp)
  have counted : d.hostCounted.hif = d.hostCleared.hif := Dev.count_hif _ _ _
  have dropped (x : Dev) : (x.modHif HifSt.dropped).hif = x.hif.dropped := rfl
  rw [only_hif (hostReset_log d) (by simp), counted, cleared, dropped]

theorem dropped_regs (o : Nat) : (d.newSessions.modHif HifSt.dropped).reg o = d.reg o :=
  (newSessions_only d (fun _ => False)).2 o (fun h => h)

/-- A register of the host interface, the count of resets apart, reads what the reset of the register file gave it. -/
theorem hostReset_reg {o : Nat} (own : hostReg o) (apart : o ≠ Reg.HIF_HOST_RESETS) : d.hostReset.reg o = d.hostCleared.reg o := by
  rw [(hostReset_log d).2 o (not_logReg_of_hostReg own)]
  exact reg_setReg_other d.hostCleared _ apart

theorem hostReset_listed {o : Nat} {w : Word} (own : hostReg o) (status : o ≠ Reg.HIF_STATUS) (count : o ≠ Reg.HIF_HOST_RESETS)
    (listed : hifResets.find o = some w) : d.hostReset.regN o = w.toNat := by
  rw [Dev.regN, hostReset_reg d own count]
  exact congrArg BitVec.toNat (resetHifRegs_listed _ status listed)

theorem hostCleared_counter {o : Nat} (status : o ≠ Reg.HIF_STATUS) (kept : o ∈ hifKept) : d.hostCleared.reg o = d.reg o :=
  (resetHifRegs_kept _ status (hifResets_counters o kept) (List.contains_iff_mem.mpr kept)).trans (dropped_regs d o)

theorem hostReset_count : d.hostReset.regN Reg.HIF_HOST_RESETS = (d.regN Reg.HIF_HOST_RESETS + 1) % 2 ^ 32 := by
  rw [only_regN (hostReset_log d) (not_logReg_of_hostReg (by decide)), Dev.hostCounted, regN_count, if_pos rfl, Dev.regN,
    hostCleared_counter d (by decide) (by decide), Dev.regN]

theorem hostReset_only : only [.regs, .hif, .snt] (fun o => eventReg o ∨ hostReg o) d d.hostReset := by
  have halted : only [.regs, .hif, .snt] (fun o => eventReg o ∨ hostReg o) d d.newSessions :=
    only_wider (newSessions_only d _) (by simp)
  have dropped : only [.regs, .hif, .snt] (fun o => eventReg o ∨ hostReg o) d.newSessions (d.newSessions.modHif HifSt.dropped) :=
    only_wider (modHif_only _ _ _) (by simp)
  have cleared := only_mono (m := [.regs, .hif, .snt]) (q := fun o => eventReg o ∨ hostReg o) (by simp) (fun _ => .inr)
    (resetHifRegs_only (d.newSessions.modHif HifSt.dropped))
  have counted := only_mono (m := [.regs, .hif, .snt]) (q := fun o => eventReg o ∨ hostReg o) (by simp)
    (by rintro _ rfl; exact .inr (by decide)) (count_only d.hostCleared Reg.HIF_HOST_RESETS 1)
  have logged := only_mono (m := [.regs, .hif, .snt]) (q := fun o => eventReg o ∨ hostReg o) (by simp)
    (fun _ h => .inl (eventReg_of_logReg h)) (hostReset_log d)
  exact only_trans halted (only_trans dropped (only_trans cleared (only_trans counted logged)))

theorem hostReset_status : d.hostReset.regN Reg.HIF_STATUS = d.fld Fld.HIF_STATUS_CMD_READY := by
  have same : (d.newSessions.modHif HifSt.dropped).fld Fld.HIF_STATUS_CMD_READY = d.fld Fld.HIF_STATUS_CMD_READY := by
    rw [Dev.fld, dropped_regs, Dev.fld]
  rw [Dev.regN, hostReset_reg d (by decide) (by decide), ← same]
  exact resetHifRegs_status (d.newSessions.modHif HifSt.dropped)

theorem hostReset_stat {n : Nat} (hn : n < 32) : d.hostReset.regN (Reg.HIF_RINGn_STAT n) = 0 := by
  have own : hostReg (Reg.HIF_RINGn_STAT n) := by simp only [hostReg, Reg.HIF_RINGn_STAT]; omega
  have cleared : hifKept.contains (Reg.HIF_RINGn_STAT n) = false := by
    simp only [hifKept, Reg.HIF_RINGn_STAT, List.contains_eq_mem, List.mem_cons, List.not_mem_nil, or_false, decide_eq_false_iff_not]
    omega
  rw [Dev.regN, hostReset_reg d own (by simp only [Reg.HIF_RINGn_STAT, Reg.HIF_HOST_RESETS]; omega), Dev.hostCleared,
    resetHifRegs_zero _ (by simp only [Reg.HIF_RINGn_STAT, Reg.HIF_STATUS]; omega) own (hifResets_stat n hn) cleared]
  rfl

theorem hostReset_bufs {n : Nat} (hn : n < 32) : (d.hostReset.ring n).bufs = [] := by
  have rings : d.hostReset.ring n = d.newSessions.ring n := by rw [Dev.ring, hostReset_hif, Dev.ring]; rfl
  rw [rings, bufs_newSessions d hn]

theorem hostReset_waiting : d.hostReset.hif.waiting = d.hif.waiting.map (fun w => { w with dead := true }) := by
  rw [hostReset_hif]
  show d.newSessions.hif.waiting.map _ = _
  rw [(hostKept_newSessions d).waits]

theorem hostReset_cfg {n : Nat} (hn : n < 32) : d.hostReset.regN (Reg.HIF_RINGn_CFG n) = 0xC0 := by
  refine hostReset_listed d ?_ ?_ ?_ (hifResets_cfg n hn)
  all_goals
    simp only [hostReg, Reg.HIF_RINGn_CFG, Reg.HIF_STATUS, Reg.HIF_HOST_RESETS]
    omega

theorem hostReset_mask {v : Nat} (hv : v < 64) : d.hostReset.regN (msixOff v 3) = 1 := by
  refine hostReset_listed d ?_ ?_ ?_ (hifResets_mask v hv)
  all_goals
    simp only [hostReg, msixOff, Reg.HIF_STATUS, Reg.HIF_HOST_RESETS]
    omega

theorem hostReset_link : d.hostReset.hif.linkUp = false := by
  rw [hostReset_hif]
  rfl

theorem hostReset_counter {r : Nat}
    (hr : r ∈ [Reg.HIF_DB_BAD, Reg.HIF_DMA_ERR, Reg.HIF_EVT_LOST, Reg.HIF_SNAP_LOST, Reg.HIF_SNAP_WHOLE]) : d.hostReset.reg r = d.reg r := by
  have listed : ∀ o ∈ [Reg.HIF_DB_BAD, Reg.HIF_DMA_ERR, Reg.HIF_EVT_LOST, Reg.HIF_SNAP_LOST, Reg.HIF_SNAP_WHOLE],
      hostReg o ∧ o ≠ Reg.HIF_HOST_RESETS ∧ o ≠ Reg.HIF_STATUS ∧ o ∈ hifKept := by decide
  obtain ⟨own, count, status, kept⟩ := listed r hr
  rw [hostReset_reg d own count, hostCleared_counter d status kept]

end Reset

end Sys2Proof.Machine
end

section
/-! The way back from D3hot, and the statement about the host interface (R449, R450, R456, R459, R463, R471, R474). -/

namespace Sys2Proof.Machine

open Sys2Proof

/-! ## The way back from D3hot (R450) -/

section Wake

variable {d : Dev}

/-- The device back in D0, with the completions held back taken up. -/
def Dev.woken (d : Dev) : Dev := (d.setBit Fld.HIF_STATUS_D3 false).modHif (fun h => { h with heldDone := [] })

/-- A completion held back is written. -/
def Dev.release (d : Dev) (c : HeldDone) : Dev := d.complete c.ring c.k c.session c.status c.result c.addr c.block

/-- The device with the completions held back written. -/
def Dev.released (d : Dev) : Dev := d.hif.heldDone.foldl Dev.release d.woken

theorem leaveD3_asleep (asleep : d.bit Fld.HIF_STATUS_D3 = true) :
    d.leaveD3 = (([5, 6, 7, 8].foldl Dev.pump d.released).pumpSnapRing).sendPending := by
  rw [Dev.leaveD3, if_pos asleep]
  rfl

theorem leaveD3_awake (awake : d.bit Fld.HIF_STATUS_D3 = false) : d.leaveD3 = d := by rw [Dev.leaveD3, if_neg (by simp [awake])]

theorem woken_ready (d : Dev) : d.woken.hostReady = true := by
  have awake : (d.setBit Fld.HIF_STATUS_D3 false).bit Fld.HIF_STATUS_D3 = false := Dev.bit_setBit_same d _ _ (by decide) (by decide)
  show (!(d.setBit Fld.HIF_STATUS_D3 false).bit Fld.HIF_STATUS_D3) = true
  rw [awake, Bool.not_false]

theorem woken_only (d : Dev) : only [.regs, .hif, .crt] (fun o => signalReg o ∨ o ∈ [Reg.HIF_STATUS, Reg.HIF_SNAP_WHOLE]) d d.woken :=
  only_trans (only_mono (by simp) (by rintro _ rfl; exact .inr (by decide)) (setBit_only d Fld.HIF_STATUS_D3 false))
    (only_wider (modHif_only _ _ _) (by simp))

/-- What goes out once the completions are written. -/
theorem leaveD3_goesOut (asleep : d.bit Fld.HIF_STATUS_D3 = true) : hostMoves d.released d.leaveD3 := by
  rw [leaveD3_asleep asleep]
  exact hostMoves_trans (hostMoves_foldl hostMoves_pump _ _) (hostMoves_trans (hostMoves_pumpSnapRing _) (hostMoves_sendPending _))

variable (rings : d.hif.heldDone.all (fun c => decide (c.ring < 32)) = true)

include rings

theorem ring_lt_of_held {c : HeldDone} (hc : c ∈ d.hif.heldDone) : c.ring < 32 := of_decide_eq_true (List.all_eq_true.mp rings c hc)

theorem release_step (x : Dev) (c : HeldDone) (hc : c ∈ d.hif.heldDone) (ready : x.hostReady = true) : x.completionKept (x.release c) :=
  completionKept_complete (ring_lt_of_held rings hc) ready _ _ _ _ _ _

theorem released_kept : d.woken.completionKept d.released := completionKept_foldl (release_step rings) (woken_ready d)

theorem released_only : only [.regs, .hif] signalReg d.woken d.released :=
  only_foldl_of_mem (fun x _ hc => complete_only x (ring_lt_of_held rings hc) _ _ _ _ _ _) d.woken

theorem released_sends {c : HeldDone} (hc : c ∈ d.hif.heldDone) (current : c.session = (d.ring c.ring).session)
    (runs : d.fld (Fld.HIF_RINGn_STAT_STATE c.ring) = 1) : ∃ ph, Out.completion c.ring c.k c.status c.result ph ∈ d.released.out := by
  have state : d.woken.fld (Fld.HIF_RINGn_STAT_STATE c.ring) = 1 := by
    have apart : Reg.HIF_RINGn_STAT c.ring ≠ Reg.HIF_STATUS := by
      simp only [Reg.HIF_RINGn_STAT, Reg.HIF_STATUS]
      omega
    rw [← runs]
    exact Dev.fld_setFld_other d Fld.HIF_STATUS_D3 (Fld.HIF_RINGn_STAT_STATE c.ring) _ (by decide) (.inl apart)
  have session : (d.woken.ring c.ring).session = c.session := current.symm
  obtain ⟨x, reached, stays⟩ := completionKept_at (release_step rings) (woken_ready d) hc
  obtain ⟨ph, sent⟩ := complete_sends (k := c.k) ((reached.sessions.same _).trans session) ((reached.states _).trans state) reached.ready
    c.status c.result c.addr c.block
  exact ⟨ph, stays sent⟩

/-- The effect of the function's return to D0. -/
theorem leaveD3_effect (asleep : d.bit Fld.HIF_STATUS_D3 = true) :
    only [.regs, .hif, .crt] (fun o => signalReg o ∨ o ∈ [Reg.HIF_STATUS, Reg.HIF_SNAP_WHOLE]) d d.leaveD3
      ∧ d.leaveD3.hostReady = true ∧ d.leaveD3.hif.heldDone = [] ∧ d.leaveD3.hif.waiting = d.hif.waiting
      ∧ ∀ c ∈ d.hif.heldDone, c.session = (d.ring c.ring).session → d.fld (Fld.HIF_RINGn_STAT_STATE c.ring) = 1 →
        ∃ ph, Out.completion c.ring c.k c.status c.result ph ∈ d.leaveD3.out := by
  obtain ⟨moved, owed⟩ := leaveD3_goesOut asleep
  have kept := released_kept rings
  refine ⟨?_, ?_, ?_, ?_, fun c hc current runs => ?_⟩
  · exact only_trans (woken_only d) (only_trans (only_mono (by simp) (fun _ => .inl) (released_only rings))
      (only_mono (fun _ h => h) (fun _ h => h.imp id (by rintro rfl; decide)) moved))
  · have apart : ¬ snapReg Reg.HIF_STATUS := by
      rintro (h | h)
      · exact not_signalReg (by decide) h
      · exact absurd h (by decide)
    have same : d.leaveD3.hostReady = d.released.hostReady := by rw [Dev.hostReady, Dev.hostReady, only_bit moved apart]
    exact same.trans kept.ready
  · exact owed.held.trans kept.host.held
  · exact owed.waits.trans kept.host.waits
  · obtain ⟨ph, sent⟩ := released_sends rings hc current runs
    exact ⟨ph, owed.sent sent⟩

end Wake

/-! ## Rows -/

section Rows

variable {d : Dev} {n v : Nat}

theorem acceptPlain_formed {k : KeySt} {r : RawCmd} {f : CmdForm} (form : formOf k r (rawOpcode r) = some f)
    (good : rawBad r f.need = false) (d : Dev) : acceptPlain r k d = d.accept (rawCtx r) f.waits f.gate f.run := by
  simp [acceptPlain, form, good]

theorem d3_set (d : Dev) : (d.setBit Fld.HIF_STATUS_D3 true).bit Fld.HIF_STATUS_D3 = true :=
  Dev.bit_setBit_same d _ _ (by decide) (by decide)

theorem pcieUp_effect {width speed : Nat} (lanes : width ∈ [1, 2, 4, 8]) (code : 1 ≤ speed ∧ speed ≤ 4) :
    (d.pcieUp width speed).hif.linkUp = true ∧ (d.pcieUp width speed).fld Fld.HIF_STATUS_LINK_WIDTH = width
      ∧ (d.pcieUp width speed).fld Fld.HIF_STATUS_LINK_SPEED = speed
      ∧ (d.pcieUp width speed).bit Fld.HIF_STATUS_FULL_LINK = decide (width = 8 ∧ speed = 4)
      ∧ (d.pcieUp width speed).bit Fld.HIF_STATUS_CMD_READY = d.bit Fld.HIF_STATUS_CMD_READY ∧ (d.pcieUp width speed).hif.rings = d.hif.rings := by
  have width_fits : width < 16 := by
    simp only [List.mem_cons, List.not_mem_nil, or_false] at lanes
    omega
  have linked : (d.modHif (fun h => { h with linkUp := true })).bit Fld.HIF_STATUS_CMD_READY = d.bit Fld.HIF_STATUS_CMD_READY := rfl
  have up : (d.modHif (fun h => { h with linkUp := true })).hif.linkUp = true := rfl
  have rings : (d.modHif (fun h => { h with linkUp := true })).hif.rings = d.hif.rings := rfl
  rw [pcieUp_trained lanes code]
  generalize d.modHif (fun h => { h with linkUp := true }) = x at linked up rings
  refine ⟨up, ?_, ?_, Dev.bit_setBit_same _ _ _ (by decide) (by decide), ?_, rings⟩
  · rw [Dev.setBit, Dev.fld_setFld_other _ _ _ _ (by decide) (by decide), Dev.fld_setFld_other _ _ _ _ (by decide) (by decide),
      Dev.fld_setFld_same _ _ _ (by decide)]
    exact Nat.mod_eq_of_lt width_fits
  · rw [Dev.setBit, Dev.fld_setFld_other _ _ _ _ (by decide) (by decide), Dev.fld_setFld_same _ _ _ (by decide)]
    exact Nat.mod_eq_of_lt (show speed < 8 by omega)
  · rw [bit_setBit_other _ (by decide) (by decide), ← linked]
    refine bit_of_fld ?_
    rw [Dev.fld_setFld_other _ _ _ _ (by decide) (by decide), Dev.fld_setFld_other _ _ _ _ (by decide) (by decide)]

theorem status_field_only (x : Dev) (f : FieldAt) (w : Nat) (hf : f.off = Reg.HIF_STATUS) :
    only [.regs, .hif] (fun o => o ∈ [Reg.HIF_STATUS]) x (x.setFld f w) :=
  only_mono (by simp) (by rintro _ rfl; simp [hf]) (setFld_only x f w)

theorem pcieUp_only {width speed : Nat} (lanes : width ∈ [1, 2, 4, 8]) (code : 1 ≤ speed ∧ speed ≤ 4) :
    only [.regs, .hif] (fun o => o ∈ [Reg.HIF_STATUS]) d (d.pcieUp width speed) := by
  rw [pcieUp_trained lanes code]
  exact only_trans (only_wider (modHif_only _ _ _) (by simp)) (only_trans (status_field_only _ _ _ rfl)
    (only_trans (status_field_only _ _ _ rfl) (status_field_only _ _ _ rfl)))

theorem hifFlush_idle (idle : d.runs n 5 = false ∧ d.runs n 6 = false ∧ d.runs n 7 = false ∧ d.runs n 8 = false) :
    hifFlush n d = (d, .done sRange 0) := by
  obtain ⟨amend, alarm, trig, event⟩ := idle
  have none : (List.range 4).any (fun i => d.runs n (5 + i)) = false := by
    rw [List.any_eq_false]
    intro i hi
    have : i < 4 := List.mem_range.mp hi
    interval_cases i <;> simp [amend, alarm, trig, event]
  rw [hifFlush, none]
  rfl

theorem hifFlush_runs {k : Nat} (hk : 5 ≤ k ∧ k ≤ 8) (runs : d.runs n k = true) : hifFlush n d = (d.flushRing n, .ok) := by
  have some : (List.range 4).any (fun i => d.runs n (5 + i)) = true :=
    List.any_eq_true.mpr ⟨k - 5, List.mem_range.mpr (by omega), by rw [show 5 + (k - 5) = k by omega, runs]⟩
  rw [hifFlush, some]
  rfl

theorem hifFlush_used {k : Nat} (hk : 5 ≤ k ∧ k ≤ 8) (runs : d.runs n k = true) (used : (d.ring n).cur.any (fun b => decide (0 < b.used)) = true) :
    hifFlush n d = (d.closeBuf n false, .done sOk 0) := by
  rw [hifFlush_runs hk runs, Dev.flushRing, if_pos used, CmdRes.ok]

theorem hifFlush_unused {k : Nat} (hk : 5 ≤ k ∧ k ≤ 8) (runs : d.runs n k = true)
    (unused : (d.ring n).cur.any (fun b => decide (0 < b.used)) = false) : hifFlush n d = (d, .done sOk 0) := by
  rw [hifFlush_runs hk runs, Dev.flushRing, if_neg (by simp [unused]), CmdRes.ok]

end Rows

/-! ## Commands that wait, with the image set written (R459) -/

section WaitDone

variable {d : Dev}

/-- The device with the image set that was being written, written. -/
def Dev.norDone (d : Dev) : Dev := d.modInv (fun i => { i with norBusy := false })

theorem norDone_only (d : Dev) (l : List Part) (p : Nat → Prop) : only (.inv :: l) p d d.norDone :=
  only_wider (l := [.inv]) (only_of_kept (by simp [keptBut, Dev.norDone, Dev.modInv]) rfl) (by simp)

theorem waitDone_only {p : WaitKind → Bool} (rings : d.hif.waiting.all (fun x => decide (x.ring < 32)) = true) :
    only [.regs, .hif, .inv] signalReg d (d.norDone.finishWaits p sOk 0) :=
  only_trans (only_wider (norDone_only d [] _) (by simp)) (only_wider (finishWaits_signal (d := d.norDone) rings) (by simp))

theorem waitDone_effect {p : WaitKind → Bool} {w : WaitCmd} (rings : d.hif.waiting.all (fun x => decide (x.ring < 32)) = true)
    (ready : d.hostReady = true) (mem : w ∈ d.hif.waiting) (hit : p w.kind = true) (alive : w.dead = false)
    (current : w.session = (d.ring w.ring).session) (runs : d.fld (Fld.HIF_RINGn_STAT_STATE w.ring) = 1) :
    ∃ ph, Out.completion w.ring w.k sOk 0 ph ∈ (d.norDone.finishWaits p sOk 0).out
      ∧ (d.norDone.finishWaits p sOk 0).hif.waiting = d.hif.waiting.filter (fun x => !p x.kind)
      ∧ (d.norDone.finishWaits p sOk 0).inv.norBusy = false := by
  obtain ⟨ph, sent⟩ := finishWaits_completes (d := d.norDone) (p := p) (status := sOk) (result := 0) rings ready mem hit alive current runs
  have inventory : (d.norDone.finishWaits p sOk 0).inv = d.norDone.inv := only_inv (finishWaits_signal (d := d.norDone) rings) (by simp)
  exact ⟨ph, sent, finishWaits_waiting (d := d.norDone) rings ready, by rw [inventory]; rfl⟩

theorem waitDone_idle {p : WaitKind → Bool} (idle : d.hif.waiting.any (fun x => p x.kind) = false) :
    d.norDone.finishWaits p sOk 0 = d.norDone := finishWaits_idle (d := d.norDone) idle

end WaitDone

/-! ## Messages of one vector (R471) -/

section Vector

variable {d : Dev} {n v : Nat}

/-- A ring whose moderation has run out sends the message of its vector, and is no longer armed. -/
theorem signal_of_unmasked (armed : d.bit (Fld.HIF_RINGn_STAT_ARMED n) = true) (unsignalled : 0 < (d.ring n).unsignalled)
    (ready : d.hostReady = true) (unmasked : d.regN (msixOff (d.fld (Fld.HIF_RINGn_CFG_VECTOR n)) 3) % 2 = 0) :
    only [.regs, .hif] (fun o => o ∈ [Reg.HIF_RINGn_STAT n]) d (d.judgeSignal n true)
      ∧ (d.judgeSignal n true).bit (Fld.HIF_RINGn_STAT_ARMED n) = false ∧ ((d.judgeSignal n true).ring n).unsignalled = 0
      ∧ (d.judgeSignal n true).out = d.out ++ [d.message (d.fld (Fld.HIF_RINGn_CFG_VECTOR n))] := by
  rw [judgeSignal_expired armed unsignalled, sendMsix_open ready unmasked]
  generalize d.message (d.fld (Fld.HIF_RINGn_CFG_VECTOR n)) = m
  obtain ⟨disarmed, counted⟩ := signalled_ring (x := d.emit m) rfl unsignalled
  refine ⟨?_, disarmed, counted, rfl⟩
  exact only_trans (emit_only d m _) (only_trans (only_mono (by simp) (by rintro _ rfl; exact List.mem_singleton_self _)
    (setBit_only (d.emit m) (Fld.HIF_RINGn_STAT_ARMED n) false)) (setRing_only _ _ _ _))

/-- The message of a masked vector stays pending. -/
theorem signal_of_masked (own : v = d.fld (Fld.HIF_RINGn_CFG_VECTOR n))
    (armed : d.bit (Fld.HIF_RINGn_STAT_ARMED n) = true) (unsignalled : 0 < (d.ring n).unsignalled) (masked : d.regN (msixOff v 3) % 2 = 1) :
    (d.judgeSignal n true).bit (Fld.HIF_RINGn_STAT_ARMED n) = false ∧ ((d.judgeSignal n true).ring n).unsignalled = 0
      ∧ ((d.judgeSignal n true).regN (0x031000 + 4 * (v / 32))).testBit (v % 32) = true ∧ (d.judgeSignal n true).out = d.out := by
  have hv : v < 64 := own ▸ fld_lt d _
  have apart : 0x031000 + 4 * (v / 32) ≠ Reg.HIF_RINGn_STAT n := by
    simp only [Reg.HIF_RINGn_STAT]
    omega
  rw [judgeSignal_expired armed unsignalled, ← own, sendMsix_masked masked]
  generalize 0x031000 + 4 * (v / 32) = o at apart
  have pending : (d.setRegN o (putBit (d.regN o) (v % 32) true)).regN o = putBit (d.regN o) (v % 32) true % 2 ^ 32 :=
    (regN_setRegN _ _ _ _).trans (if_pos rfl)
  have same : (d.setRegN o (putBit (d.regN o) (v % 32) true)).hif = d.hif := rfl
  have silent : (d.setRegN o (putBit (d.regN o) (v % 32) true)).out = d.out := rfl
  generalize d.setRegN o (putBit (d.regN o) (v % 32) true) = x at pending same silent
  obtain ⟨disarmed, counted⟩ := signalled_ring same unsignalled
  have kept : ((x.setBit (Fld.HIF_RINGn_STAT_ARMED n) false).setRing n { d.ring n with unsignalled := 0 }).regN o = x.regN o :=
    only_regN (setBit_only x _ _) apart
  refine ⟨disarmed, counted, ?_, silent⟩
  rw [kept, pending]
  exact testBit_pending

theorem unmask_clear (clear : (d.regN (0x031000 + 4 * (v / 32))).testBit (v % 32) = false) : writeMsix (msixOff v 3) 0 d = d.unmasked v := by
  rw [writeMsix_unmask, unmasked_pending, if_neg (by simp [clear])]

/-- The device with a vector's mask and pending bit cleared. -/
def Dev.unpended (d : Dev) (v : Nat) : Dev :=
  (d.unmasked v).setRegN (0x031000 + 4 * (v / 32)) (putBit (d.regN (0x031000 + 4 * (v / 32))) (v % 32) false)

theorem unpended_only (d : Dev) (v : Nat) : only [.regs] (fun o => o = msixOff v 3 ∨ o = 0x031000 + 4 * (v / 32)) d (d.unpended v) :=
  only_trans (only_mono (fun _ h => h) (fun _ => .inl) (unmasked_only d v)) (only_mono (fun _ h => h) (fun _ => .inr) (only_setReg _ _ _))

theorem unpended_mask : (d.unpended v).regN (msixOff v 3) = 0 := by
  have apart : msixOff v 3 ≠ 0x031000 + 4 * (v / 32) := by simp only [msixOff]; omega
  rw [Dev.unpended, regN_setRegN, if_neg apart, regN_unmasked, if_pos rfl]

theorem unpended_message (hv : v < 64) : (d.unpended v).message v = d.message v := by
  have reads (w : Nat) (hw : w < 3) : (d.unpended v).regN (msixOff v w) = d.regN (msixOff v w) :=
    only_regN (unpended_only d v) (by simp only [msixOff]; omega)
  rw [Dev.message, Dev.message, reads 0 (by decide), reads 1 (by decide), reads 2 (by decide)]

/-- A vector that is unmasked with its message pending: the message goes, and the pending bit clears. -/
theorem unmask_sends (hv : v < 64) (pending : (d.regN (0x031000 + 4 * (v / 32))).testBit (v % 32) = true) (ready : d.hostReady = true) :
    only [.regs] (fun o => o = msixOff v 3 ∨ o = 0x031000 + 4 * (v / 32)) d (writeMsix (msixOff v 3) 0 d)
      ∧ (writeMsix (msixOff v 3) 0 d).regN (msixOff v 3) = 0
      ∧ ((writeMsix (msixOff v 3) 0 d).regN (0x031000 + 4 * (v / 32))).testBit (v % 32) = false
      ∧ (writeMsix (msixOff v 3) 0 d).out = d.out ++ [d.message v] := by
  have apart : Reg.HIF_STATUS ≠ msixOff v 3 ∧ Reg.HIF_STATUS ≠ 0x031000 + 4 * (v / 32) := by
    simp only [msixOff, Reg.HIF_STATUS]
    omega
  have status : (d.unpended v).bit Fld.HIF_STATUS_D3 = d.bit Fld.HIF_STATUS_D3 := only_bit (unpended_only d v) (not_or.mpr apart)
  have awake : (d.unpended v).hostReady = true := by rw [← ready, Dev.hostReady, status, Dev.hostReady]
  have sent : writeMsix (msixOff v 3) 0 d = (d.unpended v).emit (d.message v) := by
    rw [writeMsix_unmask, unmasked_pending, if_pos pending, ← Dev.unpended, sendMsix_open awake (by rw [unpended_mask]), unpended_message hv]
  have bit : ((d.unpended v).regN (0x031000 + 4 * (v / 32))).testBit (v % 32) = false := by
    rw [Dev.unpended, regN_setRegN, if_pos rfl]
    exact testBit_unpended
  have out : (d.unpended v).out = d.out := rfl
  rw [sent, ← out]
  exact ⟨only_trans (unpended_only d v) (only_of_kept (keptBut_mono (by simp) (emit_kept _ _)) rfl), unpended_mask, bit, rfl⟩

end Vector

/-! ## The statement -/

/-- Settles O27: a descriptor that spells a command is served like the command's own row; the rest is what each event does to the rings, their
messages and the link. -/
theorem hostInterfaceTakesEffect : Obligations.HostInterfaceTakesEffect := by
  unfold Obligations.HostInterfaceTakesEffect
  refine ⟨?_, ?_, ?_, ?_, ?_, ?_, ?_, ?_, ?_, ?_, ?_, ?_, ?_, ?_, ?_, ?_, ?_, ?_, ?_, ?_, ?_⟩
  · rintro s r x f form rfl ⟨read, good⟩ hr sound
    exact commandAccept_runs read (opcode_of_form form) (acceptPlain_formed form good) hr rfl sound
  · rintro s r x f form ⟨rfl, sound⟩ ⟨read, bad⟩ hr
    exact commandAccept_malformed form sound read bad hr
  · rintro s r x ⟨unnamed, plain⟩ ⟨rfl, sound⟩ read hr
    exact commandAccept_unnamed unnamed plain sound read hr
  · rintro s r d hd ⟨unread, offered, sound⟩
    have hn : r.ring < 32 := by
      simp only [Dev.offers, Bool.and_eq_true] at offered
      exact runs_lt offered.1.1
    obtain ⟨frame, state, counted⟩ := readFails_effect (d := d) hn
    have waits := (hostKept_readFails d r.ring).waits
    have frame := only_mono (fun _ h => h) (q := fun o => signalReg o ∨ o ∈ [Reg.HIF_EVT_LOST, Reg.HIF_DMA_ERR])
      (fun o h => h.imp id (List.Perm.subset (List.Perm.swap _ _ _) ·)) frame
    have answered := commandAccept_unread unread (hd ▸ offered) sound
    rw [← hd] at answered
    generalize d.readFails r.ring = x at frame state counted waits answered
    exact ⟨_, answered, ⟨rfl, rfl, hd ▸ frame⟩, state, counted, waits⟩
  · rintro s dt d w rfl ⟨mem, occurred, alive, current⟩ ⟨ready, runs⟩ rings
    exact exists_run_moves (f := fun _ d => d.norDone.finishWaits (fun w => Dev.occurred d w) sOk 0) rfl (waitDone_only rings)
      (waitDone_effect rings ready mem occurred alive current runs)
  · rintro s dt d rfl idle
    exact exists_run_moves (f := fun _ d => d.norDone.finishWaits (fun w => Dev.occurred d w) sOk 0) (waitDone_idle idle)
      (norDone_only _ [] _) ⟨rfl, rfl⟩
  · rintro s dt n kind d x r rest rfl ⟨low, high, own, ring⟩ ⟨ready, queue, whole⟩ place
    refine exists_run_moves (f := fun _ d => if n < 32 then d.pumpRing n else d)
      ((if_pos (ringOf_lt ring)).trans (pumpRing_records own (by omega))) (pump_only _ kind) ⟨?_, (hostKept_pump _ kind).waits⟩
    rw [pump_ringQ ⟨low, high⟩ ring ready whole, queue]
    exact placeAll_placed whole place rest
  · rintro s dt n d b rfl ⟨hn, cur, used, ready⟩ ⟨on, due⟩
    obtain ⟨flags, ph, told⟩ := closeBuf_tells cur false
    exact exists_run_moves (f := fun _ d => if n < 32 then d.coalesce n else d)
      ((if_pos hn).trans (coalesce_of_due cur used ready on due)) (closeBuf_only _ hn false)
      ⟨closeBuf_cur cur false, closeBuf_done cur false, flags, ph, told, (hostKept_closeBuf _ n false).waits⟩
  · rintro s dt n v d rfl ⟨hn, armed, unsignalled, expired⟩ ⟨rfl, ready, unmasked⟩
    obtain ⟨frame, sent⟩ := signal_of_unmasked armed unsignalled ready unmasked
    exact exists_run_moves (f := fun _ d => if n < 32 then d.judgeSignal n (d.modExpired n) else d)
      ((if_pos hn).trans (congrArg _ expired)) frame sent
  · rintro s dt n v d rfl ⟨hn, armed, unsignalled, expired⟩ ⟨own, masked⟩
    exact exists_run_moves (f := fun _ d => if n < 32 then d.judgeSignal n (d.modExpired n) else d)
      ((if_pos hn).trans (congrArg _ expired)) (judgeSignal_only _ hn true) (signal_of_masked own armed unsignalled masked)
  · rintro s dt d rfl
    refine exists_run_moves (f := fun _ d => d.hostReset) rfl (hostReset_only _) ⟨hostReset_count _, fun n hn =>
      ⟨hostReset_cfg _ hn, hostReset_stat _ hn, hostReset_bufs _ hn, fun v hv =>
        ⟨hostReset_mask _ hv, hostReset_status _, hostReset_link _, hostReset_waiting _, fun r hr => hostReset_counter _ ?_⟩⟩⟩
    exact hr
  · rintro s dt d rfl
    refine exists_run_moves (f := fun _ d => d.setBit Fld.HIF_STATUS_D3 true) rfl
      (only_mono (fun _ h => h) (by rintro _ rfl; exact List.mem_singleton_self _) (setBit_only _ _ _))
      ⟨d3_set _, bit_setBit_other _ (by decide) (by decide), ?_⟩
    exact congrArg Bool.not (d3_set (later s.dev dt))
  · rintro s dt d rfl asleep rings
    obtain ⟨frame, effect⟩ := leaveD3_effect rings asleep
    exact exists_run_moves (f := fun _ d => d.leaveD3) rfl frame effect
  · rintro s dt d rfl awake
    exact exists_run_only (f := fun _ d => d.leaveD3) (leaveD3_awake awake) (only_refl _ _ _)
  · rintro s dt width speed d rfl ⟨lanes, low, high⟩
    exact exists_run_moves (f := fun _ d => d.pcieUp width speed) rfl (pcieUp_only lanes ⟨low, high⟩) (pcieUp_effect lanes ⟨low, high⟩)
  · rintro s v d rfl ⟨hv, pending, ready⟩
    obtain ⟨frame, sent⟩ := unmask_sends hv pending ready
    exact exists_run_moves (f := fun _ d => if v < 64 then writeMsix (msixOff v 3) 0 d else d) (if_pos hv) frame sent
  · rintro s v d rfl ⟨hv, clear⟩
    exact exists_run_moves (f := fun _ d => if v < 64 then writeMsix (msixOff v 3) 0 d else d) ((if_pos hv).trans (unmask_clear clear))
      (unmasked_only _ v) ⟨(regN_unmasked _ v _).trans (if_pos rfl), rfl⟩
  · rintro s c d value hr rfl
    exact exec_of_gatedAccept (f := fun x => (x, .done sOk (value % 2 ^ 32))) hr rfl rfl
  · rintro s c d n hr rfl idle
    exact exec_of_gatedAccept hr rfl (hifFlush_idle idle)
  · rintro s c d n k hr rfl ⟨low, high, runs, used⟩
    exact exec_of_gatedAccept hr rfl (hifFlush_used ⟨low, high⟩ runs used)
  · rintro s c d n k hr rfl ⟨low, high, runs, unused⟩
    exact exec_of_gatedAccept hr rfl (hifFlush_unused ⟨low, high⟩ runs unused)

end Sys2Proof.Machine
end
